-- ==== Sys2Proof/Word.lean ====
section
/-! DEFINITION. The word types of the OA-1224: 64-bit register words, bytes, 64-byte lines (R46, R55, R244). -/
namespace Sys2Proof

/-- A 64-bit register word. -/
abbrev Word := BitVec 64

/-- One byte of memory. -/
abbrev Byte := BitVec 8

/-- The 64 bytes of one line, byte i in bits [8i+7:8i] (R244: every line is 64 bytes; instructions and data are
little-endian, R46). -/
abbrev LineData := BitVec 512

/-- A 256-bit Q register (R55). -/
abbrev QWord := BitVec 256

end Sys2Proof
end

