-- ==== Sys2Proof/Syntax.lean ====
section
/-! DEFINITION. The commands the OA-1224 takes: one constructor per row of spec/opcode_table.json, with the row's operands.
A core instruction's operands are the raw fields of its format (chapter 02), so that every form of the encoding, the
UNDEF ones too, is a command. What lies outside the block's own state (a sensor's reading, what check bits show, a
choice the spec leaves to the hardware) is an operand of the command that meets it. -/
namespace Sys2Proof

/-- An executing core: 0 to 239 the physical core 20s + c (chapter 01), 240 the management processor. -/
abbrev CoreId := Fin 241
/-- A compute stack, its base tile and its home (chapter 01). -/
abbrev StackId := Fin 12
/-- A holder identifier (R274). -/
abbrev HolderId := BitVec 8
/-- A line number: PA[51:6]. -/
abbrev LineNo := BitVec 46
/-- A physical address (R26). -/
abbrev PhysAddr := BitVec 52
/-- A die number (R309). -/
abbrev DieId := Fin 13

/-- A stop of the runner fabric in this package (R309). -/
structure StopId where
  die : Nat
  stop : Nat
  deriving DecidableEq, Repr

/-- Who performs an access of a set-up register (R14, R491, R606): a core, in a world; the management processor (normal world,
with the rights rules give it alone); the debug access port, in the world it names. -/
inductive By where
  | core (c : Fin 240) (secure : Bool)
  | mp
  | dap (secure : Bool)
  deriving DecidableEq, Repr

/-- What the check bits of a memory element show when it is read (R255, R375). The device and rank are what the
controller's decoder names. -/
inductive Ecc where
  | clean
  | corrected (device rank : Nat)
  | uncorrectable (device rank : Nat)
  deriving DecidableEq, Repr

/-- What the reads made for one request show: memory, the L3 way, the directory entry (dirTag: the error falls in the
word that holds TAG, R282), the way of the L3 set whose tag both copies lost (R571) or one copy (R255), the victim written back. -/
structure Findings where
  mem : Ecc := .clean
  l3 : Ecc := .clean
  dir : Ecc := .clean
  dirTag : Bool := false
  tagLost : Option Nat := none
  l3Tag : Option Nat := none
  victim : Ecc := .clean
  deriving DecidableEq, Repr

/-- What the check bits of a line show as a set walk reads it (R255). -/
structure LineFound where
  line : BitVec 46
  ecc : Ecc
  deriving DecidableEq, Repr

/-- A way's retirement walk at a home ends (12: the hub I/O cache): what the check bits showed of the lines it read. -/
structure WayWalk where
  home : Fin 13
  found : List LineFound
  deriving DecidableEq, Repr

/-- A home's flush ends: what the check bits showed of the lines it read. -/
structure FlushWalk where
  home : StackId
  found : List LineFound
  deriving DecidableEq, Repr

/-- What parity shows of the units of a packet on one hop (R570): intact; a unit bad once, its resent copy intact; a data unit bad in
the upstream copy too; the header unit bad in both. -/
inductive UnitPar where
  | intact
  | resent
  | dataBad
  | headerBad
  deriving DecidableEq, Repr

/-- What the arrays of a core's L1 and L2 show when a line is read (R569, R650), with the way. -/
inductive ArrErr where
  | none_
  | l1i (way : Nat)
  | l1d (way : Nat)
  | l2 (way : Nat)
  | l2Tag (way : Nat)
  | l2TagBoth
  deriving DecidableEq, Repr

/-- What an access of a core meets beside the state: whether it uses no cached translation (a core may keep or drop any
entry, R209), what its arrays show, and whether the held answer to a far atomic or SCOND shows a parity error as it is used (R160). -/
structure Seen where
  fresh : Bool := false
  arr : ArrErr := .none_
  held : Bool := false
  deriving DecidableEq, Repr

/-- What a request to a home carries beside its address (R250, R312): world, PARTID, KEYID. -/
structure ReqAttr where
  world : Bool
  partid : BitVec 4
  keyid : BitVec 11
  deriving DecidableEq, Repr

/-- T format: RD, RS1, RS2 (the major opcode and FN are the constructor's). -/
structure OpT where
  rd : BitVec 5
  rs1 : BitVec 5
  rs2 : BitVec 5
  deriving DecidableEq, Repr

/-- K format: RD, RS1, IMM16. -/
structure OpK where
  rd : BitVec 5
  rs1 : BitVec 5
  imm : BitVec 16
  deriving DecidableEq, Repr

/-- The SHI form of K: IMM16[15:8] (to be 0) and the shift amount IMM16[5:0]. -/
structure OpShi where
  rd : BitVec 5
  rs1 : BitVec 5
  hi : BitVec 8
  amt : BitVec 6
  deriving DecidableEq, Repr

/-- M format: RT, AB, MODE, IMM15 (MODE 0b11: DX, SHIFT and RES0 lie in the same 15 bits). -/
structure OpM where
  rt : BitVec 5
  ab : BitVec 4
  mode : BitVec 2
  imm : BitVec 15
  deriving DecidableEq, Repr

/-- N format: RT, BK, OFF18. -/
structure OpN where
  rt : BitVec 5
  bk : BitVec 3
  off : BitVec 18
  deriving DecidableEq, Repr

/-- J format, conditional layout: RC, DISP21. -/
structure OpB where
  rc : BitVec 5
  disp : BitVec 21
  deriving DecidableEq, Repr

/-- Y format: QD, QS1, QS2, RX, LN. -/
structure OpY where
  qd : BitVec 3
  qs1 : BitVec 3
  qs2 : BitVec 3
  rx : BitVec 5
  ln : BitVec 2
  deriving DecidableEq, Repr

/-- The atomic form of T: RD, RS1, RS2, AQ, RL, FN[8:6] (to be 0), SZ. -/
structure OpAt where
  rd : BitVec 5
  rs1 : BitVec 5
  rs2 : BitVec 5
  aq : Bool
  rl : Bool
  res : BitVec 3
  sz : BitVec 2
  deriving DecidableEq, Repr

/-- The block-repeat form of T: RD (count), RS1, RS2, DR, FN[2] (to be 0), SZ. -/
structure OpR where
  rd : BitVec 5
  rs1 : BitVec 5
  rs2 : BitVec 5
  dr : BitVec 5
  res : Bool
  sz : BitVec 2
  deriving DecidableEq, Repr

/-- S format: RT, SYS. -/
structure OpS where
  rt : BitVec 5
  sys : BitVec 12
  deriving DecidableEq, Repr

/-- A far atomic as FAR carries it: the address, AOP, SZ, AQ, RL, the operand and the compare value of ACAS (R283,
R312). -/
structure FarOp where
  pa : PhysAddr
  aop : BitVec 4
  sz : BitVec 2
  aq : Bool
  rl : Bool
  opnd : Word
  cmp : Word
  deriving DecidableEq, Repr

/-- A TINV on its way to a core (R129, R130, R211): its scope as resolved at the issuing core. -/
inductive TinvKind where
  | va | asid | vmid | all
  deriving DecidableEq, Repr

/-- The scope of a broadcast TLB invalidation (R211, R212). `regimes` lists the regimes it acts on (1 = PL1&0 and stage 2,
2, 3); `vmid = none` means every VMID. -/
structure Tinv where
  kind : TinvKind
  worlds : List Bool
  regimes : List Nat
  vmid : Option Nat
  asid : Nat
  allAsid : Bool
  last : Bool
  vpn : Nat
  from_ : Nat
  deriving DecidableEq, Repr

/-- What a cascade-wide broadcast carries (R366). -/
inductive BcastKind where
  | tinv
  | maintenance
  | interruptAll
  deriving DecidableEq, Repr

/-- A broadcast that reaches this package over the cascade (R366): the package that issued it, its number (0 when it still goes
to the master for one), or the report that it is complete: at the master that of the package named, elsewhere the master's for all. -/
structure BcIn where
  pkg : Fin 4
  kind : BcastKind
  seq : Nat
  done : Bool
  tinv : Option Tinv
  deriving DecidableEq, Repr

/-- A runner packet of another package, as a Palrath flit brings it (R312, R313): the header's fields and the data units. -/
structure PkgMsg where
  cmd : BitVec 8
  len : BitVec 2
  pkg : Fin 4
  src : StopId
  dst : StopId
  txid : BitVec 16
  world : Bool
  partid : BitVec 4
  keyid : BitVec 11
  poison : Bool
  addr : PhysAddr
  mask : BitVec 64
  arg : BitVec 61
  data : LineData
  deriving DecidableEq, Repr

/-- What a Palrath flit is on arrival (R361): whether FEC and CRC-32C pass, its sequence number, the number it acknowledges,
whether it asks for a retry, and the packets whose last units are among its 8. -/
structure FlitIn where
  good : Bool
  seq : BitVec 12
  ack : BitVec 12
  nak : Bool
  msgs : List PkgMsg
  deriving DecidableEq, Repr

/-- A Palrath group of this package: a lane group (R359). -/
abbrev GroupId := Fin 32
/-- One of the 48 ends of the Sprue links: stack end e of stack s is 3s + e, the hub end of spoke s is 36 + s. -/
abbrev EndId := Fin 48

/-- What IDENT brings from another package (R363, R364): the group it came over, CASC_ID, PKGID.SERIAL, PALREV, FEATURES, the
cascade IDs it has seen, and the width the group trained to. -/
structure IdentIn where
  group : GroupId
  id : Fin 4
  serial : Nat
  rev : BitVec 8
  features : Word
  seen : BitVec 4
  width : BitVec 2
  deriving DecidableEq, Repr


/-- What the outside of the package gives an access of the PCIe and CXL.io slot or the low device window (R227, R237): the root port
that claims its address (the ports' standard configuration decides), and, for an engine's transfer, whether the function
completes it without error. -/
structure DevAns where
  group : Fin 24
  port : Fin 4
  ok : Bool
  deriving DecidableEq, Repr

/-- What a transfer of an engine meets beside the state: whether it uses no cached translation (R441), what the reads at homes show,
what a device at the source or the destination answers. -/
structure EngIn where
  fresh : Bool
  f : Findings
  src : DevAns
  dst : DevAns
  deriving DecidableEq, Repr

/-- A queue pair (chapter 13). -/
abbrev QueueId := Fin 16384
/-- A share (chapter 13). -/
abbrev ShareId := Fin 4096
/-- An optical engine (R18). -/
abbrev OptId := Fin 4
/-- An Ethernet MAC (R407). -/
abbrev MacId := Fin 16

/-- An inbound request of a PCIe or CXL.io requester (R402): its kind, the requester's routing ID, address, byte count and data; a
poisoned write (EP); an AtomicOp (0 FetchAdd, 1 Swap, 2 CAS) of 64 or 32 bits. -/
inductive PcieReq where
  | read (rid : BitVec 16) (pa : PhysAddr) (len : Nat)
  | write (rid : BitVec 16) (pa : PhysAddr) (data : List Byte) (ep : Bool)
  | atomic (rid : BitVec 16) (pa : PhysAddr) (aop : Fin 3) (wide : Bool) (opnd cmp : Word)
  deriving DecidableEq, Repr

/-- A configuration access within the ECAM region (R400): bus, device and function, dword, a write's data and byte enables. -/
structure CfgAcc where
  bus : BitVec 8
  dev : BitVec 5
  fn : BitVec 3
  dword : BitVec 10
  write : Option (BitVec 32 × BitVec 4)
  deriving DecidableEq, Repr

/-- The light of a slot since its last record (R415): lit seconds, the weighted time in half seconds, the highest temperature seen and
the lowest laser output. -/
structure LitIn where
  secs : Nat
  halfSecs : Nat
  temp : BitVec 16
  pwr : BitVec 16
  deriving DecidableEq, Repr

/-- A failed check of a cipher block (R482, R483): which unit of the step it was, the round units that took part, those of the retry,
and whether the retry fails too. -/
structure UnitFail where
  blk : Nat
  units : List (Fin 16)
  retry : List (Fin 16)
  again : Bool
  deriving DecidableEq, Repr

/-- What a message meets beside the state: its cluster, how many blocks it works now (none: to its end), whether the hub entropy source
is healthy (R485), the checks that fail. -/
structure CipherIn where
  cluster : Fin 4
  run : Option Nat
  healthy : Bool
  fails : List UnitFail
  deriving DecidableEq, Repr

/-- A logical core of this package (R24). -/
abbrev LogCore := Fin 216

/-- A register of a halted core as the debug access port names it (R511): PC, D, A, a quarter of Q, or a system register with the world of
the copy. -/
inductive DapReg where
  | pc
  | d (n : BitVec 5)
  | a (n : BitVec 4)
  | q (n : BitVec 3) (part : BitVec 2)
  | sys (n : BitVec 12) (w : Bool)
  deriving DecidableEq, Repr

/-- What the boot ROM finds (R597, R598): the flash's density in bytes, whether each image can be read, and whether its public key's
digest and its signature hold (the primary, or the image received over the Ihlell link; the secondary). -/
structure BootIn where
  density : Nat
  read0 : Bool
  good0 : Bool
  read1 : Bool
  good1 : Bool
  deriving DecidableEq, Repr

/-- The revision a die reports (R632). -/
structure DieRev where
  letter : BitVec 8
  digit : BitVec 8
  deriving DecidableEq, Repr

/-- The modules of a memory channel (R369): their type (0 planar RDIMM, 1 3DS RDIMM, 2 MRDIMM; 3 unsupported), how many (0 none), x8
devices, the channel's capacity in GiB, and the highest rate the modules are rated for (coded as MCSTAT.RATE). -/
structure ChMods where
  kind : Nat := 0
  dimms : Nat := 0
  x8 : Bool := false
  cap : Nat := 0
  rate : Nat := 0
  deriving DecidableEq, Repr

/-- The readings of one sample of ANNEAL (R560): the hottest sensor in degrees (two's complement) and its domain, VIN_MAIN in mV, the
groups that receive a signal, the sensors at or above 115 degrees (domain * 8 + place). -/
structure SampleIn where
  temp : BitVec 8
  dom : BitVec 10
  vin : BitVec 12
  sig : BitVec 32
  hot : List (BitVec 13)
  deriving DecidableEq, Repr

/-- An operation of the debug access port as the Ihlell link carries it (R511). -/
inductive DapOp where
  | halt (n : LogCore)
  | resume (n : LogCore)
  | step (n : LogCore)
  | regRead (n : LogCore) (r : DapReg)
  | regWrite (n : LogCore) (r : DapReg) (v : Word)
  | memRead (w : Bool) (keyid : BitVec 11) (dw : BitVec 49) (f : Findings) (a : DevAns)
  | memWrite (w : Bool) (keyid : BitVec 11) (dw : BitVec 49) (v : Word) (f : Findings) (a : DevAns)
  | setupRead (w : Bool) (off : BitVec 40)
  | setupWrite (w : Bool) (off : BitVec 40) (v : Word)
  deriving DecidableEq, Repr


/-- The commands of the block: one constructor per row of spec/opcode_table.json. -/
inductive Instr where
  /-- ADD (R91): Writes the sum of two D registers, modulo 2^64, to the destination D register. -/
  | add (c : CoreId) (o : OpT)
  /-- SUB (R91): Writes the difference of two D registers to the destination D register. -/
  | sub (c : CoreId) (o : OpT)
  /-- AND (R91): Writes the bitwise AND of two D registers. -/
  | and (c : CoreId) (o : OpT)
  /-- OR (R91): Writes the bitwise OR of two D registers. -/
  | or (c : CoreId) (o : OpT)
  /-- XOR (R91): Writes the bitwise XOR of two D registers. -/
  | xor (c : CoreId) (o : OpT)
  /-- ANDN (R91): Writes Ds1 AND NOT Ds2. -/
  | andn (c : CoreId) (o : OpT)
  /-- SLL (R91): Shifts Ds1 left by Ds2[5:0]. -/
  | sll (c : CoreId) (o : OpT)
  /-- SRL (R91): Shifts Ds1 right by Ds2[5:0] with zero fill. -/
  | srl (c : CoreId) (o : OpT)
  /-- SRA (R91): Shifts Ds1 right by Ds2[5:0] with sign fill. -/
  | sra (c : CoreId) (o : OpT)
  /-- ROR (R91): Rotates Ds1 right by Ds2[5:0]. -/
  | ror (c : CoreId) (o : OpT)
  /-- SEXT_B (R91): Sign-extends the low byte of Ds1. -/
  | sextB (c : CoreId) (o : OpT)
  /-- SEXT_H (R91): Sign-extends the low halfword of Ds1. -/
  | sextH (c : CoreId) (o : OpT)
  /-- SEXT_W (R91): Sign-extends the low word of Ds1. -/
  | sextW (c : CoreId) (o : OpT)
  /-- ZEXT_W (R91): Zero-extends the low word of Ds1. -/
  | zextW (c : CoreId) (o : OpT)
  /-- CLZ (R91): Counts the leading zero bits of Ds1, 64 when Ds1 is 0. -/
  | clz (c : CoreId) (o : OpT)
  /-- CTZ (R91): Counts the trailing zero bits of Ds1, 64 when Ds1 is 0. -/
  | ctz (c : CoreId) (o : OpT)
  /-- BSWAP (R91): Reverses the eight bytes of Ds1. -/
  | bswap (c : CoreId) (o : OpT)
  /-- MIN (R91): Writes the signed minimum of two D registers. -/
  | min (c : CoreId) (o : OpT)
  /-- MAX (R91): Writes the signed maximum of two D registers. -/
  | max (c : CoreId) (o : OpT)
  /-- MINU (R91): Writes the unsigned minimum of two D registers. -/
  | minu (c : CoreId) (o : OpT)
  /-- MAXU (R91): Writes the unsigned maximum of two D registers. -/
  | maxu (c : CoreId) (o : OpT)
  /-- MUL (R91): Writes the low 64 bits of the product. -/
  | mul (c : CoreId) (o : OpT)
  /-- MULH (R91): Writes the high 64 bits of the signed product. -/
  | mulh (c : CoreId) (o : OpT)
  /-- MULHU (R91): Writes the high 64 bits of the unsigned product. -/
  | mulhu (c : CoreId) (o : OpT)
  /-- DIV (R92): Writes the signed quotient rounded towards zero, with defined results for zero and overflow. -/
  | div (c : CoreId) (o : OpT)
  /-- DIVU (R92): Writes the unsigned quotient, all ones for division by zero. -/
  | divu (c : CoreId) (o : OpT)
  /-- REM (R92): Writes the signed remainder with the sign of Ds1. -/
  | rem (c : CoreId) (o : OpT)
  /-- REMU (R92): Writes the unsigned remainder, Ds1 for division by zero. -/
  | remu (c : CoreId) (o : OpT)
  /-- CMP_EQ (R49): Writes 1 when Ds1 equals Ds2, else 0. -/
  | cmpEq (c : CoreId) (o : OpT)
  /-- CMP_NE (R49): Writes 1 when Ds1 differs from Ds2, else 0. -/
  | cmpNe (c : CoreId) (o : OpT)
  /-- CMP_LT (R49): Writes 1 when Ds1 is less than Ds2, signed. -/
  | cmpLt (c : CoreId) (o : OpT)
  /-- CMP_LTU (R49): Writes 1 when Ds1 is less than Ds2, unsigned. -/
  | cmpLtu (c : CoreId) (o : OpT)
  /-- CMP_GE (R49): Writes 1 when Ds1 is at least Ds2, signed. -/
  | cmpGe (c : CoreId) (o : OpT)
  /-- CMP_GEU (R49): Writes 1 when Ds1 is at least Ds2, unsigned. -/
  | cmpGeu (c : CoreId) (o : OpT)
  /-- ADDI (R91): Adds a sign-extended 16-bit immediate to a D register. -/
  | addi (c : CoreId) (o : OpK)
  /-- ANDI (R91): ANDs a zero-extended immediate into a D register. -/
  | andi (c : CoreId) (o : OpK)
  /-- ORI (R91): ORs a zero-extended immediate into a D register. -/
  | ori (c : CoreId) (o : OpK)
  /-- XORI (R91): XORs a zero-extended immediate into a D register. -/
  | xori (c : CoreId) (o : OpK)
  /-- SLLI (R91): Shifts a D register left by an immediate amount. -/
  | slli (c : CoreId) (o : OpShi)
  /-- SRLI (R91): Shifts a D register right by an immediate with zero fill. -/
  | srli (c : CoreId) (o : OpShi)
  /-- SRAI (R91): Shifts a D register right by an immediate with sign fill. -/
  | srai (c : CoreId) (o : OpShi)
  /-- RORI (R91): Rotates a D register right by an immediate amount. -/
  | rori (c : CoreId) (o : OpShi)
  /-- CMPI_EQ (R49): Writes 1 when Ds1 equals the sign-extended immediate. -/
  | cmpiEq (c : CoreId) (o : OpK)
  /-- CMPI_LT (R49): Writes 1 when Ds1 is below the immediate, signed. -/
  | cmpiLt (c : CoreId) (o : OpK)
  /-- CMPI_LTU (R49): Writes 1 when Ds1 is below the immediate, unsigned. -/
  | cmpiLtu (c : CoreId) (o : OpK)
  /-- MOVI (R91): Writes a sign-extended immediate to a D register. -/
  | movi (c : CoreId) (o : OpK)
  /-- MOVK (R91): Inserts a 16-bit immediate into one halfword of a D register. -/
  | movk (c : CoreId) (o : OpK)
  /-- ADDAI (R52): Adds a sign-extended immediate to an A register. -/
  | addai (c : CoreId) (o : OpK)
  /-- ADRPC (R52): Writes PC plus a scaled immediate to an A register. -/
  | adrpc (c : CoreId) (o : OpK)
  /-- ADDA (R52): Adds a D register to an A register. -/
  | adda (c : CoreId) (o : OpT)
  /-- SUBA (R52): Subtracts a D register from an A register. -/
  | suba (c : CoreId) (o : OpT)
  /-- DIFA (R52): Writes the difference of two A registers to a D register. -/
  | difa (c : CoreId) (o : OpT)
  /-- MOVA (R52): Copies one A register to another. -/
  | mova (c : CoreId) (o : OpT)
  /-- MOVAD (R52): Copies a D register to an A register. -/
  | movad (c : CoreId) (o : OpT)
  /-- MOVDA (R52): Copies an A register to a D register. -/
  | movda (c : CoreId) (o : OpT)
  /-- CMPA_EQ (R52): Compares two A registers for equality into a D register. -/
  | cmpaEq (c : CoreId) (o : OpT)
  /-- CMPA_NE (R52): Compares two A registers for inequality into a D register. -/
  | cmpaNe (c : CoreId) (o : OpT)
  /-- CMPA_LTU (R52): Compares two A registers, unsigned less-than, into a D register. -/
  | cmpaLtu (c : CoreId) (o : OpT)
  /-- CMPA_GEU (R52): Compares two A registers, unsigned greater-or-equal, into a D register. -/
  | cmpaGeu (c : CoreId) (o : OpT)
  /-- JR (R93): Jumps to the address in an A register, raising PC_ALIGN on a misaligned target. -/
  | jr (c : CoreId) (o : OpT)
  /-- JRL (R93): Jumps to an A register and writes the return address to the destination A register. -/
  | jrl (c : CoreId) (o : OpT)
  /-- BZ (R50): Branches when the tested D register is zero. -/
  | bz (c : CoreId) (o : OpB)
  /-- BNZ (R50): Branches when the tested D register is non-zero. -/
  | bnz (c : CoreId) (o : OpB)
  /-- J (R68): Jumps by a signed 26-bit word displacement. -/
  | j (c : CoreId) (disp : BitVec 26)
  /-- JL (R54): Long call: writes the return address to A14 and jumps. -/
  | jl (c : CoreId) (disp : BitVec 26)
  /-- LD_B (R67): Loads one byte, zero-extended, through the M format. -/
  | ldB (c : CoreId) (o : OpM) (e : Seen)
  /-- LD_H (R67): Loads a halfword, zero-extended, through the M format. -/
  | ldH (c : CoreId) (o : OpM) (e : Seen)
  /-- LD_W (R67): Loads a word, zero-extended, through the M format. -/
  | ldW (c : CoreId) (o : OpM) (e : Seen)
  /-- LD_D (R67): Loads a doubleword through the M format. -/
  | ldD (c : CoreId) (o : OpM) (e : Seen)
  /-- ST_B (R67): Stores one byte through the M format into the store buffer. -/
  | stB (c : CoreId) (o : OpM) (e : Seen)
  /-- ST_H (R67): Stores a halfword through the M format. -/
  | stH (c : CoreId) (o : OpM) (e : Seen)
  /-- ST_W (R67): Stores a word through the M format. -/
  | stW (c : CoreId) (o : OpM) (e : Seen)
  /-- ST_D (R67): Stores a doubleword through the M format. -/
  | stD (c : CoreId) (o : OpM) (e : Seen)
  /-- LD_A (R67): Loads 8 bytes into an A register. -/
  | ldA (c : CoreId) (o : OpM) (e : Seen)
  /-- ST_A (R67): Stores an A register as 8 bytes. -/
  | stA (c : CoreId) (o : OpM) (e : Seen)
  /-- LD_Q (R95): Loads 32 bytes into a Q register, lane 0 at the lowest address. -/
  | ldQ (c : CoreId) (o : OpM) (e : Seen)
  /-- ST_Q (R95): Stores a Q register as 32 bytes. -/
  | stQ (c : CoreId) (o : OpM) (e : Seen)
  /-- LDN_B (R60): Loads a byte at a bank register plus scaled offset. -/
  | ldnB (c : CoreId) (o : OpN) (e : Seen)
  /-- LDN_H (R60): Loads a halfword at a bank register plus scaled offset. -/
  | ldnH (c : CoreId) (o : OpN) (e : Seen)
  /-- LDN_W (R60): Loads a word at a bank register plus scaled offset. -/
  | ldnW (c : CoreId) (o : OpN) (e : Seen)
  /-- LDN_D (R60): Loads a doubleword at a bank register plus scaled offset. -/
  | ldnD (c : CoreId) (o : OpN) (e : Seen)
  /-- STN_B (R60): Stores a byte at a bank register plus scaled offset. -/
  | stnB (c : CoreId) (o : OpN) (e : Seen)
  /-- STN_H (R60): Stores a halfword at a bank register plus scaled offset. -/
  | stnH (c : CoreId) (o : OpN) (e : Seen)
  /-- STN_W (R60): Stores a word at a bank register plus scaled offset. -/
  | stnW (c : CoreId) (o : OpN) (e : Seen)
  /-- STN_D (R60): Stores a doubleword at a bank register plus scaled offset. -/
  | stnD (c : CoreId) (o : OpN) (e : Seen)
  /-- MOVB (R104): Copies a count of elements in element groups, ascending, resumable after interruption. -/
  | movb (c : CoreId) (o : OpR) (grp groups : Nat) (e : Seen)
  /-- FILLB (R102): Fills a count of elements with the low bytes of a D register, group by group. -/
  | fillb (c : CoreId) (o : OpR) (grp groups : Nat) (e : Seen)
  /-- CMPB (R106): Compares two element streams and stops at the first inequality, writing the remaining count. -/
  | cmpb (c : CoreId) (o : OpR) (grp groups : Nat) (e : Seen)
  /-- SCANB (R106): Scans elements for a value and stops at the first equality, writing the remaining count. -/
  | scanb (c : CoreId) (o : OpR) (grp groups : Nat) (e : Seen)
  /-- QADD (R55): Adds two Q registers lane by lane. -/
  | qadd (c : CoreId) (o : OpY)
  /-- QSUB (R55): Subtracts two Q registers lane by lane. -/
  | qsub (c : CoreId) (o : OpY)
  /-- QMUL (R55): Multiplies two Q registers lane by lane, keeping low bits. -/
  | qmul (c : CoreId) (o : OpY)
  /-- QMAC (R55): Multiply-accumulates lane products into the destination Q register. -/
  | qmac (c : CoreId) (o : OpY)
  /-- QAND (R55): ANDs two Q registers lane by lane. -/
  | qand (c : CoreId) (o : OpY)
  /-- QOR (R55): ORs two Q registers lane by lane. -/
  | qor (c : CoreId) (o : OpY)
  /-- QXOR (R55): XORs two Q registers lane by lane. -/
  | qxor (c : CoreId) (o : OpY)
  /-- QZERO (R55): Clears a Q register. -/
  | qzero (c : CoreId) (o : OpY)
  /-- QPOPC (R55): Counts the 1 bits of each lane of a Q register. -/
  | qpopc (c : CoreId) (o : OpY)
  /-- QINS (R109): Inserts the low bits of a D register into lane L of a Q register. -/
  | qins (c : CoreId) (o : OpY) (l : BitVec 3)
  /-- QEXT (R109): Extracts lane L of a Q register into a D register. -/
  | qext (c : CoreId) (o : OpY) (l : BitVec 3)
  /-- QBCAST (R109): Broadcasts the low bits of a D register to every lane. -/
  | qbcast (c : CoreId) (o : OpY) (l : BitVec 3)
  /-- QMOV (R109): Copies one Q register to another. -/
  | qmov (c : CoreId) (o : OpY) (l : BitVec 3)
  /-- QSUM (R109): Sums every lane of a Q register into a D register. -/
  | qsum (c : CoreId) (o : OpY) (l : BitVec 3)
  /-- QCLMUL (R110): Carry-less multiplies two pairs of 64-bit lanes. -/
  | qclmul (c : CoreId) (o : OpY)
  /-- QCRC32C (R111): Continues a CRC32C over the 32 bytes of a Q register. -/
  | qcrc32c (c : CoreId) (o : OpY)
  /-- QPOPCT (R55): Counts the 1 bits of all 256 bits of a Q register. -/
  | qpopct (c : CoreId) (o : OpY)
  /-- ASWP (R112): Atomically swaps a location with Ds2, returning the old value. -/
  | aswp (c : CoreId) (o : OpAt) (e : Seen)
  /-- AADD (R112): Atomically adds Ds2 to a location, returning the old value. -/
  | aadd (c : CoreId) (o : OpAt) (e : Seen)
  /-- AAND (R112): Atomically ANDs Ds2 into a location. -/
  | aand (c : CoreId) (o : OpAt) (e : Seen)
  /-- AOR (R112): Atomically ORs Ds2 into a location. -/
  | aor (c : CoreId) (o : OpAt) (e : Seen)
  /-- AXOR (R112): Atomically XORs Ds2 into a location. -/
  | axor (c : CoreId) (o : OpAt) (e : Seen)
  /-- ASMAX (R112): Atomically stores the signed maximum of the location and Ds2. -/
  | asmax (c : CoreId) (o : OpAt) (e : Seen)
  /-- ASMIN (R112): Atomically stores the signed minimum of the location and Ds2. -/
  | asmin (c : CoreId) (o : OpAt) (e : Seen)
  /-- AUMAX (R112): Atomically stores the unsigned maximum. -/
  | aumax (c : CoreId) (o : OpAt) (e : Seen)
  /-- AUMIN (R112): Atomically stores the unsigned minimum. -/
  | aumin (c : CoreId) (o : OpAt) (e : Seen)
  /-- ACAS (R112): Atomically stores Ds2 when the location equals Dd, returning the old value. -/
  | acas (c : CoreId) (o : OpAt) (e : Seen)
  /-- LRES (R117): Loads a location and sets the reservation on its granule. -/
  | lres (c : CoreId) (o : OpAt) (e : Seen)
  /-- SCOND (R120): Stores only if the reservation covers the access, writing success, and clears the reservation. -/
  | scond (c : CoreId) (o : OpAt) (e : Seen)
  /-- CINV_VA (R123): Invalidates every copy of a line, acting as CFLUSH.VA at normal-world PL1. -/
  | cinvVa (c : CoreId) (o : OpT) (e : Seen)
  /-- CCLEAN_VA (R124): Writes any dirty copy of a line to memory, leaving copies clean. -/
  | ccleanVa (c : CoreId) (o : OpT) (e : Seen)
  /-- CFLUSH_VA (R124): Writes back and invalidates every copy of a line. -/
  | cflushVa (c : CoreId) (o : OpT) (e : Seen)
  /-- MAINTENANCE_COMPLETE (R125): Completion of a core's maintenance by address, raising a deferred BUS_ERROR on error. -/
  | maintenanceComplete (c : CoreId)
  /-- NOP (R126): Does nothing. -/
  | nop (c : CoreId) (o : OpS)
  /-- SYSRD (R82): Reads a system register, subject to denial, traps and UNDEF. -/
  | sysrd (c : CoreId) (o : OpS)
  /-- SYSWR (R85): Writes a system register without behaviour of its own, subject to denial and traps. -/
  | syswr (c : CoreId) (o : OpS)
  /-- REGRAN_WRITE (R234): Writes the reservation granule; a permitted value clears the reservation. -/
  | regranWrite (c : CoreId) (rt : BitVec 5)
  /-- ATPOL_CLR (R296): Writing ATPOL.CLR sets every atomic placement predictor counter to 0. -/
  | atpolClr (c : CoreId) (rt : BitVec 5)
  /-- CNTSAVE_WRITE (R543): Saves counter state to the old block, records the new address and restores from it. -/
  | cntsaveWrite (c : CoreId) (rt : BitVec 5)
  /-- SCALL (R126): Supervisor call entering PL1 through the call vector. -/
  | scall (c : CoreId) (o : OpS)
  /-- HCALL (R126): Hypervisor call entering PL2 through the call vector. -/
  | hcall (c : CoreId) (o : OpS)
  /-- WCALL (R126): Monitor call entering secure PL3, clearing the reservation and predictors from the normal world. -/
  | wcall (c : CoreId) (o : OpS)
  /-- ERET (R73): Returns from an exception, restoring CSTAT and PC or raising ILLEGAL_RETURN. -/
  | eret (c : CoreId) (o : OpS)
  /-- BAR_LD (R235): Orders earlier loads before later loads and stores. -/
  | barLd (c : CoreId) (o : OpS)
  /-- BAR_ST (R235): Orders earlier stores before later stores. -/
  | barSt (c : CoreId) (o : OpS)
  /-- BAR_ALL (R235): Orders all earlier accesses and maintenance before later ones. -/
  | barAll (c : CoreId) (o : OpS)
  /-- BAR_DEV (R238): Waits until every earlier DEV access has completed, with or without error. -/
  | barDev (c : CoreId) (o : OpS)
  /-- BAR_SYNC (R156): Context-synchronises, waiting for earlier writes, TINVs and maintenance to take effect. -/
  | barSync (c : CoreId) (o : OpS)
  /-- TINV_VA (R211): Broadcasts invalidation of translations of one VA within the level's scope. -/
  | tinvVa (c : CoreId) (o : OpS)
  /-- TINV_ASID (R211): Broadcasts invalidation of the non-global and walk-cache entries of an ASID. -/
  | tinvAsid (c : CoreId) (o : OpS)
  /-- TINV_VMID (R211): Broadcasts invalidation of every entry of a VMID. -/
  | tinvVmid (c : CoreId) (o : OpS)
  /-- TINV_ALL (R129): Broadcasts invalidation of every entry within the level's scope. -/
  | tinvAll (c : CoreId) (o : OpS)
  /-- WRPKEY (R131): Writes PKEY of the current world, effective from the next instruction. -/
  | wrpkey (c : CoreId) (o : OpS)
  /-- RDPKEY (R131): Reads PKEY of the current world into a D register. -/
  | rdpkey (c : CoreId) (o : OpS)
  /-- UACC_ON (R132): Opens the PL1 user-access window. -/
  | uaccOn (c : CoreId) (o : OpS)
  /-- UACC_OFF (R132): Closes the PL1 user-access window. -/
  | uaccOff (c : CoreId) (o : OpS)
  /-- WAIT (R133): Stops the core, in the WAITST state, until an interrupt, deferred error or halt request. -/
  | wait (c : CoreId) (o : OpS)
  /-- WAIT_END (R550): An ending event returns a waiting core to RUN and completes WAIT. -/
  | waitEnd (c : CoreId)
  /-- CORE_IDLE_RETURN (R551): A core woken by a snoop returns to its WAITST state after 1 us or 10 us without packets. -/
  | coreIdleReturn (c : CoreId)
  /-- TAKE_INTERRUPT (R645): At a boundary the core takes the highest-priority signalled interrupt it may take. -/
  | takeInterrupt (c : CoreId)
  /-- TAKE_DEFERRED_ERROR (R75): At a boundary the core takes a pending deferred error before any interrupt. -/
  | takeDeferredError (c : CoreId)
  /-- STAGE_CHECK_FAIL (R158): A stage completion or parity check fails; the core squashes and re-executes from the oldest instruction. -/
  | stageCheckFail (c : CoreId) (heldBad : Bool)
  /-- RETIRED_STATE_PARITY_ERROR (R162): A parity error in retired register state stops the core. -/
  | retiredStateParityError (c : CoreId)
  /-- STORE_BUFFER_DRAIN (R228): The oldest eligible store buffer entry leaves for coherence or its DEV destination. -/
  | storeBufferDrain (c : CoreId) (i : Nat) (e : ArrErr)
  /-- DEV_STORE_ERROR_COMPLETION (R239): An error completion of a DEV store reaches the core and sets a deferred BUS_ERROR pending. -/
  | devStoreErrorCompletion (c : CoreId) (i : Nat)
  /-- DRAIN_WINDOW_END (R165): After 100 us of reset drain, the remaining store buffer entries are discarded and counted in RSTLOSS. -/
  | drainWindowEnd (c : CoreId)
  /-- VREQ_WRITE (R145): Writes a stack's requested supply and recomputes its setpoint, refused for secure-owned stacks. -/
  | vreqWrite (by_ : By) (st : StackId) (v : Word)
  /-- SUPPLY_ARRIVES (R146): The slewing stack supply reaches its setpoint and SLEWING clears. -/
  | supplyArrives (st : StackId)
  /-- AGING_EVALUATION (R150): Every 24 h in POUR the management processor re-evaluates drift and raises offsets by at most 5 mV. -/
  | agingEvaluation (st : StackId) (drifts : List Nat) (fabDrift : Nat)
  /-- TINV_BC (R130): A broadcast TLB invalidation reaches a core, which removes matching entries and completes. -/
  | tinvBc (c : CoreId)
  /-- CASCADE_BROADCAST (R366): The master numbers a cascade-wide broadcast and sends it to every package in sequence order. -/
  | cascadeBroadcast (b : Option BcIn)
  /-- RDS (R286): A read for a shared copy reaches its home and is served by directory state. -/
  | rds (h : HolderId) (line : LineNo) (a : ReqAttr) (f : Findings)
  /-- RDX (R286): A read for ownership reaches its home and is served by directory state. -/
  | rdx (h : HolderId) (line : LineNo) (a : ReqAttr) (f : Findings)
  /-- UPG (R286): An ownership upgrade reaches its home, or is handled as RDX when the holder is no longer listed. -/
  | upg (h : HolderId) (line : LineNo) (a : ReqAttr) (f : Findings)
  /-- PUTS (R286): A dropped S copy is removed from the directory entry. -/
  | puts (h : HolderId) (line : LineNo)
  /-- PUTE (R286): A dropped E copy is applied or answered stale. -/
  | pute (h : HolderId) (line : LineNo)
  /-- PUTF (R286): A dropped F copy is applied or answered stale. -/
  | putf (h : HolderId) (line : LineNo)
  /-- PUTM (R293): A dirty M writeback is written and acknowledged, or dropped as stale. -/
  | putm (h : HolderId) (line : LineNo) (e : ArrErr)
  /-- PUTO (R293): A dirty O writeback is written and acknowledged, or dropped as stale. -/
  | puto (h : HolderId) (line : LineNo) (e : ArrErr)
  /-- FAR (R294): A far atomic reaches the home's atomic unit, which recalls copies and performs the operation. -/
  | far (c : CoreId) (q : FarOp) (a : ReqAttr) (f : Findings)
  /-- RDC (R218): A read without caching reaches the home and returns the latest value. -/
  | rdc (src : StopId) (line : LineNo) (a : ReqAttr) (f : Findings)
  /-- WRC (R218): A write without caching reaches the home, which recalls copies and merges the data. -/
  | wrc (src : StopId) (line : LineNo) (mask : BitVec 64) (data : LineData) (a : ReqAttr) (f : Findings)
  /-- CMO_CLN (R286): A clean maintenance request reaches the home. -/
  | cmoCln (src : StopId) (line : LineNo) (a : ReqAttr) (f : Findings)
  /-- CMO_FLS (R286): A clean-and-invalidate maintenance request reaches the home. -/
  | cmoFls (src : StopId) (line : LineNo) (a : ReqAttr) (f : Findings)
  /-- CMO_INV (R286): An invalidate-only maintenance request reaches the home, discarding dirty data. -/
  | cmoInv (src : StopId) (line : LineNo) (a : ReqAttr) (f : Findings)
  /-- CAS64 (R203): A table-entry compare-and-swap reaches the entry's home. -/
  | cas64 (c : CoreId) (pa : PhysAddr) (expect new : Word) (a : ReqAttr) (f : Findings)
  /-- DEV_RD (R221): A DEV read reaches its register block or root port and completes. -/
  | devRd (src : StopId) (txid : BitVec 16) (a : DevAns)
  /-- DEV_WR (R237): A DEV write reaches its register block or root port, which performs, holds or fails it. -/
  | devWr (src : StopId) (txid : BitVec 16) (a : DevAns)
  /-- FWD_S (R288): An owner or forwarder receives a shared forward and supplies the requester. -/
  | fwdS (h : HolderId) (line : LineNo) (e : ArrErr)
  /-- FWD_X (R288): An owner or forwarder receives an exclusive forward, supplies DATA_M and drops its copy. -/
  | fwdX (h : HolderId) (line : LineNo) (e : ArrErr)
  /-- INV (R288): A holder receives an invalidation and answers INV_ACK. -/
  | inv (h : HolderId) (line : LineNo)
  /-- RCL_C (R288): An owner returns dirty data to the home and keeps a clean copy. -/
  | rclC (h : HolderId) (line : LineNo) (e : ArrErr)
  /-- RCL_I (R288): An owner returns dirty data to the home and drops its copy. -/
  | rclI (h : HolderId) (line : LineNo) (e : ArrErr)
  /-- DATA_S (R289): Shared data reaches a requester, which installs it and acts on held snoops. -/
  | dataS (h : HolderId) (line : LineNo)
  /-- DATA_F (R289): Forwarder data reaches a requester, which installs it in F. -/
  | dataF (h : HolderId) (line : LineNo)
  /-- DATA_E (R289): Exclusive clean data reaches a requester, which installs it in E. -/
  | dataE (h : HolderId) (line : LineNo)
  /-- DATA_M (R285): Ownership data reaches a requester, which holds M once COMP has also arrived. -/
  | dataM (h : HolderId) (line : LineNo)
  /-- COMP (R285): Completion of RDX or UPG reaches the requester, granting M with the data. -/
  | comp (h : HolderId) (line : LineNo)
  /-- FAR_RSP (R294): The old value of a far atomic reaches the core, with CONTENDED and any poison. -/
  | farRsp (c : CoreId) (line : LineNo)
  /-- RD_RSP (R221): Data for an RDC or DEV read reaches the requester. -/
  | rdRsp (src : StopId) (txid : BitVec 16)
  /-- WR_CMP (R221): Completion of WRC, CMO, CAS64, DEV write or TINV broadcast reaches the requester. -/
  | wrCmp (src : StopId) (txid : BitVec 16)
  /-- ERR_RSP (R574): An error completion reaches its requester, or counts as a snoop timeout at a home. -/
  | errRsp (src : StopId) (txid : BitVec 16)
  /-- FWD_DONE (R293): The home records the state kept and any stale PUT ID, then sends COMP when due. -/
  | fwdDone (h : HolderId) (line : LineNo)
  /-- INV_ACK (R285): An invalidation answer reaches the home. -/
  | invAck (h : HolderId) (line : LineNo)
  /-- RCL_ACK (R286): A recall answer reaches the home, which writes any dirty data. -/
  | rclAck (h : HolderId) (line : LineNo)
  /-- WB_ACK (R289): A holder in XI_A receives the applied writeback and goes to I. -/
  | wbAck (h : HolderId) (line : LineNo)
  /-- WB_STALE (R289): A holder in XI_A receives a stale answer and goes to I. -/
  | wbStale (h : HolderId) (line : LineNo)
  /-- HOME_TIMEOUT (R300): A snoop timer expires; the home poisons the line, answers the requester and fences the silent holder. -/
  | homeTimeout (h : HolderId) (line : LineNo)
  /-- FENCE (R301): A fence notice reaches a home or the hub, which sets the holder's HFENCE bit. -/
  | fence (die : DieId) (h : HolderId)
  /-- STOP_FORWARD (R324): A stop's lane arbiter chooses and forwards a packet when credit allows. -/
  | stopForward (st next : StopId) (lane : Nat) (par : UnitPar)
  /-- URGENCY_AGEING (R325): Every 32 ticks a waiting packet's URG rises by one, saturating at 15. -/
  | urgencyAgeing (i : Nat)
  /-- TOKEN_GAIN (R323): Every 128 ticks a G source's token bucket gains one token. -/
  | tokenGain (st : StopId)
  /-- INGRESS_REOPEN (R332): A domain back in RUN reopens its ingress and parked packets are delivered in order. -/
  | ingressReopen (st : StopId)
  /-- FSTOP_WRITE (R333): The management processor moves a stop to BYPASS_PENDING, FENCED or REJOIN. -/
  | fstopWrite (by_ : By) (st : StopId) (v : Word)
  /-- STOP_DRAINED (R333): A BYPASS_PENDING stop finishes draining and enters BYPASS. -/
  | stopDrained (st : StopId)
  /-- STOP_DRAIN_TIMEOUT (R334): A stop not drained within 20 us becomes FENCED and its held requests get ERR_RSP. -/
  | stopDrainTimeout (st : StopId)
  /-- STOP_REJOINED (R333): A REJOIN stop releases held traffic and returns to ACTIVE. -/
  | stopRejoined (st : StopId)
  /-- RIM_FENCE (R335): Writing RIMCTL.FENCE = 1 starts fencing a rim segment with a PWR broadcast. -/
  | rimFence (by_ : By) (st : StackId)
  /-- RIM_DRAINED (R335): Once every rim stop holds and no turned packet remains, new routes apply and held packets are released. -/
  | rimDrained (st : StackId)
  /-- RIM_UNFENCE (R337): Clearing RIMCTL.FENCE rejoins the segment by the reverse steps. -/
  | rimUnfence (by_ : By) (st : StackId)
  /-- PWR (R330): A power, thermal and domain-state control packet reaches its stops. -/
  | pwr (die : DieId)
  /-- IRQ (R521): An interrupt message reaches its target core. -/
  | irq (intid : BitVec 16)
  /-- HLOG (R608): A heat-log commit packet reaches the witness island queue. -/
  | hlog (f : Findings)
  /-- SPRUE_DATA_SEND (R342): A link end sends a DATA unit and keeps it in its riser, sending IDLE when the riser is full. -/
  | sprueDataSend (n : EndId) (parityOk : Bool)
  /-- SPRUE_DATA_RECEIVE (R343): A link end receives a DATA unit, accepting it or discarding it and sending NAK. -/
  | sprueDataReceive (n : EndId) (flip : BitVec 280)
  /-- ACK (R342): An ACK frees riser units up to ACKSEQ. -/
  | ack (n : EndId) (intact : Bool)
  /-- NAK (R343): A NAK makes the transmitter resend from NEXT_RX and counts one retry. -/
  | nak (n : EndId) (intact : Bool)
  /-- NAK_REPEAT (R341): Every 15 ns the receiver repeats its NAK until the awaited unit arrives. -/
  | nakRepeat (n : EndId)
  /-- CREDIT (R341): A CREDIT unit updates the cumulative freed buffer counts per class. -/
  | credit (n : EndId) (intact : Bool)
  /-- CREDIT_REFRESH (R341): Every 100 ns an end sends its CREDIT unit. -/
  | creditRefresh (n : EndId)
  /-- TRAIN (R348): A TRAIN unit is received, moving an ACTIVE end to RETRAIN or an end with a new epoch back to SAFE_TRAIN. -/
  | train (n : EndId)
  /-- CONFIRM (R349): A valid CONFIRM leads both ends to ACTIVE at the agreed width, or to a width dispute. -/
  | confirm (n : EndId)
  /-- DETECT_LOCK (R346): An end in DETECT locks to the peer strobe and enters SAFE_TRAIN. -/
  | detectLock (n : EndId)
  /-- DETECT_TIMEOUT (R346): An end without lock for 1 ms enters DOWN. -/
  | detectTimeout (n : EndId)
  /-- SAFE_TRAIN_DONE (R347): Quarter tests end; the end chooses its width or, after three attempts without one, goes DOWN. -/
  | safeTrainDone (n : EndId) (passed : BitVec 4)
  /-- WIDE_TRAIN_DONE (R346): Wide training passes into CONFIRM or fails back to SAFE_TRAIN. -/
  | wideTrainDone (n : EndId) (pass : Bool)
  /-- CONFIRM_TIMEOUT (R346): No valid CONFIRM within 1 us returns the end to SAFE_TRAIN. -/
  | confirmTimeout (n : EndId)
  /-- LINK_RETRAIN (R346): Writing LINKCTL.RETRAIN moves an ACTIVE end to RETRAIN unless SAFE_LOCK is set. -/
  | linkRetrain (by_ : By) (n : EndId)
  /-- LINK_RESET (R351): Writing LINKCTL.RESET resets one Sprue link end, keeping its riser. -/
  | linkReset (by_ : By) (n : EndId)
  /-- RIM_LINK_OUTAGE (R355): A rim link DOWN or out of ACTIVE for 20 us makes the management processor fence the segment. -/
  | rimLinkOutage (st : StackId)
  /-- SPOKE_LINK_FENCE (R356): A spoke link in DOWN makes the management processor fence its stack. -/
  | spokeLinkFence (st : StackId)
  /-- PALRATH_FLIT (R361): A Palrath flit is received, corrected or retried from the riser. -/
  | palrathFlit (g : GroupId) (f : FlitIn)
  /-- PAL_LINK_RESET (R351): Writing PALCTL.RESET resets a Palrath group end. -/
  | palLinkReset (by_ : By) (g : GroupId)
  /-- BUNDLE_CHANGE (R362): A group joins or leaves a bundle; remote agents hold, drain, reapply and release traffic. -/
  | bundleChange (p : Fin 4)
  /-- IDENT (R363): A package's IDENT reaches the master as an admission candidate, with duplicate IDs detected. -/
  | ident (i : IdentIn)
  /-- IDENT_REPEAT (R363): A waiting non-master repeats IDENT every 100 ms. -/
  | identRepeat
  /-- ADMISSION_WINDOW_END (R363): 100 ms after its hub stage the master refuses incompatible candidates, fixes PALREV and sends grants. -/
  | admissionWindowEnd
  /-- JOIN_GRANT (R363): An admitted package sets its time base from the grant and continues bring-up. -/
  | joinGrant (rev : BitVec 8) (present : BitVec 4) (features time halfTrip : Word)
  /-- TIME_SEND (R365): Once per us the master sends a TIME packet to every admitted package. -/
  | timeSend
  /-- TIME (R365): A TIME packet arrives and the package slews PTIME towards the master. -/
  | time (time halfTrip : Word)
  /-- TIME_HOLDOVER (R365): No TIME packet for 100 us puts the package into holdover. -/
  | timeHoldover
  /-- BUNDLE_LOSS (R367): A bundle out of ACTIVE for 1 ms leads to a package being cut. -/
  | bundleLoss (a b : Fin 4)
  /-- PATROL_SCRUB_READ (R380): At its evenly spaced time the scrub reads the next line, correcting or poisoning it. -/
  | patrolScrubRead (ch : Fin 24) (e : Ecc)
  /-- MCCTL_WRITE (R384): A write of MCCTL re-judges the correctable-error threshold. -/
  | mcctlWrite (by_ : By) (ch : Fin 24) (v : Word)
  /-- MC_LOGCLR (R383): Writing MCCTL.LOGCLR clears the channel logs, OVERFLOW and NEXT. -/
  | mcLogclr (by_ : By) (ch : Fin 24)
  /-- KEY_LOAD (R389): Loads a KEYID from KEYDATA into every controller, subject to ownership. -/
  | keyLoad (by_ : By) (keyid : BitVec 11) (sown : Bool)
  /-- KEY_GENERATE (R389): Generates a KEYID's keys from the entropy source. -/
  | keyGenerate (by_ : By) (keyid : BitVec 11) (sown : Bool) (healthy : Bool)
  /-- KEY_CLEAR (R389): Clears a KEYID's key and releases secure ownership. -/
  | keyClear (by_ : By) (keyid : BitVec 11) (sown : Bool)
  /-- KEY_COMMAND_DONE (R389): Once every controller holds the result, KEYSTAT reports KEY_OK. -/
  | keyCommandDone
  /-- LGCTL_WRITE (R397): The management processor changes a lane group's personality or bifurcation while it is OFF. -/
  | lgctlWrite (by_ : By) (g : GroupId) (v : Word)
  /-- LINK_DOWN_DETECTED (R403): A root port detects DL_Down, fails held DEV accesses and raises its link-event source. -/
  | linkDownDetected (g : Fin 24) (k : Fin 4)
  /-- DEVSTORE_TIMEOUT (R237): A held DEV access's timer expires and the root port completes it with error. -/
  | devstoreTimeout (g : Fin 24) (k : Fin 4)
  /-- LINK_RETURNS_L0 (R237): A root port's link returns to L0 and held DEV accesses are sent. -/
  | linkReturnsL0 (g : Fin 24) (k : Fin 4) (flit : Bool)
  /-- PERST_RELEASE (R404): 100 ms after the PCIe personality takes effect the device releases PERST_N. -/
  | perstRelease (g : Fin 24) (refStable : Bool)
  /-- INBOUND_PCIE_REQUEST (R402): An inbound PCIe or CXL.io request is filtered and performed under PCIe ordering. -/
  | inboundPcieRequest (g : Fin 24) (k : Fin 4) (q : PcieReq) (f : Findings) (a : DevAns)
  /-- CONFIG_ACCESS (R400): An ECAM configuration access reaches a root port, the hub endpoint, a share VF or an absent device. -/
  | configAccess (src : StopId) (w : Bool) (c : CfgAcc) (a : DevAns)
  /-- FUNCTION_LEVEL_RESET (R427): Writing Initiate Function Level Reset of a VF starts a RESET of the share. -/
  | functionLevelReset (n : ShareId)
  /-- ETHPORT_ENABLE (R407): Writing ETHPORTn.EN binds a MAC to lanes or is refused. -/
  | ethportEnable (by_ : By) (m : MacId) (v : Word)
  /-- FRAME_RECEIVED (R409): A received frame is filtered, hashed and placed in a posted buffer of its RSS queue. -/
  | frameReceived (m : MacId) (bs : List Byte) (accept : Bool) (i : EngIn)
  /-- HANDOVER (R417): OECMD HANDOVER starts a 10 ms cross-fade to a STANDBY slot. -/
  | handover (by_ : By) (e : OptId) (b : Fin 2)
  /-- RELEASE_SLOT (R422): OECMD RELEASE writes a STANDBY slot's record and drops LASER_EN. -/
  | releaseSlot (by_ : By) (e : OptId) (b : Fin 2) (l : LitIn)
  /-- CHECK_SLOT (R422): OECMD CHECK re-checks a REJECTED or FAILED slot. -/
  | checkSlot (by_ : By) (e : OptId) (b : Fin 2)
  /-- FADE_DONE (R417): A cross-fade ends with the new slot lit and the old in STANDBY. -/
  | fadeDone (e : OptId)
  /-- WEAR_RECORD_WRITE (R415): After 3,600 s of lit time the engine adds weighted wear and writes the record, setting EOL flags. -/
  | wearRecordWrite (e : OptId) (b : Fin 2) (l : LitIn)
  /-- PRESENT_N_FALL (R418): A cartridge is seated; the engine starts its 100 ms debounce. -/
  | presentNFall (e : OptId) (b : Fin 2) (mem : BitVec 1024)
  /-- CARTRIDGE_CHECK (R418): After 100 ms the engine reads identity and wear records and lights the lasers for 200 ms. -/
  | cartridgeCheck (e : OptId) (b : Fin 2)
  /-- CARTRIDGE_CHECK_DONE (R418): The laser test ends; the cartridge enters STANDBY or REJECTED. -/
  | cartridgeCheckDone (e : OptId) (b : Fin 2) (pwr : BitVec 16)
  /-- PRESENT_N_RISE (R419): A cartridge is removed; a lit one is lost and others become EMPTY. -/
  | presentNRise (e : OptId) (b : Fin 2)
  /-- FAULT_N_FALL (R419): A lit cartridge's fault makes the engine switch over or go DARK. -/
  | faultNFall (e : OptId) (b : Fin 2)
  /-- LASER_LOW (R419): A laser below MIN_PWR makes the lit cartridge lost. -/
  | laserLow (e : OptId) (b : Fin 2) (pwr : BitVec 16)
  /-- SWITCHOVER_DONE (R419): The standby reaches full output after a loss. -/
  | switchoverDone (e : OptId)
  /-- SQDB (R437): Records a new submission tail and starts fetching, or is refused. -/
  | sqdb (by_ : By) (q : QueueId) (x : BitVec 16)
  /-- CQDB (R439): Frees completion record slots up to the new head, or is refused. -/
  | cqdb (by_ : By) (q : QueueId) (x : BitVec 16)
  /-- QUEUE_ENABLE (R429): Writing QCFG.EN = 1 resets the queue indices and starts it RUN or STOPPED. -/
  | queueEnable (by_ : By) (q : QueueId) (v : Word)
  /-- QUEUE_DISABLE (R430): Writing QCFG.EN = 0 closes the queue, which drains and then goes OFF. -/
  | queueDisable (by_ : By) (q : QueueId)
  /-- DESCRIPTOR_FETCH (R440): An engine reads a descriptor when a record slot can be reserved, accepting it. -/
  | descriptorFetch (q : QueueId) (i : EngIn)
  /-- QIRQ_HOLD_EXPIRY (R433): The HOLD wait after the first unreported record expires and the queue's interrupt is sent. -/
  | qirqHoldExpiry (q : QueueId)
  /-- COPY (R443): A Ladle channel copies LEN bytes as if byte by byte ascending. -/
  | copy (q : QueueId) (i : EngIn)
  /-- FILL (R443): A Ladle channel fills LEN bytes with an 8-byte pattern. -/
  | fill (q : QueueId) (i : EngIn)
  /-- CRC32C (R443): A Ladle channel computes CRC32C of a buffer. -/
  | crc32c (q : QueueId) (i : EngIn)
  /-- COMPARE (R443): A Ladle channel compares two buffers and reports the first difference. -/
  | compare (q : QueueId) (i : EngIn)
  /-- LADLE_NOP (R443): A Ladle no-op that only honours FENCE and IRQ. -/
  | ladleNop (q : QueueId) (i : EngIn)
  /-- ETH_TRANSMIT (R444): An ETH_TX descriptor sends a frame with the requested offloads. -/
  | ethTransmit (q : QueueId) (i : EngIn)
  /-- ETH_RX_POST (R444): An ETH_RX descriptor posts a receive buffer. -/
  | ethRxPost (q : QueueId)
  /-- SHARE_CREATE (R451): Allocates a share and its pool runs all at once or not at all. -/
  | shareCreate (by_ : By) (v : Word)
  /-- SHARE_ENABLE (R454): Enables a share, or records a pending enable during shut-down. -/
  | shareEnable (by_ : By) (v : Word)
  /-- SHARE_DISABLE (R454): Starts a DISABLE shut-down, or cancels a pending enable. -/
  | shareDisable (by_ : By) (v : Word)
  /-- SHARE_RESET (R454): Starts a RESET shut-down or converts the one under way. -/
  | shareReset (by_ : By) (v : Word)
  /-- SHARE_REMOVE (R454): Starts a REMOVE shut-down or converts the one under way. -/
  | shareRemove (by_ : By) (v : Word)
  /-- BIND_QP (R452): Binds or unbinds a queue of the share to a kind and target. -/
  | bindQp (by_ : By) (v : Word)
  /-- SHARE_DRAIN_TIMEOUT (R453): At the drain timeout every outstanding item of the shut-down is squashed. -/
  | shareDrainTimeout (n : ShareId) (i : EngIn)
  /-- SHUTDOWN_COMPLETE (R453): Once every record is written the share takes its final state and the share-control source is raised. -/
  | shutdownComplete (n : ShareId)
  /-- ENCRYPT (R463): Encrypts a message under the session's mode, writing any tag. -/
  | encrypt (q : QueueId) (idx : BitVec 16) (c : CipherIn) (i : EngIn)
  /-- DECRYPT (R462): Decrypts a message, verifying any tag and reporting AUTH_FAIL. -/
  | decrypt (q : QueueId) (idx : BitVec 16) (c : CipherIn) (i : EngIn)
  /-- MAC (R461): Computes a CMAC and writes it to the tag area. -/
  | mac (q : QueueId) (idx : BitVec 16) (c : CipherIn) (i : EngIn)
  /-- VERIFY (R461): Computes a CMAC and compares it with the tag area in constant time. -/
  | verify (q : QueueId) (idx : BitVec 16) (c : CipherIn) (i : EngIn)
  /-- SESSION_INIT (R467): Loads a key and configuration into a session, unwrapping it when WRAPPED. -/
  | sessionInit (q : QueueId) (idx : BitVec 16) (i : EngIn)
  /-- SESSION_CLEAR (R465): Zeroes a session and marks it uninitialised. -/
  | sessionClear (q : QueueId) (idx : BitVec 16) (i : EngIn)
  /-- KEY_WRAP (R487): Wraps a plain key under a derived wrapping key in the witness island. -/
  | keyWrap (q : QueueId) (idx : BitVec 16)
  /-- UNWRAP (R488): The island performs the next waiting unwrap or wrap, one at a time. -/
  | unwrap (i : EngIn)
  /-- MESSAGE_SUSPEND (R477): At its next block boundary a lower-priority message is suspended and its state saved. -/
  | messageSuspend (q : QueueId) (idx : BitVec 16)
  /-- MESSAGE_RESUME (R479): A suspended message resumes from its context when round units free. -/
  | messageResume (c : Fin 4)
  /-- CONTEXT_SPILL (R472): The least recently used inactive session is encrypted to the context table. -/
  | contextSpill (i : EngIn)
  /-- CONTEXT_FILL (R471): A non-resident session is read and authenticated from the context table. -/
  | contextFill (q : QueueId) (idx : BitVec 16) (i : EngIn)
  /-- OWNMAP_WRITE (R502): Writes secure ownership, recording every write in the heat log and refusing normal-world ones. -/
  | ownmapWrite (by_ : By) (v : Word)
  /-- WFCTL_LOCK (R502): Writing 1 to WFCTL.LOCK locks a filter and is recorded in the heat log. -/
  | wfctlLock (by_ : By) (h : Fin 13)
  /-- DBGAUTH_WRITE (R508): The monitor writes POLICY; EFF changes are recorded and may resume halted cores. -/
  | dbgauthWrite (c : CoreId) (rt : BitVec 5)
  /-- DAP_HALT (R513): The debug port requests a halt of a logical core, setting HALT_PEND. -/
  | dapHalt (n : LogCore)
  /-- DAP_RESUME (R513): The debug port resumes a halted core at its PC. -/
  | dapResume (n : LogCore)
  /-- DAP_STEP (R513): The debug port executes one instruction or element group and halts again. -/
  | dapStep (n : LogCore)
  /-- DAP_CORE_REG_READ (R511): The debug port reads a register of a halted core. -/
  | dapCoreRegRead (n : LogCore) (r : DapReg)
  /-- DAP_CORE_REG_WRITE (R511): The debug port writes a register of a halted core. -/
  | dapCoreRegWrite (n : LogCore) (r : DapReg) (v : Word)
  /-- DAP_MEM_READ (R512): The debug port reads 8 bytes of memory coherently in a named world. -/
  | dapMemRead (w : Bool) (keyid : BitVec 11) (dw : BitVec 49) (f : Findings) (a : DevAns)
  /-- DAP_MEM_WRITE (R512): The debug port writes 8 bytes of memory coherently in a named world. -/
  | dapMemWrite (w : Bool) (keyid : BitVec 11) (dw : BitVec 49) (v : Word) (f : Findings) (a : DevAns)
  /-- DAP_SETUP_READ (R511): The debug port reads a set-up register. -/
  | dapSetupRead (w : Bool) (off : BitVec 40)
  /-- DAP_SETUP_WRITE (R511): The debug port writes a set-up register, subject to ownership. -/
  | dapSetupWrite (w : Bool) (off : BitVec 40) (v : Word)
  /-- CORE_HALT (R513): A core with a pending halt stops at a boundary where its world's invasive enable is 1. -/
  | coreHalt (c : CoreId)
  /-- TAP_IDCODE (R510): The JTAG TAP returns the identification code. -/
  | tapIdcode
  /-- TAP_SAMPLE_PRELOAD (R510): The JTAG TAP samples or preloads boundary scan while RESET_N is low. -/
  | tapSamplePreload (cells : List Bool)
  /-- TAP_EXTEST (R510): The JTAG TAP drives boundary scan while RESET_N is low. -/
  | tapExtest (cells : List Bool)
  /-- TAP_BYPASS (R510): The JTAG TAP passes data through its bypass register. -/
  | tapBypass (ir : BitVec 8) (tdi : Bool)
  /-- SOURCE_RAISE (R520): A wired or message-signalled source is raised, setting PEND. -/
  | sourceRaise (intid : BitVec 16)
  /-- INTSRC_WRITE (R521): Writes an interrupt source's routing, moving a pending interrupt to a new target. -/
  | intsrcWrite (by_ : By) (n : Fin 2048) (v : Word)
  /-- IACK (R524): Reading IACK acknowledges the highest-priority signalled interrupt of the current level. -/
  | iack (c : CoreId) (rt : BitVec 5)
  /-- IEOI (R525): Writing IEOI ends an interrupt this core acknowledged. -/
  | ieoi (c : CoreId) (rt : BitVec 5)
  /-- ISGI (R526): Writing ISGI sends a software-generated interrupt to one or all cores. -/
  | isgi (c : CoreId) (rt : BitVec 5)
  /-- MSI_WRITE (R529): An inbound MSI write to MSIADDR raises a vector or is dropped. -/
  | msiWrite (g : Fin 24) (rid : BitVec 16) (x : BitVec 32)
  /-- INTERRUPT_POST (R532): The controller sets the pending bit of a posting record and notifies NDEST when needed. -/
  | interruptPost (rec_ : BitVec 44) (v : BitVec 10)
  /-- VISGI (R532): A PL2 VISGI write posts a virtual interrupt to a record. -/
  | visgi (c : CoreId) (rt : BitVec 5)
  /-- POSTING_NOTIFICATION (R533): A core receives a posting notification and delivers it to the guest or raises 0x0814. -/
  | postingNotification (c : CoreId)
  /-- VIACK (R534): Reading VIACK acknowledges the highest posted guest interrupt, clearing its record bit. -/
  | viack (c : CoreId) (rt : BitVec 5) (guest : Bool)
  /-- VIEOI (R534): Writing VIEOI ends a guest interrupt and re-reads the record. -/
  | vieoi (c : CoreId) (rt : BitVec 5) (guest : Bool)
  /-- TIMER_FIRES (R536): A timer's compare time reaches TCMP and its local source becomes pending. -/
  | timerFires (c : CoreId) (lv : Fin 3) (w : Bool)
  /-- DOMAIN_RUN (R547): DOMCMD moves a domain to RUN. -/
  | domainRun (by_ : By) (dom : BitVec 10)
  /-- DOMAIN_HOLD (R547): DOMCMD moves a domain to HOLD through the ingress order. -/
  | domainHold (by_ : By) (dom : BitVec 10)
  /-- DOMAIN_BANK (R547): DOMCMD moves a domain to BANK through the ingress order. -/
  | domainBank (by_ : By) (dom : BitVec 10)
  /-- DOMAIN_OFF (R547): DOMCMD moves a domain to OFF through the ingress order. -/
  | domainOff (by_ : By) (dom : BitVec 10)
  /-- DOMAIN_STATE_REACHED (R547): A domain reports its target state and the command ends in PWR_OK. -/
  | domainStateReached (dom : BitVec 10)
  /-- DOMAIN_POINT_OF_NO_RETURN (R330): A closing domain's ingress empties with nothing owed; it starts its state save and the ingress closes. -/
  | domainPointOfNoReturn (dom : BitVec 10)
  /-- PACKAGE_BANK (R553): PKGCMD arms entry to BANK. -/
  | packageBank (by_ : By)
  /-- PACKAGE_ANNEAL (R553): PKGCMD arms entry to ANNEAL. -/
  | packageAnneal (by_ : By)
  /-- PACKAGE_DISARM (R553): PKGCMD with TARGET 0 disarms an armed entry. -/
  | packageDisarm (by_ : By)
  /-- PACKAGE_ENTERING (R553): Once every present core is in BANK, engine domains close and root ports send PME_Turn_Off. -/
  | packageEntering
  /-- PME_TO_ACK (R553): A PME_TO_Ack or its 10 ms wait ends; links go to L2 and the package proceeds to its point of no return. -/
  | pmeToAck (g : Fin 24) (k : Fin 4)
  /-- PACKAGE_POINT_OF_NO_RETURN (R553): DRAM enters self-refresh and the logic goes to BANK, leaving the wake logic in charge. -/
  | packagePointOfNoReturn
  /-- WAKE_REF_PERIOD (R555): Each REFCLK_25M period in BANK or ANNEAL advances PTIME by 40 ticks. -/
  | wakeRefPeriod
  /-- WAKE_N_ASSERT (R559): WAKE_N of an enabled group wakes the package. -/
  | wakeNAssert (g : Fin 24)
  /-- WAKE_TIMER (R559): PTIME reaching WAKETIME wakes the package. -/
  | wakeTimer
  /-- ANNEAL_SAMPLE (R560): Every ANNEAL period the sampler reads sensors and supply and starts a wake if a source fires. -/
  | annealSample (i : SampleIn)
  /-- BANK_TRIP_READING (R561): Every 10 ms in BANK the wake logic reads thermal sensors against the trip level. -/
  | bankTripReading (hot : List (BitVec 13))
  /-- VSTBY_FAIL (R562): Loss of VSTBY_3V3 in ANNEAL moves the package to BANK without a wake. -/
  | vstbyFail
  /-- WAKE_REGULATORS (R556): Wake step 1 starts the integrated regulators. -/
  | wakeRegulators
  /-- WAKE_TIME_BASE (R556): Wake step 2 starts the time base and hands PTIME back. -/
  | wakeTimeBase
  /-- WAKE_MEMORY (R556): Wake step 3 releases retained SRAM and brings DRAM out of self-refresh. -/
  | wakeMemory
  /-- WAKE_RESTORE (R558): Wake step 4 restores tiles, fabric, links and hub, then the package is in POUR and source 926 raised. -/
  | wakeRestore
  /-- WAKE_STEP_LATE (R557): A late ready signal repeats the step once, then fails the wake with a warm reset. -/
  | wakeStepLate
  /-- SENSOR_READ (R567): Every 1 us in POUR the power controller reads every sensor. -/
  | sensorRead (tmax : List (BitVec 16)) (hot : List (BitVec 13))
  /-- THERMAL_LOOP_TICK (R564): Every 10 us or 100 us the stack thermal loop lowers or raises its ceiling. -/
  | thermalLoopTick (st : StackId) (slow : Bool)
  /-- POWER_LOOP_TICK (R565): Every 10 us or 100 us the power loop lowers or raises the package ceiling. -/
  | powerLoopTick (w : BitVec 16) (slow : Bool)
  /-- PCAPCTL_WRITE (R564): A write of ALERT that crosses STACK_MAX counts as a crossing and raises the thermal alert. -/
  | pcapctlWrite (by_ : By) (v : Word)
  /-- REQUESTER_TIMEOUT (R576): A source stop's transaction timer expires; it completes with error and logs RQ_TIMEOUT. -/
  | requesterTimeout (src : StopId) (txid : BitVec 16)
  /-- TXID_RELEASE (R576): A further RQTO period after a timeout makes the transaction's TXID reusable. -/
  | txidRelease (src : StopId) (txid : BitVec 16)
  /-- LOG_CLEAR (R579): Writing LOGCLR of a RAS log clears its entries, OVERFLOW and NEXT. -/
  | logClear (by_ : By) (d : Fin 13) (ev : Bool)
  /-- SET_WALK_START (R272): A home starts the next queued set walk once the previous one ends. -/
  | setWalkStart (h : Fin 13)
  /-- WAY_RETIREMENT_WALK_DONE (R256): The retired way's walk ends; its DIS bit is set and the event logged. -/
  | wayRetirementWalkDone (w : WayWalk)
  /-- WAY_RETIREMENT_FUSE (R256): Within 1 s the management processor programs the retired way's fuse. -/
  | wayRetirementFuse (kind : Fin 3) (h : StackId) (slice : Fin 8) (way : Fin 16)
  /-- CORE_RETIREMENT_FUSE (R585): Within 1 s of a core's threshold the management processor programs its fuse and logs CORE_RETIRED. -/
  | coreRetirementFuse (c : CoreId)
  /-- SERVICE_REQUEST_UPDATE (R587): Within 1 ms of a status change the hub recomputes SVCREQ.CAUSE, raising 917 and a heat-log record. -/
  | serviceRequestUpdate
  /-- LIFE_UPDATE (R592): Every hour the management processor updates LIFE0 and LIFE1 in the island. -/
  | lifeUpdate (hot : Bool) (tj v : BitVec 16)
  /-- L3_INV_ALL (R260): Writing L3CTL.INV_ALL starts an invalidate walk of all eight slices, or is refused. -/
  | l3InvAll (by_ : By) (h : StackId) (en : Bool)
  /-- INV_ALL_DONE (R260): The invalidate walk ends; INV_BUSY clears and INV_DONE sets. -/
  | invAllDone (h : StackId)
  /-- L3_ENABLE (R261): Writing L3CTL.EN = 1 puts the L3 in use, or is refused with EN_REJ. -/
  | l3Enable (by_ : By) (h : StackId)
  /-- L3_DISABLE (R262): Writing L3CTL.EN = 0 stops installs and starts the flush of dirty lines. -/
  | l3Disable (by_ : By) (h : StackId)
  /-- L3_FLUSH_DONE (R262): The flush ends; the L3 goes out of use and FLUSHING, INV_DONE and SWEEP_DONE clear. -/
  | l3FlushDone (w : FlushWalk)
  /-- L3_SWEEP_DONE (R263): The reset sweep of a tile's L3 ends and SWEEP_DONE sets. -/
  | l3SweepDone (h : StackId)
  /-- PMASK_WRITE (R253): Writes a partition mask for later installs, refusing normal-world writes of secure-owned masks. -/
  | pmaskWrite (by_ : By) (h : StackId) (n : Fin 16) (v : Word)
  /-- RANGE_CLEAN (R268): RMCMD GO with OP clean starts a clean over a physical range. -/
  | rangeClean (by_ : By) (u : Fin 2) (irq : Bool)
  /-- RANGE_CLEAN_INVALIDATE (R268): RMCMD GO with OP clean-and-invalidate starts over a physical range. -/
  | rangeCleanInvalidate (by_ : By) (u : Fin 2) (irq : Bool)
  /-- RANGE_INVALIDATE (R268): RMCMD GO with OP invalidate-only starts over a physical range. -/
  | rangeInvalidate (by_ : By) (u : Fin 2) (irq : Bool)
  /-- RANGE_OP_COMPLETE (R270): Every home and holder has finished; RMSTAT takes its final status and the completion source may be raised. -/
  | rangeOpComplete (u : Fin 2)
  /-- MP_BOOT (R599): The boot ROM loads, verifies and measures an image, or appends BOOT_FAIL. -/
  | mpBoot (i : BootIn)
  /-- MAILBOX_POST (R601): A write of MBPOSTc copies a request block into its class queue or answers BUSY. -/
  | mailboxPost (by_ : By) (c : Fin 2) (blk : LineNo) (f : Findings)
  /-- MB_PING (R602): Mailbox PING returns PTIME. -/
  | mbPing (f : Findings)
  /-- MB_SHARE (R603): Mailbox SHARE performs a share command for the target package. -/
  | mbShare (f : Findings)
  /-- MB_SENSORS (R602): Mailbox SENSORS returns stack temperatures and package power. -/
  | mbSensors (f : Findings)
  /-- MB_CART (R602): Mailbox CART returns a cartridge's status and identity. -/
  | mbCart (f : Findings)
  /-- MB_LIFE (R602): Mailbox LIFE returns LIFE0 and LIFE1. -/
  | mbLife (f : Findings)
  /-- SHED_EVALUATION (R604): Every 10 ms the management processor moves its shedding level by occupancy. -/
  | shedEvaluation (occ : BitVec 7)
  /-- WATCHDOG_KICK (R605): Writing MPWDT.KICK restarts the watchdog count. -/
  | watchdogKick (by_ : By)
  /-- WATCHDOG_FIRE (R605): The watchdog expires and restarts the management processor alone, aborting the entry served. -/
  | watchdogFire
  /-- WINDOW_HALF_ACCESS (R595): A 4-byte management processor access through the window reads or assembles a 64-bit register. -/
  | windowHalfAccess (a : BitVec 32) (w : Option (BitVec 32))
  /-- HEAT_LOG_APPEND (R608): The island appends the next pending record with its chain value and tag. -/
  | heatLogAppend
  /-- HLSUBMIT (R610): A write of HLSUBMIT posts a commit block, or answers HL_FULL. -/
  | hlsubmit (by_ : By) (blk : LineNo) (f : Findings)
  /-- COMMIT (R610): The island appends a COMMIT record and writes SEQ, PTIME and HL_OK back. -/
  | commit (f : Findings)
  /-- IHL_IDENT (R613): Ihlell IDENT returns PKGID, STRAPSTAT and the power source. -/
  | ihlIdent (a tag : BitVec 8)
  /-- IHL_STATUS (R613): Ihlell STATUS returns SVCREQ, PKGSTAT, LASTWAKE and the trip state. -/
  | ihlStatus (a tag : BitVec 8)
  /-- WAKE_MBOX (R651): Ihlell WAKE_MBOX writes a word to WAKEMBOX and acts as a wake source. -/
  | wakeMbox (a tag : BitVec 8) (w : BitVec 32)
  /-- HL_HEAD (R614): Ihlell HL_HEAD returns the head SEQ and chain value with a CMAC over a nonce. -/
  | hlHead (a tag : BitVec 8) (nonce : Word)
  /-- HL_READ (R614): Ihlell HL_READ returns one or two held records, or HL_GONE. -/
  | hlRead (a tag : BitVec 8) (seq : BitVec 48) (count zero : BitVec 8)
  /-- HL_VERIFY (R614): Ihlell HL_VERIFY checks tags and chain values over a range of held records. -/
  | hlVerify (a tag : BitVec 8) (first last : BitVec 48)
  /-- LIFE_READ (R613): Ihlell LIFE_READ returns LIFE0 and LIFE1. -/
  | lifeRead (a tag : BitVec 8)
  /-- IHL_MAILBOX (R614): Ihlell MAILBOX posts a board-controller request block and answers at completion or BUSY. -/
  | ihlMailbox (a tag : BitVec 8) (blk : LineData)
  /-- IHL_DAP (R511): Ihlell DAP queues a debug access port operation. -/
  | ihlDap (a tag : BitVec 8) (op : DapOp)
  /-- BOOT_IMAGE (R651): Ihlell BOOT_IMAGE delivers up to 128 image bytes at an offset. -/
  | bootImage (a tag : BitVec 8) (off : BitVec 32) (bytes : List Byte)
  /-- IHL_INVALID_FRAME (R613): A frame failing CRC, for another address or to 0x1F with another command is not answered. -/
  | ihlInvalidFrame (frame : List Byte)
  /-- WARM (R619): RSTCMD WARM starts a warm package reset. -/
  | warm (by_ : By)
  /-- STACK (R619): RSTCMD STACK starts a reset of one stack. -/
  | stack (by_ : By) (target : BitVec 8)
  /-- CORE (R619): RSTCMD CORE starts a reset of one logical core. -/
  | core (by_ : By) (target : BitVec 8)
  /-- MP (R605): RSTCMD MP restarts the management processor. -/
  | mp (by_ : By)
  /-- RELEASE (R620): RSTCMD RELEASE takes a held core out of hold at RSTVEC in secure PL3. -/
  | release (by_ : By) (target : BitVec 8)
  /-- GO_FULL (R631): RSTCMD GO_FULL chooses the full memory rate and starts retraining home by home. -/
  | goFull (by_ : By)
  /-- GO_FULL_HOME_WINDOW (R631): One home holds new requests, retrains its channels at the chosen rate and resumes. -/
  | goFullHomeWindow (h : StackId) (fails : BitVec 2)
  /-- GO_FULL_DONE (R631): The last window ends; the clamp lifts, PHASE becomes FULL and the status is written. -/
  | goFullDone
  /-- PWRGOOD_RISE (R39): PWRGOOD rises once all rails are within tolerance. -/
  | pwrgoodRise (vstby : Bool)
  /-- PWRGOOD_FALL (R40): PWRGOOD falls and the device acts as at cold reset, keeping only the island. -/
  | pwrgoodFall (vin : Bool)
  /-- RESET_N_LOW (R652): RESET_N low for 1 us starts a warm package reset. -/
  | resetNLow
  /-- RESET_N_RISE (R627): The rising edge of RESET_N samples straps at cold reset and starts bring-up. -/
  | resetNRise (cascId bootSrc : BitVec 2)
  /-- RESET_L2_WRITEBACK (R619): After the drain, each L2 in scope sends PUTs for all its lines until the directories name none. -/
  | resetL2Writeback
  /-- RESET_HOME_FLUSH (R619): After the L2 writeback, homes in scope perform the L3 flush. -/
  | resetHomeFlush
  /-- RESET_FINISH (R619): The last reset step completes DEV accesses, re-runs bring-up or re-joins the stack, and holds cores. -/
  | resetFinish
  /-- TIME_BASE_LOCK (R622): The time-base PLL locks to REFCLK_25M and MODE becomes LOCKED. -/
  | timeBaseLock
  /-- BRINGUP_FLOOR (R627): After the image is accepted, the management processor computes the feature floor, fences dies and applies personalities. -/
  | bringupFloor (revs : List DieRev) (pers : List Word)
  /-- BRINGUP_TILES (R627): Spoke and rim links of unfenced stacks train in parallel. -/
  | bringupTiles
  /-- BRINGUP_LINK_DEADLINE (R627): 1 ms into link training, stacks whose spoke link is not ACTIVE are fenced. -/
  | bringupLinkDeadline
  /-- BRINGUP_TILE_INIT (R627): Each tile sweeps its L3, clears its directory and trains its channels. -/
  | bringupTileInit (mods : List ChMods)
  /-- TILE_DONE (R627): A tile whose channels are all IN_SERVICE or FAILED becomes TILE_DONE. -/
  | tileDone (st : StackId) (ok0 ok1 : Bool)
  /-- TILE_DEADLINE (R627): A tile not TILE_DONE within 1 s is fenced. -/
  | tileDeadline (st : StackId)
  /-- BRINGUP_HASH (R372): The hub fixes NC, C and the home hash and writes MEMHASH. -/
  | bringupHash
  /-- BRINGUP_DIE_INIT (R586): Each compute die self-tests, sets AGE_OFFSET, programs failing fuses and assigns cores. -/
  | bringupDieInit (st : StackId) (fails : BitVec 20) (drifts : List Nat) (fabDrift : Nat)
  /-- STACK_READY (R630): A stack becomes READY, raising 32s+11, and joins as a hot-add after the boot core release. -/
  | stackReady (st : StackId)
  /-- DIE_DEADLINE (R627): A die not READY within 50 ms is fenced. -/
  | dieDeadline (st : StackId)
  /-- BOOT_CORE_RELEASE (R627): At the first READY stack the management processor enables L3s and releases the boot core. -/
  | bootCoreRelease (rstvec : Word)
  /-- REGISTER_WRITE (R11): A write to a set-up register without behaviour of its own acts by its fields' access types. -/
  | registerWrite (by_ : By) (off : BitVec 40) (v : Word)
  /-- PCIE_LINK_LEAVES_L0 (R237): A root port's link leaves L0 for recovery, after which the port holds every DEV access that reaches it. -/
  | pcieLinkLeavesL0 (g : Fin 24) (k : Fin 4)
  /-- PCIE_COMPLETION (R221): A completion TLP, or the link-layer acknowledgement of a posted write, arrives at a root port from a PCIe function and completes the DEV access. -/
  | pcieCompletion (g : Fin 24) (k : Fin 4) (txid : BitVec 16) (good : Bool) (d : Word)
  /-- CXL_COMPLETION_TIMEOUT (R395): A CXL.mem request ends in completion timeout and completes with error, with no poison written. -/
  | cxlCompletionTimeout (src : StopId) (txid : BitVec 16)
  /-- ETH_LINK_CHANGE (R517): An enabled MAC's PCS gains or loses alignment, changing ETHSTAT.LINK and raising source 896 + n. -/
  | ethLinkChange (m : MacId) (up : Bool)
  /-- HOT_PLUG_EVENT (R517): A native hot-plug event at a root port raises the port's hot-plug source. -/
  | hotPlugEvent (g : Fin 24) (k : Fin 4)
  /-- REFERENCE_LOST (R555): REFCLK_25M is absent while the package is in BANK or ANNEAL, and the wake logic advances PTIME from its internal oscillator and sets the coarse flag. -/
  | referenceLost
  /-- FAULT_N_RISE (R412): A cartridge releases FAULT_N and CARTSTATb.FAULT clears. -/
  | faultNRise (e : OptId) (b : Fin 2)
  /-- TUNDISH_MAILBOX_REQUEST (R602): A request from the master package's management processor arrives through the remote agent and enters the tundish class queue. -/
  | tundishMailboxRequest (blk : LineData)
  deriving DecidableEq, Repr

end Sys2Proof
end

