-- ==== Sys2Proof/Machine/Bits.lean ====
section
/-! DEFINITION. Bit fields, sign and zero extension, byte order: the helpers every other file reads and writes
registers and lines with. Mendable: a repair may change the bodies here. -/
namespace Sys2Proof.Machine

open Sys2Proof

/-- Bits [hi:lo] of a natural number, as a number. -/
def bitsOf (x hi lo : Nat) : Nat := (x >>> lo) % 2 ^ (hi + 1 - lo)

/-- Bit i of a natural number. -/
def bitOf (x i : Nat) : Bool := x.testBit i

/-- The mask with ones in bits [hi:lo]. -/
def fldMask (hi lo : Nat) : Word := BitVec.ofNat 64 ((2 ^ (hi + 1 - lo) - 1) <<< lo)

/-- Field [hi:lo] of a register word, as a number. -/
def fld (v : Word) (hi lo : Nat) : Nat := (v.toNat >>> lo) % 2 ^ (hi + 1 - lo)

/-- Bit i of a register word. -/
def bit (v : Word) (i : Nat) : Bool := v.getLsbD i

/-- The word v with field [hi:lo] replaced by x (cut to the field's width). -/
def setFld (v : Word) (hi lo x : Nat) : Word :=
  (v &&& ~~~(fldMask hi lo)) ||| ((BitVec.ofNat 64 x <<< lo) &&& fldMask hi lo)

/-- The word v with bit i set to b. -/
def setBit (v : Word) (i : Nat) (b : Bool) : Word := setFld v i i b.toNat

/-- An address as the PC holds it: bits [1:0] are 0 (R46). -/
def pcWord (x : Word) : Word := x &&& 0xFFFFFFFFFFFFFFFC

/-- A saturating increment of a counter of w bits. -/
def satInc (w x : Nat) : Nat := if x + 1 < 2 ^ w then x + 1 else 2 ^ w - 1

/-- A saturating addition to a counter of w bits. -/
def satAdd (w x n : Nat) : Nat := if x + n < 2 ^ w then x + n else 2 ^ w - 1

/-- Sign extension of a field of w bits to 64 bits (sext of chapter 03). -/
def sext {w : Nat} (x : BitVec w) : Word := x.signExtend 64

/-- Zero extension to 64 bits (zext of chapter 03). -/
def zext {w : Nat} (x : BitVec w) : Word := x.zeroExtend 64

/-- Byte i of a line. -/
def lineByte (d : LineData) (i : Nat) : Byte := d.extractLsb' (8 * i) 8

/-- Line d with the bytes whose bit in mask is 1 taken from x (R312 BMASK). -/
def lineMerge (d x : LineData) (mask : Nat) : LineData :=
  (List.range 64).foldl
    (fun acc i => if mask.testBit i then
        (acc &&& ~~~((255 : LineData) <<< (8 * i))) ||| (x &&& ((255 : LineData) <<< (8 * i)))
      else acc) d

/-- The n bytes of line d from byte offset off on, as a little-endian number. -/
def lineGet (d : LineData) (off n : Nat) : Nat := (d.toNat >>> (8 * off)) % 2 ^ (8 * n)

/-- Line d with the n bytes from byte offset off on replaced by the little-endian number x. -/
def linePut (d : LineData) (off n x : Nat) : LineData :=
  let m : LineData := BitVec.ofNat 512 ((2 ^ (8 * n) - 1) <<< (8 * off))
  (d &&& ~~~m) ||| (BitVec.ofNat 512 ((x % 2 ^ (8 * n)) <<< (8 * off)) &&& m)

/-- The byte mask of n bytes from byte offset off on. -/
def byteMask (off n : Nat) : Nat := ((2 ^ n - 1) <<< off) % 2 ^ 64

/-- The bytes of a number, least significant first. -/
def bytesLE (n x : Nat) : List Byte := (List.range n).map (fun i => BitVec.ofNat 8 (x >>> (8 * i)))

/-- The number whose bytes, least significant first, are given. -/
def ofBytesLE : List Byte → Nat
  | [] => 0
  | b :: bs => b.toNat + 256 * ofBytesLE bs

/-- Two's complement of a field of w bits, as an integer. -/
def toSigned (w x : Nat) : Int := if x < 2 ^ (w - 1) then (x : Int) else (x : Int) - (2 ^ w : Nat)

/-- The field of w bits that holds an integer in two's complement. -/
def ofSigned (w : Nat) (x : Int) : Nat := (x % (2 ^ w : Nat)).toNat

end Sys2Proof.Machine
end

