-- ==== Sys2Proof/Machine/Crypto.lean ====
section
/-! DEFINITION. The cryptographic functions the spec names by their standards: AES (FIPS 197) and its modes XTS (IEEE 1619),
CTR, GCM, CCM, CMAC and the key wrap of R487; SHA-256; the CRCs. Byte strings are lists of bytes. -/
namespace Sys2Proof.Machine

open Sys2Proof

/-! ### AES -/

/-- The AES S-box, byte i in bits [8i+7:8i]. -/
def sboxBits : Nat := 0x16bb54b00f2d99416842e6bf0d89a18cdf2855cee9871e9b948ed9691198f8e19e1dc186b95735610ef6034866b53e708a8bbd4b1f74dde8c6b4a61c2e2578ba08ae7a65eaf4566ca94ed58d6d37c8e779e4959162acd3c25c2406490a3a32e0db0b5ede14b8ee4688902a22dc4f816073195d643d7ea7c41744975fec130ccdd2f3ff1021dab6bcf5389d928f40a351a89f3c507f02f94585334d43fbaaefd0cf584c4a39becb6a5bb1fc20ed00d153842fe329b3d63b52a05a6e1b1a2c830975b227ebe28012079a059618c323c7041531d871f1e5a534ccf73f362693fdb7c072a49cafa2d4adf04759fa7dc982ca76abd7fe2b670130c56f6bf27b777c63

/-- The inverse S-box, byte i in bits [8i+7:8i]. -/
def invSboxBits : Nat := 0x7d0c2155631469e126d677ba7e042b17619953833cbbebc8b0f52aae4d3be0a0ef9cc9939f7ae52d0d4ab519a97f51605fec8027591012b131c7078833a8dd1ff45acd78fec0db9a2079d2c64b3e56fc1bbe18aa0e62b76f89c5291d711af1476edf751ce837f9e28535ade72274ac9673e6b4f0cecff297eadc674f4111913a6b8a130103bdafc1020f3fca8f1e2cd00645b3b80558e4f70ad3bc8c00abd890849d8da75746155edab9edfd5048706c92b6655dcc5ca4d41698688664f6f87225d18b6d49a25b76b224d92866a12e084ec3fa420b954cee3d23c2a632947b54cbe9dec444438e3487ff2f9b8239e37cfbd7f3819ea340bf38a53630d56a0952

/-- SubBytes of one byte. -/
def subByte (b : Byte) : Byte := BitVec.ofNat 8 (sboxBits >>> (8 * b.toNat))

/-- InvSubBytes of one byte. -/
def invSubByte (b : Byte) : Byte := BitVec.ofNat 8 (invSboxBits >>> (8 * b.toNat))

/-- Multiplication by x in the AES field. -/
def xtime (b : Byte) : Byte := (b <<< 1) ^^^ (if b.getLsbD 7 then 0x1B else 0)

/-- Multiplication in the AES field. -/
def gmul (a b : Byte) : Byte :=
  ((List.range 8).foldl (fun (p : Byte × Byte) i =>
    (if b.getLsbD i then p.1 ^^^ p.2 else p.1, xtime p.2)) (0, a)).1

/-- XOR of two byte strings. -/
def xorBytes : List Byte → List Byte → List Byte
  | a :: as, b :: bs => (a ^^^ b) :: xorBytes as bs
  | _, _ => []

/-- The AES key schedule: the words after the first nk, one at a time; `ws` holds the words so far, newest first. -/
def keyWords (nk : Nat) : Nat → Nat → Byte → List (List Byte) → List (List Byte)
  | 0, _, _, ws => ws
  | fuel + 1, i, rcon, ws =>
    let prev := ws.headD []
    let back := ws.getD (nk - 1) []
    if i % nk = 0 then
      let rot := prev.drop 1 ++ prev.take 1
      let sub := rot.map subByte
      let t := xorBytes sub [rcon, 0, 0, 0]
      keyWords nk fuel (i + 1) (xtime rcon) (xorBytes back t :: ws)
    else if nk > 6 ∧ i % nk = 4 then
      keyWords nk fuel (i + 1) rcon (xorBytes back (prev.map subByte) :: ws)
    else keyWords nk fuel (i + 1) rcon (xorBytes back prev :: ws)

/-- A list cut into pieces of n. -/
def chunks {α : Type} (n : Nat) : Nat → List α → List (List α)
  | 0, _ => []
  | fuel + 1, l => if l.isEmpty then [] else l.take n :: chunks n fuel (l.drop n)

/-- The round keys of a key of 16 or 32 bytes, first round first. -/
def roundKeys (key : List Byte) : List (List Byte) :=
  let nk := key.length / 4
  let rounds := nk + 6
  let w0 := (chunks 4 8 key).reverse
  let ws := (keyWords nk (4 * (rounds + 1) - nk) nk 1 w0).reverse
  (chunks 4 (rounds + 1) ws).map List.flatten

/-- ShiftRows: byte 4c + r takes byte 4(c + r) + r. -/
def shiftRows (st : List Byte) : List Byte :=
  (List.range 16).map (fun i => st.getD ((4 * (i / 4 + i % 4) + i % 4) % 16) 0)

/-- InvShiftRows. -/
def invShiftRows (st : List Byte) : List Byte :=
  (List.range 16).map (fun i => st.getD ((4 * (i / 4 + 4 - i % 4) + i % 4) % 16) 0)

/-- MixColumns with the first row of its matrix. -/
def mixWith (m : List Byte) (st : List Byte) : List Byte :=
  (List.range 16).map (fun i =>
    (List.range 4).foldl (fun acc j => acc ^^^ gmul (m.getD ((j + 4 - i % 4) % 4) 0) (st.getD (4 * (i / 4) + j) 0)) 0)

/-- AES encryption of one block under round keys. -/
def aesEncRk (rks : List (List Byte)) (blk : List Byte) : List Byte :=
  match rks with
  | [] => blk
  | k0 :: rest =>
    let n := rest.length
    (rest.foldl (fun (p : List Byte × Nat) rk =>
      let st := shiftRows (p.1.map subByte)
      let st := if p.2 + 1 = n then st else mixWith [2, 3, 1, 1] st
      (xorBytes st rk, p.2 + 1)) (xorBytes blk k0, 0)).1

/-- AES decryption of one block under round keys. -/
def aesDecRk (rks : List (List Byte)) (blk : List Byte) : List Byte :=
  match rks.reverse with
  | [] => blk
  | kn :: rest =>
    let n := rest.length
    (rest.foldl (fun (p : List Byte × Nat) rk =>
      let st := (invShiftRows p.1).map invSubByte
      let st := xorBytes st rk
      (if p.2 + 1 = n then st else mixWith [14, 11, 13, 9] st, p.2 + 1)) (xorBytes blk kn, 0)).1

/-- AES encryption of one block under a key of 16 or 32 bytes (FIPS 197). -/
def aesEnc (key blk : List Byte) : List Byte := aesEncRk (roundKeys key) blk

/-- AES decryption of one block. -/
def aesDec (key blk : List Byte) : List Byte := aesDecRk (roundKeys key) blk

/-! ### XTS (IEEE 1619) -/

/-- The tweak times x: a 128-bit little-endian number shifted left by one, reduced by 0x87. -/
def xtsMul (t : Nat) : Nat := (t * 2) % 2 ^ 128 ^^^ (if t.testBit 127 then 0x87 else 0)

/-- AES-XTS over whole 16-byte blocks: data key k1, tweak key k2, data-unit number. -/
def xtsBlocks (f : List Byte → List Byte) : Nat → List (List Byte) → List Byte
  | _, [] => []
  | t, b :: bs =>
    let tb := bytesLE 16 t
    xorBytes (f (xorBytes b tb)) tb ++ xtsBlocks f (xtsMul t) bs

/-- AES-XTS-256 encryption of a data unit (R385). -/
def xtsEnc (k1 k2 : List Byte) (unit : Nat) (data : List Byte) : List Byte :=
  let rk := roundKeys k1
  xtsBlocks (aesEncRk rk) (ofBytesLE (aesEnc k2 (bytesLE 16 unit))) (chunks 16 (data.length / 16) data)

/-- AES-XTS-256 decryption of a data unit. -/
def xtsDec (k1 k2 : List Byte) (unit : Nat) (data : List Byte) : List Byte :=
  let rk := roundKeys k1
  xtsBlocks (aesDecRk rk) (ofBytesLE (aesEnc k2 (bytesLE 16 unit))) (chunks 16 (data.length / 16) data)

/-! ### SHA-256 -/

/-- The round constants of SHA-256, word i in bits [32i+31:32i]. -/
def shaK : Nat := 0xc67178f2bef9a3f7a4506ceb90befffa8cc7020884c8781478a5636f748f82ee682e6ff35b9cca4f4ed8aa4a391c0cb334b0bcb52748774c1e376c0819a4c116106aa070f40e3585d6990624d192e819c76c51a3c24b8b70a81a664ba2bfe8a192722c8581c2c92e766a0abb650a735453380d134d2c6dfc2e1b213827b70a851429296706ca6351d5a79147c6e00bf3bf597fc7b00327c8a831c66d983e515276f988da5cb0a9dc4a7484aa2de92c6f240ca1cc0fc19dc6efbe4786e49b69c1c19bf1749bdc06a780deb1fe72be5d74550c7dc3243185be12835b01d807aa98ab1c5ed5923f82a459f111f13956c25be9b5dba5b5c0fbcf71374491428a2f98

/-- The initial hash of SHA-256. -/
def shaH0 : List (BitVec 32) := [0x6a09e667, 0xbb67ae85, 0x3c6ef372, 0xa54ff53a, 0x510e527f, 0x9b05688c, 0x1f83d9ab, 0x5be0cd19]

/-- Bytes, most significant first, of a 32-bit word. -/
def be32 (w : BitVec 32) : List Byte := (bytesLE 4 w.toNat).reverse

/-- The number whose bytes, most significant first, are given. -/
def ofBytesBE (l : List Byte) : Nat := ofBytesLE l.reverse

/-- The message schedule: newest word first. -/
def shaSched : Nat → List (BitVec 32) → List (BitVec 32)
  | 0, ws => ws
  | n + 1, ws =>
    let w2 := ws.getD 1 0
    let w7 := ws.getD 6 0
    let w15 := ws.getD 14 0
    let w16 := ws.getD 15 0
    let s0 := w15.rotateRight 7 ^^^ w15.rotateRight 18 ^^^ (w15 >>> 3)
    let s1 := w2.rotateRight 17 ^^^ w2.rotateRight 19 ^^^ (w2 >>> 10)
    shaSched n ((w16 + s0 + w7 + s1) :: ws)

/-- The eight working variables of SHA-256. -/
structure Sha8 where
  a : BitVec 32
  b : BitVec 32
  c : BitVec 32
  d : BitVec 32
  e : BitVec 32
  f : BitVec 32
  g : BitVec 32
  h : BitVec 32
  deriving DecidableEq, Repr

/-- One round of SHA-256. -/
def shaRound (v : Sha8) (k w : BitVec 32) : Sha8 :=
  let s1 := v.e.rotateRight 6 ^^^ v.e.rotateRight 11 ^^^ v.e.rotateRight 25
  let ch := (v.e &&& v.f) ^^^ (~~~v.e &&& v.g)
  let t1 := v.h + s1 + ch + k + w
  let s0 := v.a.rotateRight 2 ^^^ v.a.rotateRight 13 ^^^ v.a.rotateRight 22
  let maj := (v.a &&& v.b) ^^^ (v.a &&& v.c) ^^^ (v.b &&& v.c)
  { a := t1 + (s0 + maj), b := v.a, c := v.b, d := v.c, e := v.d + t1, f := v.e, g := v.f, h := v.g }

/-- One block of SHA-256. -/
def shaBlock (h : List (BitVec 32)) (blk : List Byte) : List (BitVec 32) :=
  let ws := (shaSched 48 ((chunks 4 16 blk).map (fun b => BitVec.ofNat 32 (ofBytesBE b))).reverse).reverse
  let v0 : Sha8 := ⟨h.getD 0 0, h.getD 1 0, h.getD 2 0, h.getD 3 0, h.getD 4 0, h.getD 5 0, h.getD 6 0, h.getD 7 0⟩
  let v := (ws.foldl (fun (p : Sha8 × Nat) w =>
    (shaRound p.1 (BitVec.ofNat 32 (shaK >>> (32 * p.2))) w, p.2 + 1)) (v0, 0)).1
  [v0.a + v.a, v0.b + v.b, v0.c + v.c, v0.d + v.d, v0.e + v.e, v0.f + v.f, v0.g + v.g, v0.h + v.h]

/-- SHA-256 of a byte string. -/
def sha256 (m : List Byte) : List Byte :=
  let n := m.length
  let pad := m ++ [0x80] ++ List.replicate ((119 - n % 64) % 64) 0 ++ (bytesLE 8 (8 * n)).reverse
  ((chunks 64 (pad.length / 64) pad).foldl shaBlock shaH0).flatMap be32

/-! ### CRC-32C (R111) -/

/-- One byte of the reflected Castagnoli CRC, without inversion. -/
def crc32cByte (crc : BitVec 32) (b : Byte) : BitVec 32 :=
  (List.range 8).foldl (fun (c : BitVec 32) _ => (c >>> 1) ^^^ (if c.getLsbD 0 then 0x82F63B78 else 0)) (crc ^^^ b.zeroExtend 32)

/-- The CRC continued over a byte string. -/
def crc32c (crc : BitVec 32) (bs : List Byte) : BitVec 32 := bs.foldl crc32cByte crc

end Sys2Proof.Machine
end

