-- ==== Sys2Proof/Config.lean ====
section
/-! DEFINITION. What an implementation fixes and the spec does not give (constants without a value a proof could use), and
the free values: values the spec leaves open after an act that goes on. A free value is an opaque function applied to the
counter State.freeCtr, which each use advances. -/
namespace Sys2Proof.Config

open Sys2Proof

/-- A free 64-bit value (log entry 1). -/
opaque freeWord : Nat → Word

/-- A free line of data (log entry 1). -/
opaque freeLine : Nat → LineData

/-- A free number of pipeline steps taken by one retirement (R138 bounds it from below only; log entry 2). -/
opaque freeSteps : Nat → Nat

/-- Whether an event that the branch predictors and the L1 caches decide happens (R541 with R244, R154; log entry 104): by event, core, address
and the count of free values. -/
opaque freeEvent : Nat → Nat → Nat → Nat → Bool

/-- A free 256-bit value from an entropy source (R389, R474; log entry 1). -/
opaque freeKey : Nat → BitVec 256

/-- The root port, as 4g + k, that claims a 1 MiB block of a package's PCIe slot or of the low device window: what software wrote to the
bridges' windows, whose registers the spec does not give (R227, R310; log entry 48). -/
opaque slotPort : Nat → Nat

/-- The key derived from the package's wrapping key over a world bit, a VMID and a LABEL (R487; log entry 28). -/
opaque wrapKey : Bool → Nat → Word → BitVec 256

/-- CTXKEY, by the draw of the hub entropy source that gave it (R472; log entry 1). -/
opaque ctxKey : Nat → BitVec 256

/-- IDCODE[31:28] (R510; log entry 31). -/
opaque tapVersion : BitVec 4

/-- IDCODE[11:1], the fused manufacturer identity (R510; log entry 31). -/
opaque tapManufacturer : BitVec 11

/-- K_HL, the heat log's key, derived at manufacture (R607; log entry 33). -/
opaque hlKey : BitVec 256

/-- The package time, ORIGIN and FLAGS of the genesis record, written at manufacture (R606; log entry 33). -/
opaque genesisStamp : BitVec 96

/-- The first word of the management processor's enable bitmap, and the register by which it acknowledges a source, among its local
registers (R596 gives neither address, log entry 95). -/
opaque mpSrcEn : Nat
@[inherit_doc mpSrcEn] opaque mpSrcAck : Nat

/-- Which line of a full L2 set a core gives up (R244 says nothing of it, log entry 94). -/
opaque l2Victim : Nat → Nat → Nat → Nat

/-- The seed of the remote directory's choice of victims (R305 gives it none, log entry 51). -/
opaque agentSeed : Nat

end Sys2Proof.Config
end

