-- ==== Sys2Proof/Machine/Tab.lean ====
section
/-! DEFINITION. Sparse tables: lists of (key, value) pairs in one canonical form, keys strictly rising and no entry equal
to what an unlisted key reads as. Memory is such a table of bytes (Host.Cell); every other large collection of the block
(registers, cores, cache lines, queues, shares) is one too. -/
namespace Sys2Proof.Machine

open Sys2Proof

/-- A sparse table. -/
abbrev Tab (α : Type) := List (Nat × α)

/-- Memory: one byte at each listed address. -/
abbrev Memory := List Host.Cell

/-- The entry of key k, or d where none is listed. -/
def tget {α : Type} (d : α) (k : Nat) : Tab α → α
  | [] => d
  | (j, v) :: t => if j = k then v else tget d k t

/-- The table without any entry of key k. -/
def terase {α : Type} (k : Nat) (t : Tab α) : Tab α := t.filter (fun p => p.1 != k)

/-- The table with one entry placed by its key. -/
def tinsert {α : Type} (k : Nat) (v : α) : Tab α → Tab α
  | [] => [(k, v)]
  | (j, w) :: t => if k < j then (k, v) :: (j, w) :: t else (j, w) :: tinsert k v t

/-- The table in which key k reads v; d is what an unlisted key k reads as, so writing d removes the entry. -/
def tset {α : Type} [DecidableEq α] (d : α) (k : Nat) (v : α) (t : Tab α) : Tab α :=
  if v = d then terase k t else tinsert k v (terase k t)

/-- The canonical form: keys strictly rising, and no entry equal to what its key reads as when unlisted. -/
def twf {α : Type} [DecidableEq α] (d : Nat → α) : Tab α → Bool
  | [] => true
  | [(k, v)] => v != d k
  | (k, v) :: (j, w) :: t => v != d k && decide (k < j) && twf d ((j, w) :: t)

/-- The canonical form of a memory: an unlisted byte reads 0 (log entry 39). -/
def Memory.wf (m : Memory) : Bool := twf (fun _ => (0 : BitVec 8)) m

end Sys2Proof.Machine
end

