-- ==== Sys2Proof/Machine/RegMap.lean ====
section
/-! DEFINITION. The set-up registers: every register of the register window (chapter 21) with its place in the local window,
its replication, and its fields with their access types, reset values and permitted values (R10, R11, R13), as the register
tables of chapters 01 to 20 give them. A field whose reset the spec gives by a word (fused, trained, live, strap) resets to 0
here and is written by the hardware step that owns it. -/
namespace Sys2Proof.Machine

open Sys2Proof

/-- Access types of register fields (R11). -/
inductive FTy where
  | rw | ro | wo | rw1c | rw1s | rc | rwl
  deriving DecidableEq, Repr

/-- Which values of a field are not reserved (R13). -/
inductive Legal where
  | any
  | range (lo hi : Nat)
  | oneOf (vs : List Nat)
  deriving DecidableEq, Repr

/-- One field of a register: bits [hi:lo], access type, reset value, permitted values. -/
structure FieldDef where
  hi : Nat
  lo : Nat
  ty : FTy
  rst : Nat
  legal : Legal
  deriving DecidableEq, Repr

/-- The set-up registers by name. A replicated register is one name with an index. -/
inductive RegName where
  /-- PKGID, 1 of it (R31). -/
  | pkgid
  /-- STRAPSTAT, 1 of it (R31). -/
  | strapstat
  /-- LCMAPn, 216 of it (R31). -/
  | lcmap
  /-- RSTCMD, 1 of it (R623). -/
  | rstcmd
  /-- RSTSTAT, 1 of it (R623). -/
  | rststat
  /-- BUSTAT, 1 of it (R626). -/
  | bustat
  /-- DIEREVd, 29 of it (R632). -/
  | dierev
  /-- DEVSTO, 1 of it (R241). -/
  | devsto
  /-- MEMHASH, 1 of it (R391). -/
  | memhash
  /-- KEYCMD, 1 of it (R391). -/
  | keycmd
  /-- KEYSTAT, 1 of it (R391). -/
  | keystat
  /-- KEYDATAi, 8 of it (chapter prose). -/
  | keydata
  /-- CXLWBASEn, 16 of it (R395). -/
  | cxlwbase
  /-- CXLWCTLn, 16 of it (R395). -/
  | cxlwctl
  /-- OWNMAP, 1 of it (R501). -/
  | ownmap
  /-- WFCTL (hub), 1 of it (R493). -/
  | hubWfctl
  /-- WFBASEn (hub), 32 of it (R493). -/
  | hubWfbase
  /-- WFLIMn (hub), 32 of it (R493). -/
  | hubWflim
  /-- FABCTL (hub), 1 of it (R337). -/
  | hubFabctl
  /-- FABSTAT (hub), 1 of it (R337). -/
  | hubFabstat
  /-- HFENCEi (hub), 4 of it (R303). -/
  | hubHfence
  /-- FSTOPn (hub), 32 of it (R337). -/
  | hubFstop
  /-- LINKCTL (hub end of spoke s), 12 of it (R358). -/
  | hubLinkctl
  /-- LINKSTAT (hub end of spoke s), 12 of it (R358). -/
  | hubLinkstat
  /-- LINKCNT (hub end of spoke s), 12 of it (R358). -/
  | hubLinkcnt
  /-- CASCSTAT, 1 of it (R368). -/
  | cascstat
  /-- CASCFEAT, 1 of it (chapter prose). -/
  | cascfeat
  /-- RMBASE, 2 of it (R266). -/
  | rmbase
  /-- RMLIMIT, 2 of it (R266). -/
  | rmlimit
  /-- RMCMD, 2 of it (R266). -/
  | rmcmd
  /-- RMSTAT, 2 of it (R266). -/
  | rmstat
  /-- SVCREQ, 1 of it (R589). -/
  | svcreq
  /-- SVCDETAIL0, 1 of it (R589). -/
  | svcdetail0
  /-- SVCDETAIL1, 1 of it (R589). -/
  | svcdetail1
  /-- RQTO, 1 of it (R577). -/
  | rqto
  /-- SVCDETAIL2, 1 of it (R589). -/
  | svcdetail2
  /-- CELOGSTAT (hub), 1 of it (R580). -/
  | hubCelogstat
  /-- EVLOGSTAT (hub), 1 of it (R580). -/
  | hubEvlogstat
  /-- LIFE0, 1 of it (R592). -/
  | life0
  /-- LIFE1, 1 of it (R592). -/
  | life1
  /-- CELOGn (hub)A, 32 of it (R580). -/
  | hubCelogA
  /-- CELOGn (hub)B, 32 of it (R580). -/
  | hubCelogB
  /-- CELOGn (hub)T, 32 of it (R580). -/
  | hubCelogT
  /-- EVLOGn (hub)A, 16 of it (R580). -/
  | hubEvlogA
  /-- EVLOGn (hub)B, 16 of it (R580). -/
  | hubEvlogB
  /-- EVLOGn (hub)T, 16 of it (R580). -/
  | hubEvlogT
  /-- PKGCMD, 1 of it (R567). -/
  | pkgcmd
  /-- PKGSTAT, 1 of it (R567). -/
  | pkgstat
  /-- PCAPCTL, 1 of it (R567). -/
  | pcapctl
  /-- PCAPSTAT, 1 of it (R567). -/
  | pcapstat
  /-- WAKECTL, 1 of it (R567). -/
  | wakectl
  /-- WAKETIME, 1 of it (chapter prose). -/
  | waketime
  /-- LASTWAKE, 1 of it (R567). -/
  | lastwake
  /-- LASTWAKET, 1 of it (chapter prose). -/
  | lastwaket
  /-- WAKEMBOX, 1 of it (chapter prose). -/
  | wakembox
  /-- ANNCTL, 1 of it (R567). -/
  | annctl
  /-- ANNSTAT, 1 of it (R567). -/
  | annstat
  /-- DOMCMD, 1 of it (R567). -/
  | domcmd
  /-- DOMSTAT, 1 of it (R567). -/
  | domstat
  /-- CPWRn, 216 of it (R567). -/
  | cpwr
  /-- DSTATEd, 431 of it (R567). -/
  | dstate
  /-- CIPHCTL, 1 of it (R490). -/
  | ciphctl
  /-- CTXBASE, 1 of it (R490). -/
  | ctxbase
  /-- CIPHSTAT, 1 of it (R490). -/
  | ciphstat
  /-- CUNITDIS, 1 of it (R490). -/
  | cunitdis
  /-- CIPHCNT, 1 of it (R490). -/
  | ciphcnt
  /-- MPSTAT, 1 of it (R605). -/
  | mpstat
  /-- MPWDT, 1 of it (R605). -/
  | mpwdt
  /-- MBPOSTc, 2 of it (R605). -/
  | mbpost
  /-- HLSUBMIT, 1 of it (R610). -/
  | hlsubmit
  /-- HLSTAT, 1 of it (R610). -/
  | hlstat
  /-- SHCMD, 1 of it (R448). -/
  | shcmd
  /-- SHARG0, 1 of it (R448). -/
  | sharg0
  /-- SHARG1, 1 of it (R448). -/
  | sharg1
  /-- SHARG2, 1 of it (R448). -/
  | sharg2
  /-- SHRES0, 1 of it (R448). -/
  | shres0
  /-- SHRES1, 1 of it (R448). -/
  | shres1
  /-- SHSTAT, 1 of it (R448). -/
  | shstat
  /-- SHDRAIN, 1 of it (R448). -/
  | shdrain
  /-- POOLFREE0, 1 of it (R448). -/
  | poolfree0
  /-- POOLFREE1, 1 of it (R448). -/
  | poolfree1
  /-- SHSTATEn, 4096 of it (R448). -/
  | shstate
  /-- INTSRCn, 2048 of it (R518). -/
  | intsrc
  /-- MSICTLv, 32768 of it (R526). -/
  | msictl
  /-- MSIPOSTv, 32768 of it (R526). -/
  | msipost
  /-- MSIADDR, 1 of it (chapter prose). -/
  | msiaddr
  /-- ICSTAT, 1 of it (R529). -/
  | icstat
  /-- ETHPORTn, 16 of it (R407). -/
  | ethport
  /-- ETHSTAT (MAC n), 16 of it (R407). -/
  | ethstat
  /-- RSSKEYi (MAC n), 80 of it (chapter prose). -/
  | rsskey
  /-- RSSINDi (MAC n), 2048 of it (chapter prose). -/
  | rssind
  /-- VREQ (stack s), 12 of it (R145). -/
  | vreq
  /-- L3CTL (stack s), 12 of it (R259). -/
  | l3ctl
  /-- L3STAT (stack s), 12 of it (R259). -/
  | l3stat
  /-- PMASKn (stack s), 192 of it (R253). -/
  | pmask
  /-- L3WAYk (stack s), 96 of it (R258). -/
  | l3way
  /-- L3LFSRk (stack s), 96 of it (chapter prose). -/
  | l3lfsr
  /-- COHCTL (stack s), 12 of it (R303). -/
  | cohctl
  /-- COHSTAT (stack s), 12 of it (R303). -/
  | cohstat
  /-- COHADDR (stack s), 12 of it (R303). -/
  | cohaddr
  /-- HFENCEi (stack s), 48 of it (R303). -/
  | hfence
  /-- FABCTL (stack s), 12 of it (R337). -/
  | fabctl
  /-- FABSTAT (stack s), 12 of it (R337). -/
  | fabstat
  /-- RIMCTL (stack s), 12 of it (R337). -/
  | rimctl
  /-- RIMSTAT (stack s), 12 of it (R337). -/
  | rimstat
  /-- FSTOPn (stack s), 384 of it (R337). -/
  | fstop
  /-- LINKCTL (stack s, end e), 36 of it (R358). -/
  | linkctl
  /-- LINKSTAT (stack s, end e), 36 of it (R358). -/
  | linkstat
  /-- LINKCNT (stack s, end e), 36 of it (R358). -/
  | linkcnt
  /-- MCCTL (channel 2s+m), 24 of it (R384). -/
  | mcctl
  /-- MCSTAT (channel 2s+m), 24 of it (R384). -/
  | mcstat
  /-- MCSCRUB (channel 2s+m), 24 of it (R384). -/
  | mcscrub
  /-- MCCESTAT (channel 2s+m), 24 of it (R384). -/
  | mccestat
  /-- MCCELOGn (channel 2s+m), 192 of it (R384). -/
  | mccelog
  /-- MCUELOG (channel 2s+m), 24 of it (R384). -/
  | mcuelog
  /-- WFCTL (home s), 12 of it (R493). -/
  | wfctl
  /-- WFBASEn (home s), 384 of it (R493). -/
  | wfbase
  /-- WFLIMn (home s), 384 of it (R493). -/
  | wflim
  /-- CELOGSTAT (stack s), 12 of it (R580). -/
  | celogstat
  /-- EVLOGSTAT (stack s), 12 of it (R580). -/
  | evlogstat
  /-- RETSTAT (stack s), 12 of it (R586). -/
  | retstat
  /-- CELOGn (stack s)A, 192 of it (R580). -/
  | celogA
  /-- CELOGn (stack s)B, 192 of it (R580). -/
  | celogB
  /-- CELOGn (stack s)T, 192 of it (R580). -/
  | celogT
  /-- EVLOGn (stack s)A, 96 of it (R580). -/
  | evlogA
  /-- EVLOGn (stack s)B, 96 of it (R580). -/
  | evlogB
  /-- EVLOGn (stack s)T, 96 of it (R580). -/
  | evlogT
  /-- DIRWAYk (stack s), 96 of it (R258). -/
  | dirway
  /-- LGCTL (group g), 32 of it (R397). -/
  | lgctl
  /-- LGSTAT (group g), 32 of it (R397). -/
  | lgstat
  /-- PALCTL (group g), 32 of it (R358). -/
  | palctl
  /-- PALSTAT (group g), 32 of it (R368). -/
  | palstat
  /-- OECMD (engine e), 4 of it (R420). -/
  | oecmd
  /-- OESTAT (engine e), 4 of it (R420). -/
  | oestat
  /-- CARTSTATb (engine e), 8 of it (R420). -/
  | cartstat
  /-- SQDB (queue q), 16384 of it (R428). -/
  | sqdb
  /-- CQDB (queue q), 16384 of it (R428). -/
  | cqdb
  /-- QCFG (queue q), 16384 of it (R428). -/
  | qcfg
  /-- SQBASE (queue q), 16384 of it (R428). -/
  | sqbase
  /-- CQBASE (queue q), 16384 of it (R428). -/
  | cqbase
  /-- QIRQ (queue q), 16384 of it (R428). -/
  | qirq
  /-- QSTAT (queue q), 16384 of it (R428). -/
  | qstat
  /-- HIOWAY, 1 of it (chapter prose). -/
  | hioway
  deriving DecidableEq, Repr

/-- The set-up registers, part 0. -/
def allRegs0 : List RegName :=
  [.pkgid, .strapstat, .lcmap, .rstcmd, .rststat, .bustat, .dierev, .devsto, .memhash,
   .keycmd, .keystat, .keydata, .cxlwbase, .cxlwctl, .ownmap, .hubWfctl, .hubWfbase, .hubWflim,
   .hubFabctl, .hubFabstat, .hubHfence, .hubFstop, .hubLinkctl, .hubLinkstat, .hubLinkcnt, .cascstat, .cascfeat,
   .rmbase, .rmlimit, .rmcmd, .rmstat, .svcreq, .svcdetail0, .svcdetail1, .rqto, .svcdetail2]

/-- The set-up registers, part 1. -/
def allRegs1 : List RegName :=
  [.hubCelogstat, .hubEvlogstat, .life0, .life1, .hubCelogA, .hubCelogB, .hubCelogT, .hubEvlogA, .hubEvlogB,
   .hubEvlogT, .pkgcmd, .pkgstat, .pcapctl, .pcapstat, .wakectl, .waketime, .lastwake, .lastwaket,
   .wakembox, .annctl, .annstat, .domcmd, .domstat, .cpwr, .dstate, .ciphctl, .ctxbase,
   .ciphstat, .cunitdis, .ciphcnt, .mpstat, .mpwdt, .mbpost, .hlsubmit, .hlstat, .shcmd]

/-- The set-up registers, part 2. -/
def allRegs2 : List RegName :=
  [.sharg0, .sharg1, .sharg2, .shres0, .shres1, .shstat, .shdrain, .poolfree0, .poolfree1,
   .shstate, .intsrc, .msictl, .msipost, .msiaddr, .icstat, .ethport, .ethstat, .rsskey,
   .rssind, .vreq, .l3ctl, .l3stat, .pmask, .l3way, .l3lfsr, .cohctl, .cohstat,
   .cohaddr, .hfence, .fabctl, .fabstat, .rimctl, .rimstat, .fstop, .linkctl, .linkstat]

/-- The set-up registers, part 3. -/
def allRegs3 : List RegName :=
  [.linkcnt, .mcctl, .mcstat, .mcscrub, .mccestat, .mccelog, .mcuelog, .wfctl, .wfbase,
   .wflim, .celogstat, .evlogstat, .retstat, .celogA, .celogB, .celogT, .evlogA, .evlogB,
   .evlogT, .dirway, .lgctl, .lgstat, .palctl, .palstat, .oecmd, .oestat, .cartstat,
   .sqdb, .cqdb, .qcfg, .sqbase, .cqbase, .qirq, .qstat, .hioway]

/-- Every set-up register. -/
def allRegs : List RegName := allRegs0 ++ allRegs1 ++ allRegs2 ++ allRegs3

/-- The number of a register name in the register file. -/
def RegName.num : RegName → Nat
  | .pkgid => 0
  | .strapstat => 1
  | .lcmap => 2
  | .rstcmd => 3
  | .rststat => 4
  | .bustat => 5
  | .dierev => 6
  | .devsto => 7
  | .memhash => 8
  | .keycmd => 9
  | .keystat => 10
  | .keydata => 11
  | .cxlwbase => 12
  | .cxlwctl => 13
  | .ownmap => 14
  | .hubWfctl => 15
  | .hubWfbase => 16
  | .hubWflim => 17
  | .hubFabctl => 18
  | .hubFabstat => 19
  | .hubHfence => 20
  | .hubFstop => 21
  | .hubLinkctl => 22
  | .hubLinkstat => 23
  | .hubLinkcnt => 24
  | .cascstat => 25
  | .cascfeat => 26
  | .rmbase => 27
  | .rmlimit => 28
  | .rmcmd => 29
  | .rmstat => 30
  | .svcreq => 31
  | .svcdetail0 => 32
  | .svcdetail1 => 33
  | .rqto => 34
  | .svcdetail2 => 35
  | .hubCelogstat => 36
  | .hubEvlogstat => 37
  | .life0 => 38
  | .life1 => 39
  | .hubCelogA => 40
  | .hubCelogB => 41
  | .hubCelogT => 42
  | .hubEvlogA => 43
  | .hubEvlogB => 44
  | .hubEvlogT => 45
  | .pkgcmd => 46
  | .pkgstat => 47
  | .pcapctl => 48
  | .pcapstat => 49
  | .wakectl => 50
  | .waketime => 51
  | .lastwake => 52
  | .lastwaket => 53
  | .wakembox => 54
  | .annctl => 55
  | .annstat => 56
  | .domcmd => 57
  | .domstat => 58
  | .cpwr => 59
  | .dstate => 60
  | .ciphctl => 61
  | .ctxbase => 62
  | .ciphstat => 63
  | .cunitdis => 64
  | .ciphcnt => 65
  | .mpstat => 66
  | .mpwdt => 67
  | .mbpost => 68
  | .hlsubmit => 69
  | .hlstat => 70
  | .shcmd => 71
  | .sharg0 => 72
  | .sharg1 => 73
  | .sharg2 => 74
  | .shres0 => 75
  | .shres1 => 76
  | .shstat => 77
  | .shdrain => 78
  | .poolfree0 => 79
  | .poolfree1 => 80
  | .shstate => 81
  | .intsrc => 82
  | .msictl => 83
  | .msipost => 84
  | .msiaddr => 85
  | .icstat => 86
  | .ethport => 87
  | .ethstat => 88
  | .rsskey => 89
  | .rssind => 90
  | .vreq => 91
  | .l3ctl => 92
  | .l3stat => 93
  | .pmask => 94
  | .l3way => 95
  | .l3lfsr => 96
  | .cohctl => 97
  | .cohstat => 98
  | .cohaddr => 99
  | .hfence => 100
  | .fabctl => 101
  | .fabstat => 102
  | .rimctl => 103
  | .rimstat => 104
  | .fstop => 105
  | .linkctl => 106
  | .linkstat => 107
  | .linkcnt => 108
  | .mcctl => 109
  | .mcstat => 110
  | .mcscrub => 111
  | .mccestat => 112
  | .mccelog => 113
  | .mcuelog => 114
  | .wfctl => 115
  | .wfbase => 116
  | .wflim => 117
  | .celogstat => 118
  | .evlogstat => 119
  | .retstat => 120
  | .celogA => 121
  | .celogB => 122
  | .celogT => 123
  | .evlogA => 124
  | .evlogB => 125
  | .evlogT => 126
  | .dirway => 127
  | .lgctl => 128
  | .lgstat => 129
  | .palctl => 130
  | .palstat => 131
  | .oecmd => 132
  | .oestat => 133
  | .cartstat => 134
  | .sqdb => 135
  | .cqdb => 136
  | .qcfg => 137
  | .sqbase => 138
  | .cqbase => 139
  | .qirq => 140
  | .qstat => 141
  | .hioway => 142

/-- Offset of index 0 in the local register window (R30, chapter 21). HIOWAY has no address in the spec. -/
def regBase : RegName → Option Nat
  | .pkgid => some 0x0
  | .strapstat => some 0x8
  | .lcmap => some 0x800
  | .rstcmd => some 0x10000
  | .rststat => some 0x10008
  | .bustat => some 0x10010
  | .dierev => some 0x10100
  | .devsto => some 0x20000
  | .memhash => some 0x30000
  | .keycmd => some 0x40000
  | .keystat => some 0x40008
  | .keydata => some 0x40040
  | .cxlwbase => some 0x50000
  | .cxlwctl => some 0x50008
  | .ownmap => some 0x60000
  | .hubWfctl => some 0x60008
  | .hubWfbase => some 0x60100
  | .hubWflim => some 0x60108
  | .hubFabctl => some 0x70000
  | .hubFabstat => some 0x70008
  | .hubHfence => some 0x70040
  | .hubFstop => some 0x70100
  | .hubLinkctl => some 0x80000
  | .hubLinkstat => some 0x80008
  | .hubLinkcnt => some 0x80010
  | .cascstat => some 0x90000
  | .cascfeat => some 0x90008
  | .rmbase => some 0xa0000
  | .rmlimit => some 0xa0008
  | .rmcmd => some 0xa0010
  | .rmstat => some 0xa0018
  | .svcreq => some 0xb0000
  | .svcdetail0 => some 0xb0008
  | .svcdetail1 => some 0xb0010
  | .rqto => some 0xb0018
  | .svcdetail2 => some 0xb0020
  | .hubCelogstat => some 0xb0028
  | .hubEvlogstat => some 0xb0030
  | .life0 => some 0xb0040
  | .life1 => some 0xb0048
  | .hubCelogA => some 0xb0100
  | .hubCelogB => some 0xb0108
  | .hubCelogT => some 0xb0110
  | .hubEvlogA => some 0xb0600
  | .hubEvlogB => some 0xb0608
  | .hubEvlogT => some 0xb0610
  | .pkgcmd => some 0xc0000
  | .pkgstat => some 0xc0008
  | .pcapctl => some 0xc0010
  | .pcapstat => some 0xc0018
  | .wakectl => some 0xc0020
  | .waketime => some 0xc0028
  | .lastwake => some 0xc0030
  | .lastwaket => some 0xc0038
  | .wakembox => some 0xc0040
  | .annctl => some 0xc0048
  | .annstat => some 0xc0050
  | .domcmd => some 0xc0100
  | .domstat => some 0xc0108
  | .cpwr => some 0xc1000
  | .dstate => some 0xc4000
  | .ciphctl => some 0xd0000
  | .ctxbase => some 0xd0008
  | .ciphstat => some 0xd0010
  | .cunitdis => some 0xd0018
  | .ciphcnt => some 0xd0020
  | .mpstat => some 0xe0000
  | .mpwdt => some 0xe0008
  | .mbpost => some 0xf0000
  | .hlsubmit => some 0x100000
  | .hlstat => some 0x101000
  | .shcmd => some 0x200000
  | .sharg0 => some 0x200008
  | .sharg1 => some 0x200010
  | .sharg2 => some 0x200018
  | .shres0 => some 0x200020
  | .shres1 => some 0x200028
  | .shstat => some 0x200030
  | .shdrain => some 0x200038
  | .poolfree0 => some 0x200040
  | .poolfree1 => some 0x200048
  | .shstate => some 0x208000
  | .intsrc => some 0x1000000
  | .msictl => some 0x1100000
  | .msipost => some 0x1100008
  | .msiaddr => some 0x1200000
  | .icstat => some 0x1200008
  | .ethport => some 0x2000000
  | .ethstat => some 0x2000008
  | .rsskey => some 0x2000100
  | .rssind => some 0x2000200
  | .vreq => some 0x1000040000
  | .l3ctl => some 0x1000100000
  | .l3stat => some 0x1000100008
  | .pmask => some 0x1000100100
  | .l3way => some 0x1000100200
  | .l3lfsr => some 0x1000100240
  | .cohctl => some 0x1000200000
  | .cohstat => some 0x1000200008
  | .cohaddr => some 0x1000200010
  | .hfence => some 0x1000200040
  | .fabctl => some 0x1000300000
  | .fabstat => some 0x1000300008
  | .rimctl => some 0x1000300010
  | .rimstat => some 0x1000300018
  | .fstop => some 0x1000300100
  | .linkctl => some 0x1000400000
  | .linkstat => some 0x1000400008
  | .linkcnt => some 0x1000400010
  | .mcctl => some 0x1000500000
  | .mcstat => some 0x1000500008
  | .mcscrub => some 0x1000500010
  | .mccestat => some 0x1000500018
  | .mccelog => some 0x1000500040
  | .mcuelog => some 0x1000500080
  | .wfctl => some 0x1000600000
  | .wfbase => some 0x1000600100
  | .wflim => some 0x1000600108
  | .celogstat => some 0x1000700000
  | .evlogstat => some 0x1000700008
  | .retstat => some 0x1000700010
  | .celogA => some 0x1000700100
  | .celogB => some 0x1000700108
  | .celogT => some 0x1000700110
  | .evlogA => some 0x1000700400
  | .evlogB => some 0x1000700408
  | .evlogT => some 0x1000700410
  | .dirway => some 0x1000700600
  | .lgctl => some 0x2000000000
  | .lgstat => some 0x2000000008
  | .palctl => some 0x2000200000
  | .palstat => some 0x2000200008
  | .oecmd => some 0x2018300000
  | .oestat => some 0x2018300008
  | .cartstat => some 0x2018300010
  | .sqdb => some 0x8000000000
  | .cqdb => some 0x8000000008
  | .qcfg => some 0x8000000010
  | .sqbase => some 0x8000000018
  | .cqbase => some 0x8000000020
  | .qirq => some 0x8000000028
  | .qstat => some 0x8000000030
  | .hioway => none

/-- Replication: (stride, count) of each index, the outermost first. -/
def regDims : RegName → List (Nat × Nat)
  | .pkgid => []
  | .strapstat => []
  | .lcmap => [(0x8, 216)]
  | .rstcmd => []
  | .rststat => []
  | .bustat => []
  | .dierev => [(0x8, 29)]
  | .devsto => []
  | .memhash => []
  | .keycmd => []
  | .keystat => []
  | .keydata => [(0x8, 8)]
  | .cxlwbase => [(0x10, 16)]
  | .cxlwctl => [(0x10, 16)]
  | .ownmap => []
  | .hubWfctl => []
  | .hubWfbase => [(0x10, 32)]
  | .hubWflim => [(0x10, 32)]
  | .hubFabctl => []
  | .hubFabstat => []
  | .hubHfence => [(0x8, 4)]
  | .hubFstop => [(0x8, 32)]
  | .hubLinkctl => [(0x100, 12)]
  | .hubLinkstat => [(0x100, 12)]
  | .hubLinkcnt => [(0x100, 12)]
  | .cascstat => []
  | .cascfeat => []
  | .rmbase => [(0x40, 2)]
  | .rmlimit => [(0x40, 2)]
  | .rmcmd => [(0x40, 2)]
  | .rmstat => [(0x40, 2)]
  | .svcreq => []
  | .svcdetail0 => []
  | .svcdetail1 => []
  | .rqto => []
  | .svcdetail2 => []
  | .hubCelogstat => []
  | .hubEvlogstat => []
  | .life0 => []
  | .life1 => []
  | .hubCelogA => [(0x20, 32)]
  | .hubCelogB => [(0x20, 32)]
  | .hubCelogT => [(0x20, 32)]
  | .hubEvlogA => [(0x20, 16)]
  | .hubEvlogB => [(0x20, 16)]
  | .hubEvlogT => [(0x20, 16)]
  | .pkgcmd => []
  | .pkgstat => []
  | .pcapctl => []
  | .pcapstat => []
  | .wakectl => []
  | .waketime => []
  | .lastwake => []
  | .lastwaket => []
  | .wakembox => []
  | .annctl => []
  | .annstat => []
  | .domcmd => []
  | .domstat => []
  | .cpwr => [(0x8, 216)]
  | .dstate => [(0x8, 431)]
  | .ciphctl => []
  | .ctxbase => []
  | .ciphstat => []
  | .cunitdis => []
  | .ciphcnt => []
  | .mpstat => []
  | .mpwdt => []
  | .mbpost => [(0x1000, 2)]
  | .hlsubmit => []
  | .hlstat => []
  | .shcmd => []
  | .sharg0 => []
  | .sharg1 => []
  | .sharg2 => []
  | .shres0 => []
  | .shres1 => []
  | .shstat => []
  | .shdrain => []
  | .poolfree0 => []
  | .poolfree1 => []
  | .shstate => [(0x8, 4096)]
  | .intsrc => [(0x8, 2048)]
  | .msictl => [(0x10, 32768)]
  | .msipost => [(0x10, 32768)]
  | .msiaddr => []
  | .icstat => []
  | .ethport => [(0x10000, 16)]
  | .ethstat => [(0x10000, 16)]
  | .rsskey => [(0x10000, 16), (0x8, 5)]
  | .rssind => [(0x10000, 16), (0x8, 128)]
  | .vreq => [(0x100000000, 12)]
  | .l3ctl => [(0x100000000, 12)]
  | .l3stat => [(0x100000000, 12)]
  | .pmask => [(0x100000000, 12), (0x8, 16)]
  | .l3way => [(0x100000000, 12), (0x8, 8)]
  | .l3lfsr => [(0x100000000, 12), (0x8, 8)]
  | .cohctl => [(0x100000000, 12)]
  | .cohstat => [(0x100000000, 12)]
  | .cohaddr => [(0x100000000, 12)]
  | .hfence => [(0x100000000, 12), (0x8, 4)]
  | .fabctl => [(0x100000000, 12)]
  | .fabstat => [(0x100000000, 12)]
  | .rimctl => [(0x100000000, 12)]
  | .rimstat => [(0x100000000, 12)]
  | .fstop => [(0x100000000, 12), (0x8, 32)]
  | .linkctl => [(0x100000000, 12), (0x100, 3)]
  | .linkstat => [(0x100000000, 12), (0x100, 3)]
  | .linkcnt => [(0x100000000, 12), (0x100, 3)]
  | .mcctl => [(0x100000000, 12), (0x10000, 2)]
  | .mcstat => [(0x100000000, 12), (0x10000, 2)]
  | .mcscrub => [(0x100000000, 12), (0x10000, 2)]
  | .mccestat => [(0x100000000, 12), (0x10000, 2)]
  | .mccelog => [(0x100000000, 12), (0x10000, 2), (0x8, 8)]
  | .mcuelog => [(0x100000000, 12), (0x10000, 2)]
  | .wfctl => [(0x100000000, 12)]
  | .wfbase => [(0x100000000, 12), (0x10, 32)]
  | .wflim => [(0x100000000, 12), (0x10, 32)]
  | .celogstat => [(0x100000000, 12)]
  | .evlogstat => [(0x100000000, 12)]
  | .retstat => [(0x100000000, 12)]
  | .celogA => [(0x100000000, 12), (0x20, 16)]
  | .celogB => [(0x100000000, 12), (0x20, 16)]
  | .celogT => [(0x100000000, 12), (0x20, 16)]
  | .evlogA => [(0x100000000, 12), (0x20, 8)]
  | .evlogB => [(0x100000000, 12), (0x20, 8)]
  | .evlogT => [(0x100000000, 12), (0x20, 8)]
  | .dirway => [(0x100000000, 12), (0x8, 8)]
  | .lgctl => [(0x1000000, 32)]
  | .lgstat => [(0x1000000, 32)]
  | .palctl => [(0x1000000, 32)]
  | .palstat => [(0x1000000, 32)]
  | .oecmd => [(0x2000000, 4)]
  | .oestat => [(0x2000000, 4)]
  | .cartstat => [(0x2000000, 4), (0x8, 2)]
  | .sqdb => [(0x1000, 16384)]
  | .cqdb => [(0x1000, 16384)]
  | .qcfg => [(0x1000, 16384)]
  | .sqbase => [(0x1000, 16384)]
  | .cqbase => [(0x1000, 16384)]
  | .qirq => [(0x1000, 16384)]
  | .qstat => [(0x1000, 16384)]
  | .hioway => []

/-- Fields of PKGID. -/
def pkgidFields : List FieldDef :=
  [⟨63, 48, .ro, 0x1224, .any⟩, ⟨31, 0, .ro, 0x0, .any⟩]

/-- Fields of STRAPSTAT. -/
def strapstatFields : List FieldDef :=
  [⟨7, 7, .ro, 0x0, .any⟩, ⟨3, 2, .ro, 0x0, .any⟩, ⟨1, 0, .ro, 0x0, .any⟩]

/-- Fields of LCMAPn. -/
def lcmapFields : List FieldDef :=
  [⟨15, 15, .ro, 0x0, .any⟩, ⟨11, 8, .ro, 0x0, .any⟩, ⟨4, 0, .ro, 0x0, .any⟩]

/-- Fields of RSTCMD. -/
def rstcmdFields : List FieldDef :=
  [⟨23, 16, .rw, 0x0, .any⟩, ⟨8, 8, .wo, 0x0, .any⟩, ⟨3, 0, .rw, 0x0, .range 1 6⟩]

/-- Fields of RSTSTAT. -/
def rststatFields : List FieldDef :=
  [⟨25, 24, .ro, 0x0, .any⟩, ⟨16, 16, .rw1c, 0x0, .any⟩, ⟨11, 8, .ro, 0x0, .any⟩, ⟨7, 0, .ro, 0x0, .any⟩]

/-- Fields of BUSTAT. -/
def bustatFields : List FieldDef :=
  [⟨63, 60, .ro, 0x0, .any⟩, ⟨2, 0, .ro, 0x0, .any⟩, ⟨5, 3, .ro, 0x0, .any⟩, ⟨8, 6, .ro, 0x0, .any⟩,
    ⟨11, 9, .ro, 0x0, .any⟩, ⟨14, 12, .ro, 0x0, .any⟩, ⟨17, 15, .ro, 0x0, .any⟩, ⟨20, 18, .ro, 0x0, .any⟩,
    ⟨23, 21, .ro, 0x0, .any⟩, ⟨26, 24, .ro, 0x0, .any⟩, ⟨29, 27, .ro, 0x0, .any⟩, ⟨32, 30, .ro, 0x0, .any⟩,
    ⟨35, 33, .ro, 0x0, .any⟩]

/-- Fields of DIEREVd. -/
def dierevFields : List FieldDef :=
  [⟨32, 32, .ro, 0x0, .any⟩, ⟨31, 16, .ro, 0x0, .any⟩, ⟨15, 8, .ro, 0x0, .any⟩, ⟨7, 0, .ro, 0x0, .any⟩]

/-- Fields of DEVSTO. -/
def devstoFields : List FieldDef :=
  [⟨16, 16, .rw1s, 0x0, .any⟩, ⟨15, 0, .rwl, 0x3e8, .range 1 64000⟩]

/-- Fields of MEMHASH. -/
def memhashFields : List FieldDef :=
  [⟨63, 32, .ro, 0x0, .any⟩, ⟨28, 24, .ro, 0x0, .any⟩, ⟨23, 20, .ro, 0x0, .any⟩, ⟨19, 10, .ro, 0x0, .any⟩]

/-- Fields of KEYCMD. -/
def keycmdFields : List FieldDef :=
  [⟨26, 16, .rw, 0x0, .any⟩, ⟨12, 12, .rw, 0x0, .any⟩, ⟨9, 8, .rw, 0x0, .range 0 2⟩, ⟨0, 0, .wo, 0x0, .any⟩]

/-- Fields of KEYSTAT. -/
def keystatFields : List FieldDef :=
  [⟨8, 8, .rw1c, 0x0, .any⟩, ⟨7, 0, .ro, 0x0, .any⟩]

/-- Fields of KEYDATAi. -/
def keydataFields : List FieldDef :=
  [⟨63, 0, .wo, 0x0, .any⟩]

/-- Fields of CXLWBASEn. -/
def cxlwbaseFields : List FieldDef :=
  [⟨51, 28, .rw, 0x0, .any⟩, ⟨0, 0, .rw, 0x0, .any⟩]

/-- Fields of CXLWCTLn. -/
def cxlwctlFields : List FieldDef :=
  [⟨63, 46, .rw, 0x0, .range 1 0x30000⟩, ⟨45, 43, .rw, 0x0, .range 0 6⟩, ⟨42, 41, .rw, 0x0, .any⟩,
    ⟨39, 0, .rw, 0x0, .any⟩]

/-- Fields of OWNMAP. -/
def ownmapFields : List FieldDef :=
  [⟨63, 32, .rw, 0x0, .any⟩, ⟨31, 28, .rw, 0x0, .any⟩, ⟨27, 24, .rw, 0x0, .any⟩, ⟨23, 23, .rw, 0x0, .any⟩,
    ⟨22, 22, .rw, 0x0, .any⟩, ⟨11, 0, .rw, 0x0, .any⟩]

/-- Fields of WFCTL (hub). -/
def hubWfctlFields : List FieldDef :=
  [⟨0, 0, .rw1s, 0x0, .any⟩]

/-- Fields of WFBASEn (hub). -/
def hubWfbaseFields : List FieldDef :=
  [⟨51, 12, .rwl, 0x0, .any⟩, ⟨0, 0, .rwl, 0x0, .any⟩]

/-- Fields of WFLIMn (hub). -/
def hubWflimFields : List FieldDef :=
  [⟨51, 12, .rwl, 0x0, .any⟩, ⟨1, 1, .rwl, 0x0, .any⟩, ⟨0, 0, .rwl, 0x0, .any⟩]

/-- Fields of FABCTL (hub). -/
def hubFabctlFields : List FieldDef :=
  [⟨16, 16, .rw1s, 0x0, .any⟩, ⟨10, 8, .rwl, 0x4, .any⟩, ⟨6, 4, .rwl, 0x2, .any⟩, ⟨2, 0, .rwl, 0x0, .any⟩]

/-- Fields of FABSTAT (hub). -/
def hubFabstatFields : List FieldDef :=
  [⟨63, 48, .ro, 0x0, .any⟩, ⟨47, 32, .ro, 0x0, .any⟩, ⟨31, 24, .ro, 0x0, .any⟩, ⟨23, 16, .ro, 0x0, .any⟩,
    ⟨15, 0, .ro, 0x0, .any⟩]

/-- Fields of HFENCEi (hub). -/
def hubHfenceFields : List FieldDef :=
  [⟨63, 0, .ro, 0x0, .any⟩]

/-- Fields of FSTOPn (hub). -/
def hubFstopFields : List FieldDef :=
  [⟨9, 8, .ro, 0x0, .any⟩, ⟨2, 0, .rw, 0x0, .range 0 4⟩]

/-- Fields of LINKCTL (hub end of spoke s). -/
def hubLinkctlFields : List FieldDef :=
  [⟨3, 2, .rw, 0x2, .range 0 2⟩, ⟨1, 1, .wo, 0x0, .any⟩, ⟨0, 0, .wo, 0x0, .any⟩]

/-- Fields of LINKSTAT (hub end of spoke s). -/
def hubLinkstatFields : List FieldDef :=
  [⟨63, 56, .ro, 0x0, .any⟩, ⟨55, 48, .ro, 0x0, .any⟩, ⟨47, 44, .ro, 0x0, .any⟩, ⟨43, 40, .ro, 0x0, .any⟩,
    ⟨39, 32, .ro, 0x0, .any⟩, ⟨31, 30, .ro, 0x0, .any⟩, ⟨29, 28, .ro, 0x0, .any⟩, ⟨27, 24, .ro, 0x0, .any⟩,
    ⟨19, 19, .ro, 0x0, .any⟩, ⟨18, 18, .rw1c, 0x0, .any⟩, ⟨17, 17, .ro, 0x0, .any⟩,
    ⟨16, 16, .ro, 0x0, .any⟩, ⟨3, 0, .ro, 0x0, .any⟩]

/-- Fields of LINKCNT (hub end of spoke s). -/
def hubLinkcntFields : List FieldDef :=
  [⟨63, 32, .ro, 0x0, .any⟩, ⟨31, 16, .ro, 0x0, .any⟩, ⟨15, 0, .ro, 0x0, .any⟩]

/-- Fields of CASCSTAT. -/
def cascstatFields : List FieldDef :=
  [⟨63, 60, .ro, 0x0, .any⟩, ⟨59, 56, .ro, 0x0, .any⟩, ⟨55, 48, .ro, 0x0, .any⟩, ⟨7, 7, .ro, 0x0, .any⟩,
    ⟨6, 6, .ro, 0x0, .any⟩, ⟨5, 5, .ro, 0x0, .any⟩, ⟨4, 4, .ro, 0x0, .any⟩, ⟨1, 0, .ro, 0x0, .any⟩]

/-- Fields of CASCFEAT. -/
def cascfeatFields : List FieldDef :=
  [⟨63, 0, .ro, 0x0, .any⟩]

/-- Fields of RMBASE. -/
def rmbaseFields : List FieldDef :=
  [⟨51, 12, .rw, 0x0, .any⟩]

/-- Fields of RMLIMIT. -/
def rmlimitFields : List FieldDef :=
  [⟨51, 12, .rw, 0x0, .any⟩]

/-- Fields of RMCMD. -/
def rmcmdFields : List FieldDef :=
  [⟨8, 8, .wo, 0x0, .any⟩, ⟨4, 4, .rw, 0x0, .any⟩, ⟨1, 0, .rw, 0x0, .range 0 2⟩]

/-- Fields of RMSTAT. -/
def rmstatFields : List FieldDef :=
  [⟨63, 32, .ro, 0x0, .any⟩, ⟨31, 16, .ro, 0x0, .any⟩, ⟨8, 8, .rw1c, 0x0, .any⟩, ⟨7, 0, .ro, 0x0, .any⟩]

/-- Fields of SVCREQ. -/
def svcreqFields : List FieldDef :=
  [⟨15, 8, .rw1c, 0x0, .any⟩, ⟨7, 0, .ro, 0x0, .any⟩]

/-- Fields of SVCDETAIL0. -/
def svcdetail0Fields : List FieldDef :=
  [⟨60, 60, .ro, 0x0, .any⟩, ⟨59, 48, .ro, 0x0, .any⟩, ⟨47, 36, .ro, 0x0, .any⟩, ⟨35, 24, .ro, 0x0, .any⟩,
    ⟨16, 16, .ro, 0x0, .any⟩, ⟨15, 12, .ro, 0x0, .any⟩, ⟨11, 0, .ro, 0x0, .any⟩]

/-- Fields of SVCDETAIL1. -/
def svcdetail1Fields : List FieldDef :=
  [⟨31, 24, .ro, 0x0, .any⟩, ⟨23, 0, .ro, 0x0, .any⟩]

/-- Fields of RQTO. -/
def rqtoFields : List FieldDef :=
  [⟨16, 16, .rw1s, 0x0, .any⟩, ⟨15, 0, .rwl, 0x80, .range 80 1000⟩]

/-- Fields of SVCDETAIL2. -/
def svcdetail2Fields : List FieldDef :=
  [⟨55, 24, .ro, 0x0, .any⟩, ⟨23, 12, .ro, 0x0, .any⟩, ⟨11, 0, .ro, 0x0, .any⟩]

/-- Fields of CELOGSTAT (hub). -/
def hubCelogstatFields : List FieldDef :=
  [⟨63, 32, .ro, 0x0, .any⟩, ⟨31, 16, .ro, 0x0, .any⟩, ⟨8, 8, .wo, 0x0, .any⟩, ⟨4, 0, .ro, 0x0, .any⟩]

/-- Fields of EVLOGSTAT (hub). -/
def hubEvlogstatFields : List FieldDef :=
  [⟨63, 32, .ro, 0x0, .any⟩, ⟨31, 16, .ro, 0x0, .any⟩, ⟨8, 8, .wo, 0x0, .any⟩, ⟨4, 0, .ro, 0x0, .any⟩]

/-- Fields of LIFE0. -/
def life0Fields : List FieldDef :=
  [⟨63, 32, .ro, 0x0, .any⟩, ⟨31, 0, .ro, 0x0, .any⟩]

/-- Fields of LIFE1. -/
def life1Fields : List FieldDef :=
  [⟨63, 48, .ro, 0x0, .any⟩, ⟨47, 32, .ro, 0x0, .any⟩, ⟨31, 16, .ro, 0x0, .any⟩, ⟨15, 0, .ro, 0x0, .any⟩]

/-- Fields of CELOGn (hub)A. -/
def hubCelogAFields : List FieldDef :=
  [⟨63, 63, .ro, 0x0, .any⟩, ⟨61, 56, .ro, 0x0, .any⟩, ⟨55, 48, .ro, 0x0, .any⟩, ⟨47, 40, .ro, 0x0, .any⟩,
    ⟨39, 32, .ro, 0x0, .any⟩]

/-- Fields of CELOGn (hub)B. -/
def hubCelogBFields : List FieldDef :=
  [⟨51, 0, .ro, 0x0, .any⟩]

/-- Fields of CELOGn (hub)T. -/
def hubCelogTFields : List FieldDef :=
  [⟨63, 0, .ro, 0x0, .any⟩]

/-- Fields of EVLOGn (hub)A. -/
def hubEvlogAFields : List FieldDef :=
  [⟨63, 63, .ro, 0x0, .any⟩, ⟨61, 56, .ro, 0x0, .any⟩, ⟨55, 48, .ro, 0x0, .any⟩, ⟨47, 40, .ro, 0x0, .any⟩,
    ⟨39, 32, .ro, 0x0, .any⟩]

/-- Fields of EVLOGn (hub)B. -/
def hubEvlogBFields : List FieldDef :=
  [⟨51, 0, .ro, 0x0, .any⟩]

/-- Fields of EVLOGn (hub)T. -/
def hubEvlogTFields : List FieldDef :=
  [⟨63, 0, .ro, 0x0, .any⟩]

/-- Fields of PKGCMD. -/
def pkgcmdFields : List FieldDef :=
  [⟨8, 8, .wo, 0x0, .any⟩, ⟨1, 0, .rw, 0x0, .range 0 2⟩]

/-- Fields of PKGSTAT. -/
def pkgstatFields : List FieldDef :=
  [⟨16, 16, .rw1c, 0x0, .any⟩, ⟨10, 8, .ro, 0x0, .any⟩, ⟨7, 0, .ro, 0x0, .any⟩]

/-- Fields of PCAPCTL. -/
def pcapctlFields : List FieldDef :=
  [⟨32, 32, .rw1s, 0x0, .any⟩, ⟨23, 16, .rwl, 0x64, .range 70 105⟩, ⟨15, 0, .rwl, 0x3e8, .range 400 1000⟩]

/-- Fields of PCAPSTAT. -/
def pcapstatFields : List FieldDef :=
  [⟨63, 52, .ro, 0x3b6, .any⟩, ⟨47, 32, .ro, 0x0, .any⟩, ⟨11, 0, .ro, 0x0, .any⟩]

/-- Fields of WAKECTL. -/
def wakectlFields : List FieldDef :=
  [⟨63, 40, .rw, 0x0, .any⟩, ⟨39, 8, .rw, 0x0, .any⟩, ⟨5, 5, .rw, 0x1, .any⟩, ⟨4, 4, .rw, 0x1, .any⟩,
    ⟨3, 3, .rw, 0x0, .any⟩, ⟨2, 2, .rw, 0x1, .any⟩, ⟨1, 1, .rw, 0x1, .any⟩]

/-- Fields of WAKETIME. -/
def waketimeFields : List FieldDef :=
  [⟨63, 0, .rw, 0x0, .any⟩]

/-- Fields of LASTWAKE. -/
def lastwakeFields : List FieldDef :=
  [⟨63, 56, .ro, 0x0, .any⟩, ⟨55, 48, .ro, 0x0, .any⟩, ⟨47, 46, .ro, 0x0, .any⟩, ⟨45, 45, .ro, 0x0, .any⟩,
    ⟨44, 42, .ro, 0x0, .any⟩, ⟨41, 32, .ro, 0x0, .any⟩]

/-- Fields of LASTWAKET. -/
def lastwaketFields : List FieldDef :=
  [⟨63, 0, .ro, 0x0, .any⟩]

/-- Fields of WAKEMBOX. -/
def wakemboxFields : List FieldDef :=
  [⟨31, 0, .ro, 0x0, .any⟩]

/-- Fields of ANNCTL. -/
def annctlFields : List FieldDef :=
  [⟨63, 52, .rw, 0x73e, .any⟩, ⟨51, 40, .rw, 0x6d2, .any⟩, ⟨39, 32, .rw, 0x5f, .any⟩,
    ⟨13, 0, .rw, 0x3e8, .range 1 10000⟩]

/-- Fields of ANNSTAT. -/
def annstatFields : List FieldDef :=
  [⟨63, 32, .ro, 0x0, .any⟩, ⟨31, 24, .ro, 0x0, .any⟩, ⟨23, 12, .ro, 0x0, .any⟩]

/-- Fields of DOMCMD. -/
def domcmdFields : List FieldDef :=
  [⟨25, 16, .rw, 0x0, .any⟩, ⟨8, 8, .wo, 0x0, .any⟩, ⟨1, 0, .rw, 0x0, .any⟩]

/-- Fields of DOMSTAT. -/
def domstatFields : List FieldDef :=
  [⟨16, 16, .rw1c, 0x0, .any⟩, ⟨7, 0, .ro, 0x0, .any⟩]

/-- Fields of CPWRn. -/
def cpwrFields : List FieldDef :=
  [⟨1, 0, .rw, 0x1, .range 0 2⟩]

/-- Fields of DSTATEd. -/
def dstateFields : List FieldDef :=
  [⟨2, 0, .ro, 0x0, .any⟩]

/-- Fields of CIPHCTL. -/
def ciphctlFields : List FieldDef :=
  [⟨32, 32, .rw1s, 0x0, .any⟩, ⟨12, 8, .rwl, 0x10, .range 16 24⟩, ⟨0, 0, .rwl, 0x0, .any⟩]

/-- Fields of CTXBASE. -/
def ctxbaseFields : List FieldDef :=
  [⟨51, 12, .rwl, 0x0, .any⟩]

/-- Fields of CIPHSTAT. -/
def ciphstatFields : List FieldDef :=
  [⟨63, 48, .ro, 0x0, .any⟩, ⟨47, 32, .ro, 0x0, .any⟩, ⟨31, 16, .ro, 0x0, .any⟩, ⟨8, 8, .rw1c, 0x0, .any⟩,
    ⟨7, 0, .ro, 0x40, .any⟩]

/-- Fields of CUNITDIS. -/
def cunitdisFields : List FieldDef :=
  [⟨63, 0, .ro, 0x0, .any⟩]

/-- Fields of CIPHCNT. -/
def ciphcntFields : List FieldDef :=
  [⟨63, 32, .ro, 0x0, .any⟩, ⟨31, 0, .ro, 0x0, .any⟩]

/-- Fields of MPSTAT. -/
def mpstatFields : List FieldDef :=
  [⟨63, 48, .ro, 0x0, .any⟩, ⟨47, 46, .ro, 0x0, .any⟩, ⟨39, 32, .ro, 0x0, .any⟩, ⟨31, 24, .ro, 0x0, .any⟩,
    ⟨23, 16, .ro, 0x0, .any⟩, ⟨15, 8, .ro, 0x0, .any⟩, ⟨2, 0, .ro, 0x0, .any⟩]

/-- Fields of MPWDT. -/
def mpwdtFields : List FieldDef :=
  [⟨17, 17, .wo, 0x0, .any⟩, ⟨16, 16, .rw1s, 0x0, .any⟩, ⟨15, 0, .rwl, 0x64, .range 10 1000⟩]

/-- Fields of MBPOSTc. -/
def mbpostFields : List FieldDef :=
  [⟨51, 6, .wo, 0x0, .any⟩]

/-- Fields of HLSUBMIT. -/
def hlsubmitFields : List FieldDef :=
  [⟨51, 6, .wo, 0x0, .any⟩]

/-- Fields of HLSTAT. -/
def hlstatFields : List FieldDef :=
  [⟨63, 16, .ro, 0x0, .any⟩, ⟨15, 8, .ro, 0x0, .any⟩, ⟨1, 1, .ro, 0x0, .any⟩]

/-- Fields of SHCMD. -/
def shcmdFields : List FieldDef :=
  [⟨43, 32, .rw, 0x0, .any⟩, ⟨16, 16, .rw, 0x0, .any⟩, ⟨15, 12, .rw, 0x0, .any⟩, ⟨8, 8, .wo, 0x0, .any⟩,
    ⟨3, 0, .rw, 0x0, .range 1 6⟩]

/-- Fields of SHARG0. -/
def sharg0Fields : List FieldDef :=
  [⟨62, 48, .rw, 0x0, .range 0 16384⟩, ⟨42, 32, .rw, 0x0, .range 0 1024⟩, ⟨31, 16, .rw, 0x0, .range 0 32768⟩,
    ⟨12, 0, .rw, 0x0, .range 0 4096⟩]

/-- Fields of SHARG1. -/
def sharg1Fields : List FieldDef :=
  [⟨24, 0, .rw, 0x0, .range 0 16777216⟩]

/-- Fields of SHARG2. -/
def sharg2Fields : List FieldDef :=
  [⟨63, 48, .rw, 0x0, .any⟩, ⟨41, 41, .rw, 0x0, .any⟩, ⟨40, 40, .rw, 0x0, .any⟩, ⟨39, 0, .rw, 0x0, .any⟩]

/-- Fields of SHRES0. -/
def shres0Fields : List FieldDef :=
  [⟨59, 48, .ro, 0x0, .any⟩, ⟨45, 32, .ro, 0x0, .any⟩, ⟨9, 0, .ro, 0x0, .any⟩]

/-- Fields of SHRES1. -/
def shres1Fields : List FieldDef :=
  [⟨62, 48, .ro, 0x0, .any⟩, ⟨23, 0, .ro, 0x0, .any⟩]

/-- Fields of SHSTAT. -/
def shstatFields : List FieldDef :=
  [⟨16, 16, .rw1c, 0x0, .any⟩, ⟨7, 0, .ro, 0x0, .any⟩]

/-- Fields of SHDRAIN. -/
def shdrainFields : List FieldDef :=
  [⟨16, 16, .rw1s, 0x0, .any⟩, ⟨15, 0, .rwl, 0x7d0, .range 100 64000⟩]

/-- Fields of POOLFREE0. -/
def poolfree0Fields : List FieldDef :=
  [⟨62, 48, .ro, 0x4000, .any⟩, ⟨42, 32, .ro, 0x400, .any⟩, ⟨31, 16, .ro, 0x8000, .any⟩,
    ⟨12, 0, .ro, 0x1000, .any⟩]

/-- Fields of POOLFREE1. -/
def poolfree1Fields : List FieldDef :=
  [⟨60, 48, .ro, 0x1000, .any⟩, ⟨24, 0, .ro, 0x0, .any⟩]

/-- Fields of SHSTATEn. -/
def shstateFields : List FieldDef :=
  [⟨63, 48, .ro, 0x0, .any⟩, ⟨47, 32, .ro, 0x0, .any⟩, ⟨23, 23, .ro, 0x0, .any⟩, ⟨19, 16, .ro, 0x0, .any⟩,
    ⟨8, 8, .ro, 0x0, .any⟩, ⟨5, 4, .ro, 0x0, .any⟩, ⟨2, 0, .ro, 0x0, .any⟩]

/-- Fields of INTSRCn. -/
def intsrcFields : List FieldDef :=
  [⟨31, 31, .rw, 0x0, .any⟩, ⟨29, 28, .rw, 0x1, .range 1 3⟩, ⟨23, 16, .rw, 0x0, .range 0 215⟩,
    ⟨15, 8, .rw, 0xff, .any⟩, ⟨2, 2, .ro, 0x0, .any⟩, ⟨1, 1, .rw1c, 0x0, .any⟩, ⟨0, 0, .rw, 0x0, .any⟩]

/-- Fields of MSICTLv. -/
def msictlFields : List FieldDef :=
  [⟨63, 48, .rw, 0x0, .any⟩, ⟨47, 47, .rw, 0x0, .any⟩, ⟨31, 31, .rw, 0x0, .any⟩, ⟨30, 30, .rw, 0x0, .any⟩,
    ⟨29, 28, .rw, 0x1, .range 1 3⟩, ⟨23, 16, .rw, 0x0, .range 0 215⟩, ⟨15, 8, .rw, 0xff, .any⟩,
    ⟨2, 2, .ro, 0x0, .any⟩, ⟨1, 1, .rw1c, 0x0, .any⟩, ⟨0, 0, .rw, 0x0, .any⟩]

/-- Fields of MSIPOSTv. -/
def msipostFields : List FieldDef :=
  [⟨63, 54, .rw, 0x0, .any⟩, ⟨51, 8, .rw, 0x0, .any⟩]

/-- Fields of MSIADDR. -/
def msiaddrFields : List FieldDef :=
  []

/-- Fields of ICSTAT. -/
def icstatFields : List FieldDef :=
  [⟨47, 32, .ro, 0x0, .any⟩, ⟨31, 0, .ro, 0x0, .any⟩]

/-- Fields of ETHPORTn. -/
def ethportFields : List FieldDef :=
  [⟨16, 16, .rw, 0x0, .any⟩, ⟨13, 12, .rw, 0x0, .any⟩, ⟨11, 8, .rw, 0x0, .any⟩, ⟨4, 0, .rw, 0x0, .any⟩]

/-- Fields of ETHSTAT (MAC n). -/
def ethstatFields : List FieldDef :=
  [⟨63, 32, .ro, 0x0, .any⟩, ⟨16, 16, .ro, 0x0, .any⟩, ⟨0, 0, .rw1c, 0x0, .any⟩]

/-- Fields of RSSKEYi (MAC n). -/
def rsskeyFields : List FieldDef :=
  [⟨63, 0, .rw, 0x0, .any⟩]

/-- Fields of RSSINDi (MAC n). -/
def rssindFields : List FieldDef :=
  [⟨13, 0, .rw, 0x0, .any⟩, ⟨29, 16, .rw, 0x0, .any⟩, ⟨45, 32, .rw, 0x0, .any⟩, ⟨61, 48, .rw, 0x0, .any⟩]

/-- Fields of VREQ (stack s). -/
def vreqFields : List FieldDef :=
  [⟨11, 0, .rw, 0x352, .any⟩]

/-- Fields of L3CTL (stack s). -/
def l3ctlFields : List FieldDef :=
  [⟨1, 1, .wo, 0x0, .any⟩, ⟨0, 0, .rw, 0x0, .any⟩]

/-- Fields of L3STAT (stack s). -/
def l3statFields : List FieldDef :=
  [⟨7, 7, .rw1c, 0x0, .any⟩, ⟨6, 6, .rw1c, 0x0, .any⟩, ⟨3, 3, .ro, 0x0, .any⟩, ⟨2, 2, .ro, 0x0, .any⟩,
    ⟨1, 1, .ro, 0x0, .any⟩, ⟨0, 0, .ro, 0x0, .any⟩]

/-- Fields of PMASKn (stack s). -/
def pmaskFields : List FieldDef :=
  [⟨32, 32, .rw, 0x0, .any⟩, ⟨15, 0, .rw, 0xffff, .any⟩]

/-- Fields of L3WAYk (stack s). -/
def l3wayFields : List FieldDef :=
  [⟨31, 16, .ro, 0x0, .any⟩, ⟨15, 0, .ro, 0x0, .any⟩]

/-- Fields of L3LFSRk (stack s). -/
def l3lfsrFields : List FieldDef :=
  [⟨15, 0, .ro, 0x0, .any⟩]

/-- Fields of COHCTL (stack s). -/
def cohctlFields : List FieldDef :=
  [⟨16, 16, .rw1s, 0x0, .any⟩, ⟨15, 0, .rwl, 0x40, .range 8 1000⟩]

/-- Fields of COHSTAT (stack s). -/
def cohstatFields : List FieldDef :=
  [⟨63, 32, .ro, 0x0, .any⟩, ⟨15, 8, .ro, 0x0, .any⟩]

/-- Fields of COHADDR (stack s). -/
def cohaddrFields : List FieldDef :=
  [⟨51, 6, .ro, 0x0, .any⟩]

/-- Fields of HFENCEi (stack s). -/
def hfenceFields : List FieldDef :=
  [⟨63, 0, .ro, 0x0, .any⟩]

/-- Fields of FABCTL (stack s). -/
def fabctlFields : List FieldDef :=
  [⟨16, 16, .rw1s, 0x0, .any⟩, ⟨10, 8, .rwl, 0x4, .any⟩, ⟨6, 4, .rwl, 0x2, .any⟩, ⟨2, 0, .rwl, 0x0, .any⟩]

/-- Fields of FABSTAT (stack s). -/
def fabstatFields : List FieldDef :=
  [⟨63, 48, .ro, 0x0, .any⟩, ⟨47, 32, .ro, 0x0, .any⟩, ⟨31, 24, .ro, 0x0, .any⟩, ⟨23, 16, .ro, 0x0, .any⟩,
    ⟨15, 0, .ro, 0x0, .any⟩]

/-- Fields of RIMCTL (stack s). -/
def rimctlFields : List FieldDef :=
  [⟨0, 0, .rw, 0x0, .any⟩]

/-- Fields of RIMSTAT (stack s). -/
def rimstatFields : List FieldDef :=
  [⟨2, 0, .ro, 0x0, .any⟩]

/-- Fields of FSTOPn (stack s). -/
def fstopFields : List FieldDef :=
  [⟨9, 8, .ro, 0x0, .any⟩, ⟨2, 0, .rw, 0x0, .range 0 4⟩]

/-- Fields of LINKCTL (stack s, end e). -/
def linkctlFields : List FieldDef :=
  [⟨3, 2, .rw, 0x2, .range 0 2⟩, ⟨1, 1, .wo, 0x0, .any⟩, ⟨0, 0, .wo, 0x0, .any⟩]

/-- Fields of LINKSTAT (stack s, end e). -/
def linkstatFields : List FieldDef :=
  [⟨63, 56, .ro, 0x0, .any⟩, ⟨55, 48, .ro, 0x0, .any⟩, ⟨47, 44, .ro, 0x0, .any⟩, ⟨43, 40, .ro, 0x0, .any⟩,
    ⟨39, 32, .ro, 0x0, .any⟩, ⟨31, 30, .ro, 0x0, .any⟩, ⟨29, 28, .ro, 0x0, .any⟩, ⟨27, 24, .ro, 0x0, .any⟩,
    ⟨19, 19, .ro, 0x0, .any⟩, ⟨18, 18, .rw1c, 0x0, .any⟩, ⟨17, 17, .ro, 0x0, .any⟩,
    ⟨16, 16, .ro, 0x0, .any⟩, ⟨3, 0, .ro, 0x0, .any⟩]

/-- Fields of LINKCNT (stack s, end e). -/
def linkcntFields : List FieldDef :=
  [⟨63, 32, .ro, 0x0, .any⟩, ⟨31, 16, .ro, 0x0, .any⟩, ⟨15, 0, .ro, 0x0, .any⟩]

/-- Fields of MCCTL (channel 2s+m). -/
def mcctlFields : List FieldDef :=
  [⟨32, 32, .rw1s, 0x0, .any⟩, ⟨31, 16, .rwl, 0x400, .range 1 65535⟩, ⟨0, 0, .wo, 0x0, .any⟩]

/-- Fields of MCSTAT (channel 2s+m). -/
def mcstatFields : List FieldDef :=
  [⟨63, 48, .ro, 0x0, .any⟩, ⟨47, 32, .ro, 0x0, .any⟩, ⟨25, 16, .ro, 0x0, .any⟩, ⟨11, 8, .ro, 0x0, .any⟩,
    ⟨7, 6, .ro, 0x0, .any⟩, ⟨5, 5, .ro, 0x0, .any⟩, ⟨4, 4, .ro, 0x0, .any⟩, ⟨1, 0, .ro, 0x0, .any⟩]

/-- Fields of MCSCRUB (channel 2s+m). -/
def mcscrubFields : List FieldDef :=
  [⟨63, 48, .ro, 0x0, .any⟩, ⟨40, 8, .ro, 0x0, .any⟩, ⟨7, 0, .rwl, 0x18, .range 0 168⟩]

/-- Fields of MCCESTAT (channel 2s+m). -/
def mccestatFields : List FieldDef :=
  [⟨63, 32, .ro, 0x0, .any⟩, ⟨31, 16, .ro, 0x0, .any⟩, ⟨15, 8, .ro, 0x0, .any⟩, ⟨3, 3, .ro, 0x0, .any⟩,
    ⟨2, 0, .ro, 0x0, .any⟩]

/-- Fields of MCCELOGn (channel 2s+m). -/
def mccelogFields : List FieldDef :=
  [⟨63, 63, .ro, 0x0, .any⟩, ⟨62, 62, .ro, 0x0, .any⟩, ⟨61, 56, .ro, 0x0, .any⟩, ⟨55, 52, .ro, 0x0, .any⟩,
    ⟨51, 6, .ro, 0x0, .any⟩, ⟨5, 5, .ro, 0x0, .any⟩, ⟨4, 1, .ro, 0x0, .any⟩]

/-- Fields of MCUELOG (channel 2s+m). -/
def mcuelogFields : List FieldDef :=
  [⟨63, 63, .ro, 0x0, .any⟩, ⟨62, 62, .ro, 0x0, .any⟩, ⟨61, 56, .ro, 0x0, .any⟩, ⟨55, 52, .ro, 0x0, .any⟩,
    ⟨51, 6, .ro, 0x0, .any⟩, ⟨5, 5, .ro, 0x0, .any⟩, ⟨4, 1, .ro, 0x0, .any⟩]

/-- Fields of WFCTL (home s). -/
def wfctlFields : List FieldDef :=
  [⟨0, 0, .rw1s, 0x0, .any⟩]

/-- Fields of WFBASEn (home s). -/
def wfbaseFields : List FieldDef :=
  [⟨51, 12, .rwl, 0x0, .any⟩, ⟨0, 0, .rwl, 0x0, .any⟩]

/-- Fields of WFLIMn (home s). -/
def wflimFields : List FieldDef :=
  [⟨51, 12, .rwl, 0x0, .any⟩, ⟨1, 1, .rwl, 0x0, .any⟩, ⟨0, 0, .rwl, 0x0, .any⟩]

/-- Fields of CELOGSTAT (stack s). -/
def celogstatFields : List FieldDef :=
  [⟨63, 32, .ro, 0x0, .any⟩, ⟨31, 16, .ro, 0x0, .any⟩, ⟨8, 8, .wo, 0x0, .any⟩, ⟨4, 0, .ro, 0x0, .any⟩]

/-- Fields of EVLOGSTAT (stack s). -/
def evlogstatFields : List FieldDef :=
  [⟨63, 32, .ro, 0x0, .any⟩, ⟨31, 16, .ro, 0x0, .any⟩, ⟨8, 8, .wo, 0x0, .any⟩, ⟨4, 0, .ro, 0x0, .any⟩]

/-- Fields of RETSTAT (stack s). -/
def retstatFields : List FieldDef :=
  [⟨59, 56, .ro, 0x0, .any⟩, ⟨39, 20, .ro, 0x0, .any⟩, ⟨19, 0, .ro, 0x0, .any⟩]

/-- Fields of CELOGn (stack s)A. -/
def celogAFields : List FieldDef :=
  [⟨63, 63, .ro, 0x0, .any⟩, ⟨61, 56, .ro, 0x0, .any⟩, ⟨55, 48, .ro, 0x0, .any⟩, ⟨47, 40, .ro, 0x0, .any⟩,
    ⟨39, 32, .ro, 0x0, .any⟩]

/-- Fields of CELOGn (stack s)B. -/
def celogBFields : List FieldDef :=
  [⟨51, 0, .ro, 0x0, .any⟩]

/-- Fields of CELOGn (stack s)T. -/
def celogTFields : List FieldDef :=
  [⟨63, 0, .ro, 0x0, .any⟩]

/-- Fields of EVLOGn (stack s)A. -/
def evlogAFields : List FieldDef :=
  [⟨63, 63, .ro, 0x0, .any⟩, ⟨61, 56, .ro, 0x0, .any⟩, ⟨55, 48, .ro, 0x0, .any⟩, ⟨47, 40, .ro, 0x0, .any⟩,
    ⟨39, 32, .ro, 0x0, .any⟩]

/-- Fields of EVLOGn (stack s)B. -/
def evlogBFields : List FieldDef :=
  [⟨51, 0, .ro, 0x0, .any⟩]

/-- Fields of EVLOGn (stack s)T. -/
def evlogTFields : List FieldDef :=
  [⟨63, 0, .ro, 0x0, .any⟩]

/-- Fields of DIRWAYk (stack s). -/
def dirwayFields : List FieldDef :=
  [⟨31, 16, .ro, 0x0, .any⟩, ⟨15, 0, .ro, 0x0, .any⟩]

/-- Fields of LGCTL (group g). -/
def lgctlFields : List FieldDef :=
  [⟨16, 16, .rw1s, 0x0, .any⟩, ⟨9, 8, .rwl, 0x0, .range 0 2⟩, ⟨4, 4, .rwl, 0x0, .any⟩,
    ⟨2, 0, .rwl, 0x0, .range 0 3⟩]

/-- Fields of LGSTAT (group g). -/
def lgstatFields : List FieldDef :=
  [⟨21, 18, .ro, 0x0, .any⟩, ⟨17, 17, .rw1c, 0x0, .any⟩, ⟨16, 16, .rw1c, 0x0, .any⟩, ⟨3, 0, .ro, 0x0, .any⟩]

/-- Fields of PALCTL (group g). -/
def palctlFields : List FieldDef :=
  [⟨1, 1, .wo, 0x0, .any⟩, ⟨0, 0, .wo, 0x0, .any⟩]

/-- Fields of PALSTAT (group g). -/
def palstatFields : List FieldDef :=
  [⟨63, 32, .ro, 0x0, .any⟩, ⟨31, 24, .ro, 0x0, .any⟩, ⟨23, 22, .ro, 0x0, .any⟩, ⟨21, 21, .ro, 0x0, .any⟩,
    ⟨20, 20, .ro, 0x0, .any⟩, ⟨19, 18, .ro, 0x0, .any⟩, ⟨3, 0, .ro, 0x0, .any⟩]

/-- Fields of OECMD (engine e). -/
def oecmdFields : List FieldDef :=
  [⟨8, 8, .wo, 0x0, .any⟩, ⟨4, 4, .rw, 0x0, .any⟩, ⟨1, 0, .rw, 0x0, .range 0 2⟩]

/-- Fields of OESTAT (engine e). -/
def oestatFields : List FieldDef :=
  [⟨23, 20, .ro, 0x0, .any⟩, ⟨17, 17, .ro, 0x0, .any⟩, ⟨16, 16, .rw1c, 0x0, .any⟩, ⟨7, 0, .ro, 0x0, .any⟩]

/-- Fields of CARTSTATb (engine e). -/
def cartstatFields : List FieldDef :=
  [⟨63, 40, .ro, 0x0, .any⟩, ⟨31, 16, .ro, 0x0, .any⟩, ⟨7, 7, .ro, 0x0, .any⟩, ⟨6, 6, .ro, 0x0, .any⟩,
    ⟨5, 5, .ro, 0x0, .any⟩, ⟨4, 4, .ro, 0x0, .any⟩, ⟨3, 0, .ro, 0x0, .any⟩]

/-- Fields of SQDB (queue q). -/
def sqdbFields : List FieldDef :=
  [⟨15, 0, .wo, 0x0, .any⟩]

/-- Fields of CQDB (queue q). -/
def cqdbFields : List FieldDef :=
  [⟨15, 0, .wo, 0x0, .any⟩]

/-- Fields of QCFG (queue q). -/
def qcfgFields : List FieldDef :=
  [⟨20, 16, .rw, 0x4, .range 4 16⟩, ⟨12, 8, .rw, 0x4, .range 4 16⟩, ⟨0, 0, .rw, 0x0, .any⟩]

/-- Fields of SQBASE (queue q). -/
def sqbaseFields : List FieldDef :=
  [⟨51, 12, .rw, 0x0, .any⟩]

/-- Fields of CQBASE (queue q). -/
def cqbaseFields : List FieldDef :=
  [⟨51, 12, .rw, 0x0, .any⟩]

/-- Fields of QIRQ (queue q). -/
def qirqFields : List FieldDef :=
  [⟨47, 40, .rw, 0x0, .any⟩, ⟨31, 16, .rw, 0x0, .any⟩, ⟨15, 15, .rw, 0x0, .any⟩, ⟨14, 0, .rw, 0x0, .any⟩]

/-- Fields of QSTAT (queue q). -/
def qstatFields : List FieldDef :=
  [⟨63, 48, .ro, 0x0, .any⟩, ⟨47, 32, .ro, 0x0, .any⟩, ⟨31, 24, .ro, 0x0, .any⟩, ⟨23, 16, .ro, 0x0, .any⟩,
    ⟨11, 11, .ro, 0x1, .any⟩, ⟨10, 10, .ro, 0x0, .any⟩, ⟨9, 7, .ro, 0x0, .any⟩, ⟨2, 0, .ro, 0x0, .any⟩]

/-- Fields of HIOWAY. -/
def hiowayFields : List FieldDef :=
  [⟨31, 16, .ro, 0x0, .any⟩, ⟨15, 0, .ro, 0x0, .any⟩]

/-- The fields (R11). Bits of no field are RES0. -/
def regFields : RegName → List FieldDef
  | .pkgid => pkgidFields
  | .strapstat => strapstatFields
  | .lcmap => lcmapFields
  | .rstcmd => rstcmdFields
  | .rststat => rststatFields
  | .bustat => bustatFields
  | .dierev => dierevFields
  | .devsto => devstoFields
  | .memhash => memhashFields
  | .keycmd => keycmdFields
  | .keystat => keystatFields
  | .keydata => keydataFields
  | .cxlwbase => cxlwbaseFields
  | .cxlwctl => cxlwctlFields
  | .ownmap => ownmapFields
  | .hubWfctl => hubWfctlFields
  | .hubWfbase => hubWfbaseFields
  | .hubWflim => hubWflimFields
  | .hubFabctl => hubFabctlFields
  | .hubFabstat => hubFabstatFields
  | .hubHfence => hubHfenceFields
  | .hubFstop => hubFstopFields
  | .hubLinkctl => hubLinkctlFields
  | .hubLinkstat => hubLinkstatFields
  | .hubLinkcnt => hubLinkcntFields
  | .cascstat => cascstatFields
  | .cascfeat => cascfeatFields
  | .rmbase => rmbaseFields
  | .rmlimit => rmlimitFields
  | .rmcmd => rmcmdFields
  | .rmstat => rmstatFields
  | .svcreq => svcreqFields
  | .svcdetail0 => svcdetail0Fields
  | .svcdetail1 => svcdetail1Fields
  | .rqto => rqtoFields
  | .svcdetail2 => svcdetail2Fields
  | .hubCelogstat => hubCelogstatFields
  | .hubEvlogstat => hubEvlogstatFields
  | .life0 => life0Fields
  | .life1 => life1Fields
  | .hubCelogA => hubCelogAFields
  | .hubCelogB => hubCelogBFields
  | .hubCelogT => hubCelogTFields
  | .hubEvlogA => hubEvlogAFields
  | .hubEvlogB => hubEvlogBFields
  | .hubEvlogT => hubEvlogTFields
  | .pkgcmd => pkgcmdFields
  | .pkgstat => pkgstatFields
  | .pcapctl => pcapctlFields
  | .pcapstat => pcapstatFields
  | .wakectl => wakectlFields
  | .waketime => waketimeFields
  | .lastwake => lastwakeFields
  | .lastwaket => lastwaketFields
  | .wakembox => wakemboxFields
  | .annctl => annctlFields
  | .annstat => annstatFields
  | .domcmd => domcmdFields
  | .domstat => domstatFields
  | .cpwr => cpwrFields
  | .dstate => dstateFields
  | .ciphctl => ciphctlFields
  | .ctxbase => ctxbaseFields
  | .ciphstat => ciphstatFields
  | .cunitdis => cunitdisFields
  | .ciphcnt => ciphcntFields
  | .mpstat => mpstatFields
  | .mpwdt => mpwdtFields
  | .mbpost => mbpostFields
  | .hlsubmit => hlsubmitFields
  | .hlstat => hlstatFields
  | .shcmd => shcmdFields
  | .sharg0 => sharg0Fields
  | .sharg1 => sharg1Fields
  | .sharg2 => sharg2Fields
  | .shres0 => shres0Fields
  | .shres1 => shres1Fields
  | .shstat => shstatFields
  | .shdrain => shdrainFields
  | .poolfree0 => poolfree0Fields
  | .poolfree1 => poolfree1Fields
  | .shstate => shstateFields
  | .intsrc => intsrcFields
  | .msictl => msictlFields
  | .msipost => msipostFields
  | .msiaddr => msiaddrFields
  | .icstat => icstatFields
  | .ethport => ethportFields
  | .ethstat => ethstatFields
  | .rsskey => rsskeyFields
  | .rssind => rssindFields
  | .vreq => vreqFields
  | .l3ctl => l3ctlFields
  | .l3stat => l3statFields
  | .pmask => pmaskFields
  | .l3way => l3wayFields
  | .l3lfsr => l3lfsrFields
  | .cohctl => cohctlFields
  | .cohstat => cohstatFields
  | .cohaddr => cohaddrFields
  | .hfence => hfenceFields
  | .fabctl => fabctlFields
  | .fabstat => fabstatFields
  | .rimctl => rimctlFields
  | .rimstat => rimstatFields
  | .fstop => fstopFields
  | .linkctl => linkctlFields
  | .linkstat => linkstatFields
  | .linkcnt => linkcntFields
  | .mcctl => mcctlFields
  | .mcstat => mcstatFields
  | .mcscrub => mcscrubFields
  | .mccestat => mccestatFields
  | .mccelog => mccelogFields
  | .mcuelog => mcuelogFields
  | .wfctl => wfctlFields
  | .wfbase => wfbaseFields
  | .wflim => wflimFields
  | .celogstat => celogstatFields
  | .evlogstat => evlogstatFields
  | .retstat => retstatFields
  | .celogA => celogAFields
  | .celogB => celogBFields
  | .celogT => celogTFields
  | .evlogA => evlogAFields
  | .evlogB => evlogBFields
  | .evlogT => evlogTFields
  | .dirway => dirwayFields
  | .lgctl => lgctlFields
  | .lgstat => lgstatFields
  | .palctl => palctlFields
  | .palstat => palstatFields
  | .oecmd => oecmdFields
  | .oestat => oestatFields
  | .cartstat => cartstatFields
  | .sqdb => sqdbFields
  | .cqdb => cqdbFields
  | .qcfg => qcfgFields
  | .sqbase => sqbaseFields
  | .cqbase => cqbaseFields
  | .qirq => qirqFields
  | .qstat => qstatFields
  | .hioway => hiowayFields

/-- The reset value of a register: its fields' reset values in place. -/
def regReset (r : RegName) : Word :=
  BitVec.ofNat 64 ((regFields r).foldl (fun acc f => acc + (f.rst % 2 ^ (f.hi + 1 - f.lo)) * 2 ^ f.lo) 0)

/-- The state of domain d when nothing has moved it (R546): lane groups and optical engines are OFF, 7 tells that there is none. -/
def domReset (d : Nat) : Nat :=
  if d < 0xF0 then 0
  else if d < 0x100 then 7
  else if d < 0x10C then 0
  else if d < 0x110 then 7
  else if d < 0x128 then 0
  else if d < 0x130 then 7
  else if d < 0x13C then 0
  else if d < 0x180 then 7
  else if d < 0x1A4 then 3
  else if d < 0x1AF then 0
  else 7

/-- The part code of die d (R1, R632). -/
def diePart (d : Nat) : Nat := if d = 0 then 1 else if d < 13 then 2 else if d < 25 then 3 else 4

/-- The revision R1 gives die d; its digit is a number (log entry 87). -/
def dieRef (d : Nat) : DieRev :=
  if d = 0 then ⟨0x42, 1⟩ else if d < 13 then ⟨0x42, 0⟩ else if d < 25 then ⟨0x42, 2⟩ else ⟨0x41, 1⟩

/-- DIEREVd of a die of revision r (R632). -/
def dieWord (d : Nat) (r : DieRev) : Word := BitVec.ofNat 64 (diePart d * 65536 + r.letter.toNat * 256 + r.digit.toNat)

/-- The reset value of register r, index i. DIEREVd reads the revision R1 gives until bring-up has read the die's own (log entry 87). -/
def regResetAt (r : RegName) (i : Nat) : Word :=
  if r = .dstate then BitVec.ofNat 64 (domReset i) else if r = .dierev then dieWord i (dieRef i) else regReset r

/-- Key of register r, index i, in the register file. -/
def regKey (r : RegName) (i : Nat) : Nat := r.num * 2 ^ 32 + i

/-- The linear index of an offset under a replication, when the offset is the start of an instance. -/
def dimIndex : List (Nat × Nat) → Nat → Option Nat
  | [], o => if o = 0 then some 0 else none
  | (stride, count) :: ds, o =>
    if o / stride < count then
      (dimIndex ds (o % stride)).map (fun j => (o / stride) * (ds.foldl (fun a d => a * d.2) 1) + j)
    else none

/-- How many instances a register has. -/
def regCount (r : RegName) : Nat := (regDims r).foldl (fun a d => a * d.2) 1

/-- The register and index at an offset of the local window. -/
def regFindIn (off : Nat) : List RegName → Option (RegName × Nat)
  | [] => none
  | r :: rs =>
    match regBase r with
    | some b =>
      if b ≤ off then
        match dimIndex (regDims r) (off - b) with
        | some i => some (r, i)
        | none => regFindIn off rs
      else regFindIn off rs
    | none => regFindIn off rs

/-- The register and index at an offset of the local window. -/
def regFind (off : Nat) : Option (RegName × Nat) := regFindIn off allRegs

/-- Whether an offset of the local window lies in a listed block (R640, R642). -/
def inBlock (off : Nat) : Bool :=
  let hub := off < 0x1000000000
  let stk := 0x1000000000 ≤ off && off < 0x1000000000 + 12 * 0x100000000
  let lg := 0x2000000000 ≤ off && off < 0x2000000000 + 32 * 0x1000000
  let db := 0x8000000000 ≤ off && off < 0x8004000000
  let inn (o b n : Nat) : Bool := decide (b ≤ o) && decide (o < b + n)
  if hub then
    inn off 0x0 0x1000 || inn off 0x10000 0x1000 || inn off 0x20000 0x1000 || inn off 0x30000 0x1000 ||
    inn off 0x40000 0x1000 || inn off 0x50000 0x1000 || inn off 0x60000 0x1000 || inn off 0x70000 0x1000 ||
    inn off 0x80000 0x1000 || inn off 0x90000 0x1000 || inn off 0xA0000 0x1000 || inn off 0xB0000 0x1000 ||
    inn off 0xC0000 0x10000 || inn off 0xD0000 0x1000 || inn off 0xE0000 0x1000 || inn off 0xF0000 0x2000 ||
    inn off 0x100000 0x2000 || inn off 0x200000 0x10000 || inn off 0x1000000 0x400000 || inn off 0x2000000 0x100000
  else if stk then
    let o := (off - 0x1000000000) % 0x100000000
    inn o 0x40000 0x1000 || inn o 0x100000 0x1000 || inn o 0x200000 0x1000 || inn o 0x300000 0x1000 ||
    inn o 0x400000 0x1000 || inn o 0x500000 0x1000 || inn o 0x510000 0x1000 || inn o 0x600000 0x1000 ||
    inn o 0x700000 0x1000
  else if lg then true
  else db

end Sys2Proof.Machine
end

