-- ==== Sys2Proof/Machine/Types.lean ====
section
/-! DEFINITION. The types the state is made of, unit by unit: the cores, the coherence holders and homes, packets, links,
queues, shares, the cipher engine, interrupts, power, logs, the witness island. Plain data only. -/
namespace Sys2Proof.Machine

open Sys2Proof

/-! ### Cores (chapters 02 to 06, 16, 17) -/

/-- One entry of a store buffer (R163 to R170): the bytes of one line, or one DEV store of its own. `epoch` counts the
BAR.ST executed before it (R235); `sent` says that its request (RDX, UPG, WRC or DEV_WR) has left under `txid`. -/
structure SbEntry where
  va : Nat
  pa : Nat
  dev : Bool
  nc : Bool
  size : Nat
  data : LineData
  mask : Nat
  world : Bool
  partid : Nat
  keyid : Nat
  epoch : Nat
  sent : Bool
  txid : Nat
  deriving DecidableEq, Repr

/-- A pending deferred BUS_ERROR (R76, R239): its syndrome, EADDR and EPHYS, and how many further failed accesses it has
absorbed. -/
structure DefErr where
  esyn : Word
  eaddr : Word
  ephys : Word
  deriving DecidableEq, Repr

/-- Register class of a load's destination. -/
inductive RtClass where
  | d | a | q
  deriving DecidableEq, Repr

/-- What an access of a core that has left the core is waiting for: the answer of a DEV load, of an element of a block-repeat
at a DEV address, of a far atomic, or of the swap a SCOND of the management processor makes at the home (log entry 21). -/
inductive WaitKind where
  | devLoad | devElem | farAtomic | farScond
  deriving DecidableEq, Repr

/-- The access a core's oldest instruction waits for: a DEV load (R227, R240) or a far atomic (R294). `base` is the M-format
writeback still to be made (R67); `pred` the predictor entry to train (R296); `half` says that the management processor's
window reads the low half of a register (R595), `mem` that a DEV access reads a line of memory (R218). -/
structure PendAcc where
  kind : WaitKind
  va : Nat
  pa : Nat
  size : Nat
  cls : RtClass
  rt : Nat
  base : Option (Nat × Nat)
  txid : Nat
  pred : Nat
  half : Bool := false
  mem : Bool := false
  deriving DecidableEq, Repr

/-- What an uncached request of a core's oldest instruction brought: a line it may use once, or an error (of the request, or of the
compare-and-swap of a table entry, R203). -/
structure Fill where
  line : Nat
  data : LineData
  poison : Bool := false
  err : Bool := false
  cas : Bool := false
  deriving DecidableEq, Repr

/-- An uncached read or compare-and-swap the oldest instruction has asked for: its transaction and address. -/
structure Ask where
  txid : Nat
  addr : Nat
  cas : Bool
  deriving DecidableEq, Repr

/-- The barriers that wait (R235). -/
inductive BarKind where
  | all | dev | sync
  deriving DecidableEq, Repr

/-- The reservation of R117: the first byte and the size of the granule, and the world it was made in. -/
structure Resv where
  base : Nat
  size : Nat
  world : Bool
  deriving DecidableEq, Repr

/-- One cached page-table entry (R209, R210): its tags, the level and the address bits it resolves, the entry and where it
was read. `regime` is 1 for PL1&0, 2 and 3. An entry with T = 1 is a walk-cache entry. -/
structure TlbEntry where
  world : Bool
  regime : Nat
  stage : Nat
  vmid : Nat
  asid : Nat
  glob : Bool
  lv : Nat
  idx : Nat
  entry : Word
  pa : Nat
  deriving DecidableEq, Repr

/-- How far a maintenance operation by address is (R125). -/
inductive MaintSt where
  | pending | ok | error
  deriving DecidableEq, Repr

/-- A maintenance operation by address that has not been reported complete (R125). -/
structure Maint where
  line : Nat
  va : Nat
  pa : Nat
  wnr : Bool
  txid : Nat
  st : MaintSt
  deriving DecidableEq, Repr

/-- A software-generated interrupt pending at a core (R526): number, world, level, priority. -/
structure SgiPend where
  num : Nat
  world : Bool
  level : Nat
  prio : Nat
  deriving DecidableEq, Repr

/-- An interrupt a core has acknowledged and not ended (R524, R525). -/
structure ActiveInt where
  intid : Nat
  prio : Nat
  deriving DecidableEq, Repr

/-- One core. The management processor is a core too, with the Acdar-M profile (R88). D0 is never listed in `d`; `a` holds
A0 to A14 (A15 is a stack pointer, R53); `sys` holds the system registers by number, the secure copy of a banked one at
number + 0x1000 (R63); `stale` keeps what a register read before a write that has not taken effect yet (R85); `asked` the
uncached requests the oldest instruction has outstanding and `served` their answers, `devGot` the answers of its DEV element reads (by
address and operand); `stepLeft` how many instructions the pipeline step under way may still retire (R138); `pages` the 4 KiB
pages demand accesses have translated, with world and KEYID (R219); `arrived` the interrupts
whose message has reached the core (R521), `vpend` the guest's pending bits as last read (R534);
`atSent` that the oldest instruction, a near atomic, has asked for ownership (R296). -/
structure Core where
  pc : Word := 0
  cstat : Word := 0x37
  d : Tab Word := []
  a : Tab Word := []
  q : Tab QWord := []
  sys : Tab Word := []
  stale : List (Nat × Word) := []
  held : Bool := true
  inReset : Bool := false
  stopped : Bool := false
  halted : Bool := false
  haltPend : Bool := false
  stepping : Bool := false
  waiting : Bool := false
  resv : Option Resv := none
  sb : List SbEntry := []
  stEpoch : Nat := 0
  acc : Option PendAcc := none
  served : List Fill := []
  asked : List Ask := []
  stepLeft : Nat := 0
  devGot : List (Nat × Nat) := []
  bar : Option BarKind := none
  defErr : Option DefErr := none
  defCount : Nat := 0
  tlb : List TlbEntry := []
  pages : List (Bool × Nat × Nat) := []
  tinvOut : List Nat := []
  maint : List Maint := []
  fails : Nat := 0
  reexec : Nat := 0
  drift : Nat := 0
  pred : Tab Nat := []
  atSent : Bool := false
  bpValid : Bool := false
  sgi : List SgiPend := []
  active : List ActiveInt := []
  timerPend : List Nat := []
  arrived : List Nat := []
  vpend : Nat := 0
  postPend : Bool := false
  drainFrom : Option Nat := none
  rstKind : Nat := 0
  idleSince : Option Nat := none
  blockCount : Nat := 0
  deriving DecidableEq, Repr

/-! ### Coherence (chapters 07 and 08) -/

/-- The states of a line in a holder: stable (R275) and transient (R289). -/
inductive HState where
  | i | s | f | e | o | m | isd | imd | smc | xia
  deriving DecidableEq, Repr

/-- Commands of fabric packets (R313). -/
inductive Cmd where
  | rds | rdx | upg | puts | pute | putf | putm | puto
  | far | rdc | wrc | cmoCln | cmoFls | cmoInv | cas64 | devRd | devWr | tinvBc
  | fwdS | fwdX | inv | rclC | rclI
  | dataS | dataF | dataE | dataM
  | comp | fwdDone | invAck | rclAck | wbAck | wbStale | farRsp | rdRsp | wrCmp | errRsp
  | time | pwr | hlog | fence | irq
  deriving DecidableEq, Repr

/-- Fabric classes (R312, R321). -/
inductive PClass where
  | g | h | q | b
  deriving DecidableEq, Repr

/-- A packet: the header's fields (R312) and its argument (R313), its data units, and where it now waits in the fabric
(`at_`, since tick `since`; `none`: at its source). `detour` says that it takes the spoke detour (R335, R336), `via` is the Sprue
link end plus one whose buffer it fills, `inp` the stop it last came from. `spkg` and `dpkg` name its source and destination package
where that is another one (R309), `osrc` and `odst` its stops there, `aq` and `rl` are a FAR's (R313), `tinv` a
TINV_BC's; `ord` is its place among all packets sent, which tells the order
of those with one OTAG (R229, R318). `holder` names the holder a snoop or an answer concerns
when the stop alone does not (R274). -/
structure Packet where
  cmd : Cmd
  src : StopId
  dst : StopId
  cls : PClass := .q
  stream : Nat := 0
  urg : Nat := 0
  txid : Nat := 0
  world : Bool := false
  partid : Nat := 0
  keyid : Nat := 0
  poison : Bool := false
  addr : Nat := 0
  mask : Nat := 0
  data : LineData := 0
  holder : Nat := 0
  req : StopId := ⟨0, 0⟩
  reqTxid : Nat := 0
  kept : HState := .i
  r : Bool := false
  putId : Nat := 0
  dirty : Bool := false
  contended : Bool := false
  aop : Nat := 0
  size : Nat := 0
  opnd : Word := 0
  cmp : Word := 0
  arg : Nat := 0
  inj : Nat := 0
  dir : Bool := false
  turned : Bool := false
  detour : Bool := false
  via : Nat := 0
  inp : Option StopId := none
  spkg : Option Nat := none
  dpkg : Option Nat := none
  osrc : Option StopId := none
  odst : Option StopId := none
  aq : Bool := false
  rl : Bool := false
  tinv : Option Tinv := none
  ord : Nat := 0
  at_ : Option StopId := none
  since : Nat := 0
  deriving DecidableEq, Repr

/-- A line in a holder (R275, R289, R386, R493). `base` is the former state kept by SM_C and XI_A; `gotData` and `gotComp`
what IM_D has received (R285); `dropFill` that an INV came in IS_D; `held` the snoops held under R289. -/
structure CLine where
  st : HState := .i
  base : HState := .i
  data : LineData := 0
  poison : Bool := false
  keyid : Nat := 0
  sec : Bool := false
  partid : Nat := 0
  gotData : Bool := false
  gotComp : Bool := false
  contended : Bool := false
  dropFill : Bool := false
  err : Bool := false
  txid : Nat := 0
  putId : Nat := 0
  held : List Packet := []
  deriving DecidableEq, Repr

/-- A line of an L3 slice (R247): its way, whether it is newer than memory, its data, the KEYID that filled it (R386). -/
structure L3Line where
  valid : Bool := false
  way : Nat := 0
  dirty : Bool := false
  poison : Bool := false
  data : LineData := 0
  keyid : Nat := 0
  deriving DecidableEq, Repr

/-- Directory states (R279). -/
inductive DState where
  | none_ | ds | dsf | dx | do_
  deriving DecidableEq, Repr

/-- A directory entry (R279), with the way that holds it. `cores` lists core holders by bit, `hio` and `pkg` the others. -/
structure DirEntry where
  st : DState := .none_
  ptr : Nat := 0
  cores : BitVec 240 := 0
  hio : Bool := false
  pkg : BitVec 4 := 0
  way : Nat := 0
  deriving DecidableEq, Repr

/-- What a busy entry serves: a request, a request that waits for a directory way, or the back-invalidation or recall of a line (R281, R282);
of the remote agent: a snoop of the home, a request served within the package, a PUT, or the eviction of an entry (R305). -/
inductive BusyKind where
  | request | waitDir | backInval | recall | home | serve | put | evict
  deriving DecidableEq, Repr

/-- A busy entry (R280): the transaction a line is in. `await` lists the holders whose INV_ACK or RCL_ACK is owed, `fwd` the
holder whose FWD_DONE is owed, `timers` the tick each snoop left (R299), `putIds` the PUTs found stale (R293), `got` the
data a recall returned, `waiting` the later requests for the line, in order of arrival. -/
structure Busy where
  kind : BusyKind
  cur : Packet
  await : List Nat
  fwd : Option Nat
  timers : Tab Nat
  contended : Bool
  got : Option (LineData × Bool)
  gotSec : Bool
  gotPart : Nat
  gotKey : Nat
  keptR : Bool
  kept : HState
  putIds : List Nat
  waiting : List Packet
  failed : Bool
  deriving DecidableEq, Repr

/-- A transaction a stop has outstanding (R576): what it is for, and the tick it was sent. -/
structure Outst where
  stop : StopId
  txid : Nat
  cmd : Cmd
  addr : Nat
  since : Nat
  deriving DecidableEq, Repr

/-- A request of a hub agent that its line's home has not answered at once (R220, R304): the packet without its transaction, how many
writes of the line by the agent's command went before it, the transaction once it has left, the answer (no data: an error), and whether
the command under way has used it. -/
structure HubAsk where
  req : Packet
  nth : Nat := 0
  txid : Option Nat := none
  ans : Option (Option LineData) := none
  used : Bool := false
  deriving DecidableEq, Repr

/-- What hardware's next atomic operation on a posting record is for (R532 to R534): a post sets bit v of PEND, then reads CTL for SN,
then sets ON; a core that is notified clears ON; a core reads word i of PEND, or clears bit v by VIACK. `read` is a core's reading of
the whole of PEND, before its first word. -/
inductive HwAct where
  | pend (v : Nat)
  | ctl
  | on
  | off
  | read
  | word (i : Nat)
  | ack (v : Nat)
  deriving DecidableEq, Repr

/-- An operation on the posting record at a byte address by the hardware at a stop, and the transaction of its atomic under way. -/
structure HwOp where
  st : StopId
  world : Bool
  record : Nat
  act : HwAct
  txid : Nat := 0
  deriving DecidableEq, Repr

/-- The errors a way has shown in its window (R255). -/
structure WayWin where
  count : Nat := 0
  opened : Nat := 0
  deriving DecidableEq, Repr

/-- The memory key of a KEYID: K1, K2, secure-owned (R385, R389, R390). -/
structure MemKey where
  loaded : Bool := false
  k1 : BitVec 256 := 0
  k2 : BitVec 256 := 0
  sown : Bool := false
  deriving DecidableEq, Repr

/-- Walks a home runs one at a time (R272). -/
inductive WalkKind where
  | invAll | flush | wayRetire (slice way : Nat) | dirRetire (slice way : Nat) | range (unit : Nat)
  deriving DecidableEq, Repr

/-! ### Sprue and Palrath links (chapter 10) -/

/-- A runner unit in a riser or on the wire: its sequence number, its packet, and which unit of the packet it is. -/
structure RUnit where
  seq : Nat
  pkt : Packet
  idx : Nat
  last : Bool
  deriving DecidableEq, Repr

/-- A unit on the wire of a Sprue link (R339, R341): DATA, and the CTRL units of an active link. `intact` says that it left its
transmitter with good parity. -/
inductive WUnit where
  | data (u : RUnit)
  | ack (n : Nat)
  | nak (n : Nat)
  | credit (g h q b : Nat)
  deriving DecidableEq, Repr

/-- One end of a Sprue link, beside its registers (R342 to R354): packets taken from the ring and the next unit of the first one,
the riser, sequence numbers, what is on the wire towards this end, the credit counts by class (0 G to 3 B), how often each unit of the
riser has been resent and the window of R345, training. -/
structure LinkEnd where
  txq : List Packet := []
  txIdx : Nat := 0
  riser : List RUnit := []
  txSeq : Nat := 0
  rxNext : Nat := 0
  wire : List WUnit := []
  sent : Tab Nat := []
  peerFreed : Tab Nat := []
  taken : Tab Nat := []
  credAt : Nat := 0
  nakAt : Option Nat := none
  tries : Tab Nat := []
  reWin : WayWin := {}
  attempts : Nat := 0
  tested : Bool := false
  qFails : Tab Nat := []
  peerQ : Option Nat := none
  width : Nat := 0
  qsel : Nat := 0
  since : Nat := 0
  outSince : Nat := 0
  dispAt : Nat := 0
  wasDown : Bool := false
  deriving DecidableEq, Repr

/-- What a Palrath end says to its peer (R363): IDENT (CASC_ID, serial number, PALREV, FEATURES, the cascade IDs it has seen), or the master's
JOIN_GRANT (PALREV, the packages present, CASCFEAT, PTIME). -/
inductive PalMsg where
  | ident (id serial rev features seen : Nat)
  | grant (rev present : Nat) (features time : Word)
  deriving DecidableEq, Repr

/-- The end of a Palrath group (R360, R361): its riser of flits, the packet whose units are leaving and its next unit, sequence numbers,
the retry it has asked for, since when it is outside ACTIVE, the last flit on its lanes and what it last said. -/
structure PalEnd where
  riser : List (Nat × List RUnit) := []
  txq : List Packet := []
  txIdx : Nat := 0
  txSeq : Nat := 0
  rxNext : Nat := 0
  nak : Bool := false
  outSince : Nat := 0
  lanes : List Byte := []
  said : Option PalMsg := none
  deriving DecidableEq, Repr

/-- A bundle to another package (R362): the groups in use, whether its traffic is held, the packets held. -/
structure Bundle where
  groups : List Nat := []
  hold : Bool := false
  held : List Packet := []
  deriving DecidableEq, Repr

/-- A package that asked for admission (R363): its PALREV, its FEATURES, the cascade IDs it has seen. -/
structure Cand where
  pkg : Nat
  rev : Nat
  features : Nat
  seen : Nat
  deriving DecidableEq, Repr

/-! ### Memory keys (R389) -/

/-- A key command under way: its KEYID, and the key it leaves (none: cleared). -/
structure KeyPend where
  keyid : Nat
  key : Option (BitVec 256 × BitVec 256)
  sown : Bool
  deriving DecidableEq, Repr

/-! ### Supplies, aging, the heat log (chapters 04, 17, 19) -/

/-- The core supply of a stack (R145, R146, R564), in mV: what is applied, the setpoint, whether it slews, the thermal loop's
ceiling, the aging offset; the hottest sensor as last read (two's complement, 0.25 degrees), the time of
the last aging evaluation, whether that reading was at or above ALERT, and when the loop last lowered and raised its ceiling. -/
structure Stk where
  supply : Nat := 850
  setpoint : Nat := 850
  slewing : Bool := false
  stkCeil : Nat := 950
  ageOff : Nat := 0
  tmax : Nat := 0
  ageAt : Nat := 0
  aged : Bool := false
  hot : Bool := false
  lowAt : Nat := 0
  highAt : Nat := 0
  deriving DecidableEq, Repr

/-- A record waiting to be appended (R606, R608): for a commit, the block it came from and its world. -/
structure HlPend where
  typ : Nat
  origin : Nat
  arg : Nat
  payload : BitVec 256
  ptime : Word
  flags : Nat
  commit : Option (Nat × Bool) := none
  deriving DecidableEq, Repr

/-- The heat log (R606 to R608): the ring by index, the newest SEQ, C(head) (none: that of the genesis record), the queue, and
device records dropped for want of room. -/
structure HeatLog where
  ring : Tab (BitVec 512) := []
  head : Nat := 0
  chain : Option (BitVec 256) := none
  pend : List HlPend := []
  lost : Nat := 0
  deriving DecidableEq, Repr

/-- A cascade-wide broadcast this package follows (R366): its own, from issue to completion (`sent` to the master, `num` once it has its
number), or at the master another package's. `left` is what its completion waits for: packages, and 0xFF for the master's report. -/
structure Bcast where
  kind : BcastKind
  src : StopId
  tinv : Option Tinv
  pkg : Nat
  seq : Nat := 0
  sent : Bool := false
  num : Bool := false
  left : List Nat := []
  deriving DecidableEq, Repr

/-! ### Lane groups, Ethernet, optics (chapter 12) -/

/-- A root port (R237, R403): 0 not up since its personality took effect, 1 in L0, 2 out of L0, 3 link down; the DEV accesses it
holds, with the tick it received each, and those it has sent to a function; the last completion it returned to a requester; the inbound
request whose access to memory is not answered yet, which those behind it wait for (R230). -/
structure Rport where
  st : Nat := 0
  held : List (Packet × Nat) := []
  sent : List Packet := []
  cpl : Option (Bool × List Byte) := none
  inWait : Option PcieReq := none
  deriving DecidableEq, Repr

/-- The PCIe side of a lane group (R404): when the personality took effect, and whether PERST_N is released. -/
structure LaneGrp where
  persAt : Nat := 0
  perst : Bool := false
  deriving DecidableEq, Repr

/-- A cartridge slot (R412 to R419): the cartridge's memory, since when PRESENT_N is low, when the laser check began, the lit time in
ticks before `litFrom`, the weighted lit time not yet in WEAR in half seconds, and what the next record is to count. -/
structure Slot where
  mem : BitVec 1024 := 0
  present : Option Nat := none
  checkAt : Nat := 0
  litFrom : Option Nat := none
  litBefore : Nat := 0
  halfSecs : Nat := 0
  litSecs : Nat := 0
  handovers : Nat := 0
  faults : Nat := 0
  deriving DecidableEq, Repr

/-- An optical engine: when its fade began, and the slot it goes to (fade or switchover). -/
structure Engine where
  fadeAt : Nat := 0
  target : Nat := 0
  deriving DecidableEq, Repr

/-- A frame on the wire: the MAC that sends it, its bytes without FCS, and when. -/
structure SentFrame where
  mac : Nat
  bytes : List Byte
  at_ : Word
  deriving DecidableEq, Repr

/-! ### Queues and shares (chapter 13) -/

/-- An accepted descriptor: its submission index, its 64 bytes, the status it already has (a fault met in reading it, or BAD_DESC)
with RESULT0 and RESULT1, whether its buffer is posted (ETH_RX) or its work begun; of a cipher descriptor its place in fetch order,
its phase (0 waiting, 1 running, 2 suspended, 3 waiting for the island), when the phase began and on which cluster it runs. -/
structure Item where
  sqidx : Nat
  desc : LineData
  bad : Option (Nat × Word × Word) := none
  posted : Bool := false
  started : Bool := false
  seq : Nat := 0
  phase : Nat := 0
  since : Nat := 0
  cluster : Nat := 0
  deriving DecidableEq, Repr

/-- A queue pair beside its registers (R429 to R440): the share that holds it, the stored tail, the accepted items in order, the
completion head, the records not yet reported and since when, when it began to close, its TARGET, and the bytes of a frame begun. -/
structure Queue where
  share : Option Nat := none
  target : Nat := 0
  tail : Nat := 0
  items : List Item := []
  cqHead : Nat := 0
  unrep : Nat := 0
  holdFrom : Option Nat := none
  closeAt : Nat := 0
  frame : List Byte := []
  frameHdr : Nat := 0
  frameTag : Nat := 0
  deriving DecidableEq, Repr

/-- A resident session context (R469): CFG with bit 63 set when initialised, OWNER's share, K1, K2, HSUB, CTR, CHAIN, GHASH, TMASK,
AAD_DONE, DATA_DONE, RESUME; and when it was last used (R471). Byte i of a string lies in bits [8i+7:8i]. -/
structure Session where
  cfg : Word := 0
  share : Nat := 0
  k1 : BitVec 256 := 0
  k2 : BitVec 256 := 0
  hsub : BitVec 128 := 0
  ctr : BitVec 128 := 0
  chain : BitVec 128 := 0
  ghash : BitVec 128 := 0
  tmask : BitVec 128 := 0
  aadDone : Nat := 0
  dataDone : Nat := 0
  resume : Word := 0
  used : Nat := 0
  deriving DecidableEq, Repr

/-- A share beside its SHSTATE (R424 to R427, R446, R451, R453). -/
structure Share where
  qp0 : Nat := 0
  nqp : Nat := 0
  vc0 : Nat := 0
  nvc : Nat := 0
  vec0 : Nat := 0
  nvec : Nat := 0
  sess0 : Nat := 0
  nsess : Nat := 0
  credits : Nat := 0
  vmid : Nat := 0
  lv5 : Bool := false
  s2en : Bool := false
  s2base : Nat := 0
  bme : Bool := false
  wasEnabled : Bool := false
  sdAt : Nat := 0
  deriving DecidableEq, Repr

/-! ### Resets, power states, mailboxes (chapters 17, 19, 20) -/

/-- The scope of a reset under way (R616). -/
inductive RstScope where
  | warm
  | stack (n : Nat)
  | core (c : Nat)
  deriving DecidableEq, Repr

/-- A warm, stack or core reset under R619: its scope, what RSTSTAT.LASTRST is to read after a warm one, and how far it has come:
0 stores drain, 1 the L2s are written back, 2 the homes are flushed. -/
structure RstRun where
  scope : RstScope
  last : Nat := 0
  phase : Nat := 0
  deriving DecidableEq, Repr

/-- GO_FULL under way (R631): the rate R now and at first (as MCSTAT.RATE), restarts made, homes still to retrain, whether this is the last
pass at 4,800 MT/s, whether a channel was taken out of service. -/
structure GoFull where
  rate : Nat
  first : Nat
  restarts : Nat := 0
  homes : List Nat
  last : Bool := false
  lost : Bool := false
  deriving DecidableEq, Repr

/-- An entry of a mailbox class queue (R601): the block as copied, the block's address, the frame's TAG, when it was posted. -/
structure MbEntry where
  block : LineData
  pa : Nat := 0
  tag : Nat := 0
  at_ : Nat := 0
  deriving DecidableEq, Repr

/-- A wake under way (R556, R557, R563): the step, when it began, whether it was repeated, the sources seen, the detail of the lowest,
where it wakes from, when it was detected. -/
structure WakeRun where
  step : Nat
  since : Nat
  again : Bool := false
  seen : Nat
  detail : Nat
  from_ : Nat
  at_ : Nat
  deriving DecidableEq, Repr

/-- Resets and bring-up beside the registers (chapter 20): PWRGOOD; that the next rise of RESET_N ends a cold reset; the reset under way (R619); the command in RSTCMD, by OP and core or
stack (R624); the image as far as bring-up has come (0 none accepted, 1 accepted, 2 step 2 done, 3 the hub die fenced); when step 3
began and, by stack, steps 4 and 6; the first READY stack; homes whose L3 was in use when their stack's reset began; the modules by
channel; GO_FULL; the reset vector of the boot image; the spare fuses by stack (R20); substitutions by logical number (0 none, 99
vacant, else local number + 1). -/
structure ResetSt where
  pwrgood : Bool := true
  coldPend : Bool := false
  run : Option RstRun := none
  op : Nat × Nat := (0, 0)
  boot : Nat := 0
  linkAt : Nat := 0
  tileAt : Tab Nat := []
  dieAt : Tab Nat := []
  firstReady : Option Nat := none
  l3WasOn : Tab Bool := []
  mods : Tab ChMods := []
  goFull : Option GoFull := none
  rstvec : Word := 0
  spareMask : Tab Nat := []
  asg : Tab Nat := []
  floored : Bool := false
  deriving DecidableEq, Repr

/-- The management processor and what hangs on it (chapter 19): its boot (0 due, 1 runs its image, 2 no image); the class queues (0
tundish, 1 secure monitor, 2 hypervisor, 3 board controller); the last service times in microseconds; the class whose front entry is
served and since when; the watchdog's last kick; the last occupancy evaluation and how many low ones in a row; an image received over
the Ihlell link; what the window's last access (none: bus error) and the last tundish post answered, and the address and transaction of a half access to
another package's window that is not answered yet; the last answer frame of the
Ihlell link (CMD, TAG, payload). -/
structure MpSt where
  boot : Nat := 0
  mbq : Tab (List MbEntry) := []
  mbTimes : Tab (List Nat) := []
  serv : Option (Nat × Nat) := none
  wdAt : Nat := 0
  shedAt : Nat := 0
  shedLow : Nat := 0
  img : Memory := []
  winAns : Option Word := none
  winTx : Option (Nat × Nat) := none
  tunAns : Option LineData := none
  ihlAns : Option (Nat × Nat × List Byte) := none
  deriving DecidableEq, Repr

/-- Power beside the registers (chapter 17): the domain command under way (domain, target); the package target armed; since when each root
port waits for PME_TO_Ack; the domains in RUN before the entry; the wake under way; the reference lost in BANK or ANNEAL (R555); the
sensors at or above the trip level at the last reading; when the ANNEAL sampler or the trip reading last ran; THERMTRIP_N driven low;
the power loop's last lowering and raising; since when the package is in no POUR, and for how long it was in none before. -/
structure PowerSt where
  dom : Option (Nat × Nat) := none
  target : Nat := 0
  pme : Tab (Option Nat) := []
  wasRun : List Nat := []
  wake : Option WakeRun := none
  refLost : Bool := false
  hotSens : List Nat := []
  sampleAt : Nat := 0
  tripped : Bool := false
  outSince : Option Nat := none
  outTotal : Nat := 0
  lowAt : Nat := 0
  highAt : Nat := 0
  deriving DecidableEq, Repr

end Sys2Proof.Machine
end

