-- ==== Sys2Proof/Machine/State.lean ====
section
/-! DEFINITION. The state of the block, as plain data, the state after reset, and the reasons a command can stop. -/
namespace Sys2Proof.Machine

open Sys2Proof

/-- Everything the spec gives the machine, and the queue of waiting commands. -/
structure State where
  pending : List Instr
  /-- PTIME (R7). -/
  ptime : BitVec 64
  /-- The model's own field: how many free values have been used. -/
  freeCtr : Nat
  /-- The set-up registers (RegMap.lean). -/
  regs : Tab Word
  cores : Tab Core
  /-- What the DIMMs and the CXL memory devices hold, by physical address; ciphertext where a KEYID encrypts it. -/
  dram : Memory
  /-- Lines that carry the poison code (R377). -/
  poisoned : Tab Bool
  /-- Lines in holders: key = holder * 2^46 + line. -/
  lines : Tab CLine
  l3 : Tab L3Line
  dir : Tab DirEntry
  busy : Tab (Option Busy)
  /-- Requests that wait because every way of their directory set has an open busy entry (R281). -/
  dirWait : List Packet
  /-- The remote agent's operations under way, by line (R307). -/
  agentOps : Tab (Option Busy)
  /-- The previous far atomic on a line: core and tick (R297). -/
  farLast : Tab (Option (Nat × Nat))
  net : List Packet
  /-- The model's own field: how many packets have been sent. -/
  sendNo : Nat
  txNext : Nat
  outst : List Outst
  /-- Requests of hub agents that wait for the answer of a home: their command takes effect once it has come (log entry 25). -/
  hubTx : List HubAsk
  /-- Operations on posting records whose atomic at the record's home is not answered yet (R531 to R534). -/
  hwOps : List HwOp
  quarantine : List Outst
  l3Lfsr : Tab Nat
  hioLfsr : Nat
  dirLfsr : Tab Nat
  wayWin : Tab WayWin
  /-- Set walks due at each home, and the one it runs (R272). -/
  walks : Tab (List WalkKind)
  walkRun : Tab (Option WalkKind)
  /-- The channels in service and the homes not fenced when the hash was fixed (R372 to R374, R394). -/
  hashChs : List Nat
  hashHomes : List Nat
  /-- The key table of memory encryption, by KEYID (R388). -/
  keys : Tab MemKey
  /-- This package's cascade ID as sampled (R36), and the packages admitted to the cascade (R363). -/
  pkg : Nat
  admitted : List Nat
  /-- The populated DRAM of the other packages, in bytes, by cascade ID: theirs, not this block's (R27; log entry 92). -/
  peerDram : Tab Nat
  /-- Stacks fenced (R24, R638). -/
  fencedStk : Tab Bool
  /-- The management processor's private SRAM and boot flash (R594), MPWIN (R595), the wired sources pending for it and its enable
  bitmap (R596), the low half it holds of a write and the word a low-half read has read, each with its address. -/
  mpSram : Memory
  flash : Memory
  mpwin : Nat
  mpPend : Nat
  mpEn : Nat
  mpHeld : Option (Nat × Nat)
  mpRead : Option (Nat × Word)
  /-- DBGAUTH.FUSE and POLICY (R508). -/
  dbgFuse : Nat
  dbgPolicy : Nat
  /-- FEATURES (R635), as computed at bring-up. -/
  features : Nat
  /-- TIMESTAT.MODE (R622): 0 COARSE, 1 LOCKED, 2 HOLDOVER. -/
  tbMode : Nat
  /-- The stacks' core supplies (R145), the fabric aging offset, drift and time of its last evaluation (R143), the retirement fuses of the cores (R585). -/
  stk : Tab Stk
  fabOff : Nat
  fabDrift : Nat
  fabAgeAt : Nat
  coreFuse : Tab Bool
  /-- The heat log and whether the island may append: VSTBY_3V3 and VIN_MAIN (R609). -/
  hlog : HeatLog
  vstby : Bool
  vin : Bool
  /-- TLB invalidations on their way: target core and scope (R130); broadcasts that wait for the cascade's order (R366). -/
  tinvQ : List (Nat × Tinv)
  bcasts : List Bcast
  bcastSeq : Nat
  /-- The fabric: tokens and time of the last gain by G source (R323), G packets held, arbiter pointers (R324), when a stop's window
  opened (R334), the state of each rim segment and which rim stops hold for it (R335, R337), packets parked at a closed ingress
  (R332). -/
  tokens : Tab Nat
  tokenAt : Tab Nat
  gHeld : List Packet
  arbPtr : Tab Nat
  fstopAt : Tab Nat
  seg : Tab Nat
  rimHold : Tab Bool
  parked : List Packet
  /-- The Sprue link ends, the Palrath group ends, the bundles by package, admission (R363) and the last TIME packet (R365). -/
  ends : Tab LinkEnd
  pals : Tab PalEnd
  bundles : Tab Bundle
  cands : List Cand
  hubAt : Option Nat
  identAt : Nat
  timeAt : Option Nat
  timeSentAt : Nat
  otherMaster : Bool
  /-- The slew still to be made towards the master's time, in ticks, and the ticks since its last step (R365). -/
  slew : Int
  slewCtr : Nat
  /-- The identification of each package seen (R364): its serial number. -/
  seenIds : Tab (Option Nat)
  /-- The key command under way (R389), and when each channel's scrub last read (R380). -/
  keyPend : Option KeyPend
  scrubAt : Tab Nat
  /-- Lane groups, root ports (by 4g + k), optical engines and their slots (by 2e + b), the engines' fused wavelength plans. -/
  lgs : Tab LaneGrp
  rports : Tab Rport
  engs : Tab Engine
  slots : Tab Slot
  oePlan : Tab Nat
  /-- Frames sent on the wire, oldest first, and until when a MAC is paused (by 16 * MAC + priority, priority 8 for all, R408). -/
  ethTx : List SentFrame
  ethPause : Tab Nat
  /-- Queues, shares, and the hub's translation cache (R441). -/
  queues : Tab Queue
  shares : Tab Share
  hubTlb : List TlbEntry
  /-- The way of the hub I/O cache each of its lines is in (R254). -/
  hioWays : Tab Nat
  /-- The resident sessions by global number, those whose context lies in the memory table, the counts used by the spills of each
  session since cold reset, the number of spills, the draw that gave CTXKEY, the order counter of fetches, starts and uses, and the
  failed checks of each round unit (R468 to R484). -/
  sessions : Tab Session
  inTable : Tab Bool
  spills : Tab (List Nat)
  spillNo : Nat
  ctxKey : Nat
  cipSeq : Nat
  unitWin : Tab WayWin
  /-- The pins RESET_N (high is true), the code and data of the debug access port's last operation (R511), and the TAP: instruction
  register, bypass bit, boundary cells, what EXTEST drives, and what it last shifted out (R510). -/
  resetN : Bool
  dapStatus : Nat
  dapData : Word
  /-- The operations that wait in the queue of the debug access port, oldest first, and whether the Ihlell link gave each (R511). -/
  dapWait : List (Bool × DapOp)
  tapIr : Nat
  tapBit : Bool
  tapCells : List Bool
  tapDrive : List Bool
  tapOut : Word
  /-- Range units: the world that wrote GO, the requests sent, whether a home timeout poisoned a line (R268, R270); homes whose reset
  sweep is under way (R263); way-retirement fuses (R256), by kind * 65536 + (home * 8 + slice) * 16 + way; since when each link has been
  degraded (R588), and when LIFE0 was last written (R592). -/
  rangeSec : Tab Bool
  rangeTx : List (Nat × Nat × Nat)
  rangePois : Tab Bool
  sweeping : Tab Bool
  wayFuse : Tab Bool
  degraded : Tab (Option Nat)
  lifeAt : Nat
  /-- Resets and bring-up (chapter 20), the management processor, its mailboxes and the Ihlell link (chapter 19), power (chapter 17). -/
  rs : ResetSt
  mp : MpSt
  pw : PowerSt
  deriving DecidableEq, Repr

/-- Why the machine stops with a fault. -/
inductive Fault where
  /-- No meaning raises it: the spec gives every command of the table an effect. Safe. -/
  | none_
  deriving DecidableEq, Repr

/-- Why a command has no meaning. -/
inductive Refusal where
  /-- Raised by Dispatch.lean alone, for a command whose meaning is not written. Safe. -/
  | notModelled (mnemonic : String)
  deriving DecidableEq, Repr

/-- The machine at the rising edge of RESET_N that ends a cold reset (R627 step 1): every register at its reset value, every
core held, no line anywhere, no command waiting. -/
def State.reset : State where
  pending := []
  ptime := 0
  freeCtr := 0
  regs := []
  cores := []
  dram := []
  poisoned := []
  lines := []
  l3 := []
  dir := []
  busy := []
  dirWait := []
  agentOps := []
  farLast := []
  net := []
  sendNo := 0
  txNext := 0
  outst := []
  hubTx := []
  hwOps := []
  quarantine := []
  l3Lfsr := []
  hioLfsr := 0xACE1 ^^^ 0x60
  dirLfsr := []
  wayWin := []
  walks := []
  walkRun := []
  hashChs := []
  hashHomes := []
  keys := []
  pkg := 0
  admitted := []
  peerDram := []
  fencedStk := []
  mpSram := []
  flash := []
  mpwin := 0x1FFE00
  mpPend := 0
  mpEn := 0
  mpHeld := none
  mpRead := none
  dbgFuse := 0xF
  dbgPolicy := 0xF
  features := 0
  tbMode := 0
  stk := []
  fabOff := 0
  fabDrift := 0
  fabAgeAt := 0
  coreFuse := []
  hlog := {}
  vstby := true
  vin := true
  tinvQ := []
  bcasts := []
  bcastSeq := 0
  tokens := []
  tokenAt := []
  gHeld := []
  arbPtr := []
  fstopAt := []
  seg := []
  rimHold := []
  parked := []
  ends := []
  pals := []
  bundles := []
  cands := []
  hubAt := none
  identAt := 0
  timeAt := none
  timeSentAt := 0
  otherMaster := false
  slew := 0
  slewCtr := 0
  seenIds := []
  keyPend := none
  scrubAt := []
  lgs := []
  rports := []
  engs := []
  slots := []
  oePlan := []
  ethTx := []
  ethPause := []
  queues := []
  shares := []
  hubTlb := []
  hioWays := []
  sessions := []
  inTable := []
  spills := []
  spillNo := 0
  ctxKey := 0
  cipSeq := 0
  unitWin := []
  resetN := true
  dapStatus := 0
  dapData := 0
  dapWait := []
  tapIr := 0xFF
  tapBit := false
  tapCells := []
  tapDrive := []
  tapOut := 0
  rangeSec := []
  rangeTx := []
  rangePois := []
  sweeping := []
  wayFuse := []
  degraded := []
  lifeAt := 0
  rs := {}
  mp := {}
  pw := {}

end Sys2Proof.Machine
end

