-- ==== Sys2Proof/Machine/SysRegs.lean ====
section
/-! DEFINITION. The core system registers (R87): which numbers are allocated, the lowest level that reads and writes each, which
have one copy for each world (R63), their fields and reset values. -/
namespace Sys2Proof.Machine

open Sys2Proof

/-- One system register: lowest level that reads and writes it (none: no access), whether it has one copy for each world,
its fields and its reset value. -/
structure SysInfo where
  rd : Option Nat
  wr : Option Nat
  bank : Bool
  fields : List FieldDef
  rst : Nat
  deriving DecidableEq, Repr

/-- A whole-register RW field. -/
def fAll : List FieldDef := [⟨63, 0, .rw, 0, .any⟩]

/-- A single RW field [hi:lo]. -/
def fRW (hi lo : Nat) : FieldDef := ⟨hi, lo, .rw, 0, .any⟩

/-- CSTAT as SYSWR writes it: IM and DM only (the CSTAT table). -/
def cstatFields : List FieldDef := [fRW 5 5, fRW 4 4]

/-- ESTAT_PLn: every named field of CSTAT (R87, exception register offsets). -/
def estatFields : List FieldDef := [fRW 7 7, fRW 6 6, fRW 5 5, fRW 4 4, fRW 2 2, fRW 1 0]

/-- ESYN_PLn (R79). -/
def esynFields : List FieldDef := [fRW 63 56, fRW 55 55, fRW 54 54, fRW 53 53, fRW 52 50, fRW 31 0]

/-- MATTR_PLn (R192): a reserved TYPE or ATP keeps that field's previous value. -/
def mattrFields : List FieldDef :=
  (List.range 8).flatMap (fun i => [⟨8 * i + 4, 8 * i + 3, .rw, 0, .range 0 2⟩, ⟨8 * i + 1, 8 * i, .rw, 0, .range 0 2⟩])

/-- The registers of a level block at offset o (the exception register table). -/
def levelBlock (lv : Nat) (bank : Bool) (o : Nat) : Option SysInfo :=
  let mk (f : List FieldDef) : Option SysInfo := some ⟨some lv, some lv, bank, f, 0⟩
  match o with
  | 0 => mk [fRW 63 12]
  | 1 => mk [fRW 63 2]
  | 2 => mk estatFields
  | 3 => mk esynFields
  | 4 => mk fAll
  | 5 => mk fAll
  | 6 => if lv = 2 then mk fAll else none
  | 7 => mk fAll
  | 8 => mk fAll
  | _ => none

/-- The events of R541 that EVENT may name. -/
def eventLegal : Legal := .range 0 0x1A

/-- The system registers of an Acdar-64 core (R81, R87). -/
def sysInfo (n : Nat) : Option SysInfo :=
  let ro (lv rst : Nat) : Option SysInfo := some ⟨some lv, none, false, [⟨63, 0, .ro, 0, .any⟩], rst⟩
  let rw (lv : Nat) (bank : Bool) (f : List FieldDef) : Option SysInfo := some ⟨some lv, some lv, bank, f, 0⟩
  if n = 0x000 then ro 0 0
  else if n = 0x001 then ro 0 0
  else if n = 0x002 then ro 0 0x34202
  else if n = 0x003 then ro 0 0
  else if n = 0x004 then some ⟨some 0, some 1, false, cstatFields, 0x37⟩
  else if n = 0x005 then some ⟨some 0, some 1, false, [⟨63, 0, .rw, 0x80, .oneOf [0x40, 0x80, 0x100]⟩], 0x80⟩
  else if n = 0x006 then some ⟨some 0, some 0, true, [fRW 31 0], 0⟩
  else if n = 0x007 then rw 1 true fAll
  else if n = 0x008 then some ⟨some 3, none, false, [⟨63, 2, .ro, 0, .any⟩], 0⟩
  else if 0x010 ≤ n ∧ n ≤ 0x015 then some ⟨some 0, some 0, true, [fRW 63 3], 0⟩
  else if 0x016 ≤ n ∧ n ≤ 0x017 then some ⟨some 0, some 1, true, [fRW 63 3], 0⟩
  else if 0x100 ≤ n ∧ n ≤ 0x108 then levelBlock 1 true (n - 0x100)
  else if 0x200 ≤ n ∧ n ≤ 0x208 then levelBlock 2 true (n - 0x200)
  else if 0x300 ≤ n ∧ n ≤ 0x308 then levelBlock 3 false (n - 0x300)
  else if n = 0x400 ∨ n = 0x401 then rw 1 true [fRW 51 12]
  else if n = 0x402 then rw 1 true [fRW 63 48, fRW 5 5, fRW 4 3, fRW 1 1, fRW 0 0]
  else if n = 0x403 then rw 1 true mattrFields
  else if n = 0x410 then rw 2 true [fRW 51 12]
  else if n = 0x411 then rw 2 true [fRW 62 52, fRW 5 5, fRW 1 1, fRW 0 0]
  else if n = 0x412 then rw 2 true mattrFields
  else if n = 0x420 then rw 2 true [fRW 51 12]
  else if n = 0x421 then rw 2 true [fRW 63 48, fRW 5 5, fRW 1 1]
  else if n = 0x422 then some ⟨some 1, some 2, true, [fRW 3 0], 0⟩
  else if n = 0x430 then rw 3 false [fRW 51 12]
  else if n = 0x431 then rw 3 false [fRW 62 52, fRW 5 5, fRW 1 1, fRW 0 0]
  else if n = 0x432 then rw 3 false mattrFields
  else if n = 0x500 then rw 2 true [fRW 4 4, fRW 3 3, fRW 2 2, fRW 1 1, fRW 0 0]
  else if n = 0x501 then rw 2 true [fRW 3 3, fRW 2 2, fRW 1 1, fRW 0 0]
  else if n = 0x502 ∨ n = 0x503 then rw 2 true fAll
  else if n = 0x504 then rw 2 true [fRW 51 8, fRW 0 0]
  else if 0x540 ≤ n ∧ n ≤ 0x56F then rw 2 true fAll
  else if n = 0x580 then some ⟨some 3, some 3, false, [⟨0, 0, .rw, 1, .any⟩], 1⟩
  else if n = 0x581 then some ⟨some 1, some 3, false, [fRW 3 0], 0⟩
  else if n = 0x600 then some ⟨some 1, some 1, true, [fRW 1 1, fRW 0 0], 1⟩
  else if n = 0x601 then ro 0 0x3000F67B77380800
  else if n = 0x602 then rw 1 false [⟨8, 8, .wo, 0, .any⟩, ⟨1, 0, .rw, 0, .range 0 2⟩]
  else if n = 0x610 then some ⟨some 1, some 3, false, [⟨63, 62, .rw, 0, .range 0 2⟩, fRW 31 0], 0⟩
  else if n = 0x611 then rw 1 false [⟨63, 48, .ro, 0, .any⟩, ⟨31, 16, .ro, 0, .any⟩, ⟨3, 3, .ro, 0, .any⟩,
      ⟨2, 2, .rw1c, 0, .any⟩, ⟨1, 1, .rw1c, 0, .any⟩, ⟨0, 0, .rw1c, 0, .any⟩]
  else if n = 0x612 then ro 1 0
  else if n = 0x700 ∨ n = 0x701 then ro 0 0
  else if n = 0x702 then rw 2 true fAll
  else if n = 0x710 then rw 1 true fAll
  else if n = 0x711 then rw 1 true [⟨2, 2, .ro, 0, .any⟩, fRW 1 1, fRW 0 0]
  else if n = 0x720 then rw 2 true fAll
  else if n = 0x721 then rw 2 true [⟨2, 2, .ro, 0, .any⟩, fRW 1 1, fRW 0 0]
  else if n = 0x730 then rw 3 false fAll
  else if n = 0x731 then rw 3 false [⟨2, 2, .ro, 0, .any⟩, fRW 1 1, fRW 0 0]
  else if n = 0x800 then rw 1 false [fRW 7 0]
  else if n = 0x801 ∨ n = 0x803 ∨ n = 0x804 then rw 1 false [⟨63, 0, .ro, 0, .any⟩]
  else if n = 0x802 ∨ n = 0x805 then rw 1 false [⟨63, 0, .wo, 0, .any⟩]
  else if n = 0x810 then rw 2 false [fRW 7 0]
  else if n = 0x811 ∨ n = 0x814 then rw 2 false [⟨63, 0, .ro, 0, .any⟩]
  else if n = 0x813 then rw 2 false [fRW 63 8, fRW 2 0]
  else if n = 0x812 ∨ n = 0x815 then rw 2 false [⟨63, 0, .wo, 0, .any⟩]
  else if n = 0x900 ∨ n = 0x901 then rw 1 false fAll
  else if 0x910 ≤ n ∧ n ≤ 0x917 then rw 1 false [fRW 47 0]
  else if 0x920 ≤ n ∧ n ≤ 0x927 then
    rw 1 false ((if n % 2 = 1 then [fRW 31 31] else []) ++ [fRW 27 24, ⟨9, 0, .rw, 0, eventLegal⟩])
  else if n = 0x930 then rw 1 false [fRW 25 25, fRW 24 24, fRW 23 16, fRW 7 0]
  else if n = 0x931 then rw 1 false [⟨7, 0, .rw1c, 0, .any⟩]
  else if n = 0x932 then rw 1 false [fRW 63 48, fRW 3 3, fRW 2 2, fRW 1 1]
  else if n = 0x933 then rw 2 false [fRW 51 8, ⟨1, 1, .wo, 0, .any⟩, ⟨0, 0, .wo, 0, .any⟩]
  else if 0xA00 ≤ n ∧ n ≤ 0xA1F then rw 1 false fAll
  else if n = 0xA20 then rw 1 false [fRW 0 0]
  else if n = 0xA21 then rw 1 false [⟨63, 0, .ro, 0, .any⟩]
  else if n = 0xB00 ∨ n = 0xB01 ∨ n = 0xB02 then ro 1 0
  else none

/-- The system registers of an Acdar-M core (R88, R89): no banks, levels PL0 and PL1, and every other number UNDEF. -/
def sysInfoM (n : Nat) : Option SysInfo :=
  let rw (lv : Nat) (f : List FieldDef) : Option SysInfo := some ⟨some lv, some lv, false, f, 0⟩
  if n = 0x000 then sysInfo n
  else if n = 0x002 then sysInfo n
  else if n = 0x004 then some ⟨some 0, some 1, false, cstatFields, 0x31⟩
  else if n = 0x007 then rw 1 fAll
  else if 0x010 ≤ n ∧ n ≤ 0x013 then rw 0 [fRW 63 3]
  else if 0x100 ≤ n ∧ n ≤ 0x108 then
    (if n = 0x105 then none else (levelBlock 1 false (n - 0x100)))
  else if n = 0x700 then sysInfo n
  else if n = 0x900 ∨ n = 0x901 then rw 1 fAll
  else if 0xC00 ≤ n ∧ n ≤ 0xC0F then rw 1 [fRW 31 5]
  else if 0xC10 ≤ n ∧ n ≤ 0xC1F then rw 1 [fRW 31 5, fRW 4 4, fRW 3 3, fRW 2 2, fRW 1 1, fRW 0 0]
  else if n = 0xC20 then some ⟨some 1, some 1, false, [⟨16, 16, .rw, 1, .any⟩, fRW 15 0], 0x10000⟩
  else none

/-- The registers whose writes act only from the next context synchronisation (R85): all but CSTAT, PKEY and the bank bases. -/
def sysDeferred (n : Nat) : Bool := !(n == 0x004 || n == 0x006 || (decide (0x010 ≤ n) && decide (n ≤ 0x017)))

/-- The value v with each field written by w under its access type (R11, R13); bits of no field read 0 and ignore writes.
`locked` says that the lock bit of the RWL fields is 1. -/
def writeFields (fs : List FieldDef) (locked : Bool) (v w : Word) : Word :=
  fs.foldl (fun acc f =>
    let x := fld w f.hi f.lo
    let old := fld v f.hi f.lo
    let ok := match f.legal with
      | .any => true
      | .range a b => decide (a ≤ x) && decide (x ≤ b)
      | .oneOf vs => vs.contains x
    match f.ty with
    | .rw => if ok then setFld acc f.hi f.lo x else acc
    | .ro => acc
    | .wo => acc
    | .rw1c => setFld acc f.hi f.lo (old - (old &&& x))
    | .rw1s => setFld acc f.hi f.lo (old ||| x)
    | .rc => acc
    | .rwl => if ok && !locked then setFld acc f.hi f.lo x else acc) v

end Sys2Proof.Machine
end

