-- ==== Sys2Proof/Machine/Ops.lean ====
section
/-! DEFINITION. The named operations over registers, cores and packets that every meaning is written with, event counting, and
taking an exception and returning from one (R69 to R80). -/
namespace Sys2Proof.Machine

open Sys2Proof

/-! ### Outcomes -/

/-- The step goes on. -/
def ok (s : State) : Host.Outcome State Fault Refusal := .next s

/-! ### Free values -/

/-- The next free word, and the state that has used it. -/
def freeWord (s : State) : Word × State := (Config.freeWord s.freeCtr, { s with freeCtr := s.freeCtr + 1 })

/-- The next free line of data. -/
def freeLine (s : State) : LineData × State := (Config.freeLine s.freeCtr, { s with freeCtr := s.freeCtr + 1 })

/-- The next free key of 256 bits. -/
def freeKey (s : State) : BitVec 256 × State := (Config.freeKey s.freeCtr, { s with freeCtr := s.freeCtr + 1 })

/-! ### Set-up registers -/

/-- Register r, index i. -/
def rg (s : State) (r : RegName) (i : Nat) : Word := tget (regResetAt r i) (regKey r i) s.regs

/-- The state with register r, index i, holding v. -/
def setRg (s : State) (r : RegName) (i : Nat) (v : Word) : State :=
  { s with regs := tset (regResetAt r i) (regKey r i) v s.regs }

/-- Field [hi:lo] of register r, index i. -/
def rgF (s : State) (r : RegName) (i hi lo : Nat) : Nat := fld (rg s r i) hi lo

/-- The state with field [hi:lo] of register r, index i, set to x. -/
def setRgF (s : State) (r : RegName) (i hi lo x : Nat) : State := setRg s r i (setFld (rg s r i) hi lo x)

/-- A saturating count in field [hi:lo] of register r, index i. -/
def incRgF (s : State) (r : RegName) (i hi lo : Nat) : State :=
  setRgF s r i hi lo (satInc (hi + 1 - lo) (rgF s r i hi lo))

/-! ### Cores -/

/-- The number of the management processor's core. -/
def mpCore : Nat := 240

/-- A core as nothing has written it: held after reset; the management processor begins in PL1 (R88: PL0 and PL1 only). -/
def coreRst (c : Nat) : Core := if c = mpCore then { cstat := 0x31 } else {}

/-- Core c. -/
def getCore (s : State) (c : Nat) : Core := tget (coreRst c) c s.cores

/-- The state with core c replaced. -/
def setCore (s : State) (c : Nat) (k : Core) : State := { s with cores := tset (coreRst c) c k s.cores }

/-- The current privilege level (R61). -/
def plOf (k : Core) : Nat := fld k.cstat 1 0

/-- The current world: true is secure (R61). -/
def secOf (k : Core) : Bool := bit k.cstat 2

/-- Reset value of a system register of core c. -/
def sysRst (c n : Nat) : Word :=
  BitVec.ofNat 64 (((if c = mpCore then sysInfoM n else sysInfo n).map (·.rst)).getD 0)

/-- Whether register n has one copy for each world (R63). -/
def sysBanked (c n : Nat) : Bool :=
  ((if c = mpCore then sysInfoM n else sysInfo n).map (·.bank)).getD false

/-- Key of the copy of register n for world w. -/
def sysKey (c n : Nat) (w : Bool) : Nat := if sysBanked c n && w then n + 0x1000 else n

/-- System register n of core c, the copy of world w, as SYSRD sees it. -/
def sysGet (s : State) (c n : Nat) (w : Bool) : Word := tget (sysRst c n) (sysKey c n w) (getCore s c).sys

/-- The same register as it is in effect: a write that waits for a context synchronisation is not seen (R85). -/
def sysEff (s : State) (c n : Nat) (w : Bool) : Word :=
  match (getCore s c).stale.find? (fun p => p.1 == sysKey c n w) with
  | some p => p.2
  | none => sysGet s c n w

/-- System register n, the copy of world w, set to v by hardware, in effect at once. -/
def sysSet (s : State) (c n : Nat) (w : Bool) (v : Word) : State :=
  setCore s c { getCore s c with sys := tset (sysRst c n) (sysKey c n w) v (getCore s c).sys }

/-- System register n written by SYSWR: it reads v from now on, and takes effect when R85 says. -/
def sysWrite (s : State) (c n : Nat) (w : Bool) (v : Word) : State :=
  let k := getCore s c
  let old := sysEff s c n w
  let stale := if sysDeferred n && !(k.stale.any (fun p => p.1 == sysKey c n w))
    then (sysKey c n w, old) :: k.stale else k.stale
  setCore s c { k with sys := tset (sysRst c n) (sysKey c n w) v k.sys, stale := stale }

/-- System register n, the copy of world w, set to v and in effect at once, whatever write waited for a context synchronisation. -/
def sysForce (s : State) (c n : Nat) (w : Bool) (v : Word) : State :=
  let s := sysSet s c n w v
  setCore s c { getCore s c with stale := (getCore s c).stale.filter (fun p => p.1 != sysKey c n w) }

/-- Context synchronisation: every write waiting to take effect takes it (R85). -/
def contextSync (s : State) (c : Nat) : State := setCore s c { getCore s c with stale := [] }

/-- The world whose copies and data an access of core c reaches: MONCTL.AW at PL3, else the current world (R63, R176). -/
def accWorld (s : State) (c : Nat) : Bool :=
  if plOf (getCore s c) = 3 then bit (sysEff s c 0x580 false) 0 else secOf (getCore s c)

/-! ### General registers (R47, R53, R88) -/

/-- A value as a register of core c holds it: 32 bits on the management processor. -/
def trunc (c : Nat) (v : Word) : Word := if c = mpCore then v &&& 0xFFFFFFFF else v

/-- D[r]; D0 reads 0 (R47). -/
def dGet (s : State) (c r : Nat) : Word := if r = 0 then 0 else tget 0 r (getCore s c).d

/-- D[r] ← v; a write of D0 is discarded (R47). -/
def dSet (s : State) (c r : Nat) (v : Word) : State :=
  if r = 0 then s else setCore s c { getCore s c with d := tset 0 r (trunc c v) (getCore s c).d }

/-- The number of the stack pointer register of a level. -/
def spNum (pl : Nat) : Nat := if pl = 0 then 0x007 else pl * 0x100 + 7

/-- The A register that is the current level's stack pointer (R53, R88). -/
def spIdx (c : Nat) : Nat := if c = mpCore then 7 else 15

/-- A[r]; a SYSWR of the stack pointer's register shows here from the next context synchronisation on (R85). -/
def aGet (s : State) (c r : Nat) : Word :=
  if r = spIdx c then sysEff s c (spNum (plOf (getCore s c))) (secOf (getCore s c))
  else tget 0 r (getCore s c).a

/-- A[r] ← v. -/
def aSet (s : State) (c r : Nat) (v : Word) : State :=
  if r = spIdx c then sysForce s c (spNum (plOf (getCore s c))) (secOf (getCore s c)) (trunc c v)
  else setCore s c { getCore s c with a := tset 0 r (trunc c v) (getCore s c).a }

/-- Q[r]. -/
def qGet (s : State) (c r : Nat) : QWord := tget 0 r (getCore s c).q

/-- Q[r] ← v. -/
def qSet (s : State) (c r : Nat) (v : QWord) : State :=
  setCore s c { getCore s c with q := tset 0 r v (getCore s c).q }

/-- BKb: the copy of the world the access reaches (R59, R63). -/
def bkGet (s : State) (c b : Nat) : Word := sysGet s c (0x010 + b) (accWorld s c)

/-- The address register that names the link of a long call (R54, R88). -/
def linkIdx (c : Nat) : Nat := if c = mpCore then 6 else 14

/-! ### Debug enables and event counting (R508, R509, R538 to R541) -/

/-- DBGAUTH.EFF (R508). -/
def dbgEff (s : State) : Nat :=
  let e := s.dbgFuse &&& s.dbgPolicy
  let e := if e.testBit 3 then e ||| 4 else e
  if e.testBit 1 then e ||| 1 else e

/-- The non-invasive enable of world w (R509). -/
def nonInvasive (s : State) (w : Bool) : Bool := (dbgEff s).testBit (if w then 2 else 0)

/-- The invasive enable of world w (R509). -/
def invasive (s : State) (w : Bool) : Bool := (dbgEff s).testBit (if w then 3 else 1)

/-- Whether an event at core c counts: the conditions of R540 apart from the level. -/
def countOk (s : State) (c : Nat) : Bool :=
  let k := getCore s c
  let filt := sysEff s c 0x932 false
  let w := secOf k
  nonInvasive s w && !(if w then bit filt 2 else bit filt 1) &&
  (!(bit filt 3) || (decide (plOf k ≤ 1) && bit (sysEff s c 0x500 w) 0 &&
    fld (sysEff s c 0x421 w) 63 48 == fld filt 63 48))

/-- CNTn of core c plus one, with its wrap: to the chained counter above, or to OVF (R538). -/
def bumpCnt (s : State) (c : Nat) : Nat → Nat → State
  | 0, _ => s
  | fuel + 1, n =>
    let v := fld (sysGet s c (0x910 + n) false) 47 0
    if v + 1 < 2 ^ 48 then sysSet s c (0x910 + n) false (BitVec.ofNat 64 (v + 1))
    else
      let s := sysSet s c (0x910 + n) false 0
      if n < 7 ∧ (n + 1) % 2 = 1 ∧ bit (sysEff s c (0x920 + (n + 1)) false) 31 ∧
          (fld (sysEff s c 0x930 false) 7 0).testBit (n + 1) then
        bumpCnt s c fuel (n + 1)
      else sysSet s c 0x931 false (sysGet s c 0x931 false ||| BitVec.ofNat 64 (2 ^ n))

/-- Event ev happens once at core c, or if `really` says so: every counter set to it counts (R540, R541). Acdar-M cores have no event
counters. -/
def countIf (s : State) (c ev : Nat) (really : Bool) : State :=
  if c = mpCore then s
  else if countOk s c then
    (List.range 8).foldl (fun s n =>
      let cfg := sysEff s c (0x920 + n) false
      let en := (fld (sysEff s c 0x930 false) 7 0).testBit n
      let chained := n % 2 == 1 && bit cfg 31
      if en && !chained && fld cfg 9 0 == ev && (fld cfg 27 24).testBit (plOf (getCore s c)) && really then bumpCnt s c 2 n else s) s
  else s

/-- Event ev happens once at core c. -/
def countEvent (s : State) (c ev : Nat) : State := countIf s c ev true

/-- Event ev happens n times at core c. -/
def countTimes (s : State) (c ev n : Nat) : State := (List.range n).foldl (fun s _ => countEvent s c ev) s

/-- An event that a branch predictor or an L1 cache decides, at an address (R541): free (log entry 104). -/
def countFree (s : State) (c ev addr : Nat) : State := countIf s c ev (Config.freeEvent ev c addr s.freeCtr)

/-- Pipeline steps: n of them retire at core c; STEPS counts them while CNTCTL.FIXEN is 1 (R138, R540; log entry 89 for the management
processor). -/
def countSteps (s : State) (c n : Nat) : State :=
  if c ≠ mpCore ∧ bit (sysEff s c 0x930 false) 24 ∧ countOk s c then
    sysSet s c 0x901 false (sysGet s c 0x901 false + BitVec.ofNat 64 n)
  else s

/-- The new pipeline steps an instruction of core c takes, and the state that has counted them (R138): a free number, at least one when
the step under way has retired its 6 instructions. -/
def retireSteps (s : State) (c : Nat) : State :=
  let k := getCore s c
  let f := Config.freeSteps s.freeCtr
  let n := if k.stepLeft = 0 then max 1 f else f
  countSteps (setCore { s with freeCtr := s.freeCtr + 1 } c { k with stepLeft := if n = 0 then k.stepLeft - 1 else 5 }) c n

/-! ### Exceptions (R69 to R80) -/

/-- The level an exception names: the local target, or a level (R69, R80). -/
inductive ExcTgt where
  | local_
  | pl (n : Nat)
  deriving DecidableEq, Repr

/-- What an exception saves (R71, R79, R80). `next` says that EPC is the following instruction's address. -/
structure Exc where
  cls : Nat
  tgt : ExcTgt := .local_
  s2 : Bool := false
  wnr : Bool := false
  deferred : Bool := false
  level : Nat := 7
  detail : Nat := 0
  eaddr : Word := 0
  ephys : Word := 0
  eipa : Word := 0
  next : Bool := false
  deriving DecidableEq, Repr

/-- The local target: PL1 from PL0, else the current level. -/
def localTgt (k : Core) : Nat := if plOf k = 0 then 1 else plOf k

/-- The target level: never below the current level (R69). -/
def excTarget (k : Core) (t : ExcTgt) : Nat :=
  match t with
  | .local_ => localTgt k
  | .pl n => max n (plOf k)

/-- The vector offset (R70). -/
def vecOff (cls : Nat) (deferred same : Bool) : Nat :=
  if cls = 0x04 ∨ cls = 0x05 ∨ cls = 0x06 then 0x000
  else if cls = 0x40 then 0x300
  else if deferred then 0x400
  else if same then 0x100
  else 0x200

/-- ESYN (R79). -/
def esynOf (e : Exc) : Word :=
  BitVec.ofNat 64 (e.cls * 2 ^ 56 + e.s2.toNat * 2 ^ 55 + e.wnr.toNat * 2 ^ 54 + e.deferred.toNat * 2 ^ 53 +
    (e.level % 8) * 2 ^ 50 + e.detail % 2 ^ 32)

/-- CSTAT on entry to level t (R71 step 5). -/
def entryCstat (old : Word) (t : Nat) : Word :=
  let v := setFld (setFld (setFld (setFld (setFld old 1 0 t) 4 4 1) 5 5 1) 6 6 0) 7 7 0
  if t = 3 then setFld v 2 2 1 else v

/-- The reservation is lost (R118). -/
def dropResv (s : State) (c : Nat) : State := setCore s c { getCore s c with resv := none }

/-- A switch of world into PL3, or out of it to the normal world: the predictors that steer execution are invalidated (R157,
R501); the atomic placement predictor is kept. -/
def dropPredictors (s : State) (c : Nat) : State := setCore s c { getCore s c with bpValid := false }

/-- Core c takes exception e with EPC epc (R71). -/
def takeExcAt (s : State) (c : Nat) (e : Exc) (epc : Word) (esyn : Word) : State :=
  let k := getCore s c
  let t := excTarget k e.tgt
  let w := secOf k
  let blk := t * 0x100
  let fromNormal := t == 3 && !w
  let s := countEvent s c 0x012
  let s := sysSet s c (blk + 2) w k.cstat
  let s := sysSet s c (blk + 1) w (trunc c epc)
  let s := sysSet s c (blk + 3) w esyn
  let s := sysSet s c (blk + 4) w (trunc c e.eaddr)
  let s := if c = mpCore then s else sysSet s c (blk + 5) w e.ephys
  let s := if t = 2 ∧ e.s2 then sysSet s c (blk + 6) w e.eipa else s
  let base := sysEff s c blk w
  let s := setCore s c { getCore s c with
    cstat := entryCstat k.cstat t
    pc := trunc c (base + BitVec.ofNat 64 (vecOff e.cls e.deferred (t == plOf k)))
    stale := []
    served := []
    asked := []
    atSent := false
    fails := 0 }
  let s := if fromNormal then dropPredictors (dropResv s c) c else s
  s

/-- Core c takes a synchronous exception (R71): EPC is the instruction's own address, or the following one's where the class
says so. -/
def takeExc (s : State) (c : Nat) (e : Exc) : State :=
  takeExcAt s c e (if e.next then (getCore s c).pc + 4 else (getCore s c).pc) (esynOf e)

/-- UNDEF with the instruction word (R65, R80). -/
def undef (word : Nat) : Exc := { cls := 0x01, detail := word }

/-- Whether the saved status of the current level may not be returned to (R73). -/
def eretIllegal (s : State) (c : Nat) : Bool :=
  let k := getCore s c
  let cur := plOf k
  let st := sysGet s c (cur * 0x100 + 2) (secOf k)
  decide (fld st 1 0 > cur) || (fld st 1 0 == 3 && !(bit st 2)) || (decide (cur < 3) && bit st 2 != secOf k)

/-- The return from an exception (R73): PC and CSTAT come from EPC and ESTAT of the current level, the reservation is lost, and
writes that waited for a context synchronisation take effect. -/
def returnExc (s : State) (c : Nat) : State :=
  let k := getCore s c
  let cur := plOf k
  let w := secOf k
  let st := sysGet s c (cur * 0x100 + 2) w
  let s := setCore s c { k with
    resv := none
    pc := sysGet s c (cur * 0x100 + 1) w
    cstat := st
    stale := []
    served := []
    asked := []
    atSent := false
    fails := 0 }
  if cur = 3 ∧ bit st 2 = false then dropPredictors s c else s

/-- An instruction of core c retires and the PC takes pc' : its steps and itself are counted, and while CSTAT.SS was 1 STEP is
raised at the next instruction (R74, R138). -/
def retireAt (s : State) (c : Nat) (pc' : Word) : State :=
  let ss := bit (getCore s c).cstat 7
  let s := countEvent s c 0x003
  let s := if c = mpCore then s else retireSteps s c
  let s := setCore s c { getCore s c with pc := trunc c pc', fails := 0, served := [], asked := [], atSent := false, bpValid := true }
  if ss then takeExcAt s c { cls := 0x32 } (getCore s c).pc (esynOf { cls := 0x32 }) else s

/-- An instruction retires and the next one follows it. -/
def retire (s : State) (c : Nat) : State := retireAt s c ((getCore s c).pc + 4)

/-! ### Packets -/

/-- The stop of a holder (R274, R309). -/
def holderStop (h : Nat) : StopId :=
  if h < 240 then ⟨h / 20, h % 20⟩ else if h = 0xF0 then ⟨12, 17⟩ else ⟨12, 22⟩

/-- The stop of core c: its core stop, or hub stop 19 for the management processor (R309). -/
def coreStop (c : Nat) : StopId := if c = mpCore then ⟨12, 19⟩ else ⟨c / 20, c % 20⟩

/-- The home stop of slice 8h + k (R309). -/
def homeStop (h k : Nat) : StopId := ⟨h, 20 + k⟩

/-- What the oldest instruction of core c asked for and got is dropped: the next one, or the next group of a block-repeat, asks anew. -/
def dropFills (s : State) (c : Nat) : State := setCore s c { getCore s c with served := [], asked := [] }

/-- What core c's oldest instruction got of a line is dropped: the core has stored to it. -/
def dropFill (s : State) (c line : Nat) : State :=
  setCore s c { getCore s c with served := (getCore s c).served.filter (fun f => f.line != line) }

/-- The stream of a packet within its OTAG (R314): one for each class, stream 0 for DEV accesses (R227); which streams carry the others
is the model's choice (log entry 93). -/
def streamOf (p : Packet) : Nat :=
  match p.cls with
  | .q => if p.cmd = .devRd ∨ p.cmd = .devWr then 0 else 1
  | .h => 2
  | .b => 3
  | .g => 4

/-- A packet is sent with URG 0 (R314): it joins the packets in flight, behind those sent before it (R229). -/
def send (s : State) (p : Packet) : State :=
  { s with
    net := s.net ++ [{ p with since := s.ptime.toNat, urg := 0, stream := streamOf p, ord := s.sendNo }]
    sendNo := s.sendNo + 1 }

/-- The first packet in flight that satisfies f, wherever it stands, and the state without it. -/
def takeAny (f : Packet → Bool) (s : State) : Option (Packet × State) :=
  match s.net.find? f with
  | some p => some (p, { s with net := s.net.erase p })
  | none => none

/-- A fresh transaction ID (R312). -/
def newTxid (s : State) : Nat × State := (s.txNext % 0x10000, { s with txNext := s.txNext + 1 })

/-- The transaction is outstanding at its source stop (R576). -/
def addOutst (s : State) (o : Outst) : State := { s with outst := o :: s.outst }

/-- The transaction of a stop is complete. -/
def delOutst (s : State) (st : StopId) (tx : Nat) : State :=
  { s with outst := s.outst.filter (fun o => !(o.stop == st && o.txid == tx)) }

/-- Where the answer to a DEV read of an element is kept: by address and operand, since each element access is performed once (R98). -/
def devKey (pa opnd : Nat) : Nat := pa * 2 + opnd

end Sys2Proof.Machine
end

