-- ==== Sys2Proof/Machine/Map.lean ====
section
/-! DEFINITION. The physical address map (R26 to R30), the populated DRAM (R27), the home hash (R373, R394), the CXL windows
(R392, R393) and the world filters (R492 to R495). -/
namespace Sys2Proof.Machine

open Sys2Proof

/-- What a physical address names (R26). `off` is the offset within the package's slot or window. -/
inductive PaKind where
  | dram (pkg off : Nat)
  | cxl (pkg off : Nat)
  | lowDev (off : Nat)
  | pcie (pkg off : Nat)
  | regWin (pkg off : Nat)
  | unmapped
  deriving DecidableEq, Repr

/-- The map of R26. The local register window names this package. -/
def paKind (s : State) (pa : Nat) : PaKind :=
  if 0xE0000000 ≤ pa ∧ pa < 0x100000000 then .lowDev (pa - 0xE0000000)
  else if pa < 0x1000000000000 then
    let p := pa / 0x400000000000
    let o := pa % 0x400000000000
    if o < 0x100000000000 then .dram p o else .cxl p (o - 0x100000000000)
  else if pa < 0xE000000000000 then .unmapped
  else if pa < 0xF000000000000 then
    .pcie ((pa - 0xE000000000000) / 0x400000000000) ((pa - 0xE000000000000) % 0x400000000000)
  else if 0xFF80000000000 ≤ pa ∧ pa < 0xFFC0000000000 then
    .regWin ((pa - 0xFF80000000000) / 0x10000000000) ((pa - 0xFF80000000000) % 0x10000000000)
  else if 0xFFF0000000000 ≤ pa ∧ pa < 0x10000000000000 then .regWin s.pkg (pa - 0xFFF0000000000)
  else .unmapped

/-- MCSTAT.STATE of channel ch: 2 is IN_SERVICE (R384). -/
def chState (s : State) (ch : Nat) : Nat := rgF s .mcstat ch 1 0

/-- NC, the channels in service (R372, MEMHASH). -/
def memNC (s : State) : Nat := rgF s .memhash 0 28 24

/-- NH, the homes not fenced (MEMHASH). -/
def memNH (s : State) : Nat := rgF s .memhash 0 23 20

/-- C in bytes (MEMHASH.CAP is in GiB). -/
def memC (s : State) : Nat := rgF s .memhash 0 19 10 * 0x40000000

/-- The channels the hash uses, in ascending order: those in service when MEMHASH was written (R373, R374). -/
def hashChannels (s : State) : List Nat := s.hashChs

/-- The homes the CXL hash uses, in ascending order (R394). -/
def hashHomes (s : State) : List Nat := s.hashHomes

/-- Whether an offset of package p's DRAM slot is populated, when that package has `top` bytes of DRAM (R27). -/
def populatedIn (p top off : Nat) : Bool :=
  if p = 0 ∧ top > 0xE0000000 then
    decide (off < top + 0x20000000) && !(decide (0xE0000000 ≤ off) && decide (off < 0x100000000))
  else decide (off < top)

/-- Whether offset off of this package's DRAM slot is populated (R27). -/
def dramPopulated (s : State) (off : Nat) : Bool := populatedIn s.pkg (memNC s * memC s) off

/-- The populated DRAM of another package, in bytes (log entry 92). -/
def peerTop (s : State) (p : Nat) : Nat := tget 0x100000000000 p s.peerDram

/-- The CXL window that decides an address: the lowest-numbered enabled one that holds it (R392, R393). -/
def cxlWindow (s : State) (pa : Nat) : Option Nat :=
  (List.range 16).find? (fun n =>
    let b := rg s .cxlwbase n
    let base := fld b 51 28 * 0x10000000
    let size := rgF s .cxlwctl n 63 46 * 0x10000000
    bit b 0 && decide (base ≤ pa) && decide (pa < base + size))

/-- The lane group a CXL line goes to (R392). -/
def cxlTarget (s : State) (n pa : Nat) : Nat :=
  let c := rg s .cxlwctl n
  let base := rgF s .cxlwbase n 51 28 * 0x10000000
  let ig := fld c 45 43
  let iw := fld c 42 41
  let j := ((pa - base) >>> (8 + ig)) % 2 ^ iw
  fld c (5 * j + 4) (5 * j)

/-- Whether an address is populated memory of this package: DRAM, or CXL inside an enabled window (R27, R393). -/
def isLocalMem (s : State) (pa : Nat) : Bool :=
  match paKind s pa with
  | .dram p off => p == s.pkg && dramPopulated s off
  | .cxl p _ => p == s.pkg && (cxlWindow s pa).isSome
  | _ => false

/-- Whether an address is memory of another admitted package (R26, R27, R304). -/
def isRemoteMem (s : State) (pa : Nat) : Bool :=
  match paKind s pa with
  | .dram p off => p != s.pkg && s.admitted.contains p && populatedIn p (peerTop s p) off
  | .cxl p _ => p != s.pkg && s.admitted.contains p
  | _ => false

/-- Whether an address lies in a device or register window (R190, R193). -/
def isDevPa (s : State) (pa : Nat) : Bool :=
  match paKind s pa with
  | .lowDev _ => true
  | .pcie p _ => p == s.pkg || s.admitted.contains p
  | .regWin p _ => p == s.pkg || s.admitted.contains p
  | _ => false

/-- The other package an address lies in, if any (R26). -/
def pkgOfPa (s : State) (pa : Nat) : Option Nat :=
  let away := fun (p : Nat) => if p = s.pkg then none else some p
  match paKind s pa with
  | .dram p _ => away p
  | .cxl p _ => away p
  | .pcie p _ => away p
  | .regWin p _ => away p
  | .lowDev _ => away 0
  | _ => none

/-- A packet for another package goes to the remote agent first (R304, R317). -/
def toAgent (s : State) (m : Packet) : Packet := { m with dst := ⟨12, 22⟩, dpkg := pkgOfPa s m.addr }

/-- The other package a holder number names (R304). -/
def holderPkg (s : State) (h : Nat) : Option Nat := if 0xF8 ≤ h ∧ h < 0xFC ∧ h ≠ 0xF8 + s.pkg then some (h - 0xF8) else none

/-- fold6 of R373. -/
def fold6 (x : Nat) : Nat :=
  (bitsOf x 5 0) ^^^ (bitsOf x 11 6) ^^^ (bitsOf x 17 12) ^^^ (bitsOf x 23 18) ^^^ (bitsOf x 29 24) ^^^ (bitsOf x 35 30)

/-- Where a line lives: home, slice within the home, L3 set, directory set, channel (24 for a CXL line), channel address. -/
structure HomeLoc where
  home : Nat
  slice : Nat
  l3set : Nat
  dirset : Nat
  ch : Nat
  ca : Nat
  deriving DecidableEq, Repr

/-- The computation of R373 from the memory offset M, the list of units and the low bit of x. -/
def hashOf (key m : Nat) (units : List Nat) (cxl : Bool) : HomeLoc :=
  let n := units.length
  let u := m >>> 8
  let q := u / n
  let r := u % n
  let f := fold6 (q ^^^ key)
  let ch := units.getD ((r + f) % n) 0
  let ca := q * 256 + m % 256
  let x := (ca >>> 6) * 2 + (if cxl then 0 else ch % 2)
  { home := if cxl then ch else ch / 2
    slice := (bitsOf x 2 0) ^^^ (bitsOf x 5 3) ^^^ (bitsOf x 8 6)
    l3set := (x >>> 3) % 12288
    dirset := (x >>> 3) % 5120
    ch := if cxl then 24 else ch
    ca := ca }

/-- The home of a physical address of this package's memory (R373, R394). -/
def homeLoc (s : State) (pa : Nat) : HomeLoc :=
  let key := rgF s .memhash 0 63 32
  match paKind s pa with
  | .dram _ off =>
    let top := memNC s * memC s
    let m := if s.pkg = 0 ∧ off ≥ top ∧ off < top + 0x20000000 then 0xE0000000 + (off - top) else off
    hashOf key m (hashChannels s) false
  | .cxl _ off => hashOf key off (hashHomes s) true
  | _ => ⟨0, 0, 0, 0, 24, 0⟩

/-- The home location of a line. -/
def lineLoc (s : State) (line : Nat) : HomeLoc := homeLoc s (line * 64)

/-! ### The management processor's map (R594) -/

/-- Where a management processor address lies. -/
inductive MpPlace where
  | sram | rom | flash | loc | window (pa : Nat) | none_
  deriving DecidableEq, Repr

/-- The map of R594. -/
def mpPlace (s : State) (a : Nat) : MpPlace :=
  if a < 0x100000 then .sram
  else if 0x10000000 ≤ a ∧ a < 0x10010000 then .rom
  else if 0x20000000 ≤ a ∧ a < 0x24000000 then .flash
  else if 0x40000000 ≤ a ∧ a < 0x40010000 then .loc
  else if 0x80000000 ≤ a ∧ a < 0x100000000 then .window (s.mpwin * 0x80000000 + (a - 0x80000000))
  else .none_

/-! ### World filters -/

/-- The rights a request needs (R495). -/
structure Rights where
  nr : Bool
  nw : Bool
  deriving DecidableEq, Repr

/-- Whether an enabled region (base register, limit register) contains an address (R493, R495). -/
def regionHas (b l : Word) (pa : Nat) : Bool :=
  bit b 0 && decide (fld b 51 12 ≤ pa / 4096) && decide (pa / 4096 ≤ fld l 51 12)

/-- A filter's answer to a normal-world request: every enabled region that contains the address allows it (R495). -/
def filterAllows (s : State) (base lim : RegName) (idx : Nat) (pa : Nat) (r : Rights) : Bool :=
  (List.range 32).all (fun n =>
    let b := rg s base (idx * 32 + n)
    let l := rg s lim (idx * 32 + n)
    !(regionHas b l pa) || ((!r.nr || bit l 0) && (!r.nw || bit l 1)))

/-- Whether the filter that checks an address lets the request through (R492, R495): a home's for the memory it homes, the
hub's for the PCIe and CXL.io slot and the low device window. -/
def worldAllows (s : State) (world : Bool) (pa : Nat) (r : Rights) : Bool :=
  world ||
  (match paKind s pa with
   | .dram _ _ => filterAllows s .wfbase .wflim (homeLoc s pa).home pa r
   | .cxl _ _ => filterAllows s .wfbase .wflim (homeLoc s pa).home pa r
   | .pcie _ _ => filterAllows s .hubWfbase .hubWflim 0 pa r
   | .lowDev _ => filterAllows s .hubWfbase .hubWflim 0 pa r
   | _ => true)

end Sys2Proof.Machine
end

