-- ==== Sys2Proof/Machine/Ras.lean ====
section
/-! DEFINITION. Error logs (R578 to R581), the counting window of R255, raising a wired interrupt source, and a core's error
registers (R575, R584). -/
namespace Sys2Proof.Machine

open Sys2Proof

/-- PTIME as a number of ticks. -/
def now (s : State) : Nat := s.ptime.toNat

/-- The ticks of operation in POUR (R150). -/
def pourTime (s : State) : Nat := now s - s.pw.outTotal - (s.pw.outSince.elim 0 (fun t => now s - t))

/-- One day in ticks: the length of the window of R255. -/
def windowTicks : Nat := 86400000000000

/-- The window rule of R255: a counted error joins the open window, or opens a new one. -/
def winAdd (t : Nat) (w : WayWin) : WayWin :=
  if w.count = 0 ∨ t ≥ w.opened + windowTicks then ⟨1, t⟩ else ⟨w.count + 1, w.opened⟩

/-- A wired interrupt source is raised: its PEND is set (R520), and it reaches the management processor (R596). -/
def raiseSrc (s : State) (n : Nat) : State := setRgF { s with mpPend := s.mpPend ||| 2 ^ n } .intsrc n 1 1 1

/-- Which log: a stack's correctable-error or event log, or the hub's. -/
inductive LogId where
  | ce (s : Nat) | ev (s : Nat) | hubCe | hubEv
  deriving DecidableEq, Repr

/-- The registers of a log: status, A, B, T, the index of entry 0 and the size. -/
def logRegs : LogId → RegName × RegName × RegName × RegName × Nat × Nat × Nat
  | .ce s => (.celogstat, .celogA, .celogB, .celogT, s, s * 16, 16)
  | .ev s => (.evlogstat, .evlogA, .evlogB, .evlogT, s, s * 8, 8)
  | .hubCe => (.hubCelogstat, .hubCelogA, .hubCelogB, .hubCelogT, 0, 0, 32)
  | .hubEv => (.hubEvlogstat, .hubEvlogA, .hubEvlogB, .hubEvlogT, 0, 0, 16)

/-- The error word A of R580 without VALID and REPEAT. -/
def logKey (kind unit way : Nat) : Nat := (kind % 256) * 2 ^ 48 + (unit % 256) * 2 ^ 40 + (way % 256) * 2 ^ 32

/-- An error enters a log (R579): REPEAT of the entry of the same KIND, UNIT and ADDR, or entry NEXT. -/
def logErr (s : State) (l : LogId) (kind unit way addr : Nat) : State :=
  let (st, ra, rb, rt, si, base, size) := logRegs l
  let s := incRgF s st si 63 32
  let hit := (List.range size).find? (fun n =>
    let a := rg s ra (base + n)
    bit a 63 && fld a 55 48 == kind % 256 && fld a 47 40 == unit % 256 && fld (rg s rb (base + n)) 51 0 == addr % 2 ^ 52)
  let s := match hit with
    | some n => incRgF s ra (base + n) 61 56
    | none =>
      let n := rgF s st si 4 0
      let s := if bit (rg s ra (base + n)) 63 then incRgF s st si 31 16 else s
      let s := setRg s ra (base + n) (BitVec.ofNat 64 (2 ^ 63 + logKey kind unit way))
      let s := setRg s rb (base + n) (BitVec.ofNat 64 (addr % 2 ^ 52))
      let s := setRg s rt (base + n) s.ptime
      setRgF s st si 4 0 ((n + 1) % size)
  match l with
  | .ce k => raiseSrc s (32 * k + 3)
  | .hubCe => raiseSrc s 919
  | _ => s

/-- Writing LOGCLR (R580): every entry, OVERFLOW and NEXT are cleared; TOTAL stays. -/
def clearLog (s : State) (l : LogId) : State :=
  let (st, ra, rb, rt, si, base, size) := logRegs l
  let s := (List.range size).foldl (fun s n =>
    setRg (setRg (setRg s ra (base + n) 0) rb (base + n) 0) rt (base + n) 0) s
  setRgF (setRgF s st si 31 16 0) st si 4 0 0

/-- An error is recorded in a core's ERRSTAT bit and ERRADDR (R575). -/
def coreErr (s : State) (c b pa : Nat) : State :=
  if c = mpCore then s
  else
    let s := sysSet s c 0x611 false (setFld (sysGet s c 0x611 false) b b 1)
    sysSet s c 0x612 false (BitVec.ofNat 64 (pa % 2 ^ 52))

/-- A core reaches its retirement threshold: ERRSTAT.THRESH and RETSTAT.THRESH (R584). -/
def coreThreshold (s : State) (c : Nat) : State :=
  if c = mpCore then s
  else
    let s := sysSet s c 0x611 false (setFld (sysGet s c 0x611 false) 3 3 1)
    setRgF s .retstat (c / 20) (c % 20) (c % 20) 1

/-- A core stops (R162): it executes nothing more until the next reset that includes it; its stack's core-stopped source is
raised, the stop is logged, and the core has reached its threshold. -/
def stopCore (s : State) (c : Nat) : State :=
  let k := getCore s c
  if k.stopped then s
  else
    let s := setCore s c { k with stopped := true, acc := none, bar := none, waiting := false }
    if c = mpCore then s
    else
      let s := raiseSrc s (32 * (c / 20))
      let s := logErr s (.ev (c / 20)) 0x20 (c % 20) 0 0
      coreThreshold s c

end Sys2Proof.Machine
end

