-- ==== Sys2Proof/Machine/Mem.lean ====
section
/-! DEFINITION. Memory behind the homes: the DRAM and CXL lines with their poison code (R375 to R379), inline encryption (R385 to
R387), the channels' error logs (R383, R384), and the L3 slices with their partitions, victims and way retirement (R247 to
R258). -/
namespace Sys2Proof.Machine

open Sys2Proof

/-! ### Stored lines -/

/-- The 64 bytes stored at a line, as one number, byte 0 least significant. -/
def memRaw (s : State) (line : Nat) : LineData :=
  BitVec.ofNat 512 (ofBytesLE ((List.range 64).map (fun i => tget 0 (line * 64 + i) s.dram)))

/-- The 64 bytes of a line replaced. -/
def memRawSet (s : State) (line : Nat) (d : LineData) : State :=
  { s with dram := (List.range 64).foldl (fun m i => tset 0 (line * 64 + i) (lineByte d i) m) s.dram }

/-- Whether a stored line carries the poison code (R377). -/
def memPoison (s : State) (line : Nat) : Bool := tget false line s.poisoned

/-- The poison code of a stored line is set or cleared. -/
def setMemPoison (s : State) (line : Nat) (b : Bool) : State := { s with poisoned := tset false line b s.poisoned }

/-- The key of a KEYID (R388). -/
def memKey (s : State) (k : Nat) : MemKey := tget {} k s.keys

/-- Whether a KEYID may be used: 0, or loaded (R387). -/
def keyUsable (s : State) (k : Nat) : Bool := k == 0 || (memKey s k).loaded

/-- A line's bytes. -/
def lineBytes (d : LineData) : List Byte := (List.range 64).map (lineByte d)

/-- The line of 64 bytes. -/
def ofLineBytes (l : List Byte) : LineData := BitVec.ofNat 512 (ofBytesLE l)

/-- The bytes a controller stores for a line (R385). -/
def encryptLine (s : State) (line k : Nat) (d : LineData) : LineData :=
  if k = 0 then d
  else ofLineBytes (xtsEnc (bytesLE 32 (memKey s k).k1.toNat) (bytesLE 32 (memKey s k).k2.toNat) line (lineBytes d))

/-- The line a controller delivers from the bytes it stores (R385). -/
def decryptLine (s : State) (line k : Nat) (d : LineData) : LineData :=
  if k = 0 then d
  else ofLineBytes (xtsDec (bytesLE 32 (memKey s k).k1.toNat) (bytesLE 32 (memKey s k).k2.toNat) line (lineBytes d))

/-! ### Channel error logs -/

/-- The correctable-error threshold is judged (R384): THR, the service condition it feeds, and the channel's memory-error
source. -/
def judgeCethr (s : State) (ch : Nat) : State :=
  if rgF s .mccestat ch 3 3 = 0 ∧ rgF s .mccestat ch 31 16 ≥ rgF s .mcctl ch 31 16 then
    raiseSrc (setRgF s .mccestat ch 3 3 1) (32 * (ch / 2) + 4 + ch % 2)
  else s

/-- The entry word of MCCELOG and MCUELOG without VALID and REPEAT. -/
def mcEntry (scrub : Bool) (dev line sub rank : Nat) : Nat :=
  scrub.toNat * 2 ^ 62 + (dev % 16) * 2 ^ 52 + (line % 2 ^ 46) * 64 + (sub % 2) * 32 + (rank % 16) * 2

/-- A correctable error of channel ch is counted and logged (R376, R383, R384). -/
def chCorrected (s : State) (ch line sub dev rank : Nat) (scrub : Bool) : State :=
  let s := incRgF s .mccestat ch 63 32
  let w := winAdd (now s) (tget {} (3 * 65536 + ch) s.wayWin)
  let s := { s with wayWin := tset {} (3 * 65536 + ch) w s.wayWin }
  let s := setRgF s .mccestat ch 31 16 (min w.count 65535)
  let hit := (List.range 8).find? (fun n =>
    bit (rg s .mccelog (ch * 8 + n)) 63 && rgF s .mccelog (ch * 8 + n) 51 6 == line % 2 ^ 46)
  let s := match hit with
    | some n => incRgF s .mccelog (ch * 8 + n) 61 56
    | none =>
      let n := rgF s .mccestat ch 2 0
      let s := if bit (rg s .mccelog (ch * 8 + n)) 63 then incRgF s .mccestat ch 15 8 else s
      let s := setRg s .mccelog (ch * 8 + n) (BitVec.ofNat 64 (2 ^ 63 + mcEntry scrub dev line sub rank))
      setRgF s .mccestat ch 2 0 ((n + 1) % 8)
  judgeCethr s ch

/-- An uncorrectable error of channel ch (R378): the line gets the poison code, MCUELOG records it, and the channel's
memory-error source is raised. -/
def chUncorrectable (s : State) (ch line sub dev rank : Nat) (scrub : Bool) : State :=
  let s := setMemPoison s line true
  let s := incRgF s .mcstat ch 47 32
  let old := rg s .mcuelog ch
  let rep := if bit old 63 then satInc 6 (fld old 61 56) else 0
  let s := setRg s .mcuelog ch (BitVec.ofNat 64 (2 ^ 63 + rep * 2 ^ 56 + mcEntry scrub dev line sub rank))
  raiseSrc s (32 * (ch / 2) + 4 + ch % 2)

/-- A controller's read of a stored line (R376 to R378): its bytes and whether they are marked poisoned. For a CXL line the
device reports its own errors (R395). -/
def chRead (s : State) (line : Nat) (e : Ecc) (scrub : Bool) : LineData × Bool × State :=
  let loc := lineLoc s line
  let sub := (loc.ca >>> 6) % 2
  let d := memRaw s line
  if memPoison s line ∧ (e = .clean ∨ 24 ≤ loc.ch) then
    (d, true, if loc.ch < 24 then incRgF s .mcstat loc.ch 63 48 else s)
  else if memPoison s line then
    (match e with
     | .uncorrectable dev rank => (d, true, chUncorrectable s loc.ch line sub dev rank scrub)
     | .corrected dev rank => (d, true, chUncorrectable s loc.ch line sub dev rank scrub)
     | .clean => (d, true, s))
  else
    match e with
    | .clean => (d, false, s)
    | .corrected dev rank => (d, false, if loc.ch < 24 then chCorrected s loc.ch line sub dev rank scrub else s)
    | .uncorrectable dev rank =>
      (d, true, if loc.ch < 24 then chUncorrectable s loc.ch line sub dev rank scrub else s)

/-- What a read of memory answers: data with its poison mark, or an error completion. -/
structure LineRead where
  data : LineData := 0
  poison : Bool := false
  err : Bool := false
  deriving DecidableEq, Repr

/-- Whether a line lies on a channel taken out of service while the package runs (R631). -/
def chLost (s : State) (line : Nat) : Bool := decide ((lineLoc s line).ch < 24) && chState s (lineLoc s line).ch == 3

/-- Whether the device of a CXL line cannot be reached: no root port of the lane group its window names for it (R392) is up. -/
def cxlDead (s : State) (line : Nat) : Bool :=
  match cxlWindow s (line * 64) with
  | none => false
  | some n =>
    let g := cxlTarget s n (line * 64)
    !(rgF s .lgctl g 2 0 == 1 && (List.range 4).any (fun k =>
      (tget {} (4 * g + k) s.rports : Rport).st == 1 || (tget {} (4 * g + k) s.rports : Rport).st == 2))

/-- Whether memory answers an access of a line under a KEYID (R387, R395, R631). -/
def memAnswers (s : State) (line k : Nat) : Bool := keyUsable s k && !(chLost s line) && !(cxlDead s line)

/-- A read of memory by a home under a KEYID (R385, R387). -/
def memRead (s : State) (line k : Nat) (e : Ecc) : LineRead × State :=
  if !(memAnswers s line k) then ({ err := true }, s)
  else
    let (d, p, s) := chRead s line e false
    ({ data := decryptLine s line k d, poison := p }, s)

/-- A write of a whole line to memory under a KEYID (R379, R385); where memory does not answer, it completes with error and
nothing is written (R387, R395). -/
def memWrite (s : State) (line k : Nat) (d : LineData) (poison : Bool) : State :=
  if !(memAnswers s line k) then s
  else setMemPoison (memRawSet s line (encryptLine s line k d)) line poison

/-! ### L3 -/

/-- Whether home h looks its L3 up: enabled, or flushing (R259, R262). -/
def l3Use (s : State) (h : Nat) : Bool := bit (rg s .l3ctl h) 0 || bit (rg s .l3stat h) 3

/-- Whether home h installs in its L3 (R259, R262). -/
def l3Installs (s : State) (h : Nat) : Bool := bit (rg s .l3ctl h) 0

/-- The L3's copy of a line. -/
def l3Line (s : State) (line : Nat) : L3Line := tget {} line s.l3

/-- The L3's copy of a line replaced. -/
def setL3 (s : State) (line : Nat) (x : L3Line) : State := { s with l3 := tset {} line x s.l3 }

/-- Whether way w of a slice takes part in no install: disabled, or its retirement walk is due or running (R256, R258). -/
def wayOff (s : State) (h slice w : Nat) : Bool :=
  (fld (rg s .l3way (h * 8 + slice)) 15 0).testBit w ||
  (tget [] h s.walks).contains (.wayRetire slice w) || tget none h s.walkRun == some (.wayRetire slice w)

/-- The mask an install uses (R251, R253): none when the request may not install. -/
def installMask (s : State) (h part : Nat) (world : Bool) : Nat :=
  let m := rg s .pmask (h * 16 + part)
  if bit m 32 && !world then
    let m0 := rg s .pmask (h * 16)
    if bit m0 32 then 0 else fld m0 15 0
  else fld m 15 0

/-- The lines an L3 set holds. -/
def l3SetLines (s : State) (loc : HomeLoc) : List (Nat × L3Line) :=
  s.l3.filter (fun p => p.2.valid &&
    (let l := lineLoc s p.1; l.home == loc.home && l.slice == loc.slice && l.l3set == loc.l3set))

/-- One step of the LFSR of R254. -/
def lfsrStep (x : Nat) : Nat :=
  let b := (x.testBit 15) ^^ (x.testBit 13) ^^ (x.testBit 12) ^^ (x.testBit 10)
  ((x <<< 1) ||| b.toNat) % 65536

/-- The LFSR of slice 8h + k (R254). -/
def l3LfsrOf (s : State) (h k : Nat) : Nat := tget (0xACE1 ^^^ (8 * h + k)) (8 * h + k) s.l3Lfsr

/-- The victim rule of R254 over the ways of c, `used` of which hold valid lines: the way, and the register after it. -/
def chooseWay (c used : List Nat) (lfsr : Nat) : Nat × Nat :=
  match c.find? (fun w => !(used.contains w)) with
  | some w => (w, lfsr)
  | none =>
    let x := lfsrStep lfsr
    (c.getD (x % c.length) 0, x)

/-- An error of a way: kind 0 an L3 slice, 1 a directory slice, 2 the hub I/O cache (R255, R273, R282). A corrected error is
counted; the eighth in a window, or an uncorrectable one, makes the retirement walk due (R256). -/
def wayError (s : State) (kind h slice way : Nat) (ue : Bool) : State :=
  let key := kind * 65536 + (h * 8 + slice) * 16 + way
  let w := winAdd (now s) (tget {} key s.wayWin)
  let s := if ue then s else { s with wayWin := tset {} key w s.wayWin }
  let walk := if kind = 1 then WalkKind.dirRetire slice way else WalkKind.wayRetire slice way
  let off := if kind = 1 then (fld (rg s .dirway (h * 8 + slice)) 15 0).testBit way
    else if kind = 2 then (fld (rg s .hioway 0) 15 0).testBit way
    else (fld (rg s .l3way (h * 8 + slice)) 15 0).testBit way
  let due := (tget [] h s.walks).contains walk || tget none h s.walkRun == some walk
  if (ue || decide (w.count ≥ 8)) && !off && !due then
    { s with walks := tset [] h (tget [] h s.walks ++ [walk]) s.walks }
  else s

/-- A read of the L3's valid copy of a line, with what its check bits show (R255). -/
def l3ReadHit (s : State) (line : Nat) (e : Ecc) : LineRead × State :=
  let x := l3Line s line
  let loc := lineLoc s line
  match e with
  | .clean => ({ data := x.data, poison := x.poison }, s)
  | .corrected _ _ =>
    ({ data := x.data, poison := x.poison },
      logErr (wayError s 0 loc.home loc.slice x.way false) (.ce loc.home) 0x08 loc.slice x.way (line * 64))
  | .uncorrectable _ _ =>
    let s := setL3 s line { x with poison := true }
    ({ data := x.data, poison := true },
      logErr (wayError s 0 loc.home loc.slice x.way true) (.ev loc.home) 0x12 loc.slice x.way (line * 64))

/-- A dirty L3 copy is written to memory and kept clean, with what the check bits show as it is read (R255, R256). -/
def l3Clean (s : State) (line : Nat) (e : Ecc) : State :=
  if (l3Line s line).valid && (l3Line s line).dirty then
    let (r, s) := l3ReadHit s line e
    let x := l3Line s line
    setL3 (memWrite s line x.keyid r.data r.poison) line { x with dirty := false }
  else s

/-- A line is installed in the L3 of its home where a way qualifies (R248, R249, R251): a dirty victim is read and goes to memory
first. Answers whether it was installed. -/
def l3Install (s : State) (line : Nat) (d : LineData) (poison dirty : Bool) (k part : Nat) (world : Bool) (f : Findings) : Bool × State :=
  let loc := lineLoc s line
  let mask := installMask s loc.home part world
  let c := (List.range 16).filter (fun w => mask.testBit w && !(wayOff s loc.home loc.slice w))
  if !(l3Installs s loc.home) || c.isEmpty then (false, s)
  else
    let set := l3SetLines s loc
    let key := 8 * loc.home + loc.slice
    let (w, x) := chooseWay c (set.map (fun p => p.2.way)) (l3LfsrOf s loc.home loc.slice)
    let s := { s with l3Lfsr := tset (0xACE1 ^^^ key) key x s.l3Lfsr }
    let s := match set.find? (fun p => p.2.way == w) with
      | some (vl, _) => setL3 (l3Clean s vl f.victim) vl {}
      | none => s
    (true, setL3 s line { valid := true, way := w, dirty := dirty, poison := poison, data := d, keyid := k })

/-- Both copies of a tag of an L3 set are lost (R571): the entry is invalidated, its way retired and the loss logged. -/
def l3TagLost (s : State) (line way : Nat) : State :=
  let loc := lineLoc s line
  let s := (l3SetLines s loc).foldl (fun s p => if p.2.way = way then setL3 s p.1 {} else s) s
  logErr (wayError s 0 loc.home loc.slice way true) (.ev loc.home) 0x13 loc.slice way loc.l3set

/-- The tags of every way of a line's set are read at a lookup (R255): one corrected is counted and logged, one lost in both copies
costs its entry. A home that does not look its L3 up reads none (R259). -/
def l3Lookup (s : State) (line : Nat) (f : Findings) : State :=
  let loc := lineLoc s line
  if !(l3Use s loc.home) then s
  else
    let s := match f.l3Tag with
      | some w => logErr (wayError s 0 loc.home loc.slice w false) (.ce loc.home) 0x08 loc.slice w
          (match (l3SetLines s loc).find? (fun p => p.2.way == w) with
           | some (l, _) => l * 64
           | none => loc.l3set)
      | none => s
    match f.tagLost with
    | some w => l3TagLost s line w
    | none => s

/-- "L3/mem" of R286: the line from the L3 that holds it, else from memory, installed where R251 lets it. -/
def llcRead (s : State) (line k part : Nat) (world : Bool) (f : Findings) : LineRead × State :=
  let loc := lineLoc s line
  let s := l3Lookup s line f
  if l3Use s loc.home && (l3Line s line).valid then l3ReadHit s line f.l3
  else
    let (r, s) := memRead s line k f.mem
    if r.err then (r, s)
    else (r, (l3Install s line r.data r.poison false k part world f).2)

/-- A write that reaches the home (R248, R379): bytes of mask, whole lines included. What it merges with is read, from the L3 or from
memory. -/
def llcWrite (s : State) (line : Nat) (d : LineData) (mask : Nat) (poison : Bool) (k part : Nat) (world : Bool) (f : Findings) : State :=
  let loc := lineLoc s line
  let full := mask == 2 ^ 64 - 1
  let s := l3Lookup s line f
  if l3Use s loc.home && (l3Line s line).valid then
    let s := if full then s else (l3ReadHit s line f.l3).2
    let x := l3Line s line
    setL3 s line { x with
      data := lineMerge x.data d mask
      poison := if full then poison else x.poison || poison
      dirty := true }
  else
    let (r, s) := if full then (({ data := d, poison := poison } : LineRead), s)
      else
        let (r, s) := memRead s line k f.mem
        ({ r with data := lineMerge r.data d mask, poison := r.poison || poison }, s)
    if r.err then s
    else
      let (inst, s) := l3Install s line r.data r.poison true k part world f
      if inst then s else memWrite s line k r.data r.poison

/-- The L3 copy is invalidated. -/
def l3Inval (s : State) (line : Nat) : State := setL3 s line {}

/-- The value of a line at its home, L3 before memory, with its poison mark: what a read would deliver, without effect. -/
def llcPeek (s : State) (line k : Nat) : LineRead :=
  let loc := lineLoc s line
  let x := l3Line s line
  if l3Use s loc.home && x.valid then { data := x.data, poison := x.poison }
  else if !(memAnswers s line k) then { err := true }
  else { data := decryptLine s line k (memRaw s line), poison := memPoison s line }

end Sys2Proof.Machine
end

