-- ==== Sys2Proof/Machine/Wire.lean ====
section
/-! DEFINITION. Packets as units: the command codes and their classes (R313), the header unit (R312), the ordering tag's hash (R318),
and the frame of a Sprue link with its CRC (R338 to R340). -/
namespace Sys2Proof.Machine

open Sys2Proof

/-- CMD of R313. TINV_BC, TIME, PWR, HLOG and IRQ included. -/
def cmdCode : Cmd → Nat
  | .rds => 0x01
  | .rdx => 0x02
  | .upg => 0x03
  | .puts => 0x04
  | .pute => 0x05
  | .putf => 0x06
  | .putm => 0x07
  | .puto => 0x08
  | .far => 0x09
  | .rdc => 0x0A
  | .wrc => 0x0B
  | .cmoCln => 0x0C
  | .cmoFls => 0x0C
  | .cmoInv => 0x0C
  | .cas64 => 0x0D
  | .devRd => 0x0E
  | .devWr => 0x0F
  | .tinvBc => 0x10
  | .fwdS => 0x20
  | .fwdX => 0x21
  | .inv => 0x22
  | .rclC => 0x23
  | .rclI => 0x24
  | .dataS => 0x28
  | .dataF => 0x29
  | .dataE => 0x2A
  | .dataM => 0x2B
  | .comp => 0x2C
  | .fwdDone => 0x2D
  | .invAck => 0x2E
  | .rclAck => 0x2F
  | .wbAck => 0x30
  | .wbStale => 0x31
  | .farRsp => 0x32
  | .rdRsp => 0x33
  | .wrCmp => 0x34
  | .errRsp => 0x35
  | .time => 0x60
  | .pwr => 0x61
  | .hlog => 0x62
  | .fence => 0x63
  | .irq => 0x64

/-- The listed commands of class Q, but CMO, and of class G (R313). -/
def cmdsQG : List Cmd :=
  [.rds, .rdx, .upg, .puts, .pute, .putf, .putm, .puto, .far, .rdc, .wrc, .cas64, .devRd, .devWr, .tinvBc, .time, .pwr, .hlog,
   .fence, .irq]

/-- The listed commands of class H (R313). -/
def cmdsH : List Cmd :=
  [.fwdS, .fwdX, .inv, .rclC, .rclI, .dataS, .dataF, .dataE, .dataM, .comp, .fwdDone, .invAck, .rclAck, .wbAck, .wbStale,
   .farRsp, .rdRsp, .wrCmp, .errRsp]

/-- The command of a CMD value and a CMO kind; none where the value is reserved (R313). -/
def cmdOf (code cmo : Nat) : Option Cmd :=
  if code = 0x0C then (if cmo = 0 then some .cmoCln else if cmo = 1 then some .cmoFls else if cmo = 2 then some .cmoInv else none)
  else (cmdsQG ++ cmdsH).find? (fun c => cmdCode c == code)

/-- The data units of a packet (LEN, R313). -/
def pktLen (p : Packet) : Nat :=
  match p.cmd with
  | .putm => 2
  | .puto => 2
  | .far => 1
  | .wrc => if p.mask = 2 ^ 64 - 1 then 2 else 1
  | .cas64 => 1
  | .devWr => 1
  | .tinvBc => 1
  | .dataS => 2
  | .dataF => 2
  | .dataE => 2
  | .dataM => 2
  | .rclAck => if p.dirty then 2 else 0
  | .farRsp => 1
  | .rdRsp => 2
  | .time => 1
  | .hlog => 2
  | _ => 0

/-- CLASS of R312. -/
def clsCode : PClass → Nat
  | .g => 0
  | .h => 1
  | .q => 2
  | .b => 3

/-- OTAG of R312: the source package, die and stop, and the stream. -/
def otag (pkg : Nat) (p : Packet) : Nat :=
  let st := p.osrc.getD p.src
  (p.spkg.getD pkg % 4) * 2 ^ 14 + (st.die % 16) * 2 ^ 10 + (st.stop % 64) * 16 + p.stream % 16

/-- The OTAG hash of R318: the XOR of the four 4-bit groups. -/
def otagHash (pkg : Nat) (p : Packet) : Nat :=
  let t := otag pkg p
  bitsOf t 3 0 ^^^ bitsOf t 7 4 ^^^ bitsOf t 11 8 ^^^ bitsOf t 15 12

/-- A stop named by package, die and stop in 12 bits. -/
def stopCode (pkg : Nat) (st : StopId) : Nat := (pkg % 4) * 2 ^ 10 + (st.die % 16) * 64 + st.stop % 64

/-- The package of the requester a snoop names. -/
def reqPkg (pkg : Nat) (p : Packet) : Nat := if 0xF8 ≤ p.arg ∧ p.arg < 0xFC then p.arg - 0xF8 else pkg

/-- ARG of R313. -/
def argOf (pkg : Nat) (p : Packet) : Nat :=
  match p.cmd with
  | .fwdS => stopCode (reqPkg pkg p) p.req * 65536 + p.reqTxid % 65536
  | .fwdX => stopCode (reqPkg pkg p) p.req * 65536 + p.reqTxid % 65536
  | .inv => stopCode (reqPkg pkg p) p.req * 65536 + p.reqTxid % 65536
  | .rclC => stopCode (reqPkg pkg p) p.req * 65536 + p.reqTxid % 65536
  | .rclI => stopCode (reqPkg pkg p) p.req * 65536 + p.reqTxid % 65536
  | .fwdDone => (match p.kept with | .s => 1 | .o => 2 | _ => 0) * 2 ^ 18 + p.r.toNat * 65536 + (if p.r then p.putId % 65536 else 0)
  | .far => p.aq.toNat * 2 ^ 10 + p.rl.toNat * 2 ^ 9 + (p.aop % 16) * 4 + (if p.size = 8 then 3 else 2)
  | .farRsp => p.contended.toNat
  | .comp => p.contended.toNat
  | .cmoFls => 1
  | .cmoInv => 2
  | .time => p.inj % 2 ^ 32
  | .pwr => p.inj % 2 ^ 32
  | .hlog => p.inj % 2 ^ 32
  | .fence => p.inj % 2 ^ 32
  | .irq => p.inj % 2 ^ 32
  | _ => 0

/-- The header unit of R312 for a packet in package pkg. -/
def headerUnit (pkg : Nat) (p : Packet) : BitVec 256 :=
  BitVec.ofNat 256
    ((p.dpkg.getD pkg % 4) * 2 ^ 254 + ((p.odst.getD p.dst).die % 16) * 2 ^ 250 + ((p.odst.getD p.dst).stop % 64) * 2 ^ 244 + p.dir.toNat * 2 ^ 243 + p.turned.toNat * 2 ^ 242 +
      otag pkg p * 2 ^ 226 + clsCode p.cls * 2 ^ 224 + (p.urg % 16) * 2 ^ 220 + pktLen p * 2 ^ 218 + cmdCode p.cmd * 2 ^ 210 +
      (p.txid % 65536) * 2 ^ 194 + p.world.toNat * 2 ^ 193 + (p.partid % 16) * 2 ^ 189 + (p.keyid % 2048) * 2 ^ 178 +
      p.poison.toNat * 2 ^ 177 + (p.addr % 2 ^ 52) * 2 ^ 125 + (if p.cmd = .wrc then p.mask % 2 ^ 64 else 0) * 2 ^ 61 +
      argOf pkg p % 2 ^ 61)

/-- The content of unit idx of a packet: the header, then the data units, low half of the line first. -/
def unitContent (pkg : Nat) (u : RUnit) : BitVec 256 :=
  if u.idx = 0 then headerUnit pkg u.pkt else u.pkt.data.extractLsb' (256 * (u.idx - 1)) 256

/-- The sideband byte of a DATA unit (R339). -/
def sideband (u : RUnit) : BitVec 8 := BitVec.ofNat 8 (1 * 64 + clsCode u.pkt.cls * 16 + (if u.idx = 0 then 8 else 0))

/-- One bit of the CRC of R340. -/
def crcBit (crc : BitVec 16) (b : Bool) : BitVec 16 := (crc >>> 1) ^^^ (if crc.getLsbD 0 != b then 0x8408 else 0)

/-- The CRC of R340 over a sequence number, a sideband byte and 256 content bits. -/
def sprueCrc (seq : Nat) (sb : BitVec 8) (content : BitVec 256) : BitVec 16 :=
  let c := (List.range 9).foldl (fun c i => crcBit c (seq.testBit i)) 0xFFFF
  let c := (List.range 8).foldl (fun c i => crcBit c (sb.getLsbD i)) c
  (List.range 256).foldl (fun c i => crcBit c (content.getLsbD i)) c

/-- The 280 bits of a unit on the wire: content, sideband, CRC. -/
def frameOf (pkg : Nat) (u : RUnit) : BitVec 280 :=
  let c := unitContent pkg u
  let sb := sideband u
  BitVec.ofNat 280 (c.toNat + sb.toNat * 2 ^ 256 + (sprueCrc (u.seq % 512) sb c).toNat * 2 ^ 264)

/-- Whether a received frame passes at an end that expects sequence number n (R339, R340): its CRC agrees, and KIND is not 0b11. -/
def framePasses (n : Nat) (f : BitVec 280) : Bool :=
  let sb : BitVec 8 := f.extractLsb' 256 8
  decide (sprueCrc (n % 512) sb (f.extractLsb' 0 256) = f.extractLsb' 264 16) && sb.extractLsb' 6 2 != 3

/-- The bit time of a unit at w active quarters, and the quarter of full width, that carry what the active quarter of rank r carries
in bit time t (R338). -/
def quarterOf (w t r : Nat) : Nat := t * w + r

end Sys2Proof.Machine
end

