-- ==== Sys2Proof/Machine/Stops.lean ====
section
/-! DEFINITION. Stops of the fabric as packets meet them: fenced, bypassed and held stops (R320, R333), power domains behind stops
and their ingress (R330 to R332, R546), and injection in class G under the token buckets (R319, R323). -/
namespace Sys2Proof.Machine

open Sys2Proof

/-! ### Stop states -/

/-- FSTOPn of a stop. -/
def fstopOf (st : StopId) : RegName × Nat := if st.die < 12 then (.fstop, st.die * 32 + st.stop) else (.hubFstop, st.stop)

/-- FSTOPn.STATE of a stop: 0 ACTIVE, 1 BYPASS_PENDING, 2 BYPASS, 3 REJOIN, 4 FENCED (R333). -/
def stopState (s : State) (st : StopId) : Nat := rgF s (fstopOf st).1 (fstopOf st).2 2 0

/-- FSTOPn.STATE set. -/
def setStopState (s : State) (st : StopId) (x : Nat) : State := setRgF s (fstopOf st).1 (fstopOf st).2 2 0 x

/-- FSTOPn.INGRESS: 0 OPEN, 1 CLOSING, 2 CLOSED, 3 HELD (R330 to R332). -/
def ingress (s : State) (st : StopId) : Nat := rgF s (fstopOf st).1 (fstopOf st).2 9 8

/-- FSTOPn.INGRESS set. -/
def setIngress (s : State) (st : StopId) (x : Nat) : State := setRgF s (fstopOf st).1 (fstopOf st).2 9 8 x

/-- Whether packets for a stop are dealt with under R320: the stop is FENCED, or its stack is fenced (R356, R638). -/
def stopDead (s : State) (st : StopId) : Bool :=
  stopState s st == 4 || (decide (st.die < 12) && tget false st.die s.fencedStk)

/-- Whether traffic for a stop is held at its sources (R333). -/
def stopHeld (s : State) (st : StopId) : Bool := stopState s st == 1 || stopState s st == 2

/-- FABSTAT of a die. -/
def fabstatOf (die : Nat) : RegName × Nat := if die < 12 then (.fabstat, die) else (.hubFabstat, 0)

/-- A FABSTAT field of a die counts one more. -/
def incFab (s : State) (die hi lo : Nat) : State := incRgF s (fabstatOf die).1 (fabstatOf die).2 hi lo

/-- The event log of a die. -/
def evLog (die : Nat) : LogId := if die < 12 then .ev die else .hubEv

/-- Whether a packet expects an answer (R320): every command of class Q except PUTS and IRQ, and the snoops. -/
def wantsAnswer (c : Cmd) : Bool :=
  decide (cmdCode c ≤ 0x24) && c != .puts

/-! ### Routes and links, as packets in flight meet them -/

/-- One hop on a ring of 32 stops from a towards b: the direction with fewer hops, ascending when they are equal (R315). -/
def ringHop (a b : Nat) : Nat :=
  let d := (b + 32 - a % 32) % 32
  if d = 0 then a else if d ≤ 16 then (a + 1) % 32 else (a + 31) % 32

/-- The next stop of a packet from `cur` (R315 to R317); none at its destination. -/
def nextHop (p : Packet) (cur : StopId) : Option StopId :=
  if cur.die = p.dst.die then (if cur.stop = p.dst.stop then none else some ⟨cur.die, ringHop cur.stop p.dst.stop⟩)
  else if cur.die = 12 then (if cur.stop = p.dst.die then some ⟨p.dst.die, 29⟩ else some ⟨12, ringHop cur.stop p.dst.die⟩)
  else if p.dst.die = 12 ∨ p.detour then
    (if cur.stop = 29 then some ⟨12, cur.die⟩ else some ⟨cur.die, ringHop cur.stop 29⟩)
  else if cur.stop = 28 then some ⟨if p.dir then (cur.die + 11) % 12 else (cur.die + 1) % 12, 28⟩
  else some ⟨cur.die, ringHop cur.stop 28⟩

/-- Where a packet now waits: a stop, or its source. -/
def whereIs (p : Packet) : StopId := p.at_.getD p.src

/-- The last live stop on a packet's way from `cur` to its fenced destination. -/
def liveUpTo (s : State) (p : Packet) : Nat → StopId → StopId
  | 0, cur => cur
  | fuel + 1, cur =>
    match nextHop p cur with
    | none => cur
    | some n => if stopDead s n then cur else liveUpTo s p fuel n

/-- The stop that deals with a packet for a fenced stop (R320): the last live one on its path. -/
def lastLive (s : State) (p : Packet) : StopId := liveUpTo s p 64 (whereIs p)

/-- A packet meets its fenced destination (R320): ERR_RSP to its source, or it is dropped and counted. -/
def fencedPacket (s : State) (p : Packet) : State :=
  if wantsAnswer p.cmd && p.cls != .g then
    send s {
      cmd := .errRsp, src := lastLive s p, dpkg := p.spkg, odst := p.osrc, dst := p.src, cls := if p.cls = .b then .b else .h, txid := p.txid, world := p.world,
      partid := p.partid, keyid := p.keyid, addr := p.addr, holder := p.holder }
  else incFab s (lastLive s p).die 23 16

/-! ### Order in flight (R229, R318) -/

/-- The end at the other side of a link. -/
def peerEnd (n : Nat) : Nat :=
  if n ≥ 36 then 3 * (n - 36) + 2
  else if n % 3 = 0 then 3 * ((n / 3 + 1) % 12) + 1
  else if n % 3 = 1 then 3 * ((n / 3 + 11) % 12)
  else 36 + n / 3

/-- An end of a link. -/
def linkEnd (s : State) (n : Nat) : LinkEnd := tget {} n s.ends

/-- An end replaced. -/
def setEnd (s : State) (n : Nat) (x : LinkEnd) : State := { s with ends := tset {} n x s.ends }

/-- The packets end n has taken from its ring that the other end has not accepted yet. -/
def onLink (s : State) (n : Nat) : List Packet :=
  let e := linkEnd s n
  let r := (linkEnd s (peerEnd n)).rxNext
  (e.riser.filter (fun u => u.last && decide ((u.seq + 512 - r) % 512 < 256))).map (·.pkt) ++ e.txq

/-- Whether a packet was sent before another of the same OTAG and destination, which cannot overtake it (R229, R318). -/
def sentBefore (q p : Packet) : Bool :=
  decide (q.ord < p.ord) && q.src == p.src && q.stream == p.stream && q.dst == p.dst && q.spkg == p.spkg && q.osrc == p.osrc && q.dpkg == p.dpkg

/-- Whether a packet may be taken in at its destination: no earlier one of its OTAG for that stop is still on its way (R229, R318), and
the stop is not one whose traffic is held at its sources (R333). -/
def mayLand (s : State) (p : Packet) : Bool :=
  !(stopHeld s p.dst) && !((s.net ++ s.parked).any (fun q => sentBefore q p)) &&
  !((List.range 48).any (fun n => (onLink s n).any (fun q => sentBefore q p)))

/-- The first packet in flight that satisfies f and may be taken in, and the state without it. -/
def takePacket (f : Packet → Bool) (s : State) : Option (Packet × State) := takeAny (fun p => f p && mayLand s p) s

/-- A packet goes back to the head of those in flight. -/
def putBack (s : State) (p : Packet) : State := { s with net := p :: s.net }

/-! ### Domains -/

/-- The stop in front of a domain (R310, R546). -/
def domStop (d : Nat) : Option StopId :=
  if d < 240 then some ⟨d / 20, d % 20⟩
  else if 0x1A4 ≤ d ∧ d < 0x1A8 then some ⟨12, d - 0x1A4 + 12⟩
  else if d = 0x1A8 then some ⟨12, 16⟩
  else if d = 0x1A9 then some ⟨12, 23⟩
  else if d = 0x1AA then some ⟨12, 17⟩
  else if d = 0x1AB then some ⟨12, 22⟩
  else none

/-- The domain behind a stop, where it is not always on. -/
def stopDom (st : StopId) : Option Nat :=
  if st.die < 12 then (if st.stop < 20 then some (st.die * 20 + st.stop) else none)
  else if 12 ≤ st.stop ∧ st.stop < 16 then some (0x1A4 + (st.stop - 12))
  else if st.stop = 16 then some 0x1A8
  else if st.stop = 23 then some 0x1A9
  else if st.stop = 17 then some 0x1AA
  else if st.stop = 22 then some 0x1AB
  else none

/-- DSTATEd.STATE: 0 RUN, 1 HOLD, 2 BANK, 3 OFF, 4 CLOSING, 5 WAKING, 7 no such domain. -/
def domState (s : State) (d : Nat) : Nat := rgF s .dstate d 2 0

/-- A domain's state set, with the ingress its stop shows (R330, R332). -/
def setDom (s : State) (d x : Nat) : State :=
  let s := setRgF s .dstate d 2 0 x
  match domStop d with
  | some st => setIngress s st (if x = 0 then 0 else if x = 4 then 1 else if x = 5 then 3 else 2)
  | none => s

/-- A power-down that meets a packet while the ingress is CLOSING is aborted (R331); a domain command under way ends in
PWR_ABORTED (R547). -/
def abortClose (s : State) (d : Nat) : State :=
  let s := setDom s d 0
  let s := match domStop d with
    | some st => incFab s st.die 15 0
    | none => s
  match s.pw.dom with
  | some (e, _) => if e = d then setRgF { s with pw := { s.pw with dom := none } } .domstat 0 7 0 3 else s
  | none => s

/-- A packet reaches the stop of its domain: whether it comes in at once, and the state (R327, R331, R332). A closing domain is opened
again; past its point of no return, or out of RUN, the packet is parked and a wake on demand requested. -/
def meetIngress (s : State) (p : Packet) : Bool × State :=
  let park : State := { s with parked := s.parked ++ [p] }
  match (if p.cls = .g then none else stopDom p.dst) with
  | none => (true, s)
  | some d =>
    let x := domState s d
    if x = 0 ∨ 5 < x then (true, s)
    else if x = 4 ∧ ingress s p.dst = 1 then (true, abortClose s d)
    else if x = 4 then (false, setIngress park p.dst 3)
    else (false, setDom park d 5)

/-- A domain is wanted (R331, R332): a closing one opens again, or wakes once closed; one in HOLD or BANK wakes on demand. -/
def wakeDom (s : State) (d : Nat) : State :=
  if domState s d = 4 then
    match domStop d with
    | some st => if ingress s st = 1 then abortClose s d else setIngress s st 3
    | none => s
  else if domState s d = 1 ∨ domState s d = 2 then setDom s d 5
  else s

/-- A domain is again in RUN (R332): its ingress opens, and the parked packets come in, in their order of arrival. -/
def reopenDom (s : State) (d : Nat) : State :=
  match domStop d with
  | none => setDom s d 0
  | some st =>
    let ps := s.parked.filter (fun p => p.dst == st)
    setDom { s with parked := s.parked.filter (fun p => p.dst != st), net := s.net ++ ps } d 0

/-! ### Class G -/

/-- A key for a stop. -/
def stopKey (st : StopId) : Nat := st.die * 64 + st.stop

/-- The tokens of a G source (R323). -/
def tokensOf (s : State) (st : StopId) : Nat := tget 4 (stopKey st) s.tokens

/-- The copies a broadcast makes (R319): one for each stack for DDIE 0xF, one for each stop of a die for DSTOP 0x3F. -/
def copiesOf (p : Packet) : List Packet :=
  let dies := if p.dst.die = 15 then (List.range 12).map (fun d => { p with dst := ⟨d, p.dst.stop⟩ }) else [p]
  if p.dst.stop = 0x3F then dies.flatMap (fun q => (List.range 32).map (fun u => { q with dst := ⟨q.dst.die, u⟩ })) else dies

/-- A G packet is injected: INJ is taken now (R313). -/
def inject (s : State) (p : Packet) : State :=
  (copiesOf p).foldl (fun s q => send s { q with inj := now s % 2 ^ 32 }) s

/-- A packet is offered in class G (R323): with a token it is injected; without one an IRQ goes in class Q, and any other waits at its
source. -/
def sendG (s : State) (p : Packet) : State :=
  let t := tokensOf s p.src
  if t > 0 then inject { s with tokens := tset 4 (stopKey p.src) (t - 1) s.tokens } { p with cls := .g }
  else if p.cmd = .irq then send s { p with cls := .q }
  else incFab { s with gHeld := s.gHeld ++ [{ p with cls := .g }] } p.src.die 47 32

/-- A G packet reaches its stop (R328): an arrival later than the bound is counted and logged. -/
def gArrive (s : State) (p : Packet) : State :=
  let late := (now s + 2 ^ 32 - p.inj) % 2 ^ 32
  if p.cls = .g ∧ late > (if p.spkg.isSome then 2500 else 900) then
    raiseSrc (logErr (incFab s p.dst.die 63 48) (evLog p.dst.die) 0x1A p.dst.stop 0 late) 927
  else s

end Sys2Proof.Machine
end

