-- ==== Sys2Proof/Machine/Home.lean ====
section
/-! DEFINITION. The homes of the coherence protocol: directory, busy entries, and the handling of every request by directory
state (R278 to R287, R293, R294, R297 to R301). -/
namespace Sys2Proof.Machine

open Sys2Proof

/-! ### Directory entries -/

/-- The directory entry of a line; NONE when no holder has it (R279). -/
def dirGet (s : State) (line : Nat) : DirEntry := tget {} line s.dir

/-- The directory entry of a line replaced. -/
def dirSet (s : State) (line : Nat) (e : DirEntry) : State := { s with dir := tset {} line e s.dir }

/-- Whether an entry lists holder h (R279). -/
def lists (e : DirEntry) (h : Nat) : Bool :=
  if h < 240 then e.cores.getLsbD h else if h = 0xF0 then e.hio else e.pkg.getLsbD (h - 0xF8)

/-- The entry with holder h listed or not. -/
def setListed (e : DirEntry) (h : Nat) (b : Bool) : DirEntry :=
  if h < 240 then
    { e with cores := if b then e.cores ||| ((1 : BitVec 240) <<< h) else e.cores &&& ~~~((1 : BitVec 240) <<< h) }
  else if h = 0xF0 then { e with hio := b }
  else
    { e with pkg := if b then e.pkg ||| ((1 : BitVec 4) <<< (h - 0xF8)) else e.pkg &&& ~~~((1 : BitVec 4) <<< (h - 0xF8)) }

/-- The holders an entry lists, in ascending order of identifier. -/
def holdersOf (e : DirEntry) : List Nat :=
  (List.range 240).filter (fun h => e.cores.getLsbD h) ++ (if e.hio then [0xF0] else []) ++
  ((List.range 4).filter (fun p => e.pkg.getLsbD p)).map (· + 0xF8)

/-- Whether an entry has no holder left. -/
def noHolder (e : DirEntry) : Bool := e.cores == 0 && !e.hio && e.pkg == 0

/-- The entry of a line held by R alone, as owner (DX). -/
def entryDX (e : DirEntry) (r : Nat) : DirEntry := setListed { st := .dx, ptr := r, way := e.way } r true

/-- Normal form: an entry without holders is NONE. -/
def entryNorm (e : DirEntry) : DirEntry := if noHolder e then {} else e

/-- Whether holder h is fenced at home d (R301). -/
def fencedAt (s : State) (d h : Nat) : Bool := bit (rg s .hfence (d * 4 + h / 64)) (h % 64)

/-! ### Busy entries and packets of a home -/

/-- The busy entry of a line, if one is open. -/
def busyOf (s : State) (line : Nat) : Option Busy := tget none line s.busy

/-- The busy entry of a line opened, replaced or closed. -/
def setBusy (s : State) (line : Nat) (b : Option Busy) : State := { s with busy := tset none line b s.busy }

/-- The line a packet concerns. -/
def pLine (p : Packet) : Nat := p.addr / 64

/-- The stop of a line's home. -/
def lineStop (s : State) (line : Nat) : StopId := homeStop (lineLoc s line).home (lineLoc s line).slice

/-- The answer to a packet: from the line's home to the packet's source, under its TXID. -/
def answer (s : State) (m : Packet) (c : Cmd) : Packet :=
  { cmd := c, src := lineStop s (pLine m), dst := m.src, cls := if m.cls = .b then .b else .h, txid := m.txid,
    world := m.world, partid := m.partid, keyid := m.keyid, addr := m.addr, holder := m.holder, dpkg := m.spkg, odst := m.osrc }

/-- A snoop of holder h for request m (R283, R312): it carries the requester. -/
def snoop (s : State) (m : Packet) (c : Cmd) (h : Nat) : Packet :=
  { cmd := c, src := lineStop s (pLine m), dst := holderStop h, cls := .h, txid := m.txid, world := m.world,
    partid := m.partid, keyid := m.keyid, addr := m.addr, holder := h, req := m.src, reqTxid := m.txid, arg := m.holder,
    r := false, dpkg := holderPkg s h }

/-- Data sent to a requester by its home, with the state granted (R283). -/
def dataTo (s : State) (m : Packet) (c : Cmd) (st : HState) (r : LineRead) : Packet :=
  { answer s m c with data := r.data, poison := r.poison, kept := st }

/-- Completion of RDX or UPG (R283). -/
def compTo (s : State) (m : Packet) (contended : Bool) : Packet := { answer s m .comp with contended := contended }

/-- A reservation of another core is lost when a store touches its granule (R118, R233). -/
def breakResv (s : State) (by_ pa n : Nat) : State :=
  s.cores.foldl (fun s p =>
    match (getCore s p.1).resv with
    | some r =>
      if p.1 != by_ && decide (pa < r.base + r.size) && decide (r.base < pa + n) then dropResv s p.1 else s
    | none => s) s

/-- COMP is sent (R285). Ownership of another package's holder stands for its store: the reservations of this package on the granule are
lost with it (R118, R233, log entry 20). -/
def sendComp (s : State) (m : Packet) (contended : Bool) : State :=
  send (if m.holder ≥ 0xF8 then breakResv s 0xFE (pLine m * 64) 64 else s) (compTo s m contended)

/-- A fresh busy entry for request m. -/
def newBusy (m : Packet) : Busy :=
  { kind := .request, cur := m, await := [], fwd := none, timers := [], contended := false, got := none, gotSec := false,
    gotPart := 0, gotKey := 0, keptR := false, kept := .i, putIds := [], waiting := [], failed := false }

/-- Snoops c are sent to the holders of hs that are not fenced, each with its timer (R299, R301). -/
def sendSnoops (s : State) (m : Packet) (c : Cmd) (hs : List Nat) (b : Busy) : State × Busy :=
  let home := (lineLoc s (pLine m)).home
  let live := hs.filter (fun h => !(fencedAt s home h))
  (live.foldl (fun s h => send s (snoop s m c h)) s,
   { b with await := b.await ++ live, contended := b.contended || !live.isEmpty,
            timers := live.foldl (fun t h => tset 0 h (now s + 1) t) b.timers })

/-! ### Fencing a silent holder -/

/-- Holder h is fenced (R301): a fence notice goes in class G from stop src to every home and to the hub; a fenced core stops. -/
def fenceFrom (s : State) (src : StopId) (h : Nat) : State :=
  let p : Packet := { cmd := .fence, src := src, dst := ⟨15, 30⟩, cls := .g, holder := h }
  let s := sendG (sendG s p) { p with dst := ⟨12, 21⟩ }
  if h < 240 then stopCore s h else s

/-- A home fences holder h through its stack's control stop (R301). -/
def fenceHolder (s : State) (home h : Nat) : State := fenceFrom s ⟨home, 30⟩ h

/-- COHCTL.HTIMEOUT of a home, in ticks (R299). -/
def htimeout (s : State) (home : Nat) : Nat := rgF s .cohctl home 15 0 * 1000

/-- Whether a request is one for ownership. -/
def wantsM (c : Cmd) : Bool := c == .rdx || c == .upg

/-- Whether RDS by request m may be granted E (R286, R648): nobody else holds the line, and its world may write it. -/
def grantsE (s : State) (m : Packet) (e : DirEntry) : Bool :=
  noHolder e && worldAllows s m.world (pLine m * 64) ⟨false, true⟩

/-- The answer a request gets when a snoop made for it failed and every other one was answered (R300 step 2); the poisoned data of a
request for ownership has gone before. The entry is the one without the silent holder. -/
def poisonedAnswer (s : State) (m : Packet) (e : DirEntry) (d : LineData) (contended : Bool) : State :=
  let r : LineRead := { data := d, poison := true }
  match m.cmd with
  | .rds => if grantsE s m e then send s (dataTo s m .dataE .e r) else send s (dataTo s m .dataF .f r)
  | .rdx => sendComp s m contended
  | .upg => sendComp s m contended
  | .far => send s { dataTo s m .farRsp .i r with contended := contended }
  | .rdc => send s (dataTo s m .rdRsp .i r)
  | .wrc => send s { answer s m .wrCmp with poison := true }
  | .cmoCln => send s { answer s m .wrCmp with poison := true }
  | .cmoFls => send s { answer s m .wrCmp with poison := true }
  | .cmoInv => send s { answer s m .wrCmp with poison := true }
  | .cas64 => send s (answer s m .errRsp)
  | _ => s

/-- The entry without a holder that fell silent or whose copy is gone (R293, R300); it keeps its way while its transaction is open. -/
def entryWithout (e : DirEntry) (h : Nat) : DirEntry :=
  let e' := setListed e h false
  if (e.st = .dsf ∨ e.st = .dx ∨ e.st = .do_) ∧ e.ptr = h then { e' with st := .ds, ptr := 0 } else e'

/-- The entry a failed request reaches under R286 (R300 step 3), from the one without the silent holder. -/
def entryAfterFail (s : State) (e : DirEntry) (m : Packet) : DirEntry :=
  match m.cmd with
  | .rds => if grantsE s m e then entryDX e m.holder else setListed { e with st := .dsf, ptr := m.holder } m.holder true
  | .rdx => entryDX e m.holder
  | .upg => entryDX e m.holder
  | .rdc => entryNorm e
  | .cmoCln => entryNorm e
  | _ => {}

/-- R300 when the timer of a snoop expires, or its target is fenced: the line is written to memory with the poison code, an L3 copy is
marked poisoned, a request for ownership gets its poisoned data, the silent holder h leaves the entry and is fenced. The busy entry is
left marked: it ends when every other holder has answered (R285). -/
def failBusy (s : State) (line : Nat) (b : Busy) (h : Nat) : State :=
  let loc := lineLoc s line
  let raw := memRaw s line
  let s := setMemPoison s line true
  let s := if (l3Line s line).valid then setL3 s line { l3Line s line with poison := true } else s
  let s := if b.kind = .request ∧ wantsM b.cur.cmd ∧ !b.failed then
      send s (dataTo s b.cur .dataM .m { data := decryptLine s line b.cur.keyid raw, poison := true }) else s
  let s := dirSet s line (entryWithout (dirGet s line) h)
  let s := setBusy s line (some { b with
    failed := true, fwd := if b.fwd = some h then none else b.fwd, await := b.await.filter (fun x => x != h),
    timers := tset 0 h 0 b.timers })
  let s := incRgF s .cohstat loc.home 63 32
  let s := setRgF s .cohstat loc.home 15 8 h
  let s := setRg s .cohaddr loc.home (BitVec.ofNat 64 ((line % 2 ^ 46) * 64))
  let s := logErr s (.ev loc.home) 0x1D loc.slice h (line * 64)
  let s := raiseSrc s (32 * loc.home + 1)
  let s := { s with rangePois := [0, 1].foldl (fun t u => tset false u (tget false u t || rgF s .rmstat u 7 0 == 1) t) s.rangePois }
  fenceHolder s loc.home h

/-- A transaction that failed ends, every other holder having answered (R285, R300): its request gets its answer, and the entry is the
one it reaches; a recall leaves none. The busy entry stays for the caller to close. -/
def endFailed (s : State) (line : Nat) (b : Busy) : State :=
  match b.kind with
  | .request =>
    let e := dirGet s line
    let s1 := poisonedAnswer s b.cur e (decryptLine s line b.cur.keyid (memRaw s line)) b.contended
    dirSet s1 line (entryAfterFail s e b.cur)
  | _ => dirSet s line {}

/-! ### Atomic operations at the home -/

/-- The new memory value of an atomic operation (the table of chapter 03), for operands of w bits. -/
def atomicNew (aop w : Nat) (m x cmp : Nat) : Nat :=
  let mx := 2 ^ w
  match aop with
  | 0x0 => x % mx
  | 0x1 => (m + x) % mx
  | 0x2 => m &&& (x % mx)
  | 0x3 => m ||| (x % mx)
  | 0x4 => m ^^^ (x % mx)
  | 0x5 => if toSigned w m ≥ toSigned w (x % mx) then m else x % mx
  | 0x6 => if toSigned w m ≤ toSigned w (x % mx) then m else x % mx
  | 0x7 => max m (x % mx)
  | 0x8 => min m (x % mx)
  | 0x9 => if m = cmp % mx then x % mx else m
  | _ => m

/-- The agent a request comes from, by package and stop (R297): the cores of another package are told apart by their stops. -/
def senderKey (m : Packet) : Nat :=
  match m.spkg with
  | some p => (p + 1) * 65536 + stopKey (m.osrc.getD m.src)
  | none => stopKey m.src

/-- The core whose stop a packet comes from (R309); 0xFE where it is none. -/
def coreOfStop (st : StopId) : Nat :=
  if st.die < 12 ∧ st.stop < 20 then st.die * 20 + st.stop else if st = ⟨12, 19⟩ then mpCore else 0xFE

/-- The final act of a request once no copy stands in its way (R286): a far atomic (R294, R297), a read or write without
caching, a compare-and-swap (R203), maintenance. The entry is left to the caller. -/
def finishOp (s : State) (m : Packet) (contended : Bool) (f : Findings) : State :=
  let line := pLine m
  let off := m.addr % 64
  match m.cmd with
  | .far =>
    let (r, s) := llcRead s line m.keyid m.partid m.world f
    if r.err then send s (answer s m .errRsp)
    else
      let last := tget none line s.farLast
      let cont := contended || (match last with
        | some (c, t) => c != senderKey m && decide (now s < t + 1000)
        | none => false)
      let s := { s with farLast := tset none line (some (senderKey m, now s)) s.farLast }
      let old := lineGet r.data off m.size
      let bad := r.poison || m.poison
      let s := if bad then s
        else llcWrite s line (linePut 0 off m.size (atomicNew m.aop (8 * m.size) old m.opnd.toNat m.cmp.toNat))
          (byteMask off m.size) false m.keyid m.partid m.world {}
      let s := if bad then s else breakResv s (coreOfStop m.src) m.addr m.size
      send s { answer s m .farRsp with data := BitVec.ofNat 512 old, poison := bad, contended := cont }
  | .cas64 =>
    let (r, s) := llcRead s line m.keyid m.partid m.world f
    if r.err || r.poison || m.poison then send s { answer s m .errRsp with poison := r.poison || m.poison }
    else
      let old := lineGet r.data off 8
      if old = m.cmp.toNat then
        let s := llcWrite s line (linePut 0 off 8 m.opnd.toNat) (byteMask off 8) false m.keyid m.partid m.world {}
        send (breakResv s (coreOfStop m.src) m.addr 8) { answer s m .wrCmp with arg := 1 }
      else send s { answer s m .wrCmp with arg := 0 }
  | .rdc =>
    let (r, s) := llcRead s line m.keyid m.partid m.world f
    if r.err then send s (answer s m .errRsp) else send s (dataTo s m .rdRsp .i r)
  | .wrc =>
    if !(memAnswers s line m.keyid) && !((l3Line s line).valid && l3Use s (lineLoc s line).home) then send s (answer s m .errRsp)
    else
      let s := llcWrite s line m.data m.mask m.poison m.keyid m.partid m.world f
      send (breakResv s (coreOfStop m.src) (line * 64) 64) (answer s m .wrCmp)
  | .cmoCln =>
    let d := m.dirty || ((l3Line s line).valid && (l3Line s line).dirty)
    send (l3Clean (l3Lookup s line f) line f.l3) { answer s m .wrCmp with dirty := d }
  | .cmoFls => send (l3Inval (l3Clean (l3Lookup s line f) line f.l3) line) (answer s m .wrCmp)
  | .cmoInv => send (l3Inval s line) (answer s m .wrCmp)
  | _ => s

/-- Data a recall returned goes to the L3 or memory (R281, R286), from where CMO CLN sends it on to memory; CMO FLS writes memory alone,
CMO INV discards it. -/
def storeRecalled (s : State) (m : Packet) (b : Busy) : State :=
  let line := pLine m
  match b.got with
  | none => s
  | some (d, p) =>
    match m.cmd with
    | .cmoInv => s
    | .cmoFls => l3Inval (memWrite s line b.gotKey d p) line
    | _ => llcWrite s line d (2 ^ 64 - 1) p b.gotKey b.gotPart b.gotSec {}

/-! ### Requests -/

/-- The rights a request needs at the filter (R495); a PUT needs none (R648). -/
def rightsOf (m : Packet) (listed : Bool) : Rights :=
  match m.cmd with
  | .rds => ⟨true, false⟩
  | .rdc => ⟨true, false⟩
  | .cmoCln => ⟨true, false⟩
  | .rdx => ⟨true, true⟩
  | .upg => if listed then ⟨false, true⟩ else ⟨true, true⟩
  | .wrc => ⟨false, true⟩
  | .far => ⟨true, true⟩
  | .cas64 => ⟨true, true⟩
  | .cmoFls => ⟨true, true⟩
  | .cmoInv => ⟨true, true⟩
  | _ => ⟨false, false⟩

/-- Whether the retirement of a directory way is due or running (R256, R282): it gives the way no new entry. -/
def dirRetiring (s : State) (loc : HomeLoc) (w : Nat) : Bool :=
  (tget [] loc.home s.walks).contains (.dirRetire loc.slice w) || tget none loc.home s.walkRun == some (.dirRetire loc.slice w)

/-- The ways of a directory slice that may take entries. -/
def dirWays (s : State) (loc : HomeLoc) : List Nat :=
  (List.range 16).filter (fun w => !((fld (rg s .dirway (loc.home * 8 + loc.slice)) 15 0).testBit w) && !(dirRetiring s loc w))

/-- The lines with an entry in a directory set. -/
def dirSetLines (s : State) (loc : HomeLoc) : List (Nat × DirEntry) :=
  s.dir.filter (fun p => p.2.st != .none_ && isLocalMem s (p.1 * 64) &&
    (let l := lineLoc s p.1; l.home == loc.home && l.slice == loc.slice && l.dirset == loc.dirset))

/-- What allocation of a directory way finds: a free way, a victim to back-invalidate, or neither (R281). -/
inductive DirAlloc where
  | way (w : Nat) | victim (line : Nat) | none_
  deriving DecidableEq, Repr

/-- A way for a new entry of a line (R281), and the LFSR after the choice. -/
def dirAlloc (s : State) (line : Nat) : DirAlloc × State :=
  let loc := lineLoc s line
  let ways := dirWays s loc
  let set := dirSetLines s loc
  match ways.find? (fun w => !(set.any (fun p => p.2.way == w))) with
  | some w => (.way w, s)
  | none =>
    let cand := set.filter (fun p => (busyOf s p.1).isNone && ways.contains p.2.way)
    let cws := ways.filter (fun w => cand.any (fun p => p.2.way == w))
    if cws.isEmpty then (.none_, s)
    else
      let key := 8 * loc.home + loc.slice
      let x := lfsrStep (tget (0x1D0E ^^^ key) key s.dirLfsr)
      let w := cws.getD (x % cws.length) 0
      match cand.find? (fun p => p.2.way == w) with
      | some p => (.victim p.1, { s with dirLfsr := tset (0x1D0E ^^^ key) key x s.dirLfsr })
      | none => (.none_, s)

/-- The owner of a line, if it is fenced at the home: it counts as silent at once (R301). -/
def fencedOwner (s : State) (line : Nat) (owner : List Nat) : Option Nat := owner.find? (fun h => fencedAt s (lineLoc s line).home h)

/-- A transaction whose snoops are out: one whose owner is fenced goes on under R300 without waiting for it (R301). -/
def openBusy (s : State) (line : Nat) (b : Busy) (owner : List Nat) : State :=
  let s := setBusy s line (some b)
  match fencedOwner s line owner with
  | some p =>
    let s := failBusy s line b p
    if b.await.isEmpty ∧ b.fwd.isNone then setBusy (endFailed s line b) line none else s
  | none => s

/-- Recall of a line from every holder: RCL_I to the owner, INV to the others (R281). The busy entry's request keeps in
`reqTxid` the line of the request that waits for the way. -/
def recallAll (s : State) (line : Nat) (m : Packet) (kind : BusyKind) : State :=
  let e := dirGet s line
  let mm : Packet := { m with addr := line * 64, reqTxid := pLine m }
  let b : Busy := { newBusy mm with kind := kind }
  let owner := if e.st = .dx ∨ e.st = .do_ then [e.ptr] else []
  let rest := (holdersOf e).filter (fun h => !(owner.contains h))
  let (s, b) := sendSnoops s mm .rclI owner b
  let (s, b) := sendSnoops s mm .inv rest b
  openBusy s line b owner

/-- Requests that put R on record as a holder: RDS, RDX, UPG of a line that has no entry. -/
def startNone (s : State) (m : Packet) (f : Findings) (way : Nat) : State :=
  let line := pLine m
  let e0 : DirEntry := { way := way }
  let (r, s) := llcRead s line m.keyid m.partid m.world f
  if r.err then send s (answer s m .errRsp)
  else
    match m.cmd with
    | .rds =>
      if grantsE s m {} then
        send (dirSet s line (entryDX e0 m.holder)) (dataTo s m .dataE .e r)
      else
        send (dirSet s line (setListed { e0 with st := .dsf, ptr := m.holder } m.holder true)) (dataTo s m .dataF .f r)
    | _ =>
      sendComp (send (dirSet s line (entryDX e0 m.holder)) (dataTo s m .dataM .m r)) m false

/-- A request that needs a directory way whose set is full (R281): the victim is recalled and the request waits, or goes on at
once when every holder of the victim is fenced. -/
def startVictim (s : State) (v : Nat) (m : Packet) (f : Findings) : State :=
  let w := (dirGet s v).way
  let s1 := recallAll s v m .backInval
  match busyOf s1 v with
  | some b =>
    if b.await.isEmpty then startNone (dirSet (setBusy s1 v none) v {}) m f w
    else setBusy s1 (pLine m) (some { newBusy m with kind := .waitDir })
  | none => startNone s1 m f w

/-- Every holder of the package and every remote agent, as far as they can be reached (R282). -/
def allHolders (s : State) : List Nat :=
  ((List.range 240).filter (fun h => !(stopDead s (holderStop h)))) ++ [0xF0] ++
  (s.admitted.filter (fun p => p != s.pkg)).map (· + 0xF8)

/-- RCL_I of a line from every holder, whatever its entry, which an error has spoilt, lists (R282). Only the owner the entry names and
the holders in S answer for a copy; the others answer that they have none. -/
def startRecallDir (s : State) (m : Packet) : State :=
  let line := pLine m
  let (s, b) := sendSnoops s m .rclI (allHolders s) { newBusy m with kind := .recall }
  if b.await.isEmpty then dirSet s line {} else setBusy s line (some b)

/-- The recall of a line after an error of its directory entry (R282); it waits behind a transaction of the line. -/
def recallDir (s : State) (m : Packet) (line : Nat) : State :=
  let mm : Packet := { m with cmd := .rclI, addr := line * 64, reqTxid := line }
  match busyOf s line with
  | some b => setBusy s line (some { b with waiting := b.waiting ++ [mm] })
  | none => startRecallDir s mm

/-- What the read of a directory entry shows (R282): a corrected error is counted and logged; an uncorrectable one recalls the
lines it touches and is logged. -/
def dirFindings (s : State) (m : Packet) (f : Findings) : State :=
  let line := pLine m
  let loc := lineLoc s line
  let e := dirGet s line
  match f.dir with
  | .clean => s
  | .corrected _ _ =>
    logErr (wayError s 1 loc.home loc.slice e.way false) (.ce loc.home) 0x09 loc.slice e.way
      (if e.st = .none_ then loc.dirset else line * 64)
  | .uncorrectable _ _ =>
    let lines := if f.dirTag then (dirSetLines s loc).map (·.1) else if e.st = .none_ then [] else [line]
    let s := lines.foldl (fun s l => recallDir s m l) s
    logErr (wayError s 1 loc.home loc.slice e.way true) (.ev loc.home) 0x14 loc.slice e.way loc.dirset

/-- A forward to the owner or forwarder P, with INV to `invs` (R286). -/
def startFwd (s : State) (m : Packet) (c : Cmd) (p : Nat) (invs : List Nat) : State :=
  let line := pLine m
  let b := newBusy m
  let (s, b) := if fencedAt s (lineLoc s line).home p then (s, b)
    else (send s (snoop s m c p), { b with fwd := some p, contended := true, timers := tset 0 p (now s + 1) b.timers })
  let (s, b) := sendSnoops s m .inv invs b
  openBusy s line b [p]

/-- A request that needs copies invalidated or recalled before `finishOp` (FAR, RDC, WRC, CMO, CAS64). -/
def startRecall (s : State) (m : Packet) (c : Cmd) (owner : Option Nat) (invs : List Nat) : State :=
  let (s, b) := sendSnoops s m c owner.toList (newBusy m)
  let (s, b) := sendSnoops s m .inv invs b
  openBusy s (pLine m) b owner.toList

/-- A PUT from its holder (R286, R293). -/
def startPut (s : State) (m : Packet) (f : Findings) : State :=
  let line := pLine m
  let e := dirGet s line
  let h := m.holder
  let named := (e.st == .dsf || e.st == .dx || e.st == .do_) && e.ptr == h
  if m.cmd = .puts then
    if e.st == .ds || (!named && (e.st == .dsf || e.st == .do_)) then dirSet s line (entryNorm (setListed e h false)) else s
  else if named then
    let s := if m.dirty then llcWrite s line m.data (2 ^ 64 - 1) m.poison m.keyid m.partid m.world f else s
    let e' := setListed e h false
    let e' := entryNorm { e' with st := .ds, ptr := 0 }
    send (dirSet s line e') (answer s m .wbAck)
  else send s (answer s m .wbStale)

/-- A request for ownership that the home grants from its L3 or memory: data, INV to the others, COMP when they have answered. -/
def startOwn (s : State) (m : Packet) (e : DirEntry) (f : Findings) : State :=
  let line := pLine m
  let (d, s) := llcRead s line m.keyid m.partid m.world f
  if d.err then send s (answer s m .errRsp)
  else
    let s := send s (dataTo s m .dataM .m d)
    let (s, b) := sendSnoops s m .inv ((holdersOf e).filter (fun h => h != m.holder)) (newBusy m)
    if b.await.isEmpty then sendComp (dirSet s line (entryDX e m.holder)) m b.contended else setBusy s line (some b)

/-- A request from a holder already in the state it asks for is answered at once, with no change (R286). -/
def startHeld (s : State) (m : Packet) (c : Cmd) (st : HState) (f : Findings) : State :=
  let (d, s) := llcRead s (pLine m) m.keyid m.partid m.world f
  if d.err then send s (answer s m .errRsp) else send s (dataTo s m c st d)

/-- A request that puts its holder on record waits for a way where the line has no entry (R281). -/
def startNew (s : State) (m : Packet) (f : Findings) : State :=
  match dirAlloc s (pLine m) with
  | (.way w, s) => startNone s m f w
  | (.victim v, s) => startVictim s v m f
  | (.none_, s) => { s with dirWait := s.dirWait ++ [m] }

/-- A request for a line without open busy entry is handled by directory state (R286). -/
def homeStart (s : State) (m : Packet) (f : Findings) : State :=
  let line := pLine m
  let e := dirGet s line
  let r := m.holder
  let others := (holdersOf e).filter (fun h => h != r)
  match m.cmd with
  | .puts => startPut s m f
  | .pute => startPut s m f
  | .putf => startPut s m f
  | .putm => startPut s m f
  | .puto => startPut s m f
  | .rds =>
    match e.st with
    | .none_ => startNew s m f
    | .ds =>
      if lists e r then startHeld s m .dataS .s f
      else
        let (d, s) := llcRead s line m.keyid m.partid m.world f
        if d.err then send s (answer s m .errRsp)
        else send (dirSet s line (setListed { e with st := .dsf, ptr := r } r true)) (dataTo s m .dataF .f d)
    | .dsf =>
      if e.ptr = r then startHeld s m .dataF .f f
      else if lists e r then startHeld s m .dataS .s f
      else startFwd s m .fwdS e.ptr []
    | .dx => if e.ptr = r then startHeld s m .dataE .e f else startFwd s m .fwdS e.ptr []
    | .do_ => if e.ptr = r then startHeld s m .dataS .o f else startFwd s m .fwdS e.ptr []
  | .rdx => startX s m e f
  | .upg =>
    if !(lists e r) then startX s { m with cmd := .rdx } e f
    else
      let owner := if e.st = .do_ ∧ e.ptr ≠ r then [e.ptr] else []
      let (s, b) := sendSnoops s m .inv others (newBusy m)
      if b.await.isEmpty ∧ (fencedOwner s line owner).isNone then
        sendComp (dirSet s line (entryDX e r)) m b.contended
      else openBusy s line b owner
  | .rclI => startRecallDir s m
  | .rdc =>
    match e.st with
    | .dx => startRecall s m .rclC (some e.ptr) []
    | .do_ => startRecall s m .rclC (some e.ptr) []
    | _ => finishOp s m false f
  | .cmoCln =>
    match e.st with
    | .dx => startRecall s m .rclC (some e.ptr) []
    | .do_ => startRecall s m .rclC (some e.ptr) []
    | _ => finishOp s m false f
  | .far => startKill s m e f
  | .wrc => startKill s m e f
  | .cas64 => startKill s m e f
  | .cmoFls => startKill s m e f
  | .cmoInv => startKill s m e f
  | _ => s
where
  /-- RDX, or UPG of a requester the entry does not list (R286). -/
  startX (s : State) (m : Packet) (e : DirEntry) (f : Findings) : State :=
    match e.st with
    | .none_ => startNew s m f
    | .ds => startOwn s m e f
    | .dx =>
      if e.ptr = m.holder then
        sendComp (startHeld s m .dataM .m f) m false
      else startFwd s m .fwdX e.ptr []
    | _ =>
      if e.ptr = m.holder then startOwn s m e f
      else startFwd s m .fwdX e.ptr ((holdersOf e).filter (fun h => h != m.holder && h != e.ptr))
  /-- Every copy is recalled or invalidated, then the request is performed (R286: FAR, WRC, CMO FLS and INV). -/
  startKill (s : State) (m : Packet) (e : DirEntry) (f : Findings) : State :=
    match e.st with
    | .none_ => finishOp s m false f
    | .dx => startRecall s m .rclI (some e.ptr) []
    | .do_ => startRecall s m .rclI (some e.ptr) ((holdersOf e).filter (fun h => h != e.ptr))
    | _ =>
      let (s, b) := sendSnoops s m .inv (holdersOf e) (newBusy m)
      if b.await.isEmpty then finishOp (dirSet s (pLine m) {}) m b.contended f else setBusy s (pLine m) (some b)

/-- Whether a command is a PUT. -/
def isPut (c : Cmd) : Bool := c == .putm || c == .puto || c == .pute || c == .putf || c == .puts

/-- The open busy entries of a line's directory slice. -/
def busyCount (s : State) (line : Nat) : Nat :=
  let loc := lineLoc s line
  (s.busy.filter (fun p => let l := lineLoc s p.1; l.home == loc.home && l.slice == loc.slice)).length

/-- The busy entries of a slice that a command may use (R280): 8 of the 64 are reserved for PUTM, PUTO, PUTE and PUTF. -/
def busyFor (c : Cmd) : Nat := if isPut c && c != .puts then 64 else 56

/-- Whether a packet comes from a fenced holder, or from the core or package of one (R301). -/
def fromFenced (s : State) (m : Packet) : Bool :=
  let home := (lineLoc s (pLine m)).home
  (m.src == holderStop m.holder && fencedAt s home m.holder) ||
  (match m.spkg with
   | some p => fencedAt s home (0xF8 + p)
   | none => decide (coreOfStop m.src < 240) && fencedAt s home (coreOfStop m.src))

/-- A request reaches its home (R280, R286, R301, R496, R631): dropped from a fenced holder, refused by the filter or for a lost channel, behind an open
busy entry of its line, behind the slice's other requests when no busy entry is free or one of its line already waits, or handled. -/
def homeArrive (s : State) (m : Packet) (f : Findings) : State :=
  let line := pLine m
  if fromFenced s m then s
  else if !(isPut m.cmd) && (chLost s line || !(worldAllows s m.world m.addr (rightsOf m (lists (dirGet s line) m.holder)))) then
    send s (answer s m .errRsp)
  else
    let s := if (busyOf s line).isSome then s else dirFindings s m f
    match busyOf s line with
    | some b => setBusy s line (some { b with waiting := b.waiting ++ [m] })
    | none =>
      if busyCount s line ≥ busyFor m.cmd || s.dirWait.any (fun q => pLine q == line) then { s with dirWait := s.dirWait ++ [m] }
      else homeStart s m f

/-- A request reaches the stop of its home: a fenced stop answers it under R320, a bypassed one leaves it waiting (R333). -/
def homeReach (s : State) (m : Packet) (f : Findings) : State :=
  if stopDead s m.dst then fencedPacket s m
  else if stopHeld s m.dst then putBack s m
  else homeArrive s m f

/-- The requests that waited behind a transaction are taken up in order until one opens a busy entry of the line. -/
def drainWaiting (line : Nat) : List Packet → State → State
  | [], s => s
  | m :: ms, s =>
    match busyOf s line with
    | some b => setBusy s line (some { b with waiting := b.waiting ++ (m :: ms) })
    | none => drainWaiting line ms (homeStart s m {})

/-- Requests that waited for a busy entry or a directory way are tried again in order. -/
def retryWait : List Packet → State → State
  | [], s => s
  | m :: ms, s => retryWait ms (homeArrive s m {})

/-- The transaction of a line ends: its busy entry closes, the request that waited for the directory way goes first (R281), then what
waited is taken up. -/
def closeBusyThen (s : State) (line : Nat) (k : State → State) : State :=
  match busyOf s line with
  | none => s
  | some b =>
    let s := k (setBusy s line none)
    let s := drainWaiting line b.waiting s
    retryWait s.dirWait { s with dirWait := [] }

/-- The transaction of a line ends, and what waited is taken up. -/
def closeBusy (s : State) (line : Nat) : State := closeBusyThen s line (fun s => s)

/-- A request that waited for a directory way is taken up again (R281). -/
def resumeDirWait (s : State) (wl : Nat) : State :=
  match busyOf s wl with
  | some w =>
    if w.kind = .waitDir then drainWaiting wl w.waiting (homeStart (setBusy s wl none) w.cur {}) else s
  | none => s

/-- The entry after a recall by RCL_C (RDC, CMO CLN): DX stays, DO becomes DSF (R286). -/
def entryAfterClean (e : DirEntry) : DirEntry := entryNorm (if e.st = .do_ then { e with st := .dsf } else e)

/-- A transaction whose answers have all arrived is finished (R281, R285, R286). -/
def tryFinish (s : State) (line : Nat) : State :=
  match busyOf s line with
  | none => s
  | some b =>
    if !(b.await.isEmpty) || b.fwd.isSome then s
    else
      let e := dirGet s line
      let m := b.cur
      match b.kind with
      | .recall => if b.failed then closeBusy (endFailed s line b) line else closeBusy (dirSet (l3Clean (storeRecalled s { m with cmd := .far, addr := line * 64 } b) line .clean) line {}) line
      | .backInval =>
        let s := if b.failed then s else storeRecalled s { m with cmd := .far, addr := line * 64 } b
        closeBusyThen (dirSet s line {}) line (fun s => resumeDirWait s b.cur.reqTxid)
      | .request =>
        if b.failed then closeBusy (endFailed s line b) line
        else
        match m.cmd with
        | .rds =>
          let r := m.holder
          let p := e.ptr
          let e := if b.keptR || b.kept == .i then setListed e p false else e
          let e := if b.kept = .o then { e with st := .do_, ptr := if b.keptR then r else p } else { e with st := .dsf, ptr := r }
          closeBusy (dirSet s line (setListed e r true)) line
        | .rdx => closeBusy (sendComp (dirSet s line (entryDX e m.holder)) m b.contended) line
        | .upg => closeBusy (sendComp (dirSet s line (entryDX e m.holder)) m b.contended) line
        | .rdc => closeBusy (dirSet (finishOp (storeRecalled s m b) m true {}) line (entryAfterClean e)) line
        | .cmoCln => closeBusy (dirSet (finishOp (storeRecalled s m b) { m with dirty := b.got.isSome } true {}) line (entryAfterClean e)) line
        | _ => closeBusy (finishOp (dirSet (storeRecalled s m b) line {}) m true {}) line
      | _ => s

/-- An INV_ACK, RCL_ACK or FWD_DONE reaches the home (R285, R293). One that matches no open transaction, or comes from a fenced
holder, is dropped (R301, R302). -/
def homeAnswer (s : State) (p : Packet) : State :=
  let line := pLine p
  let loc := lineLoc s line
  if fencedAt s loc.home p.holder then s
  else
    match busyOf s line with
    | none => s
    | some b =>
      if p.txid ≠ b.cur.txid then s
      else
        let b := { b with timers := tset 0 p.holder 0 b.timers, putIds := if p.r then p.putId :: b.putIds else b.putIds }
        if p.cmd = .fwdDone then
          if b.fwd = some p.holder then
            tryFinish (setBusy s line (some { b with fwd := none, kept := p.kept, keptR := p.r })) line
          else s
        else if b.await.contains p.holder then
          let b := { b with await := b.await.filter (fun h => h != p.holder) }
          let b := if p.dirty then
              { b with got := some (p.data, p.poison), gotSec := p.world, gotPart := p.partid, gotKey := p.keyid }
            else b
          let e := dirGet s line
          let s := if p.r then dirSet s line (entryWithout e p.holder) else s
          tryFinish (setBusy s line (some b)) line
        else s

/-- The timer of a snoop to holder h expires (R299, R300). -/
def homeTimeoutAt (s : State) (line h : Nat) : State :=
  match busyOf s line with
  | none => s
  | some b =>
    if b.fwd = some h ∨ b.await.contains h then tryFinish (failBusy s line b h) line else s

end Sys2Proof.Machine
end

