-- ==== Sys2Proof/Machine/Holder.lean ====
section
/-! DEFINITION. The holders of the coherence protocol: stable and transient states (R288 to R291), the writeback buffer (R293),
the store buffer's entries that wait for ownership (R277, R289), and the requests of holders. -/
namespace Sys2Proof.Machine

open Sys2Proof

/-- Line number `line` in holder h. -/
def hline (s : State) (h line : Nat) : CLine := tget {} (h * 2 ^ 46 + line) s.lines

/-- The line in holder h replaced. -/
def setHline (s : State) (h line : Nat) (x : CLine) : State :=
  { s with lines := tset {} (h * 2 ^ 46 + line) x s.lines }

/-- Whether a state is stable and valid. -/
def validSt (st : HState) : Bool := st == .m || st == .o || st == .e || st == .f || st == .s

/-- Whether a state is transient (R289). -/
def transSt (st : HState) : Bool := st == .isd || st == .imd || st == .smc || st == .xia

/-! ### Stores that wait for ownership -/

/-- A store is performed into a line held in M (R221, R277): the bytes of the entry. The line keeps its poison (R572). -/
def mergeStore (s : State) (h line : Nat) (e : SbEntry) : State :=
  let x := hline s h line
  setHline s h line { x with st := .m, data := lineMerge x.data e.data e.mask }

/-- The store buffer of core h performs the entries for a line that were waiting for its ownership, oldest first, now that the
line is in M. -/
def performWaiting (s : State) (h line : Nat) : State :=
  if h ≥ 240 then s
  else
    let k := getCore s h
    let mine := k.sb.filter (fun e => e.sent && !e.dev && !e.nc && e.pa / 64 == line)
    let s := mine.foldl (fun s e => breakResv (mergeStore s h line e) h (line * 64) 64) s
    dropFill (setCore s h { getCore s h with sb := k.sb.filter (fun e => !(e.sent && !e.dev && !e.nc && e.pa / 64 == line)) }) h line

/-! ### Snoops -/

/-- What a holder answers a snoop with from a stable state (R288): the data command for the requester, the acknowledgement,
whether it carries dirty data, the state FWD_DONE reports, the state kept. -/
structure SnoopAns where
  data : Option Cmd
  ack : Cmd
  withData : Bool
  kept : HState
  next : HState
  deriving DecidableEq, Repr

/-- R288 by state and snoop; none where the home never sends it. -/
def snoopAns (st : HState) (c : Cmd) : Option SnoopAns :=
  match c, st with
  | .fwdS, .m => some ⟨some .dataS, .fwdDone, false, .o, .o⟩
  | .fwdS, .o => some ⟨some .dataS, .fwdDone, false, .o, .o⟩
  | .fwdS, .e => some ⟨some .dataF, .fwdDone, false, .s, .s⟩
  | .fwdS, .f => some ⟨some .dataF, .fwdDone, false, .s, .s⟩
  | .fwdX, .m => some ⟨some .dataM, .fwdDone, false, .i, .i⟩
  | .fwdX, .o => some ⟨some .dataM, .fwdDone, false, .i, .i⟩
  | .fwdX, .e => some ⟨some .dataM, .fwdDone, false, .i, .i⟩
  | .fwdX, .f => some ⟨some .dataM, .fwdDone, false, .i, .i⟩
  | .inv, .o => some ⟨none, .invAck, false, .i, .i⟩
  | .inv, .f => some ⟨none, .invAck, false, .i, .i⟩
  | .inv, .s => some ⟨none, .invAck, false, .i, .i⟩
  | .inv, .i => some ⟨none, .invAck, false, .i, .i⟩
  | .rclC, .m => some ⟨none, .rclAck, true, .e, .e⟩
  | .rclC, .o => some ⟨none, .rclAck, true, .f, .f⟩
  | .rclC, .e => some ⟨none, .rclAck, false, .e, .e⟩
  | .rclI, .m => some ⟨none, .rclAck, true, .i, .i⟩
  | .rclI, .o => some ⟨none, .rclAck, true, .i, .i⟩
  | .rclI, .e => some ⟨none, .rclAck, false, .i, .i⟩
  | .rclI, .f => some ⟨none, .rclAck, false, .i, .i⟩
  | .rclI, .s => some ⟨none, .rclAck, false, .i, .i⟩
  | .rclI, .i => some ⟨none, .rclAck, false, .i, .i⟩
  | _, _ => none

/-- The state a forward grants its requester: O in place of S when an owner answers from its writeback buffer (R293). -/
def grantOf (c : Cmd) (r : Bool) : HState :=
  match c with
  | .dataS => if r then .o else .s
  | .dataF => .f
  | .dataE => .e
  | .dataM => .m
  | _ => .i

/-- The packets an answer sends: data to the requester, then the acknowledgement to the home. -/
def sendAns (s : State) (p : Packet) (h : Nat) (x : CLine) (a : SnoopAns) (r : Bool) : State :=
  let s := match a.data with
    | some c => send s {
        cmd := c, src := holderStop h, dst := p.req, cls := .h, txid := p.reqTxid, world := p.world,
        partid := p.partid, keyid := x.keyid, poison := x.poison, addr := p.addr, data := x.data, holder := p.arg,
        kept := grantOf c r, dirty := x.base == .m, dpkg := holderPkg s p.arg }
    | none => s
  send s {
    cmd := a.ack, src := holderStop h, dst := p.src, cls := .h, txid := p.txid, world := x.sec,
    partid := x.partid, keyid := x.keyid, poison := x.poison && a.withData, addr := p.addr,
    data := if a.withData then x.data else 0, holder := h, kept := a.kept, r := r, putId := if r then x.putId else 0,
    dirty := a.withData }

/-- Whether a line belongs to a granule core h has reserved: never its own victim (R119). -/
def reservedLine (s : State) (h line : Nat) : Bool :=
  decide (h < 240) && (match (getCore s h).resv with
    | some r => decide (line * 64 < r.base + r.size) && decide (r.base < line * 64 + 64)
    | none => false)

/-- A reserved granule's line leaves a core because another agent's request p removed it: the core may lose the reservation (R119),
and the model has it lose it (log entry 20); another package's store shows in no other way (R118). -/
def lineRemoved (s : State) (p : Packet) (h line : Nat) : State :=
  if reservedLine s h line && p.req != coreStop h then dropResv s h else s

/-- A packet has come in to a core that executes WAIT: the core notes the time (R551). -/
def wakeCore (s : State) (h : Nat) : State :=
  if (getCore s h).waiting then setCore s h { getCore s h with idleSince := some (now s) } else s

/-- A snoop reaches holder h (R288, R289). -/
def holderSnoop (s : State) (p : Packet) : State :=
  let h := p.holder
  let line := pLine p
  let x := hline s h line
  let s := if h < 240 then wakeCore (countEvent s h 0x015) h else s
  match x.st with
  | .isd =>
    if p.cmd = .inv then
      send (setHline s h line { x with dropFill := true })
        { cmd := .invAck, src := holderStop h, dst := p.src, cls := .h, txid := p.txid, addr := p.addr, holder := h }
    else setHline s h line { x with held := x.held ++ [p] }
  | .imd =>
    if p.cmd = .inv then
      send s { cmd := .invAck, src := holderStop h, dst := p.src, cls := .h, txid := p.txid, addr := p.addr, holder := h }
    else setHline s h line { x with held := x.held ++ [p] }
  | .smc =>
    match snoopAns x.base p.cmd with
    | none => s
    | some a =>
      let s := sendAns s p h x a false
      if a.next = .i then lineRemoved (setHline s h line { x with st := .imd, base := .i, gotData := false }) p h line
      else setHline s h line { x with base := a.next }
  | .xia =>
    match snoopAns x.base p.cmd with
    | none => s
    | some a => sendAns s p h x a true
  | st =>
    match snoopAns st p.cmd with
    | none => s
    | some a =>
      let s := sendAns s p h x a false
      if a.next = .i then lineRemoved (setHline s h line {}) p h line
      else setHline s h line { x with st := a.next }

/-- Snoops held under R289 are acted on from the new state, in order. -/
def actHeld : List Packet → State → State
  | [], s => s
  | p :: ps, s => actHeld ps (holderSnoop s p)

/-- The line reaches M: waiting stores are performed, then the held snoops are acted on (R289). -/
def becomeM (s : State) (h line : Nat) (contended : Bool) : State :=
  let x := hline s h line
  let held := x.held
  let s := setHline s h line { x with
    st := .m, base := .i, gotData := false, gotComp := false, held := [],
    contended := contended, txid := 0, dropFill := false }
  let s := delOutst s (holderStop h) x.txid
  actHeld held (performWaiting s h line)

/-- Data reaches a requester (R285, R289). Data that matches no request is dropped. -/
def holderData (s : State) (p : Packet) : State :=
  let h := p.holder
  let line := pLine p
  let x := hline s h line
  if p.txid ≠ x.txid then s
  else
    match x.st with
    | .isd =>
      let s := delOutst s (holderStop h) x.txid
      if x.dropFill then
        let s := setHline s h line {}
        if h < 240 then setCore s h { getCore s h with served := ⟨line, p.data, p.poison, false, false⟩ :: (getCore s h).served } else s
      else
        let s := setHline s h line {
          st := p.kept, data := p.data, poison := p.poison, keyid := p.keyid, sec := p.world,
          partid := p.partid }
        actHeld x.held s
    | .imd =>
      if p.cmd = .dataM then
        let s := setHline s h line { x with
          data := p.data, poison := p.poison || (x.gotData && x.poison), keyid := p.keyid, sec := p.world,
          partid := p.partid, gotData := true }
        if x.gotComp then becomeM s h line x.contended else s
      else s
    | .smc =>
      if p.cmd = .dataM then setHline s h line { x with data := p.data, poison := p.poison, keyid := p.keyid } else s
    | _ => s

/-- COMP reaches the requester of RDX or UPG (R285, R289). -/
def holderComp (s : State) (p : Packet) : State :=
  let h := p.holder
  let line := pLine p
  let x := hline s h line
  if p.txid ≠ x.txid then s
  else
    match x.st with
    | .smc => becomeM (setHline s h line { x with sec := p.world, partid := p.partid }) h line p.contended
    | .imd =>
      let s := setHline s h line { x with gotComp := true, contended := p.contended }
      if x.gotData then becomeM s h line p.contended else s
    | _ => s

/-- WB_ACK or WB_STALE reaches a holder in XI_A (R289). -/
def holderWb (s : State) (p : Packet) : State :=
  let x := hline s p.holder (pLine p)
  if x.st = .xia ∧ x.putId = p.txid then
    delOutst (setHline s p.holder (pLine p) {}) (holderStop p.holder) p.txid
  else s

/-! ### Deferred errors -/

/-- A failed store or maintenance becomes a pending deferred BUS_ERROR (R125, R164, R239); one already pending keeps its
registers, and the failure is counted (R239, R575). -/
def deferError (s : State) (c va pa : Nat) (wnr : Bool) : State :=
  let k := getCore s c
  match k.defErr with
  | some _ =>
    if c = mpCore then s
    else sysSet s c 0x611 false (setFld (sysGet s c 0x611 false) 31 16 (satInc 16 (fld (sysGet s c 0x611 false) 31 16)))
  | none =>
    let e : Exc := { cls := 0x20, wnr := wnr, deferred := true }
    coreErr (setCore s c { k with defErr := some ⟨esynOf e, BitVec.ofNat 64 va, BitVec.ofNat 64 pa⟩ }) c 1 pa

/-- An error completion of a coherence request reaches its holder (R496, R574): the request ends, its line is as before, and a
store that waited for it completes with error. -/
def holderErr (s : State) (p : Packet) : State :=
  let h := p.holder
  let line := pLine p
  let x := hline s h line
  if p.txid ≠ x.txid then s
  else
    let s := delOutst s (holderStop h) x.txid
    match x.st with
    | .isd => setHline s h line { err := true }
    | .imd => failStores (setHline s h line { err := true }) h line
    | .smc => failStores (setHline s h line { x with st := x.base, base := .i, txid := 0, err := true }) h line
    | _ => s
where
  /-- The stores that waited for ownership complete with error. -/
  failStores (s : State) (h line : Nat) : State :=
    if h ≥ 240 then s
    else
      let k := getCore s h
      let bad := k.sb.filter (fun e => e.sent && !e.dev && !e.nc && e.pa / 64 == line)
      let s := setCore s h { k with sb := k.sb.filter (fun e => !(e.sent && !e.dev && !e.nc && e.pa / 64 == line)) }
      bad.foldl (fun s e => deferError s h e.va e.pa true) s

/-! ### Requests of a holder -/

/-- The attributes of a request. -/
structure Attr where
  world : Bool
  partid : Nat
  keyid : Nat
  deriving DecidableEq, Repr

/-- A request packet of holder h for a line. -/
def holderReq (s : State) (h line : Nat) (c : Cmd) (a : Attr) (tx : Nat) : Packet :=
  { cmd := c, src := holderStop h, dst := lineStop s line, cls := .q, txid := tx, world := a.world, partid := a.partid,
    keyid := a.keyid, addr := line * 64, holder := h }

/-- Holder h issues RDS, RDX or UPG: the line enters its transient state (R288, R289). Answers the packet and the state. -/
def issueReq (s : State) (h line : Nat) (c : Cmd) (a : Attr) : Packet × State :=
  let (tx, s) := newTxid s
  let x := hline s h line
  let st := match c with
    | .rds => ({ st := .isd, txid := tx, keyid := a.keyid } : CLine)
    | .rdx => ({ st := .imd, txid := tx, keyid := a.keyid } : CLine)
    | _ => { x with st := .smc, base := x.st, txid := tx, gotComp := false, gotData := false }
  let s := setHline s h line st
  let p := holderReq s h line c a tx
  (p, addOutst s { stop := holderStop h, txid := tx, cmd := c, addr := line * 64, since := now s })

/-- The PUT command of a state (R288). -/
def putCmd (st : HState) : Cmd :=
  match st with
  | .m => .putm
  | .o => .puto
  | .e => .pute
  | .f => .putf
  | _ => .puts

/-- Holder h evicts a line held in a stable state (R288): PUTS is sent and the copy dropped, any other PUT leaves the copy in the
writeback buffer. The PUT carries the world of the line's SECFILL bit (R648) and the PARTID of R250. -/
def evictReq (s : State) (h line : Nat) : Packet × State :=
  let x := hline s h line
  let (tx, s) := newTxid s
  let dirty := x.st == .m || x.st == .o
  let part := if h < 240 then fld (sysEff s h 0x422 (secOf (getCore s h))) 3 0 else 0
  let p : Packet := { holderReq s h line (putCmd x.st) ⟨x.sec, part, x.keyid⟩ tx with
    dirty := dirty, data := if dirty then x.data else 0, poison := dirty && x.poison, mask := 2 ^ 64 - 1 }
  if x.st = .s then (p, setHline s h line {})
  else
    let s := setHline s h line { x with st := .xia, base := x.st, putId := tx }
    let s := if h < 240 ∧ dirty then countEvent s h 0x009 else s
    (p, addOutst s { stop := holderStop h, txid := tx, cmd := putCmd x.st, addr := line * 64, since := now s })

end Sys2Proof.Machine
end

