-- ==== Sys2Proof/Machine/Agent.lean ====
section
/-! DEFINITION. The remote agent of hub stop 22 as the home of its package (R305, R307): the remote directory, the agent's snoops of the
holders within the package, their answers and their timers, and what follows when all have answered. -/
namespace Sys2Proof.Machine

open Sys2Proof

/-- The stop of the remote agent. -/
def raStop : StopId := ⟨12, 22⟩

/-- This package's holder number at other packages' homes (R304). -/
def ownPkg (s : State) : Nat := 0xF8 + s.pkg

/-- A packet leaves the agent for another package: it waits at hub stop 22 for its bundle. -/
def sendOut (s : State) (p : Packet) : State := send s { p with dst := raStop, at_ := some raStop }

/-! ### The remote directory -/

/-- The holders of the package that an entry of the remote directory lists: its PKG names the home package (R305). -/
def localHolders (e : DirEntry) : List Nat := holdersOf { e with pkg := 0 }

/-- An entry of the remote directory replaced; without holders in the package it is freed. -/
def rdirSet (s : State) (line : Nat) (e : DirEntry) : State :=
  dirSet s line (if (localHolders e).isEmpty then {}
    else { e with pkg := match pkgOfPa s (line * 64) with | some p => (1 : BitVec 4) <<< p | none => 0 })

/-- The set of a line in the remote directory, of 131,072 (R305; the index is the model's, log entry 51). -/
def rdirIdx (line : Nat) : Nat := line % 131072

/-- The entries of a line's set in the remote directory. -/
def rdirEntries (s : State) (line : Nat) : List (Nat × DirEntry) :=
  s.dir.filter (fun p => p.2.st != .none_ && !(isLocalMem s (p.1 * 64)) && rdirIdx p.1 == rdirIdx line)

/-- Whether a set of the remote directory has no way left for a line: its ways are held by entries, or promised to fills under way. -/
def rdirFull (s : State) (line : Nat) : Bool :=
  let fills := s.busy.filter (fun p => !(isLocalMem s (p.1 * 64)) && rdirIdx p.1 == rdirIdx line && (dirGet s p.1).st == .none_)
  decide ((rdirEntries s line).length + fills.length ≥ 16)

/-- The way a line's entry has in its set of the remote directory, or the lowest free one. -/
def rdirWay (s : State) (line : Nat) : Nat :=
  if (dirGet s line).st != .none_ then (dirGet s line).way
  else ((List.range 16).find? (fun w => !((rdirEntries s line).any (fun p => p.2.way == w)))).getD 0

/-! ### Operations of the agent on the holders of its package -/

/-- The operation under way on a line homed in another package, if there is one. -/
def agentOp (s : State) (line : Nat) : Option Busy := tget none line s.agentOps

/-- The operation on a line opened, replaced or closed. -/
def setAgentOp (s : State) (line : Nat) (b : Option Busy) : State := { s with agentOps := tset none line b s.agentOps }

/-- Whether holder h is fenced at the hub (R301). -/
def fencedAtHub (s : State) (h : Nat) : Bool := bit (rg s .hubHfence (h / 64)) (h % 64)

/-- A snoop of a holder of the package, under the transaction of what it serves (R283): data go to the local requester, or to the agent. -/
def agentSnoop (s : State) (b : Busy) (c : Cmd) (h : Nat) : State :=
  let m := b.cur
  send s {
    cmd := c, src := raStop, dst := holderStop h, cls := .h, txid := m.txid, world := m.world, partid := m.partid, keyid := m.keyid
    addr := m.addr, holder := h, req := if b.kind = .serve then m.src else raStop, reqTxid := m.txid
    arg := if b.kind = .serve then m.holder else h }

/-- Snoops c are sent to the holders of hs that are not fenced, each with its timer (R299, R301, R307). -/
def agentSnoops (s : State) (b : Busy) (c : Cmd) (hs : List Nat) : State × Busy :=
  let live := hs.filter (fun h => !(fencedAtHub s h))
  (live.foldl (fun s h => agentSnoop s b c h) s,
   { b with await := b.await ++ live, timers := live.foldl (fun t h => tset 0 h (now s + 1) t) b.timers })

/-- A PUT of the package for a line leaves for the home (R305): PUTS drops the copy, any other waits for its answer. -/
def sendPut (s : State) (line : Nat) (m : Packet) (st : HState) (data : LineData) (poison : Bool) : State :=
  let (tx, s) := newTxid s
  let p : Packet := { m with
    cmd := putCmd st, src := raStop, txid := tx, holder := ownPkg s, addr := line * 64, dirty := st == .m || st == .o
    data := if st == .m || st == .o then data else 0, poison := poison && (st == .m || st == .o), mask := 2 ^ 64 - 1 }
  if st = .s then sendOut (setHline s (ownPkg s) line {}) p
  else sendOut (setHline s (ownPkg s) line { st := .xia, base := st, data := data, poison := poison, putId := tx }) p

/-- The holders of the package have answered a snoop of the home, and the agent answers it (R304, R305). -/
def homeDone (s : State) (line : Nat) (b : Busy) : State :=
  let p := b.cur
  let x := hline s (ownPkg s) line
  let e := dirGet s line
  let base := if x.st = .smc then x.base else x.st
  let base := if base = .e ∧ (b.kept = .o ∨ (b.got.isSome ∧ (p.cmd = .rclC ∨ p.cmd = .rclI))) then HState.m else base
  let (d, bad) := match b.got with
    | some (d, q) => (d, q || b.failed)
    | none => ((0 : LineData), b.failed)
  match snoopAns base p.cmd with
  | none => setAgentOp s line none
  | some a =>
    let carries := a.withData || (b.failed && (p.cmd == .rclC || p.cmd == .rclI))
    let e' := match p.cmd with
      | .fwdS => if b.kept = .o then { e with st := .do_ } else if b.failed then e else { e with st := .ds, ptr := 0 }
      | .rclC => if e.st = .do_ then { e with st := .dsf } else e
      | _ => {}
    let e' : DirEntry := if b.keptR then {} else e'
    let next := if (localHolders e').isEmpty then HState.i else a.next
    let s := match a.data with
      | some c => sendOut s { p with
          cmd := c, src := raStop, txid := p.reqTxid, holder := p.arg, data := d, poison := bad, kept := grantOf c b.keptR, dirty := false }
      | none => s
    let s := sendOut s { p with
      cmd := a.ack, src := raStop, holder := ownPkg s, data := if carries then d else 0, poison := bad && carries, dirty := carries
      kept := if next = .i then .i else a.kept, r := b.keptR }
    let s := setAgentOp (rdirSet s line e') line none
    setHline s (ownPkg s) line (
      if x.st = .smc then (if next = .i then { x with st := .imd, base := .i, gotData := false } else { x with base := next })
      else if next = .i then {} else { x with st := next })

/-- The holders of the package have answered what a local request needed, and the request is granted within the package (R305). -/
def serveDone (s : State) (line : Nat) (b : Busy) : State :=
  let m := b.cur
  let r := m.holder
  let e := { dirGet s line with way := rdirWay s line }
  let x := hline s (ownPkg s) line
  let bad : LineRead := { data := 0, poison := true }
  let s := setAgentOp s line none
  if m.cmd = .rds then
    if b.failed then
      let alone := (localHolders e).isEmpty && (x.st == .m || x.st == .e)
      let s1 := send s { (if alone then dataTo s m .dataE .e bad else dataTo s m .dataF .f bad) with src := raStop }
      rdirSet s1 line (if alone then entryDX e r else setListed { e with st := .dsf, ptr := r } r true)
    else
      let p := e.ptr
      let e := if b.keptR || b.kept == .i then setListed e p false else e
      let e := if b.kept = .o then { e with st := .do_, ptr := if b.keptR then r else p } else { e with st := .dsf, ptr := r }
      rdirSet s line (setListed e r true)
  else
    let s := if b.failed then send s { dataTo s m .dataM .m bad with src := raStop } else s
    let s := send (rdirSet s line (entryDX e r)) { compTo s m b.contended with src := raStop }
    let s := if (busyOf s line).isSome then delOutst (setBusy s line none) raStop x.txid else s
    setHline s (ownPkg s) line { st := .m }

/-- Every holder of the package has answered: what the operation was for is done (R305). -/
def agentDone (s : State) (line : Nat) (b : Busy) : State :=
  let x := hline s (ownPkg s) line
  match b.kind with
  | .home => homeDone s line b
  | .serve => serveDone s line b
  | .put =>
    let m := b.cur
    let s := sendPut (setAgentOp (rdirSet s line {}) line none) line m (hline s m.holder line).base m.data m.poison
    send s { answer s m .wbAck with src := raStop }
  | _ =>
    let st := if (b.got.isSome || b.failed) && x.st == .e then HState.m else x.st
    let (d, bad) := match b.got with
      | some (d, q) => (d, q)
      | none => ((0 : LineData), b.failed)
    sendPut (setAgentOp (rdirSet s line {}) line none) line b.cur st d bad

/-- An operation goes on when no answer is owed. -/
def agentTry (s : State) (line : Nat) : State :=
  match agentOp s line with
  | some b => if b.await.isEmpty then agentDone s line b else s
  | none => s

/-- An operation begins: snoop c to the owner, INV to the others; a fenced owner counts as silent at once (R301). -/
def agentOpen (s : State) (line : Nat) (b : Busy) (owner : Option (Cmd × Nat)) (invs : List Nat) : State :=
  let (s, b) := match owner with
    | some (c, h) =>
      if fencedAtHub s h then (rdirSet s line (entryWithout (dirGet s line) h), { b with failed := true }) else agentSnoops s b c [h]
    | none => (s, b)
  let (s, b) := agentSnoops s b .inv invs
  agentTry (setAgentOp s line (some b)) line

/-- The answer of a holder of the package to the agent's snoop (R293, R305): the data of a forward, or the acknowledgement. An owner
that answers from its writeback buffer has given the line up, and the package gives it up with it. -/
def agentAnswer (s : State) (p : Packet) : State :=
  let line := pLine p
  match agentOp s line with
  | none => s
  | some b =>
    if p.txid ≠ b.cur.txid ∨ fencedAtHub s p.holder then s
    else if p.cmd = .dataS ∨ p.cmd = .dataF ∨ p.cmd = .dataM then setAgentOp s line (some { b with got := some (p.data, p.poison) })
    else if !(b.await.contains p.holder) then s
    else
      let b := { b with
        await := b.await.filter (fun h => h != p.holder), timers := tset 0 p.holder 0 b.timers, keptR := b.keptR || p.r
        got := if p.dirty then some (p.data, p.poison) else b.got, kept := if p.cmd = .fwdDone then p.kept else b.kept }
      let others := (localHolders (dirGet s line)).filter (fun h => h != p.holder)
      let (s, b) := if p.r && b.kind == .home && (b.cur.cmd == .fwdS || b.cur.cmd == .rclC) then agentSnoops s b .inv others else (s, b)
      agentTry (setAgentOp s line (some b)) line

/-- A holder of the package has been silent for the agent's timeout, or its stop is fenced (R300, R307): it leaves the entry and is
fenced, and what the operation answers is poisoned. -/
def agentSilent (s : State) (line h : Nat) : State :=
  match agentOp s line with
  | none => s
  | some b =>
    if !(b.await.contains h) then s
    else
      let b := { b with await := b.await.filter (fun x => x != h), timers := tset 0 h 0 b.timers, failed := true }
      let s := rdirSet s line (entryWithout (dirGet s line) h)
      let s := logErr s .hubEv 0x1D 22 h (line * 64)
      agentTry (setAgentOp (fenceFrom s raStop h) line (some b)) line

/-- The agent's timeout (R307): half of the package's HTIMEOUT, that of its lowest stack in use. -/
def agentTimeout (s : State) : Nat := htimeout s (((List.range 12).find? (fun d => !(tget false d s.fencedStk))).getD 0) / 2

/-- The agent's timer of a snoop to holder h expires, if its time has come (R307). -/
def agentTimeoutIf (s : State) (h line : Nat) : State :=
  match agentOp s line with
  | none => s
  | some b =>
    let t := tget 0 h b.timers
    if t ≠ 0 ∧ now s + 1 ≥ t + agentTimeout s then agentSilent s line h else s

end Sys2Proof.Machine
end

