-- ==== Sys2Proof/Machine/Settle.lean ====
section
/-! DEFINITION. The messages of the coherence protocol where they arrive, running those of one line to rest, and the latest value of a
line. -/
namespace Sys2Proof.Machine

open Sys2Proof

/-! ### Running the messages of a line to rest -/

/-- The messages that travel to homes and holders of this package without another agent's part in them. -/
def isCohAnswer (c : Cmd) : Bool :=
  c == .fwdS || c == .fwdX || c == .inv || c == .rclC || c == .rclI || c == .dataS || c == .dataF || c == .dataE ||
  c == .dataM || c == .comp || c == .fwdDone || c == .invAck || c == .rclAck || c == .wbAck || c == .wbStale

/-- A snoop, answer or completion of the protocol takes effect where it arrives: what holders of this package send the remote agent is
taken by it (R305). -/
def deliverTo (s : State) (p : Packet) : State :=
  if p.dst = raStop ∧ p.holder < 0xF8 then agentAnswer s p else
  match p.cmd with
  | .fwdS => holderSnoop s p
  | .fwdX => holderSnoop s p
  | .inv => holderSnoop s p
  | .rclC => holderSnoop s p
  | .rclI => holderSnoop s p
  | .dataS => holderData s p
  | .dataF => holderData s p
  | .dataE => holderData s p
  | .dataM => holderData s p
  | .comp => holderComp s p
  | .fwdDone => homeAnswer s p
  | .invAck => homeAnswer s p
  | .rclAck => homeAnswer s p
  | .wbAck => holderWb s p
  | .wbStale => holderWb s p
  | .errRsp => holderErr s p
  | _ => s

/-- A message reaches its stop: one that is fenced answers or drops it (R320), and the ingress of a domain may keep it (R331, R332). -/
def deliver (s : State) (p : Packet) : State :=
  if stopDead s p.dst then fencedPacket s p
  else match meetIngress s p with
    | (true, s) => deliverTo s p
    | (false, s) => s

/-- Whether a packet in flight is a message of this line that the package's own holders and homes act on: an ERR_RSP when it
answers a holder's request. -/
def settles (s : State) (line : Nat) (p : Packet) : Bool :=
  pLine p == line && decide (p.holder < 0xF8) && !(stopHeld s p.dst) &&
  (isCohAnswer p.cmd || (p.cmd == .errRsp && p.dst == holderStop p.holder &&
    transSt (hline s p.holder line).st && (hline s p.holder line).txid == p.txid))

/-- The messages of a line are delivered in the order sent, until none is in flight. -/
def settle (line : Nat) : Nat → State → State
  | 0, s => s
  | fuel + 1, s =>
    match takeAny (settles s line) s with
    | none => s
    | some (p, s) => settle line fuel (deliver s p)

/-- Enough deliveries for any transaction of a line and those waiting behind it. -/
def settleFuel : Nat := 4096

/-- A request of holder h runs to rest: it reaches its home, and every message of the line is delivered. -/
def transact (s : State) (p : Packet) (f : Findings) : State := settle (pLine p) settleFuel (homeReach s p f)

/-- A request of a holder leaves it: where the line's home is in this package it runs to rest, else it travels to the remote agent
(R304). -/
def runReq (s : State) (p : Packet) (f : Findings) : State :=
  if isLocalMem s p.addr then transact s p f else send s (toAgent s p)

/-- The latest value of a line in coherence order (R218, R222): the owner's or forwarder's copy, else the home's. -/
def cohPeek (s : State) (line k : Nat) : LineRead :=
  let e := dirGet s line
  let x := hline s e.ptr line
  if (e.st == .dx || e.st == .do_ || e.st == .dsf) && (validSt x.st || x.st == .smc || x.st == .xia) then
    { data := x.data, poison := x.poison }
  else llcPeek s line k

end Sys2Proof.Machine
end

