-- ==== Sys2Proof/Machine/Xlat.lean ====
section
/-! DEFINITION. Address translation and protection (chapter 05): regimes, the walk of both stages with its cached entries, A and
D updates, permissions, the supervisor guard, protection keys, fault reporting; and the protection unit of the management
processor (R89). -/
namespace Sys2Proof.Machine

open Sys2Proof

/-- Memory types (R192). -/
inductive MemType where
  | dev | nc | wb
  deriving DecidableEq, Repr

/-- The type of a TYPE field. -/
def typeOf (n : Nat) : MemType := if n = 1 then .nc else if n = 2 then .wb else .dev

/-- The stricter of two types (R193). -/
def stricter (a b : MemType) : MemType :=
  if a = .dev ∨ b = .dev then .dev else if a = .nc ∨ b = .nc then .nc else .wb

/-- What an access does to its page (R115, R124, R196). -/
inductive AccKind where
  | fetch | read | write | rw
  deriving DecidableEq, Repr

/-- What kind of operation the memory type may forbid (R98, R114). -/
inductive OpClass where
  | plain | atomic | resv | q | block | maint
  deriving DecidableEq, Repr

/-- What a completed translation gives an access. -/
structure XOk where
  pa : Nat
  ty : MemType
  atp : Nat
  keyid : Nat
  deriving DecidableEq, Repr

/-- A translation ends in an address or in an exception, or waits for the answer of a table entry's home. -/
inductive Xres where
  | ok (x : XOk)
  | fault (e : Exc)
  | wait
  deriving DecidableEq, Repr

/-- The translation regime of a level: 1 for PL1&0, 2, 3 (R174). -/
def regimeOf (pl : Nat) : Nat := if pl ≤ 1 then 1 else pl

/-- The registers a regime supplies (R174, R177 to R179). -/
structure Regime where
  num : Nat
  en : Bool
  lv5 : Bool
  had : Bool
  halves : Nat
  ttbr0 : Nat
  ttbr1 : Nat
  mattr : Word
  asid : Nat
  vmid : Nat
  s2 : Bool
  deriving DecidableEq, Repr

/-- The regime of core c at level pl in world w. -/
def regimeRegs (s : State) (c pl : Nat) (w : Bool) : Regime :=
  let g := fun n => sysEff s c n w
  if pl ≤ 1 then
    let vm := bit (g 0x500) 0
    { num := 1, en := bit (g 0x402) 0, lv5 := bit (g 0x402) 1, had := bit (g 0x402) 5, halves := fld (g 0x402) 4 3,
      ttbr0 := fld (g 0x400) 51 12 * 4096, ttbr1 := fld (g 0x401) 51 12 * 4096, mattr := g 0x403,
      asid := fld (g 0x402) 63 48, vmid := if vm then fld (g 0x421) 63 48 else 0, s2 := vm }
  else
    let b := if pl = 2 then 0x410 else 0x430
    { num := pl, en := bit (g (b + 1)) 0, lv5 := bit (g (b + 1)) 1, had := bit (g (b + 1)) 5, halves := 2,
      ttbr0 := fld (g b) 51 12 * 4096, ttbr1 := 0, mattr := g (b + 2), asid := 0, vmid := 0, s2 := false }

/-- The attribute entry of an index (R192). -/
def attrEntry (mattr : Word) (i : Nat) : Nat := fld mattr (8 * i + 7) (8 * i)

/-! ### Faults met in a walk -/

/-- A fault of a translation before it is reported: class in the order of R78 (0 WALK_BUS, 1 WALK_ATTR, 2 TRANS, 3 TYPE, 4
PERM, 5 GUARD, 6 PKEY), code, level, EPHYS, and the stage-2 facts. `need` is no fault: the walk cannot go on before the home of the
entry at `ephys` has answered a read under that KEYID. `reads` counts the table entries read before (R541). -/
structure XFault where
  rank : Nat
  code : Nat
  level : Nat := 7
  ephys : Nat := 0
  s2 : Bool := false
  s1walk : Bool := false
  s1lvl : Nat := 0xF
  adUpd : Bool := false
  key : Nat := 0
  ipa : Nat := 0
  need : Option Nat := none
  reads : Nat := 0
  deriving DecidableEq, Repr

/-- The exception class of a fault (R80); DIRTY is DATA_PERM alone (R201, R207). -/
def faultClass (rank code : Nat) (fetch : Bool) : Nat :=
  match rank with
  | 0 => 0x16
  | 1 => 0x17
  | 2 => if fetch then 0x10 else 0x11
  | 3 => 0x18
  | 4 => if fetch && code != 0x14 then 0x12 else 0x13
  | 5 => 0x15
  | _ => 0x14

/-- The exception of a fault (R205, R206). -/
def faultExc (f : XFault) (va : Nat) (kind : AccKind) : Exc :=
  { cls := faultClass f.rank f.code (kind == .fetch),
    tgt := if f.s2 then .pl 2 else if f.rank = 5 then .pl 1 else .local_,
    s2 := f.s2, wnr := kind == .write || kind == .rw, level := f.level,
    detail := f.s1lvl * 2 ^ 28 + f.s1walk.toNat * 2 ^ 27 + f.adUpd.toNat * 2 ^ 26 + f.key * 2 ^ 20 + f.code,
    eaddr := BitVec.ofNat 64 va, ephys := BitVec.ofNat 64 f.ephys, eipa := if f.s2 then BitVec.ofNat 64 f.ipa else 0 }

/-! ### Reads a core asks a home for -/

/-- What an attempt to read a line gives. -/
inductive Got where
  | data (d : LineData) (poison : Bool)
  | err
  | wait
  deriving DecidableEq, Repr

/-- An answer joins what the oldest instruction of core c has got. -/
def addFill (s : State) (c : Nat) (f : Fill) : State := setCore s c { getCore s c with served := f :: (getCore s c).served }

/-- The oldest instruction of core c waits for the answer to its request. -/
def addAsk (s : State) (c tx : Nat) (cmd : Cmd) (addr : Nat) : State :=
  let s := addOutst s { stop := coreStop c, txid := tx, cmd := cmd, addr := addr, since := now s }
  setCore s c { getCore s c with asked := ⟨tx, addr, cmd == .cas64⟩ :: (getCore s c).asked }

/-- An uncached read of a line (RDC, R283, R287): by the management processor, of N-NC memory, or by a table walk. -/
def readNc (s : State) (c line : Nat) (a : Attr) : Got × State :=
  match (getCore s c).served.find? (fun f => f.line == line && !f.cas) with
  | some f => (if f.err then .err else .data f.data f.poison, s)
  | none =>
    if (getCore s c).asked.any (fun q => q.addr == line * 64 && !q.cas) then (.wait, s)
    else
      let (tx, s) := newTxid s
      let m : Packet := {
        cmd := .rdc, src := coreStop c, dst := lineStop s line, txid := tx, world := a.world, partid := a.partid,
        keyid := a.keyid, addr := line * 64, holder := 0xFE }
      if isLocalMem s (line * 64) then
        let s := transact s m {}
        match takeAny (fun p => p.txid == tx && p.dst == coreStop c && (p.cmd == .rdRsp || p.cmd == .errRsp)) s with
        | some (p, s) => if p.cmd = .rdRsp then (.data p.data p.poison, s) else (.err, s)
        | none => (.wait, addAsk s c tx .rdc (line * 64))
      else if isRemoteMem s (line * 64) then (.wait, addAsk (send s (toAgent s m)) c tx .rdc (line * 64))
      else (.err, s)

/-- Where a walk finds the current value of a table entry's line (R188): in a cache or at the home of this package, or only by asking
the home, because the line is homed in another package, owned by one, or in a transaction. -/
def entryLine (s : State) (line k : Nat) : Option LineRead :=
  if !(isLocalMem s (line * 64)) then none
  else if chLost s line || stopDead s (lineStop s line) then some { err := true }
  else if (busyOf s line).isSome then none
  else
    let e := dirGet s line
    let x := hline s e.ptr line
    if e.st == .dx || e.st == .do_ || e.st == .dsf then
      if decide (e.ptr < 0xF8) && (validSt x.st || x.st == .smc || x.st == .xia) then some { data := x.data, poison := x.poison }
      else if e.st == .dsf then some (llcPeek s line k)
      else none
    else some (llcPeek s line k)

/-- The read of one table entry (R188, R190, R191): the entry, or why there is none, by rank and code; rank 9 says that its home must
be asked. `devMap` says that the stage-2 leaf that maps it has type DEV, `sv` what homes have answered. -/
def readEntry (s : State) (sv : List Fill) (pa k : Nat) (w devMap : Bool) : Word ⊕ (Nat × Nat) :=
  let value (r : LineRead) : Word ⊕ (Nat × Nat) :=
    if r.err then .inr (0, 0x21)
    else if r.poison then .inr (0, 0x20)
    else .inl (BitVec.ofNat 64 (lineGet r.data (pa % 64) 8))
  if devMap || isDevPa s pa then .inr (1, 0x28)
  else if !(isLocalMem s pa) && !(isRemoteMem s pa) then .inr (1, 0x29)
  else if isLocalMem s pa && !(worldAllows s w pa ⟨true, false⟩) then .inr (0, 0x21)
  else match sv.find? (fun f => f.line == pa / 64 && !f.cas) with
    | some f => value { data := f.data, poison := f.poison, err := f.err }
    | none =>
      match entryLine s (pa / 64) k with
      | some r => value r
      | none => .inr (9, 0)

/-- The fault of an entry's read, or what the walk needs before it can go on. -/
def entryFault (rank code lv pa k : Nat) : XFault :=
  if rank = 9 then { rank := 9, code := 0, ephys := pa, need := some k } else { rank := rank, code := code, level := lv, ephys := pa }

/-- Whether an entry with V = 1 is a reserved encoding (R186). -/
def reservedEntry (e : Word) (lv stage : Nat) : Bool :=
  let t := bit e 1
  if t then lv == 4 || fld e 63 52 != 0
  else
    lv == 0 || (bit e 3 && !(bit e 2)) ||
    (if stage = 1 then fld e 58 56 != 0 else fld e 6 5 != 0) ||
    (lv == 1 && fld e 38 12 != 0) || (lv == 2 && fld e 29 12 != 0) || (lv == 3 && fld e 20 12 != 0)

/-- The bits of an address that a level resolves (R187). -/
def lvIndex (va lv : Nat) : Nat := (va >>> (48 - 9 * lv)) % 512

/-- The address bits that name an entry of a level: those the walk has resolved down to it. -/
def lvTag (va lv : Nat) : Nat := (va % 2 ^ 57) >>> (48 - 9 * lv)

/-- The page size of a leaf level, in bytes. -/
def pageSize (lv : Nat) : Nat := 2 ^ (12 + 9 * (4 - lv))

/-- A leaf a walk found: the entry, its level, where it lies, the key it was read under, and every entry read. -/
structure Leaf where
  e : Word
  lv : Nat
  pa : Nat
  deriving DecidableEq, Repr

/-- The tags a walk looks cached entries up with. -/
structure TlbTag where
  world : Bool
  regime : Nat
  stage : Nat
  vmid : Nat
  asid : Nat
  deriving DecidableEq, Repr

/-- Whether a cached entry is that of a level of a walk (R210). -/
def tlbMatch (t : TlbTag) (va lv : Nat) (x : TlbEntry) : Bool :=
  x.world == t.world && x.regime == t.regime && x.stage == t.stage && x.vmid == t.vmid &&
  (x.glob || x.asid == t.asid) && x.lv == lv && x.idx == lvTag va lv

/-- The cached form of an entry a walk read (R210): a leaf with G = 1 matches any ASID; regimes without ASID ignore it. -/
def tlbEntryOf (t : TlbTag) (va lv : Nat) (e : Word) (pa : Nat) : TlbEntry :=
  { world := t.world, regime := t.regime, stage := t.stage, vmid := t.vmid, asid := t.asid,
    glob := t.stage == 2 || t.regime != 1 || (!(bit e 1) && bit e 6), lv := lv, idx := lvTag va lv, entry := e, pa := pa }

/-- How many of the entries a walk used it read from tables: those not cached (R210, R541). -/
def tabReads (tlb acc : List TlbEntry) : Nat :=
  (acc.filter (fun x => !(tlb.any (fun y => y.pa == x.pa && y.stage == x.stage && y.lv == x.lv && y.idx == x.idx)))).length

/-- The stage-2 walk of an address (R182, R187): levels from lv on, table at tbl. -/
def walk2 (s : State) (sv : List Fill) (tlb : List TlbEntry) (t : TlbTag) (k : Nat) (ipa : Nat) :
    Nat → Nat → Nat → List TlbEntry → (Leaf × List TlbEntry) ⊕ XFault
  | 0, lv, _, _ => .inr { rank := 2, code := 0x04, level := lv }
  | fuel + 1, lv, tbl, acc =>
    let pa := tbl + lvIndex ipa lv * 8
    let got : Word ⊕ (Nat × Nat) := match tlb.find? (tlbMatch t ipa lv) with
      | some x => .inl x.entry
      | none => readEntry s sv pa k t.world false
    match got with
    | .inr (rank, code) => .inr { entryFault rank code lv pa k with reads := tabReads tlb acc + 1 }
    | .inl e =>
      let acc := tlbEntryOf t ipa lv e pa :: acc
      if !(bit e 0) then .inr { rank := 2, code := 0x03, level := lv, ephys := pa, reads := tabReads tlb acc }
      else if reservedEntry e lv 2 then .inr { rank := 2, code := 0x04, level := lv, ephys := pa, reads := tabReads tlb acc }
      else
        if bit e 1 then walk2 s sv tlb t k ipa fuel (lv + 1) (fld e 51 12 * 4096) acc
        else .inl (⟨e, lv, pa⟩, acc)

/-- The output address of a leaf for an address (R184). -/
def leafOut (l : Leaf) (va : Nat) : Nat := fld l.e 51 12 * 4096 / pageSize l.lv * pageSize l.lv + va % pageSize l.lv

/-- A page-table update to be made by compare-and-swap (R202, R203): where, the value read, the value to write, its key, and
what a failure of it reports. -/
structure AdUpd where
  pa : Nat
  old : Word
  new_ : Word
  key : Nat
  level : Nat
  s2 : Bool
  s1walk : Bool
  s1lvl : Nat
  ipa : Nat
  deriving DecidableEq, Repr

/-- What stage 2 gives for one address: the PA, the leaf's KEYID and attribute entry, the entries read, the A and D updates. -/
structure S2Out where
  pa : Nat
  keyid : Nat
  attr : Nat
  leaf : Leaf
  cache : List TlbEntry
  deriving DecidableEq, Repr

/-- Stage 2 of an IPA: the walk only (R182, R187). -/
def s2Walk (s : State) (c : Nat) (tlb : List TlbEntry) (w : Bool) (ipa : Nat) : S2Out ⊕ XFault :=
  let tcr := sysEff s c 0x421 w
  let lv5 := bit tcr 1
  let lv := if lv5 then 0 else 1
  if ipa ≥ 2 ^ 52 ∨ (!lv5 ∧ ipa ≥ 2 ^ 48) then .inr { rank := 2, code := 0x02, level := lv, s2 := true, ipa := ipa }
  else
    let k := fld (sysEff s c 0x411 w) 62 52
    let t : TlbTag := ⟨w, 1, 2, fld tcr 63 48, 0⟩
    match walk2 s (getCore s c).served tlb t k ipa 6 lv (fld (sysEff s c 0x420 w) 51 12 * 4096) [] with
    | .inr f => .inr { f with s2 := true, ipa := ipa }
    | .inl (l, cache) =>
      .inl { pa := leafOut l ipa, keyid := fld l.e 62 52, attr := attrEntry (sysEff s c 0x412 w) (fld l.e 11 9),
             leaf := l, cache := cache }

/-- The permission causes of stage 2 for an access (R196, R201), in the order of R208: rank and code. -/
def s2Perm (had : Bool) (e : Word) (kind : AccKind) : Option (Nat × Nat) :=
  let needR := kind == .read || kind == .rw
  let needW := kind == .write || kind == .rw
  if needR && !(bit e 2) then some (4, 0x10)
  else if needW && !(bit e 3) then some (4, 0x11)
  else if kind == .fetch && !(bit e 4) then some (4, 0x12)
  else if needW && !(bit e 8) && !had then some (4, 0x14)
  else none

/-- The leaf with the bits hardware sets for an access (R202). -/
def adSet (e : Word) (wr : Bool) : Word := if wr then e ||| 0x180 else e ||| 0x80

/-- The update a leaf needs for an access, if any (R202). -/
def adNeed (had : Bool) (l : Leaf) (wr : Bool) (key : Nat) (s2 s1walk : Bool) (s1lvl ipa : Nat) : List AdUpd :=
  let n := adSet l.e wr
  if had && n != l.e then [⟨l.pa, l.e, n, key, l.lv, s2, s1walk, s1lvl, ipa⟩] else []

/-- Stage 2 of a stage-1 table address (R189, R201): what it gives, or its fault, with the stage-1 level being read. -/
def s2Table (s : State) (c : Nat) (tlb : List TlbEntry) (w : Bool) (ea lv : Nat) : S2Out ⊕ XFault :=
  match s2Walk s c tlb w ea with
  | .inr f => .inr { f with s1walk := true, s1lvl := lv }
  | .inl o =>
    if !(bit o.leaf.e 7) && !(bit (sysEff s c 0x421 w) 5) then
      .inr { rank := 2, code := 0x05, level := o.leaf.lv, ephys := o.leaf.pa, s2 := true, s1walk := true, s1lvl := lv, ipa := ea }
    else .inl o

/-- The stage-1 walk (R187, R189): levels from lv on, table at tbl (an IPA under stage 2). It gives the leaf, its key, its table address
and stage 2's answer for that, the entries read and the updates of stage-2 entries (made even when the walk ends in a fault, R202). -/
def walk1 (s : State) (c : Nat) (tlb : List TlbEntry) (r : Regime) (t : TlbTag) (k : Nat) (va : Nat) :
    Nat → Nat → Nat → List TlbEntry → List AdUpd →
      (Leaf × Nat × Nat × Option S2Out × List TlbEntry × List AdUpd) ⊕ (XFault × List AdUpd)
  | 0, lv, _, _, ups => .inr ({ rank := 2, code := 0x04, level := lv }, ups)
  | fuel + 1, lv, tbl, acc, ups =>
    let ea := tbl + lvIndex va lv * 8
    let s2had := bit (sysEff s c 0x421 t.world) 5
    let cached := tlb.find? (tlbMatch t va lv)
    -- where the entry lies: through stage 2 when it applies (R189)
    let loc : (Nat × Nat × Bool × Option S2Out × List TlbEntry × List AdUpd) ⊕ XFault :=
      match cached with
      | some x => .inl (x.pa, k, false, none, [], [])
      | none =>
        if r.s2 then
          match s2Table s c tlb t.world ea lv with
          | .inr f => .inr f
          | .inl o =>
            if !(bit o.leaf.e 2) then .inr { rank := 4, code := 0x10, s2 := true, s1walk := true, s1lvl := lv, ipa := ea }
            else
              .inl (o.pa, o.keyid, typeOf (o.attr % 4) == .dev, some o, o.cache,
                adNeed s2had o.leaf false (fld (sysEff s c 0x411 t.world) 62 52) true true lv ea)
        else .inl (ea, k, false, none, [], [])
    match loc with
    | .inr f => .inr ({ f with reads := f.reads + tabReads tlb acc }, ups)
    | .inl (pa, key, devMap, o, cache2, up2) =>
      let got : Word ⊕ (Nat × Nat) := match cached with
        | some x => .inl x.entry
        | none => readEntry s (getCore s c).served pa key t.world devMap
      match got with
      | .inr (rank, code) =>
        let f := { entryFault rank code lv pa key with reads := tabReads tlb (cache2 ++ acc) + 1 }
        if r.s2 && rank == 1 then
          .inr ({ f with level := (o.map (fun z => z.leaf.lv)).getD lv, s2 := true, s1walk := true, s1lvl := lv, ipa := ea }, ups)
        else .inr (f, if rank == 0 then ups ++ up2 else ups)
      | .inl e =>
        let ups := ups ++ up2
        let acc := tlbEntryOf t va lv e pa :: (cache2 ++ acc)
        if !(bit e 0) then .inr ({ rank := 2, code := 0x03, level := lv, ephys := pa, reads := tabReads tlb acc }, ups)
        else if reservedEntry e lv 1 then .inr ({ rank := 2, code := 0x04, level := lv, ephys := pa, reads := tabReads tlb acc }, ups)
        else
          if bit e 1 then walk1 s c tlb r t k va fuel (lv + 1) (fld e 51 12 * 4096) acc ups
          else .inl (⟨e, lv, pa⟩, key, ea, o, acc, ups)

/-- The attributes of one access to be translated. -/
structure AccReq where
  pl : Nat
  world : Bool
  kind : AccKind
  op : OpClass
  misaligned : Bool
  ua : Bool
  deriving DecidableEq, Repr

/-- The permission causes of stage 1 (R196 to R198, R201), in the order of R208. -/
def s1Perm (r : Regime) (a : AccReq) (e : Word) (ty : MemType) (s1dev : Bool) : Option (Nat × Nat × Bool) :=
  let needR := a.kind == .read || a.kind == .rw
  let needW := a.kind == .write || a.kind == .rw
  let user := r.num == 1 && bit e 5
  if r.num == 1 && a.pl == 0 && !(bit e 5) then some (4, 0x13, false)
  else if a.kind == .fetch && a.pl == 1 && user then some (4, 0x16, false)
  else if needR && !(bit e 2) then some (4, 0x10, false)
  else if needW && !(bit e 3) then some (4, 0x11, false)
  else if a.kind == .fetch && !(bit e 4) then some (4, 0x12, false)
  else if a.kind == .fetch && ty == .dev && (s1dev || !r.s2) then some (4, 0x15, false)
  else if needW && !(bit e 8) && !r.had then some (4, 0x14, false)
  else none

/-- TYPE_FAULT codes (R98, R114, R207). -/
def typeCode (op : OpClass) (ty : MemType) : Option Nat :=
  match op with
  | .atomic => if ty = .dev then some 0x30 else none
  | .resv => if ty = .wb then none else some 0x31
  | .q => if ty = .dev then some 0x32 else none
  | _ => none

/-- The protection key causes (R199, R200). -/
def pkeyCode (pkey : Word) (key : Nat) (wr : Bool) : Option Nat :=
  if bit pkey (2 * key) then some 0x40 else if wr && bit pkey (2 * key + 1) then some 0x41 else none

/-- The first of two optional faults, by rank and then stage 1 before stage 2 (R208); what a walk still needs comes before any. -/
def firstFault (a b : Option XFault) : Option XFault :=
  match a, b with
  | some x, some y => if x.need.isSome then some x else if y.need.isSome then some y else if x.rank ≤ y.rank then some x else some y
  | some x, none => some x
  | none, y => y

/-- The PA map's type of an address (R175, R193). -/
def mapType (s : State) (pa : Nat) : MemType :=
  match paKind s pa with
  | .dram _ _ => .wb
  | .cxl _ _ => .wb
  | _ => .dev

/-- The checks after both stages' addresses are known: DATA_ALIGN of a DEV access, TYPE_FAULT, permissions, guard, protection
keys (R78 item 9, R649). `e1` is the stage-1 leaf (none while stage 1 is off), `o2` stage 2's answer. -/
def finalChecks (s : State) (c : Nat) (r : Regime) (a : AccReq) (e1 : Option Word) (s1ty : MemType) (o2 : Option S2Out)
    (ty : MemType) (ipa pa : Nat) : Option (XFault ⊕ Unit) :=
  let s2had := bit (sysEff s c 0x421 a.world) 5
  let stage2Type := r.s2 && s1ty != .dev
  let tyf : Option XFault := (typeCode a.op ty).map (fun code =>
    let own := (typeCode a.op s1ty).isSome
    { rank := 3, code := code, ephys := pa, s2 := r.s2 && !own, ipa := ipa })
  let p1 : Option XFault := match e1 with
    | some e => (s1Perm r a e ty (s1ty == .dev)).map (fun p => { rank := p.1, code := p.2.1, ephys := pa })
    | none => if a.kind == .fetch && ty == .dev && !stage2Type then some { rank := 4, code := 0x15, ephys := pa } else none
  let p2 : Option XFault := match o2 with
    | some o =>
      match s2Perm s2had o.leaf.e a.kind with
      | some (rank, code) =>
        if a.kind == .fetch && ty == .dev && code == 0x14 then some { rank := 4, code := 0x15, s2 := true, ipa := ipa, ephys := pa }
        else some { rank := rank, code := code, s2 := true, ipa := ipa, ephys := pa }
      | none =>
        if a.kind == .fetch && ty == .dev && stage2Type then
          some { rank := 4, code := 0x15, s2 := true, ipa := ipa, ephys := pa }
        else none
    | none => none
  let user := r.num == 1 && (match e1 with | some e => bit e 5 | none => false)
  let guard : Option XFault :=
    if a.kind != .fetch && a.pl == 1 && user && !a.ua then some { rank := 5, code := 0x18, ephys := pa } else none
  let key := (e1.map (fun e => fld e 55 52)).getD 0
  let pk : Option XFault :=
    if a.kind != .fetch && user then
      (pkeyCode (sysGet s c 0x006 (secOf (getCore s c))) key (a.kind == .write || a.kind == .rw)).map (fun code =>
        { rank := 6, code := code, key := key, ephys := pa })
    else none
  if ty == .dev && a.misaligned && a.kind != .fetch && a.op != .maint then some (.inr ())
  else (firstFault tyf (firstFault (firstFault p1 p2) (firstFault guard pk))).map .inl

/-- The result of one pass of a translation: the access, with the entries to cache and the updates to make first, or an
exception. -/
inductive Pass where
  | ok (x : XOk) (cache : List TlbEntry) (upds : List AdUpd) (deny : Option XFault)
  | fault (f : XFault) (upds : List AdUpd)
  | align (upds : List AdUpd) (reads : Nat)
  deriving DecidableEq, Repr

/-- KEYID of an access that stage 2 does not choose (R195). -/
def keyNoS2 (s : State) (c pl : Nat) (w : Bool) : Nat :=
  if pl = 3 then fld (sysEff s c 0x431 w) 62 52 else fld (sysEff s c 0x411 w) 62 52

/-- One pass of a translation (R174 to R208), without its updates. `fresh` says that no cached entry is used. -/
def xlatPass (s : State) (c : Nat) (a : AccReq) (va : Nat) (fresh : Bool) : Pass :=
  let r := regimeRegs s c a.pl a.world
  let tlb := if fresh then [] else (getCore s c).tlb
  let k := keyNoS2 s c a.pl a.world
  let s2had := bit (sysEff s c 0x421 a.world) 5
  let wr := a.kind == .write || a.kind == .rw
  -- stage 2 of the access itself, then the checks
  let finish := fun (e1 : Option Leaf) (s1ty : MemType) (atp1 ipa : Nat) (cache : List TlbEntry) (ups own : List AdUpd)
      (f1 : Option XFault) (deny : Option XFault) =>
    if r.s2 then
      match s2Walk s c tlb a.world ipa with
      | .inr f => Pass.fault { (firstFault f1 (some f)).getD f with reads := f.reads + tabReads tlb cache } ups
      | .inl o =>
        let f2 : Option XFault := if !(bit o.leaf.e 7) && !s2had then
            some { rank := 2, code := 0x05, level := o.leaf.lv, ephys := o.leaf.pa, s2 := true, ipa := ipa } else none
        let n := tabReads tlb (cache ++ o.cache)
        match firstFault f1 f2 with
        | some f => Pass.fault { f with reads := n } ups
        | none =>
          let ty := stricter (stricter s1ty (typeOf (o.attr % 4))) (mapType s o.pa)
          match finalChecks s c r a (e1.map (·.e)) s1ty (some o) ty ipa o.pa with
          | some (.inl f) => Pass.fault { f with reads := n } ups
          | some (.inr ()) => Pass.align ups n
          | none =>
            let atp := if atp1 ≠ 0 then atp1 else (o.attr >>> 3) % 4
            Pass.ok ⟨o.pa, ty, atp, o.keyid⟩ (cache ++ o.cache)
              (ups ++ own ++ adNeed s2had o.leaf wr (fld (sysEff s c 0x411 a.world) 62 52) true false 0xF ipa)
              (deny.map (fun f => { f with ephys := o.pa }))
    else
      let n := tabReads tlb cache
      match f1 with
      | some f => Pass.fault { f with reads := n } ups
      | none =>
        let ty := stricter s1ty (mapType s ipa)
        match finalChecks s c r a (e1.map (·.e)) s1ty none ty ipa ipa with
        | some (.inl f) => Pass.fault { f with reads := n } ups
        | some (.inr ()) => Pass.align ups n
        | none => Pass.ok ⟨ipa, ty, atp1, k⟩ cache (ups ++ own) deny
  if !r.en then
    if va ≥ 2 ^ 52 then .fault { rank := 2, code := 0x01, level := 0 } []
    else finish none (if r.s2 then .wb else mapType s va) 0 va [] [] [] none none
  else
    let top := if r.lv5 then 56 else 47
    let hi := va >>> top
    let upper := bitOf va top
    let canon := hi == 0 || hi == 2 ^ (64 - top) - 1
    let closed := (upper && bitOf r.halves 1) || (!upper && bitOf r.halves 0)
    let lv := if r.lv5 then 0 else 1
    if !canon || closed then .fault { rank := 2, code := 0x01, level := lv } []
    else
      let t : TlbTag := ⟨a.world, r.num, 1, r.vmid, r.asid⟩
      match walk1 s c tlb r t k va 6 lv (if upper then r.ttbr1 else r.ttbr0) [] [] with
      | .inr (f, ups) => .fault f ups
      | .inl (l, key, ea, o, cache, ups) =>
        let f1 : Option XFault := if !(bit l.e 7) && !r.had then
            some { rank := 2, code := 0x05, level := l.lv, ephys := l.pa } else none
        let up0 := adNeed r.had l wr key false false 0xF 0
        -- stage 2 of the leaf's own address, for an update of it: as the walk read it, or, for a cached leaf, walked now
        let zz : Option S2Out ⊕ XFault :=
          if up0.isEmpty || !r.s2 then .inl none
          else match o with
            | some z => .inl (some z)
            | none =>
              match s2Table s c tlb a.world ea l.lv with
              | .inl z => .inl (some z)
              | .inr f => .inr f
        match zz with
        | .inr f => .fault { f with reads := f.reads + tabReads tlb cache } ups
        | .inl z =>
          let k2 := fld (sysEff s c 0x411 a.world) 62 52
          let up1 := match z with
            | some z => up0.map (fun u => { u with pa := z.pa, key := z.keyid })
            | none => up0
          -- stage 2 must permit the write of an A or D update of a stage-1 entry (R189)
          let deny : Option XFault := match z with
            | some z =>
              if !(bit z.leaf.e 3) then
                some { rank := 4, code := 0x11, s2 := true, s1walk := true, s1lvl := l.lv, adUpd := true, ipa := ea }
              else if !(bit z.leaf.e 8) && !s2had then
                some { rank := 4, code := 0x14, s2 := true, s1walk := true, s1lvl := l.lv, adUpd := true, ipa := ea }
              else none
            | none => none
          let upz : List AdUpd := match z with
            | some z =>
              adNeed s2had { z.leaf with e := if o.isSome then adSet z.leaf.e false else z.leaf.e } true k2 true true l.lv ea
            | none => []
          let at1 := attrEntry r.mattr (fld l.e 11 9)
          finish (some l) (typeOf (at1 % 4)) ((at1 >>> 3) % 4) (leafOut l va) cache ups (upz ++ up1) f1 deny

/-- The outcome of the compare-and-swaps of a translation (R203): all made; an entry had changed; one ended in error (uncorrectable or
not); one has not been answered yet. -/
inductive CasRes where
  | done | changed | error (u : AdUpd) (uncorr : Bool) | wait
  deriving DecidableEq, Repr

/-- The cached entries read at an address leave core c's cache (R209): their update is under way. -/
def dropTlbAt (s : State) (c pa : Nat) : State :=
  setCore s c { getCore s c with tlb := (getCore s c).tlb.filter (fun x => x.pa != pa) }

/-- The compare-and-swap of R203 at the entry's home. Where the home does not answer at once, or lies in another package, the
instruction waits; the walk then begins again on what the entry holds. -/
def casEntry (s : State) (c : Nat) (w : Bool) (u : AdUpd) : CasRes × State :=
  let line := u.pa / 64
  match (getCore s c).served.find? (fun f => f.line == line && f.cas) with
  | some f => (.error u f.poison, s)
  | none =>
    if (getCore s c).asked.any (fun q => q.addr == u.pa && q.cas) then (.wait, s)
    else
      let (tx, s) := newTxid s
      let m : Packet := { cmd := .cas64, src := coreStop c, dst := lineStop s line, txid := tx, world := w, keyid := u.key,
                          addr := u.pa, holder := c, opnd := u.new_, cmp := u.old }
      if isLocalMem s u.pa then
        let s := transact s m {}
        match takeAny (fun p => p.txid == tx && p.dst == coreStop c && (p.cmd == .wrCmp || p.cmd == .errRsp)) s with
        | some (p, s) =>
          if p.cmd = .errRsp then (.error u p.poison, s) else (if p.arg = 1 then .done else .changed, dropFill s c line)
        | none => (.wait, addAsk (dropTlbAt s c u.pa) c tx .cas64 u.pa)
      else if isRemoteMem s u.pa then
        (.wait, addAsk (send (dropTlbAt s c u.pa) { toAgent s m with holder := 0xFE }) c tx .cas64 u.pa)
      else (.error u false, s)

/-- The updates of a translation are made in order; the first that is not made ends them. -/
def casAll (s : State) (c : Nat) (w : Bool) : List AdUpd → CasRes × State
  | [] => (.done, s)
  | u :: us =>
    match casEntry s c w u with
    | (.done, s) => casAll s c w us
    | r => r

/-- The entries a walk read, as they stand after its updates (R209, R210). -/
def afterUpds (ups : List AdUpd) (x : TlbEntry) : TlbEntry :=
  match ups.reverse.find? (fun u => u.pa == x.pa) with
  | some u => { x with entry := u.new_ }
  | none => x

/-- The core caches the entries of a walk that ended without a fault, in place of older ones of the same tags. -/
def cacheEntries (s : State) (c : Nat) (xs : List TlbEntry) : State :=
  let k := getCore s c
  let old := k.tlb.filter (fun y => !(xs.any (fun x => x.world == y.world && x.regime == y.regime && x.stage == y.stage &&
    x.vmid == y.vmid && x.asid == y.asid && x.glob == y.glob && x.lv == y.lv && x.idx == y.idx)))
  setCore s c { k with tlb := xs ++ old }

/-- What a pass needs before it can go on: the address of a table entry, and its KEYID. -/
def Pass.needs : Pass → Option (Nat × Nat)
  | .fault f _ => f.need.map (fun k => (f.ephys, k))
  | _ => none

/-- The updates a pass makes. -/
def Pass.upds : Pass → List AdUpd
  | .ok _ _ us deny => if deny.isSome then [] else us
  | .fault _ us => us
  | .align us _ => us

/-- How many table entries a pass read. -/
def Pass.reads (tlb : List TlbEntry) : Pass → Nat
  | .ok _ cache _ _ => tabReads tlb cache
  | .fault f _ => f.reads
  | .align _ n => n

/-- A walk that read n table entries is counted (R541); a translation that read none started no walk. -/
def countWalk (s : State) (c n : Nat) : State := if n = 0 then s else countTimes (countEvent s c 0x00A) c 0x00B n

/-- How a translation ends once the updates of its pass are made. -/
def passEnd (s : State) (c : Nat) (a : AccReq) (va : Nat) (p : Pass) : Xres × State :=
  match p with
  | .fault f _ => (.fault (faultExc f va a.kind), s)
  | .align _ _ => (.fault { cls := 0x0A, wnr := a.kind == .write || a.kind == .rw, eaddr := BitVec.ofNat 64 va }, s)
  | .ok _ _ _ (some f) => (.fault (faultExc f va a.kind), s)
  | .ok x cache ups none => (.ok x, cacheEntries s c (cache.map (afterUpds ups)))

/-- The fault of an update that ended in error (R191, R205). -/
def casFault (u : AdUpd) (uncorr : Bool) : XFault :=
  { rank := 0, code := if uncorr then 0x20 else 0x21, level := u.level, ephys := u.pa, s2 := u.s2, s1walk := u.s1walk,
    s1lvl := u.s1lvl, adUpd := true, ipa := u.ipa }

/-- The PARTID of core c's requests (R250). -/
def corePart (s : State) (c : Nat) : Nat := fld (sysEff s c 0x422 (secOf (getCore s c))) 3 0

/-- Translation of one access, with its A and D updates and restarts (R203). `fuel` bounds the restarts of one command: when they are
used up the instruction stands and its command is given again. -/
def xlatLoop (c : Nat) (a : AccReq) (va : Nat) : Nat → Bool → State → Xres × State
  | 0, _, s => (.wait, s)
  | fuel + 1, fresh, s =>
    let p := xlatPass s c a va fresh
    match p.needs with
    | some (pa, k) =>
      (match readNc s c (pa / 64) ⟨a.world, corePart s c, k⟩ with
       | (.wait, s) => (.wait, s)
       | (.data d b, s) => xlatLoop c a va fuel fresh (addFill s c { line := pa / 64, data := d, poison := b })
       | (.err, s) => xlatLoop c a va fuel fresh (addFill s c { line := pa / 64, data := 0, err := true }))
    | none =>
      let n := p.reads (if fresh then [] else (getCore s c).tlb)
      match casAll s c a.world p.upds with
      | (.done, s) => passEnd (countWalk s c n) c a va p
      | (.changed, s) => xlatLoop c a va fuel true (countWalk s c n)
      | (.wait, s) => (.wait, s)
      | (.error u b, s) => (.fault (faultExc (casFault u b) va a.kind), countWalk s c n)

/-- How many restarts one command makes. -/
def xlatFuel : Nat := 64

/-! ### The management processor's protection unit (R89) -/

/-- The lowest-numbered enabled region that contains an address. -/
def mpuRegion (s : State) (a : Nat) : Option Nat :=
  (List.range 16).find? (fun n =>
    bit (sysEff s mpCore 0xC20 false) n &&
    decide (fld (sysEff s mpCore (0xC00 + n) false) 31 5 ≤ a / 32) &&
    decide (a / 32 ≤ fld (sysEff s mpCore (0xC10 + n) false) 31 5))

/-- The background type of a management processor address (R89, R594). -/
def mpBgType (a : Nat) : MemType :=
  if a < 0x100000 ∨ (0x10000000 ≤ a ∧ a < 0x10010000) ∨ (0x20000000 ≤ a ∧ a < 0x24000000) then .wb else .dev

/-- The code of an access a region denies (R89, R207; log entry 89). -/
def mpuCode (l : Word) (pl : Nat) (kind : AccKind) : Option Nat :=
  let wr := kind == .write || kind == .rw
  if pl = 0 ∧ bit l 3 = false then some 0x13
  else if (kind == .read || kind == .rw) && !(bit l 0) then some 0x10
  else if wr && !(bit l 1) then some 0x11
  else if kind == .fetch && !(bit l 2) then some 0x12
  else if kind == .fetch && bit l 4 then some 0x15
  else none

/-- The protection unit's decision, in the order of R78: DATA_ALIGN of a DEV access, TYPE_FAULT, then the permission. The "physical"
address of the answer is the 32-bit address itself. -/
def mpuXlat (s : State) (pl : Nat) (kind : AccKind) (op : OpClass) (mis : Bool) (a : Nat) : Xres :=
  let wr := kind == .write || kind == .rw
  let perm (code : Nat) : Xres := .fault {
    cls := if kind == .fetch then 0x12 else 0x13, tgt := .pl 1, wnr := wr,
    detail := 0xF0000000 + code, eaddr := BitVec.ofNat 64 a }
  let decide_ (ty : MemType) (code : Option Nat) : Xres :=
    if ty == .dev && mis && kind != .fetch && op != .maint then
      .fault { cls := 0x0A, wnr := wr, eaddr := BitVec.ofNat 64 a }
    else match typeCode op ty, code with
      | some t, _ => .fault { cls := 0x18, wnr := wr, detail := 0xF0000000 + t, eaddr := BitVec.ofNat 64 a }
      | none, some x => perm x
      | none, none => .ok ⟨a, ty, 0, 0⟩
  match mpuRegion s a with
  | some n =>
    let l := sysEff s mpCore (0xC10 + n) false
    decide_ (if bit l 4 then .dev else .wb) (mpuCode l pl kind)
  | none =>
    if pl = 1 ∧ bit (sysEff s mpCore 0xC20 false) 16 then
      decide_ (mpBgType a) (if kind == .fetch && mpBgType a == .dev then some 0x15 else none)
    else perm (if kind == .fetch then 0x12 else if wr then 0x11 else 0x10)

/-- Translation of one access of core c at its current level and world (R176): a PL3 data access walks as secure and carries
the world of MONCTL.AW. -/
def xlat (s : State) (c : Nat) (kind : AccKind) (op : OpClass) (mis : Bool) (va : Nat) (fresh : Bool) : Xres × State :=
  let k := getCore s c
  if c = mpCore then (mpuXlat s (plOf k) kind op mis (va % 2 ^ 32), s)
  else
    xlatLoop c { pl := plOf k, world := secOf k, kind := kind, op := op, misaligned := mis, ua := bit k.cstat 6 } va xlatFuel fresh s

end Sys2Proof.Machine
end

