-- ==== Sys2Proof/Machine/Intr.lean ====
section
/-! DEFINITION. Interrupts (R516 to R535): which are signalled to a core, how they are routed and taken, acknowledging and ending
them; local sources and timers (R536, R539); the guest interface. -/
namespace Sys2Proof.Machine

open Sys2Proof

/-! ### Logical cores (R20, R31, R32) -/

/-- Whether logical core n exists now: LCMAPn.VALID (R32). -/
def lcValid (s : State) (n : Nat) : Bool := decide (n < 216) && bit (rg s .lcmap n) 15

/-- The physical core of logical core n (LCMAPn). -/
def lcCore (s : State) (n : Nat) : Nat := rgF s .lcmap n 11 8 * 20 + rgF s .lcmap n 4 0

/-- The logical number of physical core c, if it has one. -/
def coreLc (s : State) (c : Nat) : Option Nat := (List.range 216).find? (fun n => lcValid s n && lcCore s n == c)

/-- The core an interrupt for logical core n reaches: none when n is vacant, or its core stopped or fenced (R521). -/
def lcTarget (s : State) (n : Nat) : Option Nat :=
  if lcValid s n && !(getCore s (lcCore s n)).stopped && !(fencedAtHub s (lcCore s n)) then some (lcCore s n) else none

/-! ### Signalled interrupts -/

/-- An interrupt that is pending for a core: number, priority, world and target level. -/
structure Sig where
  intid : Nat
  prio : Nat
  world : Bool
  level : Nat
  guest : Bool := false
  deriving DecidableEq, Repr

/-- The compare time of a timer of core c: PTIME, or PTIME - TOFFSET for the PL1 timer of a guest (R536). -/
def timerTime (s : State) (c lv : Nat) (w : Bool) : Nat :=
  if lv = 1 && bit (sysEff s c 0x500 w) 0 then (s.ptime - sysEff s c 0x702 w).toNat else s.ptime.toNat

/-- The condition of the timer of a level, in the copy of world w (R536). -/
def timerCond (s : State) (c lv : Nat) (w : Bool) : Bool :=
  let ctl := sysEff s c (0x701 + 0x10 * lv) w
  bit ctl 0 && decide ((sysEff s c (0x700 + 0x10 * lv) w).toNat ≤ timerTime s c lv w)

/-- The number a timer of a level and world has in Core.timerPend. -/
def timerKey (lv : Nat) (w : Bool) : Nat := lv * 2 + w.toNat

/-- Whether a local source of a core is active: acknowledged and not ended (R525). -/
def localActive (k : Core) (intid : Nat) : Bool := k.active.any (fun a => a.intid == intid)

/-- The local sources that are pending at core c (R516, R533, R536, R539). -/
def localSigs (s : State) (c : Nat) : List Sig :=
  let k := getCore s c
  let timers := ([1, 2].flatMap (fun lv => [(lv, false), (lv, true)])) ++ [(3, true)]
  let ts := timers.filterMap (fun p =>
    if k.timerPend.contains (timerKey p.1 p.2) && timerCond s c p.1 p.2 &&
        !(bit (sysEff s c (0x701 + 0x10 * p.1) p.2) 1) then
      some { intid := 0x80F + p.1, prio := 0x40, world := p.2, level := p.1 } else none)
  let ovf := fld (sysGet s c 0x931 false) 7 0 &&& fld (sysEff s c 0x930 false) 23 16
  let os : List Sig := if ovf ≠ 0 then
    [{ intid := 0x813, prio := 0x40, world := false, level := if bit (sysEff s c 0x501 false) 3 then 2 else 1 }] else []
  let ps : List Sig := if k.postPend then [{ intid := 0x814, prio := 0x40, world := false, level := 2 }] else []
  (ts ++ os ++ ps).filter (fun g => !(localActive k g.intid))

/-- The share that holds vector v, if any (R446, R530). -/
def vecShare (s : State) (v : Nat) : Option Nat :=
  (s.shares.find? (fun p => decide (p.2.vec0 ≤ v) && decide (v < p.2.vec0 + p.2.nvec))).map (·.1)

/-- Whether vector v acts as secure: its SEC bit, or a holding share created with SOWN = 1 (R528). -/
def vecSec (s : State) (v : Nat) : Bool :=
  bit (rg s .msictl v) 31 || (match vecShare s v with | some n => rgF s .shstate n 23 23 == 1 | none => false)

/-- The interrupt of a configuration word (INTSRCn or MSICTLv) when it can be delivered: pending, enabled, not active (R520). -/
def cfgSig (intid : Nat) (v : Word) (sec : Bool) : Option Sig :=
  if bit v 1 && bit v 0 && !(bit v 2) then
    some { intid := intid, prio := fld v 15 8, world := sec, level := fld v 29 28 } else none

/-- The wired and message-signalled interrupts whose message has reached core c and that still name it (R521). -/
def routedSigs (s : State) (c : Nat) : List Sig :=
  (getCore s c).arrived.filterMap (fun i =>
    let v := if i < 0x800 then rg s .intsrc i else rg s .msictl (i - 0x8000)
    if lcValid s (fld v 23 16) && lcCore s (fld v 23 16) == c && !(decide (i ≥ 0x8000) && bit v 30) then
      cfgSig i v (if i < 0x800 then bit v 31 else vecSec s (i - 0x8000)) else none)

/-- The software-generated interrupts pending at core c (R526). -/
def sgiSigs (s : State) (c : Nat) : List Sig :=
  (getCore s c).sgi.map (fun g => { intid := 0x800 + g.num, prio := g.prio, world := g.world, level := g.level })

/-- Whether an interrupt of priority p is signalled under a mask, a depth and a running priority (R522). -/
def mayPass (mask depth running p : Nat) : Bool :=
  decide (p < mask) && (depth == 0 || decide (p < running)) && decide (depth < 7)

/-- The running priority of a core's physical interface. -/
def runPri (k : Core) : Nat := (k.active.getLast?.map (·.prio)).getD 0xFF

/-- The wired sources that interrupt the management processor (R596): pending and enabled in its bitmap; all of one priority, at PL1. -/
def mpSigs (s : State) : List Sig :=
  ((List.range 928).filter (fun n => (s.mpPend &&& s.mpEn).testBit n)).map (fun n => { intid := n, prio := 0, world := false, level := 1 })

/-- The interrupts signalled to core c at its physical interface (R522, R596). -/
def signalled (s : State) (c : Nat) : List Sig :=
  if c = mpCore then mpSigs s
  else
    let k := getCore s c
    let mask := fld (sysEff s c 0x800 false) 7 0
    (localSigs s c ++ routedSigs s c ++ sgiSigs s c).filter (fun g => mayPass mask k.active.length (runPri k) g.prio)

/-- The virtual interrupts signalled to the guest of core c (R534): the bits of PEND as last read, under VIPRIMASK and VIRUNPRI. -/
def guestSigs (s : State) (c : Nat) : List Sig :=
  let k := getCore s c
  let w := secOf k
  if c ≠ mpCore && bit (sysEff s c 0x500 w) 1 && bit (sysEff s c 0x504 w) 0 then
    let mask := fld (sysEff s c 0x810 false) 7 0
    let run := sysGet s c 0x813 false
    let depth := fld run 2 0
    let rp := fld (run >>> (8 * depth)) 7 0
    ((List.range 1024).filter (fun v => k.vpend.testBit v && mayPass mask depth rp (v / 4))).map (fun v =>
      { intid := v, prio := v / 4, world := w, level := 1, guest := true })
  else []

/-- The level a signalled interrupt is routed to (R523). -/
def routeLevel (k : Core) (g : Sig) : Nat := if plOf k = 3 || secOf k == g.world then g.level else 3

/-- Whether an interrupt routed to level L, or a deferred error with mask bit b, may be taken now (R75). -/
def mayTake (k : Core) (b L : Nat) : Bool := decide (plOf k < L) || (plOf k == L && !(bit k.cstat b))

/-- The better of two interrupts: lower priority number, then lower INTID (R645). -/
def betterSig (a b : Sig) : Sig := if b.prio < a.prio ∨ (b.prio = a.prio ∧ b.intid < a.intid) then b else a

/-- The best of a list. -/
def bestSig : List Sig → Option Sig
  | [] => none
  | g :: gs => some (gs.foldl betterSig g)

/-- The interrupt core c takes at a boundary, if any (R645). -/
def dueInterrupt (s : State) (c : Nat) : Option Sig :=
  let k := getCore s c
  bestSig ((signalled s c ++ guestSigs s c).filter (fun g => mayTake k 4 (routeLevel k g)))

/-- The target level of a pending deferred error (R76). -/
def defTarget (s : State) (c : Nat) : Nat :=
  let k := getCore s c
  if c ≠ mpCore && plOf k ≤ 1 && bit (sysEff s c 0x500 (secOf k)) 3 then 2 else localTgt k

/-- Whether core c takes a deferred error at its next boundary (R75, R77). -/
def dueDeferred (s : State) (c : Nat) : Bool :=
  (getCore s c).defErr.isSome && mayTake (getCore s c) 5 (defTarget s c)

/-- Whether core c halts at its next boundary (R513). -/
def dueHalt (s : State) (c : Nat) : Bool := (getCore s c).haltPend && invasive s (secOf (getCore s c))

/-! ### Acknowledging and ending (R524, R525) -/

/-- A register word of the IACK layout. -/
def iackWord (o : Option Sig) : Word :=
  match o with
  | some g => BitVec.ofNat 64 (g.prio % 256 * 2 ^ 16 + g.intid)
  | none => 0xFFFF

/-- The interrupt a read of IACK takes (R524). -/
def iackChoice (s : State) (c : Nat) : Option Sig :=
  let k := getCore s c
  bestSig ((signalled s c).filter (fun g =>
    if plOf k = 3 then g.world && g.level == 3 else g.world == secOf k && g.level == plOf k))

/-- What IPEND shows (R524). -/
def ipendChoice (s : State) (c : Nat) : Option Sig :=
  if plOf (getCore s c) = 3 then bestSig (signalled s c) else iackChoice s c

/-- The effect of IACK on interrupt g: PEND cleared, ACTIVE set, priority pushed (R524, R526). -/
def iackTake (s : State) (c : Nat) (g : Sig) : State :=
  let s :=
    if g.intid < 0x800 then setRgF (setRgF s .intsrc g.intid 1 1 0) .intsrc g.intid 2 2 1
    else if g.intid ≥ 0x8000 then setRgF (setRgF s .msictl (g.intid - 0x8000) 1 1 0) .msictl (g.intid - 0x8000) 2 2 1
    else s
  let k := getCore s c
  let sgi := if 0x800 ≤ g.intid ∧ g.intid < 0x810 then
      k.sgi.filter (fun x => !(x.num + 0x800 == g.intid && x.world == g.world && x.level == g.level)) else k.sgi
  setCore s c { k with
    sgi := sgi
    postPend := k.postPend && g.intid != 0x814
    arrived := k.arrived.filter (fun i => i != g.intid)
    active := k.active ++ [⟨g.intid, g.prio⟩] }

/-- IRUNPRI (R522): the priorities of the active interrupts in order of acknowledgement, and how many they are. -/
def irunpri (k : Core) : Word :=
  BitVec.ofNat 64 ((List.range 7).foldl (fun a i =>
    a + ((k.active.map (·.prio)).getD i 0) % 256 * 2 ^ (8 * i + 8)) (k.active.length % 8))

/-- A read of IACK by core c: the word it returns and the state after it. -/
def readIack (s : State) (c : Nat) : Word × State :=
  match iackChoice s c with
  | some g => (iackWord (some g), iackTake s c g)
  | none => (0xFFFF, s)

/-- The list without its last element that satisfies f. -/
def dropLast1 {α : Type} (f : α → Bool) (l : List α) : List α := ((l.reverse).eraseP f).reverse

/-- A write of INTID i to IEOI by core c (R525): the interrupt this core acknowledged ceases to be active. -/
def writeIeoi (s : State) (c i : Nat) : State :=
  let k := getCore s c
  if k.active.any (fun a => a.intid == i) then
    let s := if i < 0x800 then setRgF s .intsrc i 2 2 0
      else if i ≥ 0x8000 then setRgF s .msictl (i - 0x8000) 2 2 0 else s
    setCore s c { getCore s c with active := dropLast1 (fun a => a.intid == i) k.active }
  else s

/-- One SGI reaches core t (R526). -/
def sgiSet (s : State) (t num : Nat) (w : Bool) (lv prio : Nat) : State :=
  let k := getCore s t
  let same := fun (x : SgiPend) => x.num == num && x.world == w && x.level == lv
  let p := match k.sgi.find? same with
    | some x => min x.prio prio
    | none => prio
  setCore s t { k with sgi := k.sgi.filter (fun x => !(same x)) ++ [⟨num, w, lv, p⟩] }

/-- A write of ISGI by core c (R526). -/
def writeIsgi (s : State) (c : Nat) (v : Word) : State :=
  let k := getCore s c
  let lv := plOf k
  let w := secOf k
  let num := fld v 3 0
  let prio := fld v 15 8
  if bit v 40 then
    (List.range 216).foldl (fun s n =>
      match lcTarget s n with
      | some t => if t = c then s else sgiSet s t num w lv prio
      | none => s) s
  else
    match lcTarget s (fld v 39 32) with
    | some t => sgiSet s t num w lv prio
    | none => incRgF s .icstat 0 47 32

/-! ### The guest interface and posting records (R531 to R534) -/

/-- The 64 bytes of the memory line at a byte address, as its home would deliver them now. -/
def peekLine (s : State) (pa k : Nat) : LineData := (cohPeek s (pa / 64) k).data

/-- The PEND field of a posting record as memory holds it now. -/
def recordPend (s : State) (pa : Nat) : Nat := (peekLine s pa 0).toNat + (peekLine s (pa + 64) 0).toNat * 2 ^ 512

/-- The record VPOST of core c names in its current world (R533). -/
def vpostRecord (s : State) (c : Nat) : Nat := fld (sysEff s c 0x504 (secOf (getCore s c))) 51 8 * 256

/-- Whether the guest interface of core c is in use: HCFG.VI and VPOST.EN (R534). -/
def guestOn (s : State) (c : Nat) : Bool :=
  let w := secOf (getCore s c)
  c != mpCore && bit (sysEff s c 0x500 w) 1 && bit (sysEff s c 0x504 w) 0

/-- Whether hardware at a stop can read a line of the posting record at rec as its home would answer now (R531): the home is in this
package and takes the read at once, and no operation of that stop on the record is under way. -/
def hwQuiet (s : State) (st : StopId) (rec line : Nat) : Bool :=
  isLocalMem s (line * 64) && (busyOf s line).isNone && !(stopDead s (lineStop s line)) && !(stopHeld s (lineStop s line)) &&
  s.hwOps.all (fun o => !(o.st == st && o.record == rec))

/-- Whether the two lines of PEND can be read so. -/
def pendQuiet (s : State) (st : StopId) (rec : Nat) : Bool :=
  hwQuiet s st rec (rec / 64) && hwQuiet s st rec (rec / 64 + 1)

/-- The address, the operation and the operand of an operation's next atomic (R294, R531); a read is an OR of zero. -/
def hwFar (o : HwOp) : Nat × Nat × Word :=
  match o.act with
  | .pend v => (o.record + v / 64 * 8, 3, (1 : Word) <<< (v % 64))
  | .ctl => (o.record + 0x80, 3, 0)
  | .on => (o.record + 0x80, 3, 1)
  | .off => (o.record + 0x80, 2, ~~~(1 : Word))
  | .read => (o.record, 3, 0)
  | .word i => (o.record + i * 8, 3, 0)
  | .ack v => (o.record + v / 64 * 8, 2, ~~~((1 : Word) <<< (v % 64)))

/-- The operation's next atomic goes to the record's home (R294, R304, R531): its answer if it comes at once (no word: an error), else the
operation waits for it. -/
def hwAsk (s : State) (o : HwOp) : Option (Option Word) × State :=
  let (pa, aop, x) := hwFar o
  if !(isLocalMem s pa) && !(isRemoteMem s pa) then (some none, s)
  else
    let (tx, s) := newTxid s
    let m : Packet := {
      cmd := .far, src := o.st, dst := lineStop s (pa / 64), txid := tx, world := o.world, addr := pa, holder := 0xFE, aop := aop,
      size := 8, opnd := x }
    let wait := fun (s : State) =>
      { addOutst s { stop := o.st, txid := tx, cmd := .far, addr := pa, since := now s } with hwOps := s.hwOps ++ [{ o with txid := tx }] }
    if !(isLocalMem s pa) then (none, sendOut (wait s) m)
    else
      let s := transact s m {}
      match takeAny (fun p => p.txid == tx && p.dst == o.st && (p.cmd == .farRsp || p.cmd == .errRsp)) s with
      | some (p, s) => (some (if p.cmd = .farRsp ∧ !p.poison then some (BitVec.ofNat 64 (p.data.toNat % 2 ^ 64)) else none), s)
      | none => (none, wait s)

/-- What an operation has after its atomic's answer (R532, R533): its next atomic, if it goes on, and the state. -/
def hwAfter (s : State) (o : HwOp) (r : Option Word) : Option HwAct × State :=
  match o.act, r with
  | .pend _, _ => (some .ctl, s)
  | .ctl, some v => (if bit v 1 then none else some .on, s)
  | .on, some v =>
    match (if bit v 0 then none else lcTarget s (fld v 39 32)) with
    | some t => (none, sendG s { cmd := .irq, src := o.st, dst := coreStop t, cls := .g, addr := o.record, holder := 1, arg := t })
    | none => (none, s)
  | .off, _ => (some .read, s)
  | .read, _ => (some (.word 0), s)
  | .word i, some v =>
    let c := coreOfStop o.st
    let k := getCore s c
    let s := if guestOn s c ∧ vpostRecord s c = o.record then
        setCore s c { k with vpend := k.vpend - k.vpend / 2 ^ (64 * i) % 2 ^ 64 * 2 ^ (64 * i) + v.toNat * 2 ^ (64 * i) }
      else s
    (if i < 15 then some (.word (i + 1)) else none, s)
  | _, _ => (none, s)

/-- An operation on a posting record runs until it ends or waits for a home. What its home would answer now it reads at once. -/
def hwRun : Nat → State → HwOp → State
  | 0, s, _ => s
  | n + 1, s, o =>
    let c := coreOfStop o.st
    if o.act = .read ∧ pendQuiet s o.st o.record then
      (if guestOn s c ∧ vpostRecord s c = o.record then setCore s c { getCore s c with vpend := recordPend s o.record } else s)
    else
      let r := if o.act = .ctl ∧ hwQuiet s o.st o.record (o.record / 64 + 2) then
          (some (some (BitVec.ofNat 64 (lineGet (peekLine s (o.record + 0x80) 0) ((o.record + 0x80) % 64) 8))), s)
        else if o.act = .read then (some none, s) else hwAsk s o
      match r with
      | (none, s) => s
      | (some v, s) =>
        match hwAfter s o v with
        | (some a, s) => hwRun n s { o with act := a }
        | (none, s) => s

/-- An operation on the record at rec by the hardware at a stop (at most the 19 atomics of a notified core's reading). -/
def hwDo (s : State) (st : StopId) (w : Bool) (rec : Nat) (a : HwAct) : State := hwRun 20 s { st := st, world := w, record := rec, act := a }

/-- The core re-reads PEND (R534). -/
def rereadPend (s : State) (c : Nat) : State :=
  if guestOn s c then hwDo s (coreStop c) (secOf (getCore s c)) (vpostRecord s c) .read else s

/-- The operation of a stop under a transaction, if there is one. -/
def hwOf (s : State) (st : StopId) (tx : Nat) : Option HwOp := s.hwOps.find? (fun o => o.st == st && o.txid == tx)

/-- The answer to an operation that waits (R531): no word when it is an error. -/
def hwArrive (s : State) (o : HwOp) (r : Option Word) : State :=
  let s := { s with hwOps := s.hwOps.erase o }
  match hwAfter s o r with
  | (some a, s) => hwRun 20 s { o with act := a }
  | (none, s) => s

/-- VIRUNPRI with a priority pushed. -/
def pushPri (v : Word) (p : Nat) : Word :=
  let d := fld v 2 0
  setFld (setFld v (8 * d + 15) (8 * d + 8) p) 2 0 (d + 1)

/-- VIRUNPRI with its last priority popped. -/
def popPri (v : Word) : Word :=
  let d := fld v 2 0
  if d = 0 then v else setFld (setFld v (8 * d + 7) (8 * d) 0) 2 0 (d - 1)

/-- A reading of PEND that core c has under way starts over after the answer it waits for: what it has read may show a bit the core
is about to clear. -/
def readAgain (s : State) (c : Nat) : State :=
  { s with hwOps := s.hwOps.map (fun o => match o.act with
      | .word _ => if o.st = coreStop c then { o with act := .off } else o
      | _ => o) }

/-- A read of VIACK by core c (R534): the bit of the chosen interrupt is cleared in the record by an atomic AND. -/
def readViack (s : State) (c : Nat) : Word × State :=
  match bestSig (guestSigs s c) with
  | none => (0xFFFF, s)
  | some g =>
    let s := hwDo (readAgain s c) (coreStop c) (secOf (getCore s c)) (vpostRecord s c) (.ack g.intid)
    let k := getCore s c
    let s := setCore s c { k with vpend := if k.vpend.testBit g.intid then k.vpend - 2 ^ g.intid else k.vpend }
    let s := sysSet s c 0x813 false (pushPri (sysGet s c 0x813 false) g.prio)
    (iackWord (some g), s)

/-- A write of VIEOI by core c (R534): one entry of VIRUNPRI is popped when the interrupt's priority is on it, and PEND is read
again. -/
def writeVieoi (s : State) (c i : Nat) : State :=
  let run := sysGet s c 0x813 false
  let d := fld run 2 0
  let has := i < 1024 ∧ (List.range d).any (fun j => fld run (8 * j + 15) (8 * j + 8) == i / 4)
  let s := if has then sysSet s c 0x813 false (popPri run) else s
  rereadPend s c

/-- A post of virtual INTID v to the record at pa by the interrupt controller (R532): PEND, then ON, then the notification to NDEST. -/
def postTo (s : State) (pa v : Nat) : State := hwDo s ⟨12, 18⟩ false pa (.pend v)

/-! ### Taking an interrupt or a deferred error (R71, R645) -/

/-- Core c takes interrupt g at its routed level. -/
def takeSig (s : State) (c : Nat) (g : Sig) : State :=
  let s := countEvent s c 0x013
  let e : Exc := { cls := 0x40, tgt := .pl (routeLevel (getCore s c) g) }
  takeExcAt s c e (getCore s c).pc (esynOf e)

/-- Core c takes its pending deferred error (R75, R76, R239). -/
def takeDeferred (s : State) (c : Nat) : State :=
  match (getCore s c).defErr with
  | none => s
  | some d =>
    let e : Exc := { cls := 0x20, tgt := .pl (defTarget s c), deferred := true, eaddr := d.eaddr, ephys := d.ephys }
    let s := setCore s c { getCore s c with defErr := none }
    takeExcAt s c e (getCore s c).pc d.esyn

/-! ### The controller's messages (R520, R521) -/

/-- The interrupts the controller has to send: pending, enabled, not active, named core present, message not yet there. -/
def undelivered (s : State) (intid : Nat) : Option Nat :=
  let v := if intid < 0x800 then rg s .intsrc intid else rg s .msictl (intid - 0x8000)
  if bit v 1 && bit v 0 && !(bit v 2) && !(decide (intid ≥ 0x8000) && bit v 30) then lcTarget s (fld v 23 16) else none

/-- The message of an interrupt reaches its target core (R521). -/
def deliverIrq (s : State) (intid : Nat) : State :=
  match undelivered s intid with
  | none => s
  | some t =>
    let k := getCore s t
    if k.arrived.contains intid then s else setCore s t { k with arrived := k.arrived ++ [intid] }

end Sys2Proof.Machine
end

