-- ==== Sys2Proof/Machine/Operands.lean ====
section
/-! DEFINITION. Operand forms: the words the formats spell (R64 to R68, for the DETAIL of UNDEF), which register numbers a core
has (R66, R88), and effective addresses (R60, R67). -/
namespace Sys2Proof.Machine

open Sys2Proof

/-! ### Words -/

/-- A T-format word. -/
def wordT (maj rd rs1 rs2 fn : Nat) : Nat := maj * 2 ^ 26 + rd * 2 ^ 21 + rs1 * 2 ^ 16 + rs2 * 2 ^ 11 + fn
/-- A K-format word. -/
def wordK (maj rd rs1 imm : Nat) : Nat := maj * 2 ^ 26 + rd * 2 ^ 21 + rs1 * 2 ^ 16 + imm
/-- An M-format word. -/
def wordM (maj : Nat) (o : OpM) : Nat :=
  maj * 2 ^ 26 + o.rt.toNat * 2 ^ 21 + o.ab.toNat * 2 ^ 17 + o.mode.toNat * 2 ^ 15 + o.imm.toNat
/-- An N-format word. -/
def wordN (maj : Nat) (o : OpN) : Nat := maj * 2 ^ 26 + o.rt.toNat * 2 ^ 21 + o.bk.toNat * 2 ^ 18 + o.off.toNat
/-- A J-format word, conditional layout. -/
def wordB (maj : Nat) (o : OpB) : Nat := maj * 2 ^ 26 + o.rc.toNat * 2 ^ 21 + o.disp.toNat
/-- A J-format word, long layout. -/
def wordJ (maj : Nat) (d : BitVec 26) : Nat := maj * 2 ^ 26 + d.toNat
/-- A Y-format word. -/
def wordY (maj : Nat) (o : OpY) (fn : Nat) : Nat :=
  maj * 2 ^ 26 + o.qd.toNat * 2 ^ 23 + o.qs1.toNat * 2 ^ 20 + o.qs2.toNat * 2 ^ 17 + o.rx.toNat * 2 ^ 12 +
    o.ln.toNat * 2 ^ 10 + fn
/-- An S-format word. -/
def wordS (o : OpS) (sf : Nat) : Nat := 0x3F * 2 ^ 26 + o.rt.toNat * 2 ^ 21 + o.sys.toNat * 2 ^ 9 + sf
/-- The word of an atomic. -/
def wordAt (o : OpAt) (aop : Nat) : Nat :=
  wordT 0x06 o.rd.toNat o.rs1.toNat o.rs2.toNat
    (o.aq.toNat * 2 ^ 10 + o.rl.toNat * 2 ^ 9 + o.res.toNat * 2 ^ 6 + aop * 4 + o.sz.toNat)
/-- The word of a block-repeat. -/
def wordR (o : OpR) (bop : Nat) : Nat :=
  wordT 0x08 o.rd.toNat o.rs1.toNat o.rs2.toNat (o.dr.toNat * 2 ^ 6 + bop * 8 + o.res.toNat * 4 + o.sz.toNat)
/-- The word of a shift by immediate. -/
def wordShi (o : OpShi) (kind : Nat) : Nat :=
  wordK 0x14 o.rd.toNat o.rs1.toNat (o.hi.toNat * 2 ^ 8 + kind * 2 ^ 6 + o.amt.toNat)

/-! ### Register numbers -/

/-- Whether core c has the D register of a field (R88: D0 to D15 on the management processor). -/
def dOk (c r : Nat) : Bool := c != mpCore || decide (r < 16)
/-- Whether core c has the A register of a field (R66, R88). -/
def aOk (c r : Nat) : Bool := if c = mpCore then decide (r < 8) else decide (r < 16)
/-- Whether core c has the bank register of a field (R88). -/
def bkOk (c b : Nat) : Bool := c != mpCore || decide (b < 4)

/-- Applies an operation at the core's width (R91, R135). -/
def atWidth (c : Nat) (f : (w : Nat) → BitVec w → BitVec w → BitVec w) (a b : Word) : Word :=
  if c = mpCore then (f 32 (a.setWidth 32) (b.setWidth 32)).setWidth 64 else f 64 a b

/-! ### Effective addresses -/

/-- An address of core c: 64 bits, or 32 on the management processor (R88). -/
def addrOf (c : Nat) (v : Word) : Nat := (trunc c v).toNat

/-- What an M-format access uses (R67): EA, and the base's new value where it writes back. -/
structure EaM where
  ea : Nat
  wb : Option Word
  deriving DecidableEq, Repr

/-- EA and writeback of an M-format access of `size` bytes (R67). -/
def eaM (s : State) (c : Nat) (o : OpM) (size : Nat) : EaM :=
  let base := aGet s c o.ab.toNat
  let off := sext o.imm * BitVec.ofNat 64 size
  match o.mode.toNat with
  | 0 => ⟨addrOf c (base + off), none⟩
  | 1 => ⟨addrOf c (base + off), some (base + off)⟩
  | 2 => ⟨addrOf c base, some (base + off)⟩
  | _ =>
    let dx := bitsOf o.imm.toNat 14 10
    let sh := bitsOf o.imm.toNat 9 8
    ⟨addrOf c (base + (dGet s c dx <<< sh)), none⟩

/-- Whether an M-format word is allocated for core c: the base register exists, mode 0b11 has a D register as index and RES0
bits 0, and a writeback base is not an A destination of the same number (R65 to R67). -/
def okM (c : Nat) (o : OpM) (rtIsA : Bool) : Bool :=
  aOk c o.ab.toNat &&
  (if o.mode = 3 then dOk c (bitsOf o.imm.toNat 14 10) && bitsOf o.imm.toNat 7 0 == 0 else true) &&
  !(rtIsA && (o.mode == 1 || o.mode == 2) && o.rt.toNat == o.ab.toNat)

/-- EA of an N-format access (R60). -/
def eaN (s : State) (c : Nat) (o : OpN) (size : Nat) : Nat :=
  addrOf c (bkGet s c o.bk.toNat + zext o.off * BitVec.ofNat 64 size)

/-- The value a displacement adds to the PC (R68). -/
def dispOf {w : Nat} (d : BitVec w) : Word := sext d * 4

end Sys2Proof.Machine
end

