-- ==== Sys2Proof/Machine/Pipe.lean ====
section
/-! DEFINITION. How an instruction of a core runs: when a core executes, the checks on the fetch side (R78 items 1 to 3, R509,
R572), the body, retirement, and the boundary after it (R74, R77, R513). -/
namespace Sys2Proof.Machine

open Sys2Proof

/-- The domain of core c (R546). -/
def coreDom (c : Nat) : Nat := if c = mpCore then 0x1AC else c

/-- Whether core c is between instructions, so that interrupts, deferred errors and halts can be taken (R77). -/
def atBoundary (k : Core) : Bool := k.acc.isNone && k.bar.isNone && k.devGot.isEmpty

/-- Whether core c is running: released, not in reset, not stopped, not halted, its domain in RUN. -/
def running (s : State) (c : Nat) : Bool :=
  let k := getCore s c
  !k.held && !k.inReset && !k.stopped && !k.halted && rgF s .dstate (coreDom c) 2 0 == 0

/-- Whether core c executes its next instruction now: it runs, does not wait, its oldest instruction has nothing outstanding, and
no interrupt, deferred error or halt is taken first (R77, R133, R513). -/
def canExec (s : State) (c : Nat) : Bool :=
  let k := getCore s c
  running s c && !k.waiting && k.acc.isNone && k.bar.isNone &&
  (!k.devGot.isEmpty || (!(dueDeferred s c) && (dueInterrupt s c).isNone && !(dueHalt s c)))

/-- What the body of an instruction ends in: it retires and the PC takes a value; it raises an exception; it has done one part and
stays on the PC (R105); or it cannot go on yet, and the state is as the body left it. -/
inductive Res where
  | done (pc : Word)
  | exc (e : Exc)
  | part
  | stall
  deriving DecidableEq, Repr

/-- The following instruction's address. -/
def nextPc (s : State) (c : Nat) : Word := (getCore s c).pc + 4

/-- A body that retires with no other effect. -/
def doneNext (s : State) (c : Nat) : Res × State := (.done (nextPc s c), s)

/-- Whether debug matches are raised at core c (R509). -/
def matchOn (s : State) (c : Nat) : Bool :=
  c != mpCore && bit (sysEff s c 0xA20 false) 0 && invasive s (secOf (getCore s c))

/-- The breakpoint that matches an address (R80; BRKCTLn bit 0 enables, log entry 11). -/
def breakHit (s : State) (c : Nat) (pc : Word) : Option Nat :=
  if matchOn s c then
    (List.range 8).find? (fun n => bit (sysEff s c (0xA08 + n) false) 0 && sysEff s c (0xA00 + n) false == pc)
  else none

/-- The watchpoint an access touches (R80; WATCHCTLn bit 0 enables, log entry 11). -/
def watchHit (s : State) (c va size : Nat) : Option Nat :=
  if matchOn s c then
    (List.range 8).find? (fun n =>
      let w := (sysEff s c (0xA10 + n) false).toNat
      bit (sysEff s c (0xA18 + n) false) 0 && decide (va ≤ w) && decide (w < va + size))
  else none

/-- A synchronous BUS_ERROR (R80, R240, R572, R574), recorded in ERRSTAT (R575). -/
def busError (s : State) (c va pa : Nat) (wnr poison : Bool) : Exc × State :=
  let s := coreErr s c 1 pa
  let s := if poison then countEvent (coreErr s c 2 pa) c 0x01A else s
  ({ cls := 0x20, wnr := wnr, eaddr := BitVec.ofNat 64 va, ephys := BitVec.ofNat 64 pa }, s)

/-- The attributes a core's data accesses carry (R63, R195, R250). -/
def coreAttr (s : State) (c key : Nat) : Attr :=
  if c = mpCore then ⟨false, 0, 0⟩
  else
    ⟨accWorld s c, fld (sysEff s c 0x422 (secOf (getCore s c))) 3 0, key⟩

/-- How the fetch side of an instruction ends: the instruction is there, a cause is raised, or an answer is waited for. -/
inductive Fetch where
  | ok
  | exc (e : Exc)
  | wait
  deriving DecidableEq, Repr

/-- The error of a fetch at a physical address (R28, R572). The word itself comes with the command (log entry 12). -/
def fetchLine (s : State) (c pc pa keyid : Nat) : Fetch × State :=
  let bad (poison : Bool) : Fetch × State :=
    let (e, s) := busError s c pc pa false poison
    (.exc e, s)
  if isLocalMem s pa then
    if !(worldAllows s (c != mpCore && secOf (getCore s c)) pa ⟨true, false⟩) then bad false
    else
      let r := cohPeek s (pa / 64) keyid
      if r.err || r.poison then bad r.poison else (.ok, countFree s c 0x006 pc)
  else if isRemoteMem s pa then (.ok, countFree s c 0x006 pc)
  else bad false

/-- The fetch side of an instruction: BREAK, the translation of its address, and the error of a fetch (R78, R80, R572); the management
processor fetches from its own memory, or through its window (R28, R594). -/
def fetchSide (s : State) (c : Nat) : Fetch × State :=
  let pc := (getCore s c).pc
  match breakHit s c pc with
  | some n => (.exc { cls := 0x30, detail := n }, s)
  | none =>
    match xlat s c .fetch .plain false pc.toNat false with
    | (.fault e, s) => (.exc e, s)
    | (.wait, s) => (.wait, s)
    | (.ok x, s) =>
      if c = mpCore then
        match mpPlace s x.pa with
        | .window pa => fetchLine s c pc.toNat pa 0
        | .none_ =>
          let (e, s) := busError s c pc.toNat x.pa false false
          (.exc e, s)
        | _ => (.ok, s)
      else fetchLine s c pc.toNat x.pa x.keyid

/-- A single-stepped core halts again (R513). -/
def stepHalt (s : State) (c : Nat) : State :=
  let k := getCore s c
  if k.stepping then
    let s := setCore s c { k with stepping := false, halted := true }
    sysSet s c 0xA21 false (setFld (sysGet s c 0xA21 false) 1 0 2)
  else s

/-- The oldest instruction of core c completes and the PC takes pc. -/
def complete (s : State) (c : Nat) (pc : Word) : State := stepHalt (retireAt s c pc) c

/-- The oldest instruction of core c raises e. -/
def raise (s : State) (c : Nat) (e : Exc) : State :=
  stepHalt (takeExc (setCore s c { getCore s c with devGot := [] }) c e) c

/-- The end of an instruction's body. -/
def endBody (s : State) (c : Nat) (r : Res) : State :=
  match r with
  | .done pc => complete s c pc
  | .exc e => raise s c e
  | .part => stepHalt (dropFills s c) c
  | .stall => s

/-- A reset command ends: its status and LASTOP (R624). -/
def rstEnd (s : State) (op code : Nat) : State := setRgF (setRgF s .rststat 0 7 0 code) .rststat 0 11 8 op

/-- The reset command under way ends, when it is op on target t. -/
def rstDone (s : State) (op t code : Nat) : State :=
  if rgF s .rststat 0 7 0 = 1 ∧ s.rs.op = (op, t) then rstEnd s op code else s

/-- An instruction of core c runs (R46, R77, R78): nothing happens while the core cannot execute; a fetch-side cause is raised,
unless the instruction has a cause that comes before it (`first`); else the body acts. A RELEASE of the core has ended by then (R624). -/
def runAfter (s : State) (c : Nat) (first : State → Option Exc) (body : State → Res × State) : State :=
  if canExec s c then
    let s := rstDone s 5 c 2
    match fetchSide s c with
    | (.exc e, s) => raise s c ((first s).getD e)
    | (.wait, s) => s
    | (.ok, s) =>
      let r := body s
      endBody r.2 c r.1
  else s

/-- An instruction none of whose own causes comes before those of its fetch. -/
def runInstr (s : State) (c : Nat) (body : State → Res × State) : State := runAfter s c (fun _ => none) body

/-- A body that first checks that its word is allocated (R65, R66). -/
def guardWord (ok_ : Bool) (word : Nat) (body : State → Res × State) : State → Res × State := fun s =>
  if ok_ then body s else (.exc (undef word), s)

/-- Whether Q instructions are disabled at core c, and the target (R57). -/
def qDisabled (s : State) (c : Nat) : Option Nat :=
  let k := getCore s c
  let w := secOf k
  if plOf k ≤ 1 then
    if bit (sysEff s c 0x500 w) 2 then some 2
    else if bit (sysEff s c 0x600 w) 0 then none
    else some 1
  else none

end Sys2Proof.Machine
end

