-- ==== Sys2Proof/Machine/Access.lean ====
section
/-! DEFINITION. The data accesses of a core: checks and translation (R78, R96 to R98), loads from the core's lines and store buffer
(R222, R224, R493), stores into the store buffer (R164, R217), its drain (R228), and the management processor's memory (R89,
R594, R595). -/
namespace Sys2Proof.Machine

open Sys2Proof

/-! ### Checks -/

/-- One part of an access that lies in one line: its virtual and physical address, its bytes, its type, placement and key. -/
structure Piece where
  va : Nat
  pa : Nat
  len : Nat
  ty : MemType
  atp : Nat
  keyid : Nat
  deriving DecidableEq, Repr

/-- A contiguous physical range cut at a line boundary. -/
def linePieces (va len : Nat) (x : XOk) : List Piece :=
  let room := 64 - x.pa % 64
  if len ≤ room then [⟨va, x.pa, len, x.ty, x.atp, x.keyid⟩]
  else [⟨va, x.pa, room, x.ty, x.atp, x.keyid⟩, ⟨va + room, x.pa + room, len - room, x.ty, x.atp, x.keyid⟩]

/-- Whether misaligned accesses of core c raise DATA_ALIGN (CORECTL.ACHK; the management processor has no CORECTL). -/
def achkOn (s : State) (c : Nat) : Bool := c != mpCore && bit (sysEff s c 0x600 (secOf (getCore s c))) 1

/-- How the checks of a data access end: its parts, an exception, or an answer the translation waits for. -/
inductive Checked where
  | ok (ps : List Piece)
  | exc (e : Exc)
  | wait
  deriving DecidableEq, Repr

/-- The place of a data-side class in R78: DATA_ALIGN and WATCH of the whole access, then item 9 in its order. -/
def excRank (cls : Nat) : Nat :=
  match cls with
  | 0x31 => 0
  | 0x16 => 1
  | 0x17 => 2
  | 0x11 => 3
  | 0x0A => 4
  | 0x18 => 5
  | 0x13 => 6
  | 0x15 => 7
  | 0x14 => 8
  | _ => 9

/-- The exception raised of two parts of an access: the class first in R78; of equal classes the first part's. -/
def firstExc (e f : Exc) : Exc := if excRank f.cls < excRank e.cls then f else e

/-- A demand read has translated a 4 KiB page of N-WB memory for core c, in its current world: what its prefetcher may read (R219). -/
def notePage (s : State) (c : Nat) (kind : AccKind) (x : XOk) : State :=
  if c = mpCore ∨ kind = .write ∨ x.ty ≠ .wb ∨ (getCore s c).pages.contains (accWorld s c, x.pa / 4096, x.keyid) then s
  else setCore s c { getCore s c with pages := (accWorld s c, x.pa / 4096, x.keyid) :: (getCore s c).pages }

/-- The checks of a data access (R78 items 7 to 9, R96): alignment, watchpoints, the translation of its first page and of a second
page it reaches. -/
def checkAccess (s : State) (c va size : Nat) (kind : AccKind) (op : OpClass) (fresh : Bool) : Checked × State :=
  let wr := kind == .write || kind == .rw
  let mis := va % size != 0
  if mis && (achkOn s c || op == .atomic || op == .resv) then
    (.exc { cls := 0x0A, wnr := wr, eaddr := BitVec.ofNat 64 va }, s)
  else
    match watchHit s c va size with
    | some n => (.exc { cls := 0x31, wnr := wr, detail := n, eaddr := BitVec.ofNat 64 va }, s)
    | none =>
      let n1 := min size (4096 - va % 4096)
      let va2 := addrOf c (BitVec.ofNat 64 (va + n1))
      match xlat s c kind op mis va fresh with
      | (.wait, s) => (.wait, s)
      | (.fault e, s) =>
        if n1 = size then (.exc e, s)
        else
          match xlat s c kind op mis va2 fresh with
          | (.wait, s) => (.wait, s)
          | (.fault f, _) => (.exc (firstExc e f), s)
          | (.ok _, _) => (.exc e, s)
      | (.ok x, s) =>
        if n1 = size then (.ok (linePieces va size x), notePage s c kind x)
        else
          match xlat s c kind op mis va2 fresh with
          | (.wait, s) => (.wait, s)
          | (.fault e, s) => (.exc e, s)
          | (.ok y, s) => (.ok (linePieces va n1 x ++ linePieces va2 (size - n1) y), notePage (notePage s c kind x) c kind y)

/-! ### Array errors of L1 and L2 (R569, R650, R581, R584) -/

/-- A parity error in core c's arrays is counted: ERRSTAT.PARWIN and the threshold (R575, R581, R584). -/
def countParity (s : State) (c pa : Nat) : State :=
  let key := 4 * 65536 + c
  let w := winAdd (now s) (tget {} key s.wayWin)
  let s := { s with wayWin := tset {} key w s.wayWin }
  let s := coreErr s c 0 pa
  let s := sysSet s c 0x611 false (setFld (sysGet s c 0x611 false) 63 48 (min w.count 0xFFFF))
  if w.count ≥ 32 then coreThreshold s c else s

/-- The L2 set of a line (CACHEINFO: 2^11 sets). -/
def l2Set (line : Nat) : Nat := line % 2048

/-- The set of the hub I/O cache a line is in (R244). -/
def hioSet (line : Nat) : Nat := line % 65536

/-- The way of the hub I/O cache a line has. -/
def hioWay (s : State) (line : Nat) : Nat := tget 0 line s.hioWays

/-- An error the check bits of the hub I/O cache show as a line is read (R569, R571): `l2Tag` a corrected one, `l2` an uncorrectable
one of the data, `l2TagBoth` a tag lost in both copies. -/
def hioFound (s : State) (line : Nat) (a : ArrErr) : State :=
  let x := hline s 0xF0 line
  let w := hioWay s line
  match a with
  | .l2Tag _ => logErr (wayError s 2 12 0 w false) .hubCe 0x0A 0 w (line * 64)
  | .l2 _ => logErr (wayError (setHline s 0xF0 line { x with poison := true }) 2 12 0 w true) .hubEv 0x15 0 w (line * 64)
  | .l2TagBoth => logErr (wayError (setHline s 0xF0 line {}) 2 12 0 w true) .hubEv 0x15 0 w (hioSet line)
  | _ => s

/-- What a read of a line in core c's arrays shows is handled (R569, R650). `own` says that the core itself reads it: a clean bad
line is then given up by a PUT and fetched again; else it is sent out poisoned and not kept. -/
def arrFound (s : State) (c line : Nat) (a : ArrErr) (own : Bool) : State :=
  if c = 0xF0 then hioFound s line a
  else if c ≥ 240 then s
  else
    let st := c / 20
    let u := c % 20
    let x := hline s c line
    match a with
    | .none_ => s
    | .l1i way => logErr (countParity s c (line * 64)) (.ce st) 0x01 u way (line * 64)
    | .l1d way => logErr (countParity s c (line * 64)) (.ce st) 0x02 u way (line * 64)
    | .l2Tag way => logErr (countParity s c (line * 64)) (.ce st) 0x04 u way (l2Set line)
    | .l2TagBoth => stopCore (logErr (countParity s c (line * 64)) (.ev st) 0x11 u 0 (l2Set line)) c
    | .l2 way =>
      let dirty := x.st == .m || x.st == .o || ((x.st == .smc || x.st == .xia) && (x.base == .m || x.base == .o))
      if dirty then
        logErr (setHline (countParity s c (line * 64)) c line { x with poison := true }) (.ev st) 0x10 u way (line * 64)
      else if own && validSt x.st then
        let s := logErr (countParity s c (line * 64)) (.ce st) 0x03 u way (line * 64)
        let (p, s) := evictReq s c line
        runReq s p {}
      else if validSt x.st then
        logErr (setHline (countParity s c (line * 64)) c line { x with poison := true }) (.ev st) 0x10 u way (line * 64)
      else s

/-! ### Reading a line -/

/-- The event an L2 miss counts by who will serve it (R541). -/
def missEvent (s : State) (c line : Nat) : Nat :=
  let e := dirGet s line
  let h := (lineLoc s line).home
  if e.st == .dx || e.st == .do_ || e.st == .dsf then 0x019
  else if l3Use s h && (l3Line s line).valid then (if h = c / 20 then 0x016 else 0x017)
  else 0x018

/-- The line in core c's own L2 as a load or an ownership request of world w may use it (R493): a normal-world access that meets a
line filled by the secure world has it written back first. -/
def worldEvict (s : State) (c line : Nat) (w : Bool) : State :=
  let x := hline s c line
  if validSt x.st && x.sec && !w then
    let (p, s) := evictReq s c line
    runReq s p {}
  else s

/-- The lines core c's L2 holds, or waits for, in the set of a line (R244): 8 ways. -/
def l2Used (s : State) (c line : Nat) : List (Nat × CLine) :=
  s.lines.filter (fun p => p.1 / 2 ^ 46 == c && l2Set (p.1 % 2 ^ 46) == l2Set line && p.1 % 2 ^ 46 != line && p.2.st != .i && p.2.st != .xia)

/-- Whether the set of a line in core c's L2 has no way left for it. -/
def l2Full (s : State) (c line : Nat) : Bool := decide (c < 240) && decide ((l2Used s c line).length ≥ 8)

/-- Core c makes room for a line in a full set of its L2 (R119, R244): it evicts one of the stable lines of the set that it has not
reserved. Which, the spec leaves open (log entry 94). -/
def l2Room (s : State) (c line : Nat) : State :=
  if !(l2Full s c line) then s
  else
    let cand := (l2Used s c line).filter (fun p => validSt p.2.st && !(reservedLine s c (p.1 % 2 ^ 46)))
    match cand[Sys2Proof.Config.l2Victim c line s.sendNo % cand.length]? with
    | none => s
    | some (k, _) =>
      let (p, s) := evictReq s c (k % 2 ^ 46)
      runReq s p {}

/-- A request of core c to own or share a line is sent and, where the line's home is in this package, run to rest (R286). A line new to
a full set waits until a way is free. -/
def request (s : State) (c line : Nat) (cmd : Cmd) (a : Attr) : State :=
  let s := if cmd = .upg then s else l2Room s c line
  if cmd ≠ .upg ∧ l2Full s c line then s else
  let s := countEvent (countEvent (countEvent s c 0x007) c 0x008) c (missEvent s c line)
  let (p, s) := issueReq s c line cmd a
  runReq s p {}

/-- A read of a line of N-WB memory by core c (R277, R286). -/
def readWb (s : State) (c line : Nat) (a : Attr) (arr : ArrErr) : Got × State :=
  let s := arrFound s c line arr true
  let s := worldEvict s c line a.world
  let look := fun (s : State) =>
    let x := hline s c line
    if validSt x.st then some (Got.data x.data x.poison, s)
    else if x.err then some (.err, setHline s c line {})
    else match (getCore s c).served.find? (fun f => f.line == line && !f.cas && !f.err) with
      | some f => some (.data f.data f.poison, s)
      | none => if transSt x.st then some (.wait, s) else none
  match look s with
  | some (.data d b, s) => (.data d b, countFree s c 0x007 (line * 64))
  | some r => r
  | none =>
    if isLocalMem s (line * 64) || isRemoteMem s (line * 64) then
      let s := request s c line .rds a
      (look s).getD (.wait, s)
    else (.err, s)

/-- A read of the line of a part. -/
def readLine (s : State) (c : Nat) (p : Piece) (arr : ArrErr) : Got × State :=
  let a := coreAttr s c p.keyid
  if c = mpCore || p.ty == .nc then readNc s c (p.pa / 64) a else readWb s c (p.pa / 64) a arr

/-- A line as its own core sees it: the stores in its store buffer over it (R224). -/
def overlay (k : Core) (line : Nat) (d : LineData) : LineData :=
  k.sb.foldl (fun d e => if !e.dev && e.pa / 64 == line then lineMerge d e.data e.mask else d) d

/-- Whether the store buffer gives every byte of a part. -/
def covered (k : Core) (p : Piece) : Bool :=
  (byteMask (p.pa % 64) p.len) &&& (k.sb.foldl (fun m e => if !e.dev && e.pa / 64 == p.pa / 64 then m ||| e.mask else m) 0) ==
    byteMask (p.pa % 64) p.len

/-- The result of gathering an access's parts. -/
inductive Gather where
  | val (v : Nat)
  | exc (e : Exc)
  | stall
  deriving DecidableEq, Repr

/-- The parts of a load of normal memory, joined least significant first (R97, R224, R572, R574). -/
def gather (s : State) (c : Nat) (arr : ArrErr) : List Piece → Nat → Nat → Gather × State
  | [], _, acc => (.val acc, s)
  | p :: ps, sh, acc =>
    match readLine s c p arr with
    | (.wait, s) => (.stall, s)
    | (.err, s) =>
      let (e, s) := busError s c p.va p.pa false false
      (.exc e, s)
    | (.data d po, s) =>
      if po && !(covered (getCore s c) p) then
        let (e, s) := busError s c p.va p.pa false true
        (.exc e, s)
      else
        let v := lineGet (overlay (getCore s c) (p.pa / 64) d) (p.pa % 64) p.len
        gather s c .none_ ps (sh + 8 * p.len) (acc + v * 2 ^ sh)

/-! ### The management processor's own memory (R89, R594) -/

/-- Little-endian bytes of a byte memory. -/
def memGet (m : Memory) (a n : Nat) : Nat := ofBytesLE ((List.range n).map (fun i => tget 0 (a + i) m))

/-- Bytes written to a byte memory. -/
def memPut (m : Memory) (a n x : Nat) : Memory :=
  (List.range n).foldl (fun m i => tset 0 (a + i) (BitVec.ofNat 8 (x >>> (8 * i))) m) m

/-- Bits lo to lo + n - 1 of a number replaced. -/
def bitsPut (v lo n x : Nat) : Nat := v - v / 2 ^ lo % 2 ^ n * 2 ^ lo + x % 2 ^ n * 2 ^ lo

/-- Which word of the enable bitmap of R596 a local register is, 29 or more where it is none. -/
def mpEnWord (a : Nat) : Nat :=
  let b := 0x40000000 + 4 * (Sys2Proof.Config.mpSrcEn % 0x4000)
  if b ≤ a then (a - b) / 4 else 29

/-- A load of the management processor outside its window: a value, or a bus error. The boot ROM's contents and the local registers
the spec does not lay out read as free values (log entry 13). -/
def mpLocalRead (s : State) (a n : Nat) : Option Nat × State :=
  match mpPlace s a with
  | .sram => (some (memGet s.mpSram a n), s)
  | .flash => (some (memGet s.flash (a - 0x20000000) n), s)
  | .rom =>
    let (v, s) := freeWord s
    (some (v.toNat % 2 ^ (8 * n)), s)
  | .loc =>
    if n ≠ 4 ∨ a % 4 ≠ 0 then (none, s)
    else if a = 0x40000100 then (some s.mpwin, s)
    else if mpEnWord a < 29 then (some (s.mpEn / 2 ^ (32 * mpEnWord a) % 2 ^ 32), s)
    else
      let (v, s) := freeWord s
      (some (v.toNat % 2 ^ 32), s)
  | _ => (none, s)

/-- A store of the management processor outside its window; none is a bus error (R89: the boot ROM and flash take no write). Of the
local registers it has effect on MPWIN (R595), on the enable bitmap of the wired sources, and on the register that acknowledges one, which
changes no INTSRCn field (R596, log entry 95). -/
def mpLocalWrite (s : State) (a n x : Nat) : Option State :=
  match mpPlace s a with
  | .sram => some { s with mpSram := memPut s.mpSram a n x }
  | .loc =>
    if n ≠ 4 ∨ a % 4 ≠ 0 then none
    else if a = 0x40000100 then some { s with mpwin := x % 2 ^ 21 }
    else if mpEnWord a < 29 then some { s with mpEn := bitsPut s.mpEn (32 * mpEnWord a) 32 x }
    else if a = 0x40000000 + 4 * (Sys2Proof.Config.mpSrcAck % 0x4000) then
      some { s with mpPend := bitsPut s.mpPend (x % 928) 1 0 }
    else some s
  | _ => none

/-! ### DEV accesses (R98, R153, R227, R228) -/

/-- The register block an offset of a register window lies in, by its base (chapter 21). -/
def blockOf (off : Nat) : Nat :=
  let inn (b n : Nat) : Bool := decide (b ≤ off) && decide (off < b + n)
  if inn 0xC0000 0x10000 then 0xC0000
  else if inn 0xF0000 0x2000 then 0xF0000
  else if inn 0x100000 0x2000 then 0x100000
  else if inn 0x200000 0x10000 then 0x200000
  else if inn 0x1000000 0x400000 then 0x1000000
  else if inn 0x2000000 0x100000 then 0x2000000
  else if inn 0x2000000000 (32 * 0x1000000) then off / 0x1000000 * 0x1000000
  else if off ≥ 0x8000000000 then 0x8000000000
  else off / 4096 * 4096

/-- The stop that serves a register block (R647). -/
def blockStop (off : Nat) : StopId :=
  let b := blockOf off
  if b = 0x1000000 then ⟨12, 18⟩
  else if b = 0xE0000 ∨ b = 0xF0000 then ⟨12, 19⟩
  else if b = 0x100000 then ⟨12, 20⟩
  else if b = 0x90000 then ⟨12, 22⟩
  else if b = 0x2000000 then ⟨12, 23⟩
  else if 0x2000000000 ≤ b ∧ b < 0x8000000000 then ⟨12, 24 + (b - 0x2000000000) / 0x1000000 / 4⟩
  else if 0x1000000000 ≤ b ∧ b < 0x2000000000 then ⟨(b - 0x1000000000) / 0x100000000, 30⟩
  else ⟨12, 21⟩

/-- The root port that completes an access of a package's PCIe slot, as 4g + k (R227): on bus 0 of the ECAM region the one named (R400),
elsewhere the one whose windows hold the 1 MiB block; 96 the hub's integrated endpoint. -/
def slotPortOf (off : Nat) : Nat :=
  if off < 0x100000 then (if off / 0x8000 < 24 then off / 0x8000 * 4 + off / 0x1000 % 4 else 96)
  else if 0xF000000 ≤ off ∧ off < 0x10000000 then 96
  else Config.slotPort (off / 0x100000) % 96

/-- The stop that completes a root port's accesses (R310): the I/O agent of its lane group, and hub stop 21 for the integrated
endpoint (log entry 48). -/
def portStop (i : Nat) : StopId := if i < 96 then ⟨12, 24 + i / 16⟩ else ⟨12, 21⟩

/-- Where a DEV access completes (R227): a register block, a root port with what is behind it, or a line's home. -/
def devDest (s : State) (pa : Nat) : Nat :=
  match paKind s pa with
  | .regWin p off => (p + 1) * 2 ^ 44 + blockOf off
  | .pcie p off => (p + 1) * 2 ^ 44 + 2 ^ 43 + slotPortOf off
  | .lowDev off => 2 ^ 44 + 2 ^ 43 + Config.slotPort (2 ^ 24 + off / 0x100000) % 96
  | .dram p _ => (p + 1) * 2 ^ 44 + 2 ^ 42 + stopKey (lineStop s (pa / 64))
  | .cxl p _ => (p + 1) * 2 ^ 44 + 2 ^ 42 + stopKey (lineStop s (pa / 64))
  | _ => 0

/-- The stop a DEV request goes to first: the block's, the I/O agent of the root port that claims the address (R310), the remote agent
for another package. -/
def devStop (s : State) (pa : Nat) : StopId :=
  match paKind s pa with
  | .regWin p off => if p = s.pkg then blockStop off else ⟨12, 22⟩
  | .pcie p off => if p = s.pkg then portStop (slotPortOf off) else ⟨12, 22⟩
  | .lowDev off => if s.pkg = 0 then portStop (Config.slotPort (2 ^ 24 + off / 0x100000) % 96) else ⟨12, 22⟩
  | _ => ⟨12, 21⟩

/-- A DEV access of memory (R218): RDC or WRC to the line's home, or to the remote agent. The answer comes as a message. -/
def devMem (s : State) (m : Packet) : State :=
  if isLocalMem s m.addr then transact s { m with dst := lineStop s (pLine m) } {} else send s (toAgent s m)

/-- A DEV load leaves the core and its instruction waits (R153, R218, R227). -/
def sendDevRd (s : State) (c : Nat) (acc : PendAcc) (w : Bool) (sizeCode : Nat) : State :=
  let (tx, s) := newTxid s
  let s := countEvent s c 0x014
  if isLocalMem s acc.pa || isRemoteMem s acc.pa then
    let a := if c = mpCore then { coreAttr s c 0 with world := w } else { coreAttr s c (keyNoS2 s c (plOf (getCore s c)) w) with world := w }
    let s := addOutst s { stop := coreStop c, txid := tx, cmd := .rdc, addr := acc.pa / 64 * 64, since := now s }
    let s := setCore s c { getCore s c with acc := some { acc with txid := tx, mem := true } }
    devMem s {
      cmd := .rdc, src := coreStop c, dst := coreStop c, txid := tx, world := w, partid := a.partid, keyid := a.keyid,
      addr := acc.pa / 64 * 64, holder := 0xFE }
  else
    let s := send s {
      cmd := .devRd, src := coreStop c, dst := devStop s acc.pa, txid := tx, world := w, addr := acc.pa, size := sizeCode,
      holder := 0xFE, dpkg := pkgOfPa s acc.pa }
    let s := addOutst s { stop := coreStop c, txid := tx, cmd := .devRd, addr := acc.pa, since := now s }
    setCore s c { getCore s c with acc := some { acc with txid := tx } }

/-! ### Loads -/

/-- Where a load's value goes, and the writeback that goes with it. -/
structure LoadDst where
  cls : RtClass
  rt : Nat
  base : Option (Nat × Nat)
  deriving DecidableEq, Repr

/-- A loaded value is written to its register, then the base takes its new value (R67). -/
def finishLoad (s : State) (c : Nat) (d : LoadDst) (v : Nat) : State :=
  let s := match d.base with
    | some (r, x) => aSet s c r (BitVec.ofNat 64 x)
    | none => s
  match d.cls with
  | .d => dSet s c d.rt (BitVec.ofNat 64 v)
  | .a => aSet s c d.rt (BitVec.ofNat 64 v)
  | .q => qSet s c d.rt (BitVec.ofNat 256 v)

/-- A load of `size` bytes at va (R95 to R98, R218, R222 to R228). -/
def doLoad (c va size : Nat) (d : LoadDst) (e : Seen) (s : State) : Res × State :=
  let op : OpClass := if d.cls = .q then .q else .plain
  match checkAccess s c va size .read op e.fresh with
  | (.exc x, s) => (.exc x, s)
  | (.wait, s) => (.stall, s)
  | (.ok ps, s) =>
    let p0 := ps.headD ⟨va, 0, size, .wb, 0, 0⟩
    if c = mpCore then
      match mpPlace s p0.pa with
      | .window pa =>
        if p0.ty == .dev && !(isLocalMem s pa) then
          if !((getCore s c).sb.isEmpty) then (.stall, s)
          else if size ≠ 4 then
            let (x, s) := busError s c va pa false false
            (.exc x, s)
          else
            match s.mpRead with
            | some (q, v) =>
              if pa = q + 4 then
                (.done (nextPc s c), finishLoad { s with mpRead := none } c d (fld v 63 32))
              else if pa % 8 = 0 then
                (.stall, sendDevRd { s with mpRead := none } c ⟨.devLoad, va, pa, size, d.cls, d.rt, d.base, 0, 0, true, false⟩ false 3)
              else
                let (x, s) := busError s c va pa false false
                (.exc x, s)
            | none =>
              if pa % 8 = 0 then
                (.stall, sendDevRd s c ⟨.devLoad, va, pa, size, d.cls, d.rt, d.base, 0, 0, true, false⟩ false 3)
              else
                let (x, s) := busError s c va pa false false
                (.exc x, s)
        else
          match gather s c .none_ (ps.map (fun p => { p with pa := s.mpwin * 0x80000000 + (p.pa - 0x80000000) })) 0 0 with
          | (.val v, s) => (.done (nextPc s c), finishLoad s c d v)
          | (.exc x, s) => (.exc x, s)
          | (.stall, s) => (.stall, s)
      | _ =>
        match mpLocalRead s p0.pa size with
        | (some v, s) => (.done (nextPc s c), finishLoad s c d v)
        | (none, s) =>
          let (x, s) := busError s c va p0.pa false false
          (.exc x, s)
    else if p0.ty = .dev then
      if !((getCore s c).sb.isEmpty) then (.stall, s)
      else
        (.stall, sendDevRd s c ⟨.devLoad, va, p0.pa, size, d.cls, d.rt, d.base, 0, 0, false, false⟩ (accWorld s c)
          (match size with | 1 => 0 | 2 => 1 | 4 => 2 | _ => 3))
    else
      match gather s c e.arr ps 0 0 with
      | (.val v, s) => (.done (nextPc s c), finishLoad s c d v)
      | (.exc x, s) => (.exc x, s)
      | (.stall, s) => (.stall, s)

/-! ### Stores -/

/-- The store buffer entry of one part of a store. -/
def sbEntry (s : State) (c : Nat) (p : Piece) (x : Nat) : SbEntry :=
  let a := coreAttr s c p.keyid
  { va := p.va, pa := p.pa, dev := p.ty == .dev, nc := p.ty == .nc || c == mpCore, size := p.len,
    data := linePut 0 (p.pa % 64) p.len x, mask := byteMask (p.pa % 64) p.len, world := a.world, partid := a.partid,
    keyid := a.keyid, epoch := (getCore s c).stEpoch, sent := false, txid := 0 }

/-- Whether a store may merge into an entry: the same line, type and epoch, not sent (R217). -/
def canMerge (e n : SbEntry) : Bool :=
  !e.dev && !n.dev && !e.sent && e.pa / 64 == n.pa / 64 && e.nc == n.nc && e.epoch == n.epoch && e.world == n.world &&
  e.keyid == n.keyid

/-- A store's part joins the buffer: merged into the youngest entry where it may, else a new youngest entry. -/
def sbPush (sb : List SbEntry) (n : SbEntry) : List SbEntry :=
  match sb.getLast? with
  | some e =>
    if canMerge e n then
      sb.dropLast ++ [{ e with data := lineMerge e.data n.data n.mask, mask := e.mask ||| n.mask }]
    else sb ++ [n]
  | none => [n]

/-- The parts of a store retire into the buffer, or it has no room (R164). -/
def sbPushAll (s : State) (c : Nat) : List Piece → Nat → List SbEntry → List SbEntry
  | [], _, sb => sb
  | p :: ps, x, sb => sbPushAll s c ps (x / 2 ^ (8 * p.len)) (sbPush sb (sbEntry s c p (x % 2 ^ (8 * p.len))))

/-- What a store whose checks have passed ends in. -/
inductive Put where
  | ok
  | full
  | err (pa : Nat)
  deriving DecidableEq, Repr

/-- The parts of a checked store retire (R164): into the store buffer; on the management processor into its own memory, or its
window, where a register's low half is held until the high half is written (R595). -/
def putStore (c va size x : Nat) (ps : List Piece) (s : State) : Put × State :=
  let p0 := ps.headD ⟨va, 0, size, .wb, 0, 0⟩
  let buffer := fun (ps : List Piece) =>
    let sb := sbPushAll s c ps x (getCore s c).sb
    if sb.length > 64 then (Put.full, countEvent s c 0x011) else (Put.ok, setCore s c { getCore s c with sb := sb })
  if c = mpCore then
    match mpPlace s p0.pa with
    | .window pa =>
      if p0.ty == .dev && !(isLocalMem s pa) then
        if size ≠ 4 then (.err pa, s)
        else if pa % 8 = 0 then (.ok, { s with mpHeld := some (pa, x % 2 ^ 32) })
        else
          match s.mpHeld with
          | some (a, lo) =>
            if a + 4 = pa then
              let n : SbEntry := { sbEntry s c { p0 with pa := a, len := 8, ty := .dev } (lo + x % 2 ^ 32 * 2 ^ 32) with va := va }
              if (getCore s c).sb.length ≥ 64 then (.full, s)
              else
                let s := { s with mpHeld := none }
                (.ok, setCore s c { getCore s c with sb := (getCore s c).sb ++ [n] })
            else (.err pa, s)
          | none => (.err pa, s)
      else buffer (ps.map (fun p => { p with pa := s.mpwin * 0x80000000 + (p.pa - 0x80000000) }))
    | _ =>
      match mpLocalWrite s p0.pa size x with
      | some s => (.ok, s)
      | none => (.err p0.pa, s)
  else buffer ps

/-- A store of `size` bytes at va (R95 to R98, R164, R217). -/
def doStore (c va size x : Nat) (q : Bool) (base : Option (Nat × Nat)) (fresh : Bool) (s : State) : Res × State :=
  match checkAccess s c va size .write (if q then .q else .plain) fresh with
  | (.exc e, s) => (.exc e, s)
  | (.wait, s) => (.stall, s)
  | (.ok ps, s) =>
    match putStore c va size x ps s with
    | (.ok, s) =>
      (.done (nextPc s c), match base with
        | some (r, v) => aSet s c r (BitVec.ofNat 64 v)
        | none => s)
    | (.full, s) => (.stall, s)
    | (.err pa, s) =>
      let (e, s) := busError s c va pa true false
      (.exc e, s)

/-! ### Barriers that wait (R235) -/

/-- Whether a barrier of core c is complete. -/
def barDone (k : Core) (b : BarKind) : Bool :=
  match b with
  | .all => k.sb.isEmpty && k.maint.isEmpty
  | .dev => !(k.sb.any (fun e => e.dev))
  | .sync => k.sb.isEmpty && k.maint.isEmpty && k.tinvOut.isEmpty

/-- A waiting barrier completes once its condition holds. -/
def tryBar (s : State) (c : Nat) : State :=
  let k := getCore s c
  match k.bar with
  | none => s
  | some b =>
    if barDone k b then
      let s := setCore s c { k with bar := none }
      let s := if b = .sync then contextSync s c else s
      complete s c (nextPc s c)
    else s

/-! ### Draining the store buffer (R221, R227, R228, R237) -/

/-- Whether entry i of a store buffer may leave now (R226 to R228, R235). -/
def drainable (s : State) (sb : List SbEntry) (i : Nat) : Bool :=
  match sb[i]? with
  | none => false
  | some e =>
    let older := sb.take i
    !e.sent &&
    (if e.dev then older.all (fun o => o.dev && o.sent && devDest s o.pa == devDest s e.pa)
     else older.all (fun o => !o.dev && o.epoch == e.epoch && o.pa / 64 != e.pa / 64))

/-- Entry i of core c's store buffer is gone: its store has been performed, or has completed with error. -/
def sbRemove (s : State) (c i : Nat) : State :=
  let k := getCore s c
  let s := match k.sb[i]? with
    | some e => dropFill s c (e.pa / 64)
    | none => s
  tryBar (setCore s c { getCore s c with sb := k.sb.eraseIdx i }) c

/-- Entry i marked as sent under a transaction. -/
def sbMark (s : State) (c i tx : Nat) : State :=
  let k := getCore s c
  setCore s c { k with sb := k.sb.mapIdx (fun j e => if j = i then { e with sent := true, txid := tx } else e) }

/-- A store that completes with error (R164, R239). -/
def sbFail (s : State) (c i : Nat) : State :=
  match (getCore s c).sb[i]? with
  | none => s
  | some e => sbRemove (deferError s c e.va e.pa true) c i

/-- An N-NC store, or one of the management processor, is written at its home (R218, R221). -/
def drainNc (s : State) (c i : Nat) (e : SbEntry) : State :=
  let line := e.pa / 64
  let (tx, s) := newTxid s
  let m : Packet := {
    cmd := .wrc, src := coreStop c, dst := lineStop s line, txid := tx, world := e.world, partid := e.partid,
    keyid := e.keyid, addr := line * 64, mask := e.mask, data := e.data, holder := 0xFE }
  let s := sbMark s c i tx
  if isLocalMem s (line * 64) then
    let s := transact s m {}
    match takeAny (fun p => p.txid == tx && p.dst == coreStop c && (p.cmd == .wrCmp || p.cmd == .errRsp)) s with
    | some (p, s) =>
      if p.cmd = .wrCmp ∧ !p.poison then sbRemove s c i else sbFail s c i
    | none => addOutst s { stop := coreStop c, txid := tx, cmd := .wrc, addr := line * 64, since := now s }
  else
    addOutst (send s (toAgent s m))
      { stop := coreStop c, txid := tx, cmd := .wrc, addr := line * 64, since := now s }

/-- An N-WB store is performed in the core's line held in M or E, or asks for ownership (R277, R288). -/
def drainWb (s : State) (c i : Nat) (e : SbEntry) (arr : ArrErr) : State :=
  let line := e.pa / 64
  let s := arrFound s c line arr true
  let s := worldEvict s c line e.world
  let x := hline s c line
  if x.st = .m ∨ x.st = .e then
    sbRemove (breakResv (mergeStore s c line e) c (line * 64) 64) c i
  else if x.st = .isd ∨ x.st = .xia then s
  else
    let s := sbMark s c i 0
    if transSt x.st then s
    else tryBar (request s c line (if validSt x.st then .upg else .rdx) ⟨e.world, e.partid, e.keyid⟩) c

/-- A DEV store leaves for its destination (R218, R227). -/
def drainDev (s : State) (c i : Nat) (e : SbEntry) : State :=
  let (tx, s) := newTxid s
  let s := countEvent s c 0x014
  if isLocalMem s e.pa || isRemoteMem s e.pa then
    let s := addOutst s { stop := coreStop c, txid := tx, cmd := .wrc, addr := e.pa / 64 * 64, since := now s }
    devMem (sbMark s c i tx) {
      cmd := .wrc, src := coreStop c, dst := coreStop c, txid := tx, world := e.world, partid := e.partid, keyid := e.keyid,
      addr := e.pa / 64 * 64, mask := e.mask, data := e.data, holder := 0xFE }
  else
    let s := send s {
      cmd := .devWr, src := coreStop c, dst := devStop s e.pa, txid := tx, world := e.world, addr := e.pa,
      size := (match e.size with | 1 => 0 | 2 => 1 | 4 => 2 | _ => 3), holder := 0xFE, dpkg := pkgOfPa s e.pa
      data := BitVec.ofNat 512 (lineGet e.data (e.pa % 64) e.size) }
    let s := addOutst s { stop := coreStop c, txid := tx, cmd := .devWr, addr := e.pa, since := now s }
    sbMark s c i tx

/-- Entry i leaves core c's store buffer for coherence or its destination (R228). -/
def drainEntry (s : State) (c i : Nat) (arr : ArrErr) : State :=
  let k := getCore s c
  if !(drainable s k.sb i) then s
  else
    match k.sb[i]? with
    | none => s
    | some e =>
      if e.dev then drainDev s c i e
      else if !(isLocalMem s e.pa) && !(isRemoteMem s e.pa) then sbFail s c i
      else if e.nc then drainNc s c i e
      else drainWb s c i e arr

end Sys2Proof.Machine
end

