-- ==== Sys2Proof/Machine/Flags.lean ====
section
/-! DEFINITION. Condition results. The core has no flags (R48): a compare writes 1 or 0 to a register (R49), a branch tests one
register (R50). The functions are over any width, because the management processor computes in 32 bits (R135). -/
namespace Sys2Proof.Machine

open Sys2Proof

/-- The result of a compare: 1 when the relation holds, 0 when it does not (R49). -/
def cmpVal (w : Nat) (b : Bool) : BitVec w := if b then BitVec.ofNat w 1 else BitVec.ofNat w 0

/-- CMP.EQ. -/
def relEq (w : Nat) (a b : BitVec w) : BitVec w := cmpVal w (a == b)
/-- CMP.NE. -/
def relNe (w : Nat) (a b : BitVec w) : BitVec w := cmpVal w (a != b)
/-- CMP.LT: signed. -/
def relLt (w : Nat) (a b : BitVec w) : BitVec w := cmpVal w (a.slt b)
/-- CMP.LTU: unsigned. -/
def relLtu (w : Nat) (a b : BitVec w) : BitVec w := cmpVal w (a.ult b)
/-- CMP.GE: signed. -/
def relGe (w : Nat) (a b : BitVec w) : BitVec w := cmpVal w (!(a.slt b))
/-- CMP.GEU: unsigned. -/
def relGeu (w : Nat) (a b : BitVec w) : BitVec w := cmpVal w (!(a.ult b))

/-- Whether a BZ is taken: all bits of the tested register are 0 (R50). -/
def takenZ (v : Word) : Bool := v == 0
/-- Whether a BNZ is taken (R50). -/
def takenNZ (v : Word) : Bool := v != 0

end Sys2Proof.Machine
end

