-- ==== Sys2Proof/Machine/Alu.lean ====
section
/-! DEFINITION. Integer, logic, compare, immediate and address instructions, register jumps and branches (R90 to R94, R135). -/
namespace Sys2Proof.Machine

open Sys2Proof

/-! ### Operations at a width -/

/-- Addition. -/
def opAdd (w : Nat) (a b : BitVec w) : BitVec w := a + b
/-- Subtraction. -/
def opSub (w : Nat) (a b : BitVec w) : BitVec w := a - b
/-- AND. -/
def opAnd (w : Nat) (a b : BitVec w) : BitVec w := a &&& b
/-- OR. -/
def opOr (w : Nat) (a b : BitVec w) : BitVec w := a ||| b
/-- XOR. -/
def opXor (w : Nat) (a b : BitVec w) : BitVec w := a ^^^ b
/-- AND NOT. -/
def opAndn (w : Nat) (a b : BitVec w) : BitVec w := a &&& ~~~b
/-- Left shift, amount modulo the width. -/
def opSll (w : Nat) (a b : BitVec w) : BitVec w := a <<< (b.toNat % w)
/-- Right shift, zero fill. -/
def opSrl (w : Nat) (a b : BitVec w) : BitVec w := a >>> (b.toNat % w)
/-- Right shift, sign fill. -/
def opSra (w : Nat) (a b : BitVec w) : BitVec w := a.sshiftRight (b.toNat % w)
/-- Rotate right. -/
def opRor (w : Nat) (a b : BitVec w) : BitVec w := a.rotateRight (b.toNat % w)
/-- Sign extension of the low n bits. -/
def opSext (n w : Nat) (a _b : BitVec w) : BitVec w := (a.setWidth n).signExtend w
/-- Zero extension of the low 32 bits. -/
def opZextW (w : Nat) (a _b : BitVec w) : BitVec w := (a.setWidth 32).setWidth w
/-- Count of leading zero bits; the width when all are 0. -/
def opClz (w : Nat) (a _b : BitVec w) : BitVec w :=
  BitVec.ofNat w (((List.range w).find? (fun i => a.getLsbD (w - 1 - i))).getD w)
/-- Count of trailing zero bits; the width when all are 0. -/
def opCtz (w : Nat) (a _b : BitVec w) : BitVec w :=
  BitVec.ofNat w (((List.range w).find? (fun i => a.getLsbD i)).getD w)
/-- The bytes reversed. -/
def opBswap (w : Nat) (a _b : BitVec w) : BitVec w := BitVec.ofNat w (ofBytesLE (bytesLE (w / 8) a.toNat).reverse)
/-- Signed minimum. -/
def opMin (w : Nat) (a b : BitVec w) : BitVec w := if b.slt a then b else a
/-- Signed maximum. -/
def opMax (w : Nat) (a b : BitVec w) : BitVec w := if a.slt b then b else a
/-- Unsigned minimum. -/
def opMinu (w : Nat) (a b : BitVec w) : BitVec w := if b.ult a then b else a
/-- Unsigned maximum. -/
def opMaxu (w : Nat) (a b : BitVec w) : BitVec w := if a.ult b then b else a
/-- Low half of a product. -/
def opMul (w : Nat) (a b : BitVec w) : BitVec w := a * b
/-- High half of the signed product. -/
def opMulh (w : Nat) (a b : BitVec w) : BitVec w := (a.signExtend (2 * w) * b.signExtend (2 * w)).extractLsb' w w
/-- High half of the unsigned product. -/
def opMulhu (w : Nat) (a b : BitVec w) : BitVec w := (a.setWidth (2 * w) * b.setWidth (2 * w)).extractLsb' w w
/-- Signed quotient (R92). -/
def opDiv (w : Nat) (a b : BitVec w) : BitVec w := if b = 0 then BitVec.allOnes w else a.sdiv b
/-- Unsigned quotient (R92). -/
def opDivu (w : Nat) (a b : BitVec w) : BitVec w := if b = 0 then BitVec.allOnes w else a / b
/-- Signed remainder (R92). -/
def opRem (w : Nat) (a b : BitVec w) : BitVec w := if b = 0 then a else a.srem b
/-- Unsigned remainder (R92). -/
def opRemu (w : Nat) (a b : BitVec w) : BitVec w := if b = 0 then a else a % b

/-! ### Forms -/

/-- T format, D operands: Dd from Ds1 and Ds2. -/
def bodyT (c : Nat) (o : OpT) (maj fn : Nat) (f : (w : Nat) → BitVec w → BitVec w → BitVec w) : State → Res × State :=
  guardWord (dOk c o.rd.toNat && dOk c o.rs1.toNat && dOk c o.rs2.toNat)
    (wordT maj o.rd.toNat o.rs1.toNat o.rs2.toNat fn) (fun s =>
      (.done (nextPc s c), dSet s c o.rd.toNat (atWidth c f (dGet s c o.rs1.toNat) (dGet s c o.rs2.toNat))))

/-- T format with RS2 unused. -/
def bodyT1 (c : Nat) (o : OpT) (fn : Nat) (f : (w : Nat) → BitVec w → BitVec w → BitVec w) : State → Res × State :=
  guardWord (dOk c o.rd.toNat && dOk c o.rs1.toNat && o.rs2 == 0)
    (wordT 0x01 o.rd.toNat o.rs1.toNat o.rs2.toNat fn) (fun s =>
      (.done (nextPc s c), dSet s c o.rd.toNat (atWidth c f (dGet s c o.rs1.toNat) 0)))

/-- K format, D operands: Dd from Ds1 and an extended immediate. -/
def bodyK (c : Nat) (o : OpK) (maj : Nat) (sx : Bool) (f : (w : Nat) → BitVec w → BitVec w → BitVec w) :
    State → Res × State :=
  guardWord (dOk c o.rd.toNat && dOk c o.rs1.toNat) (wordK maj o.rd.toNat o.rs1.toNat o.imm.toNat) (fun s =>
    (.done (nextPc s c),
      dSet s c o.rd.toNat (atWidth c f (dGet s c o.rs1.toNat) (if sx then sext o.imm else zext o.imm))))

/-- A shift by immediate. -/
def bodyShi (c : Nat) (o : OpShi) (kind : Nat) (f : (w : Nat) → BitVec w → BitVec w → BitVec w) : State → Res × State :=
  guardWord (dOk c o.rd.toNat && dOk c o.rs1.toNat && o.hi == 0) (wordShi o kind) (fun s =>
    (.done (nextPc s c), dSet s c o.rd.toNat (atWidth c f (dGet s c o.rs1.toNat) (zext o.amt))))

/-- T format: D from A and A. -/
def bodyDAA (c : Nat) (o : OpT) (fn : Nat) (f : (w : Nat) → BitVec w → BitVec w → BitVec w) : State → Res × State :=
  guardWord (dOk c o.rd.toNat && aOk c o.rs1.toNat && aOk c o.rs2.toNat)
    (wordT 0x04 o.rd.toNat o.rs1.toNat o.rs2.toNat fn) (fun s =>
      (.done (nextPc s c), dSet s c o.rd.toNat (atWidth c f (aGet s c o.rs1.toNat) (aGet s c o.rs2.toNat))))

/-- T format: A from A and D. -/
def bodyAAD (c : Nat) (o : OpT) (fn : Nat) (f : (w : Nat) → BitVec w → BitVec w → BitVec w) : State → Res × State :=
  guardWord (aOk c o.rd.toNat && aOk c o.rs1.toNat && dOk c o.rs2.toNat)
    (wordT 0x04 o.rd.toNat o.rs1.toNat o.rs2.toNat fn) (fun s =>
      (.done (nextPc s c), aSet s c o.rd.toNat (atWidth c f (aGet s c o.rs1.toNat) (dGet s c o.rs2.toNat))))

/-- A conditional branch (R50, R68). -/
def bodyB (c : Nat) (o : OpB) (maj : Nat) (taken : Word → Bool) : State → Res × State :=
  guardWord (dOk c o.rc.toNat) (wordB maj o) (fun s =>
    (.done (if taken (dGet s c o.rc.toNat) then (getCore s c).pc + dispOf o.disp else nextPc s c), countFree (countEvent s c 0x004) c 0x005 (getCore s c).pc.toNat))

/-! ### Meanings: integer and logic, major 0x01 -/

/-- ADD. -/
def execAdd (c : CoreId) (o : OpT) (s : State) : Host.Outcome State Fault Refusal :=
  ok (runInstr s c.val (bodyT c.val o 0x01 0x000 opAdd))
/-- SUB. -/
def execSub (c : CoreId) (o : OpT) (s : State) : Host.Outcome State Fault Refusal :=
  ok (runInstr s c.val (bodyT c.val o 0x01 0x001 opSub))
/-- AND. -/
def execAnd (c : CoreId) (o : OpT) (s : State) : Host.Outcome State Fault Refusal :=
  ok (runInstr s c.val (bodyT c.val o 0x01 0x002 opAnd))
/-- OR. -/
def execOr (c : CoreId) (o : OpT) (s : State) : Host.Outcome State Fault Refusal :=
  ok (runInstr s c.val (bodyT c.val o 0x01 0x003 opOr))
/-- XOR. -/
def execXor (c : CoreId) (o : OpT) (s : State) : Host.Outcome State Fault Refusal :=
  ok (runInstr s c.val (bodyT c.val o 0x01 0x004 opXor))
/-- ANDN. -/
def execAndn (c : CoreId) (o : OpT) (s : State) : Host.Outcome State Fault Refusal :=
  ok (runInstr s c.val (bodyT c.val o 0x01 0x005 opAndn))
/-- SLL. -/
def execSll (c : CoreId) (o : OpT) (s : State) : Host.Outcome State Fault Refusal :=
  ok (runInstr s c.val (bodyT c.val o 0x01 0x008 opSll))
/-- SRL. -/
def execSrl (c : CoreId) (o : OpT) (s : State) : Host.Outcome State Fault Refusal :=
  ok (runInstr s c.val (bodyT c.val o 0x01 0x009 opSrl))
/-- SRA. -/
def execSra (c : CoreId) (o : OpT) (s : State) : Host.Outcome State Fault Refusal :=
  ok (runInstr s c.val (bodyT c.val o 0x01 0x00A opSra))
/-- ROR. -/
def execRor (c : CoreId) (o : OpT) (s : State) : Host.Outcome State Fault Refusal :=
  ok (runInstr s c.val (bodyT c.val o 0x01 0x00B opRor))
/-- SEXT.B. -/
def execSextB (c : CoreId) (o : OpT) (s : State) : Host.Outcome State Fault Refusal :=
  ok (runInstr s c.val (bodyT1 c.val o 0x010 (opSext 8)))
/-- SEXT.H. -/
def execSextH (c : CoreId) (o : OpT) (s : State) : Host.Outcome State Fault Refusal :=
  ok (runInstr s c.val (bodyT1 c.val o 0x011 (opSext 16)))
/-- SEXT.W. -/
def execSextW (c : CoreId) (o : OpT) (s : State) : Host.Outcome State Fault Refusal :=
  ok (runInstr s c.val (bodyT1 c.val o 0x012 (opSext 32)))
/-- ZEXT.W. -/
def execZextW (c : CoreId) (o : OpT) (s : State) : Host.Outcome State Fault Refusal :=
  ok (runInstr s c.val (bodyT1 c.val o 0x013 opZextW))
/-- CLZ. -/
def execClz (c : CoreId) (o : OpT) (s : State) : Host.Outcome State Fault Refusal :=
  ok (runInstr s c.val (bodyT1 c.val o 0x014 opClz))
/-- CTZ. -/
def execCtz (c : CoreId) (o : OpT) (s : State) : Host.Outcome State Fault Refusal :=
  ok (runInstr s c.val (bodyT1 c.val o 0x015 opCtz))
/-- BSWAP. -/
def execBswap (c : CoreId) (o : OpT) (s : State) : Host.Outcome State Fault Refusal :=
  ok (runInstr s c.val (bodyT1 c.val o 0x016 opBswap))
/-- MIN. -/
def execMin (c : CoreId) (o : OpT) (s : State) : Host.Outcome State Fault Refusal :=
  ok (runInstr s c.val (bodyT c.val o 0x01 0x018 opMin))
/-- MAX. -/
def execMax (c : CoreId) (o : OpT) (s : State) : Host.Outcome State Fault Refusal :=
  ok (runInstr s c.val (bodyT c.val o 0x01 0x019 opMax))
/-- MINU. -/
def execMinu (c : CoreId) (o : OpT) (s : State) : Host.Outcome State Fault Refusal :=
  ok (runInstr s c.val (bodyT c.val o 0x01 0x01A opMinu))
/-- MAXU. -/
def execMaxu (c : CoreId) (o : OpT) (s : State) : Host.Outcome State Fault Refusal :=
  ok (runInstr s c.val (bodyT c.val o 0x01 0x01B opMaxu))

/-! ### Multiply and divide, major 0x02 -/

/-- MUL. -/
def execMul (c : CoreId) (o : OpT) (s : State) : Host.Outcome State Fault Refusal :=
  ok (runInstr s c.val (bodyT c.val o 0x02 0x000 opMul))
/-- MULH. -/
def execMulh (c : CoreId) (o : OpT) (s : State) : Host.Outcome State Fault Refusal :=
  ok (runInstr s c.val (bodyT c.val o 0x02 0x001 opMulh))
/-- MULHU. -/
def execMulhu (c : CoreId) (o : OpT) (s : State) : Host.Outcome State Fault Refusal :=
  ok (runInstr s c.val (bodyT c.val o 0x02 0x002 opMulhu))
/-- DIV. -/
def execDiv (c : CoreId) (o : OpT) (s : State) : Host.Outcome State Fault Refusal :=
  ok (runInstr s c.val (bodyT c.val o 0x02 0x004 opDiv))
/-- DIVU. -/
def execDivu (c : CoreId) (o : OpT) (s : State) : Host.Outcome State Fault Refusal :=
  ok (runInstr s c.val (bodyT c.val o 0x02 0x005 opDivu))
/-- REM. -/
def execRem (c : CoreId) (o : OpT) (s : State) : Host.Outcome State Fault Refusal :=
  ok (runInstr s c.val (bodyT c.val o 0x02 0x006 opRem))
/-- REMU. -/
def execRemu (c : CoreId) (o : OpT) (s : State) : Host.Outcome State Fault Refusal :=
  ok (runInstr s c.val (bodyT c.val o 0x02 0x007 opRemu))

/-! ### Compare, major 0x03 -/

/-- CMP.EQ. -/
def execCmpEq (c : CoreId) (o : OpT) (s : State) : Host.Outcome State Fault Refusal :=
  ok (runInstr s c.val (bodyT c.val o 0x03 0x000 relEq))
/-- CMP.NE. -/
def execCmpNe (c : CoreId) (o : OpT) (s : State) : Host.Outcome State Fault Refusal :=
  ok (runInstr s c.val (bodyT c.val o 0x03 0x001 relNe))
/-- CMP.LT. -/
def execCmpLt (c : CoreId) (o : OpT) (s : State) : Host.Outcome State Fault Refusal :=
  ok (runInstr s c.val (bodyT c.val o 0x03 0x002 relLt))
/-- CMP.LTU. -/
def execCmpLtu (c : CoreId) (o : OpT) (s : State) : Host.Outcome State Fault Refusal :=
  ok (runInstr s c.val (bodyT c.val o 0x03 0x003 relLtu))
/-- CMP.GE. -/
def execCmpGe (c : CoreId) (o : OpT) (s : State) : Host.Outcome State Fault Refusal :=
  ok (runInstr s c.val (bodyT c.val o 0x03 0x004 relGe))
/-- CMP.GEU. -/
def execCmpGeu (c : CoreId) (o : OpT) (s : State) : Host.Outcome State Fault Refusal :=
  ok (runInstr s c.val (bodyT c.val o 0x03 0x005 relGeu))

/-! ### Immediate operations -/

/-- ADDI. -/
def execAddi (c : CoreId) (o : OpK) (s : State) : Host.Outcome State Fault Refusal :=
  ok (runInstr s c.val (bodyK c.val o 0x10 true opAdd))
/-- ANDI. -/
def execAndi (c : CoreId) (o : OpK) (s : State) : Host.Outcome State Fault Refusal :=
  ok (runInstr s c.val (bodyK c.val o 0x11 false opAnd))
/-- ORI. -/
def execOri (c : CoreId) (o : OpK) (s : State) : Host.Outcome State Fault Refusal :=
  ok (runInstr s c.val (bodyK c.val o 0x12 false opOr))
/-- XORI. -/
def execXori (c : CoreId) (o : OpK) (s : State) : Host.Outcome State Fault Refusal :=
  ok (runInstr s c.val (bodyK c.val o 0x13 false opXor))
/-- SLLI. -/
def execSlli (c : CoreId) (o : OpShi) (s : State) : Host.Outcome State Fault Refusal :=
  ok (runInstr s c.val (bodyShi c.val o 0 opSll))
/-- SRLI. -/
def execSrli (c : CoreId) (o : OpShi) (s : State) : Host.Outcome State Fault Refusal :=
  ok (runInstr s c.val (bodyShi c.val o 1 opSrl))
/-- SRAI. -/
def execSrai (c : CoreId) (o : OpShi) (s : State) : Host.Outcome State Fault Refusal :=
  ok (runInstr s c.val (bodyShi c.val o 2 opSra))
/-- RORI. -/
def execRori (c : CoreId) (o : OpShi) (s : State) : Host.Outcome State Fault Refusal :=
  ok (runInstr s c.val (bodyShi c.val o 3 opRor))
/-- CMPI.EQ. -/
def execCmpiEq (c : CoreId) (o : OpK) (s : State) : Host.Outcome State Fault Refusal :=
  ok (runInstr s c.val (bodyK c.val o 0x15 true relEq))
/-- CMPI.LT. -/
def execCmpiLt (c : CoreId) (o : OpK) (s : State) : Host.Outcome State Fault Refusal :=
  ok (runInstr s c.val (bodyK c.val o 0x16 true relLt))
/-- CMPI.LTU. -/
def execCmpiLtu (c : CoreId) (o : OpK) (s : State) : Host.Outcome State Fault Refusal :=
  ok (runInstr s c.val (bodyK c.val o 0x17 true relLtu))

/-- MOVI: RS1 unused. -/
def bodyMovi (c : Nat) (o : OpK) : State → Res × State :=
  guardWord (dOk c o.rd.toNat && o.rs1 == 0) (wordK 0x18 o.rd.toNat o.rs1.toNat o.imm.toNat) (fun s =>
    (.done (nextPc s c), dSet s c o.rd.toNat (sext o.imm)))

/-- MOVK: RS1 holds HW, 0 to 3; on the management processor HW 2 and 3 change nothing (R135). -/
def bodyMovk (c : Nat) (o : OpK) : State → Res × State :=
  guardWord (dOk c o.rd.toNat && decide (o.rs1.toNat < 4)) (wordK 0x19 o.rd.toNat o.rs1.toNat o.imm.toNat) (fun s =>
    (.done (nextPc s c), dSet s c o.rd.toNat
      (setFld (dGet s c o.rd.toNat) (16 * o.rs1.toNat + 15) (16 * o.rs1.toNat) o.imm.toNat)))

/-- ADDAI. -/
def bodyAddai (c : Nat) (o : OpK) : State → Res × State :=
  guardWord (aOk c o.rd.toNat && aOk c o.rs1.toNat) (wordK 0x1A o.rd.toNat o.rs1.toNat o.imm.toNat) (fun s =>
    (.done (nextPc s c), aSet s c o.rd.toNat (aGet s c o.rs1.toNat + sext o.imm)))

/-- ADRPC: RS1 unused. -/
def bodyAdrpc (c : Nat) (o : OpK) : State → Res × State :=
  guardWord (aOk c o.rd.toNat && o.rs1 == 0) (wordK 0x1B o.rd.toNat o.rs1.toNat o.imm.toNat) (fun s =>
    (.done (nextPc s c), aSet s c o.rd.toNat ((getCore s c).pc + dispOf o.imm)))

/-- MOVI. -/
def execMovi (c : CoreId) (o : OpK) (s : State) : Host.Outcome State Fault Refusal := ok (runInstr s c.val (bodyMovi c.val o))
/-- MOVK. -/
def execMovk (c : CoreId) (o : OpK) (s : State) : Host.Outcome State Fault Refusal := ok (runInstr s c.val (bodyMovk c.val o))
/-- ADDAI. -/
def execAddai (c : CoreId) (o : OpK) (s : State) : Host.Outcome State Fault Refusal := ok (runInstr s c.val (bodyAddai c.val o))
/-- ADRPC. -/
def execAdrpc (c : CoreId) (o : OpK) (s : State) : Host.Outcome State Fault Refusal := ok (runInstr s c.val (bodyAdrpc c.val o))

/-! ### Address register operations, major 0x04 -/

/-- ADDA. -/
def execAdda (c : CoreId) (o : OpT) (s : State) : Host.Outcome State Fault Refusal :=
  ok (runInstr s c.val (bodyAAD c.val o 0x000 opAdd))
/-- SUBA. -/
def execSuba (c : CoreId) (o : OpT) (s : State) : Host.Outcome State Fault Refusal :=
  ok (runInstr s c.val (bodyAAD c.val o 0x001 opSub))
/-- DIFA. -/
def execDifa (c : CoreId) (o : OpT) (s : State) : Host.Outcome State Fault Refusal :=
  ok (runInstr s c.val (bodyDAA c.val o 0x002 opSub))

/-- MOVA, MOVAD and MOVDA: one move, RS2 unused. -/
def bodyMov (c : Nat) (o : OpT) (fn : Nat) (srcA dstA : Bool) : State → Res × State :=
  guardWord ((if dstA then aOk c o.rd.toNat else dOk c o.rd.toNat) && (if srcA then aOk c o.rs1.toNat else dOk c o.rs1.toNat) &&
      o.rs2 == 0) (wordT 0x04 o.rd.toNat o.rs1.toNat o.rs2.toNat fn) (fun s =>
    let v := if srcA then aGet s c o.rs1.toNat else dGet s c o.rs1.toNat
    (.done (nextPc s c), if dstA then aSet s c o.rd.toNat v else dSet s c o.rd.toNat v))

/-- MOVA. -/
def execMova (c : CoreId) (o : OpT) (s : State) : Host.Outcome State Fault Refusal :=
  ok (runInstr s c.val (bodyMov c.val o 0x003 true true))
/-- MOVAD. -/
def execMovad (c : CoreId) (o : OpT) (s : State) : Host.Outcome State Fault Refusal :=
  ok (runInstr s c.val (bodyMov c.val o 0x004 false true))
/-- MOVDA. -/
def execMovda (c : CoreId) (o : OpT) (s : State) : Host.Outcome State Fault Refusal :=
  ok (runInstr s c.val (bodyMov c.val o 0x005 true false))
/-- CMPA.EQ. -/
def execCmpaEq (c : CoreId) (o : OpT) (s : State) : Host.Outcome State Fault Refusal :=
  ok (runInstr s c.val (bodyDAA c.val o 0x008 relEq))
/-- CMPA.NE. -/
def execCmpaNe (c : CoreId) (o : OpT) (s : State) : Host.Outcome State Fault Refusal :=
  ok (runInstr s c.val (bodyDAA c.val o 0x009 relNe))
/-- CMPA.LTU. -/
def execCmpaLtu (c : CoreId) (o : OpT) (s : State) : Host.Outcome State Fault Refusal :=
  ok (runInstr s c.val (bodyDAA c.val o 0x00A relLtu))
/-- CMPA.GEU. -/
def execCmpaGeu (c : CoreId) (o : OpT) (s : State) : Host.Outcome State Fault Refusal :=
  ok (runInstr s c.val (bodyDAA c.val o 0x00B relGeu))

/-! ### Register jumps, branches, jump and long call -/

/-- The PC_ALIGN exception of a register jump (R93). -/
def pcAlign (t : Word) : Exc := { cls := 0x09, eaddr := t }

/-- Whether the word of JR or JRL is allocated: RS2 is unused, and RD by JR (R65). -/
def okJump (c : Nat) (o : OpT) (link : Bool) : Bool :=
  (if link then aOk c o.rd.toNat else o.rd == 0) && aOk c o.rs1.toNat && o.rs2 == 0

/-- The cause of a register jump that comes before those of its fetch (R78 item 1): PC_ALIGN. -/
def jumpFirst (c : Nat) (o : OpT) (link : Bool) (s : State) : Option Exc :=
  let t := aGet s c o.rs1.toNat
  if okJump c o link && fld t 1 0 != 0 then some (pcAlign t) else none

/-- JR: RD and RS2 unused. -/
def bodyJr (c : Nat) (o : OpT) : State → Res × State :=
  guardWord (okJump c o false) (wordT 0x05 o.rd.toNat o.rs1.toNat o.rs2.toNat 0x000) (fun s =>
    let t := aGet s c o.rs1.toNat
    if fld t 1 0 ≠ 0 then (.exc (pcAlign t), s) else (.done t, s))

/-- JRL: RS2 unused; the link is written after the target is read (R93). -/
def bodyJrl (c : Nat) (o : OpT) : State → Res × State :=
  guardWord (okJump c o true) (wordT 0x05 o.rd.toNat o.rs1.toNat o.rs2.toNat 0x001) (fun s =>
    let t := aGet s c o.rs1.toNat
    if fld t 1 0 ≠ 0 then (.exc (pcAlign t), s) else (.done t, aSet s c o.rd.toNat (nextPc s c)))

/-- JR. -/
def execJr (c : CoreId) (o : OpT) (s : State) : Host.Outcome State Fault Refusal := 
  ok (runAfter s c.val (jumpFirst c.val o false) (bodyJr c.val o))
/-- JRL. -/
def execJrl (c : CoreId) (o : OpT) (s : State) : Host.Outcome State Fault Refusal := 
  ok (runAfter s c.val (jumpFirst c.val o true) (bodyJrl c.val o))
/-- BZ. -/
def execBz (c : CoreId) (o : OpB) (s : State) : Host.Outcome State Fault Refusal :=
  ok (runInstr s c.val (bodyB c.val o 0x34 takenZ))
/-- BNZ. -/
def execBnz (c : CoreId) (o : OpB) (s : State) : Host.Outcome State Fault Refusal :=
  ok (runInstr s c.val (bodyB c.val o 0x35 takenNZ))
/-- J. -/
def execJ (c : CoreId) (disp : BitVec 26) (s : State) : Host.Outcome State Fault Refusal :=
  ok (runInstr s c.val (fun s => (.done ((getCore s c.val).pc + dispOf disp), s)))
/-- JL: the link register takes the following address (R54, R88). -/
def execJl (c : CoreId) (disp : BitVec 26) (s : State) : Host.Outcome State Fault Refusal :=
  ok (runInstr s c.val (fun s =>
    (.done ((getCore s c.val).pc + dispOf disp), aSet s c.val (linkIdx c.val) (nextPc s c.val))))

end Sys2Proof.Machine
end

