-- ==== Sys2Proof/Machine/Atomic.lean ====
section
/-! DEFINITION. Atomic operations and reservations (R112 to R121, R294 to R297), and cache maintenance by address (R122 to R125). -/
namespace Sys2Proof.Machine

open Sys2Proof

/-! ### The contention predictor (R295, R296) -/

/-- The predictor's index: PC[9:2] XOR PC[17:10]. -/
def predIdx (pc : Word) : Nat := (fld pc 9 2) ^^^ (fld pc 17 10)

/-- The counter of an index is moved up or down, saturating. -/
def train (s : State) (c i : Nat) (up : Bool) : State :=
  let k := getCore s c
  let v := tget 0 i k.pred
  setCore s c { k with pred := tset 0 i (if up then min 3 (v + 1) else v - 1) k.pred }

/-- FEATURES.ATPRED (R635). -/
def featAtpred (s : State) : Bool := bitOf s.features 8

/-- Whether an atomic operation of core c on N-WB memory runs far (R295). -/
def placeFar (s : State) (c atp : Nat) : Bool :=
  if atp = 1 then false
  else if atp = 2 then true
  else
    let mode := fld (sysEff s c 0x602 false) 1 0
    if mode = 1 then false
    else if mode = 2 then true
    else featAtpred s && decide (tget 0 (predIdx (getCore s c).pc) (getCore s c).pred ≥ 2)

/-! ### What an atomic waits for -/

/-- Whether stores in the buffer must be performed before an instruction of major 0x06 on a line: all of them for RL, else those of
the line, those before the last BAR.ST, and DEV stores (R226, R228, R235). -/
def atomicBlocked (k : Core) (line : Nat) (rl : Bool) : Bool :=
  k.sb.any (fun e => rl || e.dev || e.pa / 64 == line || decide (e.epoch < k.stEpoch))

/-- What the instruction does with the location. -/
inductive AtKind where
  | rmw | lres | scond
  deriving DecidableEq, Repr

/-- The kind of an AOP. -/
def atKind (aop : Nat) : AtKind := if aop = 0xA then .lres else if aop = 0xB then .scond else .rmw

/-- Whether core c's reservation covers a SCOND (R120). -/
def resvHolds (k : Core) (pa size : Nat) : Bool :=
  match k.resv with
  | some r => r.world == secOf k && decide (r.base ≤ pa) && decide (pa + size ≤ r.base + r.size)
  | none => false

/-- The reservation of an LRES at pa (R117); the management processor, which has no REGRAN, takes its reset value (log entry 89). -/
def resvAt (s : State) (c pa : Nat) : Resv :=
  let g := if c = mpCore then 0x80 else (sysEff s c 0x005 false).toNat
  { base := pa / g * g, size := g, world := secOf (getCore s c) }

/-- A SCOND that fails (R118, R120). -/
def scondFail (s : State) (c rd : Nat) : Res × State :=
  let s := countEvent (dropResv s c) c 0x00F
  (.done (nextPc s c), dSet s c rd 0)

/-! ### Near -/

/-- The operation on the line held by core c: M for an atomic operation or SCOND, any valid state for LRES (R112, R117, R120,
R572, R573). -/
def nearDo (s : State) (c va : Nat) (p : Piece) (o : OpAt) (aop : Nat) (found : Bool) : Res × State :=
  let line := p.pa / 64
  let off := p.pa % 64
  let x := hline s c line
  let rd := o.rd.toNat
  let old := lineGet x.data off p.len
  let x2 := (dGet s c o.rs2.toNat).toNat
  match atKind aop with
  | .lres =>
    if x.poison then
      let (e, s) := busError s c va p.pa false true
      (.exc e, s)
    else
      let s := setCore s c { getCore s c with resv := some (resvAt s c p.pa) }
      (.done (nextPc s c), dSet s c rd (BitVec.ofNat 64 old))
  | .scond =>
    if resvHolds (getCore s c) p.pa p.len then
      let s := setHline s c line { x with st := .m, data := linePut x.data off p.len x2 }
      let s := breakResv (dropResv s c) c p.pa p.len
      (.done (nextPc s c), dSet s c rd 1)
    else scondFail s c rd
  | .rmw =>
    if x.poison then
      let (e, s) := busError s c va p.pa true true
      (.exc e, s)
    else
      let new := atomicNew aop (8 * p.len) old x2 (dGet s c rd).toNat
      let s := train s c (predIdx (getCore s c).pc) (!found && x.contended)
      let s := countEvent s c 0x00C
      let s := setHline s c line { x with st := .m, data := linePut x.data off p.len new }
      let s := breakResv s c p.pa p.len
      (.done (nextPc s c), dSet s c rd (BitVec.ofNat 64 old))

/-- An atomic operation or SCOND at core c: the line is obtained in M, then the operation is performed (R294). The answer to a SCOND
that was sent may show a parity error (R160): `held`. -/
def nearAtomic (s : State) (c va : Nat) (p : Piece) (o : OpAt) (aop : Nat) (arr : ArrErr) (held : Bool) : Res × State :=
  let line := p.pa / 64
  let a := coreAttr s c p.keyid
  let s := arrFound s c line arr true
  let s := worldEvict s c line a.world
  let x := hline s c line
  let fail := fun (s : State) =>
    let (e, s) := busError (setHline s c line { hline s c line with err := false }) c va p.pa true false
    (Res.exc e, s)
  let heldBad := held && atKind aop == .scond
  if x.err then fail s
  else if x.st = .m ∨ x.st = .e then
    (if heldBad && (getCore s c).atSent then fail s else nearDo s c va p o aop (!(getCore s c).atSent))
  else if transSt x.st then (.stall, s)
  else if !(isLocalMem s p.pa) && !(isRemoteMem s p.pa) then fail s
  else
    let s := setCore s c { getCore s c with atSent := true }
    let s := request s c line (if validSt x.st then .upg else .rdx) a
    let y := hline s c line
    if y.err || (heldBad && y.st == .m) then fail s
    else if y.st = .m then nearDo s c va p o aop false
    else (.stall, s)

/-- LRES: the line is read as a load reads it, then reserved (R117, R294; log entry 21). -/
def nearLres (s : State) (c va : Nat) (p : Piece) (o : OpAt) (arr : ArrErr) : Res × State :=
  let line := p.pa / 64
  match readWb s c line (coreAttr s c p.keyid) arr with
  | (.err, s) =>
    let (e, s) := busError s c va p.pa false false
    (.exc e, s)
  | (.wait, s) => (.stall, s)
  | (.data _ _, s) => if validSt (hline s c line).st then nearDo s c va p o 0xA true else (.stall, s)

/-! ### Far -/

/-- A far atomic's answer reaches core c (R294, R296, R572): the old value, or a BUS_ERROR. `pred` is the predictor's index plus
one, 0 where it is not trained; a swap made for a SCOND ends its reservation and gives 1 (R118). -/
def finishFar (s : State) (c va pa rd pred : Nat) (kind : WaitKind) (p : Packet) : Res × State :=
  let s := countEvent s c 0x00D
  let s := if p.contended then countEvent s c 0x00E else s
  if p.cmd ≠ .farRsp ∨ p.poison then
    let (e, s) := busError s c va pa true p.poison
    (.exc e, s)
  else
    let s := if pred = 0 then s else train s c (pred - 1) p.contended
    (.done (nextPc s c), if kind = .farScond then dSet (dropResv s c) c rd 1 else dSet s c rd (BitVec.ofNat 64 p.data.toNat))

/-- A far atomic is sent to its line's home (R283, R294), from a stable state of the core's own line (R289). A local home answers at once; `held` says that the answer shows a parity
error as it is used (R160). -/
def farAtomic (s : State) (c va : Nat) (p : Piece) (o : OpAt) (aop : Nat) (kind : WaitKind) (held : Bool) : Res × State :=
  let a := coreAttr s c p.keyid
  let line := p.pa / 64
  let rd := o.rd.toNat
  if c ≠ mpCore ∧ transSt (hline s c line).st then (.stall, s) else
  let (tx, s) := newTxid s
  let m : Packet := {
    cmd := .far, aq := o.aq, rl := o.rl, src := coreStop c, dst := lineStop s line, txid := tx, world := a.world, partid := a.partid,
    keyid := a.keyid, addr := p.pa, holder := if c = mpCore then 0xFE else c, aop := aop, size := p.len,
    opnd := dGet s c o.rs2.toNat, cmp := dGet s c rd }
  let pred := if c != mpCore then predIdx (getCore s c).pc + 1 else 0
  let hold := fun (s : State) =>
    let s := addOutst s { stop := coreStop c, txid := tx, cmd := .far, addr := p.pa, since := now s }
    (Res.stall, setCore s c { getCore s c with acc := some ⟨kind, va, p.pa, p.len, .d, rd, none, tx, pred, false, false⟩ })
  if isLocalMem s p.pa then
    let s := transact s m {}
    match takeAny (fun q => q.txid == tx && q.dst == coreStop c && (q.cmd == .farRsp || q.cmd == .errRsp)) s with
    | some (q, s) =>
      if held then
        let (e, s) := busError s c va p.pa true false
        (.exc e, s)
      else finishFar s c va p.pa rd pred kind q
    | none => hold s
  else if isRemoteMem s p.pa then hold (send s (toAgent s m))
  else
    let (e, s) := busError s c va p.pa true false
    (.exc e, s)

/-! ### The management processor's own memory -/

/-- An atomic on the management processor's private SRAM, which no other agent reaches (R89, R594); LRES and SCOND too. -/
def mpAtomic (s : State) (c va : Nat) (p : Piece) (o : OpAt) (aop : Nat) : Res × State :=
  let rd := o.rd.toNat
  let fail := fun (s : State) =>
    let (e, s) := busError s c va p.pa (aop != 0xA) false
    (Res.exc e, s)
  match atKind aop with
  | .scond =>
    if resvHolds (getCore s c) p.pa p.len then
      match mpLocalWrite s p.pa p.len (dGet s c o.rs2.toNat).toNat with
      | some s => (.done (nextPc s c), dSet (dropResv s c) c rd 1)
      | none => fail s
    else scondFail s c rd
  | .lres =>
    match mpLocalRead s p.pa p.len with
    | (some v, s) =>
      let s := setCore s c { getCore s c with resv := some (resvAt s c p.pa) }
      (.done (nextPc s c), dSet s c rd (BitVec.ofNat 64 v))
    | (none, s) => fail s
  | .rmw =>
    match mpLocalRead s p.pa p.len with
    | (some v, s) =>
      match mpLocalWrite s p.pa p.len (atomicNew aop (8 * p.len) v (dGet s c o.rs2.toNat).toNat (dGet s c rd).toNat) with
      | some s => (.done (nextPc s c), dSet s c rd (BitVec.ofNat 64 v))
      | none => fail s
    | (none, s) => fail s

/-- LRES and SCOND of the management processor in its window, where it has no cache (R283; log entry 21): LRES reads the line at
its home; SCOND, while the reservation holds, swaps the value in there. -/
def mpWindowResv (s : State) (c va : Nat) (p : Piece) (o : OpAt) (aop : Nat) (held : Bool) : Res × State :=
  let rd := o.rd.toNat
  let fail := fun (s : State) (wnr poison : Bool) =>
    let (e, s) := busError s c va p.pa wnr poison
    (Res.exc e, s)
  if aop = 0xA then
    match readNc s c (p.pa / 64) (coreAttr s c p.keyid) with
    | (.data d false, s) =>
      let s := setCore s c { getCore s c with resv := some (resvAt s c p.pa) }
      (.done (nextPc s c), dSet s c rd (BitVec.ofNat 64 (lineGet d (p.pa % 64) p.len)))
    | (.data _ true, s) => fail s false true
    | (.err, s) => fail s false false
    | (.wait, s) => (.stall, s)
  else if !(resvHolds (getCore s c) p.pa p.len) then scondFail s c rd
  else farAtomic s c va p o 0 .farScond held

/-! ### The instructions -/

/-- Whether the word of an atomic is allocated for core c (R65, R88, R135). -/
def okAt (c : Nat) (o : OpAt) (aop : Nat) : Bool :=
  dOk c o.rd.toNat && aOk c o.rs1.toNat && dOk c o.rs2.toNat && o.res == 0 &&
  (o.sz == 2 || (o.sz == 3 && c != mpCore)) && (aop != 0xA || o.rs2 == 0)

/-- An instruction of major 0x06 (R112 to R121). -/
def bodyAtomic (c : Nat) (o : OpAt) (aop : Nat) (e : Seen) : State → Res × State :=
  guardWord (okAt c o aop) (wordAt o aop) (fun s =>
    let size := if o.sz = 2 then 4 else 8
    let va := addrOf c (aGet s c o.rs1.toNat)
    match checkAccess s c va size (if aop = 0xA then .read else .rw) (if atKind aop == .rmw then .atomic else .resv) e.fresh with
    | (.exc x, s) => (.exc x, s)
    | (.wait, s) => (.stall, s)
    | (.ok ps, s) =>
      let p := ps.headD ⟨va, 0, size, .wb, 0, 0⟩
      let p := match mpPlace s p.pa with
        | .window pa => if c = mpCore then { p with pa := pa } else p
        | _ => p
      let mpOwn := c == mpCore && p.pa < 0x80000000
      if atomicBlocked (getCore s c) (p.pa / 64) o.rl then (.stall, s)
      else if mpOwn then mpAtomic s c va p o aop
      else if c = mpCore && atKind aop != .rmw then mpWindowResv s c va p o aop e.held
      else match atKind aop with
        | .scond =>
          if !(resvHolds (getCore s c) p.pa p.len) then scondFail s c o.rd.toNat
          else nearAtomic s c va p o aop e.arr e.held
        | .lres => nearLres s c va p o e.arr
        | .rmw =>
          if c = mpCore || p.ty == .nc || placeFar s c p.atp then farAtomic s c va p o aop .farAtomic e.held
          else nearAtomic s c va p o aop e.arr e.held)

/-- ASWP. -/
def execAswp (c : CoreId) (o : OpAt) (e : Seen) (s : State) : Host.Outcome State Fault Refusal :=
  ok (runInstr s c.val (bodyAtomic c.val o 0x0 e))
/-- AADD. -/
def execAadd (c : CoreId) (o : OpAt) (e : Seen) (s : State) : Host.Outcome State Fault Refusal :=
  ok (runInstr s c.val (bodyAtomic c.val o 0x1 e))
/-- AAND. -/
def execAand (c : CoreId) (o : OpAt) (e : Seen) (s : State) : Host.Outcome State Fault Refusal :=
  ok (runInstr s c.val (bodyAtomic c.val o 0x2 e))
/-- AOR. -/
def execAor (c : CoreId) (o : OpAt) (e : Seen) (s : State) : Host.Outcome State Fault Refusal :=
  ok (runInstr s c.val (bodyAtomic c.val o 0x3 e))
/-- AXOR. -/
def execAxor (c : CoreId) (o : OpAt) (e : Seen) (s : State) : Host.Outcome State Fault Refusal :=
  ok (runInstr s c.val (bodyAtomic c.val o 0x4 e))
/-- ASMAX. -/
def execAsmax (c : CoreId) (o : OpAt) (e : Seen) (s : State) : Host.Outcome State Fault Refusal :=
  ok (runInstr s c.val (bodyAtomic c.val o 0x5 e))
/-- ASMIN. -/
def execAsmin (c : CoreId) (o : OpAt) (e : Seen) (s : State) : Host.Outcome State Fault Refusal :=
  ok (runInstr s c.val (bodyAtomic c.val o 0x6 e))
/-- AUMAX. -/
def execAumax (c : CoreId) (o : OpAt) (e : Seen) (s : State) : Host.Outcome State Fault Refusal :=
  ok (runInstr s c.val (bodyAtomic c.val o 0x7 e))
/-- AUMIN. -/
def execAumin (c : CoreId) (o : OpAt) (e : Seen) (s : State) : Host.Outcome State Fault Refusal :=
  ok (runInstr s c.val (bodyAtomic c.val o 0x8 e))
/-- ACAS. -/
def execAcas (c : CoreId) (o : OpAt) (e : Seen) (s : State) : Host.Outcome State Fault Refusal :=
  ok (runInstr s c.val (bodyAtomic c.val o 0x9 e))
/-- LRES (R117). -/
def execLres (c : CoreId) (o : OpAt) (e : Seen) (s : State) : Host.Outcome State Fault Refusal :=
  ok (runInstr s c.val (bodyAtomic c.val o 0xA e))
/-- SCOND (R120). -/
def execScond (c : CoreId) (o : OpAt) (e : Seen) (s : State) : Host.Outcome State Fault Refusal :=
  ok (runInstr s c.val (bodyAtomic c.val o 0xB e))

/-! ### Cache maintenance by address -/

/-- The effect an operation has at this level and world (R123, R135). -/
def cmoEffect (s : State) (c : Nat) (k : Cmd) : Cmd :=
  if k = .cmoInv ∧ (c = mpCore ∨ (plOf (getCore s c) = 1 ∧ !(secOf (getCore s c)))) then .cmoFls else k

/-- CINV.VA, CCLEAN.VA and CFLUSH.VA (R122 to R125). -/
def bodyMaint (c : Nat) (o : OpT) (fn : Nat) (k : Cmd) (e : Seen) : State → Res × State := fun s =>
  let word := wordT 0x07 o.rd.toNat o.rs1.toNat o.rs2.toNat fn
  let pl := plOf (getCore s c)
  if o.rd ≠ 0 ∨ o.rs2 ≠ 0 ∨ !(aOk c o.rs1.toNat) ∨ (k = .cmoInv ∧ pl = 0) then (.exc (undef word), s)
  else if c ≠ mpCore ∧ pl ≤ 1 ∧ bit (sysEff s c 0x501 (secOf (getCore s c))) 0 then
    (.exc { cls := 0x0B, tgt := .pl 2, detail := word }, s)
  else
    let va := addrOf c (aGet s c o.rs1.toNat)
    match xlat s c (if k = .cmoInv then .write else .read) .maint false va e.fresh with
    | (.fault x, s) => (.exc x, s)
    | (.wait, s) => (.stall, s)
    | (.ok x, s) =>
      let pa := match mpPlace s x.pa with
        | .window pa => if c = mpCore then pa else x.pa
        | _ => x.pa
      if c = mpCore ∧ x.pa < 0x80000000 then doneNext s c
      else if x.ty ≠ .wb then doneNext s c
      else if !(isLocalMem s pa) && !(isRemoteMem s pa) then
        if c = mpCore ∧ isDevPa s pa then doneNext s c
        else (.done (nextPc s c), deferError s c va pa (k == .cmoInv))
      else if (getCore s c).sb.any (fun b => b.pa / 64 == pa / 64) ∨ (c ≠ mpCore ∧ transSt (hline s c (pa / 64)).st) then (.stall, s)
      else
        let a := coreAttr s c x.keyid
        let line := pa / 64
        let (tx, s) := newTxid s
        let m : Packet := {
          cmd := cmoEffect s c k, src := coreStop c, dst := lineStop s line, txid := tx, world := a.world,
          partid := a.partid, keyid := a.keyid, addr := line * 64, holder := 0xFE }
        let s := setCore s c { getCore s c with
          maint := (getCore s c).maint ++ [⟨line, va, pa, k == .cmoInv, tx, .pending⟩] }
        let out : Outst := { stop := coreStop c, txid := tx, cmd := m.cmd, addr := line * 64, since := now s }
        if isLocalMem s pa then
          let s := transact s m {}
          match takeAny (fun q => q.txid == tx && q.dst == coreStop c && (q.cmd == .wrCmp || q.cmd == .errRsp)) s with
          | some (q, s) =>
            let st := if q.cmd = .wrCmp ∧ !q.poison then MaintSt.ok else .error
            (.done (nextPc s c), setCore s c { getCore s c with
              maint := (getCore s c).maint.map (fun y => if y.txid = tx then { y with st := st } else y) })
          | none => (.done (nextPc s c), addOutst s out)
        else (.done (nextPc s c), addOutst (send s (toAgent s m)) out)

/-- CINV.VA (R123). -/
def execCinvVa (c : CoreId) (o : OpT) (e : Seen) (s : State) : Host.Outcome State Fault Refusal :=
  ok (runInstr s c.val (bodyMaint c.val o 0 .cmoInv e))
/-- CCLEAN.VA (R124). -/
def execCcleanVa (c : CoreId) (o : OpT) (e : Seen) (s : State) : Host.Outcome State Fault Refusal :=
  ok (runInstr s c.val (bodyMaint c.val o 1 .cmoCln e))
/-- CFLUSH.VA (R124). -/
def execCflushVa (c : CoreId) (o : OpT) (e : Seen) (s : State) : Host.Outcome State Fault Refusal :=
  ok (runInstr s c.val (bodyMaint c.val o 2 .cmoFls e))

/-- The oldest finished maintenance operation of core c is reported (R125): an error becomes a deferred BUS_ERROR; a barrier that
waited for it may complete. -/
def maintDone (s : State) (c : Nat) : State :=
  let k := getCore s c
  match k.maint.find? (fun y => y.st != .pending) with
  | none => s
  | some y =>
    let s := setCore s c { k with maint := k.maint.erase y }
    let s := if y.st = .error then deferError s c y.va y.pa y.wnr else s
    tryBar s c

/-- Completion of a core's maintenance by address (R125). -/
def execMaintenanceComplete (c : CoreId) (s : State) : Host.Outcome State Fault Refusal := ok (maintDone s c.val)

end Sys2Proof.Machine
end

