-- ==== Sys2Proof/Machine/LoadStore.lean ====
section
/-! DEFINITION. Loads and stores, M and N formats (R57, R60, R67, R88, R95 to R98). -/
namespace Sys2Proof.Machine

open Sys2Proof

/-- A Q load or store raises Q_DISABLED, or runs its body (R57, R78 item 5). -/
def qGuard (c word : Nat) (body : State → Res × State) : State → Res × State := fun s =>
  match qDisabled s c with
  | some t => (.exc { cls := 0x08, tgt := .pl t, detail := word }, s)
  | none => body s

/-- The writeback of an M-format access (R67). -/
def wbOf (o : OpM) (a : EaM) : Option (Nat × Nat) := a.wb.map (fun v => (o.ab.toNat, v.toNat))

/-- A load of a D register, M format. -/
def bodyLdM (c : Nat) (o : OpM) (maj size : Nat) (e : Seen) : State → Res × State :=
  guardWord (dOk c o.rt.toNat && okM c o false && !(c == mpCore && size == 8)) (wordM maj o) (fun s =>
    let a := eaM s c o size
    doLoad c a.ea size ⟨.d, o.rt.toNat, wbOf o a⟩ e s)

/-- A store of a D register, M format. -/
def bodyStM (c : Nat) (o : OpM) (maj size : Nat) (e : Seen) : State → Res × State :=
  guardWord (dOk c o.rt.toNat && okM c o false && !(c == mpCore && size == 8)) (wordM maj o) (fun s =>
    let a := eaM s c o size
    doStore c a.ea size ((dGet s c o.rt.toNat).toNat % 2 ^ (8 * size)) false (wbOf o a) e.fresh s)

/-- The bytes LD.A and ST.A move: 8, or 4 on the management processor (R135). -/
def aSize (c : Nat) : Nat := if c = mpCore then 4 else 8

/-- LD.A. -/
def bodyLdA (c : Nat) (o : OpM) (e : Seen) : State → Res × State :=
  guardWord (aOk c o.rt.toNat && okM c o true) (wordM 0x28 o) (fun s =>
    let a := eaM s c o (aSize c)
    doLoad c a.ea (aSize c) ⟨.a, o.rt.toNat, wbOf o a⟩ e s)

/-- ST.A. -/
def bodyStA (c : Nat) (o : OpM) (e : Seen) : State → Res × State :=
  guardWord (aOk c o.rt.toNat && okM c o true) (wordM 0x29 o) (fun s =>
    let a := eaM s c o (aSize c)
    doStore c a.ea (aSize c) ((aGet s c o.rt.toNat).toNat % 2 ^ (8 * aSize c)) false (wbOf o a) e.fresh s)

/-- LD.Q: RT 0 to 7 (R95). -/
def bodyLdQ (c : Nat) (o : OpM) (e : Seen) : State → Res × State :=
  guardWord (c != mpCore && decide (o.rt.toNat < 8) && okM c o false) (wordM 0x2A o) (qGuard c (wordM 0x2A o) (fun s =>
    let a := eaM s c o 32
    doLoad c a.ea 32 ⟨.q, o.rt.toNat, wbOf o a⟩ e s))

/-- ST.Q: RT 0 to 7 (R95). -/
def bodyStQ (c : Nat) (o : OpM) (e : Seen) : State → Res × State :=
  guardWord (c != mpCore && decide (o.rt.toNat < 8) && okM c o false) (wordM 0x2B o) (qGuard c (wordM 0x2B o) (fun s =>
    let a := eaM s c o 32
    doStore c a.ea 32 (qGet s c o.rt.toNat).toNat true (wbOf o a) e.fresh s))

/-- A banked-short load (R60). -/
def bodyLdN (c : Nat) (o : OpN) (maj size : Nat) (e : Seen) : State → Res × State :=
  guardWord (dOk c o.rt.toNat && bkOk c o.bk.toNat && !(c == mpCore && size == 8)) (wordN maj o)
    (fun s => doLoad c (eaN s c o size) size ⟨.d, o.rt.toNat, none⟩ e s)

/-- A banked-short store (R60). -/
def bodyStN (c : Nat) (o : OpN) (maj size : Nat) (e : Seen) : State → Res × State :=
  guardWord (dOk c o.rt.toNat && bkOk c o.bk.toNat && !(c == mpCore && size == 8)) (wordN maj o)
    (fun s => doStore c (eaN s c o size) size ((dGet s c o.rt.toNat).toNat % 2 ^ (8 * size)) false none e.fresh s)

/-- LD.B. -/
def execLdB (c : CoreId) (o : OpM) (e : Seen) (s : State) : Host.Outcome State Fault Refusal :=
  ok (runInstr s c.val (bodyLdM c.val o 0x20 1 e))
/-- LD.H. -/
def execLdH (c : CoreId) (o : OpM) (e : Seen) (s : State) : Host.Outcome State Fault Refusal :=
  ok (runInstr s c.val (bodyLdM c.val o 0x21 2 e))
/-- LD.W. -/
def execLdW (c : CoreId) (o : OpM) (e : Seen) (s : State) : Host.Outcome State Fault Refusal :=
  ok (runInstr s c.val (bodyLdM c.val o 0x22 4 e))
/-- LD.D. -/
def execLdD (c : CoreId) (o : OpM) (e : Seen) (s : State) : Host.Outcome State Fault Refusal :=
  ok (runInstr s c.val (bodyLdM c.val o 0x23 8 e))
/-- ST.B. -/
def execStB (c : CoreId) (o : OpM) (e : Seen) (s : State) : Host.Outcome State Fault Refusal :=
  ok (runInstr s c.val (bodyStM c.val o 0x24 1 e))
/-- ST.H. -/
def execStH (c : CoreId) (o : OpM) (e : Seen) (s : State) : Host.Outcome State Fault Refusal :=
  ok (runInstr s c.val (bodyStM c.val o 0x25 2 e))
/-- ST.W. -/
def execStW (c : CoreId) (o : OpM) (e : Seen) (s : State) : Host.Outcome State Fault Refusal :=
  ok (runInstr s c.val (bodyStM c.val o 0x26 4 e))
/-- ST.D. -/
def execStD (c : CoreId) (o : OpM) (e : Seen) (s : State) : Host.Outcome State Fault Refusal :=
  ok (runInstr s c.val (bodyStM c.val o 0x27 8 e))
/-- LD.A. -/
def execLdA (c : CoreId) (o : OpM) (e : Seen) (s : State) : Host.Outcome State Fault Refusal :=
  ok (runInstr s c.val (bodyLdA c.val o e))
/-- ST.A. -/
def execStA (c : CoreId) (o : OpM) (e : Seen) (s : State) : Host.Outcome State Fault Refusal :=
  ok (runInstr s c.val (bodyStA c.val o e))
/-- LD.Q. -/
def execLdQ (c : CoreId) (o : OpM) (e : Seen) (s : State) : Host.Outcome State Fault Refusal :=
  ok (runInstr s c.val (bodyLdQ c.val o e))
/-- ST.Q. -/
def execStQ (c : CoreId) (o : OpM) (e : Seen) (s : State) : Host.Outcome State Fault Refusal :=
  ok (runInstr s c.val (bodyStQ c.val o e))
/-- LDN.B. -/
def execLdnB (c : CoreId) (o : OpN) (e : Seen) (s : State) : Host.Outcome State Fault Refusal :=
  ok (runInstr s c.val (bodyLdN c.val o 0x2C 1 e))
/-- LDN.H. -/
def execLdnH (c : CoreId) (o : OpN) (e : Seen) (s : State) : Host.Outcome State Fault Refusal :=
  ok (runInstr s c.val (bodyLdN c.val o 0x2D 2 e))
/-- LDN.W. -/
def execLdnW (c : CoreId) (o : OpN) (e : Seen) (s : State) : Host.Outcome State Fault Refusal :=
  ok (runInstr s c.val (bodyLdN c.val o 0x2E 4 e))
/-- LDN.D. -/
def execLdnD (c : CoreId) (o : OpN) (e : Seen) (s : State) : Host.Outcome State Fault Refusal :=
  ok (runInstr s c.val (bodyLdN c.val o 0x2F 8 e))
/-- STN.B. -/
def execStnB (c : CoreId) (o : OpN) (e : Seen) (s : State) : Host.Outcome State Fault Refusal :=
  ok (runInstr s c.val (bodyStN c.val o 0x30 1 e))
/-- STN.H. -/
def execStnH (c : CoreId) (o : OpN) (e : Seen) (s : State) : Host.Outcome State Fault Refusal :=
  ok (runInstr s c.val (bodyStN c.val o 0x31 2 e))
/-- STN.W. -/
def execStnW (c : CoreId) (o : OpN) (e : Seen) (s : State) : Host.Outcome State Fault Refusal :=
  ok (runInstr s c.val (bodyStN c.val o 0x32 4 e))
/-- STN.D. -/
def execStnD (c : CoreId) (o : OpN) (e : Seen) (s : State) : Host.Outcome State Fault Refusal :=
  ok (runInstr s c.val (bodyStN c.val o 0x33 8 e))

end Sys2Proof.Machine
end

