-- ==== Sys2Proof/Machine/Quad.lean ====
section
/-! DEFINITION. Accumulator instructions, majors 0x38 to 0x3A (R55 to R57, R109 to R111). -/
namespace Sys2Proof.Machine

open Sys2Proof

/-- Lane width of LN: 64 or 32 bits. -/
def laneW (ln : Nat) : Nat := if ln = 0 then 64 else 32

/-- Lane i of a Q value, for lanes of w bits. -/
def lane (w : Nat) (q : QWord) (i : Nat) : BitVec w := q.extractLsb' (w * i) w

/-- The Q value whose lanes are given, lane 0 first. -/
def ofLanes (w : Nat) (l : List (BitVec w)) : QWord :=
  BitVec.ofNat 256 (l.foldr (fun x acc => acc * 2 ^ w + x.toNat) 0)

/-- The lanes of a Q value. -/
def lanes (w : Nat) (q : QWord) : List (BitVec w) := (List.range (256 / w)).map (lane w q)

/-- A lane-wise operation. -/
def laneOp (w : Nat) (f : BitVec w → BitVec w → BitVec w) (a b : QWord) : QWord :=
  ofLanes w ((List.range (256 / w)).map (fun i => f (lane w a i) (lane w b i)))

/-- Count of 1 bits. -/
def popc {w : Nat} (x : BitVec w) : Nat := ((List.range w).filter (fun i => x.getLsbD i)).length

/-- A Y-format instruction: no field the instruction leaves unused may be non-zero (`unused`), LN selects a width, the core has
Q registers (R65, R88), and Q instructions are enabled (R57). -/
def bodyY (c : Nat) (o : OpY) (maj fn : Nat) (ok_ : Bool) (body : State → Res × State) : State → Res × State :=
  guardWord (c != mpCore && decide (o.ln.toNat < 2) && ok_) (wordY maj o fn) (qGuard c (wordY maj o fn) body)

/-- Lane arithmetic: Qd from Qs1 and Qs2. -/
def bodyYY (c : Nat) (o : OpY) (fn : Nat) (f : (w : Nat) → BitVec w → BitVec w → BitVec w) : State → Res × State :=
  bodyY c o 0x38 fn (o.rx == 0) (fun s =>
    (.done (nextPc s c), qSet s c o.qd.toNat (laneOp (laneW o.ln.toNat) (f (laneW o.ln.toNat))
      (qGet s c o.qs1.toNat) (qGet s c o.qs2.toNat))))

/-- QADD. -/
def execQadd (c : CoreId) (o : OpY) (s : State) : Host.Outcome State Fault Refusal :=
  ok (runInstr s c.val (bodyYY c.val o 0x000 opAdd))
/-- QSUB. -/
def execQsub (c : CoreId) (o : OpY) (s : State) : Host.Outcome State Fault Refusal :=
  ok (runInstr s c.val (bodyYY c.val o 0x001 opSub))
/-- QMUL. -/
def execQmul (c : CoreId) (o : OpY) (s : State) : Host.Outcome State Fault Refusal :=
  ok (runInstr s c.val (bodyYY c.val o 0x002 opMul))

/-- QMAC: the products are added to Qd, lane by lane. -/
def bodyQmac (c : Nat) (o : OpY) : State → Res × State :=
  bodyY c o 0x38 0x003 (o.rx == 0) (fun s =>
    let w := laneW o.ln.toNat
    (.done (nextPc s c), qSet s c o.qd.toNat (laneOp w (fun x y => x + y) (qGet s c o.qd.toNat)
      (laneOp w (fun x y => x * y) (qGet s c o.qs1.toNat) (qGet s c o.qs2.toNat)))))

/-- QMAC. -/
def execQmac (c : CoreId) (o : OpY) (s : State) : Host.Outcome State Fault Refusal :=
  ok (runInstr s c.val (bodyQmac c.val o))
/-- QAND. -/
def execQand (c : CoreId) (o : OpY) (s : State) : Host.Outcome State Fault Refusal :=
  ok (runInstr s c.val (bodyYY c.val o 0x008 opAnd))
/-- QOR. -/
def execQor (c : CoreId) (o : OpY) (s : State) : Host.Outcome State Fault Refusal :=
  ok (runInstr s c.val (bodyYY c.val o 0x009 opOr))
/-- QXOR. -/
def execQxor (c : CoreId) (o : OpY) (s : State) : Host.Outcome State Fault Refusal :=
  ok (runInstr s c.val (bodyYY c.val o 0x00A opXor))
/-- QZERO. -/
def execQzero (c : CoreId) (o : OpY) (s : State) : Host.Outcome State Fault Refusal :=
  ok (runInstr s c.val (bodyY c.val o 0x38 0x00B (o.rx == 0 && o.qs1 == 0 && o.qs2 == 0)
    (fun s => (.done (nextPc s c.val), qSet s c.val o.qd.toNat 0))))
/-- QPOPC: the count of 1 bits of each lane of Qs1. -/
def execQpopc (c : CoreId) (o : OpY) (s : State) : Host.Outcome State Fault Refusal :=
  ok (runInstr s c.val (bodyY c.val o 0x38 0x00C (o.rx == 0 && o.qs2 == 0) (fun s =>
    let w := laneW o.ln.toNat
    (.done (nextPc s c.val), qSet s c.val o.qd.toNat
      (ofLanes w ((lanes w (qGet s c.val o.qs1.toNat)).map (fun x => BitVec.ofNat w (popc x))))))))

/-! ### Accumulator moves, major 0x39 -/

/-- Whether lane index L exists (R109). -/
def laneOk (ln l : Nat) : Bool := decide (l < 256 / laneW ln)

/-- QINS: lane L of Qd takes the low bits of Dx. -/
def bodyQins (c : Nat) (o : OpY) (l : Nat) : State → Res × State :=
  bodyY c o 0x39 l (o.qs1 == 0 && o.qs2 == 0 && laneOk o.ln.toNat l) (fun s =>
    let w := laneW o.ln.toNat
    (.done (nextPc s c), qSet s c o.qd.toNat (ofLanes w ((lanes w (qGet s c o.qd.toNat)).set l
      ((dGet s c o.rx.toNat).setWidth w)))))

/-- QEXT: Dx takes lane L of Qs1. -/
def bodyQext (c : Nat) (o : OpY) (l : Nat) : State → Res × State :=
  bodyY c o 0x39 (0x08 + l) (o.qd == 0 && o.qs2 == 0 && laneOk o.ln.toNat l) (fun s =>
    (.done (nextPc s c), dSet s c o.rx.toNat ((lane (laneW o.ln.toNat) (qGet s c o.qs1.toNat) l).setWidth 64)))

/-- QBCAST: every lane of Qd takes the low bits of Dx; L must be 0. -/
def bodyQbcast (c : Nat) (o : OpY) (l : Nat) : State → Res × State :=
  bodyY c o 0x39 (0x10 + l) (o.qs1 == 0 && o.qs2 == 0 && l == 0) (fun s =>
    let w := laneW o.ln.toNat
    (.done (nextPc s c), qSet s c o.qd.toNat
      (ofLanes w (List.replicate (256 / w) ((dGet s c o.rx.toNat).setWidth w)))))

/-- QMOV; L must be 0. -/
def bodyQmov (c : Nat) (o : OpY) (l : Nat) : State → Res × State :=
  bodyY c o 0x39 (0x18 + l) (o.rx == 0 && o.qs2 == 0 && l == 0) (fun s =>
    (.done (nextPc s c), qSet s c o.qd.toNat (qGet s c o.qs1.toNat)))

/-- QSUM: the sum of the lanes of Qs1, modulo 2^64; L must be 0. -/
def bodyQsum (c : Nat) (o : OpY) (l : Nat) : State → Res × State :=
  bodyY c o 0x39 (0x20 + l) (o.qd == 0 && o.qs2 == 0 && l == 0) (fun s =>
    (.done (nextPc s c), dSet s c o.rx.toNat
      (BitVec.ofNat 64 ((lanes (laneW o.ln.toNat) (qGet s c o.qs1.toNat)).foldl (fun a x => a + x.toNat) 0))))

/-- QINS. -/
def execQins (c : CoreId) (o : OpY) (l : BitVec 3) (s : State) : Host.Outcome State Fault Refusal :=
  ok (runInstr s c.val (bodyQins c.val o l.toNat))
/-- QEXT. -/
def execQext (c : CoreId) (o : OpY) (l : BitVec 3) (s : State) : Host.Outcome State Fault Refusal :=
  ok (runInstr s c.val (bodyQext c.val o l.toNat))
/-- QBCAST. -/
def execQbcast (c : CoreId) (o : OpY) (l : BitVec 3) (s : State) : Host.Outcome State Fault Refusal :=
  ok (runInstr s c.val (bodyQbcast c.val o l.toNat))
/-- QMOV. -/
def execQmov (c : CoreId) (o : OpY) (l : BitVec 3) (s : State) : Host.Outcome State Fault Refusal :=
  ok (runInstr s c.val (bodyQmov c.val o l.toNat))
/-- QSUM. -/
def execQsum (c : CoreId) (o : OpY) (l : BitVec 3) (s : State) : Host.Outcome State Fault Refusal :=
  ok (runInstr s c.val (bodyQsum c.val o l.toNat))

/-! ### Carry-less multiply, CRC and counts, major 0x3A -/

/-- clmul of R110. -/
def clmul (a b : BitVec 64) : BitVec 128 :=
  (List.range 64).foldl (fun acc i => if a.getLsbD i then acc ^^^ ((b.setWidth 128) <<< i) else acc) 0

/-- One byte of the CRC of R111. -/
def crcStep (crc : Nat) (b : Byte) : Nat :=
  (List.range 8).foldl (fun c _ => (c >>> 1) ^^^ (if c % 2 = 1 then 0x82F63B78 else 0)) (crc ^^^ b.toNat)

/-- QCLMUL; LN must be 0b00. -/
def bodyQclmul (c : Nat) (o : OpY) : State → Res × State :=
  bodyY c o 0x3A 0x000 (o.rx == 0 && o.ln == 0) (fun s =>
    let a := qGet s c o.qs1.toNat
    let b := qGet s c o.qs2.toNat
    (.done (nextPc s c), qSet s c o.qd.toNat (clmul (lane 64 a 2) (lane 64 b 2) ++ clmul (lane 64 a 0) (lane 64 b 0))))

/-- QCRC32C; LN must be 0b00. -/
def bodyQcrc32c (c : Nat) (o : OpY) : State → Res × State :=
  bodyY c o 0x3A 0x001 (o.qd == 0 && o.qs2 == 0 && o.ln == 0) (fun s =>
    let q := qGet s c o.qs1.toNat
    let crc := ((List.range 32).map (fun i => (q.extractLsb' (8 * i) 8 : Byte))).foldl crcStep
      ((dGet s c o.rx.toNat).toNat % 2 ^ 32)
    (.done (nextPc s c), dSet s c o.rx.toNat (BitVec.ofNat 64 crc)))

/-- QPOPCT; LN must be 0b00. -/
def bodyQpopct (c : Nat) (o : OpY) : State → Res × State :=
  bodyY c o 0x3A 0x002 (o.qd == 0 && o.qs2 == 0 && o.ln == 0) (fun s =>
    (.done (nextPc s c), dSet s c o.rx.toNat (BitVec.ofNat 64 (popc (qGet s c o.qs1.toNat)))))

/-- QCLMUL. -/
def execQclmul (c : CoreId) (o : OpY) (s : State) : Host.Outcome State Fault Refusal :=
  ok (runInstr s c.val (bodyQclmul c.val o))
/-- QCRC32C. -/
def execQcrc32c (c : CoreId) (o : OpY) (s : State) : Host.Outcome State Fault Refusal :=
  ok (runInstr s c.val (bodyQcrc32c c.val o))
/-- QPOPCT. -/
def execQpopct (c : CoreId) (o : OpY) (s : State) : Host.Outcome State Fault Refusal :=
  ok (runInstr s c.val (bodyQpopct c.val o))

end Sys2Proof.Machine
end

