-- ==== Sys2Proof/Machine/BlockRep.lean ====
section
/-! DEFINITION. Block-repeat instructions (R99 to R108): element groups checked as a whole, performed element by element. -/
namespace Sys2Proof.Machine

open Sys2Proof

/-- What the reads of one element give. -/
inductive ElemGot where
  | val (v : Nat)
  | exc (e : Exc)
  | stall
  deriving DecidableEq, Repr

/-- A DEV element of operand `opnd` is read (R98, R101): the answer already here is used, else the read leaves and the instruction
waits. Through the management processor's window a register is read by halves (R595). -/
def devElem (s : State) (c opnd va pa size : Nat) : ElemGot × State :=
  match (getCore s c).devGot.find? (fun p => p.1 == devKey pa opnd) with
  | some p => (.val p.2, s)
  | none =>
    if !((getCore s c).sb.isEmpty) then (.stall, s)
    else if c = mpCore then
      if size ≠ 4 then
        let (x, s) := busError s c va pa false false
        (.exc x, s)
      else
        match s.mpRead with
        | some (q, v) =>
          if pa = q + 4 then (.val (fld v 63 32), { s with mpRead := none })
          else
            let (x, s) := busError s c va pa false false
            (.exc x, s)
        | none =>
          if pa % 8 = 0 then (.stall, sendDevRd s c ⟨.devElem, va, pa, size, .d, opnd, none, 0, 0, true, false⟩ false 3)
          else
            let (x, s) := busError s c va pa false false
            (.exc x, s)
    else
      (.stall, sendDevRd s c ⟨.devElem, va, pa, size, .d, opnd, none, 0, 0, false, false⟩ (accWorld s c)
        (match size with | 1 => 0 | 2 => 1 | 4 => 2 | _ => 3))

/-- One element of operand `opnd` is read; an error reports the element's own address (R103). -/
def elemRead (s : State) (c opnd size : Nat) (arr : ArrErr) (ps : List Piece) : ElemGot × State :=
  let p0 := ps.headD ⟨0, 0, size, .wb, 0, 0⟩
  let mem := fun (ps : List Piece) =>
    match gather s c arr ps 0 0 with
    | (.val v, s) => (ElemGot.val v, s)
    | (.exc e, s) => (.exc { e with eaddr := BitVec.ofNat 64 p0.va }, s)
    | (.stall, s) => (.stall, s)
  if c = mpCore then
    match mpPlace s p0.pa with
    | .window pa =>
      if p0.ty == .dev && !(isLocalMem s pa) then devElem s c opnd p0.va pa size
      else mem (ps.map (fun p => { p with pa := s.mpwin * 0x80000000 + (p.pa - 0x80000000) }))
    | _ =>
      match mpLocalRead s p0.pa size with
      | (some v, s) => (.val v, s)
      | (none, s) =>
        let (x, s) := busError s c p0.va p0.pa false false
        (.exc x, s)
  else if p0.ty = .dev then devElem s c opnd p0.va p0.pa size
  else mem ps

/-- The checked parts of one element: at the first operand and at the second. -/
structure Elem where
  va1 : Nat
  p1 : List Piece
  va2 : Nat
  p2 : List Piece
  deriving DecidableEq, Repr

/-- Whether a part of an element is DEV. -/
def elemDev (e : Elem) : Bool := (e.p1 ++ e.p2).any (fun p => p.ty == .dev)

/-- How the checks of an element or a group end. -/
inductive ElemChecked (α : Type) where
  | ok (x : α)
  | exc (e : Exc)
  | wait
  deriving DecidableEq, Repr

/-- The checks of one operand of an element: a failing one reports the element's address (R103). -/
def checkOpnd (s : State) (c va size : Nat) (kind : AccKind) (fresh : Bool) : Checked × State :=
  match checkAccess s c va size kind .block fresh with
  | (.exc e, s) => (.exc { e with eaddr := BitVec.ofNat 64 va }, s)
  | r => r

/-- The checks of one element (R78, R103): of what is read at the second operand, then of the first operand; of two failing operands the
class first in R78 is raised. -/
def checkElem (s : State) (c bop size va1 va2 : Nat) (fresh : Bool) : ElemChecked Elem × State :=
  let kind1 : AccKind := if bop ≤ 1 then .write else .read
  let second : Checked × State :=
    if bop == 0 || bop == 2 then checkOpnd s c va2 size .read fresh else (.ok [], s)
  match second with
  | (.wait, s) => (.wait, s)
  | (.exc e, s) =>
    match checkOpnd s c va1 size kind1 fresh with
    | (.wait, s) => (.wait, s)
    | (.exc f, _) => (.exc (firstExc e f), s)
    | (.ok _, _) => (.exc e, s)
  | (.ok p2, s) =>
    match checkOpnd s c va1 size kind1 fresh with
    | (.wait, s) => (.wait, s)
    | (.exc e, s) => (.exc e, s)
    | (.ok p1, s) => (.ok ⟨va1, p1, va2, p2⟩, s)

/-- The checks of a group, element by element (R101, R103): a group ends before its first DEV element, unless that is its only
one. -/
def checkGroup (c bop size a1 a2 : Nat) (fresh : Bool) : List Nat → List Elem → State → ElemChecked (List Elem) × State
  | [], acc, s => (.ok acc.reverse, s)
  | i :: is, acc, s =>
    let at_ := fun (a : Nat) => addrOf c (BitVec.ofNat 64 (a + i * size))
    match checkElem s c bop size (at_ a1) (at_ a2) fresh with
    | (.exc e, s) => (.exc e, s)
    | (.wait, s) => (.wait, s)
    | (.ok el, s) =>
      if elemDev el then (.ok (if acc.isEmpty then [el] else acc.reverse), s)
      else checkGroup c bop size a1 a2 fresh is (el :: acc) s

/-- How the elements of a group end: all done, a stop condition at one, an exception, or a wait. -/
inductive GroupEnd where
  | all
  | stop (i : Nat)
  | exc (e : Exc)
  | stall
  deriving DecidableEq, Repr

/-- The elements of a group are performed in ascending order (R104, R106). `val i` is the low bytes of Dv at element i. -/
def doElems (c bop size : Nat) (arr : ArrErr) (val : Nat → Nat) : List Elem → Nat → State → GroupEnd × State
  | [], _, s => (.all, s)
  | el :: es, i, s =>
    let put := fun (s : State) (x : Nat) =>
      match putStore c el.va1 size x el.p1 s with
      | (.ok, s) => doElems c bop size .none_ val es (i + 1) s
      | (.full, s) => (.stall, s)
      | (.err pa, s) =>
        let (e, s) := busError s c el.va1 pa true false
        (.exc e, s)
    match bop with
    | 0 =>
      match elemRead s c 1 size arr el.p2 with
      | (.val v, s) => put s v
      | (.exc e, s) => (.exc e, s)
      | (.stall, s) => (.stall, s)
    | 1 => put s (val i)
    | 2 =>
      match elemRead s c 0 size arr el.p1 with
      | (.val a, s) =>
        let s := if elemDev el && (el.p1.any (fun p => p.ty == .dev)) then
            setCore s c { getCore s c with devGot := (devKey ((el.p1.map (·.pa)).headD 0) 0, a) :: (getCore s c).devGot } else s
        match elemRead s c 1 size .none_ el.p2 with
        | (.val b, s) => if a = b then doElems c bop size .none_ val es (i + 1) s else (.stop i, s)
        | (.exc e, s) => (.exc e, s)
        | (.stall, s) => (.stall, s)
      | (.exc e, s) => (.exc e, s)
      | (.stall, s) => (.stall, s)
    | _ =>
      match elemRead s c 0 size arr el.p1 with
      | (.val a, s) => if a = val i then (.stop i, s) else doElems c bop size .none_ val es (i + 1) s
      | (.exc e, s) => (.exc e, s)
      | (.stall, s) => (.stall, s)

/-- The registers after n elements of a group (R102): pointers and count. -/
def blkAdvance (s : State) (c bop : Nat) (o : OpR) (n size : Nat) : State :=
  let step := BitVec.ofNat 64 (n * size)
  let a1 := aGet s c o.rs1.toNat + step
  let a2 := aGet s c o.rs2.toNat + step
  let s := aSet s c o.rs1.toNat a1
  let s := if bop = 0 ∨ bop = 2 then aSet s c o.rs2.toNat a2 else s
  dSet s c o.rd.toNat (dGet s c o.rd.toNat - BitVec.ofNat 64 n)

/-- The result register of CMPB and SCANB, when the instruction names one (R106, R107). -/
def blkResult (s : State) (c : Nat) (o : OpR) (v : Word) : State := if o.dr = 0 then s else dSet s c o.dr.toNat v

/-- One element group (R101 to R106) of at most `grp` elements. -/
def blkGroup (c bop : Nat) (o : OpR) (grp : Nat) (e : Seen) (s : State) : Res × State :=
  let size := 2 ^ o.sz.toNat
  let count := dGet s c o.rd.toNat
  if count = 0 then (.done (nextPc s c), blkResult s c o 0)
  else
    let n := min (min (max grp 1) (max 1 (64 / size))) count.toNat
    let a1 := addrOf c (aGet s c o.rs1.toNat)
    let a2 := addrOf c (aGet s c o.rs2.toNat)
    match checkGroup c bop size a1 a2 e.fresh (List.range n) [] s with
    | (.exc x, s) => (.exc x, s)
    | (.wait, s) => (.stall, s)
    | (.ok els, s) =>
      if bop ≤ 1 ∧ (getCore s c).sb.length > 60 then (.stall, countEvent s c 0x011)
      else
        let sb := (getCore s c).sb
        let ram := s.mpSram
        let undo := fun (s : State) => setCore { s with mpSram := ram } c { getCore s c with sb := sb }
        let val := fun (i : Nat) =>
          (if o.rs2 = o.rd then count - BitVec.ofNat 64 i else dGet s c o.rs2.toNat).toNat % 2 ^ (8 * size)
        match doElems c bop size e.arr val els 0 s with
        | (.exc x, s) => (.exc x, undo s)
        | (.stall, s) => (.stall, undo s)
        | (.stop i, s) =>
          let s := setCore s c { getCore s c with devGot := [] }
          let s := blkAdvance s c bop o i size
          let s := blkResult s c o (dGet s c o.rd.toNat)
          (.done (nextPc s c), dSet s c o.rd.toNat 0)
        | (.all, s) =>
          let s := dropFills (setCore s c { getCore s c with devGot := [] }) c
          let s := blkAdvance s c bop o els.length size
          if dGet s c o.rd.toNat = 0 then (.done (nextPc s c), blkResult s c o 0) else (.part, s)

/-- Groups one after another, until the instruction ends or `groups` of them are done (R102, R105). -/
def blkRun (c bop : Nat) (o : OpR) (grp : Nat) (e : Seen) : Nat → State → Res × State
  | 0, s => (.part, s)
  | fuel + 1, s =>
    match blkGroup c bop o grp e s with
    | (.part, s) => if (getCore s c).stepping then (.part, s) else blkRun c bop o grp { e with arr := .none_ } fuel s
    | r => r

/-- A block-repeat instruction: its word's checks (R65, R66, R88, R100), then its groups. -/
def bodyBlk (c bop : Nat) (o : OpR) (grp groups : Nat) (e : Seen) : State → Res × State :=
  let two := bop == 0 || bop == 2
  guardWord (dOk c o.rd.toNat && aOk c o.rs1.toNat && (if two then aOk c o.rs2.toNat else dOk c o.rs2.toNat) &&
      dOk c o.dr.toNat && (if bop ≤ 1 then o.dr == 0 else !(o.dr != 0 && o.dr == o.rd)) && !o.res &&
      !(c == mpCore && o.sz == 3)) (wordR o bop) (blkRun c bop o grp e (max groups 1))

/-- MOVB. -/
def execMovb (c : CoreId) (o : OpR) (grp groups : Nat) (e : Seen) (s : State) : Host.Outcome State Fault Refusal :=
  ok (runInstr s c.val (bodyBlk c.val 0 o grp groups e))
/-- FILLB. -/
def execFillb (c : CoreId) (o : OpR) (grp groups : Nat) (e : Seen) (s : State) : Host.Outcome State Fault Refusal :=
  ok (runInstr s c.val (bodyBlk c.val 1 o grp groups e))
/-- CMPB. -/
def execCmpb (c : CoreId) (o : OpR) (grp groups : Nat) (e : Seen) (s : State) : Host.Outcome State Fault Refusal :=
  ok (runInstr s c.val (bodyBlk c.val 2 o grp groups e))
/-- SCANB. -/
def execScanb (c : CoreId) (o : OpR) (grp groups : Nat) (e : Seen) (s : State) : Host.Outcome State Fault Refusal :=
  ok (runInstr s c.val (bodyBlk c.val 3 o grp groups e))

end Sys2Proof.Machine
end

