-- ==== Sys2Proof/Machine/Heat.lean ====
section
/-! DEFINITION. Queuing heat-log records (R502, R606, R608) and the refusals of secure ownership (R502 to R504); the core supplies
(R145, R146, R566, R629). -/
namespace Sys2Proof.Machine

open Sys2Proof

/-! ### Who writes -/

/-- The world of an access (R14, R491). -/
def bySec : By → Bool
  | .core _ w => w
  | .mp => false
  | .dap w => w

/-- The ORIGIN field of a record (R606): world, agent, logical core. -/
def originOf (s : State) (b : By) : Nat :=
  match b with
  | .core c w =>
    let lc := ((List.range 216).find? (fun n => bit (rg s .lcmap n) 15 && rgF s .lcmap n 11 8 * 20 + rgF s .lcmap n 4 0 == c.val)).getD 0x3FF
    w.toNat * 0x8000 + 0x1000 + lc
  | .mp => 0x2000
  | .dap w => w.toNat * 0x8000 + 0x3000

/-- The FLAGS field (R606): time base coarse, holdover. -/
def hlFlags (s : State) : Nat := if s.tbMode = 0 then 1 else if s.tbMode = 2 then 2 else 0

/-! ### The queue (R608) -/

/-- A device-originated record joins the queue, or is dropped and counted. -/
def hlDevice (s : State) (typ origin arg : Nat) (payload : BitVec 256) : State :=
  let h := s.hlog
  if h.pend.length < 32 then
    { s with hlog := { h with pend := h.pend ++ [⟨typ, origin, arg, payload, s.ptime, hlFlags s, none⟩] } }
  else { s with hlog := { h with lost := h.lost + 1 } }

/-- Whether a software commit finds a slot: 8 of the 32 places are kept for device records. -/
def hlRoom (s : State) : Bool :=
  decide (s.hlog.pend.length < 32) && decide ((s.hlog.pend.filter (fun p => p.commit.isSome)).length < 24)

/-- Whether the island may append (R609). -/
def hlAppends (s : State) : Bool := s.vstby || s.vin

/-- A payload of two 8-byte words. -/
def payload2 (a b : Word) : BitVec 256 := BitVec.ofNat 256 (a.toNat + b.toNat * 2 ^ 64)

/-- A DENIED record (R503, R606): the status code, and the register's PA or the DOMID. -/
def hlDenied (s : State) (b : By) (code : Nat) (what : Word) : State :=
  hlDevice s 0x0022 (originOf s b) code (payload2 what 0)

/-- DENIED_OWNED (R504). -/
def deniedOwned : Nat := 0x20

/-- A WORLD_CFG record (R502). -/
def hlWorldCfg (s : State) (b : By) (off : Nat) (old new : Word) : State :=
  hlDevice s 0x0020 (originOf s b) off (payload2 old new)

/-- The address of offset `off` in the local register window (R30), as a record names it. -/
def regPa (off : Nat) : Word := BitVec.ofNat 64 (0xFFF0000000000 + off)

/-- Whether OWNMAP marks stack n secure-owned (R502). -/
def ownStk (s : State) (n : Nat) : Bool := bit (rg s .ownmap 0) n
/-- Whether OWNMAP marks lane group g. -/
def ownLg (s : State) (g : Nat) : Bool := bit (rg s .ownmap 0) (32 + g)
/-- Whether OWNMAP marks optical engine e. -/
def ownOe (s : State) (e : Nat) : Bool := bit (rg s .ownmap 0) (28 + e)
/-- Whether OWNMAP marks cipher cluster c. -/
def ownCiph (s : State) (c : Nat) : Bool := bit (rg s .ownmap 0) (24 + c)
/-- Whether OWNMAP marks the Ladle engines. -/
def ownLadle (s : State) : Bool := bit (rg s .ownmap 0) 23
/-- Whether OWNMAP marks the Ethernet controllers. -/
def ownEth (s : State) : Bool := bit (rg s .ownmap 0) 22

/-- A write to a set-up register of a unit: refused and recorded when the unit is secure-owned and the writer is not secure (R503). -/
def ownWrite (s : State) (b : By) (owned : Bool) (off : Nat) (act : State) : State :=
  if owned && !(bySec b) then hlDenied s b deniedOwned (regPa off) else act

/-- A write to a register that only the management processor may write (R333, R358, R397): another agent's has no effect, and is refused
and recorded as any write to a secure-owned unit's blocks (R503, R506). -/
def mpWrite (s : State) (b : By) (owned : Bool) (off : Nat) (act : State) : State :=
  if b = .mp then act else ownWrite s b owned off s

/-- The offset of a register in the block of stack n (chapter 21). -/
def stkOff (n off : Nat) : Nat := 0x1000000000 + n * 0x100000000 + off

/-- The offset of a register in the block of lane group g. -/
def lgOffset (g off : Nat) : Nat := 0x2000000000 + g * 0x1000000 + off

/-! ### The core supplies -/

/-- The supply of stack n. -/
def stkOf (s : State) (n : Nat) : Stk := tget {} n s.stk

/-- The supply of stack n replaced. -/
def setStk (s : State) (n : Nat) (x : Stk) : State := { s with stk := tset {} n x s.stk }

/-- BUSTAT.PHASE (R627). -/
def phase (s : State) : Nat := rgF s .bustat 0 63 60

/-- The floor of R145. -/
def stkFloor (s : State) (n : Nat) : Nat := 650 + (stkOf s n).ageOff

/-- The ceiling of R145 and R566, under the clamp of R629 while PHASE is EARLY. -/
def stkCeil (s : State) (n : Nat) : Nat :=
  let cap := min (rgF s .pcapstat 0 63 52) (stkOf s n).stkCeil
  let c := min 950 cap
  if phase s = 4 then min c (700 + (stkOf s n).ageOff) else c

/-- The setpoint of R145. -/
def stkSetpoint (s : State) (n : Nat) : Nat :=
  let tgt := max (5 * (rgF s .vreq n 11 0 / 5)) 650 + (stkOf s n).ageOff
  max (min tgt (stkCeil s n)) (stkFloor s n)

/-- The setpoint of stack n is computed again (R145): the supply slews when it changes, until SUPPLY_ARRIVES (R146), and PCAPSTAT.FLOORED shows a
floor above the cap (R566). -/
def reVolt (s : State) (n : Nat) : State :=
  let x := stkOf s n
  let v := stkSetpoint s n
  let s := if v = x.setpoint then s else setStk s n { x with setpoint := v, slewing := x.slewing || decide (v ≠ x.supply) }
  let cap := min (rgF s .pcapstat 0 63 52) x.stkCeil
  setRgF s .pcapstat 0 n n (if stkFloor s n > cap then 1 else 0)

/-- The setpoint of every stack is computed again. -/
def reVoltAll (s : State) : State := (List.range 12).foldl reVolt s

/-- STACK_DRIFT (R149): the largest drift among the stack's cores whose retirement fuse is not programmed. -/
def stackDrift (s : State) (n : Nat) : Nat :=
  (List.range 20).foldl (fun m u =>
    if tget false (n * 20 + u) s.coreFuse then m else max m (getCore s (n * 20 + u)).drift) 0

/-- STKVOLT of core c (R148). MEASURED is a free value while the supply slews (log entry 14). -/
def stkvolt (s : State) (c : Nat) : Word × State :=
  let n := c / 20
  let x := stkOf s n
  let (m, s) := if x.slewing then
      let (v, s) := freeWord s
      (v.toNat % 4096, s) else (x.supply, s)
  (BitVec.ofNat 64 (m * 2 ^ 40 + x.setpoint * 2 ^ 28 + stkCeil s n * 2 ^ 16 + stkFloor s n * 2 ^ 4 + x.slewing.toNat * 8), s)

/-- JTEMP of core c (R148). CORE, the core's own sensor, is a free value (log entry 14). -/
def jtemp (s : State) (c : Nat) : Word × State :=
  let (v, s) := freeWord s
  (BitVec.ofNat 64 ((stkOf s (c / 20)).tmax % 2 ^ 16 * 2 ^ 16 + v.toNat % 2 ^ 16), s)

/-- AGEMON of core c (R151). -/
def agemon (s : State) (c : Nat) : Word :=
  let k := getCore s c
  BitVec.ofNat 64 (min k.reexec 0xFFFF * 2 ^ 48 + (stkOf s (c / 20)).ageOff * 2 ^ 40 + s.fabOff * 2 ^ 32 +
    min (stackDrift s (c / 20)) 0xFFFF * 2 ^ 16 + min k.drift 0xFFFF)

end Sys2Proof.Machine
end

