-- ==== Sys2Proof/Machine/System.lean ====
section
/-! DEFINITION. System instructions (R81 to R85, R126 to R133): system registers with their denials, traps and live values, calls
and return, barriers, TLB invalidation, protection keys, user access, WAIT. -/
namespace Sys2Proof.Machine

open Sys2Proof

/-- A condition on the unused fields of an S-format word and on its D register (R65, R66). -/
def okS (c : Nat) (o : OpS) (rtUsed sysUsed : Bool) : Bool :=
  (if rtUsed then dOk c o.rt.toNat else o.rt == 0) && (sysUsed || o.sys == 0)

/-! ### Access to a system register (R81 to R84) -/

/-- The system register of a number, for core c. -/
def sysInfoOf (c n : Nat) : Option SysInfo := if c = mpCore then sysInfoM n else sysInfo n

/-- Whether a number is a counter PL0 may read while CNTCTL.UEN is 1 (R537). -/
def isUserCnt (n : Nat) : Bool := n == 0x900 || n == 0x901 || (decide (0x910 ≤ n) && decide (n ≤ 0x917))

/-- Whether an access at PL0 or PL1 is trapped to PL2 (R83, R534). -/
def sysTrapped (s : State) (c n : Nat) : Bool :=
  let k := getCore s c
  let w := secOf k
  let tr := sysEff s c 0x501 w
  c != mpCore && decide (plOf k ≤ 1) &&
  (bit (sysEff s c (0x540 + n / 64) w) (n % 64) ||
   (bit tr 3 && decide (0x900 ≤ n) && decide (n ≤ 0x933)) ||
   (bit tr 2 && decide (0xA00 ≤ n) && decide (n ≤ 0xA21)) ||
   (plOf k == 1 && n == 0x805 && bit (sysEff s c 0x500 w) 1))

/-- DETAIL of SYSREG_DENY and SYSREG_TRAP (R80). -/
def sysDetail (rt n : Nat) (wr : Bool) : Nat := rt * 2 ^ 13 + wr.toNat * 2 ^ 12 + n

/-- The exception of an access to a system register, if any (R81 to R83). -/
def sysCheck (s : State) (c rt n : Nat) (wr : Bool) (word : Nat) : Option Exc :=
  let k := getCore s c
  match sysInfoOf c n with
  | none => some (undef word)
  | some i =>
    let lvl := if wr then i.wr
      else if isUserCnt n && c != mpCore && bit (sysEff s c 0x930 false) 25 then some 0 else i.rd
    let deny := fun (l : Nat) => some ({ cls := 0x02, tgt := .pl (max (localTgt k) l), detail := sysDetail rt n wr } : Exc)
    match lvl with
    | none => deny (plOf k)
    | some l =>
      if plOf k < l then deny l
      else if sysTrapped s c n then some { cls := 0x03, tgt := .pl 2, detail := sysDetail rt n wr }
      else none

/-- The number an access reaches: PL1's interrupt interface is the guest's while HCFG.VI is 1 (R534). -/
def sysTarget (s : State) (c n : Nat) : Nat :=
  let k := getCore s c
  if c ≠ mpCore ∧ plOf k = 1 ∧ 0x800 ≤ n ∧ n ≤ 0x804 ∧ bit (sysEff s c 0x500 (secOf k)) 1 then n + 0x10 else n

/-! ### Reading -/

/-- COREID of core c (R25, R88). -/
def coreId (s : State) (c : Nat) : Word :=
  if c = mpCore then BitVec.ofNat 64 (0x000F1FFF + s.pkg * 2 ^ 24)
  else BitVec.ofNat 64 (s.pkg * 2 ^ 24 + c / 20 * 2 ^ 16 + c % 20 * 2 ^ 8 + c)

/-- CPUREV (R1, R87): the revision of the core's own die; the management processor's is the hub die (log entry 87). -/
def cpurev (s : State) (c : Nat) : Word :=
  BitVec.ofNat 64 (rgF s .dierev (if c = mpCore then 0 else 13 + c / 20) 31 0)

/-- DBGAUTH (R508). -/
def dbgauth (s : State) : Word := BitVec.ofNat 64 (s.dbgFuse * 2 ^ 16 + dbgEff s * 2 ^ 8 + s.dbgPolicy)

/-- Whether a PL0 or PL1 access sees the guest's values: a field of HCFG. -/
def guestView (s : State) (c b : Nat) : Bool :=
  let k := getCore s c
  c != mpCore && decide (plOf k ≤ 1) && bit (sysEff s c 0x500 (secOf k)) b

/-- The value a SYSRD of an allocated register returns, and its effect (R87, R524, R534, R536). -/
def sysRead (s : State) (c n : Nat) : Word × State :=
  let k := getCore s c
  let w := accWorld s c
  if n = 0x000 then (if guestView s c 4 then sysEff s c 0x502 (secOf k) else coreId s c, s)
  else if n = 0x001 then
    (if guestView s c 4 then sysEff s c 0x503 (secOf k) else BitVec.ofNat 64 (216 * s.pkg + (coreLc s c).getD 0), s)
  else if n = 0x002 then (cpurev s c, s)
  else if n = 0x003 then (BitVec.ofNat 64 s.features, s)
  else if n = 0x004 then (k.cstat, s)
  else if n = 0x581 then (dbgauth s, s)
  else if n = 0x700 then (if guestView s c 0 then s.ptime - sysEff s c 0x702 (secOf k) else s.ptime, s)
  else if n = 0x701 then (BitVec.ofNat 64 s.tbMode, s)
  else if n = 0x711 then (setBit (sysGet s c n w) 2 (timerCond s c 1 w), s)
  else if n = 0x721 then (setBit (sysGet s c n w) 2 (timerCond s c 2 w), s)
  else if n = 0x731 then (setBit (sysGet s c n w) 2 (timerCond s c 3 true), s)
  else if n = 0x801 then readIack s c
  else if n = 0x803 then (irunpri k, s)
  else if n = 0x804 then (iackWord (ipendChoice s c), s)
  else if n = 0x811 then readViack s c
  else if n = 0x814 then (iackWord (bestSig (guestSigs s c)), s)
  else if n = 0xA21 then (setBit (setBit (sysGet s c n false) 8 k.halted) 7 k.haltPend, s)
  else if n = 0xB00 then stkvolt s c
  else if n = 0xB01 then jtemp s c
  else if n = 0xB02 then (agemon s c, s)
  else (sysGet s c n w, s)

/-! ### Writing -/

/-- Cores that halt resume when the invasive enable of their world falls (R514). -/
def resumeDisabled (s : State) : State :=
  s.cores.foldl (fun s p =>
    let k := getCore s p.1
    if k.halted && !(invasive s (secOf k)) then setCore s p.1 { k with halted := false } else s) s

/-- DBGAUTH.POLICY is written (R508): a change of EFF is recorded, and cores whose enable fell resume. -/
def writeDbgauth (s : State) (b : By) (v : Word) : State :=
  let old := dbgEff s
  let s := { s with dbgPolicy := fld v 3 0 }
  let s := if dbgEff s = old then s else hlDevice s 0x0021 (originOf s b) (old * 16 + dbgEff s) 0
  resumeDisabled s

/-- The writer a core is. -/
def byCore (s : State) (c : Nat) : By := if h : c < 240 then .core ⟨c, h⟩ (secOf (getCore s c)) else .mp

/-- The effect of a SYSWR of v to an allocated register, CNTSAVE apart (R84, R85, R234, R296, R525, R526, R534, R542). `guest`
says that PL1 reaches the guest interface. -/
def sysWriteEff (s : State) (c n : Nat) (guest : Bool) (v : Word) : State :=
  let k := getCore s c
  let w := accWorld s c
  let fs := ((sysInfoOf c n).map (·.fields)).getD []
  let plain := fun (s : State) => sysWrite s c n w (writeFields fs false (sysGet s c n w) v)
  if n = 0x004 then setCore s c { k with cstat := writeFields cstatFields false k.cstat v }
  else if n = 0x005 then
    if v = 0x40 ∨ v = 0x80 ∨ v = 0x100 then dropResv (sysWrite s c n w v) c else s
  else if n = 0x581 then writeDbgauth s (byCore s c) v
  else if n = 0x602 then
    let s := plain s
    if bit v 8 && bitOf s.features 8 then setCore s c { getCore s c with pred := [] } else s
  else if n = 0x802 then writeIeoi s c (fld v 15 0)
  else if n = 0x805 then writeIsgi s c v
  else if n = 0x810 then rereadPend (plain s) c
  else if n = 0x812 then writeVieoi s c (fld v 15 0)
  else if n = 0x813 then (if guest then s else plain s)
  else if n = 0x815 then postTo s (fld v 51 8 * 256) (fld v 63 54)
  else if n = 0x932 ∧ plOf k = 1 ∧ guestView s c 0 then s
  else if 0x920 ≤ n ∧ n ≤ 0x927 ∧ plOf k = 1 ∧ guestView s c 0 then
    let old := sysGet s c n w
    sysWrite s c n w (setFld (writeFields fs false old v) 27 26 (fld old 27 26))
  else plain s

/-! ### The counter save block (R543) -/

/-- The registers of the counter block in its order. -/
def cntBlock : List Nat :=
  [0x900, 0x901] ++ (List.range 8).map (· + 0x910) ++ (List.range 8).map (· + 0x920) ++ [0x930, 0x931, 0x932]

/-- What an act on a line ends in. -/
inductive LineAct where
  | ok | err | wait
  deriving DecidableEq, Repr

/-- Core c obtains a line in M (R288). -/
def ownLine (s : State) (c line : Nat) (a : Attr) : LineAct × State :=
  let s := worldEvict s c line a.world
  let x := hline s c line
  if x.err then (.err, setHline s c line { x with err := false })
  else if x.st = .m ∨ x.st = .e then (.ok, s)
  else if transSt x.st then (.wait, s)
  else if !(isLocalMem s (line * 64)) && !(isRemoteMem s (line * 64)) then (.err, s)
  else
    let s := request s c line (if validSt x.st then .upg else .rdx) a
    let y := hline s c line
    if y.err then (.err, setHline s c line { y with err := false })
    else if y.st = .m then (.ok, s) else (.wait, s)

/-- The counter state as the bytes of the block. -/
def cntBytes (s : State) (c : Nat) : Nat :=
  ((List.range 21).map (fun i => (sysGet s c (cntBlock.getD i 0) false).toNat * 2 ^ (64 * i))).sum

/-- Lines i to 2 of the block at pa are written: what it ends in and the failing address. -/
def cntSaveLines (s : State) (c pa : Nat) (a : Attr) (bytes : Nat) : List Nat → (LineAct × Nat) × State
  | [] => ((.ok, 0), s)
  | i :: is =>
    let line := pa / 64 + i
    match ownLine s c line a with
    | (.ok, s) =>
      let x := hline s c line
      let n := if i = 2 then 40 else 64
      let s := setHline s c line { x with st := .m, data := linePut x.data 0 n (bytes >>> (512 * i)) }
      cntSaveLines (breakResv s c (line * 64) 64) c pa a bytes is
    | (r, s) => ((r, line * 64), s)

/-- Lines i to 2 of the block at pa are read. -/
def cntLoadLines (s : State) (c pa : Nat) (a : Attr) : List Nat → Nat → (LineAct × Nat) × State
  | [], acc => ((.ok, acc), s)
  | i :: is, acc =>
    let line := pa / 64 + i
    match readWb s c line a .none_ with
    | (.data d false, s) => cntLoadLines s c pa a is (acc + d.toNat * 2 ^ (512 * i))
    | (.wait, s) => ((.wait, line * 64), s)
    | (_, s) => ((.err, line * 64), s)

/-- The counter state loaded from the bytes of a block, cut to its fields. -/
def cntLoad (s : State) (c bytes : Nat) : State :=
  (List.range 21).foldl (fun s i =>
    let n := cntBlock.getD i 0
    let v := BitVec.ofNat 64 (bytes >>> (64 * i))
    let fs := ((sysInfo n).map (·.fields)).getD []
    sysForce s c n false (if n = 0x931 then v &&& 0xFF else writeFields fs false 0 v)) s

/-- The counters as they were before the accesses of R543, during which no event is counted (R544). -/
def cntKeep (old s : State) (c : Nat) : State :=
  cntBlock.foldl (fun s n => sysSet s c n false (sysGet old c n false)) s

/-- A SYSWR of v to CNTSAVE (R543). -/
def cntsave (c : Nat) (v : Word) (s : State) : Res × State :=
  let w := secOf (getCore s c)
  let a : Attr := ⟨w, fld (sysEff s c 0x422 w) 3 0, fld (sysEff s c 0x411 w) 62 52⟩
  let oldPa := fld (sysGet s c 0x933 false) 51 8 * 256
  let newPa := fld v 51 8 * 256
  let fail := fun (s : State) (wnr : Bool) (pa : Nat) =>
    let (e, s) := busError s c 0 pa wnr false
    (Res.exc e, s)
  let old := s
  let busy := (getCore s c).sb.any (fun e => !e.dev &&
    ((bit v 1 && e.pa / 256 == oldPa / 256) || (bit v 0 && e.pa / 256 == newPa / 256)))
  if busy then (.stall, s)
  else
    let ((r, pa), s) := if bit v 1 then cntSaveLines s c oldPa a (cntBytes s c) [0, 1, 2] else ((LineAct.ok, 0), s)
    let s := cntKeep old s c
    match r with
    | .wait => (.stall, s)
    | .err => fail s true pa
    | .ok =>
      let ((r, x), s) := if bit v 0 then cntLoadLines s c newPa a [0, 1, 2] 0 else ((LineAct.ok, 0), s)
      let s := cntKeep old s c
      match r with
      | .wait => (.stall, s)
      | .err => fail (sysWrite s c 0x933 false (setFld 0 51 8 (newPa / 256))) false x
      | .ok =>
        let s := sysWrite s c 0x933 false (setFld 0 51 8 (newPa / 256))
        (.done (nextPc s c), if bit v 0 then cntLoad s c x else s)

/-! ### SYSRD and SYSWR -/

/-- SYSRD. -/
def bodySysrd (c : Nat) (o : OpS) : State → Res × State :=
  guardWord (okS c o true true) (wordS o 0x001) (fun s =>
    match sysCheck s c o.rt.toNat o.sys.toNat false (wordS o 0x001) with
    | some e => (.exc e, s)
    | none =>
      let (v, s) := sysRead s c (sysTarget s c o.sys.toNat)
      (.done (nextPc s c), dSet s c o.rt.toNat v))

/-- SYSWR. -/
def bodySyswr (c : Nat) (o : OpS) : State → Res × State :=
  guardWord (okS c o true true) (wordS o 0x002) (fun s =>
    match sysCheck s c o.rt.toNat o.sys.toNat true (wordS o 0x002) with
    | some e => (.exc e, s)
    | none =>
      let n := sysTarget s c o.sys.toNat
      let v := dGet s c o.rt.toNat
      if n = 0x933 then cntsave c v s
      else
        let s := sysWriteEff s c n (n != o.sys.toNat) v
        (.done (nextPc s c), s))

/-- NOP (R126). -/
def execNop (c : CoreId) (o : OpS) (s : State) : Host.Outcome State Fault Refusal :=
  ok (runInstr s c.val (guardWord (okS c.val o false false) (wordS o 0x000) (fun s => doneNext s c.val)))
/-- SYSRD (R81 to R84). -/
def execSysrd (c : CoreId) (o : OpS) (s : State) : Host.Outcome State Fault Refusal := ok (runInstr s c.val (bodySysrd c.val o))
/-- SYSWR (R81 to R85). -/
def execSyswr (c : CoreId) (o : OpS) (s : State) : Host.Outcome State Fault Refusal := ok (runInstr s c.val (bodySyswr c.val o))
/-- SYSWR to REGRAN (R234). -/
def execRegranWrite (c : CoreId) (rt : BitVec 5) (s : State) : Host.Outcome State Fault Refusal :=
  ok (runInstr s c.val (bodySyswr c.val ⟨rt, 0x005⟩))
/-- SYSWR to ATPOL (R296). -/
def execAtpolClr (c : CoreId) (rt : BitVec 5) (s : State) : Host.Outcome State Fault Refusal :=
  ok (runInstr s c.val (bodySyswr c.val ⟨rt, 0x602⟩))
/-- SYSWR to CNTSAVE (R543). -/
def execCntsaveWrite (c : CoreId) (rt : BitVec 5) (s : State) : Host.Outcome State Fault Refusal :=
  ok (runInstr s c.val (bodySyswr c.val ⟨rt, 0x933⟩))

/-! ### Calls and return (R73, R126) -/

/-- A call to level t with exception class cls; `ok_` are the levels it runs at. -/
def bodyCall (c : Nat) (o : OpS) (sf cls t : Nat) (lo hi : Nat) : State → Res × State := fun s =>
  let pl := plOf (getCore s c)
  if o.rt ≠ 0 ∨ pl < lo ∨ hi < pl ∨ (c = mpCore ∧ cls ≠ 0x04) then (.exc (undef (wordS o sf)), s)
  else (.exc { cls := cls, tgt := .pl t, detail := o.sys.toNat, next := true }, s)

/-- SCALL. -/
def execScall (c : CoreId) (o : OpS) (s : State) : Host.Outcome State Fault Refusal :=
  ok (runInstr s c.val (bodyCall c.val o 0x010 0x04 1 0 1))
/-- HCALL. -/
def execHcall (c : CoreId) (o : OpS) (s : State) : Host.Outcome State Fault Refusal :=
  ok (runInstr s c.val (bodyCall c.val o 0x011 0x05 2 1 2))
/-- WCALL. -/
def execWcall (c : CoreId) (o : OpS) (s : State) : Host.Outcome State Fault Refusal :=
  ok (runInstr s c.val (bodyCall c.val o 0x012 0x06 3 1 2))

/-- ERET (R73, R74, R534). -/
def bodyEret (c : Nat) (o : OpS) : State → Res × State := fun s =>
  let k := getCore s c
  if !(okS c o false false) || plOf k == 0 then (.exc (undef (wordS o 0x013)), s)
  else if eretIllegal s c then (.exc { cls := 0x07, tgt := .pl (plOf k) }, s)
  else
    let s := countEvent s c 0x003
    let s := returnExc s c
    let s := if plOf (getCore s c) ≤ 1 then rereadPend s c else s
    (.part, if bit k.cstat 7 then takeExcAt s c { cls := 0x32 } (getCore s c).pc (esynOf { cls := 0x32 }) else s)

/-- ERET (R73). -/
def execEret (c : CoreId) (o : OpS) (s : State) : Host.Outcome State Fault Refusal := ok (runInstr s c.val (bodyEret c.val o))

/-! ### Barriers (R235) -/

/-- A barrier that waits until its condition holds. -/
def bodyBar (c : Nat) (o : OpS) (sf : Nat) (b : BarKind) : State → Res × State :=
  guardWord (okS c o false false) (wordS o sf) (fun s =>
    (.stall, tryBar (setCore s c { getCore s c with bar := some b }) c))

/-- BAR.LD: the core's loads are performed in order, so it is complete. -/
def execBarLd (c : CoreId) (o : OpS) (s : State) : Host.Outcome State Fault Refusal :=
  ok (runInstr s c.val (guardWord (okS c.val o false false) (wordS o 0x020) (fun s => doneNext s c.val)))
/-- BAR.ST: later stores leave the store buffer after the earlier ones. -/
def execBarSt (c : CoreId) (o : OpS) (s : State) : Host.Outcome State Fault Refusal :=
  ok (runInstr s c.val (guardWord (okS c.val o false false) (wordS o 0x021) (fun s =>
    doneNext (setCore s c.val { getCore s c.val with stEpoch := (getCore s c.val).stEpoch + 1 }) c.val)))
/-- BAR.ALL. -/
def execBarAll (c : CoreId) (o : OpS) (s : State) : Host.Outcome State Fault Refusal :=
  ok (runInstr s c.val (bodyBar c.val o 0x022 .all))
/-- BAR.DEV (R238). -/
def execBarDev (c : CoreId) (o : OpS) (s : State) : Host.Outcome State Fault Refusal :=
  ok (runInstr s c.val (bodyBar c.val o 0x023 .dev))
/-- BAR.SYNC (R85, R130, R156). -/
def execBarSync (c : CoreId) (o : OpS) (s : State) : Host.Outcome State Fault Refusal :=
  ok (runInstr s c.val (bodyBar c.val o 0x024 .sync))

/-! ### TLB invalidation (R128 to R130, R211 to R213) -/

/-- The VMID of the entries of PL1&0 in world w (R210). -/
def curVmid (s : State) (c : Nat) (w : Bool) : Nat :=
  if bit (sysEff s c 0x500 w) 0 then fld (sysEff s c 0x421 w) 63 48 else 0

/-- The scope of a TINV at core c with operand v (R129, R211, R212). -/
def tinvOf (s : State) (c : Nat) (kind : TinvKind) (v : Word) : Tinv :=
  let pl := plOf (getCore s c)
  let w := accWorld s c
  let base : Tinv := {
    kind := kind, worlds := [w], regimes := [1], vmid := some (curVmid s c w), asid := 0, allAsid := false, last := false,
    vpn := 0, from_ := c }
  let s2vmid := fld (sysEff s c 0x421 w) 63 48
  match kind with
  | .va =>
    let t := { base with asid := fld v 60 45, allAsid := bit v 61, last := bit v 62, vpn := fld v 44 0 }
    if pl ≤ 1 then t
    else if pl = 2 then { t with regimes := [2], vmid := none, allAsid := true }
    else { t with regimes := if w then [2, 3] else [2], vmid := none, allAsid := true }
  | .asid =>
    let t := { base with asid := fld v 15 0 }
    if pl ≤ 1 then t else { t with vmid := some s2vmid }
  | .vmid =>
    if pl ≤ 1 then base else { base with vmid := some (fld v 15 0) }
  | .all =>
    if pl ≤ 1 then { base with kind := .vmid }
    else if pl = 2 then { base with regimes := [1, 2], vmid := none }
    else { base with worlds := [false, true], regimes := [1, 2, 3], vmid := none }

/-- Whether a TINV removes a cached entry (R211). -/
def tinvHits (t : Tinv) (e : TlbEntry) : Bool :=
  t.worlds.contains e.world && t.regimes.contains e.regime &&
  (e.regime != 1 || (match t.vmid with | some v => e.vmid == v | none => true)) &&
  (match t.kind with
   | .va => e.stage == 1 && e.idx == lvTag (t.vpn * 4096) e.lv &&
       (if bit e.entry 1 then !t.last else t.allAsid || e.glob || e.asid == t.asid)
   | .asid => e.stage == 1 && !e.glob && e.asid == t.asid
   | .vmid => true
   | .all => true)

/-- The cores a TINV reaches: those whose domain holds translations and whose stack is not fenced. -/
def tinvTargets (s : State) : List Nat :=
  (List.range 240).filter (fun c => domState s c != 3 && decide (domState s c < 7) && !(tget false (c / 20) s.fencedStk))

/-- A TINV is sent to every core of the package in the hub's order (R366), for core c to wait for; TINV.VMID and TINV.ALL also act on
the hub's translation cache (R441). -/
def tinvSpread (s : State) (t : Tinv) : State :=
  { s with
    tinvQ := s.tinvQ ++ (tinvTargets s).map (fun c => (c, t))
    hubTlb := if t.kind == .vmid || t.kind == .all then s.hubTlb.filter (fun e => !(tinvHits t e)) else s.hubTlb }

/-- Whether this package is the tundish master (CASCSTAT.MASTER). -/
def isMaster (s : State) : Bool := rgF s .cascstat 0 4 4 == 1

/-- A core's part of a broadcast TINV is done: the issuing core no longer waits for it (R130). -/
def tinvAck (s : State) (issuer target : Nat) : State :=
  tryBar (setCore s issuer { getCore s issuer with tinvOut := (getCore s issuer).tinvOut.erase target }) issuer

/-- The tag of the TINVs of broadcast n among those that wait for the cores. -/
def bcastTag (n : Nat) : Nat := 0x10000 + n

/-- Word of broadcast n to package p: the broadcast, or the report that it is complete (R366). -/
def bcastSend (s : State) (p n : Nat) (done : Bool) (t : Option Tinv) : State :=
  send s { cmd := .tinvBc, src := ⟨12, 21⟩, dst := raStop, holder := 0xF8 + p, arg := n, dirty := done, tinv := t }

/-- Package p has completed broadcast n, or the master says that all have (0xFF) (R366): a package other than the master reports its own
part; when nothing is left, the issuing core learns it, or its package. -/
def bcastPart (s : State) (p n : Nat) : State :=
  let s := if p = s.pkg ∧ isMaster s = false then bcastSend s 0 n true none else s
  match s.bcasts.find? (fun b => b.num && b.seq == n) with
  | none => s
  | some b =>
    let b' := { b with left := b.left.erase p }
    if !(b'.left.isEmpty) then { s with bcasts := s.bcasts.map (fun x => if x = b then b' else x) }
    else
      let s := { s with bcasts := s.bcasts.erase b }
      if b.pkg ≠ s.pkg then bcastSend s b.pkg n true none
      else if coreOfStop b.src ≤ mpCore then tinvAck s (coreOfStop b.src) 0xFFF
      else s

/-- Broadcast n is complete in this package once no core has still to take it (R130). -/
def bcastHere (s : State) (n : Nat) : State :=
  if s.tinvQ.any (fun q => q.2.from_ == bcastTag n) then s else bcastPart s s.pkg n

/-- A TINV leaves core c (R130, R366): to every core of this package, or, in a cascade, to the master first. -/
def sendTinv (s : State) (c : Nat) (t : Tinv) : State :=
  if s.admitted.any (fun p => p != s.pkg) then
    let s := setCore s c { getCore s c with tinvOut := (getCore s c).tinvOut ++ [0xFFF] }
    { s with bcasts := s.bcasts ++ [{ kind := .tinv, src := coreStop c, tinv := some t, pkg := s.pkg }] }
  else
    let s := setCore s c { getCore s c with tinvOut := (getCore s c).tinvOut ++ tinvTargets s }
    tinvSpread s t

/-- A TINV instruction. It waits until the core's earlier stores are performed (R213; log entry 22). -/
def bodyTinv (c : Nat) (o : OpS) (sf : Nat) (kind : TinvKind) : State → Res × State := fun s =>
  let pl := plOf (getCore s c)
  let word := wordS o sf
  if c = mpCore ∨ !(okS c o (kind != .all) false) ∨ pl = 0 then (.exc (undef word), s)
  else if pl = 1 ∧ bit (sysEff s c 0x501 (secOf (getCore s c))) 1 then (.exc { cls := 0x0B, tgt := .pl 2, detail := word }, s)
  else if !((getCore s c).sb.isEmpty) then (.stall, s)
  else
    let s := sendTinv s c (tinvOf s c kind (dGet s c o.rt.toNat))
    (.done (nextPc s c), s)

/-- TINV.VA. -/
def execTinvVa (c : CoreId) (o : OpS) (s : State) : Host.Outcome State Fault Refusal :=
  ok (runInstr s c.val (bodyTinv c.val o 0x030 .va))
/-- TINV.ASID. -/
def execTinvAsid (c : CoreId) (o : OpS) (s : State) : Host.Outcome State Fault Refusal :=
  ok (runInstr s c.val (bodyTinv c.val o 0x031 .asid))
/-- TINV.VMID. -/
def execTinvVmid (c : CoreId) (o : OpS) (s : State) : Host.Outcome State Fault Refusal :=
  ok (runInstr s c.val (bodyTinv c.val o 0x032 .vmid))
/-- TINV.ALL. -/
def execTinvAll (c : CoreId) (o : OpS) (s : State) : Host.Outcome State Fault Refusal :=
  ok (runInstr s c.val (bodyTinv c.val o 0x033 .all))

/-- A broadcast TINV reaches core c (R130, R211). -/
def tinvArrive (s : State) (c : Nat) : State :=
  match s.tinvQ.find? (fun p => p.1 == c) with
  | none => s
  | some (_, t) =>
    let s := { s with tinvQ := s.tinvQ.erase (c, t) }
    let k := getCore s c
    let s := setCore s c { k with tlb := k.tlb.filter (fun e => !(tinvHits t e)), pages := [] }
    if t.from_ ≤ mpCore then tinvAck s t.from_ c else bcastHere s (t.from_ - bcastTag 0)

/-- TINV_BC (R130). -/
def execTinvBc (c : CoreId) (s : State) : Host.Outcome State Fault Refusal := ok (tinvArrive s c.val)

/-! ### Protection keys and the user-access window (R131, R132) -/

/-- WRPKEY. -/
def execWrpkey (c : CoreId) (o : OpS) (s : State) : Host.Outcome State Fault Refusal :=
  ok (runInstr s c.val (guardWord (okS c.val o true false && c.val != mpCore) (wordS o 0x040) (fun s =>
    doneNext (sysSet s c.val 0x006 (secOf (getCore s c.val)) (dGet s c.val o.rt.toNat &&& 0xFFFFFFFF)) c.val)))
/-- RDPKEY. -/
def execRdpkey (c : CoreId) (o : OpS) (s : State) : Host.Outcome State Fault Refusal :=
  ok (runInstr s c.val (guardWord (okS c.val o true false && c.val != mpCore) (wordS o 0x041) (fun s =>
    (.done (nextPc s c.val), dSet s c.val o.rt.toNat (sysGet s c.val 0x006 (secOf (getCore s c.val)))))))

/-- UACC.ON and UACC.OFF (R132). -/
def bodyUacc (c : Nat) (o : OpS) (sf : Nat) (on : Bool) : State → Res × State := fun s =>
  let k := getCore s c
  if c = mpCore ∨ !(okS c o false false) ∨ plOf k ≠ 1 then (.exc (undef (wordS o sf)), s)
  else doneNext (setCore s c { k with cstat := setBit k.cstat 6 on }) c

/-- UACC.ON. -/
def execUaccOn (c : CoreId) (o : OpS) (s : State) : Host.Outcome State Fault Refusal :=
  ok (runInstr s c.val (bodyUacc c.val o 0x050 true))
/-- UACC.OFF. -/
def execUaccOff (c : CoreId) (o : OpS) (s : State) : Host.Outcome State Fault Refusal :=
  ok (runInstr s c.val (bodyUacc c.val o 0x051 false))

/-! ### WAIT (R133, R168 to R170, R550, R551) -/

/-- CPWRn.WAITST of core c; a core without logical number stays in RUN. -/
def waitst (s : State) (c : Nat) : Nat :=
  match coreLc s c with
  | some n => rgF s .cpwr n 1 0
  | none => 0

/-- A waiting core begins to close for its WAITST state once its store buffer is empty, none of its accesses is outstanding and no
deferred error is pending (R168, R169, R330, R550); the power controller takes it there. -/
def enterWaitst (s : State) (c : Nat) : State :=
  let k := getCore s c
  let w := waitst s c
  if k.waiting ∧ c ≠ mpCore ∧ (w = 1 ∨ w = 2) ∧ k.sb.isEmpty ∧ k.acc.isNone ∧ k.maint.isEmpty ∧ k.defErr.isNone ∧
      !(s.outst.any (fun o => o.stop == coreStop c)) ∧ rgF s .dstate c 2 0 = 0 then
    setDom s c 4
  else s

/-- Whether an event of R133 ends the WAIT of core c (log entry 90). -/
def waitEnds (s : State) (c : Nat) : Bool :=
  let k := getCore s c
  k.defErr.isSome || k.haltPend ||
  !((signalled s c).isEmpty) || !((guestSigs s c).isEmpty)

/-- WAIT. -/
def bodyWait (c : Nat) (o : OpS) : State → Res × State := fun s =>
  let k := getCore s c
  if !(okS c o false false) || plOf k == 0 then (.exc (undef (wordS o 0x060)), s)
  else (.stall, enterWaitst (setCore s c { k with waiting := true }) c)

/-- WAIT (R133). -/
def execWait (c : CoreId) (o : OpS) (s : State) : Host.Outcome State Fault Refusal := ok (runInstr s c.val (bodyWait c.val o))

/-- An ending event returns a waiting core to RUN and completes WAIT (R133, R550). -/
def endWait (s : State) (c : Nat) : State :=
  let k := getCore s c
  if k.waiting && waitEnds s c && !k.stopped && !k.held && !k.inReset then
    let s := setCore s c { k with waiting := false }
    let d := domState s c
    let s := if c ≠ mpCore ∧ (d = 1 ∨ d = 2 ∨ d = 4 ∨ d = 5) then reopenDom s c else s
    complete s c (nextPc s c)
  else s

/-- WAIT_END (R550). -/
def execWaitEnd (c : CoreId) (s : State) : Host.Outcome State Fault Refusal := ok (endWait s c.val)

/-- A core woken by a packet while it waits returns to its WAITST state when none has arrived for 1 µs (HOLD) or 10 µs (BANK)
(R551). -/
def idleReturn (s : State) (c : Nat) : State :=
  let t := if waitst s c = 1 then 1000 else 10000
  if now s ≥ ((getCore s c).idleSince.getD 0) + t then enterWaitst s c else s

/-- CORE_IDLE_RETURN (R551). -/
def execCoreIdleReturn (c : CoreId) (s : State) : Host.Outcome State Fault Refusal := ok (idleReturn s c.val)

end Sys2Proof.Machine
end

