-- ==== Sys2Proof/Machine/CoreEvents.lean ====
section
/-! DEFINITION. What happens to a core beside its instructions: interrupts and deferred errors taken, checks that fail (R158 to R162),
the store buffer's drain (R164 to R170, R228, R239), supply and aging (R145 to R150). -/
namespace Sys2Proof.Machine

open Sys2Proof

/-- Whether core c stands at a boundary where something can be taken (R77). -/
def canTake (s : State) (c : Nat) : Bool := running s c && !(getCore s c).waiting && atBoundary (getCore s c)

/-- TAKE_INTERRUPT (R645): a deferred error goes first (R77). -/
def execTakeInterrupt (c : CoreId) (s : State) : Host.Outcome State Fault Refusal :=
  ok (if canTake s c.val && !(dueDeferred s c.val) then
    (match dueInterrupt s c.val with
     | some g => stepHalt (takeSig s c.val g) c.val
     | none => s)
  else s)

/-- TAKE_DEFERRED_ERROR (R75). -/
def execTakeDeferredError (c : CoreId) (s : State) : Host.Outcome State Fault Refusal :=
  ok (if canTake s c.val && dueDeferred s c.val then stepHalt (takeDeferred s c.val) c.val else s)

/-- The response of core c's outstanding access, held in its register (R160). -/
def heldResponse (s : State) (c : Nat) : Option (PendAcc × Packet × State) :=
  match (getCore s c).acc with
  | none => none
  | some a =>
    match takePacket (fun p => p.dst == coreStop c && p.txid == a.txid &&
        (p.cmd == .rdRsp || p.cmd == .farRsp || p.cmd == .errRsp)) s with
    | some (p, s) => some (a, p, s)
    | none => none

/-- A stage completion or parity check of core c fails (R158 to R162): the eighth failure in succession stops the core; each other
counts in AGEMON.REEXEC. A held response with a parity error ends its access in a BUS_ERROR (R160). -/
def stageFail (s : State) (c : Nat) (heldBad : Bool) : State :=
  let k := getCore s c
  if k.held || k.inReset || k.stopped then s
  else if k.fails + 1 ≥ 8 then stopCore s c
  else
    let s := setCore s c { k with fails := k.fails + 1, reexec := satInc 16 k.reexec }
    let s := countEvent s c 0x010
    if heldBad then
      match heldResponse s c with
      | none => s
      | some (a, p, s) =>
        let s := delOutst s (coreStop c) p.txid
        let s := setCore s c { getCore s c with acc := none }
        let (e, s) := busError s c a.va a.pa (a.kind == .farAtomic || a.kind == .farScond) false
        raise s c e
    else s

/-- STAGE_CHECK_FAIL (R158). -/
def execStageCheckFail (c : CoreId) (heldBad : Bool) (s : State) : Host.Outcome State Fault Refusal :=
  ok (stageFail s c.val heldBad)

/-- RETIRED_STATE_PARITY_ERROR (R162). -/
def execRetiredStateParityError (c : CoreId) (s : State) : Host.Outcome State Fault Refusal := ok (stopCore s c.val)

/-- STORE_BUFFER_DRAIN (R228): entry i leaves where the rules allow it; a waiting core may then enter its WAITST state (R168). -/
def execStoreBufferDrain (c : CoreId) (i : Nat) (e : ArrErr) (s : State) : Host.Outcome State Fault Refusal :=
  ok (enterWaitst (tryBar (drainEntry s c.val i e) c.val) c.val)

/-- Entry i of core c, a DEV store that was sent, completes with error (R239). A core in reset drops the completion (R165). -/
def devStoreError (s : State) (c i : Nat) : State :=
  match (getCore s c).sb[i]? with
  | none => s
  | some e =>
    if !(e.dev && e.sent) then s
    else
      let s := match takePacket (fun p => p.dst == coreStop c && p.txid == e.txid && p.cmd == .errRsp) s with
        | some (_, s) => s
        | none => s
      let s := delOutst s (coreStop c) e.txid
      if (getCore s c).inReset then sbRemove s c i else sbFail s c i

/-- DEV_STORE_ERROR_COMPLETION (R239). -/
def execDevStoreErrorCompletion (c : CoreId) (i : Nat) (s : State) : Host.Outcome State Fault Refusal :=
  ok (devStoreError s c.val i)

/-- The drain window of core c ends (R165): what has not left the buffer is discarded and counted in RSTLOSS; a store that waits for its
line has not left it. -/
def drainWindowEnd (s : State) (c : Nat) : State :=
  let k := getCore s c
  match k.drainFrom with
  | none => s
  | some t =>
    if now s < t + 100000 then s
    else
      let left := fun (e : SbEntry) => e.sent && (e.dev || e.nc)
      let n := (k.sb.filter (fun e => !(left e))).length
      let s := setCore s c { k with drainFrom := none, sb := k.sb.filter left }
      if n = 0 ∨ c = mpCore then s
      else
        let v := sysGet s c 0x610 false
        sysSet s c 0x610 false (setFld (setFld v 63 62 k.rstKind) 31 0 (satAdd 32 (fld v 31 0) n))

/-- DRAIN_WINDOW_END (R165). -/
def execDrainWindowEnd (c : CoreId) (s : State) : Host.Outcome State Fault Refusal := ok (drainWindowEnd s c.val)

/-- VREQ_WRITE (R145, R147). -/
def vreqWrite (s : State) (b : By) (n : Nat) (v : Word) : State :=
  if !(bySec b) && ownStk s n then hlDenied s b deniedOwned (regPa (0x1000040000 + n * 0x100000000))
  else reVolt (setRgF s .vreq n 11 0 (fld v 11 0)) n

/-- VREQ_WRITE (R145). -/
def execVreqWrite (b : By) (n : StackId) (v : Word) (s : State) : Host.Outcome State Fault Refusal := ok (vreqWrite s b n.val v)

/-- SUPPLY_ARRIVES (R146). -/
def execSupplyArrives (n : StackId) (s : State) : Host.Outcome State Fault Refusal :=
  let x := stkOf s n.val
  ok (if x.slewing then setStk s n.val { x with supply := x.setpoint, slewing := false } else s)

/-- The aging offset of a drift in units of 0.01% (R149). -/
def ageOffset (drift : Nat) : Nat := min 50 (5 * ((drift + 99) / 100))

/-- An offset after a 24 h evaluation: raised by at most 5 mV, never lowered (R143, R150). -/
def ageRaise (old drift : Nat) : Nat := if ageOffset drift > old then min (ageOffset drift) (old + 5) else old

/-- The drifts of a stack's cores as measured. -/
def setDrifts (s : State) (n : Nat) (ds : List Nat) : State :=
  (List.range 20).foldl (fun s u => setCore s (n * 20 + u) { getCore s (n * 20 + u) with drift := ds.getD u (getCore s (n * 20 + u)).drift }) s

/-- 24 h in ticks. -/
def dayTicks : Nat := 86400000000000

/-- The evaluation of stack n's aging (R150, R151). -/
def ageStack (s : State) (n : Nat) (ds : List Nat) : State :=
  let x := stkOf s n
  if pourTime s < x.ageAt + dayTicks ∨ rgF s .pkgstat 0 10 8 ≠ 0 then s
  else
    let s := setDrifts s n ds
    let d := stackDrift s n
    let s := setStk s n { x with
      ageAt := pourTime s
      ageOff := if bitOf s.features 9 then ageRaise x.ageOff d else x.ageOff }
    let s := if d > 1000 then raiseSrc (logErr s (.ev n) 0x25 0 0 d) (32 * n + 7) else s
    reVolt s n

/-- The evaluation of the fabric's aging (R143). -/
def ageFabric (s : State) (d : Nat) : State :=
  if pourTime s < s.fabAgeAt + dayTicks ∨ rgF s .pkgstat 0 10 8 ≠ 0 then s
  else
    let s := { s with
      fabAgeAt := pourTime s
      fabDrift := d
      fabOff := ageRaise s.fabOff d }
    if d > 1000 then logErr s .hubEv 0x25 0 0 d else s

/-- AGING_EVALUATION (R143, R150). -/
def execAgingEvaluation (n : StackId) (drifts : List Nat) (fabDrift : Nat) (s : State) : Host.Outcome State Fault Refusal :=
  ok (ageFabric (ageStack s n.val drifts) fabDrift)

end Sys2Proof.Machine
end

