-- ==== Sys2Proof/Machine/Remote.lean ====
section
/-! DEFINITION. The remote agent between the package and the homes of other packages (R304 to R308): the package is one holder, 0xF8 + its
number, of their lines. What the holders of the package ask, what the homes answer, and what the homes snoop. -/
namespace Sys2Proof.Machine

open Sys2Proof

/-- A request waits at the agent until its line is free (R289); it keeps its place among the packets of its source. -/
def holdAtAgent (s : State) (m : Packet) : State := if m.ord = 0 then send s m else putBack s m

/-- The agent asks a remote home for a line in the package's name, for the local request m, which waits as the line's busy entry. -/
def askHome (s : State) (m : Packet) (c : Cmd) : State :=
  let line := pLine m
  let (tx, s) := newTxid s
  let x := hline s (ownPkg s) line
  let s := setHline s (ownPkg s) line { x with
    st := (match c with | .rds => .isd | .rdx => .imd | _ => .smc)
    base := x.st, txid := tx, gotData := false, gotComp := false, dropFill := false }
  let s := addOutst s { stop := raStop, txid := tx, cmd := c, addr := m.addr, since := now s }
  let s := sendOut s { m with cmd := c, src := raStop, txid := tx, holder := ownPkg s }
  setBusy s line (some { newBusy m with fwd := some (ownPkg s) })

/-- A local holder's PUT of a remote line (R305): the entry loses the holder; when it owned or forwarded the line the other local copies go
and the agent sends the home the PUT of the resulting state. -/
def remotePut (s : State) (m : Packet) : State :=
  let line := pLine m
  let e := dirGet s line
  let named := (e.st == .dsf || e.st == .dx || e.st == .do_) && e.ptr == m.holder
  if m.cmd = .puts then
    let s := if lists e m.holder && !named then rdirSet s line (setListed e m.holder false) else s
    if (localHolders (dirGet s line)).isEmpty && validSt (hline s (ownPkg s) line).st then
      sendPut s line m (hline s (ownPkg s) line).st 0 false
    else s
  else if !named then send s { answer s m .wbStale with src := raStop }
  else agentOpen s line { newBusy m with kind := .put } none ((localHolders e).filter (fun h => h != m.holder))

/-- The owner or forwarder within the package. -/
def localOwner (e : DirEntry) : Option Nat := if e.st = .dx ∨ e.st = .do_ ∨ e.st = .dsf then some e.ptr else none

/-- The agent makes room in the line's set of the remote directory (R281, R305): a victim without transaction is recalled within the
package and its PUT sent; the choice is by the rule of R254, with a seed the spec does not give (log entry 51). -/
def agentEvict (s : State) (m : Packet) : State :=
  let line := pLine m
  let cand := (rdirEntries s line).filter (fun p => (busyOf s p.1).isNone && (agentOp s p.1).isNone && validSt (hline s (ownPkg s) p.1).st)
  let ws := (List.range 16).filter (fun w => cand.any (fun p => p.2.way == w))
  if ws.isEmpty then s
  else
    let x := lfsrStep (tget Sys2Proof.Config.agentSeed 96 s.dirLfsr)
    let s := { s with dirLfsr := tset Sys2Proof.Config.agentSeed 96 x s.dirLfsr }
    match cand.find? (fun p => p.2.way == ws.getD (x % ws.length) 0) with
    | none => s
    | some (v, e) =>
      let b := { newBusy { m with addr := v * 64 } with kind := .evict }
      let o := if e.st = .dx ∨ e.st = .do_ then [e.ptr] else []
      agentOpen s v b (o.head?.map (fun h => (Cmd.rclI, h))) ((localHolders e).filter (fun h => !(o.contains h)))

/-- A local holder's RDS, RDX or UPG of a remote line reaches the agent (R305): it is served within the package where the package
holds the line in a state that allows it, and asked of the home otherwise. -/
def remoteArrive (s : State) (m : Packet) : State :=
  let line := pLine m
  let e := dirGet s line
  let p := hline s (ownPkg s) line
  let owned := p.st == .m || p.st == .e
  let others := (localHolders e).filter (fun h => h != m.holder)
  let owner := (localOwner e).filter (fun h => h != m.holder)
  let serve : Busy := { newBusy m with kind := .serve, contended := !others.isEmpty }
  let own (c : Cmd) : State :=
    match owner with
    | some h => if owned then agentOpen s line serve (some (.fwdX, h)) (others.filter (fun x => x != h))
      else if validSt p.st then askHome s { m with cmd := c } .upg else askHome s { m with cmd := c } .rdx
    | none => askHome s { m with cmd := c } .rdx
  if fencedAtHub s m.holder then s
  else if (busyOf s line).isSome || (agentOp s line).isSome || transSt p.st then holdAtAgent s m
  else if isPut m.cmd then remotePut s m
  else if e.st = .none_ ∧ rdirFull s line then holdAtAgent (agentEvict s m) m
  else
    match m.cmd with
    | .rds =>
      match owner with
      | some h => agentOpen s line serve (some (.fwdS, h)) []
      | none => askHome s m .rds
    | .rdx => own .rdx
    | .upg =>
      if !(lists e m.holder) then own .rdx
      else if owned then agentOpen s line serve none others
      else askHome s m (if validSt p.st then .upg else .rdx)
    | _ => s

/-- The entry after the package received a line in state st for local holder h. -/
def remoteGrant (e : DirEntry) (h : Nat) (st : HState) : DirEntry :=
  match st with
  | .e => entryDX e h
  | .m => entryDX e h
  | .f => setListed { e with st := .dsf, ptr := h } h true
  | .o => setListed { e with st := .do_, ptr := h } h true
  | _ => setListed { e with st := if e.st = .none_ then .ds else e.st } h true

/-- The wait for the home ends: the line is in state st in the package, and its busy entry closes. -/
def remoteEnd (s : State) (line tx : Nat) (x : CLine) : State := delOutst (setBusy (setHline s (ownPkg s) line x) line none) raStop tx

/-- The home has granted ownership: the other copies of the package go, one of them to the requester, before it gets COMP (R285). -/
def remoteOwn (s : State) (line : Nat) (m : Packet) (kept contended : Bool) : State :=
  let e := dirGet s line
  let others := (localHolders e).filter (fun h => h != m.holder)
  let b : Busy := { newBusy m with kind := .serve, contended := contended || !others.isEmpty }
  match (if kept ∧ m.cmd = .rdx then (localOwner e).filter (fun h => h != m.holder) else none) with
  | some h => agentOpen s line b (some (.fwdX, h)) (others.filter (fun x => x != h))
  | none => agentOpen s line b none others

/-- An answer of a remote home for the package (R304, R305): data and completion go on to the local requester. A fill that an INV met on
its way is not installed (R271, R289). -/
def remoteAnswer (s : State) (p : Packet) : State :=
  let line := pLine p
  let x := hline s (ownPkg s) line
  match busyOf s line with
  | none =>
    if (p.cmd = .wbAck ∨ p.cmd = .wbStale) ∧ x.st = .xia ∧ x.putId = p.txid then setHline s (ownPkg s) line {} else s
  | some b =>
    if p.txid ≠ x.txid then s
    else
      let m := b.cur
      match p.cmd with
      | .comp =>
        if x.st = .smc then remoteOwn s line m true p.contended
        else if x.st = .imd ∧ x.gotData then remoteOwn s line m false p.contended
        else setHline s (ownPkg s) line { x with gotComp := true, contended := p.contended }
      | .errRsp => send (remoteEnd s line x.txid { st := x.base }) { answer s m .errRsp with src := raStop }
      | _ =>
        let s := send s { p with src := raStop, dst := m.src, txid := m.txid, holder := m.holder, at_ := none, via := 0, spkg := none, osrc := none }
        if p.cmd = .dataM ∧ (x.st = .imd ∨ x.st = .smc) then
          if x.st = .imd ∧ x.gotComp then remoteOwn s line m false x.contended
          else setHline s (ownPkg s) line { x with gotData := true }
        else if x.dropFill then remoteEnd s line x.txid {}
        else
          let s := rdirSet s line (remoteGrant { dirGet s line with way := rdirWay s line } m.holder p.kept)
          remoteEnd s line x.txid { st := p.kept }

/-- The local request that waits for a fill does not install it (R289): an INV of the home has overtaken the data. -/
def dropLocalFill (s : State) (line : Nat) : State :=
  match busyOf s line with
  | some b =>
    let y := hline s b.cur.holder line
    if y.st = .isd then setHline s b.cur.holder line { y with dropFill := true } else s
  | none => s

/-- An acknowledgement of the package to a home that finds no copy in it. -/
def ackNone (s : State) (p : Packet) : State :=
  sendOut s { p with cmd := if p.cmd = .inv then .invAck else .rclAck, src := raStop, holder := ownPkg s, data := 0, dirty := false }

/-- A snoop of a remote home reaches the package's agent (R288, R289, R304, R305): the holders of the package are snooped, and the agent
answers when they have answered it. A snoop that meets a fill under way waits for it, but INV. -/
def remoteSnoop (s : State) (p : Packet) : State :=
  let line := pLine p
  let x := hline s (ownPkg s) line
  let e := dirGet s line
  let owner := localOwner e
  let b : Busy := { newBusy p with kind := .home, failed := owner.isNone && (p.cmd == .fwdS || p.cmd == .fwdX) }
  let rest := (localHolders e).filter (fun h => owner != some h)
  if (agentOp s line).isSome then putBack s p
  else
    match x.st with
    | .isd => if p.cmd = .inv then ackNone (dropLocalFill (setHline s (ownPkg s) line { x with dropFill := true }) line) p else putBack s p
    | .imd => if p.cmd = .inv then ackNone s p else putBack s p
    | .xia =>
      match snoopAns x.base p.cmd with
      | none => s
      | some a =>
        let s := match a.data with
          | some c => sendOut s { p with
              cmd := c, src := raStop, txid := p.reqTxid, holder := p.arg, data := x.data, poison := x.poison, kept := grantOf c true }
          | none => s
        sendOut s { p with
          cmd := a.ack, src := raStop, holder := ownPkg s, data := if a.withData then x.data else 0, poison := x.poison && a.withData
          dirty := a.withData, kept := a.kept, r := true, putId := x.putId }
    | st =>
      match snoopAns (if st = .smc then x.base else st) p.cmd with
      | none => if p.cmd = .inv ∨ p.cmd = .rclI then ackNone s p else s
      | some _ =>
        match p.cmd with
        | .fwdS => agentOpen s line b (owner.map (fun h => (Cmd.fwdS, h))) []
        | .rclC => agentOpen s line b (owner.map (fun h => (Cmd.rclC, h))) []
        | .fwdX => agentOpen s line b (owner.map (fun h => (Cmd.fwdX, h))) rest
        | .rclI => agentOpen s line b (owner.map (fun h => (Cmd.rclI, h))) rest
        | _ => agentOpen s line b none (localHolders e)

/-- A message of another package's home for this package as holder. -/
def remoteDeliver (s : State) (p : Packet) : State :=
  if p.cmd = .fwdS ∨ p.cmd = .fwdX ∨ p.cmd = .inv ∨ p.cmd = .rclC ∨ p.cmd = .rclI then remoteSnoop s p else remoteAnswer s p

/-- Whether a packet is a holder's answer to the agent's snoop, or an error in its place. -/
def toAgentOp (p : Packet) : Bool := p.dst == raStop && decide (p.holder < 0xF8) && p.src != raStop && (isCohAnswer p.cmd || p.cmd == .errRsp)

/-- Whether a packet at hub stop 22 leaves for another package (R317). -/
def outbound (s : State) (p : Packet) : Bool :=
  p.dst == raStop && !(toAgentOp p) &&
  (if p.holder = ownPkg s ∧ isCohAnswer p.cmd then
    p.cmd == .fwdDone || p.cmd == .invAck || p.cmd == .rclAck
  else if isPut p.cmd || p.cmd == .rds || p.cmd == .rdx || p.cmd == .upg then p.src == raStop && isRemoteMem s p.addr
  else decide (0xF8 ≤ p.holder ∧ p.holder < 0xFC ∧ p.holder ≠ ownPkg s) || p.src != raStop)

/-- The package an outbound packet goes to. -/
def outPkg (s : State) (p : Packet) : Nat :=
  if 0xF8 ≤ p.holder ∧ p.holder < 0xFC ∧ p.holder ≠ ownPkg s then p.holder - 0xF8
  else match paKind s p.addr with
    | .dram k _ => k
    | .cxl k _ => k
    | .pcie k _ => k
    | .regWin k _ => k
    | _ => s.pkg

/-- A request that has left its holder: to its home, or to the remote agent. -/
def launch (s : State) (p : Packet) (f : Findings) : State :=
  if isLocalMem s p.addr then homeReach s p f
  else if isRemoteMem s p.addr then
    (if p.holder < 0xF8 ∧ (isPut p.cmd ∨ p.cmd = .rds ∨ p.cmd = .rdx ∨ p.cmd = .upg) then remoteArrive s (toAgent s p)
     else sendOut s p)
  else send s { answer s p .errRsp with src := p.dst }

end Sys2Proof.Machine
end

