-- ==== Sys2Proof/Machine/Coh.lean ====
section
/-! DEFINITION. The messages of the coherence protocol as commands (R283 to R303): each takes effect where it arrives. A request that is
not in flight is issued by its requester where its state lets it (log entry 23); an answer or snoop acts only when it is in flight. -/
namespace Sys2Proof.Machine

open Sys2Proof

/-! ### Requests -/

/-- Whether a packet in flight is command c of holder h for a line, on its way to a home. -/
def isReq (c : Cmd) (h line : Nat) (p : Packet) : Bool :=
  p.cmd == c && p.holder == h && pLine p == line && (p.dst == raStop || (decide (p.dst.die < 12) && decide (20 ≤ p.dst.stop))) &&
  !(p.src == raStop && p.at_ == some raStop && p.dst == raStop)

/-- The states a holder's line must be in for it to issue a request of its own (R288). -/
def mayIssue (c : Cmd) (st : HState) : Bool :=
  match c with
  | .rds => st == .i
  | .rdx => st == .i
  | .upg => st == .s || st == .f || st == .o
  | _ => false

/-- The way the hub I/O cache gives a new line, by the rule of R254 over its enabled ways: a victim is written back first, as an
eviction. None when no way is enabled or the victim's line is in a transaction. -/
def hioPlace (s : State) (line : Nat) : Option State :=
  let off := rgF s .hioway 0 15 0
  let c := (List.range 16).filter (fun w => !(off.testBit w) && !((tget [] 12 s.walks).contains (.wayRetire 0 w)) &&
    tget none 12 s.walkRun != some (.wayRetire 0 w))
  if c.isEmpty then none
  else
    let set := s.lines.filter (fun p => p.1 / 2 ^ 46 == 0xF0 && hioSet (p.1 % 2 ^ 46) == hioSet line && p.2.st != .i)
    let (w, x) := chooseWay c (set.map (fun p => hioWay s (p.1 % 2 ^ 46))) s.hioLfsr
    let s := { s with hioLfsr := x, hioWays := tset 0 line w s.hioWays }
    match set.find? (fun p => hioWay s (p.1 % 2 ^ 46) == w) with
    | none => some s
    | some (k, y) =>
      if !(validSt y.st) then none
      else
        let (p, s) := evictReq s 0xF0 (k % 2 ^ 46)
        some (runReq s p {})

/-- Whether the prefetcher of core h may read a line: in a page a demand access of the core has translated in the current world (R219),
and no request leaves for the remote agent while its domain is not in RUN (R154, R332). -/
def mayPrefetch (s : State) (h line : Nat) (a : ReqAttr) : Bool :=
  a.world == accWorld s h && (getCore s h).pages.contains (a.world, line / 64, a.keyid.toNat) &&
  (isLocalMem s (line * 64) || domState s 0x1AB == 0)

/-- RDS, RDX or UPG of holder h arrives at the line's home; a core's RDS that is not in flight is a prefetch. -/
def holderRequest (s : State) (c : Cmd) (h line : Nat) (a : ReqAttr) (f : Findings) : State :=
  match takePacket (isReq c h line) s with
  | some (p, s) => launch s p f
  | none =>
    let at_ : Attr := ⟨a.world, if h < 240 then corePart s h else a.partid.toNat, a.keyid.toNat⟩
    if h ≥ 0xF8 then
      if h < 0xFC ∧ h ≠ 0xF8 + s.pkg ∧ s.admitted.contains (h - 0xF8) ∧ isLocalMem s (line * 64) then
        let (tx, s) := newTxid s
        homeReach s (holderReq s h line c at_ tx) f
      else s
    else if (h < 240 ∨ (h = 0xF0 ∧ domState s 0x1AA = 0)) ∧ mayIssue c (hline s h line).st ∧ !((hline s h line).err) ∧
        (isLocalMem s (line * 64) ∨ isRemoteMem s (line * 64)) ∧ (c = .rds → h < 240 → mayPrefetch s h line a) then
      match (if c = .upg then some s else if h = 0xF0 then hioPlace s line else some (l2Room s h line)) with
      | none => s
      | some s =>
        if c ≠ .upg ∧ l2Full s h line then s else
        let (p, s) := issueReq s h line c at_
        launch s p f
    else s

/-- RDS. -/
def execRds (h : HolderId) (line : LineNo) (a : ReqAttr) (f : Findings) (s : State) : Host.Outcome State Fault Refusal :=
  ok (holderRequest s .rds h.toNat line.toNat a f)
/-- RDX. -/
def execRdx (h : HolderId) (line : LineNo) (a : ReqAttr) (f : Findings) (s : State) : Host.Outcome State Fault Refusal :=
  ok (holderRequest s .rdx h.toNat line.toNat a f)
/-- UPG. -/
def execUpg (h : HolderId) (line : LineNo) (a : ReqAttr) (f : Findings) (s : State) : Host.Outcome State Fault Refusal :=
  ok (holderRequest s .upg h.toNat line.toNat a f)

/-- A PUT of holder h arrives at the line's home; one that is not in flight is the eviction of a line in the PUT's state, never of
a reserved granule (R119, R288). -/
def holderPut (s : State) (c : Cmd) (h line : Nat) (e : ArrErr) : State :=
  match takePacket (isReq c h line) s with
  | some (p, s) => launch s p {}
  | none =>
    let x := hline s h line
    if (h < 240 ∨ h = 0xF0) ∧ validSt x.st ∧ putCmd x.st = c ∧ !(reservedLine s h line) then
      let s := arrFound s h line e false
      let (p, s) := evictReq s h line
      launch s p {}
    else s

/-- PUTS. -/
def execPuts (h : HolderId) (line : LineNo) (s : State) : Host.Outcome State Fault Refusal :=
  ok (holderPut s .puts h.toNat line.toNat .none_)
/-- PUTE. -/
def execPute (h : HolderId) (line : LineNo) (s : State) : Host.Outcome State Fault Refusal :=
  ok (holderPut s .pute h.toNat line.toNat .none_)
/-- PUTF. -/
def execPutf (h : HolderId) (line : LineNo) (s : State) : Host.Outcome State Fault Refusal :=
  ok (holderPut s .putf h.toNat line.toNat .none_)
/-- PUTM. -/
def execPutm (h : HolderId) (line : LineNo) (e : ArrErr) (s : State) : Host.Outcome State Fault Refusal :=
  ok (holderPut s .putm h.toNat line.toNat e)
/-- PUTO. -/
def execPuto (h : HolderId) (line : LineNo) (e : ArrErr) (s : State) : Host.Outcome State Fault Refusal :=
  ok (holderPut s .puto h.toNat line.toNat e)

/-- A request of an agent without cache arrives at the line's home (R218, R283): the one in flight of that stop, or m. -/
def agentRequest (s : State) (m : Packet) (f : Findings) : State :=
  match takePacket (fun p => p.cmd == m.cmd && (p.src == m.src || p.src == raStop) && pLine p == pLine m && decide (p.dst.die < 12)) s with
  | some (p, s) => homeReach s p f
  | none =>
    let (tx, s) := newTxid s
    let m := { m with txid := tx, dst := lineStop s (pLine m) }
    let s := addOutst s { stop := m.src, txid := tx, cmd := m.cmd, addr := m.addr, since := now s }
    launch s m f

/-- A request packet without its transaction: RDC and WRC of the hub's I/O agents and engines go in class B (R313). -/
def agentPacket (c : Cmd) (src : StopId) (addr : Nat) (a : ReqAttr) : Packet :=
  let io := src.die == 12 && ((decide (12 ≤ src.stop) && decide (src.stop < 17)) || decide (23 ≤ src.stop))
  { cmd := c, src := src, dst := src, cls := if io && (c == .rdc || c == .wrc) then .b else .q, world := a.world, partid := a.partid.toNat, keyid := a.keyid.toNat, addr := addr,
    holder := 0xFE }

/-- FAR (R294). -/
def execFar (c : CoreId) (q : FarOp) (a : ReqAttr) (f : Findings) (s : State) : Host.Outcome State Fault Refusal :=
  ok (agentRequest s { agentPacket .far (coreStop c.val) q.pa.toNat a with
    holder := if c.val = mpCore then 0xFE else c.val, aop := q.aop.toNat, size := if q.sz = 3 then 8 else 4,
    opnd := q.opnd, cmp := q.cmp } f)
/-- RDC. -/
def execRdc (src : StopId) (line : LineNo) (a : ReqAttr) (f : Findings) (s : State) : Host.Outcome State Fault Refusal :=
  ok (agentRequest s (agentPacket .rdc src (line.toNat * 64) a) f)
/-- WRC. -/
def execWrc (src : StopId) (line : LineNo) (mask : BitVec 64) (data : LineData) (a : ReqAttr) (f : Findings) (s : State) :
    Host.Outcome State Fault Refusal :=
  ok (agentRequest s { agentPacket .wrc src (line.toNat * 64) a with mask := mask.toNat, data := data } f)
/-- CMO of kind CLN. -/
def execCmoCln (src : StopId) (line : LineNo) (a : ReqAttr) (f : Findings) (s : State) : Host.Outcome State Fault Refusal :=
  ok (agentRequest s (agentPacket .cmoCln src (line.toNat * 64) a) f)
/-- CMO of kind FLS. -/
def execCmoFls (src : StopId) (line : LineNo) (a : ReqAttr) (f : Findings) (s : State) : Host.Outcome State Fault Refusal :=
  ok (agentRequest s (agentPacket .cmoFls src (line.toNat * 64) a) f)
/-- CMO of kind INV. -/
def execCmoInv (src : StopId) (line : LineNo) (a : ReqAttr) (f : Findings) (s : State) : Host.Outcome State Fault Refusal :=
  ok (agentRequest s (agentPacket .cmoInv src (line.toNat * 64) a) f)
/-- CAS64 of a core's walker (R203). -/
def execCas64 (c : CoreId) (pa : PhysAddr) (expect new : Word) (a : ReqAttr) (f : Findings) (s : State) :
    Host.Outcome State Fault Refusal :=
  ok (agentRequest s { agentPacket .cas64 (coreStop c.val) pa.toNat a with holder := c.val, opnd := new, cmp := expect } f)

/-! ### Snoops, data and completions at holders -/

/-- A message c for holder h about a line, in flight. -/
def isFor (c : Cmd) (h line : Nat) (p : Packet) : Bool := p.cmd == c && p.holder == h && pLine p == line

/-- A message in flight is delivered. -/
def deliverMsg (s : State) (c : Cmd) (h line : Nat) : State :=
  match takePacket (fun p => isFor c h line p && !(stopHeld s p.dst) && !(outbound s p)) s with
  | some (p, s) => if h = ownPkg s then remoteDeliver s p else deliver s p
  | none => s

/-- A snoop in flight reaches its holder, whose arrays are read (R569). -/
def deliverSnoop (s : State) (c : Cmd) (h line : Nat) (e : ArrErr) : State :=
  match takePacket (fun p => isFor c h line p && !(stopHeld s p.dst) && !(outbound s p)) s with
  | some (p, s) => if h = ownPkg s then remoteDeliver s p else deliver (arrFound s h line e false) p
  | none => s

/-- After a message, a barrier of a core that waited for its stores may complete. -/
def afterMsg (s : State) (h : Nat) : State := if h < 240 then enterWaitst (tryBar s h) h else s

/-- FWD_S. -/
def execFwdS (h : HolderId) (line : LineNo) (e : ArrErr) (s : State) : Host.Outcome State Fault Refusal :=
  ok (deliverSnoop s .fwdS h.toNat line.toNat e)
/-- FWD_X. -/
def execFwdX (h : HolderId) (line : LineNo) (e : ArrErr) (s : State) : Host.Outcome State Fault Refusal :=
  ok (deliverSnoop s .fwdX h.toNat line.toNat e)
/-- INV. -/
def execInv (h : HolderId) (line : LineNo) (s : State) : Host.Outcome State Fault Refusal :=
  ok (deliverMsg s .inv h.toNat line.toNat)
/-- RCL_C. -/
def execRclC (h : HolderId) (line : LineNo) (e : ArrErr) (s : State) : Host.Outcome State Fault Refusal :=
  ok (deliverSnoop s .rclC h.toNat line.toNat e)
/-- RCL_I. -/
def execRclI (h : HolderId) (line : LineNo) (e : ArrErr) (s : State) : Host.Outcome State Fault Refusal :=
  ok (deliverSnoop s .rclI h.toNat line.toNat e)
/-- DATA_S. -/
def execDataS (h : HolderId) (line : LineNo) (s : State) : Host.Outcome State Fault Refusal :=
  ok (afterMsg (deliverMsg s .dataS h.toNat line.toNat) h.toNat)
/-- DATA_F. -/
def execDataF (h : HolderId) (line : LineNo) (s : State) : Host.Outcome State Fault Refusal :=
  ok (afterMsg (deliverMsg s .dataF h.toNat line.toNat) h.toNat)
/-- DATA_E. -/
def execDataE (h : HolderId) (line : LineNo) (s : State) : Host.Outcome State Fault Refusal :=
  ok (afterMsg (deliverMsg s .dataE h.toNat line.toNat) h.toNat)
/-- DATA_M. -/
def execDataM (h : HolderId) (line : LineNo) (s : State) : Host.Outcome State Fault Refusal :=
  ok (afterMsg (deliverMsg s .dataM h.toNat line.toNat) h.toNat)
/-- COMP. -/
def execComp (h : HolderId) (line : LineNo) (s : State) : Host.Outcome State Fault Refusal :=
  ok (afterMsg (deliverMsg s .comp h.toNat line.toNat) h.toNat)
/-- WB_ACK. -/
def execWbAck (h : HolderId) (line : LineNo) (s : State) : Host.Outcome State Fault Refusal :=
  ok (afterMsg (deliverMsg s .wbAck h.toNat line.toNat) h.toNat)
/-- WB_STALE. -/
def execWbStale (h : HolderId) (line : LineNo) (s : State) : Host.Outcome State Fault Refusal :=
  ok (afterMsg (deliverMsg s .wbStale h.toNat line.toNat) h.toNat)

/-! ### Answers at homes -/

/-- FWD_DONE. -/
def execFwdDone (h : HolderId) (line : LineNo) (s : State) : Host.Outcome State Fault Refusal :=
  ok (deliverMsg s .fwdDone h.toNat line.toNat)
/-- INV_ACK. -/
def execInvAck (h : HolderId) (line : LineNo) (s : State) : Host.Outcome State Fault Refusal :=
  ok (deliverMsg s .invAck h.toNat line.toNat)
/-- RCL_ACK. -/
def execRclAck (h : HolderId) (line : LineNo) (s : State) : Host.Outcome State Fault Refusal :=
  ok (deliverMsg s .rclAck h.toNat line.toNat)

/-- The timer of a snoop to holder h about a line expires, if its time has come (R299, R300): at its home, or for a line of another
package at the remote agent (R307). -/
def homeTimeoutIf (s : State) (h line : Nat) : State :=
  if !(isLocalMem s (line * 64)) then agentTimeoutIf s h line else
  match busyOf s line with
  | none => s
  | some b =>
    let t := tget 0 h b.timers
    if t ≠ 0 ∧ now s + 1 ≥ t + htimeout s (lineLoc s line).home then homeTimeoutAt s line h else s

/-- HOME_TIMEOUT (R300). -/
def execHomeTimeout (h : HolderId) (line : LineNo) (s : State) : Host.Outcome State Fault Refusal :=
  ok (homeTimeoutIf s h.toNat line.toNat)

/-- The fence bit of holder h at a die: a home's HFENCE, or the hub's (R301). -/
def setFence (s : State) (die h : Nat) (b : Bool) : State :=
  if die < 12 then setRgF s .hfence (die * 4 + h / 64) (h % 64) (h % 64) b.toNat
  else setRgF s .hubHfence (h / 64) (h % 64) (h % 64) b.toNat

/-! ### Answers at agents -/

/-- FAR_RSP ends an atomic on a posting record (R531), at a stop among those that f allows. -/
def farRspHw (s : State) (f : StopId → Bool) (line : Nat) : State :=
  match takePacket (fun p => p.cmd == .farRsp && f p.dst && pLine p == line && (hwOf s p.dst p.txid).isSome) s with
  | none => s
  | some (p, s) =>
    let s := delOutst s p.dst p.txid
    match hwOf s p.dst p.txid with
    | none => s
    | some o => hwArrive s o (if p.poison then none else some (BitVec.ofNat 64 (p.data.toNat % 2 ^ 64)))

/-- FAR_RSP reaches core c (R294, R296, R531). -/
def farRspArrive (s : State) (c line : Nat) : State :=
  match (getCore s c).acc with
  | none => farRspHw s (· == coreStop c) line
  | some a =>
    match takePacket (fun p => p.cmd == .farRsp && p.dst == coreStop c && p.txid == a.txid && pLine p == line) s with
    | none => farRspHw s (· == coreStop c) line
    | some (p, s) =>
      let s := delOutst s (coreStop c) p.txid
      let s := setCore s c { getCore s c with acc := none }
      let r := finishFar s c a.va a.pa a.rt a.pred a.kind p
      endBody r.2 c r.1

/-- Whether a transaction is that of a hub agent's request which waits. -/
def isHub (s : State) (src : StopId) (tx : Nat) : Bool := s.hubTx.any (fun x => x.req.src == src && x.txid == some tx)

/-- The answer to a hub agent's request that waits (R220): the line, or an error. -/
def hubArrive (s : State) (src : StopId) (tx : Nat) (d : Option LineData) : State :=
  { s with hubTx := s.hubTx.map (fun x => if x.req.src == src && x.txid == some tx then { x with ans := some d } else x) }

/-- FAR_RSP reaches a hub agent that waits for it (R401; given with the management processor's number, log entry 25). -/
def farRspHub (s : State) (line : Nat) : State :=
  match takePacket (fun p => p.cmd == .farRsp && pLine p == line && isHub s p.dst p.txid) s with
  | none => farRspHw s (fun st => st == ⟨12, 18⟩) line
  | some (p, s) => hubArrive (delOutst s p.dst p.txid) p.dst p.txid (if p.poison then none else some p.data)

/-- FAR_RSP. -/
def execFarRsp (c : CoreId) (line : LineNo) (s : State) : Host.Outcome State Fault Refusal :=
  ok (if c.val = mpCore ∧ (getCore s mpCore).acc.isNone then farRspHub s line.toNat else farRspArrive s c.val line.toNat)

/-- The core at a stop, if one is there. -/
def coreAt (st : StopId) : Option Nat := let c := coreOfStop st; if c ≤ mpCore then some c else none

/-- A core's DEV load or element gets its data (R98, R240, R595). -/
def devDone (s : State) (c : Nat) (a : PendAcc) (p : Packet) : State :=
  let s := setCore s c { getCore s c with acc := none }
  if p.poison then
    let (e, s) := busError s c a.va a.pa false true
    raise s c e
  else
    let v := if a.mem then lineGet p.data (a.pa % 64) a.size else p.data.toNat % 2 ^ (8 * a.size)
    match a.kind with
    | .devElem => setCore s c { getCore s c with devGot := (getCore s c).devGot ++ [(devKey a.pa a.rt, v)] }
    | _ =>
      let s := if a.half then { s with mpRead := some (a.pa, BitVec.ofNat 64 p.data.toNat) } else s
      complete (finishLoad s c ⟨a.cls, a.rt, a.base⟩ v) c (nextPc s c)

/-- A transaction that ended by its requester's timeout (R576): a late answer matches no transaction and is dropped. -/
def timedOut (s : State) (src : StopId) (tx : Nat) : Bool := s.quarantine.any (fun o => o.stop == src && o.txid == tx)

/-- The half access of the management processor to another package's window ends (R29, R595): the word read, or none for a bus error; a
write's word is not used. -/
def winArrive (s : State) (pa : Nat) (rd : Bool) (v : Option Word) : State :=
  let s := { s with mpRead := if rd then v.map (fun v => (pa, v)) else s.mpRead }
  { s with mp := { s.mp with winTx := none, winAns := v.map (fun v => if rd then BitVec.ofNat 64 (fld v 31 0) else 0) } }

/-- Whether an answer is that of the management processor's half access under way. -/
def isWin (s : State) (src : StopId) (tx : Nat) : Option Nat :=
  match s.mp.winTx with
  | some (pa, t) => if src = coreStop mpCore ∧ t = tx then some pa else none
  | none => none

/-- Whether a transaction is one the oldest instruction of core c has asked for. -/
def askOf (k : Core) (tx : Nat) : Option Ask := k.asked.find? (fun q => q.txid == tx)

/-- RD_RSP for transaction tx reaches stop src. -/
def rdRspArrive (s : State) (src : StopId) (tx : Nat) : State :=
  match takePacket (fun p => p.cmd == .rdRsp && p.dst == src && p.txid == tx) s with
  | none => s
  | some (p, s) =>
    let late := timedOut s src tx
    let s := delOutst s src tx
    if isHub s src tx then hubArrive s src tx (if p.poison then none else some p.data)
    else match coreAt src with
    | none => s
    | some c =>
      let k := getCore s c
      match isWin s src tx with
      | some pa => winArrive s pa true (if p.poison then none else some (p.data.extractLsb' 0 64))
      | none =>
        if k.inReset || late then s
        else match k.acc with
          | some a => if a.txid = tx then devDone s c a p else s
          | none => if (askOf k tx).isSome then addFill s c { line := pLine p, data := p.data, poison := p.poison } else s

/-- RD_RSP. -/
def execRdRsp (src : StopId) (txid : BitVec 16) (s : State) : Host.Outcome State Fault Refusal := ok (rdRspArrive s src txid.toNat)

/-- A store or maintenance of core c under transaction tx ends (R125, R164, R239). -/
def writeDone (s : State) (c tx : Nat) (bad : Bool) : State :=
  let k := getCore s c
  match (List.range k.sb.length).find? (fun i => match k.sb[i]? with
      | some e => e.sent && e.txid == tx && (e.dev || e.nc)
      | none => false) with
  | some i => if bad && !k.inReset then sbFail s c i else sbRemove s c i
  | none =>
    setCore s c { k with maint := k.maint.map (fun y => if y.txid = tx then { y with st := if bad then .error else .ok } else y) }

/-- WR_CMP for transaction tx reaches stop src (R221). -/
def wrCmpArrive (s : State) (src : StopId) (tx : Nat) : State :=
  match takePacket (fun p => p.cmd == .wrCmp && p.dst == src && p.txid == tx) s with
  | none => s
  | some (p, s) =>
    let late := timedOut s src tx
    let s := delOutst s src tx
    let s := match s.rangeTx.find? (fun t => src == (⟨12, 21⟩ : StopId) && t.2.2 == tx) with
      | some (u, _) => if p.dirty then incRgF s .rmstat u 63 32 else s
      | none => s
    if isHub s src tx then hubArrive s src tx (if p.poison then none else some 0)
    else match coreAt src with
    | none => s
    | some c =>
      if late then s
      else match isWin s src tx, askOf (getCore s c) tx with
        | some pa, _ => winArrive s pa false (some 0)
        | none, some q => (if q.cas then
            setCore (dropFill s c (pLine p)) c { getCore (dropFill s c (pLine p)) c with asked := (getCore s c).asked.erase q } else s)
        | none, none => enterWaitst (writeDone s c tx p.poison) c

/-- WR_CMP. -/
def execWrCmp (src : StopId) (txid : BitVec 16) (s : State) : Host.Outcome State Fault Refusal := ok (wrCmpArrive s src txid.toNat)

/-- An error completion reaches core c for transaction tx (R239, R240, R496, R574). -/
def errAtCore (s : State) (c tx : Nat) (p : Packet) : State :=
  let k := getCore s c
  if transSt (hline s c (pLine p)).st && (hline s c (pLine p)).txid == tx then holderErr s { p with holder := c }
  else if k.inReset then writeDone s c tx true
  else match k.acc with
    | some a =>
      if a.txid = tx then
        let s := setCore s c { k with acc := none }
        let (e, s) := busError s c a.va a.pa (a.kind == .farAtomic || a.kind == .farScond) p.poison
        raise s c e
      else writeDone s c tx true
    | none =>
      match askOf k tx with
      | some q => addFill s c { line := pLine p, data := 0, poison := p.poison, err := true, cas := q.cas }
      | none => writeDone s c tx true

/-- ERR_RSP for transaction tx reaches stop src (R320, R574): at a home it stands for the expiry of a snoop's timer (R299). -/
def errRspArrive (s : State) (src : StopId) (tx : Nat) : State :=
  match takePacket (fun p => p.cmd == .errRsp && p.dst == src && p.txid == tx) s with
  | none => s
  | some (p, s) =>
    let late := timedOut s src tx
    let s := delOutst s src tx
    if isHub s src tx then hubArrive s src tx none
    else if late then s
    else if let some o := hwOf s src tx then hwArrive s o none
    else if src.die < 12 ∧ 20 ≤ src.stop ∧ src.stop < 28 then
      match busyOf s (pLine p) with
      | some b => if b.cur.txid = tx then homeTimeoutAt s (pLine p) p.holder else s
      | none => s
    else match isWin s src tx, coreAt src with
      | some pa, _ => winArrive s pa false none
      | none, some c => enterWaitst (tryBar (errAtCore s c tx p) c) c
      | none, none =>
        if src = raStop ∧ p.holder = ownPkg s then remoteAnswer s p
        else if src = raStop then agentSilent s (pLine p) p.holder else if p.holder = 0xF0 then holderErr s p else s

/-- ERR_RSP. -/
def execErrRsp (src : StopId) (txid : BitVec 16) (s : State) : Host.Outcome State Fault Refusal := ok (errRspArrive s src txid.toNat)

end Sys2Proof.Machine
end

