-- ==== Sys2Proof/Machine/Fabric.lean ====
section
/-! DEFINITION. The runner fabric (chapter 09): routing (R315 to R319), arbitration (R321 to R325), stops being reconfigured (R333, R334)
and rim segments being fenced (R335 to R337). -/
namespace Sys2Proof.Machine

open Sys2Proof

/-! ### Routing -/

/-- Hops of the rim from stack a to b: clockwise, or counter-clockwise (R316). -/
def rimHops (a b : Nat) (ccw : Bool) : Nat := if ccw then (a + 12 - b) % 12 else (b + 12 - a) % 12

/-- DIR of R316: true is CCW. -/
def rimDir (a b : Nat) : Bool :=
  let cw := rimHops a b false
  let ccw := rimHops a b true
  if cw = 6 then a % 2 == 1 else decide (ccw < cw)

/-- Whether the rim path from a to b in a direction crosses segment g, which joins stacks g and g + 1. -/
def crosses (a b : Nat) (ccw : Bool) (g : Nat) : Bool :=
  if ccw then decide ((a + 11 + 12 - g) % 12 < rimHops a b true) else decide ((g + 12 - a) % 12 < rimHops a b false)

/-- The state of a rim segment: 0 ACTIVE, 1 FENCING, 2 DRAINED, 3 FENCED, 4 REJOINING (RIMSTAT). -/
def segState (s : State) (g : Nat) : Nat := tget 0 g s.seg

/-- Whether a rim path avoids every segment whose new routes apply (R335 step 5): not before it is DRAINED. -/
def pathOpen (s : State) (a b : Nat) (ccw : Bool) : Bool :=
  (List.range 12).all (fun g => !(crosses a b ccw g) || segState s g == 0 || segState s g == 1)

/-- The route a packet takes from stack a to stack b (R316, R335 step 5): its direction, and whether it takes the spoke detour. -/
def pickRoute (s : State) (a b : Nat) : Bool × Bool :=
  let d := rimDir a b
  if pathOpen s a b d then (d, false)
  else if pathOpen s a b (!d) && decide (rimHops a b (!d) ≤ 6) then (!d, false)
  else (d, true)

/-- Whether a packet at stop `cur` is on the rim: it has come to stop 28 over a rim link. -/
def onRim (p : Packet) (cur : StopId) : Bool := cur.stop == 28 && decide (cur.die < 12) && (p.turned || p.src.die != cur.die)

/-- The rim segment a packet crosses next from stack d. -/
def nextSeg (d : Nat) (ccw : Bool) : Nat := if ccw then (d + 11) % 12 else d

/-- A packet at a stop with its route set (R316, R335, R336): on the rim it turns round before a segment being fenced or fenced, once; the
second such segment sends it over the spokes; off the rim it takes the present route. Also whether it was turned here. -/
def routed (s : State) (p : Packet) (cur : StopId) : Packet × Bool :=
  if cur.die = p.dst.die ∨ 12 ≤ cur.die ∨ 12 ≤ p.dst.die ∨ p.detour then (p, false)
  else if onRim p cur then
    if segState s (nextSeg cur.die p.dir) = 0 then (p, false)
    else if p.turned then ({ p with detour := true }, false)
    else ({ p with dir := !p.dir, turned := true }, true)
  else
    let r := pickRoute s cur.die p.dst.die
    ({ p with dir := r.1, detour := r.2 }, false)

/-- Whether a new packet is held at its rim stop (R335 step 2, R337): its route crosses a segment that is being fenced or rejoined and
the stop has had the broadcast, or lies at the segment itself. -/
def rimHeld (s : State) (p : Packet) (cur : StopId) : Bool :=
  decide (cur.die < 12) && decide (p.dst.die < 12) && cur.die != p.dst.die && !(onRim p cur) &&
  (List.range 12).any (fun g =>
    (tget false (g * 12 + cur.die) s.rimHold || cur.die == g || cur.die == (g + 1) % 12) &&
    (segState s g == 1 || segState s g == 2 || segState s g == 4) &&
    crosses cur.die p.dst.die (rimDir cur.die p.dst.die) g)

/-! ### Sprue ends seen from the rings -/

/-- The link end of stack end or hub end numbers: stack s end 0 (rim s), 1 (rim s + 11), 2 (spoke), hub end of spoke s. -/
def txEnd (cur next : StopId) : Option Nat :=
  if cur.die = next.die then none
  else if cur.die = 12 then some (36 + next.die)
  else if next.die = 12 then some (3 * cur.die + 2)
  else if next.die = (cur.die + 1) % 12 then some (3 * cur.die)
  else some (3 * cur.die + 1)

/-- LINKSTAT of an end. -/
def lsReg (n : Nat) : RegName × Nat := if n < 36 then (.linkstat, n) else (.hubLinkstat, n - 36)
/-- LINKCTL of an end. -/
def lcReg (n : Nat) : RegName × Nat := if n < 36 then (.linkctl, n) else (.hubLinkctl, n - 36)
/-- LINKCNT of an end. -/
def lnReg (n : Nat) : RegName × Nat := if n < 36 then (.linkcnt, n) else (.hubLinkcnt, n - 36)

/-- A LINKSTAT field of an end. -/
def lsF (s : State) (n hi lo : Nat) : Nat := rgF s (lsReg n).1 (lsReg n).2 hi lo

/-- A LINKSTAT field of an end set. -/
def setLsF (s : State) (n hi lo x : Nat) : State := setRgF s (lsReg n).1 (lsReg n).2 hi lo x

/-- LINKSTAT.STATE (R346). -/
def lsState (s : State) (n : Nat) : Nat := lsF s n 3 0

/-- Lanes on the link a hop crosses (R318): 2 on a local ring, 4 on the rim, the hub ring and the links. -/
def lanesOf (cur next : StopId) : Nat := if cur.die = next.die ∧ cur.die < 12 then 2 else 4

/-! ### Arbitration (R324) -/

/-- Packets of a class a stop input reserves room for (R321). -/
def bufCap (c : PClass) : Nat := if c = .g then 2 else 8

/-- The packets of a class that fill the buffer of one input of a stop (R321): the input from stop `from_`. A request that waits at its
home for a busy entry or a directory way keeps its credit (R280). -/
def occupancy (s : State) (st from_ : StopId) (c : PClass) : Nat :=
  ((s.net ++ s.dirWait).filter (fun p => p.at_ == some st && p.inp == some from_ && p.cls == c)).length

/-- The units of a class in the bridge of a link end (R329). -/
def bridgeUnits (e : LinkEnd) (c : PClass) : Nat := ((e.txq.filter (fun p => p.cls == c)).map (fun p => pktLen p + 1)).sum

/-- Whether the ingress of a packet's destination withholds credits (R332): HELD, for every class but G. -/
def ingressHeld (s : State) (p : Packet) : Bool := p.cls != .g && (stopDom p.dst).isSome && ingress s p.dst == 3

/-- Whether a credit for the packet's class is available at the next stop (R321, R322, R332, R333): a stop takes in every H packet for
itself, but one whose ingress is HELD; the bridge of a link end holds 4 units of a class (R329). -/
def hasCredit (s : State) (p : Packet) (cur next : StopId) : Bool :=
  match txEnd cur next with
  | some n => decide (bridgeUnits (linkEnd s n) p.cls + pktLen p + 1 ≤ 4)
  | none =>
    !(next == p.dst && (stopHeld s next || ingressHeld s p)) &&
    ((p.cls == .h && next == p.dst) || decide (occupancy s next cur p.cls < bufCap p.cls))

/-- BIAS of a class at a die (R324). -/
def biasOf (s : State) (die : Nat) (c : PClass) : Nat :=
  let r : RegName × Nat := if die < 12 then (.fabctl, die) else (.hubFabctl, 0)
  match c with
  | .h => rgF s r.1 r.2 10 8
  | .q => rgF s r.1 r.2 6 4
  | .b => rgF s r.1 r.2 2 0
  | .g => 0

/-- The input of the arbiter a packet comes from: 1 the stop's own injection, 0 upstream. -/
def inputOf (p : Packet) : Nat := if p.at_.isNone then 1 else 0

/-- Priority of classes within one input at equal score (R324 step 2). -/
def clsRank : PClass → Nat
  | .g => 3
  | .h => 2
  | .q => 1
  | .b => 0

/-- A packet's score: G packets above every other by a margin no score reaches (R324). -/
def scoreOf (s : State) (p : Packet) (die : Nat) : Nat := if p.cls = .g then 1000 + p.urg else p.urg + biasOf s die p.cls

/-- Whether arbiter candidate a beats b, with the pointer at input ptr (R324). -/
def beats (s : State) (die ptr : Nat) (a b : Packet) : Bool :=
  let sa := scoreOf s a die
  let sb := scoreOf s b die
  if sa ≠ sb then decide (sa > sb)
  else if inputOf a ≠ inputOf b then inputOf a == ptr
  else decide (clsRank a.cls > clsRank b.cls)

/-- Whether no earlier packet of the same OTAG and destination waits at the same place (R318). -/
def isFirst (s : State) (p : Packet) : Bool :=
  !(s.net.any (fun q => sentBefore q p && whereIs q == whereIs p))

/-- The packets eligible for a lane from `cur` to `next`, with their routes set. -/
def eligible (s : State) (cur next : StopId) (lane : Nat) : List (Packet × Packet × Bool) :=
  s.net.filterMap (fun p =>
    if whereIs p == cur && !(p.at_.isNone && (stopState s cur == 2 || stopState s cur == 4)) then
      let r := routed s p cur
      if nextHop r.1 cur == some next && otagHash s.pkg p % lanesOf cur next == lane && !(rimHeld s p cur) &&
          hasCredit s p cur next && isFirst s p then
        some (p, r.1, r.2)
      else none
    else none)

/-- Whether every stop from `cur` on to the packet's destination is FENCED. -/
def fencedOn (s : State) (p : Packet) : Nat → StopId → Bool
  | 0, _ => false
  | fuel + 1, st =>
    stopDead s st && (match nextHop p st with
      | none => true
      | some n => fencedOn s p fuel n)

/-- A packet reaches the next stop, at the input from `cur`: it waits there; at its destination's stop it meets the ingress of the domain
behind (R327, R331, R332). -/
def landAt (s : State) (p : Packet) (cur next : StopId) : State :=
  let p : Packet := { p with at_ := some next, inp := some cur, since := now s }
  if p.dst ≠ next then { s with net := s.net ++ [p] }
  else match meetIngress s p with
    | (true, s) => { s with net := s.net ++ [p] }
    | (false, s) => s

/-- The correctable-error log of a die. -/
def ceLog (die : Nat) : LogId := if die < 12 then .ce die else .hubCe

/-- A packet's units meet the parity check of the stop input or bridge at `st` (R570, R578): a unit resent intact is a recovered error,
RING_PAR; a data unit bad in both copies poisons the packet, and a header unit bad in both drops it, RING_UE (log entry 84). A packet
without data units has none to fail. -/
def parityAt (s : State) (st : StopId) (par : UnitPar) (p : Packet) : Option Packet × State :=
  match par with
  | .intact => (some p, s)
  | .resent => (some p, logErr s (ceLog st.die) 0x0B st.stop 0 0)
  | .dataBad =>
    if pktLen p = 0 then (some p, s)
    else (some { p with poison := true }, logErr s (evLog st.die) 0x16 st.stop 0 p.addr)
  | .headerBad => (none, logErr s (evLog st.die) 0x16 st.stop 0 0)

/-- A packet the arbiter has chosen crosses to the next stop of its route, or to the end of the link it enters. -/
def hopTo (s : State) (cur next : StopId) (p : Packet) : State :=
  if fencedOn s p 64 next then fencedPacket s p
  else match txEnd cur next with
    | some n => setEnd s n { linkEnd s n with txq := (linkEnd s n).txq ++ [{ p with via := 0 }] }
    | none => landAt s { p with via := 0 } cur next

/-- STOP_FORWARD (R324, R570): the arbiter of a lane serves one packet, whose units are checked where the hop ends. -/
def stopForward (s : State) (cur next : StopId) (lane : Nat) (par : UnitPar) : State :=
  let key := (stopKey cur * 1024 + stopKey next) * 4 + lane
  let ptr := tget 0 key s.arbPtr
  match eligible s cur next lane with
  | [] => s
  | c :: cs =>
    let w := cs.foldl (fun w x => if beats s cur.die ptr x.1 w.1 then x else w) c
    let s := { s with net := s.net.erase w.1, arbPtr := tset 0 key ((inputOf w.1 + 1) % 2) s.arbPtr }
    let s := if w.2.2 then incFab s cur.die 31 24 else s
    match parityAt s (if (txEnd cur next).isSome then cur else next) par w.2.1 with
    | (some p, s) => hopTo s cur next p
    | (none, s) => s

/-- STOP_FORWARD (R324, R570). -/
def execStopForward (st next : StopId) (lane : Nat) (par : UnitPar) (s : State) : Host.Outcome State Fault Refusal :=
  ok (stopForward s st next lane par)

/-- A waiting packet ages (R325): URG rises by one for 32 ticks of waiting, up to 15. -/
def urgencyAge (s : State) (i : Nat) : State :=
  match s.net[i]? with
  | none => s
  | some p =>
    if now s ≥ p.since + 32 ∧ p.at_ ≠ some p.dst then
      { s with net := s.net.set i { p with urg := min 15 (p.urg + 1), since := p.since + 32 } }
    else s

/-- URGENCY_AGEING (R325). -/
def execUrgencyAgeing (i : Nat) (s : State) : Host.Outcome State Fault Refusal := ok (urgencyAge s i)

/-- Whether a stop is a class G source (R323). -/
def gSource (st : StopId) : Bool := (decide (st.die < 12) && st.stop == 30) || (st.die == 12 && decide (18 ≤ st.stop) && decide (st.stop ≤ 22))

/-- A G source gains its token for 128 ticks (R323), and injects a packet that waits for one. -/
def tokenGain (s : State) (st : StopId) : State :=
  let t := tget 0 (stopKey st) s.tokenAt
  if !(gSource st) || decide (now s < t + 128) then s
  else
    let s := { s with
      tokenAt := tset 0 (stopKey st) (t + 128) s.tokenAt
      tokens := tset 4 (stopKey st) (min 4 (tokensOf s st + 1)) s.tokens }
    match s.gHeld.find? (fun p => p.src == st) with
    | none => s
    | some p => inject { s with
        gHeld := s.gHeld.erase p
        tokens := tset 4 (stopKey st) (tokensOf s st - 1) s.tokens } p

/-- TOKEN_GAIN (R323). -/
def execTokenGain (st : StopId) (s : State) : Host.Outcome State Fault Refusal := ok (tokenGain s st)

/-- A domain is again in RUN (R332): its ingress opens, and the parked packets come in, in their order of arrival. -/
def ingressReopen (s : State) (st : StopId) : State :=
  match stopDom st with
  | none => s
  | some d =>
    if domState s d = 5 then (if d < 240 then wakeCore (reopenDom s d) d else reopenDom s d) else s

/-- INGRESS_REOPEN (R332). -/
def execIngressReopen (st : StopId) (s : State) : Host.Outcome State Fault Refusal := ok (ingressReopen s st)

/-! ### Stop reconfiguration (R333, R334) -/

/-- The time a stop's window opened. -/
def setStopAt (s : State) (st : StopId) : State := { s with fstopAt := tset 0 (stopKey st) (now s) s.fstopAt }

/-- Packets for a stop that becomes FENCED are dealt with (R320, R334). -/
def flushDead (s : State) (dead : StopId → Bool) : State :=
  let ps := s.net.filter (fun p => dead p.dst)
  ps.foldl fencedPacket { s with net := s.net.filter (fun p => !(dead p.dst)) }

/-- The offset of FSTOPn of a stop. -/
def fstopOff (st : StopId) : Nat := if st.die < 12 then stkOff st.die (0x300100 + st.stop * 8) else 0x70100 + st.stop * 8

/-- Whether a die is that of a stack OWNMAP marks. -/
def ownDie (s : State) (d : Nat) : Bool := decide (d < 12) && ownStk s d

/-- What a stop has held at its sources is sent now, and its timers start (R577). -/
def heldSent (s : State) (st : StopId) : State :=
  { s with outst := s.outst.map (fun o =>
      if s.net.any (fun p => p.src == o.stop && p.txid == o.txid && p.dst == st) then { o with since := now s } else o) }

/-- A write of FSTOPn.STATE (R333): only the management processor's counts, and only a permitted move. -/
def fstopWrite (s : State) (b : By) (st : StopId) (v : Word) : State :=
  let x := fld v 2 0
  let cur := stopState s st
  if b ≠ .mp ∨ 12 < st.die ∨ 32 ≤ st.stop then mpWrite s b (ownDie s st.die) (fstopOff st) s
  else if cur = 0 ∧ x = 1 then setStopAt (setStopState s st 1) st
  else if cur = 0 ∧ x = 4 then flushDead (setStopState s st 4) (fun d => d == st)
  else if cur = 2 ∧ x = 3 then setStopAt (heldSent (setStopState s st 3) st) st
  else s

/-- FSTOP_WRITE (R333). -/
def execFstopWrite (b : By) (st : StopId) (v : Word) (s : State) : Host.Outcome State Fault Refusal := ok (fstopWrite s b st v)

/-- Whether a stop has drained: nothing waits at it, and nothing it owes or has outstanding remains. -/
def drained (s : State) (st : StopId) : Bool :=
  !(s.net.any (fun p => whereIs p == st)) && !(s.outst.any (fun o => o.stop == st))

/-- STOP_DRAINED (R333). -/
def execStopDrained (st : StopId) (s : State) : Host.Outcome State Fault Refusal :=
  ok (if stopState s st = 1 ∧ drained s st then setStopState s st 2 else s)

/-- A stop that has not drained within 20 µs becomes FENCED, and its held requests are answered (R334). -/
def stopDrainTimeout (s : State) (st : StopId) : State :=
  if stopState s st = 1 ∧ now s ≥ tget 0 (stopKey st) s.fstopAt + 20000 then flushDead (setStopState s st 4) (fun d => d == st) else s

/-- STOP_DRAIN_TIMEOUT (R334). -/
def execStopDrainTimeout (st : StopId) (s : State) : Host.Outcome State Fault Refusal := ok (stopDrainTimeout s st)

/-- STOP_REJOINED (R333). -/
def execStopRejoined (st : StopId) (s : State) : Host.Outcome State Fault Refusal :=
  ok (if stopState s st = 3 then setStopState s st 0 else s)

/-! ### Rim segments (R335, R337) -/

/-- A segment's state, shown in the RIMSTATs of the two stacks it joins. -/
def setSeg (s : State) (g x : Nat) : State :=
  setRgF (setRgF { s with seg := tset 0 g x s.seg } .rimstat g 2 0 x) .rimstat ((g + 1) % 12) 2 0 x

/-- The PWR broadcast that tells every rim stop of a segment's change (R335 steps 1 and 2). -/
def segBroadcast (s : State) (g : Nat) : State :=
  sendG s { cmd := .pwr, src := ⟨g, 30⟩, dst := ⟨15, 28⟩, cls := .g, arg := g, holder := 1 }

/-- RIMCTL.FENCE of stack g written with b by the management processor. -/
def rimWrite (s : State) (g : Nat) (b : Bool) : State :=
  let s := setRgF s .rimctl g 0 0 b.toNat
  if b ∧ segState s g = 0 then segBroadcast (setSeg s g 1) g
  else if !b ∧ segState s g = 3 then segBroadcast (setSeg s g 4) g
  else s

/-- RIM_FENCE (R335 step 1). -/
def execRimFence (b : By) (st : StackId) (s : State) : Host.Outcome State Fault Refusal :=
  ok (mpWrite s b (ownStk s st.val) (stkOff st.val 0x300010) (rimWrite s st.val true))

/-- RIM_UNFENCE (R337). -/
def execRimUnfence (b : By) (st : StackId) (s : State) : Host.Outcome State Fault Refusal :=
  ok (mpWrite s b (ownStk s st.val) (stkOff st.val 0x300010) (rimWrite s st.val false))

/-- Whether every rim stop of a stack in service has had the broadcast and holds for segment g. -/
def allHold (s : State) (g : Nat) : Bool := (List.range 12).all (fun d => tget false (g * 12 + d) s.rimHold || tget false d s.fencedStk)

/-- Whether a packet on the rim or in a rim link still moves under the old routes: turned round, or on the detour. -/
def rimBusy (s : State) (rejoin : Bool) : Bool :=
  let old := fun (p : Packet) => if rejoin then p.detour else p.turned && !p.detour
  s.net.any (fun p => p.at_.isSome && (whereIs p).die != p.dst.die && old p) ||
  (List.range 36).any (fun n => (onLink s n).any old)

/-- The rim stops no longer hold for a segment. -/
def releaseHold (s : State) (g : Nat) : State :=
  { s with rimHold := (List.range 12).foldl (fun t d => tset false (g * 12 + d) false t) s.rimHold }

/-- Steps 4 to 6 of R335, and their reverse (R337): DRAINED, then the new routes and the held packets released. -/
def rimDrained (s : State) (g : Nat) : State :=
  if segState s g = 1 ∧ allHold s g ∧ !(rimBusy s false) then setSeg s g 2
  else if segState s g = 2 then
    let s := releaseHold (setSeg s g 3) g
    if rgF s .rimctl g 0 0 = 0 then rimWrite s g false else s
  else if segState s g = 4 ∧ allHold s g ∧ !(rimBusy s true) then
    let s := releaseHold (setSeg s g 0) g
    if rgF s .rimctl g 0 0 = 1 then rimWrite s g true else s
  else s

/-- RIM_DRAINED (R335). -/
def execRimDrained (st : StackId) (s : State) : Host.Outcome State Fault Refusal := ok (rimDrained s st.val)

/-- A PWR packet reaches its stops at a die (R330, R335): the rim stop holds for the segment it names; a domain's state reaches every
stop's copy, which this model reads from DSTATE itself. -/
def pwrArrive (s : State) (die : Nat) : State :=
  match takePacket (fun p => p.cmd == .pwr && p.dst.die == die) s with
  | none => s
  | some (p, s) =>
    let s := gArrive s p
    if p.holder = 1 ∧ die < 12 ∧ p.arg < 12 then { s with rimHold := tset false (p.arg * 12 + die) true s.rimHold } else s

/-- PWR (R330). -/
def execPwr (die : DieId) (s : State) : Host.Outcome State Fault Refusal := ok (pwrArrive s die.val)

/-- The interrupt controller's message of an interrupt (R521, R523): one that has left it arrives at the core it was sent to; else it is
sent now, in class G within the controller's quota and in class Q beyond it (R323). -/
def irqMessage (s : State) (intid : Nat) : State :=
  let isIt := fun (p : Packet) => p.cmd == .irq && p.holder == 0 && p.arg == intid
  match takePacket isIt s with
  | some (p, s) =>
    let s := gArrive s p
    if stopDead s p.dst then fencedPacket s p
    else if (undelivered s intid).map coreStop = some p.dst then deliverIrq s intid else s
  | none =>
    if (s.net ++ s.parked ++ s.gHeld).any isIt then s
    else match undelivered s intid with
      | none => s
      | some t =>
        if (getCore s t).arrived.contains intid then s
        else sendG s { cmd := .irq, src := ⟨12, 18⟩, dst := coreStop t, cls := .g, arg := intid }

/-- IRQ (R521). -/
def execIrq (intid : BitVec 16) (s : State) : Host.Outcome State Fault Refusal := ok (irqMessage s intid.toNat)

end Sys2Proof.Machine
end

