-- ==== Sys2Proof/Machine/Links.lean ====
section
/-! DEFINITION. Sprue links (R338 to R358, R643): DATA units and their retry, credits, training, disputes, resets, and what the
management processor does about a link that cannot carry traffic. -/
namespace Sys2Proof.Machine

open Sys2Proof

/-! ### Ends -/

/-- The stop a link end is joined to. -/
def endStop (n : Nat) : StopId :=
  if n ≥ 36 then ⟨12, n - 36⟩ else if n % 3 = 2 then ⟨n / 3, 29⟩ else ⟨n / 3, 28⟩

/-- The UNIT of a link end in a log (R581). -/
def endUnit (n : Nat) : Nat := if n < 36 then n % 3 else n - 36

/-- The log of a link end. -/
def endLog (n : Nat) : LogId := if n < 36 then .ev (n / 3) else .hubEv

/-- A unit leaves end n for its peer. -/
def toPeer (s : State) (n : Nat) (u : WUnit) : State :=
  setEnd s (peerEnd n) { linkEnd s (peerEnd n) with wire := (linkEnd s (peerEnd n)).wire ++ [u] }

/-- The wired source of the link of end n (R517). -/
def linkSrc (n : Nat) : Nat := if n < 36 then 32 * (n / 3) + 8 + n % 3 else 32 * (n - 36) + 10

/-- The training state of an end changes (R346); its link's source tells that it left or reached ACTIVE (R517). -/
def setLsState (s : State) (n x : Nat) : State :=
  let old := lsState s n
  let s := if (old = 5) = (x = 5) then s else raiseSrc s (linkSrc n)
  let e := linkEnd s n
  let s := setEnd s n { e with since := now s, outSince := if old = 5 ∧ x ≠ 5 then now s else e.outSince }
  setLsF s n 3 0 x

/-- A packet handed back to the stop that sent it (R354): on the rim it counts as turned round (R355). -/
def handBack (s : State) (n : Nat) (p : Packet) : State :=
  let st := endStop n
  if st.stop = 28 ∧ st.die < 12 then
    let s := if p.turned then s else incFab s st.die 31 24
    { s with net := s.net ++ [{ p with
        at_ := some st, via := 0, since := now s
        dir := if p.turned then p.dir else !p.dir
        turned := true, detour := p.turned }] }
  else { s with net := s.net ++ [{ p with at_ := some st, via := 0, since := now s }] }

/-- The packets a riser holds units of, oldest first. -/
def riserPackets (e : LinkEnd) : List Packet :=
  ((e.riser.filter (fun u => u.last)).map (·.pkt)) ++ e.txq

/-- An end enters DOWN (R354): counted, logged, its unacknowledged packets handed back. -/
def enterDown (s : State) (n : Nat) : State :=
  let s := setLsF (setLsState s n 7) n 31 30 3
  let s := incRgF s (lnReg n).1 (lnReg n).2 15 0
  let s := logErr s (endLog n) 0x1B (endUnit n) 0 0
  let e := linkEnd s n
  let s := (riserPackets e).foldl (fun s p => handBack s n p) s
  setEnd s n { linkEnd s n with riser := [], txq := [], txIdx := 0 }

/-- An end enters SAFE_TRAIN; from RESET, RETRAIN or DOWN its EPOCH advances (R346). -/
def enterSafe (s : State) (n : Nat) (fresh : Bool) : State :=
  let s := setLsState s n 2
  let s := if fresh then setLsF s n 63 56 ((lsF s n 63 56 + 1) % 256) else s
  setEnd s n { linkEnd s n with tested := false, peerQ := none }

/-- An end leaves ACTIVE for RETRAIN, and goes on to SAFE_TRAIN (R345, R346). -/
def enterRetrain (s : State) (n : Nat) : State :=
  let s := incRgF s (lnReg n).1 (lnReg n).2 31 16
  let s := setEnd (setLsState s n 6) n { linkEnd s n with attempts := 0, tries := [] }
  enterSafe s n true

/-! ### DATA, ACK, NAK (R342, R343, R345) -/

/-- The riser from a sequence number on. -/
def riserFrom (e : LinkEnd) (q : Nat) : List RUnit := e.riser.dropWhile (fun u => u.seq != q)

/-- An end acts on a NAK (R343, R345): it resends from NEXT_RX, and retrains after four resends of a unit that is not acknowledged
between them, or 64 retries in 1 ms. -/
def nakAct (s : State) (n q : Nat) : State :=
  let e := linkEnd s n
  let us := riserFrom e q
  if us.isEmpty ∨ lsState s n ≠ 5 then s
  else
    let s := incRgF s (lnReg n).1 (lnReg n).2 63 32
    let tries := us.foldl (fun t u => tset 0 u.seq (tget 0 u.seq e.tries + 1) t) e.tries
    let w : WayWin := if e.reWin.count = 0 ∨ now s ≥ e.reWin.opened + 1000000 then ⟨1, now s⟩
      else ⟨e.reWin.count + 1, e.reWin.opened⟩
    let s := setEnd s n { e with tries := tries, reWin := w }
    if us.any (fun u => decide (tget 0 u.seq tries ≥ 4)) ∨ w.count ≥ 64 then enterRetrain (setEnd s n { linkEnd s n with reWin := {} }) n
    else us.foldl (fun s u => toPeer s n (.data u)) s

/-- Whether the end holds a credit for the packet's class (R321, R341). -/
def linkCredit (e : LinkEnd) (p : Packet) : Bool :=
  let c := clsCode p.cls
  decide ((tget 0 c e.sent + 256 - tget 0 c e.peerFreed) % 256 < bufCap p.cls)

/-- The packet an end serves next (R321, R322): the one under way, else the oldest of those whose class has a credit, so that no class
waits behind another; and the rest. -/
def nextTx (e : LinkEnd) : Option (Packet × List Packet) :=
  if e.txIdx = 0 then (e.txq.find? (fun p => linkCredit e p)).map (fun p => (p, e.txq.erase p))
  else match e.txq with
    | [] => none
    | p :: ps => some (p, ps)

/-- SPRUE_DATA_SEND (R342): the end sends its next DATA unit and keeps it in the riser; with 256 units unacknowledged, without a packet
or without a credit it sends IDLE. A unit whose parity fails at the bridge is logged and counts as NAKed (R341). -/
def dataSend (s : State) (n : Nat) (parityOk : Bool) : State :=
  let e := linkEnd s n
  match nextTx e with
  | none => s
  | some (p, ps) =>
    if lsState s n ≠ 5 ∨ e.riser.length ≥ 256 then s
    else
      let last := decide (e.txIdx = pktLen p)
      let u : RUnit := { seq := e.txSeq, pkt := p, idx := e.txIdx, last := last }
      let c := clsCode p.cls
      let s := setEnd s n { e with
        riser := e.riser ++ [u]
        txSeq := (e.txSeq + 1) % 512
        txIdx := if last then 0 else e.txIdx + 1
        txq := if last then ps else p :: ps
        sent := if e.txIdx = 0 then tset 0 c ((tget 0 c e.sent + 1) % 256) e.sent else e.sent }
      if parityOk then toPeer s n (.data u)
      else nakAct (logErr s (endLog n) 0x18 (endUnit n) 0 0) n u.seq

/-- SPRUE_DATA_SEND (R342). -/
def execSprueDataSend (n : EndId) (parityOk : Bool) (s : State) : Host.Outcome State Fault Refusal := ok (dataSend s n.val parityOk)

/-- The first DATA unit on the wire towards an end, and the wire without it. -/
def takeData : List WUnit → Option (RUnit × List WUnit)
  | [] => none
  | .data u :: ws => some (u, ws)
  | w :: ws => (takeData ws).map (fun r => (r.1, w :: r.2))

/-- SPRUE_DATA_RECEIVE (R343): a unit that passes its CRC with NEXT_RX is accepted and acknowledged, any other is discarded and asked
for again. `flip` is what the wires changed. -/
def dataReceive (s : State) (n : Nat) (flip : BitVec 280) : State :=
  let e := linkEnd s n
  match takeData e.wire with
  | none => s
  | some (u, ws) =>
    let s := setEnd s n { e with wire := ws }
    if lsState s n ≠ 5 then s
    else if framePasses e.rxNext (frameOf s.pkg u ^^^ flip) then
      let c := clsCode u.pkt.cls
      let s := setEnd s n { linkEnd s n with
        rxNext := (e.rxNext + 1) % 512
        nakAt := none
        taken := if u.last then tset 0 c ((tget 0 c e.taken + 1) % 256) e.taken else e.taken }
      let s := toPeer s n (.ack u.seq)
      if u.last then landAt s { u.pkt with via := n + 1 } (endStop (peerEnd n)) (endStop n) else s
    else if e.nakAt.isNone then
      toPeer (setEnd s n { linkEnd s n with nakAt := some (now s) }) n (.nak e.rxNext)
    else s

/-- SPRUE_DATA_RECEIVE (R343). -/
def execSprueDataReceive (n : EndId) (flip : BitVec 280) (s : State) : Host.Outcome State Fault Refusal :=
  ok (dataReceive s n.val flip)

/-- The first CTRL unit of a kind on the wire towards an end, and the wire without it. -/
def takeCtrl (f : WUnit → Bool) (ws : List WUnit) : Option (WUnit × List WUnit) :=
  match ws.find? f with
  | some w => some (w, ws.erase w)
  | none => none

/-- Whether a unit is an ACK. -/
def isAck : WUnit → Bool
  | .ack _ => true
  | _ => false
/-- Whether a unit is a NAK. -/
def isNak : WUnit → Bool
  | .nak _ => true
  | _ => false
/-- Whether a unit is a CREDIT. -/
def isCredit : WUnit → Bool
  | .credit _ _ _ _ => true
  | _ => false

/-- An intact ACK, NAK or CREDIT acts at end n (R341 to R343). -/
def ctrlAct (s : State) (n : Nat) (w : WUnit) : State :=
  let e := linkEnd s n
  if lsState s n ≠ 5 then s
  else match w with
    | .ack q =>
      (match riserFrom e q with
       | [] => s
       | _ :: us => setEnd s n { e with riser := us, tries := e.tries.filter (fun x => us.any (fun u => u.seq == x.1)) })
    | .nak q => nakAct s n q
    | .credit g h q b => setEnd s n { e with peerFreed := tset 0 0 g (tset 0 1 h (tset 0 2 q (tset 0 3 b e.peerFreed))) }
    | .data _ => s

/-- A CTRL unit of a kind reaches end n; one that fails its CRC is discarded (R341). -/
def ctrlArrive (s : State) (n : Nat) (f : WUnit → Bool) (intact : Bool) : State :=
  match takeCtrl f (linkEnd s n).wire with
  | none => s
  | some (w, ws) =>
    let s := setEnd s n { linkEnd s n with wire := ws }
    if intact then ctrlAct s n w else s

/-- ACK (R342). -/
def execAck (n : EndId) (intact : Bool) (s : State) : Host.Outcome State Fault Refusal := ok (ctrlArrive s n.val isAck intact)
/-- NAK (R343). -/
def execNak (n : EndId) (intact : Bool) (s : State) : Host.Outcome State Fault Refusal := ok (ctrlArrive s n.val isNak intact)
/-- CREDIT (R341). -/
def execCredit (n : EndId) (intact : Bool) (s : State) : Host.Outcome State Fault Refusal := ok (ctrlArrive s n.val isCredit intact)

/-- NAK_REPEAT (R341): every 15 ns until the awaited unit arrives. -/
def nakRepeat (s : State) (n : Nat) : State :=
  let e := linkEnd s n
  match e.nakAt with
  | some t => if lsState s n = 5 ∧ now s ≥ t + 15 then toPeer (setEnd s n { e with nakAt := some (now s) }) n (.nak e.rxNext) else s
  | none => s

/-- NAK_REPEAT (R341). -/
def execNakRepeat (n : EndId) (s : State) : Host.Outcome State Fault Refusal := ok (nakRepeat s n.val)

/-- The cumulative freed count of a class at end n (R341): packets taken less those whose buffer they still fill. -/
def freedCount (s : State) (n : Nat) (c : PClass) : Nat :=
  let held := (s.net.filter (fun p => p.via == n + 1 && p.cls == c)).length
  (tget 0 (clsCode c) (linkEnd s n).taken + 256 - held % 256) % 256

/-- CREDIT_REFRESH (R341): the end sends its counts, every 100 ns and whenever one has changed. -/
def creditRefresh (s : State) (n : Nat) : State :=
  if lsState s n = 5 then
    toPeer (setEnd s n { linkEnd s n with credAt := now s }) n
      (.credit (freedCount s n .g) (freedCount s n .h) (freedCount s n .q) (freedCount s n .b))
  else s

/-- CREDIT_REFRESH (R341). -/
def execCreditRefresh (n : EndId) (s : State) : Host.Outcome State Fault Refusal := ok (creditRefresh s n.val)

/-! ### Training (R346 to R350, R357) -/

/-- SPREV of a die's end (R357): 2.1, and 2.0 at the hub end of a hub before B1; a die of another major letter has another major. -/
def sprevOf (s : State) (n : Nat) : Nat :=
  if n ≥ 36 then (if rgF s .dierev 0 32 32 = 1 then 0x10 else if bitOf s.features 0 then 0x21 else 0x20)
  else if rgF s .dierev (1 + n / 3) 32 32 = 1 then 0x10 else 0x21

/-- The revision a link runs at: none where the majors differ (R357). -/
def agreedRev (s : State) (n : Nat) : Option Nat :=
  let a := sprevOf s n
  let b := sprevOf s (peerEnd n)
  if a / 16 = b / 16 then some (min a b) else none

/-- The width and the lowest quarter an end chooses of its usable quarters (R347, R357). -/
def chooseWidth (maxw usable rev : Nat) : Option (Nat × Nat) :=
  if maxw ≥ 2 ∧ usable = 15 ∧ rev ≥ 0x21 then some (2, 0)
  else if maxw ≥ 1 ∧ usable % 4 = 3 then some (1, 0)
  else if maxw ≥ 1 ∧ usable / 4 = 3 ∧ rev ≥ 0x21 then some (1, 2)
  else if rev ≥ 0x21 then ((List.range 4).find? (fun q => usable.testBit q)).map (fun q => (0, q))
  else if usable.testBit 0 then some (0, 0)
  else none

/-- The widest width an end may choose (R347, R353): MAXW, and safe width once it is locked to it. -/
def maxWidth (s : State) (n : Nat) : Nat := if lsF s n 19 19 = 1 then 0 else rgF s (lcReg n).1 (lcReg n).2 3 2

/-- The quarters usable at an end (R347). -/
def usable (s : State) (n : Nat) : Nat :=
  (lsF s n 47 44 &&& ((linkEnd s n).peerQ.getD 0)) &&& (15 - lsF s n 43 40)

/-- What an end does once its tests are over and the peer's QMASK is known (R346, R347): WIDE_TRAIN, another attempt, or DOWN after
three. -/
def trySafe (s : State) (n : Nat) : State :=
  let e := linkEnd s n
  if lsState s n ≠ 2 ∨ !e.tested ∨ e.peerQ.isNone then s
  else match chooseWidth (maxWidth s n) (usable s n) (lsF s n 39 32) with
    | some (w, q) => setEnd (setLsState s n 3) n { linkEnd (setLsState s n 3) n with width := w, qsel := q, attempts := 0 }
    | none =>
      if e.attempts + 1 ≥ 3 then enterDown (setEnd s n { e with attempts := 0 }) n
      else setEnd s n { e with attempts := e.attempts + 1, tested := false }

/-- SAFE_TRAIN_DONE (R346, R350): the quarters that passed; a quarter that fails three times in succession is retired. -/
def safeTrainDone (s : State) (n passed : Nat) : State :=
  if lsState s n ≠ 2 then s
  else
    let qret := lsF s n 43 40
    let ok_ := passed &&& (15 - qret)
    let e := linkEnd s n
    let fails := (List.range 4).foldl (fun t q =>
      if qret.testBit q then t else if ok_.testBit q then tset 0 q 0 t else tset 0 q (tget 0 q t + 1) t) e.qFails
    let ret := (List.range 4).foldl (fun r q => if tget 0 q fails ≥ 3 then r ||| 2 ^ q else r) qret
    let s := setLsF (setLsF s n 43 40 ret) n 47 44 ok_
    trySafe (setEnd s n { e with qFails := fails, tested := true }) n

/-- SAFE_TRAIN_DONE (R347). -/
def execSafeTrainDone (n : EndId) (passed : BitVec 4) (s : State) : Host.Outcome State Fault Refusal :=
  ok (safeTrainDone s n.val passed.toNat)

/-- TRAIN (R346, R348): a TRAIN unit of the peer, which is in training, reaches end n. -/
def trainArrive (s : State) (n : Nat) : State :=
  let p := peerEnd n
  let ps := lsState s p
  if ps ≠ 2 ∧ ps ≠ 3 then s
  else
    let st := lsState s n
    if st = 5 then enterRetrain s n
    else if (st = 3 ∨ st = 4) ∧ lsF s p 63 56 ≠ lsF s n 55 48 then enterSafe s n false
    else if st = 2 then
      match agreedRev s n with
      | none => enterDown (enterDown (setLsF (setLsF s n 17 17 1) p 17 17 1) n) p
      | some r =>
        let s := setLsF (setLsF s n 55 48 (lsF s p 63 56)) n 39 32 r
        let e := linkEnd s n
        trySafe (setEnd s n { e with peerQ := if (linkEnd s p).tested then some (lsF s p 47 44) else e.peerQ }) n
    else s

/-- TRAIN (R348). -/
def execTrain (n : EndId) (s : State) : Host.Outcome State Fault Refusal := ok (trainArrive s n.val)

/-- WIDE_TRAIN_DONE (R346). -/
def execWideTrainDone (n : EndId) (pass : Bool) (s : State) : Host.Outcome State Fault Refusal :=
  ok (if lsState s n.val = 3 then (if pass then setLsState s n.val 4 else enterSafe s n.val false) else s)

/-- CONFIRM_TIMEOUT (R346): 1 µs without a valid CONFIRM. -/
def execConfirmTimeout (n : EndId) (s : State) : Host.Outcome State Fault Refusal :=
  ok (if lsState s n.val = 4 ∧ now s ≥ (linkEnd s n.val).since + 1000 then enterSafe s n.val false else s)

/-- An end resends its riser from the peer's NEXT_RX (R349): DOWN with SEQ_LOST when it is neither in the riser nor next. -/
def resume (s : State) (n q : Nat) : State :=
  let e := linkEnd s n
  if q = e.txSeq then setEnd s n { e with riser := [] }
  else match riserFrom e q with
    | [] => enterDown (setLsF s n 16 16 1) n
    | us => us.foldl (fun s u => toPeer s n (.data u)) (setEnd s n { e with riser := us })

/-- Both ends of a link enter ACTIVE (R349, R352): nothing of before is left on the wires. -/
def activate (s : State) (n p : Nat) (wn qn wp qp : Nat) : State :=
  let on := fun (s : State) (k w q : Nat) =>
    let s := setLsF (setLsF (setLsState s k 5) k 31 30 w) k 29 28 q
    setEnd s k { linkEnd s k with wire := [], nakAt := none, tries := [] }
  let s := on (on s n wn qn) p wp qp
  let rn := (linkEnd s n).rxNext
  let rp := (linkEnd s p).rxNext
  resume (resume s n rp) p rn

/-- DISPUTES of an end in its window of one hour, and SAFE_LOCK at the third (R352, R353). -/
def countDispute (s : State) (n : Nat) : State :=
  let e := linkEnd s n
  let c := lsF s n 27 24
  let open_ := c ≠ 0 ∧ now s < e.dispAt + 3600000000000
  let s := if open_ then setLsF s n 27 24 (satInc 4 c) else setEnd (setLsF s n 27 24 1) n { e with dispAt := now s }
  setLsF s n 18 18 1

/-- The valid CONFIRMs of two ends differ (R352, R353). -/
def dispute (s : State) (n p : Nat) : State :=
  let m := lsF s n 47 44 &&& lsF s p 47 44 &&& (15 - lsF s n 43 40) &&& (15 - lsF s p 43 40)
  match (List.range 4).find? (fun q => m.testBit q) with
  | none => enterDown (enterDown s n) p
  | some q =>
    let s := countDispute (countDispute s n) p
    let s := if lsF s n 27 24 ≥ 3 ∨ lsF s p 27 24 ≥ 3 then setLsF (setLsF s n 19 19 1) p 19 19 1 else s
    activate s n p 0 q 0 q

/-- CONFIRM (R348, R349, R352): the peer's CONFIRM reaches end n. -/
def confirmArrive (s : State) (n : Nat) : State :=
  let p := peerEnd n
  if lsState s p ≠ 4 then s
  else
    let st := lsState s n
    if (st = 3 ∨ st = 4) ∧ lsF s p 63 56 ≠ lsF s n 55 48 then enterSafe s n false
    else if st = 4 ∧ lsF s p 55 48 = lsF s n 63 56 then
      let a := linkEnd s n
      let b := linkEnd s p
      if a.width = b.width ∧ a.qsel = b.qsel then activate s n p a.width a.qsel b.width b.qsel else dispute s n p
    else s

/-- CONFIRM (R349). -/
def execConfirm (n : EndId) (s : State) : Host.Outcome State Fault Refusal := ok (confirmArrive s n.val)

/-- DETECT_LOCK (R346): the peer drives its strobes in every state but RESET. -/
def execDetectLock (n : EndId) (s : State) : Host.Outcome State Fault Refusal :=
  ok (if lsState s n.val = 1 ∧ lsState s (peerEnd n.val) ≠ 0 ∧ lsState s (peerEnd n.val) ≠ 7 then enterSafe s n.val true else s)

/-- DETECT_TIMEOUT (R346): 1 ms without lock. -/
def execDetectTimeout (n : EndId) (s : State) : Host.Outcome State Fault Refusal :=
  ok (if lsState s n.val = 1 ∧ now s ≥ (linkEnd s n.val).since + 1000000 then enterDown s n.val else s)

/-! ### LINKCTL (R351, R353, R358) -/

/-- Whether the stack a link end belongs to is secure-owned. -/
def linkOwned (s : State) (n : Nat) : Bool := decide (n < 36) && ownStk s (n / 3)

/-- The offset of LINKCTL of an end. -/
def linkctlOff (n : Nat) : Nat := if n < 36 then stkOff (n / 3) (0x400000 + n % 3 * 0x100) else 0x80000 + (n - 36) * 0x100

/-- LINKCTL.RETRAIN (R346, R353). -/
def linkRetrain (s : State) (b : By) (n : Nat) : State :=
  mpWrite s b (linkOwned s n) (linkctlOff n) (if lsState s n = 5 ∧ lsF s n 19 19 = 0 then enterRetrain s n else s)

/-- LINK_RETRAIN (R346). -/
def execLinkRetrain (b : By) (n : EndId) (s : State) : Host.Outcome State Fault Refusal := ok (linkRetrain s b n.val)

/-- LINKCTL.RESET (R351): the riser, the sequence numbers, EPOCH and QRET are kept, and LINKCTL takes its reset value. The hub end of a
fenced stack is held (R643). -/
def linkReset (s : State) (b : By) (n : Nat) : State :=
  mpWrite s b (linkOwned s n) (linkctlOff n) <|
  if n ≥ 36 ∧ tget false (n - 36) s.fencedStk then s
  else
    let s := setRg s (lcReg n).1 (lcReg n).2 (regReset (lcReg n).1)
    setLsF (setLsState s n 1) n 31 30 3

/-- LINK_RESET (R351). -/
def execLinkReset (b : By) (n : EndId) (s : State) : Host.Outcome State Fault Refusal := ok (linkReset s b n.val)

/-- A write of LINKCTL (R358): MAXW, then RESET or RETRAIN. -/
def linkctlWrite (s : State) (b : By) (n : Nat) (v : Word) : State :=
  mpWrite s b (linkOwned s n) (linkctlOff n) <|
    let s := if fld v 3 2 = 3 then s else setRgF s (lcReg n).1 (lcReg n).2 3 2 (fld v 3 2)
    if bit v 1 then linkReset s b n else if bit v 0 then linkRetrain s b n else s

/-! ### Links that cannot carry traffic (R355, R356, R638, R643) -/

/-- Whether a link has been outside ACTIVE for t ticks at either end, or is in DOWN. -/
def linkOut (s : State) (n t : Nat) : Bool :=
  let out := fun k => lsState s k == 7 || (lsState s k != 5 && decide (now s ≥ (linkEnd s k).outSince + t))
  out n || out (peerEnd n)

/-- RIM_LINK_OUTAGE (R355). -/
def execRimLinkOutage (st : StackId) (s : State) : Host.Outcome State Fault Refusal :=
  ok (if linkOut s (3 * st.val) 20000 && segState s st.val == 0 && decide (rgF s .pkgstat 0 10 8 < 3) then rimWrite s st.val true else s)

/-- A core of a fenced stack stops as under R162, without reaching its threshold (R638). -/
def stopFenced (s : State) (c : Nat) : State :=
  let k := getCore s c
  if k.stopped then s
  else
    let s := setCore s c { k with stopped := true, acc := none, bar := none, waiting := false }
    logErr (raiseSrc s (32 * (c / 20))) (.ev (c / 20)) 0x20 (c % 20) 0 0

/-- Stack n is fenced while the package runs (R356, R638, R643). -/
def fenceStack (s : State) (n : Nat) : State :=
  if tget false n s.fencedStk then s
  else
    let s := if lsState s (36 + n) = 7 then s else setLsState s (36 + n) 0
    let s := setLsF s (36 + n) 31 30 3
    let s := raiseSrc { setRgF s .bustat 0 (3 * n + 2) (3 * n) 6 with fencedStk := tset false n true s.fencedStk } (32 * n + 11)
    let s := rstDone s 2 n 2
    let s := (List.range 20).foldl (fun s u => stopFenced s (n * 20 + u)) s
    let s := (List.range 216).foldl (fun s k => if rgF s .lcmap k 11 8 = n then setRg s .lcmap k 0 else s) s
    let s := flushDead s (fun d => d.die == n)
    (List.range 20).foldl (fun s u =>
      let p : Packet := { cmd := .fence, src := ⟨12, 19⟩, dst := ⟨15, 30⟩, cls := .g, holder := n * 20 + u }
      sendG (sendG s p) { p with dst := ⟨12, 21⟩ }) s

/-- SPOKE_LINK_FENCE (R356). -/
def execSpokeLinkFence (st : StackId) (s : State) : Host.Outcome State Fault Refusal :=
  ok (if lsState s (36 + st.val) = 7 ∨ lsState s (3 * st.val + 2) = 7 then fenceStack s st.val else s)

end Sys2Proof.Machine
end

