-- ==== Sys2Proof/Machine/Cascade.lean ====
section
/-! DEFINITION. Palrath links and the cascade (R359 to R368): flits, bundles, admission, time, broadcasts, and cut packages. -/
namespace Sys2Proof.Machine

open Sys2Proof

/-! ### Groups -/

/-- Whether a lane group has the Palrath personality (R396). -/
def isPal (s : State) (g : Nat) : Bool := rgF s .lgctl g 2 0 == 3

/-- LGSTAT.STATE of a group changes, and its source is raised (R397). -/
def setLgState (s : State) (g x : Nat) : State :=
  if rgF s .lgstat g 3 0 = x then s else raiseSrc (setRgF s .lgstat g 3 0 x) (384 + 16 * g + 13)

/-- PALSTAT.STATE: 0 DOWN, 1 TRAIN, 2 IDENT, 3 ACTIVE, 4 HELD. -/
def palState (s : State) (g : Nat) : Nat := rgF s .palstat g 3 0

/-- The end of a Palrath group. -/
def palEnd (s : State) (g : Nat) : PalEnd := tget {} g s.pals

/-- The end of a Palrath group replaced. -/
def setPalEnd (s : State) (g : Nat) (x : PalEnd) : State := { s with pals := tset {} g x s.pals }

/-- PALSTAT.STATE changes: its source is raised, and LGSTAT follows (R397). -/
def setPal (s : State) (g x : Nat) : State :=
  let old := palState s g
  if old = x then s
  else
    let s := raiseSrc (setRgF s .palstat g 3 0 x) (384 + 16 * g + 12)
    let s := if old = 3 then setPalEnd s g { palEnd s g with outSince := now s } else s
    if isPal s g then setLgState s g (if x = 3 then 2 else 1) else s

/-- PALREV of this package (R363). -/
def palRev (s : State) : Nat := if bitOf s.features 1 then 0x31 else 0x30

/-- The ACTIVE groups of the bundle to package p, in ascending order (R362). -/
def activeGroups (s : State) (p : Nat) : List Nat :=
  (List.range 32).filter (fun g => isPal s g && palState s g == 3 && rgF s .palstat g 23 22 == p)

/-- A CASCADE record (R607): event 0 duplicate ID, 1 cut, 2 admission (the numbers are the model's, log entry 24). -/
def hlCascade (s : State) (ev : Nat) : State :=
  hlDevice s 0x0034 0 ev (BitVec.ofNat 256 (rgF s .cascstat 0 63 32))

/-! ### Flits (R360, R361) -/

/-- The holder number at our homes, or 0xFE, of a packet that another package sends: requests and answers to our snoops name the
package, messages of its homes for us name this package (R304). -/
def msgHolder (s : State) (c : Cmd) (p : Nat) : Nat :=
  if c = .rdRsp ∨ c = .farRsp ∨ c = .wrCmp then 0xFE
  else if c = .errRsp then ownPkg s
  else if isPut c ∨ c = .rds ∨ c = .rdx ∨ c = .upg ∨ c = .far ∨ c = .rdc ∨ c = .wrc ∨ c = .cmoCln ∨ c = .cmoFls ∨ c = .cmoInv ∨ c = .cas64 ∨
      c = .devRd ∨ c = .devWr ∨ c = .fwdDone ∨ c = .invAck ∨ c = .rclAck then 0xF8 + p
  else ownPkg s

/-- The state a FWD_DONE reports (ARG[19:18]). -/
def keptOf (a : Nat) : HState := if bitsOf a 19 18 = 1 then .s else if bitsOf a 19 18 = 2 then .o else .i

/-- A packet of another package as the fabric carries it from hub stop 22 on (R312, R313, R317). -/
def fromMsg (s : State) (c : Cmd) (m : PkgMsg) : Packet :=
  let a := m.arg.toNat
  { cmd := c, src := raStop, spkg := some m.pkg.val, osrc := some m.src, aq := c == .far && bitOf a 10, rl := c == .far && bitOf a 9, dst := m.dst, cls := if decide (0x60 ≤ cmdCode c) then .g else if decide (cmdCode c < 0x20) then .q else .h,
    txid := m.txid.toNat, world := m.world, partid := m.partid.toNat, keyid := m.keyid.toNat, poison := m.poison,
    addr := m.addr.toNat, mask := m.mask.toNat, data := m.data, holder := msgHolder s c m.pkg.val, req := if c = .devRd ∨ c = .devWr then m.src else raStop, reqTxid := a % 65536,
    kept := if c = .fwdDone then keptOf a else if c = .dataS then .s else if c = .dataF then .f else if c = .dataE then .e
      else if c = .dataM then .m else .i
    r := c == .fwdDone && bitOf a 16, putId := a % 65536, dirty := c == .putm || c == .puto || (c == .rclAck && m.len != 0)
    contended := (c == .farRsp || c == .comp) && bitOf a 0, aop := bitsOf a 5 2, size := if c = .devRd ∨ c = .devWr then bitsOf a 1 0 else if bitsOf a 1 0 = 3 then 8 else 4
    opnd := m.data.extractLsb' 0 64, cmp := m.data.extractLsb' 64 64, arg := 0xF8 + bitsOf a 27 26
    inj := a % 2 ^ 32, at_ := some raStop, since := now s, via := 255, ord := s.sendNo }

/-- A packet comes in from another package (R313): a reserved CMD or LEN is dropped and logged. -/
def msgArrive (s : State) (m : PkgMsg) : State :=
  match cmdOf m.cmd.toNat (m.arg.toNat % 4) with
  | none => logErr s (evLog m.dst.die) 0x19 m.dst.stop m.cmd.toNat m.addr.toNat
  | some c =>
    if m.len = 3 then logErr s (evLog m.dst.die) 0x19 m.dst.stop m.cmd.toNat m.addr.toNat
    else { s with net := s.net ++ [fromMsg s c m], sendNo := s.sendNo + 1 }

/-- The next outbound packet of group g (R362): of its bundle, with the hash that names it. -/
def nextOut (s : State) (g : Nat) : Option Packet :=
  let p := rgF s .palstat g 23 22
  let b := tget {} p s.bundles
  if b.hold then none
  else s.net.find? (fun q => outbound s q && outPkg s q == p && b.groups.getD (otagHash s.pkg q % (max 1 b.groups.length)) 99 == g)

/-- The product in GF(2⁸) with polynomial x⁸ + x⁴ + x³ + x² + 1 (R360). -/
def gfMul (a b : BitVec 8) : BitVec 8 :=
  (List.range 8).foldl (fun r i =>
    let r := (r <<< 1) ^^^ (if r.getLsbD 7 then 0x1D else 0)
    if b.getLsbD (7 - i) then r ^^^ a else r) 0

/-- The generator of RS(160,140), roots α⁰ to α¹⁹, without its leading 1, highest power first (R360). -/
def rsGen : List (BitVec 8) :=
  ((List.range 20).foldl (fun (x : List (BitVec 8) × BitVec 8) _ =>
    (List.zipWith (· ^^^ ·) (x.1 ++ [0]) (0 :: x.1.map (gfMul x.2)), gfMul x.2 2)) ([1], 1)).1.drop 1

/-- The 20 parity bytes of a codeword's 140 bytes, the first byte the highest power. -/
def rsParity (bs : List Byte) : List Byte :=
  let g := rsGen
  bs.foldl (fun r b =>
    let f := r.headD 0 ^^^ b
    List.zipWith (· ^^^ ·) (r.drop 1 ++ [0]) (g.map (gfMul f))) (List.replicate 20 0)

/-- The 320 bytes of a flit (R360): 8 units and their sideband bytes, link control (sequence number, acknowledged number and type in
ascending bits; type 1 asks for a retry), CRC-32C, 4 bytes of 0, and the parity of the two interleaved codewords (log entry 50). -/
def flitBytes (pkg : Nat) (us : List RUnit) (seq ack typ : Nat) : List Byte :=
  let u := us.flatMap (fun u => bytesLE 32 (unitContent pkg u).toNat)
  let b := us.map (fun u => sideband u)
  let body := u ++ List.replicate (256 - u.length) 0 ++ b ++ List.replicate (8 - b.length) 0 ++
    bytesLE 8 (seq % 4096 + ack % 4096 * 2 ^ 12 + typ % 256 * 2 ^ 24)
  let data := body ++ bytesLE 4 (~~~(crc32c 0xFFFFFFFF body)).toNat ++ List.replicate 4 0
  let half := fun (k : Nat) => rsParity ((List.range 140).map (fun i => data.getD (2 * i + k) 0))
  data ++ (List.zipWith (fun a b => [a, b]) (half 0) (half 1)).flatten

/-- The next units of group g, at most `fuel` of them: the packet under way is finished before another is taken. -/
def takeUnits (g : Nat) : Nat → PalEnd → State → List RUnit × PalEnd × State
  | 0, e, s => ([], e, s)
  | fuel + 1, e, s =>
    match (match e.txq with
      | p :: _ => some (p, s)
      | [] => (nextOut s g).map (fun p => (p, { s with net := s.net.erase p }))) with
    | none => ([], e, s)
    | some (p, s) =>
      let last := decide (e.txIdx = pktLen p)
      let (us, e', s) := takeUnits g fuel { e with txq := if last then [] else [p], txIdx := if last then 0 else e.txIdx + 1 } s
      ({ seq := e.txSeq, pkt := p, idx := e.txIdx, last := last } :: us, e', s)

/-- A flit of up to 8 units leaves group g, kept in the riser of 512 (R361). -/
def sendFlit (s : State) (g : Nat) : State :=
  let e := palEnd s g
  if e.riser.length ≥ 512 then s
  else match takeUnits g 8 e s with
    | ([], _, _) => s
    | (us, e, s) => setPalEnd s g { e with
        riser := e.riser ++ [(e.txSeq, us)]
        txSeq := (e.txSeq + 1) % 4096
        lanes := flitBytes s.pkg us e.txSeq ((e.rxNext + 4095) % 4096) e.nak.toNat }

/-- The packets of a group that have not passed it whole: the last units of those in its riser, and the one under way. -/
def palPackets (e : PalEnd) : List Packet := ((e.riser.flatMap (·.2)).filter (·.last)).map (·.pkt) ++ e.txq

/-- PALRATH_FLIT (R361): an arriving flit acknowledges, asks for a retry, or brings packets; a flit leaves for each that comes. -/
def flitArrive (s : State) (g : Nat) (f : FlitIn) : State :=
  if !(isPal s g) || palState s g != 3 then s
  else
    let e := palEnd s g
    if !f.good then setPalEnd s g { e with nak := true }
    else
      let riser := if e.riser.any (fun x => x.1 == f.ack.toNat) then (e.riser.dropWhile (fun x => x.1 != f.ack.toNat)).drop 1 else e.riser
      let s := if f.nak then setRgF s .palstat g 63 32 (satAdd 32 (rgF s .palstat g 63 32) riser.length) else s
      let s := if f.seq.toNat = e.rxNext then
          let s := setPalEnd s g { e with riser := riser, nak := false, rxNext := (e.rxNext + 1) % 4096 }
          f.msgs.foldl msgArrive s
        else setPalEnd s g { e with riser := riser, nak := true }
      sendFlit s g

/-- PALRATH_FLIT (R361). -/
def execPalrathFlit (g : GroupId) (f : FlitIn) (s : State) : Host.Outcome State Fault Refusal := ok (flitArrive s g.val f)

/-- PALCTL written (R351, R358): RESET, or RETRAIN from ACTIVE, puts the group's end back into training; its riser is kept. -/
def palctlWrite (s : State) (b : By) (g : Nat) (reset retrain : Bool) : State :=
  if b ≠ .mp ∨ !(isPal s g) then mpWrite s b (ownLg s g) (lgOffset g 0x200000) s
  else if reset ∨ (retrain ∧ palState s g = 3) then setRgF (setPal s g 1) .palstat g 19 18 0
  else s

/-- PAL_LINK_RESET (R351). -/
def execPalLinkReset (b : By) (g : GroupId) (s : State) : Host.Outcome State Fault Refusal := ok (palctlWrite s b g.val true false)

/-- BUNDLE_CHANGE (R362): the agent holds the bundle's packets, drains its groups, applies the new groups and releases. The flits of a
group that has left go back to the agent. -/
def bundleChange (s : State) (p : Nat) : State :=
  let b := tget {} p s.bundles
  let new := activeGroups s p
  if b.groups = new ∧ !b.hold then s
  else
    let left := b.groups.filter (fun g => !(new.contains g))
    let back := left.flatMap (fun g => palPackets (palEnd s g))
    let s := left.foldl (fun s g => setPalEnd s g { palEnd s g with riser := [], txq := [], txIdx := 0 }) { s with net := back ++ s.net }
    let kept := b.groups.filter (fun g => new.contains g)
    if kept.all (fun g => (palPackets (palEnd s g)).isEmpty) then { s with bundles := tset {} p { groups := new } s.bundles }
    else { s with bundles := tset {} p { b with groups := kept, hold := true } s.bundles }

/-- BUNDLE_CHANGE (R362). -/
def execBundleChange (p : Fin 4) (s : State) : Host.Outcome State Fault Refusal := ok (bundleChange s p.val)

/-! ### Admission (R363, R364, R636) -/

/-- The most groups a bundle uses (R359, R363): 4 at PALREV 3.1, 2 at 3.0. -/
def bundleMax (s : State) : Nat := if palRev s ≥ 0x31 then 4 else 2

/-- Two packages claim one cascade ID (R364): CASCSTAT.DUP_ID, a record; the group is held. -/
def dupId (s : State) (g : Nat) : State :=
  let s := setPal (setRgF s .palstat g 21 21 1) g 4
  if rgF s .cascstat 0 5 5 = 1 then s else hlCascade (setRgF s .cascstat 0 5 5 1) 0

/-- Every Palrath group is held (R364). -/
def holdAll (s : State) : State := (List.range 32).foldl (fun s g => if isPal s g then setPal s g 4 else s) s

/-- Whether the master may take in a candidate (R363 step 3): the same major, and a bundle to every package admitted. -/
def admissible (s : State) (c : Cand) : Bool :=
  c.rev / 16 == palRev s / 16 && !((activeGroups s c.pkg).isEmpty) &&
  s.admitted.all (fun p => p == s.pkg || c.seen.testBit p)

/-- A package joins again: the fence of its agent ends at every home and at the hub (R302). -/
def unfencePkg (s : State) (p : Nat) : State := (List.range 13).foldl (fun s d => setFence s d (0xF8 + p) false) s

/-- What this package's ends send as IDENT (R363 step 1). -/
def identMsg (s : State) : PalMsg :=
  .ident s.pkg (rgF s .pkgid 0 31 0) (palRev s) s.features (((List.range 4).filter (fun p => (tget none p s.seenIds).isSome)).foldl (fun m p => m + 2 ^ p) 0)

/-- A group says something to its peer. -/
def palSay (s : State) (g : Nat) (m : PalMsg) : State := setPalEnd s g { palEnd s g with said := some m }

/-- JOIN_GRANT to a package (R363 step 5), over every group of its bundle. -/
def sendGrant (s : State) (p : Nat) : State :=
  (activeGroups s p).foldl (fun s g => palSay s g (.grant (rgF s .cascstat 0 55 48) (rgF s .cascstat 0 63 60) (rg s .cascfeat 0) s.ptime)) s

/-- A refused candidate's groups are held (R363); its next IDENT is heard again. -/
def refuseCand (s : State) (c : Cand) : State := (activeGroups s c.pkg).foldl (fun s g => setPal s g 4) s

/-- A candidate is admitted by the master: PRESENT, the cascade's minor and features, its source, and a record. -/
def admitCand (s : State) (c : Cand) : State :=
  let s := unfencePkg { s with admitted := s.admitted ++ [c.pkg] } c.pkg
  let s := setRgF s .cascstat 0 (60 + c.pkg) (60 + c.pkg) 1
  let s := setRg s .cascfeat 0 (rg s .cascfeat 0 &&& BitVec.ofNat 64 c.features)
  hlCascade (raiseSrc s 916) 2

/-- A package that asks after the window (R363, R636): refused when its minor or its features are below the cascade's. -/
def hotAdd (s : State) (c : Cand) : State :=
  if s.admitted.contains c.pkg then s
  else if admissible s c ∧ c.rev % 16 ≥ rgF s .cascstat 0 51 48 ∧ (rg s .cascfeat 0).toNat &&& c.features = (rg s .cascfeat 0).toNat then
    sendGrant (admitCand s c) c.pkg
  else refuseCand s c

/-- Whether a group is held for good (R364, another major), or down. -/
def palHeld (s : State) (g : Nat) : Bool :=
  palState s g == 0 || (palState s g == 4 && (rgF s .palstat g 21 20 != 0 || s.otherMaster))

/-- IDENT (R363, R364): the peer of a group is known; a duplicate ID or another major holds the group, any other makes it ACTIVE, and at
the master the package is a candidate. -/
def identArrive (s : State) (i : IdentIn) : State :=
  let g := i.group.val
  if !(isPal s g) ∨ palHeld s g then s
  else
    let s := setRgF (setRgF s .palstat g 31 24 i.rev.toNat) .palstat g 23 22 i.id.val
    let old := tget none i.id.val s.seenIds
    let s := palSay s g (identMsg s)
    let s := { s with seenIds := tset none i.id.val (some i.serial) s.seenIds }
    if i.id.val = s.pkg then
      let s := dupId s g
      if i.id.val = 0 then { holdAll s with otherMaster := true } else s
    else if i.id.val = 0 ∧ old.isSome ∧ old ≠ some i.serial then { holdAll s with otherMaster := true }
    else if i.rev.toNat / 16 ≠ palRev s / 16 then setPal (setRgF s .palstat g 20 20 1) g 4
    else if i.width = 0 ∨ s.otherMaster then s
    else
      let w := if i.width = 2 ∧ (palRev s < 0x31 ∨ i.rev.toNat < 0x31) then 1 else i.width.toNat
      let s := setRgF s .palstat g 19 18 w
      let s := if palState s g = 3 ∨ (activeGroups s i.id.val).length < bundleMax s then setPal s g 3 else s
      let c : Cand := ⟨i.id.val, i.rev.toNat, i.features.toNat, i.seen.toNat⟩
      if !(isMaster s) then s
      else if rgF s .cascstat 0 55 48 ≠ 0 then hotAdd s c
      else { s with cands := s.cands.filter (fun x => x.pkg != c.pkg) ++ [c] }

/-- IDENT (R363). -/
def execIdent (i : IdentIn) (s : State) : Host.Outcome State Fault Refusal := ok (identArrive s i)

/-- IDENT_REPEAT (R363): a package that waits for admission sends IDENT again. -/
def execIdentRepeat (s : State) : Host.Outcome State Fault Refusal :=
  ok (if rgF s .cascstat 0 7 7 = 1 ∧ now s ≥ s.identAt + 100000000 then
    (List.range 32).foldl (fun s g => if isPal s g then palSay s g (identMsg s) else s) { s with identAt := now s } else s)

/-- ADMISSION_WINDOW_END (R363 steps 2 to 5). -/
def windowEnd (s : State) : State :=
  match s.hubAt with
  | none => s
  | some t =>
    if !(isMaster s) ∨ now s < t + 100000000 ∨ rgF s .cascstat 0 55 48 ≠ 0 then s
    else
      let s := s.cands.foldl (fun s c => if admissible s c then admitCand s c else refuseCand s c) s
      let ok_ := s.cands.filter (fun c => s.admitted.contains c.pkg)
      let minor := ok_.foldl (fun m c => min m (c.rev % 16)) (palRev s % 16)
      ok_.foldl (fun s c => sendGrant s c.pkg) (setRgF { s with cands := [] } .cascstat 0 55 48 (palRev s / 16 * 16 + minor))

/-- ADMISSION_WINDOW_END (R363). -/
def execAdmissionWindowEnd (s : State) : Host.Outcome State Fault Refusal := ok (windowEnd s)

/-- JOIN_GRANT (R363 step 6, R365): the package is admitted, and its time base takes the grant's time. -/
def joinGrant (s : State) (rev present features : Nat) (time half : Word) : State :=
  if isMaster s ∨ rgF s .cascstat 0 7 7 = 0 then s
  else
    let old := s.ptime
    let s := setRgF (setRgF (setRgF s .cascstat 0 55 48 rev) .cascstat 0 63 60 (present ||| 2 ^ s.pkg)) .cascstat 0 7 7 0
    let s := setRg { s with
      admitted := (List.range 4).filter (fun p => p == s.pkg || present.testBit p)
      ptime := time + half, timeAt := some (time + half).toNat, tbMode := 1 } .cascfeat 0 (BitVec.ofNat 64 features)
    let s := s.admitted.foldl (fun s p => unfencePkg s p) (raiseSrc (raiseSrc s 916) 925)
    hlDevice s 0x0040 0 0 (payload2 old s.ptime)

/-- JOIN_GRANT (R363). -/
def execJoinGrant (rev : BitVec 8) (present : BitVec 4) (features time halfTrip : Word) (s : State) :
    Host.Outcome State Fault Refusal := ok (joinGrant s rev.toNat present.toNat features.toNat time halfTrip)

/-! ### Time (R365) -/

/-- TIME_SEND (R365): once per µs the master sends its PTIME to every admitted package. -/
def timeSend (s : State) : State :=
  if isMaster s ∧ now s ≥ s.timeSentAt + 1000 then
    (s.admitted.filter (fun p => p != s.pkg)).foldl (fun s p =>
      sendG s { cmd := .time, src := ⟨12, 21⟩, dst := raStop, cls := .g, holder := 0xF8 + p, data := BitVec.ofNat 512 s.ptime.toNat })
      { s with timeSentAt := now s }
  else s

/-- TIME_SEND (R365). -/
def execTimeSend (s : State) : Host.Outcome State Fault Refusal := ok (timeSend s)

/-- The holdover indication (R365, R622). -/
def setHoldover (s : State) (b : Bool) : State :=
  let s := setRgF s .cascstat 0 6 6 b.toNat
  let m := if b then 2 else 1
  if s.tbMode = m then s else raiseSrc { s with tbMode := m } 925

/-- TIME (R365): PTIME is slewed towards the master's, never stepped. -/
def timeArrive (s : State) (time half : Word) : State :=
  if isMaster s ∨ rgF s .cascstat 0 7 7 = 1 ∨ !(s.admitted.any (fun p => p != s.pkg)) then s
  else setHoldover { s with slew := (((time + half).toNat : Int) - (s.ptime.toNat : Int)), timeAt := some (now s) } false

/-- TIME (R328, R365). -/
def execTime (time halfTrip : Word) (s : State) : Host.Outcome State Fault Refusal :=
  ok (match takePacket (fun p => p.cmd == .time && p.spkg.isSome) s with
    | some (p, s) => timeArrive (gArrive s p) time halfTrip
    | none => timeArrive s time halfTrip)

/-- TIME_HOLDOVER (R365): no TIME packet for 100 µs. -/
def timeHoldover (s : State) : State :=
  match s.timeAt with
  | some t => if !(isMaster s) ∧ now s ≥ t + 100000 then setHoldover { s with slew := 0, timeAt := none } true else s
  | none => s

/-- TIME_HOLDOVER (R365). -/
def execTimeHoldover (s : State) : Host.Outcome State Fault Refusal := ok (timeHoldover s)

/-! ### Cut packages (R367, R368) -/

/-- The package a lost bundle cuts (R367). -/
def cutOf (a b : Nat) : Nat := if a = 0 then b else if b = 0 then a else max a b

/-- Another package leaves the cascade (R368): it is no longer present. -/
def leaveCascade (s : State) (p : Nat) : State :=
  let s := setRgF (setRgF s .cascstat 0 (56 + p) (56 + p) 1) .cascstat 0 (60 + p) (60 + p) 0
  hlCascade { s with admitted := s.admitted.filter (fun q => q != p) } 1

/-- Another package is cut (R368): its agent is fenced as a holder, and it is no longer present. -/
def cutOther (s : State) (p : Nat) : State := leaveCascade (fenceHolder s 0 (0xF8 + p)) p

/-- A fence notice reaches a die (R301): at the hub, one about the agent of an admitted package cuts that package. -/
def fenceArrive (s : State) (die h : Nat) : State :=
  match takePacket (fun p => p.cmd == .fence && p.holder == h && p.dst.die == die) s with
  | some (p, s) =>
    let s := setFence (gArrive s p) die h true
    if die = 12 ∧ 0xF8 ≤ h ∧ h < 0xFC ∧ s.admitted.contains (h - 0xF8) then leaveCascade s (h - 0xF8) else s
  | none => s

/-- FENCE (R301). -/
def execFence (die : DieId) (h : HolderId) (s : State) : Host.Outcome State Fault Refusal := ok (fenceArrive s die.val h.toNat)

/-- This package is cut (R368): it fences its agents for every other package, enters holdover and raises source 915. -/
def cutSelf (s : State) : State :=
  let s := (List.range 4).foldl (fun s q => if q = s.pkg then s else fenceHolder s 0 (0xF8 + q)) s
  let s := setRgF { s with admitted := [s.pkg] } .cascstat 0 (56 + s.pkg) (56 + s.pkg) 1
  hlCascade (raiseSrc (setHoldover s true) 915) 1

/-- Whether the bundle to package p has been out of ACTIVE for 1 ms. -/
def bundleLost (s : State) (p : Nat) : Bool :=
  (activeGroups s p).isEmpty &&
  (List.range 32).all (fun g => !(isPal s g && rgF s .palstat g 23 22 == p) || decide (now s ≥ (palEnd s g).outSince + 1000000))

/-- BUNDLE_LOSS (R367): the bundle between packages a and b is lost. What another pair has lost, this package learns from the master. -/
def bundleLoss (s : State) (a b : Nat) : State :=
  let c := cutOf a b
  if a = b ∨ !(s.admitted.contains a) ∨ !(s.admitted.contains b) then s
  else if a = s.pkg ∧ !(bundleLost s b) then s
  else if b = s.pkg ∧ !(bundleLost s a) then s
  else if c = s.pkg then cutSelf s
  else cutOther s c

/-- BUNDLE_LOSS (R367). -/
def execBundleLoss (a b : Fin 4) (s : State) : Host.Outcome State Fault Refusal := ok (bundleLoss s a.val b.val)

/-! ### Broadcasts (R366) -/

/-- Broadcast n is performed here, in its order: a TINV reaches every core; what has nobody to reach is complete at once. -/
def performBcast (s : State) (n : Nat) (k : BcastKind) (t : Option Tinv) : State :=
  let s := match k, t with
    | .tinv, some t => tinvSpread s { t with from_ := bcastTag n }
    | _, _ => s
  bcastHere s n

/-- The oldest of this package's broadcasts that f picks, of at most 16 outstanding, replaced by g of it. -/
def nextOwn (s : State) (f : Bcast → Bool) (g : Bcast → Bcast) : Option (Bcast × State) :=
  (s.bcasts.find? (fun b => b.pkg == s.pkg && f b)).map (fun b =>
    (g b, { s with bcasts := s.bcasts.map (fun x => if x = b then g b else x) }))

/-- Whether this package may have one more broadcast outstanding (R366). -/
def bcastRoom (s : State) : Bool := decide ((s.bcasts.filter (fun b => b.pkg == s.pkg && b.sent)).length < 16)

/-- The master numbers a broadcast, sends it to every other package and performs it (R366). -/
def masterBcast (s : State) (b : Bcast) : State :=
  let n := s.bcastSeq
  let s := (s.admitted.filter (fun p => p != s.pkg)).foldl (fun s p => bcastSend s p n false b.tinv) { s with bcastSeq := n + 1 }
  performBcast s n b.kind b.tinv

/-- CASCADE_BROADCAST (R366) with nothing arriving: at the master this package's oldest waiting broadcast is numbered; elsewhere it leaves for
the master. -/
def bcastIssue (s : State) : State :=
  if !(bcastRoom s) then s
  else if isMaster s then
    match nextOwn s (fun b => !b.num) (fun b => { b with sent := true, num := true, seq := s.bcastSeq, left := s.admitted }) with
    | some (b, s) => masterBcast s b
    | none => s
  else
    match nextOwn s (fun b => !b.sent) (fun b => { b with sent := true }) with
    | some (b, s) => bcastSend s 0 0 false b.tinv
    | none => s

/-- What the cascade brings of a broadcast (R366): a report of completion, at the master from one package and elsewhere from the master for
all; at the master another package's broadcast, to be numbered; elsewhere a numbered one, performed when it is the next in order. -/
def bcastArrive (s : State) (b : BcIn) : State :=
  if b.done then bcastPart s (if isMaster s then b.pkg.val else 0xFF) b.seq
  else if isMaster s then
    if b.pkg.val = s.pkg then s
    else
      let x : Bcast := { kind := b.kind, src := raStop, tinv := b.tinv, pkg := b.pkg.val, seq := s.bcastSeq, sent := true, num := true, left := s.admitted }
      masterBcast { s with bcasts := s.bcasts ++ [x] } x
  else if b.seq ≠ s.bcastSeq then s
  else if b.pkg.val = s.pkg then
    match nextOwn s (fun x => x.sent && !x.num) (fun x => { x with num := true, seq := b.seq, left := [s.pkg, 0xFF] }) with
    | some (x, s) => performBcast { s with bcastSeq := b.seq + 1 } b.seq x.kind x.tinv
    | none => s
  else performBcast { s with bcastSeq := b.seq + 1 } b.seq b.kind b.tinv

/-- CASCADE_BROADCAST (R366). -/
def cascadeBroadcast (s : State) (i : Option BcIn) : State :=
  match i with
  | none => bcastIssue s
  | some b => bcastArrive s b

/-- CASCADE_BROADCAST (R366). -/
def execCascadeBroadcast (b : Option BcIn) (s : State) : Host.Outcome State Fault Refusal := ok (cascadeBroadcast s b)

end Sys2Proof.Machine
end

