-- ==== Sys2Proof/Machine/Modes.lean ====
section
/-! DEFINITION. The cipher modes of R463 (ECB, CBC, CTR, GCM, CCM, CMAC, XTS with ciphertext stealing), one unit at a time so that a
message can stop at a block boundary (R477), and the key wrap of R487. Byte strings are lists of bytes, the first byte first. -/
namespace Sys2Proof.Machine

open Sys2Proof

/-- Sixteen zero bytes. -/
def zero16 : List Byte := List.replicate 16 0

/-- A string padded with zeros to 16 bytes. -/
def pad16 (l : List Byte) : List Byte := (l ++ zero16).take 16

/-- The n bytes of a number, most significant first. -/
def bytesBE (n x : Nat) : List Byte := (bytesLE n x).reverse

/-- A block incremented as a big-endian integer in its last n bytes. -/
def incBE (n : Nat) (b : List Byte) : List Byte :=
  b.take (16 - n) ++ bytesBE n ((ofBytesBE (b.drop (16 - n)) + 1) % 2 ^ (8 * n))

/-- Multiplication in the field of GHASH: bit 127 of a number is the first bit of its block. -/
def ghashMul (x y : Nat) : Nat :=
  ((List.range 128).foldl (fun (p : Nat × Nat) i =>
    (if x.testBit (127 - i) then p.1 ^^^ p.2 else p.1,
      if p.2.testBit 0 then (p.2 / 2) ^^^ (0xE1 * 2 ^ 120) else p.2 / 2)) (0, y)).1

/-- One step of GHASH: accumulator, subkey, one block. -/
def ghashStep (h acc blk : List Byte) : List Byte := bytesBE 16 (ghashMul (ofBytesBE (xorBytes acc blk)) (ofBytesBE h))

/-- Doubling of CMAC. -/
def cmacDbl (b : List Byte) : List Byte :=
  let x := ofBytesBE b
  bytesBE 16 ((x * 2) % 2 ^ 128 ^^^ (if x.testBit 127 then 0x87 else 0))

/-- The mode of a session (R466). -/
inductive CMode where
  | ecb | cbc | ctr | gcm | ccm | cmac | xts
  deriving DecidableEq, Repr

/-- A mode and its number. -/
def CMode.ofNat? (n : Nat) : Option CMode :=
  match n with
  | 0 => some .ecb | 1 => some .cbc | 2 => some .ctr | 3 => some .gcm | 4 => some .ccm | 5 => some .cmac | 6 => some .xts
  | _ => none

/-- What a message works with: mode, direction, CCM nonce bytes, tag bytes, round keys of K1, K2, the hash subkey, the IV field, and
the lengths of its payload and AAD. -/
structure MsgKey where
  mode : CMode
  enc : Bool
  nlen : Nat
  taglen : Nat
  rks : List (List Byte)
  k2 : List Byte
  hsub : List Byte
  iv : List Byte
  len : Nat
  aadLen : Nat
  deriving DecidableEq, Repr

/-- What a message leaves from one unit to the next (R469). -/
structure MsgCtx where
  ctr : List Byte
  chain : List Byte
  ghash : List Byte
  tmask : List Byte
  aadDone : Nat
  dataDone : Nat
  deriving DecidableEq, Repr

/-- The counter block of CCM with counter i. -/
def ccmCtr (m : MsgKey) (i : Nat) : List Byte :=
  BitVec.ofNat 8 (14 - m.nlen) :: m.iv.take m.nlen ++ bytesBE (15 - m.nlen) i

/-- Block B0 of CCM. -/
def ccmB0 (m : MsgKey) : List Byte :=
  BitVec.ofNat 8 ((if m.aadLen > 0 then 64 else 0) + 8 * ((m.taglen - 2) / 2) + (14 - m.nlen)) :: m.iv.take m.nlen ++
    bytesBE (15 - m.nlen) m.len

/-- The encoding of the AAD's length that stands before it in CCM. -/
def ccmPrefix (m : MsgKey) : List Byte :=
  if m.aadLen < 65280 then bytesBE 2 m.aadLen else [0xFF, 0xFE] ++ bytesBE 4 m.aadLen

/-- A message as it starts. -/
def msgStart (m : MsgKey) : MsgCtx :=
  let e := aesEncRk m.rks
  let c0 : MsgCtx := ⟨zero16, zero16, zero16, zero16, 0, 0⟩
  match m.mode with
  | .ecb => c0
  | .cbc => { c0 with chain := m.iv }
  | .ctr => { c0 with ctr := m.iv }
  | .gcm =>
    let j0 := m.iv.take 12 ++ [0, 0, 0, 1]
    { c0 with ctr := incBE 4 j0, tmask := e j0 }
  | .ccm => { c0 with ctr := ccmCtr m 1, chain := e (ccmB0 m), tmask := e (ccmCtr m 0) }
  | .cmac => c0
  | .xts => { c0 with chain := aesEnc m.k2 m.iv }

/-- The AAD bytes of the next AAD block. -/
def aadPiece (m : MsgKey) (c : MsgCtx) : Nat :=
  if m.mode = .ccm ∧ c.aadDone = 0 then min m.aadLen (16 - (ccmPrefix m).length) else min (m.aadLen - c.aadDone) 16

/-- One block of AAD is absorbed. -/
def aadStep (m : MsgKey) (c : MsgCtx) (p : List Byte) : MsgCtx :=
  let c' := { c with aadDone := c.aadDone + p.length }
  if m.mode = .ccm then
    { c' with chain := aesEncRk m.rks (xorBytes c.chain (pad16 ((if c.aadDone = 0 then ccmPrefix m else []) ++ p))) }
  else { c' with ghash := ghashStep m.hsub c.ghash (pad16 p) }

/-- The payload bytes of the next unit: a block, or with ciphertext stealing the last two. -/
def payPiece (m : MsgKey) (c : MsgCtx) : Nat :=
  let left := m.len - c.dataDone
  if m.mode = .xts ∧ left < 32 then left else min left 16

/-- One XTS block under a tweak. -/
def xtsOne (m : MsgKey) (tw b : List Byte) : List Byte :=
  xorBytes ((if m.enc then aesEncRk m.rks else aesDecRk m.rks) (xorBytes b tw)) tw

/-- The next tweak of XTS. -/
def xtsNext (tw : List Byte) : List Byte := bytesLE 16 (xtsMul (ofBytesLE tw))

/-- One payload unit: the output and what is left for the next. -/
def payStep (m : MsgKey) (c : MsgCtx) (p : List Byte) : List Byte × MsgCtx :=
  let e := aesEncRk m.rks
  let c' := { c with dataDone := c.dataDone + p.length }
  match m.mode with
  | .ecb => ((if m.enc then e p else aesDecRk m.rks p), c')
  | .cbc =>
    if m.enc then
      let o := e (xorBytes p c.chain)
      (o, { c' with chain := o })
    else (xorBytes (aesDecRk m.rks p) c.chain, { c' with chain := p })
  | .ctr => (xorBytes p (e c.ctr), { c' with ctr := incBE 16 c.ctr })
  | .gcm =>
    let o := xorBytes p (e c.ctr)
    (o, { c' with ctr := incBE 4 c.ctr, ghash := ghashStep m.hsub c.ghash (pad16 (if m.enc then o else p)) })
  | .ccm =>
    let o := xorBytes p (e c.ctr)
    (o, { c' with ctr := incBE (15 - m.nlen) c.ctr, chain := e (xorBytes c.chain (pad16 (if m.enc then p else o))) })
  | .cmac =>
    if c.dataDone + p.length < m.len then ([], { c' with chain := e (xorBytes c.chain p) })
    else
      let k1 := cmacDbl (e zero16)
      let last := if p.length = 16 then xorBytes p k1 else xorBytes (pad16 (p ++ [0x80])) (cmacDbl k1)
      ([], { c' with chain := e (xorBytes c.chain last) })
  | .xts =>
    if p.length = 16 then (xtsOne m c.chain p, { c' with chain := xtsNext c.chain })
    else
      let t2 := xtsNext c.chain
      let (ta, tb) := if m.enc then (c.chain, t2) else (t2, c.chain)
      let cc := xtsOne m ta (p.take 16)
      let r := p.length - 16
      (xtsOne m tb (p.drop 16 ++ cc.drop r) ++ cc.take r, { c' with chain := xtsNext t2 })

/-- At most n AAD blocks absorbed from the AAD bytes not yet absorbed: how many, and the context. -/
def runAad (m : MsgKey) : Nat → MsgCtx → List Byte → Nat × MsgCtx
  | 0, c, _ => (0, c)
  | n + 1, c, bs =>
    let k := aadPiece m c
    if c.aadDone ≥ m.aadLen ∨ bs.length < k then (0, c)
    else
      let (j, c) := runAad m n (aadStep m c (bs.take k)) (bs.drop k)
      (j + 1, c)

/-- At most n payload units from the payload bytes not yet taken: how many, the output, and the context. -/
def runPay (m : MsgKey) : Nat → MsgCtx → List Byte → Nat × List Byte × MsgCtx
  | 0, c, _ => (0, [], c)
  | n + 1, c, bs =>
    let k := payPiece m c
    if c.dataDone ≥ m.len ∨ bs.length < k then (0, [], c)
    else
      let (o, c) := payStep m c (bs.take k)
      let (j, os, c) := runPay m n c (bs.drop k)
      (j + 1, o ++ os, c)

/-- The tag of a message whose payload is done. -/
def msgTag (m : MsgKey) (c : MsgCtx) : List Byte :=
  let full :=
    match m.mode with
    | .gcm =>
      xorBytes (ghashStep m.hsub c.ghash (bytesBE 8 (8 * m.aadLen) ++ bytesBE 8 (8 * m.len))) c.tmask
    | .ccm => xorBytes c.chain c.tmask
    | .cmac => if m.len = 0 then (payStep m c []).2.chain else c.chain
    | _ => []
  full.take m.taglen

/-- AES-GCM without AAD over a whole string (R472): the output and the 16-byte tag. -/
def gcmWhole (enc : Bool) (key iv data : List Byte) : List Byte × List Byte :=
  let rks := roundKeys key
  let m : MsgKey := ⟨.gcm, enc, 0, 16, rks, [], aesEncRk rks zero16, iv, data.length, 0⟩
  let (_, o, c) := runPay m (data.length + 1) (msgStart m) data
  (o, msgTag m c)

/-! ### Key wrap (SP 800-38F) -/

/-- One step of the wrapping: the round number and the pieces after the first. -/
def kwSteps (rks : List (List Byte)) : List Nat → List Byte → List (List Byte) → List Byte × List (List Byte)
  | [], a, rs => (a, rs)
  | t :: ts, a, rs =>
    match rs with
    | [] => (a, rs)
    | r :: rest =>
      let b := aesEncRk rks (a ++ r)
      kwSteps rks ts (xorBytes (b.take 8) (bytesBE 8 t)) (rest ++ [b.drop 8])

/-- AES Key Wrap of a key of n 8-byte pieces. -/
def kwWrap (kek key : List Byte) : List Byte :=
  let n := key.length / 8
  let (a, rs) := kwSteps (roundKeys kek) ((List.range (6 * n)).map (· + 1)) (List.replicate 8 0xA6) (chunks 8 n key)
  a ++ rs.flatten

/-- The steps undone; the pieces in reverse order. -/
def kwUnsteps (rks : List (List Byte)) : List Nat → List Byte → List (List Byte) → List Byte × List (List Byte)
  | [], a, rs => (a, rs)
  | t :: ts, a, rs =>
    match rs with
    | [] => (a, rs)
    | r :: rest =>
      let b := aesDecRk rks (xorBytes a (bytesBE 8 t) ++ r)
      kwUnsteps rks ts (b.take 8) (rest ++ [b.drop 8])

/-- AES Key Unwrap: the key, when the integrity check passes. -/
def kwUnwrap (kek w : List Byte) : Option (List Byte) :=
  let n := w.length / 8 - 1
  let (a, rs) := kwUnsteps (roundKeys kek) ((List.range (6 * n)).map (· + 1)).reverse (w.take 8) (chunks 8 n (w.drop 8)).reverse
  if a = List.replicate 8 0xA6 then some rs.reverse.flatten else none

end Sys2Proof.Machine
end

