-- ==== Sys2Proof/Machine/HubMem.lean ====
section
/-! DEFINITION. Memory as hub agents reach it (R220, R402, R441, R442, R512): coherent RDC and WRC requests run to rest, far atomics,
the stage-2 translation of a share's addresses with the hub's cached entries, and DEV accesses of the PCIe slot at the root ports
(R237, R403). Reads and partial writes of memory go through the hub I/O cache where it can take the line (R273, R288), whole-line
writes by WRC (R573). An access that a home does not answer at once leaves the command without effect; its request is made, and the
command takes effect when it is given again after the answer has come (DESIGN CHOICE, log entry 25). -/
namespace Sys2Proof.Machine

open Sys2Proof

/-! ### Root ports -/

/-- A root port, by 4g + k. -/
def rport (s : State) (i : Nat) : Rport := tget {} i s.rports

/-- A root port replaced. -/
def setRport (s : State) (i : Nat) (x : Rport) : State := { s with rports := tset {} i x s.rports }

/-- The root ports of a group under BIF (R399). -/
def portCount (s : State) (g : Nat) : Nat := 2 ^ rgF s .lgctl g 9 8

/-- Whether root port k of group g exists: the group has the PCIe personality and BIF gives it (R399). -/
def portExists (s : State) (g k : Nat) : Bool := rgF s .lgctl g 2 0 == 1 && decide (k < portCount s g)

/-- Whether a root port is up: in DL_Active (LGSTAT). -/
def portUp (s : State) (i : Nat) : Bool := (rport s i).st == 1 || (rport s i).st == 2

/-- The answer to a DEV access from where it is completed. -/
def devReply (s : State) (p : Packet) (c : Cmd) (d : Word) : State :=
  send s {
    cmd := c, src := p.dst, dst := p.src, cls := .h, txid := p.txid, world := p.world, partid := p.partid, keyid := p.keyid,
    addr := p.addr, holder := p.holder, data := BitVec.ofNat 512 d.toNat }

/-- A DEV access completes: with error, or with data for a read. -/
def devComplete (s : State) (p : Packet) (good : Bool) (d : Word) : State :=
  if !good then devReply s p .errRsp 0
  else if p.cmd = .devRd then devReply s p .rdRsp d
  else devReply s p .wrCmp 0

/-- A DEV access reaches a root port (R237): an error at once while the link is down, to the function in L0
(PCIE_COMPLETION answers it), held otherwise. -/
def portDev (s : State) (p : Packet) (a : DevAns) : State :=
  let i := 4 * a.group.val + a.port.val
  let x := rport s i
  if !(portExists s a.group.val a.port.val) || x.st == 3 then devComplete s p false 0
  else if x.st = 1 then setRport s i { x with sent := x.sent ++ [p] }
  else setRport s i { x with held := x.held ++ [(p, now s)] }

/-! ### Lines -/

/-- The outcome of an access of a hub agent: done, ended in error at an address, or not answered yet. -/
inductive HubRes where
  | ok | err | wait
  deriving DecidableEq, Repr

/-- The request of a hub agent: its stop, world, PARTID, KEYID, whether its data is marked poisoned (EP of a PCIe write). -/
structure HubReq where
  st : StopId
  world : Bool
  partid : Nat
  keyid : Nat
  ep : Bool := false
  deriving DecidableEq, Repr

/-- Whether an access reaches a device, and how it ends there: the hub's filter, then the root port that claims it (R403, R495). -/
def hubDevice (s : State) (r : HubReq) (pa : Nat) (wr : Bool) (a : DevAns) : HubRes :=
  let x := rport s (4 * a.group.val + a.port.val)
  if !(worldAllows s r.world pa ⟨!wr, wr⟩) then .err
  else if !(portExists s a.group.val a.port.val) || x.st == 3 then .err
  else if x.st = 1 then (if a.ok then .ok else .err)
  else .wait

/-- Whether an address lies in the PCIe slot of this package, or in the low device window of package 0. -/
def isOwnSlot (s : State) (pa : Nat) : Bool :=
  match paKind s pa with
  | .pcie p _ => p == s.pkg
  | .lowDev _ => s.pkg == 0
  | _ => false

/-- A request of a hub agent at its line's home, run to rest: its final answer, if it has come. -/
def hubTransact (s : State) (m : Packet) (f : Findings) : Option Packet × State :=
  let (tx, s) := newTxid s
  let m := { m with txid := tx, dst := lineStop s (pLine m) }
  let s := transact s m f
  match takeAny (fun p => p.txid == tx && p.dst == m.src &&
      (p.cmd == .rdRsp || p.cmd == .wrCmp || p.cmd == .farRsp || p.cmd == .errRsp)) s with
  | some (p, s) => (some p, s)
  | none => (none, s)

/-- How many writes of a request's line its agent's command has made through homes that did not answer at once. -/
def hubNth (s : State) (m : Packet) : Nat :=
  (s.hubTx.filter (fun x => x.used && x.req.src == m.src && pLine x.req == pLine m && x.req.cmd != .rdc)).length

/-- A request joins those that wait; it leaves when the command under way ends (`hubEnd`). -/
def hubNote (s : State) (m : Packet) : State := { s with hubTx := s.hubTx ++ [{ req := m, nth := hubNth s m }] }

/-- A request of a hub agent without the hub I/O cache (R220, R304): its home's answer, which the command under way has already asked
for, or gets at once, or must wait for. -/
def hubAccess (s : State) (m : Packet) (f : Findings) : HubRes × LineData × State :=
  let mine := fun (x : HubAsk) => x.req == m && x.nth == hubNth s m
  match s.hubTx.find? mine with
  | some x =>
    let s1 := { s with hubTx := s.hubTx.map (fun y => if mine y then { y with used := true } else y) }
    (match x.ans with
     | none => (.wait, 0, s)
     | some none => (.err, 0, s1)
     | some (some d) => (.ok, d, s1))
  | none =>
    if isLocalMem s m.addr then
      match hubTransact s m f with
      | (some p, s1) => (if p.cmd = .errRsp ∨ p.poison then .err else .ok, p.data, s1)
      | (none, _) => (.wait, 0, hubNote s m)
    else (.wait, 0, hubNote s m)

/-- A request packet of a hub agent: RDC and WRC in class B, the others in class Q (R313). -/
def hubPacket (c : Cmd) (r : HubReq) (addr : Nat) : Packet :=
  { cmd := c, src := r.st, dst := r.st, cls := if c = .rdc ∨ c = .wrc then .b else .q, world := r.world, partid := r.partid,
    keyid := r.keyid, addr := addr, holder := 0xFE }

/-! ### The hub I/O cache as its own agents use it (R273, R288) -/

/-- What an own load finds in the hub I/O cache: the line, an error of its request, or a line in a transaction; none where the line is
not there. -/
def hioLook (s : State) (line : Nat) : Option (HubRes × LineData × State) :=
  let x := hline s 0xF0 line
  if validSt x.st then some (if x.poison then .err else .ok, x.data, s)
  else if x.err then some (.err, 0, setHline s 0xF0 line {})
  else if transSt x.st then some (.wait, 0, s)
  else none

/-- Whether the hub sends its traffic without the hub I/O cache: while its domain is OFF (R549), or the hub has fenced it (R301). -/
def hioOut (s : State) : Bool := domState s 0x1AA == 3 || fencedAtHub s 0xF0

/-- Whether the hub I/O cache must first come back to RUN. -/
def hioAsleep (s : State) : Bool := !(hioOut s) && domState s 0x1AA != 0

/-- The hub I/O cache asks for a line (R288); none where it can take no line, or its domain is not in RUN. -/
def hioFetch (s : State) (c : Cmd) (line : Nat) (a : Attr) (f : Findings) : Option State :=
  if domState s 0x1AA ≠ 0 then none
  else
    (if c = .upg then some s else hioPlace s line).map (fun s =>
      let (p, s) := issueReq s 0xF0 line c a
      runReq s p f)

/-- A request of the hub I/O cache that was not answered at once is made when the command under way ends. -/
def hioNote (s : State) (c : Cmd) (r : HubReq) (line : Nat) : State := hubNote s { hubPacket c r (line * 64) with holder := 0xF0 }

/-- The attributes of a hub agent's request. -/
def hubAttr (r : HubReq) : Attr := ⟨r.world, r.partid, r.keyid⟩

/-- A line of memory read by a hub agent: through the hub I/O cache where it can take the line, else by RDC. -/
def hubReadMem (s : State) (r : HubReq) (line : Nat) (f : Findings) : HubRes × LineData × State :=
  if hioOut s then hubAccess s (hubPacket .rdc r (line * 64)) f
  else if hioAsleep s then (.wait, 0, hioNote s .rds r line)
  else
  let s1 := worldEvict s 0xF0 line r.world
  match hioLook s1 line with
  | some x => x
  | none =>
    match hioFetch s1 .rds line (hubAttr r) f with
    | none => hubAccess s1 (hubPacket .rdc r (line * 64)) f
    | some s2 =>
      match hioLook s2 line with
      | some (.wait, _, _) => (.wait, 0, hioNote s1 .rds r line)
      | some x => x
      | none => (.wait, 0, hioNote s1 .rds r line)

/-- A store of a hub agent into a line the hub I/O cache holds in M or E (R288). -/
def hioStore (s : State) (line mask : Nat) (d : LineData) : State :=
  let x := hline s 0xF0 line
  breakResv (setHline s 0xF0 line { x with st := .m, data := lineMerge x.data d mask }) 0xFE (line * 64) 64

/-- Bytes of a line of memory written by a hub agent: a whole line, or one with EP, by WRC (R573); a part through the hub I/O cache
where it can take the line. -/
def hubWriteMem (s : State) (r : HubReq) (line mask : Nat) (d : LineData) (f : Findings) : HubRes × State :=
  let wrc := fun (s : State) =>
    let x := hubAccess s { hubPacket .wrc r (line * 64) with mask := mask, data := d, poison := r.ep } f
    (x.1, x.2.2)
  if mask = 2 ^ 64 - 1 ∨ r.ep ∨ hioOut s then wrc s
  else if hioAsleep s then (.wait, hioNote s .rdx r line)
  else
    let s1 := worldEvict s 0xF0 line r.world
    let x := hline s1 0xF0 line
    if x.st = .m ∨ x.st = .e then (.ok, hioStore s1 line mask d)
    else if x.err then (.err, setHline s1 0xF0 line {})
    else if transSt x.st then (.wait, s1)
    else
      let c : Cmd := if validSt x.st then .upg else .rdx
      match hioFetch s1 c line (hubAttr r) f with
      | none => wrc s1
      | some s2 =>
        let y := hline s2 0xF0 line
        if y.st = .m then (.ok, hioStore s2 line mask d)
        else if y.err then (.err, setHline s2 0xF0 line { y with err := false })
        else (.wait, hioNote s1 c r line)

/-- A line read by a hub agent (R220): an error for poison, a refusal, or a hole. What a device answers is free. -/
def hubRead (s : State) (r : HubReq) (pa : Nat) (f : Findings) (a : DevAns) : HubRes × LineData × State :=
  if isLocalMem s pa || isRemoteMem s pa then hubReadMem s r (pa / 64) f
  else if isOwnSlot s pa then
    let d := hubDevice s r pa false a
    if d = .ok then (let (x, s') := freeLine s; (.ok, x, s')) else (d, 0, s)
  else (.err, 0, s)

/-- Bytes of a line written by a hub agent under a mask (R220, R573). -/
def hubWrite (s : State) (r : HubReq) (pa mask : Nat) (d : LineData) (f : Findings) (a : DevAns) : HubRes × State :=
  if isLocalMem s pa || isRemoteMem s pa then hubWriteMem s r (pa / 64) mask d f
  else if isOwnSlot s pa then (hubDevice s r pa true a, s)
  else (.err, s)

/-- A far atomic of a hub agent on 4 or 8 bytes of memory (R294, R401): how it ended, the old value. -/
def hubFar (s : State) (r : HubReq) (pa aop size : Nat) (x c : Word) (f : Findings) : HubRes × Word × State :=
  if !(isLocalMem s pa) && !(isRemoteMem s pa) then (.err, 0, s)
  else
    let (res, d, s) := hubAccess s { hubPacket .far r pa with aop := aop, size := size, opnd := x, cmp := c } f
    (res, BitVec.ofNat 64 (d.toNat % 2 ^ (8 * size)), s)

/-! ### Waiting for homes -/

/-- The command under way has to wait for a home: it has no effect but its requests. -/
def hubPause (s0 s1 : State) : State := { s0 with hubTx := s0.hubTx ++ s1.hubTx.drop s0.hubTx.length }

/-- What an operation gives: its state when it could be done, else only its requests. -/
def orPause (s0 : State) (r : Bool × State) : State := if r.1 then r.2 else hubPause s0 r.2

/-- A request that waits leaves its agent: the hub I/O cache's own, unless the line is on its way already or the cache
must wake first (R332), or one without cache. -/
def hubSend (s : State) (x : HubAsk) : State :=
  let m := x.req
  if m.holder = 0xF0 then
    if hioAsleep s then wakeDom s 0x1AA
    else if transSt (hline s 0xF0 (pLine m)).st then s
    else (hioFetch s m.cmd (pLine m) ⟨m.world, m.partid, m.keyid⟩ {}).getD s
  else
    let (tx, s) := newTxid s
    let s := { addOutst s { stop := m.src, txid := tx, cmd := m.cmd, addr := m.addr, since := now s } with
      hubTx := s.hubTx ++ [{ x with txid := some tx }] }
    if isLocalMem s m.addr then transact s { m with txid := tx, dst := lineStop s (pLine m) } {}
    else sendOut s { m with txid := tx }

/-- A command of hub agents ends: answers it has used are forgotten, with those of the same agents that no command used, and the
requests it could not make at once leave. -/
def hubEnd (s : State) : State :=
  let stops := (s.hubTx.filter (·.used)).map (fun x => x.req.src)
  let keep := s.hubTx.filter (fun x => !x.used && x.txid.isSome && !(x.ans.isSome && stops.contains x.req.src))
  (s.hubTx.filter (fun x => !x.used && x.txid.isNone)).foldl hubSend { s with hubTx := keep }

/-- The outcome of a command in which hub agents may reach memory. -/
def hubOk (s : State) : Host.Outcome State Fault Refusal := ok (hubEnd s)

/-! ### Bytes -/

/-- n bytes at a physical address, line by line: how it ended, the bytes read before that. -/
def hubReadBytes (r : HubReq) (f : Findings) (a : DevAns) : Nat → Nat → State → HubRes × List Byte × State
  | 0, _, s => (.ok, [], s)
  | n + 1, pa, s =>
    match hubRead s r pa f a with
    | (.ok, d, s) =>
      let (res, bs, s) := hubReadBytes r f a n (pa + 1) s
      (res, lineByte d (pa % 64) :: bs, s)
    | (res, _, s) => (res, [], s)

/-- Bytes written at a physical address in ascending order, one request for each line: how it ended, how many were written. -/
def hubWriteBytes (r : HubReq) (f : Findings) (a : DevAns) : Nat → Nat → List Byte → State → HubRes × Nat × State
  | 0, _, _, s => (.ok, 0, s)
  | _ + 1, _, [], s => (.ok, 0, s)
  | fuel + 1, pa, b :: bs, s =>
    let n := min (64 - pa % 64) (bs.length + 1)
    let part := (b :: bs).take n
    match hubWrite s r pa (byteMask (pa % 64) n) (linePut 0 (pa % 64) n (ofBytesLE part)) f a with
    | (.ok, s) =>
      let (res, k, s) := hubWriteBytes r f a fuel (pa + n) ((b :: bs).drop n) s
      (res, n + k, s)
    | (res, s) => (res, 0, s)

/-! ### Shares (R424 to R455) -/

/-- A share's record. -/
def share (s : State) (n : Nat) : Share := tget {} n s.shares

/-- A share's record replaced. -/
def setShare (s : State) (n : Nat) (x : Share) : State := { s with shares := tset {} n x s.shares }

/-- SHSTATEn.STATE: 0 FREE, 1 READY, 2 ENABLED, 3 SHUTTING. -/
def shState (s : State) (n : Nat) : Nat := rgF s .shstate n 2 0

/-- Whether a share was created with SOWN = 1. -/
def shSown (s : State) (n : Nat) : Bool := rgF s .shstate n 23 23 == 1

/-- What an address of a share gives: a physical address and its KEYID, a fault code of R207, or nothing yet. -/
inductive HubXl where
  | pa (a k : Nat)
  | fault (code : Nat)
  | wait
  deriving DecidableEq, Repr

/-- The stage-2 walk of a share's address; the lines of tables that are not at hand are read as the hub's other data (R220). -/
def hubWalk (r : HubReq) (t : TlbTag) (tlb : List TlbEntry) (ipa lv tbl : Nat) :
    Nat → List Fill → State → ((Leaf × List TlbEntry) ⊕ XFault) × State
  | 0, _, s => (.inr { rank := 9, code := 0, need := some 0 }, s)
  | fuel + 1, sv, s =>
    match walk2 s sv tlb t 0 ipa 6 lv tbl [] with
    | .inl x => (.inl x, s)
    | .inr f =>
      if f.need.isNone then (.inr f, s)
      else
        match hubReadMem s r (f.ephys / 64) {} with
        | (.wait, _, s) => (.inr f, s)
        | (.err, _, s) =>
          let x := hline s 0xF0 (f.ephys / 64)
          let bad := validSt x.st && x.poison
          hubWalk r t tlb ipa lv tbl fuel ({ line := f.ephys / 64, data := 0, poison := bad, err := !bad } :: sv) s
        | (.ok, d, s) => hubWalk r t tlb ipa lv tbl fuel ({ line := f.ephys / 64, data := d } :: sv) s

/-- Translation of a share's address (R441) by the agent at a stop: stage 2 with the share's VMID, tables read with KEYID 0, A and D not
set by hardware (DEDUCED, log entry 26). -/
def hubXlate (s : State) (n : Nat) (st : StopId) (ipa : Nat) (wr fresh : Bool) : HubXl × State :=
  let h := share s n
  if !h.s2en then ((if ipa < 2 ^ 52 then .pa ipa 0 else .fault 0x02), s)
  else if ipa ≥ 2 ^ 52 ∨ (!h.lv5 ∧ ipa ≥ 2 ^ 48) then (.fault 0x02, s)
  else
    let t : TlbTag := ⟨shSown s n, 1, 2, h.vmid, 0⟩
    let r : HubReq := { st := st, world := shSown s n, partid := rgF s .shstate n 19 16, keyid := 0 }
    match hubWalk r t (if fresh then [] else s.hubTlb) ipa (if h.lv5 then 0 else 1) (h.s2base * 4096) 8 [] s with
    | (.inr f, s) => (if f.need.isSome then .wait else .fault f.code, s)
    | (.inl (l, cache), s) =>
      if !(bit l.e 7) then (.fault 0x05, s)
      else match s2Perm false l.e (if wr then .write else .read) with
        | some (_, code) => (.fault code, s)
        | none =>
          let old := s.hubTlb.filter (fun y => !(cache.any (fun x => x.world == y.world && x.vmid == y.vmid && x.lv == y.lv && x.idx == y.idx)))
          (.pa (leafOut l ipa) (fld l.e 62 52), { s with hubTlb := cache ++ old })

/-- How an access of a share's engine ends: done, XLATE_FAULT with code and IPA, DATA_ERROR with the address, not yet. -/
inductive ShRes where
  | ok
  | xlate (code ipa : Nat)
  | data (pa : Nat)
  | wait
  deriving DecidableEq, Repr

/-- The request of an engine of share n at stop st under a KEYID (R442). -/
def shReq (s : State) (n : Nat) (st : StopId) (k : Nat) : HubReq :=
  { st := st, world := shSown s n, partid := rgF s .shstate n 19 16, keyid := k }

/-- Bytes left in the 4 KiB page of an address. -/
def pageLeft (a : Nat) : Nat := 4096 - a % 4096

/-- len bytes of share n from IPA on: how it ended, the bytes before that. -/
def shRead (n : Nat) (st : StopId) (i : EngIn) (a : DevAns) : Nat → Nat → Nat → State → ShRes × List Byte × State
  | 0, _, _, s => (.ok, [], s)
  | fuel + 1, len, ipa, s =>
    if len = 0 then (.ok, [], s)
    else
      match hubXlate s n st ipa false i.fresh with
      | (.fault code, s) => (.xlate code ipa, [], s)
      | (.wait, s) => (.wait, [], s)
      | (.pa pa k, s) =>
        let m := min len (pageLeft ipa)
        match hubReadBytes (shReq s n st k) i.f a m pa s with
        | (.ok, bs, s) =>
          let (res, rest, s) := shRead n st i a fuel (len - m) (ipa + m) s
          (res, bs ++ rest, s)
        | (.err, bs, s) => (.data (pa + bs.length), bs, s)
        | (.wait, bs, s) => (.wait, bs, s)

/-- Bytes written for share n from IPA on: how it ended, how many were written before that. -/
def shWrite (n : Nat) (st : StopId) (i : EngIn) (a : DevAns) : Nat → List Byte → Nat → State → ShRes × Nat × State
  | 0, _, _, s => (.ok, 0, s)
  | fuel + 1, bs, ipa, s =>
    if bs.isEmpty then (.ok, 0, s)
    else
      match hubXlate s n st ipa true i.fresh with
      | (.fault code, s) => (.xlate code ipa, 0, s)
      | (.wait, s) => (.wait, 0, s)
      | (.pa pa k, s) =>
        let m := min bs.length (pageLeft ipa)
        match hubWriteBytes (shReq s n st k) i.f a m pa (bs.take m) s with
        | (.ok, _, s) =>
          let (res, c, s) := shWrite n st i a fuel (bs.drop m) (ipa + m) s
          (res, m + c, s)
        | (.err, c, s) => (.data (pa + c), c, s)
        | (.wait, c, s) => (.wait, c, s)

/-- shRead of a buffer. -/
def shReadBuf (s : State) (n : Nat) (st : StopId) (i : EngIn) (a : DevAns) (ipa len : Nat) : ShRes × List Byte × State :=
  shRead n st i a (len + 1) len ipa s

/-- shWrite of a buffer. -/
def shWriteBuf (s : State) (n : Nat) (st : StopId) (i : EngIn) (a : DevAns) (ipa : Nat) (bs : List Byte) : ShRes × Nat × State :=
  shWrite n st i a (bs.length + 1) bs ipa s

/-! ### Message-signalled vectors (R527 to R532) -/

/-- A vector is raised (R520, R527, R532): posted when POST is 1, else its PEND is set. -/
def raiseVec (s : State) (v : Nat) : State :=
  if bit (rg s .msictl v) 30 then postTo s (rgF s .msipost v 51 8 * 256) (rgF s .msipost v 63 54)
  else setRgF s .msictl v 1 1 1

/-- A raise is dropped and counted (R528, R529). -/
def msiDrop (s : State) : State := incRgF s .icstat 0 31 0

/-- An inbound MSI or MSI-X write (R529): the requester's routing ID, whether it is secure, the 4 bytes. -/
def msiWrite (s : State) (rid : Nat) (sec : Bool) (x : Nat) : State :=
  let v := x % 0x8000
  let c := rg s .msictl v
  if x ≥ 0x8000 ∨ bit c 0 = false ∨ (vecShare s v).isSome ∨ (bit c 47 ∧ rgF s .msictl v 63 48 ≠ rid) ∨
      (!sec ∧ vecSec s v) then msiDrop s
  else raiseVec s v

end Sys2Proof.Machine
end

