-- ==== Sys2Proof/Machine/Shares.lean ====
section
/-! DEFINITION. Queue pairs and shares (R428 to R442, R446 to R456): doorbells, descriptors, completion records, pools, the share
commands and shut-downs. -/
namespace Sys2Proof.Machine

open Sys2Proof

/-! ### Queues -/

/-- A queue. -/
def queue (s : State) (q : Nat) : Queue := tget {} q s.queues

/-- A queue replaced. -/
def setQueue (s : State) (q : Nat) (x : Queue) : State := { s with queues := tset {} q x s.queues }

/-- QSTAT.QSTATE: 0 OFF, 1 RUN, 2 STOPPED, 3 CLOSING, 4 ERROR. -/
def qState (s : State) (q : Nat) : Nat := rgF s .qstat q 2 0

/-- QSTAT.QSTATE set. -/
def setQState (s : State) (q x : Nat) : State := setRgF s .qstat q 2 0 x

/-- QSTAT.KIND: 0 unbound, 1 LADLE, 2 CIPHER, 3 ETH_TX, 4 ETH_RX. -/
def qKind (s : State) (q : Nat) : Nat := rgF s .qstat q 9 7

/-- The share that holds a queue (R446). -/
def queueShare (s : State) (q : Nat) : Option Nat :=
  (s.shares.find? (fun p => decide (p.2.qp0 ≤ q) && decide (q < p.2.qp0 + p.2.nqp))).map (·.1)

/-- The queues of a share. -/
def shareQueues (s : State) (n : Nat) : List Nat := (List.range (share s n).nqp).map (fun i => (share s n).qp0 + i)

/-- The size of the submission ring. -/
def sqSize (s : State) (q : Nat) : Nat := 2 ^ rgF s .qcfg q 12 8

/-- The size of the completion ring. -/
def cqSize (s : State) (q : Nat) : Nat := 2 ^ rgF s .qcfg q 20 16

/-- Records written that software has not freed (R433, R439). -/
def cqHeld (s : State) (q : Nat) : Nat := (rgF s .qstat q 47 32 + cqSize s q - (queue s q).cqHead) % cqSize s q

/-- Whether a record slot can be reserved (R433). -/
def cqRoom (s : State) (q : Nat) : Bool := decide (cqHeld s q + (queue s q).items.length + 1 < cqSize s q)

/-- CQFULL follows the room (R433). -/
def setCqFull (s : State) (q : Nat) : State :=
  setRgF s .qstat q 10 10 (!(cqRoom s q) && qState s q == 1 && rgF s .qstat q 63 48 != (queue s q).tail).toNat

/-- A refused doorbell (R438, R439). -/
def dbErr (s : State) (q : Nat) : State := incRgF s .qstat q 31 24

/-- A Ladle or Ethernet domain in HOLD or BANK is woken on demand by a doorbell (R332, R549). -/
def wakeFor (s : State) (q : Nat) : State :=
  let d := if qKind s q = 1 then 0x1A8 else if qKind s q = 3 ∨ qKind s q = 4 then 0x1A9 else 0
  if d = 0 then s else wakeDom s d

/-- A write of SQDB (R437, R438). -/
def sqdbWrite (s : State) (q x : Nat) : State :=
  if x ≥ sqSize s q ∨ qState s q = 0 ∨ qState s q = 4 then dbErr s q
  else setCqFull (wakeFor (setQueue s q { queue s q with tail := x }) q) q

/-- A write of CQDB (R438, R439). -/
def cqdbWrite (s : State) (q x : Nat) : State :=
  if x ≥ cqSize s q ∨ qState s q = 0 ∨ qState s q = 4 then dbErr s q
  else if (x + cqSize s q - (queue s q).cqHead) % cqSize s q > cqHeld s q then dbErr s q
  else setCqFull (wakeFor (setQueue s q { queue s q with cqHead := x }) q) q

/-- SQDB (R437). -/
def execSqdb (_by : By) (q : QueueId) (x : BitVec 16) (s : State) : Host.Outcome State Fault Refusal := ok (sqdbWrite s q.val x.toNat)
/-- CQDB (R439). -/
def execCqdb (_by : By) (q : QueueId) (x : BitVec 16) (s : State) : Host.Outcome State Fault Refusal := ok (cqdbWrite s q.val x.toNat)

/-- A queue with nothing left to complete goes OFF (R430). -/
def tryClose (s : State) (q : Nat) : State :=
  if qState s q = 3 ∧ (queue s q).items.isEmpty then setQState (setRgF s .qcfg q 0 0 0) q 0 else s

/-- QCFG.EN = 1 (R429): no effect on an unbound queue or one of a FREE share, nor while EN is already 1 (DEDUCED, log entry 27). -/
def queueEnable (s : State) (q : Nat) (v : Word) : State :=
  if rgF s .qcfg q 0 0 = 1 then s
  else
    match queueShare s q with
    | none => s
    | some n =>
      if qKind s q = 0 ∨ shState s n = 0 then s
      else
        let cq := fld v 20 16
        let sq := fld v 12 8
        let s := if 4 ≤ cq ∧ cq ≤ 16 then setRgF s .qcfg q 20 16 cq else s
        let s := if 4 ≤ sq ∧ sq ≤ 16 then setRgF s .qcfg q 12 8 sq else s
        let s := setQueue s q { share := some n, target := (queue s q).target }
        let s := setRgF (setRgF (setRgF s .qstat q 63 48 0) .qstat q 47 32 0) .qstat q 11 10 2
        setQState (setRgF s .qcfg q 0 0 1) q (if shState s n = 2 then 1 else 2)

/-- QCFG.EN = 0 (R430, R431): the queue drains, then goes OFF. -/
def queueDisable (s : State) (q : Nat) : State :=
  if rgF s .qcfg q 0 0 = 0 ∨ qState s q = 3 then s
  else tryClose (setQueue (setQState s q 3) q { queue s q with closeAt := now s }) q

/-- QUEUE_ENABLE (R429). -/
def execQueueEnable (_by : By) (q : QueueId) (v : Word) (s : State) : Host.Outcome State Fault Refusal := ok (queueEnable s q.val v)
/-- QUEUE_DISABLE (R430). -/
def execQueueDisable (_by : By) (q : QueueId) (s : State) : Host.Outcome State Fault Refusal := ok (queueDisable s q.val)

/-! ### Interrupts of a queue (R433, R528) -/

/-- The queue's interrupt is sent. -/
def queueIrq (s : State) (q : Nat) : State :=
  let s := setQueue s q { queue s q with unrep := 0, holdFrom := none }
  match queueShare s q with
  | none => s
  | some n =>
    let h := share s n
    let v := rgF s .qirq q 14 0
    if v ≥ h.nvec then msiDrop s else raiseVec s (h.vec0 + v)

/-- Whether the records of a queue raise no interrupt: its share resets or is removed (R453). -/
def quiet (s : State) (n : Nat) : Bool := shState s n == 3 && rgF s .shstate n 5 4 != 1

/-- A record was written: the interrupt leaves at once (IRQ of the descriptor, COUNT reached, HOLD 0), or is held. -/
def recordIrq (s : State) (n q : Nat) (now_ : Bool) : State :=
  if quiet s n ∨ rgF s .qirq q 15 15 = 0 then s
  else
    let x := queue s q
    let u := x.unrep + 1
    if now_ ∨ rgF s .qirq q 47 40 ≤ u ∨ rgF s .qirq q 31 16 = 0 then queueIrq s q
    else setQueue s q { x with unrep := u, holdFrom := some (x.holdFrom.getD (now s)) }

/-- QIRQ_HOLD_EXPIRY (R433). -/
def holdExpiry (s : State) (q : Nat) : State :=
  match (queue s q).holdFrom with
  | some t => if (queue s q).unrep > 0 ∧ now s ≥ t + rgF s .qirq q 31 16 * 1000 then queueIrq s q else s
  | none => s

/-- QIRQ_HOLD_EXPIRY (R433). -/
def execQirqHoldExpiry (q : QueueId) (s : State) : Host.Outcome State Fault Refusal := ok (holdExpiry s q.val)

/-! ### Descriptors and records (R432 to R436) -/

/-- Field [hi:lo] of a descriptor. -/
def dF (d : LineData) (hi lo : Nat) : Nat := (d.toNat >>> lo) % 2 ^ (hi + 1 - lo)

/-- OP of a descriptor. -/
def dOp (d : LineData) : Nat := dF d 7 0

/-- EFLAGS of a descriptor. -/
def dFlags (d : LineData) : Nat := dF d 31 16

/-- The n bytes of a descriptor from a byte on. -/
def dB (d : LineData) (off n : Nat) : Nat := lineGet d off n

/-- The stop of a kind's engine (R309): the Ladle engines, the cipher clusters, the Ethernet controllers. -/
def kindStop (kind : Nat) : StopId := if kind = 1 then ⟨12, 16⟩ else if kind = 2 then ⟨12, 12⟩ else ⟨12, 23⟩

/-- What a completion record reports. -/
structure RecOut where
  status : Nat
  r0 : Word := 0
  r1 : Word := 0
  time : Option Word := none
  deriving DecidableEq, Repr

/-- The 32 bytes of a record (R433). -/
def recordBytes (s : State) (q : Nat) (it : Item) (o : RecOut) : List Byte :=
  bytesLE 8 (dF it.desc 63 32 * 2 ^ 32 + it.sqidx * 2 ^ 16 + o.status % 256 * 2 ^ 8 + rgF s .qstat q 11 11) ++
  bytesLE 8 o.r0.toNat ++ bytesLE 8 o.r1.toNat ++ bytesLE 8 (o.time.getD s.ptime).toNat

/-- A queue whose record cannot be written enters ERROR (R431): its accepted items are squashed with no records. -/
def queueError (s : State) (q : Nat) : State :=
  raiseSrc (setQState (setQueue s q { queue s q with items := [], frame := [] }) q 4) 914

/-- The item of an index leaves its queue. -/
def dropItem (s : State) (q idx : Nat) : State :=
  setQueue s q { queue s q with items := (queue s q).items.filter (fun i => i.sqidx != idx) }

/-- The counts of a shut-down (SHSTATE). -/
def countDrain (s : State) (n : Nat) (squashed : Bool) : State :=
  if shState s n = 3 then (if squashed then incRgF s .shstate n 47 32 else incRgF s .shstate n 63 48) else s

/-- The completion record of an item is written and the item is complete (R231, R433, R434); false when the write has no answer
yet, with the requests it made. -/
def writeRecord (s : State) (n q : Nat) (it : Item) (o : RecOut) (i : EngIn) : Bool × State :=
  let t := rgF s .qstat q 47 32
  let ipa := rgF s .cqbase q 51 12 * 4096 + t * 32
  match shWriteBuf s n (kindStop (qKind s q)) i i.dst ipa (recordBytes s q it o) with
  | (.wait, _, s1) => (false, hubPause s s1)
  | (.ok, _, s) =>
    let s := dropItem s q it.sqidx
    let t' := (t + 1) % cqSize s q
    let s := setRgF s .qstat q 47 32 t'
    let s := if t' = 0 then setRgF s .qstat q 11 11 (1 - rgF s .qstat q 11 11) else s
    let s := countDrain s n (o.status == 4)
    (true, tryClose (recordIrq s n q (dF it.desc 11 11 == 1)) q)
  | (_, _, s) => (true, queueError s q)

/-- The record that a fault of an access ends in (R436). -/
def resRecord (r : ShRes) (done : Nat) : RecOut :=
  match r with
  | .xlate code ipa => { status := 2, r0 := BitVec.ofNat 64 code, r1 := BitVec.ofNat 64 ipa }
  | .data pa => { status := 3, r0 := BitVec.ofNat 64 done, r1 := BitVec.ofNat 64 pa }
  | _ => { status := 0, r0 := BitVec.ofNat 64 done }

/-- FENCE of a descriptor: it waits for the earlier items of its queue (R432, R480). -/
def dFence (d : LineData) : Bool := dF d 12 12 == 1

/-- The item of a cipher queue that was refused as it was read and whose record is due (R480). -/
def badDue (s : State) (q : Nat) : Option Item :=
  match (queue s q).items with
  | [] => none
  | it :: its => if it.bad.isSome then some it else its.find? (fun i => i.bad.isSome && !dFence i.desc)

/-- Items of a cipher queue that were refused as they were read complete (R480). -/
def flushCipher (n q : Nat) (i : EngIn) : Nat → State → State
  | 0, s => s
  | fuel + 1, s =>
    match badDue s q with
    | some it =>
      match it.bad with
      | some (st, r0, r1) =>
        match writeRecord s n q it { status := st, r0 := r0, r1 := r1 } i with
        | (true, s) => flushCipher n q i fuel s
        | (false, s) => s
      | none => s
    | none => s

/-- Items that were refused as they were read complete in their turn. -/
def flushInTurn (n q : Nat) (i : EngIn) : Nat → State → State
  | 0, s => s
  | fuel + 1, s =>
    match (queue s q).items with
    | it :: _ =>
      match it.bad with
      | some (st, r0, r1) =>
        match writeRecord s n q it { status := st, r0 := r0, r1 := r1 } i with
        | (true, s) => flushInTurn n q i fuel s
        | (false, s) => s
      | none => s
    | [] => s

/-- Items that were refused as they were read complete: in their turn, or in a cipher queue as R480 gives. -/
def flushBad (n q : Nat) (i : EngIn) (fuel : Nat) (s : State) : State :=
  if qKind s q = 2 then flushCipher n q i fuel s else flushInTurn n q i fuel s

/-- An item ends with its record, then those refused behind it; without an answer the whole step has not happened. -/
def finishItem (s0 s : State) (n q : Nat) (it : Item) (o : RecOut) (i : EngIn) : State :=
  match writeRecord s n q it o i with
  | (true, s) => flushBad n q i (queue s q).items.length s
  | (false, s) => hubPause s0 s

/-- Whether a descriptor of a Ladle queue is well formed (R443). -/
def ladleGood (d : LineData) : Bool :=
  decide (1 ≤ dOp d) && decide (dOp d ≤ 5) && dFlags d == 0 && dB d 28 4 == 0 && dB d 40 24 == 0

/-- Whether a descriptor of an Ethernet transmit queue is well formed (R444). -/
def ethTxGood (d : LineData) : Bool :=
  dOp d == 0x10 && decide (dFlags d < 32) && dB d 26 38 == 0 &&
  decide (dB d 16 4 ≤ 262144) && (!((dFlags d).testBit 3) || dB d 24 2 != 0)

/-- Whether a descriptor of an Ethernet receive queue is well formed (R444). -/
def ethRxGood (d : LineData) : Bool :=
  dOp d == 0x20 && dFlags d == 0 && decide (2048 ≤ dB d 16 4) && decide (dB d 16 4 ≤ 16384) && dB d 20 44 == 0

/-- Whether a session configuration is in range (R463, R466). -/
def cfgGood (v : Word) : Bool :=
  let mode := fld v 2 0
  let nlen := fld v 23 20
  let tag := fld v 19 15
  fld v 63 24 == 0 && fld v 14 10 == 0 && fld v 7 6 != 3 && fld v 5 4 != 3 && fld v 3 3 == 0 && mode != 7 &&
  !(mode == 6 && fld v 5 4 == 1) &&
  (if mode = 4 then decide (7 ≤ nlen) && decide (nlen ≤ 13) else nlen == 0) &&
  (if mode = 3 then tag == 4 || tag == 8 || (decide (12 ≤ tag) && decide (tag ≤ 16))
   else if mode = 4 then decide (4 ≤ tag) && decide (tag ≤ 16) && tag % 2 == 0
   else if mode = 5 then decide (4 ≤ tag) && decide (tag ≤ 16)
   else tag == 0)

/-- The key bytes a configuration takes (R466). -/
def cfgKeyLen (v : Word) : Nat := (16 + 8 * fld v 5 4) * (if fld v 2 0 = 6 then 2 else 1)

/-- CFG of a session descriptor. -/
def dCfg (d : LineData) : Word := BitVec.ofNat 64 (dB d 40 8)

/-- Whether a cipher descriptor is well formed by itself (R459, R460, R465, R466); `mask` is FEATURES.CMASK (R635). -/
def cipherGood (mask : Bool) (d : LineData) : Bool :=
  let op := dOp d
  if op = 0x30 ∨ op = 0x31 ∨ op = 0x32 ∨ op = 0x33 then
    dFlags d == 0 && dB d 31 1 == 0 && dB d 44 4 == 0 && (decide (op < 0x32) || dB d 16 8 == 0)
  else if op = 0x38 then
    decide (dFlags d < 2) && dB d 16 8 == 0 && dB d 31 1 == 0 && dB d 48 16 == 0 && (dFlags d == 1 || dB d 32 8 == 0) &&
    cfgGood (dCfg d) && (mask || decide (fld (dCfg d) 9 8 < 2)) && dB d 24 4 == cfgKeyLen (dCfg d) + 8 * dFlags d
  else if op = 0x39 then
    dFlags d == 0 && dB d 8 20 == 0 && dB d 31 1 == 0 && dB d 32 32 == 0
  else if op = 0x3A then
    let n := dB d 24 4
    dFlags d == 0 && (n == 16 || n == 24 || n == 32 || n == 48 || n == 64) && dB d 28 4 == 0 && dB d 40 24 == 0
  else false

/-- Whether the header's reserved bits are 0 and the kind's own fields are in range (R432, R436); the limits of a session's mode are
judged as its message starts. -/
def descGood (mask : Bool) (kind : Nat) (d : LineData) : Bool :=
  dF d 15 13 == 0 && dF d 10 10 == 0 &&
  (if kind = 1 then ladleGood d else if kind = 2 then cipherGood mask d else if kind = 3 then ethTxGood d
   else if kind = 4 then ethRxGood d else false)

/-- Cipher descriptors accepted, over every queue of the package (R458). -/
def cipherHeld (s : State) : Nat := (s.queues.map (fun p => if qKind s p.1 = 2 then p.2.items.length else 0)).sum

/-- DESCRIPTOR_FETCH (R427, R433, R437, R440, R458, R553: none while the package enters BANK or ANNEAL): the engine reads the descriptor at SQHEAD, which is accepted. -/
def fetchDesc (s : State) (q : Nat) (i : EngIn) : State :=
  match queueShare s q with
  | none => s
  | some n =>
    let x := queue s q
    let head := rgF s .qstat q 63 48
    if qState s q ≠ 1 ∨ shState s n ≠ 2 ∨ !((share s n).bme) ∨ head = x.tail ∨ rgF s .pkgstat 0 10 8 > 1 then s
    else if !(cqRoom s q) then setRgF s .qstat q 10 10 1
    else if qKind s q = 2 ∧ cipherHeld s ≥ 4096 then s
    else
      let ipa := rgF s .sqbase q 51 12 * 4096 + head * 64
      let (res, bs, s') := shReadBuf s n (kindStop (qKind s q)) i i.src ipa 64
      let item : Option Item := match res with
        | .wait => none
        | .ok =>
          let d := ofLineBytes bs
          some { sqidx := head, desc := d, bad := if descGood (bitOf s.features 2) (qKind s q) d then none else some (1, 0, 0) }
        | r => let o := resRecord r 0; some { sqidx := head, desc := 0, bad := some (o.status, o.r0, o.r1) }
      match item with
      | none => hubPause s s'
      | some it =>
        let s := setQueue s' q { queue s' q with items := (queue s' q).items ++ [{ it with seq := s'.cipSeq }] }
        let s := { s with cipSeq := s.cipSeq + 1 }
        let s := setRgF s .qstat q 63 48 ((head + 1) % sqSize s q)
        flushBad n q i (queue s q).items.length (setRgF s .qstat q 10 10 0)

/-- DESCRIPTOR_FETCH (R440). -/
def execDescriptorFetch (q : QueueId) (i : EngIn) (s : State) : Host.Outcome State Fault Refusal := hubOk (fetchDesc s q.val i)

/-- The queues with an item an engine could serve. -/
def waitingQueues (s : State) : List Nat :=
  (s.queues.filter (fun p => !p.2.items.isEmpty && qKind s p.1 != 4)).map (·.1)

/-- Whether a share's item may be served now (R447): a share without credit only when no credited share is waiting. -/
def mayServe (s : State) (n : Nat) : Bool :=
  (share s n).credits != 0 || (waitingQueues s).all (fun q => match queueShare s q with
    | some m => (share s m).credits == 0
    | none => true)

/-- Whether a domain works on what it has accepted: in RUN, or closing before its point of no return (R330). -/
def domWorks (s : State) (d : Nat) : Bool :=
  domState s d == 0 || (domState s d == 4 && (match domStop d with
    | some st => ingress s st == 1
    | none => false))

/-- The first item of a queue, ready to start, of a kind and operation; with its share. Starting a transfer needs Bus Master Enable
(R427) and the engine's domain at work (R330, R545). -/
def readyItem (s : State) (q kind op : Nat) : Option (Nat × Item) :=
  let d := if kind = 1 then 0x1A8 else 0x1A9
  if qKind s q ≠ kind ∨ !(domWorks s d) then none
  else
    match queueShare s q, (queue s q).items with
    | some n, it :: _ =>
      if it.bad.isNone ∧ dOp it.desc = op ∧ mayServe s n ∧ ((share s n).bme ∨ it.started) then some (n, it) else none
    | _, _ => none

/-! ### Pools (R446, R451) -/

/-- The sessions the pool holds (R474). -/
def sessPool (s : State) : Nat := if rgF s .ciphctl 0 0 0 = 1 then 2 ^ rgF s .ciphctl 0 12 8 else 65536

/-- The lowest start of a run of n free numbers below size. -/
def firstRun (free : Nat → Bool) (size n : Nat) : Option Nat :=
  if n = 0 then some 0 else (List.range (size + 1 - n)).find? (fun a => (List.range n).all (fun i => free (a + i)))

/-- The lowest start of a run of n numbers that meets none of the taken runs (start, length) below size: after the end of a taken
run, or at 0. -/
def firstGap (taken : List (Nat × Nat)) (size n : Nat) : Option Nat :=
  if n = 0 then some 0
  else
    let cands := 0 :: taken.map (fun t => t.1 + t.2)
    let good := fun a => decide (a + n ≤ size) && taken.all (fun t => decide (t.2 = 0) || decide (a + n ≤ t.1) || decide (t.1 + t.2 ≤ a))
    (cands.filter good).foldl (fun best a => match best with | some b => some (min a b) | none => some a) none

/-- What is taken of a pool. -/
def takenSum (s : State) (f : Share → Nat) : Nat := s.shares.foldl (fun a p => a + f p.2) 0

/-- Whether a vector is free: held by no share and not enabled (R530). -/
def vecFree (s : State) (v : Nat) : Bool := (vecShare s v).isNone && !(bit (rg s .msictl v) 0)

/-- Free vectors. -/
def vecFreeCount (s : State) : Nat := ((List.range 32768).filter (vecFree s)).length

/-- Shares in existence. -/
def shareCount (s : State) : Nat := ((List.range 4096).filter (fun n => shState s n != 0)).length

/-- POOLFREE0 as it reads (R446). -/
def poolfree0 (s : State) : Word :=
  BitVec.ofNat 64 ((16384 - takenSum s (·.nqp)) * 2 ^ 48 + (1024 - takenSum s (·.nvc)) * 2 ^ 32 +
    min 65535 (vecFreeCount s) * 2 ^ 16 + (4096 - takenSum s (·.credits)))

/-- POOLFREE1 as it reads. -/
def poolfree1 (s : State) : Word :=
  BitVec.ofNat 64 ((4096 - shareCount s) * 2 ^ 48 + (sessPool s - takenSum s (·.nsess)))

/-! ### Share commands (R449 to R455) -/

/-- The arguments of a share command: share, SOWN, PARTID and SHARG0 to 2. -/
structure ShCmd where
  n : Nat
  sown : Bool
  partid : Nat
  a0 : Word
  a1 : Word
  a2 : Word
  deriving DecidableEq, Repr

/-- What a share command answers: STATUS, SHRES0 and SHRES1. -/
structure ShAns where
  status : Nat
  r0 : Word := 0
  r1 : Word := 0
  deriving DecidableEq, Repr

/-- CREATE (R451). -/
def shCreate (s : State) (c : ShCmd) : ShAns × State :=
  let nqp := fld c.a0 62 48
  let nvc := fld c.a0 42 32
  let nvec := fld c.a0 31 16
  let cred := fld c.a0 12 0
  let nsess := fld c.a1 24 0
  let s2en := bit c.a2 40
  let s2base := fld c.a2 39 0
  if nqp > 16384 ∨ nvc > 1024 ∨ nvec > 32768 ∨ cred > 4096 ∨ nsess > 16777216 ∨ (nvc > 0 ∧ s2en ∧ s2base = 0) then ({ status := 0x14 }, s)
  else
    match (List.range 4096).find? (fun n => shState s n == 0) with
    | none => ({ status := 0x10 }, s)
    | some n =>
      if nqp > 16384 - takenSum s (·.nqp) ∨ nvc > 1024 - takenSum s (·.nvc) ∨ nvec > vecFreeCount s ∨
          cred > 4096 - takenSum s (·.credits) ∨ nsess > sessPool s - takenSum s (·.nsess) then ({ status := 0x10 }, s)
      else
        match firstGap (s.shares.map (fun p => (p.2.qp0, p.2.nqp))) 16384 nqp, firstGap (s.shares.map (fun p => (p.2.vc0, p.2.nvc))) 1024 nvc,
            firstRun (vecFree s) 32768 nvec, firstGap (s.shares.map (fun p => (p.2.sess0, p.2.nsess))) (sessPool s) nsess with
        | some q0, some v0, some i0, some z0 =>
          let h : Share := {
            qp0 := q0, nqp := nqp, vc0 := v0, nvc := nvc, vec0 := i0, nvec := nvec, sess0 := z0, nsess := nsess,
            credits := cred, vmid := fld c.a2 63 48, lv5 := bit c.a2 41, s2en := s2en, s2base := s2base }
          let s := setShare s n h
          let s := setRg s .shstate n (BitVec.ofNat 64 (c.sown.toNat * 2 ^ 23 + c.partid % 16 * 2 ^ 16 + 1))
          ({ status := 2, r0 := BitVec.ofNat 64 (n * 2 ^ 48 + q0 * 2 ^ 32 + v0), r1 := BitVec.ofNat 64 (i0 * 2 ^ 48 + z0) }, s)
        | _, _, _, _ => ({ status := 0x11 }, s)

/-- Every queue of a share in one state takes another. -/
def moveQueues (s : State) (n from_ to_ : Nat) : State :=
  (shareQueues s n).foldl (fun s q => if qState s q = from_ then setQState s q to_ else s) s

/-- A share becomes ENABLED: its STOPPED queues become RUN (R454). -/
def shEnable (s : State) (n : Nat) : State := moveQueues (setRgF s .shstate n 2 0 2) n 2 1

/-- A shut-down begins (R453): kind 1 DISABLE, 2 RESET, 3 REMOVE. -/
def startShut (s : State) (n kind : Nat) : State :=
  let was := shState s n == 2
  let s := setRgF (setRgF s .shstate n 5 4 kind) .shstate n 2 0 3
  let s := setRgF s .shstate n 63 32 0
  setShare (moveQueues s n 1 2) n { share s n with wasEnabled := was, sdAt := now s }

/-- ENABLE, DISABLE, RESET and REMOVE by the share's state (R454): op 2 to 5. -/
def shLife (s : State) (op n : Nat) : Nat × State :=
  let st := shState s n
  let sd := rgF s .shstate n 5 4
  let pend := fun (s : State) (x : Nat) => setRgF s .shstate n 8 8 x
  let kind := fun (s : State) (x : Nat) => setRgF s .shstate n 5 4 x
  if op = 2 then
    (if st = 1 then (2, shEnable s n)
     else if st = 2 then (2, s)
     else if sd = 3 then (0x13, s) else (3, pend s 1))
  else if op = 3 then
    (if st = 1 then (2, s)
     else if st = 2 then (2, startShut s n 1)
     else if sd = 3 then (0x13, s) else (2, pend s 0))
  else if op = 4 then
    (if st < 3 then (2, startShut s n 2)
     else if sd = 3 then (0x13, s) else (2, kind s 2))
  else
    (if st < 3 then (2, startShut s n 3)
     else if sd = 3 then (2, s) else (2, pend (kind s 3) 0))

/-- The queues bound to a MAC (R408). -/
def macQueues (s : State) (m : Nat) : Nat :=
  (s.queues.filter (fun p => (qKind s p.1 == 3 || qKind s p.1 == 4) && p.2.target == m)).length

/-- BIND_QP (R452). -/
def shBind (s : State) (n q kind target : Nat) : Nat × State :=
  let h := share s n
  if shState s n = 3 then (0x13, s)
  else if !(decide (h.qp0 ≤ q) && decide (q < h.qp0 + h.nqp)) ∨ kind > 4 ∨
      (kind = 1 ∧ !(decide (h.vc0 ≤ target) && decide (target < h.vc0 + h.nvc))) ∨ ((kind = 3 ∨ kind = 4) ∧ target ≥ 16) then (0x14, s)
  else if rgF s .qcfg q 0 0 = 1 then (0x13, s)
  else if (kind = 3 ∨ kind = 4) ∧
      macQueues (setQueue (setRgF s .qstat q 9 7 0) q {}) target ≥ 4096 then (0x10, s)
  else
    (2, setQueue (setRgF s .qstat q 9 7 kind) q { share := some n, target := if kind = 0 ∨ kind = 2 then 0 else target })

/-- A share command is acted on (R449 to R454). `where_` is the register a refusal's record names. A reserved OP comes first: nothing
else is done (R644; log entry 88). -/
def shRun (s : State) (b : By) (op : Nat) (c : ShCmd) (where_ : Word) : ShAns × State :=
  if op = 0 ∨ op > 6 then ({ status := 0x14 }, s)
  else if !(bySec b) ∧ ((op = 1 ∧ c.sown) ∨ (op ≠ 1 ∧ shState s c.n ≠ 0 ∧ shSown s c.n)) then
    ({ status := deniedOwned }, hlDenied s b deniedOwned where_)
  else if op = 1 then shCreate s c
  else if shState s c.n = 0 then ({ status := 0x12 }, s)
  else if op = 6 then
    (if fld c.a1 24 14 ≠ 0 ∨ fld c.a0 31 19 ≠ 0 ∨ fld c.a0 12 0 ≠ 0 then ({ status := 0x14 }, s)
     else
      let (st, s) := shBind s c.n (fld c.a1 13 0) (fld c.a0 18 16) (fld c.a0 42 32)
      ({ status := st }, s))
  else
    let (st, s) := shLife s op c.n
    ({ status := st }, s)

/-- A GO of SHCMD (R449): the fields it carries, the command, STATUS and the results. -/
def shcmdGo (s : State) (b : By) (op : Nat) (v : Word) : State :=
  if rgF s .shstat 0 7 0 = 1 then setRgF s .shstat 0 16 16 1
  else
    let s := setRg s .shcmd 0 (v &&& 0x00000FFF0001F000 ||| BitVec.ofNat 64 (if 1 ≤ op ∧ op ≤ 6 then op else rgF s .shcmd 0 3 0))
    let c : ShCmd := ⟨fld v 43 32, bit v 16, fld v 15 12, rg s .sharg0 0, rg s .sharg1 0, rg s .sharg2 0⟩
    let (a, s) := shRun s b op c (regPa 0x200000)
    let s := if op = 1 ∧ a.status = 2 then setRg (setRg s .shres0 0 a.r0) .shres1 0 a.r1 else s
    setRgF s .shstat 0 7 0 a.status

/-- SHARE_CREATE (R451). -/
def execShareCreate (b : By) (v : Word) (s : State) : Host.Outcome State Fault Refusal := ok (shcmdGo s b 1 v)
/-- SHARE_ENABLE (R454). -/
def execShareEnable (b : By) (v : Word) (s : State) : Host.Outcome State Fault Refusal := ok (shcmdGo s b 2 v)
/-- SHARE_DISABLE (R454). -/
def execShareDisable (b : By) (v : Word) (s : State) : Host.Outcome State Fault Refusal := ok (shcmdGo s b 3 v)
/-- SHARE_RESET (R454). -/
def execShareReset (b : By) (v : Word) (s : State) : Host.Outcome State Fault Refusal := ok (shcmdGo s b 4 v)
/-- SHARE_REMOVE (R454). -/
def execShareRemove (b : By) (v : Word) (s : State) : Host.Outcome State Fault Refusal := ok (shcmdGo s b 5 v)
/-- BIND_QP (R452). -/
def execBindQp (b : By) (v : Word) (s : State) : Host.Outcome State Fault Refusal := ok (shcmdGo s b 6 v)

/-- FUNCTION_LEVEL_RESET (R427): Initiate Function Level Reset of a share's VF starts a RESET; a FREE share's VF is absent (R426). -/
def execFunctionLevelReset (n : ShareId) (s : State) : Host.Outcome State Fault Refusal :=
  ok (if shState s n.val = 0 then s else (shLife s 4 n.val).2)

/-! ### Shut-downs (R453) -/

/-- The session a cipher descriptor names (R464): its global number, when it names one and it is within the share. -/
def itemSession (s : State) (n : Nat) (d : LineData) : Option Nat :=
  if dOp d = 0x3A ∨ dB d 28 3 ≥ (share s n).nsess then none else some ((share s n).sess0 + dB d 28 3)

/-- The bytes a squashed item reports in RESULT0: those a cipher message has written (R481). -/
def squashBytes (s : State) (n q : Nat) (it : Item) : Nat :=
  if qKind s q = 2 ∧ (it.phase = 1 ∨ it.phase = 2) then
    match itemSession s n it.desc with
    | some z => if decide (dOp it.desc ≥ 0x32) then 0 else (tget {} z s.sessions).dataDone
    | none => 0
  else 0

/-- The accepted items of a queue are squashed (R453 step 3), in order, with their records. -/
def squashQueue (n q : Nat) (i : EngIn) : List Item → State → State
  | [], s => setQueue s q { queue s q with frame := [] }
  | it :: its, s =>
    match writeRecord s n q it { status := 4, r0 := BitVec.ofNat 64 (squashBytes s n q it) } i with
    | (true, s) => squashQueue n q i its s
    | (false, s) => s

/-- SHARE_DRAIN_TIMEOUT in ticks. -/
def drainTicks (s : State) : Nat := rgF s .shdrain 0 15 0 * 1000

/-- SHARE_DRAIN_TIMEOUT (R430, R453): the items of a shut-down, and of closing queues, whose time is over are squashed. -/
def drainTimeout (s : State) (n : Nat) (i : EngIn) : State :=
  let all := shState s n == 3 && decide (now s ≥ (share s n).sdAt + drainTicks s)
  (shareQueues s n).foldl (fun s q =>
    if all || (qState s q == 3 && decide (now s ≥ (queue s q).closeAt + drainTicks s)) then squashQueue n q i (queue s q).items s
    else s) s

/-- SHARE_DRAIN_TIMEOUT (R453). -/
def execShareDrainTimeout (n : ShareId) (i : EngIn) (s : State) : Host.Outcome State Fault Refusal := hubOk (drainTimeout s n.val i)

/-- A queue's doorbell page takes its reset values; its binding is kept (R453). -/
def resetQueue (s : State) (q : Nat) : State :=
  let kind := qKind s q
  let x := queue s q
  let s := [RegName.qcfg, .sqbase, .cqbase, .qirq, .qstat].foldl (fun s r => setRg s r q (regReset r)) s
  setQueue (setRgF s .qstat q 9 7 kind) q { share := x.share, target := x.target }

/-- Every session of a share becomes uninitialised, in its slot and in the table (R475). -/
def clearSessions (s : State) (n : Nat) : State :=
  let h := share s n
  let out := fun (z : Nat) => decide (z < h.sess0) || decide (h.sess0 + h.nsess ≤ z)
  { s with sessions := s.sessions.filter (fun p => out p.1), inTable := s.inTable.filter (fun p => out p.1) }

/-- The amounts of a share return to their pools (R453, R530). -/
def freeShare (s : State) (n : Nat) : State :=
  let h := share s n
  let s := (shareQueues s n).foldl (fun s q => setQueue (setRgF (resetQueue s q) .qstat q 9 7 0) q {}) s
  let s := (List.range h.nvec).foldl (fun s i =>
    setRg (setRg s .msictl (h.vec0 + i) (regReset .msictl)) .msipost (h.vec0 + i) 0) s
  setRg (setShare s n {}) .shstate n 0

/-- SHUTDOWN_COMPLETE (R453 step 4): once every record is written the share takes its final state. -/
def shutComplete (s : State) (n : Nat) : State :=
  if shState s n ≠ 3 ∨ !((shareQueues s n).all (fun q => (queue s q).items.isEmpty)) then s
  else
    let kind := rgF s .shstate n 5 4
    let pend := rgF s .shstate n 8 8 == 1
    let s := if kind = 1 then s else clearSessions s n
    let done := fun (s : State) (on : Bool) =>
      let s := setRgF (setRgF s .shstate n 5 4 0) .shstate n 8 8 0
      if on then shEnable s n else setRgF s .shstate n 2 0 1
    let s :=
      if kind = 1 then done s pend
      else if kind = 2 then done ((shareQueues s n).foldl resetQueue s) (pend || (share s n).wasEnabled)
      else freeShare s n
    raiseSrc s 914

/-- SHUTDOWN_COMPLETE (R453). -/
def execShutdownComplete (n : ShareId) (s : State) : Host.Outcome State Fault Refusal := ok (shutComplete s n.val)

end Sys2Proof.Machine
end

