-- ==== Sys2Proof/Machine/Cipher.lean ====
section
/-! DEFINITION. The cipher engine (chapter 14): sessions and their contexts, messages, suspension, spill and fill, fault checks,
and the key wrapping of the witness island. -/
namespace Sys2Proof.Machine

open Sys2Proof

/-! ### Sessions -/

/-- A resident session. -/
def session (s : State) (z : Nat) : Session := tget {} z s.sessions

/-- A resident session replaced. -/
def setSession (s : State) (z : Nat) (x : Session) : State := { s with sessions := tset {} z x s.sessions }

/-- Whether a session is initialised (CFG bit 63, R469). -/
def sessInit (x : Session) : Bool := bit x.cfg 63

/-- The context lies in the memory table only (R471). -/
def sessAway (s : State) (z : Nat) : Bool := tget false z s.inTable && !(sessInit (session s z))

/-- The bytes of a context, 0x00 to 0xEF; the fields that describe no message are free values (R469). -/
def contextBytes (z : Nat) (x : Session) (fr : List Word) : List Byte :=
  bytesLE 8 x.cfg.toNat ++ bytesLE 8 (z * 2 ^ 16 + x.share) ++ bytesLE 32 x.k1.toNat ++ bytesLE 32 x.k2.toNat ++
  bytesLE 16 x.hsub.toNat ++ fr.flatMap (fun w => bytesLE 8 w.toNat) ++ List.replicate 56 0

/-- A session from the bytes of its context. -/
def contextOf (bs : List Byte) : Session where
  cfg := BitVec.ofNat 64 (ofBytesLE (bs.take 8))
  share := ofBytesLE (bs.drop 8) % 4096
  k1 := BitVec.ofNat 256 (ofBytesLE ((bs.drop 16).take 32))
  k2 := BitVec.ofNat 256 (ofBytesLE ((bs.drop 48).take 32))
  hsub := BitVec.ofNat 128 (ofBytesLE ((bs.drop 80).take 16))

/-- A number of free words. -/
def freeWords : Nat → State → List Word × State
  | 0, s => ([], s)
  | n + 1, s =>
    let (w, s) := freeWord s
    let (ws, s) := freeWords n s
    (w :: ws, s)

/-! ### Which descriptor may be worked on -/

/-- The items of a share's cipher queues, with their queues. -/
def cipherItems (s : State) (n : Nat) : List (Nat × Item) :=
  (shareQueues s n).flatMap (fun q => if qKind s q = 2 then (queue s q).items.map (fun it => (q, it)) else [])

/-- All accepted items of cipher queues, with share and queue. -/
def allCipher (s : State) : List (Nat × Nat × Item) :=
  s.queues.flatMap (fun p =>
    match queueShare s p.1 with
    | some n => if qKind s p.1 = 2 then p.2.items.map (fun it => (n, p.1, it)) else []
    | none => [])

/-- A session is active (R470). -/
def sessActive (s : State) (z : Nat) : Bool :=
  (allCipher s).any (fun p => p.2.2.bad.isNone && itemSession s p.1 p.2.2.desc == some z)

/-- An item's place: its share and itself, when its queue is a cipher queue and it was not refused as it was read. -/
def cipherItem (s : State) (q idx : Nat) : Option (Nat × Item) :=
  if qKind s q ≠ 2 then none
  else
    match queueShare s q, (queue s q).items.find? (fun it => it.sqidx == idx && it.bad.isNone) with
    | some n, some it => some (n, it)
    | _, _ => none

/-- Whether an item waits for an earlier one: FENCE (R480), or its session's order (R468). -/
def cipherWaits (s : State) (n q : Nat) (it : Item) : Bool :=
  (dFence it.desc && (queue s q).items.head?.map (·.sqidx) != some it.sqidx) ||
  (match itemSession s n it.desc with
   | some z => (cipherItems s n).any (fun p => p.2.bad.isNone && decide (p.2.seq < it.seq) && itemSession s n p.2.desc == some z)
   | none => false)

/-- PRIO of a descriptor. -/
def dPrio (d : LineData) : Nat := dF d 9 8

/-- The priority an item has (R468): its own, or that of a higher descriptor that waits for its session. -/
def effPrio (s : State) (n : Nat) (it : Item) : Nat :=
  match itemSession s n it.desc with
  | some z => (cipherItems s n).foldl (fun m p =>
      if p.2.bad.isNone && itemSession s n p.2.desc == some z then max m (dPrio p.2.desc) else m) (dPrio it.desc)
  | none => dPrio it.desc

/-- Round units of a cluster in service (R484). -/
def unitsLeft (s : State) (c : Nat) : Nat := ((List.range 16).filter (fun u => !(bit (rg s .cunitdis 0) (16 * c + u)))).length

/-- Whether a cluster takes a message of a share: it is in RUN (or closes with the package, whose accepted work it completes, R553), has a unit in service, and serves the share's world (R484, R505, R549). -/
def clusterTakes (s : State) (c n : Nat) : Bool :=
  (domState s (0x1A4 + c) == 0 || (rgF s .pkgstat 0 10 8 == 2 && domWorks s (0x1A4 + c))) && unitsLeft s c != 0 && (!(ownCiph s c) || shSown s n)

/-- Whether a message that has not ended could run on a cluster now: one that waits and could start there, or a suspended one. -/
def couldRun (s : State) (c n q : Nat) (it : Item) : Bool :=
  it.bad.isNone && decide (0x30 ≤ dOp it.desc) && decide (dOp it.desc ≤ 0x33) && clusterTakes s c n &&
  (it.phase == 2 || (it.phase == 0 && !(cipherWaits s n q it) && mayServe s n && (share s n).bme &&
    (match itemSession s n it.desc with | some z => !(sessAway s z) | none => true)))

/-- Whether free round units of a cluster go to a message before any other (R457): the highest PRIO first, then the earliest fetched. -/
def inTurn (s : State) (c n : Nat) (it : Item) : Bool :=
  !((allCipher s).any (fun e => couldRun s c e.1 e.2.1 e.2.2 &&
    (decide (effPrio s n it < effPrio s e.1 e.2.2) || (effPrio s e.1 e.2.2 == effPrio s n it && decide (e.2.2.seq < it.seq)))))

/-- Whether a message of a higher PRIO waits to start on a cluster (R457). -/
def higherWaits (s : State) (c n : Nat) (it : Item) : Bool :=
  (allCipher s).any (fun e => e.2.2.phase == 0 && couldRun s c e.1 e.2.1 e.2.2 && decide (effPrio s n it < effPrio s e.1 e.2.2))

/-- The stop of a cluster (R309). -/
def clusterStop (c : Fin 4) : StopId := ⟨12, 12 + c.val⟩

/-- An item changed in its queue. -/
def updItem (s : State) (q : Nat) (it : Item) : State :=
  setQueue s q { queue s q with items := (queue s q).items.map (fun i => if i.sqidx = it.sqidx then it else i) }

/-- A descriptor ends with its record, and those refused behind it; its session was used now. Without an answer the whole step has
not happened. -/
def cipherEnd (s0 s : State) (n q : Nat) (it : Item) (o : RecOut) (i : EngIn) : State :=
  let s := match itemSession s n it.desc with
    | some z =>
      let x := session s z
      if sessInit x then { setSession s z { x with used := s.cipSeq, resume := 0 } with cipSeq := s.cipSeq + 1 } else s
    | none => s
  finishItem s0 s n q it o i

/-! ### Messages (R457 to R463, R476 to R483) -/

/-- A field of 16 bytes. -/
def bytes128 (x : BitVec 128) : List Byte := bytesLE 16 x.toNat

/-- A field from its bytes. -/
def of128 (l : List Byte) : BitVec 128 := BitVec.ofNat 128 (ofBytesLE l)

/-- The key material of a message. -/
def msgKeyOf (x : Session) (mode : CMode) (d : LineData) : MsgKey where
  mode := mode
  enc := dOp d == 0x30 || dOp d == 0x32
  nlen := fld x.cfg 23 20
  taglen := fld x.cfg 19 15
  rks := roundKeys ((bytesLE 32 x.k1.toNat).take (16 + 8 * fld x.cfg 5 4))
  k2 := (bytesLE 32 x.k2.toNat).take (16 + 8 * fld x.cfg 5 4)
  hsub := bytes128 x.hsub
  iv := bytesLE 16 (dB d 48 16)
  len := dB d 24 4
  aadLen := dB d 40 4

/-- Whether LEN, AADLEN and IV are within the limits of the mode (R463). -/
def limitsGood (m : MsgKey) : Bool :=
  let ivZero := fun (k : Nat) => (m.iv.drop k).all (· == 0)
  match m.mode with
  | .ecb => m.len % 16 == 0 && m.aadLen == 0 && ivZero 0
  | .cbc => m.len % 16 == 0 && m.aadLen == 0
  | .ctr => m.aadLen == 0
  | .gcm => ivZero 12
  | .ccm => decide (m.len < 2 ^ (8 * (15 - m.nlen))) && ivZero m.nlen
  | .cmac => m.aadLen == 0 && ivZero 0
  | .xts => decide (16 ≤ m.len) && decide (m.len ≤ 16777216) && m.aadLen == 0

/-- Why a message does not start: its status (R464, R463, R485), in this order (DEDUCED, log entry 29). -/
def msgRefuse (s : State) (n : Nat) (d : LineData) (healthy : Bool) : Option Nat :=
  match itemSession s n d with
  | none => some 0x43
  | some z =>
    let x := session s z
    if !(sessInit x) then some 0x42
    else
      match CMode.ofNat? (fld x.cfg 2 0) with
      | none => some 0x42
      | some mode =>
        if (mode == .cmac) != decide (dOp d ≥ 0x32) then some 0x45
        else if !(limitsGood (msgKeyOf x mode d)) then some 1
        else if fld x.cfg 9 8 ≠ 0 ∧ !healthy then some 0x47
        else none

/-- The context of a message from its session. -/
def msgCtxOf (x : Session) : MsgCtx :=
  ⟨bytes128 x.ctr, bytes128 x.chain, bytes128 x.ghash, bytes128 x.tmask, x.aadDone, x.dataDone⟩

/-- The context of a message kept in its session. -/
def keepCtx (x : Session) (c : MsgCtx) : Session :=
  { x with ctr := of128 c.ctr, chain := of128 c.chain, ghash := of128 c.ghash, tmask := of128 c.tmask,
           aadDone := c.aadDone, dataDone := c.dataDone }

/-- A failed check counts at a round unit; four in one window disable it (R484). -/
def unitFailed (s : State) (u : Nat) : State :=
  let w := winAdd (now s) (tget {} u s.unitWin)
  let s := { s with unitWin := tset {} u w s.unitWin }
  if w.count ≥ 4 ∧ !(bit (rg s .cunitdis 0) u) then
    let s := setRg s .cunitdis 0 (setBit (rg s .cunitdis 0) u true)
    let s := setRgF s .ciphstat 0 7 0 (rgF s .ciphstat 0 7 0 - 1)
    raiseSrc (logErr s .hubEv 0x28 (u / 16) (u % 16) 0) 921
  else s

/-- A failed check and its retry (R483): the units of both count the failures they took part in. -/
def checkFailed (c : Nat) (s : State) (f : UnitFail) : State :=
  let s := incRgF s .ciphstat 0 47 32
  let s := f.units.foldl (fun s u => unitFailed s (16 * c + u.val)) s
  if f.again then f.retry.foldl (fun s u => unitFailed s (16 * c + u.val)) s else s

/-- The payload bytes a message has written (R463): none in MAC and VERIFY, which write a tag at most. -/
def msgDone (m : MsgKey) (c : MsgCtx) : Nat := if m.mode = .cmac then 0 else c.dataDone

/-- How one stretch of a message went: how the accesses ended, the units worked, and the state. -/
structure MsgRun where
  res : ShRes
  units : Nat
  ctx : MsgCtx
  st : State

/-- At most k units of a message: AAD blocks, then payload units, whose output is written as it goes (R462). -/
def msgUnits (s : State) (n : Nat) (st : StopId) (i : EngIn) (d : LineData) (m : MsgKey) (k : Nat) (c : MsgCtx) : MsgRun :=
  let (ra, aad, s) := if c.aadDone < m.aadLen then shReadBuf s n st i i.src (dB d 32 8 + c.aadDone) (min (m.aadLen - c.aadDone) (16 * k))
    else (.ok, [], s)
  let (ja, c) := runAad m k c aad
  match ra with
  | .ok =>
    if c.aadDone < m.aadLen ∨ c.dataDone ≥ m.len ∨ k ≤ ja then ⟨.ok, ja, c, s⟩
    else
      let from_ := c.dataDone
      let (rp, src, s) := shReadBuf s n st i i.src (dB d 8 8 + from_) (min (m.len - from_) (16 * (k - ja) + 16))
      let (jp, out, c) := runPay m (k - ja) c src
      if out.isEmpty then ⟨if c.dataDone ≥ m.len ∨ jp = k - ja then .ok else rp, ja + jp, c, s⟩
      else
        let (rw, w, s) := shWriteBuf s n st i i.dst (dB d 16 8 + from_) out
        match rw with
        | .ok => ⟨if c.dataDone ≥ m.len ∨ jp = k - ja then .ok else rp, ja + jp, c, s⟩
        | r => ⟨r, ja + jp, { c with dataDone := from_ + w }, s⟩
  | r => ⟨r, ja, c, s⟩

/-- The tag of a finished message is written, or compared (R461): how it ended. -/
def msgEnd (s : State) (n : Nat) (st : StopId) (i : EngIn) (d : LineData) (m : MsgKey) (c : MsgCtx) : ShRes × Nat × State :=
  if m.taglen = 0 then (.ok, 0, s)
  else
    let a := dB d 32 8 + m.aadLen
    let t := msgTag m c
    if m.enc then
      let (r, _, s) := shWriteBuf s n st i i.dst a t
      (r, 0, s)
    else
      let (r, bs, s) := shReadBuf s n st i i.src a m.taglen
      (r, if bs = t then 0 else 0x41, s)

/-- The units a stretch may work: to the end, or as many as the command says, and none from a block on that failed twice. -/
def stretch (m : MsgKey) (ci : CipherIn) (fcut : Option Nat) : Nat :=
  let k := ci.run.getD ((m.len + m.aadLen) / 16 + 4)
  match fcut with
  | some f => min k f
  | none => k

/-- A running message works a stretch (R457, R461, R483): to its end with its record, to a fault, or to a block boundary. -/
def msgWork (s0 s : State) (n q : Nat) (it : Item) (z : Nat) (m : MsgKey) (ci : CipherIn) (i : EngIn) : State :=
  let st := clusterStop ci.cluster
  let x := session s z
  let checked := fld x.cfg 7 6 != 0
  let fails := if checked then ci.fails else []
  let fcut := (fails.find? (·.again)).map (·.blk)
  let r := msgUnits s n st i it.desc m (stretch m ci fcut) (msgCtxOf x)
  let s := (fails.filter (fun f => decide (f.blk < r.units) || (f.again && f.blk == r.units))).foldl (checkFailed ci.cluster.val) r.st
  let s := setSession s z (keepCtx (session s z) r.ctx)
  match r.res with
  | .wait => hubPause s0 s
  | .ok =>
    let done := msgDone m r.ctx
    let bytes := BitVec.ofNat 64 done
    if fcut = some r.units then
      cipherEnd s0 (incRgF s .ciphstat 0 63 48) n q it { status := 0x40, r0 := bytes } i
    else if r.ctx.dataDone < m.len ∨ r.ctx.aadDone < m.aadLen then s
    else
      match msgEnd s n st i it.desc m r.ctx with
      | (.wait, _, s) => hubPause s0 s
      | (.ok, code, s) => cipherEnd s0 s n q it { status := code, r0 := bytes } i
      | (e, _, s) => cipherEnd s0 s n q it (resRecord e done) i
  | e => cipherEnd s0 s n q it (resRecord e (msgDone m r.ctx)) i

/-- A message of one operation (R459): it starts on a cluster that takes it, or goes on where it runs. -/
def cipherMsg (s : State) (op q idx : Nat) (ci : CipherIn) (i : EngIn) : State :=
  match cipherItem s q idx with
  | none => s
  | some (n, it) =>
    if dOp it.desc ≠ op ∨ it.phase > 1 then s
    else if it.phase = 0 ∧
        (cipherWaits s n q it || !(clusterTakes s ci.cluster.val n) || !(mayServe s n) || !((share s n).bme) ||
          !(inTurn s ci.cluster.val n it)) then s
    else if it.phase = 1 ∧ it.cluster ≠ ci.cluster.val then s
    else
      match itemSession s n it.desc with
      | none => cipherEnd s s n q it { status := 0x43 } i
      | some z =>
        if sessAway s z then s
        else
          let x := session s z
          match (if it.phase = 0 then msgRefuse s n it.desc ci.healthy else none), CMode.ofNat? (fld x.cfg 2 0) with
          | some code, _ => cipherEnd s s n q it { status := code } i
          | none, none => s
          | none, some mode =>
            let m := msgKeyOf x mode it.desc
            if it.phase = 1 then msgWork s s n q it z m ci i
            else
              let it' := { it with phase := 1, started := true, since := s.cipSeq, cluster := ci.cluster.val }
              let s1 := setSession (updItem { s with cipSeq := s.cipSeq + 1 } q it') z (keepCtx x (msgStart m))
              msgWork s s1 n q it' z m ci i

/-- ENCRYPT (R463). -/
def execEncrypt (q : QueueId) (idx : BitVec 16) (c : CipherIn) (i : EngIn) (s : State) : Host.Outcome State Fault Refusal :=
  hubOk (cipherMsg s 0x30 q.val idx.toNat c i)
/-- DECRYPT (R462, R463). -/
def execDecrypt (q : QueueId) (idx : BitVec 16) (c : CipherIn) (i : EngIn) (s : State) : Host.Outcome State Fault Refusal :=
  hubOk (cipherMsg s 0x31 q.val idx.toNat c i)
/-- MAC (R461). -/
def execMac (q : QueueId) (idx : BitVec 16) (c : CipherIn) (i : EngIn) (s : State) : Host.Outcome State Fault Refusal :=
  hubOk (cipherMsg s 0x32 q.val idx.toNat c i)
/-- VERIFY (R461). -/
def execVerify (q : QueueId) (idx : BitVec 16) (c : CipherIn) (i : EngIn) (s : State) : Host.Outcome State Fault Refusal :=
  hubOk (cipherMsg s 0x33 q.val idx.toNat c i)

/-! ### Suspension (R476 to R479) -/

/-- The message to suspend for one of priority p: the lowest priority below p, among equals the most recently started (R476). -/
def victimMsg (s : State) (p : Nat) : Option (Nat × Nat × Item) :=
  ((allCipher s).filter (fun e => e.2.2.phase == 1 && decide (effPrio s e.1 e.2.2 < p))).foldl (fun best e =>
    match best with
    | none => some e
    | some b =>
      if effPrio s e.1 e.2.2 < effPrio s b.1 b.2.2 ∨ (effPrio s e.1 e.2.2 = effPrio s b.1 b.2.2 ∧ b.2.2.since < e.2.2.since) then some e
      else best) none

/-- RESUME of a suspended message (R469): queue, SQIDX, stage. -/
def resumeOf (q idx : Nat) (payload : Bool) : Word :=
  BitVec.ofNat 64 (q % 2 ^ 14 * 2 ^ 34 + idx % 2 ^ 16 * 2 ^ 18 + (if payload then 2 else 1) * 2 ^ 16)

/-- MESSAGE_SUSPEND (R476, R477): a message that can start finds no round unit free, and one of lower priority is suspended. -/
def suspendFor (s : State) (q idx : Nat) : State :=
  match cipherItem s q idx with
  | none => s
  | some (n, it) =>
    if it.phase ≠ 0 ∨ cipherWaits s n q it then s
    else
      match victimMsg s (effPrio s n it) with
      | none => s
      | some (m, vq, v) =>
        let s1 := updItem { s with cipSeq := s.cipSeq + 1 } vq { v with phase := 2, since := s.cipSeq }
        match itemSession s m v.desc with
        | some z =>
          let x := session s z
          setSession s1 z { x with resume := resumeOf vq v.sqidx (decide (x.aadDone ≥ dB v.desc 40 4)) }
        | none => s1

/-- MESSAGE_SUSPEND. -/
def execMessageSuspend (q : QueueId) (idx : BitVec 16) (s : State) : Host.Outcome State Fault Refusal := ok (suspendFor s q.val idx.toNat)

/-- The suspended message to resume on a cluster: highest priority, then earliest suspended (R479). -/
def resumable (s : State) (c : Nat) : Option (Nat × Nat × Item) :=
  ((allCipher s).filter (fun e => e.2.2.phase == 2 && clusterTakes s c e.1)).foldl (fun best e =>
    match best with
    | none => some e
    | some b =>
      if effPrio s b.1 b.2.2 < effPrio s e.1 e.2.2 ∨ (effPrio s e.1 e.2.2 = effPrio s b.1 b.2.2 ∧ e.2.2.since < b.2.2.since) then some e
      else best) none

/-- MESSAGE_RESUME (R479): round units of a cluster have become free, and no message of a higher PRIO waits to start there (R457). -/
def resumeOn (s : State) (c : Nat) : State :=
  match resumable s c with
  | none => s
  | some (n, q, it) =>
    if higherWaits s c n it then s
    else updItem { s with cipSeq := s.cipSeq + 1 } q { it with phase := 1, since := s.cipSeq, cluster := c }

/-- MESSAGE_RESUME. -/
def execMessageResume (c : Fin 4) (s : State) : Host.Outcome State Fault Refusal := ok (resumeOn s c.val)

/-! ### Session operations (R464 to R467, R487, R488) -/

/-- A session as SESSION_INIT leaves it: the configuration, the key, and for GCM the hash subkey (R467). -/
def newSession (n : Nat) (cfg : Word) (key : List Byte) (t : Nat) : Session :=
  let half := if fld cfg 2 0 = 6 then key.length / 2 else key.length
  let k1 := key.take half
  { cfg := setBit cfg 63 true, share := n, k1 := BitVec.ofNat 256 (ofBytesLE k1), k2 := BitVec.ofNat 256 (ofBytesLE (key.drop half)),
    hsub := if fld cfg 2 0 = 3 then of128 (aesEnc k1 zero16) else 0, used := t }

/-- A session is loaded. -/
def loadSession (s : State) (n z : Nat) (d : LineData) (key : List Byte) : State :=
  { setSession s z (newSession n (dCfg d) key s.cipSeq) with cipSeq := s.cipSeq + 1, inTable := tset false z false s.inTable }

/-- Whether a session can take a resident slot now (R471). -/
def slotFree (s : State) (z : Nat) : Bool := sessInit (session s z) || decide (s.sessions.length < 65536)

/-- A wrap or an unwrap waits for the island (R488). -/
def joinIsland (s : State) (q : Nat) (it : Item) : State :=
  updItem { s with cipSeq := s.cipSeq + 1 } q { it with phase := 3, started := true, since := s.cipSeq }

/-- SESSION_INIT (R465 to R467). -/
def sessionInit (s : State) (q idx : Nat) (i : EngIn) : State :=
  match cipherItem s q idx with
  | none => s
  | some (n, it) =>
    if dOp it.desc ≠ 0x38 ∨ it.phase ≠ 0 ∨ cipherWaits s n q it ∨ !(mayServe s n) ∨ !((share s n).bme) then s
    else
      match itemSession s n it.desc with
      | none => cipherEnd s s n q it { status := 0x43 } i
      | some z =>
        if sessAway s z ∨ !(slotFree s z) then s
        else if dFlags it.desc = 1 then joinIsland s q it
        else
          match shReadBuf s n ⟨12, 12⟩ i i.src (dB it.desc 8 8) (dB it.desc 24 4) with
          | (.wait, _, s') => hubPause s s'
          | (.ok, key, s') => cipherEnd s (loadSession s' n z it.desc key) n q it { status := 0 } i
          | (r, _, s') => cipherEnd s s' n q it (resRecord r 0) i

/-- SESSION_CLEAR (R459, R464). -/
def sessionClear (s : State) (q idx : Nat) (i : EngIn) : State :=
  match cipherItem s q idx with
  | none => s
  | some (n, it) =>
    if dOp it.desc ≠ 0x39 ∨ it.phase ≠ 0 ∨ cipherWaits s n q it ∨ !(mayServe s n) ∨ !((share s n).bme) then s
    else
      match itemSession s n it.desc with
      | none => cipherEnd s s n q it { status := 0x43 } i
      | some z =>
        if sessAway s z then s
        else if !(sessInit (session s z)) then cipherEnd s s n q it { status := 0x42 } i
        else cipherEnd s { setSession s z {} with inTable := tset false z false s.inTable } n q it { status := 0 } i

/-- KEY_WRAP (R487, R488): the plain key waits for the island. -/
def keyWrap (s : State) (q idx : Nat) : State :=
  match cipherItem s q idx with
  | none => s
  | some (n, it) =>
    if dOp it.desc ≠ 0x3A ∨ it.phase ≠ 0 ∨ cipherWaits s n q it ∨ !(mayServe s n) ∨ !((share s n).bme) then s
    else joinIsland s q it

/-- The island's next item: the first that joined (R488). -/
def islandNext (s : State) : Option (Nat × Nat × Item) :=
  ((allCipher s).filter (fun e => e.2.2.phase == 3)).foldl (fun best e =>
    match best with
    | none => some e
    | some b => if e.2.2.since < b.2.2.since then some e else best) none

/-- The key derived for a share and a label (R487). -/
def shareKek (s : State) (n : Nat) (d : LineData) : List Byte :=
  bytesLE 32 (Config.wrapKey (shSown s n) (share s n).vmid (BitVec.ofNat 64 (dB d 32 8))).toNat

/-- UNWRAP (R487, R488): heat-log work first, then the next waiting unwrap or wrap. -/
def islandUnwrap (s : State) (i : EngIn) : State :=
  if !(s.hlog.pend.isEmpty) ∧ hlAppends s then s
  else
    match islandNext s with
    | none => s
    | some (n, q, it) =>
      match shReadBuf s n ⟨12, 12⟩ i i.src (dB it.desc 8 8) (dB it.desc 24 4) with
      | (.wait, _, s') => hubPause s s'
      | (.ok, key, s') =>
        if dOp it.desc = 0x3A then
          match shWriteBuf s' n ⟨12, 12⟩ i i.dst (dB it.desc 16 8) (kwWrap (shareKek s n it.desc) key) with
          | (.wait, _, s') => hubPause s s'
          | (r, k, s') => cipherEnd s s' n q it (resRecord r k) i
        else
          match kwUnwrap (shareKek s n it.desc) key, itemSession s n it.desc with
          | some k, some z => cipherEnd s (loadSession s' n z it.desc k) n q it { status := 0 } i
          | _, _ => cipherEnd s s' n q it { status := 0x46 } i
      | (r, _, s') => cipherEnd s s' n q it (resRecord r 0) i

/-- SESSION_INIT. -/
def execSessionInit (q : QueueId) (idx : BitVec 16) (i : EngIn) (s : State) : Host.Outcome State Fault Refusal :=
  hubOk (sessionInit s q.val idx.toNat i)
/-- SESSION_CLEAR. -/
def execSessionClear (q : QueueId) (idx : BitVec 16) (i : EngIn) (s : State) : Host.Outcome State Fault Refusal :=
  hubOk (sessionClear s q.val idx.toNat i)
/-- KEY_WRAP. -/
def execKeyWrap (q : QueueId) (idx : BitVec 16) (s : State) : Host.Outcome State Fault Refusal := ok (keyWrap s q.val idx.toNat)
/-- UNWRAP. -/
def execUnwrap (i : EngIn) (s : State) : Host.Outcome State Fault Refusal := hubOk (islandUnwrap s i)

/-! ### Spill and fill (R471 to R474) -/

/-- The address of a session in the memory context table (R474). -/
def tableAddr (s : State) (z : Nat) : Nat := rgF s .ctxbase 0 51 12 * 4096 + z * 256

/-- The IV of a spill: the session's number and the count of spills, most significant byte first (log entry 30). -/
def spillIv (z count : Nat) : List Byte := bytesBE 3 z ++ bytesBE 9 count

/-- CTXKEY. -/
def ctxKeyBytes (s : State) : List Byte := bytesLE 32 (Config.ctxKey s.ctxKey).toNat

/-- How the engine reaches its table: as itself, in the normal world (log entry 30). -/
def tableReq : HubReq := ⟨⟨12, 12⟩, false, 0, 0, false⟩

/-- The least recently used resident session that is not active (R471). -/
def spillVictim (s : State) : Option Nat :=
  (s.sessions.foldl (fun (best : Option (Nat × Nat)) p =>
    if sessActive s p.1 then best
    else match best with
      | none => some (p.1, p.2.used)
      | some b => if p.2.used < b.2 then some (p.1, p.2.used) else best) none).map (·.1)

/-- A session is spilled (R472). -/
def spillSession (s : State) (z : Nat) (i : EngIn) : State :=
  let (fr, s1) := freeWords 11 s
  let (c, tag) := gcmWhole true (ctxKeyBytes s) (spillIv z s.spillNo) (contextBytes z (session s z) fr)
  match hubWriteBytes tableReq i.f i.dst 257 (tableAddr s z) (c ++ tag) s1 with
  | (.wait, _, s1) => hubPause s s1
  | (_, _, s1) =>
    let s1 := setSession s1 z {}
    incRgF { s1 with inTable := tset false z true s1.inTable, spills := tset [] z (s.spillNo :: tget [] z s1.spills) s1.spills,
                     spillNo := (s.spillNo + 1) % 2 ^ 72 } .ciphcnt 0 63 32

/-- CONTEXT_SPILL (R471, R472): every resident slot is full. -/
def contextSpill (s : State) (i : EngIn) : State :=
  if rgF s .ciphctl 0 0 0 = 0 ∨ s.sessions.length < 65536 then s
  else
    match spillVictim s with
    | some z => spillSession s z i
    | none => s

/-- CONTEXT_SPILL. -/
def execContextSpill (i : EngIn) (s : State) : Host.Outcome State Fault Refusal := hubOk (contextSpill s i)

/-- The context that 256 bytes of the table hold, under one of the counts its spills used (R472, R473). -/
def openContext (s : State) (z : Nat) (bs : List Byte) : Option Session :=
  ((tget [] z s.spills).map (fun k => gcmWhole false (ctxKeyBytes s) (spillIv z k) (bs.take 240))).findSome?
    (fun r => if r.2 = bs.drop 240 then some (contextOf r.1) else none)

/-- A fill fails: the session is uninitialised and the descriptor ends in CTX_CORRUPT (R472). -/
def fillFailed (s0 s : State) (n q : Nat) (it : Item) (z : Nat) (i : EngIn) : State :=
  cipherEnd s0 (incRgF { s with inTable := tset false z false s.inTable } .ciphstat 0 31 16) n q it { status := 0x44 } i

/-- CONTEXT_FILL (R471, R472) for a descriptor that names a session in the table. -/
def contextFill (s : State) (q idx : Nat) (i : EngIn) : State :=
  match cipherItem s q idx with
  | none => s
  | some (n, it) =>
    match itemSession s n it.desc with
    | none => s
    | some z =>
      if !(sessAway s z) ∨ !(slotFree s z) ∨ it.phase ≠ 0 ∨ cipherWaits s n q it then s
      else
        match hubReadBytes tableReq i.f i.src 256 (tableAddr s z) s with
        | (.wait, _, s1) => hubPause s s1
        | (.err, _, s1) => fillFailed s s1 n q it z i
        | (.ok, bs, s1) =>
          match openContext s z bs with
          | some x =>
            incRgF { setSession s1 z { x with used := s.cipSeq } with cipSeq := s.cipSeq + 1, inTable := tset false z false s1.inTable }
              .ciphcnt 0 31 0
          | none => fillFailed s s1 n q it z i

/-- CONTEXT_FILL. -/
def execContextFill (q : QueueId) (idx : BitVec 16) (i : EngIn) (s : State) : Host.Outcome State Fault Refusal :=
  hubOk (contextFill s q.val idx.toNat i)

end Sys2Proof.Machine
end

