-- ==== Sys2Proof/Machine/Pcie.lean ====
section
/-! DEFINITION. Lane groups and their personalities, root ports, PERST_N, inbound requests and the configuration space (R237, R396 to
R405, R424 to R427, R505). The registers the PCIe Base Specification gives a function, which the spec does not lay out, answer a
free value. -/
namespace Sys2Proof.Machine

open Sys2Proof

/-! ### Lane groups -/

/-- A lane group's PCIe side. -/
def lgrp (s : State) (g : Nat) : LaneGrp := tget {} g s.lgs

/-- The optical engine of a group of 24 to 31 (R18). -/
def engOf (g : Nat) : Nat := (g - 24) / 2

/-- The lane group block that holds an engine's registers (R420). -/
def engGroup (e : Nat) : Nat := 24 + 2 * e

/-- OESTAT.STATE of an engine: 0 DARK, 1 PROTECTED, 2 EXPOSED, 3 FADE, 4 SWITCHOVER. -/
def oeState (s : State) (e : Nat) : Nat := rgF s .oestat e 23 20

/-- Whether a group has light: electrical, or its engine neither DARK nor in SWITCHOVER (R410, R419). -/
def hasLight (s : State) (g : Nat) : Bool := g < 24 || (oeState s (engOf g) != 0 && oeState s (engOf g) != 4)

/-- Whether a group is taken down with its engine's or package's power: its LGSTAT.STATE is OFF. -/
def lgOff (s : State) (g : Nat) : Bool := rgF s .lgstat g 3 0 == 0

/-- The MACs enabled on a group (R407). -/
def macsOn (s : State) (g : Nat) : List Nat :=
  (List.range 16).filter (fun n => rgF s .ethport n 16 16 == 1 && rgF s .ethport n 4 0 == g)

/-- LGSTAT.STATE of a group that is not OFF, from how many of its ports or links are up. -/
def lgLevel (up total : Nat) : Nat := if total = 0 ∨ up = 0 then 1 else if up = total then 2 else 3

/-- LGSTAT.STATE is brought up to date (LGSTAT): DARK without light, else by what is up. -/
def lgRefresh (s : State) (g : Nat) : State :=
  let pers := rgF s .lgctl g 2 0
  if lgOff s g then s
  else if !(hasLight s g) then setLgState s g 4
  else if pers = 1 then
    setLgState s g (lgLevel ((List.range (portCount s g)).filter (fun k => portUp s (4 * g + k))).length (portCount s g))
  else if pers = 2 then
    setLgState s g (lgLevel ((macsOn s g).filter (fun n => rgF s .ethstat n 16 16 == 1)).length (macsOn s g).length)
  else if pers = 3 then setLgState s g (if palState s g = 3 then 2 else 1)
  else s

/-- ETHSTAT.LINK of a MAC changes (source 896 + n). -/
def setEthLink (s : State) (n : Nat) (up : Bool) : State :=
  if rgF s .ethstat n 16 16 = up.toNat then s
  else lgRefresh (raiseSrc (setRgF s .ethstat n 16 16 up.toNat) (896 + n)) (rgF s .ethport n 4 0)

/-- A root port detects link down (R403): held accesses and those under way complete with error, its link-event source is raised. -/
def portDown (s : State) (g k : Nat) : State :=
  let i := 4 * g + k
  let x := rport s i
  let s := setRport s i { st := 3 }
  let s := (x.held.map (·.1) ++ x.sent).foldl (fun s p => devComplete s p false 0) s
  lgRefresh (raiseSrc s (384 + 16 * g + k)) g

/-- The links of a group go down: PCIe ports, Palrath, Ethernet. -/
def lgLinksDown (s : State) (g : Nat) : State :=
  let pers := rgF s .lgctl g 2 0
  if pers = 1 then (List.range (portCount s g)).foldl (fun s k => portDown s g k) s
  else if pers = 2 then (macsOn s g).foldl (fun s n => setEthLink s n false) s
  else if pers = 3 ∧ palState s g ≠ 0 then setPal s g 0
  else s

/-- A group is unpowered: its ports are gone, PERST_N is driven low, STATE is OFF (R396, R404). A port that has detected link down goes on
ending accesses in error until its link next reaches DL_Active (R237). -/
def lgPowerOff (s : State) (g : Nat) : State :=
  let s := lgLinksDown s g
  let s := (List.range 4).foldl (fun s k => setRport s (4 * g + k) { st := if (rport s (4 * g + k)).st = 3 then 3 else 0 }) s
  let s := setRgF { s with lgs := tset {} g {} s.lgs } .lgstat g 21 18 0
  setDom (setLgState s g 0) (0x180 + g) 3

/-- A group begins to train under its personality (R396 to R404). -/
def lgTrain (s : State) (g : Nat) : State :=
  let s := { s with lgs := tset {} g ⟨now s, false⟩ s.lgs }
  let s := setDom s (0x180 + g) 0
  let s := if rgF s .lgctl g 2 0 = 3 then setRgF s .palstat g 3 0 1 else s
  lgRefresh (setLgState s g 1) g

/-! ### Light (R410, R411) -/

/-- A slot's state: 0 EMPTY, 1 CHECKING, 2 STANDBY, 3 LIT, 4 RELEASED, 5 REJECTED, 6 FAILED. -/
def slotSt (s : State) (e b : Nat) : Nat := rgF s .cartstat (2 * e + b) 3 0

/-- A slot's cartridge. -/
def slotOf (s : State) (e b : Nat) : Slot := tget {} (2 * e + b) s.slots

/-- A slot's cartridge replaced. -/
def setSlot (s : State) (e b : Nat) (x : Slot) : State := { s with slots := tset {} (2 * e + b) x s.slots }

/-- A slot's state changes; its lit time runs while it is LIT (R415). -/
def setSlotSt (s : State) (e b v : Nat) : State :=
  let x := slotOf s e b
  let old := slotSt s e b
  let s := setRgF s .cartstat (2 * e + b) 3 0 v
  if old ≠ 3 ∧ v = 3 then setSlot s e b { x with litFrom := some (now s) }
  else if old = 3 ∧ v ≠ 3 then
    setSlot s e b { x with litFrom := none, litBefore := x.litBefore + (now s - x.litFrom.getD (now s)) }
  else s

/-- OESTAT.STATE of an engine whose lit slot is l: PROTECTED or EXPOSED; DARK where it is not lit. -/
def oeSettle (s : State) (e : Nat) : State :=
  let l := rgF s .oestat e 17 17
  let v := if slotSt s e l ≠ 3 then 0 else if slotSt s e (1 - l) = 2 then 1 else 2
  let s := setRgF s .oestat e 23 20 v
  lgRefresh (lgRefresh s (engGroup e)) (engGroup e + 1)

/-- Whether an engine's domain is in RUN (R411, R546). -/
def engRuns (s : State) (e : Nat) : Bool := domState s (0x1A0 + e) == 0

/-- A dark engine lights a slot (R411): the lit slot it kept (slot 0 after a cold reset) when that holds an accepted cartridge, else
the other; a slot still being checked is waited for. -/
def oeLight (s : State) (e : Nat) : State :=
  if !(engRuns s e) || oeState s e != 0 then s
  else
    let l := rgF s .oestat e 17 17
    if slotSt s e l = 2 then oeSettle (setSlotSt s e l 3) e
    else if slotSt s e l ≠ 1 ∧ slotSt s e (1 - l) = 2 then
      oeSettle (setRgF (setSlotSt s e (1 - l) 3) .oestat e 17 17 (1 - l)) e
    else s

/-- An engine's domain follows its groups (R546): RUN while any is not OFF; while it is not in RUN both slots are dark (R411). -/
def engFollow (s : State) (e : Nat) : State :=
  let on := !(lgOff s (engGroup e)) || !(lgOff s (engGroup e + 1))
  if on && !(engRuns s e) then oeLight (setDom s (0x1A0 + e) 0) e
  else if !on && engRuns s e then
    let s := (List.range 2).foldl (fun s b => if slotSt s e b = 3 then setSlotSt s e b 2 else s) s
    setDom (setRgF s .oestat e 23 20 0) (0x1A0 + e) 3
  else s

/-! ### LGCTL (R396, R397, R404, R633) -/

/-- Whether personality p on group g would break R396. -/
def persLimit (s : State) (g p : Nat) : Bool :=
  let others := fun (x lo : Nat) => ((List.range lo).filter (fun h => h != g && rgF s .lgctl h 2 0 == x)).length
  if p = 1 then decide (g ≥ 24) || decide (others 1 24 ≥ 16)
  else if p = 3 then decide (others 3 32 ≥ 8)
  else false

/-- The RWL fields of LGCTL as a write leaves them: reserved values keep the old ones, BIF is 0 outside PCIe. -/
def lgFields (s : State) (g : Nat) (v : Word) : Nat × Nat × Nat :=
  let old := rg s .lgctl g
  let p := if fld v 2 0 ≤ 3 then fld v 2 0 else fld old 2 0
  let b := if fld v 9 8 ≤ 2 then fld v 9 8 else fld old 9 8
  (p, if p = 1 then b else 0, fld v 4 4)

/-- A write of LGCTL (R397): the management processor's alone. -/
def lgctlWrite (s : State) (b : By) (g : Nat) (v : Word) : State :=
  mpWrite s b (ownLg s g) (lgOffset g 0) <|
    let old := rg s .lgctl g
    let lock := fun (s : State) => if bit v 16 then setRgF s .lgctl g 16 16 1 else s
    if bit old 16 then s
    else
      let (p, bf, sris) := lgFields s g v
      let put := fun (s : State) => lock (setRgF (setRgF (setRgF s .lgctl g 2 0 p) .lgctl g 9 8 bf) .lgctl g 4 4 sris)
      if p = fld old 2 0 ∧ bf = fld old 9 8 then put s
      else if p = 0 then
        let s := put (lgPowerOff s g)
        if g ≥ 24 then engFollow s (engOf g) else s
      else if !(lgOff s g) then setRgF s .lgstat g 16 16 1
      else if g ≥ 24 ∧ rgF s .dierev (25 + engOf g) 32 32 = 1 then setRgF s .lgstat g 16 16 1
      else if persLimit s g p then setRgF s .lgstat g 17 17 1
      else
        let s := lgTrain (put s) g
        if g ≥ 24 then lgRefresh (engFollow s (engOf g)) g else s

/-- LGCTL_WRITE (R397). -/
def execLgctlWrite (b : By) (g : GroupId) (v : Word) (s : State) : Host.Outcome State Fault Refusal := ok (lgctlWrite s b g.val v)

/-! ### Root ports (R237, R399, R403, R404) -/

/-- LINK_DOWN_DETECTED (R403). -/
def execLinkDownDetected (g : Fin 24) (k : Fin 4) (s : State) : Host.Outcome State Fault Refusal :=
  ok (if portExists s g.val k.val && portUp s (4 * g.val + k.val) then portDown s g.val k.val else s)

/-- Held accesses whose timer has expired complete with error (R237). -/
def devstoreTimeout (s : State) (g k : Nat) : State :=
  let i := 4 * g + k
  let x := rport s i
  let late := fun (p : Packet × Nat) => decide (now s ≥ p.2 + rgF s .devsto 0 15 0 * 1000)
  let s' := setRport s i { x with held := x.held.filter (fun p => !(late p)) }
  ((x.held.filter late).map (·.1)).foldl (fun s p => devComplete s p false 0) s'

/-- DEVSTORE_TIMEOUT (R237). -/
def execDevstoreTimeout (g : Fin 24) (k : Fin 4) (s : State) : Host.Outcome State Fault Refusal :=
  ok (devstoreTimeout s g.val k.val)

/-- A root port's link reaches L0 (R237, R399): a partner without Flit Mode is never brought up; held accesses are sent. -/
def portL0 (s : State) (g k : Nat) (flit : Bool) : State :=
  let i := 4 * g + k
  let x := rport s i
  if !(portExists s g k) || !((lgrp s g).perst) || x.st == 1 then s
  else if !flit then setRgF s .lgstat g (18 + k) (18 + k) 1
  else
    let s := setRgF s .lgstat g (18 + k) (18 + k) 0
    lgRefresh (setRport s i { st := 1, held := [], sent := x.sent ++ x.held.map (·.1) }) g

/-- LINK_RETURNS_L0 (R237). -/
def execLinkReturnsL0 (g : Fin 24) (k : Fin 4) (flit : Bool) (s : State) : Host.Outcome State Fault Refusal :=
  ok (portL0 s g.val k.val flit)

/-- PCIE_LINK_LEAVES_L0 (R237). -/
def execPcieLinkLeavesL0 (g : Fin 24) (k : Fin 4) (s : State) : Host.Outcome State Fault Refusal :=
  let i := 4 * g.val + k.val
  ok (if portExists s g.val k.val && (rport s i).st == 1 then setRport s i { rport s i with st := 2 } else s)

/-- A function completes the oldest DEV access sent to it under a TXID (R221). -/
def pcieCompletion (s : State) (g k : Nat) (tx : Nat) (good : Bool) (d : Word) : State :=
  let i := 4 * g + k
  let x := rport s i
  match x.sent.find? (fun p => p.txid == tx) with
  | none => s
  | some p => devComplete (setRport s i { x with sent := x.sent.erase p }) p good d

/-- PCIE_COMPLETION (R221). -/
def execPcieCompletion (g : Fin 24) (k : Fin 4) (txid : BitVec 16) (good : Bool) (d : Word) (s : State) :
    Host.Outcome State Fault Refusal :=
  ok (pcieCompletion s g.val k.val txid.toNat good d)

/-- PERST_RELEASE (R404): 100 ms after the personality took effect, the reference stable for 100 µs. -/
def execPerstRelease (g : Fin 24) (refStable : Bool) (s : State) : Host.Outcome State Fault Refusal :=
  let x := lgrp s g.val
  ok (if rgF s .lgctl g.val 2 0 = 1 ∧ !(lgOff s g.val) ∧ !x.perst ∧ refStable ∧ now s ≥ x.persAt + 100000000 then
    { s with lgs := tset {} g.val { x with perst := true } s.lgs } else s)

/-- HOT_PLUG_EVENT (R517). -/
def execHotPlugEvent (g : Fin 24) (k : Fin 4) (s : State) : Host.Outcome State Fault Refusal :=
  ok (if portExists s g.val k.val then raiseSrc s (384 + 16 * g.val + 8 + k.val) else s)

/-! ### Inbound requests (R220, R230, R401, R402, R529) -/

/-- The request of a root port's functions (R402). -/
def inReq (s : State) (g : Nat) : HubReq := { st := ⟨12, 24 + g / 4⟩, world := ownLg s g, partid := 0, keyid := 0 }

/-- An AER error is reported at a root port (R496). -/
def aer (s : State) (g k : Nat) : State := raiseSrc s (384 + 16 * g + 4 + k)

/-- Whether an address is MSIADDR of this package (R529). -/
def isMsiAddr (s : State) (pa : Nat) : Bool :=
  match paKind s pa with
  | .regWin p off => p == s.pkg && off == (regBase .msiaddr).getD 0
  | _ => false

/-- The completion returned to the requester (an Unsupported Request where the access failed, R496). -/
def portCpl (s : State) (i : Nat) (good : Bool) (bs : List Byte) : State := setRport s i { rport s i with cpl := some (good, bs) }

/-- What an inbound request does; false while its access to memory has no answer yet. A read of more than 4,096 bytes is not supported, nor
is a payload of more than 512 (R401): they end in an Unsupported Request and in an AER error (DEDUCED, log entry 100). -/
def inboundDo (s : State) (g k : Nat) (q : PcieReq) (f : Findings) (a : DevAns) : Bool × State :=
  let i := 4 * g + k
  let r := inReq s g
  match q with
  | .read _ pa len =>
    if len > 4096 then (true, portCpl s i false [])
    else
      match hubReadBytes r f a len pa.toNat s with
      | (.ok, bs, s) => (true, portCpl s i true bs)
      | (.err, _, s) => (true, portCpl s i false [])
      | (.wait, _, s') => (false, hubPause s s')
  | .write rid pa d ep =>
    if d.length > 512 then (true, aer s g k)
    else if isMsiAddr s pa.toNat then
      (true, if d.length = 4 then msiWrite s rid.toNat r.world (ofBytesLE d) else aer s g k)
    else
      match hubWriteBytes { r with ep := ep } f a d.length pa.toNat d s with
      | (.ok, _, s) => (true, s)
      | (.err, _, s) => (true, aer s g k)
      | (.wait, _, s') => (false, hubPause s s')
  | .atomic _ pa aop wide x c =>
    let w := if wide then 8 else 4
    let code := if aop = 0 then 1 else if aop = 1 then 0 else 9
    if pa.toNat % w ≠ 0 then (true, portCpl s i false [])
    else
      match hubFar s r pa.toNat code w x c f with
      | (.ok, old, s) => (true, portCpl s i true (bytesLE w old.toNat))
      | (.err, _, s) => (true, portCpl s i false [])
      | (.wait, _, s') => (false, hubPause s s')

/-- An inbound request at a root port in L0. One that waits for a home holds those behind it (R230): they have no effect until it is
done. -/
def inbound (s : State) (g k : Nat) (q : PcieReq) (f : Findings) (a : DevAns) : State :=
  let i := 4 * g + k
  let x := rport s i
  if x.st ≠ 1 ∨ !(portExists s g k) ∨ (x.inWait.isSome ∧ x.inWait ≠ some q) then s
  else
    match inboundDo s g k q f a with
    | (true, s) => if x.inWait.isNone then s else setRport s i { rport s i with inWait := none }
    | (false, s) => setRport s i { rport s i with inWait := some q }

/-- INBOUND_PCIE_REQUEST (R402). -/
def execInboundPcieRequest (g : Fin 24) (k : Fin 4) (q : PcieReq) (f : Findings) (a : DevAns) (s : State) :
    Host.Outcome State Fault Refusal :=
  hubOk (inbound s g.val k.val q f a)

end Sys2Proof.Machine
end

