-- ==== Sys2Proof/Machine/Eth.lean ====
section
/-! DEFINITION. The Ethernet controllers (R406 to R409, R444, R445): ports, received frames with RSS and checks, transmitted frames with
VLAN insertion, checksums and segmentation, pause. Frames are byte lists without the FCS. -/
namespace Sys2Proof.Machine

open Sys2Proof

/-! ### Ports (R407) -/

/-- Lanes of a RATE. -/
def rateLanes (r : Nat) : Nat := 2 ^ r

/-- Whether the fields of ETHPORT may be enabled for MAC n (R407). -/
def portFits (s : State) (n g first rate : Nat) : Bool :=
  let w := rateLanes rate
  rgF s .lgctl g 2 0 == 2 && first % w == 0 && decide (first + w ≤ 16) && !(decide (g ≥ 24) && rate == 1) &&
  (macsOn s g).all (fun m => m == n ||
    (let f := rgF s .ethport m 11 8
     let v := rateLanes (rgF s .ethport m 13 12)
     decide (f + v ≤ first) || decide (first + w ≤ f)))

/-- A write of ETHPORTn (R407); on owned controllers a normal-world write is refused (R503). -/
def ethportWrite (s : State) (b : By) (n : Nat) (v : Word) : State :=
  if ownEth s ∧ !(bySec b) then hlDenied s b deniedOwned (regPa (0x2000000 + n * 0x10000))
  else if rgF s .ethport n 16 16 = 1 then
    (if bit v 16 then s
     else
      let g := rgF s .ethport n 4 0
      let s := setEthLink s n false
      lgRefresh (setRgF s .ethport n 16 16 0) g)
  else
    let s := setRgF (setRgF (setRgF s .ethport n 13 12 (fld v 13 12)) .ethport n 11 8 (fld v 11 8)) .ethport n 4 0 (fld v 4 0)
    if !(bit v 16) then s
    else if portFits s n (fld v 4 0) (fld v 11 8) (fld v 13 12) then lgRefresh (setRgF s .ethport n 16 16 1) (fld v 4 0)
    else setRgF s .ethstat n 0 0 1

/-- ETHPORT_ENABLE (R407). -/
def execEthportEnable (b : By) (n : MacId) (v : Word) (s : State) : Host.Outcome State Fault Refusal :=
  ok (ethportWrite s b n.val (v ||| 0x10000))

/-- ETH_LINK_CHANGE (R517): an enabled MAC's PCS gains or loses alignment; it has none without light. -/
def execEthLinkChange (n : MacId) (up : Bool) (s : State) : Host.Outcome State Fault Refusal :=
  ok (if rgF s .ethport n.val 16 16 = 1 ∧ (!up ∨ (hasLight s (rgF s .ethport n.val 4 0) ∧ !(lgOff s (rgF s .ethport n.val 4 0)))) then
    setEthLink s n.val up else s)

/-! ### Headers -/

/-- n bytes of a frame from an offset on, as a big-endian number. -/
def fGet (bs : List Byte) (off n : Nat) : Nat := ((bs.drop off).take n).foldl (fun a b => a * 256 + b.toNat) 0

/-- A frame with n bytes from an offset on replaced by a big-endian number. -/
def fPut (bs : List Byte) (off n x : Nat) : List Byte := bs.take off ++ (bytesLE n x).reverse ++ bs.drop (off + n)

/-- What a frame's headers are: the offset of the IP header, the IP version (0: not IP), the offset of what follows the IP headers, its
protocol, and whether the packet is a fragment. -/
structure FHdr where
  l3 : Nat
  ip : Nat
  l4 : Nat
  proto : Nat
  frag : Bool
  deriving DecidableEq, Repr

/-- The extension headers of IPv6: where the next header lies, its number, whether a fragment header was met. -/
def v6Skip (bs : List Byte) : Nat → Nat → Nat → Bool → Nat × Nat × Bool
  | 0, off, nh, fr => (off, nh, fr)
  | fuel + 1, off, nh, fr =>
    if nh = 0 ∨ nh = 43 ∨ nh = 60 then v6Skip bs fuel (off + (fGet bs (off + 1) 1 + 1) * 8) (fGet bs off 1) fr
    else if nh = 44 then v6Skip bs fuel (off + 8) (fGet bs off 1) true
    else (off, nh, fr)

/-- Whether a type field is a VLAN tag's. -/
def isTag (t : Nat) : Bool := t == 0x8100 || t == 0x88A8

/-- The headers of a frame. -/
def fParse (bs : List Byte) : FHdr :=
  let l2 := if isTag (fGet bs 12 2) then (if isTag (fGet bs 16 2) then 22 else 18) else 14
  let t := fGet bs (l2 - 2) 2
  if t = 0x0800 ∧ bs.length ≥ l2 + 20 then
    let ihl := fGet bs l2 1 % 16 * 4
    let fo := fGet bs (l2 + 6) 2
    ⟨l2, 4, l2 + ihl, fGet bs (l2 + 9) 1, fo % 0x4000 != 0⟩
  else if t = 0x86DD ∧ bs.length ≥ l2 + 40 then
    let (off, nh, fr) := v6Skip bs 8 (l2 + 40) (fGet bs (l2 + 6) 1) false
    ⟨l2, 6, off, nh, fr⟩
  else ⟨l2, 0, l2, 0, false⟩

/-- Whether TCP or UDP follows. -/
def isL4 (h : FHdr) : Bool := h.ip != 0 && !h.frag && (h.proto == 6 || h.proto == 17)

/-- Source and destination address of an IP frame, in network order. -/
def fAddrs (bs : List Byte) (h : FHdr) : List Byte :=
  if h.ip = 4 then (bs.drop (h.l3 + 12)).take 8 else (bs.drop (h.l3 + 8)).take 32

/-! ### RSS (R409) -/

/-- Bit i of a byte list, bit 0 the most significant of byte 0. -/
def bitAt (bs : List Byte) (i : Nat) : Bool := (bs.getD (i / 8) 0).getLsbD (7 - i % 8)

/-- The 32-bit window of the key from bit i on. -/
def keyWindow (key : List Byte) (i : Nat) : Nat := (List.range 32).foldl (fun a j => a * 2 + (bitAt key (i + j)).toNat) 0

/-- The Toeplitz hash of R409. -/
def toeplitz (key inp : List Byte) : Nat :=
  (List.range (8 * inp.length)).foldl (fun h i => if bitAt inp i then h ^^^ keyWindow key i else h) 0

/-- The key of a MAC: RSSKEY0 to 4. -/
def rssKey (s : State) (n : Nat) : List Byte := (List.range 5).flatMap (fun i => bytesLE 8 (rg s .rsskey (n * 5 + i)).toNat)

/-- The RSS hash of a frame; none for a non-IP frame. -/
def rssHash (s : State) (n : Nat) (bs : List Byte) : Option Nat :=
  let h := fParse bs
  if h.ip = 0 then none
  else some (toeplitz (rssKey s n) (fAddrs bs h ++ (if isL4 h then (bs.drop h.l4).take 4 else [])))

/-- The queue RSSIND names for a hash. -/
def rssQueue (s : State) (n h : Nat) : Nat :=
  let e := h % 512
  fld (rg s .rssind (n * 128 + e / 4)) (16 * (e % 4) + 13) (16 * (e % 4))

/-! ### Checksums (R408) -/

/-- The ones' complement sum of 16-bit words of a byte list. -/
def sum16 : List Byte → Nat
  | [] => 0
  | [a] => a.toNat * 256
  | a :: b :: t =>
    let x := sum16 t + (a.toNat * 256 + b.toNat)
    x % 65536 + x / 65536

/-- Two ones' complement sums added. -/
def add16 (a b : Nat) : Nat := (a + b) % 65536 + (a + b) / 65536

/-- The sum of the pseudo-header of a TCP or UDP packet. -/
def pseudoSum (bs : List Byte) (h : FHdr) (len : Nat) : Nat :=
  add16 (sum16 (fAddrs bs h)) (add16 h.proto (add16 (len / 65536) (len % 65536)))

/-- The length of the TCP or UDP packet, from the IP header. -/
def l4Len (bs : List Byte) (h : FHdr) : Nat :=
  if h.ip = 4 then fGet bs (h.l3 + 2) 2 - (h.l4 - h.l3) else fGet bs (h.l3 + 4) 2 - (h.l4 - h.l3 - 40)

/-- Whether the IPv4 header checksum is good. -/
def ipSumGood (bs : List Byte) (h : FHdr) : Bool := h.ip == 4 && sum16 ((bs.drop h.l3).take (h.l4 - h.l3)) == 0xFFFF

/-- Whether the TCP or UDP checksum is good. -/
def l4SumGood (bs : List Byte) (h : FHdr) : Bool :=
  let n := l4Len bs h
  isL4 h && add16 (pseudoSum bs h n) (sum16 ((bs.drop h.l4).take n)) == 0xFFFF && !(h.proto == 17 && fGet bs (h.l4 + 6) 2 == 0)

/-- The checksums of a frame inserted: IPv4 header, TCP, UDP. -/
def putSums (bs : List Byte) : List Byte :=
  let h := fParse bs
  let bs := if h.ip = 4 then
      let z := fPut bs (h.l3 + 10) 2 0
      fPut z (h.l3 + 10) 2 (65535 - sum16 ((z.drop h.l3).take (h.l4 - h.l3)))
    else bs
  if !(isL4 h) then bs
  else
    let off := h.l4 + (if h.proto = 6 then 16 else 6)
    let z := fPut bs off 2 0
    let n := l4Len z h
    let c := 65535 - add16 (pseudoSum z h n) (sum16 ((z.drop h.l4).take n))
    fPut z off 2 (if h.proto = 17 ∧ c = 0 then 65535 else c)

/-! ### Receive (R408, R409, R445) -/

/-- The posted buffers of a receive queue, in SQIDX order. -/
def rxPosted (s : State) (q : Nat) : List Item := (queue s q).items.takeWhile (fun i => i.posted && i.bad.isNone)

/-- A pause or priority pause frame stops the MAC's transmission for its quanta of 512 bit times (R408). -/
def pauseFrame (s : State) (n : Nat) (bs : List Byte) : State :=
  let quantum := fun (x : Nat) => now s + x * 512 / (100 * rateLanes (rgF s .ethport n 13 12))
  let op := fGet bs 14 2
  if op = 1 then { s with ethPause := tset 0 (16 * n + 8) (quantum (fGet bs 16 2)) s.ethPause }
  else if op = 0x0101 then
    (List.range 8).foldl (fun s p =>
      if (fGet bs 16 2).testBit p then { s with ethPause := tset 0 (16 * n + p) (quantum (fGet bs (18 + 2 * p) 2)) s.ethPause } else s) s
  else s

/-- A frame fills posted buffers in order, one record each (R445); false when a write has no answer yet. -/
def rxFill (n q : Nat) (i : EngIn) (hash r1 : Nat) (t : Word) : List Item → List Byte → State → Bool × State
  | [], _, s => (true, s)
  | it :: its, bs, s =>
    if bs.isEmpty then (true, s)
    else
      let cap := dB it.desc 16 4
      let part := bs.take cap
      let more := decide (bs.length > cap)
      let (res, k, s') := shWriteBuf s n ⟨12, 23⟩ i i.dst (dB it.desc 8 8) part
      match res with
      | .wait => (false, s')
      | .ok =>
        (match writeRecord s' n q it {
            status := 0, r0 := BitVec.ofNat 64 (hash * 2 ^ 32 + part.length), r1 := BitVec.ofNat 64 (r1 + more.toNat * 8), time := some t } i with
         | (true, s) => rxFill n q i hash r1 t its (bs.drop cap) s
         | r => r)
      | r =>
        writeRecord s' n q it { resRecord r k with time := some t } i

/-- A received frame (R408, R409, R445). `accept` is what the address filters say. -/
def frameIn (s : State) (m : Nat) (bs : List Byte) (accept : Bool) (i : EngIn) : State :=
  if rgF s .ethport m 16 16 = 0 ∨ rgF s .ethstat m 16 16 = 0 ∨ bs.length < 60 ∨ bs.length > 9212 then s
  else if fGet bs 12 2 = 0x8808 then pauseFrame s m bs
  else if !accept then s
  else
    let h := rssHash s m bs
    let q := rssQueue s m (h.getD 0)
    match queueShare s q with
    | none => incRgF s .ethstat m 63 32
    | some n =>
      if qKind s q ≠ 4 ∨ (queue s q).target ≠ m then incRgF s .ethstat m 63 32
      else
        let hd := fParse bs
        let vlan := isTag (fGet bs 12 2)
        let data := if vlan then bs.take 12 ++ bs.drop 16 else bs
        let bufs := rxPosted s q
        if bufs.foldl (fun a it => a + dB it.desc 16 4) 0 < data.length then incRgF s .qstat q 23 16
        else
          let r1 := (if vlan then fGet bs 14 2 * 2 ^ 16 + 4 else 0) + (l4SumGood bs hd).toNat * 2 + (ipSumGood bs hd).toNat
          match rxFill n q i (h.getD 0) r1 s.ptime bufs data s with
          | (true, s) => flushBad n q i (queue s q).items.length s
          | (false, s') => hubPause s s'

/-- FRAME_RECEIVED (R409). -/
def execFrameReceived (m : MacId) (bs : List Byte) (accept : Bool) (i : EngIn) (s : State) : Host.Outcome State Fault Refusal :=
  hubOk (frameIn s m.val bs accept i)

/-- ETH_RX_POST (R444): the queue's next descriptor posts its buffer. -/
def rxPost (s : State) (q : Nat) : State :=
  if qKind s q ≠ 4 then s
  else
    match (queue s q).items.find? (fun it => !it.posted && it.bad.isNone) with
    | none => s
    | some it =>
      setQueue s q { queue s q with items := (queue s q).items.map (fun x => if x.sqidx = it.sqidx then { x with posted := true } else x) }

/-- ETH_RX_POST (R444). -/
def execEthRxPost (q : QueueId) (s : State) : Host.Outcome State Fault Refusal := ok (rxPost s q.val)

/-! ### Transmit (R408, R444) -/

/-- Segments of a TCP packet's data of at most mss bytes, with offsets. -/
def segs (mss : Nat) : Nat → Nat → List Byte → List (Nat × List Byte × Bool)
  | 0, _, _ => []
  | fuel + 1, off, bs =>
    if bs.length ≤ mss then [(off, bs, true)] else (off, bs.take mss, false) :: segs mss fuel (off + mss) (bs.drop mss)

/-- One segment of a TCP frame (R408): lengths, identification, sequence number, PSH and FIN on the last alone, CWR on the first
alone. -/
def segFrame (bs : List Byte) (h : FHdr) (hl : Nat) (j : Nat) (x : Nat × List Byte × Bool) : List Byte :=
  let (off, part, last) := x
  let f := bs.take hl ++ part
  let f := if h.ip = 4 then
      fPut (fPut f (h.l3 + 2) 2 (hl - h.l3 + part.length)) (h.l3 + 4) 2 ((fGet bs (h.l3 + 4) 2 + j) % 65536)
    else fPut f (h.l3 + 4) 2 (hl - h.l3 - 40 + part.length)
  let f := fPut f (h.l4 + 4) 4 ((fGet bs (h.l4 + 4) 4 + off) % 2 ^ 32)
  let fl := fGet bs (h.l4 + 13) 1
  let fl := if last then fl else fl &&& 0xF6
  let fl := if j = 0 then fl else fl &&& 0x7F
  putSums (fPut f (h.l4 + 13) 1 fl)

/-- A frame padded to the shortest length. -/
def padFrame (f : List Byte) : List Byte := f ++ List.replicate (60 - f.length) 0

/-- The frames of the segments, from number j on. -/
def segFrames (bs : List Byte) (h : FHdr) (hl : Nat) : Nat → List (Nat × List Byte × Bool) → List (List Byte)
  | _, [] => []
  | j, x :: xs => padFrame (segFrame bs h hl j x) :: segFrames bs h hl (j + 1) xs

/-- The frames a descriptor chain sends: flags of its first descriptor, its tag bytes and MSS. None when the frame is too long. -/
def txFrames (bs : List Byte) (fl tag mss : Nat) : Option (List (List Byte)) :=
  let bs := if fl.testBit 2 then bs.take 12 ++ bytesLE 4 tag ++ bs.drop 12 else bs
  let h := fParse bs
  if fl.testBit 3 && isL4 h && h.proto == 6 && Nat.ble bs.length 262148 then
    let hl := h.l4 + fGet bs (h.l4 + 12) 1 / 16 * 4
    let ss := segs mss (bs.length + 1) 0 (bs.drop hl)
    if hl + mss > 9212 then none
    else some (segFrames bs h hl 0 ss)
  else
    let bs := if fl.testBit 1 then putSums bs else bs
    if bs.length > 9212 then none else some [padFrame bs]

/-- Whether MAC m may send a frame now: enabled, link up, not paused for the frame's priority (R408). -/
def macMaySend (s : State) (m : Nat) (bs : List Byte) : Bool :=
  let p := if isTag (fGet bs 12 2) then fGet bs 14 1 / 32 else 0
  rgF s .ethport m 16 16 == 1 && rgF s .ethstat m 16 16 == 1 &&
  decide (now s ≥ tget 0 (16 * m + 8) s.ethPause) && decide (now s ≥ tget 0 (16 * m + p) s.ethPause)

/-- ETH_TRANSMIT (R444): the first item of a transmit queue gives its part of a frame; the last part sends it. -/
def ethSend (s : State) (q : Nat) (i : EngIn) : State :=
  match readyItem s q 3 0x10 with
  | none => s
  | some (n, it) =>
    let x := queue s q
    let d := it.desc
    let len := dB d 16 4
    let first := x.frame.isEmpty
    let fl := if first then dFlags d else x.frameHdr
    let tag := if first then dB d 20 6 else x.frameTag
    match shReadBuf s n ⟨12, 23⟩ i i.src (dB d 8 8) len with
    | (.wait, _, s') => hubPause s s'
    | (.ok, bs, s') =>
      let all := x.frame ++ bs
      let stamp := if (dFlags d).testBit 4 then s.ptime else 0
      if (dFlags d).testBit 0 then
        let s' := setQueue s' q { queue s' q with frame := all, frameHdr := fl, frameTag := tag }
        finishItem s s' n q it { status := 0, r0 := BitVec.ofNat 64 len } i
      else
        match txFrames all fl (tag % 2 ^ 32) (tag / 2 ^ 32) with
        | none => finishItem s (setQueue s' q { queue s' q with frame := [] }) n q it { status := 1 } i
        | some fs =>
          if !(fs.all (macMaySend s x.target)) then s
          else
            let s' := setQueue s' q { queue s' q with frame := [] }
            let s' := { s' with ethTx := s'.ethTx ++ fs.map (fun f => ⟨x.target, f, s.ptime⟩) }
            finishItem s s' n q it { status := 0, r0 := BitVec.ofNat 64 len, r1 := stamp } i
    | (r, bs, s') => finishItem s (setQueue s' q { queue s' q with frame := [] }) n q it (resRecord r bs.length) i

/-- ETH_TRANSMIT (R444). -/
def execEthTransmit (q : QueueId) (i : EngIn) (s : State) : Host.Outcome State Fault Refusal := hubOk (ethSend s q.val i)

end Sys2Proof.Machine
end

