-- ==== Sys2Proof/Machine/IntrCmd.lean ====
section
/-! DEFINITION. The commands of the interrupt controller and of the cores' interrupt interfaces (R518 to R536). -/
namespace Sys2Proof.Machine

open Sys2Proof

/-- Whether a wired source exists (R517). -/
def sourceExists (n : Nat) : Bool :=
  if n < 384 then decide (n % 32 < 12)
  else if n < 896 then
    let g := (n - 384) / 16
    let k := (n - 384) % 16
    (decide (k < 12) && decide (g < 24)) || k == 12 || k == 13 || (k == 14 && decide (24 ≤ g) && g % 2 == 0)
  else decide (n < 928)

/-- A source is raised (R517, R520, R527): a wired source that exists, or a vector. -/
def sourceRaise (s : State) (intid : Nat) : State :=
  if intid ≥ 0x8000 then raiseVec s (intid - 0x8000)
  else if intid < 0x800 ∧ sourceExists intid then raiseSrc s intid
  else s

/-- SOURCE_RAISE (R520). -/
def execSourceRaise (intid : BitVec 16) (s : State) : Host.Outcome State Fault Refusal := ok (sourceRaise s intid.toNat)

/-- What a world may write into INTSRCn or MSICTLv (R519): the normal world never sets SEC, nor LVL = 0b11. -/
def intWritable (sec : Bool) (old v : Word) : Word :=
  if sec then v
  else
    let v := setFld v 31 31 0
    if fld v 29 28 = 3 then setFld v 29 28 (fld old 29 28) else v

/-- A write of INTSRCn or MSICTLv (R518, R519, R521): a message that no longer has a target there is withdrawn. -/
def intCfgWrite (s : State) (sec : Bool) (intid : Nat) (v : Word) : State :=
  let (r, i) : RegName × Nat := if intid < 0x800 then (.intsrc, intid) else (.msictl, intid - 0x8000)
  let old := rg s r i
  if !sec && (if intid < 0x800 then bit old 31 else vecSec s i) then s
  else
    let was := undelivered s intid
    let s := setRg s r i (writeFields (regFields r) false old (intWritable sec old v))
    if undelivered s intid = was then s
    else
      match was with
      | some t => setCore s t { getCore s t with arrived := (getCore s t).arrived.filter (fun x => x != intid) }
      | none => s

/-- INTSRC_WRITE (R519, R521). -/
def execIntsrcWrite (b : By) (n : Fin 2048) (v : Word) (s : State) : Host.Outcome State Fault Refusal :=
  ok (intCfgWrite s (bySec b) n.val v)

/-- IACK (R524): a SYSRD. -/
def execIack (c : CoreId) (rt : BitVec 5) (s : State) : Host.Outcome State Fault Refusal :=
  ok (runInstr s c.val (bodySysrd c.val ⟨rt, 0x801⟩))
/-- IEOI (R525): a SYSWR. -/
def execIeoi (c : CoreId) (rt : BitVec 5) (s : State) : Host.Outcome State Fault Refusal :=
  ok (runInstr s c.val (bodySyswr c.val ⟨rt, 0x802⟩))
/-- ISGI (R526): a SYSWR. -/
def execIsgi (c : CoreId) (rt : BitVec 5) (s : State) : Host.Outcome State Fault Refusal :=
  ok (runInstr s c.val (bodySyswr c.val ⟨rt, 0x805⟩))

/-- MSI_WRITE (R529): an inbound write of 4 bytes to MSIADDR from root port k of group g. -/
def execMsiWrite (g : Fin 24) (rid : BitVec 16) (x : BitVec 32) (s : State) : Host.Outcome State Fault Refusal :=
  ok (msiWrite s rid.toNat (ownLg s g.val) x.toNat)

/-- INTERRUPT_POST (R532): the controller posts a virtual interrupt to a record. -/
def execInterruptPost (rec_ : BitVec 44) (v : BitVec 10) (s : State) : Host.Outcome State Fault Refusal :=
  ok (postTo s (rec_.toNat * 256) v.toNat)

/-- VISGI (R532): a SYSWR. -/
def execVisgi (c : CoreId) (rt : BitVec 5) (s : State) : Host.Outcome State Fault Refusal :=
  ok (runInstr s c.val (bodySyswr c.val ⟨rt, 0x815⟩))

/-- A posting notification reaches core c (R533). -/
def postArrive (s : State) (c : Nat) : State :=
  match takePacket (fun p => p.cmd == .irq && p.holder == 1 && p.dst == coreStop c) s with
  | none => s
  | some (p, s) =>
    let s := gArrive s p
    if guestOn s c ∧ vpostRecord s c = p.addr then
      hwDo s (coreStop c) (secOf (getCore s c)) p.addr .off
    else setCore s c { getCore s c with postPend := true }

/-- POSTING_NOTIFICATION (R533). -/
def execPostingNotification (c : CoreId) (s : State) : Host.Outcome State Fault Refusal := ok (postArrive s c.val)

/-- VIACK (R534): a SYSRD of IACK by a guest, or of VIACK by PL2. -/
def execViack (c : CoreId) (rt : BitVec 5) (guest : Bool) (s : State) : Host.Outcome State Fault Refusal :=
  ok (runInstr s c.val (bodySysrd c.val ⟨rt, if guest then 0x801 else 0x811⟩))
/-- VIEOI (R534): a SYSWR of IEOI by a guest, or of VIEOI by PL2. -/
def execVieoi (c : CoreId) (rt : BitVec 5) (guest : Bool) (s : State) : Host.Outcome State Fault Refusal :=
  ok (runInstr s c.val (bodySyswr c.val ⟨rt, if guest then 0x802 else 0x812⟩))

/-- The timer of a level and world (R536): its local source becomes pending when the condition holds; those whose condition has ended
are dropped. -/
def timerFires (s : State) (c lv : Nat) (w : Bool) : State :=
  let k := getCore s c
  let w := w || decide (lv = 3)
  let live := k.timerPend.filter (fun x => timerCond s c (x / 2) (x % 2 == 1) && x != timerKey lv w)
  setCore s c { k with timerPend := if timerCond s c lv w then live ++ [timerKey lv w] else live }

/-- TIMER_FIRES (R536). -/
def execTimerFires (c : CoreId) (lv : Fin 3) (w : Bool) (s : State) : Host.Outcome State Fault Refusal :=
  ok (timerFires s c.val (lv.val + 1) w)

end Sys2Proof.Machine
end

