-- ==== Sys2Proof/Machine/Ladle.lean ====
section
/-! DEFINITION. Ladle operations (R443): each serves the first accepted descriptor of its queue. -/
namespace Sys2Proof.Machine

open Sys2Proof

/-- The stop of the Ladle engines (R309). -/
def ladleStop : StopId := ⟨12, 16⟩

/-- COPY in ascending order of bytes, overlap included (R443), up to a line of the destination at a time: a byte that the same part
has copied before is that copy. How it ended, how many bytes were done. -/
def copyBytes (n : Nat) (i : EngIn) (src dst : Nat) : Nat → Nat → Nat → State → ShRes × Nat × State
  | 0, _, k, s => (.ok, k, s)
  | fuel + 1, left, k, s =>
    if left = 0 then (.ok, k, s)
    else
      let m := min left (64 - (dst + k) % 64)
      let per := if src < dst then min m (dst - src) else m
      let (r, bs, s) := shReadBuf s n ladleStop i i.src (src + k) per
      let part := if r = .ok then (List.range m).map (fun j => bs.getD (j % per) 0) else bs
      if r = .wait then (.wait, k, s)
      else
        match shWriteBuf s n ladleStop i i.dst (dst + k) part with
        | (.ok, _, s) => if r = .ok then copyBytes n i src dst fuel (left - m) (k + m) s else (r, k + part.length, s)
        | (e, c, s) => (e, k + c, s)

/-- A Ladle operation on the first item of queue q: `run` gives how it ended, the bytes done, RESULT1 and the state. -/
def ladleOp (s : State) (q op : Nat) (i : EngIn) (run : Nat → LineData → ShRes × Nat × Word × State) : State :=
  match readyItem s q 1 op with
  | none => s
  | some (n, it) =>
    if dB it.desc 24 4 = 0 ∧ op ≠ 5 then finishItem s s n q it { status := 0, r1 := if op = 4 then BitVec.allOnes 64 else if op = 3 then BitVec.ofNat 64 (dB it.desc 32 4) else 0 } i
    else
      match run n it.desc with
      | (.wait, _, _, s') => hubPause s s'
      | (.ok, k, r1, s') => finishItem s s' n q it { status := 0, r0 := BitVec.ofNat 64 k, r1 := r1 } i
      | (r, k, _, s') => finishItem s s' n q it (resRecord r k) i

/-- SRC, DST, LEN and ARG of a Ladle descriptor. -/
def dSrc (d : LineData) : Nat := dB d 8 8
/-- DST. -/
def dDst (d : LineData) : Nat := dB d 16 8
/-- LEN. -/
def dLen (d : LineData) : Nat := dB d 24 4

/-- COPY (R443). -/
def ladleCopy (s : State) (q : Nat) (i : EngIn) : State :=
  ladleOp s q 1 i (fun n d =>
    let (r, k, s) := copyBytes n i (dSrc d) (dDst d) (dLen d) (dLen d) 0 s
    (r, k, 0, s))

/-- FILL (R443): byte i from pattern byte i mod 8. -/
def ladleFill (s : State) (q : Nat) (i : EngIn) : State :=
  ladleOp s q 2 i (fun n d =>
    let pat := (List.range (dLen d)).map (fun j => lineByte d (32 + j % 8))
    let (r, k, s) := shWriteBuf s n ladleStop i i.dst (dDst d) pat
    (r, k, 0, s))

/-- CRC32C (R111, R443), continued from ARG[31:0]. -/
def ladleCrc (s : State) (q : Nat) (i : EngIn) : State :=
  ladleOp s q 3 i (fun n d =>
    let (r, bs, s) := shReadBuf s n ladleStop i i.src (dSrc d) (dLen d)
    (r, bs.length, BitVec.ofNat 64 (crc32c (BitVec.ofNat 32 (dB d 32 4)) bs).toNat, s))

/-- The offset of the first difference of two byte lists; all ones when equal. -/
def firstDiff (a b : List Byte) : Word :=
  match (List.range a.length).find? (fun j => a.getD j 0 != b.getD j 0) with
  | some j => BitVec.ofNat 64 j
  | none => BitVec.allOnes 64

/-- COMPARE (R443). -/
def ladleCompare (s : State) (q : Nat) (i : EngIn) : State :=
  ladleOp s q 4 i (fun n d =>
    match shReadBuf s n ladleStop i i.src (dSrc d) (dLen d) with
    | (.ok, a, s) =>
      let (r, b, s) := shReadBuf s n ladleStop i i.dst (dDst d) (dLen d)
      (r, b.length, firstDiff a b, s)
    | (r, a, s) => (r, a.length, 0, s))

/-- NOP (R443): no access. -/
def ladleNop (s : State) (q : Nat) (i : EngIn) : State := ladleOp s q 5 i (fun _ _ => (.ok, 0, 0, s))

/-- COPY. -/
def execCopy (q : QueueId) (i : EngIn) (s : State) : Host.Outcome State Fault Refusal := hubOk (ladleCopy s q.val i)
/-- FILL. -/
def execFill (q : QueueId) (i : EngIn) (s : State) : Host.Outcome State Fault Refusal := hubOk (ladleFill s q.val i)
/-- CRC32C. -/
def execCrc32c (q : QueueId) (i : EngIn) (s : State) : Host.Outcome State Fault Refusal := hubOk (ladleCrc s q.val i)
/-- COMPARE. -/
def execCompare (q : QueueId) (i : EngIn) (s : State) : Host.Outcome State Fault Refusal := hubOk (ladleCompare s q.val i)
/-- LADLE_NOP. -/
def execLadleNop (q : QueueId) (i : EngIn) (s : State) : Host.Outcome State Fault Refusal := hubOk (ladleNop s q.val i)

end Sys2Proof.Machine
end

