-- ==== Sys2Proof/Machine/MemCmd.lean ====
section
/-! DEFINITION. The commands of the memory channels and the memory key block (R380 to R384, R389 to R391). -/
namespace Sys2Proof.Machine

open Sys2Proof

/-! ### Patrol scrub (R380 to R382) -/

/-- The physical address of a channel address: the inverse of R373. -/
def caPa (s : State) (ch ca : Nat) : Nat :=
  let chs := hashChannels s
  let n := max 1 chs.length
  let q := ca / 256
  let f := fold6 (q ^^^ rgF s .memhash 0 63 32)
  let i := (List.range n).find? (fun i => chs.getD i 24 == ch)
  let r := ((i.getD 0) + n - f % n) % n
  let m := (q * n + r) * 256 + ca % 256
  let top := memNC s * memC s
  let off := if s.pkg = 0 ∧ 0xE0000000 ≤ m ∧ m < 0x100000000 ∧ 0xE0000000 < top then m - 0xE0000000 + top else m
  s.pkg * 0x400000000000 + off

/-- The ticks between two scrub reads of a channel: PERIOD hours spread over its lines. -/
def scrubGap (s : State) (ch : Nat) : Nat := rgF s .mcscrub ch 7 0 * 3600000000000 / max 1 (memC s / 64)

/-- PATROL_SCRUB_READ (R380): the next line is read, corrected or poisoned; POS advances, and at the end of a pass PASSES counts. -/
def scrubRead (s : State) (ch : Nat) (e : Ecc) : State :=
  let pos := rgF s .mcscrub ch 40 8
  if chState s ch ≠ 2 ∨ rgF s .mcscrub ch 7 0 = 0 ∨ rgF s .pkgstat 0 10 8 = 4 ∨ rgF s .pkgstat 0 10 8 = 5 ∨
      !(s.hashChs.contains ch) ∨ now s < tget 0 ch s.scrubAt + scrubGap s ch then s
  else
    let s := (chRead s (caPa s ch (pos * 64) / 64) e true).2.2
    let s := { s with scrubAt := tset 0 ch (now s) s.scrubAt }
    if (pos + 1) * 64 ≥ memC s then incRgF (setRgF s .mcscrub ch 40 8 0) .mcscrub ch 63 48
    else setRgF s .mcscrub ch 40 8 (pos + 1)

/-- PATROL_SCRUB_READ (R380). -/
def execPatrolScrubRead (ch : Fin 24) (e : Ecc) (s : State) : Host.Outcome State Fault Refusal := ok (scrubRead s ch.val e)

/-! ### MCCTL (R383, R384) -/

/-- LOGCLR: the channel's logs, OVERFLOW and NEXT. -/
def mcLogclr (s : State) (ch : Nat) : State :=
  let s := (List.range 8).foldl (fun s n => setRg s .mccelog (ch * 8 + n) 0) s
  setRgF (setRgF (setRg s .mcuelog ch 0) .mccestat ch 15 8 0) .mccestat ch 2 0 0

/-- A write of MCCTL: CETHR unless locked or 0 (R13), judged at once (R384); LOCK; LOGCLR. -/
def mcctlWrite (s : State) (ch : Nat) (v : Word) : State :=
  let s := if rgF s .mcctl ch 32 32 = 1 ∨ fld v 31 16 = 0 then s else setRgF s .mcctl ch 31 16 (fld v 31 16)
  let s := if bit v 32 then setRgF s .mcctl ch 32 32 1 else s
  let s := judgeCethr s ch
  if bit v 0 then mcLogclr s ch else s

/-- The offset of a register of channel ch. -/
def chOff (ch off : Nat) : Nat := stkOff (ch / 2) (0x500000 + ch % 2 * 0x10000 + off)

/-- MCCTL_WRITE (R384). -/
def execMcctlWrite (b : By) (ch : Fin 24) (v : Word) (s : State) : Host.Outcome State Fault Refusal :=
  ok (ownWrite s b (ownStk s (ch.val / 2)) (chOff ch.val 0) (mcctlWrite s ch.val v))

/-- MC_LOGCLR (R383). -/
def execMcLogclr (b : By) (ch : Fin 24) (s : State) : Host.Outcome State Fault Refusal :=
  ok (ownWrite s b (ownStk s (ch.val / 2)) (chOff ch.val 0) (mcLogclr s ch.val))

/-! ### Memory keys (R389 to R391) -/

/-- KEYSTAT.STATUS set. -/
def setKeyStat (s : State) (x : Nat) : State := setRgF s .keystat 0 7 0 x

/-- A key as KEYDATA holds it. -/
def keyDataOf (s : State) (base : Nat) : BitVec 256 :=
  BitVec.ofNat 256 ((List.range 4).foldl (fun a i => a + (rg s .keydata (base + i)).toNat * 2 ^ (64 * i)) 0)

/-- KEYDATA0 to 7 zeroed. -/
def zeroKeyData (s : State) : State := (List.range 8).foldl (fun s i => setRg s .keydata i 0) s

/-- What a command leaves for its KEYID: op 0 loads, 1 generates from the entropy source, 2 clears. -/
def keyResult (s : State) (op : Nat) : Option (BitVec 256 × BitVec 256) × State :=
  if op = 0 then (some (keyDataOf s 0, keyDataOf s 4), s)
  else if op = 1 then
    let (a, s) := freeKey s
    let (b, s) := freeKey s
    (some (a, b), s)
  else (none, s)

/-- The RW fields a command's write of KEYCMD carries; a reserved OP leaves OP (R13). -/
def keyFields (s : State) (op keyid : Nat) (sown : Bool) : State :=
  let s := setRgF (setRgF s .keycmd 0 26 16 keyid) .keycmd 0 12 12 sown.toNat
  if op < 3 then setRgF s .keycmd 0 9 8 op else s

/-- A GO of KEYCMD (R389, R390): refused while busy; KEYID 0 and the reserved OP are bad; the secure world's keys are its own. -/
def keyGo (s : State) (b : By) (op keyid : Nat) (sown healthy : Bool) : State :=
  let k := memKey s keyid
  if rgF s .keystat 0 7 0 = 1 then setRgF s .keystat 0 8 8 1
  else
    let s := keyFields s op keyid sown
    if keyid = 0 ∨ op = 3 then setKeyStat s 0x11
    else if !(bySec b) ∧ (k.sown ∨ sown) then hlDenied (setKeyStat s 0x10) b 0x10 (regPa 0x40000)
    else if op = 1 ∧ !healthy then setKeyStat (zeroKeyData s) 0x12
    else
      let (r, s) := keyResult s op
      let own := if op = 2 then false else k.sown || sown
      setKeyStat { zeroKeyData s with keyPend := some ⟨keyid, r, own⟩ } 1

/-- KEY_LOAD (R389). -/
def execKeyLoad (b : By) (keyid : BitVec 11) (sown : Bool) (s : State) : Host.Outcome State Fault Refusal :=
  ok (keyGo s b 0 keyid.toNat sown true)
/-- KEY_GENERATE (R389). -/
def execKeyGenerate (b : By) (keyid : BitVec 11) (sown healthy : Bool) (s : State) : Host.Outcome State Fault Refusal :=
  ok (keyGo s b 1 keyid.toNat sown healthy)
/-- KEY_CLEAR (R389). -/
def execKeyClear (b : By) (keyid : BitVec 11) (sown : Bool) (s : State) : Host.Outcome State Fault Refusal :=
  ok (keyGo s b 2 keyid.toNat sown true)

/-- KEY_COMMAND_DONE (R389): every controller holds the result. -/
def keyDone (s : State) : State :=
  match s.keyPend with
  | none => s
  | some p =>
    let k : MemKey := match p.key with
      | some (a, b) => { loaded := true, k1 := a, k2 := b, sown := p.sown }
      | none => { sown := p.sown }
    setKeyStat { s with keyPend := none, keys := tset {} p.keyid k s.keys } 2

/-- KEY_COMMAND_DONE (R389). -/
def execKeyCommandDone (s : State) : Host.Outcome State Fault Refusal := ok (keyDone s)

end Sys2Proof.Machine
end

