-- ==== Sys2Proof/Machine/Mgmt.lean ====
section
/-! DEFINITION. The management processor: its boot and restart (R597 to R599, R605), the mailboxes (R600 to R603), shedding and the watchdog
(R604, R605); and the heat log's records and commits (R606 to R610). -/
namespace Sys2Proof.Machine

open Sys2Proof

/-! ### Memory as the hub's own agents reach it -/

/-- An access of memory meets no device. -/
def noDev : DevAns := ⟨0, 0, false⟩

/-- The request of a hub block at stop u in a world. -/
def blockReq (u : Nat) (w : Bool) : HubReq := { st := ⟨12, u⟩, world := w, partid := 0, keyid := 0 }

/-- The 64-byte block at an address of memory, read from hub stop u in a world. -/
def blockRead (s : State) (u : Nat) (w : Bool) (pa : Nat) (f : Findings) : HubRes × LineData × State :=
  if isLocalMem s pa || isRemoteMem s pa then hubRead s (blockReq u w) pa f noDev else (.err, 0, s)

/-- Bytes written into memory from hub stop u in a world; false while the write cannot be made yet, with the requests it made. -/
def blockWrite (s : State) (u : Nat) (w : Bool) (pa : Nat) (bs : List Byte) (f : Findings) : Bool × State :=
  match hubWriteBytes (blockReq u w) f noDev 2 pa bs s with
  | (.wait, _, s1) => (false, hubPause s s1)
  | (_, _, s) => (true, s)

/-- A word of a block. -/
def bWord (d : LineData) (off : Nat) : Word := BitVec.ofNat 64 (lineGet d off 8)

/-- A block with bytes replaced. -/
def bPut (d : LineData) (off n x : Nat) : LineData := linePut d off n x

/-- The header of a request block with its status (R600): RETRY_AFTER where one is given. -/
def mbHeader (d : LineData) (status : Nat) (done : Bool) (retry : Nat) : Word :=
  setFld (setFld (setFld (bWord d 0) 15 8 status) 0 0 done.toNat) 47 32 retry

/-! ### Class queues (R601, R602) -/

/-- The entries of a class. -/
def mbQ (s : State) (c : Nat) : List MbEntry := tget [] c s.mp.mbq

/-- A class queue replaced, and its count in MPSTAT. -/
def setMbQ (s : State) (c : Nat) (q : List MbEntry) : State :=
  let lo := 32 - 8 * c
  setRgF { s with mp := { s.mp with mbq := tset [] c q s.mp.mbq } } .mpstat 0 (lo + 7) lo q.length

/-- The class served next: tundish, secure monitor, hypervisor, board controller. -/
def mbNext (s : State) : Option Nat := [0, 1, 2, 3].find? (fun c => !(mbQ s c).isEmpty)

/-- Service begins with the next entry, where none is under way and the management processor runs its image. -/
def mbServe (s : State) : State :=
  if s.mp.serv.isNone && s.mp.boot == 1 then { s with mp := { s.mp with serv := (mbNext s).map (fun c => (c, now s)) } } else s

/-- RETRY_AFTER of a class (R601). -/
def mbRetry (s : State) (c : Nat) : Nat :=
  let l := tget [] c s.mp.mbTimes
  min 65535 (if l.isEmpty then 0 else 64 * (l.sum / l.length))

/-- A post to a class: its block as the answer writes it, and the entry (R601). -/
def mbEnter (s : State) (c : Nat) (e : MbEntry) : LineData × State :=
  let q := mbQ s c
  if q.length < 64 then
    (bPut e.block 0 8 (mbHeader e.block 1 false (lineGet e.block 4 2)).toNat, mbServe (setMbQ s c (q ++ [{ e with at_ := now s }])))
  else (bPut e.block 0 8 (mbHeader e.block 4 true (mbRetry s c)).toNat, s)

/-- The world of a class. -/
def mbWorld (c : Nat) : Bool := c == 1

/-- MAILBOX_POST (R601, R603): MBPOST0 is the hypervisor class, MBPOST1 the secure monitor, which takes secure-world writes only. -/
def mbPost (s : State) (b : By) (c line : Nat) (f : Findings) : State :=
  if c = 1 ∧ !(bySec b) then s
  else
    let cls := 2 - c
    match blockRead s 19 (mbWorld cls) (line * 64) f with
    | (.err, _, s') => hubEnd s'
    | (.wait, _, s') => hubEnd (hubPause s s')
    | (.ok, d, s') =>
      let (d', s'') := mbEnter s' cls ⟨d, line * 64, 0, 0⟩
      hubEnd (orPause s (blockWrite s'' 19 (mbWorld cls) (line * 64) (bytesLE 8 (lineGet d' 0 8)) f))

/-- MAILBOX_POST (R601). -/
def execMailboxPost (b : By) (c : Fin 2) (blk : LineNo) (f : Findings) (s : State) : Host.Outcome State Fault Refusal :=
  ok (mbPost s b c.val blk.toNat f)

/-- TUNDISH_MAILBOX_REQUEST (R602): a request of the master package's management processor. -/
def execTundishMailboxRequest (blk : LineData) (s : State) : Host.Outcome State Fault Refusal :=
  let (d, s) := mbEnter s 0 ⟨blk, 0, 0, 0⟩
  ok { s with mp := { s.mp with tunAns := some d } }

/-! ### Service (R602, R603) -/

/-- What the requester gets: the block in memory and the source, the answer to the master package, or the Ihlell answer (R602, R614). -/
def mbReport (s : State) (c : Nat) (e : MbEntry) (d : LineData) (results : Bool) (f : Findings) : Bool × State :=
  if c = 0 then (true, { s with mp := { s.mp with tunAns := some d } })
  else if c = 3 then
    let late := now s > e.at_ + 2000000
    let h := bPut d 0 8 (mbHeader d 4 true (mbRetry s 3)).toNat
    (true, { s with mp := { s.mp with ihlAns := some (0xA0, e.tag, if late then 4 :: lineBytes h else 0 :: lineBytes d) } })
  else
    match (if results then blockWrite s 19 (mbWorld c) (e.pa + 8) ((lineBytes d).drop 8) f else (true, s)) with
    | (false, s) => (false, s)
    | (true, s) =>
      match blockWrite s 19 (mbWorld c) e.pa ((lineBytes d).take 8) f with
      | (false, s) => (false, s)
      | (true, s) => (true, raiseSrc s (if c = 2 then 922 else 923))

/-- The entry served ends with a status and, where it has them, its results. -/
def mbFinish (s : State) (c : Nat) (e : MbEntry) (status : Nat) (res : Option LineData) (f : Findings) : Bool × State :=
  let d := res.getD e.block
  let d := bPut d 0 8 (mbHeader e.block status true 0).toNat
  match mbReport s c e d res.isSome f with
  | (false, s) => (false, s)
  | (true, s) =>
    let t := (now s - (match s.mp.serv with | some (_, t) => t | none => now s)) / 1000
    let times := (t :: tget [] c s.mp.mbTimes).take 16
    let s := { s with mp := { s.mp with serv := none, mbTimes := tset [] c times s.mp.mbTimes } }
    (true, mbServe (setMbQ s c (mbQ s c).tail))

/-- The operations of R603. -/
def mbOps : List Nat := [0x0001, 0x0010, 0x0020, 0x0030, 0x0040]

/-- The entry being served, when its operation is op: an unknown operation, and one its class may not use, end here (log entry 34). -/
def mbDo (s : State) (op : Nat) (f : Findings) (run : State → Nat → LineData → Nat × Option LineData × State) : State :=
  match s.mp.serv with
  | none => s
  | some (c, _) =>
    match mbQ s c with
    | [] => s
    | e :: _ =>
      let o := lineGet e.block 6 2
      if !(mbOps.contains o) then orPause s (mbFinish s c e 0x10 none f)
      else if o ≠ op then s
      else if o = 0x10 ∧ c = 3 then orPause s (mbFinish s c e 0x12 none f)
      else
        let (st, res, s') := run s c e.block
        orPause s (mbFinish s' c e st res f)

/-- Result bytes from byte 8 on; the bytes a command returns nothing in are free. -/
def mbResults (s : State) (bs : List Byte) : Option LineData × State :=
  let (d, s) := freeLine s
  (some (bPut d 8 bs.length (ofBytesLE bs)), s)

/-- A result of a command that ends in MB_OK. -/
def mbGood (s : State) (bs : List Byte) : Nat × Option LineData × State :=
  let (r, s) := mbResults s bs
  (0, r, s)

/-- MB_PING. -/
def execMbPing (f : Findings) (s : State) : Host.Outcome State Fault Refusal :=
  hubOk (mbDo s 0x0001 f (fun s _ _ => mbGood s (bytesLE 8 s.ptime.toNat)))

/-- SHARE (R603): a share command of this package, or of another admitted one, whose answer is free. -/
def mbShare (s : State) (c : Nat) (d : LineData) : Nat × Option LineData × State :=
  let v := bWord d 8
  let t := lineGet d 40 2
  if t = s.pkg then
    let (a, s) := shRun s (if c = 1 then .dap true else .mp) (fld v 3 0) ⟨fld v 43 32, bit v 16, fld v 15 12, bWord d 16, bWord d 24, bWord d 32⟩
      (regPa 0x200000)
    mbGood s (bytesLE 8 a.r0.toNat ++ bytesLE 8 a.r1.toNat ++ bytesLE 1 a.status)
  else if s.admitted.contains t then
    let (r, s) := freeLine s
    mbGood s (bytesLE 17 r.toNat)
  else (0x11, none, s)

/-- MB_SHARE. -/
def execMbShare (f : Findings) (s : State) : Host.Outcome State Fault Refusal := hubOk (mbDo s 0x0010 f mbShare)

/-- MB_SENSORS. -/
def execMbSensors (f : Findings) (s : State) : Host.Outcome State Fault Refusal :=
  hubOk (mbDo s 0x0020 f (fun s _ _ => mbGood s ((List.range 12).flatMap (fun n => bytesLE 2 (stkOf s n).tmax) ++ bytesLE 2 (rgF s .pcapstat 0 47 32))))

/-- CART (R603). -/
def mbCart (s : State) (_c : Nat) (d : LineData) : Nat × Option LineData × State :=
  let i := lineGet d 8 1
  if i > 7 then (0x11, none, s)
  else mbGood s (bytesLE 8 (rg s .cartstat i).toNat ++ bytesLE 48 ((tget {} i s.slots : Slot).mem.toNat % 2 ^ 384))

/-- MB_CART. -/
def execMbCart (f : Findings) (s : State) : Host.Outcome State Fault Refusal := hubOk (mbDo s 0x0030 f mbCart)

/-- MB_LIFE. -/
def execMbLife (f : Findings) (s : State) : Host.Outcome State Fault Refusal :=
  hubOk (mbDo s 0x0040 f (fun s _ _ => mbGood s (bytesLE 8 (rg s .life0 0).toNat ++ bytesLE 8 (rg s .life1 0).toNat)))

/-! ### Boot and restart (R597 to R599, R605) -/

/-- Bytes of a byte memory. -/
def memBytes (m : Memory) (a n : Nat) : List Byte := (List.range n).map (fun i => tget 0 (a + i) m)

/-- Whether the header of an image holds (R598). -/
def imgHeader (m : Memory) (off : Nat) : Bool := memGet m off 4 == 0x504D414F && decide (memGet m (off + 8) 4 ≤ 983040)

/-- The bytes an image's digest covers: its header and body (log entry 35). -/
def imgBytes (m : Memory) (off : Nat) : List Byte := memBytes m off (64 + memGet m (off + 8) 4)

/-- The images tried in order: MPSTAT.IMAGE, whether it is accepted, its bytes (R597, R599). -/
def bootTries (s : State) (i : BootIn) : List (Nat × Bool × List Byte) :=
  let p := (0, i.read0 && i.good0 && imgHeader s.flash 0, imgBytes s.flash 0)
  let q := (1, i.read1 && i.good1 && imgHeader s.flash (i.density / 2), imgBytes s.flash (i.density / 2))
  let src := rgF s .strapstat 0 3 2
  if src = 1 then [p]
  else if src = 2 then [(2, i.read0 && i.good0 && imgHeader s.mp.img 0, imgBytes s.mp.img 0)]
  else [p, q]

/-- MP_BOOT (R597 to R599): the first image that holds is measured and runs; without one BOOT_FAIL is recorded and the boot ROM stays.
Where the image starts is not given: its first address is free. -/
def mpBootRun (s : State) (i : BootIn) : State :=
  if s.mp.boot ≠ 0 ∨ !(s.resetN) ∨ !(s.rs.pwrgood) ∨ s.rs.run.isSome then s
  else
    let tries := bootTries s i
    match tries.find? (fun t => t.2.1) with
    | some (im, _, bs) =>
      let s := hlDevice (setRgF s .mpstat 0 47 46 im) 0x0010 0x2000 (im * 2 ^ 24) (BitVec.ofNat 256 (ofBytesLE (sha256 bs)))
      let (w, s) := freeWord s
      let s := setCore s mpCore { getCore s mpCore with held := false, pc := BitVec.ofNat 64 (w.toNat % 2 ^ 32 / 4 * 4) }
      let s := { s with
        mp := { s.mp with boot := 1, wdAt := now s }
        rs := { s.rs with boot := if s.rs.boot = 0 then 1 else s.rs.boot } }
      mbServe (rstDone s 4 0 2)
    | none =>
      let s := hlDevice (setRgF s .mpstat 0 47 46 3) 0x0011 0x2000 tries.length 0
      { s with mp := { s.mp with boot := 2 } }

/-- MP_BOOT. -/
def execMpBoot (i : BootIn) (s : State) : Host.Outcome State Fault Refusal := ok (mpBootRun s i)

/-- The management processor back in its boot ROM, its SRAM cleared. -/
def mpToRom (s : State) : State :=
  setCore { s with
    mpSram := [], mpwin := 0x1FFE00, mpPend := 0, mpEn := 0, mpHeld := none, mpRead := none
    mp := { s.mp with boot := 0, serv := none, wdAt := now s } } mpCore (coreRst mpCore)

/-- The restart of R605: the entry being served is aborted, queued entries are kept, and the restart is counted, signalled and recorded. -/
def mpRestart (s : State) : State :=
  let aborted : Bool × State := match s.mp.serv with
    | none => (true, s)
    | some (c, _) =>
      match mbQ s c with
      | [] => (true, s)
      | e :: _ => mbFinish s c e 0x02 none {}
  match aborted with
  | (false, s') => hubEnd (hubPause s s')
  | (true, s) =>
    let s := incRgF (mpToRom (hubEnd s)) .mpstat 0 63 48
    hlDevice (raiseSrc s 924) 0x0012 0 (rgF s .mpstat 0 63 48) 0

/-- A write of MPWDT.KICK, which only the management processor makes. -/
def wdKick (s : State) (b : By) : State := if b = .mp then { s with mp := { s.mp with wdAt := now s } } else s

/-- WATCHDOG_KICK (R605). -/
def execWatchdogKick (b : By) (s : State) : Host.Outcome State Fault Refusal := ok (wdKick s b)

/-- WATCHDOG_FIRE (R605). -/
def execWatchdogFire (s : State) : Host.Outcome State Fault Refusal :=
  ok (if s.mp.boot = 1 ∧ now s ≥ s.mp.wdAt + rgF s .mpwdt 0 15 0 * 1000000 then mpRestart s else s)

/-- SHED_EVALUATION (R604): one level down the table above 90% occupancy, one back up after 100 ms at or below 50%. -/
def shedEval (s : State) (occ : Nat) : State :=
  if now s < s.mp.shedAt + 10000000 then s
  else
    let lv := rgF s .mpstat 0 2 0
    let low := if occ ≤ 50 then s.mp.shedLow + 1 else 0
    let lv' := if occ > 90 then min 3 (lv + 1) else if low ≥ 10 then lv - 1 else lv
    setRgF { s with mp := { s.mp with shedAt := now s, shedLow := if low ≥ 10 then 0 else low } } .mpstat 0 2 0 lv'

/-- SHED_EVALUATION. -/
def execShedEvaluation (occ : BitVec 7) (s : State) : Host.Outcome State Fault Refusal := ok (shedEval s occ.toNat)

/-! ### The heat log (R606 to R608) -/

/-- AES-CMAC of a whole message. -/
def cmacWhole (key msg : List Byte) : List Byte :=
  let rks := roundKeys key
  let k1 := cmacDbl (aesEncRk rks zero16)
  let n := (msg.length + 15) / 16
  let full := msg.length % 16 == 0 && !msg.isEmpty
  let head := msg.take (16 * (n - 1))
  let tail := msg.drop (16 * (n - 1))
  let last := if full then xorBytes tail k1 else xorBytes (pad16 (tail ++ [0x80])) (cmacDbl k1)
  aesEncRk rks (xorBytes ((chunks 16 (n - 1) head).foldl (fun c b => aesEncRk rks (xorBytes c b)) zero16) last)

/-- K_HL as bytes. -/
def hlKeyBytes : List Byte := bytesLE 32 Config.hlKey.toNat

/-- A record's first 56 bytes (R606). -/
def hlBody (seq : Nat) (p : HlPend) : List Byte :=
  bytesLE 6 seq ++ bytesLE 2 p.typ ++ bytesLE 8 p.ptime.toNat ++ bytesLE 2 p.origin ++ bytesLE 2 p.flags ++ bytesLE 4 p.arg ++
    bytesLE 32 p.payload.toNat

/-- A record with its TAG over the chain value before it (R606). -/
def hlRecord (prev : List Byte) (seq : Nat) (p : HlPend) : List Byte :=
  let b := hlBody seq p
  b ++ (cmacWhole hlKeyBytes (prev ++ b)).take 8

/-- The genesis record (R606, R607). -/
def genesisPend (s : State) : HlPend :=
  ⟨0x0001, bitsOf Config.genesisStamp.toNat 79 64, 0, payload2 (rg s .pkgid 0) 0, BitVec.ofNat 64 Config.genesisStamp.toNat,
    bitsOf Config.genesisStamp.toNat 95 80, none⟩

/-- C(-1). -/
def zero32 : List Byte := List.replicate 32 0

/-- The chain value after a record (R607). -/
def chainNext (prev rec : List Byte) : List Byte := sha256 (prev ++ rec)

/-- Record SEQ as the ring holds it. -/
def hlAt (s : State) (seq : Nat) : List Byte :=
  if seq = 0 then hlRecord zero32 0 (genesisPend s) else bytesLE 64 (tget 0 (seq % 32768) s.hlog.ring).toNat

/-- C(head). -/
def hlChain (s : State) : List Byte :=
  match s.hlog.chain with
  | some c => bytesLE 32 c.toNat
  | none => chainNext zero32 (hlAt s 0)

/-- A record is appended (R606, R607). -/
def hlAppend (s : State) (p : HlPend) : State :=
  let seq := s.hlog.head + 1
  let r := hlRecord (hlChain s) seq p
  { s with hlog := { s.hlog with
      ring := tset 0 (seq % 32768) (BitVec.ofNat 512 (ofBytesLE r)) s.hlog.ring
      head := seq
      chain := some (BitVec.ofNat 256 (ofBytesLE (chainNext (hlChain s) r))) } }

/-- The front of the queue leaves; where device records were dropped, one LOST record with their number takes the room (R608). -/
def hlPop (s : State) : State :=
  let h := { s.hlog with pend := s.hlog.pend.tail }
  if h.lost = 0 then { s with hlog := h }
  else { s with hlog := { h with pend := h.pend ++ [⟨0x00FF, 0, h.lost, 0, s.ptime, hlFlags s, none⟩], lost := 0 } }

/-- HEAT_LOG_APPEND (R608, R609): the oldest record, when it is no commit. -/
def hlAppendNext (s : State) : State :=
  match s.hlog.pend with
  | p :: _ => if hlAppends s && p.commit.isNone then hlPop (hlAppend s p) else s
  | [] => s

/-- HEAT_LOG_APPEND. -/
def execHeatLogAppend (s : State) : Host.Outcome State Fault Refusal := ok (hlAppendNext s)

/-- The end of a commit as its block shows it (R610): the header alone, or SEQ and PTIME before it. -/
def hlReport (s : State) (w : Bool) (pa : Nat) (d : LineData) (code : Nat) (res : Option (Nat × Word)) (f : Findings) : Bool × State :=
  match (match res with
      | some (seq, t) => blockWrite s 20 w (pa + 16) (bytesLE 8 seq ++ bytesLE 8 t.toNat) f
      | none => (true, s)) with
  | (false, s) => (false, s)
  | (true, s) => blockWrite s 20 w pa (bytesLE 8 (mbHeader d code true 0).toNat) f

/-- Room for a software commit, those on their way to the island counted (R608). -/
def commitRoom (s : State) : Bool :=
  let fly := (s.net.filter (fun p => p.cmd == .hlog)).length
  hlAppends s && decide (s.hlog.pend.length + fly < 32) &&
    decide ((s.hlog.pend.filter (fun p => p.commit.isSome)).length + fly < 24)

/-- A write of HLSUBMIT (R610): the block is posted to the island, or gets HL_FULL. -/
def hlSubmit (s : State) (b : By) (line : Nat) (f : Findings) : State :=
  let w := bySec b
  match blockRead s 20 w (line * 64) f with
  | (.err, _, s') => hubEnd s'
  | (.wait, _, s') => hubEnd (hubPause s s')
  | (.ok, d, s') =>
    if commitRoom s' then
      sendG (hubEnd s') { cmd := .hlog, src := ⟨12, 20⟩, dst := ⟨12, 20⟩, cls := .g, world := w, addr := line * 64, data := d, arg := originOf s b }
    else hubEnd (orPause s (hlReport s' w (line * 64) d 0x06 none f))

/-- HLSUBMIT (R610). -/
def execHlsubmit (b : By) (blk : LineNo) (f : Findings) (s : State) : Host.Outcome State Fault Refusal := ok (hlSubmit s b blk.toNat f)

/-- HLOG (R608): the commit joins the island's queue; one that finds no room gets HL_FULL. -/
def hlogArrive (s : State) (f : Findings) : State :=
  match takePacket (fun p => p.cmd == .hlog) s with
  | none => s
  | some (p, s') =>
    let s' := gArrive s' p
    if hlRoom s' && hlAppends s' then
      let c : HlPend := ⟨0x0050, p.arg, lineGet p.data 8 4, BitVec.ofNat 256 (lineGet p.data 32 32), 0, 0, some (p.addr, p.world)⟩
      { s' with hlog := { s'.hlog with pend := s'.hlog.pend ++ [c] } }
    else orPause s (hlReport s' p.world p.addr p.data 0x06 none f)

/-- HLOG. -/
def execHlog (f : Findings) (s : State) : Host.Outcome State Fault Refusal := hubOk (hlogArrive s f)

/-- COMMIT (R610): the commit at the front is appended with the time now, and its block written back. -/
def hlCommit (s : State) (f : Findings) : State :=
  match s.hlog.pend with
  | [] => s
  | p :: _ =>
    match p.commit with
    | none => s
    | some (pa, w) =>
      if !(hlAppends s) then s
      else
        let s' := hlPop (hlAppend s { p with ptime := s.ptime, flags := hlFlags s })
        match blockRead s' 20 w pa f with
        | (.err, _, s') => s'
        | (.wait, _, s') => hubPause s s'
        | (.ok, d, s') => orPause s (hlReport s' w pa d 0 (some (s'.hlog.head, s.ptime)) f)

/-- COMMIT. -/
def execCommit (f : Findings) (s : State) : Host.Outcome State Fault Refusal := hubOk (hlCommit s f)

end Sys2Proof.Machine
end

