-- ==== Sys2Proof/Machine/Optics.lean ====
section
/-! DEFINITION. Optical engines and laser cartridges (R410 to R423): identity and wear records, checks, handover, loss and switchover,
wear, the commands of OECMD. -/
namespace Sys2Proof.Machine

open Sys2Proof

/-! ### The cartridge memory (R413, R414) -/

/-- n bytes of a cartridge's memory from an offset on, little-endian. -/
def cartGet (m : BitVec 1024) (off n : Nat) : Nat := (m.toNat >>> (8 * off)) % 2 ^ (8 * n)

/-- The memory with n bytes from an offset on replaced. -/
def cartPut (m : BitVec 1024) (off n x : Nat) : BitVec 1024 :=
  let k : BitVec 1024 := BitVec.ofNat 1024 ((2 ^ (8 * n) - 1) <<< (8 * off))
  (m &&& ~~~k) ||| (BitVec.ofNat 1024 ((x % 2 ^ (8 * n)) <<< (8 * off)))

/-- The CRC of R413 over n bytes from an offset on: CRC-32C, initial value all ones, inverted at the end. -/
def cartCrc (m : BitVec 1024) (off n : Nat) : Nat :=
  (~~~(crc32c 0xFFFFFFFF (bytesLE n (cartGet m off n)))).toNat

/-- Whether the identity block is intact (R413). -/
def idGood (m : BitVec 1024) : Bool := cartGet m 0x3C 4 == cartCrc m 0 0x3C

/-- The offset of wear record copy i (R414). -/
def recOff (i : Nat) : Nat := 0x40 + 0x20 * i

/-- Whether copy i of the wear record is valid. -/
def recGood (m : BitVec 1024) (i : Nat) : Bool := cartGet m (recOff i + 0x1C) 4 == cartCrc m (recOff i) 0x1C

/-- Whether a SEQ is higher than another, modulo 2^32. -/
def seqAfter (a b : Nat) : Bool := decide ((a + 2 ^ 32 - b) % 2 ^ 32 < 2 ^ 31) && a != b

/-- The current copy of the wear record: the valid one with the higher SEQ. -/
def curRec (m : BitVec 1024) : Option Nat :=
  match recGood m 0, recGood m 1 with
  | true, true => some (if seqAfter (cartGet m (recOff 1) 4) (cartGet m (recOff 0) 4) then 1 else 0)
  | true, false => some 0
  | false, true => some 1
  | false, false => none

/-- WEAR of a cartridge (R414). -/
def wearOf (m : BitVec 1024) : Nat := cartGet m (recOff ((curRec m).getD 0) + 4) 4

/-- RATED_HOURS (R413). -/
def ratedOf (m : BitVec 1024) : Nat := cartGet m 0x20 4

/-- MIN_PWR, as a signed number of 0.01 dBm (R413). -/
def minPwr (m : BitVec 1024) : Int := toSigned 16 (cartGet m 0x26 2)

/-- A wear record written to the copy that is not current (R414): SEQ + 1, the counts added, the new temperature if higher. -/
def writeRec (m : BitVec 1024) (wear lit hand faults pkg : Nat) (temp : BitVec 16) : BitVec 1024 :=
  let o := recOff ((curRec m).getD 1)
  let n := recOff (1 - (curRec m).getD 1)
  let peak := cartGet m (o + 0xC) 2
  let peak := if toSigned 16 temp.toNat > toSigned 16 peak then temp.toNat else peak
  let put := fun (m : BitVec 1024) (off k x : Nat) => cartPut m (n + off) k x
  let m' := put m 0 4 (cartGet m o 4 + 1)
  let m' := put m' 4 4 (min (2 ^ 32 - 1) (cartGet m (o + 4) 4 + wear))
  let m' := put m' 8 4 (min (2 ^ 32 - 1) (cartGet m (o + 8) 4 + lit))
  let m' := put m' 0xC 2 peak
  let m' := put m' 0xE 2 (min 65535 (cartGet m (o + 0xE) 2 + hand))
  let m' := put m' 0x10 4 pkg
  let m' := put m' 0x14 2 (min 65535 (cartGet m (o + 0x14) 2 + faults))
  let m' := put m' 0x16 6 0
  put m' 0x1C 4 (cartCrc m' n 0x1C)

/-! ### Status -/

/-- The event of an optical engine is raised. -/
def oeEvent (s : State) (e : Nat) : State := raiseSrc s (384 + 16 * engGroup e + 14)

/-- OESTAT.STATUS: 0 IDLE, 1 BUSY, 2 OK, 0x10 LIT, 0x11 NO_STANDBY, 0x12 ID_BAD, 0x13 PLAN_MISMATCH, 0x14 SELFTEST_FAIL, 0x15 BAD_OP. -/
def oeStatus (s : State) (e : Nat) : Nat := rgF s .oestat e 7 0

/-- OESTAT.STATUS set. -/
def setOeStatus (s : State) (e x : Nat) : State := setRgF s .oestat e 7 0 x

/-- A command or check of an engine ends in a status, and the engine's event is raised. -/
def oeEnd (s : State) (e x : Nat) : State := oeEvent (setOeStatus s e x) e

/-- A CART record (R607): [7:0] the cartridge, [15:8] 0 EOL90, 1 EOL100, 2 loss, 3 switchover (log entry 24). -/
def hlCart (s : State) (e b ev : Nat) : State :=
  hlDevice s 0x0031 0 (ev * 256 + 2 * e + b) (BitVec.ofNat 256 (rg s .cartstat (2 * e + b)).toNat)

/-- A slot joins one more fade or switchover (R414). -/
def countHand (s : State) (e b : Nat) : State := setSlot s e b { slotOf s e b with handovers := (slotOf s e b).handovers + 1 }

/-! ### Handover, switchover (R417, R419) -/

/-- The engine's fade or switchover to a slot. -/
def eng (s : State) (e : Nat) : Engine := tget {} e s.engs

/-- A fade or switchover to a slot begins now. -/
def setEng (s : State) (e b : Nat) : State := { s with engs := tset {} e ⟨now s, b⟩ s.engs }

/-- The engine's lanes are without light: Palrath groups retrain, Ethernet links fall, the groups read DARK (R419). -/
def oeDarkLanes (s : State) (e : Nat) : State :=
  (List.range 2).foldl (fun s j =>
    let g := engGroup e + j
    let s := if rgF s .lgctl g 2 0 = 3 ∧ palState s g > 1 then setPal s g 1 else s
    let s := if rgF s .lgctl g 2 0 = 2 then (macsOn s g).foldl (fun s n => setEthLink s n false) s else s
    lgRefresh s g) s

/-- A switchover to standby slot b begins (R419). -/
def switchTo (s : State) (e b : Nat) : State :=
  let s := setOeStatus (setRgF (setEng s e b) .oestat e 23 20 4) e 1
  countHand (oeEvent (oeDarkLanes s e) e) e b

/-- A cross-fade to STANDBY slot b begins (R417): both cartridges are lit. Without FEATURES.FADE it is a switchover (R635). -/
def fadeTo (s : State) (e b : Nat) : State :=
  let s := countHand s e (1 - b)
  if bitOf s.features 16 then
    let s := setOeStatus (setRgF (setEng s e b) .oestat e 23 20 3) e 1
    countHand (setSlotSt s e b 3) e b
  else switchTo (setSlotSt s e (1 - b) 2) e b

/-- The lit cartridge of slot b is lost (R419): FAILED, a heat-log record, a switchover to a STANDBY slot, or DARK. -/
def cartLost (s : State) (e b : Nat) : State :=
  let s := hlCart (setSlotSt s e b 6) e b 2
  if slotSt s e (1 - b) = 2 then
    hlCart (switchTo (countHand s e b) e (1 - b)) e (1 - b) 3
  else
    let s := setRgF s .oestat e 23 20 0
    let s := if oeStatus s e = 1 then setOeStatus s e 2 else s
    oeEvent (oeDarkLanes s e) e

/-- A cartridge in slot b can no longer light: during a fade the other slot stays lit (R422), during a switchover the standby is lost
too, else R419 when it is lit. -/
def cartFails (s : State) (e b : Nat) : State :=
  if slotSt s e b = 3 ∧ oeState s e = 3 then
    let s := hlCart (setSlotSt s e b 6) e b 2
    oeEnd (oeSettle (setRgF s .oestat e 17 17 (1 - b)) e) e 2
  else if slotSt s e b = 3 then cartLost s e b
  else if oeState s e = 4 ∧ (eng s e).target = b then
    let s := hlCart (setSlotSt s e b 6) e b 2
    oeEnd (oeDarkLanes (setRgF s .oestat e 23 20 0) e) e 2
  else s

/-- FADE_DONE (R417): 10 ms after it began the new slot is lit and the old in STANDBY. -/
def fadeDone (s : State) (e : Nat) : State :=
  let x := eng s e
  if oeState s e ≠ 3 ∨ now s < x.fadeAt + 10000000 then s
  else
    let s := setRgF (setSlotSt s e (1 - x.target) 2) .oestat e 17 17 x.target
    oeEnd (oeSettle s e) e 2

/-- FADE_DONE (R417). -/
def execFadeDone (e : OptId) (s : State) : Host.Outcome State Fault Refusal := ok (fadeDone s e.val)

/-- SWITCHOVER_DONE (R419): the standby is at full output. -/
def switchDone (s : State) (e : Nat) : State :=
  let x := eng s e
  if oeState s e ≠ 4 then s
  else
    let s := setRgF (setSlotSt s e x.target 3) .oestat e 17 17 x.target
    oeEnd (oeSettle s e) e 2

/-- SWITCHOVER_DONE (R419). -/
def execSwitchoverDone (e : OptId) (s : State) : Host.Outcome State Fault Refusal := ok (switchDone s e.val)

/-! ### Wear (R415, R416) -/

/-- EOL90 and EOL100 judged against WEAR (R416): each is recorded as it sets; at EOL100 the engine hands over to a fresh STANDBY. -/
def judgeEol (s : State) (e b : Nat) : State :=
  let m := (slotOf s e b).mem
  let i := 2 * e + b
  let s := if wearOf m ≥ 9 * ratedOf m ∧ rgF s .cartstat i 6 6 = 0 then
      oeEvent (hlCart (setRgF s .cartstat i 6 6 1) e b 0) e else s
  if wearOf m ≥ 10 * ratedOf m ∧ rgF s .cartstat i 7 7 = 0 then
    let s := oeEvent (hlCart (setRgF s .cartstat i 7 7 1) e b 1) e
    if slotSt s e b = 3 ∧ oeStatus s e ≠ 1 ∧ slotSt s e (1 - b) = 2 ∧ rgF s .cartstat (2 * e + 1 - b) 6 6 = 0 then fadeTo s e (1 - b)
    else s
  else s

/-- The lit time of a slot since its last record, in ticks. -/
def litTicks (s : State) (x : Slot) : Nat := x.litBefore + (match x.litFrom with | some t => now s - t | none => 0)

/-- A wear record is written (R415): the weighted time goes to WEAR in whole units of 0.1 h, the remainder is kept. -/
def wearWrite (s : State) (e b : Nat) (l : LitIn) : State :=
  let x := slotOf s e b
  let half := x.halfSecs + max l.secs (min (3 * l.secs) l.halfSecs)
  let secs := x.litSecs + l.secs
  let m := writeRec x.mem (half / 720) (secs / 3600) x.handovers x.faults (rgF s .pkgid 0 31 0) l.temp
  let s := setSlot s e b { x with
    mem := m, halfSecs := half % 720, litSecs := secs % 3600, handovers := 0, faults := 0,
    litBefore := litTicks s x - l.secs * 1000000000, litFrom := x.litFrom.map (fun _ => now s) }
  let s := setRgF (setRgF s .cartstat (2 * e + b) 63 40 (min (2 ^ 24 - 1) (wearOf m))) .cartstat (2 * e + b) 31 16 l.pwr.toNat
  judgeEol s e b

/-- WEAR_RECORD_WRITE (R415): after 3,600 s of lit time. -/
def execWearRecordWrite (e : OptId) (b : Fin 2) (l : LitIn) (s : State) : Host.Outcome State Fault Refusal :=
  ok (if slotSt s e.val b.val = 3 ∧ litTicks s (slotOf s e.val b.val) ≥ 3600000000000 then
    wearWrite s e.val b.val { l with secs := 3600 } else s)

/-! ### Checks (R418) -/

/-- A check refuses a cartridge. -/
def cartReject (s : State) (e b code : Nat) : State := oeEnd (setSlotSt s e b 5) e code

/-- The engine reads the identity and the wear records of slot b, then lights its lasers (R418). -/
def checkStart (s : State) (e b : Nat) : State :=
  let x := slotOf s e b
  let s := setSlotSt s e b 1
  if x.present.isNone ∨ !(idGood x.mem) ∨ (curRec x.mem).isNone then cartReject s e b 0x12
  else if cartGet x.mem 2 1 ≠ tget 1 e s.oePlan then cartReject s e b 0x13
  else setOeStatus (setSlot s e b { x with checkAt := now s }) e 1

/-- PRESENT_N_FALL (R412, R418): a cartridge with its memory is seated. -/
def execPresentNFall (e : OptId) (b : Fin 2) (mem : BitVec 1024) (s : State) : Host.Outcome State Fault Refusal :=
  ok (if (slotOf s e.val b.val).present.isSome then s
    else setRgF (setSlot s e.val b.val { mem := mem, present := some (now s) }) .cartstat (2 * e.val + b.val) 4 4 1)

/-- CARTRIDGE_CHECK (R418): 100 ms after PRESENT_N fell, once no command or check is in progress. -/
def execCartridgeCheck (e : OptId) (b : Fin 2) (s : State) : Host.Outcome State Fault Refusal :=
  ok (match (slotOf s e.val b.val).present with
    | some t =>
      if (slotSt s e.val b.val = 0 ∨ slotSt s e.val b.val = 6) ∧ now s ≥ t + 100000000 ∧ oeStatus s e.val ≠ 1 then
        checkStart s e.val b.val
      else s
    | none => s)

/-- The laser test of slot b ends (R418): STANDBY, or REJECTED when a laser stayed below MIN_PWR. -/
def checkDone (s : State) (e b : Nat) (pwr : BitVec 16) : State :=
  let x := slotOf s e b
  if slotSt s e b ≠ 1 ∨ now s < x.checkAt + 200000000 then s
  else
    let i := 2 * e + b
    let s := setRgF s .cartstat i 31 16 pwr.toNat
    if toSigned 16 pwr.toNat < minPwr x.mem then cartReject s e b 0x14
    else
      let s := setRgF (setSlotSt s e b 2) .cartstat i 63 40 (min (2 ^ 24 - 1) (wearOf x.mem))
      let s := setRgF s .cartstat i 6 6 (decide (wearOf x.mem ≥ 9 * ratedOf x.mem)).toNat
      let s := setRgF s .cartstat i 7 7 (decide (wearOf x.mem ≥ 10 * ratedOf x.mem)).toNat
      let s := oeEnd s e 2
      if oeState s e = 0 then oeLight s e else oeSettle s e

/-- CARTRIDGE_CHECK_DONE (R418). -/
def execCartridgeCheckDone (e : OptId) (b : Fin 2) (pwr : BitVec 16) (s : State) : Host.Outcome State Fault Refusal :=
  ok (checkDone s e.val b.val pwr)

/-! ### Lands (R412, R419, R422) -/

/-- A cartridge is removed (R419, R422): a lit one is lost, any other slot becomes EMPTY; a check ends. -/
def cartOut (s : State) (e b : Nat) : State :=
  let i := 2 * e + b
  let st := slotSt s e b
  if (slotOf s e b).present.isNone then s
  else
    let s := setRgF (setRgF s .cartstat i 4 4 0) .cartstat i 5 5 0
    let s := cartFails s e b
    let s := if st = 1 then setOeStatus s e 2 else s
    let s := if slotSt s e b = 6 ∧ st ≠ 6 then s else setSlotSt s e b 0
    let s := setSlot s e b {}
    let s := setRgF (setRgF s .cartstat i 6 6 0) .cartstat i 7 7 0
    if oeState s e = 1 ∨ oeState s e = 2 then oeSettle s e else s

/-- PRESENT_N_RISE (R419). -/
def execPresentNRise (e : OptId) (b : Fin 2) (s : State) : Host.Outcome State Fault Refusal := ok (cartOut s e.val b.val)

/-- FAULT_N_FALL (R412, R419). -/
def execFaultNFall (e : OptId) (b : Fin 2) (s : State) : Host.Outcome State Fault Refusal :=
  let x := slotOf s e.val b.val
  ok (if x.present.isNone ∨ rgF s .cartstat (2 * e.val + b.val) 5 5 = 1 then s
    else cartFails (setRgF (setSlot s e.val b.val { x with faults := x.faults + 1 }) .cartstat (2 * e.val + b.val) 5 5 1) e.val b.val)

/-- The pin LASER_EN of a slot (R412): high while the engine lights the slot's lasers or keeps them ready; a check lights them into the
monitor (R418), and a slot refused, lost or released has it low (R418, R419, R422), as has an engine that is not in RUN (R411). -/
def laserEn (s : State) (e b : Nat) : Bool := slotSt s e b == 1 || (engRuns s e && (slotSt s e b == 2 || slotSt s e b == 3))

/-- FAULT_N_RISE (R412): CARTSTAT.FAULT follows the land. -/
def execFaultNRise (e : OptId) (b : Fin 2) (s : State) : Host.Outcome State Fault Refusal :=
  ok (setRgF s .cartstat (2 * e.val + b.val) 5 5 0)

/-- LASER_LOW (R419): a laser's output falls to pwr, below MIN_PWR. -/
def execLaserLow (e : OptId) (b : Fin 2) (pwr : BitVec 16) (s : State) : Host.Outcome State Fault Refusal :=
  let x := slotOf s e.val b.val
  ok (if x.present.isSome ∧ toSigned 16 pwr.toNat < minPwr x.mem ∧ slotSt s e.val b.val = 3 then
    cartFails (setRgF s .cartstat (2 * e.val + b.val) 31 16 pwr.toNat) e.val b.val else s)

/-! ### OECMD (R420 to R422) -/

/-- Whether a GO of OECMD is turned away: on an engine the monitor owns (R420), or while STATUS is BUSY (R422). -/
def oeGate (s : State) (by_ : By) (e : Nat) : Option State :=
  if ownOe s e ∧ !(bySec by_) then
    let s := hlDenied s by_ deniedOwned (regPa (0x2000000000 + engGroup e * 0x1000000 + 0x300000))
    some (if oeStatus s e = 1 then setRgF s .oestat e 16 16 1 else oeEnd s e deniedOwned)
  else if oeStatus s e = 1 then some (setRgF s .oestat e 16 16 1)
  else none

/-- The RW fields a write of OECMD carries. -/
def oeFields (s : State) (e b op : Nat) : State := setRgF (setRgF s .oecmd e 4 4 b) .oecmd e 1 0 op

/-- GO of HANDOVER (R417, R421). -/
def goHandover (s : State) (by_ : By) (e b : Nat) : State :=
  match oeGate s by_ e with
  | some s => s
  | none =>
    let s := oeFields s e b 0
    if slotSt s e b ≠ 2 then oeEnd s e 0x11
    else if slotSt s e (1 - b) = 3 then fadeTo s e b
    else oeEnd (oeLight (setRgF s .oestat e 17 17 b) e) e 2

/-- HANDOVER (R417). -/
def execHandover (by_ : By) (e : OptId) (b : Fin 2) (s : State) : Host.Outcome State Fault Refusal := ok (goHandover s by_ e.val b.val)

/-- GO of RELEASE (R422): of a STANDBY slot its record is written and LASER_EN drops. -/
def goRelease (s : State) (by_ : By) (e b : Nat) (l : LitIn) : State :=
  match oeGate s by_ e with
  | some s => s
  | none =>
    let s := oeFields s e b 1
    if slotSt s e b = 3 then oeEnd s e 0x10
    else if slotSt s e b = 2 then
      let l := { l with secs := litTicks s (slotOf s e b) / 1000000000 }
      let s := setSlotSt (wearWrite s e b l) e b 4
      oeEnd (if oeState s e = 0 then s else oeSettle s e) e 2
    else oeEnd s e 2

/-- RELEASE_SLOT (R422). -/
def execReleaseSlot (by_ : By) (e : OptId) (b : Fin 2) (l : LitIn) (s : State) : Host.Outcome State Fault Refusal :=
  ok (goRelease s by_ e.val b.val l)

/-- GO of CHECK (R422): only a REJECTED or FAILED slot is checked. -/
def goCheck (s : State) (by_ : By) (e b : Nat) : State :=
  match oeGate s by_ e with
  | some s => s
  | none =>
    let s := oeFields s e b 2
    if slotSt s e b = 5 ∨ slotSt s e b = 6 then checkStart s e b else oeEnd s e 2

/-- CHECK_SLOT (R422). -/
def execCheckSlot (by_ : By) (e : OptId) (b : Fin 2) (s : State) : Host.Outcome State Fault Refusal := ok (goCheck s by_ e.val b.val)

/-- A GO of OECMD with a reserved OP (R421, R644). -/
def goBadOp (s : State) (by_ : By) (e b : Nat) : State :=
  match oeGate s by_ e with
  | some s => s
  | none => oeEnd (setRgF s .oecmd e 4 4 b) e 0x15

end Sys2Proof.Machine
end

