-- ==== Sys2Proof/Machine/PcieCfg.lean ====
section
/-! DEFINITION. The configuration space behind the ECAM region (R400, R424 to R427, R505). -/
namespace Sys2Proof.Machine

open Sys2Proof

/-- What a configuration access ends in: an Unsupported Request, a dword, or its way to a function behind a root port. -/
inductive CfgRes where
  | ur
  | data (d : Word)
  | down
  deriving DecidableEq, Repr

/-- The place of an ECAM offset in the configuration space, for a write's bytes where there is one. -/
def cfgOf (off : Nat) (w : Option (BitVec 32 × BitVec 4)) : CfgAcc :=
  ⟨BitVec.ofNat 8 (off >>> 20), BitVec.ofNat 5 (off >>> 15), BitVec.ofNat 3 (off >>> 12), BitVec.ofNat 10 (off >>> 2), w⟩

/-- The Command register of a share's VF (R427): Bus Master Enable is bit 2 of dword 1. -/
def vfAccess (s : State) (n : Nat) (c : CfgAcc) : CfgRes × State :=
  if shState s n = 0 then (.ur, s)
  else
    let r := c.dword.toNat
    match c.write with
    | some (v, be) =>
      if r = 1 ∧ be.getLsbD 0 then (.data 0, setShare s n { share s n with bme := v.getLsbD 2 }) else (.data 0, s)
    | none =>
      let (w, s) := freeWord s
      let w := w &&& 0xFFFFFFFF
      if r = 1 then (.data (setFld w 2 2 ((share s n).bme).toNat), s)
      else if 4 ≤ r ∧ r ≤ 9 then (.data 0, s)
      else (.data w, s)

/-- A configuration access in world w (R400, R426, R505): `a` names the root port above a function of another bus. -/
def cfgAccess (s : State) (w : Bool) (c : CfgAcc) (a : DevAns) : CfgRes × State :=
  let dev := c.dev.toNat
  let fn := c.fn.toNat
  let std := fun (s : State) => if c.write.isSome then (CfgRes.data 0, s) else (let (x, s) := freeWord s; (CfgRes.data (x &&& 0xFFFFFFFF), s))
  if c.bus = 0 then
    (if dev < 24 then
      (if !(portExists s dev fn) then (.ur, s)
       else if ownLg s dev ∧ !w then (.data 0xFFFFFFFF, s)
       else std s)
     else if dev = 24 ∧ fn = 0 then std s
     else (.ur, s))
  else if c.bus.toNat ≥ 240 then vfAccess s ((c.bus.toNat - 240) * 256 + dev * 8 + fn) c
  else if !(portExists s a.group.val a.port.val) then (.ur, s)
  else if ownLg s a.group.val ∧ !w then (.data 0xFFFFFFFF, s)
  else (.down, s)

/-- A DEV access of the ECAM region (R400). -/
def ecamAccess (s : State) (p : Packet) (off : Nat) (a : DevAns) : State :=
  let w : Option (BitVec 32 × BitVec 4) := if p.cmd = .devWr then
      some (BitVec.ofNat 32 (p.data.toNat <<< (8 * (off % 4))), BitVec.ofNat 4 ((2 ^ (2 ^ p.size) - 1) <<< (off % 4))) else none
  match cfgAccess s p.world (cfgOf off w) a with
  | (.ur, s) => devComplete s p false 0
  | (.data d, s) => devComplete s p true (d >>> (8 * (off % 4)))
  | (.down, s) => portDev s p a

/-- Whether a packet in flight is a DEV access of the ECAM region at this place. -/
def isCfg (s : State) (src : StopId) (c : CfgAcc) (p : Packet) : Bool :=
  (p.cmd == (if c.write.isSome then .devWr else .devRd)) && p.src == src &&
  (match paKind s p.addr with
   | .pcie k off => k == s.pkg && decide (off < 0x10000000) && off / 4 == c.bus.toNat * 2 ^ 18 + c.dev.toNat * 2 ^ 13 + c.fn.toNat * 2 ^ 10 + c.dword.toNat
   | _ => false)

/-- CONFIG_ACCESS (R400): the access in flight of that stop, or a fresh one, in the world named, whose answer goes nowhere. -/
def execConfigAccess (src : StopId) (w : Bool) (c : CfgAcc) (a : DevAns) (s : State) : Host.Outcome State Fault Refusal :=
  ok (match takePacket (isCfg s src c) s with
    | some (p, s) =>
      if worldAllows s p.world p.addr ⟨p.cmd == .devRd, p.cmd == .devWr⟩ then ecamAccess s p (p.addr % 0x10000000) a
      else devComplete s p false 0
    | none => (cfgAccess s w c a).2)

end Sys2Proof.Machine
end

