-- ==== Sys2Proof/Machine/RasCmd.lean ====
section
/-! DEFINITION. Requester timeouts, logs, retirement, service requests (chapter 18); the L3's enabling, its walks, partition masks and
the range units (chapter 07). -/
namespace Sys2Proof.Machine

open Sys2Proof

/-! ### Requester timeout (R576) -/

/-- RQTO.TIMEOUT in ticks. -/
def rqto (s : State) : Nat := rgF s .rqto 0 15 0 * 1000000

/-- The holder a stop is, as an error completion names it. -/
def holderAt (st : StopId) : Nat :=
  if st.die < 12 ∧ st.stop < 20 then st.die * 20 + st.stop
  else if st = ⟨12, 17⟩ then 0xF0
  else 0xFE

/-- Whether a transaction's packet is still held at its source, by the stop it is for (R333): it has not been sent (R577). -/
def unsent (s : State) (src : StopId) (tx : Nat) : Bool := s.net.any (fun p => p.src == src && p.txid == tx && stopHeld s p.dst)

/-- A transaction of a stop times out (R576): it completes with error at its agent, is logged, and its TXID waits. -/
def requesterTimeout (s : State) (src : StopId) (tx : Nat) : State :=
  match s.outst.find? (fun o => o.stop == src && o.txid == tx) with
  | none => s
  | some o =>
    if now s < o.since + rqto s ∨ unsent s src tx then s
    else
      let s := logErr s (evLog src.die) 0x1C src.stop 0 o.addr
      let p : Packet := { cmd := .errRsp, src := src, dst := src, txid := tx, addr := o.addr, holder := holderAt src }
      let s := errRspArrive { s with net := s.net ++ [p] } src tx
      { s with quarantine := { o with since := now s } :: s.quarantine }

/-- REQUESTER_TIMEOUT (R576). -/
def execRequesterTimeout (src : StopId) (txid : BitVec 16) (s : State) : Host.Outcome State Fault Refusal :=
  ok (requesterTimeout s src txid.toNat)

/-- TXID_RELEASE (R576): a further RQTO after the timeout. -/
def txidRelease (s : State) (src : StopId) (tx : Nat) : State :=
  { s with quarantine := s.quarantine.filter (fun o => !(o.stop == src && o.txid == tx && decide (now s ≥ o.since + rqto s))) }

/-- TXID_RELEASE. -/
def execTxidRelease (src : StopId) (txid : BitVec 16) (s : State) : Host.Outcome State Fault Refusal :=
  ok (txidRelease s src txid.toNat)

/-! ### Logs and retirement (R256, R579, R585) -/

/-- The log a register block holds: of stack d, or of the hub for 12. -/
def logAt (d : Nat) (ev : Bool) : LogId :=
  if d < 12 then (if ev then .ev d else .ce d) else (if ev then .hubEv else .hubCe)

/-- The offset of a log's status register. -/
def logOff (d : Nat) (ev : Bool) : Nat :=
  if d < 12 then stkOff d (0x700000 + (if ev then 8 else 0)) else 0xB0000 + (if ev then 0x30 else 0x28)

/-- A write of 1 to LOGCLR (R503, R579). -/
def logclrWrite (s : State) (b : By) (d : Nat) (ev : Bool) : State :=
  ownWrite s b (decide (d < 12) && ownStk s d) (logOff d ev) (clearLog s (logAt d ev))

/-- LOG_CLEAR (R579). -/
def execLogClear (b : By) (d : Fin 13) (ev : Bool) (s : State) : Host.Outcome State Fault Refusal := ok (logclrWrite s b d.val ev)

/-- The key of a way's fuse: kind 0 L3, 1 directory, 2 hub I/O cache. -/
def fuseKey (kind h slice way : Nat) : Nat := kind * 65536 + (h * 8 + slice) * 16 + way

/-- The DIS register of a way. -/
def disReg (kind h slice : Nat) : RegName × Nat :=
  if kind = 0 then (.l3way, h * 8 + slice) else if kind = 1 then (.dirway, h * 8 + slice) else (.hioway, 0)

/-- WAY_RETIREMENT_FUSE (R256): the fuse of a retired way is programmed. -/
def wayFuseSet (s : State) (kind h slice way : Nat) : State :=
  let (r, i) := disReg kind h slice
  if (rgF s r i 15 0).testBit way then { s with wayFuse := tset false (fuseKey kind h slice way) true s.wayFuse } else s

/-- WAY_RETIREMENT_FUSE. -/
def execWayRetirementFuse (kind : Fin 3) (h : StackId) (slice : Fin 8) (way : Fin 16) (s : State) : Host.Outcome State Fault Refusal :=
  ok (if kind.val = 2 then wayFuseSet s 2 0 0 way.val else wayFuseSet s kind.val h.val slice.val way.val)

/-- A core's retirement fuse is programmed, shown in RETSTAT and logged (R585). -/
def retireCore (s : State) (c : Nat) : State :=
  if tget false c s.coreFuse then s
  else
    let s := setRgF { s with coreFuse := tset false c true s.coreFuse } .retstat (c / 20) (20 + c % 20) (20 + c % 20) 1
    logErr s (.ev (c / 20)) 0x21 (c % 20) 0 0

/-- CORE_RETIREMENT_FUSE (R585): a core that has reached its threshold. -/
def execCoreRetirementFuse (c : CoreId) (s : State) : Host.Outcome State Fault Refusal :=
  ok (if c.val < 240 ∧ (rgF s .retstat (c.val / 20) 19 0).testBit (c.val % 20) then retireCore s c.val else s)

/-! ### Service requests (R587, R588) -/

/-- Whether a stack is fenced. -/
def stkFenced (s : State) (n : Nat) : Bool := tget false n s.fencedStk

/-- SVCDETAIL0.SPARE: no spare left on a stack that is not fenced. -/
def noSpare (s : State) (n : Nat) : Bool := !(stkFenced s n) && rgF s .retstat n 59 56 == 0

/-- Ways disabled in a register of the layout of L3WAYk. -/
def waysDis (v : Word) : Nat := ((List.range 16).filter (fun w => bit v w)).length

/-- SVCDETAIL0.WAYS: a slice of a home has more than 4 L3 or directory ways disabled. -/
def manyWays (s : State) (h : Nat) : Bool :=
  (List.range 8).any (fun k => decide (waysDis (rg s .l3way (h * 8 + k)) > 4) || decide (waysDis (rg s .dirway (h * 8 + k)) > 4))

/-- SVCDETAIL0.FENCED_OE. -/
def oeFenced (s : State) (e : Nat) : Bool := rgF s .dierev (25 + e) 32 32 == 1

/-- Whether a Sprue link end is below its rated width or out of ACTIVE (R350, R588). -/
def endDegraded (s : State) (n : Nat) : Bool :=
  lsState s n != 5 || lsF s n 31 30 != (if lsF s n 39 32 % 16 = 0 then 1 else 2)

/-- Whether a lane group in Palrath is below x16 or out of ACTIVE (R588). -/
def palDegraded (s : State) (g : Nat) : Bool := isPal s g && (rgF s .palstat g 3 0 != 3 || rgF s .palstat g 19 18 != 3)

/-- Whether link l (48 ends, then 32 groups) is degraded now. -/
def linkDegraded (s : State) (l : Nat) : Bool := if l < 48 then endDegraded s l else palDegraded s (l - 48)

/-- Since when each link is degraded, followed up to now (log entry 32). -/
def followLinks (s : State) : State :=
  { s with degraded := (List.range 80).foldl (fun t l =>
      tset none l (if linkDegraded s l then some ((tget none l t).getD (now s)) else none) t) s.degraded }

/-- Whether link l is under cause 1: degraded for 100 ms, or its end locked to safe width. -/
def linkCause (s : State) (l : Nat) : Bool :=
  (match tget none l s.degraded with
   | some t => decide (now s ≥ t + 100000000)
   | none => false) || (decide (l < 48) && lsF s l 19 19 == 1)

/-- SVCDETAIL2.RIM of rim link n: its two ends. -/
def rimCause (s : State) (n : Nat) : Bool := linkCause s (3 * n) || linkCause s (3 * ((n + 1) % 12) + 1)

/-- SVCDETAIL2.SPOKE of spoke link n: its two ends. -/
def spokeCause (s : State) (n : Nat) : Bool := linkCause s (3 * n + 2) || linkCause s (36 + n)

/-- SVCDETAIL1.CART of cartridge i. -/
def cartCause (s : State) (i : Nat) : Bool := rgF s .cartstat i 4 4 == 1 && rgF s .cartstat i 6 6 == 1

/-- SVCDETAIL0.AGING of stack n. -/
def agingCause (s : State) (n : Nat) : Bool := decide (stackDrift s n > 1000)

/-- A mask of n conditions from bit lo on. -/
def maskOf (n lo : Nat) (f : Nat → Bool) : Nat := (List.range n).foldl (fun a i => a + (if f i then 2 ^ (lo + i) else 0)) 0

/-- SVCDETAIL0 as it reads. -/
def svcdetail0 (s : State) : Word :=
  BitVec.ofNat 64 (maskOf 12 0 (noSpare s) + maskOf 4 12 (oeFenced s) + (if rgF s .dierev 0 32 32 = 1 then 2 ^ 16 else 0) +
    maskOf 12 24 (agingCause s) + maskOf 12 36 (stkFenced s) + maskOf 12 48 (manyWays s) +
    (if waysDis (rg s .hioway 0) > 4 then 2 ^ 60 else 0))

/-- SVCDETAIL1 as it reads. -/
def svcdetail1 (s : State) : Word :=
  BitVec.ofNat 64 (maskOf 24 0 (fun n => rgF s .mccestat n 3 3 == 1) + maskOf 8 24 (cartCause s))

/-- SVCDETAIL2 as it reads. -/
def svcdetail2 (s : State) : Word :=
  BitVec.ofNat 64 (maskOf 12 0 (rimCause s) + maskOf 12 12 (spokeCause s) + maskOf 32 24 (fun g => linkCause s (48 + g)))

/-- SVCREQ.CAUSE as the conditions of R588 give it. -/
def svcCause (s : State) : Nat :=
  let d0 := svcdetail0 s
  (if fld d0 11 0 ≠ 0 then 1 else 0) + (if svcdetail2 s ≠ 0 then 2 else 0) + (if fld (svcdetail1 s) 31 24 ≠ 0 then 4 else 0) +
  (if fld d0 59 48 ≠ 0 ∨ bit d0 60 then 8 else 0) + (if fld (svcdetail1 s) 23 0 ≠ 0 then 16 else 0) +
  (if fld d0 47 36 ≠ 0 ∨ fld d0 15 12 ≠ 0 ∨ bit d0 16 then 32 else 0) +
  (if rgF s .cascstat 0 5 5 = 1 ∨ rgF s .cascstat 0 59 56 ≠ 0 then 64 else 0) + (if fld d0 35 24 ≠ 0 then 128 else 0)

/-- SERVICE_REQUEST_UPDATE (R587): a change of CAUSE sets SEEN, raises source 917 and is recorded. -/
def svcUpdate (s : State) : State :=
  let s := followLinks s
  let old := rgF s .svcreq 0 7 0
  let new := svcCause s
  if new = old then s
  else
    let s := setRgF (setRgF s .svcreq 0 15 8 (rgF s .svcreq 0 15 8 ||| new)) .svcreq 0 7 0 new
    hlDevice (raiseSrc s 917) 0x0030 0 (old * 256 + new) 0

/-- The pin SVC_N (R42): low while a cause bit of SVCREQ is 1. -/
def svcN (s : State) : Bool := rgF s .svcreq 0 7 0 == 0

/-- SERVICE_REQUEST_UPDATE. -/
def execServiceRequestUpdate (s : State) : Host.Outcome State Fault Refusal := ok (svcUpdate s)

/-- LIFE_UPDATE (R592): one more powered hour in POUR; whether a sensor was hot in it, and the averages of R590. -/
def lifeUpdate (s : State) (hot : Bool) (tj v : Nat) : State :=
  if pourTime s < s.lifeAt + 3600000000000 ∨ rgF s .pkgstat 0 10 8 > 1 then s
  else
    let s := incRgF { s with lifeAt := pourTime s } .life0 0 63 32
    let s := if hot then incRgF s .life0 0 31 0 else s
    setRgF (setRgF s .life1 0 63 48 tj) .life1 0 47 32 v

/-- LIFE_UPDATE. -/
def execLifeUpdate (hot : Bool) (tj v : BitVec 16) (s : State) : Host.Outcome State Fault Refusal :=
  ok (lifeUpdate s hot tj.toNat v.toNat)

/-! ### Set walks (R256, R260 to R263, R272) -/

/-- The valid L3 lines of home h. -/
def homeL3 (s : State) (h : Nat) : List (Nat × L3Line) := s.l3.filter (fun p => p.2.valid && (lineLoc s p.1).home == h)

/-- Whether a line lies in the range of a unit. -/
def inRange (s : State) (u line : Nat) : Bool :=
  decide (rgF s .rmbase u 51 12 ≤ line / 64) && decide (line / 64 ≤ rgF s .rmlimit u 51 12)

/-- The lines of a range homed at h that any cache or directory of the package knows, or that a request which has reached the home may
still bring in (R271). -/
def rangeLines (s : State) (u h : Nat) : List Nat :=
  let a : List Nat := s.l3.map (fun (p : Nat × L3Line) => p.1)
  let b : List Nat := s.dir.map (fun p => p.1)
  let c : List Nat := s.lines.map (fun p => p.1 % 2 ^ 46)
  let d : List Nat := s.busy.map (fun p => p.1) ++ s.dirWait.map pLine
  ((a ++ b ++ c ++ d).filter (fun (l : Nat) => inRange s u l && (lineLoc s l).home == h)).eraseDups

/-- One line of a range operation (R268): skipped, or sent to its home as a maintenance request. A line invalidated counts here, one only
written back when its home answers that it was. -/
def rangeLine (u op h : Nat) (s : State) (line : Nat) : State :=
  let sec := tget false u s.rangeSec
  if !(worldAllows s sec (line * 64) ⟨false, true⟩) then incRgF s .rmstat u 31 16
  else
    let (tx, s) := newTxid s
    let c : Cmd := if op = 0 then .cmoCln else if op = 1 then .cmoFls else .cmoInv
    let s := if op ≠ 0 then incRgF s .rmstat u 63 32 else s
    let st : StopId := ⟨12, 21⟩
    let p : Packet := { agentPacket c st (line * 64) ⟨true, 0, 0⟩ with txid := tx, dst := lineStop s line }
    addOutst { send s p with rangeTx := (u, h, tx) :: s.rangeTx } ⟨st, tx, c, line * 64, now s⟩

/-- Whether the requests of a range walk at home h are complete. -/
def rangeIdle (s : State) (u h : Nat) : Bool :=
  s.rangeTx.all (fun t => !(t.1 == u && t.2.1 == h && s.outst.any (fun o => o.stop == (⟨12, 21⟩ : StopId) && o.txid == t.2.2)))

/-- What a walk does as it starts: a range walk sends its requests, a directory retirement recalls every line of the way, and the
retirement of a way of the hub I/O cache evicts its lines. -/
def walkBegin (s : State) (h : Nat) (w : WalkKind) : State :=
  let s := { s with walkRun := tset none h (some w) s.walkRun }
  match w with
  | .range u => (rangeLines s u h).foldl (rangeLine u (rgF s .rmcmd u 1 0) h) s
  | .dirRetire k way =>
    (s.dir.filter (fun p => p.2.way == way && p.2.st != .none_ && isLocalMem s (p.1 * 64) && (lineLoc s p.1).home == h && (lineLoc s p.1).slice == k)).foldl
      (fun s p => recallDir s { cmd := .rds, src := homeStop h k, dst := homeStop h k, addr := p.1 * 64, holder := 0xFE } p.1) s
  | .wayRetire _ way =>
    if h = 12 then
      (s.hioWays.filter (fun p => p.2 == way && validSt (hline s 0xF0 p.1).st)).foldl (fun s p =>
        let (m, s) := evictReq s 0xF0 p.1
        runReq s m {}) s
    else s
  | _ => s

/-- A walk is due at home h: it starts when none runs, else it waits its turn (R272). -/
def queueWalk (s : State) (h : Nat) (w : WalkKind) : State :=
  if (tget none h s.walkRun).isNone ∧ (tget [] h s.walks).isEmpty then walkBegin s h w
  else { s with walks := tset [] h (tget [] h s.walks ++ [w]) s.walks }

/-- SET_WALK_START (R272): the next walk of home h (12 for the hub I/O cache) starts once the one before has ended; a retirement that
became due goes before other walks that wait. -/
def setWalkStart (s : State) (h : Nat) : State :=
  let busy := match tget none h s.walkRun with
    | none => false
    | some (.range u) => !(rangeIdle s u h)
    | some _ => true
  match tget [] h s.walks with
  | [] => s
  | w :: ws =>
    if busy then s else walkBegin { s with walks := tset [] h ws s.walks } h w

/-- SET_WALK_START. -/
def execSetWalkStart (h : Fin 13) (s : State) : Host.Outcome State Fault Refusal := ok (setWalkStart s h.val)

/-- The running walk of a home ends. -/
def walkEnd (s : State) (h : Nat) : State := { s with walkRun := tset none h none s.walkRun }

/-- What the check bits of a line showed as a walk read it. -/
def foundAt (l : List LineFound) (line : Nat) : Ecc := ((l.find? (fun x => x.line.toNat == line)).map (·.ecc)).getD .clean

/-- WAY_RETIREMENT_WALK_DONE (R255, R256, R282): dirty lines are read and written, poisoned where their check bits show an uncorrectable
error; the way is disabled and logged. -/
def wayWalkDone (s : State) (h : Nat) (found : List LineFound) : State :=
  match tget none h s.walkRun with
  | some (.wayRetire k way) =>
    if h = 12 then
      if s.hioWays.any (fun p => p.2 == way && (hline s 0xF0 p.1).st != .i) then s
      else
        let s := setRgF (walkEnd s h) .hioway 0 way way 1
        logErr (raiseSrc s 920) .hubEv 0x24 0 way 0
    else
      let s := ((homeL3 s h).filter (fun p => p.2.way == way && (lineLoc s p.1).slice == k)).foldl
        (fun s p => l3Inval (l3Clean s p.1 (foundAt found p.1)) p.1) s
      let s := setRgF (walkEnd s h) .l3way (h * 8 + k) way way 1
      logErr (raiseSrc s (32 * h + 2)) (.ev h) 0x22 k way 0
  | some (.dirRetire k way) =>
    if s.dir.any (fun p => p.2.way == way && p.2.st != .none_ && isLocalMem s (p.1 * 64) && (lineLoc s p.1).home == h && (lineLoc s p.1).slice == k) then s
    else
      let s := setRgF (walkEnd s h) .dirway (h * 8 + k) way way 1
      logErr (raiseSrc s (32 * h + 2)) (.ev h) 0x23 k way 0
  | _ => s

/-- WAY_RETIREMENT_WALK_DONE. -/
def execWayRetirementWalkDone (w : WayWalk) (s : State) : Host.Outcome State Fault Refusal :=
  ok (wayWalkDone s w.home.val w.found)

/-- Every L3 line of a home becomes invalid. -/
def l3Drop (s : State) (h : Nat) : State := { s with l3 := s.l3.filter (fun p => (lineLoc s p.1).home != h) }

/-- Every dirty L3 line of a home is written to memory and stays valid. -/
def l3Flush (s : State) (h : Nat) (found : List LineFound) : State := (homeL3 s h).foldl (fun s p => l3Clean s p.1 (foundAt found p.1)) s

/-- A write of L3CTL (R260 to R262). -/
def l3ctlWrite (s : State) (h : Nat) (v : Word) : State :=
  let en := rgF s .l3ctl h 0 0 == 1
  let flushing := rgF s .l3stat h 3 3 == 1
  let busy := rgF s .l3stat h 2 2 == 1
  let s :=
    if bit v 1 then
      if !en && !flushing && !busy then queueWalk (setRgF (setRgF s .l3stat h 1 1 0) .l3stat h 2 2 1) h .invAll
      else setRgF s .l3stat h 7 7 1
    else s
  if bit v 0 then
    if en then s
    else if !(bit v 1) && !flushing && (rgF s .l3stat h 1 1 == 1 || rgF s .l3stat h 0 0 == 1) then setRgF s .l3ctl h 0 0 1
    else setRgF s .l3stat h 6 6 1
  else if en then queueWalk (setRgF (setRgF s .l3ctl h 0 0 0) .l3stat h 3 3 1) h .flush
  else s

/-- L3CTL written by an agent (R503). -/
def l3ctlBy (s : State) (b : By) (h : Nat) (v : Word) : State :=
  ownWrite s b (ownStk s h) (stkOff h 0x100000) (l3ctlWrite s h v)

/-- L3_INV_ALL (R260): INV_ALL = 1, with the EN that the write carries. -/
def execL3InvAll (b : By) (h : StackId) (en : Bool) (s : State) : Host.Outcome State Fault Refusal :=
  ok (l3ctlBy s b h.val (BitVec.ofNat 64 (2 + en.toNat)))
/-- L3_ENABLE (R261). -/
def execL3Enable (b : By) (h : StackId) (s : State) : Host.Outcome State Fault Refusal := ok (l3ctlBy s b h.val 1)
/-- L3_DISABLE (R262). -/
def execL3Disable (b : By) (h : StackId) (s : State) : Host.Outcome State Fault Refusal := ok (l3ctlBy s b h.val 0)

/-- INV_ALL_DONE (R260). -/
def invAllDone (s : State) (h : Nat) : State :=
  if tget none h s.walkRun = some .invAll then setRgF (setRgF (l3Drop (walkEnd s h) h) .l3stat h 2 2 0) .l3stat h 1 1 1 else s

/-- INV_ALL_DONE. -/
def execInvAllDone (h : StackId) (s : State) : Host.Outcome State Fault Refusal := ok (invAllDone s h.val)

/-- The end of a flush (R262). -/
def flushEnd (s : State) (h : Nat) (found : List LineFound) : State :=
  let s := l3Flush s h found
  setRgF (setRgF (setRgF s .l3stat h 3 3 0) .l3stat h 1 1 0) .l3stat h 0 0 0

/-- L3_FLUSH_DONE (R262). -/
def execL3FlushDone (w : FlushWalk) (s : State) : Host.Outcome State Fault Refusal :=
  ok (if tget none w.home.val s.walkRun = some .flush then flushEnd (walkEnd s w.home.val) w.home.val w.found else s)

/-- A tile's reset sweep ends (R263). -/
def sweepDone (s : State) (h : Nat) : State :=
  if tget false h s.sweeping then setRgF { l3Drop s h with sweeping := tset false h false s.sweeping } .l3stat h 0 0 1 else s

/-- L3_SWEEP_DONE (R263). -/
def execL3SweepDone (h : StackId) (s : State) : Host.Outcome State Fault Refusal := ok (sweepDone s h.val)

/-! ### Partition masks (R253) -/

/-- A write of PMASKn of stack h (R252, R253, R503). -/
def pmaskWrite (s : State) (b : By) (h n : Nat) (v : Word) : State :=
  let i := h * 16 + n
  ownWrite s b (ownStk s h) (stkOff h (0x100100 + n * 8))
    (if bySec b then setRgF (setRgF s .pmask i 15 0 (fld v 15 0)) .pmask i 32 32 (fld v 32 32)
     else if bit (rg s .pmask i) 32 then s
     else setRgF s .pmask i 15 0 (fld v 15 0))

/-- PMASK_WRITE (R253). -/
def execPmaskWrite (b : By) (h : StackId) (n : Fin 16) (v : Word) (s : State) : Host.Outcome State Fault Refusal :=
  ok (pmaskWrite s b h.val n.val v)

/-! ### Range units (R267 to R271) -/

/-- Whether a page lies in the DRAM and CXL Type-3 slot of this package (R26). -/
def pageOwn (s : State) (page : Nat) : Bool :=
  match paKind s (page * 4096) with
  | .dram p _ => p == s.pkg
  | .cxl p _ => p == s.pkg
  | _ => false

/-- Whether a range is valid (R267). -/
def rangeValid (s : State) (u : Nat) : Bool :=
  let a := rgF s .rmbase u 51 12
  let z := rgF s .rmlimit u 51 12
  decide (a ≤ z) && pageOwn s a && pageOwn s z && !(decide (a < 0x100000) && decide (0xE0000 ≤ z) && s.pkg == 0)

/-- A GO of RMCMD (R268, R270, R644): op 3 is reserved. -/
def rangeGo (s : State) (b : By) (u op : Nat) (irq : Bool) : State :=
  if u = 1 ∧ !(bySec b) then s
  else if rgF s .rmstat u 7 0 = 1 then setRgF s .rmstat u 8 8 1
  else
    let s := setRgF s .rmcmd u 4 4 irq.toNat
    let s := if op < 3 then setRgF s .rmcmd u 1 0 op else s
    if op ≥ 3 ∨ !(rangeValid s u) then setRgF s .rmstat u 7 0 0x10
    else
      let s := setRgF (setRgF (setRgF s .rmstat u 7 0 1) .rmstat u 63 32 0) .rmstat u 31 16 0
      let s := { s with rangeSec := tset false u (bySec b) s.rangeSec, rangePois := tset false u false s.rangePois,
                        rangeTx := s.rangeTx.filter (fun t => t.1 != u) }
      ((List.range 12).filter (fun h => !(stkFenced s h))).foldl (fun s h => queueWalk s h (.range u)) s

/-- RANGE_CLEAN (R268). -/
def execRangeClean (b : By) (u : Fin 2) (irq : Bool) (s : State) : Host.Outcome State Fault Refusal := ok (rangeGo s b u.val 0 irq)
/-- RANGE_CLEAN_INVALIDATE (R268). -/
def execRangeCleanInvalidate (b : By) (u : Fin 2) (irq : Bool) (s : State) : Host.Outcome State Fault Refusal :=
  ok (rangeGo s b u.val 1 irq)
/-- RANGE_INVALIDATE (R268). -/
def execRangeInvalidate (b : By) (u : Fin 2) (irq : Bool) (s : State) : Host.Outcome State Fault Refusal :=
  ok (rangeGo s b u.val 2 irq)

/-- Whether home h has finished with the operation of a unit. -/
def rangeHomeDone (s : State) (u h : Nat) : Bool :=
  stkFenced s h || (!((tget [] h s.walks).contains (.range u)) && rangeIdle s u h)

/-- RANGE_OP_COMPLETE (R270): every home has finished. -/
def rangeComplete (s : State) (u : Nat) : State :=
  if rgF s .rmstat u 7 0 ≠ 1 ∨ !((List.range 12).all (rangeHomeDone s u)) then s
  else
    let s := { s with
      rangeTx := s.rangeTx.filter (fun t => t.1 != u)
      walkRun := (List.range 12).foldl (fun t h => if tget none h t = some (.range u) then tset none h none t else t) s.walkRun }
    let s := setRgF s .rmstat u 7 0 (if tget false u s.rangePois then 3 else 2)
    if rgF s .rmcmd u 4 4 = 1 then raiseSrc s (912 + u) else s

/-- RANGE_OP_COMPLETE. -/
def execRangeOpComplete (u : Fin 2) (s : State) : Host.Outcome State Fault Refusal := ok (rangeComplete s u.val)

end Sys2Proof.Machine
end

