-- ==== Sys2Proof/Machine/Reset.lean ====
section
/-! DEFINITION. Resets and bring-up (chapter 20): reset commands, the order of a warm, stack or core reset (R619), what each reset leaves
(R86, R351, R616, R639, R646), the power pins (R39, R40, R622, R652), the bring-up sequence (R627 to R637), GO_FULL (R631). -/
namespace Sys2Proof.Machine

open Sys2Proof

/-! ### Reset values -/

/-- The registers with a name dropped: they read their reset values again. -/
def dropRegs (s : State) (f : Nat → Nat → Bool) : State :=
  { s with regs := s.regs.filter (fun p => !(f (p.1 / 2 ^ 32) (p.1 % 2 ^ 32))) }

/-- A register returns to its reset value. -/
def resetRg (s : State) (r : RegName) (i : Nat) : State := setRg s r i (regResetAt r i)

/-- The fuses of retired ways disable them (R257); at a cold reset FUSED shows them too. -/
def applyFuses (s : State) (cold : Bool) : State :=
  s.wayFuse.foldl (fun s p =>
    if !p.2 then s
    else
      let (r, i) := disReg (p.1 / 65536) (p.1 % 65536 / 128) (p.1 % 128 / 16)
      let w := p.1 % 16
      let s := setRgF s r i w w 1
      if cold then setRgF s r i (16 + w) (16 + w) 1 else s) s

/-- The registers that are fused or lie in the witness island: kept across a cold reset (R40, R639). -/
def coldKept : List Nat := [RegName.pkgid, .life0, .life1, .memhash].map RegName.num

/-- A cartridge in its slot as a cold reset finds it. -/
def coldSlot (x : Slot) : Slot := { mem := x.mem, present := x.present.map (fun _ => 0) }

/-- The state a cold reset leaves (R40, R166, R387, R639): the witness island, fuses and flash, and what is no state of the device
(cartridges, the values the spec leaves open). -/
def coldState (s : State) : State :=
  let c := State.reset
  let s' := { c with
    pending := s.pending
    freeCtr := s.freeCtr
    ctxKey := s.ctxKey + 1
    regs := s.regs.filter (fun p => coldKept.contains (p.1 / 2 ^ 32))
    hlog := s.hlog
    vstby := s.vstby
    vin := s.vin
    coreFuse := s.coreFuse
    wayFuse := s.wayFuse
    flash := s.flash
    oePlan := s.oePlan
    dbgFuse := s.dbgFuse
    dbgPolicy := s.dbgFuse
    slots := s.slots.map (fun p => (p.1, coldSlot p.2))
    rs := { spareMask := s.rs.spareMask, asg := s.rs.asg }
    mp := { ihlAns := s.mp.ihlAns } }
  applyFuses (setRg s' .memhash 0 (BitVec.ofNat 64 (rgF s .memhash 0 63 32 * 2 ^ 32))) true

/-! ### Cores (R86, R620, R646) -/

/-- The system registers of a core after a reset other than cold: RSTLOSS, RSTVEC and ERRSTAT.DEFER_LOST keep their values (R165, R239). -/
def keptSys (sys : Tab Word) : Tab Word :=
  (sys.filter (fun p => p.1 % 0x1000 == 0x610 || p.1 % 0x1000 == 0x008 || p.1 % 0x1000 == 0x611)).map
    (fun p => (p.1, if p.1 % 0x1000 == 0x611 then p.2 &&& 0xFFFF0000 else p.2))

/-- A core's state after a reset that includes it (R86, R163, R296, R585, R620): it is held; a programmed fuse leaves it stopped. `all` tells the
resets that clear all interrupt state (R646). Counts since cold reset, measured drift, cached translations, the reservation and a pending deferred error are no state of R86 and
stay; a pending halt is DBGSTAT.HALT_PEND, a system register. -/
def coreAfter (k : Core) (fuse all : Bool) : Core :=
  { ({} : Core) with
    pc := tget 0 0x008 k.sys
    sys := keptSys k.sys
    stopped := fuse
    resv := k.resv
    defErr := k.defErr
    defCount := k.defCount
    tlb := k.tlb
    reexec := k.reexec
    drift := k.drift
    sgi := if all then [] else k.sgi
    arrived := if all then [] else k.arrived }

/-- A core is reset: interrupts it had acknowledged cease to be active (R646), its fence ends (R302), the rest is R86. -/
def coreReset (s : State) (c : Nat) (all : Bool) : State :=
  let s := (getCore s c).active.foldl (fun s a => writeIeoi s c a.intid) s
  let s := (List.range 13).foldl (fun s d => setFence s d c false) s
  let s := { s with wayWin := tset {} (4 * 65536 + c) {} s.wayWin }
  setCore s c (coreAfter (getCore s c) (tget false c s.coreFuse) all)

/-- RELEASE of a held core (R620): it runs from RSTVEC, at PL3 in the secure world. -/
def releaseCore (s : State) (c : Nat) : State :=
  setCore s c { getCore s c with held := false, pc := sysGet s c 0x008 false, cstat := 0x37 }

/-! ### The order of a warm, stack or core reset (R619) -/

/-- The physical cores in scope. -/
def scopeCores : RstScope → List Nat
  | .warm => List.range 240
  | .stack n => (List.range 20).map (fun u => n * 20 + u)
  | .core c => [c]

/-- The homes in scope. -/
def scopeHomes (s : State) : RstScope → List Nat
  | .warm => (List.range 12).filter (fun h => !(stkFenced s h))
  | .stack n => [n]
  | .core _ => []

/-- RSTLOSS.LAST_TYPE of a reset: 1 warm, 2 core or stack. -/
def scopeKind : RstScope → Nat
  | .warm => 1
  | _ => 2

/-- Steps 1 and 2 begin (R165, R619): the cores in scope execute nothing more, and their drain windows open. One that stood in HOLD or
BANK returns to RUN, as its WAIT ends (R550). -/
def rstStart (s : State) (sc : RstScope) (last : Nat) : State :=
  let s := (scopeCores sc).foldl (fun s c =>
    setCore (wakeDom s c) c { getCore s c with inReset := true, waiting := false, drainFrom := some (now s), rstKind := scopeKind sc }) s
  { s with rs := { s.rs with run := some ⟨sc, last, 0⟩ } }

/-- Whether step 2 is over for a core: nothing waits to leave its store buffer, and no line of it is in a transaction. -/
def coreDrained (s : State) (c : Nat) : Bool :=
  (getCore s c).sb.all (fun e => e.sent && (e.dev || e.nc)) && s.lines.all (fun p => p.1 / 2 ^ 46 != c || !(transSt p.2.st))

/-- Holder h gives up every line: written back or returned to the homes (R288, R619); one that a home has fenced drops them (R300). -/
def dropHolder (s : State) (h : Nat) : State :=
  let mine := (s.lines.filter (fun p => p.1 / 2 ^ 46 == h && validSt p.2.st)).map (fun p => p.1 % 2 ^ 46)
  if (List.range 12).any (fun d => fencedAt s d h) then mine.foldl (fun s l => setHline s h l {}) s
  else mine.foldl (fun s l =>
    let (p, s) := evictReq s h l
    launch s p {}) s

/-- Whether holder h has no line left. -/
def holderEmpty (s : State) (h : Nat) : Bool := s.lines.all (fun p => p.1 / 2 ^ 46 != h || p.2.st == .i)

/-- The reset under way reaches a phase. -/
def rstPhase (s : State) (r : RstRun) (n : Nat) : State := { s with rs := { s.rs with run := some { r with phase := n } } }

/-- RESET_L2_WRITEBACK (R619 step 3): the phase ends when no core in scope holds a line. -/
def l2Writeback (s : State) : State :=
  match s.rs.run with
  | none => s
  | some r =>
    let cs := scopeCores r.scope
    if r.phase ≠ 0 ∨ !(cs.all (coreDrained s)) then s
    else
      let s := cs.foldl dropHolder s
      if cs.all (holderEmpty s) then rstPhase s r 1 else s

/-- RESET_L2_WRITEBACK. -/
def execResetL2Writeback (s : State) : Host.Outcome State Fault Refusal := ok (l2Writeback s)

/-- A way whose retirement is due or running when a reset ends its walk is disabled all the same (R257): its lines go with the reset. -/
def retireEnd (s : State) (h : Nat) (w : WalkKind) : State :=
  match w with
  | .wayRetire k way =>
    if h = 12 then logErr (raiseSrc (setRgF s .hioway 0 way way 1) 920) .hubEv 0x24 0 way 0
    else logErr (raiseSrc (setRgF s .l3way (h * 8 + k) way way 1) (32 * h + 2)) (.ev h) 0x22 k way 0
  | .dirRetire k way => logErr (raiseSrc (setRgF s .dirway (h * 8 + k) way way 1) (32 * h + 2)) (.ev h) 0x23 k way 0
  | _ => s

/-- The walks of a home, due or running, end with a reset. -/
def walksEnd (s : State) (h : Nat) : State :=
  let ws := (tget none h s.walkRun).toList ++ tget [] h s.walks
  ws.foldl (fun s w => retireEnd s h w) { s with walks := tset [] h [] s.walks, walkRun := tset none h none s.walkRun }

/-- R262 at a home in a reset: its L3 goes out of use, its dirty lines written back. -/
def homeFlush (s : State) (h : Nat) : State :=
  setRgF (flushEnd (setRgF (walksEnd s h) .l3ctl h 0 0 0) h []) .l3stat h 2 2 0

/-- Every root port completes the DEV accesses it holds with error (R237, R619 step 5). -/
def portsRefuse (s : State) : State :=
  (List.range 96).foldl (fun s i =>
    let x := rport s i
    if x.held.isEmpty then s
    else (x.held.map (·.1)).foldl (fun s p => devComplete s p false 0) (setRport s i { x with held := [] })) s

/-- RESET_HOME_FLUSH (R262, R619 step 4). At a warm reset the hub I/O cache gives up its lines first (log entry 36), and the root ports
refuse what they hold. -/
def homesFlush (s : State) : State :=
  match s.rs.run with
  | none => s
  | some r =>
    if r.phase ≠ 1 then s
    else
      let s := if r.scope = .warm then dropHolder s 0xF0 else s
      if r.scope = .warm ∧ !(holderEmpty s 0xF0) then s
      else
        let s := if r.scope = .warm then walksEnd s 12 else s
        let s := (scopeHomes s r.scope).foldl homeFlush s
        rstPhase (if r.scope = .warm then portsRefuse s else s) r 2

/-- RESET_HOME_FLUSH. -/
def execResetHomeFlush (s : State) : Host.Outcome State Fault Refusal := ok (homesFlush s)

/-! ### What a warm package reset leaves (R351, R456, R475, R618, R639) -/

/-- The set-up registers kept whole across a warm package reset (log entry 37 for those R639 does not list). -/
def warmKept : List Nat :=
  [RegName.pkgid, .strapstat, .dierev, .memhash, .keycmd, .keystat, .keydata, .ownmap, .hubWfctl, .hubWfbase, .hubWflim, .svcreq, .rqto,
   .hubCelogstat, .hubEvlogstat, .life0, .life1, .hubCelogA, .hubCelogB, .hubCelogT, .hubEvlogA, .hubEvlogB, .hubEvlogT, .pcapctl,
   .lastwake, .lastwaket, .mpwdt, .hubFabstat, .fabstat, .hubLinkcnt, .linkcnt, .mcctl, .mccestat, .mccelog, .mcuelog, .wfctl,
   .wfbase, .wflim, .celogstat, .evlogstat, .retstat, .celogA, .celogB, .celogT, .evlogA, .evlogB, .evlogT, .l3way, .dirway, .hioway,
   .cohstat, .cohaddr, .icstat, .cunitdis, .ciphcnt, .cartstat, .l3stat].map RegName.num

/-- The registers of which fields are kept: name, [hi:lo]. -/
def warmFields : List (RegName × Nat × Nat) :=
  [(.mcstat, 63, 32), (.mcscrub, 63, 48), (.mcscrub, 7, 0), (.mpstat, 63, 48), (.ciphstat, 63, 16), (.linkstat, 43, 40),
   (.hubLinkstat, 43, 40), (.linkstat, 19, 19), (.hubLinkstat, 19, 19), (.oestat, 17, 17), (.palstat, 63, 32)]

/-- A kept field of a register. -/
def keepField (old s : State) (f : RegName × Nat × Nat) : State :=
  (List.range (regCount f.1)).foldl (fun s i =>
    let x := rgF old f.1 i f.2.1 f.2.2
    if x = 0 then s else setRgF s f.1 i f.2.1 f.2.2 x) s

/-- The set-up registers after a warm package reset. -/
def warmRegs (s : State) : State :=
  let s' := { s with regs := s.regs.filter (fun p => warmKept.contains (p.1 / 2 ^ 32)) }
  warmFields.foldl (keepField s) s'

/-- Slots go dark with their engines; a cartridge keeps its state (R411). -/
def slotsDark (s : State) : State :=
  (List.range 8).foldl (fun s i => if slotSt s (i / 2) (i % 2) = 3 then setSlotSt s (i / 2) (i % 2) 2 else s) s

/-- The package as step 1 of bring-up finds it after a warm reset with LASTRST `last`. -/
def warmState (s : State) (last : Nat) : State :=
  let s := (List.range 240).foldl (fun s c => coreReset s c true) (warmRegs (slotsDark s))
  let s := mpToRom s
  let s := { s with
    lines := [], dir := [], busy := [], dirWait := [], farLast := [], net := [], agentOps := [], hubTx := [], hwOps := [], dapWait := [], outst := [], quarantine := []
    walks := [], walkRun := [], admitted := [], fencedStk := [], tinvQ := [], bcasts := [] }
  let s := { s with
    tokens := [], tokenAt := [], gHeld := [], arbPtr := [], fstopAt := [], seg := [], rimHold := [], parked := [], ends := [], pals := []
    bundles := [], cands := [], hubAt := none, timeAt := none, otherMaster := false, slew := 0, slewCtr := 0, seenIds := [] }
  let s := { s with
    lgs := [], rports := [], engs := [], ethTx := [], ethPause := [], queues := [], shares := [], hubTlb := [], hioWays := []
    sessions := [], inTable := [], spills := [], unitWin := [], scrubAt := [], rangeSec := [], rangeTx := [], rangePois := []
    sweeping := [] }
  let s := { s with
    rs := { spareMask := s.rs.spareMask, asg := s.rs.asg, mods := s.rs.mods, floored := s.rs.floored }
    mp := { wdAt := now s, ihlAns := s.mp.ihlAns }
    pw := { hotSens := s.pw.hotSens, outTotal := s.pw.outTotal, outSince := s.pw.outSince } }
  let s := (List.range 12).foldl (fun s h => setRgF (setRgF (setRgF s .l3stat h 0 0 0) .l3stat h 1 1 0) .l3stat h 3 3 0) s
  reVoltAll (setRgF (applyFuses s false) .rststat 0 25 24 last)

/-- What a stack reset leaves of the stack's registers (R351, R639). -/
def stackRegs (s : State) (n : Nat) : State :=
  let s := reVolt (resetRg s .vreq n) n
  let s := resetRg (resetRg s .cohctl n) .fabctl n
  let s := (List.range 18).foldl (fun s i => resetRg s .cpwr (18 * n + i)) s
  let e := 3 * n + 2
  setLsF (setLsF (setLsState (resetRg s .linkctl e) e 1) e 31 30 3) e 43 40 0

/-- Whether a store that left a core's buffer before its drain window ended is still on its way (R165): it is performed, or completed
with error, before a warm reset empties the fabric. -/
def storesOut (s : State) : Bool :=
  (s.net ++ s.parked).any (fun p => (p.cmd == .wrc || p.cmd == .devWr) && decide (coreOfStop p.src ≤ mpCore))

/-- RESET_FINISH (R619 steps 5 and 6). -/
def rstFinish (s : State) : State :=
  match s.rs.run with
  | none => s
  | some r =>
    match r.scope with
    | .core c =>
      if r.phase = 0 then s
      else
        let s := match coreLc s c with
          | some k => resetRg s .cpwr k
          | none => s
        rstDone (coreReset { s with rs := { s.rs with run := none } } c false) 3 c 2
    | .stack n =>
      if r.phase ≠ 2 then s
      else
        let s := (scopeCores r.scope).foldl (fun s c => coreReset s c false) { s with rs := { s.rs with run := none } }
        let s := { l3Drop (stackRegs s n) n with sweeping := tset false n true s.sweeping }
        { s with rs := { s.rs with dieAt := tset 0 n (now s) s.rs.dieAt } }
    | .warm => if r.phase ≠ 2 ∨ storesOut s then s else warmState s r.last

/-- RESET_FINISH. -/
def execResetFinish (s : State) : Host.Outcome State Fault Refusal := ok (rstFinish s)

/-! ### Reset commands (R620 to R625) -/

/-- BUSTAT.STKs. -/
def stkState (s : State) (n : Nat) : Nat := rgF s .bustat 0 (3 * n + 2) (3 * n)

/-- BUSTAT.STKs set. -/
def setStkState (s : State) (n x : Nat) : State := setRgF s .bustat 0 (3 * n + 2) (3 * n) x

/-- Whether OP and TARGET name a command that can be (R624): the target in range, and no vacant logical core. -/
def rstNames (s : State) (op t : Nat) : Bool :=
  if op = 2 then decide (t < 12)
  else if op = 3 ∨ op = 5 then lcValid s t
  else (op == 1 || op == 4 || op == 6) && t == 0

/-- Whether a normal-world command is denied (R625). -/
def rstOwned (s : State) (op t : Nat) : Bool :=
  if op = 2 then ownStk s t
  else if op = 3 ∨ op = 5 then ownStk s (lcCore s t / 20)
  else rg s .ownmap 0 != 0

/-- The supported rates of a channel's modules (R369), up to the rate they are rated for, coded as MCSTAT.RATE. -/
def modRates (m : ChMods) : List Nat :=
  let l := if m.kind = 2 then [3, 4] else if m.kind = 1 then (if m.dimms = 2 then [] else [1, 2])
    else if m.dimms = 2 then [1] else [1, 2]
  l.filter (fun r => r ≤ m.rate)

/-- The channels in service. -/
def liveChs (s : State) : List Nat := (List.range 24).filter (fun c => chState s c == 2 && !(stkFenced s (c / 2)))

/-- The highest rate below a bound that the modules of every channel in service support; 4,800 MT/s (0) when none does (R631). -/
def bestRate (s : State) (below : Nat) : Nat :=
  let good := [1, 2, 3, 4].filter (fun r => decide (r < below) && (liveChs s).all (fun c => (modRates (tget {} c s.rs.mods)).contains r))
  if (liveChs s).isEmpty then 0 else good.getLastD 0

/-- The homes with a channel in service. -/
def liveHomes (s : State) : List Nat := (List.range 12).filter (fun h => (liveChs s).any (fun c => c / 2 == h))

/-- Whether GO_FULL may start (R631). -/
def goFullOk (s : State) : Bool :=
  phase s == 4 && s.tbMode == 1 && (List.range 12).all (fun n => stkState s n == 5 || stkState s n == 6)

/-- The effect of a command that is taken (R619, R620, R631); a stack in reset is not READY, and its numbers are vacant (R628). -/
def rstAct (s : State) (op t : Nat) : State :=
  if op = 1 then rstStart s .warm 2
  else if op = 2 then
    if stkState s t ≠ 5 ∨ s.rs.run.isSome then rstEnd s op 0x11
    else
      let s := { s with rs := { s.rs with l3WasOn := tset false t (rgF s .l3ctl t 0 0 == 1) s.rs.l3WasOn } }
      let s := (List.range 18).foldl (fun s i => setRgF s .lcmap (18 * t + i) 15 15 0) s
      rstStart (setStkState s t 7) (.stack t) 0
  else if op = 3 then
    if s.rs.run.isSome then rstEnd s op 0x11 else rstStart s (.core (lcCore s t)) 0
  else if op = 4 then mpRestart s
  else if op = 5 then
    let c := lcCore s t
    if !((getCore s c).held) || (getCore s c).stopped || (getCore s c).inReset then rstEnd s op 0x11 else releaseCore s c
  else if goFullOk s then
    let r := bestRate s 5
    { s with rs := { s.rs with goFull := some { rate := r, first := r, homes := liveHomes s } } }
  else rstEnd s op 0x11

/-- A GO of RSTCMD (R624, R625, R644): OP and TARGET as written; the target kept under rstOp is the physical core for CORE and RELEASE.
A reserved OP leaves the OP field as it was (R13), and LASTOP too: the command never was (log entry 88). -/
def rstGo (s : State) (b : By) (op t : Nat) : State :=
  if rgF s .rststat 0 7 0 = 1 then setRgF s .rststat 0 16 16 1
  else if op = 0 ∨ op > 6 then setRgF (setRgF s .rstcmd 0 23 16 t) .rststat 0 7 0 0x10
  else
    let s := setRgF (setRgF s .rstcmd 0 23 16 t) .rstcmd 0 3 0 op
    if !(rstNames s op t) then rstEnd s op 0x10
    else if !(bySec b) ∧ rstOwned s op t then rstEnd (hlDenied s b deniedOwned (regPa 0x10000)) op deniedOwned
    else
      let u := if op = 3 ∨ op = 5 then lcCore s t else t
      rstAct (setRgF { s with rs := { s.rs with op := (op, u) } } .rststat 0 7 0 1) op t

/-- WARM (R619). -/
def execWarm (b : By) (s : State) : Host.Outcome State Fault Refusal := ok (rstGo s b 1 0)
/-- STACK (R619). -/
def execStack (b : By) (t : BitVec 8) (s : State) : Host.Outcome State Fault Refusal := ok (rstGo s b 2 t.toNat)
/-- CORE (R619). -/
def execCore (b : By) (t : BitVec 8) (s : State) : Host.Outcome State Fault Refusal := ok (rstGo s b 3 t.toNat)
/-- MP (R605). -/
def execMp (b : By) (s : State) : Host.Outcome State Fault Refusal := ok (rstGo s b 4 0)
/-- RELEASE (R620). -/
def execRelease (b : By) (t : BitVec 8) (s : State) : Host.Outcome State Fault Refusal := ok (rstGo s b 5 t.toNat)
/-- GO_FULL (R631). -/
def execGoFull (b : By) (s : State) : Host.Outcome State Fault Refusal := ok (rstGo s b 6 0)

/-! ### GO_FULL (R631) -/

/-- Whether a home has no request open. -/
def homeQuiet (s : State) (h : Nat) : Bool := s.busy.all (fun p => (lineLoc s p.1).home != h || p.2.isNone)

/-- The channels of a home in service. -/
def homeChs (s : State) (h : Nat) : List Nat := [2 * h, 2 * h + 1].filter (fun c => (liveChs s).contains c)

/-- GO_FULL starts again from the first home, at a rate. -/
def goAgain (s : State) (g : GoFull) : State := { s with rs := { s.rs with goFull := some { g with homes := liveHomes s } } }

/-- GO_FULL_HOME_WINDOW (R631 steps 2 and 3): the home's channels retrain; bit m of `fails` tells that channel 2h + m fails. -/
def goWindow (s : State) (h fails : Nat) : State :=
  match s.rs.goFull with
  | none => s
  | some g =>
    if g.homes.head? ≠ some h ∨ !(homeQuiet s h) then s
    else
      let bad := (homeChs s h).filter (fun c => fails.testBit (c % 2))
      if bad.isEmpty ∨ g.last then
        let lost := g.lost || !bad.isEmpty
        let s := bad.foldl (fun s c => setRgF s .mcstat c 1 0 3) s
        let s := (homeChs s h).foldl (fun s c => setRgF s .mcstat c 11 8 g.rate) s
        { s with rs := { s.rs with goFull := some { g with homes := g.homes.tail, lost := lost } } }
      else if g.rate = 0 ∨ g.restarts = 4 then goAgain s { g with rate := 0, last := true }
      else goAgain s { g with rate := bestRate s g.rate, restarts := g.restarts + 1 }

/-- GO_FULL_HOME_WINDOW. -/
def execGoFullHomeWindow (h : StackId) (fails : BitVec 2) (s : State) : Host.Outcome State Fault Refusal :=
  ok (goWindow s h.val fails.toNat)

/-- GO_FULL_DONE (R629, R631 step 4). -/
def goDone (s : State) : State :=
  match s.rs.goFull with
  | none => s
  | some g =>
    if !(g.homes.isEmpty) then s
    else
      let s := setRgF { s with rs := { s.rs with goFull := none } } .bustat 0 63 60 5
      reVoltAll (rstDone s 6 0 (if g.rate = g.first ∧ !g.lost then 2 else 3))

/-- GO_FULL_DONE. -/
def execGoFullDone (s : State) : Host.Outcome State Fault Refusal := ok (goDone s)

/-! ### Pins (R36, R39, R40, R622, R652) -/

/-- PWRGOOD_RISE (R39): every rail is within tolerance; RESET_N is still low. LIFE1 counts the power-up (R592). -/
def execPwrgoodRise (vstby : Bool) (s : State) : Host.Outcome State Fault Refusal :=
  if s.rs.pwrgood then ok s
  else
    let s := incRgF (coldState { s with vstby := vstby, vin := true }) .life1 0 31 16
    ok { s with resetN := false, rs := { s.rs with pwrgood := true, coldPend := true } }

/-- PWRGOOD_FALL (R40): only the witness island keeps its contents; `vin` tells whether VIN_MAIN is still present. -/
def execPwrgoodFall (vin : Bool) (s : State) : Host.Outcome State Fault Refusal :=
  let s := coldState { s with vin := vin }
  ok { s with resetN := false, rs := { s.rs with pwrgood := false, coldPend := true } }

/-- RESET_N_LOW (R652): RESET_N has been low for 1 us while PWRGOOD is high. -/
def resetLow (s : State) : State :=
  if !(s.rs.pwrgood) || !(s.resetN) || s.pw.tripped then s else rstStart { s with resetN := false } .warm 1

/-- RESET_N_LOW. -/
def execResetNLow (s : State) : Host.Outcome State Fault Refusal := ok (resetLow s)

/-- RESET_N_RISE (R36, R622, R627): at the end of a cold reset the straps are sampled and PTIME starts at 0. -/
def resetRise (s : State) (casc bootSrc : Nat) : State :=
  if !(s.rs.pwrgood) || s.resetN || s.pw.tripped then s
  else if s.rs.coldPend then
    let s := coldState s
    let s := setRg s .strapstat 0 (BitVec.ofNat 64 (casc + bootSrc * 4 + (if bootSrc = 3 then 0x80 else 0)))
    { setRgF s .cascstat 0 1 0 casc with pkg := casc }
  else { s with resetN := true }

/-- RESET_N_RISE. -/
def execResetNRise (casc bootSrc : BitVec 2) (s : State) : Host.Outcome State Fault Refusal := ok (resetRise s casc.toNat bootSrc.toNat)

/-- TIME_BASE_LOCK (R622): MODE becomes LOCKED, PTIME goes on. -/
def execTimeBaseLock (s : State) : Host.Outcome State Fault Refusal :=
  ok (if s.tbMode = 0 ∧ s.rs.pwrgood ∧ rgF s .pkgstat 0 10 8 ≠ 4 ∧ rgF s .pkgstat 0 10 8 ≠ 5 then raiseSrc { s with tbMode := 1 } 925 else s)

/-! ### Bring-up (R627 to R637) -/

/-- Whether bring-up may take a step: the image runs and no reset is under way. -/
def bringing (s : State) : Bool := s.resetN && s.rs.pwrgood && s.rs.run.isNone && s.mp.boot == 1

/-- A stack is fenced at bring-up (R24, R356, R630, R637, R643): no core of it was in use. -/
def fenceAtBoot (s : State) (n : Nat) : State :=
  if stkFenced s n then s
  else
    let e := 36 + n
    let s := if lsState s e = 7 then s else setLsState s e 0
    let s := setLsF s e 31 30 3
    let s := (List.range 18).foldl (fun s i => setRg s .lcmap (18 * n + i) 0) s
    let s := raiseSrc { setStkState s n 6 with fencedStk := tset false n true s.fencedStk } (32 * n + 11)
    rstDone s 2 n 2

/-- Whether a die is fenced for its major letter (R633). -/
def dieBad (s : State) (d : Nat) : Bool := rgF s .dierev d 15 8 != (dieRef d).letter.toNat

/-- Whether every die of a kind that is not fenced has at least a minor digit (R635). -/
def atLeast (s : State) (lo n : Nat) (digit : Nat) : Bool :=
  (List.range n).all (fun i => rgF s .dierev (lo + i) 32 32 == 1 || decide (rgF s .dierev (lo + i) 7 0 ≥ digit))

/-- FEATURES over the dies that are not fenced (R635). -/
def featureFloor (s : State) : Nat :=
  (if atLeast s 0 1 1 then 7 else 0) + (if atLeast s 13 12 2 then 0x100 else 0) + (if atLeast s 13 12 1 then 0x200 else 0) +
    (if atLeast s 25 4 1 then 0x10000 else 0)

/-- DIEREVd.FENCED set. -/
def fenceDie (s : State) (d : Nat) : State := setRgF s .dierev d 32 32 1

/-- The fences of R633: a stack with both its dies, an engine. -/
def revFences (s : State) : State :=
  let s := (List.range 12).foldl (fun s n =>
    if dieBad s (1 + n) || dieBad s (13 + n) then fenceAtBoot (fenceDie (fenceDie s (1 + n)) (13 + n)) n else s) s
  (List.range 4).foldl (fun s e => if dieBad s (25 + e) then fenceDie s (25 + e) else s) s

/-- The hub die itself is of another major (R634): every die is fenced, and bring-up ends. -/
def hubFenced (s : State) : State :=
  let s := (List.range 29).foldl fenceDie s
  let s := (List.range 12).foldl fenceAtBoot s
  hlDevice { s with rs := { s.rs with boot := 3 } } 0x0011 0x2000 0 0

/-- CASCSTAT, CASCFEAT and PHASE at the end of step 2 (R363, R627, R636). -/
def enterAdmit (s : State) : State :=
  let s := setRgF { setRg s .cascfeat 0 (BitVec.ofNat 64 s.features) with hubAt := some (now s) } .cascstat 0 1 0 s.pkg
  let s := if s.pkg = 0 then
      setRgF (setRgF { s with admitted := [0] } .cascstat 0 4 4 1) .cascstat 0 60 60 1
    else setRgF { s with admitted := [] } .cascstat 0 7 7 1
  if (List.range 32).any (isPal s) then setRgF s .bustat 0 63 60 1 else s

/-- BRINGUP_FLOOR (R627 step 2): the revisions the dies report, the feature floor (once per cold reset, R635), the fences, the
personalities of the boot image. -/
def bringFloor (s : State) (revs : List DieRev) (pers : List Word) : State :=
  if !(bringing s) || s.rs.boot != 1 then s
  else
    let s := (List.range 29).foldl (fun s d =>
      let r := revs.getD d (dieRef d)
      setRg s .dierev d (dieWord d r)) s
    if dieBad s 0 then hubFenced s
    else
      let s := revFences s
      let s := if s.rs.floored then s else { s with features := featureFloor s, rs := { s.rs with floored := true } }
      let s := (List.range 32).foldl (fun s g => if fld (pers.getD g 0) 2 0 = 0 then s else lgctlWrite s .mp g (pers.getD g 0)) s
      enterAdmit { s with rs := { s.rs with boot := 2 } }

/-- BRINGUP_FLOOR. -/
def execBringupFloor (revs : List DieRev) (pers : List Word) (s : State) : Host.Outcome State Fault Refusal :=
  ok (bringFloor s revs pers)

/-- The stacks not fenced. -/
def liveStks (s : State) : List Nat := (List.range 12).filter (fun n => !(stkFenced s n))

/-- A link end begins to train (R346). -/
def beginTrain (s : State) (n : Nat) : State := setLsF (setLsState s n 1) n 31 30 3

/-- Whether the package may leave the hub stage (R363, R364, R627): a master, or a package that was admitted. -/
def leavesHub (s : State) : Bool := s.rs.boot == 2 && (phase s == 0 || phase s == 1) && rgF s .cascstat 0 7 7 == 0 && !s.otherMaster

/-- BRINGUP_TILES (R627 step 3). -/
def bringTiles (s : State) : State :=
  if !(bringing s) || !(leavesHub s) then s
  else
    let s := (liveStks s).foldl (fun s n =>
      beginTrain (beginTrain (beginTrain (beginTrain (setStkState s n 1) (36 + n)) (3 * n)) (3 * n + 1)) (3 * n + 2)) s
    setRgF { s with rs := { s.rs with linkAt := now s } } .bustat 0 63 60 2

/-- BRINGUP_TILES. -/
def execBringupTiles (s : State) : Host.Outcome State Fault Refusal := ok (bringTiles s)

/-- Whether the spoke link of a stack is ACTIVE at both ends. -/
def spokeUp (s : State) (n : Nat) : Bool := lsState s (36 + n) == 5 && lsState s (3 * n + 2) == 5

/-- BRINGUP_LINK_DEADLINE (R627 step 3). -/
def execBringupLinkDeadline (s : State) : Host.Outcome State Fault Refusal :=
  ok (if bringing s && phase s == 2 && decide (now s ≥ s.rs.linkAt + 1000000) then
      (liveStks s).foldl (fun s n => if stkState s n = 1 ∧ !(spokeUp s n) then fenceAtBoot s n else s) s
    else s)

/-- Whether the modules of a channel are ones the device supports (R369, R370): 3DS modules have x4 devices, and MRDIMMs stand alone. -/
def modsOk (m : ChMods) : Bool := m.dimms != 0 && (m.kind == 0 || (m.kind == 1 && !m.x8) || (m.kind == 2 && m.dimms == 1))

/-- The module type of the package (R370): that of the lowest-numbered channel that holds supported modules. -/
def modType (s : State) : Option Nat :=
  (((List.range 24).map (fun c => (tget {} c s.rs.mods : ChMods))).find? modsOk).map (·.kind)

/-- A channel starts to train, or not (R370, R371): ABSENT without modules, FAILED with unsupported ones. -/
def chStart (s : State) (c : Nat) : State :=
  let m : ChMods := tget {} c s.rs.mods
  let st := if m.dimms = 0 then 0 else if !(modsOk m) || some m.kind != modType s then 3 else 1
  let s := setRgF (setRgF (setRgF s .mcstat c 25 16 0) .mcstat c 11 8 0) .mcstat c 7 6 m.dimms
  setRgF (setRgF (setRgF s .mcstat c 5 5 (if m.kind = 2 then 1 else 0)) .mcstat c 4 4 m.x8.toNat) .mcstat c 1 0 st

/-- The directory of home h is written clear. -/
def dirClear (s : State) (h : Nat) : State := { s with dir := s.dir.filter (fun p => (lineLoc s p.1).home != h) }

/-- BRINGUP_TILE_INIT (R627 step 4): every spoke link is ACTIVE, and each tile sweeps its L3, clears its directory and trains. -/
def bringTileInit (s : State) (mods : List ChMods) : State :=
  if !(bringing s) || phase s != 2 || !((liveStks s).all (fun n => stkState s n == 1 && spokeUp s n)) then s
  else
    let s := { s with rs := { s.rs with mods := (List.range 24).foldl (fun t c => tset {} c (mods.getD c {}) t) s.rs.mods } }
    (liveStks s).foldl (fun s n =>
      let s := chStart (chStart (setStkState (dirClear s n) n 2) (2 * n)) (2 * n + 1)
      { s with
        sweeping := tset false n true s.sweeping
        rs := { s.rs with tileAt := tset 0 n (now s) s.rs.tileAt } }) s

/-- BRINGUP_TILE_INIT. -/
def execBringupTileInit (mods : List ChMods) (s : State) : Host.Outcome State Fault Refusal := ok (bringTileInit s mods)

/-- A channel's training ends. -/
def chTrained (s : State) (c : Nat) (good : Bool) : State := if chState s c = 1 then setRgF s .mcstat c 1 0 (if good then 2 else 3) else s

/-- TILE_DONE (R627 step 4). -/
def execTileDone (n : StackId) (ok0 ok1 : Bool) (s : State) : Host.Outcome State Fault Refusal :=
  ok (if stkState s n.val = 2 then
      setStkState (chTrained (chTrained s (2 * n.val) ok0) (2 * n.val + 1) ok1) n.val 3
    else s)

/-- TILE_DEADLINE (R627 step 4). -/
def execTileDeadline (n : StackId) (s : State) : Host.Outcome State Fault Refusal :=
  ok (if stkState s n.val = 2 ∧ now s ≥ tget 0 n.val s.rs.tileAt + 1000000000 then fenceAtBoot s n.val else s)

/-- BRINGUP_HASH (R372, R374, R627 step 5): NC, C and the lists are fixed; a warm reset that changes NC or C loses the DRAM's contents. -/
def bringHash (s : State) : State :=
  if !(bringing s) || phase s != 2 || !((liveStks s).all (fun n => stkState s n == 3)) then s
  else
    let chs := liveChs s
    let cap := (chs.map (fun c => (tget {} c s.rs.mods : ChMods).cap)).foldl (fun a x => if a = 0 then x else min a x) 0
    let same := memNC s == chs.length && rgF s .memhash 0 19 10 == cap
    let s := setRgF (setRgF (setRgF s .memhash 0 28 24 chs.length) .memhash 0 23 20 (liveStks s).length) .memhash 0 19 10 cap
    let s := chs.foldl (fun s c => setRgF s .mcstat c 25 16 cap) s
    let s := if same then s else { s with dram := [], poisoned := [] }
    setRgF { s with hashChs := chs, hashHomes := liveStks s } .bustat 0 63 60 3

/-- BRINGUP_HASH. -/
def execBringupHash (s : State) : Host.Outcome State Fault Refusal := ok (bringHash s)

/-! ### Core assignment (R20 to R24, R586) -/

/-- The spare cores of stack n, by bit (normally local cores 18 and 19). -/
def sparesOf (s : State) (n : Nat) : Nat := tget 0xC0000 n s.rs.spareMask

/-- The local core logical number 18n + i has at shipment (R20). -/
def primaryOf (s : State) (n i : Nat) : Nat := ((List.range 20).filter (fun u => !((sparesOf s n).testBit u))).getD i 0

/-- The local core a logical number has; none when it is vacant. -/
def asgLocal (s : State) (k : Nat) : Option Nat :=
  let a := tget 0 k s.rs.asg
  if a = 99 then none else if a = 0 then some (primaryOf s (k / 18) (k % 18)) else some (a - 1)

/-- Whether a core's retirement fuse is programmed. -/
def fused (s : State) (n u : Nat) : Bool := tget false (n * 20 + u) s.coreFuse

/-- Spares of stack n that are neither assigned nor retired, lowest first. -/
def freeSpares (s : State) (n : Nat) : List Nat :=
  (List.range 20).filter (fun u => (sparesOf s n).testBit u && !(fused s n u) &&
    (List.range 18).all (fun i => asgLocal s (18 * n + i) != some u))

/-- Logical number k's core, if retired, is replaced by the lowest free spare, or the number falls vacant (R21 to R23). -/
def assignOne (s : State) (k : Nat) : State :=
  match asgLocal s k with
  | none => s
  | some u =>
    if !(fused s (k / 18) u) then s
    else
      let a := match freeSpares s (k / 18) with
        | v :: _ => v + 1
        | [] => 99
      { s with rs := { s.rs with asg := tset 0 k a s.rs.asg } }

/-- The cores of stack n are assigned: substitutions, LCMAPn without VALID (R628), the domains of cores
without number OFF (R546), SPARES, and no threshold since. -/
def assignCores (s : State) (n : Nat) : State :=
  let s := (List.range 18).foldl (fun s i => assignOne s (18 * n + i)) s
  let s := (List.range 18).foldl (fun s i =>
    let k := 18 * n + i
    setRg s .lcmap k (match asgLocal s k with
      | some u => BitVec.ofNat 64 (n * 256 + u)
      | none => 0)) s
  let s := (List.range 20).foldl (fun s u =>
    setDom s (n * 20 + u) (if (List.range 18).any (fun i => asgLocal s (18 * n + i) == some u) then 0 else 3)) s
  setRgF (setRgF s .retstat n 59 56 (freeSpares s n).length) .retstat n 19 0 0

/-- AGE_OFFSET of stack n and the fabric offset at a cold reset (R143, R149): at the stack's first start after it. -/
def coldAging (s : State) (n : Nat) (drifts : List Nat) (fab : Nat) : State :=
  let s := setDrifts s n drifts
  let s := setStk s n { stkOf s n with ageOff := ageOffset (stackDrift s n), ageAt := pourTime s, aged := true }
  let s := if stackDrift s n > 1000 then raiseSrc (logErr s (.ev n) 0x25 0 0 (stackDrift s n)) (32 * n + 7) else s
  let s := if fab > 1000 ∧ s.fabDrift ≤ 1000 then logErr s .hubEv 0x25 0 0 fab else s
  { s with fabOff := max s.fabOff (ageOffset fab), fabDrift := fab, fabAgeAt := pourTime s }

/-- BRINGUP_DIE_INIT (R586, R627 step 6): the cores whose self-test fails are retired, aging is set, cores are assigned. -/
def dieInit (s : State) (n fails : Nat) (drifts : List Nat) (fab : Nat) : State :=
  if !(bringing s) || !(stkState s n == 3 || stkState s n == 7) || decide (phase s < 3) then s
  else
    let s := (List.range 20).foldl (fun s u => if fails.testBit u then retireCore s (n * 20 + u) else s) s
    let s := (List.range 20).foldl (fun s u =>
      if fused s n u then setRgF (setCore s (n * 20 + u) { getCore s (n * 20 + u) with stopped := true }) .retstat n (20 + u) (20 + u) 1 else s) s
    let s := if (stkOf s n).aged = false then coldAging s n drifts fab else s
    reVolt (setStkState { assignCores s n with rs := { (assignCores s n).rs with dieAt := tset 0 n (now s) s.rs.dieAt } } n 4) n

/-- BRINGUP_DIE_INIT. -/
def execBringupDieInit (n : StackId) (fails : BitVec 20) (drifts : List Nat) (fab : Nat) (s : State) : Host.Outcome State Fault Refusal :=
  ok (dieInit s n.val fails.toNat drifts fab)

/-- The L3 of home h is put in use by the shortcut of R264. -/
def l3Shortcut (s : State) (h : Nat) : State := if rgF s .l3stat h 0 0 = 1 then setRgF s .l3ctl h 0 0 1 else s

/-- STACK_READY (R619, R627 step 6, R628, R630). -/
def stackReady (s : State) (n : Nat) : State :=
  if stkState s n ≠ 4 ∨ !(spokeUp s n) ∨ tget false n s.sweeping then s
  else
    let s := (List.range 18).foldl (fun s i =>
      if (asgLocal s (18 * n + i)).isSome then setRgF s .lcmap (18 * n + i) 15 15 1 else s) s
    let s := raiseSrc (setStkState s n 5) (32 * n + 11)
    let s := if tget false n s.rs.l3WasOn then l3Shortcut s n else s
    let s := { s with rs := { s.rs with
        l3WasOn := tset false n false s.rs.l3WasOn
        firstReady := if s.rs.firstReady.isNone then some n else s.rs.firstReady } }
    rstDone s 2 n 2

/-- STACK_READY. -/
def execStackReady (n : StackId) (s : State) : Host.Outcome State Fault Refusal := ok (stackReady s n.val)

/-- DIE_DEADLINE (R627 step 6). -/
def execDieDeadline (n : StackId) (s : State) : Host.Outcome State Fault Refusal :=
  ok (if (stkState s n.val = 4 ∨ (stkState s n.val = 7 ∧ s.rs.run.isNone)) ∧ now s ≥ tget 0 n.val s.rs.dieAt + 50000000 then
      (if phase s ≥ 4 then fenceStack s n.val else fenceAtBoot s n.val) else s)

/-- BOOT_CORE_RELEASE (R620, R627 step 7, R629). -/
def bootCore (s : State) (rstvec : Word) : State :=
  match s.rs.firstReady with
  | none => s
  | some n =>
    if phase s ≠ 3 then s
    else
      let s := (List.range 12).foldl l3Shortcut s
      let s := (List.range 240).foldl (fun s c => sysSet s c 0x008 false (pcWord rstvec)) { s with rs := { s.rs with rstvec := pcWord rstvec } }
      let s := match (List.range 18).find? (fun i => lcValid s (18 * n + i)) with
        | some i => releaseCore s (lcCore s (18 * n + i))
        | none => s
      reVoltAll (setRgF s .bustat 0 63 60 4)

/-- BOOT_CORE_RELEASE. -/
def execBootCoreRelease (rstvec : Word) (s : State) : Host.Outcome State Fault Refusal := ok (bootCore s rstvec)

end Sys2Proof.Machine
end

