-- ==== Sys2Proof/Machine/Tick.lean ====
section
/-! DEFINITION. One tick of the time base (R7, R536, R538): what happens while no command waits (log entry 3). -/
namespace Sys2Proof.Machine

open Sys2Proof

/-- Whether CNT_FIXED of core c counts ticks (R538); the management processor has no CNTCTL, and counts once it has been released
(DESIGN CHOICE, log entry 40). -/
def fixedCounts (s : State) (c : Nat) : Bool :=
  let k := getCore s c
  !k.halted && !k.waiting && (if c = mpCore then !k.held else bit (sysEff s c 0x930 false) 24)

/-- A tick at core c: CNT_FIXED, and event 0x002. -/
def tickCore (s : State) (c : Nat) : State :=
  if fixedCounts s c then countEvent (sysSet s c 0x900 false (trunc c (sysGet s c 0x900 false + 1))) c 0x002 else s

/-- How much PTIME advances at a tick: one, and one more or none at every 5,000th tick of a slew, which keeps within 200 ppm (R365). -/
def slewTick (s : State) : State :=
  if s.slew = 0 then { s with ptime := s.ptime + 1, slewCtr := 0 }
  else if s.slewCtr + 1 < 5000 then { s with ptime := s.ptime + 1, slewCtr := s.slewCtr + 1 }
  else if s.slew > 0 then { s with ptime := s.ptime + 2, slewCtr := 0, slew := s.slew - 1 }
  else { s with slewCtr := 0, slew := s.slew + 1 }

/-- Whether the wake logic keeps PTIME: in BANK and ANNEAL, and in a wake until step 2 hands it back (R555, R556). -/
def wakeKeepsTime (s : State) : Bool :=
  rgF s .pkgstat 0 10 8 == 4 || rgF s .pkgstat 0 10 8 == 5 || (match s.pw.wake with
    | some w => decide (w.step ≤ 2)
    | none => false)

/-- One tick: PTIME advances; while the wake logic keeps it, WAKE_REF_PERIOD advances it, and ticks only where the reference is absent and
its own oscillator counts (R555). -/
def tick (s : State) : State :=
  if wakeKeepsTime s then (if s.pw.refLost then { s with ptime := s.ptime + 1 } else s)
  else s.cores.foldl (fun s p => tickCore s p.1) (slewTick s)

end Sys2Proof.Machine
end

