-- ==== Sys2Proof/Machine/Power.lean ====
section
/-! DEFINITION. The power controller (chapter 17): domain commands (R545 to R549), package BANK and ANNEAL (R552 to R554), the ordered wake and
its sources (R555 to R563), the thermal and power loops and the trip (R564 to R567). -/
namespace Sys2Proof.Machine

open Sys2Proof

/-! ### Domain commands (R546 to R549) -/

/-- Whether a domain is moved by DOMCMD (R546). -/
def domMoved (d : Nat) : Bool := decide (0x1A4 ≤ d) && decide (d ≤ 0x1AB)

/-- Whether a state may be a domain's target (R546). -/
def domTarget (d t : Nat) : Bool :=
  if d < 0x1A8 then true
  else if d < 0x1AA then t != 3
  else if d = 0x1AA then t != 1
  else t == 0 || t == 3

/-- Whether OWNMAP marks the unit of a domain (R501, R549). -/
def domOwned (s : State) (d : Nat) : Bool :=
  if d < 240 then ownStk s (d / 20)
  else if 0x100 ≤ d ∧ d < 0x10C then ownStk s (d - 0x100)
  else if 0x110 ≤ d ∧ d < 0x128 then ownStk s ((d - 0x110) / 2)
  else if 0x130 ≤ d ∧ d < 0x13C then ownStk s (d - 0x130)
  else if 0x180 ≤ d ∧ d < 0x1A0 then ownLg s (d - 0x180)
  else if 0x1A0 ≤ d ∧ d < 0x1A4 then ownOe s (d - 0x1A0)
  else if 0x1A4 ≤ d ∧ d < 0x1A8 then ownCiph s (d - 0x1A4)
  else if d = 0x1A8 then ownLadle s
  else if d = 0x1A9 then ownEth s
  else false

/-- Whether any share holds a session. -/
def sharesHoldSessions (s : State) : Bool := s.shares.any (fun p => p.2.nsess != 0 && shState s p.1 != 0)

/-- The moves R548 refuses. -/
def domForbidden (s : State) (d t : Nat) : Bool :=
  if d = 0x1A9 ∧ (t = 1 ∨ t = 2) then (List.range 16).any (fun n => rgF s .ethport n 16 16 == 1)
  else if d < 0x1A8 ∧ t = 3 then
    sharesHoldSessions s && (List.range 4).all (fun c => 0x1A4 + c == d || domState s (0x1A4 + c) == 3)
  else if d = 0x1AB ∧ t = 3 then rgF s .cascstat 0 63 60 / 2 ^ s.pkg % 2 * 2 ^ s.pkg != rgF s .cascstat 0 63 60
  else false

/-- DOMSTAT.STATUS set. -/
def setDomStat (s : State) (x : Nat) : State := setRgF s .domstat 0 7 0 x

/-- A GO of DOMCMD (R547, R549). -/
def domGo (s : State) (b : By) (d t : Nat) : State :=
  if rgF s .domstat 0 7 0 = 1 then setRgF s .domstat 0 16 16 1
  else
    let s := setRgF (setRgF s .domcmd 0 25 16 d) .domcmd 0 1 0 t
    if !(bySec b) ∧ domOwned s d then setDomStat (hlDenied s b deniedOwned (BitVec.ofNat 64 d)) deniedOwned
    else if !(domMoved d) then setDomStat s 0x10
    else if !(domTarget d t) ∨ domForbidden s d t then setDomStat s 0x11
    else if domState s d = t then setDomStat s 2
    else
      let s := setDomStat { s with pw := { s.pw with dom := some (d, t) } } 1
      if domState s d = 0 then setDom s d 4 else if domState s d = 5 then s else setDom s d 5

/-- DOMAIN_RUN (R547). -/
def execDomainRun (b : By) (d : BitVec 10) (s : State) : Host.Outcome State Fault Refusal := ok (domGo s b d.toNat 0)
/-- DOMAIN_HOLD (R547). -/
def execDomainHold (b : By) (d : BitVec 10) (s : State) : Host.Outcome State Fault Refusal := ok (domGo s b d.toNat 1)
/-- DOMAIN_BANK (R547). -/
def execDomainBank (b : By) (d : BitVec 10) (s : State) : Host.Outcome State Fault Refusal := ok (domGo s b d.toNat 2)
/-- DOMAIN_OFF (R547). -/
def execDomainOff (b : By) (d : BitVec 10) (s : State) : Host.Outcome State Fault Refusal := ok (domGo s b d.toNat 3)

/-- PKGSTAT.STATE: 0 POUR, 1 ARMED, 2 ENTERING, 3 WAKING, 4 BANK, 5 ANNEAL. -/
def pkgState (s : State) : Nat := rgF s .pkgstat 0 10 8

/-- Whether a domain has nothing in flight and owes nothing (R330 step 2). -/
def domQuiet (s : State) (d : Nat) : Bool :=
  (match domStop d with
   | some st => s.net.all (fun p => p.dst != st) && s.outst.all (fun o => o.stop != st)
   | none => true) &&
  (if d < 240 then true
   else if d < 0x1A8 then s.queues.all (fun q => qKind s q.1 != 2 ||
      (if pkgState s = 2 then q.2.items.isEmpty else q.2.items.all (fun i => i.phase != 1 || 0x1A4 + i.cluster != d)))
   else if d = 0x1A8 then s.queues.all (fun q => qKind s q.1 != 1 || q.2.items.isEmpty)
   else if d = 0x1A9 then s.queues.all (fun q => qKind s q.1 != 3 || q.2.items.isEmpty)
   else true)

/-- DOMAIN_POINT_OF_NO_RETURN (R330 steps 2 to 4, R549: the hub I/O cache gives up every line before it goes OFF). -/
def domPoint (s : State) (d : Nat) : State :=
  match domStop d with
  | none => s
  | some st =>
    if domState s d ≠ 4 ∨ ingress s st ≠ 1 ∨ !(domQuiet s d) then s
    else
      let s := if d = 0x1AA ∧ s.pw.dom = some (0x1AA, 3) then dropHolder s 0xF0 else s
      if d = 0x1AA ∧ s.pw.dom = some (0x1AA, 3) ∧ !(holderEmpty s 0xF0) then s else setIngress s st 2

/-- DOMAIN_POINT_OF_NO_RETURN. -/
def execDomainPointOfNoReturn (d : BitVec 10) (s : State) : Host.Outcome State Fault Refusal := ok (domPoint s d.toNat)

/-- A closing domain past its point of no return takes state t; a packet it holds wakes it on demand (R332). -/
def domArrive (s : State) (d t : Nat) : State :=
  match domStop d with
  | none => setDom s d t
  | some st => if ingress s st = 3 then setDom s d 5 else setDom s d t

/-- Whether a domain is past its point of no return. -/
def domClosed (s : State) (d : Nat) : Bool :=
  domState s d == 4 && (match domStop d with
    | some st => ingress s st != 1
    | none => true)

/-- DOMAIN_STATE_REACHED (R547): the target, or RUN on the way to it; of a core, its WAITST (R550); under a package entry, BANK (R553). -/
def domReached (s : State) (d : Nat) : State :=
  match s.pw.dom with
  | some (e, t) =>
    if e ≠ d then s
    else if domClosed s d then setDomStat { domArrive s d t with pw := { s.pw with dom := none } } 2
    else if domState s d = 5 then
      let s := match domStop d with
        | some st => ingressReopen s st
        | none => setDom s d 0
      if t = 0 then setDomStat { s with pw := { s.pw with dom := none } } 2 else setDom s d 4
    else s
  | none =>
    if d < 240 ∧ domClosed s d then domArrive s d (waitst s d)
    else if pkgState s = 2 ∧ domClosed s d then domArrive s d 2 else s

/-- DOMAIN_STATE_REACHED. -/
def execDomainStateReached (d : BitVec 10) (s : State) : Host.Outcome State Fault Refusal := ok (domReached s d.toNat)

/-! ### Package commands (R552, R553) -/

/-- PKGSTAT.STATE set; the time outside POUR is counted (R150). -/
def setPkgState (s : State) (x : Nat) : State :=
  let s := if x ≥ 3 then (if s.pw.outSince.isNone then { s with pw := { s.pw with outSince := some (now s) } } else s)
    else match s.pw.outSince with
      | some t => { s with pw := { s.pw with outSince := none, outTotal := s.pw.outTotal + (now s - t) } }
      | none => s
  setRgF s .pkgstat 0 10 8 x

/-- PKGSTAT.STATUS set. -/
def setPkgStatus (s : State) (x : Nat) : State := setRgF s .pkgstat 0 7 0 x

/-- A GO of PKGCMD (R552, R553). -/
def pkgGo (s : State) (b : By) (t : Nat) : State :=
  if pkgState s ≥ 2 then setRgF s .pkgstat 0 16 16 1
  else
    let s := setRgF s .pkgcmd 0 1 0 t
    if !(bySec b) ∧ rg s .ownmap 0 ≠ 0 then setPkgStatus (hlDenied s b deniedOwned (regPa 0xC0000)) deniedOwned
    else if t = 0 then (if pkgState s = 1 then setPkgStatus (setPkgState s 0) 3 else s)
    else if s.admitted.any (fun p => p != s.pkg) then setPkgStatus s 0x13
    else if t = 2 ∧ !(s.vstby) then setPkgStatus s 0x12
    else setPkgStatus (setPkgState { s with pw := { s.pw with target := t } } 1) 1

/-- PACKAGE_BANK (R553). -/
def execPackageBank (b : By) (s : State) : Host.Outcome State Fault Refusal := ok (pkgGo s b 1)
/-- PACKAGE_ANNEAL (R553). -/
def execPackageAnneal (b : By) (s : State) : Host.Outcome State Fault Refusal := ok (pkgGo s b 2)
/-- PACKAGE_DISARM (R553). -/
def execPackageDisarm (b : By) (s : State) : Host.Outcome State Fault Refusal := ok (pkgGo s b 0)

/-- The domains an entry takes out of RUN before the cores' own: lane groups, engines, clusters, Ladle, Ethernet, hub I/O cache, remote agent,
and what goes to BANK at the point of no return. -/
def entryDoms : List Nat := (List.range 0x2C).map (· + 0x180)

/-- The always-on logic that goes to BANK at the package point of no return. -/
def bankDoms : List Nat :=
  (List.range 12).map (· + 0x100) ++ (List.range 24).map (· + 0x110) ++ (List.range 12).map (· + 0x130) ++ [0x1AC, 0x1AD]

/-- The root ports by number. -/
def allPorts : List Nat := List.range 96

/-- PACKAGE_ENTERING (R553 steps 2 to 4): every present core that has not stopped is in BANK. -/
def pkgEntering (s : State) : State :=
  let cores := (List.range 216).filter (fun n => lcValid s n && !((getCore s (lcCore s n)).stopped))
  if pkgState s ≠ 1 ∨ !(cores.all (fun n => domState s (lcCore s n) == 2)) then s
  else
    let was := entryDoms.filter (fun d => domState s d == 0)
    let s := setPkgState { s with pw := { s.pw with wasRun := was, pme := [] } } 2
    let s := ((was.filter (fun d => decide (0x1A4 ≤ d) && decide (d ≤ 0x1A9))).foldl (fun s d => setDom s d 4) s)
    (allPorts.filter (fun i => (rport s i).st == 1)).foldl (fun s i => { s with pw := { s.pw with pme := tset none i (some (now s)) s.pw.pme } }) s

/-- PACKAGE_ENTERING. -/
def execPackageEntering (s : State) : Host.Outcome State Fault Refusal := ok (pkgEntering s)

/-- PME_TO_ACK (R553 step 4): the acknowledgement, or 10 ms without it; the port's link goes to L2. -/
def pmeAck (s : State) (i : Nat) : State :=
  match tget none i s.pw.pme with
  | none => s
  | some _ => setRport { s with pw := { s.pw with pme := tset none i none s.pw.pme } } i { rport s i with st := 0 }

/-- PME_TO_ACK. -/
def execPmeToAck (g : Fin 24) (k : Fin 4) (s : State) : Host.Outcome State Fault Refusal := ok (pmeAck s (4 * g.val + k.val))

/-- A lane group goes OFF for a package state (R553 step 4): LGCTL and PERST_N are kept. -/
def lgSleep (s : State) (g : Nat) : State :=
  let s := if rgF s .lgctl g 2 0 = 1 then
      (List.range 4).foldl (fun s k => setRport s (4 * g + k) { rport s (4 * g + k) with st := 0 }) s
    else lgLinksDown s g
  setDom (setLgState s g 0) (0x180 + g) 3

/-- An engine goes OFF with its groups: both slots dark (R411). -/
def engSleep (s : State) (e : Nat) : State :=
  let s := (List.range 2).foldl (fun s b => if slotSt s e b = 3 then setSlotSt s e b 2 else s) s
  setDom (setRgF s .oestat e 23 20 0) (0x1A0 + e) 3

/-- Every cache of the package gives up its lines (R553 step 5). -/
def allCachesOut (s : State) : State :=
  let s := dropHolder ((List.range 240).foldl dropHolder s) 0xF0
  (List.range 12).foldl (fun s h => l3Drop (l3Flush s h []) h) s

/-- Whether no holder has a line. -/
def cachesEmpty (s : State) : Bool := s.lines.all (fun p => p.2.st == .i || decide (p.1 / 2 ^ 46 > 0xF0))

/-- PACKAGE_POINT_OF_NO_RETURN (R553 steps 4 to 6). A Ladle, cipher or Ethernet domain that a packet has brought back to RUN (R331, R332)
closes again first. -/
def pkgPoint (s : State) : State :=
  let open_ := (List.range 6).filter (fun i => domState s (0x1A4 + i) == 0)
  if pkgState s = 2 ∧ !(open_.isEmpty) then open_.foldl (fun s i => setDom s (0x1A4 + i) 4) s
  else if pkgState s ≠ 2 ∨ s.pw.pme.any (fun p => p.2.isSome) ∨ ((List.range 6).any (fun i => domState s (0x1A4 + i) == 4)) ∨
      !(s.net.isEmpty) ∨ !(domQuiet s 0x1AA) ∨ !(domQuiet s 0x1AB) then s
  else
    let s := if s.pw.target = 2 then allCachesOut s else s
    if s.pw.target = 2 ∧ !(cachesEmpty s) then s
    else
      let s := (List.range 4).foldl engSleep ((List.range 32).foldl lgSleep s)
      let s := [0x1AA, 0x1AB].foldl (fun s d => if domState s d = 0 then setDom s d 2 else s) (bankDoms.foldl (fun s d => setDom s d 2) s)
      let s := (List.range 48).foldl (fun s n => if lsState s n = 7 then s else setLsState s n 0) s
      let s := if s.pw.target = 2 then setRg s .annstat 0 0 else s
      setPkgStatus (setPkgState { s with pw := { s.pw with sampleAt := now s, hotSens := [], refLost := false } } (3 + s.pw.target)) 2

/-- PACKAGE_POINT_OF_NO_RETURN. -/
def execPackagePointOfNoReturn (s : State) : Host.Outcome State Fault Refusal := ok (pkgPoint s)

/-! ### Wake sources (R554, R559, R563) -/

/-- The lowest source of a set. -/
def lowSource (seen : Nat) : Nat := ((List.range 8).find? (fun k => seen.testBit k)).getD 0

/-- LASTWAKE and LASTWAKET written, source 926 raised. -/
def writeLastWake (s : State) (seen detail from_ fail step at_ : Nat) : State :=
  let v := lowSource seen * 2 ^ 56 + seen * 2 ^ 48 + from_ * 2 ^ 46 + fail * 2 ^ 45 + step * 2 ^ 42 + detail * 2 ^ 32
  setRg (setRg s .lastwake 0 (BitVec.ofNat 64 v)) .lastwaket 0 (BitVec.ofNat 64 at_)

/-- A lane group trains again under its personality, PERST_N as it stood (R554, R558). -/
def lgWake (s : State) (g : Nat) : State :=
  if rgF s .lgctl g 2 0 = 0 then s
  else
    let x := lgrp s g
    let s := { lgTrain s g with lgs := tset {} g { x with persAt := now s } s.lgs }
    if g ≥ 24 then lgRefresh (engFollow s (engOf g)) g else s

/-- An entry is aborted by a wake event (R554): what left RUN returns to it, the lane groups retrain; the cores stay in BANK. -/
def abortEntry (s : State) (src detail : Nat) : State :=
  let entered := pkgState s == 2
  let s := if entered then
      let s := (s.pw.wasRun.filter (fun d => decide (d ≥ 0x1A4) && domState s d != 0)).foldl (fun s d =>
        match domStop d with
        | some st => ingressReopen (setDom s d 5) st
        | none => setDom s d 0) s
      (List.range 24).foldl (fun s g => if (List.range 4).any (fun k => (rport s (4 * g + k)).st == 0) then lgWake s g else s)
        { s with pw := { s.pw with pme := [] } }
    else s
  raiseSrc (writeLastWake (setPkgStatus (setPkgState s 0) 3) (2 ^ src) detail 3 0 0 (now s)) 926

/-- Wake sources that fire within 40 ns of the one that aborted an entry are of the same check (R563): LASTWAKE shows them too. -/
def joinAbort (s : State) (seen detail : Nat) : State :=
  let v := rg s .lastwake 0
  if fld v 47 46 = 3 ∧ now s ≤ (rg s .lastwaket 0).toNat + 40 then
    let old := fld v 55 48
    writeLastWake s (old ||| seen) (if lowSource seen < lowSource old then detail else fld v 41 32) 3 0 0 (rg s .lastwaket 0).toNat
  else s

/-- Wake sources fire (R554, R556, R563): in BANK and ANNEAL the wake starts; within 40 ns they join its check; between steps 1 and 6 of an entry
they abort it. -/
def wakeFires (s : State) (seen detail : Nat) : State :=
  let p := pkgState s
  if seen = 0 then s
  else if p = 4 ∨ p = 5 then
    setPkgState { s with pw := { s.pw with wake := some {
        step := 1, since := now s, seen := seen, detail := detail, from_ := p - 3, at_ := now s } } } 3
  else if p = 3 then
    match s.pw.wake with
    | some w =>
      if now s ≤ w.at_ + 40 then
        { s with pw := { s.pw with wake := some { w with
            seen := w.seen ||| seen
            detail := if lowSource seen < lowSource w.seen then detail else w.detail } } }
      else s
    | none => s
  else if p = 1 ∨ p = 2 then abortEntry s (lowSource seen) detail
  else joinAbort s seen detail

/-- An event source enabled by a bit of WAKECTL fires. -/
def wakeEvent (s : State) (en src detail : Nat) : State := if bit (rg s .wakectl 0) en then wakeFires s (2 ^ src) detail else s

/-- WAKE_N_ASSERT (R404, R559). -/
def execWakeNAssert (g : Fin 24) (s : State) : Host.Outcome State Fault Refusal := ok (wakeEvent s (40 + g.val) 1 g.val)

/-- WAKE_TIMER (R559). -/
def execWakeTimer (s : State) : Host.Outcome State Fault Refusal :=
  ok (if now s ≥ (rg s .waketime 0).toNat then wakeEvent s 3 4 0 else s)

/-- WAKE_REF_PERIOD (R555). -/
def execWakeRefPeriod (s : State) : Host.Outcome State Fault Refusal :=
  ok (if wakeKeepsTime s then { s with ptime := s.ptime + 40, pw := { s.pw with refLost := false } } else s)

/-- REFERENCE_LOST (R555). -/
def execReferenceLost (s : State) : Host.Outcome State Fault Refusal :=
  ok (if wakeKeepsTime s then { s with tbMode := 0, pw := { s.pw with refLost := true } } else s)

/-! ### The trip (R561, R567) -/

/-- The pin THERMTRIP_N (R42): low from a thermal trip to the next cold reset. -/
def thermtripN (s : State) : Bool := !s.pw.tripped

/-- A thermal trip (R567): recorded, everything outside the witness island is lost, and the package stays in COLD. -/
def tripAt (s : State) (dom : Nat) : State :=
  let s := incRgF (coldState (hlDevice s 0x0032 0 dom 0)) .life1 0 15 0
  { s with resetN := false, pw := { s.pw with tripped := true } }

/-- The sensors at or above the trip level in one reading: two successive readings of one sensor trip the package. -/
def tripReading (s : State) (hot : List Nat) : State :=
  match hot.find? (fun x => s.pw.hotSens.contains x) with
  | some x => tripAt s (x / 8)
  | none => { s with pw := { s.pw with hotSens := hot } }

/-- PCAPCTL.ALERT in quarters of a degree. -/
def alertQ (s : State) : Int := 4 * (rgF s .pcapctl 0 23 16 : Int)

/-- STACK_MAX of a stack against ALERT (R564): a crossing raises the thermal alert. -/
def judgeHot (s : State) (n : Nat) : State :=
  let x := stkOf s n
  let h := decide (toSigned 16 x.tmax ≥ alertQ s)
  if h = x.hot then s else raiseSrc (setStk s n { x with hot := h }) (32 * n + 6)

/-- SENSOR_READ (R564, R567); a trip acts during a wake as well, when domains are powered (R45). -/
def sensorRead (s : State) (tmax : List (BitVec 16)) (hot : List (BitVec 13)) : State :=
  if pkgState s ≥ 4 ∨ s.pw.tripped then s
  else
    let s := (List.range 12).foldl (fun s n =>
      judgeHot (setStk s n { stkOf s n with tmax := ((tmax[n]?).map (·.toNat)).getD (stkOf s n).tmax }) n) s
    tripReading s (hot.map (·.toNat))

/-- SENSOR_READ. -/
def execSensorRead (tmax : List (BitVec 16)) (hot : List (BitVec 13)) (s : State) : Host.Outcome State Fault Refusal :=
  ok (sensorRead s tmax hot)

/-- BANK_TRIP_READING (R559, R561). -/
def execBankTripReading (hot : List (BitVec 13)) (s : State) : Host.Outcome State Fault Refusal :=
  ok (if (pkgState s = 4 ∨ pkgState s = 3) ∧ now s ≥ s.pw.sampleAt + 10000000 then
      tripReading { s with pw := { s.pw with sampleAt := now s } } (hot.map (·.toNat))
    else s)

/-- The sources a sample makes fire (R560), as LASTWAKE.SEEN. -/
def sampleSeen (s : State) (i : SampleIn) : Nat :=
  let c := rg s .wakectl 0
  let a := rg s .annctl 0
  (if bit c 4 ∧ toSigned 8 i.temp.toNat ≥ (fld a 39 32 : Int) then 2 ^ 5 else 0) +
  (if bit c 5 ∧ (i.vin.toNat < fld a 51 40 ∨ i.vin.toNat > fld a 63 52) then 2 ^ 6 else 0) +
  (if (List.range 32).any (fun g => bit c (8 + g) && i.sig.getLsbD g) then 2 ^ 7 else 0)

/-- The detail of a sample's lowest source: the sensor's domain, or the lowest group that receives a signal. -/
def sampleDetail (s : State) (i : SampleIn) : Nat :=
  let k := lowSource (sampleSeen s i)
  if k = 5 then i.dom.toNat
  else if k = 7 then ((List.range 32).find? (fun g => bit (rg s .wakectl 0) (8 + g) && i.sig.getLsbD g)).getD 0
  else 0

/-- ANNEAL_SAMPLE (R560, R561). -/
def annealSample (s : State) (i : SampleIn) : State :=
  if pkgState s ≠ 5 ∨ now s < s.pw.sampleAt + rgF s .annctl 0 13 0 * 1000000 then s
  else
    let s := incRgF (setRgF (setRgF s .annstat 0 31 24 i.temp.toNat) .annstat 0 23 12 i.vin.toNat) .annstat 0 63 32
    let s := tripReading { s with pw := { s.pw with sampleAt := now s } } (i.hot.map (·.toNat))
    if s.pw.tripped then s else wakeFires s (sampleSeen s i) (sampleDetail s i)

/-- ANNEAL_SAMPLE. -/
def execAnnealSample (i : SampleIn) (s : State) : Host.Outcome State Fault Refusal := ok (annealSample s i)

/-- VSTBY_FAIL (R562, R609). -/
def execVstbyFail (s : State) : Host.Outcome State Fault Refusal :=
  let s := { s with vstby := false }
  ok (if pkgState s = 5 then setPkgState s 4 else s)

/-! ### The ordered wake (R556 to R558) -/

/-- The wake goes on to a step. -/
def wakeStep (s : State) (n : Nat) (act : State → State) : State :=
  match s.pw.wake with
  | some w => if w.step + 1 = n then act { s with pw := { s.pw with wake := some { w with step := n, since := now s, again := false } } } else s
  | none => s

/-- WAKE_REGULATORS (R556 step 1): every regulator is in regulation. -/
def execWakeRegulators (s : State) : Host.Outcome State Fault Refusal := ok (wakeStep s 2 (fun s => s))

/-- WAKE_TIME_BASE (R556 step 2): the time base is locked and has PTIME back. -/
def execWakeTimeBase (s : State) : Host.Outcome State Fault Refusal :=
  ok (wakeStep s 3 (fun s => if s.tbMode = 0 then raiseSrc { s with tbMode := 1 } 925 else s))

/-- WAKE_MEMORY (R556 step 3): every memory controller is in service; the Sprue links of step 4 begin to train. -/
def execWakeMemory (s : State) : Host.Outcome State Fault Refusal :=
  ok (wakeStep s 4 (fun s => (List.range 48).foldl (fun s n => if lsState s n = 0 ∧ !(stkFenced s (if n < 36 then n / 3 else n - 36)) then beginTrain s n else s) s))

/-- Whether every spoke link, and every rim link between stacks not fenced whose segment is in use, is ACTIVE. -/
def linksUp (s : State) : Bool :=
  (liveStks s).all (fun n => spokeUp s n &&
    (stkFenced s ((n + 1) % 12) || segState s n != 0 || (lsState s (3 * n) == 5 && lsState s (3 * ((n + 1) % 12) + 1) == 5)))

/-- WAKE_RESTORE (R556 step 4, R558). -/
def wakeRestore (s : State) : State :=
  match s.pw.wake with
  | none => s
  | some w =>
    if w.step ≠ 4 ∨ !(linksUp s) then s
    else
      let s := bankDoms.foldl (fun s d => setDom s d 0) s
      let s := (s.pw.wasRun.filter (fun d => decide (d ≥ 0x1A4))).foldl (fun s d => setDom s d 0) s
      let s := setPkgState { s with pw := { s.pw with wake := none, wasRun := [] } } 0
      let s := raiseSrc (writeLastWake s w.seen w.detail w.from_ 0 0 w.at_) 926
      (List.range 32).foldl lgWake s

/-- WAKE_RESTORE. -/
def execWakeRestore (s : State) : Host.Outcome State Fault Refusal := ok (wakeRestore s)

/-- The limit of a wake step in ticks (R556). -/
def wakeLimit (n : Nat) : Nat := if n = 1 then 50000 else if n = 2 then 20000 else if n = 3 then 32000 else 30000

/-- WAKE_STEP_LATE (R557): the step is repeated once; then the wake fails into a warm package reset. -/
def wakeLate (s : State) : State :=
  match s.pw.wake with
  | none => s
  | some w =>
    if now s < w.since + wakeLimit w.step then s
    else if !w.again then { s with pw := { s.pw with wake := some { w with again := true, since := now s } } }
    else
      let s := writeLastWake (setPkgState { s with pw := { s.pw with wake := none } } 0) w.seen w.detail w.from_ 1 w.step w.at_
      rstStart (hlDevice s 0x0033 0 w.step 0) .warm 3

/-- WAKE_STEP_LATE. -/
def execWakeStepLate (s : State) : Host.Outcome State Fault Refusal := ok (wakeLate s)

/-! ### Thermal and power loops (R564 to R566) -/

/-- THERMAL_LOOP_TICK (R564): a 10 us interval lowers the stack's ceiling, a 100 us interval (slow) raises it. -/
def thermalTick (s : State) (n : Nat) (slow : Bool) : State :=
  let x := stkOf s n
  let t := toSigned 16 x.tmax
  if slow then
    if now s < x.highAt + 100000 ∨ t > alertQ s - 12 then s
    else reVolt (setStk s n { x with stkCeil := min 950 (x.stkCeil + 5), highAt := now s }) n
  else
    if now s < x.lowAt + 10000 ∨ t < alertQ s then s
    else reVolt (setStk s n { x with stkCeil := max 650 (x.stkCeil - 5), lowAt := now s }) n

/-- THERMAL_LOOP_TICK. -/
def execThermalLoopTick (n : StackId) (slow : Bool) (s : State) : Host.Outcome State Fault Refusal := ok (thermalTick s n.val slow)

/-- PKGCEIL changes (R565): source 918 when it first leaves 950 mV and when it returns there. -/
def setPkgCeil (s : State) (x : Nat) : State :=
  let old := rgF s .pcapstat 0 63 52
  let s := setRgF s .pcapstat 0 63 52 x
  reVoltAll (if (old = 950) = (x = 950) then s else raiseSrc s 918)

/-- POWER_LOOP_TICK (R565): the average power, and the step of a 10 us or 100 us (slow) interval. -/
def powerTick (s : State) (w : Nat) (slow : Bool) : State :=
  let s := setRgF s .pcapstat 0 47 32 w
  let lim := rgF s .pcapctl 0 15 0
  let c := rgF s .pcapstat 0 63 52
  if slow then
    if now s < s.pw.highAt + 100000 ∨ 100 * w > 98 * lim then s
    else setPkgCeil { s with pw := { s.pw with highAt := now s } } (min 950 (c + 5))
  else
    if now s < s.pw.lowAt + 10000 ∨ w ≤ lim then s
    else setPkgCeil { s with pw := { s.pw with lowAt := now s } } (max 650 (c - 5))

/-- POWER_LOOP_TICK. -/
def execPowerLoopTick (w : BitVec 16) (slow : Bool) (s : State) : Host.Outcome State Fault Refusal := ok (powerTick s w.toNat slow)

/-- A write of PCAPCTL (R13, R564). -/
def pcapctlWrite (s : State) (v : Word) : State :=
  let old := rg s .pcapctl 0
  (List.range 12).foldl judgeHot (setRg s .pcapctl 0 (writeFields (regFields .pcapctl) (bit old 32) old v))

/-- PCAPCTL_WRITE (R564). -/
def execPcapctlWrite (_b : By) (v : Word) (s : State) : Host.Outcome State Fault Refusal := ok (pcapctlWrite s v)

end Sys2Proof.Machine
end

