-- ==== Sys2Proof/Machine/Security.lean ====
section
/-! DEFINITION. Worlds, monitor and debug (chapter 15): OWNMAP and filter locks, DBGAUTH, the debug access port on cores and memory,
and the TAP. Its operations on set-up registers are in RegBus.lean. -/
namespace Sys2Proof.Machine

open Sys2Proof

/-! ### Ownership and filters (R494, R502) -/

/-- A write of OWNMAP (R502): every write is recorded; only a secure-world one has effect. -/
def ownmapWrite (s : State) (b : By) (v : Word) : State :=
  let old := rg s .ownmap 0
  let s := hlWorldCfg s b 0x60000 old v
  if bySec b then setRg s .ownmap 0 (v &&& 0xFFFFFFFFFFC00FFF) else s

/-- OWNMAP_WRITE (R502). -/
def execOwnmapWrite (b : By) (v : Word) (s : State) : Host.Outcome State Fault Refusal := ok (ownmapWrite s b v)

/-- WFCTL of home h, or of the hub for 12. -/
def wfctlOf (h : Nat) : RegName × Nat := if h < 12 then (.wfctl, h) else (.hubWfctl, 0)

/-- The offset of WFCTL in the local window. -/
def wfctlOff (h : Nat) : Nat := if h < 12 then 0x1000600000 + h * 0x100000000 else 0x60008

/-- A write of WFCTL (R494, R502): a write of 1 to LOCK is recorded; only a secure-world one has effect,
and a normal-world write to an owned stack's is refused as well (R503). -/
def wfctlWrite (s : State) (b : By) (h : Nat) (v : Word) : State :=
  let (r, i) := wfctlOf h
  let s := if bit v 0 then hlWorldCfg s b (wfctlOff h) (rg s r i) v else s
  if bySec b then (if bit v 0 then setRgF s r i 0 0 1 else s)
  else ownWrite s b (decide (h < 12) && ownStk s h) (wfctlOff h) s

/-- WFCTL_LOCK (R502): 1 is written to LOCK of a home's filter, or of the hub's for 12. -/
def execWfctlLock (b : By) (h : Fin 13) (s : State) : Host.Outcome State Fault Refusal := ok (wfctlWrite s b h.val 1)

/-- DBGAUTH_WRITE (R499, R508): a SYSWR to DBGAUTH. -/
def execDbgauthWrite (c : CoreId) (rt : BitVec 5) (s : State) : Host.Outcome State Fault Refusal :=
  ok (runInstr s c.val (bodySyswr c.val ⟨rt, 0x581⟩))

/-! ### The debug access port (R511 to R514) -/

/-- An operation of the port ends: its code and data. -/
def dapEnd (s : State) (code : Nat) (data : Word) : State := { s with dapStatus := code, dapData := data }

/-- An operation is denied and recorded (R511). -/
def dapDenied (s : State) (w : Bool) (what : Word) : State := dapEnd (hlDenied s (.dap w) 0x30 what) 0x30 0

/-- An operation as the port's queue knows it: without what its accesses meet. -/
def dapKey (op : DapOp) : DapOp :=
  match op with
  | .memRead w k dw _ _ => .memRead w k dw {} ⟨0, 0, false⟩
  | .memWrite w k dw v _ _ => .memWrite w k dw v {} ⟨0, 0, false⟩
  | op => op

/-- An operation in the port's one queue (R511), from the Ihlell link or JTAG: it runs when none is before it, and stays at the front while
a home has not answered it; behind another it waits to be given again; a queue of 16 turns it away with DAP_BUSY. -/
def dapGate (ihl : Bool) (op : DapOp) (waits : Bool) (run : State → State) (s : State) : State :=
  let k := (ihl, dapKey op)
  match s.dapWait with
  | [] =>
    let u := run s
    if waits then { u with dapWait := [k] } else u
  | h :: t =>
    if h = k then
      let u := run s
      if waits then u else { u with dapWait := t }
    else if (h :: t).contains k then s
    else if (h :: t).length ≥ 16 then dapEnd s 0x33 0
    else { s with dapWait := h :: t ++ [k] }

/-- Whether an operation given now ends now: it runs without having to wait, or is turned away (R511). -/
def dapEnds (ihl : Bool) (op : DapOp) (waits : Bool) (s : State) : Bool :=
  match s.dapWait with
  | [] => !waits
  | h :: t => if h = (ihl, dapKey op) then !waits else !((h :: t).contains (ihl, dapKey op)) && decide ((h :: t).length ≥ 16)

/-- The physical core of logical core n, when it has one (R24). -/
def dapCore (s : State) (n : Nat) : Option Nat :=
  if bit (rg s .lcmap n) 15 then some (rgF s .lcmap n 11 8 * 20 + rgF s .lcmap n 4 0) else none

/-- HALT of a logical core (R513, R514). A vacant number ends in error (log entry 31). -/
def dapHalt (s : State) (n : Nat) : State :=
  match dapCore s n with
  | none => dapEnd s 0x32 0
  | some c => dapEnd (if (getCore s c).halted then s else setCore s c { getCore s c with haltPend := true }) 0 0

/-- RESUME of a logical core (R513, R514): it goes on at its PC, and a pending halt is cleared. -/
def dapResume (s : State) (n : Nat) : State :=
  match dapCore s n with
  | none => dapEnd s 0x32 0
  | some c => dapEnd (setCore s c { getCore s c with halted := false, haltPend := false, stepping := false }) 0 0

/-- STEP of a halted logical core (R513): it goes on for one instruction. -/
def dapStep (s : State) (n : Nat) : State :=
  match dapCore s n with
  | none => dapEnd s 0x32 0
  | some c =>
    let k := getCore s c
    if !k.halted then dapEnd s 0x31 0
    else dapEnd (setCore s c { k with halted := false, haltPend := false, stepping := true }) 0 0

/-- DAP_HALT. -/
def execDapHalt (n : LogCore) (s : State) : Host.Outcome State Fault Refusal := ok (dapGate false (.halt n) false (dapHalt · n.val) s)
/-- DAP_RESUME. -/
def execDapResume (n : LogCore) (s : State) : Host.Outcome State Fault Refusal := ok (dapGate false (.resume n) false (dapResume · n.val) s)
/-- DAP_STEP. -/
def execDapStep (n : LogCore) (s : State) : Host.Outcome State Fault Refusal := ok (dapGate false (.step n) false (dapStep · n.val) s)

/-- CORE_HALT (R513): a pending halt is taken at a boundary; WAIT ends for it. -/
def coreHalt (s : State) (c : Nat) : State :=
  let s := endWait s c
  if canTake s c && dueHalt s c then
    let s := setCore s c { getCore s c with halted := true, haltPend := false, stepping := false }
    sysSet s c 0xA21 false (setFld (sysGet s c 0xA21 false) 1 0 1)
  else s

/-- CORE_HALT. -/
def execCoreHalt (c : CoreId) (s : State) : Host.Outcome State Fault Refusal := ok (coreHalt s c.val)

/-- The world of the copy of a register that the port names: the named world's of a banked register, else the core's own. -/
def dapRegWorld (s : State) (c : Nat) (r : DapReg) : Bool :=
  match r with
  | .sys n w => if sysBanked c n.toNat then w else secOf (getCore s c)
  | _ => secOf (getCore s c)

/-- A register of a halted core as the port reads it; none where there is no such register. A4 to A14 and A15 as the core's current
level sees them. -/
def dapRegGet (s : State) (c : Nat) (r : DapReg) : Option Word :=
  match r with
  | .pc => some (getCore s c).pc
  | .d n => some (dGet s c n.toNat)
  | .a n => some (aGet s c n.toNat)
  | .q n part => some ((qGet s c n.toNat).extractLsb' (64 * part.toNat) 64)
  | .sys n w =>
    match sysInfoOf c n.toNat with
    | none => none
    | some _ => some (if sysBanked c n.toNat then sysGet s c n.toNat w else (sysRead s c n.toNat).1)

/-- n bits at a place of a number replaced. -/
def setBits (x lo n v : Nat) : Nat := x % 2 ^ lo + v % 2 ^ n * 2 ^ lo + x / 2 ^ (lo + n) * 2 ^ (lo + n)

/-- A register of a halted core as the port writes it. -/
def dapRegSet (s : State) (c : Nat) (r : DapReg) (v : Word) : Option State :=
  match r with
  | .pc => some (setCore s c { getCore s c with pc := pcWord v })
  | .d n => some (dSet s c n.toNat v)
  | .a n => some (aSet s c n.toNat v)
  | .q n part =>
    some (qSet s c n.toNat (BitVec.ofNat 256 (setBits (qGet s c n.toNat).toNat (64 * part.toNat) 64 v.toNat)))
  | .sys n w =>
    match sysInfoOf c n.toNat with
    | none => none
    | some i =>
      if sysBanked c n.toNat then some (sysWrite s c n.toNat w (writeFields i.fields false (sysGet s c n.toNat w) v))
      else some (sysWriteEff s c n.toNat false v)

/-- DAP_CORE_REG_READ (R511). -/
def dapCoreRead (s : State) (n : Nat) (r : DapReg) : State :=
  match dapCore s n with
  | none => dapEnd s 0x32 0
  | some c =>
    if !(getCore s c).halted then dapEnd s 0x31 0
    else if !(nonInvasive s (dapRegWorld s c r)) then dapDenied s (dapRegWorld s c r) 0
    else
      match dapRegGet s c r with
      | some v => dapEnd s 0 v
      | none => dapEnd s 0x32 0

/-- DAP_CORE_REG_WRITE (R511). -/
def dapCoreWrite (s : State) (n : Nat) (r : DapReg) (v : Word) : State :=
  match dapCore s n with
  | none => dapEnd s 0x32 0
  | some c =>
    if !(getCore s c).halted then dapEnd s 0x31 0
    else if !(invasive s (dapRegWorld s c r)) then dapDenied s (dapRegWorld s c r) 0
    else
      match dapRegSet s c r v with
      | some s => dapEnd s 0 0
      | none => dapEnd s 0x32 0

/-- DAP_CORE_REG_READ. -/
def execDapCoreRegRead (n : LogCore) (r : DapReg) (s : State) : Host.Outcome State Fault Refusal :=
  ok (dapGate false (.regRead n r) false (dapCoreRead · n.val r) s)
/-- DAP_CORE_REG_WRITE. -/
def execDapCoreRegWrite (n : LogCore) (r : DapReg) (v : Word) (s : State) : Host.Outcome State Fault Refusal :=
  ok (dapGate false (.regWrite n r v) false (dapCoreWrite · n.val r v) s)

/-- How the port reaches memory (R512): PARTID 0, the named world and KEYID, from the hub register agent's stop (log entry 31). -/
def dapReq (w : Bool) (keyid : Nat) : HubReq := ⟨⟨12, 21⟩, w, 0, keyid, false⟩

/-- A line as the port reads it: memory by RDC (R512), anything else as any hub agent. -/
def dapRead (s : State) (r : HubReq) (pa : Nat) (f : Findings) (a : DevAns) : HubRes × LineData × State :=
  if isLocalMem s pa || isRemoteMem s pa then hubAccess s (hubPacket .rdc r (pa / 64 * 64)) f else hubRead s r pa f a

/-- 8 bytes as the port writes them: memory by WRC (R512), anything else as any hub agent. -/
def dapWrite (s : State) (r : HubReq) (pa : Nat) (v : Word) (f : Findings) (a : DevAns) : HubRes × State :=
  let mask := byteMask (pa % 64) 8
  let d := linePut 0 (pa % 64) 8 v.toNat
  if isLocalMem s pa || isRemoteMem s pa then
    let x := hubAccess s { hubPacket .wrc r (pa / 64 * 64) with mask := mask, data := d } f
    (x.1, x.2.2)
  else hubWrite s r pa mask d f a

/-- A secure-owned KEYID named in the normal world (R511). -/
def dapKeyDenied (s : State) (w : Bool) (keyid : Nat) : Bool := !w && (tget {} keyid s.keys).sown

/-- DAP_MEM_READ (R511, R512): the 8 bytes of doubleword dw. -/
def dapMemRead (s : State) (w : Bool) (keyid dw : Nat) (f : Findings) (a : DevAns) : State :=
  if !(nonInvasive s w) ∨ dapKeyDenied s w keyid then dapDenied s w (BitVec.ofNat 64 (dw * 8))
  else
    match dapRead s (dapReq w keyid) (dw * 8) f a with
    | (.ok, d, s) => dapEnd (hubEnd s) 0 (BitVec.ofNat 64 (lineGet d (dw * 8 % 64) 8))
    | (.err, _, s) => dapEnd (hubEnd s) 0x32 0
    | (.wait, _, s') => hubEnd (hubPause s s')

/-- DAP_MEM_WRITE (R511, R512). -/
def dapMemWrite (s : State) (w : Bool) (keyid dw : Nat) (v : Word) (f : Findings) (a : DevAns) : State :=
  if !(invasive s w) ∨ dapKeyDenied s w keyid then dapDenied s w (BitVec.ofNat 64 (dw * 8))
  else
    match dapWrite s (dapReq w keyid) (dw * 8) v f a with
    | (.ok, s) => dapEnd (hubEnd s) 0 0
    | (.err, s) => dapEnd (hubEnd s) 0x32 0
    | (.wait, s') => hubEnd (hubPause s s')

/-- Whether an operation has to wait for a home's answer. -/
def dapWaits (s : State) (op : DapOp) : Bool :=
  match op with
  | .memRead w k dw f a =>
    nonInvasive s w && !(dapKeyDenied s w k.toNat) && (dapRead s (dapReq w k.toNat) (dw.toNat * 8) f a).1 == .wait
  | .memWrite w k dw v f a =>
    invasive s w && !(dapKeyDenied s w k.toNat) && (dapWrite s (dapReq w k.toNat) (dw.toNat * 8) v f a).1 == .wait
  | _ => false

/-- DAP_MEM_READ. -/
def execDapMemRead (w : Bool) (keyid : BitVec 11) (dw : BitVec 49) (f : Findings) (a : DevAns) (s : State) :
    Host.Outcome State Fault Refusal :=
  ok (dapGate false (.memRead w keyid dw f a) (dapWaits s (.memRead w keyid dw f a)) (dapMemRead · w keyid.toNat dw.toNat f a) s)
/-- DAP_MEM_WRITE. -/
def execDapMemWrite (w : Bool) (keyid : BitVec 11) (dw : BitVec 49) (v : Word) (f : Findings) (a : DevAns) (s : State) :
    Host.Outcome State Fault Refusal :=
  ok (dapGate false (.memWrite w keyid dw v f a) (dapWaits s (.memWrite w keyid dw v f a)) (dapMemWrite · w keyid.toNat dw.toNat v f a) s)

/-! ### The TAP (R510) -/

/-- IDCODE: [31:28] the version and [11:1] the manufacturer, which the spec does not give, [27:12] 0x1224, [0] 1. -/
def idcode : Word :=
  BitVec.ofNat 64 (Config.tapVersion.toNat * 2 ^ 28 + 0x1224 * 2 ^ 12 + Config.tapManufacturer.toNat * 2 + 1)

/-- Data pass through the one-bit bypass register. -/
def tapBypass (s : State) (ir : Nat) (tdi : Bool) : State :=
  { s with tapIr := ir, tapOut := BitVec.ofNat 64 s.tapBit.toNat, tapBit := tdi }

/-- TAP_IDCODE. -/
def execTapIdcode (s : State) : Host.Outcome State Fault Refusal := ok { s with tapIr := 0x01, tapOut := idcode }

/-- TAP_SAMPLE_PRELOAD: while RESET_N is low the boundary cells take what is shifted in, and what the pins held, a free value, is
shifted out; else it acts as BYPASS. -/
def execTapSamplePreload (cells : List Bool) (s : State) : Host.Outcome State Fault Refusal :=
  ok (if s.resetN then tapBypass s 0x02 (cells.getLastD s.tapBit)
      else
        let (w, s) := freeWord s
        { s with tapIr := 0x02, tapCells := cells, tapOut := w })

/-- TAP_EXTEST: while RESET_N is low the cells drive the pins and take what is shifted in; else it acts as BYPASS. -/
def execTapExtest (cells : List Bool) (s : State) : Host.Outcome State Fault Refusal :=
  ok (if s.resetN then tapBypass s 0x00 (cells.getLastD s.tapBit)
      else
        let (w, s) := freeWord s
        { s with tapIr := 0x00, tapDrive := s.tapCells, tapCells := cells, tapOut := w })

/-- Whether an instruction register value acts as BYPASS now. -/
def isBypass (s : State) (ir : Nat) : Bool :=
  ir != 0x01 && ir != 0x20 && (s.resetN || (ir != 0x02 && ir != 0x00))

/-- TAP_BYPASS: BYPASS, or an instruction that acts as it. -/
def execTapBypass (ir : BitVec 8) (tdi : Bool) (s : State) : Host.Outcome State Fault Refusal :=
  ok (if isBypass s ir.toNat then tapBypass s ir.toNat tdi else s)

end Sys2Proof.Machine
end

