-- ==== Sys2Proof/Machine/RegBus.lean ====
section
/-! DEFINITION. The register window (chapters 00, 21): what a read or write of each set-up register does, and the accesses that reach it:
DEV_RD and DEV_WR (R221, R227), the debug access port (R511), the management processor's window (R595). -/
namespace Sys2Proof.Machine

open Sys2Proof

/-! ### Who owns a register's unit -/

/-- The engine whose OECMD lies in a lane group's block. -/
def oeOfGroup (g : Nat) : Nat := (g - 24) / 2

/-- Whether the offset lies in the blocks of a unit OWNMAP marks (R503). -/
def regOwned (s : State) (off : Nat) : Bool :=
  if 0x1000000000 ≤ off ∧ off < 0x1C00000000 then ownStk s ((off - 0x1000000000) / 0x100000000)
  else if 0x2000000000 ≤ off ∧ off < 0x2020000000 then
    (let g := (off - 0x2000000000) / 0x1000000
     if 0x300000 ≤ off % 0x1000000 ∧ 24 ≤ g then ownOe s (oeOfGroup g) else ownLg s g)
  else if 0x2000000 ≤ off ∧ off < 0x2100000 then ownEth s
  else false

/-- Whether an offset lies in the blocks of a fenced stack, which answer under R320 (R641). -/
def offFenced (s : State) (off : Nat) : Bool :=
  decide (0x1000000000 ≤ off) && decide (off < 0x1C00000000) && stkFenced s ((off - 0x1000000000) / 0x100000000)

/-! ### Reads -/

/-- The bits of a register that read as they are: all but those of WO fields and of no field (R11). -/
def readMask (v : Word) (fs : List FieldDef) : Word :=
  fs.foldl (fun a f => if f.ty = .wo then a else setFld a f.hi f.lo (fld v f.hi f.lo)) 0

/-- What a register holds for a read: live values are computed (chapters 07, 13, 18, 19). -/
def regLive (s : State) (r : RegName) (i : Nat) : Word :=
  match r with
  | .hlstat => BitVec.ofNat 64 (s.hlog.head % 2 ^ 48 * 2 ^ 16 + s.hlog.pend.length % 256 * 256 + (hlAppends s).toNat * 2)
  | .poolfree0 => poolfree0 s
  | .poolfree1 => poolfree1 s
  | .svcreq => setFld (rg s .svcreq 0) 7 0 (svcCause s)
  | .svcdetail0 => svcdetail0 s
  | .svcdetail1 => svcdetail1 s
  | .svcdetail2 => svcdetail2 s
  | .l3lfsr => BitVec.ofNat 64 (l3LfsrOf s (i / 8) (i % 8))
  | _ => readMask (rg s r i) (regFields r)

/-- Whether a reader in this world sees the register as 0 (R14, R268, R494, R519). -/
def readsZero (s : State) (r : RegName) (i : Nat) (sec : Bool) : Bool :=
  !sec && (match r with
    | .rmbase | .rmlimit | .rmcmd | .rmstat => i == 1
    | .intsrc => bit (rg s .intsrc i) 31
    | .msictl => vecSec s i
    | .ownmap | .hubWfctl | .hubWfbase | .hubWflim | .wfctl | .wfbase | .wflim => true
    | _ => false)

/-- A read of 8 aligned bytes of the register window (R10, R28, R640): none is a bus error. -/
def regRead (s : State) (b : By) (off : Nat) : Option Word :=
  if off % 8 ≠ 0 ∨ !(inBlock off) ∨ offFenced s off then none
  else
    match regFind off with
    | none => some 0
    | some (.msiaddr, _) => none
    | some (r, i) => some (if readsZero s r i (bySec b) then 0 else regLive s r i)

/-! ### Writes -/

/-- Whether the lock bit of the register itself is set (R11). -/
def lockedBit (v : Word) (fs : List FieldDef) : Bool := fs.any (fun f => f.ty == .rw1s && fld v f.hi f.lo != 0)

/-- A write to a register without behaviour of its own: each field by its access type (R11, R13). -/
def plainWrite (s : State) (r : RegName) (i : Nat) (lock : Bool) (v : Word) : State :=
  let old := rg s r i
  setRg s r i (writeFields (regFields r) (lock || lockedBit old (regFields r)) old v)

/-- A write of RSTCMD (R624, R644). -/
def rstcmdWrite (s : State) (b : By) (v : Word) : State :=
  if bit v 8 then rstGo s b (fld v 3 0) (fld v 23 16) else plainWrite s .rstcmd 0 false v

/-- A write of KEYCMD (R389, R644); whether the entropy source is healthy is free here (KEY_GENERATE names it). -/
def keycmdWrite (s : State) (b : By) (v : Word) : State :=
  if bit v 0 then
    let (x, s) := freeWord s
    keyGo s b (fld v 9 8) (fld v 26 16) (bit v 12) (bit x 0)
  else plainWrite s .keycmd 0 false v

/-- A write of a filter's WFBASE or WFLIM (R494): the secure world's alone, until WFCTL.LOCK. -/
def filterWrite (s : State) (b : By) (r : RegName) (i h : Nat) (v : Word) : State :=
  if bySec b then plainWrite s r i (rgF s (wfctlOf h).1 (wfctlOf h).2 0 0 == 1) v else s

/-- A write of a range unit's registers (R268, R270). -/
def rangeWrite (s : State) (b : By) (r : RegName) (u : Nat) (v : Word) : State :=
  if u = 1 ∧ !(bySec b) then s
  else if r = .rmcmd ∧ bit v 8 then rangeGo s b u (fld v 1 0) (bit v 4)
  else if r ≠ .rmstat ∧ rgF s .rmstat u 7 0 = 1 then setRgF s .rmstat u 8 8 1
  else plainWrite s r u false v

/-- A write of a log's status register (R579). -/
def logWrite (s : State) (b : By) (d : Nat) (ev : Bool) (v : Word) : State := if bit v 8 then logclrWrite s b d ev else s

/-- A write of PKGCMD (R553, R644). -/
def pkgcmdWrite (s : State) (b : By) (v : Word) : State :=
  if !(bit v 8) then plainWrite s .pkgcmd 0 false v
  else if fld v 1 0 = 3 then (if pkgState s ≥ 2 then setRgF s .pkgstat 0 16 16 1 else setPkgStatus s 0x11)
  else pkgGo s b (fld v 1 0)

/-- A write of DOMCMD (R547). -/
def domcmdWrite (s : State) (b : By) (v : Word) : State :=
  if bit v 8 then domGo s b (fld v 25 16) (fld v 1 0) else plainWrite s .domcmd 0 false v

/-- A write of CPWRn (R549): the core's stack says who owns it. -/
def cpwrWrite (s : State) (b : By) (n : Nat) (v : Word) : State :=
  let owned := bit (rg s .lcmap n) 15 && ownStk s (rgF s .lcmap n 11 8)
  ownWrite s b owned (0xC0000 + (((regBase .cpwr).getD 0xC0000) - 0xC0000) + n * 8) (plainWrite s .cpwr n false v)

/-- A write of CIPHCTL or CTXBASE (R490): refused while a share holds a session. -/
def ciphWrite (s : State) (r : RegName) (v : Word) : State :=
  if sharesHoldSessions s then setRgF s .ciphstat 0 8 8 1
  else plainWrite s r 0 (rgF s .ciphctl 0 32 32 == 1) v

/-- A write of MPWDT (R605): KICK is the management processor's. -/
def mpwdtWrite (s : State) (b : By) (v : Word) : State :=
  let s := plainWrite s .mpwdt 0 false v
  if bit v 17 then wdKick s b else s

/-- A write of SHCMD (R449, R644). -/
def shcmdWrite (s : State) (b : By) (v : Word) : State :=
  if bit v 8 then shcmdGo s b (fld v 3 0) v else plainWrite s .shcmd 0 false v

/-- A write of OECMD (R417 to R422, R644). What RELEASE writes of the light it has seen is free here (RELEASE_SLOT names it). -/
def oecmdWrite (s : State) (b : By) (e : Nat) (v : Word) : State :=
  let x := fld v 4 4
  if !(bit v 8) then ownWrite s b (ownOe s e) (lgOffset (engGroup e) 0x300000) (plainWrite s .oecmd e false v)
  else
    match fld v 1 0 with
    | 0 => goHandover s b e x
    | 1 =>
      let (w, s) := freeWord s
      goRelease s b e x ⟨0, fld w 31 0, BitVec.ofNat 16 (fld w 47 32), BitVec.ofNat 16 (fld w 63 48)⟩
    | 2 => goCheck s b e x
    | _ => goBadOp s b e x

/-- A write of QCFG (R429, R430). -/
def qcfgWrite (s : State) (q : Nat) (v : Word) : State :=
  if bit v 0 then queueEnable s q v
  else if rgF s .qcfg q 0 0 = 1 then queueDisable s q
  else plainWrite s .qcfg q false v

/-- A write of SQBASE or CQBASE, ignored while EN is 1; of QIRQ, whose VEC is kept then (R429). -/
def queueRegWrite (s : State) (r : RegName) (q : Nat) (v : Word) : State :=
  if rgF s .qcfg q 0 0 = 0 then plainWrite s r q false v
  else if r = .qirq then plainWrite s r q false (setFld v 14 0 (rgF s .qirq q 14 0))
  else s

/-- A write of 8 bytes at register r, index i, whose unit the writer may write: the field types' behaviour (R11), or the register's own. -/
def regAct (s : State) (b : By) (r : RegName) (i : Nat) (v : Word) : State :=
  match r with
  | .rstcmd => rstcmdWrite s b v
  | .keycmd => keycmdWrite s b v
  | .keydata => setRg s .keydata i v
  | .cxlwbase => if rgF s .cxlwbase i 0 0 = 1 then s else plainWrite s r i false v
  | .cxlwctl => if rgF s .cxlwbase i 0 0 = 1 then s else plainWrite s r i false v
  | .ownmap => ownmapWrite s b v
  | .hubWfctl => wfctlWrite s b 12 v
  | .hubWfbase => filterWrite s b r i 12 v
  | .hubWflim => filterWrite s b r i 12 v
  | .wfctl => wfctlWrite s b i v
  | .wfbase => filterWrite s b r i (i / 32) v
  | .wflim => filterWrite s b r i (i / 32) v
  | .hubFstop => fstopWrite s b ⟨12, i⟩ v
  | .fstop => fstopWrite s b ⟨i / 32, i % 32⟩ v
  | .hubLinkctl => linkctlWrite s b (36 + i) v
  | .linkctl => linkctlWrite s b i v
  | .rimctl => mpWrite s b false 0 (rimWrite s i (bit v 0))
  | .rmbase => rangeWrite s b r i v
  | .rmlimit => rangeWrite s b r i v
  | .rmcmd => rangeWrite s b r i v
  | .rmstat => rangeWrite s b r i v
  | .hubCelogstat => logWrite s b 12 false v
  | .hubEvlogstat => logWrite s b 12 true v
  | .celogstat => logWrite s b i false v
  | .evlogstat => logWrite s b i true v
  | .pkgcmd => pkgcmdWrite s b v
  | .pcapctl => pcapctlWrite s v
  | .domcmd => domcmdWrite s b v
  | .cpwr => cpwrWrite s b i v
  | .ciphctl => ciphWrite s r v
  | .ctxbase => ciphWrite s r v
  | .mpwdt => mpwdtWrite s b v
  | .mbpost => mbPost s b i (fld v 51 6) {}
  | .hlsubmit => hlSubmit s b (fld v 51 6) {}
  | .shcmd => shcmdWrite s b v
  | .intsrc => intCfgWrite s (bySec b) i v
  | .msictl => intCfgWrite s (bySec b) (0x8000 + i) v
  | .ethport => ethportWrite s b i v
  | .vreq => vreqWrite s b i v
  | .l3ctl => l3ctlBy s b i v
  | .pmask => pmaskWrite s b (i / 16) (i % 16) v
  | .mcctl => mcctlWrite s i v
  | .mcscrub => plainWrite s r i (rgF s .mcctl i 32 32 == 1) v
  | .lgctl => lgctlWrite s b i v
  | .palctl => palctlWrite s b i (bit v 1) (bit v 0)
  | .oecmd => oecmdWrite s b i v
  | .sqdb => sqdbWrite s i (fld v 15 0)
  | .cqdb => cqdbWrite s i (fld v 15 0)
  | .qcfg => qcfgWrite s i v
  | .sqbase => queueRegWrite s r i v
  | .cqbase => queueRegWrite s r i v
  | .qirq => queueRegWrite s r i v
  | _ => plainWrite s r i false v

/-- Whether a register answers a refused write in its own way (R147, R420), or is the management processor's (R506). -/
def ownRefusal (b : By) (r : RegName) : Bool :=
  r == .vreq || r == .oecmd || r == .wfctl || r == .ethport || r == .celogstat || r == .evlogstat || r == .l3ctl || r == .pmask ||
  (b == .mp && (r == .fstop || r == .rimctl || r == .linkctl || r == .lgctl || r == .palctl))

/-- A write of 8 aligned bytes to the register window (R10, R28, R503, R640): none is a bus error. -/
def regWrite (s : State) (b : By) (off : Nat) (v : Word) : Option State :=
  if off % 8 ≠ 0 ∨ !(inBlock off) ∨ offFenced s off then none
  else
    match regFind off with
    | none => some s
    | some (.msiaddr, _) => none
    | some (r, i) =>
      some (if ownRefusal b r then regAct s b r i v else ownWrite s b (regOwned s off) off (regAct s b r i v))

/-- REGISTER_WRITE (R11): an aligned write of 8 bytes at an offset of the local window, by the agent named; its answer goes nowhere. -/
def execRegisterWrite (b : By) (off : BitVec 40) (v : Word) (s : State) : Host.Outcome State Fault Refusal :=
  ok ((regWrite s b off.toNat v).getD s)

/-! ### DEV accesses that arrive (R221, R227, R237, R495) -/

/-- Who a DEV access of the register window is for: the core or management processor of its source stop, here or in another package. -/
def devBy (p : Packet) : By :=
  let c := coreOfStop (if p.holder ≥ 0xF8 ∧ p.holder < 0xFC then p.req else p.src)
  if h : c < 240 then .core ⟨c, h⟩ p.world else if c = mpCore then .mp else .dap p.world

/-- A DEV access of the register window (R10); a write whose data unit is poisoned ends in error and writes nothing (log entry 84). -/
def devReg (s : State) (p : Packet) (off : Nat) : State :=
  if p.size ≠ 3 ∨ p.addr % 8 ≠ 0 ∨ p.poison = true then devComplete s p false 0
  else if p.cmd = .devRd then
    (match regRead s (devBy p) off with
     | some v => devComplete s p true v
     | none => devComplete s p false 0)
  else
    (match regWrite s (devBy p) off (p.data.extractLsb' 0 64) with
     | some s => devComplete s p true 0
     | none => devComplete s p false 0)

/-- A DEV access of the PCIe and CXL.io slot or the low device window: the hub's filter, then configuration space or the root port that
claims it (R400, R403, R495). -/
def devSlot (s : State) (p : Packet) (cfg : Bool) (off : Nat) (a : DevAns) : State :=
  if !(worldAllows s p.world p.addr ⟨p.cmd == .devRd, p.cmd == .devWr⟩) then devComplete s p false 0
  else if cfg then ecamAccess s p off a
  else portDev s p a

/-- A DEV access reaches where it completes. One for another package goes on over the cascade, or ends in error when that package is
absent (R28). -/
def devArrive (s : State) (p : Packet) (a : DevAns) : State :=
  if stopDead s p.dst then fencedPacket s p
  else
    let away (k : Nat) : State :=
      if s.admitted.contains k then { s with net := p :: s.net } else devComplete s p false 0
    match paKind s p.addr with
    | .regWin k off => if k = s.pkg then devReg s p off else away k
    | .pcie k off => if k = s.pkg then devSlot s p (decide (off < 0x10000000)) off a else away k
    | .lowDev _ => if s.pkg = 0 then devSlot s p false 0 a else away 0
    | _ => devComplete s p false 0

/-- The DEV access of a stop in flight under a transaction ID arrives. -/
def devTake (s : State) (c : Cmd) (src : StopId) (tx : Nat) (a : DevAns) : State :=
  match takePacket (fun p => p.cmd == c && p.src == src && p.txid == tx) s with
  | some (p, s) =>
    match meetIngress s p with
    | (true, s) => devArrive s p a
    | (false, s) => s
  | none => s

/-- DEV_RD (R221, R227). -/
def execDevRd (src : StopId) (txid : BitVec 16) (a : DevAns) (s : State) : Host.Outcome State Fault Refusal :=
  ok (devTake s .devRd src txid.toNat a)

/-- DEV_WR (R221, R227, R237). -/
def execDevWr (src : StopId) (txid : BitVec 16) (a : DevAns) (s : State) : Host.Outcome State Fault Refusal :=
  ok (devTake s .devWr src txid.toNat a)

/-! ### The debug access port on set-up registers (R511) -/

/-- The debug access port reads a set-up register: the non-invasive enable of the world named, then as any read. -/
def dapSetupRead (s : State) (w : Bool) (off : Nat) : State :=
  if !(nonInvasive s w) then dapDenied s w (regPa off)
  else
    match regRead s (.dap w) off with
    | some v => dapEnd s 0 v
    | none => dapEnd s 0x32 0

/-- The debug access port writes a set-up register: the invasive enable of the world named, then as any write. -/
def dapSetupWrite (s : State) (w : Bool) (off : Nat) (v : Word) : State :=
  if !(invasive s w) then dapDenied s w (regPa off)
  else
    match regWrite s (.dap w) off v with
    | some s => dapEnd s 0 0
    | none => dapEnd s 0x32 0

/-- DAP_SETUP_READ (R511). -/
def execDapSetupRead (w : Bool) (off : BitVec 40) (s : State) : Host.Outcome State Fault Refusal :=
  ok (dapGate false (.setupRead w off) false (dapSetupRead · w off.toNat) s)

/-- DAP_SETUP_WRITE (R511). -/
def execDapSetupWrite (w : Bool) (off : BitVec 40) (v : Word) (s : State) : Host.Outcome State Fault Refusal :=
  ok (dapGate false (.setupWrite w off v) false (dapSetupWrite · w off.toNat v) s)

/-! ### The management processor's window (R594, R595) -/

/-- What a window access answers. -/
def winEnd (s : State) (x : Option Word) : State := { s with mp := { s.mp with winAns := x } }

/-- The 8-byte access of a half goes to another package's window (R29, R304): a read, or a write of v. Its answer comes as a message. -/
def winSend (s : State) (pa : Nat) (v : Option Word) : State :=
  let (tx, s) := newTxid s
  let cmd : Cmd := if v.isSome then .devWr else .devRd
  let s := send s {
    cmd := cmd, src := coreStop mpCore, dst := ⟨12, 22⟩, txid := tx, world := true, addr := pa, size := 3,
    holder := 0xFE, dpkg := pkgOfPa s pa, data := BitVec.ofNat 512 (v.getD 0).toNat }
  let s := addOutst s { stop := coreStop mpCore, txid := tx, cmd := cmd, addr := pa, since := now s }
  { s with mp := { s.mp with winTx := some (pa, tx) } }

/-- A 4-byte access of the management processor to a set-up register through its window (R595): a low-half read reads the register, a
high-half read returns the rest of it; a low-half write is held until the high half comes. The register may be another package's (R29).
Anything else is a bus error. One such access is under way at a time. -/
def windowHalf (s : State) (a : Nat) (w : Option (BitVec 32)) : State :=
  let pa := s.mpwin * 0x80000000 + (a - 0x80000000)
  match (if a < 0x80000000 ∨ a % 4 ≠ 0 then .unmapped else paKind s pa), w with
  | .regWin k off, none =>
    if k ≠ s.pkg ∧ !(s.admitted.contains k) then winEnd s none
    else if pa % 8 = 0 then
      if k ≠ s.pkg then winSend s pa none
      else
      (match regRead s .mp off with
       | some v => winEnd { s with mpRead := some (pa, v) } (some (BitVec.ofNat 64 (fld v 31 0)))
       | none => winEnd { s with mpRead := none } none)
    else
      (match s.mpRead with
       | some (q, v) => if q + 4 = pa then winEnd { s with mpRead := none } (some (BitVec.ofNat 64 (fld v 63 32))) else winEnd s none
       | none => winEnd s none)
  | .regWin k off, some x =>
    if k ≠ s.pkg ∧ !(s.admitted.contains k) then winEnd s none
    else if pa % 8 = 0 then winEnd { s with mpHeld := some (pa, x.toNat) } (some 0)
    else
      (match s.mpHeld with
       | some (q, lo) =>
         if q + 4 = pa then
           if k ≠ s.pkg then winSend { s with mpHeld := none } q (some (BitVec.ofNat 64 (lo + x.toNat * 2 ^ 32)))
           else
           (match regWrite { s with mpHeld := none } .mp (off - 4) (BitVec.ofNat 64 (lo + x.toNat * 2 ^ 32)) with
            | some s => winEnd s (some 0)
            | none => winEnd { s with mpHeld := none } none)
         else winEnd s none
       | none => winEnd s none)
  | _, _ => winEnd s none

/-- WINDOW_HALF_ACCESS (R595). -/
def execWindowHalfAccess (a : BitVec 32) (w : Option (BitVec 32)) (s : State) : Host.Outcome State Fault Refusal :=
  ok (if s.mp.winTx.isSome then s else windowHalf s a.toNat w)

/-! ### CXL.mem (R395) -/

/-- CXL_COMPLETION_TIMEOUT (R395): the request in flight of that stop for a line of a CXL window ends in error at its requester; no poison
is written. -/
def execCxlCompletionTimeout (src : StopId) (txid : BitVec 16) (s : State) : Host.Outcome State Fault Refusal :=
  ok (match takePacket (fun p => p.src == src && p.txid == txid.toNat && cmdCode p.cmd < 0x10 && (cxlWindow s p.addr).isSome) s with
    | some (p, s) => send s { p with cmd := .errRsp, src := p.dst, dst := p.src, cls := .h, data := 0, mask := 0, at_ := none }
    | none => s)

end Sys2Proof.Machine
end

