-- ==== Sys2Proof/Machine/Ihlell.lean ====
section
/-! DEFINITION. The Ihlell link (R612 to R614, R651): its frames' CRC, which frames are answered, and each command. The answer of the
last frame is in `mp.ihlAns` (none: not answered); WAKE_MBOX and BOOT_IMAGE act for the address of all packages too. -/
namespace Sys2Proof.Machine

open Sys2Proof

/-! ### Frames -/

/-- What the link answers: CMD with bit 7 set, the TAG, the status and what follows it; none is silence. -/
def ihlAnswer (s : State) (a : Option (Nat × Nat × List Byte)) : State := { s with mp := { s.mp with ihlAns := a } }

/-- An answer to a command. -/
def ihlEnd (s : State) (cmd tag : Nat) (status : Nat) (rest : List Byte) : State :=
  ihlAnswer s (some (cmd + 0x80, tag, BitVec.ofNat 8 status :: rest))

/-- Whether an address names this package (R612). -/
def ihlOurs (s : State) (a : Nat) : Bool := a == 0x10 + s.pkg

/-- A valid frame to this package or to all of them is a wake source (R614). -/
def ihlActivity (s : State) : State := wakeEvent s 1 2 0

/-- The package answers commands that need VIN_MAIN (R651), unless its hub die is fenced (R634). -/
def ihlServes (s : State) : Bool := s.rs.boot != 3

/-- A frame with a command reaches the package: `light` commands work on the phantom supply and with the hub die fenced; `toAll` says that
the command also acts on a frame to all packages, unanswered. -/
def ihlCmd (s : State) (a tag cmd : Nat) (light toAll : Bool) (act : State → State) : State :=
  if ihlOurs s a then
    let s := ihlActivity s
    if light then act s
    else if !(ihlServes s) then ihlAnswer s none
    else if s.vin then act s
    else ihlEnd s cmd tag 3 []
  else if a = 0x1F then
    let s := ihlActivity s
    ihlAnswer (if toAll && ihlServes s && s.vin then act s else s) none
  else ihlAnswer s none

/-- The CRC-16 of a frame's bytes (R612, R340). -/
def ihlCrc (bs : List Byte) : Nat :=
  (bs.foldl (fun c b => (List.range 8).foldl (fun c i => crcBit c (b.getLsbD i)) c) (0xFFFF : BitVec 16)).toNat

/-! ### Identity, status, life -/

/-- IDENT: PKGID, STRAPSTAT, whether the package is phantom-powered. -/
def ihlIdentAct (tag : Nat) (s : State) : State :=
  ihlEnd s 0x01 tag 0 (bytesLE 8 (regLive s .pkgid 0).toNat ++ bytesLE 8 (regLive s .strapstat 0).toNat ++
    [if !s.vin && !s.vstby then 1 else 0])

/-- IHL_IDENT (R613, R651). -/
def execIhlIdent (a tag : BitVec 8) (s : State) : Host.Outcome State Fault Refusal :=
  ok (ihlCmd s a.toNat tag.toNat 0x01 true false (ihlIdentAct tag.toNat))

/-- STATUS: SVCREQ, PKGSTAT, LASTWAKE, which read 0 without VIN_MAIN, and the level of THERMTRIP_N. -/
def ihlStatusAct (tag : Nat) (s : State) : State :=
  let w (r : RegName) : List Byte := bytesLE 8 (if s.vin then (regLive s r 0).toNat else 0)
  ihlEnd s 0x02 tag 0 (w .svcreq ++ w .pkgstat ++ w .lastwake ++ [if s.pw.tripped then 0 else 1])

/-- IHL_STATUS (R613, R651). -/
def execIhlStatus (a tag : BitVec 8) (s : State) : Host.Outcome State Fault Refusal :=
  ok (ihlCmd s a.toNat tag.toNat 0x02 true false (ihlStatusAct tag.toNat))

/-- LIFE_READ: LIFE0 and LIFE1. -/
def lifeReadAct (tag : Nat) (s : State) : State :=
  ihlEnd s 0x18 tag 0 (bytesLE 8 (rg s .life0 0).toNat ++ bytesLE 8 (rg s .life1 0).toNat)

/-- LIFE_READ (R613, R651). -/
def execLifeRead (a tag : BitVec 8) (s : State) : Host.Outcome State Fault Refusal :=
  ok (ihlCmd s a.toNat tag.toNat 0x18 true false (lifeReadAct tag.toNat))

/-! ### Wake mailbox -/

/-- WAKE_MBOX: the word goes to WAKEMBOX, and the wake mailbox fires (R559). -/
def wakeMboxAct (tag : Nat) (w : Nat) (s : State) : State :=
  ihlEnd (wakeEvent (setRgF s .wakembox 0 31 0 w) 2 3 0) 0x03 tag 0 []

/-- WAKE_MBOX (R651). -/
def execWakeMbox (a tag : BitVec 8) (w : BitVec 32) (s : State) : Host.Outcome State Fault Refusal :=
  ok (ihlCmd s a.toNat tag.toNat 0x03 false true (wakeMboxAct tag.toNat w.toNat))

/-! ### The heat log -/

/-- Whether record SEQ is held (R614). -/
def hlHeld (s : State) (seq : Nat) : Bool := decide (s.hlog.head ≤ seq + 32767) && decide (seq ≤ s.hlog.head)

/-- HL_HEAD: the newest SEQ, C(head), and their CMAC with the nonce. -/
def hlHeadAct (tag : Nat) (nonce : Word) (s : State) : State :=
  let x := bytesLE 6 s.hlog.head ++ hlChain s
  ihlEnd s 0x10 tag 0 (x ++ cmacWhole hlKeyBytes (bytesLE 8 nonce.toNat ++ x))

/-- HL_HEAD (R614, R651). -/
def execHlHead (a tag : BitVec 8) (nonce : Word) (s : State) : Host.Outcome State Fault Refusal :=
  ok (ihlCmd s a.toNat tag.toNat 0x10 true false (hlHeadAct tag.toNat nonce))

/-- HL_READ: one or two records. -/
def hlReadAct (tag seq count pad : Nat) (s : State) : State :=
  if count = 0 ∨ 2 < count ∨ pad ≠ 0 then ihlEnd s 0x11 tag 0x11 []
  else if !(hlHeld s seq) then ihlEnd s 0x11 tag 5 []
  else ihlEnd s 0x11 tag 0 (hlAt s seq ++ (if count = 2 ∧ hlHeld s (seq + 1) then hlAt s (seq + 1) else []))

/-- HL_READ (R614, R651). -/
def execHlRead (a tag : BitVec 8) (seq : BitVec 48) (count zero : BitVec 8) (s : State) : Host.Outcome State Fault Refusal :=
  ok (ihlCmd s a.toNat tag.toNat 0x11 true false (hlReadAct tag.toNat seq.toNat count.toNat zero.toNat))

/-- Records from SEQ on checked against the chain value before the first: the first from `from_` on whose TAG fails, or the chain value
after the last. -/
def hlCheck (s : State) (from_ : Nat) : Nat → Nat → List Byte → Sum Nat (List Byte)
  | 0, _, c => .inr c
  | n + 1, seq, c =>
    let r := hlAt s seq
    if from_ ≤ seq ∧ (cmacWhole hlKeyBytes (c ++ r.take 56)).take 8 ≠ r.drop 56 then .inl seq
    else hlCheck s from_ n (seq + 1) (chainNext c r)

/-- HL_VERIFY: TAGs and chain values from first to last. While the ring still holds the genesis record the chain is computed from C(-1);
later the values before the ring are gone, and every record of it was appended with its TAG and chain value (DEDUCED, log entry 38). -/
def hlVerifyAct (tag first last : Nat) (s : State) : State :=
  if last < first then ihlEnd s 0x12 tag 0x11 []
  else if !(hlHeld s first) || !(hlHeld s last) then ihlEnd s 0x12 tag 5 []
  else if 32767 < s.hlog.head then ihlEnd s 0x12 tag 0 [0]
  else
    match hlCheck s first (last + 1) 0 zero32 with
    | .inl seq => ihlEnd s 0x12 tag 0 (bytesLE 6 seq)
    | .inr c => ihlEnd s 0x12 tag 0 (if last = s.hlog.head ∧ c ≠ hlChain s then bytesLE 6 last else [0])

/-- HL_VERIFY (R614, R651). -/
def execHlVerify (a tag : BitVec 8) (first last : BitVec 48) (s : State) : Host.Outcome State Fault Refusal :=
  ok (ihlCmd s a.toNat tag.toNat 0x12 true false (hlVerifyAct tag.toNat first.toNat last.toNat))

/-! ### Mailbox, debug access port, boot image -/

/-- MAILBOX: a full queue answers BUSY with the block as R601 writes it; an accepted request is answered at its end (R602, R614). -/
def ihlMailboxAct (tag : Nat) (blk : LineData) (s : State) : State :=
  let full := decide (64 ≤ (mbQ s 3).length)
  let (d, s) := mbEnter s 3 ⟨blk, 0, tag, 0⟩
  if full then ihlEnd s 0x20 tag 4 (lineBytes d) else ihlAnswer s none

/-- IHL_MAILBOX (R601, R614). -/
def execIhlMailbox (a tag : BitVec 8) (blk : LineData) (s : State) : Host.Outcome State Fault Refusal :=
  ok (ihlCmd s a.toNat tag.toNat 0x20 false false (ihlMailboxAct tag.toNat blk))

/-- One operation of the debug access port (R511). -/
def dapRun (s : State) (op : DapOp) : State :=
  match op with
  | .halt n => dapHalt s n.val
  | .resume n => dapResume s n.val
  | .step n => dapStep s n.val
  | .regRead n r => dapCoreRead s n.val r
  | .regWrite n r v => dapCoreWrite s n.val r v
  | .memRead w k dw f a => dapMemRead s w k.toNat dw.toNat f a
  | .memWrite w k dw v f a => dapMemWrite s w k.toNat dw.toNat v f a
  | .setupRead w off => dapSetupRead s w off.toNat
  | .setupWrite w off v => dapSetupWrite s w off.toNat v

/-- DAP: the operation runs in its turn, and its code and data are the answer; one that waits is not answered yet. -/
def ihlDapAct (tag : Nat) (op : DapOp) (s : State) : State :=
  let u := dapGate true op (dapWaits s op) (dapRun · op) s
  if !(dapEnds true op (dapWaits s op) s) then ihlAnswer u none
  else ihlEnd u 0x30 tag 0 (BitVec.ofNat 8 u.dapStatus :: bytesLE 8 u.dapData.toNat)

/-- IHL_DAP (R511, R651). -/
def execIhlDap (a tag : BitVec 8) (op : DapOp) (s : State) : Host.Outcome State Fault Refusal :=
  ok (ihlCmd s a.toNat tag.toNat 0x30 false false (ihlDapAct tag.toNat op))

/-- BOOT_IMAGE: up to 128 bytes of the image at an offset (R597, R651). -/
def bootImageAct (tag off : Nat) (bs : List Byte) (s : State) : State :=
  if 128 < bs.length then ihlEnd s 0x40 tag 0x11 []
  else ihlEnd { s with mp := { s.mp with img := memPut s.mp.img off bs.length (ofBytesLE bs) } } 0x40 tag 0 []

/-- BOOT_IMAGE (R651). -/
def execBootImage (a tag : BitVec 8) (off : BitVec 32) (bytes : List Byte) (s : State) : Host.Outcome State Fault Refusal :=
  ok (ihlCmd s a.toNat tag.toNat 0x40 false true (bootImageAct tag.toNat off.toNat bytes))

/-! ### Frames that no command's row takes -/

/-- A valid frame's command and payload. The layout of a DAP payload is not given: IHL_DAP carries those operations. -/
def ihlPayload (s : State) (a cmd tag : Nat) (p : List Byte) : State :=
  let n (off len : Nat) : Nat := ofBytesLE ((p.drop off).take len)
  let bad (light : Bool) : State := ihlCmd s a tag cmd light false (fun s => ihlEnd s cmd tag 0x11 [])
  match cmd with
  | 0x01 => if p.isEmpty then ihlCmd s a tag cmd true false (ihlIdentAct tag) else bad true
  | 0x02 => if p.isEmpty then ihlCmd s a tag cmd true false (ihlStatusAct tag) else bad true
  | 0x03 => if p.length = 4 then ihlCmd s a tag cmd false true (wakeMboxAct tag (n 0 4)) else bad false
  | 0x10 => if p.length = 8 then ihlCmd s a tag cmd true false (hlHeadAct tag (BitVec.ofNat 64 (n 0 8))) else bad true
  | 0x11 => if p.length = 8 then ihlCmd s a tag cmd true false (hlReadAct tag (n 0 6) (n 6 1) (n 7 1)) else bad true
  | 0x12 => if p.length = 12 then ihlCmd s a tag cmd true false (hlVerifyAct tag (n 0 6) (n 6 6)) else bad true
  | 0x18 => if p.isEmpty then ihlCmd s a tag cmd true false (lifeReadAct tag) else bad true
  | 0x20 => if p.length = 64 then ihlCmd s a tag cmd false false (ihlMailboxAct tag (BitVec.ofNat 512 (n 0 64))) else bad false
  | 0x30 => ihlCmd s a tag cmd false false (fun s => ihlAnswer s none)
  | 0x40 => if 4 ≤ p.length then ihlCmd s a tag cmd false true (bootImageAct tag (n 0 4) (p.drop 4)) else bad false
  | _ => ihlCmd s a tag cmd true false (fun s => if ihlServes s then ihlEnd s cmd tag 0x10 [] else ihlAnswer s none)

/-- A frame from ADDR to its CRC: one of a wrong length, or that fails its CRC, is as if it had not come (R612, R613). -/
def ihlFrame (s : State) (f : List Byte) : State :=
  let body := f.take (f.length - 2)
  let crc := ofBytesLE (f.drop (f.length - 2))
  match body with
  | a :: cmd :: tag :: len :: p =>
    if p.length = len.toNat ∧ p.length ≤ 136 ∧ ihlCrc body = crc then ihlPayload s a.toNat cmd.toNat tag.toNat p
    else ihlAnswer s none
  | _ => ihlAnswer s none

/-- IHL_INVALID_FRAME (R613): a frame as it comes off the wire, most often one that is not answered. -/
def execIhlInvalidFrame (frame : List Byte) (s : State) : Host.Outcome State Fault Refusal := ok (ihlFrame s frame)

end Sys2Proof.Machine
end

