-- ==== Sys2Proof/Machine/Dispatch.lean ====
section
/-! DEFINITION. One arm for each command: its meaning. -/
namespace Sys2Proof.Machine

open Sys2Proof

/-- The effect of a command on everything but the queue. -/
def exec (i : Instr) (s : State) : Host.Outcome State Fault Refusal :=
  match i with
  | .add c o => Sys2Proof.Machine.execAdd c o s
  | .sub c o => Sys2Proof.Machine.execSub c o s
  | .and c o => Sys2Proof.Machine.execAnd c o s
  | .or c o => Sys2Proof.Machine.execOr c o s
  | .xor c o => Sys2Proof.Machine.execXor c o s
  | .andn c o => Sys2Proof.Machine.execAndn c o s
  | .sll c o => Sys2Proof.Machine.execSll c o s
  | .srl c o => Sys2Proof.Machine.execSrl c o s
  | .sra c o => Sys2Proof.Machine.execSra c o s
  | .ror c o => Sys2Proof.Machine.execRor c o s
  | .sextB c o => Sys2Proof.Machine.execSextB c o s
  | .sextH c o => Sys2Proof.Machine.execSextH c o s
  | .sextW c o => Sys2Proof.Machine.execSextW c o s
  | .zextW c o => Sys2Proof.Machine.execZextW c o s
  | .clz c o => Sys2Proof.Machine.execClz c o s
  | .ctz c o => Sys2Proof.Machine.execCtz c o s
  | .bswap c o => Sys2Proof.Machine.execBswap c o s
  | .min c o => Sys2Proof.Machine.execMin c o s
  | .max c o => Sys2Proof.Machine.execMax c o s
  | .minu c o => Sys2Proof.Machine.execMinu c o s
  | .maxu c o => Sys2Proof.Machine.execMaxu c o s
  | .mul c o => Sys2Proof.Machine.execMul c o s
  | .mulh c o => Sys2Proof.Machine.execMulh c o s
  | .mulhu c o => Sys2Proof.Machine.execMulhu c o s
  | .div c o => Sys2Proof.Machine.execDiv c o s
  | .divu c o => Sys2Proof.Machine.execDivu c o s
  | .rem c o => Sys2Proof.Machine.execRem c o s
  | .remu c o => Sys2Proof.Machine.execRemu c o s
  | .cmpEq c o => Sys2Proof.Machine.execCmpEq c o s
  | .cmpNe c o => Sys2Proof.Machine.execCmpNe c o s
  | .cmpLt c o => Sys2Proof.Machine.execCmpLt c o s
  | .cmpLtu c o => Sys2Proof.Machine.execCmpLtu c o s
  | .cmpGe c o => Sys2Proof.Machine.execCmpGe c o s
  | .cmpGeu c o => Sys2Proof.Machine.execCmpGeu c o s
  | .addi c o => Sys2Proof.Machine.execAddi c o s
  | .andi c o => Sys2Proof.Machine.execAndi c o s
  | .ori c o => Sys2Proof.Machine.execOri c o s
  | .xori c o => Sys2Proof.Machine.execXori c o s
  | .slli c o => Sys2Proof.Machine.execSlli c o s
  | .srli c o => Sys2Proof.Machine.execSrli c o s
  | .srai c o => Sys2Proof.Machine.execSrai c o s
  | .rori c o => Sys2Proof.Machine.execRori c o s
  | .cmpiEq c o => Sys2Proof.Machine.execCmpiEq c o s
  | .cmpiLt c o => Sys2Proof.Machine.execCmpiLt c o s
  | .cmpiLtu c o => Sys2Proof.Machine.execCmpiLtu c o s
  | .movi c o => Sys2Proof.Machine.execMovi c o s
  | .movk c o => Sys2Proof.Machine.execMovk c o s
  | .addai c o => Sys2Proof.Machine.execAddai c o s
  | .adrpc c o => Sys2Proof.Machine.execAdrpc c o s
  | .adda c o => Sys2Proof.Machine.execAdda c o s
  | .suba c o => Sys2Proof.Machine.execSuba c o s
  | .difa c o => Sys2Proof.Machine.execDifa c o s
  | .mova c o => Sys2Proof.Machine.execMova c o s
  | .movad c o => Sys2Proof.Machine.execMovad c o s
  | .movda c o => Sys2Proof.Machine.execMovda c o s
  | .cmpaEq c o => Sys2Proof.Machine.execCmpaEq c o s
  | .cmpaNe c o => Sys2Proof.Machine.execCmpaNe c o s
  | .cmpaLtu c o => Sys2Proof.Machine.execCmpaLtu c o s
  | .cmpaGeu c o => Sys2Proof.Machine.execCmpaGeu c o s
  | .jr c o => Sys2Proof.Machine.execJr c o s
  | .jrl c o => Sys2Proof.Machine.execJrl c o s
  | .bz c o => Sys2Proof.Machine.execBz c o s
  | .bnz c o => Sys2Proof.Machine.execBnz c o s
  | .j c disp => Sys2Proof.Machine.execJ c disp s
  | .jl c disp => Sys2Proof.Machine.execJl c disp s
  | .ldB c o e => Sys2Proof.Machine.execLdB c o e s
  | .ldH c o e => Sys2Proof.Machine.execLdH c o e s
  | .ldW c o e => Sys2Proof.Machine.execLdW c o e s
  | .ldD c o e => Sys2Proof.Machine.execLdD c o e s
  | .stB c o e => Sys2Proof.Machine.execStB c o e s
  | .stH c o e => Sys2Proof.Machine.execStH c o e s
  | .stW c o e => Sys2Proof.Machine.execStW c o e s
  | .stD c o e => Sys2Proof.Machine.execStD c o e s
  | .ldA c o e => Sys2Proof.Machine.execLdA c o e s
  | .stA c o e => Sys2Proof.Machine.execStA c o e s
  | .ldQ c o e => Sys2Proof.Machine.execLdQ c o e s
  | .stQ c o e => Sys2Proof.Machine.execStQ c o e s
  | .ldnB c o e => Sys2Proof.Machine.execLdnB c o e s
  | .ldnH c o e => Sys2Proof.Machine.execLdnH c o e s
  | .ldnW c o e => Sys2Proof.Machine.execLdnW c o e s
  | .ldnD c o e => Sys2Proof.Machine.execLdnD c o e s
  | .stnB c o e => Sys2Proof.Machine.execStnB c o e s
  | .stnH c o e => Sys2Proof.Machine.execStnH c o e s
  | .stnW c o e => Sys2Proof.Machine.execStnW c o e s
  | .stnD c o e => Sys2Proof.Machine.execStnD c o e s
  | .movb c o grp groups e => Sys2Proof.Machine.execMovb c o grp groups e s
  | .fillb c o grp groups e => Sys2Proof.Machine.execFillb c o grp groups e s
  | .cmpb c o grp groups e => Sys2Proof.Machine.execCmpb c o grp groups e s
  | .scanb c o grp groups e => Sys2Proof.Machine.execScanb c o grp groups e s
  | .qadd c o => Sys2Proof.Machine.execQadd c o s
  | .qsub c o => Sys2Proof.Machine.execQsub c o s
  | .qmul c o => Sys2Proof.Machine.execQmul c o s
  | .qmac c o => Sys2Proof.Machine.execQmac c o s
  | .qand c o => Sys2Proof.Machine.execQand c o s
  | .qor c o => Sys2Proof.Machine.execQor c o s
  | .qxor c o => Sys2Proof.Machine.execQxor c o s
  | .qzero c o => Sys2Proof.Machine.execQzero c o s
  | .qpopc c o => Sys2Proof.Machine.execQpopc c o s
  | .qins c o l => Sys2Proof.Machine.execQins c o l s
  | .qext c o l => Sys2Proof.Machine.execQext c o l s
  | .qbcast c o l => Sys2Proof.Machine.execQbcast c o l s
  | .qmov c o l => Sys2Proof.Machine.execQmov c o l s
  | .qsum c o l => Sys2Proof.Machine.execQsum c o l s
  | .qclmul c o => Sys2Proof.Machine.execQclmul c o s
  | .qcrc32c c o => Sys2Proof.Machine.execQcrc32c c o s
  | .qpopct c o => Sys2Proof.Machine.execQpopct c o s
  | .aswp c o e => Sys2Proof.Machine.execAswp c o e s
  | .aadd c o e => Sys2Proof.Machine.execAadd c o e s
  | .aand c o e => Sys2Proof.Machine.execAand c o e s
  | .aor c o e => Sys2Proof.Machine.execAor c o e s
  | .axor c o e => Sys2Proof.Machine.execAxor c o e s
  | .asmax c o e => Sys2Proof.Machine.execAsmax c o e s
  | .asmin c o e => Sys2Proof.Machine.execAsmin c o e s
  | .aumax c o e => Sys2Proof.Machine.execAumax c o e s
  | .aumin c o e => Sys2Proof.Machine.execAumin c o e s
  | .acas c o e => Sys2Proof.Machine.execAcas c o e s
  | .lres c o e => Sys2Proof.Machine.execLres c o e s
  | .scond c o e => Sys2Proof.Machine.execScond c o e s
  | .cinvVa c o e => Sys2Proof.Machine.execCinvVa c o e s
  | .ccleanVa c o e => Sys2Proof.Machine.execCcleanVa c o e s
  | .cflushVa c o e => Sys2Proof.Machine.execCflushVa c o e s
  | .maintenanceComplete c => Sys2Proof.Machine.execMaintenanceComplete c s
  | .nop c o => Sys2Proof.Machine.execNop c o s
  | .sysrd c o => Sys2Proof.Machine.execSysrd c o s
  | .syswr c o => Sys2Proof.Machine.execSyswr c o s
  | .regranWrite c rt => Sys2Proof.Machine.execRegranWrite c rt s
  | .atpolClr c rt => Sys2Proof.Machine.execAtpolClr c rt s
  | .cntsaveWrite c rt => Sys2Proof.Machine.execCntsaveWrite c rt s
  | .scall c o => Sys2Proof.Machine.execScall c o s
  | .hcall c o => Sys2Proof.Machine.execHcall c o s
  | .wcall c o => Sys2Proof.Machine.execWcall c o s
  | .eret c o => Sys2Proof.Machine.execEret c o s
  | .barLd c o => Sys2Proof.Machine.execBarLd c o s
  | .barSt c o => Sys2Proof.Machine.execBarSt c o s
  | .barAll c o => Sys2Proof.Machine.execBarAll c o s
  | .barDev c o => Sys2Proof.Machine.execBarDev c o s
  | .barSync c o => Sys2Proof.Machine.execBarSync c o s
  | .tinvVa c o => Sys2Proof.Machine.execTinvVa c o s
  | .tinvAsid c o => Sys2Proof.Machine.execTinvAsid c o s
  | .tinvVmid c o => Sys2Proof.Machine.execTinvVmid c o s
  | .tinvAll c o => Sys2Proof.Machine.execTinvAll c o s
  | .wrpkey c o => Sys2Proof.Machine.execWrpkey c o s
  | .rdpkey c o => Sys2Proof.Machine.execRdpkey c o s
  | .uaccOn c o => Sys2Proof.Machine.execUaccOn c o s
  | .uaccOff c o => Sys2Proof.Machine.execUaccOff c o s
  | .wait c o => Sys2Proof.Machine.execWait c o s
  | .waitEnd c => Sys2Proof.Machine.execWaitEnd c s
  | .coreIdleReturn c => Sys2Proof.Machine.execCoreIdleReturn c s
  | .takeInterrupt c => Sys2Proof.Machine.execTakeInterrupt c s
  | .takeDeferredError c => Sys2Proof.Machine.execTakeDeferredError c s
  | .stageCheckFail c heldBad => Sys2Proof.Machine.execStageCheckFail c heldBad s
  | .retiredStateParityError c => Sys2Proof.Machine.execRetiredStateParityError c s
  | .storeBufferDrain c inp e => Sys2Proof.Machine.execStoreBufferDrain c inp e s
  | .devStoreErrorCompletion c inp => Sys2Proof.Machine.execDevStoreErrorCompletion c inp s
  | .drainWindowEnd c => Sys2Proof.Machine.execDrainWindowEnd c s
  | .vreqWrite by_ st v => Sys2Proof.Machine.execVreqWrite by_ st v s
  | .supplyArrives st => Sys2Proof.Machine.execSupplyArrives st s
  | .agingEvaluation st drifts fabDrift => Sys2Proof.Machine.execAgingEvaluation st drifts fabDrift s
  | .tinvBc c => Sys2Proof.Machine.execTinvBc c s
  | .cascadeBroadcast b => Sys2Proof.Machine.execCascadeBroadcast b s
  | .rds h line a f => Sys2Proof.Machine.execRds h line a f s
  | .rdx h line a f => Sys2Proof.Machine.execRdx h line a f s
  | .upg h line a f => Sys2Proof.Machine.execUpg h line a f s
  | .puts h line => Sys2Proof.Machine.execPuts h line s
  | .pute h line => Sys2Proof.Machine.execPute h line s
  | .putf h line => Sys2Proof.Machine.execPutf h line s
  | .putm h line e => Sys2Proof.Machine.execPutm h line e s
  | .puto h line e => Sys2Proof.Machine.execPuto h line e s
  | .far c q a f => Sys2Proof.Machine.execFar c q a f s
  | .rdc src line a f => Sys2Proof.Machine.execRdc src line a f s
  | .wrc src line mask data a f => Sys2Proof.Machine.execWrc src line mask data a f s
  | .cmoCln src line a f => Sys2Proof.Machine.execCmoCln src line a f s
  | .cmoFls src line a f => Sys2Proof.Machine.execCmoFls src line a f s
  | .cmoInv src line a f => Sys2Proof.Machine.execCmoInv src line a f s
  | .cas64 c pa expect new a f => Sys2Proof.Machine.execCas64 c pa expect new a f s
  | .devRd src txid a => Sys2Proof.Machine.execDevRd src txid a s
  | .devWr src txid a => Sys2Proof.Machine.execDevWr src txid a s
  | .fwdS h line e => Sys2Proof.Machine.execFwdS h line e s
  | .fwdX h line e => Sys2Proof.Machine.execFwdX h line e s
  | .inv h line => Sys2Proof.Machine.execInv h line s
  | .rclC h line e => Sys2Proof.Machine.execRclC h line e s
  | .rclI h line e => Sys2Proof.Machine.execRclI h line e s
  | .dataS h line => Sys2Proof.Machine.execDataS h line s
  | .dataF h line => Sys2Proof.Machine.execDataF h line s
  | .dataE h line => Sys2Proof.Machine.execDataE h line s
  | .dataM h line => Sys2Proof.Machine.execDataM h line s
  | .comp h line => Sys2Proof.Machine.execComp h line s
  | .farRsp c line => Sys2Proof.Machine.execFarRsp c line s
  | .rdRsp src txid => Sys2Proof.Machine.execRdRsp src txid s
  | .wrCmp src txid => Sys2Proof.Machine.execWrCmp src txid s
  | .errRsp src txid => Sys2Proof.Machine.execErrRsp src txid s
  | .fwdDone h line => Sys2Proof.Machine.execFwdDone h line s
  | .invAck h line => Sys2Proof.Machine.execInvAck h line s
  | .rclAck h line => Sys2Proof.Machine.execRclAck h line s
  | .wbAck h line => Sys2Proof.Machine.execWbAck h line s
  | .wbStale h line => Sys2Proof.Machine.execWbStale h line s
  | .homeTimeout h line => Sys2Proof.Machine.execHomeTimeout h line s
  | .fence die h => Sys2Proof.Machine.execFence die h s
  | .stopForward st next lane par => Sys2Proof.Machine.execStopForward st next lane par s
  | .urgencyAgeing inp => Sys2Proof.Machine.execUrgencyAgeing inp s
  | .tokenGain st => Sys2Proof.Machine.execTokenGain st s
  | .ingressReopen st => Sys2Proof.Machine.execIngressReopen st s
  | .fstopWrite by_ st v => Sys2Proof.Machine.execFstopWrite by_ st v s
  | .stopDrained st => Sys2Proof.Machine.execStopDrained st s
  | .stopDrainTimeout st => Sys2Proof.Machine.execStopDrainTimeout st s
  | .stopRejoined st => Sys2Proof.Machine.execStopRejoined st s
  | .rimFence by_ st => Sys2Proof.Machine.execRimFence by_ st s
  | .rimDrained st => Sys2Proof.Machine.execRimDrained st s
  | .rimUnfence by_ st => Sys2Proof.Machine.execRimUnfence by_ st s
  | .pwr die => Sys2Proof.Machine.execPwr die s
  | .irq intid => Sys2Proof.Machine.execIrq intid s
  | .hlog f => Sys2Proof.Machine.execHlog f s
  | .sprueDataSend n parityOk => Sys2Proof.Machine.execSprueDataSend n parityOk s
  | .sprueDataReceive n flip => Sys2Proof.Machine.execSprueDataReceive n flip s
  | .ack n intact => Sys2Proof.Machine.execAck n intact s
  | .nak n intact => Sys2Proof.Machine.execNak n intact s
  | .nakRepeat n => Sys2Proof.Machine.execNakRepeat n s
  | .credit n intact => Sys2Proof.Machine.execCredit n intact s
  | .creditRefresh n => Sys2Proof.Machine.execCreditRefresh n s
  | .train n => Sys2Proof.Machine.execTrain n s
  | .confirm n => Sys2Proof.Machine.execConfirm n s
  | .detectLock n => Sys2Proof.Machine.execDetectLock n s
  | .detectTimeout n => Sys2Proof.Machine.execDetectTimeout n s
  | .safeTrainDone n passed => Sys2Proof.Machine.execSafeTrainDone n passed s
  | .wideTrainDone n pass => Sys2Proof.Machine.execWideTrainDone n pass s
  | .confirmTimeout n => Sys2Proof.Machine.execConfirmTimeout n s
  | .linkRetrain by_ n => Sys2Proof.Machine.execLinkRetrain by_ n s
  | .linkReset by_ n => Sys2Proof.Machine.execLinkReset by_ n s
  | .rimLinkOutage st => Sys2Proof.Machine.execRimLinkOutage st s
  | .spokeLinkFence st => Sys2Proof.Machine.execSpokeLinkFence st s
  | .palrathFlit g f => Sys2Proof.Machine.execPalrathFlit g f s
  | .palLinkReset by_ g => Sys2Proof.Machine.execPalLinkReset by_ g s
  | .bundleChange p => Sys2Proof.Machine.execBundleChange p s
  | .ident inp => Sys2Proof.Machine.execIdent inp s
  | .identRepeat => Sys2Proof.Machine.execIdentRepeat s
  | .admissionWindowEnd => Sys2Proof.Machine.execAdmissionWindowEnd s
  | .joinGrant rev present features time halfTrip => Sys2Proof.Machine.execJoinGrant rev present features time halfTrip s
  | .timeSend => Sys2Proof.Machine.execTimeSend s
  | .time time halfTrip => Sys2Proof.Machine.execTime time halfTrip s
  | .timeHoldover => Sys2Proof.Machine.execTimeHoldover s
  | .bundleLoss a b => Sys2Proof.Machine.execBundleLoss a b s
  | .patrolScrubRead ch e => Sys2Proof.Machine.execPatrolScrubRead ch e s
  | .mcctlWrite by_ ch v => Sys2Proof.Machine.execMcctlWrite by_ ch v s
  | .mcLogclr by_ ch => Sys2Proof.Machine.execMcLogclr by_ ch s
  | .keyLoad by_ keyid sown => Sys2Proof.Machine.execKeyLoad by_ keyid sown s
  | .keyGenerate by_ keyid sown healthy => Sys2Proof.Machine.execKeyGenerate by_ keyid sown healthy s
  | .keyClear by_ keyid sown => Sys2Proof.Machine.execKeyClear by_ keyid sown s
  | .keyCommandDone => Sys2Proof.Machine.execKeyCommandDone s
  | .lgctlWrite by_ g v => Sys2Proof.Machine.execLgctlWrite by_ g v s
  | .linkDownDetected g k => Sys2Proof.Machine.execLinkDownDetected g k s
  | .devstoreTimeout g k => Sys2Proof.Machine.execDevstoreTimeout g k s
  | .linkReturnsL0 g k flit => Sys2Proof.Machine.execLinkReturnsL0 g k flit s
  | .perstRelease g refStable => Sys2Proof.Machine.execPerstRelease g refStable s
  | .inboundPcieRequest g k q f a => Sys2Proof.Machine.execInboundPcieRequest g k q f a s
  | .configAccess src w c a => Sys2Proof.Machine.execConfigAccess src w c a s
  | .functionLevelReset n => Sys2Proof.Machine.execFunctionLevelReset n s
  | .ethportEnable by_ m v => Sys2Proof.Machine.execEthportEnable by_ m v s
  | .frameReceived m bs accept inp => Sys2Proof.Machine.execFrameReceived m bs accept inp s
  | .handover by_ e b => Sys2Proof.Machine.execHandover by_ e b s
  | .releaseSlot by_ e b l => Sys2Proof.Machine.execReleaseSlot by_ e b l s
  | .checkSlot by_ e b => Sys2Proof.Machine.execCheckSlot by_ e b s
  | .fadeDone e => Sys2Proof.Machine.execFadeDone e s
  | .wearRecordWrite e b l => Sys2Proof.Machine.execWearRecordWrite e b l s
  | .presentNFall e b mem => Sys2Proof.Machine.execPresentNFall e b mem s
  | .cartridgeCheck e b => Sys2Proof.Machine.execCartridgeCheck e b s
  | .cartridgeCheckDone e b pwr => Sys2Proof.Machine.execCartridgeCheckDone e b pwr s
  | .presentNRise e b => Sys2Proof.Machine.execPresentNRise e b s
  | .faultNFall e b => Sys2Proof.Machine.execFaultNFall e b s
  | .laserLow e b pwr => Sys2Proof.Machine.execLaserLow e b pwr s
  | .switchoverDone e => Sys2Proof.Machine.execSwitchoverDone e s
  | .sqdb by_ q x => Sys2Proof.Machine.execSqdb by_ q x s
  | .cqdb by_ q x => Sys2Proof.Machine.execCqdb by_ q x s
  | .queueEnable by_ q v => Sys2Proof.Machine.execQueueEnable by_ q v s
  | .queueDisable by_ q => Sys2Proof.Machine.execQueueDisable by_ q s
  | .descriptorFetch q inp => Sys2Proof.Machine.execDescriptorFetch q inp s
  | .qirqHoldExpiry q => Sys2Proof.Machine.execQirqHoldExpiry q s
  | .copy q inp => Sys2Proof.Machine.execCopy q inp s
  | .fill q inp => Sys2Proof.Machine.execFill q inp s
  | .crc32c q inp => Sys2Proof.Machine.execCrc32c q inp s
  | .compare q inp => Sys2Proof.Machine.execCompare q inp s
  | .ladleNop q inp => Sys2Proof.Machine.execLadleNop q inp s
  | .ethTransmit q inp => Sys2Proof.Machine.execEthTransmit q inp s
  | .ethRxPost q => Sys2Proof.Machine.execEthRxPost q s
  | .shareCreate by_ v => Sys2Proof.Machine.execShareCreate by_ v s
  | .shareEnable by_ v => Sys2Proof.Machine.execShareEnable by_ v s
  | .shareDisable by_ v => Sys2Proof.Machine.execShareDisable by_ v s
  | .shareReset by_ v => Sys2Proof.Machine.execShareReset by_ v s
  | .shareRemove by_ v => Sys2Proof.Machine.execShareRemove by_ v s
  | .bindQp by_ v => Sys2Proof.Machine.execBindQp by_ v s
  | .shareDrainTimeout n inp => Sys2Proof.Machine.execShareDrainTimeout n inp s
  | .shutdownComplete n => Sys2Proof.Machine.execShutdownComplete n s
  | .encrypt q idx c inp => Sys2Proof.Machine.execEncrypt q idx c inp s
  | .decrypt q idx c inp => Sys2Proof.Machine.execDecrypt q idx c inp s
  | .mac q idx c inp => Sys2Proof.Machine.execMac q idx c inp s
  | .verify q idx c inp => Sys2Proof.Machine.execVerify q idx c inp s
  | .sessionInit q idx inp => Sys2Proof.Machine.execSessionInit q idx inp s
  | .sessionClear q idx inp => Sys2Proof.Machine.execSessionClear q idx inp s
  | .keyWrap q idx => Sys2Proof.Machine.execKeyWrap q idx s
  | .unwrap inp => Sys2Proof.Machine.execUnwrap inp s
  | .messageSuspend q idx => Sys2Proof.Machine.execMessageSuspend q idx s
  | .messageResume c => Sys2Proof.Machine.execMessageResume c s
  | .contextSpill inp => Sys2Proof.Machine.execContextSpill inp s
  | .contextFill q idx inp => Sys2Proof.Machine.execContextFill q idx inp s
  | .ownmapWrite by_ v => Sys2Proof.Machine.execOwnmapWrite by_ v s
  | .wfctlLock by_ h => Sys2Proof.Machine.execWfctlLock by_ h s
  | .dbgauthWrite c rt => Sys2Proof.Machine.execDbgauthWrite c rt s
  | .dapHalt n => Sys2Proof.Machine.execDapHalt n s
  | .dapResume n => Sys2Proof.Machine.execDapResume n s
  | .dapStep n => Sys2Proof.Machine.execDapStep n s
  | .dapCoreRegRead n r => Sys2Proof.Machine.execDapCoreRegRead n r s
  | .dapCoreRegWrite n r v => Sys2Proof.Machine.execDapCoreRegWrite n r v s
  | .dapMemRead w keyid dw f a => Sys2Proof.Machine.execDapMemRead w keyid dw f a s
  | .dapMemWrite w keyid dw v f a => Sys2Proof.Machine.execDapMemWrite w keyid dw v f a s
  | .dapSetupRead w off => Sys2Proof.Machine.execDapSetupRead w off s
  | .dapSetupWrite w off v => Sys2Proof.Machine.execDapSetupWrite w off v s
  | .coreHalt c => Sys2Proof.Machine.execCoreHalt c s
  | .tapIdcode => Sys2Proof.Machine.execTapIdcode s
  | .tapSamplePreload cells => Sys2Proof.Machine.execTapSamplePreload cells s
  | .tapExtest cells => Sys2Proof.Machine.execTapExtest cells s
  | .tapBypass ir tdi => Sys2Proof.Machine.execTapBypass ir tdi s
  | .sourceRaise intid => Sys2Proof.Machine.execSourceRaise intid s
  | .intsrcWrite by_ n v => Sys2Proof.Machine.execIntsrcWrite by_ n v s
  | .iack c rt => Sys2Proof.Machine.execIack c rt s
  | .ieoi c rt => Sys2Proof.Machine.execIeoi c rt s
  | .isgi c rt => Sys2Proof.Machine.execIsgi c rt s
  | .msiWrite g rid x => Sys2Proof.Machine.execMsiWrite g rid x s
  | .interruptPost rec_ v => Sys2Proof.Machine.execInterruptPost rec_ v s
  | .visgi c rt => Sys2Proof.Machine.execVisgi c rt s
  | .postingNotification c => Sys2Proof.Machine.execPostingNotification c s
  | .viack c rt guest => Sys2Proof.Machine.execViack c rt guest s
  | .vieoi c rt guest => Sys2Proof.Machine.execVieoi c rt guest s
  | .timerFires c lv w => Sys2Proof.Machine.execTimerFires c lv w s
  | .domainRun by_ dom => Sys2Proof.Machine.execDomainRun by_ dom s
  | .domainHold by_ dom => Sys2Proof.Machine.execDomainHold by_ dom s
  | .domainBank by_ dom => Sys2Proof.Machine.execDomainBank by_ dom s
  | .domainOff by_ dom => Sys2Proof.Machine.execDomainOff by_ dom s
  | .domainStateReached dom => Sys2Proof.Machine.execDomainStateReached dom s
  | .domainPointOfNoReturn dom => Sys2Proof.Machine.execDomainPointOfNoReturn dom s
  | .packageBank by_ => Sys2Proof.Machine.execPackageBank by_ s
  | .packageAnneal by_ => Sys2Proof.Machine.execPackageAnneal by_ s
  | .packageDisarm by_ => Sys2Proof.Machine.execPackageDisarm by_ s
  | .packageEntering => Sys2Proof.Machine.execPackageEntering s
  | .pmeToAck g k => Sys2Proof.Machine.execPmeToAck g k s
  | .packagePointOfNoReturn => Sys2Proof.Machine.execPackagePointOfNoReturn s
  | .wakeRefPeriod => Sys2Proof.Machine.execWakeRefPeriod s
  | .wakeNAssert g => Sys2Proof.Machine.execWakeNAssert g s
  | .wakeTimer => Sys2Proof.Machine.execWakeTimer s
  | .annealSample inp => Sys2Proof.Machine.execAnnealSample inp s
  | .bankTripReading hot => Sys2Proof.Machine.execBankTripReading hot s
  | .vstbyFail => Sys2Proof.Machine.execVstbyFail s
  | .wakeRegulators => Sys2Proof.Machine.execWakeRegulators s
  | .wakeTimeBase => Sys2Proof.Machine.execWakeTimeBase s
  | .wakeMemory => Sys2Proof.Machine.execWakeMemory s
  | .wakeRestore => Sys2Proof.Machine.execWakeRestore s
  | .wakeStepLate => Sys2Proof.Machine.execWakeStepLate s
  | .sensorRead tmax hot => Sys2Proof.Machine.execSensorRead tmax hot s
  | .thermalLoopTick st slow => Sys2Proof.Machine.execThermalLoopTick st slow s
  | .powerLoopTick w slow => Sys2Proof.Machine.execPowerLoopTick w slow s
  | .pcapctlWrite by_ v => Sys2Proof.Machine.execPcapctlWrite by_ v s
  | .requesterTimeout src txid => Sys2Proof.Machine.execRequesterTimeout src txid s
  | .txidRelease src txid => Sys2Proof.Machine.execTxidRelease src txid s
  | .logClear by_ d ev => Sys2Proof.Machine.execLogClear by_ d ev s
  | .setWalkStart h => Sys2Proof.Machine.execSetWalkStart h s
  | .wayRetirementWalkDone w => Sys2Proof.Machine.execWayRetirementWalkDone w s
  | .wayRetirementFuse kind h slice way => Sys2Proof.Machine.execWayRetirementFuse kind h slice way s
  | .coreRetirementFuse c => Sys2Proof.Machine.execCoreRetirementFuse c s
  | .serviceRequestUpdate => Sys2Proof.Machine.execServiceRequestUpdate s
  | .lifeUpdate hot tj v => Sys2Proof.Machine.execLifeUpdate hot tj v s
  | .l3InvAll by_ h en => Sys2Proof.Machine.execL3InvAll by_ h en s
  | .invAllDone h => Sys2Proof.Machine.execInvAllDone h s
  | .l3Enable by_ h => Sys2Proof.Machine.execL3Enable by_ h s
  | .l3Disable by_ h => Sys2Proof.Machine.execL3Disable by_ h s
  | .l3FlushDone w => Sys2Proof.Machine.execL3FlushDone w s
  | .l3SweepDone h => Sys2Proof.Machine.execL3SweepDone h s
  | .pmaskWrite by_ h n v => Sys2Proof.Machine.execPmaskWrite by_ h n v s
  | .rangeClean by_ u irq => Sys2Proof.Machine.execRangeClean by_ u irq s
  | .rangeCleanInvalidate by_ u irq => Sys2Proof.Machine.execRangeCleanInvalidate by_ u irq s
  | .rangeInvalidate by_ u irq => Sys2Proof.Machine.execRangeInvalidate by_ u irq s
  | .rangeOpComplete u => Sys2Proof.Machine.execRangeOpComplete u s
  | .mpBoot inp => Sys2Proof.Machine.execMpBoot inp s
  | .mailboxPost by_ c blk f => Sys2Proof.Machine.execMailboxPost by_ c blk f s
  | .mbPing f => Sys2Proof.Machine.execMbPing f s
  | .mbShare f => Sys2Proof.Machine.execMbShare f s
  | .mbSensors f => Sys2Proof.Machine.execMbSensors f s
  | .mbCart f => Sys2Proof.Machine.execMbCart f s
  | .mbLife f => Sys2Proof.Machine.execMbLife f s
  | .shedEvaluation occ => Sys2Proof.Machine.execShedEvaluation occ s
  | .watchdogKick by_ => Sys2Proof.Machine.execWatchdogKick by_ s
  | .watchdogFire => Sys2Proof.Machine.execWatchdogFire s
  | .windowHalfAccess a w => Sys2Proof.Machine.execWindowHalfAccess a w s
  | .heatLogAppend => Sys2Proof.Machine.execHeatLogAppend s
  | .hlsubmit by_ blk f => Sys2Proof.Machine.execHlsubmit by_ blk f s
  | .commit f => Sys2Proof.Machine.execCommit f s
  | .ihlIdent a tag => Sys2Proof.Machine.execIhlIdent a tag s
  | .ihlStatus a tag => Sys2Proof.Machine.execIhlStatus a tag s
  | .wakeMbox a tag w => Sys2Proof.Machine.execWakeMbox a tag w s
  | .hlHead a tag nonce => Sys2Proof.Machine.execHlHead a tag nonce s
  | .hlRead a tag seq count zero => Sys2Proof.Machine.execHlRead a tag seq count zero s
  | .hlVerify a tag first last => Sys2Proof.Machine.execHlVerify a tag first last s
  | .lifeRead a tag => Sys2Proof.Machine.execLifeRead a tag s
  | .ihlMailbox a tag blk => Sys2Proof.Machine.execIhlMailbox a tag blk s
  | .ihlDap a tag op => Sys2Proof.Machine.execIhlDap a tag op s
  | .bootImage a tag off bytes => Sys2Proof.Machine.execBootImage a tag off bytes s
  | .ihlInvalidFrame frame => Sys2Proof.Machine.execIhlInvalidFrame frame s
  | .warm by_ => Sys2Proof.Machine.execWarm by_ s
  | .stack by_ target => Sys2Proof.Machine.execStack by_ target s
  | .core by_ target => Sys2Proof.Machine.execCore by_ target s
  | .mp by_ => Sys2Proof.Machine.execMp by_ s
  | .release by_ target => Sys2Proof.Machine.execRelease by_ target s
  | .goFull by_ => Sys2Proof.Machine.execGoFull by_ s
  | .goFullHomeWindow h fails => Sys2Proof.Machine.execGoFullHomeWindow h fails s
  | .goFullDone => Sys2Proof.Machine.execGoFullDone s
  | .pwrgoodRise vstby => Sys2Proof.Machine.execPwrgoodRise vstby s
  | .pwrgoodFall vin => Sys2Proof.Machine.execPwrgoodFall vin s
  | .resetNLow => Sys2Proof.Machine.execResetNLow s
  | .resetNRise cascId bootSrc => Sys2Proof.Machine.execResetNRise cascId bootSrc s
  | .resetL2Writeback => Sys2Proof.Machine.execResetL2Writeback s
  | .resetHomeFlush => Sys2Proof.Machine.execResetHomeFlush s
  | .resetFinish => Sys2Proof.Machine.execResetFinish s
  | .timeBaseLock => Sys2Proof.Machine.execTimeBaseLock s
  | .bringupFloor revs pers => Sys2Proof.Machine.execBringupFloor revs pers s
  | .bringupTiles => Sys2Proof.Machine.execBringupTiles s
  | .bringupLinkDeadline => Sys2Proof.Machine.execBringupLinkDeadline s
  | .bringupTileInit mods => Sys2Proof.Machine.execBringupTileInit mods s
  | .tileDone st ok0 ok1 => Sys2Proof.Machine.execTileDone st ok0 ok1 s
  | .tileDeadline st => Sys2Proof.Machine.execTileDeadline st s
  | .bringupHash => Sys2Proof.Machine.execBringupHash s
  | .bringupDieInit st fails drifts fabDrift => Sys2Proof.Machine.execBringupDieInit st fails drifts fabDrift s
  | .stackReady st => Sys2Proof.Machine.execStackReady st s
  | .dieDeadline st => Sys2Proof.Machine.execDieDeadline st s
  | .bootCoreRelease rstvec => Sys2Proof.Machine.execBootCoreRelease rstvec s
  | .registerWrite by_ off v => Sys2Proof.Machine.execRegisterWrite by_ off v s
  | .pcieLinkLeavesL0 g k => Sys2Proof.Machine.execPcieLinkLeavesL0 g k s
  | .pcieCompletion g k txid good d => Sys2Proof.Machine.execPcieCompletion g k txid good d s
  | .cxlCompletionTimeout src txid => Sys2Proof.Machine.execCxlCompletionTimeout src txid s
  | .ethLinkChange m up => Sys2Proof.Machine.execEthLinkChange m up s
  | .hotPlugEvent g k => Sys2Proof.Machine.execHotPlugEvent g k s
  | .referenceLost => Sys2Proof.Machine.execReferenceLost s
  | .faultNRise e b => Sys2Proof.Machine.execFaultNRise e b s
  | .tundishMailboxRequest blk => Sys2Proof.Machine.execTundishMailboxRequest blk s

end Sys2Proof.Machine
end

