-- ==== Sys2Proof/Safety.lean ====
section
/-! DEFINITION. The words the claims are stated in: when an instruction of a core reaches its body, what "only this core changed"
and "it retired with these registers" mean, and the canonical form of the memories. -/
namespace Sys2Proof.Machine

open Sys2Proof

/-! ### Frames -/

/-- Nothing of the block but core c differs from u to t (freeCtr, the model's own count of free values, apart). -/
def CoreOnly (c : Nat) (u t : State) : Prop :=
  { t with
    cores := u.cores
    freeCtr := u.freeCtr } = u ∧ ∀ c', c' ≠ c → getCore t c' = getCore u c'

/-- From u to t only set-up registers changed, and of those only the ones listed (a name and an index each). -/
def RegsOnly (l : List (RegName × Nat)) (u t : State) : Prop :=
  { t with regs := u.regs } = u ∧ ∀ r i, i < 2 ^ 32 → (r, i) ∉ l → rg t r i = rg u r i

/-- From u to t core c and listed set-up registers changed, and nothing else of the block (freeCtr, the model's own count of free
values, apart). -/
def CoreRegsOnly (c : Nat) (l : List (RegName × Nat)) (u t : State) : Prop :=
  { t with
    cores := u.cores
    regs := u.regs
    freeCtr := u.freeCtr } = u ∧ (∀ c', c' ≠ c → getCore t c' = getCore u c') ∧ ∀ r i, i < 2 ^ 32 → (r, i) ∉ l → rg t r i = rg u r i

/-- The counters an instruction may advance beside its effect: STEPS, CNT0 to CNT7 and the overflow flags (R138, R538, R540). -/
def isCounter (n : Nat) : Bool := n == 0x901 || (decide (0x910 ≤ n) && decide (n ≤ 0x917)) || n == 0x931

/-- From u to t core c counted events and pipeline steps (R138) and did nothing else. -/
structure Counted (c : Nat) (u t : State) : Prop where
  only : CoreOnly c u t
  same : { getCore t c with
    sys := (getCore u c).sys
    stepLeft := (getCore u c).stepLeft } = getCore u c
  sys : ∀ n w, isCounter n = false → sysGet t c n w = sysGet u c n w

/-- A register file with register r holding v. -/
def regUpd {α : Type} (f : Nat → α) (r : Nat) (v : α) : Nat → α := fun j => if j = r then v else f j

/-- The D registers of a core with D[r] holding v; D0 reads 0 (R47). -/
def dUpd (f : Nat → Word) (r : Nat) (v : Word) : Nat → Word := if r = 0 then f else regUpd f r v

/-- From u to t an instruction of core c retired: its general registers are now D, A and Q and its PC is pc'; its status, its
reservation, every system register but the event counters (and but the stack pointer of the current level, which A shows), and the
rest of the block are as they were. -/
structure Retired (c : Nat) (u t : State) (D A : Nat → Word) (Q : Nat → QWord) (pc' : Word) : Prop where
  d : ∀ r, dGet t c r = D r
  a : ∀ r, aGet t c r = A r
  q : ∀ r, qGet t c r = Q r
  pc : (getCore t c).pc = pc'
  cstat : (getCore t c).cstat = (getCore u c).cstat
  resv : (getCore t c).resv = (getCore u c).resv
  sys : ∀ n w, n < 0x1000 → isCounter n = false → n ≠ spNum (plOf (getCore u c)) → sysGet t c n w = sysGet u c n w
  rest : CoreOnly c u t

/-- From u to t core c took an exception to level lvl (R71): the exception registers of that level (the copies of the world it came
from) hold the return address, the status as it was, the syndrome and the address; the status is the one R71 step 5 gives; the PC is
the level's vector base plus an offset; the general registers, every other system register but the event counters, and the rest of
the block are as they were. -/
structure Entered (c : Nat) (u t : State) (lvl : Nat) (epc esyn eaddr : Word) (off : Nat) : Prop where
  pc : (getCore t c).pc = trunc c (sysEff u c (lvl * 0x100) (secOf (getCore u c)) + BitVec.ofNat 64 off)
  level : plOf (getCore t c) = lvl
  masks : bit (getCore t c).cstat 4 = true ∧ bit (getCore t c).cstat 5 = true
  window : bit (getCore t c).cstat 6 = false ∧ bit (getCore t c).cstat 7 = false
  world : secOf (getCore t c) = (lvl == 3 || secOf (getCore u c))
  kept : ∀ i, (i = 3 ∨ 8 ≤ i) → bit (getCore t c).cstat i = bit (getCore u c).cstat i
  epcReg : sysGet t c (lvl * 0x100 + 1) (secOf (getCore u c)) = trunc c epc
  estatReg : sysGet t c (lvl * 0x100 + 2) (secOf (getCore u c)) = (getCore u c).cstat
  esynReg : sysGet t c (lvl * 0x100 + 3) (secOf (getCore u c)) = esyn
  eaddrReg : sysGet t c (lvl * 0x100 + 4) (secOf (getCore u c)) = trunc c eaddr
  d : ∀ r, dGet t c r = dGet u c r
  a : ∀ r, r ≠ spIdx c → aGet t c r = aGet u c r
  q : ∀ r, qGet t c r = qGet u c r
  sys : ∀ n w, n < 0x1000 → isCounter n = false → (n < lvl * 0x100 + 1 ∨ lvl * 0x100 + 6 < n) → sysGet t c n w = sysGet u c n w
  rest : CoreOnly c u t

/-- The width a core computes at (R88, R135). -/
def coreWidth (c : Nat) : Nat := if c = mpCore then 32 else 64

/-! ### When an instruction runs -/

/-- The state an instruction's body meets: after the fetch side has acted (R78). -/
def fetched (s : State) (c : Nat) : State := (fetchSide (rstDone s 5 c 2) c).2

/-- Core c runs its next instruction's body now and is not single-stepped: it can execute (R46, R77), its fetch raises nothing (R78),
CSTAT.SS is 0 (R74) and no halt follows the instruction (R513). -/
structure Runs (s : State) (c : Nat) : Prop where
  can : canExec s c = true
  fetch : (fetchSide (rstDone s 5 c 2) c).1 = .ok
  ss : bit (getCore (fetched s c) c).cstat 7 = false
  free : (getCore (fetched s c) c).stepping = false

/-- An access of core c passes its checks (R78) in state u, which its translation turns into v, and lies in one line of write-back
memory; the core's status is as it was. -/
structure Access (u v : State) (c va size : Nat) (kind : AccKind) (op : OpClass) (fresh : Bool) (p : Piece) : Prop where
  passes : checkAccess u c va size kind op fresh = (.ok [p], v)
  wb : p.ty = .wb
  cstat : (getCore v c).cstat = (getCore u c).cstat
  stepping : (getCore v c).stepping = (getCore u c).stepping

/-- Core c may use its own copy of a line of memory of its world (R277, R493, R572): valid, not poisoned, no error held for it. -/
structure Usable (v : State) (c line : Nat) : Prop where
  valid : validSt (hline v c line).st = true
  clean : (hline v c line).poison = false
  noErr : (hline v c line).err = false
  world : (hline v c line).sec = true → accWorld v c = true

/-- The bytes of a line as core c itself sees them: its store buffer over its copy (R224). -/
def ownView (s : State) (c line j : Nat) : Byte := lineByte (overlay (getCore s c) line (hline s c line).data) j

/-- The following instruction's address as core c holds it (32 bits on the management processor, R88). -/
def pcNext (s : State) (c : Nat) : Word := trunc c ((getCore (fetched s c) c).pc + 4)

/-- A stop takes in a packet that reaches it (R320, R331, R332): it is not fenced, and the domain behind it, if there is one, is in RUN. -/
structure Takes (s : State) (st : StopId) : Prop where
  live : stopDead s st = false
  run : ∀ d, stopDom st = some d → domState s d = 0

/-- A home of this package takes a request for a line at once (R280, R320, R333): local memory whose channel is in service, the home's
stop live and not held, no open busy entry for the line, busy entries left, no request of the line waiting for one, no packet of the
line in flight, and none that bears a transaction ID about to be given. -/
structure HomeOpen (s : State) (line : Nat) : Prop where
  here : isLocalMem s (line * 64) = true
  live : stopDead s (lineStop s line) = false
  there : stopHeld s (lineStop s line) = false
  channel : chLost s line = false
  idle : busyOf s line = none
  room : busyCount s line < 56
  queue : ∀ p ∈ s.dirWait, pLine p ≠ line
  alone : ∀ p ∈ s.net, pLine p ≠ line
  fresh : ∀ p ∈ s.net, ∀ k, k < 64 → p.txid ≠ (s.txNext + k) % 0x10000

/-- An atomic or uncached access to the byte address pa, under KEYID 0 and of world w, meets a line no holder has, which its home may
change and which is not poisoned; the home has fenced nobody. -/
structure HomeFree (s : State) (pa : Nat) (w : Bool) : Prop where
  open_ : HomeOpen s (pa / 64)
  here : isLocalMem s pa = true
  none_ : (dirGet s (pa / 64)).st = .none_
  rights : worldAllows s w pa ⟨true, true⟩ = true
  good : (llcPeek s (pa / 64) 0).poison = false
  unfenced : ∀ h, h < 256 → fencedAt s (lineLoc s (pa / 64)).home h = false

/-- A post of virtual INTID v to record r (its address / 256) sets PEND and sends no notification: the record's CTL.SN is 1 (R532). -/
structure PostQuiet (s : State) (r v : Nat) : Prop where
  pend : HomeFree s (r * 256 + v / 64 * 8) false
  ctlNone : (dirGet s (r * 4 + 2)).st = .none_
  ctlMem : (l3Line s (r * 4 + 2)).valid = false
  sn : bitOf (lineGet (llcPeek s (r * 4 + 2) 0).data 0 8) 1 = true
  ctl : hwQuiet s ⟨12, 18⟩ (r * 256) (r * 4 + 2) = true

/-- Where VPOST of core c, as it is in effect or as last written, is enabled, its record's PEND is read at once (R534). -/
abbrev PendQuiet (s : State) (c : Nat) : Prop :=
  ∀ (w : Bool),
    (bit (sysEff s c 0x504 w) 0 = true → pendQuiet s (coreStop c) (fld (sysEff s c 0x504 w) 51 8 * 256) = true) ∧
    (bit (sysGet s c 0x504 w) 0 = true → pendQuiet s (coreStop c) (fld (sysGet s c 0x504 w) 51 8 * 256) = true)

/-- The completion record o of item `it`, the only item of queue q of share n, reaches memory (R433): its 32 bytes are written at CQTAIL
from state v on, which leaves u; the queue runs with its interrupt off, and its share is not being shut down. -/
structure RecordAt (v : State) (n q : Nat) (it : Item) (o : RecOut) (i : EngIn) (u : State) : Prop where
  wrote : shWriteBuf v n (kindStop (qKind v q)) i i.dst (rgF v .cqbase q 51 12 * 4096 + rgF v .qstat q 47 32 * 32) (recordBytes v q it o) =
    (.ok, 32, u)
  alone : (queue u q).items = [it]
  runs : qState u q = 1
  noIrq : rgF u .qirq q 15 15 = 0
  live : shState u n ≠ 3
  size : cqSize u q ≤ 65536
  num : n < 4096

/-- After a record was written (from v, leaving u) its item is gone, CQTAIL has gone on, PHASE has turned with it past the end of the
ring, and nothing else has changed (R433). -/
structure Reported (v u t : State) (q : Nat) : Prop where
  items : (queue t q).items = []
  tail : rgF t .qstat q 47 32 = (rgF v .qstat q 47 32 + 1) % cqSize u q
  turn : rgF t .qstat q 11 11 = (if (rgF v .qstat q 47 32 + 1) % cqSize u q = 0 then 1 - rgF u .qstat q 11 11 else rgF u .qstat q 11 11)
  head : rgF t .qstat q 63 48 = rgF u .qstat q 63 48
  runs : qState t q = 1
  others : ∀ q', q' ≠ q → queue t q' = queue u q'
  regs : ∀ r j, j < 2 ^ 32 → (r, j) ≠ (.qstat, q) → rg t r j = rg u r j
  rest : { t with
    queues := u.queues
    regs := u.regs } = u

/-- Session z was used now and describes no suspended message (R469, R471); a session that is not initialised is left. -/
def sessionUsed (s : State) (z : Nat) : State :=
  if sessInit (session s z) then
    { setSession s z { session s z with
        used := s.cipSeq
        resume := 0 } with
      cipSeq := s.cipSeq + 1 }
  else s

/-- The items of a queue with the one of an index replaced. -/
def itemsWith (l : List Item) (it : Item) : List Item := l.map (fun i => if i.sqidx = it.sqidx then it else i)

/-- The 8 bytes at an address as the homes would deliver them under KEYID 0. -/
def homeWord (s : State) (pa : Nat) : Nat := lineGet (cohPeek s (pa / 64) 0).data (pa % 64) 8

/-- The memories of the block keep their canonical form. -/
def MemoriesCanonical (s : State) : Prop := Memory.wf s.dram = true ∧ Memory.wf s.mpSram = true ∧ Memory.wf s.flash = true

end Sys2Proof.Machine
end

