-- ==== Sys2Proof/Certificates/Slice0/Obligations.lean ====
section
/-! DEFINITION. The statements for the provers: what each family of commands does, what the machine does at each step, and an invariant. -/
open Sys2Proof Sys2Proof.Machine

/-- R91, R92, R49, R135: the D register a T-format operation of two sources writes, for each of the 27 operations, at the core's width (64 bits, 32 on
the management processor); a shift's amount is taken modulo the width; a compare writes 1 or 0; a division by 0 gives all ones or the dividend. D0
takes no write (R47). Nothing else changes (frame). -/
def Obligations.TwoSourceIntegerResults : Prop :=
  ∀ (c : CoreId) (o : OpT) (s : State), Runs s c →
    dOk c o.rd.toNat = true → dOk c o.rs1.toNat = true → dOk c o.rs2.toNat = true →
    let u := fetched s c
    let a := dGet u c o.rs1.toNat
    let b := dGet u c o.rs2.toNat
    ∀ p ∈ ([(.add c o, fun _ x y => x + y), (.sub c o, fun _ x y => x - y), (.and c o, fun _ x y => x &&& y),
        (.or c o, fun _ x y => x ||| y), (.xor c o, fun _ x y => x ^^^ y), (.andn c o, fun _ x y => x &&& ~~~y),
        (.sll c o, fun w x y => x <<< (y.toNat % w)), (.srl c o, fun w x y => x >>> (y.toNat % w)),
        (.sra c o, fun w x y => x.sshiftRight (y.toNat % w)),
        (.ror c o, fun w x y => (x >>> (y.toNat % w)) ||| (x <<< (w - y.toNat % w))),
        (.min c o, fun _ x y => if x.toInt ≤ y.toInt then x else y), (.max c o, fun _ x y => if x.toInt ≤ y.toInt then y else x),
        (.minu c o, fun _ x y => if x.toNat ≤ y.toNat then x else y), (.maxu c o, fun _ x y => if x.toNat ≤ y.toNat then y else x),
        (.mul c o, fun w x y => BitVec.ofNat w (x.toNat * y.toNat)),
        (.mulh c o, fun w x y => BitVec.ofInt w ((x.toInt * y.toInt) / 2 ^ w)),
        (.mulhu c o, fun w x y => BitVec.ofNat w ((x.toNat * y.toNat) / 2 ^ w)),
        (.div c o, fun w x y => if y = 0 then BitVec.allOnes w else BitVec.ofInt w (x.toInt.tdiv y.toInt)),
        (.divu c o, fun w x y => if y = 0 then BitVec.allOnes w else BitVec.ofNat w (x.toNat / y.toNat)),
        (.rem c o, fun w x y => if y = 0 then x else BitVec.ofInt w (x.toInt.tmod y.toInt)),
        (.remu c o, fun w x y => if y = 0 then x else BitVec.ofNat w (x.toNat % y.toNat)),
        (.cmpEq c o, fun _ x y => if x = y then 1 else 0), (.cmpNe c o, fun _ x y => if x = y then 0 else 1),
        (.cmpLt c o, fun _ x y => if x.toInt < y.toInt then 1 else 0), (.cmpLtu c o, fun _ x y => if x.toNat < y.toNat then 1 else 0),
        (.cmpGe c o, fun _ x y => if y.toInt ≤ x.toInt then 1 else 0),
        (.cmpGeu c o, fun _ x y => if y.toNat ≤ x.toNat then 1 else 0)] :
        List (Instr × ((w : Nat) → BitVec w → BitVec w → BitVec w))),
      ∃ t, exec p.1 s = .next t ∧
        Retired c u t (dUpd (dGet u c) o.rd.toNat (atWidth c p.2 a b)) (aGet u c) (qGet u c) (pcNext s c)

/-- R91, R135, R47: the D register that a one-source operation of major 0x01 writes, at the core's width: sign extension of the low 8, 16 or 32 bits,
zero extension of the low 32, the count of leading and of trailing zero bits (the width when all bits are 0), the bytes reversed. Nothing else
changes (frame). Where these rules are silent it states the model's choice (log entry 18). -/
def Obligations.OneSourceIntegerResults : Prop :=
  ∀ (c : CoreId) (o : OpT) (s : State), Runs s c →
    dOk c o.rd.toNat = true → dOk c o.rs1.toNat = true → o.rs2 = 0 →
    let u := fetched s c
    let a := dGet u c o.rs1.toNat
    (∀ p ∈ ([(.sextB c o, fun w x => (x.setWidth 8).signExtend w), (.sextH c o, fun w x => (x.setWidth 16).signExtend w),
        (.sextW c o, fun w x => (x.setWidth 32).signExtend w), (.zextW c o, fun w x => (x.setWidth 32).setWidth w)] :
        List (Instr × ((w : Nat) → BitVec w → BitVec w))),
      ∃ t, exec p.1 s = .next t ∧
        Retired c u t (dUpd (dGet u c) o.rd.toNat (atWidth c (fun w x _ => p.2 w x) a 0)) (aGet u c) (qGet u c) (pcNext s c)) ∧
    ∃ v1 v2 v3 t1 t2 t3,
      (exec (.clz c o) s = .next t1 ∧
        Retired c u t1 (dUpd (dGet u c) o.rd.toNat v1) (aGet u c) (qGet u c) (pcNext s c) ∧
        v1.toNat ≤ coreWidth c ∧ (∀ i, i < v1.toNat → a.getLsbD (coreWidth c - 1 - i) = false) ∧
        (v1.toNat < coreWidth c → a.getLsbD (coreWidth c - 1 - v1.toNat) = true)) ∧
      (exec (.ctz c o) s = .next t2 ∧
        Retired c u t2 (dUpd (dGet u c) o.rd.toNat v2) (aGet u c) (qGet u c) (pcNext s c) ∧
        v2.toNat ≤ coreWidth c ∧ (∀ i, i < v2.toNat → a.getLsbD i = false) ∧ (v2.toNat < coreWidth c → a.getLsbD v2.toNat = true)) ∧
      (exec (.bswap c o) s = .next t3 ∧
        Retired c u t3 (dUpd (dGet u c) o.rd.toNat v3) (aGet u c) (qGet u c) (pcNext s c) ∧
        v3.toNat < 2 ^ coreWidth c ∧
        ∀ k, k < coreWidth c / 8 → v3.extractLsb' (8 * k) 8 = a.extractLsb' (8 * (coreWidth c / 8 - 1 - k)) 8)

/-- R91, R49, R135: the D register that an immediate operation writes. ADDI and the compares extend the sign of IMM16, the logic operations extend with
zeros, a shift's amount is IMM16[5:0] modulo the width; MOVI writes the sign-extended immediate; MOVK replaces bits [16 HW + 15:16 HW] (with HW 2 or
3 nothing a 32-bit core holds). Nothing else changes (frame). -/
def Obligations.ImmediateResults : Prop :=
  ∀ (c : CoreId) (s : State), Runs s c →
    let u := fetched s c
    (∀ o : OpK, dOk c o.rd.toNat = true → dOk c o.rs1.toNat = true →
      ∀ p ∈ ([(.addi c o, true, fun _ x y => x + y), (.andi c o, false, fun _ x y => x &&& y), (.ori c o, false, fun _ x y => x ||| y),
          (.xori c o, false, fun _ x y => x ^^^ y), (.cmpiEq c o, true, fun _ x y => if x = y then 1 else 0),
          (.cmpiLt c o, true, fun _ x y => if x.toInt < y.toInt then 1 else 0),
          (.cmpiLtu c o, true, fun _ x y => if x.toNat < y.toNat then 1 else 0)] :
          List (Instr × Bool × ((w : Nat) → BitVec w → BitVec w → BitVec w))),
        ∃ t, exec p.1 s = .next t ∧
          Retired c u t (dUpd (dGet u c) o.rd.toNat
            (atWidth c p.2.2 (dGet u c o.rs1.toNat) (if p.2.1 then o.imm.signExtend 64 else o.imm.setWidth 64)))
            (aGet u c) (qGet u c) (pcNext s c)) ∧
    (∀ o : OpShi, dOk c o.rd.toNat = true → dOk c o.rs1.toNat = true → o.hi = 0 →
      ∀ p ∈ ([(.slli c o, fun w x => x <<< (o.amt.toNat % w)), (.srli c o, fun w x => x >>> (o.amt.toNat % w)),
          (.srai c o, fun w x => x.sshiftRight (o.amt.toNat % w)),
          (.rori c o, fun w x => (x >>> (o.amt.toNat % w)) ||| (x <<< (w - o.amt.toNat % w)))] :
          List (Instr × ((w : Nat) → BitVec w → BitVec w))),
        ∃ t, exec p.1 s = .next t ∧
          Retired c u t (dUpd (dGet u c) o.rd.toNat (atWidth c (fun w x _ => p.2 w x) (dGet u c o.rs1.toNat) 0))
            (aGet u c) (qGet u c) (pcNext s c)) ∧
    (∀ o : OpK, dOk c o.rd.toNat = true → o.rs1 = 0 →
      ∃ t, exec (.movi c o) s = .next t ∧
        Retired c u t (dUpd (dGet u c) o.rd.toNat (trunc c (o.imm.signExtend 64))) (aGet u c) (qGet u c) (pcNext s c)) ∧
    (∀ o : OpK, dOk c o.rd.toNat = true → o.rs1.toNat < 4 →
      ∃ t v, exec (.movk c o) s = .next t ∧
        Retired c u t (dUpd (dGet u c) o.rd.toNat (trunc c v)) (aGet u c) (qGet u c) (pcNext s c) ∧
        v.extractLsb' (16 * o.rs1.toNat) 16 = o.imm ∧
        ∀ i, (i < 16 * o.rs1.toNat ∨ 16 * o.rs1.toNat + 16 ≤ i) → v.getLsbD i = (dGet u c o.rd.toNat).getLsbD i)

/-- R91, R49, R67, R93: the register that an address operation writes: an A register for ADDA, SUBA, MOVA, MOVAD, ADDAI and ADRPC (the PC plus four
times the displacement), a D register for DIFA, MOVDA and the address compares. Nothing else changes (frame). -/
def Obligations.AddressOperationResults : Prop :=
  ∀ (c : CoreId) (s : State), Runs s c →
    let u := fetched s c
    (∀ o : OpT, aOk c o.rd.toNat = true → aOk c o.rs1.toNat = true → dOk c o.rs2.toNat = true →
      ∀ p ∈ ([(.adda c o, fun x y => x + y), (.suba c o, fun x y => x - y)] : List (Instr × (Word → Word → Word))),
        ∃ t, exec p.1 s = .next t ∧
          Retired c u t (dGet u c) (regUpd (aGet u c) o.rd.toNat (trunc c (p.2 (aGet u c o.rs1.toNat) (dGet u c o.rs2.toNat))))
            (qGet u c) (pcNext s c)) ∧
    (∀ o : OpT, dOk c o.rd.toNat = true → aOk c o.rs1.toNat = true → aOk c o.rs2.toNat = true →
      ∀ p ∈ ([(.difa c o, fun _ x y => x - y), (.cmpaEq c o, fun _ x y => if x = y then 1 else 0),
          (.cmpaNe c o, fun _ x y => if x = y then 0 else 1), (.cmpaLtu c o, fun _ x y => if x.toNat < y.toNat then 1 else 0),
          (.cmpaGeu c o, fun _ x y => if y.toNat ≤ x.toNat then 1 else 0)] :
          List (Instr × ((w : Nat) → BitVec w → BitVec w → BitVec w))),
        ∃ t, exec p.1 s = .next t ∧
          Retired c u t (dUpd (dGet u c) o.rd.toNat (atWidth c p.2 (aGet u c o.rs1.toNat) (aGet u c o.rs2.toNat)))
            (aGet u c) (qGet u c) (pcNext s c)) ∧
    (∀ o : OpT, o.rs2 = 0 → aOk c o.rd.toNat = true → aOk c o.rs1.toNat = true →
      ∃ t, exec (.mova c o) s = .next t ∧
        Retired c u t (dGet u c) (regUpd (aGet u c) o.rd.toNat (trunc c (aGet u c o.rs1.toNat))) (qGet u c) (pcNext s c)) ∧
    (∀ o : OpT, o.rs2 = 0 → aOk c o.rd.toNat = true → dOk c o.rs1.toNat = true →
      ∃ t, exec (.movad c o) s = .next t ∧
        Retired c u t (dGet u c) (regUpd (aGet u c) o.rd.toNat (trunc c (dGet u c o.rs1.toNat))) (qGet u c) (pcNext s c)) ∧
    (∀ o : OpT, o.rs2 = 0 → dOk c o.rd.toNat = true → aOk c o.rs1.toNat = true →
      ∃ t, exec (.movda c o) s = .next t ∧
        Retired c u t (dUpd (dGet u c) o.rd.toNat (trunc c (aGet u c o.rs1.toNat))) (aGet u c) (qGet u c) (pcNext s c)) ∧
    (∀ o : OpK, aOk c o.rd.toNat = true → aOk c o.rs1.toNat = true →
      ∃ t, exec (.addai c o) s = .next t ∧
        Retired c u t (dGet u c) (regUpd (aGet u c) o.rd.toNat (trunc c (aGet u c o.rs1.toNat + o.imm.signExtend 64)))
          (qGet u c) (pcNext s c)) ∧
    (∀ o : OpK, aOk c o.rd.toNat = true → o.rs1 = 0 →
      ∃ t, exec (.adrpc c o) s = .next t ∧
        Retired c u t (dGet u c) (regUpd (aGet u c) o.rd.toNat (trunc c ((getCore u c).pc + o.imm.signExtend 64 * 4)))
          (qGet u c) (pcNext s c))

/-- R50, R54, R68, R93: where the PC goes. BZ and BNZ add four times the displacement when the tested register is 0, or is not; J and JL always do; JR
and JRL take an A register that is a multiple of 4; JL and JRL write the following address to A14 (A6 on the management processor) or to the A
register named, after the target is read. Nothing else changes (frame). -/
def Obligations.JumpAndBranchTargets : Prop :=
  ∀ (c : CoreId) (s : State), Runs s c →
    let u := fetched s c
    let pc := (getCore u c).pc
    (∀ o : OpB, dOk c o.rc.toNat = true →
      ∀ p ∈ ([(.bz c o, true), (.bnz c o, false)] : List (Instr × Bool)), ∃ t, exec p.1 s = .next t ∧
        Retired c u t (dGet u c) (aGet u c) (qGet u c)
          (trunc c (if decide (dGet u c o.rc.toNat = 0) = p.2 then pc + o.disp.signExtend 64 * 4 else pc + 4))) ∧
    (∀ d : BitVec 26,
      (∃ t, exec (.j c d) s = .next t ∧
        Retired c u t (dGet u c) (aGet u c) (qGet u c) (trunc c (pc + d.signExtend 64 * 4))) ∧
      (∃ t, exec (.jl c d) s = .next t ∧
        Retired c u t (dGet u c) (regUpd (aGet u c) (if c.val = 240 then 6 else 14) (trunc c (pc + 4))) (qGet u c)
          (trunc c (pc + d.signExtend 64 * 4)))) ∧
    (∀ o : OpT, aOk c o.rs1.toNat = true → o.rs2 = 0 → (aGet u c o.rs1.toNat).toNat % 4 = 0 →
      (o.rd = 0 → ∃ t, exec (.jr c o) s = .next t ∧
        Retired c u t (dGet u c) (aGet u c) (qGet u c) (trunc c (aGet u c o.rs1.toNat))) ∧
      (aOk c o.rd.toNat = true → ∃ t, exec (.jrl c o) s = .next t ∧
        Retired c u t (dGet u c) (regUpd (aGet u c) o.rd.toNat (trunc c (pc + 4))) (qGet u c) (trunc c (aGet u c o.rs1.toNat))))

/-- R71, R73, R79, R80, R126: the three calls enter PL1, PL2 and PL3 through the call vector with the following address in EPC and the immediate in
ESYN.DETAIL; ERET takes PC and CSTAT from EPC and ESTAT of the current level and drops the reservation; an illegal saved status raises
ILLEGAL_RETURN at the current level instead. The rest is as before (frame). R69 to R71, R75, R76, R80, R522, R523, R645: at a boundary a core takes
the due interrupt at its routed level through vector 0x300, and a due deferred error through vector 0x400 with the syndrome and address it recorded;
the interrupt due has the lowest priority number, and among equals the lowest INTID, of those signalled that may be taken. -/
def Obligations.ExceptionEntryAndReturn : Prop :=
  (∀ (c : CoreId) (o : OpS) (s : State), Runs s c →
     let u := fetched s c
     let pc := (getCore u c).pc
     let pl := plOf (getCore u c)
     let w := secOf (getCore u c)
     let st := sysGet u c (pl * 0x100 + 2) w
     (o.rt = 0 → pl ≤ 1 →
       ∃ t, exec (.scall c o) s = .next t ∧ Entered c u t 1 (pc + 4) (BitVec.ofNat 64 (0x041C000000000000 + o.sys.toNat)) 0 0x000) ∧
     (o.rt = 0 → c.val ≠ 240 → 1 ≤ pl → pl ≤ 2 →
       (∃ t, exec (.hcall c o) s = .next t ∧ Entered c u t 2 (pc + 4) (BitVec.ofNat 64 (0x051C000000000000 + o.sys.toNat)) 0 0x000) ∧
       (∃ t, exec (.wcall c o) s = .next t ∧ Entered c u t 3 (pc + 4) (BitVec.ofNat 64 (0x061C000000000000 + o.sys.toNat)) 0 0x000)) ∧
     (o.rt = 0 → o.sys = 0 → 1 ≤ pl → fld st 1 0 ≤ pl → (fld st 1 0 = 3 → bit st 2 = true) → (pl < 3 → bit st 2 = w) → PendQuiet u c →
       ∃ t, exec (.eret c o) s = .next t ∧ (getCore t c).pc = sysGet u c (pl * 0x100 + 1) w ∧ (getCore t c).cstat = st ∧
         (getCore t c).resv = none ∧ (∀ r, dGet t c r = dGet u c r) ∧ (∀ r, r ≠ spIdx c → aGet t c r = aGet u c r) ∧
         (∀ r, qGet t c r = qGet u c r) ∧ (∀ n x, n < 0x1000 → isCounter n = false → sysGet t c n x = sysGet u c n x) ∧
         CoreOnly c u t) ∧
     (o.rt = 0 → o.sys = 0 → 1 ≤ pl → (pl < fld st 1 0 ∨ (fld st 1 0 = 3 ∧ bit st 2 = false) ∨ (pl < 3 ∧ bit st 2 ≠ w)) →
       ∃ t, exec (.eret c o) s = .next t ∧ Entered c u t pl pc 0x071C000000000000 0 0x100)) ∧
  ((∀ (c : CoreId) (g : Sig) (s : State), canTake s c = true → dueDeferred s c = false → dueInterrupt s c = some g →
     1 ≤ routeLevel (getCore s c) g → routeLevel (getCore s c) g ≤ 3 → (getCore s c).stepping = false →
     ∃ t, exec (.takeInterrupt c) s = .next t ∧
       Entered c s t (routeLevel (getCore s c) g) (getCore s c).pc 0x401C000000000000 0 0x300) ∧
   (∀ (c : CoreId) (d : DefErr) (s : State), canTake s c = true → dueDeferred s c = true → (getCore s c).defErr = some d →
     1 ≤ defTarget s c → defTarget s c ≤ 3 → (getCore s c).stepping = false →
     ∃ t, exec (.takeDeferredError c) s = .next t ∧ Entered c s t (defTarget s c) (getCore s c).pc d.esyn d.eaddr 0x400 ∧
       (getCore t c).defErr = none) ∧
   (∀ (c : CoreId) (g : Sig) (s : State), dueInterrupt s c = some g →
     (g ∈ signalled s c ∨ g ∈ guestSigs s c) ∧ mayTake (getCore s c) 4 (routeLevel (getCore s c) g) = true ∧
     ∀ h, (h ∈ signalled s c ∨ h ∈ guestSigs s c) → mayTake (getCore s c) 4 (routeLevel (getCore s c) h) = true →
       g.prio < h.prio ∨ (g.prio = h.prio ∧ g.intid ≤ h.intid)))

/-- R64 to R66, R80, R126, R131 to R133: a word the core has no instruction for raises UNDEF at the local target with the word in ESYN.DETAIL: a
T-format operation that names a D register a management processor does not have; ERET and WAIT at PL0; a TLB invalidation at PL0; UACC.ON and
UACC.OFF outside PL1; SCALL above PL1 and HCALL and WCALL at PL0 or PL3. R93, R80: a register jump to an address whose bits [1:0] are not 0 raises
PC_ALIGN at the local target with the address in EADDR, and writes no link. R81, R80: an access below a register's level is denied: SYSREG_DENY at
the register's level, DETAIL naming the register, the D register and the direction; nothing is read or written. Stated for the exception registers
of each level. -/
def Obligations.UndefAlignmentAndDenials : Prop :=
  (∀ (c : CoreId) (s : State), Runs s c →
     let u := fetched s c
     let pl := plOf (getCore u c)
     ∀ p ∈ ([(.eret c ⟨0, 0⟩, pl == 0, 0xFC000013), (.wait c ⟨0, 0⟩, pl == 0, 0xFC000060),
         (.tinvAll c ⟨0, 0⟩, pl == 0, 0xFC000033), (.uaccOn c ⟨0, 0⟩, pl != 1, 0xFC000050), (.uaccOff c ⟨0, 0⟩, pl != 1, 0xFC000051),
         (.scall c ⟨0, 0⟩, decide (2 ≤ pl), 0xFC000010), (.hcall c ⟨0, 0⟩, pl == 0 || pl == 3, 0xFC000011),
         (.wcall c ⟨0, 0⟩, pl == 0 || pl == 3, 0xFC000012),
         (.add c ⟨16, 0, 0⟩, c.val == 240, 0x06000000), (.sub c ⟨0, 16, 0⟩, c.val == 240, 0x04100001),
         (.cmpEq c ⟨0, 0, 16⟩, c.val == 240, 0x0C008000), (.mul c ⟨31, 31, 31⟩, c.val == 240, 0x0BFFF800)] :
         List (Instr × Bool × Nat)),
       p.2.1 = true →
       ∃ t, exec p.1 s = .next t ∧
         Entered c u t (max 1 pl) (getCore u c).pc (BitVec.ofNat 64 (0x011C000000000000 + p.2.2)) 0 (if pl = 0 then 0x200 else 0x100)) ∧
  (∀ (c : CoreId) (o : OpT) (s : State), Runs s c → aOk c o.rs1.toNat = true → o.rs2 = 0 →
     let u := fetched s c
     let pl := plOf (getCore u c)
     let a := aGet u c o.rs1.toNat
     a.toNat % 4 ≠ 0 →
     (o.rd = 0 → ∃ t, exec (.jr c o) s = .next t ∧
       Entered c u t (max 1 pl) (getCore u c).pc 0x091C000000000000 a (if pl = 0 then 0x200 else 0x100)) ∧
     (aOk c o.rd.toNat = true → ∃ t, exec (.jrl c o) s = .next t ∧
       Entered c u t (max 1 pl) (getCore u c).pc 0x091C000000000000 a (if pl = 0 then 0x200 else 0x100))) ∧
  (∀ (c : CoreId) (o : OpS) (s : State) (lvl k : Nat), Runs s c → c.val ≠ 240 → lvl ≤ 3 → k ≤ 5 →
     let u := fetched s c
     plOf (getCore u c) < lvl → o.sys.toNat = lvl * 0x100 + k →
     (∃ t, exec (.sysrd c o) s = .next t ∧ Entered c u t lvl (getCore u c).pc
       (BitVec.ofNat 64 (0x021C000000000000 + (o.rt.toNat * 0x2000 + o.sys.toNat))) 0 0x200) ∧
     (∃ t, exec (.syswr c o) s = .next t ∧ Entered c u t lvl (getCore u c).pc
       (BitVec.ofNat 64 (0x021C000000000000 + (o.rt.toNat * 0x2000 + 0x1000 + o.sys.toNat))) 0 0x200))

/-- R47, R61, R81, R84, R87, R536: what SYSRD and SYSWR of permitted registers do. SYSRD of CSTAT gives the status, of TIME the package time, of a
register that is plain storage its copy of the world accessed. SYSWR keeps the bits the register's table has: VTBASE_PL1 [63:12], EPC_PL1 [63:2],
EADDR_PL1 and SCRATCH_PL1 all, TTBR0_PL1 and TTBR1_PL1 [51:12], BK0 to BK5 [63:3]; in CSTAT it changes IM and DM only. NOP changes nothing. The PC
advances and the rest is as before (frame). -/
def Obligations.SystemRegisterReadAndWrite : Prop :=
  ∀ (c : CoreId) (s : State), Runs s c →
    let u := fetched s c
    let w := accWorld u c
    (∃ t, exec (.nop c ⟨0, 0⟩) s = .next t ∧ Retired c u t (dGet u c) (aGet u c) (qGet u c) (pcNext s c)) ∧
    (∀ o : OpS, dOk c o.rt.toNat = true → sysCheck u c o.rt.toNat o.sys.toNat false (wordS o 0x001) = none →
      (o.sys = 0x004 → ∃ t, exec (.sysrd c o) s = .next t ∧
        Retired c u t (dUpd (dGet u c) o.rt.toNat (trunc c (getCore u c).cstat)) (aGet u c) (qGet u c) (pcNext s c)) ∧
      (o.sys = 0x700 → guestView u c 0 = false → ∃ t, exec (.sysrd c o) s = .next t ∧
        Retired c u t (dUpd (dGet u c) o.rt.toNat (trunc c u.ptime)) (aGet u c) (qGet u c) (pcNext s c)) ∧
      (o.sys.toNat ∈ [0x005, 0x006, 0x007, 0x010, 0x100, 0x101, 0x102, 0x103, 0x104, 0x200, 0x203, 0x301, 0x400, 0x402, 0x410, 0x421,
          0x500, 0x540, 0x600, 0x710, 0x901, 0x930, 0xA00, 0xC00] →
        ∃ t, exec (.sysrd c o) s = .next t ∧
          Retired c u t (dUpd (dGet u c) o.rt.toNat (trunc c (sysGet u c o.sys.toNat w))) (aGet u c) (qGet u c) (pcNext s c))) ∧
    (∀ o : OpS, dOk c o.rt.toNat = true → sysCheck u c o.rt.toNat o.sys.toNat true (wordS o 0x002) = none →
      (∀ p ∈ ([(0x100, 63, 12), (0x101, 63, 2), (0x104, 63, 0), (0x108, 63, 0), (0x400, 51, 12), (0x401, 51, 12),
          (0x010, 63, 3), (0x011, 63, 3), (0x012, 63, 3), (0x013, 63, 3), (0x014, 63, 3), (0x015, 63, 3)] : List (Nat × Nat × Nat)),
        o.sys.toNat = p.1 → c.val ≠ 240 →
        ∃ t, exec (.syswr c o) s = .next t ∧ (getCore t c).pc = pcNext s c ∧ (getCore t c).cstat = (getCore u c).cstat ∧
          fld (sysGet t c p.1 w) p.2.1 p.2.2 = fld (dGet u c o.rt.toNat) p.2.1 p.2.2 ∧
          (∀ i, i < p.2.2 ∨ p.2.1 < i → bit (sysGet t c p.1 w) i = bit (sysGet u c p.1 w) i) ∧
          (∀ n x, n < 0x1000 → isCounter n = false → n ≠ p.1 → sysGet t c n x = sysGet u c n x) ∧
          (∀ r, dGet t c r = dGet u c r) ∧ (∀ r, aGet t c r = aGet u c r) ∧ (∀ r, qGet t c r = qGet u c r) ∧ CoreOnly c u t) ∧
      (o.sys = 0x004 → ∃ t, exec (.syswr c o) s = .next t ∧ (getCore t c).pc = pcNext s c ∧
        (∀ i, bit (getCore t c).cstat i = if i = 4 ∨ i = 5 then bit (dGet u c o.rt.toNat) i else bit (getCore u c).cstat i) ∧
        (∀ n x, n < 0x1000 → isCounter n = false → sysGet t c n x = sysGet u c n x) ∧
        (∀ r, dGet t c r = dGet u c r) ∧ (∀ r, aGet t c r = aGet u c r) ∧ CoreOnly c u t))

/-- R234, R296, R508, R543, R544: the writes with effects of their own. REGRAN takes 0x40, 0x80 or 0x100 and drops the reservation, and any other value
changes nothing; ATPOL.CLR empties the placement predictor where the feature is present, and ATPOL.POLICY takes 0 to 2; DBGAUTH takes POLICY, a
change of EFF is recorded, and a halted core whose world's invasive enable is now 0 resumes (R514); CNTSAVE with SAVE writes the counters to the
block it named, when the core owns the block's three lines, takes the new address, and with RESTORE loads the counters from the block there, when
the core holds its lines. In each the PC advances and everything else but the event counters is as it was (frame; of a restore, the counters that go
on counting are not named). R131, R132: WRPKEY writes PKEY of the current world with the low 32 bits, RDPKEY reads it, at every level; UACC.ON and
UACC.OFF set and clear CSTAT.UA at PL1. The PC advances, and nothing else but the event counters changes (frame). Where these rules are silent it
states the model's choice (log entry 16). -/
def Obligations.SystemRegisterWritesAndKeys : Prop :=
  (∀ (c : CoreId) (rt : BitVec 5) (s : State), Runs s c → c.val ≠ 240 →
     let u := fetched s c
     let w := accWorld u c
     let v := dGet u c rt.toNat
     let kept := fun (t : State) (l : List Nat) => (getCore t c).pc = pcNext s c ∧ (getCore t c).cstat = (getCore u c).cstat ∧
       (∀ n x, n < 0x1000 → isCounter n = false → n ∉ l → sysGet t c n x = sysGet u c n x) ∧
       (∀ r, dGet t c r = dGet u c r) ∧ (∀ r, aGet t c r = aGet u c r) ∧ (∀ r, qGet t c r = qGet u c r)
     (sysCheck u c rt.toNat 0x005 true (wordS ⟨rt, 0x005⟩ 0x002) = none →
       (v = 0x40 ∨ v = 0x80 ∨ v = 0x100 → ∃ t, exec (.regranWrite c rt) s = .next t ∧ sysGet t c 0x005 w = v ∧ (getCore t c).resv = none ∧
         kept t [0x005] ∧ CoreOnly c u t) ∧
       (¬(v = 0x40 ∨ v = 0x80 ∨ v = 0x100) → ∃ t, exec (.regranWrite c rt) s = .next t ∧
         Retired c u t (dGet u c) (aGet u c) (qGet u c) (pcNext s c))) ∧
     (sysCheck u c rt.toNat 0x602 true (wordS ⟨rt, 0x602⟩ 0x002) = none → ∃ t, exec (.atpolClr c rt) s = .next t ∧
       (bit v 8 = true → u.features.testBit 8 = true → (getCore t c).pred = []) ∧
       (bit v 8 = false ∨ u.features.testBit 8 = false → (getCore t c).pred = (getCore u c).pred) ∧
       fld (sysGet t c 0x602 w) 1 0 = (if fld v 1 0 ≤ 2 then fld v 1 0 else fld (sysGet u c 0x602 w) 1 0) ∧
       (∀ i, 2 ≤ i → bit (sysGet t c 0x602 w) i = bit (sysGet u c 0x602 w) i) ∧ (getCore t c).resv = (getCore u c).resv ∧
       kept t [0x602] ∧ CoreOnly c u t) ∧
     (sysCheck u c rt.toNat 0x581 true (wordS ⟨rt, 0x581⟩ 0x002) = none → ∃ t, exec (.dbgauthWrite c rt) s = .next t ∧
       t.dbgPolicy = fld v 3 0 ∧ (getCore t c).resv = (getCore u c).resv ∧ kept t [] ∧
       (∀ c', c' ≠ c.val → getCore t c' = (if (getCore u c').halted = true ∧ invasive t (secOf (getCore u c')) = false
         then { getCore u c' with halted := false } else getCore u c')) ∧
       (dbgEff t = dbgEff u → t.hlog = u.hlog) ∧
       (dbgEff t ≠ dbgEff u → u.hlog.pend.length < 32 → ∃ r, t.hlog = { u.hlog with pend := u.hlog.pend ++ [r] } ∧ r.typ = 0x0021 ∧
         r.arg = dbgEff u * 16 + dbgEff t) ∧
       { t with
         cores := u.cores
         freeCtr := u.freeCtr
         hlog := u.hlog
         dbgPolicy := u.dbgPolicy } = u) ∧
     (sysCheck u c rt.toNat 0x933 true (wordS ⟨rt, 0x933⟩ 0x002) = none → (getCore u c).sb = [] →
       let a := fld (sysGet u c 0x933 false) 51 8 * 4
       let b := fld v 51 8 * 4
       let open_ := fun (x : CLine) => x.sec = true → secOf (getCore u c) = true
       (bit v 1 = true → ∀ i, i < 3 → let x := hline u c (a + i)
         (x.st = .m ∨ x.st = .e) ∧ x.err = false ∧ open_ x) →
       (bit v 0 = true → ∀ i, i < 3 → let x := hline u c (b + i)
         validSt x.st = true ∧ x.poison = false ∧ open_ x) →
       (bit v 0 = true → bit v 1 = true → a ≠ b) →
       ∃ t, exec (.cntsaveWrite c rt) s = .next t ∧ fld (sysGet t c 0x933 false) 51 8 = fld v 51 8 ∧
         kept t (0x933 :: (if bit v 0 then cntBlock else [])) ∧
         (bit v 0 = true → ∀ k, k = 0 ∨ (10 ≤ k ∧ k < 21 ∧ k ≠ 19) → let n := cntBlock.getD k 0
           sysGet t c n false = writeFields (((sysInfo n).map (·.fields)).getD []) false 0
             (BitVec.ofNat 64 (lineGet (hline u c (b + k / 8)).data (8 * (k % 8)) 8))) ∧
         (bit v 1 = true →
           (∀ k, k < 21 → lineGet (hline t c (a + k / 8)).data (8 * (k % 8)) 8 = (sysGet u c (cntBlock.getD k 0) false).toNat) ∧
           ∀ j, 40 ≤ j → j < 64 → lineByte (hline t c (a + 2)).data j = lineByte (hline u c (a + 2)).data j) ∧
         (∀ h l, l < 2 ^ 46 → bit v 1 = false ∨ h ≠ c.val ∨ l < a ∨ a + 2 < l → hline t h l = hline u h l) ∧
         (∀ c', c' ≠ c.val → { getCore t c' with resv := (getCore u c').resv } = getCore u c') ∧
         { t with
           cores := u.cores
           freeCtr := u.freeCtr
           lines := u.lines } = u)) ∧
  (∀ (c : CoreId) (s : State), Runs s c → c.val ≠ 240 →
     let u := fetched s c
     let w := secOf (getCore u c)
     let kept := fun (t : State) => (getCore t c).pc = pcNext s c ∧ CoreOnly c u t ∧ (getCore t c).resv = (getCore u c).resv ∧
       (∀ r, dGet t c r = dGet u c r) ∧ (∀ r, aGet t c r = aGet u c r) ∧ (∀ r, qGet t c r = qGet u c r)
     (∀ o : OpS, o.sys = 0 →
       (∃ t, exec (.wrpkey c o) s = .next t ∧ kept t ∧ (getCore t c).cstat = (getCore u c).cstat ∧
         sysGet t c 0x006 w = ((dGet u c o.rt.toNat).setWidth 32).setWidth 64 ∧ sysGet t c 0x006 (!w) = sysGet u c 0x006 (!w) ∧
         (∀ n x, n < 0x1000 → isCounter n = false → n ≠ 0x006 → sysGet t c n x = sysGet u c n x)) ∧
       (∃ t, exec (.rdpkey c o) s = .next t ∧
         Retired c u t (dUpd (dGet u c) o.rt.toNat (sysGet u c 0x006 w)) (aGet u c) (qGet u c) (pcNext s c))) ∧
     (plOf (getCore u c) = 1 → ∀ p ∈ ([(.uaccOn c ⟨0, 0⟩, true), (.uaccOff c ⟨0, 0⟩, false)] : List (Instr × Bool)),
       ∃ t, exec p.1 s = .next t ∧ kept t ∧
         (∀ i, bit (getCore t c).cstat i = if i = 6 then p.2 else bit (getCore u c).cstat i) ∧
         (∀ n x, n < 0x1000 → isCounter n = false → sysGet t c n x = sysGet u c n x)))

/-- R235, R85, R130, R213, R238: BAR.LD and BAR.ST retire at once, BAR.ST dividing later stores from earlier ones; BAR.ALL retires when the store buffer
is empty and no maintenance is outstanding, BAR.DEV when no DEV store is left, BAR.SYNC when also no TLB invalidation is outstanding, and then every
written system register is in effect. While its condition does not hold a barrier waits and the PC stands. R133, R168, R550, R551: WAIT in a
privileged mode leaves the core waiting with its PC on the instruction; an event that ends it lets the instruction retire; a core whose CPWR.WAITST
is HOLD and that an access woke begins to close again, which takes it to HOLD, when none has come for 1 µs (R330). Where these rules are silent it
states the model's choice (log entry 7). -/
def Obligations.BarriersAndWaiting : Prop :=
  (∀ (c : CoreId) (s : State), Runs s c →
     let u := fetched s c
     let k := getCore u c
     (∃ t, exec (.barLd c ⟨0, 0⟩) s = .next t ∧ Retired c u t (dGet u c) (aGet u c) (qGet u c) (pcNext s c)) ∧
     (∃ t, exec (.barSt c ⟨0, 0⟩) s = .next t ∧ Retired c u t (dGet u c) (aGet u c) (qGet u c) (pcNext s c) ∧
       (getCore t c).stEpoch = k.stEpoch + 1) ∧
     (k.sb = [] → k.maint = [] → ∃ t, exec (.barAll c ⟨0, 0⟩) s = .next t ∧
       Retired c u t (dGet u c) (aGet u c) (qGet u c) (pcNext s c)) ∧
     ((∀ e ∈ k.sb, e.dev = false) → ∃ t, exec (.barDev c ⟨0, 0⟩) s = .next t ∧
       Retired c u t (dGet u c) (aGet u c) (qGet u c) (pcNext s c)) ∧
     (k.sb = [] → k.maint = [] → k.tinvOut = [] → ∃ t, exec (.barSync c ⟨0, 0⟩) s = .next t ∧
       Retired c u t (dGet u c) (aGet u c) (qGet u c) (pcNext s c) ∧
       ∀ n w, n < 0x1000 → isCounter n = false → sysEff t c n w = sysGet u c n w) ∧
     (k.sb ≠ [] → ∃ t, exec (.barAll c ⟨0, 0⟩) s = .next t ∧ t = setCore u c { k with bar := some .all }) ∧
     (k.tinvOut ≠ [] → ∃ t, exec (.barSync c ⟨0, 0⟩) s = .next t ∧ t = setCore u c { k with bar := some .sync })) ∧
  ((∀ (c : CoreId) (s : State), Runs s c →
     let u := fetched s c
     1 ≤ plOf (getCore u c) → waitst u c = 0 →
     ∃ t, exec (.wait c ⟨0, 0⟩) s = .next t ∧ t = setCore u c { getCore u c with waiting := true }) ∧
   (∀ (c : CoreId) (s : State), (getCore s c).waiting = true → (getCore s c).stopped = false → (getCore s c).held = false →
     (getCore s c).inReset = false → bit (getCore s c).cstat 7 = false → (getCore s c).stepping = false → rgF s .dstate c 2 0 = 0 →
     ((getCore s c).defErr.isSome = true ∨ (getCore s c).haltPend = true ∨ signalled s c ≠ []) →
     ∃ t, exec (.waitEnd c) s = .next t ∧ (getCore t c).waiting = false ∧
       Retired c s t (dGet s c) (aGet s c) (qGet s c) (trunc c ((getCore s c).pc + 4))) ∧
   (∀ (c : CoreId) (i : Nat) (s : State), c.val ≠ 240 → (getCore s c).waiting = true → waitst s c = 1 → (getCore s c).idleSince = some i →
     i + 1000 ≤ s.ptime.toNat → (getCore s c).sb = [] → (getCore s c).acc = none → (getCore s c).maint = [] → (getCore s c).defErr = none →
     (∀ o ∈ s.outst, o.stop ≠ coreStop c) → rgF s .dstate c 2 0 = 0 →
     ∃ t, exec (.coreIdleReturn c) s = .next t ∧ rgF t .dstate c 2 0 = 4 ∧ getCore t c = getCore s c))

/-- R129, R130, R211: a TLB invalidation at PL1 of a package alone in its cascade queues its scope for every core of the package that holds
translations, and the issuing core awaits each of them: by virtual address, ASID, VMID, or everything of the VMID. Nothing else of the core changes
but the PC. At a target the entries in scope go and no other, and the issuing core no longer awaits it. Where these rules are silent it states the
model's choice (log entry 22). -/
def Obligations.TlbInvalidation : Prop :=
  (∀ (c : CoreId) (rt : BitVec 5) (s : State), Runs s c → c.val ≠ 240 →
    let u := fetched s c
    let w := secOf (getCore u c)
    let v := dGet u c rt.toNat
    plOf (getCore u c) = 1 → bit (sysEff u c 0x501 w) 1 = false → (getCore u c).sb = [] → (∀ p ∈ u.admitted, p = u.pkg) →
    let vm := if bit (sysEff u c 0x500 w) 0 then fld (sysEff u c 0x421 w) 63 48 else 0
    let base : Tinv := { kind := .vmid, worlds := [w], regimes := [1], vmid := some vm, asid := 0, allAsid := false, last := false,
                         vpn := 0, from_ := c }
    ∀ p ∈ ([(.tinvVa c ⟨rt, 0⟩, { base with kind := .va, asid := fld v 60 45, allAsid := bit v 61, last := bit v 62, vpn := fld v 44 0 }),
        (.tinvAsid c ⟨rt, 0⟩, { base with kind := .asid, asid := fld v 15 0 }),
        (.tinvVmid c ⟨rt, 0⟩, base), (.tinvAll c ⟨0, 0⟩, base)] : List (Instr × Tinv)),
      ∃ t, exec p.1 s = .next t ∧ (getCore t c).pc = pcNext s c ∧
        t.tinvQ = u.tinvQ ++ (tinvTargets u).map (fun x => (x, p.2)) ∧ (getCore t c).tinvOut = (getCore u c).tinvOut ++ tinvTargets u ∧
        (∀ r, dGet t c r = dGet u c r) ∧ (∀ r, aGet t c r = aGet u c r) ∧ (getCore t c).cstat = (getCore u c).cstat ∧
        (∀ c', c' ≠ c.val → getCore t c' = getCore u c')) ∧
  (∀ (c : CoreId) (x : Tinv) (s : State), s.tinvQ.find? (fun p => p.1 == c.val) = some (c.val, x) →
    ∃ t, exec (.tinvBc c) s = .next t ∧ t.tinvQ = s.tinvQ.erase (c.val, x) ∧
      (getCore t c).tlb = (getCore s c).tlb.filter (fun e => !(tinvHits x e)) ∧
      (x.from_ ≠ c.val → x.from_ ≤ 240 → (getCore t x.from_).tinvOut = (getCore s x.from_).tinvOut.erase c.val))

/-- R158, R162, R165: a failed stage check is counted and the core goes on; the eighth in succession, and a parity error in retired state, stop the core
and raise its stack's stopped source. When the drain window of a reset core has ended, what has not left the buffer (a store that waits for its line
has not) is discarded and counted in RSTLOSS with the reset's kind. R143, R145, R146, R150: a write of VREQ keeps [11:0] and moves the stack's
setpoint; the supply takes the setpoint when it arrives; an evaluation 24 h of operation in POUR or more after the last raises the aging offset
towards that of the drift by at most 5 mV and never lowers it. Where these rules are silent it states the model's choice (log entries 17 and 44). -/
def Obligations.CoreFailuresAndSupply : Prop :=
  ((∀ (c : CoreId) (s : State), (getCore s c).held = false → (getCore s c).inReset = false → (getCore s c).stopped = false →
     ((getCore s c).fails < 7 → ∃ t, exec (.stageCheckFail c false) s = .next t ∧ (getCore t c).fails = (getCore s c).fails + 1 ∧
       (getCore t c).reexec = min ((getCore s c).reexec + 1) 65535 ∧ (getCore t c).pc = (getCore s c).pc ∧
       (∀ r, dGet t c r = dGet s c r) ∧ (getCore t c).cstat = (getCore s c).cstat ∧ CoreOnly c s t) ∧
     (7 ≤ (getCore s c).fails → ∃ t, exec (.stageCheckFail c false) s = .next t ∧ (getCore t c).stopped = true) ∧
     (∃ t, exec (.retiredStateParityError c) s = .next t ∧ (getCore t c).stopped = true ∧
       (c.val ≠ 240 → bit (rg t .intsrc (32 * (c.val / 20))) 1 = true))) ∧
   (∀ (c : CoreId) (t0 : Nat) (s : State), c.val ≠ 240 → (getCore s c).drainFrom = some t0 → t0 + 100000 ≤ s.ptime.toNat →
     let lost := ((getCore s c).sb.filter (fun e => !(e.sent && (e.dev || e.nc)))).length
     let old := fld (sysGet s c 0x610 false) 31 0
     ∃ t, exec (.drainWindowEnd c) s = .next t ∧ (getCore t c).drainFrom = none ∧ (getCore t c).sb = (getCore s c).sb.filter (fun e => e.sent && (e.dev || e.nc)) ∧
       (0 < lost → fld (sysGet t c 0x610 false) 31 0 = min (old + lost) (2 ^ 32 - 1) ∧
         fld (sysGet t c 0x610 false) 63 62 = (getCore s c).rstKind % 4) ∧
       (lost = 0 → sysGet t c 0x610 false = sysGet s c 0x610 false))) ∧
  ((∀ (b : By) (n : StackId) (v : Word) (s : State), bySec b = true ∨ ownStk s n = false →
     ∃ t, exec (.vreqWrite b n v) s = .next t ∧ rgF t .vreq n 11 0 = fld v 11 0 ∧ (stkOf t n).setpoint = stkSetpoint t n ∧
       (stkOf t n).supply = (stkOf s n).supply ∧ ((stkOf t n).setpoint ≠ (stkOf s n).setpoint →
         (stkOf t n).slewing = ((stkOf s n).slewing || decide ((stkOf t n).setpoint ≠ (stkOf t n).supply))) ∧
       (∀ m, m ≠ n.val → stkOf t m = stkOf s m)) ∧
   (∀ (n : StackId) (s : State), (stkOf s n).slewing = true →
     ∃ t, exec (.supplyArrives n) s = .next t ∧ (stkOf t n).supply = (stkOf s n).setpoint ∧ (stkOf t n).slewing = false ∧
       (∀ m, m ≠ n.val → stkOf t m = stkOf s m)) ∧
   (∀ (n : StackId) (ds : List Nat) (fd : Nat) (s : State), rgF s .pkgstat 0 10 8 = 0 → s.features.testBit 9 = true →
     (stkOf s n).ageAt + 86400000000000 ≤ pourTime s → s.fabAgeAt + 86400000000000 ≤ pourTime s →
     ∃ t, exec (.agingEvaluation n ds fd) s = .next t ∧ (stkOf t n).ageAt = pourTime s ∧ t.fabAgeAt = pourTime s ∧
       (stkOf s n).ageOff ≤ (stkOf t n).ageOff ∧ (stkOf t n).ageOff ≤ (stkOf s n).ageOff + 5 ∧
       s.fabOff ≤ t.fabOff ∧ t.fabOff ≤ s.fabOff + 5 ∧ t.fabDrift = fd))

/-- R221, R228, R239, R277: a store to a line held in M leaves the buffer and its bytes, and no others, are in the line; a DEV store to a device leaves
as DEV_WR to its destination and stays until it completes; one that completes with error goes and leaves a deferred BUS_ERROR with its address.
Where these rules are silent it states the model's choice (log entry 15). -/
def Obligations.StoreBufferDrain : Prop :=
  (∀ (c : CoreId) (e : SbEntry) (s : State), c.val ≠ 240 → (getCore s c).sb = [e] → (getCore s c).bar = none → (getCore s c).waiting = false →
    e.sent = false →
    (e.dev = false → e.nc = false → isLocalMem s e.pa = true → (hline s c (e.pa / 64)).st = .m →
      ((hline s c (e.pa / 64)).sec = true → e.world = true) →
      ∃ t, exec (.storeBufferDrain c 0 .none_) s = .next t ∧ (getCore t c).sb = [] ∧ (hline t c (e.pa / 64)).st = .m ∧
        (∀ j, j < 64 → lineByte (hline t c (e.pa / 64)).data j =
          if e.mask.testBit j then lineByte e.data j else lineByte (hline s c (e.pa / 64)).data j) ∧
        (∀ h l, h * 2 ^ 46 + l ≠ c.val * 2 ^ 46 + e.pa / 64 → hline t h l = hline s h l) ∧ t.dram = s.dram) ∧
    (e.dev = true → isLocalMem s e.pa = false → isRemoteMem s e.pa = false → ∃ t p, exec (.storeBufferDrain c 0 .none_) s = .next t ∧ t.net = s.net ++ [p] ∧ p.cmd = .devWr ∧
      p.src = coreStop c ∧ p.dst = devStop s e.pa ∧ p.addr = e.pa ∧ (getCore t c).sb = [{ e with sent := true, txid := p.txid }] ∧
      t.lines = s.lines ∧ t.dram = s.dram)) ∧
  (∀ (c : CoreId) (e : SbEntry) (s : State), c.val ≠ 240 → (getCore s c).sb = [e] → (getCore s c).bar = none → e.dev = true → e.sent = true →
    (getCore s c).inReset = false → (getCore s c).defErr = none →
    ∃ t d, exec (.devStoreErrorCompletion c 0) s = .next t ∧ (getCore t c).sb = [] ∧ (getCore t c).defErr = some d ∧
      d.eaddr = BitVec.ofNat 64 e.va ∧ d.ephys = BitVec.ofNat 64 e.pa ∧ d.esyn = 0x207C000000000000)

/-- R60, R67: the effective address and the base's new value in each of the four modes of the M format, and the address of the N format: a bank register
plus the offset times the access size, with no writeback. R96, R80, R57: with CORECTL.ACHK set a misaligned access raises DATA_ALIGN at the local
target with its address, WNR telling a store from a load, and nothing is loaded or stored; an accumulator load where Q instructions are disabled
raises Q_DISABLED. -/
def Obligations.AddressesAndAccessFaults : Prop :=
  (∀ (c : CoreId) (u : State) (size : Nat), c.val ≠ 240 → 
     (∀ o : OpM,
       let base := aGet u c o.ab.toNat
       let off := o.imm.signExtend 64 * BitVec.ofNat 64 size
       (o.mode = 0 → eaM u c o size = ⟨(base + off).toNat, none⟩) ∧
       (o.mode = 1 → eaM u c o size = ⟨(base + off).toNat, some (base + off)⟩) ∧
       (o.mode = 2 → eaM u c o size = ⟨base.toNat, some (base + off)⟩) ∧
       (o.mode = 3 → eaM u c o size =
         ⟨(base + (dGet u c (o.imm.extractLsb' 10 5).toNat <<< (o.imm.extractLsb' 8 2).toNat)).toNat, none⟩)) ∧
     (∀ o : OpN, eaN u c o size = (sysGet u c (0x010 + o.bk.toNat) (accWorld u c) + o.off.setWidth 64 * BitVec.ofNat 64 size).toNat)) ∧
  (∀ (c : CoreId) (e : Seen) (o : OpM) (s : State), Runs s c → c.val ≠ 240 → okM c o false = true →
     let u := fetched s c
     let pl := plOf (getCore u c)
     let off := if pl = 0 then 0x200 else 0x100
     (bit (sysEff u c 0x600 (secOf (getCore u c))) 1 = true →
       ∀ q ∈ ([(.ldH c o e, 2, 0x0A1C000000000000), (.ldW c o e, 4, 0x0A1C000000000000), (.ldD c o e, 8, 0x0A1C000000000000),
           (.stH c o e, 2, 0x0A5C000000000000), (.stW c o e, 4, 0x0A5C000000000000), (.stD c o e, 8, 0x0A5C000000000000)] :
           List (Instr × Nat × Word)),
         (eaM u c o q.2.1).ea % q.2.1 ≠ 0 →
         ∃ t, exec q.1 s = .next t ∧
           Entered c u t (max 1 pl) (getCore u c).pc q.2.2 (BitVec.ofNat 64 (eaM u c o q.2.1).ea) off) ∧
     (o.rt.toNat < 8 → ∀ lvl, qDisabled u c = some lvl →
       ∃ t, exec (.ldQ c o e) s = .next t ∧
         Entered c u t lvl (getCore u c).pc (BitVec.ofNat 64 (0x081C000000000000 + wordM 0x2A o)) 0 (if lvl = pl then 0x100 else 0x200)))

/-- R60, R67, R95, R97, R224: a load of normal memory that the core holds reads the bytes as the core sees them, its own buffered stores included, into
a D register (zero-extended), an A register or a Q register, and writes back the base where the mode says so; the PC advances and nothing else
changes (frame). Where these rules are silent it states the model's choice (log entries 7 and 8). -/
def Obligations.LoadResults : Prop :=
  ∀ (c : CoreId) (e : Seen) (s v : State) (p : Piece), Runs s c → c.val ≠ 240 → e.arr = .none_ →
    let u := fetched s c
    let line := p.pa / 64
    let pc' := (getCore v c).pc + 4
    let value (n : Nat) : Nat := lineGet (overlay (getCore v c) line (hline v c line).data) (p.pa % 64) n
    let wb (o : OpM) (n : Nat) : Nat → Word := match (eaM u c o n).wb with
      | some b => regUpd (aGet v c) o.ab.toNat b
      | none => aGet v c
    Usable v c line →
    (∀ o : OpM, ∀ q ∈ ([(.ldB c o e, 1), (.ldH c o e, 2), (.ldW c o e, 4), (.ldD c o e, 8)] : List (Instr × Nat)),
      okM c o false = true → Access u v c (eaM u c o q.2).ea q.2 .read .plain e.fresh p →
      ∃ t, exec q.1 s = .next t ∧
        Retired c v t (dUpd (dGet v c) o.rt.toNat (BitVec.ofNat 64 (value q.2))) (wb o q.2) (qGet v c) pc') ∧
    (∀ o : OpM, o.rt.toNat < 16 → okM c o true = true → Access u v c (eaM u c o 8).ea 8 .read .plain e.fresh p →
      ∃ t, exec (.ldA c o e) s = .next t ∧
        Retired c v t (dGet v c) (regUpd (wb o 8) o.rt.toNat (BitVec.ofNat 64 (value 8))) (qGet v c) pc') ∧
    (∀ o : OpM, o.rt.toNat < 8 → okM c o false = true → qDisabled u c = none →
      Access u v c (eaM u c o 32).ea 32 .read .q e.fresh p →
      ∃ t, exec (.ldQ c o e) s = .next t ∧
        Retired c v t (dGet v c) (wb o 32) (regUpd (qGet v c) o.rt.toNat (BitVec.ofNat 256 (value 32))) pc') ∧
    (∀ o : OpN, ∀ q ∈ ([(.ldnB c o e, 1), (.ldnH c o e, 2), (.ldnW c o e, 4), (.ldnD c o e, 8)] : List (Instr × Nat)),
      Access u v c (eaN u c o q.2) q.2 .read .plain e.fresh p →
      ∃ t, exec q.1 s = .next t ∧
        Retired c v t (dUpd (dGet v c) o.rt.toNat (BitVec.ofNat 64 (value q.2))) (aGet v c) (qGet v c) pc')

/-- R60, R67, R95, R164, R217, R224: a store of normal memory retires into the store buffer: from then on the core sees the low bytes of the register at
the address stored to, and every other byte as before; memory and the core's lines are untouched; the base is written back where the mode says so;
the PC advances and nothing else changes (frame). Where these rules are silent it states the model's choice (log entry 15). -/
def Obligations.StoreResults : Prop :=
  ∀ (c : CoreId) (e : Seen) (s v : State) (p : Piece), Runs s c → c.val ≠ 240 → (getCore v c).sb.length < 64 →
    let u := fetched s c
    let wb (o : OpM) (n : Nat) : Nat → Word := match (eaM u c o n).wb with
      | some b => regUpd (aGet v c) o.ab.toNat b
      | none => aGet v c
    let seen (t : State) (n x : Nat) : Prop := ∀ line j, j < 64 → ownView t c line j =
      if line = p.pa / 64 ∧ p.pa % 64 ≤ j ∧ j < p.pa % 64 + n then BitVec.ofNat 8 (x / 2 ^ (8 * (j - p.pa % 64))) else ownView v c line j
    (∀ o : OpM, ∀ q ∈ ([(.stB c o e, 1), (.stH c o e, 2), (.stW c o e, 4), (.stD c o e, 8)] : List (Instr × Nat)),
      okM c o false = true → Access u v c (eaM u c o q.2).ea q.2 .write .plain e.fresh p →
      ∃ t, exec q.1 s = .next t ∧ Retired c v t (dGet v c) (wb o q.2) (qGet v c) ((getCore v c).pc + 4) ∧
        seen t q.2 (dGet u c o.rt.toNat).toNat) ∧
    (∀ o : OpM, o.rt.toNat < 16 → okM c o true = true → Access u v c (eaM u c o 8).ea 8 .write .plain e.fresh p →
      ∃ t, exec (.stA c o e) s = .next t ∧ Retired c v t (dGet v c) (wb o 8) (qGet v c) ((getCore v c).pc + 4) ∧
        seen t 8 (aGet u c o.rt.toNat).toNat) ∧
    (∀ o : OpM, o.rt.toNat < 8 → okM c o false = true → qDisabled u c = none →
      Access u v c (eaM u c o 32).ea 32 .write .q e.fresh p →
      ∃ t, exec (.stQ c o e) s = .next t ∧ Retired c v t (dGet v c) (wb o 32) (qGet v c) ((getCore v c).pc + 4) ∧
        seen t 32 (qGet u c o.rt.toNat).toNat) ∧
    (∀ o : OpN, ∀ q ∈ ([(.stnB c o e, 1), (.stnH c o e, 2), (.stnW c o e, 4), (.stnD c o e, 8)] : List (Instr × Nat)),
      Access u v c (eaN u c o q.2) q.2 .write .plain e.fresh p →
      ∃ t, exec q.1 s = .next t ∧ Retired c v t (dGet v c) (aGet v c) (qGet v c) ((getCore v c).pc + 4) ∧
        seen t q.2 (dGet u c o.rt.toNat).toNat)

/-- R99 to R107: the block-repeat instructions. With a count of 0 each completes at once without an access, CMPB and SCANB giving 0. Otherwise one
element is done: MOVB copies it, FILLB writes the low bytes of Dv, to the address in the first A register; CMPB and SCANB read it and end, giving
the count that was left and clearing the count, where the elements differ or the value is found. After an element that does not end the instruction
the pointers have moved by the element size and the count is one less; the PC advances when the count has reached 0, and stands otherwise. Nothing
else changes (frame). Where these rules are silent it states the model's choice (log entry 19). -/
def Obligations.BlockRepeatElements : Prop :=
  ∀ (c : CoreId) (o : OpR) (e : Seen) (s : State), Runs s c → c.val ≠ 240 → o.rs1.toNat < 16 → o.res = false →
    let u := fetched s c
    let size := 2 ^ o.sz.toNat
    let n := dGet u c o.rd.toNat
    let a1 := aGet u c o.rs1.toNat
    let a2 := aGet u c o.rs2.toNat
    let res (D : Nat → Word) (x : Word) : Nat → Word := if o.dr = 0 then D else dUpd D o.dr.toNat x
    (n = 0 → ∀ g k,
      (o.dr = 0 → o.rs2.toNat < 16 → ∃ t, exec (.movb c o g k e) s = .next t ∧ Retired c u t (dGet u c) (aGet u c) (qGet u c) (pcNext s c)) ∧
      (o.dr = 0 → ∃ t, exec (.fillb c o g k e) s = .next t ∧ Retired c u t (dGet u c) (aGet u c) (qGet u c) (pcNext s c)) ∧
      ((o.dr = 0 ∨ o.dr ≠ o.rd) → o.rs2.toNat < 16 → ∃ t, exec (.cmpb c o g k e) s = .next t ∧
        Retired c u t (res (dGet u c) 0) (aGet u c) (qGet u c) (pcNext s c)) ∧
      ((o.dr = 0 ∨ o.dr ≠ o.rd) → ∃ t, exec (.scanb c o g k e) s = .next t ∧
        Retired c u t (res (dGet u c) 0) (aGet u c) (qGet u c) (pcNext s c))) ∧
    (n ≠ 0 → e.arr = .none_ → ∀ (v1 v : State) (p q : Piece),
      let pc' := if n = 1 then (getCore v c).pc + 4 else (getCore v c).pc
      let elem (p : Piece) : Nat := lineGet (overlay (getCore v c) (p.pa / 64) (hline v c (p.pa / 64)).data) (p.pa % 64) size
      let D := dUpd (dGet v c) o.rd.toNat (dGet v c o.rd.toNat - 1)
      let A := regUpd (aGet v c) o.rs1.toNat (aGet v c o.rs1.toNat + BitVec.ofNat 64 size)
      let A2 := regUpd A o.rs2.toNat (aGet v c o.rs2.toNat + BitVec.ofNat 64 size)
      let seen (t : State) (x : Nat) : Prop := ∀ line j, j < 64 → ownView t c line j =
        if line = p.pa / 64 ∧ p.pa % 64 ≤ j ∧ j < p.pa % 64 + size then BitVec.ofNat 8 (x / 2 ^ (8 * (j - p.pa % 64))) else ownView v c line j
      dGet v c o.rd.toNat = n → (getCore v c).sb.length < 60 →
      (o.dr = 0 → o.rs2.toNat < 16 → Access u v1 c a2.toNat size .read .block e.fresh q → Access v1 v c a1.toNat size .write .block e.fresh p →
        Usable v c (q.pa / 64) → ∃ t, exec (.movb c o 1 1 e) s = .next t ∧ Retired c v t D A2 (qGet v c) pc' ∧ seen t (elem q)) ∧
      (o.dr = 0 → Access u v c a1.toNat size .write .block e.fresh p →
        ∃ t, exec (.fillb c o 1 1 e) s = .next t ∧ Retired c v t D A (qGet v c) pc' ∧ seen t (dGet v c o.rs2.toNat).toNat) ∧
      ((o.dr = 0 ∨ o.dr ≠ o.rd) → o.rs2.toNat < 16 → Access u v1 c a2.toNat size .read .block e.fresh q →
        Access v1 v c a1.toNat size .read .block e.fresh p → Usable v c (q.pa / 64) → Usable v c (p.pa / 64) →
        ∃ t, exec (.cmpb c o 1 1 e) s = .next t ∧
          (elem p = elem q → Retired c v t (if n = 1 then res D 0 else D) A2 (qGet v c) pc') ∧
          (elem p ≠ elem q → Retired c v t (dUpd (res (dGet v c) n) o.rd.toNat 0) (aGet v c) (qGet v c) ((getCore v c).pc + 4))) ∧
      ((o.dr = 0 ∨ o.dr ≠ o.rd) → Access u v c a1.toNat size .read .block e.fresh p → Usable v c (p.pa / 64) →
        let x := (dGet v c o.rs2.toNat).toNat % 2 ^ (8 * size)
        ∃ t, exec (.scanb c o 1 1 e) s = .next t ∧
          (elem p ≠ x → Retired c v t (if n = 1 then res D 0 else D) A (qGet v c) pc') ∧
          (elem p = x → Retired c v t (dUpd (res (dGet v c) n) o.rd.toNat 0) (aGet v c) (qGet v c) ((getCore v c).pc + 4))))

/-- R55 to R57, R109 to R111: the accumulator instructions. Lanes are 64 bits wide with LN 0b00 and 32 with LN 0b01. The lane-wise operations act lane
by lane; QINS replaces one lane, QEXT reads one, QBCAST fills all, QSUM adds all modulo 2^64; QCLMUL is the carry-less product of R110 of the low
lanes of each half; QCRC32C continues the CRC over the 32 bytes in ascending order; QPOPCT counts all 256 bits. The PC advances and nothing else
changes (frame). -/
def Obligations.AccumulatorResults : Prop :=
  ∀ (c : CoreId) (o : OpY) (l : BitVec 3) (s : State), Runs s c → c.val ≠ 240 → qDisabled (fetched s c) c = none → o.ln.toNat < 2 →
    let u := fetched s c
    let w := if o.ln = 0 then 64 else 32
    let lanes := 256 / w
    let Q := qGet u c
    let D := dGet u c
    let setQ (i : Instr) (ok : QWord → Prop) : Prop := ∃ t x, exec i s = .next t ∧
      Retired c u t D (aGet u c) (regUpd Q o.qd.toNat x) (pcNext s c) ∧ ok x
    let setD (i : Instr) (x : Word) : Prop := ∃ t, exec i s = .next t ∧
      Retired c u t (dUpd D o.rx.toNat x) (aGet u c) Q (pcNext s c)
    let at_ (q : QWord) (i : Nat) : BitVec w := q.extractLsb' (w * i) w
    let a := Q o.qs1.toNat
    let b := Q o.qs2.toNat
    (o.rx = 0 →
      (∀ p ∈ ([(.qadd c o, fun x y => x + y), (.qsub c o, fun x y => x - y), (.qmul c o, fun x y => x * y), (.qand c o, fun x y => x &&& y),
          (.qor c o, fun x y => x ||| y), (.qxor c o, fun x y => x ^^^ y)] : List (Instr × (BitVec w → BitVec w → BitVec w))),
        setQ p.1 (fun x => ∀ i, i < lanes → at_ x i = p.2 (at_ a i) (at_ b i))) ∧
      setQ (.qmac c o) (fun x => ∀ i, i < lanes → at_ x i = at_ (Q o.qd.toNat) i + at_ a i * at_ b i)) ∧
    (o.rx = 0 → o.qs1 = 0 → o.qs2 = 0 → setQ (.qzero c o) (fun x => x = 0)) ∧
    (o.rx = 0 → o.qs2 = 0 → setQ (.qpopc c o) (fun x => ∀ i, i < lanes →
      (at_ x i).toNat = ((List.range w).filter (fun k => (at_ a i).getLsbD k)).length)) ∧
    (o.qs1 = 0 → o.qs2 = 0 → l.toNat < lanes → setQ (.qins c o l) (fun x => ∀ i, i < lanes →
      at_ x i = if i = l.toNat then (D o.rx.toNat).setWidth w else at_ (Q o.qd.toNat) i)) ∧
    (o.qd = 0 → o.qs2 = 0 → l.toNat < lanes → setD (.qext c o l) ((at_ a l.toNat).setWidth 64)) ∧
    (o.qs1 = 0 → o.qs2 = 0 → setQ (.qbcast c o 0) (fun x => ∀ i, i < lanes → at_ x i = (D o.rx.toNat).setWidth w)) ∧
    (o.rx = 0 → o.qs2 = 0 → setQ (.qmov c o 0) (fun x => x = a)) ∧
    (o.qd = 0 → o.qs2 = 0 → setD (.qsum c o 0) (BitVec.ofNat 64 (((List.range lanes).map (fun i => (at_ a i).toNat)).sum))) ∧
    (o.rx = 0 → o.ln = 0 → setQ (.qclmul c o) (fun x => ∀ h k, h < 2 → k < 128 →
      x.getLsbD (128 * h + k) = (((List.range (k + 1)).filter (fun i =>
        decide (i < 64) && decide (k - i < 64) && a.getLsbD (128 * h + i) && b.getLsbD (128 * h + (k - i)))).length % 2 == 1))) ∧
    (o.qd = 0 → o.qs2 = 0 → o.ln = 0 → setD (.qcrc32c c o) (BitVec.ofNat 64 ((List.range 32).foldl (fun crc i =>
      (List.range 8).foldl (fun x _ => (x >>> 1) ^^^ (if x % 2 = 1 then 0x82F63B78 else 0)) (crc ^^^ (a.toNat / 2 ^ (8 * i) % 256)))
      ((D o.rx.toNat).toNat % 2 ^ 32)))) ∧
    (o.qd = 0 → o.qs2 = 0 → o.ln = 0 → setD (.qpopct c o)
      (BitVec.ofNat 64 ((List.range 256).filter (fun k => a.getLsbD k)).length))

/-- R112 to R116, R294: an atomic operation performed at the core, on a line it holds in M or E: the old value of the location, zero-extended, goes to
the destination, and the location takes the new value the table of chapter 03 gives for each of the ten operations; no other byte of the line and no
other line changes. Where these rules are silent it states the model's choice (log entry 8). -/
def Obligations.NearAtomicResults : Prop :=
  ∀ (c : CoreId) (o : OpAt) (e : Seen) (s v : State) (p : Piece), Runs s c → c.val ≠ 240 → e.arr = .none_ →
    o.rs1.toNat < 16 → o.res = 0 → (o.sz = 2 ∨ o.sz = 3) →
    let u := fetched s c
    let size := if o.sz = 2 then 4 else 8
    let w := 8 * size
    let x := hline v c (p.pa / 64)
    let old : BitVec w := BitVec.ofNat w (lineGet x.data (p.pa % 64) size)
    Access u v c (aGet u c o.rs1.toNat).toNat size .rw .atomic e.fresh p → placeFar v c p.atp = false → (getCore v c).sb = [] →
    Usable v c (p.pa / 64) → (x.st = .m ∨ x.st = .e) →
    ∀ q ∈ ([(.aswp c o e, fun _ y _ => y), (.aadd c o e, fun m y _ => m + y), (.aand c o e, fun m y _ => m &&& y),
        (.aor c o e, fun m y _ => m ||| y), (.axor c o e, fun m y _ => m ^^^ y),
        (.asmax c o e, fun m y _ => if y.toInt ≤ m.toInt then m else y), (.asmin c o e, fun m y _ => if m.toInt ≤ y.toInt then m else y),
        (.aumax c o e, fun m y _ => if y.toNat ≤ m.toNat then m else y), (.aumin c o e, fun m y _ => if m.toNat ≤ y.toNat then m else y),
        (.acas c o e, fun m y k => if m = k then y else m)] : List (Instr × (BitVec w → BitVec w → BitVec w → BitVec w))),
      ∃ t, exec q.1 s = .next t ∧ (getCore t c).pc = (getCore v c).pc + 4 ∧
        (∀ r, dGet t c r = dUpd (dGet v c) o.rd.toNat (old.setWidth 64) r) ∧ (∀ r, aGet t c r = aGet v c r) ∧
        (getCore t c).cstat = (getCore v c).cstat ∧ (hline t c (p.pa / 64)).st = .m ∧
        lineGet (hline t c (p.pa / 64)).data (p.pa % 64) size =
          (q.2 old ((dGet v c o.rs2.toNat).setWidth w) ((dGet v c o.rd.toNat).setWidth w)).toNat ∧
        (∀ j, j < 64 → (j < p.pa % 64 ∨ p.pa % 64 + size ≤ j) → lineByte (hline t c (p.pa / 64)).data j = lineByte x.data j) ∧
        (∀ h line, h * 2 ^ 46 + line ≠ c.val * 2 ^ 46 + p.pa / 64 → hline t h line = hline v h line) ∧ t.dram = v.dram

/-- R117 to R120, R233, R234: LRES reads the location and reserves the granule of REGRAN bytes that holds it, in the current world; SCOND with a
reservation of this world that covers it stores and gives 1, without one it gives 0 and stores nothing; either way the reservation is gone after it.
Where these rules are silent it states the model's choice (log entries 20 and 21). -/
def Obligations.LoadReserveStoreConditional : Prop :=
  ∀ (c : CoreId) (o : OpAt) (e : Seen) (s v : State) (p : Piece), Runs s c → c.val ≠ 240 → e.arr = .none_ →
    o.rs1.toNat < 16 → o.res = 0 → (o.sz = 2 ∨ o.sz = 3) → (getCore v c).sb = [] →
    let u := fetched s c
    let size := if o.sz = 2 then 4 else 8
    let x := hline v c (p.pa / 64)
    let va := (aGet u c o.rs1.toNat).toNat
    let g := (sysEff v c 0x005 false).toNat
    let holds : Prop := ∃ r, (getCore v c).resv = some r ∧ r.world = secOf (getCore v c) ∧ r.base ≤ p.pa ∧ p.pa + size ≤ r.base + r.size
    (o.rs2 = 0 → Access u v c va size .read .resv e.fresh p → Usable v c (p.pa / 64) →
      ∃ t, exec (.lres c o e) s = .next t ∧ (getCore t c).pc = (getCore v c).pc + 4 ∧
        (∀ r, dGet t c r = dUpd (dGet v c) o.rd.toNat (BitVec.ofNat 64 (lineGet x.data (p.pa % 64) size)) r) ∧
        (getCore t c).resv = some ⟨p.pa / g * g, g, secOf (getCore v c)⟩ ∧ t.lines = v.lines ∧ t.dram = v.dram) ∧
    (Access u v c va size .rw .resv e.fresh p → Usable v c (p.pa / 64) → (x.st = .m ∨ x.st = .e) → holds → e.held = false →
      ∃ t, exec (.scond c o e) s = .next t ∧ (getCore t c).pc = (getCore v c).pc + 4 ∧ (∀ r, dGet t c r = dUpd (dGet v c) o.rd.toNat 1 r) ∧
        (getCore t c).resv = none ∧
        lineGet (hline t c (p.pa / 64)).data (p.pa % 64) size = (dGet v c o.rs2.toNat).toNat % 2 ^ (8 * size) ∧
        (∀ j, j < 64 → (j < p.pa % 64 ∨ p.pa % 64 + size ≤ j) → lineByte (hline t c (p.pa / 64)).data j = lineByte x.data j) ∧
        (∀ h line, h * 2 ^ 46 + line ≠ c.val * 2 ^ 46 + p.pa / 64 → hline t h line = hline v h line) ∧ t.dram = v.dram) ∧
    (Access u v c va size .rw .resv e.fresh p → ¬ holds →
      ∃ t, exec (.scond c o e) s = .next t ∧ (getCore t c).pc = (getCore v c).pc + 4 ∧ (∀ r, dGet t c r = dUpd (dGet v c) o.rd.toNat 0 r) ∧
        (getCore t c).resv = none ∧ t.lines = v.lines ∧ t.dram = v.dram)

/-- R122 to R125: cache maintenance by address of a line of another package of the cascade: the instruction retires and its request is on its way to the
remote agent, CINV.VA acting as CFLUSH.VA at PL1 of the normal world; on memory that is not write-back it completes with no further effect; CINV.VA
at PL0 raises UNDEF. When an operation completes it is no longer outstanding, and one that failed leaves a deferred BUS_ERROR. Where these rules are
silent it states the model's choice (log entry 77). -/
def Obligations.CacheMaintenance : Prop :=
  (∀ (c : CoreId) (o : OpT) (e : Seen) (s v : State) (x : XOk), Runs s c → c.val ≠ 240 → o.rd = 0 → o.rs2 = 0 → o.rs1.toNat < 16 →
    let u := fetched s c
    let pl := plOf (getCore u c)
    let va := (aGet u c o.rs1.toNat).toNat
    (pl ≤ 1 → bit (sysEff u c 0x501 (secOf (getCore u c))) 0 = false) → (getCore v c).cstat = (getCore u c).cstat →
    (getCore v c).stepping = (getCore u c).stepping →
    ∀ q ∈ ([(.cinvVa c o e, .write, if pl = 1 ∧ secOf (getCore u c) = false then .cmoFls else .cmoInv), (.ccleanVa c o e, .read, .cmoCln),
        (.cflushVa c o e, .read, .cmoFls)] : List (Instr × AccKind × Cmd)),
      (q.2.1 = .write → pl ≠ 0) → xlat u c q.2.1 .maint false va e.fresh = (.ok x, v) →
      (x.ty = .wb → transSt (hline v c (x.pa / 64)).st = false → isLocalMem v x.pa = false → isRemoteMem v x.pa = true → (∀ b ∈ (getCore v c).sb, b.pa / 64 ≠ x.pa / 64) →
        ∃ t m y, exec q.1 s = .next t ∧ (getCore t c).pc = (getCore v c).pc + 4 ∧ (∀ r, dGet t c r = dGet v c r) ∧
          t.net = v.net ++ [m] ∧ m.cmd = q.2.2 ∧ m.src = coreStop c ∧ m.dst = ⟨12, 22⟩ ∧ m.addr = x.pa / 64 * 64 ∧
          (getCore t c).maint = (getCore v c).maint ++ [y] ∧ y.va = va ∧ y.pa = x.pa ∧ y.st = .pending ∧
          t.lines = v.lines ∧ t.dram = v.dram) ∧
      (x.ty ≠ .wb → ∃ t, exec q.1 s = .next t ∧ Retired c v t (dGet v c) (aGet v c) (qGet v c) ((getCore v c).pc + 4))) ∧
  (∀ (c : CoreId) (o : OpT) (e : Seen) (s : State), Runs s c → c.val ≠ 240 → plOf (getCore (fetched s c) c) = 0 →
    ∃ t, exec (.cinvVa c o e) s = .next t ∧ Entered c (fetched s c) t 1 (getCore (fetched s c) c).pc
      (BitVec.ofNat 64 (0x011C000000000000 + wordT 0x07 o.rd.toNat o.rs1.toNat o.rs2.toNat 0)) 0 0x200) ∧
  (∀ (c : CoreId) (y : Maint) (s : State), (getCore s c).maint.find? (fun y => y.st != .pending) = some y → (getCore s c).bar = none →
    ∃ t, exec (.maintenanceComplete c) s = .next t ∧ (getCore t c).maint = (getCore s c).maint.erase y ∧ (getCore t c).pc = (getCore s c).pc ∧
      (y.st = .ok → (getCore t c).defErr = (getCore s c).defErr) ∧
      (y.st = .error → (getCore s c).defErr = none → ∃ d, (getCore t c).defErr = some d ∧ d.eaddr = BitVec.ofNat 64 y.va ∧
        d.ephys = BitVec.ofNat 64 y.pa ∧ d.esyn = (if y.wnr then 0x207C000000000000 else 0x203C000000000000)))

/-- R517, R520, R521, R527, R529, R596: a raise of a wired source or of a vector that is not posted sets PEND, and at the management processor the
source's pending bit, and nothing else; an inbound write to MSIADDR raises the vector it names, or is dropped and counted in MSIDROP; a pending,
enabled interrupt that is not active leaves the controller for the core its TARGET names in class G, or in class Q beyond the controller's quota
(R323), and is signalled there once its message has come in. R518, R519, R521: a write of INTSRCn by the secure world, or of one whose SEC is 0,
sets EN, PRIO, LVL (1 to 3) and TARGET (0 to 215) as written and clears PEND where a 1 is written; the normal world never sets SEC. ACTIVE stays. A
normal-world write of a source whose SEC is 1 changes nothing. Where these rules are silent it states the model's choice (log entry 53). -/
def Obligations.InterruptSources : Prop :=
  ((∀ (i : BitVec 16) (s : State), i.toNat < 0x800 → sourceExists i.toNat = true →
     ∃ t, exec (.sourceRaise i) s = .next t ∧ bit (rg t .intsrc i.toNat) 1 = true ∧
       (∀ j, j ≠ 1 → bit (rg t .intsrc i.toNat) j = bit (rg s .intsrc i.toNat) j) ∧
       t.mpPend.testBit i.toNat = true ∧ RegsOnly [(.intsrc, i.toNat)] { s with mpPend := s.mpPend ||| 2 ^ i.toNat } t) ∧
   (∀ (i : BitVec 16) (s : State), 0x8000 ≤ i.toNat → bit (rg s .msictl (i.toNat - 0x8000)) 30 = false →
     ∃ t, exec (.sourceRaise i) s = .next t ∧ bit (rg t .msictl (i.toNat - 0x8000)) 1 = true ∧
       (∀ j, j ≠ 1 → bit (rg t .msictl (i.toNat - 0x8000)) j = bit (rg s .msictl (i.toNat - 0x8000)) j) ∧
       RegsOnly [(.msictl, i.toNat - 0x8000)] s t) ∧
   (∀ (g : Fin 24) (rid : BitVec 16) (x : BitVec 32) (s : State),
     let v := x.toNat % 0x8000
     let ctl := rg s .msictl v
     let dropped := x.toNat ≥ 0x8000 ∨ bit ctl 0 = false ∨ (vecShare s v).isSome = true ∨ (bit ctl 47 = true ∧ fld ctl 63 48 ≠ rid.toNat) ∨
       (ownLg s g = false ∧ vecSec s v = true)
     (¬dropped → bit ctl 30 = false → ∃ t, exec (.msiWrite g rid x) s = .next t ∧ bit (rg t .msictl v) 1 = true ∧
       (∀ j, j ≠ 1 → bit (rg t .msictl v) j = bit ctl j) ∧ RegsOnly [(.msictl, v)] s t) ∧
     (dropped → ∃ t, exec (.msiWrite g rid x) s = .next t ∧ rgF t .icstat 0 31 0 = min (rgF s .icstat 0 31 0 + 1) (2 ^ 32 - 1) ∧
       rgF t .icstat 0 47 32 = rgF s .icstat 0 47 32 ∧ RegsOnly [(.icstat, 0)] s t)) ∧
   (∀ (i : BitVec 16) (c : Nat) (s : State), i.toNat < 0x800 →
     let v := rg s .intsrc i.toNat
     let isIt := fun (p : Packet) => p.cmd == .irq && p.holder == 0 && p.arg == i.toNat
     bit v 1 = true → bit v 0 = true → bit v 2 = false → lcTarget s (fld v 23 16) = some c → c < 240 → i.toNat ∉ (getCore s c).arrived →
     ((∀ p ∈ s.net ++ s.parked ++ s.gHeld, isIt p = false) →
       ∃ t p, exec (.irq i) s = .next t ∧ t.net = s.net ++ [p] ∧ isIt p = true ∧ p.src = ⟨12, 18⟩ ∧ p.dst = coreStop c ∧
         (p.cls = .g ↔ 0 < tokensOf s ⟨12, 18⟩) ∧ (p.cls = .q ↔ tokensOf s ⟨12, 18⟩ = 0) ∧ t.cores = s.cores ∧ t.regs = s.regs ∧ t.dram = s.dram) ∧
     (∀ (p : Packet) (u : State), takePacket isIt s = some (p, u) → p.dst = coreStop c → stopDead s (coreStop c) = false →
       ∃ t, exec (.irq i) s = .next t ∧ getCore t c = { getCore s c with arrived := (getCore s c).arrived ++ [i.toNat] } ∧
         (∀ c', c' ≠ c → getCore t c' = getCore s c') ∧ t.net = u.net ∧ t.dram = s.dram))) ∧
  (∀ (b : By) (n : Fin 2048) (v : Word) (s : State),
     let old := rg s .intsrc n
     (bySec b = true ∨ bit old 31 = false → ∃ t, exec (.intsrcWrite b n v) s = .next t ∧
       bit (rg t .intsrc n) 0 = bit v 0 ∧ fld (rg t .intsrc n) 15 8 = fld v 15 8 ∧
       bit (rg t .intsrc n) 1 = (bit old 1 && !(bit v 1)) ∧ bit (rg t .intsrc n) 2 = bit old 2 ∧
       (fld v 23 16 < 216 → fld (rg t .intsrc n) 23 16 = fld v 23 16) ∧
       (216 ≤ fld v 23 16 → fld (rg t .intsrc n) 23 16 = fld old 23 16) ∧
       (bySec b = true → 1 ≤ fld v 29 28 → fld (rg t .intsrc n) 29 28 = fld v 29 28) ∧
       (bySec b = true → bit (rg t .intsrc n) 31 = bit v 31) ∧
       (bySec b = false → bit (rg t .intsrc n) 31 = false) ∧
       (bySec b = false → fld (rg t .intsrc n) 29 28 = 3 → fld old 29 28 = 3) ∧
       { t with
         regs := s.regs
         cores := s.cores } = s ∧
       ∀ r i, i < 2 ^ 32 → (r, i) ≠ (.intsrc, n.val) → rg t r i = rg s r i) ∧
     (bySec b = false → bit old 31 = true → ∃ t, exec (.intsrcWrite b n v) s = .next t ∧ t = s))

/-- R524, R525, R526: IACK gives priority and INTID of the interrupt it takes, whose PEND is cleared and ACTIVE set, and pushes its priority; 0xFFFF
where none qualifies, with no other effect. IEOI of an interrupt the core has acknowledged clears ACTIVE and pops one entry. An ISGI to a present
core sets its pending bit there, with the lower of the two priorities where it was set, and one that sends nothing is counted in SGIDROP. -/
def Obligations.InterruptInterface : Prop :=
  ∀ (c : CoreId) (rt : BitVec 5) (s : State), Runs s c → c.val ≠ 240 →
    let u := fetched s c
    let k := getCore u c
    let v := dGet u c rt.toNat
    (sysCheck u c rt.toNat 0x801 false (wordS ⟨rt, 0x801⟩ 0x001) = none → sysTarget u c 0x801 = 0x801 →
      (iackChoice u c = none → ∃ t, exec (.iack c rt) s = .next t ∧
        Retired c u t (dUpd (dGet u c) rt.toNat 0xFFFF) (aGet u c) (qGet u c) (pcNext s c)) ∧
      (∀ g, iackChoice u c = some g → g.intid < 0x800 → ∃ t, exec (.iack c rt) s = .next t ∧
        (∀ r, dGet t c r = dUpd (dGet u c) rt.toNat (BitVec.ofNat 64 (g.prio % 256 * 65536 + g.intid)) r) ∧
        bit (rg t .intsrc g.intid) 1 = false ∧ bit (rg t .intsrc g.intid) 2 = true ∧
        (getCore t c).active = k.active ++ [⟨g.intid, g.prio⟩] ∧ (getCore t c).pc = pcNext s c ∧ (getCore t c).cstat = k.cstat ∧
        (∀ r, aGet t c r = aGet u c r) ∧ (∀ r, qGet t c r = qGet u c r) ∧ CoreRegsOnly c [(.intsrc, g.intid)] u t)) ∧
    (sysCheck u c rt.toNat 0x802 true (wordS ⟨rt, 0x802⟩ 0x002) = none → sysTarget u c 0x802 = 0x802 →
      (∀ x, k.active.getLast? = some x → x.intid = fld v 15 0 → x.intid < 0x800 → ∃ t, exec (.ieoi c rt) s = .next t ∧
        (getCore t c).active = k.active.dropLast ∧ bit (rg t .intsrc x.intid) 2 = false ∧ (getCore t c).pc = pcNext s c ∧
        bit (rg t .intsrc x.intid) 1 = bit (rg u .intsrc x.intid) 1 ∧ (∀ r, dGet t c r = dGet u c r) ∧
        CoreRegsOnly c [(.intsrc, x.intid)] u t) ∧
      ((∀ x ∈ k.active, x.intid ≠ fld v 15 0) → ∃ t, exec (.ieoi c rt) s = .next t ∧
        Retired c u t (dGet u c) (aGet u c) (qGet u c) (pcNext s c))) ∧
    (sysCheck u c rt.toNat 0x805 true (wordS ⟨rt, 0x805⟩ 0x002) = none → bit v 40 = false →
      (∀ x, lcTarget u (fld v 39 32) = some x → ∃ t p, exec (.isgi c rt) s = .next t ∧ (getCore t c).pc = pcNext s c ∧
        (⟨fld v 3 0, secOf k, plOf k, p⟩ : SgiPend) ∈ (getCore t x).sgi ∧ p ≤ fld v 15 8 ∧
        ((∀ y ∈ (getCore u x).sgi, ¬(y.num = fld v 3 0 ∧ y.world = secOf k ∧ y.level = plOf k)) → p = fld v 15 8) ∧
        (∀ y : SgiPend, ¬(y.num = fld v 3 0 ∧ y.world = secOf k ∧ y.level = plOf k) → (y ∈ (getCore t x).sgi ↔ y ∈ (getCore u x).sgi)) ∧
        (∀ r, dGet t c r = dGet u c r) ∧ t.regs = u.regs ∧ t.net = u.net ∧ t.dram = u.dram ∧
        (∀ c', c' ≠ c.val → c' ≠ x → getCore t c' = getCore u c')) ∧
      (lcTarget u (fld v 39 32) = none → ∃ t, exec (.isgi c rt) s = .next t ∧ (getCore t c).pc = pcNext s c ∧
        rgF t .icstat 0 47 32 = min (rgF u .icstat 0 47 32 + 1) 65535 ∧ rgF t .icstat 0 31 0 = rgF u .icstat 0 31 0 ∧
        CoreRegsOnly c [(.icstat, 0)] u t))

/-- R532 to R534, R536: a post sets the INTID's bit in the record's PEND, and while CTL.SN is 1 sends no notification: INTERRUPT_POST by the controller,
VISGI by a core. A posting notification raises local source 0x0814 at a core whose guest interface does not name the record. VIACK gives the guest's
interrupt, clears its pending bit in the core and in the record and pushes its priority onto VIRUNPRI; it gives 0xFFFF where none waits. VIEOI pops
VIRUNPRI. After TIMER_FIRES a timer's source is pending exactly when its condition holds. Where these rules are silent it states the model's choice
(log entry 45). -/
def Obligations.GuestInterruptsAndTimers : Prop :=
  (∀ (c : CoreId) (rt : BitVec 5) (s : State), Runs s c → c.val ≠ 240 →
    let u := fetched s c
    let v := dGet u c rt.toNat
    let pa := fld v 51 8 * 256 + fld v 63 54 / 64 * 8
    sysCheck u c rt.toNat 0x815 true (wordS ⟨rt, 0x815⟩ 0x002) = none → PostQuiet u (fld v 51 8) (fld v 63 54) →
    ∃ t, exec (.visgi c rt) s = .next t ∧ (getCore t c).pc = pcNext s c ∧
      homeWord t pa = homeWord u pa ||| 2 ^ (fld v 63 54 % 64) ∧ (∀ p ∈ t.net, p.cmd = .irq → p ∈ u.net) ∧
      (∀ r, dGet t c r = dGet u c r)) ∧
  (∀ (r : BitVec 44) (v : BitVec 10) (s : State), PostQuiet s r.toNat v.toNat →
    let pa := r.toNat * 256 + v.toNat / 64 * 8
    ∃ t, exec (.interruptPost r v) s = .next t ∧ homeWord t pa = homeWord s pa ||| 2 ^ (v.toNat % 64) ∧
      (∀ p ∈ t.net, p.cmd = .irq → p ∈ s.net)) ∧
  (∀ (c : CoreId) (p : Packet) (u s : State),
    takePacket (fun p => p.cmd == .irq && p.holder == 1 && p.dst == coreStop c) s = some (p, u) →
    (guestOn s c = false ∨ vpostRecord s c ≠ p.addr) →
    ∃ t, exec (.postingNotification c) s = .next t ∧ getCore t c = { getCore s c with postPend := true } ∧ t.net = u.net ∧ t.dram = s.dram ∧
      (∀ c', c' ≠ c.val → getCore t c' = getCore s c')) ∧
  (∀ (c : CoreId) (rt : BitVec 5) (guest : Bool) (s : State), Runs s c → c.val ≠ 240 →
    let u := fetched s c
    let n : Nat := if guest then 0x801 else 0x811
    sysCheck u c rt.toNat n false (wordS ⟨rt, BitVec.ofNat 12 n⟩ 0x001) = none → sysTarget u c n = 0x811 →
    (bestSig (guestSigs u c) = none → ∃ t, exec (.viack c rt guest) s = .next t ∧
      Retired c u t (dUpd (dGet u c) rt.toNat 0xFFFF) (aGet u c) (qGet u c) (pcNext s c)) ∧
    (∀ g, bestSig (guestSigs u c) = some g →
      let pa := vpostRecord u c + g.intid / 64 * 8
      HomeFree u pa (secOf (getCore u c)) →
      ∃ t, exec (.viack c rt guest) s = .next t ∧ (getCore t c).pc = pcNext s c ∧
        (∀ r, dGet t c r = dUpd (dGet u c) rt.toNat (BitVec.ofNat 64 (g.prio % 256 * 65536 + g.intid)) r) ∧
        (∀ j, (getCore t c).vpend.testBit j = (decide (j ≠ g.intid) && (getCore u c).vpend.testBit j)) ∧
        (∀ j, (homeWord t pa).testBit j = (decide (j ≠ g.intid % 64) && (homeWord u pa).testBit j)) ∧
        (let d := fld (sysGet u c 0x813 false) 2 0
         fld (sysGet t c 0x813 false) 2 0 = d + 1 ∧ fld (sysGet t c 0x813 false) (8 * d + 15) (8 * d + 8) = g.prio))) ∧
  (∀ (c : CoreId) (rt : BitVec 5) (guest : Bool) (s : State), Runs s c → c.val ≠ 240 →
    let u := fetched s c
    let n : Nat := if guest then 0x802 else 0x812
    let run := sysGet u c 0x813 false
    let d := fld run 2 0
    let i := fld (dGet u c rt.toNat) 15 0
    sysCheck u c rt.toNat n true (wordS ⟨rt, BitVec.ofNat 12 n⟩ 0x002) = none → sysTarget u c n = 0x812 →
    0 < d → i < 1024 → fld run (8 * (d - 1) + 15) (8 * (d - 1) + 8) = i / 4 → PendQuiet u c →
    ∃ t, exec (.vieoi c rt guest) s = .next t ∧ (getCore t c).pc = pcNext s c ∧ fld (sysGet t c 0x813 false) 2 0 = d - 1 ∧
      (∀ j, j < d - 1 → fld (sysGet t c 0x813 false) (8 * j + 15) (8 * j + 8) = fld run (8 * j + 15) (8 * j + 8)) ∧
      (∀ r, dGet t c r = dGet u c r)) ∧
  (∀ (c : CoreId) (lv : Fin 3) (w : Bool) (s : State),
    let w' := w || decide (lv.val = 2)
    ∃ t, exec (.timerFires c lv w) s = .next t ∧ ((getCore t c).timerPend.contains (timerKey (lv.val + 1) w') = timerCond s c (lv.val + 1) w') ∧
      t = setCore s c { getCore s c with timerPend := (getCore t c).timerPend })

/-- R219, R278, R283, R286, R288, R289, R648: a core's request for a line it does not hold and has room for (for RDS, in a page its prefetcher may
read), at an open home with a directory way to spare: RDS of a line without holder gets DATA_E (DATA_F where the filter withholds writing) with the
line's value, RDX gets DATA_M and COMP, and the entry names the core; UPG by the only holder gets COMP; a line owned or forwarded by another live
holder makes the home forward the request to it. The requester is in IS_D, IM_D or SM_C under the transaction. Where these rules are silent it
states the model's choice (log entry 23). -/
def Obligations.CoherenceRequests : Prop :=
  ∀ (h : HolderId) (line : LineNo) (a : ReqAttr) (s : State), h.toNat < 240 →
    let l := line.toNat
    let e := dirGet s l
    let v := llcPeek s l a.keyid.toNat
    HomeOpen s l → fencedAt s (lineLoc s l).home h.toNat = false → (hline s h.toNat l).err = false → worldAllows s a.world (l * 64) ⟨true, false⟩ = true →
    (e.st = .none_ → (∃ w, (dirAlloc s l).1 = .way w) → v.err = false → (hline s h.toNat l).st = .i → l2Full s h.toNat l = false →
      (mayPrefetch s h.toNat l a = true → ∃ t p, exec (.rds h line a {}) s = .next t ∧ p ∈ t.net ∧ p.dst = holderStop h.toNat ∧ p.addr = l * 64 ∧ p.data = v.data ∧ p.poison = v.poison ∧
        (hline t h.toNat l).st = .isd ∧ (hline t h.toNat l).txid = p.txid ∧ holdersOf (dirGet t l) = [h.toNat] ∧ (dirGet t l).ptr = h.toNat ∧
        (worldAllows s a.world (l * 64) ⟨false, true⟩ = true → p.cmd = .dataE ∧ p.kept = .e ∧ (dirGet t l).st = .dx) ∧
        (worldAllows s a.world (l * 64) ⟨false, true⟩ = false → p.cmd = .dataF ∧ p.kept = .f ∧ (dirGet t l).st = .dsf)) ∧
      (worldAllows s a.world (l * 64) ⟨true, true⟩ = true →
        ∃ t p q, exec (.rdx h line a {}) s = .next t ∧ p ∈ t.net ∧ p.cmd = .dataM ∧ p.dst = holderStop h.toNat ∧ p.data = v.data ∧
          p.poison = v.poison ∧ q ∈ t.net ∧ q.cmd = .comp ∧ q.dst = holderStop h.toNat ∧ q.contended = false ∧ q.txid = p.txid ∧
          (hline t h.toNat l).st = .imd ∧ (hline t h.toNat l).txid = p.txid ∧ (dirGet t l).st = .dx ∧ (dirGet t l).ptr = h.toNat ∧
          holdersOf (dirGet t l) = [h.toNat])) ∧
    (lists e h.toNat = true → (∀ j ∈ holdersOf e, j = h.toNat) → (e.st = .do_ → e.ptr = h.toNat) → (hline s h.toNat l).st = .s ∨ (hline s h.toNat l).st = .f ∨ (hline s h.toNat l).st = .o →
      worldAllows s a.world (l * 64) ⟨false, true⟩ = true →
      ∃ t q, exec (.upg h line a {}) s = .next t ∧ q ∈ t.net ∧ q.cmd = .comp ∧ q.dst = holderStop h.toNat ∧ q.contended = false ∧
        (hline t h.toNat l).st = .smc ∧ (hline t h.toNat l).base = (hline s h.toNat l).st ∧ (hline t h.toNat l).data = (hline s h.toNat l).data ∧
        (hline t h.toNat l).txid = q.txid ∧ (dirGet t l).st = .dx ∧ (dirGet t l).ptr = h.toNat) ∧
    (e.st = .dx ∨ e.st = .do_ ∨ e.st = .dsf → e.ptr ≠ h.toNat → fencedAt s (lineLoc s l).home e.ptr = false → (hline s h.toNat l).st = .i →
      l2Full s h.toNat l = false → (mayPrefetch s h.toNat l a = true → ∃ t p b, exec (.rds h line a {}) s = .next t ∧ p ∈ t.net ∧ p.cmd = .fwdS ∧ p.holder = e.ptr ∧ p.dst = holderStop e.ptr ∧
        p.req = holderStop h.toNat ∧ p.reqTxid = (hline t h.toNat l).txid ∧ busyOf t l = some b ∧ b.fwd = some e.ptr ∧ b.await = [] ∧
        b.cur.cmd = .rds ∧ b.cur.holder = h.toNat ∧ dirGet t l = e) ∧
      (worldAllows s a.world (l * 64) ⟨true, true⟩ = true →
        ∃ t p b, exec (.rdx h line a {}) s = .next t ∧ p ∈ t.net ∧ p.cmd = .fwdX ∧ p.holder = e.ptr ∧ p.dst = holderStop e.ptr ∧
          p.req = holderStop h.toNat ∧ busyOf t l = some b ∧ b.fwd = some e.ptr ∧ b.cur.cmd = .rdx ∧
          (∀ j, j ∈ b.await ↔ j ∈ holdersOf e ∧ j ≠ h.toNat ∧ j ≠ e.ptr ∧ fencedAt s (lineLoc s l).home j = false) ∧ dirGet t l = e))

/-- R286, R288, R293: a core evicts a line at an open home: PUTS drops the copy and leaves the entry; the PUT of M, O, E or F leaves the copy in the
writeback buffer, is answered WB_ACK where the entry names the core, and removes it from the entry; the data of M and O becomes the home's value of
the line (KEYID 0). Where these rules are silent it states the model's choice (log entry 23). -/
def Obligations.Evictions : Prop :=
  ∀ (h : HolderId) (line : LineNo) (s : State), h.toNat < 240 →
    let l := line.toNat
    let e := dirGet s l
    let x := hline s h.toNat l
    HomeOpen s l → fencedAt s (lineLoc s l).home h.toNat = false → reservedLine s h.toNat l = false →
    (x.st = .s → ∃ t, exec (.puts h line) s = .next t ∧ hline t h.toNat l = {} ∧ (e.st = .ds → lists (dirGet t l) h.toNat = false) ∧
      t.dram = s.dram ∧ t.l3 = s.l3) ∧
    ∀ p ∈ ([(.pute h line, .e), (.putf h line, .f), (.putm h line .none_, .m), (.puto h line .none_, .o)] : List (Instr × HState)),
      x.st = p.2 → (e.st = .dx ∨ e.st = .do_ ∨ e.st = .dsf) → e.ptr = h.toNat → x.keyid = 0 →
      ∃ t q, exec p.1 s = .next t ∧ (hline t h.toNat l).st = .xia ∧ (hline t h.toNat l).base = p.2 ∧ (hline t h.toNat l).data = x.data ∧
        q ∈ t.net ∧ q.cmd = .wbAck ∧ q.dst = holderStop h.toNat ∧ q.txid = (hline t h.toNat l).putId ∧
        lists (dirGet t l) h.toNat = false ∧ (∀ j, j ≠ h.toNat → j < 240 → lists (dirGet t l) j = lists e j) ∧
        (p.2 = .m ∨ p.2 = .o → (llcPeek t l 0).data = x.data ∧ (llcPeek t l 0).poison = x.poison) ∧
        (p.2 = .e ∨ p.2 = .f → t.dram = s.dram ∧ t.l3 = s.l3)

/-- R123, R203, R265, R286, R294: requests without caching for a line that no holder has, KEYID 0: RDC gets the line; WRC replaces the bytes of its mask
and no others; FAR returns the old operand and stores the new one (swap, add, and, or, exclusive or, unsigned maximum and minimum are stated), other
bytes kept; CAS64 stores and reports 1 on a match, else changes nothing and reports 0; CMO CLN writes a dirty L3 copy to memory and keeps it, CMO
FLS also drops it, CMO INV drops it without writing. The entry stays NONE. Where these rules are silent it states the model's choice (log entry 23). -/
def Obligations.UncachedRequests : Prop :=
  (∀ (src : StopId) (line : LineNo) (mask : BitVec 64) (d : LineData) (w : Bool) (part : BitVec 4) (s : State),
    let l := line.toNat
    let v := llcPeek s l 0
    let c := l3Line s l
    HomeFree s (l * 64) w →
    (∃ t p, exec (.rdc src line ⟨w, part, 0⟩ {}) s = .next t ∧ p ∈ t.net ∧ p.cmd = .rdRsp ∧ p.dst = src ∧ p.data = v.data ∧ p.poison = false ∧
      llcPeek t l 0 = v ∧ dirGet t l = dirGet s l) ∧
    (∃ t p, exec (.wrc src line mask d ⟨w, part, 0⟩ {}) s = .next t ∧ p ∈ t.net ∧ p.cmd = .wrCmp ∧ p.dst = src ∧ p.poison = false ∧
      (∀ j, j < 64 → lineByte (llcPeek t l 0).data j = if mask.toNat.testBit j then lineByte d j else lineByte v.data j) ∧
      dirGet t l = dirGet s l) ∧
    (c.keyid = 0 →
      (∃ t p, exec (.cmoCln src line ⟨w, part, 0⟩ {}) s = .next t ∧ p ∈ t.net ∧ p.cmd = .wrCmp ∧ p.dst = src ∧ (c.valid = true → (l3Line t l).dirty = false) ∧
        (c.valid = true → c.dirty = true → memRaw t l = c.data ∧ l3Line t l = { c with dirty := false }) ∧
        (c.valid = false ∨ c.dirty = false → t.dram = s.dram)) ∧
      (∃ t p, exec (.cmoFls src line ⟨w, part, 0⟩ {}) s = .next t ∧ p ∈ t.net ∧ p.cmd = .wrCmp ∧ p.dst = src ∧ l3Line t l = {} ∧
        (c.valid = true → c.dirty = true → memRaw t l = c.data) ∧ (c.valid = false ∨ c.dirty = false → t.dram = s.dram)) ∧
      (∃ t p, exec (.cmoInv src line ⟨w, part, 0⟩ {}) s = .next t ∧ p ∈ t.net ∧ p.cmd = .wrCmp ∧ p.dst = src ∧ l3Line t l = {} ∧
        t.dram = s.dram))) ∧
  (∀ (c : CoreId) (q : FarOp) (w : Bool) (part : BitVec 4) (s : State), c.val ≠ 240 →
    let pa := q.pa.toNat
    let l := pa / 64
    let n := if q.sz = 3 then 8 else 4
    let m := lineGet (llcPeek s l 0).data (pa % 64) n
    let x := q.opnd.toNat % 2 ^ (8 * n)
    HomeFree s pa w → pa % n = 0 →
    ∀ k ∈ ([(0, x), (1, (m + x) % 2 ^ (8 * n)), (2, m &&& x), (3, m ||| x), (4, m ^^^ x),
        (5, if toSigned (8 * n) m < toSigned (8 * n) x then x else m), (6, if toSigned (8 * n) x < toSigned (8 * n) m then x else m),
        (7, max m x), (8, min m x), (9, if m = q.cmp.toNat % 2 ^ (8 * n) then x else m)] : List (Nat × Nat)),
      q.aop.toNat = k.1 →
      ∃ t p, exec (.far c q ⟨w, part, 0⟩ {}) s = .next t ∧ p ∈ t.net ∧ p.cmd = .farRsp ∧ p.dst = coreStop c ∧
        p.data = BitVec.ofNat 512 m ∧ p.poison = false ∧ lineGet (llcPeek t l 0).data (pa % 64) n = k.2 ∧
        (∀ j, j < pa % 64 ∨ (pa % 64 + n ≤ j ∧ j < 64) → lineByte (llcPeek t l 0).data j = lineByte (llcPeek s l 0).data j) ∧
        dirGet t l = dirGet s l) ∧
  (∀ (c : CoreId) (pa : PhysAddr) (expect new : Word) (w : Bool) (part : BitVec 4) (s : State), c.val ≠ 240 →
    let l := pa.toNat / 64
    let m := lineGet (llcPeek s l 0).data (pa.toNat % 64) 8
    HomeFree s pa.toNat w → pa.toNat % 8 = 0 →
    ∃ t p, exec (.cas64 c pa expect new ⟨w, part, 0⟩ {}) s = .next t ∧ p ∈ t.net ∧ p.cmd = .wrCmp ∧ p.dst = coreStop c ∧
      (m = expect.toNat → p.arg = 1 ∧ lineGet (llcPeek t l 0).data (pa.toNat % 64) 8 = new.toNat) ∧
      (m ≠ expect.toNat → p.arg = 0 ∧ (llcPeek t l 0).data = (llcPeek s l 0).data))

/-- R288: a core that holds a line in a stable state answers a snoop that reaches it: FWD_S and FWD_X send the line's data to the requester and FWD_DONE
to the home, INV is answered INV_ACK, RCL_C and RCL_I are answered RCL_ACK, with the data from M and O; the line takes the state of the table. No
other line of any holder changes. -/
def Obligations.SnoopAnswers : Prop :=
  ∀ (h : HolderId) (line : LineNo) (p : Packet) (u s : State), h.toNat < 240 →
    let l := line.toNat
    let x := hline s h.toNat l
    let there := fun (c : Cmd) => takePacket (fun q => isFor c h.toNat l q && !(stopHeld s q.dst) && !(outbound s q)) s = some (p, u)
    Takes s p.dst → p.dst = holderStop h.toNat →
    (∀ r ∈ ([(.fwdS h line .none_, .fwdS, .m, .dataS, .o), (.fwdS h line .none_, .fwdS, .o, .dataS, .o),
        (.fwdS h line .none_, .fwdS, .e, .dataF, .s), (.fwdS h line .none_, .fwdS, .f, .dataF, .s),
        (.fwdX h line .none_, .fwdX, .m, .dataM, .i), (.fwdX h line .none_, .fwdX, .o, .dataM, .i),
        (.fwdX h line .none_, .fwdX, .e, .dataM, .i), (.fwdX h line .none_, .fwdX, .f, .dataM, .i)] : List (Instr × Cmd × HState × Cmd × HState)),
      there r.2.1 → x.st = r.2.2.1 →
      ∃ t d q, exec r.1 s = .next t ∧ d ∈ t.net ∧ d.cmd = r.2.2.2.1 ∧ d.dst = p.req ∧ d.txid = p.reqTxid ∧ d.data = x.data ∧ d.poison = x.poison ∧
        q ∈ t.net ∧ q.cmd = .fwdDone ∧ q.dst = p.src ∧ q.txid = p.txid ∧ q.holder = h.toNat ∧ q.kept = r.2.2.2.2 ∧ q.r = false ∧
        (hline t h.toNat l).st = r.2.2.2.2 ∧ t.dram = s.dram ∧ t.dir = s.dir ∧
        (∀ h' l', h' * 2 ^ 46 + l' ≠ h.toNat * 2 ^ 46 + l → hline t h' l' = hline s h' l')) ∧
    (∀ r ∈ ([(.inv h line, .inv, .o, .invAck, false, .i), (.inv h line, .inv, .f, .invAck, false, .i), (.inv h line, .inv, .s, .invAck, false, .i),
        (.inv h line, .inv, .i, .invAck, false, .i), (.rclC h line .none_, .rclC, .m, .rclAck, true, .e), (.rclC h line .none_, .rclC, .o, .rclAck, true, .f),
        (.rclC h line .none_, .rclC, .e, .rclAck, false, .e), (.rclI h line .none_, .rclI, .m, .rclAck, true, .i),
        (.rclI h line .none_, .rclI, .o, .rclAck, true, .i), (.rclI h line .none_, .rclI, .e, .rclAck, false, .i)] :
          List (Instr × Cmd × HState × Cmd × Bool × HState)),
      there r.2.1 → x.st = r.2.2.1 →
      ∃ t q, exec r.1 s = .next t ∧ q ∈ t.net ∧ q.cmd = r.2.2.2.1 ∧ q.dst = p.src ∧ q.txid = p.txid ∧ q.holder = h.toNat ∧ q.dirty = r.2.2.2.2.1 ∧
        (r.2.2.2.2.1 = true → q.data = x.data ∧ q.poison = x.poison ∧ q.keyid = x.keyid) ∧ (hline t h.toNat l).st = r.2.2.2.2.2 ∧
        (r.2.2.2.2.2 ≠ .i → (hline t h.toNat l).data = x.data) ∧ t.dram = s.dram ∧ t.dir = s.dir ∧
        (∀ h' l', h' * 2 ^ 46 + l' ≠ h.toNat * 2 ^ 46 + l → hline t h' l' = hline s h' l'))

/-- R285, R289: what answers do at their requester. Data for a line in IS_D puts it in the state granted with the data; DATA_M for a line in IM_D that
has its COMP, and COMP for a line in SM_C or for one in IM_D that has its data, put it in M; COMP before the data only is noted, and so is DATA_M
before COMP. WB_ACK and WB_STALE end XI_A. No other line changes (no store waiting, no snoop held). -/
def Obligations.AnswersAtHolders : Prop :=
  ∀ (h : HolderId) (line : LineNo) (p : Packet) (u s : State), h.toNat < 240 →
    let l := line.toNat
    let x := hline s h.toNat l
    let there := fun (c : Cmd) => takePacket (fun q => isFor c h.toNat l q && !(stopHeld s q.dst) && !(outbound s q)) s = some (p, u)
    let others := fun (t : State) => t.dram = s.dram ∧ t.dir = s.dir ∧ t.l3 = s.l3 ∧
      (∀ h' l', h' * 2 ^ 46 + l' ≠ h.toNat * 2 ^ 46 + l → hline t h' l' = hline s h' l') ∧ ∀ c', c' ≠ h.toNat → getCore t c' = getCore s c'
    Takes s p.dst → p.dst = holderStop h.toNat → (getCore s h.toNat).sb = [] → x.held = [] →
    (∀ r ∈ ([(.dataS h line, .dataS), (.dataF h line, .dataF), (.dataE h line, .dataE), (.dataM h line, .dataM)] : List (Instr × Cmd)),
      there r.2 → p.txid = x.txid → x.st = .isd → x.dropFill = false →
      ∃ t, exec r.1 s = .next t ∧ (hline t h.toNat l).st = p.kept ∧ (hline t h.toNat l).data = p.data ∧ (hline t h.toNat l).poison = p.poison ∧
        (hline t h.toNat l).sec = p.world ∧ others t) ∧
    (there .dataM → p.txid = x.txid → x.st = .imd →
      ∃ t, exec (.dataM h line) s = .next t ∧ (hline t h.toNat l).st = (if x.gotComp then .m else .imd) ∧ (hline t h.toNat l).data = p.data ∧
        (hline t h.toNat l).poison = (p.poison || (x.gotData && x.poison)) ∧ others t) ∧
    (there .comp → p.txid = x.txid → x.st = .imd →
      ∃ t, exec (.comp h line) s = .next t ∧ (hline t h.toNat l).st = (if x.gotData then .m else .imd) ∧ (hline t h.toNat l).data = x.data ∧ others t) ∧
    (there .comp → p.txid = x.txid → x.st = .smc →
      ∃ t, exec (.comp h line) s = .next t ∧ (hline t h.toNat l).st = .m ∧ (hline t h.toNat l).data = x.data ∧ others t) ∧
    (∀ r ∈ ([(.wbAck h line, .wbAck), (.wbStale h line, .wbStale)] : List (Instr × Cmd)),
      there r.2 → x.st = .xia → x.putId = p.txid → ∃ t, exec r.1 s = .next t ∧ hline t h.toNat l = {} ∧ others t)

/-- R285, R286, R299 to R301: what answers do at their home, for the last answer owed and nothing waiting behind. FWD_DONE of an RDS leaves the entry in
DO with the old owner kept in O, else in DSF with the requester as forwarder; the last INV_ACK of an RDX or UPG sends COMP and leaves DX; RCL_ACK
with data of an RDC sends the data to the requester. A snoop not answered within HTIMEOUT poisons the line in memory, answers an RDS with poisoned
data (DATA_E where nobody else holds the line and its world may write it, R648), counts in COHSTAT, and fences the holder, which stops if a core. A
fence notice sets the holder's bit at the die; at the hub, one about another package's agent cuts that package. -/
def Obligations.AnswersAtHomes : Prop :=
  (∀ (h : HolderId) (line : LineNo) (p : Packet) (b : Busy) (u s : State), h.toNat < 240 →
    let l := line.toNat
    let e := dirGet s l
    let there := fun (c : Cmd) => takePacket (fun q => isFor c h.toNat l q && !(stopHeld s q.dst) && !(outbound s q)) s = some (p, u)
    Takes s p.dst → p.dst.die < 12 → fencedAt s (lineLoc s l).home h.toNat = false → busyOf s l = some b → b.kind = .request → b.failed = false →
    p.txid = b.cur.txid →
    pLine b.cur = l → b.waiting = [] → s.dirWait = [] → p.r = false →
    (there .fwdDone → b.cur.cmd = .rds → b.fwd = some h.toNat → b.await = [] → e.ptr = h.toNat → b.cur.holder < 240 → b.cur.holder ≠ h.toNat →
      ∃ t, exec (.fwdDone h line) s = .next t ∧ busyOf t l = none ∧ lists (dirGet t l) b.cur.holder = true ∧
        (p.kept = .o → (dirGet t l).st = .do_ ∧ (dirGet t l).ptr = h.toNat) ∧
        (p.kept = .s → (dirGet t l).st = .dsf ∧ (dirGet t l).ptr = b.cur.holder) ∧
        (p.kept = .i → (dirGet t l).st = .dsf ∧ (dirGet t l).ptr = b.cur.holder ∧ lists (dirGet t l) h.toNat = false) ∧
        (∀ l', l' ≠ l → dirGet t l' = dirGet s l' ∧ busyOf t l' = busyOf s l') ∧ t.lines = s.lines ∧ t.dram = s.dram) ∧
    (there .invAck → (b.cur.cmd = .rdx ∨ b.cur.cmd = .upg) → b.fwd = none → b.await = [h.toNat] → p.dirty = false → b.cur.holder < 240 →
      ∃ t q, exec (.invAck h line) s = .next t ∧ q ∈ t.net ∧ q.cmd = .comp ∧ q.dst = b.cur.src ∧ q.txid = b.cur.txid ∧
        q.contended = b.contended ∧ busyOf t l = none ∧ (dirGet t l).st = .dx ∧ (dirGet t l).ptr = b.cur.holder ∧
        holdersOf (dirGet t l) = [b.cur.holder] ∧ (∀ l', l' ≠ l → dirGet t l' = dirGet s l') ∧ t.lines = s.lines ∧ t.dram = s.dram) ∧
    (there .rclAck → b.cur.cmd = .rdc → b.fwd = none → b.await = [h.toNat] → p.dirty = true → p.keyid = 0 → b.cur.keyid = 0 →
      chLost s l = false → e.st = .dx → e.ptr = h.toNat → lists e h.toNat = true →
      ∃ t q, exec (.rclAck h line) s = .next t ∧ q ∈ t.net ∧ q.cmd = .rdRsp ∧ q.dst = b.cur.src ∧ q.txid = b.cur.txid ∧ q.data = p.data ∧
        q.poison = p.poison ∧ busyOf t l = none ∧ dirGet t l = e ∧ (llcPeek t l 0).data = p.data)) ∧
  (∀ (h : HolderId) (line : LineNo) (b : Busy) (s : State), h.toNat < 240 →
    let l := line.toNat
    let t0 := tget 0 h.toNat b.timers
    let home := (lineLoc s l).home
    isLocalMem s (l * 64) = true → busyOf s l = some b → b.kind = .request → b.cur.cmd = .rds → pLine b.cur = l → b.cur.holder < 240 → b.cur.holder ≠ h.toNat → b.waiting = [] →
    s.dirWait = [] → b.fwd = some h.toNat → b.await = [] → t0 ≠ 0 →
    (s.ptime.toNat + 1 < t0 + rgF s .cohctl home 15 0 * 1000 → ∃ t, exec (.homeTimeout h line) s = .next t ∧ t = s) ∧
    (t0 + rgF s .cohctl home 15 0 * 1000 ≤ s.ptime.toNat + 1 →
      ∃ t q, exec (.homeTimeout h line) s = .next t ∧ q ∈ t.net ∧
        q.cmd = (if noHolder (setListed (dirGet s l) h.toNat false) ∧ worldAllows s b.cur.world (l * 64) ⟨false, true⟩ = true then .dataE else .dataF) ∧
        q.dst = b.cur.src ∧ q.poison = true ∧ memPoison t l = true ∧
        busyOf t l = none ∧ lists (dirGet t l) h.toNat = false ∧ lists (dirGet t l) b.cur.holder = true ∧ (getCore t h.toNat).stopped = true ∧
        rgF t .cohstat home 15 8 = h.toNat ∧ rgF t .cohstat home 63 32 = min (rgF s .cohstat home 63 32 + 1) (2 ^ 32 - 1) ∧
        (∃ n, (n ∈ t.net ∨ n ∈ t.gHeld) ∧ n.cmd = .fence ∧ n.holder = h.toNat))) ∧
  (∀ (die : DieId) (h : HolderId) (p : Packet) (u s : State),
    takePacket (fun q => q.cmd == .fence && q.holder == h.toNat && q.dst.die == die) s = some (p, u) →
    ∃ t, exec (.fence die h) s = .next t ∧ (die.val < 12 → fencedAt t die h.toNat = true) ∧
      (die.val = 12 → bit (rg t .hubHfence (h.toNat / 64)) (h.toNat % 64) = true) ∧
      (die.val = 12 → 0xF8 ≤ h.toNat → h.toNat < 0xFC → h.toNat - 0xF8 ∉ t.admitted) ∧ t.net = u.net ∧ t.dir = s.dir ∧ t.lines = s.lines ∧
      t.cores = s.cores)

/-- R221, R227, R239, R240, R294, R574: what answers do at the agent that waits. FAR_RSP writes the old value to the destination and the core's
instruction retires; RD_RSP ends a DEV load the same way; WR_CMP removes the store it completes; ERR_RSP raises BUS_ERROR for the DEV load that
waits, with its address. DEV_RD and DEV_WR reach a register of this package's window as accesses of its 8 bytes and are answered RD_RSP, with the
value read, and WR_CMP; one that no register takes ends in ERR_RSP. Where these rules are silent it states the model's choice (log entries 23 and
47). -/
def Obligations.AnswersAtAgents : Prop :=
  (∀ (c : CoreId) (line : LineNo) (a : PendAcc) (p : Packet) (u s : State), c.val ≠ 240 →
    takePacket (fun q => q.cmd == .farRsp && q.dst == coreStop c && q.txid == a.txid && pLine q == line.toNat) s = some (p, u) →
    p.cmd = .farRsp → p.poison = false → (getCore s c).acc = some a → a.pred = 0 → a.kind = .farAtomic →
    bit (getCore s c).cstat 7 = false → (getCore s c).stepping = false →
    ∃ t, exec (.farRsp c line) s = .next t ∧ (getCore t c).acc = none ∧ (getCore t c).pc = (getCore s c).pc + 4 ∧
      (∀ r, dGet t c r = dUpd (dGet s c) a.rt (BitVec.ofNat 64 p.data.toNat) r) ∧ (∀ r, aGet t c r = aGet s c r) ∧
      (getCore t c).cstat = (getCore s c).cstat ∧ t.dram = s.dram ∧ t.lines = s.lines) ∧
  (∀ (c : CoreId) (tx : BitVec 16) (a : PendAcc) (p : Packet) (u s : State), c.val ≠ 240 →
    (getCore s c).acc = some a → a.txid = tx.toNat → (getCore s c).inReset = false → timedOut s (coreStop c) tx.toNat = false → a.half = false → a.mem = false →
    isHub s (coreStop c) tx.toNat = false → hwOf s (coreStop c) tx.toNat = none →
    bit (getCore s c).cstat 7 = false → (getCore s c).stepping = false → a.kind = .devLoad →
    (takePacket (fun q => q.cmd == .rdRsp && q.dst == coreStop c && q.txid == tx.toNat) s = some (p, u) → p.poison = false → a.cls = .d → a.base = none →
      ∃ t, exec (.rdRsp (coreStop c) tx) s = .next t ∧ (getCore t c).acc = none ∧ (getCore t c).pc = (getCore s c).pc + 4 ∧
        (∀ r, dGet t c r = dUpd (dGet s c) a.rt (BitVec.ofNat 64 (p.data.toNat % 2 ^ (8 * a.size))) r) ∧ (∀ r, aGet t c r = aGet s c r) ∧
        t.dram = s.dram ∧ t.lines = s.lines) ∧
    (takePacket (fun q => q.cmd == .errRsp && q.dst == coreStop c && q.txid == tx.toNat) s = some (p, u) → (getCore s c).bar = none →
      transSt (hline s c (pLine p)).st = false → (getCore s c).waiting = false →
      ∃ t, exec (.errRsp (coreStop c) tx) s = .next t ∧ (getCore t c).acc = none ∧ plOf (getCore t c) = localTgt (getCore s c) ∧
        sysGet t c (localTgt (getCore s c) * 0x100 + 1) (secOf (getCore s c)) = (getCore s c).pc ∧
        sysGet t c (localTgt (getCore s c) * 0x100 + 3) (secOf (getCore s c)) = 0x201C000000000000 ∧
        sysGet t c (localTgt (getCore s c) * 0x100 + 4) (secOf (getCore s c)) = BitVec.ofNat 64 a.va ∧ (∀ r, dGet t c r = dGet s c r))) ∧
  (∀ (c : CoreId) (tx : BitVec 16) (e : SbEntry) (p : Packet) (u s : State), c.val ≠ 240 →
    takePacket (fun q => q.cmd == .wrCmp && q.dst == coreStop c && q.txid == tx.toNat) s = some (p, u) → p.poison = false →
    (getCore s c).sb = [e] → e.sent = true → e.txid = tx.toNat → (e.dev = true ∨ e.nc = true) → timedOut s (coreStop c) tx.toNat = false →
    isHub s (coreStop c) tx.toNat = false → askOf (getCore s c) tx.toNat = none →
    (getCore s c).bar = none → (getCore s c).waiting = false →
    ∃ t, exec (.wrCmp (coreStop c) tx) s = .next t ∧ getCore t c =
      { getCore s c with
        sb := []
        served := (getCore s c).served.filter (fun f => f.line != e.pa / 64) } ∧ t.net = u.net ∧ t.dram = s.dram ∧
      (∀ o ∈ t.outst, o.stop = coreStop c → o.txid ≠ tx.toNat) ∧ (∀ c', c' ≠ c.val → getCore t c' = getCore s c')) ∧
  (∀ (src : StopId) (tx : BitVec 16) (x : DevAns) (p : Packet) (off : Nat) (u s : State),
    Takes s p.dst → p.poison = false → paKind s p.addr = .regWin s.pkg off → p.size = 3 → p.addr % 8 = 0 → p.src = src →
    (takePacket (fun q => q.cmd == .devRd && q.src == src && q.txid == tx.toNat) s = some (p, u) →
      (∀ v, regRead u (devBy p) off = some v → ∃ t q, exec (.devRd src tx x) s = .next t ∧ q ∈ t.net ∧ q.cmd = .rdRsp ∧ q.dst = src ∧
        q.txid = p.txid ∧ q.data.toNat % 2 ^ 64 = v.toNat ∧ q.poison = false ∧ t.regs = s.regs ∧ t.cores = s.cores ∧ t.dram = s.dram) ∧
      (regRead u (devBy p) off = none → ∃ t q, exec (.devRd src tx x) s = .next t ∧ q ∈ t.net ∧ q.cmd = .errRsp ∧ q.dst = src ∧ q.txid = p.txid)) ∧
    (takePacket (fun q => q.cmd == .devWr && q.src == src && q.txid == tx.toNat) s = some (p, u) →
      (∀ w, regWrite u (devBy p) off (p.data.extractLsb' 0 64) = some w → ∃ t q, exec (.devWr src tx x) s = .next t ∧ q ∈ t.net ∧ q.cmd = .wrCmp ∧
        q.dst = src ∧ q.txid = p.txid ∧ t.regs = w.regs ∧ t.cores = w.cores ∧ t.dram = w.dram) ∧
      (regWrite u (devBy p) off (p.data.extractLsb' 0 64) = none → ∃ t q, exec (.devWr src tx x) s = .next t ∧ q ∈ t.net ∧ q.cmd = .errRsp ∧
        q.dst = src ∧ q.txid = p.txid ∧ t.regs = s.regs)))

/-- R315 to R325, R332, R570: the arbiter of a lane takes its one eligible packet out of where it waits, to the next stop of its route or to the end of
the link it enters; units bad on the hop are resent, or poison the packet, or drop it, and are logged for the next stop (log entry 84); a packet
that has waited 32 ticks gains one step of urgency, up to 15; a class G source gains a token for 128 ticks, up to 4; a domain back in RUN opens its
ingress and lets in the packets parked there, in order. -/
def Obligations.FabricForwarding : Prop :=
  (∀ (cur next : StopId) (lane : Nat) (p q : Packet) (b : Bool) (s : State), eligible s cur next lane = [(p, q, b)] → fencedOn s q 64 next = false →
    (txEnd cur next = none → (q.dst ≠ next ∨ stopDom next = none) → ∃ t, exec (.stopForward cur next lane .intact) s = .next t ∧
      t.net = s.net.erase p ++ [{ q with via := 0, at_ := some next, inp := some cur, since := s.ptime.toNat }] ∧ t.ends = s.ends ∧ t.cores = s.cores ∧
      t.lines = s.lines) ∧
    (∀ n, txEnd cur next = some n → ∃ t, exec (.stopForward cur next lane .intact) s = .next t ∧ t.net = s.net.erase p ∧
      (linkEnd t n).txq = (linkEnd s n).txq ++ [{ q with via := 0 }] ∧ (∀ m, m ≠ n → linkEnd t m = linkEnd s m) ∧ t.cores = s.cores ∧
      t.lines = s.lines) ∧
    (txEnd cur next = none → (q.dst ≠ next ∨ stopDom next = none) →
      let s1 := if b then incFab s cur.die 31 24 else s
      let there : Packet := { q with
        via := 0
        at_ := some next
        inp := some cur
        since := s.ptime.toNat }
      (∃ t, exec (.stopForward cur next lane .resent) s = .next t ∧ t.net = s.net.erase p ++ [there] ∧
        t.regs = (logErr s1 (ceLog next.die) 0x0B next.stop 0 0).regs ∧ t.ends = s.ends ∧ t.cores = s.cores ∧ t.lines = s.lines) ∧
      (0 < pktLen q → ∃ t, exec (.stopForward cur next lane .dataBad) s = .next t ∧
        t.net = s.net.erase p ++ [{ there with poison := true }] ∧
        t.regs = (logErr s1 (evLog next.die) 0x16 next.stop 0 q.addr).regs ∧ t.ends = s.ends ∧ t.cores = s.cores ∧ t.lines = s.lines) ∧
      (∃ t, exec (.stopForward cur next lane .headerBad) s = .next t ∧ t.net = s.net.erase p ∧
        t.regs = (logErr s1 (evLog next.die) 0x16 next.stop 0 0).regs ∧ t.ends = s.ends ∧ t.cores = s.cores ∧ t.lines = s.lines))) ∧
  (∀ (i : Nat) (p : Packet) (s : State), s.net[i]? = some p →
    (p.since + 32 ≤ s.ptime.toNat → p.at_ ≠ some p.dst → ∃ t, exec (.urgencyAgeing i) s = .next t ∧
      t.net[i]? = some { p with urg := min 15 (p.urg + 1), since := p.since + 32 } ∧ (∀ j, j ≠ i → t.net[j]? = s.net[j]?) ∧ { t with net := s.net } = s) ∧
    (s.ptime.toNat < p.since + 32 → ∃ t, exec (.urgencyAgeing i) s = .next t ∧ t = s)) ∧
  (∀ (st : StopId) (s : State), gSource st = true → (∀ p ∈ s.gHeld, p.src ≠ st) →
    let t0 := tget 0 (stopKey st) s.tokenAt
    (t0 + 128 ≤ s.ptime.toNat → ∃ t, exec (.tokenGain st) s = .next t ∧ tokensOf t st = min 4 (tokensOf s st + 1) ∧
      tget 0 (stopKey st) t.tokenAt = t0 + 128 ∧ { t with
        tokens := s.tokens
        tokenAt := s.tokenAt } = s) ∧
    (s.ptime.toNat < t0 + 128 → ∃ t, exec (.tokenGain st) s = .next t ∧ t = s)) ∧
  (∀ (st : StopId) (s : State), st.die < 12 → st.stop < 20 → domState s (st.die * 20 + st.stop) = 5 →
    ∃ t, exec (.ingressReopen st) s = .next t ∧ domState t (st.die * 20 + st.stop) = 0 ∧ ingress t st = 0 ∧
      t.net = s.net ++ s.parked.filter (fun p => p.dst == st) ∧ t.parked = s.parked.filter (fun p => p.dst != st) ∧ t.dram = s.dram ∧
      t.lines = s.lines)

/-- R14, R333 to R335, R337, R355: FSTOPn.STATE takes the moves of R333, and only from the management processor; a stop in BYPASS_PENDING is in BYPASS
once drained, and FENCED 20 µs after its window opened; REJOIN becomes ACTIVE. Fencing and rejoining a rim segment go through FENCING and REJOINING,
shown in the RIMSTATs of both stacks, with a broadcast; a rim stop that gets it holds; once all hold and nothing moves on the old routes the segment
is DRAINED; then the new routes apply, it is FENCED and the stops release what they hold; a rejoining one is ACTIVE again. Where these rules are
silent it states the model's choice (log entry 49). -/
def Obligations.StopsAndRimSegments : Prop :=
  (∀ (b : By) (st : StopId) (v : Word) (s : State), st.die ≤ 12 → st.stop < 32 →
    let old := stopState s st
    let x := fld v 2 0
    ∃ t, exec (.fstopWrite b st v) s = .next t ∧
      stopState t st = (if b = .mp ∧ ((old = 0 ∧ (x = 1 ∨ x = 4)) ∨ (old = 2 ∧ x = 3)) then x else old) ∧
      (∀ st', st'.die ≤ 12 → st'.stop < 32 → st' ≠ st → stopState t st' = stopState s st') ∧ t.dram = s.dram ∧ t.lines = s.lines) ∧
  (∀ (st : StopId) (s : State), st.die ≤ 12 → st.stop < 32 →
    (stopState s st = 1 → drained s st = true → ∃ t, exec (.stopDrained st) s = .next t ∧ stopState t st = 2 ∧ RegsOnly [fstopOf st] s t) ∧
    (stopState s st = 1 → drained s st = false → ∃ t, exec (.stopDrained st) s = .next t ∧ t = s) ∧
    (stopState s st = 1 → tget 0 (stopKey st) s.fstopAt + 20000 ≤ s.ptime.toNat → ∃ t, exec (.stopDrainTimeout st) s = .next t ∧
      stopState t st = 4 ∧ (∀ p ∈ s.net, p.dst ≠ st → p ∈ t.net) ∧ t.cores = s.cores) ∧
    (stopState s st = 3 → ∃ t, exec (.stopRejoined st) s = .next t ∧ stopState t st = 0 ∧ RegsOnly [fstopOf st] s t)) ∧
  (∀ (g : StackId) (s : State),
    let shown := fun (t : State) (x : Nat) => segState t g = x ∧ rgF t .rimstat g 2 0 = x ∧ rgF t .rimstat ((g.val + 1) % 12) 2 0 = x
    let told := fun (t : State) => ∃ p, (p ∈ t.net ∨ p ∈ t.gHeld) ∧ p.cmd = .pwr ∧ p.arg = g.val ∧ p.src = ⟨g.val, 30⟩ ∧ p.dst.stop = 28
    (segState s g = 0 → ∃ t, exec (.rimFence .mp g) s = .next t ∧ shown t 1 ∧ told t ∧ rgF t .rimctl g 0 0 = 1) ∧
    (segState s g = 3 → ∃ t, exec (.rimUnfence .mp g) s = .next t ∧ shown t 4 ∧ told t ∧ rgF t .rimctl g 0 0 = 0) ∧
    (segState s g = 1 → allHold s g = true → rimBusy s false = false → ∃ t, exec (.rimDrained g) s = .next t ∧
      shown t 2 ∧ t.rimHold = s.rimHold ∧ t.net = s.net) ∧
    (segState s g = 2 → rgF s .rimctl g 0 0 = 1 → ∃ t, exec (.rimDrained g) s = .next t ∧ shown t 3 ∧ (∀ d, d < 12 → tget false (g.val * 12 + d) t.rimHold = false) ∧ t.net = s.net) ∧
    (segState s g = 4 → allHold s g = true → rimBusy s true = false → rgF s .rimctl g 0 0 = 0 → ∃ t, exec (.rimDrained g) s = .next t ∧
      shown t 0 ∧ (∀ d, d < 12 → tget false (g.val * 12 + d) t.rimHold = false) ∧ t.net = s.net) ∧
    (linkOut s (3 * g.val) 20000 = true → segState s g = 0 → rgF s .pkgstat 0 10 8 < 3 → ∃ t, exec (.rimLinkOutage g) s = .next t ∧
      shown t 1 ∧ told t)) ∧
  (∀ (die : DieId) (p : Packet) (u s : State), takePacket (fun p => p.cmd == .pwr && p.dst.die == die.val) s = some (p, u) → p.holder = 1 →
    die.val < 12 → p.arg < 12 →
    ∃ t, exec (.pwr die) s = .next t ∧ tget false (p.arg * 12 + die.val) t.rimHold = true ∧ t.net = u.net ∧ t.seg = s.seg)

/-- R338 to R345, R341: an end of an ACTIVE Sprue link sends its next DATA unit, of the packet under way or else of the oldest packet whose class has a
credit (R321, R322), keeps it in the riser and numbers the next one; the peer takes a unit that passes its check under the number it expects,
acknowledges it and lands the packet with its last unit, and asks again for one that does not; ACK removes units from the riser, NAK resends them
and is counted, CREDIT and its refresh carry the counts. Where these rules are silent it states the model's choice (log entry 48). -/
def Obligations.SprueTransfer : Prop :=
  ∀ (n : EndId) (s : State), lsState s n = 5 →
    let e := linkEnd s n
    let o := linkEnd s (peerEnd n)
    (∀ p ps, nextTx e = some (p, ps) → e.riser.length < 256 →
      ∃ t u, exec (.sprueDataSend n true) s = .next t ∧ u.seq = e.txSeq ∧ u.pkt = p ∧ u.idx = e.txIdx ∧ u.last = decide (e.txIdx = pktLen p) ∧
        (linkEnd t n).riser = e.riser ++ [u] ∧ (linkEnd t n).txSeq = (e.txSeq + 1) % 512 ∧ (linkEnd t (peerEnd n)).wire = o.wire ++ [.data u] ∧
        (u.last = true → (linkEnd t n).txq = ps ∧ (linkEnd t n).txIdx = 0) ∧
        (u.last = false → (linkEnd t n).txq = p :: ps ∧ (linkEnd t n).txIdx = e.txIdx + 1) ∧ t.net = s.net ∧
        (∀ m, m ≠ n.val → m ≠ peerEnd n → linkEnd t m = linkEnd s m)) ∧
    (∀ u ws, takeData e.wire = some (u, ws) → u.seq = e.rxNext → ∃ t, exec (.sprueDataReceive n 0) s = .next t ∧
      (linkEnd t n).wire = ws ∧ (linkEnd t n).rxNext = (e.rxNext + 1) % 512 ∧ (linkEnd t (peerEnd n)).wire = o.wire ++ [.ack u.seq] ∧
      (u.last = false → t.net = s.net) ∧
      (u.last = true → u.pkt.dst ≠ endStop n → t.net = s.net ++ [{ u.pkt with via := n.val + 1, at_ := some (endStop n), inp := some (endStop (peerEnd n)), since := s.ptime.toNat }])) ∧
    (∀ u ws f, takeData e.wire = some (u, ws) → framePasses e.rxNext (frameOf s.pkg u ^^^ f) = false → e.nakAt = none →
      ∃ t, exec (.sprueDataReceive n f) s = .next t ∧ (linkEnd t n).wire = ws ∧ (linkEnd t n).rxNext = e.rxNext ∧
        (linkEnd t (peerEnd n)).wire = o.wire ++ [.nak e.rxNext] ∧ t.net = s.net) ∧
    (∀ q ws u us, takeCtrl isAck e.wire = some (.ack q, ws) → riserFrom e q = u :: us → ∃ t, exec (.ack n true) s = .next t ∧
      (linkEnd t n).riser = us ∧ (linkEnd t n).wire = ws ∧ t.net = s.net ∧ t.regs = s.regs ∧ (∀ m, m ≠ n.val → linkEnd t m = linkEnd s m)) ∧
    (∀ q ws, takeCtrl isNak e.wire = some (.nak q, ws) → riserFrom e q ≠ [] → (∀ u ∈ riserFrom e q, tget 0 u.seq e.tries < 3) → e.reWin.count = 0 → ∃ t, exec (.nak n true) s = .next t ∧
      (linkEnd t (peerEnd n)).wire = o.wire ++ (riserFrom e q).map WUnit.data ∧ (linkEnd t n).riser = e.riser ∧ lsState t n = 5 ∧
      rgF t (lnReg n).1 (lnReg n).2 63 32 = min (rgF s (lnReg n).1 (lnReg n).2 63 32 + 1) (2 ^ 32 - 1) ∧ t.net = s.net) ∧
    (∀ g h q b ws, takeCtrl isCredit e.wire = some (.credit g h q b, ws) → ∃ t, exec (.credit n true) s = .next t ∧
      tget 0 0 (linkEnd t n).peerFreed = g ∧ tget 0 1 (linkEnd t n).peerFreed = h ∧ tget 0 2 (linkEnd t n).peerFreed = q ∧
      tget 0 3 (linkEnd t n).peerFreed = b ∧ (linkEnd t n).wire = ws ∧ t.net = s.net ∧ t.regs = s.regs) ∧
    (∃ t, exec (.creditRefresh n) s = .next t ∧ (linkEnd t (peerEnd n)).wire =
      o.wire ++ [.credit (freedCount s n .g) (freedCount s n .h) (freedCount s n .q) (freedCount s n .b)] ∧ t.net = s.net ∧ t.regs = s.regs) ∧
    (∀ t0, e.nakAt = some t0 → t0 + 15 ≤ s.ptime.toNat → ∃ t, exec (.nakRepeat n) s = .next t ∧
      (linkEnd t (peerEnd n)).wire = o.wire ++ [.nak e.rxNext] ∧ (linkEnd t n).rxNext = e.rxNext ∧ t.net = s.net ∧ t.regs = s.regs)

/-- R346 to R351, R356, R357, R643: the training states of a Sprue end. DETECT goes to SAFE_TRAIN with a new EPOCH, or to DOWN after 1 ms; a TRAIN of
the peer gives an end in SAFE_TRAIN the peer's epoch and the revision both run at; the tests leave QMASK; WIDE_TRAIN goes to CONFIRM or back;
CONFIRM with agreeing choices makes both ends ACTIVE, and goes back after 1 µs without one; RETRAIN and RESET do as LINKCTL says, from the
management processor; a spoke link in DOWN fences its stack, stops its cores and leaves their logical numbers vacant (R32). Where these rules are
silent it states the model's choice (log entry 54). -/
def Obligations.SprueTraining : Prop :=
  (∀ (n : EndId) (s : State),
    let p := peerEnd n
    let e := linkEnd s n
    (lsState s n = 1 → lsState s p ≠ 0 → lsState s p ≠ 7 → ∃ t, exec (.detectLock n) s = .next t ∧ lsState t n = 2 ∧
      lsF t n 63 56 = (lsF s n 63 56 + 1) % 256 ∧ (linkEnd t n).peerQ = none ∧ lsState t p = lsState s p) ∧
    (lsState s n = 1 → e.since + 1000000 ≤ s.ptime.toNat → ∃ t, exec (.detectTimeout n) s = .next t ∧ lsState t n = 7 ∧
      lsF t n 31 30 = 3 ∧ (linkEnd t n).riser = [] ∧ (linkEnd t n).txq = []) ∧
    (∀ r, lsState s n = 2 → lsState s p = 2 ∨ lsState s p = 3 → agreedRev s n = some r → r < 256 → e.tested = false → ∃ t, exec (.train n) s = .next t ∧
      lsState t n = 2 ∧ lsF t n 55 48 = lsF s p 63 56 ∧ lsF t n 39 32 = r ∧ ((linkEnd s p).tested = true → (linkEnd t n).peerQ = some (lsF s p 47 44)) ∧
      lsState t p = lsState s p) ∧
    (∀ passed : BitVec 4, lsState s n = 2 → e.peerQ = none → ∃ t, exec (.safeTrainDone n passed) s = .next t ∧
      lsF t n 47 44 = passed.toNat &&& (15 - lsF s n 43 40) ∧ (linkEnd t n).tested = true ∧ lsState t n = 2) ∧
    (lsState s n = 3 → (∃ t, exec (.wideTrainDone n true) s = .next t ∧ lsState t n = 4) ∧ ∃ t, exec (.wideTrainDone n false) s = .next t ∧ lsState t n = 2) ∧
    (lsState s n = 4 → e.since + 1000 ≤ s.ptime.toNat → ∃ t, exec (.confirmTimeout n) s = .next t ∧ lsState t n = 2) ∧
    (lsState s n = 4 → lsState s p = 4 → lsF s p 63 56 = lsF s n 55 48 → lsF s p 55 48 = lsF s n 63 56 →
      e.width = (linkEnd s p).width → e.qsel = (linkEnd s p).qsel → e.width < 3 → e.qsel < 4 → (linkEnd s p).rxNext = e.txSeq → e.rxNext = (linkEnd s p).txSeq →
      ∃ t, exec (.confirm n) s = .next t ∧ lsState t n = 5 ∧ lsState t p = 5 ∧ lsF t n 31 30 = e.width ∧ lsF t p 31 30 = e.width ∧
        (linkEnd t n).riser = [] ∧ (linkEnd t p).riser = [] ∧ (linkEnd t n).txSeq = e.txSeq ∧ t.net = s.net) ∧
    (lsState s n = 5 → lsF s n 19 19 = 0 → ∃ t, exec (.linkRetrain .mp n) s = .next t ∧ lsState t n = 2 ∧ lsF t n 63 56 = (lsF s n 63 56 + 1) % 256 ∧
      rgF t (lnReg n).1 (lnReg n).2 31 16 = min (rgF s (lnReg n).1 (lnReg n).2 31 16 + 1) 65535 ∧ (linkEnd t n).riser = e.riser ∧ t.net = s.net) ∧
    (¬(36 ≤ n.val ∧ tget false (n.val - 36) s.fencedStk = true) → ∃ t, exec (.linkReset .mp n) s = .next t ∧ lsState t n = 1 ∧
      rg t (lcReg n).1 (lcReg n).2 = regReset (lcReg n).1 ∧ lsF t n 63 56 = lsF s n 63 56 ∧ (linkEnd t n).riser = e.riser ∧
      (linkEnd t n).rxNext = e.rxNext)) ∧
  (∀ (k : StackId) (s : State), (lsState s (36 + k.val) = 7 ∨ lsState s (3 * k.val + 2) = 7) → tget false k s.fencedStk = false →
    ∃ t, exec (.spokeLinkFence k) s = .next t ∧ tget false k t.fencedStk = true ∧ (∀ c, c / 20 = k.val → (getCore t c).stopped = true) ∧
      rgF t .bustat 0 (3 * k.val + 2) (3 * k.val) = 6 ∧ bit (rg t .intsrc (32 * k.val + 11)) 1 = true ∧
      (∀ l, l < 216 → rgF s .lcmap l 11 8 = k.val → rg t .lcmap l = 0) ∧
      (∀ c, c / 20 ≠ k.val → (getCore t c).stopped = (getCore s c).stopped))

/-- R351, R359 to R364: an ACTIVE Palrath group takes a good flit under the number it expects and asks again for any other; a reset puts it back into
training and keeps its riser; a bundle whose groups changed, with nothing left to drain, applies the new groups. IDENT of another package of the
same major makes the group ACTIVE at the lesser width, and at the master a candidate; another major, or a duplicate ID, holds the group. After 100
ms the master admits the candidates it may and fixes the minor; a package that waits sends IDENT again every 100 ms and takes what JOIN_GRANT gives:
revision, packages present, features and the master's time. Where these rules are silent it states the model's choice (log entry 50). -/
def Obligations.CascadeAdmission : Prop :=
  (∀ (g : GroupId) (f : FlitIn) (s : State), isPal s g = true → palState s g = 3 →
    let e := palEnd s g
    (f.good = true → f.seq.toNat = e.rxNext → f.msgs = [] → e.riser = [] → e.txq = [] → f.nak = false → nextOut s g = none → ∃ t, exec (.palrathFlit g f) s = .next t ∧
      (palEnd t g).rxNext = (e.rxNext + 1) % 4096 ∧ (palEnd t g).nak = false ∧ t.net = s.net ∧ t.regs = s.regs ∧
      (∀ m, m ≠ g.val → palEnd t m = palEnd s m)) ∧
    (f.good = false → ∃ t, exec (.palrathFlit g f) s = .next t ∧ (palEnd t g).nak = true ∧ (palEnd t g).rxNext = e.rxNext ∧
      (palEnd t g).riser = e.riser ∧ t.net = s.net ∧ t.regs = s.regs) ∧
    (∃ t, exec (.palLinkReset .mp g) s = .next t ∧ palState t g = 1 ∧ rgF t .palstat g 19 18 = 0 ∧ (palEnd t g).riser = e.riser ∧
      (palEnd t g).rxNext = e.rxNext ∧ t.net = s.net)) ∧
  (∀ (p : Fin 4) (s : State), (∀ g, (palEnd s g).riser = [] ∧ (palEnd s g).txq = []) → ∃ t, exec (.bundleChange p) s = .next t ∧
    (tget {} p t.bundles).groups = activeGroups s p ∧ (tget {} p t.bundles).hold = false ∧ t.net = s.net) ∧
  (∀ (i : IdentIn) (s : State), isPal s i.group = true → palState s i.group ≠ 4 → palState s i.group ≠ 0 → i.id.val ≠ 0 ∨ tget none i.id s.seenIds = none →
    (i.id.val ≠ s.pkg → i.rev.toNat / 16 = palRev s / 16 → i.width ≠ 0 → s.otherMaster = false → (activeGroups s i.id).length < bundleMax s →
      (isMaster s = true → rgF s .cascstat 0 55 48 = 0 ∨ s.admitted.contains i.id.val = true) →
      ∃ t, exec (.ident i) s = .next t ∧ palState t i.group = 3 ∧ rgF t .palstat i.group 23 22 = i.id ∧ rgF t .palstat i.group 31 24 = i.rev.toNat ∧
        tget none i.id t.seenIds = some i.serial ∧ (palEnd t i.group).said = some (identMsg s) ∧
        (isMaster s = true → rgF s .cascstat 0 55 48 = 0 → (⟨i.id, i.rev.toNat, i.features.toNat, i.seen.toNat⟩ : Cand) ∈ t.cands)) ∧
    (i.id.val ≠ s.pkg → i.rev.toNat / 16 = palRev s / 16 → i.width ≠ 0 → s.otherMaster = false → (activeGroups s i.id).length < bundleMax s →
      isMaster s = true → rgF s .cascstat 0 55 48 ≠ 0 → s.admitted.contains i.id.val = false → i.rev.toNat % 16 < rgF s .cascstat 0 51 48 →
      ∃ t, exec (.ident i) s = .next t ∧ palState t i.group = 4 ∧ t.admitted = s.admitted) ∧
    (i.id.val ≠ s.pkg → i.rev.toNat / 16 ≠ palRev s / 16 → ∃ t, exec (.ident i) s = .next t ∧ palState t i.group = 4 ∧
      rgF t .palstat i.group 20 20 = 1) ∧
    (i.id.val = s.pkg → ∃ t, exec (.ident i) s = .next t ∧ palState t i.group = 4 ∧ rgF t .palstat i.group 21 21 = 1 ∧ rgF t .cascstat 0 5 5 = 1)) ∧
  (∀ s : State, rgF s .cascstat 0 7 7 = 1 →
    (s.identAt + 100000000 ≤ s.ptime.toNat → ∃ t, exec .identRepeat s = .next t ∧ t.identAt = s.ptime.toNat ∧
      (∀ g, g < 32 → isPal s g = true → (palEnd t g).said = some (identMsg s)) ∧ { t with
        identAt := s.identAt
        pals := s.pals } = s) ∧
    (s.ptime.toNat < s.identAt + 100000000 → ∃ t, exec .identRepeat s = .next t ∧ t = s)) ∧
  (∀ (t0 : Nat) (s : State), s.hubAt = some t0 → isMaster s = true → t0 + 100000000 ≤ s.ptime.toNat → rgF s .cascstat 0 55 48 = 0 →
    (s.cands = [] → ∃ t, exec .admissionWindowEnd s = .next t ∧ rgF t .cascstat 0 55 48 = palRev s ∧ t.admitted = s.admitted) ∧
    (∀ x, s.cands = [x] → admissible s x = true → x.pkg < 4 → x.rev % 16 < palRev s % 16 → ∃ t, exec .admissionWindowEnd s = .next t ∧
      rgF t .cascstat 0 55 48 = palRev s / 16 * 16 + x.rev % 16 ∧ t.admitted = s.admitted ++ [x.pkg] ∧ t.cands = [] ∧
      (∀ g ∈ activeGroups s x.pkg, (palEnd t g).said = some (.grant (rgF t .cascstat 0 55 48) (rgF t .cascstat 0 63 60) (rg t .cascfeat 0) s.ptime)) ∧
      rgF t .cascstat 0 (60 + x.pkg) (60 + x.pkg) = 1 ∧ rg t .cascfeat 0 = rg s .cascfeat 0 &&& BitVec.ofNat 64 x.features)) ∧
  (∀ (rev : BitVec 8) (present : BitVec 4) (features time half : Word) (s : State), isMaster s = false → rgF s .cascstat 0 7 7 = 1 → s.pkg < 4 →
    ∃ t, exec (.joinGrant rev present features time half) s = .next t ∧ rgF t .cascstat 0 55 48 = rev.toNat ∧ rgF t .cascstat 0 7 7 = 0 ∧
      rgF t .cascstat 0 63 60 = present.toNat ||| 2 ^ s.pkg ∧ rg t .cascfeat 0 = features ∧ t.ptime = time + half ∧ t.tbMode = 1 ∧
      (∀ p, p < 4 → (p ∈ t.admitted ↔ p = s.pkg ∨ present.toNat.testBit p = true)))

/-- R130, R365 to R368: once per microsecond the master sends its time to every admitted package; a package slews towards it and is LOCKED; after 100 µs
without, it is in HOLDOVER. The loss of a bundle cuts the package R367 names: another is fenced as a holder and no longer present; this one goes
into holdover alone. A TINV that waits at the master, its own or another package's, is numbered, sent to every package and queued for every core;
elsewhere it leaves for the master, and one that comes in order is performed, one out of order not. When the last package reports completion the
issuing core no longer waits for it. Where these rules are silent it states the model's choice (log entry 55). -/
def Obligations.CascadeTimeAndCuts : Prop :=
  (∀ (p : Nat) (s : State), isMaster s = true → s.timeSentAt + 1000 ≤ s.ptime.toNat → p ≠ s.pkg → s.admitted = [s.pkg, p] →
    ∃ t q, exec .timeSend s = .next t ∧ t.timeSentAt = s.ptime.toNat ∧ (q ∈ t.net ∨ q ∈ t.gHeld) ∧ q.cmd = .time ∧ q.holder = 0xF8 + p ∧
      q.data = BitVec.ofNat 512 s.ptime.toNat ∧ t.ptime = s.ptime) ∧
  (∀ (time half : Word) (s : State), isMaster s = false → rgF s .cascstat 0 7 7 = 0 → (∃ p ∈ s.admitted, p ≠ s.pkg) →
    ∃ t, exec (.time time half) s = .next t ∧ t.slew = ((time + half).toNat : Int) - (s.ptime.toNat : Int) ∧ t.ptime = s.ptime ∧
      t.timeAt = some s.ptime.toNat ∧ t.tbMode = 1 ∧ rgF t .cascstat 0 6 6 = 0 ∧ t.cores = s.cores) ∧
  (∀ (t0 : Nat) (s : State), s.timeAt = some t0 → isMaster s = false → t0 + 100000 ≤ s.ptime.toNat →
    ∃ t, exec .timeHoldover s = .next t ∧ t.tbMode = 2 ∧ t.slew = 0 ∧ t.timeAt = none ∧ rgF t .cascstat 0 6 6 = 1 ∧ t.ptime = s.ptime) ∧
  (∀ (a b : Fin 4) (s : State), a ≠ b → a.val ∈ s.admitted → b.val ∈ s.admitted → s.pkg < 4 →
    let c := cutOf a b
    (s.pkg ≠ a → s.pkg ≠ b → ∃ t, exec (.bundleLoss a b) s = .next t ∧ c ∉ t.admitted ∧ rgF t .cascstat 0 (60 + c) (60 + c) = 0 ∧
      rgF t .cascstat 0 (56 + c) (56 + c) = 1 ∧ (∃ p, (p ∈ t.net ∨ p ∈ t.gHeld) ∧ p.cmd = .fence ∧ p.holder = 0xF8 + c)) ∧
    (a.val = s.pkg → c = s.pkg → bundleLost s b = true → ∃ t, exec (.bundleLoss a b) s = .next t ∧ t.admitted = [s.pkg] ∧ t.tbMode = 2 ∧
      bit (rg t .intsrc 915) 1 = true ∧ rgF t .cascstat 0 (56 + c) (56 + c) = 1)) ∧
  (∀ (x : Bcast) (y : Tinv) (s : State), s.bcasts = [x] → x.pkg = s.pkg → x.kind = .tinv → x.tinv = some y → x.sent = false → x.num = false →
    (isMaster s = true → tinvTargets s ≠ [] → ∃ t, exec (.cascadeBroadcast none) s = .next t ∧ t.bcastSeq = s.bcastSeq + 1 ∧
      t.bcasts = [{ x with sent := true, num := true, seq := s.bcastSeq, left := s.admitted }] ∧
      t.tinvQ = s.tinvQ ++ (tinvTargets s).map (fun c => (c, { y with from_ := bcastTag s.bcastSeq })) ∧
      (∀ p ∈ s.admitted, p ≠ s.pkg →
        ∃ q ∈ t.net, q.cmd = .tinvBc ∧ q.holder = 0xF8 + p ∧ q.arg = s.bcastSeq ∧ q.dirty = false ∧ q.tinv = some y)) ∧
    (isMaster s = false → ∃ t q, exec (.cascadeBroadcast none) s = .next t ∧ t.bcasts = [{ x with sent := true }] ∧ t.net = s.net ++ [q] ∧
      q.cmd = .tinvBc ∧ q.holder = 0xF8 ∧ q.dirty = false ∧ q.tinv = some y ∧ t.tinvQ = s.tinvQ ∧ t.bcastSeq = s.bcastSeq)) ∧
  (∀ (b : BcIn) (y : Tinv) (s : State), b.done = false → b.pkg.val ≠ s.pkg → b.kind = .tinv → b.tinv = some y → tinvTargets s ≠ [] →
    let heard := fun (t : State) (n : Nat) => t.bcastSeq = s.bcastSeq + 1 ∧
      t.tinvQ = s.tinvQ ++ (tinvTargets s).map (fun c => (c, { y with from_ := bcastTag n }))
    (isMaster s = true → ∃ t x, exec (.cascadeBroadcast (some b)) s = .next t ∧ heard t s.bcastSeq ∧ t.bcasts = s.bcasts ++ [x] ∧
      x.pkg = b.pkg.val ∧ x.seq = s.bcastSeq ∧ x.num = true ∧ x.left = s.admitted ∧
      (∀ p ∈ s.admitted, p ≠ s.pkg → ∃ q ∈ t.net, q.cmd = .tinvBc ∧ q.holder = 0xF8 + p ∧ q.arg = s.bcastSeq ∧ q.tinv = some y)) ∧
    (isMaster s = false → b.seq = s.bcastSeq → ∃ t, exec (.cascadeBroadcast (some b)) s = .next t ∧ heard t b.seq) ∧
    (isMaster s = false → b.seq ≠ s.bcastSeq → ∃ t, exec (.cascadeBroadcast (some b)) s = .next t ∧ t = s)) ∧
  (∀ (b : BcIn) (x : Bcast) (s : State), b.done = true → isMaster s = true → b.pkg.val ≠ s.pkg → s.bcasts = [x] → x.num = true → x.seq = b.seq →
    x.pkg = s.pkg → coreOfStop x.src ≤ 240 → x.left = [b.pkg.val] →
    ∃ t, exec (.cascadeBroadcast (some b)) s = .next t ∧ t.bcasts = [] ∧
      (getCore t (coreOfStop x.src)).tinvOut = (getCore s (coreOfStop x.src)).tinvOut.erase 0xFFF ∧ t.net = s.net)

/-- R380, R382 to R384, R389, R390: a patrol read in order advances POS, or ends the pass and counts it; an uncorrectable line it meets is poisoned. A
write of MCCTL sets CETHR unless it is locked or the value is 0, and is judged at once; LOGCLR clears the channel's logs. A key command that may run
leaves KEYDATA zero, STATUS BUSY and its result pending, which KEY_COMMAND_DONE puts into the key table; one that may not answers its code and
leaves the table. Where these rules are silent it states the model's choice (log entry 52). -/
def Obligations.MemoryChannelsAndKeys : Prop :=
  (∀ (ch : Fin 24) (s : State), chState s ch = 2 → rgF s .mcscrub ch 7 0 ≠ 0 → rgF s .pkgstat 0 10 8 < 4 → ch.val ∈ s.hashChs →
    tget 0 ch s.scrubAt + scrubGap s ch ≤ now s → memC s ≤ 2 ^ 39 →
    let pos := rgF s .mcscrub ch 40 8
    let line := caPa s ch (pos * 64) / 64
    let passed := fun (t : State) => tget 0 ch t.scrubAt = now s ∧ t.dram = s.dram ∧
      ((pos + 1) * 64 < memC s → rgF t .mcscrub ch 40 8 = pos + 1 ∧ rgF t .mcscrub ch 63 48 = rgF s .mcscrub ch 63 48) ∧
      (memC s ≤ (pos + 1) * 64 → rgF t .mcscrub ch 40 8 = 0 ∧ rgF t .mcscrub ch 63 48 = min (rgF s .mcscrub ch 63 48 + 1) 65535)
    (memPoison s line = false → ∃ t, exec (.patrolScrubRead ch .clean) s = .next t ∧ passed t ∧ t.poisoned = s.poisoned ∧
      { t with
        regs := s.regs
        scrubAt := s.scrubAt } = s) ∧
    (∀ dev rank, (lineLoc s line).ch < 24 → ∃ t, exec (.patrolScrubRead ch (.uncorrectable dev rank)) s = .next t ∧ passed t ∧
      memPoison t line = true ∧ (∀ l, l ≠ line → memPoison t l = memPoison s l))) ∧
  (∀ (b : By) (ch : Fin 24) (v : Word) (s : State),
    (ownStk s (ch.val / 2) = false ∨ bySec b = true →
      (∃ t, exec (.mcctlWrite b ch v) s = .next t ∧
        rgF t .mcctl ch 31 16 = (if rgF s .mcctl ch 32 32 = 1 ∨ fld v 31 16 = 0 then rgF s .mcctl ch 31 16 else fld v 31 16) ∧
        (rgF t .mcctl ch 32 32 = 1 ↔ rgF s .mcctl ch 32 32 = 1 ∨ bit v 32 = true) ∧
        (rgF s .mccestat ch 3 3 = 0 → rgF t .mcctl ch 31 16 ≤ rgF s .mccestat ch 31 16 →
          rgF t .mccestat ch 3 3 = 1 ∧ bit (rg t .intsrc (32 * (ch.val / 2) + 4 + ch.val % 2)) 1 = true) ∧
        (bit v 0 = false → RegsOnly [(.mcctl, ch.val), (.mccestat, ch.val), (.intsrc, 32 * (ch.val / 2) + 4 + ch.val % 2)]
          { s with mpPend := t.mpPend } t)) ∧
      (∃ t, exec (.mcLogclr b ch) s = .next t ∧ (∀ n, n < 8 → rg t .mccelog (ch.val * 8 + n) = 0) ∧ rg t .mcuelog ch = 0 ∧
        rgF t .mccestat ch 15 8 = 0 ∧ rgF t .mccestat ch 2 0 = 0 ∧ rgF t .mccestat ch 63 16 = rgF s .mccestat ch 63 16 ∧
        RegsOnly ([(.mcuelog, ch.val), (.mccestat, ch.val)] ++ (List.range 8).map (fun n => (RegName.mccelog, ch.val * 8 + n))) s t)) ∧
    (ownStk s (ch.val / 2) = true → bySec b = false → ∀ i ∈ [Instr.mcctlWrite b ch v, .mcLogclr b ch], ∃ t, exec i s = .next t ∧
      { t with hlog := s.hlog } = s)) ∧
  (∀ (b : By) (k : BitVec 11) (sown : Bool) (s : State), rgF s .keystat 0 7 0 ≠ 1 → k ≠ 0 → (bySec b = true ∨ ((memKey s k.toNat).sown = false ∧ sown = false)) →
    let own := (memKey s k.toNat).sown || sown
    let started := fun (t : State) => rgF t .keystat 0 7 0 = 1 ∧ (∀ i, i < 8 → rg t .keydata i = 0) ∧ t.keys = s.keys
    (∃ t, exec (.keyLoad b k sown) s = .next t ∧ started t ∧ t.keyPend = some ⟨k.toNat, some (keyDataOf s 0, keyDataOf s 4), own⟩) ∧
    (∃ t a, exec (.keyGenerate b k sown true) s = .next t ∧ started t ∧ t.keyPend = some ⟨k.toNat, some a, own⟩) ∧
    (∃ t, exec (.keyClear b k sown) s = .next t ∧ started t ∧ t.keyPend = some ⟨k.toNat, none, false⟩) ∧
    (∃ t, exec (.keyGenerate b k sown false) s = .next t ∧ rgF t .keystat 0 7 0 = 0x12 ∧ t.keys = s.keys ∧ t.keyPend = s.keyPend)) ∧
  (∀ (b : By) (k : BitVec 11) (sown : Bool) (s : State), ∀ i ∈ [Instr.keyLoad b k sown, .keyGenerate b k sown true, .keyClear b k sown],
    (rgF s .keystat 0 7 0 = 1 → ∃ t, exec i s = .next t ∧ rgF t .keystat 0 8 8 = 1 ∧ RegsOnly [(.keystat, 0)] s t) ∧
    (rgF s .keystat 0 7 0 ≠ 1 → k = 0 → ∃ t, exec i s = .next t ∧ rgF t .keystat 0 7 0 = 0x11 ∧ RegsOnly [(.keystat, 0), (.keycmd, 0)] s t) ∧
    (rgF s .keystat 0 7 0 ≠ 1 → k ≠ 0 → bySec b = false → (memKey s k.toNat).sown = true ∨ sown = true →
      ∃ t, exec i s = .next t ∧ rgF t .keystat 0 7 0 = 0x10 ∧ t.keys = s.keys ∧ t.keyPend = s.keyPend)) ∧
  (∀ (p : KeyPend) (s : State), s.keyPend = some p → ∃ t, exec .keyCommandDone s = .next t ∧ t.keyPend = none ∧ rgF t .keystat 0 7 0 = 2 ∧
    (memKey t p.keyid).loaded = p.key.isSome ∧ (memKey t p.keyid).sown = p.sown ∧
    (∀ a, p.key = some a → (memKey t p.keyid).k1 = a.1 ∧ (memKey t p.keyid).k2 = a.2) ∧
    (∀ k, k ≠ p.keyid → memKey t k = memKey s k) ∧ t.dram = s.dram)

/-- R220, R237, R397, R399, R400, R402 to R404, R427, R529: LGCTL is the management processor's; personality 0 takes a group down, its ports answering
with errors until a link is up again; a new personality is taken only while the group is OFF. A root port whose link is down ends what it holds in
error; outside L0 it holds DEV accesses until its link returns or DEVSTO ends; a partner without Flit Mode is never brought up. A completion ends
the oldest access under its TXID. An inbound request is completed with what memory gives it, in error where that fails, and holds those behind it
while a home has not answered (`hubEnd` closes the command: requests of the hub's agents that wait leave); an inbound write to MSIADDR raises its
vector. Where these rules are silent it states the model's choice (log entries 25 and 59). -/
def Obligations.LaneGroupsAndRootPorts : Prop :=
  (∀ (b : By) (g : GroupId) (v : Word) (s : State),
    (b ≠ .mp → ownLg s g = false → ∃ t, exec (.lgctlWrite b g v) s = .next t ∧ t = s) ∧
    (bit (rg s .lgctl g) 16 = true → ∃ t, exec (.lgctlWrite .mp g v) s = .next t ∧ t = s) ∧
    (bit (rg s .lgctl g) 16 = false → rgF s .lgctl g 2 0 ≠ fld v 2 0 →
      (fld v 2 0 = 0 → g.val < 24 → ∃ t, exec (.lgctlWrite .mp g v) s = .next t ∧ rgF t .lgctl g 2 0 = 0 ∧ rgF t .lgstat g 3 0 = 0 ∧
        (∀ k, k < 4 → rport t (4 * g.val + k) = { st := if portExists s g k = true ∨ (rport s (4 * g.val + k)).st = 3 then 3 else 0 }) ∧
        (lgrp t g).perst = false) ∧
      (1 ≤ fld v 2 0 → fld v 2 0 ≤ 3 → rgF s .lgstat g 3 0 ≠ 0 → ∃ t, exec (.lgctlWrite .mp g v) s = .next t ∧
        rgF t .lgstat g 16 16 = 1 ∧ RegsOnly [(.lgstat, g.val)] s t) ∧
      (1 ≤ fld v 2 0 → fld v 2 0 ≤ 3 → rgF s .lgstat g 3 0 = 0 → g.val < 24 → persLimit s g (fld v 2 0) = false →
        ∃ t, exec (.lgctlWrite .mp g v) s = .next t ∧ rgF t .lgctl g 2 0 = fld v 2 0 ∧ rgF t .lgstat g 3 0 ≠ 0 ∧
          lgrp t g = ⟨now s, false⟩ ∧ (∀ i, rport t i = rport s i)))) ∧
  (∀ (g : Fin 24) (k : Fin 4) (s : State),
    let i := 4 * g.val + k.val
    let x := rport s i
    let src := 384 + 16 * g.val + k.val
    (portExists s g k = true →
      (portUp s i = true → ∃ t, exec (.linkDownDetected g k) s = .next t ∧ rport t i = { st := 3 } ∧ bit (rg t .intsrc src) 1 = true ∧
        (∀ p ∈ x.held.map (·.1) ++ x.sent, ∃ q ∈ t.net, q.cmd = .errRsp ∧ q.dst = p.src ∧ q.txid = p.txid)) ∧
      (∃ t, exec (.hotPlugEvent g k) s = .next t ∧ bit (rg t .intsrc (src + 8)) 1 = true ∧ t.mpPend.testBit (src + 8) = true ∧
        RegsOnly [(.intsrc, src + 8)] { s with mpPend := t.mpPend } t) ∧
      (x.st = 1 → ∃ t, exec (.pcieLinkLeavesL0 g k) s = .next t ∧ rport t i = { x with st := 2 } ∧ { t with rports := s.rports } = s) ∧
      ((lgrp s g).perst = true → x.st ≠ 1 →
        (∃ t, exec (.linkReturnsL0 g k true) s = .next t ∧ rport t i = { st := 1, sent := x.sent ++ x.held.map (·.1) } ∧
          rgF t .lgstat g (18 + k.val) (18 + k.val) = 0 ∧ t.net = s.net) ∧
        (∃ t, exec (.linkReturnsL0 g k false) s = .next t ∧ rport t i = x ∧ rgF t .lgstat g (18 + k.val) (18 + k.val) = 1 ∧ t.net = s.net))) ∧
    (∀ p t0, x.held = [(p, t0)] →
      (t0 + rgF s .devsto 0 15 0 * 1000 ≤ now s → ∃ t, exec (.devstoreTimeout g k) s = .next t ∧ rport t i = { x with held := [] } ∧
        (∃ q ∈ t.net, q.cmd = .errRsp ∧ q.dst = p.src ∧ q.txid = p.txid)) ∧
      (now s < t0 + rgF s .devsto 0 15 0 * 1000 → ∃ t, exec (.devstoreTimeout g k) s = .next t ∧ rport t i = x ∧ t.net = s.net)) ∧
    (∀ (tx : BitVec 16) (d : Word) (p : Packet), x.sent = [p] → p.txid = tx.toNat →
      (p.cmd = .devRd → ∃ t, exec (.pcieCompletion g k tx true d) s = .next t ∧ rport t i = { x with sent := [] } ∧
        (∃ q ∈ t.net, q.cmd = .rdRsp ∧ q.dst = p.src ∧ q.txid = p.txid ∧ q.data = BitVec.ofNat 512 d.toNat)) ∧
      (p.cmd = .devWr → ∃ t, exec (.pcieCompletion g k tx true d) s = .next t ∧ rport t i = { x with sent := [] } ∧
        (∃ q ∈ t.net, q.cmd = .wrCmp ∧ q.dst = p.src ∧ q.txid = p.txid)) ∧
      (∃ t, exec (.pcieCompletion g k tx false d) s = .next t ∧ rport t i = { x with sent := [] } ∧
        (∃ q ∈ t.net, q.cmd = .errRsp ∧ q.dst = p.src ∧ q.txid = p.txid))) ∧
    (rgF s .lgctl g 2 0 = 1 → rgF s .lgstat g 3 0 ≠ 0 → (lgrp s g).perst = false → (lgrp s g).persAt + 100000000 ≤ now s →
      (∃ t, exec (.perstRelease g true) s = .next t ∧ (lgrp t g).perst = true ∧ { t with lgs := s.lgs } = s) ∧
      (∃ t, exec (.perstRelease g false) s = .next t ∧ t = s)) ∧
    (∀ (rid : BitVec 16) (pa : BitVec 52) (f : Findings) (a : DevAns), portExists s g k = true → x.st = 1 → x.inWait = none →
      let r := inReq s g
      (∀ len ≤ 4096,
        (∀ bs v, hubReadBytes r f a len pa.toNat s = (.ok, bs, v) → ∃ t, exec (.inboundPcieRequest g k (.read rid pa len) f a) s = .next (hubEnd t) ∧
          t = setRport v i { rport v i with cpl := some (true, bs) }) ∧
        (∀ bs v, hubReadBytes r f a len pa.toNat s = (.err, bs, v) → ∃ t, exec (.inboundPcieRequest g k (.read rid pa len) f a) s = .next (hubEnd t) ∧
          t = setRport v i { rport v i with cpl := some (false, []) }) ∧
        (∀ bs v, hubReadBytes r f a len pa.toNat s = (.wait, bs, v) → ∃ t, exec (.inboundPcieRequest g k (.read rid pa len) f a) s = .next (hubEnd t) ∧
          rport t i = { x with inWait := some (.read rid pa len) } ∧ { t with
            rports := s.rports
            hubTx := s.hubTx } = s)) ∧
      (∀ (d : List Byte) (ep : Bool), d.length ≤ 512 → isMsiAddr s pa.toNat = false → ∀ n v,
        (hubWriteBytes { r with ep := ep } f a d.length pa.toNat d s = (.ok, n, v) →
          ∃ t, exec (.inboundPcieRequest g k (.write rid pa d ep) f a) s = .next (hubEnd t) ∧ t = v) ∧
        (hubWriteBytes { r with ep := ep } f a d.length pa.toNat d s = (.err, n, v) →
          ∃ t, exec (.inboundPcieRequest g k (.write rid pa d ep) f a) s = .next (hubEnd t) ∧ t = aer v g k)) ∧
      (hioOut s = true → s.hubTx = [] → HomeFree s pa.toNat r.world → ∃ t, exec (.inboundPcieRequest g k (.read rid pa 1) {} a) s = .next t ∧
        (rport t i).cpl = some (true, [lineByte (llcPeek s (pa.toNat / 64) 0).data (pa.toNat % 64)])) ∧
      (isMsiAddr s pa.toNat = true → ∀ d : List Byte, d.length = 4 → ∃ t, exec (.inboundPcieRequest g k (.write rid pa d false) f a) s = .next (hubEnd t) ∧
        t = msiWrite s rid.toNat r.world (ofBytesLE d)))) ∧
  (∀ (n : ShareId) (src : StopId) (w : Bool) (c : CfgAcc) (v : BitVec 32) (be : BitVec 4) (a : DevAns) (s : State),
    takePacket (isCfg s src c) s = none → c.write = some (v, be) → c.dword = 1 → be.getLsbD 0 = true → shState s n ≠ 0 →
    c.bus.toNat = 240 + n.val / 256 → c.dev.toNat = n.val % 256 / 8 → c.fn.toNat = n.val % 8 →
    ∃ t, exec (.configAccess src w c a) s = .next t ∧ share t n = { share s n with bme := v.getLsbD 2 } ∧ { t with shares := s.shares } = s ∧
      (∀ m, m ≠ n.val → share t m = share s m))

/-- R407 to R409, R444, R445, R517: a port is enabled with the fields written when they fit, and tells EN_ERR otherwise; its link's change is shown and
raises its source. A frame fills the posted buffer of the queue its hash names; a pause frame stops the MAC for its quanta; a frame no queue takes
is counted. ETH_RX_POST posts the next buffer. The last descriptor of a frame sends it and reports. Where these rules are silent it states the
model's choice (log entry 58). -/
def Obligations.EthernetPortsAndFrames : Prop :=
  (∀ (b : By) (n : MacId) (v : Word) (s : State), (ownEth s = false ∨ bySec b = true) →
    (rgF s .ethport n 16 16 = 0 →
      (portFits s n (fld v 4 0) (fld v 11 8) (fld v 13 12) = true → ∃ t, exec (.ethportEnable b n v) s = .next t ∧ rgF t .ethport n 16 16 = 1 ∧
        rgF t .ethport n 4 0 = fld v 4 0 ∧ rgF t .ethport n 11 8 = fld v 11 8 ∧ rgF t .ethport n 13 12 = fld v 13 12 ∧
        (∀ m, m < 16 → m ≠ n.val → rg t .ethport m = rg s .ethport m)) ∧
      (portFits s n (fld v 4 0) (fld v 11 8) (fld v 13 12) = false → ∃ t, exec (.ethportEnable b n v) s = .next t ∧ rgF t .ethport n 16 16 = 0 ∧
        rgF t .ethstat n 0 0 = 1 ∧ RegsOnly [(.ethport, n.val), (.ethstat, n.val)] s t)) ∧
    (rgF s .ethport n 16 16 = 1 → ∃ t, exec (.ethportEnable b n v) s = .next t ∧ t = s)) ∧
  (∀ (n : MacId) (up : Bool) (s : State), rgF s .ethport n 16 16 = 1 → rgF s .ethstat n 16 16 ≠ up.toNat →
    (up = true → hasLight s (rgF s .ethport n 4 0) = true ∧ lgOff s (rgF s .ethport n 4 0) = false) →
    ∃ t, exec (.ethLinkChange n up) s = .next t ∧ rgF t .ethstat n 16 16 = up.toNat ∧ bit (rg t .intsrc (896 + n.val)) 1 = true ∧
      { t with regs := s.regs } = s) ∧
  (∀ (m : MacId) (bs : List Byte) (i : EngIn) (s : State), 60 ≤ bs.length → bs.length ≤ 9212 →
    (rgF s .ethport m 16 16 = 0 ∨ rgF s .ethstat m 16 16 = 0 → ∃ t, exec (.frameReceived m bs true i) s = .next t ∧ t = hubEnd s) ∧
    (rgF s .ethport m 16 16 = 1 → rgF s .ethstat m 16 16 = 1 →
      (fGet bs 12 2 = 0x8808 → fGet bs 14 2 = 1 → ∃ t, exec (.frameReceived m bs true i) s = .next (hubEnd t) ∧ { t with ethPause := s.ethPause } = s ∧
        tget 0 (16 * m.val + 8) t.ethPause = now s + fGet bs 16 2 * 512 / (100 * 2 ^ rgF s .ethport m 13 12)) ∧
      (fGet bs 12 2 ≠ 0x8808 →
        (∃ t, exec (.frameReceived m bs false i) s = .next t ∧ t = hubEnd s) ∧
        (queueShare s (rssQueue s m ((rssHash s m bs).getD 0)) = none → ∃ t, exec (.frameReceived m bs true i) s = .next (hubEnd t) ∧
          rgF t .ethstat m 63 32 = min (rgF s .ethstat m 63 32 + 1) (2 ^ 32 - 1) ∧ RegsOnly [(.ethstat, m.val)] s t) ∧
        (∀ n it k v u, let q := rssQueue s m ((rssHash s m bs).getD 0)
          queueShare s q = some n → qKind s q = 4 → (queue s q).target = m → (queue s q).items = [it] → it.posted = true → it.bad = none →
          isTag (fGet bs 12 2) = false → bs.length ≤ dB it.desc 16 4 → shWriteBuf s n ⟨12, 23⟩ i i.dst (dB it.desc 8 8) bs = (.ok, k, v) →
          RecordAt v n q it ⟨0, BitVec.ofNat 64 ((rssHash s m bs).getD 0 * 2 ^ 32 + bs.length),
            BitVec.ofNat 64 ((l4SumGood bs (fParse bs)).toNat * 2 + (ipSumGood bs (fParse bs)).toNat), some s.ptime⟩ i u →
          ∃ t, exec (.frameReceived m bs true i) s = .next (hubEnd t) ∧ Reported v u t q)))) ∧
  (∀ (q : QueueId) (i : EngIn) (it : Item) (s : State),
    (qKind s q = 4 → (queue s q).items = [it] → it.posted = false → it.bad = none → ∃ t, exec (.ethRxPost q) s = .next t ∧
      queue t q = { queue s q with items := [{ it with posted := true }] } ∧ { t with queues := s.queues } = s) ∧
    (∀ n bs f v u, readyItem s q 3 0x10 = some (n, it) → (queue s q).frame = [] → dFlags it.desc = 0 →
      shReadBuf s n ⟨12, 23⟩ i i.src (dB it.desc 8 8) (dB it.desc 16 4) = (.ok, bs, v) → bs.length ≤ 9212 → f = padFrame bs →
      macMaySend s (queue s q).target f = true →
      RecordAt { setQueue v q { queue v q with frame := [] } with ethTx := v.ethTx ++ [⟨(queue s q).target, f, s.ptime⟩] } n q it
        { status := 0, r0 := BitVec.ofNat 64 (dB it.desc 16 4) } i u →
      ∃ t, exec (.ethTransmit q i) s = .next (hubEnd t) ∧
        Reported { setQueue v q { queue v q with frame := [] } with ethTx := v.ethTx ++ [⟨(queue s q).target, f, s.ptime⟩] } u t q))

/-- R412 to R422: an engine with two cartridges. HANDOVER to a STANDBY slot cross-fades where FEATURES has FADE, else switches over; FADE_DONE and
SWITCHOVER_DONE leave the new slot lit. A cartridge's check ends REJECTED with its reason, or in STANDBY. A lit cartridge that is removed, faults or
falls below MIN_PWR is lost: the engine switches to a STANDBY slot, or goes DARK. A wear record is written to the copy that is not current. RELEASE
of a lit slot is refused, and of a STANDBY one drops it; while STATUS is BUSY a GO only sets its flag; on an engine the monitor owns the normal
world's is refused. Where these rules are silent it states the model's choice (log entries 24 and 57). -/
def Obligations.OpticalEngines : Prop :=
  ∀ (by_ : By) (e : OptId) (b : Fin 2) (s : State),
    let o : Nat := 1 - b.val
    let i : Nat := 2 * e.val + b.val
    let x := slotOf s e b
    let gate := rgF s .oestat e 7 0 ≠ 1 ∧ (ownOe s e = false ∨ bySec by_ = true)
    (gate → slotSt s e b ≠ 2 → ∃ t, exec (.handover by_ e b) s = .next t ∧ rgF t .oestat e 7 0 = 0x11 ∧
      RegsOnly [(.oestat, e.val), (.oecmd, e.val), (.intsrc, 384 + 16 * engGroup e + 14)] { s with mpPend := t.mpPend } t) ∧
    (gate → slotSt s e b = 2 → slotSt s e o = 3 → ∃ t, exec (.handover by_ e b) s = .next t ∧ rgF t .oestat e 7 0 = 1 ∧ eng t e = ⟨now s, b⟩ ∧
      (bitOf s.features 16 = true → oeState t e = 3 ∧ slotSt t e b = 3 ∧ slotSt t e o = 3) ∧
      (bitOf s.features 16 = false → oeState t e = 4 ∧ slotSt t e b = 2 ∧ slotSt t e o = 2)) ∧
    (oeState s e = 3 → (eng s e).target = b →
      ((eng s e).fadeAt + 10000000 ≤ now s → slotSt s e b = 3 → ∃ t, exec (.fadeDone e) s = .next t ∧ slotSt t e b = 3 ∧ slotSt t e o = 2 ∧
        rgF t .oestat e 17 17 = b ∧ oeState t e = 1 ∧ rgF t .oestat e 7 0 = 2) ∧
      (now s < (eng s e).fadeAt + 10000000 → ∃ t, exec (.fadeDone e) s = .next t ∧ t = s)) ∧
    (oeState s e = 4 → (eng s e).target = b → ∃ t, exec (.switchoverDone e) s = .next t ∧ slotSt t e b = 3 ∧ slotSt t e o = slotSt s e o ∧
      rgF t .oestat e 17 17 = b ∧ oeState t e = (if slotSt s e o = 2 then 1 else 2) ∧ rgF t .oestat e 7 0 = 2) ∧
    (∀ l : LitIn, slotSt s e b = 3 →
      (3600000000000 ≤ litTicks s x → ∃ t, exec (.wearRecordWrite e b l) s = .next t ∧
        (slotOf t e b).mem = writeRec x.mem ((x.halfSecs + max 3600 (min 10800 l.halfSecs)) / 720) ((x.litSecs + 3600) / 3600) x.handovers x.faults
          (rgF s .pkgid 0 31 0) l.temp ∧
        rgF t .cartstat i 31 16 = l.pwr.toNat ∧ rgF t .cartstat i 63 40 = min (2 ^ 24 - 1) (wearOf (slotOf t e b).mem)) ∧
      (litTicks s x < 3600000000000 → ∃ t, exec (.wearRecordWrite e b l) s = .next t ∧ t = s)) ∧
    (∀ mem : BitVec 1024,
      (x.present = none → ∃ t, exec (.presentNFall e b mem) s = .next t ∧ slotOf t e b = { mem := mem, present := some (now s) } ∧
        rgF t .cartstat i 4 4 = 1 ∧ slotSt t e b = slotSt s e b) ∧
      (x.present.isSome = true → ∃ t, exec (.presentNFall e b mem) s = .next t ∧ t = s)) ∧
    (∀ (c : Instr) (t0 : Nat), x.present = some t0 → rgF s .oestat e 7 0 ≠ 1 →
      (c = .cartridgeCheck e b ∧ (slotSt s e b = 0 ∨ slotSt s e b = 6) ∧ t0 + 100000000 ≤ now s) ∨
        (c = .checkSlot by_ e b ∧ (slotSt s e b = 5 ∨ slotSt s e b = 6) ∧ gate) →
      (idGood x.mem = false ∨ curRec x.mem = none → ∃ t, exec c s = .next t ∧ slotSt t e b = 5 ∧ rgF t .oestat e 7 0 = 0x12) ∧
      (idGood x.mem = true → (curRec x.mem).isSome = true → cartGet x.mem 2 1 ≠ tget 1 e s.oePlan →
        ∃ t, exec c s = .next t ∧ slotSt t e b = 5 ∧ rgF t .oestat e 7 0 = 0x13) ∧
      (idGood x.mem = true → (curRec x.mem).isSome = true → cartGet x.mem 2 1 = tget 1 e s.oePlan →
        ∃ t, exec c s = .next t ∧ slotSt t e b = 1 ∧ rgF t .oestat e 7 0 = 1 ∧ (slotOf t e b).checkAt = now s ∧ (slotOf t e b).mem = x.mem)) ∧
    (∀ pwr : BitVec 16, slotSt s e b = 1 →
      (now s < x.checkAt + 200000000 → ∃ t, exec (.cartridgeCheckDone e b pwr) s = .next t ∧ t = s) ∧
      (x.checkAt + 200000000 ≤ now s → toSigned 16 pwr.toNat < minPwr x.mem → ∃ t, exec (.cartridgeCheckDone e b pwr) s = .next t ∧
        slotSt t e b = 5 ∧ rgF t .oestat e 7 0 = 0x14) ∧
      (x.checkAt + 200000000 ≤ now s → minPwr x.mem ≤ toSigned 16 pwr.toNat → ∃ t, exec (.cartridgeCheckDone e b pwr) s = .next t ∧
        rgF t .oestat e 7 0 = 2 ∧ rgF t .cartstat i 31 16 = pwr.toNat ∧
        (rgF t .cartstat i 6 6 = 1 ↔ 9 * ratedOf x.mem ≤ wearOf x.mem) ∧ (rgF t .cartstat i 7 7 = 1 ↔ 10 * ratedOf x.mem ≤ wearOf x.mem) ∧
        (oeState s e ≠ 0 → slotSt t e b = 2) ∧
        (oeState s e = 0 → engRuns s e = true → rgF s .oestat e 17 17 = b → slotSt t e b = 3 ∧ (oeState t e = 1 ∨ oeState t e = 2)))) ∧
    (x.present = none → ∃ t, exec (.presentNRise e b) s = .next t ∧ t = s) ∧
    (x.present.isSome = true → slotSt s e b = 2 → oeState s e ≠ 4 → ∃ t, exec (.presentNRise e b) s = .next t ∧ slotSt t e b = 0 ∧
      slotOf t e b = {} ∧ rgF t .cartstat i 4 4 = 0 ∧ slotSt t e o = slotSt s e o) ∧
    (∀ pwr : BitVec 16, x.present.isSome = true → slotSt s e b = 3 → oeState s e ≠ 3 → rgF s .cartstat i 5 5 = 0 → toSigned 16 pwr.toNat < minPwr x.mem →
      ∀ c ∈ [Instr.presentNRise e b, .faultNFall e b, .laserLow e b pwr],
        (slotSt s e o = 2 → ∃ t, exec c s = .next t ∧ slotSt t e b = 6 ∧ slotSt t e o = 2 ∧ oeState t e = 4 ∧ eng t e = ⟨now s, o⟩ ∧
          rgF t .oestat e 7 0 = 1) ∧
        (slotSt s e o ≠ 2 → ∃ t, exec c s = .next t ∧ slotSt t e b = 6 ∧ slotSt t e o = slotSt s e o ∧ oeState t e = 0)) ∧
    (∃ t, exec (.faultNRise e b) s = .next t ∧ rgF t .cartstat i 5 5 = 0 ∧ RegsOnly [(.cartstat, i)] s t) ∧
    (∀ l : LitIn, gate →
      (slotSt s e b = 3 → ∃ t, exec (.releaseSlot by_ e b l) s = .next t ∧ rgF t .oestat e 7 0 = 0x10 ∧
        RegsOnly [(.oestat, e.val), (.oecmd, e.val), (.intsrc, 384 + 16 * engGroup e + 14)] { s with mpPend := t.mpPend } t) ∧
      (slotSt s e b = 2 → ∃ t, exec (.releaseSlot by_ e b l) s = .next t ∧ rgF t .oestat e 7 0 = 2 ∧ slotSt t e b = 4 ∧
        slotSt t e o = slotSt s e o ∧ rgF t .cartstat i 31 16 = l.pwr.toNat)) ∧
    (∀ l : LitIn, ∀ c ∈ [Instr.handover by_ e b, .releaseSlot by_ e b l, .checkSlot by_ e b],
      (rgF s .oestat e 7 0 = 1 → (ownOe s e = false ∨ bySec by_ = true) → ∃ t, exec c s = .next t ∧ rgF t .oestat e 16 16 = 1 ∧
        RegsOnly [(.oestat, e.val)] s t) ∧
      (rgF s .oestat e 7 0 ≠ 1 → ownOe s e = true → bySec by_ = false → ∃ t, exec c s = .next t ∧ rgF t .oestat e 7 0 = 0x20 ∧
        t.slots = s.slots ∧ t.engs = s.engs))

/-- R427, R429 to R433, R437 to R440: a doorbell in range moves the queue's tail or head, one that is not is counted. QCFG.EN = 1 opens a bound queue of
a share at its reset positions; EN = 0 drains it, at once when it is empty. DESCRIPTOR_FETCH accepts the descriptor at SQHEAD, or shows CQFULL. When
the hold of held records expires the queue's vector is raised. Where these rules are silent it states the model's choice (log entries 27 and 80). -/
def Obligations.QueueOperation : Prop :=
  (∀ (b : By) (q : QueueId) (x : BitVec 16) (s : State),
    let open_ := qState s q ≠ 0 ∧ qState s q ≠ 4
    let counted := fun (t : State) => rgF t .qstat q 31 24 = min (rgF s .qstat q 31 24 + 1) 255 ∧ RegsOnly [(.qstat, q.val)] s t
    (open_ → x.toNat < sqSize s q → ∃ t, exec (.sqdb b q x) s = .next t ∧ queue t q = { queue s q with tail := x.toNat } ∧
      rgF t .qstat q 31 24 = rgF s .qstat q 31 24 ∧ qState t q = qState s q ∧ (∀ q', q' ≠ q.val → queue t q' = queue s q')) ∧
    (¬open_ ∨ sqSize s q ≤ x.toNat → ∃ t, exec (.sqdb b q x) s = .next t ∧ counted t) ∧
    (open_ → x.toNat < cqSize s q → (x.toNat + cqSize s q - (queue s q).cqHead) % cqSize s q ≤ cqHeld s q →
      ∃ t, exec (.cqdb b q x) s = .next t ∧ queue t q = { queue s q with cqHead := x.toNat } ∧
        rgF t .qstat q 31 24 = rgF s .qstat q 31 24 ∧ qState t q = qState s q ∧ (∀ q', q' ≠ q.val → queue t q' = queue s q')) ∧
    (¬open_ ∨ cqSize s q ≤ x.toNat ∨ cqHeld s q < (x.toNat + cqSize s q - (queue s q).cqHead) % cqSize s q →
      ∃ t, exec (.cqdb b q x) s = .next t ∧ counted t)) ∧
  (∀ (b : By) (q : QueueId) (v : Word) (n : Nat) (s : State),
    (rgF s .qcfg q 0 0 = 0 → queueShare s q = some n → n < 4096 → qKind s q ≠ 0 → shState s n ≠ 0 → ∃ t, exec (.queueEnable b q v) s = .next t ∧
      rgF t .qcfg q 0 0 = 1 ∧ qState t q = (if shState s n = 2 then 1 else 2) ∧ rgF t .qstat q 63 48 = 0 ∧ rgF t .qstat q 47 32 = 0 ∧
      rgF t .qstat q 11 11 = 1 ∧ rgF t .qstat q 10 10 = 0 ∧ queue t q = { share := some n, target := (queue s q).target } ∧
      rgF t .qcfg q 12 8 = (if 4 ≤ fld v 12 8 ∧ fld v 12 8 ≤ 16 then fld v 12 8 else rgF s .qcfg q 12 8) ∧
      rgF t .qcfg q 20 16 = (if 4 ≤ fld v 20 16 ∧ fld v 20 16 ≤ 16 then fld v 20 16 else rgF s .qcfg q 20 16)) ∧
    (rgF s .qcfg q 0 0 = 1 → ∃ t, exec (.queueEnable b q v) s = .next t ∧ t = s) ∧
    (rgF s .qcfg q 0 0 = 1 → qState s q ≠ 3 →
      ((queue s q).items = [] → ∃ t, exec (.queueDisable b q) s = .next t ∧ rgF t .qcfg q 0 0 = 0 ∧ qState t q = 0 ∧
        RegsOnly [(.qcfg, q.val), (.qstat, q.val)] { s with queues := t.queues } t) ∧
      ((queue s q).items ≠ [] → ∃ t, exec (.queueDisable b q) s = .next t ∧ rgF t .qcfg q 0 0 = 1 ∧ qState t q = 3 ∧
        queue t q = { queue s q with closeAt := now s }))) ∧
  (∀ (q : QueueId) (i : EngIn) (n : Nat) (s : State),
    let head := rgF s .qstat q 63 48
    queueShare s q = some n → qState s q = 1 → shState s n = 2 → (share s n).bme = true → head ≠ (queue s q).tail →
    rgF s .pkgstat 0 10 8 ≤ 1 →
    (cqRoom s q = false → ∃ t, exec (.descriptorFetch q i) s = .next (hubEnd t) ∧ rgF t .qstat q 10 10 = 1 ∧ RegsOnly [(.qstat, q.val)] s t) ∧
    (∀ bs v, cqRoom s q = true → (qKind s q = 2 → cipherHeld s < 4096) →
      shReadBuf s n (kindStop (qKind s q)) i i.src (rgF s .sqbase q 51 12 * 4096 + head * 64) 64 = (.ok, bs, v) →
      descGood (bitOf s.features 2) (qKind s q) (ofLineBytes bs) = true → (∀ it ∈ (queue v q).items, it.bad = none) → sqSize v q ≤ 65536 →
      ∃ t, exec (.descriptorFetch q i) s = .next (hubEnd t) ∧
        queue t q = { queue v q with items := (queue v q).items ++ [{ sqidx := head, desc := ofLineBytes bs, seq := v.cipSeq }] } ∧
        rgF t .qstat q 63 48 = (head + 1) % sqSize v q ∧ rgF t .qstat q 10 10 = 0 ∧ t.dram = v.dram)) ∧
  (∀ (q : QueueId) (n t0 : Nat) (s : State), (queue s q).holdFrom = some t0 → 0 < (queue s q).unrep → queueShare s q = some n →
    (share s n).vec0 < 32768 → rgF s .qirq q 14 0 < (share s n).nvec → bit (rg s .msictl ((share s n).vec0 + rgF s .qirq q 14 0)) 30 = false →
    (t0 + rgF s .qirq q 31 16 * 1000 ≤ now s → ∃ t, exec (.qirqHoldExpiry q) s = .next t ∧
      bit (rg t .msictl ((share s n).vec0 + rgF s .qirq q 14 0)) 1 = true ∧ (queue t q).unrep = 0 ∧ (queue t q).holdFrom = none ∧
      { t with
        queues := s.queues
        regs := s.regs } = s) ∧
    (now s < t0 + rgF s .qirq q 31 16 * 1000 → ∃ t, exec (.qirqHoldExpiry q) s = .next t ∧ t = s))

/-- R433, R436, R443: each Ladle operation on the first item of its queue acts on memory as its row says and writes its record: COPY and FILL the bytes
done, CRC32C the CRC continued from ARG, COMPARE the offset of the first difference or all ones, NOP zeros. A fault of translation ends with
XLATE_FAULT, its code and its address (`hubEnd` closes each: requests of the hub's agents that wait leave). Where these rules are silent it states
the model's choice (log entries 25, 26 and 58). -/
def Obligations.LadleOperations : Prop :=
  ∀ (q : QueueId) (i : EngIn) (n : Nat) (it : Item) (s : State),
    let d := it.desc
    (dLen d ≠ 0 →
      (∀ k v u, readyItem s q 1 1 = some (n, it) → copyBytes n i (dSrc d) (dDst d) (dLen d) (dLen d) 0 s = (.ok, k, v) →
        RecordAt v n q it { status := 0, r0 := BitVec.ofNat 64 k } i u → ∃ t, exec (.copy q i) s = .next (hubEnd t) ∧ Reported v u t q) ∧
      (∀ k v u, readyItem s q 1 2 = some (n, it) →
        shWriteBuf s n ladleStop i i.dst (dDst d) ((List.range (dLen d)).map (fun j => lineByte d (32 + j % 8))) = (.ok, k, v) →
        RecordAt v n q it { status := 0, r0 := BitVec.ofNat 64 k } i u → ∃ t, exec (.fill q i) s = .next (hubEnd t) ∧ Reported v u t q) ∧
      (∀ code ipa k v u, readyItem s q 1 2 = some (n, it) →
        shWriteBuf s n ladleStop i i.dst (dDst d) ((List.range (dLen d)).map (fun j => lineByte d (32 + j % 8))) = (.xlate code ipa, k, v) →
        RecordAt v n q it { status := 2, r0 := BitVec.ofNat 64 code, r1 := BitVec.ofNat 64 ipa } i u →
        ∃ t, exec (.fill q i) s = .next (hubEnd t) ∧ Reported v u t q) ∧
      (∀ bs v u, readyItem s q 1 3 = some (n, it) → shReadBuf s n ladleStop i i.src (dSrc d) (dLen d) = (.ok, bs, v) →
        RecordAt v n q it { status := 0, r0 := BitVec.ofNat 64 bs.length, r1 := BitVec.ofNat 64 (crc32c (BitVec.ofNat 32 (dB d 32 4)) bs).toNat } i u →
        ∃ t, exec (.crc32c q i) s = .next (hubEnd t) ∧ Reported v u t q) ∧
      (∀ x y v w u, readyItem s q 1 4 = some (n, it) → shReadBuf s n ladleStop i i.src (dSrc d) (dLen d) = (.ok, x, v) →
        shReadBuf v n ladleStop i i.dst (dDst d) (dLen d) = (.ok, y, w) →
        RecordAt w n q it { status := 0, r0 := BitVec.ofNat 64 y.length, r1 := firstDiff x y } i u →
        ∃ t, exec (.compare q i) s = .next (hubEnd t) ∧ Reported w u t q)) ∧
    (∀ u, readyItem s q 1 5 = some (n, it) → RecordAt s n q it { status := 0 } i u → ∃ t, exec (.ladleNop q i) s = .next (hubEnd t) ∧ Reported s u t q) ∧
    (dLen d = 0 → ∀ r ∈ ([(.copy q i, 1, 0), (.fill q i, 2, 0), (.crc32c q i, 3, BitVec.ofNat 64 (dB d 32 4)), (.compare q i, 4, BitVec.allOnes 64)] :
        List (Instr × Nat × Word)), ∀ u,
      readyItem s q 1 r.2.1 = some (n, it) → RecordAt s n q it { status := 0, r1 := r.2.2 } i u → ∃ t, exec r.1 s = .next (hubEnd t) ∧ Reported s u t q)

/-- R427, R446, R449 to R455: share commands act by the share's state. CREATE gives the lowest FREE share what it asks of the pools; ENABLE sets its
STOPPED queues running; DISABLE, RESET and REMOVE begin a shut-down, in which what has not drained in time is squashed and which ends in READY,
ENABLED or FREE; BIND_QP binds a queue. A command for a FREE share is refused, as is the normal world's for a share of the monitor's. Where these
rules are silent it states the model's choice (log entry 58). -/
def Obligations.ShareCommands : Prop :=
  (∀ (b : By) (v : Word) (s : State), rgF s .shstat 0 7 0 ≠ 1 →
    let n := fld v 43 32
    let h := share s n
    let mine := shState s n ≠ 0 ∧ (bySec b = true ∨ shSown s n = false) ∧ h.qp0 + h.nqp ≤ 16384
    let status := fun (t : State) => rgF t .shstat 0 7 0
    let shut := fun (t : State) (kind : Nat) => status t = 2 ∧ shState t n = 3 ∧ rgF t .shstate n 5 4 = kind ∧ rgF t .shstate n 63 32 = 0 ∧
      share t n = { h with
        wasEnabled := decide (shState s n = 2)
        sdAt := now s } ∧
      ∀ q, q ∈ shareQueues s n → qState s q = 1 → qState t q = 2
    (∀ c ∈ [Instr.shareEnable b v, .shareDisable b v, .shareReset b v, .shareRemove b v, .bindQp b v],
      (shState s n = 0 → ∃ t, exec c s = .next t ∧ status t = 0x12 ∧ RegsOnly [(.shcmd, 0), (.shstat, 0)] s t) ∧
      (shState s n ≠ 0 → shSown s n = true → bySec b = false → ∃ t, exec c s = .next t ∧ status t = 0x20 ∧ t.shares = s.shares ∧
        t.queues = s.queues ∧ shState t n = shState s n)) ∧
    (mine → (shState s n = 1 ∨ shState s n = 2) → ∃ t, exec (.shareEnable b v) s = .next t ∧ status t = 2 ∧ shState t n = 2 ∧ t.shares = s.shares ∧
      (shState s n = 1 → ∀ q ∈ shareQueues s n, qState s q = 2 → qState t q = 1)) ∧
    (mine → shState s n = 2 → ∃ t, exec (.shareDisable b v) s = .next t ∧ shut t 1) ∧
    (mine → shState s n < 3 → ∃ t, exec (.shareReset b v) s = .next t ∧ shut t 2) ∧
    (mine → shState s n < 3 → ∃ t, exec (.shareRemove b v) s = .next t ∧ shut t 3) ∧
    (mine → shState s n < 3 → fld (rg s .sharg1 0) 24 14 = 0 → fld (rg s .sharg0 0) 31 19 = 0 → fld (rg s .sharg0 0) 12 0 = 0 →
      let q := fld (rg s .sharg1 0) 13 0
      let kind := fld (rg s .sharg0 0) 18 16
      let target := fld (rg s .sharg0 0) 42 32
      h.qp0 ≤ q → q < h.qp0 + h.nqp →
      (kind = 1 → h.vc0 ≤ target ∧ target < h.vc0 + h.nvc) → kind ≤ 4 →
      (kind = 3 ∨ kind = 4 → target < 16 ∧ macQueues (setQueue (setRgF s .qstat q 9 7 0) q {}) target < 4096) →
      (rgF s .qcfg q 0 0 = 0 → ∃ t, exec (.bindQp b v) s = .next t ∧ status t = 2 ∧ qKind t q = kind ∧
        queue t q = { share := some n, target := if kind = 0 ∨ kind = 2 then 0 else target }) ∧
      (rgF s .qcfg q 0 0 = 1 → ∃ t, exec (.bindQp b v) s = .next t ∧ status t = 0x13 ∧ t.queues = s.queues ∧ qKind t q = qKind s q)) ∧
    (∀ m q0 v0 i0 z0, (bySec b = true ∨ bit v 16 = false) →
      let a0 := rg s .sharg0 0
      let a1 := rg s .sharg1 0
      let a2 := rg s .sharg2 0
      (List.range 4096).find? (fun m => shState s m == 0) = some m →
      fld a0 42 32 ≤ 1024 → fld a0 31 16 ≤ 32768 → fld a0 12 0 ≤ 4096 → fld a1 24 0 ≤ 16777216 → (bit a2 40 = true → fld a2 39 0 ≠ 0) →
      fld a0 62 48 ≤ 16384 - takenSum s (·.nqp) → fld a0 42 32 ≤ 1024 - takenSum s (·.nvc) → fld a0 31 16 ≤ vecFreeCount s →
      fld a0 12 0 ≤ 4096 - takenSum s (·.credits) → fld a1 24 0 ≤ sessPool s - takenSum s (·.nsess) →
      firstGap (s.shares.map (fun p => (p.2.qp0, p.2.nqp))) 16384 (fld a0 62 48) = some q0 →
      firstGap (s.shares.map (fun p => (p.2.vc0, p.2.nvc))) 1024 (fld a0 42 32) = some v0 →
      firstRun (vecFree s) 32768 (fld a0 31 16) = some i0 →
      firstGap (s.shares.map (fun p => (p.2.sess0, p.2.nsess))) (sessPool s) (fld a1 24 0) = some z0 →
      ∃ t, exec (.shareCreate b v) s = .next t ∧ status t = 2 ∧ shState t m = 1 ∧ shSown t m = bit v 16 ∧ rgF t .shstate m 19 16 = fld v 15 12 ∧
        rg t .shres0 0 = BitVec.ofNat 64 (m * 2 ^ 48 + q0 * 2 ^ 32 + v0) ∧ rg t .shres1 0 = BitVec.ofNat 64 (i0 * 2 ^ 48 + z0) ∧
        share t m = ⟨q0, fld a0 62 48, v0, fld a0 42 32, i0, fld a0 31 16, z0, fld a1 24 0, fld a0 12 0, fld a2 63 48, bit a2 41, bit a2 40,
          fld a2 39 0, false, false, 0⟩ ∧
        (∀ k, k ≠ m → share t k = share s k))) ∧
  (∀ (n : ShareId) (s : State),
    (shState s n = 0 → ∃ t, exec (.functionLevelReset n) s = .next t ∧ t = s) ∧
    (shState s n = 1 ∨ shState s n = 2 → (share s n).qp0 + (share s n).nqp ≤ 16384 → ∃ t, exec (.functionLevelReset n) s = .next t ∧
      shState t n = 3 ∧ rgF t .shstate n 5 4 = 2 ∧ (share t n).sdAt = now s) ∧
    (shState s n = 3 → (∀ q ∈ shareQueues s n, (queue s q).items = []) → (share s n).qp0 + (share s n).nqp ≤ 16384 →
      (share s n).vec0 + (share s n).nvec ≤ 32768 →
      (rgF s .shstate n 5 4 = 1 → rgF s .shstate n 8 8 = 0 → ∃ t, exec (.shutdownComplete n) s = .next t ∧ shState t n = 1 ∧
        rgF t .shstate n 5 4 = 0 ∧ bit (rg t .intsrc 914) 1 = true ∧ t.shares = s.shares ∧ t.sessions = s.sessions) ∧
      (rgF s .shstate n 5 4 = 2 → rgF s .shstate n 8 8 = 0 → ∃ t, exec (.shutdownComplete n) s = .next t ∧
        shState t n = (if (share s n).wasEnabled then 2 else 1) ∧ bit (rg t .intsrc 914) 1 = true ∧ t.shares = s.shares ∧
        (∀ q ∈ shareQueues s n, rg t .qcfg q = regReset .qcfg ∧ qKind t q = qKind s q ∧ (queue t q).tail = 0)) ∧
      (rgF s .shstate n 5 4 = 3 → ∃ t, exec (.shutdownComplete n) s = .next t ∧ shState t n = 0 ∧ share t n = {} ∧
        bit (rg t .intsrc 914) 1 = true ∧ (∀ q ∈ shareQueues s n, qKind t q = 0 ∧ queue t q = {}) ∧
        (∀ j, j < (share s n).nvec → rg t .msictl ((share s n).vec0 + j) = regReset .msictl))) ∧
    (∀ (i : EngIn) (q : Nat) (it : Item) (u : State), shareQueues s n = [q] → q < 16384 → (queue s q).items = [it] →
      shState s n = 3 → qKind s q = 1 →
      (now s < (share s n).sdAt + drainTicks s → qState s q ≠ 3 → ∃ t, exec (.shareDrainTimeout n i) s = .next t ∧ t = hubEnd s) ∧
      ((share s n).sdAt + drainTicks s ≤ now s →
        shWriteBuf s n ⟨12, 16⟩ i i.dst (rgF s .cqbase q 51 12 * 4096 + rgF s .qstat q 47 32 * 32) (recordBytes s q it { status := 4 }) = (.ok, 32, u) →
        qState u q = 2 → (queue u q).items = [it] → rgF u .qirq q 15 15 = 0 → shState u n = 3 →
        ∃ t, exec (.shareDrainTimeout n i) s = .next (hubEnd t) ∧ (queue t q).items = [] ∧
          rgF t .shstate n 47 32 = min (rgF u .shstate n 47 32 + 1) 65535 ∧ t.dram = u.dram)))

/-- R457 to R464, R468, R470, R476 to R479: a message that may start begins in its turn on a cluster that takes it, or is refused with its status; a
running message works to its end and reports the code of its tag's comparison and the bytes done. A message of higher priority that finds no unit
suspends the one R476 names at a block boundary; when units are free again the one R479 names resumes, unless one of a higher PRIO waits to start
there. `hubEnd` closes each message command: requests of the hub's agents that wait leave. Where these rules are silent it states the model's choice
(log entry 29). -/
def Obligations.CipherMessages : Prop :=
  (∀ (q : QueueId) (idx : BitVec 16) (ci : CipherIn) (i : EngIn) (n z : Nat) (it : Item) (mode : CMode) (s : State),
    let d := it.desc
    let x := session s z
    let m := msgKeyOf x mode d
    let st := clusterStop ci.cluster
    cipherItem s q idx.toNat = some (n, it) → itemSession s n d = some z → sessAway s z = false → CMode.ofNat? (fld x.cfg 2 0) = some mode →
    ∀ r ∈ ([(.encrypt q idx ci i, 0x30), (.decrypt q idx ci i, 0x31), (.mac q idx ci i, 0x32), (.verify q idx ci i, 0x33)] : List (Instr × Nat)),
      dOp d = r.2 →
      (it.phase = 0 → cipherWaits s n q it = false → clusterTakes s ci.cluster n = true → mayServe s n = true → (share s n).bme = true →
        inTurn s ci.cluster n it = true →
        (msgRefuse s n d ci.healthy = none → ci.run = some 0 → ci.fails = [] → 0 < m.len ∨ 0 < m.aadLen → ∃ t, exec r.1 s = .next (hubEnd t) ∧
          queue t q = { queue s q with items := itemsWith (queue s q).items { it with
            phase := 1
            started := true
            since := s.cipSeq
            cluster := ci.cluster } } ∧
          (session t z).dataDone = 0 ∧ (session t z).aadDone = 0 ∧ (session t z).k1 = x.k1 ∧ t.dram = s.dram) ∧
        (∀ code u, msgRefuse s n d ci.healthy = some code → RecordAt (sessionUsed s z) n q it { status := code } i u →
          ∃ t, exec r.1 s = .next (hubEnd t) ∧ Reported (sessionUsed s z) u t q)) ∧
      (it.phase = 1 → it.cluster = ci.cluster → fld x.cfg 7 6 = 0 →
        ∀ k c v code w u, msgUnits s n st i d m (stretch m ci none) (msgCtxOf x) = ⟨.ok, k, c, v⟩ → m.len ≤ c.dataDone → m.aadLen ≤ c.aadDone →
          msgEnd (setSession v z (keepCtx (session v z) c)) n st i d m c = (.ok, code, w) → itemSession w n d = some z →
          RecordAt (sessionUsed w z) n q it { status := code, r0 := BitVec.ofNat 64 (msgDone m c) } i u →
          ∃ t, exec r.1 s = .next (hubEnd t) ∧ Reported (sessionUsed w z) u t q)) ∧
  (∀ (q : QueueId) (idx : BitVec 16) (n m vq z : Nat) (it v : Item) (s : State), cipherItem s q idx.toNat = some (n, it) → it.phase = 0 →
    cipherWaits s n q it = false → victimMsg s (effPrio s n it) = some (m, vq, v) → itemSession s m v.desc = some z →
    ∃ t, exec (.messageSuspend q idx) s = .next t ∧
      queue t vq = { queue s vq with items := itemsWith (queue s vq).items { v with
        phase := 2
        since := s.cipSeq } } ∧
      session t z = { session s z with resume := resumeOf vq v.sqidx (decide (dB v.desc 40 4 ≤ (session s z).aadDone)) } ∧
      (∀ y, y ≠ z → session t y = session s y) ∧ t.regs = s.regs) ∧
  (∀ (c : Fin 4) (s : State),
    (∀ n q it, resumable s c = some (n, q, it) → higherWaits s c n it = false → ∃ t, exec (.messageResume c) s = .next t ∧
      queue t q = { queue s q with items := itemsWith (queue s q).items { it with
        phase := 1
        since := s.cipSeq
        cluster := c } } ∧
      t.sessions = s.sessions ∧ t.regs = s.regs) ∧
    (∀ n q it, resumable s c = some (n, q, it) → higherWaits s c n it = true → ∃ t, exec (.messageResume c) s = .next t ∧ t = s) ∧
    (resumable s c = none → ∃ t, exec (.messageResume c) s = .next t ∧ t = s))

/-- R459, R464 to R467, R469 to R473, R487, R488: SESSION_INIT loads the session's configuration and key, or lets a wrapped key wait for the island;
SESSION_CLEAR clears it; a session outside the share or not initialised is refused. KEY_WRAP joins the island's line; the island, once the heat log
has nothing to append, unwraps or wraps for the one that joined first. With every resident slot full the least recently used session that is not
active is spilled; a descriptor that names a session in the table has it filled, or ends in CTX_CORRUPT when the context fails its check. `hubEnd`
closes each that reaches memory: requests of the hub's agents that wait leave. Where these rules are silent it states the model's choice (log
entries 28 and 30). -/
def Obligations.CipherSessions : Prop :=
  (∀ (q : QueueId) (idx : BitVec 16) (i : EngIn) (n : Nat) (it : Item) (s : State),
    let d := it.desc
    let joined := fun (t : State) => queue t q = { queue s q with items := itemsWith (queue s q).items { it with
        phase := 3
        started := true
        since := s.cipSeq } } ∧
      { t with
        queues := s.queues
        cipSeq := s.cipSeq } = s
    cipherItem s q idx.toNat = some (n, it) → it.phase = 0 → cipherWaits s n q it = false → mayServe s n = true → (share s n).bme = true →
    (dOp d = 0x3A → ∃ t, exec (.keyWrap q idx) s = .next t ∧ joined t) ∧
    (∀ u, itemSession s n d = none → RecordAt s n q it { status := 0x43 } i u →
      (dOp d = 0x38 → ∃ t, exec (.sessionInit q idx i) s = .next (hubEnd t) ∧ Reported s u t q) ∧
      (dOp d = 0x39 → ∃ t, exec (.sessionClear q idx i) s = .next (hubEnd t) ∧ Reported s u t q)) ∧
    (∀ z, itemSession s n d = some z → sessAway s z = false →
      (dOp d = 0x38 → slotFree s z = true →
        (dFlags d = 1 → ∃ t, exec (.sessionInit q idx i) s = .next (hubEnd t) ∧ joined t) ∧
        (∀ key v u, dFlags d = 0 → shReadBuf s n ⟨12, 12⟩ i i.src (dB d 8 8) (dB d 24 4) = (.ok, key, v) → itemSession v n d = some z →
          RecordAt (sessionUsed (loadSession v n z d key) z) n q it { status := 0 } i u →
          ∃ t, exec (.sessionInit q idx i) s = .next (hubEnd t) ∧ Reported (sessionUsed (loadSession v n z d key) z) u t q)) ∧
      (dOp d = 0x39 →
        (∀ u, sessInit (session s z) = true →
          RecordAt { setSession s z {} with inTable := tset false z false s.inTable } n q it { status := 0 } i u →
          ∃ t, exec (.sessionClear q idx i) s = .next (hubEnd t) ∧ Reported { setSession s z {} with inTable := tset false z false s.inTable } u t q) ∧
        (∀ u, sessInit (session s z) = false → RecordAt s n q it { status := 0x42 } i u →
          ∃ t, exec (.sessionClear q idx i) s = .next (hubEnd t) ∧ Reported s u t q)))) ∧
  (∀ (i : EngIn) (n q : Nat) (it : Item) (s : State),
    let d := it.desc
    (s.hlog.pend ≠ [] → hlAppends s = true → exec (.unwrap i) s = .next (hubEnd s)) ∧
    (s.hlog.pend = [] → islandNext s = some (n, q, it) → ∀ key v, shReadBuf s n ⟨12, 12⟩ i i.src (dB d 8 8) (dB d 24 4) = (.ok, key, v) →
      (∀ k w u, dOp d = 0x3A → shWriteBuf v n ⟨12, 12⟩ i i.dst (dB d 16 8) (kwWrap (shareKek s n d) key) = (.ok, k, w) →
        RecordAt w n q it { status := 0, r0 := BitVec.ofNat 64 k } i u → ∃ t, exec (.unwrap i) s = .next (hubEnd t) ∧ Reported w u t q) ∧
      (∀ z u, dOp d = 0x38 → itemSession s n d = some z → itemSession v n d = some z →
        (∀ k, kwUnwrap (shareKek s n d) key = some k → RecordAt (sessionUsed (loadSession v n z d k) z) n q it { status := 0 } i u →
          ∃ t, exec (.unwrap i) s = .next (hubEnd t) ∧ Reported (sessionUsed (loadSession v n z d k) z) u t q) ∧
        (kwUnwrap (shareKek s n d) key = none → RecordAt (sessionUsed v z) n q it { status := 0x46 } i u →
          ∃ t, exec (.unwrap i) s = .next (hubEnd t) ∧ Reported (sessionUsed v z) u t q)))) ∧
  (∀ (i : EngIn) (s : State),
    (rgF s .ciphctl 0 0 0 = 0 ∨ s.sessions.length < 65536 → exec (.contextSpill i) s = .next (hubEnd s)) ∧
    (∀ z res k u, rgF s .ciphctl 0 0 0 = 1 → 65536 ≤ s.sessions.length → spillVictim s = some z →
      (let f := freeWords 11 s
       let g := gcmWhole true (ctxKeyBytes s) (spillIv z s.spillNo) (contextBytes z (session s z) f.1)
       hubWriteBytes tableReq i.f i.dst 257 (tableAddr s z) (g.1 ++ g.2) f.2 = (res, k, u)) → res ≠ .wait →
      ∃ t, exec (.contextSpill i) s = .next (hubEnd t) ∧ session t z = {} ∧ tget false z t.inTable = true ∧ t.spillNo = (s.spillNo + 1) % 2 ^ 72 ∧
        rgF t .ciphcnt 0 63 32 = min (rgF u .ciphcnt 0 63 32 + 1) (2 ^ 32 - 1) ∧ t.dram = u.dram)) ∧
  (∀ (q : QueueId) (idx : BitVec 16) (i : EngIn) (n z : Nat) (it : Item) (bs : List Byte) (v : State) (s : State),
    cipherItem s q idx.toNat = some (n, it) → itemSession s n it.desc = some z → sessAway s z = true → slotFree s z = true → it.phase = 0 →
    cipherWaits s n q it = false → hubReadBytes tableReq i.f i.src 256 (tableAddr s z) s = (.ok, bs, v) →
    ∃ t, exec (.contextFill q idx i) s = .next (hubEnd t) ∧
      (∀ x, openContext s z bs = some x → session t z = { x with used := s.cipSeq } ∧ tget false z t.inTable = false ∧
        rgF t .ciphcnt 0 31 0 = min (rgF v .ciphcnt 0 31 0 + 1) (2 ^ 32 - 1)) ∧
      (∀ u, let w := incRgF { v with inTable := tset false z false v.inTable } .ciphstat 0 31 16
        openContext s z bs = none → itemSession w n it.desc = some z → RecordAt (sessionUsed w z) n q it { status := 0x44 } i u →
        Reported (sessionUsed w z) u t q))

/-- R494, R502, R510 to R514: OWNMAP and a filter's LOCK are the monitor's to write, and every attempt is recorded. The debug access port halts, resumes
and steps a logical core, reads and writes the registers of a halted one, and memory by RDC and WRC, each under its enable, and answers OK,
NOT_HALTED, ERROR or DENIED (recorded, and nothing else done); its operations go through one queue in order of arrival, and a queue of 16 turns one
away with BUSY. The TAP shifts out its identification, the pins while RESET_N is low, and its bypass bit. Where these rules are silent it states the
model's choice (log entries 31 and 79). -/
def Obligations.OwnershipAndDebug : Prop :=
  (∀ (b : By) (v : Word) (h : Fin 13) (s : State),
    let queued := fun (t : State) (typ n : Nat) (p : BitVec 256) =>
      (s.hlog.pend.length < 32 → ∃ r, t.hlog.pend = s.hlog.pend ++ [r] ∧ t.hlog.lost = s.hlog.lost ∧ r.typ = typ ∧ r.origin = originOf s b ∧
        r.arg = n ∧ r.payload = p) ∧
      (32 ≤ s.hlog.pend.length → t.hlog.pend = s.hlog.pend ∧ t.hlog.lost = s.hlog.lost + 1)
    let old := rg s (wfctlOf h).1 (wfctlOf h).2
    (∃ t, exec (.ownmapWrite b v) s = .next t ∧ rg t .ownmap 0 = (if bySec b then v &&& 0xFFFFFFFFFFC00FFF else rg s .ownmap 0) ∧
      queued t 0x0020 0x60000 (payload2 (rg s .ownmap 0) v) ∧ RegsOnly [(.ownmap, 0)] { s with hlog := t.hlog } t) ∧
    (bySec b = true → ∃ t, exec (.wfctlLock b h) s = .next t ∧ rgF t (wfctlOf h).1 (wfctlOf h).2 0 0 = 1 ∧
      queued t 0x0020 (wfctlOff h) (payload2 old 1) ∧ RegsOnly [wfctlOf h] { s with hlog := t.hlog } t) ∧
    (bySec b = false → h.val = 12 ∨ ownStk s h = false → ∃ t, exec (.wfctlLock b h) s = .next t ∧
      queued t 0x0020 (wfctlOff h) (payload2 old 1) ∧ { t with hlog := s.hlog } = s) ∧
    (bySec b = false → h.val < 12 → ownStk s h = true → s.hlog.pend.length < 31 → ∃ t r q, exec (.wfctlLock b h) s = .next t ∧
      t.hlog.pend = s.hlog.pend ++ [r, q] ∧ r.typ = 0x0020 ∧ r.payload = payload2 old 1 ∧ q.typ = 0x0022 ∧ q.arg = 0x20 ∧
      { t with hlog := s.hlog } = s)) ∧
  (∀ (n : LogCore) (s : State), s.dapWait = [] →
    let only := fun (t : State) (c : Nat) => { t with
      cores := s.cores
      dapStatus := s.dapStatus
      dapData := s.dapData } = s ∧ ∀ c', c' ≠ c → getCore t c' = getCore s c'
    (dapCore s n = none → ∀ i ∈ [Instr.dapHalt n, .dapResume n, .dapStep n], ∃ t, exec i s = .next t ∧ t = { s with
      dapStatus := 0x32
      dapData := 0 }) ∧
    (∀ c, dapCore s n = some c →
      (∃ t, exec (.dapHalt n) s = .next t ∧ t.dapStatus = 0 ∧ getCore t c = (if (getCore s c).halted then getCore s c else { getCore s c with haltPend := true }) ∧
        only t c) ∧
      (∃ t, exec (.dapResume n) s = .next t ∧ t.dapStatus = 0 ∧ only t c ∧ getCore t c = { getCore s c with
        halted := false
        haltPend := false
        stepping := false }) ∧
      ((getCore s c).halted = true → ∃ t, exec (.dapStep n) s = .next t ∧ t.dapStatus = 0 ∧ only t c ∧ getCore t c = { getCore s c with
        halted := false
        haltPend := false
        stepping := true }) ∧
      ((getCore s c).halted = false → ∃ t, exec (.dapStep n) s = .next t ∧ t = { s with
        dapStatus := 0x31
        dapData := 0 }))) ∧
  (∀ (c : CoreId) (s : State),
    let u := endWait s c
    (canTake u c = true → dueHalt u c = true → ∃ t, exec (.coreHalt c) s = .next t ∧ (getCore t c).halted = true ∧ (getCore t c).haltPend = false ∧
      fld (sysGet t c 0xA21 false) 1 0 = 1 ∧ (getCore t c).pc = (getCore u c).pc ∧ (getCore t c).cstat = (getCore u c).cstat ∧ CoreOnly c u t) ∧
    (canTake u c = false ∨ dueHalt u c = false → ∃ t, exec (.coreHalt c) s = .next t ∧ t = u)) ∧
  (∀ (n : LogCore) (r : DapReg) (v : Word) (s : State), s.dapWait = [] → dapCore s n = none →
    ∀ i ∈ [Instr.dapCoreRegRead n r, .dapCoreRegWrite n r v], ∃ t, exec i s = .next t ∧ t = { s with
      dapStatus := 0x32
      dapData := 0 }) ∧
  (∀ (n : LogCore) (r : DapReg) (v : Word) (c : Nat) (s : State), s.dapWait = [] → dapCore s n = some c →
    let w := dapRegWorld s c r
    let ended := fun (t : State) (code : Nat) (x : Word) => t = { s with
      dapStatus := code
      dapData := x }
    ((getCore s c).halted = false → ∀ i ∈ [Instr.dapCoreRegRead n r, .dapCoreRegWrite n r v], ∃ t, exec i s = .next t ∧ ended t 0x31 0) ∧
    ((getCore s c).halted = true →
      (nonInvasive s w = true → ∀ x, dapRegGet s c r = some x → ∃ t, exec (.dapCoreRegRead n r) s = .next t ∧ ended t 0 x) ∧
      (nonInvasive s w = true → dapRegGet s c r = none → ∃ t, exec (.dapCoreRegRead n r) s = .next t ∧ ended t 0x32 0) ∧
      (invasive s w = true → ∀ u, dapRegSet s c r v = some u → ∃ t, exec (.dapCoreRegWrite n r v) s = .next t ∧ t = { u with
        dapStatus := 0
        dapData := 0 }) ∧
      (invasive s w = true → dapRegSet s c r v = none → ∃ t, exec (.dapCoreRegWrite n r v) s = .next t ∧ ended t 0x32 0) ∧
      (invasive s w = true → r = .pc → ∃ t, exec (.dapCoreRegWrite n r v) s = .next t ∧ (getCore t c).pc = pcWord v ∧ CoreOnly c { s with
        dapStatus := 0
        dapData := 0 } t) ∧
      (nonInvasive s w = false → ∃ t, exec (.dapCoreRegRead n r) s = .next t ∧ t.dapStatus = 0x30 ∧ t.dapData = 0 ∧ { t with
        hlog := s.hlog
        dapStatus := s.dapStatus
        dapData := s.dapData } = s) ∧
      (invasive s w = false → ∃ t, exec (.dapCoreRegWrite n r v) s = .next t ∧ t.dapStatus = 0x30 ∧ t.dapData = 0 ∧ { t with
        hlog := s.hlog
        dapStatus := s.dapStatus
        dapData := s.dapData } = s))) ∧
  (∀ (w : Bool) (dw : BitVec 49) (v : Word) (k : BitVec 11) (f : Findings) (a : DevAns) (s : State),
    let pa := dw.toNat * 8
    let rq := dapReq w k.toNat
    let denied := fun (t : State) => t.dapStatus = 0x30 ∧ t.dapData = 0 ∧ { t with
      hlog := s.hlog
      dapStatus := s.dapStatus
      dapData := s.dapData } = s
    let first := fun (op : DapOp) (rest : List (Bool × DapOp)) => s.dapWait = [] ∧ rest = [] ∨ s.dapWait = (false, dapKey op) :: rest
    let rd := DapOp.memRead w k dw f a
    let wr := DapOp.memWrite w k dw v f a
    (HomeFree s pa w → s.hubTx = [] → s.dapWait = [] →
      (nonInvasive s w = true → dapKeyDenied s w 0 = false → ∃ t, exec (.dapMemRead w 0 dw {} a) s = .next t ∧ t.dapStatus = 0 ∧
        t.dapData = BitVec.ofNat 64 (lineGet (llcPeek s (pa / 64) 0).data (pa % 64) 8)) ∧
      (invasive s w = true → dapKeyDenied s w 0 = false → ∃ t, exec (.dapMemWrite w 0 dw v {} a) s = .next t ∧ t.dapStatus = 0 ∧
        homeWord t pa = v.toNat)) ∧
    (nonInvasive s w = true → dapKeyDenied s w k.toNat = false → ∀ rest, first rd rest →
      (∀ d u, dapRead s rq pa f a = (.ok, d, u) → ∃ t, exec (.dapMemRead w k dw f a) s = .next t ∧ t = { hubEnd u with
        dapStatus := 0
        dapData := BitVec.ofNat 64 (lineGet d (pa % 64) 8)
        dapWait := rest }) ∧
      (∀ d u, dapRead s rq pa f a = (.err, d, u) → ∃ t, exec (.dapMemRead w k dw f a) s = .next t ∧ t = { hubEnd u with
        dapStatus := 0x32
        dapData := 0
        dapWait := rest }) ∧
      (∀ d u, dapRead s rq pa f a = (.wait, d, u) → ∃ t, exec (.dapMemRead w k dw f a) s = .next t ∧ t = { hubEnd (hubPause s u) with
        dapWait := (false, dapKey rd) :: rest })) ∧
    (invasive s w = true → dapKeyDenied s w k.toNat = false → ∀ rest, first wr rest →
      (∀ u, dapWrite s rq pa v f a = (.ok, u) → ∃ t, exec (.dapMemWrite w k dw v f a) s = .next t ∧ t = { hubEnd u with
        dapStatus := 0
        dapData := 0
        dapWait := rest }) ∧
      (∀ u, dapWrite s rq pa v f a = (.err, u) → ∃ t, exec (.dapMemWrite w k dw v f a) s = .next t ∧ t = { hubEnd u with
        dapStatus := 0x32
        dapData := 0
        dapWait := rest }) ∧
      (∀ u, dapWrite s rq pa v f a = (.wait, u) → ∃ t, exec (.dapMemWrite w k dw v f a) s = .next t ∧ t = { hubEnd (hubPause s u) with
        dapWait := (false, dapKey wr) :: rest })) ∧
    (s.dapWait = [] →
      (nonInvasive s w = false ∨ dapKeyDenied s w k.toNat = true → ∃ t, exec (.dapMemRead w k dw f a) s = .next t ∧ denied t) ∧
      (invasive s w = false ∨ dapKeyDenied s w k.toNat = true → ∃ t, exec (.dapMemWrite w k dw v f a) s = .next t ∧ denied t))) ∧
  (∀ (n : LogCore) (r : DapReg) (v : Word) (w : Bool) (dw : BitVec 49) (k : BitVec 11) (f : Findings) (a : DevAns) (off : BitVec 40) (s : State),
    ∀ p ∈ ([(.dapHalt n, .halt n), (.dapResume n, .resume n), (.dapStep n, .step n), (.dapCoreRegRead n r, .regRead n r),
        (.dapCoreRegWrite n r v, .regWrite n r v), (.dapMemRead w k dw f a, .memRead w k dw f a), (.dapMemWrite w k dw v f a, .memWrite w k dw v f a),
        (.dapSetupRead w off, .setupRead w off), (.dapSetupWrite w off v, .setupWrite w off v)] : List (Instr × DapOp)),
      s.dapWait ≠ [] → s.dapWait.head? ≠ some (false, dapKey p.2) → ∃ t, exec p.1 s = .next t ∧
        ((false, dapKey p.2) ∈ s.dapWait → t = s) ∧
        ((false, dapKey p.2) ∉ s.dapWait → s.dapWait.length < 16 → t = { s with dapWait := s.dapWait ++ [(false, dapKey p.2)] }) ∧
        ((false, dapKey p.2) ∉ s.dapWait → 16 ≤ s.dapWait.length → t = { s with
          dapStatus := 0x33
          dapData := 0 })) ∧
  (∀ (cells : List Bool) (ir : BitVec 8) (tdi : Bool) (s : State),
    (∃ t, exec .tapIdcode s = .next t ∧ bit t.tapOut 0 = true ∧ fld t.tapOut 27 12 = 0x1224 ∧ { t with
      tapIr := s.tapIr
      tapOut := s.tapOut } = s) ∧
    (s.resetN = false →
      (∃ t, exec (.tapSamplePreload cells) s = .next t ∧ t.tapIr = 2 ∧ t.tapCells = cells ∧ t.tapDrive = s.tapDrive) ∧
      (∃ t, exec (.tapExtest cells) s = .next t ∧ t.tapIr = 0 ∧ t.tapCells = cells ∧ t.tapDrive = s.tapCells)) ∧
    (isBypass s ir.toNat = false → ∃ t, exec (.tapBypass ir tdi) s = .next t ∧ t = s) ∧
    (∀ i b, (i = .tapBypass ir tdi ∧ isBypass s ir.toNat = true ∧ b = tdi) ∨
        (s.resetN = true ∧ b = cells.getLastD s.tapBit ∧ (i = .tapSamplePreload cells ∨ i = .tapExtest cells)) →
      ∃ t, exec i s = .next t ∧ t.tapOut = BitVec.ofNat 64 s.tapBit.toNat ∧ t.tapBit = b ∧ t.tapCells = s.tapCells ∧ t.tapDrive = s.tapDrive))

/-- R10 to R13, R28, R29, R395, R503, R511, R594, R595: an aligned write of a listed block reaches its register, one of an offset that no block holds
changes nothing; writing DEVSTO sets its field, unless it is locked or the value is reserved. The debug access port reads and writes registers as
any access does, under its enable. The management processor's window reads the low half with the register and keeps the high half, and writes when
the high half comes; a register of another package takes a request there (R29). A CXL.mem completion that does not come in time ends the request in
error. Where these rules are silent it states the model's choice (log entries 71 to 73). -/
def Obligations.RegisterWindow : Prop :=
  (∀ (b : By) (off : BitVec 40) (v : Word) (w : Bool) (s : State),
    (∀ u, regWrite s b off.toNat v = some u → ∃ t, exec (.registerWrite b off v) s = .next t ∧ t = u) ∧
    (off.toNat % 8 ≠ 0 ∨ inBlock off.toNat = false → ∃ t, exec (.registerWrite b off v) s = .next t ∧ t = s) ∧
    (∃ t, exec (.registerWrite b 0x20000 v) s = .next t ∧ RegsOnly [(.devsto, 0)] s t ∧
      rgF t .devsto 0 15 0 = (if rgF s .devsto 0 16 16 = 0 ∧ 1 ≤ fld v 15 0 ∧ fld v 15 0 ≤ 64000 then fld v 15 0 else rgF s .devsto 0 15 0)) ∧
    (s.dapWait = [] → nonInvasive s w = true →
      (∀ x, regRead s (.dap w) off.toNat = some x → ∃ t, exec (.dapSetupRead w off) s = .next t ∧ t = { s with
        dapStatus := 0
        dapData := x }) ∧
      (regRead s (.dap w) off.toNat = none → ∃ t, exec (.dapSetupRead w off) s = .next t ∧ t = { s with
        dapStatus := 0x32
        dapData := 0 })) ∧
    (s.dapWait = [] → nonInvasive s w = false → ∃ t, exec (.dapSetupRead w off) s = .next t ∧ t.dapStatus = 0x30 ∧ t.dapData = 0 ∧ t.regs = s.regs) ∧
    (s.dapWait = [] → invasive s w = true →
      (∀ u, regWrite s (.dap w) off.toNat v = some u → ∃ t, exec (.dapSetupWrite w off v) s = .next t ∧ t = { u with
        dapStatus := 0
        dapData := 0 }) ∧
      (regWrite s (.dap w) off.toNat v = none → ∃ t, exec (.dapSetupWrite w off v) s = .next t ∧ t = { s with
        dapStatus := 0x32
        dapData := 0 })) ∧
    (s.dapWait = [] → invasive s w = false → ∃ t, exec (.dapSetupWrite w off v) s = .next t ∧ t.dapStatus = 0x30 ∧ t.regs = s.regs)) ∧
  (∀ (a x : BitVec 32) (w : Option (BitVec 32)) (k off : Nat) (s : State),
    let pa := s.mpwin * 0x80000000 + (a.toNat - 0x80000000)
    (∀ y, s.mp.winTx = some y → exec (.windowHalfAccess a w) s = .next s) ∧
    (s.mp.winTx = none → a.toNat < 0x80000000 ∨ a.toNat % 4 ≠ 0 → ∃ t, exec (.windowHalfAccess a w) s = .next t ∧ t.mp.winAns = none ∧
      { t with mp := s.mp } = s) ∧
    (s.mp.winTx = none → 0x80000000 ≤ a.toNat → a.toNat % 4 = 0 → paKind s pa = .regWin k off →
      (k = s.pkg → pa % 8 = 0 →
        (∀ v, regRead s .mp off = some v → ∃ t, exec (.windowHalfAccess a none) s = .next t ∧ t.mp.winAns = some (BitVec.ofNat 64 (fld v 31 0)) ∧
          t.mpRead = some (pa, v) ∧ t.regs = s.regs)) ∧
      (k = s.pkg → ∀ q lo u, pa % 8 ≠ 0 → q + 4 = pa → s.mpHeld = some (q, lo) →
        regWrite { s with mpHeld := none } .mp (off - 4) (BitVec.ofNat 64 (lo + x.toNat * 2 ^ 32)) = some u →
        ∃ t, exec (.windowHalfAccess a (some x)) s = .next t ∧ t.mp.winAns = some 0 ∧ t.regs = u.regs ∧ t.mpHeld = u.mpHeld) ∧
      (k = s.pkg ∨ s.admitted.contains k = true →
        (pa % 8 = 0 → ∃ t, exec (.windowHalfAccess a (some x)) s = .next t ∧ t.mpHeld = some (pa, x.toNat) ∧ t.mp.winAns = some 0 ∧ t.regs = s.regs) ∧
        (∀ q v, pa % 8 ≠ 0 → q + 4 = pa → s.mpRead = some (q, v) → ∃ t, exec (.windowHalfAccess a none) s = .next t ∧
          t.mp.winAns = some (BitVec.ofNat 64 (fld v 63 32)) ∧ t.mpRead = none ∧ t.regs = s.regs)) ∧
      (k ≠ s.pkg → s.admitted.contains k = true →
        (pa % 8 = 0 → ∃ t p, exec (.windowHalfAccess a none) s = .next t ∧ t.net = s.net ++ [p] ∧ p.cmd = .devRd ∧ p.src = coreStop mpCore ∧
          p.addr = pa ∧ p.size = 3 ∧ t.mp.winTx = some (pa, p.txid) ∧ t.regs = s.regs) ∧
        (∀ q lo, pa % 8 ≠ 0 → q + 4 = pa → s.mpHeld = some (q, lo) → ∃ t p, exec (.windowHalfAccess a (some x)) s = .next t ∧ t.net = s.net ++ [p] ∧
          p.cmd = .devWr ∧ p.addr = q ∧ p.data.toNat = (lo + x.toNat * 2 ^ 32) % 2 ^ 64 ∧ t.mp.winTx = some (q, p.txid) ∧ t.mpHeld = none ∧
          t.regs = s.regs)) ∧
      (k ≠ s.pkg → s.admitted.contains k = false → ∃ t, exec (.windowHalfAccess a w) s = .next t ∧ t.mp.winAns = none ∧ { t with mp := s.mp } = s))) ∧
  (∀ (src : StopId) (txid : BitVec 16) (p : Packet) (u s : State),
    takePacket (fun p => p.src == src && p.txid == txid.toNat && cmdCode p.cmd < 0x10 && (cxlWindow s p.addr).isSome) s = some (p, u) →
    ∃ t q, exec (.cxlCompletionTimeout src txid) s = .next t ∧ t.net = u.net ++ [q] ∧ q.cmd = .errRsp ∧ q.dst = p.src ∧ q.txid = p.txid ∧
      t.dram = s.dram ∧ t.poisoned = s.poisoned)

/-- R330, R545 to R549, R552 to R554: a domain command is refused for its owner, its domain, or its target; otherwise the domain begins to close, or to
wake, and DOMAIN_STATE_REACHED brings it to its target; a core that closes goes to its WAITST state, and a domain that closed with a packet parked
wakes. PKGCMD arms BANK or ANNEAL and disarms it. The package enters once every present core is in BANK, and at its point of no return its lane
groups and engines are dark and its links reset. Where these rules are silent it states the model's choice (log entry 69). -/
def Obligations.PowerDomainsAndPackageEntry : Prop :=
  (∀ (b : By) (d : BitVec 10) (s : State),
    let n := d.toNat
    let status := fun (t : State) => rgF t .domstat 0 7 0
    let mine := bySec b = true ∨ domOwned s n = false
    (∀ r ∈ ([(.domainRun b d, 0), (.domainHold b d, 1), (.domainBank b d, 2), (.domainOff b d, 3)] : List (Instr × Nat)),
      (status s = 1 → ∃ t, exec r.1 s = .next t ∧ rgF t .domstat 0 16 16 = 1 ∧ RegsOnly [(.domstat, 0)] s t) ∧
      (status s ≠ 1 →
        (¬mine → ∃ t, exec r.1 s = .next t ∧ status t = 0x20 ∧ t.pw = s.pw ∧ domState t n = domState s n) ∧
        (mine → domMoved n = false → ∃ t, exec r.1 s = .next t ∧ status t = 0x10 ∧ RegsOnly [(.domstat, 0), (.domcmd, 0)] s t) ∧
        (mine → domMoved n = true → domTarget n r.2 = false ∨ domForbidden s n r.2 = true → ∃ t, exec r.1 s = .next t ∧ status t = 0x11 ∧
          RegsOnly [(.domstat, 0), (.domcmd, 0)] s t) ∧
        (mine → domMoved n = true → domTarget n r.2 = true → domForbidden s n r.2 = false →
          (domState s n = r.2 → ∃ t, exec r.1 s = .next t ∧ status t = 2 ∧ RegsOnly [(.domstat, 0), (.domcmd, 0)] s t) ∧
          (domState s n ≠ r.2 → ∃ t, exec r.1 s = .next t ∧ status t = 1 ∧ t.pw.dom = some (n, r.2) ∧
            domState t n = (if domState s n = 0 then 4 else 5))))) ∧
    (∀ st, domStop n = some st → domState s n = 4 → ingress s st = 1 → s.pw.dom ≠ some (0x1AA, 3) →
      (domQuiet s n = true → ∃ t, exec (.domainPointOfNoReturn d) s = .next t ∧ ingress t st = 2 ∧ RegsOnly [fstopOf st] s t) ∧
      (domQuiet s n = false → ∃ t, exec (.domainPointOfNoReturn d) s = .next t ∧ t = s)) ∧
    (∀ x, s.pw.dom = some (n, x) → x < 4 →
      (∀ st, domStop n = some st → domState s n = 4 → ingress s st = 2 → ∃ t, exec (.domainStateReached d) s = .next t ∧ domState t n = x ∧
        t.pw.dom = none ∧ status t = 2) ∧
      (domStop n = none → domState s n = 5 → x = 0 → ∃ t, exec (.domainStateReached d) s = .next t ∧ domState t n = 0 ∧ t.pw.dom = none ∧
        status t = 2)) ∧
    (s.pw.dom = none → ∀ st, domStop n = some st → domState s n = 4 →
      (n < 240 → ingress s st = 2 → ∃ t, exec (.domainStateReached d) s = .next t ∧ domState t n = waitst s n ∧ RegsOnly [(.dstate, n), fstopOf st] s t) ∧
      (240 ≤ n → pkgState s = 2 → ingress s st = 2 → ∃ t, exec (.domainStateReached d) s = .next t ∧ domState t n = 2 ∧
        RegsOnly [(.dstate, n), fstopOf st] s t) ∧
      (n < 240 ∨ pkgState s = 2 → ingress s st = 3 → ∃ t, exec (.domainStateReached d) s = .next t ∧ domState t n = 5 ∧
        RegsOnly [(.dstate, n), fstopOf st] s t))) ∧
  (∀ (b : By) (s : State),
    let mine := bySec b = true ∨ rg s .ownmap 0 = 0
    let status := fun (t : State) => rgF t .pkgstat 0 7 0
    (2 ≤ pkgState s → ∀ i ∈ [Instr.packageBank b, .packageAnneal b, .packageDisarm b], ∃ t, exec i s = .next t ∧ rgF t .pkgstat 0 16 16 = 1 ∧
      RegsOnly [(.pkgstat, 0)] s t) ∧
    (pkgState s < 2 → ¬mine → ∀ i ∈ [Instr.packageBank b, .packageAnneal b, .packageDisarm b], ∃ t, exec i s = .next t ∧ status t = 0x20 ∧
      pkgState t = pkgState s ∧ t.pw = s.pw) ∧
    (pkgState s < 2 → mine →
      (∃ t, exec (.packageDisarm b) s = .next t ∧ pkgState t = 0 ∧ (pkgState s = 1 → status t = 3)) ∧
      ((∃ p ∈ s.admitted, p ≠ s.pkg) → ∀ i ∈ [Instr.packageBank b, .packageAnneal b], ∃ t, exec i s = .next t ∧ status t = 0x13 ∧
        pkgState t = pkgState s) ∧
      ((∀ p ∈ s.admitted, p = s.pkg) →
        (∃ t, exec (.packageBank b) s = .next t ∧ pkgState t = 1 ∧ status t = 1 ∧ t.pw.target = 1) ∧
        (s.vstby = true → ∃ t, exec (.packageAnneal b) s = .next t ∧ pkgState t = 1 ∧ status t = 1 ∧ t.pw.target = 2) ∧
        (s.vstby = false → ∃ t, exec (.packageAnneal b) s = .next t ∧ status t = 0x12 ∧ pkgState t = pkgState s)))) ∧
  (∀ s : State,
    let inBank := ∀ n, n < 216 → lcValid s n = true → (getCore s (lcCore s n)).stopped = false → domState s (lcCore s n) = 2
    (pkgState s = 1 → inBank → ∃ t, exec .packageEntering s = .next t ∧ pkgState t = 2 ∧ t.cores = s.cores ∧
      (∀ i, i < 96 → ((tget none i t.pw.pme).isSome = true ↔ (rport s i).st = 1)) ∧
      (∀ d ∈ [0x1A4, 0x1A5, 0x1A6, 0x1A7, 0x1A8, 0x1A9], domState s d = 0 → domState t d = 4)) ∧
    (¬(pkgState s = 1 ∧ inBank) → ∃ t, exec .packageEntering s = .next t ∧ t = s)) ∧
  (∀ (g : Fin 24) (k : Fin 4) (s : State),
    let i := 4 * g.val + k.val
    (tget none i s.pw.pme = none → ∃ t, exec (.pmeToAck g k) s = .next t ∧ t = s) ∧
    (∀ t0, tget none i s.pw.pme = some t0 → ∃ t, exec (.pmeToAck g k) s = .next t ∧ tget none i t.pw.pme = none ∧ rport t i = { rport s i with st := 0 } ∧
      ∀ j, j ≠ i → rport t j = rport s j)) ∧
  (∀ s : State, pkgState s = 2 → s.pw.pme = [] → (∀ j, j < 6 → domState s (0x1A4 + j) ≠ 4 ∧ domState s (0x1A4 + j) ≠ 0) → s.net = [] →
    domQuiet s 0x1AA = true → domQuiet s 0x1AB = true →
    (s.pw.target = 1 ∨ (s.pw.target = 2 ∧ cachesEmpty (allCachesOut s) = true ∧ (allCachesOut s).pw = s.pw)) →
    ∃ t, exec .packagePointOfNoReturn s = .next t ∧ pkgState t = 3 + s.pw.target ∧ rgF t .pkgstat 0 7 0 = 2 ∧
      (∀ g, g < 32 → rgF t .lgstat g 3 0 = 0) ∧ (∀ e, e < 4 → oeState t e = 0) ∧ (∀ n, n < 48 → lsState t n = 0 ∨ lsState t n = 7) ∧
      (s.pw.target = 1 → t.pw.sampleAt = now s ∧ t.cores = s.cores))

/-- R145, R404, R554 to R567: an enabled wake source starts the ordered wake of a package in BANK or ANNEAL and aborts an entry; the wake goes through
its steps, each repeated once when it is late, and then resets the package. A sample of ANNEAL is counted and wakes when a limit is met; two
readings of one sensor at the trip level trip the package. The thermal and power loops lower their ceilings by 5 mV above their limits and raise
them below, and WAKE_REF_PERIOD advances the time while the wake logic keeps it. Where these rules are silent it states the model's choice (log
entries 69 and 82). -/
def Obligations.WakeTripAndLoops : Prop :=
  (∀ (g : Fin 24) (s : State),
    let woken := fun (t : State) (src det : Nat) => t.pw.wake = some ⟨1, now s, false, 2 ^ src, det, pkgState s - 3, now s⟩ ∧ pkgState t = 3
    (∀ r ∈ ([(.wakeNAssert g, 40 + g.val, 1, g.val), (.wakeTimer, 3, 4, 0)] : List (Instr × Nat × Nat × Nat)),
        (r.1 = .wakeTimer → (rg s .waketime 0).toNat ≤ now s) →
      (bit (rg s .wakectl 0) r.2.1 = true → pkgState s = 4 ∨ pkgState s = 5 → ∃ t, exec r.1 s = .next t ∧ woken t r.2.2.1 r.2.2.2) ∧
      (bit (rg s .wakectl 0) r.2.1 = true → pkgState s = 1 → ∃ t, exec r.1 s = .next t ∧ pkgState t = 0 ∧ rgF t .pkgstat 0 7 0 = 3 ∧
        rgF t .lastwake 0 63 56 = r.2.2.1 ∧ rgF t .lastwake 0 47 46 = 3 ∧ bit (rg t .intsrc 926) 1 = true) ∧
      (bit (rg s .wakectl 0) r.2.1 = false ∨ (pkgState s = 0 ∧ rgF s .lastwake 0 47 46 ≠ 3) → ∃ t, exec r.1 s = .next t ∧ t = s)) ∧
    (now s < (rg s .waketime 0).toNat → ∃ t, exec .wakeTimer s = .next t ∧ t = s)) ∧
  (∀ (i : SampleIn) (s : State), pkgState s = 5 → i.hot = [] → s.pw.tripped = false →
    (s.pw.sampleAt + rgF s .annctl 0 13 0 * 1000000 ≤ now s → ∃ t, exec (.annealSample i) s = .next t ∧ rgF t .annstat 0 31 24 = i.temp.toNat ∧
      rgF t .annstat 0 23 12 = i.vin.toNat % 4096 ∧ rgF t .annstat 0 63 32 = min (rgF s .annstat 0 63 32 + 1) (2 ^ 32 - 1) ∧
      t.pw.sampleAt = now s ∧ (sampleSeen s i = 0 → pkgState t = 5) ∧
      (sampleSeen s i ≠ 0 → pkgState t = 3 ∧ ∃ w, t.pw.wake = some w ∧ w.step = 1 ∧ w.seen = sampleSeen s i)) ∧
    (now s < s.pw.sampleAt + rgF s .annctl 0 13 0 * 1000000 → ∃ t, exec (.annealSample i) s = .next t ∧ t = s)) ∧
  (∀ (hot : List (BitVec 13)) (s : State), pkgState s = 3 ∨ pkgState s = 4 → s.pw.sampleAt + 10000000 ≤ now s →
    ((∀ x ∈ hot, x.toNat ∉ s.pw.hotSens) → ∃ t, exec (.bankTripReading hot) s = .next t ∧ t = { s with pw := { s.pw with
      sampleAt := now s
      hotSens := hot.map (·.toNat) } }) ∧
    ((∃ x ∈ hot, x.toNat ∈ s.pw.hotSens) → ∃ t, exec (.bankTripReading hot) s = .next t ∧ t.pw.tripped = true ∧ t.resetN = false ∧ t.dram = [] ∧
      t.cores = [])) ∧
  (∀ (tmax : List (BitVec 16)) (s : State), pkgState s < 4 → s.pw.tripped = false → tmax.length = 12 →
    ∃ t, exec (.sensorRead tmax []) s = .next t ∧ t.pw.hotSens = [] ∧ ∀ n, n < 12 →
      (stkOf t n).tmax = (tmax.getD n 0).toNat ∧ ((stkOf t n).hot = true ↔ alertQ s ≤ toSigned 16 (tmax.getD n 0).toNat) ∧
      ((stkOf t n).hot ≠ (stkOf s n).hot → bit (rg t .intsrc (32 * n + 6)) 1 = true)) ∧
  (∀ s : State,
    (∃ t, exec .vstbyFail s = .next t ∧ t.vstby = false ∧ pkgState t = (if pkgState s = 5 then 4 else pkgState s) ∧ RegsOnly [(.pkgstat, 0)]
      { s with
        vstby := false
        pw := t.pw } t ∧
      t.pw = (if pkgState s = 5 ∧ s.pw.outSince = none then { s.pw with outSince := some (now s) } else s.pw)) ∧
    (wakeKeepsTime s = true →
      (∃ t, exec .wakeRefPeriod s = .next t ∧ t.ptime = s.ptime + 40 ∧ t.pw.refLost = false ∧ t.regs = s.regs) ∧
      (∃ t, exec .referenceLost s = .next t ∧ t.tbMode = 0 ∧ t.pw.refLost = true ∧ t.ptime = s.ptime)) ∧
    (wakeKeepsTime s = false → ∀ i ∈ [Instr.wakeRefPeriod, .referenceLost], ∃ t, exec i s = .next t ∧ t = s)) ∧
  (∀ (w : WakeRun) (s : State), s.pw.wake = some w →
    let at_ := fun (t : State) (n : Nat) => t.pw.wake = some { w with
      step := n
      since := now s
      again := false }
    (w.step = 1 → ∃ t, exec .wakeRegulators s = .next t ∧ at_ t 2 ∧ t.regs = s.regs) ∧
    (w.step = 2 → ∃ t, exec .wakeTimeBase s = .next t ∧ at_ t 3 ∧ t.tbMode = (if s.tbMode = 0 then 1 else s.tbMode) ∧
      (s.tbMode = 0 → bit (rg t .intsrc 925) 1 = true)) ∧
    (w.step = 3 → ∃ t, exec .wakeMemory s = .next t ∧ at_ t 4 ∧ ∀ n, n < 36 → lsState s n = 0 → stkFenced s (n / 3) = false → lsState t n = 1) ∧
    (w.step = 4 → linksUp s = true → w.seen < 256 → w.from_ < 4 → w.detail < 1024 → ∃ t, exec .wakeRestore s = .next t ∧ pkgState t = 0 ∧ t.pw.wake = none ∧ rg t .lastwaket 0 = BitVec.ofNat 64 w.at_ ∧
      rgF t .lastwake 0 63 56 = lowSource w.seen ∧ bit (rg t .intsrc 926) 1 = true) ∧
    (now s < w.since + wakeLimit w.step → ∃ t, exec .wakeStepLate s = .next t ∧ t = s) ∧
    (w.since + wakeLimit w.step ≤ now s → w.again = false → ∃ t, exec .wakeStepLate s = .next t ∧ t = { s with pw := { s.pw with wake := some { w with
      again := true
      since := now s } } }) ∧
    (w.since + wakeLimit w.step ≤ now s → w.again = true → w.step < 8 → w.detail < 1024 → ∃ t, exec .wakeStepLate s = .next t ∧ t.pw.wake = none ∧ pkgState t = 0 ∧
      t.rs.run = some ⟨.warm, 3, 0⟩ ∧ rgF t .lastwake 0 45 45 = 1 ∧ rgF t .lastwake 0 44 42 = w.step)) ∧
  (∀ (n : StackId) (s : State),
    let x := stkOf s n
    let hot := toSigned 16 x.tmax
    (x.lowAt + 10000 ≤ now s → alertQ s ≤ hot → ∃ t, exec (.thermalLoopTick n false) s = .next t ∧ (stkOf t n).stkCeil = max 650 (x.stkCeil - 5) ∧
      (stkOf t n).lowAt = now s ∧ ∀ m, m ≠ n.val → stkOf t m = stkOf s m) ∧
    (now s < x.lowAt + 10000 ∨ hot < alertQ s → ∃ t, exec (.thermalLoopTick n false) s = .next t ∧ t = s) ∧
    (x.highAt + 100000 ≤ now s → hot ≤ alertQ s - 12 → ∃ t, exec (.thermalLoopTick n true) s = .next t ∧ (stkOf t n).stkCeil = min 950 (x.stkCeil + 5) ∧
      (stkOf t n).highAt = now s ∧ ∀ m, m ≠ n.val → stkOf t m = stkOf s m) ∧
    (now s < x.highAt + 100000 ∨ alertQ s - 12 < hot → ∃ t, exec (.thermalLoopTick n true) s = .next t ∧ t = s)) ∧
  (∀ (w : BitVec 16) (slow : Bool) (s : State),
    let c := rgF s .pcapstat 0 63 52
    let lim := rgF s .pcapctl 0 15 0
    ∃ t, exec (.powerLoopTick w slow) s = .next t ∧ rgF t .pcapstat 0 47 32 = w.toNat ∧
      (slow = false → s.pw.lowAt + 10000 ≤ now s → lim < w.toNat → rgF t .pcapstat 0 63 52 = max 650 (c - 5) ∧ t.pw.lowAt = now s) ∧
      (slow = false → now s < s.pw.lowAt + 10000 ∨ w.toNat ≤ lim → rgF t .pcapstat 0 63 52 = c ∧ t.pw = s.pw) ∧
      (slow = true → s.pw.highAt + 100000 ≤ now s → 100 * w.toNat ≤ 98 * lim → rgF t .pcapstat 0 63 52 = min 950 (c + 5) ∧ t.pw.highAt = now s) ∧
      (slow = true → now s < s.pw.highAt + 100000 ∨ 98 * lim < 100 * w.toNat → rgF t .pcapstat 0 63 52 = c ∧ t.pw = s.pw)) ∧
  (∀ (b : By) (v : Word) (s : State), ∃ t, exec (.pcapctlWrite b v) s = .next t ∧
    rgF t .pcapctl 0 15 0 = (if rgF s .pcapctl 0 32 32 = 0 ∧ 400 ≤ fld v 15 0 ∧ fld v 15 0 ≤ 1000 then fld v 15 0 else rgF s .pcapctl 0 15 0) ∧
    rgF t .pcapctl 0 23 16 = (if rgF s .pcapctl 0 32 32 = 0 ∧ 70 ≤ fld v 23 16 ∧ fld v 23 16 ≤ 105 then fld v 23 16 else rgF s .pcapctl 0 23 16) ∧
    (rgF t .pcapctl 0 32 32 = 1 ↔ rgF s .pcapctl 0 32 32 = 1 ∨ bit v 32 = true) ∧
    ∀ n, n < 12 → ((stkOf t n).hot = true ↔ alertQ t ≤ toSigned 16 (stkOf s n).tmax))

/-- R249, R253, R256, R258 to R263, R267 to R272, R282: the L3 of a home is invalidated, put in use and taken out of use by its commands and the walks
they make due, or the command is refused with its flag; walks of a home run one at a time; when one ends its lines are gone or clean, and a way it
retires is shut (of the L3, of the directory, of the hub I/O cache). A partition mask's own field is the monitor's. A range command queues a walk at
every home and ends with its status once all are done. Where these rules are silent it states the model's choice (log entry 76). -/
def Obligations.L3WalksAndRanges : Prop :=
  (∀ (b : By) (h : StackId) (en : Bool) (s : State), (ownStk s h = false ∨ bySec b = true) →
    let on := rgF s .l3ctl h 0 0
    let st := fun (t : State) (i : Nat) => rgF t .l3stat h i i
    let due := fun (t : State) (w : WalkKind) => tget none h t.walkRun = some w ∨ w ∈ tget [] h t.walks
    (on = 0 → st s 3 = 0 → st s 2 = 0 → ∃ t, exec (.l3InvAll b h false) s = .next t ∧ st t 1 = 0 ∧ st t 2 = 1 ∧ due t .invAll ∧ t.l3 = s.l3) ∧
    (on = 1 ∨ st s 3 = 1 ∨ st s 2 = 1 → ∃ t, exec (.l3InvAll b h true) s = .next t ∧ st t 7 = 1 ∧ RegsOnly [(.l3stat, h.val)] s t) ∧
    (on = 1 → ∃ t, exec (.l3Enable b h) s = .next t ∧ t = s) ∧
    (on = 0 → st s 3 = 0 → st s 1 = 1 ∨ st s 0 = 1 → ∃ t, exec (.l3Enable b h) s = .next t ∧ rgF t .l3ctl h 0 0 = 1 ∧ RegsOnly [(.l3ctl, h.val)] s t) ∧
    (on = 0 → st s 3 = 1 ∨ (st s 1 = 0 ∧ st s 0 = 0) → ∃ t, exec (.l3Enable b h) s = .next t ∧ rgF t .l3ctl h 0 0 = 0 ∧ st t 6 = 1 ∧
      RegsOnly [(.l3stat, h.val)] s t) ∧
    (on = 1 → ∃ t, exec (.l3Disable b h) s = .next t ∧ rgF t .l3ctl h 0 0 = 0 ∧ st t 3 = 1 ∧ due t .flush ∧ t.l3 = s.l3) ∧
    (on = 0 → ∃ t, exec (.l3Disable b h) s = .next t ∧ t = s)) ∧
  (∀ (b : By) (h : StackId) (n : Fin 16) (v : Word) (en ev : Bool) (d : Fin 13) (s : State), bySec b = false → ownStk s h = true → d.val = h.val →
    ∀ i ∈ [Instr.l3InvAll b h en, .l3Enable b h, .l3Disable b h, .pmaskWrite b h n v, .logClear b d ev],
      ∃ t, exec i s = .next t ∧ { t with hlog := s.hlog } = s ∧ (s.hlog.pend.length < 32 →
        ∃ r, t.hlog.pend = s.hlog.pend ++ [r] ∧ r.typ = 0x0022 ∧ r.arg = 0x20 ∧ r.origin = originOf s b)) ∧
  (∀ (h : StackId) (found : List LineFound) (s : State),
    let gone := fun (t : State) => ∀ line, (lineLoc s line).home = h → (l3Line t line).valid = false
    (tget none h s.walkRun = some .invAll → ∃ t, exec (.invAllDone h) s = .next t ∧ rgF t .l3stat h 2 2 = 0 ∧ rgF t .l3stat h 1 1 = 1 ∧
      tget none h t.walkRun = none ∧ gone t ∧ t.dram = s.dram) ∧
    (tget none h s.walkRun = some .flush → ∃ t, exec (.l3FlushDone ⟨h, found⟩) s = .next t ∧ rgF t .l3stat h 3 3 = 0 ∧ rgF t .l3stat h 1 1 = 0 ∧
      rgF t .l3stat h 0 0 = 0 ∧ tget none h t.walkRun = none ∧
      ∀ line, (lineLoc s line).home = h → (l3Line t line).valid = true → (l3Line t line).dirty = false ∧ (l3Line t line).data = (l3Line s line).data) ∧
    (tget false h s.sweeping = true → ∃ t, exec (.l3SweepDone h) s = .next t ∧ rgF t .l3stat h 0 0 = 1 ∧ tget false h t.sweeping = false ∧ gone t ∧
      t.dram = s.dram) ∧
    (tget none h s.walkRun = none → tget false h s.sweeping = false → ∀ i ∈ [Instr.invAllDone h, .l3FlushDone ⟨h, found⟩, .l3SweepDone h],
      ∃ t, exec i s = .next t ∧ t = s) ∧
    (∀ k way, k < 8 → way < 16 → tget none h s.walkRun = some (.wayRetire k way) → ∃ t, exec (.wayRetirementWalkDone ⟨⟨h, by omega⟩, found⟩) s = .next t ∧
      (rgF t .l3way (h * 8 + k) 15 0).testBit way = true ∧ bit (rg t .intsrc (32 * h.val + 2)) 1 = true ∧ tget none h t.walkRun = none ∧
      ∀ line, (lineLoc s line).home = h → (lineLoc s line).slice = k → (l3Line s line).way = way → (l3Line t line).valid = false) ∧
    (∀ k way, k < 8 → way < 16 → tget none h s.walkRun = some (.dirRetire k way) →
      let held := fun (p : Nat × DirEntry) => p.2.way = way ∧ p.2.st ≠ .none_ ∧ isLocalMem s (p.1 * 64) = true ∧ (lineLoc s p.1).home = h.val ∧
        (lineLoc s p.1).slice = k
      ((∀ p ∈ s.dir, ¬held p) → ∃ t, exec (.wayRetirementWalkDone ⟨⟨h, by omega⟩, found⟩) s = .next t ∧
        (rgF t .dirway (h * 8 + k) 15 0).testBit way = true ∧ bit (rg t .intsrc (32 * h.val + 2)) 1 = true ∧ tget none h t.walkRun = none) ∧
      ((∃ p ∈ s.dir, held p) → ∃ t, exec (.wayRetirementWalkDone ⟨⟨h, by omega⟩, found⟩) s = .next t ∧ t = s)) ∧
    (∀ k way, way < 16 → tget none 12 s.walkRun = some (.wayRetire k way) →
      ((∀ p ∈ s.hioWays, p.2 = way → (hline s 0xF0 p.1).st = .i) → ∃ t, exec (.wayRetirementWalkDone ⟨12, found⟩) s = .next t ∧
        (rgF t .hioway 0 15 0).testBit way = true ∧ bit (rg t .intsrc 920) 1 = true ∧ tget none 12 t.walkRun = none) ∧
      ((∃ p ∈ s.hioWays, p.2 = way ∧ (hline s 0xF0 p.1).st ≠ .i) → ∃ t, exec (.wayRetirementWalkDone ⟨12, found⟩) s = .next t ∧ t = s))) ∧
  (∀ (h : Fin 13) (s : State),
    (tget [] h s.walks = [] → ∃ t, exec (.setWalkStart h) s = .next t ∧ t = s) ∧
    (∀ w ws, tget [] h s.walks = w :: ws →
      (tget none h s.walkRun = none → w = .invAll ∨ w = .flush ∨ (h.val < 12 ∧ ∃ k way, w = .wayRetire k way) →
        ∃ t, exec (.setWalkStart h) s = .next t ∧ tget none h t.walkRun = some w ∧ tget [] h t.walks = ws ∧ { t with
          walkRun := s.walkRun
          walks := s.walks } = s) ∧
      (∀ r, tget none h s.walkRun = some r → (∀ u, r = .range u → rangeIdle s u h = false) → ∃ t, exec (.setWalkStart h) s = .next t ∧ t = s))) ∧
  (∀ (b : By) (h : StackId) (n : Fin 16) (v : Word) (s : State),
    let i := h.val * 16 + n.val
    (bySec b = true → ∃ t, exec (.pmaskWrite b h n v) s = .next t ∧ rgF t .pmask i 15 0 = fld v 15 0 ∧ rgF t .pmask i 32 32 = fld v 32 32 ∧
      RegsOnly [(.pmask, i)] s t) ∧
    (bySec b = false → ownStk s h = false → bit (rg s .pmask i) 32 = false → ∃ t, exec (.pmaskWrite b h n v) s = .next t ∧
      rgF t .pmask i 15 0 = fld v 15 0 ∧ rgF t .pmask i 32 32 = 0 ∧ RegsOnly [(.pmask, i)] s t) ∧
    (bySec b = false → ownStk s h = false → bit (rg s .pmask i) 32 = true → ∃ t, exec (.pmaskWrite b h n v) s = .next t ∧ t = s)) ∧
  (∀ (b : By) (u : Fin 2) (irq : Bool) (s : State),
    (∀ r ∈ ([(.rangeClean b u irq, 0), (.rangeCleanInvalidate b u irq, 1), (.rangeInvalidate b u irq, 2)] : List (Instr × Nat)),
      (u.val = 1 → bySec b = false → ∃ t, exec r.1 s = .next t ∧ t = s) ∧
      (u.val = 0 ∨ bySec b = true →
        (rgF s .rmstat u 7 0 = 1 → ∃ t, exec r.1 s = .next t ∧ rgF t .rmstat u 8 8 = 1 ∧ RegsOnly [(.rmstat, u.val)] s t) ∧
        (rgF s .rmstat u 7 0 ≠ 1 → rangeValid s u = false → ∃ t, exec r.1 s = .next t ∧ rgF t .rmstat u 7 0 = 0x10 ∧
          RegsOnly [(.rmstat, u.val), (.rmcmd, u.val)] s t) ∧
        (rgF s .rmstat u 7 0 ≠ 1 → rangeValid s u = true → ∃ t, exec r.1 s = .next t ∧ rgF t .rmstat u 7 0 = 1 ∧ rgF t .rmcmd u 1 0 = r.2 ∧
          ∀ h, h < 12 → stkFenced s h = false → tget none h t.walkRun = some (.range u) ∨ .range u.val ∈ tget [] h t.walks))) ∧
    (rgF s .rmstat u 7 0 = 1 → (∀ h, h < 12 → rangeHomeDone s u h = true) → ∃ t, exec (.rangeOpComplete u) s = .next t ∧
      rgF t .rmstat u 7 0 = (if tget false u s.rangePois then 3 else 2) ∧ (rgF s .rmcmd u 4 4 = 1 → bit (rg t .intsrc (912 + u.val)) 1 = true) ∧
      (∀ h, h < 12 → tget none h t.walkRun ≠ some (.range u)) ∧ t.dram = s.dram) ∧
    (∀ h, rgF s .rmstat u 7 0 = 1 → h < 12 → rangeHomeDone s u h = false → ∃ t, exec (.rangeOpComplete u) s = .next t ∧ t = s))

/-- R256, R257, R576, R579, R585, R587, R588, R592: a request without an answer in time is ended and its TXID kept aside until a further timeout is
over. LOGCLR clears a log but its TOTAL. A retired way's fuse and a core's are programmed once they are due. A change of the service conditions is
shown in CAUSE, remembered in SEEN and raises source 917. Each powered hour is counted. Where these rules are silent it states the model's choice
(log entries 32 and 75). -/
def Obligations.ErrorsAndRetirement : Prop :=
  (∀ (src : StopId) (tx : BitVec 16) (s : State),
    (∀ o, s.outst.find? (fun o => o.stop == src && o.txid == tx.toNat) = some o →
      (now s < o.since + rqto s → ∃ t, exec (.requesterTimeout src tx) s = .next t ∧ t = s) ∧
      (unsent s src tx.toNat = true → ∃ t, exec (.requesterTimeout src tx) s = .next t ∧ t = s) ∧
      (o.since + rqto s ≤ now s → unsent s src tx.toNat = false → ∃ t, exec (.requesterTimeout src tx) s = .next t ∧ { o with since := now s } ∈ t.quarantine)) ∧
    (s.outst.find? (fun o => o.stop == src && o.txid == tx.toNat) = none → ∃ t, exec (.requesterTimeout src tx) s = .next t ∧ t = s) ∧
    (∃ t, exec (.txidRelease src tx) s = .next t ∧ { t with quarantine := s.quarantine } = s ∧
      ∀ o, o ∈ t.quarantine ↔ o ∈ s.quarantine ∧ ¬(o.stop = src ∧ o.txid = tx.toNat ∧ o.since + rqto s ≤ now s))) ∧
  (∀ (b : By) (d : Fin 13) (ev : Bool) (s : State), (d.val = 12 ∨ ownStk s d = false ∨ bySec b = true) →
    let r := logRegs (logAt d ev)
    ∃ t, exec (.logClear b d ev) s = .next t ∧ rgF t r.1 r.2.2.2.2.1 31 16 = 0 ∧ rgF t r.1 r.2.2.2.2.1 4 0 = 0 ∧
      rgF t r.1 r.2.2.2.2.1 63 32 = rgF s r.1 r.2.2.2.2.1 63 32 ∧
      (∀ n, n < r.2.2.2.2.2.2 → rg t r.2.1 (r.2.2.2.2.2.1 + n) = 0 ∧ rg t r.2.2.1 (r.2.2.2.2.2.1 + n) = 0 ∧ rg t r.2.2.2.1 (r.2.2.2.2.2.1 + n) = 0) ∧
      { t with regs := s.regs } = s) ∧
  (∀ (kind : Fin 3) (h : StackId) (slice : Fin 8) (way : Fin 16) (s : State),
    let r := if kind.val = 2 then disReg 2 0 0 else disReg kind h slice
    let key := if kind.val = 2 then fuseKey 2 0 0 way else fuseKey kind h slice way
    ((rgF s r.1 r.2 15 0).testBit way = true → ∃ t, exec (.wayRetirementFuse kind h slice way) s = .next t ∧ tget false key t.wayFuse = true ∧
      { t with wayFuse := s.wayFuse } = s) ∧
    ((rgF s r.1 r.2 15 0).testBit way = false → ∃ t, exec (.wayRetirementFuse kind h slice way) s = .next t ∧ t = s)) ∧
  (∀ (c : CoreId) (s : State), c.val < 240 →
    ((rgF s .retstat (c.val / 20) 19 0).testBit (c.val % 20) = true → tget false c s.coreFuse = false →
      ∃ t, exec (.coreRetirementFuse c) s = .next t ∧ tget false c t.coreFuse = true ∧
        rgF t .retstat (c.val / 20) (20 + c.val % 20) (20 + c.val % 20) = 1 ∧ t.cores = s.cores) ∧
    ((rgF s .retstat (c.val / 20) 19 0).testBit (c.val % 20) = false ∨ tget false c s.coreFuse = true →
      ∃ t, exec (.coreRetirementFuse c) s = .next t ∧ t = s)) ∧
  (∀ s : State,
    let u := followLinks s
    let old := rgF s .svcreq 0 7 0
    (svcCause u ≠ old → ∃ t, exec .serviceRequestUpdate s = .next t ∧ rgF t .svcreq 0 7 0 = svcCause u ∧
      rgF t .svcreq 0 15 8 = (rgF s .svcreq 0 15 8 ||| svcCause u) ∧ bit (rg t .intsrc 917) 1 = true ∧
      t.mpPend.testBit 917 = true ∧ RegsOnly [(.svcreq, 0), (.intsrc, 917)] { u with
        hlog := t.hlog
        mpPend := t.mpPend } t) ∧
    (svcCause u = old → ∃ t, exec .serviceRequestUpdate s = .next t ∧ t = u)) ∧
  (∀ (hot : Bool) (tj v : BitVec 16) (s : State),
    (s.lifeAt + 3600000000000 ≤ pourTime s → rgF s .pkgstat 0 10 8 ≤ 1 → ∃ t, exec (.lifeUpdate hot tj v) s = .next t ∧
      rgF t .life0 0 63 32 = min (rgF s .life0 0 63 32 + 1) (2 ^ 32 - 1) ∧
      rgF t .life0 0 31 0 = (if hot then min (rgF s .life0 0 31 0 + 1) (2 ^ 32 - 1) else rgF s .life0 0 31 0) ∧
      rgF t .life1 0 63 48 = tj.toNat ∧ rgF t .life1 0 47 32 = v.toNat ∧ t.lifeAt = pourTime s) ∧
    (pourTime s < s.lifeAt + 3600000000000 ∨ 1 < rgF s .pkgstat 0 10 8 → ∃ t, exec (.lifeUpdate hot tj v) s = .next t ∧ t = s))

/-- R594, R597 to R608, R610: the boot ROM runs the first image that holds, or none. A post joins its class queue, or is answered BUSY when the queue is
full; the entry served ends with its status and results. The watchdog and its kick; shedding by occupancy. A record is appended after the newest
with its chained TAG; a commit travels to the island, is appended with the time then, and its block is written back. `hubEnd` closes each command
that reaches memory: requests of the hub's agents that wait leave. Where these rules are silent it states the model's choice (log entries 33 to 35,
64 and 70). -/
def Obligations.MailboxesAndHeatLog : Prop :=
  (∀ (i : BootIn) (s : State),
    (s.mp.boot = 0 → s.resetN = true → s.rs.pwrgood = true → s.rs.run = none →
      (∀ im bs, (bootTries s i).find? (fun t => t.2.1) = some (im, true, bs) → im < 4 → ∃ t, exec (.mpBoot i) s = .next t ∧ t.mp.boot = 1 ∧
        (getCore t mpCore).held = false ∧ rgF t .mpstat 0 47 46 = im ∧ t.mp.wdAt = now s) ∧
      ((bootTries s i).find? (fun t => t.2.1) = none → ∃ t, exec (.mpBoot i) s = .next t ∧ t.mp.boot = 2 ∧ rgF t .mpstat 0 47 46 = 3 ∧
        t.cores = s.cores)) ∧
    (s.mp.boot ≠ 0 → ∃ t, exec (.mpBoot i) s = .next t ∧ t = s)) ∧
  (∀ (b : By) (c : Fin 2) (blk : LineNo) (f : Findings) (s : State),
    let cls : Nat := 2 - c.val
    (c.val = 1 → bySec b = false → ∃ t, exec (.mailboxPost b c blk f) s = .next t ∧ t = s) ∧
    (∀ d v, (c.val = 0 ∨ bySec b = true) → blockRead s 19 (mbWorld cls) (blk.toNat * 64) f = (.err, d, v) →
      exec (.mailboxPost b c blk f) s = .next (hubEnd v)) ∧
    (∀ d v, (c.val = 0 ∨ bySec b = true) → blockRead s 19 (mbWorld cls) (blk.toNat * 64) f = (.wait, d, v) →
      exec (.mailboxPost b c blk f) s = .next (hubEnd (hubPause s v))) ∧
    (∀ d v d' w go u, (c.val = 0 ∨ bySec b = true) → blockRead s 19 (mbWorld cls) (blk.toNat * 64) f = (.ok, d, v) →
      mbEnter v cls ⟨d, blk.toNat * 64, 0, 0⟩ = (d', w) → blockWrite w 19 (mbWorld cls) (blk.toNat * 64) (bytesLE 8 (lineGet d' 0 8)) f = (go, u) →
      ∃ t, exec (.mailboxPost b c blk f) s = .next (hubEnd t) ∧ t = (if go then u else hubPause s u) ∧
        ((mbQ v cls).length < 64 → lineGet d' 1 1 = 1 ∧ mbQ w cls = mbQ v cls ++ [⟨d, blk.toNat * 64, 0, now v⟩]) ∧
        (64 ≤ (mbQ v cls).length → lineGet d' 1 1 = 4 ∧ w = v))) ∧
  (∀ (blk : LineData) (s : State),
    ((mbQ s 0).length < 64 → ∃ t d, exec (.tundishMailboxRequest blk) s = .next t ∧ mbQ t 0 = mbQ s 0 ++ [⟨blk, 0, 0, now s⟩] ∧
      t.mp.tunAns = some d ∧ lineGet d 1 1 = 1) ∧
    (64 ≤ (mbQ s 0).length → ∃ t d, exec (.tundishMailboxRequest blk) s = .next t ∧ mbQ t 0 = mbQ s 0 ∧ t.mp.tunAns = some d ∧ lineGet d 1 1 = 4)) ∧
  (∀ (f : Findings) (e : MbEntry) (rest : List MbEntry) (t0 : Nat) (s : State), s.mp.serv = some (0, t0) → mbQ s 0 = e :: rest →
    let op := lineGet e.block 6 2
    let answered := fun (t : State) (status : Nat) (bs : List Byte) => mbQ t 0 = rest ∧
      ∃ d, t.mp.tunAns = some d ∧ lineGet d 1 1 = status ∧ lineGet d 0 1 % 2 = 1 ∧ lineGet d 8 bs.length = ofBytesLE bs
    (op = 0x01 → ∃ t, exec (.mbPing f) s = .next (hubEnd t) ∧ answered t 0 (bytesLE 8 s.ptime.toNat)) ∧
    (op = 0x20 → ∃ t, exec (.mbSensors f) s = .next (hubEnd t) ∧
      answered t 0 ((List.range 12).flatMap (fun n => bytesLE 2 (stkOf s n).tmax) ++ bytesLE 2 (rgF s .pcapstat 0 47 32))) ∧
    (op = 0x30 → lineGet e.block 8 1 ≤ 7 → ∃ t, exec (.mbCart f) s = .next (hubEnd t) ∧
      answered t 0 (bytesLE 8 (rg s .cartstat (lineGet e.block 8 1)).toNat ++
        bytesLE 48 ((tget {} (lineGet e.block 8 1) s.slots : Slot).mem.toNat % 2 ^ 384))) ∧
    (op = 0x40 → ∃ t, exec (.mbLife f) s = .next (hubEnd t) ∧ answered t 0 (bytesLE 8 (rg s .life0 0).toNat ++ bytesLE 8 (rg s .life1 0).toNat)) ∧
    (op = 0x10 → lineGet e.block 40 2 ≠ s.pkg → lineGet e.block 40 2 ∉ s.admitted → ∃ t, exec (.mbShare f) s = .next (hubEnd t) ∧ answered t 0x11 []) ∧
    (op = 0x10 → lineGet e.block 40 2 = s.pkg →
      let v := bWord e.block 8
      let r := shRun s .mp (fld v 3 0) ⟨fld v 43 32, bit v 16, fld v 15 12, bWord e.block 16, bWord e.block 24, bWord e.block 32⟩ (regPa 0x200000)
      ∃ t, exec (.mbShare f) s = .next (hubEnd t) ∧ answered t 0 (bytesLE 8 r.1.r0.toNat ++ bytesLE 8 r.1.r1.toNat ++ bytesLE 1 r.1.status) ∧
        t.shares = r.2.shares) ∧
    (op ∉ mbOps → ∀ i ∈ [Instr.mbPing f, .mbShare f, .mbSensors f, .mbCart f, .mbLife f], ∃ t, exec i s = .next (hubEnd t) ∧ answered t 0x10 [])) ∧
  (∀ (b : By) (s : State),
    (∃ t, exec (.watchdogKick b) s = .next t ∧ t = (if b = .mp then { s with mp := { s.mp with wdAt := now s } } else s)) ∧
    (s.mp.boot = 1 → s.mp.wdAt + rgF s .mpwdt 0 15 0 * 1000000 ≤ now s → s.mp.serv = none → s.hubTx = [] → ∃ t, exec .watchdogFire s = .next t ∧ t.mp.boot = 0 ∧
      t.mpSram = [] ∧ getCore t mpCore = coreRst mpCore ∧ rgF t .mpstat 0 63 48 = min (rgF s .mpstat 0 63 48 + 1) 65535 ∧
      bit (rg t .intsrc 924) 1 = true ∧ t.mp.mbq = s.mp.mbq ∧ ∀ c, c ≠ mpCore → getCore t c = getCore s c) ∧
    (s.mp.boot ≠ 1 ∨ now s < s.mp.wdAt + rgF s .mpwdt 0 15 0 * 1000000 → ∃ t, exec .watchdogFire s = .next t ∧ t = s)) ∧
  (∀ (occ : BitVec 7) (s : State),
    let lv := rgF s .mpstat 0 2 0
    (s.mp.shedAt + 10000000 ≤ now s →
      (90 < occ.toNat → ∃ t, exec (.shedEvaluation occ) s = .next t ∧ rgF t .mpstat 0 2 0 = min 3 (lv + 1) ∧ t.mp.shedAt = now s ∧ t.mp.shedLow = 0) ∧
      (occ.toNat ≤ 50 → s.mp.shedLow = 9 → ∃ t, exec (.shedEvaluation occ) s = .next t ∧ rgF t .mpstat 0 2 0 = lv - 1 ∧ t.mp.shedLow = 0) ∧
      (50 < occ.toNat → occ.toNat ≤ 90 → ∃ t, exec (.shedEvaluation occ) s = .next t ∧ rgF t .mpstat 0 2 0 = lv ∧ t.mp.shedLow = 0)) ∧
    (now s < s.mp.shedAt + 10000000 → ∃ t, exec (.shedEvaluation occ) s = .next t ∧ t = s)) ∧
  (∀ (p : HlPend) (ps : List HlPend) (f : Findings) (s : State), s.hlog.pend = p :: ps → s.hlog.lost = 0 →
    let seq := s.hlog.head + 1
    let appended := fun (t : State) (p : HlPend) => t.hlog.head = seq ∧ t.hlog.pend = ps ∧
      tget 0 (seq % 32768) t.hlog.ring = BitVec.ofNat 512 (ofBytesLE (hlRecord (hlChain s) seq p)) ∧
      (∀ k, k ≠ seq % 32768 → tget 0 k t.hlog.ring = tget 0 k s.hlog.ring) ∧ { t with hlog := s.hlog } = s
    (hlAppends s = true → p.commit = none → ∃ t, exec .heatLogAppend s = .next t ∧ appended t p) ∧
    (hlAppends s = false ∨ p.commit.isSome = true → ∃ t, exec .heatLogAppend s = .next t ∧ t = s) ∧
    (∀ pa w, hlAppends s = true → p.commit = some (pa, w) →
      let q : HlPend := { p with
        ptime := s.ptime
        flags := hlFlags s }
      let v := hlPop (hlAppend s q)
      appended v q ∧
      (∀ d x, blockRead v 20 w pa f = (.err, d, x) → exec (.commit f) s = .next (hubEnd x)) ∧
      (∀ d x, blockRead v 20 w pa f = (.wait, d, x) → exec (.commit f) s = .next (hubEnd (hubPause s x))) ∧
      (∀ d x go y, blockRead v 20 w pa f = (.ok, d, x) → hlReport x w pa d 0 (some (x.hlog.head, s.ptime)) f = (go, y) →
        exec (.commit f) s = .next (hubEnd (if go then y else hubPause s y)))) ∧
    (hlAppends s = false ∨ p.commit = none → exec (.commit f) s = .next (hubEnd s))) ∧
  (∀ (b : By) (blk : LineNo) (f : Findings) (d : LineData) (v s : State),
    (blockRead s 20 (bySec b) (blk.toNat * 64) f = (.err, d, v) → exec (.hlsubmit b blk f) s = .next (hubEnd v)) ∧
    (blockRead s 20 (bySec b) (blk.toNat * 64) f = (.wait, d, v) → exec (.hlsubmit b blk f) s = .next (hubEnd (hubPause s v))) ∧
    (blockRead s 20 (bySec b) (blk.toNat * 64) f = (.ok, d, v) →
      (commitRoom v = true → ∃ t p, exec (.hlsubmit b blk f) s = .next t ∧ (p ∈ t.net ∨ p ∈ t.gHeld) ∧ p.cmd = .hlog ∧ p.data = d ∧
        p.addr = blk.toNat * 64 ∧ p.world = bySec b) ∧
      (∀ go u, commitRoom v = false → hlReport v (bySec b) (blk.toNat * 64) d 0x06 none f = (go, u) →
        exec (.hlsubmit b blk f) s = .next (hubEnd (if go then u else hubPause s u))))) ∧
  (∀ (f : Findings) (s : State), takePacket (fun p => p.cmd == .hlog) s = none → exec (.hlog f) s = .next (hubEnd s)) ∧
  (∀ (p : Packet) (f : Findings) (u s : State), takePacket (fun p => p.cmd == .hlog) s = some (p, u) →
    let w := gArrive u p
    (hlRoom w = true → hlAppends w = true → ∃ t, exec (.hlog f) s = .next (hubEnd t) ∧ { t with hlog := w.hlog } = w ∧
      t.hlog.pend = w.hlog.pend ++ [⟨0x0050, p.arg, lineGet p.data 8 4, BitVec.ofNat 256 (lineGet p.data 32 32), 0, 0, some (p.addr, p.world)⟩]) ∧
    (∀ go x, hlRoom w = false ∨ hlAppends w = false → hlReport w p.world p.addr p.data 0x06 none f = (go, x) →
      exec (.hlog f) s = .next (hubEnd (if go then x else hubPause s x))))

/-- R511, R612 to R614, R651: a frame for this package acts and is answered with CMD + 0x80, its TAG, a status and what the command returns; the
commands that need VIN_MAIN answer IHL_POWER without it; a frame for another package, or one that fails its CRC, is as if it had not come; an
unknown command is refused. Where these rules are silent it states the model's choice (log entries 38 and 74). -/
def Obligations.IhlellFrames : Prop :=
  (∀ (a tag : BitVec 8) (s : State), a.toNat = 0x10 + s.pkg →
    let u := ihlActivity s
    let told := fun (t : State) (cmd : Nat) (bs : List Byte) => t.mp.ihlAns = some (cmd + 0x80, tag.toNat, bs)
    let only := fun (t : State) => { t with mp := u.mp } = u
    (∃ t, exec (.ihlIdent a tag) s = .next t ∧ only t ∧
      told t 0x01 (0 :: (bytesLE 8 (regLive u .pkgid 0).toNat ++ bytesLE 8 (regLive u .strapstat 0).toNat ++ [if !s.vin && !s.vstby then 1 else 0]))) ∧
    (s.vin = true → ∃ t, exec (.ihlStatus a tag) s = .next t ∧ only t ∧
      told t 0x02 (0 :: (bytesLE 8 (regLive u .svcreq 0).toNat ++ bytesLE 8 (regLive u .pkgstat 0).toNat ++ bytesLE 8 (regLive u .lastwake 0).toNat ++
        [if u.pw.tripped then 0 else 1]))) ∧
    (∃ t, exec (.lifeRead a tag) s = .next t ∧ only t ∧ told t 0x18 (0 :: (bytesLE 8 (rg u .life0 0).toNat ++ bytesLE 8 (rg u .life1 0).toNat))) ∧
    (∀ nonce : Word, ∃ t, exec (.hlHead a tag nonce) s = .next t ∧ only t ∧
      told t 0x10 (0 :: ((bytesLE 6 u.hlog.head ++ hlChain u) ++
        cmacWhole hlKeyBytes (bytesLE 8 nonce.toNat ++ (bytesLE 6 u.hlog.head ++ hlChain u))))) ∧
    (∀ (seq : BitVec 48) (count zero : BitVec 8),
      (count.toNat = 1 → zero = 0 → hlHeld u seq.toNat = true → ∃ t, exec (.hlRead a tag seq count zero) s = .next t ∧ only t ∧
        told t 0x11 (0 :: hlAt u seq.toNat)) ∧
      (count.toNat = 1 → zero = 0 → hlHeld u seq.toNat = false → ∃ t, exec (.hlRead a tag seq count zero) s = .next t ∧ only t ∧ told t 0x11 [5]) ∧
      (count.toNat = 2 → zero = 0 → hlHeld u seq.toNat = true → hlHeld u (seq.toNat + 1) = true → ∃ t, exec (.hlRead a tag seq count zero) s = .next t ∧
        only t ∧ told t 0x11 (0 :: (hlAt u seq.toNat ++ hlAt u (seq.toNat + 1)))) ∧
      (count.toNat = 2 → zero = 0 → hlHeld u seq.toNat = true → hlHeld u (seq.toNat + 1) = false → ∃ t, exec (.hlRead a tag seq count zero) s = .next t ∧
        only t ∧ told t 0x11 (0 :: hlAt u seq.toNat)) ∧
      (count = 0 ∨ 2 < count.toNat ∨ zero ≠ 0 → ∃ t, exec (.hlRead a tag seq count zero) s = .next t ∧ only t ∧ told t 0x11 [0x11])) ∧
    (∀ first last : BitVec 48,
      (last.toNat < first.toNat → ∃ t, exec (.hlVerify a tag first last) s = .next t ∧ only t ∧ told t 0x12 [0x11]) ∧
      (first.toNat ≤ last.toNat → hlHeld u first.toNat = false ∨ hlHeld u last.toNat = false → ∃ t, exec (.hlVerify a tag first last) s = .next t ∧
        only t ∧ told t 0x12 [5]) ∧
      (∀ bad, first.toNat ≤ last.toNat → hlHeld u first.toNat = true → hlHeld u last.toNat = true → u.hlog.head ≤ 32767 →
        hlCheck u first.toNat (last.toNat + 1) 0 zero32 = .inl bad → ∃ t, exec (.hlVerify a tag first last) s = .next t ∧ only t ∧
          told t 0x12 (0 :: bytesLE 6 bad)) ∧
      (first.toNat ≤ last.toNat → hlHeld u first.toNat = true → last.toNat = u.hlog.head → u.hlog.head ≤ 32767 →
        hlCheck u first.toNat (last.toNat + 1) 0 zero32 = .inr (hlChain u) → ∃ t, exec (.hlVerify a tag first last) s = .next t ∧ only t ∧
          told t 0x12 [0, 0])) ∧
    (s.vin = true → s.rs.boot ≠ 3 →
      (∀ w : BitVec 32, ∃ t, exec (.wakeMbox a tag w) s = .next t ∧ rgF t .wakembox 0 31 0 = w.toNat ∧ told t 0x03 [0]) ∧
      (∀ blk : LineData,
        ((mbQ u 3).length < 64 → ∃ t, exec (.ihlMailbox a tag blk) s = .next t ∧ mbQ t 3 = mbQ u 3 ++ [⟨blk, 0, tag.toNat, now u⟩] ∧ t.mp.ihlAns = none) ∧
        (64 ≤ (mbQ u 3).length → ∃ t bs, exec (.ihlMailbox a tag blk) s = .next t ∧ mbQ t 3 = mbQ u 3 ∧ told t 0x20 (4 :: bs))) ∧
      (∀ op : DapOp, let x := dapGate true op (dapWaits u op) (dapRun · op) u
        ∃ t, exec (.ihlDap a tag op) s = .next t ∧ { t with mp := x.mp } = x ∧
          (dapEnds true op (dapWaits u op) u = true → told t 0x30 (0 :: BitVec.ofNat 8 x.dapStatus :: bytesLE 8 x.dapData.toNat)) ∧
          (dapEnds true op (dapWaits u op) u = false → t.mp.ihlAns = none)) ∧
      (∀ (off : BitVec 32) (bs : List Byte),
        (bs.length ≤ 128 → ∃ t, exec (.bootImage a tag off bs) s = .next t ∧ only t ∧ told t 0x40 [0] ∧
          t.mp.img = memPut u.mp.img off.toNat bs.length (ofBytesLE bs)) ∧
        (128 < bs.length → ∃ t, exec (.bootImage a tag off bs) s = .next t ∧ only t ∧ told t 0x40 [0x11] ∧ t.mp.img = u.mp.img))) ∧
    (s.vin = false → u.vin = false → u.rs.boot ≠ 3 → ∀ (w : BitVec 32) (blk : LineData) (op : DapOp) (bs : List Byte),
      ∀ r ∈ ([(.wakeMbox a tag w, 0x03), (.ihlMailbox a tag blk, 0x20), (.ihlDap a tag op, 0x30), (.bootImage a tag w bs, 0x40)] : List (Instr × Nat)),
        ∃ t, exec r.1 s = .next t ∧ only t ∧ told t r.2 [3])) ∧
  (∀ (a tag : BitVec 8) (seq : BitVec 48) (w : BitVec 32) (s : State), a.toNat ≠ 0x10 + s.pkg → a.toNat ≠ 0x1F →
    ∀ i ∈ [Instr.ihlIdent a tag, .ihlStatus a tag, .lifeRead a tag, .hlRead a tag seq 1 0, .wakeMbox a tag w],
      ∃ t, exec i s = .next t ∧ t.mp.ihlAns = none ∧ { t with mp := s.mp } = s) ∧
  (∀ (a cmd tag len : Byte) (p : List Byte) (crc : BitVec 16) (s : State),
    let body := a :: cmd :: tag :: len :: p
    let frame := body ++ bytesLE 2 crc.toNat
    (p.length ≠ len.toNat ∨ ihlCrc body ≠ crc.toNat → ∃ t, exec (.ihlInvalidFrame frame) s = .next t ∧ t.mp.ihlAns = none ∧
      { t with mp := s.mp } = s) ∧
    (p.length = len.toNat → p.length ≤ 136 → ihlCrc body = crc.toNat → a.toNat = 0x10 + s.pkg → s.rs.boot ≠ 3 → (ihlActivity s).rs.boot ≠ 3 →
      cmd.toNat ∉ [0x01, 0x02, 0x03, 0x10, 0x11, 0x12, 0x18, 0x20, 0x30, 0x40] → ∃ t, exec (.ihlInvalidFrame frame) s = .next t ∧
        t.mp.ihlAns = some (cmd.toNat + 0x80, tag.toNat, [0x10])))

/-- R165, R605, R620, R624, R625, R631: RSTCMD. Any command while one is under way only sets REJ; a target that names nothing ends in RST_BAD_TARGET,
and a normal-world command on what OWNMAP marks in DENIED_OWNED. WARM, STACK and CORE start the reset of their cores, which run no more; MP restarts
the management processor; RELEASE takes a held core out of hold; GO_FULL starts or ends in RST_BAD_STATE. The steps of R619: a core gives up its
lines, a home its L3, and the reset ends, a warm one once no store of a core is still on its way (R165), with every core in scope held in its reset
state (R86, R639). Where these rules are silent it states the model's choice (log entries 65 and 67). -/
def Obligations.ResetCommandsAndSteps : Prop :=
  (∀ (b : By) (t8 : BitVec 8) (s : State),
    let n := t8.toNat
    let c := lcCore s n
    let status := fun (t : State) => rgF t .rststat 0 7 0
    let lastOp := fun (t : State) => rgF t .rststat 0 11 8
    let only := fun (t : State) => { t with
      cores := s.cores
      regs := s.regs
      rs := s.rs } = s
    let stops := fun (t : State) (kind : Nat) (x : Nat) => getCore t x = { getCore s x with
      inReset := true
      waiting := false
      drainFrom := some (now s)
      rstKind := kind }
    (∀ r ∈ ([(.warm b, 1, 0), (.stack b t8, 2, n), (.core b t8, 3, n), (.mp b, 4, 0), (.release b t8, 5, n), (.goFull b, 6, 0)] :
        List (Instr × Nat × Nat)),
      (status s = 1 → ∃ t, exec r.1 s = .next t ∧ rgF t .rststat 0 16 16 = 1 ∧ status t = 1 ∧ RegsOnly [(.rststat, 0)] s t) ∧
      (status s ≠ 1 → rstNames s r.2.1 r.2.2 = false → ∃ t, exec r.1 s = .next t ∧ status t = 0x10 ∧ lastOp t = r.2.1 ∧
        RegsOnly [(.rststat, 0), (.rstcmd, 0)] s t) ∧
      (status s ≠ 1 → rstNames s r.2.1 r.2.2 = true → bySec b = false → rstOwned s r.2.1 r.2.2 = true → ∃ t, exec r.1 s = .next t ∧
        status t = 0x20 ∧ lastOp t = r.2.1 ∧ RegsOnly [(.rststat, 0), (.rstcmd, 0)] { s with hlog := t.hlog } t ∧
        (s.hlog.pend.length < 32 → ∃ e, t.hlog.pend = s.hlog.pend ++ [e] ∧ e.typ = 0x0022 ∧ e.arg = 0x20))) ∧
    (status s ≠ 1 →
      (bySec b = true ∨ rg s .ownmap 0 = 0 →
        (∃ t, exec (.warm b) s = .next t ∧ status t = 1 ∧ only t ∧ t.rs.run = some ⟨.warm, 2, 0⟩ ∧ (∀ x, x < 240 → stops t 1 x) ∧
          ∀ x, 240 ≤ x → getCore t x = getCore s x) ∧
        (s.mp.serv = none → s.hubTx = [] → ∃ t, exec (.mp b) s = .next t ∧ status t = 1 ∧ t.mp.boot = 0 ∧ t.mpSram = [] ∧ getCore t mpCore = coreRst mpCore ∧
          t.mp.mbq = s.mp.mbq ∧ rgF t .mpstat 0 63 48 = min (rgF s .mpstat 0 63 48 + 1) 65535 ∧ bit (rg t .intsrc 924) 1 = true ∧
          ∀ x, x ≠ mpCore → getCore t x = getCore s x) ∧
        (goFullOk s = true → ∃ t, exec (.goFull b) s = .next t ∧ status t = 1 ∧ only t ∧ t.cores = s.cores ∧
          t.rs.goFull = some ⟨bestRate s 5, bestRate s 5, 0, liveHomes s, false, false⟩) ∧
        (goFullOk s = false → ∃ t, exec (.goFull b) s = .next t ∧ status t = 0x11 ∧ lastOp t = 6 ∧ only t ∧ t.cores = s.cores ∧
          t.rs.goFull = s.rs.goFull)) ∧
      (n < 12 → bySec b = true ∨ ownStk s n = false →
        (stkState s n = 5 → s.rs.run = none → ∃ t, exec (.stack b t8) s = .next t ∧ status t = 1 ∧ only t ∧ stkState t n = 7 ∧
          t.rs.run = some ⟨.stack n, 0, 0⟩ ∧ (∀ u, u < 20 → stops t 2 (n * 20 + u)) ∧ ∀ x, x / 20 ≠ n → getCore t x = getCore s x) ∧
        (stkState s n ≠ 5 → ∃ t, exec (.stack b t8) s = .next t ∧ status t = 0x11 ∧ lastOp t = 2 ∧ only t ∧ t.cores = s.cores ∧
          t.rs.run = s.rs.run)) ∧
      (lcValid s n = true → bySec b = true ∨ ownStk s (c / 20) = false →
        (s.rs.run = none → ∃ t, exec (.core b t8) s = .next t ∧ status t = 1 ∧ only t ∧ t.rs.run = some ⟨.core c, 0, 0⟩ ∧ stops t 2 c ∧
          ∀ x, x ≠ c → getCore t x = getCore s x) ∧
        ((getCore s c).held = true → (getCore s c).stopped = false → (getCore s c).inReset = false → ∃ t, exec (.release b t8) s = .next t ∧
          status t = 1 ∧ only t ∧ getCore t c = { getCore s c with
            held := false
            pc := sysGet s c 0x008 false
            cstat := 0x37 } ∧ ∀ x, x ≠ c → getCore t x = getCore s x) ∧
        ((getCore s c).held = false → ∃ t, exec (.release b t8) s = .next t ∧ status t = 0x11 ∧ lastOp t = 5 ∧ only t ∧ t.cores = s.cores)))) ∧
  (∀ s : State, s.rs.run = none → ∀ i ∈ [Instr.resetL2Writeback, .resetHomeFlush, .resetFinish], ∃ t, exec i s = .next t ∧ t = s) ∧
  (∀ (r : RstRun) (s : State), s.rs.run = some r →
    let goes := fun (u : State) (n : Nat) => { u with rs := { u.rs with run := some { r with phase := n } } }
    let kept := fun (t : State) => t.dram = s.dram ∧ t.ptime = s.ptime ∧ t.hlog = s.hlog ∧ t.coreFuse = s.coreFuse ∧ t.keys = s.keys ∧ t.pkg = s.pkg
    let reset := fun (t : State) (x : Nat) => (getCore t x).held = true ∧ (getCore t x).pc = sysGet t x 0x008 false ∧
      sysGet t x 0x008 false = sysGet s x 0x008 false ∧ (∀ j, dGet t x j = 0) ∧ (∀ j, qGet t x j = 0) ∧ (getCore t x).sb = [] ∧
      (getCore t x).stopped = tget false x s.coreFuse ∧ ∀ j ∈ [0x100, 0x101, 0x102, 0x400, 0x580, 0x930], sysGet t x j false = sysRst x j
    (r.phase ≠ 0 ∨ (∃ x ∈ scopeCores r.scope, coreDrained s x = false) → ∃ t, exec .resetL2Writeback s = .next t ∧ t = s) ∧
    (r.phase = 0 → (∀ x ∈ scopeCores r.scope, coreDrained s x = true) →
      ((∀ x ∈ scopeCores r.scope, holderEmpty s x = true) → ∃ t, exec .resetL2Writeback s = .next t ∧ t = goes s 1) ∧
      (∀ c d, r.scope = .core c → d < 12 → fencedAt s d c = true → ∃ t, exec .resetL2Writeback s = .next t ∧ t.rs.run = some { r with phase := 1 } ∧
        t.dram = s.dram ∧ ∀ l, l < 2 ^ 46 → (hline t c l).st = .i) ∧
      (∀ c l x, r.scope = .core c → l < 2 ^ 46 → s.lines = [(c * 2 ^ 46 + l, x)] → validSt x.st = true → (∀ d, d < 12 → fencedAt s d c = false) →
        let v := launch (evictReq s c l).2 (evictReq s c l).1 {}
        ∃ t, exec .resetL2Writeback s = .next t ∧ t = (if holderEmpty v c then goes v 1 else v))) ∧
    (r.phase ≠ 1 → ∃ t, exec .resetHomeFlush s = .next t ∧ t = s) ∧
    (r.phase = 1 →
      (∀ c, r.scope = .core c → ∃ t, exec .resetHomeFlush s = .next t ∧ t = goes s 2) ∧
      (∀ n, r.scope = .stack n → n < 12 → ∃ t, exec .resetHomeFlush s = .next t ∧ t.rs.run = some { r with phase := 2 } ∧ t.cores = s.cores ∧
        rgF t .l3ctl n 0 0 = 0 ∧ rgF t .l3stat n 2 2 = 0 ∧ tget none n t.walkRun = none ∧ tget [] n t.walks = [] ∧
        ∀ l, (lineLoc s l).home = n → (l3Line t l).valid = true → (l3Line t l).dirty = false) ∧
      (r.scope = .warm → holderEmpty s 0xF0 = true → ∃ t, exec .resetHomeFlush s = .next t ∧ t.rs.run = some { r with phase := 2 } ∧
        ∀ n, n < 12 → stkFenced s n = false → rgF t .l3ctl n 0 0 = 0)) ∧
    (∀ c, r.scope = .core c → c < 240 →
      (r.phase = 0 → ∃ t, exec .resetFinish s = .next t ∧ t = s) ∧
      (r.phase ≠ 0 → ∃ t, exec .resetFinish s = .next t ∧ t.rs.run = none ∧ reset t c ∧ kept t ∧ t.l3 = s.l3 ∧
        (rgF s .rststat 0 7 0 = 1 → s.rs.op = (3, c) → rgF t .rststat 0 7 0 = 2) ∧
        (∀ d, d < 12 → fencedAt t d c = false) ∧ ∀ x, x ≠ c → getCore t x = getCore s x)) ∧
    (∀ n, r.scope = .stack n → n < 12 →
      (r.phase ≠ 2 → ∃ t, exec .resetFinish s = .next t ∧ t = s) ∧
      (r.phase = 2 → ∃ t, exec .resetFinish s = .next t ∧ t.rs.run = none ∧ kept t ∧ (∀ u, u < 20 → reset t (n * 20 + u)) ∧
        (∀ x, x / 20 ≠ n → getCore t x = getCore s x) ∧ tget false n t.sweeping = true ∧ tget 0 n t.rs.dieAt = now s ∧ lsState t (3 * n + 2) = 1 ∧
        (∀ p ∈ t.l3, (lineLoc s p.1).home ≠ n) ∧ rg t .vreq n = regResetAt .vreq n ∧ rg t .cohctl n = regResetAt .cohctl n)) ∧
    (r.scope = .warm →
      (r.phase ≠ 2 ∨ storesOut s = true → ∃ t, exec .resetFinish s = .next t ∧ t = s) ∧
      (r.phase = 2 → storesOut s = false → ∃ t, exec .resetFinish s = .next t ∧ t.rs.run = none ∧ kept t ∧ (∀ x, x < 240 → reset t x) ∧ getCore t mpCore = coreRst mpCore ∧
        t.mp.boot = 0 ∧ t.resetN = s.resetN ∧ rgF t .rststat 0 25 24 = r.last % 4 ∧ phase t = 0 ∧ t.lines = [] ∧ t.dir = [] ∧ t.net = [] ∧
        t.shares = [] ∧ t.queues = [] ∧ t.sessions = [] ∧ rg t .ownmap 0 = rg s .ownmap 0 ∧ rg t .life0 0 = rg s .life0 0 ∧
        ∀ n, n < 12 → rgF t .l3ctl n 0 0 = 0)))

/-- R36, R39, R40, R622, R652: PWRGOOD rising or falling leaves only what survives a cold reset; RESET_N low starts a warm package reset, and its rise
lets bring-up go on, or, when it ends a cold reset, samples the straps and starts PTIME at 0; the time base locks once and PTIME goes on. Where
these rules are silent it states the model's choice (log entry 5). -/
def Obligations.PowerAndResetPins : Prop :=
  (∀ (casc src : BitVec 2) (w : Bool) (s : State),
    let cold := fun (t : State) => t.dram = [] ∧ t.cores = [] ∧ t.lines = [] ∧ t.keys = [] ∧ t.net = [] ∧ t.shares = [] ∧ t.hlog = s.hlog ∧
      t.coreFuse = s.coreFuse ∧ t.flash = s.flash ∧ t.ptime = 0 ∧ t.tbMode = 0 ∧ t.rs.run = none ∧ t.mp.boot = 0
    (s.rs.pwrgood = true → ∃ t, exec (.pwrgoodRise w) s = .next t ∧ t = s) ∧
    (s.rs.pwrgood = false → ∃ t, exec (.pwrgoodRise w) s = .next t ∧ cold t ∧ t.rs.pwrgood = true ∧ t.resetN = false ∧ t.rs.coldPend = true ∧
      t.vstby = w ∧ t.vin = true) ∧
    (∃ t, exec (.pwrgoodFall w) s = .next t ∧ cold t ∧ t.rs.pwrgood = false ∧ t.resetN = false ∧ t.rs.coldPend = true ∧ t.vin = w ∧ t.vstby = s.vstby) ∧
    (s.rs.pwrgood = true → s.resetN = true → s.pw.tripped = false → ∃ t, exec .resetNLow s = .next t ∧ t.resetN = false ∧
      t.rs.run = some ⟨.warm, 1, 0⟩ ∧ t.dram = s.dram ∧
      ((∀ x, x < 240 → domState s x = 0 ∨ domState s x = 3) → t.regs = s.regs) ∧ ∀ x, x < 240 → (getCore t x).inReset = true ∧ (getCore t x).drainFrom = some (now s)) ∧
    (s.rs.pwrgood = false ∨ s.resetN = false ∨ s.pw.tripped = true → ∃ t, exec .resetNLow s = .next t ∧ t = s) ∧
    (s.rs.pwrgood = false ∨ s.resetN = true ∨ s.pw.tripped = true → ∃ t, exec (.resetNRise casc src) s = .next t ∧ t = s) ∧
    (s.rs.pwrgood = true → s.resetN = false → s.pw.tripped = false →
      (s.rs.coldPend = true → ∃ t, exec (.resetNRise casc src) s = .next t ∧ cold t ∧ t.resetN = true ∧ t.rs.coldPend = false ∧ t.rs.pwrgood = true ∧
        t.pkg = casc.toNat ∧ rgF t .strapstat 0 1 0 = casc.toNat ∧ rgF t .strapstat 0 3 2 = src.toNat) ∧
      (s.rs.coldPend = false → ∃ t, exec (.resetNRise casc src) s = .next t ∧ t = { s with resetN := true })) ∧
    (s.tbMode = 0 → s.rs.pwrgood = true → pkgState s < 4 → ∃ t, exec .timeBaseLock s = .next t ∧ t.tbMode = 1 ∧ t.ptime = s.ptime ∧
      bit (rg t .intsrc 925) 1 = true ∧ RegsOnly [(.intsrc, 925)] { s with
        tbMode := 1
        mpPend := t.mpPend } t) ∧
    (s.tbMode ≠ 0 ∨ s.rs.pwrgood = false → ∃ t, exec .timeBaseLock s = .next t ∧ t = s))

/-- R20 to R24, R586, R627 to R637: each step of bring-up, when the one before it is done: the revisions, the feature floor and the fences; the links;
the tiles; the hash; the dies and their core assignment; the boot core. A step that is late fences its stack. GO_FULL retrains home by home (R631).
A command out of its turn changes nothing. Where these rules are silent it states the model's choice (log entries 60, 61, 66 and 68). -/
def Obligations.BringUpSequence : Prop :=
  (∀ (revs : List DieRev) (pers : List Word) (s : State),
    let rev := fun (d : Nat) => revs.getD d (dieRef d)
    let bad := fun (d : Nat) => decide ((rev d).letter ≠ (if d < 25 then 0x42 else 0x41))
    (bringing s = false ∨ s.rs.boot ≠ 1 → ∃ t, exec (.bringupFloor revs pers) s = .next t ∧ t = s) ∧
    (bringing s = true → s.rs.boot = 1 → bad 0 = true → ∃ t, exec (.bringupFloor revs pers) s = .next t ∧ t.rs.boot = 3 ∧
      (∀ d, d < 29 → rgF t .dierev d 32 32 = 1) ∧ ∀ n, n < 12 → stkFenced t n = true) ∧
    (bringing s = true → s.rs.boot = 1 → bad 0 = false →
      ∃ t, exec (.bringupFloor revs pers) s = .next t ∧ t.rs.boot = 2 ∧
        (∀ d, d < 29 → rgF t .dierev d 15 8 = (rev d).letter.toNat ∧ rgF t .dierev d 7 0 = (rev d).digit.toNat ∧
          rgF t .dierev d 31 16 = (if d = 0 then 1 else if d < 13 then 2 else if d < 25 then 3 else 4)) ∧
        (∀ n, n < 12 → stkFenced s n = false → ((stkFenced t n = true ↔ bad (1 + n) = true ∨ bad (13 + n) = true) ∧
          (stkFenced t n = true → rgF t .dierev (1 + n) 32 32 = 1 ∧ rgF t .dierev (13 + n) 32 32 = 1 ∧ stkState t n = 6 ∧
            bit (rg t .intsrc (32 * n + 11)) 1 = true))) ∧
        (∀ e, e < 4 → (rgF t .dierev (25 + e) 32 32 = 1 ↔ bad (25 + e) = true)) ∧
        (s.rs.floored = true → t.features = s.features) ∧
        (s.rs.floored = false → revs = [] → t.features = 0x10307) ∧
        (s.pkg = 0 → t.admitted = [0]) ∧ (s.pkg ≠ 0 → t.admitted = [] ∧ rgF t .cascstat 0 7 7 = 1))) ∧
  (∀ s : State, let late := fun (n : Nat) => stkFenced s n = false ∧ stkState s n = 1 ∧ spokeUp s n = false
    (bringing s = false ∨ leavesHub s = false → ∃ t, exec .bringupTiles s = .next t ∧ t = s) ∧
    (bringing s = true → leavesHub s = true → ∃ t, exec .bringupTiles s = .next t ∧ phase t = 2 ∧ t.rs.linkAt = now s ∧ ∀ n, n < 12 →
      (stkFenced s n = false → stkState t n = 1 ∧ lsState t (36 + n) = 1 ∧ lsState t (3 * n) = 1 ∧ lsState t (3 * n + 1) = 1 ∧ lsState t (3 * n + 2) = 1) ∧
      (stkFenced s n = true → stkState t n = stkState s n)) ∧
    (bringing s = false ∨ phase s ≠ 2 ∨ now s < s.rs.linkAt + 1000000 → ∃ t, exec .bringupLinkDeadline s = .next t ∧ t = s) ∧
    (bringing s = true → phase s = 2 → s.rs.linkAt + 1000000 ≤ now s → ∃ t, exec .bringupLinkDeadline s = .next t ∧ ∀ n, n < 12 →
      (late n → stkFenced t n = true ∧ stkState t n = 6 ∧ bit (rg t .intsrc (32 * n + 11)) 1 = true ∧ ∀ i, i < 18 → rg t .lcmap (18 * n + i) = 0) ∧
      (¬late n → stkFenced t n = stkFenced s n ∧ stkState t n = stkState s n))) ∧
  (∀ (mods : List ChMods) (s : State),
    let ready := bringing s = true ∧ phase s = 2 ∧ ∀ n ∈ liveStks s, stkState s n = 1 ∧ spokeUp s n = true
    (¬ready → ∃ t, exec (.bringupTileInit mods) s = .next t ∧ t = s) ∧
    (ready → ∃ t, exec (.bringupTileInit mods) s = .next t ∧ ∀ n, n < 12 → stkFenced s n = false → stkState t n = 2 ∧ tget false n t.sweeping = true ∧
      tget 0 n t.rs.tileAt = now s ∧ (∀ p ∈ t.dir, (lineLoc s p.1).home ≠ n) ∧ ∀ k, k < 2 →
        let m := mods.getD (2 * n + k) {}
        (m.dimms = 0 → chState t (2 * n + k) = 0) ∧ (m.dimms ≠ 0 → 3 ≤ m.kind → chState t (2 * n + k) = 3) ∧
        (m.dimms ≠ 0 → m.kind < 3 → (∀ c, c < 24 → (mods.getD c {}).kind = m.kind) → chState t (2 * n + k) = 1))) ∧
  (∀ (n : StackId) (ok0 ok1 : Bool) (s : State),
    (stkState s n = 2 → ∃ t, exec (.tileDone n ok0 ok1) s = .next t ∧ stkState t n = 3 ∧
      RegsOnly [(.bustat, 0), (.mcstat, 2 * n.val), (.mcstat, 2 * n.val + 1)] s t ∧
      ∀ r ∈ ([(2 * n.val, ok0), (2 * n.val + 1, ok1)] : List (Nat × Bool)),
        chState t r.1 = (if chState s r.1 = 1 then (if r.2 then 2 else 3) else chState s r.1)) ∧
    (stkState s n ≠ 2 → ∃ t, exec (.tileDone n ok0 ok1) s = .next t ∧ t = s) ∧
    (stkState s n = 2 → tget 0 n.val s.rs.tileAt + 1000000000 ≤ now s → ∃ t, exec (.tileDeadline n) s = .next t ∧ stkFenced t n = true ∧
      (stkFenced s n = false → stkState t n = 6)) ∧
    (stkState s n ≠ 2 ∨ now s < tget 0 n.val s.rs.tileAt + 1000000000 → ∃ t, exec (.tileDeadline n) s = .next t ∧ t = s) ∧
    (stkState s n = 4 → tget 0 n.val s.rs.dieAt + 50000000 ≤ now s → ∃ t, exec (.dieDeadline n) s = .next t ∧ stkFenced t n = true ∧
      (stkFenced s n = false → phase s < 4 → stkState t n = 6)) ∧
    (now s < tget 0 n.val s.rs.dieAt + 50000000 → ∃ t, exec (.dieDeadline n) s = .next t ∧ t = s) ∧
    (stkState s n ≠ 4 ∨ spokeUp s n = false ∨ tget false n.val s.sweeping = true → ∃ t, exec (.stackReady n) s = .next t ∧ t = s) ∧
    (stkState s n = 4 → spokeUp s n = true → tget false n.val s.sweeping = false → ∃ t, exec (.stackReady n) s = .next t ∧ stkState t n = 5 ∧
      bit (rg t .intsrc (32 * n.val + 11)) 1 = true ∧ (∀ i, i < 18 → (asgLocal s (18 * n.val + i)).isSome = true → lcValid t (18 * n.val + i) = true) ∧
      (s.rs.firstReady = none → t.rs.firstReady = some n.val) ∧ (∀ m, s.rs.firstReady = some m → t.rs.firstReady = some m) ∧ t.cores = s.cores)) ∧
  (∀ s : State,
    let ready := bringing s = true ∧ phase s = 2 ∧ ∀ n ∈ liveStks s, stkState s n = 3
    let cap := fun (c : Nat) => (tget {} c s.rs.mods : ChMods).cap
    (¬ready → ∃ t, exec .bringupHash s = .next t ∧ t = s) ∧
    (ready → liveChs s ≠ [] → (∀ c ∈ liveChs s, 0 < cap c ∧ cap c < 1024) → ∃ t, exec .bringupHash s = .next t ∧ phase t = 3 ∧
      t.hashChs = liveChs s ∧ t.hashHomes = liveStks s ∧ memNC t = (liveChs s).length ∧ memNH t = (liveStks s).length ∧
      (∃ c ∈ liveChs s, rgF t .memhash 0 19 10 = cap c) ∧ (∀ c ∈ liveChs s, rgF t .memhash 0 19 10 ≤ cap c ∧
        rgF t .mcstat c 25 16 = rgF t .memhash 0 19 10) ∧
      (memNC s = memNC t → rgF s .memhash 0 19 10 = rgF t .memhash 0 19 10 → t.dram = s.dram) ∧
      (memNC s ≠ memNC t ∨ rgF s .memhash 0 19 10 ≠ rgF t .memhash 0 19 10 → t.dram = []))) ∧
  (∀ (n : StackId) (fails : BitVec 20) (drifts : List Nat) (fab : Nat) (s : State),
    let turn := bringing s = true ∧ (stkState s n = 3 ∨ stkState s n = 7) ∧ 3 ≤ phase s
    (¬turn → ∃ t, exec (.bringupDieInit n fails drifts fab) s = .next t ∧ t = s) ∧
    (turn → s.rs.asg = [] → s.rs.spareMask = [] → (∀ u, u < 20 → fused s n u = false) →
      (fails = 0 → ∃ t, exec (.bringupDieInit n fails drifts fab) s = .next t ∧ stkState t n = 4 ∧ tget 0 n.val t.rs.dieAt = now s ∧
        t.coreFuse = s.coreFuse ∧ rgF t .retstat n 59 56 = 2 ∧ (∀ i, i < 18 → rg t .lcmap (18 * n.val + i) = BitVec.ofNat 64 (n.val * 256 + i)) ∧
        (∀ u, u < 20 → domState t (n.val * 20 + u) = (if u < 18 then 0 else 3))) ∧
      (∀ u, u < 18 → fails.toNat = 2 ^ u → ∃ t, exec (.bringupDieInit n fails drifts fab) s = .next t ∧ stkState t n = 4 ∧ fused t n u = true ∧
        (getCore t (n.val * 20 + u)).stopped = true ∧ rgF t .retstat n 59 56 = 1 ∧ domState t (n.val * 20 + u) = 3 ∧
        ∀ i, i < 18 → rg t .lcmap (18 * n.val + i) = BitVec.ofNat 64 (n.val * 256 + (if i = u then 18 else i))))) ∧
  (∀ (v : Word) (s : State),
    (s.rs.firstReady = none ∨ phase s ≠ 3 → ∃ t, exec (.bootCoreRelease v) s = .next t ∧ t = s) ∧
    (∀ n i, s.rs.firstReady = some n → phase s = 3 → i < 18 → lcValid s (18 * n + i) = true → (∀ j, j < i → lcValid s (18 * n + j) = false) →
      let c := lcCore s (18 * n + i)
      c < 240 → ∃ t, exec (.bootCoreRelease v) s = .next t ∧ phase t = 4 ∧ (getCore t c).held = false ∧ (getCore t c).pc = pcWord v ∧ (getCore t c).cstat = 0x37 ∧
        (∀ x, x < 240 → sysGet t x 0x008 false = pcWord v) ∧ (∀ x, x ≠ c → (getCore t x).held = (getCore s x).held) ∧
        ∀ h, h < 12 → rgF s .l3stat h 0 0 = 1 → rgF t .l3ctl h 0 0 = 1)) ∧
  (∀ (h : StackId) (fails : BitVec 2) (s : State),
    (s.rs.goFull = none → ∀ i ∈ [Instr.goFullHomeWindow h fails, .goFullDone], ∃ t, exec i s = .next t ∧ t = s) ∧
    (∀ g, s.rs.goFull = some g →
      let goes := fun (g' : GoFull) => { s with rs := { s.rs with goFull := some g' } }
      let bad := (homeChs s h).filter (fun c => fails.toNat.testBit (c % 2))
      (g.homes.head? ≠ some h.val ∨ homeQuiet s h = false → ∃ t, exec (.goFullHomeWindow h fails) s = .next t ∧ t = s) ∧
      (g.homes.head? = some h.val → homeQuiet s h = true →
        (bad = [] → g.rate < 16 → ∃ t, exec (.goFullHomeWindow h fails) s = .next t ∧ t.rs.goFull = some { g with homes := g.homes.tail } ∧
          t.dram = s.dram ∧ (∀ c ∈ homeChs s h, rgF t .mcstat c 11 8 = g.rate) ∧
          RegsOnly [(.mcstat, 2 * h.val), (.mcstat, 2 * h.val + 1)] { s with rs := t.rs } t) ∧
        (bad ≠ [] → g.last = false → g.rate ≠ 0 → g.restarts ≠ 4 → ∃ t, exec (.goFullHomeWindow h fails) s = .next t ∧ t = goes { g with
          rate := bestRate s g.rate
          restarts := g.restarts + 1
          homes := liveHomes s }) ∧
        (bad ≠ [] → g.last = false → g.rate = 0 ∨ g.restarts = 4 → ∃ t, exec (.goFullHomeWindow h fails) s = .next t ∧ t = goes { g with
          rate := 0
          last := true
          homes := liveHomes s }) ∧
        (bad ≠ [] → g.last = true → ∃ t g', exec (.goFullHomeWindow h fails) s = .next t ∧ (∀ c ∈ bad, chState t c = 3) ∧ t.rs.goFull = some g' ∧
          g'.lost = true ∧ g'.homes = g.homes.tail)) ∧
      (g.homes ≠ [] → ∃ t, exec .goFullDone s = .next t ∧ t = s) ∧
      (g.homes = [] → ∃ t, exec .goFullDone s = .next t ∧ phase t = 5 ∧ t.rs.goFull = none ∧
        (rgF s .rststat 0 7 0 = 1 → s.rs.op = (6, 0) → rgF t .rststat 0 7 0 = (if g.rate = g.first ∧ g.lost = false then 2 else 3)))))

/-- A step takes the command at the front of the queue and runs it on the state with the queue's rest. On an empty queue one tick of the time base
passes (model's choice, log entry 3): PTIME advances by one (R7) while no slew runs and the wake logic does not keep it, and no set-up register,
memory or packet changes. -/
def Obligations.StepRunsFrontCommand : Prop :=
  (∀ (c : Instr) (q : List Instr) (s : State), s.pending = c :: q → step s = exec c (s.setPending q)) ∧
  (∀ s : State, s.pending = [] → ∃ t, step s = .next t ∧ t = tick s ∧ { t with
      cores := s.cores
      ptime := s.ptime
      slew := s.slew
      slewCtr := s.slewCtr } = s ∧
    (wakeKeepsTime s = false → s.slew = 0 → t.ptime = s.ptime + 1) ∧
    ∀ c r, dGet t c r = dGet s c r ∧ aGet t c r = aGet s c r ∧ qGet t c r = qGet s c r ∧ (getCore t c).pc = (getCore s c).pc)

/-- R61, R86, R620, R622, R627, R639: the block at the rising edge of RESET_N that ends a cold reset: no command waits, PTIME is 0 and COARSE, every
core is held with its general registers 0, at PL3 in the secure world (the management processor's own level is the model's choice, log entry 4),
PHASE is HUB, set-up registers read the reset values of their tables, no share, session, line or packet exists, and the memories are in their
canonical form. -/
def Obligations.ResetStateValues : Prop :=
  let s := State.reset
  s.pending = [] ∧ s.ptime = 0 ∧ s.tbMode = 0 ∧ phase s = 0 ∧ MemoriesCanonical s ∧ s.lines = [] ∧ s.net = [] ∧ s.shares = [] ∧ s.sessions = [] ∧
  (∀ c, c < 240 → (getCore s c).held = true ∧ (getCore s c).cstat = 0x37 ∧ plOf (getCore s c) = 3 ∧ secOf (getCore s c) = true ∧ (getCore s c).sb = [] ∧
    (∀ r, dGet s c r = 0) ∧ (∀ r, aGet s c r = 0) ∧ (∀ r, qGet s c r = 0) ∧ (getCore s c).pc = sysGet s c 0x008 false ∧
    sysGet s c 0x005 false = 0x80 ∧ sysGet s c 0x930 false = 0 ∧ (getCore s c).acc = none ∧ (getCore s c).resv = none) ∧
  (∀ k, keyUsable s k = decide (k = 0)) ∧
  (∀ r ∈ ([(.vreq, 0x352), (.rqto, 0x80), (.mpwdt, 0x64), (.pcapctl, 0x6403E8), (.devsto, 0x3E8), (.ownmap, 0), (.bustat, 0), (.rststat, 0),
      (.l3ctl, 0), (.linkctl, 8), (.wakectl, 0x36)] : List (RegName × Nat)), rg s r.1 0 = BitVec.ofNat 64 r.2) ∧
  (∀ n, n < 48 → lsState s n = 0) ∧ (∀ n, n < 12 → stkState s n = 0 ∧ stkFenced s n = false) ∧ (∀ n, n < 216 → lcValid s n = false) ∧
  (∀ n i, rgF s .intsrc n 2 0 = 0 ∧ rgF s .hfence i 63 0 = 0)

/-- The invariant of the memories, of the block's whole: from every state whose memories (what the DRAM holds, the management processor's SRAM and its
flash) list rising addresses and no byte that an unlisted address reads as, every step leaves them so, whichever command waits. -/
def Obligations.MemoriesStayCanonical : Prop :=
  ∀ s t : State, MemoriesCanonical s → step s = .next t → MemoriesCanonical t
end

