-- ==== Sys2Proof/Laws/State.lean ====
section
/-! SUPPORT. What each named update of the state leaves unchanged: one lemma per field per update. -/
namespace Sys2Proof.Machine

open Sys2Proof

variable (s : State)

@[simp] theorem State.setPending_ptime (q : List Instr) : (State.setPending s q).ptime = s.ptime := rfl
@[simp] theorem State.setPending_freeCtr (q : List Instr) : (State.setPending s q).freeCtr = s.freeCtr := rfl
@[simp] theorem State.setPending_regs (q : List Instr) : (State.setPending s q).regs = s.regs := rfl
@[simp] theorem State.setPending_cores (q : List Instr) : (State.setPending s q).cores = s.cores := rfl
@[simp] theorem State.setPending_dram (q : List Instr) : (State.setPending s q).dram = s.dram := rfl
@[simp] theorem State.setPending_poisoned (q : List Instr) : (State.setPending s q).poisoned = s.poisoned := rfl
@[simp] theorem State.setPending_lines (q : List Instr) : (State.setPending s q).lines = s.lines := rfl
@[simp] theorem State.setPending_l3 (q : List Instr) : (State.setPending s q).l3 = s.l3 := rfl
@[simp] theorem State.setPending_dir (q : List Instr) : (State.setPending s q).dir = s.dir := rfl
@[simp] theorem State.setPending_busy (q : List Instr) : (State.setPending s q).busy = s.busy := rfl
@[simp] theorem State.setPending_dirWait (q : List Instr) : (State.setPending s q).dirWait = s.dirWait := rfl
@[simp] theorem State.setPending_agentOps (q : List Instr) : (State.setPending s q).agentOps = s.agentOps := rfl
@[simp] theorem State.setPending_farLast (q : List Instr) : (State.setPending s q).farLast = s.farLast := rfl
@[simp] theorem State.setPending_net (q : List Instr) : (State.setPending s q).net = s.net := rfl
@[simp] theorem State.setPending_sendNo (q : List Instr) : (State.setPending s q).sendNo = s.sendNo := rfl
@[simp] theorem State.setPending_txNext (q : List Instr) : (State.setPending s q).txNext = s.txNext := rfl
@[simp] theorem State.setPending_outst (q : List Instr) : (State.setPending s q).outst = s.outst := rfl
@[simp] theorem State.setPending_hubTx (q : List Instr) : (State.setPending s q).hubTx = s.hubTx := rfl
@[simp] theorem State.setPending_quarantine (q : List Instr) : (State.setPending s q).quarantine = s.quarantine := rfl
@[simp] theorem State.setPending_l3Lfsr (q : List Instr) : (State.setPending s q).l3Lfsr = s.l3Lfsr := rfl
@[simp] theorem State.setPending_hioLfsr (q : List Instr) : (State.setPending s q).hioLfsr = s.hioLfsr := rfl
@[simp] theorem State.setPending_dirLfsr (q : List Instr) : (State.setPending s q).dirLfsr = s.dirLfsr := rfl
@[simp] theorem State.setPending_wayWin (q : List Instr) : (State.setPending s q).wayWin = s.wayWin := rfl
@[simp] theorem State.setPending_walks (q : List Instr) : (State.setPending s q).walks = s.walks := rfl
@[simp] theorem State.setPending_walkRun (q : List Instr) : (State.setPending s q).walkRun = s.walkRun := rfl
@[simp] theorem State.setPending_hashChs (q : List Instr) : (State.setPending s q).hashChs = s.hashChs := rfl
@[simp] theorem State.setPending_hashHomes (q : List Instr) : (State.setPending s q).hashHomes = s.hashHomes := rfl
@[simp] theorem State.setPending_keys (q : List Instr) : (State.setPending s q).keys = s.keys := rfl
@[simp] theorem State.setPending_pkg (q : List Instr) : (State.setPending s q).pkg = s.pkg := rfl
@[simp] theorem State.setPending_admitted (q : List Instr) : (State.setPending s q).admitted = s.admitted := rfl
@[simp] theorem State.setPending_peerDram (q : List Instr) : (State.setPending s q).peerDram = s.peerDram := rfl
@[simp] theorem State.setPending_fencedStk (q : List Instr) : (State.setPending s q).fencedStk = s.fencedStk := rfl
@[simp] theorem State.setPending_mpSram (q : List Instr) : (State.setPending s q).mpSram = s.mpSram := rfl
@[simp] theorem State.setPending_flash (q : List Instr) : (State.setPending s q).flash = s.flash := rfl
@[simp] theorem State.setPending_mpwin (q : List Instr) : (State.setPending s q).mpwin = s.mpwin := rfl
@[simp] theorem State.setPending_mpPend (q : List Instr) : (State.setPending s q).mpPend = s.mpPend := rfl
@[simp] theorem State.setPending_mpEn (q : List Instr) : (State.setPending s q).mpEn = s.mpEn := rfl
@[simp] theorem State.setPending_mpHeld (q : List Instr) : (State.setPending s q).mpHeld = s.mpHeld := rfl
@[simp] theorem State.setPending_mpRead (q : List Instr) : (State.setPending s q).mpRead = s.mpRead := rfl
@[simp] theorem State.setPending_dbgFuse (q : List Instr) : (State.setPending s q).dbgFuse = s.dbgFuse := rfl
@[simp] theorem State.setPending_dbgPolicy (q : List Instr) : (State.setPending s q).dbgPolicy = s.dbgPolicy := rfl
@[simp] theorem State.setPending_features (q : List Instr) : (State.setPending s q).features = s.features := rfl
@[simp] theorem State.setPending_tbMode (q : List Instr) : (State.setPending s q).tbMode = s.tbMode := rfl
@[simp] theorem State.setPending_stk (q : List Instr) : (State.setPending s q).stk = s.stk := rfl
@[simp] theorem State.setPending_fabOff (q : List Instr) : (State.setPending s q).fabOff = s.fabOff := rfl
@[simp] theorem State.setPending_fabDrift (q : List Instr) : (State.setPending s q).fabDrift = s.fabDrift := rfl
@[simp] theorem State.setPending_fabAgeAt (q : List Instr) : (State.setPending s q).fabAgeAt = s.fabAgeAt := rfl
@[simp] theorem State.setPending_coreFuse (q : List Instr) : (State.setPending s q).coreFuse = s.coreFuse := rfl
@[simp] theorem State.setPending_hlog (q : List Instr) : (State.setPending s q).hlog = s.hlog := rfl
@[simp] theorem State.setPending_vstby (q : List Instr) : (State.setPending s q).vstby = s.vstby := rfl
@[simp] theorem State.setPending_vin (q : List Instr) : (State.setPending s q).vin = s.vin := rfl
@[simp] theorem State.setPending_tinvQ (q : List Instr) : (State.setPending s q).tinvQ = s.tinvQ := rfl
@[simp] theorem State.setPending_bcasts (q : List Instr) : (State.setPending s q).bcasts = s.bcasts := rfl
@[simp] theorem State.setPending_bcastSeq (q : List Instr) : (State.setPending s q).bcastSeq = s.bcastSeq := rfl
@[simp] theorem State.setPending_tokens (q : List Instr) : (State.setPending s q).tokens = s.tokens := rfl
@[simp] theorem State.setPending_tokenAt (q : List Instr) : (State.setPending s q).tokenAt = s.tokenAt := rfl
@[simp] theorem State.setPending_gHeld (q : List Instr) : (State.setPending s q).gHeld = s.gHeld := rfl
@[simp] theorem State.setPending_arbPtr (q : List Instr) : (State.setPending s q).arbPtr = s.arbPtr := rfl
@[simp] theorem State.setPending_fstopAt (q : List Instr) : (State.setPending s q).fstopAt = s.fstopAt := rfl
@[simp] theorem State.setPending_seg (q : List Instr) : (State.setPending s q).seg = s.seg := rfl
@[simp] theorem State.setPending_rimHold (q : List Instr) : (State.setPending s q).rimHold = s.rimHold := rfl
@[simp] theorem State.setPending_parked (q : List Instr) : (State.setPending s q).parked = s.parked := rfl
@[simp] theorem State.setPending_ends (q : List Instr) : (State.setPending s q).ends = s.ends := rfl
@[simp] theorem State.setPending_pals (q : List Instr) : (State.setPending s q).pals = s.pals := rfl
@[simp] theorem State.setPending_bundles (q : List Instr) : (State.setPending s q).bundles = s.bundles := rfl
@[simp] theorem State.setPending_cands (q : List Instr) : (State.setPending s q).cands = s.cands := rfl
@[simp] theorem State.setPending_hubAt (q : List Instr) : (State.setPending s q).hubAt = s.hubAt := rfl
@[simp] theorem State.setPending_identAt (q : List Instr) : (State.setPending s q).identAt = s.identAt := rfl
@[simp] theorem State.setPending_timeAt (q : List Instr) : (State.setPending s q).timeAt = s.timeAt := rfl
@[simp] theorem State.setPending_timeSentAt (q : List Instr) : (State.setPending s q).timeSentAt = s.timeSentAt := rfl
@[simp] theorem State.setPending_otherMaster (q : List Instr) : (State.setPending s q).otherMaster = s.otherMaster := rfl
@[simp] theorem State.setPending_slew (q : List Instr) : (State.setPending s q).slew = s.slew := rfl
@[simp] theorem State.setPending_slewCtr (q : List Instr) : (State.setPending s q).slewCtr = s.slewCtr := rfl
@[simp] theorem State.setPending_seenIds (q : List Instr) : (State.setPending s q).seenIds = s.seenIds := rfl
@[simp] theorem State.setPending_keyPend (q : List Instr) : (State.setPending s q).keyPend = s.keyPend := rfl
@[simp] theorem State.setPending_scrubAt (q : List Instr) : (State.setPending s q).scrubAt = s.scrubAt := rfl
@[simp] theorem State.setPending_lgs (q : List Instr) : (State.setPending s q).lgs = s.lgs := rfl
@[simp] theorem State.setPending_rports (q : List Instr) : (State.setPending s q).rports = s.rports := rfl
@[simp] theorem State.setPending_engs (q : List Instr) : (State.setPending s q).engs = s.engs := rfl
@[simp] theorem State.setPending_slots (q : List Instr) : (State.setPending s q).slots = s.slots := rfl
@[simp] theorem State.setPending_oePlan (q : List Instr) : (State.setPending s q).oePlan = s.oePlan := rfl
@[simp] theorem State.setPending_ethTx (q : List Instr) : (State.setPending s q).ethTx = s.ethTx := rfl
@[simp] theorem State.setPending_ethPause (q : List Instr) : (State.setPending s q).ethPause = s.ethPause := rfl
@[simp] theorem State.setPending_queues (q : List Instr) : (State.setPending s q).queues = s.queues := rfl
@[simp] theorem State.setPending_shares (q : List Instr) : (State.setPending s q).shares = s.shares := rfl
@[simp] theorem State.setPending_hubTlb (q : List Instr) : (State.setPending s q).hubTlb = s.hubTlb := rfl
@[simp] theorem State.setPending_hioWays (q : List Instr) : (State.setPending s q).hioWays = s.hioWays := rfl
@[simp] theorem State.setPending_sessions (q : List Instr) : (State.setPending s q).sessions = s.sessions := rfl
@[simp] theorem State.setPending_inTable (q : List Instr) : (State.setPending s q).inTable = s.inTable := rfl
@[simp] theorem State.setPending_spills (q : List Instr) : (State.setPending s q).spills = s.spills := rfl
@[simp] theorem State.setPending_spillNo (q : List Instr) : (State.setPending s q).spillNo = s.spillNo := rfl
@[simp] theorem State.setPending_ctxKey (q : List Instr) : (State.setPending s q).ctxKey = s.ctxKey := rfl
@[simp] theorem State.setPending_cipSeq (q : List Instr) : (State.setPending s q).cipSeq = s.cipSeq := rfl
@[simp] theorem State.setPending_unitWin (q : List Instr) : (State.setPending s q).unitWin = s.unitWin := rfl
@[simp] theorem State.setPending_resetN (q : List Instr) : (State.setPending s q).resetN = s.resetN := rfl
@[simp] theorem State.setPending_dapStatus (q : List Instr) : (State.setPending s q).dapStatus = s.dapStatus := rfl
@[simp] theorem State.setPending_dapData (q : List Instr) : (State.setPending s q).dapData = s.dapData := rfl
@[simp] theorem State.setPending_dapWait (q : List Instr) : (State.setPending s q).dapWait = s.dapWait := rfl
@[simp] theorem State.setPending_tapIr (q : List Instr) : (State.setPending s q).tapIr = s.tapIr := rfl
@[simp] theorem State.setPending_tapBit (q : List Instr) : (State.setPending s q).tapBit = s.tapBit := rfl
@[simp] theorem State.setPending_tapCells (q : List Instr) : (State.setPending s q).tapCells = s.tapCells := rfl
@[simp] theorem State.setPending_tapDrive (q : List Instr) : (State.setPending s q).tapDrive = s.tapDrive := rfl
@[simp] theorem State.setPending_tapOut (q : List Instr) : (State.setPending s q).tapOut = s.tapOut := rfl
@[simp] theorem State.setPending_rangeSec (q : List Instr) : (State.setPending s q).rangeSec = s.rangeSec := rfl
@[simp] theorem State.setPending_rangeTx (q : List Instr) : (State.setPending s q).rangeTx = s.rangeTx := rfl
@[simp] theorem State.setPending_rangePois (q : List Instr) : (State.setPending s q).rangePois = s.rangePois := rfl
@[simp] theorem State.setPending_sweeping (q : List Instr) : (State.setPending s q).sweeping = s.sweeping := rfl
@[simp] theorem State.setPending_wayFuse (q : List Instr) : (State.setPending s q).wayFuse = s.wayFuse := rfl
@[simp] theorem State.setPending_degraded (q : List Instr) : (State.setPending s q).degraded = s.degraded := rfl
@[simp] theorem State.setPending_lifeAt (q : List Instr) : (State.setPending s q).lifeAt = s.lifeAt := rfl
@[simp] theorem State.setPending_rs (q : List Instr) : (State.setPending s q).rs = s.rs := rfl
@[simp] theorem State.setPending_mp (q : List Instr) : (State.setPending s q).mp = s.mp := rfl
@[simp] theorem State.setPending_pw (q : List Instr) : (State.setPending s q).pw = s.pw := rfl

@[simp] theorem setRg_pending (r : RegName) (i : Nat) (v : Word) : (setRg s r i v).pending = s.pending := rfl
@[simp] theorem setRg_ptime (r : RegName) (i : Nat) (v : Word) : (setRg s r i v).ptime = s.ptime := rfl
@[simp] theorem setRg_freeCtr (r : RegName) (i : Nat) (v : Word) : (setRg s r i v).freeCtr = s.freeCtr := rfl
@[simp] theorem setRg_cores (r : RegName) (i : Nat) (v : Word) : (setRg s r i v).cores = s.cores := rfl
@[simp] theorem setRg_dram (r : RegName) (i : Nat) (v : Word) : (setRg s r i v).dram = s.dram := rfl
@[simp] theorem setRg_poisoned (r : RegName) (i : Nat) (v : Word) : (setRg s r i v).poisoned = s.poisoned := rfl
@[simp] theorem setRg_lines (r : RegName) (i : Nat) (v : Word) : (setRg s r i v).lines = s.lines := rfl
@[simp] theorem setRg_l3 (r : RegName) (i : Nat) (v : Word) : (setRg s r i v).l3 = s.l3 := rfl
@[simp] theorem setRg_dir (r : RegName) (i : Nat) (v : Word) : (setRg s r i v).dir = s.dir := rfl
@[simp] theorem setRg_busy (r : RegName) (i : Nat) (v : Word) : (setRg s r i v).busy = s.busy := rfl
@[simp] theorem setRg_dirWait (r : RegName) (i : Nat) (v : Word) : (setRg s r i v).dirWait = s.dirWait := rfl
@[simp] theorem setRg_agentOps (r : RegName) (i : Nat) (v : Word) : (setRg s r i v).agentOps = s.agentOps := rfl
@[simp] theorem setRg_farLast (r : RegName) (i : Nat) (v : Word) : (setRg s r i v).farLast = s.farLast := rfl
@[simp] theorem setRg_net (r : RegName) (i : Nat) (v : Word) : (setRg s r i v).net = s.net := rfl
@[simp] theorem setRg_sendNo (r : RegName) (i : Nat) (v : Word) : (setRg s r i v).sendNo = s.sendNo := rfl
@[simp] theorem setRg_txNext (r : RegName) (i : Nat) (v : Word) : (setRg s r i v).txNext = s.txNext := rfl
@[simp] theorem setRg_outst (r : RegName) (i : Nat) (v : Word) : (setRg s r i v).outst = s.outst := rfl
@[simp] theorem setRg_hubTx (r : RegName) (i : Nat) (v : Word) : (setRg s r i v).hubTx = s.hubTx := rfl
@[simp] theorem setRg_quarantine (r : RegName) (i : Nat) (v : Word) : (setRg s r i v).quarantine = s.quarantine := rfl
@[simp] theorem setRg_l3Lfsr (r : RegName) (i : Nat) (v : Word) : (setRg s r i v).l3Lfsr = s.l3Lfsr := rfl
@[simp] theorem setRg_hioLfsr (r : RegName) (i : Nat) (v : Word) : (setRg s r i v).hioLfsr = s.hioLfsr := rfl
@[simp] theorem setRg_dirLfsr (r : RegName) (i : Nat) (v : Word) : (setRg s r i v).dirLfsr = s.dirLfsr := rfl
@[simp] theorem setRg_wayWin (r : RegName) (i : Nat) (v : Word) : (setRg s r i v).wayWin = s.wayWin := rfl
@[simp] theorem setRg_walks (r : RegName) (i : Nat) (v : Word) : (setRg s r i v).walks = s.walks := rfl
@[simp] theorem setRg_walkRun (r : RegName) (i : Nat) (v : Word) : (setRg s r i v).walkRun = s.walkRun := rfl
@[simp] theorem setRg_hashChs (r : RegName) (i : Nat) (v : Word) : (setRg s r i v).hashChs = s.hashChs := rfl
@[simp] theorem setRg_hashHomes (r : RegName) (i : Nat) (v : Word) : (setRg s r i v).hashHomes = s.hashHomes := rfl
@[simp] theorem setRg_keys (r : RegName) (i : Nat) (v : Word) : (setRg s r i v).keys = s.keys := rfl
@[simp] theorem setRg_pkg (r : RegName) (i : Nat) (v : Word) : (setRg s r i v).pkg = s.pkg := rfl
@[simp] theorem setRg_admitted (r : RegName) (i : Nat) (v : Word) : (setRg s r i v).admitted = s.admitted := rfl
@[simp] theorem setRg_peerDram (r : RegName) (i : Nat) (v : Word) : (setRg s r i v).peerDram = s.peerDram := rfl
@[simp] theorem setRg_fencedStk (r : RegName) (i : Nat) (v : Word) : (setRg s r i v).fencedStk = s.fencedStk := rfl
@[simp] theorem setRg_mpSram (r : RegName) (i : Nat) (v : Word) : (setRg s r i v).mpSram = s.mpSram := rfl
@[simp] theorem setRg_flash (r : RegName) (i : Nat) (v : Word) : (setRg s r i v).flash = s.flash := rfl
@[simp] theorem setRg_mpwin (r : RegName) (i : Nat) (v : Word) : (setRg s r i v).mpwin = s.mpwin := rfl
@[simp] theorem setRg_mpPend (r : RegName) (i : Nat) (v : Word) : (setRg s r i v).mpPend = s.mpPend := rfl
@[simp] theorem setRg_mpEn (r : RegName) (i : Nat) (v : Word) : (setRg s r i v).mpEn = s.mpEn := rfl
@[simp] theorem setRg_mpHeld (r : RegName) (i : Nat) (v : Word) : (setRg s r i v).mpHeld = s.mpHeld := rfl
@[simp] theorem setRg_mpRead (r : RegName) (i : Nat) (v : Word) : (setRg s r i v).mpRead = s.mpRead := rfl
@[simp] theorem setRg_dbgFuse (r : RegName) (i : Nat) (v : Word) : (setRg s r i v).dbgFuse = s.dbgFuse := rfl
@[simp] theorem setRg_dbgPolicy (r : RegName) (i : Nat) (v : Word) : (setRg s r i v).dbgPolicy = s.dbgPolicy := rfl
@[simp] theorem setRg_features (r : RegName) (i : Nat) (v : Word) : (setRg s r i v).features = s.features := rfl
@[simp] theorem setRg_tbMode (r : RegName) (i : Nat) (v : Word) : (setRg s r i v).tbMode = s.tbMode := rfl
@[simp] theorem setRg_stk (r : RegName) (i : Nat) (v : Word) : (setRg s r i v).stk = s.stk := rfl
@[simp] theorem setRg_fabOff (r : RegName) (i : Nat) (v : Word) : (setRg s r i v).fabOff = s.fabOff := rfl
@[simp] theorem setRg_fabDrift (r : RegName) (i : Nat) (v : Word) : (setRg s r i v).fabDrift = s.fabDrift := rfl
@[simp] theorem setRg_fabAgeAt (r : RegName) (i : Nat) (v : Word) : (setRg s r i v).fabAgeAt = s.fabAgeAt := rfl
@[simp] theorem setRg_coreFuse (r : RegName) (i : Nat) (v : Word) : (setRg s r i v).coreFuse = s.coreFuse := rfl
@[simp] theorem setRg_hlog (r : RegName) (i : Nat) (v : Word) : (setRg s r i v).hlog = s.hlog := rfl
@[simp] theorem setRg_vstby (r : RegName) (i : Nat) (v : Word) : (setRg s r i v).vstby = s.vstby := rfl
@[simp] theorem setRg_vin (r : RegName) (i : Nat) (v : Word) : (setRg s r i v).vin = s.vin := rfl
@[simp] theorem setRg_tinvQ (r : RegName) (i : Nat) (v : Word) : (setRg s r i v).tinvQ = s.tinvQ := rfl
@[simp] theorem setRg_bcasts (r : RegName) (i : Nat) (v : Word) : (setRg s r i v).bcasts = s.bcasts := rfl
@[simp] theorem setRg_bcastSeq (r : RegName) (i : Nat) (v : Word) : (setRg s r i v).bcastSeq = s.bcastSeq := rfl
@[simp] theorem setRg_tokens (r : RegName) (i : Nat) (v : Word) : (setRg s r i v).tokens = s.tokens := rfl
@[simp] theorem setRg_tokenAt (r : RegName) (i : Nat) (v : Word) : (setRg s r i v).tokenAt = s.tokenAt := rfl
@[simp] theorem setRg_gHeld (r : RegName) (i : Nat) (v : Word) : (setRg s r i v).gHeld = s.gHeld := rfl
@[simp] theorem setRg_arbPtr (r : RegName) (i : Nat) (v : Word) : (setRg s r i v).arbPtr = s.arbPtr := rfl
@[simp] theorem setRg_fstopAt (r : RegName) (i : Nat) (v : Word) : (setRg s r i v).fstopAt = s.fstopAt := rfl
@[simp] theorem setRg_seg (r : RegName) (i : Nat) (v : Word) : (setRg s r i v).seg = s.seg := rfl
@[simp] theorem setRg_rimHold (r : RegName) (i : Nat) (v : Word) : (setRg s r i v).rimHold = s.rimHold := rfl
@[simp] theorem setRg_parked (r : RegName) (i : Nat) (v : Word) : (setRg s r i v).parked = s.parked := rfl
@[simp] theorem setRg_ends (r : RegName) (i : Nat) (v : Word) : (setRg s r i v).ends = s.ends := rfl
@[simp] theorem setRg_pals (r : RegName) (i : Nat) (v : Word) : (setRg s r i v).pals = s.pals := rfl
@[simp] theorem setRg_bundles (r : RegName) (i : Nat) (v : Word) : (setRg s r i v).bundles = s.bundles := rfl
@[simp] theorem setRg_cands (r : RegName) (i : Nat) (v : Word) : (setRg s r i v).cands = s.cands := rfl
@[simp] theorem setRg_hubAt (r : RegName) (i : Nat) (v : Word) : (setRg s r i v).hubAt = s.hubAt := rfl
@[simp] theorem setRg_identAt (r : RegName) (i : Nat) (v : Word) : (setRg s r i v).identAt = s.identAt := rfl
@[simp] theorem setRg_timeAt (r : RegName) (i : Nat) (v : Word) : (setRg s r i v).timeAt = s.timeAt := rfl
@[simp] theorem setRg_timeSentAt (r : RegName) (i : Nat) (v : Word) : (setRg s r i v).timeSentAt = s.timeSentAt := rfl
@[simp] theorem setRg_otherMaster (r : RegName) (i : Nat) (v : Word) : (setRg s r i v).otherMaster = s.otherMaster := rfl
@[simp] theorem setRg_slew (r : RegName) (i : Nat) (v : Word) : (setRg s r i v).slew = s.slew := rfl
@[simp] theorem setRg_slewCtr (r : RegName) (i : Nat) (v : Word) : (setRg s r i v).slewCtr = s.slewCtr := rfl
@[simp] theorem setRg_seenIds (r : RegName) (i : Nat) (v : Word) : (setRg s r i v).seenIds = s.seenIds := rfl
@[simp] theorem setRg_keyPend (r : RegName) (i : Nat) (v : Word) : (setRg s r i v).keyPend = s.keyPend := rfl
@[simp] theorem setRg_scrubAt (r : RegName) (i : Nat) (v : Word) : (setRg s r i v).scrubAt = s.scrubAt := rfl
@[simp] theorem setRg_lgs (r : RegName) (i : Nat) (v : Word) : (setRg s r i v).lgs = s.lgs := rfl
@[simp] theorem setRg_rports (r : RegName) (i : Nat) (v : Word) : (setRg s r i v).rports = s.rports := rfl
@[simp] theorem setRg_engs (r : RegName) (i : Nat) (v : Word) : (setRg s r i v).engs = s.engs := rfl
@[simp] theorem setRg_slots (r : RegName) (i : Nat) (v : Word) : (setRg s r i v).slots = s.slots := rfl
@[simp] theorem setRg_oePlan (r : RegName) (i : Nat) (v : Word) : (setRg s r i v).oePlan = s.oePlan := rfl
@[simp] theorem setRg_ethTx (r : RegName) (i : Nat) (v : Word) : (setRg s r i v).ethTx = s.ethTx := rfl
@[simp] theorem setRg_ethPause (r : RegName) (i : Nat) (v : Word) : (setRg s r i v).ethPause = s.ethPause := rfl
@[simp] theorem setRg_queues (r : RegName) (i : Nat) (v : Word) : (setRg s r i v).queues = s.queues := rfl
@[simp] theorem setRg_shares (r : RegName) (i : Nat) (v : Word) : (setRg s r i v).shares = s.shares := rfl
@[simp] theorem setRg_hubTlb (r : RegName) (i : Nat) (v : Word) : (setRg s r i v).hubTlb = s.hubTlb := rfl
@[simp] theorem setRg_hioWays (r : RegName) (i : Nat) (v : Word) : (setRg s r i v).hioWays = s.hioWays := rfl
@[simp] theorem setRg_sessions (r : RegName) (i : Nat) (v : Word) : (setRg s r i v).sessions = s.sessions := rfl
@[simp] theorem setRg_inTable (r : RegName) (i : Nat) (v : Word) : (setRg s r i v).inTable = s.inTable := rfl
@[simp] theorem setRg_spills (r : RegName) (i : Nat) (v : Word) : (setRg s r i v).spills = s.spills := rfl
@[simp] theorem setRg_spillNo (r : RegName) (i : Nat) (v : Word) : (setRg s r i v).spillNo = s.spillNo := rfl
@[simp] theorem setRg_ctxKey (r : RegName) (i : Nat) (v : Word) : (setRg s r i v).ctxKey = s.ctxKey := rfl
@[simp] theorem setRg_cipSeq (r : RegName) (i : Nat) (v : Word) : (setRg s r i v).cipSeq = s.cipSeq := rfl
@[simp] theorem setRg_unitWin (r : RegName) (i : Nat) (v : Word) : (setRg s r i v).unitWin = s.unitWin := rfl
@[simp] theorem setRg_resetN (r : RegName) (i : Nat) (v : Word) : (setRg s r i v).resetN = s.resetN := rfl
@[simp] theorem setRg_dapStatus (r : RegName) (i : Nat) (v : Word) : (setRg s r i v).dapStatus = s.dapStatus := rfl
@[simp] theorem setRg_dapData (r : RegName) (i : Nat) (v : Word) : (setRg s r i v).dapData = s.dapData := rfl
@[simp] theorem setRg_dapWait (r : RegName) (i : Nat) (v : Word) : (setRg s r i v).dapWait = s.dapWait := rfl
@[simp] theorem setRg_tapIr (r : RegName) (i : Nat) (v : Word) : (setRg s r i v).tapIr = s.tapIr := rfl
@[simp] theorem setRg_tapBit (r : RegName) (i : Nat) (v : Word) : (setRg s r i v).tapBit = s.tapBit := rfl
@[simp] theorem setRg_tapCells (r : RegName) (i : Nat) (v : Word) : (setRg s r i v).tapCells = s.tapCells := rfl
@[simp] theorem setRg_tapDrive (r : RegName) (i : Nat) (v : Word) : (setRg s r i v).tapDrive = s.tapDrive := rfl
@[simp] theorem setRg_tapOut (r : RegName) (i : Nat) (v : Word) : (setRg s r i v).tapOut = s.tapOut := rfl
@[simp] theorem setRg_rangeSec (r : RegName) (i : Nat) (v : Word) : (setRg s r i v).rangeSec = s.rangeSec := rfl
@[simp] theorem setRg_rangeTx (r : RegName) (i : Nat) (v : Word) : (setRg s r i v).rangeTx = s.rangeTx := rfl
@[simp] theorem setRg_rangePois (r : RegName) (i : Nat) (v : Word) : (setRg s r i v).rangePois = s.rangePois := rfl
@[simp] theorem setRg_sweeping (r : RegName) (i : Nat) (v : Word) : (setRg s r i v).sweeping = s.sweeping := rfl
@[simp] theorem setRg_wayFuse (r : RegName) (i : Nat) (v : Word) : (setRg s r i v).wayFuse = s.wayFuse := rfl
@[simp] theorem setRg_degraded (r : RegName) (i : Nat) (v : Word) : (setRg s r i v).degraded = s.degraded := rfl
@[simp] theorem setRg_lifeAt (r : RegName) (i : Nat) (v : Word) : (setRg s r i v).lifeAt = s.lifeAt := rfl
@[simp] theorem setRg_rs (r : RegName) (i : Nat) (v : Word) : (setRg s r i v).rs = s.rs := rfl
@[simp] theorem setRg_mp (r : RegName) (i : Nat) (v : Word) : (setRg s r i v).mp = s.mp := rfl
@[simp] theorem setRg_pw (r : RegName) (i : Nat) (v : Word) : (setRg s r i v).pw = s.pw := rfl

@[simp] theorem setCore_pending (c : Nat) (k : Core) : (setCore s c k).pending = s.pending := rfl
@[simp] theorem setCore_ptime (c : Nat) (k : Core) : (setCore s c k).ptime = s.ptime := rfl
@[simp] theorem setCore_freeCtr (c : Nat) (k : Core) : (setCore s c k).freeCtr = s.freeCtr := rfl
@[simp] theorem setCore_regs (c : Nat) (k : Core) : (setCore s c k).regs = s.regs := rfl
@[simp] theorem setCore_dram (c : Nat) (k : Core) : (setCore s c k).dram = s.dram := rfl
@[simp] theorem setCore_poisoned (c : Nat) (k : Core) : (setCore s c k).poisoned = s.poisoned := rfl
@[simp] theorem setCore_lines (c : Nat) (k : Core) : (setCore s c k).lines = s.lines := rfl
@[simp] theorem setCore_l3 (c : Nat) (k : Core) : (setCore s c k).l3 = s.l3 := rfl
@[simp] theorem setCore_dir (c : Nat) (k : Core) : (setCore s c k).dir = s.dir := rfl
@[simp] theorem setCore_busy (c : Nat) (k : Core) : (setCore s c k).busy = s.busy := rfl
@[simp] theorem setCore_dirWait (c : Nat) (k : Core) : (setCore s c k).dirWait = s.dirWait := rfl
@[simp] theorem setCore_agentOps (c : Nat) (k : Core) : (setCore s c k).agentOps = s.agentOps := rfl
@[simp] theorem setCore_farLast (c : Nat) (k : Core) : (setCore s c k).farLast = s.farLast := rfl
@[simp] theorem setCore_net (c : Nat) (k : Core) : (setCore s c k).net = s.net := rfl
@[simp] theorem setCore_sendNo (c : Nat) (k : Core) : (setCore s c k).sendNo = s.sendNo := rfl
@[simp] theorem setCore_txNext (c : Nat) (k : Core) : (setCore s c k).txNext = s.txNext := rfl
@[simp] theorem setCore_outst (c : Nat) (k : Core) : (setCore s c k).outst = s.outst := rfl
@[simp] theorem setCore_hubTx (c : Nat) (k : Core) : (setCore s c k).hubTx = s.hubTx := rfl
@[simp] theorem setCore_quarantine (c : Nat) (k : Core) : (setCore s c k).quarantine = s.quarantine := rfl
@[simp] theorem setCore_l3Lfsr (c : Nat) (k : Core) : (setCore s c k).l3Lfsr = s.l3Lfsr := rfl
@[simp] theorem setCore_hioLfsr (c : Nat) (k : Core) : (setCore s c k).hioLfsr = s.hioLfsr := rfl
@[simp] theorem setCore_dirLfsr (c : Nat) (k : Core) : (setCore s c k).dirLfsr = s.dirLfsr := rfl
@[simp] theorem setCore_wayWin (c : Nat) (k : Core) : (setCore s c k).wayWin = s.wayWin := rfl
@[simp] theorem setCore_walks (c : Nat) (k : Core) : (setCore s c k).walks = s.walks := rfl
@[simp] theorem setCore_walkRun (c : Nat) (k : Core) : (setCore s c k).walkRun = s.walkRun := rfl
@[simp] theorem setCore_hashChs (c : Nat) (k : Core) : (setCore s c k).hashChs = s.hashChs := rfl
@[simp] theorem setCore_hashHomes (c : Nat) (k : Core) : (setCore s c k).hashHomes = s.hashHomes := rfl
@[simp] theorem setCore_keys (c : Nat) (k : Core) : (setCore s c k).keys = s.keys := rfl
@[simp] theorem setCore_pkg (c : Nat) (k : Core) : (setCore s c k).pkg = s.pkg := rfl
@[simp] theorem setCore_admitted (c : Nat) (k : Core) : (setCore s c k).admitted = s.admitted := rfl
@[simp] theorem setCore_peerDram (c : Nat) (k : Core) : (setCore s c k).peerDram = s.peerDram := rfl
@[simp] theorem setCore_fencedStk (c : Nat) (k : Core) : (setCore s c k).fencedStk = s.fencedStk := rfl
@[simp] theorem setCore_mpSram (c : Nat) (k : Core) : (setCore s c k).mpSram = s.mpSram := rfl
@[simp] theorem setCore_flash (c : Nat) (k : Core) : (setCore s c k).flash = s.flash := rfl
@[simp] theorem setCore_mpwin (c : Nat) (k : Core) : (setCore s c k).mpwin = s.mpwin := rfl
@[simp] theorem setCore_mpPend (c : Nat) (k : Core) : (setCore s c k).mpPend = s.mpPend := rfl
@[simp] theorem setCore_mpEn (c : Nat) (k : Core) : (setCore s c k).mpEn = s.mpEn := rfl
@[simp] theorem setCore_mpHeld (c : Nat) (k : Core) : (setCore s c k).mpHeld = s.mpHeld := rfl
@[simp] theorem setCore_mpRead (c : Nat) (k : Core) : (setCore s c k).mpRead = s.mpRead := rfl
@[simp] theorem setCore_dbgFuse (c : Nat) (k : Core) : (setCore s c k).dbgFuse = s.dbgFuse := rfl
@[simp] theorem setCore_dbgPolicy (c : Nat) (k : Core) : (setCore s c k).dbgPolicy = s.dbgPolicy := rfl
@[simp] theorem setCore_features (c : Nat) (k : Core) : (setCore s c k).features = s.features := rfl
@[simp] theorem setCore_tbMode (c : Nat) (k : Core) : (setCore s c k).tbMode = s.tbMode := rfl
@[simp] theorem setCore_stk (c : Nat) (k : Core) : (setCore s c k).stk = s.stk := rfl
@[simp] theorem setCore_fabOff (c : Nat) (k : Core) : (setCore s c k).fabOff = s.fabOff := rfl
@[simp] theorem setCore_fabDrift (c : Nat) (k : Core) : (setCore s c k).fabDrift = s.fabDrift := rfl
@[simp] theorem setCore_fabAgeAt (c : Nat) (k : Core) : (setCore s c k).fabAgeAt = s.fabAgeAt := rfl
@[simp] theorem setCore_coreFuse (c : Nat) (k : Core) : (setCore s c k).coreFuse = s.coreFuse := rfl
@[simp] theorem setCore_hlog (c : Nat) (k : Core) : (setCore s c k).hlog = s.hlog := rfl
@[simp] theorem setCore_vstby (c : Nat) (k : Core) : (setCore s c k).vstby = s.vstby := rfl
@[simp] theorem setCore_vin (c : Nat) (k : Core) : (setCore s c k).vin = s.vin := rfl
@[simp] theorem setCore_tinvQ (c : Nat) (k : Core) : (setCore s c k).tinvQ = s.tinvQ := rfl
@[simp] theorem setCore_bcasts (c : Nat) (k : Core) : (setCore s c k).bcasts = s.bcasts := rfl
@[simp] theorem setCore_bcastSeq (c : Nat) (k : Core) : (setCore s c k).bcastSeq = s.bcastSeq := rfl
@[simp] theorem setCore_tokens (c : Nat) (k : Core) : (setCore s c k).tokens = s.tokens := rfl
@[simp] theorem setCore_tokenAt (c : Nat) (k : Core) : (setCore s c k).tokenAt = s.tokenAt := rfl
@[simp] theorem setCore_gHeld (c : Nat) (k : Core) : (setCore s c k).gHeld = s.gHeld := rfl
@[simp] theorem setCore_arbPtr (c : Nat) (k : Core) : (setCore s c k).arbPtr = s.arbPtr := rfl
@[simp] theorem setCore_fstopAt (c : Nat) (k : Core) : (setCore s c k).fstopAt = s.fstopAt := rfl
@[simp] theorem setCore_seg (c : Nat) (k : Core) : (setCore s c k).seg = s.seg := rfl
@[simp] theorem setCore_rimHold (c : Nat) (k : Core) : (setCore s c k).rimHold = s.rimHold := rfl
@[simp] theorem setCore_parked (c : Nat) (k : Core) : (setCore s c k).parked = s.parked := rfl
@[simp] theorem setCore_ends (c : Nat) (k : Core) : (setCore s c k).ends = s.ends := rfl
@[simp] theorem setCore_pals (c : Nat) (k : Core) : (setCore s c k).pals = s.pals := rfl
@[simp] theorem setCore_bundles (c : Nat) (k : Core) : (setCore s c k).bundles = s.bundles := rfl
@[simp] theorem setCore_cands (c : Nat) (k : Core) : (setCore s c k).cands = s.cands := rfl
@[simp] theorem setCore_hubAt (c : Nat) (k : Core) : (setCore s c k).hubAt = s.hubAt := rfl
@[simp] theorem setCore_identAt (c : Nat) (k : Core) : (setCore s c k).identAt = s.identAt := rfl
@[simp] theorem setCore_timeAt (c : Nat) (k : Core) : (setCore s c k).timeAt = s.timeAt := rfl
@[simp] theorem setCore_timeSentAt (c : Nat) (k : Core) : (setCore s c k).timeSentAt = s.timeSentAt := rfl
@[simp] theorem setCore_otherMaster (c : Nat) (k : Core) : (setCore s c k).otherMaster = s.otherMaster := rfl
@[simp] theorem setCore_slew (c : Nat) (k : Core) : (setCore s c k).slew = s.slew := rfl
@[simp] theorem setCore_slewCtr (c : Nat) (k : Core) : (setCore s c k).slewCtr = s.slewCtr := rfl
@[simp] theorem setCore_seenIds (c : Nat) (k : Core) : (setCore s c k).seenIds = s.seenIds := rfl
@[simp] theorem setCore_keyPend (c : Nat) (k : Core) : (setCore s c k).keyPend = s.keyPend := rfl
@[simp] theorem setCore_scrubAt (c : Nat) (k : Core) : (setCore s c k).scrubAt = s.scrubAt := rfl
@[simp] theorem setCore_lgs (c : Nat) (k : Core) : (setCore s c k).lgs = s.lgs := rfl
@[simp] theorem setCore_rports (c : Nat) (k : Core) : (setCore s c k).rports = s.rports := rfl
@[simp] theorem setCore_engs (c : Nat) (k : Core) : (setCore s c k).engs = s.engs := rfl
@[simp] theorem setCore_slots (c : Nat) (k : Core) : (setCore s c k).slots = s.slots := rfl
@[simp] theorem setCore_oePlan (c : Nat) (k : Core) : (setCore s c k).oePlan = s.oePlan := rfl
@[simp] theorem setCore_ethTx (c : Nat) (k : Core) : (setCore s c k).ethTx = s.ethTx := rfl
@[simp] theorem setCore_ethPause (c : Nat) (k : Core) : (setCore s c k).ethPause = s.ethPause := rfl
@[simp] theorem setCore_queues (c : Nat) (k : Core) : (setCore s c k).queues = s.queues := rfl
@[simp] theorem setCore_shares (c : Nat) (k : Core) : (setCore s c k).shares = s.shares := rfl
@[simp] theorem setCore_hubTlb (c : Nat) (k : Core) : (setCore s c k).hubTlb = s.hubTlb := rfl
@[simp] theorem setCore_hioWays (c : Nat) (k : Core) : (setCore s c k).hioWays = s.hioWays := rfl
@[simp] theorem setCore_sessions (c : Nat) (k : Core) : (setCore s c k).sessions = s.sessions := rfl
@[simp] theorem setCore_inTable (c : Nat) (k : Core) : (setCore s c k).inTable = s.inTable := rfl
@[simp] theorem setCore_spills (c : Nat) (k : Core) : (setCore s c k).spills = s.spills := rfl
@[simp] theorem setCore_spillNo (c : Nat) (k : Core) : (setCore s c k).spillNo = s.spillNo := rfl
@[simp] theorem setCore_ctxKey (c : Nat) (k : Core) : (setCore s c k).ctxKey = s.ctxKey := rfl
@[simp] theorem setCore_cipSeq (c : Nat) (k : Core) : (setCore s c k).cipSeq = s.cipSeq := rfl
@[simp] theorem setCore_unitWin (c : Nat) (k : Core) : (setCore s c k).unitWin = s.unitWin := rfl
@[simp] theorem setCore_resetN (c : Nat) (k : Core) : (setCore s c k).resetN = s.resetN := rfl
@[simp] theorem setCore_dapStatus (c : Nat) (k : Core) : (setCore s c k).dapStatus = s.dapStatus := rfl
@[simp] theorem setCore_dapData (c : Nat) (k : Core) : (setCore s c k).dapData = s.dapData := rfl
@[simp] theorem setCore_dapWait (c : Nat) (k : Core) : (setCore s c k).dapWait = s.dapWait := rfl
@[simp] theorem setCore_tapIr (c : Nat) (k : Core) : (setCore s c k).tapIr = s.tapIr := rfl
@[simp] theorem setCore_tapBit (c : Nat) (k : Core) : (setCore s c k).tapBit = s.tapBit := rfl
@[simp] theorem setCore_tapCells (c : Nat) (k : Core) : (setCore s c k).tapCells = s.tapCells := rfl
@[simp] theorem setCore_tapDrive (c : Nat) (k : Core) : (setCore s c k).tapDrive = s.tapDrive := rfl
@[simp] theorem setCore_tapOut (c : Nat) (k : Core) : (setCore s c k).tapOut = s.tapOut := rfl
@[simp] theorem setCore_rangeSec (c : Nat) (k : Core) : (setCore s c k).rangeSec = s.rangeSec := rfl
@[simp] theorem setCore_rangeTx (c : Nat) (k : Core) : (setCore s c k).rangeTx = s.rangeTx := rfl
@[simp] theorem setCore_rangePois (c : Nat) (k : Core) : (setCore s c k).rangePois = s.rangePois := rfl
@[simp] theorem setCore_sweeping (c : Nat) (k : Core) : (setCore s c k).sweeping = s.sweeping := rfl
@[simp] theorem setCore_wayFuse (c : Nat) (k : Core) : (setCore s c k).wayFuse = s.wayFuse := rfl
@[simp] theorem setCore_degraded (c : Nat) (k : Core) : (setCore s c k).degraded = s.degraded := rfl
@[simp] theorem setCore_lifeAt (c : Nat) (k : Core) : (setCore s c k).lifeAt = s.lifeAt := rfl
@[simp] theorem setCore_rs (c : Nat) (k : Core) : (setCore s c k).rs = s.rs := rfl
@[simp] theorem setCore_mp (c : Nat) (k : Core) : (setCore s c k).mp = s.mp := rfl
@[simp] theorem setCore_pw (c : Nat) (k : Core) : (setCore s c k).pw = s.pw := rfl

@[simp] theorem send_pending (p : Packet) : (send s p).pending = s.pending := rfl
@[simp] theorem send_ptime (p : Packet) : (send s p).ptime = s.ptime := rfl
@[simp] theorem send_freeCtr (p : Packet) : (send s p).freeCtr = s.freeCtr := rfl
@[simp] theorem send_regs (p : Packet) : (send s p).regs = s.regs := rfl
@[simp] theorem send_cores (p : Packet) : (send s p).cores = s.cores := rfl
@[simp] theorem send_dram (p : Packet) : (send s p).dram = s.dram := rfl
@[simp] theorem send_poisoned (p : Packet) : (send s p).poisoned = s.poisoned := rfl
@[simp] theorem send_lines (p : Packet) : (send s p).lines = s.lines := rfl
@[simp] theorem send_l3 (p : Packet) : (send s p).l3 = s.l3 := rfl
@[simp] theorem send_dir (p : Packet) : (send s p).dir = s.dir := rfl
@[simp] theorem send_busy (p : Packet) : (send s p).busy = s.busy := rfl
@[simp] theorem send_dirWait (p : Packet) : (send s p).dirWait = s.dirWait := rfl
@[simp] theorem send_agentOps (p : Packet) : (send s p).agentOps = s.agentOps := rfl
@[simp] theorem send_farLast (p : Packet) : (send s p).farLast = s.farLast := rfl
@[simp] theorem send_txNext (p : Packet) : (send s p).txNext = s.txNext := rfl
@[simp] theorem send_outst (p : Packet) : (send s p).outst = s.outst := rfl
@[simp] theorem send_hubTx (p : Packet) : (send s p).hubTx = s.hubTx := rfl
@[simp] theorem send_quarantine (p : Packet) : (send s p).quarantine = s.quarantine := rfl
@[simp] theorem send_l3Lfsr (p : Packet) : (send s p).l3Lfsr = s.l3Lfsr := rfl
@[simp] theorem send_hioLfsr (p : Packet) : (send s p).hioLfsr = s.hioLfsr := rfl
@[simp] theorem send_dirLfsr (p : Packet) : (send s p).dirLfsr = s.dirLfsr := rfl
@[simp] theorem send_wayWin (p : Packet) : (send s p).wayWin = s.wayWin := rfl
@[simp] theorem send_walks (p : Packet) : (send s p).walks = s.walks := rfl
@[simp] theorem send_walkRun (p : Packet) : (send s p).walkRun = s.walkRun := rfl
@[simp] theorem send_hashChs (p : Packet) : (send s p).hashChs = s.hashChs := rfl
@[simp] theorem send_hashHomes (p : Packet) : (send s p).hashHomes = s.hashHomes := rfl
@[simp] theorem send_keys (p : Packet) : (send s p).keys = s.keys := rfl
@[simp] theorem send_pkg (p : Packet) : (send s p).pkg = s.pkg := rfl
@[simp] theorem send_admitted (p : Packet) : (send s p).admitted = s.admitted := rfl
@[simp] theorem send_peerDram (p : Packet) : (send s p).peerDram = s.peerDram := rfl
@[simp] theorem send_fencedStk (p : Packet) : (send s p).fencedStk = s.fencedStk := rfl
@[simp] theorem send_mpSram (p : Packet) : (send s p).mpSram = s.mpSram := rfl
@[simp] theorem send_flash (p : Packet) : (send s p).flash = s.flash := rfl
@[simp] theorem send_mpwin (p : Packet) : (send s p).mpwin = s.mpwin := rfl
@[simp] theorem send_mpPend (p : Packet) : (send s p).mpPend = s.mpPend := rfl
@[simp] theorem send_mpEn (p : Packet) : (send s p).mpEn = s.mpEn := rfl
@[simp] theorem send_mpHeld (p : Packet) : (send s p).mpHeld = s.mpHeld := rfl
@[simp] theorem send_mpRead (p : Packet) : (send s p).mpRead = s.mpRead := rfl
@[simp] theorem send_dbgFuse (p : Packet) : (send s p).dbgFuse = s.dbgFuse := rfl
@[simp] theorem send_dbgPolicy (p : Packet) : (send s p).dbgPolicy = s.dbgPolicy := rfl
@[simp] theorem send_features (p : Packet) : (send s p).features = s.features := rfl
@[simp] theorem send_tbMode (p : Packet) : (send s p).tbMode = s.tbMode := rfl
@[simp] theorem send_stk (p : Packet) : (send s p).stk = s.stk := rfl
@[simp] theorem send_fabOff (p : Packet) : (send s p).fabOff = s.fabOff := rfl
@[simp] theorem send_fabDrift (p : Packet) : (send s p).fabDrift = s.fabDrift := rfl
@[simp] theorem send_fabAgeAt (p : Packet) : (send s p).fabAgeAt = s.fabAgeAt := rfl
@[simp] theorem send_coreFuse (p : Packet) : (send s p).coreFuse = s.coreFuse := rfl
@[simp] theorem send_hlog (p : Packet) : (send s p).hlog = s.hlog := rfl
@[simp] theorem send_vstby (p : Packet) : (send s p).vstby = s.vstby := rfl
@[simp] theorem send_vin (p : Packet) : (send s p).vin = s.vin := rfl
@[simp] theorem send_tinvQ (p : Packet) : (send s p).tinvQ = s.tinvQ := rfl
@[simp] theorem send_bcasts (p : Packet) : (send s p).bcasts = s.bcasts := rfl
@[simp] theorem send_bcastSeq (p : Packet) : (send s p).bcastSeq = s.bcastSeq := rfl
@[simp] theorem send_tokens (p : Packet) : (send s p).tokens = s.tokens := rfl
@[simp] theorem send_tokenAt (p : Packet) : (send s p).tokenAt = s.tokenAt := rfl
@[simp] theorem send_gHeld (p : Packet) : (send s p).gHeld = s.gHeld := rfl
@[simp] theorem send_arbPtr (p : Packet) : (send s p).arbPtr = s.arbPtr := rfl
@[simp] theorem send_fstopAt (p : Packet) : (send s p).fstopAt = s.fstopAt := rfl
@[simp] theorem send_seg (p : Packet) : (send s p).seg = s.seg := rfl
@[simp] theorem send_rimHold (p : Packet) : (send s p).rimHold = s.rimHold := rfl
@[simp] theorem send_parked (p : Packet) : (send s p).parked = s.parked := rfl
@[simp] theorem send_ends (p : Packet) : (send s p).ends = s.ends := rfl
@[simp] theorem send_pals (p : Packet) : (send s p).pals = s.pals := rfl
@[simp] theorem send_bundles (p : Packet) : (send s p).bundles = s.bundles := rfl
@[simp] theorem send_cands (p : Packet) : (send s p).cands = s.cands := rfl
@[simp] theorem send_hubAt (p : Packet) : (send s p).hubAt = s.hubAt := rfl
@[simp] theorem send_identAt (p : Packet) : (send s p).identAt = s.identAt := rfl
@[simp] theorem send_timeAt (p : Packet) : (send s p).timeAt = s.timeAt := rfl
@[simp] theorem send_timeSentAt (p : Packet) : (send s p).timeSentAt = s.timeSentAt := rfl
@[simp] theorem send_otherMaster (p : Packet) : (send s p).otherMaster = s.otherMaster := rfl
@[simp] theorem send_slew (p : Packet) : (send s p).slew = s.slew := rfl
@[simp] theorem send_slewCtr (p : Packet) : (send s p).slewCtr = s.slewCtr := rfl
@[simp] theorem send_seenIds (p : Packet) : (send s p).seenIds = s.seenIds := rfl
@[simp] theorem send_keyPend (p : Packet) : (send s p).keyPend = s.keyPend := rfl
@[simp] theorem send_scrubAt (p : Packet) : (send s p).scrubAt = s.scrubAt := rfl
@[simp] theorem send_lgs (p : Packet) : (send s p).lgs = s.lgs := rfl
@[simp] theorem send_rports (p : Packet) : (send s p).rports = s.rports := rfl
@[simp] theorem send_engs (p : Packet) : (send s p).engs = s.engs := rfl
@[simp] theorem send_slots (p : Packet) : (send s p).slots = s.slots := rfl
@[simp] theorem send_oePlan (p : Packet) : (send s p).oePlan = s.oePlan := rfl
@[simp] theorem send_ethTx (p : Packet) : (send s p).ethTx = s.ethTx := rfl
@[simp] theorem send_ethPause (p : Packet) : (send s p).ethPause = s.ethPause := rfl
@[simp] theorem send_queues (p : Packet) : (send s p).queues = s.queues := rfl
@[simp] theorem send_shares (p : Packet) : (send s p).shares = s.shares := rfl
@[simp] theorem send_hubTlb (p : Packet) : (send s p).hubTlb = s.hubTlb := rfl
@[simp] theorem send_hioWays (p : Packet) : (send s p).hioWays = s.hioWays := rfl
@[simp] theorem send_sessions (p : Packet) : (send s p).sessions = s.sessions := rfl
@[simp] theorem send_inTable (p : Packet) : (send s p).inTable = s.inTable := rfl
@[simp] theorem send_spills (p : Packet) : (send s p).spills = s.spills := rfl
@[simp] theorem send_spillNo (p : Packet) : (send s p).spillNo = s.spillNo := rfl
@[simp] theorem send_ctxKey (p : Packet) : (send s p).ctxKey = s.ctxKey := rfl
@[simp] theorem send_cipSeq (p : Packet) : (send s p).cipSeq = s.cipSeq := rfl
@[simp] theorem send_unitWin (p : Packet) : (send s p).unitWin = s.unitWin := rfl
@[simp] theorem send_resetN (p : Packet) : (send s p).resetN = s.resetN := rfl
@[simp] theorem send_dapStatus (p : Packet) : (send s p).dapStatus = s.dapStatus := rfl
@[simp] theorem send_dapData (p : Packet) : (send s p).dapData = s.dapData := rfl
@[simp] theorem send_dapWait (p : Packet) : (send s p).dapWait = s.dapWait := rfl
@[simp] theorem send_tapIr (p : Packet) : (send s p).tapIr = s.tapIr := rfl
@[simp] theorem send_tapBit (p : Packet) : (send s p).tapBit = s.tapBit := rfl
@[simp] theorem send_tapCells (p : Packet) : (send s p).tapCells = s.tapCells := rfl
@[simp] theorem send_tapDrive (p : Packet) : (send s p).tapDrive = s.tapDrive := rfl
@[simp] theorem send_tapOut (p : Packet) : (send s p).tapOut = s.tapOut := rfl
@[simp] theorem send_rangeSec (p : Packet) : (send s p).rangeSec = s.rangeSec := rfl
@[simp] theorem send_rangeTx (p : Packet) : (send s p).rangeTx = s.rangeTx := rfl
@[simp] theorem send_rangePois (p : Packet) : (send s p).rangePois = s.rangePois := rfl
@[simp] theorem send_sweeping (p : Packet) : (send s p).sweeping = s.sweeping := rfl
@[simp] theorem send_wayFuse (p : Packet) : (send s p).wayFuse = s.wayFuse := rfl
@[simp] theorem send_degraded (p : Packet) : (send s p).degraded = s.degraded := rfl
@[simp] theorem send_lifeAt (p : Packet) : (send s p).lifeAt = s.lifeAt := rfl
@[simp] theorem send_rs (p : Packet) : (send s p).rs = s.rs := rfl
@[simp] theorem send_mp (p : Packet) : (send s p).mp = s.mp := rfl
@[simp] theorem send_pw (p : Packet) : (send s p).pw = s.pw := rfl

@[simp] theorem addOutst_pending (o : Outst) : (addOutst s o).pending = s.pending := rfl
@[simp] theorem addOutst_ptime (o : Outst) : (addOutst s o).ptime = s.ptime := rfl
@[simp] theorem addOutst_freeCtr (o : Outst) : (addOutst s o).freeCtr = s.freeCtr := rfl
@[simp] theorem addOutst_regs (o : Outst) : (addOutst s o).regs = s.regs := rfl
@[simp] theorem addOutst_cores (o : Outst) : (addOutst s o).cores = s.cores := rfl
@[simp] theorem addOutst_dram (o : Outst) : (addOutst s o).dram = s.dram := rfl
@[simp] theorem addOutst_poisoned (o : Outst) : (addOutst s o).poisoned = s.poisoned := rfl
@[simp] theorem addOutst_lines (o : Outst) : (addOutst s o).lines = s.lines := rfl
@[simp] theorem addOutst_l3 (o : Outst) : (addOutst s o).l3 = s.l3 := rfl
@[simp] theorem addOutst_dir (o : Outst) : (addOutst s o).dir = s.dir := rfl
@[simp] theorem addOutst_busy (o : Outst) : (addOutst s o).busy = s.busy := rfl
@[simp] theorem addOutst_dirWait (o : Outst) : (addOutst s o).dirWait = s.dirWait := rfl
@[simp] theorem addOutst_agentOps (o : Outst) : (addOutst s o).agentOps = s.agentOps := rfl
@[simp] theorem addOutst_farLast (o : Outst) : (addOutst s o).farLast = s.farLast := rfl
@[simp] theorem addOutst_net (o : Outst) : (addOutst s o).net = s.net := rfl
@[simp] theorem addOutst_sendNo (o : Outst) : (addOutst s o).sendNo = s.sendNo := rfl
@[simp] theorem addOutst_txNext (o : Outst) : (addOutst s o).txNext = s.txNext := rfl
@[simp] theorem addOutst_hubTx (o : Outst) : (addOutst s o).hubTx = s.hubTx := rfl
@[simp] theorem addOutst_quarantine (o : Outst) : (addOutst s o).quarantine = s.quarantine := rfl
@[simp] theorem addOutst_l3Lfsr (o : Outst) : (addOutst s o).l3Lfsr = s.l3Lfsr := rfl
@[simp] theorem addOutst_hioLfsr (o : Outst) : (addOutst s o).hioLfsr = s.hioLfsr := rfl
@[simp] theorem addOutst_dirLfsr (o : Outst) : (addOutst s o).dirLfsr = s.dirLfsr := rfl
@[simp] theorem addOutst_wayWin (o : Outst) : (addOutst s o).wayWin = s.wayWin := rfl
@[simp] theorem addOutst_walks (o : Outst) : (addOutst s o).walks = s.walks := rfl
@[simp] theorem addOutst_walkRun (o : Outst) : (addOutst s o).walkRun = s.walkRun := rfl
@[simp] theorem addOutst_hashChs (o : Outst) : (addOutst s o).hashChs = s.hashChs := rfl
@[simp] theorem addOutst_hashHomes (o : Outst) : (addOutst s o).hashHomes = s.hashHomes := rfl
@[simp] theorem addOutst_keys (o : Outst) : (addOutst s o).keys = s.keys := rfl
@[simp] theorem addOutst_pkg (o : Outst) : (addOutst s o).pkg = s.pkg := rfl
@[simp] theorem addOutst_admitted (o : Outst) : (addOutst s o).admitted = s.admitted := rfl
@[simp] theorem addOutst_peerDram (o : Outst) : (addOutst s o).peerDram = s.peerDram := rfl
@[simp] theorem addOutst_fencedStk (o : Outst) : (addOutst s o).fencedStk = s.fencedStk := rfl
@[simp] theorem addOutst_mpSram (o : Outst) : (addOutst s o).mpSram = s.mpSram := rfl
@[simp] theorem addOutst_flash (o : Outst) : (addOutst s o).flash = s.flash := rfl
@[simp] theorem addOutst_mpwin (o : Outst) : (addOutst s o).mpwin = s.mpwin := rfl
@[simp] theorem addOutst_mpPend (o : Outst) : (addOutst s o).mpPend = s.mpPend := rfl
@[simp] theorem addOutst_mpEn (o : Outst) : (addOutst s o).mpEn = s.mpEn := rfl
@[simp] theorem addOutst_mpHeld (o : Outst) : (addOutst s o).mpHeld = s.mpHeld := rfl
@[simp] theorem addOutst_mpRead (o : Outst) : (addOutst s o).mpRead = s.mpRead := rfl
@[simp] theorem addOutst_dbgFuse (o : Outst) : (addOutst s o).dbgFuse = s.dbgFuse := rfl
@[simp] theorem addOutst_dbgPolicy (o : Outst) : (addOutst s o).dbgPolicy = s.dbgPolicy := rfl
@[simp] theorem addOutst_features (o : Outst) : (addOutst s o).features = s.features := rfl
@[simp] theorem addOutst_tbMode (o : Outst) : (addOutst s o).tbMode = s.tbMode := rfl
@[simp] theorem addOutst_stk (o : Outst) : (addOutst s o).stk = s.stk := rfl
@[simp] theorem addOutst_fabOff (o : Outst) : (addOutst s o).fabOff = s.fabOff := rfl
@[simp] theorem addOutst_fabDrift (o : Outst) : (addOutst s o).fabDrift = s.fabDrift := rfl
@[simp] theorem addOutst_fabAgeAt (o : Outst) : (addOutst s o).fabAgeAt = s.fabAgeAt := rfl
@[simp] theorem addOutst_coreFuse (o : Outst) : (addOutst s o).coreFuse = s.coreFuse := rfl
@[simp] theorem addOutst_hlog (o : Outst) : (addOutst s o).hlog = s.hlog := rfl
@[simp] theorem addOutst_vstby (o : Outst) : (addOutst s o).vstby = s.vstby := rfl
@[simp] theorem addOutst_vin (o : Outst) : (addOutst s o).vin = s.vin := rfl
@[simp] theorem addOutst_tinvQ (o : Outst) : (addOutst s o).tinvQ = s.tinvQ := rfl
@[simp] theorem addOutst_bcasts (o : Outst) : (addOutst s o).bcasts = s.bcasts := rfl
@[simp] theorem addOutst_bcastSeq (o : Outst) : (addOutst s o).bcastSeq = s.bcastSeq := rfl
@[simp] theorem addOutst_tokens (o : Outst) : (addOutst s o).tokens = s.tokens := rfl
@[simp] theorem addOutst_tokenAt (o : Outst) : (addOutst s o).tokenAt = s.tokenAt := rfl
@[simp] theorem addOutst_gHeld (o : Outst) : (addOutst s o).gHeld = s.gHeld := rfl
@[simp] theorem addOutst_arbPtr (o : Outst) : (addOutst s o).arbPtr = s.arbPtr := rfl
@[simp] theorem addOutst_fstopAt (o : Outst) : (addOutst s o).fstopAt = s.fstopAt := rfl
@[simp] theorem addOutst_seg (o : Outst) : (addOutst s o).seg = s.seg := rfl
@[simp] theorem addOutst_rimHold (o : Outst) : (addOutst s o).rimHold = s.rimHold := rfl
@[simp] theorem addOutst_parked (o : Outst) : (addOutst s o).parked = s.parked := rfl
@[simp] theorem addOutst_ends (o : Outst) : (addOutst s o).ends = s.ends := rfl
@[simp] theorem addOutst_pals (o : Outst) : (addOutst s o).pals = s.pals := rfl
@[simp] theorem addOutst_bundles (o : Outst) : (addOutst s o).bundles = s.bundles := rfl
@[simp] theorem addOutst_cands (o : Outst) : (addOutst s o).cands = s.cands := rfl
@[simp] theorem addOutst_hubAt (o : Outst) : (addOutst s o).hubAt = s.hubAt := rfl
@[simp] theorem addOutst_identAt (o : Outst) : (addOutst s o).identAt = s.identAt := rfl
@[simp] theorem addOutst_timeAt (o : Outst) : (addOutst s o).timeAt = s.timeAt := rfl
@[simp] theorem addOutst_timeSentAt (o : Outst) : (addOutst s o).timeSentAt = s.timeSentAt := rfl
@[simp] theorem addOutst_otherMaster (o : Outst) : (addOutst s o).otherMaster = s.otherMaster := rfl
@[simp] theorem addOutst_slew (o : Outst) : (addOutst s o).slew = s.slew := rfl
@[simp] theorem addOutst_slewCtr (o : Outst) : (addOutst s o).slewCtr = s.slewCtr := rfl
@[simp] theorem addOutst_seenIds (o : Outst) : (addOutst s o).seenIds = s.seenIds := rfl
@[simp] theorem addOutst_keyPend (o : Outst) : (addOutst s o).keyPend = s.keyPend := rfl
@[simp] theorem addOutst_scrubAt (o : Outst) : (addOutst s o).scrubAt = s.scrubAt := rfl
@[simp] theorem addOutst_lgs (o : Outst) : (addOutst s o).lgs = s.lgs := rfl
@[simp] theorem addOutst_rports (o : Outst) : (addOutst s o).rports = s.rports := rfl
@[simp] theorem addOutst_engs (o : Outst) : (addOutst s o).engs = s.engs := rfl
@[simp] theorem addOutst_slots (o : Outst) : (addOutst s o).slots = s.slots := rfl
@[simp] theorem addOutst_oePlan (o : Outst) : (addOutst s o).oePlan = s.oePlan := rfl
@[simp] theorem addOutst_ethTx (o : Outst) : (addOutst s o).ethTx = s.ethTx := rfl
@[simp] theorem addOutst_ethPause (o : Outst) : (addOutst s o).ethPause = s.ethPause := rfl
@[simp] theorem addOutst_queues (o : Outst) : (addOutst s o).queues = s.queues := rfl
@[simp] theorem addOutst_shares (o : Outst) : (addOutst s o).shares = s.shares := rfl
@[simp] theorem addOutst_hubTlb (o : Outst) : (addOutst s o).hubTlb = s.hubTlb := rfl
@[simp] theorem addOutst_hioWays (o : Outst) : (addOutst s o).hioWays = s.hioWays := rfl
@[simp] theorem addOutst_sessions (o : Outst) : (addOutst s o).sessions = s.sessions := rfl
@[simp] theorem addOutst_inTable (o : Outst) : (addOutst s o).inTable = s.inTable := rfl
@[simp] theorem addOutst_spills (o : Outst) : (addOutst s o).spills = s.spills := rfl
@[simp] theorem addOutst_spillNo (o : Outst) : (addOutst s o).spillNo = s.spillNo := rfl
@[simp] theorem addOutst_ctxKey (o : Outst) : (addOutst s o).ctxKey = s.ctxKey := rfl
@[simp] theorem addOutst_cipSeq (o : Outst) : (addOutst s o).cipSeq = s.cipSeq := rfl
@[simp] theorem addOutst_unitWin (o : Outst) : (addOutst s o).unitWin = s.unitWin := rfl
@[simp] theorem addOutst_resetN (o : Outst) : (addOutst s o).resetN = s.resetN := rfl
@[simp] theorem addOutst_dapStatus (o : Outst) : (addOutst s o).dapStatus = s.dapStatus := rfl
@[simp] theorem addOutst_dapData (o : Outst) : (addOutst s o).dapData = s.dapData := rfl
@[simp] theorem addOutst_dapWait (o : Outst) : (addOutst s o).dapWait = s.dapWait := rfl
@[simp] theorem addOutst_tapIr (o : Outst) : (addOutst s o).tapIr = s.tapIr := rfl
@[simp] theorem addOutst_tapBit (o : Outst) : (addOutst s o).tapBit = s.tapBit := rfl
@[simp] theorem addOutst_tapCells (o : Outst) : (addOutst s o).tapCells = s.tapCells := rfl
@[simp] theorem addOutst_tapDrive (o : Outst) : (addOutst s o).tapDrive = s.tapDrive := rfl
@[simp] theorem addOutst_tapOut (o : Outst) : (addOutst s o).tapOut = s.tapOut := rfl
@[simp] theorem addOutst_rangeSec (o : Outst) : (addOutst s o).rangeSec = s.rangeSec := rfl
@[simp] theorem addOutst_rangeTx (o : Outst) : (addOutst s o).rangeTx = s.rangeTx := rfl
@[simp] theorem addOutst_rangePois (o : Outst) : (addOutst s o).rangePois = s.rangePois := rfl
@[simp] theorem addOutst_sweeping (o : Outst) : (addOutst s o).sweeping = s.sweeping := rfl
@[simp] theorem addOutst_wayFuse (o : Outst) : (addOutst s o).wayFuse = s.wayFuse := rfl
@[simp] theorem addOutst_degraded (o : Outst) : (addOutst s o).degraded = s.degraded := rfl
@[simp] theorem addOutst_lifeAt (o : Outst) : (addOutst s o).lifeAt = s.lifeAt := rfl
@[simp] theorem addOutst_rs (o : Outst) : (addOutst s o).rs = s.rs := rfl
@[simp] theorem addOutst_mp (o : Outst) : (addOutst s o).mp = s.mp := rfl
@[simp] theorem addOutst_pw (o : Outst) : (addOutst s o).pw = s.pw := rfl

@[simp] theorem delOutst_pending (st : StopId) (x : Nat) : (delOutst s st x).pending = s.pending := rfl
@[simp] theorem delOutst_ptime (st : StopId) (x : Nat) : (delOutst s st x).ptime = s.ptime := rfl
@[simp] theorem delOutst_freeCtr (st : StopId) (x : Nat) : (delOutst s st x).freeCtr = s.freeCtr := rfl
@[simp] theorem delOutst_regs (st : StopId) (x : Nat) : (delOutst s st x).regs = s.regs := rfl
@[simp] theorem delOutst_cores (st : StopId) (x : Nat) : (delOutst s st x).cores = s.cores := rfl
@[simp] theorem delOutst_dram (st : StopId) (x : Nat) : (delOutst s st x).dram = s.dram := rfl
@[simp] theorem delOutst_poisoned (st : StopId) (x : Nat) : (delOutst s st x).poisoned = s.poisoned := rfl
@[simp] theorem delOutst_lines (st : StopId) (x : Nat) : (delOutst s st x).lines = s.lines := rfl
@[simp] theorem delOutst_l3 (st : StopId) (x : Nat) : (delOutst s st x).l3 = s.l3 := rfl
@[simp] theorem delOutst_dir (st : StopId) (x : Nat) : (delOutst s st x).dir = s.dir := rfl
@[simp] theorem delOutst_busy (st : StopId) (x : Nat) : (delOutst s st x).busy = s.busy := rfl
@[simp] theorem delOutst_dirWait (st : StopId) (x : Nat) : (delOutst s st x).dirWait = s.dirWait := rfl
@[simp] theorem delOutst_agentOps (st : StopId) (x : Nat) : (delOutst s st x).agentOps = s.agentOps := rfl
@[simp] theorem delOutst_farLast (st : StopId) (x : Nat) : (delOutst s st x).farLast = s.farLast := rfl
@[simp] theorem delOutst_net (st : StopId) (x : Nat) : (delOutst s st x).net = s.net := rfl
@[simp] theorem delOutst_sendNo (st : StopId) (x : Nat) : (delOutst s st x).sendNo = s.sendNo := rfl
@[simp] theorem delOutst_txNext (st : StopId) (x : Nat) : (delOutst s st x).txNext = s.txNext := rfl
@[simp] theorem delOutst_hubTx (st : StopId) (x : Nat) : (delOutst s st x).hubTx = s.hubTx := rfl
@[simp] theorem delOutst_quarantine (st : StopId) (x : Nat) : (delOutst s st x).quarantine = s.quarantine := rfl
@[simp] theorem delOutst_l3Lfsr (st : StopId) (x : Nat) : (delOutst s st x).l3Lfsr = s.l3Lfsr := rfl
@[simp] theorem delOutst_hioLfsr (st : StopId) (x : Nat) : (delOutst s st x).hioLfsr = s.hioLfsr := rfl
@[simp] theorem delOutst_dirLfsr (st : StopId) (x : Nat) : (delOutst s st x).dirLfsr = s.dirLfsr := rfl
@[simp] theorem delOutst_wayWin (st : StopId) (x : Nat) : (delOutst s st x).wayWin = s.wayWin := rfl
@[simp] theorem delOutst_walks (st : StopId) (x : Nat) : (delOutst s st x).walks = s.walks := rfl
@[simp] theorem delOutst_walkRun (st : StopId) (x : Nat) : (delOutst s st x).walkRun = s.walkRun := rfl
@[simp] theorem delOutst_hashChs (st : StopId) (x : Nat) : (delOutst s st x).hashChs = s.hashChs := rfl
@[simp] theorem delOutst_hashHomes (st : StopId) (x : Nat) : (delOutst s st x).hashHomes = s.hashHomes := rfl
@[simp] theorem delOutst_keys (st : StopId) (x : Nat) : (delOutst s st x).keys = s.keys := rfl
@[simp] theorem delOutst_pkg (st : StopId) (x : Nat) : (delOutst s st x).pkg = s.pkg := rfl
@[simp] theorem delOutst_admitted (st : StopId) (x : Nat) : (delOutst s st x).admitted = s.admitted := rfl
@[simp] theorem delOutst_peerDram (st : StopId) (x : Nat) : (delOutst s st x).peerDram = s.peerDram := rfl
@[simp] theorem delOutst_fencedStk (st : StopId) (x : Nat) : (delOutst s st x).fencedStk = s.fencedStk := rfl
@[simp] theorem delOutst_mpSram (st : StopId) (x : Nat) : (delOutst s st x).mpSram = s.mpSram := rfl
@[simp] theorem delOutst_flash (st : StopId) (x : Nat) : (delOutst s st x).flash = s.flash := rfl
@[simp] theorem delOutst_mpwin (st : StopId) (x : Nat) : (delOutst s st x).mpwin = s.mpwin := rfl
@[simp] theorem delOutst_mpPend (st : StopId) (x : Nat) : (delOutst s st x).mpPend = s.mpPend := rfl
@[simp] theorem delOutst_mpEn (st : StopId) (x : Nat) : (delOutst s st x).mpEn = s.mpEn := rfl
@[simp] theorem delOutst_mpHeld (st : StopId) (x : Nat) : (delOutst s st x).mpHeld = s.mpHeld := rfl
@[simp] theorem delOutst_mpRead (st : StopId) (x : Nat) : (delOutst s st x).mpRead = s.mpRead := rfl
@[simp] theorem delOutst_dbgFuse (st : StopId) (x : Nat) : (delOutst s st x).dbgFuse = s.dbgFuse := rfl
@[simp] theorem delOutst_dbgPolicy (st : StopId) (x : Nat) : (delOutst s st x).dbgPolicy = s.dbgPolicy := rfl
@[simp] theorem delOutst_features (st : StopId) (x : Nat) : (delOutst s st x).features = s.features := rfl
@[simp] theorem delOutst_tbMode (st : StopId) (x : Nat) : (delOutst s st x).tbMode = s.tbMode := rfl
@[simp] theorem delOutst_stk (st : StopId) (x : Nat) : (delOutst s st x).stk = s.stk := rfl
@[simp] theorem delOutst_fabOff (st : StopId) (x : Nat) : (delOutst s st x).fabOff = s.fabOff := rfl
@[simp] theorem delOutst_fabDrift (st : StopId) (x : Nat) : (delOutst s st x).fabDrift = s.fabDrift := rfl
@[simp] theorem delOutst_fabAgeAt (st : StopId) (x : Nat) : (delOutst s st x).fabAgeAt = s.fabAgeAt := rfl
@[simp] theorem delOutst_coreFuse (st : StopId) (x : Nat) : (delOutst s st x).coreFuse = s.coreFuse := rfl
@[simp] theorem delOutst_hlog (st : StopId) (x : Nat) : (delOutst s st x).hlog = s.hlog := rfl
@[simp] theorem delOutst_vstby (st : StopId) (x : Nat) : (delOutst s st x).vstby = s.vstby := rfl
@[simp] theorem delOutst_vin (st : StopId) (x : Nat) : (delOutst s st x).vin = s.vin := rfl
@[simp] theorem delOutst_tinvQ (st : StopId) (x : Nat) : (delOutst s st x).tinvQ = s.tinvQ := rfl
@[simp] theorem delOutst_bcasts (st : StopId) (x : Nat) : (delOutst s st x).bcasts = s.bcasts := rfl
@[simp] theorem delOutst_bcastSeq (st : StopId) (x : Nat) : (delOutst s st x).bcastSeq = s.bcastSeq := rfl
@[simp] theorem delOutst_tokens (st : StopId) (x : Nat) : (delOutst s st x).tokens = s.tokens := rfl
@[simp] theorem delOutst_tokenAt (st : StopId) (x : Nat) : (delOutst s st x).tokenAt = s.tokenAt := rfl
@[simp] theorem delOutst_gHeld (st : StopId) (x : Nat) : (delOutst s st x).gHeld = s.gHeld := rfl
@[simp] theorem delOutst_arbPtr (st : StopId) (x : Nat) : (delOutst s st x).arbPtr = s.arbPtr := rfl
@[simp] theorem delOutst_fstopAt (st : StopId) (x : Nat) : (delOutst s st x).fstopAt = s.fstopAt := rfl
@[simp] theorem delOutst_seg (st : StopId) (x : Nat) : (delOutst s st x).seg = s.seg := rfl
@[simp] theorem delOutst_rimHold (st : StopId) (x : Nat) : (delOutst s st x).rimHold = s.rimHold := rfl
@[simp] theorem delOutst_parked (st : StopId) (x : Nat) : (delOutst s st x).parked = s.parked := rfl
@[simp] theorem delOutst_ends (st : StopId) (x : Nat) : (delOutst s st x).ends = s.ends := rfl
@[simp] theorem delOutst_pals (st : StopId) (x : Nat) : (delOutst s st x).pals = s.pals := rfl
@[simp] theorem delOutst_bundles (st : StopId) (x : Nat) : (delOutst s st x).bundles = s.bundles := rfl
@[simp] theorem delOutst_cands (st : StopId) (x : Nat) : (delOutst s st x).cands = s.cands := rfl
@[simp] theorem delOutst_hubAt (st : StopId) (x : Nat) : (delOutst s st x).hubAt = s.hubAt := rfl
@[simp] theorem delOutst_identAt (st : StopId) (x : Nat) : (delOutst s st x).identAt = s.identAt := rfl
@[simp] theorem delOutst_timeAt (st : StopId) (x : Nat) : (delOutst s st x).timeAt = s.timeAt := rfl
@[simp] theorem delOutst_timeSentAt (st : StopId) (x : Nat) : (delOutst s st x).timeSentAt = s.timeSentAt := rfl
@[simp] theorem delOutst_otherMaster (st : StopId) (x : Nat) : (delOutst s st x).otherMaster = s.otherMaster := rfl
@[simp] theorem delOutst_slew (st : StopId) (x : Nat) : (delOutst s st x).slew = s.slew := rfl
@[simp] theorem delOutst_slewCtr (st : StopId) (x : Nat) : (delOutst s st x).slewCtr = s.slewCtr := rfl
@[simp] theorem delOutst_seenIds (st : StopId) (x : Nat) : (delOutst s st x).seenIds = s.seenIds := rfl
@[simp] theorem delOutst_keyPend (st : StopId) (x : Nat) : (delOutst s st x).keyPend = s.keyPend := rfl
@[simp] theorem delOutst_scrubAt (st : StopId) (x : Nat) : (delOutst s st x).scrubAt = s.scrubAt := rfl
@[simp] theorem delOutst_lgs (st : StopId) (x : Nat) : (delOutst s st x).lgs = s.lgs := rfl
@[simp] theorem delOutst_rports (st : StopId) (x : Nat) : (delOutst s st x).rports = s.rports := rfl
@[simp] theorem delOutst_engs (st : StopId) (x : Nat) : (delOutst s st x).engs = s.engs := rfl
@[simp] theorem delOutst_slots (st : StopId) (x : Nat) : (delOutst s st x).slots = s.slots := rfl
@[simp] theorem delOutst_oePlan (st : StopId) (x : Nat) : (delOutst s st x).oePlan = s.oePlan := rfl
@[simp] theorem delOutst_ethTx (st : StopId) (x : Nat) : (delOutst s st x).ethTx = s.ethTx := rfl
@[simp] theorem delOutst_ethPause (st : StopId) (x : Nat) : (delOutst s st x).ethPause = s.ethPause := rfl
@[simp] theorem delOutst_queues (st : StopId) (x : Nat) : (delOutst s st x).queues = s.queues := rfl
@[simp] theorem delOutst_shares (st : StopId) (x : Nat) : (delOutst s st x).shares = s.shares := rfl
@[simp] theorem delOutst_hubTlb (st : StopId) (x : Nat) : (delOutst s st x).hubTlb = s.hubTlb := rfl
@[simp] theorem delOutst_hioWays (st : StopId) (x : Nat) : (delOutst s st x).hioWays = s.hioWays := rfl
@[simp] theorem delOutst_sessions (st : StopId) (x : Nat) : (delOutst s st x).sessions = s.sessions := rfl
@[simp] theorem delOutst_inTable (st : StopId) (x : Nat) : (delOutst s st x).inTable = s.inTable := rfl
@[simp] theorem delOutst_spills (st : StopId) (x : Nat) : (delOutst s st x).spills = s.spills := rfl
@[simp] theorem delOutst_spillNo (st : StopId) (x : Nat) : (delOutst s st x).spillNo = s.spillNo := rfl
@[simp] theorem delOutst_ctxKey (st : StopId) (x : Nat) : (delOutst s st x).ctxKey = s.ctxKey := rfl
@[simp] theorem delOutst_cipSeq (st : StopId) (x : Nat) : (delOutst s st x).cipSeq = s.cipSeq := rfl
@[simp] theorem delOutst_unitWin (st : StopId) (x : Nat) : (delOutst s st x).unitWin = s.unitWin := rfl
@[simp] theorem delOutst_resetN (st : StopId) (x : Nat) : (delOutst s st x).resetN = s.resetN := rfl
@[simp] theorem delOutst_dapStatus (st : StopId) (x : Nat) : (delOutst s st x).dapStatus = s.dapStatus := rfl
@[simp] theorem delOutst_dapData (st : StopId) (x : Nat) : (delOutst s st x).dapData = s.dapData := rfl
@[simp] theorem delOutst_dapWait (st : StopId) (x : Nat) : (delOutst s st x).dapWait = s.dapWait := rfl
@[simp] theorem delOutst_tapIr (st : StopId) (x : Nat) : (delOutst s st x).tapIr = s.tapIr := rfl
@[simp] theorem delOutst_tapBit (st : StopId) (x : Nat) : (delOutst s st x).tapBit = s.tapBit := rfl
@[simp] theorem delOutst_tapCells (st : StopId) (x : Nat) : (delOutst s st x).tapCells = s.tapCells := rfl
@[simp] theorem delOutst_tapDrive (st : StopId) (x : Nat) : (delOutst s st x).tapDrive = s.tapDrive := rfl
@[simp] theorem delOutst_tapOut (st : StopId) (x : Nat) : (delOutst s st x).tapOut = s.tapOut := rfl
@[simp] theorem delOutst_rangeSec (st : StopId) (x : Nat) : (delOutst s st x).rangeSec = s.rangeSec := rfl
@[simp] theorem delOutst_rangeTx (st : StopId) (x : Nat) : (delOutst s st x).rangeTx = s.rangeTx := rfl
@[simp] theorem delOutst_rangePois (st : StopId) (x : Nat) : (delOutst s st x).rangePois = s.rangePois := rfl
@[simp] theorem delOutst_sweeping (st : StopId) (x : Nat) : (delOutst s st x).sweeping = s.sweeping := rfl
@[simp] theorem delOutst_wayFuse (st : StopId) (x : Nat) : (delOutst s st x).wayFuse = s.wayFuse := rfl
@[simp] theorem delOutst_degraded (st : StopId) (x : Nat) : (delOutst s st x).degraded = s.degraded := rfl
@[simp] theorem delOutst_lifeAt (st : StopId) (x : Nat) : (delOutst s st x).lifeAt = s.lifeAt := rfl
@[simp] theorem delOutst_rs (st : StopId) (x : Nat) : (delOutst s st x).rs = s.rs := rfl
@[simp] theorem delOutst_mp (st : StopId) (x : Nat) : (delOutst s st x).mp = s.mp := rfl
@[simp] theorem delOutst_pw (st : StopId) (x : Nat) : (delOutst s st x).pw = s.pw := rfl

@[simp] theorem memRawSet_pending (l : Nat) (d : LineData) : (memRawSet s l d).pending = s.pending := rfl
@[simp] theorem memRawSet_ptime (l : Nat) (d : LineData) : (memRawSet s l d).ptime = s.ptime := rfl
@[simp] theorem memRawSet_freeCtr (l : Nat) (d : LineData) : (memRawSet s l d).freeCtr = s.freeCtr := rfl
@[simp] theorem memRawSet_regs (l : Nat) (d : LineData) : (memRawSet s l d).regs = s.regs := rfl
@[simp] theorem memRawSet_cores (l : Nat) (d : LineData) : (memRawSet s l d).cores = s.cores := rfl
@[simp] theorem memRawSet_poisoned (l : Nat) (d : LineData) : (memRawSet s l d).poisoned = s.poisoned := rfl
@[simp] theorem memRawSet_lines (l : Nat) (d : LineData) : (memRawSet s l d).lines = s.lines := rfl
@[simp] theorem memRawSet_l3 (l : Nat) (d : LineData) : (memRawSet s l d).l3 = s.l3 := rfl
@[simp] theorem memRawSet_dir (l : Nat) (d : LineData) : (memRawSet s l d).dir = s.dir := rfl
@[simp] theorem memRawSet_busy (l : Nat) (d : LineData) : (memRawSet s l d).busy = s.busy := rfl
@[simp] theorem memRawSet_dirWait (l : Nat) (d : LineData) : (memRawSet s l d).dirWait = s.dirWait := rfl
@[simp] theorem memRawSet_agentOps (l : Nat) (d : LineData) : (memRawSet s l d).agentOps = s.agentOps := rfl
@[simp] theorem memRawSet_farLast (l : Nat) (d : LineData) : (memRawSet s l d).farLast = s.farLast := rfl
@[simp] theorem memRawSet_net (l : Nat) (d : LineData) : (memRawSet s l d).net = s.net := rfl
@[simp] theorem memRawSet_sendNo (l : Nat) (d : LineData) : (memRawSet s l d).sendNo = s.sendNo := rfl
@[simp] theorem memRawSet_txNext (l : Nat) (d : LineData) : (memRawSet s l d).txNext = s.txNext := rfl
@[simp] theorem memRawSet_outst (l : Nat) (d : LineData) : (memRawSet s l d).outst = s.outst := rfl
@[simp] theorem memRawSet_hubTx (l : Nat) (d : LineData) : (memRawSet s l d).hubTx = s.hubTx := rfl
@[simp] theorem memRawSet_quarantine (l : Nat) (d : LineData) : (memRawSet s l d).quarantine = s.quarantine := rfl
@[simp] theorem memRawSet_l3Lfsr (l : Nat) (d : LineData) : (memRawSet s l d).l3Lfsr = s.l3Lfsr := rfl
@[simp] theorem memRawSet_hioLfsr (l : Nat) (d : LineData) : (memRawSet s l d).hioLfsr = s.hioLfsr := rfl
@[simp] theorem memRawSet_dirLfsr (l : Nat) (d : LineData) : (memRawSet s l d).dirLfsr = s.dirLfsr := rfl
@[simp] theorem memRawSet_wayWin (l : Nat) (d : LineData) : (memRawSet s l d).wayWin = s.wayWin := rfl
@[simp] theorem memRawSet_walks (l : Nat) (d : LineData) : (memRawSet s l d).walks = s.walks := rfl
@[simp] theorem memRawSet_walkRun (l : Nat) (d : LineData) : (memRawSet s l d).walkRun = s.walkRun := rfl
@[simp] theorem memRawSet_hashChs (l : Nat) (d : LineData) : (memRawSet s l d).hashChs = s.hashChs := rfl
@[simp] theorem memRawSet_hashHomes (l : Nat) (d : LineData) : (memRawSet s l d).hashHomes = s.hashHomes := rfl
@[simp] theorem memRawSet_keys (l : Nat) (d : LineData) : (memRawSet s l d).keys = s.keys := rfl
@[simp] theorem memRawSet_pkg (l : Nat) (d : LineData) : (memRawSet s l d).pkg = s.pkg := rfl
@[simp] theorem memRawSet_admitted (l : Nat) (d : LineData) : (memRawSet s l d).admitted = s.admitted := rfl
@[simp] theorem memRawSet_peerDram (l : Nat) (d : LineData) : (memRawSet s l d).peerDram = s.peerDram := rfl
@[simp] theorem memRawSet_fencedStk (l : Nat) (d : LineData) : (memRawSet s l d).fencedStk = s.fencedStk := rfl
@[simp] theorem memRawSet_mpSram (l : Nat) (d : LineData) : (memRawSet s l d).mpSram = s.mpSram := rfl
@[simp] theorem memRawSet_flash (l : Nat) (d : LineData) : (memRawSet s l d).flash = s.flash := rfl
@[simp] theorem memRawSet_mpwin (l : Nat) (d : LineData) : (memRawSet s l d).mpwin = s.mpwin := rfl
@[simp] theorem memRawSet_mpPend (l : Nat) (d : LineData) : (memRawSet s l d).mpPend = s.mpPend := rfl
@[simp] theorem memRawSet_mpEn (l : Nat) (d : LineData) : (memRawSet s l d).mpEn = s.mpEn := rfl
@[simp] theorem memRawSet_mpHeld (l : Nat) (d : LineData) : (memRawSet s l d).mpHeld = s.mpHeld := rfl
@[simp] theorem memRawSet_mpRead (l : Nat) (d : LineData) : (memRawSet s l d).mpRead = s.mpRead := rfl
@[simp] theorem memRawSet_dbgFuse (l : Nat) (d : LineData) : (memRawSet s l d).dbgFuse = s.dbgFuse := rfl
@[simp] theorem memRawSet_dbgPolicy (l : Nat) (d : LineData) : (memRawSet s l d).dbgPolicy = s.dbgPolicy := rfl
@[simp] theorem memRawSet_features (l : Nat) (d : LineData) : (memRawSet s l d).features = s.features := rfl
@[simp] theorem memRawSet_tbMode (l : Nat) (d : LineData) : (memRawSet s l d).tbMode = s.tbMode := rfl
@[simp] theorem memRawSet_stk (l : Nat) (d : LineData) : (memRawSet s l d).stk = s.stk := rfl
@[simp] theorem memRawSet_fabOff (l : Nat) (d : LineData) : (memRawSet s l d).fabOff = s.fabOff := rfl
@[simp] theorem memRawSet_fabDrift (l : Nat) (d : LineData) : (memRawSet s l d).fabDrift = s.fabDrift := rfl
@[simp] theorem memRawSet_fabAgeAt (l : Nat) (d : LineData) : (memRawSet s l d).fabAgeAt = s.fabAgeAt := rfl
@[simp] theorem memRawSet_coreFuse (l : Nat) (d : LineData) : (memRawSet s l d).coreFuse = s.coreFuse := rfl
@[simp] theorem memRawSet_hlog (l : Nat) (d : LineData) : (memRawSet s l d).hlog = s.hlog := rfl
@[simp] theorem memRawSet_vstby (l : Nat) (d : LineData) : (memRawSet s l d).vstby = s.vstby := rfl
@[simp] theorem memRawSet_vin (l : Nat) (d : LineData) : (memRawSet s l d).vin = s.vin := rfl
@[simp] theorem memRawSet_tinvQ (l : Nat) (d : LineData) : (memRawSet s l d).tinvQ = s.tinvQ := rfl
@[simp] theorem memRawSet_bcasts (l : Nat) (d : LineData) : (memRawSet s l d).bcasts = s.bcasts := rfl
@[simp] theorem memRawSet_bcastSeq (l : Nat) (d : LineData) : (memRawSet s l d).bcastSeq = s.bcastSeq := rfl
@[simp] theorem memRawSet_tokens (l : Nat) (d : LineData) : (memRawSet s l d).tokens = s.tokens := rfl
@[simp] theorem memRawSet_tokenAt (l : Nat) (d : LineData) : (memRawSet s l d).tokenAt = s.tokenAt := rfl
@[simp] theorem memRawSet_gHeld (l : Nat) (d : LineData) : (memRawSet s l d).gHeld = s.gHeld := rfl
@[simp] theorem memRawSet_arbPtr (l : Nat) (d : LineData) : (memRawSet s l d).arbPtr = s.arbPtr := rfl
@[simp] theorem memRawSet_fstopAt (l : Nat) (d : LineData) : (memRawSet s l d).fstopAt = s.fstopAt := rfl
@[simp] theorem memRawSet_seg (l : Nat) (d : LineData) : (memRawSet s l d).seg = s.seg := rfl
@[simp] theorem memRawSet_rimHold (l : Nat) (d : LineData) : (memRawSet s l d).rimHold = s.rimHold := rfl
@[simp] theorem memRawSet_parked (l : Nat) (d : LineData) : (memRawSet s l d).parked = s.parked := rfl
@[simp] theorem memRawSet_ends (l : Nat) (d : LineData) : (memRawSet s l d).ends = s.ends := rfl
@[simp] theorem memRawSet_pals (l : Nat) (d : LineData) : (memRawSet s l d).pals = s.pals := rfl
@[simp] theorem memRawSet_bundles (l : Nat) (d : LineData) : (memRawSet s l d).bundles = s.bundles := rfl
@[simp] theorem memRawSet_cands (l : Nat) (d : LineData) : (memRawSet s l d).cands = s.cands := rfl
@[simp] theorem memRawSet_hubAt (l : Nat) (d : LineData) : (memRawSet s l d).hubAt = s.hubAt := rfl
@[simp] theorem memRawSet_identAt (l : Nat) (d : LineData) : (memRawSet s l d).identAt = s.identAt := rfl
@[simp] theorem memRawSet_timeAt (l : Nat) (d : LineData) : (memRawSet s l d).timeAt = s.timeAt := rfl
@[simp] theorem memRawSet_timeSentAt (l : Nat) (d : LineData) : (memRawSet s l d).timeSentAt = s.timeSentAt := rfl
@[simp] theorem memRawSet_otherMaster (l : Nat) (d : LineData) : (memRawSet s l d).otherMaster = s.otherMaster := rfl
@[simp] theorem memRawSet_slew (l : Nat) (d : LineData) : (memRawSet s l d).slew = s.slew := rfl
@[simp] theorem memRawSet_slewCtr (l : Nat) (d : LineData) : (memRawSet s l d).slewCtr = s.slewCtr := rfl
@[simp] theorem memRawSet_seenIds (l : Nat) (d : LineData) : (memRawSet s l d).seenIds = s.seenIds := rfl
@[simp] theorem memRawSet_keyPend (l : Nat) (d : LineData) : (memRawSet s l d).keyPend = s.keyPend := rfl
@[simp] theorem memRawSet_scrubAt (l : Nat) (d : LineData) : (memRawSet s l d).scrubAt = s.scrubAt := rfl
@[simp] theorem memRawSet_lgs (l : Nat) (d : LineData) : (memRawSet s l d).lgs = s.lgs := rfl
@[simp] theorem memRawSet_rports (l : Nat) (d : LineData) : (memRawSet s l d).rports = s.rports := rfl
@[simp] theorem memRawSet_engs (l : Nat) (d : LineData) : (memRawSet s l d).engs = s.engs := rfl
@[simp] theorem memRawSet_slots (l : Nat) (d : LineData) : (memRawSet s l d).slots = s.slots := rfl
@[simp] theorem memRawSet_oePlan (l : Nat) (d : LineData) : (memRawSet s l d).oePlan = s.oePlan := rfl
@[simp] theorem memRawSet_ethTx (l : Nat) (d : LineData) : (memRawSet s l d).ethTx = s.ethTx := rfl
@[simp] theorem memRawSet_ethPause (l : Nat) (d : LineData) : (memRawSet s l d).ethPause = s.ethPause := rfl
@[simp] theorem memRawSet_queues (l : Nat) (d : LineData) : (memRawSet s l d).queues = s.queues := rfl
@[simp] theorem memRawSet_shares (l : Nat) (d : LineData) : (memRawSet s l d).shares = s.shares := rfl
@[simp] theorem memRawSet_hubTlb (l : Nat) (d : LineData) : (memRawSet s l d).hubTlb = s.hubTlb := rfl
@[simp] theorem memRawSet_hioWays (l : Nat) (d : LineData) : (memRawSet s l d).hioWays = s.hioWays := rfl
@[simp] theorem memRawSet_sessions (l : Nat) (d : LineData) : (memRawSet s l d).sessions = s.sessions := rfl
@[simp] theorem memRawSet_inTable (l : Nat) (d : LineData) : (memRawSet s l d).inTable = s.inTable := rfl
@[simp] theorem memRawSet_spills (l : Nat) (d : LineData) : (memRawSet s l d).spills = s.spills := rfl
@[simp] theorem memRawSet_spillNo (l : Nat) (d : LineData) : (memRawSet s l d).spillNo = s.spillNo := rfl
@[simp] theorem memRawSet_ctxKey (l : Nat) (d : LineData) : (memRawSet s l d).ctxKey = s.ctxKey := rfl
@[simp] theorem memRawSet_cipSeq (l : Nat) (d : LineData) : (memRawSet s l d).cipSeq = s.cipSeq := rfl
@[simp] theorem memRawSet_unitWin (l : Nat) (d : LineData) : (memRawSet s l d).unitWin = s.unitWin := rfl
@[simp] theorem memRawSet_resetN (l : Nat) (d : LineData) : (memRawSet s l d).resetN = s.resetN := rfl
@[simp] theorem memRawSet_dapStatus (l : Nat) (d : LineData) : (memRawSet s l d).dapStatus = s.dapStatus := rfl
@[simp] theorem memRawSet_dapData (l : Nat) (d : LineData) : (memRawSet s l d).dapData = s.dapData := rfl
@[simp] theorem memRawSet_dapWait (l : Nat) (d : LineData) : (memRawSet s l d).dapWait = s.dapWait := rfl
@[simp] theorem memRawSet_tapIr (l : Nat) (d : LineData) : (memRawSet s l d).tapIr = s.tapIr := rfl
@[simp] theorem memRawSet_tapBit (l : Nat) (d : LineData) : (memRawSet s l d).tapBit = s.tapBit := rfl
@[simp] theorem memRawSet_tapCells (l : Nat) (d : LineData) : (memRawSet s l d).tapCells = s.tapCells := rfl
@[simp] theorem memRawSet_tapDrive (l : Nat) (d : LineData) : (memRawSet s l d).tapDrive = s.tapDrive := rfl
@[simp] theorem memRawSet_tapOut (l : Nat) (d : LineData) : (memRawSet s l d).tapOut = s.tapOut := rfl
@[simp] theorem memRawSet_rangeSec (l : Nat) (d : LineData) : (memRawSet s l d).rangeSec = s.rangeSec := rfl
@[simp] theorem memRawSet_rangeTx (l : Nat) (d : LineData) : (memRawSet s l d).rangeTx = s.rangeTx := rfl
@[simp] theorem memRawSet_rangePois (l : Nat) (d : LineData) : (memRawSet s l d).rangePois = s.rangePois := rfl
@[simp] theorem memRawSet_sweeping (l : Nat) (d : LineData) : (memRawSet s l d).sweeping = s.sweeping := rfl
@[simp] theorem memRawSet_wayFuse (l : Nat) (d : LineData) : (memRawSet s l d).wayFuse = s.wayFuse := rfl
@[simp] theorem memRawSet_degraded (l : Nat) (d : LineData) : (memRawSet s l d).degraded = s.degraded := rfl
@[simp] theorem memRawSet_lifeAt (l : Nat) (d : LineData) : (memRawSet s l d).lifeAt = s.lifeAt := rfl
@[simp] theorem memRawSet_rs (l : Nat) (d : LineData) : (memRawSet s l d).rs = s.rs := rfl
@[simp] theorem memRawSet_mp (l : Nat) (d : LineData) : (memRawSet s l d).mp = s.mp := rfl
@[simp] theorem memRawSet_pw (l : Nat) (d : LineData) : (memRawSet s l d).pw = s.pw := rfl

@[simp] theorem setMemPoison_pending (l : Nat) (b : Bool) : (setMemPoison s l b).pending = s.pending := rfl
@[simp] theorem setMemPoison_ptime (l : Nat) (b : Bool) : (setMemPoison s l b).ptime = s.ptime := rfl
@[simp] theorem setMemPoison_freeCtr (l : Nat) (b : Bool) : (setMemPoison s l b).freeCtr = s.freeCtr := rfl
@[simp] theorem setMemPoison_regs (l : Nat) (b : Bool) : (setMemPoison s l b).regs = s.regs := rfl
@[simp] theorem setMemPoison_cores (l : Nat) (b : Bool) : (setMemPoison s l b).cores = s.cores := rfl
@[simp] theorem setMemPoison_dram (l : Nat) (b : Bool) : (setMemPoison s l b).dram = s.dram := rfl
@[simp] theorem setMemPoison_lines (l : Nat) (b : Bool) : (setMemPoison s l b).lines = s.lines := rfl
@[simp] theorem setMemPoison_l3 (l : Nat) (b : Bool) : (setMemPoison s l b).l3 = s.l3 := rfl
@[simp] theorem setMemPoison_dir (l : Nat) (b : Bool) : (setMemPoison s l b).dir = s.dir := rfl
@[simp] theorem setMemPoison_busy (l : Nat) (b : Bool) : (setMemPoison s l b).busy = s.busy := rfl
@[simp] theorem setMemPoison_dirWait (l : Nat) (b : Bool) : (setMemPoison s l b).dirWait = s.dirWait := rfl
@[simp] theorem setMemPoison_agentOps (l : Nat) (b : Bool) : (setMemPoison s l b).agentOps = s.agentOps := rfl
@[simp] theorem setMemPoison_farLast (l : Nat) (b : Bool) : (setMemPoison s l b).farLast = s.farLast := rfl
@[simp] theorem setMemPoison_net (l : Nat) (b : Bool) : (setMemPoison s l b).net = s.net := rfl
@[simp] theorem setMemPoison_sendNo (l : Nat) (b : Bool) : (setMemPoison s l b).sendNo = s.sendNo := rfl
@[simp] theorem setMemPoison_txNext (l : Nat) (b : Bool) : (setMemPoison s l b).txNext = s.txNext := rfl
@[simp] theorem setMemPoison_outst (l : Nat) (b : Bool) : (setMemPoison s l b).outst = s.outst := rfl
@[simp] theorem setMemPoison_hubTx (l : Nat) (b : Bool) : (setMemPoison s l b).hubTx = s.hubTx := rfl
@[simp] theorem setMemPoison_quarantine (l : Nat) (b : Bool) : (setMemPoison s l b).quarantine = s.quarantine := rfl
@[simp] theorem setMemPoison_l3Lfsr (l : Nat) (b : Bool) : (setMemPoison s l b).l3Lfsr = s.l3Lfsr := rfl
@[simp] theorem setMemPoison_hioLfsr (l : Nat) (b : Bool) : (setMemPoison s l b).hioLfsr = s.hioLfsr := rfl
@[simp] theorem setMemPoison_dirLfsr (l : Nat) (b : Bool) : (setMemPoison s l b).dirLfsr = s.dirLfsr := rfl
@[simp] theorem setMemPoison_wayWin (l : Nat) (b : Bool) : (setMemPoison s l b).wayWin = s.wayWin := rfl
@[simp] theorem setMemPoison_walks (l : Nat) (b : Bool) : (setMemPoison s l b).walks = s.walks := rfl
@[simp] theorem setMemPoison_walkRun (l : Nat) (b : Bool) : (setMemPoison s l b).walkRun = s.walkRun := rfl
@[simp] theorem setMemPoison_hashChs (l : Nat) (b : Bool) : (setMemPoison s l b).hashChs = s.hashChs := rfl
@[simp] theorem setMemPoison_hashHomes (l : Nat) (b : Bool) : (setMemPoison s l b).hashHomes = s.hashHomes := rfl
@[simp] theorem setMemPoison_keys (l : Nat) (b : Bool) : (setMemPoison s l b).keys = s.keys := rfl
@[simp] theorem setMemPoison_pkg (l : Nat) (b : Bool) : (setMemPoison s l b).pkg = s.pkg := rfl
@[simp] theorem setMemPoison_admitted (l : Nat) (b : Bool) : (setMemPoison s l b).admitted = s.admitted := rfl
@[simp] theorem setMemPoison_peerDram (l : Nat) (b : Bool) : (setMemPoison s l b).peerDram = s.peerDram := rfl
@[simp] theorem setMemPoison_fencedStk (l : Nat) (b : Bool) : (setMemPoison s l b).fencedStk = s.fencedStk := rfl
@[simp] theorem setMemPoison_mpSram (l : Nat) (b : Bool) : (setMemPoison s l b).mpSram = s.mpSram := rfl
@[simp] theorem setMemPoison_flash (l : Nat) (b : Bool) : (setMemPoison s l b).flash = s.flash := rfl
@[simp] theorem setMemPoison_mpwin (l : Nat) (b : Bool) : (setMemPoison s l b).mpwin = s.mpwin := rfl
@[simp] theorem setMemPoison_mpPend (l : Nat) (b : Bool) : (setMemPoison s l b).mpPend = s.mpPend := rfl
@[simp] theorem setMemPoison_mpEn (l : Nat) (b : Bool) : (setMemPoison s l b).mpEn = s.mpEn := rfl
@[simp] theorem setMemPoison_mpHeld (l : Nat) (b : Bool) : (setMemPoison s l b).mpHeld = s.mpHeld := rfl
@[simp] theorem setMemPoison_mpRead (l : Nat) (b : Bool) : (setMemPoison s l b).mpRead = s.mpRead := rfl
@[simp] theorem setMemPoison_dbgFuse (l : Nat) (b : Bool) : (setMemPoison s l b).dbgFuse = s.dbgFuse := rfl
@[simp] theorem setMemPoison_dbgPolicy (l : Nat) (b : Bool) : (setMemPoison s l b).dbgPolicy = s.dbgPolicy := rfl
@[simp] theorem setMemPoison_features (l : Nat) (b : Bool) : (setMemPoison s l b).features = s.features := rfl
@[simp] theorem setMemPoison_tbMode (l : Nat) (b : Bool) : (setMemPoison s l b).tbMode = s.tbMode := rfl
@[simp] theorem setMemPoison_stk (l : Nat) (b : Bool) : (setMemPoison s l b).stk = s.stk := rfl
@[simp] theorem setMemPoison_fabOff (l : Nat) (b : Bool) : (setMemPoison s l b).fabOff = s.fabOff := rfl
@[simp] theorem setMemPoison_fabDrift (l : Nat) (b : Bool) : (setMemPoison s l b).fabDrift = s.fabDrift := rfl
@[simp] theorem setMemPoison_fabAgeAt (l : Nat) (b : Bool) : (setMemPoison s l b).fabAgeAt = s.fabAgeAt := rfl
@[simp] theorem setMemPoison_coreFuse (l : Nat) (b : Bool) : (setMemPoison s l b).coreFuse = s.coreFuse := rfl
@[simp] theorem setMemPoison_hlog (l : Nat) (b : Bool) : (setMemPoison s l b).hlog = s.hlog := rfl
@[simp] theorem setMemPoison_vstby (l : Nat) (b : Bool) : (setMemPoison s l b).vstby = s.vstby := rfl
@[simp] theorem setMemPoison_vin (l : Nat) (b : Bool) : (setMemPoison s l b).vin = s.vin := rfl
@[simp] theorem setMemPoison_tinvQ (l : Nat) (b : Bool) : (setMemPoison s l b).tinvQ = s.tinvQ := rfl
@[simp] theorem setMemPoison_bcasts (l : Nat) (b : Bool) : (setMemPoison s l b).bcasts = s.bcasts := rfl
@[simp] theorem setMemPoison_bcastSeq (l : Nat) (b : Bool) : (setMemPoison s l b).bcastSeq = s.bcastSeq := rfl
@[simp] theorem setMemPoison_tokens (l : Nat) (b : Bool) : (setMemPoison s l b).tokens = s.tokens := rfl
@[simp] theorem setMemPoison_tokenAt (l : Nat) (b : Bool) : (setMemPoison s l b).tokenAt = s.tokenAt := rfl
@[simp] theorem setMemPoison_gHeld (l : Nat) (b : Bool) : (setMemPoison s l b).gHeld = s.gHeld := rfl
@[simp] theorem setMemPoison_arbPtr (l : Nat) (b : Bool) : (setMemPoison s l b).arbPtr = s.arbPtr := rfl
@[simp] theorem setMemPoison_fstopAt (l : Nat) (b : Bool) : (setMemPoison s l b).fstopAt = s.fstopAt := rfl
@[simp] theorem setMemPoison_seg (l : Nat) (b : Bool) : (setMemPoison s l b).seg = s.seg := rfl
@[simp] theorem setMemPoison_rimHold (l : Nat) (b : Bool) : (setMemPoison s l b).rimHold = s.rimHold := rfl
@[simp] theorem setMemPoison_parked (l : Nat) (b : Bool) : (setMemPoison s l b).parked = s.parked := rfl
@[simp] theorem setMemPoison_ends (l : Nat) (b : Bool) : (setMemPoison s l b).ends = s.ends := rfl
@[simp] theorem setMemPoison_pals (l : Nat) (b : Bool) : (setMemPoison s l b).pals = s.pals := rfl
@[simp] theorem setMemPoison_bundles (l : Nat) (b : Bool) : (setMemPoison s l b).bundles = s.bundles := rfl
@[simp] theorem setMemPoison_cands (l : Nat) (b : Bool) : (setMemPoison s l b).cands = s.cands := rfl
@[simp] theorem setMemPoison_hubAt (l : Nat) (b : Bool) : (setMemPoison s l b).hubAt = s.hubAt := rfl
@[simp] theorem setMemPoison_identAt (l : Nat) (b : Bool) : (setMemPoison s l b).identAt = s.identAt := rfl
@[simp] theorem setMemPoison_timeAt (l : Nat) (b : Bool) : (setMemPoison s l b).timeAt = s.timeAt := rfl
@[simp] theorem setMemPoison_timeSentAt (l : Nat) (b : Bool) : (setMemPoison s l b).timeSentAt = s.timeSentAt := rfl
@[simp] theorem setMemPoison_otherMaster (l : Nat) (b : Bool) : (setMemPoison s l b).otherMaster = s.otherMaster := rfl
@[simp] theorem setMemPoison_slew (l : Nat) (b : Bool) : (setMemPoison s l b).slew = s.slew := rfl
@[simp] theorem setMemPoison_slewCtr (l : Nat) (b : Bool) : (setMemPoison s l b).slewCtr = s.slewCtr := rfl
@[simp] theorem setMemPoison_seenIds (l : Nat) (b : Bool) : (setMemPoison s l b).seenIds = s.seenIds := rfl
@[simp] theorem setMemPoison_keyPend (l : Nat) (b : Bool) : (setMemPoison s l b).keyPend = s.keyPend := rfl
@[simp] theorem setMemPoison_scrubAt (l : Nat) (b : Bool) : (setMemPoison s l b).scrubAt = s.scrubAt := rfl
@[simp] theorem setMemPoison_lgs (l : Nat) (b : Bool) : (setMemPoison s l b).lgs = s.lgs := rfl
@[simp] theorem setMemPoison_rports (l : Nat) (b : Bool) : (setMemPoison s l b).rports = s.rports := rfl
@[simp] theorem setMemPoison_engs (l : Nat) (b : Bool) : (setMemPoison s l b).engs = s.engs := rfl
@[simp] theorem setMemPoison_slots (l : Nat) (b : Bool) : (setMemPoison s l b).slots = s.slots := rfl
@[simp] theorem setMemPoison_oePlan (l : Nat) (b : Bool) : (setMemPoison s l b).oePlan = s.oePlan := rfl
@[simp] theorem setMemPoison_ethTx (l : Nat) (b : Bool) : (setMemPoison s l b).ethTx = s.ethTx := rfl
@[simp] theorem setMemPoison_ethPause (l : Nat) (b : Bool) : (setMemPoison s l b).ethPause = s.ethPause := rfl
@[simp] theorem setMemPoison_queues (l : Nat) (b : Bool) : (setMemPoison s l b).queues = s.queues := rfl
@[simp] theorem setMemPoison_shares (l : Nat) (b : Bool) : (setMemPoison s l b).shares = s.shares := rfl
@[simp] theorem setMemPoison_hubTlb (l : Nat) (b : Bool) : (setMemPoison s l b).hubTlb = s.hubTlb := rfl
@[simp] theorem setMemPoison_hioWays (l : Nat) (b : Bool) : (setMemPoison s l b).hioWays = s.hioWays := rfl
@[simp] theorem setMemPoison_sessions (l : Nat) (b : Bool) : (setMemPoison s l b).sessions = s.sessions := rfl
@[simp] theorem setMemPoison_inTable (l : Nat) (b : Bool) : (setMemPoison s l b).inTable = s.inTable := rfl
@[simp] theorem setMemPoison_spills (l : Nat) (b : Bool) : (setMemPoison s l b).spills = s.spills := rfl
@[simp] theorem setMemPoison_spillNo (l : Nat) (b : Bool) : (setMemPoison s l b).spillNo = s.spillNo := rfl
@[simp] theorem setMemPoison_ctxKey (l : Nat) (b : Bool) : (setMemPoison s l b).ctxKey = s.ctxKey := rfl
@[simp] theorem setMemPoison_cipSeq (l : Nat) (b : Bool) : (setMemPoison s l b).cipSeq = s.cipSeq := rfl
@[simp] theorem setMemPoison_unitWin (l : Nat) (b : Bool) : (setMemPoison s l b).unitWin = s.unitWin := rfl
@[simp] theorem setMemPoison_resetN (l : Nat) (b : Bool) : (setMemPoison s l b).resetN = s.resetN := rfl
@[simp] theorem setMemPoison_dapStatus (l : Nat) (b : Bool) : (setMemPoison s l b).dapStatus = s.dapStatus := rfl
@[simp] theorem setMemPoison_dapData (l : Nat) (b : Bool) : (setMemPoison s l b).dapData = s.dapData := rfl
@[simp] theorem setMemPoison_dapWait (l : Nat) (b : Bool) : (setMemPoison s l b).dapWait = s.dapWait := rfl
@[simp] theorem setMemPoison_tapIr (l : Nat) (b : Bool) : (setMemPoison s l b).tapIr = s.tapIr := rfl
@[simp] theorem setMemPoison_tapBit (l : Nat) (b : Bool) : (setMemPoison s l b).tapBit = s.tapBit := rfl
@[simp] theorem setMemPoison_tapCells (l : Nat) (b : Bool) : (setMemPoison s l b).tapCells = s.tapCells := rfl
@[simp] theorem setMemPoison_tapDrive (l : Nat) (b : Bool) : (setMemPoison s l b).tapDrive = s.tapDrive := rfl
@[simp] theorem setMemPoison_tapOut (l : Nat) (b : Bool) : (setMemPoison s l b).tapOut = s.tapOut := rfl
@[simp] theorem setMemPoison_rangeSec (l : Nat) (b : Bool) : (setMemPoison s l b).rangeSec = s.rangeSec := rfl
@[simp] theorem setMemPoison_rangeTx (l : Nat) (b : Bool) : (setMemPoison s l b).rangeTx = s.rangeTx := rfl
@[simp] theorem setMemPoison_rangePois (l : Nat) (b : Bool) : (setMemPoison s l b).rangePois = s.rangePois := rfl
@[simp] theorem setMemPoison_sweeping (l : Nat) (b : Bool) : (setMemPoison s l b).sweeping = s.sweeping := rfl
@[simp] theorem setMemPoison_wayFuse (l : Nat) (b : Bool) : (setMemPoison s l b).wayFuse = s.wayFuse := rfl
@[simp] theorem setMemPoison_degraded (l : Nat) (b : Bool) : (setMemPoison s l b).degraded = s.degraded := rfl
@[simp] theorem setMemPoison_lifeAt (l : Nat) (b : Bool) : (setMemPoison s l b).lifeAt = s.lifeAt := rfl
@[simp] theorem setMemPoison_rs (l : Nat) (b : Bool) : (setMemPoison s l b).rs = s.rs := rfl
@[simp] theorem setMemPoison_mp (l : Nat) (b : Bool) : (setMemPoison s l b).mp = s.mp := rfl
@[simp] theorem setMemPoison_pw (l : Nat) (b : Bool) : (setMemPoison s l b).pw = s.pw := rfl

@[simp] theorem State.setPending_pending (q : List Instr) : (State.setPending s q).pending = q := rfl

end Sys2Proof.Machine
end

