-- ==== Sys2Proof/Laws/Tab.lean ====
section
/-! SUPPORT. Laws of the sparse tables: a read after a write, and the canonical form, which every write keeps. -/
namespace Sys2Proof.Machine

variable {α : Type}

/-- Every key is above b. -/
def tabove (b : Nat) (t : Tab α) : Prop := ∀ p ∈ t, b < p.1

@[simp] theorem tget_nil (d : α) (k : Nat) : tget d k ([] : Tab α) = d := rfl

theorem tget_terase_ne {d : α} {j k : Nat} (h : j ≠ k) : ∀ t : Tab α, tget d j (terase k t) = tget d j t
  | [] => rfl
  | (i, w) :: t => by
    have ih := tget_terase_ne (d := d) h t
    unfold terase at ih ⊢
    by_cases hk : i = k
    · have : (i != k) = false := by simp [hk]
      rw [List.filter_cons_of_neg (by simp [hk]), ih]
      simp [tget, hk, Ne.symm h]
    · rw [List.filter_cons_of_pos (by simp [hk])]
      simp only [tget, ih]

theorem tget_terase_same {d : α} {k : Nat} : ∀ t : Tab α, tget d k (terase k t) = d
  | [] => rfl
  | (i, w) :: t => by
    have ih := tget_terase_same (d := d) (k := k) t
    unfold terase at ih ⊢
    by_cases hk : i = k
    · rw [List.filter_cons_of_neg (by simp [hk]), ih]
    · rw [List.filter_cons_of_pos (by simp [hk])]
      simp only [tget, ih, if_neg hk]

theorem tget_tinsert_ne {d v : α} {j k : Nat} (h : j ≠ k) : ∀ t : Tab α, tget d j (tinsert k v t) = tget d j t
  | [] => by simp [tinsert, tget, Ne.symm h]
  | (i, w) :: t => by
    have ih := tget_tinsert_ne (d := d) (v := v) h t
    unfold tinsert
    split
    · simp [tget, Ne.symm h]
    · simp only [tget, ih]

theorem tget_tinsert_same {d v : α} {k : Nat} : ∀ t : Tab α, (∀ p ∈ t, p.1 ≠ k) → tget d k (tinsert k v t) = v
  | [], _ => by simp [tinsert, tget]
  | (i, w) :: t, h => by
    have ih := tget_tinsert_same (d := d) (v := v) t (fun p hp => h p (List.mem_cons_of_mem _ hp))
    have hi : i ≠ k := h (i, w) (List.mem_cons_self ..)
    unfold tinsert
    split
    · simp [tget]
    · simp only [tget, if_neg hi, ih]

theorem terase_ne_key {k : Nat} (t : Tab α) : ∀ p ∈ terase k t, p.1 ≠ k := by
  intro p hp
  have := (List.mem_filter.mp hp).2
  simpa using this

/-- A read after a write of the same key gives what was written. -/
@[simp] theorem tget_tset_same [DecidableEq α] {d v : α} {k : Nat} (t : Tab α) : tget d k (tset d k v t) = v := by
  unfold tset
  split
  · rename_i h; rw [tget_terase_same, h]
  · exact tget_tinsert_same _ (terase_ne_key t)

/-- A write leaves every other key alone. -/
theorem tget_tset_ne [DecidableEq α] {d d' v : α} {j k : Nat} (h : j ≠ k) (t : Tab α) :
    tget d' j (tset d k v t) = tget d' j t := by
  unfold tset
  split
  · exact tget_terase_ne h t
  · rw [tget_tinsert_ne h, tget_terase_ne h]

/-! ### The canonical form -/

theorem twf_cons [DecidableEq α] {d : Nat → α} {k : Nat} {v : α} {t : Tab α} :
    twf d ((k, v) :: t) = true ↔ v ≠ d k ∧ tabove k t ∧ twf d t = true := by
  induction t generalizing k v with
  | nil => simp [twf, tabove]
  | cons p t ih =>
    obtain ⟨j, w⟩ := p
    rw [twf]
    simp only [Bool.and_eq_true, bne_iff_ne, decide_eq_true_eq, ih, tabove, List.mem_cons, forall_eq_or_imp]
    constructor
    · rintro ⟨⟨h1, h2⟩, h3, h4, h5⟩
      exact ⟨h1, ⟨h2, fun p hp => lt_trans h2 (h4 p hp)⟩, h3, h4, h5⟩
    · rintro ⟨h1, ⟨h2, _⟩, h3, h4, h5⟩
      exact ⟨⟨h1, h2⟩, h3, h4, h5⟩

theorem tabove_terase {b k : Nat} {t : Tab α} (h : tabove b t) : tabove b (terase k t) :=
  fun p hp => h p (List.mem_filter.mp hp).1

theorem twf_terase [DecidableEq α] {d : Nat → α} {k : Nat} :
    ∀ t : Tab α, twf d t = true → twf d (terase k t) = true
  | [], h => h
  | (j, w) :: t, h => by
    obtain ⟨h1, h2, h3⟩ := twf_cons.mp h
    have ih := twf_terase (k := k) t h3
    unfold terase at ih ⊢
    by_cases hk : j = k
    · rw [List.filter_cons_of_neg (by simp [hk])]; exact ih
    · rw [List.filter_cons_of_pos (by simp [hk])]
      exact twf_cons.mpr ⟨h1, fun p hp => h2 p (List.mem_filter.mp hp).1, ih⟩

theorem mem_tinsert {k : Nat} {v : α} {p : Nat × α} : ∀ {t : Tab α}, p ∈ tinsert k v t → p = (k, v) ∨ p ∈ t
  | [], h => by simpa [tinsert] using h
  | (j, w) :: t, h => by
    unfold tinsert at h
    split at h
    · simpa using h
    · rcases List.mem_cons.mp h with h | h
      · exact .inr (by simp [h])
      · rcases mem_tinsert h with h | h
        · exact .inl h
        · exact .inr (List.mem_cons_of_mem _ h)

theorem twf_tinsert [DecidableEq α] {d : Nat → α} {k : Nat} {v : α} (hv : v ≠ d k) :
    ∀ t : Tab α, twf d t = true → (∀ p ∈ t, p.1 ≠ k) → twf d (tinsert k v t) = true
  | [], _, _ => by simp [tinsert, twf, hv]
  | (j, w) :: t, h, hk => by
    obtain ⟨h1, h2, h3⟩ := twf_cons.mp h
    have hj : j ≠ k := hk (j, w) (List.mem_cons_self ..)
    unfold tinsert
    split
    · rename_i hlt
      refine twf_cons.mpr ⟨hv, ?_, h⟩
      intro p hp
      rcases List.mem_cons.mp hp with rfl | hp
      · exact hlt
      · exact lt_trans hlt (h2 p hp)
    · rename_i hlt
      refine twf_cons.mpr ⟨h1, ?_, twf_tinsert hv t h3 (fun p hp => hk p (List.mem_cons_of_mem _ hp))⟩
      intro p hp
      rcases mem_tinsert hp with rfl | hp
      · exact lt_of_le_of_ne (not_lt.mp hlt) hj
      · exact h2 p hp

/-- A write keeps the canonical form. -/
theorem twf_tset [DecidableEq α] {d : Nat → α} {k : Nat} {v : α} {t : Tab α} (h : twf d t = true) :
    twf d (tset (d k) k v t) = true := by
  unfold tset
  split
  · exact twf_terase t h
  · rename_i hv
    exact twf_tinsert hv _ (twf_terase t h) (terase_ne_key t)

/-- A fold of writes keeps the canonical form. -/
theorem twf_foldl_tset [DecidableEq α] {d : α} (f : Nat → Nat) (g : Nat → α) (l : List Nat) {t : Tab α}
    (h : twf (fun _ => d) t = true) : twf (fun _ => d) (l.foldl (fun m i => tset d (f i) (g i) m) t) = true := by
  induction l generalizing t with
  | nil => exact h
  | cons i l ih => exact ih (twf_tset (d := fun _ => d) h)

end Sys2Proof.Machine
end

