-- ==== Sys2Proof/Laws/Core.lean ====
section
/-! SUPPORT. What the shared operations over cores do: reads after writes, counting an event, retiring. -/
namespace Sys2Proof.Machine

open Sys2Proof

/-! ### Cores -/

@[simp] theorem core_setCore_same (s : State) (c : Nat) (k : Core) : getCore (setCore s c k) c = k := by
  simp [getCore, setCore]

theorem core_setCore_ne {s : State} {c c' : Nat} {k : Core} (h : c' ≠ c) : getCore (setCore s c k) c' = getCore s c' := by
  unfold getCore setCore
  exact tget_tset_ne h _

/-- Only what a core's record holds decides what its registers read. -/
theorem sysGet_congr {s t : State} {c : Nat} (h : (getCore t c).sys = (getCore s c).sys) (n : Nat) (w : Bool) :
    sysGet t c n w = sysGet s c n w := by
  simp [sysGet, h]

theorem dGet_congr {s t : State} {c : Nat} (h : (getCore t c).d = (getCore s c).d) (r : Nat) : dGet t c r = dGet s c r := by
  simp [dGet, h]

theorem qGet_congr {s t : State} {c : Nat} (h : (getCore t c).q = (getCore s c).q) (r : Nat) : qGet t c r = qGet s c r := by
  simp [qGet, h]

theorem sysEff_congr {s t : State} {c n : Nat} {w : Bool} (h1 : (getCore t c).stale = (getCore s c).stale)
    (h2 : sysGet t c n w = sysGet s c n w) : sysEff t c n w = sysEff s c n w := by
  unfold sysEff
  rw [h1, h2]

theorem aGet_congr {s t : State} {c : Nat} (ha : (getCore t c).a = (getCore s c).a) (hs : (getCore t c).sys = (getCore s c).sys)
    (hc : (getCore t c).cstat = (getCore s c).cstat) (ht : (getCore t c).stale = (getCore s c).stale) (r : Nat) :
    aGet t c r = aGet s c r := by
  unfold aGet
  simp only [plOf, secOf, ha, hc, sysEff_congr ht (sysGet_congr hs _ _)]

/-! ### System registers -/

theorem sysKey_ne {c n m : Nat} {w v : Bool} (h : n ≠ m) (hn : n < 0x1000) (hm : m < 0x1000) : sysKey c n w ≠ sysKey c m v := by
  unfold sysKey
  split <;> split <;> omega

@[simp] theorem sysGet_sysSet_same (s : State) (c n : Nat) (w : Bool) (v : Word) : sysGet (sysSet s c n w v) c n w = v := by
  simp [sysGet, sysSet]

/-- A write of one system register leaves the others. -/
theorem sysGet_sysSet_ne {s : State} {c n m : Nat} {w v : Bool} {x : Word} (h : sysKey c m v ≠ sysKey c n w) :
    sysGet (sysSet s c n w x) c m v = sysGet s c m v := by
  unfold sysGet sysSet
  rw [core_setCore_same]
  exact tget_tset_ne h _

/-! ### Frames -/

theorem CoreOnly.refl (c : Nat) (s : State) : CoreOnly c s s := ⟨rfl, fun _ _ => rfl⟩

theorem CoreOnly.trans {c : Nat} {s t u : State} (h1 : CoreOnly c s t) (h2 : CoreOnly c t u) : CoreOnly c s u := by
  refine ⟨?_, fun c' h => (h2.2 c' h).trans (h1.2 c' h)⟩
  have e1 := h1.1
  have e2 := h2.1
  rw [← e1, ← e2]

theorem CoreOnly.setCore (c : Nat) (s : State) (k : Core) : CoreOnly c s (setCore s c k) :=
  ⟨rfl, fun _ h => core_setCore_ne h⟩

theorem CoreOnly.sysSet (c n : Nat) (s : State) (w : Bool) (v : Word) : CoreOnly c s (sysSet s c n w v) :=
  CoreOnly.setCore ..

theorem CoreOnly.free (c : Nat) (s : State) (n : Nat) : CoreOnly c s { s with freeCtr := n } := ⟨rfl, fun _ _ => rfl⟩

theorem Counted.refl (c : Nat) (s : State) : Counted c s s := ⟨CoreOnly.refl c s, rfl, fun _ _ _ => rfl⟩

theorem Counted.trans {c : Nat} {s t u : State} (h1 : Counted c s t) (h2 : Counted c t u) : Counted c s u where
  only := h1.only.trans h2.only
  same := by
    have e1 := h1.same
    have e2 := h2.same
    rw [← e1, ← e2]
  sys n w h := (h2.sys n w h).trans (h1.sys n w h)

theorem Counted.free (c : Nat) (s : State) (n : Nat) : Counted c s { s with freeCtr := n } :=
  ⟨CoreOnly.free c s n, rfl, fun _ _ _ => rfl⟩

/-- The place in the pipeline step under way (R138). -/
theorem Counted.stepLeft (c : Nat) (s : State) (k : Core) (n : Nat) (h : k = getCore s c) :
    Counted c s (setCore s c { k with stepLeft := n }) where
  only := CoreOnly.setCore ..
  same := by subst h; simp
  sys m w _ := sysGet_congr (by subst h; simp) m w

theorem isCounter_lt {n : Nat} (h : isCounter n = true) : 0x901 ≤ n ∧ n < 0x1000 ∧ n ≠ 0x930 ∧ n ≠ 0x932 := by
  simp [isCounter] at h
  omega

theorem Counted.sysSet {c n : Nat} {s : State} {v : Word} (h : isCounter n = true) : Counted c s (sysSet s c n false v) where
  only := CoreOnly.sysSet ..
  same := by simp [Machine.sysSet]
  sys m w hm := by
    apply sysGet_sysSet_ne
    have := isCounter_lt h
    have hne : m ≠ n := by rintro rfl; simp [h] at hm
    unfold sysKey
    simp only [Bool.and_false, Bool.false_eq_true, if_false]
    split <;> omega

theorem bumpCnt_counted (c : Nat) : ∀ (fuel n : Nat) (s : State), n ≤ 7 → Counted c s (bumpCnt s c fuel n)
  | 0, _, s, _ => Counted.refl c s
  | fuel + 1, n, s, h => by
    unfold bumpCnt
    have hc : isCounter (0x910 + n) = true := by simp [isCounter]; omega
    have h9 : isCounter 0x931 = true := rfl
    dsimp only
    split
    · exact Counted.sysSet hc
    · split
      · exact (Counted.sysSet hc).trans (bumpCnt_counted c fuel (n + 1) _ (by omega))
      · exact (Counted.sysSet hc).trans (Counted.sysSet h9)

theorem foldl_counted {c : Nat} {α : Type} (f : State → α → State) (l : List α)
    (h : ∀ s a, a ∈ l → Counted c s (f s a)) (s : State) : Counted c s (l.foldl f s) := by
  induction l generalizing s with
  | nil => exact Counted.refl c s
  | cons a l ih =>
    exact (h s a (List.mem_cons_self ..)).trans (ih (fun s b hb => h s b (List.mem_cons_of_mem _ hb)) _)

/-- An event that happens, or does not, counts and does nothing else. -/
theorem countIf_counted (s : State) (c ev : Nat) (b : Bool) : Counted c s (countIf s c ev b) := by
  unfold countIf
  split
  · exact Counted.refl c s
  · split
    · refine foldl_counted _ _ (fun s n hn => ?_) s
      dsimp only
      split
      · exact bumpCnt_counted c 2 n s (by have := List.mem_range.mp hn; omega)
      · exact Counted.refl c s
    · exact Counted.refl c s

/-- An event counts, and does nothing else. -/
theorem countEvent_counted (s : State) (c ev : Nat) : Counted c s (countEvent s c ev) := countIf_counted s c ev true

/-- An event that a predictor or a cache decides counts, or does nothing. -/
theorem countFree_counted (s : State) (c ev a : Nat) : Counted c s (countFree s c ev a) := countIf_counted s c ev _

/-- An event counts several times, and does nothing else. -/
theorem countTimes_counted (s : State) (c ev n : Nat) : Counted c s (countTimes s c ev n) :=
  foldl_counted _ _ (fun s _ _ => countEvent_counted s c ev) s

theorem countSteps_counted (s : State) (c n : Nat) : Counted c s (countSteps s c n) := by
  unfold countSteps
  split
  · exact Counted.sysSet rfl
  · exact Counted.refl c s

theorem retireSteps_counted (s : State) (c : Nat) : Counted c s (retireSteps s c) := by
  unfold retireSteps
  dsimp only
  exact ((Counted.free c s _).trans (Counted.stepLeft c _ _ _ rfl)).trans (countSteps_counted ..)

/-- The fields of a core that counting leaves. -/
theorem Counted.fields {c : Nat} {s t : State} (h : Counted c s t) :
    (getCore t c).pc = (getCore s c).pc ∧ (getCore t c).cstat = (getCore s c).cstat ∧ (getCore t c).d = (getCore s c).d ∧
    (getCore t c).a = (getCore s c).a ∧ (getCore t c).q = (getCore s c).q ∧ (getCore t c).resv = (getCore s c).resv ∧
    (getCore t c).stale = (getCore s c).stale ∧ (getCore t c).stepping = (getCore s c).stepping := by
  have e := h.same
  refine ⟨?_, ?_, ?_, ?_, ?_, ?_, ?_, ?_⟩ <;> rw [← e]

theorem spNum_not_counter {pl : Nat} (h : pl < 4) : isCounter (spNum pl) = false := by
  interval_cases pl <;> rfl

theorem plOf_lt (k : Core) : plOf k < 4 := by
  unfold plOf fld
  exact Nat.mod_lt _ (by decide)

theorem Counted.aGet {c : Nat} {s t : State} (h : Counted c s t) (r : Nat) : aGet t c r = aGet s c r := by
  obtain ⟨_, h2, _, h4, _, _, h7, _⟩ := h.fields
  unfold Machine.aGet
  simp only [secOf, plOf, h2, h4]
  split
  · exact sysEff_congr h7 (h.sys _ _ (spNum_not_counter (plOf_lt (getCore s c))))
  · rfl

/-- An instruction that retires with CSTAT.SS = 0 (R74): the PC takes its value, events are counted, and no register changes. -/
theorem retireAt_retired (s : State) (c : Nat) (pc : Word) (h : bit (getCore s c).cstat 7 = false) :
    Retired c s (retireAt s c pc) (dGet s c) (aGet s c) (qGet s c) (trunc c pc) ∧
      (getCore (retireAt s c pc) c).stepping = (getCore s c).stepping := by
  obtain ⟨u, hu, e⟩ : ∃ u, Counted c s u ∧ retireAt s c pc = setCore u c
      { getCore u c with pc := trunc c pc, fails := 0, served := [], asked := [], atSent := false, bpValid := true } := by
    unfold retireAt
    simp only [h, Bool.false_eq_true, if_false]
    refine ⟨_, ?_, rfl⟩
    split
    · exact countEvent_counted s c 3
    · exact (countEvent_counted s c 3).trans (retireSteps_counted ..)
  obtain ⟨_, h2, h3, h4, h5, h6, _, h8⟩ := hu.fields
  rw [e]
  refine ⟨⟨?_, ?_, ?_, ?_, ?_, ?_, ?_, ?_⟩, ?_⟩
  · intro r; exact dGet_congr (by simp [h3]) r
  · intro r
    rw [← hu.aGet]
    exact aGet_congr (by simp) (by simp) (by simp) (by simp) r
  · intro r; exact qGet_congr (by simp [h5]) r
  · simp
  · simp [h2]
  · simp [h6]
  · intro n w _ hn _
    rw [← hu.sys n w hn]
    exact sysGet_congr (by simp) n w
  · exact hu.only.trans (CoreOnly.setCore ..)
  · simp [h8]

/-- The same when the state it retires in differs from u in core c's registers alone. -/
theorem complete_retired {u s : State} {c : Nat} {pc : Word} (ho : CoreOnly c u s)
    (hc : (getCore s c).cstat = (getCore u c).cstat) (hr : (getCore s c).resv = (getCore u c).resv)
    (hy : ∀ n w, n < 0x1000 → isCounter n = false → n ≠ spNum (plOf (getCore u c)) → sysGet s c n w = sysGet u c n w)
    (hs : bit (getCore u c).cstat 7 = false) (hf : (getCore s c).stepping = false) :
    Retired c u (complete s c pc) (dGet s c) (aGet s c) (qGet s c) (trunc c pc) := by
  obtain ⟨r, e⟩ := retireAt_retired s c pc (by rw [hc]; exact hs)
  have : complete s c pc = retireAt s c pc := by
    unfold complete stepHalt
    simp [e, hf]
  rw [this]
  exact ⟨r.d, r.a, r.q, r.pc, r.cstat.trans hc, r.resv.trans hr,
    fun n w hl hn hp => (r.sys n w hl hn (by simpa [plOf, hc] using hp)).trans (hy n w hl hn hp), ho.trans r.rest⟩

end Sys2Proof.Machine
end

