-- ==== Sys2Proof/Laws/Instr.lean ====
section
/-! SUPPORT. What an instruction whose body retires does, once for each kind of destination. -/
namespace Sys2Proof.Machine

open Sys2Proof

/-- The body acts on the fetched state. -/
theorem runInstr_eq {s : State} {c : Nat} {body : State → Res × State} (h : Runs s c) :
    runInstr s c body = endBody (body (fetched s c)).2 c (body (fetched s c)).1 := by
  have hf := h.fetch
  unfold runInstr runAfter fetched
  simp only [h.can, if_true]
  generalize hx : fetchSide (rstDone s 5 c 2) c = x at hf ⊢
  obtain ⟨e, u⟩ := x
  simp only at hf
  subst hf
  rfl

/-- A body that retires. -/
theorem runInstr_done {s : State} {c : Nat} {body : State → Res × State} {pc : Word} {v : State} (h : Runs s c)
    (hb : body (fetched s c) = (.done pc, v)) : runInstr s c body = complete v c pc := by
  rw [runInstr_eq h, hb]
  rfl

/-- A body that raises an exception. -/
theorem runInstr_exc {s : State} {c : Nat} {body : State → Res × State} {e : Exc} {v : State} (h : Runs s c)
    (hb : body (fetched s c) = (.exc e, v)) : runInstr s c body = raise v c e := by
  rw [runInstr_eq h, hb]
  rfl

theorem trunc_trunc (c : Nat) (v : Word) : trunc c (trunc c v) = trunc c v := by
  unfold trunc
  split
  · rw [BitVec.and_assoc]; rfl
  · rfl

theorem and_low32 (v : Word) : v &&& 0xFFFFFFFF = (v.setWidth 32).setWidth 64 := by
  apply BitVec.eq_of_toNat_eq
  have h : (0xFFFFFFFF : Word).toNat = 2 ^ 32 - 1 := by decide
  have e := Nat.and_two_pow_sub_one_eq_mod v.toNat 32
  rw [BitVec.toNat_and, h, e]
  simp only [BitVec.toNat_setWidth]
  omega

theorem atWidth_trunc (c : Nat) (f : (w : Nat) → BitVec w → BitVec w → BitVec w) (a b : Word) :
    trunc c (atWidth c f a b) = atWidth c f a b := by
  unfold trunc atWidth
  split
  · rw [and_low32]; simp
  · rfl

/-- A write of a D register, and nothing else, read back. -/
theorem dGet_dSet (s : State) (c r : Nat) (v : Word) : dGet (dSet s c r v) c = dUpd (dGet s c) r (trunc c v) := by
  funext j
  unfold dUpd regUpd dSet
  by_cases hr : r = 0
  · simp [hr]
  · simp only [hr, if_false]
    unfold dGet
    by_cases hj : j = 0
    · subst hj; simp [Ne.symm hr]
    · simp only [hj, if_false, core_setCore_same]
      by_cases h : j = r
      · subst h; simp
      · simp [h, tget_tset_ne h]

theorem aGet_dSet (s : State) (c r : Nat) (v : Word) : aGet (dSet s c r v) c = aGet s c := by
  funext j
  unfold dSet
  split
  · rfl
  · exact aGet_congr (by simp) (by simp) (by simp) (by simp) j

theorem qGet_dSet (s : State) (c r : Nat) (v : Word) : qGet (dSet s c r v) c = qGet s c := by
  funext j
  unfold dSet
  split
  · rfl
  · exact qGet_congr (by simp) j

theorem core_dSet (s : State) (c r : Nat) (v : Word) : ∃ d, getCore (dSet s c r v) c = { getCore s c with d := d } := by
  unfold dSet
  split
  · exact ⟨(getCore s c).d, rfl⟩
  · exact ⟨_, core_setCore_same ..⟩

theorem CoreOnly.dSet (s : State) (c r : Nat) (v : Word) : CoreOnly c s (dSet s c r v) := by
  unfold Machine.dSet
  split
  · exact CoreOnly.refl c s
  · exact CoreOnly.setCore ..

/-- An instruction that writes one D register. -/
theorem runInstr_dSet {s : State} {c r : Nat} {body : State → Res × State} {pc v : Word} (h : Runs s c)
    (hb : body (fetched s c) = (.done pc, dSet (fetched s c) c r v)) :
    Retired c (fetched s c) (runInstr s c body) (dUpd (dGet (fetched s c) c) r (trunc c v)) (aGet (fetched s c) c)
      (qGet (fetched s c) c) (trunc c pc) := by
  rw [runInstr_done h hb, ← dGet_dSet, ← aGet_dSet (fetched s c) c r v, ← qGet_dSet (fetched s c) c r v]
  obtain ⟨d, hd⟩ := core_dSet (fetched s c) c r v
  refine complete_retired (CoreOnly.dSet ..) ?_ ?_ (fun n w _ _ _ => sysGet_congr ?_ n w) h.ss ?_ <;> rw [hd]
  exact h.free

/-- An instruction that changes only the PC. -/
theorem runInstr_pc {s : State} {c : Nat} {body : State → Res × State} {pc : Word} (h : Runs s c)
    (hb : body (fetched s c) = (.done pc, fetched s c)) :
    Retired c (fetched s c) (runInstr s c body) (dGet (fetched s c) c) (aGet (fetched s c) c)
      (qGet (fetched s c) c) (trunc c pc) := by
  rw [runInstr_done h hb]
  exact complete_retired (CoreOnly.refl ..) rfl rfl (fun _ _ _ _ _ => rfl) h.ss h.free

/-! ### A registers -/

theorem sysSet_core (s : State) (c n : Nat) (w : Bool) (v : Word) :
    getCore (sysSet s c n w v) c = { getCore s c with sys := tset (sysRst c n) (sysKey c n w) v (getCore s c).sys } := by
  simp [sysSet]

theorem sysForce_core (s : State) (c n : Nat) (w : Bool) (v : Word) :
    getCore (sysForce s c n w v) c = { getCore s c with
      sys := tset (sysRst c n) (sysKey c n w) v (getCore s c).sys
      stale := (getCore s c).stale.filter (fun p => p.1 != sysKey c n w) } := by
  simp [sysForce, sysSet_core]

/-- A forced write reads back, in effect at once. -/
theorem sysGet_sysForce_same (s : State) (c n : Nat) (w : Bool) (v : Word) : sysGet (sysForce s c n w v) c n w = v := by
  simp [sysGet, sysForce_core]

theorem sysEff_sysForce_same (s : State) (c n : Nat) (w : Bool) (v : Word) : sysEff (sysForce s c n w v) c n w = v := by
  unfold sysEff
  have : (getCore (sysForce s c n w v) c).stale.find? (fun p => p.1 == sysKey c n w) = none := by
    simp [sysForce_core, List.find?_eq_none]
  rw [this]
  exact sysGet_sysForce_same ..

theorem CoreOnly.sysForce (c n : Nat) (s : State) (w : Bool) (v : Word) : CoreOnly c s (sysForce s c n w v) :=
  (CoreOnly.sysSet ..).trans (CoreOnly.setCore ..)

theorem core_aSet (s : State) (c r : Nat) (v : Word) :
    ∃ a y q, getCore (aSet s c r v) c = { getCore s c with a := a, sys := y, stale := q } := by
  unfold aSet
  split
  · exact ⟨(getCore s c).a, _, _, sysForce_core ..⟩
  · exact ⟨_, (getCore s c).sys, (getCore s c).stale, core_setCore_same ..⟩

theorem CoreOnly.aSet (s : State) (c r : Nat) (v : Word) : CoreOnly c s (aSet s c r v) := by
  unfold Machine.aSet
  split
  · exact CoreOnly.sysForce ..
  · exact CoreOnly.setCore ..

theorem dGet_aSet (s : State) (c r : Nat) (v : Word) : dGet (aSet s c r v) c = dGet s c := by
  funext j
  obtain ⟨a, y, q, h⟩ := core_aSet s c r v
  exact dGet_congr (by rw [h]) j

theorem qGet_aSet (s : State) (c r : Nat) (v : Word) : qGet (aSet s c r v) c = qGet s c := by
  funext j
  obtain ⟨a, y, q, h⟩ := core_aSet s c r v
  exact qGet_congr (by rw [h]) j

/-- A write of an A register, and nothing else, read back. -/
theorem aGet_aSet (s : State) (c r : Nat) (v : Word) : aGet (aSet s c r v) c = regUpd (aGet s c) r (trunc c v) := by
  funext j
  unfold regUpd aSet
  by_cases hr : r = spIdx c
  · simp only [hr, if_true]
    unfold aGet
    have e : plOf (getCore (sysForce s c (spNum (plOf (getCore s c))) (secOf (getCore s c)) (trunc c v)) c) = plOf (getCore s c) := by
      simp [sysForce_core, plOf]
    have e2 : secOf (getCore (sysForce s c (spNum (plOf (getCore s c))) (secOf (getCore s c)) (trunc c v)) c) = secOf (getCore s c) := by
      simp [sysForce_core, secOf]
    by_cases hj : j = spIdx c
    · simp only [hj, if_true]
      rw [e, e2, sysEff_sysForce_same]
    · simp only [hj, if_false]
      rw [sysForce_core]
  · simp only [hr, if_false]
    unfold aGet
    simp only [core_setCore_same]
    by_cases hj : j = spIdx c
    · have : j ≠ r := fun h => hr (h ▸ hj)
      simp only [hj, if_true]
      rw [if_neg (fun h => hr h.symm)]
      exact sysEff_congr (by simp) (sysGet_congr (by simp) _ _)
    · simp only [hj, if_false]
      by_cases h : j = r
      · subst h; simp
      · simp [h, tget_tset_ne h]

theorem sysGet_aSet {s : State} {c r n : Nat} {v : Word} {w : Bool} (hn : n < 0x1000) (h : n ≠ spNum (plOf (getCore s c))) :
    sysGet (aSet s c r v) c n w = sysGet s c n w := by
  unfold aSet
  split
  · have e : sysGet (sysForce s c (spNum (plOf (getCore s c))) (secOf (getCore s c)) (trunc c v)) c n w =
        sysGet (sysSet s c (spNum (plOf (getCore s c))) (secOf (getCore s c)) (trunc c v)) c n w :=
      sysGet_congr (by rw [sysForce_core, sysSet_core]) n w
    rw [e]
    apply sysGet_sysSet_ne
    have : spNum (plOf (getCore s c)) < 0x1000 := by
      have := plOf_lt (getCore s c)
      unfold spNum
      split <;> omega
    exact sysKey_ne h hn this
  · exact sysGet_congr (by simp) n w

/-- An instruction that writes one A register. -/
theorem runInstr_aSet {s : State} {c r : Nat} {body : State → Res × State} {pc v : Word} (h : Runs s c)
    (hb : body (fetched s c) = (.done pc, aSet (fetched s c) c r v)) :
    Retired c (fetched s c) (runInstr s c body) (dGet (fetched s c) c) (regUpd (aGet (fetched s c) c) r (trunc c v))
      (qGet (fetched s c) c) (trunc c pc) := by
  rw [runInstr_done h hb, ← aGet_aSet, ← dGet_aSet (fetched s c) c r v, ← qGet_aSet (fetched s c) c r v]
  obtain ⟨a, y, q, hd⟩ := core_aSet (fetched s c) c r v
  refine complete_retired (CoreOnly.aSet ..) ?_ ?_ (fun n w hn _ hp => sysGet_aSet hn hp) h.ss ?_ <;> rw [hd]
  exact h.free

end Sys2Proof.Machine
end

