-- ==== Sys2Proof/Laws/Exc.lean ====
section
/-! SUPPORT. What taking an exception does (R71), once. -/
namespace Sys2Proof.Machine

open Sys2Proof

/-! ### Fields of a word -/

theorem getLsbD_fldMask (hi lo i : Nat) (h : hi < 64) (hl : lo ≤ hi) :
    (fldMask hi lo).getLsbD i = (decide (lo ≤ i) && decide (i ≤ hi)) := by
  unfold fldMask
  rw [BitVec.getLsbD_ofNat, Nat.testBit_shiftLeft, Nat.testBit_two_pow_sub_one]
  by_cases h1 : lo ≤ i <;> by_cases h2 : i ≤ hi <;> simp [h1, h2] <;> omega

theorem bit_setFld (v : Word) (hi lo x i : Nat) (h : hi < 64) (hl : lo ≤ hi) :
    bit (setFld v hi lo x) i = if lo ≤ i ∧ i ≤ hi then x.testBit (i - lo) else bit v i := by
  unfold bit setFld
  simp only [BitVec.getLsbD_or, BitVec.getLsbD_and, BitVec.getLsbD_not, getLsbD_fldMask hi lo i h hl,
    BitVec.getLsbD_shiftLeft, BitVec.getLsbD_ofNat]
  by_cases h1 : lo ≤ i <;> by_cases h2 : i ≤ hi <;> simp [h1, h2]
  · have h3 : i < 64 := by omega
    have h4 : i - lo < 64 := by omega
    simp [h3, h4, Nat.not_lt.mpr h1]
  · intro h3; exact BitVec.lt_of_getLsbD h3
  · intro h3; exact BitVec.lt_of_getLsbD h3
  · intro h3; exact BitVec.lt_of_getLsbD h3

theorem fld_testBit (v : Word) (hi lo i : Nat) : (fld v hi lo).testBit i = (decide (i < hi + 1 - lo) && bit v (lo + i)) := by
  unfold fld bit
  rw [Nat.testBit_mod_two_pow, Nat.testBit_shiftRight, BitVec.testBit_toNat]

/-! ### The entry -/

theorem entryCstat_bit (v : Word) (t i : Nat) : bit (entryCstat v t) i =
    if i < 2 then t.testBit i else if i = 2 then (t == 3 || bit v 2) else if i = 4 ∨ i = 5 then true
    else if i = 6 ∨ i = 7 then false else bit v i := by
  have e : ∀ (w : Word), (if t = 3 then setFld w 2 2 1 else w) = setFld w 2 2 (if t = 3 then 1 else (fld w 2 2)) := by
    intro w
    split
    · rfl
    · apply BitVec.eq_of_getLsbD_eq
      intro j hj
      have := bit_setFld w 2 2 (fld w 2 2) j (by omega) (by omega)
      unfold bit at this
      rw [this]
      split
      · rename_i h
        obtain rfl : j = 2 := by omega
        rw [fld_testBit]
        simp [bit]
      · rfl
  unfold entryCstat
  dsimp only
  rw [e]
  simp only [bit_setFld _ 2 2 _ _ (by omega) (by omega), bit_setFld _ 7 7 _ _ (by omega) (by omega), bit_setFld _ 6 6 _ _ (by omega) (by omega),
    bit_setFld _ 5 5 _ _ (by omega) (by omega), bit_setFld _ 4 4 _ _ (by omega) (by omega), bit_setFld _ 1 0 _ _ (by omega) (by omega)]
  by_cases h0 : i = 0
  · subst h0; simp
  by_cases h1 : i = 1
  · subst h1; simp
  by_cases h2 : i = 2
  · subst h2
    by_cases h3 : t = 3
    · simp [h3]
    · simp only [h3, if_false]
      have := fld_testBit (setFld (setFld (setFld (setFld (setFld v 1 0 t) 4 4 1) 5 5 1) 6 6 0) 7 7 0) 2 2 0
      simp only [Nat.sub_self, le_refl, and_self, if_true, this]
      simp [bit_setFld, h3]
  by_cases h4 : i = 4
  · subst h4; simp
  by_cases h5 : i = 5
  · subst h5; simp
  by_cases h6 : i = 6
  · subst h6; simp
  by_cases h7 : i = 7
  · subst h7; simp
  have a1 : ¬ (2 ≤ i ∧ i ≤ 2) := by omega
  have a2 : ¬ (7 ≤ i ∧ i ≤ 7) := by omega
  have a3 : ¬ (6 ≤ i ∧ i ≤ 6) := by omega
  have a4 : ¬ (5 ≤ i ∧ i ≤ 5) := by omega
  have a5 : ¬ (4 ≤ i ∧ i ≤ 4) := by omega
  have a6 : ¬ (0 ≤ i ∧ i ≤ 1) := by omega
  have a7 : ¬ i < 2 := by omega
  simp [a1, a2, a3, a4, a5, a7, h2, h4, h5, h6, h7]
  intro h; omega

/-! ### Writes of system registers, as the entry makes them -/

/-- Between s and t only registers lo to hi of core c were written. -/
structure SysOnly (c lo hi : Nat) (s t : State) : Prop where
  same : { getCore t c with sys := (getCore s c).sys } = getCore s c
  only : CoreOnly c s t
  sys : ∀ n v, n < 0x1000 → (n < lo ∨ hi < n) → sysGet t c n v = sysGet s c n v

theorem SysOnly.refl (c lo hi : Nat) (s : State) : SysOnly c lo hi s s := ⟨rfl, CoreOnly.refl c s, fun _ _ _ _ => rfl⟩

theorem SysOnly.sysSet {c lo hi n : Nat} {s t : State} {w : Bool} {v : Word} (h : SysOnly c lo hi s t) (h1 : lo ≤ n)
    (h2 : n ≤ hi) (h3 : hi < 0x1000) : SysOnly c lo hi s (sysSet t c n w v) where
  same := by
    have e := h.same
    rw [sysSet_core]
    rw [← e]
  only := h.only.trans (CoreOnly.sysSet ..)
  sys m x hm hd := by
    rw [sysGet_sysSet_ne (sysKey_ne (by omega) hm (by omega)), h.sys m x hm hd]

theorem sysGet_sysSet_reg {s : State} {c n m : Nat} {w v : Bool} {x : Word} (h : m ≠ n) (hn : n < 0x1000) (hm : m < 0x1000) :
    sysGet (sysSet s c n w x) c m v = sysGet s c m v := sysGet_sysSet_ne (sysKey_ne h hm hn)

theorem dropPred_core (s : State) (c : Nat) : ∃ b, getCore (dropPredictors s c) c = { getCore s c with bpValid := b } :=
  ⟨false, by simp [dropPredictors]⟩

theorem dropResv_core (s : State) (c : Nat) : getCore (dropResv s c) c = { getCore s c with resv := none } := by simp [dropResv]

/-- Taking an exception to a level from 1 to 3 does what R71 says, and nothing else. -/
theorem takeExcAt_entered (s : State) (c : Nat) (e : Exc) (epc esyn : Word) (lvl : Nat)
    (hl : excTarget (getCore s c) e.tgt = lvl) (h1 : 1 ≤ lvl) (h3 : lvl ≤ 3) :
    Entered c s (takeExcAt s c e epc esyn) lvl epc esyn e.eaddr (vecOff e.cls e.deferred (lvl == plOf (getCore s c))) := by
  obtain ⟨u, hu, hue⟩ : ∃ u, Counted c s u ∧ countEvent s c 0x012 = u := ⟨_, countEvent_counted s c _, rfl⟩
  obtain ⟨f1, f2, f3, f4, f5, f6, f7, f8⟩ := hu.fields
  set w := secOf (getCore s c) with hw
  -- the six writes
  obtain ⟨v, hv⟩ : ∃ v, v = sysSet (sysSet (sysSet (sysSet u c (lvl * 0x100 + 2) w (getCore s c).cstat) c (lvl * 0x100 + 1) w (trunc c epc))
      c (lvl * 0x100 + 3) w esyn) c (lvl * 0x100 + 4) w (trunc c e.eaddr) := ⟨_, rfl⟩
  have hv1 : SysOnly c (lvl * 0x100 + 1) (lvl * 0x100 + 6) u v := by
    rw [hv]
    exact ((((SysOnly.refl ..).sysSet (by omega) (by omega) (by omega)).sysSet (by omega) (by omega) (by omega)).sysSet
      (by omega) (by omega) (by omega)).sysSet (by omega) (by omega) (by omega)
  obtain ⟨x, hx⟩ : ∃ x, x = (if c = mpCore then v else sysSet v c (lvl * 0x100 + 5) w e.ephys) := ⟨_, rfl⟩
  have hx1 : SysOnly c (lvl * 0x100 + 1) (lvl * 0x100 + 6) u x := by
    rw [hx]; split
    · exact hv1
    · exact hv1.sysSet (by omega) (by omega) (by omega)
  obtain ⟨y, hy⟩ : ∃ y, y = (if lvl = 2 ∧ e.s2 = true then sysSet x c (lvl * 0x100 + 6) w e.eipa else x) := ⟨_, rfl⟩
  have hy1 : SysOnly c (lvl * 0x100 + 1) (lvl * 0x100 + 6) u y := by
    rw [hy]; split
    · exact hx1.sysSet (by omega) (by omega) (by omega)
    · exact hx1
  have rd : ∀ m, m < lvl * 0x100 + 5 → sysGet y c m w = sysGet v c m w := by
    intro m hm
    have hx2 : sysGet x c m w = sysGet v c m w := by
      rw [hx]; split
      · rfl
      · exact sysGet_sysSet_reg (by omega) (by omega) (by omega)
    rw [← hx2, hy]; split
    · exact sysGet_sysSet_reg (by omega) (by omega) (by omega)
    · rfl
  have g2 : sysGet y c (lvl * 0x100 + 2) w = (getCore s c).cstat := by
    rw [rd _ (by omega), hv, sysGet_sysSet_reg (by omega) (by omega) (by omega), sysGet_sysSet_reg (by omega) (by omega) (by omega),
      sysGet_sysSet_reg (by omega) (by omega) (by omega), sysGet_sysSet_same]
  have g1 : sysGet y c (lvl * 0x100 + 1) w = trunc c epc := by
    rw [rd _ (by omega), hv, sysGet_sysSet_reg (by omega) (by omega) (by omega), sysGet_sysSet_reg (by omega) (by omega) (by omega),
      sysGet_sysSet_same]
  have g3 : sysGet y c (lvl * 0x100 + 3) w = esyn := by
    rw [rd _ (by omega), hv, sysGet_sysSet_reg (by omega) (by omega) (by omega), sysGet_sysSet_same]
  have g4 : sysGet y c (lvl * 0x100 + 4) w = trunc c e.eaddr := by
    rw [rd _ (by omega), hv, sysGet_sysSet_same]
  have es := hy1.same
  have k1 : (getCore y c).stale = (getCore u c).stale := by rw [← es]
  have k2 : (getCore y c).cstat = (getCore u c).cstat := by rw [← es]
  have k3 : (getCore y c).d = (getCore u c).d := by rw [← es]
  have k4 : (getCore y c).a = (getCore u c).a := by rw [← es]
  have k5 : (getCore y c).q = (getCore u c).q := by rw [← es]
  have hb : sysEff y c (lvl * 0x100) w = sysEff s c (lvl * 0x100) w := by
    refine (sysEff_congr k1 (hy1.sys _ _ (by omega) (by omega))).trans (sysEff_congr f7 (hu.sys _ _ ?_))
    interval_cases lvl <;> rfl
  -- the result
  obtain ⟨t, ht, r, b, hc⟩ : ∃ t, takeExcAt s c e epc esyn = t ∧ ∃ r b, getCore t c = { getCore y c with
        cstat := entryCstat (getCore s c).cstat lvl
        pc := trunc c (sysEff s c (lvl * 0x100) w + BitVec.ofNat 64 (vecOff e.cls e.deferred (lvl == plOf (getCore s c))))
        stale := []
        served := []
        asked := []
        atSent := false
        fails := 0
        resv := r
        bpValid := b } ∧ CoreOnly c y t := by
    refine ⟨_, rfl, ?_⟩
    unfold takeExcAt
    simp only [hl, hue, ← hw]
    rw [← hv, ← hx, ← hy, hb]
    split
    · refine ⟨none, false, ?_, ?_⟩
      · simp [dropPredictors, dropResv]
      · exact ((CoreOnly.setCore ..).trans (CoreOnly.setCore ..)).trans (CoreOnly.setCore ..)
    · exact ⟨_, _, by rw [core_setCore_same], CoreOnly.setCore ..⟩
  obtain ⟨hc, ho⟩ := hc
  rw [ht]
  have hsys : ∀ n x, sysGet t c n x = sysGet y c n x := fun n x => sysGet_congr (by rw [hc]) n x
  have hcs : (getCore t c).cstat = entryCstat (getCore s c).cstat lvl := by rw [hc]
  refine { pc := by rw [hc], level := ?_, masks := ?_, window := ?_, world := ?_, kept := ?_, epcReg := ?_, estatReg := ?_,
           esynReg := ?_, eaddrReg := ?_, d := ?_, a := ?_, q := ?_, sys := ?_, rest := ?_ }
  · unfold plOf
    rw [hcs]
    apply Nat.eq_of_testBit_eq
    intro i
    rw [fld_testBit, entryCstat_bit]
    by_cases hi : i < 2
    · simp [hi]
    · have : lvl.testBit i = false := Nat.testBit_lt_two_pow (lt_of_lt_of_le (by omega : lvl < 2 ^ 2) (Nat.pow_le_pow_right (by omega) (by omega)))
      rw [this]; simp [hi]
  · rw [hcs, entryCstat_bit, entryCstat_bit]; simp
  · rw [hcs, entryCstat_bit, entryCstat_bit]; simp
  · unfold secOf; rw [hcs, entryCstat_bit]; simp
  · intro i hi
    rw [hcs, entryCstat_bit]
    have : ¬ i < 2 ∧ i ≠ 2 ∧ i ≠ 4 ∧ i ≠ 5 ∧ i ≠ 6 ∧ i ≠ 7 := by omega
    simp [this]
  · rw [hsys, g1]
  · rw [hsys, g2]
  · rw [hsys, g3]
  · rw [hsys, g4]
  · intro r; exact dGet_congr (by rw [hc]; exact k3.trans f3) r
  · intro r hr
    unfold aGet
    rw [if_neg hr, if_neg hr, hc]
    simp only [k4, f4]
  · intro r; exact qGet_congr (by rw [hc]; exact k5.trans f5) r
  · intro n x hn hcn hd
    rw [hsys, hy1.sys n x hn (by omega), hu.sys n x hcn]
  · exact (hu.only.trans hy1.only).trans ho

end Sys2Proof.Machine
end

