-- ==== Sys2Proof/Laws/Mem.lean ====
section
/-! SUPPORT. Laws of the byte memories: a written byte reads back, every other byte reads as before, and every memory operation keeps
the canonical form. -/
namespace Sys2Proof.Machine

open Sys2Proof

/-- A fold of writes at consecutive addresses leaves every other address alone. -/
theorem tget_foldl_tset_ne (a : Nat) (g : Nat → Byte) (x : Nat) : ∀ (n : Nat) (m : Memory), (x < a ∨ a + n ≤ x) →
    tget 0 x ((List.range n).foldl (fun m i => tset 0 (a + i) (g i) m) m) = tget 0 x m
  | 0, _, _ => rfl
  | n + 1, m, h => by
    rw [List.range_succ, List.foldl_append, List.foldl_cons, List.foldl_nil, tget_tset_ne (by omega)]
    exact tget_foldl_tset_ne a g x n m (by omega)

/-- A fold of writes at consecutive addresses puts byte i at the i-th of them. -/
theorem tget_foldl_tset_at (a : Nat) (g : Nat → Byte) (k : Nat) : ∀ (n : Nat) (m : Memory), k < n →
    tget 0 (a + k) ((List.range n).foldl (fun m i => tset 0 (a + i) (g i) m) m) = g k
  | 0, _, h => absurd h (Nat.not_lt_zero k)
  | n + 1, m, h => by
    rw [List.range_succ, List.foldl_append, List.foldl_cons, List.foldl_nil]
    by_cases hk : k = n
    · rw [hk, tget_tset_same]
    · rw [tget_tset_ne (by omega)]
      exact tget_foldl_tset_at a g k n m (by omega)

/-! ### A line behind the homes -/

theorem memRawSet_same (s : State) (line : Nat) (d : LineData) (i : Nat) (h : i < 64) :
    tget 0 (line * 64 + i) (memRawSet s line d).dram = lineByte d i := tget_foldl_tset_at _ _ i 64 s.dram h

theorem memRawSet_other (s : State) (line : Nat) (d : LineData) (x : Nat) (h : x < line * 64 ∨ line * 64 + 64 ≤ x) :
    tget 0 x (memRawSet s line d).dram = tget 0 x s.dram := tget_foldl_tset_ne _ _ x 64 s.dram h

/-- Another line reads as before. -/
theorem memRaw_memRawSet_ne (s : State) (line l : Nat) (d : LineData) (h : l ≠ line) : memRaw (memRawSet s line d) l = memRaw s l := by
  unfold memRaw
  refine congrArg (fun x => BitVec.ofNat 512 (ofBytesLE x)) (List.map_congr_left fun i hi => ?_)
  have := List.mem_range.mp hi
  exact memRawSet_other s line d _ (by omega)

/-- A line write changes the memory alone, and keeps its canonical form. -/
theorem memRawSet_frame (s : State) (line : Nat) (d : LineData) : { memRawSet s line d with dram := s.dram } = s := rfl

theorem memRawSet_wf {s : State} (line : Nat) (d : LineData) (h : Memory.wf s.dram = true) : Memory.wf (memRawSet s line d).dram = true :=
  twf_foldl_tset (d := (0 : Byte)) (fun i => line * 64 + i) (fun i => lineByte d i) (List.range 64) h

theorem memRawSet_canonical {s : State} (line : Nat) (d : LineData) (h : MemoriesCanonical s) : MemoriesCanonical (memRawSet s line d) :=
  ⟨memRawSet_wf line d h.1, h.2⟩

/-! ### The management processor's byte memories -/

theorem memPut_same (m : Memory) (a n x k : Nat) (h : k < n) : tget 0 (a + k) (memPut m a n x) = BitVec.ofNat 8 (x >>> (8 * k)) :=
  tget_foldl_tset_at a _ k n m h

theorem memPut_other (m : Memory) (a n x k : Nat) (h : k < a ∨ a + n ≤ k) : tget 0 k (memPut m a n x) = tget 0 k m :=
  tget_foldl_tset_ne a _ k n m h

theorem memPut_wf {m : Memory} (a n x : Nat) (h : Memory.wf m = true) : Memory.wf (memPut m a n x) = true :=
  twf_foldl_tset (d := (0 : Byte)) (fun i => a + i) (fun i => BitVec.ofNat 8 (x >>> (8 * i))) (List.range n) h

/-- A store of the management processor outside its window keeps the memories canonical. -/
theorem mpLocalWrite_canonical {s t : State} {a n x : Nat} (h : MemoriesCanonical s) (e : mpLocalWrite s a n x = some t) : MemoriesCanonical t := by
  unfold mpLocalWrite at e
  split at e
  · cases e
    exact ⟨h.1, memPut_wf a n x h.2.1, h.2.2⟩
  · split at e
    · cases e
    · repeat' split at e
      all_goals (cases e; exact h)
  · cases e

/-- The memories at reset. -/
theorem reset_canonical : MemoriesCanonical State.reset := ⟨rfl, rfl, rfl⟩

end Sys2Proof.Machine
end

