-- ==== Sys2Proof/Laws/Reg.lean ====
section
/-! SUPPORT. Set-up registers: a read after a write of a register or a field gives what was written, and every other register and
field is left. -/
namespace Sys2Proof.Machine

open Sys2Proof

/-! ### Fields -/

/-- A field that was written reads the value written, cut to its width. -/
theorem fld_setFld_same (v : Word) (hi lo x : Nat) (h : hi < 64) (hl : lo ≤ hi) :
    fld (setFld v hi lo x) hi lo = x % 2 ^ (hi + 1 - lo) := by
  apply Nat.eq_of_testBit_eq
  intro i
  rw [fld_testBit, Nat.testBit_mod_two_pow, bit_setFld _ _ _ _ _ h hl]
  by_cases hi' : i < hi + 1 - lo
  · have : lo ≤ lo + i ∧ lo + i ≤ hi := by omega
    simp [hi', this]
  · simp [hi']

/-- A field that does not meet the one written is left. -/
theorem fld_setFld_ne (v : Word) (hi lo x hi' lo' : Nat) (h : hi < 64) (hl : lo ≤ hi) (hd : hi' < lo ∨ hi < lo') :
    fld (setFld v hi lo x) hi' lo' = fld v hi' lo' := by
  apply Nat.eq_of_testBit_eq
  intro i
  rw [fld_testBit, fld_testBit, bit_setFld _ _ _ _ _ h hl]
  by_cases hi' : i < hi' + 1 - lo'
  · have : ¬ (lo ≤ lo' + i ∧ lo' + i ≤ hi) := by omega
    simp [this]
  · simp [hi']

/-! ### Registers -/

@[simp] theorem rg_setRg_same (s : State) (r : RegName) (i : Nat) (v : Word) : rg (setRg s r i v) r i = v := by
  simp [rg, setRg]

/-- A write of one register leaves the others. -/
theorem rg_setRg_ne {s : State} {r r' : RegName} {i i' : Nat} {v : Word} (h : regKey r' i' ≠ regKey r i) :
    rg (setRg s r i v) r' i' = rg s r' i' := by
  unfold rg setRg
  exact tget_tset_ne h _

theorem regKey_ne_name {r r' : RegName} {i i' : Nat} (h : r.num ≠ r'.num) (hi : i < 2 ^ 32) (hi' : i' < 2 ^ 32) :
    regKey r i ≠ regKey r' i' := by
  unfold regKey
  omega

theorem regKey_ne_index {r : RegName} {i i' : Nat} (h : i ≠ i') : regKey r i ≠ regKey r i' := by
  unfold regKey
  omega

/-- A field of a register that was written. -/
theorem rgF_setRgF_same (s : State) (r : RegName) (i hi lo x : Nat) (h : hi < 64) (hl : lo ≤ hi) :
    rgF (setRgF s r i hi lo x) r i hi lo = x % 2 ^ (hi + 1 - lo) := by
  unfold rgF setRgF
  rw [rg_setRg_same, fld_setFld_same _ _ _ _ h hl]

/-- Another field of the same register. -/
theorem rgF_setRgF_field (s : State) (r : RegName) (i hi lo x hi' lo' : Nat) (h : hi < 64) (hl : lo ≤ hi) (hd : hi' < lo ∨ hi < lo') :
    rgF (setRgF s r i hi lo x) r i hi' lo' = rgF s r i hi' lo' := by
  unfold rgF setRgF
  rw [rg_setRg_same, fld_setFld_ne _ _ _ _ _ _ h hl hd]

/-- Another register. -/
theorem rgF_setRgF_ne {s : State} {r r' : RegName} {i i' hi lo x hi' lo' : Nat} (h : regKey r' i' ≠ regKey r i) :
    rgF (setRgF s r i hi lo x) r' i' hi' lo' = rgF s r' i' hi' lo' := by
  unfold rgF setRgF
  rw [rg_setRg_ne h]

@[simp] theorem setRgF_core (s : State) (r : RegName) (i hi lo x c : Nat) : getCore (setRgF s r i hi lo x) c = getCore s c := rfl
@[simp] theorem setRg_core (s : State) (r : RegName) (i : Nat) (v : Word) (c : Nat) : getCore (setRg s r i v) c = getCore s c := rfl

end Sys2Proof.Machine
end

