-- ==== Sys2Proof/WellFormed.lean ====
section
/-! DEFINITION. Well-formed commands: the bounds the spec puts on an operand that its Lean type does not put on it. The meanings
are total on every command, and no meaning asks whether one is well formed; a statement may. -/
namespace Sys2Proof

/-- A stop exists (R309): dies 0 to 11 and the hub, stops 0 to 31. -/
def StopId.wf (x : StopId) : Bool := decide (x.die ≤ 12) && decide (x.stop < 32)

/-- A decoder names a device and a rank of a channel (R375, R377). -/
def Ecc.wf : Ecc → Bool
  | .clean => true
  | .corrected d r => decide (d < 64) && decide (r < 16)
  | .uncorrectable d r => decide (d < 64) && decide (r < 16)

/-- The findings at a home: a tag lost in one of the 16 ways (R246, R571). -/
def Findings.wf (f : Findings) : Bool := f.mem.wf && f.l3.wf && f.dir.wf && f.tagLost.all (fun w => decide (w < 16))

/-- An error of an array names one of its ways (R246: 4 of the L1 instruction cache, 8 of the L1 data cache and of the L2). -/
def ArrErr.wf : ArrErr → Bool
  | .none_ => true
  | .l1i w => decide (w < 4)
  | .l1d w => decide (w < 8)
  | .l2 w => decide (w < 8)
  | .l2Tag w => decide (w < 8)
  | .l2TagBoth => true

/-- What an access meets. -/
def Seen.wf (e : Seen) : Bool := e.arr.wf

/-- A TLB invalidation: its regimes are 1 to 3, its VMID and ASID have 16 bits, its page number 45 (R211). -/
def Tinv.wf (t : Tinv) : Bool :=
  t.regimes.all (fun r => decide (1 ≤ r) && decide (r ≤ 3)) && t.vmid.all (fun v => decide (v < 65536)) &&
  decide (t.asid < 65536) && decide (t.vpn < 2 ^ 45)

/-- A broadcast of another package: a TLB invalidation brings its scope, and no other kind brings one (R366). -/
def BcIn.wf (b : BcIn) : Bool := decide (b.kind = .tinv ∧ b.done = false → b.tinv.isSome) && b.tinv.all Tinv.wf

/-- A packet of another package names stops that exist (R309). -/
def PkgMsg.wf (m : PkgMsg) : Bool := m.src.wf && m.dst.wf

/-- A Palrath flit on arrival brings at most one packet for each of its 8 units. -/
def FlitIn.wf (f : FlitIn) : Bool := f.msgs.all PkgMsg.wf && decide (f.msgs.length ≤ 8)

/-- An identification: a serial number of 32 bits (R363, R631). -/
def IdentIn.wf (i : IdentIn) : Bool := decide (i.serial < 2 ^ 32)

/-- An inbound request moves at most 4,096 bytes (R402). -/
def PcieReq.wf : PcieReq → Bool
  | .read _ _ n => decide (1 ≤ n) && decide (n ≤ 4096)
  | .write _ _ d _ => decide (1 ≤ d.length) && decide (d.length ≤ 4096)
  | .atomic _ _ _ _ _ _ => true

/-- What a transfer of an engine meets. -/
def EngIn.wf (i : EngIn) : Bool := i.f.wf

/-- The light of a slot: a second weighs 0.5, 1.0 or 1.5, counted in half seconds (R415). -/
def LitIn.wf (l : LitIn) : Bool := decide (l.secs ≤ l.halfSecs) && decide (l.halfSecs ≤ 3 * l.secs)

/-- A failed check of a cipher step names at least one unit (R482). -/
def UnitFail.wf (u : UnitFail) : Bool := !u.units.isEmpty

/-- What a message meets. -/
def CipherIn.wf (c : CipherIn) : Bool := c.fails.all UnitFail.wf

/-- The flash the boot ROM finds: at least one byte and at most 64 MiB (R594, R597). -/
def BootIn.wf (b : BootIn) : Bool := decide (1 ≤ b.density) && decide (b.density ≤ 0x4000000)

/-- The modules of a channel (R369): a code of their type, at most two, a rate code of 4 bits. -/
def ChMods.wf (m : ChMods) : Bool := decide (m.kind ≤ 3) && decide (m.dimms ≤ 2) && decide (m.rate < 16)

/-- An operation of the debug access port. -/
def DapOp.wf : DapOp → Bool
  | .halt _ => true
  | .resume _ => true
  | .step _ => true
  | .regRead _ _ => true
  | .regWrite _ _ _ => true
  | .memRead _ _ _ f _ => f.wf
  | .memWrite _ _ _ _ f _ => f.wf
  | .setupRead _ _ => true
  | .setupWrite _ _ _ => true

/-- The drifts of a stack's 20 cores, in hundredths of one percent, as a field of 16 bits holds them (R150). -/
def driftsWf (ds : List Nat) : Bool := decide (ds.length = 20) && ds.all (fun d => decide (d < 65536))

/-- A well-formed command. -/
def Instr.wf : Instr → Bool
  | .add _ _ => true
  | .sub _ _ => true
  | .and _ _ => true
  | .or _ _ => true
  | .xor _ _ => true
  | .andn _ _ => true
  | .sll _ _ => true
  | .srl _ _ => true
  | .sra _ _ => true
  | .ror _ _ => true
  | .sextB _ _ => true
  | .sextH _ _ => true
  | .sextW _ _ => true
  | .zextW _ _ => true
  | .clz _ _ => true
  | .ctz _ _ => true
  | .bswap _ _ => true
  | .min _ _ => true
  | .max _ _ => true
  | .minu _ _ => true
  | .maxu _ _ => true
  | .mul _ _ => true
  | .mulh _ _ => true
  | .mulhu _ _ => true
  | .div _ _ => true
  | .divu _ _ => true
  | .rem _ _ => true
  | .remu _ _ => true
  | .cmpEq _ _ => true
  | .cmpNe _ _ => true
  | .cmpLt _ _ => true
  | .cmpLtu _ _ => true
  | .cmpGe _ _ => true
  | .cmpGeu _ _ => true
  | .addi _ _ => true
  | .andi _ _ => true
  | .ori _ _ => true
  | .xori _ _ => true
  | .slli _ _ => true
  | .srli _ _ => true
  | .srai _ _ => true
  | .rori _ _ => true
  | .cmpiEq _ _ => true
  | .cmpiLt _ _ => true
  | .cmpiLtu _ _ => true
  | .movi _ _ => true
  | .movk _ _ => true
  | .addai _ _ => true
  | .adrpc _ _ => true
  | .adda _ _ => true
  | .suba _ _ => true
  | .difa _ _ => true
  | .mova _ _ => true
  | .movad _ _ => true
  | .movda _ _ => true
  | .cmpaEq _ _ => true
  | .cmpaNe _ _ => true
  | .cmpaLtu _ _ => true
  | .cmpaGeu _ _ => true
  | .jr _ _ => true
  | .jrl _ _ => true
  | .bz _ _ => true
  | .bnz _ _ => true
  | .j _ _ => true
  | .jl _ _ => true
  | .ldB _ _ e => e.wf
  | .ldH _ _ e => e.wf
  | .ldW _ _ e => e.wf
  | .ldD _ _ e => e.wf
  | .stB _ _ e => e.wf
  | .stH _ _ e => e.wf
  | .stW _ _ e => e.wf
  | .stD _ _ e => e.wf
  | .ldA _ _ e => e.wf
  | .stA _ _ e => e.wf
  | .ldQ _ _ e => e.wf
  | .stQ _ _ e => e.wf
  | .ldnB _ _ e => e.wf
  | .ldnH _ _ e => e.wf
  | .ldnW _ _ e => e.wf
  | .ldnD _ _ e => e.wf
  | .stnB _ _ e => e.wf
  | .stnH _ _ e => e.wf
  | .stnW _ _ e => e.wf
  | .stnD _ _ e => e.wf
  | .movb _ _ _ groups e => decide (1 ≤ groups) && e.wf
  | .fillb _ _ _ groups e => decide (1 ≤ groups) && e.wf
  | .cmpb _ _ _ groups e => decide (1 ≤ groups) && e.wf
  | .scanb _ _ _ groups e => decide (1 ≤ groups) && e.wf
  | .qadd _ _ => true
  | .qsub _ _ => true
  | .qmul _ _ => true
  | .qmac _ _ => true
  | .qand _ _ => true
  | .qor _ _ => true
  | .qxor _ _ => true
  | .qzero _ _ => true
  | .qpopc _ _ => true
  | .qins _ _ _ => true
  | .qext _ _ _ => true
  | .qbcast _ _ _ => true
  | .qmov _ _ _ => true
  | .qsum _ _ _ => true
  | .qclmul _ _ => true
  | .qcrc32c _ _ => true
  | .qpopct _ _ => true
  | .aswp _ _ e => e.wf
  | .aadd _ _ e => e.wf
  | .aand _ _ e => e.wf
  | .aor _ _ e => e.wf
  | .axor _ _ e => e.wf
  | .asmax _ _ e => e.wf
  | .asmin _ _ e => e.wf
  | .aumax _ _ e => e.wf
  | .aumin _ _ e => e.wf
  | .acas _ _ e => e.wf
  | .lres _ _ e => e.wf
  | .scond _ _ e => e.wf
  | .cinvVa _ _ e => e.wf
  | .ccleanVa _ _ e => e.wf
  | .cflushVa _ _ e => e.wf
  | .maintenanceComplete _ => true
  | .nop _ _ => true
  | .sysrd _ _ => true
  | .syswr _ _ => true
  | .regranWrite _ _ => true
  | .atpolClr _ _ => true
  | .cntsaveWrite _ _ => true
  | .scall _ _ => true
  | .hcall _ _ => true
  | .wcall _ _ => true
  | .eret _ _ => true
  | .barLd _ _ => true
  | .barSt _ _ => true
  | .barAll _ _ => true
  | .barDev _ _ => true
  | .barSync _ _ => true
  | .tinvVa _ _ => true
  | .tinvAsid _ _ => true
  | .tinvVmid _ _ => true
  | .tinvAll _ _ => true
  | .wrpkey _ _ => true
  | .rdpkey _ _ => true
  | .uaccOn _ _ => true
  | .uaccOff _ _ => true
  | .wait _ _ => true
  | .waitEnd _ => true
  | .coreIdleReturn _ => true
  | .takeInterrupt _ => true
  | .takeDeferredError _ => true
  | .stageCheckFail _ _ => true
  | .retiredStateParityError _ => true
  | .storeBufferDrain _ _ e => e.wf
  | .devStoreErrorCompletion _ _ => true
  | .drainWindowEnd _ => true
  | .vreqWrite _ _ _ => true
  | .supplyArrives _ => true
  | .agingEvaluation _ drifts fabDrift => driftsWf drifts && decide (fabDrift < 65536)
  | .tinvBc _ => true
  | .cascadeBroadcast b => b.all BcIn.wf
  | .rds _ _ _ f => f.wf
  | .rdx _ _ _ f => f.wf
  | .upg _ _ _ f => f.wf
  | .puts _ _ => true
  | .pute _ _ => true
  | .putf _ _ => true
  | .putm _ _ e => e.wf
  | .puto _ _ e => e.wf
  | .far _ _ _ f => f.wf
  | .rdc src _ _ f => src.wf && f.wf
  | .wrc src _ _ _ _ f => src.wf && f.wf
  | .cmoCln src _ _ f => src.wf && f.wf
  | .cmoFls src _ _ f => src.wf && f.wf
  | .cmoInv src _ _ f => src.wf && f.wf
  | .cas64 _ _ _ _ _ f => f.wf
  | .devRd src _ _ => src.wf
  | .devWr src _ _ => src.wf
  | .fwdS _ _ e => e.wf
  | .fwdX _ _ e => e.wf
  | .inv _ _ => true
  | .rclC _ _ e => e.wf
  | .rclI _ _ e => e.wf
  | .dataS _ _ => true
  | .dataF _ _ => true
  | .dataE _ _ => true
  | .dataM _ _ => true
  | .comp _ _ => true
  | .farRsp _ _ => true
  | .rdRsp src _ => src.wf
  | .wrCmp src _ => src.wf
  | .errRsp src _ => src.wf
  | .fwdDone _ _ => true
  | .invAck _ _ => true
  | .rclAck _ _ => true
  | .wbAck _ _ => true
  | .wbStale _ _ => true
  | .homeTimeout _ _ => true
  | .fence _ _ => true
  | .stopForward st next lane _ => st.wf && next.wf && decide (lane < 4)
  | .urgencyAgeing _ => true
  | .tokenGain st => st.wf
  | .ingressReopen st => st.wf
  | .fstopWrite _ st _ => st.wf
  | .stopDrained st => st.wf
  | .stopDrainTimeout st => st.wf
  | .stopRejoined st => st.wf
  | .rimFence _ _ => true
  | .rimDrained _ => true
  | .rimUnfence _ _ => true
  | .pwr _ => true
  | .irq _ => true
  | .hlog f => f.wf
  | .sprueDataSend _ _ => true
  | .sprueDataReceive _ _ => true
  | .ack _ _ => true
  | .nak _ _ => true
  | .nakRepeat _ => true
  | .credit _ _ => true
  | .creditRefresh _ => true
  | .train _ => true
  | .confirm _ => true
  | .detectLock _ => true
  | .detectTimeout _ => true
  | .safeTrainDone _ _ => true
  | .wideTrainDone _ _ => true
  | .confirmTimeout _ => true
  | .linkRetrain _ _ => true
  | .linkReset _ _ => true
  | .rimLinkOutage _ => true
  | .spokeLinkFence _ => true
  | .palrathFlit _ f => f.wf
  | .palLinkReset _ _ => true
  | .bundleChange _ => true
  | .ident i => i.wf
  | .identRepeat => true
  | .admissionWindowEnd => true
  | .joinGrant _ _ _ _ _ => true
  | .timeSend => true
  | .time _ _ => true
  | .timeHoldover => true
  | .bundleLoss _ _ => true
  | .patrolScrubRead _ e => e.wf
  | .mcctlWrite _ _ _ => true
  | .mcLogclr _ _ => true
  | .keyLoad _ _ _ => true
  | .keyGenerate _ _ _ _ => true
  | .keyClear _ _ _ => true
  | .keyCommandDone => true
  | .lgctlWrite _ _ _ => true
  | .linkDownDetected _ _ => true
  | .devstoreTimeout _ _ => true
  | .linkReturnsL0 _ _ _ => true
  | .perstRelease _ _ => true
  | .inboundPcieRequest _ _ q f _ => q.wf && f.wf
  | .configAccess src _ _ _ => src.wf
  | .functionLevelReset _ => true
  | .ethportEnable _ _ _ => true
  | .frameReceived _ bs _ i => decide (60 ≤ bs.length) && decide (bs.length ≤ 9212) && i.wf
  | .handover _ _ _ => true
  | .releaseSlot _ _ _ l => l.wf
  | .checkSlot _ _ _ => true
  | .fadeDone _ => true
  | .wearRecordWrite _ _ l => l.wf
  | .presentNFall _ _ _ => true
  | .cartridgeCheck _ _ => true
  | .cartridgeCheckDone _ _ _ => true
  | .presentNRise _ _ => true
  | .faultNFall _ _ => true
  | .laserLow _ _ _ => true
  | .switchoverDone _ => true
  | .sqdb _ _ _ => true
  | .cqdb _ _ _ => true
  | .queueEnable _ _ _ => true
  | .queueDisable _ _ => true
  | .descriptorFetch _ i => i.wf
  | .qirqHoldExpiry _ => true
  | .copy _ i => i.wf
  | .fill _ i => i.wf
  | .crc32c _ i => i.wf
  | .compare _ i => i.wf
  | .ladleNop _ i => i.wf
  | .ethTransmit _ i => i.wf
  | .ethRxPost _ => true
  | .shareCreate _ _ => true
  | .shareEnable _ _ => true
  | .shareDisable _ _ => true
  | .shareReset _ _ => true
  | .shareRemove _ _ => true
  | .bindQp _ _ => true
  | .shareDrainTimeout _ i => i.wf
  | .shutdownComplete _ => true
  | .encrypt _ _ c i => c.wf && i.wf
  | .decrypt _ _ c i => c.wf && i.wf
  | .mac _ _ c i => c.wf && i.wf
  | .verify _ _ c i => c.wf && i.wf
  | .sessionInit _ _ i => i.wf
  | .sessionClear _ _ i => i.wf
  | .keyWrap _ _ => true
  | .unwrap i => i.wf
  | .messageSuspend _ _ => true
  | .messageResume _ => true
  | .contextSpill i => i.wf
  | .contextFill _ _ i => i.wf
  | .ownmapWrite _ _ => true
  | .wfctlLock _ _ => true
  | .dbgauthWrite _ _ => true
  | .dapHalt _ => true
  | .dapResume _ => true
  | .dapStep _ => true
  | .dapCoreRegRead _ _ => true
  | .dapCoreRegWrite _ _ _ => true
  | .dapMemRead _ _ _ f _ => f.wf
  | .dapMemWrite _ _ _ _ f _ => f.wf
  | .dapSetupRead _ _ => true
  | .dapSetupWrite _ _ _ => true
  | .coreHalt _ => true
  | .tapIdcode => true
  | .tapSamplePreload _ => true
  | .tapExtest _ => true
  | .tapBypass _ _ => true
  | .sourceRaise _ => true
  | .intsrcWrite _ _ _ => true
  | .iack _ _ => true
  | .ieoi _ _ => true
  | .isgi _ _ => true
  | .msiWrite _ _ _ => true
  | .interruptPost _ _ => true
  | .visgi _ _ => true
  | .postingNotification _ => true
  | .viack _ _ _ => true
  | .vieoi _ _ _ => true
  | .timerFires _ _ _ => true
  | .domainRun _ _ => true
  | .domainHold _ _ => true
  | .domainBank _ _ => true
  | .domainOff _ _ => true
  | .domainStateReached _ => true
  | .domainPointOfNoReturn _ => true
  | .packageBank _ => true
  | .packageAnneal _ => true
  | .packageDisarm _ => true
  | .packageEntering => true
  | .pmeToAck _ _ => true
  | .packagePointOfNoReturn => true
  | .wakeRefPeriod => true
  | .wakeNAssert _ => true
  | .wakeTimer => true
  | .annealSample _ => true
  | .bankTripReading _ => true
  | .vstbyFail => true
  | .wakeRegulators => true
  | .wakeTimeBase => true
  | .wakeMemory => true
  | .wakeRestore => true
  | .wakeStepLate => true
  | .sensorRead tmax _ => decide (tmax.length = 12)
  | .thermalLoopTick _ _ => true
  | .powerLoopTick _ _ => true
  | .pcapctlWrite _ _ => true
  | .requesterTimeout src _ => src.wf
  | .txidRelease src _ => src.wf
  | .logClear _ _ _ => true
  | .setWalkStart _ => true
  | .wayRetirementWalkDone _ => true
  | .wayRetirementFuse _ _ _ _ => true
  | .coreRetirementFuse _ => true
  | .serviceRequestUpdate => true
  | .lifeUpdate _ _ _ => true
  | .l3InvAll _ _ _ => true
  | .invAllDone _ => true
  | .l3Enable _ _ => true
  | .l3Disable _ _ => true
  | .l3FlushDone _ => true
  | .l3SweepDone _ => true
  | .pmaskWrite _ _ _ _ => true
  | .rangeClean _ _ _ => true
  | .rangeCleanInvalidate _ _ _ => true
  | .rangeInvalidate _ _ _ => true
  | .rangeOpComplete _ => true
  | .mpBoot i => i.wf
  | .mailboxPost _ _ _ f => f.wf
  | .mbPing f => f.wf
  | .mbShare f => f.wf
  | .mbSensors f => f.wf
  | .mbCart f => f.wf
  | .mbLife f => f.wf
  | .shedEvaluation _ => true
  | .watchdogKick _ => true
  | .watchdogFire => true
  | .windowHalfAccess _ _ => true
  | .heatLogAppend => true
  | .hlsubmit _ _ f => f.wf
  | .commit f => f.wf
  | .ihlIdent _ _ => true
  | .ihlStatus _ _ => true
  | .wakeMbox _ _ _ => true
  | .hlHead _ _ _ => true
  | .hlRead _ _ _ _ _ => true
  | .hlVerify _ _ _ _ => true
  | .lifeRead _ _ => true
  | .ihlMailbox _ _ _ => true
  | .ihlDap _ _ op => op.wf
  | .bootImage _ _ _ bytes => decide (bytes.length ≤ 128)
  | .ihlInvalidFrame frame => decide (frame.length ≤ 142)
  | .warm _ => true
  | .stack _ _ => true
  | .core _ _ => true
  | .mp _ => true
  | .release _ _ => true
  | .goFull _ => true
  | .goFullHomeWindow _ _ => true
  | .goFullDone => true
  | .pwrgoodRise _ => true
  | .pwrgoodFall _ => true
  | .resetNLow => true
  | .resetNRise _ _ => true
  | .resetL2Writeback => true
  | .resetHomeFlush => true
  | .resetFinish => true
  | .timeBaseLock => true
  | .bringupFloor revs pers => decide (revs.length = 29) && decide (pers.length = 32)
  | .bringupTiles => true
  | .bringupLinkDeadline => true
  | .bringupTileInit mods => decide (mods.length = 24) && mods.all ChMods.wf
  | .tileDone _ _ _ => true
  | .tileDeadline _ => true
  | .bringupHash => true
  | .bringupDieInit _ _ drifts fabDrift => driftsWf drifts && decide (fabDrift < 65536)
  | .stackReady _ => true
  | .dieDeadline _ => true
  | .bootCoreRelease _ => true
  | .registerWrite _ _ _ => true
  | .pcieLinkLeavesL0 _ _ => true
  | .pcieCompletion _ _ _ _ _ => true
  | .cxlCompletionTimeout src _ => src.wf
  | .ethLinkChange _ _ => true
  | .hotPlugEvent _ _ => true
  | .referenceLost => true
  | .faultNRise _ _ => true
  | .tundishMailboxRequest _ => true

end Sys2Proof
end

