-- ==== Sys2Proof/Tests/Slice0.lean ====
section
/-! SUPPORT. Our own tests: ill-formed commands are refused by the checks; single commands on small states; and, for every statement that has
hypotheses, states and operands that meet them. -/
namespace Sys2Proof.Tests

set_option Elab.async false

open Sys2Proof Sys2Proof.Machine

/-! ### Small states -/

/-- One channel in service of one home, 64 GiB: every line of package 0's first memory is at home 0. -/
def ready : State := { setRg State.reset .memhash 0 (BitVec.ofNat 64 (2 ^ 24 + 2 ^ 20 + 64 * 2 ^ 10)) with
  hashChs := [0]
  hashHomes := [0] }

/-- The ready block with core c running at address 0x1000 with a status. -/
def runAt (c : Nat) (cstat : Word) : State := setCore ready c { getCore ready c with
  held := false
  pc := 0x1000
  cstat := cstat }

/-- Core 0 at PL3. -/
def W0 : State := runAt 0 0x37

/-- Core 0 at PL1 of the normal world. -/
def W1 : State := runAt 0 0x31

/-- Core 0 at PL0 of the normal world, interrupts not masked. -/
def W2 : State := runAt 0 0x00

/-- The management processor at PL1. -/
def WM : State := runAt 240 0x31

/-- The state with core 0 changed. -/
def core0 (s : State) (f : Core → Core) : State := setCore s 0 (f (getCore s 0))

/-- What Runs asks, as one check. -/
def runsNow (s : State) (c : Nat) : Bool :=
  canExec s c && (fetchSide (rstDone s 5 c 2) c).1 == .ok && !(bit (getCore (fetched s c) c).cstat 7) && !((getCore (fetched s c) c).stepping)

theorem runs_of {s : State} {c : Nat} (h : runsNow s c = true) : Runs s c := by
  simp only [runsNow, Bool.and_eq_true, Bool.not_eq_true', beq_iff_eq] at h
  exact ⟨h.1.1.1, h.1.1.2, h.1.2, h.2⟩

theorem runs_W0 : Runs W0 0 := runs_of (by decide +kernel)
theorem runs_W1 : Runs W1 0 := runs_of (by decide +kernel)
theorem runs_W2 : Runs W2 0 := runs_of (by decide +kernel)
theorem runs_WM : Runs WM 240 := runs_of (by decide +kernel)

/-! ### Instructions of a core -/

theorem witness_TwoSourceIntegerResults : Runs W0 0 ∧ dOk 0 31 = true ∧ Runs WM 240 ∧ dOk 240 7 = true :=
  ⟨runs_W0, by decide +kernel, runs_WM, by decide +kernel⟩

theorem witness_OneSourceIntegerResults : Runs W0 0 ∧ dOk 0 31 = true ∧ (⟨31, 31, 0⟩ : OpT).rs2 = 0 := ⟨runs_W0, by decide +kernel, rfl⟩

theorem witness_ImmediateResults : Runs W0 0 ∧ dOk 0 31 = true ∧ (⟨31, 31, 0, 63⟩ : OpShi).hi = 0 ∧ (⟨31, 0, 0xFFFF⟩ : OpK).rs1 = 0 ∧
    (⟨31, 3, 0xFFFF⟩ : OpK).rs1.toNat < 4 := ⟨runs_W0, by decide +kernel, rfl, rfl, by decide⟩

theorem witness_AddressOperationResults : Runs W0 0 ∧ aOk 0 15 = true ∧ dOk 0 31 = true ∧ Runs WM 240 ∧ aOk 240 7 = true :=
  ⟨runs_W0, by decide +kernel, by decide +kernel, runs_WM, by decide +kernel⟩

theorem witness_JumpAndBranchTargets : Runs W0 0 ∧ aOk 0 15 = true ∧ (aGet (fetched W0 0) 0 15).toNat % 4 = 0 :=
  ⟨runs_W0, by decide +kernel, by decide +kernel⟩

/-- Core 0 at PL1 with a saved status for PL0. -/
def wEret : State := sysSet W1 0 0x102 false 0x00
/-- Core 0 at PL1 with a saved status above its level. -/
def wEretBad : State := sysSet W1 0 0x102 false 0x37

/-- Source 5 raised and enabled for logical core 0, which is core 0, at PL1. -/
def wIrq : State := core0 (sysSet (setRg (setRg W2 .lcmap 0 0x8000) .intsrc 5 0x10000003) 0 0x800 false 0x80) (fun k => { k with arrived := [5] })

/-- Core 0 with a deferred error. -/
def wDef : State := core0 W2 (fun k => { k with defErr := some ⟨0x207C000000000000, 0x40, 0x40⟩ })

theorem witness_ExceptionEntryAndReturn :
    (Runs W2 0 ∧ plOf (getCore (fetched W2 0) 0) = 0) ∧ (Runs W1 0 ∧ plOf (getCore (fetched W1 0) 0) = 1) ∧
    (Runs wEret 0 ∧ fld (sysGet (fetched wEret 0) 0 0x102 false) 1 0 = 0 ∧ bit (sysGet (fetched wEret 0) 0 0x102 false) 2 = false ∧
      secOf (getCore (fetched wEret 0) 0) = false ∧ PendQuiet (fetched wEret 0) 0) ∧
    (Runs wEretBad 0 ∧ plOf (getCore (fetched wEretBad 0) 0) < fld (sysGet (fetched wEretBad 0) 0 0x102 false) 1 0) ∧
    (canTake wIrq 0 = true ∧ dueDeferred wIrq 0 = false ∧ (dueInterrupt wIrq 0).map (fun g => (g.intid, routeLevel (getCore wIrq 0) g)) = some (5, 1) ∧
      (getCore wIrq 0).stepping = false) ∧
    (canTake wDef 0 = true ∧ dueDeferred wDef 0 = true ∧ 1 ≤ defTarget wDef 0 ∧ defTarget wDef 0 ≤ 3) :=
  ⟨⟨runs_W2, by decide +kernel⟩, ⟨runs_W1, by decide +kernel⟩,
   ⟨runs_of (by decide +kernel), by decide +kernel, by decide +kernel, by decide +kernel, by decide +kernel⟩,
   ⟨runs_of (by decide +kernel), by decide +kernel⟩,
   ⟨by decide +kernel, by decide +kernel, by decide +kernel, by decide +kernel⟩,
   ⟨by decide +kernel, by decide +kernel, by decide +kernel, by decide +kernel⟩⟩

/-- Core 0 at PL0 with A1 not a multiple of 4. -/
def wOdd : State := aSet W2 0 1 0x1002

theorem witness_UndefAlignmentAndDenials :
    (Runs W2 0 ∧ (plOf (getCore (fetched W2 0) 0) == 0) = true) ∧ (Runs WM 240 ∧ (240 == 240) = true) ∧
    (Runs W0 0 ∧ decide (2 ≤ plOf (getCore (fetched W0 0) 0)) = true) ∧
    (Runs wOdd 0 ∧ aOk 0 1 = true ∧ (aGet (fetched wOdd 0) 0 1).toNat % 4 ≠ 0) ∧
    (Runs W2 0 ∧ plOf (getCore (fetched W2 0) 0) < 3 ∧ (0x305 : BitVec 12).toNat = 3 * 0x100 + 5) :=
  ⟨⟨runs_W2, by decide +kernel⟩, ⟨runs_WM, rfl⟩, ⟨runs_W0, by decide +kernel⟩,
   ⟨runs_of (by decide +kernel), by decide +kernel, by decide +kernel⟩, ⟨runs_W2, by decide +kernel, by decide⟩⟩

theorem witness_SystemRegisterReadAndWrite :
    Runs W0 0 ∧ dOk 0 1 = true ∧
    (∀ n ∈ [0x004, 0x700, 0x005, 0x100, 0xA00], sysCheck (fetched W0 0) 0 1 n false (wordS ⟨1, BitVec.ofNat 12 n⟩ 0x001) = none) ∧
    (∀ n ∈ [0x100, 0x101, 0x400, 0x015, 0x004], sysCheck (fetched W0 0) 0 1 n true (wordS ⟨1, BitVec.ofNat 12 n⟩ 0x002) = none) ∧
    guestView (fetched W0 0) 0 0 = false := ⟨runs_W0, by decide +kernel, by decide +kernel, by decide +kernel, by decide +kernel⟩

/-- Core 0 holds the three lines of the block CNTSAVE names, and asks for a save. -/
def wSave : State :=
  let s := dSet W0 0 1 0x0000000000100002
  [0, 1, 2].foldl (fun s i => setHline s 0 i { st := .m, data := 0 }) s

theorem witness_SystemRegisterWritesAndKeys :
    Runs W0 0 ∧ (∀ n ∈ [0x005, 0x602, 0x581], sysCheck (fetched W0 0) 0 1 n true (wordS ⟨1, BitVec.ofNat 12 n⟩ 0x002) = none) ∧
    Runs wSave 0 ∧ sysCheck (fetched wSave 0) 0 1 0x933 true (wordS ⟨1, 0x933⟩ 0x002) = none ∧
    bit (dGet (fetched wSave 0) 0 1) 1 = true ∧ bit (dGet (fetched wSave 0) 0 1) 0 = false ∧ (getCore (fetched wSave 0) 0).sb = [] ∧
    (∀ i, i < 3 → let x := hline (fetched wSave 0) 0 (fld (sysGet (fetched wSave 0) 0 0x933 false) 51 8 * 4 + i)
      x.st = .m ∧ x.err = false ∧ (x.sec = true → secOf (getCore (fetched wSave 0) 0) = true)) ∧
    Runs W1 0 ∧ plOf (getCore (fetched W1 0) 0) = 1 :=
  ⟨runs_W0, by decide +kernel, runs_of (by decide +kernel), by decide +kernel, by decide +kernel, by decide +kernel, by decide +kernel,
   by decide +kernel, runs_W1, by decide +kernel⟩


/-- Core 0 at PL1, at the management of its WAIT. -/
def wWait : State := core0 W2 (fun k => { k with waiting := true, haltPend := true })

/-- Core 0 waits, its WAITST is HOLD and an access woke it 1 us ago. -/
def wIdle : State := { core0 (setRg (setRg W2 .lcmap 0 0x8000) .cpwr 0 1) (fun k => { k with waiting := true, idleSince := some 0 }) with ptime := 1000 }

/-- Core 0 with a buffered store and an invalidation it awaits. -/
def wBusy : State := core0 W0 (fun k => { k with
  sb := [⟨0x2000, 0x2000, false, false, 8, 0, 0xFF, true, 0, 0, 0, false, 0⟩]
  tinvOut := [1] })

theorem witness_BarriersAndWaiting :
    (Runs W0 0 ∧ (getCore (fetched W0 0) 0).sb = [] ∧ (getCore (fetched W0 0) 0).maint = [] ∧ (getCore (fetched W0 0) 0).tinvOut = []) ∧
    (Runs wBusy 0 ∧ (getCore (fetched wBusy 0) 0).sb ≠ [] ∧ (getCore (fetched wBusy 0) 0).tinvOut ≠ []) ∧
    (Runs W1 0 ∧ 1 ≤ plOf (getCore (fetched W1 0) 0) ∧ waitst (fetched W1 0) 0 = 0) ∧
    ((getCore wWait 0).waiting = true ∧ (getCore wWait 0).stopped = false ∧ (getCore wWait 0).held = false ∧ (getCore wWait 0).inReset = false ∧
      bit (getCore wWait 0).cstat 7 = false ∧ (getCore wWait 0).stepping = false ∧ rgF wWait .dstate 0 2 0 = 0 ∧ (getCore wWait 0).haltPend = true) ∧
    ((getCore wIdle 0).waiting = true ∧ waitst wIdle 0 = 1 ∧ (getCore wIdle 0).idleSince = some 0 ∧ 0 + 1000 ≤ wIdle.ptime.toNat ∧
      (getCore wIdle 0).sb = [] ∧ (getCore wIdle 0).defErr = none ∧ wIdle.outst = [] ∧ rgF wIdle .dstate 0 2 0 = 0) :=
  ⟨⟨runs_W0, by decide +kernel, by decide +kernel, by decide +kernel⟩, ⟨runs_of (by decide +kernel), by decide +kernel, by decide +kernel⟩,
   ⟨runs_W1, by decide +kernel, by decide +kernel⟩, by decide +kernel, by decide +kernel⟩

/-- An invalidation of everything waits for core 1. -/
def wTinv : State := { ready with tinvQ := [(1, ⟨.all, [true, false], [1, 2, 3], none, 0, true, false, 0, 0⟩)] }

theorem witness_TlbInvalidation :
    (Runs W1 0 ∧ plOf (getCore (fetched W1 0) 0) = 1 ∧ bit (sysEff (fetched W1 0) 0 0x501 false) 1 = false ∧ (getCore (fetched W1 0) 0).sb = [] ∧
      (fetched W1 0).admitted = []) ∧
    wTinv.tinvQ.find? (fun p => p.1 == 1) = some (1, ⟨.all, [true, false], [1, 2, 3], none, 0, true, false, 0, 0⟩) :=
  ⟨⟨runs_W1, by decide +kernel, by decide +kernel, by decide +kernel, by decide +kernel⟩, by decide +kernel⟩

/-- Core 0 is being reset, with an unsent store and its window over. -/
def wDrain : State := { core0 wBusy (fun k => { k with inReset := true, drainFrom := some 0, rstKind := 1 }) with ptime := 100000 }
/-- Core 0 has failed seven checks in succession. -/
def wFails : State := core0 W0 (fun k => { k with fails := 7 })
/-- The supply of stack 0 slews; a day has passed since its last evaluation, and the evaluation is a feature of the package. -/
def wSupply : State := { setStk W0 0 { stkOf W0 0 with slewing := true } with features := 0x200, ptime := 86400000000000 }

theorem witness_CoreFailuresAndSupply :
    ((getCore W0 0).held = false ∧ (getCore W0 0).inReset = false ∧ (getCore W0 0).stopped = false ∧ (getCore W0 0).fails < 7 ∧ 7 ≤ (getCore wFails 0).fails) ∧
    ((getCore wDrain 0).drainFrom = some 0 ∧ 0 + 100000 ≤ wDrain.ptime.toNat ∧ 0 < ((getCore wDrain 0).sb.filter (fun e => !(e.sent && (e.dev || e.nc)))).length) ∧
    (bySec (.core 0 true) = true ∧ (stkOf wSupply 0).slewing = true ∧ rgF wSupply .pkgstat 0 10 8 = 0 ∧ wSupply.features.testBit 9 = true ∧
      (stkOf wSupply 0).ageAt + 86400000000000 ≤ pourTime wSupply ∧ wSupply.fabAgeAt + 86400000000000 ≤ pourTime wSupply) := by decide +kernel

/-- Core 0 holds the line at 0x2000 in M; A1 and A2 hold its address. -/
def wMem : State := setHline (aSet (aSet W0 0 1 0x2000) 0 2 0x2000) 0 0x80 { st := .m }
/-- The same with a buffered store to the line. -/
def wStore : State := core0 wMem (fun k => { k with sb := [⟨0x2000, 0x2000, false, false, 8, 0, 0xFF, true, 0, 0, 0, false, 0⟩] })
/-- Core 0 with one DEV store, sent or not. -/
def wDev (sent : Bool) : State :=
  core0 W0 (fun k => { k with sb := [⟨0xE0000000, 0xE0000000, true, false, 8, 0, 0xFF, true, 0, 0, 0, sent, 0⟩] })

theorem witness_StoreBufferDrain :
    ((getCore wStore 0).sb = [⟨0x2000, 0x2000, false, false, 8, 0, 0xFF, true, 0, 0, 0, false, 0⟩] ∧ (getCore wStore 0).bar = none ∧
      (getCore wStore 0).waiting = false ∧ isLocalMem wStore 0x2000 = true ∧ (hline wStore 0 (0x2000 / 64)).st = .m ∧
      (hline wStore 0 (0x2000 / 64)).sec = false) ∧
    ((getCore (wDev false) 0).sb = [⟨0xE0000000, 0xE0000000, true, false, 8, 0, 0xFF, true, 0, 0, 0, false, 0⟩] ∧ (getCore (wDev false) 0).bar = none ∧
      isLocalMem (wDev false) 0xE0000000 = false ∧ isRemoteMem (wDev false) 0xE0000000 = false) ∧
    ((getCore (wDev true) 0).sb = [⟨0xE0000000, 0xE0000000, true, false, 8, 0, 0xFF, true, 0, 0, 0, true, 0⟩] ∧ (getCore (wDev true) 0).inReset = false ∧
      (getCore (wDev true) 0).defErr = none) := by decide +kernel

/-- The part of the address 0x2000 an access of n bytes has. -/
def pieceN (n : Nat) : Piece := ⟨0x2000, 0x2000, n, .wb, 0, 0⟩

theorem access_of {u : State} {c va size : Nat} {kind : AccKind} {op : OpClass} {fresh : Bool} {p : Piece}
    (h : (checkAccess u c va size kind op fresh).1 = .ok [p]) (hw : p.ty = .wb)
    (h1 : (getCore (checkAccess u c va size kind op fresh).2 c).cstat = (getCore u c).cstat)
    (h2 : (getCore (checkAccess u c va size kind op fresh).2 c).stepping = (getCore u c).stepping) :
    Access u (checkAccess u c va size kind op fresh).2 c va size kind op fresh p := ⟨Prod.ext h rfl, hw, h1, h2⟩

/-- Misaligned accesses are checked at core 0, and A1 is odd. -/
def wAchk : State := sysSet (aSet W0 0 1 0x2001) 0 0x600 true 2
/-- Accumulators are disabled at PL0 and PL1. -/
def wNoQ : State := W1

theorem witness_AddressesAndAccessFaults :
    Runs wAchk 0 ∧ okM 0 ⟨3, 1, 0, 0⟩ false = true ∧ bit (sysEff (fetched wAchk 0) 0 0x600 (secOf (getCore (fetched wAchk 0) 0))) 1 = true ∧
    (∀ n ∈ [2, 4, 8], (eaM (fetched wAchk 0) 0 ⟨3, 1, 0, 0⟩ n).ea % n ≠ 0) :=
  ⟨runs_of (by decide +kernel), by decide +kernel, by decide +kernel, by decide +kernel⟩

theorem runs_wMem : Runs wMem 0 := runs_of (by decide +kernel)

theorem witness_LoadResults : Runs wMem 0 ∧
    Access (fetched wMem 0) (checkAccess (fetched wMem 0) 0 (eaM (fetched wMem 0) 0 ⟨3, 1, 1, 0⟩ 8).ea 8 .read .plain false).2 0
      (eaM (fetched wMem 0) 0 ⟨3, 1, 1, 0⟩ 8).ea 8 .read .plain false (pieceN 8) ∧
    Usable (checkAccess (fetched wMem 0) 0 (eaM (fetched wMem 0) 0 ⟨3, 1, 1, 0⟩ 8).ea 8 .read .plain false).2 0 ((pieceN 8).pa / 64) ∧
    okM 0 ⟨3, 1, 1, 0⟩ false = true ∧ okM 0 ⟨3, 1, 1, 0⟩ true = true ∧ qDisabled (fetched wMem 0) 0 = none ∧
    Access (fetched wMem 0) (checkAccess (fetched wMem 0) 0 (eaM (fetched wMem 0) 0 ⟨3, 1, 1, 0⟩ 32).ea 32 .read .q false).2 0
      (eaM (fetched wMem 0) 0 ⟨3, 1, 1, 0⟩ 32).ea 32 .read .q false (pieceN 32) ∧
    (getCore (fetched wMem 0) 0).sb.length < 64 :=
  ⟨runs_wMem, access_of (by decide +kernel) rfl (by decide +kernel) (by decide +kernel),
   ⟨by decide +kernel, by decide +kernel, by decide +kernel, by decide +kernel⟩, by decide +kernel, by decide +kernel, by decide +kernel,
   access_of (by decide +kernel) rfl (by decide +kernel) (by decide +kernel), by decide +kernel⟩

/-- Bank register 0 holds 0x2000. -/
def wBank : State := sysSet wMem 0 0x010 true 0x2000

theorem witness_LoadResults_bank : Runs wBank 0 ∧
    Access (fetched wBank 0) (checkAccess (fetched wBank 0) 0 (eaN (fetched wBank 0) 0 ⟨3, 0, 0⟩ 4) 4 .read .plain false).2 0
      (eaN (fetched wBank 0) 0 ⟨3, 0, 0⟩ 4) 4 .read .plain false (pieceN 4) :=
  ⟨runs_of (by decide +kernel), access_of (by decide +kernel) rfl (by decide +kernel) (by decide +kernel)⟩

theorem witness_StoreResults : Runs wMem 0 ∧
    Access (fetched wMem 0) (checkAccess (fetched wMem 0) 0 (eaM (fetched wMem 0) 0 ⟨3, 1, 1, 0⟩ 8).ea 8 .write .plain false).2 0
      (eaM (fetched wMem 0) 0 ⟨3, 1, 1, 0⟩ 8).ea 8 .write .plain false (pieceN 8) ∧
    (getCore (checkAccess (fetched wMem 0) 0 (eaM (fetched wMem 0) 0 ⟨3, 1, 1, 0⟩ 8).ea 8 .write .plain false).2 0).sb.length < 64 ∧
    Access (fetched wMem 0) (checkAccess (fetched wMem 0) 0 (eaM (fetched wMem 0) 0 ⟨3, 1, 1, 0⟩ 32).ea 32 .write .q false).2 0
      (eaM (fetched wMem 0) 0 ⟨3, 1, 1, 0⟩ 32).ea 32 .write .q false (pieceN 32) ∧
    Access (fetched wBank 0) (checkAccess (fetched wBank 0) 0 (eaN (fetched wBank 0) 0 ⟨3, 0, 0⟩ 4) 4 .write .plain false).2 0
      (eaN (fetched wBank 0) 0 ⟨3, 0, 0⟩ 4) 4 .write .plain false (pieceN 4) :=
  ⟨runs_wMem, access_of (by decide +kernel) rfl (by decide +kernel) (by decide +kernel), by decide +kernel,
   access_of (by decide +kernel) rfl (by decide +kernel) (by decide +kernel),
   access_of (by decide +kernel) rfl (by decide +kernel) (by decide +kernel)⟩

/-- The same with D4 holding a count of 1. -/
def wBlock : State := dSet wMem 0 4 1

/-- The state after the source of a block element of 8 bytes is checked. -/
def wBlock1 : State := (checkAccess (fetched wBlock 0) 0 (aGet (fetched wBlock 0) 0 2).toNat 8 .read .block false).2

theorem witness_BlockRepeatElements :
    (Runs wMem 0 ∧ (⟨4, 1, 2, 0, false, 3⟩ : OpR).res = false ∧ dGet (fetched wMem 0) 0 4 = 0) ∧
    (Runs wBlock 0 ∧ dGet (fetched wBlock 0) 0 4 = 1 ∧
      Access (fetched wBlock 0) wBlock1 0 (aGet (fetched wBlock 0) 0 2).toNat 8 .read .block false (pieceN 8) ∧
      Access wBlock1 (checkAccess wBlock1 0 (aGet (fetched wBlock 0) 0 1).toNat 8 .write .block false).2 0 (aGet (fetched wBlock 0) 0 1).toNat 8
        .write .block false (pieceN 8) ∧
      Access wBlock1 (checkAccess wBlock1 0 (aGet (fetched wBlock 0) 0 1).toNat 8 .read .block false).2 0 (aGet (fetched wBlock 0) 0 1).toNat 8
        .read .block false (pieceN 8) ∧
      Usable wBlock1 0 (0x2000 / 64) ∧ dGet wBlock1 0 4 = 1 ∧ (getCore wBlock1 0).sb.length < 60) :=
  ⟨⟨runs_wMem, rfl, by decide +kernel⟩,
   ⟨runs_of (by decide +kernel), by decide +kernel, access_of (by decide +kernel) rfl (by decide +kernel) (by decide +kernel),
    access_of (by decide +kernel) rfl (by decide +kernel) (by decide +kernel),
    access_of (by decide +kernel) rfl (by decide +kernel) (by decide +kernel),
    ⟨by decide +kernel, by decide +kernel, by decide +kernel, by decide +kernel⟩, by decide +kernel, by decide +kernel⟩⟩

theorem witness_AccumulatorResults : Runs W0 0 ∧ qDisabled (fetched W0 0) 0 = none ∧ (⟨0, 0, 0, 0, 1⟩ : OpY).ln.toNat < 2 ∧
    (7 : BitVec 3).toNat < 256 / 32 := ⟨runs_W0, by decide +kernel, by decide, by decide⟩

/-- The state after an atomic of 4 bytes at 0x2000 is checked. -/
def wAtomic : State := (checkAccess (fetched wMem 0) 0 (aGet (fetched wMem 0) 0 1).toNat 4 .rw .atomic false).2

theorem witness_NearAtomicResults : Runs wMem 0 ∧ (⟨3, 1, 4, false, false, 0, 2⟩ : OpAt).res = 0 ∧
    Access (fetched wMem 0) wAtomic 0 (aGet (fetched wMem 0) 0 1).toNat 4 .rw .atomic false (pieceN 4) ∧ placeFar wAtomic 0 0 = false ∧
    (getCore wAtomic 0).sb = [] ∧ Usable wAtomic 0 (0x2000 / 64) ∧ (hline wAtomic 0 (0x2000 / 64)).st = .m :=
  ⟨runs_wMem, rfl, access_of (by decide +kernel) rfl (by decide +kernel) (by decide +kernel), by decide +kernel, by decide +kernel,
   ⟨by decide +kernel, by decide +kernel, by decide +kernel, by decide +kernel⟩, by decide +kernel⟩

/-- The same with core 0 holding a reservation of the granule. -/
def wResv : State := core0 wMem (fun k => { k with resv := some ⟨0x2000, 0x80, true⟩ })
/-- The states after the checks of LRES and SCOND of 8 bytes at 0x2000. -/
def wLres : State := (checkAccess (fetched wMem 0) 0 (aGet (fetched wMem 0) 0 1).toNat 8 .read .resv false).2
def wScond : State := (checkAccess (fetched wResv 0) 0 (aGet (fetched wResv 0) 0 1).toNat 8 .rw .resv false).2

theorem witness_LoadReserveStoreConditional :
    (Runs wMem 0 ∧ (getCore wLres 0).sb = [] ∧ Access (fetched wMem 0) wLres 0 (aGet (fetched wMem 0) 0 1).toNat 8 .read .resv false (pieceN 8) ∧
      Usable wLres 0 (0x2000 / 64)) ∧
    (Runs wResv 0 ∧ (getCore wScond 0).sb = [] ∧ Access (fetched wResv 0) wScond 0 (aGet (fetched wResv 0) 0 1).toNat 8 .rw .resv false (pieceN 8) ∧
      Usable wScond 0 (0x2000 / 64) ∧ (hline wScond 0 (0x2000 / 64)).st = .m ∧
      (getCore wScond 0).resv = some ⟨0x2000, 0x80, true⟩ ∧ secOf (getCore wScond 0) = true) ∧
    (getCore (checkAccess (fetched wMem 0) 0 (aGet (fetched wMem 0) 0 1).toNat 8 .rw .resv false).2 0).resv = none :=
  ⟨⟨runs_wMem, by decide +kernel, access_of (by decide +kernel) rfl (by decide +kernel) (by decide +kernel),
    ⟨by decide +kernel, by decide +kernel, by decide +kernel, by decide +kernel⟩⟩,
   ⟨runs_of (by decide +kernel), by decide +kernel, access_of (by decide +kernel) rfl (by decide +kernel) (by decide +kernel),
    ⟨by decide +kernel, by decide +kernel, by decide +kernel, by decide +kernel⟩, by decide +kernel, by decide +kernel, by decide +kernel⟩,
   by decide +kernel⟩

/-- Core 0 of package 0, with package 1 admitted and A1 an address of its memory. -/
def wRemote : State := { aSet W0 0 1 0x400000002000 with admitted := [0, 1] }
/-- An operation of core 0 has ended with error. -/
def wMaint : State := core0 W0 (fun k => { k with maint := [⟨0x80, 0x2000, 0x2000, true, 0, .error⟩] })

theorem witness_CacheMaintenance :
    (Runs wRemote 0 ∧ (xlat (fetched wRemote 0) 0 .read .maint false (aGet (fetched wRemote 0) 0 1).toNat false).1 = .ok ⟨0x400000002000, .wb, 0, 0⟩ ∧
      (xlat (fetched wRemote 0) 0 .write .maint false (aGet (fetched wRemote 0) 0 1).toNat false).1 = .ok ⟨0x400000002000, .wb, 0, 0⟩ ∧
      isLocalMem wRemote 0x400000002000 = false ∧ isRemoteMem wRemote 0x400000002000 = true ∧ (getCore wRemote 0).sb = [] ∧
      transSt (hline wRemote 0 (0x400000002000 / 64)).st = false) ∧
    (Runs W2 0 ∧ plOf (getCore (fetched W2 0) 0) = 0) ∧
    ((getCore wMaint 0).maint.find? (fun y => y.st != .pending) = some ⟨0x80, 0x2000, 0x2000, true, 0, .error⟩ ∧ (getCore wMaint 0).bar = none ∧
      (getCore wMaint 0).defErr = none) :=
  ⟨⟨runs_of (by decide +kernel), by decide +kernel, by decide +kernel, by decide +kernel, by decide +kernel, by decide +kernel⟩,
   ⟨runs_W2, by decide +kernel⟩, by decide +kernel⟩

/-! ### Interrupts -/

/-- Source 5 is raised, enabled and routed to logical core 0; nothing has reached the core. -/
def wSrc : State := setRg (setRg W1 .lcmap 0 0x8000) .intsrc 5 0x10000003
/-- Its notification is on its way to core 0. -/
def pkSrc : Packet := { cmd := .irq, src := ⟨12, 18⟩, dst := coreStop 0, cls := .g, addr := 0, arg := 5 }
/-- Vector 0 is enabled. -/
def wVec : State := setRg ready .msictl 0 1
/-- Source 5 is secure. -/
def wSec : State := setRg ready .intsrc 5 0x90000000

theorem witness_InterruptSources :
    (sourceExists 5 = true ∧ sourceExists 383 = false ∧ bit (rg ready .msictl 0) 30 = false) ∧
    (bit (rg wVec .msictl 0) 0 = true ∧ vecShare wVec 0 = none ∧ bit (rg wVec .msictl 0) 47 = false ∧ vecSec wVec 0 = false ∧
      bit (rg ready .msictl 0) 0 = false ∧ (0x7FFF : BitVec 32).toNat < 0x8000) ∧
    (bit (rg wSrc .intsrc 5) 1 = true ∧ bit (rg wSrc .intsrc 5) 0 = true ∧ bit (rg wSrc .intsrc 5) 2 = false ∧
      lcTarget wSrc (fld (rg wSrc .intsrc 5) 23 16) = some 0 ∧ 5 ∉ (getCore wSrc 0).arrived ∧ wSrc.net ++ wSrc.parked ++ wSrc.gHeld = [] ∧
      takePacket (fun p => p.cmd == .irq && p.holder == 0 && p.arg == 5) { wSrc with net := [pkSrc] } = some (pkSrc, wSrc) ∧
      stopDead wSrc (coreStop 0) = false) ∧
    (bySec (.core 0 true) = true ∧ bySec (.core 0 false) = false ∧ bit (rg wSrc .intsrc 5) 31 = false ∧ bit (rg wSec .intsrc 5) 31 = true) := by
  decide +kernel

/-- Core 0 at PL1 with source 5 signalled. -/
def wSig : State := core0 (sysSet wSrc 0 0x800 false 0x80) (fun k => { k with arrived := [5] })
/-- The same with priority 0x10, which the mask lets pass. -/
def wSig1 : State := setRg wSig .intsrc 5 0x10001003
/-- Core 0 has acknowledged source 5 and ends it with D1. -/
def wAct : State := dSet (core0 wSrc (fun k => { k with active := [⟨5, 0x10⟩] })) 0 1 5
/-- D1 names logical core 0; D2 a vacant one; D3 no interrupt. -/
def wSgi : State := dSet (dSet wSrc 0 1 0x1003) 0 2 0x100001003

theorem witness_InterruptInterface :
    (Runs wSrc 0 ∧ sysCheck (fetched wSrc 0) 0 1 0x801 false (wordS ⟨1, 0x801⟩ 0x001) = none ∧ sysTarget (fetched wSrc 0) 0 0x801 = 0x801 ∧
      iackChoice (fetched wSrc 0) 0 = none) ∧
    (Runs wSig1 0 ∧ (iackChoice (fetched wSig1 0) 0).map (·.intid) = some 5) ∧
    (Runs wAct 0 ∧ sysCheck (fetched wAct 0) 0 1 0x802 true (wordS ⟨1, 0x802⟩ 0x002) = none ∧ sysTarget (fetched wAct 0) 0 0x802 = 0x802 ∧
      (getCore (fetched wAct 0) 0).active.getLast? = some ⟨5, 0x10⟩ ∧ fld (dGet (fetched wAct 0) 0 1) 15 0 = 5) ∧
    ((getCore (fetched wSrc 0) 0).active = [] ∧ sysCheck (fetched wSrc 0) 0 1 0x802 true (wordS ⟨1, 0x802⟩ 0x002) = none) ∧
    (Runs wSgi 0 ∧ sysCheck (fetched wSgi 0) 0 1 0x805 true (wordS ⟨1, 0x805⟩ 0x002) = none ∧
      bit (dGet (fetched wSgi 0) 0 1) 40 = false ∧ lcTarget (fetched wSgi 0) (fld (dGet (fetched wSgi 0) 0 1) 39 32) = some 0 ∧
      bit (dGet (fetched wSgi 0) 0 2) 40 = false ∧ lcTarget (fetched wSgi 0) (fld (dGet (fetched wSgi 0) 0 2) 39 32) = none) :=
  ⟨⟨runs_of (by decide +kernel), by decide +kernel, by decide +kernel, by decide +kernel⟩, ⟨runs_of (by decide +kernel), by decide +kernel⟩,
   ⟨runs_of (by decide +kernel), by decide +kernel, by decide +kernel, by decide +kernel, by decide +kernel⟩, by decide +kernel,
   ⟨runs_of (by decide +kernel), by decide +kernel, by decide +kernel, by decide +kernel, by decide +kernel, by decide +kernel⟩⟩

theorem homeOpen_of {s : State} {l : Nat} (h : isLocalMem s (l * 64) = true ∧ stopDead s (lineStop s l) = false ∧ stopHeld s (lineStop s l) = false ∧
    chLost s l = false ∧ busyOf s l = none ∧ busyCount s l < 56) (hn : s.dirWait = [] ∧ s.net = []) : HomeOpen s l :=
  ⟨h.1, h.2.1, h.2.2.1, h.2.2.2.1, h.2.2.2.2.1, h.2.2.2.2.2, by simp [hn.1], by simp [hn.2], by simp [hn.2]⟩

/-- Record 0x20, at 0x2000, has CTL.SN set; core 0 runs at PL2 of the normal world; D1 posts virtual INTID 7 to it. -/
def wPost : State := dSet (memRawSet (runAt 0 0x32) 0x82 2) 0 1 0x01C0000000002000
/-- The guest interface of core 0 names record 0x20, in which INTID 7 is pending; D1 is 7. -/
def wGuest : State :=
  let s := memRawSet (memRawSet (runAt 0 0x32) 0x82 2) 0x80 0x80
  let s := sysSet (sysSet (sysSet s 0 0x500 false 2) 0 0x504 false 0x2001) 0 0x810 false 0xFF
  core0 (dSet s 0 1 7) (fun k => { k with vpend := 0x80 })
/-- A notification of record 0x20 has reached core 0's stop. -/
def pkIrq : Packet := { cmd := .irq, src := ⟨12, 16⟩, dst := ⟨0, 0⟩, cls := .g, addr := 0x2000, holder := 1 }
/-- The guest has one interrupt active, of priority 1. -/
def wVrun : State := sysSet wGuest 0 0x813 false 0x101

theorem homeFree_wPost : HomeFree (fetched wPost 0) 0x2000 false :=
  ⟨homeOpen_of (by decide +kernel) (by decide +kernel), by decide +kernel, by decide +kernel, by decide +kernel, by decide +kernel, by decide +kernel⟩
theorem homeFree_wGuest : HomeFree (fetched wGuest 0) 0x2000 false :=
  ⟨homeOpen_of (by decide +kernel) (by decide +kernel), by decide +kernel, by decide +kernel, by decide +kernel, by decide +kernel, by decide +kernel⟩

theorem postQuiet_wPost : PostQuiet (fetched wPost 0) 0x20 7 :=
  ⟨homeFree_wPost, by decide +kernel, by decide +kernel, by decide +kernel, by decide +kernel⟩

theorem witness_GuestInterruptsAndTimers :
    (Runs wPost 0 ∧ sysCheck (fetched wPost 0) 0 1 0x815 true (wordS ⟨1, 0x815⟩ 0x002) = none ∧
      PostQuiet (fetched wPost 0) 0x20 7 ∧ fld (dGet (fetched wPost 0) 0 1) 51 8 = 0x20 ∧ fld (dGet (fetched wPost 0) 0 1) 63 54 = 7) ∧
    (∃ u, takePacket (fun p => p.cmd == .irq && p.holder == 1 && p.dst == coreStop 0) { ready with net := [pkIrq] } = some (pkIrq, u) ∧
      guestOn { ready with net := [pkIrq] } 0 = false) ∧
    (Runs wPost 0 ∧ sysCheck (fetched wPost 0) 0 1 0x811 false (wordS ⟨1, 0x811⟩ 0x001) = none ∧ sysTarget (fetched wPost 0) 0 0x811 = 0x811 ∧
      bestSig (guestSigs (fetched wPost 0) 0) = none) ∧
    (Runs wGuest 0 ∧ (bestSig (guestSigs (fetched wGuest 0) 0)).map (·.intid) = some 7 ∧ vpostRecord (fetched wGuest 0) 0 + 7 / 64 * 8 = 0x2000 ∧
      secOf (getCore (fetched wGuest 0) 0) = false ∧ HomeFree (fetched wGuest 0) 0x2000 false) ∧
    (Runs wVrun 0 ∧ sysCheck (fetched wVrun 0) 0 1 0x812 true (wordS ⟨1, 0x812⟩ 0x002) = none ∧ sysTarget (fetched wVrun 0) 0 0x812 = 0x812 ∧
      fld (sysGet (fetched wVrun 0) 0 0x813 false) 2 0 = 1 ∧ fld (dGet (fetched wVrun 0) 0 1) 15 0 = 7 ∧
      fld (sysGet (fetched wVrun 0) 0 0x813 false) 15 8 = 7 / 4 ∧ PendQuiet (fetched wVrun 0) 0) :=
  ⟨⟨runs_of (by decide +kernel), by decide +kernel, postQuiet_wPost, by decide +kernel, by decide +kernel⟩,
   ⟨{ ready with net := [] }, by decide +kernel, by decide +kernel⟩, ⟨runs_of (by decide +kernel), by decide +kernel, by decide +kernel, by decide +kernel⟩,
   ⟨runs_of (by decide +kernel), by decide +kernel, by decide +kernel, by decide +kernel, homeFree_wGuest⟩,
   ⟨runs_of (by decide +kernel), by decide +kernel, by decide +kernel, by decide +kernel, by decide +kernel, by decide +kernel,
    by decide +kernel⟩⟩

/-! ### Coherence -/

/-- Core 0 holds the line at 0x2000 in a state; the home's entry names it. -/
def wHolds (st : HState) (e : DState) : State := setHline { ready with dir := [(0x80, { st := e, ptr := 0, cores := 1 })] } 0 0x80 { st := st, data := 0xAB }
/-- Core 1 owns the line; core 0 does not hold it. -/
def wOwned : State := { ready with dir := [(0x80, { st := .dx, ptr := 1, cores := 2 })] }
/-- Core 0's demand accesses of the secure world have translated the page of 0x2000. -/
def wPage (s : State) : State := core0 s (fun k => { k with pages := [(accWorld s 0, 2, 0)] })

/-- What Takes asks, as one check. -/
def takesNow (s : State) (st : StopId) : Bool := !(stopDead s st) && ((stopDom st).map (domState s)).getD 0 == 0
theorem takes_of {s : State} {st : StopId} (h : takesNow s st = true) : Takes s st := by
  simp only [takesNow, Bool.and_eq_true, Bool.not_eq_true', beq_iff_eq] at h
  exact ⟨h.1, fun d hd => by simpa [hd] using h.2⟩

theorem witness_CoherenceRequests :
    (HomeOpen ready 0x80 ∧ fencedAt ready (lineLoc ready 0x80).home 0 = false ∧ (hline ready 0 0x80).err = false ∧
      worldAllows ready true (0x80 * 64) ⟨true, true⟩ = true ∧ (dirGet ready 0x80).st = .none_ ∧ (dirAlloc ready 0x80).1 = .way 0 ∧
      (llcPeek ready 0x80 0).err = false ∧ (hline ready 0 0x80).st = .i ∧ l2Full ready 0 0x80 = false ∧
      mayPrefetch (wPage ready) 0 0x80 ⟨accWorld ready 0, 0, 0⟩ = true ∧ HomeOpen (wPage ready) 0x80) ∧
    (HomeOpen (wHolds .s .dsf) 0x80 ∧ lists (dirGet (wHolds .s .dsf) 0x80) 0 = true ∧ (∀ j ∈ holdersOf (dirGet (wHolds .s .dsf) 0x80), j = 0) ∧
      (hline (wHolds .s .dsf) 0 0x80).st = .s ∧ (dirGet (wHolds .s .dsf) 0x80).st ≠ .do_ ∧
      (dirGet (wHolds .o .do_) 0x80).ptr = 0 ∧ (hline (wHolds .o .do_) 0 0x80).st = .o) ∧
    (HomeOpen wOwned 0x80 ∧ (dirGet wOwned 0x80).st = .dx ∧ (dirGet wOwned 0x80).ptr ≠ 0 ∧ fencedAt wOwned (lineLoc wOwned 0x80).home 1 = false ∧
      (hline wOwned 0 0x80).st = .i ∧ worldAllows wOwned false (0x80 * 64) ⟨true, true⟩ = true ∧ l2Full wOwned 0 0x80 = false ∧
      mayPrefetch (wPage wOwned) 0 0x80 ⟨accWorld wOwned 0, 0, 0⟩ = true) :=
  ⟨⟨homeOpen_of (by decide +kernel) ⟨rfl, rfl⟩, by decide +kernel, by decide +kernel, by decide +kernel, by decide +kernel, by decide +kernel,
    by decide +kernel, by decide +kernel, by decide +kernel, by decide +kernel, homeOpen_of (by decide +kernel) ⟨rfl, rfl⟩⟩,
   ⟨homeOpen_of (by decide +kernel) ⟨rfl, rfl⟩, by decide +kernel⟩, ⟨homeOpen_of (by decide +kernel) ⟨rfl, rfl⟩, by decide +kernel⟩⟩

theorem witness_Evictions :
    (HomeOpen (wHolds .s .ds) 0x80 ∧ fencedAt (wHolds .s .ds) 0 0 = false ∧ reservedLine (wHolds .s .ds) 0 0x80 = false ∧
      (hline (wHolds .s .ds) 0 0x80).st = .s ∧ (dirGet (wHolds .s .ds) 0x80).st = .ds) ∧
    (∀ r ∈ ([(.e, .dx), (.m, .dx), (.o, .do_), (.f, .dsf)] : List (HState × DState)), busyOf (wHolds r.1 r.2) 0x80 = none ∧
      (hline (wHolds r.1 r.2) 0 0x80).st = r.1 ∧ (dirGet (wHolds r.1 r.2) 0x80).st = r.2 ∧ (dirGet (wHolds r.1 r.2) 0x80).ptr = 0 ∧
      (hline (wHolds r.1 r.2) 0 0x80).keyid = 0) :=
  ⟨⟨homeOpen_of (by decide +kernel) ⟨rfl, rfl⟩, by decide +kernel, by decide +kernel, by decide +kernel, by decide +kernel⟩, by decide +kernel⟩

/-- The L3 of home 0 is in use and holds the line at 0x2000, dirty. -/
def wL3 : State := { setRgF ready .l3ctl 0 0 0 1 with l3 := [(0x80, { valid := true, dirty := true, data := 0xAB })] }

theorem homeFree_ready : HomeFree ready 0x2000 false :=
  ⟨homeOpen_of (by decide +kernel) ⟨rfl, rfl⟩, by decide +kernel, by decide +kernel, by decide +kernel, by decide +kernel, by decide +kernel⟩
theorem homeFree_wL3 : HomeFree wL3 0x2000 false :=
  ⟨homeOpen_of (by decide +kernel) ⟨rfl, rfl⟩, by decide +kernel, by decide +kernel, by decide +kernel, by decide +kernel, by decide +kernel⟩

theorem witness_UncachedRequests :
    (HomeFree ready 0x2000 false ∧ (⟨0, 0⟩ : StopId) ≠ ⟨12, 22⟩ ∧ (l3Line ready 0x80).keyid = 0 ∧ (l3Line ready 0x80).valid = false) ∧
    (HomeFree wL3 0x2000 false ∧ (l3Line wL3 0x80).keyid = 0 ∧ (l3Line wL3 0x80).valid = true ∧ (l3Line wL3 0x80).dirty = true) ∧
    0x2000 % 8 = 0 :=
  ⟨⟨homeFree_ready, by decide, by decide +kernel, by decide +kernel⟩, ⟨homeFree_wL3, by decide +kernel, by decide +kernel, by decide +kernel⟩,
   by decide⟩

/-- A message about the line at 0x2000 on its way to a stop. -/
def pk (c : Cmd) (dst : StopId) : Packet := { cmd := c, src := ⟨0, 20⟩, dst := dst, addr := 0x2000, holder := 0, txid := 5 }
/-- The block with core 0 holding the line in a state, and a message on its way. -/
def wMsg (st : HState) (c : Cmd) : State := { wHolds st .dx with net := [pk c ⟨0, 0⟩] }

theorem witness_SnoopAnswers :
    (∀ r ∈ ([(.m, .fwdS), (.o, .fwdS), (.e, .fwdS), (.f, .fwdS), (.m, .fwdX), (.f, .fwdX), (.s, .inv), (.m, .rclC), (.e, .rclI)] : List (HState × Cmd)),
      takePacket (fun q => isFor r.2 0 0x80 q && !(stopHeld (wMsg r.1 r.2) q.dst) && !(outbound (wMsg r.1 r.2) q)) (wMsg r.1 r.2) =
        some (pk r.2 ⟨0, 0⟩, { wMsg r.1 r.2 with net := [] }) ∧
      takesNow (wMsg r.1 r.2) ⟨0, 0⟩ = true ∧ holderStop 0 = ⟨0, 0⟩ ∧ (hline (wMsg r.1 r.2) 0 0x80).st = r.1) := by decide +kernel
theorem witness_SnoopAnswers_takes : Takes (wMsg .m .fwdS) (holderStop 0) := takes_of (by decide +kernel)

/-- Core 0's line is in a transaction, and its answer is on its way. -/
def wAns (x : CLine) (c : Cmd) : State := { setHline ready 0 0x80 x with net := [pk c ⟨0, 0⟩] }

theorem witness_AnswersAtHolders :
    (∀ r ∈ ([({ st := .isd, txid := 5 }, .dataS), ({ st := .isd, txid := 5 }, .dataE), ({ st := .imd, txid := 5, gotComp := true }, .dataM),
        ({ st := .imd, txid := 5 }, .comp), ({ st := .smc, txid := 5, base := .s }, .comp), ({ st := .xia, putId := 5, base := .m }, .wbAck),
        ({ st := .xia, putId := 5, base := .e }, .wbStale)] : List (CLine × Cmd)),
      takePacket (fun q => isFor r.2 0 0x80 q && !(stopHeld (wAns r.1 r.2) q.dst) && !(outbound (wAns r.1 r.2) q)) (wAns r.1 r.2) =
        some (pk r.2 ⟨0, 0⟩, { wAns r.1 r.2 with net := [] }) ∧
      takesNow (wAns r.1 r.2) ⟨0, 0⟩ = true ∧ (getCore (wAns r.1 r.2) 0).sb = [] ∧ (hline (wAns r.1 r.2) 0 0x80) = r.1 ∧ r.1.held = [] ∧
      r.1.dropFill = false ∧ (r.1.st = .xia ∨ (pk r.2 ⟨0, 0⟩).txid = r.1.txid)) := by decide +kernel

/-- Home 0 serves a request of core 1 for the line at 0x2000 that core 0 owns, and waits for core 0. -/
def busyFor (c : Cmd) (fwd : Option Nat) (await : List Nat) : Busy :=
  ⟨.request, { cmd := c, src := ⟨0, 1⟩, dst := ⟨0, 20⟩, addr := 0x2000, holder := 1, txid := 5 }, await, fwd, [(0, 1)], false, none, false, 0, 0,
    false, .i, [], [], false⟩
/-- The home of the line at 0x2000 serves another request of it. -/
def wTaken (s : State) : State := { s with busy := [(0x80, some (busyFor .rdc none [0]))] }
/-- Core 0's answer: with the data when it is a recall's. -/
def pkHome (c : Cmd) : Packet := { pk c ⟨0, 20⟩ with src := ⟨0, 0⟩, dirty := c == .rclAck, kept := if c == .fwdDone then .o else .i }
/-- The block with that answer on its way. -/
def wHome (req : Cmd) (fwd : Option Nat) (await : List Nat) (c : Cmd) : State :=
  { wHolds .m .dx with
    busy := [(0x80, some (busyFor req fwd await))]
    net := [pkHome c] }
/-- The home has waited longer than HTIMEOUT allows. -/
def wLate : State := { wHome .rds (some 0) [] .inv with net := [], ptime := 1000000000 }
/-- A fence notice for core 0 on its way to the hub. -/
def pkFence : Packet := { cmd := .fence, src := ⟨12, 19⟩, dst := ⟨12, 21⟩, cls := .g, holder := 0 }

theorem witness_AnswersAtHomes :
    (∀ r ∈ ([(.rds, some 0, [], .fwdDone), (.rdx, none, [0], .invAck), (.upg, none, [0], .invAck), (.rdc, none, [0], .rclAck)] :
        List (Cmd × Option Nat × List Nat × Cmd)),
      let s := wHome r.1 r.2.1 r.2.2.1 r.2.2.2
      takePacket (fun q => isFor r.2.2.2 0 0x80 q && !(stopHeld s q.dst) && !(outbound s q)) s = some (pkHome r.2.2.2, { s with net := [] }) ∧
      takesNow s ⟨0, 20⟩ = true ∧ (busyFor r.1 r.2.1 r.2.2.1).kind = .request ∧ (busyFor r.1 r.2.1 r.2.2.1).failed = false ∧
      (pkHome r.2.2.2).txid = (busyFor r.1 r.2.1 r.2.2.1).cur.txid ∧ fencedAt s (lineLoc s 0x80).home 0 = false ∧ busyOf s 0x80 = some (busyFor r.1 r.2.1 r.2.2.1) ∧ s.dirWait = [] ∧
      pLine (busyFor r.1 r.2.1 r.2.2.1).cur = 0x80 ∧ (dirGet s 0x80).st = .dx ∧ (dirGet s 0x80).ptr = 0 ∧ chLost s 0x80 = false ∧
      lists (dirGet s 0x80) 0 = true ∧ (pkHome r.2.2.2).r = false) ∧
    (isLocalMem wLate 0x2000 = true ∧ busyOf wLate 0x80 = some (busyFor .rds (some 0) []) ∧ tget 0 0 (busyFor .rds (some 0) []).timers = 1 ∧
      1 + rgF wLate .cohctl (lineLoc wLate 0x80).home 15 0 * 1000 ≤ wLate.ptime.toNat + 1) ∧
    (wHome .rds (some 0) [] .inv).ptime.toNat + 1 < 1 + rgF wLate .cohctl 0 15 0 * 1000 ∧
    (takePacket (fun q => q.cmd == .fence && q.holder == 0 && q.dst.die == 12) { ready with net := [pkFence] } = some (pkFence, ready)) := by
  decide +kernel

/-- Core 0 waits for the answer of an access. -/
def wWaits (k : WaitKind) (c : Cmd) : State :=
  { core0 W0 (fun x => { x with acc := some ⟨k, 0xE0000000, 0xE0000000, 8, .d, 3, none, 5, 0, false, false⟩ }) with net := [pk c ⟨0, 0⟩] }
/-- Core 0 has a DEV store that has been sent, and its completion is on its way. -/
def wSent : State := { core0 W0 (fun k => { k with sb := [⟨0xE0000000, 0xE0000000, true, false, 8, 0, 0xFF, true, 0, 0, 0, true, 5⟩] }) with
  net := [pk .wrCmp ⟨0, 0⟩] }
/-- A DEV access of the register window, of RQTO or of an offset no register has. -/
def pkDev (c : Cmd) (off : Nat) : Packet :=
  { cmd := c, src := ⟨0, 0⟩, dst := ⟨12, 19⟩, cls := .b, addr := 0xFFF0000000000 + off, size := 3, txid := 5, world := true }

theorem witness_AnswersAtAgents :
    (takePacket (fun q => q.cmd == .farRsp && q.dst == coreStop 0 && q.txid == 5 && pLine q == 0x80) (wWaits .farAtomic .farRsp) =
        some (pk .farRsp ⟨0, 0⟩, { wWaits .farAtomic .farRsp with net := [] }) ∧ bit (getCore (wWaits .farAtomic .farRsp) 0).cstat 7 = false) ∧
    (∀ c ∈ [Cmd.rdRsp, .errRsp], takePacket (fun q => q.cmd == c && q.dst == coreStop 0 && q.txid == 5) (wWaits .devLoad c) =
        some (pk c ⟨0, 0⟩, { wWaits .devLoad c with net := [] }) ∧ timedOut (wWaits .devLoad c) (coreStop 0) 5 = false ∧
        (getCore (wWaits .devLoad c) 0).inReset = false ∧ (getCore (wWaits .devLoad c) 0).bar = none ∧
        isHub (wWaits .devLoad c) (coreStop 0) 5 = false ∧ hwOf (wWaits .devLoad c) (coreStop 0) 5 = none ∧
        ((getCore (wWaits .devLoad c) 0).acc.map (fun a => (a.kind, a.txid, a.half, a.mem))) = some (.devLoad, 5, false, false) ∧
        transSt (hline (wWaits .devLoad c) 0 0x80).st = false) ∧
    (takePacket (fun q => q.cmd == .wrCmp && q.dst == coreStop 0 && q.txid == 5) wSent = some (pk .wrCmp ⟨0, 0⟩, { wSent with net := [] }) ∧
      timedOut wSent (coreStop 0) 5 = false ∧ isHub wSent (coreStop 0) 5 = false ∧ askOf (getCore wSent 0) 5 = none) ∧
    (∀ c ∈ [Cmd.devRd, .devWr], let s := { ready with net := [pkDev c 0xB0018] }
      takesNow s ⟨12, 19⟩ = true ∧ paKind s (pkDev c 0xB0018).addr = .regWin s.pkg 0xB0018 ∧ (pkDev c 0xB0018).addr % 8 = 0 ∧
      takePacket (fun q => q.cmd == c && q.src == ⟨0, 0⟩ && q.txid == 5) s = some (pkDev c 0xB0018, ready) ∧
      (regRead ready (devBy (pkDev c 0xB0018)) 0xB0018).isSome = true ∧ (regWrite ready (devBy (pkDev c 0xB0018)) 0xB0018 0x100).isSome = true ∧
      (regRead ready (devBy (pkDev c 0xB0018)) 0xFFF8).isSome = false ∧ (regWrite ready (devBy (pkDev c 0xB0018)) 0xFFF8 0).isSome = false) := by
  decide +kernel

/-! ### The fabric and its links -/

/-- A packet of core 0 waits at its source. -/
def pkGo (dst : StopId) (src : StopId := ⟨0, 0⟩) : Packet := { cmd := .rds, src := src, dst := dst, addr := 0x2000, txid := 5 }
/-- A packet of core 0 with a data unit. -/
def pkRec : Packet := { pkGo ⟨0, 2⟩ with cmd := .cas64 }
/-- Packets in flight. -/
def wNet (ps : List Packet) : State := { ready with net := ps }
/-- The next stop's packets, when they are served, and whether that end of the route is fenced. -/
def served (s : State) (cur goes : StopId) (lane : Nat) : List (StopId × Bool) :=
  (eligible s cur goes lane).map (fun x => (x.2.1.dst, fencedOn s x.2.1 64 goes))
/-- Core 0 wakes, and a packet for it is parked. -/
def wWake : State := { setRg ready .dstate 0 5 with parked := [pkGo ⟨0, 0⟩ ⟨0, 1⟩] }
/-- At 1 ms. -/
def late (s : State) : State := { s with ptime := 1000000 }

theorem witness_FabricForwarding :
    (served (wNet [pkGo ⟨0, 2⟩]) ⟨0, 0⟩ ⟨0, 1⟩ (otagHash 0 (pkGo ⟨0, 2⟩) % 2) = [(⟨0, 2⟩, false)] ∧ txEnd ⟨0, 0⟩ ⟨0, 1⟩ = none) ∧
    (served (wNet [pkRec]) ⟨0, 0⟩ ⟨0, 1⟩ (otagHash 0 pkRec % 2) = [(⟨0, 2⟩, false)] ∧ 0 < pktLen pkRec ∧
      (match exec (.stopForward ⟨0, 0⟩ ⟨0, 1⟩ (otagHash 0 pkRec % 2) .dataBad) (wNet [pkRec]) with
        | .next t => t.net.map (fun p => (p.at_, p.poison)) == [(some ⟨0, 1⟩, true)] && rgF t .evlogA 0 55 48 == 0x16 && rgF t .evlogA 0 47 40 == 1
        | _ => false) = true) ∧
    (served (wNet [{ pkGo ⟨1, 2⟩ with at_ := some ⟨0, 28⟩ }]) ⟨0, 28⟩ ⟨1, 28⟩ (otagHash 0 (pkGo ⟨1, 2⟩) % 4) = [(⟨1, 2⟩, false)] ∧
      txEnd ⟨0, 28⟩ ⟨1, 28⟩ = some 0) ∧
    ((wNet [pkGo ⟨0, 2⟩]).net[0]? = some (pkGo ⟨0, 2⟩) ∧ (pkGo ⟨0, 2⟩).since + 32 ≤ (late (wNet [pkGo ⟨0, 2⟩])).ptime.toNat ∧
      (pkGo ⟨0, 2⟩).at_ ≠ some ⟨0, 2⟩ ∧ (wNet [pkGo ⟨0, 2⟩]).ptime.toNat < (pkGo ⟨0, 2⟩).since + 32) ∧
    (gSource ⟨0, 30⟩ = true ∧ ready.gHeld = [] ∧ tget 0 (stopKey ⟨0, 30⟩) ready.tokenAt + 128 ≤ (late ready).ptime.toNat ∧
      ready.ptime.toNat < tget 0 (stopKey ⟨0, 30⟩) ready.tokenAt + 128) ∧
    domState wWake 0 = 5 := by decide +kernel

/-- Stop 5 of stack 0 in a state. -/
def wStop (x : Nat) : State := setStopState (late ready) ⟨0, 5⟩ x
/-- A packet still waits at stop 5 of stack 0. -/
def wStopBusy : State := { wStop 1 with net := [pkGo ⟨0, 5⟩ ⟨0, 5⟩] }
/-- Segment 0 in a state, RIMCTL.FENCE as given, held by every rim stop. -/
def wSegAt (x f : Nat) : State :=
  { setRgF (setSeg ready 0 x) .rimctl 0 0 0 f with rimHold := (List.range 12).foldl (fun t d => tset false d true t) [] } -- keys 0 * 12 + d
/-- The broadcast about segment 0 on its way to stack 3. -/
def pkPwr : Packet := { cmd := .pwr, src := ⟨0, 30⟩, dst := ⟨3, 28⟩, cls := .g, arg := 0, holder := 1 }

theorem witness_StopsAndRimSegments :
    (stopState (wStop 1) ⟨0, 5⟩ = 1 ∧ drained (wStop 1) ⟨0, 5⟩ = true ∧ drained wStopBusy ⟨0, 5⟩ = false ∧
      tget 0 (stopKey ⟨0, 5⟩) (wStop 1).fstopAt + 20000 ≤ (wStop 1).ptime.toNat ∧ stopState (wStop 3) ⟨0, 5⟩ = 3) ∧
    (segState ready 0 = 0 ∧ segState (wSegAt 3 1) 0 = 3) ∧
    (segState (wSegAt 1 1) 0 = 1 ∧ allHold (wSegAt 1 1) 0 = true ∧ rimBusy (wSegAt 1 1) false = false ∧ rgF (wSegAt 1 1) .rimctl 0 0 0 = 1) ∧
    (segState (wSegAt 4 0) 0 = 4 ∧ allHold (wSegAt 4 0) 0 = true ∧ rimBusy (wSegAt 4 0) true = false ∧ rgF (wSegAt 4 0) .rimctl 0 0 0 = 0) ∧
    (segState (wSegAt 2 1) 0 = 2 ∧ rgF (wSegAt 2 1) .rimctl 0 0 0 = 1) ∧
    (linkOut (late ready) 0 20000 = true ∧ rgF (late ready) .pkgstat 0 10 8 < 3) ∧
    (takePacket (fun p => p.cmd == .pwr && p.dst.die == 3) (wNet [pkPwr]) = some (pkPwr, ready) ∧ pkPwr.holder = 1 ∧ pkPwr.arg < 12 ∧
      pkPwr.dst.die < 12) := by
  decide +kernel

/-- Both ends of rim link 0, 0 and 4, in a state, end 0 as given. -/
def wLink (x y : Nat) (e : LinkEnd) : State := setEnd (setLsF (setLsF (late ready) 0 3 0 x) 4 3 0 y) 0 e
/-- The header unit of a packet, as sent with a number. -/
def unit0 (q : Nat) : RUnit := { seq := q, pkt := { pkGo ⟨3, 2⟩ with cmd := .rds }, idx := 0, last := true }
/-- The first of the two units of a packet. -/
def unitA : RUnit := { seq := 0, pkt := { pkGo ⟨3, 2⟩ with cmd := .devWr }, idx := 0, last := false }

theorem witness_SprueTransfer :
    (lsState (wLink 5 5 { txq := [pkGo ⟨3, 2⟩] }) 0 = 5 ∧ nextTx (linkEnd (wLink 5 5 { txq := [pkGo ⟨3, 2⟩] }) 0) = some (pkGo ⟨3, 2⟩, []) ∧
      ({} : LinkEnd).riser.length < 256) ∧
    (takeData [WUnit.ack 3, .data (unit0 0)] = some (unit0 0, [.ack 3]) ∧ (unit0 0).seq = ({} : LinkEnd).rxNext ∧ (unit0 0).last = true ∧
      (unit0 0).pkt.dst ≠ endStop 0 ∧ unitA.last = false ∧ unitA.seq = ({} : LinkEnd).rxNext) ∧
    (framePasses 0 (frameOf 0 (unit0 0)) = true ∧ framePasses 0 (frameOf 0 (unit0 0) ^^^ 1) = false ∧ framePasses 1 (frameOf 0 (unit0 0)) = false ∧
      ({} : LinkEnd).nakAt = none) ∧
    (takeCtrl isAck [WUnit.ack 3] = some (.ack 3, []) ∧ riserFrom { riser := [unit0 2, unit0 3, unit0 4] } 3 = unit0 3 :: [unit0 4]) ∧
    (takeCtrl isNak [WUnit.nak 3] = some (.nak 3, []) ∧ riserFrom { riser := [unit0 3] } 3 ≠ [] ∧ (∀ u ∈ riserFrom { riser := [unit0 3] } 3, tget 0 u.seq ({} : LinkEnd).tries < 3) ∧
      ({} : LinkEnd).reWin.count = 0) ∧
    (takeCtrl isCredit [WUnit.credit 1 2 3 4] = some (.credit 1 2 3 4, [])) ∧
    ((linkEnd (wLink 5 5 { nakAt := some 0 }) 0).nakAt = some 0 ∧ 0 + 15 ≤ (wLink 5 5 { nakAt := some 0 }).ptime.toNat) := by decide +kernel

/-- Ends 0 and 4 exchange CONFIRMs that agree: each has seen the other's epoch. -/
def wConfirm : State :=
  let s := setLsF (setLsF (wLink 4 4 { width := 2 }) 0 63 56 7) 0 55 48 9
  setEnd (setLsF (setLsF s 4 63 56 9) 4 55 48 7) 4 { width := 2 }
/-- The spoke of stack 2 is in DOWN. -/
def wSpoke : State := setLsF ready 38 3 0 7

theorem witness_SprueTraining :
    (lsState (wLink 1 1 {}) 0 = 1 ∧ lsState (wLink 1 1 {}) (peerEnd 0) ≠ 0 ∧ lsState (wLink 1 1 {}) (peerEnd 0) ≠ 7 ∧
      (linkEnd (wLink 1 1 {}) 0).since + 1000000 ≤ (wLink 1 1 {}).ptime.toNat) ∧
    (lsState (wLink 2 2 {}) 0 = 2 ∧ lsState (wLink 2 2 {}) (peerEnd 0) = 2 ∧ agreedRev (wLink 2 2 {}) 0 = some 0x21 ∧
      (linkEnd (wLink 2 2 {}) 0).tested = false ∧ (linkEnd (wLink 2 2 {}) 0).peerQ = none) ∧
    lsState (wLink 3 3 {}) 0 = 3 ∧ (lsState (wLink 4 4 {}) 0 = 4 ∧ (linkEnd (wLink 4 4 {}) 0).since + 1000 ≤ (wLink 4 4 {}).ptime.toNat) ∧
    (lsState wConfirm 0 = 4 ∧ lsState wConfirm 4 = 4 ∧ peerEnd 0 = 4 ∧ lsF wConfirm 4 63 56 = lsF wConfirm 0 55 48 ∧ lsF wConfirm 4 55 48 = lsF wConfirm 0 63 56 ∧
      (linkEnd wConfirm 0).width = (linkEnd wConfirm 4).width ∧ (linkEnd wConfirm 0).qsel = (linkEnd wConfirm 4).qsel ∧
      (linkEnd wConfirm 4).rxNext = (linkEnd wConfirm 0).txSeq ∧ (linkEnd wConfirm 0).rxNext = (linkEnd wConfirm 4).txSeq) ∧
    (lsState (wLink 5 5 {}) 0 = 5 ∧ lsF (wLink 5 5 {}) 0 19 19 = 0) ∧ tget false 0 ready.fencedStk = false ∧
    (lsState wSpoke (36 + 2) = 7 ∧ tget false 2 wSpoke.fencedStk = false) := by decide +kernel

/-- Lane group 1 is a Palrath group in a state. -/
def wPal (x : Nat) : State := setRgF (setRgF (late ready) .lgctl 1 2 0 3) .palstat 1 3 0 x
/-- A good flit without a packet. -/
def flit0 (q : BitVec 12) (good : Bool) : FlitIn := ⟨good, q, 0, false, []⟩
/-- The identification of a package. -/
def ident (id : Fin 4) (rev : BitVec 8) : IdentIn := ⟨1, id, 77, rev, 0, 0, 1⟩
/-- The master, its window begun at 0, at 200 ms, with candidates. -/
def wMaster (cs : List Cand) : State := { setRgF (wPal 3) .palstat 1 23 22 1 with
  regs := (setRgF (setRgF (wPal 3) .palstat 1 23 22 1) .cascstat 0 4 4 1).regs
  hubAt := some 0
  cands := cs
  admitted := [0]
  features := 2
  ptime := 200000000 }
/-- A package of revision 3.0 that sees the master. -/
def cand1 : Cand := ⟨1, 0x30, 0, 1⟩
/-- The master whose cascade runs at 3.1. -/
def wMaster1 : State := setRgF (wMaster []) .cascstat 0 55 48 0x31
/-- A package that waits for admission, at 1 ms and at 200 ms. -/
def wJoin : State := setRgF (late ready) .cascstat 0 7 7 1

theorem witness_CascadeAdmission : (∀ g, (palEnd (wPal 3) g).riser = [] ∧ (palEnd (wPal 3) g).txq = []) ∧
    (isPal (wPal 3) 1 = true ∧ palState (wPal 3) 1 = 3 ∧ (flit0 0 true).good = true ∧ (flit0 0 true).seq.toNat = (palEnd (wPal 3) 1).rxNext ∧
      (palEnd (wPal 3) 1).riser = [] ∧ (palEnd (wPal 3) 1).txq = [] ∧ nextOut (wPal 3) 1 = none ∧ (flit0 0 false).good = false) ∧
    (palState (wPal 2) 1 ≠ 4 ∧ palState (wPal 2) 1 ≠ 0 ∧ tget none 0 (wPal 2).seenIds = none ∧ (ident 1 0x30).id.val ≠ (wPal 2).pkg ∧
      (ident 1 0x30).rev.toNat / 16 = palRev (wPal 2) / 16 ∧ (ident 1 0x30).width ≠ 0 ∧ (wPal 2).otherMaster = false ∧
      (activeGroups (wPal 2) 1).length < bundleMax (wPal 2) ∧ (ident 1 0x20).rev.toNat / 16 ≠ palRev (wPal 2) / 16 ∧ (ident 0 0x30).id.val = (wPal 2).pkg) ∧
    (rgF wJoin .cascstat 0 7 7 = 1 ∧ wJoin.ptime.toNat < wJoin.identAt + 100000000 ∧ wJoin.identAt + 100000000 ≤ (wMaster []).ptime.toNat) ∧
    ((wMaster []).hubAt = some 0 ∧ isMaster (wMaster []) = true ∧ 0 + 100000000 ≤ (wMaster []).ptime.toNat ∧
      rgF (wMaster []) .cascstat 0 55 48 = 0 ∧ (wMaster []).cands = []) ∧
    ((wMaster [cand1]).cands = [cand1] ∧ admissible (wMaster [cand1]) cand1 = true ∧ cand1.pkg < 4 ∧ cand1.rev % 16 < palRev (wMaster [cand1]) % 16) ∧
    ((ident 1 0x30).id.val ≠ wMaster1.pkg ∧ palState wMaster1 1 ≠ 4 ∧ tget none 1 wMaster1.seenIds = none ∧ (ident 1 0x30).rev.toNat / 16 = palRev wMaster1 / 16 ∧
      wMaster1.otherMaster = false ∧ (activeGroups wMaster1 1).length < bundleMax wMaster1 ∧ isMaster wMaster1 = true ∧ rgF wMaster1 .cascstat 0 55 48 ≠ 0 ∧
      wMaster1.admitted.contains 1 = false ∧ (ident 1 0x30).rev.toNat % 16 < rgF wMaster1 .cascstat 0 51 48) ∧
    (isMaster wJoin = false ∧ wJoin.pkg < 4) :=
  ⟨fun _ => ⟨rfl, rfl⟩, by decide +kernel⟩

/-- A package of the cascade that is not its master, at 1 ms. -/
def wJoined : State := { late ready with admitted := [0, 1], timeAt := some 0, bcastSeq := 4 }
/-- A broadcast of a core's TINV, which waits at the master. -/
def bcast0 : Bcast := { kind := .tinv, src := ⟨0, 0⟩, tinv := some ⟨.all, [false], [0], none, 0, true, false, 0, 0⟩, pkg := 0 }

theorem witness_CascadeTimeAndCuts :
    (isMaster { wMaster [] with admitted := [0, 1] } = true ∧ (wMaster []).timeSentAt + 1000 ≤ (wMaster []).ptime.toNat ∧
      (1 : Nat) ≠ (wMaster []).pkg ∧ (wMaster []).pkg = 0) ∧
    (isMaster wJoined = false ∧ rgF wJoined .cascstat 0 7 7 = 0 ∧ (∃ p ∈ wJoined.admitted, p ≠ wJoined.pkg)) ∧
    (wJoined.timeAt = some 0 ∧ 0 + 100000 ≤ wJoined.ptime.toNat) ∧
    (let s := { ready with admitted := [0, 1, 2] }; 1 ∈ s.admitted ∧ 2 ∈ s.admitted ∧ s.pkg < 4 ∧ s.pkg ≠ 1 ∧ s.pkg ≠ 2) ∧
    (let s := { late ready with
        admitted := [0, 1]
        pkg := 1 }; cutOf 1 0 = s.pkg ∧ bundleLost s 0 = true ∧ 1 ∈ s.admitted ∧ 0 ∈ s.admitted) ∧
    (let s := { wMaster [] with bcasts := [bcast0] }; isMaster s = true ∧ s.bcasts = [bcast0] ∧ bcast0.sent = false ∧ bcast0.kind = .tinv ∧
      bcast0.tinv.isSome = true ∧ bcast0.pkg = s.pkg ∧ bcast0.num = false ∧ tinvTargets s ≠ []) ∧
    isMaster { wJoined with bcasts := [bcast0] } = false ∧
    (let b : BcIn := ⟨1, .tinv, 4, false, bcast0.tinv⟩; isMaster wJoined = false ∧ b.done = false ∧ b.pkg.val ≠ wJoined.pkg ∧ b.seq = wJoined.bcastSeq ∧
      b.seq ≠ ready.bcastSeq ∧ tinvTargets wJoined ≠ [] ∧ tinvTargets (wMaster []) ≠ []) ∧
    (let b : BcIn := ⟨1, .tinv, 0, true, none⟩
      let x := { bcast0 with sent := true, num := true, left := [1] }
      let s := { wMaster [] with bcasts := [x] }
      b.done = true ∧ isMaster s = true ∧ b.pkg.val ≠ s.pkg ∧ s.bcasts = [x] ∧ x.num = true ∧ x.seq = b.seq ∧ x.pkg = s.pkg ∧
      coreOfStop x.src ≤ 240 ∧ x.left = [b.pkg.val]) := by decide +kernel

/-! ### Memory channels, lane groups, Ethernet -/

/-- Channel 0 is in service and scrubs every hour; time 10 s. -/
def wScrub : State := setRgF (setRgF { ready with ptime := 10000000000 } .mcstat 0 1 0 2) .mcscrub 0 7 0 1
/-- The same, at the last line of the channel. -/
def wScrubEnd : State := setRgF wScrub .mcscrub 0 40 8 0x3FFFFFFF
/-- KEYID 7 is the secure world's. -/
def wKeys : State := { ready with keys := [(7, { sown := true })] }
/-- A key command is under way. -/
def wKeyBusy : State := { setRgF ready .keystat 0 7 0 1 with keyPend := some ⟨5, some (1, 2), false⟩ }
/-- Stack 0 is the secure world's. -/
def wOwn : State := setRgF ready .ownmap 0 0 0 1

theorem witness_MemoryChannelsAndKeys :
    (∀ s ∈ [wScrub, wScrubEnd], chState s 0 = 2 ∧ rgF s .mcscrub 0 7 0 ≠ 0 ∧ rgF s .pkgstat 0 10 8 < 4 ∧ 0 ∈ s.hashChs ∧
      tget 0 0 s.scrubAt + scrubGap s 0 ≤ now s ∧ memC s ≤ 2 ^ 39 ∧ memPoison s (caPa s 0 (rgF s .mcscrub 0 40 8 * 64) / 64) = false ∧
      (lineLoc s (caPa s 0 (rgF s .mcscrub 0 40 8 * 64) / 64)).ch < 24) ∧
    ((rgF wScrub .mcscrub 0 40 8 + 1) * 64 < memC wScrub ∧ memC wScrub ≤ (rgF wScrubEnd .mcscrub 0 40 8 + 1) * 64) ∧
    (ownStk ready 0 = false ∧ ownStk wOwn 0 = true ∧ bySec (.core 0 false) = false ∧ rgF ready .mccestat 0 3 3 = 0) ∧
    (rgF ready .keystat 0 7 0 ≠ 1 ∧ (5 : BitVec 11) ≠ 0 ∧ (memKey ready 5).sown = false ∧ rgF wKeyBusy .keystat 0 7 0 = 1 ∧
      (memKey wKeys 7).sown = true ∧ rgF wKeys .keystat 0 7 0 ≠ 1 ∧ wKeyBusy.keyPend = some ⟨5, some (1, 2), false⟩) := by decide +kernel

/-- Lane group 1 is a PCIe group that trains, its port 0 as given, PERST_N released at 200 ms or not. -/
def wLg (perst : Bool) (x : Rport) : State :=
  setRport { setRgF (setRgF { ready with ptime := 200000000 } .lgctl 1 2 0 1) .lgstat 1 3 0 1 with lgs := [(1, ⟨0, perst⟩)] } 4 x
/-- A DEV access of core 0 that a root port has. -/
def pkPort (c : Cmd) : Packet := { cmd := c, src := ⟨0, 0⟩, dst := ⟨12, 24⟩, addr := 0xE000000000000, txid := 5, size := 3 }
/-- DEVSTO is 1 ms. -/
def wSto (perst : Bool) (x : Rport) : State := setRgF (wLg perst x) .devsto 0 15 0 1000
/-- LGCTL of group 1 is locked. -/
def wLgLock : State := setRgF ready .lgctl 1 16 16 1
/-- Share 0 exists. -/
def wShare : State := setRgF (setShare ready 0 { nqp := 1 }) .shstate 0 2 0 1

theorem witness_LaneGroupsAndRootPorts :
    (ownLg ready 1 = false ∧ bit (rg wLgLock .lgctl 1) 16 = true ∧ bit (rg ready .lgctl 1) 16 = false ∧ rgF ready .lgctl 1 2 0 ≠ fld 1 2 0 ∧
      rgF ready .lgstat 1 3 0 = 0 ∧ persLimit ready 1 (fld 1 2 0) = false) ∧
    (bit (rg (wLg true {}) .lgctl 1) 16 = false ∧ rgF (wLg true {}) .lgctl 1 2 0 ≠ fld 0 2 0 ∧ rgF (wLg true {}) .lgctl 1 2 0 ≠ fld 2 2 0 ∧
      rgF (wLg true {}) .lgstat 1 3 0 ≠ 0) ∧
    (portExists (wLg true {}) 1 0 = true ∧ portUp (wLg true { st := 1 }) 4 = true ∧ (rport (wLg true { st := 1 }) 4).st = 1 ∧
      (lgrp (wLg true {}) 1).perst = true ∧ (rport (wLg true {}) 4).st ≠ 1) ∧
    (let s := wSto true { st := 2, held := [(pkPort .devRd, 0)] }; (rport s 4).held = [(pkPort .devRd, 0)] ∧ 0 + rgF s .devsto 0 15 0 * 1000 ≤ now s) ∧
    (let s := wSto true { st := 2, held := [(pkPort .devRd, 199999999)] }; (rport s 4).held = [(pkPort .devRd, 199999999)] ∧
      now s < 199999999 + rgF s .devsto 0 15 0 * 1000) ∧
    (∀ c ∈ [Cmd.devRd, .devWr], (rport (wLg true { st := 1, sent := [pkPort c] }) 4).sent = [pkPort c] ∧ (pkPort c).txid = (5 : BitVec 16).toNat ∧
      (pkPort c).cmd = c) ∧
    (rgF (wLg false {}) .lgctl 1 2 0 = 1 ∧ rgF (wLg false {}) .lgstat 1 3 0 ≠ 0 ∧ (lgrp (wLg false {}) 1).perst = false ∧
      (lgrp (wLg false {}) 1).persAt + 100000000 ≤ now (wLg false {})) ∧
    (isMsiAddr (wLg true { st := 1 }) (0xFFF0000000000 + (regBase .msiaddr).getD 0) = true ∧ portExists (wLg true { st := 1 }) 1 0 = true) ∧
    (let c : CfgAcc := ⟨240, 0, 0, 1, some (4, 1)⟩; takePacket (isCfg wShare ⟨0, 0⟩ c) wShare = none ∧ c.write = some (4, 1) ∧ c.dword = 1 ∧
      (1 : BitVec 4).getLsbD 0 = true ∧ shState wShare 0 ≠ 0 ∧ c.bus.toNat = 240 + 0 / 256 ∧ c.dev.toNat = 0 % 256 / 8 ∧ c.fn.toNat = 0 % 8) := by
  decide +kernel

/-- The port is up and the hub I/O cache is OFF; or the home of the line at 0x2000 is busy. -/
def wLgOff : State := setRgF (wLg true { st := 1 }) .dstate 0x1AA 2 0 3
def wLgTaken : State := { wLgOff with busy := [(0x80, some ⟨.request, { cmd := .rdc, src := ⟨0, 1⟩, dst := ⟨0, 20⟩, addr := 0x2000, holder := 1, txid := 5 },
  [0], none, [(0, 1)], false, none, false, 0, 0, false, .i, [], [], false⟩)] }

theorem witness_inboundEnds : (rport wLgOff 4).inWait = none ∧ wLgOff.hubTx = [] ∧ hioOut wLgOff = true ∧ portExists wLgOff 1 0 = true ∧
    (rport wLgOff 4).st = 1 ∧ isMsiAddr wLgOff 0x2000 = false ∧
    (hubReadBytes (inReq wLgOff 1) {} noDev 1 0x2000 wLgOff).1 = .ok ∧ (hubReadBytes (inReq wLgOff 1) {} noDev 1 (2 ^ 45) wLgOff).1 = .err ∧
    (hubReadBytes (inReq wLgTaken 1) {} noDev 1 0x2000 wLgTaken).1 = .wait ∧
    (hubWriteBytes { inReq wLgOff 1 with ep := true } {} noDev 1 0x2000 [7] wLgOff).1 = .ok ∧
    (hubWriteBytes { inReq wLgOff 1 with ep := false } {} noDev 1 (2 ^ 45) [7] wLgOff).1 = .err := by decide +kernel

theorem homeFree_wLg : HomeFree wLgOff 0x2000 (inReq wLgOff 1).world :=
  ⟨homeOpen_of (by decide +kernel) (by decide +kernel), by decide +kernel, by decide +kernel, by decide +kernel, by decide +kernel, by decide +kernel⟩

/-- Share 0 is ENABLED; its queue 0 is of a kind, runs, has its rings at 0x8000 and 0x9000, and has accepted items. -/
def wQ (kind : Nat) (items : List Item) : State :=
  let s := setRgF (setShare ready 0 { nqp := 1, nvc := 1, nvec := 1, nsess := 16, bme := true }) .shstate 0 2 0 2
  let s := setRgF (setRgF (setRgF s .qstat 0 2 0 1) .qstat 0 9 7 kind) .qstat 0 11 11 1
  let s := setRgF (setRgF (setRg (setRg s .sqbase 0 0x8000) .cqbase 0 0x9000) .qcfg 0 12 8 4) .qcfg 0 20 16 4
  let s := setRgF (setRgF (setRgF s .qcfg 0 0 0 1) .dstate 0x1A8 2 0 0) .dstate 0x1A9 2 0 0
  setQueue s 0 { share := some 0, items := items }

/-- No cached translation, clean reads. -/
def engIn : EngIn := ⟨false, {}, ⟨0, 0, true⟩, ⟨0, 0, true⟩⟩

/-- The state a record of queue 0 leaves. -/
def recordLeft (v : State) (it : Item) (o : RecOut) : State :=
  (shWriteBuf v 0 (kindStop (qKind v 0)) engIn engIn.dst (rgF v .cqbase 0 51 12 * 4096 + rgF v .qstat 0 47 32 * 32) (recordBytes v 0 it o)).2.2

/-- What RecordAt asks, as one check. -/
def recordNow (v : State) (it : Item) (o : RecOut) : Bool :=
  let r := shWriteBuf v 0 (kindStop (qKind v 0)) engIn engIn.dst (rgF v .cqbase 0 51 12 * 4096 + rgF v .qstat 0 47 32 * 32) (recordBytes v 0 it o)
  let u := r.2.2
  r.1 == .ok && r.2.1 == 32 && (queue u 0).items == [it] && qState u 0 == 1 && rgF u .qirq 0 15 15 == 0 && shState u 0 != 3 && Nat.ble (cqSize u 0) 65536

theorem recordAt_of {v : State} {it : Item} {o : RecOut} (h : recordNow v it o = true) : RecordAt v 0 0 it o engIn (recordLeft v it o) := by
  simp only [recordNow, Bool.and_eq_true, beq_iff_eq, bne_iff_ne, ne_eq, Nat.ble_eq] at h
  obtain ⟨⟨⟨⟨⟨⟨h1, h2⟩, h3⟩, h4⟩, h5⟩, h6⟩, h7⟩ := h
  exact ⟨Prod.ext h1 (Prod.ext h2 rfl), h3, h4, h5, h6, h7, by decide⟩

/-- A descriptor from its fields: offset, bytes, value. -/
def desc (l : List (Nat × Nat × Nat)) : LineData := l.foldl (fun d x => linePut d x.1 x.2.1 x.2.2) 0

/-- MAC 0 is enabled on group 1 with its link up; RSSIND names queue 0. -/
def wMac (s : State) : State :=
  setRgF (setRgF (setRgF (setRgF (setRgF s .lgctl 1 2 0 2) .lgstat 1 3 0 2) .ethport 0 4 0 1) .ethport 0 16 16 1) .ethstat 0 16 16 1
/-- A frame of 60 zero bytes but for its type and what follows. -/
def frame (typ op quanta : Nat) : List Byte := fPut (fPut (fPut (List.replicate 60 0) 12 2 typ) 14 2 op) 16 2 quanta
/-- A posted receive buffer of 2048 bytes at 0x10000. -/
def rxItem (posted : Bool) : Item := { sqidx := 0, desc := desc [(0, 1, 0x20), (8, 8, 0x10000), (16, 4, 2048)], posted := posted }
/-- A transmit descriptor of 60 bytes at 0x10000. -/
def txItem : Item := { sqidx := 0, desc := desc [(0, 1, 0x10), (8, 8, 0x10000), (16, 4, 60)] }
/-- The block with the receive queue, and with the transmit queue. -/
def wRx : State := wMac (wQ 4 [rxItem true])
def wTx : State := wMac (wQ 3 [txItem])
/-- After the frame's bytes are written. -/
def wRxDone : ShRes × Nat × State := shWriteBuf wRx 0 ⟨12, 23⟩ engIn engIn.dst 0x10000 (frame 0x9000 0 0)
/-- After the frame's bytes are read, and sent. -/
def wTxRead : ShRes × List Byte × State := shReadBuf wTx 0 ⟨12, 23⟩ engIn engIn.src 0x10000 60
def wTxSent : State :=
  let v := wTxRead.2.2
  { setQueue v 0 { queue v 0 with frame := [] } with ethTx := v.ethTx ++ [⟨0, padFrame wTxRead.2.1, wTx.ptime⟩] }
/-- The record of the received frame. -/
def rxOut : RecOut := ⟨0, BitVec.ofNat 64 ((rssHash wRx 0 (frame 0x9000 0 0)).getD 0 * 2 ^ 32 + (frame 0x9000 0 0).length),
  BitVec.ofNat 64 ((l4SumGood (frame 0x9000 0 0) (fParse (frame 0x9000 0 0))).toNat * 2 +
    (ipSumGood (frame 0x9000 0 0) (fParse (frame 0x9000 0 0))).toNat), some wRx.ptime⟩

theorem witness_EthernetPortsAndFrames :
    (ownEth ready = false ∧ rgF (setRgF ready .lgctl 1 2 0 2) .ethport 0 16 16 = 0 ∧ portFits (setRgF ready .lgctl 1 2 0 2) 0 1 0 0 = true ∧
      portFits ready 0 1 0 0 = false ∧ rgF wRx .ethport 0 16 16 = 1) ∧
    (rgF wRx .ethport 0 16 16 = 1 ∧ rgF wRx .ethstat 0 16 16 ≠ false.toNat ∧ rgF (setRgF wRx .ethstat 0 16 16 0) .ethstat 0 16 16 ≠ true.toNat ∧
      hasLight wRx (rgF wRx .ethport 0 4 0) = true ∧ lgOff wRx (rgF wRx .ethport 0 4 0) = false) ∧
    (60 ≤ (frame 0x9000 0 0).length ∧ (frame 0x9000 0 0).length ≤ 9212 ∧ rgF ready .ethport 0 16 16 = 0 ∧ rgF wRx .ethstat 0 16 16 = 1 ∧
      fGet (frame 0x8808 1 7) 12 2 = 0x8808 ∧ fGet (frame 0x8808 1 7) 14 2 = 1 ∧ fGet (frame 0x9000 0 0) 12 2 ≠ 0x8808 ∧
      queueShare (wMac ready) (rssQueue (wMac ready) 0 ((rssHash (wMac ready) 0 (frame 0x9000 0 0)).getD 0)) = none) ∧
    (rssQueue wRx 0 ((rssHash wRx 0 (frame 0x9000 0 0)).getD 0) = 0 ∧ queueShare wRx 0 = some 0 ∧ qKind wRx 0 = 4 ∧ (queue wRx 0).target = 0 ∧
      (queue wRx 0).items = [rxItem true] ∧ (rxItem true).bad = none ∧ isTag (fGet (frame 0x9000 0 0) 12 2) = false ∧
      (frame 0x9000 0 0).length ≤ dB (rxItem true).desc 16 4 ∧ dB (rxItem true).desc 8 8 = 0x10000 ∧ wRxDone.1 = .ok) ∧
    RecordAt wRxDone.2.2 0 0 (rxItem true) rxOut engIn (recordLeft wRxDone.2.2 (rxItem true) rxOut) ∧
    (qKind (wQ 4 [rxItem false]) 0 = 4 ∧ (queue (wQ 4 [rxItem false]) 0).items = [rxItem false] ∧ (rxItem false).posted = false) ∧
    (readyItem wTx 0 3 0x10 = some (0, txItem) ∧ (queue wTx 0).frame = [] ∧ dFlags txItem.desc = 0 ∧ dB txItem.desc 8 8 = 0x10000 ∧
      dB txItem.desc 16 4 = 60 ∧ wTxRead.1 = .ok ∧ wTxRead.2.1.length ≤ 9212 ∧ macMaySend wTx (queue wTx 0).target (padFrame wTxRead.2.1) = true) ∧
    RecordAt wTxSent 0 0 txItem { status := 0, r0 := BitVec.ofNat 64 60 } engIn (recordLeft wTxSent txItem { status := 0, r0 := BitVec.ofNat 64 60 }) :=
  ⟨by decide +kernel, by decide +kernel, by decide +kernel, by decide +kernel, recordAt_of (by decide +kernel), by decide +kernel, by decide +kernel,
   recordAt_of (by decide +kernel)⟩

/-! ### Optical engines -/

/-- A cartridge: plan 1, rated for 1000 units of 10 hours, at least -10 dBm, its identity and first record intact. -/
def cart : BitVec 1024 :=
  let m := cartPut (cartPut (cartPut 0 2 1 1) 0x20 4 1000) 0x26 2 0xFC18
  let m := cartPut m 0x3C 4 (cartCrc m 0 0x3C)
  let m := cartPut m 0x40 4 1
  cartPut m 0x5C 4 (cartCrc m 0x40 0x1C)
/-- The same with another plan. -/
def cartPlan : BitVec 1024 :=
  let m := cartPut cart 2 1 2
  cartPut m 0x3C 4 (cartCrc m 0 0x3C)

/-- Engine 0 in a state, slot 0 lit as LIT says, its slots in states with a cartridge each; 4000 s after both were seated. -/
def wOe (oe st0 st1 : Nat) (m : BitVec 1024) : State :=
  let s := setRgF (setRgF (setRgF { ready with ptime := 4000000000000 } .oestat 0 23 20 oe) .cartstat 0 3 0 st0) .cartstat 1 3 0 st1
  setRgF { setSlot (setSlot s 0 0 { mem := m, present := some 0, litFrom := some 0 }) 0 1 { mem := m, present := some 0 } with
    engs := [(0, ⟨0, 1⟩)] } .dstate 0x1A0 2 0 0
/-- The engine is secure-owned. -/
def wOeOwn : State := setRgF (wOe 1 3 2 cart) .ownmap 0 28 28 1
/-- The engine is busy. -/
def wOeBusy : State := setRgF (wOe 1 3 2 cart) .oestat 0 7 0 1

theorem witness_OpticalEngines :
    (rgF (wOe 1 3 2 cart) .oestat 0 7 0 ≠ 1 ∧ ownOe (wOe 1 3 2 cart) 0 = false) ∧
    (slotSt (wOe 1 3 2 cart) 0 0 ≠ 2 ∧ slotSt (wOe 1 3 2 cart) 0 1 = 2 ∧ slotSt (wOe 1 3 2 cart) 0 0 = 3 ∧
      bitOf { wOe 1 3 2 cart with features := 0x10000 }.features 16 = true ∧ bitOf (wOe 1 3 2 cart).features 16 = false) ∧
    (oeState (wOe 3 3 3 cart) 0 = 3 ∧ (eng (wOe 3 3 3 cart) 0).target = 1 ∧ (eng (wOe 3 3 3 cart) 0).fadeAt + 10000000 ≤ now (wOe 3 3 3 cart) ∧
      slotSt (wOe 3 3 3 cart) 0 1 = 3 ∧ now { wOe 3 3 3 cart with ptime := 0 } < (eng (wOe 3 3 3 cart) 0).fadeAt + 10000000) ∧
    (oeState (wOe 4 2 2 cart) 0 = 4 ∧ (eng (wOe 4 2 2 cart) 0).target = 1) ∧
    (3600000000000 ≤ litTicks (wOe 1 3 2 cart) (slotOf (wOe 1 3 2 cart) 0 0) ∧
      litTicks { wOe 1 3 2 cart with ptime := 7 } (slotOf (wOe 1 3 2 cart) 0 0) < 3600000000000 ∧ slotSt { wOe 1 3 2 cart with ptime := 7 } 0 0 = 3) ∧
    ((slotOf ready 0 0).present = none ∧ (slotOf (wOe 1 3 2 cart) 0 0).present = some 0) ∧
    (slotSt (wOe 1 3 0 0) 0 1 = 0 ∧ 0 + 100000000 ≤ now (wOe 1 3 0 0) ∧ idGood 0 = false ∧ slotSt (wOe 1 3 5 0) 0 1 = 5 ∧
      idGood cartPlan = true ∧ (curRec cartPlan).isSome = true ∧ cartGet cartPlan 2 1 ≠ tget 1 0 (wOe 1 3 0 cartPlan).oePlan ∧
      idGood cart = true ∧ (curRec cart).isSome = true ∧ cartGet cart 2 1 = tget 1 0 (wOe 1 3 0 cart).oePlan) ∧
    (slotSt (wOe 1 3 1 cart) 0 1 = 1 ∧ (slotOf (wOe 1 3 1 cart) 0 1).checkAt + 200000000 ≤ now (wOe 1 3 1 cart) ∧
      now { wOe 1 3 1 cart with ptime := 0 } < (slotOf (wOe 1 3 1 cart) 0 1).checkAt + 200000000 ∧
      toSigned 16 (0xFC17 : BitVec 16).toNat < minPwr cart ∧ minPwr cart ≤ toSigned 16 (0xFC18 : BitVec 16).toNat ∧
      oeState (wOe 1 3 1 cart) 0 ≠ 0 ∧ oeState (wOe 0 1 0 cart) 0 = 0 ∧ engRuns (wOe 0 1 0 cart) 0 = true ∧ rgF (wOe 0 1 0 cart) .oestat 0 17 17 = 0) ∧
    ((slotOf (wOe 1 3 2 cart) 0 1).present.isSome = true ∧ oeState (wOe 1 3 2 cart) 0 ≠ 4) ∧
    (∀ o ∈ [2, 0], (slotOf (wOe 2 3 o cart) 0 0).present.isSome = true ∧ slotSt (wOe 2 3 o cart) 0 0 = 3 ∧ oeState (wOe 2 3 o cart) 0 ≠ 3 ∧
      rgF (wOe 2 3 o cart) .cartstat 0 5 5 = 0 ∧ toSigned 16 (0xFC17 : BitVec 16).toNat < minPwr (slotOf (wOe 2 3 o cart) 0 0).mem ∧
      slotSt (wOe 2 3 o cart) 0 1 = o) ∧
    (rgF wOeBusy .oestat 0 7 0 = 1 ∧ ownOe wOeBusy 0 = false ∧ rgF wOeOwn .oestat 0 7 0 ≠ 1 ∧ ownOe wOeOwn 0 = true ∧ bySec (.core 0 false) = false) := by
  decide +kernel

/-! ### Queues, Ladle, shares -/

/-- The descriptor of a NOP lies at the head of queue 0's ring, and the tail stands behind it. -/
def wFetch : State := memRawSet (setQueue (wQ 1 []) 0 { queue (wQ 1 []) 0 with tail := 1 }) 0x200 5
/-- The completion ring has no room. -/
def wFull : State := setQueue wFetch 0 { queue wFetch 0 with items := List.replicate 15 { sqidx := 0, desc := 5 } }
/-- A record of queue 0 is held since 0, HOLD 1 µs; at 0 and at 1 ms. -/
def wHold : State := setRgF (setQueue (wQ 1 []) 0 { queue (wQ 1 []) 0 with
  unrep := 1
  holdFrom := some 0 }) .qirq 0 31 16 1

theorem witness_QueueOperation :
    (qState (wQ 1 []) 0 ≠ 0 ∧ qState (wQ 1 []) 0 ≠ 4 ∧ (15 : BitVec 16).toNat < sqSize (wQ 1 []) 0 ∧ sqSize (wQ 1 []) 0 ≤ (16 : BitVec 16).toNat ∧
      qState ready 0 = 0 ∧ (0 + cqSize (wQ 1 []) 0 - (queue (wQ 1 []) 0).cqHead) % cqSize (wQ 1 []) 0 ≤ cqHeld (wQ 1 []) 0 ∧
      cqHeld (wQ 1 []) 0 < (1 + cqSize (wQ 1 []) 0 - (queue (wQ 1 []) 0).cqHead) % cqSize (wQ 1 []) 0 ∧ cqSize (wQ 1 []) 0 ≤ (16 : BitVec 16).toNat) ∧
    (let s := setRgF (wQ 1 []) .qcfg 0 0 0 0; rgF s .qcfg 0 0 0 = 0 ∧ queueShare s 0 = some 0 ∧ qKind s 0 ≠ 0 ∧ shState s 0 ≠ 0) ∧
    (rgF (wQ 1 []) .qcfg 0 0 0 = 1 ∧ qState (wQ 1 []) 0 ≠ 3 ∧ (queue (wQ 1 []) 0).items = [] ∧ (queue wFull 0).items ≠ [] ∧ rgF wFull .qcfg 0 0 0 = 1) ∧
    (∀ s ∈ [wFetch, wFull], queueShare s 0 = some 0 ∧ qState s 0 = 1 ∧ shState s 0 = 2 ∧ (share s 0).bme = true ∧
      rgF s .qstat 0 63 48 ≠ (queue s 0).tail ∧ rgF s .pkgstat 0 10 8 ≤ 1) ∧
    (cqRoom wFull 0 = false ∧ cqRoom wFetch 0 = true ∧ qKind wFetch 0 ≠ 2) ∧
    (let r := shReadBuf wFetch 0 (kindStop (qKind wFetch 0)) engIn engIn.src (rgF wFetch .sqbase 0 51 12 * 4096 + rgF wFetch .qstat 0 63 48 * 64) 64; r.1 = .ok ∧ descGood (bitOf wFetch.features 2) (qKind wFetch 0) (ofLineBytes r.2.1) = true ∧ (queue r.2.2 0).items = [] ∧ sqSize r.2.2 0 ≤ 65536) ∧
    ((queue wHold 0).holdFrom = some 0 ∧ 0 < (queue wHold 0).unrep ∧ queueShare wHold 0 = some 0 ∧ (share wHold 0).vec0 < 32768 ∧
      rgF wHold .qirq 0 14 0 < (share wHold 0).nvec ∧ bit (rg wHold .msictl ((share wHold 0).vec0 + rgF wHold .qirq 0 14 0)) 30 = false ∧
      now wHold < 0 + rgF wHold .qirq 0 31 16 * 1000 ∧ 0 + rgF wHold .qirq 0 31 16 * 1000 ≤ now (late wHold)) := by decide +kernel

/-- A Ladle item: operation, SRC, DST, LEN. -/
def ladle (op src dst len : Nat) : Item := { sqidx := 0, desc := desc [(0, 1, op), (8, 8, src), (16, 8, dst), (24, 4, len)] }
/-- The block with that item first in queue 0. -/
def wLa (op src dst len : Nat) : State := wQ 1 [ladle op src dst len]
/-- What COPY, FILL, a read of SRC and a read of DST give there. -/
def laCopy : ShRes × Nat × State := copyBytes 0 engIn 0x10000 0x11000 2 2 0 (wLa 1 0x10000 0x11000 2)
def laFill (dst : Nat) : ShRes × Nat × State :=
  shWriteBuf (wLa 2 0 dst 9) 0 ladleStop engIn engIn.dst dst ((List.range 9).map (fun j => lineByte (ladle 2 0 dst 9).desc (32 + j % 8)))
def laCrc : ShRes × List Byte × State := shReadBuf (wLa 3 0x10000 0 4) 0 ladleStop engIn engIn.src 0x10000 4
def laCmpA : ShRes × List Byte × State := shReadBuf (wLa 4 0x10000 0x11000 3) 0 ladleStop engIn engIn.src 0x10000 3
def laCmpB : ShRes × List Byte × State := shReadBuf laCmpA.2.2 0 ladleStop engIn engIn.dst 0x11000 3

theorem witness_LadleOperations :
    (readyItem (wLa 1 0x10000 0x11000 2) 0 1 1 = some (0, ladle 1 0x10000 0x11000 2) ∧ dSrc (ladle 1 0x10000 0x11000 2).desc = 0x10000 ∧
      dDst (ladle 1 0x10000 0x11000 2).desc = 0x11000 ∧ dLen (ladle 1 0x10000 0x11000 2).desc = 2 ∧ laCopy.1 = .ok ∧
      recordNow laCopy.2.2 (ladle 1 0x10000 0x11000 2) { status := 0, r0 := BitVec.ofNat 64 laCopy.2.1 } = true) ∧
    (readyItem (wLa 2 0 0x11000 9) 0 1 2 = some (0, ladle 2 0 0x11000 9) ∧ dDst (ladle 2 0 0x11000 9).desc = 0x11000 ∧
      dLen (ladle 2 0 0x11000 9).desc = 9 ∧ (laFill 0x11000).1 = .ok ∧
      recordNow (laFill 0x11000).2.2 (ladle 2 0 0x11000 9) { status := 0, r0 := BitVec.ofNat 64 (laFill 0x11000).2.1 } = true) ∧
    (readyItem (wLa 2 0 (2 ^ 52) 9) 0 1 2 = some (0, ladle 2 0 (2 ^ 52) 9) ∧ dDst (ladle 2 0 (2 ^ 52) 9).desc = 2 ^ 52 ∧
      (laFill (2 ^ 52)).1 = .xlate 0x02 (2 ^ 52) ∧
      recordNow (laFill (2 ^ 52)).2.2 (ladle 2 0 (2 ^ 52) 9) { status := 2, r0 := BitVec.ofNat 64 0x02, r1 := BitVec.ofNat 64 (2 ^ 52) } = true) ∧
    (readyItem (wLa 3 0x10000 0 4) 0 1 3 = some (0, ladle 3 0x10000 0 4) ∧ dLen (ladle 3 0x10000 0 4).desc = 4 ∧ laCrc.1 = .ok ∧
      recordNow laCrc.2.2 (ladle 3 0x10000 0 4) { status := 0, r0 := BitVec.ofNat 64 laCrc.2.1.length, r1 := BitVec.ofNat 64 (crc32c 0 laCrc.2.1).toNat } = true) ∧
    (readyItem (wLa 4 0x10000 0x11000 3) 0 1 4 = some (0, ladle 4 0x10000 0x11000 3) ∧ laCmpA.1 = .ok ∧ laCmpB.1 = .ok ∧
      recordNow laCmpB.2.2 (ladle 4 0x10000 0x11000 3) { status := 0, r0 := BitVec.ofNat 64 laCmpB.2.1.length, r1 := firstDiff laCmpA.2.1 laCmpB.2.1 } = true) ∧
    (readyItem (wLa 5 0 0 0) 0 1 5 = some (0, ladle 5 0 0 0) ∧ recordNow (wLa 5 0 0 0) (ladle 5 0 0 0) { status := 0 } = true) ∧
    (∀ r ∈ ([(1, 0), (2, 0), (3, 0), (4, BitVec.allOnes 64)] : List (Nat × Word)), dLen (ladle r.1 0x10000 0x11000 0).desc = 0 ∧
      readyItem (wLa r.1 0x10000 0x11000 0) 0 1 r.1 = some (0, ladle r.1 0x10000 0x11000 0) ∧
      recordNow (wLa r.1 0x10000 0x11000 0) (ladle r.1 0x10000 0x11000 0) { status := 0, r1 := r.2 } = true) := by
  refine ⟨?_, ?_, ?_, ?_, ?_, ?_, ?_⟩ <;> decide +kernel

/-- Share 0 in a state, as a shut-down of a kind leaves it; secure or not. -/
def wSh (st kind : Nat) (sec : Bool) : State := setRgF (setRgF (setRgF (wQ 1 []) .shstate 0 2 0 st) .shstate 0 5 4 kind) .shstate 0 23 23 sec.toNat
/-- A SHCMD of share 0: create asks for one queue and one channel. -/
def wCreate : State := setRg (setRgF (setRgF ready .sharg0 0 62 48 1) .sharg0 0 42 32 1) .sharg2 0 0
/-- BIND_QP of queue 0 to Ladle channel 0, EN 0. -/
def wBind : State := setRgF (setRgF (setRgF (wQ 1 []) .sharg0 0 18 16 1) .qcfg 0 0 0 0) .shstate 0 2 0 1
/-- The share is shutting down with one item accepted, its queue STOPPED, at the end of the drain time. -/
def wShDrain : State := setRgF (setRgF (setRgF { wLa 5 0 0 0 with ptime := 100000000 } .shstate 0 2 0 3) .qstat 0 2 0 2) .shdrain 0 15 0 1

theorem witness_ShareCommands :
    (rgF (wSh 1 0 false) .shstat 0 7 0 ≠ 1 ∧ fld (0x0 : Word) 43 32 = 0 ∧ shState ready 0 = 0 ∧ shState (wSh 1 0 true) 0 ≠ 0 ∧
      shSown (wSh 1 0 true) 0 = true ∧ bySec (.core 0 false) = false) ∧
    (∀ st ∈ [1, 2], shState (wSh st 0 false) 0 = st ∧ shSown (wSh st 0 false) 0 = false ∧
      (share (wSh st 0 false) 0).qp0 + (share (wSh st 0 false) 0).nqp ≤ 16384) ∧
    (shState wBind 0 < 3 ∧ fld (rg wBind .sharg1 0) 24 14 = 0 ∧ fld (rg wBind .sharg0 0) 31 19 = 0 ∧ fld (rg wBind .sharg0 0) 12 0 = 0 ∧
      (share wBind 0).qp0 ≤ fld (rg wBind .sharg1 0) 13 0 ∧ fld (rg wBind .sharg1 0) 13 0 < (share wBind 0).qp0 + (share wBind 0).nqp ∧
      fld (rg wBind .sharg0 0) 18 16 = 1 ∧ (share wBind 0).vc0 ≤ fld (rg wBind .sharg0 0) 42 32 ∧
      fld (rg wBind .sharg0 0) 42 32 < (share wBind 0).vc0 + (share wBind 0).nvc ∧ rgF wBind .qcfg 0 0 0 = 0) ∧
    (let s := wCreate; (List.range 4096).find? (fun m => shState s m == 0) = some 0 ∧ fld (rg s .sharg0 0) 42 32 = 1 ∧ fld (rg s .sharg0 0) 31 16 = 0 ∧
      fld (rg s .sharg0 0) 12 0 = 0 ∧ fld (rg s .sharg1 0) 24 0 = 0 ∧ bit (rg s .sharg2 0) 40 = false ∧ fld (rg s .sharg0 0) 62 48 = 1 ∧
      1 ≤ 16384 - takenSum s (·.nqp) ∧ 1 ≤ 1024 - takenSum s (·.nvc) ∧
      firstGap (s.shares.map (fun p => (p.2.qp0, p.2.nqp))) 16384 1 = some 0 ∧ firstGap (s.shares.map (fun p => (p.2.vc0, p.2.nvc))) 1024 1 = some 0 ∧
      firstRun (vecFree s) 32768 0 = some 0 ∧ firstGap (s.shares.map (fun p => (p.2.sess0, p.2.nsess))) (sessPool s) 0 = some 0) ∧
    (∀ kind ∈ [1, 2, 3], shState (wSh 3 kind false) 0 = 3 ∧ (∀ q ∈ shareQueues (wSh 3 kind false) 0, (queue (wSh 3 kind false) q).items = []) ∧
      (share (wSh 3 kind false) 0).vec0 + (share (wSh 3 kind false) 0).nvec ≤ 32768 ∧ rgF (wSh 3 kind false) .shstate 0 5 4 = kind ∧
      rgF (wSh 3 kind false) .shstate 0 8 8 = 0) ∧
    (shareQueues wShDrain 0 = [0] ∧ (queue wShDrain 0).items = [ladle 5 0 0 0] ∧ shState wShDrain 0 = 3 ∧ qKind wShDrain 0 = 1 ∧
      (share wShDrain 0).sdAt + drainTicks wShDrain ≤ now wShDrain ∧ now { wShDrain with ptime := 0 } < (share wShDrain 0).sdAt + drainTicks wShDrain ∧
      qState wShDrain 0 ≠ 3) ∧
    (let r := shWriteBuf wShDrain 0 ⟨12, 16⟩ engIn engIn.dst (rgF wShDrain .cqbase 0 51 12 * 4096 + rgF wShDrain .qstat 0 47 32 * 32)
        (recordBytes wShDrain 0 (ladle 5 0 0 0) { status := 4 }); r.1 = .ok ∧ r.2.1 = 32 ∧ qState r.2.2 0 = 2 ∧ (queue r.2.2 0).items = [ladle 5 0 0 0] ∧ rgF r.2.2 .qirq 0 15 15 = 0 ∧ shState r.2.2 0 = 3) := by
  decide +kernel

/-! ### The cipher engine -/

/-- The block with items in cipher queue 0, session 0 as given, cluster 0 in RUN. -/
def wCi (items : List Item) (x : Session) : State := setRgF { wQ 2 items with sessions := [(0, x)] } .dstate 0x1A4 2 0 0
/-- A cipher item: operation, LEN, IV and data addresses of none, session and priority. -/
def ciItem (op len : Nat) (sess : Nat := 0) (prio : Nat := 0) (idx : Nat := 0) (phase : Nat := 0) : Item :=
  { sqidx := idx, desc := desc [(0, 1, op), (1, 1, prio), (8, 8, 0x10000), (16, 8, 0x11000), (24, 4, len), (28, 3, sess), (32, 8, 0x12000)],
    seq := idx, phase := phase }
/-- A session in ECB mode, and one in CMAC mode with a tag of 4 bytes. -/
def sessEcb : Session := { cfg := 0x8000000000000000 }
def sessCmac : Session := { cfg := 0x8000000000020005 }
/-- Cluster 0, no block now, no failed checks; and to the end. -/
def ci0 : CipherIn := ⟨0, some 0, true, []⟩
def ciAll : CipherIn := ⟨0, none, true, []⟩
/-- What a running message of length 0 of session 0 does. -/
def ciRun (op : Nat) (x : Session) (mode : CMode) : MsgRun :=
  let s := wCi [ciItem op 0 0 0 0 1] x
  let m := msgKeyOf x mode (ciItem op 0).desc
  msgUnits s 0 (clusterStop 0) engIn (ciItem op 0).desc m (stretch m ciAll none) (msgCtxOf x)
/-- How its tag ends. -/
def ciEnd (op : Nat) (x : Session) (mode : CMode) : ShRes × Nat × State :=
  let r := ciRun op x mode
  msgEnd (setSession r.st 0 (keepCtx (session r.st 0) r.ctx)) 0 (clusterStop 0) engIn (ciItem op 0).desc (msgKeyOf x mode (ciItem op 0).desc) r.ctx

/-- A message of priority 0 runs; one of priority 1 for another session has been accepted behind it. -/
def wSusp : State := setQueue (wCi [] sessEcb) 0 { share := some 0, items := [ciItem 0x30 16 0 0 0 1, ciItem 0x30 16 1 1 1] }

/-- The message of priority 0 is suspended; the one of priority 1 waits to start. -/
def wHeld : State := setQueue (wCi [] sessEcb) 0 { share := some 0, items := [ciItem 0x30 16 0 0 0 2, ciItem 0x30 16 1 1 1] }

theorem witness_CipherMessages :
    (∀ r ∈ ([(0x30, sessEcb, .ecb), (0x31, sessEcb, .ecb), (0x32, sessCmac, .cmac), (0x33, sessCmac, .cmac)] : List (Nat × Session × CMode)),
      let s := wCi [ciItem r.1 16] r.2.1
      cipherItem s 0 (0 : BitVec 16).toNat = some (0, ciItem r.1 16) ∧ itemSession s 0 (ciItem r.1 16).desc = some 0 ∧ sessAway s 0 = false ∧
      CMode.ofNat? (fld (session s 0).cfg 2 0) = some r.2.2 ∧ dOp (ciItem r.1 16).desc = r.1 ∧ cipherWaits s 0 0 (ciItem r.1 16) = false ∧
      clusterTakes s 0 0 = true ∧ mayServe s 0 = true ∧ (share s 0).bme = true ∧ inTurn s 0 0 (ciItem r.1 16) = true ∧
      msgRefuse s 0 (ciItem r.1 16).desc true = none ∧
      0 < (msgKeyOf (session s 0) r.2.2 (ciItem r.1 16).desc).len) ∧
    (∀ op ∈ [0x30, 0x31, 0x32, 0x33], let s := wCi [ciItem op 16] {}
      msgRefuse s 0 (ciItem op 16).desc true = some 0x42 ∧ recordNow (sessionUsed s 0) (ciItem op 16) { status := 0x42 } = true) ∧
    (∀ r ∈ ([(0x30, sessEcb, .ecb), (0x31, sessEcb, .ecb), (0x32, sessCmac, .cmac), (0x33, sessCmac, .cmac)] : List (Nat × Session × CMode)),
      fld r.2.1.cfg 7 6 = 0 ∧ (ciRun r.1 r.2.1 r.2.2).res = .ok ∧ (msgKeyOf r.2.1 r.2.2 (ciItem r.1 0).desc).len ≤ (ciRun r.1 r.2.1 r.2.2).ctx.dataDone ∧
      (msgKeyOf r.2.1 r.2.2 (ciItem r.1 0).desc).aadLen ≤ (ciRun r.1 r.2.1 r.2.2).ctx.aadDone ∧ (ciEnd r.1 r.2.1 r.2.2).1 = .ok ∧
      itemSession (ciEnd r.1 r.2.1 r.2.2).2.2 0 (ciItem r.1 0).desc = some 0 ∧
      recordNow (sessionUsed (ciEnd r.1 r.2.1 r.2.2).2.2 0) (ciItem r.1 0 0 0 0 1)
        { status := (ciEnd r.1 r.2.1 r.2.2).2.1,
          r0 := BitVec.ofNat 64 (msgDone (msgKeyOf r.2.1 r.2.2 (ciItem r.1 0).desc) (ciRun r.1 r.2.1 r.2.2).ctx) } = true) ∧
    (cipherItem wSusp 0 (1 : BitVec 16).toNat = some (0, ciItem 0x30 16 1 1 1) ∧ cipherWaits wSusp 0 0 (ciItem 0x30 16 1 1 1) = false ∧
      victimMsg wSusp (effPrio wSusp 0 (ciItem 0x30 16 1 1 1)) = some (0, 0, ciItem 0x30 16 0 0 0 1) ∧
      itemSession wSusp 0 (ciItem 0x30 16 0 0 0 1).desc = some 0) ∧
    (resumable (wCi [ciItem 0x30 16 0 0 0 2] sessEcb) 0 = some (0, 0, ciItem 0x30 16 0 0 0 2) ∧
      higherWaits (wCi [ciItem 0x30 16 0 0 0 2] sessEcb) 0 0 (ciItem 0x30 16 0 0 0 2) = false ∧
      resumable wHeld 0 = some (0, 0, ciItem 0x30 16 0 0 0 2) ∧ higherWaits wHeld 0 0 (ciItem 0x30 16 0 0 0 2) = true ∧
      resumable wSusp 0 = none) := by
  refine ⟨?_, ?_, ?_, ?_, ?_⟩ <;> decide +kernel

/-- An item that initialises, clears or wraps: operation, session, key bytes, flags, configuration. -/
def seItem (op sess klen flags cfg : Nat) (phase : Nat := 0) : Item :=
  { sqidx := 0, desc := desc [(0, 1, op), (2, 2, flags), (8, 8, 0x10000), (16, 8, 0x11000), (24, 4, klen), (28, 3, sess), (40, 8, cfg)], phase := phase }
/-- The key read for it, and what SESSION_INIT leaves before its record. -/
def seKey (it : Item) : ShRes × List Byte × State := shReadBuf (wCi [it] {}) 0 ⟨12, 12⟩ engIn engIn.src 0x10000 16
def seInit : State := sessionUsed (loadSession (seKey (seItem 0x38 0 16 0 3)).2.2 0 0 (seItem 0x38 0 16 0 3).desc (seKey (seItem 0x38 0 16 0 3)).2.1) 0
/-- The island's queue: a wrap, and an unwrap for session 0, that have joined. -/
def wIsle (op : Nat) : State := wCi [seItem op 0 16 1 0 3] {}
/-- A record waits for the island to append it. -/
def wPend : State := { wIsle 0x3A with
  hlog := { (wIsle 0x3A).hlog with pend := [⟨2, 0, 0, 0, 0, 0, none⟩] }
  vstby := true }
/-- Session 0's context is in the table at 0x20000; a message waits for it. -/
def wAway : State := setRgF { wCi [ciItem 0x30 16] {} with
  sessions := []
  inTable := [(0, true)] } .ctxbase 0 51 12 0x20
/-- The 256 bytes of the table. -/
def awayRead : HubRes × List Byte × State := hubReadBytes tableReq engIn.f engIn.src 256 0x20000 wAway
/-- What a failed check of the context leaves before the record. -/
def awayBad : State := sessionUsed (incRgF { awayRead.2.2 with inTable := tset false 0 false awayRead.2.2.inTable } .ciphstat 0 31 16) 0

/-- Every resident slot is full; the table's address names no memory. -/
def wSpill : State := { setRgF (setRgF ready .ciphctl 0 0 0 1) .ctxbase 0 51 12 (2 ^ 37) with
  sessions := (0, { cfg := 0x8000000000000000 }) :: (List.range 65535).map (fun z => (z + 1, { cfg := 0x8000000000000000 })) }

theorem foldl_fixed {α β : Type} (f : β → α → β) (b : β) (l : List α) (h : ∀ p ∈ l, f b p = b) : l.foldl f b = b := by
  induction l with
  | nil => rfl
  | cons p l ih => rw [List.foldl_cons, h p (by simp), ih (fun q hq => h q (by simp [hq]))]

theorem spill_victim_first (s : State) (x : Session) (l : List (Nat × Session)) (hs : ∀ z, sessActive s z = false) (hx : x.used = 0)
    (h : ∀ p ∈ l, p.2.used = 0) (he : s.sessions = (0, x) :: l) : spillVictim s = some 0 := by
  unfold spillVictim
  rw [he, List.foldl_cons]
  simp only [hs, hx]
  rw [foldl_fixed]
  · rfl
  · intro p hp
    simp [h p hp]

theorem wSpill_victim : spillVictim wSpill = some 0 :=
  spill_victim_first wSpill _ _ (fun _ => rfl) rfl (by simp +contextual) rfl

/-- A write of the engine to an address that names nothing of this package ends in error. -/
theorem table_write_answers (f : Findings) (a : DevAns) (n pa : Nat) (bs : List Byte) (s : State) (h1 : isLocalMem s pa = false)
    (h2 : isRemoteMem s pa = false) (h3 : isOwnSlot s pa = false) : (hubWriteBytes tableReq f a n pa bs s).1 ≠ .wait := by
  cases n with
  | zero => simp [hubWriteBytes]
  | succ n =>
    cases bs with
    | nil => simp [hubWriteBytes]
    | cons b bs => simp [hubWriteBytes, hubWrite, h1, h2, h3]

theorem witness_CipherSessions :
    (∀ r ∈ ([seItem 0x3A 0 16 0 0, seItem 0x38 0 16 1 0, seItem 0x38 0 16 0 3, seItem 0x39 0 0 0 0] : List Item),
      let s := wCi [r] {}
      cipherItem s 0 (0 : BitVec 16).toNat = some (0, r) ∧ r.phase = 0 ∧ cipherWaits s 0 0 r = false ∧ mayServe s 0 = true ∧ (share s 0).bme = true ∧
      sessAway s 0 = false ∧ slotFree s 0 = true) ∧
    (∀ op ∈ [0x38, 0x39], let it := seItem op 16 0 0 0
      itemSession (wCi [it] {}) 0 it.desc = none ∧ dOp it.desc = op ∧ recordNow (wCi [it] {}) it { status := 0x43 } = true) ∧
    ((seKey (seItem 0x38 0 16 0 3)).1 = .ok ∧ itemSession (seKey (seItem 0x38 0 16 0 3)).2.2 0 (seItem 0x38 0 16 0 3).desc = some 0 ∧
      dFlags (seItem 0x38 0 16 0 3).desc = 0 ∧ dFlags (seItem 0x38 0 16 1 0).desc = 1 ∧
      recordNow seInit (seItem 0x38 0 16 0 3) { status := 0 } = true) ∧
    (let it := seItem 0x39 0 0 0 0; let s := wCi [it] sessEcb; sessInit (session s 0) = true ∧ cipherItem s 0 0 = some (0, it) ∧
      recordNow { setSession s 0 {} with inTable := tset false 0 false s.inTable } it { status := 0 } = true) ∧
    (let it := seItem 0x39 0 0 0 0; let s := wCi [it] {}; sessInit (session s 0) = false ∧ recordNow s it { status := 0x42 } = true) ∧
    (wPend.hlog.pend ≠ [] ∧ hlAppends wPend = true) ∧
    (∀ op ∈ [0x38, 0x3A], (wIsle op).hlog.pend = [] ∧ islandNext (wIsle op) = some (0, 0, seItem op 0 16 1 0 3) ∧ dOp (seItem op 0 16 1 0 3).desc = op ∧
      (shReadBuf (wIsle op) 0 ⟨12, 12⟩ engIn engIn.src (dB (seItem op 0 16 1 0 3).desc 8 8) (dB (seItem op 0 16 1 0 3).desc 24 4)).1 = .ok) ∧
    (rgF ready .ciphctl 0 0 0 = 0 ∧ rgF wSpill .ciphctl 0 0 0 = 1 ∧ 65536 ≤ wSpill.sessions.length ∧ spillVictim wSpill = some 0 ∧
      ∀ bs, (hubWriteBytes tableReq engIn.f engIn.dst 257 (tableAddr wSpill 0) bs (freeWords 11 wSpill).2).1 ≠ .wait) ∧
    (cipherItem wAway 0 (0 : BitVec 16).toNat = some (0, ciItem 0x30 16) ∧ itemSession wAway 0 (ciItem 0x30 16).desc = some 0 ∧ sessAway wAway 0 = true ∧
      slotFree wAway 0 = true ∧ cipherWaits wAway 0 0 (ciItem 0x30 16) = false ∧ tableAddr wAway 0 = 0x20000 ∧ awayRead.1 = .ok ∧
      recordNow awayBad (ciItem 0x30 16) { status := 0x44 } = true) := by
  refine ⟨by decide +kernel, by decide +kernel, by decide +kernel, by decide +kernel, by decide +kernel, by decide +kernel, by decide +kernel,
    ⟨by decide +kernel, by decide +kernel, ?_, wSpill_victim, fun bs => table_write_answers _ _ _ _ _ _ (by decide +kernel) (by decide +kernel)
      (by decide +kernel)⟩, by decide +kernel⟩
  simp [wSpill]

/-! ### Ownership, debug, the register window -/

/-- Core 0 is logical core 0, at PL1. -/
def wDbg : State := setRg W1 .lcmap 0 0x8000
/-- Core 0 is halted; a halt of core 0 is pending. -/
def wHalted : State := core0 wDbg (fun k => { k with halted := true })
def wHaltPend : State := core0 wDbg (fun k => { k with haltPend := true })
/-- POLICY allows nothing. -/
def wNoDbg : State := { wHalted with dbgPolicy := 0 }
/-- The heat log's queue is full; stack 3 and its filter are the secure world's. -/
def wHlBusy : State := { wDbg with hlog := { wDbg.hlog with pend := List.replicate 32 ⟨2, 0, 0, 0, 0, 0, none⟩ } }
def wStkOwn : State := setRgF wDbg .ownmap 0 3 3 1
/-- RESET_N is low. -/
def wRstLow : State := { ready with resetN := false }

theorem homeFree_wDbg (w : Bool) : HomeFree wDbg (0x400 * 8) w := by
  cases w <;> exact ⟨homeOpen_of (by decide +kernel) (by decide +kernel), by decide +kernel, by decide +kernel, by decide +kernel, by decide +kernel, by decide +kernel⟩

/-- Operations of JTAG wait in the port's queue, the first a read of doubleword 0x400. -/
def wDapQ (n : Nat) : State := { wDbg with
  dapWait := (List.range n).map (fun i => (false, DapOp.memRead true 0 (BitVec.ofNat 49 (0x400 + i)) {} ⟨0, 0, false⟩)) }

theorem witness_OwnershipAndDebug :
    (wDbg.hlog.pend.length < 32 ∧ bySec (.core 0 true) = true ∧ bySec (.core 0 false) = false ∧ ownStk wDbg 3 = false ∧
      32 ≤ wHlBusy.hlog.pend.length ∧ ownStk wStkOwn 3 = true ∧ wStkOwn.hlog.pend.length < 31 ∧ wDbg.hubTx = []) ∧
    (dapCore wDbg 1 = none ∧ dapCore wHalted 0 = some 0 ∧ (getCore wHalted 0).halted = true ∧ dapCore wDbg 0 = some 0 ∧ (getCore wDbg 0).halted = false) ∧
    (canTake (endWait wHaltPend 0) 0 = true ∧ dueHalt (endWait wHaltPend 0) 0 = true ∧ dueHalt (endWait wDbg 0) 0 = false ∧
      canTake (endWait wHalted 0) 0 = false) ∧
    (∀ r ∈ ([.pc, .d 3, .a 15, .q 7 3, .sys 0x100 false] : List DapReg), nonInvasive wHalted (dapRegWorld wHalted 0 r) = true ∧
      (dapRegGet wHalted 0 r).isSome = true ∧ invasive wHalted (dapRegWorld wHalted 0 r) = true ∧ (dapRegSet wHalted 0 r 5).isSome = true ∧
      nonInvasive wNoDbg (dapRegWorld wNoDbg 0 r) = false ∧ invasive wNoDbg (dapRegWorld wNoDbg 0 r) = false) ∧
    (nonInvasive wHalted (dapRegWorld wHalted 0 (.sys 0xFFF false)) = true ∧ dapRegGet wHalted 0 (.sys 0xFFF false) = none ∧
      invasive wHalted (dapRegWorld wHalted 0 (.sys 0xFFF false)) = true ∧ dapRegSet wHalted 0 (.sys 0xFFF false) 5 = none) ∧
    (∀ w : Bool, nonInvasive wDbg w = true ∧ invasive wDbg w = true ∧ dapKeyDenied wDbg w 0 = false ∧ nonInvasive wNoDbg w = false ∧ invasive wNoDbg w = false) ∧
    (∀ w : Bool, (dapRead wDbg (dapReq w 0) 0x2000 {} noDev).1 = .ok ∧ (dapRead wDbg (dapReq w 0) (2 ^ 45) {} noDev).1 = .err ∧
      (dapRead (wTaken wDbg) (dapReq w 0) 0x2000 {} noDev).1 = .wait ∧ (dapWrite wDbg (dapReq w 0) 0x2000 7 {} noDev).1 = .ok ∧
      (dapWrite wDbg (dapReq w 0) (2 ^ 45) 7 {} noDev).1 = .err ∧ (dapWrite (wTaken wDbg) (dapReq w 0) 0x2000 7 {} noDev).1 = .wait) ∧
    (dapKeyDenied wKeys false 7 = true ∧ wKeys.dapWait = []) ∧
    (wDbg.dapWait = [] ∧ wHalted.dapWait = [] ∧ wNoDbg.dapWait = [] ∧
      (wDapQ 2).dapWait = (false, dapKey (.memRead true 0 0x400 {} noDev)) :: (wDapQ 2).dapWait.tail ∧
      (dapRead (wDapQ 2) (dapReq true 0) 0x2000 {} noDev).1 = .ok) ∧
    (∀ op ∈ ([.halt 0, .resume 0, .step 0, .regRead 0 .pc, .regWrite 0 .pc 4, .memRead true 0 7 {} noDev, .memWrite true 0 7 5 {} noDev,
        .setupRead true 0, .setupWrite true 0 0] : List DapOp), ∀ n ∈ [2, 16], (wDapQ n).dapWait ≠ [] ∧
      (wDapQ n).dapWait.head? ≠ some (false, dapKey op) ∧ (false, dapKey op) ∉ (wDapQ n).dapWait ∧ (wDapQ n).dapWait.length = n) ∧
    ((false, dapKey (.memRead true 0 0x401 {} noDev)) ∈ (wDapQ 2).dapWait ∧
      (wDapQ 2).dapWait.head? ≠ some (false, dapKey (.memRead true 0 0x401 {} noDev))) ∧
    (wRstLow.resetN = false ∧ ready.resetN = true ∧ isBypass ready 0xFF = true ∧ isBypass wRstLow 0x10 = true ∧ isBypass ready 1 = false) := by
  refine ⟨?_, ?_, ?_, ?_, ?_, ?_, ?_, ?_, ?_, ?_, ?_, ?_⟩ <;> decide +kernel

/-- The management processor's window lies on the register window. -/
def wWin : State := { ready with mpwin := 0x1FFE00 }
/-- A read of the low half has read 0x1122334455667788; a write of the low half is held. -/
def wWinRead : State := { wWin with mpRead := some (0xFFF0000020000, 0x1122334455667788) }
def wWinHeld : State := { wWin with mpHeld := some (0xFFF0000020000, 0x100) }
/-- The window lies on package 2's registers, which answers, or does not; a half of a write there is held, or a read of a half. -/
def wWinFar (adm : List Nat) : State := { ready with
  mpwin := 0x1FF400
  admitted := adm }
def wWinFarHeld : State := { wWinFar [0, 2] with mpHeld := some (0xFFA0000020000, 0x100) }
def wWinFarRead : State := { wWinFar [0, 2] with mpRead := some (0xFFA0000020000, 5) }
/-- A window access of the management processor is not answered yet. -/
def wWinTx : State := { wWin with mp := { wWin.mp with winTx := some (0, 5) } }
/-- CXL window 0 holds the first 256 MiB of the CXL slot, and a read of it is in flight. -/
def pkCxl : Packet := { cmd := .rdc, src := ⟨0, 5⟩, dst := ⟨12, 22⟩, addr := 0x100000000000, txid := 9 }
def wCxl : State := { setRgF (setRgF (setRgF ready .cxlwbase 0 51 28 0x10000) .cxlwbase 0 0 0 1) .cxlwctl 0 63 46 1 with net := [pkCxl] }

theorem witness_RegisterWindow :
    ((regWrite ready .mp 0x20000 0x100).isSome = true ∧ (0x20001 : BitVec 40).toNat % 8 ≠ 0 ∧ inBlock (0x21000 : BitVec 40).toNat = false) ∧
    (∀ w : Bool, nonInvasive wDbg w = true ∧ (regRead wDbg (.dap w) 0x20000).isSome = true ∧ regRead wDbg (.dap w) 0x21000 = none ∧
      nonInvasive wNoDbg w = false ∧ invasive wDbg w = true ∧ (regWrite wDbg (.dap w) 0x20000 7).isSome = true ∧
      regWrite wDbg (.dap w) 0x21000 7 = none ∧ invasive wNoDbg w = false) ∧
    (∀ a ∈ [(0x80020000, 0x20000), (0x80020004, 0x20004), (0x80000000, 0), (0xFFFFFFFC, 0x7FFFFFFC)],
      0x80000000 ≤ a.1 ∧ a.1 % 4 = 0 ∧ paKind wWin (wWin.mpwin * 0x80000000 + (a.1 - 0x80000000)) = .regWin wWin.pkg a.2) ∧
    (wWinTx.mp.winTx = some (0, 5) ∧ wWin.mp.winTx = none ∧ (0x7FFFFFFC : BitVec 32).toNat < 0x80000000 ∧ (0x80000002 : BitVec 32).toNat % 4 ≠ 0 ∧
      (wWinFar [0, 2]).mp.winTx = none ∧ (wWinFar [0, 2]).admitted.contains 2 = true ∧ (wWinFar [0]).admitted.contains 2 = false ∧ ready.pkg = 0 ∧
      (∀ a ∈ [(0x80020000, 0x20000), (0x80020004, 0x20004)], paKind (wWinFar [0]) ((wWinFar [0]).mpwin * 0x80000000 + (a.1 - 0x80000000)) = .regWin 2 a.2 ∧
        paKind (wWinFar [0, 2]) ((wWinFar [0, 2]).mpwin * 0x80000000 + (a.1 - 0x80000000)) = .regWin 2 a.2) ∧
      0xFFA0000020000 + 4 = wWinFarHeld.mpwin * 0x80000000 + (0x80020004 - 0x80000000) ∧ wWinFarHeld.mpHeld = some (0xFFA0000020000, 0x100) ∧
      wWinFarRead.mpRead = some (0xFFA0000020000, 5) ∧ wWinFarHeld.mp.winTx = none ∧ wWinFarRead.mp.winTx = none) ∧
    ((wWin.mpwin * 0x80000000 + (0x80020000 - 0x80000000)) % 8 = 0 ∧ (regRead wWin .mp 0x20000).isSome = true) ∧
    ((wWin.mpwin * 0x80000000 + (0x80020004 - 0x80000000)) % 8 ≠ 0 ∧ 0xFFF0000020000 + 4 = wWin.mpwin * 0x80000000 + (0x80020004 - 0x80000000) ∧
      wWinRead.mpRead = some (0xFFF0000020000, 0x1122334455667788) ∧ wWinHeld.mpHeld = some (0xFFF0000020000, 0x100) ∧
      (regWrite { wWinHeld with mpHeld := none } .mp (0x20004 - 4) (BitVec.ofNat 64 (0x100 + 7 * 2 ^ 32))).isSome = true) ∧
    (takePacket (fun p => p.src == ⟨0, 5⟩ && p.txid == 9 && cmdCode p.cmd < 0x10 && (cxlWindow wCxl p.addr).isSome) wCxl = some (pkCxl, { wCxl with net := [] })) := by
  decide +kernel

/-! ### Power -/

/-- A domain in a state, its ingress open, closing or closed, a command under way. -/
def wDom (d x ing : Nat) (cmd : Option (Nat × Nat)) : State :=
  let s := setRgF { late ready with pw := { ready.pw with dom := cmd } } .dstate d 2 0 x
  setIngress s ⟨12, 16⟩ ing
/-- A packet for the Ladle stop is in flight. -/
def wDomBusy : State := { wDom 0x1A8 4 1 none with net := [pkGo ⟨12, 16⟩] }
/-- The Ladle engines are the secure world's. -/
def wDomOwn : State := setRgF (wDom 0x1A8 0 0 none) .ownmap 0 23 23 1
/-- PKGSTAT in a state. -/
def wPkg (x : Nat) : State := setRgF (late ready) .pkgstat 0 10 8 x
/-- Core 0 alone is present, and in BANK. -/
def wBanked : State := setRgF (setRg (wPkg 1) .lcmap 0 0x8000) .dstate 0 2 0 2
/-- A root port's acknowledgement is awaited. -/
def wPme : State := { wPkg 2 with pw := { ready.pw with pme := [(4, some 0)] } }
/-- The package enters BANK, or ANNEAL, and nothing is left to wait for. -/
def wEnter (target : Nat) : State := { (List.range 6).foldl (fun s j => setRgF s .dstate (0x1A4 + j) 2 0 2) (wPkg 2) with pw := { ready.pw with target := target } }

/-- Core 5 closes, and has closed or woke; the Ladle domain does so for a package entry. -/
def wCloses (d i : Nat) : State := setIngress (setRgF (late ready) .dstate d 2 0 4) ⟨0, d⟩ i
def wHubCloses (i : Nat) : State := setIngress (setRgF (wPkg 2) .dstate 0x1A8 2 0 4) ⟨12, 16⟩ i

theorem witness_PowerDomainsAndPackageEntry :
    (rgF (setRgF ready .domstat 0 7 0 1) .domstat 0 7 0 = 1 ∧ rgF ready .domstat 0 7 0 ≠ 1 ∧ domOwned wDomOwn 0x1A8 = true ∧ bySec (.core 0 false) = false ∧
      domOwned ready 0x1A8 = false ∧ domMoved 0x1A3 = false ∧ domMoved 0x1AC = false ∧ domMoved 0x1A8 = true ∧ domTarget 0x1A8 3 = false ∧
      (∀ t ∈ [0, 1, 2], domTarget 0x1A8 t = true ∧ domForbidden ready 0x1A8 t = false) ∧ domTarget 0x1AB 3 = true ∧ domForbidden ready 0x1AB 3 = false ∧
      domForbidden wRx 0x1A9 1 = true ∧ domState (wDom 0x1A8 0 0 none) 0x1A8 = 0 ∧ domState (wDom 0x1A8 2 2 none) 0x1A8 = 2) ∧
    (domStop 0x1A8 = some ⟨12, 16⟩ ∧ domState (wDom 0x1A8 4 1 none) 0x1A8 = 4 ∧ ingress (wDom 0x1A8 4 1 none) ⟨12, 16⟩ = 1 ∧
      domQuiet (wDom 0x1A8 4 1 none) 0x1A8 = true ∧ domQuiet wDomBusy 0x1A8 = false ∧ (wDom 0x1A8 4 1 none).pw.dom ≠ some (0x1AA, 3)) ∧
    ((wDom 0x1A8 4 2 (some (0x1A8, 1))).pw.dom = some (0x1A8, 1) ∧ ingress (wDom 0x1A8 4 2 (some (0x1A8, 1))) ⟨12, 16⟩ = 2 ∧
      domStop 0x110 = none ∧ domState (wDom 0x110 5 0 (some (0x110, 0))) 0x110 = 5) ∧
    (∀ i ∈ [2, 3], (wCloses 5 i).pw.dom = none ∧ domStop 5 = some ⟨0, 5⟩ ∧ domState (wCloses 5 i) 5 = 4 ∧ ingress (wCloses 5 i) ⟨0, 5⟩ = i) ∧
    (∀ i ∈ [2, 3], (wHubCloses i).pw.dom = none ∧ domState (wHubCloses i) 0x1A8 = 4 ∧ pkgState (wHubCloses i) = 2 ∧ ingress (wHubCloses i) ⟨12, 16⟩ = i) ∧
    (2 ≤ pkgState (wPkg 2) ∧ pkgState (wPkg 1) = 1 ∧ rg wDomOwn .ownmap 0 ≠ 0 ∧ rg ready .ownmap 0 = 0 ∧ (∀ p ∈ ready.admitted, p = ready.pkg) ∧
      (∃ p ∈ ({ ready with admitted := [0, 1] } : State).admitted, p ≠ ready.pkg)) ∧
    (pkgState wBanked = 1 ∧ (∀ n, n < 216 → lcValid wBanked n = true → (getCore wBanked (lcCore wBanked n)).stopped = false → domState wBanked (lcCore wBanked n) = 2) ∧
      pkgState ready ≠ 1) ∧
    (tget none 4 wPme.pw.pme = some 0 ∧ tget none 4 ready.pw.pme = none) ∧
    (∀ x ∈ [1, 2], pkgState (wEnter x) = 2 ∧ (wEnter x).pw.pme = [] ∧ (∀ j, j < 6 → domState (wEnter x) (0x1A4 + j) ≠ 4 ∧ domState (wEnter x) (0x1A4 + j) ≠ 0) ∧ (wEnter x).net = [] ∧
      (wEnter x).pw.target = x ∧
      domQuiet (wEnter x) 0x1AA = true ∧ domQuiet (wEnter x) 0x1AB = true) ∧
    (cachesEmpty (allCachesOut (wEnter 2)) = true ∧ (allCachesOut (wEnter 2)).pw = (wEnter 2).pw) := by
  refine ⟨?_, ?_, ?_, ?_, ?_, ?_, ?_, ?_, ?_, ?_⟩ <;> decide +kernel

/-- Every wake source is enabled; PKGSTAT in a state. -/
def wWake2 (x : Nat) : State := setRg (wPkg x) .wakectl 0 (BitVec.allOnes 64)
/-- A wake is in a step. -/
def wRun (n : Nat) (again : Bool) : State := { wWake2 3 with pw := { ready.pw with wake := some ⟨n, 0, again, 2, 0, 1, 0⟩ } }
/-- Every link is ACTIVE. -/
def wLinks : State := (List.range 48).foldl (fun s n => setLsF s n 3 0 5) (wRun 4 false)
/-- Stack 0 is at 110 degrees, and at 60. -/
def wHot (q : Nat) : State := setStk (late ready) 0 { stkOf ready 0 with tmax := q }
/-- A sample. -/
def sampleIn : SampleIn := ⟨40, 0, 0x800, 0, []⟩
/-- Sensor 3 was at its trip level. -/
def wTrip : State := { wWake2 4 with
  ptime := 20000000
  pw := { ready.pw with hotSens := [3] } }

theorem witness_WakeTripAndLoops :
    (bit (rg (wWake2 4) .wakectl 0) 40 = true ∧ bit (rg (wWake2 4) .wakectl 0) 3 = true ∧ (∀ x ∈ [0, 1, 4, 5], pkgState (wWake2 x) = x) ∧
      bit (rg ready .wakectl 0) 40 = false ∧ rgF (wWake2 0) .lastwake 0 47 46 ≠ 3 ∧ (rg (wWake2 4) .waketime 0).toNat ≤ now (wWake2 4) ∧
      now (wWake2 4) < (rg (setRg (wWake2 4) .waketime 0 2000000) .waketime 0).toNat) ∧
    (pkgState (wWake2 5) = 5 ∧ sampleIn.hot = [] ∧ (wWake2 5).pw.tripped = false ∧
      (wWake2 5).pw.sampleAt + rgF (setRgF (wWake2 5) .annctl 0 13 0 1) .annctl 0 13 0 * 1000000 ≤ now (wWake2 5) ∧
      now { wWake2 5 with ptime := 0 } < (wWake2 5).pw.sampleAt + rgF (setRgF (wWake2 5) .annctl 0 13 0 1) .annctl 0 13 0 * 1000000) ∧
    (pkgState wTrip = 4 ∧ pkgState (wWake2 3) = 3 ∧ wTrip.pw.sampleAt + 10000000 ≤ now wTrip ∧ (∃ x ∈ ([3] : List (BitVec 13)), x.toNat ∈ wTrip.pw.hotSens) ∧
      (∀ x ∈ ([4] : List (BitVec 13)), x.toNat ∉ wTrip.pw.hotSens)) ∧
    (pkgState ready < 4 ∧ ready.pw.tripped = false ∧ (List.replicate 12 (0 : BitVec 16)).length = 12) ∧
    (wakeKeepsTime (wWake2 4) = true ∧ wakeKeepsTime ready = false) ∧
    (∀ n ∈ [1, 2, 3, 4], (wRun n false).pw.wake = some ⟨n, 0, false, 2, 0, 1, 0⟩ ∧ 0 + wakeLimit n ≤ now (wRun n false) ∧
      now { wRun n false with ptime := 0 } < 0 + wakeLimit n) ∧
    (linksUp wLinks = true ∧ wLinks.pw.wake = some ⟨4, 0, false, 2, 0, 1, 0⟩) ∧
    ((wRun 3 true).pw.wake = some ⟨3, 0, true, 2, 0, 1, 0⟩ ∧ 0 + wakeLimit 3 ≤ now (wRun 3 true)) ∧
    ((stkOf (wHot 440) 0).lowAt + 10000 ≤ now (wHot 440) ∧ alertQ (wHot 440) ≤ toSigned 16 (stkOf (wHot 440) 0).tmax ∧
      toSigned 16 (stkOf (wHot 240) 0).tmax < alertQ (wHot 240) ∧ (stkOf (wHot 240) 0).highAt + 100000 ≤ now (wHot 240) ∧
      toSigned 16 (stkOf (wHot 240) 0).tmax ≤ alertQ (wHot 240) - 12 ∧ alertQ (wHot 440) - 12 < toSigned 16 (stkOf (wHot 440) 0).tmax) ∧
    (ready.pw.lowAt + 10000 ≤ now (late ready) ∧ ready.pw.highAt + 100000 ≤ now (late ready) ∧ rgF (late ready) .pcapctl 0 15 0 < (0xFFFF : BitVec 16).toNat ∧
      100 * (0 : BitVec 16).toNat ≤ 98 * rgF (late ready) .pcapctl 0 15 0 ∧ now ready < ready.pw.lowAt + 10000) := by
  refine ⟨?_, ?_, ?_, ?_, ?_, ?_, ?_, ?_, ?_, ?_⟩ <;> decide +kernel

/-! ### The L3, ranges, errors and retirement -/

/-- Home 2's L3 in use; being emptied; being invalidated; invalid. -/
def wL3On : State := setRgF ready .l3ctl 2 0 0 1
def wL3Stat (n : Nat) : State := setRgF ready .l3stat 2 n n 1
/-- Home 2 runs a walk, and others wait. -/
def wWalk (r : Option WalkKind) (ws : List WalkKind) : State := { ready with
  walkRun := [(2, r)]
  walks := [(2, ws)] }
/-- Home 2's directory sweep is under way. -/
def wSweep : State := { ready with sweeping := [(2, true)] }
/-- Mask 1 of home 2 is the secure world's. -/
def wMask : State := setRgF ready .pmask 33 32 32 1
/-- A way of slice 7's directory of home 2 is to be shut, and holds an entry of the line at 0x2000 or none; a way of the hub I/O cache
is, and a line is in it or none. -/
def wDirWalk (held : Bool) : State :=
  let l := 0x80
  let s := wWalk (some (.dirRetire (lineLoc ready l).slice 3)) []
  { s with
    walkRun := [((lineLoc ready l).home, some (.dirRetire (lineLoc ready l).slice 3))]
    dir := if held then [(l, { st := .dx, ptr := 0, cores := 1, way := 3 })] else [] }
def wHioWalk (held : Bool) : State :=
  let s := { ready with
    walkRun := [(12, some (.wayRetire 0 3))]
    hioWays := [(0x80, 3)] }
  if held then setHline s 0xF0 0x80 { st := .e } else s
/-- Range unit 1 is at work, asked to interrupt; nothing is left to do; home 0 still has its walk to run. -/
def wRange : State := setRgF (setRgF ready .rmstat 1 7 0 1) .rmcmd 1 4 4 1
def wRangeDue : State := { wRange with walks := [(0, [.range 1])] }
/-- A range whose base lies above its limit. -/
def wRangeBad : State := setRgF ready .rmbase 0 51 12 1

theorem witness_L3WalksAndRanges :
    (ownStk ready 2 = false ∧ bySec (.core 0 true) = true ∧ rgF ready .l3ctl 2 0 0 = 0 ∧ rgF ready .l3stat 2 3 3 = 0 ∧ rgF ready .l3stat 2 2 2 = 0 ∧
      rgF wL3On .l3ctl 2 0 0 = 1 ∧ (∀ n ∈ [0, 1, 2, 3], rgF (wL3Stat n) .l3stat 2 n n = 1 ∧ rgF (wL3Stat n) .l3ctl 2 0 0 = 0) ∧
      rgF (wL3Stat 1) .l3stat 2 3 3 = 0 ∧ rgF ready .l3stat 2 1 1 = 0 ∧ rgF ready .l3stat 2 0 0 = 0) ∧
    ((∀ r ∈ [WalkKind.invAll, .flush, .wayRetire 7 15, .range 1], tget none 2 (wWalk (some r) []).walkRun = some r) ∧ tget false 2 wSweep.sweeping = true ∧
      tget none 2 ready.walkRun = none ∧ tget false 2 ready.sweeping = false) ∧
    (tget [] 2 ready.walks = [] ∧ tget none 2 (wWalk none [.invAll]).walkRun = none ∧
      (∀ r ∈ [WalkKind.invAll, .flush, .wayRetire 7 15], tget [] 2 (wWalk (some .flush) [r, .flush]).walks = [r, .flush]) ∧
      (∀ r ∈ [WalkKind.invAll, .flush, .wayRetire 7 15], tget [] 2 (wWalk none [r, .flush]).walks = [r, .flush])) ∧
    (bySec (.core 0 false) = false ∧ bit (rg ready .pmask 33) 32 = false ∧ bit (rg wMask .pmask 33) 32 = true ∧ ownStk wMask 2 = false ∧
      ownStk wStkOwn 3 = true ∧ (3 : Fin 13).val = (3 : StackId).val ∧ wStkOwn.hlog.pend.length < 32) ∧
    (tget none 0 (wDirWalk false).walkRun = some (.dirRetire (lineLoc ready 0x80).slice 3) ∧ (lineLoc ready 0x80).home = 0 ∧
      (lineLoc ready 0x80).slice < 8 ∧ (wDirWalk false).dir = [] ∧ tget none 0 (wDirWalk true).walkRun = some (.dirRetire (lineLoc ready 0x80).slice 3) ∧
      (∃ p ∈ (wDirWalk true).dir, p.2.way = 3 ∧ p.2.st ≠ .none_ ∧ isLocalMem (wDirWalk true) (p.1 * 64) = true ∧
        (lineLoc (wDirWalk true) p.1).home = 0 ∧ (lineLoc (wDirWalk true) p.1).slice = (lineLoc ready 0x80).slice)) ∧
    ((∀ x : Bool, tget none 12 (wHioWalk x).walkRun = some (.wayRetire 0 3)) ∧ (hline (wHioWalk false) 0xF0 0x80).st = .i ∧
      (∃ p ∈ (wHioWalk true).hioWays, p.2 = 3 ∧ (hline (wHioWalk true) 0xF0 p.1).st ≠ .i)) ∧
    (rgF wRange .rmstat 1 7 0 = 1 ∧ rgF ready .rmstat 1 7 0 ≠ 1 ∧ rangeValid ready 0 = true ∧ rangeValid ready 1 = true ∧ rangeValid wRangeBad 0 = false ∧
      (∀ h, h < 12 → rangeHomeDone wRange 1 h = true) ∧ rgF wRange .rmcmd 1 4 4 = 1 ∧ rgF wRangeDue .rmstat 1 7 0 = 1 ∧
      rangeHomeDone wRangeDue 1 0 = false ∧ stkFenced ready 11 = false) := by
  refine ⟨?_, ?_, ?_, ?_, ?_, ?_, ?_⟩ <;> decide +kernel

theorem no_range (u : Nat) : ∀ r ∈ [WalkKind.invAll, .flush, .wayRetire 7 15], r ≠ .range u := by simp

/-- A request of a core has waited 128 ms, or nothing. -/
def outOne : Outst := ⟨⟨0, 0⟩, 5, .rds, 0x1000, 0⟩
def wOut (t : Nat) : State := { ready with
  ptime := BitVec.ofNat 64 t
  outst := [outOne] }
/-- Ways at 15 are disabled; cores 0 and 19 of stack 0 have reached their threshold. -/
def wWays : State := setRgF (setRgF (setRgF (setRgF ready .l3way 23 15 0 0x8000) .dirway 23 15 0 0x8000) .hioway 0 15 0 0x8000) .retstat 0 19 0 0x80001
/-- CAUSE shows the conditions there are. -/
def wSvc : State := setRgF ready .svcreq 0 7 0 (svcCause (followLinks ready))
def wSvcOld : State := setRgF ready .svcreq 0 7 0 0x40

theorem witness_ErrorsAndRetirement :
    ((wOut 0).outst.find? (fun o => o.stop == ⟨0, 0⟩ && o.txid == (5 : BitVec 16).toNat) = some outOne ∧ now (wOut 0) < outOne.since + rqto (wOut 0) ∧
      outOne.since + rqto (wOut 128000000) ≤ now (wOut 128000000) ∧ unsent (wOut 128000000) ⟨0, 0⟩ 5 = false ∧
      unsent { setStopState (wOut 128000000) ⟨1, 20⟩ 2 with net := [{ cmd := .rdc, src := ⟨0, 0⟩, dst := ⟨1, 20⟩, txid := 5 }] } ⟨0, 0⟩ 5 = true ∧ now (wOut 127999999) < outOne.since + rqto (wOut 127999999)) ∧
    (ownStk ready 11 = false ∧ (12 : Fin 13).val = 12) ∧
    ((∀ kind, kind < 3 → (rgF wWays (disReg kind 2 7).1 (disReg kind 2 7).2 15 0).testBit 15 = true ∧
      (rgF ready (disReg kind 2 7).1 (disReg kind 2 7).2 15 0).testBit 15 = false)) ∧
    (∀ c ∈ [0, 19], (rgF wWays .retstat (c / 20) 19 0).testBit (c % 20) = true ∧ tget false c wWays.coreFuse = false ∧
      (rgF ready .retstat (c / 20) 19 0).testBit (c % 20) = false) ∧
    (svcCause (followLinks wSvcOld) ≠ rgF wSvcOld .svcreq 0 7 0 ∧ svcCause (followLinks wSvc) = rgF wSvc .svcreq 0 7 0) ∧
    ((wOut 3600000000000).lifeAt + 3600000000000 ≤ pourTime (wOut 3600000000000) ∧ rgF (wOut 3600000000000) .pkgstat 0 10 8 ≤ 1 ∧
      pourTime ready < ready.lifeAt + 3600000000000) := by
  refine ⟨?_, ?_, ?_, ?_, ?_, ?_⟩ <;> decide +kernel

/-! ### Mailboxes, the heat log, the Ihlell link -/

def bootIn : BootIn := ⟨0x4000000, true, true, true, true⟩
/-- The flash holds an image header: its magic. -/
def wFlash : State := { ready with flash := [(0, 0x4F), (1, 0x41), (2, 0x4D), (3, 0x50)] }
/-- The management processor runs its image. -/
def wMp : State := { ready with mp := { ready.mp with boot := 1 } }

/-- How a read of a block ends, and how the write of its answer. -/
def postEnds (s : State) (cls line : Nat) : HubRes × Bool :=
  let r := blockRead s 19 (mbWorld cls) (line * 64) {}
  let e := mbEnter r.2.2 cls ⟨r.2.1, line * 64, 0, 0⟩
  (r.1, (blockWrite e.2 19 (mbWorld cls) (line * 64) (bytesLE 8 (lineGet e.1 0 8)) {}).1)

/-- A class queue of 64 entries. -/
def wMbFull (c : Nat) : State := setMbQ wMp c (List.replicate 64 ⟨0, 0, 0, 0⟩)

/-- The tundish class's entry is served: an operation, its argument bytes, the package it names. -/
def mbBlk (op arg pkg : Nat) : LineData := linePut (linePut (linePut 0 6 2 op) 8 1 arg) 40 2 pkg
def wServ (op arg pkg : Nat) : State := { wMp with mp := { wMp.mp with
  mbq := [(0, [⟨mbBlk op arg pkg, 0, 0, 0⟩])]
  serv := some (0, 0) } }

/-- A device's record waits; a commit waits. -/
def wRec : State := { ready with hlog := { ready.hlog with pend := [⟨2, 0, 0, 0, 0, 0, none⟩] } }
def comOne : HlPend := ⟨0x50, 0, 0, 0, 0, 0, some (0x2000, false)⟩
def wCom : State := { ready with hlog := { ready.hlog with pend := [comOne] } }
/-- What a commit leaves before its block is written back. -/
def wComV : State := hlPop (hlAppend wCom { comOne with
  ptime := wCom.ptime
  flags := hlFlags wCom })
/-- No supply. -/
def wNoVin (s : State) : State := { s with
  vin := false
  vstby := false }

/-- How a read of the commit's block ends, and how the write of its result. -/
def commitEnds (s : State) (seq : Nat) (t : Word) : HubRes × Bool :=
  let r := blockRead s 20 false 0x2000 {}
  (r.1, (hlReport r.2.2 false 0x2000 r.2.1 0 (some (seq, t)) {}).1)
/-- How a read of a block ends, whether a commit then has room, how the write of HL_FULL ends. -/
def fullEnds (s : State) : HubRes × Bool × Bool :=
  let r := blockRead s 20 false 0x2000 {}
  (r.1, commitRoom r.2.2, (hlReport r.2.2 false 0x2000 r.2.1 0x06 none {}).1)

/-- The pending records leave a commit no room. -/
def wHlFull : State := { ready with hlog := { ready.hlog with pend := List.replicate 32 ⟨2, 0, 0, 0, 0, 0, none⟩ } }
/-- A commit is on its way to the island. -/
def pkHlog : Packet := { cmd := .hlog, src := ⟨12, 20⟩, dst := ⟨12, 20⟩, cls := .g, addr := 0x2000 }
def wHlNet (s : State) : State := { s with net := [pkHlog] }

theorem witness_MailboxesAndHeatLog :
    (wFlash.mp.boot = 0 ∧ wFlash.resetN = true ∧ wFlash.rs.pwrgood = true ∧ wFlash.rs.run = none ∧
      ((bootTries wFlash bootIn).find? (fun t => t.2.1)).map (fun t => t.1) = some 0 ∧ (bootTries ready bootIn).find? (fun t => t.2.1) = none ∧
      wMp.mp.boot ≠ 0) ∧
    (bySec (.core 0 false) = false ∧ (∀ cls ∈ [1, 2], postEnds wMp cls 0x80 = (.ok, true) ∧ postEnds (wMbFull cls) cls 0x80 = (.ok, true) ∧
      (postEnds (wTaken wMp) cls 0x80).1 = .wait ∧ (postEnds wMp cls 0x3800000).1 = .err) ∧
      (mbQ wMp 1).length < 64 ∧ 64 ≤ (mbQ (wMbFull 1) 1).length) ∧
    ((mbQ ready 0).length < 64 ∧ 64 ≤ (mbQ (wMbFull 0) 0).length) ∧
    (∀ r ∈ ([(0x01, 0, 0), (0x20, 0, 0), (0x30, 7, 0), (0x40, 0, 0), (0x10, 0, 1), (0x10, 0, 0), (0x99, 0, 0)] : List (Nat × Nat × Nat)),
      let s := wServ r.1 r.2.1 r.2.2
      s.mp.serv = some (0, 0) ∧ mbQ s 0 = [⟨mbBlk r.1 r.2.1 r.2.2, 0, 0, 0⟩] ∧ lineGet (mbBlk r.1 r.2.1 r.2.2) 6 2 = r.1 ∧
      lineGet (mbBlk r.1 r.2.1 r.2.2) 8 1 = r.2.1 ∧ lineGet (mbBlk r.1 r.2.1 r.2.2) 40 2 = r.2.2 ∧ s.pkg = 0 ∧ 1 ∉ s.admitted) ∧
    (0x99 ∉ mbOps ∧ wMp.mp.boot = 1 ∧ wMp.mp.serv = none ∧ wMp.mp.wdAt + rgF wMp .mpwdt 0 15 0 * 1000000 ≤ now { wMp with ptime := 100000000 } ∧
      now wMp < wMp.mp.wdAt + rgF wMp .mpwdt 0 15 0 * 1000000) ∧
    (ready.mp.shedAt + 10000000 ≤ now { ready with ptime := 10000000 } ∧ now ready < ready.mp.shedAt + 10000000 ∧ 90 < (91 : BitVec 7).toNat ∧
      (50 : BitVec 7).toNat ≤ 50 ∧ ({ wMp.mp with shedLow := 9 } : MpSt).shedLow = 9 ∧ 50 < (51 : BitVec 7).toNat ∧ (90 : BitVec 7).toNat ≤ 90) ∧
    (wRec.hlog.pend = [⟨2, 0, 0, 0, 0, 0, none⟩] ∧ wRec.hlog.lost = 0 ∧ hlAppends wRec = true ∧ hlAppends (wNoVin wRec) = false ∧
      wCom.hlog.pend = [comOne] ∧ wCom.hlog.lost = 0 ∧ hlAppends wCom = true ∧ commitEnds wComV wComV.hlog.head wCom.ptime = (.ok, true) ∧
      (commitEnds (wTaken wComV) 0 0).1 = .wait) ∧
    ((fullEnds ready).1 = .ok ∧ (fullEnds ready).2.1 = true ∧ fullEnds wHlFull = (.ok, false, true) ∧ (fullEnds (wTaken ready)).1 = .wait) ∧
    (takePacket (fun p => p.cmd == .hlog) (wHlNet ready) = some (pkHlog, ready) ∧ hlRoom (gArrive ready pkHlog) = true ∧ hlAppends (gArrive ready pkHlog) = true ∧
      takePacket (fun p => p.cmd == .hlog) (wHlNet wHlFull) = some (pkHlog, wHlFull) ∧ hlRoom (gArrive wHlFull pkHlog) = false ∧
      (hlReport (gArrive wHlFull pkHlog) false 0x2000 0 0x06 none {}).1 = true ∧
      takePacket (fun p => p.cmd == .hlog) ready = none) := by
  refine ⟨?_, ?_, ?_, ?_, ?_, ?_, ?_, ?_, ?_⟩ <;> decide +kernel

/-- Records up to 40 have been appended. -/
def wLog : State := { ready with hlog := { ready.hlog with head := 40 } }
/-- The board controller's class queue is full. -/
def wBc : State := wMbFull 3

theorem witness_IhlellFrames :
    ((0x10 : BitVec 8).toNat = 0x10 + ready.pkg ∧ ready.vin = true ∧ (ihlActivity ready).vin = true) ∧
    ((1 : BitVec 8).toNat = 1 ∧ hlHeld (ihlActivity wLog) 40 = true ∧ hlHeld (ihlActivity wLog) 41 = false ∧ hlHeld (ihlActivity wLog) 39 = true ∧
      hlHeld (ihlActivity wLog) (39 + 1) = true ∧ (2 : BitVec 8).toNat = 2 ∧ 2 < (3 : BitVec 8).toNat) ∧
    ((0 : BitVec 48).toNat < (1 : BitVec 48).toNat ∧ (0 : BitVec 48).toNat ≤ (41 : BitVec 48).toNat ∧ (ihlActivity wLog).hlog.head ≤ 32767 ∧
      (40 : BitVec 48).toNat = (ihlActivity wLog).hlog.head ∧ hlHeld (ihlActivity ready) 0 = true ∧ (0 : BitVec 48).toNat = (ihlActivity ready).hlog.head) ∧
    (ready.rs.boot ≠ 3 ∧ (mbQ (ihlActivity ready) 3).length < 64 ∧ 64 ≤ (mbQ (ihlActivity wBc) 3).length ∧ wBc.vin = true ∧ wBc.rs.boot ≠ 3) ∧
    ((List.replicate 128 (0 : Byte)).length ≤ 128 ∧ 128 < (List.replicate 129 (0 : Byte)).length) ∧
    ((wNoVin ready).vin = false ∧ (ihlActivity (wNoVin ready)).vin = false ∧ (ihlActivity (wNoVin ready)).rs.boot ≠ 3) ∧
    ((0x11 : BitVec 8).toNat ≠ 0x10 + ready.pkg ∧ (0x11 : BitVec 8).toNat ≠ 0x1F) ∧
    (ihlCrc [0x10, 0x7F, 5, 0] ≠ ((BitVec.ofNat 16 (ihlCrc [0x10, 0x7F, 5, 0]) + 1).toNat) ∧
      ihlCrc [0x10, 0x7F, 5, 0] = (BitVec.ofNat 16 (ihlCrc [0x10, 0x7F, 5, 0])).toNat ∧ ([] : List Byte).length = (0 : Byte).toNat ∧
      ([] : List Byte).length ≠ (1 : Byte).toNat ∧ (ihlActivity ready).rs.boot ≠ 3 ∧
      (0x7F : Byte).toNat ∉ [0x01, 0x02, 0x03, 0x10, 0x11, 0x12, 0x18, 0x20, 0x30, 0x40]) := by
  refine ⟨?_, ?_, ?_, ?_, ?_, ?_, ?_, ?_⟩ <;> decide +kernel

/-- Records 0 alone: the check from 0 to 0 ends in the chain value of record 0, unless its TAG fails. -/
theorem witness_verify : (∃ bad, hlCheck (ihlActivity ready) 0 1 0 zero32 = .inl bad) ∨ hlCheck (ihlActivity ready) 0 1 0 zero32 = .inr (hlChain (ihlActivity ready)) := by
  have hc : (ihlActivity ready).hlog.chain = none := by decide +kernel
  by_cases h : 0 ≤ 0 ∧ (cmacWhole hlKeyBytes (zero32 ++ (hlAt (ihlActivity ready) 0).take 56)).take 8 ≠ (hlAt (ihlActivity ready) 0).drop 56
  · exact .inl ⟨0, by unfold hlCheck; exact if_pos h⟩
  · refine .inr ?_
    have e : hlChain (ihlActivity ready) = chainNext zero32 (hlAt (ihlActivity ready) 0) := by
      unfold hlChain; rw [hc]
    rw [e]
    unfold hlCheck
    exact if_neg h

/-! ### Resets and bring-up -/

/-- A command of RSTCMD is under way. -/
def wRstBusy : State := setRgF ready .rststat 0 7 0 1
/-- Stack 3 is READY; logical core 0 is core 0, held. -/
def wRst : State := setRg (setStkState ready 3 5) .lcmap 0 0x8000
/-- Stacks 0 and 3 are the secure world's. -/
def wRstOwn : State := setRgF wRst .ownmap 0 3 0 9
/-- Core 0 runs. -/
def wRstRuns : State := setCore wRst 0 { getCore wRst 0 with held := false }
/-- Every stack is READY, the time base locked, PHASE EARLY. -/
def wEarly : State := { (List.range 12).foldl (fun s n => setStkState s n 5) (setRgF ready .bustat 0 63 60 4) with tbMode := 1 }
/-- A reset under way. -/
def wRun2 (s : State) (sc : RstScope) (ph : Nat) : State := { s with rs := { s.rs with run := some ⟨sc, 2, ph⟩ } }
/-- Core 0 has a store that has not left. -/
def wUndrained : State := setCore ready 0 { getCore ready 0 with
  sb := [{ va := 0x2000, pa := 0x2000, dev := false, nc := false, size := 8, data := 1, mask := 0xFF, world := false, partid := 0, keyid := 0, epoch := 0, sent := false, txid := 0 }] }
/-- Core 0 holds line 128 modified, alone; home 5 has fenced core 0. -/
def wOneLine : State := { ready with lines := [(0 * 2 ^ 46 + 0x80, { st := .m, data := 7 })] }
def wFence0 : State := setRgF wOneLine .hfence 20 0 0 1

/-- A warm reset has come to its end, but a store of core 0 is on its way. -/
def wStoreOut : State := { wRun2 ready .warm 2 with net := [{ pkGo ⟨0, 20⟩ with cmd := .wrc, cls := .q }] }

theorem witness_ResetCommandsAndSteps :
    (rgF wRstBusy .rststat 0 7 0 = 1 ∧ rgF wRst .rststat 0 7 0 ≠ 1 ∧ rstNames wRst 2 12 = false ∧ rstNames wRst 3 1 = false ∧
      (∀ r ∈ ([(1, 0), (2, 3), (3, 0), (4, 0), (5, 0), (6, 0)] : List (Nat × Nat)), rstNames wRstOwn r.1 r.2 = true ∧ rstOwned wRstOwn r.1 r.2 = true) ∧
      bySec (.core 0 false) = false ∧ rgF wRstOwn .rststat 0 7 0 ≠ 1 ∧ wRstOwn.hlog.pend.length < 32) ∧
    (rg wRst .ownmap 0 = 0 ∧ wRst.mp.serv = none ∧ wRst.hubTx = [] ∧ goFullOk wEarly = true ∧ rg wEarly .ownmap 0 = 0 ∧ rgF wEarly .rststat 0 7 0 ≠ 1 ∧ goFullOk wRst = false) ∧
    (ownStk wRst 3 = false ∧ stkState wRst 3 = 5 ∧ wRst.rs.run = none ∧ stkState wRst 2 ≠ 5) ∧
    (lcValid wRst 0 = true ∧ ownStk wRst (lcCore wRst 0 / 20) = false ∧ (getCore wRst 0).held = true ∧ (getCore wRst 0).stopped = false ∧
      (getCore wRst 0).inReset = false ∧ lcCore wRst 0 = 0 ∧ (getCore wRstRuns 0).held = false ∧ lcValid wRstRuns 0 = true) ∧
    (∀ sc ∈ [RstScope.warm, .stack 11, .core 239], ∀ ph ∈ [0, 1, 2], (wRun2 ready sc ph).rs.run = some ⟨sc, 2, ph⟩ ∧ storesOut (wRun2 ready sc ph) = false) ∧
    (storesOut wStoreOut = true ∧ wStoreOut.rs.run = some ⟨.warm, 2, 2⟩) ∧
    (coreDrained (wRun2 wUndrained (.core 0) 0) 0 = false ∧ coreDrained (wRun2 wOneLine (.core 0) 0) 0 = true ∧ coreDrained (wRun2 wFence0 (.core 0) 0) 0 = true ∧
      (∀ c ∈ scopeCores .warm, coreDrained (wRun2 ready .warm 0) c = true) ∧ (∀ c ∈ scopeCores .warm, holderEmpty (wRun2 ready .warm 0) c = true) ∧
      fencedAt (wRun2 wFence0 (.core 0) 0) 5 0 = true ∧ (∀ d, d < 12 → fencedAt (wRun2 wOneLine (.core 0) 0) d 0 = false) ∧
      (wRun2 wOneLine (.core 0) 0).lines = [(0 * 2 ^ 46 + 0x80, { st := .m, data := 7 })] ∧ validSt .m = true) ∧
    (holderEmpty (wRun2 ready .warm 1) 0xF0 = true) ∧
    (rgF (wRun2 { wRstBusy with rs := { wRstBusy.rs with op := (3, 239) } } (.core 239) 2) .rststat 0 7 0 = 1 ∧
      (wRun2 { wRstBusy with rs := { wRstBusy.rs with op := (3, 239) } } (.core 239) 2).rs.op = (3, 239)) := by
  refine ⟨?_, ?_, ?_, ?_, ?_, ?_, ?_, ?_, ?_⟩ <;> decide +kernel

/-- The supply is not good; RESET_N is low, at a cold reset or not; THERMTRIP_N is low. -/
def wNoPwr : State := { ready with rs := { ready.rs with pwrgood := false } }
def wRstN (cold : Bool) : State := { ready with
  resetN := false
  rs := { ready.rs with coldPend := cold } }
def wTripped : State := { ready with pw := { ready.pw with tripped := true } }

theorem witness_PowerAndResetPins :
    (ready.rs.pwrgood = true ∧ wNoPwr.rs.pwrgood = false ∧ ready.resetN = true ∧ ready.pw.tripped = false ∧ wTripped.pw.tripped = true) ∧
    (∀ c : Bool, (wRstN c).rs.pwrgood = true ∧ (wRstN c).resetN = false ∧ (wRstN c).pw.tripped = false ∧ (wRstN c).rs.coldPend = c) ∧
    (ready.tbMode = 0 ∧ pkgState ready < 4 ∧ wEarly.tbMode ≠ 0) := by decide +kernel

/-- Bring-up: the management processor runs its image, and has come so far; PHASE. -/
def wBoot (b ph : Nat) : State := setRgF { wMp with rs := { wMp.rs with boot := b } } .bustat 0 63 60 ph
/-- The hub's letter is A. -/
def revsBad : List DieRev := [⟨0x41, 0x31⟩]
/-- Every stack in a state, its links up but stack 11's. -/
def wStks (s : State) (x : Nat) (n : Nat) : State := (List.range n).foldl (fun s k => setLsF (setLsF s (36 + k) 3 0 5) (3 * k + 2) 3 0 5)
  ((List.range 12).foldl (fun s k => setStkState s k x) s)
/-- PHASE TILES, some links up, late. -/
def wTiles (x n : Nat) : State := { wStks (wBoot 2 2) x n with ptime := 2000000000 }
/-- Channels 0 and 5 are in service. -/
def wChs (c0 c5 : Nat) : State :=
  let s := setRgF (setRgF (wTiles 3 12) .mcstat 0 1 0 2) .mcstat 5 1 0 2
  { s with rs := { s.rs with mods := [(0, { kind := 0, dimms := 1, cap := c0, rate := 2 }), (5, { kind := 0, dimms := 1, cap := c5, rate := 2 })] } }
/-- Stack 4 is to be initialised, or initialises. -/
def wDie (x : Nat) : State := setStkState { wTiles 3 12 with regs := (setRgF (wTiles 3 12) .bustat 0 63 60 3).regs } 4 x
/-- Stack 1 was READY first; its logical core 2 is core 22. -/
def wFirst : State := setRg { wDie 4 with rs := { (wDie 4).rs with firstReady := some 1 } } .lcmap 20 0x8102
/-- GO_FULL is at home 0 of homes 0 and 2. -/
def wGo (rate re : Nat) (last : Bool) : State := { wChs 64 64 with rs := { (wChs 64 64).rs with goFull := some ⟨rate, 2, re, [0, 2], last, false⟩ } }
def wGoEnd : State := { wChs 64 64 with rs := { (wChs 64 64).rs with goFull := some ⟨2, 2, 0, [], false, false⟩ } }

theorem witness_BringUpSequence :
    (bringing ready = false ∧ bringing (wBoot 1 0) = true ∧ (wBoot 1 0).rs.boot = 1 ∧ (revsBad.getD 0 (dieRef 0)).letter ≠ 0x42 ∧
      (([] : List DieRev).getD 0 (dieRef 0)).letter = 0x42 ∧ (wBoot 1 0).rs.floored = false ∧
      (∀ x, x < 240 → domState (wBoot 1 0) x = 0 ∨ domState (wBoot 1 0) x = 3) ∧
      { wBoot 1 0 with rs := { (wBoot 1 0).rs with floored := true } }.rs.floored = true ∧ (wBoot 1 0).pkg = 0 ∧ stkFenced (wBoot 1 0) 11 = false) ∧
    (leavesHub (wBoot 1 0) = false ∧ leavesHub (wBoot 2 0) = true ∧ bringing (wBoot 2 0) = true ∧ phase (wBoot 2 0) ≠ 2 ∧ bringing (wTiles 1 11) = true ∧
      phase (wTiles 1 11) = 2 ∧ (wTiles 1 11).rs.linkAt + 1000000 ≤ now (wTiles 1 11) ∧ now (wStks (wBoot 2 2) 1 11) < (wStks (wBoot 2 2) 1 11).rs.linkAt + 1000000 ∧
      stkFenced (wTiles 1 11) 11 = false ∧ stkState (wTiles 1 11) 11 = 1 ∧ spokeUp (wTiles 1 11) 11 = false ∧ spokeUp (wTiles 1 11) 10 = true) ∧
    (bringing (wTiles 1 12) = true ∧ phase (wTiles 1 12) = 2 ∧ (∀ n ∈ liveStks (wTiles 1 12), stkState (wTiles 1 12) n = 1 ∧ spokeUp (wTiles 1 12) n = true)) ∧
    (stkState (wTiles 2 12) 4 = 2 ∧ tget 0 4 (wTiles 2 12).rs.tileAt + 1000000000 ≤ now (wTiles 2 12) ∧ stkState ready 4 ≠ 2 ∧
      stkState (wTiles 4 12) 4 = 4 ∧ tget 0 4 (wTiles 4 12).rs.dieAt + 50000000 ≤ now (wTiles 4 12) ∧ now ready < tget 0 4 ready.rs.tileAt + 1000000000 ∧
      now ready < tget 0 4 ready.rs.dieAt + 50000000 ∧ spokeUp (wTiles 4 12) 4 = true ∧ tget false 4 (wTiles 4 12).sweeping = false ∧
      (wTiles 4 12).rs.firstReady = none ∧ wFirst.rs.firstReady = some 1) ∧
    (bringing (wChs 64 32) = true ∧ phase (wChs 64 32) = 2 ∧ (∀ n ∈ liveStks (wChs 64 32), stkState (wChs 64 32) n = 3) ∧ liveChs (wChs 64 32) = [0, 5] ∧
      (∀ c ∈ liveChs (wChs 64 32), 0 < (tget {} c (wChs 64 32).rs.mods : ChMods).cap ∧ (tget {} c (wChs 64 32).rs.mods : ChMods).cap < 1024)) ∧
    (bringing (wDie 3) = true ∧ stkState (wDie 3) 4 = 3 ∧ stkState (wDie 7) 4 = 7 ∧ 3 ≤ phase (wDie 3) ∧ (wDie 3).rs.asg = [] ∧ (wDie 3).rs.spareMask = [] ∧
      (∀ u, u < 20 → fused (wDie 3) 4 u = false) ∧ (∀ u, u < 18 → (BitVec.ofNat 20 (2 ^ u)).toNat = 2 ^ u)) ∧
    (phase wFirst = 3 ∧ lcValid wFirst (18 * 1 + 2) = true ∧ (∀ j, j < 2 → lcValid wFirst (18 * 1 + j) = false) ∧ lcCore wFirst (18 * 1 + 2) = 22 ∧
      rgF (setRgF wFirst .l3stat 3 0 0 1) .l3stat 3 0 0 = 1) ∧
    ((∀ r ∈ ([(2, 0, false), (2, 4, false), (0, 0, false), (0, 4, true)] : List (Nat × Nat × Bool)), let s := wGo r.1 r.2.1 r.2.2
        s.rs.goFull = some ⟨r.1, 2, r.2.1, [0, 2], r.2.2, false⟩ ∧ homeQuiet s 0 = true ∧ homeChs s 0 = [0] ∧
        (homeChs s 0).filter (fun c => (1 : BitVec 2).toNat.testBit (c % 2)) = [0] ∧ (homeChs s 0).filter (fun c => (0 : BitVec 2).toNat.testBit (c % 2)) = []) ∧
      ready.rs.goFull = none ∧ wGoEnd.rs.goFull = some ⟨2, 2, 0, [], false, false⟩ ∧ rgF (setRgF wGoEnd .rststat 0 7 0 1) .rststat 0 7 0 = 1 ∧
      ({ wGoEnd.rs with op := (6, 0) } : ResetSt).op = (6, 0)) := by
  refine ⟨?_, ?_, ?_, ?_, ?_, ?_, ?_, ?_⟩ <;> decide +kernel

/-! ### The invariant of the memories -/

theorem witness_MemoriesStayCanonical : MemoriesCanonical State.reset ∧ step State.reset = .next (tick State.reset) ∧ MemoriesCanonical wFlash ∧
    step (wFlash.setPending [.pwrgoodFall true]) = exec (.pwrgoodFall true) (wFlash.setPending []) := by
  refine ⟨by unfold MemoriesCanonical; decide +kernel, rfl, by unfold MemoriesCanonical; decide +kernel, rfl⟩

theorem witness_StepRunsFrontCommand : State.reset.pending = [] ∧ wakeKeepsTime State.reset = false ∧ State.reset.slew = 0 ∧
    (ready.setPending [.timeBaseLock]).pending = .timeBaseLock :: [] := by decide +kernel

/-! ### Ill-formed commands are refused -/

def okStop : StopId := ⟨12, 19⟩
def badF : Findings := { mem := .corrected 64 0 }
def badI : EngIn := { engIn with f := { l3 := .uncorrectable 0 16 } }
def badTinv : Tinv := ⟨.va, [true], [0], none, 0, false, false, 0, 0⟩
def badMsg : PkgMsg := ⟨0, 0, 0, ⟨13, 0⟩, okStop, 0, false, 0, 0, false, 0, 0, 0, 0⟩

theorem smoke_core : (Instr.ldB 0 ⟨0, 0, 0, 0⟩ {}).wf = true ∧ (Instr.ldB 0 ⟨0, 0, 0, 0⟩ { arr := .l1d 8 }).wf = false ∧
    (Instr.stQ 0 ⟨0, 0, 0, 0⟩ { arr := .l1i 4 }).wf = false ∧ (Instr.aadd 0 ⟨0, 0, 0, false, false, 0, 0⟩ { arr := .l2Tag 8 }).wf = false ∧
    (Instr.movb 0 ⟨0, 0, 0, 0, false, 0⟩ 0 1 {}).wf = true ∧ (Instr.movb 0 ⟨0, 0, 0, 0, false, 0⟩ 0 0 {}).wf = false ∧
    (Instr.agingEvaluation 0 [] 0).wf = false ∧ (Instr.agingEvaluation 0 (List.replicate 20 65536) 0).wf = false ∧
    (Instr.agingEvaluation 0 (List.replicate 20 0) 65536).wf = false ∧
    (Instr.cascadeBroadcast (some ⟨1, .tinv, 0, false, none⟩)).wf = false ∧ (Instr.cascadeBroadcast (some ⟨1, .tinv, 0, false, some badTinv⟩)).wf = false := by
  decide +kernel

theorem smoke_requests : (Instr.rds 0 0 ⟨false, 0, 0⟩ badF).wf = false ∧ (Instr.putm 0 0 (.l2 8)).wf = false ∧ (Instr.fwdS 0 0 (.l1d 8)).wf = false ∧
    (Instr.rdc ⟨12, 32⟩ 0 ⟨false, 0, 0⟩ {}).wf = false ∧ (Instr.rdc okStop 0 ⟨false, 0, 0⟩ { tagLost := some 16 }).wf = false ∧
    (Instr.rdRsp ⟨13, 0⟩ 0).wf = false ∧ (Instr.stopForward okStop okStop 4 .intact).wf = false ∧ (Instr.tokenGain ⟨12, 32⟩).wf = false ∧
    (Instr.palrathFlit 0 ⟨true, 0, 0, false, [badMsg]⟩).wf = false ∧ (Instr.ident ⟨0, 0, 2 ^ 32, 0, 0, 0, 0⟩).wf = false ∧
    (Instr.patrolScrubRead 0 (.corrected 0 16)).wf = false ∧ (Instr.inboundPcieRequest 0 0 (.read 0 0 0) {} noDev).wf = false ∧
    (Instr.inboundPcieRequest 0 0 (.read 0 0 4097) {} noDev).wf = false ∧ (Instr.inboundPcieRequest 0 0 (.write 0 0 [] false) {} noDev).wf = false ∧
    (Instr.frameReceived 0 (List.replicate 59 0) true engIn).wf = false ∧ (Instr.requesterTimeout ⟨13, 0⟩ 0).wf = false := by decide +kernel

theorem smoke_units : (Instr.copy 0 badI).wf = false ∧ (Instr.encrypt 0 0 ⟨0, none, true, [⟨0, [], [], false⟩]⟩ engIn).wf = false ∧
    (Instr.encrypt 0 0 ⟨0, none, true, [⟨0, [1], [], false⟩]⟩ engIn).wf = true ∧ (Instr.releaseSlot .mp 0 0 ⟨2, 1, 0, 0⟩).wf = false ∧
    (Instr.releaseSlot .mp 0 0 ⟨1, 4, 0, 0⟩).wf = false ∧ (Instr.dapMemRead false 0 0 badF noDev).wf = false ∧ (Instr.sensorRead [] []).wf = false ∧
    (Instr.mpBoot ⟨0, true, true, true, true⟩).wf = false ∧ (Instr.mpBoot ⟨0x4000001, true, true, true, true⟩).wf = false ∧
    (Instr.ihlDap 0 0 (.memRead false 0 0 badF noDev)).wf = false ∧ (Instr.bootImage 0 0 0 (List.replicate 129 0)).wf = false ∧
    (Instr.ihlInvalidFrame (List.replicate 143 0)).wf = false ∧ (Instr.bringupFloor [] []).wf = false ∧ (Instr.bringupTileInit []).wf = false ∧
    (Instr.bringupTileInit (List.replicate 24 { kind := 4 })).wf = false ∧ (Instr.bringupTileInit (List.replicate 24 { dimms := 3 })).wf = false ∧
    (Instr.bringupDieInit 0 0 [] 0).wf = false ∧ (Instr.cxlCompletionTimeout ⟨13, 0⟩ 0).wf = false := by decide +kernel

/-! ### Worked examples of the spec -/

/-- What a command's next state satisfies. -/
def after (i : Instr) (s : State) (p : State → Bool) : Bool :=
  match exec i s with
  | .next t => p t
  | _ => false

/-- Chapter 2, after R80: SCALL with immediate 0x2A at 0x401000. -/
theorem test_scall : after (.scall 0 ⟨0, 0x2A⟩) (core0 W2 (fun k => { k with pc := 0x401000 })) (fun t =>
    sysGet t 0 0x102 false == 0 && sysGet t 0 0x101 false == 0x401004 && sysGet t 0 0x103 false == 0x041C00000000002A && (getCore t 0).cstat == 0x31 &&
      (getCore t 0).pc == sysGet t 0 0x100 false) = true := by decide +kernel

/-- Chapter 2, after R68: BK6 and OFF18 0x4B2 at size D. -/
theorem test_bk6 : eaN (sysSet W2 0 0x016 false 0x0000004012345000) 0 ⟨0, 6, 0x4B2⟩ 8 = 0x0000004012347590 := by decide +kernel

/-- R92: division by 0, and the most negative number by -1. -/
theorem test_div : after (.div 0 ⟨3, 1, 2⟩) (dSet W0 0 1 77) (fun t => dGet t 0 3 == 0xFFFFFFFFFFFFFFFF) = true ∧
    after (.rem 0 ⟨3, 1, 2⟩) (dSet W0 0 1 77) (fun t => dGet t 0 3 == 77) = true ∧
    after (.div 0 ⟨3, 1, 2⟩) (dSet (dSet W0 0 1 0x8000000000000000) 0 2 0xFFFFFFFFFFFFFFFF) (fun t => dGet t 0 3 == 0x8000000000000000) = true := by
  decide +kernel

/-- Chapter 11, after R374: the line of 0x12_3456_7840 with 24 channels of 256 GiB and KEY 0x5A3C9622. -/
def wHash : State := { setRg ready .memhash 0 0x5A3C962218C40000 with
  hashChs := List.range 24
  hashHomes := List.range 12 }

theorem test_hash : memNC wHash = 24 ∧ memNH wHash = 12 ∧ memC wHash = 0x4000000000 ∧ homeLoc wHash 0x1234567840 = ⟨4, 6, 7749, 2629, 9, 0xC22E4540⟩ := by
  decide +kernel

/-- Chapter 21: the registers at four offsets. -/
theorem test_register_addresses : regFind (0xFFF1700100118 - 0xFFF0000000000) = some (.pmask, 7 * 16 + 3) ∧
    regFind (0xFFF201A300008 - 0xFFF0000000000) = some (.oestat, 1) ∧
    paKind ready 0xFFF1700100118 = .regWin 0 0x1700100118 ∧ paKind ready 0xFFA1700100118 = .regWin 2 0x1700100118 := by decide +kernel

/-- Chapter 20, the worked example: compute die 7 reports A1, optical engine 2 reports A0. -/
theorem test_bringup_floor : after (.bringupFloor ((List.range 29).map (fun d => if d = 20 then ⟨0x41, 1⟩ else if d = 27 then ⟨0x41, 0⟩ else dieRef d)) [])
    (wBoot 1 0) (fun t => t.features == 0x307 && stkState t 7 == 6 && bit (rg t .intsrc 235) 1 && stkState t 6 != 6) = true := by decide +kernel

/-- Chapter 1, after R25: stack 7's local cores 5 and then 11 retire; logical 131 is local core 18, then 137 is 19; then 2 fails, and 128 is vacant. -/
def wDie7 (failed : List Nat) : State :=
  let s := setStkState { wTiles 3 12 with regs := (setRgF (wTiles 3 12) .bustat 0 63 60 3).regs } 7 3
  { s with
    coreFuse := failed.map (fun u => (140 + u, true))
    rs := { s.rs with asg := (if failed.length = 0 then [] else [(131, 19)]) ++ (if failed.length < 2 then [] else [(137, 20)]) } }

theorem test_assignment : after (.bringupDieInit 7 (BitVec.ofNat 20 (2 ^ 5)) [] 0) (wDie7 []) (fun t => lcCore t 131 == 158) = true ∧
    after (.bringupDieInit 7 (BitVec.ofNat 20 (2 ^ 11)) [] 0) (wDie7 [5]) (fun t => lcCore t 131 == 158 && lcCore t 137 == 159) = true ∧
    after (.bringupDieInit 7 (BitVec.ofNat 20 (2 ^ 2)) [] 0) (wDie7 [5, 11]) (fun t => lcCore t 131 == 158 && lcCore t 137 == 159 &&
      !(bit (rg t .lcmap 128) 15)) = true := by decide +kernel

/-- Chapter 19, the worked example: with HEAD 1,231,006 the oldest record held is 1,198,239. -/
theorem test_ring : hlHeld { ready with hlog := { ready.hlog with head := 1231006 } } 1198239 = true ∧
    hlHeld { ready with hlog := { ready.hlog with head := 1231006 } } 1198238 = false := by decide +kernel

/-- Chapter 15, the worked example: HALT of a core in the secure world with POLICY 0b0011 stays pending. -/
theorem test_halt_pends : after (.dapHalt 0) { setRg W0 .lcmap 0 0x8000 with dbgPolicy := 3 } (fun t =>
    t.dapStatus == 0 && (getCore t 0).haltPend && !(getCore t 0).halted) = true := by decide +kernel
end Sys2Proof.Tests
end

section
/-! PROOFS. Where branches, jumps and long calls go, and what they link (R50, R54, R68, R93). -/
namespace Sys2Proof.Machine

open Sys2Proof

/-! ### Bodies whose word is allocated -/

/-- A word that is allocated runs its body (R65, R66). -/
theorem guardWord_of_ok {b : Bool} (h : b = true) (word : Nat) (body : State → Res × State) (s : State) :
    guardWord b word body s = body s := by
  simp [guardWord, h]

/-- An instruction whose fetch raises nothing acts by its body, whatever cause of its own comes before those of the fetch. -/
theorem runAfter_eq_runInstr {s : State} {c : Nat} (first : State → Option Exc) (body : State → Res × State) (h : Runs s c) :
    runAfter s c first body = runInstr s c body := by
  have hf := h.fetch
  unfold runInstr runAfter
  simp only [h.can, if_true]
  generalize fetchSide (rstDone s 5 c 2) c = x at hf ⊢
  obtain ⟨e, u⟩ := x
  simp only at hf
  subst hf
  rfl

/-- An instruction that changes only the PC, and counts events on the way. -/
theorem runInstr_counted {s v : State} {c : Nat} {body : State → Res × State} {pc : Word} (h : Runs s c)
    (hv : Counted c (fetched s c) v) (hb : body (fetched s c) = (.done pc, v)) :
    Retired c (fetched s c) (runInstr s c body) (dGet (fetched s c) c) (aGet (fetched s c) c) (qGet (fetched s c) c) (trunc c pc) := by
  obtain ⟨_, hcstat, hd, _, hq, hresv, _, hstepping⟩ := hv.fields
  have eD : dGet v c = dGet (fetched s c) c := funext (dGet_congr hd)
  have eA : aGet v c = aGet (fetched s c) c := funext hv.aGet
  have eQ : qGet v c = qGet (fetched s c) c := funext (qGet_congr hq)
  rw [runInstr_done h hb, ← eD, ← eA, ← eQ]
  exact complete_retired hv.only hcstat hresv (fun n w _ hn _ => hv.sys n w hn) h.ss (hstepping.trans h.free)

/-! ### Conditional branches -/

/-- A branch goes by its displacement when its condition holds of the tested register, and on to the following instruction when not. -/
theorem runInstr_bodyB {s : State} {c : Nat} {o : OpB} (h : Runs s c) (hrc : dOk c o.rc.toNat = true) (maj : Nat) (taken : Word → Bool) :
    Retired c (fetched s c) (runInstr s c (bodyB c o maj taken)) (dGet (fetched s c) c) (aGet (fetched s c) c) (qGet (fetched s c) c)
      (trunc c (if taken (dGet (fetched s c) c o.rc.toNat) then (getCore (fetched s c) c).pc + dispOf o.disp
        else nextPc (fetched s c) c)) :=
  runInstr_counted h ((countEvent_counted ..).trans (countFree_counted ..)) (guardWord_of_ok hrc ..)

theorem takenZ_iff (v : Word) : takenZ v = true ↔ v = 0 := by simp [takenZ]

theorem takenNZ_iff (v : Word) : takenNZ v = true ↔ v ≠ 0 := by simp [takenNZ]

/-- BZ branches when the tested register is 0 (R50, R68). -/
theorem exec_bz_retired {c : CoreId} {o : OpB} {s : State} (h : Runs s c) (hrc : dOk c o.rc.toNat = true) :
    ∃ t, exec (.bz c o) s = .next t ∧
      Retired c (fetched s c) t (dGet (fetched s c) c) (aGet (fetched s c) c) (qGet (fetched s c) c)
        (trunc c (if dGet (fetched s c) c o.rc.toNat = 0 then (getCore (fetched s c) c).pc + dispOf o.disp
          else nextPc (fetched s c) c)) := by
  refine ⟨_, rfl, ?_⟩
  simpa only [takenZ_iff] using runInstr_bodyB h hrc 0x34 takenZ

/-- BNZ branches when the tested register is not 0 (R50, R68). -/
theorem exec_bnz_retired {c : CoreId} {o : OpB} {s : State} (h : Runs s c) (hrc : dOk c o.rc.toNat = true) :
    ∃ t, exec (.bnz c o) s = .next t ∧
      Retired c (fetched s c) t (dGet (fetched s c) c) (aGet (fetched s c) c) (qGet (fetched s c) c)
        (trunc c (if dGet (fetched s c) c o.rc.toNat ≠ 0 then (getCore (fetched s c) c).pc + dispOf o.disp
          else nextPc (fetched s c) c)) := by
  refine ⟨_, rfl, ?_⟩
  simpa only [takenNZ_iff] using runInstr_bodyB h hrc 0x35 takenNZ

/-! ### Jump and long call -/

/-- J always goes by its displacement (R68). -/
theorem exec_j_retired {c : CoreId} {s : State} (d : BitVec 26) (h : Runs s c) :
    ∃ t, exec (.j c d) s = .next t ∧
      Retired c (fetched s c) t (dGet (fetched s c) c) (aGet (fetched s c) c) (qGet (fetched s c) c)
        (trunc c ((getCore (fetched s c) c).pc + dispOf d)) :=
  ⟨_, rfl, runInstr_pc h rfl⟩

/-- JL goes by its displacement and links in the core's link register (R54, R68). -/
theorem exec_jl_retired {c : CoreId} {s : State} (d : BitVec 26) (h : Runs s c) :
    ∃ t, exec (.jl c d) s = .next t ∧
      Retired c (fetched s c) t (dGet (fetched s c) c) (regUpd (aGet (fetched s c) c) (linkIdx c) (trunc c (nextPc (fetched s c) c)))
        (qGet (fetched s c) c) (trunc c ((getCore (fetched s c) c).pc + dispOf d)) :=
  ⟨_, rfl, runInstr_aSet h rfl⟩

/-! ### Register jumps -/

/-- The two low bits that R93 tests of a target are its remainder by 4. -/
theorem fld_low_two (v : Word) : fld v 1 0 = v.toNat % 4 := by simp [fld]

/-- The word of JR or JRL is allocated when its A registers exist and its unused fields are 0 (R65). -/
theorem okJump_of {c : Nat} {o : OpT} {link : Bool} (hrd : (if link then aOk c o.rd.toNat else o.rd == 0) = true)
    (hrs1 : aOk c o.rs1.toNat = true) (hrs2 : o.rs2 = 0) : okJump c o link = true := by
  simp only [okJump, hrd, hrs1, hrs2, beq_self_eq_true, Bool.and_self]

theorem bodyJr_aligned {c : Nat} {o : OpT} {s : State} (hok : okJump c o false = true) (h4 : (aGet s c o.rs1.toNat).toNat % 4 = 0) :
    bodyJr c o s = (.done (aGet s c o.rs1.toNat), s) := by
  unfold bodyJr
  rw [guardWord_of_ok hok]
  simp [fld_low_two, h4]

theorem bodyJrl_aligned {c : Nat} {o : OpT} {s : State} (hok : okJump c o true = true) (h4 : (aGet s c o.rs1.toNat).toNat % 4 = 0) :
    bodyJrl c o s = (.done (aGet s c o.rs1.toNat), aSet s c o.rd.toNat (nextPc s c)) := by
  unfold bodyJrl
  rw [guardWord_of_ok hok]
  simp [fld_low_two, h4]

/-- JR to an aligned address. -/
theorem exec_jr_retired {c : CoreId} {o : OpT} {s : State} (h : Runs s c) (hok : okJump c o false = true)
    (h4 : (aGet (fetched s c) c o.rs1.toNat).toNat % 4 = 0) :
    ∃ t, exec (.jr c o) s = .next t ∧
      Retired c (fetched s c) t (dGet (fetched s c) c) (aGet (fetched s c) c) (qGet (fetched s c) c)
        (trunc c (aGet (fetched s c) c o.rs1.toNat)) := by
  refine ⟨_, rfl, ?_⟩
  rw [runAfter_eq_runInstr _ _ h]
  exact runInstr_pc h (bodyJr_aligned hok h4)

/-- JRL to an aligned address: the target is what the A register held before the link was written. -/
theorem exec_jrl_retired {c : CoreId} {o : OpT} {s : State} (h : Runs s c) (hok : okJump c o true = true)
    (h4 : (aGet (fetched s c) c o.rs1.toNat).toNat % 4 = 0) :
    ∃ t, exec (.jrl c o) s = .next t ∧
      Retired c (fetched s c) t (dGet (fetched s c) c) (regUpd (aGet (fetched s c) c) o.rd.toNat (trunc c (nextPc (fetched s c) c)))
        (qGet (fetched s c) c) (trunc c (aGet (fetched s c) c o.rs1.toNat)) := by
  refine ⟨_, rfl, ?_⟩
  rw [runAfter_eq_runInstr _ _ h]
  exact runInstr_aSet h (bodyJrl_aligned hok h4)

/-! ### The statement -/

/-- Settles O5, instruction by instruction: BZ and BNZ, J and JL, JR and JRL. -/
theorem jumpAndBranchTargets : Obligations.JumpAndBranchTargets := by
  intro c s h u pc
  refine ⟨fun o hrc p hp => ?_, fun d => ⟨exec_j_retired d h, exec_jl_retired d h⟩, fun o hrs1 hrs2 h4 => ⟨fun hrd => ?_, fun hrd => ?_⟩⟩
  · simp only [List.mem_cons, List.not_mem_nil, or_false] at hp
    obtain rfl | rfl := hp
    · simp only [decide_eq_true_eq]
      exact exec_bz_retired h hrc
    · simp only [decide_eq_false_iff_not]
      exact exec_bnz_retired h hrc
  · exact exec_jr_retired h (okJump_of (by simp [hrd]) hrs1 hrs2) h4
  · exact exec_jrl_retired h (okJump_of (by simp [hrd]) hrs1 hrs2) h4

end Sys2Proof.Machine
end

section
/-! PROOFS. The results of the integer operations of two sources (R49, R91, R92, R135). -/
namespace Sys2Proof.Machine

open Sys2Proof

/-! ### The operations of the model at a width w -/

theorem opRor_eq (w : Nat) (x y : BitVec w) : opRor w x y = (x >>> (y.toNat % w)) ||| (x <<< (w - y.toNat % w)) := by
  rw [opRor, BitVec.rotateRight_def, Nat.mod_mod]

theorem opMin_eq (w : Nat) (x y : BitVec w) : opMin w x y = if x.toInt ≤ y.toInt then x else y := by
  simp only [opMin, BitVec.slt_iff_toInt_lt, ← not_le, ite_not]

theorem opMax_eq (w : Nat) (x y : BitVec w) : opMax w x y = if x.toInt ≤ y.toInt then y else x := by
  unfold opMax
  simp only [BitVec.slt_iff_toInt_lt]
  rcases lt_trichotomy x.toInt y.toInt with h | h | h
  · simp [h, h.le]
  · simp [BitVec.eq_of_toInt_eq h]
  · simp [h.not_gt, h.not_ge]

theorem opMinu_eq (w : Nat) (x y : BitVec w) : opMinu w x y = if x.toNat ≤ y.toNat then x else y := by
  simp only [opMinu, BitVec.ult_iff_toNat_lt, ← not_le, ite_not]

theorem opMaxu_eq (w : Nat) (x y : BitVec w) : opMaxu w x y = if x.toNat ≤ y.toNat then y else x := by
  unfold opMaxu
  simp only [BitVec.ult_iff_toNat_lt]
  rcases lt_trichotomy x.toNat y.toNat with h | h | h
  · simp [h, h.le]
  · simp [BitVec.eq_of_toNat_eq h]
  · simp [h.not_gt, h.not_ge]

theorem opMul_eq (w : Nat) (x y : BitVec w) : opMul w x y = BitVec.ofNat w (x.toNat * y.toNat) := by
  simp [opMul, BitVec.ofNat_mul]

/-- The bits of a two's complement number from bit n on are its quotient by 2^n, rounded down. -/
theorem extractLsb'_ofInt (n w : Nat) (z : Int) : (BitVec.ofInt (n + w) z).extractLsb' n w = BitVec.ofInt w (z / 2 ^ n) := by
  have hn : (2 ^ n : Int) ≠ 0 := by positivity
  have hr : ((z % 2 ^ (n + w)).toNat : Int) = z % 2 ^ (n + w) := Int.toNat_of_nonneg (Int.emod_nonneg _ (by positivity))
  have hz : z / 2 ^ n = z % 2 ^ (n + w) / 2 ^ n + 2 ^ w * (z / 2 ^ (n + w)) := by
    conv_lhs => rw [← Int.emod_add_mul_ediv z (2 ^ (n + w)), pow_add, mul_assoc, Int.add_mul_ediv_left _ _ hn]
    rw [pow_add]
  calc (BitVec.ofInt (n + w) z).extractLsb' n w
      = BitVec.ofNat w ((z % 2 ^ (n + w)).toNat / 2 ^ n) := by
        rw [BitVec.extractLsb', BitVec.toNat_ofInt, Nat.shiftRight_eq_div_pow]; norm_cast
    _ = BitVec.ofInt w (z % 2 ^ (n + w) / 2 ^ n) := by rw [← BitVec.ofInt_natCast]; push_cast; rw [hr]
    _ = BitVec.ofInt w (z / 2 ^ n) := by
        apply BitVec.eq_of_toNat_eq
        rw [BitVec.toNat_ofInt, BitVec.toNat_ofInt, hz, Nat.cast_pow, Nat.cast_ofNat, Int.add_mul_emod_self_left]

theorem opMulh_eq (w : Nat) (x y : BitVec w) : opMulh w x y = BitVec.ofInt w ((x.toInt * y.toInt) / 2 ^ w) := by
  rw [← extractLsb'_ofInt, ← two_mul, BitVec.ofInt_mul]
  rfl

theorem opMulhu_eq (w : Nat) (x y : BitVec w) : opMulhu w x y = BitVec.ofNat w ((x.toNat * y.toNat) / 2 ^ w) := by
  have hp : x.toNat * y.toNat < 2 ^ (2 * w) := by
    rw [two_mul, pow_add]
    exact Nat.mul_lt_mul'' x.isLt y.isLt
  apply BitVec.eq_of_toNat_eq
  rw [opMulhu, BitVec.extractLsb'_toNat, BitVec.toNat_mul, BitVec.toNat_setWidth_of_le (by omega), BitVec.toNat_setWidth_of_le (by omega),
    Nat.mod_eq_of_lt hp, Nat.shiftRight_eq_div_pow, BitVec.toNat_ofNat]

/-- The quotient of the smallest number by -1 does not fit, and wraps to itself (R92). -/
theorem opDiv_eq (w : Nat) (x y : BitVec w) :
    opDiv w x y = if y = 0 then BitVec.allOnes w else BitVec.ofInt w (x.toInt.tdiv y.toInt) := by
  have hq : x.sdiv y = BitVec.ofInt w (x.toInt.tdiv y.toInt) :=
    BitVec.eq_of_toInt_eq (by rw [BitVec.toInt_sdiv, BitVec.toInt_ofInt])
  rw [opDiv, hq]

theorem opDivu_eq (w : Nat) (x y : BitVec w) :
    opDivu w x y = if y = 0 then BitVec.allOnes w else BitVec.ofNat w (x.toNat / y.toNat) := by
  rw [opDivu, BitVec.udiv_def]

theorem opRem_eq (w : Nat) (x y : BitVec w) : opRem w x y = if y = 0 then x else BitVec.ofInt w (x.toInt.tmod y.toInt) := by
  rw [opRem, ← BitVec.toInt_srem, BitVec.ofInt_toInt]

theorem opRemu_eq (w : Nat) (x y : BitVec w) : opRemu w x y = if y = 0 then x else BitVec.ofNat w (x.toNat % y.toNat) := by
  rw [opRemu, BitVec.umod_def]

theorem relEq_eq (w : Nat) (x y : BitVec w) : relEq w x y = if x = y then 1 else 0 := by
  simp [relEq, cmpVal]

theorem relNe_eq (w : Nat) (x y : BitVec w) : relNe w x y = if x = y then 0 else 1 := by
  simp [relNe, cmpVal]

theorem relLt_eq (w : Nat) (x y : BitVec w) : relLt w x y = if x.toInt < y.toInt then 1 else 0 := by
  simp [relLt, cmpVal, BitVec.slt_iff_toInt_lt]

theorem relLtu_eq (w : Nat) (x y : BitVec w) : relLtu w x y = if x.toNat < y.toNat then 1 else 0 := by
  simp [relLtu, cmpVal, BitVec.ult_iff_toNat_lt]

theorem relGe_eq (w : Nat) (x y : BitVec w) : relGe w x y = if y.toInt ≤ x.toInt then 1 else 0 := by
  simp [relGe, cmpVal, ← BitVec.sle_eq_not_slt, BitVec.sle_iff_toInt_le]

theorem relGeu_eq (w : Nat) (x y : BitVec w) : relGeu w x y = if y.toNat ≤ x.toNat then 1 else 0 := by
  simp [relGeu, cmpVal, ← BitVec.ule_eq_not_ult, BitVec.ule_iff_toNat_le]

/-! ### The instructions -/

/-- A T-format instruction of two D sources writes the result of its operation, at the core's width, and nothing else (R64, R91, R135).
The operation may be given by any function g that agrees with the one the instruction uses. -/
theorem exec_bodyT_retired {c : CoreId} {o : OpT} {s : State} {i : Instr} {maj fn : Nat} {f g : (w : Nat) → BitVec w → BitVec w → BitVec w}
    (h : Runs s c) (hrd : dOk c o.rd.toNat = true) (hrs1 : dOk c o.rs1.toNat = true) (hrs2 : dOk c o.rs2.toNat = true)
    (hi : exec i s = .next (runInstr s c (bodyT c o maj fn f))) (hfg : ∀ w x y, f w x y = g w x y) :
    ∃ t, exec i s = .next t ∧
      Retired c (fetched s c) t
        (dUpd (dGet (fetched s c) c) o.rd.toNat (atWidth c g (dGet (fetched s c) c o.rs1.toNat) (dGet (fetched s c) c o.rs2.toNat)))
        (aGet (fetched s c) c) (qGet (fetched s c) c) (pcNext s c) := by
  obtain rfl : f = g := funext fun w => funext fun x => funext (hfg w x)
  refine ⟨_, hi, ?_⟩
  rw [← atWidth_trunc]
  exact runInstr_dSet h (guardWord_of_ok (by simp only [hrd, hrs1, hrs2, Bool.and_self]) ..)

/-- Settles O1: each operation of the model is the one the statement gives, at every width. -/
theorem twoSourceIntegerResults : Obligations.TwoSourceIntegerResults := by
  intro c o s h hrd hrs1 hrs2 u a b p hp
  have run {i : Instr} {maj fn : Nat} {f g : (w : Nat) → BitVec w → BitVec w → BitVec w} :=
    exec_bodyT_retired (i := i) (maj := maj) (fn := fn) (f := f) (g := g) h hrd hrs1 hrs2
  simp only [List.mem_cons, List.not_mem_nil, or_false] at hp
  obtain rfl | rfl | rfl | rfl | rfl | rfl | rfl | rfl | rfl | rfl | rfl | rfl | rfl | rfl | rfl | rfl | rfl | rfl | rfl | rfl | rfl |
    rfl | rfl | rfl | rfl | rfl | rfl := hp
  · exact run rfl fun _ _ _ => rfl
  · exact run rfl fun _ _ _ => rfl
  · exact run rfl fun _ _ _ => rfl
  · exact run rfl fun _ _ _ => rfl
  · exact run rfl fun _ _ _ => rfl
  · exact run rfl fun _ _ _ => rfl
  · exact run rfl fun _ _ _ => rfl
  · exact run rfl fun _ _ _ => rfl
  · exact run rfl fun _ _ _ => rfl
  · exact run rfl opRor_eq
  · exact run rfl opMin_eq
  · exact run rfl opMax_eq
  · exact run rfl opMinu_eq
  · exact run rfl opMaxu_eq
  · exact run rfl opMul_eq
  · exact run rfl opMulh_eq
  · exact run rfl opMulhu_eq
  · exact run rfl opDiv_eq
  · exact run rfl opDivu_eq
  · exact run rfl opRem_eq
  · exact run rfl opRemu_eq
  · exact run rfl relEq_eq
  · exact run rfl relNe_eq
  · exact run rfl relLt_eq
  · exact run rfl relLtu_eq
  · exact run rfl relGe_eq
  · exact run rfl relGeu_eq

end Sys2Proof.Machine
end

section
/-! PROOFS. What raises UNDEF, PC_ALIGN and SYSREG_DENY, and where the exception is taken (R65, R66, R80, R81, R93, R126, R131 to R133). -/
namespace Sys2Proof.Machine

open Sys2Proof

/-! ### Raising an exception -/

/-- A single-step of R513 under way is left as it is by the entry of an exception. -/
theorem takeExcAt_stepping (s : State) (c : Nat) (e : Exc) (epc esyn : Word) :
    (getCore (takeExcAt s c e epc esyn) c).stepping = (getCore s c).stepping := by
  obtain ⟨_, _, _, _, _, _, _, hstepping⟩ := (countEvent_counted s c 0x012).fields
  rw [← hstepping]
  unfold takeExcAt
  dsimp only
  split <;> split <;> split <;> simp only [dropPredictors, dropResv, core_setCore_same, sysSet_core]

/-- An exception gives up the answers to device reads that its instruction had got; its entry is as without them. -/
theorem Entered.of_dropped {c : Nat} {s t : State} {lvl : Nat} {epc esyn eaddr : Word} {off : Nat}
    (h : Entered c (setCore s c { getCore s c with devGot := [] }) t lvl epc esyn eaddr off) : Entered c s t lvl epc esyn eaddr off := by
  have hs : ∀ n w, sysGet (setCore s c { getCore s c with devGot := [] }) c n w = sysGet s c n w := sysGet_congr (by simp)
  have hd : ∀ r, dGet (setCore s c { getCore s c with devGot := [] }) c r = dGet s c r := dGet_congr (by simp)
  have ha : ∀ r, aGet (setCore s c { getCore s c with devGot := [] }) c r = aGet s c r := aGet_congr (by simp) (by simp) (by simp) (by simp)
  have hq : ∀ r, qGet (setCore s c { getCore s c with devGot := [] }) c r = qGet s c r := qGet_congr (by simp)
  have he : ∀ n w, sysEff (setCore s c { getCore s c with devGot := [] }) c n w = sysEff s c n w :=
    fun n w => sysEff_congr (by simp) (hs n w)
  obtain ⟨pc, level, masks, window, world, kept, epcReg, estatReg, esynReg, eaddrReg, d, a, q, sys, rest⟩ := h
  simp only [core_setCore_same, secOf, he, hs, hd, ha, hq] at *
  exact ⟨pc, level, masks, window, world, kept, epcReg, estatReg, esynReg, eaddrReg, d, a, q, sys, (CoreOnly.setCore ..).trans rest⟩

/-- The oldest instruction of a core raises an exception for a level from 1 to 3: the core enters that level, and nothing else happens
(R69 to R71, R79). -/
theorem raise_entered {s : State} {c lvl : Nat} {e : Exc} (hstep : (getCore s c).stepping = false)
    (hl : excTarget (getCore s c) e.tgt = lvl) (h1 : 1 ≤ lvl) (h3 : lvl ≤ 3) :
    Entered c s (raise s c e) lvl (if e.next then (getCore s c).pc + 4 else (getCore s c).pc) (esynOf e) e.eaddr
      (vecOff e.cls e.deferred (lvl == plOf (getCore s c))) := by
  have hraise : raise s c e = takeExc (setCore s c { getCore s c with devGot := [] }) c e := by
    unfold raise stepHalt takeExc
    simp [takeExcAt_stepping, hstep]
  have hentered := takeExcAt_entered (setCore s c { getCore s c with devGot := [] }) c e
    (if e.next then (getCore s c).pc + 4 else (getCore s c).pc) (esynOf e) lvl (by rw [core_setCore_same]; exact hl) h1 h3
  rw [core_setCore_same] at hentered
  rw [hraise, takeExc, core_setCore_same]
  exact hentered.of_dropped

/-! ### Exceptions of the local target -/

theorem localTgt_eq_max (k : Core) : localTgt k = max 1 (plOf k) := by
  unfold localTgt
  split <;> omega

/-- The vector of an exception of the local target is that of the same level, except from PL0 (R70). -/
theorem vecOff_local {cls : Nat} (hcls : cls < 0x04 ∨ 0x06 < cls) (hirq : cls ≠ 0x40) (pl : Nat) :
    vecOff cls false (max 1 pl == pl) = if pl = 0 then 0x200 else 0x100 := by
  have hcall : ¬(cls = 0x04 ∨ cls = 0x05 ∨ cls = 0x06) := by omega
  rw [vecOff, if_neg hcall, if_neg hirq]
  rcases Nat.eq_zero_or_pos pl with rfl | hpl
  · rfl
  · simp [hpl.ne', Nat.max_eq_right hpl]

/-- The syndrome of an exception that R79 gives neither stage, direction, deferral nor table level. -/
theorem esynOf_plain {cls detail : Nat} (tgt : ExcTgt) (eaddr : Word) (hd : detail < 2 ^ 32) :
    esynOf { cls := cls, tgt := tgt, detail := detail, eaddr := eaddr } =
      BitVec.ofNat 64 (cls * 2 ^ 56 + 0x001C000000000000 + detail) := by
  rw [esynOf, Nat.mod_eq_of_lt hd]
  simp

/-- An instruction that raises an exception of the local target. -/
theorem runInstr_local_entered {s : State} {c cls detail : Nat} {eaddr : Word} {body : State → Res × State} (h : Runs s c)
    (hb : body (fetched s c) = (.exc { cls := cls, detail := detail, eaddr := eaddr }, fetched s c))
    (hcls : cls < 0x04 ∨ 0x06 < cls) (hirq : cls ≠ 0x40) (hd : detail < 2 ^ 32) :
    Entered c (fetched s c) (runInstr s c body) (max 1 (plOf (getCore (fetched s c) c))) (getCore (fetched s c) c).pc
      (BitVec.ofNat 64 (cls * 2 ^ 56 + 0x001C000000000000 + detail)) eaddr
      (if plOf (getCore (fetched s c) c) = 0 then 0x200 else 0x100) := by
  rw [runInstr_exc h hb, ← esynOf_plain .local_ eaddr hd, ← vecOff_local hcls hirq]
  have := plOf_lt (getCore (fetched s c) c)
  exact raise_entered h.free (localTgt_eq_max _) (by omega) (by omega)

/-! ### UNDEF -/

/-- An instruction that raises UNDEF with its word (R65, R79). -/
theorem exec_undef_entered {c : CoreId} {s : State} {i : Instr} {body : State → Res × State} {word : Nat} (h : Runs s c)
    (hi : exec i s = .next (runInstr s c body)) (hb : body (fetched s c) = (.exc (undef word), fetched s c)) (hw : word < 2 ^ 32) :
    ∃ t, exec i s = .next t ∧
      Entered c (fetched s c) t (max 1 (plOf (getCore (fetched s c) c))) (getCore (fetched s c) c).pc
        (BitVec.ofNat 64 (0x011C000000000000 + word)) 0 (if plOf (getCore (fetched s c) c) = 0 then 0x200 else 0x100) :=
  ⟨_, hi, runInstr_local_entered h hb (by decide) (by decide) hw⟩

/-- A word that is not allocated raises UNDEF (R65, R66). -/
theorem guardWord_undef {b : Bool} (hb : b = false) (word : Nat) (body : State → Res × State) (s : State) :
    guardWord b word body s = (.exc (undef word), s) := by
  simp [guardWord, hb]

theorem bodyEret_undef {c : Nat} {o : OpS} {s : State} (hpl : plOf (getCore s c) = 0) :
    bodyEret c o s = (.exc (undef (wordS o 0x013)), s) := by simp [bodyEret, hpl]

theorem bodyWait_undef {c : Nat} {o : OpS} {s : State} (hpl : plOf (getCore s c) = 0) :
    bodyWait c o s = (.exc (undef (wordS o 0x060)), s) := by simp [bodyWait, hpl]

theorem bodyTinv_undef {c sf : Nat} {o : OpS} {kind : TinvKind} {s : State} (hpl : plOf (getCore s c) = 0) :
    bodyTinv c o sf kind s = (.exc (undef (wordS o sf)), s) := by simp [bodyTinv, hpl]

theorem bodyUacc_undef {c sf : Nat} {o : OpS} {on : Bool} {s : State} (hpl : plOf (getCore s c) ≠ 1) :
    bodyUacc c o sf on s = (.exc (undef (wordS o sf)), s) := by simp [bodyUacc, hpl]

/-- A call outside the levels lo to hi. -/
theorem bodyCall_undef {c sf cls t lo hi : Nat} {o : OpS} {s : State} (hpl : plOf (getCore s c) < lo ∨ hi < plOf (getCore s c)) :
    bodyCall c o sf cls t lo hi s = (.exc (undef (wordS o sf)), s) := if_pos (.inr (or_assoc.mp (.inl hpl)))

theorem outside_of_zero_or_three {pl : Nat} (h : (pl == 0 || pl == 3) = true) : pl < 1 ∨ 2 < pl := by
  simp only [Bool.or_eq_true, beq_iff_eq] at h
  omega

/-- The management processor has no D16 to D31 (R88). -/
theorem dOk_mp {c r : Nat} (hc : c = 240) (hr : 16 ≤ r) : dOk c r = false := by
  simp [dOk, hc, mpCore, hr]

/-- An operation of two sources that names a D register the core does not have. -/
theorem bodyT_undef {c maj fn : Nat} {o : OpT} {f : (w : Nat) → BitVec w → BitVec w → BitVec w} {s : State}
    (hd : dOk c o.rd.toNat = false ∨ dOk c o.rs1.toNat = false ∨ dOk c o.rs2.toNat = false) :
    bodyT c o maj fn f s = (.exc (undef (wordT maj o.rd.toNat o.rs1.toNat o.rs2.toNat fn)), s) :=
  guardWord_undef (by rcases hd with hd | hd | hd <;> simp [hd]) ..

/-! ### PC_ALIGN -/

theorem bodyJr_misaligned {c : Nat} {o : OpT} {s : State} (hok : okJump c o false = true) (h4 : (aGet s c o.rs1.toNat).toNat % 4 ≠ 0) :
    bodyJr c o s = (.exc (pcAlign (aGet s c o.rs1.toNat)), s) := by
  unfold bodyJr
  rw [guardWord_of_ok hok]
  simp [fld_low_two, h4]

theorem bodyJrl_misaligned {c : Nat} {o : OpT} {s : State} (hok : okJump c o true = true) (h4 : (aGet s c o.rs1.toNat).toNat % 4 ≠ 0) :
    bodyJrl c o s = (.exc (pcAlign (aGet s c o.rs1.toNat)), s) := by
  unfold bodyJrl
  rw [guardWord_of_ok hok]
  simp [fld_low_two, h4]

/-- A register jump that raises PC_ALIGN (R80, R93). -/
theorem runAfter_pcAlign_entered {c : CoreId} {s : State} {first : State → Option Exc} {body : State → Res × State} {a : Word}
    (h : Runs s c) (hb : body (fetched s c) = (.exc (pcAlign a), fetched s c)) :
    Entered c (fetched s c) (runAfter s c first body) (max 1 (plOf (getCore (fetched s c) c))) (getCore (fetched s c) c).pc
      0x091C000000000000 a (if plOf (getCore (fetched s c) c) = 0 then 0x200 else 0x100) := by
  rw [runAfter_eq_runInstr _ _ h]
  exact runInstr_local_entered h hb (by decide) (by decide) (by decide)

/-! ### SYSREG_DENY -/

/-- The first six registers of a level's exception block are read and written at that level and above (R81, R87). -/
theorem sysInfoOf_level {c lvl k : Nat} (hc : c ≠ 240) (h1 : 1 ≤ lvl) (h3 : lvl ≤ 3) (hk : k ≤ 5) :
    ∃ i, sysInfoOf c (lvl * 0x100 + k) = some i ∧ i.rd = some lvl ∧ i.wr = some lvl := by
  rw [sysInfoOf, mpCore, if_neg hc]
  interval_cases lvl <;> interval_cases k <;> exact ⟨_, rfl, rfl, rfl⟩

/-- The exception of a denied access, for the level that lies above the core's (R80, R81). -/
def sysDeny (lvl rt n : Nat) (wr : Bool) : Exc := { cls := 0x02, tgt := .pl lvl, detail := sysDetail rt n wr }

theorem sysCheck_denied {s : State} {c lvl k n rt word : Nat} {wr : Bool} (hc : c ≠ 240) (h3 : lvl ≤ 3) (hk : k ≤ 5)
    (hpl : plOf (getCore s c) < lvl) (hn : n = lvl * 0x100 + k) : sysCheck s c rt n wr word = some (sysDeny lvl rt n wr) := by
  subst hn
  obtain ⟨i, hi, hrd, hwr⟩ := sysInfoOf_level hc (by omega) h3 hk
  have huser : isUserCnt (lvl * 0x100 + k) = false := by
    simp [isUserCnt]
    omega
  have htgt : max (localTgt (getCore s c)) lvl = lvl := by
    rw [localTgt_eq_max]
    omega
  unfold sysCheck
  simp only [hi, hrd, hwr, huser, Bool.false_and, Bool.false_eq_true, if_false, ite_self, hpl, if_true, htgt, sysDeny]

theorem sysDetail_read (rt n : Nat) : sysDetail rt n false = rt * 0x2000 + n := by simp [sysDetail]

theorem sysDetail_write (rt n : Nat) : sysDetail rt n true = rt * 0x2000 + 0x1000 + n := by simp [sysDetail]

theorem bodySysrd_denied {c : Nat} {o : OpS} {s : State} {e : Exc} (hok : okS c o true true = true)
    (hcheck : sysCheck s c o.rt.toNat o.sys.toNat false (wordS o 0x001) = some e) : bodySysrd c o s = (.exc e, s) := by
  rw [bodySysrd, guardWord_of_ok hok, hcheck]

theorem bodySyswr_denied {c : Nat} {o : OpS} {s : State} {e : Exc} (hok : okS c o true true = true)
    (hcheck : sysCheck s c o.rt.toNat o.sys.toNat true (wordS o 0x002) = some e) : bodySyswr c o s = (.exc e, s) := by
  rw [bodySyswr, guardWord_of_ok hok, hcheck]

/-- An access that is denied enters the register's level with the access in ESYN.DETAIL (R80, R81). -/
theorem exec_sysDeny_entered {c : CoreId} {s : State} {i : Instr} {body : State → Res × State} {lvl n : Nat} {rt : BitVec 5} {wr : Bool}
    (h : Runs s c) (hi : exec i s = .next (runInstr s c body)) (hb : body (fetched s c) = (.exc (sysDeny lvl rt.toNat n wr), fetched s c))
    (hpl : plOf (getCore (fetched s c) c) < lvl) (h3 : lvl ≤ 3) (hn : n < 0x1000) :
    ∃ t, exec i s = .next t ∧ Entered c (fetched s c) t lvl (getCore (fetched s c) c).pc
      (BitVec.ofNat 64 (0x021C000000000000 + sysDetail rt.toNat n wr)) 0 0x200 := by
  refine ⟨_, hi, ?_⟩
  have hdetail : sysDetail rt.toNat n wr < 2 ^ 32 := by
    have := rt.isLt
    have := Bool.toNat_le wr
    unfold sysDetail
    omega
  have hesyn : esynOf (sysDeny lvl rt.toNat n wr) = BitVec.ofNat 64 (0x021C000000000000 + sysDetail rt.toNat n wr) :=
    esynOf_plain (.pl lvl) 0 hdetail
  have hvec : vecOff 0x02 false (lvl == plOf (getCore (fetched s c) c)) = 0x200 := by
    rw [beq_false_of_ne hpl.ne']
    rfl
  rw [runInstr_exc h hb, ← hesyn, ← hvec]
  exact raise_entered h.free (max_eq_left hpl.le) (by omega) h3

/-! ### The statement -/

/-- Settles O7, cause by cause: the words with no meaning at the core's level, the misaligned register jumps, the denied accesses. -/
theorem undefAlignmentAndDenials : Obligations.UndefAlignmentAndDenials := by
  refine ⟨?_, ?_, ?_⟩
  · intro c s h u pl p hp hpl
    have undef {i : Instr} {body : State → Res × State} {word : Nat} :=
      exec_undef_entered (i := i) (body := body) (word := word) h
    simp only [List.mem_cons, List.not_mem_nil, or_false] at hp
    obtain rfl | rfl | rfl | rfl | rfl | rfl | rfl | rfl | rfl | rfl | rfl | rfl := hp
    · exact undef rfl (bodyEret_undef (beq_iff_eq.mp hpl)) (by norm_num)
    · exact undef rfl (bodyWait_undef (beq_iff_eq.mp hpl)) (by norm_num)
    · exact undef rfl (bodyTinv_undef (beq_iff_eq.mp hpl)) (by norm_num)
    · exact undef rfl (bodyUacc_undef (bne_iff_ne.mp hpl)) (by norm_num)
    · exact undef rfl (bodyUacc_undef (bne_iff_ne.mp hpl)) (by norm_num)
    · exact undef rfl (bodyCall_undef (.inr (of_decide_eq_true hpl))) (by norm_num)
    · exact undef rfl (bodyCall_undef (outside_of_zero_or_three hpl)) (by norm_num)
    · exact undef rfl (bodyCall_undef (outside_of_zero_or_three hpl)) (by norm_num)
    · exact undef rfl (bodyT_undef (.inl (dOk_mp (beq_iff_eq.mp hpl) (by decide)))) (by norm_num)
    · exact undef rfl (bodyT_undef (.inr (.inl (dOk_mp (beq_iff_eq.mp hpl) (by decide))))) (by norm_num)
    · exact undef rfl (bodyT_undef (.inr (.inr (dOk_mp (beq_iff_eq.mp hpl) (by decide))))) (by norm_num)
    · exact undef rfl (bodyT_undef (.inl (dOk_mp (beq_iff_eq.mp hpl) (by decide)))) (by norm_num)
  · intro c o s h hrs1 hrs2 u pl a h4
    refine ⟨fun hrd => ⟨_, rfl, ?_⟩, fun hrd => ⟨_, rfl, ?_⟩⟩
    · exact runAfter_pcAlign_entered h (bodyJr_misaligned (okJump_of (by simp [hrd]) hrs1 hrs2) h4)
    · exact runAfter_pcAlign_entered h (bodyJrl_misaligned (okJump_of hrd hrs1 hrs2) h4)
  · intro c o s lvl k h hc h3 hk u hpl hsys
    have hok : okS c o true true = true := by simp [okS, dOk, mpCore, hc]
    rw [← sysDetail_read, ← sysDetail_write]
    have hn : o.sys.toNat < 0x1000 := o.sys.isLt
    exact ⟨exec_sysDeny_entered h rfl (bodySysrd_denied hok (sysCheck_denied hc h3 hk hpl hsys)) hpl h3 hn,
      exec_sysDeny_entered h rfl (bodySyswr_denied hok (sysCheck_denied hc h3 hk hpl hsys)) hpl h3 hn⟩

end Sys2Proof.Machine
end

section
/-! PROOFS. The results of the accumulator instructions (R55 to R57, R109 to R111). -/
namespace Sys2Proof.Machine

open Sys2Proof

/-! ### Q registers -/

/-- A write of a Q register, and nothing else, read back. -/
theorem qGet_qSet (s : State) (c r : Nat) (v : QWord) : qGet (qSet s c r v) c = regUpd (qGet s c) r v := by
  funext j
  simp only [qGet, qSet, core_setCore_same, regUpd]
  by_cases hj : j = r
  · rw [hj, tget_tset_same, if_pos rfl]
  · rw [tget_tset_ne hj, if_neg hj]

/-- An instruction that writes one Q register. -/
theorem runInstr_qSet {s : State} {c r : Nat} {body : State → Res × State} {pc : Word} {v : QWord} (h : Runs s c)
    (hb : body (fetched s c) = (.done pc, qSet (fetched s c) c r v)) :
    Retired c (fetched s c) (runInstr s c body) (dGet (fetched s c) c) (aGet (fetched s c) c)
      (regUpd (qGet (fetched s c) c) r v) (trunc c pc) := by
  have hd : dGet (qSet (fetched s c) c r v) c = dGet (fetched s c) c := funext (dGet_congr (by simp [qSet]))
  have ha : aGet (qSet (fetched s c) c r v) c = aGet (fetched s c) c :=
    funext (aGet_congr (by simp [qSet]) (by simp [qSet]) (by simp [qSet]) (by simp [qSet]))
  rw [runInstr_done h hb, ← qGet_qSet, ← hd, ← ha]
  exact complete_retired (CoreOnly.setCore ..) (by simp [qSet]) (by simp [qSet])
    (fun n w _ _ _ => sysGet_congr (by simp [qSet]) n w) h.ss (by simpa [qSet] using h.free)

/-! ### Lanes -/

theorem getLsbD_lane (w : Nat) (q : QWord) (i j : Nat) : (lane w q i).getLsbD j = (decide (j < w) && q.getLsbD (w * i + j)) :=
  BitVec.getLsbD_extractLsb' ..

theorem length_lanes (w : Nat) (q : QWord) : (lanes w q).length = 256 / w := by simp [lanes]

theorem getElem_lanes {w : Nat} {q : QWord} {i : Nat} (h : i < (lanes w q).length) : (lanes w q)[i] = lane w q i := by simp [lanes]

/-- Bit j of lane i in the number that lanes of w bits spell. -/
theorem testBit_foldr_lanes {w : Nat} (l : List (BitVec w)) {i j : Nat} (hi : i < l.length) (hj : j < w) :
    (l.foldr (fun (x : BitVec w) acc => acc * 2 ^ w + x.toNat) 0).testBit (w * i + j) = l[i].getLsbD j := by
  induction l generalizing i with
  | nil => simp at hi
  | cons x l ih =>
    rw [List.foldr_cons, mul_comm _ (2 ^ w), Nat.testBit_two_pow_mul_add _ x.isLt]
    cases i with
    | zero => rw [mul_zero, zero_add, if_pos hj, BitVec.testBit_toNat, List.getElem_cons_zero]
    | succ i =>
      have hge : ¬ w * (i + 1) + j < w := by rw [mul_add]; omega
      have hsub : w * (i + 1) + j - w = w * i + j := by rw [mul_add]; omega
      rw [if_neg hge, hsub, ih (by simpa using hi), List.getElem_cons_succ]

/-- The lanes of a Q value made of lanes that fit in it. -/
theorem lane_ofLanes {w : Nat} {l : List (BitVec w)} (hl : w * l.length ≤ 256) {i : Nat} (hi : i < l.length) :
    lane w (ofLanes w l) i = l[i] := by
  apply BitVec.eq_of_getLsbD_eq
  intro j hj
  have hfit : w * i + j < 256 :=
    calc w * i + j < w * (i + 1) := by rw [mul_add, mul_one]; omega
      _ ≤ w * l.length := Nat.mul_le_mul_left w hi
      _ ≤ 256 := hl
  rw [getLsbD_lane, ofLanes, BitVec.getLsbD_ofNat, testBit_foldr_lanes l hi hj]
  simp [hj, hfit]

/-- The lanes of a Q value made of 256 / w of them. -/
theorem lane_ofLanes_of_length {w : Nat} {l : List (BitVec w)} (hl : l.length = 256 / w) {i : Nat} (hi : i < 256 / w) :
    lane w (ofLanes w l) i = l[i] :=
  lane_ofLanes (hl ▸ Nat.mul_div_le 256 w) (hl ▸ hi)

/-- A lane-wise operation acts lane by lane. -/
theorem lane_laneOp {w : Nat} (f : BitVec w → BitVec w → BitVec w) (a b : QWord) {i : Nat} (hi : i < 256 / w) :
    lane w (laneOp w f a b) i = f (lane w a i) (lane w b i) := by
  rw [laneOp, lane_ofLanes_of_length (by simp) hi]
  simp

/-- Lane widths are 64 and 32 bits (R55). -/
theorem laneW_toNat (ln : BitVec 2) : laneW ln.toNat = if ln = 0 then 64 else 32 := by
  simp [laneW, BitVec.toNat_eq]

theorem lane_mac (w : Nat) (q a b : QWord) {i : Nat} (hi : i < 256 / w) :
    lane w (laneOp w (fun x y => x + y) q (laneOp w (fun x y => x * y) a b)) i = lane w q i + lane w a i * lane w b i := by
  rw [lane_laneOp _ _ _ hi, lane_laneOp _ _ _ hi]

theorem lane_replicate {w : Nat} (x : BitVec w) {i : Nat} (hi : i < 256 / w) :
    lane w (ofLanes w (List.replicate (256 / w) x)) i = x := by
  rw [lane_ofLanes_of_length (List.length_replicate ..) hi, List.getElem_replicate]

theorem lane_insert {w : Nat} (q : QWord) (l : Nat) (x : BitVec w) {i : Nat} (hi : i < 256 / w) :
    lane w (ofLanes w ((lanes w q).set l x)) i = if i = l then x else lane w q i := by
  rw [lane_ofLanes_of_length ((List.length_set ..).trans (length_lanes ..)) hi, List.getElem_set, getElem_lanes]
  simp only [eq_comm]

/-- The sum of the lanes, which the model adds up from lane 0 on. -/
theorem foldl_lanes (w : Nat) (q : QWord) :
    (lanes w q).foldl (fun acc x => acc + x.toNat) 0 = ((List.range (256 / w)).map (fun i => (lane w q i).toNat)).sum := by
  rw [List.sum_eq_foldl, lanes, List.foldl_map, List.foldl_map]

/-! ### Counts -/

theorem popc_lt {w : Nat} (x : BitVec w) : popc x < 2 ^ w :=
  calc popc x ≤ (List.range w).length := List.length_filter_le ..
    _ = w := List.length_range
    _ < 2 ^ w := Nat.lt_two_pow_self

theorem toNat_ofNat_popc {w : Nat} (x : BitVec w) : (BitVec.ofNat w (popc x)).toNat = popc x :=
  BitVec.toNat_ofNat .. |>.trans (Nat.mod_eq_of_lt (popc_lt x))

theorem lane_popc {w : Nat} (q : QWord) {i : Nat} (hi : i < 256 / w) :
    (lane w (ofLanes w ((lanes w q).map (fun x => BitVec.ofNat w (popc x)))) i).toNat = popc (lane w q i) := by
  rw [lane_ofLanes_of_length ((List.length_map ..).trans (length_lanes ..)) hi, List.getElem_map, getElem_lanes, toNat_ofNat_popc]

/-- The CRC of R111 over the bytes of a Q value, least significant first. -/
theorem foldl_crcStep (q : QWord) (crc : Nat) (n : Nat) :
    ((List.range n).map (fun i => (q.extractLsb' (8 * i) 8 : Byte))).foldl crcStep crc =
      (List.range n).foldl (fun crc i => (List.range 8).foldl (fun x _ => (x >>> 1) ^^^ (if x % 2 = 1 then 0x82F63B78 else 0))
        (crc ^^^ (q.toNat / 2 ^ (8 * i) % 256))) crc := by
  simp only [List.foldl_map, crcStep, BitVec.extractLsb'_toNat, Nat.shiftRight_eq_div_pow]

/-! ### The carry-less product -/

theorem parity_succ (n : Nat) : ((n + 1) % 2 == 1) = !(n % 2 == 1) := by
  rcases Nat.mod_two_eq_zero_or_one n with h | h <;> simp [Nat.add_mod, h]

/-- Bit k of a XOR of terms, those that a condition picks, is the parity of the picked terms whose bit k is 1. -/
theorem getLsbD_foldl_xor {w : Nat} (p : Nat → Bool) (g : Nat → BitVec w) (k n : Nat) :
    ((List.range n).foldl (fun acc i => if p i then acc ^^^ g i else acc) 0#w).getLsbD k =
      (((List.range n).filter (fun i => p i && (g i).getLsbD k)).length % 2 == 1) := by
  induction n with
  | zero => simp
  | succ n ih =>
    rw [List.range_succ, List.foldl_append, List.filter_append, List.length_append, List.foldl_cons, List.foldl_nil]
    by_cases hp : p n
    · by_cases hg : (g n).getLsbD k
      · simp [hp, hg, ih, parity_succ]
      · simp [hp, hg, ih]
    · simp [hp, ih]

/-- Numbers from n on that a condition does not hold of are not counted. -/
theorem length_filter_range_eq {n m : Nat} {p : Nat → Bool} (h : n ≤ m) (hp : ∀ i, n ≤ i → p i = false) :
    ((List.range m).filter p).length = ((List.range n).filter p).length := by
  obtain ⟨d, rfl⟩ := Nat.exists_eq_add_of_le h
  have hnone : ((List.range d).map (fun x => n + x)).filter p = [] := by simp [hp]
  rw [List.range_add, List.filter_append, hnone, List.append_nil]

/-- Whether a[i] and b[k - i] are both 1, which bit k of the carry-less product counts for i up to k (R110). -/
def clmulTerm (a b : BitVec 64) (k i : Nat) : Bool := decide (i ≤ k) && a.getLsbD i && b.getLsbD (k - i)

theorem clmulTerm_eq_shifted (a b : BitVec 64) {k : Nat} (hk : k < 128) (i : Nat) :
    (a.getLsbD i && ((b.setWidth 128) <<< i).getLsbD k) = clmulTerm a b k i := by
  have hk' : k - i < 128 := by omega
  simp only [clmulTerm, BitVec.getLsbD_shiftLeft, BitVec.getLsbD_setWidth, hk, hk', decide_true, Bool.true_and, ← Nat.not_le,
    decide_not, Bool.not_not]
  rw [Bool.and_left_comm, Bool.and_assoc]

theorem clmulTerm_of_ge {a b : BitVec 64} {k i : Nat} (hi : 64 ≤ i) : clmulTerm a b k i = false := by
  simp [clmulTerm, BitVec.getLsbD_of_ge a i hi]

theorem clmulTerm_of_gt {a b : BitVec 64} {k i : Nat} (hi : k < i) : clmulTerm a b k i = false := by
  simp [clmulTerm, hi]

/-- clmul as R110 states it: the model adds the shifts of b that a picks, the rule counts the pairs that meet at bit k. -/
theorem getLsbD_clmul (a b : BitVec 64) {k : Nat} (hk : k < 128) :
    (clmul a b).getLsbD k = (((List.range (k + 1)).filter (clmulTerm a b k)).length % 2 == 1) := by
  have hshifts : (clmul a b).getLsbD k = (((List.range 64).filter (clmulTerm a b k)).length % 2 == 1) := by
    rw [← funext (clmulTerm_eq_shifted a b hk)]
    exact getLsbD_foldl_xor a.getLsbD (fun i => b.setWidth 128 <<< i) k 64
  have hfactor : ((List.range 128).filter (clmulTerm a b k)).length = ((List.range 64).filter (clmulTerm a b k)).length :=
    length_filter_range_eq (by decide) fun _ => clmulTerm_of_ge
  have hsum : ((List.range 128).filter (clmulTerm a b k)).length = ((List.range (k + 1)).filter (clmulTerm a b k)).length :=
    length_filter_range_eq hk fun _ => clmulTerm_of_gt
  rw [hshifts, ← hfactor, hsum]

/-- QCLMUL multiplies the low lanes of each half (R110). -/
theorem getLsbD_clmul_halves (a b : QWord) {h k : Nat} (hh : h < 2) (hk : k < 128) :
    (clmul (lane 64 a 2) (lane 64 b 2) ++ clmul (lane 64 a 0) (lane 64 b 0)).getLsbD (128 * h + k) =
      (((List.range (k + 1)).filter (fun i =>
        decide (i < 64) && decide (k - i < 64) && a.getLsbD (128 * h + i) && b.getLsbD (128 * h + (k - i)))).length % 2 == 1) := by
  have hhalf : (clmul (lane 64 a 2) (lane 64 b 2) ++ clmul (lane 64 a 0) (lane 64 b 0)).getLsbD (128 * h + k) =
      (clmul (lane 64 a (2 * h)) (lane 64 b (2 * h))).getLsbD k := by
    rw [BitVec.getLsbD_append]
    interval_cases h
    · simp [hk]
    · simp
  have hbits : (List.range (k + 1)).filter (clmulTerm (lane 64 a (2 * h)) (lane 64 b (2 * h)) k) =
      (List.range (k + 1)).filter (fun i =>
        decide (i < 64) && decide (k - i < 64) && a.getLsbD (128 * h + i) && b.getLsbD (128 * h + (k - i))) := by
    refine List.filter_congr fun i hi => ?_
    have hle : i ≤ k := Nat.le_of_lt_succ (List.mem_range.mp hi)
    have hbase : 64 * (2 * h) = 128 * h := by omega
    rw [clmulTerm, getLsbD_lane, getLsbD_lane, decide_eq_true hle, Bool.true_and, hbase]
    ac_rfl
  rw [hhalf, getLsbD_clmul _ _ hk, hbits]

/-! ### Instructions -/

/-- A Y-format word that is allocated runs its body on a physical core whose Q instructions are enabled (R57, R65). -/
theorem bodyY_of_ok {c maj fn : Nat} {o : OpY} {ok_ : Bool} {body : State → Res × State} {s : State} (hc : c ≠ 240)
    (hq : qDisabled s c = none) (hln : o.ln.toNat < 2) (hok : ok_ = true) : bodyY c o maj fn ok_ body s = body s := by
  rw [bodyY, guardWord_of_ok (by simp [mpCore, hc, hln, hok]), qGuard, hq]

/-- A Y-format instruction that writes one Q register, with a value that has property P. -/
theorem exec_bodyY_qSet {c : CoreId} {o : OpY} {s : State} {i : Instr} {maj fn : Nat} {ok_ : Bool} {f : State → QWord}
    {P : QWord → Prop} (h : Runs s c) (hc : c.val ≠ 240) (hq : qDisabled (fetched s c) c = none) (hln : o.ln.toNat < 2)
    (hi : exec i s = .next (runInstr s c (bodyY c o maj fn ok_ (fun s => (.done (nextPc s c), qSet s c o.qd.toNat (f s))))))
    (hok : ok_ = true) (hf : P (f (fetched s c))) :
    ∃ t x, exec i s = .next t ∧
      Retired c (fetched s c) t (dGet (fetched s c) c) (aGet (fetched s c) c) (regUpd (qGet (fetched s c) c) o.qd.toNat x) (pcNext s c) ∧
      P x :=
  ⟨_, f (fetched s c), hi, runInstr_qSet h (bodyY_of_ok hc hq hln hok), hf⟩

/-- A Y-format instruction that writes one D register. -/
theorem exec_bodyY_dSet {c : CoreId} {o : OpY} {s : State} {i : Instr} {maj fn : Nat} {ok_ : Bool} {f : State → Word}
    (h : Runs s c) (hc : c.val ≠ 240) (hq : qDisabled (fetched s c) c = none) (hln : o.ln.toNat < 2)
    (hi : exec i s = .next (runInstr s c (bodyY c o maj fn ok_ (fun s => (.done (nextPc s c), dSet s c o.rx.toNat (f s))))))
    (hok : ok_ = true) {x : Word} (hf : f (fetched s c) = x) :
    ∃ t, exec i s = .next t ∧
      Retired c (fetched s c) t (dUpd (dGet (fetched s c) c) o.rx.toNat x) (aGet (fetched s c) c) (qGet (fetched s c) c) (pcNext s c) := by
  have htrunc : trunc c x = x := if_neg hc
  refine ⟨_, hi, ?_⟩
  rw [← htrunc, ← hf]
  exact runInstr_dSet h (bodyY_of_ok hc hq hln hok)

/-- Settles O18, instruction by instruction: each value is read lane by lane, QCLMUL bit by bit, and the frame is that of one register written. -/
theorem accumulatorResults : Obligations.AccumulatorResults := by
  intro c o l s h hc hq hln u w lanes Q D setQ setD at_ a b
  have hw : w = laneW o.ln.toNat := (laneW_toNat o.ln).symm
  clear_value w
  subst hw
  have runQ {i : Instr} {maj fn : Nat} {ok_ : Bool} {f : State → QWord} {P : QWord → Prop} :=
    exec_bodyY_qSet (i := i) (maj := maj) (fn := fn) (ok_ := ok_) (f := f) (P := P) h hc hq hln
  have runD {i : Instr} {maj fn : Nat} {ok_ : Bool} {f : State → Word} {x : Word} :=
    exec_bodyY_dSet (i := i) (maj := maj) (fn := fn) (ok_ := ok_) (f := f) (x := x) h hc hq hln
  refine ⟨fun hrx => ⟨fun p hp => ?_, ?_⟩, fun hrx hqs1 hqs2 => ?_, fun hrx hqs2 => ?_, fun hqs1 hqs2 hl => ?_, fun hqd hqs2 hl => ?_,
    fun hqs1 hqs2 => ?_, fun hrx hqs2 => ?_, fun hqd hqs2 => ?_, fun hrx hln0 => ?_, fun hqd hqs2 hln0 => ?_, fun hqd hqs2 hln0 => ?_⟩
  · have hok : (o.rx == 0) = true := beq_iff_eq.mpr hrx
    simp only [List.mem_cons, List.not_mem_nil, or_false] at hp
    obtain rfl | rfl | rfl | rfl | rfl | rfl := hp
    · exact runQ rfl hok fun i hi => lane_laneOp (opAdd _) a b hi
    · exact runQ rfl hok fun i hi => lane_laneOp (opSub _) a b hi
    · exact runQ rfl hok fun i hi => lane_laneOp (opMul _) a b hi
    · exact runQ rfl hok fun i hi => lane_laneOp (opAnd _) a b hi
    · exact runQ rfl hok fun i hi => lane_laneOp (opOr _) a b hi
    · exact runQ rfl hok fun i hi => lane_laneOp (opXor _) a b hi
  · exact runQ rfl (beq_iff_eq.mpr hrx) fun i hi => lane_mac _ _ a b hi
  · exact runQ rfl (by simp [hrx, hqs1, hqs2]) rfl
  · exact runQ rfl (by simp [hrx, hqs2]) fun i hi => lane_popc a hi
  · exact runQ rfl (by simpa [hqs1, hqs2, laneOk] using hl) fun i hi => lane_insert _ _ _ hi
  · exact runD rfl (by simpa [hqd, hqs2, laneOk] using hl) rfl
  · exact runQ rfl (by simp [hqs1, hqs2]) fun i hi => lane_replicate _ hi
  · exact runQ rfl (by simp [hrx, hqs2]) rfl
  · exact runD rfl (by simp [hqd, hqs2]) (congrArg _ (foldl_lanes _ a))
  · exact runQ rfl (by simp [hrx, hln0]) fun i k => getLsbD_clmul_halves a b
  · exact runD rfl (by simp [hqd, hqs2, hln0]) (congrArg _ (foldl_crcStep a _ 32))
  · exact runD rfl (by simp [hqd, hqs2, hln0]) rfl

end Sys2Proof.Machine
end

section
/-! PROOFS. The results of the integer operations of one source (R47, R91, R135). -/
namespace Sys2Proof.Machine

open Sys2Proof

/-! ### Operations at the core's width -/

/-- A result at the core's width, as a number. -/
theorem toNat_atWidth (c : Nat) (f : (w : Nat) → BitVec w → BitVec w → BitVec w) (a b : Word) :
    (atWidth c f a b).toNat = (f (coreWidth c) (a.setWidth (coreWidth c)) (b.setWidth (coreWidth c))).toNat := by
  by_cases hc : c = mpCore
  · have hw : coreWidth c = 32 := if_pos hc
    rw [atWidth, if_pos hc, hw, BitVec.toNat_setWidth_of_le (by decide)]
  · have hw : coreWidth c = 64 := if_neg hc
    rw [atWidth, if_neg hc, hw, BitVec.setWidth_eq, BitVec.setWidth_eq]

theorem coreWidth_le (c : Nat) : coreWidth c ≤ 64 := by
  unfold coreWidth
  split <;> decide

theorem eight_mul_coreWidth (c : Nat) : 8 * (coreWidth c / 8) = coreWidth c := by
  unfold coreWidth
  split <;> rfl

/-! ### Counts of zero bits -/

/-- The first index below n at which p holds, or n where there is none. -/
theorem firstIndex_spec (p : Nat → Bool) (n : Nat) :
    ((List.range n).find? p).getD n ≤ n ∧ (∀ i, i < ((List.range n).find? p).getD n → p i = false) ∧
      (((List.range n).find? p).getD n < n → p (((List.range n).find? p).getD n) = true) := by
  cases hf : (List.range n).find? p with
  | none =>
    refine ⟨le_rfl, fun i hi => ?_, fun h => absurd h (lt_irrefl _)⟩
    simpa using List.find?_eq_none.mp hf i (List.mem_range.mpr hi)
  | some k =>
    obtain ⟨hk, hmem, hlt⟩ := List.find?_range_eq_some.mp hf
    exact ⟨(List.mem_range.mp hmem).le, fun i hi => by simpa using hlt i hi, fun _ => hk⟩

/-- A count that is at most the width fits in it. -/
theorem toNat_ofNat_of_le_width {w n : Nat} (h : n ≤ w) : (BitVec.ofNat w n).toNat = n :=
  BitVec.toNat_ofNat .. |>.trans (Nat.mod_eq_of_lt (h.trans_lt Nat.lt_two_pow_self))

/-- CLZ: the highest bits below the count are 0 and the next is 1 (R91). -/
theorem clz_spec (c : Nat) (a b : Word) :
    (atWidth c opClz a b).toNat ≤ coreWidth c ∧
      (∀ i, i < (atWidth c opClz a b).toNat → a.getLsbD (coreWidth c - 1 - i) = false) ∧
      ((atWidth c opClz a b).toNat < coreWidth c → a.getLsbD (coreWidth c - 1 - (atWidth c opClz a b).toNat) = true) := by
  obtain ⟨hle, hzero, hone⟩ := firstIndex_spec (fun i => (a.setWidth (coreWidth c)).getLsbD (coreWidth c - 1 - i)) (coreWidth c)
  rw [toNat_atWidth, opClz, toNat_ofNat_of_le_width hle]
  refine ⟨hle, fun i hi => ?_, fun hlt => ?_⟩
  · have := hzero i hi
    rwa [BitVec.getLsbD_setWidth, decide_eq_true (by omega), Bool.true_and] at this
  · have := hone hlt
    rwa [BitVec.getLsbD_setWidth, decide_eq_true (by omega), Bool.true_and] at this

/-- CTZ: the lowest bits below the count are 0 and the next is 1 (R91). -/
theorem ctz_spec (c : Nat) (a b : Word) :
    (atWidth c opCtz a b).toNat ≤ coreWidth c ∧ (∀ i, i < (atWidth c opCtz a b).toNat → a.getLsbD i = false) ∧
      ((atWidth c opCtz a b).toNat < coreWidth c → a.getLsbD (atWidth c opCtz a b).toNat = true) := by
  obtain ⟨hle, hzero, hone⟩ := firstIndex_spec (fun i => (a.setWidth (coreWidth c)).getLsbD i) (coreWidth c)
  rw [toNat_atWidth, opCtz, toNat_ofNat_of_le_width hle]
  refine ⟨hle, fun i hi => ?_, fun hlt => ?_⟩
  · have := hzero i hi
    rwa [BitVec.getLsbD_setWidth, decide_eq_true (by omega), Bool.true_and] at this
  · have := hone hlt
    rwa [BitVec.getLsbD_setWidth, decide_eq_true (by omega), Bool.true_and] at this

/-! ### Bytes -/

theorem ofBytesLE_lt : ∀ l : List Byte, ofBytesLE l < 2 ^ (8 * l.length)
  | [] => Nat.one_pos
  | b :: l => by
    have ih := ofBytesLE_lt l
    have hb := b.isLt
    rw [ofBytesLE, List.length_cons, Nat.mul_add, pow_add]
    omega

/-- The bits of a number made of bytes are those of its bytes. -/
theorem ofBytesLE_testBit (j : Nat) (hj : j < 8) :
    ∀ (l : List Byte) (k : Nat) (hk : k < l.length), (ofBytesLE l).testBit (8 * k + j) = l[k].getLsbD j
  | [], _, hk => absurd hk (Nat.not_lt_zero _)
  | b :: l, k, hk => by
    have split_ : ofBytesLE (b :: l) = 2 ^ 8 * ofBytesLE l + b.toNat := by
      rw [ofBytesLE]
      omega
    rw [split_, Nat.testBit_two_pow_mul_add _ b.isLt]
    cases k with
    | zero => simp [hj, BitVec.testBit_toNat]
    | succ k =>
      rw [if_neg (by omega), show 8 * (k + 1) + j - 8 = 8 * k + j by omega]
      exact ofBytesLE_testBit j hj l k (by simpa using hk)

/-- BSWAP: byte k is byte n - 1 - k of the source (R91). -/
theorem bswap_bytes (c : Nat) (a b : Word) {k : Nat} (hk : k < coreWidth c / 8) :
    (atWidth c opBswap a b).extractLsb' (8 * k) 8 = a.extractLsb' (8 * (coreWidth c / 8 - 1 - k)) 8 := by
  have hw := eight_mul_coreWidth c
  have hlen : ((bytesLE (coreWidth c / 8) (a.setWidth (coreWidth c)).toNat).reverse).length = coreWidth c / 8 := by simp [bytesLE]
  have hlt := ofBytesLE_lt (bytesLE (coreWidth c / 8) (a.setWidth (coreWidth c)).toNat).reverse
  rw [hlen, hw] at hlt
  apply BitVec.eq_of_getLsbD_eq
  intro j hj
  rw [BitVec.getLsbD_extractLsb', BitVec.getLsbD_extractLsb', ← BitVec.testBit_toNat (atWidth c opBswap a b), toNat_atWidth, opBswap,
    BitVec.toNat_ofNat, Nat.mod_eq_of_lt hlt, ofBytesLE_testBit j hj _ k (hk.trans_eq hlen.symm), List.getElem_reverse]
  simp only [bytesLE, List.length_map, List.length_range, List.getElem_map, List.getElem_range, BitVec.getLsbD_ofNat,
    Nat.testBit_shiftRight, BitVec.testBit_toNat, BitVec.getLsbD_setWidth, hj, decide_true, Bool.true_and]
  rw [decide_eq_true (by omega), Bool.true_and]

theorem bswap_lt (c : Nat) (a b : Word) : (atWidth c opBswap a b).toNat < 2 ^ coreWidth c := by
  rw [toNat_atWidth]
  exact BitVec.isLt _

/-! ### The instructions -/

/-- A T-format instruction of one D source writes the result of its operation, at the core's width, and nothing else (R64, R91, R135). -/
theorem exec_bodyT1_retired {c : CoreId} {o : OpT} {s : State} {i : Instr} {fn : Nat} {f : (w : Nat) → BitVec w → BitVec w → BitVec w}
    (h : Runs s c) (hrd : dOk c o.rd.toNat = true) (hrs1 : dOk c o.rs1.toNat = true) (hrs2 : o.rs2 = 0)
    (hi : exec i s = .next (runInstr s c (bodyT1 c o fn f))) :
    ∃ t, exec i s = .next t ∧
      Retired c (fetched s c) t (dUpd (dGet (fetched s c) c) o.rd.toNat (atWidth c f (dGet (fetched s c) c o.rs1.toNat) 0))
        (aGet (fetched s c) c) (qGet (fetched s c) c) (pcNext s c) := by
  refine ⟨_, hi, ?_⟩
  rw [← atWidth_trunc]
  exact runInstr_dSet h (guardWord_of_ok (by simp only [hrd, hrs1, hrs2, Bool.and_self, beq_self_eq_true]) ..)

/-- Settles O2, instruction by instruction: extensions as the model gives them, counts by the first bit that is set, reversal byte by byte. -/
theorem oneSourceIntegerResults : Obligations.OneSourceIntegerResults := by
  intro c o s h hrd hrs1 hrs2 u a
  have run {i : Instr} {fn : Nat} {f : (w : Nat) → BitVec w → BitVec w → BitVec w} :=
    exec_bodyT1_retired (i := i) (fn := fn) (f := f) h hrd hrs1 hrs2
  refine ⟨fun p hp => ?_, ?_⟩
  · simp only [List.mem_cons, List.not_mem_nil, or_false] at hp
    obtain rfl | rfl | rfl | rfl := hp
    · exact run (f := opSext 8) rfl
    · exact run (f := opSext 16) rfl
    · exact run (f := opSext 32) rfl
    · exact run (f := opZextW) rfl
  · obtain ⟨t1, e1, r1⟩ := run (i := .clz c o) (f := opClz) rfl
    obtain ⟨t2, e2, r2⟩ := run (i := .ctz c o) (f := opCtz) rfl
    obtain ⟨t3, e3, r3⟩ := run (i := .bswap c o) (f := opBswap) rfl
    exact ⟨_, _, _, t1, t2, t3, ⟨e1, r1, clz_spec ..⟩, ⟨e2, r2, ctz_spec ..⟩, e3, r3, bswap_lt .., fun k hk => bswap_bytes c a 0 hk⟩

end Sys2Proof.Machine
end

section
/-! PROOFS. The results of the immediate and of the address register operations (R47, R49, R67, R91, R93, R135). -/
namespace Sys2Proof.Machine

open Sys2Proof

/-! ### Immediate operations -/

/-- A K-format instruction writes the result of its operation on the source and the extended immediate (R64, R91). -/
theorem exec_bodyK_retired {c : CoreId} {o : OpK} {s : State} {i : Instr} {maj : Nat} {sx : Bool}
    {f g : (w : Nat) → BitVec w → BitVec w → BitVec w} (h : Runs s c) (hrd : dOk c o.rd.toNat = true) (hrs1 : dOk c o.rs1.toNat = true)
    (hi : exec i s = .next (runInstr s c (bodyK c o maj sx f))) (hfg : ∀ w x y, f w x y = g w x y) :
    ∃ t, exec i s = .next t ∧
      Retired c (fetched s c) t
        (dUpd (dGet (fetched s c) c) o.rd.toNat
          (atWidth c g (dGet (fetched s c) c o.rs1.toNat) (if sx then o.imm.signExtend 64 else o.imm.setWidth 64)))
        (aGet (fetched s c) c) (qGet (fetched s c) c) (pcNext s c) := by
  obtain rfl : f = g := funext fun w => funext fun x => funext (hfg w x)
  refine ⟨_, hi, ?_⟩
  rw [← atWidth_trunc]
  exact runInstr_dSet h (guardWord_of_ok (by simp only [hrd, hrs1, Bool.and_self]) ..)

/-- Operations that agree at 32 and at 64 bits agree at the core's width. -/
theorem atWidth_congr {c : Nat} {f g : (w : Nat) → BitVec w → BitVec w → BitVec w} {a b b' : Word}
    (h32 : f 32 (a.setWidth 32) (b.setWidth 32) = g 32 (a.setWidth 32) (b'.setWidth 32)) (h64 : f 64 a b = g 64 a b') :
    atWidth c f a b = atWidth c g a b' := by
  unfold atWidth
  rw [h32, h64]

/-- A shift's amount, extended to the core's width, is the field itself. -/
theorem toNat_zext_amt (x : BitVec 6) : ((zext x).setWidth 32).toNat = x.toNat ∧ (zext x).toNat = x.toNat := by
  have := x.isLt
  simp only [zext, BitVec.zeroExtend_eq_setWidth, BitVec.toNat_setWidth]
  omega

/-- A shift by immediate writes the source shifted by the amount modulo the width (R91). The operation the statement gives has no second
source. -/
theorem exec_bodyShi_retired {c : CoreId} {o : OpShi} {s : State} {i : Instr} {kind : Nat}
    {f : (w : Nat) → BitVec w → BitVec w → BitVec w} {g : (w : Nat) → BitVec w → BitVec w} (h : Runs s c)
    (hrd : dOk c o.rd.toNat = true) (hrs1 : dOk c o.rs1.toNat = true) (hhi : o.hi = 0)
    (hi : exec i s = .next (runInstr s c (bodyShi c o kind f)))
    (hfg : ∀ w x (y : BitVec w), y.toNat = o.amt.toNat → f w x y = g w x) :
    ∃ t, exec i s = .next t ∧
      Retired c (fetched s c) t
        (dUpd (dGet (fetched s c) c) o.rd.toNat (atWidth c (fun w x _ => g w x) (dGet (fetched s c) c o.rs1.toNat) 0))
        (aGet (fetched s c) c) (qGet (fetched s c) c) (pcNext s c) := by
  refine ⟨_, hi, ?_⟩
  obtain ⟨h32, h64⟩ := toNat_zext_amt o.amt
  have he : atWidth c f (dGet (fetched s c) c o.rs1.toNat) (zext o.amt) =
      atWidth c (fun w x _ => g w x) (dGet (fetched s c) c o.rs1.toNat) 0 := atWidth_congr (hfg _ _ _ h32) (hfg _ _ _ h64)
  rw [← he, ← atWidth_trunc]
  exact runInstr_dSet h (guardWord_of_ok (by simp only [hrd, hrs1, hhi, Bool.and_self, beq_self_eq_true]) ..)

/-- A field that was written holds the value, bit for bit. -/
theorem extractLsb'_setFld (v : Word) {k : Nat} (hk : k < 4) (x : BitVec 16) :
    (setFld v (16 * k + 15) (16 * k) x.toNat).extractLsb' (16 * k) 16 = x := by
  apply BitVec.eq_of_getLsbD_eq
  intro i hi
  have hbit := bit_setFld v (16 * k + 15) (16 * k) x.toNat (16 * k + i) (by omega) (by omega)
  rw [if_pos (by omega), Nat.add_sub_cancel_left, BitVec.testBit_toNat] at hbit
  rw [BitVec.getLsbD_extractLsb', decide_eq_true hi, Bool.true_and]
  exact hbit

/-- Settles O3, form by form: extended immediates, shifts, MOVI, MOVK. -/
theorem immediateResults : Obligations.ImmediateResults := by
  intro c s h u
  refine ⟨fun o hrd hrs1 p hp => ?_, fun o hrd hrs1 hhi p hp => ?_, fun o hrd hrs1 => ⟨_, rfl, ?_⟩, fun o hrd hrs1 => ?_⟩
  · have run {i : Instr} {maj : Nat} {sx : Bool} {f g : (w : Nat) → BitVec w → BitVec w → BitVec w} :=
      exec_bodyK_retired (i := i) (maj := maj) (sx := sx) (f := f) (g := g) h hrd hrs1
    simp only [List.mem_cons, List.not_mem_nil, or_false] at hp
    obtain rfl | rfl | rfl | rfl | rfl | rfl | rfl := hp
    · exact run rfl fun _ _ _ => rfl
    · exact run rfl fun _ _ _ => rfl
    · exact run rfl fun _ _ _ => rfl
    · exact run rfl fun _ _ _ => rfl
    · exact run rfl relEq_eq
    · exact run rfl relLt_eq
    · exact run rfl relLtu_eq
  · have run {i : Instr} {kind : Nat} {f : (w : Nat) → BitVec w → BitVec w → BitVec w} {g : (w : Nat) → BitVec w → BitVec w} :=
      exec_bodyShi_retired (i := i) (kind := kind) (f := f) (g := g) h hrd hrs1 hhi
    simp only [List.mem_cons, List.not_mem_nil, or_false] at hp
    obtain rfl | rfl | rfl | rfl := hp
    · exact run rfl fun w x y hy => by rw [opSll, hy]
    · exact run rfl fun w x y hy => by rw [opSrl, hy]
    · exact run rfl fun w x y hy => by rw [opSra, hy]
    · exact run rfl fun w x y hy => by rw [opRor_eq, hy]
  · exact runInstr_dSet h (guardWord_of_ok (by simp only [hrd, hrs1, Bool.and_self, beq_self_eq_true]) ..)
  · refine ⟨_, setFld (dGet u c o.rd.toNat) (16 * o.rs1.toNat + 15) (16 * o.rs1.toNat) o.imm.toNat, rfl, ?_, ?_, fun i hi => ?_⟩
    · exact runInstr_dSet h (guardWord_of_ok (by simp only [hrd, hrs1, decide_true, Bool.and_self]) ..)
    · exact extractLsb'_setFld _ hrs1 _
    · have hbit := bit_setFld (dGet u c o.rd.toNat) (16 * o.rs1.toNat + 15) (16 * o.rs1.toNat) o.imm.toNat i (by omega) (by omega)
      rwa [if_neg (by omega)] at hbit

/-! ### Address register operations -/

/-- A T-format instruction that writes an A register from an A and a D register. On the management processor the result is cut to 32 bits,
which addition and subtraction allow before or after. -/
theorem exec_bodyAAD_retired {c : CoreId} {o : OpT} {s : State} {i : Instr} {fn : Nat} {f : (w : Nat) → BitVec w → BitVec w → BitVec w}
    {g : Word → Word → Word} (h : Runs s c) (hrd : aOk c o.rd.toNat = true) (hrs1 : aOk c o.rs1.toNat = true)
    (hrs2 : dOk c o.rs2.toNat = true) (hi : exec i s = .next (runInstr s c (bodyAAD c o fn f)))
    (hfg : ∀ x y, trunc c (atWidth c f x y) = trunc c (g x y)) :
    ∃ t, exec i s = .next t ∧
      Retired c (fetched s c) t (dGet (fetched s c) c)
        (regUpd (aGet (fetched s c) c) o.rd.toNat (trunc c (g (aGet (fetched s c) c o.rs1.toNat) (dGet (fetched s c) c o.rs2.toNat))))
        (qGet (fetched s c) c) (pcNext s c) := by
  refine ⟨_, hi, ?_⟩
  rw [← hfg]
  exact runInstr_aSet h (guardWord_of_ok (by simp only [hrd, hrs1, hrs2, Bool.and_self]) ..)

theorem trunc_atWidth_opAdd (c : Nat) (x y : Word) : trunc c (atWidth c opAdd x y) = trunc c (x + y) := by
  unfold trunc atWidth opAdd
  split
  · rw [and_low32, and_low32, BitVec.setWidth_add x y (by decide)]
    simp
  · rfl

theorem trunc_atWidth_opSub (c : Nat) (x y : Word) : trunc c (atWidth c opSub x y) = trunc c (x - y) := by
  unfold trunc atWidth opSub
  split
  · have : (x - y).setWidth 32 = x.setWidth 32 - y.setWidth 32 := by
      rw [BitVec.sub_eq_add_neg, BitVec.setWidth_add _ _ (by decide), BitVec.setWidth_neg_of_le (by decide), BitVec.sub_eq_add_neg]
    rw [and_low32, and_low32, this]
    simp
  · rfl

/-- A T-format instruction that writes a D register from two A registers. -/
theorem exec_bodyDAA_retired {c : CoreId} {o : OpT} {s : State} {i : Instr} {fn : Nat} {f g : (w : Nat) → BitVec w → BitVec w → BitVec w}
    (h : Runs s c) (hrd : dOk c o.rd.toNat = true) (hrs1 : aOk c o.rs1.toNat = true) (hrs2 : aOk c o.rs2.toNat = true)
    (hi : exec i s = .next (runInstr s c (bodyDAA c o fn f))) (hfg : ∀ w x y, f w x y = g w x y) :
    ∃ t, exec i s = .next t ∧
      Retired c (fetched s c) t
        (dUpd (dGet (fetched s c) c) o.rd.toNat (atWidth c g (aGet (fetched s c) c o.rs1.toNat) (aGet (fetched s c) c o.rs2.toNat)))
        (aGet (fetched s c) c) (qGet (fetched s c) c) (pcNext s c) := by
  obtain rfl : f = g := funext fun w => funext fun x => funext (hfg w x)
  refine ⟨_, hi, ?_⟩
  rw [← atWidth_trunc]
  exact runInstr_dSet h (guardWord_of_ok (by simp only [hrd, hrs1, hrs2, Bool.and_self]) ..)

/-- Settles O4, form by form: sums into an A register, differences and compares of A registers, moves, immediates, ADRPC. -/
theorem addressOperationResults : Obligations.AddressOperationResults := by
  intro c s h u
  refine ⟨fun o hrd hrs1 hrs2 p hp => ?_, fun o hrd hrs1 hrs2 p hp => ?_, fun o hrs2 hrd hrs1 => ⟨_, rfl, ?_⟩,
    fun o hrs2 hrd hrs1 => ⟨_, rfl, ?_⟩, fun o hrs2 hrd hrs1 => ⟨_, rfl, ?_⟩, fun o hrd hrs1 => ⟨_, rfl, ?_⟩,
    fun o hrd hrs1 => ⟨_, rfl, ?_⟩⟩
  · simp only [List.mem_cons, List.not_mem_nil, or_false] at hp
    obtain rfl | rfl := hp
    · exact exec_bodyAAD_retired h hrd hrs1 hrs2 rfl (trunc_atWidth_opAdd c)
    · exact exec_bodyAAD_retired h hrd hrs1 hrs2 rfl (trunc_atWidth_opSub c)
  · have run {i : Instr} {fn : Nat} {f g : (w : Nat) → BitVec w → BitVec w → BitVec w} :=
      exec_bodyDAA_retired (i := i) (fn := fn) (f := f) (g := g) h hrd hrs1 hrs2
    simp only [List.mem_cons, List.not_mem_nil, or_false] at hp
    obtain rfl | rfl | rfl | rfl | rfl := hp
    · exact run rfl fun _ _ _ => rfl
    · exact run rfl relEq_eq
    · exact run rfl relNe_eq
    · exact run rfl relLtu_eq
    · exact run rfl relGeu_eq
  · exact runInstr_aSet h (guardWord_of_ok (by simp [hrd, hrs1, hrs2]) ..)
  · exact runInstr_aSet h (guardWord_of_ok (by simp [hrd, hrs1, hrs2]) ..)
  · exact runInstr_dSet h (guardWord_of_ok (by simp [hrd, hrs1, hrs2]) ..)
  · exact runInstr_aSet h (guardWord_of_ok (by simp [hrd, hrs1]) ..)
  · exact runInstr_aSet h (guardWord_of_ok (by simp [hrd, hrs1]) ..)

end Sys2Proof.Machine
end

section
/-! PROOFS. The canonical form of the memories (O60): the ways functions are put together, and the operations of the core and its lines. -/
namespace Sys2Proof.Machine

open Sys2Proof

/-- From s₀ to s the memories keep their canonical form and the package time stands: so does every operation but those of the time base. -/
def Calm (s₀ s : State) : Prop := (MemoriesCanonical s₀ → MemoriesCanonical s) ∧ s.ptime = s₀.ptime

variable {s₀ : State}

variable {α β γ : Type}

/-- Both branches of a choice. -/
theorem ite_canonical {c : Prop} {_ : Decidable c} {s t : State} (hs : Calm s₀ s) (ht : Calm s₀ t) :
    Calm s₀ (if c then s else t) := by
  split <;> assumption

theorem ite_snd_canonical {c : Prop} {_ : Decidable c} {p q : α × State} (hp : Calm s₀ p.2) (hq : Calm s₀ q.2) :
    Calm s₀ (if c then p else q).2 := by
  split <;> assumption

theorem ite_fst_canonical {c : Prop} {_ : Decidable c} {p q : State × α} (hp : Calm s₀ p.1) (hq : Calm s₀ q.1) :
    Calm s₀ (if c then p else q).1 := by
  split <;> assumption

theorem ite_snd_snd_canonical {c : Prop} {_ : Decidable c} {p q : α × β × State} (hp : Calm s₀ p.2.2) (hq : Calm s₀ q.2.2) :
    Calm s₀ (if c then p else q).2.2 := by
  split <;> assumption

theorem foldl_canonical {f : State → α → State} {l : List α} {s : State} (hf : ∀ t a, Calm s₀ t → Calm s₀ (f t a)) (h : Calm s₀ s) :
    Calm s₀ (l.foldl f s) := by
  induction l generalizing s with
  | nil => exact h
  | cons a l ih => exact ih (hf s a h)

theorem snd_canonical {p : α × State} {a : α} {t : State} (h : Calm s₀ p.2) (e : p = (a, t)) : Calm s₀ t := by
  subst e
  exact h

theorem fst_canonical {p : State × α} {a : α} {t : State} (h : Calm s₀ p.1) (e : p = (t, a)) : Calm s₀ t := by
  subst e
  exact h

theorem snd_snd_canonical {p : α × β × State} {a : α} {b : β} {t : State} (h : Calm s₀ p.2.2) (e : p = (a, b, t)) :
    Calm s₀ t := by
  subst e
  exact h

theorem freeWord_canonical {s} (h : Calm s₀ s) :
    Calm s₀ (freeWord s).2 :=
  h

theorem freeLine_canonical {s} (h : Calm s₀ s) :
    Calm s₀ (freeLine s).2 :=
  h

theorem freeKey_canonical {s} (h : Calm s₀ s) :
    Calm s₀ (freeKey s).2 :=
  h

theorem setRg_canonical {s r i v} (h : Calm s₀ s) :
    Calm s₀ (setRg s r i v) :=
  h

theorem setRgF_canonical {s r i hi lo x} (h : Calm s₀ s) :
    Calm s₀ (setRgF s r i hi lo x) :=
  setRg_canonical h

theorem incRgF_canonical {s r i hi lo} (h : Calm s₀ s) :
    Calm s₀ (incRgF s r i hi lo) :=
  setRgF_canonical h

theorem setCore_canonical {s c k} (h : Calm s₀ s) :
    Calm s₀ (setCore s c k) :=
  h

theorem sysSet_canonical {s c n w v} (h : Calm s₀ s) :
    Calm s₀ (sysSet s c n w v) :=
  setCore_canonical h

theorem sysWrite_canonical {s c n w v} (h : Calm s₀ s) :
    Calm s₀ (sysWrite s c n w v) :=
  setCore_canonical h

theorem sysForce_canonical {s c n w v} (h : Calm s₀ s) :
    Calm s₀ (sysForce s c n w v) :=
  setCore_canonical (sysSet_canonical h)

theorem contextSync_canonical {s c} (h : Calm s₀ s) :
    Calm s₀ (contextSync s c) :=
  setCore_canonical h

theorem dSet_canonical {s c r v} (h : Calm s₀ s) :
    Calm s₀ (dSet s c r v) :=
  ite_canonical h (setCore_canonical h)

theorem aSet_canonical {s c r v} (h : Calm s₀ s) :
    Calm s₀ (aSet s c r v) :=
  ite_canonical (sysForce_canonical h) (setCore_canonical h)

theorem qSet_canonical {s c r v} (h : Calm s₀ s) :
    Calm s₀ (qSet s c r v) :=
  setCore_canonical h

theorem bumpCnt_canonical {s c x2 x3} (h : Calm s₀ s) :
    Calm s₀ (bumpCnt s c x2 x3) := by
  induction x2 generalizing s c x3 with
  | zero => exact h
  | succ x2 ih => exact ite_canonical (sysSet_canonical h) (ite_canonical (ih (sysSet_canonical h)) (sysSet_canonical (sysSet_canonical h)))

theorem countIf_canonical {s c ev really} (h : Calm s₀ s) :
    Calm s₀ (countIf s c ev really) :=
  ite_canonical h (ite_canonical (foldl_canonical (fun _ _ h3 => ite_canonical (bumpCnt_canonical h3) h3) h) h)

theorem countEvent_canonical {s c ev} (h : Calm s₀ s) :
    Calm s₀ (countEvent s c ev) :=
  countIf_canonical h

theorem countTimes_canonical {s c ev n} (h : Calm s₀ s) :
    Calm s₀ (countTimes s c ev n) :=
  foldl_canonical (fun _ _ h3 => countEvent_canonical h3) h

theorem countFree_canonical {s c ev addr} (h : Calm s₀ s) :
    Calm s₀ (countFree s c ev addr) :=
  countIf_canonical h

theorem countSteps_canonical {s c n} (h : Calm s₀ s) :
    Calm s₀ (countSteps s c n) :=
  ite_canonical (sysSet_canonical h) h

theorem retireSteps_canonical {s c} (h : Calm s₀ s) :
    Calm s₀ (retireSteps s c) :=
  countSteps_canonical (setCore_canonical h)

theorem dropResv_canonical {s c} (h : Calm s₀ s) :
    Calm s₀ (dropResv s c) :=
  setCore_canonical h

theorem dropPredictors_canonical {s c} (h : Calm s₀ s) :
    Calm s₀ (dropPredictors s c) :=
  setCore_canonical h

theorem takeExcAt_canonical {s c e epc esyn} (h : Calm s₀ s) :
    Calm s₀ (takeExcAt s c e epc esyn) :=
  ite_canonical (dropPredictors_canonical (dropResv_canonical (setCore_canonical (ite_canonical (sysSet_canonical (ite_canonical (sysSet_canonical (sysSet_canonical (sysSet_canonical (sysSet_canonical (countEvent_canonical h))))) (sysSet_canonical (sysSet_canonical (sysSet_canonical (sysSet_canonical (sysSet_canonical (countEvent_canonical h)))))))) (ite_canonical (sysSet_canonical (sysSet_canonical (sysSet_canonical (sysSet_canonical (countEvent_canonical h))))) (sysSet_canonical (sysSet_canonical (sysSet_canonical (sysSet_canonical (sysSet_canonical (countEvent_canonical h))))))))))) (setCore_canonical (ite_canonical (sysSet_canonical (ite_canonical (sysSet_canonical (sysSet_canonical (sysSet_canonical (sysSet_canonical (countEvent_canonical h))))) (sysSet_canonical (sysSet_canonical (sysSet_canonical (sysSet_canonical (sysSet_canonical (countEvent_canonical h)))))))) (ite_canonical (sysSet_canonical (sysSet_canonical (sysSet_canonical (sysSet_canonical (countEvent_canonical h))))) (sysSet_canonical (sysSet_canonical (sysSet_canonical (sysSet_canonical (sysSet_canonical (countEvent_canonical h)))))))))

theorem takeExc_canonical {s c e} (h : Calm s₀ s) :
    Calm s₀ (takeExc s c e) :=
  takeExcAt_canonical h

theorem returnExc_canonical {s c} (h : Calm s₀ s) :
    Calm s₀ (returnExc s c) :=
  ite_canonical (dropPredictors_canonical (setCore_canonical h)) (setCore_canonical h)

theorem retireAt_canonical {s c pc'} (h : Calm s₀ s) :
    Calm s₀ (retireAt s c pc') :=
  ite_canonical (takeExcAt_canonical (setCore_canonical (ite_canonical (countEvent_canonical h) (retireSteps_canonical (countEvent_canonical h))))) (setCore_canonical (ite_canonical (countEvent_canonical h) (retireSteps_canonical (countEvent_canonical h))))

theorem dropFills_canonical {s c} (h : Calm s₀ s) :
    Calm s₀ (dropFills s c) :=
  setCore_canonical h

theorem dropFill_canonical {s c line} (h : Calm s₀ s) :
    Calm s₀ (dropFill s c line) :=
  setCore_canonical h

theorem send_canonical {s p} (h : Calm s₀ s) :
    Calm s₀ (send s p) :=
  h

theorem takeAny_canonical {f s p t} (h : Calm s₀ s) (e : takeAny f s = some (p, t)) : Calm s₀ t := by
  unfold takeAny at e
  split at e
  · cases e
    exact h
  · cases e

theorem newTxid_canonical {s} (h : Calm s₀ s) :
    Calm s₀ (newTxid s).2 :=
  h

theorem addOutst_canonical {s o} (h : Calm s₀ s) :
    Calm s₀ (addOutst s o) :=
  h

theorem delOutst_canonical {s st tx} (h : Calm s₀ s) :
    Calm s₀ (delOutst s st tx) :=
  h

theorem raiseSrc_canonical {s n} (h : Calm s₀ s) :
    Calm s₀ (raiseSrc s n) :=
  setRgF_canonical h

theorem logErr_canonical {s l kind unit way addr} (h : Calm s₀ s) :
    Calm s₀ (logErr s l kind unit way addr) := by
  unfold logErr
  dsimp only
  split
  · exact raiseSrc_canonical (by
      split
      · exact incRgF_canonical (incRgF_canonical h)
      · exact setRgF_canonical (setRg_canonical (setRg_canonical (setRg_canonical (ite_canonical (incRgF_canonical (incRgF_canonical h)) (incRgF_canonical h))))))
  · exact raiseSrc_canonical (by
      split
      · exact incRgF_canonical (incRgF_canonical h)
      · exact setRgF_canonical (setRg_canonical (setRg_canonical (setRg_canonical (ite_canonical (incRgF_canonical (incRgF_canonical h)) (incRgF_canonical h))))))
  · split
    · exact incRgF_canonical (incRgF_canonical h)
    · exact setRgF_canonical (setRg_canonical (setRg_canonical (setRg_canonical (ite_canonical (incRgF_canonical (incRgF_canonical h)) (incRgF_canonical h)))))

theorem clearLog_canonical {s l} (h : Calm s₀ s) :
    Calm s₀ (clearLog s l) := by
  unfold clearLog
  split <;> exact setRgF_canonical (setRgF_canonical (foldl_canonical (fun _ _ h12 => setRg_canonical (setRg_canonical (setRg_canonical h12))) h))

theorem coreErr_canonical {s c b pa} (h : Calm s₀ s) :
    Calm s₀ (coreErr s c b pa) :=
  ite_canonical h (sysSet_canonical (sysSet_canonical h))

theorem coreThreshold_canonical {s c} (h : Calm s₀ s) :
    Calm s₀ (coreThreshold s c) :=
  ite_canonical h (setRgF_canonical (sysSet_canonical h))

theorem stopCore_canonical {s c} (h : Calm s₀ s) :
    Calm s₀ (stopCore s c) :=
  ite_canonical h (ite_canonical (setCore_canonical h) (coreThreshold_canonical (logErr_canonical (raiseSrc_canonical (setCore_canonical h)))))

theorem setMemPoison_canonical {s line b} (h : Calm s₀ s) :
    Calm s₀ (setMemPoison s line b) :=
  h

theorem judgeCethr_canonical {s ch} (h : Calm s₀ s) :
    Calm s₀ (judgeCethr s ch) :=
  ite_canonical (raiseSrc_canonical (setRgF_canonical h)) h

theorem chCorrected_canonical {s ch line sub dev rank scrub} (h : Calm s₀ s) :
    Calm s₀ (chCorrected s ch line sub dev rank scrub) := by
  unfold chCorrected
  extract_lets s1 _ s3 s4 hit5 _ s7 s8 s9
  have hs1 : Calm s₀ s1 := incRgF_canonical h
  have hs3 : Calm s₀ s3 := hs1
  have hs4 : Calm s₀ s4 := setRgF_canonical hs3
  have hs7 : Calm s₀ s7 := ite_canonical (incRgF_canonical hs4) hs4
  have hs8 : Calm s₀ s8 := setRg_canonical hs7
  have hs9 : Calm s₀ s9 := by
    unfold s9
    clear_value hit5
    split
    · exact incRgF_canonical hs4
    · exact setRgF_canonical hs8
  exact judgeCethr_canonical hs9

theorem chUncorrectable_canonical {s ch line sub dev rank scrub} (h : Calm s₀ s) :
    Calm s₀ (chUncorrectable s ch line sub dev rank scrub) :=
  raiseSrc_canonical (setRg_canonical (incRgF_canonical (setMemPoison_canonical h)))

theorem chRead_canonical {s line e scrub} (h : Calm s₀ s) :
    Calm s₀ (chRead s line e scrub).2.2 :=
  ite_snd_snd_canonical (ite_canonical (incRgF_canonical h) h) (ite_snd_snd_canonical (by
    split
    · exact chUncorrectable_canonical h
    · exact chUncorrectable_canonical h
    · exact h) (by
    split
    · exact h
    · exact ite_canonical (chCorrected_canonical h) h
    · exact ite_canonical (chUncorrectable_canonical h) h))

theorem memRead_canonical {s line k e} (h : Calm s₀ s) :
    Calm s₀ (memRead s line k e).2 :=
  ite_snd_canonical h (by
    split
    next x5 =>
      exact snd_snd_canonical (chRead_canonical h) x5)

theorem memWrite_canonical {s line k d poison} (h : Calm s₀ s) :
    Calm s₀ (memWrite s line k d poison) :=
  ite_canonical h (setMemPoison_canonical ⟨fun hc => memRawSet_canonical _ _ (h.1 hc), h.2⟩)

theorem mpLocalWrite_calm {s t a n x} (h : Calm s₀ s) (e : mpLocalWrite s a n x = some t) : Calm s₀ t := by
  refine ⟨fun hc => mpLocalWrite_canonical (h.1 hc) e, ?_⟩
  unfold mpLocalWrite at e
  split at e
  · cases e; exact h.2
  · split_ifs at e <;> cases e <;> exact h.2
  · cases e

theorem setL3_canonical {s line x} (h : Calm s₀ s) :
    Calm s₀ (setL3 s line x) :=
  h

theorem wayError_canonical {s kind h slice way ue} (hm : Calm s₀ s) :
    Calm s₀ (wayError s kind h slice way ue) :=
  ite_canonical (ite_canonical hm hm) (ite_canonical hm hm)

theorem l3ReadHit_canonical {s line e} (h : Calm s₀ s) :
    Calm s₀ (l3ReadHit s line e).2 := by
  unfold l3ReadHit
  split
  · exact h
  · exact logErr_canonical (wayError_canonical h)
  · exact logErr_canonical (wayError_canonical (setL3_canonical h))

theorem l3Clean_canonical {s line e} (h : Calm s₀ s) :
    Calm s₀ (l3Clean s line e) :=
  ite_canonical (by
    split
    next x4 =>
      exact setL3_canonical (memWrite_canonical (snd_canonical (l3ReadHit_canonical h) x4))) h

theorem l3Install_canonical {s line d poison dirty k part world f} (h : Calm s₀ s) :
    Calm s₀ (l3Install s line d poison dirty k part world f).2 := by
  unfold l3Install
  dsimp only
  exact ite_snd_canonical h (setL3_canonical (by
    split
    · exact setL3_canonical (l3Clean_canonical h)
    · exact h))

theorem l3TagLost_canonical {s line way} (h : Calm s₀ s) :
    Calm s₀ (l3TagLost s line way) :=
  logErr_canonical (wayError_canonical (foldl_canonical (fun _ _ h3 => ite_canonical (setL3_canonical h3) h3) h))

theorem l3Lookup_canonical {s line f} (h : Calm s₀ s) :
    Calm s₀ (l3Lookup s line f) :=
  ite_canonical h (by
    split
    · exact l3TagLost_canonical (by
        split
        · exact logErr_canonical (wayError_canonical h)
        · exact h)
    · split
      · exact logErr_canonical (wayError_canonical h)
      · exact h)

theorem llcRead_canonical {s line k part world f} (h : Calm s₀ s) :
    Calm s₀ (llcRead s line k part world f).2 := by
  unfold llcRead
  dsimp only
  exact ite_snd_canonical (l3ReadHit_canonical (l3Lookup_canonical h)) (ite_snd_canonical (memRead_canonical (l3Lookup_canonical h)) (l3Install_canonical (memRead_canonical (l3Lookup_canonical h))))

theorem llcWrite_canonical {s line d mask poison k part world f} (h : Calm s₀ s) :
    Calm s₀ (llcWrite s line d mask poison k part world f) := by
  unfold llcWrite
  dsimp only
  exact ite_canonical (setL3_canonical (ite_canonical (l3Lookup_canonical h) (l3ReadHit_canonical (l3Lookup_canonical h)))) (ite_canonical (ite_snd_canonical (l3Lookup_canonical h) (memRead_canonical (l3Lookup_canonical h))) (ite_canonical (l3Install_canonical (ite_snd_canonical (l3Lookup_canonical h) (memRead_canonical (l3Lookup_canonical h)))) (memWrite_canonical (l3Install_canonical (ite_snd_canonical (l3Lookup_canonical h) (memRead_canonical (l3Lookup_canonical h)))))))

theorem l3Inval_canonical {s line} (h : Calm s₀ s) :
    Calm s₀ (l3Inval s line) :=
  setL3_canonical h

theorem setStopState_canonical {s st x} (h : Calm s₀ s) :
    Calm s₀ (setStopState s st x) :=
  setRgF_canonical h

theorem setIngress_canonical {s st x} (h : Calm s₀ s) :
    Calm s₀ (setIngress s st x) :=
  setRgF_canonical h

theorem incFab_canonical {s die hi lo} (h : Calm s₀ s) :
    Calm s₀ (incFab s die hi lo) :=
  incRgF_canonical h

theorem fencedPacket_canonical {s p} (h : Calm s₀ s) :
    Calm s₀ (fencedPacket s p) :=
  ite_canonical (send_canonical h) (incFab_canonical h)

theorem setEnd_canonical {s n x} (h : Calm s₀ s) :
    Calm s₀ (setEnd s n x) :=
  h

theorem takePacket_canonical {f s p t} (h : Calm s₀ s) (e : takePacket f s = some (p, t)) : Calm s₀ t :=
  takeAny_canonical h e

theorem putBack_canonical {s p} (h : Calm s₀ s) :
    Calm s₀ (putBack s p) :=
  h

theorem setDom_canonical {s d x} (h : Calm s₀ s) :
    Calm s₀ (setDom s d x) := by
  unfold setDom
  split
  · exact setIngress_canonical (setRgF_canonical h)
  · exact setRgF_canonical h

theorem abortClose_canonical {s d} (h : Calm s₀ s) :
    Calm s₀ (abortClose s d) := by
  unfold abortClose
  extract_lets s1 s2 _
  have hs1 : Calm s₀ s1 := setDom_canonical h
  have hs2 : Calm s₀ s2 := by
    unfold s2
    split
    · exact incFab_canonical hs1
    · exact hs1
  split
  · exact ite_canonical (setRgF_canonical hs2) hs2
  · exact hs2

theorem meetIngress_canonical {s p} (h : Calm s₀ s) :
    Calm s₀ (meetIngress s p).2 := by
  unfold meetIngress
  split
  · exact h
  · exact ite_snd_canonical h (ite_snd_canonical (abortClose_canonical h) (ite_snd_canonical (setIngress_canonical h) (setDom_canonical h)))

theorem wakeDom_canonical {s d} (h : Calm s₀ s) :
    Calm s₀ (wakeDom s d) :=
  ite_canonical (by
    split
    · exact ite_canonical (abortClose_canonical h) (setIngress_canonical h)
    · exact h) (ite_canonical (setDom_canonical h) h)

theorem reopenDom_canonical {s d} (h : Calm s₀ s) :
    Calm s₀ (reopenDom s d) := by
  unfold reopenDom
  split <;> exact setDom_canonical h

theorem inject_canonical {s p} (h : Calm s₀ s) :
    Calm s₀ (inject s p) :=
  foldl_canonical (fun _ _ h3 => send_canonical h3) h

theorem sendG_canonical {s p} (h : Calm s₀ s) :
    Calm s₀ (sendG s p) :=
  ite_canonical (inject_canonical h) (ite_canonical (send_canonical h) (incFab_canonical h))

theorem gArrive_canonical {s p} (h : Calm s₀ s) :
    Calm s₀ (gArrive s p) :=
  ite_canonical (raiseSrc_canonical (logErr_canonical (incFab_canonical h))) h

theorem dirSet_canonical {s line e} (h : Calm s₀ s) :
    Calm s₀ (dirSet s line e) :=
  h

theorem setBusy_canonical {s line b} (h : Calm s₀ s) :
    Calm s₀ (setBusy s line b) :=
  h

theorem breakResv_canonical {s by_ pa n} (h : Calm s₀ s) :
    Calm s₀ (breakResv s by_ pa n) :=
  foldl_canonical (by
    intro _ _ h3
    split
    · exact ite_canonical (dropResv_canonical h3) h3
    · exact h3) h

theorem sendComp_canonical {s m contended} (h : Calm s₀ s) :
    Calm s₀ (sendComp s m contended) :=
  send_canonical (ite_canonical (breakResv_canonical h) h)

theorem sendSnoops_canonical {s m c hs b} (h : Calm s₀ s) :
    Calm s₀ (sendSnoops s m c hs b).1 :=
  foldl_canonical (fun _ _ h3 => send_canonical h3) h

theorem fenceFrom_canonical {s src h} (hm : Calm s₀ s) :
    Calm s₀ (fenceFrom s src h) :=
  ite_canonical (stopCore_canonical (sendG_canonical (sendG_canonical hm))) (sendG_canonical (sendG_canonical hm))

theorem fenceHolder_canonical {s home h} (hm : Calm s₀ s) :
    Calm s₀ (fenceHolder s home h) :=
  fenceFrom_canonical hm

theorem poisonedAnswer_canonical {s m e d contended} (h : Calm s₀ s) :
    Calm s₀ (poisonedAnswer s m e d contended) := by
  unfold poisonedAnswer
  split
  · exact ite_canonical (send_canonical h) (send_canonical h)
  · exact sendComp_canonical h
  · exact sendComp_canonical h
  · exact send_canonical h
  · exact send_canonical h
  · exact send_canonical h
  · exact send_canonical h
  · exact send_canonical h
  · exact send_canonical h
  · exact send_canonical h
  · exact h

theorem failBusy_canonical {s line b h} (hm : Calm s₀ s) :
    Calm s₀ (failBusy s line b h) := by
  unfold failBusy
  extract_lets _ _ s3 _ s5 s6 s7 s8 s9 s10 s11 s12 s13 s14
  have hs3 : Calm s₀ s3 := setMemPoison_canonical hm
  have hs5 : Calm s₀ s5 := ite_canonical (setL3_canonical hs3) hs3
  have hs6 : Calm s₀ s6 := ite_canonical (send_canonical hs5) hs5
  have hs7 : Calm s₀ s7 := dirSet_canonical hs6
  have hs8 : Calm s₀ s8 := setBusy_canonical hs7
  have hs9 : Calm s₀ s9 := incRgF_canonical hs8
  have hs10 : Calm s₀ s10 := setRgF_canonical hs9
  have hs11 : Calm s₀ s11 := setRg_canonical hs10
  have hs12 : Calm s₀ s12 := logErr_canonical hs11
  have hs13 : Calm s₀ s13 := raiseSrc_canonical hs12
  have hs14 : Calm s₀ s14 := hs13
  exact fenceHolder_canonical hs14

theorem endFailed_canonical {s line b} (h : Calm s₀ s) :
    Calm s₀ (endFailed s line b) := by
  unfold endFailed
  split
  · exact dirSet_canonical (poisonedAnswer_canonical h)
  · exact dirSet_canonical h

theorem finishOp_canonical {s m contended f} (h : Calm s₀ s) :
    Calm s₀ (finishOp s m contended f) := by
  unfold finishOp
  dsimp only
  split
  · exact ite_canonical (send_canonical (llcRead_canonical h)) (send_canonical (ite_canonical (ite_canonical (llcRead_canonical h) (llcWrite_canonical (llcRead_canonical h))) (breakResv_canonical (ite_canonical (llcRead_canonical h) (llcWrite_canonical (llcRead_canonical h))))))
  · exact ite_canonical (send_canonical (llcRead_canonical h)) (ite_canonical (send_canonical (breakResv_canonical (llcWrite_canonical (llcRead_canonical h)))) (send_canonical (llcRead_canonical h)))
  · exact ite_canonical (send_canonical (llcRead_canonical h)) (send_canonical (llcRead_canonical h))
  · exact ite_canonical (send_canonical h) (send_canonical (breakResv_canonical (llcWrite_canonical h)))
  · exact send_canonical (l3Clean_canonical (l3Lookup_canonical h))
  · exact send_canonical (l3Inval_canonical (l3Clean_canonical (l3Lookup_canonical h)))
  · exact send_canonical (l3Inval_canonical h)
  · exact h

theorem storeRecalled_canonical {s m b} (h : Calm s₀ s) :
    Calm s₀ (storeRecalled s m b) := by
  unfold storeRecalled
  split
  · exact h
  · split
    · exact h
    · exact l3Inval_canonical (memWrite_canonical h)
    · exact llcWrite_canonical h

theorem dirAlloc_canonical {s line} (h : Calm s₀ s) :
    Calm s₀ (dirAlloc s line).2 := by
  unfold dirAlloc
  dsimp only
  split
  · exact h
  · exact ite_snd_canonical h (by split <;> exact h)

theorem openBusy_canonical {s line b owner} (h : Calm s₀ s) :
    Calm s₀ (openBusy s line b owner) := by
  unfold openBusy
  dsimp only
  split
  · exact ite_canonical (setBusy_canonical (endFailed_canonical (failBusy_canonical (setBusy_canonical h)))) (failBusy_canonical (setBusy_canonical h))
  · exact setBusy_canonical h

theorem recallAll_canonical {s line m kind} (h : Calm s₀ s) :
    Calm s₀ (recallAll s line m kind) :=
  openBusy_canonical (foldl_canonical (fun _ _ h3 => send_canonical h3) (foldl_canonical (fun _ _ h6 => send_canonical h6) h))

theorem startNone_canonical {s m f way} (h : Calm s₀ s) :
    Calm s₀ (startNone s m f way) := by
  unfold startNone
  dsimp only
  exact ite_canonical (send_canonical (llcRead_canonical h)) (by
    split
    · exact ite_canonical (send_canonical (dirSet_canonical (llcRead_canonical h))) (send_canonical (dirSet_canonical (llcRead_canonical h)))
    · exact sendComp_canonical (send_canonical (dirSet_canonical (llcRead_canonical h))))

theorem startVictim_canonical {s v m f} (h : Calm s₀ s) :
    Calm s₀ (startVictim s v m f) := by
  unfold startVictim
  dsimp only
  split
  · exact ite_canonical (startNone_canonical (dirSet_canonical (setBusy_canonical (recallAll_canonical h)))) (setBusy_canonical (recallAll_canonical h))
  · exact startNone_canonical (recallAll_canonical h)

theorem startRecallDir_canonical {s m} (h : Calm s₀ s) :
    Calm s₀ (startRecallDir s m) :=
  ite_canonical (dirSet_canonical (foldl_canonical (fun _ _ h3 => send_canonical h3) h)) (setBusy_canonical (foldl_canonical (fun _ _ h6 => send_canonical h6) h))

theorem recallDir_canonical {s m line} (h : Calm s₀ s) :
    Calm s₀ (recallDir s m line) := by
  unfold recallDir
  split
  · exact setBusy_canonical h
  · exact startRecallDir_canonical h

theorem dirFindings_canonical {s m f} (h : Calm s₀ s) :
    Calm s₀ (dirFindings s m f) := by
  unfold dirFindings
  split
  · exact h
  · exact logErr_canonical (wayError_canonical h)
  · exact logErr_canonical (wayError_canonical (foldl_canonical (fun _ _ h13 => recallDir_canonical h13) h))

theorem startFwd_canonical {s m c p invs} (h : Calm s₀ s) :
    Calm s₀ (startFwd s m c p invs) := by
  unfold startFwd
  dsimp only
  exact openBusy_canonical (sendSnoops_canonical (ite_fst_canonical h (send_canonical h)))

theorem startRecall_canonical {s m c owner invs} (h : Calm s₀ s) :
    Calm s₀ (startRecall s m c owner invs) :=
  openBusy_canonical (foldl_canonical (fun _ _ h3 => send_canonical h3) (foldl_canonical (fun _ _ h6 => send_canonical h6) h))

theorem startPut_canonical {s m f} (h : Calm s₀ s) :
    Calm s₀ (startPut s m f) :=
  ite_canonical (ite_canonical (dirSet_canonical h) h) (ite_canonical (send_canonical (dirSet_canonical (ite_canonical (llcWrite_canonical h) h))) (send_canonical h))

theorem startOwn_canonical {s m e f} (h : Calm s₀ s) :
    Calm s₀ (startOwn s m e f) := by
  unfold startOwn
  dsimp only
  exact ite_canonical (send_canonical (llcRead_canonical h)) (ite_canonical (sendComp_canonical (dirSet_canonical (sendSnoops_canonical (send_canonical (llcRead_canonical h))))) (setBusy_canonical (sendSnoops_canonical (send_canonical (llcRead_canonical h)))))

theorem startHeld_canonical {s m c st f} (h : Calm s₀ s) :
    Calm s₀ (startHeld s m c st f) := by
  unfold startHeld
  split
  next x4 =>
    exact ite_canonical (send_canonical (snd_canonical (llcRead_canonical h) x4)) (send_canonical (snd_canonical (llcRead_canonical h) x4))

theorem startNew_canonical {s m f} (h : Calm s₀ s) :
    Calm s₀ (startNew s m f) := by
  unfold startNew
  split
  next x4 =>
    exact startNone_canonical (snd_canonical (dirAlloc_canonical h) x4)
  next x8 =>
    exact startVictim_canonical (snd_canonical (dirAlloc_canonical h) x8)
  next x11 =>
    exact have hm := snd_canonical (dirAlloc_canonical h) x11; hm

theorem startX_canonical {s m e f} (h : Calm s₀ s) :
    Calm s₀ (homeStart.startX s m e f) := by
  unfold homeStart.startX
  split
  · exact startNew_canonical h
  · exact startOwn_canonical h
  · exact ite_canonical (sendComp_canonical (startHeld_canonical h)) (startFwd_canonical h)
  · exact ite_canonical (startOwn_canonical h) (startFwd_canonical h)

theorem startKill_canonical {s m e f} (h : Calm s₀ s) :
    Calm s₀ (homeStart.startKill s m e f) := by
  unfold homeStart.startKill
  split
  · exact finishOp_canonical h
  · exact startRecall_canonical h
  · exact startRecall_canonical h
  · exact ite_canonical (finishOp_canonical (dirSet_canonical (foldl_canonical (fun _ _ h13 => send_canonical h13) h))) (setBusy_canonical (foldl_canonical (fun _ _ h16 => send_canonical h16) h))

theorem homeStart_canonical {s m f} (h : Calm s₀ s) :
    Calm s₀ (homeStart s m f) := by
  unfold homeStart
  dsimp only
  split
  · exact startPut_canonical h
  · exact startPut_canonical h
  · exact startPut_canonical h
  · exact startPut_canonical h
  · exact startPut_canonical h
  · split
    · exact startNew_canonical h
    · exact ite_canonical (startHeld_canonical h) (ite_canonical (send_canonical (llcRead_canonical h)) (send_canonical (dirSet_canonical (llcRead_canonical h))))
    · exact ite_canonical (startHeld_canonical h) (ite_canonical (startHeld_canonical h) (startFwd_canonical h))
    · exact ite_canonical (startHeld_canonical h) (startFwd_canonical h)
    · exact ite_canonical (startHeld_canonical h) (startFwd_canonical h)
  · exact startX_canonical h
  · exact ite_canonical (startX_canonical h) (ite_canonical (sendComp_canonical (dirSet_canonical (sendSnoops_canonical h))) (openBusy_canonical (sendSnoops_canonical h)))
  · exact startRecallDir_canonical h
  · split
    · exact startRecall_canonical h
    · exact startRecall_canonical h
    · exact finishOp_canonical h
  · split
    · exact startRecall_canonical h
    · exact startRecall_canonical h
    · exact finishOp_canonical h
  · exact startKill_canonical h
  · exact startKill_canonical h
  · exact startKill_canonical h
  · exact startKill_canonical h
  · exact startKill_canonical h
  · exact h

theorem homeArrive_canonical {s m f} (h : Calm s₀ s) :
    Calm s₀ (homeArrive s m f) := by
  unfold homeArrive
  dsimp only
  exact ite_canonical h (ite_canonical (send_canonical h) (by
    split
    · exact setBusy_canonical (ite_canonical h (dirFindings_canonical h))
    · exact ite_canonical (ite_canonical h (dirFindings_canonical h)) (homeStart_canonical (ite_canonical h (dirFindings_canonical h)))))

theorem homeReach_canonical {s m f} (h : Calm s₀ s) :
    Calm s₀ (homeReach s m f) :=
  ite_canonical (fencedPacket_canonical h) (ite_canonical (putBack_canonical h) (homeArrive_canonical h))

theorem drainWaiting_canonical {line x1 x2} (h : Calm s₀ x2) :
    Calm s₀ (drainWaiting line x1 x2) := by
  induction x1 generalizing line x2 with
  | nil => exact h
  | cons a x1 ih =>
    unfold drainWaiting
    split
    · exact setBusy_canonical h
    · exact ih (homeStart_canonical h)

theorem retryWait_canonical {x0 x1} (h : Calm s₀ x1) :
    Calm s₀ (retryWait x0 x1) := by
  induction x0 generalizing x1 with
  | nil => exact h
  | cons a x0 ih => exact ih (homeArrive_canonical h)

theorem closeBusyThen_canonical {s line k} (h : Calm s₀ s) (h_k : ∀ (a : State), Calm s₀ a → Calm s₀ (k a)) :
    Calm s₀ (closeBusyThen s line k) := by
  unfold closeBusyThen
  split
  · exact h
  · exact retryWait_canonical (drainWaiting_canonical (h_k _ (setBusy_canonical h)))

theorem closeBusy_canonical {s line} (h : Calm s₀ s) :
    Calm s₀ (closeBusy s line) :=
  closeBusyThen_canonical h (fun _ h2 => h2)

theorem resumeDirWait_canonical {s wl} (h : Calm s₀ s) :
    Calm s₀ (resumeDirWait s wl) := by
  unfold resumeDirWait
  split
  · exact ite_canonical (drainWaiting_canonical (homeStart_canonical (setBusy_canonical h))) h
  · exact h

theorem tryFinish_canonical {s line} (h : Calm s₀ s) :
    Calm s₀ (tryFinish s line) := by
  unfold tryFinish
  split
  · exact h
  · exact ite_canonical h (by
      split
      · exact ite_canonical (closeBusy_canonical (endFailed_canonical h)) (closeBusy_canonical (dirSet_canonical (l3Clean_canonical (storeRecalled_canonical h))))
      · exact closeBusyThen_canonical (dirSet_canonical (ite_canonical h (storeRecalled_canonical h))) (fun _ h11 => resumeDirWait_canonical h11)
      · exact ite_canonical (closeBusy_canonical (endFailed_canonical h)) (by
          split
          · exact closeBusy_canonical (dirSet_canonical h)
          · exact closeBusy_canonical (sendComp_canonical (dirSet_canonical h))
          · exact closeBusy_canonical (sendComp_canonical (dirSet_canonical h))
          · exact closeBusy_canonical (dirSet_canonical (finishOp_canonical (storeRecalled_canonical h)))
          · exact closeBusy_canonical (dirSet_canonical (finishOp_canonical (storeRecalled_canonical h)))
          · exact closeBusy_canonical (finishOp_canonical (dirSet_canonical (storeRecalled_canonical h))))
      · exact h)

theorem homeAnswer_canonical {s p} (h : Calm s₀ s) :
    Calm s₀ (homeAnswer s p) :=
  ite_canonical h (by
    split
    · exact h
    · exact ite_canonical h (ite_canonical (ite_canonical (tryFinish_canonical (setBusy_canonical h)) h) (ite_canonical (tryFinish_canonical (setBusy_canonical (ite_canonical (dirSet_canonical h) h))) h)))

theorem homeTimeoutAt_canonical {s line h} (hm : Calm s₀ s) :
    Calm s₀ (homeTimeoutAt s line h) := by
  unfold homeTimeoutAt
  split
  · exact hm
  · exact ite_canonical (tryFinish_canonical (failBusy_canonical hm)) hm

theorem setHline_canonical {s h line x} (hm : Calm s₀ s) :
    Calm s₀ (setHline s h line x) :=
  hm

theorem mergeStore_canonical {s h line e} (hm : Calm s₀ s) :
    Calm s₀ (mergeStore s h line e) :=
  setHline_canonical hm

theorem performWaiting_canonical {s h line} (hm : Calm s₀ s) :
    Calm s₀ (performWaiting s h line) :=
  ite_canonical hm (dropFill_canonical (setCore_canonical (foldl_canonical (fun _ _ h3 => breakResv_canonical (mergeStore_canonical h3)) hm)))

theorem sendAns_canonical {s p h x a r} (hm : Calm s₀ s) :
    Calm s₀ (sendAns s p h x a r) :=
  send_canonical (by
    split
    · exact send_canonical hm
    · exact hm)

theorem lineRemoved_canonical {s p h line} (hm : Calm s₀ s) :
    Calm s₀ (lineRemoved s p h line) :=
  ite_canonical (dropResv_canonical hm) hm

theorem wakeCore_canonical {s h} (hm : Calm s₀ s) :
    Calm s₀ (wakeCore s h) :=
  ite_canonical (setCore_canonical hm) hm

theorem holderSnoop_canonical {s p} (h : Calm s₀ s) :
    Calm s₀ (holderSnoop s p) := by
  unfold holderSnoop
  dsimp only
  split
  · exact ite_canonical (send_canonical (setHline_canonical (ite_canonical (wakeCore_canonical (countEvent_canonical h)) h))) (setHline_canonical (ite_canonical (wakeCore_canonical (countEvent_canonical h)) h))
  · exact ite_canonical (send_canonical (ite_canonical (wakeCore_canonical (countEvent_canonical h)) h)) (setHline_canonical (ite_canonical (wakeCore_canonical (countEvent_canonical h)) h))
  · split
    · exact ite_canonical (wakeCore_canonical (countEvent_canonical h)) h
    · exact ite_canonical (lineRemoved_canonical (setHline_canonical (sendAns_canonical (ite_canonical (wakeCore_canonical (countEvent_canonical h)) h)))) (setHline_canonical (sendAns_canonical (ite_canonical (wakeCore_canonical (countEvent_canonical h)) h)))
  · split
    · exact ite_canonical (wakeCore_canonical (countEvent_canonical h)) h
    · exact sendAns_canonical (ite_canonical (wakeCore_canonical (countEvent_canonical h)) h)
  · split
    · exact ite_canonical (wakeCore_canonical (countEvent_canonical h)) h
    · exact ite_canonical (lineRemoved_canonical (setHline_canonical (sendAns_canonical (ite_canonical (wakeCore_canonical (countEvent_canonical h)) h)))) (setHline_canonical (sendAns_canonical (ite_canonical (wakeCore_canonical (countEvent_canonical h)) h)))

theorem actHeld_canonical {x0 x1} (h : Calm s₀ x1) :
    Calm s₀ (actHeld x0 x1) := by
  induction x0 generalizing x1 with
  | nil => exact h
  | cons a x0 ih => exact ih (holderSnoop_canonical h)

theorem becomeM_canonical {s h line contended} (hm : Calm s₀ s) :
    Calm s₀ (becomeM s h line contended) :=
  actHeld_canonical (performWaiting_canonical (delOutst_canonical (setHline_canonical hm)))

theorem holderData_canonical {s p} (h : Calm s₀ s) :
    Calm s₀ (holderData s p) :=
  ite_canonical h (by
    split
    · exact ite_canonical (ite_canonical (setCore_canonical (setHline_canonical (delOutst_canonical h))) (setHline_canonical (delOutst_canonical h))) (actHeld_canonical (setHline_canonical (delOutst_canonical h)))
    · exact ite_canonical (ite_canonical (becomeM_canonical (setHline_canonical h)) (setHline_canonical h)) h
    · exact ite_canonical (setHline_canonical h) h
    · exact h)

theorem holderComp_canonical {s p} (h : Calm s₀ s) :
    Calm s₀ (holderComp s p) :=
  ite_canonical h (by
    split
    · exact becomeM_canonical (setHline_canonical h)
    · exact ite_canonical (becomeM_canonical (setHline_canonical h)) (setHline_canonical h)
    · exact h)

theorem holderWb_canonical {s p} (h : Calm s₀ s) :
    Calm s₀ (holderWb s p) :=
  ite_canonical (delOutst_canonical (setHline_canonical h)) h

theorem deferError_canonical {s c va pa wnr} (h : Calm s₀ s) :
    Calm s₀ (deferError s c va pa wnr) := by
  unfold deferError
  dsimp only
  split
  · exact ite_canonical h (sysSet_canonical h)
  · exact coreErr_canonical (setCore_canonical h)

theorem failStores_canonical {s h line} (hm : Calm s₀ s) :
    Calm s₀ (holderErr.failStores s h line) :=
  ite_canonical hm (foldl_canonical (fun _ _ h3 => deferError_canonical h3) (setCore_canonical hm))

theorem holderErr_canonical {s p} (h : Calm s₀ s) :
    Calm s₀ (holderErr s p) :=
  ite_canonical h (by
    split
    · exact setHline_canonical (delOutst_canonical h)
    · exact failStores_canonical (setHline_canonical (delOutst_canonical h))
    · exact failStores_canonical (setHline_canonical (delOutst_canonical h))
    · exact delOutst_canonical h)

theorem issueReq_canonical {s h line c a} (hm : Calm s₀ s) :
    Calm s₀ (issueReq s h line c a).2 :=
  addOutst_canonical (setHline_canonical hm)

theorem evictReq_canonical {s h line} (hm : Calm s₀ s) :
    Calm s₀ (evictReq s h line).2 :=
  ite_snd_canonical (setHline_canonical hm) (addOutst_canonical (ite_canonical (countEvent_canonical (setHline_canonical hm)) (setHline_canonical hm)))

theorem sendOut_canonical {s p} (h : Calm s₀ s) :
    Calm s₀ (sendOut s p) :=
  send_canonical h

theorem rdirSet_canonical {s line e} (h : Calm s₀ s) :
    Calm s₀ (rdirSet s line e) :=
  dirSet_canonical h

theorem setAgentOp_canonical {s line b} (h : Calm s₀ s) :
    Calm s₀ (setAgentOp s line b) :=
  h

theorem agentSnoop_canonical {s b c h} (hm : Calm s₀ s) :
    Calm s₀ (agentSnoop s b c h) :=
  send_canonical hm

theorem agentSnoops_canonical {s b c hs} (h : Calm s₀ s) :
    Calm s₀ (agentSnoops s b c hs).1 :=
  foldl_canonical (fun _ _ h3 => agentSnoop_canonical h3) h

theorem sendPut_canonical {s line m st data poison} (h : Calm s₀ s) :
    Calm s₀ (sendPut s line m st data poison) :=
  ite_canonical (sendOut_canonical (setHline_canonical h)) (sendOut_canonical (setHline_canonical h))

theorem homeDone_canonical {s line b} (h : Calm s₀ s) :
    Calm s₀ (homeDone s line b) := by
  unfold homeDone
  dsimp only
  split
  · exact setAgentOp_canonical h
  · exact setHline_canonical (setAgentOp_canonical (rdirSet_canonical (sendOut_canonical (by
      split
      · exact sendOut_canonical h
      · exact h))))

theorem serveDone_canonical {s line b} (h : Calm s₀ s) :
    Calm s₀ (serveDone s line b) :=
  ite_canonical (ite_canonical (rdirSet_canonical (send_canonical (setAgentOp_canonical h))) (rdirSet_canonical (setAgentOp_canonical h))) (setHline_canonical (ite_canonical (delOutst_canonical (setBusy_canonical (send_canonical (rdirSet_canonical (ite_canonical (send_canonical (setAgentOp_canonical h)) (setAgentOp_canonical h)))))) (send_canonical (rdirSet_canonical (ite_canonical (send_canonical (setAgentOp_canonical h)) (setAgentOp_canonical h))))))

theorem agentDone_canonical {s line b} (h : Calm s₀ s) :
    Calm s₀ (agentDone s line b) := by
  unfold agentDone
  split
  · exact homeDone_canonical h
  · exact serveDone_canonical h
  · exact send_canonical (sendPut_canonical (setAgentOp_canonical (rdirSet_canonical h)))
  · split <;> exact sendPut_canonical (setAgentOp_canonical (rdirSet_canonical h))

theorem agentTry_canonical {s line} (h : Calm s₀ s) :
    Calm s₀ (agentTry s line) := by
  unfold agentTry
  split
  · exact ite_canonical (agentDone_canonical h) h
  · exact h

theorem agentOpen_canonical {s line b owner invs} (h : Calm s₀ s) :
    Calm s₀ (agentOpen s line b owner invs) := by
  unfold agentOpen
  split
  next x4 =>
    exact agentTry_canonical (setAgentOp_canonical (foldl_canonical (fun _ _ h7 => agentSnoop_canonical h7) (fst_canonical (by
      split
      · exact ite_fst_canonical (rdirSet_canonical h) (agentSnoops_canonical h)
      · exact h) x4)))

theorem agentAnswer_canonical {s p} (h : Calm s₀ s) :
    Calm s₀ (agentAnswer s p) := by
  unfold agentAnswer
  dsimp only
  split
  · exact h
  · exact ite_canonical h (ite_canonical (setAgentOp_canonical h) (ite_canonical h (agentTry_canonical (setAgentOp_canonical (ite_fst_canonical (agentSnoops_canonical h) h)))))

theorem agentSilent_canonical {s line h} (hm : Calm s₀ s) :
    Calm s₀ (agentSilent s line h) := by
  unfold agentSilent
  split
  · exact hm
  · exact ite_canonical hm (agentTry_canonical (setAgentOp_canonical (fenceFrom_canonical (logErr_canonical (rdirSet_canonical hm)))))

theorem agentTimeoutIf_canonical {s h line} (hm : Calm s₀ s) :
    Calm s₀ (agentTimeoutIf s h line) := by
  unfold agentTimeoutIf
  split
  · exact hm
  · exact ite_canonical (agentSilent_canonical hm) hm

theorem deliverTo_canonical {s p} (h : Calm s₀ s) :
    Calm s₀ (deliverTo s p) :=
  ite_canonical (agentAnswer_canonical h) (by
    split
    · exact holderSnoop_canonical h
    · exact holderSnoop_canonical h
    · exact holderSnoop_canonical h
    · exact holderSnoop_canonical h
    · exact holderSnoop_canonical h
    · exact holderData_canonical h
    · exact holderData_canonical h
    · exact holderData_canonical h
    · exact holderData_canonical h
    · exact holderComp_canonical h
    · exact homeAnswer_canonical h
    · exact homeAnswer_canonical h
    · exact homeAnswer_canonical h
    · exact holderWb_canonical h
    · exact holderWb_canonical h
    · exact holderErr_canonical h
    · exact h)

theorem deliver_canonical {s p} (h : Calm s₀ s) :
    Calm s₀ (deliver s p) :=
  ite_canonical (fencedPacket_canonical h) (by
    split
    next x3 =>
      exact deliverTo_canonical (snd_canonical (meetIngress_canonical h) x3)
    next x6 =>
      exact snd_canonical (meetIngress_canonical h) x6)

theorem settle_canonical {line x1 x2} (h : Calm s₀ x2) :
    Calm s₀ (settle line x1 x2) := by
  induction x1 generalizing line x2 with
  | zero => exact h
  | succ x1 ih =>
    unfold settle
    split
    · exact h
    next x6 =>
      exact ih (deliver_canonical (takeAny_canonical h x6))

theorem transact_canonical {s p f} (h : Calm s₀ s) :
    Calm s₀ (transact s p f) :=
  settle_canonical (homeReach_canonical h)

theorem runReq_canonical {s p f} (h : Calm s₀ s) :
    Calm s₀ (runReq s p f) :=
  ite_canonical (transact_canonical h) (send_canonical h)

theorem addFill_canonical {s c f} (h : Calm s₀ s) :
    Calm s₀ (addFill s c f) :=
  setCore_canonical h

theorem addAsk_canonical {s c tx cmd addr} (h : Calm s₀ s) :
    Calm s₀ (addAsk s c tx cmd addr) :=
  setCore_canonical (addOutst_canonical h)

theorem dropTlbAt_canonical {s c pa} (h : Calm s₀ s) :
    Calm s₀ (dropTlbAt s c pa) :=
  setCore_canonical h

theorem cacheEntries_canonical {s c xs} (h : Calm s₀ s) :
    Calm s₀ (cacheEntries s c xs) :=
  setCore_canonical h

theorem countWalk_canonical {s c n} (h : Calm s₀ s) :
    Calm s₀ (countWalk s c n) :=
  ite_canonical h (countTimes_canonical (countEvent_canonical h))

theorem passEnd_canonical {s c a va p} (h : Calm s₀ s) :
    Calm s₀ (passEnd s c a va p).2 := by
  unfold passEnd
  split
  · exact h
  · exact h
  · exact h
  · exact cacheEntries_canonical h

theorem iackTake_canonical {s c g} (h : Calm s₀ s) :
    Calm s₀ (iackTake s c g) :=
  setCore_canonical (ite_canonical (setRgF_canonical (setRgF_canonical h)) (ite_canonical (setRgF_canonical (setRgF_canonical h)) h))

theorem readIack_canonical {s c} (h : Calm s₀ s) :
    Calm s₀ (readIack s c).2 := by
  unfold readIack
  split
  · exact iackTake_canonical h
  · exact h

theorem writeIeoi_canonical {s c i} (h : Calm s₀ s) :
    Calm s₀ (writeIeoi s c i) :=
  ite_canonical (setCore_canonical (ite_canonical (setRgF_canonical h) (ite_canonical (setRgF_canonical h) h))) h

theorem sgiSet_canonical {s t num w lv prio} (h : Calm s₀ s) :
    Calm s₀ (sgiSet s t num w lv prio) :=
  setCore_canonical h

theorem writeIsgi_canonical {s c v} (h : Calm s₀ s) :
    Calm s₀ (writeIsgi s c v) :=
  ite_canonical (foldl_canonical (by
    intro _ _ h3
    split
    · exact ite_canonical h3 (sgiSet_canonical h3)
    · exact h3) h) (by
    split
    · exact sgiSet_canonical h
    · exact incRgF_canonical h)

theorem hwAfter_canonical {s o r} (h : Calm s₀ s) :
    Calm s₀ (hwAfter s o r).2 := by
  unfold hwAfter
  split
  · exact h
  · exact h
  · split
    · exact sendG_canonical h
    · exact h
  · exact h
  · exact h
  · exact ite_canonical (setCore_canonical h) h
  · exact h

theorem readAgain_canonical {s c} (h : Calm s₀ s) :
    Calm s₀ (readAgain s c) :=
  h

theorem takeSig_canonical {s c g} (h : Calm s₀ s) :
    Calm s₀ (takeSig s c g) :=
  takeExcAt_canonical (countEvent_canonical h)

theorem takeDeferred_canonical {s c} (h : Calm s₀ s) :
    Calm s₀ (takeDeferred s c) := by
  unfold takeDeferred
  split
  · exact h
  · exact takeExcAt_canonical (setCore_canonical h)

theorem deliverIrq_canonical {s intid} (h : Calm s₀ s) :
    Calm s₀ (deliverIrq s intid) := by
  unfold deliverIrq
  split
  · exact h
  · exact ite_canonical h (setCore_canonical h)

theorem doneNext_canonical {s c} (h : Calm s₀ s) :
    Calm s₀ (doneNext s c).2 :=
  h

theorem busError_canonical {s c va pa wnr poison} (h : Calm s₀ s) :
    Calm s₀ (busError s c va pa wnr poison).2 :=
  ite_canonical (countEvent_canonical (coreErr_canonical (coreErr_canonical h))) (coreErr_canonical h)

theorem stepHalt_canonical {s c} (h : Calm s₀ s) :
    Calm s₀ (stepHalt s c) :=
  ite_canonical (sysSet_canonical (setCore_canonical h)) h

theorem complete_canonical {s c pc} (h : Calm s₀ s) :
    Calm s₀ (complete s c pc) :=
  stepHalt_canonical (retireAt_canonical h)

theorem raise_canonical {s c e} (h : Calm s₀ s) :
    Calm s₀ (raise s c e) :=
  stepHalt_canonical (takeExc_canonical (setCore_canonical h))

theorem endBody_canonical {s c r} (h : Calm s₀ s) :
    Calm s₀ (endBody s c r) := by
  unfold endBody
  split
  · exact complete_canonical h
  · exact raise_canonical h
  · exact stepHalt_canonical (dropFills_canonical h)
  · exact h

theorem rstEnd_canonical {s op code} (h : Calm s₀ s) :
    Calm s₀ (rstEnd s op code) :=
  setRgF_canonical (setRgF_canonical h)

theorem rstDone_canonical {s op t code} (h : Calm s₀ s) :
    Calm s₀ (rstDone s op t code) :=
  ite_canonical (rstEnd_canonical h) h

theorem guardWord_canonical {ok_ word body x3} (h_body : ∀ (a : State), Calm s₀ a → Calm s₀ (body a).2) (h : Calm s₀ x3) :
    Calm s₀ (guardWord ok_ word body x3).2 :=
  ite_snd_canonical (h_body _ h) h

theorem notePage_canonical {s c kind x} (h : Calm s₀ s) :
    Calm s₀ (notePage s c kind x) :=
  ite_canonical h (setCore_canonical h)

theorem countParity_canonical {s c pa} (h : Calm s₀ s) :
    Calm s₀ (countParity s c pa) :=
  ite_canonical (coreThreshold_canonical (sysSet_canonical (coreErr_canonical h))) (sysSet_canonical (coreErr_canonical h))

theorem hioFound_canonical {s line a} (h : Calm s₀ s) :
    Calm s₀ (hioFound s line a) := by
  unfold hioFound
  split
  · exact logErr_canonical (wayError_canonical h)
  · exact logErr_canonical (wayError_canonical (setHline_canonical h))
  · exact logErr_canonical (wayError_canonical (setHline_canonical h))
  · exact h

theorem arrFound_canonical {s c line a own} (h : Calm s₀ s) :
    Calm s₀ (arrFound s c line a own) := by
  unfold arrFound
  dsimp only
  exact ite_canonical (hioFound_canonical h) (ite_canonical h (by
    split
    · exact h
    · exact logErr_canonical (countParity_canonical h)
    · exact logErr_canonical (countParity_canonical h)
    · exact logErr_canonical (countParity_canonical h)
    · exact stopCore_canonical (logErr_canonical (countParity_canonical h))
    · exact ite_canonical (logErr_canonical (setHline_canonical (countParity_canonical h))) (ite_canonical (runReq_canonical (evictReq_canonical (logErr_canonical (countParity_canonical h)))) (ite_canonical (logErr_canonical (setHline_canonical (countParity_canonical h))) h))))

theorem worldEvict_canonical {s c line w} (h : Calm s₀ s) :
    Calm s₀ (worldEvict s c line w) := by
  unfold worldEvict
  dsimp only
  exact ite_canonical (runReq_canonical (evictReq_canonical h)) h

theorem l2Room_canonical {s c line} (h : Calm s₀ s) :
    Calm s₀ (l2Room s c line) := by
  unfold l2Room
  dsimp only
  exact ite_canonical h (by
    split
    · exact h
    · exact runReq_canonical (evictReq_canonical h))

theorem request_canonical {s c line cmd a} (h : Calm s₀ s) :
    Calm s₀ (request s c line cmd a) :=
  ite_canonical (ite_canonical h (l2Room_canonical h)) (runReq_canonical (addOutst_canonical (setHline_canonical (countEvent_canonical (countEvent_canonical (countEvent_canonical (ite_canonical h (l2Room_canonical h))))))))

theorem mpLocalRead_canonical {s a n} (h : Calm s₀ s) :
    Calm s₀ (mpLocalRead s a n).2 := by
  unfold mpLocalRead
  split
  · exact h
  · exact h
  · exact h
  · exact ite_snd_canonical h (ite_snd_canonical h (ite_snd_canonical h h))
  · exact h

theorem devMem_canonical {s m} (h : Calm s₀ s) :
    Calm s₀ (devMem s m) :=
  ite_canonical (transact_canonical h) (send_canonical h)

theorem sendDevRd_canonical {s c acc w sizeCode} (h : Calm s₀ s) :
    Calm s₀ (sendDevRd s c acc w sizeCode) :=
  ite_canonical (devMem_canonical (setCore_canonical (addOutst_canonical (countEvent_canonical h)))) (setCore_canonical (addOutst_canonical (send_canonical (countEvent_canonical h))))

theorem finishLoad_canonical {s c d v} (h : Calm s₀ s) :
    Calm s₀ (finishLoad s c d v) := by
  unfold finishLoad
  dsimp only
  split
  · exact dSet_canonical (by
      split
      · exact aSet_canonical h
      · exact h)
  · exact aSet_canonical (by
      split
      · exact aSet_canonical h
      · exact h)
  · exact qSet_canonical (by
      split
      · exact aSet_canonical h
      · exact h)

theorem putStore_canonical {c va size x ps s} (h : Calm s₀ s) :
    Calm s₀ (putStore c va size x ps s).2 :=
  ite_snd_canonical (by
    split
    · exact ite_snd_canonical (ite_snd_canonical h (ite_snd_canonical h (by
        split
        · exact ite_snd_canonical (ite_snd_canonical h (setCore_canonical h)) h
        · exact h))) (ite_snd_canonical (countEvent_canonical h) (setCore_canonical h))
    · split
      next x14 =>
        exact mpLocalWrite_calm h x14
      · exact h) (ite_snd_canonical (countEvent_canonical h) (setCore_canonical h))

theorem tryBar_canonical {s c} (h : Calm s₀ s) :
    Calm s₀ (tryBar s c) := by
  unfold tryBar
  dsimp only
  split
  · exact h
  · exact ite_canonical (complete_canonical (ite_canonical (contextSync_canonical (setCore_canonical h)) (setCore_canonical h))) h

theorem sbRemove_canonical {s c i} (h : Calm s₀ s) :
    Calm s₀ (sbRemove s c i) :=
  tryBar_canonical (setCore_canonical (by
    split
    · exact dropFill_canonical h
    · exact h))

theorem sbMark_canonical {s c i tx} (h : Calm s₀ s) :
    Calm s₀ (sbMark s c i tx) :=
  setCore_canonical h

theorem sbFail_canonical {s c i} (h : Calm s₀ s) :
    Calm s₀ (sbFail s c i) := by
  unfold sbFail
  split
  · exact h
  · exact sbRemove_canonical (deferError_canonical h)

theorem drainWb_canonical {s c i e arr} (h : Calm s₀ s) :
    Calm s₀ (drainWb s c i e arr) :=
  ite_canonical (sbRemove_canonical (breakResv_canonical (mergeStore_canonical (worldEvict_canonical (arrFound_canonical h))))) (ite_canonical (worldEvict_canonical (arrFound_canonical h)) (ite_canonical (sbMark_canonical (worldEvict_canonical (arrFound_canonical h))) (tryBar_canonical (request_canonical (sbMark_canonical (worldEvict_canonical (arrFound_canonical h)))))))

theorem drainDev_canonical {s c i e} (h : Calm s₀ s) :
    Calm s₀ (drainDev s c i e) :=
  ite_canonical (devMem_canonical (sbMark_canonical (addOutst_canonical (countEvent_canonical h)))) (sbMark_canonical (addOutst_canonical (send_canonical (countEvent_canonical h))))

theorem bodyT_canonical {c o maj fn f x5} (h : Calm s₀ x5) :
    Calm s₀ (bodyT c o maj fn f x5).2 :=
  guardWord_canonical (fun _ h2 => dSet_canonical h2) h

theorem bodyT1_canonical {c o fn f x4} (h : Calm s₀ x4) :
    Calm s₀ (bodyT1 c o fn f x4).2 :=
  guardWord_canonical (fun _ h2 => dSet_canonical h2) h

theorem bodyK_canonical {c o maj sx f x5} (h : Calm s₀ x5) :
    Calm s₀ (bodyK c o maj sx f x5).2 :=
  guardWord_canonical (fun _ h2 => dSet_canonical h2) h

theorem bodyShi_canonical {c o kind f x4} (h : Calm s₀ x4) :
    Calm s₀ (bodyShi c o kind f x4).2 :=
  guardWord_canonical (fun _ h2 => dSet_canonical h2) h

theorem bodyDAA_canonical {c o fn f x4} (h : Calm s₀ x4) :
    Calm s₀ (bodyDAA c o fn f x4).2 :=
  guardWord_canonical (fun _ h2 => dSet_canonical h2) h

theorem bodyAAD_canonical {c o fn f x4} (h : Calm s₀ x4) :
    Calm s₀ (bodyAAD c o fn f x4).2 :=
  guardWord_canonical (fun _ h2 => aSet_canonical h2) h

theorem bodyB_canonical {c o maj taken x4} (h : Calm s₀ x4) :
    Calm s₀ (bodyB c o maj taken x4).2 :=
  guardWord_canonical (fun _ h2 => countFree_canonical (countEvent_canonical h2)) h

theorem bodyMovi_canonical {c o x2} (h : Calm s₀ x2) :
    Calm s₀ (bodyMovi c o x2).2 :=
  guardWord_canonical (fun _ h2 => dSet_canonical h2) h

theorem bodyMovk_canonical {c o x2} (h : Calm s₀ x2) :
    Calm s₀ (bodyMovk c o x2).2 :=
  guardWord_canonical (fun _ h2 => dSet_canonical h2) h

theorem bodyAddai_canonical {c o x2} (h : Calm s₀ x2) :
    Calm s₀ (bodyAddai c o x2).2 :=
  guardWord_canonical (fun _ h2 => aSet_canonical h2) h

theorem bodyAdrpc_canonical {c o x2} (h : Calm s₀ x2) :
    Calm s₀ (bodyAdrpc c o x2).2 :=
  guardWord_canonical (fun _ h2 => aSet_canonical h2) h

theorem bodyMov_canonical {c o fn srcA dstA x5} (h : Calm s₀ x5) :
    Calm s₀ (bodyMov c o fn srcA dstA x5).2 :=
  guardWord_canonical (fun _ h2 => ite_canonical (aSet_canonical h2) (dSet_canonical h2)) h

theorem bodyJr_canonical {c o x2} (h : Calm s₀ x2) :
    Calm s₀ (bodyJr c o x2).2 :=
  guardWord_canonical (fun _ h2 => ite_snd_canonical h2 h2) h

theorem bodyJrl_canonical {c o x2} (h : Calm s₀ x2) :
    Calm s₀ (bodyJrl c o x2).2 :=
  guardWord_canonical (fun _ h2 => ite_snd_canonical h2 (aSet_canonical h2)) h

theorem train_canonical {s c i up} (h : Calm s₀ s) :
    Calm s₀ (train s c i up) :=
  setCore_canonical h

theorem scondFail_canonical {s c rd} (h : Calm s₀ s) :
    Calm s₀ (scondFail s c rd).2 :=
  dSet_canonical (countEvent_canonical (dropResv_canonical h))

theorem finishFar_canonical {s c va pa rd pred kind p} (h : Calm s₀ s) :
    Calm s₀ (finishFar s c va pa rd pred kind p).2 :=
  ite_snd_canonical (ite_canonical (countEvent_canonical (coreErr_canonical (coreErr_canonical (ite_canonical (countEvent_canonical (countEvent_canonical h)) (countEvent_canonical h))))) (coreErr_canonical (ite_canonical (countEvent_canonical (countEvent_canonical h)) (countEvent_canonical h)))) (ite_canonical (dSet_canonical (dropResv_canonical (ite_canonical (ite_canonical (countEvent_canonical (countEvent_canonical h)) (countEvent_canonical h)) (train_canonical (ite_canonical (countEvent_canonical (countEvent_canonical h)) (countEvent_canonical h)))))) (dSet_canonical (ite_canonical (ite_canonical (countEvent_canonical (countEvent_canonical h)) (countEvent_canonical h)) (train_canonical (ite_canonical (countEvent_canonical (countEvent_canonical h)) (countEvent_canonical h))))))

theorem maintDone_canonical {s c} (h : Calm s₀ s) :
    Calm s₀ (maintDone s c) := by
  unfold maintDone
  dsimp only
  split
  · exact h
  · exact tryBar_canonical (ite_canonical (deferError_canonical (setCore_canonical h)) (setCore_canonical h))

theorem qGuard_canonical {c word body x3} (h_body : ∀ (a : State), Calm s₀ a → Calm s₀ (body a).2) (h : Calm s₀ x3) :
    Calm s₀ (qGuard c word body x3).2 := by
  unfold qGuard
  split
  · exact h
  · exact h_body _ h

theorem bodyY_canonical {c o maj fn ok_ body x6} (h_body : ∀ (a : State), Calm s₀ a → Calm s₀ (body a).2) (h : Calm s₀ x6) :
    Calm s₀ (bodyY c o maj fn ok_ body x6).2 :=
  guardWord_canonical (fun _ h2 => qGuard_canonical (fun _ h4 => h_body _ h4) h2) h

theorem bodyYY_canonical {c o fn f x4} (h : Calm s₀ x4) :
    Calm s₀ (bodyYY c o fn f x4).2 :=
  bodyY_canonical (fun _ h2 => qSet_canonical h2) h

theorem bodyQmac_canonical {c o x2} (h : Calm s₀ x2) :
    Calm s₀ (bodyQmac c o x2).2 :=
  bodyY_canonical (fun _ h2 => qSet_canonical h2) h

theorem bodyQins_canonical {c o l x3} (h : Calm s₀ x3) :
    Calm s₀ (bodyQins c o l x3).2 :=
  bodyY_canonical (fun _ h2 => qSet_canonical h2) h

theorem bodyQext_canonical {c o l x3} (h : Calm s₀ x3) :
    Calm s₀ (bodyQext c o l x3).2 :=
  bodyY_canonical (fun _ h2 => dSet_canonical h2) h

theorem bodyQbcast_canonical {c o l x3} (h : Calm s₀ x3) :
    Calm s₀ (bodyQbcast c o l x3).2 :=
  bodyY_canonical (fun _ h2 => qSet_canonical h2) h

theorem bodyQmov_canonical {c o l x3} (h : Calm s₀ x3) :
    Calm s₀ (bodyQmov c o l x3).2 :=
  bodyY_canonical (fun _ h2 => qSet_canonical h2) h

theorem bodyQsum_canonical {c o l x3} (h : Calm s₀ x3) :
    Calm s₀ (bodyQsum c o l x3).2 :=
  bodyY_canonical (fun _ h2 => dSet_canonical h2) h

theorem bodyQclmul_canonical {c o x2} (h : Calm s₀ x2) :
    Calm s₀ (bodyQclmul c o x2).2 :=
  bodyY_canonical (fun _ h2 => qSet_canonical h2) h

theorem bodyQcrc32c_canonical {c o x2} (h : Calm s₀ x2) :
    Calm s₀ (bodyQcrc32c c o x2).2 :=
  bodyY_canonical (fun _ h2 => dSet_canonical h2) h

theorem bodyQpopct_canonical {c o x2} (h : Calm s₀ x2) :
    Calm s₀ (bodyQpopct c o x2).2 :=
  bodyY_canonical (fun _ h2 => dSet_canonical h2) h

theorem blkAdvance_canonical {s c bop o n size} (h : Calm s₀ s) :
    Calm s₀ (blkAdvance s c bop o n size) :=
  dSet_canonical (ite_canonical (aSet_canonical (aSet_canonical h)) (aSet_canonical h))

theorem blkResult_canonical {s c o v} (h : Calm s₀ s) :
    Calm s₀ (blkResult s c o v) :=
  ite_canonical h (dSet_canonical h)

theorem hlDevice_canonical {s typ origin arg payload} (h : Calm s₀ s) :
    Calm s₀ (hlDevice s typ origin arg payload) :=
  ite_canonical h h

theorem hlDenied_canonical {s b code what} (h : Calm s₀ s) :
    Calm s₀ (hlDenied s b code what) :=
  hlDevice_canonical h

theorem hlWorldCfg_canonical {s b off old new} (h : Calm s₀ s) :
    Calm s₀ (hlWorldCfg s b off old new) :=
  hlDevice_canonical h

theorem ownWrite_canonical {s b owned off act} (h : Calm s₀ s) (h_act : Calm s₀ act) :
    Calm s₀ (ownWrite s b owned off act) :=
  ite_canonical (hlDenied_canonical h) h_act

theorem mpWrite_canonical {s b owned off act} (h : Calm s₀ s) (h_act : Calm s₀ act) :
    Calm s₀ (mpWrite s b owned off act) :=
  ite_canonical h_act (ownWrite_canonical h h)

theorem setStk_canonical {s n x} (h : Calm s₀ s) :
    Calm s₀ (setStk s n x) :=
  h

theorem reVolt_canonical {s n} (h : Calm s₀ s) :
    Calm s₀ (reVolt s n) :=
  setRgF_canonical (ite_canonical h (setStk_canonical h))

theorem reVoltAll_canonical {s} (h : Calm s₀ s) :
    Calm s₀ (reVoltAll s) :=
  foldl_canonical (fun _ _ h3 => reVolt_canonical h3) h

theorem stkvolt_canonical {s c} (h : Calm s₀ s) :
    Calm s₀ (stkvolt s c).2 := by
  unfold stkvolt
  dsimp only
  exact ite_snd_canonical (freeWord_canonical h) h

theorem jtemp_canonical {s c} (h : Calm s₀ s) :
    Calm s₀ (jtemp s c).2 :=
  h

theorem resumeDisabled_canonical {s} (h : Calm s₀ s) :
    Calm s₀ (resumeDisabled s) :=
  foldl_canonical (fun _ _ h3 => ite_canonical (setCore_canonical h3) h3) h

theorem writeDbgauth_canonical {s b v} (h : Calm s₀ s) :
    Calm s₀ (writeDbgauth s b v) :=
  resumeDisabled_canonical (ite_canonical h (hlDevice_canonical h))

theorem ownLine_canonical {s c line a} (h : Calm s₀ s) :
    Calm s₀ (ownLine s c line a).2 :=
  ite_snd_canonical (setHline_canonical (worldEvict_canonical h)) (ite_snd_canonical (worldEvict_canonical h) (ite_snd_canonical (worldEvict_canonical h) (ite_snd_canonical (worldEvict_canonical h) (ite_snd_canonical (setHline_canonical (request_canonical (worldEvict_canonical h))) (ite_snd_canonical (request_canonical (worldEvict_canonical h)) (request_canonical (worldEvict_canonical h)))))))

theorem cntSaveLines_canonical {s c pa a bytes x5} (h : Calm s₀ s) :
    Calm s₀ (cntSaveLines s c pa a bytes x5).2 := by
  induction x5 generalizing s c pa a bytes with
  | nil => exact h
  | cons a x5 ih =>
    unfold cntSaveLines
    dsimp only
    split
    next x3 =>
      exact ih (breakResv_canonical (setHline_canonical (snd_canonical (ownLine_canonical h) x3)))
    next x8 =>
      exact snd_canonical (ownLine_canonical h) x8

theorem cntLoad_canonical {s c bytes} (h : Calm s₀ s) :
    Calm s₀ (cntLoad s c bytes) :=
  foldl_canonical (fun _ _ h3 => sysForce_canonical h3) h

theorem cntKeep_canonical {old s c} (h_s : Calm s₀ s) :
    Calm s₀ (cntKeep old s c) :=
  foldl_canonical (fun _ _ h3 => sysSet_canonical h3) h_s

theorem bodyCall_canonical {c o sf cls t lo hi x7} (h : Calm s₀ x7) :
    Calm s₀ (bodyCall c o sf cls t lo hi x7).2 :=
  ite_snd_canonical h h

theorem bodyBar_canonical {c o sf b x4} (h : Calm s₀ x4) :
    Calm s₀ (bodyBar c o sf b x4).2 :=
  guardWord_canonical (fun _ h2 => tryBar_canonical (setCore_canonical h2)) h

theorem tinvSpread_canonical {s t} (h : Calm s₀ s) :
    Calm s₀ (tinvSpread s t) :=
  h

theorem tinvAck_canonical {s issuer target} (h : Calm s₀ s) :
    Calm s₀ (tinvAck s issuer target) :=
  tryBar_canonical (setCore_canonical h)

theorem bcastSend_canonical {s p n done t} (h : Calm s₀ s) :
    Calm s₀ (bcastSend s p n done t) :=
  send_canonical h

theorem bcastPart_canonical {s p n} (h : Calm s₀ s) :
    Calm s₀ (bcastPart s p n) := by
  unfold bcastPart
  dsimp only
  split
  · exact ite_canonical (bcastSend_canonical h) h
  · exact ite_canonical (ite_canonical (bcastSend_canonical h) h) (ite_canonical (bcastSend_canonical (ite_canonical (bcastSend_canonical h) h)) (ite_canonical (tinvAck_canonical (ite_canonical (bcastSend_canonical h) h)) (ite_canonical (bcastSend_canonical h) h)))

theorem bcastHere_canonical {s n} (h : Calm s₀ s) :
    Calm s₀ (bcastHere s n) :=
  ite_canonical h (bcastPart_canonical h)

theorem sendTinv_canonical {s c t} (h : Calm s₀ s) :
    Calm s₀ (sendTinv s c t) := by
  unfold sendTinv
  extract_lets _ s2 s3
  have hs2 : Calm s₀ s2 := setCore_canonical h
  have hs3 : Calm s₀ s3 := setCore_canonical h
  exact ite_canonical hs2 (tinvSpread_canonical hs3)

theorem bodyTinv_canonical {c o sf kind x4} (h : Calm s₀ x4) :
    Calm s₀ (bodyTinv c o sf kind x4).2 :=
  ite_snd_canonical h (ite_snd_canonical h (ite_snd_canonical h (sendTinv_canonical h)))

theorem tinvArrive_canonical {s c} (h : Calm s₀ s) :
    Calm s₀ (tinvArrive s c) := by
  unfold tinvArrive
  split
  · exact h
  · exact ite_canonical (tinvAck_canonical (setCore_canonical h)) (bcastHere_canonical (setCore_canonical h))

theorem bodyUacc_canonical {c o sf on x4} (h : Calm s₀ x4) :
    Calm s₀ (bodyUacc c o sf on x4).2 :=
  ite_snd_canonical h (doneNext_canonical (setCore_canonical h))

theorem enterWaitst_canonical {s c} (h : Calm s₀ s) :
    Calm s₀ (enterWaitst s c) :=
  ite_canonical (setDom_canonical h) h

theorem bodyWait_canonical {c o x2} (h : Calm s₀ x2) :
    Calm s₀ (bodyWait c o x2).2 :=
  ite_snd_canonical h (enterWaitst_canonical (setCore_canonical h))

theorem endWait_canonical {s c} (h : Calm s₀ s) :
    Calm s₀ (endWait s c) :=
  ite_canonical (complete_canonical (ite_canonical (reopenDom_canonical (setCore_canonical h)) (setCore_canonical h))) h

theorem idleReturn_canonical {s c} (h : Calm s₀ s) :
    Calm s₀ (idleReturn s c) :=
  ite_canonical (enterWaitst_canonical h) h

theorem devStoreError_canonical {s c i} (h : Calm s₀ s) :
    Calm s₀ (devStoreError s c i) := by
  unfold devStoreError
  split
  · exact h
  · exact ite_canonical h (ite_canonical (sbRemove_canonical (delOutst_canonical (by
      split
      next x9 =>
        exact takePacket_canonical h x9
      · exact h))) (sbFail_canonical (delOutst_canonical (by
      split
      next x15 =>
        exact takePacket_canonical h x15
      · exact h))))

theorem drainWindowEnd_canonical {s c} (h : Calm s₀ s) :
    Calm s₀ (drainWindowEnd s c) := by
  unfold drainWindowEnd
  dsimp only
  split
  · exact h
  · exact ite_canonical h (ite_canonical (setCore_canonical h) (sysSet_canonical (setCore_canonical h)))

theorem vreqWrite_canonical {s b n v} (h : Calm s₀ s) :
    Calm s₀ (vreqWrite s b n v) :=
  ite_canonical (hlDenied_canonical h) (reVolt_canonical (setRgF_canonical h))

theorem setDrifts_canonical {s n ds} (h : Calm s₀ s) :
    Calm s₀ (setDrifts s n ds) :=
  foldl_canonical (fun _ _ h3 => setCore_canonical h3) h

theorem ageStack_canonical {s n ds} (h : Calm s₀ s) :
    Calm s₀ (ageStack s n ds) :=
  ite_canonical h (reVolt_canonical (ite_canonical (raiseSrc_canonical (logErr_canonical (setStk_canonical (setDrifts_canonical h)))) (setStk_canonical (setDrifts_canonical h))))

theorem ageFabric_canonical {s d} (h : Calm s₀ s) :
    Calm s₀ (ageFabric s d) :=
  ite_canonical h (ite_canonical (logErr_canonical h) h)

theorem holdAtAgent_canonical {s m} (h : Calm s₀ s) :
    Calm s₀ (holdAtAgent s m) :=
  ite_canonical (send_canonical h) (putBack_canonical h)

theorem askHome_canonical {s m c} (h : Calm s₀ s) :
    Calm s₀ (askHome s m c) :=
  setBusy_canonical (sendOut_canonical (addOutst_canonical (setHline_canonical h)))

theorem remotePut_canonical {s m} (h : Calm s₀ s) :
    Calm s₀ (remotePut s m) :=
  ite_canonical (ite_canonical (sendPut_canonical (ite_canonical (rdirSet_canonical h) h)) (ite_canonical (rdirSet_canonical h) h)) (ite_canonical (send_canonical h) (agentOpen_canonical h))

theorem agentEvict_canonical {s m} (h : Calm s₀ s) :
    Calm s₀ (agentEvict s m) :=
  ite_canonical h (by
    split
    · exact h
    · exact agentOpen_canonical h)

theorem remoteArrive_canonical {s m} (h : Calm s₀ s) :
    Calm s₀ (remoteArrive s m) :=
  ite_canonical h (ite_canonical (holdAtAgent_canonical h) (ite_canonical (remotePut_canonical h) (ite_canonical (holdAtAgent_canonical (agentEvict_canonical h)) (by
    split
    · split
      · exact agentOpen_canonical h
      · exact askHome_canonical h
    · split
      · exact ite_canonical (agentOpen_canonical h) (ite_canonical (askHome_canonical h) (askHome_canonical h))
      · exact askHome_canonical h
    · exact ite_canonical (by
        split
        · exact ite_canonical (agentOpen_canonical h) (ite_canonical (askHome_canonical h) (askHome_canonical h))
        · exact askHome_canonical h) (ite_canonical (agentOpen_canonical h) (askHome_canonical h))
    · exact h))))

theorem remoteEnd_canonical {s line tx x} (h : Calm s₀ s) :
    Calm s₀ (remoteEnd s line tx x) :=
  delOutst_canonical (setBusy_canonical (setHline_canonical h))

theorem remoteOwn_canonical {s line m kept contended} (h : Calm s₀ s) :
    Calm s₀ (remoteOwn s line m kept contended) := by
  unfold remoteOwn
  dsimp only
  split <;> exact agentOpen_canonical h

theorem remoteAnswer_canonical {s p} (h : Calm s₀ s) :
    Calm s₀ (remoteAnswer s p) := by
  unfold remoteAnswer
  dsimp only
  split
  · exact ite_canonical (setHline_canonical h) h
  · exact ite_canonical h (by
      split
      · exact ite_canonical (remoteOwn_canonical h) (ite_canonical (remoteOwn_canonical h) (setHline_canonical h))
      · exact send_canonical (remoteEnd_canonical h)
      · exact ite_canonical (ite_canonical (remoteOwn_canonical (send_canonical h)) (setHline_canonical (send_canonical h))) (ite_canonical (remoteEnd_canonical (send_canonical h)) (remoteEnd_canonical (rdirSet_canonical (send_canonical h)))))

theorem dropLocalFill_canonical {s line} (h : Calm s₀ s) :
    Calm s₀ (dropLocalFill s line) := by
  unfold dropLocalFill
  split
  · exact ite_canonical (setHline_canonical h) h
  · exact h

theorem ackNone_canonical {s p} (h : Calm s₀ s) :
    Calm s₀ (ackNone s p) :=
  sendOut_canonical h

theorem remoteSnoop_canonical {s p} (h : Calm s₀ s) :
    Calm s₀ (remoteSnoop s p) :=
  ite_canonical (putBack_canonical h) (by
    split
    · exact ite_canonical (ackNone_canonical (dropLocalFill_canonical (setHline_canonical h))) (putBack_canonical h)
    · exact ite_canonical (ackNone_canonical h) (putBack_canonical h)
    · split
      · exact h
      · exact sendOut_canonical (by
          split
          · exact sendOut_canonical h
          · exact h)
    · split
      · exact ite_canonical (ackNone_canonical h) h
      · split <;> exact agentOpen_canonical h)

theorem remoteDeliver_canonical {s p} (h : Calm s₀ s) :
    Calm s₀ (remoteDeliver s p) :=
  ite_canonical (remoteSnoop_canonical h) (remoteAnswer_canonical h)

theorem launch_canonical {s p f} (h : Calm s₀ s) :
    Calm s₀ (launch s p f) :=
  ite_canonical (homeReach_canonical h) (ite_canonical (ite_canonical (remoteArrive_canonical h) (sendOut_canonical h)) (send_canonical h))

theorem holderPut_canonical {s c h line e} (hm : Calm s₀ s) :
    Calm s₀ (holderPut s c h line e) := by
  unfold holderPut
  dsimp only
  split
  next x4 =>
    exact launch_canonical (takePacket_canonical hm x4)
  · exact ite_canonical (launch_canonical (evictReq_canonical (arrFound_canonical hm))) hm

theorem agentRequest_canonical {s m f} (h : Calm s₀ s) :
    Calm s₀ (agentRequest s m f) := by
  unfold agentRequest
  split
  next x4 =>
    exact homeReach_canonical (takePacket_canonical h x4)
  · exact launch_canonical (addOutst_canonical h)

theorem deliverMsg_canonical {s c h line} (hm : Calm s₀ s) :
    Calm s₀ (deliverMsg s c h line) := by
  unfold deliverMsg
  split
  next x4 =>
    exact ite_canonical (remoteDeliver_canonical (takePacket_canonical hm x4)) (deliver_canonical (takePacket_canonical hm x4))
  · exact hm

theorem deliverSnoop_canonical {s c h line e} (hm : Calm s₀ s) :
    Calm s₀ (deliverSnoop s c h line e) := by
  unfold deliverSnoop
  split
  next x4 =>
    exact ite_canonical (remoteDeliver_canonical (takePacket_canonical hm x4)) (deliver_canonical (arrFound_canonical (takePacket_canonical hm x4)))
  · exact hm

theorem afterMsg_canonical {s h} (hm : Calm s₀ s) :
    Calm s₀ (afterMsg s h) :=
  ite_canonical (enterWaitst_canonical (tryBar_canonical hm)) hm

theorem homeTimeoutIf_canonical {s h line} (hm : Calm s₀ s) :
    Calm s₀ (homeTimeoutIf s h line) :=
  ite_canonical (agentTimeoutIf_canonical hm) (by
    split
    · exact hm
    · exact ite_canonical (homeTimeoutAt_canonical hm) hm)

theorem setFence_canonical {s die h b} (hm : Calm s₀ s) :
    Calm s₀ (setFence s die h b) :=
  ite_canonical (setRgF_canonical hm) (setRgF_canonical hm)

theorem hubArrive_canonical {s src tx d} (h : Calm s₀ s) :
    Calm s₀ (hubArrive s src tx d) :=
  h

theorem devDone_canonical {s c a p} (h : Calm s₀ s) :
    Calm s₀ (devDone s c a p) := by
  unfold devDone
  extract_lets _ s2 _ _ s5
  have hs2 : Calm s₀ s2 := setCore_canonical h
  have hs5 : Calm s₀ s5 := ite_canonical hs2 hs2
  exact ite_canonical (raise_canonical (ite_canonical (countEvent_canonical (coreErr_canonical (coreErr_canonical hs2))) (coreErr_canonical hs2))) (by
    split
    · exact setCore_canonical hs2
    · exact complete_canonical (finishLoad_canonical hs5))

theorem winArrive_canonical {s pa rd v} (h : Calm s₀ s) :
    Calm s₀ (winArrive s pa rd v) :=
  h

theorem rdRspArrive_canonical {s src tx} (h : Calm s₀ s) :
    Calm s₀ (rdRspArrive s src tx) := by
  unfold rdRspArrive
  split
  · exact h
  next x6 =>
    exact ite_canonical (hubArrive_canonical (delOutst_canonical (takePacket_canonical h x6))) (by
      split
      · exact delOutst_canonical (takePacket_canonical h x6)
      · split
        · exact winArrive_canonical (delOutst_canonical (takePacket_canonical h x6))
        · exact ite_canonical (delOutst_canonical (takePacket_canonical h x6)) (by
            split
            · exact ite_canonical (devDone_canonical (delOutst_canonical (takePacket_canonical h x6))) (delOutst_canonical (takePacket_canonical h x6))
            · exact ite_canonical (addFill_canonical (delOutst_canonical (takePacket_canonical h x6))) (delOutst_canonical (takePacket_canonical h x6))))

theorem writeDone_canonical {s c tx bad} (h : Calm s₀ s) :
    Calm s₀ (writeDone s c tx bad) := by
  unfold writeDone
  dsimp only
  split
  · exact ite_canonical (sbFail_canonical h) (sbRemove_canonical h)
  · exact setCore_canonical h

theorem wrCmpArrive_canonical {s src tx} (h : Calm s₀ s) :
    Calm s₀ (wrCmpArrive s src tx) := by
  unfold wrCmpArrive
  split
  · exact h
  next x6 =>
    exact ite_canonical (hubArrive_canonical (by
      split
      · exact ite_canonical (incRgF_canonical (delOutst_canonical (takePacket_canonical h x6))) (delOutst_canonical (takePacket_canonical h x6))
      · exact delOutst_canonical (takePacket_canonical h x6))) (by
      split
      · split
        · exact ite_canonical (incRgF_canonical (delOutst_canonical (takePacket_canonical h x6))) (delOutst_canonical (takePacket_canonical h x6))
        · exact delOutst_canonical (takePacket_canonical h x6)
      · exact ite_canonical (by
          split
          · exact ite_canonical (incRgF_canonical (delOutst_canonical (takePacket_canonical h x6))) (delOutst_canonical (takePacket_canonical h x6))
          · exact delOutst_canonical (takePacket_canonical h x6)) (by
          split
          · exact winArrive_canonical (by
              split
              · exact ite_canonical (incRgF_canonical (delOutst_canonical (takePacket_canonical h x6))) (delOutst_canonical (takePacket_canonical h x6))
              · exact delOutst_canonical (takePacket_canonical h x6))
          · exact ite_canonical (setCore_canonical (dropFill_canonical (by
              split
              · exact ite_canonical (incRgF_canonical (delOutst_canonical (takePacket_canonical h x6))) (delOutst_canonical (takePacket_canonical h x6))
              · exact delOutst_canonical (takePacket_canonical h x6)))) (by
              split
              · exact ite_canonical (incRgF_canonical (delOutst_canonical (takePacket_canonical h x6))) (delOutst_canonical (takePacket_canonical h x6))
              · exact delOutst_canonical (takePacket_canonical h x6))
          · exact enterWaitst_canonical (writeDone_canonical (by
              split
              · exact ite_canonical (incRgF_canonical (delOutst_canonical (takePacket_canonical h x6))) (delOutst_canonical (takePacket_canonical h x6))
              · exact delOutst_canonical (takePacket_canonical h x6)))))

theorem errAtCore_canonical {s c tx p} (h : Calm s₀ s) :
    Calm s₀ (errAtCore s c tx p) :=
  ite_canonical (holderErr_canonical h) (ite_canonical (writeDone_canonical h) (by
    split
    · exact ite_canonical (raise_canonical (ite_canonical (countEvent_canonical (coreErr_canonical (coreErr_canonical (setCore_canonical h)))) (coreErr_canonical (setCore_canonical h)))) (writeDone_canonical h)
    · split
      · exact addFill_canonical h
      · exact writeDone_canonical h))

end Sys2Proof.Machine
end

section
/-! PROOFS. The canonical form of the memories (O60): accesses of the core, its instructions, the homes. -/
namespace Sys2Proof.Machine

open Sys2Proof

variable {s₀ : State}

theorem readNc_canonical {s c line a} (h : Calm s₀ s) :
    Calm s₀ (readNc s c line a).2 := by
  unfold readNc
  dsimp only
  split
  · exact h
  · exact ite_snd_canonical h (ite_snd_canonical (by
      split
      next x9 =>
        exact ite_snd_canonical (takeAny_canonical (transact_canonical (newTxid_canonical h)) x9) (takeAny_canonical (transact_canonical (newTxid_canonical h)) x9)
      · exact addAsk_canonical (transact_canonical (newTxid_canonical h))) (ite_snd_canonical (addAsk_canonical (send_canonical (newTxid_canonical h))) (newTxid_canonical h)))

theorem casEntry_canonical {s c w u} (h : Calm s₀ s) :
    Calm s₀ (casEntry s c w u).2 := by
  unfold casEntry
  dsimp only
  split
  · exact h
  · exact ite_snd_canonical h (ite_snd_canonical (by
      split
      next x9 =>
        exact ite_snd_canonical (takeAny_canonical (transact_canonical (newTxid_canonical h)) x9) (dropFill_canonical (takeAny_canonical (transact_canonical (newTxid_canonical h)) x9))
      · exact addAsk_canonical (dropTlbAt_canonical (transact_canonical (newTxid_canonical h)))) (ite_snd_canonical (addAsk_canonical (send_canonical (dropTlbAt_canonical (newTxid_canonical h)))) (newTxid_canonical h)))

theorem casAll_canonical {s c w x3} (h : Calm s₀ s) :
    Calm s₀ (casAll s c w x3).2 := by
  induction x3 generalizing s c w with
  | nil => exact h
  | cons a x3 ih =>
    unfold casAll
    split
    next x3 =>
      exact ih (snd_canonical (casEntry_canonical h) x3)
    · exact casEntry_canonical h

theorem xlatLoop_canonical {c a va x3 x4 x5} (h : Calm s₀ x5) :
    Calm s₀ (xlatLoop c a va x3 x4 x5).2 := by
  induction x3 generalizing c a va x4 x5 with
  | zero => exact h
  | succ x3 ih =>
    unfold xlatLoop
    extract_lets _ _
    split
    · split
      next x9 =>
        exact snd_canonical (readNc_canonical h) x9
      next x14 =>
        exact ih (addFill_canonical (snd_canonical (readNc_canonical h) x14))
      next x17 =>
        exact ih (addFill_canonical (snd_canonical (readNc_canonical h) x17))
    · split
      next x22 =>
        exact passEnd_canonical (countWalk_canonical (snd_canonical (casAll_canonical h) x22))
      next x25 =>
        exact ih (countWalk_canonical (snd_canonical (casAll_canonical h) x25))
      next x28 =>
        exact snd_canonical (casAll_canonical h) x28
      next x33 =>
        exact countWalk_canonical (snd_canonical (casAll_canonical h) x33)

theorem xlat_canonical {s c kind op mis va fresh} (h : Calm s₀ s) :
    Calm s₀ (xlat s c kind op mis va fresh).2 :=
  ite_snd_canonical h (xlatLoop_canonical h)

theorem hwAsk_canonical {s o} (h : Calm s₀ s) :
    Calm s₀ (hwAsk s o).2 := by
  unfold hwAsk
  split
  · split
    · exact h
    · split
      next x11 =>
        extract_lets _ wait13 s14
        have hwait13 : ∀ x0, Calm s₀ x0 → Calm s₀ (wait13 x0) := by
          intro _ h16
          unfold wait13
          extract_lets __src17
          have h__src17 : Calm s₀ __src17 := addOutst_canonical h16
          exact h__src17
        have hs14 : Calm s₀ s14 := transact_canonical (snd_canonical (newTxid_canonical h) x11)
        split
        · exact sendOut_canonical (hwait13 _ (snd_canonical (newTxid_canonical h) x11))
        · split
          next x23 =>
            exact takeAny_canonical hs14 x23
          · exact hwait13 _ hs14

theorem hwRun_canonical {x0 x1 x2} (h : Calm s₀ x1) :
    Calm s₀ (hwRun x0 x1 x2) := by
  induction x0 generalizing x1 x2 with
  | zero => exact h
  | succ x0 ih =>
    exact ite_canonical (ite_canonical (setCore_canonical h) h) (by
      split
      next x3 =>
        exact snd_canonical (ite_snd_canonical h (ite_snd_canonical h (hwAsk_canonical h))) x3
      next x7 =>
        split
        next x11 =>
          exact ih (snd_canonical (hwAfter_canonical (snd_canonical (ite_snd_canonical h (ite_snd_canonical h (hwAsk_canonical h))) x7)) x11)
        next x14 =>
          exact snd_canonical (hwAfter_canonical (snd_canonical (ite_snd_canonical h (ite_snd_canonical h (hwAsk_canonical h))) x7)) x14)

theorem hwDo_canonical {s st w rec a} (h : Calm s₀ s) :
    Calm s₀ (hwDo s st w rec a) :=
  hwRun_canonical h

theorem rereadPend_canonical {s c} (h : Calm s₀ s) :
    Calm s₀ (rereadPend s c) :=
  ite_canonical (hwDo_canonical h) h

theorem hwArrive_canonical {s o r} (h : Calm s₀ s) :
    Calm s₀ (hwArrive s o r) := by
  unfold hwArrive
  extract_lets s1
  have hs1 : Calm s₀ s1 := h
  split
  next x5 =>
    exact hwRun_canonical (snd_canonical (hwAfter_canonical hs1) x5)
  next x8 =>
    exact snd_canonical (hwAfter_canonical hs1) x8

theorem readViack_canonical {s c} (h : Calm s₀ s) :
    Calm s₀ (readViack s c).2 := by
  unfold readViack
  split
  · exact h
  · exact sysSet_canonical (setCore_canonical (hwDo_canonical (readAgain_canonical h)))

theorem writeVieoi_canonical {s c i} (h : Calm s₀ s) :
    Calm s₀ (writeVieoi s c i) :=
  rereadPend_canonical (ite_canonical (sysSet_canonical h) h)

theorem postTo_canonical {s pa v} (h : Calm s₀ s) :
    Calm s₀ (postTo s pa v) :=
  hwDo_canonical h

theorem fetchLine_canonical {s c pc pa keyid} (h : Calm s₀ s) :
    Calm s₀ (fetchLine s c pc pa keyid).2 := by
  unfold fetchLine
  extract_lets bad1 _
  have hbad1 : ∀ x0, Calm s₀ (bad1 x0).2 := by
    intro _
    unfold bad1
    split
    next x7 =>
      exact snd_canonical (busError_canonical h) x7
  exact ite_snd_canonical (ite_snd_canonical (hbad1 _) (ite_snd_canonical (hbad1 _) (countFree_canonical h))) (ite_snd_canonical (countFree_canonical h) (hbad1 _))

theorem fetchSide_canonical {s c} (h : Calm s₀ s) :
    Calm s₀ (fetchSide s c).2 := by
  unfold fetchSide
  extract_lets _
  split
  · exact h
  · split
    next x10 =>
      exact snd_canonical (xlat_canonical h) x10
    next x13 =>
      exact snd_canonical (xlat_canonical h) x13
    next x17 =>
      exact ite_snd_canonical (by
        split
        · exact fetchLine_canonical (snd_canonical (xlat_canonical h) x17)
        · split
          next x26 =>
            exact snd_canonical (busError_canonical (snd_canonical (xlat_canonical h) x17)) x26
        · exact snd_canonical (xlat_canonical h) x17) (fetchLine_canonical (snd_canonical (xlat_canonical h) x17))

theorem runAfter_canonical {s c first body} (h : Calm s₀ s) (h_body : ∀ (a : State), Calm s₀ a → Calm s₀ (body a).2) :
    Calm s₀ (runAfter s c first body) := by
  unfold runAfter
  extract_lets s1
  have hs1 : Calm s₀ s1 := rstDone_canonical h
  exact ite_canonical (by
    split
    next x5 =>
      exact raise_canonical (snd_canonical (fetchSide_canonical hs1) x5)
    next x8 =>
      exact snd_canonical (fetchSide_canonical hs1) x8
    next x11 =>
      exact endBody_canonical (h_body _ (snd_canonical (fetchSide_canonical hs1) x11))) h

theorem runInstr_canonical {s c body} (h : Calm s₀ s) (h_body : ∀ (a : State), Calm s₀ a → Calm s₀ (body a).2) :
    Calm s₀ (runInstr s c body) :=
  runAfter_canonical h (fun _ h2 => h_body _ h2)

theorem checkAccess_canonical {s c va size kind op fresh} (h : Calm s₀ s) :
    Calm s₀ (checkAccess s c va size kind op fresh).2 :=
  ite_snd_canonical h (by
    split
    · exact h
    · split
      next x8 =>
        exact snd_canonical (xlat_canonical h) x8
      next x12 =>
        exact ite_snd_canonical (snd_canonical (xlat_canonical h) x12) (by
          split
          next x15 =>
            exact snd_canonical (xlat_canonical (snd_canonical (xlat_canonical h) x12)) x15
          · exact snd_canonical (xlat_canonical h) x12
          · exact snd_canonical (xlat_canonical h) x12)
      next x27 =>
        exact ite_snd_canonical (notePage_canonical (snd_canonical (xlat_canonical h) x27)) (by
          split
          next x30 =>
            exact snd_canonical (xlat_canonical (snd_canonical (xlat_canonical h) x27)) x30
          next x34 =>
            exact snd_canonical (xlat_canonical (snd_canonical (xlat_canonical h) x27)) x34
          next x38 =>
            exact notePage_canonical (notePage_canonical (snd_canonical (xlat_canonical (snd_canonical (xlat_canonical h) x27)) x38))))

theorem readWb_look_canonical {s c line} {o : Option (Got × State)} {r : Got × State} (h : Calm s₀ s)
    (ho : o = let x := hline s c line
      if validSt x.st then some (Got.data x.data x.poison, s)
      else if x.err then some (.err, setHline s c line {})
      else match (getCore s c).served.find? (fun f => f.line == line && !f.cas && !f.err) with
        | some f => some (.data f.data f.poison, s)
        | none => if transSt x.st then some (.wait, s) else none) (e : o = some r) : Calm s₀ r.2 := by
  rw [ho] at e
  extract_lets x at e
  split at e
  · cases e
    exact h
  · split at e
    · cases e
      exact setHline_canonical h
    · split at e
      · cases e
        exact h
      · split at e
        · cases e
          exact h
        · cases e

theorem readWb_canonical {s c line a arr} (h : Calm s₀ s) : Calm s₀ (readWb s c line a arr).2 := by
  unfold readWb
  extract_lets s1 s2 look s3
  have h2 : Calm s₀ s2 := worldEvict_canonical (arrFound_canonical h)
  have h3 : Calm s₀ s3 := request_canonical h2
  have hlook : ∀ {u r}, Calm s₀ u → look u = some r → Calm s₀ r.2 :=
    fun hu e => readWb_look_canonical (o := look _) hu rfl e
  clear_value s1 s2 look s3
  split
  next e => exact countFree_canonical (hlook h2 e)
  next e => exact hlook h2 e
  · split
    · cases e : look s3 with
      | none => exact h3
      | some r => exact hlook h3 e
    · exact h2

theorem readLine_canonical {s c p arr} (h : Calm s₀ s) :
    Calm s₀ (readLine s c p arr).2 :=
  ite_snd_canonical (readNc_canonical h) (readWb_canonical h)

theorem gather_canonical {s c arr x3 x4 x5} (h : Calm s₀ s) :
    Calm s₀ (gather s c arr x3 x4 x5).2 := by
  induction x3 generalizing s c arr x4 x5 with
  | nil => exact h
  | cons a x3 ih =>
    unfold gather
    split
    next x3 =>
      exact snd_canonical (readLine_canonical h) x3
    next x6 =>
      split
      next x10 =>
        exact snd_canonical (busError_canonical (snd_canonical (readLine_canonical h) x6)) x10
    next x15 =>
      exact ite_snd_canonical (by
        split
        next x19 =>
          exact snd_canonical (busError_canonical (snd_canonical (readLine_canonical h) x15)) x19) (ih (snd_canonical (readLine_canonical h) x15))

theorem doLoad_canonical {c va size d e s} (h : Calm s₀ s) :
    Calm s₀ (doLoad c va size d e s).2 := by
  unfold doLoad
  extract_lets _
  split
  next x5 =>
    exact snd_canonical (checkAccess_canonical h) x5
  next x8 =>
    exact snd_canonical (checkAccess_canonical h) x8
  next x12 =>
    exact ite_snd_canonical (by
      split
      · exact ite_snd_canonical (ite_snd_canonical (snd_canonical (checkAccess_canonical h) x12) (ite_snd_canonical (by
          split
          next x19 =>
            exact snd_canonical (busError_canonical (snd_canonical (checkAccess_canonical h) x12)) x19) (by
          split
          · exact ite_snd_canonical (finishLoad_canonical (have hm := snd_canonical (checkAccess_canonical h) x12; hm)) (ite_snd_canonical (sendDevRd_canonical (have hm := snd_canonical (checkAccess_canonical h) x12; hm)) (by
              split
              next x27 =>
                exact snd_canonical (busError_canonical (snd_canonical (checkAccess_canonical h) x12)) x27))
          · exact ite_snd_canonical (sendDevRd_canonical (snd_canonical (checkAccess_canonical h) x12)) (by
              split
              next x33 =>
                exact snd_canonical (busError_canonical (snd_canonical (checkAccess_canonical h) x12)) x33)))) (by
          split
          next x37 =>
            exact finishLoad_canonical (snd_canonical (gather_canonical (snd_canonical (checkAccess_canonical h) x12)) x37)
          next x41 =>
            exact snd_canonical (gather_canonical (snd_canonical (checkAccess_canonical h) x12)) x41
          next x44 =>
            exact snd_canonical (gather_canonical (snd_canonical (checkAccess_canonical h) x12)) x44)
      · split
        next x50 =>
          exact finishLoad_canonical (snd_canonical (mpLocalRead_canonical (snd_canonical (checkAccess_canonical h) x12)) x50)
        next x53 =>
          split
          next x57 =>
            exact snd_canonical (busError_canonical (snd_canonical (mpLocalRead_canonical (snd_canonical (checkAccess_canonical h) x12)) x53)) x57) (ite_snd_canonical (ite_snd_canonical (snd_canonical (checkAccess_canonical h) x12) (sendDevRd_canonical (snd_canonical (checkAccess_canonical h) x12))) (by
      split
      next x61 =>
        exact finishLoad_canonical (snd_canonical (gather_canonical (snd_canonical (checkAccess_canonical h) x12)) x61)
      next x65 =>
        exact snd_canonical (gather_canonical (snd_canonical (checkAccess_canonical h) x12)) x65
      next x68 =>
        exact snd_canonical (gather_canonical (snd_canonical (checkAccess_canonical h) x12)) x68))

theorem doStore_canonical {c va size x q base fresh s} (h : Calm s₀ s) :
    Calm s₀ (doStore c va size x q base fresh s).2 := by
  unfold doStore
  split
  next x4 =>
    exact snd_canonical (checkAccess_canonical h) x4
  next x7 =>
    exact snd_canonical (checkAccess_canonical h) x7
  next x11 =>
    split
    next x14 =>
      split
      · exact aSet_canonical (snd_canonical (putStore_canonical (snd_canonical (checkAccess_canonical h) x11)) x14)
      · exact snd_canonical (putStore_canonical (snd_canonical (checkAccess_canonical h) x11)) x14
    next x21 =>
      exact snd_canonical (putStore_canonical (snd_canonical (checkAccess_canonical h) x11)) x21
    next x25 =>
      split
      next x29 =>
        exact snd_canonical (busError_canonical (snd_canonical (putStore_canonical (snd_canonical (checkAccess_canonical h) x11)) x25)) x29

theorem drainNc_canonical {s c i e} (h : Calm s₀ s) :
    Calm s₀ (drainNc s c i e) := by
  unfold drainNc
  dsimp only
  exact ite_canonical (by
    split
    next x4 =>
      exact ite_canonical (sbRemove_canonical (takeAny_canonical (transact_canonical (sbMark_canonical (newTxid_canonical h))) x4)) (sbFail_canonical (takeAny_canonical (transact_canonical (sbMark_canonical (newTxid_canonical h))) x4))
    · exact addOutst_canonical (transact_canonical (sbMark_canonical (newTxid_canonical h)))) (addOutst_canonical (send_canonical (sbMark_canonical (newTxid_canonical h))))

theorem drainEntry_canonical {s c i arr} (h : Calm s₀ s) :
    Calm s₀ (drainEntry s c i arr) :=
  ite_canonical h (by
    split
    · exact h
    · exact ite_canonical (drainDev_canonical h) (ite_canonical (sbFail_canonical h) (ite_canonical (drainNc_canonical h) (drainWb_canonical h))))

theorem nearDo_canonical {s c va p o aop found} (h : Calm s₀ s) :
    Calm s₀ (nearDo s c va p o aop found).2 := by
  unfold nearDo
  split
  · exact ite_snd_canonical (by
      split
      next x6 =>
        exact snd_canonical (busError_canonical h) x6) (dSet_canonical (setCore_canonical h))
  · exact ite_snd_canonical (dSet_canonical (breakResv_canonical (dropResv_canonical (setHline_canonical h)))) (scondFail_canonical h)
  · exact ite_snd_canonical (by
      split
      next x14 =>
        exact snd_canonical (busError_canonical h) x14) (dSet_canonical (breakResv_canonical (setHline_canonical (countEvent_canonical (train_canonical h)))))

theorem nearAtomic_canonical {s c va p o aop arr held} (h : Calm s₀ s) :
    Calm s₀ (nearAtomic s c va p o aop arr held).2 := by
  unfold nearAtomic
  extract_lets _ _ s3 s4 _ fail6 _ _ s9 s10 _
  have hs3 : Calm s₀ s3 := arrFound_canonical h
  have hs4 : Calm s₀ s4 := worldEvict_canonical hs3
  have hfail6 : ∀ x0, Calm s₀ x0 → Calm s₀ (fail6 x0).2 := by
    intro _ h13
    unfold fail6
    split
    next x17 =>
      exact snd_canonical (busError_canonical (setHline_canonical h13)) x17
  have hs9 : Calm s₀ s9 := setCore_canonical hs4
  have hs10 : Calm s₀ s10 := request_canonical hs9
  exact ite_snd_canonical (hfail6 _ hs4) (ite_snd_canonical (ite_snd_canonical (hfail6 _ hs4) (nearDo_canonical hs4)) (ite_snd_canonical hs4 (ite_snd_canonical (hfail6 _ hs4) (ite_snd_canonical (hfail6 _ hs10) (ite_snd_canonical (nearDo_canonical hs10) hs10)))))

theorem nearLres_canonical {s c va p o arr} (h : Calm s₀ s) :
    Calm s₀ (nearLres s c va p o arr).2 := by
  unfold nearLres
  extract_lets _
  split
  next x4 =>
    split
    next x8 =>
      exact snd_canonical (busError_canonical (snd_canonical (readWb_canonical h) x4)) x8
  next x11 =>
    exact snd_canonical (readWb_canonical h) x11
  next x16 =>
    exact ite_snd_canonical (nearDo_canonical (snd_canonical (readWb_canonical h) x16)) (snd_canonical (readWb_canonical h) x16)

theorem farAtomic_canonical {s c va p o aop kind held} (h : Calm s₀ s) :
    Calm s₀ (farAtomic s c va p o aop kind held).2 := by
  unfold farAtomic
  extract_lets _ _ _
  split
  · exact h
  · split
    next x9 =>
      extract_lets _ _ hold12 s13
      have hhold12 : ∀ x0, Calm s₀ x0 → Calm s₀ (hold12 x0).2 := by
        intro _ h15
        unfold hold12
        extract_lets s16 _
        have hs16 : Calm s₀ s16 := addOutst_canonical h15
        exact setCore_canonical hs16
      have hs13 : Calm s₀ s13 := transact_canonical (snd_canonical (newTxid_canonical h) x9)
      split
      · split
        next x22 =>
          split
          · split
            next x27 =>
              exact snd_canonical (busError_canonical (takeAny_canonical hs13 x22)) x27
          · exact finishFar_canonical (takeAny_canonical hs13 x22)
        · exact hhold12 _ hs13
      · split
        · exact hhold12 _ (send_canonical (snd_canonical (newTxid_canonical h) x9))
        · split
          next x37 =>
            exact snd_canonical (busError_canonical (snd_canonical (newTxid_canonical h) x9)) x37

theorem mpAtomic_canonical {s c va p o aop} (h : Calm s₀ s) :
    Calm s₀ (mpAtomic s c va p o aop).2 := by
  unfold mpAtomic
  extract_lets _ fail2
  have hfail2 : ∀ x0, Calm s₀ x0 → Calm s₀ (fail2 x0).2 := by
    intro _ h4
    unfold fail2
    split
    next x8 =>
      exact snd_canonical (busError_canonical h4) x8
  split
  · exact ite_snd_canonical (by
      split
      next x13 =>
        exact dSet_canonical (dropResv_canonical (mpLocalWrite_calm h x13))
      · exact hfail2 _ h) (scondFail_canonical h)
  · split
    next x21 =>
      exact dSet_canonical (setCore_canonical (snd_canonical (mpLocalRead_canonical h) x21))
    next x24 =>
      exact hfail2 _ (snd_canonical (mpLocalRead_canonical h) x24)
  · split
    next x30 =>
      split
      next x33 =>
        exact dSet_canonical (mpLocalWrite_calm (snd_canonical (mpLocalRead_canonical h) x30) x33)
      · exact hfail2 _ (snd_canonical (mpLocalRead_canonical h) x30)
    next x38 =>
      exact hfail2 _ (snd_canonical (mpLocalRead_canonical h) x38)

theorem mpWindowResv_canonical {s c va p o aop held} (h : Calm s₀ s) :
    Calm s₀ (mpWindowResv s c va p o aop held).2 := by
  unfold mpWindowResv
  extract_lets _ fail2
  have hfail2 : ∀ x0 x1 x2, Calm s₀ x0 → Calm s₀ (fail2 x0 x1 x2).2 := by
    intro _ _ _ h6
    unfold fail2
    split
    next x10 =>
      exact snd_canonical (busError_canonical h6) x10
  exact ite_snd_canonical (by
    split
    next x14 =>
      exact dSet_canonical (setCore_canonical (snd_canonical (readNc_canonical h) x14))
    next x18 =>
      exact hfail2 _ _ _ (snd_canonical (readNc_canonical h) x18)
    next x21 =>
      exact hfail2 _ _ _ (snd_canonical (readNc_canonical h) x21)
    next x24 =>
      exact snd_canonical (readNc_canonical h) x24) (ite_snd_canonical (scondFail_canonical h) (farAtomic_canonical h))

theorem bodyAtomic_canonical {c o aop e x4} (h : Calm s₀ x4) :
    Calm s₀ (bodyAtomic c o aop e x4).2 := by
  unfold bodyAtomic
  dsimp only
  exact guardWord_canonical (by
    intro _ h2
    split
    next x6 =>
      exact snd_canonical (checkAccess_canonical h2) x6
    next x9 =>
      exact snd_canonical (checkAccess_canonical h2) x9
    next x13 =>
      exact ite_snd_canonical (snd_canonical (checkAccess_canonical h2) x13) (ite_snd_canonical (mpAtomic_canonical (snd_canonical (checkAccess_canonical h2) x13)) (ite_snd_canonical (mpWindowResv_canonical (snd_canonical (checkAccess_canonical h2) x13)) (by
        split
        · exact ite_snd_canonical (scondFail_canonical (snd_canonical (checkAccess_canonical h2) x13)) (nearAtomic_canonical (snd_canonical (checkAccess_canonical h2) x13))
        · exact nearLres_canonical (snd_canonical (checkAccess_canonical h2) x13)
        · exact ite_snd_canonical (farAtomic_canonical (snd_canonical (checkAccess_canonical h2) x13)) (nearAtomic_canonical (snd_canonical (checkAccess_canonical h2) x13)))))) h

theorem bodyMaint_canonical {c o fn k e x5} (h : Calm s₀ x5) :
    Calm s₀ (bodyMaint c o fn k e x5).2 := by
  unfold bodyMaint
  dsimp only
  exact ite_snd_canonical h (ite_snd_canonical h (by
    split
    next x4 =>
      exact snd_canonical (xlat_canonical h) x4
    next x7 =>
      exact snd_canonical (xlat_canonical h) x7
    next x11 =>
      exact ite_snd_canonical (doneNext_canonical (snd_canonical (xlat_canonical h) x11)) (ite_snd_canonical (doneNext_canonical (snd_canonical (xlat_canonical h) x11)) (ite_snd_canonical (ite_snd_canonical (doneNext_canonical (snd_canonical (xlat_canonical h) x11)) (deferError_canonical (snd_canonical (xlat_canonical h) x11))) (ite_snd_canonical (snd_canonical (xlat_canonical h) x11) (ite_snd_canonical (by
        split
        next x15 =>
          exact setCore_canonical (takeAny_canonical (transact_canonical (setCore_canonical (newTxid_canonical (snd_canonical (xlat_canonical h) x11)))) x15)
        · exact addOutst_canonical (transact_canonical (setCore_canonical (newTxid_canonical (snd_canonical (xlat_canonical h) x11))))) (addOutst_canonical (send_canonical (setCore_canonical (newTxid_canonical (snd_canonical (xlat_canonical h) x11)))))))))))

theorem bodyLdM_canonical {c o maj size e x5} (h : Calm s₀ x5) :
    Calm s₀ (bodyLdM c o maj size e x5).2 :=
  guardWord_canonical (fun _ h2 => doLoad_canonical h2) h

theorem bodyStM_canonical {c o maj size e x5} (h : Calm s₀ x5) :
    Calm s₀ (bodyStM c o maj size e x5).2 :=
  guardWord_canonical (fun _ h2 => doStore_canonical h2) h

theorem bodyLdA_canonical {c o e x3} (h : Calm s₀ x3) :
    Calm s₀ (bodyLdA c o e x3).2 :=
  guardWord_canonical (fun _ h2 => doLoad_canonical h2) h

theorem bodyStA_canonical {c o e x3} (h : Calm s₀ x3) :
    Calm s₀ (bodyStA c o e x3).2 :=
  guardWord_canonical (fun _ h2 => doStore_canonical h2) h

theorem bodyLdQ_canonical {c o e x3} (h : Calm s₀ x3) :
    Calm s₀ (bodyLdQ c o e x3).2 :=
  guardWord_canonical (fun _ h2 => qGuard_canonical (fun _ h4 => doLoad_canonical h4) h2) h

theorem bodyStQ_canonical {c o e x3} (h : Calm s₀ x3) :
    Calm s₀ (bodyStQ c o e x3).2 :=
  guardWord_canonical (fun _ h2 => qGuard_canonical (fun _ h4 => doStore_canonical h4) h2) h

theorem bodyLdN_canonical {c o maj size e x5} (h : Calm s₀ x5) :
    Calm s₀ (bodyLdN c o maj size e x5).2 :=
  guardWord_canonical (fun _ h2 => doLoad_canonical h2) h

theorem bodyStN_canonical {c o maj size e x5} (h : Calm s₀ x5) :
    Calm s₀ (bodyStN c o maj size e x5).2 :=
  guardWord_canonical (fun _ h2 => doStore_canonical h2) h

theorem devElem_canonical {s c opnd va pa size} (h : Calm s₀ s) :
    Calm s₀ (devElem s c opnd va pa size).2 := by
  unfold devElem
  split
  · exact h
  · exact ite_snd_canonical h (ite_snd_canonical (ite_snd_canonical (by
      split
      next x9 =>
        exact snd_canonical (busError_canonical h) x9) (by
      split
      · exact ite_snd_canonical h (by
          split
          next x17 =>
            exact snd_canonical (busError_canonical h) x17)
      · exact ite_snd_canonical (sendDevRd_canonical h) (by
          split
          next x23 =>
            exact snd_canonical (busError_canonical h) x23))) (sendDevRd_canonical h))

theorem elemRead_canonical {s c opnd size arr ps} (h : Calm s₀ s) :
    Calm s₀ (elemRead s c opnd size arr ps).2 := by
  unfold elemRead
  extract_lets _ mem2
  have hmem2 : ∀ x0, Calm s₀ (mem2 x0).2 := by
    intro _
    unfold mem2
    split
    next x7 =>
      exact snd_canonical (gather_canonical h) x7
    next x11 =>
      exact snd_canonical (gather_canonical h) x11
    next x14 =>
      exact snd_canonical (gather_canonical h) x14
  exact ite_snd_canonical (by
    split
    · exact ite_snd_canonical (devElem_canonical h) (hmem2 _)
    · split
      next x23 =>
        exact snd_canonical (mpLocalRead_canonical h) x23
      next x26 =>
        split
        next x30 =>
          exact snd_canonical (busError_canonical (snd_canonical (mpLocalRead_canonical h) x26)) x30) (ite_snd_canonical (devElem_canonical h) (hmem2 _))

theorem checkOpnd_canonical {s c va size kind fresh} (h : Calm s₀ s) :
    Calm s₀ (checkOpnd s c va size kind fresh).2 := by
  unfold checkOpnd
  split
  next x4 =>
    exact snd_canonical (checkAccess_canonical h) x4
  · exact checkAccess_canonical h

theorem checkElem_canonical {s c bop size va1 va2 fresh} (h : Calm s₀ s) :
    Calm s₀ (checkElem s c bop size va1 va2 fresh).2 := by
  unfold checkElem
  dsimp only
  split
  next x3 =>
    exact snd_canonical (ite_snd_canonical (checkOpnd_canonical h) h) x3
  next x7 =>
    split
    next x10 =>
      exact snd_canonical (checkOpnd_canonical (snd_canonical (ite_snd_canonical (checkOpnd_canonical h) h) x7)) x10
    · exact snd_canonical (ite_snd_canonical (checkOpnd_canonical h) h) x7
    · exact snd_canonical (ite_snd_canonical (checkOpnd_canonical h) h) x7
  next x22 =>
    split
    next x25 =>
      exact snd_canonical (checkOpnd_canonical (snd_canonical (ite_snd_canonical (checkOpnd_canonical h) h) x22)) x25
    next x29 =>
      exact snd_canonical (checkOpnd_canonical (snd_canonical (ite_snd_canonical (checkOpnd_canonical h) h) x22)) x29
    next x33 =>
      exact snd_canonical (checkOpnd_canonical (snd_canonical (ite_snd_canonical (checkOpnd_canonical h) h) x22)) x33

theorem checkGroup_canonical {c bop size a1 a2 fresh x6 x7 x8} (h : Calm s₀ x8) :
    Calm s₀ (checkGroup c bop size a1 a2 fresh x6 x7 x8).2 := by
  induction x6 generalizing c bop size a1 a2 fresh x7 x8 with
  | nil => exact h
  | cons a x6 ih =>
    unfold checkGroup
    extract_lets _
    split
    next x5 =>
      exact snd_canonical (checkElem_canonical h) x5
    next x8 =>
      exact snd_canonical (checkElem_canonical h) x8
    next x12 =>
      exact ite_snd_canonical (snd_canonical (checkElem_canonical h) x12) (ih (snd_canonical (checkElem_canonical h) x12))

theorem doElems_canonical {c bop size arr val x5 x6 x7} (h : Calm s₀ x7) :
    Calm s₀ (doElems c bop size arr val x5 x6 x7).2 := by
  induction x5 generalizing c bop size arr val x6 x7 with
  | nil => exact h
  | cons a x5 ih =>
    unfold doElems
    extract_lets put1
    have hput1 : ∀ x0 x1, Calm s₀ x0 → Calm s₀ (put1 x0 x1).2 := by
      intro _ _ h4
      unfold put1
      split
      next x7 =>
        exact ih (snd_canonical (putStore_canonical h4) x7)
      next x10 =>
        exact snd_canonical (putStore_canonical h4) x10
      next x14 =>
        split
        next x18 =>
          exact snd_canonical (busError_canonical (snd_canonical (putStore_canonical h4) x14)) x18
    split
    · split
      next x23 =>
        exact hput1 _ _ (snd_canonical (elemRead_canonical h) x23)
      next x27 =>
        exact snd_canonical (elemRead_canonical h) x27
      next x30 =>
        exact snd_canonical (elemRead_canonical h) x30
    · exact hput1 _ _ h
    · split
      next x36 =>
        extract_lets _ s38
        have hs38 : Calm s₀ s38 := by
          unfold s38
          split
          · exact setCore_canonical (snd_canonical (elemRead_canonical h) x36)
          · exact snd_canonical (elemRead_canonical h) x36
        split
        next x44 =>
          split
          · exact ih (snd_canonical (elemRead_canonical hs38) x44)
          · exact snd_canonical (elemRead_canonical hs38) x44
        next x50 =>
          exact snd_canonical (elemRead_canonical hs38) x50
        next x53 =>
          exact snd_canonical (elemRead_canonical hs38) x53
      next x57 =>
        exact snd_canonical (elemRead_canonical h) x57
      next x60 =>
        exact snd_canonical (elemRead_canonical h) x60
    · split
      next x68 =>
        split
        · exact snd_canonical (elemRead_canonical h) x68
        · exact ih (snd_canonical (elemRead_canonical h) x68)
      next x74 =>
        exact snd_canonical (elemRead_canonical h) x74
      next x77 =>
        exact snd_canonical (elemRead_canonical h) x77

theorem blkGroup_canonical {c bop o grp e s} (h : Calm s₀ s) : Calm s₀ (blkGroup c bop o grp e s).2 := by
  unfold blkGroup
  extract_lets size count n a1 a2
  split
  · exact blkResult_canonical h
  · have hg {l : List Nat} : Calm s₀ (checkGroup c bop size a1 a2 e.fresh l [] s).2 := checkGroup_canonical h
    split
    next heq => exact snd_canonical hg heq
    next heq => exact snd_canonical hg heq
    next els t heq =>
      have ht : Calm s₀ t := snd_canonical hg heq
      split
      · exact countEvent_canonical ht
      · extract_lets sb ram undo val
        have hundo : ∀ u, Calm s₀ u → Calm s₀ (undo u) := fun u hu => ⟨fun hc => ⟨(hu.1 hc).1, (ht.1 hc).2.1, (hu.1 hc).2.2⟩, hu.2⟩
        have hd : Calm s₀ (doElems c bop size e.arr val els 0 t).2 := doElems_canonical ht
        split
        next heq => exact hundo _ (snd_canonical hd heq)
        next heq => exact hundo _ (snd_canonical hd heq)
        next heq => exact dSet_canonical (blkResult_canonical (blkAdvance_canonical (setCore_canonical (snd_canonical hd heq))))
        next heq =>
          extract_lets _ s1 s2
          have h2 : Calm s₀ s2 := blkAdvance_canonical (dropFills_canonical (setCore_canonical (snd_canonical hd heq)))
          exact ite_snd_canonical (blkResult_canonical h2) h2

theorem blkRun_canonical {c bop o grp e x5 x6} (h : Calm s₀ x6) :
    Calm s₀ (blkRun c bop o grp e x5 x6).2 := by
  induction x5 generalizing c bop o grp e x6 with
  | zero => exact h
  | succ x5 ih =>
    unfold blkRun
    split
    next x3 =>
      exact ite_snd_canonical (snd_canonical (blkGroup_canonical h) x3) (ih (snd_canonical (blkGroup_canonical h) x3))
    · exact blkGroup_canonical h

theorem bodyBlk_canonical {c bop o grp groups e x6} (h : Calm s₀ x6) :
    Calm s₀ (bodyBlk c bop o grp groups e x6).2 :=
  guardWord_canonical (fun _ h2 => blkRun_canonical h2) h

theorem sysRead_canonical {s c n} (h : Calm s₀ s) :
    Calm s₀ (sysRead s c n).2 :=
  ite_snd_canonical h (ite_snd_canonical h (ite_snd_canonical h (ite_snd_canonical h (ite_snd_canonical h (ite_snd_canonical h (ite_snd_canonical h (ite_snd_canonical h (ite_snd_canonical h (ite_snd_canonical h (ite_snd_canonical h (ite_snd_canonical (readIack_canonical h) (ite_snd_canonical h (ite_snd_canonical h (ite_snd_canonical (readViack_canonical h) (ite_snd_canonical h (ite_snd_canonical h (ite_snd_canonical (stkvolt_canonical h) (ite_snd_canonical (jtemp_canonical h) (ite_snd_canonical h h)))))))))))))))))))

theorem sysWriteEff_canonical {s c n guest v} (h : Calm s₀ s) :
    Calm s₀ (sysWriteEff s c n guest v) :=
  ite_canonical (setCore_canonical h) (ite_canonical (ite_canonical (dropResv_canonical (sysWrite_canonical h)) h) (ite_canonical (writeDbgauth_canonical h) (ite_canonical (ite_canonical (setCore_canonical (sysWrite_canonical h)) (sysWrite_canonical h)) (ite_canonical (writeIeoi_canonical h) (ite_canonical (writeIsgi_canonical h) (ite_canonical (rereadPend_canonical (sysWrite_canonical h)) (ite_canonical (writeVieoi_canonical h) (ite_canonical (ite_canonical h (sysWrite_canonical h)) (ite_canonical (postTo_canonical h) (ite_canonical h (ite_canonical (sysWrite_canonical h) (sysWrite_canonical h))))))))))))

theorem bodySysrd_canonical {c o x2} (h : Calm s₀ x2) :
    Calm s₀ (bodySysrd c o x2).2 :=
  guardWord_canonical (by
    intro _ h2
    split
    · exact h2
    · split
      next x11 =>
        exact dSet_canonical (snd_canonical (sysRead_canonical h2) x11)) h

theorem bodyEret_canonical {c o x2} (h : Calm s₀ x2) :
    Calm s₀ (bodyEret c o x2).2 :=
  ite_snd_canonical h (ite_snd_canonical h (ite_canonical (takeExcAt_canonical (ite_canonical (rereadPend_canonical (returnExc_canonical (countEvent_canonical h))) (returnExc_canonical (countEvent_canonical h)))) (ite_canonical (rereadPend_canonical (returnExc_canonical (countEvent_canonical h))) (returnExc_canonical (countEvent_canonical h)))))

theorem heldResponse_canonical {s c a p t} (h : Calm s₀ s) (e : heldResponse s c = some (a, p, t)) : Calm s₀ t := by
  unfold heldResponse at e
  split at e
  · cases e
  · split at e
    · cases e
      rename_i heq
      exact takePacket_canonical h heq
    · cases e

theorem stageFail_canonical {s c heldBad} (h : Calm s₀ s) :
    Calm s₀ (stageFail s c heldBad) := by
  unfold stageFail
  dsimp only
  exact ite_canonical h (ite_canonical (stopCore_canonical h) (ite_canonical (by
    split
    · exact countEvent_canonical (setCore_canonical h)
    next x7 =>
      exact raise_canonical (busError_canonical (setCore_canonical (delOutst_canonical (heldResponse_canonical (countEvent_canonical (setCore_canonical h)) x7))))) (countEvent_canonical (setCore_canonical h))))

theorem hioPlace_canonical {s line t} (h : Calm s₀ s) (e : hioPlace s line = some t) : Calm s₀ t := by
  unfold hioPlace at e
  extract_lets off c at e
  split at e
  · cases e
  · split at e
    extract_lets s1 at e
    have h1 : Calm s₀ s1 := h
    clear_value s1
    split at e
    · cases e
      exact h1
    · split at e
      · cases e
      · split at e
        next heq =>
          cases e
          exact runReq_canonical (snd_canonical (evictReq_canonical h1) heq)

theorem holderRequest_canonical {s c h line a f} (hm : Calm s₀ s) : Calm s₀ (holderRequest s c h line a f) := by
  unfold holderRequest
  split
  next e => exact launch_canonical (takePacket_canonical hm e)
  · extract_lets at_
    split
    · exact ite_canonical (homeReach_canonical (newTxid_canonical hm)) hm
    · split
      · have hplace {t : State} (e : (if c = .upg then some s else if h = 0xF0 then hioPlace s line else some (l2Room s h line)) = some t) :
            Calm s₀ t := by
          split at e
          · cases e
            exact hm
          · split at e
            · exact hioPlace_canonical hm e
            · cases e
              exact l2Room_canonical hm
        split
        · exact hm
        next e =>
          exact ite_canonical (hplace e) (by
            split
            next x => exact launch_canonical (snd_canonical (issueReq_canonical (hplace e)) x))
      · exact hm

theorem farRspHw_canonical {s f line} (h : Calm s₀ s) :
    Calm s₀ (farRspHw s f line) := by
  unfold farRspHw
  dsimp only
  split
  · exact h
  next x6 =>
    split
    · exact delOutst_canonical (takePacket_canonical h x6)
    · exact hwArrive_canonical (delOutst_canonical (takePacket_canonical h x6))

theorem farRspArrive_canonical {s c line} (h : Calm s₀ s) :
    Calm s₀ (farRspArrive s c line) := by
  unfold farRspArrive
  split
  · exact farRspHw_canonical h
  · split
    · exact farRspHw_canonical h
    next x11 =>
      exact endBody_canonical (finishFar_canonical (setCore_canonical (delOutst_canonical (takePacket_canonical h x11))))

theorem farRspHub_canonical {s line} (h : Calm s₀ s) :
    Calm s₀ (farRspHub s line) := by
  unfold farRspHub
  split
  · exact farRspHw_canonical h
  next x6 =>
    exact hubArrive_canonical (delOutst_canonical (takePacket_canonical h x6))

theorem errRspArrive_canonical {s src tx} (h : Calm s₀ s) :
    Calm s₀ (errRspArrive s src tx) := by
  unfold errRspArrive
  split
  · exact h
  next x6 =>
    exact ite_canonical (hubArrive_canonical (delOutst_canonical (takePacket_canonical h x6))) (ite_canonical (delOutst_canonical (takePacket_canonical h x6)) (by
      split
      · exact hwArrive_canonical (delOutst_canonical (takePacket_canonical h x6))
      · exact ite_canonical (by
          split
          · exact ite_canonical (homeTimeoutAt_canonical (delOutst_canonical (takePacket_canonical h x6))) (delOutst_canonical (takePacket_canonical h x6))
          · exact delOutst_canonical (takePacket_canonical h x6)) (by
          split
          · exact winArrive_canonical (delOutst_canonical (takePacket_canonical h x6))
          · exact enterWaitst_canonical (tryBar_canonical (errAtCore_canonical (delOutst_canonical (takePacket_canonical h x6))))
          · exact ite_canonical (remoteAnswer_canonical (delOutst_canonical (takePacket_canonical h x6))) (ite_canonical (agentSilent_canonical (delOutst_canonical (takePacket_canonical h x6))) (ite_canonical (holderErr_canonical (delOutst_canonical (takePacket_canonical h x6))) (delOutst_canonical (takePacket_canonical h x6)))))))

theorem setLsF_canonical {s n hi lo x} (h : Calm s₀ s) :
    Calm s₀ (setLsF s n hi lo x) :=
  setRgF_canonical h

theorem landAt_canonical {s p cur next} (h : Calm s₀ s) :
    Calm s₀ (landAt s p cur next) :=
  ite_canonical h (by
    split
    next x3 =>
      exact have hm := snd_canonical (meetIngress_canonical h) x3; hm
    next x6 =>
      exact snd_canonical (meetIngress_canonical h) x6)

theorem parityAt_canonical {s st par p} (h : Calm s₀ s) :
    Calm s₀ (parityAt s st par p).2 := by
  unfold parityAt
  split
  · exact h
  · exact logErr_canonical h
  · exact ite_snd_canonical h (logErr_canonical h)
  · exact logErr_canonical h

theorem hopTo_canonical {s cur next p} (h : Calm s₀ s) :
    Calm s₀ (hopTo s cur next p) :=
  ite_canonical (fencedPacket_canonical h) (by
    split
    · exact setEnd_canonical h
    · exact landAt_canonical h)

theorem stopForward_canonical {s cur next lane par} (h : Calm s₀ s) :
    Calm s₀ (stopForward s cur next lane par) := by
  unfold stopForward
  extract_lets _ _
  split
  · exact h
  · extract_lets _ s10 s11
    have hs10 : Calm s₀ s10 := h
    have hs11 : Calm s₀ s11 := by
      unfold s11
      split
      · exact incFab_canonical hs10
      · exact hs10
    split
    next x17 =>
      exact hopTo_canonical (snd_canonical (parityAt_canonical hs11) x17)
    next x20 =>
      exact snd_canonical (parityAt_canonical hs11) x20

theorem urgencyAge_canonical {s i} (h : Calm s₀ s) :
    Calm s₀ (urgencyAge s i) := by
  unfold urgencyAge
  split
  · exact h
  · exact ite_canonical h h

theorem tokenGain_canonical {s st} (h : Calm s₀ s) :
    Calm s₀ (tokenGain s st) :=
  ite_canonical h (by
    split
    · exact h
    · exact inject_canonical h)

theorem ingressReopen_canonical {s st} (h : Calm s₀ s) :
    Calm s₀ (ingressReopen s st) := by
  unfold ingressReopen
  split
  · exact h
  · exact ite_canonical (ite_canonical (wakeCore_canonical (reopenDom_canonical h)) (reopenDom_canonical h)) h

theorem setStopAt_canonical {s st} (h : Calm s₀ s) :
    Calm s₀ (setStopAt s st) :=
  h

theorem flushDead_canonical {s dead} (h : Calm s₀ s) :
    Calm s₀ (flushDead s dead) :=
  foldl_canonical (fun _ _ h3 => fencedPacket_canonical h3) h

theorem heldSent_canonical {s st} (h : Calm s₀ s) :
    Calm s₀ (heldSent s st) :=
  h

theorem fstopWrite_canonical {s b st v} (h : Calm s₀ s) :
    Calm s₀ (fstopWrite s b st v) :=
  ite_canonical (mpWrite_canonical h h) (ite_canonical (setStopAt_canonical (setStopState_canonical h)) (ite_canonical (flushDead_canonical (setStopState_canonical h)) (ite_canonical (setStopAt_canonical (heldSent_canonical (setStopState_canonical h))) h)))

theorem stopDrainTimeout_canonical {s st} (h : Calm s₀ s) :
    Calm s₀ (stopDrainTimeout s st) :=
  ite_canonical (flushDead_canonical (setStopState_canonical h)) h

theorem setSeg_canonical {s g x} (h : Calm s₀ s) :
    Calm s₀ (setSeg s g x) :=
  setRgF_canonical (setRgF_canonical h)

theorem segBroadcast_canonical {s g} (h : Calm s₀ s) :
    Calm s₀ (segBroadcast s g) :=
  sendG_canonical h

theorem rimWrite_canonical {s g b} (h : Calm s₀ s) :
    Calm s₀ (rimWrite s g b) :=
  ite_canonical (segBroadcast_canonical (setSeg_canonical (setRgF_canonical h))) (ite_canonical (segBroadcast_canonical (setSeg_canonical (setRgF_canonical h))) (setRgF_canonical h))

theorem releaseHold_canonical {s g} (h : Calm s₀ s) :
    Calm s₀ (releaseHold s g) :=
  h

theorem rimDrained_canonical {s g} (h : Calm s₀ s) :
    Calm s₀ (rimDrained s g) :=
  ite_canonical (setSeg_canonical h) (ite_canonical (ite_canonical (rimWrite_canonical (releaseHold_canonical (setSeg_canonical h))) (releaseHold_canonical (setSeg_canonical h))) (ite_canonical (ite_canonical (rimWrite_canonical (releaseHold_canonical (setSeg_canonical h))) (releaseHold_canonical (setSeg_canonical h))) h))

theorem pwrArrive_canonical {s die} (h : Calm s₀ s) :
    Calm s₀ (pwrArrive s die) := by
  unfold pwrArrive
  split
  · exact h
  next x6 =>
    exact ite_canonical (gArrive_canonical (takePacket_canonical h x6)) (gArrive_canonical (takePacket_canonical h x6))

theorem irqMessage_canonical {s intid} (h : Calm s₀ s) :
    Calm s₀ (irqMessage s intid) := by
  unfold irqMessage
  extract_lets _
  split
  next x5 =>
    exact ite_canonical (fencedPacket_canonical (gArrive_canonical (takePacket_canonical h x5))) (ite_canonical (deliverIrq_canonical (gArrive_canonical (takePacket_canonical h x5))) (gArrive_canonical (takePacket_canonical h x5)))
  · exact ite_canonical h (by
      split
      · exact h
      · exact ite_canonical h (sendG_canonical h))

theorem toPeer_canonical {s n u} (h : Calm s₀ s) :
    Calm s₀ (toPeer s n u) :=
  setEnd_canonical h

theorem setLsState_canonical {s n x} (h : Calm s₀ s) :
    Calm s₀ (setLsState s n x) :=
  setLsF_canonical (setEnd_canonical (ite_canonical h (raiseSrc_canonical h)))

theorem handBack_canonical {s n p} (h : Calm s₀ s) :
    Calm s₀ (handBack s n p) :=
  ite_canonical (ite_canonical h (incFab_canonical h)) h

theorem enterDown_canonical {s n} (h : Calm s₀ s) :
    Calm s₀ (enterDown s n) :=
  setEnd_canonical (foldl_canonical (fun _ _ h3 => handBack_canonical h3) (logErr_canonical (incRgF_canonical (setLsF_canonical (setLsState_canonical h)))))

theorem enterSafe_canonical {s n fresh} (h : Calm s₀ s) :
    Calm s₀ (enterSafe s n fresh) :=
  setEnd_canonical (ite_canonical (setLsF_canonical (setLsState_canonical h)) (setLsState_canonical h))

theorem enterRetrain_canonical {s n} (h : Calm s₀ s) :
    Calm s₀ (enterRetrain s n) :=
  enterSafe_canonical (setEnd_canonical (setLsState_canonical (incRgF_canonical h)))

theorem nakAct_canonical {s n q} (h : Calm s₀ s) :
    Calm s₀ (nakAct s n q) :=
  ite_canonical h (ite_canonical (enterRetrain_canonical (setEnd_canonical (setEnd_canonical (incRgF_canonical h)))) (foldl_canonical (fun _ _ h3 => toPeer_canonical h3) (setEnd_canonical (incRgF_canonical h))))

theorem dataSend_canonical {s n parityOk} (h : Calm s₀ s) :
    Calm s₀ (dataSend s n parityOk) := by
  unfold dataSend
  extract_lets _
  split
  · exact h
  · exact ite_canonical h (ite_canonical (toPeer_canonical (setEnd_canonical h)) (nakAct_canonical (logErr_canonical (setEnd_canonical h))))

theorem dataReceive_canonical {s n flip} (h : Calm s₀ s) :
    Calm s₀ (dataReceive s n flip) := by
  unfold dataReceive
  extract_lets _
  split
  · exact h
  · exact ite_canonical (setEnd_canonical h) (ite_canonical (ite_canonical (landAt_canonical (toPeer_canonical (setEnd_canonical (setEnd_canonical h)))) (toPeer_canonical (setEnd_canonical (setEnd_canonical h)))) (ite_canonical (toPeer_canonical (setEnd_canonical (setEnd_canonical h))) (setEnd_canonical h)))

theorem ctrlAct_canonical {s n w} (h : Calm s₀ s) :
    Calm s₀ (ctrlAct s n w) :=
  ite_canonical h (by
    split
    · split
      · exact h
      · exact setEnd_canonical h
    · exact nakAct_canonical h
    · exact setEnd_canonical h
    · exact h)

theorem ctrlArrive_canonical {s n f intact} (h : Calm s₀ s) :
    Calm s₀ (ctrlArrive s n f intact) := by
  unfold ctrlArrive
  split
  · exact h
  · exact ite_canonical (ctrlAct_canonical (setEnd_canonical h)) (setEnd_canonical h)

theorem nakRepeat_canonical {s n} (h : Calm s₀ s) :
    Calm s₀ (nakRepeat s n) := by
  unfold nakRepeat
  extract_lets _
  split
  · exact ite_canonical (toPeer_canonical (setEnd_canonical h)) h
  · exact h

theorem creditRefresh_canonical {s n} (h : Calm s₀ s) :
    Calm s₀ (creditRefresh s n) :=
  ite_canonical (toPeer_canonical (setEnd_canonical h)) h

theorem trySafe_canonical {s n} (h : Calm s₀ s) :
    Calm s₀ (trySafe s n) :=
  ite_canonical h (by
    split
    · exact setEnd_canonical (setLsState_canonical h)
    · exact ite_canonical (enterDown_canonical (setEnd_canonical h)) (setEnd_canonical h))

theorem safeTrainDone_canonical {s n passed} (h : Calm s₀ s) :
    Calm s₀ (safeTrainDone s n passed) :=
  ite_canonical h (trySafe_canonical (setEnd_canonical (setLsF_canonical (setLsF_canonical h))))

theorem trainArrive_canonical {s n} (h : Calm s₀ s) :
    Calm s₀ (trainArrive s n) :=
  ite_canonical h (ite_canonical (enterRetrain_canonical h) (ite_canonical (enterSafe_canonical h) (ite_canonical (by
    split
    · exact enterDown_canonical (enterDown_canonical (setLsF_canonical (setLsF_canonical h)))
    · exact trySafe_canonical (setEnd_canonical (setLsF_canonical (setLsF_canonical h)))) h)))

theorem resume_canonical {s n q} (h : Calm s₀ s) :
    Calm s₀ (resume s n q) :=
  ite_canonical (setEnd_canonical h) (by
    split
    · exact enterDown_canonical (setLsF_canonical h)
    · exact foldl_canonical (fun _ _ h7 => toPeer_canonical h7) (setEnd_canonical h))

theorem activate_canonical {s n p wn qn wp qp} (h : Calm s₀ s) :
    Calm s₀ (activate s n p wn qn wp qp) := by
  unfold activate
  extract_lets on1 s2 _ _
  have hon1 : ∀ x0 x1 x2 x3, Calm s₀ x0 → Calm s₀ (on1 x0 x1 x2 x3) := fun _ _ _ _ h9 => setEnd_canonical (setLsF_canonical (setLsF_canonical (setLsState_canonical h9)))
  have hs2 : Calm s₀ s2 := hon1 _ _ _ _ (hon1 _ _ _ _ h)
  exact resume_canonical (resume_canonical hs2)

theorem countDispute_canonical {s n} (h : Calm s₀ s) :
    Calm s₀ (countDispute s n) :=
  setLsF_canonical (ite_canonical (setLsF_canonical h) (setEnd_canonical (setLsF_canonical h)))

theorem dispute_canonical {s n p} (h : Calm s₀ s) :
    Calm s₀ (dispute s n p) := by
  unfold dispute
  extract_lets _ s2 s3
  have hs2 : Calm s₀ s2 := countDispute_canonical (countDispute_canonical h)
  have hs3 : Calm s₀ s3 := ite_canonical (setLsF_canonical (setLsF_canonical hs2)) hs2
  split
  · exact enterDown_canonical (enterDown_canonical h)
  · exact activate_canonical hs3

theorem confirmArrive_canonical {s n} (h : Calm s₀ s) :
    Calm s₀ (confirmArrive s n) :=
  ite_canonical h (ite_canonical (enterSafe_canonical h) (ite_canonical (ite_canonical (activate_canonical h) (dispute_canonical h)) h))

theorem linkRetrain_canonical {s b n} (h : Calm s₀ s) :
    Calm s₀ (linkRetrain s b n) :=
  mpWrite_canonical h (ite_canonical (enterRetrain_canonical h) h)

theorem linkReset_canonical {s b n} (h : Calm s₀ s) :
    Calm s₀ (linkReset s b n) :=
  mpWrite_canonical h (ite_canonical h (setLsF_canonical (setLsState_canonical (setRg_canonical h))))

theorem linkctlWrite_canonical {s b n v} (h : Calm s₀ s) :
    Calm s₀ (linkctlWrite s b n v) :=
  mpWrite_canonical h (ite_canonical (linkReset_canonical (ite_canonical h (setRgF_canonical h))) (ite_canonical (linkRetrain_canonical (ite_canonical h (setRgF_canonical h))) (ite_canonical h (setRgF_canonical h))))

theorem stopFenced_canonical {s c} (h : Calm s₀ s) :
    Calm s₀ (stopFenced s c) :=
  ite_canonical h (logErr_canonical (raiseSrc_canonical (setCore_canonical h)))

theorem fenceStack_canonical {s n} (h : Calm s₀ s) :
    Calm s₀ (fenceStack s n) := by
  unfold fenceStack
  extract_lets s1 s2 __src3 s4 s5 s6 s7 s8
  have hs1 : Calm s₀ s1 := ite_canonical h (setLsState_canonical h)
  have hs2 : Calm s₀ s2 := setLsF_canonical hs1
  have h__src3 : Calm s₀ __src3 := setRgF_canonical hs2
  have hs4 : Calm s₀ s4 := raiseSrc_canonical h__src3
  have hs5 : Calm s₀ s5 := rstDone_canonical hs4
  have hs6 : Calm s₀ s6 := foldl_canonical (fun _ _ h11 => stopFenced_canonical h11) hs5
  have hs7 : Calm s₀ s7 := foldl_canonical (fun _ _ h14 => ite_canonical (setRg_canonical h14) h14) hs6
  have hs8 : Calm s₀ s8 := flushDead_canonical hs7
  exact ite_canonical h (foldl_canonical (fun _ _ h17 => sendG_canonical (sendG_canonical h17)) hs8)

theorem setLgState_canonical {s g x} (h : Calm s₀ s) :
    Calm s₀ (setLgState s g x) :=
  ite_canonical h (raiseSrc_canonical (setRgF_canonical h))

theorem setPalEnd_canonical {s g x} (h : Calm s₀ s) :
    Calm s₀ (setPalEnd s g x) :=
  h

theorem setPal_canonical {s g x} (h : Calm s₀ s) :
    Calm s₀ (setPal s g x) :=
  ite_canonical h (ite_canonical (setLgState_canonical (ite_canonical (setPalEnd_canonical (raiseSrc_canonical (setRgF_canonical h))) (raiseSrc_canonical (setRgF_canonical h)))) (ite_canonical (setPalEnd_canonical (raiseSrc_canonical (setRgF_canonical h))) (raiseSrc_canonical (setRgF_canonical h))))

theorem hlCascade_canonical {s ev} (h : Calm s₀ s) :
    Calm s₀ (hlCascade s ev) :=
  hlDevice_canonical h

theorem msgArrive_canonical {s m} (h : Calm s₀ s) :
    Calm s₀ (msgArrive s m) := by
  unfold msgArrive
  split
  · exact logErr_canonical h
  · exact ite_canonical (logErr_canonical h) h

theorem palctlWrite_canonical {s b g reset retrain} (h : Calm s₀ s) :
    Calm s₀ (palctlWrite s b g reset retrain) :=
  ite_canonical (mpWrite_canonical h h) (ite_canonical (setRgF_canonical (setPal_canonical h)) h)

theorem bundleChange_canonical {s p} (h : Calm s₀ s) :
    Calm s₀ (bundleChange s p) :=
  ite_canonical h (ite_canonical (foldl_canonical (fun _ _ h3 => setPalEnd_canonical h3) h) (foldl_canonical (fun _ _ h6 => setPalEnd_canonical h6) h))

theorem dupId_canonical {s g} (h : Calm s₀ s) :
    Calm s₀ (dupId s g) :=
  ite_canonical (setPal_canonical (setRgF_canonical h)) (hlCascade_canonical (setRgF_canonical (setPal_canonical (setRgF_canonical h))))

theorem holdAll_canonical {s} (h : Calm s₀ s) :
    Calm s₀ (holdAll s) :=
  foldl_canonical (fun _ _ h3 => ite_canonical (setPal_canonical h3) h3) h

theorem unfencePkg_canonical {s p} (h : Calm s₀ s) :
    Calm s₀ (unfencePkg s p) :=
  foldl_canonical (fun _ _ h3 => setFence_canonical h3) h

theorem palSay_canonical {s g m} (h : Calm s₀ s) :
    Calm s₀ (palSay s g m) :=
  setPalEnd_canonical h

theorem sendGrant_canonical {s p} (h : Calm s₀ s) :
    Calm s₀ (sendGrant s p) :=
  foldl_canonical (fun _ _ h3 => palSay_canonical h3) h

theorem refuseCand_canonical {s c} (h : Calm s₀ s) :
    Calm s₀ (refuseCand s c) :=
  foldl_canonical (fun _ _ h3 => setPal_canonical h3) h

theorem admitCand_canonical {s c} (h : Calm s₀ s) :
    Calm s₀ (admitCand s c) :=
  hlCascade_canonical (raiseSrc_canonical (setRg_canonical (setRgF_canonical (unfencePkg_canonical h))))

theorem hotAdd_canonical {s c} (h : Calm s₀ s) :
    Calm s₀ (hotAdd s c) :=
  ite_canonical h (ite_canonical (sendGrant_canonical (admitCand_canonical h)) (refuseCand_canonical h))

theorem windowEnd_canonical {s} (h : Calm s₀ s) :
    Calm s₀ (windowEnd s) := by
  unfold windowEnd
  split
  · exact h
  · exact ite_canonical h (foldl_canonical (fun _ _ h8 => sendGrant_canonical h8) (setRgF_canonical (foldl_canonical (fun _ _ h11 => ite_canonical (admitCand_canonical h11) (refuseCand_canonical h11)) h)))

theorem joinGrant_canonical {s rev present features time half} (h : Calm s₀ s) :
    MemoriesCanonical s₀ → MemoriesCanonical (joinGrant s rev present features time half) := by
  intro hc
  unfold joinGrant
  extract_lets _ s2 s3 s4
  have hs2 : Calm s₀ s2 := setRgF_canonical (setRgF_canonical (setRgF_canonical h))
  have hs3 : MemoriesCanonical s3 := hs2.1 hc
  have hs4 : Calm s3 s4 := foldl_canonical (fun _ _ h7 => unfencePkg_canonical h7) (raiseSrc_canonical (raiseSrc_canonical ⟨id, rfl⟩))
  split
  · exact h.1 hc
  · exact (hlDevice_canonical hs4).1 hs3

theorem timeSend_canonical {s} (h : Calm s₀ s) :
    Calm s₀ (timeSend s) :=
  ite_canonical (foldl_canonical (fun _ _ h3 => sendG_canonical h3) h) h

theorem setHoldover_canonical {s b} (h : Calm s₀ s) :
    Calm s₀ (setHoldover s b) := by
  unfold setHoldover
  extract_lets s1 _
  have hs1 : Calm s₀ s1 := setRgF_canonical h
  exact ite_canonical hs1 (raiseSrc_canonical hs1)

theorem timeArrive_canonical {s time half} (h : Calm s₀ s) :
    Calm s₀ (timeArrive s time half) :=
  ite_canonical h (setHoldover_canonical h)

theorem timeHoldover_canonical {s} (h : Calm s₀ s) :
    Calm s₀ (timeHoldover s) := by
  unfold timeHoldover
  split
  · exact ite_canonical (setHoldover_canonical h) h
  · exact h

theorem leaveCascade_canonical {s p} (h : Calm s₀ s) :
    Calm s₀ (leaveCascade s p) := by
  unfold leaveCascade
  extract_lets s1
  have hs1 : Calm s₀ s1 := setRgF_canonical (setRgF_canonical h)
  exact hlCascade_canonical hs1

theorem cutOther_canonical {s p} (h : Calm s₀ s) :
    Calm s₀ (cutOther s p) :=
  leaveCascade_canonical (fenceHolder_canonical h)

theorem fenceArrive_canonical {s die h} (hm : Calm s₀ s) :
    Calm s₀ (fenceArrive s die h) := by
  unfold fenceArrive
  split
  next x4 =>
    exact ite_canonical (leaveCascade_canonical (setFence_canonical (gArrive_canonical (takePacket_canonical hm x4)))) (setFence_canonical (gArrive_canonical (takePacket_canonical hm x4)))
  · exact hm

theorem cutSelf_canonical {s} (h : Calm s₀ s) :
    Calm s₀ (cutSelf s) :=
  hlCascade_canonical (raiseSrc_canonical (setHoldover_canonical (setRgF_canonical (foldl_canonical (fun _ _ h3 => ite_canonical h3 (fenceHolder_canonical h3)) h))))

theorem bundleLoss_canonical {s a b} (h : Calm s₀ s) :
    Calm s₀ (bundleLoss s a b) :=
  ite_canonical h (ite_canonical h (ite_canonical h (ite_canonical (cutSelf_canonical h) (cutOther_canonical h))))

theorem performBcast_canonical {s n k t} (h : Calm s₀ s) :
    Calm s₀ (performBcast s n k t) :=
  bcastHere_canonical (by
    split
    · exact tinvSpread_canonical h
    · exact h)

theorem masterBcast_canonical {s b} (h : Calm s₀ s) :
    Calm s₀ (masterBcast s b) :=
  performBcast_canonical (foldl_canonical (fun _ _ h3 => bcastSend_canonical h3) h)

theorem setRport_canonical {s i x} (h : Calm s₀ s) :
    Calm s₀ (setRport s i x) :=
  h

theorem devReply_canonical {s p c d} (h : Calm s₀ s) :
    Calm s₀ (devReply s p c d) :=
  send_canonical h

theorem devComplete_canonical {s p good d} (h : Calm s₀ s) :
    Calm s₀ (devComplete s p good d) :=
  ite_canonical (devReply_canonical h) (ite_canonical (devReply_canonical h) (devReply_canonical h))

theorem portDev_canonical {s p a} (h : Calm s₀ s) :
    Calm s₀ (portDev s p a) :=
  ite_canonical (devComplete_canonical h) (ite_canonical (setRport_canonical h) (setRport_canonical h))

theorem hubTransact_canonical {s m f} (h : Calm s₀ s) :
    Calm s₀ (hubTransact s m f).2 := by
  unfold hubTransact
  dsimp only
  split
  next x4 =>
    exact takeAny_canonical (transact_canonical (newTxid_canonical h)) x4
  · exact transact_canonical (newTxid_canonical h)

theorem hubNote_canonical {s m} (h : Calm s₀ s) :
    Calm s₀ (hubNote s m) :=
  h

theorem hubAccess_canonical {s m f} (h : Calm s₀ s) :
    Calm s₀ (hubAccess s m f).2.2 := by
  unfold hubAccess
  extract_lets _ s12
  have hs12 : Calm s₀ s12 := h
  split
  · split
    · exact h
    · exact hs12
    · exact hs12
  · exact ite_snd_snd_canonical (by
      split
      next x18 =>
        exact snd_canonical (hubTransact_canonical h) x18
      · exact hubNote_canonical h) (hubNote_canonical h)

theorem hioNote_canonical {s c r line} (h : Calm s₀ s) :
    Calm s₀ (hioNote s c r line) :=
  hubNote_canonical h

theorem hioStore_canonical {s line mask d} (h : Calm s₀ s) :
    Calm s₀ (hioStore s line mask d) :=
  breakResv_canonical (setHline_canonical h)

theorem hubFar_canonical {s r pa aop size x c f} (h : Calm s₀ s) :
    Calm s₀ (hubFar s r pa aop size x c f).2.2 :=
  ite_snd_snd_canonical h (by
    split
    next x5 =>
      exact snd_snd_canonical (hubAccess_canonical h) x5)

theorem hubPause_canonical {s0 s1} (h : Calm s₀ s0) :
    Calm s₀ (hubPause s0 s1) :=
  h

theorem setShare_canonical {s n x} (h : Calm s₀ s) :
    Calm s₀ (setShare s n x) :=
  h

theorem raiseVec_canonical {s v} (h : Calm s₀ s) :
    Calm s₀ (raiseVec s v) :=
  ite_canonical (postTo_canonical h) (setRgF_canonical h)

theorem msiDrop_canonical {s} (h : Calm s₀ s) :
    Calm s₀ (msiDrop s) :=
  incRgF_canonical h

theorem msiWrite_canonical {s rid sec x} (h : Calm s₀ s) :
    Calm s₀ (msiWrite s rid sec x) :=
  ite_canonical (msiDrop_canonical h) (raiseVec_canonical h)

theorem setQueue_canonical {s q x} (h : Calm s₀ s) :
    Calm s₀ (setQueue s q x) :=
  h

theorem setQState_canonical {s q x} (h : Calm s₀ s) :
    Calm s₀ (setQState s q x) :=
  setRgF_canonical h

theorem setCqFull_canonical {s q} (h : Calm s₀ s) :
    Calm s₀ (setCqFull s q) :=
  setRgF_canonical h

theorem dbErr_canonical {s q} (h : Calm s₀ s) :
    Calm s₀ (dbErr s q) :=
  incRgF_canonical h

theorem wakeFor_canonical {s q} (h : Calm s₀ s) :
    Calm s₀ (wakeFor s q) :=
  ite_canonical h (wakeDom_canonical h)

theorem sqdbWrite_canonical {s q x} (h : Calm s₀ s) :
    Calm s₀ (sqdbWrite s q x) :=
  ite_canonical (dbErr_canonical h) (setCqFull_canonical (wakeFor_canonical (setQueue_canonical h)))

theorem cqdbWrite_canonical {s q x} (h : Calm s₀ s) :
    Calm s₀ (cqdbWrite s q x) :=
  ite_canonical (dbErr_canonical h) (ite_canonical (dbErr_canonical h) (setCqFull_canonical (wakeFor_canonical (setQueue_canonical h))))

theorem tryClose_canonical {s q} (h : Calm s₀ s) :
    Calm s₀ (tryClose s q) :=
  ite_canonical (setQState_canonical (setRgF_canonical h)) h

theorem queueEnable_canonical {s q v} (h : Calm s₀ s) :
    Calm s₀ (queueEnable s q v) :=
  ite_canonical h (by
    split
    · exact h
    · exact ite_canonical h (setQState_canonical (setRgF_canonical (setRgF_canonical (setRgF_canonical (setRgF_canonical (setQueue_canonical (ite_canonical (setRgF_canonical (ite_canonical (setRgF_canonical h) h)) (ite_canonical (setRgF_canonical h) h)))))))))

theorem queueDisable_canonical {s q} (h : Calm s₀ s) :
    Calm s₀ (queueDisable s q) :=
  ite_canonical h (tryClose_canonical (setQueue_canonical (setQState_canonical h)))

theorem queueIrq_canonical {s q} (h : Calm s₀ s) :
    Calm s₀ (queueIrq s q) := by
  unfold queueIrq
  extract_lets _ s2 _
  have hs2 : Calm s₀ s2 := setQueue_canonical h
  split
  · exact hs2
  · exact ite_canonical (msiDrop_canonical hs2) (raiseVec_canonical hs2)

theorem recordIrq_canonical {s n q now_} (h : Calm s₀ s) :
    Calm s₀ (recordIrq s n q now_) :=
  ite_canonical h (ite_canonical (queueIrq_canonical h) (setQueue_canonical h))

theorem holdExpiry_canonical {s q} (h : Calm s₀ s) :
    Calm s₀ (holdExpiry s q) := by
  unfold holdExpiry
  split
  · exact ite_canonical (queueIrq_canonical h) h
  · exact h

theorem queueError_canonical {s q} (h : Calm s₀ s) :
    Calm s₀ (queueError s q) :=
  raiseSrc_canonical (setQState_canonical (setQueue_canonical h))

theorem dropItem_canonical {s q idx} (h : Calm s₀ s) :
    Calm s₀ (dropItem s q idx) :=
  setQueue_canonical h

theorem countDrain_canonical {s n squashed} (h : Calm s₀ s) :
    Calm s₀ (countDrain s n squashed) :=
  ite_canonical (ite_canonical (incRgF_canonical h) (incRgF_canonical h)) h

theorem moveQueues_canonical {s n from_ to_} (h : Calm s₀ s) :
    Calm s₀ (moveQueues s n from_ to_) :=
  foldl_canonical (fun _ _ h3 => ite_canonical (setQState_canonical h3) h3) h

theorem shEnable_canonical {s n} (h : Calm s₀ s) :
    Calm s₀ (shEnable s n) :=
  moveQueues_canonical (setRgF_canonical h)

theorem startShut_canonical {s n kind} (h : Calm s₀ s) :
    Calm s₀ (startShut s n kind) :=
  setShare_canonical (moveQueues_canonical (setRgF_canonical (setRgF_canonical (setRgF_canonical h))))

theorem shLife_canonical {s op n} (h : Calm s₀ s) :
    Calm s₀ (shLife s op n).2 :=
  ite_snd_canonical (ite_snd_canonical (shEnable_canonical h) (ite_snd_canonical h (ite_snd_canonical h (setRgF_canonical h)))) (ite_snd_canonical (ite_snd_canonical h (ite_snd_canonical (startShut_canonical h) (ite_snd_canonical h (setRgF_canonical h)))) (ite_snd_canonical (ite_snd_canonical (startShut_canonical h) (ite_snd_canonical h (setRgF_canonical h))) (ite_snd_canonical (startShut_canonical h) (ite_snd_canonical h (setRgF_canonical (setRgF_canonical h))))))

theorem shBind_canonical {s n q kind target} (h : Calm s₀ s) :
    Calm s₀ (shBind s n q kind target).2 :=
  ite_snd_canonical h (ite_snd_canonical h (ite_snd_canonical h (ite_snd_canonical h (setQueue_canonical (setRgF_canonical h)))))

theorem resetQueue_canonical {s q} (h : Calm s₀ s) :
    Calm s₀ (resetQueue s q) :=
  setQueue_canonical (setRgF_canonical (foldl_canonical (fun _ _ h3 => setRg_canonical h3) h))

theorem clearSessions_canonical {s n} (h : Calm s₀ s) :
    Calm s₀ (clearSessions s n) :=
  h

theorem freeShare_canonical {s n} (h : Calm s₀ s) :
    Calm s₀ (freeShare s n) :=
  setRg_canonical (setShare_canonical (foldl_canonical (fun _ _ h3 => setRg_canonical (setRg_canonical h3)) (foldl_canonical (fun _ _ h6 => setQueue_canonical (setRgF_canonical (resetQueue_canonical h6))) h)))

theorem shutComplete_canonical {s n} (h : Calm s₀ s) :
    Calm s₀ (shutComplete s n) :=
  ite_canonical h (raiseSrc_canonical (ite_canonical (ite_canonical (shEnable_canonical (setRgF_canonical (setRgF_canonical (ite_canonical h (clearSessions_canonical h))))) (setRgF_canonical (setRgF_canonical (setRgF_canonical (ite_canonical h (clearSessions_canonical h)))))) (ite_canonical (ite_canonical (shEnable_canonical (setRgF_canonical (setRgF_canonical (foldl_canonical (fun _ _ h3 => resetQueue_canonical h3) (ite_canonical h (clearSessions_canonical h)))))) (setRgF_canonical (setRgF_canonical (setRgF_canonical (foldl_canonical (fun _ _ h6 => resetQueue_canonical h6) (ite_canonical h (clearSessions_canonical h))))))) (freeShare_canonical (ite_canonical h (clearSessions_canonical h))))))

theorem setSession_canonical {s z x} (h : Calm s₀ s) :
    Calm s₀ (setSession s z x) :=
  h

theorem freeWords_canonical {x0 x1} (h : Calm s₀ x1) :
    Calm s₀ (freeWords x0 x1).2 := by
  induction x0 generalizing x1 with
  | zero => exact h
  | succ x0 ih =>
    unfold freeWords
    split
    next x4 =>
      split
      next x8 =>
        exact snd_canonical (ih (snd_canonical (freeWord_canonical h) x4)) x8

theorem updItem_canonical {s q it} (h : Calm s₀ s) :
    Calm s₀ (updItem s q it) :=
  setQueue_canonical h

theorem unitFailed_canonical {s u} (h : Calm s₀ s) :
    Calm s₀ (unitFailed s u) :=
  ite_canonical (raiseSrc_canonical (logErr_canonical (setRgF_canonical (setRg_canonical h)))) h

theorem checkFailed_canonical {c s f} (h : Calm s₀ s) :
    Calm s₀ (checkFailed c s f) :=
  ite_canonical (foldl_canonical (fun _ _ h3 => unitFailed_canonical h3) (foldl_canonical (fun _ _ h6 => unitFailed_canonical h6) (incRgF_canonical h))) (foldl_canonical (fun _ _ h9 => unitFailed_canonical h9) (incRgF_canonical h))

theorem suspendFor_canonical {s q idx} (h : Calm s₀ s) :
    Calm s₀ (suspendFor s q idx) := by
  unfold suspendFor
  split
  · exact h
  · exact ite_canonical h (by
      split
      · exact h
      · split
        · exact setSession_canonical (updItem_canonical h)
        · exact updItem_canonical h)

theorem resumeOn_canonical {s c} (h : Calm s₀ s) :
    Calm s₀ (resumeOn s c) := by
  unfold resumeOn
  split
  · exact h
  · exact ite_canonical h (updItem_canonical h)

theorem loadSession_canonical {s n z d key} (h : Calm s₀ s) :
    Calm s₀ (loadSession s n z d key) := by
  unfold loadSession
  extract_lets __src1
  have h__src1 : Calm s₀ __src1 := setSession_canonical h
  exact h__src1

theorem joinIsland_canonical {s q it} (h : Calm s₀ s) :
    Calm s₀ (joinIsland s q it) :=
  updItem_canonical h

theorem keyWrap_canonical {s q idx} (h : Calm s₀ s) :
    Calm s₀ (keyWrap s q idx) := by
  unfold keyWrap
  split
  · exact h
  · exact ite_canonical h (joinIsland_canonical h)

theorem lgRefresh_canonical {s g} (h : Calm s₀ s) :
    Calm s₀ (lgRefresh s g) :=
  ite_canonical h (ite_canonical (setLgState_canonical h) (ite_canonical (setLgState_canonical h) (ite_canonical (setLgState_canonical h) (ite_canonical (setLgState_canonical h) h))))

theorem setEthLink_canonical {s n up} (h : Calm s₀ s) :
    Calm s₀ (setEthLink s n up) :=
  ite_canonical h (lgRefresh_canonical (raiseSrc_canonical (setRgF_canonical h)))

theorem portDown_canonical {s g k} (h : Calm s₀ s) :
    Calm s₀ (portDown s g k) :=
  lgRefresh_canonical (raiseSrc_canonical (foldl_canonical (fun _ _ h3 => devComplete_canonical h3) (setRport_canonical h)))

theorem lgLinksDown_canonical {s g} (h : Calm s₀ s) :
    Calm s₀ (lgLinksDown s g) :=
  ite_canonical (foldl_canonical (fun _ _ h3 => portDown_canonical h3) h) (ite_canonical (foldl_canonical (fun _ _ h6 => setEthLink_canonical h6) h) (ite_canonical (setPal_canonical h) h))

theorem lgTrain_canonical {s g} (h : Calm s₀ s) :
    Calm s₀ (lgTrain s g) :=
  lgRefresh_canonical (setLgState_canonical (ite_canonical (setRgF_canonical (setDom_canonical h)) (setDom_canonical h)))

theorem setSlot_canonical {s e b x} (h : Calm s₀ s) :
    Calm s₀ (setSlot s e b x) :=
  h

theorem setSlotSt_canonical {s e b v} (h : Calm s₀ s) :
    Calm s₀ (setSlotSt s e b v) :=
  ite_canonical (setSlot_canonical (setRgF_canonical h)) (ite_canonical (setSlot_canonical (setRgF_canonical h)) (setRgF_canonical h))

theorem oeSettle_canonical {s e} (h : Calm s₀ s) :
    Calm s₀ (oeSettle s e) :=
  lgRefresh_canonical (lgRefresh_canonical (setRgF_canonical h))

theorem oeLight_canonical {s e} (h : Calm s₀ s) :
    Calm s₀ (oeLight s e) :=
  ite_canonical h (ite_canonical (oeSettle_canonical (setSlotSt_canonical h)) (ite_canonical (oeSettle_canonical (setRgF_canonical (setSlotSt_canonical h))) h))

theorem engFollow_canonical {s e} (h : Calm s₀ s) :
    Calm s₀ (engFollow s e) :=
  ite_canonical (oeLight_canonical (setDom_canonical h)) (ite_canonical (setDom_canonical (setRgF_canonical (foldl_canonical (fun _ _ h3 => ite_canonical (setSlotSt_canonical h3) h3) h))) h)

theorem devstoreTimeout_canonical {s g k} (h : Calm s₀ s) :
    Calm s₀ (devstoreTimeout s g k) :=
  foldl_canonical (fun _ _ h3 => devComplete_canonical h3) (setRport_canonical h)

theorem portL0_canonical {s g k flit} (h : Calm s₀ s) :
    Calm s₀ (portL0 s g k flit) :=
  ite_canonical h (ite_canonical (setRgF_canonical h) (lgRefresh_canonical (setRport_canonical (setRgF_canonical h))))

theorem pcieCompletion_canonical {s g k tx good d} (h : Calm s₀ s) :
    Calm s₀ (pcieCompletion s g k tx good d) := by
  unfold pcieCompletion
  extract_lets _ _
  split
  · exact h
  · exact devComplete_canonical (setRport_canonical h)

theorem aer_canonical {s g k} (h : Calm s₀ s) :
    Calm s₀ (aer s g k) :=
  raiseSrc_canonical h

theorem portCpl_canonical {s i good bs} (h : Calm s₀ s) :
    Calm s₀ (portCpl s i good bs) :=
  setRport_canonical h

theorem ethportWrite_canonical {s b n v} (h : Calm s₀ s) :
    Calm s₀ (ethportWrite s b n v) :=
  ite_canonical (hlDenied_canonical h) (ite_canonical (ite_canonical h (lgRefresh_canonical (setRgF_canonical (setEthLink_canonical h)))) (ite_canonical (setRgF_canonical (setRgF_canonical (setRgF_canonical h))) (ite_canonical (lgRefresh_canonical (setRgF_canonical (setRgF_canonical (setRgF_canonical (setRgF_canonical h))))) (setRgF_canonical (setRgF_canonical (setRgF_canonical (setRgF_canonical h)))))))

theorem pauseFrame_canonical {s n bs} (h : Calm s₀ s) :
    Calm s₀ (pauseFrame s n bs) :=
  ite_canonical h (ite_canonical (foldl_canonical (fun _ _ h3 => ite_canonical h3 h3) h) h)

theorem rxPost_canonical {s q} (h : Calm s₀ s) :
    Calm s₀ (rxPost s q) :=
  ite_canonical h (by
    split
    · exact h
    · exact setQueue_canonical h)

end Sys2Proof.Machine
end

section
/-! PROOFS. The canonical form of the memories (O60): messages, fabric, links, time and the window. -/
namespace Sys2Proof.Machine

open Sys2Proof

variable {s₀ : State}

/-- The next line of the block is read, and the rest after it. -/
theorem cntLoadLines_cons (s : State) (c pa : Nat) (a : Attr) (i : Nat) (is : List Nat) (acc : Nat) :
    cntLoadLines s c pa a (i :: is) acc = match readWb s c (pa / 64 + i) a .none_ with
      | (.data d false, s) => cntLoadLines s c pa a is (acc + d.toNat * 2 ^ (512 * i))
      | (.wait, s) => ((.wait, (pa / 64 + i) * 64), s)
      | (_, s) => ((.err, (pa / 64 + i) * 64), s) := by
  rfl

theorem cntLoadLines_canonical {s c pa a l acc} (h : Calm s₀ s) : Calm s₀ (cntLoadLines s c pa a l acc).2 := by
  induction l generalizing s acc with
  | nil => exact h
  | cons i is ih =>
    have hr : Calm s₀ (readWb s c (pa / 64 + i) a .none_).2 := readWb_canonical h
    rw [cntLoadLines_cons]
    generalize readWb s c (pa / 64 + i) a .none_ = r at hr ⊢
    obtain ⟨g, t⟩ := r
    cases g with
    | data d poison =>
      cases poison with
      | false => exact ih hr
      | true => exact hr
    | wait => exact hr
    | err => exact hr

theorem cntsave_canonical {c v s} (h : Calm s₀ s) :
    Calm s₀ (cntsave c v s).2 := by
  unfold cntsave
  extract_lets _ _ _ _ fail5 _ _
  have hfail5 : ∀ x0 x1 x2, Calm s₀ x0 → Calm s₀ (fail5 x0 x1 x2).2 := by
    intro _ _ _ h11
    unfold fail5
    split
    next x15 =>
      exact snd_canonical (busError_canonical h11) x15
  split
  · exact h
  · split
    next x22 =>
      extract_lets s23
      have hs23 : Calm s₀ s23 := cntKeep_canonical (snd_canonical (by
        split
        · exact cntSaveLines_canonical h
        · exact h) x22)
      split
      · exact hs23
      · exact hfail5 _ _ _ hs23
      · split
        next x33 =>
          extract_lets s34 s35
          have hs34 : Calm s₀ s34 := cntKeep_canonical (snd_canonical (by
            split
            · exact cntLoadLines_canonical hs23
            · exact hs23) x33)
          have hs35 : Calm s₀ s35 := sysWrite_canonical hs34
          split
          · exact hs34
          · exact hfail5 _ _ _ hs35
          · exact ite_canonical (cntLoad_canonical hs35) hs35

theorem bodySyswr_canonical {c o x2} (h : Calm s₀ x2) :
    Calm s₀ (bodySyswr c o x2).2 :=
  guardWord_canonical (by
    intro _ h2
    split
    · exact h2
    · exact ite_snd_canonical (cntsave_canonical h2) (sysWriteEff_canonical h2)) h

theorem identArrive_canonical {s i} (h : Calm s₀ s) : Calm s₀ (identArrive s i) := by
  unfold identArrive
  extract_lets g s1 old s2 s3 s4 held4 held3 w s5 s6 c
  have h2 : Calm s₀ s2 := palSay_canonical (setRgF_canonical (setRgF_canonical h))
  have h3 : Calm s₀ s3 := h2
  have h4 : Calm s₀ s4 := dupId_canonical h3
  have hh4 : Calm s₀ held4 := holdAll_canonical h4
  have hh3 : Calm s₀ held3 := holdAll_canonical h3
  have h6 : Calm s₀ s6 := ite_canonical (setPal_canonical (setRgF_canonical h3)) (setRgF_canonical h3)
  clear_value s3 s4 held4 held3 s6
  exact ite_canonical h (ite_canonical (ite_canonical hh4 h4) (ite_canonical hh3
    (ite_canonical (setPal_canonical (setRgF_canonical h3)) (ite_canonical h3 (ite_canonical h6 (ite_canonical (hotAdd_canonical h6) h6))))))

theorem nextOwn_canonical {s f g b t} (h : Calm s₀ s) (e : nextOwn s f g = some (b, t)) : Calm s₀ t := by
  obtain ⟨a, _, e⟩ := Option.map_eq_some_iff.mp e
  cases e
  exact h

theorem bcastIssue_canonical {s} (h : Calm s₀ s) :
    Calm s₀ (bcastIssue s) :=
  ite_canonical h (ite_canonical (by
    split
    next x4 =>
      exact masterBcast_canonical (nextOwn_canonical h x4)
    · exact h) (by
    split
    next x10 =>
      exact bcastSend_canonical (nextOwn_canonical h x10)
    · exact h))

theorem bcastArrive_canonical {s b} (h : Calm s₀ s) : Calm s₀ (bcastArrive s b) := by
  unfold bcastArrive
  split
  · exact bcastPart_canonical h
  · split
    · exact ite_canonical h (masterBcast_canonical h)
    · split
      · exact h
      · split
        · split
          next e =>
            have ht := nextOwn_canonical h e
            exact performBcast_canonical ht
          · exact h
        · exact performBcast_canonical h

theorem cascadeBroadcast_canonical {s i} (h : Calm s₀ s) :
    Calm s₀ (cascadeBroadcast s i) := by
  unfold cascadeBroadcast
  split
  · exact bcastIssue_canonical h
  · exact bcastArrive_canonical h

theorem hioLook_canonical {s line r d t} (h : Calm s₀ s) (e : hioLook s line = some (r, d, t)) : Calm s₀ t := by
  unfold hioLook at e
  extract_lets x at e
  split at e
  · cases e
    exact h
  · split at e
    · cases e
      exact setHline_canonical h
    · split at e
      · cases e
        exact h
      · cases e

theorem hioFetch_canonical {s c line a f t} (h : Calm s₀ s) (e : hioFetch s c line a f = some t) : Calm s₀ t := by
  unfold hioFetch at e
  split at e
  · cases e
  · obtain ⟨u, hu, e⟩ := Option.map_eq_some_iff.mp e
    have h' : Calm s₀ u := by
      split at hu
      · cases hu
        exact h
      · exact hioPlace_canonical h hu
    rw [← e]
    split
    next x => exact runReq_canonical (snd_canonical (issueReq_canonical h') x)

theorem hubReadMem_canonical {s r line f} (h : Calm s₀ s) : Calm s₀ (hubReadMem s r line f).2.2 := by
  unfold hubReadMem
  extract_lets s1
  have h1 : Calm s₀ s1 := worldEvict_canonical h
  clear_value s1
  split
  · exact hubAccess_canonical h
  · split
    · exact hioNote_canonical h
    · split
      next x e => exact hioLook_canonical (r := x.1) (d := x.2.1) h1 e
      · split
        · exact hubAccess_canonical h1
        next s2 e =>
          have h2 : Calm s₀ s2 := hioFetch_canonical h1 e
          split
          · exact hioNote_canonical h1
          next x _ e => exact hioLook_canonical (r := x.1) (d := x.2.1) h2 e
          · exact hioNote_canonical h1

theorem hubWriteMem_canonical {s r line mask d f} (h : Calm s₀ s) :
    Calm s₀ (hubWriteMem s r line mask d f).2 := by
  unfold hubWriteMem
  extract_lets _ wrc2 s13 _ _
  have hwrc2 : ∀ x0, Calm s₀ x0 → Calm s₀ (wrc2 x0).2 := fun _ h7 => hubAccess_canonical h7
  have hs13 : Calm s₀ s13 := worldEvict_canonical h
  exact ite_snd_canonical (hwrc2 _ h) (ite_snd_canonical (hioNote_canonical h) (ite_snd_canonical (hioStore_canonical hs13) (ite_snd_canonical (setHline_canonical hs13) (ite_snd_canonical hs13 (by
    split
    · exact hwrc2 _ hs13
    next x12 =>
      exact ite_snd_canonical (hioStore_canonical (hioFetch_canonical hs13 x12)) (ite_snd_canonical (setHline_canonical (hioFetch_canonical hs13 x12)) (hioNote_canonical hs13)))))))

theorem hubRead_canonical {s r pa f a} (h : Calm s₀ s) :
    Calm s₀ (hubRead s r pa f a).2.2 :=
  ite_snd_snd_canonical (hubReadMem_canonical h) (ite_snd_snd_canonical (ite_snd_snd_canonical (by
    split
    next x4 =>
      exact snd_canonical (freeLine_canonical h) x4) h) h)

theorem hubWrite_canonical {s r pa mask d f a} (h : Calm s₀ s) :
    Calm s₀ (hubWrite s r pa mask d f a).2 :=
  ite_snd_canonical (hubWriteMem_canonical h) (ite_snd_canonical h h)

theorem orPause_canonical {s r} (h : Calm s₀ s) (hr : Calm s₀ r.2) : Calm s₀ (orPause s r) :=
  ite_canonical hr (hubPause_canonical h)

theorem hubReadBytes_canonical {r f a x3 x4 x5} (h : Calm s₀ x5) :
    Calm s₀ (hubReadBytes r f a x3 x4 x5).2.2 := by
  induction x3 generalizing r f a x4 x5 with
  | zero => exact h
  | succ x3 ih =>
    unfold hubReadBytes
    split
    next x4 =>
      split
      next x9 =>
        exact snd_snd_canonical (ih (snd_snd_canonical (hubRead_canonical h) x4)) x9
    next x15 =>
      exact snd_snd_canonical (hubRead_canonical h) x15

theorem hubWriteBytes_canonical {r f a fuel pa l s} (h : Calm s₀ s) :
    Calm s₀ (hubWriteBytes r f a fuel pa l s).2.2 := by
  induction fuel generalizing pa l s with
  | zero => exact h
  | succ fuel ih =>
    cases l with
    | nil => exact h
    | cons b bs =>
      unfold hubWriteBytes
      extract_lets n part
      have hw : Calm s₀ (hubWrite s r pa (byteMask (pa % 64) n) (linePut 0 (pa % 64) n (ofBytesLE part)) f a).2 :=
        hubWrite_canonical h
      split
      next x =>
        split
        next y => exact snd_snd_canonical (ih (snd_canonical hw x)) y
      next x => exact snd_canonical hw x

theorem hubWalk_canonical {r t tlb ipa lv tbl x6 x7 x8} (h : Calm s₀ x8) :
    Calm s₀ (hubWalk r t tlb ipa lv tbl x6 x7 x8).2 := by
  induction x6 generalizing r t tlb ipa lv tbl x7 x8 with
  | zero => exact h
  | succ x6 ih =>
    unfold hubWalk
    split
    · exact h
    · exact ite_snd_canonical h (by
        split
        next x10 =>
          exact snd_snd_canonical (hubReadMem_canonical h) x10
        next x14 =>
          exact ih (snd_snd_canonical (hubReadMem_canonical h) x14)
        next x18 =>
          exact ih (snd_snd_canonical (hubReadMem_canonical h) x18))

theorem hubXlate_canonical {s n st ipa wr fresh} (h : Calm s₀ s) :
    Calm s₀ (hubXlate s n st ipa wr fresh).2 := by
  unfold hubXlate
  extract_lets _ _ _
  exact ite_snd_canonical h (ite_snd_canonical h (by
    split
    next x7 =>
      exact snd_canonical (hubWalk_canonical h) x7
    next x12 =>
      exact ite_snd_canonical (snd_canonical (hubWalk_canonical h) x12) (by
        split
        · exact snd_canonical (hubWalk_canonical h) x12
        · exact have hm := snd_canonical (hubWalk_canonical h) x12; hm)))

theorem shRead_canonical {n st i a x4 x5 x6 x7} (h : Calm s₀ x7) :
    Calm s₀ (shRead n st i a x4 x5 x6 x7).2.2 := by
  induction x4 generalizing n st i a x5 x6 x7 with
  | zero => exact h
  | succ x4 ih =>
    unfold shRead
    extract_lets _
    exact ite_snd_snd_canonical h (by
      split
      next x5 =>
        exact snd_canonical (hubXlate_canonical h) x5
      next x8 =>
        exact snd_canonical (hubXlate_canonical h) x8
      next x13 =>
        split
        next x17 =>
          split
          next x22 =>
            exact snd_snd_canonical (ih (snd_snd_canonical (hubReadBytes_canonical (snd_canonical (hubXlate_canonical h) x13)) x17)) x22
        next x26 =>
          exact snd_snd_canonical (hubReadBytes_canonical (snd_canonical (hubXlate_canonical h) x13)) x26
        next x30 =>
          exact snd_snd_canonical (hubReadBytes_canonical (snd_canonical (hubXlate_canonical h) x13)) x30)

theorem shWrite_canonical {n st i a x4 x5 x6 x7} (h : Calm s₀ x7) :
    Calm s₀ (shWrite n st i a x4 x5 x6 x7).2.2 := by
  induction x4 generalizing n st i a x5 x6 x7 with
  | zero => exact h
  | succ x4 ih =>
    unfold shWrite
    extract_lets _
    exact ite_snd_snd_canonical h (by
      split
      next x5 =>
        exact snd_canonical (hubXlate_canonical h) x5
      next x8 =>
        exact snd_canonical (hubXlate_canonical h) x8
      next x13 =>
        split
        next x17 =>
          split
          next x22 =>
            exact snd_snd_canonical (ih (snd_snd_canonical (hubWriteBytes_canonical (snd_canonical (hubXlate_canonical h) x13)) x17)) x22
        next x26 =>
          exact snd_snd_canonical (hubWriteBytes_canonical (snd_canonical (hubXlate_canonical h) x13)) x26
        next x30 =>
          exact snd_snd_canonical (hubWriteBytes_canonical (snd_canonical (hubXlate_canonical h) x13)) x30)

theorem shReadBuf_canonical {s n st i a ipa len} (h : Calm s₀ s) :
    Calm s₀ (shReadBuf s n st i a ipa len).2.2 :=
  shRead_canonical h

theorem shWriteBuf_canonical {s n st i a ipa bs} (h : Calm s₀ s) :
    Calm s₀ (shWriteBuf s n st i a ipa bs).2.2 :=
  shWrite_canonical h

theorem writeRecord_canonical {s n q it o i} (h : Calm s₀ s) :
    Calm s₀ (writeRecord s n q it o i).2 := by
  unfold writeRecord
  extract_lets _ _
  split
  · exact hubPause_canonical h
  next x10 =>
    exact tryClose_canonical (recordIrq_canonical (countDrain_canonical (ite_canonical (setRgF_canonical (setRgF_canonical (dropItem_canonical (snd_snd_canonical (shWriteBuf_canonical h) x10)))) (setRgF_canonical (dropItem_canonical (snd_snd_canonical (shWriteBuf_canonical h) x10))))))
  next x17 =>
    exact queueError_canonical (snd_snd_canonical (shWriteBuf_canonical h) x17)

theorem flushCipher_canonical {n q i x3 x4} (h : Calm s₀ x4) :
    Calm s₀ (flushCipher n q i x3 x4) := by
  induction x3 generalizing n q i x4 with
  | zero => exact h
  | succ x3 ih =>
    unfold flushCipher
    split
    · split
      · split
        next x11 =>
          exact ih (snd_canonical (writeRecord_canonical h) x11)
        next x14 =>
          exact snd_canonical (writeRecord_canonical h) x14
      · exact h
    · exact h

theorem flushInTurn_canonical {n q i x3 x4} (h : Calm s₀ x4) :
    Calm s₀ (flushInTurn n q i x3 x4) := by
  induction x3 generalizing n q i x4 with
  | zero => exact h
  | succ x3 ih =>
    unfold flushInTurn
    split
    · split
      · split
        next x12 =>
          exact ih (snd_canonical (writeRecord_canonical h) x12)
        next x15 =>
          exact snd_canonical (writeRecord_canonical h) x15
      · exact h
    · exact h

theorem flushBad_canonical {n q i fuel s} (h : Calm s₀ s) :
    Calm s₀ (flushBad n q i fuel s) :=
  ite_canonical (flushCipher_canonical h) (flushInTurn_canonical h)

theorem finishItem_canonical {s0 s n q it o i} (h : Calm s₀ s0) (h_s : Calm s₀ s) :
    Calm s₀ (finishItem s0 s n q it o i) := by
  unfold finishItem
  split
  next x3 =>
    exact flushBad_canonical (snd_canonical (writeRecord_canonical h_s) x3)
  · exact hubPause_canonical h

theorem fetchDesc_canonical {s q i} (h : Calm s₀ s) :
    Calm s₀ (fetchDesc s q i) := by
  unfold fetchDesc
  split
  · exact h
  · extract_lets _ _ _
    split
    · exact h
    · split
      · exact setRgF_canonical h
      · split
        · exact h
        · split
          next x19 =>
            extract_lets _ item21 _
            clear_value item21
            split
            · exact hubPause_canonical h
            · extract_lets s26 s27 s28
              have hs26 : Calm s₀ s26 := setQueue_canonical (snd_snd_canonical (shReadBuf_canonical h) x19)
              have hs27 : Calm s₀ s27 := hs26
              have hs28 : Calm s₀ s28 := setRgF_canonical hs27
              exact flushBad_canonical (setRgF_canonical hs28)

theorem shCreate_canonical {s c} (h : Calm s₀ s) : Calm s₀ (shCreate s c).2 := by
  unfold shCreate
  extract_lets nqp nvc nvec cred nsess s2en s2base
  refine ite_snd_canonical h ?_
  split
  · exact h
  · refine ite_snd_canonical h ?_
    split
    · exact setRg_canonical (setShare_canonical h)
    · exact h

theorem shRun_canonical {s b op c where_} (h : Calm s₀ s) :
    Calm s₀ (shRun s b op c where_).2 :=
  ite_snd_canonical h (ite_snd_canonical (hlDenied_canonical h) (ite_snd_canonical (shCreate_canonical h) (ite_snd_canonical h (ite_snd_canonical (ite_snd_canonical h (by
    split
    next x4 =>
      exact snd_canonical (shBind_canonical h) x4)) (by
    split
    next x8 =>
      exact snd_canonical (shLife_canonical h) x8)))))

theorem shcmdGo_canonical {s b op v} (h : Calm s₀ s) :
    Calm s₀ (shcmdGo s b op v) := by
  unfold shcmdGo
  extract_lets s1 _
  have hs1 : Calm s₀ s1 := setRg_canonical h
  exact ite_canonical (setRgF_canonical h) (by
    split
    next x6 =>
      exact setRgF_canonical (ite_canonical (setRg_canonical (setRg_canonical (snd_canonical (shRun_canonical hs1) x6))) (snd_canonical (shRun_canonical hs1) x6)))

theorem squashQueue_canonical {n q i x3 x4} (h : Calm s₀ x4) :
    Calm s₀ (squashQueue n q i x3 x4) := by
  induction x3 generalizing n q i x4 with
  | nil => exact setQueue_canonical h
  | cons a x3 ih =>
    unfold squashQueue
    split
    next x3 =>
      exact ih (snd_canonical (writeRecord_canonical h) x3)
    next x6 =>
      exact snd_canonical (writeRecord_canonical h) x6

theorem drainTimeout_canonical {s n i} (h : Calm s₀ s) :
    Calm s₀ (drainTimeout s n i) :=
  foldl_canonical (fun _ _ h3 => ite_canonical (squashQueue_canonical h3) h3) h

theorem cipherEnd_canonical {s0 s n q it o i} (h : Calm s₀ s0) (h_s : Calm s₀ s) :
    Calm s₀ (cipherEnd s0 s n q it o i) := by
  unfold cipherEnd
  extract_lets s1
  have hs1 : Calm s₀ s1 := by
    unfold s1
    split
    · extract_lets _ __src6
      have h__src6 : Calm s₀ __src6 := setSession_canonical h_s
      split
      · exact h__src6
      · exact h_s
    · exact h_s
  exact finishItem_canonical h hs1

theorem msgEnd_canonical {s n st i d m c} (h : Calm s₀ s) :
    Calm s₀ (msgEnd s n st i d m c).2.2 :=
  ite_snd_snd_canonical h (ite_snd_snd_canonical (by
    split
    next x5 =>
      exact snd_snd_canonical (shWriteBuf_canonical h) x5) (by
    split
    next x10 =>
      exact snd_snd_canonical (shReadBuf_canonical h) x10))

theorem sessionInit_canonical {s q idx i} (h : Calm s₀ s) :
    Calm s₀ (sessionInit s q idx i) := by
  unfold sessionInit
  split
  · exact h
  · exact ite_canonical h (by
      split
      · exact cipherEnd_canonical h h
      · exact ite_canonical h (ite_canonical (joinIsland_canonical h) (by
          split
          · exact hubPause_canonical h
          next x19 =>
            exact cipherEnd_canonical h (loadSession_canonical (snd_snd_canonical (shReadBuf_canonical h) x19))
          next x26 =>
            exact cipherEnd_canonical h (snd_snd_canonical (shReadBuf_canonical h) x26))))

theorem sessionClear_canonical {s q idx i} (h : Calm s₀ s) :
    Calm s₀ (sessionClear s q idx i) := by
  unfold sessionClear
  split
  · exact h
  · split
    · exact h
    · split
      · exact cipherEnd_canonical h h
      · split
        · exact h
        · split
          · exact cipherEnd_canonical h h
          · exact cipherEnd_canonical h (by
              extract_lets __src18
              have h__src18 : Calm s₀ __src18 := setSession_canonical h
              exact h__src18)

theorem islandUnwrap_canonical {s i} (h : Calm s₀ s) :
    Calm s₀ (islandUnwrap s i) :=
  ite_canonical h (by
    split
    · exact h
    · split
      · exact hubPause_canonical h
      next x15 =>
        exact ite_canonical (by
          split
          · exact hubPause_canonical h
          next x25 =>
            exact cipherEnd_canonical h (snd_snd_canonical (shWriteBuf_canonical (snd_snd_canonical (shReadBuf_canonical h) x15)) x25)) (by
          split
          · exact cipherEnd_canonical h (loadSession_canonical (snd_snd_canonical (shReadBuf_canonical h) x15))
          · exact cipherEnd_canonical h (snd_snd_canonical (shReadBuf_canonical h) x15))
      next x41 =>
        exact cipherEnd_canonical h (snd_snd_canonical (shReadBuf_canonical h) x41))

theorem spillSession_canonical {s z i} (h : Calm s₀ s) : Calm s₀ (spillSession s z i) := by
  unfold spillSession
  split
  next x =>
    split
    split
    · exact hubPause_canonical h
    next y =>
      extract_lets s2
      have h2 : Calm s₀ s2 :=
        setSession_canonical (snd_snd_canonical (hubWriteBytes_canonical (snd_canonical (freeWords_canonical h) x)) y)
      clear_value s2
      exact incRgF_canonical h2

theorem contextSpill_canonical {s i} (h : Calm s₀ s) :
    Calm s₀ (contextSpill s i) :=
  ite_canonical h (by
    split
    · exact spillSession_canonical h
    · exact h)

theorem fillFailed_canonical {s0 s n q it z i} (h : Calm s₀ s0) (h_s : Calm s₀ s) :
    Calm s₀ (fillFailed s0 s n q it z i) :=
  cipherEnd_canonical h (incRgF_canonical h_s)

theorem contextFill_canonical {s q idx i} (h : Calm s₀ s) :
    Calm s₀ (contextFill s q idx i) := by
  unfold contextFill
  split
  · exact h
  · split
    · exact h
    · split
      · exact h
      · split
        · exact hubPause_canonical h
        next x21 =>
          exact fillFailed_canonical h (snd_snd_canonical (hubReadBytes_canonical h) x21)
        next x25 =>
          split
          · exact incRgF_canonical (by
              extract_lets __src29
              have h__src29 : Calm s₀ __src29 := setSession_canonical (snd_snd_canonical (hubReadBytes_canonical h) x25)
              exact h__src29)
          · exact fillFailed_canonical h (snd_snd_canonical (hubReadBytes_canonical h) x25)

theorem lgPowerOff_canonical {s g} (h : Calm s₀ s) : Calm s₀ (lgPowerOff s g) := by
  unfold lgPowerOff
  extract_lets s1 s2 s3
  have h2 : Calm s₀ s2 := foldl_canonical (fun _ _ h => setRport_canonical h) (lgLinksDown_canonical h)
  clear_value s2
  have h3 : Calm s₀ s3 := setRgF_canonical h2
  exact setDom_canonical (setLgState_canonical h3)

theorem lgctlWrite_canonical {s b g v} (h : Calm s₀ s) :
    Calm s₀ (lgctlWrite s b g v) :=
  mpWrite_canonical h (ite_canonical h (ite_canonical (ite_canonical (setRgF_canonical (setRgF_canonical (setRgF_canonical (setRgF_canonical h)))) (setRgF_canonical (setRgF_canonical (setRgF_canonical h)))) (ite_canonical (ite_canonical (engFollow_canonical (ite_canonical (setRgF_canonical (setRgF_canonical (setRgF_canonical (setRgF_canonical (lgPowerOff_canonical h))))) (setRgF_canonical (setRgF_canonical (setRgF_canonical (lgPowerOff_canonical h)))))) (ite_canonical (setRgF_canonical (setRgF_canonical (setRgF_canonical (setRgF_canonical (lgPowerOff_canonical h))))) (setRgF_canonical (setRgF_canonical (setRgF_canonical (lgPowerOff_canonical h)))))) (ite_canonical (setRgF_canonical h) (ite_canonical (setRgF_canonical h) (ite_canonical (setRgF_canonical h) (ite_canonical (lgRefresh_canonical (engFollow_canonical (lgTrain_canonical (ite_canonical (setRgF_canonical (setRgF_canonical (setRgF_canonical (setRgF_canonical h)))) (setRgF_canonical (setRgF_canonical (setRgF_canonical h))))))) (lgTrain_canonical (ite_canonical (setRgF_canonical (setRgF_canonical (setRgF_canonical (setRgF_canonical h)))) (setRgF_canonical (setRgF_canonical (setRgF_canonical h))))))))))))

theorem inboundDo_canonical {s g k q f a} (h : Calm s₀ s) :
    Calm s₀ (inboundDo s g k q f a).2 := by
  unfold inboundDo
  split
  · exact ite_snd_canonical (portCpl_canonical h) (by
      split
      next x8 =>
        exact portCpl_canonical (snd_snd_canonical (hubReadBytes_canonical h) x8)
      next x12 =>
        exact portCpl_canonical (snd_snd_canonical (hubReadBytes_canonical h) x12)
      · exact hubPause_canonical h)
  · exact ite_snd_canonical (aer_canonical h) (ite_snd_canonical (ite_canonical (msiWrite_canonical h) (aer_canonical h)) (by
      split
      next x25 =>
        exact snd_snd_canonical (hubWriteBytes_canonical h) x25
      next x29 =>
        exact aer_canonical (snd_snd_canonical (hubWriteBytes_canonical h) x29)
      · exact hubPause_canonical h))
  · exact ite_snd_canonical (portCpl_canonical h) (by
      split
      next x44 =>
        exact portCpl_canonical (snd_snd_canonical (hubFar_canonical h) x44)
      next x48 =>
        exact portCpl_canonical (snd_snd_canonical (hubFar_canonical h) x48)
      · exact hubPause_canonical h)

theorem inbound_canonical {s g k q f a} (h : Calm s₀ s) :
    Calm s₀ (inbound s g k q f a) :=
  ite_canonical h (by
    split
    next x3 =>
      exact ite_canonical (snd_canonical (inboundDo_canonical h) x3) (setRport_canonical (snd_canonical (inboundDo_canonical h) x3))
    next x6 =>
      exact setRport_canonical (snd_canonical (inboundDo_canonical h) x6))

theorem rxFill_canonical {n q i hash r1 t x6 x7 x8} (h : Calm s₀ x8) :
    Calm s₀ (rxFill n q i hash r1 t x6 x7 x8).2 := by
  induction x6 generalizing n q i hash r1 t x7 x8 with
  | nil => exact h
  | cons a x6 ih =>
    unfold rxFill
    extract_lets _ _ _
    exact ite_snd_canonical h (by
      split
      next x8 =>
        split
        · exact snd_snd_canonical (shWriteBuf_canonical h) x8
        · split
          next x13 =>
            exact ih (snd_canonical (writeRecord_canonical (snd_snd_canonical (shWriteBuf_canonical h) x8)) x13)
          · exact writeRecord_canonical (snd_snd_canonical (shWriteBuf_canonical h) x8)
        · exact writeRecord_canonical (snd_snd_canonical (shWriteBuf_canonical h) x8))

theorem frameIn_canonical {s m bs accept i} (h : Calm s₀ s) :
    Calm s₀ (frameIn s m bs accept i) := by
  unfold frameIn
  extract_lets _ _ _ _ _ _ _
  exact ite_canonical h (ite_canonical (pauseFrame_canonical h) (ite_canonical h (by
    split
    · exact incRgF_canonical h
    · exact ite_canonical (incRgF_canonical h) (ite_canonical (incRgF_canonical h) (by
        split
        next x15 =>
          exact flushBad_canonical (snd_canonical (rxFill_canonical h) x15)
        · exact hubPause_canonical h)))))

theorem ethSend_canonical {s q i} (h : Calm s₀ s) :
    Calm s₀ (ethSend s q i) := by
  unfold ethSend
  split
  · exact h
  · extract_lets _ _ _ _ _ _ _
    split
    · exact hubPause_canonical h
    next x21 =>
      extract_lets _ _ s'24 s'25
      have hs'24 : Calm s₀ s'24 := setQueue_canonical (snd_snd_canonical (shReadBuf_canonical h) x21)
      have hs'25 : Calm s₀ s'25 := setQueue_canonical (snd_snd_canonical (shReadBuf_canonical h) x21)
      split
      · exact finishItem_canonical h hs'24
      · split
        · exact finishItem_canonical h hs'25
        · split
          · exact h
          · extract_lets s'35
            have hs'35 : Calm s₀ s'35 := hs'25
            exact finishItem_canonical h hs'35
    next x42 =>
      exact finishItem_canonical h (setQueue_canonical (snd_snd_canonical (shReadBuf_canonical h) x42))

theorem sourceRaise_canonical {s intid} (h : Calm s₀ s) :
    Calm s₀ (sourceRaise s intid) :=
  ite_canonical (raiseVec_canonical h) (ite_canonical (raiseSrc_canonical h) h)

theorem intCfgWrite_canonical {s sec intid v} (h : Calm s₀ s) :
    Calm s₀ (intCfgWrite s sec intid v) := by
  unfold intCfgWrite
  split
  · exact ite_canonical h (ite_canonical (setRg_canonical h) (by
      split
      · exact setCore_canonical (setRg_canonical h)
      · exact setRg_canonical h))

theorem postArrive_canonical {s c} (h : Calm s₀ s) :
    Calm s₀ (postArrive s c) := by
  unfold postArrive
  split
  · exact h
  next x6 =>
    exact ite_canonical (hwDo_canonical (gArrive_canonical (takePacket_canonical h x6))) (setCore_canonical (gArrive_canonical (takePacket_canonical h x6)))

theorem timerFires_canonical {s c lv w} (h : Calm s₀ s) :
    Calm s₀ (timerFires s c lv w) :=
  setCore_canonical h

theorem copyBytes_canonical {n i src dst x4 x5 x6 x7} (h : Calm s₀ x7) :
    Calm s₀ (copyBytes n i src dst x4 x5 x6 x7).2.2 := by
  induction x4 generalizing n i src dst x5 x6 x7 with
  | zero => exact h
  | succ x4 ih =>
    unfold copyBytes
    extract_lets _ _
    exact ite_snd_snd_canonical h (by
      split
      next x7 =>
        exact ite_snd_snd_canonical (snd_snd_canonical (shReadBuf_canonical h) x7) (by
          split
          next x11 =>
            exact ite_snd_snd_canonical (ih (snd_snd_canonical (shWriteBuf_canonical (snd_snd_canonical (shReadBuf_canonical h) x7)) x11)) (snd_snd_canonical (shWriteBuf_canonical (snd_snd_canonical (shReadBuf_canonical h) x7)) x11)
          next x17 =>
            exact snd_snd_canonical (shWriteBuf_canonical (snd_snd_canonical (shReadBuf_canonical h) x7)) x17))

theorem scrubRead_canonical {s ch e} (h : Calm s₀ s) :
    Calm s₀ (scrubRead s ch e) :=
  ite_canonical h (ite_canonical (incRgF_canonical (setRgF_canonical (chRead_canonical h))) (setRgF_canonical (chRead_canonical h)))

theorem mcLogclr_canonical {s ch} (h : Calm s₀ s) :
    Calm s₀ (mcLogclr s ch) :=
  setRgF_canonical (setRgF_canonical (setRg_canonical (foldl_canonical (fun _ _ h3 => setRg_canonical h3) h)))

theorem mcctlWrite_canonical {s ch v} (h : Calm s₀ s) :
    Calm s₀ (mcctlWrite s ch v) :=
  ite_canonical (mcLogclr_canonical (judgeCethr_canonical (ite_canonical (setRgF_canonical (ite_canonical h (setRgF_canonical h))) (ite_canonical h (setRgF_canonical h))))) (judgeCethr_canonical (ite_canonical (setRgF_canonical (ite_canonical h (setRgF_canonical h))) (ite_canonical h (setRgF_canonical h))))

theorem setKeyStat_canonical {s x} (h : Calm s₀ s) :
    Calm s₀ (setKeyStat s x) :=
  setRgF_canonical h

theorem zeroKeyData_canonical {s} (h : Calm s₀ s) :
    Calm s₀ (zeroKeyData s) :=
  foldl_canonical (fun _ _ h3 => setRg_canonical h3) h

theorem keyResult_canonical {s op} (h : Calm s₀ s) :
    Calm s₀ (keyResult s op).2 :=
  ite_snd_canonical h (ite_snd_canonical (by
    split
    next x4 =>
      split
      next x8 =>
        exact snd_canonical (freeKey_canonical (snd_canonical (freeKey_canonical h) x4)) x8) h)

theorem keyFields_canonical {s op keyid sown} (h : Calm s₀ s) :
    Calm s₀ (keyFields s op keyid sown) :=
  ite_canonical (setRgF_canonical (setRgF_canonical (setRgF_canonical h))) (setRgF_canonical (setRgF_canonical h))

theorem keyDone_canonical {s} (h : Calm s₀ s) :
    Calm s₀ (keyDone s) := by
  unfold keyDone
  split
  · exact h
  · exact setKeyStat_canonical h

theorem blockRead_canonical {s u w pa f} (h : Calm s₀ s) :
    Calm s₀ (blockRead s u w pa f).2.2 :=
  ite_snd_snd_canonical (hubRead_canonical h) h

theorem blockWrite_canonical {s u w pa bs f} (h : Calm s₀ s) :
    Calm s₀ (blockWrite s u w pa bs f).2 := by
  unfold blockWrite
  split
  · exact hubPause_canonical h
  next x10 =>
    exact snd_snd_canonical (hubWriteBytes_canonical h) x10

theorem setMbQ_canonical {s c q} (h : Calm s₀ s) :
    Calm s₀ (setMbQ s c q) :=
  setRgF_canonical h

theorem mbServe_canonical {s} (h : Calm s₀ s) :
    Calm s₀ (mbServe s) :=
  ite_canonical h h

theorem mbEnter_canonical {s c e} (h : Calm s₀ s) :
    Calm s₀ (mbEnter s c e).2 :=
  ite_snd_canonical (mbServe_canonical (setMbQ_canonical h)) h

theorem mbReport_canonical {s c e d results f} (h : Calm s₀ s) :
    Calm s₀ (mbReport s c e d results f).2 :=
  ite_snd_canonical h (ite_snd_canonical h (by
    split
    next x3 =>
      exact snd_canonical (ite_snd_canonical (blockWrite_canonical h) h) x3
    next x6 =>
      split
      next x9 =>
        exact snd_canonical (blockWrite_canonical (snd_canonical (ite_snd_canonical (blockWrite_canonical h) h) x6)) x9
      next x12 =>
        exact raiseSrc_canonical (snd_canonical (blockWrite_canonical (snd_canonical (ite_snd_canonical (blockWrite_canonical h) h) x6)) x12)))

theorem mbFinish_canonical {s c e status res f} (h : Calm s₀ s) :
    Calm s₀ (mbFinish s c e status res f).2 := by
  unfold mbFinish
  extract_lets _ _
  split
  next x5 =>
    exact snd_canonical (mbReport_canonical h) x5
  next x8 =>
    exact mbServe_canonical (setMbQ_canonical (have hm := snd_canonical (mbReport_canonical h) x8; hm))

theorem mbDo_canonical {s op f run} (h : Calm s₀ s) (h_run : ∀ (a : State) (a_1 : ℕ) (a_2 : LineData), Calm s₀ a → Calm s₀ (run a a_1 a_2).2.2) :
    Calm s₀ (mbDo s op f run) := by
  unfold mbDo
  split
  · exact h
  · split
    · exact h
    · exact ite_canonical (orPause_canonical h (mbFinish_canonical h)) (ite_canonical h (ite_canonical (orPause_canonical h (mbFinish_canonical h)) (by
        split
        next x17 =>
          exact orPause_canonical h (mbFinish_canonical (snd_snd_canonical (h_run _ _ _ h) x17)))))

theorem mbResults_canonical {s bs} (h : Calm s₀ s) :
    Calm s₀ (mbResults s bs).2 := by
  unfold mbResults
  split
  next x4 =>
    exact snd_canonical (freeLine_canonical h) x4

theorem mbGood_canonical {s bs} (h : Calm s₀ s) :
    Calm s₀ (mbGood s bs).2.2 := by
  unfold mbGood
  split
  next x4 =>
    exact snd_canonical (mbResults_canonical h) x4

theorem mbShare_canonical {s c d} (h : Calm s₀ s) :
    Calm s₀ (mbShare s c d).2.2 := by
  unfold mbShare
  extract_lets _ _
  exact ite_snd_snd_canonical (by
    split
    next x6 =>
      exact mbGood_canonical (snd_canonical (shRun_canonical h) x6)) (ite_snd_snd_canonical (by
    split
    next x10 =>
      exact mbGood_canonical (snd_canonical (freeLine_canonical h) x10)) h)

theorem mbCart_canonical {s _c d} (h : Calm s₀ s) :
    Calm s₀ (mbCart s _c d).2.2 :=
  ite_snd_snd_canonical h (mbGood_canonical h)

theorem mpBootRun_canonical {s i} (h : Calm s₀ s) :
    Calm s₀ (mpBootRun s i) := by
  unfold mpBootRun
  split
  · exact h
  · extract_lets _ s4 _
    have hs4 : Calm s₀ s4 := hlDevice_canonical (setRgF_canonical h)
    split
    · extract_lets s11
      have hs11 : Calm s₀ s11 := hlDevice_canonical (setRgF_canonical h)
      split
      next x15 =>
        extract_lets _ s17 _ _ s20
        have hs17 : Calm s₀ s17 := setCore_canonical (snd_canonical (freeWord_canonical hs11) x15)
        have hs20 : Calm s₀ s20 := hs17
        exact mbServe_canonical (rstDone_canonical hs20)
    · exact hs4

theorem wdKick_canonical {s b} (h : Calm s₀ s) :
    Calm s₀ (wdKick s b) :=
  ite_canonical h h

theorem shedEval_canonical {s occ} (h : Calm s₀ s) :
    Calm s₀ (shedEval s occ) :=
  ite_canonical h (setRgF_canonical h)

theorem hlPop_canonical {s} (h : Calm s₀ s) :
    Calm s₀ (hlPop s) :=
  ite_canonical h h

theorem hlReport_canonical {s w pa d code res f} (h : Calm s₀ s) :
    Calm s₀ (hlReport s w pa d code res f).2 := by
  unfold hlReport
  split
  next x3 =>
    exact snd_canonical (by
      split
      · exact blockWrite_canonical h
      · exact h) x3
  next x10 =>
    exact blockWrite_canonical (snd_canonical (by
      split
      · exact blockWrite_canonical h
      · exact h) x10)

theorem hlogArrive_canonical {s f} (h : Calm s₀ s) :
    Calm s₀ (hlogArrive s f) := by
  unfold hlogArrive
  split
  · exact h
  next x6 =>
    exact ite_canonical (gArrive_canonical (takePacket_canonical h x6)) (orPause_canonical h (hlReport_canonical (gArrive_canonical (takePacket_canonical h x6))))

theorem oeEvent_canonical {s e} (h : Calm s₀ s) :
    Calm s₀ (oeEvent s e) :=
  raiseSrc_canonical h

theorem setOeStatus_canonical {s e x} (h : Calm s₀ s) :
    Calm s₀ (setOeStatus s e x) :=
  setRgF_canonical h

theorem oeEnd_canonical {s e x} (h : Calm s₀ s) :
    Calm s₀ (oeEnd s e x) :=
  oeEvent_canonical (setOeStatus_canonical h)

theorem hlCart_canonical {s e b ev} (h : Calm s₀ s) :
    Calm s₀ (hlCart s e b ev) :=
  hlDevice_canonical h

theorem countHand_canonical {s e b} (h : Calm s₀ s) :
    Calm s₀ (countHand s e b) :=
  setSlot_canonical h

theorem setEng_canonical {s e b} (h : Calm s₀ s) :
    Calm s₀ (setEng s e b) :=
  h

theorem oeDarkLanes_canonical {s e} (h : Calm s₀ s) :
    Calm s₀ (oeDarkLanes s e) :=
  foldl_canonical (fun _ _ h3 => lgRefresh_canonical (ite_canonical (foldl_canonical (fun _ _ h6 => setEthLink_canonical h6) (ite_canonical (setPal_canonical h3) h3)) (ite_canonical (setPal_canonical h3) h3))) h

theorem switchTo_canonical {s e b} (h : Calm s₀ s) :
    Calm s₀ (switchTo s e b) :=
  countHand_canonical (oeEvent_canonical (oeDarkLanes_canonical (setOeStatus_canonical (setRgF_canonical (setEng_canonical h)))))

theorem fadeTo_canonical {s e b} (h : Calm s₀ s) :
    Calm s₀ (fadeTo s e b) :=
  ite_canonical (countHand_canonical (setSlotSt_canonical (setOeStatus_canonical (setRgF_canonical (setEng_canonical (countHand_canonical h)))))) (switchTo_canonical (setSlotSt_canonical (countHand_canonical h)))

theorem cartLost_canonical {s e b} (h : Calm s₀ s) :
    Calm s₀ (cartLost s e b) :=
  ite_canonical (hlCart_canonical (switchTo_canonical (countHand_canonical (hlCart_canonical (setSlotSt_canonical h))))) (oeEvent_canonical (oeDarkLanes_canonical (ite_canonical (setOeStatus_canonical (setRgF_canonical (hlCart_canonical (setSlotSt_canonical h)))) (setRgF_canonical (hlCart_canonical (setSlotSt_canonical h))))))

theorem cartFails_canonical {s e b} (h : Calm s₀ s) :
    Calm s₀ (cartFails s e b) :=
  ite_canonical (oeEnd_canonical (oeSettle_canonical (setRgF_canonical (hlCart_canonical (setSlotSt_canonical h))))) (ite_canonical (cartLost_canonical h) (ite_canonical (oeEnd_canonical (oeDarkLanes_canonical (setRgF_canonical (hlCart_canonical (setSlotSt_canonical h))))) h))

theorem fadeDone_canonical {s e} (h : Calm s₀ s) :
    Calm s₀ (fadeDone s e) :=
  ite_canonical h (oeEnd_canonical (oeSettle_canonical (setRgF_canonical (setSlotSt_canonical h))))

theorem switchDone_canonical {s e} (h : Calm s₀ s) :
    Calm s₀ (switchDone s e) :=
  ite_canonical h (oeEnd_canonical (oeSettle_canonical (setRgF_canonical (setSlotSt_canonical h))))

theorem judgeEol_canonical {s e b} (h : Calm s₀ s) :
    Calm s₀ (judgeEol s e b) :=
  ite_canonical (ite_canonical (fadeTo_canonical (oeEvent_canonical (hlCart_canonical (setRgF_canonical (ite_canonical (oeEvent_canonical (hlCart_canonical (setRgF_canonical h))) h))))) (oeEvent_canonical (hlCart_canonical (setRgF_canonical (ite_canonical (oeEvent_canonical (hlCart_canonical (setRgF_canonical h))) h))))) (ite_canonical (oeEvent_canonical (hlCart_canonical (setRgF_canonical h))) h)

theorem wearWrite_canonical {s e b l} (h : Calm s₀ s) :
    Calm s₀ (wearWrite s e b l) :=
  judgeEol_canonical (setRgF_canonical (setRgF_canonical (setSlot_canonical h)))

theorem cartReject_canonical {s e b code} (h : Calm s₀ s) :
    Calm s₀ (cartReject s e b code) :=
  oeEnd_canonical (setSlotSt_canonical h)

theorem checkStart_canonical {s e b} (h : Calm s₀ s) :
    Calm s₀ (checkStart s e b) :=
  ite_canonical (cartReject_canonical (setSlotSt_canonical h)) (ite_canonical (cartReject_canonical (setSlotSt_canonical h)) (setOeStatus_canonical (setSlot_canonical (setSlotSt_canonical h))))

theorem checkDone_canonical {s e b pwr} (h : Calm s₀ s) :
    Calm s₀ (checkDone s e b pwr) :=
  ite_canonical h (ite_canonical (cartReject_canonical (setRgF_canonical h)) (ite_canonical (oeLight_canonical (oeEnd_canonical (setRgF_canonical (setRgF_canonical (setRgF_canonical (setSlotSt_canonical (setRgF_canonical h))))))) (oeSettle_canonical (oeEnd_canonical (setRgF_canonical (setRgF_canonical (setRgF_canonical (setSlotSt_canonical (setRgF_canonical h)))))))))

theorem cartOut_canonical {s e b} (h : Calm s₀ s) :
    Calm s₀ (cartOut s e b) :=
  ite_canonical h (ite_canonical (oeSettle_canonical (setRgF_canonical (setRgF_canonical (setSlot_canonical (ite_canonical (ite_canonical (setOeStatus_canonical (cartFails_canonical (setRgF_canonical (setRgF_canonical h)))) (cartFails_canonical (setRgF_canonical (setRgF_canonical h)))) (setSlotSt_canonical (ite_canonical (setOeStatus_canonical (cartFails_canonical (setRgF_canonical (setRgF_canonical h)))) (cartFails_canonical (setRgF_canonical (setRgF_canonical h)))))))))) (setRgF_canonical (setRgF_canonical (setSlot_canonical (ite_canonical (ite_canonical (setOeStatus_canonical (cartFails_canonical (setRgF_canonical (setRgF_canonical h)))) (cartFails_canonical (setRgF_canonical (setRgF_canonical h)))) (setSlotSt_canonical (ite_canonical (setOeStatus_canonical (cartFails_canonical (setRgF_canonical (setRgF_canonical h)))) (cartFails_canonical (setRgF_canonical (setRgF_canonical h))))))))))

theorem oeFields_canonical {s e b op} (h : Calm s₀ s) :
    Calm s₀ (oeFields s e b op) :=
  setRgF_canonical (setRgF_canonical h)

theorem vfAccess_canonical {s n c} (h : Calm s₀ s) :
    Calm s₀ (vfAccess s n c).2 :=
  ite_snd_canonical h (by
    split
    · exact ite_snd_canonical (setShare_canonical h) h
    · split
      next x10 =>
        exact ite_snd_canonical (snd_canonical (freeWord_canonical h) x10) (ite_snd_canonical (snd_canonical (freeWord_canonical h) x10) (snd_canonical (freeWord_canonical h) x10)))

theorem cfgAccess_canonical {s w c a} (h : Calm s₀ s) :
    Calm s₀ (cfgAccess s w c a).2 :=
  ite_snd_canonical (ite_snd_canonical (ite_snd_canonical h (ite_snd_canonical h (ite_snd_canonical h (by
    split
    next x4 =>
      exact snd_canonical (freeWord_canonical h) x4)))) (ite_snd_canonical (ite_snd_canonical h (by
    split
    next x8 =>
      exact snd_canonical (freeWord_canonical h) x8)) h)) (ite_snd_canonical (vfAccess_canonical h) (ite_snd_canonical h (ite_snd_canonical h h)))

theorem ecamAccess_canonical {s p off a} (h : Calm s₀ s) :
    Calm s₀ (ecamAccess s p off a) := by
  unfold ecamAccess
  extract_lets _
  split
  next x4 =>
    exact devComplete_canonical (snd_canonical (cfgAccess_canonical h) x4)
  next x8 =>
    exact devComplete_canonical (snd_canonical (cfgAccess_canonical h) x8)
  next x11 =>
    exact portDev_canonical (snd_canonical (cfgAccess_canonical h) x11)

theorem requesterTimeout_canonical {s src tx} (h : Calm s₀ s) :
    Calm s₀ (requesterTimeout s src tx) := by
  unfold requesterTimeout
  split
  · exact h
  · exact ite_canonical h (errRspArrive_canonical (logErr_canonical h))

theorem txidRelease_canonical {s src tx} (h : Calm s₀ s) :
    Calm s₀ (txidRelease s src tx) :=
  h

theorem logclrWrite_canonical {s b d ev} (h : Calm s₀ s) :
    Calm s₀ (logclrWrite s b d ev) :=
  ownWrite_canonical h (clearLog_canonical h)

theorem wayFuseSet_canonical {s kind h slice way} (hm : Calm s₀ s) :
    Calm s₀ (wayFuseSet s kind h slice way) := by
  unfold wayFuseSet
  split <;> exact ite_canonical hm hm

theorem retireCore_canonical {s c} (h : Calm s₀ s) :
    Calm s₀ (retireCore s c) :=
  ite_canonical h (logErr_canonical (setRgF_canonical h))

theorem followLinks_canonical {s} (h : Calm s₀ s) :
    Calm s₀ (followLinks s) :=
  h

theorem svcUpdate_canonical {s} (h : Calm s₀ s) :
    Calm s₀ (svcUpdate s) :=
  ite_canonical (followLinks_canonical h) (hlDevice_canonical (raiseSrc_canonical (setRgF_canonical (setRgF_canonical (followLinks_canonical h)))))

theorem lifeUpdate_canonical {s hot tj v} (h : Calm s₀ s) :
    Calm s₀ (lifeUpdate s hot tj v) :=
  ite_canonical h (setRgF_canonical (setRgF_canonical (ite_canonical (incRgF_canonical (incRgF_canonical h)) (incRgF_canonical h))))

theorem rangeLine_canonical {u op h s line} (hm : Calm s₀ s) :
    Calm s₀ (rangeLine u op h s line) := by
  unfold rangeLine
  extract_lets _ _ _ _
  split
  · exact incRgF_canonical hm
  · split
    next x10 =>
      extract_lets s11 _ __src13
      have hs11 : Calm s₀ s11 := by
        unfold s11
        split
        · exact incRgF_canonical (snd_canonical (newTxid_canonical hm) x10)
        · exact snd_canonical (newTxid_canonical hm) x10
      have h__src13 : Calm s₀ __src13 := send_canonical hs11
      exact addOutst_canonical h__src13

theorem walkBegin_canonical {s h w} (hm : Calm s₀ s) :
    Calm s₀ (walkBegin s h w) := by
  unfold walkBegin
  split
  · exact foldl_canonical (fun _ _ h5 => rangeLine_canonical h5) hm
  · exact foldl_canonical (fun _ _ h11 => recallDir_canonical h11) hm
  · exact ite_canonical (foldl_canonical (by
      intro _ _ h17
      split
      next x21 =>
        exact runReq_canonical (snd_canonical (evictReq_canonical h17) x21)) hm) hm
  · exact hm

theorem queueWalk_canonical {s h w} (hm : Calm s₀ s) :
    Calm s₀ (queueWalk s h w) :=
  ite_canonical (walkBegin_canonical hm) hm

theorem setWalkStart_canonical {s h} (hm : Calm s₀ s) :
    Calm s₀ (setWalkStart s h) := by
  unfold setWalkStart
  extract_lets _
  split
  · exact hm
  · exact ite_canonical hm (walkBegin_canonical hm)

theorem walkEnd_canonical {s h} (hm : Calm s₀ s) :
    Calm s₀ (walkEnd s h) :=
  hm

theorem wayWalkDone_canonical {s h found} (hm : Calm s₀ s) :
    Calm s₀ (wayWalkDone s h found) := by
  unfold wayWalkDone
  split
  · exact ite_canonical (ite_canonical hm (logErr_canonical (raiseSrc_canonical (setRgF_canonical (walkEnd_canonical hm))))) (logErr_canonical (raiseSrc_canonical (setRgF_canonical (walkEnd_canonical (foldl_canonical (fun _ _ h7 => l3Inval_canonical (l3Clean_canonical h7)) hm)))))
  · exact ite_canonical hm (logErr_canonical (raiseSrc_canonical (setRgF_canonical (walkEnd_canonical hm))))
  · exact hm

theorem l3Drop_canonical {s h} (hm : Calm s₀ s) :
    Calm s₀ (l3Drop s h) :=
  hm

theorem l3Flush_canonical {s h found} (hm : Calm s₀ s) :
    Calm s₀ (l3Flush s h found) :=
  foldl_canonical (fun _ _ h3 => l3Clean_canonical h3) hm

theorem l3ctlWrite_canonical {s h v} (hm : Calm s₀ s) :
    Calm s₀ (l3ctlWrite s h v) :=
  ite_canonical (ite_canonical (ite_canonical (ite_canonical (queueWalk_canonical (setRgF_canonical (setRgF_canonical hm))) (setRgF_canonical hm)) hm) (ite_canonical (setRgF_canonical (ite_canonical (ite_canonical (queueWalk_canonical (setRgF_canonical (setRgF_canonical hm))) (setRgF_canonical hm)) hm)) (setRgF_canonical (ite_canonical (ite_canonical (queueWalk_canonical (setRgF_canonical (setRgF_canonical hm))) (setRgF_canonical hm)) hm)))) (ite_canonical (queueWalk_canonical (setRgF_canonical (setRgF_canonical (ite_canonical (ite_canonical (queueWalk_canonical (setRgF_canonical (setRgF_canonical hm))) (setRgF_canonical hm)) hm)))) (ite_canonical (ite_canonical (queueWalk_canonical (setRgF_canonical (setRgF_canonical hm))) (setRgF_canonical hm)) hm))

theorem l3ctlBy_canonical {s b h v} (hm : Calm s₀ s) :
    Calm s₀ (l3ctlBy s b h v) :=
  ownWrite_canonical hm (l3ctlWrite_canonical hm)

theorem invAllDone_canonical {s h} (hm : Calm s₀ s) :
    Calm s₀ (invAllDone s h) :=
  ite_canonical (setRgF_canonical (setRgF_canonical (l3Drop_canonical (walkEnd_canonical hm)))) hm

theorem flushEnd_canonical {s h found} (hm : Calm s₀ s) :
    Calm s₀ (flushEnd s h found) :=
  setRgF_canonical (setRgF_canonical (setRgF_canonical (l3Flush_canonical hm)))

theorem sweepDone_canonical {s h} (hm : Calm s₀ s) :
    Calm s₀ (sweepDone s h) := by
  unfold sweepDone
  extract_lets __src1
  have h__src1 : Calm s₀ __src1 := l3Drop_canonical hm
  exact ite_canonical (setRgF_canonical h__src1) hm

theorem pmaskWrite_canonical {s b h n v} (hm : Calm s₀ s) :
    Calm s₀ (pmaskWrite s b h n v) :=
  ownWrite_canonical hm (ite_canonical (setRgF_canonical (setRgF_canonical hm)) (ite_canonical hm (setRgF_canonical hm)))

theorem rangeGo_canonical {s b u op irq} (h : Calm s₀ s) :
    Calm s₀ (rangeGo s b u op irq) := by
  unfold rangeGo
  extract_lets s1 s2 s3 s4
  have hs1 : Calm s₀ s1 := setRgF_canonical h
  have hs2 : Calm s₀ s2 := ite_canonical (setRgF_canonical hs1) hs1
  have hs3 : Calm s₀ s3 := setRgF_canonical (setRgF_canonical (setRgF_canonical hs2))
  have hs4 : Calm s₀ s4 := hs3
  exact ite_canonical h (ite_canonical (setRgF_canonical h) (ite_canonical (setRgF_canonical hs2) (foldl_canonical (fun _ _ h7 => queueWalk_canonical h7) hs4)))

theorem resetRg_canonical {s r i} (h : Calm s₀ s) :
    Calm s₀ (resetRg s r i) :=
  setRg_canonical h

theorem applyFuses_canonical {s cold} (h : Calm s₀ s) :
    Calm s₀ (applyFuses s cold) :=
  foldl_canonical (fun _ _ h3 => ite_canonical h3 (by split <;> exact ite_canonical (setRgF_canonical (setRgF_canonical h3)) (setRgF_canonical h3))) h

theorem releaseCore_canonical {s c} (h : Calm s₀ s) :
    Calm s₀ (releaseCore s c) :=
  setCore_canonical h

theorem rstStart_canonical {s sc last} (h : Calm s₀ s) :
    Calm s₀ (rstStart s sc last) :=
  foldl_canonical (fun _ _ h3 => setCore_canonical (wakeDom_canonical h3)) h

theorem dropHolder_canonical {s h} (hm : Calm s₀ s) :
    Calm s₀ (dropHolder s h) :=
  ite_canonical (foldl_canonical (fun _ _ h3 => setHline_canonical h3) hm) (foldl_canonical (by
    intro _ _ h6
    split
    next x10 =>
      exact launch_canonical (snd_canonical (evictReq_canonical h6) x10)) hm)

theorem rstPhase_canonical {s r n} (h : Calm s₀ s) :
    Calm s₀ (rstPhase s r n) :=
  h

theorem l2Writeback_canonical {s} (h : Calm s₀ s) :
    Calm s₀ (l2Writeback s) := by
  unfold l2Writeback
  split
  · exact h
  · exact ite_canonical h (ite_canonical (rstPhase_canonical (foldl_canonical (fun _ _ h8 => dropHolder_canonical h8) h)) (foldl_canonical (fun _ _ h11 => dropHolder_canonical h11) h))

theorem retireEnd_canonical {s h w} (hm : Calm s₀ s) :
    Calm s₀ (retireEnd s h w) := by
  unfold retireEnd
  split
  · exact ite_canonical (logErr_canonical (raiseSrc_canonical (setRgF_canonical hm))) (logErr_canonical (raiseSrc_canonical (setRgF_canonical hm)))
  · exact logErr_canonical (raiseSrc_canonical (setRgF_canonical hm))
  · exact hm

theorem walksEnd_canonical {s h} (hm : Calm s₀ s) :
    Calm s₀ (walksEnd s h) :=
  foldl_canonical (fun _ _ h3 => retireEnd_canonical h3) hm

theorem homeFlush_canonical {s h} (hm : Calm s₀ s) :
    Calm s₀ (homeFlush s h) :=
  setRgF_canonical (flushEnd_canonical (setRgF_canonical (walksEnd_canonical hm)))

theorem portsRefuse_canonical {s} (h : Calm s₀ s) :
    Calm s₀ (portsRefuse s) :=
  foldl_canonical (fun _ _ h3 => ite_canonical h3 (foldl_canonical (fun _ _ h6 => devComplete_canonical h6) (setRport_canonical h3))) h

theorem homesFlush_canonical {s} (h : Calm s₀ s) :
    Calm s₀ (homesFlush s) := by
  unfold homesFlush
  split
  · exact h
  · exact ite_canonical h (ite_canonical (ite_canonical (dropHolder_canonical h) h) (rstPhase_canonical (ite_canonical (portsRefuse_canonical (foldl_canonical (fun _ _ h8 => homeFlush_canonical h8) (ite_canonical (walksEnd_canonical (ite_canonical (dropHolder_canonical h) h)) (ite_canonical (dropHolder_canonical h) h)))) (foldl_canonical (fun _ _ h11 => homeFlush_canonical h11) (ite_canonical (walksEnd_canonical (ite_canonical (dropHolder_canonical h) h)) (ite_canonical (dropHolder_canonical h) h))))))

theorem keepField_canonical {old s f} (h_s : Calm s₀ s) :
    Calm s₀ (keepField old s f) :=
  foldl_canonical (fun _ _ h3 => ite_canonical h3 (setRgF_canonical h3)) h_s

theorem warmRegs_canonical {s} (h : Calm s₀ s) :
    Calm s₀ (warmRegs s) :=
  foldl_canonical (fun _ _ h3 => keepField_canonical h3) h

theorem slotsDark_canonical {s} (h : Calm s₀ s) :
    Calm s₀ (slotsDark s) :=
  foldl_canonical (fun _ _ h3 => ite_canonical (setSlotSt_canonical h3) h3) h

theorem stackRegs_canonical {s n} (h : Calm s₀ s) :
    Calm s₀ (stackRegs s n) :=
  setLsF_canonical (setLsF_canonical (setLsState_canonical (resetRg_canonical (foldl_canonical (fun _ _ h3 => resetRg_canonical h3) (resetRg_canonical (resetRg_canonical (reVolt_canonical (resetRg_canonical h))))))))

theorem setStkState_canonical {s n x} (h : Calm s₀ s) :
    Calm s₀ (setStkState s n x) :=
  setRgF_canonical h

theorem goAgain_canonical {s g} (h : Calm s₀ s) :
    Calm s₀ (goAgain s g) :=
  h

theorem goWindow_canonical {s h fails} (hm : Calm s₀ s) :
    Calm s₀ (goWindow s h fails) := by
  unfold goWindow
  split
  · exact hm
  · exact ite_canonical hm (ite_canonical (foldl_canonical (fun _ _ h8 => setRgF_canonical h8) (foldl_canonical (fun _ _ h11 => setRgF_canonical h11) hm)) (ite_canonical (goAgain_canonical hm) (goAgain_canonical hm)))

theorem goDone_canonical {s} (h : Calm s₀ s) :
    Calm s₀ (goDone s) := by
  unfold goDone
  split
  · exact h
  · exact ite_canonical h (reVoltAll_canonical (rstDone_canonical (setRgF_canonical h)))

theorem resetLow_canonical {s} (h : Calm s₀ s) :
    Calm s₀ (resetLow s) :=
  ite_canonical h (rstStart_canonical h)

theorem fenceDie_canonical {s d} (h : Calm s₀ s) :
    Calm s₀ (fenceDie s d) :=
  setRgF_canonical h

theorem enterAdmit_canonical {s} (h : Calm s₀ s) :
    Calm s₀ (enterAdmit s) := by
  unfold enterAdmit
  extract_lets __src1 s2 s3
  have h__src1 : Calm s₀ __src1 := setRg_canonical h
  have hs2 : Calm s₀ s2 := setRgF_canonical h__src1
  have hs3 : Calm s₀ s3 := ite_canonical (setRgF_canonical (setRgF_canonical hs2)) (setRgF_canonical hs2)
  exact ite_canonical (setRgF_canonical hs3) hs3

theorem beginTrain_canonical {s n} (h : Calm s₀ s) :
    Calm s₀ (beginTrain s n) :=
  setLsF_canonical (setLsState_canonical h)

theorem bringTiles_canonical {s} (h : Calm s₀ s) :
    Calm s₀ (bringTiles s) :=
  ite_canonical h (setRgF_canonical (foldl_canonical (fun _ _ h3 => beginTrain_canonical (beginTrain_canonical (beginTrain_canonical (beginTrain_canonical (setStkState_canonical h3))))) h))

theorem chStart_canonical {s c} (h : Calm s₀ s) :
    Calm s₀ (chStart s c) :=
  setRgF_canonical (setRgF_canonical (setRgF_canonical (setRgF_canonical (setRgF_canonical (setRgF_canonical h)))))

theorem dirClear_canonical {s h} (hm : Calm s₀ s) :
    Calm s₀ (dirClear s h) :=
  hm

theorem chTrained_canonical {s c good} (h : Calm s₀ s) :
    Calm s₀ (chTrained s c good) :=
  ite_canonical (setRgF_canonical h) h

theorem assignOne_canonical {s k} (h : Calm s₀ s) :
    Calm s₀ (assignOne s k) := by
  unfold assignOne
  split
  · exact h
  · exact ite_canonical h h

theorem assignCores_canonical {s n} (h : Calm s₀ s) :
    Calm s₀ (assignCores s n) :=
  setRgF_canonical (setRgF_canonical (foldl_canonical (fun _ _ h3 => setDom_canonical h3) (foldl_canonical (fun _ _ h6 => setRg_canonical h6) (foldl_canonical (fun _ _ h9 => assignOne_canonical h9) h))))

theorem coldAging_canonical {s n drifts fab} (h : Calm s₀ s) :
    Calm s₀ (coldAging s n drifts fab) :=
  ite_canonical (logErr_canonical (ite_canonical (raiseSrc_canonical (logErr_canonical (setStk_canonical (setDrifts_canonical h)))) (setStk_canonical (setDrifts_canonical h)))) (ite_canonical (raiseSrc_canonical (logErr_canonical (setStk_canonical (setDrifts_canonical h)))) (setStk_canonical (setDrifts_canonical h)))

theorem l3Shortcut_canonical {s h} (hm : Calm s₀ s) :
    Calm s₀ (l3Shortcut s h) :=
  ite_canonical (setRgF_canonical hm) hm

theorem tickCore_canonical {s c} (h : Calm s₀ s) :
    Calm s₀ (tickCore s c) :=
  ite_canonical (countEvent_canonical (sysSet_canonical h)) h

theorem slewTick_canonical {s} (h : Calm s₀ s) :
    MemoriesCanonical s₀ → MemoriesCanonical (slewTick s) := by
  intro hc
  unfold slewTick
  split_ifs <;> exact h.1 hc

theorem tick_canonical {s} (h : Calm s₀ s) :
    MemoriesCanonical s₀ → MemoriesCanonical (tick s) := by
  intro hc
  unfold tick
  split
  · split <;> exact h.1 hc
  · exact (foldl_canonical (fun _ _ h3 => tickCore_canonical h3) ⟨id, rfl⟩).1 (slewTick_canonical h hc)

theorem setDomStat_canonical {s x} (h : Calm s₀ s) :
    Calm s₀ (setDomStat s x) :=
  setRgF_canonical h

theorem domGo_canonical {s b d t} (h : Calm s₀ s) :
    Calm s₀ (domGo s b d t) := by
  unfold domGo
  extract_lets s1 _ s3
  have hs1 : Calm s₀ s1 := setRgF_canonical (setRgF_canonical h)
  have hs3 : Calm s₀ s3 := setDomStat_canonical hs1
  exact ite_canonical (setRgF_canonical h) (ite_canonical (setDomStat_canonical (hlDenied_canonical hs1)) (ite_canonical (setDomStat_canonical hs1) (ite_canonical (setDomStat_canonical hs1) (ite_canonical (setDomStat_canonical hs1) (ite_canonical (setDom_canonical hs3) (ite_canonical hs3 (setDom_canonical hs3)))))))

theorem domPoint_canonical {s d} (h : Calm s₀ s) :
    Calm s₀ (domPoint s d) := by
  unfold domPoint
  split
  · exact h
  · exact ite_canonical h (ite_canonical (ite_canonical (dropHolder_canonical h) h) (setIngress_canonical (ite_canonical (dropHolder_canonical h) h)))

theorem domArrive_canonical {s d t} (h : Calm s₀ s) :
    Calm s₀ (domArrive s d t) := by
  unfold domArrive
  split
  · exact setDom_canonical h
  · exact ite_canonical (setDom_canonical h) (setDom_canonical h)

theorem domReached_canonical {s d} (h : Calm s₀ s) :
    Calm s₀ (domReached s d) := by
  unfold domReached
  split
  · exact ite_canonical h (ite_canonical (setDomStat_canonical (domArrive_canonical h)) (ite_canonical (ite_canonical (setDomStat_canonical (by
      split
      · exact ingressReopen_canonical h
      · exact setDom_canonical h)) (setDom_canonical (by
      split
      · exact ingressReopen_canonical h
      · exact setDom_canonical h))) h))
  · exact ite_canonical (domArrive_canonical h) (ite_canonical (domArrive_canonical h) h)

theorem setPkgState_canonical {s x} (h : Calm s₀ s) :
    Calm s₀ (setPkgState s x) :=
  setRgF_canonical (ite_canonical (ite_canonical h h) (by split <;> exact h))

theorem setPkgStatus_canonical {s x} (h : Calm s₀ s) :
    Calm s₀ (setPkgStatus s x) :=
  setRgF_canonical h

theorem pkgGo_canonical {s b t} (h : Calm s₀ s) :
    Calm s₀ (pkgGo s b t) := by
  unfold pkgGo
  extract_lets s1 _
  have hs1 : Calm s₀ s1 := setRgF_canonical h
  exact ite_canonical (setRgF_canonical h) (ite_canonical (setPkgStatus_canonical (hlDenied_canonical hs1)) (ite_canonical (ite_canonical (setPkgStatus_canonical (setPkgState_canonical hs1)) hs1) (ite_canonical (setPkgStatus_canonical hs1) (ite_canonical (setPkgStatus_canonical hs1) (setPkgStatus_canonical (setPkgState_canonical hs1))))))

theorem pkgEntering_canonical {s} (h : Calm s₀ s) :
    Calm s₀ (pkgEntering s) :=
  ite_canonical h (foldl_canonical (fun _ _ h3 => h3) (foldl_canonical (fun _ _ h6 => setDom_canonical h6) (setPkgState_canonical h)))

theorem pmeAck_canonical {s i} (h : Calm s₀ s) :
    Calm s₀ (pmeAck s i) := by
  unfold pmeAck
  split
  · exact h
  · exact setRport_canonical h

theorem lgSleep_canonical {s g} (h : Calm s₀ s) :
    Calm s₀ (lgSleep s g) :=
  setDom_canonical (setLgState_canonical (ite_canonical (foldl_canonical (fun _ _ h3 => setRport_canonical h3) h) (lgLinksDown_canonical h)))

theorem engSleep_canonical {s e} (h : Calm s₀ s) :
    Calm s₀ (engSleep s e) :=
  setDom_canonical (setRgF_canonical (foldl_canonical (fun _ _ h3 => ite_canonical (setSlotSt_canonical h3) h3) h))

theorem allCachesOut_canonical {s} (h : Calm s₀ s) :
    Calm s₀ (allCachesOut s) :=
  foldl_canonical (fun _ _ h3 => l3Drop_canonical (l3Flush_canonical h3)) (dropHolder_canonical (foldl_canonical (fun _ _ h6 => dropHolder_canonical h6) h))

theorem writeLastWake_canonical {s seen detail from_ fail step at_} (h : Calm s₀ s) :
    Calm s₀ (writeLastWake s seen detail from_ fail step at_) :=
  setRg_canonical (setRg_canonical h)

theorem joinAbort_canonical {s seen detail} (h : Calm s₀ s) :
    Calm s₀ (joinAbort s seen detail) :=
  ite_canonical (writeLastWake_canonical h) h

theorem judgeHot_canonical {s n} (h : Calm s₀ s) :
    Calm s₀ (judgeHot s n) :=
  ite_canonical h (raiseSrc_canonical (setStk_canonical h))

theorem wakeStep_canonical {s n act} (h : Calm s₀ s) (h_act : ∀ (a : State), Calm s₀ a → Calm s₀ (act a)) :
    Calm s₀ (wakeStep s n act) := by
  unfold wakeStep
  split
  · exact ite_canonical (h_act _ h) h
  · exact h

theorem wakeLate_canonical {s} (h : Calm s₀ s) :
    Calm s₀ (wakeLate s) := by
  unfold wakeLate
  split
  · exact h
  · exact ite_canonical h (ite_canonical h (rstStart_canonical (hlDevice_canonical (writeLastWake_canonical (setPkgState_canonical h)))))

theorem thermalTick_canonical {s n slow} (h : Calm s₀ s) :
    Calm s₀ (thermalTick s n slow) :=
  ite_canonical (ite_canonical h (reVolt_canonical (setStk_canonical h))) (ite_canonical h (reVolt_canonical (setStk_canonical h)))

theorem setPkgCeil_canonical {s x} (h : Calm s₀ s) :
    Calm s₀ (setPkgCeil s x) :=
  reVoltAll_canonical (ite_canonical (setRgF_canonical h) (raiseSrc_canonical (setRgF_canonical h)))

theorem powerTick_canonical {s w slow} (h : Calm s₀ s) :
    Calm s₀ (powerTick s w slow) := by
  unfold powerTick
  extract_lets s1 _ _ _
  have hs1 : Calm s₀ s1 := setRgF_canonical h
  exact ite_canonical (ite_canonical hs1 (setPkgCeil_canonical hs1)) (ite_canonical hs1 (setPkgCeil_canonical hs1))

theorem pcapctlWrite_canonical {s v} (h : Calm s₀ s) :
    Calm s₀ (pcapctlWrite s v) :=
  foldl_canonical (fun _ _ h3 => judgeHot_canonical h3) (setRg_canonical h)

theorem ownmapWrite_canonical {s b v} (h : Calm s₀ s) :
    Calm s₀ (ownmapWrite s b v) :=
  ite_canonical (setRg_canonical (hlWorldCfg_canonical h)) (hlWorldCfg_canonical h)

theorem wfctlWrite_canonical {s b h v} (hm : Calm s₀ s) :
    Calm s₀ (wfctlWrite s b h v) := by
  unfold wfctlWrite
  split <;> exact ite_canonical (ite_canonical (setRgF_canonical (ite_canonical (hlWorldCfg_canonical hm) hm)) (ite_canonical (hlWorldCfg_canonical hm) hm)) (ownWrite_canonical (ite_canonical (hlWorldCfg_canonical hm) hm) (ite_canonical (hlWorldCfg_canonical hm) hm))

theorem dapEnd_canonical {s code data} (h : Calm s₀ s) :
    Calm s₀ (dapEnd s code data) :=
  h

theorem dapDenied_canonical {s w what} (h : Calm s₀ s) :
    Calm s₀ (dapDenied s w what) :=
  dapEnd_canonical (hlDenied_canonical h)

theorem dapGate_canonical {ihl op waits run s} (h_run : ∀ (a : State), Calm s₀ a → Calm s₀ (run a)) (h : Calm s₀ s) :
    Calm s₀ (dapGate ihl op waits run s) := by
  unfold dapGate
  split
  · exact ite_canonical (h_run _ h) (h_run _ h)
  · exact ite_canonical (ite_canonical (h_run _ h) (h_run _ h)) (ite_canonical h (ite_canonical (dapEnd_canonical h) h))

theorem dapHalt_canonical {s n} (h : Calm s₀ s) :
    Calm s₀ (dapHalt s n) := by
  unfold dapHalt
  split
  · exact dapEnd_canonical h
  · exact dapEnd_canonical (ite_canonical h (setCore_canonical h))

theorem dapResume_canonical {s n} (h : Calm s₀ s) :
    Calm s₀ (dapResume s n) := by
  unfold dapResume
  split
  · exact dapEnd_canonical h
  · exact dapEnd_canonical (setCore_canonical h)

theorem dapStep_canonical {s n} (h : Calm s₀ s) :
    Calm s₀ (dapStep s n) := by
  unfold dapStep
  split
  · exact dapEnd_canonical h
  · exact ite_canonical (dapEnd_canonical h) (dapEnd_canonical (setCore_canonical h))

theorem coreHalt_canonical {s c} (h : Calm s₀ s) :
    Calm s₀ (coreHalt s c) :=
  ite_canonical (sysSet_canonical (setCore_canonical (endWait_canonical h))) (endWait_canonical h)

theorem dapCoreRead_canonical {s n r} (h : Calm s₀ s) :
    Calm s₀ (dapCoreRead s n r) := by
  unfold dapCoreRead
  split
  · exact dapEnd_canonical h
  · exact ite_canonical (dapEnd_canonical h) (ite_canonical (dapDenied_canonical h) (by split <;> exact dapEnd_canonical h))

theorem dapRead_canonical {s r pa f a} (h : Calm s₀ s) :
    Calm s₀ (dapRead s r pa f a).2.2 :=
  ite_snd_snd_canonical (hubAccess_canonical h) (hubRead_canonical h)

theorem dapWrite_canonical {s r pa v f a} (h : Calm s₀ s) :
    Calm s₀ (dapWrite s r pa v f a).2 :=
  ite_snd_canonical (hubAccess_canonical h) (hubWrite_canonical h)

theorem tapBypass_canonical {s ir tdi} (h : Calm s₀ s) :
    Calm s₀ (tapBypass s ir tdi) :=
  h

theorem plainWrite_canonical {s r i lock v} (h : Calm s₀ s) :
    Calm s₀ (plainWrite s r i lock v) :=
  setRg_canonical h

theorem filterWrite_canonical {s b r i h v} (hm : Calm s₀ s) :
    Calm s₀ (filterWrite s b r i h v) :=
  ite_canonical (plainWrite_canonical hm) hm

theorem rangeWrite_canonical {s b r u v} (h : Calm s₀ s) :
    Calm s₀ (rangeWrite s b r u v) :=
  ite_canonical h (ite_canonical (rangeGo_canonical h) (ite_canonical (setRgF_canonical h) (plainWrite_canonical h)))

theorem logWrite_canonical {s b d ev v} (h : Calm s₀ s) :
    Calm s₀ (logWrite s b d ev v) :=
  ite_canonical (logclrWrite_canonical h) h

theorem pkgcmdWrite_canonical {s b v} (h : Calm s₀ s) :
    Calm s₀ (pkgcmdWrite s b v) :=
  ite_canonical (plainWrite_canonical h) (ite_canonical (ite_canonical (setRgF_canonical h) (setPkgStatus_canonical h)) (pkgGo_canonical h))

theorem domcmdWrite_canonical {s b v} (h : Calm s₀ s) :
    Calm s₀ (domcmdWrite s b v) :=
  ite_canonical (domGo_canonical h) (plainWrite_canonical h)

theorem cpwrWrite_canonical {s b n v} (h : Calm s₀ s) :
    Calm s₀ (cpwrWrite s b n v) :=
  ownWrite_canonical h (plainWrite_canonical h)

theorem ciphWrite_canonical {s r v} (h : Calm s₀ s) :
    Calm s₀ (ciphWrite s r v) :=
  ite_canonical (setRgF_canonical h) (plainWrite_canonical h)

theorem mpwdtWrite_canonical {s b v} (h : Calm s₀ s) :
    Calm s₀ (mpwdtWrite s b v) :=
  ite_canonical (wdKick_canonical (plainWrite_canonical h)) (plainWrite_canonical h)

theorem shcmdWrite_canonical {s b v} (h : Calm s₀ s) :
    Calm s₀ (shcmdWrite s b v) :=
  ite_canonical (shcmdGo_canonical h) (plainWrite_canonical h)

theorem qcfgWrite_canonical {s q v} (h : Calm s₀ s) :
    Calm s₀ (qcfgWrite s q v) :=
  ite_canonical (queueEnable_canonical h) (ite_canonical (queueDisable_canonical h) (plainWrite_canonical h))

theorem queueRegWrite_canonical {s r q v} (h : Calm s₀ s) :
    Calm s₀ (queueRegWrite s r q v) :=
  ite_canonical (plainWrite_canonical h) (ite_canonical (plainWrite_canonical h) h)

theorem devSlot_canonical {s p cfg off a} (h : Calm s₀ s) :
    Calm s₀ (devSlot s p cfg off a) :=
  ite_canonical (devComplete_canonical h) (ite_canonical (ecamAccess_canonical h) (portDev_canonical h))

theorem dapSetupRead_canonical {s w off} (h : Calm s₀ s) :
    Calm s₀ (dapSetupRead s w off) :=
  ite_canonical (dapDenied_canonical h) (by split <;> exact dapEnd_canonical h)

theorem winEnd_canonical {s x} (h : Calm s₀ s) :
    Calm s₀ (winEnd s x) :=
  h

theorem winSend_canonical {s pa v} (h : Calm s₀ s) :
    Calm s₀ (winSend s pa v) := by
  unfold winSend
  split
  next x4 =>
    extract_lets _ s6 s7 _
    have hs6 : Calm s₀ s6 := send_canonical (snd_canonical (newTxid_canonical h) x4)
    have hs7 : Calm s₀ s7 := addOutst_canonical hs6
    exact hs7

theorem ihlAnswer_canonical {s a} (h : Calm s₀ s) :
    Calm s₀ (ihlAnswer s a) :=
  h

theorem ihlEnd_canonical {s cmd tag status rest} (h : Calm s₀ s) :
    Calm s₀ (ihlEnd s cmd tag status rest) :=
  ihlAnswer_canonical h

theorem ihlIdentAct_canonical {tag s} (h : Calm s₀ s) :
    Calm s₀ (ihlIdentAct tag s) :=
  ihlEnd_canonical h

theorem ihlStatusAct_canonical {tag s} (h : Calm s₀ s) :
    Calm s₀ (ihlStatusAct tag s) :=
  ihlEnd_canonical h

theorem lifeReadAct_canonical {tag s} (h : Calm s₀ s) :
    Calm s₀ (lifeReadAct tag s) :=
  ihlEnd_canonical h

theorem hlHeadAct_canonical {tag nonce s} (h : Calm s₀ s) :
    Calm s₀ (hlHeadAct tag nonce s) :=
  ihlEnd_canonical h

theorem hlReadAct_canonical {tag seq count pad s} (h : Calm s₀ s) :
    Calm s₀ (hlReadAct tag seq count pad s) :=
  ite_canonical (ihlEnd_canonical h) (ite_canonical (ihlEnd_canonical h) (ihlEnd_canonical h))

theorem hlVerifyAct_canonical {tag first last s} (h : Calm s₀ s) :
    Calm s₀ (hlVerifyAct tag first last s) :=
  ite_canonical (ihlEnd_canonical h) (ite_canonical (ihlEnd_canonical h) (ite_canonical (ihlEnd_canonical h) (by split <;> exact ihlEnd_canonical h)))

theorem ihlMailboxAct_canonical {tag blk s} (h : Calm s₀ s) :
    Calm s₀ (ihlMailboxAct tag blk s) := by
  unfold ihlMailboxAct
  split
  next x4 =>
    exact ite_canonical (ihlEnd_canonical (snd_canonical (mbEnter_canonical h) x4)) (ihlAnswer_canonical (snd_canonical (mbEnter_canonical h) x4))

theorem bootImageAct_canonical {tag off bs s} (h : Calm s₀ s) :
    Calm s₀ (bootImageAct tag off bs s) :=
  ite_canonical (ihlEnd_canonical h) (ihlEnd_canonical h)

theorem canonical_of_same {s t : State} (h : Calm s₀ s) (hd : t.dram = s.dram) (hm : t.mpSram = s.mpSram) (hf : t.flash = s.flash)
    (hp : t.ptime = s.ptime) : Calm s₀ t := by
  unfold Calm MemoriesCanonical
  rwa [hd, hm, hf, hp]

theorem snd_snd_snd_canonical {α β γ : Type} {p : α × β × γ × State} {a : α} {b : β} {c : γ} {t : State} (h : Calm s₀ p.2.2.2)
    (e : p = (a, b, c, t)) : Calm s₀ t := by
  subst e
  exact h

end Sys2Proof.Machine
end

section
/-! PROOFS. The canonical form of the memories (O60): the hub's units. -/
namespace Sys2Proof.Machine

open Sys2Proof

variable {s₀ : State}

theorem ladleOp_canonical {s q op i run} (h : Calm s₀ s) (h_run : ∀ (a : ℕ) (a_1 : LineData), Calm s₀ (run a a_1).2.2.2) :
    Calm s₀ (ladleOp s q op i run) := by
  unfold ladleOp
  split
  · exact h
  · exact ite_canonical (finishItem_canonical h h) (by
      split
      · exact hubPause_canonical h
      next x16 =>
        exact finishItem_canonical h (snd_snd_snd_canonical (h_run _ _) x16)
      next x24 =>
        exact finishItem_canonical h (snd_snd_snd_canonical (h_run _ _) x24))

theorem ladleCopy_canonical {s q i} (h : Calm s₀ s) :
    Calm s₀ (ladleCopy s q i) :=
  ladleOp_canonical h (by
    intro _ _
    split
    next x7 =>
      exact snd_snd_canonical (copyBytes_canonical h) x7)

theorem ladleFill_canonical {s q i} (h : Calm s₀ s) :
    Calm s₀ (ladleFill s q i) := by
  unfold ladleFill
  dsimp only
  exact ladleOp_canonical h (fun _ _ => shWriteBuf_canonical h)

theorem ladleCrc_canonical {s q i} (h : Calm s₀ s) :
    Calm s₀ (ladleCrc s q i) :=
  ladleOp_canonical h (by
    intro _ _
    split
    next x7 =>
      exact snd_snd_canonical (shReadBuf_canonical h) x7)

theorem ladleCompare_canonical {s q i} (h : Calm s₀ s) :
    Calm s₀ (ladleCompare s q i) :=
  ladleOp_canonical h (by
    intro _ _
    split
    next x6 =>
      split
      next x11 =>
        exact snd_snd_canonical (shReadBuf_canonical (snd_snd_canonical (shReadBuf_canonical h) x6)) x11
    next x17 =>
      exact snd_snd_canonical (shReadBuf_canonical h) x17)

theorem ladleNop_canonical {s q i} (h : Calm s₀ s) :
    Calm s₀ (ladleNop s q i) :=
  ladleOp_canonical h (fun _ _ => h)

theorem keyGo_canonical {s b op keyid sown healthy} (h : Calm s₀ s) :
    Calm s₀ (keyGo s b op keyid sown healthy) := by
  unfold keyGo
  extract_lets _ s2 _
  have hs2 : Calm s₀ s2 := keyFields_canonical h
  clear_value s2
  exact ite_canonical (setRgF_canonical h) (ite_canonical (setKeyStat_canonical hs2) (ite_canonical (hlDenied_canonical (setKeyStat_canonical hs2)) (ite_canonical (setKeyStat_canonical (zeroKeyData_canonical hs2)) (by
    split
    next x7 =>
      exact setKeyStat_canonical (canonical_of_same (zeroKeyData_canonical (snd_canonical (keyResult_canonical hs2) x7)) rfl rfl rfl rfl)))))

theorem mpToRom_canonical {s} (h : Calm s₀ s) : Calm s₀ (mpToRom s) := ⟨fun hc => ⟨(h.1 hc).1, rfl, (h.1 hc).2.2⟩, h.2⟩

theorem hlAppend_canonical {s p} (h : Calm s₀ s) :
    Calm s₀ (hlAppend s p) := by
  unfold hlAppend
  extract_lets _ _ _
  exact canonical_of_same h rfl rfl rfl rfl

theorem hlAppendNext_canonical {s} (h : Calm s₀ s) :
    Calm s₀ (hlAppendNext s) := by
  unfold hlAppendNext
  split
  · exact ite_canonical (hlPop_canonical (hlAppend_canonical h)) h
  · exact h

theorem hlCommit_canonical {s f} (h : Calm s₀ s) :
    Calm s₀ (hlCommit s f) := by
  unfold hlCommit
  dsimp only
  split
  · exact h
  · split
    · exact h
    · exact ite_canonical h (by
        split
        next x16 =>
          exact snd_snd_canonical (blockRead_canonical (hlPop_canonical (hlAppend_canonical h))) x16
        · exact hubPause_canonical h
        next x24 =>
          exact orPause_canonical h (hlReport_canonical (snd_snd_canonical (blockRead_canonical (hlPop_canonical (hlAppend_canonical h))) x24)))

theorem oeGate_canonical {s b e t} (h : Calm s₀ s) (he : oeGate s b e = some t) : Calm s₀ t := by
  unfold oeGate at he
  split at he
  · cases he
    exact ite_canonical (setRgF_canonical (hlDenied_canonical h)) (oeEnd_canonical (hlDenied_canonical h))
  · split at he
    · cases he
      exact setRgF_canonical h
    · cases he

theorem goHandover_canonical {s by_ e b} (h : Calm s₀ s) :
    Calm s₀ (goHandover s by_ e b) := by
  unfold goHandover
  split
  next x3 =>
    exact oeGate_canonical h x3
  · exact ite_canonical (oeEnd_canonical (oeFields_canonical h)) (ite_canonical (fadeTo_canonical (oeFields_canonical h)) (oeEnd_canonical (oeLight_canonical (setRgF_canonical (oeFields_canonical h)))))

theorem goRelease_canonical {s by_ e b l} (h : Calm s₀ s) :
    Calm s₀ (goRelease s by_ e b l) := by
  unfold goRelease
  split
  next x3 =>
    exact oeGate_canonical h x3
  · exact ite_canonical (oeEnd_canonical (oeFields_canonical h)) (ite_canonical (oeEnd_canonical (ite_canonical (setSlotSt_canonical (wearWrite_canonical (oeFields_canonical h))) (oeSettle_canonical (setSlotSt_canonical (wearWrite_canonical (oeFields_canonical h)))))) (oeEnd_canonical (oeFields_canonical h)))

theorem goCheck_canonical {s by_ e b} (h : Calm s₀ s) :
    Calm s₀ (goCheck s by_ e b) := by
  unfold goCheck
  split
  next x3 =>
    exact oeGate_canonical h x3
  · exact ite_canonical (checkStart_canonical (oeFields_canonical h)) (oeEnd_canonical (oeFields_canonical h))

theorem goBadOp_canonical {s by_ e b} (h : Calm s₀ s) :
    Calm s₀ (goBadOp s by_ e b) := by
  unfold goBadOp
  split
  next x3 =>
    exact oeGate_canonical h x3
  · exact oeEnd_canonical (setRgF_canonical h)

theorem rangeComplete_canonical {s u} (h : Calm s₀ s) :
    Calm s₀ (rangeComplete s u) := by
  unfold rangeComplete
  extract_lets s1 s2
  have hs1 : Calm s₀ s1 := canonical_of_same h rfl rfl rfl rfl
  clear_value s1
  have hs2 : Calm s₀ s2 := setRgF_canonical hs1
  clear_value s2
  exact ite_canonical h (ite_canonical (raiseSrc_canonical hs2) hs2)

theorem coldState_canonical {s} (h : Calm s₀ s) : MemoriesCanonical s₀ → MemoriesCanonical (coldState s) :=
  fun hc => (applyFuses_canonical (setRg_canonical ⟨id, rfl⟩)).1 ⟨rfl, rfl, (h.1 hc).2.2⟩

theorem coreReset_canonical {s c all} (h : Calm s₀ s) :
    Calm s₀ (coreReset s c all) := by
  unfold coreReset
  extract_lets s1 s2 s3
  have hs1 : Calm s₀ s1 := foldl_canonical (fun _ _ h6 => writeIeoi_canonical h6) h
  clear_value s1
  have hs2 : Calm s₀ s2 := foldl_canonical (fun _ _ h9 => setFence_canonical h9) hs1
  clear_value s2
  have hs3 : Calm s₀ s3 := canonical_of_same hs2 rfl rfl rfl rfl
  clear_value s3
  exact setCore_canonical hs3

theorem warmState_canonical {s last} (h : Calm s₀ s) :
    Calm s₀ (warmState s last) := by
  unfold warmState
  extract_lets s1 s2 s3 s4 s5 s6 s7
  have hs1 : Calm s₀ s1 := foldl_canonical (fun _ _ h10 => coreReset_canonical h10) (warmRegs_canonical (slotsDark_canonical h))
  clear_value s1
  have hs2 : Calm s₀ s2 := mpToRom_canonical hs1
  clear_value s2
  have hs3 : Calm s₀ s3 := canonical_of_same hs2 rfl rfl rfl rfl
  clear_value s3
  have hs4 : Calm s₀ s4 := canonical_of_same hs3 rfl rfl rfl rfl
  clear_value s4
  have hs5 : Calm s₀ s5 := canonical_of_same hs4 rfl rfl rfl rfl
  clear_value s5
  have hs6 : Calm s₀ s6 := canonical_of_same hs5 rfl rfl rfl rfl
  clear_value s6
  have hs7 : Calm s₀ s7 := foldl_canonical (fun _ _ h13 => setRgF_canonical (setRgF_canonical (setRgF_canonical h13))) hs6
  clear_value s7
  exact reVoltAll_canonical (setRgF_canonical (applyFuses_canonical hs7))

theorem rstFinish_canonical {s} (h : Calm s₀ s) :
    Calm s₀ (rstFinish s) := by
  unfold rstFinish
  split
  · exact h
  · split
    · split
      · exact h
      · extract_lets s11 _
        have hs11 : Calm s₀ s11 := by
          unfold s11
          split
          · exact resetRg_canonical h
          · exact h
        clear_value s11
        exact rstDone_canonical (coreReset_canonical (canonical_of_same hs11 rfl rfl rfl rfl))
    · split
      · exact h
      · extract_lets _ s24 __src25 s26 _
        have hs24 : Calm s₀ s24 := foldl_canonical (fun _ _ h30 => coreReset_canonical h30) (canonical_of_same h rfl rfl rfl rfl)
        clear_value s24
        have h__src25 : Calm s₀ __src25 := l3Drop_canonical (stackRegs_canonical hs24)
        clear_value __src25
        have hs26 : Calm s₀ s26 := canonical_of_same h__src25 rfl rfl rfl rfl
        clear_value s26
        exact canonical_of_same hs26 rfl rfl rfl rfl
    · split
      · exact h
      · exact warmState_canonical h

theorem resetRise_canonical {s casc bootSrc} (h : Calm s₀ s) :
    MemoriesCanonical s₀ → MemoriesCanonical (resetRise s casc bootSrc) := by
  intro hc
  unfold resetRise
  extract_lets s1 s2 __src3
  have hs1 : MemoriesCanonical s1 := coldState_canonical h hc
  have hs2 : Calm s1 s2 := setRg_canonical ⟨id, rfl⟩
  have h__src3 : Calm s1 __src3 := setRgF_canonical hs2
  split
  · exact h.1 hc
  · split
    · exact h__src3.1 hs1
    · exact h.1 hc

theorem fenceAtBoot_canonical {s n} (h : Calm s₀ s) :
    Calm s₀ (fenceAtBoot s n) := by
  unfold fenceAtBoot
  extract_lets _ s2 s3 s4 __src5 s6
  have hs2 : Calm s₀ s2 := ite_canonical h (setLsState_canonical h)
  clear_value s2
  have hs3 : Calm s₀ s3 := setLsF_canonical hs2
  clear_value s3
  have hs4 : Calm s₀ s4 := foldl_canonical (fun _ _ h9 => setRg_canonical h9) hs3
  clear_value s4
  have h__src5 : Calm s₀ __src5 := setStkState_canonical hs4
  clear_value __src5
  have hs6 : Calm s₀ s6 := raiseSrc_canonical (canonical_of_same h__src5 rfl rfl rfl rfl)
  clear_value s6
  exact ite_canonical h (rstDone_canonical hs6)

theorem revFences_canonical {s} (h : Calm s₀ s) :
    Calm s₀ (revFences s) :=
  foldl_canonical (fun _ _ h3 => ite_canonical (fenceDie_canonical h3) h3) (foldl_canonical (fun _ _ h6 => ite_canonical (fenceAtBoot_canonical (fenceDie_canonical (fenceDie_canonical h6))) h6) h)

theorem hubFenced_canonical {s} (h : Calm s₀ s) :
    Calm s₀ (hubFenced s) := by
  unfold hubFenced
  extract_lets s1 s2 _
  have hs1 : Calm s₀ s1 := foldl_canonical (fun _ _ h6 => fenceDie_canonical h6) h
  clear_value s1
  have hs2 : Calm s₀ s2 := foldl_canonical (fun _ _ h9 => fenceAtBoot_canonical h9) hs1
  clear_value s2
  exact hlDevice_canonical (canonical_of_same hs2 rfl rfl rfl rfl)

theorem bringFloor_canonical {s revs pers} (h : Calm s₀ s) :
    Calm s₀ (bringFloor s revs pers) :=
  ite_canonical h (ite_canonical (hubFenced_canonical (foldl_canonical (fun _ _ h3 => setRg_canonical h3) h)) (enterAdmit_canonical (foldl_canonical (fun _ _ h6 => ite_canonical h6 (lgctlWrite_canonical h6)) (ite_canonical (revFences_canonical (foldl_canonical (fun _ _ h9 => setRg_canonical h9) h)) (revFences_canonical (foldl_canonical (fun _ _ h12 => setRg_canonical h12) h))))))

theorem bringTileInit_canonical {s mods} (h : Calm s₀ s) :
    Calm s₀ (bringTileInit s mods) := by
  unfold bringTileInit
  split
  · exact h
  · extract_lets _ s4
    have hs4 : Calm s₀ s4 := canonical_of_same h rfl rfl rfl rfl
    clear_value s4
    exact foldl_canonical (by
      intro _ _ h7
      extract_lets s8 _
      have hs8 : Calm s₀ s8 := chStart_canonical (chStart_canonical (setStkState_canonical (dirClear_canonical h7)))
      clear_value s8
      exact canonical_of_same hs8 rfl rfl rfl rfl) hs4

theorem bringHash_canonical {s} (h : Calm s₀ s) : Calm s₀ (bringHash s) := by
  unfold bringHash
  extract_lets chs cap same s1 s2 s3
  have h1 : Calm s₀ s1 := setRgF_canonical (setRgF_canonical (setRgF_canonical h))
  clear_value s1
  have h2 : Calm s₀ s2 := foldl_canonical (fun _ _ h => setRgF_canonical h) h1
  clear_value s2
  have h3 : Calm s₀ s3 := ite_canonical h2 ⟨fun hc => ⟨rfl, (h2.1 hc).2⟩, h2.2⟩
  clear_value s3
  exact ite_canonical h (setRgF_canonical h3)

theorem dieInit_canonical {s n fails drifts fab} (h : Calm s₀ s) :
    Calm s₀ (dieInit s n fails drifts fab) := by
  unfold dieInit
  extract_lets s1 s2 s3 __src4 _
  have hs1 : Calm s₀ s1 := foldl_canonical (fun _ _ h8 => ite_canonical (retireCore_canonical h8) h8) h
  clear_value s1
  have hs2 : Calm s₀ s2 := foldl_canonical (fun _ _ h11 => ite_canonical (setRgF_canonical (setCore_canonical h11)) h11) hs1
  clear_value s2
  have hs3 : Calm s₀ s3 := ite_canonical (coldAging_canonical hs2) hs2
  clear_value s3
  have h__src4 : Calm s₀ __src4 := assignCores_canonical hs3
  clear_value __src4
  exact ite_canonical h (reVolt_canonical (setStkState_canonical (canonical_of_same h__src4 rfl rfl rfl rfl)))

theorem stackReady_canonical {s n} (h : Calm s₀ s) :
    Calm s₀ (stackReady s n) := by
  unfold stackReady
  extract_lets s1 s2 s3 _ s5
  have hs1 : Calm s₀ s1 := foldl_canonical (fun _ _ h8 => ite_canonical (setRgF_canonical h8) h8) h
  clear_value s1
  have hs2 : Calm s₀ s2 := raiseSrc_canonical (setStkState_canonical hs1)
  clear_value s2
  have hs3 : Calm s₀ s3 := ite_canonical (l3Shortcut_canonical hs2) hs2
  clear_value s3
  have hs5 : Calm s₀ s5 := canonical_of_same hs3 rfl rfl rfl rfl
  clear_value s5
  exact ite_canonical h (rstDone_canonical hs5)

theorem bootCore_canonical {s rstvec} (h : Calm s₀ s) :
    Calm s₀ (bootCore s rstvec) := by
  unfold bootCore
  extract_lets s1 _ s3
  have hs1 : Calm s₀ s1 := foldl_canonical (fun _ _ h6 => l3Shortcut_canonical h6) h
  clear_value s1
  have hs3 : Calm s₀ s3 := foldl_canonical (fun _ _ h9 => sysSet_canonical h9) (canonical_of_same hs1 rfl rfl rfl rfl)
  clear_value s3
  split
  · exact h
  · exact ite_canonical h (reVoltAll_canonical (setRgF_canonical (by
      split
      · exact releaseCore_canonical hs3
      · exact hs3)))

theorem pkgPoint_canonical {s} (h : Calm s₀ s) :
    Calm s₀ (pkgPoint s) := by
  unfold pkgPoint
  extract_lets _ s2 s3 s4 s5 s6 _
  have hs2 : Calm s₀ s2 := ite_canonical (allCachesOut_canonical h) h
  clear_value s2
  have hs3 : Calm s₀ s3 := foldl_canonical (fun _ _ h10 => engSleep_canonical h10) (foldl_canonical (fun _ _ h13 => lgSleep_canonical h13) hs2)
  clear_value s3
  have hs4 : Calm s₀ s4 := foldl_canonical (fun _ _ h16 => ite_canonical (setDom_canonical h16) h16) (foldl_canonical (fun _ _ h19 => setDom_canonical h19) hs3)
  clear_value s4
  have hs5 : Calm s₀ s5 := foldl_canonical (fun _ _ h22 => ite_canonical h22 (setLsState_canonical h22)) hs4
  clear_value s5
  have hs6 : Calm s₀ s6 := ite_canonical (setRg_canonical hs5) hs5
  clear_value s6
  exact ite_canonical (foldl_canonical (fun _ _ h25 => setDom_canonical h25) h) (ite_canonical h (ite_canonical hs2 (setPkgStatus_canonical (setPkgState_canonical (canonical_of_same hs6 rfl rfl rfl rfl)))))

theorem lgWake_canonical {s g} (h : Calm s₀ s) :
    Calm s₀ (lgWake s g) := by
  unfold lgWake
  extract_lets _ __src2 s3
  have h__src2 : Calm s₀ __src2 := lgTrain_canonical h
  clear_value __src2
  have hs3 : Calm s₀ s3 := canonical_of_same h__src2 rfl rfl rfl rfl
  clear_value s3
  exact ite_canonical h (ite_canonical (lgRefresh_canonical (engFollow_canonical hs3)) hs3)

theorem abortEntry_canonical {s src detail} (h : Calm s₀ s) :
    Calm s₀ (abortEntry s src detail) :=
  raiseSrc_canonical (writeLastWake_canonical (setPkgStatus_canonical (setPkgState_canonical (ite_canonical (foldl_canonical (fun _ _ h3 => ite_canonical (lgWake_canonical h3) h3) (foldl_canonical (by
    intro _ _ h6
    split
    · exact ingressReopen_canonical (setDom_canonical h6)
    · exact setDom_canonical h6) h)) h))))

theorem wakeFires_canonical {s seen detail} (h : Calm s₀ s) :
    Calm s₀ (wakeFires s seen detail) :=
  ite_canonical h (ite_canonical (setPkgState_canonical h) (ite_canonical (by
    split
    · exact ite_canonical h h
    · exact h) (ite_canonical (abortEntry_canonical h) (joinAbort_canonical h))))

theorem wakeEvent_canonical {s en src detail} (h : Calm s₀ s) :
    Calm s₀ (wakeEvent s en src detail) :=
  ite_canonical (wakeFires_canonical h) h

theorem tripAt_canonical {s dom} (h : Calm s₀ s) :
    MemoriesCanonical s₀ → MemoriesCanonical (tripAt s dom) := by
  intro hc
  unfold tripAt
  extract_lets s1 _
  have hs1 : MemoriesCanonical s1 := (incRgF_canonical ⟨id, rfl⟩).1 (coldState_canonical (hlDevice_canonical h) hc)
  exact hs1

theorem tripReading_canonical {s hot} (h : Calm s₀ s) :
    MemoriesCanonical s₀ → MemoriesCanonical (tripReading s hot) := by
  intro hc
  unfold tripReading
  split
  · exact tripAt_canonical h hc
  · exact h.1 hc

theorem sensorRead_canonical {s tmax hot} (h : Calm s₀ s) :
    MemoriesCanonical s₀ → MemoriesCanonical (sensorRead s tmax hot) := by
  intro hc
  unfold sensorRead
  split
  · exact h.1 hc
  · exact tripReading_canonical (foldl_canonical (fun _ _ h3 => judgeHot_canonical (setStk_canonical h3)) h) hc

theorem annealSample_canonical {s i} (h : Calm s₀ s) :
    MemoriesCanonical s₀ → MemoriesCanonical (annealSample s i) := by
  intro hc
  unfold annealSample
  extract_lets s1 _ s3
  have hs1 : Calm s₀ s1 := incRgF_canonical (setRgF_canonical (setRgF_canonical h))
  have hs3 : MemoriesCanonical s3 := tripReading_canonical hs1 hc
  have hkept : Calm s3 s3 := ⟨id, rfl⟩
  split
  · exact h.1 hc
  · exact (ite_canonical hkept (wakeFires_canonical hkept)).1 hs3

theorem wakeRestore_canonical {s} (h : Calm s₀ s) :
    Calm s₀ (wakeRestore s) := by
  unfold wakeRestore
  split
  · exact h
  · exact ite_canonical h (foldl_canonical (fun _ _ h8 => lgWake_canonical h8) (raiseSrc_canonical (writeLastWake_canonical (setPkgState_canonical (foldl_canonical (fun _ _ h11 => setDom_canonical h11) (foldl_canonical (fun _ _ h14 => setDom_canonical h14) h))))))

theorem dapRegSet_canonical {s c r v t} (h : Calm s₀ s) (e : dapRegSet s c r v = some t) : Calm s₀ t := by
  cases r with
  | pc =>
    cases e
    exact setCore_canonical h
  | d n =>
    cases e
    exact dSet_canonical h
  | a n =>
    cases e
    exact aSet_canonical h
  | q n part =>
    cases e
    exact qSet_canonical h
  | sys n w =>
    unfold dapRegSet at e
    dsimp only at e
    split at e
    · cases e
    · split at e
      · cases e
        exact sysWrite_canonical h
      · cases e
        exact sysWriteEff_canonical h

theorem dapCoreWrite_canonical {s n r v} (h : Calm s₀ s) :
    Calm s₀ (dapCoreWrite s n r v) := by
  unfold dapCoreWrite
  split
  · exact dapEnd_canonical h
  · exact ite_canonical (dapEnd_canonical h) (ite_canonical (dapDenied_canonical h) (by
      split
      next x8 =>
        exact dapEnd_canonical (dapRegSet_canonical h x8)
      · exact dapEnd_canonical h))

theorem keycmdWrite_canonical {s b v} (h : Calm s₀ s) :
    Calm s₀ (keycmdWrite s b v) :=
  ite_canonical (by
    split
    next x4 =>
      exact keyGo_canonical (snd_canonical (freeWord_canonical h) x4)) (plainWrite_canonical h)

theorem oecmdWrite_canonical {s b e v} (h : Calm s₀ s) :
    Calm s₀ (oecmdWrite s b e v) :=
  ite_canonical (ownWrite_canonical h (plainWrite_canonical h)) (by
    split
    · exact goHandover_canonical h
    · split
      next x8 =>
        exact goRelease_canonical (snd_canonical (freeWord_canonical h) x8)
    · exact goCheck_canonical h
    · exact goBadOp_canonical h)

theorem ihlActivity_canonical {s} (h : Calm s₀ s) :
    Calm s₀ (ihlActivity s) :=
  wakeEvent_canonical h

theorem ihlCmd_canonical {s a tag cmd light toAll act} (h : Calm s₀ s) (h_act : ∀ (a : State), Calm s₀ a → Calm s₀ (act a)) :
    Calm s₀ (ihlCmd s a tag cmd light toAll act) :=
  ite_canonical (ite_canonical (h_act _ (ihlActivity_canonical h)) (ite_canonical (ihlAnswer_canonical (ihlActivity_canonical h)) (ite_canonical (h_act _ (ihlActivity_canonical h)) (ihlEnd_canonical (ihlActivity_canonical h))))) (ite_canonical (ihlAnswer_canonical (ite_canonical (h_act _ (ihlActivity_canonical h)) (ihlActivity_canonical h))) (ihlAnswer_canonical h))

theorem wakeMboxAct_canonical {tag w s} (h : Calm s₀ s) :
    Calm s₀ (wakeMboxAct tag w s) :=
  ihlEnd_canonical (wakeEvent_canonical (setRgF_canonical h))

theorem ihlPayload_canonical {s a cmd tag p} (h : Calm s₀ s) :
    Calm s₀ (ihlPayload s a cmd tag p) := by
  unfold ihlPayload
  split
  · exact ite_canonical (ihlCmd_canonical h (fun _ h3 => ihlIdentAct_canonical h3)) (ihlCmd_canonical h (fun _ h5 => ihlEnd_canonical h5))
  · exact ite_canonical (ihlCmd_canonical h (fun _ h8 => ihlStatusAct_canonical h8)) (ihlCmd_canonical h (fun _ h10 => ihlEnd_canonical h10))
  · exact ite_canonical (ihlCmd_canonical h (fun _ h13 => wakeMboxAct_canonical h13)) (ihlCmd_canonical h (fun _ h15 => ihlEnd_canonical h15))
  · exact ite_canonical (ihlCmd_canonical h (fun _ h18 => hlHeadAct_canonical h18)) (ihlCmd_canonical h (fun _ h20 => ihlEnd_canonical h20))
  · exact ite_canonical (ihlCmd_canonical h (fun _ h23 => hlReadAct_canonical h23)) (ihlCmd_canonical h (fun _ h25 => ihlEnd_canonical h25))
  · exact ite_canonical (ihlCmd_canonical h (fun _ h28 => hlVerifyAct_canonical h28)) (ihlCmd_canonical h (fun _ h30 => ihlEnd_canonical h30))
  · exact ite_canonical (ihlCmd_canonical h (fun _ h33 => lifeReadAct_canonical h33)) (ihlCmd_canonical h (fun _ h35 => ihlEnd_canonical h35))
  · exact ite_canonical (ihlCmd_canonical h (fun _ h38 => ihlMailboxAct_canonical h38)) (ihlCmd_canonical h (fun _ h40 => ihlEnd_canonical h40))
  · exact ihlCmd_canonical h (fun _ h43 => ihlAnswer_canonical h43)
  · exact ite_canonical (ihlCmd_canonical h (fun _ h46 => bootImageAct_canonical h46)) (ihlCmd_canonical h (fun _ h48 => ihlEnd_canonical h48))
  · exact ihlCmd_canonical h (fun _ h61 => ite_canonical (ihlEnd_canonical h61) (ihlAnswer_canonical h61))

theorem ihlFrame_canonical {s f} (h : Calm s₀ s) :
    Calm s₀ (ihlFrame s f) := by
  unfold ihlFrame
  extract_lets body1 _
  clear_value body1
  split
  · exact ite_canonical (ihlPayload_canonical h) (ihlAnswer_canonical h)
  · exact ihlAnswer_canonical h

end Sys2Proof.Machine
end

section
/-! PROOFS. The canonical form of the memories (O60): the hub's memory accesses and the register window. -/
namespace Sys2Proof.Machine

open Sys2Proof

variable {s₀ : State}

theorem takeUnits_canonical {g fuel e s} (h : Calm s₀ s) : Calm s₀ (takeUnits g fuel e s).2.2 := by
  induction fuel generalizing e s with
  | zero => exact h
  | succ fuel ih =>
    unfold takeUnits
    have htake {p : Packet} {t : State} (e1 : (match e.txq with
        | p :: _ => some (p, s)
        | [] => (nextOut s g).map (fun p => (p, { s with net := s.net.erase p }))) = some (p, t)) : Calm s₀ t := by
      split at e1
      · cases e1
        exact h
      · obtain ⟨_, _, e1⟩ := Option.map_eq_some_iff.mp e1
        cases e1
        exact h
    split
    · exact h
    next e1 =>
      extract_lets last
      split
      next e2 => exact snd_snd_canonical (ih (htake e1)) e2

theorem sendFlit_canonical {s g} (h : Calm s₀ s) :
    Calm s₀ (sendFlit s g) :=
  ite_canonical h (by
    split
    · exact h
    next x10 =>
      exact setPalEnd_canonical (snd_snd_canonical (takeUnits_canonical h) x10))

theorem flitArrive_canonical {s g f} (h : Calm s₀ s) :
    Calm s₀ (flitArrive s g f) :=
  ite_canonical h (ite_canonical (setPalEnd_canonical h) (sendFlit_canonical (ite_canonical (foldl_canonical (fun _ _ h3 => msgArrive_canonical h3) (setPalEnd_canonical (ite_canonical (setRgF_canonical h) h))) (setPalEnd_canonical (ite_canonical (setRgF_canonical h) h)))))

theorem getD_canonical {o : Option State} {s : State} (h : Calm s₀ s) (ho : ∀ t, o = some t → Calm s₀ t) :
    Calm s₀ (o.getD s) := by
  cases o with
  | none => exact h
  | some t => exact ho t rfl

theorem hubSend_canonical {s x} (h : Calm s₀ s) : Calm s₀ (hubSend s x) := by
  unfold hubSend
  extract_lets m
  split
  · exact ite_canonical (wakeDom_canonical h) (ite_canonical h (getD_canonical h fun _ e => hioFetch_canonical h e))
  · split
    next e =>
      extract_lets s2
      have h2 : Calm s₀ s2 := addOutst_canonical (snd_canonical (newTxid_canonical h) e)
      clear_value s2
      exact ite_canonical (transact_canonical h2) (sendOut_canonical h2)

theorem hubEnd_canonical {s} (h : Calm s₀ s) :
    Calm s₀ (hubEnd s) :=
  foldl_canonical (fun _ _ h3 => hubSend_canonical h3) h

theorem msgUnits_canonical {s n st i d m k c} (h : Calm s₀ s) : Calm s₀ (msgUnits s n st i d m k c).st := by
  unfold msgUnits
  split
  next ra aad s1 e =>
    have h1 : Calm s₀ s1 := snd_snd_canonical (ite_snd_snd_canonical (shReadBuf_canonical h) h) e
    split
    split
    · split
      · exact h1
      · extract_lets from_
        split
        next e2 =>
          have h2 := snd_snd_canonical (shReadBuf_canonical h1) e2
          split
          split
          · exact h2
          · split
            next e3 =>
              have h3 := snd_snd_canonical (shWriteBuf_canonical h2) e3
              split
              · exact h3
              · exact h3
    · exact h1

theorem msgWork_canonical {s0 s n q it z m ci i} (h : Calm s₀ s0) (h_s : Calm s₀ s) :
    Calm s₀ (msgWork s0 s n q it z m ci i) := by
  unfold msgWork
  dsimp only
  split
  · exact hubPause_canonical h
  · exact ite_canonical (cipherEnd_canonical h (incRgF_canonical (setSession_canonical (foldl_canonical (fun _ _ h7 => checkFailed_canonical h7) (msgUnits_canonical h_s))))) (ite_canonical (setSession_canonical (foldl_canonical (fun _ _ h10 => checkFailed_canonical h10) (msgUnits_canonical h_s))) (by
      split
      · exact hubPause_canonical h
      next x18 =>
        exact cipherEnd_canonical h (snd_snd_canonical (msgEnd_canonical (setSession_canonical (foldl_canonical (fun _ _ h21 => checkFailed_canonical h21) (msgUnits_canonical h_s)))) x18)
      next x28 =>
        exact cipherEnd_canonical h (snd_snd_canonical (msgEnd_canonical (setSession_canonical (foldl_canonical (fun _ _ h31 => checkFailed_canonical h31) (msgUnits_canonical h_s)))) x28)))
  · exact cipherEnd_canonical h (setSession_canonical (foldl_canonical (fun _ _ h37 => checkFailed_canonical h37) (msgUnits_canonical h_s)))

theorem cipherMsg_canonical {s op q idx ci i} (h : Calm s₀ s) :
    Calm s₀ (cipherMsg s op q idx ci i) := by
  unfold cipherMsg
  split
  · exact h
  · split
    · exact h
    · split
      · exact h
      · split
        · exact h
        · split
          · exact cipherEnd_canonical h h
          · split
            · exact h
            · extract_lets _ _
              split
              · exact cipherEnd_canonical h h
              · exact h
              · extract_lets _ s136
                have hs136 : Calm s₀ s136 := setSession_canonical (updItem_canonical (canonical_of_same h rfl rfl rfl rfl))
                clear_value s136
                split
                · exact msgWork_canonical h h
                · exact msgWork_canonical h hs136

theorem mbPost_canonical {s b c line f} (h : Calm s₀ s) :
    Calm s₀ (mbPost s b c line f) := by
  unfold mbPost
  extract_lets _
  exact ite_canonical h (by
    split
    next x5 =>
      exact hubEnd_canonical (snd_snd_canonical (blockRead_canonical h) x5)
    · exact hubEnd_canonical (hubPause_canonical h)
    next x13 =>
      split
      next x17 =>
        exact hubEnd_canonical (orPause_canonical h (blockWrite_canonical (snd_canonical (mbEnter_canonical (snd_snd_canonical (blockRead_canonical h) x13)) x17))))

theorem mpRestart_canonical {s} (h : Calm s₀ s) :
    Calm s₀ (mpRestart s) := by
  unfold mpRestart
  dsimp only
  split
  · exact hubEnd_canonical (hubPause_canonical h)
  next x6 =>
    exact hlDevice_canonical (raiseSrc_canonical (incRgF_canonical (mpToRom_canonical (hubEnd_canonical (snd_canonical (by
      split
      · exact h
      · split
        · exact h
        · exact mbFinish_canonical h) x6)))))

theorem hlSubmit_canonical {s b line f} (h : Calm s₀ s) :
    Calm s₀ (hlSubmit s b line f) := by
  unfold hlSubmit
  extract_lets _
  split
  next x5 =>
    exact hubEnd_canonical (snd_snd_canonical (blockRead_canonical h) x5)
  · exact hubEnd_canonical (hubPause_canonical h)
  next x13 =>
    exact ite_canonical (sendG_canonical (hubEnd_canonical (snd_snd_canonical (blockRead_canonical h) x13))) (hubEnd_canonical (orPause_canonical h (hlReport_canonical (snd_snd_canonical (blockRead_canonical h) x13))))

theorem rstAct_canonical {s op t} (h : Calm s₀ s) :
    Calm s₀ (rstAct s op t) :=
  ite_canonical (rstStart_canonical h) (ite_canonical (ite_canonical (rstEnd_canonical h) (rstStart_canonical (setStkState_canonical (foldl_canonical (fun _ _ h3 => setRgF_canonical h3) h)))) (ite_canonical (ite_canonical (rstEnd_canonical h) (rstStart_canonical h)) (ite_canonical (mpRestart_canonical h) (ite_canonical (ite_canonical (rstEnd_canonical h) (releaseCore_canonical h)) (ite_canonical h (rstEnd_canonical h))))))

theorem rstGo_canonical {s b op t} (h : Calm s₀ s) :
    Calm s₀ (rstGo s b op t) := by
  unfold rstGo
  extract_lets s1 _ _
  have hs1 : Calm s₀ s1 := setRgF_canonical (setRgF_canonical h)
  clear_value s1
  exact ite_canonical (setRgF_canonical h) (ite_canonical (setRgF_canonical (setRgF_canonical h)) (ite_canonical (rstEnd_canonical hs1) (ite_canonical (rstEnd_canonical (hlDenied_canonical hs1)) (rstAct_canonical (setRgF_canonical (canonical_of_same hs1 rfl rfl rfl rfl))))))

theorem dapMemRead_canonical {s w keyid dw f a} (h : Calm s₀ s) :
    Calm s₀ (dapMemRead s w keyid dw f a) :=
  ite_canonical (dapDenied_canonical h) (by
    split
    next x4 =>
      exact dapEnd_canonical (hubEnd_canonical (snd_snd_canonical (dapRead_canonical h) x4))
    next x8 =>
      exact dapEnd_canonical (hubEnd_canonical (snd_snd_canonical (dapRead_canonical h) x8))
    · exact hubEnd_canonical (hubPause_canonical h))

theorem dapMemWrite_canonical {s w keyid dw v f a} (h : Calm s₀ s) :
    Calm s₀ (dapMemWrite s w keyid dw v f a) :=
  ite_canonical (dapDenied_canonical h) (by
    split
    next x3 =>
      exact dapEnd_canonical (hubEnd_canonical (snd_canonical (dapWrite_canonical h) x3))
    next x6 =>
      exact dapEnd_canonical (hubEnd_canonical (snd_canonical (dapWrite_canonical h) x6))
    · exact hubEnd_canonical (hubPause_canonical h))

theorem rstcmdWrite_canonical {s b v} (h : Calm s₀ s) :
    Calm s₀ (rstcmdWrite s b v) :=
  ite_canonical (rstGo_canonical h) (plainWrite_canonical h)

theorem regAct_canonical {s b r i v} (h : Calm s₀ s) :
    Calm s₀ (regAct s b r i v) := by
  unfold regAct
  split
  · exact rstcmdWrite_canonical h
  · exact keycmdWrite_canonical h
  · exact setRg_canonical h
  · exact ite_canonical h (plainWrite_canonical h)
  · exact ite_canonical h (plainWrite_canonical h)
  · exact ownmapWrite_canonical h
  · exact wfctlWrite_canonical h
  · exact filterWrite_canonical h
  · exact filterWrite_canonical h
  · exact wfctlWrite_canonical h
  · exact filterWrite_canonical h
  · exact filterWrite_canonical h
  · exact fstopWrite_canonical h
  · exact fstopWrite_canonical h
  · exact linkctlWrite_canonical h
  · exact linkctlWrite_canonical h
  · exact mpWrite_canonical h (rimWrite_canonical h)
  · exact rangeWrite_canonical h
  · exact rangeWrite_canonical h
  · exact rangeWrite_canonical h
  · exact rangeWrite_canonical h
  · exact logWrite_canonical h
  · exact logWrite_canonical h
  · exact logWrite_canonical h
  · exact logWrite_canonical h
  · exact pkgcmdWrite_canonical h
  · exact pcapctlWrite_canonical h
  · exact domcmdWrite_canonical h
  · exact cpwrWrite_canonical h
  · exact ciphWrite_canonical h
  · exact ciphWrite_canonical h
  · exact mpwdtWrite_canonical h
  · exact mbPost_canonical h
  · exact hlSubmit_canonical h
  · exact shcmdWrite_canonical h
  · exact intCfgWrite_canonical h
  · exact intCfgWrite_canonical h
  · exact ethportWrite_canonical h
  · exact vreqWrite_canonical h
  · exact l3ctlBy_canonical h
  · exact pmaskWrite_canonical h
  · exact mcctlWrite_canonical h
  · exact plainWrite_canonical h
  · exact lgctlWrite_canonical h
  · exact palctlWrite_canonical h
  · exact oecmdWrite_canonical h
  · exact sqdbWrite_canonical h
  · exact cqdbWrite_canonical h
  · exact qcfgWrite_canonical h
  · exact queueRegWrite_canonical h
  · exact queueRegWrite_canonical h
  · exact queueRegWrite_canonical h
  · exact plainWrite_canonical h

theorem regWrite_canonical {s b off v t} (h : Calm s₀ s) (e : regWrite s b off v = some t) : Calm s₀ t := by
  unfold regWrite at e
  split at e
  · cases e
  · split at e
    · cases e
      exact h
    · cases e
    · cases e
      exact ite_canonical (regAct_canonical h) (ownWrite_canonical h (regAct_canonical h))

theorem devReg_canonical {s p off} (h : Calm s₀ s) :
    Calm s₀ (devReg s p off) :=
  ite_canonical (devComplete_canonical h) (ite_canonical (by split <;> exact devComplete_canonical h) (by
    split
    next x8 =>
      exact devComplete_canonical (regWrite_canonical h x8)
    · exact devComplete_canonical h))

theorem devArrive_canonical {s p a} (h : Calm s₀ s) :
    Calm s₀ (devArrive s p a) :=
  ite_canonical (fencedPacket_canonical h) (by
    split
    · exact ite_canonical (devReg_canonical h) (ite_canonical h (devComplete_canonical h))
    · exact ite_canonical (devSlot_canonical h) (ite_canonical h (devComplete_canonical h))
    · exact ite_canonical (devSlot_canonical h) (ite_canonical h (devComplete_canonical h))
    · exact devComplete_canonical h)

theorem devTake_canonical {s c src tx a} (h : Calm s₀ s) :
    Calm s₀ (devTake s c src tx a) := by
  unfold devTake
  split
  next x4 =>
    split
    next x7 =>
      exact devArrive_canonical (snd_canonical (meetIngress_canonical (takePacket_canonical h x4)) x7)
    next x10 =>
      exact snd_canonical (meetIngress_canonical (takePacket_canonical h x4)) x10
  · exact h

theorem dapSetupWrite_canonical {s w off v} (h : Calm s₀ s) :
    Calm s₀ (dapSetupWrite s w off v) :=
  ite_canonical (dapDenied_canonical h) (by
    split
    next x3 =>
      exact dapEnd_canonical (regWrite_canonical h x3)
    · exact dapEnd_canonical h)

theorem dapRun_canonical {s op} (h : Calm s₀ s) :
    Calm s₀ (dapRun s op) := by
  unfold dapRun
  split
  · exact dapHalt_canonical h
  · exact dapResume_canonical h
  · exact dapStep_canonical h
  · exact dapCoreRead_canonical h
  · exact dapCoreWrite_canonical h
  · exact dapMemRead_canonical h
  · exact dapMemWrite_canonical h
  · exact dapSetupRead_canonical h
  · exact dapSetupWrite_canonical h

theorem ihlDapAct_canonical {tag op s} (h : Calm s₀ s) :
    Calm s₀ (ihlDapAct tag op s) :=
  ite_canonical (ihlAnswer_canonical (dapGate_canonical (fun _ h2 => dapRun_canonical h2) h)) (ihlEnd_canonical (dapGate_canonical (fun _ h4 => dapRun_canonical h4) h))

theorem windowHalf_canonical {s a w} (h : Calm s₀ s) :
    Calm s₀ (windowHalf s a w) := by
  unfold windowHalf
  extract_lets pa
  split
  · refine ite_canonical (winEnd_canonical h) (ite_canonical (ite_canonical (winSend_canonical h) ?_) ?_)
    · split
      · exact winEnd_canonical (s := {s with mpRead := _}) h
      · exact winEnd_canonical (s := {s with mpRead := _}) h
    · split
      · exact ite_canonical (winEnd_canonical (s := {s with mpRead := _}) h) (winEnd_canonical h)
      · exact winEnd_canonical h
  · refine ite_canonical (winEnd_canonical h)
      (ite_canonical (winEnd_canonical (s := {s with mpHeld := _}) h) ?_)
    split
    · have released : Calm s₀ { s with mpHeld := none } := h
      refine ite_canonical (ite_canonical (winSend_canonical released) ?_) (winEnd_canonical h)
      split
      next t e => exact winEnd_canonical (regWrite_canonical released e)
      next => exact winEnd_canonical released
    · exact winEnd_canonical h
  · exact winEnd_canonical h

end Sys2Proof.Machine
end

section
/-! PROOFS. The canonical form of the memories (O60): one arm per command, and the step. -/
namespace Sys2Proof.Machine

open Sys2Proof

variable {s₀ : State}

/-- What a command leaves keeps the canonical form when the state it hands on does. -/
theorem next_canonical {x t : State} (ran : ok x = .next t) (hx : Calm s₀ x) : MemoriesCanonical s₀ → MemoriesCanonical t := by
  cases ran
  exact hx.1

theorem execTakeInterrupt_canonical {c s t} (h : Calm s₀ s) (ran : execTakeInterrupt c s = .next t) :
    MemoriesCanonical s₀ → MemoriesCanonical t :=
  next_canonical ran (ite_canonical (by
    split
    · exact stepHalt_canonical (takeSig_canonical h)
    · exact h) h)

theorem execTime_canonical {time halfTrip s t} (h : Calm s₀ s)
    (ran : execTime time halfTrip s = .next t) : MemoriesCanonical s₀ → MemoriesCanonical t := by
  refine next_canonical (s₀ := s₀) ran ?_
  split
  next x4 => exact timeArrive_canonical (gArrive_canonical (takePacket_canonical h x4))
  · exact timeArrive_canonical h

theorem execConfigAccess_canonical {src w c a s t} (h : Calm s₀ s)
    (ran : execConfigAccess src w c a s = .next t) : MemoriesCanonical s₀ → MemoriesCanonical t := by
  refine next_canonical (s₀ := s₀) ran ?_
  split
  next x4 =>
    exact ite_canonical (ecamAccess_canonical (takePacket_canonical h x4))
      (devComplete_canonical (takePacket_canonical h x4))
  · exact cfgAccess_canonical h

theorem execCartridgeCheck_canonical {e b s t} (h : Calm s₀ s)
    (ran : execCartridgeCheck e b s = .next t) : MemoriesCanonical s₀ → MemoriesCanonical t := by
  refine next_canonical (s₀ := s₀) ran ?_
  split
  · exact ite_canonical (checkStart_canonical h) h
  · exact h

theorem execTapSamplePreload_canonical {cells s t} (h : Calm s₀ s)
    (ran : execTapSamplePreload cells s = .next t) : MemoriesCanonical s₀ → MemoriesCanonical t :=
  next_canonical ran (ite_canonical (tapBypass_canonical h) (by
    split
    next x4 => exact have hm := snd_canonical (freeWord_canonical h) x4; hm))

theorem execTapExtest_canonical {cells s t} (h : Calm s₀ s)
    (ran : execTapExtest cells s = .next t) : MemoriesCanonical s₀ → MemoriesCanonical t :=
  next_canonical ran (ite_canonical (tapBypass_canonical h) (by
    split
    next x4 => exact have hm := snd_canonical (freeWord_canonical h) x4; hm))

theorem execPwrgoodRise_canonical {vstby s t} (h : Calm s₀ s)
    (ran : execPwrgoodRise vstby s = .next t) : MemoriesCanonical s₀ → MemoriesCanonical t := by
  unfold execPwrgoodRise at ran
  split at ran
  · exact next_canonical ran h
  · intro hc
    have cold : MemoriesCanonical (coldState { s with vstby := vstby, vin := true }) :=
      coldState_canonical (canonical_of_same h rfl rfl rfl rfl) hc
    have risen : Calm (coldState { s with vstby := vstby, vin := true })
        (incRgF (coldState { s with vstby := vstby, vin := true }) .life1 0 31 16) := incRgF_canonical ⟨id, rfl⟩
    exact next_canonical ran (canonical_of_same risen rfl rfl rfl rfl) cold

theorem execCxlCompletionTimeout_canonical {src txid s t} (h : Calm s₀ s)
    (ran : execCxlCompletionTimeout src txid s = .next t) : MemoriesCanonical s₀ → MemoriesCanonical t := by
  refine next_canonical (s₀ := s₀) ran ?_
  split
  next x4 => exact send_canonical (takePacket_canonical h x4)
  · exact h

theorem execTundishMailboxRequest_canonical {blk s t} (h : Calm s₀ s)
    (ran : execTundishMailboxRequest blk s = .next t) : MemoriesCanonical s₀ → MemoriesCanonical t := by
  unfold execTundishMailboxRequest at ran
  split at ran
  next x4 =>
    have entered := snd_canonical (mbEnter_canonical h) x4
    exact next_canonical ran (canonical_of_same entered rfl rfl rfl rfl)

/-- Every command keeps the canonical form: one arm per command, each citing the lemma of the function it runs. -/
theorem exec_canonical {i s t} (h : Calm s₀ s) (ran : exec i s = .next t) : MemoriesCanonical s₀ → MemoriesCanonical t := by
  cases i with
  | add _ _ | sub _ _ | and _ _ | or _ _ | xor _ _ | andn _ _ | sll _ _ | srl _ _ | sra _ _ | ror _ _
  | min _ _ | max _ _ | minu _ _ | maxu _ _ | mul _ _ | mulh _ _ | mulhu _ _ | div _ _ | divu _ _ | rem _ _
  | remu _ _ | cmpEq _ _ | cmpNe _ _ | cmpLt _ _ | cmpLtu _ _ | cmpGe _ _ | cmpGeu _ _ =>
    exact next_canonical ran (runInstr_canonical h (fun _ h2 => bodyT_canonical h2))
  | sextB _ _ | sextH _ _ | sextW _ _ | zextW _ _ | clz _ _ | ctz _ _ | bswap _ _ =>
    exact next_canonical ran (runInstr_canonical h (fun _ h2 => bodyT1_canonical h2))
  | addi _ _ | andi _ _ | ori _ _ | xori _ _ | cmpiEq _ _ | cmpiLt _ _ | cmpiLtu _ _ =>
    exact next_canonical ran (runInstr_canonical h (fun _ h2 => bodyK_canonical h2))
  | slli _ _ | srli _ _ | srai _ _ | rori _ _ =>
    exact next_canonical ran (runInstr_canonical h (fun _ h2 => bodyShi_canonical h2))
  | movi _ _ =>
    exact next_canonical ran (runInstr_canonical h (fun _ h2 => bodyMovi_canonical h2))
  | movk _ _ =>
    exact next_canonical ran (runInstr_canonical h (fun _ h2 => bodyMovk_canonical h2))
  | addai _ _ =>
    exact next_canonical ran (runInstr_canonical h (fun _ h2 => bodyAddai_canonical h2))
  | adrpc _ _ =>
    exact next_canonical ran (runInstr_canonical h (fun _ h2 => bodyAdrpc_canonical h2))
  | adda _ _ | suba _ _ =>
    exact next_canonical ran (runInstr_canonical h (fun _ h2 => bodyAAD_canonical h2))
  | difa _ _ | cmpaEq _ _ | cmpaNe _ _ | cmpaLtu _ _ | cmpaGeu _ _ =>
    exact next_canonical ran (runInstr_canonical h (fun _ h2 => bodyDAA_canonical h2))
  | mova _ _ | movad _ _ | movda _ _ =>
    exact next_canonical ran (runInstr_canonical h (fun _ h2 => bodyMov_canonical h2))
  | jr _ _ =>
    exact next_canonical ran (runAfter_canonical h (fun _ h2 => bodyJr_canonical h2))
  | jrl _ _ =>
    exact next_canonical ran (runAfter_canonical h (fun _ h2 => bodyJrl_canonical h2))
  | bz _ _ | bnz _ _ =>
    exact next_canonical ran (runInstr_canonical h (fun _ h2 => bodyB_canonical h2))
  | j _ _ =>
    exact next_canonical ran (runInstr_canonical h (fun _ h2 => h2))
  | jl _ _ =>
    exact next_canonical ran (runInstr_canonical h (fun _ h2 => aSet_canonical h2))
  | ldB _ _ _ | ldH _ _ _ | ldW _ _ _ | ldD _ _ _ =>
    exact next_canonical ran (runInstr_canonical h (fun _ h2 => bodyLdM_canonical h2))
  | stB _ _ _ | stH _ _ _ | stW _ _ _ | stD _ _ _ =>
    exact next_canonical ran (runInstr_canonical h (fun _ h2 => bodyStM_canonical h2))
  | ldA _ _ _ =>
    exact next_canonical ran (runInstr_canonical h (fun _ h2 => bodyLdA_canonical h2))
  | stA _ _ _ =>
    exact next_canonical ran (runInstr_canonical h (fun _ h2 => bodyStA_canonical h2))
  | ldQ _ _ _ =>
    exact next_canonical ran (runInstr_canonical h (fun _ h2 => bodyLdQ_canonical h2))
  | stQ _ _ _ =>
    exact next_canonical ran (runInstr_canonical h (fun _ h2 => bodyStQ_canonical h2))
  | ldnB _ _ _ | ldnH _ _ _ | ldnW _ _ _ | ldnD _ _ _ =>
    exact next_canonical ran (runInstr_canonical h (fun _ h2 => bodyLdN_canonical h2))
  | stnB _ _ _ | stnH _ _ _ | stnW _ _ _ | stnD _ _ _ =>
    exact next_canonical ran (runInstr_canonical h (fun _ h2 => bodyStN_canonical h2))
  | movb _ _ _ _ _ | fillb _ _ _ _ _ | cmpb _ _ _ _ _ | scanb _ _ _ _ _ =>
    exact next_canonical ran (runInstr_canonical h (fun _ h2 => bodyBlk_canonical h2))
  | qadd _ _ | qsub _ _ | qmul _ _ | qand _ _ | qor _ _ | qxor _ _ =>
    exact next_canonical ran (runInstr_canonical h (fun _ h2 => bodyYY_canonical h2))
  | qmac _ _ =>
    exact next_canonical ran (runInstr_canonical h (fun _ h2 => bodyQmac_canonical h2))
  | qzero _ _ | qpopc _ _ =>
    exact next_canonical ran (runInstr_canonical h (fun _ h2 => bodyY_canonical (fun _ h4 => qSet_canonical h4) h2))
  | qins _ _ _ =>
    exact next_canonical ran (runInstr_canonical h (fun _ h2 => bodyQins_canonical h2))
  | qext _ _ _ =>
    exact next_canonical ran (runInstr_canonical h (fun _ h2 => bodyQext_canonical h2))
  | qbcast _ _ _ =>
    exact next_canonical ran (runInstr_canonical h (fun _ h2 => bodyQbcast_canonical h2))
  | qmov _ _ _ =>
    exact next_canonical ran (runInstr_canonical h (fun _ h2 => bodyQmov_canonical h2))
  | qsum _ _ _ =>
    exact next_canonical ran (runInstr_canonical h (fun _ h2 => bodyQsum_canonical h2))
  | qclmul _ _ =>
    exact next_canonical ran (runInstr_canonical h (fun _ h2 => bodyQclmul_canonical h2))
  | qcrc32c _ _ =>
    exact next_canonical ran (runInstr_canonical h (fun _ h2 => bodyQcrc32c_canonical h2))
  | qpopct _ _ =>
    exact next_canonical ran (runInstr_canonical h (fun _ h2 => bodyQpopct_canonical h2))
  | aswp _ _ _ | aadd _ _ _ | aand _ _ _ | aor _ _ _ | axor _ _ _ | asmax _ _ _ | asmin _ _ _ | aumax _ _ _
  | aumin _ _ _ | acas _ _ _ | lres _ _ _ | scond _ _ _ =>
    exact next_canonical ran (runInstr_canonical h (fun _ h2 => bodyAtomic_canonical h2))
  | cinvVa _ _ _ | ccleanVa _ _ _ | cflushVa _ _ _ =>
    exact next_canonical ran (runInstr_canonical h (fun _ h2 => bodyMaint_canonical h2))
  | maintenanceComplete _ =>
    exact next_canonical ran (maintDone_canonical h)
  | nop _ _ | barLd _ _ =>
    exact next_canonical ran (runInstr_canonical h (fun _ h2 => guardWord_canonical (fun _ h4 => doneNext_canonical h4) h2))
  | sysrd _ _ | iack _ _ | viack _ _ _ =>
    exact next_canonical ran (runInstr_canonical h (fun _ h2 => bodySysrd_canonical h2))
  | syswr _ _ | regranWrite _ _ | atpolClr _ _ | cntsaveWrite _ _ | dbgauthWrite _ _ | ieoi _ _ | isgi _ _
  | visgi _ _ | vieoi _ _ _ =>
    exact next_canonical ran (runInstr_canonical h (fun _ h2 => bodySyswr_canonical h2))
  | scall _ _ | hcall _ _ | wcall _ _ =>
    exact next_canonical ran (runInstr_canonical h (fun _ h2 => bodyCall_canonical h2))
  | eret _ _ =>
    exact next_canonical ran (runInstr_canonical h (fun _ h2 => bodyEret_canonical h2))
  | barSt _ _ =>
    exact next_canonical ran (runInstr_canonical h (fun _ h2 => guardWord_canonical (fun _ h4 => doneNext_canonical (setCore_canonical h4)) h2))
  | barAll _ _ | barDev _ _ | barSync _ _ =>
    exact next_canonical ran (runInstr_canonical h (fun _ h2 => bodyBar_canonical h2))
  | tinvVa _ _ | tinvAsid _ _ | tinvVmid _ _ | tinvAll _ _ =>
    exact next_canonical ran (runInstr_canonical h (fun _ h2 => bodyTinv_canonical h2))
  | wrpkey _ _ =>
    exact next_canonical ran (runInstr_canonical h (fun _ h2 => guardWord_canonical (fun _ h4 => doneNext_canonical (sysSet_canonical h4)) h2))
  | rdpkey _ _ =>
    exact next_canonical ran (runInstr_canonical h (fun _ h2 => guardWord_canonical (fun _ h4 => dSet_canonical h4) h2))
  | uaccOn _ _ | uaccOff _ _ =>
    exact next_canonical ran (runInstr_canonical h (fun _ h2 => bodyUacc_canonical h2))
  | wait _ _ =>
    exact next_canonical ran (runInstr_canonical h (fun _ h2 => bodyWait_canonical h2))
  | waitEnd _ =>
    exact next_canonical ran (endWait_canonical h)
  | coreIdleReturn _ =>
    exact next_canonical ran (idleReturn_canonical h)
  | takeInterrupt _ => exact execTakeInterrupt_canonical h ran
  | takeDeferredError _ =>
    exact next_canonical ran (ite_canonical (stepHalt_canonical (takeDeferred_canonical h)) h)
  | stageCheckFail _ _ =>
    exact next_canonical ran (stageFail_canonical h)
  | retiredStateParityError _ =>
    exact next_canonical ran (stopCore_canonical h)
  | storeBufferDrain _ _ _ =>
    exact next_canonical ran (enterWaitst_canonical (tryBar_canonical (drainEntry_canonical h)))
  | devStoreErrorCompletion _ _ =>
    exact next_canonical ran (devStoreError_canonical h)
  | drainWindowEnd _ =>
    exact next_canonical ran (drainWindowEnd_canonical h)
  | vreqWrite _ _ _ =>
    exact next_canonical ran (vreqWrite_canonical h)
  | supplyArrives _ =>
    exact next_canonical ran (ite_canonical (setStk_canonical h) h)
  | agingEvaluation _ _ _ =>
    exact next_canonical ran (ageFabric_canonical (ageStack_canonical h))
  | tinvBc _ =>
    exact next_canonical ran (tinvArrive_canonical h)
  | cascadeBroadcast _ =>
    exact next_canonical ran (cascadeBroadcast_canonical h)
  | rds _ _ _ _ | rdx _ _ _ _ | upg _ _ _ _ =>
    exact next_canonical ran (holderRequest_canonical h)
  | puts _ _ | pute _ _ | putf _ _ | putm _ _ _ | puto _ _ _ =>
    exact next_canonical ran (holderPut_canonical h)
  | far _ _ _ _ | rdc _ _ _ _ | wrc _ _ _ _ _ _ | cmoCln _ _ _ _ | cmoFls _ _ _ _ | cmoInv _ _ _ _
  | cas64 _ _ _ _ _ _ =>
    exact next_canonical ran (agentRequest_canonical h)
  | devRd _ _ _ | devWr _ _ _ =>
    exact next_canonical ran (devTake_canonical h)
  | fwdS _ _ _ | fwdX _ _ _ | rclC _ _ _ | rclI _ _ _ =>
    exact next_canonical ran (deliverSnoop_canonical h)
  | inv _ _ | fwdDone _ _ | invAck _ _ | rclAck _ _ =>
    exact next_canonical ran (deliverMsg_canonical h)
  | dataS _ _ | dataF _ _ | dataE _ _ | dataM _ _ | comp _ _ | wbAck _ _ | wbStale _ _ =>
    exact next_canonical ran (afterMsg_canonical (deliverMsg_canonical h))
  | farRsp _ _ =>
    exact next_canonical ran (ite_canonical (farRspHub_canonical h) (farRspArrive_canonical h))
  | rdRsp _ _ =>
    exact next_canonical ran (rdRspArrive_canonical h)
  | wrCmp _ _ =>
    exact next_canonical ran (wrCmpArrive_canonical h)
  | errRsp _ _ =>
    exact next_canonical ran (errRspArrive_canonical h)
  | homeTimeout _ _ =>
    exact next_canonical ran (homeTimeoutIf_canonical h)
  | fence _ _ =>
    exact next_canonical ran (fenceArrive_canonical h)
  | stopForward _ _ _ _ =>
    exact next_canonical ran (stopForward_canonical h)
  | urgencyAgeing _ =>
    exact next_canonical ran (urgencyAge_canonical h)
  | tokenGain _ =>
    exact next_canonical ran (tokenGain_canonical h)
  | ingressReopen _ =>
    exact next_canonical ran (ingressReopen_canonical h)
  | fstopWrite _ _ _ =>
    exact next_canonical ran (fstopWrite_canonical h)
  | stopDrained _ | stopRejoined _ =>
    exact next_canonical ran (ite_canonical (setStopState_canonical h) h)
  | stopDrainTimeout _ =>
    exact next_canonical ran (stopDrainTimeout_canonical h)
  | rimFence _ _ | rimUnfence _ _ =>
    exact next_canonical ran (mpWrite_canonical h (rimWrite_canonical h))
  | rimDrained _ =>
    exact next_canonical ran (rimDrained_canonical h)
  | pwr _ =>
    exact next_canonical ran (pwrArrive_canonical h)
  | irq _ =>
    exact next_canonical ran (irqMessage_canonical h)
  | hlog _ =>
    exact next_canonical ran (hubEnd_canonical (hlogArrive_canonical h))
  | sprueDataSend _ _ =>
    exact next_canonical ran (dataSend_canonical h)
  | sprueDataReceive _ _ =>
    exact next_canonical ran (dataReceive_canonical h)
  | ack _ _ | nak _ _ | credit _ _ =>
    exact next_canonical ran (ctrlArrive_canonical h)
  | nakRepeat _ =>
    exact next_canonical ran (nakRepeat_canonical h)
  | creditRefresh _ =>
    exact next_canonical ran (creditRefresh_canonical h)
  | train _ =>
    exact next_canonical ran (trainArrive_canonical h)
  | confirm _ =>
    exact next_canonical ran (confirmArrive_canonical h)
  | detectLock _ | confirmTimeout _ =>
    exact next_canonical ran (ite_canonical (enterSafe_canonical h) h)
  | detectTimeout _ =>
    exact next_canonical ran (ite_canonical (enterDown_canonical h) h)
  | safeTrainDone _ _ =>
    exact next_canonical ran (safeTrainDone_canonical h)
  | wideTrainDone _ _ =>
    exact next_canonical ran (ite_canonical (ite_canonical (setLsState_canonical h) (enterSafe_canonical h)) h)
  | linkRetrain _ _ =>
    exact next_canonical ran (linkRetrain_canonical h)
  | linkReset _ _ =>
    exact next_canonical ran (linkReset_canonical h)
  | rimLinkOutage _ =>
    exact next_canonical ran (ite_canonical (rimWrite_canonical h) h)
  | spokeLinkFence _ =>
    exact next_canonical ran (ite_canonical (fenceStack_canonical h) h)
  | palrathFlit _ _ =>
    exact next_canonical ran (flitArrive_canonical h)
  | palLinkReset _ _ =>
    exact next_canonical ran (palctlWrite_canonical h)
  | bundleChange _ =>
    exact next_canonical ran (bundleChange_canonical h)
  | ident _ =>
    exact next_canonical ran (identArrive_canonical h)
  | identRepeat =>
    exact next_canonical ran (ite_canonical (foldl_canonical (fun _ _ h3 => ite_canonical (palSay_canonical h3) h3) h) h)
  | admissionWindowEnd =>
    exact next_canonical ran (windowEnd_canonical h)
  | joinGrant _ _ _ _ _ =>
    exact fun hc => next_canonical ran ⟨id, rfl⟩ (joinGrant_canonical h hc)
  | timeSend =>
    exact next_canonical ran (timeSend_canonical h)
  | time _ _ => exact execTime_canonical h ran
  | timeHoldover =>
    exact next_canonical ran (timeHoldover_canonical h)
  | bundleLoss _ _ =>
    exact next_canonical ran (bundleLoss_canonical h)
  | patrolScrubRead _ _ =>
    exact next_canonical ran (scrubRead_canonical h)
  | mcctlWrite _ _ _ =>
    exact next_canonical ran (ownWrite_canonical h (mcctlWrite_canonical h))
  | mcLogclr _ _ =>
    exact next_canonical ran (ownWrite_canonical h (mcLogclr_canonical h))
  | keyLoad _ _ _ | keyGenerate _ _ _ _ | keyClear _ _ _ =>
    exact next_canonical ran (keyGo_canonical h)
  | keyCommandDone =>
    exact next_canonical ran (keyDone_canonical h)
  | lgctlWrite _ _ _ =>
    exact next_canonical ran (lgctlWrite_canonical h)
  | linkDownDetected _ _ =>
    exact next_canonical ran (ite_canonical (portDown_canonical h) h)
  | devstoreTimeout _ _ =>
    exact next_canonical ran (devstoreTimeout_canonical h)
  | linkReturnsL0 _ _ _ =>
    exact next_canonical ran (portL0_canonical h)
  | perstRelease _ _ | referenceLost =>
    exact next_canonical ran (ite_canonical h h)
  | wakeRefPeriod =>
    intro hc
    refine next_canonical ran ⟨id, rfl⟩ ?_
    split <;> exact h.1 hc
  | inboundPcieRequest _ _ _ _ _ =>
    exact next_canonical ran (hubEnd_canonical (inbound_canonical h))
  | configAccess _ _ _ _ => exact execConfigAccess_canonical h ran
  | functionLevelReset _ =>
    exact next_canonical ran (ite_canonical h (shLife_canonical h))
  | ethportEnable _ _ _ =>
    exact next_canonical ran (ethportWrite_canonical h)
  | frameReceived _ _ _ _ =>
    exact next_canonical ran (hubEnd_canonical (frameIn_canonical h))
  | handover _ _ _ =>
    exact next_canonical ran (goHandover_canonical h)
  | releaseSlot _ _ _ _ =>
    exact next_canonical ran (goRelease_canonical h)
  | checkSlot _ _ _ =>
    exact next_canonical ran (goCheck_canonical h)
  | fadeDone _ =>
    exact next_canonical ran (fadeDone_canonical h)
  | wearRecordWrite _ _ _ =>
    exact next_canonical ran (ite_canonical (wearWrite_canonical h) h)
  | presentNFall _ _ _ =>
    exact next_canonical ran (ite_canonical h (setRgF_canonical (setSlot_canonical h)))
  | cartridgeCheck _ _ => exact execCartridgeCheck_canonical h ran
  | cartridgeCheckDone _ _ _ =>
    exact next_canonical ran (checkDone_canonical h)
  | presentNRise _ _ =>
    exact next_canonical ran (cartOut_canonical h)
  | faultNFall _ _ =>
    exact next_canonical ran (ite_canonical h (cartFails_canonical (setRgF_canonical (setSlot_canonical h))))
  | laserLow _ _ _ =>
    exact next_canonical ran (ite_canonical (cartFails_canonical (setRgF_canonical h)) h)
  | switchoverDone _ =>
    exact next_canonical ran (switchDone_canonical h)
  | sqdb _ _ _ =>
    exact next_canonical ran (sqdbWrite_canonical h)
  | cqdb _ _ _ =>
    exact next_canonical ran (cqdbWrite_canonical h)
  | queueEnable _ _ _ =>
    exact next_canonical ran (queueEnable_canonical h)
  | queueDisable _ _ =>
    exact next_canonical ran (queueDisable_canonical h)
  | descriptorFetch _ _ =>
    exact next_canonical ran (hubEnd_canonical (fetchDesc_canonical h))
  | qirqHoldExpiry _ =>
    exact next_canonical ran (holdExpiry_canonical h)
  | copy _ _ =>
    exact next_canonical ran (hubEnd_canonical (ladleCopy_canonical h))
  | fill _ _ =>
    exact next_canonical ran (hubEnd_canonical (ladleFill_canonical h))
  | crc32c _ _ =>
    exact next_canonical ran (hubEnd_canonical (ladleCrc_canonical h))
  | compare _ _ =>
    exact next_canonical ran (hubEnd_canonical (ladleCompare_canonical h))
  | ladleNop _ _ =>
    exact next_canonical ran (hubEnd_canonical (ladleNop_canonical h))
  | ethTransmit _ _ =>
    exact next_canonical ran (hubEnd_canonical (ethSend_canonical h))
  | ethRxPost _ =>
    exact next_canonical ran (rxPost_canonical h)
  | shareCreate _ _ | shareEnable _ _ | shareDisable _ _ | shareReset _ _ | shareRemove _ _ | bindQp _ _ =>
    exact next_canonical ran (shcmdGo_canonical h)
  | shareDrainTimeout _ _ =>
    exact next_canonical ran (hubEnd_canonical (drainTimeout_canonical h))
  | shutdownComplete _ =>
    exact next_canonical ran (shutComplete_canonical h)
  | encrypt _ _ _ _ | decrypt _ _ _ _ | mac _ _ _ _ | verify _ _ _ _ =>
    exact next_canonical ran (hubEnd_canonical (cipherMsg_canonical h))
  | sessionInit _ _ _ =>
    exact next_canonical ran (hubEnd_canonical (sessionInit_canonical h))
  | sessionClear _ _ _ =>
    exact next_canonical ran (hubEnd_canonical (sessionClear_canonical h))
  | keyWrap _ _ =>
    exact next_canonical ran (keyWrap_canonical h)
  | unwrap _ =>
    exact next_canonical ran (hubEnd_canonical (islandUnwrap_canonical h))
  | messageSuspend _ _ =>
    exact next_canonical ran (suspendFor_canonical h)
  | messageResume _ =>
    exact next_canonical ran (resumeOn_canonical h)
  | contextSpill _ =>
    exact next_canonical ran (hubEnd_canonical (contextSpill_canonical h))
  | contextFill _ _ _ =>
    exact next_canonical ran (hubEnd_canonical (contextFill_canonical h))
  | ownmapWrite _ _ =>
    exact next_canonical ran (ownmapWrite_canonical h)
  | wfctlLock _ _ =>
    exact next_canonical ran (wfctlWrite_canonical h)
  | dapHalt _ =>
    exact next_canonical ran (dapGate_canonical (fun _ h2 => dapHalt_canonical h2) h)
  | dapResume _ =>
    exact next_canonical ran (dapGate_canonical (fun _ h2 => dapResume_canonical h2) h)
  | dapStep _ =>
    exact next_canonical ran (dapGate_canonical (fun _ h2 => dapStep_canonical h2) h)
  | dapCoreRegRead _ _ =>
    exact next_canonical ran (dapGate_canonical (fun _ h2 => dapCoreRead_canonical h2) h)
  | dapCoreRegWrite _ _ _ =>
    exact next_canonical ran (dapGate_canonical (fun _ h2 => dapCoreWrite_canonical h2) h)
  | dapMemRead _ _ _ _ _ =>
    exact next_canonical ran (dapGate_canonical (fun _ h2 => dapMemRead_canonical h2) h)
  | dapMemWrite _ _ _ _ _ _ =>
    exact next_canonical ran (dapGate_canonical (fun _ h2 => dapMemWrite_canonical h2) h)
  | dapSetupRead _ _ =>
    exact next_canonical ran (dapGate_canonical (fun _ h2 => dapSetupRead_canonical h2) h)
  | dapSetupWrite _ _ _ =>
    exact next_canonical ran (dapGate_canonical (fun _ h2 => dapSetupWrite_canonical h2) h)
  | coreHalt _ =>
    exact next_canonical ran (coreHalt_canonical h)
  | tapIdcode => exact next_canonical ran h
  | tapSamplePreload _ => exact execTapSamplePreload_canonical h ran
  | tapExtest _ => exact execTapExtest_canonical h ran
  | tapBypass _ _ =>
    exact next_canonical ran (ite_canonical (tapBypass_canonical h) h)
  | sourceRaise _ =>
    exact next_canonical ran (sourceRaise_canonical h)
  | intsrcWrite _ _ _ =>
    exact next_canonical ran (intCfgWrite_canonical h)
  | msiWrite _ _ _ =>
    exact next_canonical ran (msiWrite_canonical h)
  | interruptPost _ _ =>
    exact next_canonical ran (postTo_canonical h)
  | postingNotification _ =>
    exact next_canonical ran (postArrive_canonical h)
  | timerFires _ _ _ =>
    exact next_canonical ran (timerFires_canonical h)
  | domainRun _ _ | domainHold _ _ | domainBank _ _ | domainOff _ _ =>
    exact next_canonical ran (domGo_canonical h)
  | domainStateReached _ =>
    exact next_canonical ran (domReached_canonical h)
  | domainPointOfNoReturn _ =>
    exact next_canonical ran (domPoint_canonical h)
  | packageBank _ | packageAnneal _ | packageDisarm _ =>
    exact next_canonical ran (pkgGo_canonical h)
  | packageEntering =>
    exact next_canonical ran (pkgEntering_canonical h)
  | pmeToAck _ _ =>
    exact next_canonical ran (pmeAck_canonical h)
  | packagePointOfNoReturn =>
    exact next_canonical ran (pkgPoint_canonical h)
  | wakeNAssert _ =>
    exact next_canonical ran (wakeEvent_canonical h)
  | wakeTimer =>
    exact next_canonical ran (ite_canonical (wakeEvent_canonical h) h)
  | annealSample _ =>
    exact fun hc => next_canonical ran ⟨id, rfl⟩ (annealSample_canonical h hc)
  | bankTripReading _ =>
    intro hc
    refine next_canonical ran ⟨id, rfl⟩ ?_
    split
    · exact tripReading_canonical (s₀ := s₀) h hc
    · exact h.1 hc
  | vstbyFail =>
    exact next_canonical ran (ite_canonical (setPkgState_canonical h) h)
  | wakeRegulators =>
    exact next_canonical ran (wakeStep_canonical h (fun _ h2 => h2))
  | wakeTimeBase =>
    exact next_canonical ran (wakeStep_canonical h (fun _ h2 => ite_canonical (raiseSrc_canonical h2) h2))
  | wakeMemory =>
    exact next_canonical ran (wakeStep_canonical h (fun _ h2 => foldl_canonical (fun _ _ h5 => ite_canonical (beginTrain_canonical h5) h5) h2))
  | wakeRestore =>
    exact next_canonical ran (wakeRestore_canonical h)
  | wakeStepLate =>
    exact next_canonical ran (wakeLate_canonical h)
  | sensorRead _ _ =>
    exact fun hc => next_canonical ran ⟨id, rfl⟩ (sensorRead_canonical h hc)
  | thermalLoopTick _ _ =>
    exact next_canonical ran (thermalTick_canonical h)
  | powerLoopTick _ _ =>
    exact next_canonical ran (powerTick_canonical h)
  | pcapctlWrite _ _ =>
    exact next_canonical ran (pcapctlWrite_canonical h)
  | requesterTimeout _ _ =>
    exact next_canonical ran (requesterTimeout_canonical h)
  | txidRelease _ _ =>
    exact next_canonical ran (txidRelease_canonical h)
  | logClear _ _ _ =>
    exact next_canonical ran (logclrWrite_canonical h)
  | setWalkStart _ =>
    exact next_canonical ran (setWalkStart_canonical h)
  | wayRetirementWalkDone _ =>
    exact next_canonical ran (wayWalkDone_canonical h)
  | wayRetirementFuse _ _ _ _ =>
    exact next_canonical ran (ite_canonical (wayFuseSet_canonical h) (wayFuseSet_canonical h))
  | coreRetirementFuse _ =>
    exact next_canonical ran (ite_canonical (retireCore_canonical h) h)
  | serviceRequestUpdate =>
    exact next_canonical ran (svcUpdate_canonical h)
  | lifeUpdate _ _ _ =>
    exact next_canonical ran (lifeUpdate_canonical h)
  | l3InvAll _ _ _ | l3Enable _ _ | l3Disable _ _ =>
    exact next_canonical ran (l3ctlBy_canonical h)
  | invAllDone _ =>
    exact next_canonical ran (invAllDone_canonical h)
  | l3FlushDone _ =>
    exact next_canonical ran (ite_canonical (flushEnd_canonical (walkEnd_canonical h)) h)
  | l3SweepDone _ =>
    exact next_canonical ran (sweepDone_canonical h)
  | pmaskWrite _ _ _ _ =>
    exact next_canonical ran (pmaskWrite_canonical h)
  | rangeClean _ _ _ | rangeCleanInvalidate _ _ _ | rangeInvalidate _ _ _ =>
    exact next_canonical ran (rangeGo_canonical h)
  | rangeOpComplete _ =>
    exact next_canonical ran (rangeComplete_canonical h)
  | mpBoot _ =>
    exact next_canonical ran (mpBootRun_canonical h)
  | mailboxPost _ _ _ _ =>
    exact next_canonical ran (mbPost_canonical h)
  | mbPing _ | mbSensors _ | mbLife _ =>
    exact next_canonical ran (hubEnd_canonical (mbDo_canonical h (fun _ _ _ h4 => mbGood_canonical h4)))
  | mbShare _ =>
    exact next_canonical ran (hubEnd_canonical (mbDo_canonical h (fun _ _ _ h4 => mbShare_canonical h4)))
  | mbCart _ =>
    exact next_canonical ran (hubEnd_canonical (mbDo_canonical h (fun _ _ _ h4 => mbCart_canonical h4)))
  | shedEvaluation _ =>
    exact next_canonical ran (shedEval_canonical h)
  | watchdogKick _ =>
    exact next_canonical ran (wdKick_canonical h)
  | watchdogFire =>
    exact next_canonical ran (ite_canonical (mpRestart_canonical h) h)
  | windowHalfAccess _ _ =>
    exact next_canonical ran (ite_canonical h (windowHalf_canonical h))
  | heatLogAppend =>
    exact next_canonical ran (hlAppendNext_canonical h)
  | hlsubmit _ _ _ =>
    exact next_canonical ran (hlSubmit_canonical h)
  | commit _ =>
    exact next_canonical ran (hubEnd_canonical (hlCommit_canonical h))
  | ihlIdent _ _ =>
    exact next_canonical ran (ihlCmd_canonical h (fun _ h2 => ihlIdentAct_canonical h2))
  | ihlStatus _ _ =>
    exact next_canonical ran (ihlCmd_canonical h (fun _ h2 => ihlStatusAct_canonical h2))
  | wakeMbox _ _ _ =>
    exact next_canonical ran (ihlCmd_canonical h (fun _ h2 => wakeMboxAct_canonical h2))
  | hlHead _ _ _ =>
    exact next_canonical ran (ihlCmd_canonical h (fun _ h2 => hlHeadAct_canonical h2))
  | hlRead _ _ _ _ _ =>
    exact next_canonical ran (ihlCmd_canonical h (fun _ h2 => hlReadAct_canonical h2))
  | hlVerify _ _ _ _ =>
    exact next_canonical ran (ihlCmd_canonical h (fun _ h2 => hlVerifyAct_canonical h2))
  | lifeRead _ _ =>
    exact next_canonical ran (ihlCmd_canonical h (fun _ h2 => lifeReadAct_canonical h2))
  | ihlMailbox _ _ _ =>
    exact next_canonical ran (ihlCmd_canonical h (fun _ h2 => ihlMailboxAct_canonical h2))
  | ihlDap _ _ _ =>
    exact next_canonical ran (ihlCmd_canonical h (fun _ h2 => ihlDapAct_canonical h2))
  | bootImage _ _ _ _ =>
    exact next_canonical ran (ihlCmd_canonical h (fun _ h2 => bootImageAct_canonical h2))
  | ihlInvalidFrame _ =>
    exact next_canonical ran (ihlFrame_canonical h)
  | warm _ | stack _ _ | core _ _ | mp _ | release _ _ | goFull _ =>
    exact next_canonical ran (rstGo_canonical h)
  | goFullHomeWindow _ _ =>
    exact next_canonical ran (goWindow_canonical h)
  | goFullDone =>
    exact next_canonical ran (goDone_canonical h)
  | pwrgoodRise _ => exact execPwrgoodRise_canonical h ran
  | pwrgoodFall _ =>
    exact fun hc => next_canonical ran ⟨id, rfl⟩ (coldState_canonical h hc)
  | resetNLow =>
    exact next_canonical ran (resetLow_canonical h)
  | resetNRise _ _ =>
    exact fun hc => next_canonical ran ⟨id, rfl⟩ (resetRise_canonical h hc)
  | resetL2Writeback =>
    exact next_canonical ran (l2Writeback_canonical h)
  | resetHomeFlush =>
    exact next_canonical ran (homesFlush_canonical h)
  | resetFinish =>
    exact next_canonical ran (rstFinish_canonical h)
  | timeBaseLock | hotPlugEvent _ _ =>
    exact next_canonical ran (ite_canonical (raiseSrc_canonical h) h)
  | bringupFloor _ _ =>
    exact next_canonical ran (bringFloor_canonical h)
  | bringupTiles =>
    exact next_canonical ran (bringTiles_canonical h)
  | bringupLinkDeadline =>
    exact next_canonical ran (ite_canonical (foldl_canonical (fun _ _ h3 => ite_canonical (fenceAtBoot_canonical h3) h3) h) h)
  | bringupTileInit _ =>
    exact next_canonical ran (bringTileInit_canonical h)
  | tileDone _ _ _ =>
    exact next_canonical ran (ite_canonical (setStkState_canonical (chTrained_canonical (chTrained_canonical h))) h)
  | tileDeadline _ =>
    exact next_canonical ran (ite_canonical (fenceAtBoot_canonical h) h)
  | bringupHash =>
    exact next_canonical ran (bringHash_canonical h)
  | bringupDieInit _ _ _ _ =>
    exact next_canonical ran (dieInit_canonical h)
  | stackReady _ =>
    exact next_canonical ran (stackReady_canonical h)
  | dieDeadline _ =>
    exact next_canonical ran (ite_canonical (ite_canonical (fenceStack_canonical h) (fenceAtBoot_canonical h)) h)
  | bootCoreRelease _ =>
    exact next_canonical ran (bootCore_canonical h)
  | registerWrite _ _ _ =>
    exact next_canonical ran (getD_canonical h (fun _ h2 => regWrite_canonical h h2))
  | pcieLinkLeavesL0 _ _ =>
    exact next_canonical ran (ite_canonical (setRport_canonical h) h)
  | pcieCompletion _ _ _ _ _ =>
    exact next_canonical ran (pcieCompletion_canonical h)
  | cxlCompletionTimeout _ _ => exact execCxlCompletionTimeout_canonical h ran
  | ethLinkChange _ _ =>
    exact next_canonical ran (ite_canonical (setEthLink_canonical h) h)
  | faultNRise _ _ =>
    exact next_canonical ran (setRgF_canonical h)
  | tundishMailboxRequest _ => exact execTundishMailboxRequest_canonical h ran

theorem step_canonical {s t} (h : Calm s₀ s) (ran : step s = .next t) : MemoriesCanonical s₀ → MemoriesCanonical t := by
  unfold step at ran
  split at ran
  · exact fun hc => next_canonical ran ⟨id, rfl⟩ (tick_canonical h hc)
  next c q _ => exact exec_canonical (s := s.setPending q) h ran

/-- Settles O60: the canonical form is carried through every state operation, from the three memory writes (whose
insertion keeps the addresses rising) up to the arm of each command. -/
theorem memoriesStayCanonical : Obligations.MemoriesStayCanonical := fun _ _ h ran => step_canonical ⟨id, rfl⟩ ran h

end Sys2Proof.Machine
end

section
/-! PROOFS. What a step does with the queue, and the tick of an empty one (log entry 3). -/
namespace Sys2Proof.Machine

open Sys2Proof

/-- From s to t cores changed, and nothing that their general registers and PCs show. -/
structure ShownSame (s t : State) : Prop where
  rest : { t with cores := s.cores } = s
  shown : ∀ c r, dGet t c r = dGet s c r ∧ aGet t c r = aGet s c r ∧ qGet t c r = qGet s c r ∧ (getCore t c).pc = (getCore s c).pc

theorem ShownSame.refl (s : State) : ShownSame s s := ⟨rfl, fun _ _ => ⟨rfl, rfl, rfl, rfl⟩⟩

theorem ShownSame.trans {s t u : State} (h1 : ShownSame s t) (h2 : ShownSame t u) : ShownSame s u where
  rest := by rw [← h1.rest, ← h2.rest]
  shown c r := by
    obtain ⟨d1, a1, q1, p1⟩ := h1.shown c r
    obtain ⟨d2, a2, q2, p2⟩ := h2.shown c r
    exact ⟨d2.trans d1, a2.trans a1, q2.trans q1, p2.trans p1⟩

/-- A core that is as it was shows what it showed. -/
theorem shown_of_core_eq {s t : State} {c : Nat} (h : getCore t c = getCore s c) (r : Nat) :
    dGet t c r = dGet s c r ∧ aGet t c r = aGet s c r ∧ qGet t c r = qGet s c r ∧ (getCore t c).pc = (getCore s c).pc :=
  ⟨dGet_congr (by rw [h]) r, aGet_congr (by rw [h]) (by rw [h]) (by rw [h]) (by rw [h]) r, qGet_congr (by rw [h]) r, by rw [h]⟩

/-! ### Counting -/

theorem bumpCnt_freeCtr (c : Nat) : ∀ (fuel n : Nat) (s : State), (bumpCnt s c fuel n).freeCtr = s.freeCtr
  | 0, _, _ => rfl
  | fuel + 1, n, s => by
    unfold bumpCnt
    dsimp only
    split
    · rfl
    · split
      · exact bumpCnt_freeCtr c fuel (n + 1) _
      · rfl

theorem foldl_freeCtr {α : Type} (f : State → α → State) (hf : ∀ s a, (f s a).freeCtr = s.freeCtr) (l : List α) (s : State) :
    (l.foldl f s).freeCtr = s.freeCtr := by
  induction l generalizing s with
  | nil => rfl
  | cons a l ih => exact (ih _).trans (hf s a)

theorem countIf_freeCtr (s : State) (c ev : Nat) (b : Bool) : (countIf s c ev b).freeCtr = s.freeCtr := by
  unfold countIf
  split
  · rfl
  · split
    · refine foldl_freeCtr _ (fun s n => ?_) _ s
      dsimp only
      split
      · exact bumpCnt_freeCtr c 2 n s
      · rfl
    · rfl

theorem countEvent_shownSame (s : State) (c ev : Nat) : ShownSame s (countEvent s c ev) where
  rest := by
    have he : (countEvent s c ev).freeCtr = s.freeCtr := countIf_freeCtr s c ev true
    calc { countEvent s c ev with cores := s.cores }
        = { countEvent s c ev with cores := s.cores, freeCtr := s.freeCtr } := by rw [← he]
      _ = s := (countEvent_counted s c ev).only.1
  shown c' r := by
    have hc := countEvent_counted s c ev
    by_cases h : c' = c
    · subst h
      obtain ⟨hpc, _, hd, _, hq, _⟩ := hc.fields
      exact ⟨dGet_congr hd r, hc.aGet r, qGet_congr hq r, hpc⟩
    · exact shown_of_core_eq (hc.only.2 c' h) r

/-- A register that no level uses as its stack pointer shows in no general register. -/
theorem sysSet_shownSame (s : State) (c n : Nat) (v : Word) (hn : n < 0x1000) (hsp : ∀ pl, pl < 4 → n ≠ spNum pl) :
    ShownSame s (sysSet s c n false v) where
  rest := rfl
  shown c' r := by
    by_cases h : c' = c
    · subst h
      refine ⟨by simp [dGet, sysSet], ?_, by simp [qGet, sysSet], by simp [sysSet]⟩
      have hpl := plOf_lt (getCore s c')
      have hlt : spNum (plOf (getCore s c')) < 0x1000 := by unfold spNum; split <;> omega
      have hkept : ∀ w, sysGet (sysSet s c' n false v) c' (spNum (plOf (getCore s c'))) w =
          sysGet s c' (spNum (plOf (getCore s c'))) w :=
        fun w => sysGet_sysSet_ne (sysKey_ne (Ne.symm (hsp _ hpl)) hlt hn)
      have hcore : getCore (sysSet s c' n false v) c' = { getCore s c' with
          sys := tset (sysRst c' n) (sysKey c' n false) v (getCore s c').sys } := core_setCore_same ..
      unfold aGet
      split
      · rw [hcore]
        exact sysEff_congr (by rw [hcore]) (hkept _)
      · rw [hcore]
    · exact shown_of_core_eq (core_setCore_ne h) r

/-! ### The tick -/

theorem tickCore_shownSame (s : State) (c : Nat) : ShownSame s (tickCore s c) := by
  unfold tickCore
  split
  · refine (sysSet_shownSame s c 0x900 _ (by decide) (fun pl hpl => ?_)).trans (countEvent_shownSame _ c 0x002)
    unfold spNum
    split <;> omega
  · exact ShownSame.refl s

theorem tickCores_shownSame (l : List (Nat × Core)) (s : State) : ShownSame s (l.foldl (fun s p => tickCore s p.1) s) := by
  induction l generalizing s with
  | nil => exact ShownSame.refl s
  | cons p l ih => exact (tickCore_shownSame s p.1).trans (ih _)

theorem slewTick_cases (s : State) : ∃ p c w, slewTick s = { s with ptime := p, slewCtr := c, slew := w } ∧
    (s.slew = 0 → p = s.ptime + 1) := by
  unfold slewTick
  split
  next h => exact ⟨_, _, s.slew, rfl, fun _ => rfl⟩
  next h =>
    split
    · exact ⟨_, _, s.slew, rfl, fun _ => rfl⟩
    · split
      · exact ⟨_, _, _, rfl, fun e => absurd e h⟩
      · exact ⟨s.ptime, _, _, rfl, fun e => absurd e h⟩

/-- What a tick leaves: every field but the time, and what the cores show. -/
theorem tick_frame (s : State) :
    { tick s with cores := s.cores, ptime := s.ptime, slew := s.slew, slewCtr := s.slewCtr } = s ∧
      (wakeKeepsTime s = false → s.slew = 0 → (tick s).ptime = s.ptime + 1) ∧
      ∀ c r, dGet (tick s) c r = dGet s c r ∧ aGet (tick s) c r = aGet s c r ∧ qGet (tick s) c r = qGet s c r ∧
        (getCore (tick s) c).pc = (getCore s c).pc := by
  unfold tick
  split
  next hw =>
    refine ⟨?_, fun h => (Bool.false_ne_true (h.symm.trans hw)).elim, ?_⟩
    · split <;> rfl
    · split <;> exact fun _ _ => ⟨rfl, rfl, rfl, rfl⟩
  next hw =>
    obtain ⟨p, c, w, he, hp⟩ := slewTick_cases s
    have hs := tickCores_shownSame s.cores (slewTick s)
    rw [he] at hs ⊢
    generalize s.cores.foldl _ _ = t at hs ⊢
    have hr := hs.rest
    refine ⟨?_, fun _ h0 => ?_, hs.shown⟩
    · calc { t with cores := s.cores, ptime := s.ptime, slew := s.slew, slewCtr := s.slewCtr }
          = { ({ t with cores := s.cores } : State) with ptime := s.ptime, slew := s.slew, slewCtr := s.slewCtr } := rfl
        _ = { ({ s with ptime := p, slewCtr := c, slew := w } : State) with
              ptime := s.ptime, slew := s.slew, slewCtr := s.slewCtr } := by rw [hr]
        _ = s := rfl
    · have ht : t.ptime = p := congrArg State.ptime hr
      rw [ht, hp h0]

/-- Settles O58: the queue is taken by definition; an empty queue ticks, which `tick_frame` describes. -/
theorem stepRunsFrontCommand : Obligations.StepRunsFrontCommand := by
  unfold Obligations.StepRunsFrontCommand
  refine ⟨fun c q s h => by simp [step, h], fun s h => ⟨tick s, by simp [step, h], rfl, ?_⟩⟩
  obtain ⟨hframe, htime, hshown⟩ := tick_frame s
  exact ⟨hframe, htime, hshown⟩

end Sys2Proof.Machine
end

section
/-! PROOFS. The state at reset (R61, R86, R620, R622, R627, R639). -/
namespace Sys2Proof.Machine

open Sys2Proof

/-- A register no write has reached reads its table's reset value. -/
theorem rg_reset {r : RegName} (i : Nat) (hd : r ≠ .dstate) (hr : r ≠ .dierev) : rg State.reset r i = regReset r := by
  simp [rg, State.reset, regResetAt, hd, hr]

theorem rgF_reset {r : RegName} (i hi lo : Nat) (hd : r ≠ .dstate) (hr : r ≠ .dierev) :
    rgF State.reset r i hi lo = fld (regReset r) hi lo := by
  rw [rgF, rg_reset i hd hr]

theorem core_reset {c : Nat} (h : c ≠ mpCore) : getCore State.reset c = {} := by
  simp [getCore, State.reset, coreRst, h]

theorem sysGet_reset {c : Nat} (h : c ≠ mpCore) (n : Nat) (w : Bool) :
    sysGet State.reset c n w = BitVec.ofNat 64 (((sysInfo n).map (·.rst)).getD 0) := by
  simp [sysGet, core_reset h, sysRst, h]

theorem dGet_reset {c : Nat} (h : c ≠ mpCore) (r : Nat) : dGet State.reset c r = 0 := by
  simp [dGet, core_reset h]

theorem qGet_reset {c : Nat} (h : c ≠ mpCore) (r : Nat) : qGet State.reset c r = 0 := by
  simp [qGet, core_reset h]

/-- The stack pointer of PL3 is a register of the exception block of that level, which resets to 0. -/
theorem aGet_reset {c : Nat} (h : c ≠ mpCore) (r : Nat) : aGet State.reset c r = 0 := by
  unfold aGet
  split
  · rw [core_reset h, sysEff, core_reset h]
    exact (sysGet_reset h _ _).trans (by decide)
  · simp [core_reset h]

/-- What a core of a die is at reset: held, at PL3 in the secure world, with nothing in its registers and nothing under way. -/
theorem core_reset_values {c : Nat} (h : c < 240) :
    (getCore State.reset c).held = true ∧ (getCore State.reset c).cstat = 0x37 ∧ plOf (getCore State.reset c) = 3 ∧
    secOf (getCore State.reset c) = true ∧ (getCore State.reset c).sb = [] ∧
    (∀ r, dGet State.reset c r = 0) ∧ (∀ r, aGet State.reset c r = 0) ∧ (∀ r, qGet State.reset c r = 0) ∧
    (getCore State.reset c).pc = sysGet State.reset c 0x008 false ∧ sysGet State.reset c 0x005 false = 0x80 ∧
    sysGet State.reset c 0x930 false = 0 ∧ (getCore State.reset c).acc = none ∧ (getCore State.reset c).resv = none := by
  have hne : c ≠ mpCore := by unfold mpCore; omega
  rw [core_reset hne, sysGet_reset hne, sysGet_reset hne, sysGet_reset hne]
  exact ⟨rfl, rfl, by decide, by decide, rfl, dGet_reset hne, aGet_reset hne, qGet_reset hne, by decide, by decide, by decide, rfl, rfl⟩

theorem keyUsable_reset (k : Nat) : keyUsable State.reset k = decide (k = 0) := by
  simp [keyUsable, memKey, State.reset, beq_eq_decide]

theorem bustat_reset : regReset .bustat = 0 := by decide

theorem stkState_reset (n : Nat) : stkState State.reset n = 0 := by
  rw [stkState, rgF_reset _ _ _ (by decide) (by decide), bustat_reset]
  simp [fld]

theorem lcValid_reset (n : Nat) : lcValid State.reset n = false := by
  rw [lcValid, rg_reset _ (by decide) (by decide), show regReset .lcmap = 0 by decide]
  simp [bit]

theorem lsState_reset (n : Nat) : lsState State.reset n = 0 := by
  unfold lsState lsF lsReg
  split
  · exact (rgF_reset (r := .linkstat) _ _ _ (by decide) (by decide)).trans (by decide)
  · exact (rgF_reset (r := .hubLinkstat) _ _ _ (by decide) (by decide)).trans (by decide)

/-- Settles O59: every part reads an empty table, whose entries are the reset values of their registers. -/
theorem resetStateValues : Obligations.ResetStateValues := by
  unfold Obligations.ResetStateValues
  refine ⟨rfl, rfl, rfl, ?_, reset_canonical, rfl, rfl, rfl, rfl, fun c hc => core_reset_values hc, keyUsable_reset, ?_,
    fun n _ => lsState_reset n, fun n _ => ⟨stkState_reset n, rfl⟩, fun n _ => lcValid_reset n, fun n i => ⟨?_, ?_⟩⟩
  · rw [phase, rgF_reset _ _ _ (by decide) (by decide), bustat_reset]
    rfl
  · decide
  · rw [rgF_reset _ _ _ (by decide) (by decide)]
    decide
  · rw [rgF_reset _ _ _ (by decide) (by decide)]
    decide

end Sys2Proof.Machine
end

section
/-! PROOFS. Calls, ERET, and what a core takes at a boundary (R69 to R76, R79, R126, R239, R522, R523, R645). -/
namespace Sys2Proof.Machine

open Sys2Proof

/-! ### Entries that begin in a state whose registers are the same -/

/-- From u to t the registers of core c, and whatever is not of core c, are as they were, but the event counters. -/
structure RegsKept (c : Nat) (u t : State) : Prop where
  d : (getCore t c).d = (getCore u c).d
  a : (getCore t c).a = (getCore u c).a
  q : (getCore t c).q = (getCore u c).q
  sys : ∀ n w, isCounter n = false → sysGet t c n w = sysGet u c n w
  rest : CoreOnly c u t

theorem RegsKept.trans {c : Nat} {s t u : State} (h1 : RegsKept c s t) (h2 : RegsKept c t u) : RegsKept c s u where
  d := h2.d.trans h1.d
  a := h2.a.trans h1.a
  q := h2.q.trans h1.q
  sys n w h := (h2.sys n w h).trans (h1.sys n w h)
  rest := h1.rest.trans h2.rest

theorem Counted.regsKept {c : Nat} {s t : State} (h : Counted c s t) : RegsKept c s t := by
  obtain ⟨_, _, hd, ha, hq, _⟩ := h.fields
  exact ⟨hd, ha, hq, h.sys, h.only⟩

/-- A core whose record changes outside its register files. -/
theorem RegsKept.setCore {s : State} {c : Nat} {k : Core} (hd : k.d = (getCore s c).d) (ha : k.a = (getCore s c).a)
    (hq : k.q = (getCore s c).q) (hs : k.sys = (getCore s c).sys) : RegsKept c s (setCore s c k) where
  d := by rw [core_setCore_same, hd]
  a := by rw [core_setCore_same, ha]
  q := by rw [core_setCore_same, hq]
  sys n w _ := sysGet_congr (by rw [core_setCore_same, hs]) n w
  rest := CoreOnly.setCore ..

theorem RegsKept.aGet {c : Nat} {u t : State} (h : RegsKept c u t) (hc : (getCore t c).cstat = (getCore u c).cstat)
    (ht : (getCore t c).stale = (getCore u c).stale) (r : Nat) : aGet t c r = aGet u c r := by
  unfold Machine.aGet
  simp only [secOf, plOf, hc, h.a]
  split
  · exact sysEff_congr ht (h.sys _ _ (spNum_not_counter (plOf_lt (getCore u c))))
  · rfl

/-- The address registers other than the stack pointer. -/
theorem RegsKept.aGet_of_ne {c r : Nat} {u t : State} (h : RegsKept c u t) (hr : r ≠ spIdx c) : Machine.aGet t c r = Machine.aGet u c r := by
  simp only [Machine.aGet, if_neg hr, h.a]

/-- The vector base registers are no counters. -/
theorem vtbase_not_counter {lvl : Nat} (h : lvl ≤ 3) : isCounter (lvl * 0x100) = false := by
  interval_cases lvl <;> rfl

/-- An entry from a state with the same registers and status is an entry from here. -/
theorem Entered.of_regsKept {c : Nat} {s u t : State} {lvl : Nat} {epc esyn eaddr : Word} {off : Nat}
    (h : Entered c u t lvl epc esyn eaddr off) (k : RegsKept c s u) (hc : (getCore u c).cstat = (getCore s c).cstat)
    (ht : (getCore u c).stale = (getCore s c).stale) (h3 : lvl ≤ 3) : Entered c s t lvl epc esyn eaddr off := by
  have hsec : secOf (getCore u c) = secOf (getCore s c) := by simp only [secOf, hc]
  have he : sysEff u c (lvl * 0x100) (secOf (getCore s c)) = sysEff s c (lvl * 0x100) (secOf (getCore s c)) :=
    sysEff_congr ht (k.sys _ _ (vtbase_not_counter h3))
  obtain ⟨pc, level, masks, window, world, kept, epcReg, estatReg, esynReg, eaddrReg, d, a, q, sys, rest⟩ := h
  rw [hsec] at pc world epcReg estatReg esynReg eaddrReg
  rw [hc] at kept estatReg
  rw [he] at pc
  exact ⟨pc, level, masks, window, world, kept, epcReg, estatReg, esynReg, eaddrReg, fun r => (d r).trans (dGet_congr k.d r),
    fun r hr => (a r hr).trans (k.aGet hc ht r), fun r => (q r).trans (qGet_congr k.q r),
    fun n w hn hcnt hlo => (sys n w hn hcnt hlo).trans (k.sys n w hcnt), k.rest.trans rest⟩

/-! ### The calls -/

theorem esynOf_call {cls : Nat} {sys : BitVec 12} (tgt : ExcTgt) :
    esynOf { cls := cls, tgt := tgt, detail := sys.toNat, next := true } =
      BitVec.ofNat 64 (cls * 2 ^ 56 + 0x001C000000000000 + sys.toNat) := by
  have := sys.isLt
  rw [esynOf, Nat.mod_eq_of_lt (show sys.toNat < 2 ^ 32 by omega)]
  simp

/-- A call at a level that may use it raises the exception of its level. -/
theorem bodyCall_exc {c sf cls t lo hi : Nat} {o : OpS} {s : State} (hrt : o.rt = 0) (hlo : lo ≤ plOf (getCore s c))
    (hhi : plOf (getCore s c) ≤ hi) (hm : c = mpCore → cls = 0x04) :
    bodyCall c o sf cls t lo hi s = (.exc { cls := cls, tgt := .pl t, detail := o.sys.toNat, next := true }, s) := by
  have h : ¬(o.rt ≠ 0 ∨ plOf (getCore s c) < lo ∨ hi < plOf (getCore s c) ∨ (c = mpCore ∧ cls ≠ 0x04)) := by
    rintro (h | h | h | ⟨h, h'⟩)
    · exact h hrt
    · omega
    · omega
    · exact h' (hm h)
  exact if_neg h

/-- A call enters its level through the call vector, with the following address in EPC and the immediate in ESYN.DETAIL (R71, R79, R126). -/
theorem runInstr_call_entered {s : State} {c : Nat} {o : OpS} {sf cls t lo hi : Nat} (h : Runs s c) (hrt : o.rt = 0)
    (hlo : lo ≤ plOf (getCore (fetched s c) c)) (hhi : plOf (getCore (fetched s c) c) ≤ hi) (hm : c = mpCore → cls = 0x04)
    (hcls : cls = 0x04 ∨ cls = 0x05 ∨ cls = 0x06) (hit : hi ≤ t) (h1 : 1 ≤ t) (h3 : t ≤ 3) :
    Entered c (fetched s c) (runInstr s c (bodyCall c o sf cls t lo hi)) t ((getCore (fetched s c) c).pc + 4)
      (BitVec.ofNat 64 (cls * 2 ^ 56 + 0x001C000000000000 + o.sys.toNat)) 0 0x000 := by
  rw [runInstr_exc h (bodyCall_exc hrt hlo hhi hm), ← esynOf_call (.pl t)]
  have hentered := raise_entered (s := fetched s c) (c := c) (lvl := t)
    (e := { cls := cls, tgt := .pl t, detail := o.sys.toNat, next := true }) h.free (by simp only [excTarget]; omega) h1 h3
  rwa [vecOff, if_pos hcls] at hentered

/-! ### The return -/

theorem returnExc_core (s : State) (c : Nat) : ∃ b, getCore (returnExc s c) c = { getCore s c with
    resv := none
    pc := sysGet s c (plOf (getCore s c) * 0x100 + 1) (secOf (getCore s c))
    cstat := sysGet s c (plOf (getCore s c) * 0x100 + 2) (secOf (getCore s c))
    stale := []
    served := []
    asked := []
    atSent := false
    fails := 0
    bpValid := b } := by
  unfold returnExc
  dsimp only
  split
  · exact ⟨false, by rw [dropPredictors, core_setCore_same, core_setCore_same]⟩
  · exact ⟨_, core_setCore_same ..⟩

theorem returnExc_coreOnly (s : State) (c : Nat) : CoreOnly c s (returnExc s c) := by
  unfold returnExc
  dsimp only
  split
  · exact (CoreOnly.setCore ..).trans (CoreOnly.setCore ..)
  · exact CoreOnly.setCore ..

theorem returnExc_regsKept (s : State) (c : Nat) : RegsKept c s (returnExc s c) := by
  obtain ⟨b, hb⟩ := returnExc_core s c
  exact ⟨by rw [hb], by rw [hb], by rw [hb], fun n w _ => sysGet_congr (by rw [hb]) n w, returnExc_coreOnly s c⟩

/-- Whether PEND of a posting record can be read at once is no matter of a core. -/
theorem pendQuiet_coreOnly {c : Nat} {s t : State} (h : CoreOnly c s t) (st : StopId) (rec : Nat) :
    pendQuiet t st rec = pendQuiet s st rec := by
  have e : pendQuiet { t with cores := s.cores, freeCtr := s.freeCtr } st rec = pendQuiet t st rec := rfl
  rw [← e, h.1]

theorem coreOfStop_coreStop {c : Nat} (h : c < 240) : coreOfStop (coreStop c) = c := by
  have hm : c ≠ mpCore := by unfold mpCore; omega
  have hd : c / 20 < 12 ∧ c % 20 < 20 := by omega
  simp only [coreOfStop, coreStop, if_neg hm, if_pos hd]
  omega

theorem guestOn_ne_mpCore {s : State} {c : Nat} (h : guestOn s c = true) : c ≠ mpCore := by
  rintro rfl
  simp [guestOn] at h

/-- Where PEND can be read at once, re-reading it changes the core's record of it at most (R534). -/
theorem rereadPend_core {s : State} {c : Nat} (hc : c < 241)
    (h : guestOn s c = true → pendQuiet s (coreStop c) (vpostRecord s c) = true) :
    ∃ v, rereadPend s c = s ∨ rereadPend s c = setCore s c { getCore s c with vpend := v } := by
  unfold rereadPend
  split
  next hg =>
    refine ⟨recordPend s (vpostRecord s c), ?_⟩
    rw [hwDo, hwRun, if_pos ⟨rfl, h hg⟩]
    have hlt : c < 240 := by have := guestOn_ne_mpCore hg; unfold mpCore at this; omega
    rw [coreOfStop_coreStop hlt]
    split
    · exact .inr rfl
    · exact .inl rfl
  · exact ⟨0, .inl rfl⟩

/-- In the state an ERET leaves, its registers in effect are those that are written: no write waits any more (R85). -/
theorem sysEff_returnExc {s : State} {c n : Nat} (w : Bool) (hn : isCounter n = false) :
    sysEff (returnExc s c) c n w = sysGet s c n w := by
  obtain ⟨b, hb⟩ := returnExc_core s c
  unfold sysEff
  rw [hb]
  exact (returnExc_regsKept s c).sys n w hn

/-- ERET whose saved status may be returned to (R73): events are counted, PC and CSTAT return, and PEND is read again (R534). -/
theorem bodyEret_part {s : State} {c : Nat} {o : OpS} (hc : c < 241) (hrt : o.rt = 0) (hsys : o.sys = 0) (hpl : 1 ≤ plOf (getCore s c))
    (hlegal : eretIllegal s c = false) (hss : bit (getCore s c).cstat 7 = false) (hq : PendQuiet s c) :
    ∃ v w p, Counted c s v ∧ (w = returnExc v c ∨ w = setCore (returnExc v c) c { getCore (returnExc v c) c with vpend := p }) ∧
      bodyEret c o s = (.part, w) := by
  have hv : Counted c s (countEvent s c 0x003) := countEvent_counted ..
  have hok : (!(okS c o false false) || plOf (getCore s c) == 0) = false := by
    have : plOf (getCore s c) ≠ 0 := by omega
    simp [okS, hrt, hsys, this]
  have hb : bodyEret c o s = (.part, if plOf (getCore (returnExc (countEvent s c 0x003) c) c) ≤ 1
      then rereadPend (returnExc (countEvent s c 0x003) c) c else returnExc (countEvent s c 0x003) c) := by
    unfold bodyEret
    simp only [hok, hlegal, hss, Bool.false_eq_true, if_false]
  rw [hb]
  generalize countEvent s c 0x003 = v at hv ⊢
  split
  · have hquiet : guestOn (returnExc v c) c = true →
        pendQuiet (returnExc v c) (coreStop c) (vpostRecord (returnExc v c) c) = true := by
      intro hg
      have hvp : ∀ w, sysEff (returnExc v c) c 0x504 w = sysGet s c 0x504 w :=
        fun w => (sysEff_returnExc w rfl).trans (hv.sys _ _ rfl)
      have hen : bit (sysGet s c 0x504 (secOf (getCore (returnExc v c) c))) 0 = true := by
        simp only [guestOn, Bool.and_eq_true, hvp] at hg
        exact hg.2
      rw [vpostRecord, hvp, pendQuiet_coreOnly (hv.only.trans (returnExc_coreOnly v c))]
      exact (hq _).2 hen
    obtain ⟨p, hp⟩ := rereadPend_core hc hquiet
    exact ⟨v, _, p, hv, hp, rfl⟩
  · exact ⟨v, _, 0, hv, .inl rfl, rfl⟩

/-- The saved status names a level and world that may be returned to (R73). -/
theorem eretIllegal_false_iff (s : State) (c : Nat) : eretIllegal s c = false ↔
    let st := sysGet s c (plOf (getCore s c) * 0x100 + 2) (secOf (getCore s c))
    fld st 1 0 ≤ plOf (getCore s c) ∧ (fld st 1 0 = 3 → bit st 2 = true) ∧
      (plOf (getCore s c) < 3 → bit st 2 = secOf (getCore s c)) := by
  simp [eretIllegal, and_assoc]

/-- What ERET leaves, when the saved status may be returned to. -/
theorem runInstr_eret {s : State} {c : CoreId} {o : OpS} (h : Runs s c) (hrt : o.rt = 0) (hsys : o.sys = 0)
    (hpl : 1 ≤ plOf (getCore (fetched s c) c)) (hlegal : eretIllegal (fetched s c) c = false) (hq : PendQuiet (fetched s c) c) :
    RegsKept c (fetched s c) (runInstr s c (bodyEret c o)) ∧
      (getCore (runInstr s c (bodyEret c o)) c).pc =
        sysGet (fetched s c) c (plOf (getCore (fetched s c) c) * 0x100 + 1) (secOf (getCore (fetched s c) c)) ∧
      (getCore (runInstr s c (bodyEret c o)) c).cstat =
        sysGet (fetched s c) c (plOf (getCore (fetched s c) c) * 0x100 + 2) (secOf (getCore (fetched s c) c)) ∧
      (getCore (runInstr s c (bodyEret c o)) c).resv = none := by
  obtain ⟨v, w, p, hv, hw, hb⟩ := bodyEret_part c.isLt hrt hsys hpl hlegal h.ss hq
  have hstep : (getCore v c).stepping = false := by
    obtain ⟨_, _, _, _, _, _, _, hs⟩ := hv.fields
    exact hs.trans h.free
  obtain ⟨_, hcstat, _⟩ := hv.fields
  obtain ⟨b, hcore⟩ := returnExc_core v c
  have hlt := plOf_lt (getCore (fetched s c) c)
  have hcnt1 : isCounter (plOf (getCore (fetched s c) c) * 0x100 + 1) = false := by interval_cases plOf (getCore (fetched s c) c) <;> rfl
  have hcnt2 : isCounter (plOf (getCore (fetched s c) c) * 0x100 + 2) = false := by interval_cases plOf (getCore (fetched s c) c) <;> rfl
  simp only [plOf, secOf, hcstat] at hcore
  simp only [plOf] at hcnt1 hcnt2
  rw [hv.sys _ _ hcnt1, hv.sys _ _ hcnt2] at hcore
  have hkept : RegsKept c (fetched s c) w ∧ ∃ p', getCore w c = { getCore (returnExc v c) c with vpend := p' } := by
    have hret := hv.regsKept.trans (returnExc_regsKept v c)
    obtain rfl | rfl := hw
    · exact ⟨hret, _, rfl⟩
    · exact ⟨hret.trans (RegsKept.setCore rfl rfl rfl rfl), p, core_setCore_same ..⟩
  obtain ⟨hw, p', hwcore⟩ := hkept
  have hrun : runInstr s c (bodyEret c o) = dropFills w c := by
    rw [runInstr_eq h, hb]
    simp [endBody, stepHalt, dropFills, hwcore, hcore, hstep]
  have hdrop : RegsKept c w (dropFills w c) := RegsKept.setCore rfl rfl rfl rfl
  refine hrun ▸ ⟨hw.trans hdrop, ?_⟩
  rw [dropFills, core_setCore_same, hwcore, hcore]
  exact ⟨rfl, rfl, rfl⟩

/-- An illegal saved status raises ILLEGAL_RETURN at the current level (R73). -/
theorem runInstr_eret_illegal {s : State} {c : Nat} {o : OpS} (h : Runs s c) (hrt : o.rt = 0) (hsys : o.sys = 0)
    (hpl : 1 ≤ plOf (getCore (fetched s c) c)) (hillegal : eretIllegal (fetched s c) c = true) :
    Entered c (fetched s c) (runInstr s c (bodyEret c o)) (plOf (getCore (fetched s c) c)) (getCore (fetched s c) c).pc
      0x071C000000000000 0 0x100 := by
  have hne : plOf (getCore (fetched s c) c) ≠ 0 := by omega
  have hb : bodyEret c o (fetched s c) = (.exc { cls := 0x07, tgt := .pl (plOf (getCore (fetched s c) c)) }, fetched s c) := by
    simp [bodyEret, okS, hrt, hsys, hne, hillegal]
  have hlt := plOf_lt (getCore (fetched s c) c)
  rw [runInstr_exc h hb]
  have hentered := raise_entered (s := fetched s c) (c := c) (lvl := plOf (getCore (fetched s c) c))
    (e := { cls := 0x07, tgt := .pl (plOf (getCore (fetched s c) c)) }) h.free (Nat.max_self _) hpl (by omega)
  rwa [beq_self_eq_true, esynOf_plain (.pl _) 0 (by decide)] at hentered

/-! ### At a boundary -/

/-- The best of a list is in it, and none in it is better (R645). -/
theorem foldl_betterSig (l : List Sig) (g : Sig) :
    (l.foldl betterSig g = g ∨ l.foldl betterSig g ∈ l) ∧
      ∀ h, h = g ∨ h ∈ l → (l.foldl betterSig g).prio < h.prio ∨
        ((l.foldl betterSig g).prio = h.prio ∧ (l.foldl betterSig g).intid ≤ h.intid) := by
  induction l generalizing g with
  | nil => exact ⟨.inl rfl, fun h hh => by simp_all⟩
  | cons x l ih =>
    obtain ⟨hmem, hbest⟩ := ih (betterSig g x)
    have hor : betterSig g x = g ∨ betterSig g x = x := by unfold betterSig; split <;> simp
    have hg := hbest (betterSig g x) (.inl rfl)
    have hle : ∀ h, h = g ∨ h = x → (betterSig g x).prio < h.prio ∨ ((betterSig g x).prio = h.prio ∧ (betterSig g x).intid ≤ h.intid) := by
      rintro h (rfl | rfl) <;> unfold betterSig <;> split <;> omega
    rw [List.foldl_cons]
    refine ⟨?_, fun h hh => ?_⟩
    · rcases hmem with e | e
      · rw [e]
        rcases hor with e' | e' <;> simp [e']
      · exact .inr (List.mem_cons_of_mem _ e)
    · have hcases : (h = g ∨ h = x) ∨ h ∈ l := by
        rcases hh with hh | hh
        · exact .inl (.inl hh)
        · exact (List.mem_cons.mp hh).imp .inr id
      rcases hcases with hh | hh
      · have := hle h hh
        omega
      · exact hbest h (.inr hh)

theorem bestSig_spec {l : List Sig} {g : Sig} (h : bestSig l = some g) :
    g ∈ l ∧ ∀ x ∈ l, g.prio < x.prio ∨ (g.prio = x.prio ∧ g.intid ≤ x.intid) := by
  cases l with
  | nil => cases h
  | cons a l =>
    obtain ⟨hmem, hbest⟩ := foldl_betterSig l a
    obtain rfl : l.foldl betterSig a = g := Option.some.inj h
    exact ⟨List.mem_cons.mpr hmem, fun x hx => hbest x (List.mem_cons.mp hx)⟩

theorem dueInterrupt_spec {s : State} {c : Nat} {g : Sig} (h : dueInterrupt s c = some g) :
    (g ∈ signalled s c ∨ g ∈ guestSigs s c) ∧ mayTake (getCore s c) 4 (routeLevel (getCore s c) g) = true ∧
      ∀ x, (x ∈ signalled s c ∨ x ∈ guestSigs s c) → mayTake (getCore s c) 4 (routeLevel (getCore s c) x) = true →
        g.prio < x.prio ∨ (g.prio = x.prio ∧ g.intid ≤ x.intid) := by
  obtain ⟨hmem, hbest⟩ := bestSig_spec h
  simp only [List.mem_filter, List.mem_append] at hmem hbest
  exact ⟨hmem.1, hmem.2, fun x hx hm => hbest x ⟨hx, hm⟩⟩

/-- What may be taken lies at the current level or above. -/
theorem plOf_le_of_mayTake {k : Core} {b L : Nat} (h : mayTake k b L = true) : plOf k ≤ L := by
  simp only [mayTake, Bool.or_eq_true, decide_eq_true_eq, Bool.and_eq_true, beq_iff_eq] at h
  omega

theorem stepHalt_of_not_stepping {s : State} {c : Nat} (h : (getCore s c).stepping = false) : stepHalt s c = s := by
  simp [stepHalt, h]

/-- A core enters the level an interrupt is routed to through vector 0x300 (R70, R523). -/
theorem takeSig_entered {s : State} {c : Nat} {g : Sig} (hpl : plOf (getCore s c) ≤ routeLevel (getCore s c) g)
    (h1 : 1 ≤ routeLevel (getCore s c) g) (h3 : routeLevel (getCore s c) g ≤ 3) :
    Entered c s (takeSig s c g) (routeLevel (getCore s c) g) (getCore s c).pc 0x401C000000000000 0 0x300 ∧
      (getCore (takeSig s c g) c).stepping = (getCore s c).stepping := by
  have hv := countEvent_counted s c 0x013
  obtain ⟨hpc, hcstat, _, _, _, _, hstale, hstepping⟩ := hv.fields
  have hroute : routeLevel (getCore (countEvent s c 0x013) c) g = routeLevel (getCore s c) g := by
    unfold routeLevel plOf secOf
    rw [hcstat]
  unfold takeSig
  dsimp only
  rw [hroute, hpc]
  have hentered := takeExcAt_entered (countEvent s c 0x013) c { cls := 0x40, tgt := .pl (routeLevel (getCore s c) g) } (getCore s c).pc
    (esynOf { cls := 0x40, tgt := .pl (routeLevel (getCore s c) g) }) (routeLevel (getCore s c) g)
    (by rw [excTarget, plOf, hcstat]; exact Nat.max_eq_left hpl) h1 h3
  rw [esynOf_plain (.pl _) 0 (by decide)] at hentered ⊢
  exact ⟨hentered.of_regsKept hv.regsKept hcstat hstale h3, (takeExcAt_stepping ..).trans hstepping⟩

theorem takeExcAt_defErr (s : State) (c : Nat) (e : Exc) (epc esyn : Word) :
    (getCore (takeExcAt s c e epc esyn) c).defErr = (getCore s c).defErr := by
  have hdef : (getCore (countEvent s c 0x012) c).defErr = (getCore s c).defErr := by rw [← (countEvent_counted s c 0x012).same]
  rw [← hdef]
  unfold takeExcAt
  dsimp only
  split <;> split <;> split <;> simp only [dropPredictors, dropResv, core_setCore_same, sysSet_core]

/-- A core enters the target of its deferred error through vector 0x400, with what was recorded of it (R76, R239). -/
theorem takeDeferred_entered {s : State} {c : Nat} {d : DefErr} (hd : (getCore s c).defErr = some d)
    (hpl : plOf (getCore s c) ≤ defTarget s c) (h1 : 1 ≤ defTarget s c) (h3 : defTarget s c ≤ 3) :
    Entered c s (takeDeferred s c) (defTarget s c) (getCore s c).pc d.esyn d.eaddr 0x400 ∧
      (getCore (takeDeferred s c) c).defErr = none ∧ (getCore (takeDeferred s c) c).stepping = (getCore s c).stepping := by
  have ht : takeDeferred s c = takeExcAt (setCore s c { getCore s c with defErr := none }) c
      { cls := 0x20, tgt := .pl (defTarget s c), deferred := true, eaddr := d.eaddr, ephys := d.ephys } (getCore s c).pc d.esyn := by
    unfold takeDeferred
    rw [hd]
    dsimp only
    rw [core_setCore_same]
  rw [ht, takeExcAt_defErr, takeExcAt_stepping, core_setCore_same]
  refine ⟨?_, rfl, rfl⟩
  have hentered := takeExcAt_entered (setCore s c { getCore s c with defErr := none }) c
    { cls := 0x20, tgt := .pl (defTarget s c), deferred := true, eaddr := d.eaddr, ephys := d.ephys } (getCore s c).pc d.esyn (defTarget s c)
    (by rw [core_setCore_same]; exact Nat.max_eq_left hpl) h1 h3
  exact hentered.of_regsKept (RegsKept.setCore rfl rfl rfl rfl) (by rw [core_setCore_same]) (by rw [core_setCore_same]) h3

/-! ### The statement -/

/-- Settles O6: the calls and ERET, then what is taken at a boundary, then which interrupt is due. -/
theorem exceptionEntryAndReturn : Obligations.ExceptionEntryAndReturn := by
  unfold Obligations.ExceptionEntryAndReturn
  refine ⟨?_, fun c g s hcan hdef hdue h1 h3 hstep => ?_, fun c d s hcan hdef hd h1 h3 hstep => ?_, fun c g s h => dueInterrupt_spec h⟩
  · intro c o s h u pc pl w st
    refine ⟨fun hrt hpl => ?_, fun hrt hc h1 h2 => ⟨?_, ?_⟩, fun hrt hsys h1 hle hsec hworld hq => ?_, fun hrt hsys h1 hbad => ?_⟩
    · exact ⟨_, rfl, runInstr_call_entered h hrt (Nat.zero_le _) hpl (fun _ => rfl) (by decide) (by decide) (by decide) (by decide)⟩
    · exact ⟨_, rfl, runInstr_call_entered h hrt h1 h2 (fun e => absurd e hc) (by decide) (by decide) (by decide) (by decide)⟩
    · exact ⟨_, rfl, runInstr_call_entered h hrt h1 h2 (fun e => absurd e hc) (by decide) (by decide) (by decide) (by decide)⟩
    · obtain ⟨hkept, hpc, hcstat, hresv⟩ :=
        runInstr_eret h hrt hsys h1 ((eretIllegal_false_iff ..).mpr ⟨hle, hsec, hworld⟩) hq
      exact ⟨_, rfl, hpc, hcstat, hresv, dGet_congr hkept.d, fun r hr => hkept.aGet_of_ne hr, qGet_congr hkept.q, fun n x _ hn => hkept.sys n x hn, hkept.rest⟩
    · have hillegal : eretIllegal u c = true := by
        rw [← Bool.not_eq_false, eretIllegal_false_iff]
        rintro ⟨hle, hsec, hworld⟩
        rcases hbad with hb | ⟨hb, hb'⟩ | ⟨hb, hb'⟩
        · exact absurd hle (Nat.not_le.mpr hb)
        · exact Bool.false_ne_true (hb'.symm.trans (hsec hb))
        · exact hb' (hworld hb)
      exact ⟨_, rfl, runInstr_eret_illegal h hrt hsys h1 hillegal⟩
  · obtain ⟨_, hmay, _⟩ := dueInterrupt_spec hdue
    obtain ⟨hentered, hs⟩ := takeSig_entered (plOf_le_of_mayTake hmay) h1 h3
    refine ⟨takeSig s c g, ?_, hentered⟩
    show execTakeInterrupt c s = _
    simp only [execTakeInterrupt, hcan, hdef, hdue, Bool.not_false, Bool.and_self, if_true, stepHalt_of_not_stepping (hs.trans hstep), ok]
  · have hmay : mayTake (getCore s c) 5 (defTarget s c) = true := by
      simp only [dueDeferred, Bool.and_eq_true] at hdef
      exact hdef.2
    obtain ⟨hentered, hnone, hs⟩ := takeDeferred_entered hd (plOf_le_of_mayTake hmay) h1 h3
    refine ⟨takeDeferred s c, ?_, hentered, hnone⟩
    show execTakeDeferredError c s = _
    simp only [execTakeDeferredError, hcan, hdef, Bool.and_self, if_true, stepHalt_of_not_stepping (hs.trans hstep), ok]

end Sys2Proof.Machine
end

section
/-! PROOFS. Reading and writing plain system registers, and NOP (R47, R61, R81, R84, R87, R536). -/
namespace Sys2Proof.Machine

open Sys2Proof

/-! ### Retiring -/

/-- An instruction retires where the core does not single-step: events are counted, and the PC takes its value (R74, R138). -/
theorem complete_eq {s : State} {c : Nat} (pc : Word) (hss : bit (getCore s c).cstat 7 = false)
    (hst : (getCore s c).stepping = false) : ∃ u, Counted c s u ∧ complete s c pc = setCore u c
      { getCore u c with pc := trunc c pc, fails := 0, served := [], asked := [], atSent := false, bpValid := true } := by
  obtain ⟨u, hu, he⟩ : ∃ u, Counted c s u ∧ retireAt s c pc = setCore u c
      { getCore u c with pc := trunc c pc, fails := 0, served := [], asked := [], atSent := false, bpValid := true } := by
    unfold retireAt
    simp only [hss, Bool.false_eq_true, if_false]
    refine ⟨_, ?_, rfl⟩
    split
    · exact countEvent_counted s c 3
    · exact (countEvent_counted s c 3).trans (retireSteps_counted ..)
  refine ⟨u, hu, ?_⟩
  obtain ⟨_, _, _, _, _, _, _, hstep⟩ := hu.fields
  rw [complete, he]
  exact stepHalt_of_not_stepping (by rw [core_setCore_same]; exact hstep.trans hst)

/-- What retiring leaves of the core: all but the PC, the counters and what belongs to the instruction itself. -/
theorem complete_core {s : State} {c : Nat} (pc : Word) (hss : bit (getCore s c).cstat 7 = false)
    (hst : (getCore s c).stepping = false) : ∃ sys left, getCore (complete s c pc) c =
      { getCore s c with
        sys := sys, stepLeft := left, pc := trunc c pc, fails := 0, served := [], asked := [], atSent := false, bpValid := true } := by
  obtain ⟨u, hu, he⟩ := complete_eq pc hss hst
  refine ⟨(getCore u c).sys, (getCore u c).stepLeft, ?_⟩
  rw [he, core_setCore_same, ← hu.same]

theorem complete_regsKept {s : State} {c : Nat} (pc : Word) (hss : bit (getCore s c).cstat 7 = false)
    (hst : (getCore s c).stepping = false) : RegsKept c s (complete s c pc) := by
  obtain ⟨u, hu, he⟩ := complete_eq pc hss hst
  rw [he]
  exact hu.regsKept.trans (RegsKept.setCore rfl rfl rfl rfl)

theorem pc_complete {s : State} {c : Nat} (pc : Word) (hss : bit (getCore s c).cstat 7 = false)
    (hst : (getCore s c).stepping = false) : (getCore (complete s c pc) c).pc = trunc c pc := by
  obtain ⟨_, _, h⟩ := complete_core pc hss hst
  rw [h]

theorem aGet_complete {s : State} {c : Nat} (pc : Word) (hss : bit (getCore s c).cstat 7 = false)
    (hst : (getCore s c).stepping = false) (r : Nat) : aGet (complete s c pc) c r = aGet s c r := by
  obtain ⟨_, _, h⟩ := complete_core pc hss hst
  exact (complete_regsKept pc hss hst).aGet (by rw [h]) (by rw [h]) r

/-! ### A register written by SYSWR -/

@[simp] theorem sysGet_sysWrite_same (s : State) (c n : Nat) (w : Bool) (v : Word) : sysGet (sysWrite s c n w v) c n w = v := by
  simp [sysGet, sysWrite]

theorem sysGet_sysWrite_ne {s : State} {c n m : Nat} {w x : Bool} {v : Word} (h : m ≠ n) (hn : n < 0x1000) (hm : m < 0x1000) :
    sysGet (sysWrite s c n w v) c m x = sysGet s c m x := by
  unfold sysGet sysWrite
  dsimp only
  rw [core_setCore_same]
  exact tget_tset_ne (sysKey_ne h hm hn) _

theorem sysWrite_core (s : State) (c n : Nat) (w : Bool) (v : Word) : ∃ sys stale,
    getCore (sysWrite s c n w v) c = { getCore s c with sys := sys, stale := stale } := ⟨_, _, core_setCore_same ..⟩

theorem nextPc_sysWrite (s : State) (c n : Nat) (w : Bool) (v : Word) : nextPc (sysWrite s c n w v) c = nextPc s c := by
  obtain ⟨_, _, h⟩ := sysWrite_core s c n w v
  rw [nextPc, h]
  rfl

/-- A write that waits for a context synchronisation holds back no other register. -/
theorem sysEff_sysWrite_ne {s : State} {c n m : Nat} {w x : Bool} {v : Word} (h : m ≠ n) (hn : n < 0x1000) (hm : m < 0x1000) :
    sysEff (sysWrite s c n w v) c m x = sysEff s c m x := by
  have hkey : sysKey c n w ≠ sysKey c m x := sysKey_ne (Ne.symm h) hn hm
  have hfind : (getCore (sysWrite s c n w v) c).stale.find? (fun p => p.1 == sysKey c m x) =
      (getCore s c).stale.find? (fun p => p.1 == sysKey c m x) := by
    unfold sysWrite
    dsimp only
    rw [core_setCore_same]
    dsimp only
    split
    · exact List.find?_cons_of_neg (by simpa using hkey)
    · rfl
  rw [sysEff, hfind, sysGet_sysWrite_ne h hn hm]
  rfl

theorem CoreOnly.sysWrite (s : State) (c n : Nat) (w : Bool) (v : Word) : CoreOnly c s (sysWrite s c n w v) := CoreOnly.setCore ..

/-- A write of a register that is not the current stack pointer changes no general register. -/
theorem aGet_sysWrite {s : State} {c n : Nat} {w : Bool} {v : Word} (hn : n < 0x1000) (hsp : n ≠ spNum (plOf (getCore s c))) (r : Nat) :
    aGet (sysWrite s c n w v) c r = aGet s c r := by
  obtain ⟨_, _, h⟩ := sysWrite_core s c n w v
  have hpl := plOf_lt (getCore s c)
  have hlt : spNum (plOf (getCore s c)) < 0x1000 := by unfold spNum; split <;> omega
  unfold aGet
  rw [h]
  split
  · exact sysEff_sysWrite_ne (Ne.symm hsp) hn hlt
  · rfl

theorem spNum_mem {pl : Nat} (h : pl < 4) : spNum pl ∈ [0x007, 0x107, 0x207, 0x307] := by
  interval_cases pl <;> decide

/-! ### The fields a write keeps -/

/-- A register whose table has one field, read and written, with no restriction. -/
theorem writeFields_single (hi lo : Nat) (v w : Word) : writeFields [fRW hi lo] false v w = setFld v hi lo (fld w hi lo) := rfl

theorem fld_lt (v : Word) (hi lo : Nat) : fld v hi lo < 2 ^ (hi + 1 - lo) := Nat.mod_lt _ (by positivity)

theorem fld_setFld_fld (v w : Word) (hi lo : Nat) (h : hi < 64) (hl : lo ≤ hi) :
    fld (setFld v hi lo (fld w hi lo)) hi lo = fld w hi lo := by
  rw [fld_setFld_same v hi lo _ h hl, Nat.mod_eq_of_lt (fld_lt w hi lo)]

/-- Outside the field the bits stay. -/
theorem bit_setFld_outside (v : Word) (hi lo x i : Nat) (h : hi < 64) (hl : lo ≤ hi) (ho : i < lo ∨ hi < i) :
    bit (setFld v hi lo x) i = bit v i := by
  rw [bit_setFld v hi lo x i h hl]
  have : ¬(lo ≤ i ∧ i ≤ hi) := by omega
  simp [this]

/-! ### Which number an access reaches -/

theorem sysTarget_of_plain {s : State} {c n : Nat} (h : n < 0x800 ∨ 0x804 < n) : sysTarget s c n = n := by
  have hn : ¬(c ≠ mpCore ∧ plOf (getCore s c) = 1 ∧ 0x800 ≤ n ∧ n ≤ 0x804 ∧ bit (sysEff s c 0x500 (secOf (getCore s c))) 1) := by
    rintro ⟨_, _, h1, h2, _⟩
    omega
  exact if_neg hn

/-- The registers whose reading is more than their own copy (R87, R524, R534, R536). -/
def readSpecial : List Nat :=
  [0x000, 0x001, 0x002, 0x003, 0x004, 0x581, 0x700, 0x701, 0x711, 0x721, 0x731, 0x801, 0x803, 0x804, 0x811, 0x814, 0xA21, 0xB00, 0xB01, 0xB02]

/-- A register that is plain storage reads as its copy of the world accessed. -/
theorem sysRead_plain {s : State} {c n : Nat} (h : n ∉ readSpecial) : sysRead s c n = (sysGet s c n (accWorld s c), s) := by
  simp only [readSpecial, List.mem_cons, List.not_mem_nil, or_false, not_or] at h
  simp [sysRead, h]

/-- The registers whose writing is more than keeping their fields (R85, R234, R296, R525, R526, R534, R542, R543). -/
def writeSpecial : List Nat :=
  [0x004, 0x005, 0x581, 0x602, 0x802, 0x805, 0x810, 0x812, 0x813, 0x815, 0x932, 0x933] ++ (List.range 8).map (· + 0x920)

theorem sysWriteEff_plain {s : State} {c n : Nat} (guest : Bool) (v : Word) (h : n ∉ writeSpecial) :
    sysWriteEff s c n guest v = sysWrite s c n (accWorld s c)
      (writeFields (((sysInfoOf c n).map (·.fields)).getD []) false (sysGet s c n (accWorld s c)) v) := by
  simp only [writeSpecial, List.mem_append, List.mem_cons, List.not_mem_nil, or_false, not_or, List.mem_map, List.mem_range] at h
  have hcnt : ¬(0x920 ≤ n ∧ n ≤ 0x927 ∧ plOf (getCore s c) = 1 ∧ guestView s c 0 = true) := by
    rintro ⟨h1, h2, _⟩
    exact h.2 ⟨n - 0x920, by omega, by omega⟩
  simp [sysWriteEff, h.1, hcnt]

/-! ### The bodies -/

theorem bodySysrd_done {c : Nat} {o : OpS} {s : State} {v : Word} (hd : dOk c o.rt.toNat = true)
    (hcheck : sysCheck s c o.rt.toNat o.sys.toNat false (wordS o 0x001) = none) (hread : sysRead s c (sysTarget s c o.sys.toNat) = (v, s)) :
    bodySysrd c o s = (.done (nextPc s c), dSet s c o.rt.toNat v) := by
  rw [bodySysrd, guardWord_of_ok (by simp [okS, hd]), hcheck]
  simp only [hread]

theorem bodySyswr_done {c : Nat} {o : OpS} {s : State} (hd : dOk c o.rt.toNat = true)
    (hcheck : sysCheck s c o.rt.toNat o.sys.toNat true (wordS o 0x002) = none) (hn : sysTarget s c o.sys.toNat ≠ 0x933) :
    let t := sysWriteEff s c (sysTarget s c o.sys.toNat) (sysTarget s c o.sys.toNat != o.sys.toNat) (dGet s c o.rt.toNat)
    bodySyswr c o s = (.done (nextPc t c), t) := by
  rw [bodySyswr, guardWord_of_ok (by simp [okS, hd]), hcheck]
  simp only [hn, if_false]

/-- A SYSRD whose reading has no effect writes the value read (R47, R81). -/
theorem exec_sysrd_retired {c : CoreId} {o : OpS} {s : State} {v : Word} (h : Runs s c) (hd : dOk c o.rt.toNat = true)
    (hcheck : sysCheck (fetched s c) c o.rt.toNat o.sys.toNat false (wordS o 0x001) = none)
    (hread : sysRead (fetched s c) c (sysTarget (fetched s c) c o.sys.toNat) = (v, fetched s c)) :
    ∃ t, exec (.sysrd c o) s = .next t ∧ Retired c (fetched s c) t (dUpd (dGet (fetched s c) c) o.rt.toNat (trunc c v))
      (aGet (fetched s c) c) (qGet (fetched s c) c) (pcNext s c) :=
  ⟨_, rfl, runInstr_dSet h (bodySysrd_done hd hcheck hread)⟩

/-- What a SYSWR of a register with one plain field does (R84, R87). -/
theorem syswr_plain {c : CoreId} {o : OpS} {s : State} {n hi lo : Nat} (h : Runs s c) (hd : dOk c o.rt.toNat = true)
    (hcheck : sysCheck (fetched s c) c o.rt.toNat o.sys.toNat true (wordS o 0x002) = none) (ho : o.sys.toNat = n)
    (hfield : ((sysInfoOf c n).map (·.fields)).getD [] = [fRW hi lo]) (hspecial : n ∉ writeSpecial) (hlt : n < 0x800)
    (hcnt : isCounter n = false) (hsp : n ∉ [0x007, 0x107, 0x207, 0x307]) :
    let u := fetched s c
    let v := setFld (sysGet u c n (accWorld u c)) hi lo (fld (dGet u c o.rt.toNat) hi lo)
    let t := runInstr s c (bodySyswr c o)
    (getCore t c).pc = pcNext s c ∧ (getCore t c).cstat = (getCore u c).cstat ∧ sysGet t c n (accWorld u c) = v ∧
      (∀ m x, m < 0x1000 → isCounter m = false → m ≠ n → sysGet t c m x = sysGet u c m x) ∧
      (∀ r, dGet t c r = dGet u c r) ∧ (∀ r, aGet t c r = aGet u c r) ∧ (∀ r, qGet t c r = qGet u c r) ∧ CoreOnly c u t := by
  intro u v t
  have htgt : sysTarget u c o.sys.toNat = n := by rw [ho, sysTarget_of_plain (.inl hlt)]
  obtain ⟨sys, stale, hcore⟩ := sysWrite_core u c n (accWorld u c) v
  have hb : bodySyswr c o u = (.done (nextPc u c), sysWrite u c n (accWorld u c) v) := by
    rw [bodySyswr_done hd hcheck (by rw [htgt]; omega), htgt, sysWriteEff_plain _ _ hspecial, hfield, writeFields_single,
      nextPc_sysWrite]
  have ht : t = complete (sysWrite u c n (accWorld u c) v) c (nextPc u c) := runInstr_done h hb
  have hspn : n ≠ spNum (plOf (getCore u c)) := fun e => hsp (e ▸ spNum_mem (plOf_lt _))
  have hss : bit (getCore (sysWrite u c n (accWorld u c) v) c).cstat 7 = false := by rw [hcore]; exact h.ss
  have hst : (getCore (sysWrite u c n (accWorld u c) v) c).stepping = false := by rw [hcore]; exact h.free
  have hkept := complete_regsKept (nextPc u c) hss hst
  rw [← ht] at hkept
  refine ⟨by rw [ht, pc_complete _ hss hst]; rfl, ?_, (hkept.sys _ _ hcnt).trans (sysGet_sysWrite_same ..), fun m x hm hmc hne => ?_,
    fun r => (dGet_congr hkept.d r).trans (dGet_congr (by rw [hcore]) r), fun r => ?_,
    fun r => (qGet_congr hkept.q r).trans (qGet_congr (by rw [hcore]) r), (CoreOnly.sysWrite ..).trans hkept.rest⟩
  · obtain ⟨_, _, hc⟩ := complete_core (nextPc u c) hss hst
    rw [ht, hc, hcore]
  · exact (hkept.sys _ _ hmc).trans (sysGet_sysWrite_ne hne (by omega) hm)
  · rw [ht, aGet_complete _ hss hst, aGet_sysWrite (by omega) hspn]

/-- A SYSWR of CSTAT changes IM and DM only (R61). -/
theorem syswr_cstat {c : CoreId} {o : OpS} {s : State} (h : Runs s c) (hd : dOk c o.rt.toNat = true)
    (hcheck : sysCheck (fetched s c) c o.rt.toNat o.sys.toNat true (wordS o 0x002) = none) (ho : o.sys = 0x004) :
    let u := fetched s c
    let t := runInstr s c (bodySyswr c o)
    (getCore t c).pc = pcNext s c ∧
      (∀ i, bit (getCore t c).cstat i = if i = 4 ∨ i = 5 then bit (dGet u c o.rt.toNat) i else bit (getCore u c).cstat i) ∧
      (∀ n x, n < 0x1000 → isCounter n = false → sysGet t c n x = sysGet u c n x) ∧
      (∀ r, dGet t c r = dGet u c r) ∧ (∀ r, aGet t c r = aGet u c r) ∧ CoreOnly c u t := by
  intro u t
  obtain ⟨v, hv⟩ : ∃ v, v = dGet u c o.rt.toNat := ⟨_, rfl⟩
  obtain ⟨k, hk⟩ : ∃ k : Core, k = { getCore u c with cstat := writeFields cstatFields false (getCore u c).cstat v } := ⟨_, rfl⟩
  have htgt : sysTarget u c o.sys.toNat = 0x004 := by rw [ho]; exact sysTarget_of_plain (.inl (by decide))
  have hb : bodySyswr c o u = (.done (nextPc u c), setCore u c k) := by
    have hwrite : sysWriteEff u c 0x004 (0x004 != o.sys.toNat) (dGet u c o.rt.toNat) = setCore u c k := by rw [hk, hv]; rfl
    rw [bodySyswr_done hd hcheck (by rw [htgt]; decide), htgt, hwrite, nextPc, core_setCore_same, hk]
    rfl
  have ht : t = complete (setCore u c k) c (nextPc u c) := runInstr_done h hb
  have hbits : ∀ i, bit k.cstat i = if i = 4 ∨ i = 5 then bit v i else bit (getCore u c).cstat i := by
    intro i
    rw [hk]
    show bit (setFld (setFld (getCore u c).cstat 5 5 (fld v 5 5)) 4 4 (fld v 4 4)) i = _
    rw [bit_setFld _ _ _ _ _ (by decide) (by decide), bit_setFld _ _ _ _ _ (by decide) (by decide)]
    by_cases h4 : i = 4
    · subst h4
      rw [if_pos (by omega), fld_testBit]
      simp
    · by_cases h5 : i = 5
      · subst h5
        rw [if_neg (by omega), if_pos (by omega), fld_testBit]
        simp
      · have h4' : ¬(4 ≤ i ∧ i ≤ 4) := by omega
        have h5' : ¬(5 ≤ i ∧ i ≤ 5) := by omega
        simp only [h4, h5, h4', h5', if_false, or_self]
  have hss : bit (getCore (setCore u c k) c).cstat 7 = false := by
    rw [core_setCore_same, hbits]
    exact h.ss
  have hst : (getCore (setCore u c k) c).stepping = false := by
    rw [core_setCore_same, hk]
    exact h.free
  have hlow : ∀ i, i < 4 → bit k.cstat i = bit (getCore u c).cstat i := fun i hi => by rw [hbits, if_neg (by omega)]
  have hpl : plOf k = plOf (getCore u c) := by
    apply Nat.eq_of_testBit_eq
    intro i
    rw [plOf, plOf, fld_testBit, fld_testBit]
    by_cases hi : i < 2
    · rw [hlow _ (by omega)]
    · have : ¬(i < 1 + 1 - 0) := by omega
      simp [this]
  have hkept : RegsKept c u t := by
    rw [ht]
    exact (RegsKept.setCore (by rw [hk]) (by rw [hk]) (by rw [hk]) (by rw [hk])).trans (complete_regsKept _ hss hst)
  obtain ⟨_, _, hc⟩ := complete_core (nextPc u c) hss hst
  refine ⟨by rw [ht, pc_complete _ hss hst]; rfl, fun i => ?_, fun n x _ hn => hkept.sys n x hn, dGet_congr hkept.d, fun r => ?_, hkept.rest⟩
  · rw [ht, hc, core_setCore_same, hbits, hv]
  · have he : ∀ n w, sysEff (setCore u c k) c n w = sysEff u c n w := fun n w =>
      sysEff_congr (by rw [core_setCore_same, hk]) (sysGet_congr (by rw [core_setCore_same, hk]) n w)
    have hsec : secOf k = secOf (getCore u c) := hlow 2 (by decide)
    have ha : k.a = (getCore u c).a := by rw [hk]
    rw [ht, aGet_complete _ hss hst]
    simp only [aGet, core_setCore_same, hpl, hsec, he, ha]

/-! ### The statement -/

/-- The registers the statement names as plain storage need no more than a reading of their copy. -/
theorem plain_reads : ∀ n ∈ [0x005, 0x006, 0x007, 0x010, 0x100, 0x101, 0x102, 0x103, 0x104, 0x200, 0x203, 0x301, 0x400, 0x402, 0x410, 0x421,
    0x500, 0x540, 0x600, 0x710, 0x901, 0x930, 0xA00, 0xC00], n ∉ readSpecial ∧ (n < 0x800 ∨ 0x804 < n) := by decide

/-- The registers the statement names as written have one plain field each. -/
theorem plain_writes : ∀ p ∈ ([(0x100, 63, 12), (0x101, 63, 2), (0x104, 63, 0), (0x108, 63, 0), (0x400, 51, 12), (0x401, 51, 12),
    (0x010, 63, 3), (0x011, 63, 3), (0x012, 63, 3), (0x013, 63, 3), (0x014, 63, 3), (0x015, 63, 3)] : List (Nat × Nat × Nat)),
    ((sysInfo p.1).map (·.fields)).getD [] = [fRW p.2.1 p.2.2] ∧ p.1 ∉ writeSpecial ∧ p.1 < 0x800 ∧ isCounter p.1 = false ∧
      p.1 ∉ [0x007, 0x107, 0x207, 0x307] ∧ p.2.1 < 64 ∧ p.2.2 ≤ p.2.1 := by decide

/-- Settles O8: NOP, then reads by the kind of register, then writes of one plain field and of CSTAT. -/
theorem systemRegisterReadAndWrite : Obligations.SystemRegisterReadAndWrite := by
  intro c s h u w
  refine ⟨⟨_, rfl, runInstr_pc h rfl⟩, fun o hd hcheck => ⟨fun ho => ?_, fun ho hg => ?_, fun ho => ?_⟩,
    fun o hd hcheck => ⟨fun p hp ho hc => ?_, fun ho => ⟨_, rfl, syswr_cstat h hd hcheck ho⟩⟩⟩
  · refine exec_sysrd_retired h hd hcheck ?_
    rw [ho, sysTarget_of_plain (.inl (by decide))]
    rfl
  · refine exec_sysrd_retired h hd hcheck ?_
    rw [ho, sysTarget_of_plain (.inl (by decide))]
    show (if guestView u c 0 then _ else u.ptime, u) = _
    rw [hg]
    rfl
  · obtain ⟨hspecial, hplain⟩ := plain_reads _ ho
    refine exec_sysrd_retired h hd hcheck ?_
    rw [sysTarget_of_plain hplain, sysRead_plain hspecial]
  · obtain ⟨hfield, hspecial, hlt, hcnt, hsp, hhi, hlo⟩ := plain_writes p hp
    rw [← show sysInfoOf c p.1 = sysInfo p.1 from if_neg hc] at hfield
    obtain ⟨hpc, hcstat, hval, hrest⟩ := syswr_plain h hd hcheck ho hfield hspecial hlt hcnt hsp
    refine ⟨_, rfl, hpc, hcstat, ?_, fun i hi => ?_, hrest⟩
    · rw [hval, fld_setFld_fld _ _ _ _ hhi hlo]
    · rw [hval, bit_setFld_outside _ _ _ _ _ hhi hlo hi]

end Sys2Proof.Machine
end

section
/-! PROOFS. TLB invalidation at the issuing core and at a target (R129, R130, R211, R213). -/
namespace Sys2Proof.Machine

open Sys2Proof

/-! ### What leaves the cached translations and the awaited cores as they were -/

/-- From s to t no core's cached translations and no core's list of awaited cores changed, and no invalidation was queued or taken. -/
structure TinvKept (s t : State) : Prop where
  queue : t.tinvQ = s.tinvQ
  tlb : ∀ c, (getCore t c).tlb = (getCore s c).tlb
  out : ∀ c, (getCore t c).tinvOut = (getCore s c).tinvOut

theorem TinvKept.refl (s : State) : TinvKept s s := ⟨rfl, fun _ => rfl, fun _ => rfl⟩

theorem TinvKept.trans {s t u : State} (h1 : TinvKept s t) (h2 : TinvKept t u) : TinvKept s u :=
  ⟨h2.queue.trans h1.queue, fun c => (h2.tlb c).trans (h1.tlb c), fun c => (h2.out c).trans (h1.out c)⟩

/-- A change of core c alone, outside the two lists. -/
theorem TinvKept.of_coreOnly {c : Nat} {s t : State} (h : CoreOnly c s t) (htlb : (getCore t c).tlb = (getCore s c).tlb)
    (hout : (getCore t c).tinvOut = (getCore s c).tinvOut) : TinvKept s t where
  queue := by
    have e := congrArg State.tinvQ h.1
    exact e
  tlb c' := by
    by_cases hc : c' = c
    · rw [hc, htlb]
    · rw [h.2 c' hc]
  out c' := by
    by_cases hc : c' = c
    · rw [hc, hout]
    · rw [h.2 c' hc]

theorem TinvKept.setCore {s : State} {c : Nat} {k : Core} (htlb : k.tlb = (getCore s c).tlb) (hout : k.tinvOut = (getCore s c).tinvOut) :
    TinvKept s (setCore s c k) :=
  .of_coreOnly (CoreOnly.setCore ..) (by rw [core_setCore_same, htlb]) (by rw [core_setCore_same, hout])

theorem TinvKept.sysSet (s : State) (c n : Nat) (w : Bool) (v : Word) : TinvKept s (sysSet s c n w v) :=
  .setCore (by rfl) (by rfl)

theorem TinvKept.counted {c : Nat} {s t : State} (h : Counted c s t) : TinvKept s t :=
  .of_coreOnly h.only (by rw [← h.same]) (by rw [← h.same])

/-- An exception of the local target. -/
theorem takeExcAt_tinvKept (s : State) (c : Nat) {e : Exc} (ht : e.tgt = .local_) (epc esyn : Word) : TinvKept s (takeExcAt s c e epc esyn) := by
  have hlt := plOf_lt (getCore s c)
  have hentered := takeExcAt_entered s c e epc esyn (localTgt (getCore s c)) (by rw [ht]; rfl)
    (by rw [localTgt_eq_max]; omega) (by rw [localTgt_eq_max]; omega)
  have hcount := TinvKept.counted (countEvent_counted s c 0x012)
  refine .of_coreOnly hentered.rest ?_ ?_
  · rw [← hcount.tlb c]
    unfold takeExcAt
    dsimp only
    split <;> split <;> split <;> simp only [dropPredictors, dropResv, core_setCore_same, sysSet_core]
  · rw [← hcount.out c]
    unfold takeExcAt
    dsimp only
    split <;> split <;> split <;> simp only [dropPredictors, dropResv, core_setCore_same, sysSet_core]

theorem stepHalt_tinvKept (s : State) (c : Nat) : TinvKept s (stepHalt s c) := by
  unfold stepHalt
  dsimp only
  split
  · exact TinvKept.trans (.setCore (by rfl) (by rfl)) (.sysSet ..)
  · exact .refl s

theorem retireAt_tinvKept (s : State) (c : Nat) (pc : Word) : TinvKept s (retireAt s c pc) := by
  have hcount : TinvKept s (if c = mpCore then countEvent s c 0x003 else retireSteps (countEvent s c 0x003) c) := by
    have h := TinvKept.counted (countEvent_counted s c 0x003)
    split
    · exact h
    · exact h.trans (.counted (retireSteps_counted ..))
  unfold retireAt
  dsimp only
  split
  · exact (hcount.trans (.setCore (by rfl) (by rfl))).trans (takeExcAt_tinvKept _ c (by rfl) _ _)
  · exact hcount.trans (.setCore (by rfl) (by rfl))

theorem complete_tinvKept (s : State) (c : Nat) (pc : Word) : TinvKept s (complete s c pc) :=
  (retireAt_tinvKept s c pc).trans (stepHalt_tinvKept _ c)

theorem tryBar_tinvKept (s : State) (c : Nat) : TinvKept s (tryBar s c) := by
  unfold tryBar
  dsimp only
  split
  · exact .refl s
  next b _ =>
    split
    · have hbar : TinvKept s (setCore s c { getCore s c with bar := none }) := .setCore (by rfl) (by rfl)
      split
      · exact (hbar.trans (.setCore (by rfl) (by rfl))).trans (complete_tinvKept _ c _)
      · exact hbar.trans (complete_tinvKept _ c _)
    · exact .refl s

/-! ### The issuing core -/

/-- A package alone in its cascade queues an invalidation for its own cores (R130). -/
theorem sendTinv_alone {s : State} {c : Nat} (t : Tinv) (h : ∀ p ∈ s.admitted, p = s.pkg) :
    sendTinv s c t = tinvSpread (setCore s c { getCore s c with tinvOut := (getCore s c).tinvOut ++ tinvTargets s }) t := by
  have hany : s.admitted.any (fun p => p != s.pkg) = false := by
    rw [List.any_eq_false]
    exact fun p hp => by simp [h p hp]
  simp [sendTinv, hany]

theorem bodyTinv_done {s : State} {c : Nat} {o : OpS} {sf : Nat} {kind : TinvKind} (hc : c ≠ 240)
    (hok : okS c o (kind != .all) false = true) (hpl : plOf (getCore s c) = 1)
    (htrap : bit (sysEff s c 0x501 (secOf (getCore s c))) 1 = false) (hsb : (getCore s c).sb = []) :
    let v := sendTinv s c (tinvOf s c kind (dGet s c o.rt.toNat))
    bodyTinv c o sf kind s = (.done (nextPc v c), v) := by
  have hm : c ≠ mpCore := hc
  simp [bodyTinv, hok, hpl, htrap, hsb, hm]

/-- What a TINV of a core at PL1 does when its earlier stores have been performed (R130, R213). -/
theorem runInstr_tinv {s : State} {c : CoreId} {o : OpS} {sf : Nat} {kind : TinvKind} (h : Runs s c) (hc : c.val ≠ 240)
    (hok : okS c o (kind != .all) false = true) (hpl : plOf (getCore (fetched s c) c) = 1)
    (htrap : bit (sysEff (fetched s c) c 0x501 (secOf (getCore (fetched s c) c))) 1 = false) (hsb : (getCore (fetched s c) c).sb = [])
    (halone : ∀ p ∈ (fetched s c).admitted, p = (fetched s c).pkg) {x : Tinv}
    (hx : tinvOf (fetched s c) c kind (dGet (fetched s c) c o.rt.toNat) = x) :
    let u := fetched s c
    let t := runInstr s c (bodyTinv c o sf kind)
    (getCore t c).pc = pcNext s c ∧
      t.tinvQ = u.tinvQ ++ (tinvTargets u).map (fun d => (d, x)) ∧ (getCore t c).tinvOut = (getCore u c).tinvOut ++ tinvTargets u ∧
      (∀ r, dGet t c r = dGet u c r) ∧ (∀ r, aGet t c r = aGet u c r) ∧ (getCore t c).cstat = (getCore u c).cstat ∧
      (∀ c', c' ≠ c.val → getCore t c' = getCore u c') := by
  intro u t
  obtain ⟨v, hv⟩ : ∃ v, v = sendTinv u c x := ⟨_, rfl⟩
  have hcore : getCore v c = { getCore u c with tinvOut := (getCore u c).tinvOut ++ tinvTargets u } := by
    rw [hv, sendTinv_alone x halone]
    exact core_setCore_same ..
  have hb : bodyTinv c o sf kind u = (.done (nextPc v c), v) := by
    rw [hv, ← hx]
    exact bodyTinv_done hc hok hpl htrap hsb
  have ht : t = complete v c (nextPc v c) := runInstr_done h hb
  have hss : bit (getCore v c).cstat 7 = false := by rw [hcore]; exact h.ss
  have hst : (getCore v c).stepping = false := by rw [hcore]; exact h.free
  have hkept := complete_regsKept (nextPc v c) hss hst
  obtain ⟨_, _, hfinal⟩ := complete_core (nextPc v c) hss hst
  have hpc : nextPc v c = nextPc u c := by rw [nextPc, hcore]; rfl
  rw [← ht] at hkept hfinal
  refine ⟨by rw [ht, pc_complete _ hss hst, hpc]; rfl, ?_, by rw [hfinal, hcore], fun r => ?_, fun r => ?_, by rw [hfinal, hcore],
    fun c' hc' => ?_⟩
  · rw [(TinvKept.of_coreOnly hkept.rest (by rw [hfinal]) (by rw [hfinal])).queue, hv, sendTinv_alone x halone]
    rfl
  · exact (dGet_congr hkept.d r).trans (dGet_congr (by rw [hcore]) r)
  · rw [ht, aGet_complete _ hss hst]
    exact aGet_congr (by rw [hcore]) (by rw [hcore]) (by rw [hcore]) (by rw [hcore]) r
  · rw [hkept.rest.2 c' hc', hv, sendTinv_alone x halone]
    exact core_setCore_ne hc'

/-! ### A target -/

/-- The end of a core's part of a broadcast (R130): only the issuing core's list of awaited cores changes, besides a barrier of that core. -/
theorem tinvAck_frame (s : State) (i c : Nat) :
    (tinvAck s i c).tinvQ = s.tinvQ ∧ (∀ d, (getCore (tinvAck s i c) d).tlb = (getCore s d).tlb) ∧
      (getCore (tinvAck s i c) i).tinvOut = (getCore s i).tinvOut.erase c := by
  obtain ⟨k, hk⟩ : ∃ k, k = { getCore s i with tinvOut := (getCore s i).tinvOut.erase c } := ⟨_, rfl⟩
  have h := tryBar_tinvKept (setCore s i k) i
  have ht : tinvAck s i c = tryBar (setCore s i k) i := by rw [hk]; rfl
  rw [ht]
  refine ⟨h.queue, fun d => ?_, ?_⟩
  · rw [h.tlb]
    by_cases hd : d = i
    · rw [hd, core_setCore_same, hk]
    · rw [core_setCore_ne hd]
  · rw [h.out, core_setCore_same, hk]

/-- What a broadcast's progress leaves: the queue of the cores and their cached translations. -/
structure TlbKept (s t : State) : Prop where
  queue : t.tinvQ = s.tinvQ
  tlb : ∀ c, (getCore t c).tlb = (getCore s c).tlb

theorem tinvAck_tlbKept (s : State) (i c : Nat) : TlbKept s (tinvAck s i c) := by
  obtain ⟨hqueue, htlb, _⟩ := tinvAck_frame s i c
  exact ⟨hqueue, htlb⟩

theorem bcastPart_tlbKept (s : State) (p n : Nat) : TlbKept s (bcastPart s p n) := by
  have hsent : TlbKept s (if p = s.pkg ∧ isMaster s = false then bcastSend s 0 n true none else s) := by
    split <;> exact ⟨rfl, fun _ => rfl⟩
  unfold bcastPart
  dsimp only
  generalize (if p = s.pkg ∧ isMaster s = false then bcastSend s 0 n true none else s) = u at hsent ⊢
  obtain ⟨hqueue, htlb⟩ := hsent
  split
  · exact ⟨hqueue, htlb⟩
  next b _ =>
    split
    · exact ⟨hqueue, htlb⟩
    · split
      · exact ⟨hqueue, htlb⟩
      · split
        · obtain ⟨hq, ht⟩ := tinvAck_tlbKept { u with bcasts := u.bcasts.erase b } (coreOfStop b.src) 0xFFF
          exact ⟨hq.trans hqueue, fun c => (ht c).trans (htlb c)⟩
        · exact ⟨hqueue, htlb⟩

theorem bcastHere_tlbKept (s : State) (n : Nat) : TlbKept s (bcastHere s n) := by
  unfold bcastHere
  split
  · exact ⟨rfl, fun _ => rfl⟩
  · exact bcastPart_tlbKept s s.pkg n

/-- An invalidation at a core that has one waiting: the entries in scope go and no other, and its issuing core no longer awaits it. -/
theorem tinvArrive_spec {s : State} {c : Nat} {x : Tinv} (h : s.tinvQ.find? (fun p => p.1 == c) = some (c, x)) :
    (tinvArrive s c).tinvQ = s.tinvQ.erase (c, x) ∧
      (getCore (tinvArrive s c) c).tlb = (getCore s c).tlb.filter (fun e => !(tinvHits x e)) ∧
      (x.from_ ≠ c → x.from_ ≤ 240 → (getCore (tinvArrive s c) x.from_).tinvOut = (getCore s x.from_).tinvOut.erase c) := by
  obtain ⟨u, hu⟩ : ∃ u, u = setCore { s with tinvQ := s.tinvQ.erase (c, x) } c
      { getCore s c with tlb := (getCore s c).tlb.filter (fun e => !(tinvHits x e)), pages := [] } := ⟨_, rfl⟩
  have harrive : tinvArrive s c = if x.from_ ≤ mpCore then tinvAck u x.from_ c else bcastHere u (x.from_ - bcastTag 0) := by
    rw [hu]
    simp only [tinvArrive, h]
    rfl
  have hcore : getCore u c = { getCore s c with tlb := (getCore s c).tlb.filter (fun e => !(tinvHits x e)), pages := [] } := by
    rw [hu]
    exact core_setCore_same ..
  have hqueue : u.tinvQ = s.tinvQ.erase (c, x) := by rw [hu]; rfl
  have hkept : TlbKept u (tinvArrive s c) := by
    rw [harrive]
    split
    · exact tinvAck_tlbKept ..
    · exact bcastHere_tlbKept ..
  refine ⟨hkept.queue.trans hqueue, by rw [hkept.tlb, hcore], fun hne hle => ?_⟩
  obtain ⟨_, _, hout⟩ := tinvAck_frame u x.from_ c
  have hother : getCore u x.from_ = getCore s x.from_ := by
    rw [hu]
    exact core_setCore_ne hne
  rw [harrive, if_pos (show x.from_ ≤ mpCore from hle), hout, hother]

/-- Settles O11: the four forms at PL1 by `runInstr_tinv`, and a target by `tinvArrive_spec`. -/
theorem tlbInvalidation : Obligations.TlbInvalidation := by
  unfold Obligations.TlbInvalidation
  refine ⟨?_, fun c x s h => ⟨_, rfl, tinvArrive_spec h⟩⟩
  intro c rt s h hc u w v hpl htrap hsb halone vm base p hp
  have haw : accWorld u c = w := if_neg (by omega)
  have hdOk : ∀ r, dOk c r = true := fun r => by
    have hm : c.val ≠ mpCore := hc
    simp [dOk, hm]
  have htinv : ∀ kind y, tinvOf u c kind y =
      match kind with
      | .va => { base with kind := .va, asid := fld y 60 45, allAsid := bit y 61, last := bit y 62, vpn := fld y 44 0 }
      | .asid => { base with kind := .asid, asid := fld y 15 0 }
      | .vmid => base
      | .all => base := by
    intro kind y
    cases kind <;> simp [tinvOf, hpl, haw, curVmid, base, vm]
  simp only [List.mem_cons, List.not_mem_nil, or_false] at hp
  obtain rfl | rfl | rfl | rfl := hp
  · exact ⟨_, rfl, runInstr_tinv h hc (by simp [okS, hdOk]) hpl htrap hsb halone (htinv .va v)⟩
  · exact ⟨_, rfl, runInstr_tinv h hc (by simp [okS, hdOk]) hpl htrap hsb halone (htinv .asid v)⟩
  · exact ⟨_, rfl, runInstr_tinv h hc (by simp [okS, hdOk]) hpl htrap hsb halone (htinv .vmid v)⟩
  · exact ⟨_, rfl, runInstr_tinv h hc (by simp [okS]) hpl htrap hsb halone (htinv .all _)⟩

end Sys2Proof.Machine
end

section
/-! PROOFS. Effective addresses, DATA_ALIGN and Q_DISABLED (R57, R60, R67, R80, R96). -/
namespace Sys2Proof.Machine

open Sys2Proof

/-! ### Effective addresses -/

theorem trunc_of_ne {c : Nat} (h : c ≠ 240) (v : Word) : trunc c v = v := if_neg h

theorem addrOf_of_ne {c : Nat} (h : c ≠ 240) (v : Word) : addrOf c v = v.toNat := by rw [addrOf, trunc_of_ne h]

theorem eaM_offset {s : State} {c : Nat} {o : OpM} (size : Nat) (hc : c ≠ 240) (hm : o.mode = 0) :
    eaM s c o size = ⟨(aGet s c o.ab.toNat + o.imm.signExtend 64 * BitVec.ofNat 64 size).toNat, none⟩ := by
  simp only [eaM, hm, addrOf_of_ne hc, sext]
  rfl

theorem eaM_pre {s : State} {c : Nat} {o : OpM} (size : Nat) (hc : c ≠ 240) (hm : o.mode = 1) :
    eaM s c o size = ⟨(aGet s c o.ab.toNat + o.imm.signExtend 64 * BitVec.ofNat 64 size).toNat,
      some (aGet s c o.ab.toNat + o.imm.signExtend 64 * BitVec.ofNat 64 size)⟩ := by
  simp only [eaM, hm, addrOf_of_ne hc, sext]
  rfl

theorem eaM_post {s : State} {c : Nat} {o : OpM} (size : Nat) (hc : c ≠ 240) (hm : o.mode = 2) :
    eaM s c o size = ⟨(aGet s c o.ab.toNat).toNat,
      some (aGet s c o.ab.toNat + o.imm.signExtend 64 * BitVec.ofNat 64 size)⟩ := by
  simp only [eaM, hm, addrOf_of_ne hc, sext]
  rfl

theorem bitsOf_toNat {w : Nat} (x : BitVec w) (hi lo : Nat) : bitsOf x.toNat hi lo = (x.extractLsb' lo (hi + 1 - lo)).toNat := by
  simp [bitsOf, Nat.shiftRight_eq_div_pow]

theorem eaM_index {s : State} {c : Nat} {o : OpM} (size : Nat) (hc : c ≠ 240) (hm : o.mode = 3) :
    eaM s c o size = ⟨(aGet s c o.ab.toNat +
      (dGet s c (o.imm.extractLsb' 10 5).toNat <<< (o.imm.extractLsb' 8 2).toNat)).toNat, none⟩ := by
  simp only [eaM, hm, addrOf_of_ne hc, bitsOf_toNat]
  rfl

theorem eaN_eq {s : State} {c : Nat} {o : OpN} (size : Nat) (hc : c ≠ 240) :
    eaN s c o size = (sysGet s c (0x010 + o.bk.toNat) (accWorld s c) + o.off.setWidth 64 * BitVec.ofNat 64 size).toNat := by
  rw [eaN, addrOf_of_ne hc, bkGet, zext]

/-! ### DATA_ALIGN -/

/-- An exception of the local target with a direction and an address. -/
def alignExc (wr : Bool) (va : Nat) : Exc := { cls := 0x0A, wnr := wr, eaddr := BitVec.ofNat 64 va }

theorem checkAccess_misaligned {s : State} {c va size : Nat} {kind : AccKind} {op : OpClass} {fresh : Bool} (hc : c ≠ 240)
    (hachk : bit (sysEff s c 0x600 (secOf (getCore s c))) 1 = true) (hmis : va % size ≠ 0) :
    checkAccess s c va size kind op fresh = (.exc (alignExc (kind == .write || kind == .rw) va), s) := by
  have hm : c ≠ mpCore := hc
  simp [checkAccess, achkOn, hachk, hmis, hm, alignExc]

/-- The syndrome of an exception of an access (R79): its direction, no stage, deferral or table level. -/
theorem esynOf_access (cls : Nat) (wr : Bool) (eaddr : Word) :
    esynOf { cls := cls, wnr := wr, eaddr := eaddr } = BitVec.ofNat 64 (cls * 2 ^ 56 + wr.toNat * 2 ^ 54 + 0x001C000000000000) := by
  simp [esynOf]

theorem esynOf_align_load (va : Nat) : esynOf (alignExc false va) = 0x0A1C000000000000 := by
  rw [alignExc, esynOf_access, Bool.toNat_false]
  rfl

theorem esynOf_align_store (va : Nat) : esynOf (alignExc true va) = 0x0A5C000000000000 := by
  rw [alignExc, esynOf_access, Bool.toNat_true]
  rfl

/-- DATA_ALIGN is raised at the local target with its address (R80, R96). -/
theorem runInstr_align_entered {s : State} {c : Nat} {body : State → Res × State} {wr : Bool} {va : Nat} (h : Runs s c)
    (hb : body (fetched s c) = (.exc (alignExc wr va), fetched s c)) :
    Entered c (fetched s c) (runInstr s c body) (max 1 (plOf (getCore (fetched s c) c))) (getCore (fetched s c) c).pc
      (esynOf (alignExc wr va)) (BitVec.ofNat 64 va)
      (if plOf (getCore (fetched s c) c) = 0 then 0x200 else 0x100) := by
  have hpl := plOf_lt (getCore (fetched s c) c)
  rw [runInstr_exc h hb, ← vecOff_local (cls := 0x0A) (by decide) (by decide)]
  exact raise_entered (e := alignExc wr va) h.free (localTgt_eq_max _) (by omega) (by omega)

theorem bodyLdM_misaligned {s : State} {c : Nat} {o : OpM} {maj size : Nat} {e : Seen} (hc : c ≠ 240) (hok : okM c o false = true)
    (hachk : bit (sysEff s c 0x600 (secOf (getCore s c))) 1 = true) (hmis : (eaM s c o size).ea % size ≠ 0) :
    bodyLdM c o maj size e s = (.exc (alignExc false (eaM s c o size).ea), s) := by
  have hm : c ≠ mpCore := hc
  rw [bodyLdM, guardWord_of_ok (by simp [dOk, hm, hok])]
  simp only [doLoad, checkAccess_misaligned hc hachk hmis]
  rfl

theorem bodyStM_misaligned {s : State} {c : Nat} {o : OpM} {maj size : Nat} {e : Seen} (hc : c ≠ 240) (hok : okM c o false = true)
    (hachk : bit (sysEff s c 0x600 (secOf (getCore s c))) 1 = true) (hmis : (eaM s c o size).ea % size ≠ 0) :
    bodyStM c o maj size e s = (.exc (alignExc true (eaM s c o size).ea), s) := by
  have hm : c ≠ mpCore := hc
  rw [bodyStM, guardWord_of_ok (by simp [dOk, hm, hok])]
  simp only [doStore, checkAccess_misaligned hc hachk hmis]
  rfl

/-! ### Q_DISABLED -/

/-- Q instructions are disabled at PL0 and PL1 only, towards PL1 or PL2 (R57). -/
theorem qDisabled_level {s : State} {c lvl : Nat} (h : qDisabled s c = some lvl) :
    plOf (getCore s c) ≤ 1 ∧ 1 ≤ lvl ∧ lvl ≤ 2 := by
  simp only [qDisabled] at h
  split at h
  next hpl =>
    split at h
    · cases h
      exact ⟨hpl, by decide, by decide⟩
    · split at h
      · cases h
      · cases h
        exact ⟨hpl, by decide, by decide⟩
  · cases h

theorem wordM_lt {maj : Nat} (o : OpM) (h : maj < 64) : wordM maj o < 2 ^ 32 := by
  have := o.rt.isLt
  have := o.ab.isLt
  have := o.mode.isLt
  have := o.imm.isLt
  unfold wordM
  omega

/-- A load of an accumulator where they are disabled raises Q_DISABLED at the level that disabled them (R57, R80). -/
theorem ldQ_disabled_entered {s : State} {c : Nat} {o : OpM} {e : Seen} {lvl : Nat} (h : Runs s c) (hc : c ≠ 240)
    (hok : okM c o false = true) (hrt : o.rt.toNat < 8) (hq : qDisabled (fetched s c) c = some lvl) :
    Entered c (fetched s c) (runInstr s c (bodyLdQ c o e)) lvl (getCore (fetched s c) c).pc
      (BitVec.ofNat 64 (0x081C000000000000 + wordM 0x2A o)) 0 (if lvl = plOf (getCore (fetched s c) c) then 0x100 else 0x200) := by
  have hm : c ≠ mpCore := hc
  have hb : bodyLdQ c o e (fetched s c) = (.exc { cls := 0x08, tgt := .pl lvl, detail := wordM 0x2A o }, fetched s c) := by
    rw [bodyLdQ, guardWord_of_ok (by simp [hm, hrt, hok])]
    simp only [qGuard, hq]
  obtain ⟨hpl, h1, h2⟩ := qDisabled_level hq
  rw [runInstr_exc h hb]
  have hentered := raise_entered (s := fetched s c) (c := c) (lvl := lvl)
    (e := { cls := 0x08, tgt := .pl lvl, detail := wordM 0x2A o }) h.free (by simp only [excTarget]; omega) h1 (by omega)
  rw [esynOf_plain (.pl lvl) 0 (wordM_lt o (by decide))] at hentered
  have hvec : vecOff 0x08 false (lvl == plOf (getCore (fetched s c) c)) =
      if lvl = plOf (getCore (fetched s c) c) then 0x100 else 0x200 := by
    by_cases he : lvl = plOf (getCore (fetched s c) c) <;> simp [vecOff, he]
  rwa [hvec] at hentered

/-! ### The statement -/

/-- Settles O14: the four modes and the N format, then DATA_ALIGN of the six aligned sizes, then Q_DISABLED. -/
theorem addressesAndAccessFaults : Obligations.AddressesAndAccessFaults := by
  refine ⟨fun c u size hc => ⟨fun o => ⟨eaM_offset size hc, eaM_pre size hc, eaM_post size hc, eaM_index size hc⟩, fun o => eaN_eq size hc⟩, ?_⟩
  intro c e o s h hc hok u pl off
  refine ⟨fun hachk q hq hmis => ?_, fun hrt lvl hdis => ⟨_, rfl, ldQ_disabled_entered h hc hok hrt hdis⟩⟩
  simp only [List.mem_cons, List.not_mem_nil, or_false] at hq
  obtain rfl | rfl | rfl | rfl | rfl | rfl := hq
  · exact ⟨_, rfl, esynOf_align_load _ ▸ runInstr_align_entered h (bodyLdM_misaligned hc hok hachk hmis)⟩
  · exact ⟨_, rfl, esynOf_align_load _ ▸ runInstr_align_entered h (bodyLdM_misaligned hc hok hachk hmis)⟩
  · exact ⟨_, rfl, esynOf_align_load _ ▸ runInstr_align_entered h (bodyLdM_misaligned hc hok hachk hmis)⟩
  · exact ⟨_, rfl, esynOf_align_store _ ▸ runInstr_align_entered h (bodyStM_misaligned hc hok hachk hmis)⟩
  · exact ⟨_, rfl, esynOf_align_store _ ▸ runInstr_align_entered h (bodyStM_misaligned hc hok hachk hmis)⟩
  · exact ⟨_, rfl, esynOf_align_store _ ▸ runInstr_align_entered h (bodyStM_misaligned hc hok hachk hmis)⟩

end Sys2Proof.Machine
end

section
/-! PROOFS. Registers written one after the other, and loads of normal memory (R60, R67, R95, R97, R224). -/
namespace Sys2Proof.Machine

open Sys2Proof

/-! ### Registers written one after the other -/

/-- From v to x core c wrote general registers, which now are D, A and Q, and counted events; nothing else of the block changed. -/
structure RegsAt (c : Nat) (v x : State) (D A : Nat → Word) (Q : Nat → QWord) : Prop where
  d : dGet x c = D
  a : aGet x c = A
  q : qGet x c = Q
  core : ∃ d a q sys stale left, getCore x c =
    { getCore v c with d := d, a := a, q := q, sys := sys, stale := stale, stepLeft := left }
  sys : ∀ n w, n < 0x1000 → isCounter n = false → n ≠ spNum (plOf (getCore v c)) → sysGet x c n w = sysGet v c n w
  rest : CoreOnly c v x

section
variable {c : Nat} {v x : State} {D A : Nat → Word} {Q : Nat → QWord}

theorem RegsAt.of_counted (h : Counted c v x) : RegsAt c v x (dGet v c) (aGet v c) (qGet v c) := by
  obtain ⟨_, _, hd, _, hq, _⟩ := h.fields
  refine ⟨funext (dGet_congr hd), funext h.aGet, funext (qGet_congr hq), ?_, fun n w _ hn _ => h.sys n w hn, h.only⟩
  exact ⟨_, _, _, (getCore x c).sys, _, (getCore x c).stepLeft, by rw [← h.same]⟩

theorem RegsAt.refl (c : Nat) (v : State) : RegsAt c v v (dGet v c) (aGet v c) (qGet v c) := .of_counted (.refl c v)

theorem RegsAt.plOf_eq (h : RegsAt c v x D A Q) : plOf (getCore x c) = plOf (getCore v c) := by
  obtain ⟨_, _, _, _, _, _, hc⟩ := h.core
  rw [hc]
  rfl

/-- A D register is written. -/
theorem RegsAt.dSet (h : RegsAt c v x D A Q) (r : Nat) (y : Word) : RegsAt c v (dSet x c r y) (dUpd D r (trunc c y)) A Q := by
  obtain ⟨d, hd⟩ := core_dSet x c r y
  obtain ⟨_, a, q, sys, stale, left, hc⟩ := h.core
  refine ⟨by rw [dGet_dSet, h.d], by rw [aGet_dSet, h.a], by rw [qGet_dSet, h.q], ⟨d, a, q, sys, stale, left, by rw [hd, hc]⟩,
    fun n w hn hcnt hsp => ?_, h.rest.trans (CoreOnly.dSet ..)⟩
  exact (sysGet_congr (by rw [hd]) n w).trans (h.sys n w hn hcnt hsp)

/-- An A register is written. -/
theorem RegsAt.aSet (h : RegsAt c v x D A Q) (r : Nat) (y : Word) : RegsAt c v (aSet x c r y) D (regUpd A r (trunc c y)) Q := by
  obtain ⟨a, sys, stale, ha⟩ := core_aSet x c r y
  obtain ⟨d, _, q, _, _, left, hc⟩ := h.core
  refine ⟨by rw [dGet_aSet, h.d], by rw [aGet_aSet, h.a], by rw [qGet_aSet, h.q], ⟨d, a, q, sys, stale, left, by rw [ha, hc]⟩,
    fun n w hn hcnt hsp => ?_, h.rest.trans (CoreOnly.aSet ..)⟩
  exact (sysGet_aSet hn (by rwa [h.plOf_eq])).trans (h.sys n w hn hcnt hsp)

/-- A Q register is written. -/
theorem RegsAt.qSet (h : RegsAt c v x D A Q) (r : Nat) (y : QWord) : RegsAt c v (qSet x c r y) D A (regUpd Q r y) := by
  have hq : getCore (Machine.qSet x c r y) c = { getCore x c with q := tset 0 r y (getCore x c).q } := core_setCore_same ..
  obtain ⟨d, a, _, sys, stale, left, hc⟩ := h.core
  refine ⟨?_, ?_, by rw [qGet_qSet, h.q], ⟨d, a, _, sys, stale, left, by rw [hq, hc]⟩, fun n w hn hcnt hsp => ?_,
    h.rest.trans (CoreOnly.setCore ..)⟩
  · rw [← h.d]
    exact funext (dGet_congr (by rw [hq]))
  · rw [← h.a]
    exact funext (aGet_congr (by rw [hq]) (by rw [hq]) (by rw [hq]) (by rw [hq]))
  · exact (sysGet_congr (by rw [hq]) n w).trans (h.sys n w hn hcnt hsp)

/-- An instruction that retires after its writes. -/
theorem RegsAt.retired (h : RegsAt c v x D A Q) (hss : bit (getCore v c).cstat 7 = false) (hst : (getCore v c).stepping = false)
    (pc : Word) : Retired c v (complete x c pc) D A Q (trunc c pc) := by
  obtain ⟨_, _, _, _, _, _, hc⟩ := h.core
  have hret := complete_retired (s := x) (pc := pc) h.rest (by rw [hc]) (by rw [hc]) h.sys hss (by rw [hc]; exact hst)
  rwa [h.d, h.a, h.q] at hret

theorem RegsAt.nextPc_eq (h : RegsAt c v x D A Q) : nextPc x c = nextPc v c := by
  obtain ⟨_, _, _, _, _, _, hc⟩ := h.core
  rw [nextPc, hc]
  rfl

end

/-! ### An access that lies in one line -/

theorem linePieces_single {va len : Nat} {x : XOk} {p : Piece} (h : linePieces va len x = [p]) :
    p.len = len ∧ p.pa % 64 + len ≤ 64 ∧ p.va = va := by
  unfold linePieces at h
  dsimp only at h
  split at h
  next hle =>
    obtain rfl := List.head_eq_of_cons_eq h
    have := Nat.mod_lt x.pa (show 0 < 64 by decide)
    exact ⟨rfl, by dsimp only; omega, rfl⟩
  · cases h

theorem linePieces_ne_nil (va len : Nat) (x : XOk) : linePieces va len x ≠ [] := by
  unfold linePieces
  dsimp only
  split <;> exact List.cons_ne_nil _ _

/-- An access of one part has all its bytes in it. -/
theorem checkAccess_single {s v : State} {c va size : Nat} {kind : AccKind} {op : OpClass} {fresh : Bool} {p : Piece}
    (h : checkAccess s c va size kind op fresh = (.ok [p], v)) : p.len = size ∧ p.pa % 64 + size ≤ 64 ∧ p.va = va := by
  unfold checkAccess at h
  dsimp only at h
  split at h
  · simp at h
  · split at h
    · simp at h
    · split at h
      · simp at h
      · split at h
        · simp at h
        · split at h <;> simp at h
      · split at h
        · exact linePieces_single (Checked.ok.inj (Prod.ext_iff.mp h).1)
        · split at h
          · simp at h
          · simp at h
          · have happ := Checked.ok.inj (Prod.ext_iff.mp h).1
            rcases List.append_eq_singleton_iff.mp happ with ⟨h1, _⟩ | ⟨_, h2⟩
            · exact (linePieces_ne_nil _ _ _ h1).elim
            · exact (linePieces_ne_nil _ _ _ h2).elim

/-! ### Reading a line the core holds -/

theorem arrFound_none (s : State) (c line : Nat) (own : Bool) : c ≠ 0xF0 → arrFound s c line .none_ own = s := by
  intro h
  unfold arrFound
  rw [if_neg h]
  split <;> rfl

/-- A line that the core's world may use stays where it is (R493). -/
theorem worldEvict_usable {s : State} {c line : Nat} {w : Bool} (h : (hline s c line).sec = true → w = true) :
    worldEvict s c line w = s := by
  have hcond : ¬((validSt (hline s c line).st && (hline s c line).sec && !w) = true) := by
    rw [Bool.and_eq_true, Bool.and_eq_true, Bool.not_eq_true']
    rintro ⟨⟨_, hsec⟩, hw⟩
    exact Bool.false_ne_true (hw.symm.trans (h hsec))
  exact if_neg hcond

/-- A line the core holds is read as it stands; an event may be counted (R277, R286). -/
theorem readWb_usable {s : State} {c line : Nat} {a : Attr} (hc : c ≠ 240) (hv : validSt (hline s c line).st = true)
    (hw : (hline s c line).sec = true → a.world = true) :
    readWb s c line a .none_ = (.data (hline s c line).data (hline s c line).poison, countFree s c 0x007 (line * 64)) := by
  unfold readWb
  rw [arrFound_none _ _ _ _ hc]
  dsimp only
  rw [worldEvict_usable hw]
  simp [hv]

theorem coreAttr_world {s : State} {c : Nat} (hc : c ≠ 240) (key : Nat) : (coreAttr s c key).world = accWorld s c := by
  rw [coreAttr, if_neg (show c ≠ mpCore from hc)]

/-- A load's part in a line the core holds reads the line under the core's own buffered stores (R97, R224). -/
theorem gather_usable {s : State} {c : Nat} {p : Piece} (hc : c ≠ 240) (hty : p.ty = .wb) (hu : Usable s c (p.pa / 64)) :
    ∃ w, Counted c s w ∧ gather s c .none_ [p] 0 0 =
      (.val (lineGet (overlay (getCore s c) (p.pa / 64) (hline s c (p.pa / 64)).data) (p.pa % 64) p.len), w) := by
  have hm : c ≠ mpCore := hc
  have hcount := countFree_counted s c 0x007 (p.pa / 64 * 64)
  refine ⟨_, hcount, ?_⟩
  have hsb : (getCore (countFree s c 0x007 (p.pa / 64 * 64)) c).sb = (getCore s c).sb := by rw [← hcount.same]
  have hread : readLine s c p .none_ = (.data (hline s c (p.pa / 64)).data false, countFree s c 0x007 (p.pa / 64 * 64)) := by
    have hplace : ¬((decide (c = mpCore) || p.ty == MemType.nc) = true) := by rw [hty]; simp [hm]
    refine (if_neg hplace).trans ?_
    rw [readWb_usable hc hu.valid (by rw [coreAttr_world hc]; exact hu.world), hu.clean]
  simp only [gather, hread, Bool.false_and, Bool.false_eq_true, if_false, overlay, hsb]
  simp

/-! ### Loads -/

/-- A load whose checks have passed and whose line the core holds (R95 to R98). -/
theorem doLoad_done {u v : State} {c va size : Nat} {d : LoadDst} {e : Seen} {p : Piece} (hc : c ≠ 240) (harr : e.arr = .none_)
    (ha : Access u v c va size .read (if d.cls = .q then .q else .plain) e.fresh p) (hu : Usable v c (p.pa / 64)) :
    ∃ w, Counted c v w ∧ doLoad c va size d e u = (.done (nextPc w c),
      finishLoad w c d (lineGet (overlay (getCore v c) (p.pa / 64) (hline v c (p.pa / 64)).data) (p.pa % 64) size)) := by
  have hm : c ≠ mpCore := hc
  obtain ⟨hlen, _, _⟩ := checkAccess_single ha.passes
  obtain ⟨w, hw, hg⟩ := gather_usable hc ha.wb hu
  refine ⟨w, hw, ?_⟩
  have hdev : p.ty ≠ .dev := by rw [ha.wb]; decide
  unfold doLoad
  simp only [ha.passes, hm, if_false, List.headD_cons, hdev, harr, hg, hlen]

/-- The writeback of an access's base. -/
def wbRegs (c : Nat) (v : State) (base : Option (Nat × Nat)) : Nat → Word :=
  match base with
  | some (r, x) => regUpd (aGet v c) r (BitVec.ofNat 64 x)
  | none => aGet v c

/-- A load into a D register retires (R67, R95). -/
theorem runInstr_load {s v : State} {c va size : Nat} {body : State → Res × State} {d : LoadDst} {e : Seen} {p : Piece}
    {D A : Nat → Word} {Q : Nat → QWord} (h : Runs s c) (hc : c ≠ 240) (harr : e.arr = .none_)
    (hb : body (fetched s c) = doLoad c va size d e (fetched s c))
    (ha : Access (fetched s c) v c va size .read (if d.cls = .q then .q else .plain) e.fresh p) (hu : Usable v c (p.pa / 64))
    (hfin : ∀ w, Counted c v w → RegsAt c v
      (finishLoad w c d (lineGet (overlay (getCore v c) (p.pa / 64) (hline v c (p.pa / 64)).data) (p.pa % 64) size)) D A Q) :
    Retired c v (runInstr s c body) D A Q ((getCore v c).pc + 4) := by
  obtain ⟨w, hw, hl⟩ := doLoad_done hc harr ha hu
  have hret := (hfin w hw).retired (by rw [ha.cstat]; exact h.ss) (ha.stepping.trans h.free) (nextPc w c)
  rw [trunc_of_ne hc, (RegsAt.of_counted hw).nextPc_eq] at hret
  rw [runInstr_done h (hb.trans hl), (RegsAt.of_counted hw).nextPc_eq]
  exact hret

/-- The base is written back. -/
theorem RegsAt.writeback {c : Nat} {v x : State} {D : Nat → Word} {Q : Nat → QWord} (hc : c ≠ 240) (h : RegsAt c v x D (aGet v c) Q)
    (base : Option (Nat × Nat)) :
    RegsAt c v (match base with
      | some (r, y) => Machine.aSet x c r (BitVec.ofNat 64 y)
      | none => x) D (wbRegs c v base) Q := by
  cases base with
  | none => exact h
  | some b =>
    have ha := h.aSet b.1 (BitVec.ofNat 64 b.2)
    rwa [trunc_of_ne hc] at ha

theorem finishLoad_d {c : Nat} {v w : State} (hc : c ≠ 240) (hw : Counted c v w) (rt : Nat) (base : Option (Nat × Nat)) (n : Nat) :
    RegsAt c v (finishLoad w c ⟨.d, rt, base⟩ n) (dUpd (dGet v c) rt (BitVec.ofNat 64 n)) (wbRegs c v base) (qGet v c) := by
  have h := ((RegsAt.of_counted hw).writeback hc base).dSet rt (BitVec.ofNat 64 n)
  rwa [trunc_of_ne hc] at h

theorem finishLoad_a {c : Nat} {v w : State} (hc : c ≠ 240) (hw : Counted c v w) (rt : Nat) (base : Option (Nat × Nat)) (n : Nat) :
    RegsAt c v (finishLoad w c ⟨.a, rt, base⟩ n) (dGet v c) (regUpd (wbRegs c v base) rt (BitVec.ofNat 64 n)) (qGet v c) := by
  have h := ((RegsAt.of_counted hw).writeback hc base).aSet rt (BitVec.ofNat 64 n)
  rwa [trunc_of_ne hc] at h

theorem finishLoad_q {c : Nat} {v w : State} (hc : c ≠ 240) (hw : Counted c v w) (rt : Nat) (base : Option (Nat × Nat)) (n : Nat) :
    RegsAt c v (finishLoad w c ⟨.q, rt, base⟩ n) (dGet v c) (wbRegs c v base) (regUpd (qGet v c) rt (BitVec.ofNat 256 n)) :=
  ((RegsAt.of_counted hw).writeback hc base).qSet rt (BitVec.ofNat 256 n)

/-- The writeback of an M-format access as the statements of R67 give it. -/
theorem wbRegs_wbOf (c : Nat) (v : State) (o : OpM) (a : EaM) : wbRegs c v (wbOf o a) =
    match a.wb with
    | some b => regUpd (aGet v c) o.ab.toNat b
    | none => aGet v c := by
  obtain ⟨_, wb⟩ := a
  cases wb <;> simp [wbRegs, wbOf]

theorem bodyLdM_ok {c : Nat} {o : OpM} {maj size : Nat} {e : Seen} (hc : c ≠ 240) (hok : okM c o false = true) (s : State) :
    bodyLdM c o maj size e s = doLoad c (eaM s c o size).ea size ⟨.d, o.rt.toNat, wbOf o (eaM s c o size)⟩ e s := by
  have hm : c ≠ mpCore := hc
  rw [bodyLdM, guardWord_of_ok (by simp [dOk, hm, hok])]

theorem bodyLdA_ok {c : Nat} {o : OpM} {e : Seen} (hc : c ≠ 240) (hrt : o.rt.toNat < 16) (hok : okM c o true = true) (s : State) :
    bodyLdA c o e s = doLoad c (eaM s c o 8).ea 8 ⟨.a, o.rt.toNat, wbOf o (eaM s c o 8)⟩ e s := by
  have hm : c ≠ mpCore := hc
  rw [bodyLdA, guardWord_of_ok (by simp [aOk, hm, hok, hrt]), aSize, if_neg hm]

theorem bodyLdQ_ok {c : Nat} {o : OpM} {e : Seen} (hc : c ≠ 240) (hrt : o.rt.toNat < 8) (hok : okM c o false = true) {s : State}
    (hq : qDisabled s c = none) :
    bodyLdQ c o e s = doLoad c (eaM s c o 32).ea 32 ⟨.q, o.rt.toNat, wbOf o (eaM s c o 32)⟩ e s := by
  have hm : c ≠ mpCore := hc
  rw [bodyLdQ, guardWord_of_ok (by simp [hm, hok, hrt])]
  simp only [qGuard, hq]

theorem bodyLdN_ok {c : Nat} {o : OpN} {maj size : Nat} {e : Seen} (hc : c ≠ 240) (s : State) :
    bodyLdN c o maj size e s = doLoad c (eaN s c o size) size ⟨.d, o.rt.toNat, none⟩ e s := by
  have hm : c ≠ mpCore := hc
  rw [bodyLdN, guardWord_of_ok (by simp [dOk, bkOk, hm])]

/-- Settles O15: loads into D, A and Q registers in the M format, then the N format. -/
theorem loadResults : Obligations.LoadResults := by
  intro c e s v p h hc harr u line pc' value wb hu
  have hwb : ∀ o n, wbRegs c v (wbOf o (eaM u c o n)) = wb o n := fun o n => wbRegs_wbOf ..
  refine ⟨fun o q hq hok ha => ?_, fun o hrt hok ha => ?_, fun o hrt hok hdis ha => ?_, fun o q hq ha => ?_⟩
  · have hload : ∀ maj size, Access u v c (eaM u c o size).ea size .read .plain e.fresh p →
        Retired c v (runInstr s c (bodyLdM c o maj size e))
          (dUpd (dGet v c) o.rt.toNat (BitVec.ofNat 64 (value size))) (wb o size) (qGet v c) pc' := fun maj size ha => by
      rw [← hwb]
      exact runInstr_load h hc harr (bodyLdM_ok hc hok _) ha hu (fun w hw => finishLoad_d hc hw ..)
    simp only [List.mem_cons, List.not_mem_nil, or_false] at hq
    obtain rfl | rfl | rfl | rfl := hq
    · exact ⟨_, rfl, hload 0x20 1 ha⟩
    · exact ⟨_, rfl, hload 0x21 2 ha⟩
    · exact ⟨_, rfl, hload 0x22 4 ha⟩
    · exact ⟨_, rfl, hload 0x23 8 ha⟩
  · refine ⟨_, rfl, ?_⟩
    rw [← hwb]
    exact runInstr_load h hc harr (bodyLdA_ok hc hrt hok _) ha hu (fun w hw => finishLoad_a hc hw ..)
  · refine ⟨_, rfl, ?_⟩
    rw [← hwb]
    exact runInstr_load h hc harr (bodyLdQ_ok hc hrt hok hdis) ha hu (fun w hw => finishLoad_q hc hw ..)
  · have hload : ∀ maj size, Access u v c (eaN u c o size) size .read .plain e.fresh p →
        Retired c v (runInstr s c (bodyLdN c o maj size e))
          (dUpd (dGet v c) o.rt.toNat (BitVec.ofNat 64 (value size))) (aGet v c) (qGet v c) pc' := fun maj size ha =>
      runInstr_load h hc harr (bodyLdN_ok hc _) ha hu (fun w hw => finishLoad_d hc hw _ none _)
    simp only [List.mem_cons, List.not_mem_nil, or_false] at hq
    obtain rfl | rfl | rfl | rfl := hq
    · exact ⟨_, rfl, hload 0x2C 1 ha⟩
    · exact ⟨_, rfl, hload 0x2D 2 ha⟩
    · exact ⟨_, rfl, hload 0x2E 4 ha⟩
    · exact ⟨_, rfl, hload 0x2F 8 ha⟩

end Sys2Proof.Machine
end

section
/-! PROOFS. The bytes of a line: merging under a mask, and the numbers read from it and put into it. -/
namespace Sys2Proof.Machine

open Sys2Proof

/-! ### Bits and bytes -/

theorem lineByte_getLsbD (d : LineData) (j k : Nat) : (lineByte d j).getLsbD k = (decide (k < 8) && d.getLsbD (8 * j + k)) := by
  simp [lineByte]

/-- Two lines agree in a byte when they agree in its bits. -/
theorem lineByte_eq_of_bits {d e : LineData} {j : Nat} (h : ∀ k, k < 8 → d.getLsbD (8 * j + k) = e.getLsbD (8 * j + k)) :
    lineByte d j = lineByte e j := by
  apply BitVec.eq_of_getLsbD_eq
  intro k hk
  rw [lineByte_getLsbD, lineByte_getLsbD, h k hk]

/-- The byte of ones at byte i of a line. -/
theorem byteOnes_getLsbD (i k : Nat) : ((255 : LineData) <<< (8 * i)).getLsbD k = (decide (k < 512) && decide (k / 8 = i)) := by
  have h255 : (255 : LineData) = BitVec.ofNat 512 (2 ^ 8 - 1) := rfl
  rw [h255, BitVec.getLsbD_shiftLeft, BitVec.getLsbD_ofNat, Nat.testBit_two_pow_sub_one]
  by_cases hk : k < 512 <;> by_cases hi : k / 8 = i <;> simp [hk, hi] <;> omega

/-! ### Merging -/

/-- The bytes merged among the n lowest. -/
def mergeBelow (d x : LineData) (mask n : Nat) : LineData :=
  (List.range n).foldl
    (fun acc i => if mask.testBit i then
        (acc &&& ~~~((255 : LineData) <<< (8 * i))) ||| (x &&& ((255 : LineData) <<< (8 * i)))
      else acc) d

theorem mergeBelow_getLsbD (d x : LineData) (mask n k : Nat) (hk : k < 512) :
    (mergeBelow d x mask n).getLsbD k = if k / 8 < n ∧ mask.testBit (k / 8) = true then x.getLsbD k else d.getLsbD k := by
  induction n with
  | zero => simp [mergeBelow]
  | succ n ih =>
    have hstep : mergeBelow d x mask (n + 1) = if mask.testBit n then
        (mergeBelow d x mask n &&& ~~~((255 : LineData) <<< (8 * n))) ||| (x &&& ((255 : LineData) <<< (8 * n)))
      else mergeBelow d x mask n := by
      simp only [mergeBelow, List.range_succ, List.foldl_append, List.foldl_cons, List.foldl_nil]
    rw [hstep]
    by_cases hm : mask.testBit n = true
    · rw [if_pos hm, BitVec.getLsbD_or, BitVec.getLsbD_and, BitVec.getLsbD_and, BitVec.getLsbD_not, byteOnes_getLsbD, ih]
      by_cases he : k / 8 = n
      · simp [he, hk, hm]
      · have : k / 8 < n + 1 ↔ k / 8 < n := by omega
        simp [he, hk, this]
    · rw [if_neg hm, ih]
      by_cases he : k / 8 = n
      · simp [he, hm]
      · have : k / 8 < n + 1 ↔ k / 8 < n := by omega
        simp [this]

/-- A merge takes the bytes of its mask from the second line. -/
theorem lineByte_lineMerge (d x : LineData) (mask j : Nat) (hj : j < 64) :
    lineByte (lineMerge d x mask) j = if mask.testBit j then lineByte x j else lineByte d j := by
  have hbit : ∀ k, k < 8 → (lineMerge d x mask).getLsbD (8 * j + k) =
      if mask.testBit j then x.getLsbD (8 * j + k) else d.getLsbD (8 * j + k) := by
    intro k hk
    have h := mergeBelow_getLsbD d x mask 64 (8 * j + k) (by omega)
    have hdiv : (8 * j + k) / 8 = j := by omega
    rw [hdiv] at h
    have hmerge : lineMerge d x mask = mergeBelow d x mask 64 := rfl
    simpa [hj, hmerge] using h
  split
  next h => exact lineByte_eq_of_bits fun k hk => by rw [hbit k hk, if_pos h]
  next h => exact lineByte_eq_of_bits fun k hk => by rw [hbit k hk, if_neg h]

theorem byteMask_testBit (off n j : Nat) : (byteMask off n).testBit j = (decide (off ≤ j) && decide (j < off + n) && decide (j < 64)) := by
  rw [byteMask, Nat.testBit_mod_two_pow, Nat.testBit_shiftLeft, Nat.testBit_two_pow_sub_one]
  by_cases h1 : off ≤ j <;> by_cases h2 : j < off + n <;> by_cases h3 : j < 64 <;> simp [h1, h2, h3] <;> omega

/-! ### Numbers in a line -/

theorem linePut_getLsbD (d : LineData) (off n x k : Nat) (hk : k < 512) : (linePut d off n x).getLsbD k =
    if 8 * off ≤ k ∧ k < 8 * (off + n) then x.testBit (k - 8 * off) else d.getLsbD k := by
  unfold linePut
  simp only [BitVec.getLsbD_or, BitVec.getLsbD_and, BitVec.getLsbD_not, BitVec.getLsbD_ofNat, Nat.testBit_shiftLeft,
    Nat.testBit_two_pow_sub_one, Nat.testBit_mod_two_pow]
  by_cases h1 : 8 * off ≤ k
  · by_cases h2 : k < 8 * (off + n)
    · have h3 : k - 8 * off < 8 * n := by omega
      simp [h1, h2, h3, hk]
    · have h3 : ¬(k - 8 * off < 8 * n) := by omega
      simp [h1, h2, h3, hk]
  · simp [h1, hk]

/-- A number put into a line shows byte by byte; the other bytes stay. -/
theorem lineByte_linePut (d : LineData) (off n x j : Nat) (hj : j < 64) : lineByte (linePut d off n x) j =
    if off ≤ j ∧ j < off + n then BitVec.ofNat 8 (x / 2 ^ (8 * (j - off))) else lineByte d j := by
  have hbit : ∀ k, k < 8 → (linePut d off n x).getLsbD (8 * j + k) =
      if off ≤ j ∧ j < off + n then x.testBit (8 * j + k - 8 * off) else d.getLsbD (8 * j + k) := by
    intro k hk
    rw [linePut_getLsbD _ _ _ _ _ (by omega)]
    have hiff : (8 * off ≤ 8 * j + k ∧ 8 * j + k < 8 * (off + n)) ↔ (off ≤ j ∧ j < off + n) := by omega
    simp only [hiff]
  split
  next h =>
    apply BitVec.eq_of_getLsbD_eq
    intro k hk
    have hk' : 8 * j + k - 8 * off = k + 8 * (j - off) := by omega
    rw [lineByte_getLsbD, hbit k hk, if_pos h, BitVec.getLsbD_ofNat, Nat.testBit_div_two_pow, hk']
  next h => exact lineByte_eq_of_bits fun k hk => by rw [hbit k hk, if_neg h]

theorem lineGet_testBit (d : LineData) (off n k : Nat) :
    (lineGet d off n).testBit k = (decide (k < 8 * n) && d.getLsbD (8 * off + k)) := by
  rw [lineGet, Nat.testBit_mod_two_pow, Nat.testBit_shiftRight]
  rfl

theorem lineGet_lt (d : LineData) (off n : Nat) : lineGet d off n < 2 ^ (8 * n) := Nat.mod_lt _ (by positivity)

/-- A number put into a line reads back. -/
theorem lineGet_linePut_same (d : LineData) (off n x : Nat) (h : off + n ≤ 64) : lineGet (linePut d off n x) off n = x % 2 ^ (8 * n) := by
  apply Nat.eq_of_testBit_eq
  intro k
  rw [lineGet_testBit, Nat.testBit_mod_two_pow]
  by_cases hk : k < 8 * n
  · have h1 : 8 * off ≤ 8 * off + k ∧ 8 * off + k < 8 * (off + n) := by omega
    rw [linePut_getLsbD _ _ _ _ _ (by omega), if_pos h1]
    simp
  · simp [hk]

end Sys2Proof.Machine
end

section
/-! PROOFS. The store buffer as its own core sees it, and stores of normal memory (R60, R67, R95, R164, R217, R224). -/
namespace Sys2Proof.Machine

open Sys2Proof

/-! ### A part that joins the buffer -/

/-- A store buffer over the bytes of a line. -/
def sbOver (sb : List SbEntry) (line : Nat) (d : LineData) : LineData :=
  sb.foldl (fun d e => if !e.dev && e.pa / 64 == line then lineMerge d e.data e.mask else d) d

/-- Whether an entry gives byte j of a line. -/
def gives (e : SbEntry) (line j : Nat) : Bool := !e.dev && e.pa / 64 == line && e.mask.testBit j

theorem overlay_eq_sbOver (k : Core) (line : Nat) (d : LineData) : overlay k line d = sbOver k.sb line d := rfl

theorem lineByte_sbOver_append (sb : List SbEntry) (e : SbEntry) (line j : Nat) (d : LineData) (hj : j < 64) :
    lineByte (sbOver (sb ++ [e]) line d) j = if gives e line j then lineByte e.data j else lineByte (sbOver sb line d) j := by
  have happ : sbOver (sb ++ [e]) line d =
      if !e.dev && e.pa / 64 == line then lineMerge (sbOver sb line d) e.data e.mask else sbOver sb line d := by
    simp only [sbOver, List.foldl_append, List.foldl_cons, List.foldl_nil]
  rw [happ, gives]
  cases h : !e.dev && e.pa / 64 == line
  · simp
  · simp [lineByte_lineMerge _ _ _ _ hj]

/-- An entry into which a store's part merged. -/
def mergedWith (e n : SbEntry) : SbEntry := { e with data := lineMerge e.data n.data n.mask, mask := e.mask ||| n.mask }

theorem sbPush_concat (l : List SbEntry) (e n : SbEntry) :
    sbPush (l ++ [e]) n = if canMerge e n then l ++ [mergedWith e n] else l ++ [e] ++ [n] := by
  rw [sbPush, List.getLast?_concat, ← List.dropLast_concat (l₁ := l) (b := e), List.dropLast_concat]
  rfl

/-- A store's part gives its bytes, and the others stay, whether it merges or not (R217, R224). -/
theorem lineByte_sbOver_sbPush (sb : List SbEntry) (n : SbEntry) (line j : Nat) (d : LineData) (hj : j < 64) :
    lineByte (sbOver (sbPush sb n) line d) j = if gives n line j then lineByte n.data j else lineByte (sbOver sb line d) j := by
  rcases List.eq_nil_or_concat sb with rfl | ⟨l, e, rfl⟩
  · exact lineByte_sbOver_append [] n line j d hj
  · rw [List.concat_eq_append, sbPush_concat]
    cases hm : canMerge e n
    · exact lineByte_sbOver_append (l ++ [e]) n line j d hj
    · have hsame : gives n line j = (!e.dev && e.pa / 64 == line && n.mask.testBit j) := by
        simp only [canMerge, Bool.and_eq_true, Bool.not_eq_true', beq_iff_eq] at hm
        obtain ⟨⟨⟨⟨⟨⟨⟨hed, hnd⟩, _⟩, hline⟩, _⟩, _⟩, _⟩, _⟩ := hm
        rw [gives, hed, hnd, hline]
      have hmerged : gives (mergedWith e n) line j =
          (gives e line j || gives n line j) := by
        rw [hsame]
        simp only [gives, mergedWith, Nat.testBit_or, Bool.and_or_distrib_left]
      rw [if_pos rfl, lineByte_sbOver_append _ _ _ _ _ hj, lineByte_sbOver_append _ _ _ _ _ hj, hmerged, mergedWith,
        lineByte_lineMerge _ _ _ _ hj]
      cases hg : gives n line j
      · cases he : gives e line j
        · simp
        · have hn : n.mask.testBit j = false := by
            rw [hsame] at hg
            rw [gives] at he
            simp_all
          simp [hn]
      · have hn : n.mask.testBit j = true := by
          rw [gives] at hg
          simp_all
        simp [hn]

theorem sbPush_length_le (sb : List SbEntry) (n : SbEntry) : (sbPush sb n).length ≤ sb.length + 1 := by
  rcases List.eq_nil_or_concat sb with rfl | ⟨l, e, rfl⟩
  · exact Nat.le_refl _
  · rw [List.concat_eq_append, sbPush_concat]
    split <;> simp

/-! ### A state with another store buffer -/

/-- Core c's store buffer replaced. -/
def withSb (v : State) (c : Nat) (sb : List SbEntry) : State := setCore v c { getCore v c with sb := sb }

theorem core_withSb (v : State) (c : Nat) (sb : List SbEntry) : getCore (withSb v c sb) c = { getCore v c with sb := sb } :=
  core_setCore_same ..

theorem CoreOnly.lines {c : Nat} {u t : State} (h : CoreOnly c u t) : t.lines = u.lines := by
  obtain ⟨he, _⟩ := h
  rw [← he]

theorem CoreOnly.dram {c : Nat} {u t : State} (h : CoreOnly c u t) : t.dram = u.dram := by
  obtain ⟨he, _⟩ := h
  rw [← he]

theorem hline_congr {s t : State} (h : t.lines = s.lines) (c line : Nat) : hline t c line = hline s c line := by
  rw [hline, hline, h]

section
variable {c : Nat} {v t x : State} {sb : List SbEntry} {D A : Nat → Word} {Q : Nat → QWord} {pc : Word}

/-- A store buffer shows in no register. -/
theorem RegsAt.withSb (c : Nat) (v : State) (sb : List SbEntry) :
    RegsAt c (withSb v c sb) (withSb v c sb) (dGet v c) (aGet v c) (qGet v c) := by
  have hc := core_withSb v c sb
  have h := RegsAt.refl c (Machine.withSb v c sb)
  rwa [funext (dGet_congr (s := v) (by rw [hc])), funext (qGet_congr (s := v) (by rw [hc])),
    funext (aGet_congr (s := v) (by rw [hc]) (by rw [hc]) (by rw [hc]) (by rw [hc]))] at h

theorem Retired.of_withSb (h : Retired c (withSb v c sb) t D A Q pc) : Retired c v t D A Q pc := by
  obtain ⟨hd, ha, hq, hpc, hcs, hr, hsys, hrest⟩ := h
  have hc := core_withSb v c sb
  rw [hc] at hcs hr
  have hsp : plOf (getCore (withSb v c sb) c) = plOf (getCore v c) := by rw [hc]; rfl
  refine ⟨hd, ha, hq, hpc, hcs, hr, fun n w hn hcnt hne => ?_, (CoreOnly.setCore ..).trans hrest⟩
  exact (hsys n w hn hcnt (by rwa [hsp])).trans (sysGet_congr (by rw [hc]) n w)

/-- The store buffer of a core whose registers alone were written. -/
theorem RegsAt.sb_eq (h : RegsAt c v x D A Q) : (getCore x c).sb = (getCore v c).sb := by
  obtain ⟨_, _, _, _, _, _, hc⟩ := h.core
  rw [hc]

end

/-! ### Stores -/

/-- A part's entry in the buffer gives the number stored at its bytes. -/
theorem lineByte_sbEntry {v : State} {c x line j : Nat} {p : Piece} {size : Nat} (hlen : p.len = size) (hty : p.ty = .wb) (hj : j < 64)
    (b : Byte) :
    (if gives (sbEntry v c p (x % 2 ^ (8 * size))) line j then lineByte (sbEntry v c p (x % 2 ^ (8 * size))).data j else b) =
    if line = p.pa / 64 ∧ p.pa % 64 ≤ j ∧ j < p.pa % 64 + size then BitVec.ofNat 8 (x / 2 ^ (8 * (j - p.pa % 64))) else b := by
  have hg : gives (sbEntry v c p (x % 2 ^ (8 * size))) line j = true ↔
      (line = p.pa / 64 ∧ p.pa % 64 ≤ j ∧ j < p.pa % 64 + size) := by
    have hdev : (p.ty == MemType.dev) = false := by rw [hty]; rfl
    simp only [gives, sbEntry, hdev, hlen, byteMask_testBit, Bool.not_false, Bool.true_and, Bool.and_eq_true, beq_iff_eq,
      decide_eq_true_eq, hj, and_true]
    rw [eq_comm]
  by_cases h : line = p.pa / 64 ∧ p.pa % 64 ≤ j ∧ j < p.pa % 64 + size
  · rw [if_pos (hg.mpr h), if_pos h]
    obtain ⟨_, h1, h2⟩ := h
    simp only [sbEntry, hlen]
    rw [lineByte_linePut _ _ _ _ _ hj, if_pos ⟨h1, h2⟩]
    apply BitVec.eq_of_getLsbD_eq
    intro k hk
    simp only [BitVec.getLsbD_ofNat, Nat.testBit_div_two_pow, Nat.testBit_mod_two_pow]
    have : k + 8 * (j - p.pa % 64) < 8 * size := by omega
    simp [this]
  · rw [if_neg (fun h' => h (hg.mp h')), if_neg h]

/-- What a core sees after a part of a store has joined its buffer (R217, R224). -/
theorem ownView_sbPush {v w t : State} {c size x : Nat} {p : Piece} (hlen : p.len = size) (hty : p.ty = .wb) (hlines : t.lines = v.lines)
    (hsb : (getCore t c).sb = sbPush (getCore v c).sb (sbEntry w c p (x % 2 ^ (8 * size)))) (line j : Nat) (hj : j < 64) :
    ownView t c line j = if line = p.pa / 64 ∧ p.pa % 64 ≤ j ∧ j < p.pa % 64 + size then
      BitVec.ofNat 8 (x / 2 ^ (8 * (j - p.pa % 64))) else ownView v c line j := by
  rw [ownView, ownView, overlay_eq_sbOver, overlay_eq_sbOver, hsb, hline_congr hlines, lineByte_sbOver_sbPush _ _ _ _ _ hj,
    lineByte_sbEntry hlen hty hj]

/-- The buffer after a store of one part. -/
theorem putStore_single {v : State} {c va size x : Nat} {p : Piece} (hc : c ≠ 240) (hlen : p.len = size)
    (hroom : (getCore v c).sb.length < 64) :
    putStore c va size x [p] v = (.ok, withSb v c (sbPush (getCore v c).sb (sbEntry v c p (x % 2 ^ (8 * size))))) := by
  have hle := sbPush_length_le (getCore v c).sb (sbEntry v c p (x % 2 ^ (8 * p.len)))
  have hfit : ¬((sbPush (getCore v c).sb (sbEntry v c p (x % 2 ^ (8 * p.len)))).length > 64) := by omega
  have hm : c ≠ mpCore := hc
  simp only [putStore, hm, if_false, sbPushAll, hlen]
  rw [← hlen, if_neg hfit]
  rfl

/-- The state after the writeback of an access's base. -/
def wroteBase (s : State) (c : Nat) (base : Option (Nat × Nat)) : State :=
  match base with
  | some (r, y) => aSet s c r (BitVec.ofNat 64 y)
  | none => s

/-- A store whose checks have passed retires into the buffer (R164). -/
theorem doStore_done {u v : State} {c va size x : Nat} {q : Bool} {base : Option (Nat × Nat)} {fresh : Bool} {p : Piece} (hc : c ≠ 240)
    (ha : Access u v c va size .write (if q then .q else .plain) fresh p) (hroom : (getCore v c).sb.length < 64) :
    doStore c va size x q base fresh u = (.done (nextPc v c),
      wroteBase (withSb v c (sbPush (getCore v c).sb (sbEntry v c p (x % 2 ^ (8 * size))))) c base) := by
  obtain ⟨hlen, _, _⟩ := checkAccess_single ha.passes
  unfold doStore
  simp only [ha.passes, putStore_single hc hlen hroom]
  rw [nextPc, core_withSb]
  rfl

/-- A store retires, and its core sees what it wrote (R67, R95, R224). -/
theorem runInstr_store {s v : State} {c va size x y : Nat} {q : Bool} {body : State → Res × State} {base : Option (Nat × Nat)}
    {fresh : Bool} {p : Piece} (h : Runs s c) (hc : c ≠ 240)
    (hb : body (fetched s c) = doStore c va size x q base fresh (fetched s c))
    (ha : Access (fetched s c) v c va size .write (if q then .q else .plain) fresh p) (hroom : (getCore v c).sb.length < 64)
    (hx : x % 2 ^ (8 * size) = y % 2 ^ (8 * size)) :
    Retired c v (runInstr s c body) (dGet v c) (wbRegs c v base) (qGet v c) ((getCore v c).pc + 4) ∧
    ∀ line j, j < 64 → ownView (runInstr s c body) c line j =
      if line = p.pa / 64 ∧ p.pa % 64 ≤ j ∧ j < p.pa % 64 + size then BitVec.ofNat 8 (y / 2 ^ (8 * (j - p.pa % 64))) else ownView v c line j := by
  obtain ⟨hlen, _, _⟩ := checkAccess_single ha.passes
  have hss : bit (getCore v c).cstat 7 = false := by rw [ha.cstat]; exact h.ss
  have hst : (getCore v c).stepping = false := ha.stepping.trans h.free
  obtain ⟨sb, hsb⟩ : ∃ sb, sb = sbPush (getCore v c).sb (sbEntry v c p (x % 2 ^ (8 * size))) := ⟨_, rfl⟩
  have hdone := doStore_done (x := x) (base := base) hc ha hroom
  rw [← hsb] at hdone
  have hregs : RegsAt c (withSb v c sb) (wroteBase (withSb v c sb) c base) (dGet v c) (wbRegs c v base) (qGet v c) := by
    have hA : aGet (withSb v c sb) c = aGet v c := (RegsAt.withSb c v sb).a
    have hr := RegsAt.withSb c v sb
    rw [← hA] at hr
    have hw := hr.writeback hc base
    have hwb : wbRegs c (withSb v c sb) base = wbRegs c v base := by simp only [wbRegs, hA]
    rwa [hwb] at hw
  have hcore := core_withSb v c sb
  rw [runInstr_done h (hb.trans hdone)]
  have hret := (hregs.retired (by rwa [hcore]) (by rwa [hcore]) (nextPc v c)).of_withSb
  rw [trunc_of_ne hc] at hret
  refine ⟨hret, ?_⟩
  obtain ⟨_, _, _, _, _, _, hx'⟩ := hregs.core
  obtain ⟨_, _, hend⟩ := complete_core (nextPc v c) (by rw [hx', hcore]; exact hss) (by rw [hx', hcore]; exact hst)
  refine ownView_sbPush (w := v) hlen ha.wb hret.rest.lines ?_
  rw [hend, ← hx, ← hsb]
  exact hregs.sb_eq.trans (by rw [hcore])

theorem bodyStM_ok {c : Nat} {o : OpM} {maj size : Nat} {e : Seen} (hc : c ≠ 240) (hok : okM c o false = true) (s : State) :
    bodyStM c o maj size e s = doStore c (eaM s c o size).ea size ((dGet s c o.rt.toNat).toNat % 2 ^ (8 * size)) false
      (wbOf o (eaM s c o size)) e.fresh s := by
  have hm : c ≠ mpCore := hc
  rw [bodyStM, guardWord_of_ok (by simp [dOk, hm, hok])]

theorem bodyStA_ok {c : Nat} {o : OpM} {e : Seen} (hc : c ≠ 240) (hrt : o.rt.toNat < 16) (hok : okM c o true = true) (s : State) :
    bodyStA c o e s = doStore c (eaM s c o 8).ea 8 ((aGet s c o.rt.toNat).toNat % 2 ^ (8 * 8)) false (wbOf o (eaM s c o 8)) e.fresh s := by
  have hm : c ≠ mpCore := hc
  rw [bodyStA, guardWord_of_ok (by simp [aOk, hm, hok, hrt]), aSize, if_neg hm]

theorem bodyStQ_ok {c : Nat} {o : OpM} {e : Seen} (hc : c ≠ 240) (hrt : o.rt.toNat < 8) (hok : okM c o false = true) {s : State}
    (hq : qDisabled s c = none) :
    bodyStQ c o e s = doStore c (eaM s c o 32).ea 32 (qGet s c o.rt.toNat).toNat true (wbOf o (eaM s c o 32)) e.fresh s := by
  have hm : c ≠ mpCore := hc
  rw [bodyStQ, guardWord_of_ok (by simp [hm, hok, hrt])]
  simp only [qGuard, hq]

theorem bodyStN_ok {c : Nat} {o : OpN} {maj size : Nat} {e : Seen} (hc : c ≠ 240) (s : State) :
    bodyStN c o maj size e s = doStore c (eaN s c o size) size ((dGet s c o.rt.toNat).toNat % 2 ^ (8 * size)) false none e.fresh s := by
  have hm : c ≠ mpCore := hc
  rw [bodyStN, guardWord_of_ok (by simp [dOk, bkOk, hm])]

/-- Settles O16: stores of D, A and Q registers in the M format, then the N format. -/
theorem storeResults : Obligations.StoreResults := by
  intro c e s v p h hc hroom u wb seen
  have hwb : ∀ o n, wbRegs c v (wbOf o (eaM u c o n)) = wb o n := fun o n => wbRegs_wbOf ..
  refine ⟨fun o q hq hok ha => ?_, fun o hrt hok ha => ?_, fun o hrt hok hdis ha => ?_, fun o q hq ha => ?_⟩
  · have hstore : ∀ maj size, Access u v c (eaM u c o size).ea size .write .plain e.fresh p →
        Retired c v (runInstr s c (bodyStM c o maj size e)) (dGet v c) (wb o size) (qGet v c) ((getCore v c).pc + 4) ∧
          seen (runInstr s c (bodyStM c o maj size e)) size (dGet u c o.rt.toNat).toNat := fun maj size ha => by
      rw [← hwb]
      exact runInstr_store (q := false) h hc (bodyStM_ok hc hok _) ha hroom (Nat.mod_mod ..)
    simp only [List.mem_cons, List.not_mem_nil, or_false] at hq
    obtain rfl | rfl | rfl | rfl := hq
    · exact ⟨_, rfl, hstore 0x24 1 ha⟩
    · exact ⟨_, rfl, hstore 0x25 2 ha⟩
    · exact ⟨_, rfl, hstore 0x26 4 ha⟩
    · exact ⟨_, rfl, hstore 0x27 8 ha⟩
  · refine ⟨_, rfl, ?_⟩
    rw [← hwb]
    exact runInstr_store (q := false) h hc (bodyStA_ok hc hrt hok _) ha hroom (Nat.mod_mod ..)
  · refine ⟨_, rfl, ?_⟩
    rw [← hwb]
    exact runInstr_store (q := true) h hc (bodyStQ_ok hc hrt hok hdis) ha hroom rfl
  · have hstore : ∀ maj size, Access u v c (eaN u c o size) size .write .plain e.fresh p →
        Retired c v (runInstr s c (bodyStN c o maj size e)) (dGet v c) (aGet v c) (qGet v c) ((getCore v c).pc + 4) ∧
          seen (runInstr s c (bodyStN c o maj size e)) size (dGet u c o.rt.toNat).toNat := fun maj size ha =>
      runInstr_store (q := false) (base := none) h hc (bodyStN_ok hc _) ha hroom (Nat.mod_mod ..)
    simp only [List.mem_cons, List.not_mem_nil, or_false] at hq
    obtain rfl | rfl | rfl | rfl := hq
    · exact ⟨_, rfl, hstore 0x30 1 ha⟩
    · exact ⟨_, rfl, hstore 0x31 2 ha⟩
    · exact ⟨_, rfl, hstore 0x32 4 ha⟩
    · exact ⟨_, rfl, hstore 0x33 8 ha⟩

end Sys2Proof.Machine
end

section
/-! PROOFS. What an instruction wrote beside its store-buffer entries, and the block-repeat instructions (R99 to R107). -/
namespace Sys2Proof.Machine

open Sys2Proof

/-! ### Registers and the store buffer written, whatever the core's bookkeeping holds -/

/-- From v to x core c's general registers became D, A and Q and its store buffer B; its PC, status, reservation and every system register
but the counters (and but the stack pointer that A shows) are as they were, and so is the rest of the block. -/
structure Wrote (c : Nat) (v x : State) (D A : Nat → Word) (Q : Nat → QWord) (B : List SbEntry) : Prop where
  d : dGet x c = D
  a : aGet x c = A
  q : qGet x c = Q
  sb : (getCore x c).sb = B
  pc : (getCore x c).pc = (getCore v c).pc
  cstat : (getCore x c).cstat = (getCore v c).cstat
  resv : (getCore x c).resv = (getCore v c).resv
  stepping : (getCore x c).stepping = (getCore v c).stepping
  sys : ∀ n w, n < 0x1000 → isCounter n = false → n ≠ spNum (plOf (getCore v c)) → sysGet x c n w = sysGet v c n w
  rest : CoreOnly c v x

section
variable {c : Nat} {v x y : State} {D A : Nat → Word} {Q : Nat → QWord} {B : List SbEntry}

theorem Wrote.refl (c : Nat) (v : State) : Wrote c v v (dGet v c) (aGet v c) (qGet v c) (getCore v c).sb :=
  ⟨rfl, rfl, rfl, rfl, rfl, rfl, rfl, rfl, fun _ _ _ _ _ => rfl, .refl ..⟩

/-- The core's record is replaced by one that shows the same. -/
theorem Wrote.setCore (h : Wrote c v x D A Q B) {k : Core} {B' : List SbEntry} (hd : k.d = (getCore x c).d) (ha : k.a = (getCore x c).a)
    (hq : k.q = (getCore x c).q) (hsb : k.sb = B') (hpc : k.pc = (getCore x c).pc) (hc : k.cstat = (getCore x c).cstat)
    (hr : k.resv = (getCore x c).resv) (hst : k.stepping = (getCore x c).stepping) (hsys : k.sys = (getCore x c).sys)
    (hstale : k.stale = (getCore x c).stale) : Wrote c v (setCore x c k) D A Q B' := by
  have hk : getCore (Machine.setCore x c k) c = k := core_setCore_same ..
  refine ⟨?_, ?_, ?_, by rw [hk, hsb], by rw [hk, hpc, h.pc], by rw [hk, hc, h.cstat], by rw [hk, hr, h.resv], by rw [hk, hst, h.stepping],
    fun n w hn hcnt hsp => ?_, h.rest.trans (CoreOnly.setCore ..)⟩
  · rw [← h.d]; exact funext (dGet_congr (by rw [hk, hd]))
  · rw [← h.a]; exact funext (aGet_congr (by rw [hk, ha]) (by rw [hk, hsys]) (by rw [hk, hc]) (by rw [hk, hstale]))
  · rw [← h.q]; exact funext (qGet_congr (by rw [hk, hq]))
  · exact (sysGet_congr (by rw [hk, hsys]) n w).trans (h.sys n w hn hcnt hsp)

/-- Events are counted. -/
theorem Wrote.counted (h : Wrote c v x D A Q B) (hy : Counted c x y) : Wrote c v y D A Q B := by
  obtain ⟨hpc, hcs, hd, ha, hq, hr, hstale, hst⟩ := hy.fields
  refine ⟨?_, ?_, ?_, ?_, hpc.trans h.pc, hcs.trans h.cstat, hr.trans h.resv, hst.trans h.stepping, fun n w hn hcnt hsp => ?_,
    h.rest.trans hy.only⟩
  · rw [← h.d]; exact funext (dGet_congr hd)
  · rw [← h.a]; exact funext hy.aGet
  · rw [← h.q]; exact funext (qGet_congr hq)
  · rw [← h.sb, ← hy.same]
  · exact (hy.sys n w hcnt).trans (h.sys n w hn hcnt hsp)

theorem Wrote.dSet (h : Wrote c v x D A Q B) (r : Nat) (z : Word) : Wrote c v (dSet x c r z) (dUpd D r (trunc c z)) A Q B := by
  obtain ⟨d, hd⟩ := core_dSet x c r z
  refine ⟨by rw [dGet_dSet, h.d], by rw [aGet_dSet, h.a], by rw [qGet_dSet, h.q], by rw [hd, h.sb], by rw [hd, h.pc], by rw [hd, h.cstat],
    by rw [hd, h.resv], by rw [hd, h.stepping], fun n w hn hcnt hsp => ?_, h.rest.trans (CoreOnly.dSet ..)⟩
  exact (sysGet_congr (by rw [hd]) n w).trans (h.sys n w hn hcnt hsp)

theorem Wrote.aSet (h : Wrote c v x D A Q B) (r : Nat) (z : Word) : Wrote c v (aSet x c r z) D (regUpd A r (trunc c z)) Q B := by
  obtain ⟨a, sys, stale, ha⟩ := core_aSet x c r z
  refine ⟨by rw [dGet_aSet, h.d], by rw [aGet_aSet, h.a], by rw [qGet_aSet, h.q], by rw [ha, h.sb], by rw [ha, h.pc], by rw [ha, h.cstat],
    by rw [ha, h.resv], by rw [ha, h.stepping], fun n w hn hcnt hsp => ?_, h.rest.trans (CoreOnly.aSet ..)⟩
  have hpl : plOf (getCore x c) = plOf (getCore v c) := by rw [plOf, h.cstat]; rfl
  exact (sysGet_aSet hn (by rwa [hpl])).trans (h.sys n w hn hcnt hsp)

theorem Wrote.nextPc_eq (h : Wrote c v x D A Q B) : nextPc x c = (getCore v c).pc + 4 := by rw [nextPc, h.pc]

/-- The instruction retires after its writes. -/
theorem Wrote.done (h : Wrote c v x D A Q B) (hss : bit (getCore v c).cstat 7 = false) (hst : (getCore v c).stepping = false) (pc : Word) :
    Retired c v (complete x c pc) D A Q (trunc c pc) ∧ (getCore (complete x c pc) c).sb = B := by
  have hret := complete_retired (s := x) (pc := pc) h.rest h.cstat h.resv h.sys hss (h.stepping.trans hst)
  obtain ⟨_, _, hk⟩ := complete_core pc (by rw [h.cstat]; exact hss) (h.stepping.trans hst)
  rw [h.d, h.a, h.q] at hret
  exact ⟨hret, by rw [hk]; exact h.sb⟩

/-- The instruction stays on its PC after its writes (R105). -/
theorem Wrote.part (h : Wrote c v x D A Q B) (hst : (getCore v c).stepping = false) :
    Retired c v (endBody x c .part) D A Q (getCore v c).pc ∧ (getCore (endBody x c .part) c).sb = B := by
  have hk := h.setCore (k := { getCore x c with served := [], asked := [] }) (B' := B) rfl rfl rfl h.sb rfl rfl rfl rfl rfl rfl
  have hend : endBody x c .part = dropFills x c := stepHalt_of_not_stepping (hk.stepping.trans hst)
  rw [hend]
  exact ⟨⟨congrFun hk.d, congrFun hk.a, congrFun hk.q, hk.pc, hk.cstat, hk.resv, hk.sys, hk.rest⟩, hk.sb⟩

end

/-! ### Counters leave what an access reads -/

theorem accWorld_counted {c : Nat} {v w : State} (h : Counted c v w) : accWorld w c = accWorld v c := by
  obtain ⟨_, hcs, _, _, _, _, hstale, _⟩ := h.fields
  have heff : sysEff w c 0x580 false = sysEff v c 0x580 false := sysEff_congr hstale (h.sys _ _ rfl)
  rw [accWorld, accWorld, heff, plOf, secOf, hcs]
  rfl

theorem Usable.counted {c line : Nat} {v w : State} (hu : Usable v c line) (h : Counted c v w) : Usable w c line := by
  have hl : hline w c line = hline v c line := hline_congr h.only.lines ..
  exact ⟨by rw [hl]; exact hu.valid, by rw [hl]; exact hu.clean, by rw [hl]; exact hu.noErr,
    by rw [hl, accWorld_counted h]; exact hu.world⟩

theorem overlay_counted {c line : Nat} {v w : State} (h : Counted c v w) (d : LineData) :
    overlay (getCore w c) line d = overlay (getCore v c) line d := by rw [overlay_eq_sbOver, ← h.same, overlay_eq_sbOver]

/-! ### One element of a block-repeat instruction -/

/-- What core c reads of a part of an access in a line it holds. -/
def ownRead (v : State) (c : Nat) (p : Piece) (size : Nat) : Nat :=
  lineGet (overlay (getCore v c) (p.pa / 64) (hline v c (p.pa / 64)).data) (p.pa % 64) size

theorem ownRead_counted {c : Nat} {v w : State} (h : Counted c v w) (p : Piece) (size : Nat) : ownRead w c p size = ownRead v c p size := by
  rw [ownRead, overlay_counted h, hline_congr h.only.lines, ownRead]

/-- An element is read from the core's own line (R224). -/
theorem elemRead_usable {v : State} {c opnd size : Nat} {p : Piece} (hc : c ≠ 240) (hty : p.ty = .wb) (hlen : p.len = size)
    (hu : Usable v c (p.pa / 64)) : ∃ w, Counted c v w ∧ elemRead v c opnd size .none_ [p] = (.val (ownRead v c p size), w) := by
  have hm : c ≠ mpCore := hc
  obtain ⟨w, hw, hg⟩ := gather_usable hc hty hu
  refine ⟨w, hw, ?_⟩
  have hdev : p.ty ≠ .dev := by rw [hty]; decide
  simp only [elemRead, hm, if_false, List.headD_cons, hdev, hg, hlen, ownRead]

theorem checkOpnd_ok {u v : State} {c va size : Nat} {kind : AccKind} {fresh : Bool} {p : Piece}
    (ha : Access u v c va size kind .block fresh p) : checkOpnd u c va size kind fresh = (.ok [p], v) := by
  simp only [checkOpnd, ha.passes]

theorem checkGroup_one {u v : State} {c bop size a1 a2 : Nat} {fresh : Bool} {el : Elem}
    (h : checkElem u c bop size (addrOf c (BitVec.ofNat 64 a1)) (addrOf c (BitVec.ofNat 64 a2)) fresh = (.ok el, v))
    (hdev : elemDev el = false) : checkGroup c bop size a1 a2 fresh (List.range 1) [] u = (.ok [el], v) := by
  have hr : List.range 1 = [0] := rfl
  simp [checkGroup, hr, h, hdev]

/-- A register written with a value of its own width. -/
theorem Wrote.aPut {c : Nat} {v x : State} {D A : Nat → Word} {Q : Nat → QWord} {B : List SbEntry} (h : Wrote c v x D A Q B) (hc : c ≠ 240)
    (r : Nat) (z : Word) : Wrote c v (Machine.aSet x c r z) D (regUpd A r z) Q B := by
  have h1 := h.aSet r z
  rwa [trunc_of_ne hc] at h1

theorem Wrote.dPut {c : Nat} {v x : State} {D A : Nat → Word} {Q : Nat → QWord} {B : List SbEntry} (h : Wrote c v x D A Q B) (hc : c ≠ 240)
    (r : Nat) (z : Word) : Wrote c v (Machine.dSet x c r z) (dUpd D r z) A Q B := by
  have h1 := h.dSet r z
  rwa [trunc_of_ne hc] at h1

/-- The A registers after n elements (R102): the second pointer moves in MOVB and CMPB only. -/
def advancedA (bop : Nat) (o : OpR) (n size : Nat) (A : Nat → Word) : Nat → Word :=
  let A1 := regUpd A o.rs1.toNat (A o.rs1.toNat + BitVec.ofNat 64 (n * size))
  if bop = 0 ∨ bop = 2 then regUpd A1 o.rs2.toNat (A o.rs2.toNat + BitVec.ofNat 64 (n * size)) else A1

/-- The registers after n elements (R102). -/
theorem Wrote.advance {c : Nat} {v x : State} {D A : Nat → Word} {Q : Nat → QWord} {B : List SbEntry} (h : Wrote c v x D A Q B)
    (hc : c ≠ 240) (bop : Nat) (o : OpR) (n size : Nat) : Wrote c v (blkAdvance x c bop o n size)
      (dUpd D o.rd.toNat (D o.rd.toNat - BitVec.ofNat 64 n)) (advancedA bop o n size A) Q B := by
  have h1 := h.aPut hc o.rs1.toNat (A o.rs1.toNat + BitVec.ofNat 64 (n * size))
  unfold blkAdvance advancedA
  dsimp only
  rw [h.a]
  by_cases hbop : bop = 0 ∨ bop = 2
  · have h2 := h1.aPut hc o.rs2.toNat (A o.rs2.toNat + BitVec.ofNat 64 (n * size))
    rw [if_pos hbop, if_pos hbop, h2.d]
    exact h2.dPut hc _ _
  · rw [if_neg hbop, if_neg hbop, h1.d]
    exact h1.dPut hc _ _

theorem Wrote.result {c : Nat} {v x : State} {D A : Nat → Word} {Q : Nat → QWord} {B : List SbEntry} (h : Wrote c v x D A Q B)
    (hc : c ≠ 240) (o : OpR) (z : Word) :
    Wrote c v (blkResult x c o z) (if o.dr = 0 then D else dUpd D o.dr.toNat z) A Q B := by
  unfold blkResult
  split
  · exact h
  · exact h.dPut hc _ _

/-- The instruction's own notes are dropped. -/
theorem Wrote.dropped {c : Nat} {v x : State} {D A : Nat → Word} {Q : Nat → QWord} {B : List SbEntry} (h : Wrote c v x D A Q B) :
    Wrote c v (Machine.setCore x c { getCore x c with devGot := [] }) D A Q B :=
  h.setCore rfl rfl rfl h.sb rfl rfl rfl rfl rfl rfl

theorem Wrote.dropFills {c : Nat} {v x : State} {D A : Nat → Word} {Q : Nat → QWord} {B : List SbEntry} (h : Wrote c v x D A Q B) :
    Wrote c v (Machine.dropFills x c) D A Q B :=
  h.setCore rfl rfl rfl h.sb rfl rfl rfl rfl rfl rfl

/-! ### Groups of one element -/

theorem blkRun_one (c bop : Nat) (o : OpR) (grp : Nat) (e : Seen) (s : State) : blkRun c bop o grp e 1 s = blkGroup c bop o grp e s := by
  rw [blkRun]
  split
  next s' h => split <;> exact h.symm
  · rfl

/-- With a count of 0 the instruction is complete (R100). -/
theorem blkRun_zero {c : Nat} {o : OpR} {s : State} (h : dGet s c o.rd.toNat = 0) (bop grp groups : Nat) (e : Seen) :
    blkRun c bop o grp e (max groups 1) s = (.done (nextPc s c), blkResult s c o 0) := by
  obtain ⟨f, hf⟩ : ∃ f, max groups 1 = f + 1 := ⟨max groups 1 - 1, by omega⟩
  have hg : blkGroup c bop o grp e s = (.done (nextPc s c), blkResult s c o 0) := by
    rw [blkGroup, if_pos h]
  rw [hf, blkRun, hg]

/-- The low bytes of Dv that FILLB writes and SCANB seeks, at element i. -/
def blkVal (c : Nat) (o : OpR) (v : State) (count : Word) (i : Nat) : Nat :=
  (if o.rs2 = o.rd then count - BitVec.ofNat 64 i else dGet v c o.rs2.toNat).toNat % 2 ^ (8 * 2 ^ o.sz.toNat)

/-- What the elements of a group are done in. -/
structure GroupOf (c bop : Nat) (o : OpR) (e : Seen) (u v : State) (el : Elem) : Prop where
  count : dGet u c o.rd.toNat ≠ 0
  checks : checkGroup c bop (2 ^ o.sz.toNat) (addrOf c (aGet u c o.rs1.toNat)) (addrOf c (aGet u c o.rs2.toNat)) e.fresh (List.range 1) [] u =
    (.ok [el], v)
  room : (getCore v c).sb.length < 60
  same : dGet v c o.rd.toNat = dGet u c o.rd.toNat
  ss : bit (getCore v c).cstat 7 = false
  still : (getCore v c).stepping = false

section
variable {c bop : Nat} {o : OpR} {e : Seen} {u v w : State} {el : Elem}

/-- A group of one element: what it does once its checks have passed (R101). -/
theorem GroupOf.run (h : GroupOf c bop o e u v el) : blkGroup c bop o 1 e u =
    match doElems c bop (2 ^ o.sz.toNat) e.arr (blkVal c o v (dGet u c o.rd.toNat)) [el] 0 v with
    | (.exc x, s) => (.exc x, setCore { s with mpSram := v.mpSram } c { getCore s c with sb := (getCore v c).sb })
    | (.stall, s) => (.stall, setCore { s with mpSram := v.mpSram } c { getCore s c with sb := (getCore v c).sb })
    | (.stop i, s) =>
      let x := blkAdvance (setCore s c { getCore s c with devGot := [] }) c bop o i (2 ^ o.sz.toNat)
      let y := blkResult x c o (dGet x c o.rd.toNat)
      (.done (nextPc y c), dSet y c o.rd.toNat 0)
    | (.all, s) =>
      let x := blkAdvance (dropFills (setCore s c { getCore s c with devGot := [] }) c) c bop o 1 (2 ^ o.sz.toNat)
      if dGet x c o.rd.toNat = 0 then (.done (nextPc x c), blkResult x c o 0) else (.part, x) := by
  have hpos : 0 < (dGet u c o.rd.toNat).toNat := Nat.pos_of_ne_zero fun h0 => h.count (BitVec.eq_of_toNat_eq h0)
  have hn : min (min (max 1 1) (max 1 (64 / 2 ^ o.sz.toNat))) (dGet u c o.rd.toNat).toNat = 1 := by omega
  have hroom : ¬(bop ≤ 1 ∧ (getCore v c).sb.length > 60) := by
    have := h.room
    omega
  unfold blkGroup
  rw [if_neg h.count]
  dsimp only
  rw [hn, h.checks]
  dsimp only
  rw [if_neg hroom]
  rfl

/-- A group whose one element does not end the instruction. -/
theorem GroupOf.all (h : GroupOf c bop o e u v el)
    (hdo : doElems c bop (2 ^ o.sz.toNat) e.arr (blkVal c o v (dGet u c o.rd.toNat)) [el] 0 v = (.all, w)) :
    blkGroup c bop o 1 e u =
      let x := blkAdvance (dropFills (setCore w c { getCore w c with devGot := [] }) c) c bop o 1 (2 ^ o.sz.toNat)
      if dGet x c o.rd.toNat = 0 then (.done (nextPc x c), blkResult x c o 0) else (.part, x) := by
  rw [h.run, hdo]

/-- A group whose one element ends the instruction. -/
theorem GroupOf.stop (h : GroupOf c bop o e u v el)
    (hdo : doElems c bop (2 ^ o.sz.toNat) e.arr (blkVal c o v (dGet u c o.rd.toNat)) [el] 0 v = (.stop 0, w)) :
    blkGroup c bop o 1 e u =
      let x := blkAdvance (setCore w c { getCore w c with devGot := [] }) c bop o 0 (2 ^ o.sz.toNat)
      let y := blkResult x c o (dGet x c o.rd.toNat)
      (.done (nextPc y c), dSet y c o.rd.toNat 0) := by
  rw [h.run, hdo]

/-- The D registers after an element that does not end the instruction (R102). -/
def countedD (c : Nat) (o : OpR) (v : State) : Nat → Word := dUpd (dGet v c) o.rd.toNat (dGet v c o.rd.toNat - 1)

/-- The result register of CMPB and SCANB holds z. -/
def resultD (o : OpR) (D : Nat → Word) (z : Word) : Nat → Word := if o.dr = 0 then D else dUpd D o.dr.toNat z

theorem regUpd_self {α : Type} (f : Nat → α) (r : Nat) (z : α) : regUpd f r z r = z := if_pos rfl

theorem regUpd_eq {α : Type} (f : Nat → α) (r : Nat) : regUpd f r (f r) = f := by
  funext j
  unfold regUpd
  split
  next h => rw [h]
  · rfl

/-- A count is not in D0, which reads 0 (R47). -/
theorem GroupOf.rd_ne_zero (h : GroupOf c bop o e u v el) : o.rd.toNat ≠ 0 := fun h0 => h.count (by rw [h0]; rfl)

/-- The instruction after an element that does not end it (R102, R105). -/
theorem GroupOf.runInstr_all {s : State} {body : State → Res × State} {B : List SbEntry} (hr : Runs s c)
    (h : GroupOf c bop o e (fetched s c) v el) (hc : c ≠ 240) (hb : body (fetched s c) = blkGroup c bop o 1 e (fetched s c))
    (hdo : doElems c bop (2 ^ o.sz.toNat) e.arr (blkVal c o v (dGet (fetched s c) c o.rd.toNat)) [el] 0 v = (.all, w))
    (hw : Wrote c v w (dGet v c) (aGet v c) (qGet v c) B) :
    Retired c v (runInstr s c body)
      (if dGet v c o.rd.toNat = 1 then resultD o (countedD c o v) 0 else countedD c o v)
      (advancedA bop o 1 (2 ^ o.sz.toNat) (aGet v c)) (qGet v c)
      (if dGet v c o.rd.toNat = 1 then (getCore v c).pc + 4 else (getCore v c).pc) ∧
    (getCore (runInstr s c body) c).sb = B := by
  have hx := hw.dropped.dropFills.advance hc bop o 1 (2 ^ o.sz.toNat)
  have hall := h.all hdo
  obtain ⟨x, hxe⟩ : ∃ x, x = blkAdvance (dropFills (setCore w c { getCore w c with devGot := [] }) c) c bop o 1 (2 ^ o.sz.toNat) :=
    ⟨_, rfl⟩
  rw [← hxe] at hx hall
  have hcount : dGet x c o.rd.toNat = dGet v c o.rd.toNat - 1 := by
    rw [hx.d, dUpd, if_neg h.rd_ne_zero, regUpd_self]
    rfl
  have hzero : dGet x c o.rd.toNat = 0 ↔ dGet v c o.rd.toNat = 1 := by
    rw [hcount, sub_eq_zero]
  rw [runInstr_eq hr, hb, hall]
  by_cases h1 : dGet v c o.rd.toNat = 1
  · dsimp only
    rw [if_pos (hzero.mpr h1), if_pos h1, if_pos h1]
    have hend := (hx.result hc o 0).done h.ss h.still (nextPc x c)
    rw [trunc_of_ne hc, hx.nextPc_eq] at hend
    rw [hx.nextPc_eq]
    exact hend
  · dsimp only
    rw [if_neg (fun h0 => h1 (hzero.mp h0)), if_neg h1, if_neg h1]
    exact hx.part h.still

/-- The instruction after an element that ends it (R106). -/
theorem GroupOf.runInstr_stop {s : State} {body : State → Res × State} {B : List SbEntry} (hr : Runs s c)
    (h : GroupOf c bop o e (fetched s c) v el) (hc : c ≠ 240) (hb : body (fetched s c) = blkGroup c bop o 1 e (fetched s c))
    (hdo : doElems c bop (2 ^ o.sz.toNat) e.arr (blkVal c o v (dGet (fetched s c) c o.rd.toNat)) [el] 0 v = (.stop 0, w))
    (hw : Wrote c v w (dGet v c) (aGet v c) (qGet v c) B) :
    Retired c v (runInstr s c body) (dUpd (resultD o (dGet v c) (dGet v c o.rd.toNat)) o.rd.toNat 0) (aGet v c) (qGet v c)
      ((getCore v c).pc + 4) := by
  have hx := hw.dropped.advance hc bop o 0 (2 ^ o.sz.toNat)
  have hD : dUpd (dGet v c) o.rd.toNat (dGet v c o.rd.toNat - BitVec.ofNat 64 0) = dGet v c := by
    rw [dUpd, if_neg h.rd_ne_zero, BitVec.sub_zero, regUpd_eq]
  have hA : advancedA bop o 0 (2 ^ o.sz.toNat) (aGet v c) = aGet v c := by
    simp only [advancedA, Nat.zero_mul, BitVec.add_zero, regUpd_eq, ite_self]
  rw [hD, hA] at hx
  have hstop := h.stop hdo
  obtain ⟨x, hxe⟩ : ∃ x, x = blkAdvance (setCore w c { getCore w c with devGot := [] }) c bop o 0 (2 ^ o.sz.toNat) := ⟨_, rfl⟩
  rw [← hxe] at hx hstop
  rw [runInstr_eq hr, hb, hstop]
  dsimp only
  rw [hx.d]
  have hy := hx.result hc o (dGet v c o.rd.toNat)
  have hend := ((hy.dPut hc o.rd.toNat 0).done h.ss h.still (nextPc (blkResult x c o (dGet v c o.rd.toNat)) c)).1
  rw [trunc_of_ne hc, hy.nextPc_eq] at hend
  rw [hy.nextPc_eq]
  exact hend

end

/-! ### The elements of the four instructions -/

section
variable {c size : Nat} {arr : ArrErr} {val : Nat → Nat} {v : State} {va1 va2 : Nat} {p q : Piece}

/-- An element that stores x at p (R104). -/
theorem doElems_put {w : State} {x : Nat} (hc : c ≠ 240) (hw : Counted c v w) (hp : p.len = size) (hroom : (getCore v c).sb.length < 60) :
    ∃ t, putStore c va1 size x [p] w = (.ok, t) ∧
      Wrote c v t (dGet v c) (aGet v c) (qGet v c) (sbPush (getCore v c).sb (sbEntry w c p (x % 2 ^ (8 * size)))) := by
  have hsb : (getCore w c).sb = (getCore v c).sb := by rw [← hw.same]
  refine ⟨_, putStore_single hc hp (by rw [hsb]; omega), ?_⟩
  exact ((Wrote.refl c v).counted hw).setCore rfl rfl rfl (by rw [hsb]) rfl rfl rfl rfl rfl rfl

theorem doElems_movb (hc : c ≠ 240) (harr : arr = .none_) (hp : p.len = size) (hq : q.len = size) (hty : q.ty = .wb)
    (hroom : (getCore v c).sb.length < 60) (hu : Usable v c (q.pa / 64)) :
    ∃ w t, doElems c 0 size arr val [⟨va1, [p], va2, [q]⟩] 0 v = (.all, t) ∧
      Wrote c v t (dGet v c) (aGet v c) (qGet v c) (sbPush (getCore v c).sb (sbEntry w c p (ownRead v c q size % 2 ^ (8 * size)))) := by
  obtain ⟨w, hw, hread⟩ := elemRead_usable (opnd := 1) hc hty hq hu
  obtain ⟨t, hput, ht⟩ := doElems_put (x := ownRead v c q size) (va1 := va1) hc hw hp hroom
  refine ⟨w, t, ?_, ht⟩
  simp only [doElems, harr, hread, hput]

theorem doElems_fillb (hc : c ≠ 240) (hp : p.len = size) (hroom : (getCore v c).sb.length < 60) (ps : List Piece) :
    ∃ t, doElems c 1 size arr val [⟨va1, [p], va2, ps⟩] 0 v = (.all, t) ∧
      Wrote c v t (dGet v c) (aGet v c) (qGet v c) (sbPush (getCore v c).sb (sbEntry v c p (val 0 % 2 ^ (8 * size)))) := by
  obtain ⟨t, hput, ht⟩ := doElems_put (x := val 0) (va1 := va1) hc (.refl c v) hp hroom
  refine ⟨t, ?_, ht⟩
  simp only [doElems, hput]

theorem doElems_cmpb (hc : c ≠ 240) (harr : arr = .none_) (hp : p.len = size) (hpty : p.ty = .wb) (hq : q.len = size) (hqty : q.ty = .wb)
    (hup : Usable v c (p.pa / 64)) (huq : Usable v c (q.pa / 64)) :
    ∃ t, Counted c v t ∧ doElems c 2 size arr val [⟨va1, [p], va2, [q]⟩] 0 v =
      (if ownRead v c p size = ownRead v c q size then .all else .stop 0, t) := by
  obtain ⟨w, hw, hread1⟩ := elemRead_usable (opnd := 0) hc hpty hp hup
  obtain ⟨t, ht, hread2⟩ := elemRead_usable (opnd := 1) hc hqty hq (huq.counted hw)
  rw [ownRead_counted hw] at hread2
  refine ⟨t, hw.trans ht, ?_⟩
  have hdev : (p.ty == MemType.dev) = false := by rw [hpty]; rfl
  simp only [doElems, harr, hread1, List.any_cons, List.any_nil, hdev, Bool.or_self, Bool.and_false, Bool.false_eq_true, if_false, hread2]
  split <;> rfl

theorem doElems_scanb (hc : c ≠ 240) (harr : arr = .none_) (hp : p.len = size) (hty : p.ty = .wb) (hu : Usable v c (p.pa / 64))
    (ps : List Piece) :
    ∃ t, Counted c v t ∧ doElems c 3 size arr val [⟨va1, [p], va2, ps⟩] 0 v =
      (if ownRead v c p size = val 0 then .stop 0 else .all, t) := by
  obtain ⟨w, hw, hread⟩ := elemRead_usable (opnd := 0) hc hty hp hu
  refine ⟨w, hw, ?_⟩
  simp only [doElems, harr, hread]
  split <;> rfl

end

/-! ### The instructions -/

theorem bodyBlk_two {c bop : Nat} {o : OpR} (hc : c ≠ 240) (hbop : bop = 0 ∨ bop = 2) (h1 : o.rs1.toNat < 16) (h2 : o.rs2.toNat < 16)
    (hdr : (if bop ≤ 1 then o.dr == 0 else !(o.dr != 0 && o.dr == o.rd)) = true) (hres : o.res = false) (g k : Nat) (e : Seen) (s : State) :
    bodyBlk c bop o g k e s = blkRun c bop o g e (max k 1) s := by
  have hm : c ≠ mpCore := hc
  rw [bodyBlk, guardWord_of_ok]
  have htwo : (bop == 0 || bop == 2) = true := by rcases hbop with rfl | rfl <;> rfl
  simp only [htwo, hdr, hres, dOk, aOk, if_neg hm, if_true]
  simp [hm, h1, h2]

theorem bodyBlk_one {c bop : Nat} {o : OpR} (hc : c ≠ 240) (hbop : bop = 1 ∨ bop = 3) (h1 : o.rs1.toNat < 16)
    (hdr : (if bop ≤ 1 then o.dr == 0 else !(o.dr != 0 && o.dr == o.rd)) = true) (hres : o.res = false) (g k : Nat) (e : Seen) (s : State) :
    bodyBlk c bop o g k e s = blkRun c bop o g e (max k 1) s := by
  have hm : c ≠ mpCore := hc
  rw [bodyBlk, guardWord_of_ok]
  have htwo : (bop == 0 || bop == 2) = false := by rcases hbop with rfl | rfl <;> rfl
  simp only [htwo, hdr, hres, dOk, aOk, if_neg hm, Bool.false_eq_true, if_false]
  simp [hm, h1]

/-- An instruction with a count of 0 retires at once (R100). -/
theorem blk_zero_retired {s : State} {c : Nat} {o : OpR} {bop g k : Nat} {e : Seen} {body : State → Res × State} (h : Runs s c) (hc : c ≠ 240)
    (hn : dGet (fetched s c) c o.rd.toNat = 0) (hb : body (fetched s c) = blkRun c bop o g e (max k 1) (fetched s c)) :
    Retired c (fetched s c) (runInstr s c body) (resultD o (dGet (fetched s c) c) 0) (aGet (fetched s c) c) (qGet (fetched s c) c)
      (pcNext s c) := by
  rw [runInstr_done h (hb.trans (blkRun_zero hn ..))]
  exact (((Wrote.refl c (fetched s c)).result hc o 0).done h.ss h.free _).1

theorem addrOf_ofNat_addrOf {c : Nat} (hc : c ≠ 240) (a : Word) : addrOf c (BitVec.ofNat 64 (addrOf c a)) = a.toNat := by
  rw [addrOf_of_ne hc, addrOf_of_ne hc, BitVec.ofNat_toNat, BitVec.setWidth_eq]

theorem elemDev_wb {va1 va2 : Nat} {ps qs : List Piece} (h : ∀ p ∈ ps ++ qs, p.ty = .wb) : elemDev ⟨va1, ps, va2, qs⟩ = false := by
  rw [elemDev, List.any_eq_false]
  intro p hp
  rw [h p hp]
  decide

section
variable {c bop : Nat} {o : OpR} {e : Seen} {s v1 v : State} {p q : Piece} {kind : AccKind}

/-- The group of MOVB and CMPB: the second operand is checked, then the first (R103). -/
theorem groupOf_two (h : Runs s c) (hc : c ≠ 240) (hbop : bop = 0 ∨ bop = 2) (hkind : kind = if bop ≤ 1 then .write else .read)
    (hn : dGet (fetched s c) c o.rd.toNat ≠ 0)
    (hq : Access (fetched s c) v1 c (aGet (fetched s c) c o.rs2.toNat).toNat (2 ^ o.sz.toNat) .read .block e.fresh q)
    (hp : Access v1 v c (aGet (fetched s c) c o.rs1.toNat).toNat (2 ^ o.sz.toNat) kind .block e.fresh p)
    (hsame : dGet v c o.rd.toNat = dGet (fetched s c) c o.rd.toNat) (hroom : (getCore v c).sb.length < 60) :
    GroupOf c bop o e (fetched s c) v
      ⟨(aGet (fetched s c) c o.rs1.toNat).toNat, [p], (aGet (fetched s c) c o.rs2.toNat).toNat, [q]⟩ := by
  refine ⟨hn, checkGroup_one ?_ (elemDev_wb ?_), hroom, hsame, ?_, ?_⟩
  · have htwo : (bop == 0 || bop == 2) = true := by rcases hbop with rfl | rfl <;> rfl
    rw [addrOf_ofNat_addrOf hc, addrOf_ofNat_addrOf hc, checkElem]
    simp only [htwo, if_true, checkOpnd_ok hq, ← hkind, checkOpnd_ok hp]
  · simp [hp.wb, hq.wb]
  · rw [hp.cstat, hq.cstat]
    exact h.ss
  · exact hp.stepping.trans (hq.stepping.trans h.free)

/-- The group of FILLB and SCANB. -/
theorem groupOf_one (h : Runs s c) (hc : c ≠ 240) (hbop : bop = 1 ∨ bop = 3) (hkind : kind = if bop ≤ 1 then .write else .read)
    (hn : dGet (fetched s c) c o.rd.toNat ≠ 0)
    (hp : Access (fetched s c) v c (aGet (fetched s c) c o.rs1.toNat).toNat (2 ^ o.sz.toNat) kind .block e.fresh p)
    (hsame : dGet v c o.rd.toNat = dGet (fetched s c) c o.rd.toNat) (hroom : (getCore v c).sb.length < 60) :
    GroupOf c bop o e (fetched s c) v
      ⟨(aGet (fetched s c) c o.rs1.toNat).toNat, [p], (aGet (fetched s c) c o.rs2.toNat).toNat, []⟩ := by
  refine ⟨hn, checkGroup_one ?_ (elemDev_wb ?_), hroom, hsame, ?_, ?_⟩
  · have htwo : (bop == 0 || bop == 2) = false := by rcases hbop with rfl | rfl <;> rfl
    rw [addrOf_ofNat_addrOf hc, addrOf_ofNat_addrOf hc, checkElem]
    simp only [htwo, Bool.false_eq_true, if_false, ← hkind, checkOpnd_ok hp]
  · simp [hp.wb]
  · rw [hp.cstat]
    exact h.ss
  · exact hp.stepping.trans h.free

end

theorem blkVal_first {c : Nat} {o : OpR} {v : State} {count : Word} (h : dGet v c o.rd.toNat = count) :
    blkVal c o v count 0 = (dGet v c o.rs2.toNat).toNat % 2 ^ (8 * 2 ^ o.sz.toNat) := by
  unfold blkVal
  split
  next heq => rw [heq, h, BitVec.sub_zero]
  · rfl

theorem advancedA_two {bop : Nat} (h : bop = 0 ∨ bop = 2) (o : OpR) (size : Nat) (A : Nat → Word) : advancedA bop o 1 size A =
    regUpd (regUpd A o.rs1.toNat (A o.rs1.toNat + BitVec.ofNat 64 size)) o.rs2.toNat (A o.rs2.toNat + BitVec.ofNat 64 size) := by
  simp only [advancedA, if_pos h, Nat.one_mul]

theorem advancedA_one {bop : Nat} (h : bop = 1 ∨ bop = 3) (o : OpR) (size : Nat) (A : Nat → Word) :
    advancedA bop o 1 size A = regUpd A o.rs1.toNat (A o.rs1.toNat + BitVec.ofNat 64 size) := by
  have hno : ¬(bop = 0 ∨ bop = 2) := by omega
  simp only [advancedA, if_neg hno, Nat.one_mul]

/-- Settles O17: a count of 0, then one element of each of the four instructions. -/
theorem blockRepeatElements : Obligations.BlockRepeatElements := by
  intro c o e s h hc h1 hres u size n a1 a2 res
  have hdrTwo : (o.dr = 0 ∨ o.dr ≠ o.rd) → (!(o.dr != 0 && o.dr == o.rd)) = true := fun hdr => by
    simpa [or_iff_not_imp_left] using hdr
  refine ⟨fun hn g k => ⟨fun hdr h2 => ⟨_, rfl, ?_⟩, fun hdr => ⟨_, rfl, ?_⟩, fun hdr h2 => ⟨_, rfl, ?_⟩, fun hdr => ⟨_, rfl, ?_⟩⟩, ?_⟩
  · have hret := blk_zero_retired h hc hn (bodyBlk_two hc (.inl rfl) h1 h2 (by simp [hdr]) hres g k e u)
    rwa [resultD, if_pos hdr] at hret
  · have hret := blk_zero_retired h hc hn (bodyBlk_one hc (.inl rfl) h1 (by simp [hdr]) hres g k e u)
    rwa [resultD, if_pos hdr] at hret
  · exact blk_zero_retired h hc hn (bodyBlk_two hc (.inr rfl) h1 h2 (hdrTwo hdr) hres g k e u)
  · exact blk_zero_retired h hc hn (bodyBlk_one hc (.inr rfl) h1 (hdrTwo hdr) hres g k e u)
  · intro hn harr v1 v p q pc' elem D A A2 seen hsame hroom
    have hpc : (if dGet v c o.rd.toNat = 1 then (getCore v c).pc + 4 else (getCore v c).pc) = pc' := by rw [hsame]
    refine ⟨fun hdr h2 hq hp hu => ⟨_, rfl, ?_⟩, fun hdr hp => ⟨_, rfl, ?_⟩, fun hdr h2 hq hp huq hup => ⟨_, rfl, ?_⟩,
      fun hdr hp hu => ?_⟩
    · have hg := groupOf_two (bop := 0) h hc (.inl rfl) rfl hn hq hp hsame hroom
      have hlenP := (checkAccess_single hp.passes).1
      have hlenQ := (checkAccess_single hq.passes).1
      obtain ⟨w, t, hdo, ht⟩ := doElems_movb hc harr hlenP hlenQ hq.wb hroom hu
      have hend := hg.runInstr_all h hc ((bodyBlk_two hc (.inl rfl) h1 h2 (by simp [hdr]) hres 1 1 e u).trans (blkRun_one ..)) hdo ht
      rw [resultD, if_pos hdr, ite_self, advancedA_two (.inl rfl), hpc] at hend
      exact ⟨hend.1, ownView_sbPush hlenP hp.wb hend.1.rest.lines hend.2⟩
    · have hg := groupOf_one (bop := 1) h hc (.inl rfl) rfl hn hp hsame hroom
      have hlenP := (checkAccess_single hp.passes).1
      obtain ⟨t, hdo, ht⟩ := doElems_fillb (val := blkVal c o v n) hc hlenP hroom []
      have hend := hg.runInstr_all h hc ((bodyBlk_one hc (.inl rfl) h1 (by simp [hdr]) hres 1 1 e u).trans (blkRun_one ..)) hdo ht
      rw [resultD, if_pos hdr, ite_self, advancedA_one (.inl rfl), hpc, blkVal_first hsame, Nat.mod_mod] at hend
      exact ⟨hend.1, ownView_sbPush hlenP hp.wb hend.1.rest.lines hend.2⟩
    · have hg := groupOf_two (bop := 2) h hc (.inr rfl) rfl hn hq hp hsame hroom
      obtain ⟨t, ht, hdo⟩ := doElems_cmpb (val := blkVal c o v n) hc harr (checkAccess_single hp.passes).1 hp.wb
        (checkAccess_single hq.passes).1 hq.wb hup huq
      have hb := (bodyBlk_two hc (.inr rfl) h1 h2 (hdrTwo hdr) hres 1 1 e u).trans (blkRun_one ..)
      have hw := (Wrote.refl c v).counted ht
      refine ⟨fun heq => ?_, fun hne => ?_⟩
      · rw [if_pos (show ownRead v c p size = ownRead v c q size from heq)] at hdo
        have hend := (hg.runInstr_all h hc hb hdo hw).1
        rwa [advancedA_two (.inr rfl), hpc, hsame] at hend
      · rw [if_neg (show ¬ownRead v c p size = ownRead v c q size from hne)] at hdo
        have hend := hg.runInstr_stop h hc hb hdo hw
        rwa [hsame] at hend
    · intro x
      refine ⟨_, rfl, ?_⟩
      have hg := groupOf_one (bop := 3) h hc (.inr rfl) rfl hn hp hsame hroom
      obtain ⟨t, ht, hdo⟩ := doElems_scanb (val := blkVal c o v n) hc harr (checkAccess_single hp.passes).1 hp.wb hu []
      rw [blkVal_first hsame] at hdo
      have hb := (bodyBlk_one hc (.inr rfl) h1 (hdrTwo hdr) hres 1 1 e u).trans (blkRun_one ..)
      have hw := (Wrote.refl c v).counted ht
      refine ⟨fun hne => ?_, fun heq => ?_⟩
      · rw [if_neg (show ¬ownRead v c p size = x from hne)] at hdo
        have hend := (hg.runInstr_all h hc hb hdo hw).1
        rwa [advancedA_one (.inr rfl), hpc, hsame] at hend
      · rw [if_pos (show ownRead v c p size = x from heq)] at hdo
        have hend := hg.runInstr_stop h hc hb hdo hw
        rwa [hsame] at hend

end Sys2Proof.Machine
end

section
/-! PROOFS. Atomic operations performed at the core, and reservations (R112 to R120, R233, R234, R294). -/
namespace Sys2Proof.Machine

open Sys2Proof

/-! ### The table of the atomic operations -/

theorem toSigned_toNat {w : Nat} (a : BitVec w) : toSigned w a.toNat = a.toInt := by
  have hiff : a.toNat < 2 ^ (w - 1) ↔ 2 * a.toNat < 2 ^ w := by
    cases w with
    | zero => simp [BitVec.of_length_zero]
    | succ n => rw [Nat.add_sub_cancel, pow_succ]; omega
  rw [toSigned, BitVec.toInt_eq_toNat_cond]
  simp only [hiff]

section
variable {w : Nat} (a y k : BitVec w) {x z : Nat}

theorem atomicNew_swp (hx : x % 2 ^ w = y.toNat) : atomicNew 0 w a.toNat x z = y.toNat := hx

theorem atomicNew_add (hx : x % 2 ^ w = y.toNat) : atomicNew 1 w a.toNat x z = (a + y).toNat := by
  rw [BitVec.toNat_add, ← hx, Nat.add_mod_mod]
  rfl

theorem atomicNew_and (hx : x % 2 ^ w = y.toNat) : atomicNew 2 w a.toNat x z = (a &&& y).toNat := by
  rw [BitVec.toNat_and, ← hx]
  rfl

theorem atomicNew_or (hx : x % 2 ^ w = y.toNat) : atomicNew 3 w a.toNat x z = (a ||| y).toNat := by
  rw [BitVec.toNat_or, ← hx]
  rfl

theorem atomicNew_xor (hx : x % 2 ^ w = y.toNat) : atomicNew 4 w a.toNat x z = (a ^^^ y).toNat := by
  rw [BitVec.toNat_xor, ← hx]
  rfl

theorem atomicNew_smax (hx : x % 2 ^ w = y.toNat) :
    atomicNew 5 w a.toNat x z = (if y.toInt ≤ a.toInt then a else y).toNat := by
  simp only [atomicNew, hx, toSigned_toNat, ge_iff_le]
  split <;> rfl

theorem atomicNew_smin (hx : x % 2 ^ w = y.toNat) :
    atomicNew 6 w a.toNat x z = (if a.toInt ≤ y.toInt then a else y).toNat := by
  simp only [atomicNew, hx, toSigned_toNat]
  split <;> rfl

theorem atomicNew_umax (hx : x % 2 ^ w = y.toNat) :
    atomicNew 7 w a.toNat x z = (if y.toNat ≤ a.toNat then a else y).toNat := by
  simp only [atomicNew, hx]
  split
  next h => exact max_eq_left h
  next h => exact max_eq_right (le_of_not_ge h)

theorem atomicNew_umin (hx : x % 2 ^ w = y.toNat) :
    atomicNew 8 w a.toNat x z = (if a.toNat ≤ y.toNat then a else y).toNat := by
  simp only [atomicNew, hx, min_def]
  split <;> rfl

theorem atomicNew_cas (hx : x % 2 ^ w = y.toNat) (hz : z % 2 ^ w = k.toNat) :
    atomicNew 9 w a.toNat x z = (if a = k then y else a).toNat := by
  simp only [atomicNew, hx, hz, ← BitVec.toNat_inj]
  split <;> rfl

end

/-! ### A store to the core's own line -/

/-- What breaks the reservations of other cores changes nothing else (R118). -/
structure OnlyOthers (c : Nat) (s t : State) : Prop where
  own : getCore t c = getCore s c
  lines : t.lines = s.lines
  dram : t.dram = s.dram

theorem OnlyOthers.refl (c : Nat) (s : State) : OnlyOthers c s s := ⟨rfl, rfl, rfl⟩

theorem OnlyOthers.trans {c : Nat} {s t u : State} (h1 : OnlyOthers c s t) (h2 : OnlyOthers c t u) : OnlyOthers c s u :=
  ⟨h2.own.trans h1.own, h2.lines.trans h1.lines, h2.dram.trans h1.dram⟩

theorem OnlyOthers.dropResv {c d : Nat} (h : d ≠ c) (s : State) : OnlyOthers c s (dropResv s d) :=
  ⟨core_setCore_ne h.symm, rfl, rfl⟩

theorem OnlyOthers.breakResv (c pa n : Nat) (s : State) : OnlyOthers c s (breakResv s c pa n) := by
  unfold Machine.breakResv
  generalize s.cores = l
  induction l generalizing s with
  | nil => exact .refl ..
  | cons p l ih =>
    rw [List.foldl_cons]
    refine OnlyOthers.trans ?_ (ih _)
    split
    · split
      next hb =>
        refine .dropResv ?_ s
        simp only [Bool.and_eq_true, bne_iff_ne, ne_eq] at hb
        exact hb.1.1
      · exact .refl ..
    · exact .refl ..

theorem hline_setHline_same (s : State) (c line : Nat) (x : CLine) : hline (setHline s c line x) c line = x := by
  simp [hline, setHline]

theorem hline_setHline_ne {s : State} {c line c' line' : Nat} {x : CLine} (h : c' * 2 ^ 46 + line' ≠ c * 2 ^ 46 + line) :
    hline (setHline s c line x) c' line' = hline s c' line' := by
  unfold hline setHline
  exact tget_tset_ne h _

/-- The line of an access with a number put into it, held in M. -/
def putLine (x : CLine) (off n y : Nat) : CLine := { x with st := .m, data := linePut x.data off n y }

/-- A number stored in a line, and the reservations of others on it broken (R118, R294). -/
def storedAt (s : State) (c : Nat) (p : Piece) (y : Nat) : State :=
  setHline s c (p.pa / 64) (putLine (hline s c (p.pa / 64)) (p.pa % 64) p.len y)

/-- What a store to the core's own line leaves: its number, the other bytes, the other lines. -/
structure StoredLine (c : Nat) (p : Piece) (size y : Nat) (v t : State) : Prop where
  state : (hline t c (p.pa / 64)).st = .m
  value : lineGet (hline t c (p.pa / 64)).data (p.pa % 64) size = y % 2 ^ (8 * size)
  bytes : ∀ j, j < 64 → (j < p.pa % 64 ∨ p.pa % 64 + size ≤ j) →
    lineByte (hline t c (p.pa / 64)).data j = lineByte (hline v c (p.pa / 64)).data j
  others : ∀ h line, h * 2 ^ 46 + line ≠ c * 2 ^ 46 + p.pa / 64 → hline t h line = hline v h line
  dram : t.dram = v.dram

theorem StoredLine.of_lines {c size y : Nat} {p : Piece} {u v t : State} (hlen : p.len = size) (hfit : p.pa % 64 + size ≤ 64)
    (hu : u.lines = v.lines) (ht : t.lines = (storedAt u c p y).lines) (hd : t.dram = v.dram) : StoredLine c p size y v t := by
  have hline_u : ∀ h l, hline u h l = hline v h l := hline_congr hu
  have hsame : hline t c (p.pa / 64) = putLine (hline v c (p.pa / 64)) (p.pa % 64) size y := by
    rw [hline_congr ht, storedAt, hline_setHline_same, hline_u, hlen]
  refine ⟨by rw [hsame]; rfl, ?_, fun j hj hout => ?_, fun h l hne => ?_, hd⟩
  · rw [hsame]
    exact lineGet_linePut_same _ _ _ _ hfit
  · rw [hsame]
    exact (lineByte_linePut _ _ _ _ _ hj).trans (if_neg (by omega))
  · rw [hline_congr ht, storedAt, hline_setHline_ne hne, hline_u]

/-! ### The body of an atomic instruction -/

/-- What an atomic does once its checks have passed (R112, R117, R120). -/
theorem bodyAtomic_passed {u v : State} {c : Nat} {o : OpAt} {aop : Nat} {e : Seen} {kind : AccKind} {op : OpClass} {p : Piece}
    (hc : c ≠ 240) (h1 : o.rs1.toNat < 16) (hres : o.res = 0) (hsz : o.sz = 2 ∨ o.sz = 3) (h2 : aop = 0xA → o.rs2 = 0)
    (hkind : kind = if aop = 0xA then .read else .rw) (hop : op = if atKind aop == .rmw then .atomic else .resv)
    (ha : Access u v c (aGet u c o.rs1.toNat).toNat (if o.sz = 2 then 4 else 8) kind op e.fresh p) (hsb : (getCore v c).sb = []) :
    bodyAtomic c o aop e u = match atKind aop with
      | .scond =>
        if !(resvHolds (getCore v c) p.pa p.len) then scondFail v c o.rd.toNat
        else nearAtomic v c (aGet u c o.rs1.toNat).toNat p o aop e.arr e.held
      | .lres => nearLres v c (aGet u c o.rs1.toNat).toNat p o e.arr
      | .rmw =>
        if p.ty == .nc || placeFar v c p.atp then farAtomic v c (aGet u c o.rs1.toNat).toNat p o aop .farAtomic e.held
        else nearAtomic v c (aGet u c o.rs1.toNat).toNat p o aop e.arr e.held := by
  have hm : c ≠ mpCore := hc
  have hbeq : (c == mpCore) = false := beq_false_of_ne hm
  have hdec : decide (c = mpCore) = false := decide_eq_false hm
  have hok : okAt c o aop = true := by
    have hsize : (o.sz == 2 || (o.sz == 3 && c != mpCore)) = true := by rcases hsz with h | h <;> simp [h, hm]
    have hrs2 : (aop != 0xA || o.rs2 == 0) = true := by
      by_cases h : aop = 0xA
      · simp [h2 h]
      · simp [h]
    rw [okAt, hsize, hrs2]
    simp [dOk, aOk, hm, h1, hres]
  have hblock : atomicBlocked (getCore v c) (p.pa / 64) o.rl = false := by rw [atomicBlocked, hsb]; rfl
  have hpass := ha.passes
  rw [hkind, hop] at hpass
  rw [bodyAtomic, guardWord_of_ok hok]
  dsimp only
  rw [addrOf_of_ne hc, hpass]
  dsimp only [List.headD_cons]
  obtain ⟨place, hplace⟩ : ∃ place, mpPlace v p.pa = place := ⟨_, rfl⟩
  cases place <;>
    simp only [hplace, if_neg hm, hblock, hbeq, hdec, Bool.false_and, Bool.false_eq_true, if_false, Bool.false_or] <;> rfl

/-- A line the core owns is worked on where it is (R112, R294). -/
theorem nearAtomic_owned {v : State} {c va : Nat} {p : Piece} {o : OpAt} {aop : Nat} {held : Bool} (hc : c ≠ 240)
    (hu : Usable v c (p.pa / 64)) (hown : (hline v c (p.pa / 64)).st = .m ∨ (hline v c (p.pa / 64)).st = .e)
    (hheld : (held && atKind aop == .scond) = false) :
    ∃ found, nearAtomic v c va p o aop .none_ held = nearDo v c va p o aop found := by
  refine ⟨!(getCore v c).atSent, ?_⟩
  have hw : worldEvict v c (p.pa / 64) (coreAttr v c p.keyid).world = v :=
    worldEvict_usable (by rw [coreAttr_world hc]; exact hu.world)
  unfold nearAtomic
  dsimp only
  rw [arrFound_none _ _ _ _ hc, hw, hheld, hu.noErr]
  simp only [Bool.false_eq_true, if_false, hown, if_true, Bool.false_and]

/-! ### Reading off what was done -/

theorem dGet_of_core {s t : State} {c : Nat} (h : getCore t c = getCore s c) : dGet t c = dGet s c :=
  funext (dGet_congr (by rw [h]))

theorem aGet_of_core {s t : State} {c : Nat} (h : getCore t c = getCore s c) : aGet t c = aGet s c :=
  funext (aGet_congr (by rw [h]) (by rw [h]) (by rw [h]) (by rw [h]))

theorem CoreOnly.net {c : Nat} {u t : State} (h : CoreOnly c u t) : t.net = u.net := by
  obtain ⟨he, _⟩ := h
  rw [← he]

/-- An instruction that writes one D register and retires. -/
theorem retired_dSet {c : Nat} {x : State} (hc : c ≠ 240) (hss : bit (getCore x c).cstat 7 = false) (hst : (getCore x c).stepping = false)
    (r : Nat) (z : Word) : Retired c x (complete (dSet x c r z) c (nextPc x c)) (dUpd (dGet x c) r z) (aGet x c) (qGet x c)
      ((getCore x c).pc + 4) := by
  have h := (((Wrote.refl c x).dPut hc r z).done hss hst (nextPc x c)).1
  rwa [trunc_of_ne hc] at h

/-- What an instruction that stores to the core's own line has done before it writes its register: core c's own notes (w), then the store
and the reservations of others it breaks (x). -/
structure StoredFrom (c : Nat) (p : Piece) (y : Nat) (v w x : State) : Prop where
  d : dGet w c = dGet v c
  a : aGet w c = aGet v c
  pc : (getCore w c).pc = (getCore v c).pc
  cstat : (getCore w c).cstat = (getCore v c).cstat
  stepping : (getCore w c).stepping = (getCore v c).stepping
  rest : CoreOnly c v w
  store : OnlyOthers c (storedAt w c p y) x

theorem StoredFrom.core {c y : Nat} {p : Piece} {v w x : State} (h : StoredFrom c p y v w x) : getCore x c = getCore w c := h.store.own

/-- The instruction retires with its register written (R112, R118). -/
theorem StoredFrom.retired {c y size : Nat} {p : Piece} {v w x : State} (h : StoredFrom c p y v w x) (hc : c ≠ 240) (hlen : p.len = size)
    (hfit : p.pa % 64 + size ≤ 64) (hss : bit (getCore v c).cstat 7 = false) (hst : (getCore v c).stepping = false) (r : Nat) (z : Word) :
    Retired c x (complete (dSet x c r z) c (nextPc x c)) (dUpd (dGet v c) r z) (aGet v c) (qGet x c) ((getCore v c).pc + 4) ∧
    (getCore x c).cstat = (getCore v c).cstat ∧ StoredLine c p size y v (complete (dSet x c r z) c (nextPc x c)) := by
  have hcs : (getCore x c).cstat = (getCore v c).cstat := by rw [h.core, h.cstat]
  have hret := retired_dSet hc (x := x) (by rwa [hcs]) (by rw [h.core, h.stepping, hst]) r z
  have hdram : x.dram = v.dram := h.store.dram.trans h.rest.dram
  rw [dGet_of_core h.core, aGet_of_core h.core, h.d, h.a, h.core, h.pc] at hret
  exact ⟨hret, hcs, .of_lines hlen hfit h.rest.lines (hret.rest.lines.trans h.store.lines) (hret.rest.dram.trans hdram)⟩

/-- An atomic operation on a line the core owns (R112). -/
theorem nearDo_rmw {v : State} {c va size aop : Nat} {p : Piece} {o : OpAt} {found : Bool} (hk : atKind aop = .rmw)
    (hlen : p.len = size) (hclean : (hline v c (p.pa / 64)).poison = false) :
    ∃ w x, nearDo v c va p o aop found =
        (.done (nextPc x c), dSet x c o.rd.toNat (BitVec.ofNat 64 (lineGet (hline v c (p.pa / 64)).data (p.pa % 64) size))) ∧
      StoredFrom c p (atomicNew aop (8 * size) (lineGet (hline v c (p.pa / 64)).data (p.pa % 64) size) (dGet v c o.rs2.toNat).toNat
        (dGet v c o.rd.toNat).toNat) v w x := by
  subst hlen
  obtain ⟨t, ht⟩ : ∃ t, t = train v c (predIdx (getCore v c).pc) (!found && (hline v c (p.pa / 64)).contended) := ⟨_, rfl⟩
  have htrain : Wrote c v t (dGet v c) (aGet v c) (qGet v c) (getCore v c).sb := by
    rw [ht]
    exact (Wrote.refl c v).setCore rfl rfl rfl rfl rfl rfl rfl rfl rfl rfl
  have hw := htrain.counted (countEvent_counted t c 0x00C)
  have hline_w := hline_congr hw.rest.lines c (p.pa / 64)
  refine ⟨countEvent t c 0x00C, breakResv (storedAt (countEvent t c 0x00C) c p _) c p.pa p.len, ?_, hw.d, hw.a, hw.pc, hw.cstat,
    hw.stepping, hw.rest, .breakResv ..⟩
  unfold nearDo storedAt putLine
  simp only [hk, hclean, Bool.false_eq_true, if_false, ← ht, hline_w]

/-- A SCOND whose reservation holds (R118, R120). -/
theorem nearDo_scond {v : State} {c va : Nat} {p : Piece} {o : OpAt} {found : Bool} (h : resvHolds (getCore v c) p.pa p.len = true) :
    ∃ w x, nearDo v c va p o 0xB found = (.done (nextPc x c), dSet x c o.rd.toNat 1) ∧
      StoredFrom c p (dGet v c o.rs2.toNat).toNat v w x ∧ (getCore x c).resv = none := by
  have hk : atKind 0xB = .scond := rfl
  have hcore := dropResv_core v c
  refine ⟨dropResv v c, breakResv (storedAt (dropResv v c) c p _) c p.pa p.len, ?_,
    ⟨?_, ?_, by rw [hcore], by rw [hcore], by rw [hcore], .setCore .., .breakResv ..⟩, ?_⟩
  · unfold nearDo
    simp only [hk, h, if_true]
    rfl
  · exact funext (dGet_congr (by rw [hcore]))
  · exact funext (aGet_congr (by rw [hcore]) (by rw [hcore]) (by rw [hcore]) (by rw [hcore]))
  · rw [(OnlyOthers.breakResv ..).own]
    exact congrArg Core.resv hcore

/-- An operation of the table, at a width. -/
def IsAtomicOp (aop w : Nat) (f : BitVec w → BitVec w → BitVec w → BitVec w) : Prop :=
  ∀ (a y k : BitVec w) (x z : Nat), x % 2 ^ w = y.toNat → z % 2 ^ w = k.toNat → atomicNew aop w a.toNat x z = (f a y k).toNat

/-- An atomic instruction on a line the core owns (R112 to R116). -/
theorem runInstr_rmw {c : Nat} {o : OpAt} {e : Seen} {s v : State} {p : Piece} {aop size : Nat}
    {f : BitVec (8 * size) → BitVec (8 * size) → BitVec (8 * size) → BitVec (8 * size)} (hsize : size = if o.sz = 2 then 4 else 8)
    (h : Runs s c) (hc : c ≠ 240) (harr : e.arr = .none_) (h1 : o.rs1.toNat < 16) (hres : o.res = 0) (hsz : o.sz = 2 ∨ o.sz = 3)
    (ha : Access (fetched s c) v c (aGet (fetched s c) c o.rs1.toNat).toNat size .rw .atomic e.fresh p) (hfar : placeFar v c p.atp = false)
    (hsb : (getCore v c).sb = []) (hu : Usable v c (p.pa / 64))
    (hown : (hline v c (p.pa / 64)).st = .m ∨ (hline v c (p.pa / 64)).st = .e) (hk : atKind aop = .rmw) (hlt : aop ≠ 0xA)
    (hf : IsAtomicOp aop (8 * size) f) :
    let old : BitVec (8 * size) := BitVec.ofNat (8 * size) (lineGet (hline v c (p.pa / 64)).data (p.pa % 64) size)
    let t := runInstr s c (bodyAtomic c o aop e)
    (getCore t c).pc = (getCore v c).pc + 4 ∧ (∀ r, dGet t c r = dUpd (dGet v c) o.rd.toNat (old.setWidth 64) r) ∧
    (∀ r, aGet t c r = aGet v c r) ∧ (getCore t c).cstat = (getCore v c).cstat ∧
    StoredLine c p size (f old ((dGet v c o.rs2.toNat).setWidth (8 * size)) ((dGet v c o.rd.toNat).setWidth (8 * size))).toNat v t := by
  intro old t
  obtain ⟨hlen, hfit, _⟩ := checkAccess_single ha.passes
  have hbody := bodyAtomic_passed (aop := aop) hc h1 hres hsz (fun h => (hlt h).elim) (kind := .rw) (by rw [if_neg hlt])
    (if_pos (by rw [hk]; rfl)).symm (by rwa [hsize] at ha) hsb
  have hnc : (p.ty == MemType.nc) = false := by rw [ha.wb]; rfl
  obtain ⟨found, hnear⟩ := nearAtomic_owned (va := (aGet (fetched s c) c o.rs1.toNat).toNat) (o := o) (aop := aop) (held := e.held)
    hc hu hown (by rw [hk]; exact Bool.and_false _)
  obtain ⟨w, x, hdo, hx⟩ := nearDo_rmw (va := (aGet (fetched s c) c o.rs1.toNat).toNat) (o := o) (found := found) hk hlen hu.clean
  have hdone : bodyAtomic c o aop e (fetched s c) = nearDo v c (aGet (fetched s c) c o.rs1.toNat).toNat p o aop found := by
    rw [hbody, hk]
    simp only [hnc, hfar, Bool.or_self, Bool.false_eq_true, if_false, harr]
    exact hnear
  have hold : old.toNat = lineGet (hline v c (p.pa / 64)).data (p.pa % 64) size := by
    rw [BitVec.toNat_ofNat, Nat.mod_eq_of_lt (lineGet_lt ..)]
  have hold64 : BitVec.ofNat 64 (lineGet (hline v c (p.pa / 64)).data (p.pa % 64) size) = old.setWidth 64 := by
    apply BitVec.eq_of_toNat_eq
    rw [BitVec.toNat_setWidth, hold, BitVec.toNat_ofNat]
  have hnew := hf old ((dGet v c o.rs2.toNat).setWidth (8 * size)) ((dGet v c o.rd.toNat).setWidth (8 * size)) _ _
    (BitVec.toNat_setWidth ..).symm (BitVec.toNat_setWidth ..).symm
  rw [hold] at hnew
  rw [hnew] at hx
  obtain ⟨hret, hcs, hst⟩ := hx.retired hc hlen hfit (by rw [ha.cstat]; exact h.ss) (ha.stepping.trans h.free) o.rd.toNat
    (BitVec.ofNat 64 (lineGet (hline v c (p.pa / 64)).data (p.pa % 64) size))
  rw [← runInstr_done h (hdone.trans hdo)] at hret hst
  rw [hold64] at hret
  exact ⟨hret.pc, hret.d, hret.a, hret.cstat.trans hcs, hst⟩

/-- Settles O19: the ten operations of the table, each on the line in M or E. -/
theorem nearAtomicResults : Obligations.NearAtomicResults := by
  intro c o e s v p h hc harr h1 hres hsz u size w x old ha hfar hsb hu hown
  have hrun : ∀ (aop : Nat) (f : BitVec w → BitVec w → BitVec w → BitVec w), atKind aop = .rmw → aop ≠ 0xA → IsAtomicOp aop w f → _ :=
    fun aop f hk hlt hf => runInstr_rmw (size := size) (f := f) rfl h hc harr h1 hres hsz ha hfar hsb hu hown hk hlt hf
  have hend : ∀ (aop : Nat) (f : BitVec w → BitVec w → BitVec w → BitVec w), atKind aop = .rmw → aop ≠ 0xA → IsAtomicOp aop w f →
      ∃ t, ok (runInstr s c (bodyAtomic c o aop e)) = .next t ∧ (getCore t c).pc = (getCore v c).pc + 4 ∧
        (∀ r, dGet t c r = dUpd (dGet v c) o.rd.toNat (old.setWidth 64) r) ∧ (∀ r, aGet t c r = aGet v c r) ∧
        (getCore t c).cstat = (getCore v c).cstat ∧ (hline t c (p.pa / 64)).st = .m ∧
        lineGet (hline t c (p.pa / 64)).data (p.pa % 64) size =
          (f old ((dGet v c o.rs2.toNat).setWidth w) ((dGet v c o.rd.toNat).setWidth w)).toNat ∧
        (∀ j, j < 64 → (j < p.pa % 64 ∨ p.pa % 64 + size ≤ j) → lineByte (hline t c (p.pa / 64)).data j = lineByte x.data j) ∧
        (∀ h line, h * 2 ^ 46 + line ≠ c.val * 2 ^ 46 + p.pa / 64 → hline t h line = hline v h line) ∧ t.dram = v.dram := by
    intro aop f hk hlt hf
    obtain ⟨hpc, hd, ha', hcs, hst⟩ := hrun aop f hk hlt hf
    exact ⟨_, rfl, hpc, hd, ha', hcs, hst.state, hst.value.trans (Nat.mod_eq_of_lt (BitVec.isLt _)), hst.bytes, hst.others, hst.dram⟩
  intro q hq
  simp only [List.mem_cons, List.not_mem_nil, or_false] at hq
  obtain rfl | rfl | rfl | rfl | rfl | rfl | rfl | rfl | rfl | rfl := hq
  · exact hend 0 _ rfl (by decide) fun a y k x z hx _ => atomicNew_swp a y hx
  · exact hend 1 _ rfl (by decide) fun a y k x z hx _ => atomicNew_add a y hx
  · exact hend 2 _ rfl (by decide) fun a y k x z hx _ => atomicNew_and a y hx
  · exact hend 3 _ rfl (by decide) fun a y k x z hx _ => atomicNew_or a y hx
  · exact hend 4 _ rfl (by decide) fun a y k x z hx _ => atomicNew_xor a y hx
  · exact hend 5 _ rfl (by decide) fun a y k x z hx _ => atomicNew_smax a y hx
  · exact hend 6 _ rfl (by decide) fun a y k x z hx _ => atomicNew_smin a y hx
  · exact hend 7 _ rfl (by decide) fun a y k x z hx _ => atomicNew_umax a y hx
  · exact hend 8 _ rfl (by decide) fun a y k x z hx _ => atomicNew_umin a y hx
  · exact hend 9 _ rfl (by decide) fun a y k x z hx hz => atomicNew_cas a y k hx hz

end Sys2Proof.Machine
end

section
/-! PROOFS. LRES and SCOND (R117 to R120, R233, R234). -/
namespace Sys2Proof.Machine

open Sys2Proof

/-- A reservation of the core's world that covers an access is one that holds (R120). -/
theorem resvHolds_iff (k : Core) (pa size : Nat) :
    resvHolds k pa size = true ↔ ∃ r, k.resv = some r ∧ r.world = secOf k ∧ r.base ≤ pa ∧ pa + size ≤ r.base + r.size := by
  unfold resvHolds
  cases k.resv with
  | none => simp
  | some r => simp [and_assoc]

/-- A SCOND without its reservation retires with 0 (R118, R120). -/
theorem scondFail_retired {v : State} {c : Nat} (hc : c ≠ 240) (hss : bit (getCore v c).cstat 7 = false)
    (hst : (getCore v c).stepping = false) (r : Nat) :
    ∃ x, scondFail v c r = (.done (nextPc x c), dSet x c r 0) ∧ (getCore x c).resv = none ∧ CoreOnly c v x ∧
      Retired c x (complete (dSet x c r 0) c (nextPc x c)) (dUpd (dGet v c) r 0) (aGet v c) (qGet x c) ((getCore v c).pc + 4) := by
  have hcore := dropResv_core v c
  have hcount := countEvent_counted (dropResv v c) c 0x00F
  obtain ⟨hpc, hcs, hd, _, _, hr, _, hstep⟩ := hcount.fields
  rw [hcore] at hpc hcs hd hr hstep
  refine ⟨countEvent (dropResv v c) c 0x00F, rfl, hr, (CoreOnly.setCore ..).trans hcount.only, ?_⟩
  have hret := retired_dSet hc (x := countEvent (dropResv v c) c 0x00F) (by rwa [hcs]) (by rwa [hstep]) r 0
  have hD : dGet (countEvent (dropResv v c) c 0x00F) c = dGet v c := funext (dGet_congr hd)
  have hA : aGet (countEvent (dropResv v c) c 0x00F) c = aGet v c := by
    have hdrop : ∀ j, aGet (dropResv v c) c j = aGet v c j :=
      aGet_congr (by rw [hcore]) (by rw [hcore]) (by rw [hcore]) (by rw [hcore])
    exact funext fun j => (hcount.aGet j).trans (hdrop j)
  rwa [hD, hA, hpc] at hret

/-- An LRES of a line the core holds (R117). -/
theorem nearLres_usable {v : State} {c va size : Nat} {p : Piece} {o : OpAt} (hc : c ≠ 240) (hlen : p.len = size) (hu : Usable v c (p.pa / 64)) :
    ∃ w, Counted c v w ∧ nearLres v c va p o .none_ =
      (.done (nextPc (setCore w c { getCore w c with resv := some (resvAt w c p.pa) }) c),
        dSet (setCore w c { getCore w c with resv := some (resvAt w c p.pa) }) c o.rd.toNat
          (BitVec.ofNat 64 (lineGet (hline v c (p.pa / 64)).data (p.pa % 64) size))) := by
  have hw := countFree_counted v c 0x007 (p.pa / 64 * 64)
  have hl := hline_congr hw.only.lines c (p.pa / 64)
  refine ⟨_, hw, ?_⟩
  have hk : atKind 0xA = .lres := rfl
  unfold nearLres
  dsimp only
  rw [readWb_usable hc hu.valid (by rw [coreAttr_world hc]; exact hu.world)]
  dsimp only
  rw [hl, if_pos hu.valid]
  unfold nearDo
  simp only [hk, hl, hu.clean, Bool.false_eq_true, if_false, hlen]

theorem resvAt_counted {v w : State} {c : Nat} (hc : c ≠ 240) (h : Counted c v w) (pa : Nat) : resvAt w c pa =
    ⟨pa / (sysEff v c 0x005 false).toNat * (sysEff v c 0x005 false).toNat, (sysEff v c 0x005 false).toNat, secOf (getCore v c)⟩ := by
  obtain ⟨_, hcs, _, _, _, _, hstale, _⟩ := h.fields
  have heff : sysEff w c 0x005 false = sysEff v c 0x005 false := sysEff_congr hstale (h.sys _ _ rfl)
  rw [resvAt, if_neg (show c ≠ mpCore from hc), heff, secOf, secOf, hcs]

/-- Settles O20: LRES, SCOND with the reservation, SCOND without it. -/
theorem loadReserveStoreConditional : Obligations.LoadReserveStoreConditional := by
  intro c o e s v p h hc harr h1 hres hsz hsb u size x va g holds
  refine ⟨fun h2 ha hu => ?_, fun ha hu hown hholds hheld => ?_, fun ha hholds => ?_⟩
  · obtain ⟨hlen, hfit, _⟩ := checkAccess_single ha.passes
    have hbody := bodyAtomic_passed (aop := 0xA) hc h1 hres hsz (fun _ => h2) (kind := .read) rfl (op := .resv) rfl ha hsb
    obtain ⟨w, hw, hdo⟩ := nearLres_usable (va := va) (o := o) hc hlen hu
    obtain ⟨hpc, hcs, hd, _, _, _, _, hstep⟩ := hw.fields
    obtain ⟨y, hy⟩ : ∃ y, y = setCore w c { getCore w c with resv := some (resvAt w c p.pa) } := ⟨_, rfl⟩
    rw [← hy] at hdo
    have hcore : getCore y c = { getCore w c with resv := some (resvAt w c p.pa) } := by rw [hy, core_setCore_same]
    have hret := retired_dSet hc (x := y) (by rw [hcore, hcs, ha.cstat]; exact h.ss) (by rw [hcore, hstep]; exact ha.stepping.trans h.free)
      o.rd.toNat (BitVec.ofNat 64 (lineGet x.data (p.pa % 64) size))
    have honly : CoreOnly c v y := by
      rw [hy]
      exact hw.only.trans (.setCore ..)
    have hD : dGet y c = dGet v c := funext (dGet_congr (by rw [hcore, hd]))
    rw [harr] at hbody
    refine ⟨_, rfl, ?_⟩
    rw [runInstr_done h (hbody.trans hdo)]
    rw [hD, hcore, hpc] at hret
    refine ⟨hret.pc, hret.d, ?_, hret.rest.lines.trans honly.lines, hret.rest.dram.trans honly.dram⟩
    rw [hret.resv, hcore, resvAt_counted hc hw]
  · obtain ⟨hlen, hfit, _⟩ := checkAccess_single ha.passes
    have hbody := bodyAtomic_passed (aop := 0xB) hc h1 hres hsz (fun h => absurd h (by decide)) (kind := .rw) rfl (op := .resv) rfl ha hsb
    have hhold : resvHolds (getCore v c) p.pa p.len = true := by
      rw [hlen]
      exact (resvHolds_iff ..).mpr hholds
    obtain ⟨found, hnear⟩ := nearAtomic_owned (va := va) (o := o) (aop := 0xB) (held := e.held) hc hu hown (by rw [hheld]; rfl)
    obtain ⟨w, y, hdo, hy, hnone⟩ := nearDo_scond (va := va) (o := o) (found := found) hhold
    have hdone : bodyAtomic c o 0xB e u = nearDo v c va p o 0xB found := by
      rw [hbody]
      have hk : atKind 0xB = .scond := rfl
      simp only [hk, hhold, Bool.not_true, Bool.false_eq_true, if_false, harr]
      exact hnear
    obtain ⟨hret, _, hst⟩ := hy.retired hc hlen hfit (by rw [ha.cstat]; exact h.ss) (ha.stepping.trans h.free) o.rd.toNat 1
    rw [← runInstr_done h (hdone.trans hdo)] at hret hst
    exact ⟨_, rfl, hret.pc, hret.d, hret.resv.trans hnone, hst.value, hst.bytes, hst.others, hst.dram⟩
  · obtain ⟨hlen, _, _⟩ := checkAccess_single ha.passes
    have hbody := bodyAtomic_passed (aop := 0xB) hc h1 hres hsz (fun h => absurd h (by decide)) (kind := .rw) rfl (op := .resv) rfl ha hsb
    have hhold : resvHolds (getCore v c) p.pa p.len = false := by
      rw [hlen, Bool.eq_false_iff]
      exact fun hb => hholds ((resvHolds_iff ..).mp hb)
    obtain ⟨y, hfail, hnone, honly, hret⟩ := scondFail_retired hc (by rw [ha.cstat]; exact h.ss) (ha.stepping.trans h.free) o.rd.toNat
    have hdone : bodyAtomic c o 0xB e u = scondFail v c o.rd.toNat := by
      rw [hbody]
      have hk : atKind 0xB = .scond := rfl
      simp only [hk, hhold, Bool.not_false, if_true]
    rw [← runInstr_done h (hdone.trans hfail)] at hret
    exact ⟨_, rfl, hret.pc, hret.d, hret.resv.trans hnone, hret.rest.lines.trans honly.lines, hret.rest.dram.trans honly.dram⟩

end Sys2Proof.Machine
end

section
/-! PROOFS. Stores leaving the store buffer (R221, R228, R239, R277). -/
namespace Sys2Proof.Machine

open Sys2Proof

theorem tryBar_none {s : State} {c : Nat} (h : (getCore s c).bar = none) : tryBar s c = s := by
  unfold tryBar
  dsimp only
  rw [h]

theorem enterWaitst_awake {s : State} {c : Nat} (h : (getCore s c).waiting = false) : enterWaitst s c = s := by
  unfold enterWaitst
  exact if_neg (fun hw => by simp [h] at hw)

/-- A note of what an entry's line had given is dropped; nothing else of the core changes. -/
theorem dropFill_core (s : State) (c line : Nat) :
    getCore (dropFill s c line) c = { getCore s c with served := (getCore s c).served.filter (fun f => f.line != line) } :=
  core_setCore_same ..

/-- An entry that has left the buffer, with nothing that waits for it (R221). -/
theorem sbRemove_core {s : State} {c i : Nat} (h : (getCore s c).bar = none) :
    (∃ served, getCore (sbRemove s c i) c = { getCore s c with served := served, sb := (getCore s c).sb.eraseIdx i }) ∧
    CoreOnly c s (sbRemove s c i) := by
  obtain ⟨u, served, hu, hcore, he⟩ : ∃ u served, CoreOnly c s u ∧ getCore u c = { getCore s c with served := served } ∧
      sbRemove s c i = tryBar (setCore u c { getCore u c with sb := (getCore s c).sb.eraseIdx i }) c := by
    unfold sbRemove
    dsimp only
    split
    next e _ => exact ⟨_, _, .setCore .., dropFill_core .., rfl⟩
    next => exact ⟨s, (getCore s c).served, .refl .., rfl, rfl⟩
  rw [he, tryBar_none (by rw [core_setCore_same, hcore]; exact h)]
  exact ⟨⟨served, by rw [core_setCore_same, hcore]⟩, hu.trans (.setCore ..)⟩

/-- The oldest and only entry of a buffer may leave when it has not been sent (R228). -/
theorem drainable_single {s : State} {e : SbEntry} (h : e.sent = false) : drainable s [e] 0 = true := by
  simp [drainable, h]

/-- A store performed in a line the core holds in M (R221, R277). -/
theorem drainEntry_owned {s : State} {c : Nat} {e : SbEntry} (hc : c ≠ 240) (hsb : (getCore s c).sb = [e]) (hsent : e.sent = false)
    (hdev : e.dev = false) (hnc : e.nc = false) (hloc : isLocalMem s e.pa = true) (hst : (hline s c (e.pa / 64)).st = .m)
    (hw : (hline s c (e.pa / 64)).sec = true → e.world = true) :
    drainEntry s c 0 .none_ = sbRemove (breakResv (mergeStore s c (e.pa / 64) e) c (e.pa / 64 * 64) 64) c 0 := by
  unfold drainEntry
  dsimp only
  rw [hsb, drainable_single hsent]
  simp only [Bool.not_true, Bool.false_eq_true, if_false, List.getElem?_cons_zero, hdev, hloc, Bool.false_and, hnc]
  unfold drainWb
  dsimp only
  rw [arrFound_none _ _ _ _ hc, worldEvict_usable hw, if_pos (Or.inl hst)]

/-- A DEV store leaves as DEV_WR for the device (R227). -/
theorem drainEntry_dev {s : State} {c : Nat} {e : SbEntry} (hsb : (getCore s c).sb = [e]) (hsent : e.sent = false)
    (hdev : e.dev = true) : drainEntry s c 0 .none_ = drainDev s c 0 e := by
  unfold drainEntry
  dsimp only
  rw [hsb, drainable_single hsent]
  simp only [Bool.not_true, Bool.false_eq_true, if_false, List.getElem?_cons_zero, hdev, if_true]

/-! ### What the destination of an access depends on -/

theorem devStop_congr {c : Nat} {s t : State} (h : CoreOnly c s t) (pa : Nat) : devStop t pa = devStop s pa := by
  obtain ⟨he, _⟩ := h
  have hread : devStop t pa = devStop { t with cores := s.cores, freeCtr := s.freeCtr } pa := rfl
  rw [hread, he]

theorem isLocalMem_congr {c : Nat} {s t : State} (h : CoreOnly c s t) (pa : Nat) : isLocalMem t pa = isLocalMem s pa := by
  obtain ⟨he, _⟩ := h
  have hread : isLocalMem t pa = isLocalMem { t with cores := s.cores, freeCtr := s.freeCtr } pa := rfl
  rw [hread, he]

theorem isRemoteMem_congr {c : Nat} {s t : State} (h : CoreOnly c s t) (pa : Nat) : isRemoteMem t pa = isRemoteMem s pa := by
  obtain ⟨he, _⟩ := h
  have hread : isRemoteMem t pa = isRemoteMem { t with cores := s.cores, freeCtr := s.freeCtr } pa := rfl
  rw [hread, he]

/-! ### Errors -/

theorem coreErr_core (s : State) (c b pa : Nat) : ∃ sys, getCore (coreErr s c b pa) c = { getCore s c with sys := sys } := by
  unfold coreErr
  split
  · exact ⟨(getCore s c).sys, rfl⟩
  · exact ⟨_, by simp only [sysSet, core_setCore_same]; rfl⟩

/-- A deferred error that is recorded (R239). -/
theorem deferError_core {s : State} {c : Nat} (va pa : Nat) (wnr : Bool) (h : (getCore s c).defErr = none) :
    ∃ sys, getCore (deferError s c va pa wnr) c = { getCore s c with
      sys := sys, defErr := some ⟨esynOf { cls := 0x20, wnr := wnr, deferred := true }, BitVec.ofNat 64 va, BitVec.ofNat 64 pa⟩ } := by
  unfold deferError
  dsimp only
  rw [h]
  dsimp only
  obtain ⟨sys, hs⟩ := coreErr_core (setCore s c { getCore s c with
    defErr := some ⟨esynOf { cls := 0x20, wnr := wnr, deferred := true }, BitVec.ofNat 64 va, BitVec.ofNat 64 pa⟩ }) c 1 pa
  exact ⟨sys, by rw [hs, core_setCore_same]⟩

theorem esynOf_deferred (wnr : Bool) :
    esynOf { cls := 0x20, wnr := wnr, deferred := true } = if wnr then 0x207C000000000000 else 0x203C000000000000 := by
  cases wnr <;> decide

/-- The one entry of a buffer marked as sent. -/
theorem sbMark_single {s : State} {c tx : Nat} {e : SbEntry} (hsb : (getCore s c).sb = [e]) :
    getCore (sbMark s c 0 tx) c = { getCore s c with sb := [{ e with sent := true, txid := tx }] } := by
  rw [sbMark, core_setCore_same, hsb]
  rfl

/-- A store to a line held in M leaves the buffer for the line (R221). -/
theorem drain_owned {s : State} {c : Nat} {e : SbEntry} (hc : c ≠ 240) (hsb : (getCore s c).sb = [e]) (hbar : (getCore s c).bar = none)
    (hwait : (getCore s c).waiting = false) (hsent : e.sent = false) (hdev : e.dev = false) (hnc : e.nc = false)
    (hloc : isLocalMem s e.pa = true) (hst : (hline s c (e.pa / 64)).st = .m)
    (hw : (hline s c (e.pa / 64)).sec = true → e.world = true) :
    let t := enterWaitst (tryBar (drainEntry s c 0 .none_) c) c
    (getCore t c).sb = [] ∧ t.lines = (mergeStore s c (e.pa / 64) e).lines ∧ t.dram = s.dram := by
  intro t
  obtain ⟨u, hu⟩ : ∃ u, u = breakResv (mergeStore s c (e.pa / 64) e) c (e.pa / 64 * 64) 64 := ⟨_, rfl⟩
  have hoth : OnlyOthers c (mergeStore s c (e.pa / 64) e) u := by
    rw [hu]
    exact .breakResv ..
  have hcore : getCore u c = getCore s c := hoth.own
  obtain ⟨⟨served, hk⟩, honly⟩ := sbRemove_core (s := u) (c := c) (i := 0) (by rw [hcore]; exact hbar)
  have ht : t = sbRemove u c 0 := by
    have hdrain := drainEntry_owned hc hsb hsent hdev hnc hloc hst hw
    rw [← hu] at hdrain
    change enterWaitst (tryBar (drainEntry s c 0 .none_) c) c = _
    rw [hdrain, tryBar_none (by rw [hk, hcore]; exact hbar), enterWaitst_awake (by rw [hk, hcore]; exact hwait)]
  rw [ht, hk, hcore, hsb]
  exact ⟨rfl, honly.lines.trans hoth.lines, honly.dram.trans hoth.dram⟩

/-- A DEV store leaves for its device (R227). -/
theorem drain_dev {s : State} {c : Nat} {e : SbEntry} (hsb : (getCore s c).sb = [e]) (hbar : (getCore s c).bar = none)
    (hwait : (getCore s c).waiting = false) (hsent : e.sent = false) (hdev : e.dev = true) (hloc : isLocalMem s e.pa = false)
    (hrem : isRemoteMem s e.pa = false) :
    ∃ p, let t := enterWaitst (tryBar (drainEntry s c 0 .none_) c) c
      t.net = s.net ++ [p] ∧ p.cmd = .devWr ∧ p.src = coreStop c ∧ p.dst = devStop s e.pa ∧ p.addr = e.pa ∧
      (getCore t c).sb = [{ e with sent := true, txid := p.txid }] ∧ t.lines = s.lines ∧ t.dram = s.dram := by
  obtain ⟨u, hu⟩ : ∃ u, u = countEvent { s with txNext := s.txNext + 1 } c 0x014 := ⟨_, rfl⟩
  have hcount : Counted c { s with txNext := s.txNext + 1 } u := by
    rw [hu]
    exact countEvent_counted ..
  have hloc' : isLocalMem u e.pa = false := (isLocalMem_congr hcount.only _).trans hloc
  have hrem' : isRemoteMem u e.pa = false := (isRemoteMem_congr hcount.only _).trans hrem
  have hdst : devStop u e.pa = devStop s e.pa := devStop_congr hcount.only _
  have hcu : getCore { s with txNext := s.txNext + 1 } c = getCore s c := rfl
  have hsame := hcount.same
  rw [hcu] at hsame
  have hsbu : (getCore u c).sb = [e] := by rw [← hsb, ← hsame]
  have hbaru : (getCore u c).bar = none := by rw [← hbar, ← hsame]
  have hwaitu : (getCore u c).waiting = false := by rw [← hwait, ← hsame]
  have hdrain : ∃ w tx p, drainEntry s c 0 .none_ = sbMark w c 0 tx ∧ w.net = u.net ++ [p] ∧ p.txid = tx ∧ p.cmd = .devWr ∧
      p.src = coreStop c ∧ p.dst = devStop u e.pa ∧ p.addr = e.pa ∧ w.cores = u.cores ∧ w.lines = u.lines ∧ w.dram = u.dram := by
    rw [drainEntry_dev hsb hsent hdev]
    unfold drainDev newTxid
    dsimp only
    rw [← hu, hloc', hrem']
    simp only [Bool.or_self, Bool.false_eq_true, if_false]
    exact ⟨_, _, _, rfl, rfl, rfl, rfl, rfl, rfl, rfl, rfl, rfl, rfl⟩
  obtain ⟨w, _, p, he, hnet, rfl, hcmd, hsrc, hpdst, haddr, hcores, hlines, hdram⟩ := hdrain
  have hcw : getCore w c = getCore u c := by rw [getCore, getCore, hcores]
  have hk := sbMark_single (s := w) (c := c) (tx := p.txid) (by rw [hcw]; exact hsbu)
  refine ⟨p, ?_⟩
  dsimp only
  rw [he, tryBar_none (by rw [hk, hcw]; exact hbaru), enterWaitst_awake (by rw [hk, hcw]; exact hwaitu), hk]
  exact ⟨hnet.trans (congrArg (· ++ [p]) hcount.only.net), hcmd, hsrc, hpdst.trans hdst, haddr, rfl, hlines.trans hcount.only.lines,
    hdram.trans hcount.only.dram⟩

theorem takeAny_getCore {f : Packet → Bool} {s t : State} {p : Packet} (h : takeAny f s = some (p, t)) (c : Nat) :
    getCore t c = getCore s c := by
  unfold takeAny at h
  split at h
  · cases h
    rfl
  · cases h

/-- A DEV store that completes with error leaves a deferred error (R239). -/
theorem devStoreError_recorded {s : State} {c : Nat} {e : SbEntry} (hsb : (getCore s c).sb = [e]) (hbar : (getCore s c).bar = none)
    (hdev : e.dev = true) (hsent : e.sent = true) (hreset : (getCore s c).inReset = false) (herr : (getCore s c).defErr = none) :
    (getCore (devStoreError s c 0) c).sb = [] ∧
    (getCore (devStoreError s c 0) c).defErr = some ⟨0x207C000000000000, BitVec.ofNat 64 e.va, BitVec.ofNat 64 e.pa⟩ := by
  obtain ⟨u, hu, he⟩ : ∃ u, getCore u c = getCore s c ∧ devStoreError s c 0 = sbFail u c 0 := by
    have hsent' : (!(e.dev && e.sent)) = false := by rw [hdev, hsent]; rfl
    unfold devStoreError
    simp only [hsb, List.getElem?_cons_zero, hsent', Bool.false_eq_true, if_false]
    split
    next t ht =>
      have hcore : getCore (delOutst t (coreStop c) e.txid) c = getCore s c := takeAny_getCore ht c
      refine ⟨_, hcore, ?_⟩
      rw [hcore, hreset]
      rfl
    next =>
      refine ⟨delOutst s (coreStop c) e.txid, rfl, ?_⟩
      rw [show getCore (delOutst s (coreStop c) e.txid) c = getCore s c from rfl, hreset]
      rfl
  have hfail : sbFail u c 0 = sbRemove (deferError u c e.va e.pa true) c 0 := by
    unfold sbFail
    rw [hu, hsb]
    rfl
  obtain ⟨sys, hk⟩ := deferError_core e.va e.pa true (by rw [hu]; exact herr)
  obtain ⟨⟨served, hend⟩, _⟩ := sbRemove_core (s := deferError u c e.va e.pa true) (c := c) (i := 0) (by rw [hk, hu]; exact hbar)
  rw [he, hfail, hend, hk, hu, hsb, esynOf_deferred]
  exact ⟨rfl, rfl⟩

/-- Settles O13: a store into the core's own line, a DEV store that leaves, one that completes with error. -/
theorem storeBufferDrain : Obligations.StoreBufferDrain := by
  refine ⟨fun c e s hc hsb hbar hwait hsent => ⟨fun hdev hnc hloc hst hw => ?_, fun hdev hloc hrem => ?_⟩,
    fun c e s hc hsb hbar hdev hsent hreset herr => ?_⟩
  · obtain ⟨hnosb, hlines, hdram⟩ := drain_owned hc hsb hbar hwait hsent hdev hnc hloc hst hw
    refine ⟨_, rfl, hnosb, ?_, fun j hj => ?_, fun h l hne => ?_, hdram⟩
    · rw [hline_congr hlines, mergeStore, hline_setHline_same]
    · rw [hline_congr hlines, mergeStore, hline_setHline_same]
      exact lineByte_lineMerge _ _ _ _ hj
    · rw [hline_congr hlines, mergeStore, hline_setHline_ne hne]
  · obtain ⟨p, hnet, hcmd, hsrc, hdst, haddr, hk, hlines, hdram⟩ := drain_dev hsb hbar hwait hsent hdev hloc hrem
    exact ⟨_, p, rfl, hnet, hcmd, hsrc, hdst, haddr, hk, hlines, hdram⟩
  · obtain ⟨hnosb, hdef⟩ := devStoreError_recorded hsb hbar hdev hsent hreset herr
    exact ⟨_, _, rfl, hnosb, hdef, rfl, rfl, rfl⟩

end Sys2Proof.Machine
end

section
/-! PROOFS. Cache maintenance by address (R122 to R125). -/
namespace Sys2Proof.Machine

open Sys2Proof

theorem wordT_lt {maj rd rs1 rs2 fn : Nat} (h1 : maj < 64) (h2 : rd < 32) (h3 : rs1 < 32) (h4 : rs2 < 32) (h5 : fn < 2 ^ 11) :
    wordT maj rd rs1 rs2 fn < 2 ^ 32 := by
  unfold wordT
  omega

/-- CINV.VA at PL0 (R123). -/
theorem bodyMaint_undef {c : Nat} {o : OpT} {e : Seen} {s : State} (hpl : plOf (getCore s c) = 0) :
    bodyMaint c o 0 .cmoInv e s = (.exc (undef (wordT 0x07 o.rd.toNat o.rs1.toNat o.rs2.toNat 0)), s) := by
  unfold bodyMaint
  exact if_pos (Or.inr (Or.inr (Or.inr ⟨rfl, hpl⟩)))

/-- A maintenance operation's word is allocated, not trapped (R122), and its address is translated. -/
structure MaintChecked (u v : State) (c : Nat) (o : OpT) (k : Cmd) (e : Seen) (x : XOk) : Prop where
  core : c ≠ 240
  rd : o.rd = 0
  rs2 : o.rs2 = 0
  rs1 : o.rs1.toNat < 16
  level : k = .cmoInv → plOf (getCore u c) ≠ 0
  trap : plOf (getCore u c) ≤ 1 → bit (sysEff u c 0x501 (secOf (getCore u c))) 0 = false
  translated : xlat u c (if k = .cmoInv then .write else .read) .maint false (aGet u c o.rs1.toNat).toNat e.fresh = (.ok x, v)

section
variable {u v : State} {c fn : Nat} {o : OpT} {e : Seen} {k : Cmd} {x : XOk}

theorem MaintChecked.allocated (h : MaintChecked u v c o k e x) :
    ¬(o.rd ≠ 0 ∨ o.rs2 ≠ 0 ∨ (!(aOk c o.rs1.toNat)) = true ∨ (k = .cmoInv ∧ plOf (getCore u c) = 0)) := by
  rintro (hrd | h2 | h1 | ⟨hk, hpl⟩)
  · exact hrd h.rd
  · exact h2 h.rs2
  · simp [aOk, show c ≠ mpCore from h.core, h.rs1] at h1
  · exact h.level hk hpl

theorem MaintChecked.notTrapped (h : MaintChecked u v c o k e x) :
    ¬(c ≠ mpCore ∧ plOf (getCore u c) ≤ 1 ∧ bit (sysEff u c 0x501 (secOf (getCore u c))) 0 = true) := by
  rintro ⟨_, hpl, hb⟩
  rw [h.trap hpl] at hb
  cases hb

/-- On memory that is not write-back nothing is done (R122). -/
theorem bodyMaint_notWb (h : MaintChecked u v c o k e x) (hty : x.ty ≠ .wb) : bodyMaint c o fn k e u = doneNext v c := by
  have hm : ¬(c = mpCore ∧ x.pa < 0x80000000) := fun hp => h.core hp.1
  unfold bodyMaint
  dsimp only
  rw [if_neg h.allocated, if_neg h.notTrapped, addrOf_of_ne h.core, h.translated]
  dsimp only
  rw [if_neg hm, if_pos hty]

/-- What an operation asks of the line's home (R123, R124). -/
def maintPacket (v : State) (c : Nat) (k : Cmd) (x : XOk) : Packet :=
  let a := coreAttr v c x.keyid
  { cmd := cmoEffect v c k, src := coreStop c, dst := lineStop v (x.pa / 64), txid := v.txNext % 0x10000, world := a.world,
    partid := a.partid, keyid := a.keyid, addr := x.pa / 64 * 64, holder := 0xFE }

/-- The core's note of an operation that is under way (R125). -/
def maintNote (v : State) (va : Nat) (k : Cmd) (x : XOk) : Maint :=
  ⟨x.pa / 64, va, x.pa, k == .cmoInv, v.txNext % 0x10000, .pending⟩

/-- A line of another package: the request leaves for the remote agent (R124). -/
theorem bodyMaint_remote (h : MaintChecked u v c o k e x) (hty : x.ty = .wb) (hloc : isLocalMem v x.pa = false)
    (hrem : isRemoteMem v x.pa = true) (htrans : transSt (hline v c (x.pa / 64)).st = false)
    (hsb : ∀ b ∈ (getCore v c).sb, b.pa / 64 ≠ x.pa / 64) :
    ∃ w, bodyMaint c o fn k e u = (.done (nextPc w c), w) ∧
      getCore w c = { getCore v c with maint := (getCore v c).maint ++ [maintNote v (aGet u c o.rs1.toNat).toNat k x] } ∧
      (∃ m, w.net = v.net ++ [m] ∧ m.cmd = cmoEffect v c k ∧ m.src = coreStop c ∧ m.dst = ⟨12, 22⟩ ∧ m.addr = x.pa / 64 * 64) ∧
      w.lines = v.lines ∧ w.dram = v.dram := by
  have hm : ¬(c = mpCore ∧ x.pa < 0x80000000) := fun hp => h.core hp.1
  have hmp : c ≠ mpCore := h.core
  have hwait : ¬((getCore v c).sb.any (fun b => b.pa / 64 == x.pa / 64) = true ∨ (c ≠ mpCore ∧ transSt (hline v c (x.pa / 64)).st = true)) := by
    rintro (hb | ⟨_, ht⟩)
    · obtain ⟨b, hmem, hb⟩ := List.any_eq_true.mp hb
      exact hsb b hmem (beq_iff_eq.mp hb)
    · rw [htrans] at ht
      cases ht
  obtain ⟨w, hw⟩ : ∃ w, w = addOutst (send (setCore { v with txNext := v.txNext + 1 } c
      { getCore v c with maint := (getCore v c).maint ++ [maintNote v (aGet u c o.rs1.toNat).toNat k x] }) (toAgent v (maintPacket v c k x)))
      { stop := coreStop c, txid := v.txNext % 0x10000, cmd := cmoEffect v c k, addr := x.pa / 64 * 64, since := now v } := ⟨_, rfl⟩
  refine ⟨w, ?_, ?_, ?_, ?_, ?_⟩
  · unfold bodyMaint
    dsimp only
    rw [if_neg h.allocated, if_neg h.notTrapped, addrOf_of_ne h.core, h.translated]
    dsimp only
    rw [if_neg hm, if_neg (not_not_intro hty)]
    rw [hw]
    have hloc' : ∀ y, isLocalMem (setCore (newTxid v).2 c y) x.pa = false := fun _ => hloc
    obtain ⟨place, hplace⟩ : ∃ place, mpPlace v x.pa = place := ⟨_, rfl⟩
    cases place <;>
      simp only [hplace, if_neg hmp, hloc, hloc', hrem, Bool.not_false, Bool.not_true, Bool.and_false, Bool.false_eq_true, if_false,
        if_neg hwait] <;> rfl
  · rw [hw]
    exact core_setCore_same ..
  · rw [hw]
    exact ⟨_, rfl, rfl, rfl, rfl, rfl⟩
  · rw [hw]
    rfl
  · rw [hw]
    rfl

end

/-- What an operation asks for: CINV.VA flushes at PL1 of the normal world (R123). -/
theorem cmoEffect_of_core {v : State} {c : Nat} {u : State} (hc : c ≠ 240) (hcs : (getCore v c).cstat = (getCore u c).cstat) (k : Cmd) :
    cmoEffect v c k = if k = .cmoInv ∧ plOf (getCore u c) = 1 ∧ secOf (getCore u c) = false then .cmoFls else k := by
  have hm : c ≠ mpCore := hc
  have hpl : plOf (getCore v c) = plOf (getCore u c) := by rw [plOf, hcs]; rfl
  have hsec : secOf (getCore v c) = secOf (getCore u c) := by rw [secOf, hcs]; rfl
  simp only [cmoEffect, hm, false_or, hpl, hsec, Bool.not_eq_true']

/-- The two ends of a maintenance instruction by address. -/
theorem runInstr_maint {s v : State} {c fn : Nat} {o : OpT} {e : Seen} {k : Cmd} {x : XOk} (h : Runs s c)
    (hx : MaintChecked (fetched s c) v c o k e x) (hcs : (getCore v c).cstat = (getCore (fetched s c) c).cstat)
    (hst : (getCore v c).stepping = (getCore (fetched s c) c).stepping) :
    let va := (aGet (fetched s c) c o.rs1.toNat).toNat
    let t := runInstr s c (bodyMaint c o fn k e)
    (x.ty = .wb → transSt (hline v c (x.pa / 64)).st = false → isLocalMem v x.pa = false → isRemoteMem v x.pa = true →
      (∀ b ∈ (getCore v c).sb, b.pa / 64 ≠ x.pa / 64) →
      ∃ m y, (getCore t c).pc = (getCore v c).pc + 4 ∧ (∀ r, dGet t c r = dGet v c r) ∧
        t.net = v.net ++ [m] ∧ m.cmd = cmoEffect v c k ∧ m.src = coreStop c ∧ m.dst = ⟨12, 22⟩ ∧ m.addr = x.pa / 64 * 64 ∧
        (getCore t c).maint = (getCore v c).maint ++ [y] ∧ y.va = va ∧ y.pa = x.pa ∧ y.st = .pending ∧
        t.lines = v.lines ∧ t.dram = v.dram) ∧
    (x.ty ≠ .wb → Retired c v t (dGet v c) (aGet v c) (qGet v c) ((getCore v c).pc + 4)) := by
  intro va t
  have hssv : bit (getCore v c).cstat 7 = false := by rw [hcs]; exact h.ss
  have hstv : (getCore v c).stepping = false := hst.trans h.free
  refine ⟨fun hty htrans hloc hrem hsb => ?_, fun hty => ?_⟩
  · obtain ⟨w, hb, hcore, ⟨m, hnet, hcmd, hsrc, hdst, haddr⟩, hlines, hdram⟩ := bodyMaint_remote (fn := fn) hx hty hloc hrem htrans hsb
    have hsw : bit (getCore w c).cstat 7 = false := by rw [hcore]; exact hssv
    have htw : (getCore w c).stepping = false := by rw [hcore]; exact hstv
    have hkept := complete_regsKept (nextPc w c) hsw htw
    obtain ⟨sys, left, hend⟩ := complete_core (nextPc w c) hsw htw
    have ht : t = complete w c (nextPc w c) := runInstr_done h hb
    rw [ht]
    refine ⟨m, maintNote v va k x, ?_, fun r => ?_, hkept.rest.net.trans hnet, hcmd, hsrc, hdst, haddr, ?_, rfl, rfl, rfl, hkept.rest.lines.trans hlines,
      hkept.rest.dram.trans hdram⟩
    · rw [pc_complete _ hsw htw, trunc_of_ne hx.core, nextPc, hcore]
    · exact dGet_congr (by rw [hkept.d, hcore]) r
    · rw [hend]
      exact congrArg Core.maint hcore
  · have hret := (RegsAt.refl c v).retired hssv hstv (nextPc v c)
    rw [trunc_of_ne hx.core] at hret
    have ht : t = complete v c (nextPc v c) := runInstr_done h (bodyMaint_notWb hx hty)
    rw [ht]
    exact hret

/-- A failure leaves all but the error registers of the core (R125, R239). -/
theorem deferError_kept (s : State) (c va pa : Nat) (wnr : Bool) :
    ∃ sys d, getCore (deferError s c va pa wnr) c = { getCore s c with sys := sys, defErr := d } := by
  cases h : (getCore s c).defErr with
  | none =>
    obtain ⟨sys, hk⟩ := deferError_core va pa wnr h
    exact ⟨sys, _, hk⟩
  | some d =>
    unfold deferError
    dsimp only
    rw [h]
    dsimp only
    split
    · exact ⟨(getCore s c).sys, (getCore s c).defErr, rfl⟩
    · exact ⟨_, (getCore s c).defErr, core_setCore_same ..⟩

/-- The oldest finished operation is reported (R125). -/
theorem maintDone_reported {s : State} {c : Nat} {y : Maint} (h : (getCore s c).maint.find? (fun y => y.st != .pending) = some y)
    (hbar : (getCore s c).bar = none) :
    let t := maintDone s c
    (getCore t c).maint = (getCore s c).maint.erase y ∧ (getCore t c).pc = (getCore s c).pc ∧
      (y.st = .ok → (getCore t c).defErr = (getCore s c).defErr) ∧
      (y.st = .error → (getCore s c).defErr = none → (getCore t c).defErr =
        some ⟨if y.wnr then 0x207C000000000000 else 0x203C000000000000, BitVec.ofNat 64 y.va, BitVec.ofNat 64 y.pa⟩) := by
  intro t
  obtain ⟨u, hu⟩ : ∃ u, u = setCore s c { getCore s c with maint := (getCore s c).maint.erase y } := ⟨_, rfl⟩
  have hcore : getCore u c = { getCore s c with maint := (getCore s c).maint.erase y } := by rw [hu, core_setCore_same]
  have ht : t = tryBar (if y.st = .error then deferError u c y.va y.pa y.wnr else u) c := by
    change maintDone s c = _
    unfold maintDone
    dsimp only
    rw [h, hu]
  rw [ht]
  by_cases herr : y.st = .error
  · obtain ⟨sys, d, hk⟩ := deferError_kept u c y.va y.pa y.wnr
    rw [if_pos herr, tryBar_none (by rw [hk, hcore]; exact hbar)]
    refine ⟨by rw [hk, hcore], by rw [hk, hcore], fun hok => ?_, fun _ hnone => ?_⟩
    · rw [herr] at hok
      cases hok
    · obtain ⟨_, hk'⟩ := deferError_core y.va y.pa y.wnr (s := u) (c := c) (by rw [hcore]; exact hnone)
      rw [hk', esynOf_deferred]
  · rw [if_neg herr, tryBar_none (by rw [hcore]; exact hbar)]
    exact ⟨by rw [hcore], by rw [hcore], fun _ => by rw [hcore], fun h => (herr h).elim⟩

/-- Settles O21: the three instructions, CINV.VA at PL0, the end of an operation. -/
theorem cacheMaintenance : Obligations.CacheMaintenance := by
  refine ⟨?_, fun c o e s h hc hpl => ?_, fun c y s hy hbar => ?_⟩
  · intro c o e s v x h hc hrd h2 h1 u pl va htrap hcs hst q hq hlevel hx
    have hmain : ∀ (fn : Nat) (k : Cmd), MaintChecked u v c o k e x → _ := fun fn k hk => runInstr_maint (fn := fn) h hk hcs hst
    have hsplit : ∀ (fn : Nat) (k : Cmd) (cmd : Cmd), MaintChecked u v c o k e x → cmoEffect v c k = cmd →
        (x.ty = .wb → transSt (hline v c (x.pa / 64)).st = false → isLocalMem v x.pa = false → isRemoteMem v x.pa = true →
          (∀ b ∈ (getCore v c).sb, b.pa / 64 ≠ x.pa / 64) →
          ∃ t m y, ok (runInstr s c (bodyMaint c o fn k e)) = .next t ∧ (getCore t c).pc = (getCore v c).pc + 4 ∧
            (∀ r, dGet t c r = dGet v c r) ∧ t.net = v.net ++ [m] ∧ m.cmd = cmd ∧ m.src = coreStop c ∧ m.dst = ⟨12, 22⟩ ∧
            m.addr = x.pa / 64 * 64 ∧ (getCore t c).maint = (getCore v c).maint ++ [y] ∧ y.va = va ∧ y.pa = x.pa ∧ y.st = .pending ∧
            t.lines = v.lines ∧ t.dram = v.dram) ∧
        (x.ty ≠ .wb → ∃ t, ok (runInstr s c (bodyMaint c o fn k e)) = .next t ∧
          Retired c v t (dGet v c) (aGet v c) (qGet v c) ((getCore v c).pc + 4)) := by
      intro fn k cmd hk hcmd
      obtain ⟨hwb, hno⟩ := hmain fn k hk
      refine ⟨fun hty htrans hloc hrem hsb => ?_, fun hty => ⟨_, rfl, hno hty⟩⟩
      obtain ⟨m, y, hpc, hd, hnet, hmcmd, hrest⟩ := hwb hty htrans hloc hrem hsb
      exact ⟨_, m, y, rfl, hpc, hd, hnet, hmcmd.trans hcmd, hrest⟩
    simp only [List.mem_cons, List.not_mem_nil, or_false] at hq
    obtain rfl | rfl | rfl := hq
    · refine hsplit 0 .cmoInv _ ⟨hc, hrd, h2, h1, fun _ => hlevel rfl, htrap, hx⟩ ?_
      rw [cmoEffect_of_core hc hcs]
      simp only [true_and]
      rfl
    · refine hsplit 1 .cmoCln _ ⟨hc, hrd, h2, h1, (fun hk => nomatch hk), htrap, hx⟩ ?_
      rw [cmoEffect_of_core hc hcs]
      rfl
    · refine hsplit 2 .cmoFls _ ⟨hc, hrd, h2, h1, (fun hk => nomatch hk), htrap, hx⟩ ?_
      rw [cmoEffect_of_core hc hcs]
      rfl
  · have hend := exec_undef_entered (i := .cinvVa c o e) (body := bodyMaint c o 0 .cmoInv e) h rfl (bodyMaint_undef hpl)
      (wordT_lt (by decide) o.rd.isLt o.rs1.isLt o.rs2.isLt (by decide))
    rw [hpl] at hend
    exact hend
  · obtain ⟨hm, hpc, hok, herr⟩ := maintDone_reported hy hbar
    exact ⟨_, rfl, hm, hpc, hok, fun h hnone => ⟨_, herr h hnone, rfl, rfl, rfl⟩⟩

end Sys2Proof.Machine
end

section
/-! PROOFS. The register file: which registers a state function writes, and what a write leaves in the fields of a register (R11, R13). -/
namespace Sys2Proof.Machine

open Sys2Proof

/-! ### Names -/

theorem num_eq_ctorIdx (r : RegName) : r.num = r.ctorIdx := by cases r <;> rfl

/-- Registers of different names have different numbers. -/
theorem num_inj {r r' : RegName} (h : r.num = r'.num) : r = r' := by
  rw [num_eq_ctorIdx, num_eq_ctorIdx] at h
  rw [← RegName.ofNat_ctorIdx r, h, RegName.ofNat_ctorIdx]

theorem regKey_ne {r r' : RegName} {i i' : Nat} (hi : i < 2 ^ 32) (hi' : i' < 2 ^ 32) (h : (r, i) ≠ (r', i')) :
    regKey r i ≠ regKey r' i' := by
  by_cases hr : r = r'
  · subst hr
    exact regKey_ne_index fun he => h (by rw [he])
  · exact regKey_ne_name (fun hn => hr (num_inj hn)) hi hi'

/-- A register that is not the one written. -/
theorem rg_setRg_other {s : State} {r r' : RegName} {i i' : Nat} {v : Word} (hi : i < 2 ^ 32) (hi' : i' < 2 ^ 32) (h : (r', i') ≠ (r, i)) :
    rg (setRg s r i v) r' i' = rg s r' i' := rg_setRg_ne (regKey_ne hi' hi h)

/-! ### Frames -/

section
variable {l : List (RegName × Nat)} {c : Nat} {s t u : State}

theorem RegsOnly.refl (l : List (RegName × Nat)) (s : State) : RegsOnly l s s := ⟨rfl, fun _ _ _ _ => rfl⟩

theorem RegsOnly.trans (h1 : RegsOnly l s t) (h2 : RegsOnly l t u) : RegsOnly l s u := by
  obtain ⟨e1, r1⟩ := h1
  obtain ⟨e2, r2⟩ := h2
  refine ⟨?_, fun r i hi hl => (r2 r i hi hl).trans (r1 r i hi hl)⟩
  rw [← e1, ← e2]

theorem RegsOnly.setRg {r : RegName} {i : Nat} (hi : i < 2 ^ 32) (hm : (r, i) ∈ l) (s : State) (v : Word) :
    RegsOnly l s (setRg s r i v) :=
  ⟨rfl, fun r' i' hi' hl => rg_setRg_other hi hi' fun he => hl (he ▸ hm)⟩

theorem RegsOnly.setRgF {r : RegName} {i : Nat} (hi : i < 2 ^ 32) (hm : (r, i) ∈ l) (s : State) (top lo x : Nat) :
    RegsOnly l s (setRgF s r i top lo x) := .setRg hi hm s _

theorem RegsOnly.mono {l' : List (RegName × Nat)} (h : RegsOnly l s t) (hl : ∀ x ∈ l, x ∈ l') : RegsOnly l' s t :=
  ⟨h.1, fun r i hi hn => h.2 r i hi fun hm => hn (hl _ hm)⟩

theorem CoreRegsOnly.of_coreOnly (h : CoreOnly c s t) : CoreRegsOnly c l s t := by
  obtain ⟨he, hc⟩ := h
  refine ⟨?_, hc, fun r i _ _ => ?_⟩
  · rw [← he]
  · rw [← he]
    rfl

theorem CoreRegsOnly.of_regsOnly (h : RegsOnly l s t) : CoreRegsOnly c l s t := by
  obtain ⟨he, hr⟩ := h
  refine ⟨?_, fun c' _ => ?_, hr⟩
  · rw [← he]
  · rw [← he]
    rfl

theorem CoreRegsOnly.trans (h1 : CoreRegsOnly c l s t) (h2 : CoreRegsOnly c l t u) : CoreRegsOnly c l s u := by
  obtain ⟨e1, c1, r1⟩ := h1
  obtain ⟨e2, c2, r2⟩ := h2
  refine ⟨?_, fun c' hc => (c2 c' hc).trans (c1 c' hc), fun r i hi hl => (r2 r i hi hl).trans (r1 r i hi hl)⟩
  rw [← e1, ← e2]

end

/-! ### Fields -/

theorem bit_of_fld {v : Word} {hi lo k : Nat} (h : k < hi + 1 - lo) : bit v (lo + k) = (fld v hi lo).testBit k := by
  rw [fld_testBit, decide_eq_true h, Bool.true_and]

theorem bit_eq_fld (v : Word) (i : Nat) : bit v i = (fld v i i).testBit 0 :=
  bit_of_fld (hi := i) (lo := i) (k := 0) (by omega)

/-- A field is the number its bits make. -/
theorem fld_congr {v w : Word} {hi lo : Nat} (h : ∀ i, lo ≤ i → i ≤ hi → bit v i = bit w i) : fld v hi lo = fld w hi lo := by
  apply Nat.eq_of_testBit_eq
  intro k
  rw [fld_testBit, fld_testBit]
  by_cases hk : k < hi + 1 - lo
  · rw [h (lo + k) (by omega) (by omega)]
  · simp [hk]

theorem fld_one_bit (v : Word) (i : Nat) : fld v i i = (bit v i).toNat := by
  apply Nat.eq_of_testBit_eq
  intro k
  rw [fld_testBit]
  cases k with
  | zero => cases bit v i <;> simp
  | succ k =>
    have hk : ¬(k + 1 < i + 1 - i) := by omega
    rw [decide_eq_false hk, Bool.false_and, Nat.testBit_lt_two_pow]
    cases bit v i <;> simp

/-! ### Writes of a register by its table -/

/-- Whether a field takes a value. -/
def FieldDef.takes (f : FieldDef) (x : Nat) : Bool :=
  match f.legal with
  | .any => true
  | .range a b => decide (a ≤ x) && decide (x ≤ b)
  | .oneOf vs => vs.contains x

/-- What a field of a register holding v reads after a write of w (R11, R13). -/
def FieldDef.written (f : FieldDef) (locked : Bool) (v w : Word) : Nat :=
  let x := fld w f.hi f.lo
  let old := fld v f.hi f.lo
  match f.ty with
  | .rw => if f.takes x then x else old
  | .ro => old
  | .wo => old
  | .rw1c => old - (old &&& x)
  | .rw1s => old ||| x
  | .rc => old
  | .rwl => if f.takes x && !locked then x else old

/-- The write of one field. -/
def writeField (locked : Bool) (v w acc : Word) (f : FieldDef) : Word :=
  let x := fld w f.hi f.lo
  let old := fld v f.hi f.lo
  match f.ty with
  | .rw => if f.takes x then setFld acc f.hi f.lo x else acc
  | .ro => acc
  | .wo => acc
  | .rw1c => setFld acc f.hi f.lo (old - (old &&& x))
  | .rw1s => setFld acc f.hi f.lo (old ||| x)
  | .rc => acc
  | .rwl => if f.takes x && !locked then setFld acc f.hi f.lo x else acc

theorem writeFields_eq_foldl (fs : List FieldDef) (locked : Bool) (v w : Word) :
    writeFields fs locked v w = fs.foldl (writeField locked v w) v := rfl

/-- A field has its place in a word. -/
def FieldDef.placed (f : FieldDef) : Bool := decide (f.lo ≤ f.hi) && decide (f.hi < 64)

/-- Two fields share no bit. -/
def FieldDef.apart (f g : FieldDef) : Bool := decide (f.hi < g.lo) || decide (g.hi < f.lo)

/-- The fields of a table share no bit. -/
def fieldsOk : List FieldDef → Bool
  | [] => true
  | f :: fs => f.placed && fs.all f.apart && fieldsOk fs

theorem written_lt (f : FieldDef) (locked : Bool) (v w : Word) : f.written locked v w < 2 ^ (f.hi + 1 - f.lo) := by
  have h1 := fld_lt v f.hi f.lo
  have h2 := fld_lt w f.hi f.lo
  unfold FieldDef.written
  dsimp only
  cases f.ty <;> dsimp only
  case rw1c => omega
  case rw1s => exact Nat.or_lt_two_pow h1 h2
  case rw => split <;> assumption
  case rwl => split <;> assumption
  all_goals assumption

/-- The write of a field sets it, or leaves the word. -/
theorem writeField_cases (locked : Bool) (v w acc : Word) (f : FieldDef) :
    writeField locked v w acc f = setFld acc f.hi f.lo (f.written locked v w) ∨
    (writeField locked v w acc f = acc ∧ f.written locked v w = fld v f.hi f.lo) := by
  unfold writeField FieldDef.written
  dsimp only
  cases f.ty <;> dsimp only
  case rw1c => exact .inl rfl
  case rw1s => exact .inl rfl
  case rw =>
    split
    · exact .inl rfl
    · exact .inr ⟨rfl, rfl⟩
  case rwl =>
    split
    · exact .inl rfl
    · exact .inr ⟨rfl, rfl⟩
  all_goals exact .inr ⟨rfl, rfl⟩

theorem writeField_bit {locked : Bool} {v w acc : Word} {f : FieldDef} {i : Nat} (hf : f.placed = true) (h : i < f.lo ∨ f.hi < i) :
    bit (writeField locked v w acc f) i = bit acc i := by
  simp only [FieldDef.placed, Bool.and_eq_true, decide_eq_true_eq] at hf
  obtain ⟨hlo, hhi⟩ := hf
  obtain he | ⟨he, _⟩ := writeField_cases locked v w acc f
  · rw [he, bit_setFld_outside _ _ _ _ _ hhi hlo h]
  · rw [he]

/-- A bit of no field of the table stays. -/
theorem foldl_writeField_bit {locked : Bool} {v w : Word} {i : Nat} : ∀ (fs : List FieldDef) (acc : Word), (∀ f ∈ fs, f.placed = true) →
    (∀ f ∈ fs, i < f.lo ∨ f.hi < i) → bit (fs.foldl (writeField locked v w) acc) i = bit acc i
  | [], _, _, _ => rfl
  | f :: fs, acc, hp, h => by
    rw [List.foldl_cons, foldl_writeField_bit fs _ (fun g hg => hp g (List.mem_cons_of_mem _ hg)) (fun g hg => h g (List.mem_cons_of_mem _ hg)),
      writeField_bit (hp f List.mem_cons_self) (h f List.mem_cons_self)]

theorem placed_of_fieldsOk : ∀ {fs : List FieldDef}, fieldsOk fs = true → ∀ f ∈ fs, f.placed = true
  | [], _, _, h => by cases h
  | g :: fs, hok, f, h => by
    simp only [fieldsOk, Bool.and_eq_true] at hok
    obtain ⟨⟨hg, _⟩, hfs⟩ := hok
    rcases List.mem_cons.mp h with rfl | h
    · exact hg
    · exact placed_of_fieldsOk hfs f h

/-- A bit of no field of the table stays (R11). -/
theorem bit_writeFields_outside {fs : List FieldDef} (hok : fieldsOk fs = true) {locked : Bool} {v w : Word} {i : Nat}
    (h : fs.all (fun f => decide (i < f.lo) || decide (f.hi < i)) = true) : bit (writeFields fs locked v w) i = bit v i := by
  refine foldl_writeField_bit fs v (placed_of_fieldsOk hok) fun f hf => ?_
  have := List.all_eq_true.mp h f hf
  simpa using this

theorem foldl_writeField_fld {locked : Bool} {v w : Word} : ∀ (fs : List FieldDef) (acc : Word), fieldsOk fs = true → ∀ f ∈ fs,
    (∀ i, f.lo ≤ i → i ≤ f.hi → bit acc i = bit v i) → fld (fs.foldl (writeField locked v w) acc) f.hi f.lo = f.written locked v w
  | [], _, _, _, hf, _ => by cases hf
  | g :: fs, acc, hok, f, hf, hacc => by
    have hplaced := placed_of_fieldsOk hok
    simp only [fieldsOk, Bool.and_eq_true, List.all_eq_true] at hok
    obtain ⟨⟨hg, hapart⟩, hfs⟩ := hok
    rw [List.foldl_cons]
    rcases List.mem_cons.mp hf with rfl | hmem
    · have hrest : fld (fs.foldl (writeField locked v w) (writeField locked v w acc f)) f.hi f.lo =
          fld (writeField locked v w acc f) f.hi f.lo := by
        refine fld_congr fun i h1 h2 => foldl_writeField_bit fs _ (placed_of_fieldsOk hfs) fun h hh => ?_
        have := hapart h hh
        simp only [FieldDef.apart, Bool.or_eq_true, decide_eq_true_eq] at this
        omega
      rw [hrest]
      simp only [FieldDef.placed, Bool.and_eq_true, decide_eq_true_eq] at hg
      obtain ⟨hlo, hhi⟩ := hg
      obtain he | ⟨he, hw⟩ := writeField_cases locked v w acc f
      · rw [he, fld_setFld_same _ _ _ _ hhi hlo, Nat.mod_eq_of_lt (written_lt ..)]
      · rw [he, hw]
        exact fld_congr hacc
    · refine foldl_writeField_fld fs _ hfs f hmem fun i h1 h2 => ?_
      rw [writeField_bit hg, hacc i h1 h2]
      have := hapart f hmem
      simp only [FieldDef.apart, Bool.or_eq_true, decide_eq_true_eq] at this
      omega

/-- A field after a write of its register (R11, R13). -/
theorem fld_writeFields {fs : List FieldDef} (hok : fieldsOk fs = true) {f : FieldDef} (hf : f ∈ fs) (locked : Bool) (v w : Word) :
    fld (writeFields fs locked v w) f.hi f.lo = f.written locked v w :=
  foldl_writeField_fld fs v hok f hf fun _ _ _ => rfl

end Sys2Proof.Machine
end

section
/-! PROOFS. Raising and setting up interrupt sources (R517 to R521, R527, R529). -/
namespace Sys2Proof.Machine

open Sys2Proof

/-! ### Raises -/

/-- A pending bit that is set (R520). -/
theorem setPend_spec {r : RegName} {i : Nat} (hi : i < 2 ^ 32) (s : State) :
    bit (rg (setRgF s r i 1 1 1) r i) 1 = true ∧ (∀ j, j ≠ 1 → bit (rg (setRgF s r i 1 1 1) r i) j = bit (rg s r i) j) ∧
    RegsOnly [(r, i)] s (setRgF s r i 1 1 1) := by
  refine ⟨?_, fun j hj => ?_, .setRgF hi List.mem_cons_self ..⟩
  · rw [setRgF, rg_setRg_same, bit_setFld _ _ _ _ _ (by decide) (by decide)]
    rfl
  · rw [setRgF, rg_setRg_same, bit_setFld_outside _ _ _ _ _ (by decide) (by decide) (by omega)]

theorem raiseVec_of_not_posted {s : State} {v : Nat} (h : bit (rg s .msictl v) 30 = false) :
    raiseVec s v = setRgF s .msictl v 1 1 1 := by
  rw [raiseVec, h]
  rfl

/-- A saturating count of n bits. -/
theorem satInc_eq_min {w x : Nat} (h : x < 2 ^ w) : satInc w x = min (x + 1) (2 ^ w - 1) := by
  unfold satInc
  split <;> omega

theorem rgF_incRgF_same {s : State} {r : RegName} {i hi lo : Nat} (h : hi < 64) (hl : lo ≤ hi) :
    rgF (incRgF s r i hi lo) r i hi lo = min (rgF s r i hi lo + 1) (2 ^ (hi + 1 - lo) - 1) := by
  have hlt : rgF s r i hi lo < 2 ^ (hi + 1 - lo) := fld_lt ..
  have hpos : 0 < 2 ^ (hi + 1 - lo) := by positivity
  rw [incRgF, rgF_setRgF_same _ _ _ _ _ _ h hl, satInc_eq_min hlt, Nat.mod_eq_of_lt (by omega)]

/-- A raise that is dropped is counted (R529). -/
theorem msiDrop_spec (s : State) : rgF (msiDrop s) .icstat 0 31 0 = min (rgF s .icstat 0 31 0 + 1) (2 ^ 32 - 1) ∧
    rgF (msiDrop s) .icstat 0 47 32 = rgF s .icstat 0 47 32 ∧ RegsOnly [(.icstat, 0)] s (msiDrop s) :=
  ⟨rgF_incRgF_same (by decide) (by decide), rgF_setRgF_field _ _ _ _ _ _ _ _ (by decide) (by decide) (by decide),
    .setRgF (by decide) List.mem_cons_self ..⟩

/-- An inbound write to MSIADDR that is dropped (R528, R529). -/
def MsiDropped (s : State) (rid : Nat) (sec : Bool) (x : Nat) : Prop :=
  x ≥ 0x8000 ∨ bit (rg s .msictl (x % 0x8000)) 0 = false ∨ (vecShare s (x % 0x8000)).isSome = true ∨
    (bit (rg s .msictl (x % 0x8000)) 47 = true ∧ fld (rg s .msictl (x % 0x8000)) 63 48 ≠ rid) ∨
    (sec = false ∧ vecSec s (x % 0x8000) = true)

theorem msiWrite_of_dropped {s : State} {rid : Nat} {sec : Bool} {x : Nat} (h : MsiDropped s rid sec x) : msiWrite s rid sec x = msiDrop s := by
  unfold msiWrite
  refine if_pos ?_
  unfold MsiDropped at h
  simpa [rgF] using h

theorem msiWrite_of_taken {s : State} {rid : Nat} {sec : Bool} {x : Nat} (h : ¬MsiDropped s rid sec x) :
    msiWrite s rid sec x = raiseVec s (x % 0x8000) := by
  unfold msiWrite
  refine if_neg fun hd => h ?_
  unfold MsiDropped
  simpa [rgF] using hd

/-! ### The controller's messages -/

theorem coreStop_of_lt {c : Nat} (h : c < 240) : coreStop c = ⟨c / 20, c % 20⟩ := if_neg (by show ¬(c = mpCore); unfold mpCore; omega)

/-- A packet for one core is one copy (R319). -/
theorem copiesOf_core {p : Packet} {c : Nat} (hp : p.dst = coreStop c) (h : c < 240) : copiesOf p = [p] := by
  rw [coreStop_of_lt h] at hp
  have h1 : ¬(c / 20 = 15) := by omega
  have h2 : ¬(c % 20 = 0x3F) := by omega
  simp only [copiesOf, hp, h1, h2, if_false]

/-- A message of the controller to one core (R323). -/
theorem sendG_irq {s : State} {p : Packet} {c : Nat} (hcmd : p.cmd = .irq) (hdst : p.dst = coreStop c) (h : c < 240) :
    ∃ q, (sendG s p).net = s.net ++ [q] ∧ q.cmd = .irq ∧ q.holder = p.holder ∧ q.arg = p.arg ∧ q.src = p.src ∧ q.dst = p.dst ∧
      (q.cls = .g ↔ 0 < tokensOf s p.src) ∧ (q.cls = .q ↔ tokensOf s p.src = 0) ∧ (sendG s p).cores = s.cores ∧
      (sendG s p).regs = s.regs ∧ (sendG s p).dram = s.dram := by
  unfold sendG
  dsimp only
  by_cases ht : tokensOf s p.src > 0
  · rw [if_pos ht, inject, copiesOf_core (c := c) (by exact hdst) h]
    refine ⟨_, rfl, hcmd, rfl, rfl, rfl, rfl, ?_, ?_, rfl, rfl, rfl⟩
    · simp [ht]
    · simp; omega
  · rw [if_neg ht, if_pos hcmd]
    refine ⟨_, rfl, hcmd, rfl, rfl, rfl, rfl, ?_, ?_, rfl, rfl, rfl⟩
    · simp; omega
    · simp; omega

/-! ### What an arrival may count and log (R328, R579) -/

/-- Registers of the listed names may have changed, and nothing else. -/
structure NamesOnly (names : List RegName) (s t : State) : Prop where
  rest : { t with regs := s.regs } = s
  regs : ∀ r i, i < 2 ^ 32 → r ∉ names → rg t r i = rg s r i

section
variable {names : List RegName} {s t u : State}

theorem NamesOnly.refl (names : List RegName) (s : State) : NamesOnly names s s := ⟨rfl, fun _ _ _ _ => rfl⟩

theorem NamesOnly.trans (h1 : NamesOnly names s t) (h2 : NamesOnly names t u) : NamesOnly names s u := by
  refine ⟨?_, fun r i hi hr => (h2.regs r i hi hr).trans (h1.regs r i hi hr)⟩
  rw [← h1.rest, ← h2.rest]

theorem NamesOnly.setRg {r : RegName} {i : Nat} (hi : i < 2 ^ 32) (hr : r ∈ names) (s : State) (v : Word) :
    NamesOnly names s (setRg s r i v) :=
  ⟨rfl, fun _ _ hi' hr' => rg_setRg_other hi hi' fun he => hr' (by rwa [(Prod.mk.inj he).1])⟩

theorem NamesOnly.incRgF {r : RegName} {i : Nat} (hi : i < 2 ^ 32) (hr : r ∈ names) (s : State) (top lo : Nat) :
    NamesOnly names s (incRgF s r i top lo) := .setRg hi hr s _

/-- A chain of register writes. -/
theorem NamesOnly.step {r : RegName} {i : Nat} (h : NamesOnly names s t) (hi : i < 2 ^ 32) (hr : r ∈ names) (v : Word) :
    NamesOnly names s (Machine.setRg t r i v) := h.trans (.setRg hi hr t v)

theorem NamesOnly.net (h : NamesOnly names s t) : t.net = s.net := by rw [← h.rest]

end

/-- The registers of the event logs and of the fabric counts. -/
def eventNames : List RegName :=
  [.fabstat, .hubFabstat, .evlogstat, .evlogA, .evlogB, .evlogT, .hubEvlogstat, .hubEvlogA, .hubEvlogB, .hubEvlogT]

/-- The entry an error makes in a log whose registers are named (R579). -/
def logInto (st ra rb rt : RegName) (si base size : Nat) (a b : Word) (hit : Option Nat) (s : State) : State :=
  match hit with
  | some n => incRgF s ra (base + n) 61 56
  | none =>
    let n := rgF s st si 4 0
    let s := if bit (rg s ra (base + n)) 63 then incRgF s st si 31 16 else s
    let s := setRg s ra (base + n) a
    let s := setRg s rb (base + n) b
    let s := setRg s rt (base + n) s.ptime
    setRgF s st si 4 0 ((n + 1) % size)

theorem logInto_namesOnly {names : List RegName} {st ra rb rt : RegName} (hst : st ∈ names) (ha : ra ∈ names) (hb : rb ∈ names) (ht : rt ∈ names)
    {si base : Nat} (hsi : si < 2 ^ 32) (hbase : base < 2 ^ 31) {hit : Option Nat} (hhit : ∀ n, hit = some n → n < 2 ^ 31)
    (s : State) (a b : Word) (size : Nat) : NamesOnly names s (logInto st ra rb rt si base size a b hit s) := by
  unfold logInto
  cases hit with
  | some n =>
    have := hhit n rfl
    exact .setRg (by omega) ha s _
  | none =>
    have hn : rgF s st si 4 0 < 2 ^ 5 := fld_lt ..
    have hidx : base + rgF s st si 4 0 < 2 ^ 32 := by omega
    refine NamesOnly.step (NamesOnly.step (NamesOnly.step (NamesOnly.step ?_ hidx ha _) hidx hb _) hidx ht _) hsi hst _
    split
    · exact .incRgF hsi hst s ..
    · exact .refl ..

theorem logErr_event_namesOnly (s : State) (die kind unit way addr : Nat) :
    NamesOnly eventNames s (logErr s (evLog die) kind unit way addr) := by
  have hfind : ∀ (size : Nat) (p : Nat → Bool) (n : Nat), size ≤ 32 → (List.range size).find? p = some n → n < 2 ^ 31 := fun size p n hs h => by
    have := List.mem_range.mp (List.mem_of_find?_eq_some h)
    omega
  unfold evLog
  split
  · unfold logErr logRegs
    dsimp only
    refine (NamesOnly.incRgF (r := .evlogstat) (i := die) (by omega) (by decide) s 63 32).trans ?_
    exact logInto_namesOnly (names := eventNames) (st := .evlogstat) (ra := .evlogA) (rb := .evlogB) (rt := .evlogT) (si := die) (base := die * 8)
      (by decide) (by decide) (by decide) (by decide) (by omega) (by omega) (hfind 8 _ · (by decide)) _ _ _ 8
  · unfold logErr logRegs
    dsimp only
    refine (NamesOnly.incRgF (r := .hubEvlogstat) (i := 0) (by decide) (by decide) s 63 32).trans ?_
    exact logInto_namesOnly (names := eventNames) (st := .hubEvlogstat) (ra := .hubEvlogA) (rb := .hubEvlogB) (rt := .hubEvlogT) (si := 0) (base := 0)
      (by decide) (by decide) (by decide) (by decide) (by decide) (by decide) (hfind 16 _ · (by decide)) _ _ _ 16

/-- What a late arrival leaves: counts and logs, and the source of late messages pending (R328). -/
structure Arrived (s t : State) : Prop where
  rest : { t with
    regs := s.regs
    mpPend := s.mpPend } = s
  regs : ∀ r i, i < 2 ^ 32 → r ∉ eventNames → r ≠ .intsrc → rg t r i = rg s r i
  srcs : ∀ i, i < 2 ^ 32 → ∀ j, bit (rg t .intsrc i) j = (bit (rg s .intsrc i) j || (decide (j = 1) && bit (rg t .intsrc i) 1))

theorem gArrive_arrived (s : State) (p : Packet) : Arrived s (gArrive s p) := by
  unfold gArrive
  dsimp only
  by_cases hlate : p.cls = .g ∧ (now s + 2 ^ 32 - p.inj) % 2 ^ 32 > (if p.spkg.isSome then 2500 else 900)
  · rw [if_pos hlate]
    obtain ⟨u, hu, hue⟩ : ∃ u, NamesOnly eventNames s u ∧ u = logErr (incFab s p.dst.die 63 48) (evLog p.dst.die) 0x1A p.dst.stop 0
        ((now s + 2 ^ 32 - p.inj) % 2 ^ 32) := by
      refine ⟨_, NamesOnly.trans ?_ (logErr_event_namesOnly ..), rfl⟩
      unfold incFab fabstatOf
      split
      · exact .setRg (r := .fabstat) (by dsimp only; omega) (by decide) s _
      · exact .setRg (r := .hubFabstat) (by decide) (by decide) s _
    rw [← hue]
    have hsrc : ∀ i, i < 2 ^ 32 → rg u .intsrc i = rg s .intsrc i := fun i hi => hu.regs .intsrc i hi (by decide)
    refine ⟨?_, fun r i hi hr hr' => ?_, fun i hi j => ?_⟩
    · rw [← hu.rest]
      rfl
    · exact (rg_setRg_other (s := { u with mpPend := u.mpPend ||| 2 ^ 927 }) (by decide) hi fun he => hr' (Prod.ext_iff.mp he).1).trans (hu.regs r i hi hr)
    · by_cases h927 : i = 927
      · subst h927
        rw [← hsrc 927 hi]
        unfold raiseSrc setRgF
        rw [rg_setRg_same]
        by_cases hj : j = 1
        · subst hj
          rw [bit_setFld _ _ _ _ _ (by decide) (by decide), if_pos (by decide)]
          exact (Bool.or_true _).symm
        · rw [bit_setFld_outside _ _ _ _ _ (by decide) (by decide) (by omega)]
          simp [hj]
          rfl
      · rw [← hsrc i hi]
        have hother : rg (raiseSrc u 927) .intsrc i = rg u .intsrc i :=
          rg_setRg_other (s := { u with mpPend := u.mpPend ||| 2 ^ 927 }) (by decide) hi fun he => h927 (Prod.ext_iff.mp he).2
        rw [hother]
        by_cases hj : j = 1 <;> simp [hj]
  · rw [if_neg hlate]
    exact ⟨rfl, fun _ _ _ _ _ => rfl, fun i _ j => by by_cases hj : j = 1 <;> simp [hj]⟩

/-! ### Delivery (R521) -/

theorem takeAny_eq {f : Packet → Bool} {s u : State} {p : Packet} (h : takeAny f s = some (p, u)) :
    u = { s with net := s.net.erase p } ∧ s.net.find? f = some p := by
  unfold takeAny at h
  split at h
  next q hq =>
    cases h
    exact ⟨rfl, hq⟩
  · cases h

theorem takePacket_none {f : Packet → Bool} {s : State} (h : ∀ p ∈ s.net, f p = false) : takePacket f s = none := by
  have hfind : s.net.find? (fun p => f p && mayLand s p) = none := List.find?_eq_none.mpr fun p hp => by simp [h p hp]
  rw [takePacket, takeAny, hfind]

section
variable {s t : State}

theorem Arrived.core (h : Arrived s t) (c : Nat) : getCore t c = getCore s c := by
  have := h.rest
  rw [← this]
  rfl

theorem Arrived.net (h : Arrived s t) : t.net = s.net := by rw [← h.rest]

theorem Arrived.dram (h : Arrived s t) : t.dram = s.dram := by rw [← h.rest]

theorem Arrived.stopDead (h : Arrived s t) {c : Nat} (hc : c < 240) : stopDead t (coreStop c) = stopDead s (coreStop c) := by
  have hreg : rg t (fstopOf (coreStop c)).1 (fstopOf (coreStop c)).2 = rg s (fstopOf (coreStop c)).1 (fstopOf (coreStop c)).2 := by
    rw [coreStop_of_lt hc]
    unfold fstopOf
    dsimp only
    split
    · exact h.regs .fstop _ (by omega) (by decide) (by decide)
    · exact h.regs .hubFstop _ (by omega) (by decide) (by decide)
  have hfence : t.fencedStk = s.fencedStk := by rw [← h.rest]
  rw [Machine.stopDead, Machine.stopDead, stopState, stopState, rgF, rgF, hreg, hfence]

theorem Arrived.lcTarget (h : Arrived s t) {n : Nat} (hn : n < 256) : lcTarget t n = lcTarget s n := by
  have hmap : rg t .lcmap n = rg s .lcmap n := h.regs _ _ (by omega) (by decide) (by decide)
  have hvalid : lcValid t n = lcValid s n := by rw [lcValid, lcValid, hmap]
  have hcore : lcCore t n = lcCore s n := by rw [lcCore, lcCore, rgF, rgF, rgF, rgF, hmap]
  have hlt : lcCore s n < 2 ^ 32 := by
    have h1 : rgF s .lcmap n 11 8 < 2 ^ 4 := fld_lt ..
    have h2 : rgF s .lcmap n 4 0 < 2 ^ 5 := fld_lt ..
    unfold lcCore
    omega
  have hfence : fencedAtHub t (lcCore s n) = fencedAtHub s (lcCore s n) := by
    rw [fencedAtHub, fencedAtHub, h.regs _ _ (by omega) (by decide) (by decide)]
  rw [Machine.lcTarget, Machine.lcTarget, hvalid, hcore, hfence, h.core]

/-- A pending interrupt still names its core after an arrival was counted. -/
theorem Arrived.undelivered (h : Arrived s t) {i : Nat} (hi : i < 0x800) (hpend : bit (rg s .intsrc i) 1 = true) :
    undelivered t i = undelivered s i := by
  have hbit : ∀ j, bit (rg t .intsrc i) j = bit (rg s .intsrc i) j := by
    intro j
    have := h.srcs i (by omega) j
    by_cases hj : j = 1
    · subst hj
      rw [hpend] at this ⊢
      exact this.trans (Bool.true_or _)
    · simpa [hj] using this
  have hfld : fld (rg t .intsrc i) 23 16 = fld (rg s .intsrc i) 23 16 := fld_congr fun j _ _ => hbit j
  have hlt : fld (rg s .intsrc i) 23 16 < 256 := fld_lt ..
  unfold Machine.undelivered
  simp only [hi, if_true, hbit, hfld, h.lcTarget hlt]

end

/-- A wired interrupt that its core has not yet (R520, R521). -/
theorem undelivered_wired {s : State} {i c : Nat} (hi : i < 0x800) (h1 : bit (rg s .intsrc i) 1 = true) (h0 : bit (rg s .intsrc i) 0 = true)
    (h2 : bit (rg s .intsrc i) 2 = false) (ht : lcTarget s (fld (rg s .intsrc i) 23 16) = some c) : undelivered s i = some c := by
  have hno : ¬(i ≥ 0x8000) := by omega
  simp [undelivered, hi, h1, h0, h2, hno, ht]

/-- The controller's message comes in at its core (R521). -/
theorem irqMessage_arrives {s u : State} {i c : Nat} {p : Packet} (hi : i < 0x800) (hc : c < 240) (hpend : bit (rg s .intsrc i) 1 = true)
    (hund : undelivered s i = some c) (hnew : i ∉ (getCore s c).arrived)
    (htake : takePacket (fun p => p.cmd == .irq && p.holder == 0 && p.arg == i) s = some (p, u)) (hdst : p.dst = coreStop c)
    (hlive : stopDead s (coreStop c) = false) :
    getCore (irqMessage s i) c = { getCore s c with arrived := (getCore s c).arrived ++ [i] } ∧
    (∀ c', c' ≠ c → getCore (irqMessage s i) c' = getCore s c') ∧ (irqMessage s i).net = u.net ∧ (irqMessage s i).dram = s.dram := by
  obtain ⟨hu, _⟩ := takeAny_eq htake
  have harr : Arrived u (gArrive u p) := gArrive_arrived u p
  have hcore : ∀ c', getCore (gArrive u p) c' = getCore s c' := fun c' => (harr.core c').trans (by rw [hu]; rfl)
  have hdead : stopDead (gArrive u p) p.dst = false := by
    rw [hdst, harr.stopDead hc, ← hlive, hu]
    rfl
  have hund' : undelivered (gArrive u p) i = some c := by
    rw [harr.undelivered hi (by rw [hu]; exact hpend), ← hund, hu]
    rfl
  have hmsg : irqMessage s i = setCore (gArrive u p) c { getCore s c with arrived := (getCore s c).arrived ++ [i] } := by
    unfold irqMessage
    dsimp only
    rw [htake]
    dsimp only
    rw [hdead, hund', hdst]
    simp only [Bool.false_eq_true, if_false, Option.map_some, if_true, deliverIrq, hund', hcore]
    rw [if_neg (by simpa using hnew)]
  rw [hmsg]
  refine ⟨core_setCore_same .., fun c' hne => ?_, harr.net, harr.dram.trans (by rw [hu])⟩
  rw [core_setCore_ne hne, hcore]

/-- The controller sends the message of an interrupt that is due (R521, R523). -/
theorem irqMessage_sends {s : State} {i c : Nat} (hund : undelivered s i = some c) (hnew : i ∉ (getCore s c).arrived)
    (hnone : ∀ p ∈ s.net ++ s.parked ++ s.gHeld, (p.cmd == .irq && p.holder == 0 && p.arg == i) = false) :
    irqMessage s i = sendG s { cmd := .irq, src := ⟨12, 18⟩, dst := coreStop c, cls := .g, arg := i } := by
  have hany : (s.net ++ s.parked ++ s.gHeld).any (fun p => p.cmd == .irq && p.holder == 0 && p.arg == i) = false :=
    List.any_eq_false.mpr fun p hp => by rw [hnone p hp]; decide
  unfold irqMessage
  dsimp only
  rw [takePacket_none fun p hp => hnone p (by simp [hp])]
  dsimp only
  rw [hany, hund]
  dsimp only
  rw [if_neg Bool.false_ne_true]
  rw [if_neg (by simpa using hnew)]

/-! ### Writes of a source's configuration (R518, R519, R521) -/

theorem intsrcFields_ok : fieldsOk intsrcFields = true := by decide

/-- The fields of INTSRCn after a write. -/
theorem intsrc_written (old x : Word) :
    let new := writeFields (regFields .intsrc) false old x
    bit new 0 = bit x 0 ∧ fld new 15 8 = fld x 15 8 ∧ bit new 1 = (bit old 1 && !(bit x 1)) ∧ bit new 2 = bit old 2 ∧
    fld new 23 16 = (if fld x 23 16 ≤ 215 then fld x 23 16 else fld old 23 16) ∧
    fld new 29 28 = (if 1 ≤ fld x 29 28 then fld x 29 28 else fld old 29 28) ∧ bit new 31 = bit x 31 := by
  intro new
  have hfield : ∀ f ∈ intsrcFields, fld new f.hi f.lo = f.written false old x := fun f hf => fld_writeFields intsrcFields_ok hf false old x
  have hlvl : fld x 29 28 < 2 ^ 2 := fld_lt ..
  have h31 := hfield ⟨31, 31, .rw, 0x0, .any⟩ (by decide)
  have h29 := hfield ⟨29, 28, .rw, 0x1, .range 1 3⟩ (by decide)
  have h23 := hfield ⟨23, 16, .rw, 0x0, .range 0 215⟩ (by decide)
  have h15 := hfield ⟨15, 8, .rw, 0xff, .any⟩ (by decide)
  have h2 := hfield ⟨2, 2, .ro, 0x0, .any⟩ (by decide)
  have h1 := hfield ⟨1, 1, .rw1c, 0x0, .any⟩ (by decide)
  have h0 := hfield ⟨0, 0, .rw, 0x0, .any⟩ (by decide)
  have hbit : ∀ (b : Bool) (i : Nat), fld new i i = b.toNat → bit new i = b := fun b i h => by
    rw [bit_eq_fld, h]
    cases b <;> rfl
  refine ⟨hbit _ 0 (h0.trans (fld_one_bit ..)), h15, hbit _ 1 (h1.trans ?_), hbit _ 2 (h2.trans (fld_one_bit ..)), h23.trans ?_, h29.trans ?_,
    hbit _ 31 (h31.trans (fld_one_bit ..))⟩
  · simp only [FieldDef.written, fld_one_bit]
    cases bit old 1 <;> cases bit x 1 <;> rfl
  · simp [FieldDef.written, FieldDef.takes]
  · simp only [FieldDef.written, FieldDef.takes, Bool.and_eq_true, decide_eq_true_eq]
    have hle : fld x 29 28 ≤ 3 := by omega
    simp only [hle, and_true]

/-- What the secure world may write is what it writes (R519). -/
theorem intWritable_secure (old v : Word) : intWritable true old v = v := rfl

/-- What the normal world may write: the word with SEC clear, and not LVL 3 (R519). -/
theorem intWritable_normal (old v : Word) :
    bit (intWritable false old v) 31 = false ∧ (∀ i, i < 28 → bit (intWritable false old v) i = bit v i) ∧
    fld (intWritable false old v) 29 28 = (if fld v 29 28 = 3 then fld old 29 28 else fld v 29 28) := by
  have hlvl : fld (setFld v 31 31 0) 29 28 = fld v 29 28 := fld_setFld_ne _ _ _ _ _ _ (by decide) (by decide) (by decide)
  have h31 : bit (setFld v 31 31 0) 31 = false := by
    rw [bit_setFld _ _ _ _ _ (by decide) (by decide)]
    rfl
  have hlow : ∀ i, i < 28 → bit (setFld v 31 31 0) i = bit v i := fun i hi => bit_setFld_outside _ _ _ _ _ (by decide) (by decide) (by omega)
  unfold intWritable
  dsimp only
  rw [if_neg Bool.false_ne_true, hlvl]
  split
  · refine ⟨?_, fun i hi => ?_, ?_⟩
    · rw [bit_setFld_outside _ _ _ _ _ (by decide) (by decide) (by decide), h31]
    · rw [bit_setFld_outside _ _ _ _ _ (by decide) (by decide) (by omega), hlow i hi]
    · exact fld_setFld_fld _ _ _ _ (by decide) (by decide)
  · exact ⟨h31, hlow, hlvl⟩

/-- A write of INTSRCn that the world may make: the register, and who had its message (R521). -/
theorem intCfgWrite_frame {s : State} {sec : Bool} {n : Nat} {v : Word} (hn : n < 0x800) (h : sec = true ∨ bit (rg s .intsrc n) 31 = false) :
    let t := intCfgWrite s sec n v
    rg t .intsrc n = writeFields (regFields .intsrc) false (rg s .intsrc n) (intWritable sec (rg s .intsrc n) v) ∧
    { t with
      regs := s.regs
      cores := s.cores } = s ∧ ∀ r i, i < 2 ^ 32 → (r, i) ≠ (.intsrc, n) → rg t r i = rg s r i := by
  intro t
  obtain ⟨u, hu⟩ : ∃ u, u = setRg s .intsrc n (writeFields (regFields .intsrc) false (rg s .intsrc n) (intWritable sec (rg s .intsrc n) v)) :=
    ⟨_, rfl⟩
  have ht : t = u ∨ ∃ c k, t = setCore u c k := by
    have hguard : (!sec && bit (rg s .intsrc n) 31) = false := by rcases h with h | h <;> simp [h]
    have hcfg : t = if undelivered u n = undelivered s n then u else
        match undelivered s n with
        | some c => setCore u c { getCore u c with arrived := (getCore u c).arrived.filter (fun x => x != n) }
        | none => u := by
      change intCfgWrite s sec n v = _
      unfold intCfgWrite
      rw [if_pos hn]
      dsimp only
      rw [if_pos hn, hguard, ← hu]
      rfl
    rw [hcfg]
    split
    · exact .inl rfl
    · split
      · exact .inr ⟨_, _, rfl⟩
      · exact .inl rfl
  have hother : ∀ r i, i < 2 ^ 32 → (r, i) ≠ (.intsrc, n) → rg u r i = rg s r i := fun r i hi hne => by
    rw [hu]
    exact rg_setRg_other (by omega) hi hne
  have hrest : { u with
      regs := s.regs
      cores := s.cores } = s := by rw [hu]; rfl
  rcases ht with ht | ⟨c, k, ht⟩
  · rw [ht]
    exact ⟨by rw [hu, rg_setRg_same], hrest, hother⟩
  · rw [ht]
    have hreg : rg (setCore u c k) .intsrc n = rg u .intsrc n := rfl
    exact ⟨by rw [hreg, hu, rg_setRg_same], hrest, hother⟩

/-- Settles O22: the raises, the controller's messages, the writes of a source's configuration. -/
theorem interruptSources : Obligations.InterruptSources := by
  refine ⟨⟨fun i s hi hex => ?_, fun i s hi hpost => ?_, ?_, ?_⟩, ?_⟩
  · have hraise : sourceRaise s i.toNat = raiseSrc s i.toNat := by
      rw [sourceRaise, if_neg (by omega), if_pos ⟨hi, hex⟩]
    obtain ⟨hset, hothers, honly⟩ := setPend_spec (r := .intsrc) (i := i.toNat) (by omega) { s with mpPend := s.mpPend ||| 2 ^ i.toNat }
    refine ⟨_, congrArg ok hraise, hset, hothers, ?_, honly⟩
    change (s.mpPend ||| 2 ^ i.toNat).testBit i.toNat = true
    simp
  · have hraise : sourceRaise s i.toNat = setRgF s .msictl (i.toNat - 0x8000) 1 1 1 := by
      rw [sourceRaise, if_pos hi, raiseVec_of_not_posted hpost]
    exact ⟨_, congrArg ok hraise, setPend_spec (by omega) s⟩
  · intro g rid x s v ctl dropped
    refine ⟨fun hd hpost => ?_, fun hd => ?_⟩
    · have hraise : msiWrite s rid.toNat (ownLg s g) x.toNat = setRgF s .msictl v 1 1 1 :=
        (msiWrite_of_taken hd).trans (raiseVec_of_not_posted hpost)
      exact ⟨_, congrArg ok hraise, setPend_spec (by omega) s⟩
    · exact ⟨_, congrArg ok (msiWrite_of_dropped hd), msiDrop_spec s⟩
  · intro i c s hi v isIt h1 h0 h2 ht hc hnew
    have hund := undelivered_wired hi h1 h0 h2 ht
    refine ⟨fun hnone => ?_, fun p u htake hdst hlive => ⟨_, rfl, irqMessage_arrives hi hc h1 hund hnew htake hdst hlive⟩⟩
    obtain ⟨q, hnet, hcmd, hholder, harg, hsrc, hdst, hg, hq, hcores, hregs, hdram⟩ :=
      sendG_irq (s := s) (p := { cmd := .irq, src := ⟨12, 18⟩, dst := coreStop c, cls := .g, arg := i.toNat }) rfl rfl hc
    refine ⟨_, q, congrArg ok (irqMessage_sends hund hnew hnone), hnet, ?_, hsrc, hdst, hg, hq, hcores, hregs, hdram⟩
    change (q.cmd == .irq && q.holder == 0 && q.arg == i.toNat) = true
    rw [hcmd, hholder, harg]
    simp
  · intro b n v s old
    refine ⟨fun hw => ?_, fun hb hsec => ?_⟩
    · obtain ⟨hnew, hrest, hothers⟩ := intCfgWrite_frame (v := v) n.isLt hw
      obtain ⟨w0, w15, w1, w2, w23, w29, w31⟩ := intsrc_written old (intWritable (bySec b) old v)
      rw [← hnew] at w0 w15 w1 w2 w23 w29 w31
      obtain ⟨t, ht⟩ : ∃ t, intCfgWrite s (bySec b) n v = t := ⟨_, rfl⟩
      rw [ht] at w0 w15 w1 w2 w23 w29 w31 hrest hothers
      have hlow : (∀ i, i < 28 → bit (intWritable (bySec b) old v) i = bit v i) := fun i hi => by
        cases bySec b
        · exact (intWritable_normal old v).2.1 i hi
        · rfl
      have hlowF : ∀ hi lo, hi < 28 → fld (intWritable (bySec b) old v) hi lo = fld v hi lo := fun hi lo h =>
        fld_congr fun i _ h2 => hlow i (by omega)
      rw [hlow _ (by decide)] at w0 w1
      rw [hlowF _ _ (by decide)] at w15 w23
      refine ⟨t, congrArg ok ht, w0, w15, w1, w2, fun h => ?_, fun h => ?_, fun hb h => ?_, fun hb => ?_, fun hb => ?_, fun hb h => ?_, hrest, hothers⟩
      · rw [w23, if_pos (by omega)]
      · rw [w23, if_neg (by omega)]
      · rwa [hb, intWritable_secure, if_pos h] at w29
      · rwa [hb, intWritable_secure] at w31
      · rw [w31, hb]
        exact (intWritable_normal old v).1
      · obtain ⟨_, _, v29⟩ := intWritable_normal old v
        rw [hb, v29, h] at w29
        split at w29 <;> split at w29 <;> omega
    · refine ⟨_, rfl, ?_⟩
      have hn : n.val < 0x800 := n.isLt
      have hguard : (!bySec b && bit (rg s .intsrc n.val) 31) = true := by rw [hb]; exact hsec
      unfold intCfgWrite
      rw [if_pos hn]
      dsimp only
      rw [if_pos hn, if_pos hguard]

end Sys2Proof.Machine
end

section
/-! PROOFS. The interrupt interface of a core: IACK, IEOI and ISGI (R524 to R526). -/
namespace Sys2Proof.Machine

open Sys2Proof

theorem CoreOnly.regs {c : Nat} {u t : State} (h : CoreOnly c u t) : t.regs = u.regs := by
  rw [← h.1]

theorem CoreOnly.rg {c : Nat} {u t : State} (h : CoreOnly c u t) (r : RegName) (i : Nat) : Machine.rg t r i = Machine.rg u r i := by
  have hread : Machine.rg t r i = Machine.rg { t with cores := u.cores, freeCtr := u.freeCtr } r i := rfl
  rw [hread, h.1]

/-! ### Retirement and what it leaves of the core -/

/-- What an instruction that retires leaves of its core's interrupt state. -/
structure IntrKept (c : Nat) (u t : State) : Prop where
  active : (getCore t c).active = (getCore u c).active
  sgi : (getCore t c).sgi = (getCore u c).sgi
  rest : CoreOnly c u t

theorem complete_intrKept {x : State} {c : Nat} {pc : Word} (hss : bit (getCore x c).cstat 7 = false) (hst : (getCore x c).stepping = false) :
    IntrKept c x (complete x c pc) := by
  obtain ⟨_, _, hk⟩ := complete_core pc hss hst
  exact ⟨by rw [hk], by rw [hk], (complete_regsKept pc hss hst).rest⟩

theorem retired_dSet_intrKept {x : State} {c r : Nat} {z pc : Word} (hss : bit (getCore x c).cstat 7 = false)
    (hst : (getCore x c).stepping = false) : IntrKept c x (complete (dSet x c r z) c pc) := by
  obtain ⟨d, hd⟩ := core_dSet x c r z
  have hk := complete_intrKept (x := dSet x c r z) (c := c) (pc := pc) (by rw [hd]; exact hss) (by rw [hd]; exact hst)
  exact ⟨by rw [hk.active, hd], by rw [hk.sgi, hd], (CoreOnly.dSet ..).trans hk.rest⟩

/-! ### SYSRD and SYSWR with an effect on more than their register -/

/-- A SYSRD whose reading acts. -/
theorem bodySysrd_acts {c : Nat} {o : OpS} {s w : State} {v : Word} (hd : dOk c o.rt.toNat = true)
    (hcheck : sysCheck s c o.rt.toNat o.sys.toNat false (wordS o 0x001) = none) (hread : sysRead s c (sysTarget s c o.sys.toNat) = (v, w)) :
    bodySysrd c o s = (.done (nextPc w c), dSet w c o.rt.toNat v) := by
  rw [bodySysrd, guardWord_of_ok (by simp [okS, hd]), hcheck]
  simp only [hread]

theorem dOk_of_ne {c : Nat} (hc : c ≠ 240) (r : Nat) : dOk c r = true := by
  simp [dOk, show c ≠ mpCore from hc]

/-! ### IACK (R524) -/

/-- The two bits of a source that an acknowledgement changes. -/
theorem ackBits (v : Word) : bit (setFld (setFld v 1 1 0) 2 2 1) 1 = false ∧ bit (setFld (setFld v 1 1 0) 2 2 1) 2 = true := by
  refine ⟨?_, ?_⟩
  · rw [bit_setFld_outside _ _ _ _ _ (by decide) (by decide) (by decide), bit_setFld _ _ _ _ _ (by decide) (by decide)]
    rfl
  · rw [bit_setFld _ _ _ _ _ (by decide) (by decide)]
    rfl

/-- An interrupt of a wired source is taken: PEND clear, ACTIVE set, its priority pushed. -/
theorem iackTake_wired {s : State} {c : Nat} {g : Sig} (h : g.intid < 0x800) :
    let t := iackTake s c g
    bit (rg t .intsrc g.intid) 1 = false ∧ bit (rg t .intsrc g.intid) 2 = true ∧ CoreRegsOnly c [(.intsrc, g.intid)] s t ∧
    ∃ sgi post arrived, getCore t c = { getCore s c with
      sgi := sgi, postPend := post, arrived := arrived, active := (getCore s c).active ++ [⟨g.intid, g.prio⟩] } := by
  intro t
  obtain ⟨u, hu⟩ : ∃ u, u = setRgF (setRgF s .intsrc g.intid 1 1 0) .intsrc g.intid 2 2 1 := ⟨_, rfl⟩
  have honly : RegsOnly [(.intsrc, g.intid)] s u := by
    rw [hu]
    exact (RegsOnly.setRgF (by omega) List.mem_cons_self ..).trans (.setRgF (by omega) List.mem_cons_self ..)
  have hreg : rg u .intsrc g.intid = setFld (setFld (rg s .intsrc g.intid) 1 1 0) 2 2 1 := by
    rw [hu, setRgF, rg_setRg_same, setRgF, rg_setRg_same]
  have hcore : getCore u c = getCore s c := by
    rw [hu]
    rfl
  have ht : ∃ k, t = setCore u c { getCore s c with
      sgi := k, postPend := (getCore s c).postPend && g.intid != 0x814,
      arrived := (getCore s c).arrived.filter (fun i => i != g.intid), active := (getCore s c).active ++ [⟨g.intid, g.prio⟩] } := by
    change ∃ k, iackTake s c g = _
    unfold iackTake
    rw [if_pos h, ← hu]
    dsimp only
    rw [hcore]
    exact ⟨_, rfl⟩
  obtain ⟨k, ht⟩ := ht
  have hregt : rg t .intsrc g.intid = rg u .intsrc g.intid := by
    rw [ht]
    rfl
  obtain ⟨b1, b2⟩ := ackBits (rg s .intsrc g.intid)
  refine ⟨by rw [hregt, hreg, b1], by rw [hregt, hreg, b2], ?_, _, _, _, by rw [ht, core_setCore_same]⟩
  rw [ht]
  exact (CoreRegsOnly.of_regsOnly honly).trans (.of_coreOnly (.setCore ..))

theorem sysRead_iack (s : State) (c : Nat) : sysRead s c 0x801 = readIack s c := rfl

/-! ### IEOI (R525) -/

theorem dropLast1_last {α : Type} {f : α → Bool} {l : List α} {x : α} (h : l.getLast? = some x) (hx : f x = true) :
    dropLast1 f l = l.dropLast := by
  obtain ⟨l', rfl⟩ := List.getLast?_eq_some_iff.mp h
  simp [dropLast1, hx]

/-- The end of a wired interrupt that is the core's last active one. -/
theorem writeIeoi_last {s : State} {c : Nat} {x : ActiveInt} (hx : (getCore s c).active.getLast? = some x) (h : x.intid < 0x800) :
    let t := writeIeoi s c x.intid
    bit (rg t .intsrc x.intid) 2 = false ∧ bit (rg t .intsrc x.intid) 1 = bit (rg s .intsrc x.intid) 1 ∧
    CoreRegsOnly c [(.intsrc, x.intid)] s t ∧ getCore t c = { getCore s c with active := (getCore s c).active.dropLast } := by
  intro t
  obtain ⟨u, hu⟩ : ∃ u, u = setRgF s .intsrc x.intid 2 2 0 := ⟨_, rfl⟩
  have hcore : getCore u c = getCore s c := by
    rw [hu]
    rfl
  have hany : (getCore s c).active.any (fun a => a.intid == x.intid) = true :=
    List.any_eq_true.mpr ⟨x, List.mem_of_getLast? hx, beq_self_eq_true _⟩
  have ht : t = setCore u c { getCore s c with active := (getCore s c).active.dropLast } := by
    change writeIeoi s c x.intid = _
    unfold writeIeoi
    dsimp only
    rw [if_pos hany, if_pos h, ← hu, hcore, dropLast1_last (f := fun a => a.intid == x.intid) hx (beq_self_eq_true _)]
  have hregt : rg t .intsrc x.intid = setFld (rg s .intsrc x.intid) 2 2 0 := by
    rw [ht]
    change rg u .intsrc x.intid = _
    rw [hu, setRgF, rg_setRg_same]
  refine ⟨?_, ?_, ?_, by rw [ht, core_setCore_same]⟩
  · rw [hregt, bit_setFld _ _ _ _ _ (by decide) (by decide)]
    rfl
  · rw [hregt, bit_setFld_outside _ _ _ _ _ (by decide) (by decide) (by decide)]
  · rw [ht, hu]
    exact (CoreRegsOnly.of_regsOnly (.setRgF (by omega) List.mem_cons_self ..)).trans (.of_coreOnly (.setCore ..))

theorem writeIeoi_other {s : State} {c i : Nat} (h : ∀ x ∈ (getCore s c).active, x.intid ≠ i) : writeIeoi s c i = s := by
  have hany : (getCore s c).active.any (fun a => a.intid == i) = false :=
    List.any_eq_false.mpr fun x hx => by simpa using h x hx
  unfold writeIeoi
  dsimp only
  rw [hany]
  rfl

/-! ### ISGI (R526) -/

/-- An SGI that is pending at its core (R526). -/
theorem sgiSet_spec (s : State) (x num : Nat) (w : Bool) (lv prio : Nat) :
    ∃ p sgi, sgiSet s x num w lv prio = setCore s x { getCore s x with sgi := sgi } ∧ (⟨num, w, lv, p⟩ : SgiPend) ∈ sgi ∧ p ≤ prio ∧
      ((∀ y ∈ (getCore s x).sgi, ¬(y.num = num ∧ y.world = w ∧ y.level = lv)) → p = prio) ∧
      (∀ y : SgiPend, ¬(y.num = num ∧ y.world = w ∧ y.level = lv) → (y ∈ sgi ↔ y ∈ (getCore s x).sgi)) := by
  have hsame : ∀ y : SgiPend, (y.num == num && y.world == w && y.level == lv) = true ↔ (y.num = num ∧ y.world = w ∧ y.level = lv) := fun y => by
    simp [and_assoc]
  have hmem : ∀ (p : Nat) (y : SgiPend), ¬(y.num = num ∧ y.world = w ∧ y.level = lv) →
      (y ∈ (getCore s x).sgi.filter (fun y => !(y.num == num && y.world == w && y.level == lv)) ++ [(⟨num, w, lv, p⟩ : SgiPend)] ↔
        y ∈ (getCore s x).sgi) := fun p y hy => by
    have hne : y ≠ ⟨num, w, lv, p⟩ := fun he => hy (by rw [he]; exact ⟨rfl, rfl, rfl⟩)
    have hf : (!(y.num == num && y.world == w && y.level == lv)) = true := by
      rw [Bool.not_eq_true', ← Bool.not_eq_true, hsame]
      exact hy
    simp only [List.mem_append, List.mem_filter, hf, and_true, List.mem_singleton, hne, or_false]
  unfold sgiSet
  dsimp only
  cases hfind : (getCore s x).sgi.find? (fun y => y.num == num && y.world == w && y.level == lv) with
  | none => exact ⟨prio, _, rfl, by simp, le_refl _, fun _ => rfl, hmem prio⟩
  | some z =>
    refine ⟨min z.prio prio, _, rfl, by simp, min_le_right .., fun hnone => ?_, hmem _⟩
    exact (hnone z (List.mem_of_find?_eq_some hfind) ((hsame z).mp (by simpa using List.find?_some hfind))).elim

/-- An SGI set at any core leaves all but the pending SGIs of a core. -/
theorem core_of_sgi {s : State} {x : Nat} {sgi : List SgiPend} (c : Nat) :
    ∃ l, getCore (setCore s x { getCore s x with sgi := sgi }) c = { getCore s c with sgi := l } ∧ (c = x → l = sgi) := by
  by_cases h : c = x
  · subst h
    exact ⟨sgi, core_setCore_same .., fun _ => rfl⟩
  · exact ⟨(getCore s c).sgi, core_setCore_ne h, fun he => (h he).elim⟩

/-- A SYSWR of an interrupt register retires. -/
theorem runInstr_intr {c : CoreId} {rt : BitVec 5} {s : State} {n : BitVec 12} {m : Nat} (hm : m = n.toNat) (h : Runs s c) (hc : c.val ≠ 240)
    (hcheck : sysCheck (fetched s c) c rt.toNat n.toNat true (wordS ⟨rt, n⟩ 0x002) = none) (htgt : sysTarget (fetched s c) c n.toNat = m)
    (hne : m ≠ 0x933) {w : State} (hw : sysWriteEff (fetched s c) c m false (dGet (fetched s c) c rt.toNat) = w) :
    runInstr s c (bodySyswr c ⟨rt, n⟩) = complete w c (nextPc w c) := by
  have hb := bodySyswr_done (o := ⟨rt, n⟩) (dOk_of_ne hc _) hcheck (by rw [htgt]; exact hne)
  dsimp only at hb
  rw [htgt, hm, bne_self_eq_false, ← hm, hw] at hb
  exact runInstr_done h hb

/-- What retirement alone leaves. -/
theorem retired_refl {c : Nat} {x : State} (hc : c ≠ 240) (hss : bit (getCore x c).cstat 7 = false) (hst : (getCore x c).stepping = false) :
    Retired c x (complete x c (nextPc x c)) (dGet x c) (aGet x c) (qGet x c) ((getCore x c).pc + 4) := by
  have h := ((Wrote.refl c x).done hss hst (nextPc x c)).1
  rwa [trunc_of_ne hc] at h

theorem pcNext_of_ne {c : Nat} (hc : c ≠ 240) (s : State) : pcNext s c = (getCore (fetched s c) c).pc + 4 := by
  rw [pcNext, trunc_of_ne hc]

theorem writeIsgi_one {s : State} {c : Nat} {v : Word} (h : bit v 40 = false) : writeIsgi s c v =
    match lcTarget s (fld v 39 32) with
    | some t => sgiSet s t (fld v 3 0) (secOf (getCore s c)) (plOf (getCore s c)) (fld v 15 8)
    | none => incRgF s .icstat 0 47 32 := by
  unfold writeIsgi
  dsimp only
  rw [h]
  rfl

/-- An SGI that reaches a present core (R526), told of the core that sends it and of the one it reaches. -/
theorem writeIsgi_sends {s : State} {c x : Nat} {v : Word} (h : bit v 40 = false) (hx : lcTarget s (fld v 39 32) = some x) :
    ∃ p sgi, (∃ l, getCore (writeIsgi s c v) c = { getCore s c with sgi := l } ∧ (c = x → l = sgi)) ∧
      (getCore (writeIsgi s c v) x).sgi = sgi ∧ (⟨fld v 3 0, secOf (getCore s c), plOf (getCore s c), p⟩ : SgiPend) ∈ sgi ∧ p ≤ fld v 15 8 ∧
      ((∀ y ∈ (getCore s x).sgi, ¬(y.num = fld v 3 0 ∧ y.world = secOf (getCore s c) ∧ y.level = plOf (getCore s c))) → p = fld v 15 8) ∧
      (∀ y : SgiPend, ¬(y.num = fld v 3 0 ∧ y.world = secOf (getCore s c) ∧ y.level = plOf (getCore s c)) →
        (y ∈ sgi ↔ y ∈ (getCore s x).sgi)) ∧ CoreOnly x s (writeIsgi s c v) := by
  obtain ⟨p, sgi, hset, hrest⟩ := sgiSet_spec s x (fld v 3 0) (secOf (getCore s c)) (plOf (getCore s c)) (fld v 15 8)
  have hw : writeIsgi s c v = setCore s x { getCore s x with sgi := sgi } := by
    rw [writeIsgi_one h, hx]
    exact hset
  rw [hw]
  obtain ⟨hmem, hle, hfresh, hothers⟩ := hrest
  exact ⟨p, sgi, core_of_sgi c, by rw [core_setCore_same], hmem, hle, hfresh, hothers, .setCore ..⟩

/-- Settles O23: IACK, IEOI, ISGI. -/
theorem interruptInterface : Obligations.InterruptInterface := by
  intro c rt s h hc u k v
  refine ⟨fun hcheck htgt => ⟨fun hnone => ?_, fun g hg hlt => ?_⟩, fun hcheck htgt => ⟨fun x hx hid hlt => ?_, fun hno => ?_⟩,
    fun hcheck hall => ⟨fun x hx => ?_, fun hnone => ?_⟩⟩
  · have hread : sysRead u c (sysTarget u c 0x801) = (0xFFFF, u) := by
      rw [htgt, sysRead_iack, readIack, hnone]
    have hret := runInstr_dSet h (bodySysrd_acts (o := ⟨rt, 0x801⟩) (dOk_of_ne hc _) hcheck hread)
    rw [trunc_of_ne hc] at hret
    exact ⟨_, rfl, hret⟩
  · have hread : sysRead u c (sysTarget u c 0x801) = (iackWord (some g), iackTake u c g) := by
      rw [htgt, sysRead_iack, readIack, hg]
    obtain ⟨b1, b2, honly, sgi, post, arrived, hcore⟩ := iackTake_wired (s := u) (c := c) hlt
    obtain ⟨w, hw⟩ : ∃ w, w = iackTake u c g := ⟨_, rfl⟩
    rw [← hw] at b1 b2 honly hcore hread
    have hss : bit (getCore w c).cstat 7 = false := by rw [hcore]; exact h.ss
    have hst : (getCore w c).stepping = false := by rw [hcore]; exact h.free
    have ht := runInstr_done h (bodySysrd_acts (o := ⟨rt, 0x801⟩) (dOk_of_ne hc _) hcheck hread)
    have hret := retired_dSet hc hss hst rt.toNat (iackWord (some g))
    have hkept := retired_dSet_intrKept (r := rt.toNat) (z := iackWord (some g)) (pc := nextPc w c) hss hst
    have hD : dGet w c = dGet u c := funext (dGet_congr (by rw [hcore]))
    have hA : aGet w c = aGet u c := funext (aGet_congr (by rw [hcore]) (by rw [hcore]) (by rw [hcore]) (by rw [hcore]))
    have hQ : qGet w c = qGet u c := funext (qGet_congr (by rw [hcore]))
    have hfin : CoreRegsOnly c [(.intsrc, g.intid)] u (complete (dSet w c rt.toNat (iackWord (some g))) c (nextPc w c)) :=
      honly.trans (.of_coreOnly hkept.rest)
    have hreg : rg (complete (dSet w c rt.toNat (iackWord (some g))) c (nextPc w c)) .intsrc g.intid = rg w .intsrc g.intid :=
      hkept.rest.rg ..
    rw [hD, hA, hQ, hcore] at hret
    refine ⟨_, rfl, ?_⟩
    rw [ht]
    refine ⟨hret.d, by rw [hreg, b1], by rw [hreg, b2], by rw [hkept.active, hcore], ?_, hret.cstat.trans (by rw [hcore]), hret.a, hret.q, hfin⟩
    rw [hret.pc, pcNext, trunc_of_ne hc]
  · obtain ⟨b2, b1, honly, hcore⟩ := writeIeoi_last hx hlt
    obtain ⟨w, hw⟩ : ∃ w, writeIeoi u c x.intid = w := ⟨_, rfl⟩
    rw [hw] at b1 b2 honly hcore
    have ht := runInstr_intr (n := 0x802) rfl h hc hcheck htgt (by decide) ((congrArg (writeIeoi u c) hid.symm).trans hw)
    have hss : bit (getCore w c).cstat 7 = false := by rw [hcore]; exact h.ss
    have hst : (getCore w c).stepping = false := by rw [hcore]; exact h.free
    have hkept := complete_intrKept (pc := nextPc w c) hss hst
    have hret := retired_refl hc hss hst
    refine ⟨_, rfl, ?_⟩
    rw [ht]
    exact ⟨by rw [hkept.active, hcore], by rw [hkept.rest.rg, b2], hret.pc.trans (by rw [hcore, pcNext_of_ne hc]), by rw [hkept.rest.rg, b1],
      fun r => (hret.d r).trans (dGet_congr (by rw [hcore]) r), honly.trans (.of_coreOnly hkept.rest)⟩
  · have ht := runInstr_intr (n := 0x802) rfl h hc hcheck htgt (by decide) (writeIeoi_other hno)
    refine ⟨_, rfl, ?_⟩
    rw [ht]
    have hret := retired_refl hc h.ss h.free
    rwa [← pcNext_of_ne hc] at hret
  · obtain ⟨p, sgi, ⟨l, hcore, hl⟩, hsgi, hmem, hle, hfresh, hothers, honly⟩ := writeIsgi_sends hall hx
    obtain ⟨w, hw⟩ : ∃ w, writeIsgi u c v = w := ⟨_, rfl⟩
    rw [hw] at hcore hsgi honly
    have ht := runInstr_intr (n := 0x805) rfl h hc hcheck (sysTarget_of_plain (.inr (by decide))) (by decide) hw
    have hss : bit (getCore w c).cstat 7 = false := by rw [hcore]; exact h.ss
    have hst : (getCore w c).stepping = false := by rw [hcore]; exact h.free
    have hkept := complete_intrKept (pc := nextPc w c) hss hst
    have hret := retired_refl hc hss hst
    have hsgit : (getCore (complete w c (nextPc w c)) x).sgi = sgi := by
      by_cases hcx : x = c
      · rw [hcx, hkept.sgi, hcore]
        exact hl hcx.symm
      · rw [hkept.rest.2 x hcx, hsgi]
    refine ⟨_, p, rfl, ?_⟩
    rw [ht]
    refine ⟨hret.pc.trans (by rw [hcore, pcNext_of_ne hc]), by rw [hsgit]; exact hmem, hle, hfresh, fun y hy => by rw [hsgit]; exact hothers y hy,
      fun r => (hret.d r).trans (dGet_congr (by rw [hcore]) r), hkept.rest.regs.trans honly.regs, hkept.rest.net.trans honly.net,
      hkept.rest.dram.trans honly.dram, fun c' h1 h2 => (hkept.rest.2 c' h1).trans (honly.2 c' h2)⟩
  · obtain ⟨w, hw⟩ : ∃ w, writeIsgi u c v = w := ⟨_, rfl⟩
    have hwinc : w = incRgF u .icstat 0 47 32 := by
      rw [← hw, writeIsgi_one hall, hnone]
    have ht := runInstr_intr (n := 0x805) rfl h hc hcheck (sysTarget_of_plain (.inr (by decide))) (by decide) hw
    have hcore : getCore w c = getCore u c := by rw [hwinc]; rfl
    have hss : bit (getCore w c).cstat 7 = false := by rw [hcore]; exact h.ss
    have hst : (getCore w c).stepping = false := by rw [hcore]; exact h.free
    have hkept := complete_intrKept (pc := nextPc w c) hss hst
    have hret := retired_refl hc hss hst
    have honly : RegsOnly [(.icstat, 0)] u w := by
      rw [hwinc]
      exact .setRgF (by decide) List.mem_cons_self ..
    refine ⟨_, rfl, ?_⟩
    rw [ht]
    refine ⟨hret.pc.trans (by rw [hcore, pcNext_of_ne hc]), ?_, ?_, (CoreRegsOnly.of_regsOnly honly).trans (.of_coreOnly hkept.rest)⟩
    · rw [rgF, hkept.rest.rg, hwinc]
      exact rgF_incRgF_same (by decide) (by decide)
    · rw [rgF, hkept.rest.rg, hwinc]
      exact rgF_setRgF_field _ _ _ _ _ _ _ _ (by decide) (by decide) (by decide)

end Sys2Proof.Machine
end

section
/-! PROOFS. Queues: the completion record of an item (R433), and the Ladle operations (R443). -/
namespace Sys2Proof.Machine

open Sys2Proof

/-! ### One queue replaced -/

theorem queue_setQueue_same (s : State) (q : Nat) (x : Queue) : queue (setQueue s q x) q = x := tget_tset_same _

theorem queue_setQueue_ne {s : State} {q q' : Nat} {x : Queue} (h : q' ≠ q) : queue (setQueue s q x) q' = queue s q' := tget_tset_ne h _

theorem rg_setQueue (s : State) (q : Nat) (x : Queue) (r : RegName) (i : Nat) : rg (setQueue s q x) r i = rg s r i := rfl

theorem rgF_setQueue (s : State) (q : Nat) (x : Queue) (r : RegName) (i hi lo : Nat) : rgF (setQueue s q x) r i hi lo = rgF s r i hi lo := rfl

theorem rgF_setRgF_reg {s : State} {r r' : RegName} {i i' hi lo x hi' lo' : Nat} (hi1 : i < 2 ^ 32) (hi2 : i' < 2 ^ 32) (h : (r', i') ≠ (r, i)) :
    rgF (setRgF s r i hi lo x) r' i' hi' lo' = rgF s r' i' hi' lo' := rgF_setRgF_ne (regKey_ne hi2 hi1 h)

theorem cqSize_pos (s : State) (q : Nat) : 0 < cqSize s q := Nat.two_pow_pos _

/-! ### The record of an item -/

/-- CQTAIL goes on, and PHASE turns with it past the end of the ring (R433). -/
def tailStep (s : State) (q old size : Nat) : State :=
  let s := setRgF s .qstat q 47 32 ((old + 1) % size)
  if (old + 1) % size = 0 then setRgF s .qstat q 11 11 (1 - rgF s .qstat q 11 11) else s

theorem tailStep_regsOnly {q : Nat} (hq : q < 2 ^ 32) (s : State) (old size : Nat) : RegsOnly [(.qstat, q)] s (tailStep s q old size) := by
  have htail : RegsOnly [(.qstat, q)] s (setRgF s .qstat q 47 32 ((old + 1) % size)) := .setRgF hq List.mem_cons_self ..
  unfold tailStep
  dsimp only
  split
  · exact htail.trans (.setRgF hq List.mem_cons_self ..)
  · exact htail

theorem tailStep_tail {s : State} {q old size : Nat} (hsize : 0 < size) (hle : size ≤ 65536) :
    rgF (tailStep s q old size) .qstat q 47 32 = (old + 1) % size := by
  have hlt : (old + 1) % size < 65536 := (Nat.mod_lt _ hsize).trans_le hle
  have hset : rgF (setRgF s .qstat q 47 32 ((old + 1) % size)) .qstat q 47 32 = (old + 1) % size := by
    rw [rgF_setRgF_same _ _ _ _ _ _ (by decide) (by decide)]
    exact Nat.mod_eq_of_lt hlt
  unfold tailStep
  dsimp only
  split
  · rw [rgF_setRgF_field _ _ _ _ _ _ _ _ (by decide) (by decide) (by decide), hset]
  · exact hset

theorem tailStep_turn (s : State) (q old size : Nat) : rgF (tailStep s q old size) .qstat q 11 11 =
    if (old + 1) % size = 0 then 1 - rgF s .qstat q 11 11 else rgF s .qstat q 11 11 := by
  have hset : rgF (setRgF s .qstat q 47 32 ((old + 1) % size)) .qstat q 11 11 = rgF s .qstat q 11 11 :=
    rgF_setRgF_field _ _ _ _ _ _ _ _ (by decide) (by decide) (by decide)
  unfold tailStep
  dsimp only
  split
  · rw [rgF_setRgF_same _ _ _ _ _ _ (by decide) (by decide), hset]
    exact Nat.mod_eq_of_lt (by omega)
  · exact hset

theorem tailStep_field {s : State} {q old size hi lo : Nat} (h1 : hi < 32 ∨ 47 < lo) (h2 : hi < 11 ∨ 11 < lo) :
    rgF (tailStep s q old size) .qstat q hi lo = rgF s .qstat q hi lo := by
  have hset : rgF (setRgF s .qstat q 47 32 ((old + 1) % size)) .qstat q hi lo = rgF s .qstat q hi lo :=
    rgF_setRgF_field _ _ _ _ _ _ _ _ (by decide) (by decide) h1
  unfold tailStep
  dsimp only
  split
  · rw [rgF_setRgF_field _ _ _ _ _ _ _ _ (by decide) (by decide) h2, hset]
  · exact hset

section
variable {v u : State} {n q : Nat} {it : Item} {o : RecOut} {i : EngIn}

/-- The state after a record was written: its item gone, CQTAIL on. -/
def recorded (v u : State) (q : Nat) : State := tailStep (setQueue u q { queue u q with items := [] }) q (rgF v .qstat q 47 32) (cqSize u q)

/-- A record written leaves the item gone and CQTAIL on, raises no interrupt and closes nothing. -/
theorem writeRecord_recorded (hq : q < 2 ^ 32) (h : RecordAt v n q it o i u) : writeRecord v n q it o i = (true, recorded v u q) := by
  have hdrop : dropItem u q it.sqidx = setQueue u q { queue u q with items := [] } := by
    unfold dropItem
    rw [h.alone]
    simp
  have hkept : ∀ {r : RegName} {j hi lo : Nat}, j < 2 ^ 32 → (r, j) ≠ (.qstat, q) → rgF (recorded v u q) r j hi lo = rgF u r j hi lo :=
    fun hj hne => congrArg (fld · _ _) ((tailStep_regsOnly hq _ _ _).2 _ _ hj (by simpa using hne))
  have hlive : shState (recorded v u q) n ≠ 3 := by
    have he : shState (recorded v u q) n = shState u n := hkept (h.num.trans (by decide)) nofun
    rw [he]
    exact h.live
  have hirq : rgF (recorded v u q) .qirq q 15 15 = 0 := (hkept hq (by simp)).trans h.noIrq
  have hrun : qState (recorded v u q) q = 1 := (tailStep_field (by decide) (by decide)).trans h.runs
  have hcount : countDrain (recorded v u q) n (o.status == 4) = recorded v u q := by
    unfold countDrain
    rw [if_neg hlive]
  have hquiet : recordIrq (recorded v u q) n q (dF it.desc 11 11 == 1) = recorded v u q := by
    unfold recordIrq
    rw [if_pos (.inr hirq)]
  have hclose : tryClose (recorded v u q) q = recorded v u q := by
    unfold tryClose
    rw [hrun]
    rfl
  unfold writeRecord
  dsimp only
  rw [h.wrote]
  dsimp only
  rw [hdrop]
  change (true, tryClose (recordIrq (countDrain (recorded v u q) n (o.status == 4)) n q _) q) = _
  rw [hcount, hquiet, hclose]

theorem recorded_items : (queue (recorded v u q) q).items = [] := by
  have he : queue (recorded v u q) q = { queue u q with items := [] } := by
    unfold recorded tailStep
    dsimp only
    split <;> exact queue_setQueue_same ..
  rw [he]

/-- What a written record leaves (R433). -/
theorem reported_recorded (hq : q < 2 ^ 32) (h : RecordAt v n q it o i u) : Reported v u (recorded v u q) q := by
  have honly := tailStep_regsOnly hq (setQueue u q { queue u q with items := [] }) (rgF v .qstat q 47 32) (cqSize u q)
  have hqueues : (recorded v u q).queues = (setQueue u q { queue u q with items := [] }).queues := by rw [← honly.1]; rfl
  refine ⟨recorded_items, tailStep_tail (cqSize_pos u q) h.size, tailStep_turn .., tailStep_field (by decide) (by decide),
    (tailStep_field (by decide) (by decide)).trans h.runs, fun q' hne => ?_, fun r j hj hne => ?_, ?_⟩
  · change tget {} q' (recorded v u q).queues = _
    rw [hqueues]
    exact queue_setQueue_ne hne
  · exact honly.2 r j hj (by simpa using hne)
  · obtain ⟨he, _⟩ := honly
    have hrest : ∀ w : State, { recorded v u q with regs := u.regs } = w → { recorded v u q with queues := u.queues, regs := u.regs } = { w with queues := u.queues } :=
      fun w hw => by rw [← hw]
    exact (hrest _ he).trans rfl

/-- An item ends with its record (R433). -/
theorem finishItem_reported (hq : q < 2 ^ 32) (h : RecordAt v n q it o i u) (s0 : State) : Reported v u (finishItem s0 v n q it o i) q := by
  have hfinish : finishItem s0 v n q it o i = recorded v u q := by
    unfold finishItem
    rw [writeRecord_recorded hq h]
    dsimp only
    rw [recorded_items]
    unfold flushBad
    split <;> rfl
  rw [hfinish]
  exact reported_recorded hq h

end

theorem queueId_lt (q : QueueId) : q.val < 2 ^ 32 := by omega

/-! ### Ladle operations -/

section
variable {s : State} {q op n : Nat} {i : EngIn} {it : Item} {run : Nat → LineData → ShRes × Nat × Word × State}

/-- An operation that works on bytes ends with the record of how it ended. -/
theorem ladleOp_done {k : Nat} {r1 : Word} {v : State} (h : readyItem s q 1 op = some (n, it)) (hlen : dLen it.desc ≠ 0 ∨ op = 5)
    (hrun : run n it.desc = (.ok, k, r1, v)) :
    ladleOp s q op i run = finishItem s v n q it { status := 0, r0 := BitVec.ofNat 64 k, r1 := r1 } i := by
  have hif : ¬(dB it.desc 24 4 = 0 ∧ op ≠ 5) := fun ⟨h1, h2⟩ => hlen.elim (· h1) (h2 ·)
  unfold ladleOp
  rw [h]
  dsimp only
  rw [if_neg hif, hrun]

theorem ladleOp_xlate {k code ipa : Nat} {r1 : Word} {v : State} (h : readyItem s q 1 op = some (n, it)) (hlen : dLen it.desc ≠ 0 ∨ op = 5)
    (hrun : run n it.desc = (.xlate code ipa, k, r1, v)) : ladleOp s q op i run =
      finishItem s v n q it { status := 2, r0 := BitVec.ofNat 64 code, r1 := BitVec.ofNat 64 ipa } i := by
  have hif : ¬(dB it.desc 24 4 = 0 ∧ op ≠ 5) := fun ⟨h1, h2⟩ => hlen.elim (· h1) (h2 ·)
  unfold ladleOp
  rw [h]
  dsimp only
  rw [if_neg hif, hrun]
  rfl

theorem ladleOp_empty (h : readyItem s q 1 op = some (n, it)) (hlen : dLen it.desc = 0) (hop : op ≠ 5) : ladleOp s q op i run =
    finishItem s s n q it { status := 0, r1 := if op = 4 then BitVec.allOnes 64 else if op = 3 then BitVec.ofNat 64 (dB it.desc 32 4) else 0 } i := by
  unfold ladleOp
  rw [h]
  dsimp only
  rw [if_pos ⟨hlen, hop⟩]

end

/-- A command that ends with its record. -/
theorem hubOk_reported {v u t : State} {n : Nat} {q : QueueId} {it : Item} {o : RecOut} {i : EngIn} {s0 : State} (h : RecordAt v n q it o i u)
    (ht : t = finishItem s0 v n q it o i) : ∃ t', hubOk t = .next (hubEnd t') ∧ Reported v u t' q :=
  ⟨t, rfl, ht ▸ finishItem_reported (queueId_lt q) h s0⟩

/-- Settles O43: what each Ladle operation leaves. -/
theorem ladleOperations : Obligations.LadleOperations := by
  intro q i n it s d
  refine ⟨fun hlen => ⟨fun k v u hready hrun hrec => ?_, fun k v u hready hrun hrec => ?_, fun code ipa k v u hready hrun hrec => ?_,
    fun bs v u hready hrun hrec => ?_, fun x y v w u hready hx hy hrec => ?_⟩, fun u hready hrec => ?_, fun hlen r hr u hready hrec => ?_⟩
  · exact hubOk_reported hrec (ladleOp_done hready (.inl hlen) (by rw [hrun]))
  · exact hubOk_reported hrec (ladleOp_done hready (.inl hlen) (by dsimp only; rw [hrun]))
  · exact hubOk_reported hrec (ladleOp_xlate hready (.inl hlen) (by dsimp only; rw [hrun]))
  · exact hubOk_reported hrec (ladleOp_done hready (.inl hlen) (by rw [hrun]))
  · exact hubOk_reported hrec (ladleOp_done hready (.inl hlen) (by rw [hx]; dsimp only; rw [hy]))
  · exact hubOk_reported hrec (ladleOp_done hready (.inr rfl) rfl)
  · simp only [List.mem_cons, List.not_mem_nil, or_false] at hr
    obtain rfl | rfl | rfl | rfl := hr <;> exact hubOk_reported hrec (ladleOp_empty hready hlen (by decide))

end Sys2Proof.Machine
end

section
/-! PROOFS. What waking a domain leaves (R330 to R332), doorbells, opening and closing of queues, descriptor fetch (R427 to R440). -/
namespace Sys2Proof.Machine

open Sys2Proof

/-! ### Reading a field after a write of another -/

theorem rgF_setRgF_name {s : State} {r r' : RegName} {i i' hi lo x hi' lo' : Nat} (h : r' ≠ r) (hi1 : i < 2 ^ 32) (hi2 : i' < 2 ^ 32) :
    rgF (setRgF s r i hi lo x) r' i' hi' lo' = rgF s r' i' hi' lo' := rgF_setRgF_reg hi1 hi2 fun he => h (Prod.mk.inj he).1

theorem rgF_setRgF_index {s : State} {r : RegName} {i i' hi lo x hi' lo' : Nat} (h : i' ≠ i) :
    rgF (setRgF s r i hi lo x) r i' hi' lo' = rgF s r i' hi' lo' := rgF_setRgF_ne (regKey_ne_index h)

theorem NamesOnly.rgF {names : List RegName} {s t : State} (h : NamesOnly names s t) {r : RegName} {i : Nat} (hi : i < 2 ^ 32)
    (hr : r ∉ names) (top lo : Nat) : Machine.rgF t r i top lo = Machine.rgF s r i top lo := congrArg (fld · _ _) (h.regs r i hi hr)

theorem RegsOnly.rgF {l : List (RegName × Nat)} {s t : State} (h : RegsOnly l s t) {r : RegName} {i : Nat} (hi : i < 2 ^ 32)
    (hr : (r, i) ∉ l) (top lo : Nat) : Machine.rgF t r i top lo = Machine.rgF s r i top lo := congrArg (fld · _ _) (h.2 r i hi hr)

/-- A field within the one written. -/
theorem fld_setFld_inside (v : Word) {hi lo hi' lo' : Nat} (x : Nat) (h : hi < 64) (hl : lo ≤ lo') (hh : hi' ≤ hi) :
    fld (setFld v hi lo x) hi' lo' = x / 2 ^ (lo' - lo) % 2 ^ (hi' + 1 - lo') := by
  apply Nat.eq_of_testBit_eq
  intro i
  rw [fld_testBit, Nat.testBit_mod_two_pow]
  by_cases hi1 : i < hi' + 1 - lo'
  · rw [bit_setFld _ _ _ _ _ h (by omega), if_pos (by omega), Nat.testBit_div_two_pow, show lo' + i - lo = i + (lo' - lo) by omega]
  · simp [hi1]

theorem rgF_setRgF_inside {s : State} {r : RegName} {i hi lo hi' lo' : Nat} (x : Nat) (h : hi < 64) (hl : lo ≤ lo') (hh : hi' ≤ hi) :
    rgF (setRgF s r i hi lo x) r i hi' lo' = x / 2 ^ (lo' - lo) % 2 ^ (hi' + 1 - lo') := by
  unfold rgF setRgF
  rw [rg_setRg_same, fld_setFld_inside _ _ h hl hh]

/-! ### Domains -/

/-- The registers that a domain's state shows in (R330, R545 to R547), and the fabric counts. -/
def domNames : List RegName := [.dstate, .fstop, .hubFstop, .fabstat, .hubFabstat, .domstat]

/-- From s to t the states of domains and what shows them changed, and nothing else. -/
structure DomOnly (s t : State) : Prop where
  rest : { t with regs := s.regs, pw := s.pw } = s
  regs : ∀ r i, i < 2 ^ 32 → r ∉ domNames → rg t r i = rg s r i

theorem DomOnly.refl (s : State) : DomOnly s s := ⟨rfl, fun _ _ _ _ => rfl⟩

theorem DomOnly.trans {s t u : State} (h1 : DomOnly s t) (h2 : DomOnly t u) : DomOnly s u := by
  refine ⟨?_, fun r i hi hr => (h2.regs r i hi hr).trans (h1.regs r i hi hr)⟩
  rw [← h1.rest, ← h2.rest]

theorem DomOnly.setRgF {r : RegName} {i : Nat} (hi : i < 2 ^ 32) (hr : r ∈ domNames) (s : State) (top lo x : Nat) :
    DomOnly s (setRgF s r i top lo x) :=
  ⟨rfl, fun _ _ hi' hr' => rg_setRg_other hi hi' fun he => hr' (by rwa [(Prod.mk.inj he).1])⟩

theorem DomOnly.rgF {s t : State} (h : DomOnly s t) {r : RegName} {i : Nat} (hi : i < 2 ^ 32) (hr : r ∉ domNames) (top lo : Nat) :
    Machine.rgF t r i top lo = Machine.rgF s r i top lo := congrArg (fld · _ _) (h.regs r i hi hr)

theorem DomOnly.queues {s t : State} (h : DomOnly s t) : t.queues = s.queues := by rw [← h.rest]

/-- The stop in front of a domain is one of the fabric's. -/
theorem domStop_lt {d : Nat} {st : StopId} (h : domStop d = some st) : st.die ≤ 12 ∧ st.stop < 32 := by
  unfold domStop at h
  split_ifs at h <;> cases h <;> dsimp only <;> omega

theorem fstopOf_mem (st : StopId) : (fstopOf st).1 ∈ domNames := by
  unfold fstopOf
  split <;> simp [domNames]

theorem fstopOf_lt {st : StopId} (h1 : st.die ≤ 12) (h2 : st.stop < 32) : (fstopOf st).2 < 2 ^ 32 := by
  unfold fstopOf
  split <;> dsimp only <;> omega

theorem domOnly_setIngress {st : StopId} (h : st.die ≤ 12 ∧ st.stop < 32) (s : State) (x : Nat) : DomOnly s (setIngress s st x) :=
  .setRgF (fstopOf_lt h.1 h.2) (fstopOf_mem st) ..

theorem domOnly_setDom {d : Nat} (h : d < 2 ^ 32) (s : State) (x : Nat) : DomOnly s (setDom s d x) := by
  have hset : DomOnly s (setRgF s .dstate d 2 0 x) := .setRgF h (by simp [domNames]) ..
  unfold setDom
  cases hst : domStop d with
  | none => exact hset
  | some st => exact hset.trans (domOnly_setIngress (domStop_lt hst) ..)

theorem domOnly_incFab {die : Nat} (h : die ≤ 12) (s : State) (hi lo : Nat) : DomOnly s (incFab s die hi lo) := by
  unfold incFab fabstatOf
  split
  · exact .setRgF (by dsimp only; omega) (by simp [domNames]) ..
  · exact .setRgF (by decide) (by simp [domNames]) ..

theorem domOnly_abortClose {d : Nat} (h : d < 2 ^ 32) (s : State) : DomOnly s (abortClose s d) := by
  have hend : ∀ u : State, DomOnly s u → DomOnly s (setRgF { u with pw := { u.pw with dom := none } } .domstat 0 7 0 3) := fun u hu => by
    have hstep : DomOnly u { u with pw := { u.pw with dom := none } } := ⟨rfl, fun _ _ _ _ => rfl⟩
    exact (hu.trans hstep).trans (.setRgF (by decide) (by simp [domNames]) ..)
  unfold abortClose
  dsimp only
  cases hst : domStop d with
  | none =>
    have hset := domOnly_setDom h s 0
    dsimp only
    split
    · split
      · exact hend _ hset
      · exact hset
    · exact hset
  | some st =>
    have hset := (domOnly_setDom h s 0).trans (domOnly_incFab (domStop_lt hst).1 _ 15 0)
    dsimp only
    split
    · split
      · exact hend _ hset
      · exact hset
    · exact hset

/-- A domain that is wanted (R331, R332). -/
theorem domOnly_wakeDom {d : Nat} (h : d < 2 ^ 32) (s : State) : DomOnly s (wakeDom s d) := by
  unfold wakeDom
  split
  · cases hst : domStop d with
    | none => exact .refl s
    | some st =>
      dsimp only
      split
      · exact domOnly_abortClose h s
      · exact domOnly_setIngress (domStop_lt hst) ..
  · split
    · exact domOnly_setDom h ..
    · exact .refl s

theorem domOnly_wakeFor (s : State) (q : Nat) : DomOnly s (wakeFor s q) := by
  obtain ⟨d, hd, hlt⟩ : ∃ d, (if qKind s q = 1 then 0x1A8 else if qKind s q = 3 ∨ qKind s q = 4 then 0x1A9 else 0) = d ∧ d < 2 ^ 32 :=
    ⟨_, rfl, by split_ifs <;> decide⟩
  unfold wakeFor
  dsimp only
  rw [hd]
  split
  · exact .refl s
  · exact domOnly_wakeDom hlt s

/-! ### Doorbells (R437 to R439) -/

/-- What a doorbell in range leaves: the queue's record as given, QSTAT but CQFULL, and the other queues. -/
theorem doorbell_kept (s : State) (q : QueueId) (x : Queue) :
    let t := setCqFull (wakeFor (setQueue s q x) q) q
    queue t q = x ∧ rgF t .qstat q 31 24 = rgF s .qstat q 31 24 ∧ qState t q = qState s q ∧ ∀ q', q' ≠ q.val → queue t q' = queue s q' := by
  intro t
  obtain ⟨w, hw⟩ : ∃ w, wakeFor (setQueue s q x) q = w := ⟨_, rfl⟩
  have honly : DomOnly (setQueue s q x) w := hw ▸ domOnly_wakeFor ..
  have hq : q.val < 2 ^ 32 := queueId_lt q
  have hqueue : ∀ j, queue t j = queue (setQueue s q x) j := fun j => by
    change tget {} j (setCqFull (wakeFor (setQueue s q x) q) q).queues = _
    rw [hw]
    change tget {} j w.queues = _
    rw [honly.queues]
    rfl
  have hfield : ∀ hi lo, hi < 10 ∨ 10 < lo → rgF t .qstat q hi lo = rgF s .qstat q hi lo := fun hi lo hne => by
    change rgF (setCqFull (wakeFor (setQueue s q x) q) q) .qstat q hi lo = _
    rw [hw, setCqFull, rgF_setRgF_field _ _ _ _ _ _ _ _ (by decide) (by decide) hne, honly.rgF hq (by simp [domNames]), rgF_setQueue]
  exact ⟨(hqueue q).trans (queue_setQueue_same ..), hfield _ _ (by decide), hfield _ _ (by decide),
    fun q' hne => (hqueue q').trans (queue_setQueue_ne hne)⟩

/-- A doorbell that is refused is counted (R438, R439). -/
theorem dbErr_counted (s : State) (q : QueueId) :
    rgF (dbErr s q) .qstat q 31 24 = min (rgF s .qstat q 31 24 + 1) 255 ∧ RegsOnly [(.qstat, q.val)] s (dbErr s q) :=
  ⟨rgF_incRgF_same (by decide) (by decide), .setRgF (queueId_lt q) List.mem_cons_self ..⟩

theorem sqdbWrite_taken {s : State} {q x : Nat} (h : qState s q ≠ 0 ∧ qState s q ≠ 4) (hx : x < sqSize s q) :
    sqdbWrite s q x = setCqFull (wakeFor (setQueue s q { queue s q with tail := x }) q) q :=
  if_neg (by omega)

theorem sqdbWrite_refused {s : State} {q x : Nat} (h : ¬(qState s q ≠ 0 ∧ qState s q ≠ 4) ∨ sqSize s q ≤ x) : sqdbWrite s q x = dbErr s q :=
  if_pos (by omega)

theorem cqdbWrite_taken {s : State} {q x : Nat} (h : qState s q ≠ 0 ∧ qState s q ≠ 4) (hx : x < cqSize s q)
    (hheld : (x + cqSize s q - (queue s q).cqHead) % cqSize s q ≤ cqHeld s q) :
    cqdbWrite s q x = setCqFull (wakeFor (setQueue s q { queue s q with cqHead := x }) q) q := by
  unfold cqdbWrite
  rw [if_neg (by omega), if_neg (by omega)]

theorem cqdbWrite_refused {s : State} {q x : Nat} (h : ¬(qState s q ≠ 0 ∧ qState s q ≠ 4) ∨ cqSize s q ≤ x ∨
    cqHeld s q < (x + cqSize s q - (queue s q).cqHead) % cqSize s q) : cqdbWrite s q x = dbErr s q := by
  unfold cqdbWrite
  by_cases h1 : x ≥ cqSize s q ∨ qState s q = 0 ∨ qState s q = 4
  · exact if_pos h1
  · rw [if_neg h1]
    exact if_pos (by omega)

/-! ### Opening and closing (R429 to R431) -/

/-- QCFG with a size field taken where it is in range. -/
def sizeTaken (s : State) (q hi lo x : Nat) : State := if 4 ≤ x ∧ x ≤ 16 then setRgF s .qcfg q hi lo x else s

theorem sizeTaken_regsOnly {q : Nat} (hq : q < 2 ^ 32) (s : State) (hi lo x : Nat) : RegsOnly [(.qcfg, q)] s (sizeTaken s q hi lo x) := by
  unfold sizeTaken
  split
  · exact .setRgF hq List.mem_cons_self ..
  · exact .refl ..

theorem sizeTaken_same (s : State) (q lo x : Nat) (h : lo ≤ 16) :
    rgF (sizeTaken s q (lo + 4) lo x) .qcfg q (lo + 4) lo = if 4 ≤ x ∧ x ≤ 16 then x else rgF s .qcfg q (lo + 4) lo := by
  unfold sizeTaken
  split
  · rename_i hx
    rw [rgF_setRgF_same _ _ _ _ _ _ (by omega) (by omega), show lo + 4 + 1 - lo = 5 by omega]
    exact Nat.mod_eq_of_lt (by omega)
  · rfl

theorem sizeTaken_field {s : State} {q hi lo x hi' lo' : Nat} (h : hi < 64) (hl : lo ≤ hi) (hne : hi' < lo ∨ hi < lo') :
    rgF (sizeTaken s q hi lo x) .qcfg q hi' lo' = rgF s .qcfg q hi' lo' := by
  unfold sizeTaken
  split
  · exact rgF_setRgF_field _ _ _ _ _ _ _ _ h hl hne
  · rfl

/-- QCFG.EN = 1 of a bound queue of a share, its ring sizes taken (R429). -/
theorem queueEnable_opens {s : State} {q n : Nat} {v : Word} (hen : rgF s .qcfg q 0 0 = 0) (hshare : queueShare s q = some n)
    (hkind : qKind s q ≠ 0) (hst : shState s n ≠ 0) :
    queueEnable s q v =
      let u := sizeTaken (sizeTaken s q 20 16 (fld v 20 16)) q 12 8 (fld v 12 8)
      let w := setQueue u q { share := some n, target := (queue u q).target }
      let w := setRgF (setRgF (setRgF w .qstat q 63 48 0) .qstat q 47 32 0) .qstat q 11 10 2
      setQState (setRgF w .qcfg q 0 0 1) q (if shState w n = 2 then 1 else 2) := by
  unfold queueEnable
  rw [if_neg (by omega), hshare]
  dsimp only
  rw [if_neg (by tauto)]
  rfl

/-- What the opening of a queue leaves (R429). -/
theorem queueEnable_spec {s : State} {q : QueueId} {n : Nat} {v : Word} (hen : rgF s .qcfg q 0 0 = 0) (hshare : queueShare s q = some n)
    (hn : n < 4096) (hkind : qKind s q ≠ 0) (hst : shState s n ≠ 0) :
    let t := queueEnable s q v
    rgF t .qcfg q 0 0 = 1 ∧ qState t q = (if shState s n = 2 then 1 else 2) ∧ rgF t .qstat q 63 48 = 0 ∧ rgF t .qstat q 47 32 = 0 ∧
    rgF t .qstat q 11 11 = 1 ∧ rgF t .qstat q 10 10 = 0 ∧ queue t q = { share := some n, target := (queue s q).target } ∧
    rgF t .qcfg q 12 8 = (if 4 ≤ fld v 12 8 ∧ fld v 12 8 ≤ 16 then fld v 12 8 else rgF s .qcfg q 12 8) ∧
    rgF t .qcfg q 20 16 = (if 4 ≤ fld v 20 16 ∧ fld v 20 16 ≤ 16 then fld v 20 16 else rgF s .qcfg q 20 16) := by
  intro t
  have hq : q.val < 4294967296 := queueId_lt q
  have hopen := queueEnable_opens (v := v) hen hshare hkind hst
  obtain ⟨u, hu⟩ : ∃ u, u = sizeTaken (sizeTaken s q 20 16 (fld v 20 16)) q 12 8 (fld v 12 8) := ⟨_, rfl⟩
  have honly : RegsOnly [(.qcfg, q.val)] s u := hu ▸ (sizeTaken_regsOnly hq ..).trans (sizeTaken_regsOnly hq ..)
  have hqueues : u.queues = s.queues := by rw [← honly.1]
  have hsq : rgF u .qcfg q 12 8 = if 4 ≤ fld v 12 8 ∧ fld v 12 8 ≤ 16 then fld v 12 8 else rgF s .qcfg q 12 8 := by
    rw [hu, sizeTaken_same _ _ 8 _ (by decide), sizeTaken_field (by decide) (by decide) (by decide)]
  have hcq : rgF u .qcfg q 20 16 = if 4 ≤ fld v 20 16 ∧ fld v 20 16 ≤ 16 then fld v 20 16 else rgF s .qcfg q 20 16 := by
    rw [hu, sizeTaken_field (by decide) (by decide) (by decide), sizeTaken_same _ _ 16 _ (by decide)]
  have hstate : shState u n = shState s n := honly.rgF (by omega) (by simp) ..
  have htarget : (queue u q).target = (queue s q).target := by rw [queue, hqueues]; rfl
  obtain ⟨w, hw⟩ : ∃ w, w = setQueue u q { share := some n, target := (queue u q).target } := ⟨_, rfl⟩
  have hwstate : shState w n = shState s n := by rw [hw]; exact hstate
  have hwsq : rgF w .qcfg q 12 8 = rgF u .qcfg q 12 8 := by rw [hw, rgF_setQueue]
  have hwcq : rgF w .qcfg q 20 16 = rgF u .qcfg q 20 16 := by rw [hw, rgF_setQueue]
  obtain ⟨x, hx, hx3⟩ : ∃ x, (if shState s n = 2 then 1 else 2) = x ∧ x < 8 := ⟨_, rfl, by split <;> decide⟩
  have hstep : shState (setRgF (setRgF (setRgF w .qstat q 63 48 0) .qstat q 47 32 0) .qstat q 11 10 2) n = shState w n := by
    simp [shState, rgF_setRgF_name, hq, show n < 4294967296 by omega]
  have ht : t = setQState (setRgF (setRgF (setRgF (setRgF w .qstat q 63 48 0) .qstat q 47 32 0) .qstat q 11 10 2) .qcfg q 0 0 1) q x := by
    have he := hopen
    dsimp only at he
    rw [← hu, ← hw, hstep, hwstate, hx] at he
    exact he
  have hqueue : queue t q = queue w q := by rw [ht]; rfl
  have hwq : queue w q = { share := some n, target := (queue s q).target } := by rw [hw, queue_setQueue_same, htarget]
  rw [hx, ← hsq, ← hcq, ← hwsq, ← hwcq, hqueue, ht, hwq]
  simp [setQState, qState, rgF_setRgF_name, rgF_setRgF_same, rgF_setRgF_field, rgF_setRgF_inside, hq]
  omega

theorem tryClose_empty {s : State} {q : Nat} (h : qState s q = 3) (hitems : (queue s q).items = []) :
    tryClose s q = setQState (setRgF s .qcfg q 0 0 0) q 0 :=
  if_pos ⟨h, by rw [hitems]; rfl⟩

theorem tryClose_waits {s : State} {q : Nat} (hitems : (queue s q).items ≠ []) : tryClose s q = s :=
  if_neg fun h => hitems (List.isEmpty_iff.mp h.2)

/-- QCFG.EN = 0 of a queue that runs (R430): it drains, and goes OFF once nothing is left. -/
theorem queueDisable_spec {s : State} {q : QueueId} (hen : rgF s .qcfg q 0 0 = 1) (hst : qState s q ≠ 3) :
    let t := queueDisable s q
    ((queue s q).items = [] → rgF t .qcfg q 0 0 = 0 ∧ qState t q = 0 ∧
      RegsOnly [(.qcfg, q.val), (.qstat, q.val)] { s with queues := t.queues } t) ∧
    ((queue s q).items ≠ [] → rgF t .qcfg q 0 0 = 1 ∧ qState t q = 3 ∧ queue t q = { queue s q with closeAt := now s }) := by
  intro t
  have hq : q.val < 4294967296 := queueId_lt q
  obtain ⟨w, hw⟩ : ∃ w, w = setQueue (setQState s q 3) q { queue s q with closeAt := now s } := ⟨_, rfl⟩
  have ht : t = tryClose w q := by
    rw [hw]
    exact if_neg (by omega)
  have hqueue : queue w q = { queue s q with closeAt := now s } := by rw [hw, queue_setQueue_same]
  have hstate : qState w q = 3 := by
    rw [hw, qState, rgF_setQueue]
    exact rgF_setRgF_same _ _ _ _ _ _ (by decide) (by decide)
  refine ⟨fun hempty => ?_, fun hleft => ?_⟩
  · rw [ht, tryClose_empty hstate (by rw [hqueue]; exact hempty)]
    have honly : RegsOnly [(.qcfg, q.val), (.qstat, q.val)] { s with queues := w.queues } (setQState (setRgF w .qcfg q 0 0 0) q 0) := by
      have hmem : (RegName.qstat, q.val) ∈ [(RegName.qcfg, q.val), (.qstat, q.val)] := by simp
      have h1 := RegsOnly.setRgF hq hmem { s with queues := w.queues } 2 0 3
      have he : setRgF { s with queues := w.queues } .qstat q 2 0 3 = w := by
        rw [hw]
        rfl
      rw [he] at h1
      exact (h1.trans (.setRgF hq List.mem_cons_self ..)).trans (.setRgF hq hmem ..)
    exact ⟨by simp [setQState, rgF_setRgF_name, rgF_setRgF_same, hq], by simp [setQState, qState, rgF_setRgF_same], honly⟩
  · rw [ht, tryClose_waits (by rw [hqueue]; exact hleft)]
    refine ⟨?_, hstate, hqueue⟩
    rw [hw, rgF_setQueue, setQState, rgF_setRgF_name (by simp) hq hq, hen]

/-! ### Descriptor fetch (R433, R440) -/

/-- With no item refused as it was read, nothing is completed behind another. -/
theorem flushBad_good {n q fuel : Nat} {i : EngIn} {s : State} (h : ∀ it ∈ (queue s q).items, it.bad = none) : flushBad n q i fuel s = s := by
  have hdue : badDue s q = none := by
    unfold badDue
    split
    · rfl
    · rename_i it its hitems
      rw [hitems] at h
      rw [h it List.mem_cons_self]
      refine List.find?_eq_none.mpr fun x hx => ?_
      simp [h x (List.mem_cons_of_mem _ hx)]
  unfold flushBad
  cases fuel with
  | zero => split <;> rfl
  | succ fuel =>
    split
    · unfold flushCipher
      rw [hdue]
    · unfold flushInTurn
      split
      · rename_i it its hitems
        rw [h it (by rw [hitems]; exact List.mem_cons_self)]
      · rfl

section
variable {s : State} {q : QueueId} {n : Nat} {i : EngIn}

/-- A queue whose engine would read the next descriptor. -/
structure Fetches (s : State) (q n : Nat) : Prop where
  share : queueShare s q = some n
  runs : qState s q = 1
  enabled : shState s n = 2
  master : (Machine.share s n).bme = true
  waits : rgF s .qstat q 63 48 ≠ (queue s q).tail
  awake : rgF s .pkgstat 0 10 8 ≤ 1

theorem Fetches.passes {q : Nat} (h : Fetches s q n) : ¬(qState s q ≠ 1 ∨ shState s n ≠ 2 ∨ (!((Machine.share s n).bme)) = true ∨
    rgF s .qstat q 63 48 = (queue s q).tail ∨ rgF s .pkgstat 0 10 8 > 1) := by
  obtain ⟨_, hr, he, hm, hw, ha⟩ := h
  rw [hm]
  simp [hr, he, hw, ha]

theorem fetchDesc_full (h : Fetches s q n) (hfull : cqRoom s q = false) : fetchDesc s q i = setRgF s .qstat q 10 10 1 := by
  unfold fetchDesc
  rw [h.share]
  dsimp only
  rw [if_neg h.passes, hfull]
  rfl

/-- What is left once a descriptor was accepted. -/
def accepted (v : State) (q head : Nat) (it : Item) : State :=
  setRgF (setRgF { setQueue v q { queue v q with items := (queue v q).items ++ [{ it with seq := v.cipSeq }] } with cipSeq := v.cipSeq + 1 }
    .qstat q 63 48 ((head + 1) % sqSize v q)) .qstat q 10 10 0

theorem fetchDesc_accepts {bs : List Byte} {v : State} (h : Fetches s q n) (hroom : cqRoom s q = true)
    (hcip : qKind s q = 2 → cipherHeld s < 4096)
    (hread : shReadBuf s n (kindStop (qKind s q)) i i.src (rgF s .sqbase q 51 12 * 4096 + rgF s .qstat q 63 48 * 64) 64 = (.ok, bs, v))
    (hgood : descGood (bitOf s.features 2) (qKind s q) (ofLineBytes bs) = true) (hbad : ∀ it ∈ (queue v q).items, it.bad = none) :
    fetchDesc s q i = accepted v q (rgF s .qstat q 63 48) { sqidx := rgF s .qstat q 63 48, desc := ofLineBytes bs } := by
  have hflush : ∀ (t : State) (fuel : Nat), (queue t q).items = (queue v q).items ++
      [({ sqidx := rgF s .qstat q 63 48, desc := ofLineBytes bs, seq := v.cipSeq } : Item)] → flushBad n q i fuel t = t := fun t fuel ht =>
    flushBad_good fun it hit => by
      rw [ht, List.mem_append, List.mem_singleton] at hit
      obtain hit | rfl := hit
      · exact hbad it hit
      · rfl
  unfold fetchDesc
  rw [h.share]
  dsimp only
  rw [if_neg h.passes, hroom, if_neg (by simp), if_neg (by rintro ⟨h1, h2⟩; exact absurd (hcip h1) (by omega)), hread]
  dsimp only
  rw [hgood]
  exact hflush _ _ (by rw [queue]; exact congrArg Queue.items (queue_setQueue_same ..))

theorem accepted_spec {v : State} {head : Nat} {it : Item} (hsize : sqSize v q ≤ 65536) :
    let t := accepted v q head it
    queue t q = { queue v q with items := (queue v q).items ++ [{ it with seq := v.cipSeq }] } ∧
    rgF t .qstat q 63 48 = (head + 1) % sqSize v q ∧ rgF t .qstat q 10 10 = 0 ∧ t.dram = v.dram := by
  intro t
  have hlt : (head + 1) % sqSize v q < 65536 := (Nat.mod_lt _ (Nat.two_pow_pos _)).trans_le hsize
  refine ⟨queue_setQueue_same .., ?_, ?_, rfl⟩
  · change rgF (accepted v q head it) .qstat q 63 48 = _
    rw [accepted, rgF_setRgF_field _ _ _ _ _ _ _ _ (by decide) (by decide) (by decide), rgF_setRgF_same _ _ _ _ _ _ (by decide) (by decide)]
    exact Nat.mod_eq_of_lt hlt
  · exact rgF_setRgF_same _ _ _ _ _ _ (by decide) (by decide)

/-! ### The hold of held records (R433) -/

theorem holdExpiry_raises {t0 : Nat} (hfrom : (queue s q).holdFrom = some t0) (hunrep : 0 < (queue s q).unrep) (hshare : queueShare s q = some n)
    (hvec : rgF s .qirq q 14 0 < (share s n).nvec) (hpost : bit (rg s .msictl ((share s n).vec0 + rgF s .qirq q 14 0)) 30 = false)
    (hdue : t0 + rgF s .qirq q 31 16 * 1000 ≤ now s) : holdExpiry s q =
      setRgF (setQueue s q { queue s q with unrep := 0, holdFrom := none }) .msictl ((share s n).vec0 + rgF s .qirq q 14 0) 1 1 1 := by
  unfold holdExpiry
  rw [hfrom]
  dsimp only
  rw [if_pos ⟨hunrep, hdue⟩]
  have hqueue : queueShare (setQueue s q { queue s q with unrep := 0, holdFrom := none }) q = some n := hshare
  unfold queueIrq
  dsimp only
  rw [hqueue]
  dsimp only
  exact (if_neg (not_le.mpr hvec)).trans (raiseVec_of_not_posted hpost)

theorem holdExpiry_early {t0 : Nat} (hfrom : (queue s q).holdFrom = some t0) (h : now s < t0 + rgF s .qirq q 31 16 * 1000) : holdExpiry s q = s := by
  unfold holdExpiry
  rw [hfrom]
  exact if_neg (by omega)

end

/-- Settles O42: doorbells, QCFG.EN, descriptor fetch, the hold of records. -/
theorem queueOperation : Obligations.QueueOperation := by
  refine ⟨fun b q x s => ⟨fun ho hx => ?_, fun hno => ?_, fun ho hx hheld => ?_, fun hno => ?_⟩, fun b q v n s => ⟨fun hen hshare hn hkind hst => ?_,
    fun hen => ?_, fun hen hst => ?_⟩, ?_, fun q n t0 s hfrom hunrep hshare hlt hvec hpost => ?_⟩
  · exact ⟨_, congrArg ok (sqdbWrite_taken ho hx), doorbell_kept ..⟩
  · exact ⟨_, congrArg ok (sqdbWrite_refused hno), dbErr_counted s q⟩
  · exact ⟨_, congrArg ok (cqdbWrite_taken ho hx hheld), doorbell_kept ..⟩
  · exact ⟨_, congrArg ok (cqdbWrite_refused hno), dbErr_counted s q⟩
  · exact ⟨_, rfl, queueEnable_spec hen hshare hn hkind hst⟩
  · exact ⟨_, rfl, if_pos hen⟩
  · obtain ⟨hempty, hleft⟩ := queueDisable_spec hen hst
    exact ⟨fun h => ⟨_, rfl, hempty h⟩, fun h => ⟨_, rfl, hleft h⟩⟩
  · intro q i n s head hshare hruns hst hbme hwaits hawake
    have hf : Fetches s q n := ⟨hshare, hruns, hst, hbme, hwaits, hawake⟩
    refine ⟨fun hfull => ⟨_, congrArg hubOk (fetchDesc_full hf hfull), ?_⟩, fun bs v hroom hcip hread hgood hbad hsize =>
      ⟨_, congrArg hubOk (fetchDesc_accepts hf hroom hcip hread hgood hbad), accepted_spec hsize⟩⟩
    exact ⟨rgF_setRgF_same _ _ _ _ _ _ (by decide) (by decide), .setRgF (queueId_lt q) List.mem_cons_self ..⟩
  · refine ⟨fun hdue => ⟨_, congrArg ok (holdExpiry_raises hfrom hunrep hshare hvec hpost hdue), ?_, ?_, ?_, rfl⟩, fun h => ⟨_, rfl, holdExpiry_early hfrom h⟩⟩
    · rw [setRgF, rg_setRg_same, bit_setFld _ _ _ _ _ (by decide) (by decide)]
      rfl
    · exact congrArg Queue.unrep (queue_setQueue_same ..)
    · exact congrArg Queue.holdFrom (queue_setQueue_same ..)

end Sys2Proof.Machine
end

section
/-! PROOFS. Ethernet ports (R407, R517): the link change of a MAC raises its source, which the management processor sees pending. -/
namespace Sys2Proof.Machine

open Sys2Proof

/-- A pending bit of the management processor stays as a lane group's state changes (R596). -/
theorem setLgState_pends {s : State} {k : Nat} (h : s.mpPend.testBit k = true) (g x : Nat) : (setLgState s g x).mpPend.testBit k = true := by
  unfold setLgState
  split
  · exact h
  · change (s.mpPend ||| 2 ^ _).testBit k = true
    rw [Nat.testBit_or, h, Bool.true_or]

theorem lgRefresh_pends {s : State} {k : Nat} (h : s.mpPend.testBit k = true) (g : Nat) : (lgRefresh s g).mpPend.testBit k = true := by
  unfold lgRefresh
  dsimp only
  split_ifs
  · exact h
  · exact setLgState_pends h ..
  · exact setLgState_pends h ..
  · exact setLgState_pends h ..
  · exact setLgState_pends h ..
  · exact setLgState_pends h ..
  · exact h

/-- A change of a MAC's link is pending at the management processor (R517, R596). -/
theorem setEthLink_pends {s : State} {n : Nat} {up : Bool} (h : rgF s .ethstat n 16 16 ≠ up.toNat) :
    (setEthLink s n up).mpPend.testBit (896 + n) = true := by
  rw [setEthLink, if_neg h]
  refine lgRefresh_pends ?_ _
  change (s.mpPend ||| 2 ^ (896 + n)).testBit (896 + n) = true
  rw [Nat.testBit_or, Nat.testBit_two_pow_self, Bool.or_true]

/-- MAC 0 is enabled and its link is up, and no source is pending. -/
def linkedPort : State := setRgF (setRgF State.reset .ethport 0 16 16 1) .ethstat 0 16 16 1

theorem linkedPort_enabled : rgF linkedPort .ethport 0 16 16 = 1 := by
  rw [linkedPort, rgF_setRgF_name (by simp) (by decide) (by decide), rgF_setRgF_same _ _ _ _ _ _ (by decide) (by decide)]
  rfl

theorem linkedPort_linked : rgF linkedPort .ethstat 0 16 16 = 1 := by
  rw [linkedPort, rgF_setRgF_same _ _ _ _ _ _ (by decide) (by decide)]
  rfl

/-- Refutes O40: when the link of MAC 0 goes down its source 896 is raised, and with it the pending bit of the management processor, while the
statement lets nothing but set-up registers change. -/
theorem not_ethernetPortsAndFrames : ¬ Obligations.EthernetPortsAndFrames := by
  rintro ⟨_, hlink, _⟩
  obtain ⟨t, ht, _, _, hrest⟩ := hlink 0 false linkedPort linkedPort_enabled (by rw [show ((0 : MacId) : Nat) = 0 from rfl, linkedPort_linked]; decide) nofun
  have hdown : t = setEthLink linkedPort 0 false := by
    have hexec : exec (.ethLinkChange 0 false) linkedPort = ok (setEthLink linkedPort 0 false) :=
      congrArg ok (if_pos ⟨linkedPort_enabled, .inl rfl⟩)
    rw [hexec] at ht
    exact (Host.Outcome.next.inj ht).symm
  have hpend : t.mpPend.testBit 896 = true := by
    rw [hdown]
    exact setEthLink_pends (by rw [linkedPort_linked]; decide)
  have hkept : t.mpPend = 0 := by
    change { t with regs := linkedPort.regs }.mpPend = 0
    rw [hrest]
    rfl
  rw [hkept] at hpend
  exact absurd hpend (by decide)

end Sys2Proof.Machine
end

section
/-! PROOFS. Accesses of the register window: plain writes, the debug access port, the management processor's window (R10 to R13, R511, R595). -/
namespace Sys2Proof.Machine

open Sys2Proof

/-! ### A register without behaviour of its own -/

theorem plainWrite_regsOnly {r : RegName} {i : Nat} (hi : i < 2 ^ 32) (s : State) (lock : Bool) (v : Word) :
    RegsOnly [(r, i)] s (plainWrite s r i lock v) := .setRg hi List.mem_cons_self ..

/-- A field after a plain write of its register (R11). -/
theorem rgF_plainWrite {s : State} {r : RegName} {i : Nat} {lock : Bool} {v : Word} (hok : fieldsOk (regFields r) = true) {f : FieldDef}
    (hf : f ∈ regFields r) : rgF (plainWrite s r i lock v) r i f.hi f.lo =
      f.written (lock || lockedBit (rg s r i) (regFields r)) (rg s r i) v := by
  rw [rgF, plainWrite, rg_setRg_same, fld_writeFields hok hf]

/-! ### DEVSTO -/

theorem regWrite_devsto (b : By) (v : Word) (s : State) : regWrite s b 0x20000 v = some (plainWrite s .devsto 0 false v) := by
  have hfind : regFind 0x20000 = some (.devsto, 0) := by decide
  have hrefuse : ownRefusal b .devsto = false := by simp [ownRefusal]
  have hfenced : offFenced s 0x20000 = false := rfl
  unfold regWrite
  rw [hfenced, if_neg (by decide), hfind]
  dsimp only
  rw [hrefuse]
  rfl

/-- DEVSTO.STO after a write: taken in 1 to 64,000, unless LOCK is set (R237). -/
theorem devsto_field (v w : Word) : ((⟨15, 0, .rwl, 0x3e8, .range 1 64000⟩ : FieldDef).written (lockedBit v devstoFields) v w) =
    if fld v 16 16 = 0 ∧ 1 ≤ fld w 15 0 ∧ fld w 15 0 ≤ 64000 then fld w 15 0 else fld v 15 0 := by
  have hlock : lockedBit v devstoFields = decide (fld v 16 16 ≠ 0) := by
    simp only [lockedBit, devstoFields, List.any_cons, List.any_nil, show (FTy.rw1s == FTy.rw1s) = true from rfl,
      show (FTy.rwl == FTy.rw1s) = false from rfl, Bool.true_and, Bool.false_and, Bool.or_false]
    by_cases h : fld v 16 16 = 0 <;> simp [h]
  rw [hlock]
  simp only [FieldDef.written, FieldDef.takes]
  by_cases h1 : fld v 16 16 = 0 <;> by_cases h2 : 1 ≤ fld w 15 0 <;> by_cases h3 : fld w 15 0 ≤ 64000 <;> simp [h1, h2, h3]

/-! ### The debug access port -/

theorem dapGate_free {ihl : Bool} {op : DapOp} {run : State → State} {s : State} (h : s.dapWait = []) : dapGate ihl op false run s = run s := by
  unfold dapGate
  rw [h]
  rfl

/-- A record of the heat log changes nothing else (R606). -/
theorem hlDevice_only (s : State) (typ origin arg : Nat) (p : BitVec 256) : { hlDevice s typ origin arg p with hlog := s.hlog } = s := by
  unfold hlDevice
  dsimp only
  split <;> rfl

/-- An operation that is denied is recorded, and nothing else done (R511). -/
theorem dapDenied_only (s : State) (w : Bool) (what : Word) : (dapDenied s w what).dapStatus = 0x30 ∧ (dapDenied s w what).dapData = 0 ∧
    { dapDenied s w what with
      hlog := s.hlog
      dapStatus := s.dapStatus
      dapData := s.dapData } = s := by
  obtain ⟨t, ht⟩ : ∃ t, hlDenied s (.dap w) 0x30 what = t := ⟨_, rfl⟩
  have honly : { t with hlog := s.hlog } = s := ht ▸ hlDevice_only ..
  refine ⟨rfl, rfl, ?_⟩
  unfold dapDenied
  rw [ht]
  have hstatus : t.dapStatus = s.dapStatus ∧ t.dapData = s.dapData := by
    rw [← honly]
    exact ⟨rfl, rfl⟩
  obtain ⟨h1, h2⟩ := hstatus
  calc { dapEnd t 0x30 0 with hlog := s.hlog, dapStatus := s.dapStatus, dapData := s.dapData }
      = { t with hlog := s.hlog, dapStatus := s.dapStatus, dapData := s.dapData } := rfl
    _ = { t with hlog := s.hlog } := by rw [← h1, ← h2]
    _ = s := honly

theorem dapDenied_regs (s : State) (w : Bool) (what : Word) : (dapDenied s w what).regs = s.regs := by
  obtain ⟨_, _, h⟩ := dapDenied_only s w what
  have hregs := congrArg State.regs h
  exact hregs

/-! ### The window of the management processor -/

section
variable {s : State} {a pa : Nat} {k off : Nat}

theorem windowHalf_bad (w : Option (BitVec 32)) (h : a < 0x80000000 ∨ a % 4 ≠ 0) : windowHalf s a w = winEnd s none := by
  unfold windowHalf
  dsimp only
  rw [if_pos h]

/-- A read through the window. -/
theorem windowHalf_read (h1 : 0x80000000 ≤ a) (h2 : a % 4 = 0) (hpa : s.mpwin * 0x80000000 + (a - 0x80000000) = pa)
    (hk : paKind s pa = .regWin k off) : windowHalf s a none =
    if k ≠ s.pkg ∧ (!(s.admitted.contains k)) = true then winEnd s none
    else if pa % 8 = 0 then
      if k ≠ s.pkg then winSend s pa none
      else (match regRead s .mp off with
        | some v => winEnd { s with mpRead := some (pa, v) } (some (BitVec.ofNat 64 (fld v 31 0)))
        | none => winEnd { s with mpRead := none } none)
    else (match s.mpRead with
      | some (q, v) => if q + 4 = pa then winEnd { s with mpRead := none } (some (BitVec.ofNat 64 (fld v 63 32))) else winEnd s none
      | none => winEnd s none) := by
  have hgood : ¬(a < 0x80000000 ∨ a % 4 ≠ 0) := by omega
  unfold windowHalf
  dsimp only
  simp only [hpa, if_neg hgood, hk] <;> rfl

/-- A write through the window. -/
theorem windowHalf_write {x : BitVec 32} (h1 : 0x80000000 ≤ a) (h2 : a % 4 = 0) (hpa : s.mpwin * 0x80000000 + (a - 0x80000000) = pa)
    (hk : paKind s pa = .regWin k off) :
    windowHalf s a (some x) =
    if k ≠ s.pkg ∧ (!(s.admitted.contains k)) = true then winEnd s none
    else if pa % 8 = 0 then winEnd { s with mpHeld := some (pa, x.toNat) } (some 0)
    else (match s.mpHeld with
      | some (q, lo) =>
        if q + 4 = pa then
          if k ≠ s.pkg then winSend { s with mpHeld := none } q (some (BitVec.ofNat 64 (lo + x.toNat * 2 ^ 32)))
          else (match regWrite { s with mpHeld := none } .mp (off - 4) (BitVec.ofNat 64 (lo + x.toNat * 2 ^ 32)) with
            | some s => winEnd s (some 0)
            | none => winEnd { s with mpHeld := none } none)
        else winEnd s none
      | none => winEnd s none) := by
  have hgood : ¬(a < 0x80000000 ∨ a % 4 ≠ 0) := by omega
  unfold windowHalf
  dsimp only
  simp only [hpa, if_neg hgood, hk] <;> rfl

end

/-- A request of the window to another package (R29, R304). -/
theorem winSend_spec (s : State) (pa : Nat) (v : Option Word) : ∃ p, (winSend s pa v).net = s.net ++ [p] ∧
    p.cmd = (if v.isSome then .devWr else .devRd) ∧ p.src = coreStop mpCore ∧ p.addr = pa ∧ p.size = 3 ∧ p.data.toNat = (v.getD 0).toNat ∧
    (winSend s pa v).mp.winTx = some (pa, p.txid) ∧ (winSend s pa v).regs = s.regs ∧ (winSend s pa v).mpHeld = s.mpHeld := by
  have hdata : (BitVec.ofNat 512 (v.getD 0).toNat).toNat = (v.getD 0).toNat := by
    rw [BitVec.toNat_ofNat]
    have := (v.getD 0).isLt
    omega
  exact ⟨_, rfl, rfl, rfl, rfl, rfl, hdata, rfl, rfl, rfl⟩

/-- A window access of a register of this package or an admitted one passes. -/
theorem window_passes {s : State} {k : Nat} (h : k = s.pkg ∨ s.admitted.contains k = true) : ¬(k ≠ s.pkg ∧ (!(s.admitted.contains k)) = true) := by
  rintro ⟨h1, h2⟩
  obtain h | h := h
  · exact h1 h
  · rw [h] at h2
    cases h2

/-! ### CXL.mem -/

theorem takePacket_kept {f : Packet → Bool} {s u : State} {p : Packet} (h : takePacket f s = some (p, u)) : { u with net := s.net } = s := by
  unfold takePacket takeAny at h
  split at h
  · cases h
    rfl
  · cases h

/-- Settles O48: the register window. -/
theorem registerWindow : Obligations.RegisterWindow := by
  refine ⟨fun b off v w s => ⟨fun u hu => ⟨_, rfl, ?_⟩, fun hbad => ⟨_, rfl, ?_⟩, ?_, fun hfree hen => ⟨fun x hx => ⟨_, rfl, ?_⟩, fun hx => ⟨_, rfl, ?_⟩⟩,
    fun hfree hen => ⟨_, rfl, ?_⟩, fun hfree hen => ⟨fun u hu => ⟨_, rfl, ?_⟩, fun hu => ⟨_, rfl, ?_⟩⟩, fun hfree hen => ⟨_, rfl, ?_⟩⟩, ?_,
    fun src txid p u s htake => ?_⟩
  · rw [hu]
    rfl
  · have hnone : regWrite s b off.toNat v = none := if_pos (by
      obtain h | h := hbad
      · exact .inl h
      · exact .inr (.inl (by rw [h]; rfl)))
    rw [hnone]
    rfl
  · have hwrite : exec (.registerWrite b 0x20000 v) s = ok (plainWrite s .devsto 0 false v) := by
      have he : (regWrite s b (0x20000 : BitVec 40).toNat v).getD s = plainWrite s .devsto 0 false v := by
        rw [show (0x20000 : BitVec 40).toNat = 0x20000 from rfl, regWrite_devsto]
        rfl
      exact congrArg ok he
    exact ⟨_, hwrite, plainWrite_regsOnly (by decide) .., (rgF_plainWrite (f := ⟨15, 0, .rwl, 0x3e8, .range 1 64000⟩) rfl (by simp [regFields, devstoFields])).trans
      (devsto_field ..)⟩
  · rw [dapGate_free hfree, dapSetupRead, hen, if_neg (by decide), hx]
    rfl
  · rw [dapGate_free hfree, dapSetupRead, hen, if_neg (by decide), hx]
    rfl
  · rw [dapGate_free hfree, dapSetupRead, hen, if_pos (by decide)]
    exact ⟨rfl, rfl, dapDenied_regs ..⟩
  · rw [dapGate_free hfree, dapSetupWrite, hen, if_neg (by decide), hu]
    rfl
  · rw [dapGate_free hfree, dapSetupWrite, hen, if_neg (by decide), hu]
    rfl
  · rw [dapGate_free hfree, dapSetupWrite, hen, if_pos (by decide)]
    exact ⟨rfl, dapDenied_regs ..⟩
  · intro a x w k off s pa
    have hpa : s.mpwin * 0x80000000 + (a.toNat - 0x80000000) = pa := rfl
    clear_value pa
    have hrun : ∀ w, s.mp.winTx = none → exec (.windowHalfAccess a w) s = ok (windowHalf s a.toNat w) := fun w hfree =>
      congrArg ok (if_neg (by rw [hfree]; decide))
    refine ⟨fun y hy => congrArg ok (if_pos (by rw [hy]; rfl)), fun hfree hbad => ⟨_, hrun w hfree, ?_⟩, fun hfree h1 h2 hk => ⟨?_, ?_, ?_, ?_, ?_⟩⟩
    · rw [windowHalf_bad w hbad]
      exact ⟨rfl, rfl⟩
    · intro hpkg h8 v hv
      refine ⟨_, hrun none hfree, ?_⟩
      rw [windowHalf_read h1 h2 hpa hk, if_neg (window_passes (.inl hpkg)), if_pos h8, if_neg (not_not.mpr hpkg), hv]
      exact ⟨rfl, rfl, rfl⟩
    · intro hpkg q lo u h8 hq hheld hu
      refine ⟨_, hrun (some x) hfree, ?_⟩
      rw [windowHalf_write h1 h2 hpa hk, if_neg (window_passes (.inl hpkg)), if_neg h8, hheld]
      dsimp only
      rw [if_pos hq, if_neg (not_not.mpr hpkg), hu]
      exact ⟨rfl, rfl, rfl⟩
    · intro hadm
      refine ⟨fun h8 => ⟨_, hrun (some x) hfree, ?_⟩, fun q v h8 hq hread => ⟨_, hrun none hfree, ?_⟩⟩
      · rw [windowHalf_write h1 h2 hpa hk, if_neg (window_passes hadm), if_pos h8]
        exact ⟨rfl, rfl, rfl⟩
      · rw [windowHalf_read h1 h2 hpa hk, if_neg (window_passes hadm), if_neg h8, hread]
        dsimp only
        rw [if_pos hq]
        exact ⟨rfl, rfl, rfl⟩
    · intro hpkg hadm
      refine ⟨fun h8 => ?_, fun q lo h8 hq hheld => ?_⟩
      · obtain ⟨p, hnet, hcmd, hsrc, haddr, hsize, _, htx, hregs, _⟩ := winSend_spec s pa none
        refine ⟨_, p, hrun none hfree, ?_⟩
        rw [windowHalf_read h1 h2 hpa hk, if_neg (window_passes (.inr hadm)), if_pos h8, if_pos hpkg]
        exact ⟨hnet, hcmd, hsrc, haddr, hsize, htx, hregs⟩
      · obtain ⟨p, hnet, hcmd, hsrc, haddr, hsize, hdata, htx, hregs, hheld'⟩ :=
          winSend_spec { s with mpHeld := none } q (some (BitVec.ofNat 64 (lo + x.toNat * 2 ^ 32)))
        refine ⟨_, p, hrun (some x) hfree, ?_⟩
        rw [windowHalf_write h1 h2 hpa hk, if_neg (window_passes (.inr hadm)), if_neg h8, hheld]
        dsimp only
        rw [if_pos hq, if_pos hpkg]
        exact ⟨hnet, hcmd, haddr, hdata.trans (BitVec.toNat_ofNat ..), htx, hheld', hregs⟩
    · intro hpkg hadm
      refine ⟨_, hrun w hfree, ?_⟩
      have hout : windowHalf s a.toNat w = winEnd s none := by
        cases w
        · rw [windowHalf_read h1 h2 hpa hk, if_pos ⟨hpkg, by rw [hadm]; rfl⟩]
        · rw [windowHalf_write h1 h2 hpa hk, if_pos ⟨hpkg, by rw [hadm]; rfl⟩]
      rw [hout]
      exact ⟨rfl, rfl⟩
  · have hkept := takePacket_kept htake
    have hrun : exec (.cxlCompletionTimeout src txid) s =
        ok (send u { p with cmd := .errRsp, src := p.dst, dst := p.src, cls := .h, data := 0, mask := 0, at_ := none }) := by
      have he : ∀ o, o = some (p, u) → (match o with
          | some (p, s) => send s { p with cmd := .errRsp, src := p.dst, dst := p.src, cls := .h, data := 0, mask := 0, at_ := none }
          | none => s) = send u { p with cmd := .errRsp, src := p.dst, dst := p.src, cls := .h, data := 0, mask := 0, at_ := none } := fun o ho => by
        rw [ho]
      exact congrArg ok (he _ htake)
    have hdram := congrArg State.dram hkept
    have hpoison := congrArg State.poisoned hkept
    exact ⟨_, _, hrun, rfl, rfl, rfl, rfl, hdram, hpoison⟩

end Sys2Proof.Machine
end

section
/-! PROOFS. The fabric (R315 to R332, R570): a hop at a stop that no package has. -/
namespace Sys2Proof.Machine

open Sys2Proof

/-- The number of a die that no package has: the hub's stop of that number has its state where the hub's correctable-error log has its. -/
def strayDie : Nat := 15 * 2 ^ 32

/-- A packet at the last stop before the die's hub stop; its destination is the hub's stop of that number. -/
def strayPacket : Packet := { cmd := .irq, src := ⟨strayDie, 28⟩, dst := ⟨12, strayDie⟩, cls := .q }

/-- The stop ahead is FENCED, and the hub's correctable-error log is to be written next at entry 3. -/
def strayState : State :=
  { setRgF (setRgF State.reset .hubFstop 29 2 0 4) .hubCelogstat 0 4 0 3 with net := [strayPacket] }

/-- The lane that serves the packet. -/
def strayLane : Nat := otagHash 0 strayPacket % 4

theorem strayPacket_eligible : eligible strayState ⟨strayDie, 28⟩ ⟨strayDie, 29⟩ strayLane = [(strayPacket, strayPacket, false)] := by decide +kernel

theorem strayPacket_passes : fencedOn strayState strayPacket 64 ⟨strayDie, 29⟩ = false := by decide +kernel

/-- The unit resent is logged, NEXT goes on to 4, which the destination's stop shows as FENCED: the packet is dropped. -/
theorem strayPacket_dropped : (stopForward strayState ⟨strayDie, 28⟩ ⟨strayDie, 29⟩ strayLane .resent).net = [] := by decide +kernel

/-- Refutes O32: from a die of no package, the log entry of a unit that was resent changes whether the stops ahead are FENCED, so the packet is
dropped where the statement has it move on. -/
theorem not_fabricForwarding : ¬ Obligations.FabricForwarding := by
  rintro ⟨hforward, _⟩
  obtain ⟨_, _, hresent⟩ := hforward ⟨strayDie, 28⟩ ⟨strayDie, 29⟩ strayLane strayPacket strayPacket false strayState strayPacket_eligible
    strayPacket_passes
  obtain ⟨⟨t, ht, hnet, _⟩, _⟩ := hresent (by decide) (.inr (by decide))
  have hdrop : t.net = [] := by
    rw [← Host.Outcome.next.inj ht]
    exact strayPacket_dropped
  rw [hdrop] at hnet
  exact absurd hnet (by simp)

end Sys2Proof.Machine
end

section
/-! PROOFS. Sprue links: the ends of a link and what crosses it (R338 to R345). -/
namespace Sys2Proof.Machine

open Sys2Proof

/-! ### Ends -/

theorem linkEnd_setEnd_same (s : State) (n : Nat) (x : LinkEnd) : linkEnd (setEnd s n x) n = x := tget_tset_same _

theorem linkEnd_setEnd_ne {s : State} {n m : Nat} {x : LinkEnd} (h : m ≠ n) : linkEnd (setEnd s n x) m = linkEnd s m := tget_tset_ne h _

theorem peerEnd_ne (n : EndId) : peerEnd n ≠ n.val := by
  have := n.isLt
  unfold peerEnd
  split_ifs <;> omega

/-- A unit put on the wire joins it behind the units there, and nothing else changes. -/
theorem linkEnd_toPeer_peer (s : State) (n : Nat) (u : WUnit) :
    linkEnd (toPeer s n u) (peerEnd n) = { linkEnd s (peerEnd n) with wire := (linkEnd s (peerEnd n)).wire ++ [u] } := linkEnd_setEnd_same ..

theorem linkEnd_toPeer_ne {s : State} {n m : Nat} {u : WUnit} (h : m ≠ peerEnd n) : linkEnd (toPeer s n u) m = linkEnd s m := linkEnd_setEnd_ne h

/-- Units put on the wire one behind the other. -/
theorem foldl_toPeer {n : Nat} : ∀ (us : List RUnit) (s : State), let t := us.foldl (fun s u => toPeer s n (.data u)) s
    (linkEnd t (peerEnd n)).wire = (linkEnd s (peerEnd n)).wire ++ us.map WUnit.data ∧ (∀ m, m ≠ peerEnd n → linkEnd t m = linkEnd s m) ∧
    { t with ends := s.ends } = s
  | [], s => ⟨(List.append_nil _).symm, fun _ _ => rfl, rfl⟩
  | u :: us, s => by
    obtain ⟨hwire, hothers, hrest⟩ := foldl_toPeer us (toPeer s n (.data u))
    refine ⟨?_, fun m hm => (hothers m hm).trans (linkEnd_toPeer_ne hm), ?_⟩
    · rw [List.foldl_cons, hwire, linkEnd_toPeer_peer]
      simp
    · rw [List.foldl_cons]
      exact congrArg (fun t : State => { t with ends := s.ends }) hrest

/-! ### The frame of a unit (R338 to R340) -/

section
variable {A c sb k : Nat}

theorem extract_low (hc : c < A) : (c + sb * A + k * (A * 256)) % A = c := by
  have he : c + sb * A + k * (A * 256) = c + A * (sb + 256 * k) := by ring
  rw [he, Nat.add_mul_mod_self_left, Nat.mod_eq_of_lt hc]

theorem extract_high (hc : c < A) : (c + sb * A + k * (A * 256)) / A = sb + 256 * k := by
  have he : c + sb * A + k * (A * 256) = c + A * (sb + 256 * k) := by ring
  rw [he, Nat.add_mul_div_left _ _ (by omega), Nat.div_eq_of_lt hc, Nat.zero_add]

theorem extract_lt (hc : c < A) (hsb : sb < 256) (hk : k < 65536) : c + sb * A + k * (A * 256) < A * 16777216 := by
  have h1 : A * (sb + 256 * k + 1) ≤ A * 16777216 := Nat.mul_le_mul_left _ (by omega)
  have he : c + sb * A + k * (A * 256) = c + A * (sb + 256 * k) := by ring
  have h3 : A * (sb + 256 * k + 1) = A * (sb + 256 * k) + A := by ring
  omega

end

/-- A unit as it is framed passes under its own number (R339, R340). -/
theorem framePasses_of {n : Nat} {c : BitVec 256} {sb : BitVec 8} {crc : BitVec 16} {f : BitVec 280} (hcrc : crc = sprueCrc (n % 512) sb c)
    (hkind : (sb.extractLsb' 6 2 != 3) = true) (hf : f = BitVec.ofNat 280 (c.toNat + sb.toNat * 2 ^ 256 + crc.toNat * 2 ^ 264)) :
    framePasses n f = true := by
  have hc := c.isLt
  have hsb : sb.toNat < 256 := sb.isLt
  have hk : crc.toNat < 65536 := crc.isLt
  have hp : (2 : Nat) ^ 264 = 2 ^ 256 * 256 := (pow_add 2 256 8).trans (congrArg (2 ^ 256 * ·) (show 2 ^ 8 = 256 from rfl))
  have hq : (2 : Nat) ^ 280 = 2 ^ 256 * 16777216 := (pow_add 2 256 24).trans (congrArg (2 ^ 256 * ·) (show 2 ^ 24 = 16777216 from rfl))
  have hnat : f.toNat = c.toNat + sb.toNat * 2 ^ 256 + crc.toNat * (2 ^ 256 * 256) := by
    rw [hf, BitVec.toNat_ofNat, hp, hq]
    exact Nat.mod_eq_of_lt (extract_lt hc hsb hk)
  have hcontent : f.extractLsb' 0 256 = c := BitVec.eq_of_toNat_eq (by
    rw [BitVec.extractLsb'_toNat, hnat, Nat.shiftRight_zero]
    exact extract_low hc)
  have hside : f.extractLsb' 256 8 = sb := BitVec.eq_of_toNat_eq (by
    rw [BitVec.extractLsb'_toNat, hnat, Nat.shiftRight_eq_div_pow, extract_high hc]
    omega)
  have hcheck : f.extractLsb' 264 16 = crc := BitVec.eq_of_toNat_eq (by
    rw [BitVec.extractLsb'_toNat, hnat, Nat.shiftRight_eq_div_pow, hp, ← Nat.div_div_eq_div_mul, extract_high hc]
    omega)
  unfold framePasses
  dsimp only
  rw [hcontent, hside, hcheck, hcrc, hkind]
  simp

/-- KIND of a DATA unit is 0b01. -/
theorem sideband_kind (u : RUnit) : ((sideband u).extractLsb' 6 2 != 3) = true := by
  obtain ⟨x, hx⟩ : ∃ x, (if u.idx = 0 then 8 else 0) = x ∧ (x = 8 ∨ x = 0) := ⟨_, rfl, by split <;> simp⟩
  unfold sideband
  rw [hx.1]
  obtain rfl | rfl := hx.2 <;> cases u.pkt.cls <;> rfl

theorem framePasses_frameOf (pkg : Nat) (u : RUnit) : framePasses u.seq (frameOf pkg u ^^^ 0) = true :=
  framePasses_of rfl (sideband_kind u) (BitVec.xor_zero)

/-! ### Acts of one end -/

/-- From s to t only the ends of links changed. -/
def EndsOnly (s t : State) : Prop := { t with ends := s.ends } = s

section
variable {s t u : State} {n : EndId}

theorem EndsOnly.trans (h1 : EndsOnly s t) (h2 : EndsOnly t u) : EndsOnly s u := by
  unfold EndsOnly at *
  rw [← h1, ← h2]

theorem endsOnly_setEnd (s : State) (n : Nat) (x : LinkEnd) : EndsOnly s (setEnd s n x) := rfl

theorem endsOnly_toPeer (s : State) (n : Nat) (u : WUnit) : EndsOnly s (toPeer s n u) := rfl

theorem EndsOnly.net (h : EndsOnly s t) : t.net = s.net := by rw [← h]

theorem EndsOnly.regs (h : EndsOnly s t) : t.regs = s.regs := by rw [← h]

theorem EndsOnly.lsState (h : EndsOnly s t) (n : Nat) : Machine.lsState t n = Machine.lsState s n := by
  have hread : Machine.lsState t n = Machine.lsState { t with ends := s.ends } n := rfl
  rw [hread, h]

/-- What an end that acts by itself and sends one unit leaves. -/
theorem act_sends {x : LinkEnd} {w : WUnit} (ht : t = toPeer (setEnd s n x) n w) :
    linkEnd t n = x ∧ (linkEnd t (peerEnd n)).wire = (linkEnd s (peerEnd n)).wire ++ [w] ∧ EndsOnly s t ∧
    ∀ m, m ≠ n.val → m ≠ peerEnd n → linkEnd t m = linkEnd s m := by
  have hne := peerEnd_ne n
  have hn : linkEnd t n = x := by rw [ht, linkEnd_toPeer_ne hne.symm, linkEnd_setEnd_same]
  have hp : (linkEnd t (peerEnd n)).wire = (linkEnd s (peerEnd n)).wire ++ [w] := by rw [ht, linkEnd_toPeer_peer, linkEnd_setEnd_ne hne]
  have he : EndsOnly s t := by
    rw [ht]
    exact (endsOnly_setEnd ..).trans (endsOnly_toPeer ..)
  exact ⟨hn, hp, he, fun m h1 h2 => by rw [ht, linkEnd_toPeer_ne h2, linkEnd_setEnd_ne h1]⟩

/-- The end sends its next unit (R342). -/
theorem dataSend_sends {p : Packet} {ps : List Packet} (hactive : Machine.lsState s n = 5) (hnext : nextTx (linkEnd s n) = some (p, ps))
    (hroom : (linkEnd s n).riser.length < 256) : ∃ u : RUnit, ∃ x : LinkEnd, dataSend s n true = toPeer (setEnd s n x) n (.data u) ∧
      u = ⟨(linkEnd s n).txSeq, p, (linkEnd s n).txIdx, decide ((linkEnd s n).txIdx = pktLen p)⟩ ∧
      x.riser = (linkEnd s n).riser ++ [u] ∧ x.txSeq = ((linkEnd s n).txSeq + 1) % 512 ∧
      x.txq = (if u.last then ps else p :: ps) ∧ x.txIdx = (if u.last then 0 else (linkEnd s n).txIdx + 1) := by
  unfold dataSend
  dsimp only
  rw [hnext]
  dsimp only
  rw [if_neg (by omega)]
  exact ⟨_, _, rfl, rfl, rfl, rfl, rfl, rfl⟩

/-- A unit that passes its check under the number expected is accepted and acknowledged (R343). -/
theorem dataReceive_accepts {u : RUnit} {ws : List WUnit} (hactive : Machine.lsState s n = 5) (htake : takeData (linkEnd s n).wire = some (u, ws))
    (hseq : u.seq = (linkEnd s n).rxNext) : ∃ v, dataReceive s n 0 =
      (if u.last then landAt v { u.pkt with via := n + 1 } (endStop (peerEnd n)) (endStop n) else v) ∧ EndsOnly s v ∧
      (linkEnd v n).wire = ws ∧ (linkEnd v n).rxNext = ((linkEnd s n).rxNext + 1) % 512 ∧
      (linkEnd v (peerEnd n)).wire = (linkEnd s (peerEnd n)).wire ++ [.ack u.seq] := by
  have hpass : framePasses (linkEnd s n).rxNext (frameOf s.pkg u ^^^ 0) = true := hseq ▸ framePasses_frameOf ..
  obtain ⟨w, hw⟩ : ∃ w, w = setEnd s n { linkEnd s n with wire := ws } := ⟨_, rfl⟩
  have hwn : linkEnd w n = { linkEnd s n with wire := ws } := by rw [hw, linkEnd_setEnd_same]
  have hwp : linkEnd w (peerEnd n) = linkEnd s (peerEnd n) := by rw [hw, linkEnd_setEnd_ne (peerEnd_ne n)]
  have hwe : EndsOnly s w := by rw [hw]; rfl
  obtain ⟨x, hx, hx1, hx2⟩ : ∃ x, dataReceive s n 0 =
      (if u.last then landAt (toPeer (setEnd w n x) n (.ack u.seq)) { u.pkt with via := n + 1 } (endStop (peerEnd n)) (endStop n)
       else toPeer (setEnd w n x) n (.ack u.seq)) ∧ x.wire = ws ∧ x.rxNext = ((linkEnd s n).rxNext + 1) % 512 := by
    unfold dataReceive
    dsimp only
    rw [htake]
    dsimp only
    rw [← hw, if_neg (by rw [hwe.lsState, hactive]; decide)]
    have hpkg : w.pkg = s.pkg := by rw [← hwe]
    rw [hpkg, if_pos hpass, hwn]
    exact ⟨_, rfl, rfl, rfl⟩
  obtain ⟨hn, hp, he, _⟩ := act_sends (n := n) (s := w) (x := x) (w := .ack u.seq) rfl
  exact ⟨_, hx, hwe.trans he, by rw [hn, hx1], by rw [hn, hx2], by rw [hp, hwp]⟩

/-- A unit that does not pass is asked for again (R343). -/
theorem dataReceive_asks {u : RUnit} {ws : List WUnit} {f : BitVec 280} (hactive : Machine.lsState s n = 5)
    (htake : takeData (linkEnd s n).wire = some (u, ws)) (hfail : framePasses (linkEnd s n).rxNext (frameOf s.pkg u ^^^ f) = false)
    (hnak : (linkEnd s n).nakAt = none) : let t := dataReceive s n f
      EndsOnly s t ∧ (linkEnd t n).wire = ws ∧ (linkEnd t n).rxNext = (linkEnd s n).rxNext ∧
      (linkEnd t (peerEnd n)).wire = (linkEnd s (peerEnd n)).wire ++ [.nak (linkEnd s n).rxNext] := by
  intro t
  obtain ⟨w, hw⟩ : ∃ w, w = setEnd s n { linkEnd s n with wire := ws } := ⟨_, rfl⟩
  have hwn : linkEnd w n = { linkEnd s n with wire := ws } := by rw [hw, linkEnd_setEnd_same]
  have hwp : linkEnd w (peerEnd n) = linkEnd s (peerEnd n) := by rw [hw, linkEnd_setEnd_ne (peerEnd_ne n)]
  have hwe : EndsOnly s w := by rw [hw]; rfl
  obtain ⟨x, hx, hx1, hx2⟩ : ∃ x, t = toPeer (setEnd w n x) n (.nak (linkEnd s n).rxNext) ∧ x.wire = ws ∧ x.rxNext = (linkEnd s n).rxNext := by
    change ∃ x, dataReceive s n f = _ ∧ _
    unfold dataReceive
    dsimp only
    rw [htake]
    dsimp only
    rw [← hw, if_neg (by rw [hwe.lsState, hactive]; decide)]
    have hpkg : w.pkg = s.pkg := by rw [← hwe]
    rw [hpkg, hfail, if_neg (by decide), hnak, if_pos (show (none : Option Nat).isNone = true from rfl), hwn]
    exact ⟨_, rfl, rfl, rfl⟩
  obtain ⟨hn, hp, he, _⟩ := act_sends (n := n) hx
  exact ⟨hwe.trans he, by rw [hn, hx1], by rw [hn, hx2], by rw [hp, hwp]⟩

/-- A control unit that arrives intact acts on the end without it on the wire. -/
theorem ctrlArrive_acts {f : WUnit → Bool} {w : WUnit} {ws : List WUnit} (htake : takeCtrl f (linkEnd s n).wire = some (w, ws)) :
    ctrlArrive s n f true = ctrlAct (setEnd s n { linkEnd s n with wire := ws }) n w := by
  unfold ctrlArrive
  rw [htake]
  rfl

end

/-! ### Negative acknowledgements (R343, R345) -/

/-- The resends counted against each number, one more for each of the units us. -/
def resends (us : List RUnit) (old : Tab Nat) : Tab Nat := us.foldl (fun t u => tset 0 u.seq (tget 0 u.seq old + 1) t) old

theorem foldl_resends_le {old : Tab Nat} (q : Nat) : ∀ (us : List RUnit) (t : Tab Nat), tget 0 q t ≤ tget 0 q old + 1 →
    tget 0 q (us.foldl (fun t u => tset 0 u.seq (tget 0 u.seq old + 1) t) t) ≤ tget 0 q old + 1
  | [], _, h => h
  | u :: us, t, h => by
    rw [List.foldl_cons]
    refine foldl_resends_le q us _ ?_
    by_cases hq : q = u.seq
    · rw [hq, tget_tset_same]
    · rw [tget_tset_ne hq]
      exact h

theorem resends_le (us : List RUnit) (old : Tab Nat) (q : Nat) : tget 0 q (resends us old) ≤ tget 0 q old + 1 :=
  foldl_resends_le q us old (by omega)

section
variable {s t u : State} {n : EndId}

/-- A NAK of a unit of the riser that was resent fewer than three times, the first in its window (R345). -/
theorem nakAct_resends {q : Nat} (hactive : lsState s n = 5) (hus : riserFrom (linkEnd s n) q ≠ [])
    (htries : ∀ u ∈ riserFrom (linkEnd s n) q, tget 0 u.seq (linkEnd s n).tries < 3) (hwin : (linkEnd s n).reWin.count = 0) :
    ∃ x : LinkEnd, x.riser = (linkEnd s n).riser ∧ nakAct s n q =
      (riserFrom (linkEnd s n) q).foldl (fun s u => toPeer s n (.data u)) (setEnd (incRgF s (lnReg n).1 (lnReg n).2 63 32) n x) := by
  obtain ⟨us, heq⟩ : ∃ us, us = riserFrom (linkEnd s n) q := ⟨_, rfl⟩
  rw [← heq] at hus htries ⊢
  have hempty : ¬(us.isEmpty = true ∨ lsState s n ≠ 5) := fun h => h.elim (fun h => hus (List.isEmpty_iff.mp h)) (· hactive)
  have hany : us.any (fun u => decide (tget 0 u.seq (resends us (linkEnd s n).tries) ≥ 4)) = false := by
    refine List.any_eq_false.mpr fun u hu => ?_
    have h1 := htries u hu
    have h2 := resends_le us (linkEnd s n).tries u.seq
    simp only [ge_iff_le, decide_eq_true_eq, not_le]
    omega
  refine ⟨{ linkEnd s n with tries := resends us (linkEnd s n).tries, reWin := ⟨1, now s⟩ }, rfl, ?_⟩
  unfold nakAct
  dsimp only
  rw [← heq, if_neg hempty, hwin, if_pos (show 0 = 0 ∨ now (incRgF s (lnReg n).1 (lnReg n).2 63 32) ≥ (linkEnd s n).reWin.opened + 1000000 from .inl rfl)]
  refine if_neg ?_
  rintro (h | h)
  · rw [resends] at hany
    rw [hany] at h
    cases h
  · exact absurd h (show ¬(1 ≥ 64) by decide)

theorem lnReg_ne_lsReg (n m : Nat) : (lnReg n).1 ≠ (lsReg m).1 := by
  unfold lnReg lsReg
  split_ifs <;> simp

theorem lnReg_lt (n : EndId) : (lnReg n).2 < 2 ^ 32 := by
  unfold lnReg
  split <;> dsimp only <;> omega

theorem lsReg_lt (n : EndId) : (lsReg n).2 < 2 ^ 32 := by
  unfold lsReg
  split <;> dsimp only <;> omega

/-- A count of a link's LINKCNT leaves the states of the ends. -/
theorem lsState_incRgF_lnReg (s : State) (n m : EndId) (hi lo : Nat) : lsState (incRgF s (lnReg n).1 (lnReg n).2 hi lo) m = lsState s m :=
  rgF_setRgF_name (lnReg_ne_lsReg n m).symm (lnReg_lt n) (lsReg_lt m)

end

theorem stopDom_lt {st : StopId} {d : Nat} (h : stopDom st = some d) : d < 2 ^ 32 := by
  unfold stopDom at h
  split_ifs at h <;> cases h <;> omega

/-- A packet that reaches a stop leaves the ends of the links. -/
theorem meetIngress_ends (s : State) (p : Packet) : (meetIngress s p).2.ends = s.ends := by
  have hset : ∀ (u : State) (d x : Nat), (setDom u d x).ends = u.ends := fun u d x => by
    unfold setDom
    dsimp only
    split <;> rfl
  unfold meetIngress
  dsimp only
  split
  · rfl
  · rename_i d hd
    have hlt : d < 2 ^ 32 := by
      split at hd
      · cases hd
      · exact stopDom_lt hd
    split_ifs
    · rfl
    · have hkept := congrArg State.ends (domOnly_abortClose hlt s).rest
      exact hkept
    · rfl
    · exact hset ..

theorem landAt_ends (s : State) (p : Packet) (cur next : StopId) : (landAt s p cur next).ends = s.ends := by
  unfold landAt
  dsimp only
  split
  · rfl
  · have hends := meetIngress_ends s { p with at_ := some next, inp := some cur, since := now s }
    split <;> rename_i he <;> rw [he] at hends <;> exact hends

/-- Settles O34: units, acknowledgements and credits of a Sprue link. -/
theorem sprueTransfer : Obligations.SprueTransfer := by
  intro n s hactive e o
  have hne := peerEnd_ne n
  refine ⟨fun p ps hnext hroom => ?_, fun u ws htake hseq => ?_, fun u ws f htake hfail hnak => ?_, fun q ws u us htake hriser => ?_,
    fun q ws htake hriser htries hwin => ?_, fun g h q b ws htake => ?_, ?_, fun t0 hnak hdue => ?_⟩
  · obtain ⟨u, x, hsend, hu, hriser, hseq, htxq, hidx⟩ := dataSend_sends hactive hnext hroom
    obtain ⟨hn, hp, he, hothers⟩ := act_sends (n := n) hsend
    refine ⟨_, u, rfl, by rw [hu], by rw [hu], by rw [hu], by rw [hu], by rw [hn, hriser], by rw [hn, hseq], hp, fun hl => ?_, fun hl => ?_, he.net, hothers⟩
    · rw [hn, htxq, hidx, hl]
      exact ⟨rfl, rfl⟩
    · rw [hn, htxq, hidx, hl]
      exact ⟨rfl, rfl⟩
  · obtain ⟨v, hv, he, hwire, hnext, hpeer⟩ := dataReceive_accepts hactive htake hseq
    have hends : ∀ p : Packet, p.dst ≠ endStop n → landAt v p (endStop (peerEnd n)) (endStop n) =
        { v with net := v.net ++ [{ p with at_ := some (endStop n), inp := some (endStop (peerEnd n)), since := now v }] } := fun p hp => if_pos hp
    have hland : ∀ t, t = landAt v { u.pkt with via := n + 1 } (endStop (peerEnd n)) (endStop n) → t.ends = v.ends := fun t ht => by
      rw [ht]
      exact landAt_ends ..
    have hkept : ∀ t, t = dataReceive s n 0 → t.ends = v.ends := fun t ht => by
      rw [hv] at ht
      cases hl : u.last <;> rw [hl] at ht
      · exact congrArg State.ends ht
      · exact hland t ht
    have hend : ∀ m, linkEnd (dataReceive s n 0) m = linkEnd v m := fun m => by
      rw [linkEnd, hkept _ rfl]
      rfl
    refine ⟨_, rfl, by rw [hend, hwire], by rw [hend, hnext], by rw [hend, hpeer], fun hl => ?_, fun hl hdst => ?_⟩
    · rw [hv, hl]
      exact he.net
    · have hnow : now v = s.ptime.toNat := by rw [now, ← he]
      rw [hv, hl, if_pos rfl, hends { u.pkt with via := n + 1 } hdst, he.net, hnow]
  · obtain ⟨he, hwire, hnext, hpeer⟩ := dataReceive_asks hactive htake hfail hnak
    exact ⟨_, rfl, hwire, hnext, hpeer, he.net⟩
  · obtain ⟨w, hw⟩ : ∃ w, w = setEnd s n { linkEnd s n with wire := ws } := ⟨_, rfl⟩
    have hwn : linkEnd w n = { linkEnd s n with wire := ws } := by rw [hw, linkEnd_setEnd_same]
    have hwe : EndsOnly s w := hw ▸ endsOnly_setEnd ..
    obtain ⟨x, hx, hx1, hx2⟩ : ∃ x, ctrlArrive s n isAck true = setEnd w n x ∧ x.riser = us ∧ x.wire = ws := by
      rw [ctrlArrive_acts htake, ← hw]
      unfold ctrlAct
      dsimp only
      have hus : riserFrom (linkEnd w n) q = u :: us := by rw [hwn]; exact hriser
      rw [if_neg (by rw [hwe.lsState, hactive]; decide), hus, hwn]
      exact ⟨_, rfl, rfl, rfl⟩
    have hend := hwe.trans (endsOnly_setEnd w n x)
    refine ⟨_, rfl, ?_⟩
    rw [hx]
    exact ⟨by rw [linkEnd_setEnd_same, hx1], by rw [linkEnd_setEnd_same, hx2], hend.net, hend.regs, fun m hm => by
      rw [linkEnd_setEnd_ne hm, hw, linkEnd_setEnd_ne hm]⟩
  · obtain ⟨w, hw⟩ : ∃ w, w = setEnd s n { linkEnd s n with wire := ws } := ⟨_, rfl⟩
    have hwn : linkEnd w n = { linkEnd s n with wire := ws } := by rw [hw, linkEnd_setEnd_same]
    have hwp : linkEnd w (peerEnd n) = linkEnd s (peerEnd n) := by rw [hw, linkEnd_setEnd_ne hne]
    have hwe : EndsOnly s w := hw ▸ endsOnly_setEnd ..
    have hus : riserFrom (linkEnd w n) q = riserFrom (linkEnd s n) q := by rw [hwn]; rfl
    obtain ⟨x, hx, hact⟩ := nakAct_resends (s := w) (n := n) (q := q) ((hwe.lsState n).trans hactive) (by rw [hus]; exact hriser)
      (by rw [hus, hwn]; exact htries) (by rw [hwn]; exact hwin)
    obtain ⟨v, hv⟩ : ∃ v, v = setEnd (incRgF w (lnReg n).1 (lnReg n).2 63 32) n x := ⟨_, rfl⟩
    obtain ⟨hwire, hothers, hrest⟩ := foldl_toPeer (n := n) (riserFrom (linkEnd w n) q) v
    have hrun : ctrlArrive s n isNak true = (riserFrom (linkEnd w n) q).foldl (fun s u => toPeer s n (.data u)) v := by
      rw [ctrlArrive_acts htake, ← hw, hv, ← hact]
      exact if_neg (by rw [hwe.lsState, hactive]; decide)
    rw [← hrun] at hwire hothers hrest
    obtain ⟨t, ht⟩ : ∃ t, ctrlArrive s n isNak true = t := ⟨_, rfl⟩
    rw [ht] at hwire hothers hrest
    have hend : EndsOnly v t := hrest
    have hvp : linkEnd v (peerEnd n) = linkEnd s (peerEnd n) := by
      rw [hv, linkEnd_setEnd_ne hne]
      exact hwp
    have hvn : linkEnd v n = x := by rw [hv, linkEnd_setEnd_same]
    have hregs : t.regs = (incRgF w (lnReg n).1 (lnReg n).2 63 32).regs := by
      rw [hend.regs, hv]
      rfl
    have hrg : ∀ r i hi lo, rgF t r i hi lo = rgF (incRgF w (lnReg n).1 (lnReg n).2 63 32) r i hi lo := fun r i hi lo =>
      congrArg (fun (regs : Tab Word) => rgF { t with regs := regs } r i hi lo) hregs
    have hwreg : w.regs = s.regs := hwe.regs
    refine ⟨t, congrArg ok ht, by rw [hwire, hvp, hus], by rw [hothers n hne.symm, hvn, hx, hwn], ?_, ?_, ?_⟩
    · rw [lsState, lsF, hrg]
      exact (lsState_incRgF_lnReg w n n 63 32).trans ((hwe.lsState n).trans hactive)
    · rw [hrg, rgF_incRgF_same (by decide) (by decide)]
      exact congrArg (fun (regs : Tab Word) => min (rgF { s with regs := regs } (lnReg n).1 (lnReg n).2 63 32 + 1) (2 ^ 32 - 1)) hwreg
    · rw [hend.net, hv]
      exact hwe.net
  · obtain ⟨w, hw⟩ : ∃ w, w = setEnd s n { linkEnd s n with wire := ws } := ⟨_, rfl⟩
    have hwn : linkEnd w n = { linkEnd s n with wire := ws } := by rw [hw, linkEnd_setEnd_same]
    have hwe : EndsOnly s w := hw ▸ endsOnly_setEnd ..
    obtain ⟨x, hx, hx1, hx2⟩ : ∃ x, ctrlArrive s n isCredit true = setEnd w n x ∧
        x.peerFreed = tset 0 0 g (tset 0 1 h (tset 0 2 q (tset 0 3 b e.peerFreed))) ∧ x.wire = ws := by
      rw [ctrlArrive_acts htake, ← hw]
      unfold ctrlAct
      dsimp only
      rw [if_neg (by rw [hwe.lsState, hactive]; decide), hwn]
      exact ⟨_, rfl, rfl, rfl⟩
    have hend := hwe.trans (endsOnly_setEnd w n x)
    refine ⟨_, rfl, ?_⟩
    rw [hx, linkEnd_setEnd_same, hx1, hx2]
    refine ⟨tget_tset_same _, ?_, ?_, ?_, rfl, hend.net, hend.regs⟩
    · rw [tget_tset_ne (by decide), tget_tset_same]
    · rw [tget_tset_ne (by decide), tget_tset_ne (by decide), tget_tset_same]
    · rw [tget_tset_ne (by decide), tget_tset_ne (by decide), tget_tset_ne (by decide), tget_tset_same]
  · have hrun : creditRefresh s n = toPeer (setEnd s n { linkEnd s n with credAt := now s }) n
        (.credit (freedCount s n .g) (freedCount s n .h) (freedCount s n .q) (freedCount s n .b)) := if_pos hactive
    obtain ⟨_, hp, he, _⟩ := act_sends (n := n) hrun
    exact ⟨_, rfl, hp, he.net, he.regs⟩
  · have hrun : nakRepeat s n = toPeer (setEnd s n { linkEnd s n with nakAt := some (now s) }) n (.nak (linkEnd s n).rxNext) := by
      unfold nakRepeat
      dsimp only
      rw [show (linkEnd s n).nakAt = some t0 from hnak]
      exact if_pos ⟨hactive, hdue⟩
    obtain ⟨hn, hp, he, _⟩ := act_sends (n := n) hrun
    exact ⟨_, rfl, hp, by rw [hn], he.net, he.regs⟩

end Sys2Proof.Machine
end

section
/-! PROOFS. Reset commands (chapter 20): the start of a reset aborts a power-down under way. -/
namespace Sys2Proof.Machine

open Sys2Proof

theorem setDom_pw (s : State) (d x : Nat) : (setDom s d x).pw = s.pw := by
  unfold setDom
  cases domStop d <;> rfl

/-- A domain command under way on a domain that is opened again ends with it (R331, R547). -/
theorem abortClose_ends {s : State} {d x : Nat} (h : s.pw.dom = some (d, x)) : (abortClose s d).pw.dom = none := by
  unfold abortClose
  cases domStop d <;> simp [setDom_pw, h, incFab, incRgF, setRgF, setRg]

theorem abortClose_dom_none {s : State} (h : s.pw.dom = none) (d : Nat) : (abortClose s d).pw.dom = none := by
  unfold abortClose
  cases domStop d <;> simp [setDom_pw, h, incFab, incRgF, setRgF, setRg]

theorem wakeDom_dom_none {s : State} (h : s.pw.dom = none) (d : Nat) : (wakeDom s d).pw.dom = none := by
  unfold wakeDom
  split
  · cases domStop d with
    | none => exact h
    | some st =>
      dsimp only
      split
      · exact abortClose_dom_none h d
      · exact h
  · split
    · rw [setDom_pw, h]
    · exact h

/-- What a core in scope meets when its reset starts (R165, R619). -/
def resetBegins (kind : Nat) (s : State) (c : Nat) : State :=
  setCore (wakeDom s c) c { getCore s c with inReset := true, waiting := false, drainFrom := some (now s), rstKind := kind }

theorem foldl_resetBegins_dom_none (kind : Nat) (l : List Nat) {s : State} (h : s.pw.dom = none) : (l.foldl (resetBegins kind) s).pw.dom = none := by
  induction l generalizing s with
  | nil => exact h
  | cons c l ih => exact ih (wakeDom_dom_none h c)

theorem rstStart_pw (s : State) (sc : RstScope) (last : Nat) :
    (rstStart s sc last).pw = ((scopeCores sc).foldl (resetBegins (scopeKind sc)) s).pw := rfl

theorem scopeCores_warm : scopeCores .warm = 0 :: List.range' 1 239 := List.range_eq_range'

/-- A warm reset ends the domain command under way on core 0 while its domain closes. -/
theorem rstStart_warm_ends {s : State} {x : Nat} (hdom : s.pw.dom = some (0, x)) (hclosing : domState s 0 = 4) (hing : ingress s ⟨0, 0⟩ = 1) (last : Nat) :
    (rstStart s .warm last).pw.dom = none := by
  have hwake : (resetBegins (scopeKind .warm) s 0).pw.dom = none := by
    change (wakeDom s 0).pw.dom = none
    rw [wakeDom, if_pos hclosing, show domStop 0 = some ⟨0, 0⟩ from rfl]
    dsimp only
    rw [if_pos hing]
    exact abortClose_ends hdom
  rw [rstStart_pw, scopeCores_warm, List.foldl_cons]
  exact foldl_resetBegins_dom_none _ _ hwake

/-- The domain of core 0 is closing for an OFF command. -/
def closingCore : State :=
  setRgF (setRgF { State.reset with pw := { State.reset.pw with dom := some (0, 3) } } .dstate 0 2 0 4) .fstop 0 9 8 1

theorem closingCore_idle : rgF closingCore .rststat 0 7 0 ≠ 1 := by
  rw [closingCore, rgF_setRgF_name (by simp) (by decide) (by decide), rgF_setRgF_name (by simp) (by decide) (by decide)]
  decide

theorem closingCore_closing : ingress closingCore ⟨0, 0⟩ = 1 :=
  (rgF_setRgF_same (hi := 9) (lo := 8) _ .fstop 0 _ (by decide) (by decide)).trans rfl

/-- A command of RSTCMD that is taken is noted (R624). -/
def rstTaken (s : State) (op t u : Nat) : State :=
  let s := setRgF (setRgF s .rstcmd 0 23 16 t) .rstcmd 0 3 0 op
  setRgF { s with rs := { s.rs with op := (op, u) } } .rststat 0 7 0 1

theorem rstTaken_pw (s : State) (op t u : Nat) : (rstTaken s op t u).pw = s.pw := rfl

theorem rgF_rstTaken {r : RegName} (h1 : r ≠ .rststat) (h2 : r ≠ .rstcmd) (s : State) (op t u hi lo : Nat) :
    rgF (rstTaken s op t u) r 0 hi lo = rgF s r 0 hi lo := by
  rw [rstTaken, rgF_setRgF_name h1 (by decide) (by decide)]
  change rgF (setRgF (setRgF s .rstcmd 0 23 16 t) .rstcmd 0 3 0 op) r 0 hi lo = _
  rw [rgF_setRgF_name h2 (by decide) (by decide), rgF_setRgF_name h2 (by decide) (by decide)]

/-- What WARM does when it is taken: the command is noted and the reset starts (R619, R624). -/
theorem execWarm_starts {b : By} {s : State} (hidle : rgF s .rststat 0 7 0 ≠ 1) (hsec : bySec b = true) :
    exec (.warm b) s = .next (rstStart (rstTaken s 1 0 0) .warm 2) := by
  refine congrArg ok ?_
  rw [rstGo, if_neg hidle, if_neg (by decide)]
  dsimp only
  rw [if_neg (by simp [rstNames]), if_neg (by simp [hsec]), if_neg (by decide), rstAct, if_pos rfl]
  rfl

/-- Refutes O55: a warm reset that starts while core 0's domain closes for a domain command aborts that command (R331, R547), so that the
domain command under way is gone, while the statement lets nothing but the cores, the set-up registers and the reset's own state change. -/
theorem not_resetCommandsAndSteps : ¬ Obligations.ResetCommandsAndSteps := by
  rintro ⟨hcmd, _⟩
  have hwarm := ((hcmd (.dap true) 0 closingCore).2 closingCore_idle).1 (.inl rfl)
  obtain ⟨⟨t, ht, _, honly, _⟩, _⟩ := hwarm
  rw [execWarm_starts closingCore_idle rfl] at ht
  have hclosing : domState (rstTaken closingCore 1 0 0) 0 = 4 := by
    refine (rgF_rstTaken (by simp) (by simp) ..).trans ?_
    rw [closingCore, rgF_setRgF_name (by simp) (by decide) (by decide), rgF_setRgF_same _ _ _ _ _ _ (by decide) (by decide)]
    rfl
  have hing : ingress (rstTaken closingCore 1 0 0) ⟨0, 0⟩ = 1 :=
    (rgF_rstTaken (r := .fstop) (by simp) (by simp) ..).trans closingCore_closing
  have hend : t.pw.dom = none := by
    rw [← Host.Outcome.next.inj ht]
    exact rstStart_warm_ends (x := 3) (congrArg PowerSt.dom (rstTaken_pw ..)) hclosing hing 2
  have hkept : t.pw = closingCore.pw := by
    have := congrArg State.pw honly
    exact this
  rw [hkept] at hend
  exact absurd hend nofun

end Sys2Proof.Machine
end

section
/-! PROOFS. The pins (chapters 1 and 20): what a cold reset leaves, RESET_N, the time base. -/
namespace Sys2Proof.Machine

open Sys2Proof

/-! ### A cold reset (R39, R40) -/

theorem applyFuses_regs (s : State) (cold : Bool) : { applyFuses s cold with regs := s.regs } = s := by
  unfold applyFuses
  refine List.foldlRecOn (motive := fun t : State => { t with regs := s.regs } = s) _ _ rfl fun t ht p _ => ?_
  dsimp only
  split
  · exact ht
  · split <;> exact ht

/-- What a cold reset leaves of the memories, the cores and the time, and what it keeps. -/
structure Cold (s t : State) : Prop where
  emptied : t.dram = [] ∧ t.cores = [] ∧ t.lines = [] ∧ t.keys = [] ∧ t.net = [] ∧ t.shares = []
  kept : t.hlog = s.hlog ∧ t.coreFuse = s.coreFuse ∧ t.flash = s.flash
  time : t.ptime = 0 ∧ t.tbMode = 0
  idle : t.rs.run = none ∧ t.mp.boot = 0
  supply : t.vin = s.vin ∧ t.vstby = s.vstby

theorem Cold.of_regs {s t u : State} (h : Cold s u) (ht : { t with regs := u.regs } = u) : Cold s t := by
  rw [← ht] at h
  obtain ⟨h1, h2, h3, h4, h5⟩ := h
  exact ⟨h1, h2, h3, h4, h5⟩

theorem coldState_fused (s : State) : ∃ u, coldState s = applyFuses u true ∧ Cold s u ∧ u.resetN = true ∧ u.rs.coldPend = false ∧ u.rs.pwrgood = true :=
  ⟨_, rfl, ⟨⟨rfl, rfl, rfl, rfl, rfl, rfl⟩, ⟨rfl, rfl, rfl⟩, ⟨rfl, rfl⟩, ⟨rfl, rfl⟩, rfl, rfl⟩, rfl, rfl, rfl⟩

theorem coldState_cold (s : State) : Cold s (coldState s) := by
  obtain ⟨u, hu, hcold, _⟩ := coldState_fused s
  exact hu ▸ hcold.of_regs (applyFuses_regs u true)

theorem coldState_on (s : State) : (coldState s).resetN = true ∧ (coldState s).rs.coldPend = false ∧ (coldState s).rs.pwrgood = true := by
  obtain ⟨u, hu, _, hon⟩ := coldState_fused s
  have hregs := applyFuses_regs u true
  rw [← hregs] at hon
  exact hu ▸ hon

/-! ### A warm package reset (R652) -/

/-- A core that a reset which starts now has met. -/
def Met (s t : State) (x : Nat) : Prop := (getCore t x).inReset = true ∧ (getCore t x).drainFrom = some (now s)

/-- The start of a reset so far: the cores of `l` have met it, and nothing but cores and domains has changed. -/
structure Begun (s t : State) (l : List Nat) : Prop where
  rest : { t with cores := s.cores, regs := s.regs, pw := s.pw } = s
  met : ∀ x ∈ l, Met s t x
  regs : (∀ x, x < 240 → domState s x = 0 ∨ domState s x = 3) → t.regs = s.regs

theorem wakeDom_awake {s : State} {d : Nat} (h : domState s d = 0 ∨ domState s d = 3) : wakeDom s d = s := by
  rw [wakeDom, if_neg (by omega), if_neg (by omega)]

theorem DomOnly.cores {s t : State} (h : DomOnly s t) : t.cores = s.cores := by rw [← h.rest]

theorem Begun.step {s t : State} {l : List Nat} (h : Begun s t l) (kind : Nat) {c : Nat} (hc : c < 240) : Begun s (resetBegins kind t c) (c :: l) := by
  obtain ⟨hrest, hmet, hregs⟩ := h
  have hwake := domOnly_wakeDom (d := c) (by omega) t
  obtain ⟨w, hw⟩ : ∃ w, wakeDom t c = w := ⟨_, rfl⟩
  have hcores : w.cores = t.cores := hw ▸ hwake.cores
  have hnow : now t = now s := by
    have := congrArg State.ptime hrest
    exact congrArg BitVec.toNat this
  unfold resetBegins
  rw [hw] at hwake ⊢
  refine ⟨?_, fun x hx => ?_, fun hdom => ?_⟩
  · rw [← hrest, ← hwake.rest]
    rfl
  · by_cases hxc : x = c
    · subst hxc
      simp [Met, hnow]
    · have hx' : x ∈ l := by simpa [hxc] using hx
      have hsame : getCore (setCore w c { getCore t c with inReset := true, waiting := false, drainFrom := some (now t), rstKind := kind }) x = getCore t x := by
        rw [core_setCore_ne hxc]
        exact congrArg (fun cs => getCore { t with cores := cs } x) hcores
      unfold Met
      rw [hsame]
      exact hmet x hx'
  · have hsame := hregs hdom
    have hdomt : domState t c = domState s c := congrArg (fun rs => domState { s with regs := rs } c) hsame
    have : w = t := by rw [← hw, wakeDom_awake (hdomt ▸ hdom c hc)]
    rw [this]
    exact hsame

theorem Begun.foldl {s : State} (kind : Nat) : ∀ (cs : List Nat) {t : State} {l : List Nat}, Begun s t l → (∀ c ∈ cs, c < 240) →
    Begun s (cs.foldl (resetBegins kind) t) (cs.reverse ++ l)
  | [], _, _, h, _ => h
  | c :: cs, t, l, h, hlt => by
    have := (h.step kind (hlt c List.mem_cons_self)).foldl kind cs fun x hx => hlt x (List.mem_cons_of_mem _ hx)
    simpa using this

/-- The start of a reset. -/
def begun (s : State) (sc : RstScope) : State := (scopeCores sc).foldl (resetBegins (scopeKind sc)) s

theorem rstStart_begun (s : State) (sc : RstScope) (last : Nat) :
    rstStart s sc last = { begun s sc with rs := { (begun s sc).rs with run := some ⟨sc, last, 0⟩ } } := rfl

/-- What the start of a reset leaves. -/
theorem begun_spec {sc : RstScope} (h : ∀ c ∈ scopeCores sc, c < 240) (s : State) : Begun s (begun s sc) (scopeCores sc).reverse := by
  have h := Begun.foldl (scopeKind sc) (scopeCores sc) (t := s) (l := []) ⟨rfl, nofun, fun _ => rfl⟩ h
  rwa [List.append_nil] at h

theorem begun_warm (s : State) : Begun s (begun s .warm) (List.range 240).reverse :=
  begun_spec (sc := .warm) (fun _ hc => List.mem_range.mp hc) s

/-! ### The straps (R622) -/

/-- STRAPSTAT as RESET_N's rise samples it, CASCSTAT with it. -/
def strapped (u : State) (casc src : Nat) : State :=
  setRgF (setRg u .strapstat 0 (BitVec.ofNat 64 (casc + src * 4 + (if src = 3 then 0x80 else 0)))) .cascstat 0 1 0 casc

theorem rgF_strapped (u : State) (casc src hi lo : Nat) :
    rgF (strapped u casc src) .strapstat 0 hi lo = fld (BitVec.ofNat 64 (casc + src * 4 + (if src = 3 then 0x80 else 0))) hi lo := by
  rw [strapped, rgF_setRgF_name (by simp) (by decide) (by decide), rgF, rg_setRg_same]

theorem strap_casc (casc src : BitVec 2) (u : State) : rgF (strapped u casc.toNat src.toNat) .strapstat 0 1 0 = casc.toNat := by
  rw [rgF_strapped]
  revert casc src
  decide

theorem strap_src (casc src : BitVec 2) (u : State) : rgF (strapped u casc.toNat src.toNat) .strapstat 0 3 2 = src.toNat := by
  rw [rgF_strapped]
  revert casc src
  decide

/-! ### The obligation -/

/-- Settles O56: a cold reset is `coldState_cold`, the start of a warm one `rstStart_warm`. -/
theorem powerAndResetPins : Obligations.PowerAndResetPins := by
  unfold Obligations.PowerAndResetPins
  intro casc src w s
  dsimp only
  refine ⟨fun hp => ⟨s, if_pos hp, rfl⟩, fun hp => ?_, ?_, fun hp hr ht => ?_, fun hor => ?_, fun hor => ?_, fun hp hr ht => ⟨fun hc => ?_, fun hc => ?_⟩,
    fun hm hp hk => ?_, fun hor => ?_⟩
  · have hcold := coldState_cold { s with vstby := w, vin := true }
    refine ⟨_, if_neg (by simp [hp]), ?_⟩
    generalize coldState _ = u at hcold
    obtain ⟨⟨h1, h2, h3, h4, h5, h6⟩, ⟨h7, h8, h9⟩, ⟨h10, h11⟩, ⟨h12, h13⟩, hvin, hvstby⟩ := hcold
    exact ⟨⟨h1, h2, h3, h4, h5, h6, h7, h8, h9, h10, h11, h12, h13⟩, rfl, rfl, rfl, hvstby, hvin⟩
  · have hcold := coldState_cold { s with vin := w }
    refine ⟨_, rfl, ?_⟩
    generalize coldState _ = u at hcold
    obtain ⟨⟨h1, h2, h3, h4, h5, h6⟩, ⟨h7, h8, h9⟩, ⟨h10, h11⟩, ⟨h12, h13⟩, hvin, hvstby⟩ := hcold
    exact ⟨⟨h1, h2, h3, h4, h5, h6, h7, h8, h9, h10, h11, h12, h13⟩, rfl, rfl, rfl, hvin, hvstby⟩
  · refine ⟨_, congrArg ok (if_neg (by simp [hp, hr, ht])), ?_⟩
    obtain ⟨hrest, hmet, hregs⟩ := begun_warm { s with resetN := false }
    rw [rstStart_begun]
    generalize begun _ _ = u at hrest hmet hregs
    have hdram := congrArg State.dram hrest
    have hreset := congrArg State.resetN hrest
    exact ⟨hreset, rfl, hdram, hregs, fun x hx => hmet x (by simpa using hx)⟩
  · refine ⟨s, congrArg ok (if_pos ?_), rfl⟩
    rcases hor with h | h | h <;> simp [h]
  · refine ⟨s, congrArg ok (if_pos ?_), rfl⟩
    rcases hor with h | h | h <;> simp [h]
  · have hcold := coldState_cold s
    have hon := coldState_on s
    refine ⟨_, congrArg ok ((if_neg (by simp [hp, hr, ht])).trans (if_pos hc)), ?_⟩
    generalize coldState s = u at hcold hon
    obtain ⟨⟨h1, h2, h3, h4, h5, h6⟩, ⟨h7, h8, h9⟩, ⟨h10, h11⟩, ⟨h12, h13⟩, _⟩ := hcold
    obtain ⟨hreset, hpend, hpwr⟩ := hon
    refine ⟨⟨h1, h2, h3, h4, h5, h6, h7, h8, h9, h10, h11, h12, h13⟩, hreset, hpend, hpwr, rfl, ?_, ?_⟩
    · exact strap_casc casc src u
    · exact strap_src casc src u
  · exact ⟨_, congrArg ok ((if_neg (by simp [hp, hr, ht])).trans (if_neg (by simp [hc]))), rfl⟩
  · have hrun : rgF s .pkgstat 0 10 8 ≠ 4 ∧ rgF s .pkgstat 0 10 8 ≠ 5 := by
      unfold pkgState at hk
      exact ⟨by omega, by omega⟩
    refine ⟨raiseSrc { s with tbMode := 1 } 925, congrArg ok (if_pos ⟨hm, hp, hrun⟩), rfl, rfl, ?_, ?_⟩
    · exact (setPend_spec (r := .intsrc) (i := 925) (by decide) _).1
    · exact (setPend_spec (r := .intsrc) (i := 925) (by decide) { s with tbMode := 1, mpPend := s.mpPend ||| 2 ^ 925 }).2.2
  · refine ⟨s, congrArg ok (if_neg ?_), rfl⟩
    rcases hor with h | h <;> simp [h]

end Sys2Proof.Machine
end

section
/-! PROOFS. The Ihlell link (chapter 19): what a wake event leaves of the supplies, of bring-up and of the wake mailbox; the frames. -/
namespace Sys2Proof.Machine

open Sys2Proof

/-! ### Raised sources (R520) -/

theorem rg_raiseSrc {s : State} {r : RegName} {i n : Nat} (hn : n < 2 ^ 32) (hi : i < 2 ^ 32) (h : (r, i) ≠ (.intsrc, n)) :
    rg (raiseSrc s n) r i = rg s r i := rg_setRg_other (s := { s with mpPend := s.mpPend ||| 2 ^ n }) hn hi h

theorem rgF_raiseSrc {s : State} {r : RegName} {i n : Nat} (hn : n < 2 ^ 32) (hi : i < 2 ^ 32) (h : (r, i) ≠ (.intsrc, n)) (top lo : Nat) :
    rgF (raiseSrc s n) r i top lo = rgF s r i top lo := congrArg (fld · top lo) (rg_raiseSrc hn hi h)

theorem bit_raiseSrc {s : State} {n : Nat} (hn : n < 2 ^ 32) : bit (rg (raiseSrc s n) .intsrc n) 1 = true :=
  (setPend_spec (r := .intsrc) (i := n) hn _).1

/-- A raise leaves every pending bit that is set. -/
theorem bit_raiseSrc_kept {s : State} {j : Nat} (n : Nat) (h : bit (rg s .intsrc j) 1 = true) : bit (rg (raiseSrc s n) .intsrc j) 1 = true := by
  by_cases hj : j = n
  · subst hj
    rw [raiseSrc, setRgF, rg_setRg_same, bit_setFld _ _ _ _ _ (by decide) (by decide)]
    rfl
  · rw [raiseSrc, setRgF, rg_setRg_ne (by unfold regKey; omega)]
    exact h

/-! ### Lane groups and engines that light up (R396, R411) -/

/-- The registers that show lane groups, their engines and their domains, and the sources they raise. -/
def laneNames : List RegName := [.dstate, .fstop, .hubFstop, .lgstat, .palstat, .cartstat, .oestat, .intsrc]

/-- From s to t lane groups, slots and engines changed their states, with the sources that tells: pending bits stay pending. -/
structure LaneOnly (s t : State) : Prop where
  rest : { t with regs := s.regs, mpPend := s.mpPend, lgs := s.lgs, slots := s.slots } = s
  regs : ∀ r i, i < 2 ^ 32 → r ∉ laneNames → rg t r i = rg s r i
  pend : ∀ j, j < 2 ^ 32 → bit (rg s .intsrc j) 1 = true → bit (rg t .intsrc j) 1 = true

section
variable {s t u : State}

theorem LaneOnly.refl (s : State) : LaneOnly s s := ⟨rfl, fun _ _ _ _ => rfl, fun _ _ h => h⟩

theorem LaneOnly.trans (h1 : LaneOnly s t) (h2 : LaneOnly t u) : LaneOnly s u := by
  refine ⟨?_, fun r i hi hr => (h2.regs r i hi hr).trans (h1.regs r i hi hr), fun j hj hb => h2.pend j hj (h1.pend j hj hb)⟩
  rw [← h1.rest, ← h2.rest]

theorem LaneOnly.ite {p : Prop} [Decidable p] (h1 : LaneOnly s t) (h2 : LaneOnly s u) : LaneOnly s (if p then t else u) := by
  split
  · exact h1
  · exact h2

theorem LaneOnly.foldl {α : Type} {f : State → α → State} {l : List α} (h : LaneOnly s t) (hf : ∀ u a, a ∈ l → LaneOnly u (f u a)) :
    LaneOnly s (l.foldl f t) :=
  List.foldlRecOn (motive := LaneOnly s) _ _ h fun u hu a ha => hu.trans (hf u a ha)

theorem LaneOnly.setRgF (h : LaneOnly s t) {r : RegName} {i : Nat} (hr : r ∈ laneNames) (hne : r ≠ .intsrc) (hi : i < 2 ^ 32) (top lo x : Nat) :
    LaneOnly s (setRgF t r i top lo x) := by
  refine h.trans ⟨rfl, fun r' i' hi' hr' => rg_setRg_other hi hi' fun he => ?_, fun j hj hb => ?_⟩
  · rw [(Prod.mk.inj he).1] at hr'
    exact hr' hr
  · have hsame : rg (Machine.setRgF t r i top lo x) .intsrc j = rg t .intsrc j := rg_setRg_other hi hj fun he => hne (Prod.mk.inj he).1.symm
    rwa [hsame]

theorem LaneOnly.raiseSrc (h : LaneOnly s t) {n : Nat} (hn : n < 2 ^ 32) : LaneOnly s (raiseSrc t n) :=
  h.trans ⟨rfl, fun r i hi hr => rg_raiseSrc hn hi fun he => hr ((Prod.mk.inj he).1 ▸ by decide), fun j _ hb => bit_raiseSrc_kept n hb⟩

theorem LaneOnly.lgs (h : LaneOnly s t) (l : Tab LaneGrp) : LaneOnly s { t with lgs := l } :=
  h.trans ⟨rfl, fun _ _ _ _ => rfl, fun _ _ hb => hb⟩

theorem LaneOnly.slots (h : LaneOnly s t) (l : Tab Slot) : LaneOnly s { t with slots := l } :=
  h.trans ⟨rfl, fun _ _ _ _ => rfl, fun _ _ hb => hb⟩

theorem fstopOf_name (st : StopId) : (fstopOf st).1 ∈ laneNames ∧ (fstopOf st).1 ≠ .intsrc := by
  unfold fstopOf
  split <;> simp [laneNames]

theorem LaneOnly.setDom (h : LaneOnly s t) {d : Nat} (hd : d < 2 ^ 32) (x : Nat) : LaneOnly s (setDom t d x) := by
  have hset : LaneOnly s (Machine.setRgF t .dstate d 2 0 x) := h.setRgF (by decide) (by simp) hd ..
  unfold Machine.setDom
  cases hst : domStop d with
  | none => exact hset
  | some st =>
    obtain ⟨hdie, hstop⟩ := domStop_lt hst
    exact hset.setRgF (fstopOf_name st).1 (fstopOf_name st).2 (fstopOf_lt hdie hstop) ..

theorem LaneOnly.setLgState (h : LaneOnly s t) {g : Nat} (hg : g < 64) (x : Nat) : LaneOnly s (setLgState t g x) :=
  .ite h ((h.setRgF (by decide) (by simp) (by omega) ..).raiseSrc (by omega))

theorem LaneOnly.lgRefresh (h : LaneOnly s t) {g : Nat} (hg : g < 64) : LaneOnly s (lgRefresh t g) :=
  .ite h (.ite (h.setLgState hg _) (.ite (h.setLgState hg _) (.ite (h.setLgState hg _) (.ite (h.setLgState hg _) h))))

theorem LaneOnly.lgTrain (h : LaneOnly s t) {g : Nat} (hg : g < 64) : LaneOnly s (lgTrain t g) := by
  have hdom := (h.lgs (tset {} g ⟨now t, false⟩ t.lgs)).setDom (d := 0x180 + g) (by omega) 0
  exact ((LaneOnly.ite (hdom.setRgF (by decide) (by simp) (by omega) ..) hdom).setLgState hg _).lgRefresh hg

theorem LaneOnly.setSlotSt (h : LaneOnly s t) {e b : Nat} (hlt : 2 * e + b < 64) (v : Nat) : LaneOnly s (setSlotSt t e b v) := by
  have hset : LaneOnly s (Machine.setRgF t .cartstat (2 * e + b) 3 0 v) := h.setRgF (by decide) (by simp) (by omega) ..
  exact .ite (hset.slots _) (.ite (hset.slots _) hset)

theorem LaneOnly.oeSettle (h : LaneOnly s t) {e : Nat} (he : e < 4) : LaneOnly s (oeSettle t e) :=
  ((h.setRgF (by decide) (by simp) (by omega) ..).lgRefresh (by unfold engGroup; omega)).lgRefresh (by unfold engGroup; omega)

theorem LaneOnly.oeLight (h : LaneOnly s t) {e : Nat} (he : e < 4) : LaneOnly s (oeLight t e) := by
  have hbit : rgF t .oestat e 17 17 < 2 := fld_lt ..
  exact .ite h (.ite ((h.setSlotSt (by omega) _).oeSettle he)
    (.ite (((h.setSlotSt (by omega) _).setRgF (by decide) (by simp) (by omega) ..).oeSettle he) h))

theorem LaneOnly.engFollow (h : LaneOnly s t) {e : Nat} (he : e < 4) : LaneOnly s (engFollow t e) := by
  have hslots : LaneOnly s ((List.range 2).foldl (fun s b => if slotSt s e b = 3 then Machine.setSlotSt s e b 2 else s) t) :=
    h.foldl fun u b hb => .ite (LaneOnly.setSlotSt (.refl u) (by have := List.mem_range.mp hb; omega) _) (.refl u)
  exact .ite ((h.setDom (by omega) _).oeLight he) (.ite ((hslots.setRgF (by decide) (by simp) (by omega) ..).setDom (by omega) _) h)

theorem engOf_lt {g : Nat} (hg : g < 32) : engOf g < 4 := by
  unfold engOf
  omega

/-- A lane group that trains again, with a time for its PERST_N. -/
theorem lgWake_eq (s : State) (g : Nat) : lgWake s g = if rgF s .lgctl g 2 0 = 0 then s else
    if g ≥ 24 then lgRefresh (engFollow { lgTrain s g with lgs := tset {} g { lgrp s g with persAt := now s } s.lgs } (engOf g)) g
    else { lgTrain s g with lgs := tset {} g { lgrp s g with persAt := now s } s.lgs } := rfl

theorem LaneOnly.lgWake (h : LaneOnly s t) {g : Nat} (hg : g < 32) : LaneOnly s (lgWake t g) := by
  have htrain := (h.lgTrain (g := g) (by omega)).lgs (tset {} g { lgrp t g with persAt := now t } t.lgs)
  rw [lgWake_eq]
  exact .ite h (.ite ((htrain.engFollow (engOf_lt hg)).lgRefresh (by omega)) htrain)

end

/-! ### What a wake event leaves alone -/

/-- The supplies, resets and bring-up, and the word of the wake mailbox are as they were. -/
structure SupplyKept (s t : State) : Prop where
  vin : t.vin = s.vin
  vstby : t.vstby = s.vstby
  rs : t.rs = s.rs
  word : rg t .wakembox 0 = rg s .wakembox 0

section
variable {s t u : State}

theorem SupplyKept.refl (s : State) : SupplyKept s s := ⟨rfl, rfl, rfl, rfl⟩

theorem SupplyKept.trans (h1 : SupplyKept s t) (h2 : SupplyKept t u) : SupplyKept s u :=
  ⟨h2.vin.trans h1.vin, h2.vstby.trans h1.vstby, h2.rs.trans h1.rs, h2.word.trans h1.word⟩

theorem SupplyKept.ite {p : Prop} [Decidable p] (h1 : SupplyKept s t) (h2 : SupplyKept s u) : SupplyKept s (if p then t else u) := by
  split
  · exact h1
  · exact h2

theorem SupplyKept.foldl {α : Type} {f : State → α → State} {l : List α} (h : SupplyKept s t) (hf : ∀ u a, a ∈ l → SupplyKept u (f u a)) :
    SupplyKept s (l.foldl f t) :=
  List.foldlRecOn (motive := SupplyKept s) _ _ h fun u hu a ha => hu.trans (hf u a ha)

/-- Registers with a number above WAKEMBOX's, or an index that fits, lie elsewhere. -/
theorem SupplyKept.setRg (h : SupplyKept s t) {r : RegName} {i : Nat} (hr : RegName.wakembox.num < r.num ∨ r ≠ .wakembox ∧ i < 2 ^ 32) (v : Word) :
    SupplyKept s (setRg t r i v) := by
  refine ⟨h.vin, h.vstby, h.rs, (rg_setRg_ne ?_).trans h.word⟩
  rcases hr with hr | ⟨hr, hi⟩
  · unfold regKey
    omega
  · exact regKey_ne_name (fun he => hr (num_inj he).symm) (by decide) hi

theorem SupplyKept.setRgF (h : SupplyKept s t) {r : RegName} {i : Nat} (hr : RegName.wakembox.num < r.num ∨ r ≠ .wakembox ∧ i < 2 ^ 32)
    (top lo x : Nat) : SupplyKept s (setRgF t r i top lo x) := h.setRg hr _

theorem SupplyKept.raiseSrc (h : SupplyKept s t) {n : Nat} (hn : n < 2 ^ 32) : SupplyKept s (raiseSrc t n) := by
  have hpend : SupplyKept s { t with mpPend := t.mpPend ||| 2 ^ n } := ⟨h.vin, h.vstby, h.rs, h.word⟩
  exact hpend.setRgF (.inr ⟨by simp, hn⟩) ..

theorem SupplyKept.setDom (h : SupplyKept s t) (d x : Nat) : SupplyKept s (setDom t d x) := by
  have hset : SupplyKept s (Machine.setRgF t .dstate d 2 0 x) := h.setRgF (.inl (by decide)) ..
  unfold Machine.setDom
  cases hst : domStop d with
  | none => exact hset
  | some st =>
    obtain ⟨hdie, hstop⟩ := domStop_lt hst
    refine hset.setRgF (.inr ⟨fun he => ?_, fstopOf_lt hdie hstop⟩) ..
    have := fstopOf_mem st
    rw [he] at this
    exact absurd this (by decide)

theorem SupplyKept.reopenDom (h : SupplyKept s t) (d : Nat) : SupplyKept s (reopenDom t d) := by
  unfold Machine.reopenDom
  cases domStop d with
  | none => exact h.setDom ..
  | some st =>
    have hin : SupplyKept s { t with
        parked := t.parked.filter (fun p => p.dst != st), net := t.net ++ t.parked.filter (fun p => p.dst == st) } := ⟨h.vin, h.vstby, h.rs, h.word⟩
    exact hin.setDom ..

theorem SupplyKept.setCore (h : SupplyKept s t) (c : Nat) (k : Core) : SupplyKept s (setCore t c k) := ⟨h.vin, h.vstby, h.rs, h.word⟩

theorem SupplyKept.ingressReopen (h : SupplyKept s t) (st : StopId) : SupplyKept s (ingressReopen t st) := by
  unfold Machine.ingressReopen
  cases stopDom st with
  | none => exact h
  | some d => exact .ite (.ite (.ite ((h.reopenDom d).setCore ..) (h.reopenDom d)) (h.reopenDom d)) h

theorem SupplyKept.lgWake (h : SupplyKept s t) {g : Nat} (hg : g < 32) : SupplyKept s (lgWake t g) := by
  have honly := LaneOnly.lgWake (.refl t) hg
  have hsame : ∀ {u : State}, LaneOnly t u → u.vin = t.vin ∧ u.vstby = t.vstby ∧ u.rs = t.rs := fun h => by
    rw [← h.rest]
    exact ⟨rfl, rfl, rfl⟩
  obtain ⟨hvin, hvstby, hrs⟩ := hsame honly
  exact h.trans ⟨hvin, hvstby, hrs, honly.regs _ _ (by decide) (by decide)⟩

theorem SupplyKept.pw (h : SupplyKept s t) (p : PowerSt) : SupplyKept s { t with pw := p } := ⟨h.vin, h.vstby, h.rs, h.word⟩

theorem SupplyKept.setPkgState (h : SupplyKept s t) (x : Nat) : SupplyKept s (setPkgState t x) := by
  unfold Machine.setPkgState
  refine SupplyKept.setRgF ?_ (.inr ⟨by simp, by decide⟩) ..
  split
  · split
    · exact h.pw _
    · exact h
  · cases t.pw.outSince with
    | none => exact h
    | some _ => exact h.pw _

theorem SupplyKept.writeLastWake (h : SupplyKept s t) (seen detail from_ fail step at_ : Nat) :
    SupplyKept s (writeLastWake t seen detail from_ fail step at_) :=
  (h.setRg (.inr ⟨by simp, by decide⟩) _).setRg (.inr ⟨by simp, by decide⟩) _

/-- A domain that was in RUN returns to it. -/
theorem SupplyKept.backToRun (h : SupplyKept s t) (d : Nat) : SupplyKept s
    (match domStop d with
      | some st => Machine.ingressReopen (Machine.setDom t d 5) st
      | none => Machine.setDom t d 0) := by
  cases domStop d with
  | none => exact h.setDom ..
  | some st => exact (h.setDom ..).ingressReopen st

theorem SupplyKept.abortEntry (h : SupplyKept s t) (src detail : Nat) : SupplyKept s (abortEntry t src detail) := by
  unfold Machine.abortEntry
  refine ((((SupplyKept.ite (SupplyKept.foldl ?_ fun u g hg => .ite (SupplyKept.lgWake (.refl u) ?_) (.refl u)) h).setPkgState 0).setRgF (.inr ⟨by simp, by decide⟩) ..
    ).writeLastWake ..).raiseSrc (by decide)
  · exact (h.foldl fun u d _ => SupplyKept.backToRun (.refl u) d).pw _
  · have := List.mem_range.mp hg
    omega

theorem SupplyKept.wakeFires (h : SupplyKept s t) (seen detail : Nat) : SupplyKept s (wakeFires t seen detail) := by
  unfold Machine.wakeFires
  refine .ite h (.ite ((h.pw _).setPkgState 3) (.ite ?_ (.ite (h.abortEntry ..) ?_)))
  · cases t.pw.wake with
    | none => exact h
    | some w => exact .ite (h.pw _) h
  · unfold Machine.joinAbort
    exact .ite (h.writeLastWake ..) h

/-- A wake event leaves the supplies, resets and the wake mailbox as they were. -/
theorem wakeEvent_supplyKept (s : State) (en src detail : Nat) : SupplyKept s (wakeEvent s en src detail) :=
  .ite (SupplyKept.wakeFires (.refl s) ..) (.refl s)

end

/-! ### Which frames act (R612, R613, R651) -/

/-- An answer changes the management processor's own state alone. -/
theorem ihlEnd_told (u : State) (cmd tag status : Nat) (bs : List Byte) : { ihlEnd u cmd tag status bs with mp := u.mp } = u ∧
    (ihlEnd u cmd tag status bs).mp.ihlAns = some (cmd + 0x80, tag, BitVec.ofNat 8 status :: bs) := ⟨rfl, rfl⟩

section
variable {s : State} {a tag cmd : Nat} {act : State → State} {all : Bool}

theorem ihlCmd_light (h : a = 0x10 + s.pkg) : ihlCmd s a tag cmd true all act = act (ihlActivity s) := by
  simp [ihlCmd, ihlOurs, h]

theorem ihlCmd_served (h : a = 0x10 + s.pkg) (hboot : s.rs.boot ≠ 3) (hvin : s.vin = true) :
    ihlCmd s a tag cmd false all act = act (ihlActivity s) := by
  have hkept := wakeEvent_supplyKept s 1 2 0
  have hserves : ihlServes (ihlActivity s) = true := by simp [ihlServes, ihlActivity, hkept.rs, hboot]
  have hpower : (ihlActivity s).vin = true := hkept.vin.trans hvin
  simp [ihlCmd, ihlOurs, h, hserves, hpower]

theorem ihlCmd_power (h : a = 0x10 + s.pkg) (hboot : (ihlActivity s).rs.boot ≠ 3) (hvin : (ihlActivity s).vin = false) :
    ihlCmd s a tag cmd false all act = ihlEnd (ihlActivity s) cmd tag 3 [] := by
  simp [ihlCmd, ihlOurs, h, ihlServes, hboot, hvin]

theorem ihlCmd_foreign (h : a ≠ 0x10 + s.pkg) (hall : a ≠ 0x1F) (light : Bool) : ihlCmd s a tag cmd light all act = ihlAnswer s none := by
  simp [ihlCmd, ihlOurs, h, hall]

end

/-! ### The commands (R614) -/

section
variable {u : State} {tag : Nat}

theorem hlReadAct_refused {seq count pad : Nat} (h : count = 0 ∨ 2 < count ∨ pad ≠ 0) : hlReadAct tag seq count pad u = ihlEnd u 0x11 tag 0x11 [] :=
  if_pos h

theorem hlReadAct_absent {seq count : Nat} (h : ¬(count = 0 ∨ 2 < count ∨ (0 : Nat) ≠ 0)) (hheld : hlHeld u seq = false) :
    hlReadAct tag seq count 0 u = ihlEnd u 0x11 tag 5 [] := by
  rw [hlReadAct, if_neg h, hheld]
  rfl

theorem hlReadAct_held {seq count : Nat} (h : ¬(count = 0 ∨ 2 < count ∨ (0 : Nat) ≠ 0)) (hheld : hlHeld u seq = true) :
    hlReadAct tag seq count 0 u = ihlEnd u 0x11 tag 0 (hlAt u seq ++ (if count = 2 ∧ hlHeld u (seq + 1) then hlAt u (seq + 1) else [])) := by
  rw [hlReadAct, if_neg h, hheld]
  rfl

theorem hlVerifyAct_order {first last : Nat} (h : last < first) : hlVerifyAct tag first last u = ihlEnd u 0x12 tag 0x11 [] := if_pos h

theorem hlVerifyAct_absent {first last : Nat} (h : first ≤ last) (hheld : hlHeld u first = false ∨ hlHeld u last = false) :
    hlVerifyAct tag first last u = ihlEnd u 0x12 tag 5 [] := by
  rw [hlVerifyAct, if_neg (by omega)]
  rcases hheld with hh | hh <;> simp [hh]

theorem hlVerifyAct_bad {first last bad : Nat} (h : first ≤ last) (h1 : hlHeld u first = true) (h2 : hlHeld u last = true) (hring : u.hlog.head ≤ 32767)
    (hr : hlCheck u first (last + 1) 0 zero32 = .inl bad) : hlVerifyAct tag first last u = ihlEnd u 0x12 tag 0 (bytesLE 6 bad) := by
  rw [hlVerifyAct, if_neg (by omega), h1, h2, if_neg (by simp), if_neg (by omega), hr]

theorem hlVerifyAct_good {first : Nat} (h : first ≤ u.hlog.head) (h1 : hlHeld u first = true) (hring : u.hlog.head ≤ 32767)
    (hr : hlCheck u first (u.hlog.head + 1) 0 zero32 = .inr (hlChain u)) : hlVerifyAct tag first u.hlog.head u = ihlEnd u 0x12 tag 0 [0] := by
  have h2 : hlHeld u u.hlog.head = true := by simp [hlHeld]
  rw [hlVerifyAct, if_neg (by omega), h1, h2, if_neg (by simp), if_neg (by omega), hr]
  dsimp only
  rw [if_neg (fun hc => hc.2 rfl)]

end

theorem mbQ_mbServe (s : State) (c : Nat) : mbQ (mbServe s) c = mbQ s c := by
  unfold mbServe
  split <;> rfl

theorem mbQ_setMbQ (s : State) (c : Nat) (q : List MbEntry) : mbQ (setMbQ s c q) c = q := tget_tset_same _

theorem ihlMailboxAct_joins {u : State} (tag : Nat) (blk : LineData) (h : (mbQ u 3).length < 64) :
    mbQ (ihlMailboxAct tag blk u) 3 = mbQ u 3 ++ [⟨blk, 0, tag, now u⟩] ∧ (ihlMailboxAct tag blk u).mp.ihlAns = none := by
  have hact : ihlMailboxAct tag blk u = ihlAnswer (mbServe (setMbQ u 3 (mbQ u 3 ++ [⟨blk, 0, tag, now u⟩]))) none := by
    rw [ihlMailboxAct, mbEnter]
    dsimp only
    rw [if_pos h, if_neg (by simpa using h)]
  rw [hact]
  exact ⟨(mbQ_mbServe ..).trans (mbQ_setMbQ ..), rfl⟩

theorem ihlMailboxAct_busy {u : State} (tag : Nat) (blk : LineData) (h : 64 ≤ (mbQ u 3).length) : ∃ bs, ihlMailboxAct tag blk u = ihlEnd u 0x20 tag 4 bs := by
  rw [ihlMailboxAct, mbEnter]
  dsimp only
  rw [if_neg (show ¬(mbQ u 3).length < 64 by omega), if_pos (by simpa using h)]
  exact ⟨_, rfl⟩

theorem ihlDapAct_ends {u : State} {op : DapOp} (tag : Nat) (h : dapEnds true op (dapWaits u op) u = true) :
    ihlDapAct tag op u = (let x := dapGate true op (dapWaits u op) (dapRun · op) u
      ihlEnd x 0x30 tag 0 (BitVec.ofNat 8 x.dapStatus :: bytesLE 8 x.dapData.toNat)) := by
  rw [ihlDapAct, h]
  rfl

theorem ihlDapAct_waits {u : State} {op : DapOp} (tag : Nat) (h : dapEnds true op (dapWaits u op) u = false) :
    ihlDapAct tag op u = ihlAnswer (dapGate true op (dapWaits u op) (dapRun · op) u) none := by
  rw [ihlDapAct, h]
  rfl

theorem ihlDapAct_spec (u : State) (op : DapOp) (tag : Nat) : let x := dapGate true op (dapWaits u op) (dapRun · op) u
    { ihlDapAct tag op u with mp := x.mp } = x ∧
    (dapEnds true op (dapWaits u op) u = true → (ihlDapAct tag op u).mp.ihlAns =
      some (0x30 + 0x80, tag, 0 :: BitVec.ofNat 8 x.dapStatus :: bytesLE 8 x.dapData.toNat)) ∧
    (dapEnds true op (dapWaits u op) u = false → (ihlDapAct tag op u).mp.ihlAns = none) := by
  cases hends : dapEnds true op (dapWaits u op) u with
  | true =>
    rw [ihlDapAct_ends tag hends]
    exact ⟨(ihlEnd_told ..).1, fun _ => (ihlEnd_told ..).2, nofun⟩
  | false =>
    rw [ihlDapAct_waits tag hends]
    exact ⟨rfl, nofun, fun _ => rfl⟩

/-- The word of the wake mailbox stays while the mailbox fires (R559). -/
theorem wakeMboxAct_word (u : State) (tag : Nat) (w : BitVec 32) : rgF (wakeMboxAct tag w.toNat u) .wakembox 0 31 0 = w.toNat := by
  have hkept := wakeEvent_supplyKept (setRgF u .wakembox 0 31 0 w.toNat) 2 3 0
  change fld (rg (wakeEvent (setRgF u .wakembox 0 31 0 w.toNat) 2 3 0) .wakembox 0) 31 0 = w.toNat
  rw [hkept.word]
  have hsame := rgF_setRgF_same (hi := 31) (lo := 0) u .wakembox 0 w.toNat (by decide) (by decide)
  exact hsame.trans (Nat.mod_eq_of_lt w.isLt)

/-! ### Frames off the wire (R612, R613) -/

theorem ofBytesLE_bytesLE_two (x : BitVec 16) : ofBytesLE (bytesLE 2 x.toNat) = x.toNat := by
  have hx := x.isLt
  change (BitVec.ofNat 8 (x.toNat >>> 0)).toNat + 256 * ((BitVec.ofNat 8 (x.toNat >>> 8)).toNat + 256 * 0) = x.toNat
  rw [BitVec.toNat_ofNat, BitVec.toNat_ofNat, Nat.shiftRight_eq_div_pow, Nat.shiftRight_eq_div_pow]
  omega

theorem ihlFrame_of (s : State) (a cmd tag len : Byte) (p : List Byte) (crc : BitVec 16) : let body := a :: cmd :: tag :: len :: p
    ihlFrame s (body ++ bytesLE 2 crc.toNat) = if p.length = len.toNat ∧ p.length ≤ 136 ∧ ihlCrc body = crc.toNat then
      ihlPayload s a.toNat cmd.toNat tag.toNat p else ihlAnswer s none := by
  intro body
  have hlen : (body ++ bytesLE 2 crc.toNat).length - 2 = body.length := by
    rw [List.length_append]
    exact Nat.add_sub_cancel body.length 2
  rw [ihlFrame, hlen, List.take_left' rfl, List.drop_left' rfl, ofBytesLE_bytesLE_two]

theorem ihlPayload_unknown {s : State} {a cmd tag : Nat} {p : List Byte} (h : cmd ∉ [0x01, 0x02, 0x03, 0x10, 0x11, 0x12, 0x18, 0x20, 0x30, 0x40]) :
    ihlPayload s a cmd tag p = ihlCmd s a tag cmd true false (fun s => if ihlServes s then ihlEnd s cmd tag 0x10 [] else ihlAnswer s none) := by
  simp only [List.mem_cons, List.not_mem_nil, or_false, not_or] at h
  obtain ⟨h1, h2, h3, h4, h5, h6, h7, h8, h9, h10⟩ := h
  unfold ihlPayload
  split
  case h_11 => rfl
  all_goals omega

/-! ### The obligation -/

/-- Settles O54: which frames act is `ihlCmd_light`, `ihlCmd_served`, `ihlCmd_power` and `ihlCmd_foreign`; a wake event that the frame is leaves
what they look at (`wakeEvent_supplyKept`). -/
theorem ihlellFrames : Obligations.IhlellFrames := by
  unfold Obligations.IhlellFrames
  refine ⟨fun a tag s ha => ?_, fun a tag seq w s hne hall i hi => ?_, fun a cmd tag len p crc s => ?_⟩
  · have hkept : SupplyKept s (ihlActivity s) := wakeEvent_supplyKept s 1 2 0
    have hlight : ∀ cmd all act, ihlCmd s a.toNat tag.toNat cmd true all act = act (ihlActivity s) := fun _ _ _ => ihlCmd_light ha
    have hserved : s.vin = true → s.rs.boot ≠ 3 → ∀ cmd all act, ihlCmd s a.toNat tag.toNat cmd false all act = act (ihlActivity s) :=
      fun hvin hboot _ _ _ => ihlCmd_served ha hboot hvin
    have hpower : (ihlActivity s).vin = false → (ihlActivity s).rs.boot ≠ 3 → ∀ cmd all act,
        ihlCmd s a.toNat tag.toNat cmd false all act = ihlEnd (ihlActivity s) cmd tag.toNat 3 [] :=
      fun hvin hboot _ _ _ => ihlCmd_power ha hboot hvin
    obtain ⟨u, hu⟩ : ∃ u, ihlActivity s = u := ⟨_, rfl⟩
    dsimp only
    rw [hu] at hkept hlight hserved hpower ⊢
    refine ⟨?_, fun hvin => ?_, ?_, fun nonce => ?_, fun seq count zero => ?_, fun first last => ?_, fun hvin hboot => ?_, fun hvin huvin huboot w blk op bs => ?_⟩
    · refine ⟨_, congrArg ok (hlight ..), rfl, ?_⟩
      rw [← hkept.vin, ← hkept.vstby]
      rfl
    · refine ⟨_, congrArg ok (hlight ..), rfl, ?_⟩
      have huvin : u.vin = true := hkept.vin.trans hvin
      simp only [ihlStatusAct, huvin]
      rfl
    · exact ⟨_, congrArg ok (hlight ..), rfl, rfl⟩
    · exact ⟨_, congrArg ok (hlight ..), rfl, rfl⟩
    · have hread : ∀ v, hlReadAct tag.toNat seq.toNat count.toNat zero.toNat u = v → exec (.hlRead a tag seq count zero) s = .next v :=
        fun v hv => congrArg ok ((hlight ..).trans hv)
      refine ⟨fun h1 h0 hh => ?_, fun h1 h0 hh => ?_, fun h2 h0 hh hh' => ?_, fun h2 h0 hh hh' => ?_, fun hbad => ?_⟩
      · subst h0
        refine ⟨_, hread _ (hlReadAct_held (by omega) hh), rfl, ?_⟩
        simp [ihlEnd, ihlAnswer, h1]
      · subst h0
        exact ⟨_, hread _ (hlReadAct_absent (by omega) hh), ihlEnd_told ..⟩
      · subst h0
        refine ⟨_, hread _ (hlReadAct_held (by omega) hh), rfl, ?_⟩
        simp [ihlEnd, ihlAnswer, h2, hh']
      · subst h0
        refine ⟨_, hread _ (hlReadAct_held (by omega) hh), rfl, ?_⟩
        simp [ihlEnd, ihlAnswer, h2, hh']
      · refine ⟨_, hread _ (hlReadAct_refused ?_), ihlEnd_told ..⟩
        rcases hbad with h | h | h
        · exact .inl (congrArg BitVec.toNat h)
        · exact .inr (.inl h)
        · exact .inr (.inr fun hz => h (BitVec.eq_of_toNat_eq hz))
    · have hverify : ∀ v, hlVerifyAct tag.toNat first.toNat last.toNat u = v → exec (.hlVerify a tag first last) s = .next v :=
        fun v hv => congrArg ok ((hlight ..).trans hv)
      refine ⟨fun h => ?_, fun h hh => ?_, fun bad h h1 h2 hring hr => ?_, fun h h1 hlast hring hr => ?_⟩
      · exact ⟨_, hverify _ (hlVerifyAct_order h), ihlEnd_told ..⟩
      · exact ⟨_, hverify _ (hlVerifyAct_absent h hh), ihlEnd_told ..⟩
      · exact ⟨_, hverify _ (hlVerifyAct_bad h h1 h2 hring hr), ihlEnd_told ..⟩
      · rw [hlast] at h hr hverify
        exact ⟨_, hverify _ (hlVerifyAct_good h h1 hring hr), ihlEnd_told ..⟩
    · have hact := hserved hvin hboot
      refine ⟨fun w => ?_, fun blk => ⟨fun hroom => ?_, fun hfull => ?_⟩, fun op => ?_, fun off bs => ⟨fun hlen => ?_, fun hlen => ?_⟩⟩
      · exact ⟨_, congrArg ok (hact ..), wakeMboxAct_word u _ w, rfl⟩
      · exact ⟨_, congrArg ok (hact ..), ihlMailboxAct_joins tag.toNat blk hroom⟩
      · obtain ⟨bs, hbusy⟩ := ihlMailboxAct_busy tag.toNat blk hfull
        exact ⟨_, bs, congrArg ok ((hact ..).trans hbusy), rfl, rfl⟩
      · exact ⟨ihlDapAct tag.toNat op u, congrArg ok (hact ..), ihlDapAct_spec ..⟩
      · exact ⟨_, congrArg ok ((hact ..).trans (if_neg (by omega))), rfl, rfl, rfl⟩
      · exact ⟨_, congrArg ok ((hact ..).trans (if_pos hlen)), rfl, rfl, rfl⟩
    · intro r hr
      have hended : exec r.1 s = .next (ihlEnd u r.2 tag.toNat 3 []) := by
        simp only [List.mem_cons, List.not_mem_nil, or_false] at hr
        rcases hr with rfl | rfl | rfl | rfl <;> exact congrArg ok (hpower huvin huboot ..)
      exact ⟨_, hended, ihlEnd_told ..⟩
  · have hsilent : exec i s = .next (ihlAnswer s none) := by
      simp only [List.mem_cons, List.not_mem_nil, or_false] at hi
      rcases hi with rfl | rfl | rfl | rfl | rfl <;> exact congrArg ok (ihlCmd_foreign hne hall _)
    exact ⟨_, hsilent, rfl, rfl⟩
  · intro body frame
    refine ⟨fun hbad => ⟨_, congrArg ok ((ihlFrame_of ..).trans (if_neg ?_)), rfl, rfl⟩, fun hlen hmax hcrc ha hboot huboot hcmd =>
      ⟨_, congrArg ok ((ihlFrame_of ..).trans ((if_pos ⟨hlen, hmax, hcrc⟩).trans ((ihlPayload_unknown ?_).trans (ihlCmd_light ha)))), ?_⟩⟩
    · rintro ⟨h1, _, h3⟩
      exact hbad.elim (· h1) (· h3)
    · exact hcmd
    · rw [if_pos (by simpa [ihlServes] using huboot)]
      rfl

end Sys2Proof.Machine
end

section
/-! PROOFS. Wake, trip and loops (chapter 17). -/
namespace Sys2Proof.Machine

open Sys2Proof

/-! ### PKGSTAT and LASTWAKE -/

theorem setPkgState_regsOnly (s : State) (x : Nat) : RegsOnly [(.pkgstat, 0)] { s with pw := (setPkgState s x).pw } (setPkgState s x) := by
  unfold setPkgState
  dsimp only
  split
  · split <;> exact .setRgF (by decide) List.mem_cons_self ..
  · cases s.pw.outSince <;> exact .setRgF (by decide) List.mem_cons_self ..

theorem pkgState_setPkgState (s : State) (x : Nat) : pkgState (setPkgState s x) = x % 8 := by
  unfold setPkgState
  exact rgF_setRgF_same _ _ _ _ _ _ (by decide) (by decide)

theorem pkgState_setPkgStatus (s : State) (x : Nat) : pkgState (setPkgStatus s x) = pkgState s :=
  rgF_setRgF_field _ _ _ _ _ _ _ _ (by decide) (by decide) (by decide)

theorem status_setPkgStatus (s : State) (x : Nat) : rgF (setPkgStatus s x) .pkgstat 0 7 0 = x % 256 :=
  rgF_setRgF_same _ _ _ _ _ _ (by decide) (by decide)

/-- The word LASTWAKE takes (R563). -/
def lastWakeWord (seen detail from_ fail step : Nat) : Word :=
  BitVec.ofNat 64 (lowSource seen * 2 ^ 56 + seen * 2 ^ 48 + from_ * 2 ^ 46 + fail * 2 ^ 45 + step * 2 ^ 42 + detail * 2 ^ 32)

theorem rg_writeLastWake (s : State) (seen detail from_ fail step at_ : Nat) : let t := writeLastWake s seen detail from_ fail step at_
    rg t .lastwake 0 = lastWakeWord seen detail from_ fail step ∧ rg t .lastwaket 0 = BitVec.ofNat 64 at_ ∧
      RegsOnly [(.lastwake, 0), (.lastwaket, 0)] s t := by
  refine ⟨?_, rg_setRg_same .., .trans (.setRg (by decide) (by simp) ..) (.setRg (by decide) (by simp) ..)⟩
  exact (rg_setRg_other (by decide) (by decide) (by simp)).trans (rg_setRg_same ..)

theorem lowSource_lt (seen : Nat) : lowSource seen < 8 := by
  unfold lowSource
  cases h : (List.range 8).find? (fun k => seen.testBit k) with
  | none => decide
  | some k => exact List.mem_range.mp (List.mem_of_find?_eq_some h)

theorem lowSource_pow {k : Nat} (h : k < 8) : lowSource (2 ^ k) = k := by
  revert k
  decide

theorem fld_ofNat (n hi lo : Nat) : fld (BitVec.ofNat 64 n) hi lo = n % 2 ^ 64 / 2 ^ lo % 2 ^ (hi + 1 - lo) := by
  rw [fld, BitVec.toNat_ofNat, Nat.shiftRight_eq_div_pow]

theorem lastWakeWord_fields {seen detail from_ fail step : Nat} (hd : detail < 2 ^ 10) (hst : step < 8) (hf : fail < 2) :
    (seen < 2 ^ 8 → from_ < 4 → fld (lastWakeWord seen detail from_ fail step) 63 56 = lowSource seen) ∧
    (seen < 2 ^ 8 → from_ < 4 → fld (lastWakeWord seen detail from_ fail step) 47 46 = from_) ∧
    fld (lastWakeWord seen detail from_ fail step) 45 45 = fail ∧ fld (lastWakeWord seen detail from_ fail step) 44 42 = step := by
  have hlow := lowSource_lt seen
  simp only [lastWakeWord, fld_ofNat]
  refine ⟨fun h1 h2 => ?_, fun h1 h2 => ?_, ?_, ?_⟩ <;> omega

/-! ### Wake sources (R554, R563) -/

theorem wakeFires_banked {s : State} {seen detail : Nat} (hseen : seen ≠ 0) (h : pkgState s = 4 ∨ pkgState s = 5) :
    wakeFires s seen detail = setPkgState { s with pw := { s.pw with wake := some ⟨1, now s, false, seen, detail, pkgState s - 3, now s⟩ } } 3 := by
  rw [wakeFires]
  dsimp only
  rw [if_neg hseen, if_pos h]

theorem setPkgState_pw (s : State) (x : Nat) : (setPkgState s x).pw.sampleAt = s.pw.sampleAt ∧ (setPkgState s x).pw.target = s.pw.target ∧
    (setPkgState s x).pw.pme = s.pw.pme := by
  unfold setPkgState
  dsimp only
  split
  · split <;> exact ⟨rfl, rfl, rfl⟩
  · cases s.pw.outSince <;> exact ⟨rfl, rfl, rfl⟩

/-- Out of POUR the time is noted, once (R150). -/
theorem setPkgState_out {x : Nat} (h : 3 ≤ x) (s : State) : (setPkgState s x).vstby = s.vstby ∧
    (setPkgState s x).pw = if s.pw.outSince = none then { s.pw with outSince := some (now s) } else s.pw := by
  unfold setPkgState
  dsimp only
  rw [if_pos h]
  cases hout : s.pw.outSince with
  | none => exact ⟨rfl, rfl⟩
  | some t => exact ⟨rfl, rfl⟩

theorem wake_setPkgState (s : State) (x : Nat) : (setPkgState s x).pw.wake = s.pw.wake := by
  unfold setPkgState
  dsimp only
  split
  · split <;> rfl
  · cases s.pw.outSince <;> rfl

theorem wakeFires_armed {s : State} {seen detail : Nat} (hseen : seen ≠ 0) (h : pkgState s = 1) : wakeFires s seen detail =
    raiseSrc (writeLastWake (setPkgStatus (setPkgState s 0) 3) (2 ^ lowSource seen) detail 3 0 0 (now s)) 926 := by
  rw [wakeFires]
  dsimp only
  rw [if_neg hseen, if_neg (by omega), if_neg (by omega), if_pos (.inl h), abortEntry]
  dsimp only
  rw [if_neg (by simp [h])]

theorem wakeFires_joins {s : State} {seen detail : Nat} (h : pkgState s = 0) (hno : rgF s .lastwake 0 47 46 ≠ 3) : wakeFires s seen detail = s := by
  rw [wakeFires]
  dsimp only
  split
  · rfl
  · rw [if_neg (by omega), if_neg (by omega), if_neg (by omega), joinAbort]
    dsimp only
    rw [if_neg (fun hc => hno hc.1)]

/-- What a wake source does by PKGSTAT.STATE. -/
theorem wakeEvent_acts {s : State} {en src det : Nat} (hsrc : src < 8) (hdet : det < 2 ^ 10) :
    (bit (rg s .wakectl 0) en = true → pkgState s = 4 ∨ pkgState s = 5 →
      (wakeEvent s en src det).pw.wake = some ⟨1, now s, false, 2 ^ src, det, pkgState s - 3, now s⟩ ∧ pkgState (wakeEvent s en src det) = 3) ∧
    (bit (rg s .wakectl 0) en = true → pkgState s = 1 → let t := wakeEvent s en src det
      pkgState t = 0 ∧ rgF t .pkgstat 0 7 0 = 3 ∧ rgF t .lastwake 0 63 56 = src ∧ rgF t .lastwake 0 47 46 = 3 ∧ bit (rg t .intsrc 926) 1 = true) ∧
    (bit (rg s .wakectl 0) en = false ∨ (pkgState s = 0 ∧ rgF s .lastwake 0 47 46 ≠ 3) → wakeEvent s en src det = s) := by
  have hpow : 2 ^ src ≠ 0 := by positivity
  refine ⟨fun hen hp => ?_, fun hen hp => ?_, fun hor => ?_⟩
  · rw [wakeEvent, if_pos hen, wakeFires_banked hpow hp]
    exact ⟨wake_setPkgState .., pkgState_setPkgState ..⟩
  · rw [wakeEvent, if_pos hen, wakeFires_armed hpow hp, lowSource_pow hsrc]
    obtain ⟨u, hu⟩ : ∃ u, setPkgStatus (setPkgState s 0) 3 = u := ⟨_, rfl⟩
    have hstate : pkgState u = 0 := by rw [← hu, pkgState_setPkgStatus, pkgState_setPkgState]
    have hstatus : rgF u .pkgstat 0 7 0 = 3 := by rw [← hu, status_setPkgStatus]
    rw [hu]
    obtain ⟨hword, _, honly⟩ := rg_writeLastWake u (2 ^ src) det 3 0 0 (now s)
    obtain ⟨v, hv⟩ : ∃ v, writeLastWake u (2 ^ src) det 3 0 0 (now s) = v := ⟨_, rfl⟩
    rw [hv] at hword honly ⊢
    have hfields := lastWakeWord_fields (seen := 2 ^ src) (from_ := 3) (fail := 0) (step := 0) hdet (by decide) (by decide)
    have hlt : 2 ^ src < 2 ^ 8 := Nat.pow_lt_pow_right (by decide) hsrc
    obtain ⟨hlast, hfrom, _, _⟩ := hfields
    refine ⟨?_, ?_, ?_, ?_, bit_raiseSrc (by decide)⟩
    · exact (rgF_raiseSrc (by decide) (by decide) (by simp) ..).trans ((honly.rgF (by decide) (by simp) ..).trans hstate)
    · exact (rgF_raiseSrc (by decide) (by decide) (by simp) ..).trans ((honly.rgF (by decide) (by simp) ..).trans hstatus)
    · rw [rgF_raiseSrc (by decide) (by decide) (by simp), rgF, hword, hlast hlt (by decide), lowSource_pow hsrc]
    · rw [rgF_raiseSrc (by decide) (by decide) (by simp), rgF, hword, hfrom hlt (by decide)]
  · rw [wakeEvent]
    split
    · rename_i hen
      obtain ⟨hp, hno⟩ := hor.resolve_left (by simp [hen])
      exact wakeFires_joins hp hno
    · rfl

/-! ### Samples and trips (R560, R561, R564, R567) -/

/-- ANNSTAT after a sample. -/
def counted (s : State) (i : SampleIn) : State := incRgF (setRgF (setRgF s .annstat 0 31 24 i.temp.toNat) .annstat 0 23 12 i.vin.toNat) .annstat 0 63 32

/-- The state a sample without a sensor at the trip level leaves before its sources fire. -/
def sampled (s : State) (i : SampleIn) : State :=
  { counted s i with pw := { (counted s i).pw with sampleAt := now (counted s i), hotSens := [] } }

theorem counted_regsOnly (s : State) (i : SampleIn) : RegsOnly [(.annstat, 0)] s (counted s i) :=
  ((RegsOnly.setRgF (by decide) List.mem_cons_self ..).trans (.setRgF (by decide) List.mem_cons_self ..)).trans
    (.setRgF (by decide) List.mem_cons_self ..)

theorem rg_sampled {s : State} {i : SampleIn} {r : RegName} (h : r ≠ .annstat) : rg (sampled s i) r 0 = rg s r 0 :=
  (counted_regsOnly s i).2 r 0 (by decide) (by simp [h])

theorem sampled_fields (s : State) (i : SampleIn) : rgF (sampled s i) .annstat 0 31 24 = i.temp.toNat ∧
    rgF (sampled s i) .annstat 0 23 12 = i.vin.toNat % 4096 ∧ rgF (sampled s i) .annstat 0 63 32 = min (rgF s .annstat 0 63 32 + 1) (2 ^ 32 - 1) := by
  obtain ⟨u, hu⟩ : ∃ u, setRgF (setRgF s .annstat 0 31 24 i.temp.toNat) .annstat 0 23 12 i.vin.toNat = u := ⟨_, rfl⟩
  have htemp : rgF u .annstat 0 31 24 = i.temp.toNat := by
    rw [← hu, rgF_setRgF_field _ _ _ _ _ _ _ _ (by decide) (by decide) (by decide), rgF_setRgF_same _ _ _ _ _ _ (by decide) (by decide)]
    exact Nat.mod_eq_of_lt i.temp.isLt
  have hvin : rgF u .annstat 0 23 12 = i.vin.toNat % 4096 :=
    hu ▸ rgF_setRgF_same _ _ _ _ _ _ (by decide) (by decide)
  have hcount : rgF u .annstat 0 63 32 = rgF s .annstat 0 63 32 := by
    rw [← hu, rgF_setRgF_field _ _ _ _ _ _ _ _ (by decide) (by decide) (by decide),
      rgF_setRgF_field _ _ _ _ _ _ _ _ (by decide) (by decide) (by decide)]
  have hsame : ∀ hi lo, rgF (sampled s i) .annstat 0 hi lo = rgF (incRgF u .annstat 0 63 32) .annstat 0 hi lo := fun hi lo =>
    congrArg (fun v => rgF (incRgF v .annstat 0 63 32) .annstat 0 hi lo) hu
  rw [hsame, hsame, hsame]
  refine ⟨?_, ?_, ?_⟩
  · exact (rgF_setRgF_field _ _ _ _ _ _ _ _ (by decide) (by decide) (by decide)).trans htemp
  · exact (rgF_setRgF_field _ _ _ _ _ _ _ _ (by decide) (by decide) (by decide)).trans hvin
  · rw [rgF_incRgF_same (by decide) (by decide), hcount]

theorem sampleSeen_congr {s t : State} (h1 : rg t .wakectl 0 = rg s .wakectl 0) (h2 : rg t .annctl 0 = rg s .annctl 0) (i : SampleIn) :
    sampleSeen t i = sampleSeen s i := by
  rw [sampleSeen, sampleSeen, h1, h2]

theorem tripReading_first {s : State} {hot : List Nat} (h : ∀ x ∈ hot, x ∉ s.pw.hotSens) :
    tripReading s hot = { s with pw := { s.pw with hotSens := hot } } := by
  have hnone : hot.find? (fun x => s.pw.hotSens.contains x) = none := by
    rw [List.find?_eq_none]
    intro x hx
    simpa using h x hx
  rw [tripReading, hnone]

theorem annealSample_due {s : State} {i : SampleIn} (hp : pkgState s = 5) (hhot : i.hot = []) (htrip : s.pw.tripped = false)
    (hdue : s.pw.sampleAt + rgF s .annctl 0 13 0 * 1000000 ≤ now s) :
    annealSample s i = wakeFires (sampled s i) (sampleSeen s i) (sampleDetail (sampled s i) i) := by
  have hread : tripReading { counted s i with pw := { (counted s i).pw with sampleAt := now (counted s i) } } [] = sampled s i := tripReading_first nofun
  rw [annealSample, if_neg (by omega), hhot]
  change (let t := tripReading { counted s i with pw := { (counted s i).pw with sampleAt := now (counted s i) } } []
    if t.pw.tripped then t else wakeFires t (sampleSeen t i) (sampleDetail t i)) = _
  rw [hread, ← sampleSeen_congr (rg_sampled (i := i) (by simp)) (rg_sampled (by simp)) i]
  exact if_neg (fun h => Bool.false_ne_true (htrip.symm.trans h))

theorem annealSample_early {s : State} {i : SampleIn} (h : now s < s.pw.sampleAt + rgF s .annctl 0 13 0 * 1000000) : annealSample s i = s :=
  if_pos (.inr h)

theorem tripReading_again {s : State} {hot : List Nat} (h : ∃ x ∈ hot, x ∈ s.pw.hotSens) : ∃ d, tripReading s hot = tripAt s d := by
  obtain ⟨x, hx⟩ : ∃ x, hot.find? (fun x => s.pw.hotSens.contains x) = some x := by
    obtain ⟨x, hx, hm⟩ := h
    exact Option.isSome_iff_exists.mp (List.find?_isSome.mpr ⟨x, hx, by simpa using hm⟩)
  exact ⟨x / 8, by rw [tripReading, hx]⟩

theorem tripAt_cold (s : State) (d : Nat) :
    (tripAt s d).pw.tripped = true ∧ (tripAt s d).resetN = false ∧ (tripAt s d).dram = [] ∧ (tripAt s d).cores = [] := by
  have hcold := coldState_cold (hlDevice s 0x0032 0 d 0)
  unfold tripAt
  generalize coldState _ = u at hcold
  obtain ⟨⟨hdram, hcores, _⟩, _⟩ := hcold
  exact ⟨rfl, rfl, hdram, hcores⟩

/-! ### The thermal alert (R564) -/

theorem stkOf_setStk_same (s : State) (n : Nat) (x : Stk) : stkOf (setStk s n x) n = x := tget_tset_same _

theorem stkOf_setStk_ne {s : State} {n m : Nat} {x : Stk} (h : m ≠ n) : stkOf (setStk s n x) m = stkOf s m := tget_tset_ne h _

/-- Whether a stack at a temperature is above ALERT. -/
def alerts (s : State) (tmax : Nat) : Bool := decide (alertQ s ≤ toSigned 16 tmax)

/-- From s to t the stacks in `done` were judged at the temperatures g, and nothing else changed. -/
structure Judged (g : Nat → Nat) (done : List Nat) (s t : State) : Prop where
  rest : { t with regs := s.regs, stk := s.stk, mpPend := s.mpPend } = s
  regs : ∀ r i, i < 2 ^ 32 → r ≠ .intsrc → rg t r i = rg s r i
  seen : ∀ n ∈ done, stkOf t n = { stkOf s n with tmax := g n, hot := alerts s (g n) }
  others : ∀ n, n ∉ done → stkOf t n = stkOf s n
  raised : ∀ n ∈ done, (stkOf t n).hot ≠ (stkOf s n).hot → bit (rg t .intsrc (32 * n + 6)) 1 = true

theorem judgeHot_eq (s : State) (n : Nat) : judgeHot s n = if alerts s (stkOf s n).tmax = (stkOf s n).hot then s
    else raiseSrc (setStk s n { stkOf s n with hot := alerts s (stkOf s n).tmax }) (32 * n + 6) := rfl

/-- What judging a stack does once its temperature is in place. -/
theorem judgeHot_spec {g : Nat → Nat} {n : Nat} (hn : n < 12) {s u : State} (hrest : { u with stk := s.stk } = s)
    (hsame : stkOf u n = { stkOf s n with tmax := g n }) (hne : ∀ m, m ≠ n → stkOf u m = stkOf s m) :
    Judged g [n] s (judgeHot u n) ∧ ∀ j, bit (rg s .intsrc j) 1 = true → bit (rg (judgeHot u n) .intsrc j) 1 = true := by
  have hregs : u.regs = s.regs := by
    have := congrArg State.regs hrest
    exact this
  have hpend : u.mpPend = s.mpPend := by
    have := congrArg State.mpPend hrest
    exact this
  have hrg : ∀ r i, rg u r i = rg s r i := fun r i => congrArg (fun x => rg { s with regs := x } r i) hregs
  have halert : alerts u (g n) = alerts s (g n) := by
    unfold alerts alertQ rgF
    rw [hrg]
  rw [judgeHot_eq, hsame]
  dsimp only
  rw [halert]
  split
  next h =>
    refine ⟨⟨?_, fun r i _ _ => hrg r i, fun m hm => ?_, fun m hm => hne m (by simpa using hm), fun m hm hn => ?_⟩, fun j hj => by rwa [hrg]⟩
    · calc { u with regs := s.regs, stk := s.stk, mpPend := s.mpPend }
          = { ({ u with stk := s.stk } : State) with regs := s.regs, mpPend := s.mpPend } := rfl
        _ = s := by rw [hrest]
    · rw [List.mem_singleton.mp hm, hsame, h]
    · rw [List.mem_singleton.mp hm, hsame] at hn
      exact absurd rfl hn
  next h =>
    refine ⟨⟨?_, fun r i hi hr => ?_, fun m hm => ?_, fun m hm => ?_, fun m hm _ => ?_⟩, fun j hj => ?_⟩
    · generalize ({ stkOf s n with tmax := g n, hot := alerts s (g n) } : Stk) = x
      calc { raiseSrc (setStk u n x) (32 * n + 6) with regs := s.regs, stk := s.stk, mpPend := s.mpPend }
          = { ({ u with stk := s.stk } : State) with regs := s.regs, mpPend := s.mpPend } := rfl
        _ = s := by rw [hrest]
    · exact (rg_raiseSrc (by omega) hi (by simp [hr])).trans (hrg r i)
    · rw [List.mem_singleton.mp hm]
      exact stkOf_setStk_same ..
    · exact (stkOf_setStk_ne (by simpa using hm)).trans (hne m (by simpa using hm))
    · rw [List.mem_singleton.mp hm]
      exact bit_raiseSrc (by omega)
    · exact bit_raiseSrc_kept _ (by
        have : rg u .intsrc j = rg s .intsrc j := hrg ..
        rw [← this] at hj
        exact hj)

theorem Judged.alerts {g : Nat → Nat} {done : List Nat} {s t : State} (h : Judged g done s t) (x : Nat) : alerts t x = alerts s x := by
  unfold Machine.alerts alertQ rgF
  rw [h.regs .pcapctl 0 (by decide) (by simp)]

/-- Judging goes on to a further stack. -/
theorem Judged.step {g : Nat → Nat} {done : List Nat} {s t u : State} {n : Nat} (h : Judged g done s t) (hnew : n ∉ done)
    (hu : Judged g [n] t u) (hkept : ∀ j, bit (rg t .intsrc j) 1 = true → bit (rg u .intsrc j) 1 = true) : Judged g (n :: done) s u := by
  have hold : stkOf t n = stkOf s n := h.others n hnew
  refine ⟨?_, fun r i hi hr => (hu.regs r i hi hr).trans (h.regs r i hi hr), fun m hm => ?_, fun m hm => ?_, fun m hm hne => ?_⟩
  · rw [← h.rest, ← hu.rest]
  · rcases List.mem_cons.mp hm with rfl | hm'
    · rw [hu.seen m List.mem_cons_self, hold, h.alerts]
    · rw [hu.others m (fun hmem => hnew (List.mem_singleton.mp hmem ▸ hm')), h.seen m hm']
  · have h1 : m ≠ n := fun he => hm (he ▸ List.mem_cons_self)
    rw [hu.others m (by simpa using h1), h.others m fun hd => hm (List.mem_cons_of_mem _ hd)]
  · rcases List.mem_cons.mp hm with rfl | hm'
    · exact hu.raised m List.mem_cons_self (hold ▸ hne)
    · have hsame : stkOf u m = stkOf t m := hu.others m (fun hmem => hnew (List.mem_singleton.mp hmem ▸ hm'))
      exact hkept _ (h.raised m hm' (hsame ▸ hne))

/-- Judging every stack of a list. -/
theorem Judged.foldl {g : Nat → Nat} {f : State → Nat → State} {s : State}
    (hf : ∀ (done : List Nat) (t : State) (n : Nat), Judged g done s t → n ∉ done → n < 12 →
      Judged g [n] t (f t n) ∧ ∀ j, bit (rg t .intsrc j) 1 = true → bit (rg (f t n) .intsrc j) 1 = true) :
    ∀ (l done : List Nat) (t : State), Judged g done s t → (∀ n ∈ l, n ∉ done ∧ n < 12) → l.Nodup → Judged g (l.reverse ++ done) s (l.foldl f t)
  | [], _, _, h, _, _ => h
  | n :: l, done, t, h, hl, hnd => by
    obtain ⟨hnew, hlt⟩ := hl n List.mem_cons_self
    obtain ⟨hstep, hkept⟩ := hf done t n h hnew hlt
    have hnot := (List.nodup_cons.mp hnd).1
    have hgo := Judged.foldl hf l (n :: done) (f t n) (h.step hnew hstep hkept) (fun m hm => ⟨fun hd => ?_, (hl m (List.mem_cons_of_mem _ hm)).2⟩)
      (List.nodup_cons.mp hnd).2
    · simpa using hgo
    · rcases List.mem_cons.mp hd with rfl | hd'
      · exact hnot hm
      · exact (hl m (List.mem_cons_of_mem _ hm)).1 hd'

theorem Judged.nil (g : Nat → Nat) (s : State) : Judged g [] s s := ⟨rfl, fun _ _ _ _ => rfl, nofun, fun _ _ => rfl, nofun⟩

/-- Every stack is given its temperature and judged. -/
theorem judged_given (g : Nat → Nat) (s : State) :
    Judged g (List.range 12).reverse s ((List.range 12).foldl (fun s n => judgeHot (setStk s n { stkOf s n with tmax := g n }) n) s) := by
  have h := Judged.foldl (g := g) (s := s) (f := fun s n => judgeHot (setStk s n { stkOf s n with tmax := g n }) n)
    (fun done t n _ _ hn => judgeHot_spec hn rfl (stkOf_setStk_same ..) fun m hm => stkOf_setStk_ne hm)
    (List.range 12) [] s (.nil g s) (fun n hn => ⟨nofun, List.mem_range.mp hn⟩) List.nodup_range
  simpa using h

/-- Every stack is judged again at its temperature. -/
theorem judged_again (s : State) : Judged (fun n => (stkOf s n).tmax) (List.range 12).reverse s ((List.range 12).foldl judgeHot s) := by
  have h := Judged.foldl (g := fun n => (stkOf s n).tmax) (s := s) (f := judgeHot)
    (fun done t n ht hnew hn => judgeHot_spec hn rfl (by rw [ht.others n hnew]) fun m _ => rfl)
    (List.range 12) [] s (.nil _ s) (fun n hn => ⟨nofun, List.mem_range.mp hn⟩) List.nodup_range
  simpa using h

/-! ### Link states (R346) -/

theorem lsReg_lt_of {n : Nat} (h : n < 48) : (lsReg n).2 < 2 ^ 32 := by
  unfold lsReg
  split <;> dsimp only <;> omega

theorem lsReg_ne {n m : Nat} (h : m ≠ n) : lsReg m ≠ lsReg n := by
  unfold lsReg
  split <;> split <;> simp <;> omega

theorem lsReg_name (n : Nat) : (lsReg n).1 = .linkstat ∨ (lsReg n).1 = .hubLinkstat := by
  unfold lsReg
  split
  · exact .inl rfl
  · exact .inr rfl

theorem lsReg_ne_intsrc (m k : Nat) : lsReg m ≠ (.intsrc, k) := by
  intro he
  rcases lsReg_name m with hr | hr <;> rw [he] at hr <;> cases hr

theorem linkSrc_lt {n : Nat} (h : n < 48) : linkSrc n < 2 ^ 32 := by
  unfold linkSrc
  split_ifs <;> omega

/-- From s to t link n's LINKSTAT, its source and its end's times changed, and nothing else. -/
structure LinkOnly (n : Nat) (s t : State) : Prop where
  rest : { t with regs := s.regs, ends := s.ends, mpPend := s.mpPend } = s
  regs : ∀ r i, i < 2 ^ 32 → (r, i) ≠ lsReg n → (r, i) ≠ (.intsrc, linkSrc n) → rg t r i = rg s r i

section
variable {n : Nat} {s t u : State}

theorem LinkOnly.trans (h1 : LinkOnly n s t) (h2 : LinkOnly n t u) : LinkOnly n s u := by
  refine ⟨?_, fun r i hi hr hs => (h2.regs r i hi hr hs).trans (h1.regs r i hi hr hs)⟩
  rw [← h1.rest, ← h2.rest]

theorem LinkOnly.rgF (h : LinkOnly n s t) {r : RegName} {i : Nat} (hi : i < 2 ^ 32) (h1 : (r, i) ≠ lsReg n) (h2 : (r, i) ≠ (.intsrc, linkSrc n))
    (top lo : Nat) : Machine.rgF t r i top lo = Machine.rgF s r i top lo := congrArg (fld · top lo) (h.regs r i hi h1 h2)

theorem linkOnly_setLsF (hn : n < 48) (s : State) (hi lo x : Nat) : LinkOnly n s (setLsF s n hi lo x) :=
  ⟨rfl, fun _ _ hi' hr _ => rg_setRg_other (lsReg_lt_of hn) hi' hr⟩

theorem setLsState_eq (s : State) (n x : Nat) : ∃ (v : State) (e : LinkEnd), setLsState s n x = setLsF (setEnd v n e) n 3 0 x ∧
    (v = s ∨ v = raiseSrc s (linkSrc n)) := by
  unfold setLsState
  dsimp only
  split
  · exact ⟨s, _, rfl, .inl rfl⟩
  · exact ⟨_, _, rfl, .inr rfl⟩

theorem linkOnly_setLsState (hn : n < 48) (s : State) (x : Nat) : LinkOnly n s (setLsState s n x) := by
  obtain ⟨v, e, he, hv⟩ := setLsState_eq s n x
  rw [he]
  refine LinkOnly.trans ?_ (linkOnly_setLsF hn ..)
  rcases hv with rfl | rfl
  · exact ⟨rfl, fun _ _ _ _ _ => rfl⟩
  · exact ⟨rfl, fun r i hi _ hs => rg_raiseSrc (linkSrc_lt hn) hi hs⟩

theorem lsState_setLsState_same (s : State) (n x : Nat) : lsState (setLsState s n x) n = x % 16 := by
  obtain ⟨v, e, he, _⟩ := setLsState_eq s n x
  rw [he]
  exact rgF_setRgF_same _ _ _ _ _ _ (by decide) (by decide)

theorem lsState_setLsF {hi lo : Nat} (h1 : hi < 64) (h2 : lo ≤ hi) (h3 : 3 < lo) (s : State) (n x : Nat) :
    lsState (setLsF s n hi lo x) n = lsState s n := rgF_setRgF_field _ _ _ _ _ _ _ _ h1 h2 (.inl h3)

/-- The other links keep their states. -/
theorem LinkOnly.lsState (h : LinkOnly n s t) {m : Nat} (hm : m < 48) (hne : m ≠ n) : Machine.lsState t m = Machine.lsState s m := by
  exact h.rgF (lsReg_lt_of hm) (lsReg_ne hne) (lsReg_ne_intsrc m _) 3 0

theorem linkOnly_beginTrain (hn : n < 48) (s : State) : LinkOnly n s (beginTrain s n) := (linkOnly_setLsState hn s 1).trans (linkOnly_setLsF hn ..)

theorem lsState_beginTrain (s : State) (n : Nat) : Machine.lsState (beginTrain s n) n = 1 :=
  (lsState_setLsF (by decide) (by decide) (by decide) ..).trans (lsState_setLsState_same s n 1)

end

/-! ### The steps of a wake (R556) -/

/-- What the memory step does to an end: one in RESET of a stack that is not fenced begins to train. -/
def trainStep (s : State) (n : Nat) : State :=
  if lsState s n = 0 ∧ !(stkFenced s (if n < 36 then n / 3 else n - 36)) then beginTrain s n else s

/-- From s to t the ends in `done` were given their training step, and the rest of the block but registers is as it was. -/
structure Trained (done : List Nat) (s t : State) : Prop where
  rest : { t with regs := s.regs, ends := s.ends, mpPend := s.mpPend } = s
  trains : ∀ n ∈ done, lsState s n = 0 → stkFenced s (if n < 36 then n / 3 else n - 36) = false → lsState t n = 1
  others : ∀ n, n < 48 → n ∉ done → lsState t n = lsState s n

theorem Trained.step {done : List Nat} {s t : State} (h : Trained done s t) {n : Nat} (hn : n < 48) (hnew : n ∉ done)
    (hdone : ∀ m ∈ done, m < 48) : Trained (n :: done) s (trainStep t n) := by
  have hstate : lsState t n = lsState s n := h.others n hn hnew
  have hfenced : t.fencedStk = s.fencedStk := by rw [← h.rest]
  by_cases hgo : lsState t n = 0 ∧ !(stkFenced t (if n < 36 then n / 3 else n - 36))
  · rw [trainStep, if_pos hgo]
    have honly := linkOnly_beginTrain hn t
    have hone := lsState_beginTrain t n
    generalize beginTrain t n = u at honly hone
    refine ⟨by rw [← h.rest, ← honly.rest], fun m hm h0 hf => ?_, fun m hm hmd => ?_⟩
    · rcases List.mem_cons.mp hm with rfl | hm'
      · exact hone
      · exact (honly.lsState (hdone m hm') (fun he => hnew (he ▸ hm'))).trans (h.trains m hm' h0 hf)
    · have hne : m ≠ n := fun he => hmd (he ▸ List.mem_cons_self)
      exact (honly.lsState hm hne).trans (h.others m hm fun hd => hmd (List.mem_cons_of_mem _ hd))
  · rw [trainStep, if_neg hgo]
    refine ⟨h.rest, fun m hm h0 hf => ?_, fun m hm hmd => h.others m hm fun hd => hmd (List.mem_cons_of_mem _ hd)⟩
    rcases List.mem_cons.mp hm with rfl | hm'
    · have hf' : stkFenced t (if m < 36 then m / 3 else m - 36) = false := by
        unfold stkFenced
        rw [hfenced]
        exact hf
      exact absurd ⟨hstate.trans h0, by rw [hf']; rfl⟩ hgo
    · exact h.trains m hm' h0 hf

theorem Trained.foldl {s : State} : ∀ (l done : List Nat) (t : State), Trained done s t → (∀ n ∈ l, n < 48 ∧ n ∉ done) → l.Nodup →
    (∀ m ∈ done, m < 48) → Trained (l.reverse ++ done) s (l.foldl trainStep t)
  | [], _, _, h, _, _, _ => h
  | n :: l, done, t, h, hl, hnd, hdone => by
    obtain ⟨hn, hnew⟩ := hl n List.mem_cons_self
    obtain ⟨hnot, hnd'⟩ := List.nodup_cons.mp hnd
    have hgo := Trained.foldl l (n :: done) _ (h.step hn hnew hdone)
      (fun m hm => ⟨(hl m (List.mem_cons_of_mem _ hm)).1, fun hd => ?_⟩) hnd' (List.forall_mem_cons.mpr ⟨hn, hdone⟩)
    · simpa using hgo
    · rcases List.mem_cons.mp hd with rfl | hd'
      · exact hnot hm
      · exact (hl m (List.mem_cons_of_mem _ hm)).2 hd'

theorem Trained.pw {done : List Nat} {s t : State} (h : Trained done s t) : t.pw = s.pw := by rw [← h.rest]

theorem trained_all (s : State) : Trained (List.range 48).reverse s ((List.range 48).foldl trainStep s) := by
  have h := Trained.foldl (List.range 48) [] s ⟨rfl, nofun, fun _ _ _ => rfl⟩ (fun n hn => ⟨List.mem_range.mp hn, nofun⟩) List.nodup_range nofun
  simpa using h

/-- The next step of a wake. -/
theorem wakeStep_goes {s : State} {w : WakeRun} {n : Nat} (hw : s.pw.wake = some w) (hstep : w.step + 1 = n) (act : State → State) :
    wakeStep s n act = act { s with pw := { s.pw with wake := some { w with step := n, since := now s, again := false } } } := by
  rw [wakeStep, hw]
  exact if_pos hstep

/-- Every domain that left RUN for BANK or ANNEAL is back in it (R558), and the wake is over. -/
def wakenDoms (s : State) : State :=
  let s := bankDoms.foldl (fun s d => setDom s d 0) s
  let s := (s.pw.wasRun.filter (fun d => decide (d ≥ 0x1A4))).foldl (fun s d => setDom s d 0) s
  { s with pw := { s.pw with wake := none, wasRun := [] } }

theorem wakeRestore_spec {s : State} {w : WakeRun} (hw : s.pw.wake = some w) (hstep : w.step = 4) (hlinks : linksUp s = true) (hseen : w.seen < 256)
    (hfrom : w.from_ < 4) (hdet : w.detail < 1024) : let t := wakeRestore s
    pkgState t = 0 ∧ t.pw.wake = none ∧ rg t .lastwaket 0 = BitVec.ofNat 64 w.at_ ∧ rgF t .lastwake 0 63 56 = lowSource w.seen ∧
      bit (rg t .intsrc 926) 1 = true := by
  obtain ⟨u, hu, hwake⟩ : ∃ u, wakenDoms s = u ∧ u.pw.wake = none := ⟨_, rfl, rfl⟩
  have hrun : wakeRestore s = (List.range 32).foldl lgWake (raiseSrc (writeLastWake (setPkgState (wakenDoms s) 0) w.seen w.detail w.from_ 0 0 w.at_) 926) := by
    rw [wakeRestore, hw]
    exact if_neg (by simp [hstep, hlinks])
  rw [hu] at hrun
  obtain ⟨v, hv⟩ : ∃ v, setPkgState u 0 = v := ⟨_, rfl⟩
  have hstate : pkgState v = 0 := hv ▸ pkgState_setPkgState u 0
  have hnone : v.pw.wake = none := hv ▸ (wake_setPkgState u 0).trans hwake
  obtain ⟨hword, htime, honly⟩ := rg_writeLastWake v w.seen w.detail w.from_ 0 0 w.at_
  have hfields := (lastWakeWord_fields (seen := w.seen) (from_ := w.from_) (fail := 0) (step := 0) hdet (by decide) (by decide)).1 hseen hfrom
  intro t
  obtain ⟨x, hx⟩ : ∃ x, writeLastWake v w.seen w.detail w.from_ 0 0 w.at_ = x := ⟨_, rfl⟩
  have ht : t = (List.range 32).foldl lgWake (raiseSrc x 926) := by rw [← hx, ← hv]; exact hrun
  rw [hx] at hword htime honly
  have hlane : LaneOnly (raiseSrc x 926) t := ht ▸ LaneOnly.foldl (.refl _) fun y g hg => .lgWake (.refl y) (List.mem_range.mp hg)
  have hpw : t.pw = x.pw := by
    have : t.pw = (raiseSrc x 926).pw := by rw [← hlane.rest]
    exact this
  have hreg : ∀ r, r ∉ laneNames → rg t r 0 = rg x r 0 := fun r hr =>
    (hlane.regs r 0 (by decide) hr).trans (rg_raiseSrc (by decide) (by decide) fun he => hr ((Prod.mk.inj he).1 ▸ by decide))
  refine ⟨?_, ?_, ?_, ?_, hlane.pend 926 (by decide) (bit_raiseSrc (by decide))⟩
  · unfold pkgState rgF
    rw [hreg _ (by decide)]
    exact (honly.rgF (by decide) (by simp) ..).trans hstate
  · rw [hpw, ← hnone, ← honly.1]
  · rw [hreg _ (by decide), htime]
  · rw [rgF, hreg _ (by decide), hword, hfields]

/-! ### A wake that fails (R557) -/

/-- A closing domain is open again, and the abort is counted. -/
def openedAgain (s : State) (d : Nat) : State :=
  match domStop d with
  | some st => incFab (setDom s d 0) st.die 15 0
  | none => setDom s d 0

theorem openedAgain_pw (s : State) (d : Nat) : (openedAgain s d).pw = s.pw := by
  unfold openedAgain
  cases domStop d with
  | none => exact setDom_pw ..
  | some st => exact (show (incFab (setDom s d 0) st.die 15 0).pw = (setDom s d 0).pw from rfl).trans (setDom_pw ..)

theorem abortClose_eq (s : State) (d : Nat) : abortClose s d = (match (openedAgain s d).pw.dom with
    | some (e, _) =>
      if e = d then setRgF { openedAgain s d with pw := { (openedAgain s d).pw with dom := none } } .domstat 0 7 0 3 else openedAgain s d
    | none => openedAgain s d) := by
  unfold abortClose openedAgain
  cases domStop d <;> rfl

theorem abortClose_wake (s : State) (d : Nat) : (abortClose s d).pw.wake = s.pw.wake := by
  rw [abortClose_eq, ← openedAgain_pw s d]
  generalize openedAgain s d = u
  cases u.pw.dom with
  | none => rfl
  | some x =>
    dsimp only
    split <;> rfl

theorem wakeDom_wake (s : State) (d : Nat) : (wakeDom s d).pw.wake = s.pw.wake := by
  unfold wakeDom
  split
  · cases domStop d with
    | none => rfl
    | some st =>
      dsimp only
      split
      · exact abortClose_wake s d
      · rfl
  · split
    · rw [setDom_pw]
    · rfl

/-- The start of a warm reset leaves the wake and the registers but those of domains. -/
theorem begun_kept (s : State) : (begun s .warm).pw.wake = s.pw.wake ∧ ∀ r i, i < 2 ^ 32 → r ∉ domNames → rg (begun s .warm) r i = rg s r i := by
  refine List.foldlRecOn (motive := fun t : State => t.pw.wake = s.pw.wake ∧ ∀ r i, i < 2 ^ 32 → r ∉ domNames → rg t r i = rg s r i) _ _
    ⟨rfl, fun _ _ _ _ => rfl⟩ fun t ht c hc => ?_
  have hlt : c < 240 := List.mem_range.mp hc
  have honly := domOnly_wakeDom (d := c) (by omega) t
  exact ⟨(wakeDom_wake t c).trans ht.1, fun r i hi hr => (honly.regs r i hi hr).trans (ht.2 r i hi hr)⟩

theorem wakeLate_fails {s : State} {w : WakeRun} (hw : s.pw.wake = some w) (hdue : w.since + wakeLimit w.step ≤ now s) (hagain : w.again = true)
    (hstep : w.step < 8) (hdet : w.detail < 1024) : let t := wakeLate s
    t.pw.wake = none ∧ pkgState t = 0 ∧ t.rs.run = some ⟨.warm, 3, 0⟩ ∧ rgF t .lastwake 0 45 45 = 1 ∧ rgF t .lastwake 0 44 42 = w.step := by
  obtain ⟨u, hu, hwake⟩ : ∃ u, { s with pw := { s.pw with wake := none } } = u ∧ u.pw.wake = none := ⟨_, rfl, rfl⟩
  have hrun : wakeLate s = rstStart (hlDevice (writeLastWake (setPkgState u 0) w.seen w.detail w.from_ 1 w.step w.at_) 0x0033 0 w.step 0) .warm 3 := by
    rw [wakeLate, hw]
    dsimp only
    rw [if_neg (by omega), if_neg (by simp [hagain]), hu]
  obtain ⟨v, hv⟩ : ∃ v, setPkgState u 0 = v := ⟨_, rfl⟩
  have hstate : pkgState v = 0 := hv ▸ pkgState_setPkgState u 0
  have hnone : v.pw.wake = none := hv ▸ (wake_setPkgState u 0).trans hwake
  obtain ⟨hword, _, honly⟩ := rg_writeLastWake v w.seen w.detail w.from_ 1 w.step w.at_
  obtain ⟨_, _, hfail, hat⟩ := lastWakeWord_fields (seen := w.seen) (from_ := w.from_) (fail := 1) (step := w.step) hdet hstep (by decide)
  rw [hv] at hrun
  obtain ⟨x, hx⟩ : ∃ x, writeLastWake v w.seen w.detail w.from_ 1 w.step w.at_ = x := ⟨_, rfl⟩
  rw [hx] at hword honly hrun
  obtain ⟨y, hy⟩ : ∃ y, hlDevice x 0x0033 0 w.step 0 = y := ⟨_, rfl⟩
  have hlog : { y with hlog := x.hlog } = x := hy ▸ hlDevice_only ..
  have hyregs : y.regs = x.regs := by rw [← hlog]
  have hypw : y.pw = x.pw := by rw [← hlog]
  have hxpw : x.pw = v.pw := by rw [← honly.1]
  rw [hy, rstStart_begun] at hrun
  obtain ⟨hbw, hbr⟩ := begun_kept y
  generalize begun y .warm = z at hrun hbw hbr
  intro t
  have hreg : ∀ r, r ∉ domNames → rg t r 0 = rg x r 0 := fun r hr => by
    have h1 : rg t r 0 = rg z r 0 := by
      have := congrArg (fun s => rg s r 0) hrun
      exact this
    have h2 : rg y r 0 = rg x r 0 := congrArg (fun l => rg { x with regs := l } r 0) hyregs
    exact h1.trans ((hbr r 0 (by decide) hr).trans h2)
  refine ⟨?_, ?_, ?_, ?_, ?_⟩
  · have h1 : t.pw = z.pw := by
      have := congrArg State.pw hrun
      exact this
    rw [h1, hbw, hypw, hxpw, hnone]
  · unfold pkgState rgF
    rw [hreg _ (by decide)]
    exact (honly.rgF (by decide) (by simp) ..).trans hstate
  · have := congrArg (fun s => s.rs.run) hrun
    exact this
  · rw [rgF, hreg _ (by decide), hword, hfail]
  · rw [rgF, hreg _ (by decide), hword, hat]

/-! ### The loops (R564, R565) -/

/-- A setpoint that is computed again leaves what the loops set, and the other stacks. -/
theorem reVolt_kept (s : State) (n : Nat) : { reVolt s n with regs := s.regs, stk := s.stk } = s ∧
    (∃ v b, stkOf (reVolt s n) n = { stkOf s n with setpoint := v, slewing := b }) ∧ (∀ m, m ≠ n → stkOf (reVolt s n) m = stkOf s m) := by
  unfold reVolt
  dsimp only
  split
  · exact ⟨rfl, ⟨(stkOf s n).setpoint, (stkOf s n).slewing, rfl⟩, fun m hm => rfl⟩
  · exact ⟨rfl, ⟨_, _, stkOf_setStk_same ..⟩, fun m hm => stkOf_setStk_ne hm⟩

/-- A loop's step: the ceiling and the time it sets stay as the setpoint is computed again. -/
theorem loop_kept {α β : Type} {f : Stk → α} {g : Stk → β} (hf : ∀ x v b, f { x with setpoint := v, slewing := b } = f x)
    (hg : ∀ x v b, g { x with setpoint := v, slewing := b } = g x) (s : State) (n : Nat) (x : Stk) : let t := reVolt (setStk s n x) n
    f (stkOf t n) = f x ∧ g (stkOf t n) = g x ∧ ∀ m, m ≠ n → stkOf t m = stkOf s m := by
  obtain ⟨_, ⟨v, b, hsame⟩, hne⟩ := reVolt_kept (setStk s n x) n
  rw [stkOf_setStk_same] at hsame
  intro t
  exact ⟨by rw [hsame, hf], by rw [hsame, hg], fun m hm => (hne m hm).trans (stkOf_setStk_ne hm)⟩

theorem reVolt_regs {n : Nat} (s : State) : ∃ x, (reVolt s n).regs = (setRgF s .pcapstat 0 n n x).regs := by
  unfold reVolt
  dsimp only
  split
  · exact ⟨_, rfl⟩
  · exact ⟨_, rfl⟩

theorem rgF_reVolt {n : Nat} (hn : n < 12) {lo : Nat} (hlo : 12 ≤ lo) (s : State) (hi : Nat) : rgF (reVolt s n) .pcapstat 0 hi lo = rgF s .pcapstat 0 hi lo := by
  obtain ⟨x, hx⟩ := reVolt_regs (n := n) s
  have h1 : rgF (reVolt s n) .pcapstat 0 hi lo = rgF (setRgF s .pcapstat 0 n n x) .pcapstat 0 hi lo :=
    congrArg (fun l => rgF { s with regs := l } .pcapstat 0 hi lo) hx
  exact h1.trans (rgF_setRgF_field _ _ _ _ _ _ _ _ (by omega) (by omega) (by omega))

theorem rgF_reVoltAll {lo : Nat} (hlo : 12 ≤ lo) (s : State) (hi : Nat) : rgF (reVoltAll s) .pcapstat 0 hi lo = rgF s .pcapstat 0 hi lo :=
  List.foldlRecOn (motive := fun t => rgF t .pcapstat 0 hi lo = rgF s .pcapstat 0 hi lo) _ _ rfl fun t ht _ hn =>
    (rgF_reVolt (List.mem_range.mp hn) hlo t hi).trans ht

theorem reVoltAll_pw (s : State) : (reVoltAll s).pw = s.pw :=
  List.foldlRecOn (motive := fun t : State => t.pw = s.pw) _ _ rfl fun t ht n _ => ((congrArg State.pw (reVolt_kept t n).1 :) : (reVolt t n).pw = t.pw).trans ht

theorem setPkgCeil_spec (s : State) (x : Nat) : rgF (setPkgCeil s x) .pcapstat 0 63 52 = x % 4096 ∧
    rgF (setPkgCeil s x) .pcapstat 0 47 32 = rgF s .pcapstat 0 47 32 ∧ (setPkgCeil s x).pw = s.pw := by
  obtain ⟨u, hu⟩ : ∃ u, setRgF s .pcapstat 0 63 52 x = u := ⟨_, rfl⟩
  have hceil : rgF u .pcapstat 0 63 52 = x % 4096 := hu ▸ rgF_setRgF_same _ _ _ _ _ _ (by decide) (by decide)
  have hpower : rgF u .pcapstat 0 47 32 = rgF s .pcapstat 0 47 32 := hu ▸ rgF_setRgF_field _ _ _ _ _ _ _ _ (by decide) (by decide) (by decide)
  have hpw : u.pw = s.pw := hu ▸ rfl
  obtain ⟨v, hv, hcase⟩ : ∃ v, setPkgCeil s x = reVoltAll v ∧ (v = u ∨ v = raiseSrc u 918) := by
    rw [setPkgCeil, hu]
    refine ⟨_, rfl, ?_⟩
    split
    · exact .inl rfl
    · exact .inr rfl
  have hsame : ∀ hi lo, rgF v .pcapstat 0 hi lo = rgF u .pcapstat 0 hi lo := by
    rcases hcase with rfl | rfl
    · exact fun _ _ => rfl
    · exact fun _ _ => rgF_raiseSrc (by decide) (by decide) (by simp) ..
  have hvpw : v.pw = u.pw := by rcases hcase with rfl | rfl <;> rfl
  rw [hv]
  exact ⟨by rw [rgF_reVoltAll (by decide), hsame, hceil], by rw [rgF_reVoltAll (by decide), hsame, hpower], by rw [reVoltAll_pw, hvpw, hpw]⟩

/-! ### PCAPCTL (R564) -/

theorem pcapctl_locked (v : Word) (lo hi : Nat) (w : Word) (rst : Nat) (top bot : Nat) :
    (⟨hi, lo, .rwl, rst, .range bot top⟩ : FieldDef).written (bit v 32) v w =
      if fld v 32 32 = 0 ∧ bot ≤ fld w hi lo ∧ fld w hi lo ≤ top then fld w hi lo else fld v hi lo := by
  have hbit : fld v 32 32 = (bit v 32).toNat := fld_one_bit v 32
  simp only [FieldDef.written, FieldDef.takes, hbit]
  cases bit v 32 <;> by_cases h2 : bot ≤ fld w hi lo <;> by_cases h3 : fld w hi lo ≤ top <;> simp [h2, h3]

theorem pcapctl_lock (locked : Bool) (v w : Word) :
    (⟨32, 32, .rw1s, 0x0, .any⟩ : FieldDef).written locked v w = 1 ↔ fld v 32 32 = 1 ∨ bit w 32 = true := by
  have hv : fld v 32 32 = (bit v 32).toNat := fld_one_bit v 32
  have hw : fld w 32 32 = (bit w 32).toNat := fld_one_bit w 32
  simp only [FieldDef.written, hv, hw]
  cases bit v 32 <;> cases bit w 32 <;> cases locked <;> simp

/-! ### The obligation -/

/-- Settles O50: the wake sources are `wakeEvent_acts`, the steps of the wake `wakeStep_goes`, `wakeRestore_spec` and `wakeLate_fails`; a reading
judges every stack (`judged_given`). -/
theorem wakeTripAndLoops : Obligations.WakeTripAndLoops := by
  unfold Obligations.WakeTripAndLoops
  refine ⟨fun g s => ?_, fun i s hp hhot htrip => ?_, fun hot s hp hdue => ?_, fun tmax s hp htrip hlen => ?_, fun s => ?_, fun w s hw => ?_, fun n s => ?_,
    fun w slow s => ?_, fun b v s => ?_⟩
  · refine ⟨fun r hr htimer => ?_, fun h => ⟨s, congrArg ok (if_neg (by omega)), rfl⟩⟩
    obtain ⟨i, en, src, det⟩ := r
    have hrun : exec i s = .next (wakeEvent s en src det) ∧ src < 8 ∧ det < 2 ^ 10 := by
      simp only [List.mem_cons, List.not_mem_nil, or_false, Prod.mk.injEq] at hr
      rcases hr with ⟨rfl, rfl, rfl, rfl⟩ | ⟨rfl, rfl, rfl, rfl⟩
      · exact ⟨rfl, by decide, by omega⟩
      · exact ⟨congrArg ok (if_pos (htimer rfl)), by decide, by decide⟩
    obtain ⟨hrun, hsrc, hdet⟩ := hrun
    obtain ⟨hbank, harmed, hidle⟩ := wakeEvent_acts (s := s) (en := en) hsrc hdet
    exact ⟨fun hen hp => ⟨_, hrun, hbank hen hp⟩, fun hen hp => ⟨_, hrun, harmed hen hp⟩, fun hor => ⟨_, hrun, hidle hor⟩⟩
  · refine ⟨fun hdue => ⟨_, congrArg ok (annealSample_due hp hhot htrip hdue), ?_⟩, fun h => ⟨s, congrArg ok (annealSample_early h), rfl⟩⟩
    obtain ⟨htemp, hvin, hcount⟩ := sampled_fields s i
    have hat : (sampled s i).pw.sampleAt = now s := rfl
    have hstate : pkgState (sampled s i) = 5 := by
      unfold pkgState rgF
      rw [rg_sampled (by simp)]
      exact hp
    generalize sampled s i = u at htemp hvin hcount hat hstate
    generalize sampleDetail u i = det
    by_cases h0 : sampleSeen s i = 0
    · have hstay : wakeFires u (sampleSeen s i) det = u := if_pos h0
      rw [hstay]
      exact ⟨htemp, hvin, hcount, hat, fun _ => hstate, fun h => absurd h0 h⟩
    · rw [wakeFires_banked h0 (.inr hstate)]
      obtain ⟨x, hx⟩ : ∃ x, ({ u with pw := { u.pw with wake := some ⟨1, now u, false, sampleSeen s i, det, pkgState u - 3, now u⟩ } } : State) = x := ⟨_, rfl⟩
      have hwake : x.pw.wake = some ⟨1, now u, false, sampleSeen s i, det, pkgState u - 3, now u⟩ := by rw [← hx]
      have hxat : x.pw.sampleAt = u.pw.sampleAt := by rw [← hx]
      have hxreg : ∀ hi lo, rgF x .annstat 0 hi lo = rgF u .annstat 0 hi lo := fun hi lo => hx ▸ rfl
      have hreg : ∀ hi lo, rgF (setPkgState x 3) .annstat 0 hi lo = rgF u .annstat 0 hi lo := fun hi lo =>
        ((setPkgState_regsOnly x 3).rgF (by decide) (by simp) ..).trans (hxreg hi lo)
      rw [hx, hreg, hreg, hreg, (setPkgState_pw x 3).1, hxat, wake_setPkgState, hwake, pkgState_setPkgState]
      exact ⟨htemp, hvin, hcount, hat, fun h => absurd h h0, fun _ => ⟨rfl, _, rfl, rfl, rfl⟩⟩
  · refine ⟨fun h => ⟨_, congrArg ok ((if_pos ⟨hp.symm, hdue⟩).trans (tripReading_first ?_)), rfl⟩, fun h => ?_⟩
    · intro x hx
      obtain ⟨y, hy, rfl⟩ := List.mem_map.mp hx
      exact h y hy
    · obtain ⟨x, hx, hm⟩ := h
      obtain ⟨d, hd⟩ := tripReading_again (s := { s with pw := { s.pw with sampleAt := now s } }) (hot := hot.map (·.toNat)) ⟨_, List.mem_map_of_mem hx, hm⟩
      exact ⟨_, congrArg ok ((if_pos ⟨hp.symm, hdue⟩).trans hd), tripAt_cold _ d⟩
  · have hfold : sensorRead s tmax [] = tripReading ((List.range 12).foldl (fun s n =>
        judgeHot (setStk s n { stkOf s n with tmax := (tmax.getD n 0).toNat }) n) s) [] := by
      rw [sensorRead, if_neg (by simp [htrip]; omega)]
      refine congrArg (tripReading · []) (List.foldl_ext _ _ _ fun u n hn => ?_)
      have hlt : n < tmax.length := hlen ▸ List.mem_range.mp hn
      simp [List.getElem?_eq_getElem hlt, List.getD_eq_getElem?_getD]
    have hjudged := judged_given (fun n => (tmax.getD n 0).toNat) s
    generalize (List.range 12).foldl _ s = u at hfold hjudged
    refine ⟨_, congrArg ok (hfold.trans (tripReading_first nofun)), rfl, fun n hn => ?_⟩
    have hmem : n ∈ (List.range 12).reverse := by simpa using hn
    have hseen := hjudged.seen n hmem
    refine ⟨?_, ?_, hjudged.raised n hmem⟩
    · exact congrArg Stk.tmax hseen
    · have hhot : (stkOf u n).hot = alerts s (tmax.getD n 0).toNat := congrArg Stk.hot hseen
      change (stkOf u n).hot = true ↔ _
      rw [hhot]
      exact decide_eq_true_iff
  · refine ⟨?_, fun hk => ⟨⟨_, congrArg ok (if_pos hk), rfl, rfl, rfl⟩, ⟨_, congrArg ok (if_pos hk), rfl, rfl, rfl⟩⟩, fun hk i hi => ?_⟩
    · by_cases hp : pkgState s = 5
      · have hrun : exec .vstbyFail s = .next (setPkgState { s with vstby := false } 4) := congrArg ok (if_pos hp)
        rw [if_pos hp]
        refine ⟨_, hrun, ?_, pkgState_setPkgState .., setPkgState_regsOnly { s with vstby := false } 4, ?_⟩
        · exact (setPkgState_out (by decide) _).1
        · rw [(setPkgState_out (by decide) _).2]
          exact if_congr (by simp [hp]) rfl rfl
      · have hrun : exec .vstbyFail s = .next { s with vstby := false } := congrArg ok (if_neg hp)
        refine ⟨_, hrun, rfl, (if_neg hp).symm, .refl _ _, (if_neg fun h => hp h.1).symm⟩
    · have hrun : exec i s = .next s := by
        simp only [List.mem_cons, List.not_mem_nil, or_false] at hi
        rcases hi with rfl | rfl <;> exact congrArg ok (if_neg (by simp [hk]))
      exact ⟨s, hrun, rfl⟩
  · obtain ⟨x, hx⟩ : ∃ x : Nat → State, x = fun n => { s with pw := { s.pw with wake := some { w with step := n, since := now s, again := false } } } :=
      ⟨_, rfl⟩
    have hwake : ∀ n, (x n).pw.wake = some { w with step := n, since := now s, again := false } := fun n => by rw [hx]
    have hregs : ∀ n, (x n).regs = s.regs ∧ (x n).tbMode = s.tbMode ∧ (x n).fencedStk = s.fencedStk := fun n => by
      rw [hx]
      exact ⟨rfl, rfl, rfl⟩
    have hstep : ∀ n act, w.step + 1 = n → wakeStep s n act = act (x n) := fun n act h => by
      rw [hx]
      exact wakeStep_goes hw h act
    refine ⟨fun h => ⟨x 2, congrArg ok (hstep 2 _ (by omega)), hwake 2, (hregs 2).1⟩, fun h => ?_, fun h => ?_,
      fun h hl hseen hfrom hdet => ⟨_, rfl, wakeRestore_spec hw h hl hseen hfrom hdet⟩, fun h => ⟨s, congrArg ok ?_, rfl⟩, fun hdue hag => ⟨_, congrArg ok ?_, rfl⟩,
      fun hdue hag hst hdet => ⟨_, rfl, wakeLate_fails hw hdue hag hst hdet⟩⟩
    · refine ⟨_, congrArg ok (hstep 3 _ (by omega)), ?_⟩
      obtain ⟨_, htb, _⟩ := hregs 3
      by_cases h0 : s.tbMode = 0
      · rw [if_pos (htb.trans h0), if_pos h0]
        exact ⟨hwake 3, rfl, fun _ => bit_raiseSrc (by decide)⟩
      · rw [if_neg (fun h => h0 (htb.symm.trans h)), if_neg h0]
        exact ⟨hwake 3, htb, fun h => absurd h h0⟩
    · have htrain := trained_all (x 4)
      refine ⟨(List.range 48).foldl trainStep (x 4), congrArg ok (hstep 4 _ (by omega)), ?_, fun n hn h0 hf => ?_⟩
      · exact (congrArg PowerSt.wake htrain.pw).trans (hwake 4)
      · obtain ⟨hr, _, hfen⟩ := hregs 4
        have h0' : lsState (x 4) n = 0 := (congrArg (fun l => lsState { s with regs := l } n) hr).trans h0
        have hf' : stkFenced (x 4) (n / 3) = false := (congrArg (fun l => tget false (n / 3) l) hfen).trans hf
        exact htrain.trains n (by simp; omega) h0' (by rwa [if_pos hn])
    · rw [wakeLate, hw]
      exact if_pos h
    · rw [wakeLate, hw]
      exact (if_neg (by omega)).trans (if_pos (by simp [hag]))
  · refine ⟨fun h1 h2 => ?_, fun h => ⟨s, congrArg ok (if_pos h), rfl⟩, fun h1 h2 => ?_, fun h => ⟨s, congrArg ok (if_pos h), rfl⟩⟩
    · refine ⟨_, congrArg ok (if_neg (by omega)), loop_kept (f := Stk.stkCeil) (g := Stk.lowAt) (fun _ _ _ => rfl) (fun _ _ _ => rfl) s n _⟩
    · refine ⟨_, congrArg ok (if_neg (by omega)), loop_kept (f := Stk.stkCeil) (g := Stk.highAt) (fun _ _ _ => rfl) (fun _ _ _ => rfl) s n _⟩
  · obtain ⟨u, hu⟩ : ∃ u, setRgF s .pcapstat 0 47 32 w.toNat = u := ⟨_, rfl⟩
    have hpower : rgF u .pcapstat 0 47 32 = w.toNat :=
      hu ▸ (rgF_setRgF_same _ _ _ _ _ _ (by decide) (by decide)).trans (Nat.mod_eq_of_lt w.isLt)
    have hceil : rgF u .pcapstat 0 63 52 = rgF s .pcapstat 0 63 52 := hu ▸ rgF_setRgF_field _ _ _ _ _ _ _ _ (by decide) (by decide) (by decide)
    have hlim : rgF u .pcapctl 0 15 0 = rgF s .pcapctl 0 15 0 := hu ▸ rgF_setRgF_name (by simp) (by decide) (by decide)
    have hpw : u.pw = s.pw := hu ▸ rfl
    have hnow : now u = now s := hu ▸ rfl
    have hlt : rgF s .pcapstat 0 63 52 < 4096 := fld_lt ..
    cases slow with
    | false =>
      by_cases hstay : now s < s.pw.lowAt + 10000 ∨ w.toNat ≤ rgF s .pcapctl 0 15 0
      · have hrun : powerTick s w.toNat false = u := by
          rw [powerTick]
          dsimp only
          rw [hu, if_neg (by decide), hnow, hpw, hlim, if_pos hstay]
        exact ⟨u, congrArg ok hrun, hpower, fun _ _ _ => by omega, fun _ _ => ⟨hceil, hpw⟩, nofun, nofun⟩
      · obtain ⟨x, hx⟩ : ∃ x, ({ u with pw := { u.pw with lowAt := now u } } : State) = x := ⟨_, rfl⟩
        have hrun : powerTick s w.toNat false = setPkgCeil x (max 650 (rgF s .pcapstat 0 63 52 - 5)) := by
          rw [powerTick]
          dsimp only
          rw [hu, if_neg (by decide), hlim, hceil, hx, if_neg (by rw [hnow, hpw]; exact hstay)]
        obtain ⟨hc, hp, hq⟩ := setPkgCeil_spec x (max 650 (rgF s .pcapstat 0 63 52 - 5))
        have hxp : rgF x .pcapstat 0 47 32 = w.toNat := hx ▸ hpower
        have hxat : x.pw.lowAt = now s := hx ▸ hnow
        refine ⟨_, congrArg ok hrun, hp.trans hxp, fun _ _ _ => ⟨hc.trans (Nat.mod_eq_of_lt (by omega)), by rw [hq, hxat]⟩, fun _ h => absurd h hstay, nofun, nofun⟩
    | true =>
      by_cases hstay : now s < s.pw.highAt + 100000 ∨ 98 * rgF s .pcapctl 0 15 0 < 100 * w.toNat
      · have hrun : powerTick s w.toNat true = u := by
          rw [powerTick]
          dsimp only
          rw [hu, if_pos rfl, hnow, hpw, hlim, if_pos hstay]
        exact ⟨u, congrArg ok hrun, hpower, nofun, nofun, fun _ _ _ => by omega, fun _ _ => ⟨hceil, hpw⟩⟩
      · obtain ⟨x, hx⟩ : ∃ x, ({ u with pw := { u.pw with highAt := now u } } : State) = x := ⟨_, rfl⟩
        have hrun : powerTick s w.toNat true = setPkgCeil x (min 950 (rgF s .pcapstat 0 63 52 + 5)) := by
          rw [powerTick]
          dsimp only
          rw [hu, if_pos rfl, hlim, hceil, hx, if_neg (by rw [hnow, hpw]; exact hstay)]
        obtain ⟨hc, hp, hq⟩ := setPkgCeil_spec x (min 950 (rgF s .pcapstat 0 63 52 + 5))
        have hxp : rgF x .pcapstat 0 47 32 = w.toNat := hx ▸ hpower
        have hxat : x.pw.highAt = now s := hx ▸ hnow
        refine ⟨_, congrArg ok hrun, hp.trans hxp, nofun, nofun, fun _ _ _ => ⟨hc.trans (Nat.mod_eq_of_lt (by omega)), by rw [hq, hxat]⟩, fun _ h => absurd h hstay⟩
  · obtain ⟨u, hu⟩ : ∃ u, setRg s .pcapctl 0 (writeFields pcapctlFields (bit (rg s .pcapctl 0) 32) (rg s .pcapctl 0) v) = u := ⟨_, rfl⟩
    have hreg : rg u .pcapctl 0 = writeFields pcapctlFields (bit (rg s .pcapctl 0) 32) (rg s .pcapctl 0) v := hu ▸ rg_setRg_same ..
    have hok : fieldsOk pcapctlFields = true := by decide
    have hstk : ∀ n, stkOf u n = stkOf s n := fun n => hu ▸ rfl
    have hjudged := judged_again u
    have hrun : exec (.pcapctlWrite b v) s = .next ((List.range 12).foldl judgeHot u) := hu ▸ rfl
    refine ⟨_, hrun, ?_⟩
    generalize (List.range 12).foldl judgeHot u = t at hjudged
    have ht : rg t .pcapctl 0 = rg u .pcapctl 0 := hjudged.regs _ _ (by decide) (by simp)
    refine ⟨?_, ?_, ?_, fun n hn => ?_⟩
    · rw [rgF, ht, hreg]
      exact (fld_writeFields hok (f := ⟨15, 0, .rwl, 0x3e8, .range 400 1000⟩) (by decide) _ _ _).trans (pcapctl_locked ..)
    · rw [rgF, ht, hreg]
      exact (fld_writeFields hok (f := ⟨23, 16, .rwl, 0x64, .range 70 105⟩) (by decide) _ _ _).trans (pcapctl_locked ..)
    · rw [rgF, ht, hreg, fld_writeFields hok (f := ⟨32, 32, .rw1s, 0x0, .any⟩) (by decide) _ _ _]
      exact pcapctl_lock ..
    · have hmem : n ∈ (List.range 12).reverse := by simpa using hn
      have hhot : (stkOf t n).hot = alerts u (stkOf u n).tmax := congrArg Stk.hot (hjudged.seen n hmem)
      rw [hhot, ← hjudged.alerts, hstk]
      exact decide_eq_true_iff

end Sys2Proof.Machine
end

section
/-! PROOFS. Domain commands and the entry to BANK or ANNEAL (chapter 17). -/
namespace Sys2Proof.Machine

open Sys2Proof

/-! ### Domains -/

theorem domState_setDom_same {d : Nat} (hd : d < 2 ^ 32) (s : State) (x : Nat) : domState (setDom s d x) d = x % 8 := by
  have hset : rgF (setRgF s .dstate d 2 0 x) .dstate d 2 0 = x % 8 := rgF_setRgF_same _ _ _ _ _ _ (by decide) (by decide)
  unfold domState setDom
  cases hst : domStop d with
  | none => exact hset
  | some st =>
    obtain ⟨hdie, hstop⟩ := domStop_lt hst
    refine (rgF_setRgF_name (fun he => ?_) (fstopOf_lt hdie hstop) hd).trans hset
    unfold fstopOf at he
    split at he <;> simp at he

theorem domState_setDom_ne {d d' : Nat} (hd' : d' < 2 ^ 32) (hne : d' ≠ d) (s : State) (x : Nat) :
    domState (setDom s d x) d' = domState s d' := by
  have hset : rgF (setRgF s .dstate d 2 0 x) .dstate d' 2 0 = rgF s .dstate d' 2 0 := rgF_setRgF_index hne
  unfold domState setDom
  cases hst : domStop d with
  | none => exact hset
  | some st =>
    obtain ⟨hdie, hstop⟩ := domStop_lt hst
    refine (rgF_setRgF_name (fun he => ?_) (fstopOf_lt hdie hstop) hd').trans hset
    unfold fstopOf at he
    split at he <;> simp at he

/-- A register that is not of domains or stops. -/
theorem rgF_setDom {r : RegName} {i d : Nat} (hi : i < 2 ^ 32) (hr : r ∉ [RegName.dstate, .fstop, .hubFstop]) (hd : d < 2 ^ 32) (s : State)
    (x hi' lo : Nat) : rgF (setDom s d x) r i hi' lo = rgF s r i hi' lo := by
  simp only [List.mem_cons, List.not_mem_nil, or_false, not_or] at hr
  obtain ⟨h1, h2, h3⟩ := hr
  have hset : rgF (setRgF s .dstate d 2 0 x) r i hi' lo = rgF s r i hi' lo := rgF_setRgF_name h1 hd hi
  unfold setDom
  cases hst : domStop d with
  | none => exact hset
  | some st =>
    obtain ⟨hdie, hstop⟩ := domStop_lt hst
    refine (rgF_setRgF_name (fun he => ?_) (fstopOf_lt hdie hstop) hi).trans hset
    unfold fstopOf at he
    split at he
    · exact h2 he
    · exact h3 he

/-- What a domain's new state writes: its DSTATE and its stop. -/
theorem setDom_regsOnly {d : Nat} (hd : d < 2 ^ 32) {st : StopId} (hst : domStop d = some st) (s : State) (x : Nat) :
    RegsOnly [(.dstate, d), fstopOf st] s (setDom s d x) := by
  obtain ⟨hdie, hstop⟩ := domStop_lt hst
  unfold setDom
  rw [hst]
  exact (RegsOnly.setRgF hd (by simp) ..).trans (.setRgF (fstopOf_lt hdie hstop) (by simp) ..)

theorem regKey_above {r q : RegName} {i : Nat} (h : q.num < r.num) : regKey r i ≠ regKey q 0 := by
  unfold regKey
  omega

/-- What a domain command's target and state look at, beside DOMCMD itself. -/
theorem domForbidden_congr {s t : State} (hrest : { t with regs := s.regs } = s) (hregs : ∀ r i, regKey r i ≠ regKey .domcmd 0 → rg t r i = rg s r i)
    (d x : Nat) : domForbidden t d x = domForbidden s d x := by
  have hshares : t.shares = s.shares ∧ t.pkg = s.pkg := by
    rw [← hrest]
    exact ⟨rfl, rfl⟩
  have hfield : ∀ r i hi lo, regKey r i ≠ regKey .domcmd 0 → rgF t r i hi lo = rgF s r i hi lo := fun r i hi lo h => congrArg (fld · hi lo) (hregs r i h)
  have heth : ∀ n, rgF t .ethport n 16 16 = rgF s .ethport n 16 16 := fun n => hfield _ _ _ _ (regKey_above (by decide))
  have hdom : ∀ n, domState t n = domState s n := fun n => hfield _ _ _ _ (regKey_above (by decide))
  have hsh : ∀ n, shState t n = shState s n := fun n => hfield _ _ _ _ (regKey_above (by decide))
  have hcasc : rgF t .cascstat 0 63 60 = rgF s .cascstat 0 63 60 := hfield _ _ _ _ (by decide)
  simp only [domForbidden, sharesHoldSessions, hshares.1, hshares.2, heth, hdom, hsh, hcasc]

theorem domOwned_congr {s t : State} (h : rg t .ownmap 0 = rg s .ownmap 0) (d : Nat) : domOwned t d = domOwned s d := by
  simp only [domOwned, ownStk, ownLg, ownOe, ownCiph, ownLadle, ownEth, h]

/-! ### Domain commands (R546 to R549) -/

/-- DOMCMD as a command that is taken leaves it. -/
def domNoted (s : State) (d x : Nat) : State := setRgF (setRgF s .domcmd 0 25 16 d) .domcmd 0 1 0 x

theorem domNoted_regsOnly (s : State) (d x : Nat) : RegsOnly [(.domcmd, 0)] s (domNoted s d x) :=
  (RegsOnly.setRgF (by decide) List.mem_cons_self ..).trans (.setRgF (by decide) List.mem_cons_self ..)

theorem domNoted_regs (s : State) (d x : Nat) {r : RegName} {i : Nat} (h : regKey r i ≠ regKey .domcmd 0) : rg (domNoted s d x) r i = rg s r i :=
  (rg_setRg_ne h).trans (rg_setRg_ne h)

theorem domNoted_domState (s : State) (d x n : Nat) : domState (domNoted s d x) n = domState s n :=
  congrArg (fld · 2 0) (domNoted_regs s d x (regKey_above (by decide)))

/-- A command ends with a status. -/
theorem domEnded (s : State) (d x v : Nat) : rgF (setDomStat (domNoted s d x) v) .domstat 0 7 0 = v % 256 ∧
    RegsOnly [(.domstat, 0), (.domcmd, 0)] s (setDomStat (domNoted s d x) v) :=
  ⟨rgF_setRgF_same _ _ _ _ _ _ (by decide) (by decide),
    ((domNoted_regsOnly s d x).mono (by simp)).trans (.setRgF (by decide) List.mem_cons_self ..)⟩

section
variable {s : State} {b : By} {d x : Nat}

theorem domGo_busy (h : rgF s .domstat 0 7 0 = 1) : domGo s b d x = setRgF s .domstat 0 16 16 1 := if_pos h

theorem domGo_eq (hd : d < 2 ^ 32) (h : rgF s .domstat 0 7 0 ≠ 1) : domGo s b d x =
    if bySec b = false ∧ domOwned s d = true then setDomStat (hlDenied (domNoted s d x) b deniedOwned (BitVec.ofNat 64 d)) deniedOwned
    else if domMoved d = false then setDomStat (domNoted s d x) 0x10
    else if domTarget d x = false ∨ domForbidden s d x = true then setDomStat (domNoted s d x) 0x11
    else if domState s d = x then setDomStat (domNoted s d x) 2
    else
      let u := setDomStat { domNoted s d x with pw := { s.pw with dom := some (d, x) } } 1
      if domState s d = 0 then setDom u d 4 else if domState s d = 5 then u else setDom u d 5 := by
  have howned : domOwned (domNoted s d x) d = domOwned s d := domOwned_congr (domNoted_regs s d x (by decide)) d
  have hforb : domForbidden (domNoted s d x) d x = domForbidden s d x :=
    domForbidden_congr (domNoted_regsOnly s d x).1 (fun _ _ h => domNoted_regs s d x h) d x
  have hstate := domNoted_domState s d x d
  obtain ⟨u, hu⟩ : ∃ u, u = setDomStat { domNoted s d x with pw := { s.pw with dom := some (d, x) } } 1 := ⟨_, rfl⟩
  have hustate : domState u d = domState s d := by
    rw [hu]
    exact (rgF_setRgF_name (by simp) (by decide) hd).trans hstate
  rw [domGo, if_neg h]
  change (if (!(bySec b)) = true ∧ domOwned (domNoted s d x) d = true then
      setDomStat (hlDenied (domNoted s d x) b deniedOwned (BitVec.ofNat 64 d)) deniedOwned
    else if (!(domMoved d)) = true then setDomStat (domNoted s d x) 0x10
    else if (!(domTarget d x)) = true ∨ domForbidden (domNoted s d x) d x = true then setDomStat (domNoted s d x) 0x11
    else if domState (domNoted s d x) d = x then setDomStat (domNoted s d x) 2
    else
      let u := setDomStat { domNoted s d x with pw := { s.pw with dom := some (d, x) } } 1
      if domState u d = 0 then setDom u d 4 else if domState u d = 5 then u else setDom u d 5) = _
  dsimp only
  rw [howned, hforb, hstate, ← hu, hustate]
  simp only [Bool.not_eq_true']

end

/-- A command that is denied is recorded, and its domain left. -/
theorem domDenied_spec {s : State} {b : By} {d x : Nat} (hd : d < 2 ^ 32) (code : Nat) (what : Word) :
    let t := setDomStat (hlDenied (domNoted s d x) b code what) deniedOwned
    rgF t .domstat 0 7 0 = 0x20 ∧ t.pw = s.pw ∧ domState t d = domState s d := by
  obtain ⟨u, hu⟩ : ∃ u, hlDenied (domNoted s d x) b code what = u := ⟨_, rfl⟩
  have honly : { u with hlog := (domNoted s d x).hlog } = domNoted s d x := hu ▸ hlDevice_only ..
  have hpw : u.pw = s.pw := by
    have := congrArg State.pw honly
    exact this
  have hregs : u.regs = (domNoted s d x).regs := by
    have := congrArg State.regs honly
    exact this
  have hstate : domState u d = domState s d := (congrArg (fun l => domState { s with regs := l } d) hregs).trans (domNoted_domState s d x d)
  rw [hu]
  exact ⟨rgF_setRgF_same _ _ _ _ _ _ (by decide) (by decide), hpw, (rgF_setRgF_name (by simp) (by decide) hd).trans hstate⟩

/-- A domain that is to move begins to close, or to wake. -/
theorem domBegins_spec {s : State} {d : Nat} (hd : d < 2 ^ 32) (x : Nat) :
    let u := setDomStat { domNoted s d x with pw := { s.pw with dom := some (d, x) } } 1
    let t := if domState s d = 0 then setDom u d 4 else if domState s d = 5 then u else setDom u d 5
    rgF t .domstat 0 7 0 = 1 ∧ t.pw.dom = some (d, x) ∧ domState t d = (if domState s d = 0 then 4 else 5) := by
  intro u
  have hu : rgF u .domstat 0 7 0 = 1 := rgF_setRgF_same _ _ _ _ _ _ (by decide) (by decide)
  have hdom : u.pw.dom = some (d, x) := rfl
  have hstate : domState u d = domState s d := (rgF_setRgF_name (by simp) (by decide) hd).trans (domNoted_domState s d x d)
  clear_value u
  have hset : ∀ v, v < 8 → rgF (setDom u d v) .domstat 0 7 0 = 1 ∧ (setDom u d v).pw.dom = some (d, x) ∧ domState (setDom u d v) d = v := fun v hv => by
    refine ⟨?_, by rw [setDom_pw, hdom], (domState_setDom_same hd u v).trans (Nat.mod_eq_of_lt hv)⟩
    have hkept : rgF (setDom u d v) .domstat 0 7 0 = rgF u .domstat 0 7 0 := rgF_setDom (by decide) (by simp) hd ..
    rw [hkept, hu]
  dsimp only
  split
  · exact hset 4 (by decide)
  · split
    next h5 => exact ⟨hu, hdom, hstate.trans h5⟩
    · exact hset 5 (by decide)

/-! ### Points of no return and arrivals (R330, R547, R553) -/

theorem ingress_setIngress (s : State) (st : StopId) (x : Nat) : ingress (setIngress s st x) st = x % 4 :=
  rgF_setRgF_same _ _ _ _ _ _ (by decide) (by decide)

theorem domPoint_closing {s : State} {d : Nat} {st : StopId} (hst : domStop d = some st) (h4 : domState s d = 4) (h1 : ingress s st = 1)
    (hno : s.pw.dom ≠ some (0x1AA, 3)) : domPoint s d = if domQuiet s d then setIngress s st 2 else s := by
  rw [domPoint, hst]
  dsimp only
  cases hq : domQuiet s d with
  | false => rw [if_pos (by simp), if_neg (by simp)]
  | true =>
    have hnot : ¬(d = 0x1AA ∧ s.pw.dom = some (0x1AA, 3)) := fun h => hno h.2
    rw [if_neg (by simp [h4, h1]), if_neg hnot, if_neg (fun h => hno h.2.1)]
    rfl

theorem domClosed_of {s : State} {d : Nat} {st : StopId} (hst : domStop d = some st) (h4 : domState s d = 4) (h1 : ingress s st ≠ 1) :
    domClosed s d = true := by
  simp [domClosed, hst, h4, h1]

theorem domArrive_empty {s : State} {d x : Nat} {st : StopId} (hst : domStop d = some st) (h : ingress s st ≠ 3) : domArrive s d x = setDom s d x := by
  rw [domArrive, hst]
  exact if_neg h

theorem domArrive_wanted {s : State} {d x : Nat} {st : StopId} (hst : domStop d = some st) (h : ingress s st = 3) : domArrive s d x = setDom s d 5 := by
  rw [domArrive, hst]
  exact if_pos h

theorem waitst_lt (s : State) (c : Nat) : waitst s c < 4 := by
  unfold waitst
  cases coreLc s c with
  | none => exact Nat.succ_pos 3
  | some n => exact fld_lt ..

/-- The end of a domain command. -/
theorem domDone_spec {u : State} {d x : Nat} (hd : d < 2 ^ 32) (hx : domState u d = x) :
    let t := setDomStat { u with pw := { u.pw with dom := none } } 2
    domState t d = x ∧ t.pw.dom = none ∧ rgF t .domstat 0 7 0 = 2 :=
  ⟨(rgF_setRgF_name (s := { u with pw := { u.pw with dom := none } }) (by simp) (by decide) hd).trans hx, rfl,
    rgF_setRgF_same _ _ _ _ _ _ (by decide) (by decide)⟩

theorem domReached_command {s : State} {d x : Nat} {st : StopId} (hdom : s.pw.dom = some (d, x)) (hst : domStop d = some st) (h4 : domState s d = 4)
    (h2 : ingress s st = 2) : domReached s d = setDomStat { setDom s d x with pw := { (setDom s d x).pw with dom := none } } 2 := by
  rw [domReached, hdom]
  dsimp only
  rw [if_neg (fun h => h rfl), if_pos (domClosed_of hst h4 (by omega)), domArrive_empty hst (by omega), setDom_pw]

theorem domReached_woken {s : State} {d : Nat} (hdom : s.pw.dom = some (d, 0)) (hst : domStop d = none) (h5 : domState s d = 5) :
    domReached s d = setDomStat { setDom s d 0 with pw := { (setDom s d 0).pw with dom := none } } 2 := by
  rw [domReached, hdom]
  dsimp only
  rw [if_neg (fun h => h rfl), if_neg (by simp [domClosed, h5]), if_pos h5, hst, if_pos rfl]

theorem domReached_own {s : State} {d : Nat} (hdom : s.pw.dom = none) (hclosed : domClosed s d = true) (h : d < 240 ∨ pkgState s = 2) :
    domReached s d = domArrive s d (if d < 240 then waitst s d else 2) := by
  rw [domReached, hdom]
  dsimp only
  by_cases hd : d < 240
  · rw [if_pos ⟨hd, hclosed⟩, if_pos hd]
  · rw [if_neg (fun hc => hd hc.1), if_pos ⟨h.resolve_left hd, hclosed⟩, if_neg hd]

/-! ### Package commands (R552, R553) -/

/-- The secure world may act, and any world on what is not the monitor's (R502). -/
theorem admitted_of {b : By} {owned : Bool} (h : bySec b = true ∨ owned = false) : ¬(bySec b = false ∧ owned = true) :=
  fun hc => h.elim (fun hb => Bool.false_ne_true (hc.1.symm.trans hb)) (fun ho => Bool.false_ne_true (ho.symm.trans hc.2))

section
variable {s : State} {b : By}

theorem pkgNoted_state (s : State) (x : Nat) : pkgState (setRgF s .pkgcmd 0 1 0 x) = pkgState s := rgF_setRgF_name (by simp) (by decide) (by decide)

theorem pkgGo_late (h : 2 ≤ pkgState s) (x : Nat) : pkgGo s b x = setRgF s .pkgstat 0 16 16 1 := if_pos h

theorem pkgGo_eq (h : pkgState s < 2) (x : Nat) : pkgGo s b x = (let u := setRgF s .pkgcmd 0 1 0 x
    if bySec b = false ∧ rg s .ownmap 0 ≠ 0 then setPkgStatus (hlDenied u b deniedOwned (regPa 0xC0000)) deniedOwned
    else if x = 0 then (if pkgState s = 1 then setPkgStatus (setPkgState u 0) 3 else u)
    else if s.admitted.any (fun p => p != s.pkg) then setPkgStatus u 0x13
    else if x = 2 ∧ s.vstby = false then setPkgStatus u 0x12
    else setPkgStatus (setPkgState { u with pw := { s.pw with target := x } } 1) 1) := by
  have hown : rg (setRgF s .pkgcmd 0 1 0 x) .ownmap 0 = rg s .ownmap 0 := rg_setRg_other (by decide) (by decide) (by simp)
  have hstate := pkgNoted_state s x
  rw [pkgGo, if_neg (by omega)]
  dsimp only
  rw [hown, hstate]
  simp only [Bool.not_eq_true']
  rfl

end

/-- A package command that is denied is recorded, and the package left. -/
theorem pkgDenied_spec (s : State) (b : By) (x code : Nat) (what : Word) : let t := setPkgStatus (hlDenied (setRgF s .pkgcmd 0 1 0 x) b code what) deniedOwned
    rgF t .pkgstat 0 7 0 = 0x20 ∧ pkgState t = pkgState s ∧ t.pw = s.pw := by
  obtain ⟨v, hv⟩ : ∃ v, setRgF s .pkgcmd 0 1 0 x = v := ⟨_, rfl⟩
  have hpw' : v.pw = s.pw := hv ▸ rfl
  have hstate' : pkgState v = pkgState s := hv ▸ pkgNoted_state s x
  rw [hv]
  obtain ⟨u, hu⟩ : ∃ u, hlDenied v b code what = u := ⟨_, rfl⟩
  have honly : { u with hlog := v.hlog } = v := hu ▸ hlDevice_only ..
  have hpw : u.pw = s.pw := by
    have := congrArg State.pw honly
    exact this.trans hpw'
  have hregs : u.regs = v.regs := by
    have := congrArg State.regs honly
    exact this
  have hstate : pkgState u = pkgState s := (congrArg (fun l => pkgState { v with regs := l }) hregs).trans hstate'
  rw [hu]
  exact ⟨status_setPkgStatus .., (pkgState_setPkgStatus ..).trans hstate, hpw⟩

/-- The package armed for a target (R552). -/
theorem pkgArmed_spec (u : State) : let t := setPkgStatus (setPkgState u 1) 1
    pkgState t = 1 ∧ rgF t .pkgstat 0 7 0 = 1 ∧ t.pw.target = u.pw.target :=
  ⟨(pkgState_setPkgStatus ..).trans (pkgState_setPkgState ..), status_setPkgStatus .., (setPkgState_pw u 1).2.1⟩

/-! ### The domains an entry closes (R553) -/

theorem foldl_setDom_pw (x : Nat) (l : List Nat) (s : State) : (l.foldl (fun s d => setDom s d x) s).pw = s.pw :=
  List.foldlRecOn (motive := fun t : State => t.pw = s.pw) _ _ rfl fun t ht d _ => (setDom_pw t d x).trans ht

theorem foldl_setDom_only (x : Nat) (l : List Nat) (hl : ∀ d ∈ l, d < 2 ^ 32) (s : State) : DomOnly s (l.foldl (fun s d => setDom s d x) s) :=
  List.foldlRecOn (motive := DomOnly s) _ _ (.refl s) fun t ht d hd => ht.trans (domOnly_setDom (hl d hd) t x)

theorem foldl_setDom_state (x : Nat) : ∀ (l : List Nat), (∀ d ∈ l, d < 2 ^ 32) → ∀ (s : State) {d : Nat}, d < 2 ^ 32 →
    domState (l.foldl (fun s d => setDom s d x) s) d = if d ∈ l then x % 8 else domState s d
  | [], _, _, _, _ => rfl
  | e :: l, hl, s, d, hd => by
    have ih := foldl_setDom_state x l (fun d hd => hl d (List.mem_cons_of_mem _ hd)) (setDom s e x) hd
    rw [List.foldl_cons, ih]
    by_cases hm : d ∈ l
    · rw [if_pos hm, if_pos (List.mem_cons_of_mem _ hm)]
    · by_cases he : d = e
      · subst he
        rw [if_neg hm, if_pos List.mem_cons_self, domState_setDom_same hd]
      · rw [if_neg hm, if_neg (by simp [he, hm]), domState_setDom_ne hd he]

/-- The ports that wait for PME_TO_Ack. -/
def pmeStep (s : State) (i : Nat) : State := { s with pw := { s.pw with pme := tset none i (some (now s)) s.pw.pme } }

theorem foldl_pme (l : List Nat) (s : State) : let t := l.foldl pmeStep s
    { t with pw := s.pw } = s ∧ ∀ i, (tget none i t.pw.pme).isSome = (decide (i ∈ l) || (tget none i s.pw.pme).isSome) := by
  induction l generalizing s with
  | nil => exact ⟨rfl, fun i => by simp⟩
  | cons j l ih =>
    obtain ⟨hrest, hpme⟩ := ih (pmeStep s j)
    refine ⟨?_, fun i => ?_⟩
    · have := congrArg (fun u : State => { u with pw := s.pw }) hrest
      exact this
    · rw [List.foldl_cons, hpme]
      change (decide (i ∈ l) || (tget none i (tset none j (some (now s)) s.pw.pme)).isSome) = _
      by_cases hij : i = j
      · subst hij
        simp
      · rw [tget_tset_ne hij]
        simp [hij]

/-- The domains in RUN that go with an entry: cipher clusters, the Ladle engines, the Ethernet controllers. -/
def enteringDoms (s : State) : List Nat :=
  (entryDoms.filter (fun d => domState s d == 0)).filter (fun d => decide (0x1A4 ≤ d) && decide (d ≤ 0x1A9))

theorem enteringDoms_lt {s : State} {d : Nat} (h : d ∈ enteringDoms s) : d < 2 ^ 32 := by
  simp only [enteringDoms, List.mem_filter, Bool.and_eq_true, decide_eq_true_eq] at h
  omega

theorem mem_enteringDoms {s : State} {d : Nat} (h1 : 0x1A4 ≤ d) (h2 : d ≤ 0x1A9) (h0 : domState s d = 0) : d ∈ enteringDoms s := by
  simp only [enteringDoms, entryDoms, List.mem_filter, List.mem_map, List.mem_range, Bool.and_eq_true, decide_eq_true_eq, beq_iff_eq]
  exact ⟨⟨⟨d - 0x180, by omega, by omega⟩, h0⟩, h1, h2⟩

/-- The cores an entry waits for are in BANK. -/
def inBank (s : State) : Prop := ∀ n, n < 216 → lcValid s n = true → (getCore s (lcCore s n)).stopped = false → domState s (lcCore s n) = 2

theorem allInBank_iff (s : State) : ((List.range 216).filter (fun n => lcValid s n && !((getCore s (lcCore s n)).stopped))).all
    (fun n => domState s (lcCore s n) == 2) = true ↔ inBank s := by
  simp only [inBank, List.all_eq_true, List.mem_filter, List.mem_range, Bool.and_eq_true, Bool.not_eq_true', beq_iff_eq, and_imp]

theorem pkgEntering_waits {s : State} (h : ¬(pkgState s = 1 ∧ inBank s)) : pkgEntering s = s := by
  refine if_pos ?_
  by_cases hp : pkgState s = 1
  · refine .inr ?_
    have hno := fun hb => h ⟨hp, hb⟩
    rw [← allInBank_iff] at hno
    simpa using hno
  · exact .inl hp

theorem pkgEntering_goes {s : State} (hp : pkgState s = 1) (hb : inBank s) : pkgEntering s =
    (allPorts.filter (fun i => (rport (( enteringDoms s).foldl (fun s d => setDom s d 4)
      (setPkgState { s with pw := { s.pw with wasRun := entryDoms.filter (fun d => domState s d == 0), pme := [] } } 2)) i).st == 1)).foldl pmeStep
      ((enteringDoms s).foldl (fun s d => setDom s d 4)
        (setPkgState { s with pw := { s.pw with wasRun := entryDoms.filter (fun d => domState s d == 0), pme := [] } } 2)) := by
  have hall := (allInBank_iff s).mpr hb
  refine (if_neg ?_).trans rfl
  rw [hall]
  simp [hp]

theorem pkgEntering_spec {s : State} (hp : pkgState s = 1) (hb : inBank s) : let t := pkgEntering s
    pkgState t = 2 ∧ t.cores = s.cores ∧ (∀ i, i < 96 → ((tget none i t.pw.pme).isSome = true ↔ (rport s i).st = 1)) ∧
      ∀ d, 0x1A4 ≤ d → d ≤ 0x1A9 → domState s d = 0 → domState t d = 4 := by
  intro t
  obtain ⟨u, hu⟩ : ∃ u, ({ s with pw := { s.pw with wasRun := entryDoms.filter (fun d => domState s d == 0), pme := [] } } : State) = u := ⟨_, rfl⟩
  have ht : t = (allPorts.filter (fun i => (rport ((enteringDoms s).foldl (fun s d => setDom s d 4) (setPkgState u 2)) i).st == 1)).foldl pmeStep
      ((enteringDoms s).foldl (fun s d => setDom s d 4) (setPkgState u 2)) := hu ▸ pkgEntering_goes hp hb
  have hupme : u.pw.pme = [] := by rw [← hu]
  have hucores : u.cores = s.cores ∧ u.rports = s.rports := by rw [← hu]; exact ⟨rfl, rfl⟩
  have hv := setPkgState_regsOnly u 2
  have hvstate := pkgState_setPkgState u 2
  have hvpme := (setPkgState_pw u 2).2.2
  generalize setPkgState u 2 = v at ht hv hvstate hvpme
  have hw := foldl_setDom_only 4 (enteringDoms s) (fun d hd => enteringDoms_lt hd) v
  have hwpw := foldl_setDom_pw 4 (enteringDoms s) v
  have hwdom := @foldl_setDom_state 4 (enteringDoms s) (fun d hd => enteringDoms_lt hd) v
  generalize (enteringDoms s).foldl (fun s d => setDom s d 4) v = w at ht hw hwpw hwdom
  obtain ⟨htrest, htpme⟩ := foldl_pme (allPorts.filter (fun i => (rport w i).st == 1)) w
  rw [← ht] at htrest htpme
  have htregs : t.regs = w.regs := by
    have := congrArg State.regs htrest
    exact this
  have htcores : t.cores = w.cores := by
    have := congrArg State.cores htrest
    exact this
  have hfield : ∀ r i hi lo, rgF t r i hi lo = rgF w r i hi lo := fun r i hi lo => congrArg (fun l => rgF { s with regs := l } r i hi lo) htregs
  have hvcores : v.cores = u.cores ∧ v.rports = u.rports := by
    have h1 := congrArg State.cores hv.1
    have h2 := congrArg State.rports hv.1
    exact ⟨h1, h2⟩
  have hwports : w.rports = v.rports := by rw [← hw.rest]
  refine ⟨?_, ?_, fun i hi => ?_, fun d h1 h2 h0 => ?_⟩
  · exact (hfield ..).trans ((hw.rgF (by decide) (by decide) ..).trans hvstate)
  · rw [htcores, hw.cores, hvcores.1, hucores.1]
  · have hport : rport w i = rport s i := congrArg (fun l => rport { s with rports := l } i) (hwports.trans (hvcores.2.trans hucores.2))
    rw [htpme, hwpw, hvpme, hupme]
    simp only [List.mem_filter, allPorts, List.mem_range, hport, hi, true_and, beq_iff_eq]
    simp [tget]
  · refine (hfield ..).trans ((hwdom (d := d) (by omega)).trans ?_)
    rw [if_pos (mem_enteringDoms h1 h2 h0)]

/-! ### The point of no return of a package (R553 steps 4 to 6) -/

/-- The registers that show lane groups and engines going to sleep, but LGSTAT and OESTAT. -/
def sleepNames : List RegName := [.dstate, .fstop, .hubFstop, .ethstat, .palstat, .intsrc, .cartstat]

/-- From s to t the lane group or engine whose LGSTAT or OESTAT is k (and no other) took new states; no core and no power state changed. -/
structure SleepOnly (k : RegName × Nat) (s t : State) : Prop where
  rest : { t with regs := s.regs, mpPend := s.mpPend, rports := s.rports, pals := s.pals, slots := s.slots } = s
  regs : ∀ r i, i < 2 ^ 32 → r ∉ sleepNames → (r, i) ≠ k → rg t r i = rg s r i

section
variable {k : RegName × Nat} {g : Nat} {s t u : State}

theorem SleepOnly.refl (k : RegName × Nat) (s : State) : SleepOnly k s s := ⟨rfl, fun _ _ _ _ _ => rfl⟩

theorem SleepOnly.trans (h1 : SleepOnly k s t) (h2 : SleepOnly k t u) : SleepOnly k s u := by
  refine ⟨?_, fun r i hi hr hl => (h2.regs r i hi hr hl).trans (h1.regs r i hi hr hl)⟩
  rw [← h1.rest, ← h2.rest]

theorem SleepOnly.ite {p : Prop} [Decidable p] (h1 : SleepOnly k s t) (h2 : SleepOnly k s u) : SleepOnly k s (if p then t else u) := by
  split
  · exact h1
  · exact h2

theorem SleepOnly.pw (h : SleepOnly k s t) : t.pw = s.pw := by rw [← h.rest]

theorem SleepOnly.cores (h : SleepOnly k s t) : t.cores = s.cores := by rw [← h.rest]

theorem SleepOnly.now (h : SleepOnly k s t) : Machine.now t = Machine.now s := by
  have : t.ptime = s.ptime := by rw [← h.rest]
  unfold Machine.now
  rw [this]

theorem SleepOnly.setRgF (h : SleepOnly k s t) {r : RegName} {i : Nat} (hr : r ∈ sleepNames ∨ (r, i) = k) (hi : i < 2 ^ 32) (top lo x : Nat) :
    SleepOnly k s (setRgF t r i top lo x) := by
  refine h.trans ⟨rfl, fun r' i' hi' hr' hl => rg_setRg_other hi hi' fun he => ?_⟩
  rcases hr with hr | hr
  · exact hr' ((Prod.mk.inj he).1 ▸ hr)
  · exact hl (he.trans hr)

theorem SleepOnly.raiseSrc (h : SleepOnly k s t) {n : Nat} (hn : n < 2 ^ 32) : SleepOnly k s (raiseSrc t n) :=
  h.trans ⟨rfl, fun r i hi hr _ => rg_raiseSrc hn hi fun he => hr ((Prod.mk.inj he).1 ▸ by decide)⟩

theorem SleepOnly.setRport (h : SleepOnly k s t) (i : Nat) (x : Rport) : SleepOnly k s (setRport t i x) := h.trans ⟨rfl, fun _ _ _ _ _ => rfl⟩

theorem SleepOnly.setDom (h : SleepOnly k s t) {d : Nat} (hd : d < 2 ^ 32) (x : Nat) : SleepOnly k s (setDom t d x) := by
  have hset : SleepOnly k s (Machine.setRgF t .dstate d 2 0 x) := h.setRgF (.inl (by decide)) hd ..
  unfold Machine.setDom
  cases hst : domStop d with
  | none => exact hset
  | some st =>
    obtain ⟨hdie, hstop⟩ := domStop_lt hst
    refine hset.setRgF (.inl ?_) (fstopOf_lt hdie hstop) ..
    unfold fstopOf
    split <;> simp [sleepNames]

theorem SleepOnly.setLgState (h : SleepOnly (.lgstat, g) s t) (hg : g < 64) (x : Nat) : SleepOnly (.lgstat, g) s (setLgState t g x) :=
  .ite h ((h.setRgF (.inr rfl) (by omega) ..).raiseSrc (by omega))

theorem SleepOnly.lgRefresh (h : SleepOnly (.lgstat, g) s t) (hg : g < 64) : SleepOnly (.lgstat, g) s (lgRefresh t g) :=
  .ite h (.ite (h.setLgState hg _) (.ite (h.setLgState hg _) (.ite (h.setLgState hg _) (.ite (h.setLgState hg _) h))))

theorem SleepOnly.setEthLink (h : SleepOnly (.lgstat, g) s t) (hg : g < 64) {n : Nat} (hn : n < 16) (hgroup : rgF t .ethport n 4 0 = g) (up : Bool) :
    SleepOnly (.lgstat, g) s (setEthLink t n up) := by
  have hsrc : SleepOnly (.lgstat, g) s (Machine.raiseSrc (Machine.setRgF t .ethstat n 16 16 up.toNat) (896 + n)) :=
    (h.setRgF (.inl (by decide)) (by omega) ..).raiseSrc (by omega)
  unfold Machine.setEthLink
  refine .ite h ?_
  rw [hgroup]
  exact hsrc.lgRefresh hg

theorem SleepOnly.setPal (h : SleepOnly (.lgstat, g) s t) (hg : g < 64) (x : Nat) : SleepOnly (.lgstat, g) s (setPal t g x) := by
  have hsrc : SleepOnly (.lgstat, g) s (Machine.raiseSrc (Machine.setRgF t .palstat g 3 0 x) (384 + 16 * g + 12)) :=
    (h.setRgF (.inl (by decide)) (by omega) ..).raiseSrc (by omega)
  unfold Machine.setPal
  dsimp only
  generalize Machine.raiseSrc _ _ = v at hsrc
  refine .ite h ?_
  have hend : SleepOnly (.lgstat, g) s (if palState t g = 3 then setPalEnd v g { palEnd v g with outSince := Machine.now v } else v) :=
    .ite (hsrc.trans ⟨rfl, fun _ _ _ _ _ => rfl⟩) hsrc
  exact .ite (hend.setLgState hg _) hend

end

theorem lgState_setLgState (s : State) {g : Nat} (hg : g < 64) (x : Nat) (hx : x < 16) : rgF (setLgState s g x) .lgstat g 3 0 = x := by
  unfold setLgState
  split
  next h => exact h
  next h =>
    rw [rgF_raiseSrc (by omega) (by omega) (by simp), rgF_setRgF_same _ _ _ _ _ _ (by decide) (by decide)]
    exact Nat.mod_eq_of_lt hx

theorem linksDown_sleepOnly {s : State} {g : Nat} (hg : g < 32) (hp : rgF s .lgctl g 2 0 ≠ 1) : SleepOnly (.lgstat, g) s (lgLinksDown s g) := by
  unfold lgLinksDown
  dsimp only
  rw [if_neg hp]
  refine .ite ?_ (.ite ((SleepOnly.refl _ s).setPal (by omega) 0) (.refl _ s))
  refine List.foldlRecOn (motive := SleepOnly (.lgstat, g) s) _ _ (.refl _ s) fun t ht n hn => ht.setEthLink (by omega) ?_ ?_ false
  · exact List.mem_range.mp (List.mem_filter.mp hn).1
  · have hn' := List.mem_filter.mp hn
    have hlt := List.mem_range.mp hn'.1
    have hgroup : rgF s .ethport n 4 0 = g := by
      have := hn'.2
      simp only [Bool.and_eq_true, beq_iff_eq] at this
      exact this.2
    exact (congrArg (fld · 4 0) (ht.regs .ethport n (by omega) (by decide) (by simp))).trans hgroup

/-- A lane group goes to sleep: it is OFF, and no other is touched. -/
theorem lgSleep_spec (s : State) {g : Nat} (hg : g < 32) : SleepOnly (.lgstat, g) s (lgSleep s g) ∧ rgF (lgSleep s g) .lgstat g 3 0 = 0 := by
  have hports : SleepOnly (.lgstat, g) s ((List.range 4).foldl (fun s k => setRport s (4 * g + k) { rport s (4 * g + k) with st := 0 }) s) :=
    List.foldlRecOn (motive := SleepOnly (.lgstat, g) s) _ _ (.refl _ s) fun t ht k _ => ht.setRport _ _
  obtain ⟨u, hu, honly⟩ : ∃ u, lgSleep s g = setDom (setLgState u g 0) (0x180 + g) 3 ∧ SleepOnly (.lgstat, g) s u := by
    refine ⟨_, rfl, ?_⟩
    split
    · exact hports
    · next hp => exact linksDown_sleepOnly hg hp
  rw [hu]
  refine ⟨(honly.setLgState (by omega) 0).setDom (by omega) 3, ?_⟩
  have hdom := domOnly_setDom (d := 0x180 + g) (by omega) (setLgState u g 0) 3
  exact (hdom.rgF (by omega) (by decide) ..).trans (lgState_setLgState u (by omega) 0 (by decide))

theorem SleepOnly.slots {k : RegName × Nat} {s t : State} (h : SleepOnly k s t) (l : Tab Slot) : SleepOnly k s { t with slots := l } :=
  h.trans ⟨rfl, fun _ _ _ _ _ => rfl⟩

theorem SleepOnly.setSlotSt {k : RegName × Nat} {s t : State} (h : SleepOnly k s t) {e b : Nat} (hlt : 2 * e + b < 64) (v : Nat) :
    SleepOnly k s (setSlotSt t e b v) := by
  have hset : SleepOnly k s (Machine.setRgF t .cartstat (2 * e + b) 3 0 v) := h.setRgF (.inl (by decide)) (by omega) ..
  exact .ite (hset.slots _) (.ite (hset.slots _) hset)

/-- An engine goes to sleep: it is dark, and no other is touched. -/
theorem engSleep_spec (s : State) {e : Nat} (he : e < 4) : SleepOnly (.oestat, e) s (engSleep s e) ∧ oeState (engSleep s e) e = 0 := by
  have hslots : SleepOnly (.oestat, e) s ((List.range 2).foldl (fun s b => if slotSt s e b = 3 then setSlotSt s e b 2 else s) s) :=
    List.foldlRecOn (motive := SleepOnly (.oestat, e) s) _ _ (.refl _ s) fun t ht b hb =>
      .ite (ht.setSlotSt (by have := List.mem_range.mp hb; omega) _) ht
  obtain ⟨u, hu, honly⟩ : ∃ u, engSleep s e = setDom (setRgF u .oestat e 23 20 0) (0x1A0 + e) 3 ∧ SleepOnly (.oestat, e) s u := ⟨_, rfl, hslots⟩
  rw [hu]
  refine ⟨(honly.setRgF (.inr rfl) (by omega) ..).setDom (by omega) 3, ?_⟩
  have hdom := domOnly_setDom (d := 0x1A0 + e) (by omega) (setRgF u .oestat e 23 20 0) 3
  exact (hdom.rgF (by omega) (by decide) ..).trans (rgF_setRgF_same _ _ _ _ _ _ (by decide) (by decide))

/-- The states that units show after each of a list went to sleep. -/
theorem foldl_sleep {r : RegName} {hi lo N : Nat} {f : State → Nat → State} (hr : r ∉ sleepNames) (hN : N ≤ 2 ^ 32)
    (hf : ∀ s i, i < N → SleepOnly (r, i) s (f s i) ∧ rgF (f s i) r i hi lo = 0) (s : State) : ∀ n, n ≤ N → let t := (List.range n).foldl f s
    (∀ i, i < n → rgF t r i hi lo = 0) ∧ t.pw = s.pw ∧ t.cores = s.cores ∧ now t = now s ∧
      ∀ r' i', i' < 2 ^ 32 → r' ∉ sleepNames → r' ≠ r → rg t r' i' = rg s r' i' := by
  intro n
  induction n with
  | zero => exact fun _ => ⟨nofun, rfl, rfl, rfl, fun _ _ _ _ _ => rfl⟩
  | succ n ih =>
    intro hn
    obtain ⟨hzero, hpw, hcores, hnow, hregs⟩ := ih (by omega)
    rw [List.range_succ, List.foldl_append, List.foldl_cons, List.foldl_nil]
    generalize (List.range n).foldl f s = u at hzero hpw hcores hnow hregs
    obtain ⟨honly, hnew⟩ := hf u n (by omega)
    dsimp only
    refine ⟨fun i hi => ?_, honly.pw.trans hpw, honly.cores.trans hcores, honly.now.trans hnow, fun r' i' hi' h1 h2 =>
      (honly.regs r' i' hi' h1 (by simp [h2])).trans (hregs r' i' hi' h1 h2)⟩
    by_cases hin : i = n
    · rw [hin]
      exact hnew
    · exact (congrArg (fld · _ lo) (honly.regs r i (by omega) hr (by simp [hin]))).trans (hzero i (by omega))

/-- A link's end at the point of no return: RESET, or as it was where it is out of service. -/
def linkStep (s : State) (n : Nat) : State := if lsState s n = 7 then s else setLsState s n 0

theorem foldl_linkStep (s : State) : ∀ n, n ≤ 48 → let t := (List.range n).foldl linkStep s
    (∀ i, i < n → lsState t i = 0 ∨ lsState t i = 7) ∧ { t with regs := s.regs, ends := s.ends, mpPend := s.mpPend } = s ∧
      ∀ r i, i < 2 ^ 32 → r ≠ .linkstat → r ≠ .hubLinkstat → r ≠ .intsrc → rg t r i = rg s r i := by
  intro n
  induction n with
  | zero => exact fun _ => ⟨nofun, rfl, fun _ _ _ _ _ _ => rfl⟩
  | succ n ih =>
    intro hn
    obtain ⟨hstate, hrest, hregs⟩ := ih (by omega)
    rw [List.range_succ, List.foldl_append, List.foldl_cons, List.foldl_nil]
    generalize (List.range n).foldl linkStep s = u at hstate hrest hregs
    by_cases h7 : lsState u n = 7
    · rw [linkStep, if_pos h7]
      refine ⟨fun i hi => ?_, hrest, hregs⟩
      by_cases hin : i = n
      · exact .inr (hin ▸ h7)
      · exact hstate i (by omega)
    · rw [linkStep, if_neg h7]
      have honly := linkOnly_setLsState (n := n) (by omega) u 0
      have hzero := lsState_setLsState_same u n 0
      generalize setLsState u n 0 = v at honly hzero
      refine ⟨fun i hi => ?_, by rw [← hrest, ← honly.rest], fun r i hi h1 h2 h3 => (honly.regs r i hi (fun he => ?_) (by simp [h3])).trans (hregs r i hi h1 h2 h3)⟩
      · by_cases hin : i = n
        · exact .inl (hin ▸ hzero)
        · rw [honly.lsState (by omega) hin]
          exact hstate i (by omega)
      · rcases lsReg_name n with hr | hr <;> rw [← he] at hr
        · exact h1 hr
        · exact h2 hr

/-- What goes to BANK with the package, and the hub I/O cache and the remote agent with it where they are in RUN. -/
def bankedDoms (s : State) : State :=
  [0x1AA, 0x1AB].foldl (fun s d => if domState s d = 0 then setDom s d 2 else s) (bankDoms.foldl (fun s d => setDom s d 2) s)

theorem bankedDoms_spec (s : State) : DomOnly s (bankedDoms s) ∧ (bankedDoms s).pw = s.pw := by
  have hbank : ∀ d ∈ bankDoms, d < 2 ^ 32 := by decide
  have h1 := foldl_setDom_only 2 bankDoms hbank s
  have h2 := foldl_setDom_pw 2 bankDoms s
  refine List.foldlRecOn (motive := fun t : State => DomOnly s t ∧ t.pw = s.pw) _ _ ⟨h1, h2⟩ fun t ht d hd => ?_
  have hlt : d < 2 ^ 32 := by
    simp only [List.mem_cons, List.not_mem_nil, or_false] at hd
    omega
  split
  · exact ⟨ht.1.trans (domOnly_setDom hlt t 2), (setDom_pw ..).trans ht.2⟩
  · exact ht

/-- A package past its point of no return, from the state in which its caches are empty. -/
def pkgAsleep (s : State) : State :=
  let s := (List.range 4).foldl engSleep ((List.range 32).foldl lgSleep s)
  let s := (List.range 48).foldl linkStep (bankedDoms s)
  let s := if s.pw.target = 2 then setRg s .annstat 0 0 else s
  setPkgStatus (setPkgState { s with pw := { s.pw with sampleAt := now s, hotSens := [], refLost := false } } (3 + s.pw.target)) 2

theorem pkgAsleep_spec {s : State} (htarget : s.pw.target = 1 ∨ s.pw.target = 2) : let t := pkgAsleep s
    pkgState t = 3 + s.pw.target ∧ rgF t .pkgstat 0 7 0 = 2 ∧ (∀ g, g < 32 → rgF t .lgstat g 3 0 = 0) ∧ (∀ e, e < 4 → oeState t e = 0) ∧
      (∀ n, n < 48 → lsState t n = 0 ∨ lsState t n = 7) ∧ t.pw.sampleAt = now s ∧ t.cores = s.cores := by
  obtain ⟨hlg, hpw1, hcores1, hnow1, _⟩ := foldl_sleep (r := .lgstat) (hi := 3) (lo := 0) (N := 32) (by decide) (by decide) (fun s i hi => lgSleep_spec s hi)
    s 32 (Nat.le_refl _)
  obtain ⟨a, ha⟩ : ∃ a, (List.range 32).foldl lgSleep s = a := ⟨_, rfl⟩
  rw [ha] at hlg hpw1 hcores1 hnow1
  obtain ⟨hoe, hpw2, hcores2, hnow2, hregs2⟩ := foldl_sleep (r := .oestat) (hi := 23) (lo := 20) (N := 4) (by decide) (by decide)
    (fun s i hi => engSleep_spec s hi) a 4 (Nat.le_refl _)
  obtain ⟨b, hb⟩ : ∃ b, (List.range 4).foldl engSleep a = b := ⟨_, rfl⟩
  rw [hb] at hoe hpw2 hcores2 hnow2 hregs2
  obtain ⟨hdom, hpw3⟩ := bankedDoms_spec b
  obtain ⟨c, hc⟩ : ∃ c, bankedDoms b = c := ⟨_, rfl⟩
  rw [hc] at hdom hpw3
  obtain ⟨hls, hrest4, hregs4⟩ := foldl_linkStep c 48 (Nat.le_refl _)
  obtain ⟨d, hd⟩ : ∃ d, (List.range 48).foldl linkStep c = d := ⟨_, rfl⟩
  rw [hd] at hls hrest4 hregs4
  have hpw4 : d.pw = c.pw := by
    have := congrArg State.pw hrest4
    exact this
  have hcores4 : d.cores = c.cores := by
    have := congrArg State.cores hrest4
    exact this
  have htime4 : d.ptime = c.ptime := by
    have := congrArg State.ptime hrest4
    exact this
  have htime3 : c.ptime = b.ptime := by rw [← hdom.rest]
  have hcores3 := hdom.cores
  have htarget' : d.pw.target = s.pw.target := by rw [hpw4, hpw3, hpw2, hpw1]
  obtain ⟨e, he, honly, hpw5⟩ : ∃ e, (if d.pw.target = 2 then setRg d .annstat 0 0 else d) = e ∧ RegsOnly [(.annstat, 0)] d e ∧ e.pw = d.pw := by
    refine ⟨_, rfl, ?_⟩
    split
    · exact ⟨.setRg (by decide) List.mem_cons_self .., rfl⟩
    · exact ⟨.refl _ d, rfl⟩
  have hrun : pkgAsleep s =
      setPkgStatus (setPkgState { e with pw := { e.pw with sampleAt := now e, hotSens := [], refLost := false } } (3 + e.pw.target)) 2 := by
    rw [pkgAsleep, ha]
    dsimp only
    rw [hb, hc, hd, he]
  obtain ⟨x, hx⟩ : ∃ x, ({ e with pw := { e.pw with sampleAt := now e, hotSens := [], refLost := false } } : State) = x := ⟨_, rfl⟩
  have hxat : x.pw.sampleAt = now e := by rw [← hx]
  have hxcores : x.cores = e.cores := by rw [← hx]
  rw [hx] at hrun
  intro t
  have ht : t = setPkgStatus (setPkgState x (3 + e.pw.target)) 2 := hrun
  have hy := setPkgState_regsOnly x (3 + e.pw.target)
  have hycores : (setPkgState x (3 + e.pw.target)).cores = x.cores := by
    have := congrArg State.cores hy.1
    exact this
  have hystate := pkgState_setPkgState x (3 + e.pw.target)
  have hyat := (setPkgState_pw x (3 + e.pw.target)).1
  generalize setPkgState x (3 + e.pw.target) = y at ht hy hycores hystate hyat
  have hreg : ∀ r i hi lo, i < 2 ^ 32 → r ≠ .annstat → r ≠ .pkgstat → rgF t r i hi lo = rgF d r i hi lo := fun r i hi lo hlt h1 h2 => by
    have h3 : rgF t r i hi lo = rgF y r i hi lo := ht ▸ rgF_setRgF_name h2 (by decide) hlt
    have h4 : rg y r i = rg x r i := hy.2 r i hlt (by simp [h2])
    have h5 : rg x r i = rg d r i := by
      rw [← hx]
      exact honly.2 r i hlt (by simp [h1])
    rw [h3, rgF, h4, h5]
    rfl
  have htar : e.pw.target = s.pw.target := by rw [hpw5, htarget']
  have hnow : now e = now s := by
    have h5 : e.ptime = d.ptime := by
      have := congrArg State.ptime honly.1
      exact this
    have h6 : now e = now b := congrArg BitVec.toNat (h5.trans (htime4.trans htime3))
    rw [h6, hnow2, hnow1]
  have hcores5 : e.cores = d.cores := by
    have := congrArg State.cores honly.1
    exact this
  refine ⟨?_, ?_, fun g hg => ?_, fun k hk => ?_, fun n hn => ?_, ?_, ?_⟩
  · rw [ht, pkgState_setPkgStatus, hystate, htar]
    omega
  · rw [ht, status_setPkgStatus]
  · rw [hreg _ _ _ _ (by omega) (by simp) (by simp), rgF, hregs4 _ _ (by omega) (by simp) (by simp) (by simp), hdom.regs _ _ (by omega) (by decide),
      hregs2 _ _ (by omega) (by decide) (by simp)]
    exact hlg g hg
  · unfold oeState
    rw [hreg _ _ _ _ (by omega) (by simp) (by simp), rgF, hregs4 _ _ (by omega) (by simp) (by simp) (by simp), hdom.regs _ _ (by omega) (by decide)]
    exact hoe k hk
  · have hsame : lsState t n = lsState d n := by
      refine hreg _ _ _ _ (lsReg_lt_of hn) (fun he => ?_) (fun he => ?_) <;> rcases lsReg_name n with hr | hr <;> rw [he] at hr <;> cases hr
    rw [hsame]
    exact hls n hn
  · have h1 : t.pw = y.pw := ht ▸ rfl
    rw [h1, hyat, hxat, hnow]
  · have h1 : t.cores = y.cores := ht ▸ rfl
    rw [h1, hycores, hxcores, hcores5, hcores4, hcores3, hcores2, hcores1]

theorem pkgPoint_goes {s : State} (hp : pkgState s = 2) (hpme : s.pw.pme = []) (hdoms : ∀ j, j < 6 → domState s (0x1A4 + j) ≠ 4 ∧ domState s (0x1A4 + j) ≠ 0)
    (hnet : s.net = []) (h1 : domQuiet s 0x1AA = true) (h2 : domQuiet s 0x1AB = true) : pkgPoint s =
    (let u := if s.pw.target = 2 then allCachesOut s else s
      if u.pw.target = 2 ∧ !(cachesEmpty u) then u else pkgAsleep u) := by
  have hopen : (List.range 6).filter (fun i => domState s (0x1A4 + i) == 0) = [] := by
    rw [List.filter_eq_nil_iff]
    intro i hi
    simpa using (hdoms i (List.mem_range.mp hi)).2
  have hclosing : (List.range 6).any (fun i => domState s (0x1A4 + i) == 4) = false := by
    rw [List.any_eq_false]
    intro i hi
    simpa using (hdoms i (List.mem_range.mp hi)).1
  rw [pkgPoint]
  dsimp only
  rw [hopen, if_neg (by simp), hpme, hclosing, hnet, h1, h2, if_neg (by simp [hp])]
  unfold pkgAsleep bankedDoms linkStep
  rfl

/-! ### The obligation -/

/-- Settles O49: a domain command by its branches (`domGo_eq`), its end by `domDone_spec`; the entry is `pkgEntering_spec`, its point of no return
`pkgAsleep_spec`. -/
theorem powerDomainsAndPackageEntry : Obligations.PowerDomainsAndPackageEntry := by
  unfold Obligations.PowerDomainsAndPackageEntry
  refine ⟨fun b d s => ?_, fun b s => ?_, fun s => ?_, fun g k s => ?_, fun s hp hpme hdoms hnet h1 h2 hor => ?_⟩
  · have hd : d.toNat < 2 ^ 32 := by omega
    refine ⟨fun r hr => ?_, fun st hst h4 h1 hno => ?_, fun x hdom hx => ⟨fun st hst h4 h2 => ?_, fun hst h5 h0 => ?_⟩, fun hdom st hst h4 => ?_⟩
    · obtain ⟨i, x⟩ := r
      have hrun : exec i s = .next (domGo s b d.toNat x) ∧ x < 4 := by
        simp only [List.mem_cons, List.not_mem_nil, or_false, Prod.mk.injEq] at hr
        rcases hr with ⟨rfl, rfl⟩ | ⟨rfl, rfl⟩ | ⟨rfl, rfl⟩ | ⟨rfl, rfl⟩ <;> exact ⟨rfl, by decide⟩
      obtain ⟨hrun, hx⟩ := hrun
      refine ⟨fun h => ⟨_, hrun, ?_⟩, fun h => ?_⟩
      · rw [domGo_busy h]
        exact ⟨rgF_setRgF_same _ _ _ _ _ _ (by decide) (by decide), .setRgF (by decide) List.mem_cons_self ..⟩
      · have heq := domGo_eq (b := b) (x := x) hd h
        refine ⟨fun hno => ⟨_, hrun, ?_⟩, fun hmine hm => ⟨_, hrun, ?_⟩, fun hmine hm hor => ⟨_, hrun, ?_⟩, fun hmine hm htar hforb => ⟨fun hs => ⟨_, hrun, ?_⟩, fun hs => ⟨_, hrun, ?_⟩⟩⟩
        · have hden : bySec b = false ∧ domOwned s d.toNat = true := by simpa [not_or] using hno
          rw [heq, if_pos hden]
          exact domDenied_spec hd ..
        all_goals have hpass := admitted_of hmine
        · rw [heq, if_neg hpass, if_pos hm]
          exact domEnded ..
        · rw [heq, if_neg hpass, if_neg (by simp [hm]), if_pos hor]
          exact domEnded ..
        · rw [heq, if_neg hpass, if_neg (by simp [hm]), if_neg (by simp [htar, hforb]), if_pos hs]
          exact domEnded ..
        · rw [heq, if_neg hpass, if_neg (by simp [hm]), if_neg (by simp [htar, hforb]), if_neg hs]
          exact domBegins_spec hd ..
    · refine ⟨fun hq => ⟨setIngress s st 2, congrArg ok ((domPoint_closing hst h4 h1 hno).trans (if_pos hq)), ingress_setIngress .., ?_⟩,
        fun hq => ⟨s, congrArg ok ((domPoint_closing hst h4 h1 hno).trans (if_neg (by simp [hq]))), rfl⟩⟩
      obtain ⟨hdie, hstop⟩ := domStop_lt hst
      exact .setRgF (fstopOf_lt hdie hstop) List.mem_cons_self ..
    · exact ⟨_, congrArg ok (domReached_command hdom hst h4 h2),
        domDone_spec hd ((domState_setDom_same hd s x).trans (Nat.mod_eq_of_lt (by omega)))⟩
    · subst h0
      exact ⟨_, congrArg ok (domReached_woken hdom hst h5), domDone_spec hd (domState_setDom_same hd s 0)⟩
    · refine ⟨fun hlt h2 => ?_, fun hge hp h2 => ?_, fun hor h3 => ?_⟩
      · refine ⟨setDom s d.toNat (waitst s d.toNat), congrArg ok ?_, ?_, setDom_regsOnly hd hst ..⟩
        · rw [domReached_own hdom (domClosed_of hst h4 (by omega)) (.inl hlt), if_pos hlt, domArrive_empty hst (by omega)]
        · rw [domState_setDom_same hd]
          have := waitst_lt s d.toNat
          omega
      · refine ⟨setDom s d.toNat 2, congrArg ok ?_, domState_setDom_same hd s 2, setDom_regsOnly hd hst ..⟩
        rw [domReached_own hdom (domClosed_of hst h4 (by omega)) (.inr hp), if_neg (by omega), domArrive_empty hst (by omega)]
      · refine ⟨setDom s d.toNat 5, congrArg ok ?_, domState_setDom_same hd s 5, setDom_regsOnly hd hst ..⟩
        rw [domReached_own hdom (domClosed_of hst h4 (by omega)) hor, domArrive_wanted hst h3]
  · refine ⟨fun h i hi => ?_, fun h hno i hi => ?_, fun h hmine => ⟨?_, fun hother i hi => ?_, fun halone => ?_⟩⟩
    · obtain ⟨x, hx⟩ : ∃ x, exec i s = .next (pkgGo s b x) := by
        simp only [List.mem_cons, List.not_mem_nil, or_false] at hi
        rcases hi with rfl | rfl | rfl <;> exact ⟨_, rfl⟩
      rw [pkgGo_late h] at hx
      exact ⟨_, hx, rgF_setRgF_same _ _ _ _ _ _ (by decide) (by decide), .setRgF (by decide) List.mem_cons_self ..⟩
    · obtain ⟨x, hx⟩ : ∃ x, exec i s = .next (pkgGo s b x) := by
        simp only [List.mem_cons, List.not_mem_nil, or_false] at hi
        rcases hi with rfl | rfl | rfl <;> exact ⟨_, rfl⟩
      have hden : bySec b = false ∧ rg s .ownmap 0 ≠ 0 := by simpa [not_or] using hno
      rw [pkgGo_eq h] at hx
      exact ⟨_, hx.trans (congrArg _ (if_pos hden)), pkgDenied_spec ..⟩
    all_goals have hpass : ¬(bySec b = false ∧ rg s .ownmap 0 ≠ 0) := fun hc => hmine.elim (fun hb => Bool.false_ne_true (hc.1.symm.trans hb)) hc.2
    all_goals have hgo : ∀ x, pkgGo s b x = _ := fun x => (pkgGo_eq h x).trans (if_neg hpass)
    · by_cases h1 : pkgState s = 1
      · refine ⟨_, congrArg ok ((hgo 0).trans ((if_pos rfl).trans (if_pos h1))), ?_, fun _ => status_setPkgStatus ..⟩
        exact (pkgState_setPkgStatus ..).trans (pkgState_setPkgState ..)
      · refine ⟨_, congrArg ok ((hgo 0).trans ((if_pos rfl).trans (if_neg h1))), ?_, fun hc => absurd hc h1⟩
        exact (pkgNoted_state ..).trans (by omega)
    · obtain ⟨x, hx0, hx⟩ : ∃ x, x ≠ 0 ∧ exec i s = .next (pkgGo s b x) := by
        simp only [List.mem_cons, List.not_mem_nil, or_false] at hi
        rcases hi with rfl | rfl <;> exact ⟨_, by decide, rfl⟩
      have hany : s.admitted.any (fun p => p != s.pkg) = true := by simpa using hother
      rw [hgo, if_neg hx0, if_pos hany] at hx
      exact ⟨_, hx, status_setPkgStatus .., (pkgState_setPkgStatus ..).trans (pkgNoted_state ..)⟩
    · have hany : ¬s.admitted.any (fun p => p != s.pkg) = true := by simpa using halone
      have hgo' : ∀ x, x ≠ 0 → pkgGo s b x = _ := fun x hx => (hgo x).trans ((if_neg hx).trans (if_neg hany))
      refine ⟨⟨_, congrArg ok ((hgo' 1 (by decide)).trans (if_neg (by simp))), pkgArmed_spec _⟩, fun hv =>
        ⟨_, congrArg ok ((hgo' 2 (by decide)).trans (if_neg (by simp [hv]))), pkgArmed_spec _⟩, fun hv =>
        ⟨_, congrArg ok ((hgo' 2 (by decide)).trans (if_pos ⟨rfl, hv⟩)), ?_⟩⟩
      exact ⟨status_setPkgStatus .., (pkgState_setPkgStatus ..).trans (pkgNoted_state ..)⟩
  · exact ⟨fun hp hb => ⟨_, rfl, by
      obtain ⟨h1, h2, h3, h4⟩ := pkgEntering_spec hp hb
      exact ⟨h1, h2, h3, fun d hd => h4 d (by simp at hd; omega) (by simp at hd; omega)⟩⟩, fun h => ⟨s, congrArg ok (pkgEntering_waits h), rfl⟩⟩
  · refine ⟨fun h => ⟨s, congrArg ok ?_, rfl⟩, fun t0 h => ?_⟩
    · rw [pmeAck, h]
    · refine ⟨setRport { s with pw := { s.pw with pme := tset none (4 * g.val + k.val) none s.pw.pme } } (4 * g.val + k.val)
        { rport s (4 * g.val + k.val) with st := 0 }, congrArg ok ?_, ?_, tget_tset_same _, fun j hj => tget_tset_ne hj _⟩
      · rw [pmeAck, h]
      · exact (tget_tset_same (d := none) (v := (none : Option Nat)) (k := 4 * g.val + k.val) s.pw.pme)
  · have hgo := pkgPoint_goes hp hpme hdoms hnet h1 h2
    rcases hor with ht | ⟨ht, hempty, hpw⟩
    · have hrun : pkgPoint s = pkgAsleep s := hgo.trans (by simp [ht])
      obtain ⟨ha, hb, hc, hd, he, hf, hg⟩ := pkgAsleep_spec (.inl ht)
      exact ⟨_, congrArg ok hrun, ha, hb, hc, hd, he, fun _ => ⟨hf, hg⟩⟩
    · have hrun : pkgPoint s = pkgAsleep (allCachesOut s) := hgo.trans (by simp [ht, hempty])
      have htar : (allCachesOut s).pw.target = s.pw.target := congrArg PowerSt.target hpw
      obtain ⟨ha, hb, hc, hd, he, _⟩ := pkgAsleep_spec (s := allCachesOut s) (.inr (htar.trans ht))
      exact ⟨_, congrArg ok hrun, htar ▸ ha, hb, hc, hd, he, fun h => absurd (ht.symm.trans h) (by decide)⟩

end Sys2Proof.Machine
end

section
/-! PROOFS. States of stops and of rim segments (R333 to R337, R355). -/
namespace Sys2Proof.Machine

open Sys2Proof

/-! ### What packets for a dead stop leave (R320, R334) -/

/-- The registers that count what the fabric does. -/
def fabNames : List RegName := [.fabstat, .hubFabstat]

/-- From s to t packets for a dead stop were dealt with: others stay in flight, answers join them, what was dropped is counted. -/
structure Flushed (dead : StopId → Bool) (s t : State) : Prop where
  rest : { t with net := s.net, sendNo := s.sendNo, regs := s.regs } = s
  regs : ∀ r i, i < 2 ^ 32 → r ∉ fabNames → rg t r i = rg s r i
  net : ∀ p ∈ s.net, dead p.dst = false → p ∈ t.net

section
variable {dead : StopId → Bool} {s t u : State}

theorem Flushed.trans (h1 : Flushed dead s t) (h2 : Flushed dead t u) : Flushed dead s u := by
  refine ⟨?_, fun r i hi hr => (h2.regs r i hi hr).trans (h1.regs r i hi hr), fun p hp hd => h2.net p (h1.net p hp hd) hd⟩
  rw [← h1.rest, ← h2.rest]

theorem Flushed.cores (h : Flushed dead s t) : t.cores = s.cores := by rw [← h.rest]

theorem Flushed.dram (h : Flushed dead s t) : t.dram = s.dram := by rw [← h.rest]

theorem Flushed.lines (h : Flushed dead s t) : t.lines = s.lines := by rw [← h.rest]

theorem Flushed.stopState (h : Flushed dead s t) {st : StopId} (hst : st.die ≤ 12 ∧ st.stop < 32) : stopState t st = Machine.stopState s st := by
  refine congrArg (fld · _ _) (h.regs _ _ (fstopOf_lt hst.1 hst.2) ?_)
  unfold fstopOf
  split <;> simp [fabNames]

theorem flushed_incFab (s : State) (die hi lo : Nat) : Flushed dead s (incFab s die hi lo) := by
  have hcount : ∀ {r : RegName} {i : Nat}, i < 2 ^ 32 → r ∈ fabNames → Flushed dead s (incRgF s r i hi lo) := fun hi' hr =>
    ⟨rfl, fun _ _ hj hr' => rg_setRg_other hi' hj fun he => hr' (by rwa [(Prod.mk.inj he).1]), fun _ hp _ => hp⟩
  unfold incFab fabstatOf
  split
  · exact hcount (by dsimp only; omega) (by simp [fabNames])
  · exact hcount (by decide) (by simp [fabNames])

theorem flushed_fencedPacket (s : State) (p : Packet) : Flushed dead s (fencedPacket s p) := by
  unfold fencedPacket
  split
  · exact ⟨rfl, fun _ _ _ _ => rfl, fun q hq _ => List.mem_append_left _ hq⟩
  · exact flushed_incFab ..

theorem flushDead_flushed (s : State) (dead : StopId → Bool) : Flushed dead s (flushDead s dead) := by
  have hgone : Flushed dead s { s with net := s.net.filter (fun p => !(dead p.dst)) } :=
    ⟨rfl, fun _ _ _ _ => rfl, fun p hp hd => List.mem_filter.mpr ⟨hp, by simp [hd]⟩⟩
  unfold flushDead
  exact List.foldlRecOn (motive := Flushed dead s) _ _ hgone fun t ht p _ => ht.trans (flushed_fencedPacket t p)

end

/-! ### The states of stops (R333) -/

section
variable {s : State} {st st' : StopId}

theorem fstopOf_inj (h : st.die ≤ 12) (h' : st'.die ≤ 12) (hs : st.stop < 32) (hs' : st'.stop < 32) (he : fstopOf st = fstopOf st') : st = st' := by
  obtain ⟨d, n⟩ := st
  obtain ⟨d', n'⟩ := st'
  unfold fstopOf at he
  split at he <;> split at he <;> simp only [Prod.mk.injEq, reduceCtorEq, false_and, true_and] at he <;> simp only [StopId.mk.injEq] <;>
    dsimp only at * <;> omega

theorem stopState_setStopState (s : State) (st : StopId) (x : Nat) : stopState (setStopState s st x) st = x % 8 :=
  rgF_setRgF_same _ _ _ _ _ _ (by decide) (by decide)

theorem stopState_setStopState_ne (hst : st.die ≤ 12 ∧ st.stop < 32) (hst' : st'.die ≤ 12 ∧ st'.stop < 32) (hne : st' ≠ st) (s : State) (x : Nat) :
    stopState (setStopState s st x) st' = stopState s st' :=
  congrArg (fld · _ _) (rg_setRg_other (fstopOf_lt hst.1 hst.2) (fstopOf_lt hst'.1 hst'.2)
    fun he => hne (fstopOf_inj hst'.1 hst.1 hst'.2 hst.2 he))

theorem setStopState_regsOnly (hst : st.die ≤ 12 ∧ st.stop < 32) (s : State) (x : Nat) : RegsOnly [fstopOf st] s (setStopState s st x) :=
  .setRgF (fstopOf_lt hst.1 hst.2) List.mem_cons_self ..

/-- From s to t the stop took state x, and no other stop, byte of memory or line changed. -/
def StopTook (st : StopId) (x : Nat) (s t : State) : Prop :=
  stopState t st = x ∧ (∀ st', st'.die ≤ 12 → st'.stop < 32 → st' ≠ st → stopState t st' = stopState s st') ∧ t.dram = s.dram ∧ t.lines = s.lines

theorem StopTook.of_eq {x : Nat} {t u : State} (h : StopTook st x s t) (hr : u.regs = t.regs) (hd : u.dram = t.dram) (hl : u.lines = t.lines) :
    StopTook st x s u := by
  have hsame : ∀ st', stopState u st' = stopState t st' := fun st' => congrArg (fun l => stopState { t with regs := l } st') hr
  obtain ⟨h1, h2, h3, h4⟩ := h
  exact ⟨(hsame st).trans h1, fun st' ha hb hc => (hsame st').trans (h2 st' ha hb hc), hd.trans h3, hl.trans h4⟩

theorem setStopState_took (hst : st.die ≤ 12 ∧ st.stop < 32) (s : State) {x : Nat} (hx : x < 8) : StopTook st x s (setStopState s st x) :=
  ⟨(stopState_setStopState ..).trans (Nat.mod_eq_of_lt hx), fun _ ha hb hne => stopState_setStopState_ne hst ⟨ha, hb⟩ hne .., rfl, rfl⟩

theorem StopTook.flushed {x : Nat} {t u : State} {dead : StopId → Bool} (hst : st.die ≤ 12 ∧ st.stop < 32) (h : StopTook st x s t)
    (hf : Flushed dead t u) : StopTook st x s u := by
  obtain ⟨h1, h2, h3, h4⟩ := h
  exact ⟨(hf.stopState hst).trans h1, fun st' ha hb hne => (hf.stopState ⟨ha, hb⟩).trans (h2 st' ha hb hne), hf.dram.trans h3, hf.lines.trans h4⟩

/-- A writer that is not the management processor changes nothing of a stop; an attempt on a secure-owned one is recorded (R503). -/
theorem mpWrite_foreign_took {b : By} (hb : b ≠ .mp) (owned : Bool) (off : Nat) (act : State) : StopTook st (stopState s st) s (mpWrite s b owned off act) := by
  have hsame : StopTook st (stopState s st) s s := ⟨rfl, fun _ _ _ _ => rfl, rfl, rfl⟩
  rw [mpWrite, if_neg hb, ownWrite]
  split
  · have honly := hlDevice_only s 0x0022 (originOf s b) deniedOwned (payload2 (regPa off) 0)
    obtain ⟨u, hu⟩ : ∃ u, hlDevice s 0x0022 (originOf s b) deniedOwned (payload2 (regPa off) 0) = u := ⟨_, rfl⟩
    have hkept : u.regs = s.regs ∧ u.dram = s.dram ∧ u.lines = s.lines := by
      rw [hu] at honly
      rw [← honly]
      exact ⟨rfl, rfl, rfl⟩
    exact hlDenied.eq_def s b _ _ ▸ hu ▸ hsame.of_eq hkept.1 hkept.2.1 hkept.2.2
  · exact hsame

theorem fstopWrite_took {b : By} (v : Word) (hst : st.die ≤ 12 ∧ st.stop < 32) :
    StopTook st (if b = .mp ∧ ((stopState s st = 0 ∧ (fld v 2 0 = 1 ∨ fld v 2 0 = 4)) ∨ (stopState s st = 2 ∧ fld v 2 0 = 3)) then fld v 2 0 else stopState s st)
      s (fstopWrite s b st v) := by
  unfold fstopWrite
  dsimp only
  by_cases hb : b = .mp
  · subst hb
    rw [if_neg (show ¬(By.mp ≠ By.mp ∨ 12 < st.die ∨ 32 ≤ st.stop) by simp only [ne_eq, not_true_eq_false, false_or]; omega)]
    by_cases h1 : stopState s st = 0 ∧ fld v 2 0 = 1
    · rw [if_pos h1, if_pos ⟨rfl, .inl ⟨h1.1, .inl h1.2⟩⟩, h1.2]
      exact (setStopState_took hst s (by decide)).of_eq rfl rfl rfl
    · by_cases h4 : stopState s st = 0 ∧ fld v 2 0 = 4
      · rw [if_neg h1, if_pos h4, if_pos ⟨rfl, .inl ⟨h4.1, .inr h4.2⟩⟩, h4.2]
        exact (setStopState_took hst s (by decide)).flushed hst (flushDead_flushed ..)
      · by_cases h3 : stopState s st = 2 ∧ fld v 2 0 = 3
        · rw [if_neg h1, if_neg h4, if_pos h3, if_pos ⟨rfl, .inr h3⟩, h3.2]
          exact (setStopState_took hst s (by decide)).of_eq rfl rfl rfl
        · rw [if_neg h1, if_neg h4, if_neg h3, if_neg (by tauto)]
          exact ⟨rfl, fun _ _ _ _ => rfl, rfl, rfl⟩
  · rw [if_neg (show ¬(b = .mp ∧ _) from fun hc => hb hc.1), if_pos (.inl hb)]
    exact mpWrite_foreign_took hb ..

theorem stopDrainTimeout_spec (hst : st.die ≤ 12 ∧ st.stop < 32) (h1 : stopState s st = 1) (hlate : tget 0 (stopKey st) s.fstopAt + 20000 ≤ now s) :
    stopState (stopDrainTimeout s st) st = 4 ∧ (∀ p ∈ s.net, p.dst ≠ st → p ∈ (stopDrainTimeout s st).net) ∧ (stopDrainTimeout s st).cores = s.cores := by
  have hrun : stopDrainTimeout s st = flushDead (setStopState s st 4) (fun d => d == st) := if_pos ⟨h1, hlate⟩
  have hf := flushDead_flushed (setStopState s st 4) (fun d => d == st)
  rw [hrun]
  exact ⟨(hf.stopState hst).trans (stopState_setStopState ..), fun p hp hne => hf.net p hp (by simpa using hne), hf.cores⟩

end

/-! ### Rim segments (R335, R337) -/

/-- From s to t a packet was offered in class G: it left for its stops or waits at its source, a token is spent or the wait counted. -/
structure Offered (s t : State) : Prop where
  rest : { t with net := s.net, sendNo := s.sendNo, regs := s.regs, gHeld := s.gHeld, tokens := s.tokens } = s
  regs : ∀ r i, i < 2 ^ 32 → r ∉ fabNames → rg t r i = rg s r i

section
variable {s t : State}

theorem Offered.seg (h : Offered s t) (g : Nat) : segState t g = segState s g := by
  have hseg : t.seg = s.seg := by rw [← h.rest]
  rw [segState, hseg, segState]

theorem Offered.rgF (h : Offered s t) {r : RegName} {i : Nat} (hi : i < 2 ^ 32) (hr : r ∉ fabNames) (top lo : Nat) :
    Machine.rgF t r i top lo = Machine.rgF s r i top lo := congrArg (fld · _ _) (h.regs r i hi hr)

theorem mem_net_foldl_send : ∀ (l : List Packet) (s : State), (∀ p ∈ s.net, p ∈ (l.foldl (fun s q => send s { q with inj := now s % 2 ^ 32 }) s).net) ∧
    (∀ q ∈ l, ∃ p ∈ (l.foldl (fun s q => send s { q with inj := now s % 2 ^ 32 }) s).net, p.cmd = q.cmd ∧ p.arg = q.arg ∧ p.src = q.src ∧ p.dst = q.dst)
  | [], _ => ⟨fun _ hp => hp, fun _ hq => absurd hq List.not_mem_nil⟩
  | a :: l, s => by
    obtain ⟨hkept, hsent⟩ := mem_net_foldl_send l (send s { a with inj := now s % 2 ^ 32 })
    refine ⟨fun p hp => hkept p (List.mem_append_left _ hp), fun q hq => ?_⟩
    rcases List.mem_cons.mp hq with rfl | hq
    · exact ⟨_, hkept _ (List.mem_append_right _ List.mem_cons_self), rfl, rfl, rfl, rfl⟩
    · exact hsent q hq

theorem inject_offered (s : State) (p : Packet) : Offered s (inject s p) := by
  unfold inject
  refine List.foldlRecOn (motive := Offered s) _ _ ⟨rfl, fun _ _ _ _ => rfl⟩ fun t ht q _ => ⟨?_, fun r i hi hr => (ht.regs r i hi hr : _)⟩
  exact ht.rest

/-- The broadcast about segment g is on its way, or waits at its source (R335 steps 1 and 2). -/
def SegTold (g : Nat) (t : State) : Prop :=
  ∃ p, (p ∈ t.net ∨ p ∈ t.gHeld) ∧ p.cmd = .pwr ∧ p.arg = g ∧ p.src = ⟨g, 30⟩ ∧ p.dst.stop = 28

theorem segBroadcast_told (s : State) (g : Nat) : SegTold g (segBroadcast s g) := by
  unfold segBroadcast sendG
  dsimp only
  split
  · obtain ⟨p, hp, h1, h2, h3, h4⟩ := (mem_net_foldl_send (copiesOf { cmd := .pwr, src := ⟨g, 30⟩, dst := ⟨15, 28⟩, cls := .g, arg := g, holder := 1 })
      { s with tokens := tset 4 (stopKey ⟨g, 30⟩) (tokensOf s ⟨g, 30⟩ - 1) s.tokens }).2
      { cmd := .pwr, src := ⟨g, 30⟩, dst := ⟨0, 28⟩, cls := .g, arg := g, holder := 1 } (by simp [copiesOf])
    exact ⟨p, .inl hp, h1, h2, h3, h4 ▸ rfl⟩
  · rw [if_neg (by decide)]
    exact ⟨_, .inr (List.mem_append_right _ List.mem_cons_self), rfl, rfl, rfl, rfl⟩

theorem offered_incFab (s : State) (die hi lo : Nat) : Offered s (incFab s die hi lo) := by
  have hf : Flushed (fun _ => false) s (incFab s die hi lo) := flushed_incFab ..
  refine ⟨rfl, hf.regs⟩

theorem Offered.trans {u : State} (h1 : Offered s t) (h2 : Offered t u) : Offered s u := by
  refine ⟨?_, fun r i hi hr => (h2.regs r i hi hr).trans (h1.regs r i hi hr)⟩
  rw [← h1.rest, ← h2.rest]

theorem segBroadcast_offered (s : State) (g : Nat) : Offered s (segBroadcast s g) := by
  unfold segBroadcast sendG
  dsimp only
  split
  · exact Offered.trans (t := { s with tokens := tset 4 (stopKey ⟨g, 30⟩) (tokensOf s ⟨g, 30⟩ - 1) s.tokens }) ⟨rfl, fun _ _ _ _ => rfl⟩ (inject_offered ..)
  · rw [if_neg (by decide)]
    exact Offered.trans (t := { s with gHeld := s.gHeld ++ [{ cmd := .pwr, src := ⟨g, 30⟩, dst := ⟨15, 28⟩, cls := .g, arg := g, holder := 1 }] })
      ⟨rfl, fun _ _ _ _ => rfl⟩ (offered_incFab ..)

/-- The state a segment has, and the RIMSTATs of its two stacks show. -/
def SegShown (g x : Nat) (t : State) : Prop := segState t g = x ∧ rgF t .rimstat g 2 0 = x ∧ rgF t .rimstat ((g + 1) % 12) 2 0 = x

theorem setSeg_shown {g x : Nat} (hx : x < 8) (s : State) : SegShown g x (setSeg s g x) := by
  have hmod : x % 8 = x := Nat.mod_eq_of_lt hx
  refine ⟨tget_tset_same _, ?_, ?_⟩
  · refine (rgF_setRgF_index (by omega)).trans ?_
    exact (rgF_setRgF_same _ _ _ _ _ _ (by decide) (by decide)).trans hmod
  · exact (rgF_setRgF_same _ _ _ _ _ _ (by decide) (by decide)).trans hmod

theorem setSeg_rimctl {g : Nat} (hg : g < 12) (s : State) (x : Nat) : rgF (setSeg s g x) .rimctl g 0 0 = rgF s .rimctl g 0 0 :=
  (rgF_setRgF_name (by decide) (by omega) (by omega)).trans (rgF_setRgF_name (by decide) (by omega) (by omega))

theorem SegShown.offered {g x : Nat} (hg : g < 12) (h : SegShown g x s) (ho : Offered s t) : SegShown g x t := by
  obtain ⟨h1, h2, h3⟩ := h
  exact ⟨(ho.seg g).trans h1, (ho.rgF (by omega) (by decide) ..).trans h2, (ho.rgF (by omega) (by decide) ..).trans h3⟩

/-- A segment takes the state that RIMCTL.FENCE asks for, and every rim stop is told. -/
theorem rimWrite_spec {g : Nat} {b : Bool} (hg : g < 12) (h : (b = true ∧ segState s g = 0) ∨ (b = false ∧ segState s g = 3)) :
    SegShown g (if b then 1 else 4) (rimWrite s g b) ∧ SegTold g (rimWrite s g b) ∧ rgF (rimWrite s g b) .rimctl g 0 0 = b.toNat := by
  obtain ⟨u, hu⟩ : ∃ u, setRgF s .rimctl g 0 0 b.toNat = u := ⟨_, rfl⟩
  have hctl : rgF u .rimctl g 0 0 = b.toNat := by
    rw [← hu, rgF_setRgF_same _ _ _ _ _ _ (by decide) (by decide)]
    cases b <;> rfl
  have hseg : segState u g = segState s g := hu ▸ rfl
  have hrun : rimWrite s g b = segBroadcast (setSeg u g (if b then 1 else 4)) g := by
    rw [rimWrite, hu, hseg]
    rcases h with ⟨rfl, h0⟩ | ⟨rfl, h3⟩
    · rw [if_pos ⟨rfl, h0⟩]
      rfl
    · rw [if_neg (by simp), if_pos ⟨rfl, h3⟩]
      rfl
  have hoff := segBroadcast_offered (setSeg u g (if b then 1 else 4)) g
  rw [hrun]
  refine ⟨(setSeg_shown (by cases b <;> decide) u).offered hg hoff, segBroadcast_told .., ?_⟩
  exact (hoff.rgF (by omega) (by decide) ..).trans ((setSeg_rimctl hg ..).trans hctl)

theorem foldl_release_get (g : Nat) : ∀ (l : List Nat) (t : Tab Bool) (d : Nat), (d ∈ l ∨ tget false (g * 12 + d) t = false) →
    tget false (g * 12 + d) (l.foldl (fun t d => tset false (g * 12 + d) false t) t) = false
  | [], _, _, h => h.resolve_left List.not_mem_nil
  | a :: l, t, d, h => by
    refine foldl_release_get g l _ d ?_
    by_cases ha : d = a
    · exact .inr (ha ▸ tget_tset_same _)
    · exact h.imp (fun hm => (List.mem_cons.mp hm).resolve_left ha) fun hf => (tget_tset_ne (by omega) _).trans hf

theorem releaseHold_free (s : State) (g : Nat) {d : Nat} (hd : d < 12) : tget false (g * 12 + d) (releaseHold s g).rimHold = false :=
  foldl_release_get g _ _ _ (.inl (List.mem_range.mpr hd))

theorem SegShown.release {g x : Nat} (h : SegShown g x s) : SegShown g x (releaseHold s g) := by
  obtain ⟨h1, h2, h3⟩ := h
  exact ⟨h1, h2, h3⟩

theorem releaseHold_net (s : State) (g : Nat) : (releaseHold s g).net = s.net := rfl

theorem rimDrained_drained {g : Nat} (h1 : segState s g = 1) (hh : allHold s g = true) (hb : rimBusy s false = false) : rimDrained s g = setSeg s g 2 :=
  if_pos ⟨h1, hh, by rw [hb]; rfl⟩

theorem rimDrained_fenced {g : Nat} (hg : g < 12) (h2 : segState s g = 2) (hc : rgF s .rimctl g 0 0 = 1) : rimDrained s g = releaseHold (setSeg s g 3) g := by
  have hctl : rgF (releaseHold (setSeg s g 3) g) .rimctl g 0 0 = 1 := (setSeg_rimctl hg s 3).trans hc
  rw [rimDrained, if_neg (by omega), if_pos h2]
  dsimp only
  rw [hctl, if_neg (by decide)]

theorem rimDrained_rejoined {g : Nat} (hg : g < 12) (h4 : segState s g = 4) (hh : allHold s g = true) (hb : rimBusy s true = false)
    (hc : rgF s .rimctl g 0 0 = 0) : rimDrained s g = releaseHold (setSeg s g 0) g := by
  have hctl : rgF (releaseHold (setSeg s g 0) g) .rimctl g 0 0 = 0 := (setSeg_rimctl hg s 0).trans hc
  rw [rimDrained, if_neg (by omega), if_neg (by omega), if_pos ⟨h4, hh, by rw [hb]; rfl⟩]
  dsimp only
  rw [hctl, if_neg (by decide)]

end

theorem Arrived.seg {s t : State} (h : Arrived s t) : t.seg = s.seg := by rw [← h.rest]

/-! ### The obligation -/

/-- Settles O33: a stop by `fstopWrite_took` and `stopDrainTimeout_spec`, a rim segment by `rimWrite_spec` and the three ends of `rimDrained`. -/
theorem stopsAndRimSegments : Obligations.StopsAndRimSegments := by
  unfold Obligations.StopsAndRimSegments
  refine ⟨fun b st v s h1 h2 => ⟨_, rfl, fstopWrite_took v ⟨h1, h2⟩⟩, fun st s h1 h2 => ?_, fun g s => ?_, fun die p u s htake hp hdie harg => ?_⟩
  · have hst : st.die ≤ 12 ∧ st.stop < 32 := ⟨h1, h2⟩
    refine ⟨fun h hd => ⟨setStopState s st 2, congrArg ok (if_pos ⟨h, hd⟩), stopState_setStopState .., setStopState_regsOnly hst ..⟩,
      fun h hd => ⟨s, congrArg ok (if_neg (by simp [hd])), rfl⟩, fun h hlate => ⟨_, rfl, stopDrainTimeout_spec hst h hlate⟩,
      fun h => ⟨setStopState s st 0, congrArg ok (if_pos h), stopState_setStopState .., setStopState_regsOnly hst ..⟩⟩
  · have hg := g.isLt
    refine ⟨fun h => ⟨_, rfl, rimWrite_spec hg (.inl ⟨rfl, h⟩)⟩, fun h => ⟨_, rfl, rimWrite_spec hg (.inr ⟨rfl, h⟩)⟩, fun h hh hb => ?_, fun h hc => ?_,
      fun h hh hb hc => ?_, fun hout h hp => ?_⟩
    · exact ⟨_, congrArg ok (rimDrained_drained h hh hb), setSeg_shown (x := 2) (by decide) s, rfl, rfl⟩
    · exact ⟨_, congrArg ok (rimDrained_fenced hg h hc), (setSeg_shown (x := 3) (by decide) s).release, fun d hd => releaseHold_free _ _ hd, releaseHold_net ..⟩
    · exact ⟨_, congrArg ok (rimDrained_rejoined hg h hh hb hc), (setSeg_shown (x := 0) (by decide) s).release, fun d hd => releaseHold_free _ _ hd, releaseHold_net ..⟩
    · obtain ⟨ha, hb, _⟩ := rimWrite_spec (b := true) hg (.inl ⟨rfl, h⟩)
      exact ⟨rimWrite s g.val true, congrArg ok (if_pos (by simp [hout, h, hp])), ha, hb⟩
  · have harr := gArrive_arrived u p
    have hseg : u.seg = s.seg := by rw [← takePacket_kept htake]
    generalize hw : gArrive u p = w at harr
    have hhold : tget false (p.arg * 12 + die.val) (tset false (p.arg * 12 + die.val) true w.rimHold) = true := tget_tset_same _
    refine ⟨{ w with rimHold := tset false (p.arg * 12 + die.val) true w.rimHold }, ?_, hhold, harr.net, harr.seg.trans hseg⟩
    refine congrArg ok ?_
    unfold pwrArrive
    rw [htake]
    dsimp only
    rw [hw]
    exact if_pos ⟨hp, hdie, harg⟩

end Sys2Proof.Machine
end

section
/-! PROOFS. Training of Sprue links, and links that stay down (R346 to R358, R643). -/
namespace Sys2Proof.Machine

open Sys2Proof

/-! ### LINKSTAT and the ends (R346) -/

section
variable {s t u : State} {n m hi lo x : Nat}

theorem lsF_setLsF_same (h1 : hi < 64) (h2 : lo ≤ hi) (s : State) (n x : Nat) : lsF (setLsF s n hi lo x) n hi lo = x % 2 ^ (hi + 1 - lo) :=
  rgF_setRgF_same _ _ _ _ _ _ h1 h2

theorem lsF_setLsF_field {hi' lo' : Nat} (h1 : hi < 64) (h2 : lo ≤ hi) (h : hi' < lo ∨ hi < lo') (s : State) (n x : Nat) :
    lsF (setLsF s n hi lo x) n hi' lo' = lsF s n hi' lo' := rgF_setRgF_field _ _ _ _ _ _ _ _ h1 h2 h

theorem linkEnd_setLsF (s : State) (n hi lo x m : Nat) : linkEnd (setLsF s n hi lo x) m = linkEnd s m := rfl

theorem lsF_setEnd (s : State) (n : Nat) (e : LinkEnd) (m hi lo : Nat) : lsF (setEnd s n e) m hi lo = lsF s m hi lo := rfl

theorem lsF_raiseSrc (hm : m < 48) (hn : n < 48) (s : State) (hi lo : Nat) : lsF (raiseSrc s (linkSrc n)) m hi lo = lsF s m hi lo :=
  rgF_raiseSrc (linkSrc_lt hn) (lsReg_lt_of hm) (lsReg_ne_intsrc m _) hi lo

theorem lsF_setLsState (hn : n < 48) (h : 3 < lo) (s : State) (hi x : Nat) : lsF (setLsState s n x) n hi lo = lsF s n hi lo := by
  obtain ⟨v, e, he, hv⟩ := setLsState_eq s n x
  rw [he, lsF_setLsF_field (by decide) (by decide) (.inr h), lsF_setEnd]
  rcases hv with rfl | rfl
  · rfl
  · exact lsF_raiseSrc hn hn ..

/-- A training state taken changes the times of its end alone. -/
theorem linkEnd_setLsState (s : State) (n x : Nat) : ∃ a b, linkEnd (setLsState s n x) n = { linkEnd s n with since := a, outSince := b } := by
  unfold setLsState
  dsimp only
  rw [linkEnd_setLsF, linkEnd_setEnd_same]
  split <;> exact ⟨_, _, rfl⟩

theorem linkEnd_setLsState_ne (h : m ≠ n) (s : State) (x : Nat) : linkEnd (setLsState s n x) m = linkEnd s m := by
  unfold setLsState
  dsimp only
  rw [linkEnd_setLsF, linkEnd_setEnd_ne h]
  split <;> rfl

theorem LinkOnly.lsF (h : LinkOnly n s t) (hm : m < 48) (hne : m ≠ n) (hi lo : Nat) : Machine.lsF t m hi lo = Machine.lsF s m hi lo :=
  h.rgF (lsReg_lt_of hm) (lsReg_ne hne) (lsReg_ne_intsrc m _) hi lo

theorem LinkOnly.net (h : LinkOnly n s t) : t.net = s.net := by rw [← h.rest]

theorem linkOnly_setEnd (s : State) (n m : Nat) (e : LinkEnd) : LinkOnly n s (setEnd s m e) := ⟨rfl, fun _ _ _ _ _ => rfl⟩

theorem lnReg_name (n : Nat) : (lnReg n).1 = .linkcnt ∨ (lnReg n).1 = .hubLinkcnt := by
  unfold lnReg
  split
  · exact .inl rfl
  · exact .inr rfl

theorem lnReg_lt_of (h : n < 48) : (lnReg n).2 < 2 ^ 32 := by
  unfold lnReg
  split <;> dsimp only <;> omega

theorem lcReg_name (n : Nat) : (lcReg n).1 = .linkctl ∨ (lcReg n).1 = .hubLinkctl := by
  unfold lcReg
  split
  · exact .inl rfl
  · exact .inr rfl

theorem lcReg_lt_of (h : n < 48) : (lcReg n).2 < 2 ^ 32 := by
  unfold lcReg
  split <;> dsimp only <;> omega

/-- LINKCNT and LINKCTL of an end are neither a LINKSTAT nor a source. -/
theorem lnReg_ne (n m k : Nat) : lnReg n ≠ lsReg m ∧ lnReg n ≠ (.intsrc, k) := by
  refine ⟨fun he => ?_, fun he => ?_⟩
  · rcases lnReg_name n with hr | hr <;> rcases lsReg_name m with hr' | hr' <;> rw [he] at hr <;> rw [hr] at hr' <;> cases hr'
  · rcases lnReg_name n with hr | hr <;> rw [he] at hr <;> cases hr

theorem lcReg_ne (n m k : Nat) : lcReg n ≠ lsReg m ∧ lcReg n ≠ (.intsrc, k) := by
  refine ⟨fun he => ?_, fun he => ?_⟩
  · rcases lcReg_name n with hr | hr <;> rcases lsReg_name m with hr' | hr' <;> rw [he] at hr <;> rw [hr] at hr' <;> cases hr'
  · rcases lcReg_name n with hr | hr <;> rw [he] at hr <;> cases hr

end

/-! ### SAFE_TRAIN (R346, R347) -/

/-- From s to t end n came to SAFE_TRAIN; its epoch advanced where `fresh` says so. -/
structure SafeEntered (n : Nat) (fresh : Bool) (s t : State) : Prop where
  state : lsState t n = 2
  epoch : lsF t n 63 56 = if fresh then (lsF s n 63 56 + 1) % 256 else lsF s n 63 56
  ended : ∃ a b, linkEnd t n = { linkEnd s n with since := a, outSince := b, tested := false, peerQ := none }
  only : LinkOnly n s t

theorem enterSafe_spec {n : Nat} (hn : n < 48) (s : State) (fresh : Bool) : SafeEntered n fresh s (enterSafe s n fresh) := by
  obtain ⟨u, hu⟩ : ∃ u, setLsState s n 2 = u := ⟨_, rfl⟩
  have hstate : lsState u n = 2 := hu ▸ lsState_setLsState_same s n 2
  have hepoch : lsF u n 63 56 = lsF s n 63 56 := hu ▸ lsF_setLsState hn (by decide) s 63 2
  have honly : LinkOnly n s u := hu ▸ linkOnly_setLsState hn s 2
  obtain ⟨a, b, hend⟩ : ∃ a b, linkEnd u n = { linkEnd s n with since := a, outSince := b } := hu ▸ linkEnd_setLsState s n 2
  obtain ⟨w, hw⟩ : ∃ w, (if fresh then setLsF u n 63 56 ((lsF u n 63 56 + 1) % 256) else u) = w := ⟨_, rfl⟩
  have hrun : enterSafe s n fresh = setEnd w n { linkEnd w n with tested := false, peerQ := none } := by rw [enterSafe, hu, ← hw]
  have hwend : linkEnd w n = linkEnd u n := by
    rw [← hw]
    split <;> rfl
  have hwonly : LinkOnly n u w := by
    rw [← hw]
    split
    · exact linkOnly_setLsF hn ..
    · exact ⟨rfl, fun _ _ _ _ _ => rfl⟩
  have hwstate : lsState w n = 2 := by
    rw [← hw]
    split
    · exact (lsState_setLsF (by decide) (by decide) (by decide) ..).trans hstate
    · exact hstate
  have hwepoch : lsF w n 63 56 = if fresh then (lsF s n 63 56 + 1) % 256 else lsF s n 63 56 := by
    rw [← hw, ← hepoch]
    split
    · rw [lsF_setLsF_same (by decide) (by decide)]
      exact Nat.mod_mod ..
    · rfl
  rw [hrun]
  refine ⟨hwstate, hwepoch, ⟨a, b, ?_⟩, (honly.trans hwonly).trans (linkOnly_setEnd ..)⟩
  rw [linkEnd_setEnd_same, hwend, hend]

/-- The tests leave an end in SAFE_TRAIN until the peer's QMASK is known and its own tests are over. -/
theorem trySafe_waits {s : State} {n : Nat} (h : (linkEnd s n).tested = false ∨ (linkEnd s n).peerQ = none) : trySafe s n = s := by
  refine if_pos (.inr ?_)
  rcases h with h | h
  · exact .inl (by simp [h])
  · exact .inr (by simp [h])

theorem peerEnd_lt (n : EndId) : peerEnd n < 48 := by
  have := n.isLt
  unfold peerEnd
  split_ifs <;> omega

theorem safeTrainDone_spec {s : State} {n : Nat} (passed : BitVec 4) (h2 : lsState s n = 2) (hq : (linkEnd s n).peerQ = none) :
    let t := safeTrainDone s n passed.toNat
    lsF t n 47 44 = passed.toNat &&& (15 - lsF s n 43 40) ∧ (linkEnd t n).tested = true ∧ lsState t n = 2 := by
  obtain ⟨f, ret, hrun⟩ : ∃ (f : Tab Nat) (ret : Nat), safeTrainDone s n passed.toNat =
      trySafe (setEnd (setLsF (setLsF s n 43 40 ret) n 47 44 (passed.toNat &&& (15 - lsF s n 43 40))) n { linkEnd s n with qFails := f, tested := true }) n := by
    unfold safeTrainDone
    rw [if_neg (by omega)]
    exact ⟨_, _, rfl⟩
  have hend : ∀ (v : State) (e : LinkEnd), linkEnd (setEnd v n e) n = e := fun v e => linkEnd_setEnd_same v n e
  have hlt : passed.toNat &&& (15 - lsF s n 43 40) < 2 ^ 4 := Nat.lt_of_le_of_lt Nat.and_le_left passed.isLt
  have hret : lsState (setLsF s n 43 40 ret) n = 2 := (lsState_setLsF (by decide) (by decide) (by decide) ..).trans h2
  rw [hrun, trySafe_waits (.inr (by rw [hend]; exact hq))]
  dsimp only
  rw [hend]
  generalize setLsF s n 43 40 ret = u at hret
  generalize passed.toNat &&& (15 - lsF s n 43 40) = x at hlt
  have hset : lsF (setLsF u n 47 44 x) n 47 44 = x := (lsF_setLsF_same (by decide) (by decide) ..).trans (Nat.mod_eq_of_lt hlt)
  have hstate : lsState (setLsF u n 47 44 x) n = 2 := (lsState_setLsF (by decide) (by decide) (by decide) ..).trans hret
  generalize setLsF u n 47 44 x = w at hset hstate
  exact ⟨hset, rfl, hstate⟩

/-- A TRAIN unit of the peer gives an untested end the peer's epoch and the revision (R348, R357). -/
theorem trainArrive_spec {s : State} {n : EndId} {r : Nat} (h2 : lsState s n = 2) (hp : lsState s (peerEnd n) = 2 ∨ lsState s (peerEnd n) = 3)
    (hrev : agreedRev s n = some r) (hr : r < 256) (htest : (linkEnd s n).tested = false) : let t := trainArrive s n
    lsState t n = 2 ∧ lsF t n 55 48 = lsF s (peerEnd n) 63 56 ∧ lsF t n 39 32 = r ∧
    ((linkEnd s (peerEnd n)).tested = true → (linkEnd t n).peerQ = some (lsF s (peerEnd n) 47 44)) ∧ lsState t (peerEnd n) = lsState s (peerEnd n) := by
  have hpeer := peerEnd_ne n
  have hlt := peerEnd_lt n
  have hn := n.isLt
  obtain ⟨u, hu⟩ : ∃ u, setLsF (setLsF s n 55 48 (lsF s (peerEnd n) 63 56)) n 39 32 r = u := ⟨_, rfl⟩
  have honly : LinkOnly n s u := hu ▸ (linkOnly_setLsF hn ..).trans (linkOnly_setLsF hn ..)
  have hends : ∀ m, linkEnd u m = linkEnd s m := fun m => hu ▸ rfl
  have hstate : lsState u n = 2 := by
    rw [← hu]
    exact (lsState_setLsF (by decide) (by decide) (by decide) ..).trans ((lsState_setLsF (by decide) (by decide) (by decide) ..).trans h2)
  have hepoch : lsF u n 55 48 = lsF s (peerEnd n) 63 56 := by
    rw [← hu, lsF_setLsF_field (by decide) (by decide) (.inr (by decide)), lsF_setLsF_same (by decide) (by decide)]
    exact Nat.mod_eq_of_lt (fld_lt ..)
  have hrev' : lsF u n 39 32 = r := by
    rw [← hu, lsF_setLsF_same (by decide) (by decide)]
    exact Nat.mod_eq_of_lt hr
  obtain ⟨e, he⟩ : ∃ e, e = { linkEnd s n with peerQ := if (linkEnd s (peerEnd n)).tested then some (lsF s (peerEnd n) 47 44) else (linkEnd s n).peerQ } :=
    ⟨_, rfl⟩
  have hq : lsF u (peerEnd n) 47 44 = lsF s (peerEnd n) 47 44 := honly.lsF hlt hpeer ..
  have hsame : linkEnd (setEnd u n e) n = e := linkEnd_setEnd_same ..
  have hrun : trainArrive s n = setEnd u n e := by
    unfold trainArrive
    dsimp only
    rw [if_neg (by omega), h2, if_neg (by decide), if_neg (by simp), if_pos rfl, hrev]
    dsimp only
    rw [hu, hends, hends, hq, ← he]
    exact trySafe_waits (.inl (by rw [hsame, he]; exact htest))
  rw [hrun]
  refine ⟨hstate, hepoch, hrev', fun ht => ?_, honly.lsF hlt hpeer 3 0⟩
  rw [hsame, he]
  exact if_pos ht

/-! ### DOWN and RETRAIN (R345, R346, R354) -/

section
variable {s : State} {n : Nat}

theorem flushed_handBack (dead : StopId → Bool) (s : State) (n : Nat) (p : Packet) : Flushed dead s (handBack s n p) := by
  have hback : ∀ (u : State) (q : Packet), Flushed dead u { u with net := u.net ++ [q] } := fun u q =>
    ⟨rfl, fun _ _ _ _ => rfl, fun _ hp _ => List.mem_append_left _ hp⟩
  unfold handBack
  dsimp only
  split
  · split
    · exact hback ..
    · exact (flushed_incFab s _ 31 24).trans (hback ..)
  · exact hback ..

theorem endLog_eq (n : Nat) : endLog n = evLog (if n < 36 then n / 3 else 12) := by
  unfold endLog evLog
  by_cases h : n < 36
  · rw [if_pos h, if_pos h, if_pos (by omega)]
  · rw [if_neg h, if_neg h, if_neg (by decide)]

theorem enterDown_spec (hn : n < 48) (s : State) : lsState (enterDown s n) n = 7 ∧ lsF (enterDown s n) n 31 30 = 3 ∧
    (linkEnd (enterDown s n) n).riser = [] ∧ (linkEnd (enterDown s n) n).txq = [] := by
  obtain ⟨u, hu⟩ : ∃ u, setLsF (setLsState s n 7) n 31 30 3 = u := ⟨_, rfl⟩
  have hstate : lsState u n = 7 := hu ▸ (lsState_setLsF (by decide) (by decide) (by decide) ..).trans (lsState_setLsState_same s n 7)
  have hwidth : lsF u n 31 30 = 3 := hu ▸ lsF_setLsF_same (by decide) (by decide) ..
  obtain ⟨v, hv⟩ : ∃ v, incRgF u (lnReg n).1 (lnReg n).2 15 0 = v := ⟨_, rfl⟩
  have hcount : rg v (lsReg n).1 (lsReg n).2 = rg u (lsReg n).1 (lsReg n).2 :=
    hv ▸ rg_setRg_other (lnReg_lt_of hn) (lsReg_lt_of hn) (lnReg_ne n n 0).1.symm
  obtain ⟨w, hw⟩ : ∃ w, logErr v (endLog n) 0x1B (endUnit n) 0 0 = w := ⟨_, rfl⟩
  have hlog : NamesOnly eventNames v w := by
    rw [← hw, endLog_eq]
    exact logErr_event_namesOnly ..
  obtain ⟨x, hx⟩ : ∃ x, (riserPackets (linkEnd w n)).foldl (fun s p => handBack s n p) w = x := ⟨_, rfl⟩
  have hback : Flushed (fun _ => true) w x := by
    rw [← hx]
    exact List.foldlRecOn (motive := Flushed (fun _ => true) w) _ _ ⟨rfl, fun _ _ _ _ => rfl, fun _ hp _ => hp⟩
      fun t ht p _ => ht.trans (flushed_handBack _ t n p)
  have hstat : rg x (lsReg n).1 (lsReg n).2 = rg u (lsReg n).1 (lsReg n).2 := by
    rw [hback.regs _ _ (lsReg_lt_of hn) (by rcases lsReg_name n with hr | hr <;> rw [hr] <;> decide),
      hlog.regs _ _ (lsReg_lt_of hn) (by rcases lsReg_name n with hr | hr <;> rw [hr] <;> decide), hcount]
  have hrun : enterDown s n = setEnd x n { linkEnd x n with riser := [], txq := [], txIdx := 0 } := by
    rw [enterDown, hu, hv, hw, hx]
  have hend : linkEnd (enterDown s n) n = { linkEnd x n with riser := [], txq := [], txIdx := 0 } := hrun ▸ linkEnd_setEnd_same ..
  rw [hend, hrun]
  exact ⟨(congrArg (fld · 3 0) hstat).trans hstate, (congrArg (fld · 31 30) hstat).trans hwidth, rfl, rfl⟩

theorem enterRetrain_spec (hn : n < 48) (s : State) : let t := enterRetrain s n
    lsState t n = 2 ∧ lsF t n 63 56 = (lsF s n 63 56 + 1) % 256 ∧
    rgF t (lnReg n).1 (lnReg n).2 31 16 = min (rgF s (lnReg n).1 (lnReg n).2 31 16 + 1) 65535 ∧ (linkEnd t n).riser = (linkEnd s n).riser ∧ t.net = s.net := by
  obtain ⟨u, hu⟩ : ∃ u, incRgF s (lnReg n).1 (lnReg n).2 31 16 = u := ⟨_, rfl⟩
  have hcount : rgF u (lnReg n).1 (lnReg n).2 31 16 = min (rgF s (lnReg n).1 (lnReg n).2 31 16 + 1) 65535 := hu ▸ rgF_incRgF_same (by decide) (by decide)
  have hepoch : lsF u n 63 56 = lsF s n 63 56 :=
    hu ▸ congrArg (fld · 63 56) (rg_setRg_other (lnReg_lt_of hn) (lsReg_lt_of hn) (lnReg_ne n n 0).1.symm)
  have hnet : u.net = s.net := hu ▸ rfl
  have hends : linkEnd u n = linkEnd s n := hu ▸ rfl
  obtain ⟨v, hv⟩ : ∃ v, setLsState u n 6 = v := ⟨_, rfl⟩
  have honly : LinkOnly n u v := hv ▸ linkOnly_setLsState hn u 6
  have hepoch' : lsF v n 63 56 = lsF u n 63 56 := hv ▸ lsF_setLsState hn (by decide) u 63 6
  obtain ⟨w, hw⟩ : ∃ w, setEnd v n { linkEnd u n with attempts := 0, tries := [] } = w := ⟨_, rfl⟩
  have honly' : LinkOnly n v w := hw ▸ linkOnly_setEnd ..
  have hwend : linkEnd w n = { linkEnd u n with attempts := 0, tries := [] } := hw ▸ linkEnd_setEnd_same ..
  have hwepoch : lsF w n 63 56 = lsF v n 63 56 := hw ▸ rfl
  obtain ⟨hstate, hadv, ⟨a', b', hend'⟩, hsafe⟩ := enterSafe_spec hn w true
  have hrun : enterRetrain s n = enterSafe w n true := by
    rw [enterRetrain, hu]
    dsimp only
    rw [hv, hw]
  have hall : LinkOnly n u (enterSafe w n true) := (honly.trans honly').trans hsafe
  rw [hrun]
  refine ⟨hstate, ?_, ?_, ?_, hall.net.trans hnet⟩
  · rw [hadv, if_pos rfl, hwepoch, hepoch', hepoch]
  · exact (hall.rgF (lnReg_lt_of hn) (lnReg_ne n n 0).1 (lnReg_ne n n _).2 31 16).trans hcount
  · rw [hend', hwend, hends]

/-- A reset takes LINKCTL back and the end to DETECT; the riser and the numbers stay (R351). -/
theorem linkReset_spec (hn : n < 48) (h : ¬(36 ≤ n ∧ tget false (n - 36) s.fencedStk = true)) : let t := linkReset s .mp n
    lsState t n = 1 ∧ rg t (lcReg n).1 (lcReg n).2 = regReset (lcReg n).1 ∧ lsF t n 63 56 = lsF s n 63 56 ∧
    (linkEnd t n).riser = (linkEnd s n).riser ∧ (linkEnd t n).rxNext = (linkEnd s n).rxNext := by
  obtain ⟨u, hu⟩ : ∃ u, setRg s (lcReg n).1 (lcReg n).2 (regReset (lcReg n).1) = u := ⟨_, rfl⟩
  have hctl : rg u (lcReg n).1 (lcReg n).2 = regReset (lcReg n).1 := hu ▸ rg_setRg_same ..
  have hepoch : lsF u n 63 56 = lsF s n 63 56 :=
    hu ▸ congrArg (fld · 63 56) (rg_setRg_other (lcReg_lt_of hn) (lsReg_lt_of hn) (lcReg_ne n n 0).1.symm)
  have hends : linkEnd u n = linkEnd s n := hu ▸ rfl
  have hrun : linkReset s .mp n = setLsF (setLsState u n 1) n 31 30 3 := by
    rw [linkReset, mpWrite, if_pos rfl, if_neg (by simpa using h), hu]
  have honly : LinkOnly n u (setLsF (setLsState u n 1) n 31 30 3) := (linkOnly_setLsState hn u 1).trans (linkOnly_setLsF hn ..)
  obtain ⟨a, b, hend⟩ := linkEnd_setLsState u n 1
  rw [hrun]
  dsimp only
  rw [linkEnd_setLsF, hend, hends]
  refine ⟨(lsState_setLsF (by decide) (by decide) (by decide) ..).trans (lsState_setLsState_same u n 1), ?_, ?_, rfl, rfl⟩
  · exact (honly.regs _ _ (lcReg_lt_of hn) (lcReg_ne n n 0).1 (lcReg_ne n n _).2).trans hctl
  · rw [lsF_setLsF_field (by decide) (by decide) (.inr (by decide)), lsF_setLsState hn (by decide), hepoch]

end

/-! ### CONFIRM (R349) -/

/-- An end comes to ACTIVE with a width and its lowest quarter; nothing of before is left on its wires. -/
def linkOn (s : State) (k w q : Nat) : State :=
  let s := setLsF (setLsF (setLsState s k 5) k 31 30 w) k 29 28 q
  setEnd s k { linkEnd s k with wire := [], nakAt := none, tries := [] }

theorem activate_eq (s : State) (n p wn qn wp qp : Nat) : activate s n p wn qn wp qp =
    (let u := linkOn (linkOn s n wn qn) p wp qp
     resume (resume u n (linkEnd u p).rxNext) p (linkEnd u n).rxNext) := rfl

section
variable {s : State} {n m w : Nat}

theorem linkOn_spec (hn : n < 48) (hw : w < 4) (s : State) (q : Nat) : lsState (linkOn s n w q) n = 5 ∧ lsF (linkOn s n w q) n 31 30 = w ∧
    LinkOnly n s (linkOn s n w q) ∧ (linkEnd (linkOn s n w q) n).rxNext = (linkEnd s n).rxNext ∧
    (linkEnd (linkOn s n w q) n).txSeq = (linkEnd s n).txSeq := by
  obtain ⟨u, hu⟩ : ∃ u, setLsState s n 5 = u := ⟨_, rfl⟩
  have hstate : lsState u n = 5 := hu ▸ lsState_setLsState_same s n 5
  have honly : LinkOnly n s u := hu ▸ linkOnly_setLsState hn s 5
  obtain ⟨a, b, hend⟩ : ∃ a b, linkEnd u n = { linkEnd s n with since := a, outSince := b } := hu ▸ linkEnd_setLsState s n 5
  obtain ⟨v, hv⟩ : ∃ v, setLsF (setLsF u n 31 30 w) n 29 28 q = v := ⟨_, rfl⟩
  have hvonly : LinkOnly n u v := hv ▸ (linkOnly_setLsF hn ..).trans (linkOnly_setLsF hn ..)
  have hvstate : lsState v n = 5 :=
    hv ▸ (lsState_setLsF (by decide) (by decide) (by decide) ..).trans ((lsState_setLsF (by decide) (by decide) (by decide) ..).trans hstate)
  have hwidth : lsF v n 31 30 = w := by
    rw [← hv, lsF_setLsF_field (by decide) (by decide) (.inr (by decide)), lsF_setLsF_same (by decide) (by decide)]
    exact Nat.mod_eq_of_lt hw
  have hvend : linkEnd v n = linkEnd u n := hv ▸ rfl
  have hrun : linkOn s n w q = setEnd v n { linkEnd v n with wire := [], nakAt := none, tries := [] } := by rw [linkOn, hu, hv]
  rw [hrun, linkEnd_setEnd_same]
  refine ⟨hvstate, hwidth, (honly.trans hvonly).trans (linkOnly_setEnd ..), ?_, ?_⟩ <;> rw [hvend, hend]

theorem linkEnd_linkOn_ne (h : m ≠ n) (s : State) (w q : Nat) : linkEnd (linkOn s n w q) m = linkEnd s m :=
  (linkEnd_setEnd_ne h).trans (linkEnd_setLsState_ne h s 5)

theorem resume_all {q : Nat} (h : q = (linkEnd s n).txSeq) : resume s n q = setEnd s n { linkEnd s n with riser := [] } := if_pos h

/-- Agreeing choices make both ends ACTIVE; a riser the peer has taken whole is dropped. -/
theorem activate_spec {p : Nat} (hn : n < 48) (hp : p < 48) (hne : p ≠ n) (hw : w < 4) (q : Nat) (h1 : (linkEnd s p).rxNext = (linkEnd s n).txSeq)
    (h2 : (linkEnd s n).rxNext = (linkEnd s p).txSeq) : let t := activate s n p w q w q
    lsState t n = 5 ∧ lsState t p = 5 ∧ lsF t n 31 30 = w ∧ lsF t p 31 30 = w ∧ (linkEnd t n).riser = [] ∧ (linkEnd t p).riser = [] ∧
    (linkEnd t n).txSeq = (linkEnd s n).txSeq ∧ t.net = s.net := by
  obtain ⟨hstate, hwidth, honly, hrx, htx⟩ := linkOn_spec hn hw s q
  have hother : linkEnd (linkOn s n w q) p = linkEnd s p := linkEnd_linkOn_ne hne ..
  obtain ⟨u, hu⟩ : ∃ u, linkOn s n w q = u := ⟨_, rfl⟩
  rw [hu] at hstate hwidth honly hrx htx hother
  obtain ⟨hstate', hwidth', honly', hrx', htx'⟩ := linkOn_spec hp hw u q
  have hother' : linkEnd (linkOn u p w q) n = linkEnd u n := linkEnd_linkOn_ne hne.symm ..
  obtain ⟨v, hv⟩ : ∃ v, linkOn u p w q = v := ⟨_, rfl⟩
  rw [hv] at hstate' hwidth' honly' hrx' htx' hother'
  obtain ⟨x, hx⟩ : ∃ x, setEnd v n { linkEnd v n with riser := [] } = x := ⟨_, rfl⟩
  have hxn : linkEnd x n = { linkEnd v n with riser := [] } := hx ▸ linkEnd_setEnd_same ..
  have hxp : linkEnd x p = linkEnd v p := hx ▸ linkEnd_setEnd_ne hne
  have hxs : ∀ m hi lo, lsF x m hi lo = lsF v m hi lo := fun _ _ _ => hx ▸ rfl
  have hxnet : x.net = s.net := by
    have h3 : x.net = v.net := hx ▸ rfl
    rw [h3, honly'.net, honly.net]
  have hrun : activate s n p w q w q = setEnd x p { linkEnd x p with riser := [] } := by
    rw [activate_eq, hu, hv]
    dsimp only
    have hsent : resume v n (linkEnd v p).rxNext = x := (resume_all (by rw [hrx', hother, h1, hother', htx])).trans hx
    have hsent' : resume x p (linkEnd v n).rxNext = setEnd x p { linkEnd x p with riser := [] } :=
      resume_all (by rw [hother', hrx, hxp, htx', hother, h2])
    rw [hsent, hsent']
  rw [hrun]
  dsimp only
  rw [linkEnd_setEnd_same, linkEnd_setEnd_ne hne.symm, hxn]
  refine ⟨?_, ?_, ?_, ?_, rfl, rfl, ?_, hxnet⟩
  · exact (hxs n 3 0).trans ((honly'.lsF hn hne.symm 3 0).trans hstate)
  · exact (hxs p 3 0).trans hstate'
  · exact (hxs n 31 30).trans ((honly'.lsF hn hne.symm 31 30).trans hwidth)
  · exact (hxs p 31 30).trans hwidth'
  · dsimp only
    rw [hother', htx]

end

/-! ### A stack whose spoke stays down (R356, R643) -/

/-- The registers a fence of a stack counts and logs in. -/
def fenceNames : List RegName := [.intsrc, .rststat] ++ eventNames

/-- From s to t registers of the listed names may have changed, no source was taken back, and no stack's fence. -/
structure FenceKept (names : List RegName) (s t : State) : Prop where
  fenced : t.fencedStk = s.fencedStk
  regs : ∀ r i, i < 2 ^ 32 → r ∉ names → rg t r i = rg s r i
  srcs : ∀ j, j < 2 ^ 32 → bit (rg s .intsrc j) 1 = true → bit (rg t .intsrc j) 1 = true

section
variable {names names' : List RegName} {s t u : State}

theorem FenceKept.refl (names : List RegName) (s : State) : FenceKept names s s := ⟨rfl, fun _ _ _ _ => rfl, fun _ _ h => h⟩

theorem FenceKept.trans (h1 : FenceKept names s t) (h2 : FenceKept names t u) : FenceKept names s u :=
  ⟨h2.fenced.trans h1.fenced, fun r i hi hr => (h2.regs r i hi hr).trans (h1.regs r i hi hr), fun j hj hb => h2.srcs j hj (h1.srcs j hj hb)⟩

theorem FenceKept.mono (h : FenceKept names s t) (hsub : ∀ r ∈ names, r ∈ names') : FenceKept names' s t :=
  ⟨h.fenced, fun r i hi hr => h.regs r i hi fun hm => hr (hsub r hm), h.srcs⟩

/-- A step that leaves every source alone. -/
theorem FenceKept.of_regs (hf : t.fencedStk = s.fencedStk) (h : ∀ r i, i < 2 ^ 32 → r ∉ names → rg t r i = rg s r i) (hsrc : RegName.intsrc ∉ names) :
    FenceKept names s t := ⟨hf, h, fun j hj hb => (h .intsrc j hj hsrc).symm ▸ hb⟩

theorem NamesOnly.cores (h : NamesOnly names s t) : t.cores = s.cores := by rw [← h.rest]

theorem NamesOnly.fencedStk (h : NamesOnly names s t) : t.fencedStk = s.fencedStk := by rw [← h.rest]

theorem Offered.fenceKept (h : Offered s t) : FenceKept fabNames s t := .of_regs (by rw [← h.rest]) h.regs (by decide)

theorem Offered.cores (h : Offered s t) : t.cores = s.cores := by rw [← h.rest]

theorem Flushed.fenceKept {dead : StopId → Bool} (h : Flushed dead s t) : FenceKept fabNames s t := .of_regs (by rw [← h.rest]) h.regs (by decide)

theorem sendG_offered (s : State) {p : Packet} (h : p.cmd ≠ .irq) : Offered s (sendG s p) := by
  unfold sendG
  dsimp only
  split
  · exact Offered.trans (t := { s with tokens := tset 4 (stopKey p.src) (tokensOf s p.src - 1) s.tokens }) ⟨rfl, fun _ _ _ _ => rfl⟩ (inject_offered ..)
  · exact Offered.trans (t := { s with gHeld := s.gHeld ++ [{ p with cls := .g }] }) ⟨rfl, fun _ _ _ _ => rfl⟩ (offered_incFab ..)

theorem raiseSrc_fenceKept {n : Nat} (hn : n < 2 ^ 32) (s : State) : FenceKept fenceNames s (raiseSrc s n) :=
  ⟨rfl, fun r i hi hr => rg_raiseSrc hn hi fun he => hr (by rw [(Prod.mk.inj he).1]; simp [fenceNames]), fun _ _ hb => bit_raiseSrc_kept n hb⟩

theorem logErr_fenceKept (s : State) (die kind unit way addr : Nat) : FenceKept fenceNames s (logErr s (evLog die) kind unit way addr) := by
  have hlog := logErr_event_namesOnly s die kind unit way addr
  have hkept : FenceKept eventNames s (logErr s (evLog die) kind unit way addr) := .of_regs hlog.fencedStk hlog.regs (by decide)
  exact hkept.mono fun r hr => List.mem_append_right _ hr

theorem logErr_cores (s : State) (die kind unit way addr : Nat) : (logErr s (evLog die) kind unit way addr).cores = s.cores :=
  (logErr_event_namesOnly s die kind unit way addr).cores

theorem fabNames_sub : ∀ r ∈ fabNames, r ∈ fenceNames := by decide

theorem rstDone_fenceKept (s : State) (op t code : Nat) : FenceKept fenceNames s (rstDone s op t code) := by
  have hset : ∀ (u : State) (hi lo x : Nat), FenceKept [.rststat] u (setRgF u .rststat 0 hi lo x) := fun u hi lo x =>
    .of_regs rfl (fun r i hi' hr => rg_setRg_other (by decide) hi' fun he => hr (by rw [(Prod.mk.inj he).1]; simp)) (by decide)
  have hsub : ∀ r ∈ [RegName.rststat], r ∈ fenceNames := by decide
  unfold rstDone rstEnd
  split
  · exact ((hset s 7 0 code).trans (hset _ 11 8 op)).mono hsub
  · exact .refl ..

theorem rstDone_cores (s : State) (op t code : Nat) : (rstDone s op t code).cores = s.cores := by
  unfold rstDone
  split <;> rfl

/-! ### The cores of a fenced stack stop (R162, R638) -/

theorem getCore_congr (h : t.cores = s.cores) (c : Nat) : getCore t c = getCore s c := by rw [getCore, h, getCore]

theorem stopFenced_fenceKept {c : Nat} (hc : c < 240) (s : State) : FenceKept fenceNames s (stopFenced s c) := by
  unfold stopFenced
  dsimp only
  split
  · exact .refl ..
  · rw [show LogId.ev (c / 20) = evLog (c / 20) from (if_pos (by omega)).symm]
    exact FenceKept.trans (t := setCore s c _) ⟨rfl, fun _ _ _ _ => rfl, fun _ _ hb => hb⟩
      ((raiseSrc_fenceKept (by omega) _).trans (logErr_fenceKept ..))

theorem stopFenced_core {c : Nat} (hc : c < 240) (s : State) : (getCore (stopFenced s c) c).stopped = true ∧
    ∀ d, d ≠ c → getCore (stopFenced s c) d = getCore s d := by
  unfold stopFenced
  dsimp only
  split
  next h => exact ⟨h, fun _ _ => rfl⟩
  next h =>
    rw [show LogId.ev (c / 20) = evLog (c / 20) from (if_pos (by omega)).symm]
    obtain ⟨u, hu⟩ : ∃ u, setCore s c { getCore s c with stopped := true, acc := none, bar := none, waiting := false } = u := ⟨_, rfl⟩
    have hself : (getCore u c).stopped = true := by rw [← hu, getCore, setCore, tget_tset_same]
    have hother : ∀ d, d ≠ c → getCore u d = getCore s d := fun d hd => hu ▸ tget_tset_ne hd _
    have hcores : (logErr (raiseSrc u (32 * (c / 20))) (evLog (c / 20)) 0x20 (c % 20) 0 0).cores = u.cores := logErr_cores ..
    rw [hu]
    exact ⟨(congrArg Core.stopped (getCore_congr hcores c)).trans hself, fun d hd => (getCore_congr hcores d).trans (hother d hd)⟩

theorem foldl_stopFenced (base : Nat) : ∀ (l : List Nat), (∀ u ∈ l, base + u < 240) → ∀ (s : State),
    let t := l.foldl (fun s u => stopFenced s (base + u)) s
    FenceKept fenceNames s t ∧ (∀ c, (getCore s c).stopped = true ∨ (∃ u ∈ l, c = base + u) → (getCore t c).stopped = true) ∧
    (∀ c, (∀ u ∈ l, c ≠ base + u) → getCore t c = getCore s c)
  | [], _, s => ⟨.refl .., fun _ h => h.resolve_right fun ⟨_, hu, _⟩ => List.not_mem_nil hu, fun _ _ => rfl⟩
  | a :: l, hl, s => by
    have ha := hl a List.mem_cons_self
    obtain ⟨hself, hother⟩ := stopFenced_core ha s
    obtain ⟨h1, h2, h3⟩ := foldl_stopFenced base l (fun u hu => hl u (List.mem_cons_of_mem _ hu)) (stopFenced s (base + a))
    refine ⟨(stopFenced_fenceKept ha s).trans h1, fun c hc => h2 c ?_, fun c hc => ?_⟩
    · by_cases hca : c = base + a
      · exact .inl (hca ▸ hself)
      · refine hc.imp (fun hs => by rw [hother c hca]; exact hs) fun ⟨u, hu, he⟩ => ⟨u, (List.mem_cons.mp hu).resolve_left fun hua => hca (hua ▸ he), he⟩
    · exact (h3 c fun u hu => hc u (List.mem_cons_of_mem _ hu)).trans (hother c (hc a List.mem_cons_self))

/-! ### Its logical numbers become vacant (R32) -/

/-- A logical number whose core is of stack n is vacant. -/
def vacate (n : Nat) (s : State) (k : Nat) : State := if rgF s .lcmap k 11 8 = n then setRg s .lcmap k 0 else s

theorem vacate_spec {n k : Nat} (hk : k < 2 ^ 32) (s : State) : FenceKept [.lcmap] s (vacate n s k) ∧ (vacate n s k).cores = s.cores ∧
    (rgF s .lcmap k 11 8 = n → rg (vacate n s k) .lcmap k = 0) ∧ ∀ l, l < 2 ^ 32 → l ≠ k → rg (vacate n s k) .lcmap l = rg s .lcmap l := by
  unfold vacate
  split
  next h =>
    refine ⟨.of_regs rfl (fun r i hi hr => rg_setRg_other hk hi fun he => hr (by rw [(Prod.mk.inj he).1]; simp)) (by decide), rfl, fun _ => rg_setRg_same .., ?_⟩
    exact fun l hl hne => rg_setRg_other hk hl fun he => hne (Prod.mk.inj he).2
  next h => exact ⟨.refl .., rfl, fun he => absurd he h, fun _ _ _ => rfl⟩

theorem foldl_vacate (n : Nat) : ∀ (l : List Nat), (∀ k ∈ l, k < 2 ^ 32) → ∀ (s : State), let t := l.foldl (vacate n) s
    FenceKept [.lcmap] s t ∧ t.cores = s.cores ∧
    ∀ k, k < 2 ^ 32 → rg s .lcmap k = 0 ∨ (k ∈ l ∧ rgF s .lcmap k 11 8 = n) → rg t .lcmap k = 0
  | [], _, s => ⟨.refl .., rfl, fun _ _ h => h.resolve_right fun ⟨hm, _⟩ => List.not_mem_nil hm⟩
  | a :: l, hl, s => by
    have ha := hl a List.mem_cons_self
    obtain ⟨h1, h2, h3, h4⟩ := vacate_spec (n := n) ha s
    obtain ⟨g1, g2, g3⟩ := foldl_vacate n l (fun k hk => hl k (List.mem_cons_of_mem _ hk)) (vacate n s a)
    refine ⟨h1.trans g1, g2.trans h2, fun k hk hc => g3 k hk ?_⟩
    by_cases hka : k = a
    · subst hka
      refine .inl ?_
      by_cases hn : rgF s .lcmap k 11 8 = n
      · exact h3 hn
      · have hz : rg s .lcmap k = 0 := hc.resolve_right fun hc => hn hc.2
        rw [vacate, if_neg hn, hz]
    · have hsame : rg (vacate n s a) .lcmap k = rg s .lcmap k := h4 k hk hka
      rw [rgF, hsame]
      exact hc.imp_right fun ⟨hm, hn⟩ => ⟨(List.mem_cons.mp hm).resolve_left hka, hn⟩

end

section
variable {s : State} {n : Nat}

/-- The notices about the cores of a stack that is fenced (R356). -/
def fenceNotices (n : Nat) (s : State) (u : Nat) : State :=
  let p : Packet := { cmd := .fence, src := ⟨12, 19⟩, dst := ⟨15, 30⟩, cls := .g, holder := n * 20 + u }
  sendG (sendG s p) { p with dst := ⟨12, 21⟩ }

theorem fenceNotices_offered (n : Nat) (s : State) (u : Nat) : Offered s (fenceNotices n s u) :=
  (sendG_offered s (fun h => by cases h)).trans (sendG_offered _ (fun h => by cases h))

/-- The hub end of a stack's spoke, out of service. -/
def spokeOff (s : State) (n : Nat) : State := setLsF (if lsState s (36 + n) = 7 then s else setLsState s (36 + n) 0) (36 + n) 31 30 3

/-- The mark of a fenced stack. -/
def markFenced (s : State) (n : Nat) : State := { s with fencedStk := tset false n true s.fencedStk }

theorem fenceStack_eq (h : tget false n s.fencedStk = false) : fenceStack s n =
    (let v := spokeOff s n
     let v := raiseSrc (markFenced (setRgF v .bustat 0 (3 * n + 2) (3 * n) 6) n) (32 * n + 11)
     let v := rstDone v 2 n 2
     let v := (List.range 20).foldl (fun s u => stopFenced s (n * 20 + u)) v
     let v := (List.range 216).foldl (vacate n) v
     let v := flushDead v (fun d => d.die == n)
     (List.range 20).foldl (fenceNotices n) v) := by
  rw [fenceStack, h, if_neg (by decide)]
  rfl

theorem spokeOff_linkOnly (hn : n < 12) (s : State) : LinkOnly (36 + n) s (spokeOff s n) := by
  refine LinkOnly.trans ?_ (linkOnly_setLsF (by omega) ..)
  split
  · exact ⟨rfl, fun _ _ _ _ _ => rfl⟩
  · exact linkOnly_setLsState (by omega) ..

theorem fenceStack_spec (hn : n < 12) (h : tget false n s.fencedStk = false) : let t := fenceStack s n
    tget false n t.fencedStk = true ∧ (∀ c, c / 20 = n → (getCore t c).stopped = true) ∧ rgF t .bustat 0 (3 * n + 2) (3 * n) = 6 ∧
    bit (rg t .intsrc (32 * n + 11)) 1 = true ∧ (∀ l, l < 216 → rgF s .lcmap l 11 8 = n → rg t .lcmap l = 0) ∧
    (∀ c, c / 20 ≠ n → (getCore t c).stopped = (getCore s c).stopped) := by
  obtain ⟨a, ha⟩ : ∃ a, spokeOff s n = a := ⟨_, rfl⟩
  have honly : LinkOnly (36 + n) s a := ha ▸ spokeOff_linkOnly hn s
  have hamap : ∀ l, l < 2 ^ 32 → rg a .lcmap l = rg s .lcmap l := fun l hl =>
    honly.regs _ _ hl (fun he => by rcases lsReg_name (36 + n) with hr | hr <;> rw [← he] at hr <;> cases hr) (by simp)
  have hacores : a.cores = s.cores := by rw [← honly.rest]
  obtain ⟨x, hx⟩ : ∃ x, setRgF a .bustat 0 (3 * n + 2) (3 * n) 6 = x := ⟨_, rfl⟩
  have hxbus : rgF x .bustat 0 (3 * n + 2) (3 * n) = 6 := by
    rw [← hx, rgF_setRgF_same _ _ _ _ _ _ (by omega) (by omega), show 3 * n + 2 + 1 - 3 * n = 3 by omega]
    rfl
  have hxmap : ∀ l, l < 2 ^ 32 → rg x .lcmap l = rg a .lcmap l := fun l hl => hx ▸ rg_setRg_other (s := a) (by decide) hl (by simp)
  have hxcores : x.cores = a.cores := hx ▸ rfl
  obtain ⟨b, hb⟩ : ∃ b, markFenced x n = b := ⟨_, rfl⟩
  have hmark : tget false n (tset false n true x.fencedStk) = true := tget_tset_same _
  have hbfenced : tget false n b.fencedStk = true := by
    rw [← hb]
    exact hmark
  have hbregs : b.regs = x.regs ∧ b.cores = x.cores := hb ▸ ⟨rfl, rfl⟩
  have hbrg : ∀ r i, rg b r i = rg x r i := fun r i => congrArg (fun l => rg { x with regs := l } r i) hbregs.1
  obtain ⟨c, hc⟩ : ∃ c, raiseSrc b (32 * n + 11) = c := ⟨_, rfl⟩
  have hcbit : bit (rg c .intsrc (32 * n + 11)) 1 = true := hc ▸ bit_raiseSrc (by omega)
  have hckept : FenceKept fenceNames b c := hc ▸ raiseSrc_fenceKept (by omega) b
  have hccores : c.cores = b.cores := hc ▸ rfl
  obtain ⟨d, hd⟩ : ∃ d, rstDone c 2 n 2 = d := ⟨_, rfl⟩
  have hdkept : FenceKept fenceNames c d := hd ▸ rstDone_fenceKept ..
  have hdcores : d.cores = c.cores := hd ▸ rstDone_cores ..
  have hd0 : ∀ k, getCore d k = getCore s k := getCore_congr (by rw [hdcores, hccores, hbregs.2, hxcores, hacores])
  obtain ⟨e, he⟩ : ∃ e, (List.range 20).foldl (fun s u => stopFenced s (n * 20 + u)) d = e := ⟨_, rfl⟩
  obtain ⟨hekept, hestop, heother⟩ := he ▸ foldl_stopFenced (n * 20) (List.range 20) (fun u hu => by have := List.mem_range.mp hu; omega) d
  obtain ⟨f, hf⟩ : ∃ f, (List.range 216).foldl (vacate n) e = f := ⟨_, rfl⟩
  obtain ⟨hfkept, hfcores, hfmap⟩ := hf ▸ foldl_vacate n (List.range 216) (fun k hk => by have := List.mem_range.mp hk; omega) e
  obtain ⟨g, hg⟩ : ∃ g, flushDead f (fun d => d.die == n) = g := ⟨_, rfl⟩
  have hgflush : Flushed (fun d => d.die == n) f g := hg ▸ flushDead_flushed ..
  have hrun : fenceStack s n = (List.range 20).foldl (fenceNotices n) g := by
    rw [fenceStack_eq h]
    dsimp only
    rw [ha, hx, hb, hc, hd, he, hf, hg]
  have hoff : Offered g ((List.range 20).foldl (fenceNotices n) g) :=
    List.foldlRecOn (motive := Offered g) _ _ ⟨rfl, fun _ _ _ _ => rfl⟩ fun t ht u _ => ht.trans (fenceNotices_offered n t u)
  have hlast : FenceKept fabNames f ((List.range 20).foldl (fenceNotices n) g) := hgflush.fenceKept.trans hoff.fenceKept
  have hfirst : FenceKept fenceNames b e := (hckept.trans hdkept).trans hekept
  have hcores : ∀ k, getCore ((List.range 20).foldl (fenceNotices n) g) k = getCore e k :=
    getCore_congr (hoff.cores.trans (hgflush.cores.trans hfcores))
  rw [hrun]
  generalize (List.range 20).foldl (fenceNotices n) g = t at hlast hcores
  refine ⟨?_, fun k hk => ?_, ?_, ?_, fun l hl hmap => ?_, fun k hk => ?_⟩
  · rw [hlast.fenced, hfkept.fenced, hfirst.fenced]
    exact hbfenced
  · rw [hcores]
    exact hestop k (.inr ⟨k % 20, List.mem_range.mpr (Nat.mod_lt _ (by decide)), by omega⟩)
  · rw [rgF, hlast.regs _ _ (by decide) (by decide), hfkept.regs _ _ (by decide) (by decide), hfirst.regs _ _ (by decide) (by decide), hbrg]
    exact hxbus
  · refine hlast.srcs _ (by omega) (hfkept.srcs _ (by omega) ?_)
    exact hekept.srcs _ (by omega) (hdkept.srcs _ (by omega) hcbit)
  · rw [hlast.regs _ _ (by omega) (by decide)]
    refine hfmap l (by omega) (.inr ⟨List.mem_range.mpr hl, ?_⟩)
    rw [rgF, hfirst.regs _ _ (by omega) (by decide), hbrg, hxmap _ (by omega), hamap _ (by omega)]
    exact hmap
  · rw [hcores, heother k (fun u hu => by have := List.mem_range.mp hu; omega), hd0]

end

/-! ### The obligation -/

/-- Settles O35, state by state: SAFE_TRAIN by `enterSafe_spec`, DOWN by `enterDown_spec`, ACTIVE by `activate_spec`; a spoke in DOWN by
`fenceStack_spec`. -/
theorem sprueTraining : Obligations.SprueTraining := by
  unfold Obligations.SprueTraining
  refine ⟨fun n s => ?_, fun k s hdown hfree => ⟨fenceStack s k.val, congrArg ok (if_pos hdown), fenceStack_spec k.isLt hfree⟩⟩
  have hn := n.isLt
  have hlt := peerEnd_lt n
  have hpeer := peerEnd_ne n
  refine ⟨fun h1 h0 h7 => ?_, fun h1 hlate => ?_, fun r h2 hp hrev hr ht => ⟨_, rfl, trainArrive_spec h2 hp hrev hr ht⟩,
    fun passed h2 hq => ⟨_, rfl, safeTrainDone_spec passed h2 hq⟩, fun h3 => ⟨?_, ?_⟩, fun h4 hlate => ?_, fun h4 hp4 he1 he2 hw hqs hw3 hq4 hx1 hx2 => ?_,
    fun h5 hlock => ?_, fun hheld => ⟨_, rfl, linkReset_spec hn hheld⟩⟩
  · have hsafe := enterSafe_spec hn s true
    obtain ⟨a, b, hend⟩ := hsafe.ended
    exact ⟨enterSafe s n true, congrArg ok (if_pos ⟨h1, h0, h7⟩), hsafe.state, hsafe.epoch, by rw [hend], hsafe.only.lsF hlt hpeer 3 0⟩
  · exact ⟨enterDown s n, congrArg ok (if_pos ⟨h1, hlate⟩), enterDown_spec hn s⟩
  · exact ⟨setLsState s n 4, congrArg ok (if_pos h3), lsState_setLsState_same s n 4⟩
  · exact ⟨enterSafe s n false, congrArg ok (if_pos h3), (enterSafe_spec hn s false).state⟩
  · exact ⟨enterSafe s n false, congrArg ok (if_pos ⟨h4, hlate⟩), (enterSafe_spec hn s false).state⟩
  · have hrun : confirmArrive s n.val = activate s n.val (peerEnd n.val) (linkEnd s n.val).width (linkEnd s n.val).qsel (linkEnd s n.val).width
        (linkEnd s n.val).qsel := by
      unfold confirmArrive
      dsimp only
      rw [if_neg (by simp [hp4]), if_neg (by simp [he1]), if_pos ⟨h4, he2⟩, if_pos ⟨hw, hqs⟩, hw, hqs]
    exact ⟨_, congrArg ok hrun, activate_spec hn hlt hpeer (by omega) _ hx1 hx2⟩
  · refine ⟨enterRetrain s n, congrArg ok ?_, enterRetrain_spec hn s⟩
    rw [linkRetrain, mpWrite, if_pos rfl, if_pos ⟨h5, hlock⟩]

end Sys2Proof.Machine
end

section
/-! PROOFS. Patrol scrub, channel registers and memory keys (R380 to R391). -/
namespace Sys2Proof.Machine

open Sys2Proof

/-! ### Patrol scrub (R378, R380) -/

/-- The registers a read of memory counts and logs errors in. -/
def chNames : List RegName := [.mcstat, .mcuelog, .intsrc]

/-- From s to t an uncorrectable line was poisoned and recorded. -/
structure Poisoned (line : Nat) (s t : State) : Prop where
  rest : { t with regs := s.regs, poisoned := s.poisoned, mpPend := s.mpPend } = s
  regs : ∀ r i, i < 2 ^ 32 → r ∉ chNames → rg t r i = rg s r i
  marked : memPoison t line = true
  others : ∀ l, l ≠ line → memPoison t l = memPoison s l

section
variable {s t : State} {line ch : Nat}

theorem Poisoned.scrubAt (h : Poisoned line s t) : t.scrubAt = s.scrubAt := by rw [← h.rest]

theorem Poisoned.dram (h : Poisoned line s t) : t.dram = s.dram := by rw [← h.rest]

theorem Poisoned.now (h : Poisoned line s t) : now t = now s := by
  have hp : t.ptime = s.ptime := by rw [← h.rest]
  exact congrArg BitVec.toNat hp

theorem memPoison_setMemPoison_same (s : State) (line : Nat) (b : Bool) : memPoison (setMemPoison s line b) line = b := tget_tset_same _

theorem memPoison_setMemPoison_ne {l : Nat} (h : l ≠ line) (s : State) (b : Bool) : memPoison (setMemPoison s line b) l = memPoison s l := tget_tset_ne h _

theorem chUncorrectable_poisoned (hch : ch < 24) (s : State) (line sub dev rank : Nat) (scrub : Bool) :
    Poisoned line s (chUncorrectable s ch line sub dev rank scrub) := by
  obtain ⟨u, hu⟩ : ∃ u, setMemPoison s line true = u := ⟨_, rfl⟩
  have hmark : memPoison u line = true := hu ▸ memPoison_setMemPoison_same ..
  have hother : ∀ l, l ≠ line → memPoison u l = memPoison s l := fun l hl => hu ▸ memPoison_setMemPoison_ne hl ..
  have hrest : { u with poisoned := s.poisoned } = s := hu ▸ rfl
  have hregs : u.regs = s.regs := hu ▸ rfl
  obtain ⟨v, hv, hrun⟩ : ∃ v, NamesOnly [.mcstat, .mcuelog] u v ∧
      chUncorrectable s ch line sub dev rank scrub = raiseSrc v (32 * (ch / 2) + 4 + ch % 2) := by
    rw [chUncorrectable, hu]
    exact ⟨_, (NamesOnly.incRgF (r := .mcstat) (by omega) (by simp) u 47 32).trans (.setRg (r := .mcuelog) (by omega) (by simp) _ _), rfl⟩
  have hvp : v.poisoned = u.poisoned := by rw [← hv.rest]
  rw [hrun]
  refine ⟨?_, fun r i hi hr => ?_, ?_, fun l hl => ?_⟩
  · rw [← hrest, ← hv.rest]
    rfl
  · rw [rg_raiseSrc (by omega) hi fun he => hr (by rw [(Prod.mk.inj he).1]; simp [chNames]),
      hv.regs r i hi fun hm => hr (by simp [chNames] at hm ⊢; exact hm.imp_right .inl)]
    exact congrArg (fun l => rg { s with regs := l } r i) hregs
  · exact (congrArg (tget false line) hvp).trans hmark
  · exact (congrArg (tget false l) hvp).trans (hother l hl)

/-- POS advances, or the pass ends and is counted (R380). -/
def scrubStep (s : State) (ch pos : Nat) : State :=
  let s := { s with scrubAt := tset 0 ch (now s) s.scrubAt }
  if (pos + 1) * 64 ≥ memC s then incRgF (setRgF s .mcscrub ch 40 8 0) .mcscrub ch 63 48
  else setRgF s .mcscrub ch 40 8 (pos + 1)

theorem scrubRead_runs {e : Ecc} (h2 : chState s ch = 2) (hon : rgF s .mcscrub ch 7 0 ≠ 0) (hpkg : rgF s .pkgstat 0 10 8 < 4) (hch : ch ∈ s.hashChs)
    (hdue : tget 0 ch s.scrubAt + scrubGap s ch ≤ now s) :
    scrubRead s ch e = scrubStep (chRead s (caPa s ch (rgF s .mcscrub ch 40 8 * 64) / 64) e true).2.2 ch (rgF s .mcscrub ch 40 8) := by
  have hin : s.hashChs.contains ch = true := by simpa using hch
  unfold scrubRead
  dsimp only
  rw [hin, if_neg (by rw [h2]; simp; omega)]
  rfl

theorem scrubStep_spec {pos : Nat} (hpos : pos < 2 ^ 33) (hc : memC s ≤ 2 ^ 39) : let t := scrubStep s ch pos
    tget 0 ch t.scrubAt = now s ∧ { t with regs := s.regs, scrubAt := s.scrubAt } = s ∧
    ((pos + 1) * 64 < memC s → rgF t .mcscrub ch 40 8 = pos + 1 ∧ rgF t .mcscrub ch 63 48 = rgF s .mcscrub ch 63 48) ∧
    (memC s ≤ (pos + 1) * 64 → rgF t .mcscrub ch 40 8 = 0 ∧ rgF t .mcscrub ch 63 48 = min (rgF s .mcscrub ch 63 48 + 1) 65535) := by
  obtain ⟨u, hu⟩ : ∃ u, { s with scrubAt := tset 0 ch (now s) s.scrubAt } = u := ⟨_, rfl⟩
  have hat : tget 0 ch u.scrubAt = now s := by
    have hset : tget 0 ch (tset 0 ch (now s) s.scrubAt) = now s := tget_tset_same _
    rw [← hu]
    exact hset
  have hmem : memC u = memC s := by rw [← hu, memC, memC, rgF, rgF, rg, rg]
  have hpass : rgF u .mcscrub ch 63 48 = rgF s .mcscrub ch 63 48 := hu ▸ rfl
  have hrest : { u with regs := s.regs, scrubAt := s.scrubAt } = s := hu ▸ rfl
  have hrun : scrubStep s ch pos = if (pos + 1) * 64 ≥ memC u then incRgF (setRgF u .mcscrub ch 40 8 0) .mcscrub ch 63 48
      else setRgF u .mcscrub ch 40 8 (pos + 1) := by rw [scrubStep, hu]
  rw [hrun, hmem]
  generalize memC s = c at hc
  by_cases hend : (pos + 1) * 64 ≥ c
  · rw [if_pos hend]
    obtain ⟨v, hv⟩ : ∃ v, setRgF u .mcscrub ch 40 8 0 = v := ⟨_, rfl⟩
    have hv0 : rgF v .mcscrub ch 40 8 = 0 := hv ▸ rgF_setRgF_same _ _ _ _ _ _ (by decide) (by decide)
    have hvp : rgF v .mcscrub ch 63 48 = rgF s .mcscrub ch 63 48 :=
      (hv ▸ rgF_setRgF_field _ _ _ _ _ _ _ _ (by decide) (by decide) (.inr (by decide)) : rgF v .mcscrub ch 63 48 = rgF u .mcscrub ch 63 48).trans hpass
    have hvrest : { v with regs := u.regs } = u := hv ▸ rfl
    have hvat : tget 0 ch v.scrubAt = now s := by
      rw [← hv]
      exact hat
    rw [hv]
    refine ⟨hvat, ?_, fun hlt => absurd hlt (by omega), fun _ => ⟨?_, ?_⟩⟩
    · rw [← hrest, ← hvrest]
      rfl
    · exact (rgF_setRgF_field _ _ _ _ _ _ _ _ (by decide) (by decide) (.inl (by decide))).trans hv0
    · have hsat : rgF (incRgF v .mcscrub ch 63 48) .mcscrub ch 63 48 = _ := rgF_incRgF_same (by decide) (by decide)
      rw [hvp, show 2 ^ (63 + 1 - 48) - 1 = 65535 by norm_num] at hsat
      exact hsat
  · rw [if_neg hend]
    refine ⟨hat, ?_, fun _ => ⟨?_, ?_⟩, fun hle => absurd hle hend⟩
    · rw [← hrest]
      rfl
    · rw [rgF_setRgF_same _ _ _ _ _ _ (by decide) (by decide)]
      exact Nat.mod_eq_of_lt (by omega)
    · exact (rgF_setRgF_field _ _ _ _ _ _ _ _ (by decide) (by decide) (.inr (by decide))).trans hpass

theorem scrubOnly_kept (h : { t with regs := s.regs, scrubAt := s.scrubAt } = s) : t.dram = s.dram ∧ t.poisoned = s.poisoned := by
  rw [← h]
  exact ⟨rfl, rfl⟩

theorem chRead_clean (h : memPoison s line = false) (scrub : Bool) : (chRead s line .clean scrub).2.2 = s := by
  unfold chRead
  dsimp only
  rw [h, if_neg (by simp), if_neg (by simp)]

theorem chRead_uncorrectable {dev rank : Nat} (hch : (lineLoc s line).ch < 24) (scrub : Bool) :
    Poisoned line s (chRead s line (.uncorrectable dev rank) scrub).2.2 := by
  unfold chRead
  dsimp only
  rw [if_neg (by simp; omega)]
  split
  · exact chUncorrectable_poisoned hch ..
  · dsimp only
    exact chUncorrectable_poisoned hch ..

end

/-! ### MCCTL and the channel logs (R383, R384) -/

section
variable {s t : State} {ch : Nat}

/-- The registers a write of MCCTL reaches. -/
def mcctlRegs (ch : Nat) : List (RegName × Nat) := [(.mcctl, ch), (.mccestat, ch), (.intsrc, 32 * (ch / 2) + 4 + ch % 2)]

theorem judgeCethr_spec (hch : ch < 24) (s : State) : let t := judgeCethr s ch
    rg t .mcctl ch = rg s .mcctl ch ∧
    (rgF s .mccestat ch 3 3 = 0 → rgF s .mcctl ch 31 16 ≤ rgF s .mccestat ch 31 16 →
      rgF t .mccestat ch 3 3 = 1 ∧ bit (rg t .intsrc (32 * (ch / 2) + 4 + ch % 2)) 1 = true) ∧
    RegsOnly (mcctlRegs ch) { s with mpPend := t.mpPend } t := by
  dsimp only
  unfold judgeCethr
  by_cases h : rgF s .mccestat ch 3 3 = 0 ∧ rgF s .mccestat ch 31 16 ≥ rgF s .mcctl ch 31 16
  · rw [if_pos h]
    obtain ⟨u, hu⟩ : ∃ u, setRgF s .mccestat ch 3 3 1 = u := ⟨_, rfl⟩
    have hthr : rgF u .mccestat ch 3 3 = 1 := hu ▸ rgF_setRgF_same _ _ _ _ _ _ (by decide) (by decide)
    have hctl : rg u .mcctl ch = rg s .mcctl ch := hu ▸ rg_setRg_other (by omega) (by omega) (by simp)
    have honly : RegsOnly (mcctlRegs ch) s u := hu ▸ .setRgF (by omega) (by simp [mcctlRegs]) ..
    rw [hu]
    refine ⟨?_, fun _ _ => ⟨?_, bit_raiseSrc (by omega)⟩, ?_, fun r i hi hr => ?_⟩
    · exact (rg_raiseSrc (by omega) (by omega) (by simp)).trans hctl
    · exact (rgF_raiseSrc (by omega) (by omega) (by simp) 3 3).trans hthr
    · rw [← honly.1]
      rfl
    · exact (rg_raiseSrc (by omega) hi fun he => hr (he ▸ by simp [mcctlRegs])).trans (honly.2 r i hi hr)
  · rw [if_neg h]
    exact ⟨rfl, fun h0 hle => absurd ⟨h0, hle⟩ h, .refl ..⟩

/-- What a write of MCCTL leaves in the register before the threshold is judged: CETHR unless it is locked or the value is 0, and LOCK. -/
def mcctlTaken (s : State) (ch : Nat) (v : Word) : State :=
  let s := if rgF s .mcctl ch 32 32 = 1 ∨ fld v 31 16 = 0 then s else setRgF s .mcctl ch 31 16 (fld v 31 16)
  if bit v 32 then setRgF s .mcctl ch 32 32 1 else s

theorem mcctlWrite_eq (s : State) (ch : Nat) (v : Word) : mcctlWrite s ch v =
    if bit v 0 then mcLogclr (judgeCethr (mcctlTaken s ch v) ch) ch else judgeCethr (mcctlTaken s ch v) ch := rfl

theorem mcctlTaken_spec (hch : ch < 24) (s : State) (v : Word) : let t := mcctlTaken s ch v
    rgF t .mcctl ch 31 16 = (if rgF s .mcctl ch 32 32 = 1 ∨ fld v 31 16 = 0 then rgF s .mcctl ch 31 16 else fld v 31 16) ∧
    (rgF t .mcctl ch 32 32 = 1 ↔ rgF s .mcctl ch 32 32 = 1 ∨ bit v 32 = true) ∧ RegsOnly [(.mcctl, ch)] s t := by
  obtain ⟨u, hu⟩ : ∃ u, (if rgF s .mcctl ch 32 32 = 1 ∨ fld v 31 16 = 0 then s else setRgF s .mcctl ch 31 16 (fld v 31 16)) = u := ⟨_, rfl⟩
  have huthr : rgF u .mcctl ch 31 16 = (if rgF s .mcctl ch 32 32 = 1 ∨ fld v 31 16 = 0 then rgF s .mcctl ch 31 16 else fld v 31 16) := by
    rw [← hu]
    split
    · rfl
    · exact (rgF_setRgF_same _ _ _ _ _ _ (by decide) (by decide)).trans (Nat.mod_eq_of_lt (fld_lt v 31 16))
  have hulock : rgF u .mcctl ch 32 32 = rgF s .mcctl ch 32 32 := by
    rw [← hu]
    split
    · rfl
    · exact rgF_setRgF_field _ _ _ _ _ _ _ _ (by decide) (by decide) (.inr (by decide))
  have huonly : RegsOnly [(.mcctl, ch)] s u := by
    rw [← hu]
    split
    · exact .refl ..
    · exact .setRgF (by omega) List.mem_cons_self ..
  unfold mcctlTaken
  dsimp only
  rw [hu]
  by_cases hb : bit v 32 = true
  · rw [if_pos hb]
    refine ⟨?_, ?_, huonly.trans (.setRgF (by omega) List.mem_cons_self ..)⟩
    · exact (rgF_setRgF_field _ _ _ _ _ _ _ _ (by decide) (by decide) (.inl (by decide))).trans huthr
    · have hset : rgF (setRgF u .mcctl ch 32 32 1) .mcctl ch 32 32 = 1 := rgF_setRgF_same _ _ _ _ _ _ (by decide) (by decide)
      simp [hset, hb]
  · rw [if_neg hb]
    refine ⟨huthr, ?_, huonly⟩
    rw [hulock]
    simp [hb]

/-- The registers LOGCLR of a channel clears (R383). -/
def mcLogRegs (ch : Nat) : List (RegName × Nat) := [(.mcuelog, ch), (.mccestat, ch)] ++ (List.range 8).map (fun n => (RegName.mccelog, ch * 8 + n))

theorem foldl_clear {r : RegName} (base : Nat) : ∀ (l : List Nat), (∀ n ∈ l, base + n < 2 ^ 32) → ∀ (s : State),
    let t := l.foldl (fun s n => setRg s r (base + n) 0) s
    RegsOnly (l.map fun n => (r, base + n)) s t ∧ ∀ n, base + n < 2 ^ 32 → n ∈ l ∨ rg s r (base + n) = 0 → rg t r (base + n) = 0
  | [], _, s => ⟨.refl .., fun _ _ h => h.resolve_left List.not_mem_nil⟩
  | a :: l, hl, s => by
    have ha := hl a List.mem_cons_self
    obtain ⟨h1, h2⟩ := foldl_clear (r := r) base l (fun n hn => hl n (List.mem_cons_of_mem _ hn)) (setRg s r (base + a) 0)
    refine ⟨?_, fun n hn hc => h2 n hn ?_⟩
    · exact RegsOnly.trans (.setRg ha List.mem_cons_self s 0) (h1.mono fun x hx => List.mem_cons_of_mem _ hx)
    · by_cases hna : n = a
      · exact .inr (hna ▸ rg_setRg_same ..)
      · refine hc.imp (fun hm => (List.mem_cons.mp hm).resolve_left hna) fun h0 => ?_
        exact (rg_setRg_other ha hn fun he => hna (by have := (Prod.mk.inj he).2; omega)).trans h0

theorem mcLogclr_spec (hch : ch < 24) (s : State) : let t := mcLogclr s ch
    (∀ n, n < 8 → rg t .mccelog (ch * 8 + n) = 0) ∧ rg t .mcuelog ch = 0 ∧ rgF t .mccestat ch 15 8 = 0 ∧ rgF t .mccestat ch 2 0 = 0 ∧
    rgF t .mccestat ch 63 16 = rgF s .mccestat ch 63 16 ∧ rgF t .mccestat ch 3 3 = rgF s .mccestat ch 3 3 ∧ RegsOnly (mcLogRegs ch) s t := by
  obtain ⟨u, hu⟩ : ∃ u, (List.range 8).foldl (fun s n => setRg s .mccelog (ch * 8 + n) 0) s = u := ⟨_, rfl⟩
  obtain ⟨huonly, hulog⟩ := hu ▸ foldl_clear (r := .mccelog) (ch * 8) (List.range 8) (fun n hn => by have := List.mem_range.mp hn; omega) s
  have hustat : rg u .mccestat ch = rg s .mccestat ch := huonly.2 _ _ (by omega) (by simp)
  obtain ⟨v, hv⟩ : ∃ v, setRg u .mcuelog ch 0 = v := ⟨_, rfl⟩
  have hvue : rg v .mcuelog ch = 0 := hv ▸ rg_setRg_same ..
  have hvstat : rg v .mccestat ch = rg u .mccestat ch := hv ▸ rg_setRg_other (by omega) (by omega) (by simp)
  obtain ⟨w, hw⟩ : ∃ w, setRgF v .mccestat ch 15 8 0 = w := ⟨_, rfl⟩
  have hwover : rgF w .mccestat ch 15 8 = 0 := hw ▸ rgF_setRgF_same _ _ _ _ _ _ (by decide) (by decide)
  have hwkept : ∀ hi lo, hi < 8 ∨ 15 < lo → rgF w .mccestat ch hi lo = rgF s .mccestat ch hi lo := fun hi lo h => by
    have hset : rgF w .mccestat ch hi lo = rgF v .mccestat ch hi lo := hw ▸ rgF_setRgF_field _ _ _ _ _ _ _ _ (by decide) (by decide) (by omega)
    rw [hset, rgF, hvstat, hustat]
    rfl
  have honly : RegsOnly (mcLogRegs ch) s w := by
    refine (huonly.mono fun x hx => List.mem_append_right _ hx).trans ?_
    rw [← hw, ← hv]
    exact RegsOnly.trans (.setRg (by omega) List.mem_cons_self u 0) (.setRgF (by omega) (List.mem_cons_of_mem _ List.mem_cons_self) ..)
  have hlast : RegsOnly [(.mccestat, ch)] w (setRgF w .mccestat ch 2 0 0) := .setRgF (by omega) List.mem_cons_self ..
  have hvw : RegsOnly [(.mcuelog, ch), (.mccestat, ch)] u w := by
    rw [← hw, ← hv]
    exact RegsOnly.trans (.setRg (by omega) (by simp) u 0) (.setRgF (by omega) (by simp) ..)
  have hrun : mcLogclr s ch = setRgF w .mccestat ch 2 0 0 := by rw [mcLogclr, hu, hv, hw]
  rw [hrun]
  refine ⟨fun n hn => ?_, ?_, ?_, ?_, ?_, ?_, honly.trans (hlast.mono fun x hx => by simp [mcLogRegs] at hx ⊢; simp [hx])⟩
  · rw [hlast.2 _ _ (by omega) (by simp), hvw.2 _ _ (by omega) (by simp)]
    exact hulog n (by omega) (.inl (List.mem_range.mpr hn))
  · rw [hlast.2 _ _ (by omega) (by simp), ← hw]
    exact (rg_setRg_other (by omega) (by omega) (by simp)).trans hvue
  · exact (rgF_setRgF_field _ _ _ _ _ _ _ _ (by decide) (by decide) (.inr (by decide))).trans hwover
  · exact rgF_setRgF_same _ _ _ _ _ _ (by decide) (by decide)
  · exact (rgF_setRgF_field _ _ _ _ _ _ _ _ (by decide) (by decide) (.inr (by decide))).trans (hwkept 63 16 (by omega))
  · exact (rgF_setRgF_field _ _ _ _ _ _ _ _ (by decide) (by decide) (.inr (by decide))).trans (hwkept 3 3 (by omega))

theorem mcctlWrite_spec (hch : ch < 24) (s : State) (v : Word) : let t := mcctlWrite s ch v
    rgF t .mcctl ch 31 16 = (if rgF s .mcctl ch 32 32 = 1 ∨ fld v 31 16 = 0 then rgF s .mcctl ch 31 16 else fld v 31 16) ∧
    (rgF t .mcctl ch 32 32 = 1 ↔ rgF s .mcctl ch 32 32 = 1 ∨ bit v 32 = true) ∧
    (rgF s .mccestat ch 3 3 = 0 → rgF t .mcctl ch 31 16 ≤ rgF s .mccestat ch 31 16 →
      rgF t .mccestat ch 3 3 = 1 ∧ bit (rg t .intsrc (32 * (ch / 2) + 4 + ch % 2)) 1 = true) ∧
    (bit v 0 = false → RegsOnly [(.mcctl, ch), (.mccestat, ch), (.intsrc, 32 * (ch / 2) + 4 + ch % 2)] { s with mpPend := t.mpPend } t) := by
  obtain ⟨hthr, hlock, honly⟩ := mcctlTaken_spec hch s v
  rw [mcctlWrite_eq]
  generalize mcctlTaken s ch v = u at hthr hlock honly
  have hustat : rg u .mccestat ch = rg s .mccestat ch := honly.2 _ _ (by omega) (by simp)
  obtain ⟨hctl, hjudge, hjonly⟩ := judgeCethr_spec hch u
  have hframe : RegsOnly (mcctlRegs ch) { s with mpPend := (judgeCethr u ch).mpPend } (judgeCethr u ch) := by
    refine RegsOnly.trans (t := { u with mpPend := (judgeCethr u ch).mpPend }) ⟨?_, fun r i hi hr => ?_⟩ hjonly
    · rw [← honly.1]
    · exact honly.2 r i hi fun hm => hr (by simp [mcctlRegs] at hm ⊢; simp [hm])
  generalize judgeCethr u ch = w at hctl hjudge hframe
  have hwthr : rgF w .mcctl ch 31 16 = rgF u .mcctl ch 31 16 := congrArg (fld · 31 16) hctl
  have hwlock : rgF w .mcctl ch 32 32 = rgF u .mcctl ch 32 32 := congrArg (fld · 32 32) hctl
  have hwjudge : rgF s .mccestat ch 3 3 = 0 → rgF w .mcctl ch 31 16 ≤ rgF s .mccestat ch 31 16 →
      rgF w .mccestat ch 3 3 = 1 ∧ bit (rg w .intsrc (32 * (ch / 2) + 4 + ch % 2)) 1 = true := fun h0 hle =>
    hjudge ((congrArg (fld · 3 3) hustat).trans h0) (by rw [← hwthr, rgF, rgF, hustat]; exact hle)
  by_cases hb : bit v 0 = true
  · rw [if_pos hb]
    obtain ⟨_, _, _, _, _, hkept, hclear⟩ := mcLogclr_spec hch w
    generalize mcLogclr w ch = x at hkept hclear
    have hxctl : rg x .mcctl ch = rg w .mcctl ch := hclear.2 _ _ (by omega) (by simp [mcLogRegs])
    have hxsrc : rg x .intsrc (32 * (ch / 2) + 4 + ch % 2) = rg w .intsrc (32 * (ch / 2) + 4 + ch % 2) := hclear.2 _ _ (by omega) (by simp [mcLogRegs])
    refine ⟨?_, ?_, fun h0 hle => ?_, fun h => absurd hb (by simp [h])⟩
    · exact ((congrArg (fld · 31 16) hxctl).trans hwthr).trans hthr
    · rw [show rgF x .mcctl ch 32 32 = rgF u .mcctl ch 32 32 from (congrArg (fld · 32 32) hxctl).trans hwlock]
      exact hlock
    · rw [hkept, hxsrc]
      exact hwjudge h0 (by rw [rgF, ← hxctl]; exact hle)
  · rw [if_neg hb]
    exact ⟨hwthr.trans hthr, by rw [hwlock]; exact hlock, hwjudge, fun _ => hframe⟩

end

/-! ### Key commands (R389, R390) -/

section
variable {s t : State} {b : By} {op k : Nat} {sown healthy : Bool}

theorem zeroKeyData_spec (s : State) : let t := zeroKeyData s
    RegsOnly ((List.range 8).map fun i => (RegName.keydata, 0 + i)) s t ∧ ∀ i, i < 8 → rg t .keydata i = 0 := by
  have hfold : zeroKeyData s = (List.range 8).foldl (fun s i => setRg s .keydata (0 + i) 0) s := by
    unfold zeroKeyData
    refine List.foldl_ext _ _ _ fun s i _ => ?_
    rw [Nat.zero_add]
  obtain ⟨h1, h2⟩ := foldl_clear (r := .keydata) 0 (List.range 8) (fun n hn => by have := List.mem_range.mp hn; omega) s
  rw [hfold]
  refine ⟨h1, fun i hi => ?_⟩
  have hz := h2 i (by omega) (.inl (List.mem_range.mpr hi))
  rwa [Nat.zero_add] at hz

theorem keyFields_only (s : State) (op k : Nat) (sown : Bool) : RegsOnly [(.keycmd, 0)] s (keyFields s op k sown) := by
  have hset : ∀ (u : State) (hi lo x : Nat), RegsOnly [(.keycmd, 0)] u (setRgF u .keycmd 0 hi lo x) := fun _ _ _ _ => .setRgF (by decide) List.mem_cons_self ..
  unfold keyFields
  dsimp only
  split
  · exact ((hset ..).trans (hset ..)).trans (hset ..)
  · exact (hset ..).trans (hset ..)

theorem keyDataOf_congr (h : ∀ i, i < 8 → rg t .keydata i = rg s .keydata i) {base : Nat} (hb : base + 3 < 8) : keyDataOf t base = keyDataOf s base := by
  have hfold : (List.range 4).foldl (fun a i => a + (rg t .keydata (base + i)).toNat * 2 ^ (64 * i)) 0 =
      (List.range 4).foldl (fun a i => a + (rg s .keydata (base + i)).toNat * 2 ^ (64 * i)) 0 :=
    List.foldl_ext _ _ _ fun a i hi => by rw [h (base + i) (by have := List.mem_range.mp hi; omega)]
  rw [keyDataOf, hfold, keyDataOf]

theorem keyGo_busy (h : rgF s .keystat 0 7 0 = 1) (b : By) (op k : Nat) (sown healthy : Bool) :
    keyGo s b op k sown healthy = setRgF s .keystat 0 8 8 1 := if_pos h

theorem keyGo_bad (h : rgF s .keystat 0 7 0 ≠ 1) (hk : k = 0) : keyGo s b op k sown healthy = setKeyStat (keyFields s op k sown) 0x11 := by
  rw [keyGo, if_neg h]
  exact if_pos (.inl hk)

theorem keyGo_denied (h : rgF s .keystat 0 7 0 ≠ 1) (hk : k ≠ 0) (hop : op ≠ 3) (hb : bySec b = false) (hown : (memKey s k).sown = true ∨ sown = true) :
    keyGo s b op k sown healthy = hlDenied (setKeyStat (keyFields s op k sown) 0x10) b 0x10 (regPa 0x40000) := by
  rw [keyGo, if_neg h]
  dsimp only
  rw [if_neg (by simp [hk, hop]), if_pos ⟨by simp [hb], hown⟩]

theorem keyGo_runs (h : rgF s .keystat 0 7 0 ≠ 1) (hk : k ≠ 0) (hop : op ≠ 3) (hmine : bySec b = true ∨ ((memKey s k).sown = false ∧ sown = false)) :
    keyGo s b op k sown healthy = (let u := keyFields s op k sown
      if op = 1 ∧ healthy = false then setKeyStat (zeroKeyData u) 0x12
      else setKeyStat { zeroKeyData (keyResult u op).2 with keyPend := some ⟨k, (keyResult u op).1, if op = 2 then false else (memKey s k).sown || sown⟩ } 1) := by
  rw [keyGo, if_neg h]
  dsimp only
  rw [if_neg (by simp [hk, hop]), if_neg (by rcases hmine with hb | ⟨h1, h2⟩ <;> simp [*])]
  cases healthy <;> simp

/-- A result that waits: KEYDATA zero and STATUS BUSY (R389). -/
def KeyStarted (s t : State) : Prop := rgF t .keystat 0 7 0 = 1 ∧ (∀ i, i < 8 → rg t .keydata i = 0) ∧ t.keys = s.keys

theorem keyStarted_of (hkeys : s.keys = t.keys) (p : Option KeyPend) : KeyStarted t (setKeyStat { zeroKeyData s with keyPend := p } 1) := by
  obtain ⟨honly, hzero⟩ := zeroKeyData_spec s
  generalize zeroKeyData s = u at honly hzero
  have hukeys : u.keys = s.keys := by rw [← honly.1]
  refine ⟨rgF_setRgF_same _ _ _ _ _ _ (by decide) (by decide), fun i hi => ?_, hukeys.trans hkeys⟩
  have hkeep : rg (setKeyStat { u with keyPend := p } 1) .keydata i = rg { u with keyPend := p } .keydata i := rg_setRg_other (by decide) (by omega) (by simp)
  exact hkeep.trans (hzero i hi)

theorem keyFields_keys (s : State) (op k : Nat) (sown : Bool) : (keyFields s op k sown).keys = s.keys ∧ (keyFields s op k sown).keyPend = s.keyPend := by
  have honly := keyFields_only s op k sown
  generalize keyFields s op k sown = u at honly
  rw [← honly.1]
  exact ⟨rfl, rfl⟩

/-- A key that is made draws on the free choices; none is taken from the key table. -/
theorem keyResult_keys (s : State) (op : Nat) : (keyResult s op).2.keys = s.keys := by
  unfold keyResult
  split
  · rfl
  · split <;> rfl

theorem keyLoad_data (s : State) (op k : Nat) (sown : Bool) {base : Nat} (hb : base + 3 < 8) : keyDataOf (keyFields s op k sown) base = keyDataOf s base :=
  keyDataOf_congr (fun i hi => (keyFields_only s op k sown).2 _ _ (by omega) (by simp)) hb

theorem keyDone_spec {p : KeyPend} (h : s.keyPend = some p) : let t := keyDone s
    t.keyPend = none ∧ rgF t .keystat 0 7 0 = 2 ∧ (memKey t p.keyid).loaded = p.key.isSome ∧ (memKey t p.keyid).sown = p.sown ∧
    (∀ a, p.key = some a → (memKey t p.keyid).k1 = a.1 ∧ (memKey t p.keyid).k2 = a.2) ∧ (∀ k, k ≠ p.keyid → memKey t k = memKey s k) ∧
    t.dram = s.dram := by
  obtain ⟨m, hm, hrun⟩ : ∃ m : MemKey, (m.loaded = p.key.isSome ∧ m.sown = p.sown ∧ ∀ a, p.key = some a → m.k1 = a.1 ∧ m.k2 = a.2) ∧
      keyDone s = setKeyStat { s with keyPend := none, keys := tset {} p.keyid m s.keys } 2 := by
    rw [keyDone, h]
    cases hkey : p.key with
    | none =>
      simp only [hkey]
      exact ⟨_, ⟨rfl, rfl, nofun⟩, rfl⟩
    | some a =>
      simp only [hkey]
      exact ⟨_, ⟨rfl, rfl, fun _ ha => Option.some.inj ha ▸ ⟨rfl, rfl⟩⟩, rfl⟩
  have hself : memKey (keyDone s) p.keyid = m := by
    have hset : tget {} p.keyid (tset {} p.keyid m s.keys) = m := tget_tset_same _
    rw [hrun]
    exact hset
  have hother : ∀ k, k ≠ p.keyid → memKey (keyDone s) k = memKey s k := fun k hk => by
    have hset : tget {} k (tset {} p.keyid m s.keys) = tget {} k s.keys := tget_tset_ne hk _
    rw [hrun]
    exact hset
  obtain ⟨h1, h2, h3⟩ := hm
  dsimp only
  rw [hself]
  refine ⟨by rw [hrun]; rfl, ?_, h1, h2, h3, hother, by rw [hrun]; rfl⟩
  rw [hrun]
  exact rgF_setRgF_same _ _ _ _ _ _ (by decide) (by decide)

theorem keyDenied_spec (s : State) (b : By) (op k : Nat) (sown : Bool) : let t := hlDenied (setKeyStat (keyFields s op k sown) 0x10) b 0x10 (regPa 0x40000)
    rgF t .keystat 0 7 0 = 0x10 ∧ t.keys = s.keys ∧ t.keyPend = s.keyPend := by
  obtain ⟨hkeys, hpend⟩ := keyFields_keys s op k sown
  generalize keyFields s op k sown = u at hkeys hpend
  obtain ⟨v, hv⟩ : ∃ v, setKeyStat u 0x10 = v := ⟨_, rfl⟩
  have hstat : rgF v .keystat 0 7 0 = 0x10 := hv ▸ rgF_setRgF_same _ _ _ _ _ _ (by decide) (by decide)
  have hvkeys : v.keys = u.keys ∧ v.keyPend = u.keyPend := hv ▸ ⟨rfl, rfl⟩
  obtain ⟨w, hw⟩ : ∃ w, hlDenied v b 0x10 (regPa 0x40000) = w := ⟨_, rfl⟩
  have honly : { w with hlog := v.hlog } = v := hw ▸ hlDevice_only ..
  have hregs : w.regs = v.regs ∧ w.keys = v.keys ∧ w.keyPend = v.keyPend := by
    rw [← honly]
    exact ⟨rfl, rfl, rfl⟩
  rw [hv, hw]
  refine ⟨(congrArg (fun l => rgF { v with regs := l } .keystat 0 7 0) hregs.1).trans hstat, ?_, ?_⟩
  · rw [hregs.2.1, hvkeys.1, hkeys]
  · rw [hregs.2.2, hvkeys.2, hpend]

end

/-! ### The obligation -/

/-- Settles O38: the patrol by `scrubRead_runs` and `scrubStep_spec`, MCCTL by `mcctlWrite_spec`, a key command by the branches of `keyGo`. -/
theorem memoryChannelsAndKeys : Obligations.MemoryChannelsAndKeys := by
  unfold Obligations.MemoryChannelsAndKeys
  refine ⟨fun ch s h2 hon hpkg hin hdue hc => ?_, fun b ch v s => ⟨fun hmine => ?_, fun hown hb i hi => ?_⟩, fun b k sown s hbusy hk hmine => ?_,
    fun b k sown s i hi => ?_, fun p s hp => ⟨_, rfl, keyDone_spec hp⟩⟩
  · have hrun := fun e => scrubRead_runs (e := e) h2 hon hpkg hin hdue
    have hpos : rgF s .mcscrub ch 40 8 < 2 ^ 33 := fld_lt (rg s .mcscrub ch) 40 8
    dsimp only
    generalize rgF s .mcscrub ch 40 8 = pos at hrun hpos
    refine ⟨fun hp => ?_, fun dev rank hloc => ?_⟩
    · have hclean := hrun .clean
      rw [chRead_clean hp] at hclean
      obtain ⟨hat, hrest, h3, h4⟩ := scrubStep_spec (s := s) (ch := ch) hpos hc
      obtain ⟨hdram, hpoison⟩ := scrubOnly_kept hrest
      exact ⟨_, congrArg ok hclean, ⟨hat, hdram, h3, h4⟩, hpoison, hrest⟩
    · have hbad := hrun (.uncorrectable dev rank)
      have hread := chRead_uncorrectable (dev := dev) (rank := rank) hloc true
      generalize (chRead s (caPa s ch (pos * 64) / 64) (.uncorrectable dev rank) true).2.2 = u at hbad hread
      have hmem : memC u = memC s := congrArg (fun w => fld w 19 10 * 0x40000000) (hread.regs .memhash 0 (by decide) (by decide))
      have hpass : rgF u .mcscrub ch 63 48 = rgF s .mcscrub ch 63 48 := congrArg (fld · 63 48) (hread.regs .mcscrub ch (by omega) (by decide))
      obtain ⟨hat, hrest, h3, h4⟩ := scrubStep_spec (s := u) (ch := ch) hpos (hmem.le.trans hc)
      rw [hread.now] at hat
      rw [hmem, hpass] at h3 h4
      have hkept := scrubOnly_kept hrest
      have hpoison : ∀ l, memPoison (scrubStep u ch pos) l = memPoison u l := fun l => by rw [memPoison, hkept.2, memPoison]
      generalize scrubStep u ch pos = w at hat h3 h4 hkept hpoison hbad
      exact ⟨_, congrArg ok hbad, ⟨hat, hkept.1.trans hread.dram, h3, h4⟩, (hpoison _).trans hread.marked, fun l hl => (hpoison l).trans (hread.others l hl)⟩
  · have hact : ∀ off act, ownWrite s b (ownStk s (ch.val / 2)) off act = act := fun off act => if_neg (by rcases hmine with h | h <;> simp [h])
    obtain ⟨h1, h2, h3, h4, h5, _, h6⟩ := mcLogclr_spec ch.isLt s
    exact ⟨⟨_, congrArg ok (hact ..), mcctlWrite_spec ch.isLt s v⟩, ⟨_, congrArg ok (hact ..), h1, h2, h3, h4, h5, h6⟩⟩
  · have hact : ∀ off act, ownWrite s b (ownStk s (ch.val / 2)) off act = hlDenied s b deniedOwned (regPa off) := fun off act => if_pos (by simp [hown, hb])
    simp only [List.mem_cons, List.not_mem_nil, or_false] at hi
    rcases hi with rfl | rfl <;> exact ⟨_, congrArg ok (hact ..), hlDevice_only ..⟩
  · have hk' : k.toNat ≠ 0 := fun h => hk (BitVec.eq_of_toNat_eq h)
    have hgo := fun (op : Nat) (healthy : Bool) (hop : op ≠ 3) => keyGo_runs (op := op) (healthy := healthy) hbusy hk' hop hmine
    refine ⟨⟨_, congrArg ok ((hgo 0 true (by decide)).trans (if_neg (by decide))), ?_, ?_⟩, ⟨_, _, congrArg ok ((hgo 1 true (by decide)).trans (if_neg (by decide))), ?_, rfl⟩,
      ⟨_, congrArg ok ((hgo 2 true (by decide)).trans (if_neg (by decide))), ?_, rfl⟩, ⟨_, congrArg ok ((hgo 1 false (by decide)).trans (if_pos ⟨rfl, rfl⟩)), ?_⟩⟩
    · exact keyStarted_of (s := (keyResult (keyFields s 0 k.toNat sown) 0).2) ((keyResult_keys ..).trans (keyFields_keys ..).1) _
    · refine congrArg (fun r => some (⟨k.toNat, some r, (memKey s k.toNat).sown || sown⟩ : KeyPend)) ?_
      exact Prod.ext (keyLoad_data s 0 k.toNat sown (by decide)) (keyLoad_data s 0 k.toNat sown (by decide))
    · exact keyStarted_of (s := (keyResult (keyFields s 1 k.toNat sown) 1).2) ((keyResult_keys ..).trans (keyFields_keys ..).1) _
    · exact keyStarted_of (s := (keyResult (keyFields s 2 k.toNat sown) 2).2) ((keyResult_keys ..).trans (keyFields_keys ..).1) _
    · obtain ⟨hkeys, hpend⟩ := keyFields_keys s 1 k.toNat sown
      generalize keyFields s 1 k.toNat sown = u at hkeys hpend
      have honly := (zeroKeyData_spec u).1
      generalize zeroKeyData u = w at honly
      have hkept : w.keys = u.keys ∧ w.keyPend = u.keyPend := by
        rw [← honly.1]
        exact ⟨rfl, rfl⟩
      exact ⟨rgF_setRgF_same _ _ _ _ _ _ (by decide) (by decide), hkept.1.trans hkeys, hkept.2.trans hpend⟩
  · obtain ⟨op, hop, hrun⟩ : ∃ op, op ≠ 3 ∧ exec i s = .next (keyGo s b op k.toNat sown true) := by
      simp only [List.mem_cons, List.not_mem_nil, or_false] at hi
      rcases hi with rfl | rfl | rfl <;> exact ⟨_, by decide, rfl⟩
    refine ⟨fun h => ⟨_, hrun.trans (congrArg _ (keyGo_busy h ..)), rgF_setRgF_same _ _ _ _ _ _ (by decide) (by decide),
      .setRgF (by decide) List.mem_cons_self ..⟩, fun h hk => ?_, fun h hk hb hown => ?_⟩
    · refine ⟨_, hrun.trans (congrArg _ (keyGo_bad h (congrArg BitVec.toNat hk))), rgF_setRgF_same _ _ _ _ _ _ (by decide) (by decide), ?_⟩
      exact ((keyFields_only ..).mono fun x hx => List.mem_cons_of_mem _ hx).trans (.setRgF (by decide) List.mem_cons_self ..)
    · have hk' : k.toNat ≠ 0 := fun h0 => hk (BitVec.eq_of_toNat_eq h0)
      exact ⟨_, hrun.trans (congrArg _ (keyGo_denied h hk' hop hb hown)), keyDenied_spec ..⟩

end Sys2Proof.Machine
end

section
/-! PROOFS. The cascade's time, cut packages and broadcasts (R365 to R368). -/
namespace Sys2Proof.Machine

open Sys2Proof

/-! ### Packets of class G to one stop -/

section
variable {s t : State}

theorem copiesOf_single {p : Packet} (hdie : p.dst.die ≠ 15) (hstop : p.dst.stop ≠ 0x3F) : copiesOf p = [p] := by
  rw [copiesOf, if_neg hdie, if_neg hstop]

/-- A packet offered in class G to one stop is on its way, or waits at its source. -/
def Gone (s : State) (p : Packet) : Prop := ∃ q, (q ∈ s.net ∨ q ∈ s.gHeld) ∧ q.cmd = p.cmd ∧ q.holder = p.holder ∧ q.data = p.data

theorem sendG_gone (s : State) {p : Packet} (hcmd : p.cmd ≠ .irq) (hdie : p.dst.die ≠ 15) (hstop : p.dst.stop ≠ 0x3F) : Gone (sendG s p) p := by
  unfold sendG
  dsimp only
  split
  · rw [inject, copiesOf_single (p := { p with cls := .g }) hdie hstop]
    exact ⟨_, .inl (List.mem_append_right _ List.mem_cons_self), rfl, rfl, rfl⟩
  · exact ⟨_, .inr (List.mem_append_right _ List.mem_cons_self), rfl, rfl, rfl⟩

theorem Offered.ptime (h : Offered s t) : t.ptime = s.ptime := by rw [← h.rest]

theorem Offered.admitted (h : Offered s t) : t.admitted = s.admitted := by rw [← h.rest]

theorem Offered.timeSentAt (h : Offered s t) : t.timeSentAt = s.timeSentAt := by rw [← h.rest]

theorem Offered.tbMode (h : Offered s t) : t.tbMode = s.tbMode := by rw [← h.rest]

theorem Offered.refl (s : State) : Offered s s := ⟨rfl, fun _ _ _ _ => rfl⟩

/-! ### Time (R365) -/

theorem timeSend_spec {p : Nat} (hm : isMaster s = true) (hdue : s.timeSentAt + 1000 ≤ now s) (hne : p ≠ s.pkg) (hadm : s.admitted = [s.pkg, p]) :
    let t := timeSend s
    t.timeSentAt = now s ∧ t.ptime = s.ptime ∧ ∃ q, (q ∈ t.net ∨ q ∈ t.gHeld) ∧ q.cmd = .time ∧ q.holder = 0xF8 + p ∧ q.data = BitVec.ofNat 512 s.ptime.toNat := by
  obtain ⟨u, hu⟩ : ∃ u, { s with timeSentAt := now s } = u := ⟨_, rfl⟩
  have hup : u.ptime = s.ptime ∧ u.timeSentAt = now s := hu ▸ ⟨rfl, rfl⟩
  obtain ⟨x, hx⟩ : ∃ x : Packet, x = { cmd := .time, src := ⟨12, 21⟩, dst := raStop, cls := .g, holder := 0xF8 + p, data := BitVec.ofNat 512 u.ptime.toNat } :=
    ⟨_, rfl⟩
  have hrun : timeSend s = sendG u x := by
    have hlist : s.admitted.filter (fun q => q != s.pkg) = [p] := by rw [hadm]; simp [hne]
    rw [timeSend, if_pos ⟨hm, hdue⟩, hlist, hx, ← hu]
    rfl
  have hoff : Offered u (sendG u x) := sendG_offered u (by rw [hx]; exact fun h => by cases h)
  obtain ⟨q, hq, h1, h2, h3⟩ := sendG_gone u (p := x) (by rw [hx]; exact fun h => by cases h) (by rw [hx]; exact fun h => by cases h) (by rw [hx]; exact fun h => by cases h)
  rw [hrun]
  refine ⟨hoff.timeSentAt.trans hup.2, hoff.ptime.trans hup.1, q, hq, by rw [h1, hx], by rw [h2, hx], by rw [h3, hx, hup.1]⟩

/-- The holdover indication is its mode and CASCSTAT.HOLDOVER. -/
theorem setHoldover_spec (s : State) (b : Bool) : let t := setHoldover s b
    t.tbMode = (if b then 2 else 1) ∧ rgF t .cascstat 0 6 6 = b.toNat ∧
    { t with regs := s.regs, tbMode := s.tbMode, mpPend := s.mpPend } = s ∧
    ∀ hi lo, hi < 6 ∨ 6 < lo → rgF t .cascstat 0 hi lo = rgF s .cascstat 0 hi lo := by
  obtain ⟨u, hu⟩ : ∃ u, setRgF s .cascstat 0 6 6 b.toNat = u := ⟨_, rfl⟩
  have hbit : rgF u .cascstat 0 6 6 = b.toNat := by
    rw [← hu, rgF_setRgF_same _ _ _ _ _ _ (by decide) (by decide)]
    cases b <;> rfl
  have hother : ∀ hi lo, hi < 6 ∨ 6 < lo → rgF u .cascstat 0 hi lo = rgF s .cascstat 0 hi lo := fun hi lo h =>
    hu ▸ rgF_setRgF_field _ _ _ _ _ _ _ _ (by decide) (by decide) h
  have hrest : { u with regs := s.regs } = s := hu ▸ rfl
  have hmode : u.tbMode = s.tbMode := hu ▸ rfl
  generalize hm : (if b then 2 else 1) = m
  have hrun : setHoldover s b = if u.tbMode = m then u else raiseSrc { u with tbMode := m } 925 := by
    rw [setHoldover, hu, hm]
  dsimp only
  rw [hrun]
  by_cases h : u.tbMode = m
  · rw [if_pos h]
    refine ⟨h, hbit, ?_, hother⟩
    rw [← hrest]
  · rw [if_neg h]
    have hkept : ∀ hi lo, rgF (raiseSrc { u with tbMode := m } 925) .cascstat 0 hi lo = rgF u .cascstat 0 hi lo :=
      fun hi lo => rgF_raiseSrc (s := { u with tbMode := m }) (by decide) (by decide) (by simp) hi lo
    refine ⟨rfl, (hkept 6 6).trans hbit, ?_, fun hi lo hlo => (hkept hi lo).trans (hother hi lo hlo)⟩
    rw [← hrest]
    rfl

theorem timeArrive_spec (time half : Word) (hm : isMaster s = false) (hw : rgF s .cascstat 0 7 7 = 0) (hp : ∃ p ∈ s.admitted, p ≠ s.pkg) :
    let t := timeArrive s time half
    t.slew = ((time + half).toNat : Int) - (s.ptime.toNat : Int) ∧ t.ptime = s.ptime ∧ t.timeAt = some (now s) ∧ t.tbMode = 1 ∧
    rgF t .cascstat 0 6 6 = 0 ∧ t.cores = s.cores := by
  obtain ⟨u, hu⟩ : ∃ u, { s with slew := ((time + half).toNat : Int) - (s.ptime.toNat : Int), timeAt := some (now s) } = u := ⟨_, rfl⟩
  have hkept : u.slew = ((time + half).toNat : Int) - (s.ptime.toNat : Int) ∧ u.ptime = s.ptime ∧ u.timeAt = some (now s) ∧ u.cores = s.cores :=
    hu ▸ ⟨rfl, rfl, rfl, rfl⟩
  have hany : s.admitted.any (fun p => p != s.pkg) = true := by simpa using hp
  have hrun : timeArrive s time half = setHoldover u false := by
    rw [timeArrive, if_neg (by simp [hm, hw, hany]), hu]
  obtain ⟨h1, h2, h3, _⟩ := setHoldover_spec u false
  rw [hrun]
  generalize setHoldover u false = t at h1 h2 h3
  obtain ⟨k1, k2, k3, k4⟩ := hkept
  have hsame : t.slew = u.slew ∧ t.ptime = u.ptime ∧ t.timeAt = u.timeAt ∧ t.cores = u.cores := by
    rw [← h3]
    exact ⟨rfl, rfl, rfl, rfl⟩
  obtain ⟨e1, e2, e3, e4⟩ := hsame
  exact ⟨e1.trans k1, e2.trans k2, e3.trans k3, h1, h2, e4.trans k4⟩

theorem Arrived.kept (h : Arrived s t) : t.ptime = s.ptime ∧ t.admitted = s.admitted ∧ t.pkg = s.pkg ∧ t.cores = s.cores := by
  rw [← h.rest]
  exact ⟨rfl, rfl, rfl, rfl⟩

theorem Arrived.rgF (h : Arrived s t) {r : RegName} {i : Nat} (hi : i < 2 ^ 32) (hr : r ∉ eventNames) (hs : r ≠ .intsrc) (top lo : Nat) :
    Machine.rgF t r i top lo = Machine.rgF s r i top lo := congrArg (fld · top lo) (h.regs r i hi hr hs)

/-- A TIME packet taken out of the fabric leaves what `timeArrive` looks at. -/
theorem timeTaken_kept {f : Packet → Bool} {p : Packet} {u : State} (h : takePacket f s = some (p, u)) : let v := gArrive u p
    v.ptime = s.ptime ∧ v.admitted = s.admitted ∧ v.pkg = s.pkg ∧ v.cores = s.cores ∧ ∀ hi lo, rgF v .cascstat 0 hi lo = rgF s .cascstat 0 hi lo := by
  have harr := gArrive_arrived u p
  have htook : u.ptime = s.ptime ∧ u.admitted = s.admitted ∧ u.pkg = s.pkg ∧ u.cores = s.cores ∧ u.regs = s.regs := by
    rw [← takePacket_kept h]
    exact ⟨rfl, rfl, rfl, rfl, rfl⟩
  obtain ⟨k1, k2, k3, k4, k5⟩ := htook
  obtain ⟨a1, a2, a3, a4⟩ := harr.kept
  refine ⟨a1.trans k1, a2.trans k2, a3.trans k3, a4.trans k4, fun hi lo => (harr.rgF (by decide) (by decide) (by decide) hi lo).trans ?_⟩
  exact congrArg (fun l => Machine.rgF { s with regs := l } .cascstat 0 hi lo) k5

end

/-! ### Cut packages (R367, R368) -/

section
variable {s t : State}

theorem fenceHolder_offered {h : Nat} (hh : ¬h < 240) (s : State) (home : Nat) : Offered s (fenceHolder s home h) := by
  rw [fenceHolder, fenceFrom]
  dsimp only
  rw [if_neg hh]
  exact (sendG_offered s (fun h => by cases h)).trans (sendG_offered _ (fun h => by cases h))

theorem fenceHolder_told {h : Nat} (hh : ¬h < 240) (s : State) (home : Nat) :
    ∃ p, (p ∈ (fenceHolder s home h).net ∨ p ∈ (fenceHolder s home h).gHeld) ∧ p.cmd = .fence ∧ p.holder = h := by
  rw [fenceHolder, fenceFrom]
  dsimp only
  rw [if_neg hh]
  obtain ⟨q, hq, h1, h2, _⟩ := sendG_gone (sendG s { cmd := .fence, src := ⟨home, 30⟩, dst := ⟨15, 30⟩, cls := .g, holder := h })
    (p := { cmd := .fence, src := ⟨home, 30⟩, dst := ⟨12, 21⟩, cls := .g, holder := h }) (fun h => by cases h) (by simp) (by simp)
  exact ⟨q, hq, h1, h2⟩

/-- A record of the cascade is the heat log's (R607). -/
theorem hlCascade_only (s : State) (ev : Nat) : { hlCascade s ev with hlog := s.hlog } = s := hlDevice_only ..

theorem hlOnly_kept {u : State} (h : { t with hlog := u.hlog } = u) : t.regs = u.regs ∧ t.admitted = u.admitted ∧ t.net = u.net ∧ t.gHeld = u.gHeld ∧
    t.tbMode = u.tbMode := by
  rw [← h]
  exact ⟨rfl, rfl, rfl, rfl, rfl⟩

theorem cutOther_spec {c : Nat} (hc : c < 4) (s : State) : let t := cutOther s c
    c ∉ t.admitted ∧ rgF t .cascstat 0 (60 + c) (60 + c) = 0 ∧ rgF t .cascstat 0 (56 + c) (56 + c) = 1 ∧
    ∃ p, (p ∈ t.net ∨ p ∈ t.gHeld) ∧ p.cmd = .fence ∧ p.holder = 0xF8 + c := by
  obtain ⟨q, hq, h1, h2⟩ := fenceHolder_told (h := 0xF8 + c) (by omega) s 0
  obtain ⟨u, hu⟩ : ∃ u, fenceHolder s 0 (0xF8 + c) = u := ⟨_, rfl⟩
  rw [hu] at hq
  obtain ⟨v, hv⟩ : ∃ v, setRgF u .cascstat 0 (56 + c) (56 + c) 1 = v := ⟨_, rfl⟩
  have hcut : rgF v .cascstat 0 (56 + c) (56 + c) = 1 := by
    rw [← hv, rgF_setRgF_same _ _ _ _ _ _ (by omega) (by omega), show 56 + c + 1 - (56 + c) = 1 by omega]
    rfl
  obtain ⟨w, hw⟩ : ∃ w, setRgF v .cascstat 0 (60 + c) (60 + c) 0 = w := ⟨_, rfl⟩
  have hgone : rgF w .cascstat 0 (60 + c) (60 + c) = 0 := by
    rw [← hw, rgF_setRgF_same _ _ _ _ _ _ (by omega) (by omega)]
    exact Nat.zero_mod _
  have hwcut : rgF w .cascstat 0 (56 + c) (56 + c) = 1 := by
    rw [← hw, rgF_setRgF_field _ _ _ _ _ _ _ _ (by omega) (by omega) (.inl (by omega))]
    exact hcut
  have hwnet : w.net = u.net ∧ w.gHeld = u.gHeld := hw ▸ hv ▸ ⟨rfl, rfl⟩
  obtain ⟨x, hx⟩ : ∃ x, { w with admitted := w.admitted.filter (fun q => q != c) } = x := ⟨_, rfl⟩
  have hxa : c ∉ x.admitted := by
    rw [← hx]
    simp
  have hxkept : x.regs = w.regs ∧ x.net = w.net ∧ x.gHeld = w.gHeld := hx ▸ ⟨rfl, rfl, rfl⟩
  have hrun : cutOther s c = hlCascade x 1 := by rw [cutOther, leaveCascade, hu, hv, hw, hx]
  obtain ⟨k1, k2, k3, k4, _⟩ := hlOnly_kept (hlCascade_only x 1)
  have hregs : ∀ hi lo, rgF (hlCascade x 1) .cascstat 0 hi lo = rgF w .cascstat 0 hi lo := fun hi lo =>
    congrArg (fun l => rgF { w with regs := l } .cascstat 0 hi lo) (k1.trans hxkept.1)
  rw [hrun]
  dsimp only
  rw [hregs, hregs, k2, k3, k4, hxkept.2.1, hxkept.2.2, hwnet.1, hwnet.2]
  exact ⟨hxa, hgone, hwcut, q, hq, h1, h2⟩

theorem cutSelf_spec (hpkg : s.pkg < 4) : let t := cutSelf s
    t.admitted = [s.pkg] ∧ t.tbMode = 2 ∧ bit (rg t .intsrc 915) 1 = true ∧ rgF t .cascstat 0 (56 + s.pkg) (56 + s.pkg) = 1 := by
  obtain ⟨u, hu⟩ : ∃ u, (List.range 4).foldl (fun s q => if q = s.pkg then s else fenceHolder s 0 (0xF8 + q)) s = u := ⟨_, rfl⟩
  have hoff : Offered s u := by
    rw [← hu]
    refine List.foldlRecOn (motive := Offered s) _ _ (.refl s) fun t ht q _ => ?_
    split
    · exact ht
    · exact ht.trans (fenceHolder_offered (by omega) t 0)
  have hupkg : u.pkg = s.pkg := by rw [← hoff.rest]
  obtain ⟨v, hv⟩ : ∃ v, setRgF { u with admitted := [u.pkg] } .cascstat 0 (56 + u.pkg) (56 + u.pkg) 1 = v := ⟨_, rfl⟩
  have hva : v.admitted = [u.pkg] := hv ▸ rfl
  have hcut : rgF v .cascstat 0 (56 + u.pkg) (56 + u.pkg) = 1 := by
    rw [← hv, rgF_setRgF_same _ _ _ _ _ _ (by omega) (by omega), show 56 + u.pkg + 1 - (56 + u.pkg) = 1 by omega]
    rfl
  obtain ⟨h1, _, h3, h4⟩ := setHoldover_spec v true
  obtain ⟨w, hw⟩ : ∃ w, setHoldover v true = w := ⟨_, rfl⟩
  rw [hw] at h1 h3 h4
  have hwa : w.admitted = v.admitted := by rw [← h3]
  obtain ⟨x, hx⟩ : ∃ x, raiseSrc w 915 = x := ⟨_, rfl⟩
  have hxbit : bit (rg x .intsrc 915) 1 = true := hx ▸ bit_raiseSrc (by decide)
  have hxcut : rgF x .cascstat 0 (56 + u.pkg) (56 + u.pkg) = rgF w .cascstat 0 (56 + u.pkg) (56 + u.pkg) :=
    hx ▸ rgF_raiseSrc (by decide) (by decide) (by simp) _ _
  have hxkept : x.admitted = w.admitted ∧ x.tbMode = w.tbMode := hx ▸ ⟨rfl, rfl⟩
  have hrun : cutSelf s = hlCascade x 1 := by
    rw [cutSelf, hu, hv, hw, hx]
  obtain ⟨k1, k2, _, _, k5⟩ := hlOnly_kept (hlCascade_only x 1)
  have hregs : ∀ r i, rg (hlCascade x 1) r i = rg x r i := fun r i => congrArg (fun l => rg { x with regs := l } r i) k1
  rw [hrun, ← hupkg]
  refine ⟨by rw [k2, hxkept.1, hwa, hva], by rw [k5, hxkept.2, h1]; rfl, by rw [hregs]; exact hxbit, ?_⟩
  rw [rgF, hregs]
  exact (hxcut.trans (h4 _ _ (.inr (by omega)))).trans hcut

theorem cutOf_cases (a b : Nat) : cutOf a b = a ∨ cutOf a b = b := by
  unfold cutOf
  split_ifs
  · exact .inr rfl
  · exact .inl rfl
  · exact (max_choice a b)

end

/-! ### Broadcasts (R366) -/

section
variable {s t : State}

theorem sentOnly_trans {u : State} (h1 : { t with net := s.net, sendNo := s.sendNo } = s) (h2 : { u with net := t.net, sendNo := t.sendNo } = t) :
    { u with net := s.net, sendNo := s.sendNo } = s := by rw [← h1, ← h2]

theorem foldl_bcastSend (n : Nat) (done : Bool) (y : Option Tinv) : ∀ (l : List Nat) (s : State),
    let t := l.foldl (fun s p => bcastSend s p n done y) s
    { t with net := s.net, sendNo := s.sendNo } = s ∧ (∀ q ∈ s.net, q ∈ t.net) ∧
    ∀ p ∈ l, ∃ q ∈ t.net, q.cmd = .tinvBc ∧ q.holder = 0xF8 + p ∧ q.arg = n ∧ q.dirty = done ∧ q.tinv = y
  | [], _ => ⟨rfl, fun _ h => h, fun _ h => absurd h List.not_mem_nil⟩
  | a :: l, s => by
    obtain ⟨h1, h2, h3⟩ := foldl_bcastSend n done y l (bcastSend s a n done y)
    refine ⟨?_, fun q hq => h2 q (List.mem_append_left _ hq), fun p hp => ?_⟩
    · exact sentOnly_trans (t := bcastSend s a n done y) rfl h1
    · rcases List.mem_cons.mp hp with rfl | hp
      · exact ⟨_, h2 _ (List.mem_append_right _ List.mem_cons_self), rfl, rfl, rfl, rfl, rfl⟩
      · exact h3 p hp

theorem tinvTargets_congr (hr : t.regs = s.regs) (hf : t.fencedStk = s.fencedStk) : tinvTargets t = tinvTargets s := by
  refine List.filter_congr fun c _ => ?_
  rw [show domState t c = domState s c from congrArg (fun l => domState { s with regs := l } c) hr, hf]

/-- A TINV that cores have still to take is queued for each, and its broadcast waits for them. -/
theorem performBcast_tinv {n : Nat} {y : Tinv} (h : tinvTargets s ≠ []) : performBcast s n .tinv (some y) = tinvSpread s { y with from_ := bcastTag n } := by
  obtain ⟨c, cs, hc⟩ : ∃ c cs, tinvTargets s = c :: cs := List.exists_cons_of_ne_nil h
  have hany : (tinvSpread s { y with from_ := bcastTag n }).tinvQ.any (fun q => q.2.from_ == bcastTag n) = true := by
    rw [tinvSpread, hc]
    simp
  rw [performBcast, bcastHere, if_pos hany]

theorem tinvSpread_spec (s : State) (x : Tinv) : (tinvSpread s x).tinvQ = s.tinvQ ++ (tinvTargets s).map (fun c => (c, x)) ∧
    { tinvSpread s x with tinvQ := s.tinvQ, hubTlb := s.hubTlb } = s := ⟨rfl, rfl⟩

/-- The master numbers a broadcast, tells every other package, and queues it for its own cores. -/
theorem masterBcast_spec {x : Bcast} {y : Tinv} (hk : x.kind = .tinv) (hy : x.tinv = some y) (h : tinvTargets s ≠ []) : let t := masterBcast s x
    t.bcastSeq = s.bcastSeq + 1 ∧ t.bcasts = s.bcasts ∧ t.tinvQ = s.tinvQ ++ (tinvTargets s).map (fun c => (c, { y with from_ := bcastTag s.bcastSeq })) ∧
    ∀ p ∈ s.admitted, p ≠ s.pkg → ∃ q ∈ t.net, q.cmd = .tinvBc ∧ q.holder = 0xF8 + p ∧ q.arg = s.bcastSeq ∧ q.dirty = false ∧ q.tinv = some y := by
  obtain ⟨u, hu⟩ : ∃ u, { s with bcastSeq := s.bcastSeq + 1 } = u := ⟨_, rfl⟩
  have hukept : u.bcastSeq = s.bcastSeq + 1 ∧ u.bcasts = s.bcasts ∧ u.tinvQ = s.tinvQ ∧ u.regs = s.regs ∧ u.fencedStk = s.fencedStk := hu ▸ ⟨rfl, rfl, rfl, rfl, rfl⟩
  obtain ⟨u1, u2, u3, u4, u5⟩ := hukept
  obtain ⟨v, hv⟩ : ∃ v, (s.admitted.filter (fun p => p != s.pkg)).foldl (fun s p => bcastSend s p (u.bcastSeq - 1) false x.tinv) u = v := ⟨_, rfl⟩
  obtain ⟨hrest, _, hsent⟩ := hv ▸ foldl_bcastSend (u.bcastSeq - 1) false x.tinv (s.admitted.filter (fun p => p != s.pkg)) u
  have hvkept : v.bcastSeq = u.bcastSeq ∧ v.bcasts = u.bcasts ∧ v.tinvQ = u.tinvQ ∧ v.regs = u.regs ∧ v.fencedStk = u.fencedStk := by
    rw [← hrest]
    exact ⟨rfl, rfl, rfl, rfl, rfl⟩
  obtain ⟨v1, v2, v3, v4, v5⟩ := hvkept
  have htargets : tinvTargets v = tinvTargets s := tinvTargets_congr (v4.trans u4) (v5.trans u5)
  have hseq : u.bcastSeq - 1 = s.bcastSeq := by omega
  have hrun : masterBcast s x = tinvSpread v { y with from_ := bcastTag s.bcastSeq } := by
    rw [← performBcast_tinv (by rw [htargets]; exact h), masterBcast, hu, ← hseq, hv, hk, hy]
  obtain ⟨hq, hspread⟩ := tinvSpread_spec v { y with from_ := bcastTag s.bcastSeq }
  rw [hrun]
  generalize tinvSpread v { y with from_ := bcastTag s.bcastSeq } = t at hq hspread
  have htkept : t.bcastSeq = v.bcastSeq ∧ t.bcasts = v.bcasts ∧ t.net = v.net := by
    rw [← hspread]
    exact ⟨rfl, rfl, rfl⟩
  obtain ⟨t1, t2, t3⟩ := htkept
  refine ⟨by rw [t1, v1, u1], by rw [t2, v2, u2], by rw [hq, htargets, v3, u3], fun p hp hne => ?_⟩
  rw [t3, ← hseq, ← hy]
  exact hsent p (List.mem_filter.mpr ⟨hp, by simpa using hne⟩)

theorem bcastRoom_of {x : Bcast} (hb : s.bcasts = [x]) (hs : x.sent = false) : bcastRoom s = true := by
  unfold bcastRoom
  rw [hb]
  simp [hs]

theorem nextOwn_single {x : Bcast} {f : Bcast → Bool} {g : Bcast → Bcast} (hb : s.bcasts = [x]) (hp : x.pkg = s.pkg) (hf : f x = true) :
    nextOwn s f g = some (g x, { s with bcasts := [g x] }) := by
  unfold nextOwn
  rw [hb]
  simp [hp, hf]

/-! ### The end of a broadcast (R130) -/

theorem stepHalt_only (s : State) (c : Nat) : CoreOnly c s (stepHalt s c) := by
  unfold stepHalt
  dsimp only
  split
  · exact (CoreOnly.setCore ..).trans (.sysSet ..)
  · exact .refl ..

theorem takeExcAt_only (s : State) (c : Nat) {e : Exc} (ht : e.tgt = .local_) (epc esyn : Word) : CoreOnly c s (takeExcAt s c e epc esyn) := by
  have hlt := plOf_lt (getCore s c)
  have hentered := takeExcAt_entered s c e epc esyn (localTgt (getCore s c)) (by rw [ht]; rfl)
    (by rw [localTgt_eq_max]; omega) (by rw [localTgt_eq_max]; omega)
  exact hentered.rest

theorem complete_only (s : State) (c : Nat) (pc : Word) : CoreOnly c s (complete s c pc) := by
  have hcount : CoreOnly c s (if c = mpCore then countEvent s c 0x003 else retireSteps (countEvent s c 0x003) c) := by
    have h := (countEvent_counted s c 0x003).only
    split
    · exact h
    · exact h.trans (retireSteps_counted ..).only
  refine CoreOnly.trans ?_ (stepHalt_only ..)
  unfold retireAt
  dsimp only
  split
  · exact (hcount.trans (.setCore ..)).trans (takeExcAt_only _ c (by rfl) _ _)
  · exact hcount.trans (.setCore ..)

theorem tryBar_only (s : State) (c : Nat) : CoreOnly c s (tryBar s c) := by
  unfold tryBar
  dsimp only
  split
  · exact .refl ..
  · split
    · refine CoreOnly.trans ?_ (complete_only ..)
      split
      · exact (CoreOnly.setCore ..).trans (.setCore ..)
      · exact .setCore ..
    · exact .refl ..

theorem tinvAck_only (s : State) (i c : Nat) : CoreOnly i s (tinvAck s i c) := (CoreOnly.setCore ..).trans (tryBar_only ..)

theorem CoreOnly.bcasts {c : Nat} (h : CoreOnly c s t) : t.bcasts = s.bcasts := by
  obtain ⟨hrest, _⟩ := h
  rw [← hrest]

/-- The last report of a broadcast of this package tells the issuing core (R130). -/
theorem bcastPart_last {x : Bcast} {p n : Nat} (hne : p ≠ s.pkg) (hb : s.bcasts = [x]) (hnum : x.num = true) (hseq : x.seq = n) (hx : x.pkg = s.pkg)
    (hcore : coreOfStop x.src ≤ mpCore) (hleft : x.left = [p]) : bcastPart s p n = tinvAck { s with bcasts := [] } (coreOfStop x.src) 0xFFF := by
  have hlast : x.left.erase p = [] := by
    rw [hleft]
    exact List.erase_cons_head ..
  unfold bcastPart
  dsimp only
  rw [if_neg (fun h => hne h.1), hb]
  simp [hnum, hseq, hlast, hx, hcore]

end

/-! ### The obligation -/

/-- Settles O37: time by `timeSend_spec`, `timeArrive_spec` and `setHoldover_spec`, cuts by `cutOther_spec` and `cutSelf_spec`, broadcasts by
`masterBcast_spec` and `bcastPart_last`. -/
theorem cascadeTimeAndCuts : Obligations.CascadeTimeAndCuts := by
  unfold Obligations.CascadeTimeAndCuts
  refine ⟨fun p s hm hdue hne hadm => ?_, fun time half s hm hw hp => ?_, fun t0 s ht hm hlate => ?_, fun a b s hab ha hb hpkg => ⟨fun h1 h2 => ?_, fun hself hc hlost => ?_⟩,
    fun x y s hbc hx hk hy hs hn => ⟨fun hm htar => ?_, fun hm => ?_⟩, fun b y s hd hne hk hy htar => ⟨fun hm => ?_, fun hm hseq => ?_, fun hm hseq => ?_⟩,
    fun b x s hd hm hne hbc hn hseq hx hcore hleft => ?_⟩
  · obtain ⟨h1, h2, q, hq, h3, h4, h5⟩ := timeSend_spec hm hdue hne hadm
    exact ⟨_, q, rfl, h1, hq, h3, h4, h5, h2⟩
  · unfold exec execTime
    cases htake : takePacket (fun p => p.cmd == .time && p.spkg.isSome) s with
    | none => exact ⟨_, rfl, timeArrive_spec time half hm hw hp⟩
    | some r =>
      obtain ⟨k1, k2, k3, k4, k5⟩ := timeTaken_kept htake
      obtain ⟨v, hv⟩ : ∃ v, gArrive r.2 r.1 = v := ⟨_, rfl⟩
      rw [hv] at k1 k2 k3 k4 k5
      have hspec := timeArrive_spec (s := v) time half (by rw [isMaster, k5, ← isMaster]; exact hm) (by rw [k5]; exact hw) (by rw [k2, k3]; exact hp)
      have hnow : now v = now s := congrArg BitVec.toNat k1
      rw [k1, hnow, k4] at hspec
      exact ⟨timeArrive v time half, congrArg (fun u => ok (timeArrive u time half)) hv, hspec⟩
  · obtain ⟨u, hu⟩ : ∃ u, { s with slew := 0, timeAt := none } = u := ⟨_, rfl⟩
    have hukept : u.slew = 0 ∧ u.timeAt = none ∧ u.ptime = s.ptime := hu ▸ ⟨rfl, rfl, rfl⟩
    have hrun : timeHoldover s = setHoldover u true := by
      rw [timeHoldover, ht]
      dsimp only
      rw [if_pos ⟨by simp [hm], hlate⟩, hu]
    obtain ⟨h1, h2, h3, _⟩ := setHoldover_spec u true
    generalize setHoldover u true = t at hrun h1 h2 h3
    have htkept : t.slew = u.slew ∧ t.timeAt = u.timeAt ∧ t.ptime = u.ptime := by
      rw [← h3]
      exact ⟨rfl, rfl, rfl⟩
    obtain ⟨e1, e2, e3⟩ := htkept
    obtain ⟨k1, k2, k3⟩ := hukept
    exact ⟨t, congrArg ok hrun, h1, e1.trans k1, e2.trans k2, h2, e3.trans k3⟩
  · have hc := cutOf_cases a b
    have hne : cutOf a b ≠ s.pkg := fun he => hc.elim (fun h => h1 (he.symm.trans h)) fun h => h2 (he.symm.trans h)
    have hrun : bundleLoss s a b = cutOther s (cutOf a b) := by
      rw [bundleLoss, if_neg (by simp [ha, hb, Fin.val_ne_of_ne hab]), if_neg (fun h => h1 h.1.symm), if_neg (fun h => h2 h.1.symm), if_neg hne]
    exact ⟨_, congrArg ok hrun, cutOther_spec (by rcases hc with h | h <;> rw [h] <;> omega) s⟩
  · have hrun : bundleLoss s a b = cutSelf s := by
      rw [bundleLoss, if_neg (by simp [ha, hb, Fin.val_ne_of_ne hab]), if_neg (by simp [hlost]), if_neg (fun h => hab (Fin.ext (hself.trans h.1.symm))), if_pos hc]
    obtain ⟨h1, h2, h3, h4⟩ := cutSelf_spec hpkg
    exact ⟨_, congrArg ok hrun, h1, h2, h3, by rw [hc]; exact h4⟩
  · obtain ⟨u, hu⟩ : ∃ u, { s with bcasts := [{ x with sent := true, num := true, seq := s.bcastSeq, left := s.admitted }] } = u := ⟨_, rfl⟩
    have hrun : bcastIssue s = masterBcast u { x with sent := true, num := true, seq := s.bcastSeq, left := s.admitted } := by
      rw [bcastIssue, bcastRoom_of hbc hs, if_neg (by decide), if_pos hm, nextOwn_single hbc hx (by simp [hn]), ← hu]
    have hukept : u.bcastSeq = s.bcastSeq ∧ u.tinvQ = s.tinvQ ∧ u.admitted = s.admitted ∧ u.pkg = s.pkg ∧
        u.bcasts = [{ x with sent := true, num := true, seq := s.bcastSeq, left := s.admitted }] := hu ▸ ⟨rfl, rfl, rfl, rfl, rfl⟩
    have htu : tinvTargets u = tinvTargets s := tinvTargets_congr (hu ▸ rfl) (hu ▸ rfl)
    obtain ⟨u1, u2, u3, u4, u5⟩ := hukept
    obtain ⟨h1, h2, h3, h4⟩ := masterBcast_spec (s := u) (x := { x with sent := true, num := true, seq := s.bcastSeq, left := s.admitted }) hk hy (htu ▸ htar)
    rw [u1] at h1 h3 h4
    rw [u2, htu] at h3
    rw [u3, u4] at h4
    exact ⟨_, congrArg ok hrun, h1, h2.trans u5, h3, h4⟩
  · have hrun : bcastIssue s = bcastSend { s with bcasts := [{ x with sent := true }] } 0 0 false (some y) := by
      rw [bcastIssue, bcastRoom_of hbc hs, if_neg (by decide), if_neg (by simp [hm]), nextOwn_single hbc hx (by simp [hs])]
      dsimp only
      rw [hy]
    exact ⟨_, _, congrArg ok hrun, rfl, rfl, rfl, rfl, rfl, rfl, rfl, rfl⟩
  · obtain ⟨x, hx⟩ : ∃ x : Bcast, x = { kind := b.kind, src := raStop, tinv := b.tinv, pkg := b.pkg.val, seq := s.bcastSeq, sent := true, num := true, left := s.admitted } :=
      ⟨_, rfl⟩
    obtain ⟨u, hu⟩ : ∃ u, { s with bcasts := s.bcasts ++ [x] } = u := ⟨_, rfl⟩
    have hrun : bcastArrive s b = masterBcast u x := by
      rw [bcastArrive, hd, if_neg (by decide), if_pos hm, if_neg hne, ← hu, hx]
    have hukept : u.bcastSeq = s.bcastSeq ∧ u.tinvQ = s.tinvQ ∧ u.admitted = s.admitted ∧ u.pkg = s.pkg ∧ u.bcasts = s.bcasts ++ [x] := hu ▸ ⟨rfl, rfl, rfl, rfl, rfl⟩
    have htu : tinvTargets u = tinvTargets s := tinvTargets_congr (hu ▸ rfl) (hu ▸ rfl)
    obtain ⟨u1, u2, u3, u4, u5⟩ := hukept
    obtain ⟨h1, h2, h3, h4⟩ := masterBcast_spec (s := u) (x := x) (by rw [hx]; exact hk) (by rw [hx]; exact hy) (htu ▸ htar)
    rw [u1] at h1 h3 h4
    rw [u2, htu] at h3
    rw [u3, u4] at h4
    refine ⟨_, x, congrArg ok hrun, ⟨h1, h3⟩, h2.trans u5, by rw [hx], by rw [hx], by rw [hx], by rw [hx], fun p hp hpne => ?_⟩
    obtain ⟨q, hq, e1, e2, e3, _, e5⟩ := h4 p hp hpne
    exact ⟨q, hq, e1, e2, e3, e5⟩
  · obtain ⟨u, hu⟩ : ∃ u, { s with bcastSeq := b.seq + 1 } = u := ⟨_, rfl⟩
    have htu : tinvTargets u = tinvTargets s := tinvTargets_congr (hu ▸ rfl) (hu ▸ rfl)
    have hrun : bcastArrive s b = tinvSpread u { y with from_ := bcastTag b.seq } := by
      rw [bcastArrive, hd, if_neg (by decide), if_neg (by simp [hm]), if_neg (by simp [hseq]), if_neg hne, hu, hk, hy]
      exact performBcast_tinv (htu ▸ htar)
    obtain ⟨hq, hspread⟩ := tinvSpread_spec u { y with from_ := bcastTag b.seq }
    have huseq : u.bcastSeq = s.bcastSeq + 1 := hu ▸ hseq ▸ rfl
    have huq : u.tinvQ = s.tinvQ := hu ▸ rfl
    rw [huq, htu] at hq
    generalize tinvSpread u { y with from_ := bcastTag b.seq } = t at hrun hq hspread
    have htseq : t.bcastSeq = u.bcastSeq := by rw [← hspread]
    exact ⟨t, congrArg ok hrun, htseq.trans huseq, hq⟩
  · refine ⟨s, congrArg ok ?_, rfl⟩
    change bcastArrive s b = s
    rw [bcastArrive, hd, if_neg (by decide), if_neg (by simp [hm]), if_pos hseq]
  · have hrun : bcastArrive s b = tinvAck { s with bcasts := [] } (coreOfStop x.src) 0xFFF := by
      rw [bcastArrive, hd, if_pos rfl, if_pos hm]
      exact bcastPart_last hne hbc hn hseq hx hcore hleft
    obtain ⟨u, hu⟩ : ∃ u, { s with bcasts := [] } = u := ⟨_, rfl⟩
    have hukept : u.bcasts = [] ∧ u.net = s.net ∧ getCore u (coreOfStop x.src) = getCore s (coreOfStop x.src) := hu ▸ ⟨rfl, rfl, rfl⟩
    obtain ⟨u1, u2, u3⟩ := hukept
    have honly := tinvAck_only u (coreOfStop x.src) 0xFFF
    have hout := (tinvAck_frame u (coreOfStop x.src) 0xFFF).2.2
    rw [hu] at hrun
    rw [u3] at hout
    exact ⟨_, congrArg ok hrun, honly.bcasts.trans u1, hout, honly.net.trans u2⟩

end Sys2Proof.Machine
end

section
/-! PROOFS. Optical engines and laser cartridges (R410 to R422). -/
namespace Sys2Proof.Machine

open Sys2Proof

/-! ### What leaves slots and engines alone -/

/-- The registers of an engine's slots and its own, the source of what else an engine looks at. -/
def lightNames : List RegName := [.cartstat, .oestat, .oecmd, .dstate, .pkgid]

/-- From s to t no slot, engine or register of theirs changed. -/
structure LightKept (s t : State) : Prop where
  regs : ∀ r i, i < 2 ^ 32 → r ∈ lightNames → rg t r i = rg s r i
  slots : t.slots = s.slots
  engs : t.engs = s.engs
  ptime : t.ptime = s.ptime
  features : t.features = s.features
  plan : t.oePlan = s.oePlan

section
variable {s t u : State}

theorem LightKept.refl (s : State) : LightKept s s := ⟨fun _ _ _ _ => rfl, rfl, rfl, rfl, rfl, rfl⟩

theorem LightKept.trans (h1 : LightKept s t) (h2 : LightKept t u) : LightKept s u :=
  ⟨fun r i hi hr => (h2.regs r i hi hr).trans (h1.regs r i hi hr), h2.slots.trans h1.slots, h2.engs.trans h1.engs, h2.ptime.trans h1.ptime,
    h2.features.trans h1.features, h2.plan.trans h1.plan⟩

theorem LightKept.ite {p : Prop} [Decidable p] (h1 : LightKept s t) (h2 : LightKept s u) : LightKept s (if p then t else u) := by
  split
  · exact h1
  · exact h2

theorem LightKept.foldl {α : Type} {f : State → α → State} {l : List α} (h : LightKept s t) (hf : ∀ u a, a ∈ l → LightKept u (f u a)) :
    LightKept s (l.foldl f t) :=
  List.foldlRecOn (motive := LightKept s) _ _ h fun u hu a ha => hu.trans (hf u a ha)

theorem LightKept.setRgF (h : LightKept s t) {r : RegName} {i : Nat} (hr : r ∉ lightNames) (hi : i < 2 ^ 32) (top lo x : Nat) :
    LightKept s (setRgF t r i top lo x) :=
  h.trans ⟨fun r' i' hi' hr' => rg_setRg_other hi hi' fun he => hr (by rw [← (Prod.mk.inj he).1]; exact hr'), rfl, rfl, rfl, rfl, rfl⟩

theorem LightKept.raiseSrc (h : LightKept s t) {n : Nat} (hn : n < 2 ^ 32) : LightKept s (raiseSrc t n) :=
  h.trans ⟨fun r i hi hr => rg_raiseSrc hn hi fun he => by rw [(Prod.mk.inj he).1] at hr; exact absurd hr (by decide), rfl, rfl, rfl, rfl, rfl⟩

theorem LightKept.setPalEnd (h : LightKept s t) (g : Nat) (x : PalEnd) : LightKept s (setPalEnd t g x) :=
  h.trans ⟨fun _ _ _ _ => rfl, rfl, rfl, rfl, rfl, rfl⟩

theorem LightKept.setLgState (h : LightKept s t) {g : Nat} (hg : g < 64) (x : Nat) : LightKept s (setLgState t g x) :=
  .ite h ((h.setRgF (by decide) (by omega) ..).raiseSrc (by omega))

theorem LightKept.lgRefresh (h : LightKept s t) {g : Nat} (hg : g < 64) : LightKept s (lgRefresh t g) :=
  .ite h (.ite (h.setLgState hg _) (.ite (h.setLgState hg _) (.ite (h.setLgState hg _) (.ite (h.setLgState hg _) h))))

theorem LightKept.setPal (h : LightKept s t) {g : Nat} (hg : g < 64) (x : Nat) : LightKept s (setPal t g x) := by
  have hset := (h.setRgF (r := .palstat) (i := g) (by decide) (by omega) 3 0 x).raiseSrc (n := 384 + 16 * g + 12) (by omega)
  have hend := LightKept.ite (p := palState t g = 3) (hset.setPalEnd g { palEnd (Machine.raiseSrc (Machine.setRgF t .palstat g 3 0 x) (384 + 16 * g + 12)) g with
    outSince := now (Machine.raiseSrc (Machine.setRgF t .palstat g 3 0 x) (384 + 16 * g + 12)) }) hset
  exact .ite h (.ite (hend.setLgState hg _) hend)

theorem LightKept.setEthLink (h : LightKept s t) {n : Nat} (hn : n < 64) (up : Bool) : LightKept s (setEthLink t n up) := by
  have hport : ∀ u : State, rgF u .ethport n 4 0 < 64 := fun u => Nat.lt_of_lt_of_le (fld_lt (rg u .ethport n) 4 0) (by decide)
  exact .ite h (((h.setRgF (by decide) (by omega) ..).raiseSrc (by omega)).lgRefresh (hport _))

theorem engGroup_lt {e : Nat} (he : e < 4) : engGroup e + 1 < 64 := by
  unfold engGroup
  omega

theorem LightKept.oeDarkLanes (h : LightKept s t) {e : Nat} (he : e < 4) : LightKept s (oeDarkLanes t e) := by
  have hgroup := engGroup_lt he
  refine h.foldl fun u j hj => ?_
  have hj' := List.mem_range.mp hj
  have hpal : LightKept u (if rgF u .lgctl (engGroup e + j) 2 0 = 3 ∧ palState u (engGroup e + j) > 1 then Machine.setPal u (engGroup e + j) 1 else u) :=
    .ite ((LightKept.refl u).setPal (by omega) _) (.refl u)
  refine LightKept.lgRefresh ?_ (by omega)
  refine LightKept.ite (hpal.foldl fun v n hn => (LightKept.refl v).setEthLink ?_ false) hpal
  have := List.mem_range.mp (List.mem_filter.mp hn).1
  omega

theorem LightKept.hlDevice (h : LightKept s t) (typ origin arg : Nat) (p : BitVec 256) : LightKept s (hlDevice t typ origin arg p) := by
  have honly := hlDevice_only t typ origin arg p
  generalize Machine.hlDevice t typ origin arg p = w at honly
  refine h.trans ?_
  rw [← honly]
  exact ⟨fun _ _ _ _ => rfl, rfl, rfl, rfl, rfl, rfl⟩

theorem LightKept.hlCart (h : LightKept s t) (e b ev : Nat) : LightKept s (hlCart t e b ev) := by
  rw [Machine.hlCart]
  exact h.hlDevice ..

theorem LightKept.oeEvent (h : LightKept s t) {e : Nat} (he : e < 4) : LightKept s (oeEvent t e) := h.raiseSrc (by unfold engGroup; omega)

theorem LightKept.rgF (h : LightKept s t) {r : RegName} {i : Nat} (hi : i < 2 ^ 32) (hr : r ∈ lightNames) (top lo : Nat) :
    Machine.rgF t r i top lo = Machine.rgF s r i top lo := congrArg (fld · top lo) (h.regs r i hi hr)

end

/-! ### An engine and its two slots, seen at once -/

/-- What the commands of an engine look at and change: the words of its slots and its own, the cartridges, its fade or switchover; and
what they only look at. -/
structure EngView where
  cart : Fin 2 → Word
  oe : Word
  slot : Fin 2 → Slot
  eng : Engine
  now : Nat
  fade : Bool
  plan : Nat
  runs : Bool
  id : Nat

/-- The view of engine e. -/
def engView (s : State) (e : Nat) : EngView where
  cart b := rg s .cartstat (2 * e + b.val)
  oe := rg s .oestat e
  slot b := slotOf s e b.val
  eng := eng s e
  now := now s
  fade := bitOf s.features 16
  plan := tget 1 e s.oePlan
  runs := engRuns s e
  id := rgF s .pkgid 0 31 0

/-- The state of a slot. -/
def EngView.st (x : EngView) (b : Fin 2) : Nat := fld (x.cart b) 3 0

/-- A slot's word changed. -/
def EngView.setCart (x : EngView) (b : Fin 2) (hi lo v : Nat) : EngView := { x with cart := Function.update x.cart b (setFld (x.cart b) hi lo v) }

/-- A slot's cartridge replaced. -/
def EngView.setSlot (x : EngView) (b : Fin 2) (y : Slot) : EngView := { x with slot := Function.update x.slot b y }

/-- The engine's own word changed. -/
def EngView.setOe (x : EngView) (hi lo v : Nat) : EngView := { x with oe := setFld x.oe hi lo v }

/-- A slot changes its state, and its lit time with it (R415). -/
def EngView.setSt (x : EngView) (b : Fin 2) (v : Nat) : EngView :=
  let y := x.setCart b 3 0 v
  if x.st b ≠ 3 ∧ v = 3 then y.setSlot b { x.slot b with litFrom := some x.now }
  else if x.st b = 3 ∧ v ≠ 3 then
    y.setSlot b { x.slot b with litFrom := none, litBefore := (x.slot b).litBefore + (x.now - (x.slot b).litFrom.getD x.now) }
  else y

section
variable {s t : State} {e : Nat}

theorem LightKept.view (h : LightKept s t) (he : e < 4) : engView t e = engView s e := by
  have hnow : Machine.now t = Machine.now s := congrArg BitVec.toNat h.ptime
  have hcart : ∀ b : Fin 2, rg t .cartstat (2 * e + b.val) = rg s .cartstat (2 * e + b.val) := fun b => h.regs _ _ (by omega) (by decide)
  have hoe : rg t .oestat e = rg s .oestat e := h.regs _ _ (by omega) (by decide)
  have hruns : engRuns t e = engRuns s e := congrArg (· == 0) (h.rgF (r := .dstate) (i := 0x1A0 + e) (by omega) (by decide) 2 0)
  have hid : Machine.rgF t .pkgid 0 31 0 = Machine.rgF s .pkgid 0 31 0 := h.rgF (by decide) (by decide) 31 0
  have hslot : ∀ b : Fin 2, slotOf t e b.val = slotOf s e b.val := fun b => by rw [slotOf, h.slots, slotOf]
  have heng : Machine.eng t e = Machine.eng s e := by rw [Machine.eng, h.engs, Machine.eng]
  rw [engView, engView, hoe, hnow, hruns, hid, heng, h.features, h.plan]
  simp only [hcart, hslot]

theorem view_setOe (he : e < 4) (s : State) (hi lo v : Nat) : engView (setRgF s .oestat e hi lo v) e = (engView s e).setOe hi lo v := by
  have hoe : rg (setRgF s .oestat e hi lo v) .oestat e = setFld (rg s .oestat e) hi lo v := rg_setRg_same ..
  have hcart : ∀ b : Fin 2, rg (setRgF s .oestat e hi lo v) .cartstat (2 * e + b.val) = rg s .cartstat (2 * e + b.val) := fun b =>
    rg_setRg_other (by omega) (by omega) (by simp)
  have hruns : engRuns (setRgF s .oestat e hi lo v) e = engRuns s e :=
    congrArg (fun w => fld w 2 0 == 0) (rg_setRg_other (r' := .dstate) (i' := 0x1A0 + e) (by omega) (by omega) (by simp))
  have hid : rgF (setRgF s .oestat e hi lo v) .pkgid 0 31 0 = rgF s .pkgid 0 31 0 := rgF_setRgF_name (by simp) (by omega) (by decide)
  rw [engView, hoe, hruns, hid]
  simp only [hcart]
  rfl

theorem view_setCart (he : e < 4) (b : Fin 2) (s : State) (hi lo v : Nat) :
    engView (setRgF s .cartstat (2 * e + b.val) hi lo v) e = (engView s e).setCart b hi lo v := by
  have hcart : ∀ c : Fin 2, rg (setRgF s .cartstat (2 * e + b.val) hi lo v) .cartstat (2 * e + c.val) =
      Function.update (fun c : Fin 2 => rg s .cartstat (2 * e + c.val)) b (setFld (rg s .cartstat (2 * e + b.val)) hi lo v) c := fun c => by
    by_cases hc : c = b
    · subst hc
      rw [Function.update_self]
      exact rg_setRg_same ..
    · rw [Function.update_of_ne hc]
      exact rg_setRg_other (by omega) (by omega) fun he => hc (Fin.ext (by have := (Prod.mk.inj he).2; omega))
  have hoe : rg (setRgF s .cartstat (2 * e + b.val) hi lo v) .oestat e = rg s .oestat e := rg_setRg_other (by omega) (by omega) (by simp)
  have hruns : engRuns (setRgF s .cartstat (2 * e + b.val) hi lo v) e = engRuns s e :=
    congrArg (fun w => fld w 2 0 == 0) (rg_setRg_other (r' := .dstate) (i' := 0x1A0 + e) (by omega) (by omega) (by simp))
  have hid : rgF (setRgF s .cartstat (2 * e + b.val) hi lo v) .pkgid 0 31 0 = rgF s .pkgid 0 31 0 := rgF_setRgF_name (by simp) (by omega) (by decide)
  rw [engView, hoe, hruns, hid]
  simp only [hcart]
  rfl

theorem view_setSlot (b : Fin 2) (s : State) (y : Slot) : engView (setSlot s e b.val y) e = (engView s e).setSlot b y := by
  have hslot : ∀ c : Fin 2, slotOf (setSlot s e b.val y) e c.val = Function.update (fun c : Fin 2 => slotOf s e c.val) b y c := fun c => by
    by_cases hc : c = b
    · subst hc
      rw [Function.update_self]
      exact tget_tset_same _
    · rw [Function.update_of_ne hc]
      exact tget_tset_ne (fun he => hc (Fin.ext (by omega))) _
  rw [engView]
  simp only [hslot]
  rfl

theorem view_setEng (s : State) (b : Nat) : engView (setEng s e b) e = { engView s e with eng := ⟨now s, b⟩ } := by
  have hset : tget {} e (tset {} e (⟨now s, b⟩ : Engine) s.engs) = ⟨now s, b⟩ := tget_tset_same _
  have heng : eng (setEng s e b) e = ⟨now s, b⟩ := hset
  rw [engView, heng]
  rfl

theorem slotSt_view (s : State) (e : Nat) (b : Fin 2) : slotSt s e b.val = (engView s e).st b := rfl

theorem view_setSlotSt (he : e < 4) (b : Fin 2) (s : State) (v : Nat) : engView (setSlotSt s e b.val v) e = (engView s e).setSt b v := by
  have hset := view_setCart he b s 3 0 v
  have hslot : slotOf s e b.val = (engView s e).slot b := rfl
  have hnow : now s = (engView s e).now := rfl
  have hnow' : now (setRgF s .cartstat (2 * e + b.val) 3 0 v) = (engView s e).now := rfl
  unfold setSlotSt EngView.setSt
  dsimp only
  rw [slotSt_view, hslot, hnow']
  split
  · rw [view_setSlot, hset]
  · split
    · rw [view_setSlot, hset]
    · exact hset

end

/-! ### What the parts of the commands do to the view -/

/-- The engine's state, its status and its lit slot. -/
def EngView.oeSt (x : EngView) : Nat := fld x.oe 23 20
def EngView.status (x : EngView) : Nat := fld x.oe 7 0
def EngView.lit (x : EngView) : Fin 2 := ⟨fld x.oe 17 17, fld_lt x.oe 17 17⟩

/-- PROTECTED or EXPOSED; DARK where the lit slot is not lit. -/
def EngView.settle (x : EngView) : EngView := x.setOe 23 20 (if x.st x.lit ≠ 3 then 0 else if x.st (1 - x.lit) = 2 then 1 else 2)

/-- A dark engine lights a slot (R411). -/
def EngView.light (x : EngView) : EngView :=
  if x.runs = false ∨ x.oeSt ≠ 0 then x
  else if x.st x.lit = 2 then (x.setSt x.lit 3).settle
  else if x.st x.lit ≠ 1 ∧ x.st (1 - x.lit) = 2 then ((x.setSt (1 - x.lit) 3).setOe 17 17 (1 - x.lit : Fin 2)).settle
  else x

/-- A slot joins one more fade or switchover. -/
def EngView.count (x : EngView) (b : Fin 2) : EngView := x.setSlot b { x.slot b with handovers := (x.slot b).handovers + 1 }

/-- A switchover to a slot begins (R419). -/
def EngView.switchTo (x : EngView) (b : Fin 2) : EngView := ((({ x with eng := ⟨x.now, b.val⟩ } : EngView).setOe 23 20 4).setOe 7 0 1).count b

/-- A fade to a slot begins, or without FEATURES.FADE a switchover (R417, R635). -/
def EngView.fadeTo (x : EngView) (b : Fin 2) : EngView :=
  let y := x.count (1 - b)
  if x.fade = true then (((({ y with eng := ⟨x.now, b.val⟩ } : EngView).setOe 23 20 3).setOe 7 0 1).setSt b 3).count b
  else (y.setSt (1 - b) 2).switchTo b

/-- The lit cartridge of a slot is lost (R419). -/
def EngView.lost (x : EngView) (b : Fin 2) : EngView :=
  let y := x.setSt b 6
  if y.st (1 - b) = 2 then (y.count b).switchTo (1 - b)
  else
    let z := y.setOe 23 20 0
    if z.status = 1 then z.setOe 7 0 2 else z

section
variable {s : State} {e : Nat}

theorem other_val : ∀ b : Fin 2, (1 - b : Fin 2).val = 1 - b.val := by decide

theorem other_ne : ∀ b : Fin 2, (1 - b : Fin 2) ≠ b := by decide

theorem other_other : ∀ b : Fin 2, (1 - (1 - b) : Fin 2) = b := by decide

theorem view_oeEvent (he : e < 4) (s : State) : engView (oeEvent s e) e = engView s e := ((LightKept.refl s).oeEvent he).view he

theorem view_hlCart (he : e < 4) (s : State) (b ev : Nat) : engView (hlCart s e b ev) e = engView s e := ((LightKept.refl s).hlCart e b ev).view he

theorem view_oeDarkLanes (he : e < 4) (s : State) : engView (oeDarkLanes s e) e = engView s e := ((LightKept.refl s).oeDarkLanes he).view he

theorem view_setOeStatus (he : e < 4) (s : State) (x : Nat) : engView (setOeStatus s e x) e = (engView s e).setOe 7 0 x := view_setOe he ..

theorem view_oeEnd (he : e < 4) (s : State) (x : Nat) : engView (oeEnd s e x) e = (engView s e).setOe 7 0 x :=
  (view_oeEvent he _).trans (view_setOeStatus he ..)

theorem view_oeFields (he : e < 4) (s : State) (b op : Nat) : engView (oeFields s e b op) e = engView s e := by
  have hfield : ∀ (u : State) (hi lo x : Nat), engView (setRgF u .oecmd e hi lo x) e = engView u e := fun u hi lo x => by
    have hother : ∀ r i, i < 2 ^ 32 → r ≠ .oecmd → rg (setRgF u .oecmd e hi lo x) r i = rg u r i := fun r i hi' hr =>
      rg_setRg_other (by omega) hi' fun h => hr (Prod.mk.inj h).1
    have hcart : ∀ b : Fin 2, rg (setRgF u .oecmd e hi lo x) .cartstat (2 * e + b.val) = rg u .cartstat (2 * e + b.val) := fun b => hother _ _ (by omega) (by simp)
    have hoe := hother .oestat e (by omega) (by simp)
    have hruns : engRuns (setRgF u .oecmd e hi lo x) e = engRuns u e := congrArg (fun w => fld w 2 0 == 0) (hother .dstate (0x1A0 + e) (by omega) (by simp))
    have hid : rgF (setRgF u .oecmd e hi lo x) .pkgid 0 31 0 = rgF u .pkgid 0 31 0 := congrArg (fld · 31 0) (hother .pkgid 0 (by decide) (by simp))
    rw [engView, hoe, hruns, hid]
    simp only [hcart]
    rfl
  exact (hfield ..).trans (hfield ..)

theorem view_oeSettle (he : e < 4) (s : State) : engView (oeSettle s e) e = (engView s e).settle := by
  obtain ⟨v, hv⟩ : ∃ v, v = if slotSt s e (rgF s .oestat e 17 17) ≠ 3 then 0 else if slotSt s e (1 - rgF s .oestat e 17 17) = 2 then 1 else 2 := ⟨_, rfl⟩
  have hgroup := engGroup_lt he
  have hrun : engView (oeSettle s e) e = (engView s e).setOe 23 20 v := by
    rw [oeSettle, ← hv]
    refine Eq.trans ?_ (view_setOe he ..)
    exact (((LightKept.refl _).lgRefresh (by omega)).lgRefresh (by omega)).view he
  have hlit : rgF s .oestat e 17 17 = (engView s e).lit.val := rfl
  rw [hrun, hv, EngView.settle, hlit, ← other_val, slotSt_view, slotSt_view]

theorem view_oeLight (he : e < 4) (s : State) : engView (oeLight s e) e = (engView s e).light := by
  have hlit : rgF s .oestat e 17 17 = (engView s e).lit.val := rfl
  have hruns : engRuns s e = (engView s e).runs := rfl
  have hst : oeState s e = (engView s e).oeSt := rfl
  unfold oeLight EngView.light
  dsimp only
  rw [hlit, ← other_val, slotSt_view, slotSt_view, hruns, hst]
  generalize hx : engView s e = x
  by_cases h0 : x.runs = false ∨ x.oeSt ≠ 0
  · rw [if_pos h0, if_pos (by simpa using h0), hx]
  · rw [if_neg h0, if_neg (by simpa using h0)]
    by_cases h1 : x.st x.lit = 2
    · rw [if_pos h1, if_pos h1, view_oeSettle he, view_setSlotSt he, hx]
    · rw [if_neg h1, if_neg h1]
      by_cases h2 : x.st x.lit ≠ 1 ∧ x.st (1 - x.lit) = 2
      · rw [if_pos h2, if_pos h2, view_oeSettle he, view_setOe he, view_setSlotSt he, hx]
      · rw [if_neg h2, if_neg h2, hx]

theorem view_countHand (b : Fin 2) (s : State) : engView (countHand s e b.val) e = (engView s e).count b := view_setSlot ..

theorem view_switchTo (he : e < 4) (b : Fin 2) (s : State) : engView (switchTo s e b.val) e = (engView s e).switchTo b := by
  unfold switchTo
  dsimp only
  rw [view_countHand, view_oeEvent he, view_oeDarkLanes he, view_setOeStatus he, view_setOe he, view_setEng]
  rfl

theorem view_fadeTo (he : e < 4) (b : Fin 2) (s : State) : engView (fadeTo s e b.val) e = (engView s e).fadeTo b := by
  obtain ⟨u, hu⟩ : ∃ u, countHand s e (1 - b : Fin 2).val = u := ⟨_, rfl⟩
  have hview : engView u e = (engView s e).count (1 - b) := hu ▸ view_countHand ..
  have hfade : bitOf u.features 16 = (engView s e).fade := hu ▸ rfl
  have hnow : now u = (engView s e).now := hu ▸ rfl
  unfold fadeTo EngView.fadeTo
  dsimp only
  rw [← other_val, hu, hfade]
  split
  · rw [view_countHand, view_setSlotSt he, view_setOeStatus he, view_setOe he, view_setEng, hview, hnow]
  · rw [view_switchTo he, view_setSlotSt he, hview]

theorem view_cartLost (he : e < 4) (b : Fin 2) (s : State) : engView (cartLost s e b.val) e = (engView s e).lost b := by
  obtain ⟨u, hu⟩ : ∃ u, hlCart (setSlotSt s e b.val 6) e b.val 2 = u := ⟨_, rfl⟩
  have hview : engView u e = (engView s e).setSt b 6 := by rw [← hu, view_hlCart he, view_setSlotSt he]
  unfold cartLost EngView.lost
  dsimp only
  rw [hu, ← other_val, slotSt_view, hview]
  split
  · rw [view_hlCart he, view_switchTo he, view_countHand, hview]
  · have hdark : engView (setRgF u .oestat e 23 20 0) e = ((engView s e).setSt b 6).setOe 23 20 0 := by rw [view_setOe he, hview]
    have hstatus : oeStatus (setRgF u .oestat e 23 20 0) e = (((engView s e).setSt b 6).setOe 23 20 0).status := by
      rw [← hdark]
      rfl
    rw [view_oeEvent he, view_oeDarkLanes he, hstatus]
    split
    · rw [view_setOeStatus he, hdark]
    · exact hdark

end

/-! ### Reading the view -/

section
variable (x : EngView) (b c : Fin 2) (v hi lo hi' lo' : Nat)

@[simp] theorem EngView.cart_setOe : (x.setOe hi lo v).cart = x.cart := rfl
@[simp] theorem EngView.slot_setOe : (x.setOe hi lo v).slot = x.slot := rfl
@[simp] theorem EngView.eng_setOe : (x.setOe hi lo v).eng = x.eng := rfl
@[simp] theorem EngView.runs_setOe : (x.setOe hi lo v).runs = x.runs := rfl
@[simp] theorem EngView.st_setOe : (x.setOe hi lo v).st c = x.st c := rfl
@[simp] theorem EngView.cart_count : (x.count b).cart = x.cart := rfl
@[simp] theorem EngView.oe_count : (x.count b).oe = x.oe := rfl
@[simp] theorem EngView.eng_count : (x.count b).eng = x.eng := rfl
@[simp] theorem EngView.st_count : (x.count b).st c = x.st c := rfl
@[simp] theorem EngView.cart_setSlot (y : Slot) : (x.setSlot b y).cart = x.cart := rfl
@[simp] theorem EngView.oe_setSlot (y : Slot) : (x.setSlot b y).oe = x.oe := rfl
@[simp] theorem EngView.eng_setSlot (y : Slot) : (x.setSlot b y).eng = x.eng := rfl
@[simp] theorem EngView.st_setSlot (y : Slot) : (x.setSlot b y).st c = x.st c := rfl
@[simp] theorem EngView.slot_setSlot (y : Slot) : (x.setSlot b y).slot b = y := Function.update_self ..
@[simp] theorem EngView.oe_setCart : (x.setCart b hi lo v).oe = x.oe := rfl
@[simp] theorem EngView.eng_setCart : (x.setCart b hi lo v).eng = x.eng := rfl
@[simp] theorem EngView.slot_setCart : (x.setCart b hi lo v).slot = x.slot := rfl
@[simp] theorem EngView.runs_setCart : (x.setCart b hi lo v).runs = x.runs := rfl
@[simp] theorem EngView.cart_setCart : (x.setCart b hi lo v).cart b = setFld (x.cart b) hi lo v := Function.update_self ..

theorem EngView.cart_setCart_ne (h : c ≠ b) : (x.setCart b hi lo v).cart c = x.cart c := Function.update_of_ne h ..

theorem EngView.st_setCart (h : 3 < lo) (hhi : hi < 64) (hlo : lo ≤ hi) : (x.setCart b hi lo v).st c = x.st c := by
  unfold EngView.st
  by_cases hc : c = b
  · rw [hc, cart_setCart]
    exact fld_setFld_ne _ _ _ _ _ _ hhi hlo (.inl h)
  · rw [cart_setCart_ne _ _ _ _ _ _ hc]

/-- A slot that changes its state keeps the rest of its word. -/
theorem EngView.setSt_eq : ∃ y : Slot, x.setSt b v = (x.setCart b 3 0 v).setSlot b y ∧ y.mem = (x.slot b).mem ∧ y.present = (x.slot b).present ∧
    y.checkAt = (x.slot b).checkAt ∧ y.faults = (x.slot b).faults := by
  unfold EngView.setSt
  dsimp only
  split
  · exact ⟨_, rfl, rfl, rfl, rfl, rfl⟩
  · split
    · exact ⟨_, rfl, rfl, rfl, rfl, rfl⟩
    · refine ⟨x.slot b, ?_, rfl, rfl, rfl, rfl⟩
      rw [EngView.setSlot, ← EngView.slot_setCart x b v 3 0, Function.update_eq_self]

@[simp] theorem EngView.oe_setSt : (x.setSt b v).oe = x.oe := by
  obtain ⟨y, hy, _⟩ := x.setSt_eq b v
  rw [hy, oe_setSlot, oe_setCart]

@[simp] theorem EngView.eng_setSt : (x.setSt b v).eng = x.eng := by
  obtain ⟨y, hy, _⟩ := x.setSt_eq b v
  rw [hy, eng_setSlot, eng_setCart]

@[simp] theorem EngView.runs_setSt : (x.setSt b v).runs = x.runs := by
  obtain ⟨y, hy, _⟩ := x.setSt_eq b v
  rw [hy]
  rfl

@[simp] theorem EngView.now_setSt : (x.setSt b v).now = x.now := by
  obtain ⟨y, hy, _⟩ := x.setSt_eq b v
  rw [hy]
  rfl

@[simp] theorem EngView.st_setSt : (x.setSt b v).st b = v % 16 := by
  obtain ⟨y, hy, _⟩ := x.setSt_eq b v
  rw [hy, st_setSlot, EngView.st, cart_setCart]
  exact fld_setFld_same _ _ _ _ (by decide) (by decide)

theorem EngView.cart_setSt_ne (h : c ≠ b) : (x.setSt b v).cart c = x.cart c := by
  obtain ⟨y, hy, _⟩ := x.setSt_eq b v
  rw [hy, cart_setSlot, cart_setCart_ne _ _ _ _ _ _ h]

theorem EngView.st_setSt_ne (h : c ≠ b) : (x.setSt b v).st c = x.st c := by rw [EngView.st, cart_setSt_ne _ _ _ _ h, EngView.st]

theorem EngView.cart_setSt_field (h : 3 < lo') : fld ((x.setSt b v).cart c) hi' lo' = fld (x.cart c) hi' lo' := by
  by_cases hc : c = b
  · obtain ⟨y, hy, _⟩ := x.setSt_eq b v
    rw [hc, hy, cart_setSlot, cart_setCart]
    exact fld_setFld_ne _ _ _ _ _ _ (by decide) (by decide) (.inr h)
  · rw [cart_setSt_ne _ _ _ _ hc]

theorem EngView.slot_setSt : ((x.setSt b v).slot b).mem = (x.slot b).mem ∧ ((x.setSt b v).slot b).checkAt = (x.slot b).checkAt := by
  obtain ⟨y, hy, hmem, _, hcheck, _⟩ := x.setSt_eq b v
  rw [hy, slot_setSlot]
  exact ⟨hmem, hcheck⟩

theorem EngView.mem_count : ((x.count b).slot c).mem = (x.slot c).mem := by
  unfold EngView.count EngView.setSlot
  by_cases hc : c = b
  · subst hc
    simp
  · simp [Function.update_of_ne hc]

theorem EngView.mem_setSt : ((x.setSt b v).slot c).mem = (x.slot c).mem := by
  by_cases hc : c = b
  · subst hc
    exact (x.slot_setSt c v).1
  · obtain ⟨y, hy, _⟩ := x.setSt_eq b v
    rw [hy, EngView.setSlot]
    simp [Function.update_of_ne hc]

@[simp] theorem EngView.status_setOe_status : (x.setOe 7 0 v).status = v % 256 := fld_setFld_same _ _ _ _ (by decide) (by decide)

theorem EngView.status_setOe (h1 : hi < 64) (h2 : lo ≤ hi) (h : 7 < lo) : (x.setOe hi lo v).status = x.status :=
  fld_setFld_ne _ _ _ _ _ _ h1 h2 (.inl h)

@[simp] theorem EngView.oeSt_setOe_oeSt : (x.setOe 23 20 v).oeSt = v % 16 := fld_setFld_same _ _ _ _ (by decide) (by decide)

theorem EngView.oeSt_setOe (h1 : hi < 64) (h2 : lo ≤ hi) (h : hi < 20 ∨ 23 < lo) : (x.setOe hi lo v).oeSt = x.oeSt :=
  fld_setFld_ne _ _ _ _ _ _ h1 h2 (by omega)

@[simp] theorem EngView.lit_setOe_lit : (x.setOe 17 17 b.val).lit = b := by
  refine Fin.ext ((fld_setFld_same x.oe 17 17 b.val (by decide) (by decide)).trans ?_)
  exact Nat.mod_eq_of_lt b.isLt

theorem EngView.lit_setOe (h1 : hi < 64) (h2 : lo ≤ hi) (h : hi < 17 ∨ 17 < lo) : (x.setOe hi lo v).lit = x.lit :=
  Fin.ext (fld_setFld_ne _ _ _ _ _ _ h1 h2 (by omega))

/-- The settled state of an engine. -/
theorem EngView.settle_spec : x.settle.cart = x.cart ∧ x.settle.slot = x.slot ∧ x.settle.eng = x.eng ∧ x.settle.status = x.status ∧ x.settle.lit = x.lit ∧
    x.settle.oeSt = if x.st x.lit ≠ 3 then 0 else if x.st (1 - x.lit) = 2 then 1 else 2 := by
  refine ⟨rfl, rfl, rfl, status_setOe _ _ _ _ (by decide) (by decide) (by decide), lit_setOe _ _ _ _ (by decide) (by decide) (.inr (by decide)), ?_⟩
  refine (oeSt_setOe_oeSt ..).trans (Nat.mod_eq_of_lt ?_)
  split
  · decide
  · split <;> decide

@[simp] theorem EngView.st_settle : x.settle.st c = x.st c := rfl

end

/-! ### The commands on the view -/

/-- What an engine with a view shows. -/
structure Shows (t : State) (e : Nat) (y : EngView) : Prop where
  st : ∀ b : Fin 2, slotSt t e b = y.st b
  slot : ∀ b : Fin 2, slotOf t e b = y.slot b
  word : ∀ (b : Fin 2) hi lo, rgF t .cartstat (2 * e + b.val) hi lo = fld (y.cart b) hi lo
  status : rgF t .oestat e 7 0 = y.status
  oeSt : oeState t e = y.oeSt
  lit : rgF t .oestat e 17 17 = y.lit.val
  eng : eng t e = y.eng

theorem shows_of_view {t : State} {e : Nat} {y : EngView} (h : engView t e = y) : Shows t e y := by
  subst h
  exact ⟨fun _ => rfl, fun _ => rfl, fun _ _ _ => rfl, rfl, rfl, rfl, rfl⟩

section
variable (x : EngView) (b : Fin 2)

theorem EngView.switchTo_spec : (x.switchTo b).status = 1 ∧ (x.switchTo b).eng = ⟨x.now, b⟩ ∧ (x.switchTo b).oeSt = 4 ∧
    ∀ c, (x.switchTo b).st c = x.st c := by
  refine ⟨EngView.status_setOe_status _ 1, rfl, ?_, fun _ => rfl⟩
  refine (EngView.oeSt_setOe (({ x with eng := ⟨x.now, b.val⟩ } : EngView).setOe 23 20 4) 1 7 0 (by decide) (by decide) (.inl (by decide))).trans ?_
  exact EngView.oeSt_setOe_oeSt _ 4

theorem EngView.fadeTo_fades (h : x.fade = true) : (x.fadeTo b).status = 1 ∧ (x.fadeTo b).eng = ⟨x.now, b⟩ ∧ (x.fadeTo b).oeSt = 3 ∧
    (x.fadeTo b).st b = 3 ∧ (x.fadeTo b).st (1 - b) = x.st (1 - b) := by
  obtain ⟨y, hy⟩ : ∃ y : EngView, ({ x.count (1 - b) with eng := ⟨x.now, b.val⟩ } : EngView) = y := ⟨_, rfl⟩
  have hrun : x.fadeTo b = (((y.setOe 23 20 3).setOe 7 0 1).setSt b 3).count b := by
    rw [EngView.fadeTo, if_pos h, ← hy]
  have hoe : (x.fadeTo b).oe = ((y.setOe 23 20 3).setOe 7 0 1).oe := by
    rw [hrun, EngView.oe_count, EngView.oe_setSt]
  refine ⟨?_, ?_, ?_, ?_, ?_⟩
  · rw [EngView.status, hoe]
    exact EngView.status_setOe_status _ 1
  · rw [hrun, EngView.eng_count, EngView.eng_setSt, ← hy]
    rfl
  · rw [EngView.oeSt, hoe]
    exact (EngView.oeSt_setOe _ 1 7 0 (by decide) (by decide) (.inl (by decide))).trans (EngView.oeSt_setOe_oeSt _ 3)
  · rw [hrun, EngView.st_count, EngView.st_setSt]
  · rw [hrun, EngView.st_count, EngView.st_setSt_ne _ _ _ _ (other_ne b), ← hy]
    rfl

theorem EngView.fadeTo_switches (h : x.fade = false) : (x.fadeTo b).status = 1 ∧ (x.fadeTo b).eng = ⟨x.now, b⟩ ∧ (x.fadeTo b).oeSt = 4 ∧
    (x.fadeTo b).st b = x.st b ∧ (x.fadeTo b).st (1 - b) = 2 := by
  have hrun : x.fadeTo b = ((x.count (1 - b)).setSt (1 - b) 2).switchTo b := by
    rw [EngView.fadeTo, if_neg (by simp [h])]
  obtain ⟨h1, h2, h3, h4⟩ := ((x.count (1 - b)).setSt (1 - b) 2).switchTo_spec b
  rw [hrun]
  refine ⟨h1, h2.trans ?_, h3, (h4 b).trans ?_, (h4 _).trans (EngView.st_setSt ..)⟩
  · rw [EngView.now_setSt]
    rfl
  · exact EngView.st_setSt_ne _ _ _ _ (other_ne b).symm

/-- A slot that takes the engine's light. -/
theorem EngView.settled_spec (h : x.st b = 3) : (x.setOe 17 17 b.val).settle.oeSt = (if x.st (1 - b) = 2 then 1 else 2) ∧
    (x.setOe 17 17 b.val).settle.lit = b ∧ (x.setOe 17 17 b.val).settle.status = x.status ∧ (x.setOe 17 17 b.val).settle.eng = x.eng ∧
    ∀ c, (x.setOe 17 17 b.val).settle.st c = x.st c := by
  obtain ⟨_, _, _, hstatus, hlit, hst⟩ := (x.setOe 17 17 b.val).settle_spec
  rw [EngView.lit_setOe_lit] at hst hlit
  refine ⟨?_, hlit, hstatus.trans (EngView.status_setOe _ _ _ _ (by decide) (by decide) (by decide)), rfl, fun _ => rfl⟩
  rw [hst, if_neg (by simpa using h)]
  rfl

end

section
variable {s : State} {by_ : By} {e : Nat} {b : Fin 2}

theorem oeGate_free (h1 : rgF s .oestat e 7 0 ≠ 1) (h2 : ownOe s e = false ∨ bySec by_ = true) : oeGate s by_ e = none := by
  have hown : ¬(ownOe s e = true ∧ (!(bySec by_)) = true) := by
    rintro ⟨h3, h4⟩
    rcases h2 with h2 | h2
    · simp [h2] at h3
    · simp [h2] at h4
  rw [oeGate, if_neg (by simpa using hown)]
  exact if_neg h1

theorem oeGate_busy (h1 : rgF s .oestat e 7 0 = 1) (h2 : ownOe s e = false ∨ bySec by_ = true) : oeGate s by_ e = some (setRgF s .oestat e 16 16 1) := by
  have hown : ¬(ownOe s e = true ∧ (!(bySec by_)) = true) := by
    rintro ⟨h3, h4⟩
    rcases h2 with h2 | h2
    · simp [h2] at h3
    · simp [h2] at h4
  rw [oeGate, if_neg (by simpa using hown)]
  exact if_pos h1

/-- A command the monitor's engine refuses (R420). -/
theorem oeGate_denied (he : e < 4) (h1 : rgF s .oestat e 7 0 ≠ 1) (h2 : ownOe s e = true) (h3 : bySec by_ = false) :
    ∃ t, oeGate s by_ e = some t ∧ rgF t .oestat e 7 0 = 0x20 ∧ t.slots = s.slots ∧ t.engs = s.engs := by
  obtain ⟨u, hu⟩ : ∃ u, hlDenied s by_ deniedOwned (regPa (0x2000000000 + engGroup e * 0x1000000 + 0x300000)) = u := ⟨_, rfl⟩
  have hkept : LightKept s u := by
    rw [← hu, hlDenied]
    exact (LightKept.refl s).hlDevice ..
  have hstatus : oeStatus u e ≠ 1 := fun h => h1 ((hkept.rgF (r := .oestat) (by omega) (by decide) 7 0).symm.trans h)
  have hrun : oeGate s by_ e = some (oeEnd u e 0x20) := by
    rw [oeGate, if_pos (by simp [h2, h3])]
    dsimp only
    rw [hu, if_neg hstatus]
    rfl
  refine ⟨_, hrun, ?_, hkept.slots, hkept.engs⟩
  exact (shows_of_view (view_oeEnd he u 0x20)).status.trans (EngView.status_setOe_status _ 0x20)

theorem raiseSrc_regsOnly {l : List (RegName × Nat)} {s u : State} {n : Nat} (h : RegsOnly l s u) (hn : n < 2 ^ 32) (hm : (RegName.intsrc, n) ∈ l) :
    RegsOnly l { s with mpPend := (raiseSrc u n).mpPend } (raiseSrc u n) := by
  obtain ⟨hrest, hregs⟩ := h
  obtain ⟨w, hw⟩ : ∃ w, raiseSrc u n = w := ⟨_, rfl⟩
  have hkept : { w with regs := u.regs } = { u with mpPend := w.mpPend } := hw ▸ rfl
  refine ⟨?_, fun r i hi hr => (rg_raiseSrc hn hi fun hk => hr (hk ▸ hm)).trans (hregs r i hi hr)⟩
  rw [hw]
  calc { w with regs := s.regs } = { ({ w with regs := u.regs } : State) with regs := s.regs } := rfl
    _ = { ({ u with regs := s.regs } : State) with mpPend := w.mpPend } := by rw [hkept]
    _ = { s with mpPend := w.mpPend } := by rw [hrest]

/-- A command that is told an error at once changes the status and the command's fields, and raises the engine's event. -/
theorem oeRefused_spec (he : e < 4) (s : State) (b op x : Nat) :
    rgF (oeEnd (oeFields s e b op) e x) .oestat e 7 0 = x % 256 ∧
      RegsOnly [(.oestat, e), (.oecmd, e), (.intsrc, 384 + 16 * engGroup e + 14)] { s with mpPend := (oeEnd (oeFields s e b op) e x).mpPend }
        (oeEnd (oeFields s e b op) e x) := by
  have hgroup := engGroup_lt he
  have hfields : RegsOnly [(.oestat, e), (.oecmd, e), (.intsrc, 384 + 16 * engGroup e + 14)] s (setOeStatus (oeFields s e b op) e x) :=
    ((RegsOnly.setRgF (by omega) (by simp) ..).trans (.setRgF (by omega) (by simp) ..)).trans (.setRgF (by omega) (by simp) ..)
  exact ⟨(shows_of_view (view_oeEnd he (oeFields s e b op) x)).status.trans (EngView.status_setOe_status _ x),
    raiseSrc_regsOnly hfields (by omega) (by simp)⟩

end

section
variable {s : State} {by_ : By} {e : Nat} {b : Fin 2}

/-- A fade that has lasted its 10 ms, and a switchover that ends: the new slot is the lit one. -/
theorem fadeDone_spec (he : e < 4) (h1 : oeState s e = 3) (h2 : (eng s e).target = b) (h3 : (eng s e).fadeAt + 10000000 ≤ now s) (h4 : slotSt s e b = 3) :
    slotSt (fadeDone s e) e b = 3 ∧ slotSt (fadeDone s e) e (1 - b.val) = 2 ∧ rgF (fadeDone s e) .oestat e 17 17 = b ∧ oeState (fadeDone s e) e = 1 ∧
      rgF (fadeDone s e) .oestat e 7 0 = 2 := by
  obtain ⟨x, hx⟩ : ∃ x, engView s e = x := ⟨_, rfl⟩
  have hview : engView (fadeDone s e) e = (((x.setSt (1 - b) 2).setOe 17 17 b.val).settle).setOe 7 0 2 := by
    unfold fadeDone
    dsimp only
    rw [if_neg (by omega), h2, ← other_val, view_oeEnd he, view_oeSettle he, view_setOe he, view_setSlotSt he, hx]
  have hstx : x.st b = 3 := hx ▸ h4
  have hstb : (x.setSt (1 - b) 2).st b = 3 := by rw [EngView.st_setSt_ne _ _ _ _ (other_ne b).symm, hstx]
  have hsto : (x.setSt (1 - b) 2).st (1 - b) = 2 := EngView.st_setSt ..
  obtain ⟨hoe, hlit, _, _, hst⟩ := EngView.settled_spec _ b hstb
  have hshows := shows_of_view hview
  refine ⟨(hshows.st b).trans ((hst b).trans hstb), ?_, hshows.lit.trans ?_, hshows.oeSt.trans ?_, hshows.status.trans (EngView.status_setOe_status ..)⟩
  · rw [← other_val]
    exact (hshows.st _).trans ((hst _).trans hsto)
  · rw [EngView.lit_setOe _ _ _ _ (by decide) (by decide) (.inl (by decide)), hlit]
  · rw [EngView.oeSt_setOe _ _ _ _ (by decide) (by decide) (.inl (by decide)), hoe, if_pos hsto]

theorem fadeDone_early (h : now s < (eng s e).fadeAt + 10000000) : fadeDone s e = s := by
  unfold fadeDone
  dsimp only
  rw [if_pos (.inr h)]

theorem switchDone_spec (he : e < 4) (h1 : oeState s e = 4) (h2 : (eng s e).target = b) :
    slotSt (switchDone s e) e b = 3 ∧ slotSt (switchDone s e) e (1 - b.val) = slotSt s e (1 - b.val) ∧ rgF (switchDone s e) .oestat e 17 17 = b ∧
      oeState (switchDone s e) e = (if slotSt s e (1 - b.val) = 2 then 1 else 2) ∧ rgF (switchDone s e) .oestat e 7 0 = 2 := by
  obtain ⟨x, hx⟩ : ∃ x, engView s e = x := ⟨_, rfl⟩
  have hview : engView (switchDone s e) e = (((x.setSt b 3).setOe 17 17 b.val).settle).setOe 7 0 2 := by
    unfold switchDone
    dsimp only
    rw [if_neg (by omega), h2, view_oeEnd he, view_oeSettle he, view_setOe he, view_setSlotSt he, hx]
  have hstb : (x.setSt b 3).st b = 3 := EngView.st_setSt ..
  have hsto : (x.setSt b 3).st (1 - b) = x.st (1 - b) := EngView.st_setSt_ne _ _ _ _ (other_ne b)
  have hsx : slotSt s e (1 - b.val) = x.st (1 - b) := by rw [← other_val, slotSt_view, hx]
  obtain ⟨hoe, hlit, _, _, hst⟩ := EngView.settled_spec _ b hstb
  have hshows := shows_of_view hview
  refine ⟨(hshows.st b).trans ((hst b).trans hstb), ?_, hshows.lit.trans ?_, hshows.oeSt.trans ?_, hshows.status.trans (EngView.status_setOe_status ..)⟩
  · rw [hsx, ← other_val]
    exact (hshows.st _).trans ((hst _).trans hsto)
  · rw [EngView.lit_setOe _ _ _ _ (by decide) (by decide) (.inl (by decide)), hlit]
  · rw [EngView.oeSt_setOe _ _ _ _ (by decide) (by decide) (.inl (by decide)), hoe, hsto, hsx]

/-! ### Handover -/

/-- A GO of HANDOVER that is heard. -/
theorem goHandover_free (he : e < 4) (h1 : rgF s .oestat e 7 0 ≠ 1) (h2 : ownOe s e = false ∨ bySec by_ = true) :
    (slotSt s e b ≠ 2 → goHandover s by_ e b = oeEnd (oeFields s e b 0) e 0x11) ∧
    (slotSt s e b = 2 → slotSt s e (1 - b.val) = 3 → engView (goHandover s by_ e b) e = (engView s e).fadeTo b) := by
  have hview := view_oeFields he s b 0
  have hst : ∀ c : Fin 2, slotSt (oeFields s e b 0) e c = slotSt s e c := fun c => by rw [slotSt_view, hview, slotSt_view]
  have hsto := hst (1 - b)
  rw [other_val] at hsto
  refine ⟨fun h => ?_, fun h3 h4 => ?_⟩
  · unfold goHandover
    rw [oeGate_free h1 h2]
    dsimp only
    rw [if_pos (by rwa [hst])]
  · have hrun : goHandover s by_ e b = fadeTo (oeFields s e b 0) e b := by
      unfold goHandover
      rw [oeGate_free h1 h2]
      dsimp only
      rw [if_neg (by simpa [hst] using h3), if_pos (by rwa [hsto])]
    rw [hrun, view_fadeTo he, hview]

theorem handover_fades (he : e < 4) (h1 : rgF s .oestat e 7 0 ≠ 1) (h2 : ownOe s e = false ∨ bySec by_ = true) (h3 : slotSt s e b = 2)
    (h4 : slotSt s e (1 - b.val) = 3) : ∃ t, goHandover s by_ e b = t ∧ rgF t .oestat e 7 0 = 1 ∧ eng t e = ⟨now s, b⟩ ∧
      (bitOf s.features 16 = true → oeState t e = 3 ∧ slotSt t e b = 3 ∧ slotSt t e (1 - b.val) = 3) ∧
      (bitOf s.features 16 = false → oeState t e = 4 ∧ slotSt t e b = 2 ∧ slotSt t e (1 - b.val) = 2) := by
  obtain ⟨x, hx⟩ : ∃ x, engView s e = x := ⟨_, rfl⟩
  have hview := (goHandover_free (b := b) he h1 h2).2 h3 h4
  rw [hx] at hview
  have hfade : bitOf s.features 16 = x.fade := hx ▸ rfl
  have hnow : now s = x.now := hx ▸ rfl
  have hstb : x.st b = 2 := hx ▸ h3
  have hsto : x.st (1 - b) = 3 := by rw [← hx, ← slotSt_view, other_val, h4]
  have hshows := shows_of_view hview
  have hso := hshows.st (1 - b)
  rw [other_val] at hso
  refine ⟨_, rfl, ?_⟩
  rw [hfade, hnow, hshows.status, hshows.eng, hshows.oeSt, hshows.st b, hso]
  cases hf : x.fade with
  | true =>
    obtain ⟨e1, e2, e3, e4, e5⟩ := x.fadeTo_fades b hf
    exact ⟨e1, e2, fun _ => ⟨e3, e4, e5.trans hsto⟩, fun h => by cases h⟩
  | false =>
    obtain ⟨e1, e2, e3, e4, e5⟩ := x.fadeTo_switches b hf
    exact ⟨e1, e2, fun h => (by cases h), fun _ => ⟨e3, e4.trans hstb, e5⟩⟩

/-! ### Lost cartridges -/

theorem EngView.lost_spec (x : EngView) (b : Fin 2) : (x.lost b).st b = 6 ∧ (x.lost b).st (1 - b) = x.st (1 - b) ∧
    (x.st (1 - b) = 2 → (x.lost b).oeSt = 4 ∧ (x.lost b).eng = ⟨x.now, (1 - b : Fin 2)⟩ ∧ (x.lost b).status = 1) ∧
    (x.st (1 - b) ≠ 2 → (x.lost b).oeSt = 0) := by
  obtain ⟨y, hy⟩ : ∃ y, x.setSt b 6 = y := ⟨_, rfl⟩
  have hyb : y.st b = 6 := hy ▸ EngView.st_setSt ..
  have hyo : y.st (1 - b) = x.st (1 - b) := hy ▸ EngView.st_setSt_ne _ _ _ _ (other_ne b)
  have hnow : y.now = x.now := hy ▸ EngView.now_setSt ..
  rw [EngView.lost, hy, hyo]
  dsimp only
  by_cases h : x.st (1 - b) = 2
  · rw [if_pos h]
    obtain ⟨h1, h2, h3, h4⟩ := (y.count b).switchTo_spec (1 - b)
    exact ⟨(h4 b).trans hyb, (h4 _).trans hyo, fun _ => ⟨h3, h2.trans (by rw [← hnow]; rfl), h1⟩, fun h' => absurd h h'⟩
  · rw [if_neg h]
    split
    · exact ⟨hyb, hyo, fun h' => absurd h' h, fun _ =>
        (EngView.oeSt_setOe _ _ 7 0 (by decide) (by decide) (.inl (by decide))).trans (EngView.oeSt_setOe_oeSt ..)⟩
    · exact ⟨hyb, hyo, fun h' => absurd h' h, fun _ => EngView.oeSt_setOe_oeSt ..⟩

theorem cartFails_lit (h1 : slotSt s e b = 3) (h2 : oeState s e ≠ 3) : cartFails s e b = cartLost s e b := by
  rw [cartFails, if_neg (fun h => h2 h.2), if_pos h1]

theorem cartFails_standby (h1 : slotSt s e b ≠ 3) (h2 : oeState s e ≠ 4) : cartFails s e b = s := by
  rw [cartFails, if_neg (fun h => h1 h.1), if_neg h1, if_neg (fun h => h2 h.1)]

end

/-- A slot's word or cartridge noted changes no slot's state and nothing of the engine. -/
structure SameLight (x y : EngView) : Prop where
  st : ∀ c, y.st c = x.st c
  oe : y.oe = x.oe
  eng : y.eng = x.eng
  now : y.now = x.now

theorem SameLight.refl (x : EngView) : SameLight x x := ⟨fun _ => rfl, rfl, rfl, rfl⟩

theorem SameLight.setSlot {x y : EngView} (h : SameLight x y) (b : Fin 2) (z : Slot) : SameLight x (y.setSlot b z) := ⟨h.st, h.oe, h.eng, h.now⟩

theorem SameLight.setCart {x y : EngView} (h : SameLight x y) (b : Fin 2) {hi lo : Nat} (h1 : 3 < lo) (h2 : hi < 64) (h3 : lo ≤ hi) (v : Nat) :
    SameLight x (y.setCart b hi lo v) :=
  ⟨fun c => (EngView.st_setCart _ _ _ _ _ _ h1 h2 h3).trans (h.st c), h.oe, h.eng, h.now⟩

/-- What the loss of the lit cartridge of slot b leaves (R419). -/
def ShowsLost (s t : State) (e : Nat) (b : Fin 2) : Prop :=
  slotSt t e b = 6 ∧ slotSt t e (1 - b.val) = slotSt s e (1 - b.val) ∧
    (slotSt s e (1 - b.val) = 2 → oeState t e = 4 ∧ eng t e = ⟨now s, 1 - b.val⟩ ∧ rgF t .oestat e 7 0 = 1) ∧
    (slotSt s e (1 - b.val) ≠ 2 → oeState t e = 0)

section
variable {s t : State} {e : Nat} {b : Fin 2}

theorem showsLost_of_view {x y : EngView} (hx : SameLight (engView s e) x) (hy : SameLight (x.lost b) y) (h : engView t e = y) : ShowsLost s t e b := by
  obtain ⟨h1, h2, h3, h4⟩ := x.lost_spec b
  have hshows := shows_of_view h
  have hoeSt : y.oeSt = (x.lost b).oeSt := congrArg (fld · 23 20) hy.oe
  have hstatus : y.status = (x.lost b).status := congrArg (fld · 7 0) hy.oe
  have hxs : x.st (1 - b) = slotSt s e (1 - b : Fin 2).val := (hx.st _).trans (slotSt_view ..).symm
  have hnow : x.now = now s := hx.now
  rw [ShowsLost, ← other_val, hshows.st b, hshows.st (1 - b), hshows.oeSt, hshows.eng, hshows.status, hy.st, hy.st, hoeSt, hstatus, hy.eng, ← hxs, ← hnow]
  exact ⟨h1, h2, h3, h4⟩

/-- A lit cartridge that fails is lost, whatever was noted of its slot before. -/
theorem cartFails_lost (he : e < 4) {u : State} {x : EngView} (hu : engView u e = x) (h1 : x.st b = 3) (h2 : x.oeSt ≠ 3) :
    engView (cartFails u e b) e = x.lost b := by
  have hst : slotSt u e b = 3 := ((shows_of_view hu).st b).trans h1
  have hoe : oeState u e ≠ 3 := by
    rw [(shows_of_view hu).oeSt]
    exact h2
  rw [cartFails_lit hst hoe, view_cartLost he, hu]

section
variable (he : e < 4) (h1 : slotSt s e b = 3) (h2 : oeState s e ≠ 3)
include he h1 h2

theorem laserLow_lost (pwr : Nat) : ShowsLost s (cartFails (setRgF s .cartstat (2 * e + b.val) 31 16 pwr) e b) e b := by
  have hsame := (SameLight.refl (engView s e)).setCart b (hi := 31) (lo := 16) (by decide) (by decide) (by decide) pwr
  exact showsLost_of_view hsame (.refl _) (cartFails_lost he (view_setCart he b s 31 16 pwr) ((hsame.st b).trans h1)
    (fun h => h2 ((congrArg (fld · 23 20) hsame.oe).symm.trans h)))

theorem faultNFall_lost (y : Slot) : ShowsLost s (cartFails (setRgF (setSlot s e b y) .cartstat (2 * e + b.val) 5 5 1) e b) e b := by
  have hsame := ((SameLight.refl (engView s e)).setSlot b y).setCart b (hi := 5) (lo := 5) (by decide) (by decide) (by decide) 1
  have hview := (view_setCart he b (setSlot s e b.val y) 5 5 1).trans (congrArg (fun v => EngView.setCart v b 5 5 1) (view_setSlot b s y))
  exact showsLost_of_view hsame (.refl _) (cartFails_lost he hview ((hsame.st b).trans h1)
    (fun h => h2 ((congrArg (fld · 23 20) hsame.oe).symm.trans h)))

end

end

/-! ### A cartridge removed -/

/-- The slot of a cartridge that is gone, emptied. -/
def EngView.emptied (x : EngView) (b : Fin 2) : EngView := ((x.setSlot b {}).setCart b 6 6 0).setCart b 7 7 0

theorem EngView.emptied_same (x : EngView) (b : Fin 2) : SameLight x (x.emptied b) :=
  (((SameLight.refl x).setSlot b {}).setCart b (by decide) (by decide) (by decide) 0).setCart b (by decide) (by decide) (by decide) 0

section
variable {s : State} {e : Nat} {b : Fin 2}

/-- The lands of a slot with no cartridge (R412). -/
theorem view_lands (he : e < 4) (b : Fin 2) (s : State) : engView (setRgF (setRgF s .cartstat (2 * e + b.val) 4 4 0) .cartstat (2 * e + b.val) 5 5 0) e =
    ((engView s e).setCart b 4 4 0).setCart b 5 5 0 := by rw [view_setCart he, view_setCart he]

theorem lands_same (x : EngView) (b : Fin 2) : SameLight x ((x.setCart b 4 4 0).setCart b 5 5 0) :=
  ((SameLight.refl x).setCart b (by decide) (by decide) (by decide) 0).setCart b (by decide) (by decide) (by decide) 0

theorem view_emptied (he : e < 4) (b : Fin 2) (s : State) :
    engView (setRgF (setRgF (setSlot s e b.val {}) .cartstat (2 * e + b.val) 6 6 0) .cartstat (2 * e + b.val) 7 7 0) e = (engView s e).emptied b := by
  rw [view_setCart he, view_setCart he, view_setSlot, EngView.emptied]

theorem cartOut_lost (he : e < 4) (hp : (slotOf s e b).present.isSome = true) (h1 : slotSt s e b = 3) (h2 : oeState s e ≠ 3) :
    ShowsLost s (cartOut s e b) e b := by
  obtain ⟨u, hu⟩ : ∃ u, setRgF (setRgF s .cartstat (2 * e + b.val) 4 4 0) .cartstat (2 * e + b.val) 5 5 0 = u := ⟨_, rfl⟩
  have hview := view_lands he b s
  rw [hu] at hview
  have hsame := lands_same (engView s e) b
  have hfails := cartFails_lost (b := b) he hview ((hsame.st b).trans h1) (fun h => h2 ((congrArg (fld · 23 20) hsame.oe).symm.trans h))
  obtain ⟨v, hv⟩ : ∃ v, cartFails u e b.val = v := ⟨_, rfl⟩
  rw [hv] at hfails
  obtain ⟨w, hw⟩ : ∃ w, setRgF (setRgF (setSlot v e b.val {}) .cartstat (2 * e + b.val) 6 6 0) .cartstat (2 * e + b.val) 7 7 0 = w := ⟨_, rfl⟩
  have hwview := view_emptied he b v
  rw [hw, hfails] at hwview
  have hlost : ShowsLost s w e b := showsLost_of_view hsame (EngView.emptied_same ..) hwview
  have hslot : slotSt v e b = 6 := (slotSt_view v e b).trans (by rw [hfails, (EngView.lost_spec _ b).1])
  have hoe : ¬(oeState w e = 1 ∨ oeState w e = 2) := by
    obtain ⟨_, _, h3, h4⟩ := hlost
    by_cases ho : slotSt s e (1 - b.val) = 2
    · have := (h3 ho).1
      omega
    · have := h4 ho
      omega
  have hrun : cartOut s e b = w := by
    unfold cartOut
    dsimp only
    rw [if_neg (by simp [Option.isSome_iff_ne_none.mp hp]), hu, hv, h1, if_neg (show ¬(3 : Nat) = 1 by decide), if_pos (show slotSt v e b = 6 ∧ (3 : Nat) ≠ 6 from ⟨hslot, by decide⟩), hw, if_neg hoe]
  rw [hrun]
  exact hlost

theorem cartOut_standby (he : e < 4) (hp : (slotOf s e b).present.isSome = true) (h1 : slotSt s e b = 2) (h2 : oeState s e ≠ 4) :
    slotSt (cartOut s e b) e b = 0 ∧ slotOf (cartOut s e b) e b = {} ∧ rgF (cartOut s e b) .cartstat (2 * e + b.val) 4 4 = 0 ∧
      slotSt (cartOut s e b) e (1 - b.val) = slotSt s e (1 - b.val) := by
  obtain ⟨u, hu⟩ : ∃ u, setRgF (setRgF s .cartstat (2 * e + b.val) 4 4 0) .cartstat (2 * e + b.val) 5 5 0 = u := ⟨_, rfl⟩
  obtain ⟨x, hx⟩ : ∃ x, ((engView s e).setCart b 4 4 0).setCart b 5 5 0 = x := ⟨_, rfl⟩
  have hsame := lands_same (engView s e) b
  have hview := view_lands he b s
  rw [hu, hx] at hview
  rw [hx] at hsame
  have hust : slotSt u e b = 2 := ((shows_of_view hview).st b).trans ((hsame.st b).trans h1)
  have huoe : oeState u e = oeState s e := (shows_of_view hview).oeSt.trans (congrArg (fld · 23 20) hsame.oe)
  have hfails : cartFails u e b = u := cartFails_standby (by omega) (by omega)
  obtain ⟨w, hw⟩ : ∃ w, setRgF (setRgF (setSlot (setSlotSt u e b.val 0) e b.val {}) .cartstat (2 * e + b.val) 6 6 0) .cartstat (2 * e + b.val) 7 7 0 = w :=
    ⟨_, rfl⟩
  have hwview : engView w e = (x.setSt b 0).emptied b := by rw [← hw, view_emptied he, view_setSlotSt he, hview]
  have hrun : cartOut s e b = if oeState w e = 1 ∨ oeState w e = 2 then oeSettle w e else w := by
    unfold cartOut
    dsimp only
    rw [if_neg (by simp [Option.isSome_iff_ne_none.mp hp]), hu, hfails, h1, if_neg (show ¬(2 : Nat) = 1 by decide), if_neg (show ¬(slotSt u e b = 6 ∧ (2 : Nat) ≠ 6) from fun h => absurd h.1 (by omega)), hw]
  obtain ⟨y, hy, hyst, hyslot, hycart⟩ : ∃ y, engView (cartOut s e b) e = y ∧ (∀ c, y.st c = ((x.setSt b 0).emptied b).st c) ∧
      y.slot = ((x.setSt b 0).emptied b).slot ∧ y.cart = ((x.setSt b 0).emptied b).cart := by
    rw [hrun]
    split
    · exact ⟨_, view_oeSettle he w, fun _ => by rw [hwview]; rfl, by rw [hwview]; rfl, by rw [hwview]; rfl⟩
    · exact ⟨_, hwview, fun _ => rfl, rfl, rfl⟩
  have hempty := EngView.emptied_same (x.setSt b 0) b
  have hshows := shows_of_view hy
  refine ⟨?_, ?_, ?_, ?_⟩
  · rw [hshows.st, hyst, hempty.st, EngView.st_setSt]
  · rw [hshows.slot, hyslot, EngView.emptied, EngView.slot_setCart, EngView.slot_setCart, EngView.slot_setSlot]
  · rw [hshows.word, hycart, EngView.emptied, EngView.cart_setCart, EngView.cart_setCart, fld_setFld_ne _ _ _ _ _ _ (by decide) (by decide) (by decide),
      fld_setFld_ne _ _ _ _ _ _ (by decide) (by decide) (by decide), EngView.cart_setSlot, EngView.cart_setSt_field _ _ _ _ _ _ (by decide), ← hx,
      EngView.cart_setCart, EngView.cart_setCart, fld_setFld_ne _ _ _ _ _ _ (by decide) (by decide) (by decide),
      fld_setFld_same _ _ _ _ (by decide) (by decide), Nat.zero_mod]
  · rw [← other_val, hshows.st, hyst, hempty.st, EngView.st_setSt_ne _ _ _ _ (other_ne b), hsame.st, slotSt_view]

end

/-! ### Checks (R418) -/

section
variable {s : State} {e : Nat} {b : Fin 2}

theorem cartReject_spec (he : e < 4) (s : State) (code : Nat) :
    slotSt (cartReject s e b code) e b = 5 ∧ rgF (cartReject s e b code) .oestat e 7 0 = code % 256 := by
  have hview : engView (cartReject s e b code) e = ((engView s e).setSt b 5).setOe 7 0 code := by rw [cartReject, view_oeEnd he, view_setSlotSt he]
  have hshows := shows_of_view hview
  exact ⟨(hshows.st b).trans (EngView.st_setSt _ b 5), hshows.status.trans (EngView.status_setOe_status ..)⟩

/-- A check that starts, on a slot with a cartridge. -/
theorem checkStart_spec (he : e < 4) (hp : (slotOf s e b).present.isSome = true) :
    (idGood (slotOf s e b).mem = false ∨ curRec (slotOf s e b).mem = none →
      slotSt (checkStart s e b) e b = 5 ∧ rgF (checkStart s e b) .oestat e 7 0 = 0x12) ∧
    (idGood (slotOf s e b).mem = true → (curRec (slotOf s e b).mem).isSome = true → cartGet (slotOf s e b).mem 2 1 ≠ tget 1 e s.oePlan →
      slotSt (checkStart s e b) e b = 5 ∧ rgF (checkStart s e b) .oestat e 7 0 = 0x13) ∧
    (idGood (slotOf s e b).mem = true → (curRec (slotOf s e b).mem).isSome = true → cartGet (slotOf s e b).mem 2 1 = tget 1 e s.oePlan →
      slotSt (checkStart s e b) e b = 1 ∧ rgF (checkStart s e b) .oestat e 7 0 = 1 ∧ (slotOf (checkStart s e b) e b).checkAt = now s ∧
        (slotOf (checkStart s e b) e b).mem = (slotOf s e b).mem) := by
  obtain ⟨u, hu⟩ : ∃ u, setSlotSt s e b 1 = u := ⟨_, rfl⟩
  have hview : engView u e = (engView s e).setSt b 1 := hu ▸ view_setSlotSt he b s 1
  have hplan : u.oePlan = s.oePlan := by
    rw [← hu]
    unfold setSlotSt
    dsimp only
    split
    · rfl
    · split <;> rfl
  have hnow : now u = now s := (congrArg EngView.now hview).trans (EngView.now_setSt ..)
  have hpn : (slotOf s e b).present.isNone = false := by simpa using hp
  obtain ⟨x, hx⟩ : ∃ x, slotOf s e b.val = x := ⟨_, rfl⟩
  have hrun : checkStart s e b = if x.present.isNone = true ∨ (!(idGood x.mem)) = true ∨ (curRec x.mem).isNone = true then cartReject u e b 0x12
      else if cartGet x.mem 2 1 ≠ tget 1 e s.oePlan then cartReject u e b 0x13
      else setOeStatus (setSlot u e b { x with checkAt := now s }) e 1 := by
    unfold checkStart
    dsimp only
    rw [hx, hu, hplan, hnow]
  rw [hx] at hpn ⊢
  have hgood : idGood x.mem = true → (curRec x.mem).isSome = true →
      ¬(x.present.isNone = true ∨ (!(idGood x.mem)) = true ∨ (curRec x.mem).isNone = true) := fun h1 h2 h => by
    rw [hpn, h1] at h
    rcases h with h | h | h
    · cases h
    · cases h
    · rw [Option.isNone_iff_eq_none] at h
      rw [h] at h2
      cases h2
  refine ⟨fun h => ?_, fun h1 h2 h3 => ?_, fun h1 h2 h3 => ?_⟩
  · rw [hrun, if_pos (.inr (h.imp (fun h => by rw [h]; rfl) (fun h => by rw [h]; rfl)))]
    exact cartReject_spec he u 0x12
  · rw [hrun, if_neg (hgood h1 h2), if_pos h3]
    exact cartReject_spec he u 0x13
  · rw [hrun, if_neg (hgood h1 h2), if_neg (not_not_intro h3)]
    have hshows := shows_of_view ((view_setOeStatus he (setSlot u e b.val { x with checkAt := now s }) 1).trans
      (congrArg (EngView.setOe · 7 0 1) (view_setSlot b u { x with checkAt := now s })))
    refine ⟨(hshows.st b).trans ?_, hshows.status.trans (EngView.status_setOe_status _ 1), ?_, ?_⟩
    · rw [EngView.st_setOe, EngView.st_setSlot, hview, EngView.st_setSt]
    · rw [hshows.slot, EngView.slot_setOe, EngView.slot_setSlot]
    · rw [hshows.slot, EngView.slot_setOe, EngView.slot_setSlot]

/-- A check told to begin, by the cartridge seated or by a command, is a check of the engine as it stands. -/
theorem checkStart_view {u : State} (hu : engView u e = engView s e) : slotOf u e b = slotOf s e b ∧ now u = now s ∧ tget 1 e u.oePlan = tget 1 e s.oePlan :=
  ⟨congrFun (congrArg EngView.slot hu) b, congrArg EngView.now hu, congrArg EngView.plan hu⟩

/-! ### A check that ends -/

/-- A slot's state, marks and fields apart, the engine that lights or settles keeps its words. -/
theorem EngView.light_kept (x : EngView) : x.light.status = x.status ∧ ∀ c hi lo, 3 < lo → fld (x.light.cart c) hi lo = fld (x.cart c) hi lo := by
  unfold EngView.light
  split
  · exact ⟨rfl, fun _ _ _ _ => rfl⟩
  · split
    · exact ⟨(EngView.settle_spec _).2.2.2.1.trans (congrArg (fld · 7 0) (EngView.oe_setSt ..)), fun c hi lo h => EngView.cart_setSt_field _ _ _ _ _ _ h⟩
    · split
      · refine ⟨((EngView.settle_spec _).2.2.2.1.trans (EngView.status_setOe _ _ _ _ (by decide) (by decide) (by decide))).trans ?_,
          fun c hi lo h => EngView.cart_setSt_field _ _ _ _ _ _ h⟩
        exact congrArg (fld · 7 0) (EngView.oe_setSt ..)
      · exact ⟨rfl, fun _ _ _ _ => rfl⟩

theorem EngView.light_lit (x : EngView) (h1 : x.runs = true) (h2 : x.oeSt = 0) (h3 : x.lit = b) (h4 : x.st b = 2) :
    x.light.st b = 3 ∧ (x.light.oeSt = 1 ∨ x.light.oeSt = 2) := by
  have hstb : (x.setSt b 3).st b = 3 := EngView.st_setSt ..
  have hlit : (x.setSt b 3).lit = b := by
    rw [EngView.lit]
    exact (Fin.ext (congrArg (fld · 17 17) (EngView.oe_setSt x b 3))).trans h3
  rw [EngView.light, if_neg (by simp [h1, h2]), h3, if_pos h4]
  refine ⟨hstb, ?_⟩
  rw [(EngView.settle_spec _).2.2.2.2.2, hlit, if_neg (by simp [hstb])]
  split <;> simp

/-- A cartridge's judged marks and its wear, shown after a check (R416, R418). -/
def EngView.checked (x : EngView) (b : Fin 2) (pwr wear : Nat) (m90 m100 : Bool) : EngView :=
  (((((x.setCart b 31 16 pwr).setSt b 2).setCart b 63 40 wear).setCart b 6 6 m90.toNat).setCart b 7 7 m100.toNat).setOe 7 0 2

theorem EngView.checked_spec (x : EngView) (b : Fin 2) (pwr : BitVec 16) (wear : Nat) (m90 m100 : Bool) :
    (x.checked b pwr.toNat wear m90 m100).status = 2 ∧ fld ((x.checked b pwr.toNat wear m90 m100).cart b) 31 16 = pwr.toNat ∧
      fld ((x.checked b pwr.toNat wear m90 m100).cart b) 6 6 = m90.toNat ∧ fld ((x.checked b pwr.toNat wear m90 m100).cart b) 7 7 = m100.toNat ∧
      (x.checked b pwr.toNat wear m90 m100).st b = 2 ∧ (x.checked b pwr.toNat wear m90 m100).oeSt = x.oeSt ∧
      (x.checked b pwr.toNat wear m90 m100).lit = x.lit ∧ (x.checked b pwr.toNat wear m90 m100).runs = x.runs := by
  have hbool : ∀ m : Bool, m.toNat % 2 = m.toNat := by decide
  have hpwr : pwr.toNat % 2 ^ 16 = pwr.toNat := Nat.mod_eq_of_lt pwr.isLt
  have hoe : (x.checked b pwr.toNat wear m90 m100).oe = (x.setOe 7 0 2).oe := by
    unfold EngView.checked
    rw [EngView.setOe, EngView.oe_setCart, EngView.oe_setCart, EngView.oe_setCart, EngView.oe_setSt, EngView.oe_setCart, EngView.setOe]
  have hcart : (x.checked b pwr.toNat wear m90 m100).cart b =
      setFld (setFld (setFld (((x.setCart b 31 16 pwr.toNat).setSt b 2).cart b) 63 40 wear) 6 6 m90.toNat) 7 7 m100.toNat := by
    unfold EngView.checked
    rw [EngView.cart_setOe, EngView.cart_setCart, EngView.cart_setCart, EngView.cart_setCart]
  refine ⟨?_, ?_, ?_, ?_, ?_, ?_, ?_, ?_⟩
  · rw [EngView.status, hoe]
    exact EngView.status_setOe_status _ 2
  · rw [hcart, fld_setFld_ne _ _ _ _ _ _ (by decide) (by decide) (by decide), fld_setFld_ne _ _ _ _ _ _ (by decide) (by decide) (by decide),
      fld_setFld_ne _ _ _ _ _ _ (by decide) (by decide) (by decide), EngView.cart_setSt_field _ _ _ _ _ _ (by decide), EngView.cart_setCart,
      fld_setFld_same _ _ _ _ (by decide) (by decide), hpwr]
  · rw [hcart, fld_setFld_ne _ _ _ _ _ _ (by decide) (by decide) (by decide), fld_setFld_same _ _ _ _ (by decide) (by decide)]
    exact hbool m90
  · rw [hcart, fld_setFld_same _ _ _ _ (by decide) (by decide)]
    exact hbool m100
  · unfold EngView.checked
    rw [EngView.st_setOe, EngView.st_setCart _ _ _ _ _ _ (by decide) (by decide) (by decide), EngView.st_setCart _ _ _ _ _ _ (by decide) (by decide) (by decide),
      EngView.st_setCart _ _ _ _ _ _ (by decide) (by decide) (by decide), EngView.st_setSt]
  · rw [EngView.oeSt, hoe]
    exact EngView.oeSt_setOe _ _ _ _ (by decide) (by decide) (.inl (by decide))
  · have hlit : (x.checked b pwr.toNat wear m90 m100).lit = (x.setOe 7 0 2).lit := Fin.ext (congrArg (fld · 17 17) hoe)
    exact hlit.trans (EngView.lit_setOe _ _ _ _ (by decide) (by decide) (.inl (by decide)))
  · unfold EngView.checked
    exact (EngView.runs_setSt _ b 2).trans rfl

theorem checkDone_low (he : e < 4) {pwr : BitVec 16} (h1 : slotSt s e b = 1) (h2 : (slotOf s e b).checkAt + 200000000 ≤ now s)
    (h3 : toSigned 16 pwr.toNat < minPwr (slotOf s e b).mem) :
    slotSt (checkDone s e b pwr) e b = 5 ∧ rgF (checkDone s e b pwr) .oestat e 7 0 = 0x14 := by
  have hrun : checkDone s e b pwr = cartReject (setRgF s .cartstat (2 * e + b.val) 31 16 pwr.toNat) e b 0x14 := by
    unfold checkDone
    dsimp only
    rw [if_neg (by omega), if_pos h3]
  rw [hrun]
  exact cartReject_spec he _ 0x14

/-- A cartridge that passes its check stands by, or is lit by a dark engine whose lit slot is its own. -/
theorem checkDone_passed (he : e < 4) {pwr : BitVec 16} (h1 : slotSt s e b = 1) (h2 : (slotOf s e b).checkAt + 200000000 ≤ now s)
    (h3 : minPwr (slotOf s e b).mem ≤ toSigned 16 pwr.toNat) :
    let x := slotOf s e b
    let t := checkDone s e b pwr
    rgF t .oestat e 7 0 = 2 ∧ rgF t .cartstat (2 * e + b.val) 31 16 = pwr.toNat ∧
      (rgF t .cartstat (2 * e + b.val) 6 6 = 1 ↔ 9 * ratedOf x.mem ≤ wearOf x.mem) ∧
      (rgF t .cartstat (2 * e + b.val) 7 7 = 1 ↔ 10 * ratedOf x.mem ≤ wearOf x.mem) ∧ (oeState s e ≠ 0 → slotSt t e b = 2) ∧
      (oeState s e = 0 → engRuns s e = true → rgF s .oestat e 17 17 = b → slotSt t e b = 3 ∧ (oeState t e = 1 ∨ oeState t e = 2)) := by
  dsimp only
  obtain ⟨x, hx⟩ : ∃ x, slotOf s e b.val = x := ⟨_, rfl⟩
  rw [hx] at h2 h3 ⊢
  obtain ⟨y, hy⟩ : ∃ y, (engView s e).checked b pwr.toNat (min (2 ^ 24 - 1) (wearOf x.mem)) (decide (wearOf x.mem ≥ 9 * ratedOf x.mem))
    (decide (wearOf x.mem ≥ 10 * ratedOf x.mem)) = y := ⟨_, rfl⟩
  obtain ⟨hstatus, hpwr, h90, h100, hst, hoe, hlit, hruns⟩ := (engView s e).checked_spec b pwr (min (2 ^ 24 - 1) (wearOf x.mem))
    (decide (wearOf x.mem ≥ 9 * ratedOf x.mem)) (decide (wearOf x.mem ≥ 10 * ratedOf x.mem))
  rw [hy] at hstatus hpwr h90 h100 hst hoe hlit hruns
  obtain ⟨u, hu⟩ : ∃ u, oeEnd (setRgF (setRgF (setRgF (setSlotSt (setRgF s .cartstat (2 * e + b.val) 31 16 pwr.toNat) e b 2) .cartstat (2 * e + b.val) 63 40
      (min (2 ^ 24 - 1) (wearOf x.mem))) .cartstat (2 * e + b.val) 6 6 (decide (wearOf x.mem ≥ 9 * ratedOf x.mem)).toNat) .cartstat (2 * e + b.val) 7 7
      (decide (wearOf x.mem ≥ 10 * ratedOf x.mem)).toNat) e 2 = u := ⟨_, rfl⟩
  have hview : engView u e = y := by
    rw [← hu, ← hy, view_oeEnd he, view_setCart he, view_setCart he, view_setCart he, view_setSlotSt he, view_setCart he]
    rfl
  have hrun : checkDone s e b pwr = if oeState u e = 0 then oeLight u e else oeSettle u e := by
    unfold checkDone
    dsimp only
    rw [hx, if_neg (by omega), if_neg (by omega), hu]
  have huoe : oeState u e = oeState s e := (shows_of_view hview).oeSt.trans hoe
  obtain ⟨z, hz, hzs, hzc, hzd, hzl⟩ : ∃ z, engView (checkDone s e b pwr) e = z ∧ z.status = 2 ∧
      (∀ hi lo, 3 < lo → fld (z.cart b) hi lo = fld (y.cart b) hi lo) ∧ (oeState s e ≠ 0 → z.st b = 2) ∧
      (oeState s e = 0 → engRuns s e = true → rgF s .oestat e 17 17 = b → z.st b = 3 ∧ (z.oeSt = 1 ∨ z.oeSt = 2)) := by
    rw [hrun, huoe]
    by_cases h0 : oeState s e = 0
    · rw [if_pos h0]
      obtain ⟨k1, k2⟩ := y.light_kept
      refine ⟨_, (view_oeLight he u).trans (congrArg EngView.light hview), k1.trans hstatus, k2 b, fun h => absurd h0 h, fun _ h5 h6 => ?_⟩
      exact y.light_lit (hruns.trans h5) (hoe.trans h0) (hlit.trans (Fin.ext h6)) hst
    · rw [if_neg h0]
      obtain ⟨k1, _, _, k2, _⟩ := y.settle_spec
      refine ⟨_, (view_oeSettle he u).trans (congrArg EngView.settle hview), k2.trans hstatus, fun _ _ _ => by rw [k1], fun _ => hst, fun h => absurd h h0⟩
  have hshows := shows_of_view hz
  have hbool : ∀ p : Prop, [Decidable p] → ((decide p).toNat = 1 ↔ p) := fun p => by
    intro hp
    by_cases h : p <;> simp [h]
  refine ⟨hshows.status.trans hzs, (hshows.word ..).trans ((hzc _ _ (by decide)).trans hpwr), ?_, ?_, ?_, ?_⟩
  · rw [hshows.word, hzc _ _ (by decide), h90]
    exact hbool _
  · rw [hshows.word, hzc _ _ (by decide), h100]
    exact hbool _
  · rw [hshows.st]
    exact hzd
  · rw [hshows.st, hshows.oeSt]
    exact hzl

end

/-! ### Wear (R415, R416) -/

/-- What the judging of the marks leaves: the cartridges' memories and the fields above the marks; and with no fade begun, every state. -/
structure MarksOnly (x y : EngView) : Prop where
  mem : ∀ c, (y.slot c).mem = (x.slot c).mem
  high : ∀ c hi lo, 8 ≤ lo → fld (y.cart c) hi lo = fld (x.cart c) hi lo

theorem MarksOnly.trans {x y z : EngView} (h1 : MarksOnly x y) (h2 : MarksOnly y z) : MarksOnly x z :=
  ⟨fun c => (h2.mem c).trans (h1.mem c), fun c hi lo h => (h2.high c hi lo h).trans (h1.high c hi lo h)⟩

theorem MarksOnly.mark (x : EngView) (b : Fin 2) {k : Nat} (hk : k < 8) (v : Nat) : MarksOnly x (x.setCart b k k v) := by
  refine ⟨fun _ => rfl, fun c hi lo h => ?_⟩
  by_cases hc : c = b
  · rw [hc, EngView.cart_setCart]
    exact fld_setFld_ne _ _ _ _ _ _ (by omega) (by omega) (.inr (by omega))
  · rw [EngView.cart_setCart_ne _ _ _ _ _ _ hc]

theorem MarksOnly.setSt (x : EngView) (b : Fin 2) (v : Nat) : MarksOnly x (x.setSt b v) :=
  ⟨fun c => EngView.mem_setSt x b c v, fun _ _ _ h => EngView.cart_setSt_field _ _ _ _ _ _ (by omega)⟩

theorem MarksOnly.count (x : EngView) (b : Fin 2) : MarksOnly x (x.count b) := ⟨fun c => EngView.mem_count x b c, fun _ _ _ _ => rfl⟩

theorem MarksOnly.switchTo (x : EngView) (b : Fin 2) : MarksOnly x (x.switchTo b) :=
  ⟨fun c => EngView.mem_count ((({ x with eng := ⟨x.now, b.val⟩ } : EngView).setOe 23 20 4).setOe 7 0 1) b c, fun _ _ _ _ => rfl⟩

theorem MarksOnly.fadeTo (x : EngView) (b : Fin 2) : MarksOnly x (x.fadeTo b) := by
  unfold EngView.fadeTo
  dsimp only
  split
  · have hset := MarksOnly.setSt ((({ x.count (1 - b) with eng := ⟨x.now, b.val⟩ } : EngView).setOe 23 20 3).setOe 7 0 1) b 3
    exact ((MarksOnly.count x (1 - b)).trans ⟨hset.mem, hset.high⟩).trans (.count _ b)
  · exact ((MarksOnly.count x (1 - b)).trans (.setSt _ (1 - b) 2)).trans (.switchTo _ b)

section
variable {s : State} {e : Nat} {b : Fin 2}

/-- One mark judged: it sets, with its record and event, or stays (R416). -/
theorem mark_view (he : e < 4) (s : State) {k : Nat} (h3 : 3 < k) (h8 : k < 8) (ev : Nat) (p : Prop) [Decidable p] :
    ∃ y, engView (if p then oeEvent (hlCart (setRgF s .cartstat (2 * e + b.val) k k 1) e b.val ev) e else s) e = y ∧ MarksOnly (engView s e) y ∧
      SameLight (engView s e) y := by
  split
  · refine ⟨(engView s e).setCart b k k 1, ?_, .mark _ b h8 1, (SameLight.refl _).setCart b h3 (by omega) le_rfl 1⟩
    rw [view_oeEvent he, view_hlCart he, view_setCart he]
  · exact ⟨_, rfl, ⟨fun _ => rfl, fun _ _ _ _ => rfl⟩, .refl _⟩

theorem judgeEol_spec (he : e < 4) (s : State) : MarksOnly (engView s e) (engView (judgeEol s e b) e) ∧
    (slotSt s e b ≠ 3 → SameLight (engView s e) (engView (judgeEol s e b) e)) := by
  obtain ⟨m, hm⟩ : ∃ m, (slotOf s e b.val).mem = m := ⟨_, rfl⟩
  obtain ⟨u, hu⟩ : ∃ u, (if wearOf m ≥ 9 * ratedOf m ∧ rgF s .cartstat (2 * e + b.val) 6 6 = 0 then
      oeEvent (hlCart (setRgF s .cartstat (2 * e + b.val) 6 6 1) e b.val 0) e else s) = u := ⟨_, rfl⟩
  obtain ⟨y, hy, hymarks, hysame⟩ := mark_view (b := b) he s (k := 6) (by decide) (by decide) 0 (wearOf m ≥ 9 * ratedOf m ∧ rgF s .cartstat (2 * e + b.val) 6 6 = 0)
  rw [hu] at hy
  subst hy
  obtain ⟨w, hw⟩ : ∃ w, oeEvent (hlCart (setRgF u .cartstat (2 * e + b.val) 7 7 1) e b.val 1) e = w := ⟨_, rfl⟩
  have hwview : engView w e = (engView u e).setCart b 7 7 1 := by rw [← hw, view_oeEvent he, view_hlCart he, view_setCart he]
  have hwmarks : MarksOnly (engView s e) (engView w e) := hwview ▸ hymarks.trans (.mark _ b (by decide) 1)
  have hwsame : SameLight (engView s e) (engView w e) := hwview ▸ hysame.setCart b (by decide) (by decide) (by decide) 1
  have hrun : judgeEol s e b = if wearOf m ≥ 10 * ratedOf m ∧ rgF u .cartstat (2 * e + b.val) 7 7 = 0 then
      if slotSt w e b = 3 ∧ oeStatus w e ≠ 1 ∧ slotSt w e (1 - b.val) = 2 ∧ rgF w .cartstat (2 * e + 1 - b.val) 6 6 = 0 then fadeTo w e (1 - b.val) else w
      else u := by
    unfold judgeEol
    dsimp only
    rw [hm, hu, hw]
  rw [hrun]
  split
  · split
    case isTrue h =>
      refine ⟨?_, fun h3 => absurd ((hwsame.st b).symm.trans h.1) h3⟩
      rw [← other_val, view_fadeTo he]
      exact hwmarks.trans (.fadeTo _ _)
    case isFalse => exact ⟨hwmarks, fun _ => hwsame⟩
  · exact ⟨hymarks, fun _ => hysame⟩

/-- A wear record written: the memory, the monitor's power and the wear shown. -/
theorem wearWrite_spec (he : e < 4) (s : State) (l : LitIn) :
    let x := slotOf s e b
    let m := writeRec x.mem ((x.halfSecs + max l.secs (min (3 * l.secs) l.halfSecs)) / 720) ((x.litSecs + l.secs) / 3600) x.handovers x.faults
      (rgF s .pkgid 0 31 0) l.temp
    let t := wearWrite s e b l
    (slotOf t e b).mem = m ∧ rgF t .cartstat (2 * e + b.val) 31 16 = l.pwr.toNat ∧
      rgF t .cartstat (2 * e + b.val) 63 40 = min (2 ^ 24 - 1) (wearOf m) ∧ (slotSt s e b ≠ 3 → SameLight (engView s e) (engView t e)) := by
  dsimp only
  obtain ⟨m, hm⟩ : ∃ m, writeRec (slotOf s e b.val).mem (((slotOf s e b.val).halfSecs + max l.secs (min (3 * l.secs) l.halfSecs)) / 720)
    (((slotOf s e b.val).litSecs + l.secs) / 3600) (slotOf s e b.val).handovers (slotOf s e b.val).faults (rgF s .pkgid 0 31 0) l.temp = m := ⟨_, rfl⟩
  obtain ⟨z, hz, hzm⟩ : ∃ z : Slot, wearWrite s e b l = judgeEol (setRgF (setRgF (setSlot s e b.val z) .cartstat (2 * e + b.val) 63 40
      (min (2 ^ 24 - 1) (wearOf m))) .cartstat (2 * e + b.val) 31 16 l.pwr.toNat) e b ∧ z.mem = m := by
    unfold wearWrite
    dsimp only
    rw [hm]
    exact ⟨_, rfl, rfl⟩
  rw [hm, hz]
  obtain ⟨u, hu⟩ : ∃ u, setRgF (setRgF (setSlot s e b.val z) .cartstat (2 * e + b.val) 63 40 (min (2 ^ 24 - 1) (wearOf m))) .cartstat (2 * e + b.val) 31 16
    l.pwr.toNat = u := ⟨_, rfl⟩
  rw [hu]
  have hview : engView u e = (((engView s e).setSlot b z).setCart b 63 40 (min (2 ^ 24 - 1) (wearOf m))).setCart b 31 16 l.pwr.toNat := by
    rw [← hu, view_setCart he, view_setCart he, view_setSlot]
  have hsame : SameLight (engView s e) (engView u e) := by
    rw [hview]
    exact (((SameLight.refl _).setSlot b z).setCart b (by decide) (by decide) (by decide) _).setCart b (by decide) (by decide) (by decide) _
  obtain ⟨⟨hmem, hhigh⟩, hkept⟩ := judgeEol_spec (b := b) he u
  have hshows := shows_of_view (rfl : engView (judgeEol u e b) e = _)
  refine ⟨?_, ?_, ?_, fun h3 => ?_⟩
  · rw [hshows.slot, hmem, hview, EngView.slot_setCart, EngView.slot_setCart, EngView.slot_setSlot, hzm]
  · rw [hshows.word, hhigh _ _ _ (by decide), hview, EngView.cart_setCart, fld_setFld_same _ _ _ _ (by decide) (by decide)]
    exact Nat.mod_eq_of_lt l.pwr.isLt
  · rw [hshows.word, hhigh _ _ _ (by decide), hview, EngView.cart_setCart, fld_setFld_ne _ _ _ _ _ _ (by decide) (by decide) (by decide),
      EngView.cart_setCart, fld_setFld_same _ _ _ _ (by decide) (by decide)]
    exact Nat.mod_eq_of_lt (Nat.lt_of_le_of_lt (Nat.min_le_left ..) (by decide))
  · have := hkept (fun h => h3 ((hsame.st b).symm.trans h))
    exact ⟨fun c => (this.st c).trans (hsame.st c), this.oe.trans hsame.oe, this.eng.trans hsame.eng, this.now.trans hsame.now⟩

/-! ### RELEASE (R422) -/

variable {by_ : By} {l : LitIn}

theorem goRelease_lit (he : e < 4) (h1 : rgF s .oestat e 7 0 ≠ 1) (h2 : ownOe s e = false ∨ bySec by_ = true) (h3 : slotSt s e b = 3) :
    goRelease s by_ e b l = oeEnd (oeFields s e b 1) e 0x10 := by
  have hst : slotSt (oeFields s e b 1) e b = slotSt s e b := by rw [slotSt_view, view_oeFields he, slotSt_view]
  unfold goRelease
  rw [oeGate_free h1 h2]
  dsimp only
  rw [if_pos (hst.trans h3)]

theorem goRelease_standby (he : e < 4) (h1 : rgF s .oestat e 7 0 ≠ 1) (h2 : ownOe s e = false ∨ bySec by_ = true) (h3 : slotSt s e b = 2) :
    rgF (goRelease s by_ e b l) .oestat e 7 0 = 2 ∧ slotSt (goRelease s by_ e b l) e b = 4 ∧
      slotSt (goRelease s by_ e b l) e (1 - b.val) = slotSt s e (1 - b.val) ∧ rgF (goRelease s by_ e b l) .cartstat (2 * e + b.val) 31 16 = l.pwr.toNat := by
  obtain ⟨u, hu⟩ : ∃ u, oeFields s e b.val 1 = u := ⟨_, rfl⟩
  have huview : engView u e = engView s e := hu ▸ view_oeFields he s b.val 1
  have hust : slotSt u e b = 2 := by rw [slotSt_view, huview, ← slotSt_view, h3]
  obtain ⟨l', hl, hpwr⟩ : ∃ l' : LitIn, { l with secs := litTicks u (slotOf u e b.val) / 1000000000 } = l' ∧ l'.pwr = l.pwr := ⟨_, rfl, rfl⟩
  obtain ⟨_, hw, _, hsame⟩ := wearWrite_spec (b := b) he u l'
  have hsame := hsame (by omega)
  obtain ⟨w, hwear⟩ : ∃ w, wearWrite u e b.val l' = w := ⟨_, rfl⟩
  rw [hwear] at hw hsame
  obtain ⟨v, hv⟩ : ∃ v, setSlotSt w e b.val 4 = v := ⟨_, rfl⟩
  have hvview : engView v e = (engView w e).setSt b 4 := hv ▸ view_setSlotSt he b w 4
  have hrun : goRelease s by_ e b l = oeEnd (if oeState v e = 0 then v else oeSettle v e) e 2 := by
    unfold goRelease
    rw [oeGate_free h1 h2]
    dsimp only
    rw [hu, if_neg (by omega), if_pos hust, hl, hwear, hv]
  obtain ⟨y, hy, hyc⟩ : ∃ y : EngView, engView (goRelease s by_ e b l) e = y.setOe 7 0 2 ∧ y.cart = ((engView w e).setSt b 4).cart := by
    rw [hrun, view_oeEnd he]
    split
    · exact ⟨_, rfl, by rw [hvview]⟩
    · refine ⟨_, rfl, ?_⟩
      rw [view_oeSettle he, hvview]
      rfl
  have hshows := shows_of_view hy
  have hst : ∀ c, (y.setOe 7 0 2).st c = ((engView w e).setSt b 4).st c := fun c => congrArg (fun k : Fin 2 → Word => fld (k c) 3 0) hyc
  refine ⟨hshows.status.trans (EngView.status_setOe_status _ 2), ?_, ?_, ?_⟩
  · rw [hshows.st, hst, EngView.st_setSt]
  · rw [← other_val, hshows.st, hst, EngView.st_setSt_ne _ _ _ _ (other_ne b), hsame.st, huview, slotSt_view]
  · rw [hshows.word, EngView.cart_setOe, hyc, EngView.cart_setSt_field _ _ _ _ _ _ (by decide), ← hpwr]
    exact hw

end

/-! ### The obligation -/

section
variable {s : State} {by_ : By} {e : Nat} {b : Fin 2} {l : LitIn}

/-- A command of the engine that finds it BUSY, or the monitor's (R420, R422). -/
theorem oeCommand_gate {c : Instr} {e : OptId} (hc : c ∈ [Instr.handover by_ e b, .releaseSlot by_ e b l, .checkSlot by_ e b]) (s : State) {u : State}
    (h : oeGate s by_ e = some u) : exec c s = .next u := by
  simp only [List.mem_cons, List.not_mem_nil, or_false] at hc
  rcases hc with rfl | rfl | rfl
  · refine congrArg ok ?_
    unfold goHandover
    rw [h]
  · refine congrArg ok ?_
    unfold goRelease
    rw [h]
  · refine congrArg ok ?_
    unfold goCheck
    rw [h]

/-- A check told to begin by the seated cartridge or by a command (R418, R422). -/
theorem checkTold {c : Instr} {e : OptId} {t0 : Nat} (hp : (slotOf s e b).present = some t0) (h1 : rgF s .oestat e 7 0 ≠ 1)
    (hc : (c = .cartridgeCheck e b ∧ (slotSt s e b = 0 ∨ slotSt s e b = 6) ∧ t0 + 100000000 ≤ now s) ∨
      (c = .checkSlot by_ e b ∧ (slotSt s e b = 5 ∨ slotSt s e b = 6) ∧ rgF s .oestat e 7 0 ≠ 1 ∧ (ownOe s e = false ∨ bySec by_ = true))) :
    ∃ u, exec c s = .next (checkStart u e b) ∧ engView u e = engView s e := by
  rcases hc with ⟨rfl, hst, htime⟩ | ⟨rfl, hst, _, hgate⟩
  · refine ⟨s, congrArg ok ?_, rfl⟩
    rw [hp]
    exact if_pos ⟨hst, htime, h1⟩
  · have hview := view_oeFields e.isLt s b 2
    have hust : slotSt (oeFields s e b 2) e b = slotSt s e b := by rw [slotSt_view, hview, slotSt_view]
    refine ⟨oeFields s e b 2, congrArg ok ?_, hview⟩
    unfold goCheck
    rw [oeGate_free h1 hgate]
    dsimp only
    rw [hust]
    exact if_pos hst

end

/-- Settles O41: the commands of an engine, each through what it does to the view of the engine and its two slots. -/
theorem opticalEngines : Obligations.OpticalEngines := by
  unfold Obligations.OpticalEngines
  intro by_ e b s
  dsimp only
  have he : e.val < 4 := e.isLt
  refine ⟨?_, ?_, ?_, ?_, ?_, ?_, ?_, ?_, ?_, ?_, ?_, ?_, ?_, ?_⟩
  · intro ⟨h1, h2⟩ h3
    exact ⟨_, congrArg ok ((goHandover_free he h1 h2).1 h3), oeRefused_spec he s b 0 0x11⟩
  · intro ⟨h1, h2⟩ h3 h4
    obtain ⟨t, ht, hspec⟩ := handover_fades he h1 h2 h3 h4
    exact ⟨t, congrArg ok ht, hspec⟩
  · exact fun h1 h2 => ⟨fun h3 h4 => ⟨_, rfl, fadeDone_spec he h1 h2 h3 h4⟩, fun h3 => ⟨_, congrArg ok (fadeDone_early h3), rfl⟩⟩
  · exact fun h1 h2 => ⟨_, rfl, switchDone_spec he h1 h2⟩
  · intro l h1
    refine ⟨fun h2 => ?_, fun h2 => ⟨s, congrArg ok (if_neg fun h => absurd h.2 (by omega)), rfl⟩⟩
    obtain ⟨hmem, hpwr, hwear, _⟩ := wearWrite_spec (b := b) he s { l with secs := 3600 }
    refine ⟨_, congrArg ok (if_pos ⟨h1, h2⟩), hmem, hpwr, ?_⟩
    rw [hmem]
    exact hwear
  · intro mem
    refine ⟨fun h => ⟨_, congrArg ok (if_neg (by simp [h])), ?_⟩, fun h => ⟨s, congrArg ok (if_pos h), rfl⟩⟩
    obtain ⟨y, hy⟩ : ∃ y : Slot, { mem := mem, present := some (now s) } = y := ⟨_, rfl⟩
    rw [hy]
    have hshows := shows_of_view ((view_setCart he b (setSlot s e b y) 4 4 1).trans (congrArg (EngView.setCart · b 4 4 1) (view_setSlot b s y)))
    refine ⟨?_, ?_, ?_⟩
    · rw [hshows.slot, EngView.slot_setCart, EngView.slot_setSlot]
    · rw [hshows.word, EngView.cart_setCart]
      exact fld_setFld_same _ _ _ _ (by decide) (by decide)
    · rw [hshows.st, EngView.st_setCart _ _ _ _ _ _ (by decide) (by decide) (by decide), EngView.st_setSlot, slotSt_view]
  · intro c t0 hp h1 hc
    obtain ⟨u, hrun, hview⟩ := checkTold hp h1 hc
    obtain ⟨hslot, hnow, hplan⟩ := checkStart_view (b := b) hview
    obtain ⟨hbad, hother, hgood⟩ := checkStart_spec (b := b) he (s := u) (by rw [hslot, hp]; rfl)
    rw [hslot, hplan] at hother hgood
    rw [hslot] at hbad
    rw [hnow] at hgood
    exact ⟨fun h => ⟨_, hrun, hbad h⟩, fun h2 h3 h4 => ⟨_, hrun, hother h2 h3 h4⟩, fun h2 h3 h4 => ⟨_, hrun, hgood h2 h3 h4⟩⟩
  · intro pwr h1
    refine ⟨fun h2 => ⟨s, congrArg ok ?_, rfl⟩, fun h2 h3 => ⟨_, rfl, checkDone_low he h1 h2 h3⟩, fun h2 h3 => ⟨_, rfl, checkDone_passed he h1 h2 h3⟩⟩
    unfold checkDone
    dsimp only
    rw [if_pos (.inr h2)]
  · intro h
    refine ⟨s, congrArg ok ?_, rfl⟩
    unfold cartOut
    dsimp only
    rw [if_pos (by rw [h]; rfl)]
  · exact fun h1 h2 h3 => ⟨_, rfl, cartOut_standby he h1 h2 h3⟩
  · intro pwr h1 h2 h3 h4 h5 c hc
    obtain ⟨t, ht, hlost⟩ : ∃ t, exec c s = .next t ∧ ShowsLost s t e b := by
      simp only [List.mem_cons, List.not_mem_nil, or_false] at hc
      rcases hc with rfl | rfl | rfl
      · exact ⟨_, rfl, cartOut_lost he h1 h2 h3⟩
      · refine ⟨_, congrArg ok (if_neg ?_), faultNFall_lost he h2 h3 _⟩
        rintro (h | h)
        · rw [Option.isNone_iff_eq_none] at h
          rw [h] at h1
          cases h1
        · omega
      · exact ⟨_, congrArg ok (if_pos ⟨h1, h5, h2⟩), laserLow_lost he h2 h3 _⟩
    obtain ⟨k1, k2, k3, k4⟩ := hlost
    refine ⟨fun ho => ?_, fun ho => ⟨t, ht, k1, k2, k4 ho⟩⟩
    obtain ⟨k5, k6, k7⟩ := k3 ho
    exact ⟨t, ht, k1, k2.trans ho, k5, k6, k7⟩
  · exact ⟨_, rfl, rgF_setRgF_same _ _ _ _ _ _ (by decide) (by decide), RegsOnly.setRgF (by omega) (by simp) ..⟩
  · intro l ⟨h1, h2⟩
    exact ⟨fun h3 => ⟨_, congrArg ok (goRelease_lit he h1 h2 h3), oeRefused_spec he s b 1 0x10⟩, fun h3 => ⟨_, rfl, goRelease_standby he h1 h2 h3⟩⟩
  · intro l c hc
    refine ⟨fun h1 h2 => ⟨_, oeCommand_gate hc s (oeGate_busy h1 h2), rgF_setRgF_same _ _ _ _ _ _ (by decide) (by decide),
      RegsOnly.setRgF (by omega) (by simp) ..⟩, fun h1 h2 h3 => ?_⟩
    obtain ⟨t, ht, hspec⟩ := oeGate_denied he h1 h2 h3
    exact ⟨t, oeCommand_gate hc s ht, hspec⟩

end Sys2Proof.Machine
end

section
/-! PROOFS. Share commands and shut-downs (R446 to R455). -/
namespace Sys2Proof.Machine

open Sys2Proof

/-! ### Queues moved from one state to another -/

/-- From s to t the queues of a list went from one state to another; nothing else changed. -/
structure QueuesMoved (from_ to_ : Nat) (l : List Nat) (s t : State) : Prop where
  rest : { t with regs := s.regs } = s
  regs : ∀ r i, i < 2 ^ 32 → r ≠ .qstat → rg t r i = rg s r i
  high : ∀ i hi lo, 2 < lo → rgF t .qstat i hi lo = rgF s .qstat i hi lo
  moved : ∀ q ∈ l, qState s q = from_ → qState t q = to_
  kept : ∀ q, q ∉ l ∨ qState s q ≠ from_ → qState t q = qState s q

theorem moveOne_moved {s : State} {q from_ to_ : Nat} (hq : q < 2 ^ 32) (ht : to_ < 8) :
    QueuesMoved from_ to_ [q] s (if qState s q = from_ then setQState s q to_ else s) := by
  by_cases h : qState s q = from_
  · rw [if_pos h]
    refine ⟨rfl, fun r i hi hr => rg_setRg_other hq hi fun he => hr (Prod.mk.inj he).1, fun i hi lo hl => ?_, fun k hk _ => ?_, fun k hk => ?_⟩
    · by_cases hi : i = q
      · rw [hi]
        exact rgF_setRgF_field _ _ _ _ _ _ _ _ (by decide) (by decide) (.inr hl)
      · exact rgF_setRgF_index hi
    · rw [List.mem_singleton.mp hk]
      exact (rgF_setRgF_same _ _ _ _ _ _ (by decide) (by decide)).trans (Nat.mod_eq_of_lt ht)
    · rcases hk with hk | hk
      · exact rgF_setRgF_index (by simpa using hk)
      · exact rgF_setRgF_index fun he => hk (he ▸ h)
  · rw [if_neg h]
    exact ⟨rfl, fun _ _ _ _ => rfl, fun _ _ _ _ => rfl, fun k hk hs => absurd (List.mem_singleton.mp hk ▸ hs) h, fun _ _ => rfl⟩

theorem foldl_moved {from_ to_ : Nat} (hne : from_ ≠ to_) (ht : to_ < 8) : ∀ {l : List Nat} (s : State), (∀ q ∈ l, q < 2 ^ 32) →
    QueuesMoved from_ to_ l s (l.foldl (fun s q => if qState s q = from_ then setQState s q to_ else s) s)
  | [], s, _ => ⟨rfl, fun _ _ _ _ => rfl, fun _ _ _ _ => rfl, fun _ hq => (by cases hq), fun _ _ => rfl⟩
  | q :: l, s, hl => by
    obtain ⟨h1, h2, h3, h4, h5⟩ := moveOne_moved (s := s) (from_ := from_) (hl q (by simp)) ht
    obtain ⟨u, hu⟩ : ∃ u, (if qState s q = from_ then setQState s q to_ else s) = u := ⟨_, rfl⟩
    rw [hu] at h1 h2 h3 h4 h5
    obtain ⟨k1, k2, k3, k4, k5⟩ := foldl_moved hne ht (l := l) u fun k hk => hl k (by simp [hk])
    rw [List.foldl_cons, hu]
    generalize l.foldl (fun s q => if qState s q = from_ then setQState s q to_ else s) u = t at k1 k2 k3 k4 k5 ⊢
    refine ⟨?_, fun r i hi hr => (k2 r i hi hr).trans (h2 r i hi hr), fun i hi lo hl => (k3 i hi lo hl).trans (h3 i hi lo hl), fun k hk hs => ?_, fun k hk => ?_⟩
    · calc { t with regs := s.regs } = { ({ t with regs := u.regs } : State) with regs := s.regs } := rfl
        _ = { u with regs := s.regs } := by rw [k1]
        _ = s := h1
    · by_cases hkl : k ∈ l
      · by_cases hkq : k = q
        · have hut := h4 k (by simp [hkq]) hs
          exact (k5 k (.inr fun h => hne (h.symm.trans hut))).trans hut
        · exact k4 k hkl ((h5 k (.inl (by simpa using hkq))).trans hs)
      · have hkq : k = q := by simpa [hkl] using hk
        exact (k5 k (.inl hkl)).trans (h4 k (by simp [hkq]) hs)
    · rcases hk with hk | hk
      · simp only [List.mem_cons, not_or] at hk
        exact (k5 k (.inl hk.2)).trans (h5 k (.inl (by simpa using hk.1)))
      · have hut := h5 k (.inr hk)
        exact (k5 k (.inr (hut ▸ hk))).trans hut

/-! ### A share that runs, and one that shuts down -/

section
variable {s : State} {n : Nat}

theorem mem_shareQueues_lt {q : Nat} (h : (share s n).qp0 + (share s n).nqp ≤ 16384) (hq : q ∈ shareQueues s n) : q < 16384 := by
  obtain ⟨i, hi, rfl⟩ := List.mem_map.mp hq
  have := List.mem_range.mp hi
  omega

theorem moveQueues_moved {from_ to_ : Nat} (hne : from_ ≠ to_) (ht : to_ < 8) (h : (share s n).qp0 + (share s n).nqp ≤ 16384) :
    QueuesMoved from_ to_ (shareQueues s n) s (moveQueues s n from_ to_) :=
  foldl_moved hne ht s fun _ hq => (mem_shareQueues_lt h hq).trans (by decide)

/-- A share that becomes ENABLED (R454). -/
theorem shEnable_spec (hn : n < 2 ^ 32) (h : (share s n).qp0 + (share s n).nqp ≤ 16384) :
    shState (shEnable s n) n = 2 ∧ { shEnable s n with regs := s.regs } = s ∧
      (∀ q ∈ shareQueues s n, qState s q = 2 → qState (shEnable s n) q = 1) ∧
      (∀ r i, i < 2 ^ 32 → r ≠ .qstat → r ≠ .shstate → rg (shEnable s n) r i = rg s r i) ∧
      (∀ i hi lo, i < 2 ^ 32 → 2 < lo → rgF (shEnable s n) .qstat i hi lo = rgF s .qstat i hi lo) ∧
      (∀ hi lo, 2 < lo → rgF (shEnable s n) .shstate n hi lo = rgF s .shstate n hi lo) := by
  obtain ⟨u, hu⟩ : ∃ u, setRgF s .shstate n 2 0 2 = u := ⟨_, rfl⟩
  have hust : shState u n = 2 := hu ▸ rgF_setRgF_same s .shstate n 2 0 2 (by decide) (by decide)
  have hurest : { u with regs := s.regs } = s := hu ▸ rfl
  have huregs : ∀ r i, i < 2 ^ 32 → r ≠ .shstate → rg u r i = rg s r i := fun r i hi hr => hu ▸ rg_setRg_other hn hi fun he => hr (Prod.mk.inj he).1
  have huhigh : ∀ hi lo, 2 < lo → rgF u .shstate n hi lo = rgF s .shstate n hi lo := fun hi lo hl =>
    hu ▸ rgF_setRgF_field s .shstate n 2 0 2 hi lo (by decide) (by decide) (.inr hl)
  have hshare : share u n = share s n := hu ▸ rfl
  have hqueues : shareQueues u n = shareQueues s n := hu ▸ rfl
  obtain ⟨h1, h2, h3, h4, _⟩ := moveQueues_moved (s := u) (n := n) (from_ := 2) (to_ := 1) (by decide) (by decide) (hshare ▸ h)
  rw [hqueues] at h4
  rw [shEnable, hu]
  generalize moveQueues u n 2 1 = t at h1 h2 h3 h4 ⊢
  refine ⟨(congrArg (fld · 2 0) (h2 .shstate n hn (by decide))).trans hust, ?_, fun q hq hs => h4 q hq ?_,
    fun r i hi hr hr' => (h2 r i hi hr).trans (huregs r i hi hr'), fun i hi lo hi' hl => (h3 i hi lo hl).trans ?_, fun hi lo hl => ?_⟩
  · calc { t with regs := s.regs } = { ({ t with regs := u.regs } : State) with regs := s.regs } := rfl
      _ = { u with regs := s.regs } := by rw [h1]
      _ = s := hurest
  · have hlt := (mem_shareQueues_lt h hq).trans (show 16384 < 2 ^ 32 by decide)
    exact (congrArg (fld · 2 0) (huregs .qstat q hlt (by decide))).trans hs
  · exact congrArg (fld · hi lo) (huregs .qstat i hi' (by decide))
  · exact (congrArg (fld · hi lo) (h2 .shstate n hn (by decide))).trans (huhigh hi lo hl)

/-- A shut-down that begins (R453). -/
theorem startShut_spec {kind : Nat} (hn : n < 2 ^ 32) (hk : kind < 4) (h : (share s n).qp0 + (share s n).nqp ≤ 16384) :
    shState (startShut s n kind) n = 3 ∧ rgF (startShut s n kind) .shstate n 5 4 = kind ∧ rgF (startShut s n kind) .shstate n 63 32 = 0 ∧
      share (startShut s n kind) n = { share s n with wasEnabled := decide (shState s n = 2), sdAt := now s } ∧
      ∀ q, q ∈ shareQueues s n → qState s q = 1 → qState (startShut s n kind) q = 2 := by
  obtain ⟨u, hu⟩ : ∃ u, setRgF (setRgF (setRgF s .shstate n 5 4 kind) .shstate n 2 0 3) .shstate n 63 32 0 = u := ⟨_, rfl⟩
  have hust : shState u n = 3 ∧ rgF u .shstate n 5 4 = kind ∧ rgF u .shstate n 63 32 = 0 := by
    rw [← hu]
    refine ⟨?_, ?_, rgF_setRgF_same _ _ _ _ _ _ (by decide) (by decide)⟩
    · exact (rgF_setRgF_field _ _ _ _ _ _ _ _ (by decide) (by decide) (by decide)).trans (rgF_setRgF_same _ _ _ _ _ _ (by decide) (by decide))
    · rw [rgF_setRgF_field _ _ _ _ _ _ _ _ (by decide) (by decide) (by decide), rgF_setRgF_field _ _ _ _ _ _ _ _ (by decide) (by decide) (by decide),
        rgF_setRgF_same _ _ _ _ _ _ (by decide) (by decide)]
      exact Nat.mod_eq_of_lt hk
  have huregs : ∀ i, i < 2 ^ 32 → rg u .qstat i = rg s .qstat i := fun i hi => by
    rw [← hu]
    exact (rg_setRg_other hn hi (by simp)).trans ((rg_setRg_other hn hi (by simp)).trans (rg_setRg_other hn hi (by simp)))
  have hshare : share u n = share s n := hu ▸ rfl
  have hnow : now u = now s := hu ▸ rfl
  have hqueues : shareQueues u n = shareQueues s n := hu ▸ rfl
  obtain ⟨h1, h2, _, h4, _⟩ := moveQueues_moved (s := u) (n := n) (from_ := 1) (to_ := 2) (by decide) (by decide) (hshare ▸ h)
  rw [hqueues] at h4
  have hrun : startShut s n kind = setShare (moveQueues u n 1 2) n { share s n with wasEnabled := decide (shState s n = 2), sdAt := now s } := by
    unfold startShut
    dsimp only
    rw [hu, hshare, hnow]
    rfl
  rw [hrun]
  obtain ⟨x, hx⟩ : ∃ x : Share, { share s n with wasEnabled := decide (shState s n = 2), sdAt := now s } = x := ⟨_, rfl⟩
  rw [hx]
  have hst : ∀ hi lo, rgF (moveQueues u n 1 2) .shstate n hi lo = rgF u .shstate n hi lo := fun hi lo => congrArg (fld · hi lo) (h2 .shstate n hn (by decide))
  obtain ⟨e1, e2, e3⟩ := hust
  have hset : tget {} n (tset {} n x (moveQueues u n 1 2).shares) = x := tget_tset_same _
  refine ⟨(hst 2 0).trans e1, (hst 5 4).trans e2, (hst 63 32).trans e3, hset, fun q hq hs => h4 q hq ?_⟩
  have hlt := (mem_shareQueues_lt h hq).trans (show 16384 < 2 ^ 32 by decide)
  exact (congrArg (fld · 2 0) (huregs q hlt)).trans hs

end

/-! ### A GO of SHCMD -/

/-- The state a command of SHCMD acts on: its fields noted. -/
def shNoted (s : State) (op : Nat) (v : Word) : State :=
  setRg s .shcmd 0 (v &&& 0x00000FFF0001F000 ||| BitVec.ofNat 64 (if 1 ≤ op ∧ op ≤ 6 then op else rgF s .shcmd 0 3 0))

/-- The arguments of a command. -/
def shArgs (s : State) (v : Word) : ShCmd := ⟨fld v 43 32, bit v 16, fld v 15 12, rg s .sharg0 0, rg s .sharg1 0, rg s .sharg2 0⟩

section
variable {s : State} {b : By} {op : Nat} {v : Word}

theorem shNoted_only (s : State) (op : Nat) (v : Word) : RegsOnly [(.shcmd, 0)] s (shNoted s op v) := RegsOnly.setRg (by decide) (by simp) ..

theorem shNoted_rg {r : RegName} {i : Nat} (hi : i < 2 ^ 32) (hr : r ≠ .shcmd) : rg (shNoted s op v) r i = rg s r i :=
  rg_setRg_other (by decide) hi fun he => hr (Prod.mk.inj he).1

theorem shNoted_rgF {r : RegName} {i hi lo : Nat} (hi' : i < 2 ^ 32) (hr : r ≠ .shcmd) : rgF (shNoted s op v) r i hi lo = rgF s r i hi lo :=
  congrArg (fld · hi lo) (shNoted_rg hi' hr)

theorem shcmdGo_eq (h : rgF s .shstat 0 7 0 ≠ 1) :
    let r := shRun (shNoted s op v) b op (shArgs (shNoted s op v) v) (regPa 0x200000)
    shcmdGo s b op v = setRgF (if op = 1 ∧ r.1.status = 2 then setRg (setRg r.2 .shres0 0 r.1.r0) .shres1 0 r.1.r1 else r.2) .shstat 0 7 0 r.1.status := by
  unfold shcmdGo
  rw [if_neg h]
  rfl

theorem shcmdGo_run {a : ShAns} {w : State} (h : rgF s .shstat 0 7 0 ≠ 1) (hop : op ≠ 1)
    (hrun : shRun (shNoted s op v) b op (shArgs s v) (regPa 0x200000) = (a, w)) : shcmdGo s b op v = setRgF w .shstat 0 7 0 a.status := by
  have hargs : shArgs (shNoted s op v) v = shArgs s v := by
    unfold shArgs
    rw [shNoted_rg (by decide) (by decide), shNoted_rg (by decide) (by decide), shNoted_rg (by decide) (by decide)]
  rw [← hargs] at hrun
  rw [shcmdGo_eq h]
  rw [hrun, if_neg (fun h => hop h.1)]

end

section
variable {s : State} {b : By} {op : Nat} {c : ShCmd} {w : Word}

theorem shRun_denied (h1 : 2 ≤ op) (h2 : op ≤ 6) (h3 : shState s c.n ≠ 0) (h4 : shSown s c.n = true) (h5 : bySec b = false) :
    shRun s b op c w = ({ status := 0x20 }, hlDenied s b 0x20 w) := by
  rw [shRun, if_neg (by omega), if_pos ⟨by rw [h5]; rfl, .inr ⟨by omega, h3, h4⟩⟩]
  rfl

theorem shRun_free (h1 : 2 ≤ op) (h2 : op ≤ 6) (h3 : shState s c.n = 0) : shRun s b op c w = ({ status := 0x12 }, s) := by
  have hop : ¬op = 1 := by omega
  rw [shRun, if_neg (by omega), if_neg (fun h => h.2.elim (fun h => hop h.1) (fun h => h.2.1 h3)), if_neg hop, if_pos h3]

theorem shRun_life (h1 : 2 ≤ op) (h2 : op ≤ 5) (h3 : shState s c.n ≠ 0) (h4 : bySec b = true ∨ shSown s c.n = false) :
    shRun s b op c w = ({ status := (shLife s op c.n).1 }, (shLife s op c.n).2) := by
  have hop : ¬op = 1 := by omega
  have hown : ¬((!(bySec b)) = true ∧ (op = 1 ∧ c.sown = true ∨ op ≠ 1 ∧ shState s c.n ≠ 0 ∧ shSown s c.n = true)) := by
    rintro ⟨h5, h6⟩
    rcases h4 with h4 | h4
    · rw [h4] at h5
      cases h5
    · rcases h6 with h6 | h6
      · exact hop h6.1
      · rw [h4] at h6
        cases h6.2.2
  rw [shRun, if_neg (by omega), if_neg hown, if_neg hop, if_neg h3, if_neg (by omega)]

theorem shRun_bind (h3 : shState s c.n ≠ 0) (h4 : bySec b = true ∨ shSown s c.n = false) (h5 : fld c.a1 24 14 = 0) (h6 : fld c.a0 31 19 = 0)
    (h7 : fld c.a0 12 0 = 0) : shRun s b 6 c w = ({ status := (shBind s c.n (fld c.a1 13 0) (fld c.a0 18 16) (fld c.a0 42 32)).1 },
      (shBind s c.n (fld c.a1 13 0) (fld c.a0 18 16) (fld c.a0 42 32)).2) := by
  have hown : ¬((!(bySec b)) = true ∧ (6 = 1 ∧ c.sown = true ∨ 6 ≠ 1 ∧ shState s c.n ≠ 0 ∧ shSown s c.n = true)) := by
    rintro ⟨k5, k6⟩
    rcases h4 with h4 | h4
    · rw [h4] at k5
      cases k5
    · rcases k6 with k6 | k6
      · exact absurd k6.1 (by decide)
      · rw [h4] at k6
        cases k6.2.2
  rw [shRun, if_neg (by decide), if_neg hown, if_neg (by decide), if_neg h3, if_pos rfl, if_neg (by simp [h5, h6, h7])]

/-! ### The commands of a share's life -/

variable {v : Word}

/-- The share a command names keeps its state while the command is noted. -/
theorem shNoted_share {n : Nat} (hn : n < 2 ^ 32) : shState (shNoted s op v) n = shState s n ∧ shSown (shNoted s op v) n = shSown s n ∧
    share (shNoted s op v) n = share s n ∧ shareQueues (shNoted s op v) n = shareQueues s n :=
  ⟨shNoted_rgF hn (by decide), congrArg (· == 1) (shNoted_rgF hn (by decide)), rfl, rfl⟩

theorem fld_share_lt (v : Word) : fld v 43 32 < 4096 := fld_lt v 43 32

/-- A command that names no share, or one the monitor owns (R449, R504). -/
theorem shcmd_refused (h : rgF s .shstat 0 7 0 ≠ 1) (h1 : 2 ≤ op) (h2 : op ≤ 6) :
    (shState s (fld v 43 32) = 0 → rgF (shcmdGo s b op v) .shstat 0 7 0 = 0x12 ∧ RegsOnly [(.shcmd, 0), (.shstat, 0)] s (shcmdGo s b op v)) ∧
    (shState s (fld v 43 32) ≠ 0 → shSown s (fld v 43 32) = true → bySec b = false → rgF (shcmdGo s b op v) .shstat 0 7 0 = 0x20 ∧
      (shcmdGo s b op v).shares = s.shares ∧ (shcmdGo s b op v).queues = s.queues ∧ shState (shcmdGo s b op v) (fld v 43 32) = shState s (fld v 43 32)) := by
  have hlt := (fld_share_lt v).trans (show 4096 < 2 ^ 32 by decide)
  obtain ⟨hst, hown, _, _⟩ := shNoted_share (s := s) (op := op) (v := v) hlt
  refine ⟨fun h3 => ?_, fun h3 h4 h5 => ?_⟩
  · rw [shcmdGo_run h (by omega) (shRun_free h1 h2 (hst.trans h3))]
    exact ⟨rgF_setRgF_same _ _ _ _ _ _ (by decide) (by decide),
      ((shNoted_only s op v).mono (by simp)).trans (.setRgF (by decide) (by simp) ..)⟩
  · have hrun := shcmdGo_run h (by omega) (shRun_denied (c := shArgs s v) h1 h2 (fun h => h3 (hst.symm.trans h)) (hown.trans h4) h5)
    obtain ⟨u, hu⟩ : ∃ u, hlDenied (shNoted s op v) b 0x20 (regPa 0x200000) = u := ⟨_, rfl⟩
    have honly : { u with hlog := (shNoted s op v).hlog } = shNoted s op v := hu ▸ hlDevice_only ..
    have hkept : u.shares = s.shares ∧ u.queues = s.queues ∧ shState u (fld v 43 32) = shState (shNoted s op v) (fld v 43 32) := by
      refine ⟨?_, ?_, ?_⟩
      · exact (congrArg State.shares honly).trans rfl
      · exact (congrArg State.queues honly).trans rfl
      · have hst := congrArg (fun x : State => shState x (fld v 43 32)) honly
        exact hst
    rw [hu] at hrun
    rw [hrun]
    obtain ⟨k1, k2, k3⟩ := hkept
    exact ⟨rgF_setRgF_same _ _ _ _ _ _ (by decide) (by decide), k1, k2,
      (rgF_setRgF_name (by simp) (by decide) hlt).trans (k3.trans hst)⟩

/-- The status a command ends in changes nothing of a share or its queues. -/
theorem shEnded_kept (t : State) (x : Nat) {r : RegName} {i hi lo : Nat} (hi' : i < 2 ^ 32) (hr : r ≠ .shstat) :
    rgF (setRgF t .shstat 0 7 0 x) r i hi lo = rgF t r i hi lo := rgF_setRgF_name hr (by decide) hi'

theorem shcmd_enable (h : rgF s .shstat 0 7 0 ≠ 1) (hst : shState s (fld v 43 32) = 1 ∨ shState s (fld v 43 32) = 2)
    (hown : bySec b = true ∨ shSown s (fld v 43 32) = false) (hq : (share s (fld v 43 32)).qp0 + (share s (fld v 43 32)).nqp ≤ 16384) :
    ∃ t, shcmdGo s b 2 v = t ∧ rgF t .shstat 0 7 0 = 2 ∧ shState t (fld v 43 32) = 2 ∧ t.shares = s.shares ∧
      (shState s (fld v 43 32) = 1 → ∀ q ∈ shareQueues s (fld v 43 32), qState s q = 2 → qState t q = 1) := by
  have hlt := (fld_share_lt v).trans (show 4096 < 2 ^ 32 by decide)
  obtain ⟨hust, huown, hushare, huqueues⟩ := shNoted_share (s := s) (op := 2) (v := v) hlt
  have hrun := shcmdGo_run h (by decide) (shRun_life (c := shArgs s v) (w := regPa 0x200000) (by decide) (by decide)
    (show shState (shNoted s 2 v) (fld v 43 32) ≠ 0 by omega) (hown.imp_right huown.trans))
  have hn : (shArgs s v).n = fld v 43 32 := rfl
  rw [hn] at hrun
  refine ⟨_, hrun, ?_⟩
  rcases hst with hst | hst
  · have hlife : shLife (shNoted s 2 v) 2 (fld v 43 32) = (2, shEnable (shNoted s 2 v) (fld v 43 32)) := by
      unfold shLife
      dsimp only
      rw [if_pos rfl, if_pos (hust.trans hst)]
    obtain ⟨k1, k2, k3, _⟩ := shEnable_spec (s := shNoted s 2 v) hlt (hushare ▸ hq)
    rw [hlife]
    dsimp only
    generalize shEnable (shNoted s 2 v) (fld v 43 32) = t at k1 k2 k3 ⊢
    refine ⟨rgF_setRgF_same _ _ _ _ _ _ (by decide) (by decide), (shEnded_kept t 2 hlt (by decide)).trans k1, (congrArg State.shares k2).trans rfl,
      fun _ q hqm hqs => ?_⟩
    have hqlt := (mem_shareQueues_lt hq hqm).trans (show 16384 < 2 ^ 32 by decide)
    exact (shEnded_kept t 2 hqlt (by decide)).trans (k3 q (huqueues ▸ hqm) ((shNoted_rgF hqlt (by decide)).trans hqs))
  · have hlife : shLife (shNoted s 2 v) 2 (fld v 43 32) = (2, shNoted s 2 v) := by
      unfold shLife
      dsimp only
      rw [if_pos rfl, if_neg (by omega), if_pos (hust.trans hst)]
    rw [hlife]
    exact ⟨rgF_setRgF_same _ _ _ _ _ _ (by decide) (by decide), (shEnded_kept (shNoted s 2 v) 2 hlt (by decide)).trans (hust.trans hst), rfl, fun h1 => by omega⟩

/-- What the start of a shut-down of share n leaves. -/
def ShutBegun (s t : State) (n kind : Nat) : Prop :=
  rgF t .shstat 0 7 0 = 2 ∧ shState t n = 3 ∧ rgF t .shstate n 5 4 = kind ∧ rgF t .shstate n 63 32 = 0 ∧
    share t n = { share s n with wasEnabled := decide (shState s n = 2), sdAt := now s } ∧ ∀ q, q ∈ shareQueues s n → qState s q = 1 → qState t q = 2

theorem shcmd_shut {kind : Nat} (h : rgF s .shstat 0 7 0 ≠ 1) (hst : shState s (fld v 43 32) ≠ 0)
    (hown : bySec b = true ∨ shSown s (fld v 43 32) = false) (hq : (share s (fld v 43 32)).qp0 + (share s (fld v 43 32)).nqp ≤ 16384)
    (h1 : 2 ≤ op) (h2 : op ≤ 5) (hk : kind < 4)
    (hlife : ∀ u, shState u (fld v 43 32) = shState s (fld v 43 32) → shLife u op (fld v 43 32) = (2, startShut u (fld v 43 32) kind)) :
    ∃ t, shcmdGo s b op v = t ∧ ShutBegun s t (fld v 43 32) kind := by
  have hlt := (fld_share_lt v).trans (show 4096 < 2 ^ 32 by decide)
  obtain ⟨hust, huown, hushare, huqueues⟩ := shNoted_share (s := s) (op := op) (v := v) hlt
  have hrun := shcmdGo_run h (by omega) (shRun_life (c := shArgs s v) (w := regPa 0x200000) h1 h2
    (show shState (shNoted s op v) (fld v 43 32) ≠ 0 by omega) (hown.imp_right huown.trans))
  have hn : (shArgs s v).n = fld v 43 32 := rfl
  rw [hn, hlife _ hust] at hrun
  refine ⟨_, hrun, ?_⟩
  obtain ⟨k1, k2, k3, k4, k5⟩ := startShut_spec (s := shNoted s op v) hlt hk (hushare ▸ hq)
  rw [hust, hushare] at k4
  rw [huqueues] at k5
  dsimp only
  generalize startShut (shNoted s op v) (fld v 43 32) kind = t at k1 k2 k3 k4 k5 ⊢
  refine ⟨rgF_setRgF_same _ _ _ _ _ _ (by decide) (by decide), (shEnded_kept t 2 hlt (by decide)).trans k1, (shEnded_kept t 2 hlt (by decide)).trans k2,
    (shEnded_kept t 2 hlt (by decide)).trans k3, k4, fun q hqm hqs => ?_⟩
  have hqlt := (mem_shareQueues_lt hq hqm).trans (show 16384 < 2 ^ 32 by decide)
  exact (shEnded_kept t 2 hqlt (by decide)).trans (k5 q hqm ((shNoted_rgF hqlt (by decide)).trans hqs))

theorem shLife_disable {n : Nat} (h : shState s n = 2) : shLife s 3 n = (2, startShut s n 1) := by
  unfold shLife
  dsimp only
  rw [if_neg (by decide), if_pos rfl, if_neg (by omega), if_pos h]

theorem shLife_reset {n : Nat} (h : shState s n < 3) : shLife s 4 n = (2, startShut s n 2) := by
  unfold shLife
  dsimp only
  rw [if_neg (by decide), if_neg (by decide), if_pos rfl, if_pos h]

theorem shLife_remove {n : Nat} (h : shState s n < 3) : shLife s 5 n = (2, startShut s n 3) := by
  unfold shLife
  dsimp only
  rw [if_neg (by decide), if_neg (by decide), if_neg (by decide), if_pos h]

end

/-! ### BIND_QP (R452) -/

section
variable {s : State} {b : By} {v : Word} {n q kind target : Nat}

theorem shBind_closed (h1 : shState s n < 3) (h2 : (share s n).qp0 ≤ q) (h3 : q < (share s n).qp0 + (share s n).nqp) (h4 : kind ≤ 4)
    (h5 : kind = 1 → (share s n).vc0 ≤ target ∧ target < (share s n).vc0 + (share s n).nvc) (h6 : kind = 3 ∨ kind = 4 → target < 16)
    (h7 : rgF s .qcfg q 0 0 = 1) : shBind s n q kind target = (0x13, s) := by
  unfold shBind
  dsimp only
  rw [if_neg (by omega), if_neg (by simp; omega), if_pos h7]

theorem shBind_bound (h1 : shState s n < 3) (h2 : (share s n).qp0 ≤ q) (h3 : q < (share s n).qp0 + (share s n).nqp) (h4 : kind ≤ 4)
    (h5 : kind = 1 → (share s n).vc0 ≤ target ∧ target < (share s n).vc0 + (share s n).nvc)
    (h6 : kind = 3 ∨ kind = 4 → target < 16 ∧ macQueues (setQueue (setRgF s .qstat q 9 7 0) q {}) target < 4096) (h7 : rgF s .qcfg q 0 0 = 0) :
    shBind s n q kind target = (2, setQueue (setRgF s .qstat q 9 7 kind) q { share := some n, target := if kind = 0 ∨ kind = 2 then 0 else target }) := by
  unfold shBind
  dsimp only
  rw [if_neg (by omega), if_neg (by simp; omega), if_neg (by omega), if_neg (by omega)]

/-- A register numbered above SHCMD is read apart from it, whatever its index. -/
theorem shNoted_rg_above (s : State) (op : Nat) (v : Word) {r : RegName} (h : 71 < r.num) (i : Nat) : rg (shNoted s op v) r i = rg s r i := by
  have hkey : regKey r i ≠ regKey .shcmd 0 := by
    have hnum : RegName.shcmd.num = 71 := by decide
    rw [regKey, regKey, hnum]
    omega
  exact rg_setRg_ne hkey

theorem qKind_noted (s : State) (op : Nat) (v : Word) (p : Nat) : qKind (shNoted s op v) p = qKind s p :=
  congrArg (fld · 9 7) (shNoted_rg_above s op v (by decide) p)

theorem qKind_bindKind (s : State) (q p x : Nat) : qKind (setRgF s .qstat q 9 7 x) p = if p = q then x % 8 else qKind s p := by
  split
  case isTrue h =>
    rw [h]
    exact rgF_setRgF_same _ _ _ _ _ _ (by decide) (by decide)
  case isFalse h => exact rgF_setRgF_index h

theorem macQueues_noted (s : State) (op : Nat) (v : Word) (q target : Nat) :
    macQueues (setQueue (setRgF (shNoted s op v) .qstat q 9 7 0) q {}) target = macQueues (setQueue (setRgF s .qstat q 9 7 0) q {}) target := by
  have hkind : ∀ p, qKind (setQueue (setRgF (shNoted s op v) .qstat q 9 7 0) q {}) p = qKind (setQueue (setRgF s .qstat q 9 7 0) q {}) p := fun p =>
    (qKind_bindKind (shNoted s op v) q p 0).trans ((qKind_noted s op v p).symm ▸ (qKind_bindKind s q p 0).symm)
  have hqueues : (setQueue (setRgF (shNoted s op v) .qstat q 9 7 0) q {}).queues = (setQueue (setRgF s .qstat q 9 7 0) q {}).queues := rfl
  unfold macQueues
  rw [hqueues]
  simp only [hkind]

theorem shcmd_bind (h : rgF s .shstat 0 7 0 ≠ 1) (h0 : shState s (fld v 43 32) ≠ 0) (hown : bySec b = true ∨ shSown s (fld v 43 32) = false)
    (h1 : shState s (fld v 43 32) < 3) (h5 : fld (rg s .sharg1 0) 24 14 = 0) (h6 : fld (rg s .sharg0 0) 31 19 = 0) (h7 : fld (rg s .sharg0 0) 12 0 = 0)
    {n q kind target : Nat} (hn : n = fld v 43 32) (hq : q = fld (rg s .sharg1 0) 13 0) (hk : kind = fld (rg s .sharg0 0) 18 16)
    (ht : target = fld (rg s .sharg0 0) 42 32) (h2 : (share s n).qp0 ≤ q) (h3 : q < (share s n).qp0 + (share s n).nqp)
    (h8 : kind = 1 → (share s n).vc0 ≤ target ∧ target < (share s n).vc0 + (share s n).nvc) (h4 : kind ≤ 4)
    (h9 : kind = 3 ∨ kind = 4 → target < 16 ∧ macQueues (setQueue (setRgF s .qstat q 9 7 0) q {}) target < 4096) :
    (rgF s .qcfg q 0 0 = 0 → ∃ t, shcmdGo s b 6 v = t ∧ rgF t .shstat 0 7 0 = 2 ∧ qKind t q = kind ∧
      queue t q = { share := some n, target := if kind = 0 ∨ kind = 2 then 0 else target }) ∧
    (rgF s .qcfg q 0 0 = 1 → ∃ t, shcmdGo s b 6 v = t ∧ rgF t .shstat 0 7 0 = 0x13 ∧ t.queues = s.queues ∧ qKind t q = qKind s q) := by
  have hqlt : q < 2 ^ 32 := hq ▸ (fld_lt (rg s .sharg1 0) 13 0).trans (by decide)
  have hlt := (fld_share_lt v).trans (show 4096 < 2 ^ 32 by decide)
  obtain ⟨hust, huown, hushare, _⟩ := shNoted_share (s := s) (op := 6) (v := v) hlt
  obtain ⟨u, hu⟩ : ∃ u, shNoted s 6 v = u := ⟨_, rfl⟩
  have hmac := macQueues_noted s 6 v q target
  have hkind := qKind_noted s 6 v q
  have hqcfg : rgF (shNoted s 6 v) .qcfg q 0 0 = rgF s .qcfg q 0 0 := shNoted_rgF hqlt (by decide)
  have huqueues : (shNoted s 6 v).queues = s.queues := rfl
  have hrun := shcmdGo_run h (by decide) (shRun_bind (c := shArgs s v) (w := regPa 0x200000)
    (show shState (shNoted s 6 v) (fld v 43 32) ≠ 0 by omega) (hown.imp_right huown.trans) h5 h6 h7)
  have hargs : (shArgs s v).n = n ∧ fld (shArgs s v).a1 13 0 = q ∧ fld (shArgs s v).a0 18 16 = kind ∧ fld (shArgs s v).a0 42 32 = target :=
    ⟨hn.symm, hq.symm, hk.symm, ht.symm⟩
  obtain ⟨e1, e2, e3, e4⟩ := hargs
  rw [e1, e2, e3, e4] at hrun
  rw [← hn] at hust hushare h1
  rw [hu] at hust hushare hmac hkind hqcfg hrun huqueues
  rw [← hushare] at h2 h3 h8
  rw [← hmac] at h9
  refine ⟨fun hen => ⟨_, hrun, ?_⟩, fun hen => ⟨_, hrun, ?_⟩⟩
  · obtain ⟨x, hx⟩ : ∃ x : Queue, { share := some n, target := if kind = 0 ∨ kind = 2 then 0 else target } = x := ⟨_, rfl⟩
    rw [shBind_bound (hust ▸ h1) h2 h3 h4 h8 h9 (hqcfg.trans hen), hx]
    have hset : tget {} q (tset {} q x (setRgF u .qstat q 9 7 kind).queues) = x := tget_tset_same _
    refine ⟨rgF_setRgF_same _ _ _ _ _ _ (by decide) (by decide), ?_, hset⟩
    refine (shEnded_kept (setQueue (setRgF u .qstat q 9 7 kind) q x) 2 hqlt (by decide)).trans ((qKind_bindKind u q q kind).trans ?_)
    rw [if_pos rfl]
    omega
  · rw [shBind_closed (hust ▸ h1) h2 h3 h4 h8 (fun h => (h9 h).1) (hqcfg.trans hen)]
    exact ⟨rgF_setRgF_same _ _ _ _ _ _ (by decide) (by decide), huqueues, (shEnded_kept u 0x13 hqlt (by decide)).trans hkind⟩

end

/-! ### CREATE (R451) -/

section
variable {s : State} {b : By} {v : Word}

/-- What CREATE asks of the pools and finds there. -/
structure CreateFits (s : State) (a0 a1 a2 : Word) (m q0 v0 i0 z0 : Nat) : Prop where
  lowest : (List.range 4096).find? (fun m => shState s m == 0) = some m
  most : fld a0 42 32 ≤ 1024 ∧ fld a0 31 16 ≤ 32768 ∧ fld a0 12 0 ≤ 4096 ∧ fld a1 24 0 ≤ 16777216
  table : bit a2 40 = true → fld a2 39 0 ≠ 0
  pools : fld a0 62 48 ≤ 16384 - takenSum s (·.nqp) ∧ fld a0 42 32 ≤ 1024 - takenSum s (·.nvc) ∧ fld a0 31 16 ≤ vecFreeCount s ∧
    fld a0 12 0 ≤ 4096 - takenSum s (·.credits) ∧ fld a1 24 0 ≤ sessPool s - takenSum s (·.nsess)
  queues : firstGap (s.shares.map (fun p => (p.2.qp0, p.2.nqp))) 16384 (fld a0 62 48) = some q0
  counters : firstGap (s.shares.map (fun p => (p.2.vc0, p.2.nvc))) 1024 (fld a0 42 32) = some v0
  vectors : firstRun (vecFree s) 32768 (fld a0 31 16) = some i0
  sessions : firstGap (s.shares.map (fun p => (p.2.sess0, p.2.nsess))) (sessPool s) (fld a1 24 0) = some z0

/-- The record of a share created. -/
def createdShare (a0 a1 a2 : Word) (q0 v0 i0 z0 : Nat) : Share :=
  ⟨q0, fld a0 62 48, v0, fld a0 42 32, i0, fld a0 31 16, z0, fld a1 24 0, fld a0 12 0, fld a2 63 48, bit a2 41, bit a2 40, fld a2 39 0, false, false, 0⟩

theorem shCreate_fits {c : ShCmd} {m q0 v0 i0 z0 : Nat} (h : CreateFits s c.a0 c.a1 c.a2 m q0 v0 i0 z0) :
    shCreate s c = ({ status := 2, r0 := BitVec.ofNat 64 (m * 2 ^ 48 + q0 * 2 ^ 32 + v0), r1 := BitVec.ofNat 64 (i0 * 2 ^ 48 + z0) },
      setRg (setShare s m (createdShare c.a0 c.a1 c.a2 q0 v0 i0 z0)) .shstate m (BitVec.ofNat 64 (c.sown.toNat * 2 ^ 23 + c.partid % 16 * 2 ^ 16 + 1))) := by
  obtain ⟨hlow, ⟨m1, m2, m3, m4⟩, htable, ⟨p1, p2, p3, p4, p5⟩, hqueues, hcounters, hvectors, hsessions⟩ := h
  unfold shCreate
  dsimp only
  rw [if_neg, hlow]
  · dsimp only
    rw [if_neg (by omega), hqueues, hcounters, hvectors, hsessions]
    rfl
  · rintro (h | h | h | h | h | h)
    · omega
    · omega
    · omega
    · omega
    · omega
    · exact htable h.2.1 h.2.2

/-- The fields of SHCMD noted change nothing CREATE looks at. -/
theorem CreateFits.noted {a0 a1 a2 : Word} {m q0 v0 i0 z0 : Nat} (h : CreateFits s a0 a1 a2 m q0 v0 i0 z0) (op : Nat) (v : Word) :
    CreateFits (shNoted s op v) a0 a1 a2 m q0 v0 i0 z0 := by
  have hstate : shState (shNoted s op v) = shState s := funext fun k => congrArg (fld · 2 0) (shNoted_rg_above s op v (by decide) k)
  have hvec : vecFree (shNoted s op v) = vecFree s := funext fun k => by
    rw [vecFree, vecFree, shNoted_rg_above s op v (by decide) k]
    rfl
  have hcount : vecFreeCount (shNoted s op v) = vecFreeCount s := by rw [vecFreeCount, hvec, vecFreeCount]
  have hpool : sessPool (shNoted s op v) = sessPool s := by
    rw [sessPool, shNoted_rgF (by decide) (by decide), shNoted_rgF (by decide) (by decide), sessPool]
  have htaken : takenSum (shNoted s op v) = takenSum s := rfl
  obtain ⟨h1, h2, h3, h4, h5, h6, h7, h8⟩ := h
  refine ⟨?_, h2, h3, ?_, h5, h6, ?_, ?_⟩
  · rw [hstate]
    exact h1
  · rw [hcount, hpool, htaken]
    exact h4
  · rw [hvec]
    exact h7
  · rw [hpool]
    exact h8

theorem shRun_create {op : Nat} {c : ShCmd} {w : Word} (hop : op = 1) (h : bySec b = true ∨ c.sown = false) : shRun s b op c w = shCreate s c := by
  subst hop
  have hown : ¬((!(bySec b)) = true ∧ (1 = 1 ∧ c.sown = true ∨ 1 ≠ 1 ∧ shState s c.n ≠ 0 ∧ shSown s c.n = true)) := by
    rintro ⟨h1, h2⟩
    rcases h with h | h
    · rw [h] at h1
      cases h1
    · rcases h2 with h2 | h2
      · rw [h] at h2
        cases h2.2
      · exact absurd rfl h2.1
  rw [shRun, if_neg (by decide), if_neg hown, if_pos rfl]

/-- The word of SHSTATE a share is created with. -/
theorem createdState (sown : Bool) (p : Nat) (hp : p < 16) : let x : Word := BitVec.ofNat 64 (sown.toNat * 2 ^ 23 + p % 16 * 2 ^ 16 + 1)
    fld x 2 0 = 1 ∧ (fld x 23 23 == 1) = sown ∧ fld x 19 16 = p := by
  dsimp only
  rw [fld_ofNat, fld_ofNat, fld_ofNat]
  cases sown with
  | true => exact ⟨by simp; omega, by simp; omega, by simp; omega⟩
  | false => exact ⟨by simp; omega, by simp; omega, by simp; omega⟩

/-- A share created (R451). -/
theorem shcmd_create {m q0 v0 i0 z0 : Nat} (h : rgF s .shstat 0 7 0 ≠ 1) (hown : bySec b = true ∨ bit v 16 = false)
    (hfits : CreateFits s (rg s .sharg0 0) (rg s .sharg1 0) (rg s .sharg2 0) m q0 v0 i0 z0) :
    ∃ t, shcmdGo s b 1 v = t ∧ rgF t .shstat 0 7 0 = 2 ∧ shState t m = 1 ∧ shSown t m = bit v 16 ∧ rgF t .shstate m 19 16 = fld v 15 12 ∧
      rg t .shres0 0 = BitVec.ofNat 64 (m * 2 ^ 48 + q0 * 2 ^ 32 + v0) ∧ rg t .shres1 0 = BitVec.ofNat 64 (i0 * 2 ^ 48 + z0) ∧
      share t m = createdShare (rg s .sharg0 0) (rg s .sharg1 0) (rg s .sharg2 0) q0 v0 i0 z0 ∧ ∀ k, k ≠ m → share t k = share s k := by
  have hm : m < 2 ^ 32 := (List.mem_range.mp (List.mem_of_find?_eq_some hfits.lowest)).trans (by decide)
  obtain ⟨u, hu⟩ : ∃ u, shNoted s 1 v = u := ⟨_, rfl⟩
  have hushares : u.shares = s.shares := hu ▸ rfl
  have hufits := hfits.noted 1 v
  have hargs : shArgs u v = shArgs s v := by
    rw [← hu]
    unfold shArgs
    rw [shNoted_rg (by decide) (by decide), shNoted_rg (by decide) (by decide), shNoted_rg (by decide) (by decide)]
  rw [hu] at hufits
  have hrun0 : shRun u b 1 (shArgs s v) (regPa 0x200000) = _ := (shRun_create rfl hown).trans (shCreate_fits (c := shArgs s v) hufits)
  have hcargs : (shArgs s v).a0 = rg s .sharg0 0 ∧ (shArgs s v).a1 = rg s .sharg1 0 ∧ (shArgs s v).a2 = rg s .sharg2 0 ∧ (shArgs s v).sown = bit v 16 ∧
    (shArgs s v).partid = fld v 15 12 := ⟨rfl, rfl, rfl, rfl, rfl⟩
  obtain ⟨e1, e2, e3, e4, e5⟩ := hcargs
  rw [e1, e2, e3, e4, e5] at hrun0
  obtain ⟨x, hx⟩ : ∃ x, createdShare (rg s .sharg0 0) (rg s .sharg1 0) (rg s .sharg2 0) q0 v0 i0 z0 = x := ⟨_, rfl⟩
  obtain ⟨y, hy⟩ : ∃ y : Word, BitVec.ofNat 64 ((bit v 16).toNat * 2 ^ 23 + fld v 15 12 % 16 * 2 ^ 16 + 1) = y := ⟨_, rfl⟩
  obtain ⟨y1, y2, y3⟩ := createdState (bit v 16) (fld v 15 12) (fld_lt v 15 12)
  obtain ⟨r0, hr0⟩ : ∃ r0 : Word, BitVec.ofNat 64 (m * 2 ^ 48 + q0 * 2 ^ 32 + v0) = r0 := ⟨_, rfl⟩
  obtain ⟨r1, hr1⟩ : ∃ r1 : Word, BitVec.ofNat 64 (i0 * 2 ^ 48 + z0) = r1 := ⟨_, rfl⟩
  rw [hy] at y1 y2 y3
  rw [hx, hy, hr0, hr1] at hrun0
  rw [hx, hr0, hr1]
  obtain ⟨w, hw⟩ : ∃ w, setRg (setShare u m x) .shstate m y = w := ⟨_, rfl⟩
  have hrun : shcmdGo s b 1 v = setRgF (setRg (setRg w .shres0 0 r0) .shres1 0 r1) .shstat 0 7 0 2 := by
    rw [shcmdGo_eq h]
    rw [hu, hargs, hrun0, if_pos ⟨rfl, rfl⟩, hw]
  have hset : tget {} m (tset {} m x u.shares) = x := tget_tset_same _
  have hwshares : w.shares = tset {} m x u.shares := hw ▸ rfl
  have hshares : ∀ k, share (setRgF (setRg (setRg w .shres0 0 r0) .shres1 0 r1) .shstat 0 7 0 2) k = tget {} k w.shares := fun _ => rfl
  have hst : rg (setRgF (setRg (setRg w .shres0 0 r0) .shres1 0 r1) .shstat 0 7 0 2) .shstate m = y := by
    refine (rg_setRg_other (by decide) hm (by simp)).trans ((rg_setRg_other (by decide) hm (by simp)).trans ((rg_setRg_other (by decide) hm (by simp)).trans ?_))
    rw [← hw]
    exact rg_setRg_same ..
  refine ⟨_, hrun, rgF_setRgF_same _ _ _ _ _ _ (by decide) (by decide), ?_, ?_, ?_, ?_, ?_, ?_, fun k hk => ?_⟩
  · rw [shState, rgF, hst, y1]
  · rw [shSown, rgF, hst, y2]
  · rw [rgF, hst, y3]
  · refine (rg_setRg_other (by decide) (by decide) (by simp)).trans ((rg_setRg_other (by decide) (by decide) (by simp)).trans (rg_setRg_same ..))
  · exact (rg_setRg_other (by decide) (by decide) (by simp)).trans (rg_setRg_same ..)
  · rw [hshares, hwshares, hset]
  · rw [hshares, hwshares, tget_tset_ne hk, hushares, share]

end

/-! ### Queues reset -/

/-- The registers of a queue's doorbell page. -/
def pageNames : List RegName := [.qcfg, .sqbase, .cqbase, .qirq, .qstat]

/-- From s to t only queues and the registers of their doorbell pages changed. -/
structure PagesOnly (s t : State) : Prop where
  rest : { t with regs := s.regs, queues := s.queues } = s
  regs : ∀ r i, i < 2 ^ 32 → r ∉ pageNames → rg t r i = rg s r i

section
variable {s t u : State}

theorem PagesOnly.refl (s : State) : PagesOnly s s := ⟨rfl, fun _ _ _ _ => rfl⟩

theorem PagesOnly.trans (h1 : PagesOnly s t) (h2 : PagesOnly t u) : PagesOnly s u := by
  refine ⟨?_, fun r i hi hr => (h2.regs r i hi hr).trans (h1.regs r i hi hr)⟩
  calc { u with regs := s.regs, queues := s.queues }
      = { ({ u with regs := t.regs, queues := t.queues } : State) with regs := s.regs, queues := s.queues } := rfl
    _ = { t with regs := s.regs, queues := s.queues } := by rw [h2.rest]
    _ = s := h1.rest

theorem PagesOnly.setRg {r : RegName} (hr : r ∈ pageNames) {i : Nat} (hi : i < 2 ^ 32) (s : State) (v : Word) : PagesOnly s (setRg s r i v) :=
  ⟨rfl, fun _ _ hi' hr' => rg_setRg_other hi hi' fun he => hr' ((Prod.mk.inj he).1 ▸ hr)⟩

theorem PagesOnly.setQueue (s : State) (q : Nat) (x : Queue) : PagesOnly s (setQueue s q x) := ⟨rfl, fun _ _ _ _ => rfl⟩

theorem PagesOnly.foldl {α : Type} {f : State → α → State} {l : List α} (s : State) (hf : ∀ u a, a ∈ l → PagesOnly u (f u a)) : PagesOnly s (l.foldl f s) :=
  List.foldlRecOn (motive := PagesOnly s) _ _ (PagesOnly.refl s) fun u hu a ha => hu.trans (hf u a ha)

/-- What each step brings about and no later one undoes holds in the end. -/
theorem foldl_each {α σ : Type} {f : σ → α → σ} {P : α → σ → Prop} : ∀ {l : List α} (s : σ), (∀ s a, a ∈ l → P a (f s a)) →
    (∀ s a b, a ∈ l → b ∈ l → P b s → P b (f s a)) → ∀ a ∈ l, P a (l.foldl f s)
  | [], _, _, _ => fun _ h => (by cases h)
  | a :: l, s, hset, hkeep => by
    intro b hb
    rcases List.mem_cons.mp hb with rfl | hb
    · rw [List.foldl_cons]
      exact List.foldlRecOn (motive := P b) _ _ (hset s b (by simp)) fun u hu c hc => hkeep u c b (by simp [hc]) (by simp) hu
    · exact foldl_each (f s a) (fun s c hc => hset s c (by simp [hc])) (fun s c d hc hd => hkeep s c d (by simp [hc]) (by simp [hd])) b hb

theorem rg_pageReset {q p : Nat} (hq : q < 2 ^ 32) (hp : p < 2 ^ 32) {r : RegName} : ∀ {l : List RegName} (s : State), (∀ x ∈ l, (r, p) ≠ (x, q)) →
    rg (l.foldl (fun s x => setRg s x q (regReset x)) s) r p = rg s r p
  | [], _, _ => rfl
  | x :: l, s, h => (rg_pageReset hq hp (l := l) (setRg s x q (regReset x)) fun y hy => h y (by simp [hy])).trans (rg_setRg_other hq hp (h x (by simp)))

/-- The page of a queue takes its reset values, and its kind stays (R453). -/
theorem resetQueue_spec {q : Nat} (hq : q < 2 ^ 32) (s : State) : rg (resetQueue s q) .qcfg q = regReset .qcfg ∧ (queue (resetQueue s q) q).tail = 0 ∧
    PagesOnly s (resetQueue s q) ∧ (∀ p, p ≠ q → queue (resetQueue s q) p = queue s p) ∧
    (∀ p, p < 2 ^ 32 → qKind (resetQueue s q) p = qKind s p) ∧ (∀ p, p < 2 ^ 32 → p ≠ q → rg (resetQueue s q) .qcfg p = rg s .qcfg p) := by
  obtain ⟨u, hu⟩ : ∃ u, [RegName.qcfg, .sqbase, .cqbase, .qirq, .qstat].foldl (fun s r => setRg s r q (regReset r)) s = u := ⟨_, rfl⟩
  have huq : u.queues = s.queues := hu ▸ rfl
  have huqueue : ∀ p, queue u p = queue s p := fun p => congrArg (fun z => tget ({} : Queue) p z) huq
  have hucfg : rg u .qcfg q = regReset .qcfg := by
    rw [← hu, List.foldl_cons]
    exact (rg_pageReset hq hq _ (by simp)).trans (rg_setRg_same ..)
  have huother : ∀ r p, p < 2 ^ 32 → p ≠ q → rg u r p = rg s r p := fun r p hp hpq => hu ▸ rg_pageReset hq hp s (by simp [hpq])
  have hupages : PagesOnly s u := hu ▸ PagesOnly.foldl s fun v r hr => .setRg hr hq v _
  have hrun : resetQueue s q = setQueue (setRgF u .qstat q 9 7 (qKind s q)) q { share := (queue s q).share, target := (queue s q).target } := by
    unfold resetQueue
    dsimp only
    rw [hu]
  obtain ⟨x, hx, hxt⟩ : ∃ x : Queue, { share := (queue s q).share, target := (queue s q).target } = x ∧ x.tail = 0 := ⟨_, rfl, rfl⟩
  have hset : queue (setQueue (setRgF u .qstat q 9 7 (qKind s q)) q x) q = x := queue_setQueue_same ..
  rw [hrun, hx, hset]
  refine ⟨(rg_setRg_other hq hq (by simp)).trans hucfg, hxt, hupages.trans ((PagesOnly.setRg (by decide) hq u _).trans (.setQueue _ q x)), fun p hp => ?_,
    fun p hp => ?_, fun p hp hpq => (rg_setRg_other hq hp (by simp)).trans (huother _ p hp hpq)⟩
  · exact (queue_setQueue_ne hp).trans (huqueue p)
  · refine (qKind_bindKind u q p (qKind s q)).trans ?_
    split
    case isTrue h =>
      rw [h]
      exact Nat.mod_eq_of_lt (fld_lt _ 9 7)
    case isFalse h => exact congrArg (fld · 9 7) (huother _ p hp h)

/-- The queues of a share reset (R453). -/
theorem resetQueues_spec {l : List Nat} (hl : ∀ q ∈ l, q < 2 ^ 32) (s : State) : PagesOnly s (l.foldl resetQueue s) ∧
    ∀ q ∈ l, rg (l.foldl resetQueue s) .qcfg q = regReset .qcfg ∧ (queue (l.foldl resetQueue s) q).tail = 0 ∧ qKind (l.foldl resetQueue s) q = qKind s q := by
  refine ⟨PagesOnly.foldl s fun u q hq => (resetQueue_spec (hl q hq) u).2.2.1, fun q hq => ?_⟩
  have heach := foldl_each (f := resetQueue) (P := fun q t => rg t .qcfg q = regReset .qcfg ∧ (queue t q).tail = 0) (l := l) s
    (fun u p hp => ⟨(resetQueue_spec (hl p hp) u).1, (resetQueue_spec (hl p hp) u).2.1⟩) (fun u p b hp hbl hb => ?_) q hq
  · refine ⟨heach.1, heach.2, ?_⟩
    exact List.foldlRecOn (motive := fun t => qKind t q = qKind s q) _ _ rfl fun u hu p hp =>
      ((resetQueue_spec (hl p hp) u).2.2.2.2.1 q (hl q hq)).trans hu
  · obtain ⟨h1, h2, _, h4, _, h6⟩ := resetQueue_spec (hl p hp) u
    by_cases hbp : b = p
    · subst hbp
      exact ⟨h1, h2⟩
    · rw [h4 b hbp, h6 b (hl b hbl) hbp]
      exact hb

end

/-! ### The end of a shut-down (R453) -/

section
variable {s : State} {n : Nat}

/-- The share's state once a DISABLE or RESET has ended: running when it was, or was told to, else READY. -/
def shDone (s : State) (n : Nat) (on : Bool) : State :=
  if on = true then shEnable (setRgF (setRgF s .shstate n 5 4 0) .shstate n 8 8 0) n
  else setRgF (setRgF (setRgF s .shstate n 5 4 0) .shstate n 8 8 0) .shstate n 2 0 1

theorem shDone_spec (hn : n < 2 ^ 32) (h : (share s n).qp0 + (share s n).nqp ≤ 16384) (on : Bool) :
    shState (shDone s n on) n = (if on = true then 2 else 1) ∧ rgF (shDone s n on) .shstate n 5 4 = 0 ∧ { shDone s n on with regs := s.regs } = s ∧
      (∀ q, q < 2 ^ 32 → rg (shDone s n on) .qcfg q = rg s .qcfg q ∧ qKind (shDone s n on) q = qKind s q) := by
  obtain ⟨u, hu⟩ : ∃ u, setRgF (setRgF s .shstate n 5 4 0) .shstate n 8 8 0 = u := ⟨_, rfl⟩
  have hukind : rgF u .shstate n 5 4 = 0 := by
    rw [← hu]
    exact (rgF_setRgF_field _ _ _ _ _ _ _ _ (by decide) (by decide) (by decide)).trans (rgF_setRgF_same _ _ _ _ _ _ (by decide) (by decide))
  have hurest : { u with regs := s.regs } = s := hu ▸ rfl
  have huregs : ∀ r i, i < 2 ^ 32 → r ≠ .shstate → rg u r i = rg s r i := fun r i hi hr => by
    rw [← hu]
    exact (rg_setRg_other hn hi fun he => hr (Prod.mk.inj he).1).trans (rg_setRg_other hn hi fun he => hr (Prod.mk.inj he).1)
  have hushare : share u n = share s n := hu ▸ rfl
  unfold shDone
  rw [hu]
  cases on with
  | true =>
    obtain ⟨k1, k2, _, k4, k5, k6⟩ := shEnable_spec (s := u) hn (hushare ▸ h)
    rw [if_pos rfl, if_pos rfl]
    generalize shEnable u n = t at k1 k2 k4 k5 k6 ⊢
    refine ⟨k1, (k6 5 4 (by decide)).trans hukind, ?_, fun q hq => ⟨(k4 .qcfg q hq (by decide) (by decide)).trans (huregs _ q hq (by decide)),
      (k5 q 9 7 hq (by decide)).trans (congrArg (fld · 9 7) (huregs .qstat q hq (by decide)))⟩⟩
    calc { t with regs := s.regs } = { ({ t with regs := u.regs } : State) with regs := s.regs } := rfl
      _ = { u with regs := s.regs } := by rw [k2]
      _ = s := hurest
  | false =>
    rw [if_neg (by decide), if_neg (by decide)]
    refine ⟨rgF_setRgF_same _ _ _ _ _ _ (by decide) (by decide),
      (rgF_setRgF_field _ _ _ _ _ _ _ _ (by decide) (by decide) (by decide)).trans hukind, hurest, fun q hq => ?_⟩
    have hq2 : ∀ r, r ≠ .shstate → rg (setRgF u .shstate n 2 0 1) r q = rg s r q := fun r hr =>
      (rg_setRg_other hn hq fun he => hr (Prod.mk.inj he).1).trans (huregs r q hq hr)
    exact ⟨hq2 _ (by decide), congrArg (fld · 9 7) (hq2 .qstat (by decide))⟩

section
variable (h1 : shState s n = 3) (h2 : ∀ q ∈ shareQueues s n, (queue s q).items = [])
include h1 h2

theorem shutComplete_due : ¬(shState s n ≠ 3 ∨ (!(shareQueues s n).all (fun q => (queue s q).items.isEmpty)) = true) := by
  rintro (h | h)
  · exact h h1
  · rw [Bool.not_eq_true', ← Bool.not_eq_true, List.all_eq_true] at h
    exact h fun q hq => by rw [h2 q hq]; rfl

theorem shutComplete_disable (h3 : rgF s .shstate n 5 4 = 1) (h4 : rgF s .shstate n 8 8 = 0) : shutComplete s n = raiseSrc (shDone s n false) 914 := by
  unfold shutComplete
  dsimp only
  rw [if_neg (shutComplete_due h1 h2), if_pos h3, if_pos h3, h4]
  rfl

theorem shutComplete_reset (h3 : rgF s .shstate n 5 4 = 2) (h4 : rgF s .shstate n 8 8 = 0) :
    shutComplete s n = raiseSrc (shDone ((shareQueues s n).foldl resetQueue (clearSessions s n)) n (share s n).wasEnabled) 914 := by
  unfold shutComplete
  dsimp only
  rw [if_neg (shutComplete_due h1 h2), h3, if_neg (show ¬(2 : Nat) = 1 by decide), if_neg (show ¬(2 : Nat) = 1 by decide), if_pos rfl, h4]
  rfl

theorem shutComplete_remove (h3 : rgF s .shstate n 5 4 = 3) : shutComplete s n = raiseSrc (freeShare (clearSessions s n) n) 914 := by
  unfold shutComplete
  dsimp only
  rw [if_neg (shutComplete_due h1 h2), h3, if_neg (show ¬(3 : Nat) = 1 by decide), if_neg (show ¬(3 : Nat) = 1 by decide), if_neg (show ¬(3 : Nat) = 2 by decide)]

end

end

section
variable {s t : State} {n : Nat}

/-- The event of a shut-down's end. -/
theorem raised_shut (t : State) (hn : n < 2 ^ 32) : bit (rg (raiseSrc t 914) .intsrc 914) 1 = true ∧ shState (raiseSrc t 914) n = shState t n ∧
    rgF (raiseSrc t 914) .shstate n 5 4 = rgF t .shstate n 5 4 :=
  ⟨bit_raiseSrc (by decide), congrArg (fld · 2 0) (rg_raiseSrc (by decide) hn (by simp)), congrArg (fld · 5 4) (rg_raiseSrc (by decide) hn (by simp))⟩

/-- What clearing the sessions keeps. -/
theorem clearSessions_kept (s : State) (n : Nat) : (clearSessions s n).regs = s.regs ∧ (clearSessions s n).shares = s.shares ∧
    (clearSessions s n).queues = s.queues := ⟨rfl, rfl, rfl⟩

theorem shutReset_spec (hn : n < 2 ^ 32) (hq : (share s n).qp0 + (share s n).nqp ≤ 16384) (on : Bool) :
    let t := raiseSrc (shDone ((shareQueues s n).foldl resetQueue (clearSessions s n)) n on) 914
    shState t n = (if on = true then 2 else 1) ∧ bit (rg t .intsrc 914) 1 = true ∧ t.shares = s.shares ∧
      ∀ q ∈ shareQueues s n, rg t .qcfg q = regReset .qcfg ∧ qKind t q = qKind s q ∧ (queue t q).tail = 0 := by
  dsimp only
  have hl : ∀ q ∈ shareQueues s n, q < 2 ^ 32 := fun q hm => (mem_shareQueues_lt hq hm).trans (by decide)
  obtain ⟨hregs, hshares, _⟩ := clearSessions_kept s n
  generalize clearSessions s n = u at hregs hshares ⊢
  obtain ⟨⟨hrest, _⟩, heach⟩ := resetQueues_spec hl u
  generalize (shareQueues s n).foldl resetQueue u = v at hrest heach ⊢
  have hvshares : v.shares = s.shares := (congrArg State.shares hrest).trans hshares
  have hkind : ∀ q, qKind u q = qKind s q := fun q => congrArg (fun r => fld (tget (regResetAt .qstat q) (regKey .qstat q) r) 9 7) hregs
  have hvshare : share v n = share s n := congrArg (fun z => tget ({} : Share) n z) hvshares
  obtain ⟨k1, _, k3, k4⟩ := shDone_spec (s := v) hn (hvshare ▸ hq) on
  generalize shDone v n on = w at k1 k3 k4 ⊢
  have hwqueues : w.queues = v.queues := by
    have he := congrArg State.queues k3
    exact he
  have hwq : ∀ q, queue w q = queue v q := fun q => congrArg (fun z => tget ({} : Queue) q z) hwqueues
  have hwshares : w.shares = v.shares := by
    have he := congrArg State.shares k3
    exact he
  obtain ⟨r1, r2, _⟩ := raised_shut w hn
  refine ⟨r2.trans k1, r1, hwshares.trans hvshares, fun q hm => ?_⟩
  obtain ⟨e1, e2, e3⟩ := heach q hm
  obtain ⟨d1, d2⟩ := k4 q (hl q hm)
  have hraise : ∀ r, r ≠ .intsrc → rg (raiseSrc w 914) r q = rg w r q := fun r hr => rg_raiseSrc (by decide) (hl q hm) fun he => hr (Prod.mk.inj he).1
  refine ⟨(hraise .qcfg (by decide)).trans (d1.trans e1), (congrArg (fld · 9 7) (hraise .qstat (by decide))).trans (d2.trans (e3.trans (hkind q))), ?_⟩
  exact (congrArg Queue.tail (hwq q)).trans e2

theorem unbind_spec (w : State) (q : Nat) : qKind (setQueue (setRgF w .qstat q 9 7 0) q {}) q = 0 ∧ queue (setQueue (setRgF w .qstat q 9 7 0) q {}) q = {} ∧
    ∀ p, p ≠ q → qKind (setQueue (setRgF w .qstat q 9 7 0) q {}) p = qKind w p ∧ queue (setQueue (setRgF w .qstat q 9 7 0) q {}) p = queue w p :=
  ⟨(qKind_bindKind w q q 0).trans (if_pos rfl), queue_setQueue_same (setRgF w .qstat q 9 7 0) q {},
    fun p hp => ⟨(qKind_bindKind w q p 0).trans (if_neg hp), queue_setQueue_ne (s := setRgF w .qstat q 9 7 0) hp⟩⟩

/-- A queue of a share that is gone: unbound, and empty. -/
theorem unbound_each {l : List Nat} (hl : ∀ q ∈ l, q < 2 ^ 32) (s : State) : ∀ q ∈ l,
    qKind (l.foldl (fun s q => setQueue (setRgF (resetQueue s q) .qstat q 9 7 0) q {}) s) q = 0 ∧
      queue (l.foldl (fun s q => setQueue (setRgF (resetQueue s q) .qstat q 9 7 0) q {}) s) q = {} := by
  refine foldl_each (P := fun q t => qKind t q = 0 ∧ queue t q = {}) s (fun u q _ => ?_) fun u p q hp hq h => ?_
  · obtain ⟨h1, h2, _⟩ := unbind_spec (resetQueue u q) q
    exact ⟨h1, h2⟩
  · obtain ⟨_, _, _, hqueue, hkind, _⟩ := resetQueue_spec (hl p hp) u
    generalize resetQueue u p = w at hqueue hkind ⊢
    obtain ⟨h1, h2, h3⟩ := unbind_spec w p
    by_cases hqp : q = p
    · subst hqp
      exact ⟨h1, h2⟩
    · obtain ⟨k1, k2⟩ := h3 q hqp
      exact ⟨k1.trans ((hkind q (hl q hq)).trans h.1), k2.trans ((hqueue q hqp).trans h.2)⟩

/-- The vectors of a share that is gone take their reset values; nothing else changes. -/
theorem vectors_each {k m : Nat} (hk : k + m ≤ 2 ^ 32) (s : State) :
    let t := (List.range m).foldl (fun s i => setRg (setRg s .msictl (k + i) (regReset .msictl)) .msipost (k + i) 0) s
    (∀ j, j < m → rg t .msictl (k + j) = regReset .msictl) ∧ t.queues = s.queues ∧
      ∀ r i, i < 2 ^ 32 → r ≠ .msictl → r ≠ .msipost → rg t r i = rg s r i := by
  dsimp only
  refine ⟨fun j hj => ?_, ?_, fun r i hi h1 h2 => ?_⟩
  · refine foldl_each (P := fun j t => rg t .msictl (k + j) = regReset .msictl) s (fun u i hi => ?_) (fun u i i' hi hi' h => ?_) j (List.mem_range.mpr hj)
    · have := List.mem_range.mp hi
      exact (rg_setRg_other (by omega) (by omega) (by simp)).trans (rg_setRg_same ..)
    · have := List.mem_range.mp hi
      have := List.mem_range.mp hi'
      refine (rg_setRg_other (by omega) (by omega) (by simp)).trans ?_
      by_cases hii : i' = i
      · rw [hii, rg_setRg_same]
      · exact (rg_setRg_other (by omega) (by omega) (by simp; omega)).trans h
  · exact List.foldlRecOn (motive := fun t : State => t.queues = s.queues) _ _ rfl fun u hu i _ => hu
  · refine List.foldlRecOn (motive := fun t => rg t r i = rg s r i) _ _ rfl fun u hu j hj => ?_
    have := List.mem_range.mp hj
    refine (rg_setRg_other (by omega) hi fun he => h2 (Prod.mk.inj he).1).trans ((rg_setRg_other (by omega) hi fun he => h1 (Prod.mk.inj he).1).trans hu)

theorem freeShare_spec (hn : n < 2 ^ 32) (hq : (share s n).qp0 + (share s n).nqp ≤ 16384) (hv : (share s n).vec0 + (share s n).nvec ≤ 32768) :
    shState (freeShare s n) n = 0 ∧ share (freeShare s n) n = {} ∧ (∀ q ∈ shareQueues s n, qKind (freeShare s n) q = 0 ∧ queue (freeShare s n) q = {}) ∧
      ∀ j, j < (share s n).nvec → rg (freeShare s n) .msictl ((share s n).vec0 + j) = regReset .msictl := by
  have hl : ∀ q ∈ shareQueues s n, q < 2 ^ 32 := fun q hm => (mem_shareQueues_lt hq hm).trans (by decide)
  obtain ⟨u, hu⟩ : ∃ u, (shareQueues s n).foldl (fun s q => setQueue (setRgF (resetQueue s q) .qstat q 9 7 0) q {}) s = u := ⟨_, rfl⟩
  have hunbound := unbound_each hl s
  rw [hu] at hunbound
  obtain ⟨w, hw⟩ : ∃ w, (List.range (share s n).nvec).foldl (fun u i =>
    setRg (setRg u .msictl ((share s n).vec0 + i) (regReset .msictl)) .msipost ((share s n).vec0 + i) 0) u = w := ⟨_, rfl⟩
  obtain ⟨v1, v2, v3⟩ := vectors_each (k := (share s n).vec0) (m := (share s n).nvec) (by omega) u
  rw [hw] at v1 v2 v3
  have hrun : freeShare s n = setRg (setShare w n {}) .shstate n 0 := by
    unfold freeShare
    dsimp only
    rw [hu, hw]
  have hset : tget {} n (tset {} n ({} : Share) w.shares) = {} := tget_tset_same _
  have hother : ∀ r i, i < 2 ^ 32 → r ≠ .shstate → rg (setRg (setShare w n {}) .shstate n 0) r i = rg w r i := fun r i hi hr =>
    rg_setRg_other (s := setShare w n {}) hn hi fun he => hr (Prod.mk.inj he).1
  rw [hrun]
  refine ⟨?_, hset, fun q hm => ?_, fun j hj => (hother _ _ (by omega) (by decide)).trans (v1 j hj)⟩
  · rw [shState, rgF, rg_setRg_same]
    decide
  · obtain ⟨h1, h2⟩ := hunbound q hm
    refine ⟨?_, (congrArg (fun z => tget ({} : Queue) q z) v2).trans h2⟩
    exact (congrArg (fld · 9 7) ((hother .qstat q (hl q hm) (by decide)).trans (v3 .qstat q (hl q hm) (by decide) (by decide)))).trans h1

theorem shutRemove_spec (hn : n < 2 ^ 32) (hq : (share s n).qp0 + (share s n).nqp ≤ 16384) (hv : (share s n).vec0 + (share s n).nvec ≤ 32768) :
    let t := raiseSrc (freeShare (clearSessions s n) n) 914
    shState t n = 0 ∧ share t n = {} ∧ bit (rg t .intsrc 914) 1 = true ∧ (∀ q ∈ shareQueues s n, qKind t q = 0 ∧ queue t q = {}) ∧
      ∀ j, j < (share s n).nvec → rg t .msictl ((share s n).vec0 + j) = regReset .msictl := by
  dsimp only
  obtain ⟨_, hshares, _⟩ := clearSessions_kept s n
  generalize clearSessions s n = u at hshares ⊢
  have hushare : share u n = share s n := congrArg (fun z => tget ({} : Share) n z) hshares
  have huqueues : shareQueues u n = shareQueues s n := by rw [shareQueues, hushare, shareQueues]
  obtain ⟨k1, k2, k3, k4⟩ := freeShare_spec (s := u) hn (hushare ▸ hq) (hushare ▸ hv)
  rw [hushare] at k4
  rw [huqueues] at k3
  generalize freeShare u n = w at k1 k2 k3 k4 ⊢
  obtain ⟨r1, r2, _⟩ := raised_shut w hn
  have hraise : ∀ r i, i < 2 ^ 32 → r ≠ .intsrc → rg (raiseSrc w 914) r i = rg w r i := fun r i hi hr =>
    rg_raiseSrc (by decide) hi fun he => hr (Prod.mk.inj he).1
  refine ⟨r2.trans k1, k2, r1, fun q hm => ?_, fun j hj => (hraise _ _ (by omega) (by decide)).trans (k4 j hj)⟩
  obtain ⟨e1, e2⟩ := k3 q hm
  exact ⟨(congrArg (fld · 9 7) (hraise .qstat q ((mem_shareQueues_lt hq hm).trans (by decide)) (by decide))).trans e1, e2⟩

end

/-! ### A shut-down whose time is over -/

section
variable {s u : State} {n q : Nat} {it : Item} {i : EngIn}

theorem drainTimeout_early (hq : shareQueues s n = [q]) (h1 : now s < (share s n).sdAt + drainTicks s) (h2 : qState s q ≠ 3) : drainTimeout s n i = s := by
  unfold drainTimeout
  dsimp only
  rw [hq, List.foldl_cons, List.foldl_nil, if_neg]
  simp [h2]
  omega

/-- The only item of the share's only queue is squashed: its record is written, and counted (R453 step 3). -/
theorem drainTimeout_squashed (hn : n < 4096) (hqs : shareQueues s n = [q]) (hq : q < 16384) (hit : (queue s q).items = [it]) (hst : shState s n = 3)
    (hkind : qKind s q = 1) (htime : (share s n).sdAt + drainTicks s ≤ now s)
    (hw : shWriteBuf s n ⟨12, 16⟩ i i.dst (rgF s .cqbase q 51 12 * 4096 + rgF s .qstat q 47 32 * 32) (recordBytes s q it { status := 4 }) = (.ok, 32, u))
    (hqu : qState u q = 2) (hitu : (queue u q).items = [it]) (hirq : rgF u .qirq q 15 15 = 0) (hstu : shState u n = 3) :
    (queue (drainTimeout s n i) q).items = [] ∧ rgF (drainTimeout s n i) .shstate n 47 32 = min (rgF u .shstate n 47 32 + 1) 65535 ∧
      (drainTimeout s n i).dram = u.dram := by
  have hq2 : q < 2 ^ 32 := hq.trans (by decide)
  have hn2 : n < 2 ^ 32 := hn.trans (by decide)
  have honly := tailStep_regsOnly hq2 (setQueue u q { queue u q with items := [] }) (rgF s .qstat q 47 32) (cqSize u q)
  change RegsOnly [(.qstat, q)] _ (recorded s u q) at honly
  have hkept : ∀ {r : RegName} {j hi lo : Nat}, j < 2 ^ 32 → (r, j) ≠ (.qstat, q) → rgF (recorded s u q) r j hi lo = rgF u r j hi lo :=
    fun hj hne => congrArg (fld · _ _) (honly.2 _ _ hj (by simpa using hne))
  have hdram : (recorded s u q).dram = u.dram := by
    have he := congrArg State.dram honly.1
    exact he
  have hdrop : dropItem u q it.sqidx = setQueue u q { queue u q with items := [] } := by
    unfold dropItem
    rw [hitu]
    simp
  have hrst : shState (recorded s u q) n = 3 := (hkept hn2 (by simp)).trans hstu
  have hrirq : rgF (recorded s u q) .qirq q 15 15 = 0 := (hkept hq2 (by simp)).trans hirq
  have hrq : qState (recorded s u q) q = 2 := (tailStep_field (by decide) (by decide)).trans hqu
  have hrshst : rgF (recorded s u q) .shstate n 47 32 = rgF u .shstate n 47 32 := hkept hn2 (by simp)
  obtain ⟨w, hcount⟩ : ∃ w, incRgF (recorded s u q) .shstate n 47 32 = w := ⟨_, rfl⟩
  have hwother : ∀ r, r ≠ .shstate → rg w r q = rg (recorded s u q) r q := fun r hr => hcount ▸ rg_setRg_other hn2 hq2 fun he => hr (Prod.mk.inj he).1
  have hwcount : rgF w .shstate n 47 32 = min (rgF u .shstate n 47 32 + 1) 65535 := by
    rw [← hcount, rgF_incRgF_same (by decide) (by decide), hrshst]
    exact congrArg (min _) (by decide)
  have hwdram : w.dram = u.dram := hcount ▸ hdram
  have hwirq : recordIrq w n q (dF it.desc 11 11 == 1) = w := by
    unfold recordIrq
    rw [if_pos (.inr ((congrArg (fld · 15 15) (hwother .qirq (by decide))).trans hrirq))]
  have hwclose : tryClose w q = w := by
    have hwq : qState w q = 2 := (congrArg (fld · 2 0) (hwother .qstat (by decide))).trans hrq
    unfold tryClose
    rw [hwq]
    rfl
  have hrecord : writeRecord s n q it { status := 4 } i = (true, w) := by
    unfold writeRecord
    dsimp only
    rw [show kindStop (qKind s q) = ⟨12, 16⟩ by rw [hkind]; rfl, hw]
    dsimp only
    rw [hdrop]
    change (true, tryClose (recordIrq (countDrain (recorded s u q) n true) n q _) q) = _
    rw [countDrain, if_pos hrst, if_pos rfl, hcount, hwirq, hwclose]
  have hbytes : squashBytes s n q it = 0 := if_neg (by omega)
  have hrun : drainTimeout s n i = setQueue w q { queue w q with frame := [] } := by
    unfold drainTimeout
    dsimp only
    rw [hqs, List.foldl_cons, List.foldl_nil, if_pos (by simp [hst, htime]), hit, squashQueue, hbytes,
      show ({ status := 4, r0 := BitVec.ofNat 64 0 } : RecOut) = { status := 4 } from rfl, hrecord]
    rfl
  have hwqueue : queue w q = queue (recorded s u q) q := hcount ▸ rfl
  rw [hrun]
  refine ⟨?_, hwcount, hwdram⟩
  rw [queue_setQueue_same, hwqueue]
  exact recorded_items

end

/-- Settles O44: the share commands by what they do to the share's word, its record and its queues. -/
theorem shareCommands : Obligations.ShareCommands := by
  unfold Obligations.ShareCommands
  refine ⟨fun b v s h => ?_, fun n s => ⟨fun h => ⟨s, congrArg ok (if_pos h), rfl⟩, fun h1 h2 => ?_, fun h1 h2 h3 h4 => ?_, fun i q it u h1 h2 h3 h4 h5 => ?_⟩⟩
  · dsimp only
    refine ⟨fun c hc => ?_, fun hm hst => ?_, fun hm hst => ?_, fun hm hst => ?_, fun hm hst => ?_, fun hm hst k1 k2 k3 k4 k5 k6 k7 k8 => ?_,
      fun m q0 v0 i0 z0 hown k1 m1 m2 m3 m4 m5 p1 p2 p3 p4 p5 g1 g2 g3 g4 => ?_⟩
    · obtain ⟨op, h1, h2, hrun⟩ : ∃ op, 2 ≤ op ∧ op ≤ 6 ∧ exec c s = .next (shcmdGo s b op v) := by
        simp only [List.mem_cons, List.not_mem_nil, or_false] at hc
        rcases hc with rfl | rfl | rfl | rfl | rfl
        · exact ⟨2, by decide, by decide, rfl⟩
        · exact ⟨3, by decide, by decide, rfl⟩
        · exact ⟨4, by decide, by decide, rfl⟩
        · exact ⟨5, by decide, by decide, rfl⟩
        · exact ⟨6, by decide, by decide, rfl⟩
      obtain ⟨k1, k2⟩ := shcmd_refused (b := b) (v := v) h h1 h2
      exact ⟨fun h3 => ⟨_, hrun, k1 h3⟩, fun h3 h4 h5 => ⟨_, hrun, k2 h3 h4 h5⟩⟩
    · obtain ⟨_, m2, m3⟩ := hm
      obtain ⟨t, ht, hspec⟩ := shcmd_enable h hst m2 m3
      exact ⟨t, congrArg ok ht, hspec⟩
    · obtain ⟨m1, m2, m3⟩ := hm
      obtain ⟨t, ht, hspec⟩ := shcmd_shut (op := 3) h m1 m2 m3 (by decide) (by decide) (by decide) fun u hu => shLife_disable (hu.trans hst)
      exact ⟨t, congrArg ok ht, hspec⟩
    · obtain ⟨m1, m2, m3⟩ := hm
      obtain ⟨t, ht, hspec⟩ := shcmd_shut (op := 4) h m1 m2 m3 (by decide) (by decide) (by decide) fun u hu => shLife_reset (hu ▸ hst)
      exact ⟨t, congrArg ok ht, hspec⟩
    · obtain ⟨m1, m2, m3⟩ := hm
      obtain ⟨t, ht, hspec⟩ := shcmd_shut (op := 5) h m1 m2 m3 (by decide) (by decide) (by decide) fun u hu => shLife_remove (hu ▸ hst)
      exact ⟨t, congrArg ok ht, hspec⟩
    · obtain ⟨m1, m2, _⟩ := hm
      obtain ⟨e1, e2⟩ := shcmd_bind h m1 m2 hst k1 k2 k3 rfl rfl rfl rfl k4 k5 k6 k7 k8
      refine ⟨fun hen => ?_, fun hen => ?_⟩
      · obtain ⟨t, ht, hspec⟩ := e1 hen
        exact ⟨t, congrArg ok ht, hspec⟩
      · obtain ⟨t, ht, hspec⟩ := e2 hen
        exact ⟨t, congrArg ok ht, hspec⟩
    · obtain ⟨t, ht, hspec⟩ := shcmd_create h hown ⟨k1, ⟨m1, m2, m3, m4⟩, m5, ⟨p1, p2, p3, p4, p5⟩, g1, g2, g3, g4⟩
      exact ⟨t, congrArg ok ht, hspec⟩
  · obtain ⟨k1, k2, _, k4, _⟩ := startShut_spec (s := s) (n := n) (kind := 2) (by omega) (by decide) h2
    refine ⟨startShut s n 2, congrArg ok ?_, k1, k2, congrArg Share.sdAt k4⟩
    rw [if_neg (by omega), shLife_reset (by omega)]
  · refine ⟨fun k1 k2 => ?_, fun k1 k2 => ?_, fun k1 => ?_⟩
    · obtain ⟨e1, e2, e3, _⟩ := shDone_spec (s := s) (n := n) (by omega) h3 false
      have hshares : (shDone s n false).shares = s.shares := by
        have he := congrArg State.shares e3
        exact he
      have hsessions : (shDone s n false).sessions = s.sessions := by
        have he := congrArg State.sessions e3
        exact he
      obtain ⟨r1, r2, r3⟩ := raised_shut (shDone s n false) (n := n) (by omega)
      exact ⟨_, congrArg ok (shutComplete_disable h1 h2 k1 k2), r2.trans e1, r3.trans e2, r1, hshares, hsessions⟩
    · exact ⟨_, congrArg ok (shutComplete_reset h1 h2 k1 k2), shutReset_spec (by omega) h3 _⟩
    · exact ⟨_, congrArg ok (shutComplete_remove h1 h2 k1), shutRemove_spec (by omega) h3 h4⟩
  · refine ⟨fun k1 k2 => ⟨_, congrArg hubOk (drainTimeout_early h1 k1 k2), rfl⟩, fun k1 k2 k3 k4 k5 k6 => ⟨_, rfl, ?_⟩⟩
    exact drainTimeout_squashed n.isLt h1 h2 h3 h4 h5 k1 k2 k3 k4 k5 k6

end Sys2Proof.Machine
end

section
/-! PROOFS. The L3's enabling, its walks, partition masks and range units (R249 to R272). -/
namespace Sys2Proof.Machine

open Sys2Proof

/-! ### What the monitor owns (R503) -/

section
variable {s act : State} {b : By} {owned : Bool} {off : Nat}

theorem ownWrite_allowed (h : owned = false ∨ bySec b = true) : ownWrite s b owned off act = act := by
  rw [ownWrite, if_neg]
  rcases h with h | h <;> simp [h]

/-- A denied write is recorded, and nothing else done. -/
def DeniedOnly (s t : State) (b : By) : Prop :=
  { t with hlog := s.hlog } = s ∧ (s.hlog.pend.length < 32 →
    ∃ r, t.hlog.pend = s.hlog.pend ++ [r] ∧ r.typ = 0x0022 ∧ r.arg = 0x20 ∧ r.origin = originOf s b)

theorem hlDevice_told {typ origin arg : Nat} {p : BitVec 256} (h : s.hlog.pend.length < 32) :
    ∃ r, (hlDevice s typ origin arg p).hlog.pend = s.hlog.pend ++ [r] ∧ r.typ = typ ∧ r.arg = arg ∧ r.origin = origin := by
  rw [hlDevice, if_pos h]
  exact ⟨_, rfl, rfl, rfl, rfl⟩

theorem ownWrite_denied (h1 : owned = true) (h2 : bySec b = false) : DeniedOnly s (ownWrite s b owned off act) b := by
  rw [ownWrite, if_pos (by simp [h1, h2]), hlDenied]
  exact ⟨hlDevice_only .., hlDevice_told⟩

end

/-! ### L3CTL (R260 to R262) -/

section
variable {s : State} {h : Nat} {v : Word}

/-- A walk that is due at a home: it runs, or waits its turn (R272). -/
def WalkDue (t : State) (h : Nat) (w : WalkKind) : Prop := tget none h t.walkRun = some w ∨ w ∈ tget [] h t.walks

theorem queueWalk_spec (s : State) (h : Nat) {w : WalkKind} (hw : w = .invAll ∨ w = .flush) : WalkDue (queueWalk s h w) h w ∧
    { queueWalk s h w with walkRun := s.walkRun, walks := s.walks } = s := by
  have hbegin : walkBegin s h w = { s with walkRun := tset none h (some w) s.walkRun } := by rcases hw with rfl | rfl <;> rfl
  have hrun : tget none h (tset none h (some w) s.walkRun) = some w := tget_tset_same _
  have hwait : tget [] h (tset [] h (tget [] h s.walks ++ [w]) s.walks) = tget [] h s.walks ++ [w] := tget_tset_same _
  rw [queueWalk]
  split
  · rw [hbegin]
    exact ⟨.inl hrun, rfl⟩
  · refine ⟨.inr ?_, rfl⟩
    rw [hwait]
    exact List.mem_append_right _ List.mem_cons_self

section
variable (s h)

theorem l3ctl_disable (h1 : rgF s .l3ctl h 0 0 = 1) : l3ctlWrite s h 0 = queueWalk (setRgF (setRgF s .l3ctl h 0 0 0) .l3stat h 3 3 1) h .flush := by
  unfold l3ctlWrite
  dsimp only
  rw [if_neg (show ¬bit (0 : Word) 1 = true by decide), if_neg (show ¬bit (0 : Word) 0 = true by decide), if_pos (by simp [h1])]

theorem l3ctl_keepOff (h1 : rgF s .l3ctl h 0 0 = 0) : l3ctlWrite s h 0 = s := by
  unfold l3ctlWrite
  dsimp only
  rw [if_neg (show ¬bit (0 : Word) 1 = true by decide), if_neg (show ¬bit (0 : Word) 0 = true by decide), if_neg (by simp [h1])]

theorem l3ctl_keepOn (h1 : rgF s .l3ctl h 0 0 = 1) : l3ctlWrite s h 1 = s := by
  unfold l3ctlWrite
  dsimp only
  rw [if_neg (show ¬bit (1 : Word) 1 = true by decide), if_pos (show bit (1 : Word) 0 = true by decide), if_pos (by simp [h1])]

theorem l3ctl_enable (h1 : rgF s .l3ctl h 0 0 = 0) (h2 : rgF s .l3stat h 3 3 = 0) (h3 : rgF s .l3stat h 1 1 = 1 ∨ rgF s .l3stat h 0 0 = 1) :
    l3ctlWrite s h 1 = setRgF s .l3ctl h 0 0 1 := by
  have hbit : bit 1#64 1 = false := by decide
  unfold l3ctlWrite
  dsimp only
  rw [if_neg (show ¬bit (1 : Word) 1 = true by decide), if_pos (show bit (1 : Word) 0 = true by decide), if_neg (by simp [h1]), if_pos]
  rcases h3 with h3 | h3 <;> simp [h2, h3, hbit]

theorem l3ctl_enableEarly (h1 : rgF s .l3ctl h 0 0 = 0) (h2 : rgF s .l3stat h 3 3 = 1 ∨ (rgF s .l3stat h 1 1 = 0 ∧ rgF s .l3stat h 0 0 = 0)) :
    l3ctlWrite s h 1 = setRgF s .l3stat h 6 6 1 := by
  unfold l3ctlWrite
  dsimp only
  rw [if_neg (show ¬bit (1 : Word) 1 = true by decide), if_pos (show bit (1 : Word) 0 = true by decide), if_neg (by simp [h1]), if_neg]
  rcases h2 with h2 | ⟨h2, h3⟩
  · simp [h2]
  · simp [h2, h3]

theorem l3ctl_invAll (h1 : rgF s .l3ctl h 0 0 = 0) (h2 : rgF s .l3stat h 3 3 = 0) (h3 : rgF s .l3stat h 2 2 = 0) :
    l3ctlWrite s h 2 = queueWalk (setRgF (setRgF s .l3stat h 1 1 0) .l3stat h 2 2 1) h .invAll := by
  unfold l3ctlWrite
  dsimp only
  rw [if_pos (show bit (2 : Word) 1 = true by decide), if_neg (show ¬bit (2 : Word) 0 = true by decide), if_neg (show ¬(rgF s .l3ctl h 0 0 == 1) = true by simp [h1]),
    if_pos (by simp [h1, h2, h3])]

/-- INV_ALL while the L3 is in use, or a walk of it runs, is refused by its flag. -/
theorem l3ctl_invAllRefused (h1 : rgF s .l3ctl h 0 0 = 1 ∨ rgF s .l3stat h 3 3 = 1 ∨ rgF s .l3stat h 2 2 = 1) :
    l3ctlWrite s h 3 = setRgF s .l3stat h 7 7 1 ∨ l3ctlWrite s h 3 = setRgF (setRgF s .l3stat h 7 7 1) .l3stat h 6 6 1 := by
  have hbit : bit (3 : Word) 1 = true := by decide
  have hrefused : ¬(!rgF s .l3ctl h 0 0 == 1 && !rgF s .l3stat h 3 3 == 1 && !rgF s .l3stat h 2 2 == 1) = true := by
    rcases h1 with h1 | h1 | h1 <;> simp [h1]
  unfold l3ctlWrite
  dsimp only
  rw [if_pos hbit, if_neg hrefused, if_pos (show bit (3 : Word) 0 = true by decide)]
  split
  · exact .inl rfl
  · have hbit' : bit 3#64 1 = true := hbit
    rw [if_neg (by simp [hbit'])]
    exact .inr rfl

end

end

/-! ### Partition masks (R253) -/

theorem pmask_only {s : State} {i : Nat} (hi : i < 2 ^ 32) (x y : Nat) :
    rgF (setRgF (setRgF s .pmask i 15 0 x) .pmask i 32 32 y) .pmask i 15 0 = x % 2 ^ 16 ∧
      rgF (setRgF (setRgF s .pmask i 15 0 x) .pmask i 32 32 y) .pmask i 32 32 = y % 2 ∧
      RegsOnly [(.pmask, i)] s (setRgF (setRgF s .pmask i 15 0 x) .pmask i 32 32 y) := by
  refine ⟨?_, rgF_setRgF_same _ _ _ _ _ _ (by decide) (by decide), (RegsOnly.setRgF hi (by simp) ..).trans (.setRgF hi (by simp) ..)⟩
  rw [rgF_setRgF_field _ _ _ _ _ _ _ _ (by decide) (by decide) (by decide)]
  exact rgF_setRgF_same _ _ _ _ _ _ (by decide) (by decide)

/-! ### The lines of a home's L3 -/

theorem mem_of_tget {α : Type} {d : α} {k : Nat} : ∀ {t : Tab α}, tget d k t ≠ d → (k, tget d k t) ∈ t
  | [], h => absurd rfl h
  | (j, v) :: t, h => by
    rw [tget] at h ⊢
    split at h
    case isTrue hj =>
      rw [if_pos hj, ← hj]
      exact List.mem_cons_self
    case isFalse hj =>
      rw [if_neg hj]
      exact List.mem_cons_of_mem _ (mem_of_tget h)

section
variable {s t u : State}

theorem l3Line_mem {line : Nat} (h : (l3Line s line).valid = true) : (line, l3Line s line) ∈ s.l3 :=
  mem_of_tget fun he => by
    rw [l3Line, he] at h
    cases h

/-- Where lines live depends on the hash alone. -/
theorem lineLoc_congr (h1 : rg t .memhash 0 = rg s .memhash 0) (h2 : t.pkg = s.pkg) (h3 : t.hashChs = s.hashChs) (h4 : t.hashHomes = s.hashHomes)
    (line : Nat) : lineLoc t line = lineLoc s line := by
  have hf : ∀ hi lo, rgF t .memhash 0 hi lo = rgF s .memhash 0 hi lo := fun hi lo => congrArg (fld · hi lo) h1
  have hk : ∀ pa, paKind t pa = paKind s pa := fun pa => by rw [paKind, paKind, h2]
  have htop : memNC t * memC t = memNC s * memC s := by rw [memNC, memC, hf, hf, memNC, memC]
  have hchs : hashChannels t = hashChannels s := h3
  have hhomes : Machine.hashHomes t = Machine.hashHomes s := h4
  rw [lineLoc, lineLoc, homeLoc, homeLoc, hk, hf, h2]
  dsimp only
  rw [htop, hchs, hhomes]

/-- The registers a walk's reads log in. -/
def cleanNames : List RegName := [.intsrc, .celogstat, .celogA, .celogB, .celogT] ++ eventNames

/-- From s to t a walk read and wrote back lines: logs, memory, the L3, and walks that became due. -/
structure CleanKept (s t : State) : Prop where
  rest : { t with regs := s.regs, l3 := s.l3, dram := s.dram, poisoned := s.poisoned, walks := s.walks, wayWin := s.wayWin, mpPend := s.mpPend } = s
  regs : ∀ r i, i < 2 ^ 32 → r ∉ cleanNames → rg t r i = rg s r i

theorem CleanKept.refl (s : State) : CleanKept s s := ⟨rfl, fun _ _ _ _ => rfl⟩

theorem CleanKept.trans (h1 : CleanKept s t) (h2 : CleanKept t u) : CleanKept s u := by
  refine ⟨?_, fun r i hi hr => (h2.regs r i hi hr).trans (h1.regs r i hi hr)⟩
  calc { u with regs := s.regs, l3 := s.l3, dram := s.dram, poisoned := s.poisoned, walks := s.walks, wayWin := s.wayWin, mpPend := s.mpPend }
      = { ({ u with regs := t.regs, l3 := t.l3, dram := t.dram, poisoned := t.poisoned, walks := t.walks, wayWin := t.wayWin, mpPend := t.mpPend } : State) with
          regs := s.regs, l3 := s.l3, dram := s.dram, poisoned := s.poisoned, walks := s.walks, wayWin := s.wayWin, mpPend := s.mpPend } := rfl
    _ = { t with regs := s.regs, l3 := s.l3, dram := s.dram, poisoned := s.poisoned, walks := s.walks, wayWin := s.wayWin, mpPend := s.mpPend } := by
        rw [h2.rest]
    _ = s := h1.rest

theorem CleanKept.lineLoc (h : CleanKept s t) (line : Nat) : Machine.lineLoc t line = Machine.lineLoc s line := by
  have hpkg : t.pkg = s.pkg := by rw [← h.rest]
  have hchs : t.hashChs = s.hashChs := by rw [← h.rest]
  have hhomes : t.hashHomes = s.hashHomes := by rw [← h.rest]
  exact lineLoc_congr (h.regs _ _ (by decide) (by decide)) hpkg hchs hhomes line

theorem CleanKept.walkRun (h : CleanKept s t) : t.walkRun = s.walkRun := by rw [← h.rest]

theorem CleanKept.setL3 (s : State) (line : Nat) (x : L3Line) : CleanKept s (setL3 s line x) := ⟨rfl, fun _ _ _ _ => rfl⟩

theorem CleanKept.memWrite (s : State) (line k : Nat) (d : LineData) (p : Bool) : CleanKept s (memWrite s line k d p) := by
  unfold Machine.memWrite
  split
  · exact .refl s
  · exact ⟨rfl, fun _ _ _ _ => rfl⟩

/-- From s to t only the logs and sources of the stacks changed. -/
structure LogOnly (s t : State) : Prop where
  rest : { t with regs := s.regs, mpPend := s.mpPend } = s
  regs : ∀ r i, i < 2 ^ 32 → r ∉ cleanNames → rg t r i = rg s r i

theorem LogOnly.of_names {names : List RegName} (h : NamesOnly names s t) (hsub : ∀ r ∈ names, r ∈ cleanNames) : LogOnly s t := by
  refine ⟨?_, fun r i hi hr => h.regs r i hi fun hm => hr (hsub r hm)⟩
  rw [← h.rest]

theorem LogOnly.trans (h1 : LogOnly s t) (h2 : LogOnly t u) : LogOnly s u := by
  refine ⟨?_, fun r i hi hr => (h2.regs r i hi hr).trans (h1.regs r i hi hr)⟩
  calc { u with regs := s.regs, mpPend := s.mpPend }
      = { ({ u with regs := t.regs, mpPend := t.mpPend } : State) with regs := s.regs, mpPend := s.mpPend } := rfl
    _ = { t with regs := s.regs, mpPend := s.mpPend } := by rw [h2.rest]
    _ = s := h1.rest

theorem LogOnly.l3 (h : LogOnly s t) : t.l3 = s.l3 := by rw [← h.rest]

theorem LogOnly.kept (h : LogOnly s t) : CleanKept s t := by
  refine ⟨?_, h.regs⟩
  obtain ⟨hrest, _⟩ := h
  generalize t = w at hrest
  rw [← hrest]

theorem LogOnly.raiseSrc {n : Nat} (hn : n < 2 ^ 32) (s : State) : LogOnly s (raiseSrc s n) :=
  ⟨rfl, fun _ _ hi hr => rg_raiseSrc hn hi fun he => hr (by rw [(Prod.mk.inj he).1]; decide)⟩

/-- An error in a stack's log of correctable errors (R579). -/
theorem logCe_only {k : Nat} (hk : k < 12) (s : State) (kind unit way addr : Nat) : LogOnly s (logErr s (.ce k) kind unit way addr) := by
  have hfind : ∀ (p : Nat → Bool) (n : Nat), (List.range 16).find? p = some n → n < 2 ^ 31 := fun p n h => by
    have := List.mem_range.mp (List.mem_of_find?_eq_some h)
    omega
  unfold logErr logRegs
  dsimp only
  refine LogOnly.trans ?_ (.raiseSrc (by omega) _)
  refine .of_names (names := [.celogstat, .celogA, .celogB, .celogT]) ((NamesOnly.incRgF (r := .celogstat) (i := k) (by omega) (by decide) s 63 32).trans ?_) (by decide)
  exact logInto_namesOnly (st := .celogstat) (ra := .celogA) (rb := .celogB) (rt := .celogT) (si := k) (base := k * 16)
    (by decide) (by decide) (by decide) (by decide) (by omega) (by omega) (hfind _) _ _ _ 16

theorem logEv_names {k : Nat} (hk : k < 12) (s : State) (kind unit way addr : Nat) : NamesOnly eventNames s (logErr s (.ev k) kind unit way addr) := by
  have hlog := logErr_event_namesOnly s k kind unit way addr
  rwa [show evLog k = .ev k from if_pos hk] at hlog

theorem logEv_only {k : Nat} (hk : k < 12) (s : State) (kind unit way addr : Nat) : LogOnly s (logErr s (.ev k) kind unit way addr) :=
  .of_names (logEv_names hk ..) fun _ hr => List.mem_append_right _ hr

theorem CleanKept.ite {p : Prop} [Decidable p] (h1 : CleanKept s t) (h2 : CleanKept s u) : CleanKept s (if p then t else u) := by
  split
  · exact h1
  · exact h2

theorem CleanKept.wayError (s : State) (kind h slice way : Nat) (ue : Bool) : CleanKept s (wayError s kind h slice way ue) := by
  have hwin : ∀ w, CleanKept s (if ue = true then s else { s with wayWin := w }) := fun w => .ite (.refl s) ⟨rfl, fun _ _ _ _ => rfl⟩
  unfold Machine.wayError
  dsimp only
  exact .ite ((hwin _).trans ⟨rfl, fun _ _ _ _ => rfl⟩) (hwin _)

/-- A line's copy as a walk leaves it: its mark may change, not its value. -/
structure SameCopy (x y : L3Line) : Prop where
  valid : y.valid = x.valid
  way : y.way = x.way
  data : y.data = x.data

theorem SameCopy.refl (x : L3Line) : SameCopy x x := ⟨rfl, rfl, rfl⟩

theorem SameCopy.trans {x y z : L3Line} (h1 : SameCopy x y) (h2 : SameCopy y z) : SameCopy x z :=
  ⟨h2.valid.trans h1.valid, h2.way.trans h1.way, h2.data.trans h1.data⟩

theorem l3Line_setL3_same (s : State) (line : Nat) (x : L3Line) : l3Line (setL3 s line x) line = x := tget_tset_same _

theorem l3Line_setL3_ne {line l : Nat} (h : l ≠ line) (s : State) (x : L3Line) : l3Line (setL3 s line x) l = l3Line s l := tget_tset_ne h _

theorem l3Line_congr (h : t.l3 = s.l3) (l : Nat) : l3Line t l = l3Line s l := by rw [l3Line, h, l3Line]

theorem memWrite_l3 (s : State) (line k : Nat) (d : LineData) (p : Bool) : (memWrite s line k d p).l3 = s.l3 := by
  unfold memWrite
  split <;> rfl

theorem ite_l3 {p : Prop} [Decidable p] (h1 : t.l3 = s.l3) (h2 : u.l3 = s.l3) : (if p then t else u).l3 = s.l3 := by
  split
  · exact h1
  · exact h2

theorem wayError_l3 (s : State) (kind h slice way : Nat) (ue : Bool) : (wayError s kind h slice way ue).l3 = s.l3 := by
  have hwin : ∀ w, (if ue = true then s else { s with wayWin := w }).l3 = s.l3 := fun w => by split <;> rfl
  unfold wayError
  dsimp only
  exact ite_l3 (hwin _) (hwin _)

/-- What a read of the L3's own copy leaves (R255). -/
theorem l3ReadHit_spec {line : Nat} (hhome : (lineLoc s line).home < 12) (e : Ecc) : (l3ReadHit s line e).1.data = (l3Line s line).data ∧
    CleanKept s (l3ReadHit s line e).2 ∧ SameCopy (l3Line s line) (l3Line (l3ReadHit s line e).2 line) ∧
    ∀ l, l ≠ line → l3Line (l3ReadHit s line e).2 l = l3Line s l := by
  cases e with
  | clean => exact ⟨rfl, .refl s, .refl _, fun _ _ => rfl⟩
  | corrected dev rank =>
    obtain ⟨w, hw⟩ : ∃ w, wayError s 0 (lineLoc s line).home (lineLoc s line).slice (l3Line s line).way false = w := ⟨_, rfl⟩
    have hkept : CleanKept s w := hw ▸ .wayError ..
    have hl3 : w.l3 = s.l3 := hw ▸ wayError_l3 ..
    have hlog := logCe_only hhome w 0x08 (lineLoc s line).slice (l3Line s line).way (line * 64)
    unfold l3ReadHit
    dsimp only
    rw [hw]
    refine ⟨rfl, hkept.trans hlog.kept, ?_, fun l _ => l3Line_congr (hlog.l3.trans hl3) l⟩
    rw [l3Line_congr (hlog.l3.trans hl3)]
    exact .refl _
  | uncorrectable dev rank =>
    obtain ⟨v, hv⟩ : ∃ v, setL3 s line { l3Line s line with poison := true } = v := ⟨_, rfl⟩
    obtain ⟨w, hw⟩ : ∃ w, wayError v 0 (lineLoc s line).home (lineLoc s line).slice (l3Line s line).way true = w := ⟨_, rfl⟩
    have hvkept : CleanKept s v := hv ▸ .setL3 ..
    have hkept : CleanKept v w := hw ▸ .wayError ..
    have hl3 : w.l3 = v.l3 := hw ▸ wayError_l3 ..
    have hlog := logEv_only hhome w 0x12 (lineLoc s line).slice (l3Line s line).way (line * 64)
    unfold l3ReadHit
    dsimp only
    rw [hv, hw]
    refine ⟨rfl, (hvkept.trans hkept).trans hlog.kept, ?_, fun l hl => (l3Line_congr (hlog.l3.trans hl3) l).trans ?_⟩
    · rw [l3Line_congr (hlog.l3.trans hl3), ← hv, l3Line_setL3_same]
      exact ⟨rfl, rfl, rfl⟩
    · rw [← hv, l3Line_setL3_ne hl]

/-- A line written back (R255, R256): its copy is clean and keeps its value; no other copy changes. -/
theorem l3Clean_spec {line : Nat} (hhome : (lineLoc s line).home < 12) (e : Ecc) : CleanKept s (l3Clean s line e) ∧
    SameCopy (l3Line s line) (l3Line (l3Clean s line e) line) ∧
    ((l3Line (l3Clean s line e) line).valid = true → (l3Line (l3Clean s line e) line).dirty = false) ∧
    ∀ l, l ≠ line → l3Line (l3Clean s line e) l = l3Line s l := by
  by_cases h : ((l3Line s line).valid && (l3Line s line).dirty) = true
  · obtain ⟨_, hkept, hsame, hother⟩ := l3ReadHit_spec hhome e
    have hrun : l3Clean s line e = setL3 (memWrite (l3ReadHit s line e).2 line (l3Line (l3ReadHit s line e).2 line).keyid (l3ReadHit s line e).1.data
        (l3ReadHit s line e).1.poison) line { l3Line (l3ReadHit s line e).2 line with dirty := false } := by
      rw [l3Clean, if_pos h]
    generalize l3ReadHit s line e = r at hkept hsame hother hrun
    rw [hrun]
    refine ⟨(hkept.trans (.memWrite ..)).trans (.setL3 ..), ?_, fun _ => ?_, fun l hl => ?_⟩
    · rw [l3Line_setL3_same]
      exact ⟨hsame.valid, hsame.way, hsame.data⟩
    · rw [l3Line_setL3_same]
    · rw [l3Line_setL3_ne hl, l3Line_congr (memWrite_l3 ..), hother l hl]
  · have hrun : l3Clean s line e = s := by rw [l3Clean, if_neg h]
    rw [hrun]
    exact ⟨.refl s, .refl _, fun hv => by simpa [hv] using h, fun _ _ => rfl⟩

end

/-! ### Walks that end -/

section
variable {s t : State} {h : Nat}

theorem l3Drop_gone {line : Nat} (hl : (lineLoc s line).home = h) : (l3Line (l3Drop s h) line).valid = false := by
  by_contra hv
  have hmem := l3Line_mem (s := l3Drop s h) (by simpa using hv)
  have hkeep := (List.mem_filter.mp hmem).2
  simp [hl] at hkeep

theorem walkEnd_none (s : State) (h : Nat) : tget none h (walkEnd s h).walkRun = none := by
  have hset : tget none h (tset none h none s.walkRun) = none := tget_tset_same _
  exact hset

theorem invAllDone_spec (h1 : tget none h s.walkRun = some .invAll) : let t := invAllDone s h
    rgF t .l3stat h 2 2 = 0 ∧ rgF t .l3stat h 1 1 = 1 ∧ tget none h t.walkRun = none ∧
      (∀ line, (lineLoc s line).home = h → (l3Line t line).valid = false) ∧ t.dram = s.dram := by
  dsimp only
  rw [invAllDone, if_pos h1]
  refine ⟨?_, rgF_setRgF_same _ _ _ _ _ _ (by decide) (by decide), walkEnd_none s h, fun line hl => l3Drop_gone (s := walkEnd s h) hl, rfl⟩
  rw [rgF_setRgF_field _ _ _ _ _ _ _ _ (by decide) (by decide) (by decide)]
  exact rgF_setRgF_same _ _ _ _ _ _ (by decide) (by decide)

theorem sweepDone_spec (h1 : tget false h s.sweeping = true) : let t := sweepDone s h
    rgF t .l3stat h 0 0 = 1 ∧ tget false h t.sweeping = false ∧ (∀ line, (lineLoc s line).home = h → (l3Line t line).valid = false) ∧ t.dram = s.dram := by
  have hset : tget false h (tset false h false s.sweeping) = false := tget_tset_same _
  dsimp only
  rw [sweepDone, if_pos h1]
  exact ⟨rgF_setRgF_same _ _ _ _ _ _ (by decide) (by decide), hset, fun line hl => l3Drop_gone hl, rfl⟩

/-- The lines of a list written back: every copy keeps its value, and those of the list are clean. -/
theorem foldl_l3Clean (found : List LineFound) : ∀ {l : List (Nat × L3Line)} (s : State), (∀ p ∈ l, (lineLoc s p.1).home < 12) →
    let t := l.foldl (fun s p => l3Clean s p.1 (foundAt found p.1)) s
    CleanKept s t ∧ (∀ line, SameCopy (l3Line s line) (l3Line t line)) ∧
      ∀ line, ((∃ p ∈ l, p.1 = line) ∨ ((l3Line s line).valid = true → (l3Line s line).dirty = false)) → (l3Line t line).valid = true →
        (l3Line t line).dirty = false
  | [], s, _ => ⟨.refl s, fun _ => .refl _, fun line h hv => h.elim (fun ⟨_, hp, _⟩ => (by cases hp)) (· hv)⟩
  | p :: l, s, hl => by
    obtain ⟨hkept, hsame, hclean, hother⟩ := l3Clean_spec (hl p (by simp)) (foundAt found p.1)
    have hrec := foldl_l3Clean found (l := l) (l3Clean s p.1 (foundAt found p.1)) fun q hq => by
      rw [hkept.lineLoc]
      exact hl q (by simp [hq])
    rw [List.foldl_cons]
    dsimp only at hrec ⊢
    generalize l3Clean s p.1 (foundAt found p.1) = u at hkept hsame hclean hother hrec ⊢
    obtain ⟨k1, k2, k3⟩ := hrec
    refine ⟨hkept.trans k1, fun line => ?_, fun line hline => k3 line ?_⟩
    · by_cases hp : line = p.1
      · subst hp
        exact hsame.trans (k2 _)
      · exact hother line hp ▸ k2 line
    · by_cases hp : line = p.1
      · subst hp
        exact .inr hclean
      · rw [hother line hp]
        rcases hline with ⟨q, hq, rfl⟩ | hline
        · refine .inl ⟨q, ?_, rfl⟩
          rcases List.mem_cons.mp hq with hq | hq
          · exact absurd (congrArg Prod.fst hq) hp
          · exact hq
        · exact .inr hline

theorem mem_homeL3 {line : Nat} (hl : (lineLoc s line).home = h) (hv : (l3Line s line).valid = true) : (line, l3Line s line) ∈ homeL3 s h :=
  List.mem_filter.mpr ⟨l3Line_mem hv, by simp [hl, hv]⟩

theorem homeL3_home {p : Nat × L3Line} (hp : p ∈ homeL3 s h) : (lineLoc s p.1).home = h := by
  have := (List.mem_filter.mp hp).2
  simp only [Bool.and_eq_true, beq_iff_eq] at this
  exact this.2

/-- A flush that ends (R262). -/
theorem flushEnd_spec (hh : h < 12) (found : List LineFound) (s : State) : let t := flushEnd (walkEnd s h) h found
    rgF t .l3stat h 3 3 = 0 ∧ rgF t .l3stat h 1 1 = 0 ∧ rgF t .l3stat h 0 0 = 0 ∧ tget none h t.walkRun = none ∧
      ∀ line, (lineLoc s line).home = h → (l3Line t line).valid = true → (l3Line t line).dirty = false ∧ (l3Line t line).data = (l3Line s line).data := by
  dsimp only
  obtain ⟨u, hu⟩ : ∃ u, walkEnd s h = u := ⟨_, rfl⟩
  have hrun : tget none h u.walkRun = none := hu ▸ walkEnd_none s h
  have hloc : ∀ line, lineLoc u line = lineLoc s line := fun line => hu ▸ rfl
  have hline : ∀ line, l3Line u line = l3Line s line := fun line => hu ▸ rfl
  obtain ⟨hkept, hsame, hclean⟩ := foldl_l3Clean found (l := homeL3 u h) u fun p hp => by
    rw [homeL3_home hp]
    exact hh
  rw [hu, flushEnd, l3Flush]
  generalize (homeL3 u h).foldl (fun s p => l3Clean s p.1 (foundAt found p.1)) u = t at hkept hsame hclean ⊢
  refine ⟨?_, ?_, rgF_setRgF_same _ _ _ _ _ _ (by decide) (by decide), ?_, fun line hl hv => ?_⟩
  · rw [rgF_setRgF_field _ _ _ _ _ _ _ _ (by decide) (by decide) (by decide), rgF_setRgF_field _ _ _ _ _ _ _ _ (by decide) (by decide) (by decide)]
    exact rgF_setRgF_same _ _ _ _ _ _ (by decide) (by decide)
  · rw [rgF_setRgF_field _ _ _ _ _ _ _ _ (by decide) (by decide) (by decide)]
    exact rgF_setRgF_same _ _ _ _ _ _ (by decide) (by decide)
  · exact (congrArg (tget none h) hkept.walkRun).trans hrun
  · have hv' : (l3Line t line).valid = true := hv
    have huv : (l3Line u line).valid = true := (hsame line).valid.symm.trans hv'
    refine ⟨hclean line (.inl ⟨_, mem_homeL3 ((congrArg HomeLoc.home (hloc line)).trans hl) huv, rfl⟩) hv', ?_⟩
    exact (hsame line).data.trans (congrArg L3Line.data (hline line))

/-! ### Ways that retire (R256) -/

/-- The lines of a list written back and dropped. -/
theorem foldl_l3Retire (found : List LineFound) : ∀ {l : List (Nat × L3Line)} (s : State), (∀ p ∈ l, (lineLoc s p.1).home < 12) →
    let t := l.foldl (fun s p => l3Inval (l3Clean s p.1 (foundAt found p.1)) p.1) s
    CleanKept s t ∧ ∀ line, ((∃ p ∈ l, p.1 = line) ∨ (l3Line s line).valid = false) → (l3Line t line).valid = false
  | [], s, _ => ⟨.refl s, fun line h => h.elim (fun ⟨_, hp, _⟩ => (by cases hp)) id⟩
  | p :: l, s, hl => by
    obtain ⟨hkept, _, _, hother⟩ := l3Clean_spec (hl p (by simp)) (foundAt found p.1)
    have hself := l3Line_setL3_same (l3Clean s p.1 (foundAt found p.1)) p.1 {}
    have hne : ∀ line, line ≠ p.1 → l3Line (l3Inval (l3Clean s p.1 (foundAt found p.1)) p.1) line = l3Line s line := fun line hp =>
      (l3Line_setL3_ne hp _ _).trans (hother line hp)
    have hkept := hkept.trans (.setL3 _ p.1 {})
    change CleanKept s (l3Inval _ p.1) at hkept
    change l3Line (l3Inval _ p.1) p.1 = {} at hself
    have hrec := foldl_l3Retire found (l := l) (l3Inval (l3Clean s p.1 (foundAt found p.1)) p.1) fun q hq => by
      rw [hkept.lineLoc]
      exact hl q (by simp [hq])
    rw [List.foldl_cons]
    dsimp only at hrec ⊢
    generalize l3Inval (l3Clean s p.1 (foundAt found p.1)) p.1 = u at hkept hself hne hrec ⊢
    obtain ⟨k1, k2⟩ := hrec
    refine ⟨hkept.trans k1, fun line hline => k2 line ?_⟩
    by_cases hp : line = p.1
    · subst hp
      exact .inr (by rw [hself])
    · rw [hne line hp]
      rcases hline with ⟨q, hq, rfl⟩ | hline
      · refine .inl ⟨q, ?_, rfl⟩
        rcases List.mem_cons.mp hq with hq | hq
        · exact absurd (congrArg Prod.fst hq) hp
        · exact hq
      · exact .inr hline

/-- A way disabled, with its source raised and its log written. -/
theorem wayOff_spec {r : RegName} {i n way k kind : Nat} {a : LogId} (hi : i < 2 ^ 32) (hn : n < 2 ^ 32) (hway : way < 16) (hr : r ∉ eventNames) (hr' : r ≠ .intsrc)
    (u : State) (hlog : ∀ v, NamesOnly eventNames v (logErr v a kind k way 0)) : let t := logErr (raiseSrc (setRgF u r i way way 1) n) a kind k way 0
    (rgF t r i 15 0).testBit way = true ∧ bit (rg t .intsrc n) 1 = true ∧ t.walkRun = u.walkRun ∧ t.l3 = u.l3 := by
  dsimp only
  obtain ⟨v, hv⟩ : ∃ v, setRgF u r i way way 1 = v := ⟨_, rfl⟩
  have hvbit : bit (rg v r i) way = true := by
    rw [← hv, setRgF, rg_setRg_same, bit_setFld _ _ _ _ _ (by omega) le_rfl]
    simp
  have hvkept : v.walkRun = u.walkRun ∧ v.l3 = u.l3 := hv ▸ ⟨rfl, rfl⟩
  have hw := hlog (raiseSrc v n)
  rw [hv]
  generalize logErr (raiseSrc v n) a kind k way 0 = t at hw ⊢
  refine ⟨?_, ?_, ?_, ?_⟩
  · rw [rgF, hw.regs r i hi hr, rg_raiseSrc hn hi fun he => hr' (Prod.mk.inj he).1, fld_testBit]
    simp [hway, hvbit]
  · rw [hw.regs .intsrc n hn (by decide)]
    exact bit_raiseSrc hn
  · have he := congrArg State.walkRun hw.rest
    exact Eq.trans he hvkept.1
  · have he := congrArg State.l3 hw.rest
    exact Eq.trans he hvkept.2

end

section
variable {s : State} {h k way : Nat}

/-- The walk of a way of the L3 ends (R256). -/
theorem wayWalkDone_l3 (hh : h < 12) (hk : k < 8) (hway : way < 16) (found : List LineFound) (hw : tget none h s.walkRun = some (.wayRetire k way)) :
    let t := wayWalkDone s h found
    (rgF t .l3way (h * 8 + k) 15 0).testBit way = true ∧ bit (rg t .intsrc (32 * h + 2)) 1 = true ∧ tget none h t.walkRun = none ∧
      ∀ line, (lineLoc s line).home = h → (lineLoc s line).slice = k → (l3Line s line).way = way → (l3Line t line).valid = false := by
  dsimp only
  have hrun : wayWalkDone s h found = logErr (raiseSrc (setRgF (walkEnd (((homeL3 s h).filter (fun p => p.2.way == way && (lineLoc s p.1).slice == k)).foldl
      (fun s p => l3Inval (l3Clean s p.1 (foundAt found p.1)) p.1) s) h) .l3way (h * 8 + k) way way 1) (32 * h + 2)) (.ev h) 0x22 k way 0 := by
    unfold wayWalkDone
    rw [hw]
    dsimp only
    rw [if_neg (by omega)]
  obtain ⟨_, hgone⟩ := foldl_l3Retire found (l := (homeL3 s h).filter (fun p => p.2.way == way && (lineLoc s p.1).slice == k)) s fun p hp => by
    rw [homeL3_home (List.mem_filter.mp hp).1]
    exact hh
  rw [hrun]
  generalize ((homeL3 s h).filter (fun p => p.2.way == way && (lineLoc s p.1).slice == k)).foldl
    (fun s p => l3Inval (l3Clean s p.1 (foundAt found p.1)) p.1) s = u at hgone ⊢
  obtain ⟨k1, k2, k3, k4⟩ := wayOff_spec (r := .l3way) (i := h * 8 + k) (n := 32 * h + 2) (k := k) (kind := 0x22) (a := .ev h) (by omega) (by omega) hway
    (by decide) (by decide) (walkEnd u h) fun v => logEv_names hh ..
  refine ⟨k1, k2, (congrArg (tget none h) k3).trans (walkEnd_none u h), fun line h1 h2 h3 => ?_⟩
  rw [l3Line_congr k4]
  refine hgone line ?_
  by_cases hv : (l3Line s line).valid = true
  · exact .inl ⟨_, List.mem_filter.mpr ⟨mem_homeL3 h1 hv, by simp [h2, h3]⟩, rfl⟩
  · exact .inr (by simpa using hv)

/-- An entry of the directory in a way of slice k of home h. -/
def DirHeld (s : State) (h k way : Nat) (p : Nat × DirEntry) : Prop :=
  p.2.way = way ∧ p.2.st ≠ .none_ ∧ isLocalMem s (p.1 * 64) = true ∧ (lineLoc s p.1).home = h ∧ (lineLoc s p.1).slice = k

theorem dirHeld_any : (s.dir.any fun p => p.2.way == way && p.2.st != .none_ && isLocalMem s (p.1 * 64) && (lineLoc s p.1).home == h &&
    (lineLoc s p.1).slice == k) = true ↔ ∃ p ∈ s.dir, DirHeld s h k way p := by
  simp only [List.any_eq_true, Bool.and_eq_true, beq_iff_eq, bne_iff_ne, DirHeld, and_assoc]

theorem wayWalkDone_dirHeld (found : List LineFound) (hw : tget none h s.walkRun = some (.dirRetire k way)) (hd : ∃ p ∈ s.dir, DirHeld s h k way p) :
    wayWalkDone s h found = s := by
  unfold wayWalkDone
  rw [hw]
  dsimp only
  rw [if_pos (dirHeld_any.mpr hd)]

theorem wayWalkDone_dir (hh : h < 12) (hk : k < 8) (hway : way < 16) (found : List LineFound) (hw : tget none h s.walkRun = some (.dirRetire k way))
    (hd : ∀ p ∈ s.dir, ¬DirHeld s h k way p) : let t := wayWalkDone s h found
    (rgF t .dirway (h * 8 + k) 15 0).testBit way = true ∧ bit (rg t .intsrc (32 * h + 2)) 1 = true ∧ tget none h t.walkRun = none := by
  dsimp only
  have hrun : wayWalkDone s h found = logErr (raiseSrc (setRgF (walkEnd s h) .dirway (h * 8 + k) way way 1) (32 * h + 2)) (.ev h) 0x23 k way 0 := by
    unfold wayWalkDone
    rw [hw]
    dsimp only
    rw [if_neg]
    intro hany
    obtain ⟨p, hp, hheld⟩ := dirHeld_any.mp hany
    exact hd p hp hheld
  obtain ⟨k1, k2, k3, _⟩ := wayOff_spec (r := .dirway) (i := h * 8 + k) (n := 32 * h + 2) (k := k) (kind := 0x23) (a := .ev h) (by omega) (by omega) hway
    (by decide) (by decide) (walkEnd s h) fun v => logEv_names hh ..
  rw [hrun]
  exact ⟨k1, k2, (congrArg (tget none h) k3).trans (walkEnd_none s h)⟩

theorem hioHeld_any : (s.hioWays.any fun p => p.2 == way && (hline s 0xF0 p.1).st != .i) = true ↔ ∃ p ∈ s.hioWays, p.2 = way ∧ (hline s 0xF0 p.1).st ≠ .i := by
  simp only [List.any_eq_true, Bool.and_eq_true, beq_iff_eq, bne_iff_ne]

theorem wayWalkDone_hioHeld (found : List LineFound) (hw : tget none 12 s.walkRun = some (.wayRetire k way))
    (hd : ∃ p ∈ s.hioWays, p.2 = way ∧ (hline s 0xF0 p.1).st ≠ .i) : wayWalkDone s 12 found = s := by
  unfold wayWalkDone
  rw [hw]
  dsimp only
  rw [if_pos rfl, if_pos (hioHeld_any.mpr hd)]

theorem wayWalkDone_hio (hway : way < 16) (found : List LineFound) (hw : tget none 12 s.walkRun = some (.wayRetire k way))
    (hd : ∀ p ∈ s.hioWays, p.2 = way → (hline s 0xF0 p.1).st = .i) : let t := wayWalkDone s 12 found
    (rgF t .hioway 0 15 0).testBit way = true ∧ bit (rg t .intsrc 920) 1 = true ∧ tget none 12 t.walkRun = none := by
  dsimp only
  have hrun : wayWalkDone s 12 found = logErr (raiseSrc (setRgF (walkEnd s 12) .hioway 0 way way 1) 920) .hubEv 0x24 0 way 0 := by
    unfold wayWalkDone
    rw [hw]
    dsimp only
    rw [if_pos rfl, if_neg]
    intro hany
    obtain ⟨p, hp, h1, h2⟩ := hioHeld_any.mp hany
    exact h2 (hd p hp h1)
  obtain ⟨k1, k2, k3, _⟩ := wayOff_spec (r := .hioway) (i := 0) (n := 920) (k := 0) (kind := 0x24) (a := .hubEv) (by decide) (by decide) hway
    (by decide) (by decide) (walkEnd s 12) fun v => logErr_event_namesOnly v 12 0x24 0 way 0
  rw [hrun]
  exact ⟨k1, k2, (congrArg (tget none 12) k3).trans (walkEnd_none s 12)⟩

/-! ### Walks that start (R272) -/

theorem setWalkStart_starts {w : WalkKind} {ws : List WalkKind} (hws : tget [] h s.walks = w :: ws) (hrun : tget none h s.walkRun = none)
    (hw : w = .invAll ∨ w = .flush ∨ (h < 12 ∧ ∃ k way, w = .wayRetire k way)) : let t := setWalkStart s h
    tget none h t.walkRun = some w ∧ tget [] h t.walks = ws ∧ { t with walkRun := s.walkRun, walks := s.walks } = s := by
  have hset : tget none h (tset none h (some w) s.walkRun) = some w := tget_tset_same _
  have hset' : tget [] h (tset [] h ws s.walks) = ws := tget_tset_same _
  obtain ⟨u, hu⟩ : ∃ u, ({ s with walks := tset [] h ws s.walks } : State) = u := ⟨_, rfl⟩
  have hbegin : walkBegin u h w = { u with walkRun := tset none h (some w) u.walkRun } := by
    rcases hw with rfl | rfl | ⟨hh, k, way, rfl⟩
    · rfl
    · rfl
    · exact if_neg (by omega)
  have hstart : setWalkStart s h = walkBegin u h w := by
    unfold setWalkStart
    rw [hrun, hws]
    dsimp only
    rw [if_neg (by decide), hu]
  dsimp only
  rw [hstart, hbegin, ← hu]
  exact ⟨hset, hset', rfl⟩

theorem setWalkStart_busy {w : WalkKind} {ws : List WalkKind} {r : WalkKind} (hws : tget [] h s.walks = w :: ws) (hrun : tget none h s.walkRun = some r)
    (hr : ∀ u, r = .range u → rangeIdle s u h = false) : setWalkStart s h = s := by
  unfold setWalkStart
  rw [hrun, hws]
  cases r with
  | range u =>
    dsimp only
    rw [hr u rfl]
    rfl
  | _ => rfl

end

/-! ### Range units (R267 to R271) -/

section
variable {s t v : State} {u : Nat}

/-- What a unit's requests leave of the unit and of the walks. -/
structure RangeKept (u : Nat) (s t : State) : Prop where
  busy : rgF t .rmstat u 7 0 = rgF s .rmstat u 7 0
  cmd : rg t .rmcmd u = rg s .rmcmd u

theorem RangeKept.refl (u : Nat) (s : State) : RangeKept u s s := ⟨rfl, rfl⟩

theorem RangeKept.trans (h1 : RangeKept u s t) (h2 : RangeKept u t v) : RangeKept u s v := ⟨h2.busy.trans h1.busy, h2.cmd.trans h1.cmd⟩

/-- A count of the unit, in bits above its status. -/
theorem RangeKept.inc (hu : u < 2 ^ 32) (s : State) {hi lo : Nat} (h1 : hi < 64) (h2 : lo ≤ hi) (h3 : 7 < lo) : RangeKept u s (incRgF s .rmstat u hi lo) :=
  ⟨rgF_setRgF_field _ _ _ _ _ _ _ _ h1 h2 (.inl h3), rg_setRg_other hu hu (by simp)⟩

/-- One line of a range operation: its counts, and its request sent. -/
theorem rangeLine_spec (hu : u < 2 ^ 32) (op h : Nat) (s : State) (line : Nat) : RangeKept u s (rangeLine u op h s line) ∧
    (rangeLine u op h s line).walkRun = s.walkRun ∧ (rangeLine u op h s line).walks = s.walks := by
  unfold rangeLine
  dsimp only
  split
  · exact ⟨.inc hu s (by decide) (by decide) (by decide), rfl, rfl⟩
  · obtain ⟨w, hw⟩ : ∃ w, (newTxid s).2 = w := ⟨_, rfl⟩
    have hkept : RangeKept u s w ∧ w.walkRun = s.walkRun ∧ w.walks = s.walks := hw ▸ ⟨⟨rfl, rfl⟩, rfl, rfl⟩
    obtain ⟨k1, k2, k3⟩ := hkept
    obtain ⟨x, hx⟩ : ∃ x, (if op ≠ 0 then incRgF w .rmstat u 63 32 else w) = x := ⟨_, rfl⟩
    have hxkept : RangeKept u w x ∧ x.walkRun = w.walkRun ∧ x.walks = w.walks := by
      rw [← hx]
      split
      · exact ⟨.inc hu w (by decide) (by decide) (by decide), rfl, rfl⟩
      · exact ⟨.refl u w, rfl, rfl⟩
    obtain ⟨e1, e2, e3⟩ := hxkept
    rw [hw, hx]
    exact ⟨(k1.trans e1).trans ⟨rfl, rfl⟩, e2.trans k2, e3.trans k3⟩

/-- The walk of a range begins at a home, or waits its turn there; the other homes' walks stay. -/
theorem queueWalk_range (hu : u < 2 ^ 32) (s : State) (h : Nat) : WalkDue (queueWalk s h (.range u)) h (.range u) ∧ RangeKept u s (queueWalk s h (.range u)) ∧
    ∀ g, g ≠ h → WalkDue s g (.range u) → WalkDue (queueWalk s h (.range u)) g (.range u) := by
  rw [queueWalk]
  split
  · obtain ⟨w, hw⟩ : ∃ w, ({ s with walkRun := tset none h (some (.range u)) s.walkRun } : State) = w := ⟨_, rfl⟩
    have hset : tget none h (tset none h (some (.range u)) s.walkRun) = some (.range u) := tget_tset_same _
    have hwrun : tget none h w.walkRun = some (.range u) := hw ▸ hset
    have hwother : ∀ g, g ≠ h → tget none g w.walkRun = tget none g s.walkRun := fun g hg => by
      have hne : tget none g (tset none h (some (WalkKind.range u)) s.walkRun) = tget none g s.walkRun := tget_tset_ne hg _
      exact hw ▸ hne
    have hwalks : w.walks = s.walks := hw ▸ rfl
    have hwkept : RangeKept u s w := hw ▸ ⟨rfl, rfl⟩
    have hbegin : walkBegin s h (.range u) = (rangeLines w u h).foldl (rangeLine u (rgF w .rmcmd u 1 0) h) w := by
      rw [walkBegin, hw]
    have hfold : RangeKept u w (walkBegin s h (.range u)) ∧ (walkBegin s h (.range u)).walkRun = w.walkRun ∧ (walkBegin s h (.range u)).walks = w.walks := by
      rw [hbegin]
      refine List.foldlRecOn (motive := fun x => RangeKept u w x ∧ x.walkRun = w.walkRun ∧ x.walks = w.walks) _ _ ⟨.refl u w, rfl, rfl⟩ fun x hx line _ => ?_
      obtain ⟨k1, k2, k3⟩ := rangeLine_spec hu (rgF w .rmcmd u 1 0) h x line
      obtain ⟨x1, x2, x3⟩ := hx
      exact ⟨x1.trans k1, k2.trans x2, k3.trans x3⟩
    obtain ⟨k1, k2, k3⟩ := hfold
    generalize walkBegin s h (.range u) = x at k1 k2 k3 ⊢
    refine ⟨.inl (k2 ▸ hwrun), hwkept.trans k1, fun g hg hd => ?_⟩
    rw [WalkDue, k2, k3, hwother g hg, hwalks]
    exact hd
  · have hset : tget [] h (tset [] h (tget [] h s.walks ++ [WalkKind.range u]) s.walks) = tget [] h s.walks ++ [.range u] := tget_tset_same _
    refine ⟨.inr ?_, ⟨rfl, rfl⟩, fun g hg hd => ?_⟩
    · rw [hset]
      exact List.mem_append_right _ List.mem_cons_self
    · have hother : tget [] g (tset [] h (tget [] h s.walks ++ [WalkKind.range u]) s.walks) = tget [] g s.walks := tget_tset_ne hg _
      rw [WalkDue, hother]
      exact hd

theorem foldl_queueWalk (hu : u < 2 ^ 32) (l : List Nat) (s : State) : RangeKept u s (l.foldl (fun s h => queueWalk s h (.range u)) s) ∧
    ∀ h ∈ l, WalkDue (l.foldl (fun s h => queueWalk s h (.range u)) s) h (.range u) := by
  refine ⟨List.foldlRecOn (motive := RangeKept u s) _ _ (.refl u s) fun t ht h _ => ht.trans (queueWalk_range hu t h).2.1, ?_⟩
  refine foldl_each (P := fun h t => WalkDue t h (.range u)) s (fun t h _ => (queueWalk_range hu t h).1) fun t h g _ _ hd => ?_
  by_cases hgh : g = h
  · exact hgh ▸ (queueWalk_range hu t h).1
  · exact (queueWalk_range hu t h).2.2 g hgh hd

variable {b : By} {op : Nat} {irq : Bool}

theorem rangeGo_foreign (h1 : u = 1) (h2 : bySec b = false) : rangeGo s b u op irq = s := by
  rw [rangeGo, if_pos ⟨h1, by simp [h2]⟩]

section
variable (h1 : u = 0 ∨ bySec b = true)
include h1

theorem rangeGo_mine : ¬(u = 1 ∧ (!(bySec b)) = true) := by
  rintro ⟨h2, h3⟩
  rcases h1 with h1 | h1
  · omega
  · rw [h1] at h3
    cases h3

theorem rangeGo_busy (h2 : rgF s .rmstat u 7 0 = 1) : rangeGo s b u op irq = setRgF s .rmstat u 8 8 1 := by
  rw [rangeGo, if_neg (rangeGo_mine h1), if_pos h2]

omit h1 in
/-- The fields a range command notes. -/
theorem rangeNoted_spec (hu : u < 2 ^ 32) (hop : op < 3) (s : State) (irq : Bool) : let w := setRgF (setRgF s .rmcmd u 4 4 irq.toNat) .rmcmd u 1 0 op
    RegsOnly [(.rmcmd, u)] s w ∧ rgF w .rmcmd u 1 0 = op ∧ rangeValid w u = rangeValid s u := by
  refine ⟨(RegsOnly.setRgF hu (by simp) ..).trans (.setRgF hu (by simp) ..), ?_, ?_⟩
  · exact (rgF_setRgF_same _ _ _ _ _ _ (by decide) (by decide)).trans (Nat.mod_eq_of_lt (by omega))
  · have hother : ∀ r, r ≠ .rmcmd → rg (setRgF (setRgF s .rmcmd u 4 4 irq.toNat) .rmcmd u 1 0 op) r u = rg s r u := fun r hr =>
      (rg_setRg_other hu hu fun he => hr (Prod.mk.inj he).1).trans (rg_setRg_other hu hu fun he => hr (Prod.mk.inj he).1)
    have hbase : ∀ hi lo, rgF (setRgF (setRgF s .rmcmd u 4 4 irq.toNat) .rmcmd u 1 0 op) .rmbase u hi lo = rgF s .rmbase u hi lo := fun hi lo =>
      congrArg (fld · hi lo) (hother .rmbase (by decide))
    have hlimit : ∀ hi lo, rgF (setRgF (setRgF s .rmcmd u 4 4 irq.toNat) .rmcmd u 1 0 op) .rmlimit u hi lo = rgF s .rmlimit u hi lo := fun hi lo =>
      congrArg (fld · hi lo) (hother .rmlimit (by decide))
    have hown : ∀ page, pageOwn (setRgF (setRgF s .rmcmd u 4 4 irq.toNat) .rmcmd u 1 0 op) page = pageOwn s page := fun _ => rfl
    have hpkg : (setRgF (setRgF s .rmcmd u 4 4 irq.toNat) .rmcmd u 1 0 op).pkg = s.pkg := rfl
    rw [rangeValid, rangeValid]
    rw [hbase, hlimit, hown, hown, hpkg]

theorem rangeGo_invalid (hu : u < 2 ^ 32) (hop : op < 3) (h2 : rgF s .rmstat u 7 0 ≠ 1) (h3 : rangeValid s u = false) : let t := rangeGo s b u op irq
    rgF t .rmstat u 7 0 = 0x10 ∧ RegsOnly [(.rmstat, u), (.rmcmd, u)] s t := by
  obtain ⟨k1, _, k3⟩ := rangeNoted_spec hu hop s irq
  have hrun : rangeGo s b u op irq = setRgF (setRgF (setRgF s .rmcmd u 4 4 irq.toNat) .rmcmd u 1 0 op) .rmstat u 7 0 0x10 := by
    rw [rangeGo, if_neg (rangeGo_mine h1), if_neg h2]
    dsimp only
    rw [if_pos hop, if_pos (.inr (by rw [k3, h3]; rfl))]
  dsimp only
  rw [hrun]
  exact ⟨rgF_setRgF_same _ _ _ _ _ _ (by decide) (by decide), (k1.mono (by simp)).trans (.setRgF hu (by simp) ..)⟩

theorem rangeGo_valid (hu : u < 2 ^ 32) (hop : op < 3) (h2 : rgF s .rmstat u 7 0 ≠ 1) (h3 : rangeValid s u = true) : let t := rangeGo s b u op irq
    rgF t .rmstat u 7 0 = 1 ∧ rgF t .rmcmd u 1 0 = op ∧ ∀ h, h < 12 → stkFenced s h = false → WalkDue t h (.range u) := by
  obtain ⟨k1, k2, k3⟩ := rangeNoted_spec hu hop s irq
  obtain ⟨w, hw⟩ : ∃ w, setRgF (setRgF s .rmcmd u 4 4 irq.toNat) .rmcmd u 1 0 op = w := ⟨_, rfl⟩
  rw [hw] at k1 k2 k3
  obtain ⟨x, hx⟩ : ∃ x, setRgF (setRgF (setRgF w .rmstat u 7 0 1) .rmstat u 63 32 0) .rmstat u 31 16 0 = x := ⟨_, rfl⟩
  have hxbusy : rgF x .rmstat u 7 0 = 1 := by
    rw [← hx, rgF_setRgF_field _ _ _ _ _ _ _ _ (by decide) (by decide) (by decide), rgF_setRgF_field _ _ _ _ _ _ _ _ (by decide) (by decide) (by decide)]
    exact rgF_setRgF_same _ _ _ _ _ _ (by decide) (by decide)
  have hxcmd : rg x .rmcmd u = rg w .rmcmd u := by
    rw [← hx]
    exact (rg_setRg_other hu hu (by simp)).trans ((rg_setRg_other hu hu (by simp)).trans (rg_setRg_other hu hu (by simp)))
  have hxfenced : x.fencedStk = s.fencedStk := by
    have hwf : w.fencedStk = s.fencedStk := hw ▸ rfl
    exact (hx ▸ rfl : x.fencedStk = w.fencedStk).trans hwf
  obtain ⟨y, hy⟩ : ∃ y, ({ x with
      rangeSec := tset false u (bySec b) x.rangeSec
      rangePois := tset false u false x.rangePois
      rangeTx := x.rangeTx.filter (fun t => t.1 != u) } : State) = y := ⟨_, rfl⟩
  have hykept : RangeKept u x y ∧ y.fencedStk = x.fencedStk := hy ▸ ⟨⟨rfl, rfl⟩, rfl⟩
  have hrun : rangeGo s b u op irq = ((List.range 12).filter (fun h => !(stkFenced y h))).foldl (fun s h => queueWalk s h (.range u)) y := by
    rw [rangeGo, if_neg (rangeGo_mine h1), if_neg h2]
    dsimp only
    rw [if_pos hop, hw, if_neg (by simp [k3, h3]; omega), hx, hy]
  obtain ⟨e1, e2⟩ := foldl_queueWalk hu ((List.range 12).filter (fun h => !(stkFenced y h))) y
  obtain ⟨⟨y1, y2⟩, y3⟩ := hykept
  dsimp only
  rw [hrun]
  refine ⟨e1.busy.trans (y1.trans hxbusy), (congrArg (fld · 1 0) (e1.cmd.trans (y2.trans hxcmd))).trans k2, fun h hh hf => e2 h ?_⟩
  refine List.mem_filter.mpr ⟨List.mem_range.mpr hh, ?_⟩
  rw [stkFenced, y3, hxfenced]
  simpa [stkFenced] using hf

end

/-- The walks of a range end at every home of a list. -/
theorem rangeWalks_end (u : Nat) (l : List Nat) (t : Tab (Option WalkKind)) :
    ∀ h ∈ l, tget none h (l.foldl (fun t h => if tget none h t = some (.range u) then tset none h none t else t) t) ≠ some (.range u) := by
  refine foldl_each (P := fun h t => tget none h t ≠ some (WalkKind.range u)) t (fun t h _ => ?_) fun t h g _ _ hg => ?_
  · split
    · rw [tget_tset_same]
      simp
    · assumption
  · split
    · by_cases hgh : g = h
      · rw [hgh, tget_tset_same]
        simp
      · rwa [tget_tset_ne hgh]
    · exact hg

/-- The end of a range operation (R270). -/
theorem rangeComplete_spec (hu : u < 2) (h1 : rgF s .rmstat u 7 0 = 1) (h2 : ∀ h, h < 12 → rangeHomeDone s u h = true) : let t := rangeComplete s u
    rgF t .rmstat u 7 0 = (if tget false u s.rangePois then 3 else 2) ∧ (rgF s .rmcmd u 4 4 = 1 → bit (rg t .intsrc (912 + u)) 1 = true) ∧
      (∀ h, h < 12 → tget none h t.walkRun ≠ some (.range u)) ∧ t.dram = s.dram := by
  have hu32 : u < 2 ^ 32 := by omega
  have hends := rangeWalks_end u (List.range 12) s.walkRun
  obtain ⟨r, hr⟩ : ∃ r, (List.range 12).foldl (fun t h => if tget none h t = some (.range u) then tset none h none t else t) s.walkRun = r := ⟨_, rfl⟩
  rw [hr] at hends
  obtain ⟨w, hw⟩ : ∃ w, ({ s with
      rangeTx := s.rangeTx.filter (fun t => t.1 != u)
      walkRun := r } : State) = w := ⟨_, rfl⟩
  have hwrun : ∀ h, h < 12 → tget none h w.walkRun ≠ some (.range u) := fun h hh => hw ▸ hends h (List.mem_range.mpr hh)
  have hwkept : w.rangePois = s.rangePois ∧ w.dram = s.dram ∧ rg w .rmcmd u = rg s .rmcmd u := hw ▸ ⟨rfl, rfl, rfl⟩
  obtain ⟨w1, w2, w3⟩ := hwkept
  obtain ⟨x, hx⟩ : ∃ x, setRgF w .rmstat u 7 0 (if tget false u w.rangePois then 3 else 2) = x := ⟨_, rfl⟩
  have hxstat : rgF x .rmstat u 7 0 = if tget false u s.rangePois then 3 else 2 := by
    rw [← hx, w1, rgF_setRgF_same _ _ _ _ _ _ (by decide) (by decide)]
    split <;> rfl
  have hxcmd : rgF x .rmcmd u 4 4 = rgF s .rmcmd u 4 4 := by
    rw [← hx]
    exact congrArg (fld · 4 4) ((rg_setRg_other hu32 hu32 (by simp)).trans w3)
  have hxkept : x.walkRun = w.walkRun ∧ x.dram = w.dram := hx ▸ ⟨rfl, rfl⟩
  obtain ⟨x1, x2⟩ := hxkept
  have hrun : rangeComplete s u = if rgF x .rmcmd u 4 4 = 1 then raiseSrc x (912 + u) else x := by
    rw [rangeComplete, if_neg, hr, hw]
    · dsimp only
      rw [hx]
    · rintro (h | h)
      · exact h h1
      · rw [Bool.not_eq_true', ← Bool.not_eq_true, List.all_eq_true] at h
        exact h fun k hk => h2 k (List.mem_range.mp hk)
  dsimp only
  rw [hrun, hxcmd]
  split
  next hc =>
    refine ⟨(congrArg (fld · 7 0) (rg_raiseSrc (by omega) hu32 (by simp))).trans hxstat, fun _ => bit_raiseSrc (by omega), fun h hh => ?_, x2.trans w2⟩
    have hraise : (raiseSrc x (912 + u)).walkRun = x.walkRun := rfl
    rw [hraise, x1]
    exact hwrun h hh
  next hc => exact ⟨hxstat, fun h => absurd h hc, fun h hh => x1 ▸ hwrun h hh, x2.trans w2⟩

theorem rangeComplete_waits {h : Nat} (hh : h < 12) (h2 : rangeHomeDone s u h = false) : rangeComplete s u = s := by
  rw [rangeComplete, if_pos]
  refine .inr ?_
  rw [Bool.not_eq_true', ← Bool.not_eq_true, List.all_eq_true]
  exact fun hall => by simpa [h2] using hall h (List.mem_range.mpr hh)

end

/-! ### The obligation -/

section
variable {s : State} {b : By} {h : StackId}

theorem execL3_eq (hown : ownStk s h = false ∨ bySec b = true) (v : Word) : l3ctlBy s b h v = l3ctlWrite s h v := ownWrite_allowed hown

theorem l3InvAll_spec (hown : ownStk s h = false ∨ bySec b = true) (h1 : rgF s .l3ctl h 0 0 = 0) (h2 : rgF s .l3stat h 3 3 = 0) (h3 : rgF s .l3stat h 2 2 = 0) :
    ∃ t, exec (.l3InvAll b h false) s = .next t ∧ rgF t .l3stat h 1 1 = 0 ∧ rgF t .l3stat h 2 2 = 1 ∧ WalkDue t h .invAll ∧ t.l3 = s.l3 := by
  obtain ⟨u, hu⟩ : ∃ u, setRgF (setRgF s .l3stat h 1 1 0) .l3stat h 2 2 1 = u := ⟨_, rfl⟩
  have hukept : rgF u .l3stat h 1 1 = 0 ∧ rgF u .l3stat h 2 2 = 1 ∧ u.l3 = s.l3 := by
    rw [← hu]
    refine ⟨?_, rgF_setRgF_same _ _ _ _ _ _ (by decide) (by decide), rfl⟩
    exact (rgF_setRgF_field _ _ _ _ _ _ _ _ (by decide) (by decide) (by decide)).trans (rgF_setRgF_same _ _ _ _ _ _ (by decide) (by decide))
  obtain ⟨k1, k2⟩ := queueWalk_spec u h (.inl rfl : WalkKind.invAll = .invAll ∨ WalkKind.invAll = .flush)
  have hrun : l3ctlBy s b h 2 = queueWalk u h .invAll := (execL3_eq hown 2).trans ((l3ctl_invAll s h h1 h2 h3).trans (by rw [hu]))
  refine ⟨_, congrArg ok hrun, ?_⟩
  generalize queueWalk u h.val .invAll = t at k1 k2 ⊢
  have hregs : t.regs = u.regs := by
    have he := congrArg State.regs k2
    exact he
  have hl3 : t.l3 = u.l3 := by
    have he := congrArg State.l3 k2
    exact he
  have hst : ∀ i, rgF t .l3stat h i i = rgF u .l3stat h i i := fun i => by rw [rgF, rg, hregs, rgF, rg]
  obtain ⟨e1, e2, e3⟩ := hukept
  exact ⟨(hst 1).trans e1, (hst 2).trans e2, k1, hl3.trans e3⟩

theorem l3Disable_spec (hown : ownStk s h = false ∨ bySec b = true) (h1 : rgF s .l3ctl h 0 0 = 1) :
    ∃ t, exec (.l3Disable b h) s = .next t ∧ rgF t .l3ctl h 0 0 = 0 ∧ rgF t .l3stat h 3 3 = 1 ∧ WalkDue t h .flush ∧ t.l3 = s.l3 := by
  obtain ⟨u, hu⟩ : ∃ u, setRgF (setRgF s .l3ctl h 0 0 0) .l3stat h 3 3 1 = u := ⟨_, rfl⟩
  have hukept : rgF u .l3ctl h 0 0 = 0 ∧ rgF u .l3stat h 3 3 = 1 ∧ u.l3 = s.l3 := by
    rw [← hu]
    refine ⟨?_, rgF_setRgF_same _ _ _ _ _ _ (by decide) (by decide), rfl⟩
    exact (rgF_setRgF_name (by simp) (by omega) (by omega)).trans (rgF_setRgF_same _ _ _ _ _ _ (by decide) (by decide))
  obtain ⟨k1, k2⟩ := queueWalk_spec u h (.inr rfl : WalkKind.flush = .invAll ∨ WalkKind.flush = .flush)
  have hrun : l3ctlBy s b h 0 = queueWalk u h .flush := (execL3_eq hown 0).trans ((l3ctl_disable s h h1).trans (by rw [hu]))
  refine ⟨_, congrArg ok hrun, ?_⟩
  generalize queueWalk u h.val .flush = t at k1 k2 ⊢
  have hregs : t.regs = u.regs := by
    have he := congrArg State.regs k2
    exact he
  have hl3 : t.l3 = u.l3 := by
    have he := congrArg State.l3 k2
    exact he
  have hf : ∀ r i, rgF t r h i i = rgF u r h i i := fun r i => by rw [rgF, rg, hregs, rgF, rg]
  obtain ⟨e1, e2, e3⟩ := hukept
  exact ⟨(hf _ 0).trans e1, (hf _ 3).trans e2, k1, hl3.trans e3⟩

/-- The registers of a stack that the monitor owns, written by another (R503). -/
theorem ownedStack_denied {n : Fin 16} {v : Word} {en ev : Bool} {d : Fin 13} (h1 : bySec b = false) (h2 : ownStk s h = true) (hd : d.val = h.val) {i : Instr}
    (hi : i ∈ [Instr.l3InvAll b h en, .l3Enable b h, .l3Disable b h, .pmaskWrite b h n v, .logClear b d ev]) : ∃ t, exec i s = .next t ∧ DeniedOnly s t b := by
  simp only [List.mem_cons, List.not_mem_nil, or_false] at hi
  have hlt : h.val < 12 := h.isLt
  rcases hi with rfl | rfl | rfl | rfl | rfl
  · exact ⟨_, rfl, ownWrite_denied h2 h1⟩
  · exact ⟨_, rfl, ownWrite_denied h2 h1⟩
  · exact ⟨_, rfl, ownWrite_denied h2 h1⟩
  · exact ⟨_, rfl, ownWrite_denied h2 h1⟩
  · refine ⟨_, rfl, ownWrite_denied ?_ h1⟩
    rw [hd, h2]
    simp [hlt]

end

/-- Settles O51: the L3's commands through the walks they make due, the walks line by line, and a range command home by home. -/
theorem l3WalksAndRanges : Obligations.L3WalksAndRanges := by
  unfold Obligations.L3WalksAndRanges
  refine ⟨fun b h en s hown => ?_, fun b h n v en ev d s h1 h2 hd i hi => ownedStack_denied h1 h2 hd hi, fun h found s => ?_, fun h s => ?_, fun b h n v s => ?_,
    fun b u irq s => ?_⟩
  · dsimp only
    have hh : h.val < 2 ^ 32 := by omega
    refine ⟨l3InvAll_spec hown, fun h1 => ?_, fun h1 => ⟨_, congrArg ok ((execL3_eq hown 1).trans (l3ctl_keepOn s h h1)), rfl⟩, fun h1 h2 h3 => ?_,
      fun h1 h2 => ?_, l3Disable_spec hown, fun h1 => ⟨_, congrArg ok ((execL3_eq hown 0).trans (l3ctl_keepOff s h h1)), rfl⟩⟩
    · rcases l3ctl_invAllRefused s h h1 with hrun | hrun
      · exact ⟨_, congrArg ok ((execL3_eq hown 3).trans hrun), rgF_setRgF_same _ _ _ _ _ _ (by decide) (by decide), RegsOnly.setRgF hh (by simp) ..⟩
      · refine ⟨_, congrArg ok ((execL3_eq hown 3).trans hrun), ?_, (RegsOnly.setRgF hh (by simp) ..).trans (.setRgF hh (by simp) ..)⟩
        exact (rgF_setRgF_field _ _ _ _ _ _ _ _ (by decide) (by decide) (by decide)).trans (rgF_setRgF_same _ _ _ _ _ _ (by decide) (by decide))
    · exact ⟨_, congrArg ok ((execL3_eq hown 1).trans (l3ctl_enable s h h1 h2 h3)), rgF_setRgF_same _ _ _ _ _ _ (by decide) (by decide), RegsOnly.setRgF hh (by simp) ..⟩
    · exact ⟨_, congrArg ok ((execL3_eq hown 1).trans (l3ctl_enableEarly s h h1 h2)), (rgF_setRgF_name (by simp) hh hh).trans h1,
        rgF_setRgF_same _ _ _ _ _ _ (by decide) (by decide), RegsOnly.setRgF hh (by simp) ..⟩
  · have hh : h.val < 12 := h.isLt
    refine ⟨fun h1 => ⟨_, rfl, invAllDone_spec h1⟩, fun h1 => ⟨_, congrArg ok (if_pos h1), flushEnd_spec hh found s⟩, fun h1 => ⟨_, rfl, sweepDone_spec h1⟩,
      fun h1 h2 i hi => ?_, fun k way hk hway hw => ⟨_, rfl, wayWalkDone_l3 hh hk hway found hw⟩, fun k way hk hway hw => ?_, fun k way hway hw => ?_⟩
    · simp only [List.mem_cons, List.not_mem_nil, or_false] at hi
      rcases hi with rfl | rfl | rfl
      · exact ⟨s, congrArg ok (if_neg (by rw [h1]; simp)), rfl⟩
      · exact ⟨s, congrArg ok (if_neg (by rw [h1]; simp)), rfl⟩
      · exact ⟨s, congrArg ok (if_neg (by rw [h2]; simp)), rfl⟩
    · exact ⟨fun hd => ⟨_, rfl, wayWalkDone_dir hh hk hway found hw hd⟩, fun hd => ⟨s, congrArg ok (wayWalkDone_dirHeld found hw hd), rfl⟩⟩
    · exact ⟨fun hd => ⟨_, rfl, wayWalkDone_hio hway found hw hd⟩, fun hd => ⟨s, congrArg ok (wayWalkDone_hioHeld found hw hd), rfl⟩⟩
  · refine ⟨fun h1 => ⟨s, congrArg ok ?_, rfl⟩, fun w ws hws => ⟨fun h1 h2 => ⟨_, rfl, setWalkStart_starts hws h1 h2⟩,
      fun r h1 h2 => ⟨s, congrArg ok (setWalkStart_busy hws h1 h2), rfl⟩⟩⟩
    unfold setWalkStart
    rw [h1]
  · have hi : h.val * 16 + n.val < 2 ^ 32 := by omega
    dsimp only
    refine ⟨fun h1 => ⟨_, congrArg ok ((ownWrite_allowed (.inr h1)).trans (if_pos h1)), ?_⟩, fun h1 h2 h3 => ?_, fun h1 h2 h3 => ?_⟩
    · obtain ⟨k1, k2, k3⟩ := pmask_only (s := s) hi (fld v 15 0) (fld v 32 32)
      exact ⟨k1.trans (Nat.mod_eq_of_lt (fld_lt v 15 0)), k2.trans (Nat.mod_eq_of_lt (fld_lt v 32 32)), k3⟩
    · refine ⟨_, congrArg ok ((ownWrite_allowed (.inl h2)).trans ((if_neg (by simp [h1])).trans (if_neg (by simp [h3])))), ?_, ?_, RegsOnly.setRgF hi (by simp) ..⟩
      · exact (rgF_setRgF_same _ _ _ _ _ _ (by decide) (by decide)).trans (Nat.mod_eq_of_lt (fld_lt v 15 0))
      · rw [rgF_setRgF_field _ _ _ _ _ _ _ _ (by decide) (by decide) (by decide), rgF, fld_one_bit, h3]
        rfl
    · exact ⟨s, congrArg ok ((ownWrite_allowed (.inl h2)).trans ((if_neg (by simp [h1])).trans (if_pos h3))), rfl⟩
  · have hu : u.val < 2 ^ 32 := by omega
    refine ⟨fun r hr => ?_, fun h1 h2 => ⟨_, rfl, rangeComplete_spec u.isLt h1 h2⟩, fun h h1 hh h2 => ⟨s, congrArg ok (rangeComplete_waits hh h2), rfl⟩⟩
    obtain ⟨hop, hrun⟩ : r.2 < 3 ∧ exec r.1 s = .next (rangeGo s b u.val r.2 irq) := by
      simp only [List.mem_cons, List.not_mem_nil, or_false] at hr
      rcases hr with rfl | rfl | rfl
      · exact ⟨by simp, rfl⟩
      · exact ⟨by simp, rfl⟩
      · exact ⟨by simp, rfl⟩
    refine ⟨fun h1 h2 => ⟨s, hrun.trans (congrArg ok (rangeGo_foreign h1 h2)), rfl⟩, fun h1 => ⟨fun h2 => ?_, fun h2 h3 => ?_, fun h2 h3 => ?_⟩⟩
    · exact ⟨_, hrun.trans (congrArg ok (rangeGo_busy h1 h2)), rgF_setRgF_same _ _ _ _ _ _ (by decide) (by decide), RegsOnly.setRgF hu (by simp) ..⟩
    · exact ⟨_, hrun, rangeGo_invalid h1 hu hop h2 h3⟩
    · exact ⟨_, hrun, rangeGo_valid h1 hu hop h2 h3⟩

end Sys2Proof.Machine
end


section
/-! PROOFS. Bring-up: the modules a channel finds when its tile is initialised (R369, R370, R627). -/
namespace Sys2Proof.Machine

open Sys2Proof

/-- A package in stage TILES of bring-up whose only live stack is stack 0, with its spoke link ACTIVE at both ends. -/
def oneTile : State :=
  let s := State.reset
  { s with
    regs := [(regKey .linkstat 2, 5), (regKey .hubLinkstat 0, 5), (regKey .bustat 0, 0x2000000000000001)]
    fencedStk := [1, 2, 3, 4, 5, 6, 7, 8, 9, 10, 11].map (·, true)
    resetN := true
    rs := { s.rs with pwrgood := true }
    mp := { s.mp with boot := 1 } }

/-- 3DS modules with x8 devices on every channel, which no channel supports (R369). -/
def x8Modules : List ChMods := List.replicate 24 { kind := 1, dimms := 1, x8 := true }

theorem oneTile_ready : bringing oneTile = true ∧ phase oneTile = 2 ∧ ∀ n ∈ liveStks oneTile, stkState oneTile n = 1 ∧ spokeUp oneTile n = true := by
  decide

theorem oneTile_live : stkFenced oneTile 0 = false := by decide

/-- A channel with modules the device does not support is FAILED (R369). -/
theorem chState_chStart_unsupported {s : State} {c : Nat} (h : (tget {} c s.rs.mods).dimms ≠ 0) (hbad : modsOk (tget {} c s.rs.mods) = false) :
    chState (chStart s c) c = 3 := by
  have hfails : (!modsOk (tget {} c s.rs.mods) || some (tget {} c s.rs.mods).kind != modType s) = true := by simp [hbad]
  rw [chStart, chState, if_neg h, if_pos hfails]
  exact rgF_setRgF_same _ .mcstat c _ _ _ (by decide) (by decide)

/-- A channel's start leaves the state of another channel. -/
theorem chState_chStart_other {s : State} {c d : Nat} (h : d ≠ c) : chState (chStart s c) d = chState s d := by
  simp only [chStart, chState, rgF_setRgF_index h]

/-- The modules found, kept for each channel. -/
def modsFound (mods : List ChMods) (s : State) : State :=
  { s with rs := { s.rs with mods := (List.range 24).foldl (fun t c => tset {} c (mods.getD c {}) t) s.rs.mods } }

/-- A tile starts its sweep (R627). -/
def startSweep (s : State) (n : Nat) : State :=
  { s with
    sweeping := tset false n true s.sweeping
    rs := { s.rs with tileAt := tset 0 n (now s) s.rs.tileAt } }

/-- Tile n clears its directory, starts its channels and its sweep (R627). -/
def initTile (s : State) (n : Nat) : State :=
  startSweep (chStart (chStart (setStkState (dirClear s n) n 2) (2 * n)) (2 * n + 1)) n

/-- Tile 0 alone initialises its two channels, with the modules found. -/
theorem bringTileInit_single {s : State} (hs : bringing s = true) (hp : phase s = 2) (hl : liveStks s = [0])
    (hup : stkState s 0 = 1 ∧ spokeUp s 0 = true) (mods : List ChMods) : bringTileInit s mods = initTile (modsFound mods s) 0 := by
  have hfold : bringTileInit s mods = (liveStks (modsFound mods s)).foldl initTile (modsFound mods s) := by
    rw [bringTileInit, if_neg (by simp [hs, hp, hl, hup])]
    rfl
  have hlive : liveStks (modsFound mods s) = [0] := hl
  rw [hfold, hlive, List.foldl_cons, List.foldl_nil]

theorem chState_startSweep (s : State) (n c : Nat) : chState (startSweep s n) c = chState s c := rfl

/-- Channel 0 is FAILED once its tile is initialised with 3DS modules of x8 devices. -/
theorem chState_x8Modules : chState (bringTileInit oneTile x8Modules) 0 = 3 := by
  rw [bringTileInit_single oneTile_ready.1 oneTile_ready.2.1 (by decide) (by decide), initTile, chState_startSweep,
    chState_chStart_other (by decide)]
  exact chState_chStart_unsupported (by decide) (by decide)

/-- Refutes O57: with 3DS modules of x8 devices on all channels (one kind, below 3, but not supported: R369) a channel goes to FAILED
when its tile is initialised, while the statement has it train. -/
theorem not_bringUpSequence : ¬ Obligations.BringUpSequence := by
  rintro ⟨_, _, hinit, _⟩
  obtain ⟨t, ht, htile⟩ := (hinit x8Modules oneTile).2 oneTile_ready
  obtain ⟨_, _, _, _, hch⟩ := htile 0 (by decide) oneTile_live
  have htrains := (hch 0 (by decide)).2.2 (by decide) (by decide) (by decide)
  rw [← Host.Outcome.next.inj ht] at htrains
  exact absurd (htrains.symm.trans chState_x8Modules) (by decide)

end Sys2Proof.Machine
end


section
/-! PROOFS. The management processor's boot and mailboxes, shedding and the watchdog (R597 to R605); the heat log's records and commits
(R606 to R610). -/
namespace Sys2Proof.Machine

open Sys2Proof

/-! ### Parts of a line -/

theorem lineGet_linePut_inside (d : LineData) {off n off' n' : Nat} (x : Nat) (h : off + n ≤ 64) (hl : off ≤ off') (hh : off' + n' ≤ off + n) :
    lineGet (linePut d off n x) off' n' = x / 2 ^ (8 * (off' - off)) % 2 ^ (8 * n') := by
  apply Nat.eq_of_testBit_eq
  intro k
  rw [lineGet_testBit, Nat.testBit_mod_two_pow, Nat.testBit_div_two_pow]
  by_cases hk : k < 8 * n'
  · rw [linePut_getLsbD _ _ _ _ _ (by omega), if_pos (by omega), show 8 * off' + k - 8 * off = k + 8 * (off' - off) by omega]
  · simp [hk]

theorem lineGet_linePut_apart (d : LineData) {off n off' n' : Nat} (x : Nat) (h : off' + n' ≤ 64) (hne : off' + n' ≤ off ∨ off + n ≤ off') :
    lineGet (linePut d off n x) off' n' = lineGet d off' n' := by
  apply Nat.eq_of_testBit_eq
  intro k
  rw [lineGet_testBit, lineGet_testBit]
  by_cases hk : k < 8 * n'
  · rw [linePut_getLsbD _ _ _ _ _ (by omega), if_neg (by omega)]
  · simp [hk]

/-! ### The header of a request block (R600) -/

theorem mbHeader_status (d : LineData) (status : Nat) (done : Bool) (retry : Nat) : fld (mbHeader d status done retry) 15 8 = status % 256 := by
  rw [mbHeader, fld_setFld_ne _ _ _ _ _ _ (by decide) (by decide) (by decide), fld_setFld_ne _ _ _ _ _ _ (by decide) (by decide) (by decide),
    fld_setFld_same _ _ _ _ (by decide) (by decide), show 2 ^ (15 + 1 - 8) = 256 by decide]

theorem mbHeader_done (d : LineData) (status : Nat) (done : Bool) (retry : Nat) : fld (mbHeader d status done retry) 0 0 = done.toNat := by
  rw [mbHeader, fld_setFld_ne _ _ _ _ _ _ (by decide) (by decide) (by decide), fld_setFld_same _ _ _ _ (by decide) (by decide)]
  cases done <;> rfl

/-- The status a block's header shows. -/
theorem bPut_header_status (d : LineData) (h : Word) : lineGet (bPut d 0 8 h.toNat) 1 1 = fld h 15 8 := by
  rw [bPut, lineGet_linePut_inside _ _ (by decide) (by decide) (by decide), fld, Nat.shiftRight_eq_div_pow]

/-- The DONE bit a block's header shows. -/
theorem bPut_header_done (d : LineData) (h : Word) : lineGet (bPut d 0 8 h.toNat) 0 1 % 2 = fld h 0 0 := by
  rw [bPut, lineGet_linePut_inside _ _ (by decide) (by decide) (by decide), fld, Nat.shiftRight_eq_div_pow]
  omega

/-! ### Boot (R597 to R599) -/

section
variable {s : State}

theorem mbServe_eq (s : State) : ∃ x, mbServe s = { s with mp := { s.mp with serv := x } } := by
  unfold mbServe
  split
  · exact ⟨_, rfl⟩
  · exact ⟨s.mp.serv, rfl⟩

theorem rstDone_regsOnly (s : State) (op t code : Nat) : RegsOnly [(.rststat, 0)] s (rstDone s op t code) := by
  unfold rstDone
  split
  · exact (RegsOnly.setRgF (by decide) List.mem_cons_self s 7 0 code).trans (RegsOnly.setRgF (by decide) List.mem_cons_self _ 11 8 op)
  · exact .refl _ s

/-- The image that is accepted runs (R597). -/
theorem mpBootRun_accepts {i : BootIn} {im : Nat} {bs : List Byte} (h1 : s.mp.boot = 0) (h2 : s.resetN = true) (h3 : s.rs.pwrgood = true)
    (h4 : s.rs.run = none) (hfind : (bootTries s i).find? (fun t => t.2.1) = some (im, true, bs)) (him : im < 4) :
    (mpBootRun s i).mp.boot = 1 ∧ (getCore (mpBootRun s i) mpCore).held = false ∧ rgF (mpBootRun s i) .mpstat 0 47 46 = im ∧
      (mpBootRun s i).mp.wdAt = now s := by
  obtain ⟨u, hu⟩ : ∃ u, hlDevice (setRgF s .mpstat 0 47 46 im) 0x0010 0x2000 (im * 2 ^ 24) (BitVec.ofNat 256 (ofBytesLE (sha256 bs))) = u := ⟨_, rfl⟩
  have honly : { u with hlog := s.hlog } = setRgF s .mpstat 0 47 46 im := hu ▸ hlDevice_only ..
  have hregs : u.regs = (setRgF s .mpstat 0 47 46 im).regs := by
    have he := congrArg State.regs honly
    exact he
  have hnow : u.ptime = s.ptime := by
    have he := congrArg State.ptime honly
    exact he
  obtain ⟨k, hk⟩ : ∃ k : Core, k = { getCore u mpCore with held := false, pc := BitVec.ofNat 64 ((Config.freeWord u.freeCtr).toNat % 2 ^ 32 / 4 * 4) } := ⟨_, rfl⟩
  obtain ⟨v, hv⟩ : ∃ v : State, v = { setCore { u with freeCtr := u.freeCtr + 1 } mpCore k with
      mp := { u.mp with boot := 1, wdAt := now u }
      rs := { u.rs with boot := if u.rs.boot = 0 then 1 else u.rs.boot } } := ⟨_, rfl⟩
  have hrun : mpBootRun s i = mbServe (rstDone v 4 0 2) := by
    rw [mpBootRun, if_neg (by simp [h1, h2, h3, h4]), hv, hk]
    dsimp only
    rw [hfind]
    dsimp only
    rw [hu]
    rfl
  obtain ⟨x, hx⟩ := mbServe_eq (rstDone v 4 0 2)
  obtain ⟨hrest, hother⟩ := rstDone_regsOnly v 4 0 2
  generalize rstDone v 4 0 2 = w at hrun hx hrest hother
  have hmp : w.mp = v.mp := by
    have he := congrArg State.mp hrest
    exact he
  have hcores : w.cores = v.cores := by
    have he := congrArg State.cores hrest
    exact he
  have hvmp : v.mp.boot = 1 ∧ v.mp.wdAt = now u := hv ▸ ⟨rfl, rfl⟩
  have hvregs : v.regs = u.regs := hv ▸ rfl
  have hvheld : getCore v mpCore = k := hv ▸ core_setCore_same ..
  rw [hrun, hx]
  refine ⟨(congrArg MpSt.boot hmp).trans hvmp.1, ?_, ?_, ?_⟩
  · have hc : getCore w mpCore = getCore v mpCore := congrArg (tget (coreRst mpCore) mpCore) hcores
    exact (congrArg Core.held (hc.trans hvheld)).trans (hk ▸ rfl)
  · have hw : rg w .mpstat 0 = rg v .mpstat 0 := hother _ _ (by decide) (by decide)
    have hvu : rg v .mpstat 0 = rg (setRgF s .mpstat 0 47 46 im) .mpstat 0 := congrArg (tget _ _) (hvregs.trans hregs)
    refine (congrArg (fld · 47 46) (hw.trans hvu)).trans ?_
    exact (rgF_setRgF_same s .mpstat 0 47 46 im (by decide) (by decide)).trans (Nat.mod_eq_of_lt him)
  · exact ((congrArg MpSt.wdAt hmp).trans hvmp.2).trans (congrArg BitVec.toNat hnow)

/-- Without an image that holds, the boot ROM stays (R599). -/
theorem mpBootRun_fails {i : BootIn} (h1 : s.mp.boot = 0) (h2 : s.resetN = true) (h3 : s.rs.pwrgood = true) (h4 : s.rs.run = none)
    (hfind : (bootTries s i).find? (fun t => t.2.1) = none) :
    (mpBootRun s i).mp.boot = 2 ∧ rgF (mpBootRun s i) .mpstat 0 47 46 = 3 ∧ (mpBootRun s i).cores = s.cores := by
  obtain ⟨u, hu⟩ : ∃ u, hlDevice (setRgF s .mpstat 0 47 46 3) 0x0011 0x2000 (bootTries s i).length 0 = u := ⟨_, rfl⟩
  have honly : { u with hlog := s.hlog } = setRgF s .mpstat 0 47 46 3 := hu ▸ hlDevice_only ..
  have hregs : u.regs = (setRgF s .mpstat 0 47 46 3).regs := by
    have he := congrArg State.regs honly
    exact he
  have hcores : u.cores = s.cores := by
    have he := congrArg State.cores honly
    exact he
  have hrun : mpBootRun s i = { u with mp := { u.mp with boot := 2 } } := by
    rw [mpBootRun, if_neg (by simp [h1, h2, h3, h4])]
    dsimp only
    rw [hfind, ← hu]
  rw [hrun]
  refine ⟨rfl, ?_, hcores⟩
  refine (congrArg (fun r => fld (tget (regResetAt .mpstat 0) (regKey .mpstat 0) r) 47 46) hregs).trans ?_
  exact rgF_setRgF_same s .mpstat 0 47 46 3 (by decide) (by decide)

end

/-! ### Posts (R601, R602) -/

section
variable {s : State} {c : Nat} {e : MbEntry}

theorem mbEnter_room (h : (mbQ s c).length < 64) :
    lineGet (mbEnter s c e).1 1 1 = 1 ∧ mbQ (mbEnter s c e).2 c = mbQ s c ++ [{ e with at_ := now s }] := by
  rw [mbEnter, if_pos h]
  refine ⟨(bPut_header_status ..).trans ((mbHeader_status ..).trans (by decide)), ?_⟩
  rw [mbQ_mbServe, mbQ_setMbQ]

theorem mbEnter_full (h : 64 ≤ (mbQ s c).length) : lineGet (mbEnter s c e).1 1 1 = 4 ∧ (mbEnter s c e).2 = s := by
  rw [mbEnter, if_neg (by omega)]
  exact ⟨(bPut_header_status ..).trans ((mbHeader_status ..).trans (by decide)), rfl⟩

theorem mbPost_refused {b : By} {line : Nat} {f : Findings} (h1 : c = 1) (h2 : bySec b = false) : mbPost s b c line f = s := by
  rw [mbPost, if_pos ⟨h1, by rw [h2]; rfl⟩]

section
variable {b : By} {line : Nat} {f : Findings} {d : LineData} {v : State} (h : c = 0 ∨ bySec b = true)
include h

theorem mbPost_err (hr : blockRead s 19 (mbWorld (2 - c)) (line * 64) f = (.err, d, v)) : mbPost s b c line f = hubEnd v := by
  rw [mbPost, if_neg (by rcases h with h | h <;> simp [h])]
  dsimp only
  rw [hr]

theorem mbPost_wait (hr : blockRead s 19 (mbWorld (2 - c)) (line * 64) f = (.wait, d, v)) : mbPost s b c line f = hubEnd (hubPause s v) := by
  rw [mbPost, if_neg (by rcases h with h | h <;> simp [h])]
  dsimp only
  rw [hr]

theorem mbPost_ok {d' : LineData} {w u : State} {go : Bool} (hr : blockRead s 19 (mbWorld (2 - c)) (line * 64) f = (.ok, d, v))
    (he : mbEnter v (2 - c) ⟨d, line * 64, 0, 0⟩ = (d', w))
    (hw : blockWrite w 19 (mbWorld (2 - c)) (line * 64) (bytesLE 8 (lineGet d' 0 8)) f = (go, u)) :
    mbPost s b c line f = hubEnd (if go then u else hubPause s u) := by
  rw [mbPost, if_neg (by rcases h with h | h <;> simp [h])]
  dsimp only
  rw [hr]
  dsimp only
  rw [he]
  dsimp only
  rw [hw]
  rfl

end

/-- The state after a post of the master package's management processor (R602). -/
def tundishPosted (s : State) (blk : LineData) : State :=
  { (mbEnter s 0 ⟨blk, 0, 0, 0⟩).2 with mp := { (mbEnter s 0 ⟨blk, 0, 0, 0⟩).2.mp with tunAns := some (mbEnter s 0 ⟨blk, 0, 0, 0⟩).1 } }

end

/-! ### Share commands and the management processor -/

section
variable (s : State)

theorem moveQueues_mp (n from_ to_ : Nat) : (moveQueues s n from_ to_).mp = s.mp := by
  refine List.foldlRecOn (motive := fun t : State => t.mp = s.mp) _ _ rfl fun u hu q _ => ?_
  split
  · exact hu
  · exact hu

theorem shEnable_mp (n : Nat) : (shEnable s n).mp = s.mp := moveQueues_mp ..

theorem startShut_mp (n kind : Nat) : (startShut s n kind).mp = s.mp := by
  obtain ⟨u, hu⟩ : ∃ u, setRgF (setRgF (setRgF s .shstate n 5 4 kind) .shstate n 2 0 3) .shstate n 63 32 0 = u := ⟨_, rfl⟩
  have hmp : u.mp = s.mp := hu ▸ rfl
  obtain ⟨x, hx⟩ : ∃ x, startShut s n kind = setShare (moveQueues u n 1 2) n x := by
    unfold startShut
    dsimp only
    rw [hu]
    exact ⟨_, rfl⟩
  rw [hx]
  exact (moveQueues_mp u n 1 2).trans hmp

theorem shCreate_mp (c : ShCmd) : (shCreate s c).2.mp = s.mp := by
  have hset : ∀ n x v, (setRg (setShare s n x) .shstate n v).mp = s.mp := fun _ _ _ => rfl
  unfold shCreate
  dsimp only
  split
  · rfl
  · generalize (List.range 4096).find? _ = o
    cases o with
    | none => rfl
    | some n =>
      dsimp only
      split
      · rfl
      · split
        · exact hset ..
        · rfl

theorem shLife_mp (op n : Nat) : (shLife s op n).2.mp = s.mp := by
  have hshut := startShut_mp s n
  unfold shLife
  dsimp only
  split
  · split
    · exact shEnable_mp s n
    · split_ifs <;> rfl
  · split
    · split_ifs
      · rfl
      · exact hshut 1
      · rfl
      · rfl
    · split
      · split_ifs
        · exact hshut 2
        · rfl
        · rfl
      · split_ifs
        · exact hshut 3
        · rfl
        · rfl

theorem shBind_mp (n q kind target : Nat) : (shBind s n q kind target).2.mp = s.mp := by
  unfold shBind
  dsimp only
  split_ifs <;> rfl

/-- A share command leaves the management processor. -/
theorem shRun_mp (b : By) (op : Nat) (c : ShCmd) (w : Word) : (shRun s b op c w).2.mp = s.mp := by
  unfold shRun
  split
  · rfl
  · split
    · have he := congrArg State.mp (hlDevice_only s 0x0022 (originOf s b) deniedOwned (payload2 w 0))
      exact he
    · split
      · exact shCreate_mp s c
      · split
        · rfl
        · split
          · split
            · rfl
            · exact shBind_mp ..
          · exact shLife_mp ..

end

/-! ### Service (R602, R603) -/

section
variable {s : State} {e : MbEntry} {rest : List MbEntry} {f : Findings}

/-- The answer to the master package's entry at the front, and the queue without it. -/
structure Answered (t : State) (rest : List MbEntry) (status : Nat) (bs : List Byte) : Prop where
  queue : mbQ t 0 = rest
  block : ∃ d, t.mp.tunAns = some d ∧ lineGet d 1 1 = status ∧ lineGet d 0 1 % 2 = 1 ∧ lineGet d 8 bs.length = ofBytesLE bs

/-- The master package's entry ends: its answer is the block with the header of R600 (R602). -/
theorem mbFinish_master {u : State} (hq : mbQ u 0 = e :: rest) (status : Nat) (res : Option LineData) :
    ∃ t, mbFinish u 0 e status res f = (true, t) ∧ mbQ t 0 = rest ∧
      t.mp.tunAns = some (bPut (res.getD e.block) 0 8 (mbHeader e.block status true 0).toNat) ∧ t.shares = u.shares := by
  obtain ⟨times, htimes⟩ : ∃ times, tset [] 0 (((now u - (match u.mp.serv with | some (_, t) => t | none => now u)) / 1000 ::
    tget [] 0 u.mp.mbTimes).take 16) u.mp.mbTimes = times := ⟨_, rfl⟩
  obtain ⟨v, hv⟩ : ∃ v : State, v = { u with mp := { u.mp with
      tunAns := some (bPut (res.getD e.block) 0 8 (mbHeader e.block status true 0).toNat)
      serv := none
      mbTimes := times } } := ⟨_, rfl⟩
  have hfin : mbFinish u 0 e status res f = (true, mbServe (setMbQ v 0 (mbQ v 0).tail)) := by
    rw [hv, ← htimes]
    rfl
  have hvq : mbQ v 0 = e :: rest := hv ▸ hq
  have hvm : v.mp.tunAns = some (bPut (res.getD e.block) 0 8 (mbHeader e.block status true 0).toNat) ∧ v.shares = u.shares := hv ▸ ⟨rfl, rfl⟩
  obtain ⟨x, hx⟩ := mbServe_eq (setMbQ v 0 (mbQ v 0).tail)
  refine ⟨_, hfin, ?_, ?_, ?_⟩
  · rw [mbQ_mbServe, mbQ_setMbQ, hvq, List.tail_cons]
  · rw [hx]
    exact hvm.1
  · rw [hx]
    exact hvm.2

/-- The bytes a command returns, in the block of its answer (R603). -/
theorem answered_block (d free : LineData) {status : Nat} {bs : List Byte} (h : status < 256) (hbs : bs.length ≤ 56) :
    let b := bPut (bPut free 8 bs.length (ofBytesLE bs)) 0 8 (mbHeader d status true 0).toNat
    lineGet b 1 1 = status ∧ lineGet b 0 1 % 2 = 1 ∧ lineGet b 8 bs.length = ofBytesLE bs := by
  refine ⟨(bPut_header_status ..).trans ((mbHeader_status ..).trans (Nat.mod_eq_of_lt h)), (bPut_header_done ..).trans (mbHeader_done ..), ?_⟩
  rw [bPut, lineGet_linePut_apart _ _ (by omega) (.inr (by omega)), bPut, lineGet_linePut_same _ _ _ _ (by omega)]
  exact Nat.mod_eq_of_lt (ofBytesLE_lt bs)

theorem mbDo_master {op t0 : Nat} {run : State → Nat → LineData → Nat × Option LineData × State} (hs : s.mp.serv = some (0, t0))
    (hq : mbQ s 0 = e :: rest) (hop : lineGet e.block 6 2 = op) (hm : op ∈ mbOps) :
    mbDo s op f run = orPause s (mbFinish (run s 0 e.block).2.2 0 e (run s 0 e.block).1 (run s 0 e.block).2.1 f) := by
  rw [mbDo, hs]
  dsimp only
  rw [hq]
  dsimp only
  rw [hop, if_neg (by simpa using hm), if_neg (by simp), if_neg (by simp)]

/-- A command of the master package that ends in MB_OK gives its result bytes. -/
theorem mbDo_good {op t0 : Nat} {run : State → Nat → LineData → Nat × Option LineData × State} (hs : s.mp.serv = some (0, t0))
    (hq : mbQ s 0 = e :: rest) (hop : lineGet e.block 6 2 = op) (hm : op ∈ mbOps) {u : State} {bs : List Byte} (hrun : run s 0 e.block = mbGood u bs)
    (hu : u.mp = s.mp) (hbs : bs.length ≤ 56) : Answered (mbDo s op f run) rest 0 bs ∧ (mbDo s op f run).shares = u.shares := by
  rw [mbDo_master hs hq hop hm, hrun]
  have huq : mbQ (mbGood u bs).2.2 0 = e :: rest := (congrArg (fun m : MpSt => tget [] 0 m.mbq) hu).trans hq
  obtain ⟨t, ht, h1, h2, h3⟩ := mbFinish_master (f := f) huq (mbGood u bs).1 (mbGood u bs).2.1
  rw [ht]
  exact ⟨⟨h1, _, h2, answered_block (status := 0) e.block (Config.freeLine u.freeCtr) (by decide) hbs⟩, h3⟩

/-- A command that is refused gives its code, and no bytes. -/
theorem mbFinish_refused {u : State} (hq : mbQ u 0 = e :: rest) {status : Nat} (h : status < 256) :
    Answered (orPause s (mbFinish u 0 e status none f)) rest status [] := by
  obtain ⟨t, ht, h1, h2, _⟩ := mbFinish_master (f := f) hq status none
  rw [ht]
  refine ⟨h1, _, h2, (bPut_header_status ..).trans ((mbHeader_status ..).trans (Nat.mod_eq_of_lt h)), (bPut_header_done ..).trans (mbHeader_done ..), ?_⟩
  exact Nat.mod_one _

/-- An operation the table of R603 does not have. -/
theorem mbDo_unknown {op t0 : Nat} {run : State → Nat → LineData → Nat × Option LineData × State} (hs : s.mp.serv = some (0, t0))
    (hq : mbQ s 0 = e :: rest) (hop : lineGet e.block 6 2 ∉ mbOps) : Answered (mbDo s op f run) rest 0x10 [] := by
  rw [mbDo, hs]
  dsimp only
  rw [hq]
  dsimp only
  rw [if_pos (by simpa using hop)]
  exact mbFinish_refused hq (by decide)

end

/-! ### Shedding and the watchdog (R604, R605) -/

section
variable {s : State}

/-- An evaluation of the occupancy sets the level and its times. -/
theorem shedEval_due {occ : Nat} (h : s.mp.shedAt + 10000000 ≤ now s) {low lv : Nat}
    (hlow : (if occ ≤ 50 then s.mp.shedLow + 1 else 0) = low)
    (hlv : (if occ > 90 then min 3 (rgF s .mpstat 0 2 0 + 1) else if low ≥ 10 then rgF s .mpstat 0 2 0 - 1 else rgF s .mpstat 0 2 0) = lv) (hb : lv < 8) :
    rgF (shedEval s occ) .mpstat 0 2 0 = lv ∧ (shedEval s occ).mp.shedAt = now s ∧ (shedEval s occ).mp.shedLow = (if low ≥ 10 then 0 else low) := by
  rw [shedEval, if_neg (by omega)]
  dsimp only
  rw [hlow, hlv]
  exact ⟨(rgF_setRgF_same _ .mpstat 0 2 0 lv (by decide) (by decide)).trans (Nat.mod_eq_of_lt hb), rfl, rfl⟩

theorem hubEnd_idle (h : s.hubTx = []) : hubEnd s = s := by
  rw [hubEnd, h]
  exact (congrArg (fun l => { s with hubTx := l }) h.symm : { s with hubTx := [] } = { s with hubTx := s.hubTx })

/-- The watchdog restarts the management processor: its boot ROM runs, its SRAM is clear, and the restart is counted and signalled. -/
theorem mpRestart_idle (h1 : s.mp.serv = none) (h2 : s.hubTx = []) : (mpRestart s).mp.boot = 0 ∧ (mpRestart s).mpSram = [] ∧
    getCore (mpRestart s) mpCore = coreRst mpCore ∧ rgF (mpRestart s) .mpstat 0 63 48 = min (rgF s .mpstat 0 63 48 + 1) 65535 ∧
    bit (rg (mpRestart s) .intsrc 924) 1 = true ∧ (mpRestart s).mp.mbq = s.mp.mbq ∧ ∀ c, c ≠ mpCore → getCore (mpRestart s) c = getCore s c := by
  obtain ⟨u, hu⟩ : ∃ u, mpToRom s = u := ⟨_, rfl⟩
  have hum : u.mp.boot = 0 ∧ u.mpSram = [] ∧ u.mp.mbq = s.mp.mbq ∧ u.regs = s.regs := hu ▸ ⟨rfl, rfl, rfl, rfl⟩
  have huc : getCore u mpCore = coreRst mpCore ∧ ∀ c, c ≠ mpCore → getCore u c = getCore s c := hu ▸ ⟨core_setCore_same .., fun c hc => core_setCore_ne hc⟩
  obtain ⟨v, hv⟩ : ∃ v, incRgF u .mpstat 0 63 48 = v := ⟨_, rfl⟩
  have hvm : v.mp = u.mp ∧ v.mpSram = u.mpSram ∧ v.cores = u.cores := hv ▸ ⟨rfl, rfl, rfl⟩
  have hvcount : rgF v .mpstat 0 63 48 = min (rgF s .mpstat 0 63 48 + 1) 65535 := by
    rw [← hv, rgF_incRgF_same (by decide) (by decide)]
    have hold : rgF u .mpstat 0 63 48 = rgF s .mpstat 0 63 48 := congrArg (fun r => fld (tget _ _ r) 63 48) hum.2.2.2
    rw [hold]
    exact congrArg (min _) (by decide)
  obtain ⟨t, ht⟩ : ∃ t, mpRestart s = t := ⟨_, rfl⟩
  have honly : { t with hlog := (raiseSrc v 924).hlog } = raiseSrc v 924 := by
    rw [← ht, mpRestart, h1]
    dsimp only
    rw [hubEnd_idle h2, hu, hv]
    exact hlDevice_only ..
  have hmp : t.mp = u.mp := by
    have he := congrArg State.mp honly
    exact he.trans hvm.1
  have hsram : t.mpSram = u.mpSram := by
    have he := congrArg State.mpSram honly
    exact he.trans hvm.2.1
  have hcores : t.cores = u.cores := by
    have he := congrArg State.cores honly
    exact he.trans hvm.2.2
  have hregs : t.regs = (raiseSrc v 924).regs := by
    have he := congrArg State.regs honly
    exact he
  have hcore : ∀ c, getCore t c = getCore u c := fun c => congrArg (tget (coreRst c) c) hcores
  have hrg : ∀ r i, rg t r i = rg (raiseSrc v 924) r i := fun r i => congrArg (tget _ _) hregs
  rw [ht]
  refine ⟨(congrArg MpSt.boot hmp).trans hum.1, hsram.trans hum.2.1, (hcore _).trans huc.1, ?_, ?_, (congrArg MpSt.mbq hmp).trans hum.2.2.1,
    fun c hc => (hcore c).trans (huc.2 c hc)⟩
  · exact (congrArg (fld · 63 48) (hrg .mpstat 0)).trans ((rgF_raiseSrc (by decide) (by decide) (by simp) 63 48).trans hvcount)
  · rw [hrg]
    exact bit_raiseSrc (by decide)

end

/-! ### The heat log (R606 to R610) -/

section
variable {s : State} {ps : List HlPend}

/-- The record appended: it is in the ring under the next SEQ, the queue is without its front, and nothing else changes. -/
structure Appended (s t : State) (ps : List HlPend) (q : HlPend) : Prop where
  head : t.hlog.head = s.hlog.head + 1
  pend : t.hlog.pend = ps
  record : tget 0 ((s.hlog.head + 1) % 32768) t.hlog.ring = BitVec.ofNat 512 (ofBytesLE (hlRecord (hlChain s) (s.hlog.head + 1) q))
  others : ∀ k, k ≠ (s.hlog.head + 1) % 32768 → tget 0 k t.hlog.ring = tget 0 k s.hlog.ring
  only : { t with hlog := s.hlog } = s

theorem hlPop_hlAppend {p : HlPend} (h : s.hlog.pend = p :: ps) (hl : s.hlog.lost = 0) (q : HlPend) : Appended s (hlPop (hlAppend s q)) ps q := by
  obtain ⟨r, hr⟩ : ∃ r, BitVec.ofNat 512 (ofBytesLE (hlRecord (hlChain s) (s.hlog.head + 1) q)) = r := ⟨_, rfl⟩
  obtain ⟨k, hk⟩ : ∃ k, (s.hlog.head + 1) % 32768 = k := ⟨_, rfl⟩
  obtain ⟨c, hc⟩ : ∃ c, hlAppend s q = { s with hlog := { s.hlog with ring := tset 0 k r s.hlog.ring, head := s.hlog.head + 1, chain := c } } := by
    rw [← hr, ← hk]
    exact ⟨_, rfl⟩
  have hpop : hlPop (hlAppend s q) =
      { s with hlog := { s.hlog with ring := tset 0 k r s.hlog.ring, head := s.hlog.head + 1, chain := c, pend := ps } } := by
    have htail : s.hlog.pend.tail = ps := congrArg List.tail h
    rw [hc, hlPop]
    dsimp only
    rw [if_pos hl, htail]
  rw [hpop]
  refine ⟨rfl, rfl, ?_, fun j hj => ?_, rfl⟩
  · rw [hr, hk]
    exact tget_tset_same _
  · rw [hk] at hj
    exact tget_tset_ne hj _

theorem hlAppendNext_device {p : HlPend} (h : s.hlog.pend = p :: ps) (ha : hlAppends s = true) (hp : p.commit = none) :
    hlAppendNext s = hlPop (hlAppend s p) := by
  rw [hlAppendNext, h]
  exact if_pos (by rw [ha, hp]; rfl)

theorem hlAppendNext_waits {p : HlPend} (h : s.hlog.pend = p :: ps) (hw : hlAppends s = false ∨ p.commit.isSome = true) : hlAppendNext s = s := by
  rw [hlAppendNext, h]
  refine if_neg ?_
  rcases hw with hw | hw
  · simp [hw]
  · simp [Option.isSome_iff_ne_none.mp hw]

theorem hlCommit_waits {p : HlPend} (f : Findings) (h : s.hlog.pend = p :: ps) (hw : hlAppends s = false ∨ p.commit = none) : hlCommit s f = s := by
  rw [hlCommit, h]
  dsimp only
  cases hp : p.commit with
  | none => rfl
  | some a =>
    have ha : hlAppends s = false := hw.resolve_right (by simp [hp])
    exact if_pos (by rw [ha]; rfl)

section
variable {p : HlPend} {f : Findings} {pa : Nat} {w : Bool} {d : LineData} {x : State} (h : s.hlog.pend = p :: ps) (ha : hlAppends s = true)
  (hp : p.commit = some (pa, w))
include h ha hp

/-- The commit at the front is appended with the time now; then its block is read. -/
theorem hlCommit_eq : hlCommit s f = match blockRead (hlPop (hlAppend s { p with ptime := s.ptime, flags := hlFlags s })) 20 w pa f with
    | (.err, _, v) => v
    | (.wait, _, v) => hubPause s v
    | (.ok, d, v) => orPause s (hlReport v w pa d 0 (some (v.hlog.head, s.ptime)) f) := by
  rw [hlCommit, h]
  dsimp only
  rw [hp]
  dsimp only
  exact if_neg (by rw [ha]; decide)

end
/-- The packet of a commit on its way to the island (R610). -/
def hlogPacket (s : State) (b : By) (line : Nat) (d : LineData) : Packet :=
  { cmd := .hlog, src := ⟨12, 20⟩, dst := ⟨12, 20⟩, cls := .g, world := bySec b, addr := line * 64, data := d, arg := originOf s b }

/-- A commit as the island's queue holds it (R608). -/
def hlogEntry (p : Packet) : HlPend :=
  ⟨0x0050, p.arg, lineGet p.data 8 4, BitVec.ofNat 256 (lineGet p.data 32 32), 0, 0, some (p.addr, p.world)⟩

/-- The state with a commit that has joined the island's queue. -/
def hlogQueued (s : State) (p : Packet) : State := { s with hlog := { s.hlog with pend := s.hlog.pend ++ [hlogEntry p] } }

theorem hlSubmit_eq (b : By) (line : Nat) (f : Findings) : hlSubmit s b line f = match blockRead s 20 (bySec b) (line * 64) f with
    | (.err, _, v) => hubEnd v
    | (.wait, _, v) => hubEnd (hubPause s v)
    | (.ok, d, v) =>
      if commitRoom v then sendG (hubEnd v) (hlogPacket s b line d)
      else hubEnd (orPause s (hlReport v (bySec b) (line * 64) d 0x06 none f)) := rfl

/-- A packet offered in class G to one stop is on its way, or waits at its source, with what it carries. -/
theorem sendG_carries (s : State) {p : Packet} (hcmd : p.cmd ≠ .irq) (hdie : p.dst.die ≠ 15) (hstop : p.dst.stop ≠ 0x3F) :
    ∃ q, (q ∈ (sendG s p).net ∨ q ∈ (sendG s p).gHeld) ∧ q.cmd = p.cmd ∧ q.data = p.data ∧ q.addr = p.addr ∧ q.world = p.world := by
  unfold sendG
  dsimp only
  split
  · rw [inject, copiesOf_single (p := { p with cls := .g }) hdie hstop]
    exact ⟨_, .inl (List.mem_append_right _ List.mem_cons_self), rfl, rfl, rfl, rfl⟩
  · exact ⟨_, .inr (List.mem_append_right _ List.mem_cons_self), rfl, rfl, rfl, rfl⟩

end

/-- Settles O53: boot, posts, service, watchdog, shedding and the heat log by what each leaves of the mailboxes and of the ring. -/
theorem mailboxesAndHeatLog : Obligations.MailboxesAndHeatLog := by
  unfold Obligations.MailboxesAndHeatLog
  refine ⟨fun i s => ⟨fun h1 h2 h3 h4 => ⟨fun im bs hf him => ⟨_, rfl, mpBootRun_accepts h1 h2 h3 h4 hf him⟩,
      fun hf => ⟨_, rfl, mpBootRun_fails h1 h2 h3 h4 hf⟩⟩, fun h => ⟨s, congrArg ok (if_pos (.inl h)), rfl⟩⟩,
    fun b c blk f s => ⟨fun h1 h2 => ⟨s, congrArg ok (mbPost_refused h1 h2), rfl⟩, fun d v h hr => congrArg ok (mbPost_err h hr),
      fun d v h hr => congrArg ok (mbPost_wait h hr), fun d v d' w go u h hr he hw => ⟨_, congrArg ok (mbPost_ok h hr he hw), rfl, fun hroom => ?_, fun hfull => ?_⟩⟩,
    fun blk s => ⟨fun hroom => ?_, fun hfull => ?_⟩, fun f e rest t0 s hs hq => ?_, fun b s => ⟨⟨_, rfl, rfl⟩, fun h1 h2 h3 h4 => ?_, fun h => ?_⟩,
    fun occ s => ⟨fun hdue => ⟨fun h => ?_, fun h1 h2 => ?_, fun h1 h2 => ?_⟩, fun h => ⟨s, congrArg ok (if_pos h), rfl⟩⟩,
    fun p ps f s hp hl => ?_, fun b blk f d v s => ?_, fun f s h => ?_, fun p f u s h => ?_⟩
  · obtain ⟨k1, k2⟩ := mbEnter_room (e := ⟨d, blk.toNat * 64, 0, 0⟩) hroom
    rw [he] at k1 k2
    exact ⟨k1, k2⟩
  · obtain ⟨k1, k2⟩ := mbEnter_full (e := ⟨d, blk.toNat * 64, 0, 0⟩) hfull
    rw [he] at k1 k2
    exact ⟨k1, k2⟩
  · obtain ⟨k1, k2⟩ := mbEnter_room (e := ⟨blk, 0, 0, 0⟩) hroom
    exact ⟨_, _, rfl, k2, rfl, k1⟩
  · obtain ⟨k1, k2⟩ := mbEnter_full (e := ⟨blk, 0, 0, 0⟩) hfull
    have hq : mbQ (tundishPosted s blk) 0 = mbQ s 0 := by
      have he := congrArg (mbQ · 0) k2
      exact he
    exact ⟨tundishPosted s blk, _, rfl, hq, rfl, k1⟩
  · dsimp only
    refine ⟨fun hop => ?_, fun hop => ?_, fun hop hi => ?_, fun hop => ?_, fun hop h1 h2 => ?_, fun hop h1 => ?_, fun hop i hi => ?_⟩
    · obtain ⟨⟨h1, h2⟩, _⟩ := mbDo_good (f := f) (run := fun s _ _ => mbGood s (bytesLE 8 s.ptime.toNat)) hs hq hop (by decide) rfl rfl (by simp [bytesLE])
      exact ⟨_, rfl, h1, h2⟩
    · obtain ⟨⟨h1, h2⟩, _⟩ := mbDo_good (f := f) (run := fun s _ _ => mbGood s ((List.range 12).flatMap (fun n => bytesLE 2 (stkOf s n).tmax) ++
        bytesLE 2 (rgF s .pcapstat 0 47 32))) hs hq hop (by decide) rfl rfl (by simp [bytesLE])
      exact ⟨_, rfl, h1, h2⟩
    · obtain ⟨⟨h1, h2⟩, _⟩ := mbDo_good (f := f) (run := mbCart) hs hq hop (by decide) (if_neg (by omega)) rfl (by simp [bytesLE])
      exact ⟨_, rfl, h1, h2⟩
    · obtain ⟨⟨h1, h2⟩, _⟩ := mbDo_good (f := f) (run := fun s _ _ => mbGood s (bytesLE 8 (rg s .life0 0).toNat ++ bytesLE 8 (rg s .life1 0).toNat))
        hs hq hop (by decide) rfl rfl (by simp [bytesLE])
      exact ⟨_, rfl, h1, h2⟩
    · have hrun : mbShare s 0 e.block = (0x11, none, s) := by
        rw [mbShare]
        dsimp only
        rw [if_neg h1, if_neg (by simpa using h2)]
      obtain ⟨k1, k2⟩ := mbFinish_refused (f := f) (status := 0x11) hq (by decide)
      refine ⟨_, congrArg hubOk ((mbDo_master hs hq hop (by decide)).trans ?_), k1, k2⟩
      rw [hrun]
    · obtain ⟨r, hr⟩ : ∃ r, shRun s .mp (fld (bWord e.block 8) 3 0) ⟨fld (bWord e.block 8) 43 32, bit (bWord e.block 8) 16, fld (bWord e.block 8) 15 12,
        bWord e.block 16, bWord e.block 24, bWord e.block 32⟩ (regPa 0x200000) = r := ⟨_, rfl⟩
      have hmp : r.2.mp = s.mp := hr ▸ shRun_mp ..
      have hrun : mbShare s 0 e.block = mbGood r.2 (bytesLE 8 r.1.r0.toNat ++ bytesLE 8 r.1.r1.toNat ++ bytesLE 1 r.1.status) := by
        rw [mbShare]
        dsimp only
        rw [if_pos h1, if_neg (by decide), hr]
      obtain ⟨⟨k1, k2⟩, k3⟩ := mbDo_good (f := f) (run := mbShare) hs hq hop (by decide) hrun hmp (by simp [bytesLE])
      rw [hr]
      exact ⟨_, rfl, ⟨k1, k2⟩, k3⟩
    · have hall : ∀ (op : Nat) (run : State → Nat → LineData → Nat × Option LineData × State), Answered (mbDo s op f run) rest 0x10 [] := fun op run =>
        mbDo_unknown hs hq hop
      simp only [List.mem_cons, List.not_mem_nil, or_false] at hi
      rcases hi with rfl | rfl | rfl | rfl | rfl
      · exact ⟨_, rfl, (hall ..).queue, (hall ..).block⟩
      · exact ⟨_, rfl, (hall ..).queue, (hall ..).block⟩
      · exact ⟨_, rfl, (hall ..).queue, (hall ..).block⟩
      · exact ⟨_, rfl, (hall ..).queue, (hall ..).block⟩
      · exact ⟨_, rfl, (hall ..).queue, (hall ..).block⟩
  · have hdue : s.mp.boot = 1 ∧ now s ≥ s.mp.wdAt + rgF s .mpwdt 0 15 0 * 1000000 := ⟨h1, h2⟩
    exact ⟨_, congrArg ok (if_pos hdue), mpRestart_idle h3 h4⟩
  · exact ⟨s, congrArg ok (if_neg (by omega)), rfl⟩
  · have hlt : min 3 (rgF s .mpstat 0 2 0 + 1) < 8 := by omega
    exact ⟨_, rfl, shedEval_due hdue (low := 0) (if_neg (by omega)) (if_pos h) hlt⟩
  · have hlt : rgF s .mpstat 0 2 0 - 1 < 8 := (Nat.sub_le ..).trans_lt (fld_lt ..)
    obtain ⟨k1, _, k3⟩ := shedEval_due (occ := occ.toNat) hdue (low := 10) (by rw [if_pos h1, h2]) (by rw [if_neg (by omega), if_pos (by decide)]) hlt
    exact ⟨_, rfl, k1, k3⟩
  · have hlt : rgF s .mpstat 0 2 0 < 8 := fld_lt ..
    obtain ⟨k1, _, k3⟩ := shedEval_due (occ := occ.toNat) hdue (low := 0) (if_neg (by omega)) (by rw [if_neg (by omega), if_neg (by decide)]) hlt
    exact ⟨_, rfl, k1, k3⟩
  · refine ⟨fun ha hc => ⟨_, congrArg ok (hlAppendNext_device hp ha hc), ?_⟩, fun hw => ⟨s, congrArg ok (hlAppendNext_waits hp hw), rfl⟩,
      fun pa w ha hc => ⟨?_, fun d x hr => ?_, fun d x hr => ?_, fun d x go y hr hw => ?_⟩, fun hw => congrArg hubOk (hlCommit_waits f hp hw)⟩
    · obtain ⟨h1, h2, h3, h4, h5⟩ := hlPop_hlAppend hp hl p
      exact ⟨h1, h2, h3, h4, h5⟩
    · obtain ⟨h1, h2, h3, h4, h5⟩ := hlPop_hlAppend hp hl { p with ptime := s.ptime, flags := hlFlags s }
      exact ⟨h1, h2, h3, h4, h5⟩
    · refine congrArg hubOk ?_
      rw [hlCommit_eq hp ha hc, hr]
    · refine congrArg hubOk ?_
      rw [hlCommit_eq hp ha hc, hr]
    · refine congrArg hubOk ?_
      rw [hlCommit_eq hp ha hc, hr]
      dsimp only
      rw [hw]
      rfl
  · refine ⟨fun hr => congrArg ok ?_, fun hr => congrArg ok ?_, fun hr => ⟨fun hroom => ?_, fun go u hroom hw => congrArg ok ?_⟩⟩
    · rw [hlSubmit_eq, hr]
    · rw [hlSubmit_eq, hr]
    · obtain ⟨q, hq, h1, h2, h3, h4⟩ := sendG_carries (hubEnd v) (p := hlogPacket s b blk.toNat d) (fun h => by cases h) (fun h => by cases h) (fun h => by cases h)
      refine ⟨_, q, congrArg ok ?_, hq, h1, h2, h3, h4⟩
      rw [hlSubmit_eq, hr]
      exact if_pos hroom
    · rw [hlSubmit_eq, hr]
      dsimp only
      rw [hroom, if_neg (by decide), hw]
      rfl
  · refine congrArg hubOk ?_
    rw [hlogArrive, h]
  · refine ⟨fun h1 h2 => ⟨hlogQueued (gArrive u p) p, congrArg hubOk ?_, rfl, rfl⟩, fun go x hw hr => congrArg hubOk ?_⟩
    · rw [hlogArrive, h]
      exact if_pos (by rw [h1, h2]; rfl)
    · rw [hlogArrive, h]
      dsimp only
      rw [if_neg (by rcases hw with hw | hw <;> simp [hw]), hr]
      rfl

end Sys2Proof.Machine
end


section
/-! PROOFS. Cipher messages: their start, their end, suspension and resumption (R457 to R464, R476 to R479). -/
namespace Sys2Proof.Machine

open Sys2Proof

/-! ### Items and sessions -/

section
variable {s : State} {n q z : Nat} {it : Item} {i : EngIn} {o : RecOut}

theorem queue_updItem (s : State) (q : Nat) (it : Item) : queue (updItem s q it) q = { queue s q with items := itemsWith (queue s q).items it } :=
  queue_setQueue_same ..

theorem session_setSession_same (s : State) (z : Nat) (x : Session) : session (setSession s z x) z = x := tget_tset_same _

theorem session_setSession_ne {y : Nat} (h : y ≠ z) (x : Session) : session (setSession s z x) y = session s y := tget_tset_ne h _

/-- A descriptor that names a session ends with its record, and its session was used now (R433, R469). -/
theorem cipherEnd_session {s0 : State} (h : itemSession s n it.desc = some z) :
    cipherEnd s0 s n q it o i = finishItem s0 (sessionUsed s z) n q it o i := by
  rw [cipherEnd, h]
  rfl

theorem cipherEnd_none {s0 : State} (h : itemSession s n it.desc = none) : cipherEnd s0 s n q it o i = finishItem s0 s n q it o i := by
  rw [cipherEnd, h]

end

/-! ### Messages -/

section
variable {s : State} {n q idx z : Nat} {it : Item} {i : EngIn} {ci : CipherIn} {mode : CMode}

theorem msgStart_fresh (m : MsgKey) : (msgStart m).aadDone = 0 ∧ (msgStart m).dataDone = 0 := by
  unfold msgStart
  dsimp only
  cases m.mode <;> exact ⟨rfl, rfl⟩

theorem keepCtx_dataDone (x : Session) (c : MsgCtx) : (keepCtx x c).dataDone = c.dataDone := rfl

theorem keepCtx_aadDone (x : Session) (c : MsgCtx) : (keepCtx x c).aadDone = c.aadDone := rfl

theorem keepCtx_k1 (x : Session) (c : MsgCtx) : (keepCtx x c).k1 = x.k1 := rfl

theorem msgCtxOf_dataDone (x : Session) : (msgCtxOf x).dataDone = x.dataDone := rfl

theorem msgCtxOf_aadDone (x : Session) : (msgCtxOf x).aadDone = x.aadDone := rfl

/-- A stretch of no unit reads nothing and leaves the context. -/
theorem msgUnits_none (s : State) (n : Nat) (st : StopId) (i : EngIn) (d : LineData) (m : MsgKey) (c : MsgCtx) :
    msgUnits s n st i d m 0 c = ⟨.ok, 0, c, s⟩ := by
  have hread : (if c.aadDone < m.aadLen then shReadBuf s n st i i.src (dB d 32 8 + c.aadDone) (min (m.aadLen - c.aadDone) (16 * 0)) else (.ok, [], s)) =
      (.ok, [], s) := by
    split
    · rw [Nat.mul_zero, Nat.min_zero]
      rfl
    · rfl
  unfold msgUnits
  rw [hread]
  exact if_pos (.inr (.inr (Nat.le_refl 0)))

/-- A stretch of no unit of a message that is not over: its context is kept in its session. -/
theorem msgWork_paused {s0 : State} {m : MsgKey} (hrun : ci.run = some 0) (hfails : ci.fails = [])
    (hleft : (msgCtxOf (session s z)).dataDone < m.len ∨ (msgCtxOf (session s z)).aadDone < m.aadLen) :
    msgWork s0 s n q it z m ci i = setSession s z (keepCtx (session s z) (msgCtxOf (session s z))) := by
  have hfails' : (if (fld (session s z).cfg 7 6 != 0) = true then ci.fails else []) = [] := by rw [hfails]; split <;> rfl
  have hstretch : stretch m ci none = 0 := by rw [stretch, hrun]; rfl
  rw [msgWork]
  dsimp only
  rw [hfails', List.find?_nil, Option.map_none, hstretch, msgUnits_none]
  dsimp only
  rw [List.filter_nil, List.foldl_nil, if_neg nofun, if_pos hleft]

/-- A stretch that reaches the end of a message whose checks are off: its tag is written or compared, and its record tells the bytes done. -/
theorem msgWork_ends {s0 : State} {m : MsgKey} {k code : Nat} {c : MsgCtx} {v w : State} (hcheck : fld (session s z).cfg 7 6 = 0)
    (hunits : msgUnits s n (clusterStop ci.cluster) i it.desc m (stretch m ci none) (msgCtxOf (session s z)) = ⟨.ok, k, c, v⟩)
    (hdata : m.len ≤ c.dataDone) (haad : m.aadLen ≤ c.aadDone)
    (hend : msgEnd (setSession v z (keepCtx (session v z) c)) n (clusterStop ci.cluster) i it.desc m c = (.ok, code, w)) :
    msgWork s0 s n q it z m ci i = cipherEnd s0 w n q it { status := code, r0 := BitVec.ofNat 64 (msgDone m c) } i := by
  rw [msgWork]
  dsimp only
  rw [if_neg (by simp [hcheck]), List.find?_nil, Option.map_none, hunits]
  dsimp only
  rw [List.filter_nil, List.foldl_nil, if_neg nofun, if_neg (by omega), hend]

/-- What a message's command acts on: an accepted item of the operation, whose session is here and initialised with a mode. -/
structure MsgAt (s : State) (op n q idx z : Nat) (it : Item) (mode : CMode) : Prop where
  item : cipherItem s q idx = some (n, it)
  session_ : itemSession s n it.desc = some z
  here : sessAway s z = false
  mode_ : CMode.ofNat? (fld (session s z).cfg 2 0) = some mode
  oper : dOp it.desc = op

/-- The message's turn to start on a cluster (R457). -/
structure MsgTurn (s : State) (n q : Nat) (it : Item) (ci : CipherIn) : Prop where
  fresh : it.phase = 0
  free : cipherWaits s n q it = false
  takes : clusterTakes s ci.cluster n = true
  serve : mayServe s n = true
  bme : (share s n).bme = true
  turn : inTurn s ci.cluster n it = true

section
variable {op : Nat} (h : MsgAt s op n q idx z it mode)
include h

theorem cipherMsg_refused {code : Nat} (ht : MsgTurn s n q it ci) (hr : msgRefuse s n it.desc ci.healthy = some code) :
    cipherMsg s op q idx ci i = cipherEnd s s n q it { status := code } i := by
  obtain ⟨h1, h2, h3, h4, h5⟩ := h
  obtain ⟨k1, k2, k3, k4, k5, k6⟩ := ht
  rw [cipherMsg, h1]
  dsimp only
  rw [if_neg (by simp [h5, k1]), if_neg (by simp [k2, k3, k4, k5, k6]), if_neg (by simp [k1]), h2]
  dsimp only
  rw [if_neg (by simp [h3]), if_pos k1, hr]

theorem cipherMsg_starts (ht : MsgTurn s n q it ci) (hr : msgRefuse s n it.desc ci.healthy = none) :
    cipherMsg s op q idx ci i = msgWork s
      (setSession (updItem { s with cipSeq := s.cipSeq + 1 } q { it with phase := 1, started := true, since := s.cipSeq, cluster := ci.cluster.val }) z
        (keepCtx (session s z) (msgStart (msgKeyOf (session s z) mode it.desc))))
      n q { it with phase := 1, started := true, since := s.cipSeq, cluster := ci.cluster.val } z (msgKeyOf (session s z) mode it.desc) ci i := by
  obtain ⟨h1, h2, h3, h4, h5⟩ := h
  obtain ⟨k1, k2, k3, k4, k5, k6⟩ := ht
  rw [cipherMsg, h1]
  dsimp only
  rw [if_neg (by simp [h5, k1]), if_neg (by simp [k2, k3, k4, k5, k6]), if_neg (by simp [k1]), h2]
  dsimp only
  rw [if_neg (by simp [h3]), if_pos k1, hr, h4]
  dsimp only
  rw [if_neg (by simp [k1])]

theorem cipherMsg_runs (hp : it.phase = 1) (hc : it.cluster = ci.cluster) :
    cipherMsg s op q idx ci i = msgWork s s n q it z (msgKeyOf (session s z) mode it.desc) ci i := by
  obtain ⟨h1, h2, h3, h4, h5⟩ := h
  rw [cipherMsg, h1]
  dsimp only
  rw [if_neg (by simp [h5, hp]), if_neg (by simp [hp]), if_neg (by simp [hc]), h2]
  dsimp only
  rw [if_neg (by simp [h3]), if_neg (by simp [hp]), h4]
  dsimp only
  rw [if_pos hp]

end

end

/-- A message that starts and works no unit yet: its item runs on the cluster, and its session holds the context of its start. -/
theorem cipherMsg_begun {s : State} {op n q idx z : Nat} {it : Item} {i : EngIn} {ci : CipherIn} {mode : CMode} (h : MsgAt s op n q idx z it mode)
    (ht : MsgTurn s n q it ci) (hr : msgRefuse s n it.desc ci.healthy = none) (hrun : ci.run = some 0) (hfails : ci.fails = [])
    (hlen : 0 < (msgKeyOf (session s z) mode it.desc).len ∨ 0 < (msgKeyOf (session s z) mode it.desc).aadLen) :
    ∃ t, cipherMsg s op q idx ci i = t ∧
      queue t q = { queue s q with items := itemsWith (queue s q).items { it with phase := 1, started := true, since := s.cipSeq, cluster := ci.cluster } } ∧
      (session t z).dataDone = 0 ∧ (session t z).aadDone = 0 ∧ (session t z).k1 = (session s z).k1 ∧ t.dram = s.dram := by
  have hwork := cipherMsg_starts (i := i) h ht hr
  obtain ⟨it', hit⟩ : ∃ it' : Item, { it with phase := 1, started := true, since := s.cipSeq, cluster := ci.cluster.val } = it' := ⟨_, rfl⟩
  obtain ⟨m, hm⟩ : ∃ m, msgKeyOf (session s z) mode it.desc = m := ⟨_, rfl⟩
  obtain ⟨x, hx⟩ : ∃ x, keepCtx (session s z) (msgStart m) = x := ⟨_, rfl⟩
  have hdata : x.dataDone = 0 := hx ▸ (msgStart_fresh m).2
  have haad : x.aadDone = 0 := hx ▸ (msgStart_fresh m).1
  have hk1 : x.k1 = (session s z).k1 := hx ▸ rfl
  rw [hm] at hlen
  rw [hit, hm, hx] at hwork
  rw [hit]
  have hq := queue_updItem { s with cipSeq := s.cipSeq + 1 } q it'
  have hdram : (updItem { s with cipSeq := s.cipSeq + 1 } q it').dram = s.dram := rfl
  generalize updItem { s with cipSeq := s.cipSeq + 1 } q it' = w at hwork hq hdram
  have hsess : session (setSession w z x) z = x := session_setSession_same ..
  have hleft : (msgCtxOf (session (setSession w z x) z)).dataDone < m.len ∨ (msgCtxOf (session (setSession w z x) z)).aadDone < m.aadLen := by
    rw [hsess]
    exact hlen.imp (hdata.symm ▸ · : 0 < m.len → x.dataDone < m.len) (haad.symm ▸ · : 0 < m.aadLen → x.aadDone < m.aadLen)
  rw [msgWork_paused hrun hfails hleft, hsess] at hwork
  have hend : session (setSession (setSession w z x) z (keepCtx x (msgCtxOf x))) z = keepCtx x (msgCtxOf x) := session_setSession_same ..
  refine ⟨_, hwork, hq, ?_, ?_, ?_, hdram⟩
  · rw [hend, keepCtx_dataDone, msgCtxOf_dataDone]
    exact hdata
  · rw [hend, keepCtx_aadDone, msgCtxOf_aadDone]
    exact haad
  · rw [hend, keepCtx_k1]
    exact hk1

/-- The commands of messages run the message of their operation. -/
theorem exec_message {q : QueueId} {idx : BitVec 16} {ci : CipherIn} {i : EngIn} (s : State) {r : Instr × Nat}
    (hr : r ∈ ([(.encrypt q idx ci i, 0x30), (.decrypt q idx ci i, 0x31), (.mac q idx ci i, 0x32), (.verify q idx ci i, 0x33)] : List (Instr × Nat))) :
    exec r.1 s = hubOk (cipherMsg s r.2 q.val idx.toNat ci i) := by
  simp only [List.mem_cons, List.not_mem_nil, or_false] at hr
  rcases hr with rfl | rfl | rfl | rfl
  · rfl
  · rfl
  · rfl
  · rfl

/-! ### Suspension and resumption -/

section
variable {s : State} {n q idx : Nat} {it : Item}

theorem suspendFor_victim {m vq z : Nat} {v : Item} (h1 : cipherItem s q idx = some (n, it)) (h2 : it.phase = 0) (h3 : cipherWaits s n q it = false)
    (h4 : victimMsg s (effPrio s n it) = some (m, vq, v)) (h5 : itemSession s m v.desc = some z) :
    suspendFor s q idx = setSession (updItem { s with cipSeq := s.cipSeq + 1 } vq { v with phase := 2, since := s.cipSeq }) z
      { session s z with resume := resumeOf vq v.sqidx (decide (dB v.desc 40 4 ≤ (session s z).aadDone)) } := by
  rw [suspendFor, h1]
  dsimp only
  rw [if_neg (by simp [h2, h3]), h4]
  dsimp only
  rw [h5]

theorem resumeOn_next {c : Nat} (h : resumable s c = some (n, q, it)) : resumeOn s c = if higherWaits s c n it then s
    else updItem { s with cipSeq := s.cipSeq + 1 } q { it with phase := 1, since := s.cipSeq, cluster := c } := by
  rw [resumeOn, h]

end

/-- Settles O45: messages by how their stretch starts and ends; suspension and resumption by the item they change. -/
theorem cipherMessages : Obligations.CipherMessages := by
  unfold Obligations.CipherMessages
  refine ⟨fun q idx ci i n z it mode s => ?_, fun q idx n m vq z it v s h1 h2 h3 h4 h5 => ?_, fun c s => ⟨fun n q it h1 h2 => ?_, fun n q it h1 h2 => ?_, fun h => ?_⟩⟩
  · dsimp only
    intro h1 h2 h3 h4 r hr hop
    have hat : MsgAt s r.2 n q.val idx.toNat z it mode := ⟨h1, h2, h3, h4, hop⟩
    refine ⟨fun k1 k2 k3 k4 k5 k6 => ?_, fun k1 k2 k3 k c v code w u hunits hdata haad hend hsess hrec => ?_⟩
    · have hturn : MsgTurn s n q.val it ci := ⟨k1, k2, k3, k4, k5, k6⟩
      refine ⟨fun hok hrun hfails hlen => ?_, fun code u hcode hrec => ?_⟩
      · obtain ⟨t, ht, hspec⟩ := cipherMsg_begun (i := i) hat hturn hok hrun hfails hlen
        exact ⟨t, (exec_message s hr).trans (congrArg hubOk ht), hspec⟩
      · obtain ⟨t, ht, hrep⟩ := hubOk_reported hrec ((cipherMsg_refused hat hturn hcode).trans (cipherEnd_session h2))
        exact ⟨t, (exec_message s hr).trans ht, hrep⟩
    · obtain ⟨t, ht, hrep⟩ := hubOk_reported hrec
        ((cipherMsg_runs hat k1 k2).trans ((msgWork_ends k3 hunits hdata haad hend).trans (cipherEnd_session hsess)))
      exact ⟨t, (exec_message s hr).trans ht, hrep⟩
  · exact ⟨_, congrArg ok (suspendFor_victim h1 h2 h3 h4 h5), queue_updItem .., session_setSession_same .., fun y hy => session_setSession_ne hy _, rfl⟩
  · refine ⟨_, congrArg ok ((resumeOn_next h1).trans (if_neg (by simp [h2]))), queue_updItem .., rfl, rfl⟩
  · exact ⟨s, congrArg ok ((resumeOn_next h1).trans (if_pos h2)), rfl⟩
  · refine ⟨s, congrArg ok ?_, rfl⟩
    rw [resumeOn, h]

end Sys2Proof.Machine
end


section
/-! PROOFS. Cipher sessions (R464 to R473): the island's item in a queue that no package has. -/
namespace Sys2Proof.Machine

open Sys2Proof

/-! ### Records in the PCIe slot -/

/-- A record for a share without stage 2 in the package's PCIe slot, whose device takes it: nothing of the block changes. -/
theorem shWriteBuf_slot {s : State} {n pa : Nat} {st : StopId} {i : EngIn} {bs : List Byte} (hs2 : (share s n).s2en = false) (hpa : pa < 2 ^ 52)
    (hpage : pa % 4096 = 0) (hmem : (isLocalMem s pa || isRemoteMem s pa) = false) (hslot : isOwnSlot s pa = true)
    (hdev : hubDevice s (shReq s n st 0) pa true i.dst = .ok) (hlen : bs.length = 32) : shWriteBuf s n st i i.dst pa bs = (.ok, 32, s) := by
  have hxl : hubXlate s n st pa true i.fresh = (.pa pa 0, s) := by
    unfold hubXlate
    dsimp only
    rw [hs2]
    exact congrArg (·, s) (if_pos hpa)
  have hwrite : ∀ mask d, hubWrite s (shReq s n st 0) pa mask d i.f i.dst = (.ok, s) := fun mask d => by
    rw [hubWrite, hmem, if_neg (by decide), hslot, if_pos rfl, hdev]
  obtain ⟨b, l, rfl⟩ : ∃ b l, bs = b :: l := List.exists_cons_of_length_eq_add_one hlen
  have hl : l.length = 31 := by simpa using hlen
  have hmin : min (64 - pa % 64) (l.length + 1) = 32 := by omega
  have hdrop : (b :: l).drop 32 = [] := List.drop_of_length_le (by simp [hl])
  have hbytes : hubWriteBytes (shReq s n st 0) i.f i.dst 32 pa (b :: l) s = (.ok, 32, s) := by
    rw [hubWriteBytes]
    dsimp only
    rw [hmin, hwrite, hdrop]
    rfl
  have hleft : min (b :: l).length (pageLeft pa) = 32 := by
    rw [hlen, pageLeft, hpage]
    decide
  have htake : (b :: l).take 32 = b :: l := List.take_of_length_le (by simp [hl])
  rw [shWriteBuf, hlen, shWrite, if_neg (by simp), hxl]
  dsimp only
  rw [hleft, htake, hbytes, hdrop]
  rfl

theorem shRead_empty (s : State) (n : Nat) (st : StopId) (i : EngIn) (a : DevAns) (ipa : Nat) : shReadBuf s n st i a ipa 0 = (.ok, [], s) := rfl

/-- What an entry of a table reads as, when it is not what an absent one would. -/
theorem tget_present {α : Type} {d d' v : α} {k : Nat} {t : Tab α} (h : tget d k t = v) (hv : v ≠ d) : tget d' k t = v := by
  induction t with
  | nil => exact absurd h.symm hv
  | cons p t ih =>
    rw [tget] at h ⊢
    split
    next hk => rwa [if_pos hk] at h
    next hk =>
      rw [if_neg hk] at h
      exact ih h

/-! ### A queue of no package -/

/-- The number of a queue that no package has: its state has the place of the hub I/O cache's ways. -/
def strayQueue : Nat := 2 ^ 32

/-- A wrapped key of no bytes that waits for the island. -/
def strayItem : Item := { sqidx := 0, desc := 0x38, phase := 3 }

/-- The stray queue runs for a secure share, with its completion ring in the PCIe slot. -/
def strayIsland : State :=
  { State.reset with
    regs := [(regKey .shstate 0, 0x800002), (regKey .lgctl 0, 1), (regKey .cqbase strayQueue, 0xE000000000000), (regKey .qstat strayQueue, 0x101)]
    rports := [(0, { st := 1 })]
    shares := [(0, { qp0 := strayQueue, nqp := 1, nsess := 1 })]
    queues := [(strayQueue, { items := [strayItem] })] }

/-- The device takes what is written. -/
def strayIn : EngIn := ⟨false, {}, ⟨0, 0, true⟩, ⟨0, 0, true⟩⟩

theorem strayLength : dB strayItem.desc 24 4 = 0 := by decide +kernel

theorem strayIsland_next : islandNext strayIsland = some (0, strayQueue, strayItem) := by decide +kernel

theorem strayIsland_session : itemSession strayIsland 0 strayItem.desc = some 0 := by decide +kernel

theorem strayIsland_unused : sessionUsed strayIsland 0 = strayIsland := if_neg (by decide +kernel)

/-- The record of the key that fails its check is written. -/
theorem strayIsland_record : RecordAt strayIsland 0 strayQueue strayItem { status := 0x46 } strayIn strayIsland where
  wrote := by
    have hpa : rgF strayIsland .cqbase strayQueue 51 12 * 4096 + rgF strayIsland .qstat strayQueue 47 32 * 32 = 0xE000000000000 := by decide +kernel
    rw [hpa]
    exact shWriteBuf_slot (by decide +kernel) (by decide) (by decide) (by decide +kernel) (by decide +kernel) (by decide +kernel) (by simp [recordBytes, bytesLE])
  alone := by decide +kernel
  runs := by decide +kernel
  noIrq := by decide +kernel
  live := by decide +kernel
  size := by decide +kernel
  num := by decide

/-- Refutes O46: the island's item may wait in a queue whose number no package has (2^32), and its record's CQTAIL then goes where the hub I/O
cache has its ways, which the statement has unchanged. -/
theorem not_cipherSessions : ¬ Obligations.CipherSessions := by
  rintro ⟨_, hisland, _⟩
  obtain ⟨_, hwork⟩ := hisland strayIn 0 strayQueue strayItem strayIsland
  obtain ⟨_, hunwrap⟩ := hwork rfl strayIsland_next [] strayIsland (by rw [strayLength]; exact shRead_empty ..)
  obtain ⟨_, hfails⟩ := hunwrap 0 strayIsland (by decide +kernel) strayIsland_session strayIsland_session
  obtain ⟨t, _, hrep⟩ := hfails rfl (strayIsland_unused.symm ▸ strayIsland_record)
  rw [strayIsland_unused] at hrep
  have hways : rg t .hioway 0 = 0x101 := (hrep.regs .hioway 0 (by decide) (by decide)).trans (by decide +kernel)
  have hstat : rg t .qstat strayQueue = 0x101 := tget_present hways (by decide +kernel)
  have htail : rgF t .qstat strayQueue 47 32 = 0 := (congrArg (fld · 47 32) hstat).trans (by decide)
  have hturn : rgF t .qstat strayQueue 11 11 = 0 := (congrArg (fld · 11 11) hstat).trans (by decide)
  have hmoved : (rgF strayIsland .qstat strayQueue 47 32 + 1) % cqSize strayIsland strayQueue ≠ 0 ∨
      (if (rgF strayIsland .qstat strayQueue 47 32 + 1) % cqSize strayIsland strayQueue = 0 then 1 - rgF strayIsland .qstat strayQueue 11 11
        else rgF strayIsland .qstat strayQueue 11 11) ≠ 0 := by decide +kernel
  exact hmoved.elim (· (hrep.tail.symm.trans htail)) (· (hrep.turn.symm.trans hturn))

end Sys2Proof.Machine
end


section
/-! PROOFS. Refutation of O27: an address inside an enabled CXL window counts as memory of the package even while no root port of the
device behind it is up (R392, R393), and memory then answers no access (R395); nothing the claim asks for keeps that out. -/
namespace Sys2Proof.Machine

open Sys2Proof

/-- The reset state with the hub I/O cache's domain OFF, root port 0 of lane group 0 in L0, and CXL window 0 enabled over the first
256 MiB of the CXL slot; the window's device is behind lane group 1, none of whose root ports is up. -/
def deadWindow : State :=
  { setRg (setRg (setRg (setRg State.reset .cxlwbase 0 0x100000000001) .cxlwctl 0 0x400000000001) .lgctl 0 1) .dstate 0x1AA 3 with
    rports := [(0, { st := 1 })] }

/-- The first line of that window. -/
def deadLine : LineNo := 0x4000000000

/-- A home takes a request at once where nothing of the block is under way. -/
theorem homeOpen_of_rest {s : State} {line : Nat} (here : isLocalMem s (line * 64) = true) (live : stopDead s (lineStop s line) = false)
    (there : stopHeld s (lineStop s line) = false) (channel : chLost s line = false) (hbusy : s.busy = []) (hwait : s.dirWait = [])
    (hnet : s.net = []) : HomeOpen s line where
  here := here
  live := live
  there := there
  channel := channel
  idle := by rw [busyOf, hbusy]; rfl
  room := by rw [busyCount, hbusy]; exact Nat.succ_pos 55
  queue := by rw [hwait]; exact fun p hp => absurd hp List.not_mem_nil
  alone := by rw [hnet]; exact fun p hp => absurd hp List.not_mem_nil
  fresh := by rw [hnet]; exact fun p hp => absurd hp List.not_mem_nil

/-- A home of the package takes requests for the line. -/
theorem deadWindow_open : HomeOpen deadWindow 0x4000000000 :=
  homeOpen_of_rest (by decide +kernel) (by decide +kernel) (by decide +kernel) (by decide +kernel) rfl rfl rfl

/-- The line is one no holder has, as far as the claims ask. -/
theorem deadWindow_free (w : Bool) : HomeFree deadWindow (0x4000000000 * 64) w where
  open_ := deadWindow_open
  here := by decide +kernel
  none_ := by decide +kernel
  rights := by revert w; decide +kernel
  good := by decide +kernel
  unfenced := by decide +kernel

/-! ### O27 -/

/-- The packets in flight after a command. -/
def netAfter (i : Instr) (s : State) : List Packet :=
  match exec i s with
  | .next t => t.net
  | _ => []

theorem netAfter_of_exec {i : Instr} {s t : State} (h : exec i s = .next t) : netAfter i s = t.net := by rw [netAfter, h]

/-- Refutes O27: the read of a line behind an enabled CXL window whose device is not up ends in ERR_RSP, and no RD_RSP is in flight. -/
theorem not_uncachedRequests : ¬ Obligations.UncachedRequests := by
  rintro ⟨hline, _⟩
  obtain ⟨⟨t, p, hexec, hp, hcmd, _⟩, _⟩ := hline ⟨0, 1⟩ deadLine 0 0 true 0 deadWindow (deadWindow_free true)
  have herr : ∀ q ∈ netAfter (.rdc ⟨0, 1⟩ deadLine ⟨true, 0, 0⟩ {}) deadWindow, q.cmd ≠ .rdRsp := by decide +kernel
  exact herr p (netAfter_of_exec hexec ▸ hp) hcmd

end Sys2Proof.Machine
end


section
/-! PROOFS. Refutations of O39 and O47: an inbound read and the debug access port meet the line behind the CXL window whose device is not
up (`deadWindow_free`), and end in error. -/
namespace Sys2Proof.Machine

open Sys2Proof

/-- What a device of the PCIe slot answers; the commands here do not reach one. -/
def unasked : DevAns := ⟨0, 0, false⟩

/-- What the debug access port has answered after a command. -/
def dapStatusAfter (i : Instr) (s : State) : Option Nat :=
  match exec i s with
  | .next t => some t.dapStatus
  | _ => none

theorem dapStatusAfter_of_exec {i : Instr} {s t : State} (h : exec i s = .next t) : dapStatusAfter i s = some t.dapStatus := by
  rw [dapStatusAfter, h]

/-- Refutes O47: the read of the doubleword ends in DAP_ERROR, not in OK. -/
theorem not_ownershipAndDebug : ¬ Obligations.OwnershipAndDebug := by
  rintro ⟨_, _, _, _, _, hmem, _⟩
  obtain ⟨hfree, _⟩ := hmem true 0x20000000000#49 0 0 {} unasked deadWindow
  obtain ⟨hread, _⟩ := hfree (deadWindow_free true) rfl rfl
  obtain ⟨t, hexec, hok, _⟩ := hread (by decide +kernel) (by decide +kernel)
  have herr : dapStatusAfter (.dapMemRead true 0 0x20000000000#49 {} unasked) deadWindow = some 0x32 := by decide +kernel
  rw [dapStatusAfter_of_exec hexec, hok] at herr
  cases herr

/-- What a root port has completed a read with after a command. -/
def completionAfter (i : Instr) (s : State) (j : Nat) : Option (Bool × List Byte) :=
  match exec i s with
  | .next t => (rport t j).cpl
  | _ => none

theorem completionAfter_of_exec {i : Instr} {s t : State} (h : exec i s = .next t) (j : Nat) : completionAfter i s j = (rport t j).cpl := by
  rw [completionAfter, h]

/-- Refutes O39: the inbound read of one byte is completed in error. -/
theorem not_laneGroupsAndRootPorts : ¬ Obligations.LaneGroupsAndRootPorts := by
  rintro ⟨_, hports, _⟩
  obtain ⟨_, _, _, _, hin⟩ := hports 0 0 deadWindow
  obtain ⟨_, _, hread, _⟩ := hin 0 0x100000000000#52 {} unasked (by decide +kernel) (by decide +kernel) (by decide +kernel)
  obtain ⟨t, hexec, hgood⟩ := hread (by decide +kernel) rfl (deadWindow_free _)
  have herr : completionAfter (.inboundPcieRequest 0 0 (.read 0 0x100000000000#52 1) {} unasked) deadWindow 0 = some (false, []) := by
    decide +kernel
  rw [completionAfter_of_exec hexec 0] at herr
  cases herr.symm.trans hgood

end Sys2Proof.Machine
end


section
/-! PROOFS. Refutations of O25, O26 and O30. A core whose copy went by PUTS stays listed in a DSF entry, and its next RDS is answered as a
sharer's (R286); the data of a PUT, or of a recall, for a line whose device is not up (`deadWindow`) is lost. -/
namespace Sys2Proof.Machine

open Sys2Proof

/-! ### O25 -/

/-- The line of the CXL window with the window's device up: core 1 is its forwarder; core 0 is listed without a copy, and its prefetcher
may read the page. -/
def staleSharer : State :=
  { setRg deadWindow .cxlwctl 0 0x400000000000 with
    dir := [(0x4000000000, { st := .dsf, ptr := 1, cores := 3 })]
    cores := [(0, { pages := [(true, 0x100000000, 0)] })] }

theorem staleSharer_open : HomeOpen staleSharer 0x4000000000 :=
  homeOpen_of_rest (by decide +kernel) (by decide +kernel) (by decide +kernel) (by decide +kernel) rfl rfl rfl

/-- Refutes O25: another core is the line's live forwarder, but core 0 is listed; its RDS is answered DATA_S, and no FWD_S leaves. -/
theorem not_coherenceRequests : ¬ Obligations.CoherenceRequests := by
  intro h
  obtain ⟨_, _, hfwd⟩ := h 0 deadLine ⟨true, 0, 0⟩ staleSharer (by decide) staleSharer_open (by decide +kernel) (by decide +kernel)
    (by decide +kernel)
  obtain ⟨hrds, _⟩ := hfwd (by decide +kernel) (by decide +kernel) (by decide +kernel) (by decide +kernel) (by decide +kernel)
  obtain ⟨t, p, _, hexec, hp, hcmd, _⟩ := hrds (by decide +kernel)
  have hdata : ∀ q ∈ netAfter (.rds 0 deadLine ⟨true, 0, 0⟩ {}) staleSharer, q.cmd ≠ .fwdS := by decide +kernel
  exact hdata p (netAfter_of_exec hexec ▸ hp) hcmd

/-! ### O26 -/

/-- Core 0 holds the line in M, as its entry says, with a byte 1 in it. -/
def dirtyPut : State :=
  { deadWindow with
    lines := [(0x4000000000, { st := .m, data := 1 })]
    dir := [(0x4000000000, { st := .dx, ptr := 0, cores := 1 })] }

theorem dirtyPut_open : HomeOpen dirtyPut 0x4000000000 :=
  homeOpen_of_rest (by decide +kernel) (by decide +kernel) (by decide +kernel) (by decide +kernel) rfl rfl rfl

/-- The data of a line at its home after a command. -/
def homeDataAfter (i : Instr) (s : State) (line : Nat) : Option LineData :=
  match exec i s with
  | .next t => some (llcPeek t line 0).data
  | _ => none

theorem homeDataAfter_of_exec {i : Instr} {s t : State} (h : exec i s = .next t) (line : Nat) :
    homeDataAfter i s line = some (llcPeek t line 0).data := by rw [homeDataAfter, h]

/-- Refutes O26: the PUTM is answered, but its data has not become the home's value of the line. -/
theorem not_evictions : ¬ Obligations.Evictions := by
  intro h
  obtain ⟨_, hput⟩ := h 0 deadLine dirtyPut (by decide) dirtyPut_open (by decide +kernel) (by decide +kernel)
  obtain ⟨t, _, hexec, _, _, _, _, _, _, _, _, _, hdata, _⟩ := hput (.putm 0 deadLine .none_, .m) (by simp) (by decide +kernel)
    (by decide +kernel) (by decide +kernel) (by decide +kernel)
  have hlost : homeDataAfter (.putm 0 deadLine .none_) dirtyPut deadLine.toNat = some 0 := by decide +kernel
  have hheld : (hline dirtyPut (0 : HolderId).toNat deadLine.toNat).data = 1 := by decide +kernel
  obtain ⟨hd, _⟩ := hdata (.inl rfl)
  rw [homeDataAfter_of_exec hexec, hd, hheld] at hlost
  exact absurd (Option.some.inj hlost) (by decide +kernel)

/-! ### O30 -/

/-- A read without caching of the line, for which its owner is recalled. -/
def recallRead : Packet := { cmd := .rdc, src := ⟨0, 1⟩, dst := ⟨0, 20⟩, txid := 7, addr := 0x100000000000, holder := 0xFE }

/-- The owner's answer, with data. -/
def recallAnswer : Packet :=
  { cmd := .rclAck, src := ⟨0, 0⟩, dst := ⟨0, 20⟩, txid := 7, addr := 0x100000000000, holder := 0, dirty := true, data := 1 }

/-- The home's transaction. -/
def recallBusy : Busy := { newBusy recallRead with await := [0] }

/-- The answer is on its way to the home, the last one it is owed. -/
def recallEnds : State :=
  { deadWindow with
    busy := [(0x4000000000, some recallBusy)]
    net := [recallAnswer]
    dir := [(0x4000000000, { st := .dx, ptr := 0, cores := 1 })] }

/-- The answer lands. -/
theorem recallAnswer_lands :
    takePacket (fun q => isFor .rclAck 0 0x4000000000 q && !(stopHeld recallEnds q.dst) && !(outbound recallEnds q)) recallEnds =
      some (recallAnswer, { recallEnds with net := [] }) := by
  have hfind : recallEnds.net.find? (fun q => (isFor .rclAck 0 0x4000000000 q && !(stopHeld recallEnds q.dst) && !(outbound recallEnds q)) &&
      mayLand recallEnds q) = some recallAnswer := by decide +kernel
  rw [takePacket, takeAny, hfind]
  exact congrArg (fun n => some (recallAnswer, { recallEnds with net := n })) (List.erase_cons_head recallAnswer [])

/-- The home's stop takes packets in. -/
theorem recallAnswer_taken : Takes recallEnds recallAnswer.dst where
  live := by decide +kernel
  run := by
    have hdom : ∀ d ∈ stopDom recallAnswer.dst, domState recallEnds d = 0 := by decide +kernel
    exact fun d hd => hdom d hd

/-- Refutes O30: the RDC whose recall has returned data ends in ERR_RSP, since memory took none of it. -/
theorem not_answersAtHomes : ¬ Obligations.AnswersAtHomes := by
  rintro ⟨hends, _⟩
  obtain ⟨_, _, hrcl⟩ := hends 0 deadLine recallAnswer recallBusy _ recallEnds (by decide) recallAnswer_taken (by decide) (by decide +kernel)
    (by decide +kernel) rfl rfl rfl (by decide) rfl rfl rfl
  obtain ⟨t, q, hexec, hq, hcmd, _⟩ := hrcl recallAnswer_lands rfl rfl rfl rfl rfl rfl (by decide +kernel) (by decide +kernel)
    (by decide +kernel) (by decide +kernel)
  have herr : ∀ p ∈ netAfter (.rclAck 0 deadLine) recallEnds, p.cmd ≠ .rdRsp := by decide +kernel
  exact herr q (netAfter_of_exec hexec ▸ hq) hcmd

end Sys2Proof.Machine
end


section
/-! PROOFS. What a snoop that lands does at a core that holds the line in a stable state (R288). -/
namespace Sys2Proof.Machine

open Sys2Proof

/-! ### What only one line of one core feels -/

/-- From s to t, of all lines only line l of core h changed, no other core did, and memory, L3 and directory are as they were. -/
structure LineOnly (h l : Nat) (s t : State) : Prop where
  dram : t.dram = s.dram
  dir : t.dir = s.dir
  l3 : t.l3 = s.l3
  lines : ∀ h' l', h' * 2 ^ 46 + l' ≠ h * 2 ^ 46 + l → hline t h' l' = hline s h' l'
  cores : ∀ c', c' ≠ h → getCore t c' = getCore s c'

section
variable {h l : Nat} {s t u : State}

theorem LineOnly.refl (h l : Nat) (s : State) : LineOnly h l s s := ⟨rfl, rfl, rfl, fun _ _ _ => rfl, fun _ _ => rfl⟩

theorem LineOnly.trans (h1 : LineOnly h l s t) (h2 : LineOnly h l t u) : LineOnly h l s u where
  dram := h2.dram.trans h1.dram
  dir := h2.dir.trans h1.dir
  l3 := h2.l3.trans h1.l3
  lines := fun h' l' hne => (h2.lines h' l' hne).trans (h1.lines h' l' hne)
  cores := fun c' hne => (h2.cores c' hne).trans (h1.cores c' hne)

theorem LineOnly.net (s : State) (n : List Packet) : LineOnly h l s { s with net := n } := ⟨rfl, rfl, rfl, fun _ _ _ => rfl, fun _ _ => rfl⟩

theorem LineOnly.send (s : State) (p : Packet) : LineOnly h l s (send s p) := ⟨rfl, rfl, rfl, fun _ _ _ => rfl, fun _ _ => rfl⟩

theorem LineOnly.delOutst (s : State) (st : StopId) (tx : Nat) : LineOnly h l s (delOutst s st tx) :=
  ⟨rfl, rfl, rfl, fun _ _ _ => rfl, fun _ _ => rfl⟩

theorem LineOnly.setHline (h l : Nat) (s : State) (x : CLine) : LineOnly h l s (setHline s h l x) :=
  ⟨rfl, rfl, rfl, fun _ _ hne => hline_setHline_ne hne, fun _ _ => rfl⟩

theorem CoreOnly.lineOnly (hc : CoreOnly h s t) : LineOnly h l s t where
  dram := hc.dram
  dir := by have he := congrArg State.dir hc.1; exact he
  l3 := by have he := congrArg State.l3 hc.1; exact he
  lines := fun _ _ _ => hline_congr hc.lines ..
  cores := hc.2

end

/-! ### The packet arrives -/

section
variable {s u : State} {p : Packet}

/-- The packet a message to a core is, once it lands. -/
theorem message_lands {c : Cmd} {h line : Nat}
    (hp : takePacket (fun q => isFor c h line q && !(stopHeld s q.dst) && !(outbound s q)) s = some (p, u)) :
    p.cmd = c ∧ p.holder = h ∧ pLine p = line ∧ u = { s with net := s.net.erase p } := by
  obtain ⟨rfl, hfind⟩ := takeAny_eq hp
  have hsat := List.find?_some hfind
  simp only [isFor, Bool.and_eq_true, beq_iff_eq] at hsat
  obtain ⟨⟨⟨⟨⟨hcmd, hholder⟩, hline⟩, _⟩, _⟩, _⟩ := hsat
  exact ⟨hcmd, hholder, hline, rfl⟩

/-- A packet that its stop takes in is delivered there. -/
theorem deliver_takes (ht : Takes s p.dst) (n : List Packet) : deliver { s with net := n } p = deliverTo { s with net := n } p := by
  have hlive : stopDead { s with net := n } p.dst = false := ht.live
  have hin : meetIngress { s with net := n } p = (true, { s with net := n }) := by
    unfold meetIngress
    dsimp only
    split
    next => rfl
    next d hd =>
      have hrun : domState { s with net := n } d = 0 := by
        split at hd
        · cases hd
        · exact ht.run d hd
      rw [hrun]
      rfl
  rw [deliver, hlive, hin]
  rfl

/-- A core's stop is not the remote agent's. -/
theorem holderStop_ne_raStop {h : Nat} (hh : h < 240) : holderStop h ≠ raStop := by
  rw [holderStop, if_pos hh]
  intro he
  have hdie : h / 20 = 12 := congrArg StopId.die he
  omega

theorem ne_ownPkg {h : Nat} (hh : h < 240) (s : State) : h ≠ ownPkg s := by unfold ownPkg; omega

/-- A message in flight to a core acts there. -/
theorem deliverMsg_core {c : Cmd} {h line : Nat} (hh : h < 240)
    (hp : takePacket (fun q => isFor c h line q && !(stopHeld s q.dst) && !(outbound s q)) s = some (p, u)) (ht : Takes s p.dst) :
    deliverMsg s c h line = deliverTo u p := by
  obtain ⟨_, _, _, rfl⟩ := message_lands hp
  rw [deliverMsg, hp]
  dsimp only
  rw [if_neg (ne_ownPkg hh _), deliver_takes ht]

/-- A snoop in flight to a core whose arrays show no error acts there. -/
theorem deliverSnoop_core {c : Cmd} {h line : Nat} (hh : h < 240)
    (hp : takePacket (fun q => isFor c h line q && !(stopHeld s q.dst) && !(outbound s q)) s = some (p, u)) (ht : Takes s p.dst) :
    deliverSnoop s c h line .none_ = deliverTo u p := by
  obtain ⟨_, _, _, rfl⟩ := message_lands hp
  have hclean : arrFound { s with net := s.net.erase p } h line .none_ false = { s with net := s.net.erase p } := by
    rw [arrFound, if_neg (by omega), if_neg (by omega)]
  rw [deliverSnoop, hp]
  dsimp only
  rw [if_neg (ne_ownPkg hh _), hclean, deliver_takes ht]

end

/-! ### The answer -/

/-- The state of a core that has noted a snoop. -/
def snoopNoted (s : State) (h : Nat) : State := wakeCore (countEvent s h 0x015) h

theorem snoopNoted_only (s : State) (h : Nat) : CoreOnly h s (snoopNoted s h) := by
  refine (countEvent_counted s h 0x015).only.trans ?_
  rw [snoopNoted, wakeCore]
  split
  · exact .setCore ..
  · exact .refl ..

/-- A packet is in flight once it has been sent. -/
theorem mem_net_send (s : State) (p : Packet) :
    { p with since := s.ptime.toNat, urg := 0, stream := streamOf p, ord := s.sendNo } ∈ (send s p).net :=
  List.mem_append_right _ List.mem_cons_self

theorem setHline_net (s : State) (h l : Nat) (x : CLine) : (setHline s h l x).net = s.net := rfl

theorem mem_net_send_of_mem {s : State} {p q : Packet} (h : q ∈ s.net) : q ∈ (send s p).net := List.mem_append_left _ h

theorem lineRemoved_only (s : State) (p : Packet) (h line : Nat) : CoreOnly h s (lineRemoved s p h line) := by
  unfold lineRemoved
  split
  · exact .setCore ..
  · exact .refl ..

/-- What core p.holder's answer a to snoop p, from state s with its copy x, leaves in t. -/
structure Answers (p : Packet) (x : CLine) (a : SnoopAns) (s t : State) : Prop where
  only : LineOnly p.holder (pLine p) s t
  line : hline t p.holder (pLine p) = if a.next = .i then {} else { x with st := a.next }
  data : ∀ c, a.data = some c → ∃ d ∈ t.net, d.cmd = c ∧ d.dst = p.req ∧ d.txid = p.reqTxid ∧ d.data = x.data ∧ d.poison = x.poison
  ack : ∃ q ∈ t.net, q.cmd = a.ack ∧ q.dst = p.src ∧ q.txid = p.txid ∧ q.holder = p.holder ∧ q.kept = a.kept ∧ q.r = false ∧
    q.dirty = a.withData ∧ (a.withData = true → q.data = x.data ∧ q.poison = x.poison ∧ q.keyid = x.keyid)

/-- The two packets of an answer are in flight once it is sent. -/
theorem sendAns_sends (s : State) (p : Packet) (h : Nat) (x : CLine) (a : SnoopAns) :
    (∀ c, a.data = some c → ∃ d ∈ (sendAns s p h x a false).net, d.cmd = c ∧ d.dst = p.req ∧ d.txid = p.reqTxid ∧ d.data = x.data ∧
      d.poison = x.poison) ∧
    ∃ q ∈ (sendAns s p h x a false).net, q.cmd = a.ack ∧ q.dst = p.src ∧ q.txid = p.txid ∧ q.holder = h ∧ q.kept = a.kept ∧ q.r = false ∧
      q.dirty = a.withData ∧ (a.withData = true → q.data = x.data ∧ q.poison = x.poison ∧ q.keyid = x.keyid) := by
  unfold sendAns
  refine ⟨fun c hc => ?_, _, mem_net_send .., rfl, rfl, rfl, rfl, rfl, rfl, rfl, fun hw => ?_⟩
  · rw [hc]
    exact ⟨_, mem_net_send_of_mem (mem_net_send ..), rfl, rfl, rfl, rfl, rfl⟩
  · rw [hw]
    exact ⟨rfl, Bool.and_true _, rfl⟩

theorem sendAns_only (s : State) (p : Packet) (h : Nat) (x : CLine) (a : SnoopAns) (r : Bool) (l : Nat) :
    LineOnly h l s (sendAns s p h x a r) ∧ (sendAns s p h x a r).lines = s.lines := by
  unfold sendAns
  split
  · exact ⟨(LineOnly.send ..).trans (.send ..), rfl⟩
  · exact ⟨.send .., rfl⟩

/-- A snoop that finds the line in a stable state, or not held, is answered as R288 says. -/
theorem holderSnoop_answers {s : State} {p : Packet} {a : SnoopAns} (hh : p.holder < 240)
    (hst : transSt (hline s p.holder (pLine p)).st = false) (ha : snoopAns (hline s p.holder (pLine p)).st p.cmd = some a) :
    Answers p (hline s p.holder (pLine p)) a s (holderSnoop s p) := by
  obtain ⟨x, hx⟩ : ∃ x, hline s p.holder (pLine p) = x := ⟨_, rfl⟩
  obtain ⟨v, hv⟩ : ∃ v, snoopNoted s p.holder = v := ⟨_, rfl⟩
  obtain ⟨w, hw⟩ : ∃ w, sendAns v p p.holder x a false = w := ⟨_, rfl⟩
  rw [hx] at hst ha ⊢
  have hrun : holderSnoop s p = if a.next = .i then lineRemoved (setHline w p.holder (pLine p) {}) p p.holder (pLine p)
      else setHline w p.holder (pLine p) { x with st := a.next } := by
    rw [holderSnoop]
    dsimp only
    rw [if_pos hh, hx, show wakeCore (countEvent s p.holder 0x015) p.holder = v from hv]
    split
    case h_1 hs | h_2 hs | h_3 hs | h_4 hs => rw [hs] at hst; cases hst
    case h_5 => rw [ha, ← hw]
  have hbefore : LineOnly p.holder (pLine p) s w := by
    subst hv hw
    exact (snoopNoted_only s p.holder).lineOnly.trans (sendAns_only ..).1
  obtain ⟨hdata, hack⟩ := sendAns_sends v p p.holder x a
  rw [hw] at hdata hack
  rw [hrun]
  split
  next hnext =>
    have hrem := lineRemoved_only (setHline w p.holder (pLine p) {}) p p.holder (pLine p)
    have hnet : (lineRemoved (setHline w p.holder (pLine p) {}) p p.holder (pLine p)).net = w.net := hrem.net.trans (setHline_net ..)
    refine ⟨hbefore.trans ((LineOnly.setHline ..).trans hrem.lineOnly), ?_, ?_, ?_⟩
    · rw [hline_congr hrem.lines, hline_setHline_same, if_pos hnext]
    · rw [hnet]; exact hdata
    · rw [hnet]; exact hack
  next hnext => exact ⟨hbefore.trans (.setHline ..), by rw [hline_setHline_same, if_neg hnext], hdata, hack⟩

/-! ### O28 -/

/-- The snoops of R288. -/
def snoopCmds : List Cmd := [.fwdS, .fwdX, .inv, .rclC, .rclI]

/-- A snoop that does not go to the remote agent reaches its holder. -/
theorem deliverTo_snoop {p : Packet} (hc : p.cmd ∈ snoopCmds) (hd : p.dst ≠ raStop) (s : State) : deliverTo s p = holderSnoop s p := by
  rw [deliverTo, if_neg (fun he => hd he.1)]
  simp only [snoopCmds, List.mem_cons, List.not_mem_nil, or_false] at hc
  rcases hc with hc | hc | hc | hc | hc <;> rw [hc]

/-- What a snoop of a stable line that is answered with a leaves, given as a command. -/
theorem snoop_answered {s u : State} {p : Packet} {a : SnoopAns} {i : Instr} {c : Cmd} {h line : Nat} (hh : h < 240) (hc : c ∈ snoopCmds)
    (hexec : exec i s = ok (deliverSnoop s c h line .none_) ∨ exec i s = ok (deliverMsg s c h line)) (ht : Takes s p.dst)
    (hdst : p.dst = holderStop h)
    (hp : takePacket (fun q => isFor c h line q && !(stopHeld s q.dst) && !(outbound s q)) s = some (p, u))
    (hst : transSt (hline s h line).st = false) (ha : snoopAns (hline s h line).st c = some a) :
    ∃ t, exec i s = .next t ∧ Answers p (hline s h line) a s t := by
  obtain ⟨rfl, rfl, rfl, rfl⟩ := message_lands hp
  have hto : deliverTo { s with net := s.net.erase p } p = holderSnoop { s with net := s.net.erase p } p :=
    deliverTo_snoop hc (hdst ▸ holderStop_ne_raStop hh) _
  have hans := holderSnoop_answers (s := { s with net := s.net.erase p }) hh hst ha
  refine ⟨holderSnoop { s with net := s.net.erase p } p, ?_, (LineOnly.net s _).trans hans.only, hans.line, hans.data, hans.ack⟩
  cases hexec with
  | inl he => rw [he, deliverSnoop_core hh hp ht, hto]; rfl
  | inr he => rw [he, deliverMsg_core hh hp ht, hto]; rfl

/-- The state of the line after an answer. -/
theorem Answers.st {p : Packet} {x : CLine} {a : SnoopAns} {s t : State} (h : Answers p x a s t) :
    (hline t p.holder (pLine p)).st = a.next := by
  rw [h.line]
  split
  next hnext => rw [hnext]
  next => rfl

theorem Answers.keeps {p : Packet} {x : CLine} {a : SnoopAns} {s t : State} (h : Answers p x a s t) (hnext : a.next ≠ .i) :
    (hline t p.holder (pLine p)).data = x.data := by
  rw [h.line, if_neg hnext]

/-- Settles O28: every row is `snoop_answered` with the table's answer. -/
theorem snoopAnswers : Obligations.SnoopAnswers := by
  intro h line p u s hh l x there ht hdst
  refine ⟨fun r hr hp hst => ?_, fun r hr hp hst => ?_⟩
  · have hrow : exec r.1 s = ok (deliverSnoop s r.2.1 h.toNat l .none_) ∧ r.2.1 ∈ snoopCmds ∧ transSt r.2.2.1 = false ∧
        snoopAns r.2.2.1 r.2.1 = some ⟨some r.2.2.2.1, .fwdDone, false, r.2.2.2.2, r.2.2.2.2⟩ := by
      simp only [List.mem_cons, List.not_mem_nil, or_false] at hr
      rcases hr with rfl | rfl | rfl | rfl | rfl | rfl | rfl | rfl <;> exact ⟨rfl, by simp [snoopCmds], rfl, rfl⟩
    obtain ⟨hexec, hc, hstable, hans⟩ := hrow
    obtain ⟨_, hholder, hline, _⟩ := message_lands hp
    obtain ⟨t, hnext, ha⟩ := snoop_answered hh hc (.inl hexec) ht hdst hp (hst ▸ hstable) (hst ▸ hans)
    obtain ⟨d, hd, hdcmd, hddst, hdtx, hddata, hdpoison⟩ := ha.data _ rfl
    obtain ⟨q, hq, hqcmd, hqdst, hqtx, hqholder, hqkept, hqr, _⟩ := ha.ack
    have hlast := ha.st
    have hothers := ha.only.lines
    rw [hholder, hline] at hlast hothers
    exact ⟨t, d, q, hnext, hd, hdcmd, hddst, hdtx, hddata, hdpoison, hq, hqcmd, hqdst, hqtx, hqholder.trans hholder, hqkept, hqr, hlast,
      ha.only.dram, ha.only.dir, hothers⟩
  · have hrow : (exec r.1 s = ok (deliverSnoop s r.2.1 h.toNat l .none_) ∨ exec r.1 s = ok (deliverMsg s r.2.1 h.toNat l)) ∧
        r.2.1 ∈ snoopCmds ∧ transSt r.2.2.1 = false ∧
        ∃ k, snoopAns r.2.2.1 r.2.1 = some ⟨none, r.2.2.2.1, r.2.2.2.2.1, k, r.2.2.2.2.2⟩ := by
      simp only [List.mem_cons, List.not_mem_nil, or_false] at hr
      rcases hr with rfl | rfl | rfl | rfl | rfl | rfl | rfl | rfl | rfl | rfl
      iterate 4 exact ⟨.inr rfl, by simp [snoopCmds], rfl, _, rfl⟩
      iterate 6 exact ⟨.inl rfl, by simp [snoopCmds], rfl, _, rfl⟩
    obtain ⟨hexec, hc, hstable, k, hans⟩ := hrow
    obtain ⟨_, hholder, hline, _⟩ := message_lands hp
    obtain ⟨t, hnext, ha⟩ := snoop_answered hh hc hexec ht hdst hp (hst ▸ hstable) (hst ▸ hans)
    obtain ⟨q, hq, hqcmd, hqdst, hqtx, hqholder, _, _, hdirty, hwith⟩ := ha.ack
    have hlast := ha.st
    have hkeeps := ha.keeps
    have hothers := ha.only.lines
    rw [hholder, hline] at hlast hothers hkeeps
    exact ⟨t, q, hnext, hq, hqcmd, hqdst, hqtx, hqholder.trans hholder, hdirty, hwith, hlast, hkeeps, ha.only.dram, ha.only.dir, hothers⟩

end Sys2Proof.Machine
end


section
/-! PROOFS. What data, completions and write-back answers do at the core that waits for them (R285, R289), where no store waits in its buffer
and no snoop is held. -/
namespace Sys2Proof.Machine

open Sys2Proof

/-! ### What follows a message -/

/-- The store buffer being empty, no store is performed as the line comes. -/
theorem performWaiting_only {s : State} {h : Nat} (hsb : (getCore s h).sb = []) (line : Nat) : CoreOnly h s (performWaiting s h line) := by
  unfold performWaiting
  split
  · exact .refl ..
  · dsimp only
    rw [hsb]
    exact (CoreOnly.setCore ..).trans (.setCore ..)

/-- What changes set-up registers only leaves lines, memory and cores. -/
theorem LineOnly.regs {h l : Nat} {s t : State} (hr : { t with regs := s.regs } = s) : LineOnly h l s t ∧ t.lines = s.lines := by
  have hlines : t.lines = s.lines := by have he := congrArg State.lines hr; exact he
  have hcores : t.cores = s.cores := by have he := congrArg State.cores hr; exact he
  refine ⟨⟨?_, ?_, ?_, fun _ _ _ => hline_congr hlines .., fun _ _ => getCore_congr hcores _⟩, hlines⟩
  · have he := congrArg State.dram hr; exact he
  · have he := congrArg State.dir hr; exact he
  · have he := congrArg State.l3 hr; exact he

theorem setDom_rest (s : State) (d x : Nat) : { setDom s d x with regs := s.regs } = s := by
  unfold setDom
  split <;> rfl

/-- A barrier may complete after a message, and a waiting core may close; the line stays. -/
theorem afterMsg_only (s : State) (h l : Nat) : LineOnly h l s (afterMsg s h) ∧ (afterMsg s h).lines = s.lines := by
  unfold afterMsg
  split
  · have hbar := tryBar_only s h
    obtain ⟨v, hv⟩ : ∃ v, tryBar s h = v := ⟨_, rfl⟩
    rw [hv] at hbar ⊢
    unfold enterWaitst
    dsimp only
    split
    · obtain ⟨hdom, hlines⟩ := LineOnly.regs (h := h) (l := l) (setDom_rest v h 4)
      exact ⟨hbar.lineOnly.trans hdom, hlines.trans hbar.lines⟩
    · exact ⟨hbar.lineOnly, hbar.lines⟩
  · exact ⟨.refl .., rfl⟩

/-! ### The answers at the requester -/

/-- The line of a requester whose transaction is over, owned. -/
def nowM (x : CLine) (contended : Bool) : CLine :=
  { x with st := .m, base := .i, gotData := false, gotComp := false, held := [], contended := contended, txid := 0, dropFill := false }

section
variable {s : State} {p : Packet}

/-- The line reaches M. -/
theorem becomeM_spec {h line : Nat} (hsb : (getCore s h).sb = []) (hheld : (hline s h line).held = []) (c : Bool) :
    LineOnly h line s (becomeM s h line c) ∧ hline (becomeM s h line c) h line = nowM (hline s h line) c := by
  obtain ⟨x, hx⟩ : ∃ x, hline s h line = x := ⟨_, rfl⟩
  rw [hx] at hheld ⊢
  have hrun : becomeM s h line c = performWaiting (delOutst (setHline s h line (nowM x c)) (holderStop h) x.txid) h line := by
    unfold becomeM
    dsimp only
    rw [hx, hheld]
    rfl
  have hperf := performWaiting_only (s := delOutst (setHline s h line (nowM x c)) (holderStop h) x.txid) hsb line
  rw [hrun]
  refine ⟨((LineOnly.setHline ..).trans (.delOutst ..)).trans hperf.lineOnly, ?_⟩
  exact (hline_congr (hperf.lines.trans (delOutst_lines ..)) ..).trans (hline_setHline_same ..)

/-- Data for a line in IS_D. -/
theorem holderData_isd (htx : p.txid = (hline s p.holder (pLine p)).txid) (hst : (hline s p.holder (pLine p)).st = .isd)
    (hdrop : (hline s p.holder (pLine p)).dropFill = false) (hheld : (hline s p.holder (pLine p)).held = []) :
    LineOnly p.holder (pLine p) s (holderData s p) ∧ hline (holderData s p) p.holder (pLine p) =
      { st := p.kept, data := p.data, poison := p.poison, keyid := p.keyid, sec := p.world, partid := p.partid } := by
  obtain ⟨x, hx⟩ : ∃ x, hline s p.holder (pLine p) = x := ⟨_, rfl⟩
  rw [hx] at htx hst hdrop hheld
  have hrun : holderData s p = setHline (delOutst s (holderStop p.holder) x.txid) p.holder (pLine p)
      { st := p.kept, data := p.data, poison := p.poison, keyid := p.keyid, sec := p.world, partid := p.partid } := by
    unfold holderData
    dsimp only
    rw [hx, if_neg (not_not_intro htx), hst]
    dsimp only
    rw [hdrop, hheld]
    rfl
  rw [hrun]
  exact ⟨(LineOnly.delOutst ..).trans (.setHline ..), hline_setHline_same ..⟩

/-- The line in IM_D with the data of DATA_M. -/
def withData (x : CLine) (p : Packet) : CLine :=
  { x with data := p.data, poison := p.poison || (x.gotData && x.poison), keyid := p.keyid, sec := p.world, partid := p.partid, gotData := true }

/-- DATA_M for a line in IM_D. -/
theorem holderData_imd (hcmd : p.cmd = .dataM) (htx : p.txid = (hline s p.holder (pLine p)).txid)
    (hst : (hline s p.holder (pLine p)).st = .imd) (hheld : (hline s p.holder (pLine p)).held = []) (hsb : (getCore s p.holder).sb = []) :
    LineOnly p.holder (pLine p) s (holderData s p) ∧ hline (holderData s p) p.holder (pLine p) =
      if (hline s p.holder (pLine p)).gotComp then nowM (withData (hline s p.holder (pLine p)) p) (hline s p.holder (pLine p)).contended
      else withData (hline s p.holder (pLine p)) p := by
  obtain ⟨x, hx⟩ : ∃ x, hline s p.holder (pLine p) = x := ⟨_, rfl⟩
  obtain ⟨v, hv⟩ : ∃ v, setHline s p.holder (pLine p) (withData x p) = v := ⟨_, rfl⟩
  rw [hx] at htx hst hheld ⊢
  have hrun : holderData s p = if x.gotComp then becomeM v p.holder (pLine p) x.contended else v := by
    unfold holderData
    dsimp only
    rw [hx, if_neg (not_not_intro htx), hst]
    dsimp only
    rw [if_pos hcmd, ← hv]
    cases x
    cases hst
    rfl
  have hnow : hline v p.holder (pLine p) = withData x p := by rw [← hv]; exact hline_setHline_same ..
  have hset : LineOnly p.holder (pLine p) s v := by rw [← hv]; exact .setHline ..
  have hm := becomeM_spec (s := v) (h := p.holder) (line := pLine p) (by rw [← hv]; exact hsb) (by rw [hnow]; exact hheld) x.contended
  rw [hrun]
  split
  · exact ⟨hset.trans hm.1, hm.2.trans (by rw [hnow])⟩
  · exact ⟨hset, hnow⟩

/-- COMP for a line in IM_D. -/
theorem holderComp_imd (htx : p.txid = (hline s p.holder (pLine p)).txid) (hst : (hline s p.holder (pLine p)).st = .imd)
    (hheld : (hline s p.holder (pLine p)).held = []) (hsb : (getCore s p.holder).sb = []) :
    LineOnly p.holder (pLine p) s (holderComp s p) ∧ (hline (holderComp s p) p.holder (pLine p)).st =
      (if (hline s p.holder (pLine p)).gotData then .m else .imd) ∧
      (hline (holderComp s p) p.holder (pLine p)).data = (hline s p.holder (pLine p)).data := by
  obtain ⟨x, hx⟩ : ∃ x, hline s p.holder (pLine p) = x := ⟨_, rfl⟩
  obtain ⟨v, hv⟩ : ∃ v, setHline s p.holder (pLine p) { x with gotComp := true, contended := p.contended } = v := ⟨_, rfl⟩
  rw [hx] at htx hst hheld ⊢
  have hrun : holderComp s p = if x.gotData then becomeM v p.holder (pLine p) p.contended else v := by
    unfold holderComp
    dsimp only
    rw [hx, if_neg (not_not_intro htx), hst]
    dsimp only
    rw [← hv]
    cases x
    cases hst
    rfl
  have hnow : hline v p.holder (pLine p) = { x with gotComp := true, contended := p.contended } := by rw [← hv]; exact hline_setHline_same ..
  have hset : LineOnly p.holder (pLine p) s v := by rw [← hv]; exact .setHline ..
  have hm := becomeM_spec (s := v) (h := p.holder) (line := pLine p) (by rw [← hv]; exact hsb) (by rw [hnow]; exact hheld) p.contended
  rw [hrun]
  split
  · exact ⟨hset.trans hm.1, by rw [hm.2]; rfl, by rw [hm.2, hnow]; rfl⟩
  · exact ⟨hset, by rw [hnow]; exact hst, by rw [hnow]⟩

/-- COMP for a line in SM_C. -/
theorem holderComp_smc (htx : p.txid = (hline s p.holder (pLine p)).txid) (hst : (hline s p.holder (pLine p)).st = .smc)
    (hheld : (hline s p.holder (pLine p)).held = []) (hsb : (getCore s p.holder).sb = []) :
    LineOnly p.holder (pLine p) s (holderComp s p) ∧ (hline (holderComp s p) p.holder (pLine p)).st = .m ∧
      (hline (holderComp s p) p.holder (pLine p)).data = (hline s p.holder (pLine p)).data := by
  obtain ⟨x, hx⟩ : ∃ x, hline s p.holder (pLine p) = x := ⟨_, rfl⟩
  obtain ⟨v, hv⟩ : ∃ v, setHline s p.holder (pLine p) { x with sec := p.world, partid := p.partid } = v := ⟨_, rfl⟩
  rw [hx] at htx hst hheld ⊢
  have hrun : holderComp s p = becomeM v p.holder (pLine p) p.contended := by
    unfold holderComp
    dsimp only
    rw [hx, if_neg (not_not_intro htx), hst]
    dsimp only
    rw [← hv]
    cases x
    cases hst
    rfl
  have hnow : hline v p.holder (pLine p) = { x with sec := p.world, partid := p.partid } := by rw [← hv]; exact hline_setHline_same ..
  have hset : LineOnly p.holder (pLine p) s v := by rw [← hv]; exact .setHline ..
  have hm := becomeM_spec (s := v) (h := p.holder) (line := pLine p) (by rw [← hv]; exact hsb) (by rw [hnow]; exact hheld) p.contended
  rw [hrun]
  exact ⟨hset.trans hm.1, by rw [hm.2]; rfl, by rw [hm.2, hnow]; rfl⟩

/-- The answer to a PUT ends XI_A. -/
theorem holderWb_ends (hst : (hline s p.holder (pLine p)).st = .xia) (hid : (hline s p.holder (pLine p)).putId = p.txid) :
    LineOnly p.holder (pLine p) s (holderWb s p) ∧ hline (holderWb s p) p.holder (pLine p) = {} := by
  have hrun : holderWb s p = delOutst (setHline s p.holder (pLine p) {}) (holderStop p.holder) p.txid := if_pos ⟨hst, hid⟩
  rw [hrun]
  exact ⟨(LineOnly.setHline ..).trans (.delOutst ..), (hline_congr (delOutst_lines ..) ..).trans (hline_setHline_same ..)⟩

end

/-! ### O29 -/

/-- A message acts at its core as f does, and what follows leaves its line. -/
theorem message_acts {s u : State} {p : Packet} {i : Instr} {c : Cmd} {h line : Nat} (f : State → Packet → State) (hh : h < 240)
    (hexec : exec i s = ok (afterMsg (deliverMsg s c h line) h))
    (hp : takePacket (fun q => isFor c h line q && !(stopHeld s q.dst) && !(outbound s q)) s = some (p, u)) (ht : Takes s p.dst)
    (hf : p.cmd = c → deliverTo u p = f u p) (hact : LineOnly h line u (f u p)) :
    ∃ t, exec i s = .next t ∧ hline t h line = hline (f u p) h line ∧ LineOnly h line s t := by
  obtain ⟨hcmd, _, _, hu⟩ := message_lands hp
  have hnet : LineOnly h line s u := by rw [hu]; exact .net ..
  obtain ⟨hafter, hlines⟩ := afterMsg_only (f u p) h line
  refine ⟨afterMsg (f u p) h, ?_, hline_congr hlines .., hnet.trans (hact.trans hafter)⟩
  rw [hexec, deliverMsg_core hh hp ht, hf hcmd]
  rfl

/-- Data reaches the holder that asked for it. -/
theorem deliverTo_data {s : State} {p : Packet} (hc : p.cmd = .dataS ∨ p.cmd = .dataF ∨ p.cmd = .dataE ∨ p.cmd = .dataM) (hd : p.dst ≠ raStop) :
    deliverTo s p = holderData s p := by
  rw [deliverTo, if_neg (fun he => hd he.1)]
  rcases hc with hc | hc | hc | hc <;> rw [hc]

/-- Settles O29: each answer is `message_acts` with what it does at the line. -/
theorem answersAtHolders : Obligations.AnswersAtHolders := by
  intro h line p u s hh l x there others ht hdst hsb hheld
  have hd : p.dst ≠ raStop := hdst ▸ holderStop_ne_raStop hh
  have hothers : ∀ t, LineOnly h.toNat l s t → others t := fun t hl => ⟨hl.dram, hl.dir, hl.l3, hl.lines, hl.cores⟩
  have hwhere : ∀ c, there c → p.holder = h.toNat ∧ pLine p = l := fun c hp => by
    obtain ⟨_, hholder, hline, _⟩ := message_lands hp
    exact ⟨hholder, hline⟩
  have hfrom : ∀ c, there c → u = { s with net := s.net.erase p } := fun c hp => by
    obtain ⟨_, _, _, hu⟩ := message_lands hp
    exact hu
  refine ⟨fun r hr hp htx hst hdrop => ?_, fun hp htx hst => ?_, fun hp htx hst => ?_, fun hp htx hst => ?_, fun r hr hp hst hid => ?_⟩
  · have hrow : exec r.1 s = ok (afterMsg (deliverMsg s r.2 h.toNat l) h.toNat) ∧ (r.2 = .dataS ∨ r.2 = .dataF ∨ r.2 = .dataE ∨ r.2 = .dataM) := by
      simp only [List.mem_cons, List.not_mem_nil, or_false] at hr
      rcases hr with rfl | rfl | rfl | rfl <;> exact ⟨rfl, by simp⟩
    obtain ⟨hexec, hc⟩ := hrow
    obtain ⟨hholder, hline⟩ := hwhere _ hp
    obtain rfl := hfrom _ hp
    have hact := holderData_isd (s := { s with net := s.net.erase p }) (p := p) (by rw [hholder, hline]; exact htx)
      (by rw [hholder, hline]; exact hst) (by rw [hholder, hline]; exact hdrop) (by rw [hholder, hline]; exact hheld)
    rw [hholder, hline] at hact
    obtain ⟨hone, hnow⟩ := hact
    obtain ⟨t, hnext, hl, honly⟩ := message_acts holderData hh hexec hp ht (fun hcmd => deliverTo_data (hcmd ▸ hc) hd) hone
    rw [hnow] at hl
    exact ⟨t, hnext, congrArg CLine.st hl, congrArg CLine.data hl, congrArg CLine.poison hl, congrArg CLine.sec hl, hothers t honly⟩
  · obtain ⟨hcmd, _⟩ := message_lands hp
    obtain ⟨hholder, hline⟩ := hwhere _ hp
    obtain rfl := hfrom _ hp
    have hact := holderData_imd (s := { s with net := s.net.erase p }) (p := p) hcmd (by rw [hholder, hline]; exact htx)
      (by rw [hholder, hline]; exact hst) (by rw [hholder, hline]; exact hheld) (by rw [hholder]; exact hsb)
    rw [hholder, hline] at hact
    obtain ⟨hone, hnow⟩ := hact
    obtain ⟨t, hnext, hl, honly⟩ := message_acts (i := .dataM h line) holderData hh rfl hp ht (fun hcmd => deliverTo_data (by simp [hcmd]) hd) hone
    rw [hnow] at hl
    refine ⟨t, hnext, ?_, ?_, ?_, hothers t honly⟩
    · rw [hl]
      split
      next hg => exact (if_pos hg).symm
      next hg => exact hst.trans (if_neg hg).symm
    · rw [hl]; split <;> rfl
    · rw [hl]; split <;> rfl
  · obtain ⟨hholder, hline⟩ := hwhere _ hp
    obtain rfl := hfrom _ hp
    have hact := holderComp_imd (s := { s with net := s.net.erase p }) (p := p) (by rw [hholder, hline]; exact htx)
      (by rw [hholder, hline]; exact hst) (by rw [hholder, hline]; exact hheld) (by rw [hholder]; exact hsb)
    rw [hholder, hline] at hact
    obtain ⟨hone, hnow, hdata⟩ := hact
    obtain ⟨t, hnext, hl, honly⟩ := message_acts (i := .comp h line) holderComp hh rfl hp ht
      (fun hcmd => by rw [deliverTo, if_neg (fun he => hd he.1), hcmd]) hone
    exact ⟨t, hnext, hl ▸ hnow, hl ▸ hdata, hothers t honly⟩
  · obtain ⟨hholder, hline⟩ := hwhere _ hp
    obtain rfl := hfrom _ hp
    have hact := holderComp_smc (s := { s with net := s.net.erase p }) (p := p) (by rw [hholder, hline]; exact htx)
      (by rw [hholder, hline]; exact hst) (by rw [hholder, hline]; exact hheld) (by rw [hholder]; exact hsb)
    rw [hholder, hline] at hact
    obtain ⟨hone, hnow, hdata⟩ := hact
    obtain ⟨t, hnext, hl, honly⟩ := message_acts (i := .comp h line) holderComp hh rfl hp ht
      (fun hcmd => by rw [deliverTo, if_neg (fun he => hd he.1), hcmd]) hone
    exact ⟨t, hnext, hl ▸ hnow, hl ▸ hdata, hothers t honly⟩
  · have hrow : exec r.1 s = ok (afterMsg (deliverMsg s r.2 h.toNat l) h.toNat) ∧ (r.2 = .wbAck ∨ r.2 = .wbStale) := by
      simp only [List.mem_cons, List.not_mem_nil, or_false] at hr
      rcases hr with rfl | rfl <;> exact ⟨rfl, by simp⟩
    obtain ⟨hexec, hc⟩ := hrow
    obtain ⟨hholder, hline⟩ := hwhere _ hp
    obtain rfl := hfrom _ hp
    have hact := holderWb_ends (s := { s with net := s.net.erase p }) (p := p) (by rw [hholder, hline]; exact hst)
      (by rw [hholder, hline]; exact hid)
    rw [hholder, hline] at hact
    obtain ⟨hone, hnow⟩ := hact
    obtain ⟨t, hnext, hl, honly⟩ := message_acts holderWb hh hexec hp ht (fun hcmd => by
      rw [deliverTo, if_neg (fun he => hd he.1), hcmd]
      rcases hc with hc | hc <;> rw [hc]) hone
    exact ⟨t, hnext, hl.trans hnow, hothers t honly⟩

end Sys2Proof.Machine
end


section
/-! PROOFS. Requester timeouts, logs, fuses, service requests and life counts (R256, R576 to R592). -/
namespace Sys2Proof.Machine

open Sys2Proof

/-! ### Timeouts (R576) -/

section
variable {s : State} {src : StopId} {tx : Nat} {o : Outst}

/-- A request whose time has come ends, and its TXID is kept aside from now on. -/
theorem requesterTimeout_due (hf : s.outst.find? (fun o => o.stop == src && o.txid == tx) = some o) (hdue : o.since + rqto s ≤ now s)
    (hsent : unsent s src tx = false) : { o with since := now s } ∈ (requesterTimeout s src tx).quarantine := by
  obtain ⟨u, hu⟩ : ∃ u, errRspArrive
      { logErr s (evLog src.die) 0x1C src.stop 0 o.addr with
        net := (logErr s (evLog src.die) 0x1C src.stop 0 o.addr).net ++
          [{ cmd := .errRsp, src := src, dst := src, txid := tx, addr := o.addr, holder := holderAt src }] } src tx = u := ⟨_, rfl⟩
  have hcalm : Calm s u := by
    rw [← hu]
    exact errRspArrive_canonical (logErr_canonical ⟨id, rfl⟩)
  have hnow : now u = now s := congrArg BitVec.toNat hcalm.2
  have hrun : requesterTimeout s src tx = { u with quarantine := { o with since := now u } :: u.quarantine } := by
    rw [requesterTimeout, hf]
    dsimp only
    rw [if_neg (by rw [hsent]; simp; omega), hu]
  rw [hrun, hnow]
  exact List.mem_cons_self

theorem requesterTimeout_early (h : ∀ o, s.outst.find? (fun o => o.stop == src && o.txid == tx) = some o →
    now s < o.since + rqto s ∨ unsent s src tx = true) : requesterTimeout s src tx = s := by
  unfold requesterTimeout
  split
  next => rfl
  next o ho => exact if_pos (h o ho)

end

/-! ### Logs (R579, R580) -/

/-- One entry of a log is cleared. -/
def clearEntry (ra rb rt : RegName) (base : Nat) (s : State) (n : Nat) : State :=
  setRg (setRg (setRg s ra (base + n) 0) rb (base + n) 0) rt (base + n) 0

section
variable {ra rb rt : RegName} {base : Nat}

/-- A register that is 0 stays so while registers are cleared. -/
theorem rg_setRg_zero {s : State} {r r' : RegName} {i i' : Nat} (hi : i < 2 ^ 32) (hi' : i' < 2 ^ 32) (h : rg s r i = 0) :
    rg (setRg s r' i' 0) r i = 0 := by
  by_cases hk : (r, i) = (r', i')
  · cases hk
    exact rg_setRg_same ..
  · rw [rg_setRg_other hi' hi hk, h]

theorem clearEntry_zero {s : State} {r : RegName} {i n : Nat} (hi : i < 2 ^ 32) (hn : base + n < 2 ^ 32) (h : rg s r i = 0) :
    rg (clearEntry ra rb rt base s n) r i = 0 := rg_setRg_zero hi hn (rg_setRg_zero hi hn (rg_setRg_zero hi hn h))

theorem clearEntry_clears (s : State) {n : Nat} (hn : base + n < 2 ^ 32) : rg (clearEntry ra rb rt base s n) ra (base + n) = 0 ∧
    rg (clearEntry ra rb rt base s n) rb (base + n) = 0 ∧ rg (clearEntry ra rb rt base s n) rt (base + n) = 0 :=
  ⟨rg_setRg_zero hn hn (rg_setRg_zero hn hn (rg_setRg_same ..)), rg_setRg_zero hn hn (rg_setRg_same ..), rg_setRg_same ..⟩

/-- Every entry listed is cleared. -/
theorem clearEntries_clear (l : List Nat) (hl : ∀ n ∈ l, base + n < 2 ^ 32) (s : State) : ∀ n ∈ l,
    rg (l.foldl (clearEntry ra rb rt base) s) ra (base + n) = 0 ∧ rg (l.foldl (clearEntry ra rb rt base) s) rb (base + n) = 0 ∧
      rg (l.foldl (clearEntry ra rb rt base) s) rt (base + n) = 0 :=
  foldl_each (P := fun n t => rg t ra (base + n) = 0 ∧ rg t rb (base + n) = 0 ∧ rg t rt (base + n) = 0) s
    (fun s n hn => clearEntry_clears s (hl n hn))
    (fun s n m hn hm h => by
      obtain ⟨h1, h2, h3⟩ := h
      exact ⟨clearEntry_zero (hl m hm) (hl n hn) h1, clearEntry_zero (hl m hm) (hl n hn) h2, clearEntry_zero (hl m hm) (hl n hn) h3⟩)

/-- The registers of other names stay. -/
theorem clearEntries_names (l : List Nat) (hl : ∀ n ∈ l, base + n < 2 ^ 32) (s : State) :
    NamesOnly [ra, rb, rt] s (l.foldl (clearEntry ra rb rt base) s) := by
  induction l generalizing s with
  | nil => exact .refl ..
  | cons n l ih =>
    have hn := hl n List.mem_cons_self
    exact NamesOnly.trans (((NamesOnly.setRg hn (by simp) _ _).trans (.setRg hn (by simp) _ _)).trans (.setRg hn (by simp) _ _))
      (ih (fun m hm => hl m (List.mem_cons_of_mem _ hm)) _)

end

/-- The registers of a log are apart from its status. -/
theorem logRegs_apart (d : Fin 13) (ev : Bool) : (logRegs (logAt d ev)).1 ∉
    [(logRegs (logAt d ev)).2.1, (logRegs (logAt d ev)).2.2.1, (logRegs (logAt d ev)).2.2.2.1] ∧
    (logRegs (logAt d ev)).2.2.2.2.1 < 2 ^ 16 ∧ (logRegs (logAt d ev)).2.2.2.2.2.1 < 2 ^ 16 ∧ (logRegs (logAt d ev)).2.2.2.2.2.2 < 2 ^ 16 := by
  revert d ev
  decide

/-- What clearing a log does: its entries, OVERFLOW and NEXT are 0, TOTAL stays, and nothing but set-up registers changes. -/
theorem clearLog_spec (d : Fin 13) (ev : Bool) (s : State) {r : RegName × RegName × RegName × RegName × Nat × Nat × Nat}
    (hr : logRegs (logAt d ev) = r) : rgF (clearLog s (logAt d ev)) r.1 r.2.2.2.2.1 31 16 = 0 ∧ rgF (clearLog s (logAt d ev)) r.1 r.2.2.2.2.1 4 0 = 0 ∧
      rgF (clearLog s (logAt d ev)) r.1 r.2.2.2.2.1 63 32 = rgF s r.1 r.2.2.2.2.1 63 32 ∧
      (∀ n, n < r.2.2.2.2.2.2 → rg (clearLog s (logAt d ev)) r.2.1 (r.2.2.2.2.2.1 + n) = 0 ∧
        rg (clearLog s (logAt d ev)) r.2.2.1 (r.2.2.2.2.2.1 + n) = 0 ∧ rg (clearLog s (logAt d ev)) r.2.2.2.1 (r.2.2.2.2.2.1 + n) = 0) ∧
      { clearLog s (logAt d ev) with regs := s.regs } = s := by
  have happ := logRegs_apart d ev
  rw [hr] at happ
  obtain ⟨st, ra, rb, rt, si, base, size⟩ := r
  obtain ⟨hst, hsi, hbase, hsize⟩ := happ
  dsimp only at hst hsi hbase hsize ⊢
  obtain ⟨u, hu⟩ : ∃ u, (List.range size).foldl (clearEntry ra rb rt base) s = u := ⟨_, rfl⟩
  have hrun : clearLog s (logAt d ev) = setRgF (setRgF u st si 31 16 0) st si 4 0 0 := by
    rw [clearLog, hr, ← hu]
    rfl
  have hsmall : ∀ n ∈ List.range size, base + n < 2 ^ 32 := fun n hn => by have := List.mem_range.mp hn; omega
  have hnames : NamesOnly [ra, rb, rt] s u := by
    rw [← hu]
    exact clearEntries_names _ hsmall s
  have hkept : ∀ i, i < 2 ^ 32 → ∀ r, r ∈ [ra, rb, rt] → rg (setRgF (setRgF u st si 31 16 0) st si 4 0 0) r i = rg u r i := fun i hi r hm => by
    have hne : r ≠ st := fun he => hst (he ▸ hm)
    have h1 : (r, i) ≠ (st, si) := fun he => hne (Prod.mk.inj he).1
    rw [setRgF, rg_setRg_other (by omega) hi h1, setRgF, rg_setRg_other (by omega) hi h1]
  rw [hrun]
  refine ⟨?_, rgF_setRgF_inside 0 (by decide) (by decide) (by decide), ?_, fun n hn => ?_, ?_⟩
  · rw [rgF_setRgF_field _ _ _ _ _ _ _ _ (by decide) (by decide) (by decide)]
    exact rgF_setRgF_inside 0 (by decide) (by decide) (by decide)
  · rw [rgF_setRgF_field _ _ _ _ _ _ _ _ (by decide) (by decide) (by decide),
      rgF_setRgF_field _ _ _ _ _ _ _ _ (by decide) (by decide) (by decide)]
    exact hnames.rgF (by omega) hst ..
  · obtain ⟨h1, h2, h3⟩ := clearEntries_clear (ra := ra) (rb := rb) (rt := rt) (List.range size) hsmall s n (List.mem_range.mpr hn)
    rw [hu] at h1 h2 h3
    exact ⟨(hkept _ (by omega) _ (by simp)).trans h1, (hkept _ (by omega) _ (by simp)).trans h2, (hkept _ (by omega) _ (by simp)).trans h3⟩
  · rw [← hnames.rest]
    rfl

/-! ### Fuses (R256, R585) -/

theorem wayFuseSet_retired {kind h slice way : Nat} {s : State}
    (hd : (rgF s (disReg kind h slice).1 (disReg kind h slice).2 15 0).testBit way = true) :
    wayFuseSet s kind h slice way = { s with wayFuse := tset false (fuseKey kind h slice way) true s.wayFuse } := if_pos hd

theorem wayFuseSet_used {kind h slice way : Nat} {s : State}
    (hd : (rgF s (disReg kind h slice).1 (disReg kind h slice).2 15 0).testBit way = false) : wayFuseSet s kind h slice way = s :=
  if_neg (Bool.eq_false_iff.mp hd)

/-- A core retired has its fuse programmed and its bit in RETSTAT. -/
theorem retireCore_spec {s : State} {c : Nat} (hc : c < 240) (hf : tget false c s.coreFuse = false) :
    tget false c (retireCore s c).coreFuse = true ∧ rgF (retireCore s c) .retstat (c / 20) (20 + c % 20) (20 + c % 20) = 1 ∧
      (retireCore s c).cores = s.cores := by
  obtain ⟨u, hu⟩ : ∃ u, setRgF { s with coreFuse := tset false c true s.coreFuse } .retstat (c / 20) (20 + c % 20) (20 + c % 20) 1 = u := ⟨_, rfl⟩
  have hrun : retireCore s c = logErr u (.ev (c / 20)) 0x21 (c % 20) 0 0 := by rw [retireCore, hf, ← hu]; rfl
  have hlog := logEv_names (show c / 20 < 12 by omega) u 0x21 (c % 20) 0 0
  have hmod : c % 20 < 20 := Nat.mod_lt _ (by decide)
  rw [hrun]
  refine ⟨?_, ?_, ?_⟩
  · have hfuse := congrArg State.coreFuse hlog.rest
    dsimp only at hfuse
    rw [hfuse, ← hu]
    show tget false c (tset false c true s.coreFuse) = true
    exact tget_tset_same _
  · rw [hlog.rgF (by omega) (by decide), ← hu, rgF_setRgF_same _ _ _ _ _ _ (by omega) (by omega), Nat.add_sub_cancel_left]
    rfl
  · rw [hlog.cores, ← hu]
    rfl

/-! ### Service requests and life counts (R587, R592) -/

theorem svcCause_lt (s : State) : svcCause s < 256 := by
  have hbit : ∀ (p : Prop) [Decidable p] (n : Nat), (if p then n else 0) ≤ n := fun p _ n => by split <;> omega
  unfold svcCause
  exact Nat.lt_of_le_of_lt (Nat.add_le_add (Nat.add_le_add (Nat.add_le_add (Nat.add_le_add (Nat.add_le_add (Nat.add_le_add
    (Nat.add_le_add (hbit ..) (hbit ..)) (hbit ..)) (hbit ..)) (hbit ..)) (hbit ..)) (hbit ..)) (hbit ..)) (by decide)

/-- What an update of the service conditions shows when they have changed. -/
theorem svcUpdate_changed {s u : State} (hu : followLinks s = u) (hn : svcCause u ≠ rgF s .svcreq 0 7 0) :
    rgF (svcUpdate s) .svcreq 0 7 0 = svcCause u ∧ rgF (svcUpdate s) .svcreq 0 15 8 = (rgF s .svcreq 0 15 8 ||| svcCause u) ∧
      bit (rg (svcUpdate s) .intsrc 917) 1 = true ∧ (svcUpdate s).mpPend.testBit 917 = true ∧
      RegsOnly [(.svcreq, 0), (.intsrc, 917)] { u with hlog := (svcUpdate s).hlog, mpPend := (svcUpdate s).mpPend } (svcUpdate s) := by
  have hreg : ∀ hi lo, rgF u .svcreq 0 hi lo = rgF s .svcreq 0 hi lo := fun hi lo => by rw [← hu]; rfl
  obtain ⟨n, hcause⟩ : ∃ n, svcCause u = n := ⟨_, rfl⟩
  have hlt : n < 2 ^ 8 := hcause ▸ svcCause_lt u
  obtain ⟨v, hv⟩ : ∃ v, setRgF (setRgF u .svcreq 0 15 8 (rgF u .svcreq 0 15 8 ||| n)) .svcreq 0 7 0 n = v := ⟨_, rfl⟩
  obtain ⟨w, hw⟩ : ∃ w, raiseSrc v 917 = w := ⟨_, rfl⟩
  obtain ⟨t, ht⟩ : ∃ t, hlDevice w 0x0030 0 (rgF s .svcreq 0 7 0 * 256 + n) 0 = t := ⟨_, rfl⟩
  have hrun : svcUpdate s = t := by
    rw [svcUpdate, hu]
    dsimp only
    rw [hreg, hcause, if_neg (hcause ▸ hn), hv, hw, ht]
  have hrest : { t with hlog := w.hlog } = w := ht ▸ hlDevice_only ..
  have hregs := congrArg State.regs hrest
  have hpend := congrArg State.mpPend hrest
  dsimp only at hregs hpend
  have hsame : ∀ r i, rg t r i = rg w r i := fun r i => congrArg (tget (regResetAt r i) (regKey r i)) hregs
  have hset : ∀ hi lo, rgF t .svcreq 0 hi lo = rgF v .svcreq 0 hi lo := fun hi lo =>
    (congrArg (fld · hi lo) (hsame .svcreq 0)).trans (hw ▸ rgF_raiseSrc (by decide) (by decide) (by decide) hi lo)
  have hseen : rgF s .svcreq 0 15 8 ||| n < 2 ^ 8 := Nat.or_lt_two_pow (fld_lt ..) hlt
  have honly : RegsOnly [(.svcreq, 0), (.intsrc, 917)] u v := hv ▸
    (RegsOnly.setRgF (by decide) (by simp) _ _ _ _).trans (.setRgF (by decide) (by simp) _ _ _ _)
  rw [hrun, hcause, hset, hset, hsame, hpend, ← hv]
  refine ⟨?_, ?_, hw ▸ bit_raiseSrc (by decide), ?_, ?_⟩
  · rw [rgF_setRgF_same _ _ _ _ _ _ (by decide) (by decide)]
    exact Nat.mod_eq_of_lt hlt
  · rw [rgF_setRgF_field _ _ _ _ _ _ _ _ (by decide) (by decide) (by decide), rgF_setRgF_same _ _ _ _ _ _ (by decide) (by decide), hreg]
    exact Nat.mod_eq_of_lt hseen
  · rw [← hw]
    show (v.mpPend ||| 2 ^ 917).testBit 917 = true
    rw [Nat.testBit_or, Nat.testBit_two_pow_self, Bool.or_true]
  · have hraise := raiseSrc_regsOnly honly (n := 917) (by decide) (by simp)
    rw [hw] at hraise
    obtain ⟨hrest', hregs'⟩ := hraise
    refine ⟨?_, fun r i hi hm => (hsame r i).trans (hregs' r i hi hm)⟩
    calc { t with regs := u.regs }
        = { ({ t with hlog := w.hlog } : State) with hlog := t.hlog, regs := u.regs } := rfl
      _ = { ({ w with regs := u.regs } : State) with hlog := t.hlog } := by rw [hrest]
      _ = { u with hlog := t.hlog, mpPend := w.mpPend } := by rw [hrest']

theorem svcUpdate_unchanged {s : State} (h : svcCause (followLinks s) = rgF s .svcreq 0 7 0) : svcUpdate s = followLinks s := if_pos h

/-- A further powered hour is counted. -/
theorem lifeUpdate_counts {s : State} (hot : Bool) {tj v : Nat} (htj : tj < 2 ^ 16) (hv : v < 2 ^ 16) (hdue : s.lifeAt + 3600000000000 ≤ pourTime s)
    (hrun : rgF s .pkgstat 0 10 8 ≤ 1) : rgF (lifeUpdate s hot tj v) .life0 0 63 32 = min (rgF s .life0 0 63 32 + 1) (2 ^ 32 - 1) ∧
      rgF (lifeUpdate s hot tj v) .life0 0 31 0 = (if hot then min (rgF s .life0 0 31 0 + 1) (2 ^ 32 - 1) else rgF s .life0 0 31 0) ∧
      rgF (lifeUpdate s hot tj v) .life1 0 63 48 = tj ∧ rgF (lifeUpdate s hot tj v) .life1 0 47 32 = v ∧
      (lifeUpdate s hot tj v).lifeAt = pourTime s := by
  obtain ⟨u, hu⟩ : ∃ u, incRgF { s with lifeAt := pourTime s } .life0 0 63 32 = u := ⟨_, rfl⟩
  obtain ⟨w, hw⟩ : ∃ w, (if hot then incRgF u .life0 0 31 0 else u) = w := ⟨_, rfl⟩
  have hst : lifeUpdate s hot tj v = setRgF (setRgF w .life1 0 63 48 tj) .life1 0 47 32 v := by
    rw [lifeUpdate, if_neg (by omega), hu]
    dsimp only
    rw [hw]
  have hlow : rgF u .life0 0 31 0 = rgF s .life0 0 31 0 := by
    rw [← hu]
    exact rgF_setRgF_field _ _ _ _ _ _ _ _ (by decide) (by decide) (by decide)
  have hhours : rgF w .life0 0 63 32 = min (rgF s .life0 0 63 32 + 1) (2 ^ 32 - 1) := by
    have hinc : rgF u .life0 0 63 32 = min (rgF s .life0 0 63 32 + 1) (2 ^ 32 - 1) := hu ▸ rgF_incRgF_same (by decide) (by decide)
    rw [← hw, ← hinc]
    cases hot with
    | false => rfl
    | true => exact rgF_setRgF_field _ _ _ _ _ _ _ _ (by decide) (by decide) (by decide)
  have hhot : rgF w .life0 0 31 0 = (if hot then min (rgF s .life0 0 31 0 + 1) (2 ^ 32 - 1) else rgF s .life0 0 31 0) := by
    rw [← hw, ← hlow]
    cases hot with
    | false => rfl
    | true => exact rgF_incRgF_same (by decide) (by decide)
  have hname : ∀ hi lo, rgF (setRgF (setRgF w .life1 0 63 48 tj) .life1 0 47 32 v) .life0 0 hi lo = rgF w .life0 0 hi lo := fun hi lo =>
    (rgF_setRgF_name (by decide) (by decide) (by decide)).trans (rgF_setRgF_name (by decide) (by decide) (by decide))
  rw [hst]
  refine ⟨(hname ..).trans hhours, (hname ..).trans hhot, ?_, ?_, ?_⟩
  · rw [rgF_setRgF_field _ _ _ _ _ _ _ _ (by decide) (by decide) (by decide), rgF_setRgF_same _ _ _ _ _ _ (by decide) (by decide)]
    exact Nat.mod_eq_of_lt htj
  · rw [rgF_setRgF_same _ _ _ _ _ _ (by decide) (by decide)]
    exact Nat.mod_eq_of_lt hv
  · show w.lifeAt = _
    rw [← hw, ← hu]
    cases hot <;> rfl

theorem lifeUpdate_early {s : State} {hot : Bool} {tj v : Nat} (h : pourTime s < s.lifeAt + 3600000000000 ∨ 1 < rgF s .pkgstat 0 10 8) :
    lifeUpdate s hot tj v = s := if_pos h

/-- Settles O52: what each event of chapter 18 does, by the lemmas above. -/
theorem errorsAndRetirement : Obligations.ErrorsAndRetirement := by
  unfold Obligations.ErrorsAndRetirement
  refine ⟨fun src tx s => ⟨fun o ho => ⟨fun hearly => ⟨_, rfl, ?_⟩, fun hun => ⟨_, rfl, ?_⟩, fun hdue hsent => ⟨_, rfl, ?_⟩⟩,
    fun hnone => ⟨_, rfl, ?_⟩, _, rfl, rfl, fun o => ?_⟩, fun b d ev s hb => ⟨_, rfl, ?_⟩, fun kind h slice way s => ?_, fun c s hc => ?_,
    fun s => ⟨fun hn => ⟨_, rfl, svcUpdate_changed rfl hn⟩, fun he => ⟨_, rfl, svcUpdate_unchanged he⟩⟩,
    fun hot tj v s => ⟨fun hdue hrun => ⟨_, rfl, lifeUpdate_counts hot tj.isLt v.isLt hdue hrun⟩, fun h => ⟨_, rfl, lifeUpdate_early h⟩⟩⟩
  · exact requesterTimeout_early fun o' ho' => .inl (Option.some.inj (ho'.symm.trans ho) ▸ hearly)
  · exact requesterTimeout_early fun _ _ => .inr hun
  · exact requesterTimeout_due ho hdue hsent
  · exact requesterTimeout_early fun o' ho' => absurd (ho'.symm.trans hnone) (by simp)
  · simp [txidRelease, List.mem_filter, imp_iff_not_or, or_assoc]
  · rw [logclrWrite, ownWrite_allowed (by rcases hb with h | h | h <;> simp [h])]
    exact clearLog_spec d ev s rfl
  · have hcase : ∀ (k i n w : Nat), ((rgF s (disReg k i n).1 (disReg k i n).2 15 0).testBit w = true → ∃ t, ok (wayFuseSet s k i n w) = .next t ∧
          tget false (fuseKey k i n w) t.wayFuse = true ∧ { t with wayFuse := s.wayFuse } = s) ∧
        ((rgF s (disReg k i n).1 (disReg k i n).2 15 0).testBit w = false → ∃ t, ok (wayFuseSet s k i n w) = .next t ∧ t = s) := fun k i n w =>
      ⟨fun hd => ⟨_, congrArg ok (wayFuseSet_retired hd), by rw [tget_tset_same], rfl⟩, fun hd => ⟨_, rfl, wayFuseSet_used hd⟩⟩
    dsimp only [exec, execWayRetirementFuse]
    split
    · exact hcase 2 0 0 way
    · exact hcase kind h slice way
  · refine ⟨fun hbit hf => ⟨_, congrArg ok (if_pos ⟨hc, hbit⟩), retireCore_spec hc hf⟩, fun h => ⟨_, rfl, ?_⟩⟩
    split
    next hbit => exact if_pos (h.resolve_left (by rw [hbit.2]; decide))
    next => rfl

end Sys2Proof.Machine
end


section
/-! PROOFS. What answers do at the agent that waits (R221, R227, R239, R240, R294, R574). -/
namespace Sys2Proof.Machine

open Sys2Proof

/-! ### A core that gets its answer -/

/-- What core c waits for is there. -/
def answeredAt (s : State) (c : Nat) : State := setCore s c { getCore s c with acc := none }

/-- From s to t the oldest instruction of core c, which waited, got z for its register r, and retired. -/
structure Obtained (c r : Nat) (z : Word) (s t : State) : Prop where
  acc : (getCore t c).acc = none
  pc : (getCore t c).pc = (getCore s c).pc + 4
  d : ∀ r', dGet t c r' = dUpd (dGet s c) r z r'
  a : ∀ r', aGet t c r' = aGet s c r'
  cstat : (getCore t c).cstat = (getCore s c).cstat
  dram : t.dram = s.dram
  lines : t.lines = s.lines

section
variable {c r : Nat} {z : Word} {s u v w x t : State} {D A : Nat → Word} {Q : Nat → QWord}

theorem core_answeredAt (s : State) (c : Nat) : getCore (answeredAt s c) c = { getCore s c with acc := none } := core_setCore_same ..

/-- An instruction that retires after its writes waits for nothing more than before. -/
theorem RegsAt.acc_complete (h : RegsAt c v x D A Q) (hss : bit (getCore v c).cstat 7 = false) (hst : (getCore v c).stepping = false) (pc : Word) :
    (getCore (complete x c pc) c).acc = (getCore v c).acc := by
  obtain ⟨_, _, _, _, _, _, hc⟩ := h.core
  obtain ⟨_, _, hcomplete⟩ := complete_core (s := x) (c := c) pc (by rw [hc]; exact hss) (by rw [hc]; exact hst)
  rw [hcomplete, hc]

/-- The answer comes in: the register it is for is written, and the instruction retires. -/
theorem Obtained.of_counted (hw : Counted c (answeredAt s c) w) (hc : c ≠ 240) (hss : bit (getCore s c).cstat 7 = false)
    (hst : (getCore s c).stepping = false) (r : Nat) (z : Word) : Obtained c r z s (complete (dSet w c r z) c ((getCore s c).pc + 4)) := by
  have hk := core_answeredAt s c
  have hss' : bit (getCore (answeredAt s c) c).cstat 7 = false := by rw [hk]; exact hss
  have hst' : (getCore (answeredAt s c) c).stepping = false := by rw [hk]; exact hst
  have hregs := (RegsAt.of_counted hw).dSet r z
  have hret := hregs.retired hss' hst' ((getCore s c).pc + 4)
  have hd : dGet (answeredAt s c) c = dGet s c := funext (dGet_congr (by rw [hk]))
  have ha : aGet (answeredAt s c) c = aGet s c := funext (aGet_congr (by rw [hk]) (by rw [hk]) (by rw [hk]) (by rw [hk]))
  rw [hd, ha, trunc_of_ne hc, trunc_of_ne hc] at hret
  exact {
    acc := (hregs.acc_complete hss' hst' _).trans (by rw [hk])
    pc := hret.pc
    d := hret.d
    a := hret.a
    cstat := hret.cstat.trans (by rw [hk])
    dram := hret.rest.dram
    lines := hret.rest.lines }

/-- The packet that brought the answer, and its transaction, are no part of what the core shows. -/
theorem Obtained.of_taken {f : Packet → Bool} {p : Packet} {st : StopId} {tx : Nat} (htake : takePacket f s = some (p, u))
    (h : Obtained c r z (delOutst u st tx) t) : Obtained c r z s t := by
  obtain ⟨rfl, _⟩ := takeAny_eq htake
  exact ⟨h.acc, h.pc, h.d, h.a, h.cstat, h.dram, h.lines⟩

theorem core_taken {f : Packet → Bool} {p : Packet} (htake : takePacket f s = some (p, u)) (st : StopId) (tx : Nat) :
    getCore (delOutst u st tx) c = getCore s c := by
  obtain ⟨rfl, _⟩ := takeAny_eq htake
  rfl

end

/-! ### FAR_RSP and RD_RSP (R240, R294) -/

/-- A far atomic's answer that is data, where the predictor is not trained (R294). -/
theorem finishFar_done {v : State} {c va pa rd : Nat} {p : Packet} (hcmd : p.cmd = .farRsp) (hp : p.poison = false) :
    ∃ w, Counted c v w ∧ finishFar v c va pa rd 0 .farAtomic p = (.done (nextPc w c), dSet w c rd (BitVec.ofNat 64 p.data.toNat)) := by
  obtain ⟨u, hu⟩ : ∃ u, countEvent v c 0x00D = u := ⟨_, rfl⟩
  obtain ⟨w, hw⟩ : ∃ w, (if p.contended then countEvent u c 0x00E else u) = w := ⟨_, rfl⟩
  have h1 : Counted c v u := hu ▸ countEvent_counted ..
  have h2 : Counted c u w := by
    rw [← hw]
    split
    · exact countEvent_counted ..
    · exact .refl ..
  refine ⟨w, h1.trans h2, ?_⟩
  rw [finishFar, hu]
  dsimp only
  rw [hw, if_neg (by simp [hcmd, hp]), if_pos rfl, if_neg (by decide)]

/-- FAR_RSP at the core whose atomic waits for it. -/
theorem farRspArrive_obtained {s u : State} {c line : Nat} {a : PendAcc} {p : Packet} (hc : c ≠ 240)
    (htake : takePacket (fun q => q.cmd == .farRsp && q.dst == coreStop c && q.txid == a.txid && pLine q == line) s = some (p, u))
    (hcmd : p.cmd = .farRsp) (hp : p.poison = false) (hacc : (getCore s c).acc = some a) (hpred : a.pred = 0) (hkind : a.kind = .farAtomic)
    (hss : bit (getCore s c).cstat 7 = false) (hst : (getCore s c).stepping = false) :
    Obtained c a.rt (BitVec.ofNat 64 p.data.toNat) s (farRspArrive s c line) := by
  apply Obtained.of_taken htake
  obtain ⟨v, hv⟩ : ∃ v, delOutst u (coreStop c) p.txid = v := ⟨_, rfl⟩
  have hk : getCore v c = getCore s c := hv ▸ core_taken htake ..
  obtain ⟨w, hw, hfin⟩ := finishFar_done (v := answeredAt v c) (c := c) (va := a.va) (pa := a.pa) (rd := a.rt) hcmd hp
  have hpc : nextPc w c = (getCore v c).pc + 4 := by rw [(RegsAt.of_counted hw).nextPc_eq, nextPc, core_answeredAt]
  have hrun : farRspArrive s c line = complete (dSet w c a.rt (BitVec.ofNat 64 p.data.toNat)) c ((getCore v c).pc + 4) := by
    rw [farRspArrive, hacc]
    dsimp only
    rw [htake]
    dsimp only
    rw [hv, hpred, hkind]
    change (fun r : Res × State => endBody r.2 c r.1) (finishFar (answeredAt v c) c a.va a.pa a.rt 0 .farAtomic p) = _
    rw [hfin, ← hpc]
    rfl
  rw [hrun]
  subst hv
  exact .of_counted hw hc (by rw [hk]; exact hss) (by rw [hk]; exact hst) ..

theorem coreAt_coreStop {c : Nat} (h : c < 240) : coreAt (coreStop c) = some c := by
  have hle : c ≤ mpCore := Nat.le_of_lt h
  simp [coreAt, coreOfStop_coreStop h, hle]

theorem coreStop_ne_mp {c : Nat} (h : c < 240) : coreStop c ≠ coreStop mpCore := by
  rw [coreStop_of_lt h]
  intro he
  have hdie : c / 20 = 12 := congrArg StopId.die he
  omega

/-- The half access of the management processor is no core's. -/
theorem isWin_core {s : State} {c : Nat} (h : c < 240) (tx : Nat) : isWin s (coreStop c) tx = none := by
  unfold isWin
  split
  · exact if_neg fun he => coreStop_ne_mp h he.1
  · rfl

/-- The data of a DEV load for a D register, without writeback (R240). -/
theorem devDone_obtained {s : State} {c : Nat} {a : PendAcc} {p : Packet} (hc : c ≠ 240) (hp : p.poison = false) (hmem : a.mem = false)
    (hhalf : a.half = false) (hkind : a.kind = .devLoad) (hcls : a.cls = .d) (hbase : a.base = none)
    (hss : bit (getCore s c).cstat 7 = false) (hst : (getCore s c).stepping = false) :
    Obtained c a.rt (BitVec.ofNat 64 (p.data.toNat % 2 ^ (8 * a.size))) s (devDone s c a p) := by
  have hpc : nextPc (answeredAt s c) c = (getCore s c).pc + 4 := by rw [nextPc, core_answeredAt]
  have hrun : devDone s c a p = complete (dSet (answeredAt s c) c a.rt (BitVec.ofNat 64 (p.data.toNat % 2 ^ (8 * a.size)))) c
      ((getCore s c).pc + 4) := by
    rw [devDone, hp, hmem, hkind, hhalf, hcls, hbase, ← hpc]
    rfl
  rw [hrun]
  exact .of_counted (.refl ..) hc hss hst ..

section
variable {s u : State} {c tx : Nat} {a : PendAcc} {p : Packet}

/-- RD_RSP at the core whose load waits for it. -/
theorem rdRspArrive_devDone (hc : c < 240) (htake : takePacket (fun q => q.cmd == .rdRsp && q.dst == coreStop c && q.txid == tx) s = some (p, u))
    (hacc : (getCore s c).acc = some a) (htx : a.txid = tx) (hreset : (getCore s c).inReset = false) (hlate : timedOut s (coreStop c) tx = false)
    (hhub : isHub s (coreStop c) tx = false) : rdRspArrive s (coreStop c) tx = devDone (delOutst u (coreStop c) tx) c a p := by
  obtain ⟨v, hv⟩ : ∃ v, delOutst u (coreStop c) tx = v := ⟨_, rfl⟩
  have hk : getCore v c = getCore s c := hv ▸ core_taken htake ..
  have hsame : isHub v (coreStop c) tx = false ∧ timedOut u (coreStop c) tx = false := by
    obtain ⟨rfl, _⟩ := takeAny_eq htake
    subst hv
    exact ⟨hhub, hlate⟩
  obtain ⟨hhub', hlate'⟩ := hsame
  rw [rdRspArrive, htake]
  dsimp only
  rw [hv, hhub', hlate', coreAt_coreStop hc, isWin_core hc]
  simp only [Bool.false_eq_true, if_false, hk, hreset, Bool.or_false, hacc, htx, if_true]

end

/-! ### ERR_RSP (R240, R574) -/

/-- What a bus error records is the core's own. -/
theorem busError_core (s : State) (c va pa : Nat) (wnr poison : Bool) : ∃ sys left,
    getCore (busError s c va pa wnr poison).2 c = { getCore s c with sys := sys, stepLeft := left } := by
  obtain ⟨sys, h1⟩ := coreErr_core s c 1 pa
  unfold busError
  dsimp only
  split
  · obtain ⟨sys', h2⟩ := coreErr_core (coreErr s c 1 pa) c 2 pa
    have hcount := (countEvent_counted (coreErr (coreErr s c 1 pa) c 2 pa) c 0x01A).same
    rw [h2, h1] at hcount
    obtain ⟨k, hk⟩ : ∃ k, getCore (countEvent (coreErr (coreErr s c 1 pa) c 2 pa) c 0x01A) c = k := ⟨_, rfl⟩
    rw [hk] at hcount ⊢
    exact ⟨k.sys, k.stepLeft, congrArg (fun x : Core => { x with sys := k.sys, stepLeft := k.stepLeft }) hcount⟩
  · exact ⟨sys, (getCore s c).stepLeft, h1⟩

/-- An exception leaves a core's barrier, its waiting and its access as they are. -/
theorem raise_kept {s : State} {c : Nat} {e : Exc} (hst : (getCore s c).stepping = false) : (getCore (raise s c e) c).bar = (getCore s c).bar ∧
    (getCore (raise s c e) c).waiting = (getCore s c).waiting ∧ (getCore (raise s c e) c).acc = (getCore s c).acc := by
  have hraise : raise s c e = takeExc (setCore s c { getCore s c with devGot := [] }) c e := by
    unfold raise stepHalt takeExc
    simp [takeExcAt_stepping, hst]
  obtain ⟨u, hu⟩ : ∃ u, setCore s c { getCore s c with devGot := [] } = u := ⟨_, rfl⟩
  have hk : getCore u c = { getCore s c with devGot := [] } := hu ▸ core_setCore_same ..
  have hsame := (countEvent_counted u c 0x012).same
  rw [hk] at hsame
  have h1 := congrArg Core.bar hsame
  have h2 := congrArg Core.waiting hsame
  have h3 := congrArg Core.acc hsame
  dsimp only at h1 h2 h3
  rw [hraise, hu, ← h1, ← h2, ← h3, takeExc]
  unfold takeExcAt
  dsimp only
  split <;> split <;> split <;> simp only [dropPredictors, dropResv, core_setCore_same, sysSet_core, and_self]

/-- ERR_RSP for the DEV load a core waits for raises BUS_ERROR with the load's address (R240). -/
theorem errAtCore_entered {s : State} {c tx : Nat} {a : PendAcc} {p : Packet} (hc : c ≠ 240) (hacc : (getCore s c).acc = some a) (htx : a.txid = tx)
    (hreset : (getCore s c).inReset = false) (hkind : a.kind = .devLoad) (hst : (getCore s c).stepping = false)
    (htrans : transSt (hline s c (pLine p)).st = false) : let t := errAtCore s c tx p
    (getCore t c).acc = none ∧ (getCore t c).bar = (getCore s c).bar ∧ (getCore t c).waiting = (getCore s c).waiting ∧
      plOf (getCore t c) = localTgt (getCore s c) ∧ sysGet t c (localTgt (getCore s c) * 0x100 + 1) (secOf (getCore s c)) = (getCore s c).pc ∧
      sysGet t c (localTgt (getCore s c) * 0x100 + 3) (secOf (getCore s c)) = 0x201C000000000000 ∧
      sysGet t c (localTgt (getCore s c) * 0x100 + 4) (secOf (getCore s c)) = BitVec.ofNat 64 a.va ∧ ∀ r, dGet t c r = dGet s c r := by
  intro t
  obtain ⟨u, hu⟩ : ∃ u, (busError (answeredAt s c) c a.va a.pa false p.poison).2 = u := ⟨_, rfl⟩
  obtain ⟨sys, left, hk⟩ := busError_core (answeredAt s c) c a.va a.pa false p.poison
  rw [hu, core_answeredAt] at hk
  obtain ⟨e, he⟩ : ∃ e, (busError (answeredAt s c) c a.va a.pa false p.poison).1 = e := ⟨_, rfl⟩
  have hexc : e = { cls := 0x20, wnr := false, eaddr := BitVec.ofNat 64 a.va, ephys := BitVec.ofNat 64 a.pa } := he.symm
  have hwnr : (a.kind == .farAtomic || a.kind == .farScond) = false := by rw [hkind]; rfl
  have hrun : t = raise u c e := by
    have hb : busError (answeredAt s c) c a.va a.pa false p.poison = (e, u) := Prod.ext he hu
    rw [answeredAt] at hb
    show errAtCore s c tx p = _
    rw [errAtCore]
    dsimp only
    rw [htrans, Bool.false_and, if_neg Bool.false_ne_true, if_neg (Bool.eq_false_iff.mp hreset)]
    split
    next b hb' =>
      obtain rfl : a = b := Option.some.inj (hacc.symm.trans hb')
      rw [if_pos htx, hwnr]
      dsimp only at hb
      rw [hb]
    next hb' => rw [hacc] at hb'; cases hb'
  have hstu : (getCore u c).stepping = false := by rw [hk]; exact hst
  have htgt : excTarget (getCore u c) e.tgt = localTgt (getCore s c) := by rw [hk, hexc]; rfl
  have hpl := plOf_lt (getCore s c)
  have hent := raise_entered hstu htgt (by rw [localTgt_eq_max]; omega) (by rw [localTgt_eq_max]; omega)
  obtain ⟨hbar, hwait, hnone⟩ := raise_kept (s := u) (c := c) (e := e) hstu
  have hepc := hent.epcReg
  have hesyn := hent.esynReg
  have headdr := hent.eaddrReg
  have hworld : secOf (getCore u c) = secOf (getCore s c) := by rw [hk]; rfl
  rw [hworld, trunc_of_ne hc] at hepc headdr
  rw [hworld] at hesyn
  rw [hrun]
  refine ⟨hnone.trans (by rw [hk]), hbar.trans (by rw [hk]), hwait.trans (by rw [hk]), hent.level, hepc.trans ?_, hesyn.trans ?_, headdr.trans ?_,
    fun r => (hent.d r).trans (dGet_congr (by rw [hk]) r)⟩
  · rw [hexc, hk]
    rfl
  · rw [hexc]
    exact show esynOf { cls := 0x20 } = 0x201C000000000000 from by decide
  · rw [hexc]

section
variable {s u : State} {c tx : Nat} {p : Packet}

/-- ERR_RSP at a core's stop is the core's. -/
theorem errRspArrive_core (hc : c < 240) (htake : takePacket (fun q => q.cmd == .errRsp && q.dst == coreStop c && q.txid == tx) s = some (p, u))
    (hlate : timedOut s (coreStop c) tx = false) (hhub : isHub s (coreStop c) tx = false) (hhw : hwOf s (coreStop c) tx = none) :
    errRspArrive s (coreStop c) tx =
      enterWaitst (tryBar (errAtCore (delOutst u (coreStop c) tx) c tx p) c) c := by
  obtain ⟨v, hv⟩ : ∃ v, delOutst u (coreStop c) tx = v := ⟨_, rfl⟩
  have hsame : isHub v (coreStop c) tx = false ∧ timedOut u (coreStop c) tx = false ∧ hwOf v (coreStop c) tx = none := by
    obtain ⟨rfl, _⟩ := takeAny_eq htake
    subst hv
    exact ⟨hhub, hlate, hhw⟩
  obtain ⟨hhub', hlate', hhw'⟩ := hsame
  have hstop : ¬((coreStop c).die < 12 ∧ 20 ≤ (coreStop c).stop ∧ (coreStop c).stop < 28) := by
    rw [coreStop_of_lt hc]
    have hmod := Nat.mod_lt c (show 0 < 20 by decide)
    dsimp only
    omega
  rw [errRspArrive, htake]
  dsimp only
  rw [hv, hhub', hlate', hhw', if_neg hstop, coreAt_coreStop hc, isWin_core hc]
  rfl

/-! ### WR_CMP (R221) -/

/-- The one store of a buffer, which has been sent, is done. -/
theorem writeDone_single {e : SbEntry} (hsb : (getCore s c).sb = [e]) (hsent : e.sent = true) (htx : e.txid = tx)
    (hkind : e.dev = true ∨ e.nc = true) : writeDone s c tx false = sbRemove s c 0 := by
  have hfind : (e.sent && e.txid == tx && (e.dev || e.nc)) = true := by
    rw [hsent, htx]
    rcases hkind with h | h <;> simp [h]
  simp only [writeDone, hsb, List.length_singleton, List.range_one, List.find?_singleton, List.getElem?_cons_zero, hfind, if_true, Bool.false_and,
    Bool.false_eq_true, if_false]

/-- WR_CMP at a core whose one store it completes. -/
theorem wrCmpArrive_store {e : SbEntry} (hc : c < 240)
    (htake : takePacket (fun q => q.cmd == .wrCmp && q.dst == coreStop c && q.txid == tx) s = some (p, u)) (hp : p.poison = false)
    (hsb : (getCore s c).sb = [e]) (hsent : e.sent = true) (htx : e.txid = tx) (hkind : e.dev = true ∨ e.nc = true)
    (hlate : timedOut s (coreStop c) tx = false) (hhub : isHub s (coreStop c) tx = false) (hask : askOf (getCore s c) tx = none) :
    wrCmpArrive s (coreStop c) tx = enterWaitst (sbRemove (delOutst u (coreStop c) tx) c 0) c := by
  obtain ⟨v, hv⟩ : ∃ v, delOutst u (coreStop c) tx = v := ⟨_, rfl⟩
  have hk : getCore v c = getCore s c := hv ▸ core_taken htake ..
  have hsame : isHub v (coreStop c) tx = false ∧ timedOut u (coreStop c) tx = false := by
    obtain ⟨rfl, _⟩ := takeAny_eq htake
    subst hv
    exact ⟨hhub, hlate⟩
  obtain ⟨hhub', hlate'⟩ := hsame
  have hstop : (coreStop c == (⟨12, 21⟩ : StopId)) = false := by
    rw [coreStop_of_lt hc]
    have hdie : c / 20 ≠ 12 := by omega
    simp [hdie]
  rw [wrCmpArrive, htake]
  dsimp only
  rw [hv, hstop]
  have hnone : v.rangeTx.find? (fun t => false && t.2.2 == tx) = none := List.find?_eq_none.mpr fun _ _ => by simp
  rw [hnone]
  dsimp only
  rw [hhub', if_neg Bool.false_ne_true, coreAt_coreStop hc]
  dsimp only
  rw [hlate', if_neg Bool.false_ne_true, isWin_core hc, hk, hask]
  dsimp only
  rw [hp, writeDone_single (by rw [hk]; exact hsb) hsent htx hkind]

end

/-- The one store of a buffer is removed. -/
theorem sbRemove_single {s : State} {c : Nat} {e : SbEntry} (hsb : (getCore s c).sb = [e]) (hbar : (getCore s c).bar = none) :
    getCore (sbRemove s c 0) c = { getCore s c with
      sb := []
      served := (getCore s c).served.filter (fun f => f.line != e.pa / 64) } ∧ CoreOnly c s (sbRemove s c 0) := by
  have hfill := dropFill_core s c (e.pa / 64)
  have hrun : sbRemove s c 0 = setCore (dropFill s c (e.pa / 64)) c { getCore (dropFill s c (e.pa / 64)) c with sb := [] } := by
    simp only [sbRemove, hsb, List.getElem?_cons_zero, List.eraseIdx_cons_zero]
    exact tryBar_none (by rw [core_setCore_same, hfill]; exact hbar)
  rw [hrun, core_setCore_same, hfill]
  exact ⟨rfl, (CoreOnly.setCore ..).trans (.setCore ..)⟩

/-! ### DEV accesses of the register window (R10, R221, R227) -/

section
variable {s u : State} {p : Packet}

/-- A packet that its stop takes in meets an open ingress. -/
theorem meetIngress_takes (ht : Takes s p.dst) : meetIngress s p = (true, s) := by
  unfold meetIngress
  dsimp only
  split
  next => rfl
  next d hd =>
    have hrun : domState s d = 0 := by
      split at hd
      · cases hd
      · exact ht.run d hd
    rw [hrun]
    rfl

/-- A DEV access of this package's window that arrives is an access of the register. -/
theorem devTake_register {c : Cmd} {src : StopId} {tx off : Nat} {x : DevAns} (ht : Takes s p.dst)
    (hkind : paKind s p.addr = .regWin s.pkg off) (htake : takePacket (fun q => q.cmd == c && q.src == src && q.txid == tx) s = some (p, u)) :
    devTake s c src tx x = devReg u p off := by
  have hu : Takes u p.dst ∧ paKind u p.addr = .regWin u.pkg off := by
    obtain ⟨rfl, _⟩ := takeAny_eq htake
    exact ⟨⟨ht.live, ht.run⟩, hkind⟩
  obtain ⟨ht', hkind'⟩ := hu
  rw [devTake, htake]
  dsimp only
  rw [meetIngress_takes ht']
  dsimp only
  rw [devArrive, ht'.live, hkind']
  simp only [Bool.false_eq_true, if_false, if_true]

/-- The answer to a DEV access that completes. -/
theorem devReply_sent (v : State) (p : Packet) (c : Cmd) (d : Word) : ∃ q, q ∈ (devReply v p c d).net ∧ q.cmd = c ∧ q.dst = p.src ∧
    q.txid = p.txid ∧ q.data.toNat % 2 ^ 64 = d.toNat ∧ q.poison = false := by
  refine ⟨_, List.mem_append_right _ List.mem_cons_self, rfl, rfl, rfl, ?_, rfl⟩
  show (BitVec.ofNat 512 d.toNat).toNat % 2 ^ 64 = d.toNat
  have hd := d.isLt
  rw [BitVec.toNat_ofNat, Nat.mod_mod_of_dvd _ (Nat.pow_dvd_pow 2 (by decide)), Nat.mod_eq_of_lt hd]

variable {off : Nat}

theorem devReg_read {v : Word} (hsize : p.size = 3) (halign : p.addr % 8 = 0) (hp : p.poison = false) (hcmd : p.cmd = .devRd)
    (hv : regRead u (devBy p) off = some v) : devReg u p off = devReply u p .rdRsp v := by
  rw [devReg, if_neg (by simp [hsize, halign, hp]), if_pos hcmd, hv]
  dsimp only
  rw [devComplete, Bool.not_true, if_neg Bool.false_ne_true, if_pos hcmd]

theorem devReg_write {w : State} (hsize : p.size = 3) (halign : p.addr % 8 = 0) (hp : p.poison = false) (hcmd : p.cmd = .devWr)
    (hw : regWrite u (devBy p) off (p.data.extractLsb' 0 64) = some w) : devReg u p off = devReply w p .wrCmp 0 := by
  have hrd : p.cmd ≠ .devRd := by rw [hcmd]; decide
  rw [devReg, if_neg (by simp [hsize, halign, hp]), if_neg hrd, hw]
  dsimp only
  rw [devComplete, Bool.not_true, if_neg Bool.false_ne_true, if_neg hrd]

/-- An access that no register takes ends in error (R10). -/
theorem devReg_refused (hsize : p.size = 3) (halign : p.addr % 8 = 0) (hp : p.poison = false)
    (h : p.cmd = .devRd ∧ regRead u (devBy p) off = none ∨ p.cmd = .devWr ∧ regWrite u (devBy p) off (p.data.extractLsb' 0 64) = none) :
    devReg u p off = devReply u p .errRsp 0 := by
  rw [devReg, if_neg (by simp [hsize, halign, hp])]
  rcases h with ⟨hcmd, hnone⟩ | ⟨hcmd, hnone⟩
  · rw [if_pos hcmd, hnone]
    exact if_pos rfl
  · rw [if_neg (by rw [hcmd]; decide), hnone]
    exact if_pos rfl

theorem taken_cmd {c : Cmd} {src : StopId} {tx : Nat} (htake : takePacket (fun q => q.cmd == c && q.src == src && q.txid == tx) s = some (p, u)) :
    p.cmd = c := by
  have hsat := List.find?_some (takeAny_eq htake).2
  simp only [Bool.and_eq_true, beq_iff_eq] at hsat
  obtain ⟨⟨⟨hcmd, _⟩, _⟩, _⟩ := hsat
  exact hcmd

end

/-- Settles O31: what each answer does at the agent that waits, by the lemmas above. -/
theorem answersAtAgents : Obligations.AnswersAtAgents := by
  unfold Obligations.AnswersAtAgents
  refine ⟨fun c line a p u s hc htake hcmd hp hacc hpred hkind hss hst => ?_,
    fun c tx a p u s hc hacc htx hreset hlate hhalf hmem hhub hhw hss hst hkind => ⟨fun htake hp hcls hbase => ⟨_, rfl, ?_⟩,
      fun htake hbar htrans hwait => ⟨_, rfl, ?_⟩⟩,
    fun c tx e p u s hc htake hp hsb hsent htx hkind hlate hhub hask hbar hwait => ⟨_, rfl, ?_⟩,
    fun src tx x p off u s ht hp hkind hsize halign hsrc => ⟨fun htake => ⟨fun v hv => ?_, fun hnone => ?_⟩,
      fun htake => ⟨fun w hw => ?_, fun hnone => ?_⟩⟩⟩
  · have h := farRspArrive_obtained hc htake hcmd hp hacc hpred hkind hss hst
    exact ⟨_, congrArg ok (if_neg fun he => hc he.1), h.acc, h.pc, h.d, h.a, h.cstat, h.dram, h.lines⟩
  · have hlt : c.val < 240 := by have := c.isLt; omega
    have hk := core_taken (c := c.val) htake (coreStop c) tx.toNat
    have h := (devDone_obtained hc hp hmem hhalf hkind hcls hbase (by rw [hk]; exact hss) (by rw [hk]; exact hst)).of_taken htake
    rw [rdRspArrive_devDone hlt htake hacc htx hreset hlate hhub]
    exact ⟨h.acc, h.pc, h.d, h.a, h.dram, h.lines⟩
  · have hlt : c.val < 240 := by have := c.isLt; omega
    have hk := core_taken (c := c.val) htake (coreStop c) tx.toNat
    have hline : hline (delOutst u (coreStop c) tx.toNat) c (pLine p) = hline s c (pLine p) := by
      obtain ⟨rfl, _⟩ := takeAny_eq htake
      rfl
    obtain ⟨h1, h2, h3, h4⟩ := errAtCore_entered (s := delOutst u (coreStop c) tx.toNat) (p := p) hc (by rw [hk]; exact hacc) htx
      (by rw [hk]; exact hreset) hkind (by rw [hk]; exact hst) (by rw [hline]; exact htrans)
    rw [errRspArrive_core hlt htake hlate hhub hhw, tryBar_none (h2.trans (by rw [hk]; exact hbar)),
      enterWaitst_awake (h3.trans (by rw [hk]; exact hwait))]
    rw [hk, dGet_of_core hk] at h4
    exact ⟨h1, h4⟩
  · have hlt : c.val < 240 := by have := c.isLt; omega
    have hk := core_taken (c := c.val) htake (coreStop c) tx.toNat
    obtain ⟨v, hv⟩ : ∃ v, delOutst u (coreStop c) tx.toNat = v := ⟨_, rfl⟩
    have hsame : v.net = u.net ∧ v.dram = s.dram ∧ v.cores = s.cores ∧ ∀ o ∈ v.outst, o.stop = coreStop c → o.txid ≠ tx.toNat := by
      obtain ⟨rfl, _⟩ := takeAny_eq htake
      subst hv
      refine ⟨rfl, rfl, rfl, fun o ho hstop htx => ?_⟩
      have hkeep := (List.mem_filter.mp ho).2
      simp [hstop, htx] at hkeep
    obtain ⟨hnet, hdram, hcores, houtst⟩ := hsame
    rw [hv] at hk
    obtain ⟨hcore, honly⟩ := sbRemove_single (s := v) (c := c) (e := e) (by rw [hk]; exact hsb) (by rw [hk]; exact hbar)
    rw [wrCmpArrive_store hlt htake hp hsb hsent htx hkind hlate hhub hask, hv,
      enterWaitst_awake (by rw [hcore, hk]; exact hwait)]
    have hout : (sbRemove v c 0).outst = v.outst := by
      have he := congrArg State.outst honly.1
      exact he
    refine ⟨by rw [hcore, hk], honly.net.trans hnet, honly.dram.trans hdram, by rw [hout]; exact houtst, fun c' hne => ?_⟩
    exact (honly.2 c' hne).trans (getCore_congr hcores c')
  · obtain ⟨q, hmem, hcmd, hdst, htx, hdata, hpois⟩ := devReply_sent u p .rdRsp v
    have hrun := devTake_register (x := x) ht hkind htake
    rw [devReg_read hsize halign hp (taken_cmd htake) hv] at hrun
    obtain ⟨rfl, _⟩ := takeAny_eq htake
    exact ⟨_, q, congrArg ok hrun, hmem, hcmd, hdst.trans hsrc, htx, hdata, hpois, rfl, rfl, rfl⟩
  · obtain ⟨q, hmem, hcmd, hdst, htx, _⟩ := devReply_sent u p .errRsp 0
    have hrun := devTake_register (x := x) ht hkind htake
    rw [devReg_refused hsize halign hp (.inl ⟨taken_cmd htake, hnone⟩)] at hrun
    exact ⟨_, q, congrArg ok hrun, hmem, hcmd, hdst.trans hsrc, htx⟩
  · obtain ⟨q, hmem, hcmd, hdst, htx, _⟩ := devReply_sent w p .wrCmp 0
    have hrun := devTake_register (x := x) ht hkind htake
    rw [devReg_write hsize halign hp (taken_cmd htake) hw] at hrun
    exact ⟨_, q, congrArg ok hrun, hmem, hcmd, hdst.trans hsrc, htx, rfl, rfl, rfl⟩
  · obtain ⟨q, hmem, hcmd, hdst, htx, _⟩ := devReply_sent u p .errRsp 0
    have hrun := devTake_register (x := x) ht hkind htake
    rw [devReg_refused hsize halign hp (.inr ⟨taken_cmd htake, hnone⟩)] at hrun
    obtain ⟨rfl, _⟩ := takeAny_eq htake
    exact ⟨_, q, congrArg ok hrun, hmem, hcmd, hdst.trans hsrc, htx, rfl⟩

end Sys2Proof.Machine
end


section
/-! PROOFS. A line at its home: reads, writes and the installs they bring about (R248, R251, R254, R286, R379). -/
namespace Sys2Proof.Machine

open Sys2Proof

/-! ### What a home's access to a line leaves -/

/-- From s to t nothing but the L3s and memory changed, and the homes' note of the last far operations. -/
def HomeOnly (s t : State) : Prop :=
  { t with l3 := s.l3, l3Lfsr := s.l3Lfsr, dram := s.dram, poisoned := s.poisoned, farLast := s.farLast } = s

/-- A line that no L3 holds is in memory as before, and still in no L3. -/
def MemKept (l : Nat) (s t : State) : Prop :=
  (l3Line s l).valid = false → (l3Line t l).valid = false ∧ memRaw t l = memRaw s l ∧ memPoison t l = memPoison s l

section
variable {l line : Nat} {s t u : State}

theorem HomeOnly.refl (s : State) : HomeOnly s s := rfl

theorem HomeOnly.trans (h1 : HomeOnly s t) (h2 : HomeOnly t u) : HomeOnly s u := by
  unfold HomeOnly at *
  calc { u with l3 := s.l3, l3Lfsr := s.l3Lfsr, dram := s.dram, poisoned := s.poisoned, farLast := s.farLast }
      = { ({ u with l3 := t.l3, l3Lfsr := t.l3Lfsr, dram := t.dram, poisoned := t.poisoned, farLast := t.farLast } : State) with
          l3 := s.l3, l3Lfsr := s.l3Lfsr, dram := s.dram, poisoned := s.poisoned, farLast := s.farLast } := rfl
    _ = { t with l3 := s.l3, l3Lfsr := s.l3Lfsr, dram := s.dram, poisoned := s.poisoned, farLast := s.farLast } := by rw [h2]
    _ = s := h1

theorem MemKept.refl (l : Nat) (s : State) : MemKept l s s := fun h => ⟨h, rfl, rfl⟩

theorem MemKept.trans (h1 : MemKept l s t) (h2 : MemKept l t u) : MemKept l s u := fun h => by
  obtain ⟨h3, h4, h5⟩ := h1 h
  obtain ⟨h6, h7, h8⟩ := h2 h3
  exact ⟨h6, h7.trans h4, h8.trans h5⟩

theorem HomeOnly.setL3 (s : State) (line : Nat) (x : L3Line) : HomeOnly s (Machine.setL3 s line x) := rfl

theorem MemKept.setL3 (x : L3Line) (h : l ≠ line) : MemKept l s (Machine.setL3 s line x) := fun hv =>
  ⟨by rw [l3Line_setL3_ne h]; exact hv, rfl, rfl⟩

/-- An L3 gives a line up. -/
theorem MemKept.setL3_invalid {x : L3Line} (hx : x.valid = false) : MemKept l s (Machine.setL3 s line x) := fun hv => by
  refine ⟨?_, rfl, rfl⟩
  by_cases h : l = line
  · rw [h, l3Line_setL3_same, hx]
  · rw [l3Line_setL3_ne h]
    exact hv

theorem HomeOnly.memWrite (s : State) (line k : Nat) (d : LineData) (p : Bool) : HomeOnly s (memWrite s line k d p) := by
  unfold Machine.memWrite
  split <;> rfl

theorem MemKept.memWrite (k : Nat) (d : LineData) (p : Bool) (h : l ≠ line) : MemKept l s (memWrite s line k d p) := fun hv => by
  unfold Machine.memWrite
  split
  · exact ⟨hv, rfl, rfl⟩
  · exact ⟨hv, memRaw_memRawSet_ne s line l _ h, tget_tset_ne h _⟩

/-- A dirty copy of an L3 goes to memory. -/
theorem l3Clean_only (s : State) (line : Nat) : HomeOnly s (l3Clean s line .clean) ∧ ∀ l, MemKept l s (l3Clean s line .clean) := by
  unfold l3Clean
  split
  next h =>
    dsimp only [l3ReadHit]
    refine ⟨(HomeOnly.memWrite ..).trans (.setL3 ..), fun l hv => ?_⟩
    have hne : l ≠ line := fun he => by
      subst he
      simp [hv] at h
    exact ((MemKept.memWrite _ _ _ hne).trans (.setL3 _ hne)) hv
  next => exact ⟨.refl _, fun l => MemKept.refl l s⟩

/-- The LFSR of a slice moved on. -/
def lfsrSet (s : State) (key x : Nat) : State := { s with l3Lfsr := tset (0xACE1 ^^^ key) key x s.l3Lfsr }

/-- The victim of an install gives its way up. -/
def evictVictim (s : State) : Option (Nat × L3Line) → State
  | some (v, _) => setL3 (l3Clean s v .clean) v {}
  | none => s

theorem evictVictim_only (s : State) (o : Option (Nat × L3Line)) : HomeOnly s (evictVictim s o) ∧ ∀ l, MemKept l s (evictVictim s o) := by
  cases o with
  | none => exact ⟨.refl _, fun l => .refl l s⟩
  | some v =>
    obtain ⟨hrest, hkept⟩ := l3Clean_only s v.1
    exact ⟨hrest.trans (.setL3 ..), fun l => (hkept l).trans (.setL3_invalid rfl)⟩

/-- A line is left out of its L3, or a victim gives it a way. -/
theorem l3Install_cases (s : State) (line : Nat) (d : LineData) (p dirty : Bool) (k part : Nat) (w : Bool) :
    l3Install s line d p dirty k part w {} = (false, s) ∨ l3Installs s (lineLoc s line).home = true ∧ ∃ key x o way,
      l3Install s line d p dirty k part w {} = (true, setL3 (evictVictim (lfsrSet s key x) o) line
        { valid := true, way := way, dirty := dirty, poison := p, data := d, keyid := k }) := by
  unfold l3Install
  dsimp only
  split
  next => exact .inl rfl
  next h =>
    simp only [Bool.or_eq_true, Bool.not_eq_true', not_or, Bool.not_eq_false] at h
    refine .inr ⟨h.1, ?_⟩
    split
    next v x _ => exact ⟨_, _, some (v, x), _, rfl⟩
    next => exact ⟨_, _, none, _, rfl⟩

/-- What an install leaves: the line in its L3, every other line where it was. -/
theorem installed_only (s : State) (line key x : Nat) (o : Option (Nat × L3Line)) (y : L3Line) :
    HomeOnly s (setL3 (evictVictim (lfsrSet s key x) o) line y) ∧ ∀ l, l ≠ line → MemKept l s (setL3 (evictVictim (lfsrSet s key x) o) line y) := by
  obtain ⟨hrest, hkept⟩ := evictVictim_only (lfsrSet s key x) o
  have h0 : HomeOnly s (lfsrSet s key x) := rfl
  have h1 : ∀ l, MemKept l s (lfsrSet s key x) := fun l => .refl l s
  exact ⟨(h0.trans hrest).trans (.setL3 ..), fun l hl => ((h1 l).trans (hkept l)).trans (.setL3 y hl)⟩

end

/-! ### What a home's value of a line depends on -/

section
variable {l line : Nat} {s t : State}

theorem HomeOnly.lineLoc (h : HomeOnly s t) (l : Nat) : lineLoc t l = lineLoc s l := by
  have hread : Machine.lineLoc t l = Machine.lineLoc
      { t with l3 := s.l3, l3Lfsr := s.l3Lfsr, dram := s.dram, poisoned := s.poisoned, farLast := s.farLast } l := rfl
  rw [hread, h]

theorem HomeOnly.l3Use (h : HomeOnly s t) (n : Nat) : l3Use t n = l3Use s n := by
  have hread : Machine.l3Use t n = Machine.l3Use
      { t with l3 := s.l3, l3Lfsr := s.l3Lfsr, dram := s.dram, poisoned := s.poisoned, farLast := s.farLast } n := rfl
  rw [hread, h]

theorem HomeOnly.memAnswers (h : HomeOnly s t) (l k : Nat) : memAnswers t l k = memAnswers s l k := by
  have hread : Machine.memAnswers t l k = Machine.memAnswers
      { t with l3 := s.l3, l3Lfsr := s.l3Lfsr, dram := s.dram, poisoned := s.poisoned, farLast := s.farLast } l k := rfl
  rw [hread, h]

/-- A line in an L3 that is looked up. -/
theorem llcPeek_hit (h : (l3Use s (lineLoc s line).home && (l3Line s line).valid) = true) (k : Nat) :
    llcPeek s line k = { data := (l3Line s line).data, poison := (l3Line s line).poison } := if_pos h

/-- A line in no such L3 is what memory holds, where memory answers. -/
theorem llcPeek_mem (h : (l3Use s (lineLoc s line).home && (l3Line s line).valid) = false) (ha : memAnswers s line 0 = true) :
    llcPeek s line 0 = { data := memRaw s line, poison := memPoison s line } := by
  rw [llcPeek, h, if_neg Bool.false_ne_true, ha, Bool.not_true, if_neg Bool.false_ne_true, decryptLine, if_pos rfl]

theorem llcPeek_dead (h : (l3Use s (lineLoc s line).home && (l3Line s line).valid) = false) {k : Nat} (ha : memAnswers s line k = false) :
    llcPeek s line k = { err := true } := by
  rw [llcPeek, h, if_neg Bool.false_ne_true, ha, Bool.not_false, if_pos rfl]

/-- A line that no L3 holds has its value where an access to another line leaves it. -/
theorem llcPeek_kept (h : HomeOnly s t) (hk : MemKept l s t) (hv : (l3Line s l).valid = false) : llcPeek t l 0 = llcPeek s l 0 := by
  obtain ⟨hvalid, hraw, hpoison⟩ := hk hv
  have hs : (Machine.l3Use s (Machine.lineLoc s l).home && (l3Line s l).valid) = false := by rw [hv, Bool.and_false]
  have ht : (Machine.l3Use t (Machine.lineLoc t l).home && (l3Line t l).valid) = false := by rw [hvalid, Bool.and_false]
  by_cases ha : Machine.memAnswers s l 0 = true
  · rw [llcPeek_mem hs ha, llcPeek_mem ht ((h.memAnswers l 0).trans ha), hraw, hpoison]
  · have ha' := Bool.eq_false_iff.mpr ha
    rw [llcPeek_dead hs ha', llcPeek_dead ht ((h.memAnswers l 0).trans ha')]

theorem l3Use_of_installs {n : Nat} (h : l3Installs s n = true) : l3Use s n = true := by
  rw [l3Installs] at h
  rw [l3Use, h, Bool.true_or]

/-- A line that was installed. -/
theorem llcPeek_installed {x : L3Line} (h : HomeOnly s t) (hin : l3Installs s (lineLoc s line).home = true) (hx : l3Line t line = x)
    (hv : x.valid = true) (k : Nat) : llcPeek t line k = { data := x.data, poison := x.poison } := by
  rw [llcPeek_hit (by rw [h.lineLoc, h.l3Use, l3Use_of_installs hin, hx, hv, Bool.true_and]), hx]

theorem l3Lookup_clean (s : State) (line : Nat) : l3Lookup s line {} = s := by
  unfold l3Lookup
  dsimp only
  split <;> rfl

/-- A read of memory that meets no error (R377). -/
theorem memRead_clean (ha : memAnswers s line 0 = true) (hp : memPoison s line = false) :
    memRead s line 0 .clean = ({ data := memRaw s line, poison := false }, s) := by
  rw [memRead, ha, Bool.not_true, if_neg Bool.false_ne_true, chRead]
  simp only [hp, Bool.false_eq_true, false_and, if_false, decryptLine, if_true]

/-- A line written to memory reads back. -/
theorem memRaw_memRawSet_same (s : State) (line : Nat) (d : LineData) : memRaw (memRawSet s line d) line = d := by
  have hbytes : (List.range 64).map (fun i => tget 0 (line * 64 + i) (memRawSet s line d).dram) = lineBytes d :=
    List.map_congr_left fun i hi => memRawSet_same s line d i (List.mem_range.mp hi)
  have hlen : (lineBytes d).length = 64 := by simp [lineBytes]
  apply BitVec.eq_of_getLsbD_eq
  intro k hk
  have hbit := ofBytesLE_testBit (k % 8) (Nat.mod_lt _ (by decide)) (lineBytes d) (k / 8) (by omega)
  have hsplit : 8 * (k / 8) + k % 8 = k := Nat.div_add_mod k 8
  have hget : (lineBytes d)[k / 8] = lineByte d (k / 8) := by simp [lineBytes]
  rw [memRaw, hbytes, BitVec.getLsbD_ofNat, decide_eq_true hk, Bool.true_and, ← hsplit, hbit, hget, lineByte_getLsbD,
    decide_eq_true (Nat.mod_lt k (by decide)), Bool.true_and]

/-- Memory that answers has what was written to it. -/
theorem llcPeek_memWrite {d : LineData} (h : (l3Use s (lineLoc s line).home && (l3Line s line).valid) = false) (ha : memAnswers s line 0 = true) :
    llcPeek (memWrite s line 0 d false) line 0 = { data := d } := by
  have hrest : HomeOnly s (memWrite s line 0 d false) := .memWrite ..
  have hl3 : l3Line (memWrite s line 0 d false) line = l3Line s line := by
    rw [l3Line, l3Line, memWrite_l3]
  have hwrite : memWrite s line 0 d false = setMemPoison (memRawSet s line d) line false := by
    rw [memWrite, ha, Bool.not_true, if_neg Bool.false_ne_true, encryptLine, if_pos rfl]
  rw [llcPeek_mem (by rw [hrest.lineLoc, hrest.l3Use, hl3, h]) ((hrest.memAnswers line 0).trans ha), hwrite]
  have hraw : memRaw (setMemPoison (memRawSet s line d) line false) line = d := memRaw_memRawSet_same s line d
  have hpoison : memPoison (setMemPoison (memRawSet s line d) line false) line = false := by
    rw [memPoison, setMemPoison, tget_tset_same]
  rw [hraw, hpoison]

/-- What a write of some bytes of a line does where its L3 holds it. -/
theorem llcWrite_hit {d : LineData} {mask part : Nat} {w : Bool} (h : (l3Use s (lineLoc s line).home && (l3Line s line).valid) = true)
    (hmask : (mask == 2 ^ 64 - 1) = false) (hp : (l3Line s line).poison = false) : llcWrite s line d mask false 0 part w {} =
      setL3 s line { l3Line s line with data := lineMerge (l3Line s line).data d mask, poison := false, dirty := true } := by
  rw [llcWrite]
  dsimp only
  rw [l3Lookup_clean, if_pos h, hmask, if_neg Bool.false_ne_true, if_neg Bool.false_ne_true]
  simp only [l3ReadHit, hp, Bool.or_false]

/-- And where memory holds it: the line is installed as written, or goes back to memory. -/
theorem llcWrite_mem {d : LineData} {mask part : Nat} {w : Bool} (h : (l3Use s (lineLoc s line).home && (l3Line s line).valid) = false)
    (ha : memAnswers s line 0 = true) (hp : memPoison s line = false) (hmask : (mask == 2 ^ 64 - 1) = false) :
    llcWrite s line d mask false 0 part w {} = if (l3Install s line (lineMerge (memRaw s line) d mask) false true 0 part w {}).1
      then (l3Install s line (lineMerge (memRaw s line) d mask) false true 0 part w {}).2
      else memWrite (l3Install s line (lineMerge (memRaw s line) d mask) false true 0 part w {}).2 line 0 (lineMerge (memRaw s line) d mask) false := by
  rw [llcWrite]
  dsimp only
  rw [l3Lookup_clean, if_neg (by rw [h]; exact Bool.false_ne_true), hmask, if_neg Bool.false_ne_true, memRead_clean ha hp]
  simp only [Bool.or_false, Bool.false_eq_true, if_false]

theorem llcRead_hit (h : (l3Use s (lineLoc s line).home && (l3Line s line).valid) = true) (part : Nat) (w : Bool) :
    llcRead s line 0 part w {} = (llcPeek s line 0, s) := by
  rw [llcRead]
  dsimp only
  rw [l3Lookup_clean, if_pos h, llcPeek_hit h]
  rfl

theorem llcRead_dead (h : (l3Use s (lineLoc s line).home && (l3Line s line).valid) = false) (ha : memAnswers s line 0 = false) (part : Nat)
    (w : Bool) : llcRead s line 0 part w {} = (llcPeek s line 0, s) := by
  rw [llcRead]
  dsimp only
  rw [l3Lookup_clean, if_neg (by rw [h]; exact Bool.false_ne_true), llcPeek_dead h ha, memRead, ha]
  rfl

theorem llcRead_mem (h : (l3Use s (lineLoc s line).home && (l3Line s line).valid) = false) (ha : memAnswers s line 0 = true)
    (hp : memPoison s line = false) (part : Nat) (w : Bool) :
    llcRead s line 0 part w {} = (llcPeek s line 0, (l3Install s line (memRaw s line) false false 0 part w {}).2) := by
  rw [llcRead]
  dsimp only
  rw [l3Lookup_clean, if_neg (by rw [h]; exact Bool.false_ne_true), llcPeek_mem h ha, memRead_clean ha hp, hp]
  rfl

/-- A read at the home gives what the line holds, and leaves it so (R286). -/
theorem llcRead_clean (s : State) (line part : Nat) (w : Bool) (hgood : (llcPeek s line 0).poison = false) :
    ∃ t, llcRead s line 0 part w {} = (llcPeek s line 0, t) ∧ HomeOnly s t ∧ (∀ l, l ≠ line → MemKept l s t) ∧
      llcPeek t line 0 = llcPeek s line 0 := by
  have hself : HomeOnly s s ∧ (∀ l, l ≠ line → MemKept l s s) ∧ llcPeek s line 0 = llcPeek s line 0 := ⟨.refl s, fun l _ => .refl l s, rfl⟩
  cases hhit : l3Use s (lineLoc s line).home && (l3Line s line).valid with
  | true => exact ⟨s, llcRead_hit hhit part w, hself⟩
  | false =>
    cases ha : memAnswers s line 0 with
    | false => exact ⟨s, llcRead_dead hhit ha part w, hself⟩
    | true =>
      have hp : memPoison s line = false := by rwa [llcPeek_mem hhit ha] at hgood
      rw [llcRead_mem hhit ha hp]
      rcases l3Install_cases s line (memRaw s line) false false 0 part w with hi | ⟨hin, key, x, o, way, hi⟩
      · rw [hi]
        exact ⟨s, rfl, hself⟩
      · rw [hi]
        obtain ⟨hrest, hkept⟩ := installed_only s line key x o
          { valid := true, way := way, dirty := false, poison := false, data := memRaw s line, keyid := 0 }
        refine ⟨_, rfl, hrest, hkept, ?_⟩
        rw [llcPeek_installed hrest hin (l3Line_setL3_same ..) rfl, llcPeek_mem hhit ha, hp]

/-- A write of some bytes at the home leaves the line with them, and others where they were (R379). -/
theorem llcWrite_clean (s : State) (line part : Nat) (w : Bool) (d : LineData) {mask : Nat} (hmask : (mask == 2 ^ 64 - 1) = false)
    (hgood : (llcPeek s line 0).poison = false) (herr : (llcPeek s line 0).err = false) :
    ∃ t, llcWrite s line d mask false 0 part w {} = t ∧ HomeOnly s t ∧ (∀ l, l ≠ line → MemKept l s t) ∧
      llcPeek t line 0 = { data := lineMerge (llcPeek s line 0).data d mask } := by
  cases hhit : l3Use s (lineLoc s line).home && (l3Line s line).valid with
  | true =>
    have hp : (l3Line s line).poison = false := by rwa [llcPeek_hit hhit] at hgood
    rw [llcWrite_hit hhit hmask hp, llcPeek_hit hhit]
    obtain ⟨x, hx⟩ : ∃ x : L3Line, { l3Line s line with data := lineMerge (l3Line s line).data d mask, poison := false, dirty := true } = x := ⟨_, rfl⟩
    have hv : x.valid = (l3Line s line).valid := by rw [← hx]
    have hrest : HomeOnly s (setL3 s line x) := .setL3 ..
    rw [hx]
    refine ⟨_, rfl, hrest, fun l hl => .setL3 x hl, ?_⟩
    rw [llcPeek_hit (by rw [hrest.lineLoc, hrest.l3Use, l3Line_setL3_same, hv, hhit]), l3Line_setL3_same, ← hx]
  | false =>
    cases ha : memAnswers s line 0 with
    | false => rw [llcPeek_dead hhit ha] at herr; cases herr
    | true =>
      have hp : memPoison s line = false := by rwa [llcPeek_mem hhit ha] at hgood
      rw [llcWrite_mem hhit ha hp hmask, llcPeek_mem hhit ha]
      rcases l3Install_cases s line (lineMerge (memRaw s line) d mask) false true 0 part w with hi | ⟨hin, key, x, o, way, hi⟩
      · rw [hi]
        exact ⟨_, if_neg Bool.false_ne_true, HomeOnly.memWrite .., fun l hl => MemKept.memWrite _ _ _ hl, llcPeek_memWrite hhit ha⟩
      · rw [hi]
        obtain ⟨hrest, hkept⟩ := installed_only s line key x o
          { valid := true, way := way, dirty := true, poison := false, data := lineMerge (memRaw s line) d mask, keyid := 0 }
        refine ⟨_, rfl, hrest, hkept, ?_⟩
        rw [if_pos rfl, llcPeek_installed hrest hin (l3Line_setL3_same ..) rfl]

end

/-! ### A far atomic at a line nobody holds (R286, R294) -/

/-- From s to t a home has acted on a line: the L3s, memory and the reservations of cores may have changed, and nothing else. -/
structure HomeActed (line : Nat) (s t : State) : Prop where
  rest : { t with l3 := s.l3, l3Lfsr := s.l3Lfsr, dram := s.dram, poisoned := s.poisoned, farLast := s.farLast, cores := s.cores } = s
  cores : ∀ c, ∃ r, getCore t c = { getCore s c with resv := r }
  kept : ∀ l, l ≠ line → MemKept l s t

section
variable {line : Nat} {s t u : State}

theorem HomeActed.trans (h1 : HomeActed line s t) (h2 : HomeActed line t u) : HomeActed line s u where
  rest := by
    calc { u with l3 := s.l3, l3Lfsr := s.l3Lfsr, dram := s.dram, poisoned := s.poisoned, farLast := s.farLast, cores := s.cores }
        = { ({ u with l3 := t.l3, l3Lfsr := t.l3Lfsr, dram := t.dram, poisoned := t.poisoned, farLast := t.farLast, cores := t.cores } : State) with
            l3 := s.l3, l3Lfsr := s.l3Lfsr, dram := s.dram, poisoned := s.poisoned, farLast := s.farLast, cores := s.cores } := rfl
      _ = { t with l3 := s.l3, l3Lfsr := s.l3Lfsr, dram := s.dram, poisoned := s.poisoned, farLast := s.farLast, cores := s.cores } := by rw [h2.rest]
      _ = s := h1.rest
  cores c := by
    obtain ⟨r1, e1⟩ := h1.cores c
    obtain ⟨r2, e2⟩ := h2.cores c
    exact ⟨r2, by rw [e2, e1]⟩
  kept l hl := (h1.kept l hl).trans (h2.kept l hl)

theorem HomeOnly.acted (h : HomeOnly s t) (hk : ∀ l, l ≠ line → MemKept l s t) : HomeActed line s t where
  rest := by
    calc { t with l3 := s.l3, l3Lfsr := s.l3Lfsr, dram := s.dram, poisoned := s.poisoned, farLast := s.farLast, cores := s.cores }
        = { ({ t with l3 := s.l3, l3Lfsr := s.l3Lfsr, dram := s.dram, poisoned := s.poisoned, farLast := s.farLast } : State) with
            cores := s.cores } := rfl
      _ = s := by rw [h]
  cores c := by
    have hc : t.cores = s.cores := by
      have he := congrArg State.cores h
      exact he
    exact ⟨(getCore s c).resv, by rw [getCore_congr hc]⟩
  kept := hk

/-- From s to t nothing but reservations of cores changed. -/
structure ResvOnly (s t : State) : Prop where
  rest : { t with cores := s.cores } = s
  cores : ∀ c, ∃ r, getCore t c = { getCore s c with resv := r }

theorem ResvOnly.refl (s : State) : ResvOnly s s := ⟨rfl, fun c => ⟨(getCore s c).resv, rfl⟩⟩

theorem ResvOnly.trans (h1 : ResvOnly s t) (h2 : ResvOnly t u) : ResvOnly s u where
  rest := by
    calc { u with cores := s.cores } = { ({ u with cores := t.cores } : State) with cores := s.cores } := rfl
      _ = s := by rw [h2.rest, h1.rest]
  cores c := by
    obtain ⟨r1, e1⟩ := h1.cores c
    obtain ⟨r2, e2⟩ := h2.cores c
    exact ⟨r2, by rw [e2, e1]⟩

theorem ResvOnly.dropResv (s : State) (c : Nat) : ResvOnly s (dropResv s c) := ⟨rfl, fun c' => by
  by_cases he : c' = c
  · exact ⟨none, by rw [he, Machine.dropResv, core_setCore_same]⟩
  · exact ⟨(getCore s c').resv, by rw [Machine.dropResv, core_setCore_ne he]⟩⟩

theorem ResvOnly.breakResv (s : State) (by_ pa n : Nat) : ResvOnly s (breakResv s by_ pa n) := by
  unfold Machine.breakResv
  generalize s.cores = cs
  induction cs generalizing s with
  | nil => exact .refl s
  | cons p cs ih =>
    rw [List.foldl_cons]
    refine ResvOnly.trans ?_ (ih _)
    split
    · split
      · exact .dropResv s p.1
      · exact .refl s
    · exact .refl s

theorem ResvOnly.acted (h : ResvOnly s t) (line : Nat) : HomeActed line s t where
  rest := by
    obtain ⟨hrest, _⟩ := h
    generalize t = v at hrest
    rw [← hrest]
  cores := h.cores
  kept l _ := by
    have hl3 := congrArg State.l3 h.rest
    have hdram := congrArg State.dram h.rest
    have hpoison := congrArg State.poisoned h.rest
    dsimp only at hl3 hdram hpoison
    intro hv
    refine ⟨?_, ?_, ?_⟩
    · rw [l3Line, hl3]
      exact hv
    · rw [memRaw, memRaw, hdram]
    · rw [memPoison, memPoison, hpoison]

/-- What the home reads of a line is no matter of reservations. -/
theorem ResvOnly.llcPeek (h : ResvOnly s t) (line k : Nat) : llcPeek t line k = llcPeek s line k := by
  have hread : Machine.llcPeek t line k = Machine.llcPeek { t with cores := s.cores } line k := rfl
  rw [hread, h.rest]

end

/-- Bytes written into a line read back. -/
theorem lineGet_lineMerge_same (d : LineData) {off n : Nat} (x : Nat) (h : off + n ≤ 64) :
    lineGet (lineMerge d (linePut 0 off n x) (byteMask off n)) off n = x % 2 ^ (8 * n) := by
  apply Nat.eq_of_testBit_eq
  intro k
  rw [lineGet_testBit, Nat.testBit_mod_two_pow]
  by_cases hk : k < 8 * n
  · have hmask : (byteMask off n).testBit ((8 * off + k) / 8) = true := by
      rw [byteMask_testBit]
      have h1 : off ≤ (8 * off + k) / 8 := by omega
      have h2 : (8 * off + k) / 8 < off + n := by omega
      have h3 : (8 * off + k) / 8 < 64 := by omega
      simp [h1, h2, h3]
    have hin : 8 * off ≤ 8 * off + k ∧ 8 * off + k < 8 * (off + n) := by omega
    have hmerge : lineMerge d (linePut 0 off n x) (byteMask off n) = mergeBelow d (linePut 0 off n x) (byteMask off n) 64 := rfl
    rw [hmerge, mergeBelow_getLsbD _ _ _ _ _ (by omega), if_pos ⟨by omega, hmask⟩, linePut_getLsbD _ _ _ _ _ (by omega), if_pos hin,
      Nat.add_sub_cancel_left]
  · simp [hk]

/-- Eight bytes are not a whole line. -/
theorem byteMask_part (off : Nat) : (byteMask off 8 == 2 ^ 64 - 1) = false := by
  refine beq_false_of_ne fun he => ?_
  have hbit : ∀ j, j < 64 → (byteMask off 8).testBit j = true := fun j hj => by
    rw [he, Nat.testBit_two_pow_sub_one, decide_eq_true hj]
  have h0 := hbit 0 (by decide)
  have h1 := hbit 63 (by decide)
  rw [byteMask_testBit] at h0 h1
  simp only [Bool.and_eq_true, decide_eq_true_eq] at h0 h1
  omega

section
variable {s : State} {m : Packet}

/-- What a far atomic of 8 bytes leaves, and what it answers (R294). -/
structure FarDone (s : State) (m : Packet) (v : State) (q : Packet) : Prop where
  acted : HomeActed (pLine m) s v
  back : q.txid = m.txid ∧ q.dst = m.src ∧ q.holder = m.holder
  value : (llcPeek s (pLine m) 0).err = true ∧ q.cmd = .errRsp ∧ llcPeek v (pLine m) 0 = llcPeek s (pLine m) 0 ∨
    (llcPeek s (pLine m) 0).err = false ∧ q.cmd = .farRsp ∧ lineGet (llcPeek v (pLine m) 0).data (m.addr % 64) 8 =
      atomicNew m.aop 64 (lineGet (llcPeek s (pLine m) 0).data (m.addr % 64) 8) m.opnd.toNat m.cmp.toNat % 2 ^ 64

theorem finishOp_far (hcmd : m.cmd = .far) (hkey : m.keyid = 0) (hp : m.poison = false) (hsize : m.size = 8) (hoff : m.addr % 64 + 8 ≤ 64)
    (hgood : (llcPeek s (pLine m) 0).poison = false) : ∃ v q, finishOp s m false {} = send v q ∧ FarDone s m v q := by
  obtain ⟨u, hread, hrest, hkept, hpeek⟩ := llcRead_clean s (pLine m) m.partid m.world hgood
  cases herr : (llcPeek s (pLine m) 0).err with
  | true =>
    refine ⟨u, answer u m .errRsp, ?_, hrest.acted hkept, ⟨rfl, rfl, rfl⟩, .inl ⟨herr, rfl, hpeek⟩⟩
    rw [finishOp, hcmd]
    dsimp only
    rw [hkey, hread]
    exact if_pos herr
  | false =>
    obtain ⟨x, hx⟩ : ∃ x : State, { u with farLast := tset none (pLine m) (some (senderKey m, now u)) u.farLast } = x := ⟨_, rfl⟩
    have hux : HomeOnly u x ∧ (∀ l, MemKept l u x) ∧ llcPeek x (pLine m) 0 = llcPeek u (pLine m) 0 := by
      subst hx
      exact ⟨rfl, fun l => .refl l u, rfl⟩
    obtain ⟨hrest2, hkept2, hpeek2⟩ := hux
    have hsame : llcPeek x (pLine m) 0 = llcPeek s (pLine m) 0 := hpeek2.trans hpeek
    obtain ⟨y, hwrite, hrest3, hkept3, hvalue⟩ := llcWrite_clean x (pLine m) m.partid m.world
      (linePut 0 (m.addr % 64) m.size (atomicNew m.aop (8 * m.size) (lineGet (llcPeek s (pLine m) 0).data (m.addr % 64) m.size)
        m.opnd.toNat m.cmp.toNat)) (mask := byteMask (m.addr % 64) m.size) (by rw [hsize]; exact byteMask_part _) (by rw [hsame]; exact hgood)
      (by rw [hsame]; exact herr)
    have hresv := ResvOnly.breakResv y (coreOfStop m.src) m.addr m.size
    have hacted : HomeActed (pLine m) s (breakResv y (coreOfStop m.src) m.addr m.size) :=
      (((hrest.trans hrest2).trans hrest3).acted fun l hl => ((hkept l hl).trans (hkept2 l)).trans (hkept3 l hl)).trans (hresv.acted _)
    refine ⟨breakResv y (coreOfStop m.src) m.addr m.size, ?_⟩
    rw [finishOp, hcmd]
    dsimp only
    rw [hkey, hread]
    dsimp only
    rw [herr, if_neg Bool.false_ne_true, hgood, hp, Bool.false_or, if_neg Bool.false_ne_true, if_neg Bool.false_ne_true]
    rw [hx, hwrite]
    refine ⟨_, rfl, hacted, ⟨rfl, rfl, rfl⟩, .inr ⟨herr, rfl, ?_⟩⟩
    rw [hresv.llcPeek, hvalue, hsame, hsize]
    exact lineGet_lineMerge_same _ _ hoff

end

/-! ### The atomic of a posting record's hardware (R531) -/

section
variable {s : State} {m : Packet}

/-- A home takes an access to the byte address pa at once and finds no holder of its line, which it may change and which is not poisoned. -/
structure LineFree (s : State) (pa : Nat) (w : Bool) : Prop where
  live : stopDead s (lineStop s (pa / 64)) = false
  there : stopHeld s (lineStop s (pa / 64)) = false
  channel : chLost s (pa / 64) = false
  idle : busyOf s (pa / 64) = none
  room : busyCount s (pa / 64) < 56
  queue : ∀ p ∈ s.dirWait, pLine p ≠ pa / 64
  alone : ∀ p ∈ s.net, pLine p ≠ pa / 64
  none_ : (dirGet s (pa / 64)).st = .none_
  rights : worldAllows s w pa ⟨true, true⟩ = true
  good : (llcPeek s (pa / 64) 0).poison = false
  unfenced : ∀ h, h < 256 → fencedAt s (lineLoc s (pa / 64)).home h = false

theorem HomeFree.lineFree {pa : Nat} {w : Bool} (h : HomeFree s pa w) (n : Nat) : LineFree { s with txNext := n } pa w :=
  ⟨h.open_.live, h.open_.there, h.open_.channel, h.open_.idle, h.open_.room, h.open_.queue, h.open_.alone, h.none_, h.rights, h.good, h.unfenced⟩

/-- A request for a line that its home takes at once, of a holder that is none of the package's caches. -/
theorem homeReach_far (h : LineFree s m.addr m.world) (hcmd : m.cmd = .far) (hdst : m.dst = lineStop s (pLine m)) (hspkg : m.spkg = none)
    (hholder : m.holder = 0xFE) : homeReach s m {} = finishOp s m false {} := by
  obtain ⟨hlive, hthere, hchannel, hidle, hroom, hqueue, _, hnone, hrights, _, hunfenced⟩ := h
  have hfenced : fromFenced s m = false := by
    rw [fromFenced, hspkg]
    dsimp only
    rw [show fencedAt s (lineLoc s (pLine m)).home m.holder = false from hunfenced _ (by rw [hholder]; decide), Bool.and_false, Bool.false_or]
    by_cases hc : coreOfStop m.src < 240
    · rw [show fencedAt s (lineLoc s (pLine m)).home (coreOfStop m.src) = false from hunfenced _ (by omega), Bool.and_false]
    · rw [decide_eq_false hc, Bool.false_and]
  have hwait : s.dirWait.any (fun q => pLine q == pLine m) = false := List.any_eq_false.mpr fun q hq => by
    have hne : pLine q ≠ pLine m := hqueue q hq
    simpa using hne
  rw [homeReach, hdst]
  rw [show stopDead s (lineStop s (pLine m)) = false from hlive, show stopHeld s (lineStop s (pLine m)) = false from hthere,
    if_neg Bool.false_ne_true, if_neg Bool.false_ne_true, homeArrive]
  have hroom' : (decide (busyCount s (pLine m) ≥ busyFor m.cmd) || s.dirWait.any (fun q => pLine q == pLine m)) = false := by
    have hcount : busyCount s (pLine m) < 56 := hroom
    rw [hwait, Bool.or_false, hcmd, decide_eq_false_iff_not]
    exact Nat.not_le.mpr hcount
  rw [hfenced, if_neg Bool.false_ne_true, if_neg]
  · rw [show busyOf s (pLine m) = none from hidle]
    change (match busyOf s (pLine m) with
      | some b => setBusy s (pLine m) (some { b with waiting := b.waiting ++ [m] })
      | none => if (decide (busyCount s (pLine m) ≥ busyFor m.cmd) || s.dirWait.any (fun q => pLine q == pLine m)) = true
        then { s with dirWait := s.dirWait ++ [m] } else homeStart s m {}) = _
    rw [show busyOf s (pLine m) = none from hidle]
    dsimp only
    rw [hroom', if_neg Bool.false_ne_true, homeStart, hcmd]
    dsimp only
    rw [homeStart.startKill, show (dirGet s (pLine m)).st = .none_ from hnone]
  · rw [hcmd, show chLost s (pLine m) = false from hchannel, rightsOf, hcmd]
    dsimp only
    rw [hrights]
    decide

/-- It runs to rest: no message of the line is in flight. -/
theorem transact_far (h : LineFree s m.addr m.world) (hcmd : m.cmd = .far) (hdst : m.dst = lineStop s (pLine m)) (hspkg : m.spkg = none)
    (hholder : m.holder = 0xFE) (hkey : m.keyid = 0) (hp : m.poison = false) (hsize : m.size = 8) (hoff : m.addr % 64 + 8 ≤ 64) :
    ∃ v q, transact s m {} = send v q ∧ FarDone s m v q := by
  obtain ⟨v, q, hrun, hdone⟩ := finishOp_far hcmd hkey hp hsize hoff h.good
  refine ⟨v, q, ?_, hdone⟩
  have hnet : v.net = s.net := by
    have he := congrArg State.net hdone.acted.rest
    exact he
  have hnone : takeAny (settles (send v q) (pLine m)) (send v q) = none := by
    have hfind : (send v q).net.find? (settles (send v q) (pLine m)) = none := List.find?_eq_none.mpr fun p hpm => by
      rcases List.mem_append.mp hpm with hold | hnew
      · rw [hnet] at hold
        have hne : pLine p ≠ pLine m := h.alone p hold
        simp [settles, hne]
      · obtain rfl := List.mem_singleton.mp hnew
        have hnum : q.holder = 0xFE := hdone.back.2.2.trans hholder
        simp [settles, hnum]
    rw [takeAny, hfind]
  rw [transact, homeReach_far h hcmd hdst hspkg hholder, hrun]
  show settle (pLine m) (4095 + 1) (send v q) = send v q
  rw [settle, hnone]

theorem cohPeek_none {l : Nat} (h : (dirGet s l).st = .none_) (k : Nat) : cohPeek s l k = llcPeek s l k := by
  rw [cohPeek, h]
  rfl

/-- From s to t an operation on a posting record has been performed at the home of a line: L3s, memory, reservations of cores and the
numbers of transactions and packets may have changed, and nothing else. -/
structure RecordActed (line : Nat) (s t : State) : Prop where
  rest : { t with l3 := s.l3, l3Lfsr := s.l3Lfsr, dram := s.dram, poisoned := s.poisoned, farLast := s.farLast, cores := s.cores,
                  txNext := s.txNext, sendNo := s.sendNo } = s
  cores : ∀ c, ∃ r, getCore t c = { getCore s c with resv := r }
  kept : ∀ l, l ≠ line → MemKept l s t

theorem HomeActed.record {line : Nat} {v : State} (h : HomeActed line { s with txNext := s.txNext + 1 } v) :
    RecordActed line s { v with sendNo := v.sendNo + 1 } where
  rest := by
    calc { v with l3 := s.l3, l3Lfsr := s.l3Lfsr, dram := s.dram, poisoned := s.poisoned, farLast := s.farLast, cores := s.cores,
                  txNext := s.txNext, sendNo := s.sendNo }
        = { ({ v with l3 := s.l3, l3Lfsr := s.l3Lfsr, dram := s.dram, poisoned := s.poisoned, farLast := s.farLast, cores := s.cores } : State) with
            txNext := s.txNext, sendNo := s.sendNo } := rfl
      _ = s := by rw [h.rest]
  cores := h.cores
  kept := h.kept

/-- The packet sent last is the one taken when no other fits. -/
theorem takeAny_send {f : Packet → Bool} {v : State} {q : Packet} (hold : ∀ p ∈ v.net, f p = false)
    (hnew : f { q with since := v.ptime.toNat, urg := 0, stream := streamOf q, ord := v.sendNo } = true) :
    takeAny f (send v q) = some ({ q with since := v.ptime.toNat, urg := 0, stream := streamOf q, ord := v.sendNo }, { v with sendNo := v.sendNo + 1 }) := by
  have hnot : { q with since := v.ptime.toNat, urg := 0, stream := streamOf q, ord := v.sendNo } ∉ v.net := fun hm => by
    rw [hold _ hm] at hnew
    cases hnew
  obtain ⟨q', hq'⟩ : ∃ q', ({ q with since := v.ptime.toNat, urg := 0, stream := streamOf q, ord := v.sendNo } : Packet) = q' := ⟨_, rfl⟩
  rw [takeAny, send]
  dsimp only
  rw [hq'] at hnew hnot ⊢
  have hfind : (v.net ++ [q']).find? f = some q' := by
    rw [List.find?_append, List.find?_eq_none.mpr fun p hp => by rw [hold p hp]; exact Bool.false_ne_true, List.find?_singleton, if_pos hnew]
    rfl
  rw [hfind]
  dsimp only
  rw [List.erase_append_right _ hnot, List.erase_cons_head, List.append_nil]

/-- The next atomic of an operation on a posting record, at a line that nobody holds: it is answered at once, and its word has its new
value, where memory answers (R294, R531). -/
theorem hwAsk_free {o : HwOp} {pa aop : Nat} {x : Word} (hfar : hwFar o = (pa, aop, x)) (h : HomeFree s pa o.world) (hoff : pa % 64 + 8 ≤ 64) :
    ∃ r t, hwAsk s o = (some r, t) ∧ RecordActed (pa / 64) s t ∧
      ((llcPeek s (pa / 64) 0).err = true ∧ homeWord t pa = homeWord s pa ∨
        (llcPeek s (pa / 64) 0).err = false ∧ homeWord t pa = atomicNew aop 64 (homeWord s pa) x.toNat 0 % 2 ^ 64) := by
  obtain ⟨u, hu⟩ : ∃ u, ({ s with txNext := s.txNext + 1 } : State) = u := ⟨_, rfl⟩
  obtain ⟨m, hm⟩ : ∃ m : Packet, m = { cmd := .far, src := o.st, dst := lineStop u (pa / 64), txid := s.txNext % 0x10000, world := o.world, addr := pa,
                                       holder := 0xFE, aop := aop, size := 8, opnd := x } := ⟨_, rfl⟩
  have hfree : LineFree u m.addr m.world := by
    subst hu hm
    exact h.lineFree _
  obtain ⟨v, q, hrun, hdone⟩ := transact_far hfree (by rw [hm]) (by rw [hm]; rfl) (by rw [hm]) (by rw [hm]) (by rw [hm]) (by rw [hm]) (by rw [hm])
    (by rw [hm]; exact hoff)
  have hline : pLine m = pa / 64 := by rw [hm]; rfl
  have hnet : v.net = s.net := by
    have he := congrArg State.net hdone.acted.rest
    exact he.trans (hu ▸ rfl)
  obtain ⟨hqtx, hqdst, _⟩ := hdone.back
  have hq : q.cmd = .farRsp ∨ q.cmd = .errRsp := by
    rcases hdone.value with ⟨_, hq, _⟩ | ⟨_, hq, _⟩
    · exact .inr hq
    · exact .inl hq
  have htake := takeAny_send (v := v) (q := q)
    (f := fun p => p.txid == s.txNext % 0x10000 && p.dst == o.st && (p.cmd == .farRsp || p.cmd == .errRsp))
    (fun p hp => by
      have hne : p.txid ≠ s.txNext % 0x10000 := h.open_.fresh p (hnet ▸ hp) 0 (by decide)
      simp [hne])
    (by
      dsimp only
      rw [hqtx, hqdst, hm]
      rcases hq with hq | hq <;> simp [hq])
  have hask : ∃ r, hwAsk s o = (some r, { v with sendNo := v.sendNo + 1 }) := by
    rw [hwAsk, hfar]
    dsimp only [newTxid]
    have hlocal : isLocalMem { s with txNext := s.txNext + 1 } pa = true := h.here
    rw [if_neg (by rw [h.here]; simp), if_neg (by rw [hlocal]; simp), hu, ← hm, hrun, htake]
    exact ⟨_, rfl⟩
  obtain ⟨r, hask⟩ := hask
  have hacted : HomeActed (pa / 64) { s with txNext := s.txNext + 1 } v := by
    rw [hu, ← hline]
    exact hdone.acted
  have hpeek : llcPeek u (pa / 64) 0 = llcPeek s (pa / 64) 0 := hu ▸ rfl
  have hdir : dirGet { v with sendNo := v.sendNo + 1 } (pa / 64) = dirGet s (pa / 64) := by
    have he := congrArg (fun y : State => dirGet y (pa / 64)) hacted.rest
    exact he
  have hs : homeWord s pa = lineGet (llcPeek s (pa / 64) 0).data (pa % 64) 8 := by rw [homeWord, cohPeek_none h.none_]
  have ht : homeWord { v with sendNo := v.sendNo + 1 } pa = lineGet (llcPeek v (pa / 64) 0).data (pa % 64) 8 := by
    rw [homeWord, cohPeek_none (hdir ▸ h.none_)]
    rfl
  have hvalue := hdone.value
  rw [hline, hpeek] at hvalue
  refine ⟨r, _, hask, hacted.record, ?_⟩
  rw [hs, ht]
  rcases hvalue with ⟨herr, _, hsame⟩ | ⟨herr, _, hnew⟩
  · exact .inl ⟨herr, by rw [hsame]⟩
  · refine .inr ⟨herr, ?_⟩
    rw [hm] at hnew
    exact hnew

end

end Sys2Proof.Machine
end


section
/-! PROOFS. Posting records, the guest interface, timers (R532 to R534, R536). -/
namespace Sys2Proof.Machine

open Sys2Proof

/-! ### A post that sends no notification (R532) -/

section
variable {line l : Nat} {s t : State}

/-- A line that no L3 holds has its value where an operation on another line leaves it. -/
theorem RecordActed.llcPeek (h : RecordActed line s t) (hl : l ≠ line) (hv : (l3Line s l).valid = false) : llcPeek t l 0 = llcPeek s l 0 := by
  have hread : Machine.llcPeek t l 0 = Machine.llcPeek { t with cores := s.cores, txNext := s.txNext, sendNo := s.sendNo } l 0 := rfl
  rw [hread]
  exact llcPeek_kept h.rest (h.kept l hl) hv

theorem RecordActed.dirGet (h : RecordActed line s t) (l : Nat) : dirGet t l = dirGet s l := by
  have he := congrArg (fun y : State => Machine.dirGet y l) h.rest
  exact he

theorem RecordActed.hwQuiet (h : RecordActed line s t) (st : StopId) (rec l : Nat) : hwQuiet t st rec l = hwQuiet s st rec l := by
  have he := congrArg (fun y : State => Machine.hwQuiet y st rec l) h.rest
  exact he

theorem RecordActed.net (h : RecordActed line s t) : t.net = s.net := by
  have he := congrArg State.net h.rest
  exact he

theorem cxlWindow_block (s : State) {l l' : Nat} (h : l / 4 = l' / 4) : cxlWindow s (l * 64) = cxlWindow s (l' * 64) := by
  unfold cxlWindow
  refine congrArg (fun f => List.find? f (List.range 16)) (funext fun n => ?_)
  dsimp only
  generalize fld (rg s .cxlwbase n) 51 28 = base
  generalize rgF s .cxlwctl n 63 46 = size
  rw [decide_eq_decide.mpr (show base * 0x10000000 ≤ l * 64 ↔ base * 0x10000000 ≤ l' * 64 by omega),
    decide_eq_decide.mpr (show l * 64 < base * 0x10000000 + size * 0x10000000 ↔ l' * 64 < base * 0x10000000 + size * 0x10000000 by omega)]

theorem cxlTarget_block (s : State) (n : Nat) {l l' : Nat} (h : l / 4 = l' / 4) : cxlTarget s n (l * 64) = cxlTarget s n (l' * 64) := by
  unfold cxlTarget
  dsimp only
  generalize rgF s .cxlwbase n 51 28 = base
  have hblock : (l * 64 - base * 0x10000000) >>> 8 = (l' * 64 - base * 0x10000000) >>> 8 := by
    rw [Nat.shiftRight_eq_div_pow, Nat.shiftRight_eq_div_pow]
    omega
  rw [Nat.shiftRight_add, Nat.shiftRight_add, hblock]

/-- The lines of one 256-byte block are reached or not together (R392). -/
theorem cxlDead_block (s : State) {l l' : Nat} (h : l / 4 = l' / 4) : cxlDead s l = cxlDead s l' := by
  unfold cxlDead
  rw [cxlWindow_block s h]
  split
  · rfl
  · rw [cxlTarget_block s _ h]

/-- A line whose value is not all zeros is one that memory answers for, where no L3 holds it. -/
theorem memAnswers_of_data (hv : (l3Line s l).valid = false) (hd : (Machine.llcPeek s l 0).data ≠ 0) : memAnswers s l 0 = true := by
  by_contra ha
  have hmiss : (l3Use s (lineLoc s l).home && (l3Line s l).valid) = false := by rw [hv, Bool.and_false]
  rw [llcPeek_dead hmiss (Bool.eq_false_iff.mpr ha)] at hd
  exact hd rfl

/-- A line whose memory answers has no error. -/
theorem llcPeek_answers (ha : memAnswers s l 0 = true) : (Machine.llcPeek s l 0).err = false := by
  cases hhit : l3Use s (lineLoc s l).home && (l3Line s l).valid with
  | true => exact congrArg LineRead.err (llcPeek_hit hhit 0)
  | false => exact congrArg LineRead.err (llcPeek_mem hhit ha)

/-- The control line of a record whose notifications are off is in memory, which answers for the whole record. -/
theorem PostQuiet.answers {r v : Nat} (h : PostQuiet s r v) (hv : v < 1024) :
    (Machine.llcPeek s ((r * 256 + v / 64 * 8) / 64) 0).err = false := by
  have hdata : (Machine.llcPeek s (r * 4 + 2) 0).data ≠ 0 := fun he => by
    have hsn := h.sn
    rw [he, bitOf, lineGet_testBit] at hsn
    simp at hsn
  have hctl := memAnswers_of_data h.ctlMem hdata
  have hblock : (r * 256 + v / 64 * 8) / 64 / 4 = (r * 4 + 2) / 4 := by omega
  refine llcPeek_answers ?_
  rw [memAnswers, Bool.and_eq_true, Bool.and_eq_true] at hctl ⊢
  exact ⟨⟨hctl.1.1, by rw [h.pend.open_.channel]; rfl⟩, by rw [cxlDead_block s hblock]; exact hctl.2⟩

theorem homeWord_lt (s : State) (pa : Nat) : homeWord s pa < 2 ^ 64 := lineGet_lt ..

/-- The control word of a quiet record is read at once, and ends the post. -/
theorem hwRun_ctl {n r v : Nat} {o : HwOp} (h : PostQuiet s r v) (hv : v < 1024) (ha : RecordActed ((r * 256 + v / 64 * 8) / 64) s t)
    (hst : o.st = ⟨12, 18⟩) (hrec : o.record = r * 256) (hact : o.act = .ctl) : hwRun (n + 1) t o = t := by
  have hline : r * 4 + 2 ≠ (r * 256 + v / 64 * 8) / 64 := by omega
  have hread : BitVec.ofNat 64 (lineGet (peekLine t (r * 256 + 0x80) 0) ((r * 256 + 0x80) % 64) 8) =
      BitVec.ofNat 64 (lineGet (Machine.llcPeek s (r * 4 + 2) 0).data 0 8) := by
    rw [peekLine, show (r * 256 + 0x80) / 64 = r * 4 + 2 by omega, show (r * 256 + 0x80) % 64 = 0 by omega,
      cohPeek_none (by rw [ha.dirGet]; exact h.ctlNone), ha.llcPeek hline h.ctlMem]
  have hquiet : Machine.hwQuiet t o.st o.record (o.record / 64 + 2) = true := by
    rw [ha.hwQuiet, hst, hrec, show r * 256 / 64 + 2 = r * 4 + 2 by omega]
    exact h.ctl
  have hsn : bit (BitVec.ofNat 64 (lineGet (Machine.llcPeek s (r * 4 + 2) 0).data 0 8)) 1 = true := by
    rw [bit, BitVec.getLsbD_ofNat]
    exact h.sn
  rw [hwRun]
  dsimp only
  rw [hact, if_neg (fun he => by cases he.1), if_pos ⟨rfl, hquiet⟩, hrec, hread]
  dsimp only [hwAfter]
  rw [hact]
  dsimp only
  rw [hsn, if_pos rfl]

/-- A post to a quiet record sets the INTID's bit in PEND (R532). -/
theorem postTo_quiet {r v : Nat} (h : PostQuiet s r v) (hv : v < 1024) : ∃ t, postTo s (r * 256) v = t ∧
    RecordActed ((r * 256 + v / 64 * 8) / 64) s t ∧
    homeWord t (r * 256 + v / 64 * 8) = homeWord s (r * 256 + v / 64 * 8) ||| 2 ^ (v % 64) := by
  obtain ⟨o, ho⟩ : ∃ o : HwOp, o = { st := ⟨12, 18⟩, world := false, record := r * 256, act := .pend v } := ⟨_, rfl⟩
  have hfar : hwFar o = (r * 256 + v / 64 * 8, 3, (1 : Word) <<< (v % 64)) := by rw [ho]; rfl
  obtain ⟨x, t, hask, hacted, hvalue⟩ := hwAsk_free (s := s) (o := o) hfar (by rw [ho]; exact h.pend) (by omega)
  refine ⟨t, ?_, hacted, ?_⟩
  · rw [postTo, hwDo, ← ho]
    show hwRun (19 + 1) s o = t
    have hact : o.act = .pend v := by rw [ho]
    rw [hwRun]
    dsimp only
    rw [if_neg (fun he => by rw [hact] at he; cases he.1), if_neg (fun he => by rw [hact] at he; cases he.1),
      if_neg (fun he => by rw [hact] at he; cases he), hask]
    dsimp only [hwAfter]
    rw [hact]
    dsimp only
    exact hwRun_ctl h hv hacted (by rw [ho]) (by rw [ho]) rfl
  · rcases hvalue with ⟨herr, _⟩ | ⟨_, hnew⟩
    · rw [h.answers hv] at herr
      cases herr
    · have hone : ((1 : Word) <<< (v % 64)).toNat = 2 ^ (v % 64) := by
        rw [BitVec.toNat_shiftLeft, Nat.shiftLeft_eq]
        exact (congrArg (· % 2 ^ 64) (Nat.one_mul _)).trans (Nat.mod_eq_of_lt (Nat.pow_lt_pow_right (by decide) (Nat.mod_lt _ (by decide))))
      have hor : homeWord s (r * 256 + v / 64 * 8) ||| 2 ^ (v % 64) < 2 ^ 64 :=
        Nat.or_lt_two_pow (homeWord_lt ..) (Nat.pow_lt_pow_right (by decide) (Nat.mod_lt _ (by decide)))
      rw [hnew, hone]
      show (homeWord s (r * 256 + v / 64 * 8) ||| 2 ^ (v % 64) % 2 ^ 64) % 2 ^ 64 = _
      rw [Nat.mod_eq_of_lt (Nat.pow_lt_pow_right (by decide) (Nat.mod_lt _ (by decide))), Nat.mod_eq_of_lt hor]

/-- An error completion bears no data. -/
theorem llcPeek_err (herr : (Machine.llcPeek s l 0).err = true) : Machine.llcPeek s l 0 = { err := true } := by
  cases ha : memAnswers s l 0 with
  | true => rw [llcPeek_answers ha] at herr; cases herr
  | false =>
    cases hhit : l3Use s (lineLoc s l).home && (l3Line s l).valid with
    | false => exact llcPeek_dead hhit ha
    | true =>
      have hgood : (Machine.llcPeek s l 0).err = false := congrArg LineRead.err (llcPeek_hit hhit 0)
      rw [hgood] at herr
      cases herr

/-- The word with one bit clear. -/
theorem testBit_clearMask (k j : Nat) (hj : j < 64) : (~~~((1 : Word) <<< k)).toNat.testBit j = decide (j ≠ k) := by
  have hone : BitVec.getLsbD (1 : Word) (j - k) = decide (j - k = 0) := by
    show (1#64).getLsbD (j - k) = _
    simp [BitVec.getLsbD_one]
  rw [BitVec.testBit_toNat, BitVec.getLsbD_not, BitVec.getLsbD_shiftLeft, hone]
  rcases Nat.lt_trichotomy j k with h | h | h
  · simp [hj, h, h.ne]
  · simp [h]
  · have h1 : ¬j < k := by omega
    have h2 : j - k ≠ 0 := by omega
    simp [hj, h1, h2, h.ne']

/-- The atomic AND that takes a bit of PEND away (R534). -/
theorem hwDo_ack {st : StopId} {w : Bool} {rec i : Nat} (h : HomeFree s (rec + i / 64 * 8) w) (hrec : rec % 256 = 0) : ∃ t,
    hwDo s st w rec (.ack i) = t ∧ RecordActed ((rec + i / 64 * 8) / 64) s t ∧
      ∀ j, (homeWord t (rec + i / 64 * 8)).testBit j = (decide (j ≠ i % 64) && (homeWord s (rec + i / 64 * 8)).testBit j) := by
  obtain ⟨o, ho⟩ : ∃ o : HwOp, o = { st := st, world := w, record := rec, act := .ack i } := ⟨_, rfl⟩
  have hfar : hwFar o = (rec + i / 64 * 8, 2, ~~~((1 : Word) <<< (i % 64))) := by rw [ho]; rfl
  obtain ⟨x, t, hask, hacted, hvalue⟩ := hwAsk_free (s := s) (o := o) hfar (by rw [ho]; exact h) (by omega)
  refine ⟨t, ?_, hacted, fun j => ?_⟩
  · have hact : o.act = .ack i := by rw [ho]
    rw [hwDo, ← ho]
    show hwRun (19 + 1) s o = t
    rw [hwRun]
    dsimp only
    rw [if_neg (fun he => by rw [hact] at he; cases he.1), if_neg (fun he => by rw [hact] at he; cases he.1),
      if_neg (fun he => by rw [hact] at he; cases he), hask]
    dsimp only [hwAfter]
    rw [hact]
  · have hlt : homeWord s (rec + i / 64 * 8) < 2 ^ 64 := homeWord_lt ..
    have hhigh : ∀ j, 64 ≤ j → (homeWord s (rec + i / 64 * 8)).testBit j = false := fun j hj =>
      Nat.testBit_lt_two_pow (Nat.lt_of_lt_of_le hlt (Nat.pow_le_pow_right (by decide) hj))
    rcases hvalue with ⟨herr, hsame⟩ | ⟨_, hnew⟩
    · have hzero : (homeWord s (rec + i / 64 * 8)).testBit j = false := by
        rw [homeWord, cohPeek_none h.none_, llcPeek_err herr, lineGet_testBit]
        simp
      rw [hsame, hzero, Bool.and_false]
    · rw [hnew, Nat.testBit_mod_two_pow]
      show (decide (j < 64) && (homeWord s (rec + i / 64 * 8) &&& (~~~((1 : Word) <<< (i % 64))).toNat % 2 ^ 64).testBit j) = _
      rw [Nat.testBit_and, Nat.testBit_mod_two_pow]
      by_cases hj : j < 64
      · rw [testBit_clearMask _ _ hj, decide_eq_true hj]
        simp [Bool.and_comm]
      · rw [hhigh j (by omega)]
        simp

end

/-! ### The guest interface (R534) -/

/-- A number with a bit that is set taken away. -/
theorem testBit_sub_two_pow {i : Nat} : ∀ {n : Nat}, n.testBit i = true → ∀ j, (n - 2 ^ i).testBit j = (decide (j ≠ i) && n.testBit j) := by
  induction i with
  | zero =>
    intro n hn j
    have hodd : n % 2 = 1 := by simpa [Nat.testBit_zero] using hn
    cases j with
    | zero =>
      have heven : (n - 2 ^ 0) % 2 = 0 := by omega
      simp only [Nat.testBit_zero, heven]
      simp
    | succ j =>
      have hhalf : (n - 2 ^ 0) / 2 = n / 2 := by omega
      rw [Nat.testBit_succ, hhalf, ← Nat.testBit_succ]
      simp
  | succ i ih =>
    intro n hn j
    rw [Nat.testBit_succ] at hn
    have hpow : 2 ^ (i + 1) = 2 * 2 ^ i := Nat.pow_succ' ..
    have hle : 2 ^ i ≤ n / 2 := Nat.ge_two_pow_of_testBit hn
    cases j with
    | zero =>
      have hpar : (n - 2 ^ (i + 1)) % 2 = n % 2 := by omega
      simp only [Nat.testBit_zero, hpar]
      simp
    | succ j =>
      have hhalf : (n - 2 ^ (i + 1)) / 2 = n / 2 - 2 ^ i := by omega
      rw [Nat.testBit_succ, hhalf, ih hn, Nat.testBit_succ]
      simp

/-- A priority pushed onto VIRUNPRI. -/
theorem pushPri_spec {v : Word} {p : Nat} (hd : fld v 2 0 < 7) (hp : p < 256) : fld (pushPri v p) 2 0 = fld v 2 0 + 1 ∧
    fld (pushPri v p) (8 * fld v 2 0 + 15) (8 * fld v 2 0 + 8) = p := by
  rw [pushPri]
  refine ⟨?_, ?_⟩
  · rw [fld_setFld_same _ _ _ _ (by decide) (by decide)]
    exact Nat.mod_eq_of_lt (by omega)
  · rw [fld_setFld_ne _ _ _ _ _ _ (by decide) (by decide) (by omega), fld_setFld_same _ _ _ _ (by omega) (by omega),
      show 8 * fld v 2 0 + 15 + 1 - (8 * fld v 2 0 + 8) = 8 by omega]
    exact Nat.mod_eq_of_lt hp

/-- The last priority popped from VIRUNPRI. -/
theorem popPri_spec {v : Word} (hd : 0 < fld v 2 0) : fld (popPri v) 2 0 = fld v 2 0 - 1 ∧
    ∀ j, j < fld v 2 0 - 1 → fld (popPri v) (8 * j + 15) (8 * j + 8) = fld v (8 * j + 15) (8 * j + 8) := by
  have hlt : fld v 2 0 < 2 ^ 3 := fld_lt ..
  rw [popPri, if_neg (by omega)]
  refine ⟨?_, fun j hj => ?_⟩
  · rw [fld_setFld_same _ _ _ _ (by decide) (by decide)]
    exact Nat.mod_eq_of_lt (by omega)
  · rw [fld_setFld_ne _ _ _ _ _ _ (by decide) (by decide) (by omega), fld_setFld_ne _ _ _ _ _ _ (by omega) (by omega) (by omega)]

/-- What a virtual interrupt signalled to a guest is. -/
theorem guestSigs_spec {s : State} {c : Nat} {g : Sig} (h : g ∈ guestSigs s c) : g.intid < 1024 ∧ g.prio = g.intid / 4 ∧
    (getCore s c).vpend.testBit g.intid = true ∧ fld (sysGet s c 0x813 false) 2 0 < 7 := by
  unfold guestSigs at h
  dsimp only at h
  split at h
  · obtain ⟨v, hv, rfl⟩ := List.mem_map.mp h
    obtain ⟨hrange, hkeep⟩ := List.mem_filter.mp hv
    simp only [mayPass, Bool.and_eq_true, decide_eq_true_eq] at hkeep
    exact ⟨List.mem_range.mp hrange, rfl, hkeep.1, hkeep.2.2⟩
  · cases h

theorem CoreOnly.homeWord {c : Nat} {u t : State} (h : CoreOnly c u t) (pa : Nat) : homeWord t pa = homeWord u pa := by
  have hread : Machine.homeWord t pa = Machine.homeWord { t with cores := u.cores, freeCtr := u.freeCtr } pa := rfl
  rw [hread, h.1]

/-- A read of VIACK that finds an interrupt: its bit goes from the record and from what the core has read, its priority onto VIRUNPRI. -/
theorem readViack_some {s : State} {c : Nat} {g : Sig} (hg : bestSig (guestSigs s c) = some g)
    (hfree : HomeFree s (vpostRecord s c + g.intid / 64 * 8) (secOf (getCore s c))) : ∃ w, readViack s c = (iackWord (some g), w) ∧
      (∃ resv vpend sys, getCore w c = { getCore s c with resv := resv, vpend := vpend, sys := sys }) ∧
      (∀ j, (getCore w c).vpend.testBit j = (decide (j ≠ g.intid) && (getCore s c).vpend.testBit j)) ∧
      (∀ j, (homeWord w (vpostRecord s c + g.intid / 64 * 8)).testBit j =
        (decide (j ≠ g.intid % 64) && (homeWord s (vpostRecord s c + g.intid / 64 * 8)).testBit j)) ∧
      sysGet w c 0x813 false = pushPri (sysGet s c 0x813 false) g.prio ∧
      (∀ n x, n < 0x1000 → n ≠ 0x813 → sysGet w c n x = sysGet s c n x) := by
  obtain ⟨_, _, hset, _⟩ := guestSigs_spec (bestSig_spec hg).1
  have hagain : HomeFree (readAgain s c) (vpostRecord s c + g.intid / 64 * 8) (secOf (getCore s c)) :=
    ⟨⟨hfree.open_.here, hfree.open_.live, hfree.open_.there, hfree.open_.channel, hfree.open_.idle, hfree.open_.room, hfree.open_.queue,
      hfree.open_.alone, hfree.open_.fresh⟩, hfree.here, hfree.none_, hfree.rights, hfree.good, hfree.unfenced⟩
  obtain ⟨t, ht, hacted, hword⟩ := hwDo_ack (st := coreStop c) hagain (Nat.mul_mod_left ..)
  obtain ⟨r, hcore⟩ := hacted.cores c
  have hk : getCore t c = { getCore s c with resv := r } := hcore
  obtain ⟨x, hx⟩ : ∃ x, setCore t c { getCore t c with
    vpend := if (getCore t c).vpend.testBit g.intid then (getCore t c).vpend - 2 ^ g.intid else (getCore t c).vpend } = x := ⟨_, rfl⟩
  have hkx : getCore x c = { getCore s c with resv := r, vpend := (getCore s c).vpend - 2 ^ g.intid } := by
    rw [← hx, core_setCore_same, hk]
    dsimp only
    rw [if_pos hset]
  have hsys : ∀ n w, sysGet x c n w = sysGet s c n w := sysGet_congr (by rw [hkx])
  refine ⟨sysSet x c 0x813 false (pushPri (sysGet x c 0x813 false) g.prio), ?_, ?_, fun j => ?_, fun j => ?_, ?_, fun n w hn hne => ?_⟩
  · rw [readViack, hg]
    dsimp only
    rw [ht, hx]
  · exact ⟨_, _, _, by rw [sysSet, core_setCore_same, hkx]⟩
  · rw [sysSet, core_setCore_same, hkx]
    exact testBit_sub_two_pow hset j
  · have honly : CoreOnly c t (sysSet x c 0x813 false (pushPri (sysGet x c 0x813 false) g.prio)) := hx ▸ (CoreOnly.setCore ..).trans (.sysSet ..)
    rw [honly.homeWord, hword]
    rfl
  · rw [sysGet_sysSet_same, hsys]
  · rw [sysGet_sysSet_ne (sysKey_ne hne hn (by decide)), hsys]

/-- A write of VIEOI by a core whose interrupt is on VIRUNPRI pops it; what else it does is the re-reading of PEND. -/
theorem writeVieoi_pops {s : State} {c i : Nat} (hc : c < 241) (hi : i < 1024) (hd : 0 < fld (sysGet s c 0x813 false) 2 0)
    (hlast : fld (sysGet s c 0x813 false) (8 * (fld (sysGet s c 0x813 false) 2 0 - 1) + 15) (8 * (fld (sysGet s c 0x813 false) 2 0 - 1) + 8) = i / 4)
    (hquiet : PendQuiet s c) : (∃ vpend sys, getCore (writeVieoi s c i) c = { getCore s c with vpend := vpend, sys := sys }) ∧
      sysGet (writeVieoi s c i) c 0x813 false = popPri (sysGet s c 0x813 false) := by
  have hhas : i < 1024 ∧ ((List.range (fld (sysGet s c 0x813 false) 2 0)).any
      (fun j => fld (sysGet s c 0x813 false) (8 * j + 15) (8 * j + 8) == i / 4)) = true :=
    ⟨hi, List.any_eq_true.mpr ⟨_, List.mem_range.mpr (Nat.sub_lt hd Nat.one_pos), beq_iff_eq.mpr hlast⟩⟩
  obtain ⟨x, hx⟩ : ∃ x, sysSet s c 0x813 false (popPri (sysGet s c 0x813 false)) = x := ⟨_, rfl⟩
  have hrun : writeVieoi s c i = rereadPend x c := by
    rw [writeVieoi, if_pos hhas, hx]
  have hkx : ∃ sys, getCore x c = { getCore s c with sys := sys } := ⟨_, by rw [← hx, sysSet, core_setCore_same]⟩
  obtain ⟨sys, hkx⟩ := hkx
  have honly : CoreOnly c s x := hx ▸ .sysSet ..
  have hpop : sysGet x c 0x813 false = popPri (sysGet s c 0x813 false) := hx ▸ sysGet_sysSet_same ..
  have heff : ∀ w, sysEff x c 0x504 w = sysEff s c 0x504 w := fun w => sysEff_congr (by rw [hkx])
    (hx ▸ sysGet_sysSet_ne (sysKey_ne (by decide) (by decide) (by decide)))
  obtain ⟨v, hv⟩ := rereadPend_core (s := x) hc fun hon => by
    have hen : bit (sysEff s c 0x504 (secOf (getCore x c))) 0 = true := by
      rw [guestOn, heff] at hon
      simp only [Bool.and_eq_true] at hon
      exact hon.2
    rw [pendQuiet_coreOnly honly, vpostRecord, heff]
    exact (hquiet _).1 hen
  rw [hrun]
  rcases hv with hv | hv
  · rw [hv]
    exact ⟨⟨_, _, hkx⟩, hpop⟩
  · rw [hv, core_setCore_same, hkx]
    exact ⟨⟨_, _, rfl⟩, (sysGet_congr (by simp [hkx]) 0x813 false).trans hpop⟩

/-! ### Notifications and timers (R533, R536) -/

/-- Whether a guest interface is in use, and its record, are its core's. -/
theorem guestOn_congr {s t : State} {c : Nat} (h : getCore t c = getCore s c) : guestOn t c = guestOn s c ∧ vpostRecord t c = vpostRecord s c := by
  have heff : ∀ n w, sysEff t c n w = sysEff s c n w := fun n w => sysEff_congr (by rw [h]) (sysGet_congr (by rw [h]) n w)
  refine ⟨?_, ?_⟩
  · rw [guestOn, guestOn, heff, heff, h]
  · rw [vpostRecord, vpostRecord, heff, h]

/-- A notification of a record that the core's guest interface does not name raises its local source. -/
theorem postArrive_source {s u : State} {c : Nat} {p : Packet} (htake : takePacket (fun p => p.cmd == .irq && p.holder == 1 && p.dst == coreStop c) s = some (p, u))
    (h : guestOn s c = false ∨ vpostRecord s c ≠ p.addr) : getCore (postArrive s c) c = { getCore s c with postPend := true } ∧
      (postArrive s c).net = u.net ∧ (postArrive s c).dram = s.dram ∧ ∀ c', c' ≠ c → getCore (postArrive s c) c' = getCore s c' := by
  have harr := gArrive_arrived u p
  obtain ⟨v, hv⟩ : ∃ v, gArrive u p = v := ⟨_, rfl⟩
  rw [hv] at harr
  have hcore : ∀ c', getCore v c' = getCore s c' := fun c' => (harr.core c').trans (takeAny_getCore htake c')
  have hdram : u.dram = s.dram := by
    obtain ⟨rfl, _⟩ := takeAny_eq htake
    rfl
  obtain ⟨hon, hrec⟩ := guestOn_congr (hcore c)
  have hno : ¬(guestOn v c = true ∧ vpostRecord v c = p.addr) := fun ⟨h1, h2⟩ => by
    rw [hon] at h1
    rw [hrec] at h2
    rcases h with h | h
    · rw [h] at h1
      cases h1
    · exact h h2
  have hrun : postArrive s c = setCore v c { getCore v c with postPend := true } := by
    rw [postArrive, htake]
    dsimp only
    rw [hv, if_neg hno]
  rw [hrun, core_setCore_same, hcore]
  exact ⟨rfl, harr.net, harr.dram.trans hdram, fun c' hne => (core_setCore_ne hne).trans (hcore c')⟩

/-- A timer's source is pending exactly when its condition holds. -/
theorem timerFires_pending (s : State) (c lv : Nat) (w : Bool) :
    (getCore (timerFires s c lv w) c).timerPend.contains (timerKey lv (w || decide (lv = 3))) = timerCond s c lv (w || decide (lv = 3)) := by
  rw [timerFires, core_setCore_same]
  dsimp only
  generalize (w || decide (lv = 3)) = w'
  cases timerCond s c lv w' with
  | true => simp
  | false => simp

/-- A timer that fires changes nothing but the core's pending timers. -/
theorem timerFires_only (s : State) (c lv : Nat) (w : Bool) :
    timerFires s c lv w = setCore s c { getCore s c with timerPend := (getCore (timerFires s c lv w) c).timerPend } := by
  rw [timerFires, core_setCore_same]

/-! ### The statement -/

/-- What a retired instruction keeps of the core's reading of PEND. -/
theorem vpend_complete_dSet {x : State} {c r : Nat} {z pc : Word} (hss : bit (getCore x c).cstat 7 = false) (hst : (getCore x c).stepping = false) :
    (getCore (complete (dSet x c r z) c pc) c).vpend = (getCore x c).vpend := by
  obtain ⟨d, hd⟩ := core_dSet x c r z
  obtain ⟨_, _, hk⟩ := complete_core (s := dSet x c r z) (c := c) pc (by rw [hd]; exact hss) (by rw [hd]; exact hst)
  rw [hk, hd]

/-- VISGI to a quiet record (R532). -/
theorem visgi_posts {c : CoreId} {rt : BitVec 5} {s : State} (h : Runs s c) (hc : c.val ≠ 240)
    (hcheck : sysCheck (fetched s c) c rt.toNat 0x815 true (wordS ⟨rt, 0x815⟩ 0x002) = none)
    (hq : PostQuiet (fetched s c) (fld (dGet (fetched s c) c rt.toNat) 51 8) (fld (dGet (fetched s c) c rt.toNat) 63 54)) :
    let u := fetched s c
    let v := dGet u c rt.toNat
    let pa := fld v 51 8 * 256 + fld v 63 54 / 64 * 8
    ∃ t, exec (.visgi c rt) s = .next t ∧ (getCore t c).pc = pcNext s c ∧ homeWord t pa = homeWord u pa ||| 2 ^ (fld v 63 54 % 64) ∧
      (∀ p ∈ t.net, p.cmd = .irq → p ∈ u.net) ∧ ∀ r, dGet t c r = dGet u c r := by
  intro u v pa
  obtain ⟨w, hw, hacted, hword⟩ := postTo_quiet hq (fld_lt _ 63 54)
  have ht := runInstr_intr (n := 0x815) rfl h hc hcheck (sysTarget_of_plain (.inr (by decide))) (by decide) hw
  obtain ⟨r, hcore⟩ := hacted.cores c
  have hss : bit (getCore w c).cstat 7 = false := by rw [hcore]; exact h.ss
  have hst : (getCore w c).stepping = false := by rw [hcore]; exact h.free
  have hret := retired_refl hc hss hst
  refine ⟨_, rfl, ?_⟩
  rw [ht]
  refine ⟨hret.pc.trans (by rw [hcore, pcNext_of_ne hc]), (hret.rest.homeWord _).trans hword, fun p hp _ => ?_,
    fun r => (hret.d r).trans (dGet_congr (by rw [hcore]) r)⟩
  rwa [hret.rest.net, hacted.net] at hp

/-- VIACK where an interrupt waits (R534). -/
theorem viack_takes {c : CoreId} {rt : BitVec 5} {o : OpS} {s : State} {g : Sig} (hrt : o.rt = rt) (h : Runs s c) (hc : c.val ≠ 240)
    (hcheck : sysCheck (fetched s c) c o.rt.toNat o.sys.toNat false (wordS o 0x001) = none) (htgt : sysTarget (fetched s c) c o.sys.toNat = 0x811)
    (hg : bestSig (guestSigs (fetched s c) c) = some g)
    (hfree : HomeFree (fetched s c) (vpostRecord (fetched s c) c + g.intid / 64 * 8) (secOf (getCore (fetched s c) c))) :
    let u := fetched s c
    let t := runInstr s c (bodySysrd c o)
    let pa := vpostRecord u c + g.intid / 64 * 8
    let d := fld (sysGet u c 0x813 false) 2 0
    (getCore t c).pc = pcNext s c ∧ (∀ r, dGet t c r = dUpd (dGet u c) rt.toNat (BitVec.ofNat 64 (g.prio % 256 * 65536 + g.intid)) r) ∧
      (∀ j, (getCore t c).vpend.testBit j = (decide (j ≠ g.intid) && (getCore u c).vpend.testBit j)) ∧
      (∀ j, (homeWord t pa).testBit j = (decide (j ≠ g.intid % 64) && (homeWord u pa).testBit j)) ∧
      fld (sysGet t c 0x813 false) 2 0 = d + 1 ∧ fld (sysGet t c 0x813 false) (8 * d + 15) (8 * d + 8) = g.prio := by
  intro u t pa d
  subst hrt
  obtain ⟨hid, hprio, _, hdepth⟩ := guestSigs_spec (bestSig_spec hg).1
  obtain ⟨w, hread, ⟨resv, vpend, sys, hcore⟩, hvpend, hword, hrun, _⟩ := readViack_some hg hfree
  have hread' : sysRead u c (sysTarget u c o.sys.toNat) = (iackWord (some g), w) := by rw [htgt]; exact hread
  have hss : bit (getCore w c).cstat 7 = false := by rw [hcore]; exact h.ss
  have hst : (getCore w c).stepping = false := by rw [hcore]; exact h.free
  have ht : t = complete (dSet w c o.rt.toNat (iackWord (some g))) c (nextPc w c) := runInstr_done h (bodySysrd_acts (dOk_of_ne hc _) hcheck hread')
  have hret := retired_dSet hc hss hst o.rt.toNat (iackWord (some g))
  have hD : dGet w c = dGet u c := funext (dGet_congr (by rw [hcore]))
  have hvirun : sysGet t c 0x813 false = pushPri (sysGet u c 0x813 false) g.prio := by
    have hne : ∀ pl, pl < 4 → 0x813 ≠ spNum pl := by decide
    rw [ht, hret.sys 0x813 false (by decide) rfl (hne _ (plOf_lt _)), hrun]
  obtain ⟨hpush1, hpush2⟩ := pushPri_spec (v := sysGet u c 0x813 false) (p := g.prio) hdepth (by omega)
  rw [hvirun, ht]
  refine ⟨hret.pc.trans (by rw [hcore, pcNext_of_ne hc]), fun r => ?_, fun j => ?_, fun j => ?_, hpush1, hpush2⟩
  · rw [hret.d, hD]
    rfl
  · rw [vpend_complete_dSet hss hst]
    exact hvpend j
  · rw [hret.rest.homeWord]
    exact hword j

/-- VIACK where none waits. -/
theorem viack_none {c : CoreId} {o : OpS} {s : State} (h : Runs s c) (hc : c.val ≠ 240)
    (hcheck : sysCheck (fetched s c) c o.rt.toNat o.sys.toNat false (wordS o 0x001) = none) (htgt : sysTarget (fetched s c) c o.sys.toNat = 0x811)
    (hnone : bestSig (guestSigs (fetched s c) c) = none) : Retired c (fetched s c) (runInstr s c (bodySysrd c o))
      (dUpd (dGet (fetched s c) c) o.rt.toNat 0xFFFF) (aGet (fetched s c) c) (qGet (fetched s c) c) (pcNext s c) := by
  have hread : sysRead (fetched s c) c (sysTarget (fetched s c) c o.sys.toNat) = (0xFFFF, fetched s c) := by
    rw [htgt]
    show readViack (fetched s c) c = _
    rw [readViack, hnone]
  have hret := runInstr_dSet h (bodySysrd_acts (dOk_of_ne hc _) hcheck hread)
  rwa [trunc_of_ne hc] at hret

/-- VIEOI of the interrupt last on VIRUNPRI (R534). -/
theorem vieoi_pops {c : CoreId} {o : OpS} {s : State} (h : Runs s c) (hc : c.val ≠ 240)
    (hcheck : sysCheck (fetched s c) c o.rt.toNat o.sys.toNat true (wordS o 0x002) = none) (htgt : sysTarget (fetched s c) c o.sys.toNat = 0x812)
    (hd : 0 < fld (sysGet (fetched s c) c 0x813 false) 2 0) (hi : fld (dGet (fetched s c) c o.rt.toNat) 15 0 < 1024)
    (hlast : fld (sysGet (fetched s c) c 0x813 false) (8 * (fld (sysGet (fetched s c) c 0x813 false) 2 0 - 1) + 15)
      (8 * (fld (sysGet (fetched s c) c 0x813 false) 2 0 - 1) + 8) = fld (dGet (fetched s c) c o.rt.toNat) 15 0 / 4)
    (hquiet : PendQuiet (fetched s c) c) : let u := fetched s c
    let t := runInstr s c (bodySyswr c o)
    let run := sysGet u c 0x813 false
    (getCore t c).pc = pcNext s c ∧ fld (sysGet t c 0x813 false) 2 0 = fld run 2 0 - 1 ∧
      (∀ j, j < fld run 2 0 - 1 → fld (sysGet t c 0x813 false) (8 * j + 15) (8 * j + 8) = fld run (8 * j + 15) (8 * j + 8)) ∧
      ∀ r, dGet t c r = dGet u c r := by
  intro u t run
  obtain ⟨w, hw⟩ : ∃ w, writeVieoi u c (fld (dGet u c o.rt.toNat) 15 0) = w := ⟨_, rfl⟩
  obtain ⟨⟨vpend, sys, hcore⟩, hpop⟩ := writeVieoi_pops c.isLt hi hd hlast hquiet
  rw [hw] at hcore hpop
  have hb := bodySyswr_done (dOk_of_ne hc _) hcheck (by rw [htgt]; decide)
  have heff : sysWriteEff u c (sysTarget u c o.sys.toNat) (sysTarget u c o.sys.toNat != o.sys.toNat) (dGet u c o.rt.toNat) = w := by
    rw [htgt, ← hw]
    rfl
  dsimp only at hb
  rw [heff] at hb
  have ht : t = complete w c (nextPc w c) := runInstr_done h hb
  have hret := retired_refl hc (x := w) (by rw [hcore]; exact h.ss) (by rw [hcore]; exact h.free)
  have hvirun : sysGet t c 0x813 false = popPri run := by
    have hne : ∀ pl, pl < 4 → 0x813 ≠ spNum pl := by decide
    rw [ht, hret.sys 0x813 false (by decide) rfl (hne _ (plOf_lt _)), hpop]
  obtain ⟨h1, h2⟩ := popPri_spec (v := run) hd
  rw [hvirun, ht]
  exact ⟨hret.pc.trans (by rw [hcore, pcNext_of_ne hc]), h1, h2, fun r => (hret.d r).trans (dGet_congr (by rw [hcore]) r)⟩

/-- Settles O24: posts, notifications, VIACK, VIEOI and timers, by the lemmas above. -/
theorem guestInterruptsAndTimers : Obligations.GuestInterruptsAndTimers := by
  unfold Obligations.GuestInterruptsAndTimers
  refine ⟨?_, ?_, fun c p u s htake hno => ⟨_, rfl, postArrive_source htake hno⟩, ?_, ?_, ?_⟩
  · intro c rt s h hc u v pa hcheck hq
    exact visgi_posts h hc hcheck hq
  · intro r v s hq pa
    obtain ⟨t, ht, hacted, hword⟩ := postTo_quiet hq v.isLt
    exact ⟨t, congrArg ok ht, hword, fun p hp _ => hacted.net ▸ hp⟩
  · intro c rt guest s h hc u n hcheck htgt
    cases guest with
    | true =>
      refine ⟨fun hnone => ⟨_, rfl, viack_none (o := ⟨rt, 0x801⟩) h hc hcheck htgt hnone⟩, ?_⟩
      intro g hg pa hfree
      exact ⟨_, rfl, viack_takes (o := ⟨rt, 0x801⟩) rfl h hc hcheck htgt hg hfree⟩
    | false =>
      refine ⟨fun hnone => ⟨_, rfl, viack_none (o := ⟨rt, 0x811⟩) h hc hcheck htgt hnone⟩, ?_⟩
      intro g hg pa hfree
      exact ⟨_, rfl, viack_takes (o := ⟨rt, 0x811⟩) rfl h hc hcheck htgt hg hfree⟩
  · intro c rt guest s h hc u n run d i hcheck htgt hd hi hlast hquiet
    cases guest with
    | true => exact ⟨_, rfl, vieoi_pops (o := ⟨rt, 0x802⟩) h hc hcheck htgt hd hi hlast hquiet⟩
    | false => exact ⟨_, rfl, vieoi_pops (o := ⟨rt, 0x812⟩) h hc hcheck htgt hd hi hlast hquiet⟩
  · intro c lv w s w'
    have hw : w' = (w || decide (lv.val + 1 = 3)) := congrArg (w || ·) (decide_eq_decide.mpr (by omega))
    rw [hw]
    exact ⟨_, rfl, timerFires_pending s c (lv.val + 1) w, timerFires_only s c (lv.val + 1) w⟩

end Sys2Proof.Machine
end

section
/-! PROOFS. System register writes with effects of their own (R131, R132, R234, R296, R508, R514): what such a write leaves of its core
until it retires, then REGRAN, ATPOL, DBGAUTH, PKEY and the user-access window. -/
namespace Sys2Proof.Machine

open Sys2Proof

/-! ### What a write leaves of its core -/

section
variable {c : Nat} {ex ex' : List Nat} {u x y : State}

/-- From u to x core c's program counter, status and general registers stand, and so do its system registers but those of ex and the
event counters. -/
structure WriteKept (c : Nat) (ex : List Nat) (u x : State) : Prop where
  pc : (getCore x c).pc = (getCore u c).pc
  cstat : (getCore x c).cstat = (getCore u c).cstat
  stepping : (getCore x c).stepping = (getCore u c).stepping
  d : (getCore x c).d = (getCore u c).d
  q : (getCore x c).q = (getCore u c).q
  a : ∀ r, aGet x c r = aGet u c r
  sys : ∀ n w, n < 0x1000 → isCounter n = false → n ∉ ex → sysGet x c n w = sysGet u c n w

theorem WriteKept.refl (c : Nat) (ex : List Nat) (u : State) : WriteKept c ex u u :=
  ⟨rfl, rfl, rfl, rfl, rfl, fun _ => rfl, fun _ _ _ _ _ => rfl⟩

theorem WriteKept.trans (h1 : WriteKept c ex u x) (h2 : WriteKept c ex x y) : WriteKept c ex u y where
  pc := h2.pc.trans h1.pc
  cstat := h2.cstat.trans h1.cstat
  stepping := h2.stepping.trans h1.stepping
  d := h2.d.trans h1.d
  q := h2.q.trans h1.q
  a r := (h2.a r).trans (h1.a r)
  sys n w hn hc he := (h2.sys n w hn hc he).trans (h1.sys n w hn hc he)

theorem WriteKept.mono (h : WriteKept c ex u x) (hsub : ∀ n ∈ ex, n ∈ ex') : WriteKept c ex' u x :=
  { h with sys := fun n w hn hc he => h.sys n w hn hc fun hm => he (hsub n hm) }

/-- The core's record changes in what the registers do not show. -/
theorem WriteKept.of_fields (hpc : (getCore x c).pc = (getCore u c).pc) (hcs : (getCore x c).cstat = (getCore u c).cstat)
    (hst : (getCore x c).stepping = (getCore u c).stepping) (hd : (getCore x c).d = (getCore u c).d) (ha : (getCore x c).a = (getCore u c).a)
    (hq : (getCore x c).q = (getCore u c).q) (hsys : (getCore x c).sys = (getCore u c).sys)
    (hstale : (getCore x c).stale = (getCore u c).stale) : WriteKept c ex u x :=
  ⟨hpc, hcs, hst, hd, hq, aGet_congr ha hsys hcs hstale, fun n w _ _ _ => sysGet_congr hsys n w⟩

theorem WriteKept.of_core (h : getCore x c = getCore u c) : WriteKept c ex u x :=
  .of_fields (by rw [h]) (by rw [h]) (by rw [h]) (by rw [h]) (by rw [h]) (by rw [h]) (by rw [h]) (by rw [h])

theorem WriteKept.dropResv (u : State) (c : Nat) : WriteKept c ex u (dropResv u c) := by
  have hk : getCore (Machine.dropResv u c) c = { getCore u c with resv := none } := core_setCore_same ..
  exact .of_fields (by rw [hk]) (by rw [hk]) (by rw [hk]) (by rw [hk]) (by rw [hk]) (by rw [hk]) (by rw [hk]) (by rw [hk])

theorem WriteKept.counted (h : Counted c u x) : WriteKept c ex u x := by
  obtain ⟨hpc, hcs, hd, ha, hq, _, hstale, hst⟩ := h.fields
  exact ⟨hpc, hcs, hst, hd, hq, h.aGet, fun n w _ hn _ => h.sys n w hn⟩

/-- The numbers of the stack pointers (R53, R63). -/
def spNums : List Nat := [0x007, 0x107, 0x207, 0x307]

theorem spNum_ne {n : Nat} (h : n ∉ spNums) (k : Core) : n ≠ spNum (plOf k) := fun e => h (e ▸ spNum_mem (plOf_lt k))

/-- A write of a listed register that is no stack pointer. -/
theorem WriteKept.sysWrite {n : Nat} (hn : n ∈ ex) (hlt : n < 0x1000) (hsp : n ∉ spNums) (u : State) (w : Bool) (v : Word) :
    WriteKept c ex u (sysWrite u c n w v) := by
  obtain ⟨sys, stale, hk⟩ := sysWrite_core u c n w v
  refine ⟨by rw [hk], by rw [hk], by rw [hk], by rw [hk], by rw [hk], aGet_sysWrite hlt (spNum_ne hsp _), fun m x hm _ hne => ?_⟩
  exact sysGet_sysWrite_ne (fun e => hne (e ▸ hn)) hlt hm

theorem spNum_lt (pl : Nat) (h : pl < 4) : spNum pl < 0x1000 := by
  unfold spNum
  split <;> omega

/-- A register that is no stack pointer, set by hardware, changes no general register. -/
theorem aGet_sysSet {n : Nat} (hlt : n < 0x1000) (hsp : n ∉ spNums) (u : State) (w : Bool) (v : Word) (r : Nat) :
    aGet (sysSet u c n w v) c r = aGet u c r := by
  have hcore := sysSet_core u c n w v
  have hsame : ∀ x, sysGet (sysSet u c n w v) c (spNum (plOf (getCore u c))) x = sysGet u c (spNum (plOf (getCore u c))) x := fun x =>
    sysGet_sysSet_ne (sysKey_ne (Ne.symm (spNum_ne hsp _)) (spNum_lt _ (plOf_lt _)) hlt)
  unfold aGet
  split
  · rw [hcore]
    exact sysEff_congr (by rw [hcore]) (hsame _)
  · rw [hcore]

theorem WriteKept.sysSet {n : Nat} (hn : n ∈ ex) (hlt : n < 0x1000) (hsp : n ∉ spNums) (u : State) (w : Bool) (v : Word) :
    WriteKept c ex u (sysSet u c n w v) := by
  have hcore := sysSet_core u c n w v
  refine ⟨by rw [hcore], by rw [hcore], by rw [hcore], by rw [hcore], by rw [hcore], aGet_sysSet hlt hsp u w v, fun m x hm _ hne => ?_⟩
  exact sysGet_sysSet_ne (sysKey_ne (fun e => hne (e ▸ hn)) hm hlt)

/-- The instruction retires after the write. -/
theorem WriteKept.retire (h : WriteKept c ex u x) (hss : bit (getCore u c).cstat 7 = false) (hst : (getCore u c).stepping = false) (hc : c ≠ 240) :
    let t := complete x c (nextPc u c)
    ((getCore t c).pc = (getCore u c).pc + 4 ∧ (getCore t c).cstat = (getCore u c).cstat ∧
      (∀ n w, n < 0x1000 → isCounter n = false → n ∉ ex → sysGet t c n w = sysGet u c n w) ∧
      (∀ r, dGet t c r = dGet u c r) ∧ (∀ r, aGet t c r = aGet u c r) ∧ (∀ r, qGet t c r = qGet u c r)) ∧
    RegsKept c x t ∧ (getCore t c).resv = (getCore x c).resv ∧ (getCore t c).pred = (getCore x c).pred := by
  intro t
  have hss' : bit (getCore x c).cstat 7 = false := by rw [h.cstat]; exact hss
  have hst' : (getCore x c).stepping = false := h.stepping.trans hst
  have hkept : RegsKept c x t := complete_regsKept (nextPc u c) hss' hst'
  obtain ⟨sys, left, hk⟩ := complete_core (nextPc u c) hss' hst'
  refine ⟨⟨?_, by rw [hk]; exact h.cstat, fun n w hn hcnt he => (hkept.sys n w hcnt).trans (h.sys n w hn hcnt he),
    fun r => (dGet_congr hkept.d r).trans (dGet_congr h.d r), fun r => (aGet_complete _ hss' hst' r).trans (h.a r),
    fun r => (qGet_congr hkept.q r).trans (qGet_congr h.q r)⟩, hkept, by rw [hk], by rw [hk]⟩
  rw [pc_complete _ hss' hst', trunc_of_ne hc]
  rfl

end

/-- A SYSWR of a register whose number the interrupt interface does not redirect retires with the effect of its write. -/
theorem runInstr_syswr {c : CoreId} {rt : BitVec 5} {s x : State} {n : BitVec 12} (h : Runs s c) (hc : c.val ≠ 240)
    (hplain : n.toNat < 0x800 ∨ 0x804 < n.toNat) (hne : n.toNat ≠ 0x933)
    (hcheck : sysCheck (fetched s c) c rt.toNat n.toNat true (wordS ⟨rt, n⟩ 0x002) = none)
    (hw : sysWriteEff (fetched s c) c n.toNat false (dGet (fetched s c) c rt.toNat) = x)
    (hpc : (getCore x c).pc = (getCore (fetched s c) c).pc) :
    runInstr s c (bodySyswr c ⟨rt, n⟩) = complete x c (nextPc (fetched s c) c) := by
  have htgt := sysTarget_of_plain (s := fetched s c) (c := c.val) hplain
  rw [runInstr_intr rfl h hc hcheck htgt hne hw, nextPc, hpc, nextPc]

/-! ### REGRAN and ATPOL (R234, R296) -/

theorem sysWriteEff_regran (s : State) (c : Nat) (v : Word) : sysWriteEff s c 0x005 false v =
    if v = 0x40 ∨ v = 0x80 ∨ v = 0x100 then dropResv (sysWrite s c 0x005 (accWorld s c) v) c else s := rfl

theorem sysWriteEff_atpol {c : Nat} (hc : c ≠ 240) (s : State) (v : Word) : sysWriteEff s c 0x602 false v =
    let y := sysWrite s c 0x602 (accWorld s c)
      (writeFields (((sysInfo 0x602).map (·.fields)).getD []) false (sysGet s c 0x602 (accWorld s c)) v)
    if bit v 8 && bitOf y.features 8 then setCore y c { getCore y c with pred := [] } else y := by
  rw [← show sysInfoOf c 0x602 = sysInfo 0x602 from if_neg hc]
  rfl


/-- What REGRAN's write leaves: the granule where it is one of the three, and then no reservation. -/
theorem regran_takes {c : CoreId} {rt : BitVec 5} {s : State} (h : Runs s c) (hc : c.val ≠ 240)
    (hcheck : sysCheck (fetched s c) c rt.toNat 0x005 true (wordS ⟨rt, 0x005⟩ 0x002) = none)
    (hv : dGet (fetched s c) c rt.toNat = 0x40 ∨ dGet (fetched s c) c rt.toNat = 0x80 ∨ dGet (fetched s c) c rt.toNat = 0x100) :
    let u := fetched s c
    let v := dGet u c rt.toNat
    let x := dropResv (sysWrite u c 0x005 (accWorld u c) v) c
    let t := runInstr s c (bodySyswr c ⟨rt, 0x005⟩)
    t = complete x c (nextPc u c) ∧ WriteKept c [0x005] u x ∧ (getCore x c).resv = none ∧ sysGet x c 0x005 (accWorld u c) = v ∧ CoreOnly c u x := by
  intro u v x t
  have hk : getCore x c = { getCore (sysWrite u c 0x005 (accWorld u c) v) c with resv := none } := core_setCore_same ..
  have hkept : WriteKept c [0x005] u x := (WriteKept.sysWrite (by decide) (by decide) (by decide) u _ v).trans (.dropResv _ c)
  refine ⟨runInstr_syswr h hc (.inl (by decide)) (by decide) hcheck ?_ hkept.pc, hkept, by rw [hk], ?_, (CoreOnly.sysWrite ..).trans (.setCore ..)⟩
  · exact (sysWriteEff_regran u c v).trans (if_pos hv)
  · exact (sysGet_congr (by rw [hk]) _ _).trans (sysGet_sysWrite_same ..)

theorem atpolFields : ((sysInfo 0x602).map (·.fields)).getD [] = [⟨8, 8, .wo, 0, .any⟩, ⟨1, 0, .rw, 0, .range 0 2⟩] := by decide

/-- ATPOL keeps POLICY only, and only a value up to 2. -/
theorem writeFields_atpol (old v : Word) : writeFields (((sysInfo 0x602).map (·.fields)).getD []) false old v =
    if fld v 1 0 ≤ 2 then setFld old 1 0 (fld v 1 0) else old := by
  rw [atpolFields]
  show (if (decide (0 ≤ fld v 1 0) && decide (fld v 1 0 ≤ 2)) = true then setFld old 1 0 (fld v 1 0) else old) = _
  by_cases hle : fld v 1 0 ≤ 2 <;> simp [hle]

/-- What ATPOL's write leaves: POLICY, and an empty predictor where CLR asks for it and the feature is present. -/
theorem atpol_writes {c : CoreId} {rt : BitVec 5} {s : State} (h : Runs s c) (hc : c.val ≠ 240)
    (hcheck : sysCheck (fetched s c) c rt.toNat 0x602 true (wordS ⟨rt, 0x602⟩ 0x002) = none) :
    let u := fetched s c
    let v := dGet u c rt.toNat
    let w := accWorld u c
    ∃ x, runInstr s c (bodySyswr c ⟨rt, 0x602⟩) = complete x c (nextPc u c) ∧ WriteKept c [0x602] u x ∧ CoreOnly c u x ∧
      (getCore x c).resv = (getCore u c).resv ∧
      (getCore x c).pred = (if bit v 8 && u.features.testBit 8 then [] else (getCore u c).pred) ∧
      sysGet x c 0x602 w = if fld v 1 0 ≤ 2 then setFld (sysGet u c 0x602 w) 1 0 (fld v 1 0) else sysGet u c 0x602 w := by
  intro u v w
  obtain ⟨z, hz⟩ : ∃ z, z = writeFields (((sysInfo 0x602).map (·.fields)).getD []) false (sysGet u c 0x602 w) v := ⟨_, rfl⟩
  obtain ⟨y, hy⟩ : ∃ y, y = sysWrite u c 0x602 w z := ⟨_, rfl⟩
  have hval : sysGet y c 0x602 w = if fld v 1 0 ≤ 2 then setFld (sysGet u c 0x602 w) 1 0 (fld v 1 0) else sysGet u c 0x602 w := by
    rw [hy, sysGet_sysWrite_same, hz, writeFields_atpol]
  have hkept : WriteKept c [0x602] u y := hy ▸ WriteKept.sysWrite (by decide) (by decide) (by decide) u w z
  have honly : CoreOnly c u y := hy ▸ CoreOnly.sysWrite ..
  obtain ⟨sys, stale, hk⟩ := sysWrite_core u c 0x602 w z
  rw [← hy] at hk
  have hfeat : y.features = u.features := by rw [hy]; rfl
  have heff := sysWriteEff_atpol hc u v
  dsimp only at heff
  rw [← hz, ← hy, hfeat] at heff
  cases hclr : bit v 8 && bitOf u.features 8 with
  | false =>
    rw [hclr, if_neg Bool.false_ne_true] at heff
    exact ⟨y, runInstr_syswr h hc (.inl (by decide)) (by decide) hcheck heff hkept.pc, hkept, honly, by rw [hk], by
      rw [show (bit v 8 && u.features.testBit 8) = false from hclr, hk]; rfl, hval⟩
  | true =>
    rw [hclr, if_pos rfl] at heff
    have hk' : getCore (setCore y c { getCore y c with pred := [] }) c = { getCore y c with pred := [] } := core_setCore_same ..
    have hkept' : WriteKept c [0x602] u (setCore y c { getCore y c with pred := [] }) :=
      hkept.trans (.of_fields (by rw [hk']) (by rw [hk']) (by rw [hk']) (by rw [hk']) (by rw [hk']) (by rw [hk']) (by rw [hk']) (by rw [hk']))
    exact ⟨_, runInstr_syswr h hc (.inl (by decide)) (by decide) hcheck heff hkept'.pc, hkept', honly.trans (.setCore ..), by rw [hk', hk], by
      rw [show (bit v 8 && u.features.testBit 8) = true from hclr, hk']; rfl, (sysGet_congr (by rw [hk']) _ _).trans hval⟩

/-! ### DBGAUTH (R508, R514) -/

section
variable {s x : State} {c : Nat}

/-- A core's record after R514: it runs again where its world's invasive enable is 0. -/
def resumedCore (s : State) (k : Core) : Core := if k.halted && !(invasive s (secOf k)) then { k with halted := false } else k

theorem resumedCore_twice (s : State) (k : Core) : resumedCore s (resumedCore s k) = resumedCore s k := by
  unfold resumedCore
  cases hk : k.halted && !(invasive s (secOf k)) with
  | false => rw [if_neg Bool.false_ne_true, hk, if_neg Bool.false_ne_true]
  | true => rw [if_pos rfl]; rfl

theorem resumedCore_rst (s : State) (c : Nat) : resumedCore s (coreRst c) = coreRst c := by
  have hh : (coreRst c).halted = false := by
    unfold coreRst
    split <;> rfl
  rw [resumedCore, hh]
  rfl

/-- The step of `resumeDisabled`, at one core. -/
def resumeCore (s : State) (c : Nat) : State :=
  if (getCore s c).halted && !(invasive s (secOf (getCore s c))) then setCore s c { getCore s c with halted := false } else s

theorem resumeDisabled_eq (s : State) : resumeDisabled s = s.cores.foldl (fun s p => resumeCore s p.1) s := rfl

theorem core_resumeCore (s : State) (c c' : Nat) :
    getCore (resumeCore s c) c' = if c' = c then resumedCore s (getCore s c) else getCore s c' := by
  unfold resumeCore resumedCore
  by_cases he : c' = c
  · subst he
    rw [if_pos rfl]
    split
    · exact core_setCore_same ..
    · rfl
  · rw [if_neg he]
    split
    · exact core_setCore_ne he
    · rfl

theorem resumeCore_rest (s : State) (c : Nat) : ∃ l, resumeCore s c = { s with cores := l } := by
  unfold resumeCore
  split
  · exact ⟨_, rfl⟩
  · exact ⟨s.cores, rfl⟩

/-- After the cores of a list were looked at, those of the list have resumed where they must. -/
theorem foldl_resumeCore (l : List (Nat × Core)) (s : State) : ∃ cs, l.foldl (fun s p => resumeCore s p.1) s = { s with cores := cs } ∧
    ∀ c, getCore (l.foldl (fun s p => resumeCore s p.1) s) c = if c ∈ l.map (·.1) then resumedCore s (getCore s c) else getCore s c := by
  induction l generalizing s with
  | nil => exact ⟨s.cores, rfl, fun c => (if_neg List.not_mem_nil).symm⟩
  | cons p l ih =>
    obtain ⟨cs1, h1⟩ := resumeCore_rest s p.1
    obtain ⟨cs, hrest, hcore⟩ := ih (resumeCore s p.1)
    have hsame : ∀ k, resumedCore (resumeCore s p.1) k = resumedCore s k := fun k => by rw [h1]; rfl
    rw [List.foldl_cons]
    refine ⟨cs, by rw [hrest, h1], fun c => ?_⟩
    rw [hcore c, core_resumeCore, hsame, List.map_cons]
    by_cases hp : c = p.1
    · subst hp
      rw [if_pos rfl, if_pos List.mem_cons_self, resumedCore_twice, ite_self]
    · rw [if_neg hp]
      by_cases hl : c ∈ l.map (·.1)
      · rw [if_pos hl, if_pos (List.mem_cons_of_mem _ hl)]
      · rw [if_neg hl, if_neg fun hm => (List.mem_cons.mp hm).elim hp hl]

/-- A core that is in no list of cores is as after reset. -/
theorem getCore_of_not_mem (h : c ∉ s.cores.map (·.1)) : getCore s c = coreRst c := by
  rw [getCore]
  generalize s.cores = l at h
  induction l with
  | nil => rfl
  | cons p l ih =>
    rw [List.map_cons, List.mem_cons, not_or] at h
    obtain ⟨hp, hl⟩ := h
    exact (if_neg (Ne.symm hp)).trans (ih hl)

/-- Every halted core whose invasive enable fell runs again, and nothing else changes (R514). -/
theorem resumeDisabled_spec (s : State) : (∃ cs, resumeDisabled s = { s with cores := cs }) ∧
    ∀ c, getCore (resumeDisabled s) c = resumedCore s (getCore s c) := by
  obtain ⟨cs, hrest, hcore⟩ := foldl_resumeCore s.cores s
  rw [resumeDisabled_eq]
  refine ⟨⟨cs, hrest⟩, fun c => (hcore c).trans ?_⟩
  by_cases hm : c ∈ s.cores.map (·.1)
  · exact if_pos hm
  · rw [if_neg hm, getCore_of_not_mem hm, resumedCore_rst]

end


section
variable {u x t : State}

/-- DBGAUTH.POLICY takes v; a change of EFF joins the heat log's queue, and cores whose enable fell run again (R508, R514). -/
structure DbgWrote (v : Word) (u x : State) : Prop where
  policy : x.dbgPolicy = fld v 3 0
  core : ∀ c, getCore x c = resumedCore x (getCore u c)
  same : dbgEff x = dbgEff u → x.hlog = u.hlog
  recorded : dbgEff x ≠ dbgEff u → u.hlog.pend.length < 32 → ∃ r, x.hlog = { u.hlog with pend := u.hlog.pend ++ [r] } ∧ r.typ = 0x0021 ∧
    r.arg = dbgEff u * 16 + dbgEff x
  rest : { x with
    cores := u.cores
    hlog := u.hlog
    dbgPolicy := u.dbgPolicy } = u

theorem hlDevice_room {s : State} (h : s.hlog.pend.length < 32) (typ origin arg : Nat) (payload : BitVec 256) :
    hlDevice s typ origin arg payload =
      { s with hlog := { s.hlog with pend := s.hlog.pend ++ [⟨typ, origin, arg, payload, s.ptime, hlFlags s, none⟩] } } := if_pos h

theorem hlDevice_hlog (s : State) (typ origin arg : Nat) (payload : BitVec 256) : ∃ l, hlDevice s typ origin arg payload = { s with hlog := l } := by
  unfold hlDevice
  dsimp only
  split
  · exact ⟨_, rfl⟩
  · exact ⟨_, rfl⟩

theorem writeDbgauth_wrote (u : State) (b : By) (v : Word) : DbgWrote v u (writeDbgauth u b v) := by
  obtain ⟨y, hy⟩ : ∃ y : State, y = { u with dbgPolicy := fld v 3 0 } := ⟨_, rfl⟩
  obtain ⟨z, hz⟩ : ∃ z, z = if dbgEff y = dbgEff u then y else hlDevice y 0x0021 (originOf y b) (dbgEff u * 16 + dbgEff y) 0 := ⟨_, rfl⟩
  have hw : writeDbgauth u b v = resumeDisabled z := by rw [hz, hy]; rfl
  obtain ⟨⟨cs, hrest⟩, hcore⟩ := resumeDisabled_spec z
  obtain ⟨l, hl⟩ : ∃ l, z = { y with hlog := l } := by
    rw [hz]
    split
    · exact ⟨y.hlog, rfl⟩
    · exact hlDevice_hlog ..
  have heffz : dbgEff (resumeDisabled z) = dbgEff y := by rw [hrest, hl]; rfl
  rw [hw]
  refine ⟨by rw [hrest, hl, hy], fun c => ?_, fun he => ?_, fun hne hroom => ?_, by rw [hrest, hl, hy]⟩
  · have hres : ∀ k, resumedCore (resumeDisabled z) k = resumedCore z k := fun k => by rw [hrest]; rfl
    have hold : getCore z c = getCore u c := by rw [hl, hy]; rfl
    rw [hcore, hres, hold]
  · rw [heffz] at he
    rw [if_pos he] at hz
    rw [hrest, hz, hy]
  · rw [heffz] at hne ⊢
    rw [if_neg hne, hlDevice_room (by rw [hy]; exact hroom)] at hz
    refine ⟨⟨0x0021, originOf y b, dbgEff u * 16 + dbgEff y, 0, y.ptime, hlFlags y, none⟩, ?_, rfl, rfl⟩
    rw [hrest, hz, hy]

/-- A core's own registers stand, whether it runs on or again. -/
theorem DbgWrote.kept {v : Word} (h : DbgWrote v u x) (c : Nat) : WriteKept c [] u x ∧ (getCore x c).resv = (getCore u c).resv := by
  have hc := h.core c
  rw [resumedCore] at hc
  split at hc
  · exact ⟨.of_fields (by rw [hc]) (by rw [hc]) (by rw [hc]) (by rw [hc]) (by rw [hc]) (by rw [hc]) (by rw [hc]) (by rw [hc]), by rw [hc]⟩
  · exact ⟨.of_core hc, by rw [hc]⟩

end

/-- The write of DBGAUTH retires (R508). -/
theorem dbgauth_writes {c : CoreId} {rt : BitVec 5} {s : State} (h : Runs s c) (hc : c.val ≠ 240)
    (hcheck : sysCheck (fetched s c) c rt.toNat 0x581 true (wordS ⟨rt, 0x581⟩ 0x002) = none) :
    let u := fetched s c
    ∃ x, runInstr s c (bodySyswr c ⟨rt, 0x581⟩) = complete x c (nextPc u c) ∧ DbgWrote (dGet u c rt.toNat) u x := by
  intro u
  have hwrote := writeDbgauth_wrote u (byCore u c) (dGet u c rt.toNat)
  exact ⟨_, runInstr_syswr h hc (.inl (by decide)) (by decide) hcheck rfl (hwrote.kept c).1.pc, hwrote⟩

/-! ### Protection keys and the user-access window (R131, R132) -/

theorem pkey_banked {c : Nat} (hc : c ≠ 240) (w : Bool) : sysKey c 0x006 w = if w then 0x1006 else 0x006 := by
  have hb : sysBanked c 0x006 = true := by
    rw [sysBanked, if_neg (show c ≠ mpCore from hc)]
    decide
  rw [sysKey, hb, Bool.true_and]

theorem okS_pkey {c : CoreId} {o : OpS} (hc : c.val ≠ 240) (ho : o.sys = 0) : (okS c.val o true false && c.val != mpCore) = true := by
  have hne : (c.val != mpCore) = true := by simpa [mpCore] using hc
  rw [hne, okS, dOk_of_ne hc, ho]
  rfl

/-- WRPKEY (R131). -/
theorem wrpkey_writes {c : CoreId} {o : OpS} {s : State} (h : Runs s c) (hc : c.val ≠ 240) (ho : o.sys = 0) :
    let u := fetched s c
    let w := secOf (getCore u c)
    let x := sysSet u c 0x006 w (dGet u c o.rt.toNat &&& 0xFFFFFFFF)
    exec (.wrpkey c o) s = .next (complete x c (nextPc u c)) ∧ WriteKept c [0x006] u x ∧ CoreOnly c u x ∧
      (getCore x c).resv = (getCore u c).resv ∧ sysGet x c 0x006 w = ((dGet u c o.rt.toNat).setWidth 32).setWidth 64 ∧
      sysGet x c 0x006 (!w) = sysGet u c 0x006 (!w) := by
  intro u w x
  obtain ⟨z, hk⟩ : ∃ z, getCore x c = { getCore u c with sys := z } := ⟨_, sysSet_core ..⟩
  have hokS := okS_pkey hc ho
  refine ⟨?_, WriteKept.sysSet (by decide) (by decide) (by decide) u w _, .sysSet .., by rw [hk], ?_, ?_⟩
  · have hb : guardWord (okS c.val o true false && c.val != mpCore) (wordS o 0x040) (fun s =>
        doneNext (sysSet s c.val 0x006 (secOf (getCore s c.val)) (dGet s c.val o.rt.toNat &&& 0xFFFFFFFF)) c.val) u =
        (.done (nextPc u c), x) := by
      rw [guardWord_of_ok hokS, doneNext]
      show (Res.done (nextPc x c), x) = _
      rw [nextPc, hk]
      rfl
    exact congrArg ok (runInstr_done h hb)
  · rw [← and_low32]
    exact sysGet_sysSet_same ..
  · refine sysGet_sysSet_ne ?_
    rw [pkey_banked hc, pkey_banked hc]
    cases w <;> decide

/-- RDPKEY (R131). -/
theorem rdpkey_reads {c : CoreId} {o : OpS} {s : State} (h : Runs s c) (hc : c.val ≠ 240) (ho : o.sys = 0) :
    let u := fetched s c
    ∃ t, exec (.rdpkey c o) s = .next t ∧ Retired c u t (dUpd (dGet u c) o.rt.toNat (sysGet u c 0x006 (secOf (getCore u c))))
      (aGet u c) (qGet u c) (pcNext s c) := by
  intro u
  have hret := runInstr_dSet (body := guardWord (okS c.val o true false && c.val != mpCore) (wordS o 0x041) (fun s =>
    (.done (nextPc s c.val), dSet s c.val o.rt.toNat (sysGet s c.val 0x006 (secOf (getCore s c.val)))))) h (guardWord_of_ok (okS_pkey hc ho) ..)
  rw [trunc_of_ne hc] at hret
  exact ⟨_, rfl, hret⟩


/-- A new status that keeps level, world and single step leaves the registers as the core sees them, and retires (R61). -/
theorem complete_cstat {u : State} {c : Nat} {z : Word} (hc : c ≠ 240) (hss : bit (getCore u c).cstat 7 = false)
    (hst : (getCore u c).stepping = false) (hz : ∀ i, i < 4 ∨ i = 7 → bit z i = bit (getCore u c).cstat i) :
    let t := complete (setCore u c { getCore u c with cstat := z }) c (nextPc u c)
    ((getCore t c).pc = (getCore u c).pc + 4 ∧ CoreOnly c u t ∧ (getCore t c).resv = (getCore u c).resv ∧
      (∀ r, dGet t c r = dGet u c r) ∧ (∀ r, aGet t c r = aGet u c r) ∧ (∀ r, qGet t c r = qGet u c r)) ∧
    (getCore t c).cstat = z ∧ ∀ n w, n < 0x1000 → isCounter n = false → sysGet t c n w = sysGet u c n w := by
  intro t
  obtain ⟨x, hx⟩ : ∃ x, x = setCore u c { getCore u c with cstat := z } := ⟨_, rfl⟩
  have hk : getCore x c = { getCore u c with cstat := z } := by rw [hx, core_setCore_same]
  have hss' : bit (getCore x c).cstat 7 = false := by rw [hk]; exact (hz 7 (.inr rfl)).trans hss
  have hst' : (getCore x c).stepping = false := by rw [hk]; exact hst
  have ht : t = complete x c (nextPc u c) := by rw [hx]
  have hkept : RegsKept c u t := by
    rw [ht]
    have hset : RegsKept c u x := hx ▸ RegsKept.setCore rfl rfl rfl rfl
    exact hset.trans (complete_regsKept _ hss' hst')
  obtain ⟨sys, left, hcore⟩ := complete_core (nextPc u c) hss' hst'
  rw [← ht] at hcore
  have hpl : plOf (getCore x c) = plOf (getCore u c) := by
    apply Nat.eq_of_testBit_eq
    intro i
    rw [plOf, plOf, hk, fld_testBit, fld_testBit]
    by_cases hi : i < 2
    · rw [hz _ (.inl (by omega))]
    · have hout : ¬(i < 1 + 1 - 0) := by omega
      simp [hout]
  have hsec : secOf (getCore x c) = secOf (getCore u c) := by
    rw [hk]
    exact hz 2 (.inl (by decide))
  have heff : ∀ n w, sysEff x c n w = sysEff u c n w := fun n w => sysEff_congr (by rw [hk]) (sysGet_congr (by rw [hk]) n w)
  refine ⟨⟨?_, hkept.rest, by rw [hcore, hk], dGet_congr hkept.d, fun r => ?_, qGet_congr hkept.q⟩, by rw [hcore, hk],
    fun n w _ hn => hkept.sys n w hn⟩
  · rw [ht, pc_complete _ hss' hst', trunc_of_ne hc]
    rfl
  · rw [ht, aGet_complete _ hss' hst']
    unfold aGet
    rw [hpl, hsec, heff, hk]

theorem bit_setBit (v : Word) (j i : Nat) (b : Bool) (hj : j < 64) : bit (setBit v j b) i = if i = j then b else bit v i := by
  rw [setBit, bit_setFld _ _ _ _ _ hj (Nat.le_refl _)]
  by_cases he : i = j
  · subst he
    rw [if_pos ⟨Nat.le_refl _, Nat.le_refl _⟩, if_pos rfl, Nat.sub_self]
    cases b <;> rfl
  · rw [if_neg (by omega), if_neg he]

/-- UACC.ON and UACC.OFF at PL1 (R132). -/
theorem bodyUacc_done {c : Nat} {u : State} (hc : c ≠ 240) (hpl : plOf (getCore u c) = 1) (sf : Nat) (on : Bool) :
    bodyUacc c ⟨0, 0⟩ sf on u = (.done (nextPc u c), setCore u c { getCore u c with cstat := setBit (getCore u c).cstat 6 on }) := by
  have hcond : ¬(c = mpCore ∨ (!(okS c ⟨0, 0⟩ false false)) = true ∨ plOf (getCore u c) ≠ 1) := by
    rintro (he | he | he)
    · exact hc he
    · exact Bool.false_ne_true he
    · exact he hpl
  rw [bodyUacc]
  dsimp only
  rw [if_neg hcond, doneNext, nextPc, core_setCore_same]
  rfl

end Sys2Proof.Machine
end

section
/-! PROOFS. CNTSAVE (R543, R544): saving the counters into the lines of a block the core owns, loading them from the lines of a block it
holds, and the obligation of the writes with effects of their own. -/
namespace Sys2Proof.Machine

open Sys2Proof

/-! ### The counters as a number -/

/-- A number of n digits of b bits, least significant first. -/
def digitsSum (b : Nat) (f : Nat → Nat) (n : Nat) : Nat := ((List.range n).map (fun i => f i * 2 ^ (b * i))).sum

section
variable {b n k : Nat} {f : Nat → Nat}

theorem digitsSum_succ (b : Nat) (f : Nat → Nat) (n : Nat) : digitsSum b f (n + 1) = digitsSum b f n + f n * 2 ^ (b * n) := by
  simp [digitsSum, List.range_succ]

theorem digitsSum_lt (hf : ∀ i, f i < 2 ^ b) : ∀ n, digitsSum b f n < 2 ^ (b * n)
  | 0 => by simp [digitsSum]
  | n + 1 => by
    calc digitsSum b f (n + 1) = digitsSum b f n + f n * 2 ^ (b * n) := digitsSum_succ b f n
      _ < 2 ^ (b * n) + f n * 2 ^ (b * n) := Nat.add_lt_add_right (digitsSum_lt hf n) _
      _ = (f n + 1) * 2 ^ (b * n) := by ring
      _ ≤ 2 ^ b * 2 ^ (b * n) := Nat.mul_le_mul_right _ (hf n)
      _ = 2 ^ (b * (n + 1)) := by rw [← Nat.pow_add]; congr 1; ring

/-- Digit k of such a number. -/
theorem digitsSum_digit (hf : ∀ i, f i < 2 ^ b) (hk : k < n) : digitsSum b f n / 2 ^ (b * k) % 2 ^ b = f k := by
  induction n with
  | zero => omega
  | succ n ih =>
    rw [digitsSum_succ]
    rcases Nat.lt_succ_iff_lt_or_eq.mp hk with hlt | rfl
    · obtain ⟨m, rfl⟩ := Nat.exists_eq_add_of_lt hlt
      have hpow : f (k + m + 1) * 2 ^ (b * (k + m + 1)) = 2 ^ (b * k) * (2 ^ b * (f (k + m + 1) * 2 ^ (b * m))) := by ring
      rw [hpow, Nat.add_mul_div_left _ _ (by positivity), Nat.add_mul_mod_self_left]
      exact ih hlt
    · rw [Nat.add_mul_div_right _ _ (by positivity), Nat.div_eq_of_lt (digitsSum_lt hf k), Nat.zero_add, Nat.mod_eq_of_lt (hf k)]

/-- Word k of a number of lines is a word of line k / 8. -/
theorem digitsSum_word (hf : ∀ i, f i < 2 ^ 512) (hk : k < 8 * n) :
    digitsSum 512 f n / 2 ^ (64 * k) % 2 ^ 64 = f (k / 8) / 2 ^ (64 * (k % 8)) % 2 ^ 64 := by
  have hdigit := digitsSum_digit hf (show k / 8 < n by omega)
  have hlow : ∀ x, x / 2 ^ (64 * (k % 8)) % 2 ^ 64 = x % 2 ^ 512 / 2 ^ (64 * (k % 8)) % 2 ^ 64 := fun x => by
    apply Nat.eq_of_testBit_eq
    intro i
    simp only [Nat.testBit_mod_two_pow, Nat.testBit_div_two_pow]
    by_cases hi : i < 64
    · have hin : i + 64 * (k % 8) < 512 := by omega
      simp [hin]
    · simp [hi]
  rw [← hdigit, ← hlow, Nat.div_div_eq_div_mul, ← Nat.pow_add, show 512 * (k / 8) + 64 * (k % 8) = 64 * k by omega]

end

theorem cntBytes_words (s : State) (c : Nat) : cntBytes s c = digitsSum 64 (fun i => (sysGet s c (cntBlock.getD i 0) false).toNat) 21 := rfl

/-- Register k of the block, as its lines hold it. -/
theorem cntBytes_word (s : State) (c : Nat) {k : Nat} (hk : k < 21) :
    cntBytes s c / 2 ^ (64 * k) % 2 ^ 64 = (sysGet s c (cntBlock.getD k 0) false).toNat := by
  rw [cntBytes_words]
  exact digitsSum_digit (fun i => (sysGet s c (cntBlock.getD i 0) false).isLt) hk

/-! ### Saving -/

section
variable {s t : State} {c line pa : Nat} {a : Attr}

/-- Core c owns a line its world may use. -/
structure Owned (s : State) (c line : Nat) (w : Bool) : Prop where
  st : (hline s c line).st = .m ∨ (hline s c line).st = .e
  err : (hline s c line).err = false
  world : (hline s c line).sec = true → w = true

theorem ownLine_owned (h : Owned s c line a.world) : ownLine s c line a = (.ok, s) := by
  unfold ownLine
  dsimp only
  rw [worldEvict_usable h.world, if_neg (Bool.eq_false_iff.mp h.err), if_pos h.st]

/-- The bytes line i of the block holds of the counters (21 words). -/
def savedLen (i : Nat) : Nat := if i = 2 then 40 else 64

/-- Line i of the block with the counters in it. -/
def savedLine (bytes i : Nat) (x : CLine) : CLine := { x with st := .m, data := linePut x.data 0 (savedLen i) (bytes >>> (512 * i)) }

theorem cntSaveLines_cons {i : Nat} {is : List Nat} {bytes : Nat} (h : Owned s c (pa / 64 + i) a.world) :
    cntSaveLines s c pa a bytes (i :: is) =
      cntSaveLines (breakResv (setHline s c (pa / 64 + i) (savedLine bytes i (hline s c (pa / 64 + i)))) c ((pa / 64 + i) * 64) 64) c pa a bytes is := by
  rw [cntSaveLines]
  dsimp only
  rw [ownLine_owned h]
  rfl

/-- The lines of a list of the block hold the counters; other cores lost reservations, and nothing else changed (R118, R543). -/
structure LinesSaved (c base bytes : Nat) (is : List Nat) (s t : State) : Prop where
  own : getCore t c = getCore s c
  others : ∀ c', ∃ r, getCore t c' = { getCore s c' with resv := r }
  hit : ∀ i ∈ is, hline t c (base + i) = savedLine bytes i (hline s c (base + i))
  miss : ∀ h l, (∀ i ∈ is, h * 2 ^ 46 + l ≠ c * 2 ^ 46 + (base + i)) → hline t h l = hline s h l
  rest : { t with
    cores := s.cores
    lines := s.lines } = s

theorem LinesSaved.nil (c base bytes : Nat) (s : State) : LinesSaved c base bytes [] s s :=
  ⟨rfl, fun c' => ⟨(getCore s c').resv, rfl⟩, fun _ hi => (List.not_mem_nil hi).elim, fun _ _ _ => rfl, rfl⟩

theorem LinesSaved.one (c base bytes i pa n : Nat) (s : State) :
    LinesSaved c base bytes [i] s (breakResv (setHline s c (base + i) (savedLine bytes i (hline s c (base + i)))) c pa n) := by
  obtain ⟨y, hy⟩ : ∃ y, y = setHline s c (base + i) (savedLine bytes i (hline s c (base + i))) := ⟨_, rfl⟩
  rw [← hy]
  have hothers := OnlyOthers.breakResv c pa n y
  have hresv := ResvOnly.breakResv y c pa n
  have hcore : ∀ c', getCore y c' = getCore s c' := fun c' => by rw [hy]; rfl
  refine ⟨hothers.own.trans (hcore c), fun c' => ?_, fun j hj => ?_, fun h l hne => ?_, ?_⟩
  · obtain ⟨r, hr⟩ := hresv.cores c'
    exact ⟨r, by rw [hr, hcore]⟩
  · rw [List.mem_singleton.mp hj, hline_congr hothers.lines, hy, hline_setHline_same]
  · rw [hline_congr hothers.lines, hy, hline_setHline_ne (hne i List.mem_cons_self)]
  · have hrest := hresv.rest
    calc ({ breakResv y c pa n with cores := s.cores, lines := s.lines } : State)
        = { ({ breakResv y c pa n with cores := y.cores } : State) with cores := s.cores, lines := s.lines } := rfl
      _ = s := by rw [hrest, hy]; rfl

theorem LinesSaved.cons {base bytes i : Nat} {is : List Nat} {s t u : State} (h1 : LinesSaved c base bytes [i] s t)
    (h2 : LinesSaved c base bytes is t u) (hi : i ∉ is) : LinesSaved c base bytes (i :: is) s u where
  own := h2.own.trans h1.own
  others c' := by
    obtain ⟨r1, e1⟩ := h1.others c'
    obtain ⟨r2, e2⟩ := h2.others c'
    exact ⟨r2, by rw [e2, e1]⟩
  hit j hj := by
    rcases List.mem_cons.mp hj with rfl | hj
    · rw [h2.miss c _ fun k hk he => hi (by rw [show j = k by omega]; exact hk), h1.hit j List.mem_cons_self]
    · rw [h2.hit j hj, h1.miss c _ fun k hk he => hi (by
        rw [List.mem_singleton.mp hk] at he
        rw [show i = j by omega]
        exact hj)]
  miss h l hne := (h2.miss h l fun j hj => hne j (List.mem_cons_of_mem _ hj)).trans
    (h1.miss h l fun j hj => hne j (List.mem_singleton.mp hj ▸ List.mem_cons_self))
  rest := by
    calc ({ u with cores := s.cores, lines := s.lines } : State)
        = { ({ u with cores := t.cores, lines := t.lines } : State) with cores := s.cores, lines := s.lines } := rfl
      _ = s := by rw [h2.rest, h1.rest]

/-- Saving goes through where the core owns the lines. -/
theorem cntSaveLines_owned {bytes : Nat} : ∀ {is : List Nat} {s : State}, is.Nodup → (∀ i ∈ is, Owned s c (pa / 64 + i) a.world) →
    ∃ t, cntSaveLines s c pa a bytes is = ((.ok, 0), t) ∧ LinesSaved c (pa / 64) bytes is s t
  | [], s, _, _ => ⟨s, rfl, .nil ..⟩
  | i :: is, s, hnd, hown => by
    obtain ⟨hi, hnd'⟩ := List.nodup_cons.mp hnd
    have hone := LinesSaved.one c (pa / 64) bytes i ((pa / 64 + i) * 64) 64 s
    rw [cntSaveLines_cons (hown i List.mem_cons_self)]
    obtain ⟨t, ht, hsaved⟩ := cntSaveLines_owned (bytes := bytes) hnd' fun j hj => by
      have hsame : hline _ c (pa / 64 + j) = hline s c (pa / 64 + j) := hone.miss c _ fun k hk he => hi (by
        rw [List.mem_singleton.mp hk] at he
        rw [show i = j by omega]
        exact hj)
      obtain ⟨hst, herr, hworld⟩ := hown j (List.mem_cons_of_mem _ hj)
      exact ⟨hsame ▸ hst, hsame ▸ herr, hsame ▸ hworld⟩
    exact ⟨t, ht, hone.cons hsaved hi⟩

/-- A saved line holds the block's words, and the bytes after them stand. -/
theorem savedLine_word (bytes : Nat) (x : CLine) {k : Nat} (hk : k < 21) :
    lineGet (savedLine bytes (k / 8) x).data (8 * (k % 8)) 8 = bytes / 2 ^ (64 * k) % 2 ^ 64 := by
  have hlen : savedLen (k / 8) ≤ 64 ∧ 8 * (k % 8) + 8 ≤ savedLen (k / 8) := by
    unfold savedLen
    split <;> omega
  rw [savedLine, lineGet_linePut_inside _ _ (by omega) (Nat.zero_le _) (by omega), Nat.shiftRight_eq_div_pow, Nat.div_div_eq_div_mul, ← Nat.pow_add]
  rw [show 512 * (k / 8) + 8 * (8 * (k % 8) - 0) = 64 * k by omega]

theorem savedLine_byte (bytes : Nat) (x : CLine) {j : Nat} (h1 : 40 ≤ j) (h2 : j < 64) : lineByte (savedLine bytes 2 x).data j = lineByte x.data j := by
  rw [savedLine, lineByte_linePut _ _ _ _ _ h2]
  exact if_neg (by rw [show savedLen 2 = 40 from rfl]; omega)

end

/-! ### Loading -/

section
variable {s t : State} {c pa : Nat} {a : Attr}

/-- Core c holds a line its world may use, not poisoned. -/
structure Readable (s : State) (c line : Nat) (w : Bool) : Prop where
  st : validSt (hline s c line).st = true
  sound : (hline s c line).poison = false
  world : (hline s c line).sec = true → w = true

theorem cntLoadLines_readable (hc : c ≠ 240) {i acc : Nat} {is : List Nat} (h : Readable s c (pa / 64 + i) a.world) :
    cntLoadLines s c pa a (i :: is) acc = cntLoadLines (countFree s c 0x007 ((pa / 64 + i) * 64)) c pa a is
      (acc + (hline s c (pa / 64 + i)).data.toNat * 2 ^ (512 * i)) := by
  rw [cntLoadLines_cons, readWb_usable hc h.st h.world, h.sound]

/-- The number that lines of the block make, in core c. -/
def linesSum (s : State) (c base : Nat) (is : List Nat) : Nat := (is.map (fun i => (hline s c (base + i)).data.toNat * 2 ^ (512 * i))).sum

theorem linesSum_congr {base : Nat} {is : List Nat} (h : ∀ i ∈ is, hline t c (base + i) = hline s c (base + i)) :
    linesSum t c base is = linesSum s c base is :=
  congrArg List.sum (List.map_congr_left fun i hi => by rw [h i hi])

/-- Loading goes through where the core holds the lines: events are counted, and the lines make a number. -/
theorem cntLoadLines_held (hc : c ≠ 240) : ∀ {is : List Nat} {s : State} {acc : Nat}, (∀ i ∈ is, Readable s c (pa / 64 + i) a.world) →
    ∃ t, cntLoadLines s c pa a is acc =
      ((.ok, acc + linesSum s c (pa / 64) is), t) ∧ Counted c s t
  | [], s, acc, _ => ⟨s, rfl, .refl ..⟩
  | i :: is, s, acc, hheld => by
    rw [cntLoadLines_readable hc (hheld i List.mem_cons_self)]
    obtain ⟨y, hy⟩ : ∃ y, y = countFree s c 0x007 ((pa / 64 + i) * 64) := ⟨_, rfl⟩
    have hcnt : Counted c s y := hy ▸ countFree_counted ..
    have hsame : ∀ l, hline y c l = hline s c l := hline_congr hcnt.only.lines c
    obtain ⟨t, ht, hrest⟩ := cntLoadLines_held hc (is := is) (s := y) (acc := acc + (hline s c (pa / 64 + i)).data.toNat * 2 ^ (512 * i))
      fun j hj => by
        obtain ⟨hst, hsound, hworld⟩ := hheld j (List.mem_cons_of_mem _ hj)
        exact ⟨hsame _ ▸ hst, hsame _ ▸ hsound, hsame _ ▸ hworld⟩
    refine ⟨t, ?_, hcnt.trans hrest⟩
    rw [← hy, ht, linesSum_congr fun j _ => hsame _, Nat.add_assoc]
    rfl

/-- Word k of the number the three lines of a block make. -/
theorem blockWord (s : State) (c base : Nat) {k : Nat} (hk : k < 24) :
    linesSum s c base [0, 1, 2] / 2 ^ (64 * k) % 2 ^ 64 =
      lineGet (hline s c (base + k / 8)).data (8 * (k % 8)) 8 := by
  have hlt : ∀ i, (hline s c (base + i)).data.toNat < 2 ^ 512 := fun i => BitVec.toNat_lt_twoPow_of_le (Nat.le_refl 512)
  have hword := digitsSum_word (n := 3) hlt hk
  rw [lineGet, Nat.shiftRight_eq_div_pow, show 8 * (8 * (k % 8)) = 64 * (k % 8) by omega]
  exact hword

end


/-! ### The counters during CNTSAVE (R544) -/

section
variable {c : Nat} {s t u x old : State}

theorem cntBlock_plain : ∀ n ∈ cntBlock, n < 0x1000 ∧ n ∉ spNums := by decide

/-- A register set to what it reads changes no register. -/
theorem WriteKept.sysSet_same {n : Nat} (hlt : n < 0x1000) (hsp : n ∉ spNums) {v : Word} (hv : isCounter n = false → v = sysGet s c n false) :
    WriteKept c [] s (Machine.sysSet s c n false v) := by
  have hkept : WriteKept c [n] s (Machine.sysSet s c n false v) := .sysSet List.mem_cons_self hlt hsp s false v
  refine { hkept with sys := fun m w hm hcnt _ => ?_ }
  by_cases hkey : sysKey c m w = sysKey c n false
  · have he : m = n := by
      by_contra hne
      exact sysKey_ne hne hm hlt hkey
    subst he
    have hread : ∀ y, sysGet y c m w = sysGet y c m false := fun y => by rw [sysGet, hkey, sysGet]
    rw [hread, hread, sysGet_sysSet_same]
    exact hv hcnt
  · exact sysGet_sysSet_ne hkey

/-- The counters put back: what reads as before stays so. -/
theorem foldl_cntKeep (old : State) (c : Nat) : ∀ (l : List Nat) (s : State), (∀ n ∈ l, n < 0x1000 ∧ n ∉ spNums) →
    (∀ n w, n < 0x1000 → isCounter n = false → sysGet s c n w = sysGet old c n w) →
    WriteKept c [] s (l.foldl (fun s n => sysSet s c n false (sysGet old c n false)) s) ∧
      CoreOnly c s (l.foldl (fun s n => sysSet s c n false (sysGet old c n false)) s) ∧
      (getCore (l.foldl (fun s n => sysSet s c n false (sysGet old c n false)) s) c).resv = (getCore s c).resv
  | [], s, _, _ => ⟨.refl .., .refl .., rfl⟩
  | n :: l, s, hl, hsame => by
    obtain ⟨hlt, hsp⟩ := hl n List.mem_cons_self
    have hkept : WriteKept c [] s (sysSet s c n false (sysGet old c n false)) := .sysSet_same hlt hsp fun hcnt => (hsame n false hlt hcnt).symm
    obtain ⟨hrest, honly, hresv⟩ := foldl_cntKeep old c l (sysSet s c n false (sysGet old c n false))
      (fun m hm => hl m (List.mem_cons_of_mem _ hm)) fun m w hm hcnt => (hkept.sys m w hm hcnt List.not_mem_nil).trans (hsame m w hm hcnt)
    exact ⟨hkept.trans hrest, (CoreOnly.sysSet ..).trans honly, hresv.trans (by rw [sysSet_core])⟩

theorem cntKeep_kept (h : WriteKept c [] old s) : WriteKept c [] old (cntKeep old s c) ∧ CoreOnly c s (cntKeep old s c) := by
  obtain ⟨hkept, honly, _⟩ := foldl_cntKeep old c cntBlock s cntBlock_plain fun n w hn hcnt => h.sys n w hn hcnt List.not_mem_nil
  exact ⟨h.trans hkept, honly⟩

/-! ### Loading the registers -/

/-- What register k of the block takes of the block's bytes. -/
def cntTaken (bytes k : Nat) : Word :=
  let n := cntBlock.getD k 0
  let v := BitVec.ofNat 64 (bytes >>> (64 * k))
  if n = 0x931 then v &&& 0xFF else writeFields (((sysInfo n).map (·.fields)).getD []) false 0 v

/-- The first k registers of the block loaded. -/
def cntLoaded (s : State) (c bytes k : Nat) : State :=
  (List.range k).foldl (fun s i => sysForce s c (cntBlock.getD i 0) false (cntTaken bytes i)) s

theorem cntLoad_eq (s : State) (c bytes : Nat) : cntLoad s c bytes = cntLoaded s c bytes 21 := rfl

theorem cntLoaded_succ (s : State) (c bytes k : Nat) :
    cntLoaded s c bytes (k + 1) = sysForce (cntLoaded s c bytes k) c (cntBlock.getD k 0) false (cntTaken bytes k) := by
  rw [cntLoaded, List.range_succ, List.foldl_append]
  rfl

theorem cntBlock_getD {k : Nat} (hk : k < 21) : cntBlock.getD k 0 ∈ cntBlock := by
  interval_cases k <;> decide

theorem cntBlock_getD_ne {j k : Nat} (hjk : j < k) (hk : k < 21) : cntBlock.getD j 0 ≠ cntBlock.getD k 0 := by
  have hnd : cntBlock.Nodup := by decide
  have hlen : cntBlock.length = 21 := by decide
  rw [List.getD_eq_getElem _ _ (by omega), List.getD_eq_getElem _ _ (by omega)]
  exact fun he => absurd (hnd.getElem_inj_iff.mp he) (by omega)

theorem sysGet_sysForce_ne {s : State} {c n m : Nat} {w x : Bool} {v : Word} (h : sysKey c m x ≠ sysKey c n w) :
    sysGet (sysForce s c n w v) c m x = sysGet s c m x :=
  (sysGet_congr (t := sysForce s c n w v) (by rw [sysForce_core, sysSet_core]) m x).trans (sysGet_sysSet_ne h)

/-- A register forced into effect holds back no other register's write. -/
theorem sysEff_sysForce_ne {s : State} {c n m : Nat} {w x : Bool} {v : Word} (h : sysKey c m x ≠ sysKey c n w) :
    sysEff (sysForce s c n w v) c m x = sysEff s c m x := by
  have hfind : (getCore (sysForce s c n w v) c).stale.find? (fun p => p.1 == sysKey c m x) =
      (getCore s c).stale.find? (fun p => p.1 == sysKey c m x) := by
    rw [sysForce_core, List.find?_filter]
    congr 1
    funext p
    by_cases hp : p.1 = sysKey c m x
    · rw [hp]
      simpa using h
    · simp [hp]
  rw [sysEff, hfind, sysGet_sysForce_ne h]
  rfl

theorem aGet_sysForce {n : Nat} (hlt : n < 0x1000) (hsp : n ∉ spNums) (s : State) (c : Nat) (w : Bool) (v : Word) (r : Nat) :
    aGet (sysForce s c n w v) c r = aGet s c r := by
  have heff : ∀ x, sysEff (sysForce s c n w v) c (spNum (plOf (getCore s c))) x = sysEff s c (spNum (plOf (getCore s c))) x := fun x =>
    sysEff_sysForce_ne (sysKey_ne (Ne.symm (spNum_ne hsp _)) (spNum_lt _ (plOf_lt _)) hlt)
  unfold aGet
  rw [sysForce_core]
  split
  · exact heff _
  · rfl

theorem WriteKept.sysForce {ex : List Nat} {n : Nat} (hn : n ∈ ex) (hlt : n < 0x1000) (hsp : n ∉ spNums) (s : State) (v : Word) :
    WriteKept c ex s (Machine.sysForce s c n false v) := by
  have hcore := sysForce_core s c n false v
  refine ⟨by rw [hcore], by rw [hcore], by rw [hcore], by rw [hcore], by rw [hcore], aGet_sysForce hlt hsp s c false v, fun m x hm _ hne => ?_⟩
  exact sysGet_sysForce_ne (sysKey_ne (fun e => hne (e ▸ hn)) hm hlt)

/-- The registers loaded hold what they took, and no other register but the block's changed. -/
theorem cntLoaded_spec (s : State) (c bytes : Nat) : ∀ {k : Nat}, k ≤ 21 →
    WriteKept c cntBlock s (cntLoaded s c bytes k) ∧ CoreOnly c s (cntLoaded s c bytes k) ∧
      (getCore (cntLoaded s c bytes k) c).resv = (getCore s c).resv ∧
      ∀ j, j < k → sysGet (cntLoaded s c bytes k) c (cntBlock.getD j 0) false = cntTaken bytes j
  | 0, _ => ⟨.refl .., .refl .., rfl, fun j hj => absurd hj (Nat.not_lt_zero j)⟩
  | k + 1, hk => by
    obtain ⟨hkept, honly, hresv, hval⟩ := cntLoaded_spec s c bytes (show k ≤ 21 by omega)
    have hmem := cntBlock_getD (show k < 21 by omega)
    obtain ⟨hlt, hsp⟩ := cntBlock_plain _ hmem
    rw [cntLoaded_succ]
    refine ⟨hkept.trans (.sysForce hmem hlt hsp _ _), honly.trans (.sysForce ..), by rw [sysForce_core]; exact hresv, fun j hj => ?_⟩
    rcases Nat.lt_succ_iff_lt_or_eq.mp hj with hlt' | rfl
    · obtain ⟨hltj, _⟩ := cntBlock_plain _ (cntBlock_getD (show j < 21 by omega))
      rw [sysGet_sysForce_ne (sysKey_ne (cntBlock_getD_ne hlt' (by omega)) hltj hlt), hval j hlt']
    · exact sysGet_sysForce_same ..

end


/-! ### CNTSAVE (R543) -/

section
variable {c : Nat} {u x1 x2 : State} {v : Word}

/-- The first line of the block a value of CNTSAVE names. -/
def cntBase (v : Word) : Nat := fld v 51 8 * 4

/-- What CNTSAVE's accesses are made with. -/
def cntAttr (u : State) (c : Nat) : Attr :=
  let w := secOf (getCore u c)
  ⟨w, fld (sysEff u c 0x422 w) 3 0, fld (sysEff u c 0x411 w) 62 52⟩

theorem cntBase_line (v : Word) : fld v 51 8 * 256 / 64 = cntBase v := by
  unfold cntBase
  omega

/-- The lines CNTSAVE writes, and those it reads. -/
def cntLines (on : Bool) : List Nat := if on then [0, 1, 2] else []

/-- CNTSAVE where both its halves go through. -/
theorem cntsave_done {p b : Nat} (hsb : (getCore u c).sb = [])
    (hsave : cntSaveLines u c (fld (sysGet u c 0x933 false) 51 8 * 256) (cntAttr u c) (cntBytes u c) (cntLines (bit v 1)) = ((.ok, p), x1))
    (hload : cntLoadLines (cntKeep u x1 c) c (fld v 51 8 * 256) (cntAttr u c) (cntLines (bit v 0)) 0 = ((.ok, b), x2)) :
    let z := sysWrite (cntKeep u x2 c) c 0x933 false (setFld 0 51 8 (fld v 51 8))
    cntsave c v u = (.done (nextPc z c), if bit v 0 then cntLoad z c b else z) := by
  have hon : (if bit v 1 then cntSaveLines u c (fld (sysGet u c 0x933 false) 51 8 * 256) (cntAttr u c) (cntBytes u c) [0, 1, 2]
      else ((LineAct.ok, 0), u)) = ((.ok, p), x1) := by
    rw [← hsave]
    cases bit v 1 <;> rfl
  have hon' : (if bit v 0 then cntLoadLines (cntKeep u x1 c) c (fld v 51 8 * 256) (cntAttr u c) [0, 1, 2] 0
      else ((LineAct.ok, 0), cntKeep u x1 c)) = ((.ok, b), x2) := by
    rw [← hload]
    cases bit v 0 <;> rfl
  rw [cntAttr] at hon hon'
  unfold cntsave
  dsimp only at hon hon' ⊢
  rw [hsb, List.any_nil, if_neg Bool.false_ne_true, hon]
  dsimp only
  rw [hon']
  dsimp only
  rw [Nat.mul_div_cancel _ (by decide : 0 < 256)]

/-- What CNTSAVE has done before it retires: the saved lines (x), then the registers of the core. -/
structure CntSaved (c : Nat) (v : Word) (u x z : State) : Prop where
  saved : LinesSaved c (cntBase (sysGet u c 0x933 false)) (cntBytes u c) (cntLines (bit v 1)) u x
  only : CoreOnly c x z
  kept : WriteKept c (0x933 :: (if bit v 0 then cntBlock else [])) u z
  named : fld (sysGet z c 0x933 false) 51 8 = fld v 51 8
  loaded : bit v 0 = true → ∀ k, k < 21 → sysGet z c (cntBlock.getD k 0) false = cntTaken (linesSum u c (cntBase v) [0, 1, 2]) k

theorem cntLines_lt {on : Bool} {i : Nat} (hi : i ∈ cntLines on) : on = true ∧ i < 3 := by
  cases on with
  | false => exact (List.not_mem_nil hi).elim
  | true =>
    refine ⟨rfl, ?_⟩
    simp only [cntLines, if_true, List.mem_cons, List.not_mem_nil, or_false] at hi
    omega

theorem LinesSaved.kept {base bytes : Nat} {is : List Nat} {s t : State} (h : LinesSaved c base bytes is s t) (ex : List Nat) : WriteKept c ex s t :=
  .of_core h.own

/-- CNTSAVE on a block the core owns and a block it holds (R543). -/
theorem cntsave_acts (hc : c ≠ 240) (hsb : (getCore u c).sb = [])
    (hown : bit v 1 = true → ∀ i, i < 3 → Owned u c (cntBase (sysGet u c 0x933 false) + i) (secOf (getCore u c)))
    (hheld : bit v 0 = true → ∀ i, i < 3 → Readable u c (cntBase v + i) (secOf (getCore u c)))
    (hne : bit v 0 = true → bit v 1 = true → cntBase (sysGet u c 0x933 false) ≠ cntBase v) :
    ∃ x z, cntsave c v u = (.done (nextPc u c), z) ∧ CntSaved c v u x z := by
  obtain ⟨x1, hsave, hsaved⟩ := cntSaveLines_owned (c := c) (pa := fld (sysGet u c 0x933 false) 51 8 * 256) (a := cntAttr u c) (s := u)
    (bytes := cntBytes u c) (is := cntLines (bit v 1)) (by cases bit v 1 <;> decide) (fun i hi => by
      obtain ⟨hon, hlt⟩ := cntLines_lt hi
      rw [cntBase_line]
      exact hown hon i hlt)
  rw [cntBase_line] at hsaved
  obtain ⟨hkeep1, honly1⟩ := cntKeep_kept (c := c) (hsaved.kept [])
  have hline1 : bit v 0 = true → ∀ i, i < 3 → hline (cntKeep u x1 c) c (cntBase v + i) = hline u c (cntBase v + i) := fun hon i hi => by
    rw [hline_congr honly1.lines]
    refine hsaved.miss c _ fun j hj heq => ?_
    obtain ⟨hon1, hj3⟩ := cntLines_lt hj
    have hdiff := hne hon hon1
    unfold cntBase at heq hdiff
    omega
  obtain ⟨x2, hload, hcnt⟩ := cntLoadLines_held hc (pa := fld v 51 8 * 256) (a := cntAttr u c) (acc := 0) (is := cntLines (bit v 0))
    (s := cntKeep u x1 c) (fun i hi => by
      obtain ⟨hon, hlt⟩ := cntLines_lt hi
      obtain ⟨hst, hsound, hworld⟩ := hheld hon i hlt
      rw [cntBase_line]
      exact ⟨by rw [hline1 hon i hlt]; exact hst, by rw [hline1 hon i hlt]; exact hsound, by rw [hline1 hon i hlt]; exact hworld⟩)
  obtain ⟨hkeep2, honly2⟩ := cntKeep_kept (c := c) (hkeep1.trans (.counted hcnt))
  obtain ⟨z, hz⟩ : ∃ z, z = sysWrite (cntKeep u x2 c) c 0x933 false (setFld 0 51 8 (fld v 51 8)) := ⟨_, rfl⟩
  have hzkept : WriteKept c [0x933] u z :=
    (hkeep2.mono fun _ hn => (List.not_mem_nil hn).elim).trans (hz ▸ WriteKept.sysWrite (by decide) (by decide) (by decide) _ _ _)
  have hzonly : CoreOnly c x1 z := ((honly1.trans hcnt.only).trans honly2).trans (hz ▸ CoreOnly.sysWrite ..)
  have hznamed : fld (sysGet z c 0x933 false) 51 8 = fld v 51 8 := by
    rw [hz, sysGet_sysWrite_same]
    exact fld_setFld_fld 0 v 51 8 (by decide) (by decide)
  have hdone := cntsave_done hsb hsave hload
  dsimp only at hdone
  rw [← hz, nextPc, hzkept.pc] at hdone
  cases hon : bit v 0 with
  | false =>
    rw [hon, if_neg Bool.false_ne_true] at hdone
    exact ⟨x1, z, hdone, hsaved, hzonly, by rw [hon]; exact hzkept, hznamed, fun ht => (Bool.false_ne_true (hon.symm.trans ht)).elim⟩
  | true =>
    obtain ⟨hlkept, hlonly, _, hlval⟩ := cntLoaded_spec z c (linesSum u c (cntBase v) [0, 1, 2]) (Nat.le_refl 21)
    have hbytes : 0 + linesSum (cntKeep u x1 c) c (fld v 51 8 * 256 / 64) (cntLines (bit v 0)) = linesSum u c (cntBase v) [0, 1, 2] := by
      rw [hon, cntBase_line, Nat.zero_add]
      exact linesSum_congr fun i hi => hline1 hon i (cntLines_lt (on := true) hi).2
    rw [hbytes, hon, if_pos rfl, cntLoad_eq] at hdone
    refine ⟨x1, _, hdone, hsaved, hzonly.trans hlonly, ?_, ?_, fun _ k hk => hlval k hk⟩
    · rw [hon, if_pos rfl]
      exact (hzkept.mono fun n hn => by rw [List.mem_singleton.mp hn]; exact List.mem_cons_self).trans
        (hlkept.mono fun n hn => List.mem_cons_of_mem _ hn)
    · rw [hlkept.sys 0x933 false (by decide) (by decide) (by decide)]
      exact hznamed

/-- Every byte of the block's registers loaded comes from its lines (R543). -/
theorem cntTaken_block (u : State) (c base : Nat) {k : Nat} (hk : k < 21) (h : cntBlock.getD k 0 ≠ 0x931) :
    cntTaken (linesSum u c base [0, 1, 2]) k = writeFields (((sysInfo (cntBlock.getD k 0)).map (·.fields)).getD []) false 0
      (BitVec.ofNat 64 (lineGet (hline u c (base + k / 8)).data (8 * (k % 8)) 8)) := by
  have hword := blockWord u c base (show k < 24 by omega)
  rw [cntTaken, if_neg h, ← hword, Nat.shiftRight_eq_div_pow]
  congr 1
  apply BitVec.eq_of_toNat_eq
  rw [BitVec.toNat_ofNat, BitVec.toNat_ofNat, Nat.mod_mod]

end

/-! ### The statement -/

section
variable {c : Nat} {v : Word} {u x z t : State}

/-- What the write changes outside core c: the lines saved, and reservations of other cores. -/
theorem CntSaved.frame (h : CntSaved c v u x z) (ht : CoreOnly c z t) :
    (∀ k l, l < 2 ^ 46 → bit v 1 = false ∨ k ≠ c ∨ l < cntBase (sysGet u c 0x933 false) ∨ cntBase (sysGet u c 0x933 false) + 2 < l →
      hline t k l = hline u k l) ∧
    (∀ c', c' ≠ c → { getCore t c' with resv := (getCore u c').resv } = getCore u c') ∧
    { t with
      cores := u.cores
      freeCtr := u.freeCtr
      lines := u.lines } = u := by
  have honly := h.only.trans ht
  refine ⟨fun k l hl hout => ?_, fun c' hne => ?_, ?_⟩
  · rw [hline_congr honly.lines]
    refine h.saved.miss k l fun i hi he => ?_
    obtain ⟨hon, hi3⟩ := cntLines_lt hi
    have hbase : cntBase (sysGet u c 0x933 false) < 2 ^ 46 - 3 := by
      have hfld := fld_lt (sysGet u c 0x933 false) 51 8
      unfold cntBase
      omega
    rcases hout with hoff | hk | hlo | hhi
    · exact Bool.false_ne_true (hoff.symm.trans hon)
    · omega
    · omega
    · omega
  · obtain ⟨r, hr⟩ := h.saved.others c'
    obtain ⟨_, hothers⟩ := honly
    rw [hothers c' hne, hr]
  · obtain ⟨he, _⟩ := honly
    have hrest := h.saved.rest
    calc ({ t with cores := u.cores, freeCtr := u.freeCtr, lines := u.lines } : State)
        = { ({ t with cores := x.cores, freeCtr := x.freeCtr } : State) with cores := u.cores, freeCtr := u.freeCtr, lines := u.lines } := rfl
      _ = { ({ x with cores := u.cores, lines := u.lines } : State) with freeCtr := u.freeCtr } := by rw [he]
      _ = u := by rw [hrest]

/-- What SAVE leaves in the lines of the block: the counters, and the bytes after them. -/
theorem CntSaved.saves (h : CntSaved c v u x z) (ht : CoreOnly c z t) (hon : bit v 1 = true) :
    (∀ k, k < 21 → lineGet (hline t c (cntBase (sysGet u c 0x933 false) + k / 8)).data (8 * (k % 8)) 8 =
      (sysGet u c (cntBlock.getD k 0) false).toNat) ∧
    ∀ j, 40 ≤ j → j < 64 → lineByte (hline t c (cntBase (sysGet u c 0x933 false) + 2)).data j =
      lineByte (hline u c (cntBase (sysGet u c 0x933 false) + 2)).data j := by
  have hhit : ∀ i, i < 3 → hline t c (cntBase (sysGet u c 0x933 false) + i) =
      savedLine (cntBytes u c) i (hline u c (cntBase (sysGet u c 0x933 false) + i)) := fun i hi => by
    rw [hline_congr (h.only.trans ht).lines]
    refine h.saved.hit i ?_
    rw [hon, cntLines, if_pos rfl]
    interval_cases i <;> decide
  refine ⟨fun k hk => ?_, fun j h1 h2 => ?_⟩
  · rw [hhit _ (by omega), savedLine_word _ _ hk, cntBytes_word u c hk]
  · rw [hhit 2 (by decide), savedLine_byte _ _ h1 h2]

end

theorem bodySyswr_cntsave {c : Nat} {o : OpS} {s : State} (hd : dOk c o.rt.toNat = true)
    (hcheck : sysCheck s c o.rt.toNat o.sys.toNat true (wordS o 0x002) = none) (htgt : sysTarget s c o.sys.toNat = 0x933) :
    bodySyswr c o s = cntsave c (dGet s c o.rt.toNat) s := by
  rw [bodySyswr, guardWord_of_ok (by simp [okS, hd]), hcheck]
  simp only [htgt, if_true]

/-- What DBGAUTH's write leaves of the block once it has retired. -/
theorem DbgWrote.frame {c : Nat} {v : Word} {u x t : State} (h : DbgWrote v u x) (ht : CoreOnly c x t) :
    t.dbgPolicy = fld v 3 0 ∧
    (∀ c', c' ≠ c → getCore t c' = (if (getCore u c').halted = true ∧ invasive t (secOf (getCore u c')) = false
      then { getCore u c' with halted := false } else getCore u c')) ∧
    (dbgEff t = dbgEff u → t.hlog = u.hlog) ∧
    (dbgEff t ≠ dbgEff u → u.hlog.pend.length < 32 → ∃ r, t.hlog = { u.hlog with pend := u.hlog.pend ++ [r] } ∧ r.typ = 0x0021 ∧
      r.arg = dbgEff u * 16 + dbgEff t) ∧
    { t with
      cores := u.cores
      freeCtr := u.freeCtr
      hlog := u.hlog
      dbgPolicy := u.dbgPolicy } = u := by
  obtain ⟨hrest, hothers⟩ := ht
  have hpol : t.dbgPolicy = x.dbgPolicy := by rw [← hrest]
  have hlog : t.hlog = x.hlog := by rw [← hrest]
  have heff : dbgEff t = dbgEff x := by rw [← hrest]; rfl
  have hinv : ∀ b, invasive x b = invasive t b := fun b => by rw [invasive, invasive, heff]
  refine ⟨hpol.trans h.policy, fun c' hne => ?_, fun he => hlog.trans (h.same (heff.symm.trans he)), fun hne hroom => ?_, ?_⟩
  · rw [hothers c' hne, h.core, resumedCore, hinv]
    simp only [Bool.and_eq_true, Bool.not_eq_true']
  · obtain ⟨r, hr, htyp, harg⟩ := h.recorded (heff ▸ hne) hroom
    exact ⟨r, hlog.trans hr, htyp, heff ▸ harg⟩
  · have hx := h.rest
    calc ({ t with cores := u.cores, freeCtr := u.freeCtr, hlog := u.hlog, dbgPolicy := u.dbgPolicy } : State)
        = { ({ t with cores := x.cores, freeCtr := x.freeCtr } : State) with
            cores := u.cores, freeCtr := u.freeCtr, hlog := u.hlog, dbgPolicy := u.dbgPolicy } := rfl
      _ = { ({ x with cores := u.cores, hlog := u.hlog, dbgPolicy := u.dbgPolicy } : State) with freeCtr := u.freeCtr } := by rw [hrest]
      _ = u := by rw [hx]

/-- The registers of the block whose loading the statement reads are no counters. -/
theorem cntBlock_named : ∀ k, k < 21 → (k = 0 ∨ (10 ≤ k ∧ k < 21 ∧ k ≠ 19)) →
    isCounter (cntBlock.getD k 0) = false ∧ cntBlock.getD k 0 ≠ 0x931 := by decide

/-- Settles O9: REGRAN, ATPOL, DBGAUTH and CNTSAVE, then the protection keys and the user-access window. -/
theorem systemRegisterWritesAndKeys : Obligations.SystemRegisterWritesAndKeys := by
  unfold Obligations.SystemRegisterWritesAndKeys
  refine ⟨fun c rt s h hc => ?_, fun c s h hc => ?_⟩
  · intro u w v kept
    have hpc : pcNext s c = (getCore u c).pc + 4 := pcNext_of_ne hc s
    refine ⟨fun hcheck => ⟨fun hv => ?_, fun hv => ?_⟩, fun hcheck => ?_, fun hcheck => ?_, fun hcheck hsb => ?_⟩
    · obtain ⟨ht, hkept, hresv, hval, honly⟩ := regran_takes h hc hcheck hv
      obtain ⟨hregs, hrk, hres, _⟩ := hkept.retire h.ss h.free hc
      rw [← ht] at hregs hrk hres
      rw [← hpc] at hregs
      exact ⟨_, rfl, (hrk.sys _ _ (by decide)).trans hval, hres.trans hresv, hregs, honly.trans hrk.rest⟩
    · have hb : sysWriteEff u c 0x005 false v = u := (sysWriteEff_regran u c v).trans (if_neg hv)
      refine ⟨_, rfl, ?_⟩
      rw [runInstr_syswr (n := 0x005) h hc (.inl (by decide)) (by decide) hcheck hb rfl, hpc]
      exact retired_refl hc h.ss h.free
    · obtain ⟨x, ht, hkept, honly, hresv, hpred, hval⟩ := atpol_writes h hc hcheck
      obtain ⟨hregs, hrk, hres, hpr⟩ := hkept.retire h.ss h.free hc
      rw [← ht] at hregs hrk hres hpr
      rw [← hpc] at hregs
      have hread := (hrk.sys 0x602 w (by decide)).trans hval
      refine ⟨_, rfl, fun hclr hf => ?_, fun hno => ?_, ?_, fun i hi => ?_, hres.trans hresv, hregs, honly.trans hrk.rest⟩
      · rw [hpr, hpred, hclr, hf]
        rfl
      · rw [hpr, hpred, if_neg]
        rw [Bool.and_eq_true]
        rintro ⟨h8, hf⟩
        rcases hno with hno | hno
        · exact Bool.false_ne_true (hno.symm.trans h8)
        · exact Bool.false_ne_true (hno.symm.trans hf)
      · rw [hread]
        split
        · exact fld_setFld_fld _ _ 1 0 (by decide) (by decide)
        · rfl
      · rw [hread]
        split
        · exact bit_setFld_outside _ 1 0 _ i (by decide) (by decide) (.inr (by omega))
        · rfl
    · obtain ⟨x, ht, hwrote⟩ := dbgauth_writes h hc hcheck
      obtain ⟨hkept, hresv⟩ := hwrote.kept c
      obtain ⟨hregs, hrk, hres, _⟩ := hkept.retire h.ss h.free hc
      rw [← ht] at hregs hrk hres
      rw [← hpc] at hregs
      obtain ⟨hpol, hothers, hsame, hrec, hrest⟩ := hwrote.frame hrk.rest
      exact ⟨_, rfl, hpol, hres.trans hresv, hregs, hothers, hsame, hrec, hrest⟩
    · intro a b open_ hown hheld hne
      have hbody : bodySyswr c ⟨rt, 0x933⟩ u = cntsave c v u :=
        bodySyswr_cntsave (o := ⟨rt, 0x933⟩) (dOk_of_ne hc _) hcheck (sysTarget_of_plain (n := 0x933) (.inr (by decide)))
      obtain ⟨x, z, hdone, hz⟩ := cntsave_acts hc hsb
        (fun hon i hi => by
          obtain ⟨hst, herr, hworld⟩ := hown hon i hi
          exact ⟨hst, herr, hworld⟩)
        (fun hon i hi => by
          obtain ⟨hst, hsound, hworld⟩ := hheld hon i hi
          exact ⟨hst, hsound, hworld⟩) hne
      have ht : runInstr s c (bodySyswr c ⟨rt, 0x933⟩) = complete z c (nextPc u c) := runInstr_done h (hbody.trans hdone)
      obtain ⟨hregs, hrk, _, _⟩ := hz.kept.retire h.ss h.free hc
      rw [← ht] at hregs hrk
      rw [← hpc] at hregs
      obtain ⟨hlines, hothers, hrest⟩ := hz.frame hrk.rest
      refine ⟨_, rfl, ?_, hregs, fun hon k hk => ?_, hz.saves hrk.rest, hlines, hothers, hrest⟩
      · rw [hrk.sys 0x933 false (by decide)]
        exact hz.named
      · obtain ⟨hcnt, hne931⟩ := cntBlock_named k (by omega) hk
        refine ((hrk.sys _ _ hcnt).trans (hz.loaded hon k (by omega))).trans ?_
        exact cntTaken_block u c (cntBase v) (by omega) hne931
  · intro u w kept
    have hpc : pcNext s c = (getCore u c).pc + 4 := pcNext_of_ne hc s
    refine ⟨fun o ho => ⟨?_, rdpkey_reads h hc ho⟩, fun hpl p hp => ?_⟩
    · obtain ⟨hexec, hkept, honly, hresv, hval, hother⟩ := wrpkey_writes h hc ho
      obtain ⟨hregs, hrk, hres, _⟩ := hkept.retire h.ss h.free hc
      obtain ⟨hpc', hcs, hsys, hd, ha, hq⟩ := hregs
      refine ⟨_, hexec, ⟨hpc'.trans hpc.symm, honly.trans hrk.rest, hres.trans hresv, hd, ha, hq⟩, hcs, (hrk.sys _ _ (by decide)).trans hval,
        (hrk.sys _ _ (by decide)).trans hother, fun n x hn hcnt hne => hsys n x hn hcnt fun hm => hne (List.mem_singleton.mp hm)⟩
    · have hset : ∀ b i, bit (setBit (getCore u c).cstat 6 b) i = if i = 6 then b else bit (getCore u c).cstat i := fun b i =>
        bit_setBit _ 6 i b (by decide)
      have hact : ∀ sf b, ∃ t, runInstr s c (bodyUacc c ⟨0, 0⟩ sf b) = t ∧ kept t ∧
          (∀ i, bit (getCore t c).cstat i = if i = 6 then b else bit (getCore u c).cstat i) ∧
          (∀ n x, n < 0x1000 → isCounter n = false → sysGet t c n x = sysGet u c n x) := fun sf b => by
        obtain ⟨hkept, hcs, hsys⟩ := complete_cstat (z := setBit (getCore u c).cstat 6 b) hc h.ss h.free fun i hi => by
          rw [hset, if_neg (by omega)]
        obtain ⟨hpc', hrest⟩ := hkept
        exact ⟨_, runInstr_done h (bodyUacc_done hc hpl sf b), ⟨hpc'.trans hpc.symm, hrest⟩, fun i => by rw [hcs, hset], hsys⟩
      rcases List.mem_cons.mp hp with rfl | hp
      · obtain ⟨t, ht, hrest⟩ := hact 0x050 true
        exact ⟨t, congrArg ok ht, hrest⟩
      · rw [List.mem_singleton.mp hp]
        obtain ⟨t, ht, hrest⟩ := hact 0x051 false
        exact ⟨t, congrArg ok ht, hrest⟩

end Sys2Proof.Machine
end
